-- ==== Sys2Proof/Word.lean ====
section
/-!
DEFINITION. The word types and their plainest arithmetic.
-/
namespace Sys2Proof

/-- A register word: registers are 32 bits wide (00_scope.md, Registers). -/
abbrev Word := BitVec 32

/-- An octet. -/
abbrev Byte := BitVec 8

/-- The number of bits of `n` that are 1, among the lowest `w`. -/
def popCount : Nat → Nat → Nat
  | 0, _ => 0
  | w + 1, n => n % 2 + popCount w (n / 2)

/-- `a` divided by `b`, rounded to the nearest integer, an exact half up (R6). -/
def divRound (a b : Nat) : Nat := (2 * a + b) / (2 * b)

/-- `a` divided by `b`, rounded up. -/
def divUp (a b : Nat) : Nat := (a + b - 1) / b

end Sys2Proof
end

