-- ==== Sys2Proof/Forms.lean ====
section
/-!
DEFINITION. What commands carry that is more than a number: the contents of the blocks, frames, headers, command blocks and
service arguments that come from outside.
-/
namespace Sys2Proof.Machine

/-- The payload of a ROLE block (Table 05.2). -/
structure RoleBlk where
  ack    : Bool
  pairOn : Bool
  pref   : Bool
  root   : Nat
  role   : Nat
  digest : Nat
  deriving DecidableEq, Repr

/-- A CMP request as OSCORE and CBOR processing find it (R119, R120): it can be executed; it is not protected; its protection
cannot be removed; OSCORE finds it replayed; its payload is malformed CBOR, lacks a key or has an unknown one; its path is none of Table 05.5. -/
inductive ReqForm where
  | good | unprotected | noDecrypt | replayed | badCbor | badPath
  deriving DecidableEq, Repr

/-- How a PTP message comes (Table 06.1): IEEE 802.3 per Annex E to 01-1B-19-00-00-00 or 01-80-C2-00-00-0E; UDP/IPv6 per
Annex D, multicast; any other way. -/
inductive PtpVia where
  | ethernet | udp6 | other
  deriving DecidableEq, Repr

/-- Who presents a DRAM request, as far as its clock may be stopped: a unit of Table 03.4 by its CLK_GATE bit, a bobbin, or a
unit that neither gates nor restarts. -/
inductive Requester where
  | unit (u : Fin 13)
  | bobbin (b : Fin 16)
  | other
  deriving DecidableEq, Repr

/-- A key command (Table 18.5); `reserved` says that a byte the table gives as 0 is not 0. -/
structure KeyBlk where
  op       : Nat
  slot     : Nat
  slot2    : Nat
  attr     : Nat
  role     : Nat
  inAddr   : Nat
  input    : List Byte
  outCap   : Nat
  out      : Nat
  reserved : Bool
  deriving DecidableEq, Repr

/-- A TIME frame's payload (Table 06.4). -/
structure TimeFrame where
  tx     : Nat
  echoTx : Nat
  echoRx : Nat
  devS   : Nat
  devNs  : Nat
  asn    : Nat
  epoch  : Nat
  state  : Nat
  deriving DecidableEq, Repr

/-- What the receive pipeline takes from the MAC header of a frame. `ftype` is the frame type, `version` the frame
version; `unsupported` says that the frame uses a feature of R24 that the device does not support; `srcMode` 0 none,
2 short, 3 extended; `dstMode` likewise; `level` and `kim` the security level and Key Identifier Mode; `srcPan` is the
PAN ID of R338, the destination's where PAN ID Compression applies. -/
structure MacHdr where
  fcf         : Nat
  ftype       : Nat
  version     : Nat
  ar          : Bool
  seq         : Nat
  unsupported : Bool
  dstPan      : Nat
  srcPan      : Nat
  dstMode     : Nat
  dst         : Nat
  srcMode     : Nat
  src         : Nat
  secured     : Bool
  level       : Nat
  kim         : Nat
  keyIndex    : Nat
  counterSup  : Bool
  counter     : Nat
  ie          : Bool
  hdrLen      : Nat
  deriving DecidableEq, Repr

/-- What a frame says about its node's clock (R247, R249): an acknowledgement's Time Correction in µs, and the CSL Phase and CSL
Period of a CSL IE, both in units of 10 symbols. -/
structure ClockIe where
  tc     : Option Int := none
  phase  : Option Nat := none
  period : Nat := 0
  deriving DecidableEq, Repr

/-- A mirror record (Table 20.5). -/
structure MirrorRec where
  kind   : Nat
  sync   : Bool
  seq    : Nat
  region : Nat
  target : Nat
  data   : List Byte
  deriving DecidableEq, Repr

/-- A Transit Information option: path control preference, parent address, path lifetime in seconds. -/
structure Transit where
  pref   : Nat
  parent : Nat
  life   : Nat
  deriving DecidableEq, Repr

/-- The keys 12 to 17 of pan operation 2: the static /64 (`some none` for null), RPL values, contexts as number and prefix,
none to clear one. -/
structure PanKeys where
  prefix64 : Option (Option Nat)
  inst     : Option Nat
  minHop   : Option Nat
  trickle  : Option (Nat × Nat × Nat)
  ocp      : Option Nat
  contexts : List (Nat × Option Nat)
  deriving DecidableEq, Repr

/-- What image operation 6 names beside the PAN and the image. -/
structure CampaignArgs where
  mask    : Nat
  bound   : Nat
  szx     : Nat
  blockMs : Nat
  rounds  : Nat
  reportS : Nat
  delayS  : Nat
  deriving DecidableEq, Repr

/-- The keys 12 to 18 of zone operation 2; an array of another length is no array of Table 17.2. -/
structure ZoneKeys where
  pan    : Option Nat
  levels : Option (List Nat)
  times  : Option (List Nat)
  fades  : Option (List Nat)
  light  : Option (List Nat)
  period : Option (List Nat)
  rep    : Option Nat
  deriving DecidableEq, Repr

end Sys2Proof.Machine
end

