-- ==== Sys2Proof/Pricking.lean ====
section
/-!
DEFINITION. The pricking (02_pricking.md) as data: its header, its section headers as they stand in the container, its
signature block, and the content of every section. What only the flash or an engine can find (an unreadable page, a
digest that does not match, a signature that does not verify) stands here as a Bool or an offset beside the fields.
-/
namespace Sys2Proof

/-- The header (Table 02.1). `digestOk`: STRUCT_DIGEST matches the digest recomputed over the payloads. -/
structure PrHeader where
  magic        : Nat
  format       : Nat
  hdrLen       : Nat
  totalLen     : Nat
  part         : Nat
  minRev       : Nat
  sectCount    : Nat
  version      : Nat
  structDigest : Nat
  digestOk     : Bool
  deriving DecidableEq, Repr

/-- A section header as it stands in the container (R26), with its byte offset from the start. -/
structure SectHdr where
  offset : Nat
  typ    : Nat
  flags  : Nat
  length : Nat
  deriving DecidableEq, Repr

/-- The signature block (R27). `sigOk`: SIGNATURE verifies. -/
structure SigBlock where
  typ    : Nat
  flags  : Nat
  length : Nat
  signer : Nat
  alg    : Nat
  sigOk  : Bool
  deriving DecidableEq, Repr

/-- A credential record of the ROLE section. `keyOk`: the digest matches the key (R32). -/
structure RoleRec where
  role   : Nat
  digest : Nat
  key    : Nat
  keyOk  : Bool
  deriving DecidableEq, Repr

/-- A band profile (Table 02.3). -/
structure Profile where
  lowKhz    : Nat
  highKhz   : Nat
  maxPwr    : Int
  lbt       : Nat
  ccaThr    : Int
  ccaUs     : Nat
  offMs     : Nat
  onMs      : Nat
  duty      : Nat
  windowS   : Nat
  backoffUs : Nat
  deriving DecidableEq, Repr

/-- The TABLE payload (Table 02.4); `regions` are the eight (base, size) pairs. -/
structure TableSec where
  nodeLimit : Nat
  ageLimitS : Nat
  seed0     : Nat
  seed1     : Nat
  regions   : List (Nat × Nat)
  deriving DecidableEq, Repr

/-- A queue record (Table 02.5). -/
structure QueueRec where
  queue    : Nat
  mem      : Nat
  flags    : Nat
  consumer : Nat
  depth    : Nat
  high     : Nat
  low      : Nat
  fcp      : Nat
  pfc      : Nat
  deriving DecidableEq, Repr

/-- A producer record. -/
structure ProdRec where
  queue   : Nat
  ep      : Nat
  credits : Nat
  deriving DecidableEq, Repr

/-- A hoop record (Table 02.6). -/
structure HoopRec where
  kind      : Nat
  idleDiv   : Nat
  bobbins   : Nat
  prio      : Nat
  kinds     : Nat
  extSigner : Nat
  deriving DecidableEq, Repr

/-- A transceiver record (Table 02.7). -/
structure TrxRec where
  present   : Nat
  band      : Nat
  width     : Nat
  aerials   : Nat
  centreKhz : Nat
  spanKhz   : Nat
  lanes     : Nat
  profile   : Nat
  maxPwr    : Int
  wake      : Nat
  coex      : Nat
  deriving DecidableEq, Repr

/-- A lane record. -/
structure LaneRec where
  bind    : Nat
  phyMode : Nat
  chanKhz : Nat
  deriving DecidableEq, Repr

/-- A PAN record (Table 02.8). -/
structure PanRec where
  panId      : Nat
  access     : Nat
  trxMask    : Nat
  minSec     : Nat
  joinQ      : Nat
  ebPeriod   : Nat
  template   : Nat
  slotframes : Nat
  maxNodes   : Nat
  deriving DecidableEq, Repr

/-- The TIME payload (Table 02.9). -/
structure TimeSec where
  domains  : Nat
  dom1     : Nat
  dom2     : Nat
  profile  : Nat
  delay    : Nat
  srcOrder : Nat
  monPpm   : Nat
  jumpNs   : Nat
  deriving DecidableEq, Repr

/-- The PAIR payload. -/
structure PairSec where
  pref     : Nat
  witPorts : Nat
  witUdp   : Nat
  witAddr  : Nat
  deriving DecidableEq, Repr

/-- A pricking. `readFail` is the byte offset of the first page that could not be read; `reservedBad` lists, as
(section type, payload offset), every reserved byte that is not 0 (R29). -/
structure Pricking where
  header       : PrHeader
  readFail     : Option Nat
  sections     : List SectHdr
  sig          : SigBlock
  reservedBad  : List (Nat × Nat)
  vis          : List Nat
  roles        : List RoleRec
  profiles     : List Profile
  dram         : List Nat
  table        : TableSec
  queues       : List QueueRec
  producers    : List ProdRec
  orderedFlows : Nat
  hoops        : List HoopRec
  trxs         : List TrxRec
  lanes        : List LaneRec
  pans         : List PanRec
  time         : TimeSec
  pair         : Option PairSec
  deriving DecidableEq, Repr

/-- No pricking: what stands in the state until the first load. -/
def Pricking.none : Pricking where
  header := ⟨0, 0, 0, 0, 0, 0, 0, 0, 0, false⟩
  readFail := Option.none
  sections := []
  sig := ⟨0, 0, 0, 0, 0, false⟩
  reservedBad := []
  vis := []
  roles := []
  profiles := []
  dram := []
  table := ⟨0, 0, 0, 0, []⟩
  queues := []
  producers := []
  orderedFlows := 0
  hoops := []
  trxs := []
  lanes := []
  pans := []
  time := ⟨0, 0, 0, 0, 0, 0, 0, 0⟩
  pair := Option.none

end Sys2Proof
end

