-- ==== Sys2Proof/Syntax.lean ====
section
/-!
DEFINITION. The commands of the block: one constructor per row of the command table, in its order. What a command carries are
its operands: the fields of a register or a frame that it writes or brings, the outcome of what happens outside the logic
that is modelled (a signal, a check of an analog circuit), and `t`, the MAC time base at which it happens, where that
matters. The widths that a plain number must keep stand in WellFormed.lean.
-/
namespace Sys2Proof
open Sys2Proof.Machine

/-- A command (the rows of the command table). Each constructor cites the rule of its row. -/
inductive Instr where
  /-- R9: Write to a register that has no row of its own, judged by access type, RSV handling, range and state. -/
  | registerWrite (bob : Fin 16) (addr : Word) (value : Word) (narrow : Bool) (t : Nat)
  /-- R505: W1C write to an event register clears bits and releases EVENT_N when no enabled set bit remains. -/
  | eventClear (bob : Fin 16) (addr : Word) (value : Word) (t : Nat)
  /-- R505: Write to an event-enable register; enabling an already set event sends one notification at once. -/
  | eventEnableWrite (bob : Fin 16) (addr : Word) (value : Word) (t : Nat)
  /-- R96: VBAT first applied or reapplied; START_CAUSE and VBAT-domain registers take their reset values. -/
  | vbatApplied
  /-- R402: VBAT falls below 1.80 V; owner root becomes ABSENT with VBAT_LOST set. -/
  | vbatLost
  /-- R78: All main supplies good and RESET_N high for the analogue interval; device leaves UNPOWERED for
  AWAIT_TRAINING. -/
  | supplyGoodIntervalEnd (mode : Fin 4)
  /-- R79: A main supply falls below its lost threshold; PA enables low, outputs high impedance, return to UNPOWERED.
  -/
  | mainSupplyLost (supply : Fin 9)
  /-- R80: A RESET_N low pulse is taken with the effects of a supply loss. -/
  | resetNTaken
  /-- R52: A root source reaches CDR and block lock; enters ROOT_LOCK at start-up or ends PARK. -/
  | sourceLocked (src : Fin 3) (t : Nat)
  /-- R50: Loss of signal, CDR or block lock detected on a source; it stops being locked and qualified. -/
  | sourceLost (src : Fin 3) (t : Nat)
  /-- R84: Root PLL locks; every domain starts, MAC time base starts at 0 and DRAM_TRAIN begins. -/
  | rootPllLock
  /-- R84: Root PLL not locked within the bound; ST_START_ROOT_TIMEOUT and return to AWAIT_TRAINING. -/
  | rootLockTimeout
  /-- R85: A DRAM training stage completes or fails; next stage, retry, failure or entry to BOOT. -/
  | dramTrainStageEnd (ok : Bool) (t : Nat)
  /-- R85: A DRAM training attempt exceeds 2 ms and is repeated or fails. -/
  | dramTrainTimeout (t : Nat)
  /-- R465: Second stage has read and hashed every image and verified the manifest; PRICKING_LOAD entered or boot
  failure. -/
  | bootComplete (readFail : Bool) (t : Nat)
  /-- R87: BOOT exceeds 260 ms; ST_START_BOOT_TIMEOUT boot failure. -/
  | bootTimeout (t : Nat)
  /-- R40: Pricking read and checked; on success sections applied, registers loaded and bobbins released, otherwise
  failure reported. -/
  | prickingLoadDone (readFail : Option Nat) (t : Nat)
  /-- R88: PRICKING_LOAD from flash exceeds 20 ms; ST_START_LOAD_TIMEOUT boot failure. -/
  | prickingLoadTimeout (t : Nat)
  /-- R44: A check-only bench commit finishes step 5 and reports its outcome without changing state. -/
  | benchCheckDone (t : Nat)
  /-- R91: Main-hoop firmware writes START_CTRL.READY during STARTING. -/
  | readyWrite (mainHoop : Bool)
  /-- R91: START_WDOG limit passes without READY; boot failure and warm reset with cause 5. -/
  | readyTimeout (t : Nat)
  /-- R93: START_CTRL.CONTINUE releases a start-up hold. -/
  | continueWrite (t : Nat)
  /-- R92: READY written and all calibrations ended; slot timing starts, outputs released, SYS_EVENT.RUNNING set. -/
  | enterRunning (t : Nat)
  /-- R95: SYS_RESET.WARM starts a warm reset; new transmissions stop. -/
  | warmResetWrite (t : Nat)
  /-- R95: After the transmission ends, ports finish frames, blocks reset and BOOT is entered. -/
  | warmResetProceed (t : Nat)
  /-- R58: A clock monitor window of a locked source ends and is judged against the tolerance. -/
  | monitorWindowEnd (src : Fin 3) (meas : Int) (t : Nat)
  /-- R60: One second in HOLD; HOLD_TX_INHIBIT entered and an ACTIVE unit stops renewing. -/
  | hold1sMark (t : Nat)
  /-- R64: Thirty seconds in hold; device enters PARK. -/
  | hold30sMark (t : Nat)
  /-- R60: Root PLL loses lock while its source stays locked; ST_CLK_PLL_FAULT and PARK without self-refresh. -/
  | rootPllUnlock (t : Nat)
  /-- R54: CLK_SRC_CTRL.FORCE selects a named qualified source ahead of the order. -/
  | clkSrcForceWrite (force : Bool) (src : Fin 4)
  /-- R67: A non-main hoop has been idle for CLK_IDLE_CYC; its clock starts ramping to IDLE_DIV. -/
  | hoopIdle (hoop : Fin 4) (t : Nat)
  /-- R67: After 1,024 cycles at a divider, a hoop ramp takes its next divider step. -/
  | hoopRampStep (hoop : Fin 4)
  /-- R69: CLK_RESTART starts stop-switch-restart of a domain; clock stops after its next edge. -/
  | clkRestartGo (domain : Fin 16) (div : Fin 32)
  /-- R69: After 64 old periods the stopped domain's divider switches. -/
  | restartDividerSwitch (domain : Fin 16)
  /-- R69: After 64 new periods the restarted domain gives its first edge. -/
  | restartFirstEdge (domain : Fin 16)
  /-- R70: CLK_GATE bit set to 1 requests a gate, judged against the unit's condition. -/
  | gateRequest (unit : Fin 13)
  /-- R70: A pending gate closes once the unit's bus port is drained. -/
  | gateClose (unit : Fin 13)
  /-- R71: CLK_GATE bit written 0 ungates a unit or cancels a pending request. -/
  | ungate (unit : Fin 13)
  /-- R130: An ESMC PDU is decoded and the port's quality level updated. -/
  | esmcPduRx (port : Fin 2) (ssm : Fin 16) (essm : Option (Fin 256)) (t : Nat)
  /-- R130: No ESMC PDU for 5 s; the port is QL-FAILED. -/
  | esmcTimeout (port : Fin 2) (t : Nat)
  /-- R130: Once per second QL-DNU is sent on each trained upstream port. -/
  | esmcSend
  /-- R99: A listening port detects DME pages or block lock and selects KR or SFI mode. -/
  | uplSignalDetect (port : Fin 2) (dme : Bool)
  /-- R100: Port CDR acquires frequency and its transmitter leaves electrical idle. -/
  | uplAcquisitionDone (port : Fin 2)
  /-- R102: A partner next page is answered with a null message page. -/
  | uplNextPageRx (port : Fin 2)
  /-- R102: Clause 73 auto-negotiation completes and FEC is resolved. -/
  | uplAnComplete (port : Fin 2) (base : Fin 65536)
  /-- R103: Clause 72 training completes with receiver ready on both sides. -/
  | uplTrainingDone (port : Fin 2)
  /-- R50: Port reaches block lock and link is up. -/
  | uplBlockLock (port : Fin 2) (t : Nat)
  /-- R103: Clause 72 max_wait_timer expires; auto-negotiation restarts and TRAIN_FAILS increments. -/
  | uplTrainTimeout (port : Fin 2)
  /-- R104: A trained port loses link and returns to listening. -/
  | uplLinkLost (port : Fin 2) (t : Nat)
  /-- R105: UPLn_CTRL.ADMIN sets a port up, blocked or down, switching the root first if needed. -/
  | uplAdminWrite (port : Fin 2) (v : Fin 4)
  /-- R98: UPLn_CTRL.RETRAIN restarts training of the port. -/
  | uplRetrain (port : Fin 2)
  /-- R108: A received 802.3x pause frame stops new frames or is discarded by mode. -/
  | pauseFrameRx (port : Fin 2) (quanta : Fin 65536) (t : Nat)
  /-- R108: A received PFC frame stops queues of the named priorities or is discarded by mode. -/
  | pfcFrameRx (port : Fin 2) (entries : List (Fin 8 × Fin 65536)) (t : Nat)
  /-- R108: A received pause quanta count runs out and the affected queues may start frames. -/
  | pauseQuantaEnd (port : Fin 2) (prio : Fin 9) (t : Nat)
  /-- R107: A changed pause or PFC condition sends a pause or PFC frame. -/
  | fcFrameSend (port : Fin 2) (t : Nat)
  /-- R107: Half the sent quanta elapses while the condition holds; the frame is repeated. -/
  | fcFrameRepeat (port : Fin 2) (t : Nat)
  /-- R327: An Ethernet frame is received, takes a packet buffer and is enqueued or discarded. -/
  | uplFrameRx (port : Fin 2) (queue : Fin 256) (octets : List Byte) (fcsOk : Bool)
  /-- R111: Tie link has block lock and 64 consecutive ACQ blocks; phase 1 ends. -/
  | tieAcquisitionDone (t : Nat)
  /-- R111: A TRAIN block's coefficient request is applied and reported. -/
  | tieTrainBlockRx (pre : Fin 3) (main : Fin 3) (post : Fin 3) (preEdge : Bool) (mainEdge : Bool) (postEdge : Bool)
      (ready : Bool) (askPre : Fin 3) (askMain : Fin 3) (askPost : Fin 3) (askReady : Bool)
  /-- R111: Both units sent RX_READY in 16 blocks; phase 2 ends. -/
  | tieEqualiserDone (t : Nat)
  /-- R111: A ROLE block is received; ACK set after three identical blocks. -/
  | tieRoleBlockRx (b : RoleBlk)
  /-- R113: Phase 3 ends; TIE_PEER loaded and the link carries Amrek frames. -/
  | tieRoleExchangeDone (t : Nat)
  /-- R112: A tie training phase limit expires; ST_TIE_TRAIN_TIMEOUT and return to phase 1. -/
  | tiePhaseTimeout (t : Nat)
  /-- R111: TIE_CFG.RETRAIN returns the tie link to phase 1. -/
  | tieRetrain
  /-- R109: TIE_CFG.ENABLE holds or releases the tie transmitter, refused if it is the only root. -/
  | tieEnableWrite (on : Bool)
  /-- R116: Service port command 0x0B reads one of the reachable start-up registers. -/
  | svcReadRegister (addr : Word) (mode3 : Bool) (abandoned : Bool) (t : Nat)
  /-- R116: Service port command 0x02 writes one of the reachable start-up registers. -/
  | svcWriteRegister (addr : Word) (value : Word) (mode3 : Bool) (abandoned : Bool) (t : Nat)
  /-- R115: Command 0x05 returns the status of the last write or commit. -/
  | svcLastStatus (mode3 : Bool) (abandoned : Bool) (t : Nat)
  /-- R117: Command 0x20 writes a bench pricking chunk into the staging area. -/
  | svcBenchChunk (offset : Word) (data : List Byte) (mode3 : Bool) (abandoned : Bool) (t : Nat)
  /-- R117: Command 0x21 starts a bench load or check on the staging area. -/
  | svcBenchCommit (checkOnly : Bool) (mode3 : Bool) (abandoned : Bool) (t : Nat)
  /-- R118: Command 0x30 delivers one CoAP message into the inbound tunnel. -/
  | svcTunnelIn (message : List Byte) (mode3 : Bool) (abandoned : Bool) (t : Nat)
  /-- R118: Command 0x31 takes one outbound tunnel message. -/
  | svcTunnelOut (mode3 : Bool) (abandoned : Bool) (t : Nat)
  /-- R306: SCLK stops with CS_N high in mid message; the open packet is cut. -/
  | sclkStopMidMessage (t : Nat)
  /-- R121: CMP register read of 1 to 64 consecutive words under the session's role. -/
  | cmpRegRead (session : Fin 8) (mid : Fin 65536) (tunnel : Bool) (form : ReqForm) (addr : Word) (count : Nat) (t : Nat)
  /-- R121: CMP register write of words in ascending order, stopping at the first refusal. -/
  | cmpRegWrite (session : Fin 8) (mid : Fin 65536) (tunnel : Bool) (form : ReqForm) (addr : Word) (words : List Word) (t : Nat)
  /-- R122: CMP service POST returns a ticket at once and starts the service. -/
  | cmpServiceCall (session : Fin 8) (mid : Fin 65536) (tunnel : Bool) (form : ReqForm) (svc : Fin 11) (op : Fin 256) (key : KeyBlk) (t
      : Nat)
  /-- R123: GET of a ticket's result. -/
  | cmpResultGet (session : Fin 8) (mid : Fin 65536) (tunnel : Bool) (form : ReqForm) (ticket : Word) (t : Nat)
  /-- R123: DELETE of a ready ticket result. -/
  | cmpResultDelete (session : Fin 8) (mid : Fin 65536) (tunnel : Bool) (form : ReqForm) (ticket : Word) (t : Nat)
  /-- R126: GET with Observe registers a session for event notifications. -/
  | cmpEventObserve (session : Fin 8) (mid : Fin 65536) (tunnel : Bool) (form : ReqForm) (t : Nat)
  /-- R126: An enabled event is queued and sent as an Observe notification, or discarded and counted. -/
  | cmpEventNotify (send : Option (Fin 8)) (t : Nat)
  /-- R431: Session step 1: digest looked up, ephemeral ML-KEM key pair generated, step 2 sent. -/
  | sessionHello (digest : BitVec 256) (nonce : BitVec 128) (mid : Fin 65536) (tunnel : Bool) (form : ReqForm) (t : Nat)
  /-- R431: Session step 3: signature verified, ciphertext decapsulated, OSCORE secret derived, session opened. -/
  | sessionFinish (digest : BitVec 256) (ciphertext : List Byte) (signature : Nat) (mid : Fin 65536) (tunnel : Bool)
      (form : ReqForm) (t : Nat)
  /-- R432: DELETE of /cmp/session ends a session and zeroes its slot. -/
  | sessionDelete (number : Fin 8) (mid : Fin 65536) (tunnel : Bool) (form : ReqForm) (t : Nat)
  /-- R432: A session passes ROLE_CFG.IDLE_S without a request and ends. -/
  | sessionIdleExpiry (number : Fin 8) (t : Nat)
  /-- R431: Step 3 does not arrive within 10 s; the handshake ends with ST_ROLE_HANDSHAKE. -/
  | handshakeTimeout (t : Nat)
  /-- R129: Announce message feeds the BMCA, which may choose or change the time transmitter. -/
  | ptpAnnounceRx (dom : Fin 2) (port : Fin 2) (via : PtpVia) (gm : BitVec 64) (chosen : Bool) (t : Nat)
  /-- R129: Sync message gives an offset measurement, judged for deviation and fed to the servo. -/
  | ptpSyncRx (dom : Fin 2) (port : Fin 2) (via : PtpVia) (twoStep : Bool) (origin : Int) (t : Nat)
  /-- R128: Follow_Up completes a two-step Sync measurement. -/
  | ptpFollowUpRx (dom : Fin 2) (port : Fin 2) (via : PtpVia) (origin : Int)
  /-- R129: Delay_Resp gives a path delay measurement for the servo. -/
  | ptpDelayRespRx (dom : Fin 2) (port : Fin 2) (via : PtpVia) (t4 : Int) (interval : Fin 256)
  /-- R128: Pdelay_Req on a port is answered one-step or two-step. -/
  | ptpPdelayReqRx (port : Fin 2) (via : PtpVia) (arrival : Nat) (t : Nat)
  /-- R129: Pdelay response gives a peer delay measurement. -/
  | ptpPdelayRespRx (dom : Fin 2) (port : Fin 2) (via : PtpVia) (turnaround : Int) (t : Nat)
  /-- R127: Interval expiry sends Delay_Req or Pdelay_Req with its origin picot. -/
  | ptpDelayReqSend (dom : Fin 2) (t : Nat)
  /-- R127: Management message discarded and counted; signalling ignored. -/
  | ptpManagementRx (signalling : Bool)
  /-- R129: announceReceiptTimeout returns the domain to LISTENING. -/
  | announceReceiptTimeout (dom : Fin 2)
  /-- R129: FREEZE_S elapses with no reference; domain becomes LOCKED at the measured offset. -/
  | freezeTimeout (dom : Fin 2) (t : Nat)
  /-- R133: At the target slot boundary device time and mesh time take the locked domain's values. -/
  | timeStep
  /-- R132: LOCK_WAIT_S passes since RUNNING; Enhanced Beacons are permitted. -/
  | lockWaitExpiry (t : Nat)
  /-- R135: TIME_CTRL.ACCEPT adopts a refused offset and starts slewing. -/
  | timeAccept
  /-- R131: TIME_CTRL.SNAP captures time base, mesh time and device time in one cyc. -/
  | timeSnap (t : Nat)
  /-- R136: TIME_CTRL.SEL_DOM forces a domain or automatic selection. -/
  | timeSelDomWrite (sel : Fin 4)
  /-- R140: Every 1,048,576 cyc an Amrek TIME frame is sent. -/
  | tieTimeSend (t : Nat)
  /-- R140: A TIME frame gives the peer offset into TIME_PEER. -/
  | tieTimeRx (f : TimeFrame) (t : Nat)
  /-- R140: No TIME frame for 8 periods; peer time becomes invalid. -/
  | peerTimeExpiry (t : Nat)
  /-- R150: TRXn_CMD sets the transceiver's target state. -/
  | trxSetTarget (trx : Fin 4) (target : Fin 4) (t : Nat)
  /-- R150: TRXn_CMD with CAL 1 calibrates on the way to the target. -/
  | trxCalibrate (trx : Fin 4) (target : Fin 4) (t : Nat)
  /-- R151: A transceiver state step ends and the next step towards the target begins. -/
  | trxStepEnd (trx : Fin 4)
  /-- R151: A calibration passes or fails and the transceiver goes to STANDBY. -/
  | calEnd (trx : Fin 4) (pass : Bool)
  /-- R154: Synthesiser lock loss ends transmission, blanks lanes and relocks. -/
  | synUnlock (trx : Fin 4) (tx : Bool) (t : Nat)
  /-- R158: A background calibration cycle of 2,000 steps begins every BG_PERIOD. -/
  | bgCalCycleStart (trx : Fin 4) (t : Nat)
  /-- R158: A narrow transceiver takes one background calibration step when conditions hold. -/
  | bgCalStep (trx : Fin 4) (pathB : Bool) (t : Nat)
  /-- R157: Die temperature has moved by more than TEMP_K since the last calibration. -/
  | tempDrift (trx : Fin 4) (temp : BitVec 8)
  /-- R163: Coexistence request rises 13,200 dcyc before departure. -/
  | coexRequestRise (trx : Fin 4)
  /-- R165: Grant falls during a transmission; with ABORT set it ends at a symbol boundary. -/
  | coexGrantFall (trx : Fin 4) (t : Nat)
  /-- R170: A plan lane's receive window opens and the lane is armed. -/
  | rxWindowOpen (lane : Fin 96)
  /-- R170: A plan lane's receive window closes and the lane is disarmed. -/
  | rxWindowClose (lane : Fin 96)
  /-- R171: A pending binding or channel change takes effect when the lane reaches IDLE. -/
  | laneBindingApply (lane : Fin 96)
  /-- R177: An armed IDLE lane detects a preamble and enters PREAMBLE. -/
  | preambleDetect (lane : Fin 96) (t : Nat)
  /-- R177: Preamble lost for 8 symbols without a sync point; lane returns to IDLE. -/
  | preambleLost (lane : Fin 96) (t : Nat)
  /-- R185: Sync point found; aerial chosen, measurements latched and the note pinned. -/
  | syncPoint (lane : Fin 96) (ts : Nat) (metA : Int) (metB : Int) (rssi : Int) (cfo : Int) (coded : Bool) (taps : List (Int × Int))
  /-- R175: PHR decoded; frame accepted with a receive buffer or ended with an outcome. -/
  | headerDecoded (lane : Fin 96) (len : Fin 2048) (info : Fin 256) (hcsOk : Bool) (modeSwitch : Bool) (t : Nat)
  /-- R191: Shadow correlator finds a further sync point and may pre-empt the reception. -/
  | shadowSyncPoint (lane : Fin 96) (ts : Nat) (metA : Int) (metB : Int) (rssi : Int) (cfo : Int) (coded : Bool) (taps : List (Int × Int)) (psdu : List Byte)
      (symbols : List (List (Int × Int)))
  /-- R177: Last PSDU symbol received; lane enters DONE and checks the FCS. -/
  | lastSymbol (lane : Fin 96) (psdu : List Byte) (symbols : List (List (Int × Int)))
  /-- R185: Outcome and FCS verdict delivered 40 cyc after the last symbol; lane returns to IDLE. -/
  | fcsVerdict (lane : Fin 96) (ok : Bool)
  /-- R181: A gain measurement window ends and the gain step changes unless frozen. -/
  | gainWindowEnd (trx : Fin 4) (pathB : Bool) (level : Int)
  /-- R183: ADC clipping steps the path gain down at once. -/
  | adcClip (trx : Fin 4) (pathB : Bool) (t : Nat)
  /-- R187: An idle in-channel power window ends and LANE_RSSI.IDLE updates. -/
  | idlePowerWindowEnd (lane : Fin 96) (powA : Int) (powB : Int)
  /-- R171: Write of a fixed lane's CHAN_KHZ, checked against the span and applied at IDLE. -/
  | laneChanWrite (lane : Fin 96) (chan : BitVec 24)
  /-- R196: LANE_CFG.CLR clears the lane counters. -/
  | laneCountClear (lane : Fin 96)
  /-- R17: The frame's source address is complete and the address lookup starts. -/
  | sourceAddressComplete (rx : Nat) (hdr : MacHdr) (clock : ClockIe)
  /-- R17: Lookup returns a node index or none and the node record read starts. -/
  | addressLookupDone (rx : Nat)
  /-- R17: Node record arrives in pin 2 and the key unwrap starts. -/
  | nodeRecordReadDone (rx : Nat)
  /-- R412: Link key unwrapped into a CCM* engine context. -/
  | keyUnwrapDone (rx : Nat)
  /-- R412: A CCM* context frees and a waiting unwrap proceeds. -/
  | ccmContextFree
  /-- R233: CCM* verdict completes the receive checks; pin 3 filled or task withdrawn. -/
  | ccmVerdict (rx : Nat) (authentic : Bool)
  /-- R235: A duplicate-cache entry expires after HOLD_MS. -/
  | dupCacheExpiry (t : Nat)
  /-- R235: Counter shadow entry released once its commit is written and earlier reads delivered. -/
  | shadowEntryRelease (node : Nat)
  /-- R355: Every 2^21 cyc the sweep clears stale ports of one learned path entry. -/
  | lptSweepStep
  /-- R201: Shuttle takes a data-frame descriptor, checks it and plans it. -/
  | txCmdData (trx : Fin 4) (t : Nat)
  /-- R207: Shuttle takes a braid-open descriptor as the braid's first member. -/
  | txCmdBraidOpen (trx : Fin 4) (t : Nat)
  /-- R210: Shuttle takes a braid-append descriptor into the open braid. -/
  | txCmdBraidAppend (trx : Fin 4) (t : Nat)
  /-- R201: Shuttle takes an Enhanced Beacon descriptor and plans it. -/
  | txCmdEnhancedBeacon (trx : Fin 4) (t : Nat)
  /-- R214: Shuttle takes a wake-keying descriptor and plans the frame. -/
  | txCmdWakeKeying (trx : Fin 4) (t : Nat)
  /-- R203: A planned command that cannot meet its latest departure is dropped with ST_TX_LATE. -/
  | txLateDrop (trx : Fin 4) (t : Nat)
  /-- R205: Step into TX starts; hold and output stop limits checked and lanes blanked. -/
  | txLaunch (trx : Fin 4)
  /-- R163: Departure fixed 1,024 dcyc ahead; grant sampled, power fixed, picot written. -/
  | txCommit (trx : Fin 4) (grant : Bool)
  /-- R151: Last symbol ends; ramp-down, step out of TX and completion record written. -/
  | txEnd (trx : Fin 4)
  /-- R444: Output stop time reached; transmissions end at once and an ACTIVE unit becomes FENCED. -/
  | outputStopTime (t : Nat)
  /-- R221: A TSCH slot starts; bindings handed to lanes and the plan of slot a+2 begins. -/
  | slotStart (t : Nat)
  /-- R221: Row reads for a slot's plan complete and the lane plan is fixed. -/
  | lanePlanComplete
  /-- R224: MAC takes a transmit request from its queue into the pending store. -/
  | txRequest (t : Nat)
  /-- R222: A TSCH TX cell with work issues its transmission, with carrier sense when LBT is on. -/
  | tschTxCell (trx : Fin 4) (t : Nat)
  /-- R228: A carrier-sense interval ends idle or busy. -/
  | carrierSenseEnd (trx : Fin 4) (tap : Fin 2) (level : Int)
  /-- R229: A CSMA-CA back-off ends and carrier sense starts. -/
  | csmaBackoffEnd (frame : Nat)
  /-- R225: No acknowledgement in the window; frame resent or completed ST_MAC_NO_ACK. -/
  | ackWaitTimeout (frame : Nat) (t : Nat)
  /-- R225: A pending frame passes its DEADLINE slot and completes ST_MAC_EXPIRED. -/
  | frameDeadlineExpiry (frame : Nat) (t : Nat)
  /-- R225: MAC takes a shuttle completion record and updates the frame. -/
  | shuttleCompletionRx (t : Nat)
  /-- R227: EB_PERIOD slots pass and an Enhanced Beacon becomes due. -/
  | ebDue (pan : Fin 16) (trx : Fin 4) (t : Nat)
  /-- R231: A duty account bucket closes and the oldest leaves the window. -/
  | dutyBucketRoll (profile : Fin 16) (t : Nat)
  /-- R232: OFF_MS after a transmission elapses and the transceiver may send again. -/
  | offTimeEnd (trx : Fin 4)
  /-- R239: At the cut the MAC issues the braid open with the owed acknowledgements. -/
  | braidCut (trx : Fin 4)
  /-- R243: MAC_CTRL.PAN_EN enables or disables PANs; disabling flushes pending frames. -/
  | macPanEnableWrite (en : BitVec 16)
  /-- R243: MAC_CTRL.CLR clears every MAC counter. -/
  | macCountClear
  /-- R219: MAC_SF_CFG.EN enables a slotframe after checking its rows against the region. -/
  | macSlotframeEnable (en : Bool) (length : Fin 65536)
  /-- R261: SLEEP_CTRL start begins tracking a node in UNANCHORED. -/
  | sleepStart (node : BitVec 18)
  /-- R261: SLEEP_CTRL stop ends tracking and flushes the node's frames. -/
  | sleepStop (node : BitVec 18)
  /-- R251: SLEEP_CTRL resynchronises a node at its next opportunity. -/
  | sleepResync (node : BitVec 18)
  /-- R249: SLEEP_CTRL resets a node's drift estimate. -/
  | sleepResetDrift (node : BitVec 18)
  /-- R255: SLEEP_CTRL calls a node now by wake keying. -/
  | sleepCall (node : BitVec 18)
  /-- R256: SLEEP_LINK_B add registers a link between two tracked leaves. -/
  | sleepLinkAdd (node : BitVec 18)
  /-- R256: SLEEP_LINK_B remove deletes a registered link. -/
  | sleepLinkRemove (node : BitVec 18)
  /-- R259: A node's T3 entry expires and the scheduler acts at its opportunity. -/
  | t3Expiry (t : Nat)
  /-- R255: WK_WAIT_MS after a call passes; keep-alive or next call follows. -/
  | wakeWaitExpiry (node : BitVec 18)
  /-- R262: SLEEP_EVENT_EN.CLR clears the sleep counters and SLEEP_LOAD.MAX. -/
  | sleepCountClear
  /-- R260: One sleep state read per owned slot rebuilds a T3 entry after becoming ACTIVE. -/
  | sleepRebuildStep
  /-- R288: The T3 head cache refills from the sleepy-node delay list in DRAM. -/
  | t3CacheRefill
  /-- R272: tk.new creates a task from a descriptor. -/
  | tkNew (bob : Fin 16) (desc : Word)
  /-- R272: tk.fill fills a task pin inline or by reference. -/
  | tkFill (bob : Fin 16) (handle : Word) (src : Word) (pin : Fin 4) (words : Fin 32)
  /-- R282: tk.put posts or stages a result, taking a collector credit. -/
  | tkPut (bob : Fin 16) (queue : Word) (addr : Word) (ordered : Bool)
  /-- R286: tk.timer arms a delay-list entry on a pin. -/
  | tkTimer (bob : Fin 16) (handle : Word) (ticks : Word) (pin : Fin 4) (list : Fin 4)
  /-- R287: tk.cancel removes an armed timer entry. -/
  | tkCancel (bob : Fin 16) (handle : Word)
  /-- R276: tk.drop ends a task without service. -/
  | tkDrop (bob : Fin 16) (handle : Word)
  /-- R271: tk.end ends the running task in service or ends the init run. -/
  | tkEnd (bob : Fin 16)
  /-- R279: Per hoop per cyc the pillow places an eligible task on a bobbin or prefetch slot. -/
  | taskPlace (hoop : Fin 4) (t : Nat)
  /-- R285: A synchronous exception ends the running task in fault. -/
  | taskException (bob : Fin 16) (cause : Fin 6) (pc : Word) (ecc : Fin 3) (addr : Word)
  /-- R285: A task passes its run limit; OVERRUN set and with KILL ended in fault. -/
  | taskRunLimit (bob : Fin 16) (pc : Word) (t : Nat)
  /-- R285: 65,536 cyc after an init-run fault the init run restarts at 0. -/
  | initRunRestart (bob : Fin 16) (t : Nat)
  /-- R286: A T0 to T2 entry expires and fills its pin with the boundary value. -/
  | delayListExpiry (list : Fin 3)
  /-- R283: The release port takes one posted entry per fcyc in round-robin order. -/
  | releasePortTake
  /-- R275: A task-queue entry creates an arity-1 task when resources allow. -/
  | taskQueueEntry (queue : Fin 256)
  /-- R292: PILLOW_CTRL.CLR clears the pillow counters. -/
  | pillowCountClear
  /-- R273: Write of a hardware or queue task template, checked for EN, kind, priority and entry. -/
  | pillowTemplateWrite (qt : Bool) (val : Word)
  /-- R295: A producer's entry is taken by a queue one per fcyc, spending a credit. -/
  | enqueue (queue : Fin 256) (src : Fin 256) (addr : Nat) (len : Nat) (flags : Nat) (tag : Nat) (aux : Nat)
  /-- R296: A consumer takes an entry and its credit returns. -/
  | dequeue (queue : Fin 256)
  /-- R296: A returned credit becomes spendable by its producer; held completions proceed. -/
  | creditReturn (queue : Fin 256) (src : Fin 256)
  /-- R295: A MEM 1 queue's spilled entry is read back on-die. -/
  | queueReadbackDone (queue : Fin 256)
  /-- R299: QUEUE_CMD OP 1 drops the remainder of the current packet. -/
  | queueDropRemainder (queue : Fin 256)
  /-- R307: QUEUE_CMD OP 2 clears QUEUE_XCOUNT of a queue. -/
  | queueClearCount (queue : Fin 256)
  /-- R302: QUEUE_WM changes the watermarks from the next fcyc. -/
  | queueWmWrite (high : Fin 65536) (low : Fin 65536)
  /-- R320: A DRAM request is presented and assigned owned slots of its class. -/
  | dramRequest (cls : Fin 16) (write : Bool) (addr : Nat) (chunks : Nat) (run : Bool) (data : List Byte)
      (by_ : Requester)
  /-- R321: A DRAM read delivers its last chunk. -/
  | dramReadDone (cls : Fin 16)
  /-- R322: A DRAM write completes for its writer. -/
  | dramWriteDone (cls : Fin 16)
  /-- R323: A refresh slot issues a per-bank refresh when due. -/
  | dramRefreshSlot (bank : Fin 8) (due : Bool)
  /-- R324: The first frame after step 6 switches from the boot schedule to the pricking schedule. -/
  | dramScheduleSwitch
  /-- R327: Read of MEM_BUF takes a free packet buffer. -/
  | memBufTake
  /-- R327: Write of MEM_BUF returns a packet buffer. -/
  | memBufReturn (addr : Word)
  /-- R330: MEM_NAND_CMD read of pages into memory. -/
  | nandRead (count : Fin 128)
  /-- R330: MEM_NAND_CMD program of pages. -/
  | nandProgram (count : Fin 128)
  /-- R330: MEM_NAND_CMD erase of one block. -/
  | nandErase (count : Fin 128)
  /-- R330: A NAND operation ends with its status and the next waiting request starts. -/
  | nandOperationDone (ok : Bool)
  /-- R333: MEM_EVENT_EN.CLR clears ECC, drop and wait counters. -/
  | memCountClear
  /-- R347: GROUND_CMD queues a command block for the table engine. -/
  | groundCmdWrite (addr : Word) (cmp : Bool) (bob : Fin 16)
  /-- R349: Table engine LOOKUP of an address. -/
  | groundLookup
  /-- R344: Table engine INSERT of a key into the cuckoo hash. -/
  | groundInsert
  /-- R345: Table engine DELETE of a key. -/
  | groundDelete
  /-- R349: Table engine FETCH copies a node record. -/
  | groundFetch
  /-- R349: Table engine ROUTE copies a node's source route. -/
  | groundRoute
  /-- R335: Table engine WRITE of Ryurix-owned record chunks, with key-change handling. -/
  | groundWrite
  /-- R352: Table engine LPT_READ copies a learned path entry. -/
  | groundLptRead
  /-- R349: Table engine LPT_FORGET frees a learned path entry. -/
  | groundLptForget
  /-- R350: Table engine REHASH builds the alternate table under new seeds. -/
  | groundRehash
  /-- R350: The rehash walk ends and ALT_READY is set, or fails on a full stash. -/
  | rehashWalkEnd
  /-- R351: Table engine SWAP exchanges live and alternate tables. -/
  | groundSwap
  /-- R349: An unknown table operation ends with ST_GROUND_RANGE. -/
  | groundBadOp
  /-- R346: Live hash area zeroed after load; HASH_READY set. -/
  | hashZeroingDone
  /-- R363: Router Advertisement forms SLAAC addresses and default routers. -/
  | routerAdvertisementRx (port : Fin 2) (router : BitVec 128) (life : Nat) (prefixes : List (BitVec 64 × Bool × Nat))
      (t : Nat)
  /-- R364: Delegated prefix changes or expires; PAN prefixes and DODAG versions update. -/
  | prefixDelegationChange (deleg : Option (BitVec 64 × Fin 65 × Nat)) (t : Nat)
  /-- R365: All default routers of the preferred port expire; upstream moves to the other port. -/
  | defaultRouterExpiry (port : Fin 2) (t : Nat)
  /-- R365: 10 s after the preferred port regains a router, upstream returns to it. -/
  | preferredPortReturn (t : Nat)
  /-- R366: An upstream IPv6 packet for the mesh is resolved, routed, compressed and queued. -/
  | downstreamPacket (dest : BitVec 128) (octets : Nat) (hdrIn : Nat) (hdrOut : Nat) (phy : Fin 65536) (extra : Nat)
      (t : Nat)
  /-- R367: A mesh fragment enters a reassembly context. -/
  | upstreamFragmentRx (node : Nat) (tag : Nat) (size : Nat) (off : Nat) (data : List Byte) (t : Nat)
  /-- R367: A reassembly context expires 60 s after its first fragment. -/
  | reassemblyExpiry (t : Nat)
  /-- R368: NS with EARO registers a neighbour's address. -/
  | addressRegistrationRx (node : Nat) (iid : BitVec 64) (rovr : BitVec 64) (life : Fin 65536) (t : Nat)
  /-- R368: EDAR registers a distant node's address and is answered with EDAC. -/
  | edarRx (node : Nat) (iid : BitVec 64) (rovr : BitVec 64) (life : Fin 65536) (t : Nat)
  /-- R369: A registration lifetime ends and the IID key is deleted. -/
  | registrationExpiry (node : Nat) (t : Nat)
  /-- R370: Trickle timer fires and a DIO is broadcast. -/
  | dioTrickleExpiry (pan : Fin 16) (heard : Nat) (t : Nat)
  /-- R371: A DAO sets the node's parent, rank and version. -/
  | daoRx (sender : Nat) (pan : Nat) (target : BitVec 64) (transits : List Transit) (version : Fin 256) (ack : Bool)
      (t : Nat)
  /-- R372: A path lifetime ends and routes of the node and below are cleared. -/
  | pathLifetimeExpiry (node : Nat) (t : Nat)
  /-- R376: A node's /sc demand leads to a central cell assignment. -/
  | scDemandRx (node : Nat) (cells : Fin 16) (t : Nat)
  /-- R376: A node acknowledges its assignment and waiting changes are sent. -/
  | scAssignmentAck (node : Nat) (t : Nat)
  /-- R376: A 6P request under SFID 0xF3 is checked against the held assignment. -/
  | sixpRequestRx (node : Nat) (sfid : Fin 256) (list : List (Nat × Nat)) (t : Nat)
  /-- R376: A 6P transaction times out after 30 s. -/
  | sixpTimeout (t : Nat)
  /-- R379: A Join Request assigns an index and key and sends the Join Response. -/
  | joinRequestRx (pan : Fin 16) (eui : BitVec 64) (pledge : BitVec 64) (message : Fin 65536) (oscore : Bool)
      (wrapSlot : Fin 512) (t : Nat)
  /-- R382: A node acknowledges a group key update. -/
  | rekeyAckRx (pan : Fin 16) (node : Nat) (t : Nat)
  /-- R382: Group rekey deadline passes; new slot made current. -/
  | rekeyDeadline (pan : Fin 16) (t : Nat)
  /-- R385: Each BLOCK_MS interval sends one campaign multicast message. -/
  | campaignInterval (campaign : Fin 4) (held : Bool) (t : Nat)
  /-- R385: A campaign report window ends; repair round or activation follows. -/
  | reportWindowEnd (campaign : Fin 4) (held : Bool) (t : Nat)
  /-- R385: A target reports its missing blocks to /fw/{c}/m. -/
  | missingBlocksRx (campaign : Fin 4) (node : Nat) (bitmap : List Byte) (t : Nat)
  /-- R385: A node fetches image blocks by GET with Block2. -/
  | fwBlockGet (campaign : Fin 4) (node : Nat) (num : Nat) (szx : Fin 7)
  /-- R386: A target reports completion and FW_VERSION is written. -/
  | completionReportRx (campaign : Fin 4) (node : Nat) (version : BitVec 32) (t : Nat)
  /-- R386: A campaign ends 24 h after activation. -/
  | campaignEndExpiry (campaign : Fin 4) (t : Nat)
  /-- R388: net operation 1 reads upstream addresses and state. -/
  | netGet (ticket : Nat)
  /-- R365: net operation 2 sets port, CMP UDP port and delegation. -/
  | netSet (ticket : Nat) (port : Option Nat) (udp : Option Nat) (pd : Option Nat)
  /-- R388: pan operation 1 reads a PAN's prefix and RPL state. -/
  | panGet (ticket : Nat) (pan : Nat)
  /-- R366: pan operation 2 sets prefix, contexts and RPL parameters. -/
  | panSet (ticket : Nat) (pan : Nat) (k : PanKeys)
  /-- R374: pan operation 3 increments the DODAG version and resets trickle. -/
  | panRepair (ticket : Nat) (pan : Nat)
  /-- R388: node operation 1 reads a record and learned path entry. -/
  | nodeGet (ticket : Nat) (index : Option Nat) (eui : Option Nat)
  /-- R388: node operation 2 runs the node removal sequence. -/
  | nodeRemove (ticket : Nat) (node : Nat)
  /-- R388: node operation 3 lists nodes of a PAN. -/
  | nodeList (ticket : Nat) (pan : Nat) (first : Nat) (count : Nat)
  /-- R373: node operation 4 returns a node's route. -/
  | nodeRoute (ticket : Nat) (node : Nat)
  /-- R388: node operation 5 sets a node's CLASS. -/
  | nodeSetClass (ticket : Nat) (node : Nat) (cls : Nat)
  /-- R388: sched operation 1 reads a node's assigned cells. -/
  | schedGet (ticket : Nat) (node : Nat)
  /-- R375: sched operation 2 sets slotframe lengths. -/
  | schedSet (ticket : Nat) (pan : Nat) (sf0 : Option Nat) (sf1 : Option Nat)
  /-- R388: sched operation 3 reads schedule statistics. -/
  | schedStats (ticket : Nat)
  /-- R378: join operation 1 sets admission, derivation slot and rate. -/
  | joinSet (ticket : Nat) (listed : Option Nat) (slot : Option (Option Nat)) (rate : Option Nat)
  /-- R378: join operation 2 imports pledge entries. -/
  | joinEnrol (ticket : Nat) (entries : List (BitVec 64 × BitVec 192)) (slot : Fin 512)
  /-- R378: join operation 3 removes pledge entries. -/
  | joinRevoke (ticket : Nat) (pledges : List (BitVec 64))
  /-- R388: join operation 4 reads join statistics. -/
  | joinStats (ticket : Nat)
  /-- R382: join operation 5 starts a group key replacement. -/
  | joinGroupRekey (ticket : Nat) (pan : Nat) (slot : Nat) (deadline : Nat) (t : Nat)
  /-- R383: image operation 1 reserves blocks for a new image. -/
  | imageBegin (ticket : Nat) (image : Nat) (len : Nat) (digest : BitVec 256) (mask : Nat) (version : BitVec 32)
  /-- R383: image operation 2 writes image octets. -/
  | imageWrite (ticket : Nat) (image : Nat) (off : Nat) (data : List Byte)
  /-- R383: image operation 3 checks the image digest. -/
  | imageCommit (ticket : Nat) (image : Nat)
  /-- R383: image operation 4 deletes an image. -/
  | imageDelete (ticket : Nat) (image : Nat)
  /-- R388: image operation 5 lists the library. -/
  | imageList (ticket : Nat)
  /-- R384: image operation 6 starts a firmware campaign. -/
  | campaignStart (ticket : Nat) (pan : Nat) (image : Nat) (a : CampaignArgs) (t : Nat)
  /-- R388: image operation 7 reads a campaign's progress. -/
  | campaignStatus (ticket : Nat) (campaign : Nat)
  /-- R386: image operation 8 ends a campaign. -/
  | campaignStop (ticket : Nat) (campaign : Nat)
  /-- R392: A presence, daylight or switch report is applied to the sender's zones. -/
  | zoneReportRx (node : Nat) (kind : Nat) (value : Nat) (ts : Nat) (t : Nat)
  /-- R393: Hold expires; zone becomes VACANT. -/
  | zoneHoldExpiry (zone : Fin 16384) (t : Nat)
  /-- R393: Vacancy time expires; zone becomes IDLE. -/
  | zoneVacancyExpiry (zone : Fin 16384) (t : Nat)
  /-- R393: Override time expires; zone returns to OCCUPIED or VACANT. -/
  | zoneOverrideExpiry (zone : Fin 16384) (t : Nat)
  /-- R394: Every DL_PERIOD_S the daylight controller updates its output. -/
  | zonePiStep (zone : Fin 16384) (t : Nat)
  /-- R397: A broadcast opportunity sends one /zc message of pending entries. -/
  | zoneBroadcastOpportunity (pan : Fin 16) (fit : Nat) (held : Bool) (t : Nat)
  /-- R400: zone operation 1 reads a zone. -/
  | zoneGet (ticket : Nat) (zone : Nat)
  /-- R400: zone operation 2 configures a zone. -/
  | zoneSet (ticket : Nat) (zone : Nat) (k : ZoneKeys) (t : Nat)
  /-- R391: zone operation 3 adds member nodes. -/
  | zoneAddMembers (ticket : Nat) (zone : Nat) (nodes : List Nat)
  /-- R391: zone operation 4 removes member nodes. -/
  | zoneRemoveMembers (ticket : Nat) (zone : Nat) (nodes : List Nat)
  /-- R393: zone operation 5 overrides the zone level. -/
  | zoneOverride (ticket : Nat) (zone : Nat) (level : Nat) (secs : Nat) (t : Nat)
  /-- R393: zone operation 6 releases an override. -/
  | zoneRelease (ticket : Nat) (zone : Nat) (t : Nat)
  /-- R400: zone operation 7 reads PAN zone statistics. -/
  | zoneStats (ticket : Nat) (pan : Nat)
  /-- R391: zone operation 8 removes members and unconfigures a zone. -/
  | zoneDelete (ticket : Nat) (zone : Nat)
  /-- R408: KEY_CMD queues a key command block. -/
  | keyCmdWrite (addr : Word)
  /-- R409: Key operation GENERATE creates a key from the DRBG. -/
  | keyGenerate
  /-- R413: Key operation DERIVE creates a key by KMAC256. -/
  | keyDerive
  /-- R409: Key operation IMPORT unwraps a key into a slot. -/
  | keyImport
  /-- R409: Key operation EXPORT wraps a key to output. -/
  | keyExport
  /-- R407: Key operation RESTRICT clears attribute bits. -/
  | keyRestrict
  /-- R411: Key operation DESTROY zeroes a slot and updates the key store. -/
  | keyDestroy
  /-- R414: Key operation ATTEST writes a signed statement. -/
  | keyAttest (signFails : Bool)
  /-- R415: Key operation SIGN makes an ML-DSA signature. -/
  | keySign (signFails : Bool)
  /-- R409: Key operation KMAC computes a tag. -/
  | keyKmac
  /-- R409: Key operation WRAP_DATA wraps input data. -/
  | keyWrapData
  /-- R416: Key operation RANDOM outputs DRBG octets. -/
  | keyRandom
  /-- R409: Key operation DECAPS decapsulates into a new slot. -/
  | keyDecaps
  /-- R409: Key operation PUBLIC outputs a public key. -/
  | keyPublic
  /-- R425: Key operation COMMISSION creates a new owner root and empty key store. -/
  | keyCommission
  /-- R409: Key operation CERT outputs the device certificate. -/
  | keyCert
  /-- R409: Key operation VERIFY checks a signature. -/
  | keyVerify
  /-- R416: An entropy health test fails and the DRBG is uninstantiated. -/
  | entropyHealthFail
  /-- R421: An enabled tamper source raises an event; owner root zeroed and logged. -/
  | tamperSourceEvent (source : Fin 8) (t : Nat)
  /-- R422: Tamper event reaches the core; key commands end, slots zeroed, TAMPER_ERASED entered. -/
  | tamperCoreResponse (t : Nat)
  /-- R424: TAMPER_CFG write enabling or disabling sources under its conditions. -/
  | tamperCfgWrite (value : Word)
  /-- R426: TAMPER_LOG_SEL.CLR clears the tamper log and count. -/
  | tamperLogClear
  /-- R430: role operation 2 enrols a credential. -/
  | roleEnrol (ticket : Nat) (role : Fin 4) (pubKey : Nat)
  /-- R430: role operation 3 revokes a credential and ends its sessions. -/
  | roleRevoke (ticket : Nat) (digest : BitVec 256)
  /-- R437: role operation 4 releases the part for return. -/
  | roleRelease (ticket : Nat) (eui : BitVec 64)
  /-- R439: role operation 6 requests sampler mode and warm resets. -/
  | samplerEntry (ticket : Nat)
  /-- R439: role operation 7 erases the audit area and sets OWNER ABSENT. -/
  | roleReissue (ticket : Nat)
  /-- R436: audit operation 1 reads audit records. -/
  | auditRead (ticket : Nat) (first : Nat) (count : Nat)
  /-- R435: audit operation 2 takes a checkpoint. -/
  | auditCheckpoint (ticket : Nat)
  /-- R436: audit operation 3 returns the newest SEQs. -/
  | auditHeadRead (ticket : Nat)
  /-- R435: ROLE_CFG.CKPT takes a checkpoint. -/
  | roleCkptWrite
  /-- R436: A full audit page buffer is programmed to flash. -/
  | auditPageProgram
  /-- R444: Every 82,500 cyc the ACTIVE unit sends RENEW on its lease path. -/
  | leaseRenewDue (t : Nat)
  /-- R444: A received RENEW moves the known lease end and is granted. -/
  | renewRx (role : Fin 8) (count : Fin 65536) (ext : Fin 4194304) (t : Nat)
  /-- R444: A received GRANT extends the lease end and output stop time. -/
  | grantRx (role : Fin 8) (count : Fin 65536) (t : Nat)
  /-- R441: A received RESIGN makes a standby ACTIVE. -/
  | resignRx (role : Fin 8) (t : Nat)
  /-- R441: A received MARK_STALE makes the standby STANDBY_STALE. -/
  | markStaleRx (role : Fin 8) (t : Nat)
  /-- R451: A witness UDP datagram is authenticated and its lease block acted on. -/
  | witnessDatagramRx (kind : Fin 8) (role : Fin 8) (count : Fin 65536) (ext : Fin 4194304) (seq : Nat) (tagOk : Bool)
      (t : Nat)
  /-- R445: Nothing heard for 160 µs; the ACTIVE unit self-grants. -/
  | peerSilentTimeout (t : Nat)
  /-- R446: Known lease end plus 16 µs passes; the standby takes over by R450. -/
  | takeoverInstant (t : Nat)
  /-- R441: Nothing heard for ALONE_MS since RUNNING; FENCED unit becomes ACTIVE. -/
  | aloneTimeout (t : Nat)
  /-- R443: Every 100 ms a HELLO frame is sent. -/
  | helloSend (t : Nat)
  /-- R441: Peer heard by HELLO; pair role transitions applied. -/
  | helloRx (digest : BitVec 256) (eui : BitVec 64) (role : Fin 8) (pref : Bool) (t : Nat)
  /-- R454: KEYX frame establishes the pair transport key. -/
  | keyxRx (ok : Bool) (secret : BitVec 256) (peerEui : BitVec 64) (t : Nat)
  /-- R456: MIRROR frame records are applied in order and acknowledged. -/
  | mirrorFrameRx (records : List MirrorRec) (t : Nat)
  /-- R456: MIRROR_ACK frees journal space and releases reservations. -/
  | mirrorAckRx (seq : Nat) (t : Nat)
  /-- R450: Takeover fix scan sets one record's outbound counters per owned slot. -/
  | fixScanStep
  /-- R450: One second after takeover the unsolicited Neighbor Advertisement is repeated. -/
  | naRepeat (t : Nat)
  /-- R448: PAIR_CTRL.RESIGN is a self-detected fault: transmissions end, RESIGN sent, FENCED. -/
  | pairResignWrite
  /-- R460: PAIR_CTRL.RESYNC starts resynchronisation. -/
  | pairResyncWrite
  /-- R460: Standby has applied the copy and backlog; becomes STANDBY. -/
  | resyncComplete (t : Nat)
  /-- R469: update operation 1 checks the manifest and takes the session. -/
  | updateBegin (ticket : Nat) (manifest : List Byte) (t : Nat)
  /-- R471: update operation 2 writes entry octets. -/
  | updateWrite (ticket : Nat) (entry : Nat) (off : Nat) (data : List Byte) (flashOk : Bool) (t : Nat)
  /-- R472: update operation 3 verifies every entry and stages the slot. -/
  | updateFinish (ticket : Nat) (flashOk : Bool) (t : Nat)
  /-- R473: update operation 4 writes the trial record and warm resets. -/
  | updateActivate (ticket : Nat) (window : Option Nat)
  /-- R471: update operation 5 ends the session. -/
  | updateAbort (ticket : Nat)
  /-- R469: update operation 6 reads slot states and holder. -/
  | updateStatus (ticket : Nat)
  /-- R475: UPDATE_CTRL.CONFIRM commits a trial or marks it TRIAL_OK in a pair. -/
  | updateConfirm (mainHoop : Bool) (t : Nat)
  /-- R474: UPDATE_CTRL.REJECT ends the trial and falls back. -/
  | updateReject (mainHoop : Bool) (t : Nat)
  /-- R474: Trial window ends without CONFIRM; trial falls back. -/
  | trialWindowExpiry (t : Nat)
  /-- R471: IDLE_S passes without a write; session ends ST_UPDATE_ABORTED. -/
  | updateSessionIdle (t : Nat)
  /-- R470: Amrek OFFER takes the peer's update session. -/
  | updateOfferRx (manifest : List Byte) (t : Nat)
  /-- R471: Amrek DATA writes entry octets on the peer. -/
  | updateDataRx (entry : Nat) (off : Nat) (data : List Byte) (flashOk : Bool) (t : Nat)
  /-- R478: Amrek ACTIVATE makes the standby activate. -/
  | updateActivateRx (mdig : BitVec 64) (window : Nat)
  /-- R479: Amrek RESULT drives the pair trial decision. -/
  | updateResultRx (mdig : BitVec 64) (state : Fin 8) (t : Nat)
  /-- R477: Amrek ABORT ends the peer's update session. -/
  | updateAbortRx
  /-- R479: Every 100 ms a RESULT frame is sent. -/
  | updateResultSend (t : Nat)
  /-- R491: A selected GPIO edge sets its SVC_EVENT bit. -/
  | gpioEdge (pin : Fin 8) (rising : Bool) (t : Nat)
  /-- R78: A main supply rises above its good threshold while the device is UNPOWERED, starting or restarting the 200
  µs analogue interval. -/
  | mainSupplyGood (supply : Fin 9)
  /-- R80: RESET_N goes high again after being taken, and the device proceeds by R78 with a fresh analogue interval.
  -/
  | resetNRelease
  /-- R421: A tamper source's condition ends, its TAMPER_STATE.ACTIVE bit clears, and once it has been inactive for
  its filter time it may raise a new event. -/
  | tamperSourceInactive (source : Fin 8) (filtered : Bool)
  /-- R387: A node fetches a campaign's header by GET /fw/{c}/h and the device answers with the header. -/
  | fwHeaderGet (campaign : Fin 4) (node : Nat)
  /-- R303: At each PERIPH edge each flow-control pin FCPn is driven from the above state of its queues, or from
  FORCE, and QUEUE_FCP.PIN is updated. -/
  | fcpPinUpdate (t : Nat)
  deriving DecidableEq, Repr

end Sys2Proof
end

