-- ==== Sys2Proof/Decode.lean ====
section
/-!
DEFINITION. The command table gives no row any bits: a command is an event at the block's pins, ports and registers, and no
word spells it (notes/assumptions/7.md). The service port's commands have octets of their own (Table 05.4).
-/
namespace Sys2Proof

/-- The command that a word spells by the table's bits: none does. -/
def decodeTableWord (_nbits _w : Nat) : Option Instr := none

/-- A number from octets, the first the least significant (R114: multi-byte fields are little-endian). -/
def svcNum (l : List Nat) : Nat := l.foldr (fun b n => b % 256 + 256 * n) 0

/-- The service port's command that the octets of a transaction spell (R114, Table 05.4), with the mode it was taken in, whether
the host abandons it and when it comes; none for a command byte that the table does not give, or a request of another length. -/
def svcDecode (octets : List Nat) (mode3 abandoned : Bool) (t : Nat) : Option Instr :=
  match octets with
  | [] => none
  | c :: l =>
    let word (k : Nat) : BitVec 32 := BitVec.ofNat 32 (svcNum ((l.drop k).take 4))
    let bytes (k : Nat) : List Byte := (l.drop k).map (BitVec.ofNat 8)
    if c = 0x0B && l.length = 4 then some (.svcReadRegister (word 0) mode3 abandoned t)
    else if c = 0x02 && l.length = 8 then some (.svcWriteRegister (word 0) (word 4) mode3 abandoned t)
    else if c = 0x05 && l.length = 0 then some (.svcLastStatus mode3 abandoned t)
    else if c = 0x20 && 6 ≤ l.length && l.length = 6 + svcNum ((l.drop 4).take 2) then
      some (.svcBenchChunk (word 0) (bytes 6) mode3 abandoned t)
    else if c = 0x21 && l.length = 1 then some (.svcBenchCommit (l.headD 0 % 2 = 1) mode3 abandoned t)
    else if c = 0x30 && 2 ≤ l.length && l.length = 2 + svcNum (l.take 2) then
      some (.svcTunnelIn (bytes 2) mode3 abandoned t)
    else if c = 0x31 && l.length = 0 then some (.svcTunnelOut mode3 abandoned t)
    else none

/-- The command that a word of major opcode custom-0 spells on a bobbin (R276, Table 12.5), with the register that takes its result
word; `x` gives the values of the integer registers. None for a word that raises an illegal-instruction exception: funct3 7, a
funct7 outside its stated values, a register other than x0 where the table requires x0. -/
def tkDecode (bob : Fin 16) (w : Nat) (x : Nat → BitVec 32) : Option (Nat × Instr) :=
  let rd := w / 2 ^ 7 % 32
  let op := w / 2 ^ 12 % 8
  let rs1 := w / 2 ^ 15 % 32
  let rs2 := w / 2 ^ 20 % 32
  let f7 := w / 2 ^ 25 % 128
  if w % 128 ≠ 0x0B then none
  else if op = 0 && rs2 = 0 && f7 = 0 then some (rd, .tkNew bob (x rs1))
  else if op = 1 && f7 % 32 ≤ 16 then
    some (rd, .tkFill bob (x rs1) (x rs2) (Fin.ofNat 4 (f7 / 32)) (Fin.ofNat 32 (f7 % 32)))
  else if op = 2 && f7 < 2 then some (rd, .tkPut bob (x rs1) (x rs2) (f7 = 1))
  else if op = 3 && f7 / 4 % 8 = 0 && f7 % 4 < 3 then
    some (rd, .tkTimer bob (x rs1) (x rs2) (Fin.ofNat 4 (f7 / 32)) (Fin.ofNat 4 (f7 % 4)))
  else if op = 4 && rs2 = 0 && f7 = 0 then some (rd, .tkCancel bob (x rs1))
  else if op = 5 && rs2 = 0 && f7 = 0 then some (rd, .tkDrop bob (x rs1))
  else if op = 6 && rd = 0 && rs1 = 0 && rs2 = 0 && f7 = 0 then some (rd, .tkEnd bob)
  else none

end Sys2Proof
end

