-- ==== Sys2Proof/Machine/RegMap.lean ====
section
/-!
DEFINITION. The register map (Table 14.8 and the register tables of every chapter): each register's absolute address,
each field's place as a `Field`, and `regTable`, from which a register's reset word (R10) and its stored bits (R8)
are read. Register and field names are the spec's own: `R.CLK_STATE_TX_OK` is CLK_STATE.TX_OK. A register that the
spec has once per port, transceiver, lane or index takes that index as its argument, an index past the last one counting
round again (none of the model's indices does).
-/
namespace Sys2Proof.Machine

/-- A register field: the register's address, the field's lowest bit, its width. -/
structure Field where
  addr  : Nat
  lo    : Nat
  width : Nat
  deriving DecidableEq, Repr

/-- Access types of Table 00.2 (R8). A reserved field (RSV) has no entry in the table. -/
inductive Access where
  | rw | ro | w1c | w1s | wo
  deriving DecidableEq, Repr

/-- One field of the table: lowest bit, width, access type, reset value (R10). -/
structure FieldDesc where
  lo    : Nat
  width : Nat
  acc   : Access
  reset : Nat
  deriving DecidableEq, Repr

/-- One register, or one register that repeats `count` times at `stride`; `layout` is the place of its layout among
the layouts of its block (R29, R332). -/
structure RegDesc where
  base   : Nat
  stride : Nat
  count  : Nat
  layout : Nat
  fields : List FieldDesc
  deriving DecidableEq, Repr

namespace R

/-- CLK_STATE (03_clock_root.md). -/
def CLK_STATE : Nat := 0x20010000
def CLK_STATE_CLK_MODE : Field := ⟨0x20010000, 16, 4⟩
def CLK_STATE_ROOT_SRC : Field := ⟨0x20010000, 8, 2⟩
def CLK_STATE_TX_OK : Field := ⟨0x20010000, 1, 1⟩
def CLK_STATE_PLL_LOCK : Field := ⟨0x20010000, 0, 1⟩
/-- CLK_SRC_CTRL (03_clock_root.md). -/
def CLK_SRC_CTRL : Nat := 0x20010004
def CLK_SRC_CTRL_FORCE : Field := ⟨0x20010004, 4, 1⟩
def CLK_SRC_CTRL_FORCE_SRC : Field := ⟨0x20010004, 0, 2⟩
/-- CLK_SRC_UPL0 (03_clock_root.md). -/
def CLK_SRC_UPL0 : Nat := 0x20010010
def CLK_SRC_UPL0_LOCK : Field := ⟨0x20010010, 31, 1⟩
def CLK_SRC_UPL0_QUAL : Field := ⟨0x20010010, 30, 1⟩
def CLK_SRC_UPL0_INSVC : Field := ⟨0x20010010, 29, 1⟩
def CLK_SRC_UPL0_BLOCKED : Field := ⟨0x20010010, 28, 1⟩
def CLK_SRC_UPL0_PASS : Field := ⟨0x20010010, 16, 8⟩
def CLK_SRC_UPL0_OFFSET : Field := ⟨0x20010010, 0, 16⟩
/-- CLK_SRC_UPL1 (03_clock_root.md). -/
def CLK_SRC_UPL1 : Nat := 0x20010014
def CLK_SRC_UPL1_LOCK : Field := ⟨0x20010014, 31, 1⟩
def CLK_SRC_UPL1_QUAL : Field := ⟨0x20010014, 30, 1⟩
def CLK_SRC_UPL1_INSVC : Field := ⟨0x20010014, 29, 1⟩
def CLK_SRC_UPL1_BLOCKED : Field := ⟨0x20010014, 28, 1⟩
def CLK_SRC_UPL1_PASS : Field := ⟨0x20010014, 16, 8⟩
def CLK_SRC_UPL1_OFFSET : Field := ⟨0x20010014, 0, 16⟩
/-- CLK_SRC_TIE (03_clock_root.md). -/
def CLK_SRC_TIE : Nat := 0x20010018
def CLK_SRC_TIE_LOCK : Field := ⟨0x20010018, 31, 1⟩
def CLK_SRC_TIE_QUAL : Field := ⟨0x20010018, 30, 1⟩
def CLK_SRC_TIE_INSVC : Field := ⟨0x20010018, 29, 1⟩
def CLK_SRC_TIE_BLOCKED : Field := ⟨0x20010018, 28, 1⟩
def CLK_SRC_TIE_PASS : Field := ⟨0x20010018, 16, 8⟩
def CLK_SRC_TIE_OFFSET : Field := ⟨0x20010018, 0, 16⟩
/-- CLK_MON_CFG (03_clock_root.md). -/
def CLK_MON_CFG : Nat := 0x20010020
def CLK_MON_CFG_TOL_PPM : Field := ⟨0x20010020, 16, 9⟩
def CLK_MON_CFG_REQUAL : Field := ⟨0x20010020, 8, 4⟩
def CLK_MON_CFG_REVERT : Field := ⟨0x20010020, 0, 1⟩
/-- CLK_HOLD (03_clock_root.md). -/
def CLK_HOLD : Nat := 0x20010024
def CLK_HOLD_HOLD_MS : Field := ⟨0x20010024, 0, 16⟩
/-- CLK_EVENT (03_clock_root.md). -/
def CLK_EVENT : Nat := 0x20010028
def CLK_EVENT_PLL_FAULT : Field := ⟨0x20010028, 8, 1⟩
def CLK_EVENT_PARK : Field := ⟨0x20010028, 7, 1⟩
def CLK_EVENT_SRC_SWITCH : Field := ⟨0x20010028, 6, 1⟩
def CLK_EVENT_HOLD_ENTER : Field := ⟨0x20010028, 5, 1⟩
def CLK_EVENT_TX_INHIBIT : Field := ⟨0x20010028, 4, 1⟩
def CLK_EVENT_HOLD_EXIT : Field := ⟨0x20010028, 3, 1⟩
def CLK_EVENT_DISQUAL : Field := ⟨0x20010028, 2, 1⟩
def CLK_EVENT_GATE_DONE : Field := ⟨0x20010028, 1, 1⟩
def CLK_EVENT_RAMP_DONE : Field := ⟨0x20010028, 0, 1⟩
/-- CLK_EVENT_EN (03_clock_root.md). -/
def CLK_EVENT_EN : Nat := 0x2001002C
def CLK_EVENT_EN_EN : Field := ⟨0x2001002C, 0, 9⟩
/-- CLK_HOOP_DIV (03_clock_root.md). -/
def CLK_HOOP_DIV : Nat := 0x20010040
def CLK_HOOP_DIV_CUR3 : Field := ⟨0x20010040, 28, 4⟩
def CLK_HOOP_DIV_IDLE3 : Field := ⟨0x20010040, 24, 4⟩
def CLK_HOOP_DIV_CUR2 : Field := ⟨0x20010040, 20, 4⟩
def CLK_HOOP_DIV_IDLE2 : Field := ⟨0x20010040, 16, 4⟩
def CLK_HOOP_DIV_CUR1 : Field := ⟨0x20010040, 12, 4⟩
def CLK_HOOP_DIV_IDLE1 : Field := ⟨0x20010040, 8, 4⟩
def CLK_HOOP_DIV_CUR0 : Field := ⟨0x20010040, 4, 4⟩
def CLK_HOOP_DIV_IDLE0 : Field := ⟨0x20010040, 0, 4⟩
/-- CLK_IDLE_CYC (03_clock_root.md). -/
def CLK_IDLE_CYC : Nat := 0x20010044
def CLK_IDLE_CYC_IDLE : Field := ⟨0x20010044, 0, 24⟩
/-- CLK_GATE (03_clock_root.md). -/
def CLK_GATE : Nat := 0x20010050
def CLK_GATE_TRX : Field := ⟨0x20010050, 9, 4⟩
def CLK_GATE_UPL1 : Field := ⟨0x20010050, 8, 1⟩
def CLK_GATE_UPL0 : Field := ⟨0x20010050, 7, 1⟩
def CLK_GATE_NAND : Field := ⟨0x20010050, 6, 1⟩
def CLK_GATE_LATTICE : Field := ⟨0x20010050, 5, 1⟩
def CLK_GATE_SHA3 : Field := ⟨0x20010050, 4, 1⟩
def CLK_GATE_CCM : Field := ⟨0x20010050, 0, 4⟩
/-- CLK_GATE_STAT (03_clock_root.md). -/
def CLK_GATE_STAT : Nat := 0x20010054
def CLK_GATE_STAT_PEND : Field := ⟨0x20010054, 16, 13⟩
def CLK_GATE_STAT_GATED : Field := ⟨0x20010054, 0, 13⟩
/-- CLK_CMD_ERR (03_clock_root.md). -/
def CLK_CMD_ERR : Nat := 0x20010058
def CLK_CMD_ERR_UNIT : Field := ⟨0x20010058, 16, 5⟩
def CLK_CMD_ERR_STATUS : Field := ⟨0x20010058, 0, 16⟩
/-- CLK_RESTART (03_clock_root.md). -/
def CLK_RESTART : Nat := 0x20010060
def CLK_RESTART_GO : Field := ⟨0x20010060, 31, 1⟩
def CLK_RESTART_DOMAIN : Field := ⟨0x20010060, 16, 4⟩
def CLK_RESTART_DIV : Field := ⟨0x20010060, 0, 5⟩
/-- START_STATE (04_start_up.md). -/
def START_STATE : Nat := 0x20020000
def START_STATE_DEV_STATE : Field := ⟨0x20020000, 28, 4⟩
def START_STATE_PHASE : Field := ⟨0x20020000, 24, 4⟩
def START_STATE_SRC_LOCK : Field := ⟨0x20020000, 16, 3⟩
def START_STATE_TRX_CAL : Field := ⟨0x20020000, 8, 4⟩
def START_STATE_READY : Field := ⟨0x20020000, 7, 1⟩
def START_STATE_BOOT_MODE : Field := ⟨0x20020000, 2, 2⟩
def START_STATE_SLOT : Field := ⟨0x20020000, 1, 1⟩
def START_STATE_FAIL : Field := ⟨0x20020000, 0, 1⟩
/-- START_OPT (04_start_up.md). -/
def START_OPT : Nat := 0x20020004
def START_OPT_HALT : Field := ⟨0x20020004, 8, 2⟩
def START_OPT_SLOT : Field := ⟨0x20020004, 4, 2⟩
def START_OPT_BENCH : Field := ⟨0x20020004, 0, 1⟩
/-- START_CTRL (04_start_up.md). -/
def START_CTRL : Nat := 0x20020008
def START_CTRL_CONTINUE : Field := ⟨0x20020008, 1, 1⟩
def START_CTRL_READY : Field := ⟨0x20020008, 0, 1⟩
/-- START_BOOT (04_start_up.md). -/
def START_BOOT : Nat := 0x2002000C
def START_BOOT_BOOTS : Field := ⟨0x2002000C, 16, 8⟩
def START_BOOT_FAILS : Field := ⟨0x2002000C, 8, 8⟩
def START_BOOT_FAIL_SLOT : Field := ⟨0x2002000C, 0, 1⟩
/-- START_FAIL (04_start_up.md). -/
def START_FAIL : Nat := 0x20020010
def START_FAIL_STATE : Field := ⟨0x20020010, 20, 4⟩
def START_FAIL_UNIT : Field := ⟨0x20020010, 16, 4⟩
def START_FAIL_STATUS : Field := ⟨0x20020010, 0, 16⟩
/-- START_FAIL_LOC (04_start_up.md). -/
def START_FAIL_LOC : Nat := 0x20020014
def START_FAIL_LOC_TYPE : Field := ⟨0x20020014, 20, 12⟩
def START_FAIL_LOC_OFFSET : Field := ⟨0x20020014, 0, 20⟩
/-- START_WDOG (04_start_up.md). -/
def START_WDOG : Nat := 0x20020018
def START_WDOG_LIMIT_MS : Field := ⟨0x20020018, 0, 16⟩
/-- START_T_BOOT (04_start_up.md). -/
def START_T_BOOT : Nat := 0x20020020
def START_T_BOOT_T : Field := ⟨0x20020020, 0, 32⟩
/-- START_T_LOAD (04_start_up.md). -/
def START_T_LOAD : Nat := 0x20020024
def START_T_LOAD_T : Field := ⟨0x20020024, 0, 32⟩
/-- START_T_SERVICE (04_start_up.md). -/
def START_T_SERVICE : Nat := 0x20020028
def START_T_SERVICE_T : Field := ⟨0x20020028, 0, 32⟩
/-- START_T_CAL (04_start_up.md). -/
def START_T_CAL : Nat := 0x2002002C
def START_T_CAL_T : Field := ⟨0x2002002C, 0, 32⟩
/-- START_T_RUN (04_start_up.md). -/
def START_T_RUN : Nat := 0x20020030
def START_T_RUN_T : Field := ⟨0x20020030, 0, 32⟩
/-- START_SUPPLY (04_start_up.md). -/
def START_SUPPLY : Nat := 0x20020040
def START_SUPPLY_GOOD : Field := ⟨0x20020040, 0, 9⟩
/-- START_CAUSE (04_start_up.md). -/
def START_CAUSE : Nat := 0x20020044
def START_CAUSE_CAUSE : Field := ⟨0x20020044, 16, 4⟩
def START_CAUSE_COUNT : Field := ⟨0x20020044, 0, 16⟩
/-- SYS_ID (04_start_up.md). -/
def SYS_ID : Nat := 0x20000000
def SYS_ID_PART : Field := ⟨0x20000000, 16, 16⟩
def SYS_ID_REV : Field := ⟨0x20000000, 8, 8⟩
def SYS_ID_GRADE : Field := ⟨0x20000000, 0, 8⟩
/-- SYS_RESET (04_start_up.md). -/
def SYS_RESET : Nat := 0x20000004
def SYS_RESET_WARM : Field := ⟨0x20000004, 0, 1⟩
/-- SYS_EVENT (04_start_up.md). -/
def SYS_EVENT : Nat := 0x20000008
def SYS_EVENT_CAL_FAIL : Field := ⟨0x20000008, 3, 1⟩
def SYS_EVENT_START_FAIL : Field := ⟨0x20000008, 2, 1⟩
def SYS_EVENT_RUNNING : Field := ⟨0x20000008, 1, 1⟩
def SYS_EVENT_WARM_DONE : Field := ⟨0x20000008, 0, 1⟩
/-- SYS_EVENT_EN (04_start_up.md). -/
def SYS_EVENT_EN : Nat := 0x2000000C
def SYS_EVENT_EN_EN : Field := ⟨0x2000000C, 0, 4⟩
/-- SYS_CMD_ERR (04_start_up.md). -/
def SYS_CMD_ERR : Nat := 0x20000010
def SYS_CMD_ERR_STATUS : Field := ⟨0x20000010, 0, 16⟩
/-- UPL_CFG (05_link_ports.md). -/
def UPL_CFG (n : Nat) : Nat := (0x20030000 + 0x10000 * (n % 2))
def UPL_CFG_TXEQ (n : Nat) : Field := ⟨(0x20030000 + 0x10000 * (n % 2)), 8, 4⟩
def UPL_CFG_FEC_ADV (n : Nat) : Field := ⟨(0x20030000 + 0x10000 * (n % 2)), 2, 2⟩
def UPL_CFG_ALLOW (n : Nat) : Field := ⟨(0x20030000 + 0x10000 * (n % 2)), 0, 2⟩
/-- UPL_CTRL (05_link_ports.md). -/
def UPL_CTRL (n : Nat) : Nat := (0x20030004 + 0x10000 * (n % 2))
def UPL_CTRL_RETRAIN (n : Nat) : Field := ⟨(0x20030004 + 0x10000 * (n % 2)), 2, 1⟩
def UPL_CTRL_ADMIN (n : Nat) : Field := ⟨(0x20030004 + 0x10000 * (n % 2)), 0, 2⟩
/-- UPL_STAT (05_link_ports.md). -/
def UPL_STAT (n : Nat) : Nat := (0x20030008 + 0x10000 * (n % 2))
def UPL_STAT_TRAIN_FAILS (n : Nat) : Field := ⟨(0x20030008 + 0x10000 * (n % 2)), 16, 16⟩
def UPL_STAT_FEC_ON (n : Nat) : Field := ⟨(0x20030008 + 0x10000 * (n % 2)), 7, 1⟩
def UPL_STAT_BLOCK_LOCK (n : Nat) : Field := ⟨(0x20030008 + 0x10000 * (n % 2)), 6, 1⟩
def UPL_STAT_CDR_LOCK (n : Nat) : Field := ⟨(0x20030008 + 0x10000 * (n % 2)), 5, 1⟩
def UPL_STAT_MODE (n : Nat) : Field := ⟨(0x20030008 + 0x10000 * (n % 2)), 4, 1⟩
def UPL_STAT_LINK_UP (n : Nat) : Field := ⟨(0x20030008 + 0x10000 * (n % 2)), 3, 1⟩
def UPL_STAT_PHASE (n : Nat) : Field := ⟨(0x20030008 + 0x10000 * (n % 2)), 0, 3⟩
/-- UPL_LP_ABILITY (05_link_ports.md). -/
def UPL_LP_ABILITY (n : Nat) : Nat := (0x2003000C + 0x10000 * (n % 2))
def UPL_LP_ABILITY_BASE (n : Nat) : Field := ⟨(0x2003000C + 0x10000 * (n % 2)), 0, 16⟩
/-- UPL_FC (05_link_ports.md). -/
def UPL_FC (n : Nat) : Nat := (0x20030010 + 0x10000 * (n % 2))
def UPL_FC_QUANTA (n : Nat) : Field := ⟨(0x20030010 + 0x10000 * (n % 2)), 16, 16⟩
def UPL_FC_MODE (n : Nat) : Field := ⟨(0x20030010 + 0x10000 * (n % 2)), 0, 2⟩
/-- UPL_PRIO_MAP (05_link_ports.md). -/
def UPL_PRIO_MAP (n : Nat) : Nat := (0x20030014 + 0x10000 * (n % 2))
def UPL_PRIO_MAP_PRIO (n : Nat) : Field := ⟨(0x20030014 + 0x10000 * (n % 2)), 0, 32⟩
/-- UPL_EVENT (05_link_ports.md). -/
def UPL_EVENT (n : Nat) : Nat := (0x20030018 + 0x10000 * (n % 2))
def UPL_EVENT_FC_DISCARD (n : Nat) : Field := ⟨(0x20030018 + 0x10000 * (n % 2)), 3, 1⟩
def UPL_EVENT_TRAIN_FAIL (n : Nat) : Field := ⟨(0x20030018 + 0x10000 * (n % 2)), 2, 1⟩
def UPL_EVENT_LINK_DOWN (n : Nat) : Field := ⟨(0x20030018 + 0x10000 * (n % 2)), 1, 1⟩
def UPL_EVENT_LINK_UP (n : Nat) : Field := ⟨(0x20030018 + 0x10000 * (n % 2)), 0, 1⟩
/-- UPL_EVENT_EN (05_link_ports.md). -/
def UPL_EVENT_EN (n : Nat) : Nat := (0x2003001C + 0x10000 * (n % 2))
def UPL_EVENT_EN_EN (n : Nat) : Field := ⟨(0x2003001C + 0x10000 * (n % 2)), 0, 4⟩
/-- UPL_CMD_ERR (05_link_ports.md). -/
def UPL_CMD_ERR (n : Nat) : Nat := (0x20030020 + 0x10000 * (n % 2))
def UPL_CMD_ERR_STATUS (n : Nat) : Field := ⟨(0x20030020 + 0x10000 * (n % 2)), 0, 16⟩
/-- TIE_CFG (05_link_ports.md). -/
def TIE_CFG : Nat := 0x20050000
def TIE_CFG_RETRAIN : Field := ⟨0x20050000, 1, 1⟩
def TIE_CFG_ENABLE : Field := ⟨0x20050000, 0, 1⟩
/-- TIE_STAT (05_link_ports.md). -/
def TIE_STAT : Nat := 0x20050004
def TIE_STAT_TRAIN_FAILS : Field := ⟨0x20050004, 16, 16⟩
def TIE_STAT_BLOCK_LOCK : Field := ⟨0x20050004, 3, 1⟩
def TIE_STAT_PHASE : Field := ⟨0x20050004, 0, 3⟩
/-- TIE_PEER (05_link_ports.md). -/
def TIE_PEER : Nat := 0x20050008
def TIE_PEER_DIGEST : Field := ⟨0x20050008, 0, 32⟩
/-- TIE_PEER_STATE (05_link_ports.md). -/
def TIE_PEER_STATE : Nat := 0x2005000C
def TIE_PEER_STATE_ROLE : Field := ⟨0x2005000C, 8, 3⟩
def TIE_PEER_STATE_PAIR_ON : Field := ⟨0x2005000C, 7, 1⟩
def TIE_PEER_STATE_PREF : Field := ⟨0x2005000C, 6, 1⟩
def TIE_PEER_STATE_ROOT : Field := ⟨0x2005000C, 0, 3⟩
/-- TIE_EVENT (05_link_ports.md). -/
def TIE_EVENT : Nat := 0x20050010
def TIE_EVENT_TRAIN_FAIL : Field := ⟨0x20050010, 2, 1⟩
def TIE_EVENT_DOWN : Field := ⟨0x20050010, 1, 1⟩
def TIE_EVENT_UP : Field := ⟨0x20050010, 0, 1⟩
/-- TIE_EVENT_EN (05_link_ports.md). -/
def TIE_EVENT_EN : Nat := 0x20050014
def TIE_EVENT_EN_EN : Field := ⟨0x20050014, 0, 3⟩
/-- TIME_CFG (06_network_time.md). -/
def TIME_CFG : Nat := 0x20060000
def TIME_CFG_LOCK_WAIT_S : Field := ⟨0x20060000, 16, 16⟩
def TIME_CFG_FREEZE_S : Field := ⟨0x20060000, 8, 8⟩
def TIME_CFG_QL_OPT : Field := ⟨0x20060000, 3, 1⟩
def TIME_CFG_ONE_STEP : Field := ⟨0x20060000, 2, 1⟩
def TIME_CFG_EB_BEFORE_LOCK : Field := ⟨0x20060000, 0, 1⟩
/-- TIME_CTRL (06_network_time.md). -/
def TIME_CTRL : Nat := 0x20060004
def TIME_CTRL_SNAP : Field := ⟨0x20060004, 8, 1⟩
def TIME_CTRL_ACCEPT : Field := ⟨0x20060004, 4, 1⟩
def TIME_CTRL_SEL_DOM : Field := ⟨0x20060004, 0, 2⟩
/-- TIME_STATE (06_network_time.md). -/
def TIME_STATE : Nat := 0x20060008
def TIME_STATE_SEL : Field := ⟨0x20060008, 12, 2⟩
def TIME_STATE_DOM2 : Field := ⟨0x20060008, 9, 3⟩
def TIME_STATE_DOM1 : Field := ⟨0x20060008, 6, 3⟩
def TIME_STATE_REFUSED : Field := ⟨0x20060008, 2, 1⟩
def TIME_STATE_STEPPED : Field := ⟨0x20060008, 1, 1⟩
def TIME_STATE_EB_OK : Field := ⟨0x20060008, 0, 1⟩
/-- TIME_LIMIT (06_network_time.md). -/
def TIME_LIMIT : Nat := 0x2006000C
def TIME_LIMIT_SLEW : Field := ⟨0x2006000C, 20, 12⟩
def TIME_LIMIT_JUMP_NS : Field := ⟨0x2006000C, 0, 20⟩
/-- TIME_RATE (06_network_time.md). -/
def TIME_RATE : Nat := 0x20060010
def TIME_RATE_RATE : Field := ⟨0x20060010, 0, 32⟩
/-- TIME_EPOCH_LO (06_network_time.md). -/
def TIME_EPOCH_LO : Nat := 0x20060020
def TIME_EPOCH_LO_V : Field := ⟨0x20060020, 0, 32⟩
/-- TIME_SNAP_TB_LO (06_network_time.md). -/
def TIME_SNAP_TB_LO : Nat := 0x20060030
def TIME_SNAP_TB_LO_V : Field := ⟨0x20060030, 0, 32⟩
/-- TIME_SNAP_TB_HI (06_network_time.md). -/
def TIME_SNAP_TB_HI : Nat := 0x20060034
def TIME_SNAP_TB_HI_V : Field := ⟨0x20060034, 0, 32⟩
/-- TIME_SNAP_ASN_LO (06_network_time.md). -/
def TIME_SNAP_ASN_LO : Nat := 0x20060038
def TIME_SNAP_ASN_LO_V : Field := ⟨0x20060038, 0, 32⟩
/-- TIME_SNAP_S_LO (06_network_time.md). -/
def TIME_SNAP_S_LO : Nat := 0x20060048
def TIME_SNAP_S_LO_V : Field := ⟨0x20060048, 0, 32⟩
/-- TIME_EPOCH_HI (06_network_time.md). -/
def TIME_EPOCH_HI : Nat := 0x20060024
def TIME_EPOCH_HI_V : Field := ⟨0x20060024, 0, 16⟩
/-- TIME_SNAP_S_HI (06_network_time.md). -/
def TIME_SNAP_S_HI : Nat := 0x2006004C
def TIME_SNAP_S_HI_V : Field := ⟨0x2006004C, 0, 16⟩
/-- TIME_SNAP_ASN_HI (06_network_time.md). -/
def TIME_SNAP_ASN_HI : Nat := 0x2006003C
def TIME_SNAP_ASN_HI_ASN : Field := ⟨0x2006003C, 0, 8⟩
/-- TIME_SNAP_OFF (06_network_time.md). -/
def TIME_SNAP_OFF : Nat := 0x20060040
def TIME_SNAP_OFF_OFF : Field := ⟨0x20060040, 0, 26⟩
/-- TIME_SNAP_NS (06_network_time.md). -/
def TIME_SNAP_NS : Nat := 0x20060044
def TIME_SNAP_NS_NS : Field := ⟨0x20060044, 0, 30⟩
/-- TIME_DOM_CFG (06_network_time.md). -/
def TIME_DOM_CFG (n : Nat) : Nat := (0x20060100 + 0x40 * (n % 2))
def TIME_DOM_CFG_LOCK_NS (n : Nat) : Field := ⟨(0x20060100 + 0x40 * (n % 2)), 16, 16⟩
def TIME_DOM_CFG_STEP_NS (n : Nat) : Field := ⟨(0x20060100 + 0x40 * (n % 2)), 0, 16⟩
/-- TIME_DOM_STAT (06_network_time.md). -/
def TIME_DOM_STAT (n : Nat) : Nat := (0x20060104 + 0x40 * (n % 2))
def TIME_DOM_STAT_DOMAIN (n : Nat) : Field := ⟨(0x20060104 + 0x40 * (n % 2)), 24, 8⟩
def TIME_DOM_STAT_PROFILE (n : Nat) : Field := ⟨(0x20060104 + 0x40 * (n % 2)), 23, 1⟩
def TIME_DOM_STAT_DELAY (n : Nat) : Field := ⟨(0x20060104 + 0x40 * (n % 2)), 22, 1⟩
def TIME_DOM_STAT_TWO_STEP (n : Nat) : Field := ⟨(0x20060104 + 0x40 * (n % 2)), 21, 1⟩
def TIME_DOM_STAT_PORT (n : Nat) : Field := ⟨(0x20060104 + 0x40 * (n % 2)), 20, 1⟩
def TIME_DOM_STAT_TRANSPORT (n : Nat) : Field := ⟨(0x20060104 + 0x40 * (n % 2)), 19, 1⟩
def TIME_DOM_STAT_STATE (n : Nat) : Field := ⟨(0x20060104 + 0x40 * (n % 2)), 16, 3⟩
def TIME_DOM_STAT_PASS (n : Nat) : Field := ⟨(0x20060104 + 0x40 * (n % 2)), 0, 8⟩
/-- TIME_DOM_OFFSET (06_network_time.md). -/
def TIME_DOM_OFFSET (n : Nat) : Nat := (0x20060108 + 0x40 * (n % 2))
def TIME_DOM_OFFSET_V (n : Nat) : Field := ⟨(0x20060108 + 0x40 * (n % 2)), 0, 32⟩
/-- TIME_DOM_DELAY (06_network_time.md). -/
def TIME_DOM_DELAY (n : Nat) : Nat := (0x2006010C + 0x40 * (n % 2))
def TIME_DOM_DELAY_V (n : Nat) : Field := ⟨(0x2006010C + 0x40 * (n % 2)), 0, 32⟩
/-- TIME_DOM_ASYM (06_network_time.md). -/
def TIME_DOM_ASYM (n : Nat) : Nat := (0x20060110 + 0x40 * (n % 2))
def TIME_DOM_ASYM_ASYM (n : Nat) : Field := ⟨(0x20060110 + 0x40 * (n % 2)), 0, 32⟩
/-- TIME_DOM_GM_LO (06_network_time.md). -/
def TIME_DOM_GM_LO (n : Nat) : Nat := (0x20060114 + 0x40 * (n % 2))
def TIME_DOM_GM_LO_GM (n : Nat) : Field := ⟨(0x20060114 + 0x40 * (n % 2)), 0, 32⟩
/-- TIME_DOM_GM_HI (06_network_time.md). -/
def TIME_DOM_GM_HI (n : Nat) : Nat := (0x20060118 + 0x40 * (n % 2))
def TIME_DOM_GM_HI_GM (n : Nat) : Field := ⟨(0x20060118 + 0x40 * (n % 2)), 0, 32⟩
/-- TIME_DOM_COUNT (06_network_time.md). -/
def TIME_DOM_COUNT (n : Nat) : Nat := (0x2006011C + 0x40 * (n % 2))
def TIME_DOM_COUNT_FREEZES (n : Nat) : Field := ⟨(0x2006011C + 0x40 * (n % 2)), 16, 16⟩
def TIME_DOM_COUNT_LOSSES (n : Nat) : Field := ⟨(0x2006011C + 0x40 * (n % 2)), 0, 16⟩
/-- TIME_QL_UPL0 (06_network_time.md). -/
def TIME_QL_UPL0 : Nat := 0x20060200
def TIME_QL_UPL0_TIMEOUT : Field := ⟨0x20060200, 31, 1⟩
def TIME_QL_UPL0_EXT : Field := ⟨0x20060200, 30, 1⟩
def TIME_QL_UPL0_ESSM : Field := ⟨0x20060200, 16, 8⟩
def TIME_QL_UPL0_SSM : Field := ⟨0x20060200, 0, 4⟩
/-- TIME_QL_UPL1 (06_network_time.md). -/
def TIME_QL_UPL1 : Nat := 0x20060204
def TIME_QL_UPL1_TIMEOUT : Field := ⟨0x20060204, 31, 1⟩
def TIME_QL_UPL1_EXT : Field := ⟨0x20060204, 30, 1⟩
def TIME_QL_UPL1_ESSM : Field := ⟨0x20060204, 16, 8⟩
def TIME_QL_UPL1_SSM : Field := ⟨0x20060204, 0, 4⟩
/-- TIME_LAT_UPL0 (06_network_time.md). -/
def TIME_LAT_UPL0 : Nat := 0x20060210
def TIME_LAT_UPL0_RX_ADJ : Field := ⟨0x20060210, 16, 16⟩
def TIME_LAT_UPL0_TX_ADJ : Field := ⟨0x20060210, 0, 16⟩
/-- TIME_LAT_UPL1 (06_network_time.md). -/
def TIME_LAT_UPL1 : Nat := 0x20060214
def TIME_LAT_UPL1_RX_ADJ : Field := ⟨0x20060214, 16, 16⟩
def TIME_LAT_UPL1_TX_ADJ : Field := ⟨0x20060214, 0, 16⟩
/-- TIME_PEER (06_network_time.md). -/
def TIME_PEER : Nat := 0x20060220
def TIME_PEER_OFFSET : Field := ⟨0x20060220, 0, 32⟩
/-- TIME_TIE_ASYM (06_network_time.md). -/
def TIME_TIE_ASYM : Nat := 0x20060224
def TIME_TIE_ASYM_ASYM : Field := ⟨0x20060224, 0, 16⟩
/-- TIME_EVENT (06_network_time.md). -/
def TIME_EVENT : Nat := 0x20060230
def TIME_EVENT_RATE_CLIP : Field := ⟨0x20060230, 8, 1⟩
def TIME_EVENT_NO_REF : Field := ⟨0x20060230, 7, 1⟩
def TIME_EVENT_QL_CHANGE : Field := ⟨0x20060230, 6, 1⟩
def TIME_EVENT_DOM_LOST : Field := ⟨0x20060230, 5, 1⟩
def TIME_EVENT_DOM_SWITCH : Field := ⟨0x20060230, 4, 1⟩
def TIME_EVENT_FROZEN : Field := ⟨0x20060230, 3, 1⟩
def TIME_EVENT_JUMP_REFUSED : Field := ⟨0x20060230, 2, 1⟩
def TIME_EVENT_STEPPED : Field := ⟨0x20060230, 1, 1⟩
def TIME_EVENT_LOCKED : Field := ⟨0x20060230, 0, 1⟩
/-- TIME_EVENT_EN (06_network_time.md). -/
def TIME_EVENT_EN : Nat := 0x20060234
def TIME_EVENT_EN_EN : Field := ⟨0x20060234, 0, 9⟩
/-- TIME_CMD_ERR (06_network_time.md). -/
def TIME_CMD_ERR : Nat := 0x20060238
def TIME_CMD_ERR_STATUS : Field := ⟨0x20060238, 0, 16⟩
/-- TRX_STATE (07_radio_front_end.md). -/
def TRX_STATE (n : Nat) : Nat := (0x20080000 + 0x10000 * (n % 4))
def TRX_STATE_TARGET (n : Nat) : Field := ⟨(0x20080000 + 0x10000 * (n % 4)), 16, 3⟩
def TRX_STATE_BG_STEP (n : Nat) : Field := ⟨(0x20080000 + 0x10000 * (n % 4)), 10, 1⟩
def TRX_STATE_SYN_TX_LOCK (n : Nat) : Field := ⟨(0x20080000 + 0x10000 * (n % 4)), 9, 1⟩
def TRX_STATE_SYN_RX_LOCK (n : Nat) : Field := ⟨(0x20080000 + 0x10000 * (n % 4)), 8, 1⟩
def TRX_STATE_MOVING (n : Nat) : Field := ⟨(0x20080000 + 0x10000 * (n % 4)), 3, 1⟩
def TRX_STATE_STATE (n : Nat) : Field := ⟨(0x20080000 + 0x10000 * (n % 4)), 0, 3⟩
/-- TRX_CMD (07_radio_front_end.md). -/
def TRX_CMD (n : Nat) : Nat := (0x20080004 + 0x10000 * (n % 4))
def TRX_CMD_CAL (n : Nat) : Field := ⟨(0x20080004 + 0x10000 * (n % 4)), 4, 1⟩
def TRX_CMD_TARGET (n : Nat) : Field := ⟨(0x20080004 + 0x10000 * (n % 4)), 0, 2⟩
/-- TRX_TUNE (07_radio_front_end.md). -/
def TRX_TUNE (n : Nat) : Nat := (0x20080008 + 0x10000 * (n % 4))
def TRX_TUNE_CENTRE_KHZ (n : Nat) : Field := ⟨(0x20080008 + 0x10000 * (n % 4)), 0, 32⟩
/-- TRX_SYN (07_radio_front_end.md). -/
def TRX_SYN (n : Nat) : Nat := (0x2008000C + 0x10000 * (n % 4))
def TRX_SYN_N (n : Nat) : Field := ⟨(0x2008000C + 0x10000 * (n % 4)), 24, 6⟩
def TRX_SYN_FRAC (n : Nat) : Field := ⟨(0x2008000C + 0x10000 * (n % 4)), 0, 24⟩
/-- TRX_PATH (07_radio_front_end.md). -/
def TRX_PATH (n : Nat) : Nat := (0x20080010 + 0x10000 * (n % 4))
def TRX_PATH_ON_B (n : Nat) : Field := ⟨(0x20080010 + 0x10000 * (n % 4)), 20, 1⟩
def TRX_PATH_GAIN_B (n : Nat) : Field := ⟨(0x20080010 + 0x10000 * (n % 4)), 16, 4⟩
def TRX_PATH_ON_A (n : Nat) : Field := ⟨(0x20080010 + 0x10000 * (n % 4)), 4, 1⟩
def TRX_PATH_GAIN_A (n : Nat) : Field := ⟨(0x20080010 + 0x10000 * (n % 4)), 0, 4⟩
/-- TRX_PWR (07_radio_front_end.md). -/
def TRX_PWR (n : Nat) : Nat := (0x20080014 + 0x10000 * (n % 4))
def TRX_PWR_LIMIT (n : Nat) : Field := ⟨(0x20080014 + 0x10000 * (n % 4)), 16, 8⟩
def TRX_PWR_DEFAULT (n : Nat) : Field := ⟨(0x20080014 + 0x10000 * (n % 4)), 0, 8⟩
/-- TRX_FEM (07_radio_front_end.md). -/
def TRX_FEM (n : Nat) : Nat := (0x20080018 + 0x10000 * (n % 4))
def TRX_FEM_PA_LAG (n : Nat) : Field := ⟨(0x20080018 + 0x10000 * (n % 4)), 16, 10⟩
def TRX_FEM_PA_LEAD (n : Nat) : Field := ⟨(0x20080018 + 0x10000 * (n % 4)), 0, 12⟩
/-- TRX_FEM_CTRL (07_radio_front_end.md). -/
def TRX_FEM_CTRL (n : Nat) : Nat := (0x2008001C + 0x10000 * (n % 4))
def TRX_FEM_CTRL_ANT_RX (n : Nat) : Field := ⟨(0x2008001C + 0x10000 * (n % 4)), 1, 1⟩
def TRX_FEM_CTRL_BYP (n : Nat) : Field := ⟨(0x2008001C + 0x10000 * (n % 4)), 0, 1⟩
/-- TRX_COEX (07_radio_front_end.md). -/
def TRX_COEX (n : Nat) : Nat := (0x20080020 + 0x10000 * (n % 4))
def TRX_COEX_ABORT (n : Nat) : Field := ⟨(0x20080020 + 0x10000 * (n % 4)), 8, 1⟩
def TRX_COEX_PRIO_MASK (n : Nat) : Field := ⟨(0x20080020 + 0x10000 * (n % 4)), 0, 4⟩
/-- TRX_BLANK (07_radio_front_end.md). -/
def TRX_BLANK (n : Nat) : Nat := (0x20080024 + 0x10000 * (n % 4))
def TRX_BLANK_TAIL (n : Nat) : Field := ⟨(0x20080024 + 0x10000 * (n % 4)), 0, 10⟩
/-- TRX_CAL (07_radio_front_end.md). -/
def TRX_CAL (n : Nat) : Nat := (0x20080028 + 0x10000 * (n % 4))
def TRX_CAL_TEMP_K (n : Nat) : Field := ⟨(0x20080028 + 0x10000 * (n % 4)), 24, 8⟩
def TRX_CAL_BG_PERIOD (n : Nat) : Field := ⟨(0x20080028 + 0x10000 * (n % 4)), 12, 12⟩
/-- TRX_CAL_STAT (07_radio_front_end.md). -/
def TRX_CAL_STAT (n : Nat) : Nat := (0x2008002C + 0x10000 * (n % 4))
def TRX_CAL_STAT_CAL_TEMP (n : Nat) : Field := ⟨(0x2008002C + 0x10000 * (n % 4)), 24, 8⟩
def TRX_CAL_STAT_TEMP (n : Nat) : Field := ⟨(0x2008002C + 0x10000 * (n % 4)), 16, 8⟩
def TRX_CAL_STAT_BG_STEPS (n : Nat) : Field := ⟨(0x2008002C + 0x10000 * (n % 4)), 5, 11⟩
def TRX_CAL_STAT_BG_BEHIND (n : Nat) : Field := ⟨(0x2008002C + 0x10000 * (n % 4)), 1, 1⟩
def TRX_CAL_STAT_CAL_OK (n : Nat) : Field := ⟨(0x2008002C + 0x10000 * (n % 4)), 0, 1⟩
/-- TRX_EVENT (07_radio_front_end.md). -/
def TRX_EVENT (n : Nat) : Nat := (0x20080040 + 0x10000 * (n % 4))
def TRX_EVENT_SYN_UNLOCK (n : Nat) : Field := ⟨(0x20080040 + 0x10000 * (n % 4)), 7, 1⟩
def TRX_EVENT_COEX_ABORT (n : Nat) : Field := ⟨(0x20080040 + 0x10000 * (n % 4)), 6, 1⟩
def TRX_EVENT_COEX_LATE (n : Nat) : Field := ⟨(0x20080040 + 0x10000 * (n % 4)), 5, 1⟩
def TRX_EVENT_PWR_CLIP (n : Nat) : Field := ⟨(0x20080040 + 0x10000 * (n % 4)), 4, 1⟩
def TRX_EVENT_TEMP_DRIFT (n : Nat) : Field := ⟨(0x20080040 + 0x10000 * (n % 4)), 3, 1⟩
def TRX_EVENT_BG_DONE (n : Nat) : Field := ⟨(0x20080040 + 0x10000 * (n % 4)), 2, 1⟩
def TRX_EVENT_CAL_FAIL (n : Nat) : Field := ⟨(0x20080040 + 0x10000 * (n % 4)), 1, 1⟩
def TRX_EVENT_CAL_DONE (n : Nat) : Field := ⟨(0x20080040 + 0x10000 * (n % 4)), 0, 1⟩
/-- TRX_EVENT_EN (07_radio_front_end.md). -/
def TRX_EVENT_EN (n : Nat) : Nat := (0x20080044 + 0x10000 * (n % 4))
def TRX_EVENT_EN_EN (n : Nat) : Field := ⟨(0x20080044 + 0x10000 * (n % 4)), 0, 8⟩
/-- TRX_COUNT (07_radio_front_end.md). -/
def TRX_COUNT (n : Nat) : Nat := (0x20080048 + 0x10000 * (n % 4))
def TRX_COUNT_COEX_LATE (n : Nat) : Field := ⟨(0x20080048 + 0x10000 * (n % 4)), 16, 16⟩
def TRX_COUNT_PWR_CLIP (n : Nat) : Field := ⟨(0x20080048 + 0x10000 * (n % 4)), 0, 16⟩
/-- TRX_CMD_ERR (07_radio_front_end.md). -/
def TRX_CMD_ERR (n : Nat) : Nat := (0x2008004C + 0x10000 * (n % 4))
def TRX_CMD_ERR_STATUS (n : Nat) : Field := ⟨(0x2008004C + 0x10000 * (n % 4)), 0, 16⟩
/-- LANE_CFG (08_wideband_receive.md). -/
def LANE_CFG (n : Nat) : Nat := (0x200C0000 + 0x20 * (n % 96))
def LANE_CFG_STATUS (n : Nat) : Field := ⟨(0x200C0000 + 0x20 * (n % 96)), 16, 16⟩
def LANE_CFG_CAPTURE (n : Nat) : Field := ⟨(0x200C0000 + 0x20 * (n % 96)), 8, 4⟩
def LANE_CFG_AERIAL (n : Nat) : Field := ⟨(0x200C0000 + 0x20 * (n % 96)), 4, 2⟩
def LANE_CFG_CLR (n : Nat) : Field := ⟨(0x200C0000 + 0x20 * (n % 96)), 0, 1⟩
/-- LANE_CHAN (08_wideband_receive.md). -/
def LANE_CHAN (n : Nat) : Nat := (0x200C0004 + 0x20 * (n % 96))
def LANE_CHAN_BIND (n : Nat) : Field := ⟨(0x200C0004 + 0x20 * (n % 96)), 30, 2⟩
def LANE_CHAN_CHAN_KHZ (n : Nat) : Field := ⟨(0x200C0004 + 0x20 * (n % 96)), 0, 24⟩
/-- LANE_STATE (08_wideband_receive.md). -/
def LANE_STATE (n : Nat) : Nat := (0x200C0008 + 0x20 * (n % 96))
def LANE_STATE_PHY_MODE (n : Nat) : Field := ⟨(0x200C0008 + 0x20 * (n % 96)), 16, 16⟩
def LANE_STATE_ARMED (n : Nat) : Field := ⟨(0x200C0008 + 0x20 * (n % 96)), 15, 1⟩
def LANE_STATE_PENDING (n : Nat) : Field := ⟨(0x200C0008 + 0x20 * (n % 96)), 14, 1⟩
def LANE_STATE_SI (n : Nat) : Field := ⟨(0x200C0008 + 0x20 * (n % 96)), 13, 1⟩
def LANE_STATE_PATH (n : Nat) : Field := ⟨(0x200C0008 + 0x20 * (n % 96)), 12, 1⟩
def LANE_STATE_STATE (n : Nat) : Field := ⟨(0x200C0008 + 0x20 * (n % 96)), 0, 3⟩
/-- LANE_RSSI (08_wideband_receive.md). -/
def LANE_RSSI (n : Nat) : Nat := (0x200C000C + 0x20 * (n % 96))
def LANE_RSSI_LAST (n : Nat) : Field := ⟨(0x200C000C + 0x20 * (n % 96)), 16, 16⟩
def LANE_RSSI_IDLE (n : Nat) : Field := ⟨(0x200C000C + 0x20 * (n % 96)), 0, 16⟩
/-- LANE_COUNT0 (08_wideband_receive.md). -/
def LANE_COUNT0 (n : Nat) : Nat := (0x200C0010 + 0x20 * (n % 96))
def LANE_COUNT0_SYNCS (n : Nat) : Field := ⟨(0x200C0010 + 0x20 * (n % 96)), 16, 16⟩
def LANE_COUNT0_PREEMPT (n : Nat) : Field := ⟨(0x200C0010 + 0x20 * (n % 96)), 0, 16⟩
/-- LANE_COUNT1 (08_wideband_receive.md). -/
def LANE_COUNT1 (n : Nat) : Nat := (0x200C0014 + 0x20 * (n % 96))
def LANE_COUNT1_FALSE_PRE (n : Nat) : Field := ⟨(0x200C0014 + 0x20 * (n % 96)), 20, 12⟩
def LANE_COUNT1_PHR_ERR (n : Nat) : Field := ⟨(0x200C0014 + 0x20 * (n % 96)), 10, 10⟩
def LANE_COUNT1_LOST (n : Nat) : Field := ⟨(0x200C0014 + 0x20 * (n % 96)), 0, 10⟩
/-- TRX_TX_STAT (09_transmit.md). -/
def TRX_TX_STAT (n : Nat) : Nat := (0x20080080 + 0x10000 * (n % 4))
def TRX_TX_STAT_PLANNED (n : Nat) : Field := ⟨(0x20080080 + 0x10000 * (n % 4)), 16, 5⟩
def TRX_TX_STAT_MEMBERS (n : Nat) : Field := ⟨(0x20080080 + 0x10000 * (n % 4)), 8, 4⟩
def TRX_TX_STAT_BRAID_OPEN (n : Nat) : Field := ⟨(0x20080080 + 0x10000 * (n % 4)), 4, 1⟩
def TRX_TX_STAT_LAUNCHED (n : Nat) : Field := ⟨(0x20080080 + 0x10000 * (n % 4)), 3, 1⟩
def TRX_TX_STAT_HEAD_KIND (n : Nat) : Field := ⟨(0x20080080 + 0x10000 * (n % 4)), 0, 3⟩
/-- TRX_TX_COUNT0 (09_transmit.md). -/
def TRX_TX_COUNT0 (n : Nat) : Nat := (0x20080084 + 0x10000 * (n % 4))
def TRX_TX_COUNT0_SENT (n : Nat) : Field := ⟨(0x20080084 + 0x10000 * (n % 4)), 16, 16⟩
def TRX_TX_COUNT0_LATE (n : Nat) : Field := ⟨(0x20080084 + 0x10000 * (n % 4)), 0, 16⟩
/-- TRX_TX_COUNT1 (09_transmit.md). -/
def TRX_TX_COUNT1 (n : Nat) : Nat := (0x20080088 + 0x10000 * (n % 4))
def TRX_TX_COUNT1_FLUSHED (n : Nat) : Field := ⟨(0x20080088 + 0x10000 * (n % 4)), 16, 16⟩
def TRX_TX_COUNT1_REFUSED (n : Nat) : Field := ⟨(0x20080088 + 0x10000 * (n % 4)), 0, 16⟩
/-- TRX_WAKE (09_transmit.md). -/
def TRX_WAKE (n : Nat) : Nat := (0x2008008C + 0x10000 * (n % 4))
def TRX_WAKE_RATE (n : Nat) : Field := ⟨(0x2008008C + 0x10000 * (n % 4)), 8, 1⟩
def TRX_WAKE_PRE_BITS (n : Nat) : Field := ⟨(0x2008008C + 0x10000 * (n % 4)), 0, 7⟩
/-- TRX_TX_EVENT (09_transmit.md). -/
def TRX_TX_EVENT (n : Nat) : Nat := (0x20080090 + 0x10000 * (n % 4))
def TRX_TX_EVENT_FENCE (n : Nat) : Field := ⟨(0x20080090 + 0x10000 * (n % 4)), 3, 1⟩
def TRX_TX_EVENT_BRAID_CLOSED (n : Nat) : Field := ⟨(0x20080090 + 0x10000 * (n % 4)), 2, 1⟩
def TRX_TX_EVENT_FLUSHED (n : Nat) : Field := ⟨(0x20080090 + 0x10000 * (n % 4)), 1, 1⟩
def TRX_TX_EVENT_LATE (n : Nat) : Field := ⟨(0x20080090 + 0x10000 * (n % 4)), 0, 1⟩
/-- TRX_TX_EVENT_EN (09_transmit.md). -/
def TRX_TX_EVENT_EN (n : Nat) : Nat := (0x20080094 + 0x10000 * (n % 4))
def TRX_TX_EVENT_EN_EN (n : Nat) : Field := ⟨(0x20080094 + 0x10000 * (n % 4)), 0, 4⟩
/-- MAC_CTRL (10_slots_and_access.md). -/
def MAC_CTRL : Nat := 0x200D0000
def MAC_CTRL_CLR : Field := ⟨0x200D0000, 16, 1⟩
def MAC_CTRL_PAN_EN : Field := ⟨0x200D0000, 0, 16⟩
/-- MAC_STATE (10_slots_and_access.md). -/
def MAC_STATE : Nat := 0x200D0004
def MAC_STATE_PAN_RUN : Field := ⟨0x200D0004, 16, 16⟩
def MAC_STATE_PENDING : Field := ⟨0x200D0004, 0, 14⟩
/-- MAC_EUI_LO (10_slots_and_access.md). -/
def MAC_EUI_LO : Nat := 0x200D0008
def MAC_EUI_LO_EUI : Field := ⟨0x200D0008, 0, 32⟩
/-- MAC_EUI_HI (10_slots_and_access.md). -/
def MAC_EUI_HI : Nat := 0x200D000C
def MAC_EUI_HI_EUI : Field := ⟨0x200D000C, 0, 32⟩
/-- MAC_TSCH_CFG (10_slots_and_access.md). -/
def MAC_TSCH_CFG : Nat := 0x200D0010
def MAC_TSCH_CFG_RETRIES : Field := ⟨0x200D0010, 16, 3⟩
def MAC_TSCH_CFG_MAX_BE : Field := ⟨0x200D0010, 8, 4⟩
def MAC_TSCH_CFG_MIN_BE : Field := ⟨0x200D0010, 4, 4⟩
/-- MAC_CSMA_CFG (10_slots_and_access.md). -/
def MAC_CSMA_CFG : Nat := 0x200D0014
def MAC_CSMA_CFG_CCA_THR : Field := ⟨0x200D0014, 24, 8⟩
def MAC_CSMA_CFG_RETRIES : Field := ⟨0x200D0014, 16, 3⟩
def MAC_CSMA_CFG_MAX_BACKOFFS : Field := ⟨0x200D0014, 12, 3⟩
def MAC_CSMA_CFG_MAX_BE : Field := ⟨0x200D0014, 8, 4⟩
def MAC_CSMA_CFG_MIN_BE : Field := ⟨0x200D0014, 4, 4⟩
/-- MAC_ACK_CFG (10_slots_and_access.md). -/
def MAC_ACK_CFG : Nat := 0x200D0018
def MAC_ACK_CFG_SLIDE_US : Field := ⟨0x200D0018, 16, 8⟩
def MAC_ACK_CFG_KEEP : Field := ⟨0x200D0018, 0, 1⟩
/-- MAC_DUP_CFG (10_slots_and_access.md). -/
def MAC_DUP_CFG : Nat := 0x200D001C
def MAC_DUP_CFG_HOLD_MS : Field := ⟨0x200D001C, 0, 16⟩
/-- MAC_EVENT (10_slots_and_access.md). -/
def MAC_EVENT : Nat := 0x200D0020
def MAC_EVENT_PLAN_ROWS : Field := ⟨0x200D0020, 7, 1⟩
def MAC_EVENT_DUTY_LIMIT : Field := ⟨0x200D0020, 6, 1⟩
def MAC_EVENT_PEND_FULL : Field := ⟨0x200D0020, 5, 1⟩
def MAC_EVENT_REPLAY : Field := ⟨0x200D0020, 4, 1⟩
def MAC_EVENT_RX_LOST : Field := ⟨0x200D0020, 3, 1⟩
def MAC_EVENT_ACK_GIVEN_UP : Field := ⟨0x200D0020, 2, 1⟩
def MAC_EVENT_CELL_MISS : Field := ⟨0x200D0020, 1, 1⟩
def MAC_EVENT_NO_ACK : Field := ⟨0x200D0020, 0, 1⟩
/-- MAC_EVENT_EN (10_slots_and_access.md). -/
def MAC_EVENT_EN : Nat := 0x200D0024
def MAC_EVENT_EN_EN : Field := ⟨0x200D0024, 0, 8⟩
/-- MAC_CMD_ERR (10_slots_and_access.md). -/
def MAC_CMD_ERR : Nat := 0x200D0028
def MAC_CMD_ERR_STATUS : Field := ⟨0x200D0028, 0, 16⟩
/-- MAC_RX_COUNT0 (10_slots_and_access.md). -/
def MAC_RX_COUNT0 : Nat := 0x200D0040
def MAC_RX_COUNT0_FCS_FAIL : Field := ⟨0x200D0040, 16, 16⟩
def MAC_RX_COUNT0_AUTH_FAIL : Field := ⟨0x200D0040, 0, 16⟩
/-- MAC_RX_COUNT1 (10_slots_and_access.md). -/
def MAC_RX_COUNT1 : Nat := 0x200D0044
def MAC_RX_COUNT1_REPLAY : Field := ⟨0x200D0044, 16, 16⟩
def MAC_RX_COUNT1_DUPLICATE : Field := ⟨0x200D0044, 0, 16⟩
/-- MAC_RX_COUNT2 (10_slots_and_access.md). -/
def MAC_RX_COUNT2 : Nat := 0x200D0048
def MAC_RX_COUNT2_UNSUPPORTED : Field := ⟨0x200D0048, 16, 16⟩
def MAC_RX_COUNT2_FILTERED : Field := ⟨0x200D0048, 0, 16⟩
/-- MAC_RX_COUNT3 (10_slots_and_access.md). -/
def MAC_RX_COUNT3 : Nat := 0x200D004C
def MAC_RX_COUNT3_SEC_LEVEL : Field := ⟨0x200D004C, 16, 16⟩
def MAC_RX_COUNT3_NO_NODE : Field := ⟨0x200D004C, 0, 16⟩
/-- MAC_RX_COUNT4 (10_slots_and_access.md). -/
def MAC_RX_COUNT4 : Nat := 0x200D0050
def MAC_RX_COUNT4_LANE_FAIL : Field := ⟨0x200D0050, 16, 16⟩
def MAC_RX_COUNT4_SHADOW_FULL : Field := ⟨0x200D0050, 0, 16⟩
/-- MAC_ACK_COUNT0 (10_slots_and_access.md). -/
def MAC_ACK_COUNT0 : Nat := 0x200D0054
def MAC_ACK_COUNT0_SENT : Field := ⟨0x200D0054, 16, 16⟩
def MAC_ACK_COUNT0_GIVEN_UP : Field := ⟨0x200D0054, 0, 16⟩
/-- MAC_ACK_COUNT1 (10_slots_and_access.md). -/
def MAC_ACK_COUNT1 : Nat := 0x200D0058
def MAC_ACK_COUNT1_LOST : Field := ⟨0x200D0058, 16, 16⟩
def MAC_ACK_COUNT1_EXCESS : Field := ⟨0x200D0058, 0, 16⟩
/-- MAC_CELL_COUNT (10_slots_and_access.md). -/
def MAC_CELL_COUNT : Nat := 0x200D005C
def MAC_CELL_COUNT_MISS : Field := ⟨0x200D005C, 16, 16⟩
def MAC_CELL_COUNT_SKIP : Field := ⟨0x200D005C, 0, 16⟩
/-- MAC_CELL_COUNT2 (10_slots_and_access.md). -/
def MAC_CELL_COUNT2 : Nat := 0x200D0060
def MAC_CELL_COUNT2_ROWS : Field := ⟨0x200D0060, 16, 16⟩
def MAC_CELL_COUNT2_TX_LOST : Field := ⟨0x200D0060, 0, 16⟩
/-- MAC_PAN_SEL (10_slots_and_access.md). -/
def MAC_PAN_SEL : Nat := 0x200D0080
def MAC_PAN_SEL_PAN : Field := ⟨0x200D0080, 0, 4⟩
/-- MAC_PAN_ADDR (10_slots_and_access.md). -/
def MAC_PAN_ADDR : Nat := 0x200D0084
def MAC_PAN_ADDR_PAN_ID : Field := ⟨0x200D0084, 16, 16⟩
def MAC_PAN_ADDR_SHORT : Field := ⟨0x200D0084, 0, 16⟩
/-- MAC_PAN_CHAN (10_slots_and_access.md). -/
def MAC_PAN_CHAN : Nat := 0x200D0088
def MAC_PAN_CHAN_HOP_LEN : Field := ⟨0x200D0088, 24, 8⟩
def MAC_PAN_CHAN_CH0_KHZ : Field := ⟨0x200D0088, 0, 24⟩
/-- MAC_PAN_SPACING (10_slots_and_access.md). -/
def MAC_PAN_SPACING : Nat := 0x200D008C
def MAC_PAN_SPACING_SPACING_KHZ : Field := ⟨0x200D008C, 0, 16⟩
/-- MAC_PAN_KEY (10_slots_and_access.md). -/
def MAC_PAN_KEY : Nat := 0x200D0090
def MAC_PAN_KEY_VALID : Field := ⟨0x200D0090, 31, 1⟩
def MAC_PAN_KEY_KEY_INDEX : Field := ⟨0x200D0090, 16, 8⟩
def MAC_PAN_KEY_SLOT : Field := ⟨0x200D0090, 0, 9⟩
/-- MAC_PAN_EB (10_slots_and_access.md). -/
def MAC_PAN_EB : Nat := 0x200D0094
def MAC_PAN_EB_BUF : Field := ⟨0x200D0094, 0, 32⟩
/-- MAC_PAN_EB_CFG (10_slots_and_access.md). -/
def MAC_PAN_EB_CFG : Nat := 0x200D0098
def MAC_PAN_EB_CFG_LEN : Field := ⟨0x200D0098, 16, 12⟩
def MAC_PAN_EB_CFG_JOIN_METRIC : Field := ⟨0x200D0098, 0, 8⟩
/-- MAC_SF_SEL (10_slots_and_access.md). -/
def MAC_SF_SEL : Nat := 0x200D00A0
def MAC_SF_SEL_HANDLE : Field := ⟨0x200D00A0, 0, 3⟩
/-- MAC_SF_CFG (10_slots_and_access.md). -/
def MAC_SF_CFG : Nat := 0x200D00A4
def MAC_SF_CFG_EN : Field := ⟨0x200D00A4, 31, 1⟩
def MAC_SF_CFG_LENGTH : Field := ⟨0x200D00A4, 0, 16⟩
/-- MAC_SF_BASE (10_slots_and_access.md). -/
def MAC_SF_BASE : Nat := 0x200D00A8
def MAC_SF_BASE_ROW_BASE : Field := ⟨0x200D00A8, 0, 32⟩
/-- MAC_HOP_SEL (10_slots_and_access.md). -/
def MAC_HOP_SEL : Nat := 0x200D00C0
def MAC_HOP_SEL_INDEX : Field := ⟨0x200D00C0, 0, 7⟩
/-- MAC_HOP_DATA (10_slots_and_access.md). -/
def MAC_HOP_DATA : Nat := 0x200D00C4
def MAC_HOP_DATA_CHANNEL : Field := ⟨0x200D00C4, 0, 16⟩
/-- MAC_DUTY_SEL (10_slots_and_access.md). -/
def MAC_DUTY_SEL : Nat := 0x200D0100
def MAC_DUTY_SEL_PROFILE : Field := ⟨0x200D0100, 0, 4⟩
/-- MAC_DUTY_USED (10_slots_and_access.md). -/
def MAC_DUTY_USED : Nat := 0x200D0104
def MAC_DUTY_USED_USED : Field := ⟨0x200D0104, 0, 32⟩
/-- MAC_DUTY_STAT (10_slots_and_access.md). -/
def MAC_DUTY_STAT : Nat := 0x200D0108
def MAC_DUTY_STAT_AT_LIMIT : Field := ⟨0x200D0108, 31, 1⟩
def MAC_DUTY_STAT_HELD : Field := ⟨0x200D0108, 0, 16⟩
/-- SLEEP_CFG (11_sleepy_nodes.md). -/
def SLEEP_CFG : Nat := 0x200E0000
def SLEEP_CFG_INIT_SPREAD : Field := ⟨0x200E0000, 24, 8⟩
def SLEEP_CFG_RESYNC_PCT : Field := ⟨0x200E0000, 16, 8⟩
def SLEEP_CFG_FILT : Field := ⟨0x200E0000, 8, 4⟩
def SLEEP_CFG_MARGIN : Field := ⟨0x200E0000, 0, 8⟩
/-- SLEEP_GUARD (11_sleepy_nodes.md). -/
def SLEEP_GUARD : Nat := 0x200E0004
def SLEEP_GUARD_STEER_US : Field := ⟨0x200E0004, 20, 12⟩
def SLEEP_GUARD_MARGIN_US : Field := ⟨0x200E0004, 10, 10⟩
def SLEEP_GUARD_BASE_US : Field := ⟨0x200E0004, 0, 10⟩
/-- SLEEP_LADDER (11_sleepy_nodes.md). -/
def SLEEP_LADDER : Nat := 0x200E0008
def SLEEP_LADDER_SWEEP_MAX : Field := ⟨0x200E0008, 28, 4⟩
def SLEEP_LADDER_RETRY_L0 : Field := ⟨0x200E0008, 24, 4⟩
def SLEEP_LADDER_WK_TRIES : Field := ⟨0x200E0008, 20, 4⟩
def SLEEP_LADDER_WUS_MAX_MS : Field := ⟨0x200E0008, 8, 8⟩
/-- SLEEP_WAKE (11_sleepy_nodes.md). -/
def SLEEP_WAKE : Nat := 0x200E000C
def SLEEP_WAKE_WK_WAIT_MS : Field := ⟨0x200E000C, 16, 16⟩
def SLEEP_WAKE_WK_PARAM : Field := ⟨0x200E000C, 0, 16⟩
/-- SLEEP_CTRL (11_sleepy_nodes.md). -/
def SLEEP_CTRL : Nat := 0x200E0010
def SLEEP_CTRL_OP : Field := ⟨0x200E0010, 28, 4⟩
def SLEEP_CTRL_NODE : Field := ⟨0x200E0010, 0, 18⟩
/-- SLEEP_STAT (11_sleepy_nodes.md). -/
def SLEEP_STAT : Nat := 0x200E0014
def SLEEP_STAT_LINKS : Field := ⟨0x200E0014, 18, 13⟩
def SLEEP_STAT_TRACKED : Field := ⟨0x200E0014, 0, 18⟩
/-- SLEEP_LOAD (11_sleepy_nodes.md). -/
def SLEEP_LOAD : Nat := 0x200E0018
def SLEEP_LOAD_MAX : Field := ⟨0x200E0018, 16, 16⟩
def SLEEP_LOAD_LAST : Field := ⟨0x200E0018, 0, 12⟩
/-- SLEEP_EVENT (11_sleepy_nodes.md). -/
def SLEEP_EVENT : Nat := 0x200E0020
def SLEEP_EVENT_REACHED : Field := ⟨0x200E0020, 6, 1⟩
def SLEEP_EVENT_DEFERRED : Field := ⟨0x200E0020, 5, 1⟩
def SLEEP_EVENT_LINK_DRIFT : Field := ⟨0x200E0020, 4, 1⟩
def SLEEP_EVENT_UNREACHABLE : Field := ⟨0x200E0020, 3, 1⟩
def SLEEP_EVENT_CALL : Field := ⟨0x200E0020, 2, 1⟩
def SLEEP_EVENT_WIDENED : Field := ⟨0x200E0020, 1, 1⟩
def SLEEP_EVENT_MISPREDICT : Field := ⟨0x200E0020, 0, 1⟩
/-- SLEEP_EVENT_EN (11_sleepy_nodes.md). -/
def SLEEP_EVENT_EN : Nat := 0x200E0024
def SLEEP_EVENT_EN_CLR : Field := ⟨0x200E0024, 31, 1⟩
def SLEEP_EVENT_EN_EN : Field := ⟨0x200E0024, 0, 7⟩
/-- SLEEP_CMD_ERR (11_sleepy_nodes.md). -/
def SLEEP_CMD_ERR : Nat := 0x200E0028
def SLEEP_CMD_ERR_STATUS : Field := ⟨0x200E0028, 0, 16⟩
/-- SLEEP_COUNT0 (11_sleepy_nodes.md). -/
def SLEEP_COUNT0 : Nat := 0x200E0030
def SLEEP_COUNT0_HI : Field := ⟨0x200E0030, 16, 16⟩
def SLEEP_COUNT0_LO : Field := ⟨0x200E0030, 0, 16⟩
/-- SLEEP_COUNT1 (11_sleepy_nodes.md). -/
def SLEEP_COUNT1 : Nat := 0x200E0034
def SLEEP_COUNT1_HI : Field := ⟨0x200E0034, 16, 16⟩
def SLEEP_COUNT1_LO : Field := ⟨0x200E0034, 0, 16⟩
/-- SLEEP_COUNT2 (11_sleepy_nodes.md). -/
def SLEEP_COUNT2 : Nat := 0x200E0038
def SLEEP_COUNT2_HI : Field := ⟨0x200E0038, 16, 16⟩
def SLEEP_COUNT2_LO : Field := ⟨0x200E0038, 0, 16⟩
/-- SLEEP_LAST (11_sleepy_nodes.md). -/
def SLEEP_LAST : Nat := 0x200E0040
def SLEEP_LAST_EVENT : Field := ⟨0x200E0040, 28, 4⟩
def SLEEP_LAST_NODE : Field := ⟨0x200E0040, 0, 18⟩
/-- SLEEP_LINK_A (11_sleepy_nodes.md). -/
def SLEEP_LINK_A : Nat := 0x200E0050
def SLEEP_LINK_A_NODE_A : Field := ⟨0x200E0050, 0, 18⟩
/-- SLEEP_LINK_B (11_sleepy_nodes.md). -/
def SLEEP_LINK_B : Nat := 0x200E0054
def SLEEP_LINK_B_OP : Field := ⟨0x200E0054, 30, 2⟩
def SLEEP_LINK_B_NODE_B : Field := ⟨0x200E0054, 0, 18⟩
/-- PILLOW_STATE (12_pillow.md). -/
def PILLOW_STATE : Nat := 0x20100000
def PILLOW_STATE_BUSY : Field := ⟨0x20100000, 16, 16⟩
def PILLOW_STATE_MEMBER : Field := ⟨0x20100000, 0, 16⟩
/-- PILLOW_CTRL (12_pillow.md). -/
def PILLOW_CTRL : Nat := 0x20100004
def PILLOW_CTRL_CLR : Field := ⟨0x20100004, 0, 1⟩
/-- PILLOW_USE (12_pillow.md). -/
def PILLOW_USE : Nat := 0x20100008
def PILLOW_USE_TASKS : Field := ⟨0x20100008, 16, 16⟩
def PILLOW_USE_PINS : Field := ⟨0x20100008, 0, 16⟩
/-- PILLOW_USE2 (12_pillow.md). -/
def PILLOW_USE2 : Nat := 0x2010000C
def PILLOW_USE2_ATOMIC : Field := ⟨0x2010000C, 16, 13⟩
def PILLOW_USE2_RECORDS : Field := ⟨0x2010000C, 0, 13⟩
/-- PILLOW_USE3 (12_pillow.md). -/
def PILLOW_USE3 : Nat := 0x20100010
def PILLOW_USE3_STAGED : Field := ⟨0x20100010, 16, 15⟩
def PILLOW_USE3_PARKED : Field := ⟨0x20100010, 0, 16⟩
/-- PILLOW_HW_TASK (12_pillow.md). -/
def PILLOW_HW_TASK : Nat := 0x20100020
def PILLOW_HW_TASK_EN : Field := ⟨0x20100020, 31, 1⟩
def PILLOW_HW_TASK_PRIO : Field := ⟨0x20100020, 28, 3⟩
def PILLOW_HW_TASK_KIND : Field := ⟨0x20100020, 23, 5⟩
def PILLOW_HW_TASK_ENTRY : Field := ⟨0x20100020, 0, 18⟩
/-- PILLOW_QT_TASK (12_pillow.md). -/
def PILLOW_QT_TASK : Nat := 0x201000C4
def PILLOW_QT_TASK_EN : Field := ⟨0x201000C4, 31, 1⟩
def PILLOW_QT_TASK_PRIO : Field := ⟨0x201000C4, 28, 3⟩
def PILLOW_QT_TASK_KIND : Field := ⟨0x201000C4, 23, 5⟩
def PILLOW_QT_TASK_ENTRY : Field := ⟨0x201000C4, 0, 18⟩
/-- PILLOW_HW_ORD (12_pillow.md). -/
def PILLOW_HW_ORD : Nat := 0x20100024
def PILLOW_HW_ORD_ORD : Field := ⟨0x20100024, 0, 16⟩
/-- PILLOW_QT_ORD (12_pillow.md). -/
def PILLOW_QT_ORD : Nat := 0x201000C8
def PILLOW_QT_ORD_ORD : Field := ⟨0x201000C8, 0, 16⟩
/-- PILLOW_HOOP (12_pillow.md). -/
def PILLOW_HOOP (n : Nat) : Nat := (0x20100030 + 0x4 * (n % 4))
def PILLOW_HOOP_KIND (n : Nat) : Field := ⟨(0x20100030 + 0x4 * (n % 4)), 28, 4⟩
def PILLOW_HOOP_KILL (n : Nat) : Field := ⟨(0x20100030 + 0x4 * (n % 4)), 24, 1⟩
def PILLOW_HOOP_LIMIT (n : Nat) : Field := ⟨(0x20100030 + 0x4 * (n % 4)), 0, 24⟩
/-- PILLOW_EVENT (12_pillow.md). -/
def PILLOW_EVENT : Nat := 0x20100040
def PILLOW_EVENT_ORDER_FULL : Field := ⟨0x20100040, 7, 1⟩
def PILLOW_EVENT_TIMER_FULL : Field := ⟨0x20100040, 6, 1⟩
def PILLOW_EVENT_ATOMIC_FULL : Field := ⟨0x20100040, 5, 1⟩
def PILLOW_EVENT_PINS_FULL : Field := ⟨0x20100040, 4, 1⟩
def PILLOW_EVENT_TASKS_FULL : Field := ⟨0x20100040, 3, 1⟩
def PILLOW_EVENT_WITHDRAWN : Field := ⟨0x20100040, 2, 1⟩
def PILLOW_EVENT_OVERRUN : Field := ⟨0x20100040, 1, 1⟩
def PILLOW_EVENT_FAULT : Field := ⟨0x20100040, 0, 1⟩
/-- PILLOW_EVENT_EN (12_pillow.md). -/
def PILLOW_EVENT_EN : Nat := 0x20100044
def PILLOW_EVENT_EN_EN : Field := ⟨0x20100044, 0, 8⟩
/-- PILLOW_CMD_ERR (12_pillow.md). -/
def PILLOW_CMD_ERR : Nat := 0x20100048
def PILLOW_CMD_ERR_STATUS : Field := ⟨0x20100048, 0, 16⟩
/-- PILLOW_FAULT (12_pillow.md). -/
def PILLOW_FAULT : Nat := 0x20100050
def PILLOW_FAULT_BOBBIN : Field := ⟨0x20100050, 28, 4⟩
def PILLOW_FAULT_CAUSE : Field := ⟨0x20100050, 24, 4⟩
def PILLOW_FAULT_INIT : Field := ⟨0x20100050, 23, 1⟩
def PILLOW_FAULT_TASK : Field := ⟨0x20100050, 0, 23⟩
/-- PILLOW_FAULT_PC (12_pillow.md). -/
def PILLOW_FAULT_PC : Nat := 0x20100054
def PILLOW_FAULT_PC_PC : Field := ⟨0x20100054, 0, 32⟩
/-- PILLOW_COUNT (12_pillow.md). -/
def PILLOW_COUNT (n : Nat) : Nat := (0x20100060 + 0x4 * (n % 4))
def PILLOW_COUNT_HI (n : Nat) : Field := ⟨(0x20100060 + 0x4 * (n % 4)), 16, 16⟩
def PILLOW_COUNT_LO (n : Nat) : Field := ⟨(0x20100060 + 0x4 * (n % 4)), 0, 16⟩
/-- PILLOW_BOBBIN_SEL (12_pillow.md). -/
def PILLOW_BOBBIN_SEL : Nat := 0x20100080
def PILLOW_BOBBIN_SEL_BOBBIN : Field := ⟨0x20100080, 0, 4⟩
/-- PILLOW_BOBBIN (12_pillow.md). -/
def PILLOW_BOBBIN : Nat := 0x20100084
def PILLOW_BOBBIN_HOOP : Field := ⟨0x20100084, 30, 2⟩
def PILLOW_BOBBIN_INIT : Field := ⟨0x20100084, 29, 1⟩
def PILLOW_BOBBIN_PREFETCHED : Field := ⟨0x20100084, 28, 1⟩
def PILLOW_BOBBIN_RUNNING : Field := ⟨0x20100084, 27, 1⟩
def PILLOW_BOBBIN_PRIO : Field := ⟨0x20100084, 24, 3⟩
def PILLOW_BOBBIN_TASK : Field := ⟨0x20100084, 0, 23⟩
/-- PILLOW_BOBBIN_TASKS (12_pillow.md). -/
def PILLOW_BOBBIN_TASKS : Nat := 0x20100088
def PILLOW_BOBBIN_TASKS_ENDED : Field := ⟨0x20100088, 0, 32⟩
/-- PILLOW_READY_SEL (12_pillow.md). -/
def PILLOW_READY_SEL : Nat := 0x20100090
def PILLOW_READY_SEL_HOOP : Field := ⟨0x20100090, 4, 2⟩
def PILLOW_READY_SEL_PRIO : Field := ⟨0x20100090, 0, 3⟩
/-- PILLOW_READY (12_pillow.md). -/
def PILLOW_READY : Nat := 0x20100094
def PILLOW_READY_BLOCKED : Field := ⟨0x20100094, 16, 16⟩
def PILLOW_READY_COUNT : Field := ⟨0x20100094, 0, 16⟩
/-- PILLOW_ORD_SEL (12_pillow.md). -/
def PILLOW_ORD_SEL : Nat := 0x201000A0
def PILLOW_ORD_SEL_FLOW : Field := ⟨0x201000A0, 0, 8⟩
/-- PILLOW_ORD (12_pillow.md). -/
def PILLOW_ORD : Nat := 0x201000A4
def PILLOW_ORD_OUTSTANDING : Field := ⟨0x201000A4, 16, 11⟩
def PILLOW_ORD_NEXT : Field := ⟨0x201000A4, 0, 16⟩
/-- PILLOW_TIMER0 (12_pillow.md). -/
def PILLOW_TIMER0 : Nat := 0x201000B0
def PILLOW_TIMER0_T0 : Field := ⟨0x201000B0, 16, 11⟩
def PILLOW_TIMER0_T1 : Field := ⟨0x201000B0, 0, 15⟩
/-- PILLOW_TIMER1 (12_pillow.md). -/
def PILLOW_TIMER1 : Nat := 0x201000B4
def PILLOW_TIMER1_T2 : Field := ⟨0x201000B4, 0, 17⟩
/-- PILLOW_TIMER2 (12_pillow.md). -/
def PILLOW_TIMER2 : Nat := 0x201000B8
def PILLOW_TIMER2_T3 : Field := ⟨0x201000B8, 0, 19⟩
/-- PILLOW_QT_SEL (12_pillow.md). -/
def PILLOW_QT_SEL : Nat := 0x201000C0
def PILLOW_QT_SEL_QUEUE : Field := ⟨0x201000C0, 0, 8⟩
/-- PILLOW_CUST_WIN (12_pillow.md). -/
def PILLOW_CUST_WIN : Nat := 0x201000D0
def PILLOW_CUST_WIN_BASE : Field := ⟨0x201000D0, 0, 32⟩
/-- PILLOW_CUST_SIZE (12_pillow.md). -/
def PILLOW_CUST_SIZE : Nat := 0x201000D4
def PILLOW_CUST_SIZE_SIZE : Field := ⟨0x201000D4, 0, 6⟩
/-- PILLOW_CUST_KINDS (12_pillow.md). -/
def PILLOW_CUST_KINDS : Nat := 0x201000D8
def PILLOW_CUST_KINDS_KINDS : Field := ⟨0x201000D8, 0, 32⟩
/-- QUEUE_SEL (13_queues.md). -/
def QUEUE_SEL : Nat := 0x20110000
def QUEUE_SEL_QUEUE : Field := ⟨0x20110000, 0, 8⟩
/-- QUEUE_CFG (13_queues.md). -/
def QUEUE_CFG : Nat := 0x20110004
def QUEUE_CFG_CONSUMER : Field := ⟨0x20110004, 24, 8⟩
def QUEUE_CFG_LOG2_DEPTH : Field := ⟨0x20110004, 19, 5⟩
def QUEUE_CFG_MEM : Field := ⟨0x20110004, 18, 1⟩
def QUEUE_CFG_ASYNC : Field := ⟨0x20110004, 17, 1⟩
def QUEUE_CFG_PRESENT : Field := ⟨0x20110004, 16, 1⟩
def QUEUE_CFG_PFC : Field := ⟨0x20110004, 8, 4⟩
def QUEUE_CFG_FCP : Field := ⟨0x20110004, 0, 3⟩
/-- QUEUE_WM (13_queues.md). -/
def QUEUE_WM : Nat := 0x20110008
def QUEUE_WM_HIGH : Field := ⟨0x20110008, 16, 16⟩
def QUEUE_WM_LOW : Field := ⟨0x20110008, 0, 16⟩
/-- QUEUE_LEVEL (13_queues.md). -/
def QUEUE_LEVEL : Nat := 0x2011000C
def QUEUE_LEVEL_ABOVE : Field := ⟨0x2011000C, 31, 1⟩
def QUEUE_LEVEL_DROPPING : Field := ⟨0x2011000C, 30, 1⟩
def QUEUE_LEVEL_LEVEL : Field := ⟨0x2011000C, 0, 17⟩
/-- QUEUE_XCOUNT (13_queues.md). -/
def QUEUE_XCOUNT : Nat := 0x20110010
def QUEUE_XCOUNT_UP : Field := ⟨0x20110010, 16, 16⟩
def QUEUE_XCOUNT_DISCARD : Field := ⟨0x20110010, 0, 16⟩
/-- QUEUE_EVENT (13_queues.md). -/
def QUEUE_EVENT : Nat := 0x20110014
def QUEUE_EVENT_DISCARD : Field := ⟨0x20110014, 2, 1⟩
def QUEUE_EVENT_CROSS_DOWN : Field := ⟨0x20110014, 1, 1⟩
def QUEUE_EVENT_CROSS_UP : Field := ⟨0x20110014, 0, 1⟩
/-- QUEUE_CMD (13_queues.md). -/
def QUEUE_CMD : Nat := 0x20110020
def QUEUE_CMD_OP : Field := ⟨0x20110020, 28, 4⟩
def QUEUE_CMD_QUEUE : Field := ⟨0x20110020, 0, 8⟩
/-- QUEUE_CMD_ERR (13_queues.md). -/
def QUEUE_CMD_ERR : Nat := 0x20110024
def QUEUE_CMD_ERR_QUEUE : Field := ⟨0x20110024, 16, 8⟩
def QUEUE_CMD_ERR_STATUS : Field := ⟨0x20110024, 0, 16⟩
/-- QUEUE_FCP (13_queues.md). -/
def QUEUE_FCP : Nat := 0x20110028
def QUEUE_FCP_PFC_UPL1 : Field := ⟨0x20110028, 16, 8⟩
def QUEUE_FCP_PFC_UPL0 : Field := ⟨0x20110028, 8, 8⟩
def QUEUE_FCP_PIN : Field := ⟨0x20110028, 0, 4⟩
/-- QUEUE_BEVENT (13_queues.md). -/
def QUEUE_BEVENT : Nat := 0x20110030
def QUEUE_BEVENT_CUT : Field := ⟨0x20110030, 3, 1⟩
def QUEUE_BEVENT_DISCARD : Field := ⟨0x20110030, 2, 1⟩
def QUEUE_BEVENT_CROSS_DOWN : Field := ⟨0x20110030, 1, 1⟩
def QUEUE_BEVENT_CROSS_UP : Field := ⟨0x20110030, 0, 1⟩
/-- QUEUE_BEVENT_EN (13_queues.md). -/
def QUEUE_BEVENT_EN : Nat := 0x20110034
def QUEUE_BEVENT_EN_EN : Field := ⟨0x20110034, 0, 4⟩
/-- QUEUE_PEND (13_queues.md). -/
def QUEUE_PEND (n : Nat) : Nat := (0x20110040 + 0x4 * (n % 4))
def QUEUE_PEND_PEND (n : Nat) : Field := ⟨(0x20110040 + 0x4 * (n % 4)), 0, 32⟩
/-- MEM_STATE (14_memory.md). -/
def MEM_STATE : Nat := 0x20120000
def MEM_STATE_RX_SMALL_FREE : Field := ⟨0x20120000, 20, 12⟩
def MEM_STATE_RX_LARGE_FREE : Field := ⟨0x20120000, 11, 9⟩
def MEM_STATE_NAND_READY : Field := ⟨0x20120000, 3, 1⟩
def MEM_STATE_SCHED : Field := ⟨0x20120000, 2, 1⟩
def MEM_STATE_SELF_REFRESH : Field := ⟨0x20120000, 1, 1⟩
def MEM_STATE_DRAM_OK : Field := ⟨0x20120000, 0, 1⟩
/-- MEM_SLOT (14_memory.md). -/
def MEM_SLOT : Nat := 0x20120004
def MEM_SLOT_CLASS : Field := ⟨0x20120004, 8, 4⟩
def MEM_SLOT_SLOT : Field := ⟨0x20120004, 0, 8⟩
/-- MEM_CLASS (14_memory.md). -/
def MEM_CLASS : Nat := 0x20120008
def MEM_CLASS_MAX_WAIT : Field := ⟨0x20120008, 20, 12⟩
def MEM_CLASS_OWNED : Field := ⟨0x20120008, 11, 9⟩
def MEM_CLASS_BURST : Field := ⟨0x20120008, 8, 3⟩
def MEM_CLASS_SEL : Field := ⟨0x20120008, 0, 4⟩
/-- MEM_POOL (14_memory.md). -/
def MEM_POOL : Nat := 0x2012000C
def MEM_POOL_PKT_FREE : Field := ⟨0x2012000C, 15, 17⟩
def MEM_POOL_DROPS : Field := ⟨0x2012000C, 0, 15⟩
/-- MEM_BUF (14_memory.md). -/
def MEM_BUF : Nat := 0x20120010
def MEM_BUF_ADDR : Field := ⟨0x20120010, 0, 32⟩
/-- MEM_ECC_STAT (14_memory.md). -/
def MEM_ECC_STAT : Nat := 0x20120014
def MEM_ECC_STAT_CORRECTED : Field := ⟨0x20120014, 16, 16⟩
def MEM_ECC_STAT_UNCORRECTED : Field := ⟨0x20120014, 0, 16⟩
/-- MEM_ECC_ADDR (14_memory.md). -/
def MEM_ECC_ADDR : Nat := 0x20120018
def MEM_ECC_ADDR_ADDR : Field := ⟨0x20120018, 0, 32⟩
/-- MEM_NAND_ADDR (14_memory.md). -/
def MEM_NAND_ADDR : Nat := 0x20120020
def MEM_NAND_ADDR_PAGE : Field := ⟨0x20120020, 12, 15⟩
/-- MEM_NAND_BUF (14_memory.md). -/
def MEM_NAND_BUF : Nat := 0x20120024
def MEM_NAND_BUF_ADDR : Field := ⟨0x20120024, 0, 32⟩
/-- MEM_NAND_CMD (14_memory.md). -/
def MEM_NAND_CMD : Nat := 0x20120028
def MEM_NAND_CMD_OP : Field := ⟨0x20120028, 28, 4⟩
def MEM_NAND_CMD_COUNT : Field := ⟨0x20120028, 0, 7⟩
/-- MEM_NAND_STAT (14_memory.md). -/
def MEM_NAND_STAT : Nat := 0x2012002C
def MEM_NAND_STAT_BUSY : Field := ⟨0x2012002C, 31, 1⟩
def MEM_NAND_STAT_STATUS : Field := ⟨0x2012002C, 0, 16⟩
/-- MEM_EVENT (14_memory.md). -/
def MEM_EVENT : Nat := 0x20120030
def MEM_EVENT_NAND_DONE : Field := ⟨0x20120030, 4, 1⟩
def MEM_EVENT_NAND_FAIL : Field := ⟨0x20120030, 3, 1⟩
def MEM_EVENT_POOL_EMPTY : Field := ⟨0x20120030, 2, 1⟩
def MEM_EVENT_ECC_UNCORR : Field := ⟨0x20120030, 1, 1⟩
def MEM_EVENT_ECC_CORR : Field := ⟨0x20120030, 0, 1⟩
/-- MEM_EVENT_EN (14_memory.md). -/
def MEM_EVENT_EN : Nat := 0x20120034
def MEM_EVENT_EN_CLR : Field := ⟨0x20120034, 31, 1⟩
def MEM_EVENT_EN_EN : Field := ⟨0x20120034, 0, 5⟩
/-- MEM_CMD_ERR (14_memory.md). -/
def MEM_CMD_ERR : Nat := 0x20120038
def MEM_CMD_ERR_STATUS : Field := ⟨0x20120038, 0, 16⟩
/-- GROUND_STATE (15_ground_tables.md). -/
def GROUND_STATE : Nat := 0x20130000
def GROUND_STATE_HASH_READY : Field := ⟨0x20130000, 18, 1⟩
def GROUND_STATE_ALT_READY : Field := ⟨0x20130000, 17, 1⟩
def GROUND_STATE_REHASH : Field := ⟨0x20130000, 16, 1⟩
def GROUND_STATE_STASH : Field := ⟨0x20130000, 0, 7⟩
/-- GROUND_CMD (15_ground_tables.md). -/
def GROUND_CMD : Nat := 0x20130004
def GROUND_CMD_ADDR : Field := ⟨0x20130004, 0, 32⟩
/-- GROUND_CMD_STAT (15_ground_tables.md). -/
def GROUND_CMD_STAT : Nat := 0x20130008
def GROUND_CMD_STAT_BUSY : Field := ⟨0x20130008, 5, 1⟩
def GROUND_CMD_STAT_PENDING : Field := ⟨0x20130008, 0, 5⟩
/-- GROUND_HASH_BASE (15_ground_tables.md). -/
def GROUND_HASH_BASE : Nat := 0x2013000C
def GROUND_HASH_BASE_BASE : Field := ⟨0x2013000C, 0, 32⟩
/-- GROUND_HASH_USE (15_ground_tables.md). -/
def GROUND_HASH_USE : Nat := 0x20130010
def GROUND_HASH_USE_ENTRIES : Field := ⟨0x20130010, 0, 20⟩
/-- GROUND_ALT_BASE (15_ground_tables.md). -/
def GROUND_ALT_BASE : Nat := 0x20130014
def GROUND_ALT_BASE_BASE : Field := ⟨0x20130014, 0, 32⟩
/-- GROUND_ALT_SEED (15_ground_tables.md). -/
def GROUND_ALT_SEED : Nat := 0x20130018
def GROUND_ALT_SEED_PART : Field := ⟨0x20130018, 28, 4⟩
def GROUND_ALT_SEED_VALUE : Field := ⟨0x20130018, 0, 16⟩
/-- GROUND_LPT_CFG (15_ground_tables.md). -/
def GROUND_LPT_CFG : Nat := 0x2013001C
def GROUND_LPT_CFG_HYST : Field := ⟨0x2013001C, 24, 4⟩
def GROUND_LPT_CFG_ALPHA : Field := ⟨0x2013001C, 20, 3⟩
def GROUND_LPT_CFG_AGE_LIMIT_S : Field := ⟨0x2013001C, 0, 16⟩
/-- GROUND_LPT_USE (15_ground_tables.md). -/
def GROUND_LPT_USE : Nat := 0x20130020
def GROUND_LPT_USE_EVICTS : Field := ⟨0x20130020, 16, 16⟩
def GROUND_LPT_USE_ENTRIES : Field := ⟨0x20130020, 0, 14⟩
/-- GROUND_PAN_MAP (15_ground_tables.md). -/
def GROUND_PAN_MAP : Nat := 0x20130024
def GROUND_PAN_MAP_PAN : Field := ⟨0x20130024, 28, 4⟩
def GROUND_PAN_MAP_BASE : Field := ⟨0x20130024, 0, 18⟩
/-- GROUND_SWEEP (15_ground_tables.md). -/
def GROUND_SWEEP : Nat := 0x20130028
def GROUND_SWEEP_NEXT : Field := ⟨0x20130028, 0, 13⟩
/-- GROUND_EVENT (15_ground_tables.md). -/
def GROUND_EVENT : Nat := 0x2013002C
def GROUND_EVENT_CMD_FULL : Field := ⟨0x2013002C, 6, 1⟩
def GROUND_EVENT_LPT_EVICT : Field := ⟨0x2013002C, 5, 1⟩
def GROUND_EVENT_STALE_KEY : Field := ⟨0x2013002C, 4, 1⟩
def GROUND_EVENT_REHASH_FAIL : Field := ⟨0x2013002C, 3, 1⟩
def GROUND_EVENT_REHASH_DONE : Field := ⟨0x2013002C, 2, 1⟩
def GROUND_EVENT_REHASH_NEEDED : Field := ⟨0x2013002C, 1, 1⟩
def GROUND_EVENT_STASH_USED : Field := ⟨0x2013002C, 0, 1⟩
/-- GROUND_EVENT_EN (15_ground_tables.md). -/
def GROUND_EVENT_EN : Nat := 0x20130030
def GROUND_EVENT_EN_EN : Field := ⟨0x20130030, 0, 7⟩
/-- GROUND_CMD_ERR (15_ground_tables.md). -/
def GROUND_CMD_ERR : Nat := 0x20130034
def GROUND_CMD_ERR_STATUS : Field := ⟨0x20130034, 0, 16⟩
/-- GROUND_COUNT0 (15_ground_tables.md). -/
def GROUND_COUNT0 : Nat := 0x20130038
def GROUND_COUNT0_HI : Field := ⟨0x20130038, 16, 16⟩
def GROUND_COUNT0_LO : Field := ⟨0x20130038, 0, 16⟩
/-- GROUND_COUNT1 (15_ground_tables.md). -/
def GROUND_COUNT1 : Nat := 0x2013003C
def GROUND_COUNT1_HI : Field := ⟨0x2013003C, 16, 16⟩
def GROUND_COUNT1_LO : Field := ⟨0x2013003C, 0, 16⟩
/-- KEY_STATE (18_keys_and_tamper.md). -/
def KEY_STATE : Nat := 0x20140000
def KEY_STATE_OWNER : Field := ⟨0x20140000, 30, 2⟩
def KEY_STATE_DRBG_OK : Field := ⟨0x20140000, 29, 1⟩
def KEY_STATE_STORE_OK : Field := ⟨0x20140000, 28, 1⟩
def KEY_STATE_SLOTS : Field := ⟨0x20140000, 0, 10⟩
/-- KEY_CMD (18_keys_and_tamper.md). -/
def KEY_CMD : Nat := 0x20140004
def KEY_CMD_ADDR : Field := ⟨0x20140004, 0, 32⟩
/-- KEY_CMD_STAT (18_keys_and_tamper.md). -/
def KEY_CMD_STAT : Nat := 0x20140008
def KEY_CMD_STAT_STORE_BUSY : Field := ⟨0x20140008, 6, 1⟩
def KEY_CMD_STAT_BUSY : Field := ⟨0x20140008, 5, 1⟩
def KEY_CMD_STAT_PENDING : Field := ⟨0x20140008, 0, 5⟩
/-- KEY_STORE (18_keys_and_tamper.md). -/
def KEY_STORE : Nat := 0x2014000C
def KEY_STORE_AREA : Field := ⟨0x2014000C, 31, 1⟩
def KEY_STORE_PENDING : Field := ⟨0x2014000C, 30, 1⟩
def KEY_STORE_GEN : Field := ⟨0x2014000C, 0, 30⟩
/-- KEY_SLOT_SEL (18_keys_and_tamper.md). -/
def KEY_SLOT_SEL : Nat := 0x20140010
def KEY_SLOT_SEL_SLOT : Field := ⟨0x20140010, 0, 9⟩
/-- KEY_SLOT_ATTR (18_keys_and_tamper.md). -/
def KEY_SLOT_ATTR : Nat := 0x20140014
def KEY_SLOT_ATTR_ATTR : Field := ⟨0x20140014, 0, 32⟩
/-- KEY_CTX (18_keys_and_tamper.md). -/
def KEY_CTX : Nat := 0x20140018
def KEY_CTX_IN_USE : Field := ⟨0x20140018, 16, 11⟩
def KEY_CTX_WAITS : Field := ⟨0x20140018, 0, 16⟩
/-- KEY_DRBG (18_keys_and_tamper.md). -/
def KEY_DRBG : Nat := 0x2014001C
def KEY_DRBG_HEALTH_OK : Field := ⟨0x2014001C, 31, 1⟩
def KEY_DRBG_REQS : Field := ⟨0x2014001C, 0, 21⟩
/-- KEY_EVENT (18_keys_and_tamper.md). -/
def KEY_EVENT : Nat := 0x20140020
def KEY_EVENT_TAMPER_ABORT : Field := ⟨0x20140020, 4, 1⟩
def KEY_EVENT_SIGN_FAIL : Field := ⟨0x20140020, 3, 1⟩
def KEY_EVENT_STORE_WRITE : Field := ⟨0x20140020, 2, 1⟩
def KEY_EVENT_STORE_LOST : Field := ⟨0x20140020, 1, 1⟩
def KEY_EVENT_ENTROPY_FAIL : Field := ⟨0x20140020, 0, 1⟩
/-- KEY_EVENT_EN (18_keys_and_tamper.md). -/
def KEY_EVENT_EN : Nat := 0x20140024
def KEY_EVENT_EN_EN : Field := ⟨0x20140024, 0, 5⟩
/-- KEY_CMD_ERR (18_keys_and_tamper.md). -/
def KEY_CMD_ERR : Nat := 0x20140028
def KEY_CMD_ERR_STATUS : Field := ⟨0x20140028, 0, 16⟩
/-- KEY_COUNT0 (18_keys_and_tamper.md). -/
def KEY_COUNT0 : Nat := 0x20140030
def KEY_COUNT0_UNWRAP_FAIL : Field := ⟨0x20140030, 16, 16⟩
def KEY_COUNT0_REFUSED : Field := ⟨0x20140030, 0, 16⟩
/-- TAMPER_STATE (18_keys_and_tamper.md). -/
def TAMPER_STATE : Nat := 0x20150000
def TAMPER_STATE_OWNER : Field := ⟨0x20150000, 30, 2⟩
def TAMPER_STATE_VBAT_LOST : Field := ⟨0x20150000, 29, 1⟩
def TAMPER_STATE_ACTIVE : Field := ⟨0x20150000, 0, 8⟩
/-- TAMPER_CFG (18_keys_and_tamper.md). -/
def TAMPER_CFG : Nat := 0x20150004
def TAMPER_CFG_POL : Field := ⟨0x20150004, 8, 4⟩
def TAMPER_CFG_EN : Field := ⟨0x20150004, 0, 8⟩
/-- TAMPER_FILTER (18_keys_and_tamper.md). -/
def TAMPER_FILTER : Nat := 0x20150008
def TAMPER_FILTER_MESH : Field := ⟨0x20150008, 4, 2⟩
def TAMPER_FILTER_IN : Field := ⟨0x20150008, 0, 2⟩
/-- TAMPER_COUNT (18_keys_and_tamper.md). -/
def TAMPER_COUNT : Nat := 0x2015000C
def TAMPER_COUNT_COUNT : Field := ⟨0x2015000C, 0, 16⟩
/-- TAMPER_LOG_SEL (18_keys_and_tamper.md). -/
def TAMPER_LOG_SEL : Nat := 0x20150010
def TAMPER_LOG_SEL_CLR : Field := ⟨0x20150010, 31, 1⟩
def TAMPER_LOG_SEL_ENTRY : Field := ⟨0x20150010, 0, 3⟩
/-- TAMPER_LOG (18_keys_and_tamper.md). -/
def TAMPER_LOG : Nat := 0x20150014
def TAMPER_LOG_VALID : Field := ⟨0x20150014, 31, 1⟩
def TAMPER_LOG_STAMPED : Field := ⟨0x20150014, 30, 1⟩
def TAMPER_LOG_WAS_PRESENT : Field := ⟨0x20150014, 29, 1⟩
def TAMPER_LOG_SOURCE : Field := ⟨0x20150014, 24, 4⟩
def TAMPER_LOG_STAMP : Field := ⟨0x20150014, 0, 24⟩
/-- TAMPER_EVENT (18_keys_and_tamper.md). -/
def TAMPER_EVENT : Nat := 0x20150018
def TAMPER_EVENT_ERASED : Field := ⟨0x20150018, 8, 1⟩
def TAMPER_EVENT_SOURCE : Field := ⟨0x20150018, 0, 8⟩
/-- TAMPER_EVENT_EN (18_keys_and_tamper.md). -/
def TAMPER_EVENT_EN : Nat := 0x2015001C
def TAMPER_EVENT_EN_EN : Field := ⟨0x2015001C, 0, 9⟩
/-- ROLE_CFG (19_roles_and_audit.md). -/
def ROLE_CFG : Nat := 0x20160000
def ROLE_CFG_IDLE_S : Field := ⟨0x20160000, 16, 16⟩
def ROLE_CFG_CKPT_PAGES : Field := ⟨0x20160000, 8, 6⟩
def ROLE_CFG_CKPT : Field := ⟨0x20160000, 0, 1⟩
/-- ROLE_STATE (19_roles_and_audit.md). -/
def ROLE_STATE : Nat := 0x20160004
def ROLE_STATE_SESSIONS : Field := ⟨0x20160004, 29, 3⟩
def ROLE_STATE_ENROLLED : Field := ⟨0x20160004, 24, 5⟩
def ROLE_STATE_PRICKING : Field := ⟨0x20160004, 20, 4⟩
def ROLE_STATE_STORE_OK : Field := ⟨0x20160004, 17, 1⟩
def ROLE_STATE_VISITS_LEFT : Field := ⟨0x20160004, 16, 1⟩
def ROLE_STATE_STATUS : Field := ⟨0x20160004, 0, 16⟩
/-- ROLE_SEL (19_roles_and_audit.md). -/
def ROLE_SEL : Nat := 0x20160008
def ROLE_SEL_CRED : Field := ⟨0x20160008, 8, 5⟩
def ROLE_SEL_SESS : Field := ⟨0x20160008, 0, 3⟩
/-- ROLE_CRED (19_roles_and_audit.md). -/
def ROLE_CRED : Nat := 0x2016000C
def ROLE_CRED_VALID : Field := ⟨0x2016000C, 31, 1⟩
def ROLE_CRED_ORIGIN : Field := ⟨0x2016000C, 30, 1⟩
def ROLE_CRED_ROLE : Field := ⟨0x2016000C, 28, 2⟩
def ROLE_CRED_DIGEST : Field := ⟨0x2016000C, 0, 24⟩
/-- ROLE_SESS (19_roles_and_audit.md). -/
def ROLE_SESS : Nat := 0x20160010
def ROLE_SESS_OPEN : Field := ⟨0x20160010, 31, 1⟩
def ROLE_SESS_ROLE : Field := ⟨0x20160010, 29, 2⟩
def ROLE_SESS_CRED : Field := ⟨0x20160010, 24, 5⟩
def ROLE_SESS_IDLE_LEFT : Field := ⟨0x20160010, 0, 16⟩
/-- ROLE_AUDIT (19_roles_and_audit.md). -/
def ROLE_AUDIT : Nat := 0x20160014
def ROLE_AUDIT_HEAD : Field := ⟨0x20160014, 0, 32⟩
/-- ROLE_EVENT (19_roles_and_audit.md). -/
def ROLE_EVENT : Nat := 0x20160018
def ROLE_EVENT_RELEASE : Field := ⟨0x20160018, 7, 1⟩
def ROLE_EVENT_STORE_LOST : Field := ⟨0x20160018, 6, 1⟩
def ROLE_EVENT_AUDIT_BUSY : Field := ⟨0x20160018, 5, 1⟩
def ROLE_EVENT_AUDIT_WRAP : Field := ⟨0x20160018, 4, 1⟩
def ROLE_EVENT_CKPT : Field := ⟨0x20160018, 3, 1⟩
def ROLE_EVENT_CRED_CHANGE : Field := ⟨0x20160018, 2, 1⟩
def ROLE_EVENT_SESSION_FAIL : Field := ⟨0x20160018, 1, 1⟩
def ROLE_EVENT_SESSION_OPEN : Field := ⟨0x20160018, 0, 1⟩
/-- ROLE_EVENT_EN (19_roles_and_audit.md). -/
def ROLE_EVENT_EN : Nat := 0x2016001C
def ROLE_EVENT_EN_EN : Field := ⟨0x2016001C, 0, 8⟩
/-- PAIR_STATE (20_pair.md). -/
def PAIR_STATE : Nat := 0x20170000
def PAIR_STATE_ROLE : Field := ⟨0x20170000, 29, 3⟩
def PAIR_STATE_PEER_ROLE : Field := ⟨0x20170000, 26, 3⟩
def PAIR_STATE_TIE_UP : Field := ⟨0x20170000, 25, 1⟩
def PAIR_STATE_WIT_UP : Field := ⟨0x20170000, 24, 1⟩
def PAIR_STATE_PEER_SILENT : Field := ⟨0x20170000, 23, 1⟩
def PAIR_STATE_SELF_GRANT : Field := ⟨0x20170000, 22, 1⟩
def PAIR_STATE_MODE : Field := ⟨0x20170000, 20, 2⟩
def PAIR_STATE_RESYNC : Field := ⟨0x20170000, 19, 1⟩
def PAIR_STATE_PEER_AUTH : Field := ⟨0x20170000, 18, 1⟩
def PAIR_STATE_PREF : Field := ⟨0x20170000, 17, 1⟩
/-- PAIR_CFG (20_pair.md). -/
def PAIR_CFG : Nat := 0x20170004
def PAIR_CFG_WIT_RESERVE_US : Field := ⟨0x20170004, 16, 16⟩
def PAIR_CFG_RESERVE_US : Field := ⟨0x20170004, 0, 16⟩
/-- PAIR_CTRL (20_pair.md). -/
def PAIR_CTRL : Nat := 0x20170008
def PAIR_CTRL_ALONE_MS : Field := ⟨0x20170008, 2, 16⟩
def PAIR_CTRL_RESYNC : Field := ⟨0x20170008, 1, 1⟩
def PAIR_CTRL_RESIGN : Field := ⟨0x20170008, 0, 1⟩
/-- PAIR_LEASE (20_pair.md). -/
def PAIR_LEASE : Nat := 0x2017000C
def PAIR_LEASE_LEFT_US : Field := ⟨0x2017000C, 16, 16⟩
def PAIR_LEASE_COUNT : Field := ⟨0x2017000C, 0, 16⟩
/-- PAIR_MIRROR (20_pair.md). -/
def PAIR_MIRROR : Nat := 0x20170010
def PAIR_MIRROR_JOURNAL_KB : Field := ⟨0x20170010, 16, 16⟩
def PAIR_MIRROR_BEHIND : Field := ⟨0x20170010, 0, 16⟩
/-- PAIR_RESYNC (20_pair.md). -/
def PAIR_RESYNC : Nat := 0x20170014
def PAIR_RESYNC_REGION : Field := ⟨0x20170014, 29, 3⟩
def PAIR_RESYNC_CHUNKS : Field := ⟨0x20170014, 0, 24⟩
/-- PAIR_FIX (20_pair.md). -/
def PAIR_FIX : Nat := 0x20170018
def PAIR_FIX_RUNNING : Field := ⟨0x20170018, 31, 1⟩
def PAIR_FIX_STALE : Field := ⟨0x20170018, 30, 1⟩
def PAIR_FIX_NEXT : Field := ⟨0x20170018, 0, 18⟩
/-- PAIR_PEER_EUI_LO (20_pair.md). -/
def PAIR_PEER_EUI_LO : Nat := 0x20170020
def PAIR_PEER_EUI_LO_EUI : Field := ⟨0x20170020, 0, 32⟩
/-- PAIR_PEER_EUI_HI (20_pair.md). -/
def PAIR_PEER_EUI_HI : Nat := 0x20170024
def PAIR_PEER_EUI_HI_EUI : Field := ⟨0x20170024, 0, 32⟩
/-- PAIR_SVC_IID_LO (20_pair.md). -/
def PAIR_SVC_IID_LO : Nat := 0x20170028
def PAIR_SVC_IID_LO_IID : Field := ⟨0x20170028, 0, 32⟩
/-- PAIR_SVC_IID_HI (20_pair.md). -/
def PAIR_SVC_IID_HI : Nat := 0x2017002C
def PAIR_SVC_IID_HI_IID : Field := ⟨0x2017002C, 0, 32⟩
/-- PAIR_COUNT0 (20_pair.md). -/
def PAIR_COUNT0 : Nat := 0x20170030
def PAIR_COUNT0_TAKEOVERS : Field := ⟨0x20170030, 16, 16⟩
def PAIR_COUNT0_RESIGNS : Field := ⟨0x20170030, 0, 16⟩
/-- PAIR_COUNT1 (20_pair.md). -/
def PAIR_COUNT1 : Nat := 0x20170034
def PAIR_COUNT1_SHADOW : Field := ⟨0x20170034, 16, 16⟩
def PAIR_COUNT1_WIT_AUTH_FAIL : Field := ⟨0x20170034, 0, 16⟩
/-- PAIR_EVENT (20_pair.md). -/
def PAIR_EVENT : Nat := 0x20170040
def PAIR_EVENT_COUNTER_LIMIT : Field := ⟨0x20170040, 11, 1⟩
def PAIR_EVENT_PEER_AUTH : Field := ⟨0x20170040, 10, 1⟩
def PAIR_EVENT_BOTH_ACTIVE : Field := ⟨0x20170040, 9, 1⟩
def PAIR_EVENT_DIGEST_MISMATCH : Field := ⟨0x20170040, 8, 1⟩
def PAIR_EVENT_PEER_SILENT : Field := ⟨0x20170040, 7, 1⟩
def PAIR_EVENT_LEASE_LOST : Field := ⟨0x20170040, 6, 1⟩
def PAIR_EVENT_RESYNC_DONE : Field := ⟨0x20170040, 5, 1⟩
def PAIR_EVENT_STALE : Field := ⟨0x20170040, 4, 1⟩
def PAIR_EVENT_TIE_DOWN : Field := ⟨0x20170040, 3, 1⟩
def PAIR_EVENT_STALE_TAKEOVER : Field := ⟨0x20170040, 2, 1⟩
def PAIR_EVENT_TAKEOVER : Field := ⟨0x20170040, 1, 1⟩
def PAIR_EVENT_ROLE_CHANGE : Field := ⟨0x20170040, 0, 1⟩
/-- PAIR_EVENT_EN (20_pair.md). -/
def PAIR_EVENT_EN : Nat := 0x20170044
def PAIR_EVENT_EN_EN : Field := ⟨0x20170044, 0, 12⟩
/-- PAIR_CMD_ERR (20_pair.md). -/
def PAIR_CMD_ERR : Nat := 0x20170048
def PAIR_CMD_ERR_STATUS : Field := ⟨0x20170048, 0, 16⟩
/-- UPDATE_STATE (21_update.md). -/
def UPDATE_STATE : Nat := 0x20180000
def UPDATE_STATE_HOLDER : Field := ⟨0x20180000, 9, 2⟩
def UPDATE_STATE_SET_AREA : Field := ⟨0x20180000, 8, 1⟩
def UPDATE_STATE_BOOTED : Field := ⟨0x20180000, 7, 1⟩
def UPDATE_STATE_PHASE : Field := ⟨0x20180000, 2, 3⟩
def UPDATE_STATE_TRIAL : Field := ⟨0x20180000, 1, 1⟩
def UPDATE_STATE_PRIMARY : Field := ⟨0x20180000, 0, 1⟩
/-- UPDATE_CFG (21_update.md). -/
def UPDATE_CFG : Nat := 0x20180004
def UPDATE_CFG_WINDOW_S : Field := ⟨0x20180004, 20, 12⟩
def UPDATE_CFG_TRIES : Field := ⟨0x20180004, 16, 2⟩
def UPDATE_CFG_IDLE_S : Field := ⟨0x20180004, 0, 12⟩
/-- UPDATE_CTRL (21_update.md). -/
def UPDATE_CTRL : Nat := 0x20180008
def UPDATE_CTRL_REJECT : Field := ⟨0x20180008, 1, 1⟩
def UPDATE_CTRL_CONFIRM : Field := ⟨0x20180008, 0, 1⟩
/-- UPDATE_SLOTS (21_update.md). -/
def UPDATE_SLOTS : Nat := 0x2018000C
def UPDATE_SLOTS_FW_WORDS : Field := ⟨0x2018000C, 25, 7⟩
def UPDATE_SLOTS_PR_WORDS : Field := ⟨0x2018000C, 18, 7⟩
def UPDATE_SLOTS_TRIES : Field := ⟨0x2018000C, 16, 2⟩
def UPDATE_SLOTS_STATE_B : Field := ⟨0x2018000C, 8, 3⟩
def UPDATE_SLOTS_STATE_A : Field := ⟨0x2018000C, 0, 3⟩
/-- UPDATE_TRIAL (21_update.md). -/
def UPDATE_TRIAL : Nat := 0x20180010
def UPDATE_TRIAL_LEFT_S : Field := ⟨0x20180010, 20, 12⟩
def UPDATE_TRIAL_LAST : Field := ⟨0x20180010, 0, 16⟩
/-- UPDATE_FW_RB (21_update.md). -/
def UPDATE_FW_RB : Nat := 0x20180014
def UPDATE_FW_RB_VALUE : Field := ⟨0x20180014, 0, 32⟩
/-- UPDATE_PR_RB (21_update.md). -/
def UPDATE_PR_RB : Nat := 0x20180018
def UPDATE_PR_RB_VALUE : Field := ⟨0x20180018, 0, 32⟩
/-- UPDATE_EVENT (21_update.md). -/
def UPDATE_EVENT : Nat := 0x20180020
def UPDATE_EVENT_BUSY_REFUSED : Field := ⟨0x20180020, 8, 1⟩
def UPDATE_EVENT_EXT_REJECT : Field := ⟨0x20180020, 7, 1⟩
def UPDATE_EVENT_UNDECIDED : Field := ⟨0x20180020, 6, 1⟩
def UPDATE_EVENT_ROLLBACK_SPENT : Field := ⟨0x20180020, 5, 1⟩
def UPDATE_EVENT_SESSION_ABORTED : Field := ⟨0x20180020, 4, 1⟩
def UPDATE_EVENT_FALLBACK : Field := ⟨0x20180020, 3, 1⟩
def UPDATE_EVENT_COMMITTED : Field := ⟨0x20180020, 2, 1⟩
def UPDATE_EVENT_ACTIVATED : Field := ⟨0x20180020, 1, 1⟩
def UPDATE_EVENT_STAGED : Field := ⟨0x20180020, 0, 1⟩
/-- UPDATE_EVENT_EN (21_update.md). -/
def UPDATE_EVENT_EN : Nat := 0x20180024
def UPDATE_EVENT_EN_EN : Field := ⟨0x20180024, 0, 9⟩
/-- UPDATE_CMD_ERR (21_update.md). -/
def UPDATE_CMD_ERR : Nat := 0x20180028
def UPDATE_CMD_ERR_STATUS : Field := ⟨0x20180028, 0, 16⟩
/-- SVC_GPIO (22_electrical.md). -/
def SVC_GPIO : Nat := 0x20190000
def SVC_GPIO_OE : Field := ⟨0x20190000, 8, 8⟩
def SVC_GPIO_OUT : Field := ⟨0x20190000, 0, 8⟩
/-- SVC_GPIO_IN (22_electrical.md). -/
def SVC_GPIO_IN : Nat := 0x20190004
def SVC_GPIO_IN_IN : Field := ⟨0x20190004, 0, 8⟩
/-- SVC_PIN_CFG (22_electrical.md). -/
def SVC_PIN_CFG : Nat := 0x20190008
def SVC_PIN_CFG_EDGE : Field := ⟨0x20190008, 24, 8⟩
def SVC_PIN_CFG_PULL : Field := ⟨0x20190008, 16, 8⟩
def SVC_PIN_CFG_DRV_COEX : Field := ⟨0x20190008, 4, 2⟩
def SVC_PIN_CFG_DRV_FCP : Field := ⟨0x20190008, 2, 2⟩
def SVC_PIN_CFG_DRV_GPIO : Field := ⟨0x20190008, 0, 2⟩
/-- SVC_FCP_CFG (22_electrical.md). -/
def SVC_FCP_CFG : Nat := 0x2019000C
def SVC_FCP_CFG_FORCE_VAL : Field := ⟨0x2019000C, 12, 4⟩
def SVC_FCP_CFG_FORCE : Field := ⟨0x2019000C, 8, 4⟩
def SVC_FCP_CFG_OD : Field := ⟨0x2019000C, 4, 4⟩
def SVC_FCP_CFG_POL : Field := ⟨0x2019000C, 0, 4⟩
/-- SVC_COEX_CFG (22_electrical.md). -/
def SVC_COEX_CFG : Nat := 0x20190010
def SVC_COEX_CFG_POL_W : Field := ⟨0x20190010, 4, 3⟩
def SVC_COEX_CFG_POL_S : Field := ⟨0x20190010, 0, 3⟩
/-- SVC_COEX_STAT (22_electrical.md). -/
def SVC_COEX_STAT : Nat := 0x20190014
def SVC_COEX_STAT_W : Field := ⟨0x20190014, 4, 3⟩
def SVC_COEX_STAT_S : Field := ⟨0x20190014, 0, 3⟩
/-- SVC_EVENT_CFG (22_electrical.md). -/
def SVC_EVENT_CFG : Nat := 0x20190018
def SVC_EVENT_CFG_ASSERT : Field := ⟨0x20190018, 0, 1⟩
/-- SVC_EVENT_SUM (22_electrical.md). -/
def SVC_EVENT_SUM : Nat := 0x2019001C
def SVC_EVENT_SUM_STATE : Field := ⟨0x2019001C, 31, 1⟩
def SVC_EVENT_SUM_BLOCK : Field := ⟨0x2019001C, 0, 27⟩
/-- SVC_PORT_STAT (22_electrical.md). -/
def SVC_PORT_STAT : Nat := 0x20190020
def SVC_PORT_STAT_OUT : Field := ⟨0x20190020, 3, 3⟩
def SVC_PORT_STAT_IN_FULL : Field := ⟨0x20190020, 2, 1⟩
def SVC_PORT_STAT_MODE : Field := ⟨0x20190020, 1, 1⟩
def SVC_PORT_STAT_ACTIVE : Field := ⟨0x20190020, 0, 1⟩
/-- SVC_EVENT (22_electrical.md). -/
def SVC_EVENT : Nat := 0x20190024
def SVC_EVENT_TUNNEL_DROP : Field := ⟨0x20190024, 8, 1⟩
def SVC_EVENT_GPIO_EDGE : Field := ⟨0x20190024, 0, 8⟩
/-- SVC_EVENT_EN (22_electrical.md). -/
def SVC_EVENT_EN : Nat := 0x20190028
def SVC_EVENT_EN_EN : Field := ⟨0x20190028, 0, 9⟩
/-- SVC_CMD_ERR (22_electrical.md). -/
def SVC_CMD_ERR : Nat := 0x2019002C
def SVC_CMD_ERR_STATUS : Field := ⟨0x2019002C, 0, 16⟩

end R

def clkRegs : List RegDesc :=
  [⟨0x20010000, 0x0, 1, 0, [⟨16, 4, .ro, 0⟩, ⟨8, 2, .ro, 0⟩, ⟨1, 1, .ro, 0⟩, ⟨0, 1, .ro, 0⟩]⟩,
   ⟨0x20010004, 0x0, 1, 1, [⟨4, 1, .rw, 0⟩, ⟨0, 2, .rw, 0⟩]⟩,
   ⟨0x20010010, 0x0, 1, 2, [⟨31, 1, .ro, 0⟩, ⟨30, 1, .ro, 0⟩, ⟨29, 1, .ro, 0⟩, ⟨28, 1, .ro, 0⟩, ⟨16, 8, .ro, 0⟩, ⟨0, 16, .ro, 0x00008000⟩]⟩,
   ⟨0x20010014, 0x0, 1, 2, [⟨31, 1, .ro, 0⟩, ⟨30, 1, .ro, 0⟩, ⟨29, 1, .ro, 0⟩, ⟨28, 1, .ro, 0⟩, ⟨16, 8, .ro, 0⟩, ⟨0, 16, .ro, 0x00008000⟩]⟩,
   ⟨0x20010018, 0x0, 1, 2, [⟨31, 1, .ro, 0⟩, ⟨30, 1, .ro, 0⟩, ⟨29, 1, .ro, 0⟩, ⟨28, 1, .ro, 0⟩, ⟨16, 8, .ro, 0⟩, ⟨0, 16, .ro, 0x00008000⟩]⟩,
   ⟨0x20010020, 0x0, 1, 3, [⟨16, 9, .rw, 500⟩, ⟨8, 4, .rw, 4⟩, ⟨0, 1, .rw, 0⟩]⟩,
   ⟨0x20010024, 0x0, 1, 4, [⟨0, 16, .ro, 0⟩]⟩,
   ⟨0x20010028, 0x0, 1, 5, [⟨8, 1, .w1c, 0⟩, ⟨7, 1, .w1c, 0⟩, ⟨6, 1, .w1c, 0⟩, ⟨5, 1, .w1c, 0⟩, ⟨4, 1, .w1c, 0⟩, ⟨3, 1, .w1c, 0⟩, ⟨2, 1, .w1c, 0⟩, ⟨1, 1, .w1c, 0⟩, ⟨0, 1, .w1c, 0⟩]⟩,
   ⟨0x2001002C, 0x0, 1, 6, [⟨0, 9, .rw, 508⟩]⟩,
   ⟨0x20010040, 0x0, 1, 7, [⟨28, 4, .ro, 0⟩, ⟨24, 4, .rw, 0⟩, ⟨20, 4, .ro, 0⟩, ⟨16, 4, .rw, 0⟩, ⟨12, 4, .ro, 0⟩, ⟨8, 4, .rw, 0⟩, ⟨4, 4, .ro, 0⟩, ⟨0, 4, .rw, 0⟩]⟩,
   ⟨0x20010044, 0x0, 1, 8, [⟨0, 24, .rw, 0x00010000⟩]⟩,
   ⟨0x20010050, 0x0, 1, 9, [⟨9, 4, .rw, 0⟩, ⟨8, 1, .rw, 0⟩, ⟨7, 1, .rw, 0⟩, ⟨6, 1, .rw, 0⟩, ⟨5, 1, .rw, 0⟩, ⟨4, 1, .rw, 0⟩, ⟨0, 4, .rw, 0⟩]⟩,
   ⟨0x20010054, 0x0, 1, 10, [⟨16, 13, .ro, 0⟩, ⟨0, 13, .ro, 0⟩]⟩,
   ⟨0x20010058, 0x0, 1, 11, [⟨16, 5, .ro, 0⟩, ⟨0, 16, .ro, 0⟩]⟩,
   ⟨0x20010060, 0x0, 1, 12, [⟨31, 1, .wo, 0⟩, ⟨16, 4, .wo, 0⟩, ⟨0, 5, .wo, 0⟩]⟩]

def startRegs : List RegDesc :=
  [⟨0x20020000, 0x0, 1, 0, [⟨28, 4, .ro, 0⟩, ⟨24, 4, .ro, 0⟩, ⟨16, 3, .ro, 0⟩, ⟨8, 4, .ro, 0⟩, ⟨7, 1, .ro, 0⟩, ⟨2, 2, .ro, 0⟩, ⟨1, 1, .ro, 0⟩, ⟨0, 1, .ro, 0⟩]⟩,
   ⟨0x20020004, 0x0, 1, 1, [⟨8, 2, .rw, 0⟩, ⟨4, 2, .rw, 0⟩, ⟨0, 1, .rw, 0⟩]⟩,
   ⟨0x20020008, 0x0, 1, 2, [⟨1, 1, .w1s, 0⟩, ⟨0, 1, .w1s, 0⟩]⟩,
   ⟨0x2002000C, 0x0, 1, 3, [⟨16, 8, .ro, 0⟩, ⟨8, 8, .ro, 0⟩, ⟨0, 1, .ro, 0⟩]⟩,
   ⟨0x20020010, 0x0, 1, 4, [⟨20, 4, .ro, 0⟩, ⟨16, 4, .ro, 0⟩, ⟨0, 16, .ro, 0⟩]⟩,
   ⟨0x20020014, 0x0, 1, 5, [⟨20, 12, .ro, 0⟩, ⟨0, 20, .ro, 0⟩]⟩,
   ⟨0x20020018, 0x0, 1, 6, [⟨0, 16, .rw, 0x00002710⟩]⟩,
   ⟨0x20020020, 0x0, 1, 7, [⟨0, 32, .ro, 0⟩]⟩,
   ⟨0x20020024, 0x0, 1, 7, [⟨0, 32, .ro, 0⟩]⟩,
   ⟨0x20020028, 0x0, 1, 7, [⟨0, 32, .ro, 0⟩]⟩,
   ⟨0x2002002C, 0x0, 1, 7, [⟨0, 32, .ro, 0⟩]⟩,
   ⟨0x20020030, 0x0, 1, 7, [⟨0, 32, .ro, 0⟩]⟩,
   ⟨0x20020040, 0x0, 1, 8, [⟨0, 9, .ro, 0⟩]⟩,
   ⟨0x20020044, 0x0, 1, 9, [⟨16, 4, .ro, 0⟩, ⟨0, 16, .ro, 0⟩]⟩]

def sysRegs : List RegDesc :=
  [⟨0x20000000, 0x0, 1, 0, [⟨16, 16, .ro, 0x00004820⟩, ⟨8, 8, .ro, 176⟩, ⟨0, 8, .ro, 0⟩]⟩,
   ⟨0x20000004, 0x0, 1, 1, [⟨0, 1, .w1s, 0⟩]⟩,
   ⟨0x20000008, 0x0, 1, 2, [⟨3, 1, .w1c, 0⟩, ⟨2, 1, .w1c, 0⟩, ⟨1, 1, .w1c, 0⟩, ⟨0, 1, .w1c, 0⟩]⟩,
   ⟨0x2000000C, 0x0, 1, 3, [⟨0, 4, .rw, 12⟩]⟩,
   ⟨0x20000010, 0x0, 1, 4, [⟨0, 16, .ro, 0⟩]⟩]

def uplRegs : List RegDesc :=
  [⟨0x20030000, 0x10000, 2, 0, [⟨8, 4, .rw, 0⟩, ⟨2, 2, .rw, 2⟩, ⟨0, 2, .rw, 3⟩]⟩,
   ⟨0x20030004, 0x10000, 2, 1, [⟨2, 1, .w1s, 0⟩, ⟨0, 2, .rw, 0⟩]⟩,
   ⟨0x20030008, 0x10000, 2, 2, [⟨16, 16, .ro, 0⟩, ⟨7, 1, .ro, 0⟩, ⟨6, 1, .ro, 0⟩, ⟨5, 1, .ro, 0⟩, ⟨4, 1, .ro, 0⟩, ⟨3, 1, .ro, 0⟩, ⟨0, 3, .ro, 0⟩]⟩,
   ⟨0x2003000C, 0x10000, 2, 3, [⟨0, 16, .ro, 0⟩]⟩,
   ⟨0x20030010, 0x10000, 2, 4, [⟨16, 16, .rw, 0x0000FFFF⟩, ⟨0, 2, .rw, 0⟩]⟩,
   ⟨0x20030014, 0x10000, 2, 5, [⟨28, 3, .rw, 7⟩, ⟨24, 3, .rw, 6⟩, ⟨20, 3, .rw, 5⟩, ⟨16, 3, .rw, 4⟩, ⟨12, 3, .rw, 3⟩, ⟨8, 3, .rw, 2⟩, ⟨4, 3, .rw, 1⟩, ⟨0, 3, .rw, 0⟩]⟩,
   ⟨0x20030018, 0x10000, 2, 6, [⟨3, 1, .w1c, 0⟩, ⟨2, 1, .w1c, 0⟩, ⟨1, 1, .w1c, 0⟩, ⟨0, 1, .w1c, 0⟩]⟩,
   ⟨0x2003001C, 0x10000, 2, 7, [⟨0, 4, .rw, 6⟩]⟩,
   ⟨0x20030020, 0x10000, 2, 8, [⟨0, 16, .ro, 0⟩]⟩]

def tieRegs : List RegDesc :=
  [⟨0x20050000, 0x0, 1, 0, [⟨1, 1, .w1s, 0⟩, ⟨0, 1, .rw, 1⟩]⟩,
   ⟨0x20050004, 0x0, 1, 1, [⟨16, 16, .ro, 0⟩, ⟨3, 1, .ro, 0⟩, ⟨0, 3, .ro, 0⟩]⟩,
   ⟨0x20050008, 0x0, 1, 2, [⟨0, 32, .ro, 0⟩]⟩,
   ⟨0x2005000C, 0x0, 1, 3, [⟨8, 3, .ro, 0⟩, ⟨7, 1, .ro, 0⟩, ⟨6, 1, .ro, 0⟩, ⟨0, 3, .ro, 0⟩]⟩,
   ⟨0x20050010, 0x0, 1, 4, [⟨2, 1, .w1c, 0⟩, ⟨1, 1, .w1c, 0⟩, ⟨0, 1, .w1c, 0⟩]⟩,
   ⟨0x20050014, 0x0, 1, 5, [⟨0, 3, .rw, 6⟩]⟩]

def timeRegs : List RegDesc :=
  [⟨0x20060000, 0x0, 1, 0, [⟨16, 16, .rw, 60⟩, ⟨8, 8, .rw, 10⟩, ⟨3, 1, .rw, 0⟩, ⟨2, 1, .rw, 1⟩, ⟨0, 1, .rw, 0⟩]⟩,
   ⟨0x20060004, 0x0, 1, 1, [⟨8, 1, .w1s, 0⟩, ⟨4, 1, .w1s, 0⟩, ⟨0, 2, .rw, 0⟩]⟩,
   ⟨0x20060008, 0x0, 1, 2, [⟨12, 2, .ro, 0⟩, ⟨9, 3, .ro, 0⟩, ⟨6, 3, .ro, 0⟩, ⟨2, 1, .ro, 0⟩, ⟨1, 1, .ro, 0⟩, ⟨0, 1, .ro, 0⟩]⟩,
   ⟨0x2006000C, 0x0, 1, 3, [⟨20, 12, .rw, 0x000003E8⟩, ⟨0, 20, .rw, 0⟩]⟩,
   ⟨0x20060010, 0x0, 1, 4, [⟨0, 32, .ro, 0⟩]⟩,
   ⟨0x20060020, 0x0, 1, 5, [⟨0, 32, .rw, 0⟩]⟩,
   ⟨0x20060030, 0x0, 1, 5, [⟨0, 32, .ro, 0⟩]⟩,
   ⟨0x20060034, 0x0, 1, 5, [⟨0, 32, .ro, 0⟩]⟩,
   ⟨0x20060038, 0x0, 1, 5, [⟨0, 32, .ro, 0⟩]⟩,
   ⟨0x20060048, 0x0, 1, 5, [⟨0, 32, .ro, 0⟩]⟩,
   ⟨0x20060024, 0x0, 1, 6, [⟨0, 16, .rw, 0⟩]⟩,
   ⟨0x2006004C, 0x0, 1, 6, [⟨0, 16, .ro, 0⟩]⟩,
   ⟨0x2006003C, 0x0, 1, 7, [⟨0, 8, .ro, 0⟩]⟩,
   ⟨0x20060040, 0x0, 1, 8, [⟨0, 26, .ro, 0⟩]⟩,
   ⟨0x20060044, 0x0, 1, 9, [⟨0, 30, .ro, 0⟩]⟩,
   ⟨0x20060100, 0x40, 2, 10, [⟨16, 16, .rw, 100⟩, ⟨0, 16, .rw, 200⟩]⟩,
   ⟨0x20060104, 0x40, 2, 11, [⟨24, 8, .ro, 0⟩, ⟨23, 1, .ro, 0⟩, ⟨22, 1, .ro, 0⟩, ⟨21, 1, .ro, 0⟩, ⟨20, 1, .ro, 0⟩, ⟨19, 1, .ro, 0⟩, ⟨16, 3, .ro, 0⟩, ⟨0, 8, .ro, 0⟩]⟩,
   ⟨0x20060108, 0x40, 2, 12, [⟨0, 32, .ro, 0x80000000⟩]⟩,
   ⟨0x2006010C, 0x40, 2, 12, [⟨0, 32, .ro, 0x80000000⟩]⟩,
   ⟨0x20060110, 0x40, 2, 13, [⟨0, 32, .rw, 0⟩]⟩,
   ⟨0x20060114, 0x40, 2, 14, [⟨0, 32, .ro, 0⟩]⟩,
   ⟨0x20060118, 0x40, 2, 14, [⟨0, 32, .ro, 0⟩]⟩,
   ⟨0x2006011C, 0x40, 2, 15, [⟨16, 16, .ro, 0⟩, ⟨0, 16, .ro, 0⟩]⟩,
   ⟨0x20060200, 0x0, 1, 16, [⟨31, 1, .ro, 1⟩, ⟨30, 1, .ro, 0⟩, ⟨16, 8, .ro, 0⟩, ⟨0, 4, .ro, 15⟩]⟩,
   ⟨0x20060204, 0x0, 1, 16, [⟨31, 1, .ro, 1⟩, ⟨30, 1, .ro, 0⟩, ⟨16, 8, .ro, 0⟩, ⟨0, 4, .ro, 15⟩]⟩,
   ⟨0x20060210, 0x0, 1, 17, [⟨16, 16, .rw, 0⟩, ⟨0, 16, .rw, 0⟩]⟩,
   ⟨0x20060214, 0x0, 1, 17, [⟨16, 16, .rw, 0⟩, ⟨0, 16, .rw, 0⟩]⟩,
   ⟨0x20060220, 0x0, 1, 18, [⟨0, 32, .ro, 0x80000000⟩]⟩,
   ⟨0x20060224, 0x0, 1, 19, [⟨0, 16, .rw, 0⟩]⟩,
   ⟨0x20060230, 0x0, 1, 20, [⟨8, 1, .w1c, 0⟩, ⟨7, 1, .w1c, 0⟩, ⟨6, 1, .w1c, 0⟩, ⟨5, 1, .w1c, 0⟩, ⟨4, 1, .w1c, 0⟩, ⟨3, 1, .w1c, 0⟩, ⟨2, 1, .w1c, 0⟩, ⟨1, 1, .w1c, 0⟩, ⟨0, 1, .w1c, 0⟩]⟩,
   ⟨0x20060234, 0x0, 1, 21, [⟨0, 9, .rw, 444⟩]⟩,
   ⟨0x20060238, 0x0, 1, 22, [⟨0, 16, .ro, 0⟩]⟩]

def trxRegs : List RegDesc :=
  [⟨0x20080000, 0x10000, 4, 0, [⟨16, 3, .ro, 0⟩, ⟨10, 1, .ro, 0⟩, ⟨9, 1, .ro, 0⟩, ⟨8, 1, .ro, 0⟩, ⟨3, 1, .ro, 0⟩, ⟨0, 3, .ro, 0⟩]⟩,
   ⟨0x20080004, 0x10000, 4, 1, [⟨4, 1, .wo, 0⟩, ⟨0, 2, .wo, 0⟩]⟩,
   ⟨0x20080008, 0x10000, 4, 2, [⟨0, 32, .ro, 0⟩]⟩,
   ⟨0x2008000C, 0x10000, 4, 3, [⟨24, 6, .ro, 0⟩, ⟨0, 24, .ro, 0⟩]⟩,
   ⟨0x20080010, 0x10000, 4, 4, [⟨20, 1, .ro, 0⟩, ⟨16, 4, .ro, 10⟩, ⟨4, 1, .ro, 0⟩, ⟨0, 4, .ro, 10⟩]⟩,
   ⟨0x20080014, 0x10000, 4, 5, [⟨16, 8, .rw, 0⟩, ⟨0, 8, .rw, 0⟩]⟩,
   ⟨0x20080018, 0x10000, 4, 6, [⟨16, 10, .rw, 330⟩, ⟨0, 12, .rw, 0x00000528⟩]⟩,
   ⟨0x2008001C, 0x10000, 4, 7, [⟨1, 1, .rw, 0⟩, ⟨0, 1, .rw, 0⟩]⟩,
   ⟨0x20080020, 0x10000, 4, 8, [⟨8, 1, .rw, 0⟩, ⟨0, 4, .rw, 6⟩]⟩,
   ⟨0x20080024, 0x10000, 4, 9, [⟨0, 10, .rw, 66⟩]⟩,
   ⟨0x20080028, 0x10000, 4, 10, [⟨24, 8, .rw, 20⟩, ⟨12, 12, .rw, 60⟩]⟩,
   ⟨0x2008002C, 0x10000, 4, 11, [⟨24, 8, .ro, 0⟩, ⟨16, 8, .ro, 0⟩, ⟨5, 11, .ro, 0⟩, ⟨1, 1, .ro, 0⟩, ⟨0, 1, .ro, 0⟩]⟩,
   ⟨0x20080040, 0x10000, 4, 12, [⟨7, 1, .w1c, 0⟩, ⟨6, 1, .w1c, 0⟩, ⟨5, 1, .w1c, 0⟩, ⟨4, 1, .w1c, 0⟩, ⟨3, 1, .w1c, 0⟩, ⟨2, 1, .w1c, 0⟩, ⟨1, 1, .w1c, 0⟩, ⟨0, 1, .w1c, 0⟩]⟩,
   ⟨0x20080044, 0x10000, 4, 13, [⟨0, 8, .rw, 234⟩]⟩,
   ⟨0x20080048, 0x10000, 4, 14, [⟨16, 16, .ro, 0⟩, ⟨0, 16, .ro, 0⟩]⟩,
   ⟨0x2008004C, 0x10000, 4, 15, [⟨0, 16, .ro, 0⟩]⟩,
   ⟨0x20080080, 0x10000, 4, 16, [⟨16, 5, .ro, 0⟩, ⟨8, 4, .ro, 0⟩, ⟨4, 1, .ro, 0⟩, ⟨3, 1, .ro, 0⟩, ⟨0, 3, .ro, 7⟩]⟩,
   ⟨0x20080084, 0x10000, 4, 17, [⟨16, 16, .ro, 0⟩, ⟨0, 16, .ro, 0⟩]⟩,
   ⟨0x20080088, 0x10000, 4, 18, [⟨16, 16, .ro, 0⟩, ⟨0, 16, .ro, 0⟩]⟩,
   ⟨0x2008008C, 0x10000, 4, 19, [⟨8, 1, .rw, 0⟩, ⟨0, 7, .rw, 16⟩]⟩,
   ⟨0x20080090, 0x10000, 4, 20, [⟨3, 1, .w1c, 0⟩, ⟨2, 1, .w1c, 0⟩, ⟨1, 1, .w1c, 0⟩, ⟨0, 1, .w1c, 0⟩]⟩,
   ⟨0x20080094, 0x10000, 4, 21, [⟨0, 4, .rw, 10⟩]⟩]

def laneRegs : List RegDesc :=
  [⟨0x200C0000, 0x20, 96, 0, [⟨16, 16, .ro, 0⟩, ⟨8, 4, .rw, 6⟩, ⟨4, 2, .rw, 0⟩, ⟨0, 1, .w1s, 0⟩]⟩,
   ⟨0x200C0004, 0x20, 96, 1, [⟨30, 2, .ro, 0⟩, ⟨0, 24, .rw, 0⟩]⟩,
   ⟨0x200C0008, 0x20, 96, 2, [⟨16, 16, .ro, 0⟩, ⟨15, 1, .ro, 0⟩, ⟨14, 1, .ro, 0⟩, ⟨13, 1, .ro, 0⟩, ⟨12, 1, .ro, 0⟩, ⟨0, 3, .ro, 5⟩]⟩,
   ⟨0x200C000C, 0x20, 96, 3, [⟨16, 16, .ro, 0x00008000⟩, ⟨0, 16, .ro, 0x00008000⟩]⟩,
   ⟨0x200C0010, 0x20, 96, 4, [⟨16, 16, .ro, 0⟩, ⟨0, 16, .ro, 0⟩]⟩,
   ⟨0x200C0014, 0x20, 96, 5, [⟨20, 12, .ro, 0⟩, ⟨10, 10, .ro, 0⟩, ⟨0, 10, .ro, 0⟩]⟩]

def macRegs : List RegDesc :=
  [⟨0x200D0000, 0x0, 1, 0, [⟨16, 1, .w1s, 0⟩, ⟨0, 16, .rw, 0⟩]⟩,
   ⟨0x200D0004, 0x0, 1, 1, [⟨16, 16, .ro, 0⟩, ⟨0, 14, .ro, 0⟩]⟩,
   ⟨0x200D0008, 0x0, 1, 2, [⟨0, 32, .ro, 0⟩]⟩,
   ⟨0x200D000C, 0x0, 1, 2, [⟨0, 32, .ro, 0⟩]⟩,
   ⟨0x200D0010, 0x0, 1, 3, [⟨16, 3, .rw, 3⟩, ⟨8, 4, .rw, 7⟩, ⟨4, 4, .rw, 1⟩]⟩,
   ⟨0x200D0014, 0x0, 1, 4, [⟨24, 8, .rw, 171⟩, ⟨16, 3, .rw, 3⟩, ⟨12, 3, .rw, 4⟩, ⟨8, 4, .rw, 5⟩, ⟨4, 4, .rw, 3⟩]⟩,
   ⟨0x200D0018, 0x0, 1, 5, [⟨16, 8, .rw, 100⟩, ⟨0, 1, .rw, 0⟩]⟩,
   ⟨0x200D001C, 0x0, 1, 6, [⟨0, 16, .rw, 500⟩]⟩,
   ⟨0x200D0020, 0x0, 1, 7, [⟨7, 1, .w1c, 0⟩, ⟨6, 1, .w1c, 0⟩, ⟨5, 1, .w1c, 0⟩, ⟨4, 1, .w1c, 0⟩, ⟨3, 1, .w1c, 0⟩, ⟨2, 1, .w1c, 0⟩, ⟨1, 1, .w1c, 0⟩, ⟨0, 1, .w1c, 0⟩]⟩,
   ⟨0x200D0024, 0x0, 1, 8, [⟨0, 8, .rw, 240⟩]⟩,
   ⟨0x200D0028, 0x0, 1, 9, [⟨0, 16, .ro, 0⟩]⟩,
   ⟨0x200D0040, 0x0, 1, 10, [⟨16, 16, .ro, 0⟩, ⟨0, 16, .ro, 0⟩]⟩,
   ⟨0x200D0044, 0x0, 1, 10, [⟨16, 16, .ro, 0⟩, ⟨0, 16, .ro, 0⟩]⟩,
   ⟨0x200D0048, 0x0, 1, 10, [⟨16, 16, .ro, 0⟩, ⟨0, 16, .ro, 0⟩]⟩,
   ⟨0x200D004C, 0x0, 1, 10, [⟨16, 16, .ro, 0⟩, ⟨0, 16, .ro, 0⟩]⟩,
   ⟨0x200D0050, 0x0, 1, 10, [⟨16, 16, .ro, 0⟩, ⟨0, 16, .ro, 0⟩]⟩,
   ⟨0x200D0054, 0x0, 1, 10, [⟨16, 16, .ro, 0⟩, ⟨0, 16, .ro, 0⟩]⟩,
   ⟨0x200D0058, 0x0, 1, 10, [⟨16, 16, .ro, 0⟩, ⟨0, 16, .ro, 0⟩]⟩,
   ⟨0x200D005C, 0x0, 1, 10, [⟨16, 16, .ro, 0⟩, ⟨0, 16, .ro, 0⟩]⟩,
   ⟨0x200D0060, 0x0, 1, 10, [⟨16, 16, .ro, 0⟩, ⟨0, 16, .ro, 0⟩]⟩,
   ⟨0x200D0080, 0x0, 1, 11, [⟨0, 4, .rw, 0⟩]⟩,
   ⟨0x200D0084, 0x0, 1, 12, [⟨16, 16, .ro, 0⟩, ⟨0, 16, .rw, 0x0000FFFD⟩]⟩,
   ⟨0x200D0088, 0x0, 1, 13, [⟨24, 8, .rw, 16⟩, ⟨0, 24, .rw, 0⟩]⟩,
   ⟨0x200D008C, 0x0, 1, 14, [⟨0, 16, .rw, 0⟩]⟩,
   ⟨0x200D0090, 0x0, 1, 15, [⟨31, 1, .rw, 0⟩, ⟨16, 8, .rw, 0⟩, ⟨0, 9, .rw, 0⟩]⟩,
   ⟨0x200D0094, 0x0, 1, 16, [⟨0, 32, .rw, 0⟩]⟩,
   ⟨0x200D0098, 0x0, 1, 17, [⟨16, 12, .rw, 0⟩, ⟨0, 8, .rw, 0⟩]⟩,
   ⟨0x200D00A0, 0x0, 1, 18, [⟨0, 3, .rw, 0⟩]⟩,
   ⟨0x200D00A4, 0x0, 1, 19, [⟨31, 1, .rw, 0⟩, ⟨0, 16, .rw, 0⟩]⟩,
   ⟨0x200D00A8, 0x0, 1, 20, [⟨0, 32, .rw, 0⟩]⟩,
   ⟨0x200D00C0, 0x0, 1, 21, [⟨0, 7, .rw, 0⟩]⟩,
   ⟨0x200D00C4, 0x0, 1, 22, [⟨0, 16, .rw, 0⟩]⟩,
   ⟨0x200D0100, 0x0, 1, 23, [⟨0, 4, .rw, 0⟩]⟩,
   ⟨0x200D0104, 0x0, 1, 24, [⟨0, 32, .ro, 0⟩]⟩,
   ⟨0x200D0108, 0x0, 1, 25, [⟨31, 1, .ro, 0⟩, ⟨0, 16, .ro, 0⟩]⟩]

def sleepRegs : List RegDesc :=
  [⟨0x200E0000, 0x0, 1, 0, [⟨24, 8, .rw, 100⟩, ⟨16, 8, .rw, 75⟩, ⟨8, 4, .rw, 3⟩, ⟨0, 8, .rw, 20⟩]⟩,
   ⟨0x200E0004, 0x0, 1, 1, [⟨20, 12, .rw, 0x000007D0⟩, ⟨10, 10, .rw, 100⟩, ⟨0, 10, .rw, 20⟩]⟩,
   ⟨0x200E0008, 0x0, 1, 2, [⟨28, 4, .rw, 6⟩, ⟨24, 4, .rw, 1⟩, ⟨20, 4, .rw, 3⟩, ⟨8, 8, .rw, 50⟩]⟩,
   ⟨0x200E000C, 0x0, 1, 3, [⟨16, 16, .rw, 0x000007D0⟩, ⟨0, 16, .rw, 20⟩]⟩,
   ⟨0x200E0010, 0x0, 1, 4, [⟨28, 4, .wo, 0⟩, ⟨0, 18, .wo, 0⟩]⟩,
   ⟨0x200E0014, 0x0, 1, 5, [⟨18, 13, .ro, 0⟩, ⟨0, 18, .ro, 0⟩]⟩,
   ⟨0x200E0018, 0x0, 1, 6, [⟨16, 16, .ro, 0⟩, ⟨0, 12, .ro, 0⟩]⟩,
   ⟨0x200E0020, 0x0, 1, 7, [⟨6, 1, .w1c, 0⟩, ⟨5, 1, .w1c, 0⟩, ⟨4, 1, .w1c, 0⟩, ⟨3, 1, .w1c, 0⟩, ⟨2, 1, .w1c, 0⟩, ⟨1, 1, .w1c, 0⟩, ⟨0, 1, .w1c, 0⟩]⟩,
   ⟨0x200E0024, 0x0, 1, 8, [⟨31, 1, .w1s, 0⟩, ⟨0, 7, .rw, 24⟩]⟩,
   ⟨0x200E0028, 0x0, 1, 9, [⟨0, 16, .ro, 0⟩]⟩,
   ⟨0x200E0030, 0x0, 1, 10, [⟨16, 16, .ro, 0⟩, ⟨0, 16, .ro, 0⟩]⟩,
   ⟨0x200E0034, 0x0, 1, 10, [⟨16, 16, .ro, 0⟩, ⟨0, 16, .ro, 0⟩]⟩,
   ⟨0x200E0038, 0x0, 1, 10, [⟨16, 16, .ro, 0⟩, ⟨0, 16, .ro, 0⟩]⟩,
   ⟨0x200E0040, 0x0, 1, 11, [⟨28, 4, .ro, 0⟩, ⟨0, 18, .ro, 0x0003FFFF⟩]⟩,
   ⟨0x200E0050, 0x0, 1, 12, [⟨0, 18, .rw, 0⟩]⟩,
   ⟨0x200E0054, 0x0, 1, 13, [⟨30, 2, .wo, 0⟩, ⟨0, 18, .rw, 0⟩]⟩]

def pillowRegs : List RegDesc :=
  [⟨0x20100000, 0x0, 1, 0, [⟨16, 16, .ro, 0⟩, ⟨0, 16, .ro, 0⟩]⟩,
   ⟨0x20100004, 0x0, 1, 1, [⟨0, 1, .w1s, 0⟩]⟩,
   ⟨0x20100008, 0x0, 1, 2, [⟨16, 16, .ro, 0⟩, ⟨0, 16, .ro, 0⟩]⟩,
   ⟨0x2010000C, 0x0, 1, 3, [⟨16, 13, .ro, 0⟩, ⟨0, 13, .ro, 0⟩]⟩,
   ⟨0x20100010, 0x0, 1, 4, [⟨16, 15, .ro, 0⟩, ⟨0, 16, .ro, 0⟩]⟩,
   ⟨0x20100020, 0x0, 1, 5, [⟨31, 1, .rw, 0⟩, ⟨28, 3, .rw, 0⟩, ⟨23, 5, .rw, 0⟩, ⟨0, 18, .rw, 0⟩]⟩,
   ⟨0x201000C4, 0x0, 1, 5, [⟨31, 1, .rw, 0⟩, ⟨28, 3, .rw, 0⟩, ⟨23, 5, .rw, 0⟩, ⟨0, 18, .rw, 0⟩]⟩,
   ⟨0x20100024, 0x0, 1, 6, [⟨0, 16, .rw, 0x0000FFFF⟩]⟩,
   ⟨0x201000C8, 0x0, 1, 6, [⟨0, 16, .rw, 0x0000FFFF⟩]⟩,
   ⟨0x20100030, 0x4, 4, 7, [⟨28, 4, .ro, 0⟩, ⟨24, 1, .rw, 0⟩, ⟨0, 24, .rw, 0⟩]⟩,
   ⟨0x20100040, 0x0, 1, 8, [⟨7, 1, .w1c, 0⟩, ⟨6, 1, .w1c, 0⟩, ⟨5, 1, .w1c, 0⟩, ⟨4, 1, .w1c, 0⟩, ⟨3, 1, .w1c, 0⟩, ⟨2, 1, .w1c, 0⟩, ⟨1, 1, .w1c, 0⟩, ⟨0, 1, .w1c, 0⟩]⟩,
   ⟨0x20100044, 0x0, 1, 9, [⟨0, 8, .rw, 35⟩]⟩,
   ⟨0x20100048, 0x0, 1, 10, [⟨0, 16, .ro, 0⟩]⟩,
   ⟨0x20100050, 0x0, 1, 11, [⟨28, 4, .ro, 0⟩, ⟨24, 4, .ro, 0⟩, ⟨23, 1, .ro, 0⟩, ⟨0, 23, .ro, 0⟩]⟩,
   ⟨0x20100054, 0x0, 1, 12, [⟨0, 32, .ro, 0⟩]⟩,
   ⟨0x20100060, 0x4, 4, 13, [⟨16, 16, .ro, 0⟩, ⟨0, 16, .ro, 0⟩]⟩,
   ⟨0x20100080, 0x0, 1, 14, [⟨0, 4, .rw, 0⟩]⟩,
   ⟨0x20100084, 0x0, 1, 15, [⟨30, 2, .ro, 0⟩, ⟨29, 1, .ro, 1⟩, ⟨28, 1, .ro, 0⟩, ⟨27, 1, .ro, 0⟩, ⟨24, 3, .ro, 0⟩, ⟨0, 23, .ro, 0⟩]⟩,
   ⟨0x20100088, 0x0, 1, 16, [⟨0, 32, .ro, 0⟩]⟩,
   ⟨0x20100090, 0x0, 1, 17, [⟨4, 2, .rw, 0⟩, ⟨0, 3, .rw, 0⟩]⟩,
   ⟨0x20100094, 0x0, 1, 18, [⟨16, 16, .ro, 0⟩, ⟨0, 16, .ro, 0⟩]⟩,
   ⟨0x201000A0, 0x0, 1, 19, [⟨0, 8, .rw, 0⟩]⟩,
   ⟨0x201000A4, 0x0, 1, 20, [⟨16, 11, .ro, 0⟩, ⟨0, 16, .ro, 0⟩]⟩,
   ⟨0x201000B0, 0x0, 1, 21, [⟨16, 11, .ro, 0⟩, ⟨0, 15, .ro, 0⟩]⟩,
   ⟨0x201000B4, 0x0, 1, 22, [⟨0, 17, .ro, 0⟩]⟩,
   ⟨0x201000B8, 0x0, 1, 23, [⟨0, 19, .ro, 0⟩]⟩,
   ⟨0x201000C0, 0x0, 1, 24, [⟨0, 8, .rw, 0⟩]⟩,
   ⟨0x201000D0, 0x0, 1, 25, [⟨0, 32, .rw, 0⟩]⟩,
   ⟨0x201000D4, 0x0, 1, 26, [⟨0, 6, .rw, 0⟩]⟩,
   ⟨0x201000D8, 0x0, 1, 27, [⟨0, 32, .rw, 0⟩]⟩]

def queueRegs : List RegDesc :=
  [⟨0x20110000, 0x0, 1, 0, [⟨0, 8, .rw, 0⟩]⟩,
   ⟨0x20110004, 0x0, 1, 1, [⟨24, 8, .ro, 0⟩, ⟨19, 5, .ro, 0⟩, ⟨18, 1, .ro, 0⟩, ⟨17, 1, .ro, 0⟩, ⟨16, 1, .ro, 0⟩, ⟨8, 4, .ro, 0⟩, ⟨0, 3, .ro, 0⟩]⟩,
   ⟨0x20110008, 0x0, 1, 2, [⟨16, 16, .rw, 0⟩, ⟨0, 16, .rw, 0⟩]⟩,
   ⟨0x2011000C, 0x0, 1, 3, [⟨31, 1, .ro, 0⟩, ⟨30, 1, .ro, 0⟩, ⟨0, 17, .ro, 0⟩]⟩,
   ⟨0x20110010, 0x0, 1, 4, [⟨16, 16, .ro, 0⟩, ⟨0, 16, .ro, 0⟩]⟩,
   ⟨0x20110014, 0x0, 1, 5, [⟨2, 1, .w1c, 0⟩, ⟨1, 1, .w1c, 0⟩, ⟨0, 1, .w1c, 0⟩]⟩,
   ⟨0x20110020, 0x0, 1, 6, [⟨28, 4, .wo, 0⟩, ⟨0, 8, .wo, 0⟩]⟩,
   ⟨0x20110024, 0x0, 1, 7, [⟨16, 8, .ro, 0⟩, ⟨0, 16, .ro, 0⟩]⟩,
   ⟨0x20110028, 0x0, 1, 8, [⟨16, 8, .ro, 0⟩, ⟨8, 8, .ro, 0⟩, ⟨0, 4, .ro, 0⟩]⟩,
   ⟨0x20110030, 0x0, 1, 9, [⟨3, 1, .w1c, 0⟩, ⟨2, 1, .w1c, 0⟩, ⟨1, 1, .w1c, 0⟩, ⟨0, 1, .w1c, 0⟩]⟩,
   ⟨0x20110034, 0x0, 1, 10, [⟨0, 4, .rw, 13⟩]⟩,
   ⟨0x20110040, 0x4, 8, 11, [⟨0, 32, .ro, 0⟩]⟩]

def memRegs : List RegDesc :=
  [⟨0x20120000, 0x0, 1, 0, [⟨20, 12, .ro, 0x00000800⟩, ⟨11, 9, .ro, 256⟩, ⟨3, 1, .ro, 0⟩, ⟨2, 1, .ro, 0⟩, ⟨1, 1, .ro, 0⟩, ⟨0, 1, .ro, 0⟩]⟩,
   ⟨0x20120004, 0x0, 1, 1, [⟨8, 4, .ro, 0⟩, ⟨0, 8, .rw, 0⟩]⟩,
   ⟨0x20120008, 0x0, 1, 2, [⟨20, 12, .ro, 0⟩, ⟨11, 9, .ro, 0⟩, ⟨8, 3, .ro, 0⟩, ⟨0, 4, .rw, 0⟩]⟩,
   ⟨0x2012000C, 0x0, 1, 3, [⟨15, 17, .ro, 0⟩, ⟨0, 15, .ro, 0⟩]⟩,
   ⟨0x20120010, 0x0, 1, 4, [⟨0, 32, .rw, 0⟩]⟩,
   ⟨0x20120014, 0x0, 1, 5, [⟨16, 16, .ro, 0⟩, ⟨0, 16, .ro, 0⟩]⟩,
   ⟨0x20120018, 0x0, 1, 6, [⟨0, 32, .ro, 0⟩]⟩,
   ⟨0x20120020, 0x0, 1, 7, [⟨12, 15, .rw, 0⟩]⟩,
   ⟨0x20120024, 0x0, 1, 8, [⟨0, 32, .rw, 0⟩]⟩,
   ⟨0x20120028, 0x0, 1, 9, [⟨28, 4, .wo, 0⟩, ⟨0, 7, .wo, 0⟩]⟩,
   ⟨0x2012002C, 0x0, 1, 10, [⟨31, 1, .ro, 0⟩, ⟨0, 16, .ro, 0⟩]⟩,
   ⟨0x20120030, 0x0, 1, 11, [⟨4, 1, .w1c, 0⟩, ⟨3, 1, .w1c, 0⟩, ⟨2, 1, .w1c, 0⟩, ⟨1, 1, .w1c, 0⟩, ⟨0, 1, .w1c, 0⟩]⟩,
   ⟨0x20120034, 0x0, 1, 12, [⟨31, 1, .w1s, 0⟩, ⟨0, 5, .rw, 14⟩]⟩,
   ⟨0x20120038, 0x0, 1, 13, [⟨0, 16, .ro, 0⟩]⟩]

def groundRegs : List RegDesc :=
  [⟨0x20130000, 0x0, 1, 0, [⟨18, 1, .ro, 0⟩, ⟨17, 1, .ro, 0⟩, ⟨16, 1, .ro, 0⟩, ⟨0, 7, .ro, 0⟩]⟩,
   ⟨0x20130004, 0x0, 1, 1, [⟨0, 32, .wo, 0⟩]⟩,
   ⟨0x20130008, 0x0, 1, 2, [⟨5, 1, .ro, 0⟩, ⟨0, 5, .ro, 0⟩]⟩,
   ⟨0x2013000C, 0x0, 1, 3, [⟨0, 32, .ro, 0⟩]⟩,
   ⟨0x20130010, 0x0, 1, 4, [⟨0, 20, .ro, 0⟩]⟩,
   ⟨0x20130014, 0x0, 1, 5, [⟨0, 32, .rw, 0⟩]⟩,
   ⟨0x20130018, 0x0, 1, 6, [⟨28, 4, .wo, 0⟩, ⟨0, 16, .wo, 0⟩]⟩,
   ⟨0x2013001C, 0x0, 1, 7, [⟨24, 4, .rw, 3⟩, ⟨20, 3, .rw, 2⟩, ⟨0, 16, .rw, 0⟩]⟩,
   ⟨0x20130020, 0x0, 1, 8, [⟨16, 16, .ro, 0⟩, ⟨0, 14, .ro, 0⟩]⟩,
   ⟨0x20130024, 0x0, 1, 9, [⟨28, 4, .rw, 0⟩, ⟨0, 18, .ro, 0⟩]⟩,
   ⟨0x20130028, 0x0, 1, 10, [⟨0, 13, .ro, 0⟩]⟩,
   ⟨0x2013002C, 0x0, 1, 11, [⟨6, 1, .w1c, 0⟩, ⟨5, 1, .w1c, 0⟩, ⟨4, 1, .w1c, 0⟩, ⟨3, 1, .w1c, 0⟩, ⟨2, 1, .w1c, 0⟩, ⟨1, 1, .w1c, 0⟩, ⟨0, 1, .w1c, 0⟩]⟩,
   ⟨0x20130030, 0x0, 1, 12, [⟨0, 7, .rw, 14⟩]⟩,
   ⟨0x20130034, 0x0, 1, 13, [⟨0, 16, .ro, 0⟩]⟩,
   ⟨0x20130038, 0x0, 1, 14, [⟨16, 16, .ro, 0⟩, ⟨0, 16, .ro, 0⟩]⟩,
   ⟨0x2013003C, 0x0, 1, 14, [⟨16, 16, .ro, 0⟩, ⟨0, 16, .ro, 0⟩]⟩]

def keyRegs : List RegDesc :=
  [⟨0x20140000, 0x0, 1, 0, [⟨30, 2, .ro, 0⟩, ⟨29, 1, .ro, 0⟩, ⟨28, 1, .ro, 0⟩, ⟨0, 10, .ro, 0⟩]⟩,
   ⟨0x20140004, 0x0, 1, 1, [⟨0, 32, .wo, 0⟩]⟩,
   ⟨0x20140008, 0x0, 1, 2, [⟨6, 1, .ro, 0⟩, ⟨5, 1, .ro, 0⟩, ⟨0, 5, .ro, 0⟩]⟩,
   ⟨0x2014000C, 0x0, 1, 3, [⟨31, 1, .ro, 0⟩, ⟨30, 1, .ro, 0⟩, ⟨0, 30, .ro, 0⟩]⟩,
   ⟨0x20140010, 0x0, 1, 4, [⟨0, 9, .rw, 0⟩]⟩,
   ⟨0x20140014, 0x0, 1, 5, [⟨0, 32, .ro, 0⟩]⟩,
   ⟨0x20140018, 0x0, 1, 6, [⟨16, 11, .ro, 0⟩, ⟨0, 16, .ro, 0⟩]⟩,
   ⟨0x2014001C, 0x0, 1, 7, [⟨31, 1, .ro, 0⟩, ⟨0, 21, .ro, 0⟩]⟩,
   ⟨0x20140020, 0x0, 1, 8, [⟨4, 1, .w1c, 0⟩, ⟨3, 1, .w1c, 0⟩, ⟨2, 1, .w1c, 0⟩, ⟨1, 1, .w1c, 0⟩, ⟨0, 1, .w1c, 0⟩]⟩,
   ⟨0x20140024, 0x0, 1, 9, [⟨0, 5, .rw, 31⟩]⟩,
   ⟨0x20140028, 0x0, 1, 10, [⟨0, 16, .ro, 0⟩]⟩,
   ⟨0x20140030, 0x0, 1, 11, [⟨16, 16, .ro, 0⟩, ⟨0, 16, .ro, 0⟩]⟩]

def tamperRegs : List RegDesc :=
  [⟨0x20150000, 0x0, 1, 0, [⟨30, 2, .ro, 0⟩, ⟨29, 1, .ro, 0⟩, ⟨0, 8, .ro, 0⟩]⟩,
   ⟨0x20150004, 0x0, 1, 1, [⟨8, 4, .rw, 0⟩, ⟨0, 8, .rw, 224⟩]⟩,
   ⟨0x20150008, 0x0, 1, 2, [⟨4, 2, .rw, 1⟩, ⟨0, 2, .rw, 1⟩]⟩,
   ⟨0x2015000C, 0x0, 1, 3, [⟨0, 16, .ro, 0⟩]⟩,
   ⟨0x20150010, 0x0, 1, 4, [⟨31, 1, .w1s, 0⟩, ⟨0, 3, .rw, 0⟩]⟩,
   ⟨0x20150014, 0x0, 1, 5, [⟨31, 1, .ro, 0⟩, ⟨30, 1, .ro, 0⟩, ⟨29, 1, .ro, 0⟩, ⟨24, 4, .ro, 0⟩, ⟨0, 24, .ro, 0⟩]⟩,
   ⟨0x20150018, 0x0, 1, 6, [⟨8, 1, .w1c, 0⟩, ⟨0, 8, .w1c, 0⟩]⟩,
   ⟨0x2015001C, 0x0, 1, 7, [⟨0, 9, .rw, 511⟩]⟩]

def roleRegs : List RegDesc :=
  [⟨0x20160000, 0x0, 1, 0, [⟨16, 16, .rw, 600⟩, ⟨8, 6, .rw, 4⟩, ⟨0, 1, .w1s, 0⟩]⟩,
   ⟨0x20160004, 0x0, 1, 1, [⟨29, 3, .ro, 0⟩, ⟨24, 5, .ro, 0⟩, ⟨20, 4, .ro, 0⟩, ⟨17, 1, .ro, 0⟩, ⟨16, 1, .ro, 0⟩, ⟨0, 16, .ro, 0⟩]⟩,
   ⟨0x20160008, 0x0, 1, 2, [⟨8, 5, .rw, 0⟩, ⟨0, 3, .rw, 3⟩]⟩,
   ⟨0x2016000C, 0x0, 1, 3, [⟨31, 1, .ro, 0⟩, ⟨30, 1, .ro, 0⟩, ⟨28, 2, .ro, 0⟩, ⟨0, 24, .ro, 0⟩]⟩,
   ⟨0x20160010, 0x0, 1, 4, [⟨31, 1, .ro, 0⟩, ⟨29, 2, .ro, 0⟩, ⟨24, 5, .ro, 0⟩, ⟨0, 16, .ro, 0⟩]⟩,
   ⟨0x20160014, 0x0, 1, 5, [⟨0, 32, .ro, 0⟩]⟩,
   ⟨0x20160018, 0x0, 1, 6, [⟨7, 1, .w1c, 0⟩, ⟨6, 1, .w1c, 0⟩, ⟨5, 1, .w1c, 0⟩, ⟨4, 1, .w1c, 0⟩, ⟨3, 1, .w1c, 0⟩, ⟨2, 1, .w1c, 0⟩, ⟨1, 1, .w1c, 0⟩, ⟨0, 1, .w1c, 0⟩]⟩,
   ⟨0x2016001C, 0x0, 1, 7, [⟨0, 8, .rw, 246⟩]⟩]

def pairRegs : List RegDesc :=
  [⟨0x20170000, 0x0, 1, 0, [⟨29, 3, .ro, 0⟩, ⟨26, 3, .ro, 0⟩, ⟨25, 1, .ro, 0⟩, ⟨24, 1, .ro, 0⟩, ⟨23, 1, .ro, 0⟩, ⟨22, 1, .ro, 0⟩, ⟨20, 2, .ro, 0⟩, ⟨19, 1, .ro, 0⟩, ⟨18, 1, .ro, 0⟩, ⟨17, 1, .ro, 0⟩]⟩,
   ⟨0x20170004, 0x0, 1, 1, [⟨16, 16, .rw, 0x00002EE0⟩, ⟨0, 16, .rw, 64⟩]⟩,
   ⟨0x20170008, 0x0, 1, 2, [⟨2, 16, .rw, 0x000007D0⟩, ⟨1, 1, .w1s, 0⟩, ⟨0, 1, .w1s, 0⟩]⟩,
   ⟨0x2017000C, 0x0, 1, 3, [⟨16, 16, .ro, 0⟩, ⟨0, 16, .ro, 0⟩]⟩,
   ⟨0x20170010, 0x0, 1, 4, [⟨16, 16, .ro, 0⟩, ⟨0, 16, .ro, 0⟩]⟩,
   ⟨0x20170014, 0x0, 1, 5, [⟨29, 3, .ro, 0⟩, ⟨0, 24, .ro, 0⟩]⟩,
   ⟨0x20170018, 0x0, 1, 6, [⟨31, 1, .ro, 0⟩, ⟨30, 1, .ro, 0⟩, ⟨0, 18, .ro, 0⟩]⟩,
   ⟨0x20170020, 0x0, 1, 7, [⟨0, 32, .ro, 0⟩]⟩,
   ⟨0x20170024, 0x0, 1, 7, [⟨0, 32, .ro, 0⟩]⟩,
   ⟨0x20170028, 0x0, 1, 8, [⟨0, 32, .ro, 0⟩]⟩,
   ⟨0x2017002C, 0x0, 1, 8, [⟨0, 32, .ro, 0⟩]⟩,
   ⟨0x20170030, 0x0, 1, 9, [⟨16, 16, .ro, 0⟩, ⟨0, 16, .ro, 0⟩]⟩,
   ⟨0x20170034, 0x0, 1, 10, [⟨16, 16, .ro, 0⟩, ⟨0, 16, .ro, 0⟩]⟩,
   ⟨0x20170040, 0x0, 1, 11, [⟨11, 1, .w1c, 0⟩, ⟨10, 1, .w1c, 0⟩, ⟨9, 1, .w1c, 0⟩, ⟨8, 1, .w1c, 0⟩, ⟨7, 1, .w1c, 0⟩, ⟨6, 1, .w1c, 0⟩, ⟨5, 1, .w1c, 0⟩, ⟨4, 1, .w1c, 0⟩, ⟨3, 1, .w1c, 0⟩, ⟨2, 1, .w1c, 0⟩, ⟨1, 1, .w1c, 0⟩, ⟨0, 1, .w1c, 0⟩]⟩,
   ⟨0x20170044, 0x0, 1, 12, [⟨0, 12, .rw, 0x00000FFE⟩]⟩,
   ⟨0x20170048, 0x0, 1, 13, [⟨0, 16, .ro, 0⟩]⟩]

def updateRegs : List RegDesc :=
  [⟨0x20180000, 0x0, 1, 0, [⟨9, 2, .ro, 0⟩, ⟨8, 1, .ro, 0⟩, ⟨7, 1, .ro, 0⟩, ⟨2, 3, .ro, 0⟩, ⟨1, 1, .ro, 0⟩, ⟨0, 1, .ro, 0⟩]⟩,
   ⟨0x20180004, 0x0, 1, 1, [⟨20, 12, .rw, 300⟩, ⟨16, 2, .rw, 2⟩, ⟨0, 12, .rw, 600⟩]⟩,
   ⟨0x20180008, 0x0, 1, 2, [⟨1, 1, .w1s, 0⟩, ⟨0, 1, .w1s, 0⟩]⟩,
   ⟨0x2018000C, 0x0, 1, 3, [⟨25, 7, .ro, 0⟩, ⟨18, 7, .ro, 0⟩, ⟨16, 2, .ro, 0⟩, ⟨8, 3, .ro, 0⟩, ⟨0, 3, .ro, 0⟩]⟩,
   ⟨0x20180010, 0x0, 1, 4, [⟨20, 12, .ro, 0⟩, ⟨0, 16, .ro, 0⟩]⟩,
   ⟨0x20180014, 0x0, 1, 5, [⟨0, 32, .ro, 0⟩]⟩,
   ⟨0x20180018, 0x0, 1, 6, [⟨0, 32, .ro, 0⟩]⟩,
   ⟨0x20180020, 0x0, 1, 7, [⟨8, 1, .w1c, 0⟩, ⟨7, 1, .w1c, 0⟩, ⟨6, 1, .w1c, 0⟩, ⟨5, 1, .w1c, 0⟩, ⟨4, 1, .w1c, 0⟩, ⟨3, 1, .w1c, 0⟩, ⟨2, 1, .w1c, 0⟩, ⟨1, 1, .w1c, 0⟩, ⟨0, 1, .w1c, 0⟩]⟩,
   ⟨0x20180024, 0x0, 1, 8, [⟨0, 9, .rw, 254⟩]⟩,
   ⟨0x20180028, 0x0, 1, 9, [⟨0, 16, .ro, 0⟩]⟩]

def svcRegs : List RegDesc :=
  [⟨0x20190000, 0x0, 1, 0, [⟨8, 8, .rw, 0⟩, ⟨0, 8, .rw, 0⟩]⟩,
   ⟨0x20190004, 0x0, 1, 1, [⟨0, 8, .ro, 0⟩]⟩,
   ⟨0x20190008, 0x0, 1, 2, [⟨24, 8, .rw, 255⟩, ⟨16, 8, .rw, 255⟩, ⟨4, 2, .rw, 0⟩, ⟨2, 2, .rw, 0⟩, ⟨0, 2, .rw, 0⟩]⟩,
   ⟨0x2019000C, 0x0, 1, 3, [⟨12, 4, .rw, 0⟩, ⟨8, 4, .rw, 0⟩, ⟨4, 4, .rw, 0⟩, ⟨0, 4, .rw, 0⟩]⟩,
   ⟨0x20190010, 0x0, 1, 4, [⟨4, 3, .rw, 7⟩, ⟨0, 3, .rw, 7⟩]⟩,
   ⟨0x20190014, 0x0, 1, 5, [⟨4, 3, .ro, 0⟩, ⟨0, 3, .ro, 0⟩]⟩,
   ⟨0x20190018, 0x0, 1, 6, [⟨0, 1, .rw, 0⟩]⟩,
   ⟨0x2019001C, 0x0, 1, 7, [⟨31, 1, .ro, 0⟩, ⟨0, 27, .ro, 0⟩]⟩,
   ⟨0x20190020, 0x0, 1, 8, [⟨3, 3, .ro, 0⟩, ⟨2, 1, .ro, 0⟩, ⟨1, 1, .ro, 0⟩, ⟨0, 1, .ro, 0⟩]⟩,
   ⟨0x20190024, 0x0, 1, 9, [⟨8, 1, .w1c, 0⟩, ⟨0, 8, .w1c, 0⟩]⟩,
   ⟨0x20190028, 0x0, 1, 10, [⟨0, 9, .rw, 256⟩]⟩,
   ⟨0x2019002C, 0x0, 1, 11, [⟨0, 16, .ro, 0⟩]⟩]

/-- The register blocks (Table 14.8): bits [31:16] of the address, and the block's registers. -/
def regTable : List (Nat × List RegDesc) :=
  [(0x2000, sysRegs),
   (0x2001, clkRegs),
   (0x2002, startRegs),
   (0x2003, uplRegs),
   (0x2004, uplRegs),
   (0x2005, tieRegs),
   (0x2006, timeRegs),
   (0x2008, trxRegs),
   (0x2009, trxRegs),
   (0x200A, trxRegs),
   (0x200B, trxRegs),
   (0x200C, laneRegs),
   (0x200D, macRegs),
   (0x200E, sleepRegs),
   (0x2010, pillowRegs),
   (0x2011, queueRegs),
   (0x2012, memRegs),
   (0x2013, groundRegs),
   (0x2014, keyRegs),
   (0x2015, tamperRegs),
   (0x2016, roleRegs),
   (0x2017, pairRegs),
   (0x2018, updateRegs),
   (0x2019, svcRegs)]

/-- Addresses above this are banks of a selected register (MAC_PAN_SEL and the like): bank `b` of the register at
`a` is kept under `a + b * bankStride`. -/
def bankStride : Nat := 0x100000000

/-- Whether the descriptor names the register at `a`. -/
def RegDesc.covers (d : RegDesc) (a : Nat) : Bool :=
  d.base ≤ a && (a == d.base || (d.stride != 0 && (a - d.base) % d.stride == 0 && (a - d.base) / d.stride < d.count))

/-- The descriptor of the register at an address, whichever bank; none where the offset holds no register (R308). -/
def regDesc? (a : Nat) : Option RegDesc :=
  let a := a % bankStride
  match regTable.find? (fun p => p.1 == a / 0x10000) with
  | none => none
  | some p => p.2.find? (fun d => d.covers a)

/-- A field's bits as a mask. -/
def FieldDesc.mask (f : FieldDesc) : Nat := (2 ^ f.width - 1) * 2 ^ f.lo

/-- The word made of the fields that `keep` picks, each holding what `val` gives. -/
def fieldSum (val : FieldDesc → Nat) : List FieldDesc → Nat
  | [] => 0
  | f :: fs => val f + fieldSum val fs

/-- The reset word of the register at `a` (R10); 0 where no register is. -/
def regReset (a : Nat) : Word :=
  match regDesc? a with
  | none => 0
  | some d => BitVec.ofNat 32 (fieldSum (fun f => f.reset * 2 ^ f.lo) d.fields)

/-- The bits of the register at `a` that hold a value (R8): every field but reserved and write-only ones. -/
def regMask (a : Nat) : Word :=
  match regDesc? a with
  | none => 0
  | some d => BitVec.ofNat 32 (fieldSum (fun f => if f.acc = .wo then 0 else f.mask) d.fields)

/-- The bits of the register at `a` with access type `t`. -/
def regAccessMask (t : Access) (a : Nat) : Word :=
  match regDesc? a with
  | none => 0
  | some d => BitVec.ofNat 32 (fieldSum (fun f => if f.acc = t then f.mask else 0) d.fields)

/-- Table 14.8: (bits [31:16] of the block's address, layouts of a copy, copies). TRX and UPL copies have blocks of
their own. -/
def visBlocks : List (Nat × Nat × Nat) :=
  [(0x2000, 12, 1), (0x2001, 20, 1), (0x2002, 10, 1), (0x2003, 20, 1), (0x2004, 20, 1), (0x2005, 16, 1),
   (0x2006, 26, 1), (0x2008, 24, 1), (0x2009, 24, 1), (0x200A, 24, 1), (0x200B, 24, 1), (0x200C, 6, 96),
   (0x200D, 28, 1), (0x200E, 14, 1), (0x2010, 28, 1), (0x2011, 12, 1), (0x2012, 14, 1), (0x2013, 16, 1),
   (0x2014, 20, 1), (0x2015, 8, 1), (0x2016, 8, 1), (0x2017, 16, 1), (0x2018, 10, 1), (0x2019, 12, 1)]

/-- Register instances in the blocks before the block `b` (R29, R332). -/
def visBase (b : Nat) : List (Nat × Nat × Nat) → Nat
  | [] => 0
  | (x, l, c) :: t => if x < b then l * c + visBase b t else visBase b t

/-- The register instance that governs the address `a`: its place among the 982 VIS bytes (R29). -/
def visIndex? (a : Nat) : Option Nat :=
  match regDesc? a with
  | none => none
  | some d =>
    let a := a % bankStride
    let copy := if a / 0x10000 = 0x200C then (a % 0x10000) / 0x20 else 0
    some (visBase (a / 0x10000) visBlocks + (if a / 0x10000 = 0x200C then 6 * copy else 0) + d.layout)


/-- The event registers with an enable register beside them (R505), as (event register, its enable register,
stride, count). -/
def eventTable : List (Nat × Nat × Nat × Nat) :=
  [(0x20010028, 0x2001002C, 0x0, 1),
   (0x20000008, 0x2000000C, 0x0, 1),
   (0x20030018, 0x2003001C, 0x10000, 2),
   (0x20050010, 0x20050014, 0x0, 1),
   (0x20060230, 0x20060234, 0x0, 1),
   (0x20080040, 0x20080044, 0x10000, 4),
   (0x20080090, 0x20080094, 0x10000, 4),
   (0x200D0020, 0x200D0024, 0x0, 1),
   (0x200E0020, 0x200E0024, 0x0, 1),
   (0x20100040, 0x20100044, 0x0, 1),
   (0x20110030, 0x20110034, 0x0, 1),
   (0x20120030, 0x20120034, 0x0, 1),
   (0x2013002C, 0x20130030, 0x0, 1),
   (0x20140020, 0x20140024, 0x0, 1),
   (0x20150018, 0x2015001C, 0x0, 1),
   (0x20160018, 0x2016001C, 0x0, 1),
   (0x20170040, 0x20170044, 0x0, 1),
   (0x20180020, 0x20180024, 0x0, 1),
   (0x20190024, 0x20190028, 0x0, 1)]

/-- The enable register of an event register. -/
def eventEnable (a : Nat) : Nat :=
  match eventTable.find? (fun e => e.1 ≤ a && (a == e.1 || (e.2.2.1 != 0 && (a - e.1) % e.2.2.1 == 0 && (a - e.1) / e.2.2.1 < e.2.2.2))) with
  | none => 0
  | some e => e.2.1 + (a - e.1)

end Sys2Proof.Machine
end

