-- ==== Sys2Proof/Config.lean ====
section
/-!
DEFINITION. What one implementation fixes and what the spec leaves open.

The opaque constants have no body: nothing can evaluate them, so a statement that mentions them holds for every value
they could have. `free` is applied to the counter `State.freeIx`, which every use advances, so each use is a fresh
value (notes/assumptions/4.md). The others stand for standard algorithms the spec names and does not restate
(notes/assumptions/5.md).
-/
namespace Sys2Proof.Config

/-- A value that the spec leaves open, fresh for each number it is applied to. -/
opaque free : Nat → Nat

/-- SHA3-256 (FIPS 202) of octets, as one number. -/
opaque sha3 : List Nat → Nat

/-- KMAC256 (SP 800-185) with key K, over the octets X, of L bits, with the customisation octets S. -/
opaque kmac : Nat → List Nat → Nat → List Nat → Nat

/-- RFC 3394 wrap, under a key, of `n` octets given as a number. -/
opaque wrap : Nat → Nat → Nat → Nat

/-- RFC 3394 unwrap, under a key, of `n` octets given as a number: none where the integrity check fails. -/
opaque unwrap : Nat → Nat → Nat → Option Nat

/-- The public key of the key pair of a slot type (3 ML-DSA-44, 4 ML-DSA-65, 5 ML-KEM-768), from its seed. -/
opaque publicKey : Nat → Nat → Nat

/-- An ML-DSA signature (FIPS 204): slot type, seed, context octets, message octets, and what the signer draws. -/
opaque sign : Nat → Nat → List Nat → List Nat → Nat → Nat

/-- Whether an ML-DSA signature verifies: slot type, public key, context octets, message octets, signature. -/
opaque verifies : Nat → Nat → List Nat → List Nat → Nat → Bool

/-- ML-KEM-768 decapsulation (FIPS 203) of a ciphertext under the seed of a key pair. -/
opaque decaps : Nat → Nat → Nat

/-- AES-CCM* (IEEE 802.15.4-2020): key, nonce, associated octets, octets to encrypt, MIC length: the encrypted octets and the
MIC after them. -/
opaque ccm : Nat → List Nat → List Nat → List Nat → Nat → List Nat

/-- Whether an active subcarrier is a pilot: SUN OFDM option less 1, number of the symbol, subcarrier (IEEE 802.15.4-2020). -/
opaque isPilot : Nat → Nat → Nat → Bool

/-- What a lane reads from the pilots of one OFDM symbol after division by their taps: the common phase and the phase slope
across subcarriers (R189); the spec gives neither its estimator nor its number format. -/
opaque pilotFit : Nat → List (Int × Int) → Int × Int

/-- A complex number turned back by a phase. -/
opaque derotate : Int → Int × Int → Int × Int

/-- The soft bits of a subcarrier, divided by its tap and turned, under a weight: mode, MCS, number, weight. -/
opaque softBits : Nat → Nat → Int × Int → Int → List Int

/-- De-interleaving, soft-decision Viterbi decoding and descrambling of an OFDM frame's soft bits: mode, PHR_INFO, PSDU octets, soft
bits: the PSDU (IEEE 802.15.4-2020). -/
opaque ofdmDecode : Nat → Nat → Nat → List Int → List Nat

/-- What the one-time-programmable memory of one part holds (R401): the birth secret, the device EUI-64, the grade and
the device certificate. -/
opaque birthSecret : Nat
opaque eui64 : Nat
opaque grade : Nat
opaque certificate : List Nat

/-- The public key of Svetom's release key, in boot ROM (R438). -/
opaque releaseKey : Nat

end Sys2Proof.Config
end

