-- ==== Sys2Proof/Machine/Store.lean ====
section
/-!
DEFINITION. Sparse tables as plain data: a list of (key, value) pairs in one canonical form, keys strictly rising and
no entry equal to what its key reads as when it is not listed. Registers, memory and every table of the spec that has
many like entries are kept so; equal tables are equal data.
-/
namespace Sys2Proof.Machine

/-- A sparse table from numbers to values. -/
abbrev Store (α : Type) := List (Nat × α)

/-- What key `k` reads as: its entry, or `dflt k` where it has none. Reading and writing behave so on every list, in canonical form
or not. -/
def Store.get {α : Type} (dflt : Nat → α) : List (Nat × α) → Nat → α
  | [], k => dflt k
  | (j, v) :: m, k => if k = j then v else Store.get dflt m k

/-- Put an entry in its place, whatever its value. -/
def Store.put {α : Type} (k : Nat) (v : α) : List (Nat × α) → List (Nat × α)
  | [] => [(k, v)]
  | (j, w) :: m => if k < j then (k, v) :: (j, w) :: m else if k = j then (k, v) :: m else (j, w) :: Store.put k v m

/-- Take an entry out. -/
def Store.del {α : Type} (k : Nat) : List (Nat × α) → List (Nat × α)
  | [] => []
  | (j, w) :: m => if k = j then Store.del k m else (j, w) :: Store.del k m

/-- Write key `k`, keeping the canonical form: a value equal to the default takes the entry out. -/
def Store.set {α : Type} [DecidableEq α] (dflt : Nat → α) (m : List (Nat × α)) (k : Nat) (v : α) : List (Nat × α) :=
  if v = dflt k then Store.del k m else Store.put k v m

/-- The entry of key `k`, if it has one: for tables of things that exist or do not. -/
def Store.find? {α : Type} (k : Nat) : List (Nat × α) → Option α
  | [] => none
  | (j, v) :: m => if k = j then some v else Store.find? k m

/-- Every key of the table is above `b`, keys rise strictly, and no entry equals its default. -/
def Store.wfFrom {α : Type} [DecidableEq α] (dflt : Nat → α) : Option Nat → List (Nat × α) → Bool
  | _, [] => true
  | b, (j, v) :: m =>
    (match b with | none => true | some b => decide (b < j)) && decide (v ≠ dflt j) && Store.wfFrom dflt (some j) m

/-- The canonical form. -/
def Store.wf {α : Type} [DecidableEq α] (dflt : Nat → α) (m : List (Nat × α)) : Bool := Store.wfFrom dflt none m

/-- The keys that hold an entry. -/
def Store.keys {α : Type} (m : List (Nat × α)) : List Nat := m.map (·.1)

end Sys2Proof.Machine
end

