-- ==== Sys2Proof/Machine/State.lean ====
section
/-!
DEFINITION. The state of the block: every register, FIFO, buffer, counter, mode and pin the spec gives it, and the queue
of the commands that wait. Plain data throughout; sparse tables are `Store`s in canonical form. A register's stored
bits stand in `State.regs` under the register's address (RegMap.lean gives its reset word); what the spec gives the
device beside its registers stands in one structure per chapter.
-/
namespace Sys2Proof.Machine

/-- Why the block stops. No command of this block stops it: what a command cannot do it refuses with a status word or
leaves undone, as the spec says, so no meaning raises a fault of its own. -/
inductive Fault where
  /-- Raised by no meaning of this model; it would be safe, since the block would go on. -/
  | none
  deriving DecidableEq, Repr

/-- Why a command has no answer. -/
inductive Refusal where
  /-- Raised by an arm of exec whose command has no meaning yet. Safe: the block would go on. -/
  | notModelled (mnemonic : String)
  deriving DecidableEq, Repr

/-- A hoop clock's ramp (R67): where it goes. -/
structure Ramp where
  hoop   : Nat
  target : Nat
  deriving DecidableEq, Repr

/-- A stop-switch-restart in progress (R69): the domain (0 DRAM, 4 to 7 hoop), its new divider, whether the divider has
switched already; a domain has one at most. -/
structure Restart where
  domain   : Nat
  div      : Nat
  switched : Bool
  deriving DecidableEq, Repr

/-- What the clock root holds beside the CLK registers (03_clock_root.md). `locks` are the locked sources, the one locked
longest first (R53). `everDisq` are the sources disqualified since ROOT_LOCK (R59). `word` is the DPLL control word and
`held` the held word, both in the units of CLK_SRC_x.OFFSET, 0.05 ppm (R58); `wordAt` is the MAC time base at which `word`
was recorded. `windows` gives, for a source whose
monitor window is open, the tolerance in force at its start (R57). `holdAt` is the MAC time base at entry to HOLD. -/
structure Clk where
  locks    : List Nat := []
  everDisq : List Nat := []
  word     : Int := 0
  held     : Int := 0
  windows  : List (Nat × Nat) := []
  holdAt   : Nat := 0
  ramps    : List Ramp := []
  restarts : List Restart := []
  wordAt   : Option Nat := none
  dramDiv  : Nat := 16
  deriving DecidableEq, Repr

/-- What start-up control holds beside the START and SYS registers (04_start_up.md). `good` are the main supplies above
their good thresholds; `resetHigh` is the RESET_N ball after its filter; `intervalOn` is the analogue interval of R78
running. `attempts` and `stage` follow DRAM training (R85). `heldAt` is the hold point in force, 0 none (R93), and
`readyToRun` whether RUNNING would begin. `stopped` holds while EVENT_N is asserted by R43, R85 or R87. `failedSlots`
are the firmware slots that failed since the last RUNNING. `warm` is the cause of a warm reset that waits for the
transmissions on air (R95). `fromWarm` says that the BOOT in progress follows a warm reset. `serviceAt` is the MAC
time base at SERVICE entry (R91), `heldFrom` the start of a hold, `bootAt` and `loadAt` that of BOOT and of PRICKING_LOAD; `sampler` that
BOOT leads to SAMPLER (R439); `extBad` that the customer image was rejected (R466); `cause` is the cause of the next exit from UNPOWERED;
`attemptAt` the start of the DRAM training attempt; `outputs` that Table 04.3 has been released (R92). -/
structure StartUp where
  vbat        : Bool := false
  vbatFresh   : Bool := false
  good        : List Nat := []
  resetHigh   : Bool := true
  intervalOn  : Bool := false
  attempts    : Nat := 0
  stage       : Nat := 0
  heldAt      : Nat := 0
  stopped     : Bool := false
  failedSlots : List Nat := []
  warm        : Option Nat := none
  fromWarm    : Bool := false
  benchWait   : Bool := false
  serviceAt   : Nat := 0
  calDone     : List Nat := []
  cause       : Nat := 1
  attemptAt   : Nat := 0
  heldFrom    : Option Nat := none
  outputs     : Bool := false
  bootAt      : Nat := 0
  loadAt      : Nat := 0
  sampler     : Bool := false
  extBad      : Bool := false
  deriving DecidableEq, Repr

/-- An upstream port (05_link_ports.md). `paused`: the end of a received pause by priority, 8 for the 802.3x pause (R108);
`sent`: the priorities whose condition was last sent as on, 8 for the pause, and when each was sent last (R107); `discards`:
the pause and PFC frames and entries that R106 and R108 count; `mode`: the flow control that the last training put in force;
`ql`: the SSM code of the last ESMC PDU, none when QL-FAILED, and when it came (R130). -/
structure UplPort where
  paused : Store Nat := []
  sent   : List Nat := []
  sentAt : Store Nat := []
  discards : Nat := 0
  mode   : Nat := 0
  ql     : Option Nat := none
  qlAt   : Nat := 0
  deriving DecidableEq, Repr

/-- The tie link's training (R111, R112): the start of the phase, for phase 1 the block lock; the last ROLE block and how often
it has come in a row; whether ACK has been sent; the transmit coefficients pre, main and post, and the status last reported
for each; the consecutive blocks with RX_READY sent and received, up to 16. -/
structure TieLink where
  since  : Nat := 0
  blk    : Option RoleBlk := none
  same   : Nat := 0
  ack    : Bool := false
  coef   : List Int := [0, 0, 0]
  report : List Nat := [0, 0, 0]
  ready  : Nat := 0
  peerReady : Nat := 0
  deriving DecidableEq, Repr


/-- A PTP domain (06_network_time.md). `deviates`: consecutive deviating measurements; `base`: in quarter nanoseconds,
what the offsets of the domain are judged from before the step of R133; `offset` the last offset, which TIME_DOMd_OFFSET
shows where it fits; `rawMs` the last Sync's arrival minus its
origin; `syncAt` the arrival stamp of a two-step Sync that waits for its Follow_Up; `reqAt` the departure stamp of the
last Delay_Req or Pdelay_Req; `refer` what the domain unfreezes against (R139): 0 none, 1 or 2 a domain, 3 the peer;
`frozenAt` since when it is frozen or has had no reference; `interval` the transmitter's logMinDelayReqInterval and `sentAt`
when the last request left (R127). -/
structure Domain where
  deviates : Nat := 0
  base     : Option Int := none
  offset   : Option Int := none
  rawMs    : Option Int := none
  syncAt   : Option Int := none
  reqAt    : Option Int := none
  refer    : Nat := 0
  frozenAt : Nat := 0
  interval : Option Int := none
  sentAt   : Option Nat := none
  deriving DecidableEq, Repr

/-- What the time unit holds beside the TIME registers. Device time at MAC time base `anchorTb` was `anchor`, in units of
2^-32 cyc, so that a rate of TIME_RATE.RATE is exact (R131). `started`: SERVICE has been entered (R132). `waitDone`:
LOCK_WAIT_S has elapsed since RUNNING at `runAt`; `ebByWait`: an Enhanced Beacon has gone out under it alone (R133).
`step` is the pending step of R133: the domain and the MAC time base of the target boundary. `slewing`: ACCEPT adopted
the offset (R135). `peerAt` and `peerOk` describe the last TIME frame of the peer, `echo` its TX and its arrival
(R140), `peerOff` the offset it gave in quarter nanoseconds, which TIME_PEER shows where it fits; `peer` what it said;
`stdbySet` that a standby unit has set its mesh time (R141); `holds` that R139 has found no reference and RATE is held;
`mgmt` counts discarded PTP management messages (R127). -/
structure TimeUnit where
  anchorTb  : Nat := 0
  anchor    : Int := 0
  started   : Bool := false
  runAt     : Nat := 0
  waitDone  : Bool := false
  ebByWait  : Bool := false
  step      : Option (Nat × Nat) := none
  slewing   : Bool := false
  dom1      : Domain := {}
  dom2      : Domain := {}
  peerAt    : Option Nat := none
  peerOk    : Bool := false
  peerOff   : Option Int := none
  echo      : Nat × Nat := (0, 0)
  peer      : Option TimeFrame := none
  stdbySet  : Bool := false
  holds     : Bool := false
  mgmt      : Nat := 0
  deriving DecidableEq, Repr

/-- An entry of the address hash (R341): KEY as a number, octet 0 the most significant; TYPE; the node index. -/
structure HashEntry where
  key  : Nat
  typ  : Nat
  node : Nat
  deriving DecidableEq, Repr

/-- One port of a learned path entry (Table 15.4); `obs` numbers the observation that wrote it last. -/
structure Port where
  valid : Bool := false
  rssi  : Int := 0
  ts    : Nat := 0
  chan  : Nat := 0
  est   : Bool := false
  obs   : Nat := 0
  deriving DecidableEq, Repr

/-- A learned path entry (R352). -/
structure Lpt where
  node  : Nat
  best  : Option Nat
  ports : List Port
  deriving DecidableEq, Repr

/-- A port write that waits for its CCM* verdict (R353): entry, port, observation number, what stood there before. -/
structure LptUndo where
  entry : Nat
  port  : Nat
  obs   : Nat
  old   : Port
  deriving DecidableEq, Repr

/-- What the table engine holds beside the GROUND registers (15_ground_tables.md): the seeds of the live and the alternate
table, the two banks of the stash, the oldest entry first; the transit register; the command FIFO as block addresses
with whether a customer-hoop bobbin wrote them; the block of a REHASH that runs; the learned path table, its
observation count; how often each node's key has changed (R336). -/
structure Ground where
  seed0    : Nat := 0
  seed1    : Nat := 0
  alt0     : Nat := 0
  alt1     : Nat := 0
  stash    : List HashEntry := []
  altStash : List HashEntry := []
  transit  : Option HashEntry := none
  fifo     : List (Nat × Bool) := []
  rehash   : Option Nat := none
  entries  : Nat := 0
  lpt      : Store Lpt := []
  obs      : Nat := 0
  keyEpoch : Store Nat := []
  sweptAt  : Option Nat := none
  deriving DecidableEq, Repr

/-- A transmit descriptor (Table 09.1). `reserved`: a byte or bit that the table gives as 0 is not 0. `wus` is the length
of the CSL wake-up sequence that the MAC puts before the frame (R253), 0 in every other command. `psdu`: the octets, FCS
excluded, that the MAC hands over with a command of its own, whose place in shared SRAM the spec leaves open; in every
other command they stand at BUF. -/
structure TxDesc where
  tDep     : Nat
  slack    : Nat
  tag      : Nat
  kind     : Nat
  flags    : Nat
  phy      : Nat
  power    : Nat
  chanKhz  : Nat
  buf      : Nat
  len      : Nat
  reserved : Bool
  wus      : Nat := 0
  psdu     : List Nat := []
  deriving DecidableEq, Repr

/-- A member of a transmission: its descriptor, its airtime, its departure and last symbol once they are planned, the
power fixed at its commit and whether that was clipped (R159, R209); TRXn_WAKE.RATE and PRE_BITS as it was planned. -/
structure TxMember where
  desc    : TxDesc
  air     : Nat
  dep     : Nat := 0
  fin     : Nat := 0
  power   : Nat := 0x80
  clipped : Bool := false
  commit  : Bool := false
  rate    : Nat := 0
  pre     : Nat := 0
  deriving DecidableEq, Repr

/-- A command in a shuttle's plan, or the transmission it has launched (R199, R202): its members, the first one the
command's own; a braid's BUDGET; its place in the order of acceptance; whether its departure has been planned. -/
structure TxCmd where
  members : List TxMember
  budget  : Nat
  braid   : Bool
  order   : Nat
  planned : Bool := false
  deriving DecidableEq, Repr

/-- A transceiver and its shuttle (07_radio_front_end.md, 09_transmit.md). `step`: the step in progress as the state it
ends in and its end. `next`: a target written during a step, which takes the old one's place when the step ends (R150).
`cal`: 1 a calibration on request lies on the way to the target, 2 the start-up calibration, 3 the latter failed and the
transceiver goes to SLEEP to be gated (R90).
`relock`: the step is the relock of R154. `plan`: the commands not launched; `onAir` the transmission between its
launch and the end of its last symbol. `ending`: an early end that waits for the symbol boundary, as its status and the
boundary (R206). `ends`: departure and end of the last members that ended early. `held`: completion records that wait for
a credit (R297). `siFrom`, `siTo`: the interval of R166 that this transceiver causes on the other one of its band;
`siPast` the earlier ones that a reception or carrier sense under way may have met. `coex`, `prio`: the request and the priority of the
transmission on air are up; `coexNext` the request of the head of the plan, by its order, with its priority. `up`:
FEM_PA_EN has risen for the transmission on air; `lag` the PA_LAG fixed at its commit (R162). `bgRuns`, `bgAt`: the
background calibration cycle and its start; `bgLast`, `bgPathB` the end and the path of its last step (R158). `clipA`,
`clipB`: the last clip of each path (R183); `winA`, `winB` the start of its measurement window (R181). -/
structure Trx where
  step    : Option (Nat × Nat) := none
  next    : Option Nat := none
  cal     : Nat := 0
  relock  : Bool := false
  plan    : List TxCmd := []
  onAir   : Option TxCmd := none
  ending  : Option (Nat × Nat) := none
  ends    : List (Nat × Nat) := []
  held    : List (List Byte) := []
  orders  : Nat := 0
  siFrom  : Nat := 0
  siTo    : Nat := 0
  siPast  : List (Nat × Nat) := []
  coex    : Bool := false
  prio    : Bool := false
  coexNext : Option (Nat × Bool) := none
  up      : Bool := false
  lag     : Option Nat := none
  bgRuns  : Bool := false
  bgAt    : Option Nat := none
  bgLast  : Nat := 0
  bgPathB : Bool := false
  clipA   : Option Nat := none
  clipB   : Option Nat := none
  winA    : Nat := 0
  winB    : Nat := 0
  deriving DecidableEq, Repr

/-- A reception from its sync point on. `task`: the receive task that holds its note, by store index. `fin` is the end of
its last symbol, known with its header. `done`: the outcome it ended with (Table 08.6). `fcs` is the FCS verdict. The
rest is the receive pipeline's (R17, R233): the MAC header, its PAN, the first header check that failed, whether the
lookup has been answered and with which node, whether the record stands in pin 2 and the key epoch it was read under, the CCM* context, whether the unwrap
failed, the CCM* verdict, what the frame says about its node's clock, what teaching the learned path table replaced.
`chan`, `phy`: the lane's channel and mode at the sync point; `taps`: the channel taps of an OFDM lane (R189). -/
structure Rx where
  lane     : Nat
  task     : Option Nat
  ts       : Nat
  path     : Nat
  rssi     : Int
  diff     : Int
  cfo      : Int
  len      : Nat := 0
  phrInfo  : Nat := 0
  fin      : Nat := 0
  known    : Bool := false
  buf      : Option Nat := none
  done     : Nat := 0
  fcs      : Option Bool := none
  hdr      : Option MacHdr := none
  clock    : ClockIe := {}
  pan      : Option Nat := none
  badHdr   : Nat := 0
  looked   : Bool := false
  node     : Nat := 262143
  record   : Bool := false
  epoch    : Nat := 0
  ctx      : Option Nat := none
  noKey    : Bool := false
  ccm      : Option Bool := none
  undo     : List LptUndo := []
  cell     : Nat := 0
  chan     : Nat := 0
  phy      : Nat := 0
  taps     : List (Int × Int) := []
  deriving DecidableEq, Repr

/-- A demodulation lane (08_wideband_receive.md). `rx` is its present reception by number; `chan` a channel change that
waits for IDLE; `bind` a plan binding that waits for IDLE, `window` the one in force, both as channel, window opening and
closing, and cell flags; `open_` that the window is open; `idleA`, `idleB` the last four idle windows of each path, the
newest first; `offset` the digital channel offset in steps of R168. -/
structure Lane where
  rx      : Option Nat := none
  chan    : Option Nat := none
  bind    : Option (Nat × Nat × Nat × Nat) := none
  window  : Option (Nat × Nat × Nat × Nat) := none
  open_   : Bool := false
  idleA   : List Int := []
  idleB   : List Int := []
  offset  : Int := 0
  deriving DecidableEq, Repr

/-- The radio: transceivers and lanes by number, receptions by a number that counts on. -/
structure Radio where
  trxs  : Store Trx := []
  lanes : Store Lane := []
  rxs   : Store Rx := []
  next  : Nat := 0
  deriving DecidableEq, Repr

/-- A transmit request (Table 10.4). `reserved`: a byte or bit that the table gives as 0 is not 0. -/
structure TxReq where
  node     : Nat
  pan      : Nat
  ar       : Bool
  fp       : Bool
  tag      : Nat
  buf      : Nat
  len      : Nat
  sec      : Nat
  key      : Nat
  deadline : Nat
  power    : Nat
  phy      : Nat
  chan     : Nat
  reserved : Bool
  deriving DecidableEq, Repr

/-- What a pending frame is doing: it waits, backs off, senses the carrier, has been issued to a shuttle, awaits its
acknowledgement, has completed and holds its completion record for want of a credit (R297). -/
inductive FrameState where
  | waiting | backoff | sense | issued | ackWait | complete
  deriving DecidableEq, Repr

/-- The clock model of a sleepy node (R248): the fields ANCHOR, O_BASE, DRIFT, U_A and SPREAD of its sleep state. -/
structure NodeModel where
  anchor : Nat
  oBase  : Int
  drift  : Int
  uA     : Nat
  spread : Nat
  deriving DecidableEq, Repr

/-- A frame of the pending store (R225): its request; its sequence number, none when suppressed; `counter` the outbound
counter it is secured under, none while it has to be secured (anew); attempts on air and resends that count as retries;
when its present state ends; the last departure; whether the duty account holds it (R231); its CSMA-CA or TSCH back-off
as exponent, back-offs used, shared cells still to skip; the transceiver it was issued on and the cell's options; the
shift a steered transmission applied (R249); `keepAlive` one of the scheduler's own (R251), with its own MPDU in `plain`;
`octets` the frame as it goes on air, FCS excluded, from its first issue until it has to be secured anew; `model` the node's
clock model when it was issued (R250); `status` once complete. -/
structure Frame where
  req     : TxReq
  seq     : Option Nat := none
  state   : FrameState := .waiting
  counter : Option Nat := none
  tries   : Nat := 0
  resends : Nat := 0
  until_  : Nat := 0
  sent    : Nat := 0
  held    : Bool := false
  be      : Nat := 0
  nb      : Nat := 0
  skip    : Nat := 0
  trx     : Nat := 0
  shared  : Bool := false
  shift   : Option Int := none
  keepAlive : Bool := false
  plain   : List Nat := []
  octets  : List Nat := []
  model   : Option NodeModel := none
  status  : Nat := 0
  deriving DecidableEq, Repr

/-- What a command of the MAC's on a shuttle sends: a pending frame, an Enhanced Beacon of a PAN, the acknowledgement of a
reception by its number, a call to a node. -/
inductive CmdOf where
  | frame (id : Nat)
  | beacon (pan : Nat)
  | ack (rx : Nat)
  | call (node : Nat)
  deriving DecidableEq, Repr

/-- How the MAC secures a frame that carries a picot, between its commit and its departure (R142): level, key, frame counter,
octets of header. -/
structure Seal where
  level   : Nat
  key     : Nat
  counter : Nat
  hdr     : Nat
  deriving DecidableEq, Repr

/-- A command of the MAC's on a shuttle, by its TAG: what it sends, its transceiver, the airtime it has reserved and in
which bucket of the duty account, the Time Correction that its picot asks for (R142), whether it exceeds its braid's
budget (R240), the observation that its acknowledgement completes: node, time, offset (R249); how its frame is secured once
its picot stands in it; the node and PAN that a CSL wake-up sequence before it wakes. -/
structure MacCmd where
  of     : CmdOf
  trx    : Nat
  air    : Nat
  bucket : Nat
  tc     : Option Int := none
  excess : Bool := false
  obs    : Option (Nat × Nat × Int) := none
  sealed : Option Seal := none
  wakes  : Option (Nat × Nat) := none
  deriving DecidableEq, Repr

/-- An acknowledgement owed (R237, R238): the reception it answers and its number, node and PAN, channel, mode and descriptor flags,
its nominal departure and how far that may slide, its octets before securing and without FCS, its FCS octets, the Time
Correction it carries, in µs, how it is secured if it is (the counter is taken as it is issued), and the observation that it
completes. -/
structure Owed where
  rx      : Nat
  trx     : Nat
  node    : Nat
  chan    : Nat
  phy     : Nat
  flags   : Nat
  nominal : Nat
  slide   : Nat
  body    : List Nat
  fcs     : Nat
  tc      : Option Int
  sealed  : Option Seal
  obs     : Option (Nat × Nat × Int)
  deriving DecidableEq, Repr

/-- A cell as the engine reads it from a row (Table 10.3), with the slotframe handle, the PAN and its place in the chain. -/
structure Cell where
  handle : Nat
  pan    : Nat
  pos    : Nat
  choff  : Nat
  opt    : Nat
  trx    : Nat
  mode   : Nat
  node   : Nat
  deriving DecidableEq, Repr

/-- What a transceiver transmits in a slot (R222): the cell, the channel and mode, what it sends, the lane that serves its
acknowledgement window, the shift of a steered transmission (R252). -/
structure TxCell where
  trx    : Nat
  cell   : Cell
  chan   : Nat
  phy    : Nat
  of     : CmdOf
  ackLane : Nat
  shift  : Option Int := none
  deriving DecidableEq, Repr

/-- A lane's binding for a slot (R222, R223): lane, channel, opening and closing as MAC time base, cell flags of Table 10.6. -/
structure Bind where
  lane  : Nat
  chan  : Nat
  open_ : Nat
  close : Nat
  flags : Nat
  deriving DecidableEq, Repr

/-- The lane plan of a slot (R221 to R223). `cells`: what every RX cell and acknowledgement window of the slot listens for, as
transceiver, channel, mode and cell flags of Table 10.6. -/
structure SlotPlan where
  binds : List Bind := []
  txs   : List TxCell := []
  cells : List (Nat × Nat × Nat × Nat) := []
  deriving DecidableEq, Repr

/-- A carrier-sense interval (R228): what it serves, its channel, its beginning and end; for a TSCH cell its ASN. -/
structure Sense where
  of    : CmdOf
  chan  : Nat
  dur   : Nat
  from_ : Nat := 0
  until_ : Nat := 0
  slot  : Option Nat := none
  deriving DecidableEq, Repr

/-- A braid that the MAC has opened (R239): its first departure, its budget, the members issued, the end of its occupancy
as reserved; its bucket of the duty account and the latest end among the members that have completed (R231). -/
structure Braid where
  dep    : Nat
  budget : Nat
  count  : Nat
  fin    : Nat
  bucket : Nat
  done   : Nat := 0
  deriving DecidableEq, Repr

/-- The MAC (10_slots_and_access.md): the pending store by submission number; its commands on the shuttles by TAG, and those
it holds for want of a credit as transceiver, TAG, latest departure and descriptor (R297); airtime
per band profile and bucket (profile × 2^48 + bucket) and the profiles at their limit; the end of OFF_MS per transceiver;
the Enhanced Beacons due and the slot of the last one, by PAN × 4 + transceiver; the counter shadow by node, as the
counter and the commits it still waits for (R235); the cache of unsecured frames as source, sequence number, time; the
acknowledgements owed; the braid cut that is planned and the braid that is open, per transceiver; the carrier senses, by
transceiver × 2 + tap, and those that wait for a tap or for RX, with their transceiver; the slot in progress and the lane plans by slot;
the slot in which a transceiver last transmitted in a cell (R241); for a node whose commits are written, the receptions whose
record read had started before (R235); the receptions that ended other than complete, by status word (R195). -/
structure Mac where
  frames  : Store Frame := []
  nextId  : Nat := 0
  cmds    : Store MacCmd := []
  nextTag : Nat := 0
  held    : List (Nat × Nat × Nat × List Byte) := []
  duty    : Store Nat := []
  atLimit : List Nat := []
  off     : Store Nat := []
  ebDue   : List Nat := []
  ebLast  : Store Nat := []
  shadow  : Store (Nat × Nat) := []
  dups    : List (Nat × Nat × Nat) := []
  owed    : List Owed := []
  cuts    : Store Nat := []
  braids  : Store Braid := []
  senses  : Store Sense := []
  senseWait : List (Nat × Sense) := []
  slot    : Option Nat := none
  plans   : Store SlotPlan := []
  txSlots : Store Nat := []
  shadowReads : Store (List Nat) := []
  rxStats : Store Nat := []
  deriving DecidableEq, Repr

/-- A node's call by wake keying (R255): when the present wait ends, none before the call has left; whether a keep-alive
follows the wait and is under way. -/
structure Call where
  until_ : Option Nat := none
  issued : Bool := false
  alive  : Bool := false
  deriving DecidableEq, Repr

/-- What the scheduler has decided for a node's next opportunity (R252, R253): the ladder level; a TSCH leaf's slot, or a CSL
node's departure with the wake-up sequence before it; the applied shift, o + s. -/
structure Act where
  level : Nat
  slot  : Option Nat := none
  dep   : Nat := 0
  wus   : Nat := 0
  shift : Int := 0
  deriving DecidableEq, Repr

/-- What the device has learned of a CSL node's schedule (R247): a sample instant, the period in cyc, the phase unit in cyc,
channel, mode, transceiver and PAN of the frame that declared it. -/
structure Csl where
  at_    : Nat
  period : Nat
  unit_  : Nat
  chan   : Nat
  phy    : Nat
  trx    : Nat
  pan    : Nat
  deriving DecidableEq, Repr

/-- A T3 entry (R258, R288): the ASN it is keyed by, its place in the order of writing, whether it is in the head cache. -/
structure Wake where
  key   : Nat
  order : Nat
  onDie : Bool
  deriving DecidableEq, Repr

/-- The sleepy-node scheduler (11_sleepy_nodes.md). The sleep states stand in the node records. `t3` is the T3 list by node,
`writes` how many entries have been written; `acts` what it has decided; `early` the nodes to resynchronise at the next
opportunity; `fresh` those whose drift estimate starts anew; `links` the registered links; `sweep` the place in the
widening sweep; the calls; the CSL schedules; the next node of the rebuild (R260); the slot, the expiries handled in
it and the nodes whose expiry was deferred in it (R259). -/
structure Sleep where
  t3       : Store Wake := []
  writes   : Nat := 0
  acts     : Store Act := []
  early    : List Nat := []
  fresh    : List Nat := []
  links    : List (Nat × Nat) := []
  sweep    : Store Nat := []
  calls    : Store Call := []
  csl      : Store Csl := []
  rebuild  : Option Nat := none
  loadSlot : Nat := 0
  loadNow  : Nat := 0
  deferred : List Nat := []
  deriving DecidableEq, Repr

/-- A queue entry (Table 13.2). `item` is the item itself where a unit of the device wrote it and the spec does not say at
which address: a descriptor of the MAC's, a completion record, a receive note's join copy. `vis` is the time from which the
consumer sees it (R295). -/
structure Entry where
  addr  : Nat
  len   : Nat
  flags : Nat
  src   : Nat
  tag   : Nat
  aux   : Nat
  item  : List Byte := []
  vis   : Nat := 0
  deriving DecidableEq, Repr

/-- One queue (13_queues.md). `entries`, the oldest first; `onDie` how many of the oldest are on-die when the queue has
MEM 1 (R295); `credits` what each producer may spend and `returning` the times from which those on their way back count
(R296); `dropping` the producers for which the queue is dropping (R299); `current` the producer of the consumer's current
packet (R298); `openPkt` the producers with a packet open; `losing` the receive endpoints of whose frame the first entry was
discarded (R297); `inAt` and `outAt` the fcyc from which it takes the next enqueue and gives the next dequeue (R295). -/
structure Queue where
  entries   : List Entry := []
  onDie     : Nat := 0
  above     : Bool := false
  credits   : Store Nat := []
  returning : Store (List Nat) := []
  dropping  : List Nat := []
  current   : Option Nat := none
  openPkt   : List Nat := []
  losing    : List Nat := []
  inAt      : Nat := 0
  outAt     : Nat := 0
  deriving DecidableEq, Repr

/-- A flash operation (R330): `op` 1 read, 2 program, 3 erase; `who` asked for it, 0 a register command, 1 KEY, 2 ROLE,
3 UPDATE; `data` what such a unit programs (a register command's data stand in memory at `buf`). -/
structure NandOp where
  who   : Nat
  op    : Nat
  page  : Nat
  count : Nat
  buf   : Nat
  data  : List Byte
  deriving DecidableEq, Repr

/-- A DRAM request (R320): `last` is the slot of its last chunk once it has its slots, `todo` the slots still to come with the
chunk that each carries, `got` what its chunks have read (R322). -/
structure DramReq where
  cls   : Nat
  write : Bool
  addr  : Nat
  chunks : Nat
  run   : Bool
  last  : Nat
  data  : List Byte
  todo  : List (Nat × Nat) := []
  got   : Store (List Byte) := []
  deriving DecidableEq, Repr

/-- What the memory system holds beside the MEM registers and the bytes themselves (14_memory.md): the packet buffers and
the receive buffers taken, by number; the flash operation in progress, the requests that wait for it (R330) and the pages whose mark shows them programmed;
the DRAM slots taken, the requests under way and those held during a restart of the DRAM clock (R69), the largest slot wait of each class, the pending switch to the
pricking's schedule (R324) and the time of each bank's last refresh (R323); the microcode stores of the shuttles, by
shuttle, and of the lattice engine (R86). -/
structure MemSys where
  pktTaken   : List Nat := []
  smallTaken : List Nat := []
  largeTaken : List Nat := []
  nand       : Option NandOp := none
  nandWait   : List NandOp := []
  programmed : List Nat := []
  slotsTaken : List Nat := []
  requests   : List DramReq := []
  held       : List DramReq := []
  maxWait    : Store Nat := []
  sched      : List Nat := []
  switchAt   : Option Nat := none
  refreshed  : Store Nat := []
  shuttleCode : Store (List Byte) := []
  latticeCode : List Byte := []
  deriving DecidableEq, Repr

/-- A pin of a task (R272): its cell in the matching store, whether it is filled and whether by reference (then `ref` is
the stored address), the timer armed on it, and when a fill is visible in it (R276). -/
structure Pin where
  cell   : Nat
  filled : Bool := false
  isRef  : Bool := false
  ref    : Nat := 0
  armed  : Option Nat := none
  seen   : Nat := 0
  deriving DecidableEq, Repr

/-- The states of a task (Table 12.3). -/
inductive TaskState where
  | waiting | ready | parked | prefetched | running
  deriving DecidableEq, Repr

/-- A result on its way to a queue: the queue and the entry (R282). -/
structure Posted where
  queue : Nat
  entry : Entry
  deriving DecidableEq, Repr

/-- What the receive pipeline writes into a node record when a receive task ends (R235, R336): the node, the counter, the key
epoch under which the record was read, LQI, RSSI as 16 bits, ASN. -/
structure Commit where
  node    : Nat
  counter : Nat
  epoch   : Nat
  lqi     : Nat
  rssi    : Nat
  asn     : Nat
  deriving DecidableEq, Repr

/-- A task (12_pillow.md). `flow` is the atomic flow's ID, none for a parallel task (Table 12.2); `ord` the ordered flow
and the sequence number (R280); `pins` in order; `ready` the ready time; `bobbin` where it is prefetched or runs;
`staged` its staged results, the first first; `record` its record buffer, `rxBuf` its receive buffer, `ctx` its CCM*
engine context, `lane` the lane of a hardware receive task, `commit` its counter commit; `passed` that the run limit was passed and counted; `puts` its staged puts so far and
`direct` that they go to the release port directly (R281). -/
structure Task where
  gen     : Nat
  entry   : Nat
  kind    : Nat
  flow    : Option Nat
  prio    : Nat
  ord     : Option (Nat × Nat)
  arg     : Nat
  pins    : List Pin
  state   : TaskState := .waiting
  ready   : Nat := 0
  bobbin  : Nat := 0
  staged  : List Posted := []
  record  : Option Nat := none
  rxBuf   : Option Nat := none
  ctx     : Option Nat := none
  lane    : Option Nat := none
  passed  : Bool := false
  puts    : Nat := 0
  direct  : Bool := false
  commit  : Option Commit := none
  deriving DecidableEq, Repr

/-- A bobbin (R264, R265): in its init run, held in reset, waiting to restart its init run after a fault; the run limit
its running task took at its start (R285) and when its first instruction begins (R279); the tasks ended on it; the results that
wait in its post buffer and the put that stalls on a full one (R283); `idleAt` the MAC time base since when it has no task in
service or prefetched (R67); `faultAt` when its init run faulted. -/
structure Bobbin where
  init    : Bool := true
  reset   : Bool := true
  faulted : Bool := false
  running : Option Nat := none
  pre     : Option Nat := none
  limit   : Nat := 0
  ended   : Nat := 0
  posts   : List Posted := []
  idleAt  : Nat := 0
  startAt : Nat := 0
  faultAt : Nat := 0
  stalled : Option Posted := none
  deriving DecidableEq, Repr

/-- An ordered flow (R280, R281): the next sequence number and the oldest one not released, both counted on without
wrapping, and what the tasks that have ended leave to release, by sequence number. -/
structure OrdFlow where
  next   : Nat := 0
  oldest : Nat := 0
  done   : List (Nat × Nat × List Posted) := []
  deriving DecidableEq, Repr

/-- A timer entry of T0, T1 or T2 (R286): its generation, the task and pin it fills, its deadline tick. An entry that has
expired or was cancelled keeps its generation and the way it ended. -/
structure Timer where
  gen   : Nat
  task  : Nat
  pin   : Nat
  tick  : Nat
  order : Nat
  live  : Bool
  fired : Bool
  deriving DecidableEq, Repr

/-- What the pillow holds beside the PILLOW registers (12_pillow.md): the tasks by store index and the generation of each
index (R269), the pins and record buffers taken, the bobbins, the atomic entries by flow (R278), the ordered flows,
the timers of T0 to T2 by list and entry, the bobbin the release port served last and the fcyc from which it takes the next
entry (R283); the cyc after each hoop's last placement (R279) and after each list's last fill (R286). T3 is the sleepy-node
scheduler's. -/
structure Pillow where
  tasks      : Store Task := []
  gens       : Store Nat := []
  pins       : List Nat := []
  records    : List Nat := []
  bobbins    : Store Bobbin := []
  atomics    : List Nat := []
  ords       : Store OrdFlow := []
  timers     : Store Timer := []
  armedCount : Nat := 0
  lastServed : Nat := 15
  portAt     : Nat := 0
  placeAt    : Store Nat := []
  fillAt     : Store Nat := []
  deriving DecidableEq, Repr

/-- A key slot (R405, R406): its attribute word and its key material as a number (an AES or KMAC key, or a seed). -/
structure KeySlot where
  attr : Nat
  mat  : Nat
  deriving DecidableEq, Repr

/-- An entry of the key engine's queue: a command block in memory, or a call of /cmp/svc/key with its ticket (R408). -/
inductive KeyReq where
  | blk (addr : Nat)
  | call (ticket : Nat) (b : KeyBlk)
  deriving DecidableEq, Repr

/-- A blob of the key store (R417): GEN, DESTROY_PENDING, and its records as (slot, attribute word, key material). -/
structure KeyBlob where
  gen     : Nat
  pending : Bool
  records : List (Nat × Nat × Nat)
  deriving DecidableEq, Repr

/-- A key-store area: whether its first page begins with the blob MAGIC, and the blob it holds once its MIC page is
programmed (R403, R417). -/
structure KeyArea where
  magic : Bool := false
  blob  : Option KeyBlob := none
  deriving DecidableEq, Repr

/-- A write to a key-store area in progress or to come (R418): `blob` none only erases. `page` 0 is the erase, k the
program of page k − 1; `again` that the operation is being repeated. -/
structure KeyWrite where
  area  : Nat
  blob  : Option KeyBlob
  page  : Nat := 0
  again : Bool := false
  deriving DecidableEq, Repr

/-- A key command that waits for the key store (R410): what ends with it, the writes still to come, the slot it created or
its RESULT. -/
structure KeyJob where
  req     : KeyReq
  op      : Nat
  result  : Nat
  writes  : List KeyWrite
  deriving DecidableEq, Repr

/-- What the key engine and the tamper logic hold beside their registers (18_keys_and_tamper.md): the owner root; the
slots; the command queue and the command in progress; the two areas, the newest GEN and its area; the CCM* contexts
taken (256 × engine + context) and the tasks that wait for one; BOOT's own blob write of R419 is a job without a
command. Of the tamper logic: the sources that have raised an event and are still active, and an event that has yet to
reach the core (R422). -/
structure Keys where
  root     : Nat := 0
  slots    : Store KeySlot := []
  fifo     : List KeyReq := []
  job      : Option KeyJob := none
  bootJob  : List KeyWrite := []
  area0    : KeyArea := {}
  area1    : KeyArea := {}
  gen      : Nat := 0
  newest   : Nat := 0
  ctxs     : List Nat := []
  waiters  : List Nat := []
  quiet    : List Nat := []
  coreDue  : Bool := false
  deriving DecidableEq, Repr

/-- A credential record of the role store (R429): its role, its digest, its public key. -/
structure Cred where
  role     : Nat
  digest   : Nat
  pubKey   : Nat
  pricking : Bool
  deriving DecidableEq, Repr

/-- A half-open handshake (R431): the credential digest, the nonces, the ephemeral key pair, when step 2 was sent. -/
structure Handshake where
  digest  : Nat
  nonce   : Nat
  ownNonce : Nat
  secret  : Nat
  sentAt  : Nat
  deriving DecidableEq, Repr

/-- An event on its way to an observer (R126): block number, register offset, bits, MAC time base, sequence number. -/
structure Event where
  block  : Nat
  offset : Nat
  bits   : Nat
  tb     : Nat
  seq    : Nat
  deriving DecidableEq, Repr

/-- An open session (R431, R432): its role, the digest of its credential, its last request, its OSCORE Master Secret; and what it
observes (R126): `tunnel`, its notifications go through the service port's tunnel. -/
structure Session where
  role      : Nat
  digest    : Nat
  lastReq   : Nat
  master    : Nat := 0
  observes  : Bool := false
  tunnel    : Bool := false
  queue     : List Event := []
  seq       : Nat := 0
  lost      : Nat := 0
  deriving DecidableEq, Repr

/-- What the role logic holds beside the ROLE registers (19_roles_and_audit.md): the role store; the enrolled records as
the settings generation keeps them; handshakes and sessions by number; the sampler visit count, the request bit, the
release state; of the audit log: the newest SEQ, the first 16 octets of the digest of the newest record, the open page
buffer as records of 64 octets, the closed page buffers, how many pages have been programmed in all, the first of them
still in the area, one more than the last checkpoint page among them, full event pages since the last checkpoint, the
SEQ of the first record since it, its own SEQ, whether one is due (R435). -/
structure Roles where
  creds     : List Cred := []
  stored    : Option (List Cred) := none
  shakes    : List Handshake := []
  sessions  : Store Session := []
  visits    : Nat := 0
  sampler   : Bool := false
  seq       : Nat := 0
  prev      : Nat := 0
  cur       : List (List Byte) := []
  closed    : List (List Byte) := []
  pages     : Nat := 0
  oldest    : Nat := 0
  covered   : Nat := 0
  sincePgs  : Nat := 0
  firstSeq  : Nat := 1
  ckptSeq   : Nat := 0
  due       : Bool := false
  deriving DecidableEq, Repr

/-- A CMP ticket (R122, R123): the role that made the call, the service and operation, and its result once ready, as the
values under each key; `cred`: the first four octets of the caller's credential digest, 0 for firmware. -/
structure Ticket where
  role   : Nat
  svc    : Nat
  op     : Nat
  ready  : Bool := false
  read   : Bool := false
  status : Nat := 0
  result : List (Nat × List Nat) := []
  cred   : Nat := 0
  deriving DecidableEq, Repr

/-- What pair operation holds beside the PAIR registers (20_pair.md): whether a cordonnet has been lost since the last
reset; when RUNNING began and when the peer was last heard; the renewals sent, by COUNT, as send time and EXTEND_US, the
newest granted extension; the lease end and the known end; the pair transport key, the peer's digest as its last HELLO
gave it; the journal of records not acknowledged, the next SEQ, the last SEQ applied from the peer; whether mirroring
runs; the node counters whose reservation waits for an acknowledgement (node: SEQ and the old OUT_END, R449) and the band
words of the journal region (node: M and the situation it was entered in), the nodes that the fix scan has
reached out of its order; the situation of Table 20.4 in force: 0 none, 1 with a stale peer, 2 stale takeover,
3 self-granted; the witness SEQs; when the Neighbor Advertisement is repeated; the next SEQ of each TYPE of Amrek frame;
when the last HELLO left; when the newest granted renewal was sent; the ephemeral secret of the key exchange;
`fresh`: the tie link has completed phase 3 and no resynchronisation has started since. -/
structure PairUnit where
  lost     : Bool := false
  runAt    : Option Nat := none
  heardAt  : Option Nat := none
  count    : Nat := 0
  sent     : Store (Nat × Nat) := []
  granted  : Nat := 0
  leaseEnd : Nat := 0
  knownEnd : Option Nat := none
  key      : Option Nat := none
  peerDigest : Option Nat := none
  peerEui  : Nat := 0
  journal  : List MirrorRec := []
  nextSeq  : Nat := 1
  applied  : Nat := 0
  mirrors  : Bool := false
  waits    : Store (Nat × Nat) := []
  bands    : Store (Nat × Nat) := []
  fixed    : List Nat := []
  situation : Nat := 0
  witTx    : Nat := 0
  witRx    : Nat := 0
  naAt     : Option Nat := none
  fresh    : Bool := false
  amrekSeq : Store Nat := []
  helloAt  : Option Nat := none
  grantedAt : Nat := 0
  kem      : Nat := 0
  deriving DecidableEq, Repr

/-- A slot record (Table 21.3), its lists indexed by slot, 0 A, 1 B. `settings`: the settings area of each slot. -/
structure SlotRec where
  primary  : Nat
  trial    : Nat
  gen      : Nat
  states   : List Nat
  tries    : Nat
  settings : List Nat
  windowS  : Nat
  versions : List Nat
  mdigs    : List Nat
  deriving DecidableEq, Repr

/-- A manifest entry (Table 21.2). -/
structure ManEntry where
  typ    : Nat
  unit_  : Nat
  dest   : Nat
  offset : Nat
  len    : Nat
  load   : Nat
  digest : Nat
  deriving DecidableEq, Repr

/-- A manifest (R463): its header fields, entries, digest; `signer` and `sigOk` of its signature block; `reservedOk`: every
octet that the tables give as 0 is 0. -/
structure Manifest where
  magic      : Nat
  format     : Nat
  hdrLen     : Nat
  totalLen   : Nat
  part       : Nat
  minRev     : Nat
  flags      : Nat
  rollback   : Nat
  version    : Nat
  settingsFmt : Nat
  entries    : List ManEntry
  digest     : Nat
  signer     : Nat
  sigOk      : Bool
  reservedOk : Bool
  deriving DecidableEq, Repr

/-- An update session (R469 to R471): its holder, none the peer, some the credential's digest; the manifest and its octets; per
entry the octets held, the last write's offset and data, octets that wait for their page; the last write's time; whether finish
waits for the peer (R478), with its ticket. -/
structure UpSession where
  holder  : Option Nat
  man     : Manifest
  raw     : List Byte := []
  held    : Store Nat := []
  lastOff : Store Nat := []
  lastDat : Store (List Byte) := []
  page    : Store (List Byte) := []
  at_     : Nat := 0
  waiting : Option Nat := none
  deriving DecidableEq, Repr

/-- What the update logic holds beside its registers (21_update.md): the slot record in force; the one-time-programmable
words of both anti-rollback counters; the session; FW_ROLLBACK of each slot's manifest; the credential that staged the
slot; whether the staged pricking keeps STRUCT_DIGEST; the start of the trial window and the time held in it; the time
of TRIAL_OK; the peer's last RESULT as digest and state; until when RESULT is sent and which state it says; a pair
activation that waits (R478): 1 for TRIAL_OK, 2 for the peer to be STANDBY; its window; the SEQ of the activation's
audit record; the settings area in force and what the other one holds, settings and role store; the next page of the
slot-record area (R467); when the last RESULT left. -/
structure UpdateUnit where
  rec_      : Option SlotRec := none
  fwWords   : List Nat := []
  prWords   : List Nat := []
  session   : Option UpSession := none
  rolls     : List Nat := [0, 0]
  stager    : Option Nat := none
  keepsSd   : Bool := true
  trialAt   : Option Nat := none
  heldCyc   : Nat := 0
  okAt      : Option Nat := none
  peer      : Option (Nat × Nat) := none
  resultTo  : Option Nat := none
  result    : Nat := 0
  pairWait  : Nat := 0
  windowS   : Nat := 0
  actSeq    : Nat := 0
  area      : Nat := 0
  other     : Store (List Nat) := []
  otherCreds : Option (List Cred) := none
  recAt     : Nat := 0
  resultAt  : Option Nat := none
  deriving DecidableEq, Repr


/-- What Ryurix knows of an upstream port (R363): its SLAAC prefixes (the upper 64 bits) and default routers (an address),
each with the MAC time base at which its lifetime ends, and the neighbour cache, the least recently used entry first. -/
structure NetPort where
  prefixes : List (Nat × Nat) := []
  routers  : List (Nat × Nat) := []
  neigh    : List Nat := []
  deriving DecidableEq, Repr

/-- What Ryurix keeps of a PAN's DODAG and joins (R370, R374, R380): the version; the trickle interval's doublings, its end
and when its DIO is due, none while the PAN has no prefix; the second of the last join and the joins in it. -/
structure PanRoot where
  version : Nat := 240
  doubled : Nat := 0
  ends    : Nat := 0
  dioAt   : Option Nat := none
  joinSec : Nat := 0
  joinNow : Nat := 0
  deriving DecidableEq, Repr

/-- A reassembly context (R367): node, datagram tag, datagram size, when its first fragment came, its fragments as offset
and octets. -/
structure Reasm where
  node  : Nat
  tag   : Nat
  size  : Nat
  at_   : Nat
  frags : List (Nat × List Byte)
  deriving DecidableEq, Repr

/-- A cell of the schedule database in slotframe 1 (R377): from and to as node indices, 262,143 the device, PAN, timeslot,
channel offset, its transceiver at the device's end. -/
structure SchedCell where
  src   : Nat
  dst   : Nat
  pan   : Nat
  slot  : Nat
  choff : Nat
  trx   : Nat
  deriving DecidableEq, Repr

/-- A group rekey (R382): the new slot, the deadline, the ticket, the nodes that have not acknowledged. -/
structure Rekey where
  slot     : Nat
  deadline : Nat
  ticket   : Nat
  nodes    : List Nat
  deriving DecidableEq, Repr

/-- An image of the library (R383): its length, digest, class mask, version, library blocks; whether its digest has been
checked. -/
structure Image where
  len     : Nat
  digest  : Nat
  mask    : Nat
  version : Nat
  blocks  : List Nat
  done    : Bool
  deriving DecidableEq, Repr

/-- A firmware campaign (R384 to R386). `phase`: 0 a pass sends, 1 a report window is open, 2 activation sent, 3
ended: only its result is kept, until its number is used again. `queue`: the
messages of the pass still to send, none the header, a number a block. `last`: the last interval's end; `windowEnd`;
`missing`: blocks reported in this window; `reported` that a report has come; `targets`; `done` the completed ones; `endAt`. -/
structure Campaign where
  pan       : Nat
  image     : Nat
  mask      : Nat
  bound     : Nat
  szx       : Nat
  blockMs   : Nat
  rounds    : Nat
  reportS   : Nat
  delayS    : Nat
  phase     : Nat := 0
  round     : Nat := 0
  queue     : List (Option Nat) := []
  last      : Nat := 0
  windowEnd : Nat := 0
  missing   : List Nat := []
  reported  : Bool := false
  targets   : List Nat := []
  done      : List Nat := []
  endAt     : Option Nat := none
  deriving DecidableEq, Repr

/-- What zone operation 7 shows of a PAN: reports taken and discarded, commands and entries sent, opportunities delayed. -/
structure ZoneStat where
  taken     : Nat := 0
  discarded : Nat := 0
  commands  : Nat := 0
  entries   : Nat := 0
  delayed   : Nat := 0
  deriving DecidableEq, Repr

/-- What a node or the host's network receives from Ryurix beside plain data. -/
inductive Ctl where
  /-- ICMPv6 Packet Too Big with an MTU, to upstream (R366). -/
  | tooBig (mtu : Nat)
  /-- ICMPv6 Destination Unreachable with a code, to upstream (R367). -/
  | unreachable (code : Nat)
  /-- A packet towards a node: first hop, bytes of its source routing header, compressed octets. -/
  | packet (node hop : Nat) (srh : List Byte) (octets : Nat)
  /-- A fragment of a datagram: node, datagram tag, offset and octets of its payload (R366). -/
  | fragment (node hop tag off octets : Nat)
  /-- A reassembled upstream datagram with the transmit queue it leaves by, the upper three bits of its Traffic Class
  (R365, R367). -/
  | upstream (port queue : Nat) (data : List Byte)
  /-- A reassembled datagram for another PAN of the unit: it does not leave the device, DOWNSTREAM_PACKET takes it on (R365). -/
  | between (data : List Byte)
  /-- EARO in a NA, or EDAC: a status for a node's registration (R368). -/
  | registered (edac : Bool) (node status : Nat)
  /-- A DIO of a PAN (R370, RFC 6550): version and rank, which is MinHopRankIncrease; RPLInstanceID; the octet with G 1, MOP 1;
  DODAGID, the device's address in the PAN prefix; of the DODAG configuration DIOIntervalMin, doublings, redundancy constant,
  OCP. -/
  | dio (pan version rank inst flags dodagId : Nat) (config : List Nat)
  /-- A DAO-ACK with a status (R371). -/
  | daoAck (node status : Nat)
  /-- An assignment to a node: generation and its slotframe-1 list as timeslot, channel offset, options, peer (Table 16.5). -/
  | assign (node gen : Nat) (cells : List (Nat × Nat × Nat × Nat))
  /-- A 6P response with a return code (R376). -/
  | sixp (node code : Nat)
  /-- A Join Response: node index, short address, link key, group key and index, JRC address (R379). -/
  | joined (pan node short linkKey groupKey keyIndex jrc : Nat)
  /-- A join refused with a CoAP code and Max-Age (R379, R380). -/
  | joinRefused (pan code maxAge : Nat)
  /-- A Link-Layer Key Set update to a node with the key of a slot (R382). -/
  | keySet (node slot : Nat)
  /-- A campaign's multicast: the header, a block, the activation ASN (R385), the first two with their payload (Table 16.5). -/
  | fwHeader (campaign : Nat) (payload : List Byte)
  | fwBlock (campaign block : Nat) (payload : List Byte)
  | fwActivate (campaign asn : Nat)
  /-- A CoAP response code to a node's request, with its payload. -/
  | coap (node code : Nat) (payload : List Byte)
  /-- A node's list of zones (R391). -/
  | zones (node : Nat) (list : List Nat)
  /-- A zone command message of a PAN: zone, sequence, level, fade (R397). -/
  | zoneCmd (pan : Nat) (entries : List (Nat × Nat × Nat × Nat))
  deriving DecidableEq, Repr

/-- What Ryurix keeps beside the tables in memory (16_border_router.md, 17_lighting_zones.md). `settings`: the settings it
has made by a number of the model's own, service × 2^24 + PAN × 2^16 + key × 2^8 + index; pledge entries from
2^31 up. `inUse`: the upstream port in use, `backAt` when the preferred port is returned to. `deleg`: the delegated
prefix as its 64 bits, its length, its end. `icmp`: the second and the ICMPv6 errors sent in it. `slots`: the
source-route slots in use with their owners, the least recently used first. `cells`: the schedule database;
`rows`: the continuation rows of a cell-table row, by the row's offset; `unacked`: nodes with an assignment not acknowledged; `gens`: assignment generations;
`waiting`: demands that wait; `short`: short assignments; `sixp`: the open 6P transactions as node and opening time.
`joins`: joins made; `refused`: joins refused by CoAP code; `answers`: cached join responses as EUI-64, message ID, end,
response. `lux`: the latest daylight report of a node as value and time stamp. -/
structure Ryurix where
  settings  : Store (List Nat) := []
  port0     : NetPort := {}
  port1     : NetPort := {}
  inUse     : Nat := 0
  backAt    : Option Nat := none
  deleg     : Option (Nat × Nat × Nat) := none
  roots     : Store PanRoot := []
  reasm     : List Reasm := []
  noContext : Nat := 0
  ipv4      : Nat := 0
  icmp      : Nat × Nat := (0, 0)
  tags      : Store Nat := []
  slots     : List (Nat × Nat) := []
  cells     : List SchedCell := []
  rows      : Store (List Nat) := []
  unacked   : List Nat := []
  gens      : Store Nat := []
  waiting   : List (Nat × Nat) := []
  short     : Nat := 0
  sixp      : List (Nat × Nat) := []
  joins     : Nat := 0
  refused   : Store Nat := []
  answers   : List (Nat × Nat × Nat × Ctl) := []
  rekeys    : Store Rekey := []
  images    : Store Image := []
  campaigns : Store Campaign := []
  zoneStats : Store ZoneStat := []
  lux       : Store (Nat × Nat) := []
  deriving DecidableEq, Repr


/-- What the block sends, drives or hands out. -/
inductive Msg where
  /-- A queue's consumer took this entry (R295). -/
  | entry (queue : Nat) (e : Entry)
  /-- A frame left on an upstream port: its buffer, its length, its FCS good or not (R300). -/
  | uplFrame (port addr len : Nat) (fcsOk : Bool)
  /-- A DRAM read delivered its last chunk. -/
  | dramRead (cls addr : Nat) (data : List Byte)
  /-- A bank was refreshed (R323). -/
  | refresh (bank : Nat)
  /-- A read of MEM_BUF took a packet buffer and returned its address, 0 when none was free (R327). -/
  | pktBuffer (addr : Nat)
  /-- A task instruction wrote its result word to rd (R276). -/
  | result (bobbin word : Nat)
  /-- A task started on a bobbin with these registers: pc, a0, a1, a2 to a5, a6, a7 (R277). -/
  | taskStart (bobbin : Nat) (regs : List Nat)
  /-- A task ended without service or in fault, with its status word (R270, R285, R291). -/
  | taskEnded (handle status : Nat)
  /-- A bobbin started its init run at local address 0 (R265). -/
  | initRun (bobbin : Nat)
  /-- A Delay_Req (`peer` false) or a Pdelay_Req left on a port with its origin time stamp; over UDP/IPv6 with the two octets that
  correct its checksum (R128, R142). -/
  | delayReq (port : Nat) (peer : Bool) (origin : Int) (pad : Option Nat)
  /-- A Pdelay_Resp left on a port with what was added to its correctionField: one-step the turnaround, else nothing; over
  UDP/IPv6 with the two octets that correct its checksum (R128, R142). -/
  | pdelayResp (port : Nat) (oneStep : Bool) (correction : Int) (pad : Option Nat)
  /-- The Pdelay_Resp_Follow_Up of a two-step Pdelay_Resp left on a port with the turnaround (R128). -/
  | pdelayFollowUp (port : Nat) (turnaround : Int)
  /-- Step 2 of a session set-up: encapsulation key, nonce, signature (Table 19.3). -/
  | sessionStep2 (ek nonce sig : Nat)
  /-- Step 4 of a session set-up: the session number. -/
  | sessionOpen (number : Nat)
  /-- A line of a transceiver goes to a level at a time: 0 FEM_PA_EN, 1 FEM_LNA_EN, 2 FEM_BYP, 3 FEM_ANT; 4 the request and 5 the priority of its coexistence set (R161 to R164). -/
  | line (trx line : Nat) (level : Bool) (at_ : Nat)
  /-- A radio transmission was committed: transceiver, generator, descriptor, departure edge, power in 0.5 dB steps, the value of its
  picot if it has one (R142), its channel's offset from the capture centre in steps of R168, and the PSDU with its FCS (R197). -/
  | radio (trx gen : Nat) (d : TxDesc) (dep : Nat) (power : Int) (picot : Option Int) (offset : Int) (psdu : List Nat)
  /-- A wake-keying frame was committed: transceiver, descriptor, departure edge, power, channel offset, the length of its chips in cyc
  and its chips, on or off (R212 to R216). -/
  | wake (trx : Nat) (d : TxDesc) (dep : Nat) (power : Int) (offset : Int) (chip : Nat) (chips : List Bool)
  /-- A CSL wake-up sequence goes before a frame: its wake-up frames as departure and PSDU with FCS (R244, R253). -/
  | wakeUp (trx : Nat) (frames : List (Nat × List Nat))
  /-- A transmission ended at this time, before its last symbol (R206). -/
  | radioCut (trx at_ : Nat)
  /-- A lease block left on the tie link: its block type and its seven octets (R442). -/
  | lease (octets : List Nat)
  /-- A witness datagram left on an upstream port, on transmit queue 7: its octets (R451). -/
  | witness (port : Nat) (octets : List Nat)
  /-- An Amrek frame left on the tie link, from its TYPE to its CRC-32 (R443): HELLO, MIRROR, MIRROR_ACK, TIME and the update
  frames of Table 21.6. -/
  | amrek (octets : List Nat)
  /-- KEYX frames left on the tie link: the device certificate, an encapsulation key and its signature (R454). -/
  | keyx (cert : List Nat) (ek sig : Nat)
  /-- KEYX frames left on the tie link: a ciphertext and its signature (R454). -/
  | keyxCipher (ct sig : Nat)
  /-- An unsolicited Neighbor Advertisement for the service addresses left on an upstream port (R450, R452). -/
  | naService (port : Nat) (addrs : List Nat)
  /-- What Ryurix sends to a node or to the upstream network. -/
  | ryurix (c : Ctl)
  /-- A pause or PFC frame left on a port: the priorities it carries (8 the 802.3x pause) and its quanta by priority (R107). -/
  | flow (port : Nat) (quanta : List (Nat × Nat))
  /-- A null message page answered a partner's next page (R102). -/
  | nullPage (port : Nat)
  /-- A port begins to send its Clause 73 base page: the 10GBASE-KR ability alone, its pause bits C1 C0, its FEC bits, request
  and ability (R102). -/
  | basePage (port pause fec : Nat)
  /-- An ESMC PDU with QL-DNU left on a port (R130). -/
  | esmc (port : Nat)
  /-- An Amrek training block left on the tie link: its octets after the sync header 0b10 (R110); ACQ blocks are sent until
  phase 1 ends. -/
  | tieBlock (octets : List Nat)
  /-- The service port's reply to a command, from the marker to the status word (R115). -/
  | svcReply (octets : List Nat)
  /-- A CoAP response code alone, as 100 times its class plus its detail: a request that failed OSCORE processing (R119),
  or an unknown path (R120). -/
  | cmpCode (code : Nat)
  /-- A CMP response: CoAP code as in `cmpCode`, status word, words, flags, further number (R120). -/
  | cmpReply (code status : Nat) (words : List Nat) (flags num : Nat)
  /-- A ready result of a ticket: a response with code 2.05 (R120). -/
  | cmpResult (status flags : Nat) (result : List (Nat × List Nat))
  /-- An event notification to a session: its status word, its sequence number or, once events were lost, the count of them
  (R126). -/
  | notify (session status : Nat) (e : Event) (lost : Nat)
  /-- Every output other than the lid-mesh drive went to high impedance (R79). -/
  | highZ
  /-- A flow-control pin is driven (R303, R489): asserted or not, and the level at its ball, none for high impedance. -/
  | fcp (pin : Nat) (on : Bool) (level : Option Bool)
  /-- A general-purpose output takes a level, or none when it is an input (R491). -/
  | gpio (pin : Nat) (level : Option Bool)
  deriving DecidableEq, Repr

/-- The service port (R115 to R118): the staging area's bytes that are not 0 and whether a chunk has been written since it
was zeroed; the commit in progress (check only or not); the status of the last write and the outcome of the last commit,
of which command 0x05 returns the one that `ofCommit` says came later; the tunnel's messages, the device's as what they
carry. -/
structure SvcPort where
  staging  : List Host.Cell := []
  written  : Bool := false
  commit   : Option Bool := none
  last     : Nat := 0
  outcome  : Nat := 0
  ofCommit : Bool := false
  inbound  : Option (List Byte) := none
  outbound : List Msg := []
  deriving DecidableEq, Repr

/-- A confirmable request that has been answered (R119): its sender, its message number, when it came, the messages that
answered it. The sender is a session's number; of a request to /cmp/session, 8 more than the number it ends, or 16 more than
the digest it names. -/
structure Answered where
  session : Nat
  mid     : Nat
  at_     : Nat
  reply   : List Msg
  deriving DecidableEq, Repr

/-- CMP (R119, R122): the tickets that exist, the number of the next one, the requests answered in the exchange lifetime. -/
structure Cmp where
  tickets  : Store Ticket := []
  next     : Nat := 1
  answered : List Answered := []
  deriving DecidableEq, Repr

/-- The state. `regs`: the register words by address, a bank of a selected register under its own key; `mem`: the bytes
of SRAM and DRAM that are not 0; `flash`: the octets of the flash that are not 0xFF; `pending`: the commands that
wait, first in, first out; `out`: everything the block has sent or driven, the newest first; `resp`: the status word
the last request got; `notes`: event notifications that wait to be queued for
sending, as event register, bit and MAC time base; `mtb`: the MAC time base (R4);
`freeIx`: how many free values have been used. -/
structure State where
  regs    : Store Word := []
  mem     : List Host.Cell := []
  flash   : List Host.Cell := []
  pending : List Instr := []
  out     : List Msg := []
  resp    : Nat := 0
  notes   : List (Nat × Nat × Nat) := []
  mtb     : Nat := 0
  freeIx  : Nat := 0
  pr      : Pricking := Pricking.none
  clk     : Clk := {}
  su      : StartUp := {}
  queues  : Store Queue := []
  ms      : MemSys := {}
  pl      : Pillow := {}
  gd      : Ground := {}
  tm      : TimeUnit := {}
  ky      : Keys := {}
  ro      : Roles := {}
  cmp     : Cmp := {}
  rd : Radio := {}
  mac : Mac := {}
  sl : Sleep := {}
  pa : PairUnit := {}
  ry : Ryurix := {}
  upl0 : UplPort := {}
  upl1 : UplPort := {}
  tie : TieLink := {}
  svc : SvcPort := {}
  up : UpdateUnit := {}
  deriving DecidableEq, Repr

/-- The block before power is applied: every register at its reset word (R10; 0 where the spec gives none), nothing in
memory, every table empty, no command waiting. -/
def State.reset : State := {}

end Sys2Proof.Machine
end

