-- ==== Sys2Proof/Machine/Status.lean ====
section
/-!
DEFINITION. The status words (R12, R13; Table 23.1 is their index), each under the spec's own name. A word that the
spec has once per upstream port or per transceiver takes the number of the port or transceiver.
-/
namespace Sys2Proof.Machine

/-- A status word from its class, block and detail (R12). -/
def statusWord (cls blk detail : Nat) : Nat := cls * 0x1000 + blk * 0x80 + detail

/-- The class of a status word (R12, Table 00.3). -/
def statusClass (w : Nat) : Nat := w / 0x1000

/-- The generic word ST_<BLOCK>_HIDDEN (R502, Table 23.2). -/
def stHidden (blk : Nat) : Nat := statusWord 3 blk 0x7F

/-- The generic word ST_<BLOCK>_NOT_CREATED (R502, Table 23.2). -/
def stNotCreated (blk : Nat) : Nat := statusWord 4 blk 0x7E

namespace ST

def OK : Nat := 0x0000  -- 00_scope.md
def SYS_RESET_STATE : Nat := 0x2001  -- 04_start_up.md
def CLK_TX_INHIBIT : Nat := 0x2081  -- 03_clock_root.md
def CLK_GATE_STATE : Nat := 0x2082  -- 03_clock_root.md
def CLK_RESTART_STATE : Nat := 0x2083  -- 03_clock_root.md
def CLK_SRC_UNQUAL : Nat := 0x2084  -- 03_clock_root.md
def CLK_GATED : Nat := 0x2085  -- 03_clock_root.md
def CLK_RANGE : Nat := 0x4081  -- 03_clock_root.md
def CLK_NOT_CREATED : Nat := 0x40FE  -- 03_clock_root.md
def CLK_PLL_FAULT : Nat := 0x8081  -- 03_clock_root.md
def START_BOOT_ROLLBACK : Nat := 0x2106  -- 04_start_up.md
def START_OPT_STATE : Nat := 0x210B  -- 04_start_up.md
def START_NOT_HALTED : Nat := 0x210C  -- 04_start_up.md
def START_READY_STATE : Nat := 0x210D  -- 04_start_up.md
def PRICKING_ROLLBACK : Nat := 0x2114  -- 02_pricking.md
def START_READY_ROLE : Nat := 0x310E  -- 04_start_up.md
def PRICKING_SIGNER : Nat := 0x3112  -- 02_pricking.md
def START_BOOT_FORMAT : Nat := 0x4104  -- 04_start_up.md
def START_BOOT_SIGNATURE : Nat := 0x4105  -- 04_start_up.md
def START_MODE_RESERVED : Nat := 0x410F  -- 04_start_up.md
def PRICKING_FORMAT : Nat := 0x4110  -- 02_pricking.md
def PRICKING_PART : Nat := 0x4111  -- 02_pricking.md
def PRICKING_SIGNATURE : Nat := 0x4113  -- 02_pricking.md
def PRICKING_RULE : Nat := 0x4115  -- 02_pricking.md
def START_RANGE : Nat := 0x4117  -- 04_start_up.md
def START_BOOT_TIMEOUT : Nat := 0x5107  -- 04_start_up.md
def START_LOAD_TIMEOUT : Nat := 0x5108  -- 04_start_up.md
def START_READY_TIMEOUT : Nat := 0x5109  -- 04_start_up.md
def START_ROOT_TIMEOUT : Nat := 0x8101  -- 04_start_up.md
def START_DRAM_FAIL : Nat := 0x8102  -- 04_start_up.md
def START_FLASH_READ : Nat := 0x8103  -- 04_start_up.md
def START_CAL_FAIL : Nat := 0x810A  -- 04_start_up.md
def PRICKING_READ : Nat := 0x8116  -- 02_pricking.md
def START_NO_IMAGE : Nat := 0x8118  -- 04_start_up.md
def UPL_ADMIN_ROOT (n : Nat) : Nat := 0x2181 + 0x80 * n  -- 05_link_ports.md
def UPL_RANGE (n : Nat) : Nat := 0x4182 + 0x80 * n  -- 05_link_ports.md
def UPL_TRAIN_FAIL (n : Nat) : Nat := 0x8183 + 0x80 * n  -- 05_link_ports.md
def TIE_STATE : Nat := 0x2283  -- 23_status_catalogue.md
def TIE_RANGE : Nat := 0x4282  -- 05_link_ports.md
def TIE_TRAIN_TIMEOUT : Nat := 0x5281  -- 05_link_ports.md
def TIME_EPOCH_STATE : Nat := 0x2301  -- 06_network_time.md
def TIME_ACCEPT_STATE : Nat := 0x2302  -- 06_network_time.md
def TIME_DOM_STATE : Nat := 0x2303  -- 06_network_time.md
def TIME_DOM_ABSENT : Nat := 0x4301  -- 06_network_time.md
def TIME_RANGE : Nat := 0x4302  -- 06_network_time.md
def TRX_STATE (n : Nat) : Nat := 0x2381 + 0x80 * n  -- 07_radio_front_end.md
def TX_STATE (n : Nat) : Nat := 0x2388 + 0x80 * n  -- 09_transmit.md
def TX_BRAID_CLOSED (n : Nat) : Nat := 0x238F + 0x80 * n  -- 09_transmit.md
def TRX_RANGE (n : Nat) : Nat := 0x4383 + 0x80 * n  -- 07_radio_front_end.md
def TX_RANGE (n : Nat) : Nat := 0x438A + 0x80 * n  -- 09_transmit.md
def TX_TOO_LONG (n : Nat) : Nat := 0x438B + 0x80 * n  -- 09_transmit.md
def TX_WAKE_OFF (n : Nat) : Nat := 0x438C + 0x80 * n  -- 09_transmit.md
def TX_BRAID_LIMIT (n : Nat) : Nat := 0x438D + 0x80 * n  -- 09_transmit.md
def TRX_COEX_LATE (n : Nat) : Nat := 0x5384 + 0x80 * n  -- 07_radio_front_end.md
def TX_LATE (n : Nat) : Nat := 0x5389 + 0x80 * n  -- 09_transmit.md
def TX_FENCE (n : Nat) : Nat := 0x5391 + 0x80 * n  -- 09_transmit.md
def TX_BRAID_LATE (n : Nat) : Nat := 0x5392 + 0x80 * n  -- 09_transmit.md
def TRX_COEX_ABORT (n : Nat) : Nat := 0x6385 + 0x80 * n  -- 07_radio_front_end.md
def TX_FLUSHED (n : Nat) : Nat := 0x6390 + 0x80 * n  -- 09_transmit.md
def TRX_CAL_FAIL (n : Nat) : Nat := 0x8386 + 0x80 * n  -- 07_radio_front_end.md
def TRX_SYN_UNLOCK (n : Nat) : Nat := 0x8387 + 0x80 * n  -- 07_radio_front_end.md
def TRX_BUSY (n : Nat) : Nat := 0x9382 + 0x80 * n  -- 07_radio_front_end.md
def TX_BRAID_BUSY (n : Nat) : Nat := 0x938E + 0x80 * n  -- 09_transmit.md
def LANE_RANGE : Nat := 0x4581  -- 08_wideband_receive.md
def LANE_BIND : Nat := 0x4582  -- 08_wideband_receive.md
def LANE_SPAN : Nat := 0x4583  -- 08_wideband_receive.md
def LANE_UNUSED : Nat := 0x4584  -- 08_wideband_receive.md
def LANE_PREEMPTED : Nat := 0x6581  -- 08_wideband_receive.md
def LANE_BLANKED : Nat := 0x6582  -- 08_wideband_receive.md
def LANE_PHR : Nat := 0x6583  -- 08_wideband_receive.md
def LANE_MODE : Nat := 0x6584  -- 08_wideband_receive.md
def LANE_NO_RESOURCE : Nat := 0x6585  -- 08_wideband_receive.md
def MAC_PEND_FULL : Nat := 0x1601  -- 10_slots_and_access.md
def MAC_STATE : Nat := 0x2601  -- 10_slots_and_access.md
def MAC_RANGE : Nat := 0x4601  -- 10_slots_and_access.md
def MAC_NOT_TSCH : Nat := 0x4602  -- 10_slots_and_access.md
def MAC_ROW : Nat := 0x4603  -- 10_slots_and_access.md
def MAC_TOO_LONG : Nat := 0x4604  -- 10_slots_and_access.md
def MAC_EXPIRED : Nat := 0x5601  -- 10_slots_and_access.md
def MAC_DUTY : Nat := 0x5602  -- 10_slots_and_access.md
def MAC_NO_ACK : Nat := 0x6601  -- 10_slots_and_access.md
def MAC_ACCESS_FAIL : Nat := 0x6602  -- 10_slots_and_access.md
def MAC_FLUSHED : Nat := 0x6603  -- 10_slots_and_access.md
def SLEEP_LINK_FULL : Nat := 0x1681  -- 11_sleepy_nodes.md
def SLEEP_NOT_TRACKED : Nat := 0x2681  -- 11_sleepy_nodes.md
def SLEEP_STATE : Nat := 0x2682  -- 11_sleepy_nodes.md
def SLEEP_RANGE : Nat := 0x4681  -- 11_sleepy_nodes.md
def SLEEP_NO_WAKE : Nat := 0x4682  -- 11_sleepy_nodes.md
def SLEEP_UNREACHABLE : Nat := 0x6681  -- 11_sleepy_nodes.md
def SLEEP_FLUSHED : Nat := 0x6682  -- 11_sleepy_nodes.md
def PILLOW_TASKS_FULL : Nat := 0x1701  -- 12_pillow.md
def PILLOW_PINS_FULL : Nat := 0x1702  -- 12_pillow.md
def PILLOW_NO_CREDIT : Nat := 0x1703  -- 12_pillow.md
def PILLOW_TIMER_FULL : Nat := 0x1704  -- 12_pillow.md
def PILLOW_ORDER_FULL : Nat := 0x1705  -- 12_pillow.md
def PILLOW_STAGE_FULL : Nat := 0x1706  -- 12_pillow.md
def PILLOW_PIN_FULL : Nat := 0x2701  -- 12_pillow.md
def PILLOW_PIN_ARMED : Nat := 0x2702  -- 12_pillow.md
def PILLOW_TIMER_FIRED : Nat := 0x2703  -- 12_pillow.md
def PILLOW_IN_SERVICE : Nat := 0x2704  -- 12_pillow.md
def PILLOW_HOOP_HELD : Nat := 0x2705  -- 12_pillow.md
def PILLOW_STATE : Nat := 0x2706  -- 12_pillow.md
def PILLOW_ROLE : Nat := 0x3701  -- 12_pillow.md
def PILLOW_ARG : Nat := 0x4701  -- 12_pillow.md
def PILLOW_HANDLE : Nat := 0x4702  -- 12_pillow.md
def PILLOW_RANGE : Nat := 0x4703  -- 12_pillow.md
def PILLOW_ORDER_LIMIT : Nat := 0x4704  -- 12_pillow.md
def PILLOW_OVERRUN : Nat := 0x5701  -- 12_pillow.md
def PILLOW_WITHDRAWN : Nat := 0x6701  -- 12_pillow.md
def PILLOW_FAULT : Nat := 0x8701  -- 12_pillow.md
def QUEUE_NO_PACKET : Nat := 0x2781  -- 13_queues.md
def QUEUE_DROPPING : Nat := 0x2782  -- 13_queues.md
def QUEUE_RANGE : Nat := 0x4781  -- 13_queues.md
def QUEUE_ABSENT : Nat := 0x4782  -- 13_queues.md
def QUEUE_DISCARDED : Nat := 0x6781  -- 13_queues.md
def QUEUE_CUT : Nat := 0x6782  -- 13_queues.md
def MEM_NAND_STATE : Nat := 0x2801  -- 14_memory.md
def MEM_NAND_AREA : Nat := 0x3801  -- 14_memory.md
def MEM_RANGE : Nat := 0x4801  -- 14_memory.md
def MEM_UNMAPPED : Nat := 0x4802  -- 14_memory.md
def MEM_BUF_ARG : Nat := 0x4803  -- 14_memory.md
def MEM_POOL_EMPTY : Nat := 0x6801  -- 14_memory.md
def MEM_OVERSIZE : Nat := 0x6802  -- 14_memory.md
def MEM_ECC : Nat := 0x8801  -- 14_memory.md
def MEM_NAND_READ : Nat := 0x8802  -- 14_memory.md
def MEM_NAND_FAIL : Nat := 0x8803  -- 14_memory.md
def MEM_NAND_BUSY : Nat := 0x9801  -- 14_memory.md
def GROUND_CMD_FULL : Nat := 0x1881  -- 15_ground_tables.md
def GROUND_HASH_FULL : Nat := 0x1882  -- 15_ground_tables.md
def GROUND_EXISTS : Nat := 0x2881  -- 15_ground_tables.md
def GROUND_ABSENT : Nat := 0x2882  -- 15_ground_tables.md
def GROUND_REHASH_STATE : Nat := 0x2883  -- 15_ground_tables.md
def GROUND_ROLE : Nat := 0x3881  -- 15_ground_tables.md
def GROUND_RANGE : Nat := 0x4881  -- 15_ground_tables.md
def GROUND_ALT_AREA : Nat := 0x4882  -- 15_ground_tables.md
def GROUND_REHASH_FAIL : Nat := 0x4883  -- 15_ground_tables.md
def GROUND_REHASH_BUSY : Nat := 0x9881  -- 15_ground_tables.md
def KEY_CMD_FULL : Nat := 0x1901  -- 18_keys_and_tamper.md
def KEY_SLOTS_FULL : Nat := 0x1902  -- 18_keys_and_tamper.md
def KEY_NO_OWNER : Nat := 0x2901  -- 18_keys_and_tamper.md
def KEY_OWNER_STATE : Nat := 0x2902  -- 18_keys_and_tamper.md
def KEY_SLOT_EMPTY : Nat := 0x2903  -- 18_keys_and_tamper.md
def KEY_SLOT_STATE : Nat := 0x2904  -- 18_keys_and_tamper.md
def KEY_IN_USE : Nat := 0x2905  -- 18_keys_and_tamper.md
def KEY_ROLE : Nat := 0x3901  -- 18_keys_and_tamper.md
def KEY_RANGE : Nat := 0x4901  -- 18_keys_and_tamper.md
def KEY_USAGE : Nat := 0x4902  -- 18_keys_and_tamper.md
def KEY_EXPORT : Nat := 0x4903  -- 18_keys_and_tamper.md
def KEY_UNWRAP : Nat := 0x4904  -- 18_keys_and_tamper.md
def KEY_SIG_BAD : Nat := 0x4905  -- 18_keys_and_tamper.md
def KEY_TAMPER : Nat := 0x7901  -- 18_keys_and_tamper.md
def KEY_ENTROPY_FAIL : Nat := 0x8901  -- 18_keys_and_tamper.md
def KEY_STORE_WRITE : Nat := 0x8902  -- 18_keys_and_tamper.md
def KEY_STORE_LOST : Nat := 0x8903  -- 18_keys_and_tamper.md
def KEY_SIGN_FAIL : Nat := 0x8904  -- 18_keys_and_tamper.md
def TAMPER_STATE : Nat := 0x2981  -- 18_keys_and_tamper.md
def TAMPER_RANGE : Nat := 0x4981  -- 18_keys_and_tamper.md
def TAMPER_ACTIVE : Nat := 0x7981  -- 18_keys_and_tamper.md
def ROLE_AUDIT_BUSY : Nat := 0x1A01  -- 19_roles_and_audit.md
def ROLE_SESSIONS_FULL : Nat := 0x1A02  -- 19_roles_and_audit.md
def ROLE_STORE_FULL : Nat := 0x1A03  -- 19_roles_and_audit.md
def ROLE_LAST_INSTALLER : Nat := 0x2A01  -- 19_roles_and_audit.md
def ROLE_PRICKING_CRED : Nat := 0x2A02  -- 19_roles_and_audit.md
def ROLE_STATE : Nat := 0x2A03  -- 19_roles_and_audit.md
def ROLE_EXISTS : Nat := 0x2A04  -- 19_roles_and_audit.md
def ROLE_VISITS_SPENT : Nat := 0x2A05  -- 19_roles_and_audit.md
def ROLE_RIGHTS : Nat := 0x3A01  -- 19_roles_and_audit.md
def ROLE_UNKNOWN_CRED : Nat := 0x3A02  -- 19_roles_and_audit.md
def ROLE_RANGE : Nat := 0x4A01  -- 19_roles_and_audit.md
def ROLE_HANDSHAKE : Nat := 0x4A02  -- 19_roles_and_audit.md
def ROLE_CONFIRM : Nat := 0x4A03  -- 19_roles_and_audit.md
def ROLE_HANDSHAKES_BUSY : Nat := 0x9A01  -- 19_roles_and_audit.md
def PAIR_STATE : Nat := 0x2A81  -- 20_pair.md
def PAIR_OFF : Nat := 0x2A82  -- 20_pair.md
def PAIR_RANGE : Nat := 0x4A81  -- 20_pair.md
def PAIR_PEER_AUTH : Nat := 0x4A82  -- 20_pair.md
def PAIR_COUNTER_LIMIT : Nat := 0x6A81  -- 20_pair.md
def PAIR_JOURNAL_FULL : Nat := 0x6A82  -- 20_pair.md
def UPDATE_STATE : Nat := 0x2B01  -- 21_update.md
def UPDATE_PEER : Nat := 0x2B02  -- 21_update.md
def UPDATE_ROLLBACK : Nat := 0x2B03  -- 21_update.md
def UPDATE_SIGNER : Nat := 0x3B01  -- 21_update.md
def UPDATE_RANGE : Nat := 0x4B01  -- 21_update.md
def UPDATE_MANIFEST : Nat := 0x4B02  -- 21_update.md
def UPDATE_SIGNATURE : Nat := 0x4B03  -- 21_update.md
def UPDATE_DIGEST : Nat := 0x4B04  -- 21_update.md
def UPDATE_ABORTED : Nat := 0x6B01  -- 21_update.md
def UPDATE_FALLBACK : Nat := 0x6B02  -- 21_update.md
def UPDATE_FLASH : Nat := 0x8B01  -- 21_update.md
def UPDATE_BUSY : Nat := 0x9B01  -- 21_update.md
def SVC_NO_CLOCK : Nat := 0x1B81  -- 05_link_ports.md
def SVC_TUNNEL_FULL : Nat := 0x1B86  -- 05_link_ports.md
def SVC_BENCH_STATE : Nat := 0x2B84  -- 05_link_ports.md
def SVC_PIN_STATE : Nat := 0x2B88  -- 22_electrical.md
def SVC_SESSION_NEEDED : Nat := 0x3B82  -- 05_link_ports.md
def SVC_BENCH_RANGE : Nat := 0x4B85  -- 05_link_ports.md
def SVC_RANGE : Nat := 0x4B87  -- 22_electrical.md
def SVC_BENCH_BUSY : Nat := 0x9B83  -- 05_link_ports.md
def SAMPLER_STATE : Nat := 0x2C01  -- 00_scope.md
def RETRY_NOT_READY : Nat := 0x1C81  -- 05_link_ports.md
def CMP_TICKETS_FULL : Nat := 0x1C82  -- 05_link_ports.md
def CMP_ACK_NOT_READY : Nat := 0x2C84  -- 05_link_ports.md
def CMP_TICKET_ROLE : Nat := 0x3C87  -- 23_status_catalogue.md
def CMP_TICKET_UNKNOWN : Nat := 0x4C83  -- 05_link_ports.md
def CMP_BAD_REQUEST : Nat := 0x4C86  -- 05_link_ports.md
def CMP_EVENT_LOST : Nat := 0x6C85  -- 05_link_ports.md
def RYURIX_LIBRARY_FULL : Nat := 0x1D02  -- 16_border_router.md
def RYURIX_PLEDGE_FULL : Nat := 0x1D03  -- 16_border_router.md
def RYURIX_NOT_ACTIVE : Nat := 0x2D01  -- 16_border_router.md
def RYURIX_IMAGE_IN_USE : Nat := 0x2D02  -- 16_border_router.md
def RYURIX_IMAGE_STATE : Nat := 0x2D03  -- 16_border_router.md
def RYURIX_NO_PREFIX : Nat := 0x2D04  -- 16_border_router.md
def RYURIX_ZONE_FULL : Nat := 0x2D05  -- 17_lighting_zones.md
def RYURIX_ZONE_UNSET : Nat := 0x2D06  -- 17_lighting_zones.md
def RYURIX_ARG : Nat := 0x4D01  -- 16_border_router.md
def RYURIX_UNKNOWN_NODE : Nat := 0x4D02  -- 16_border_router.md
def RYURIX_DIGEST : Nat := 0x4D03  -- 16_border_router.md
def RYURIX_ZONE_PAN : Nat := 0x4D04  -- 17_lighting_zones.md
def RYURIX_ROLE_LOST : Nat := 0x6D01  -- 16_border_router.md
def RYURIX_CAMPAIGN_LIMIT : Nat := 0x9D01  -- 16_border_router.md

end ST
end Sys2Proof.Machine
end

