-- ==== Sys2Proof/Machine/Ops.lean ====
section
/-!
DEFINITION. The named operations every meaning is written with: reading and writing registers and their fields, bytes of
memory and flash, answers and refusals, free values, the block's clock.
-/
namespace Sys2Proof.Machine

/-- What a meaning answers. -/
abbrev Res := Host.Outcome State Fault Refusal

/-- The field's value in a register word. -/
def Field.get (f : Field) (w : Word) : Nat := w.toNat / 2 ^ f.lo % 2 ^ f.width

/-- The register word with the field set to `v`, cut to the field's width. -/
def Field.put (f : Field) (w : Word) (v : Nat) : Word :=
  BitVec.ofNat 32 (w.toNat - f.get w * 2 ^ f.lo + v % 2 ^ f.width * 2 ^ f.lo)

/-- The same field `d` octets further on: another register of one layout. -/
def Field.off (f : Field) (d : Nat) : Field := { f with addr := f.addr + d }

/-- The same field in bank `b` of a selected register. -/
def Field.bank (f : Field) (b : Nat) : Field := { f with addr := f.addr + b * bankStride }

/-- Bit `i` of a field, as a field of its own. -/
def Field.bit (f : Field) (i : Nat) : Field := { f with lo := f.lo + i, width := 1 }

/-- The largest value the field holds. -/
def Field.max (f : Field) : Nat := 2 ^ f.width - 1

/-- A number read as a two's complement field of `w` bits (signed fields of the register tables). -/
def signed (w n : Nat) : Int := if n < 2 ^ (w - 1) then (n : Int) else (n : Int) - (2 ^ w : Nat)

/-- An integer as a two's complement field of `w` bits. -/
def unsigned (w : Nat) (i : Int) : Nat := (i % (2 ^ w : Nat)).toNat

/-- A register's stored word. -/
def State.getReg (s : State) (a : Nat) : Word := Store.get regReset s.regs a

/-- Put a word into a register: only the bits that hold a value take it (R8). -/
def State.setReg (s : State) (a : Nat) (w : Word) : State :=
  { s with regs := Store.set regReset s.regs a (w &&& regMask a) }

/-- A field's stored value. -/
def State.getF (s : State) (f : Field) : Nat := f.get (s.getReg f.addr)

/-- Set a field. -/
def State.setF (s : State) (f : Field) (v : Nat) : State := s.setReg f.addr (f.put (s.getReg f.addr) v)

/-- Whether a one-bit field is 1. -/
def State.isSet (s : State) (f : Field) : Bool := s.getF f = 1

/-- Set a one-bit field from a truth value. -/
def State.setB (s : State) (f : Field) (b : Bool) : State := s.setF f (if b then 1 else 0)

/-- Add `n` to a counter field, which saturates at its largest value. -/
def State.addF (s : State) (f : Field) (n : Nat) : State := s.setF f (min f.max (s.getF f + n))

/-- Count one more in a saturating counter field. -/
def State.bump (s : State) (f : Field) : State := s.addF f 1

/-- Send, drive or hand out something. -/
def State.emit (s : State) (m : Msg) : State := { s with out := m :: s.out }

/-- The status word that a request gets (R501). -/
def State.answer (s : State) (st : Nat) : State := { s with resp := st }

/-- Refuse a request: the requester gets the word and the block's refusal register holds it (R501). -/
def State.refuse (s : State) (f : Field) (st : Nat) : State := (s.setF f st).answer st

/-- A value the spec leaves open: fresh at each use. -/
def State.freeVal (s : State) : Nat := Config.free s.freeIx

/-- The state once the next free value has been used. -/
def State.useFree (s : State) : State := { s with freeIx := s.freeIx + 1 }

/-- The MAC time base moves on to `t`; it never goes back (R4). -/
def State.advance (s : State) (t : Nat) : State := { s with mtb := max s.mtb t }

/-- The first of a list under an order, if any. -/
def firstBy {α : Type} (before : α → α → Bool) : List α → Option α
  | [] => none
  | x :: xs => match firstBy before xs with
    | none => some x
    | some y => if before y x then some y else some x

/-- One byte of memory; a byte that nothing has written reads 0. -/
def State.readByte (s : State) (a : Nat) : Byte := Store.get (fun _ => (0 : Byte)) s.mem a

/-- Write one byte of memory. -/
def State.writeByte (s : State) (a : Nat) (b : Byte) : State :=
  { s with mem := Store.set (fun _ => (0 : Byte)) s.mem a b }

/-- `n` bytes of memory from `a` up. -/
def State.readBytes (s : State) (a : Nat) : Nat → List Byte
  | 0 => []
  | n + 1 => s.readByte a :: s.readBytes (a + 1) n

/-- Write bytes from `a` up. -/
def State.writeBytes (s : State) (a : Nat) : List Byte → State
  | [] => s
  | b :: bs => (s.writeByte a b).writeBytes (a + 1) bs

/-- The number that octets spell, the first the least significant (00_scope.md: little-endian). -/
def leNat : List Byte → Nat
  | [] => 0
  | b :: bs => b.toNat + 256 * leNat bs

/-- A number as `n` octets, the first the least significant. -/
def leBytes : Nat → Nat → List Byte
  | 0, _ => []
  | n + 1, v => BitVec.ofNat 8 v :: leBytes n (v / 256)

/-- Octets read with the first the most significant. -/
def beNat (l : List Byte) : Nat := l.foldl (fun n b => 256 * n + b.toNat) 0

/-- A number as `n` octets, the first the most significant. -/
def beBytes (n v : Nat) : List Byte := (leBytes n v).reverse

/-- Octets 0 to 3 and 4 to 7 of a 64-bit identifier as a register shows them, little-endian (00_scope.md). -/
def idLo (v : Nat) : Nat := leNat (beBytes 4 (v / 2 ^ 32))
def idHi (v : Nat) : Nat := leNat (beBytes 4 v)

/-- Octets as numbers, and a text as its octets. -/
def nats (l : List Byte) : List Nat := l.map (·.toNat)
def ascii (t : String) : List Nat := t.toList.map (·.toNat)

/-- Octets of a number, the first the most significant, as digests and identifiers stand in a message. -/
def octs (n v : Nat) : List Nat := nats (beBytes n v)

/-- Shift a reflected CRC by some bits. -/
def crcShift (poly c : Nat) : Nat → Nat
  | 0 => c
  | k + 1 => crcShift poly (if c % 2 = 1 then (c / 2) ^^^ poly else c / 2) k

/-- The CRC-16 of a frame check sequence, and the CRC-32 of IEEE 802.3 of at least four octets. -/
def fcs16 (l : List Nat) : Nat := l.foldl (fun c b => crcShift 0x8408 (c ^^^ b) 8) 0
def fcs32 (l : List Nat) : Nat :=
  (l ++ List.replicate (4 - l.length) 0).foldl (fun c b => crcShift 0xEDB88320 (c ^^^ b) 8) 0xFFFFFFFF ^^^ 0xFFFFFFFF

/-- The number in `n` bytes of memory. -/
def State.readNat (s : State) (a n : Nat) : Nat := leNat (s.readBytes a n)

/-- Write a number into `n` bytes of memory. -/
def State.writeNat (s : State) (a n v : Nat) : State := s.writeBytes a (leBytes n v)

/-- One octet of the flash; an erased octet reads 0xFF (R40). -/
def State.flashByte (s : State) (a : Nat) : Byte := Store.get (fun _ => (0xFF : Byte)) s.flash a

/-- Program one octet of the flash. -/
def State.flashPut (s : State) (a : Nat) (b : Byte) : State :=
  { s with flash := Store.set (fun _ => (0xFF : Byte)) s.flash a b }

/-- `n` octets of the flash from `a` up. -/
def State.flashBytes (s : State) (a : Nat) : Nat → List Byte
  | 0 => []
  | n + 1 => s.flashByte a :: s.flashBytes (a + 1) n

/-- Program octets of the flash from `a` up. -/
def State.flashWrite (s : State) (a : Nat) : List Byte → State
  | [] => s
  | b :: bs => (s.flashPut a b).flashWrite (a + 1) bs

/-- Bytes of memory in `[lo, hi)` become what nothing has written. -/
def State.dropMem (s : State) (lo hi : Nat) : State :=
  { s with mem := s.mem.filter fun c => c.1 < lo || hi ≤ c.1 }

/-- Nanoseconds in cyc (R6). -/
def nsToCyc (ns : Nat) : Nat := divRound (ns * 165) 128

/-- Microseconds in cyc (R6). -/
def usToCyc (us : Nat) : Nat := nsToCyc (1000 * us)

/-- Milliseconds in cyc (R6). -/
def msToCyc (ms : Nat) : Nat := nsToCyc (1000000 * ms)

/-- One second in cyc. -/
def secCyc : Nat := 1289062500

/-- The first edge at or after `t` of a clock of period `p` cyc (R5, R7). -/
def edgeAt (p t : Nat) : Nat := divUp t p * p

/-- The first DSP edge (a dcyc, R7), LINK edge (an lcyc) and PERIPH edge at or after `t` (R5). -/
def dcycEdge (t : Nat) : Nat := edgeAt 4 t
def linkEdge (t : Nat) : Nat := edgeAt 8 t
def periphEdge (t : Nat) : Nat := edgeAt 16 t

/-- The first entry of a list that is not in `taken`, among `0 … n − 1`, looking from `k` up. -/
def firstFree (taken : List Nat) (n k : Nat) : Nat → Option Nat
  | 0 => none
  | fuel + 1 => if k < n then (if k ∈ taken then firstFree taken n (k + 1) fuel else some k) else none

/-- A free member of `0 … n − 1`; which one the spec leaves open, so it is looked for from a free value up and, past the
end, from 0 up. -/
def State.pickFree (s : State) (taken : List Nat) (n : Nat) : Option Nat :=
  match firstFree taken n (s.freeVal % n) n with
  | some k => some k
  | none => firstFree taken n 0 n

/-- Remove every occurrence of `x`. -/
def without (x : Nat) (l : List Nat) : List Nat := l.filter (· != x)

/-- Add `x` at the end if it is not there. -/
def withOne (x : Nat) (l : List Nat) : List Nat := if x ∈ l then l else l ++ [x]

/-- A truth value as a bit. -/
def bit (b : Bool) : Nat := if b then 1 else 0

/-- Bit `i` of a number. -/
def bitOf (n i : Nat) : Bool := n / 2 ^ i % 2 = 1

/-- A number with bit `i` set or cleared. -/
def putBit (n i : Nat) (b : Bool) : Nat := n - n / 2 ^ i % 2 * 2 ^ i + (if b then 2 ^ i else 0)

/-- Apply `f` for each of a list, left to right. -/
def State.each {α : Type} (s : State) (l : List α) (f : State → α → State) : State := l.foldl f s

end Sys2Proof.Machine
end

