-- ==== Sys2Proof/Machine/Flags.lean ====
section
/-!
DEFINITION. Event bits: how they are set, cleared, enabled and notified (R488, R505, R126).
-/
namespace Sys2Proof.Machine

/-- Whether the enable bit beside an event bit is 1 (the EN field of the register after it, bit n for event bit n). -/
def State.eventEnabled (s : State) (e : Field) : Bool :=
  bitOf (s.getReg (eventEnable e.addr)).toNat e.lo

/-- Set an event bit. A change from 0 to 1 while the bit is enabled makes one notification due (R505). -/
def State.raise (s : State) (e : Field) : State :=
  if s.getF e = 0 then
    let t := s.setF e 1
    if t.eventEnabled e then { t with notes := t.notes ++ [(e.addr, e.lo, t.mtb)] } else t
  else s

/-- Set an event bit when a condition holds. -/
def State.raiseIf (s : State) (c : Bool) (e : Field) : State := if c then s.raise e else s

/-- A write to a W1C register: each bit written 1 is cleared, the others stay (Table 00.2). -/
def State.clearBits (s : State) (a : Nat) (w : Word) : State :=
  s.setReg a (s.getReg a &&& ~~~ (w &&& regAccessMask .w1c a))

/-- The bits, below `n`, of a word that are 1. -/
def bitsOf (w : Word) (n : Nat) : List Nat := (List.range n).filter (fun i => bitOf w.toNat i)

/-- A write to an event-enable register: a bit that goes from 0 to 1 while its event bit is 1 makes one notification
due (R505). -/
def State.writeEnable (s : State) (event enable : Nat) (w : Word) : State :=
  let old := s.getReg enable
  let new := (w &&& regAccessMask .rw enable) ||| (old &&& ~~~ regAccessMask .rw enable)
  let t := s.setReg enable new
  let due := (bitsOf (s.getReg event) 31).filter (fun i => bitOf new.toNat i && !bitOf old.toNat i)
  { t with notes := t.notes ++ due.map (fun i => (event, i, t.mtb)) }

/-- Whether an event register has a set bit that is enabled. -/
def State.eventAsserted (s : State) (event enable : Nat) : Bool :=
  (bitsOf (s.getReg event) 31).any (fun i => bitOf (s.getReg enable).toNat i)

/-- Every event register and its enable register, instance by instance. -/
def eventPairs : List (Nat × Nat) :=
  eventTable.flatMap (fun e => (List.range e.2.2.2).map (fun k => (e.1 + e.2.2.1 * k, e.2.1 + e.2.2.1 * k)))

end Sys2Proof.Machine
end

