-- ==== Sys2Proof/Machine/Operands.lean ====
section
/-!
DEFINITION. What a command's operands name: the elements the pricking in force creates (R45), and the device states,
pair roles and codes the registers show.
-/
namespace Sys2Proof.Machine

/-- The device states, by their START_STATE.DEV_STATE code; 0 stands for UNPOWERED, which has none. -/
def devUnpowered : Nat := 0
def devAwait : Nat := 1
def devRootLock : Nat := 2
def devDramTrain : Nat := 3
def devBoot : Nat := 4
def devLoad : Nat := 5
def devService : Nat := 6
def devHold : Nat := 7
def devHoldInhibit : Nat := 8
def devPark : Nat := 9
def devTamper : Nat := 10
def devReturned : Nat := 11
def devSampler : Nat := 12

/-- The device state. -/
def State.dev (s : State) : Nat := s.getF R.START_STATE_DEV_STATE

/-- The device enters a state. -/
def State.setDev (s : State) (d : Nat) : State := s.setF R.START_STATE_DEV_STATE d

/-- SERVICE, HOLD or HOLD_TX_INHIBIT: the states in which the device works. -/
def State.inService (s : State) : Bool := s.dev = devService || s.dev = devHold || s.dev = devHoldInhibit

/-- TAMPER_ERASED, RETURNED or SAMPLER: firmware runs as in SERVICE, the pair role is FENCED, every transceiver is held in
SLEEP (R404, R438). -/
def State.erasedLike (s : State) : Bool := s.dev = devTamper || s.dev = devReturned || s.dev = devSampler

/-- A state in which ROOT runs (Table 03.1, R64). -/
def State.rootRuns (s : State) : Bool :=
  !(s.dev = devUnpowered || s.dev = devAwait || s.dev = devRootLock || s.dev = devPark)

/-- The RUNNING phase, of SERVICE or of a state that runs its firmware as in SERVICE (R404). -/
def State.running (s : State) : Bool := (s.inService || s.erasedLike) && s.getF R.START_STATE_PHASE = 2

/-- The STARTING phase, held or not (R89, R93). -/
def State.starting (s : State) : Bool :=
  (s.inService || s.erasedLike) && (s.getF R.START_STATE_PHASE = 1 || s.getF R.START_STATE_PHASE = 3)

/-- The queue record of queue `q`. -/
def State.queueRec (s : State) (q : Nat) : Option QueueRec := s.pr.queues.find? (fun r => r.queue == q)

/-- The queues of which an endpoint is the consumer, in payload order. -/
def State.consumedBy (s : State) (ep : Nat) : List Nat :=
  (s.pr.queues.filter (fun r => r.consumer == ep)).map (·.queue)

/-- The queues of which an endpoint is a producer, in payload order. -/
def State.producedBy (s : State) (ep : Nat) : List Nat :=
  (s.pr.producers.filter (fun r => r.ep == ep)).map (·.queue)

/-- The transceiver record of TRXn, if the transceiver is present. -/
def State.trxRec (s : State) (n : Nat) : Option TrxRec :=
  match s.pr.trxs[n]? with
  | some r => if r.present = 1 then some r else none
  | none => none

/-- The lane record of a lane that is used. -/
def State.laneRec (s : State) (l : Nat) : Option LaneRec :=
  match s.pr.lanes[l]? with
  | some r => if r.bind = 0 then none else some r
  | none => none

/-- The transceiver of a lane (02_pricking.md). -/
def laneTrx (l : Nat) : Nat := if l < 32 then 0 else if l < 64 then 1 else if l < 80 then 2 else 3

/-- The lanes of a transceiver. -/
def trxLanes (n : Nat) : List Nat :=
  if n = 0 then List.range 32 else if n = 1 then (List.range 32).map (· + 32)
  else if n = 2 then (List.range 16).map (· + 64) else (List.range 16).map (· + 80)

/-- The PAN record number `p`. -/
def State.panRec (s : State) (p : Nat) : Option PanRec := s.pr.pans[p]?

/-- The band profile of TRXn. -/
def State.trxProfile (s : State) (n : Nat) : Option Profile :=
  match s.trxRec n with
  | some r => s.pr.profiles[r.profile]?
  | none => none

/-- The hoop record of hoop `h`, if the hoop is present. -/
def State.hoopRec (s : State) (h : Nat) : Option HoopRec :=
  match s.pr.hoops[h]? with
  | some r => if r.kind = 0 then none else some r
  | none => none

/-- The hoop that bobbin `b` belongs to (R37). -/
def State.hoopOf (s : State) (b : Nat) : Option Nat :=
  (List.range 4).find? (fun h => match s.hoopRec h with | some r => bitOf r.bobbins b | none => false)

/-- The main hoop (R36). -/
def State.mainHoop (s : State) : Nat :=
  match (List.range 4).find? (fun h => match s.hoopRec h with | some r => r.kind == 1 | none => false) with
  | some h => h
  | none => 0

/-- The region `k` of the TABLE section as (address, size): 0 node table, 1 address hash, 2 TSCH cell table, 3 sleepy-node
delay list, 4 packet buffers, 5 mirror journal, 6 source-route cache, 7 zone state. -/
def State.region (s : State) (k : Nat) : Nat × Nat :=
  match s.pr.table.regions[k]? with
  | some (b, z) => (0x80000000 + b, z)
  | none => (0, 0)

/-- The bit a unit has in CLK_GATE (Table 03.4). -/
def gateCcm (k : Nat) : Nat := k
def gateSha3 : Nat := 4
def gateLattice : Nat := 5
def gateNand : Nat := 6
def gateUpl (p : Nat) : Nat := 7 + p
def gateTrx (n : Nat) : Nat := 9 + n

/-- The pair role, coded as Table 05.2 has it; 0 without a PAIR section. -/
def State.pairRole (s : State) : Nat := s.getF R.PAIR_STATE_ROLE

/-- What Ryurix knows of an upstream port. -/
def State.netPort (s : State) (p : Nat) : NetPort := if p = 0 then s.ry.port0 else s.ry.port1

/-- Whether the unit at a CLK_GATE bit is gated or has a gate request pending (R73). -/
def State.gatedOrPending (s : State) (u : Nat) : Bool :=
  bitOf (s.getF R.CLK_GATE_STAT_GATED) u || bitOf (s.getF R.CLK_GATE_STAT_PEND) u

/-- A write that starts an action in a gated or gate-pending unit is refused (R73): CLK_CMD_ERR takes the word and the unit
(R75), and the refusal register of the unit's own block the word (R501). -/
def State.gatedRefuse (s : State) (u : Nat) (own : Field) : State :=
  ((s.setF R.CLK_CMD_ERR_UNIT u).setF R.CLK_CMD_ERR_STATUS ST.CLK_GATED).refuse own ST.CLK_GATED

/-- The clock of a domain of R69 is stopped: 0 DRAM, 4 to 7 a hoop. -/
def State.stoppedClock (s : State) (domain : Nat) : Bool := s.clk.restarts.any (fun r => r.domain == domain)

/-- What drives an upstream port's transmitter (R101). -/
inductive UplTx where
  | idle | loopTimed | link
  deriving DecidableEq, Repr

/-- An upstream port's transmitter (R101, R105): in electrical idle until acquisition completes and while ADMIN is 2; then
loop-timed from the port's own recovered clock; from ROOT_LOCK on from the LINK domain. -/
def State.uplTx (s : State) (p : Nat) : UplTx :=
  if s.dev = devUnpowered || s.getF (R.UPL_STAT_PHASE p) ≤ 1 || s.getF (R.UPL_CTRL_ADMIN p) = 2 then .idle
  else if s.dev = devAwait || s.dev = devPark then .loopTimed
  else .link

/-- An upstream port's MAC sends and accepts frames (R105, R71): the link is up, ADMIN 0, its clock runs. -/
def State.uplCarries (s : State) (p : Nat) : Bool :=
  s.rootRuns && s.isSet (R.UPL_STAT_LINK_UP p) && s.getF (R.UPL_CTRL_ADMIN p) = 0 &&
  !bitOf (s.getF R.CLK_GATE_STAT_GATED) (gateUpl p)

/-- An upstream port's MAC obeys received pause and PFC frames (R105): also with ADMIN 1. -/
def State.uplHears (s : State) (p : Nat) : Bool :=
  s.rootRuns && s.isSet (R.UPL_STAT_LINK_UP p) && s.getF (R.UPL_CTRL_ADMIN p) ≠ 2 &&
  !bitOf (s.getF R.CLK_GATE_STAT_GATED) (gateUpl p)

/-- The tie link's transmitter is active (R109): the unit has a root, and ENABLE does not hold it in electrical idle. -/
def State.tieSends (s : State) : Bool := s.rootRuns && s.isSet R.TIE_CFG_ENABLE

/-- An ACQ block (R110, Table 05.2). -/
def tieAcq : List Nat := [0xD2, 0x01, 0x55, 0x55, 0x55, 0x55, 0x55, 0x55]

/-- A TRAIN block: the requests and the statuses for pre, main and post, RX_READY. -/
def tieTrain (ask : List Nat) (ready : Bool) (status : List Nat) : List Nat :=
  let three (l : List Nat) : Nat := l.getD 0 0 * 16 + l.getD 1 0 * 4 + l.getD 2 0
  [0xD2, 0x02, three ask, bit ready * 128 + three status, 0, 0, 0, 0]

/-- A ROLE block. -/
def tieRole (b : RoleBlk) : List Nat :=
  [0xD2, 0x03, bit b.ack * 128 + bit b.pairOn * 64 + bit b.pref * 32 + b.root, b.role] ++ nats (leBytes 4 b.digest)

/-- A training block is sent, where the unit transmits at all (R109). -/
def State.tieSend (s : State) (octets : List Nat) : State := if s.tieSends then s.emit (.tieBlock octets) else s

/-- Whether the pricking in force has a PAIR section (R48). -/
def State.pairOn (s : State) : Bool := s.pr.pair.isSome

/-- The level at FCPn for a state of it (R489): POL bit n 1 asserts it high, 0 low; with OD bit n only the asserted level is
driven. -/
def State.fcpLevel (s : State) (n : Nat) (on : Bool) : Option Bool :=
  if s.isSet (R.SVC_FCP_CFG_OD.bit n) && !on then none else some (on == s.isSet (R.SVC_FCP_CFG_POL.bit n))

/-- The level that a coexistence line (0 request, 1 priority) of a transceiver's set has at its ball for a state of it (R490):
a polarity bit of 1 makes it active high. -/
def State.coexLevel (s : State) (n line : Nat) (on : Bool) : Bool :=
  on == s.isSet ((if n < 2 then R.SVC_COEX_CFG_POL_S else R.SVC_COEX_CFG_POL_W).bit line)

/-- A general-purpose pin: its OUT level while OE drives it, else an input (R491). -/
def State.gpioLevel (s : State) (n : Nat) : Option Bool :=
  if s.isSet (R.SVC_GPIO_OE.bit n) then some (s.isSet (R.SVC_GPIO_OUT.bit n)) else none

/-- The general-purpose outputs take what SVC_GPIO gives them. -/
def State.gpioDrive (s : State) : State := s.each (List.range 8) (fun s n => s.emit (.gpio n (s.gpioLevel n)))

/-- The outputs go to the levels of Table 04.3 if they have been released (R82, R92): the lines of the transceivers low, their
coexistence lines inactive, the flow-control pins deasserted, the general-purpose pins inputs. -/
def State.holdOutputs (s : State) : State :=
  if !s.su.outputs then s
  else
    let s := s.each (List.range 4) (fun s n => s.each (List.range 6) (fun s l => s.emit (.line n l false s.mtb)))
    let s := s.each (List.range 4) (fun s n => s.emit (.fcp n false (s.fcpLevel n false)))
    s.each (List.range 8) (fun s n => s.emit (.gpio n none))

/-- The outputs are released to their blocks (R92): FEM_BYP and FEM_ANT take FEM_CTRL of the transceivers that exist, the
general-purpose pins SVC_GPIO; the other lines stay as they are until their blocks drive them. -/
def State.releaseOutputs (s : State) : State :=
  let s : State := { s with su := { s.su with outputs := true } }
  let s := s.each ((List.range 4).filter (fun n => (s.trxRec n).isSome)) (fun s n =>
    (s.emit (.line n 2 (s.isSet (R.TRX_FEM_CTRL_BYP n)) s.mtb)).emit (.line n 3 (s.isSet (R.TRX_FEM_CTRL_ANT_RX n)) s.mtb))
  s.gpioDrive

/-- A start-up failure is recorded (Table 04.4, R90, R97): its word, the device state, a transceiver number, a location. -/
def State.startFail (s : State) (st unit typ off : Nat) : State :=
  let s := ((s.setF R.START_FAIL_STATUS st).setF R.START_FAIL_UNIT unit).setF R.START_FAIL_STATE s.dev
  ((s.setF R.START_FAIL_LOC_TYPE typ).setF R.START_FAIL_LOC_OFFSET off).raise R.SYS_EVENT_START_FAIL

/-! ### Amrek frames (R443) -/

/-- An Amrek frame: TYPE, a zero octet, LEN, SEQ, the payload, and the CRC-32 of them all (R443). -/
def amrekOctets (typ seq : Nat) (p : List Nat) : List Nat :=
  let body := [typ, 0] ++ nats (leBytes 2 p.length) ++ nats (leBytes 4 seq) ++ p
  body ++ nats (leBytes 4 (fcs32 body))

/-- An Amrek frame leaves on the tie link, with the next SEQ of its TYPE; the first has SEQ 0 (DESIGN CHOICE,
notes/assumptions/40.md). -/
def State.amrekOut (s : State) (typ : Nat) (p : List Nat) : State :=
  let n := Store.get (fun _ => 0) s.pa.amrekSeq typ
  ({ s with pa := { s.pa with amrekSeq := Store.set (fun _ => 0) s.pa.amrekSeq typ ((n + 1) % 2 ^ 32) } }).emit
    (.amrek (amrekOctets typ n p))

end Sys2Proof.Machine
end

