-- ==== Sys2Proof/Machine/Queue.lean ====
section
/-!
DEFINITION. Queues, credits and clock crossings (13_queues.md).
-/
namespace Sys2Proof.Machine

/-- Queue `q`. -/
def State.queue (s : State) (q : Nat) : Queue := Store.get (fun _ => {}) s.queues q

/-- Put queue `q`. -/
def State.setQueue (s : State) (q : Nat) (v : Queue) : State :=
  { s with queues := Store.set (fun _ => {}) s.queues q v }

/-- Entries the queue holds (R295). -/
def Queue.level (v : Queue) : Nat := v.entries.length

def Queue.credit (v : Queue) (ep : Nat) : Nat := Store.get (fun _ => 0) v.credits ep

/-- A producer spends one credit (R296). -/
def Queue.spend (v : Queue) (ep : Nat) : Queue :=
  { v with credits := Store.set (fun _ => 0) v.credits ep (v.credit ep - 1) }

/-- A credit starts its way back to the producer, which can spend it from `t` on (R296). -/
def Queue.giveBack (v : Queue) (ep t : Nat) : Queue :=
  { v with returning := Store.set (fun _ => []) v.returning ep (Store.get (fun _ => []) v.returning ep ++ [t]) }

/-- The producers on a foreign clock (Table 13.1), and a cycle of it in cyc: the Ethernet and tie-link receivers' is that of LINK
within 200 ppm; how long one of SCLK lasts nothing says. -/
def foreignEp (ep : Nat) : Bool := ep = 0x48 || ep = 0x58 || ep = 0x61 || ep = 0x71
def State.foreignCyc (s : State) (ep : Nat) : Nat := if ep = 0x71 then s.freeVal else 8

/-- When a credit given back now can be spent again (R296): 4 fcyc later; by a foreign producer within 3 of its cycles (R305), a free
value. -/
def State.creditAt (s : State) (ep : Nat) : Nat :=
  if foreignEp ep then s.mtb + s.freeVal % (3 * s.foreignCyc ep + 1) else s.mtb + 8

/-- The fcyc in which a queue takes an entry presented now (R295): the next one free for an enqueue; through the FIFO of a foreign
producer at most 1 foreign cycle and 3 fcyc later (R305), a free value. -/
def State.takeAt (s : State) (q ep : Nat) : Nat :=
  let cross := if foreignEp ep then s.freeVal % (s.foreignCyc ep + 7) else 0
  max (edgeAt 2 (s.mtb + cross)) (s.queue q).inAt

/-- The FIFO of a foreign producer is full: 16 of its entries have not been taken by the fabric side (R305). -/
def State.fifoFull (s : State) (q ep : Nat) : Bool :=
  foreignEp ep && decide (16 ≤ ((s.queue q).entries.filter (fun e => e.src = ep && decide (s.mtb + 8 < e.vis))).length)

/-- The start-of-packet, end-of-packet and error flags of an entry (Table 13.2). -/
def Entry.sop (e : Entry) : Bool := bitOf e.flags 0
def Entry.eop (e : Entry) : Bool := bitOf e.flags 1
def Entry.err (e : Entry) : Bool := bitOf e.flags 2

/-- A queue refusal: QUEUE_CMD_ERR takes the queue and the word (R307). -/
def State.queueRefuse (s : State) (q st : Nat) : State :=
  (s.setF R.QUEUE_CMD_ERR_QUEUE q).refuse R.QUEUE_CMD_ERR_STATUS st

/-- The queue becomes above: event bits and the crossing count (R301). -/
def State.crossUp (s : State) (q : Nat) : State :=
  (((s.setF (R.QUEUE_EVENT_CROSS_UP.bank q) 1).raise R.QUEUE_BEVENT_CROSS_UP).bump (R.QUEUE_XCOUNT_UP.bank q)).setQueue q
    { s.queue q with above := true }

/-- The queue ceases to be above (R301). -/
def State.crossDown (s : State) (q : Nat) : State :=
  ((s.setF (R.QUEUE_EVENT_CROSS_DOWN.bank q) 1).raise R.QUEUE_BEVENT_CROSS_DOWN).setQueue q
    { s.queue q with above := false }

/-- The level against the watermarks: becomes above at HIGH, ceases at LOW (R301, R302). -/
def State.watermark (s : State) (q : Nat) : State :=
  let v := s.queue q
  if !v.above && s.getF (R.QUEUE_WM_HIGH.bank q) ≤ v.level then s.crossUp q
  else if v.above && v.level ≤ s.getF (R.QUEUE_WM_LOW.bank q) then s.crossDown q
  else s

/-- A discard without credit or at a full FIFO (R297, R305): counted, recorded, and the event bits set. -/
def State.queueDiscard (s : State) (q : Nat) : State :=
  let s := ((s.bump (R.QUEUE_XCOUNT_DISCARD.bank q)).setF (R.QUEUE_EVENT_DISCARD.bank q) 1).raise R.QUEUE_BEVENT_DISCARD
  (s.setF R.QUEUE_CMD_ERR_QUEUE q).setF R.QUEUE_CMD_ERR_STATUS ST.QUEUE_DISCARDED

/-- What a packet's first and last entries do to the producers with a packet open (R298). -/
def openAfter (e : Entry) (l : List Nat) : List Nat := if e.eop then without e.src l else if e.sop then withOne e.src l else l

/-- The entry goes in at the end, with SRC written by the queue (R294), visible 4 fcyc after the fcyc that takes it (R295); the level
is held against the watermarks. -/
def State.queueAppend (s : State) (q : Nat) (e : Entry) : State :=
  let v := s.queue q
  let at_ := s.takeAt q e.src
  let onDie := if v.level < 16 then v.onDie + 1 else v.onDie
  let v : Queue := { v with
    entries := v.entries ++ [{ e with vis := at_ + 8 }], openPkt := openAfter e v.openPkt, onDie := onDie, inAt := at_ + 2 }
  ((if foreignEp e.src then s.useFree else s).setQueue q v).watermark q

/-- The packet buffer that starts at an address, by number (R326): the buffers follow the rings of the MEM 1 queues at
the next 2,048-byte boundary. -/
def State.pktBase (s : State) : Nat :=
  let rings := s.pr.queues.foldl (fun n r => if r.mem = 1 then n + 16 * r.depth else n) 0
  divUp ((s.region 4).1 + rings) 2048 * 2048

/-- How many packet buffers there are (R326). -/
def State.pktCount (s : State) : Nat :=
  min 65536 (((s.region 4).1 + (s.region 4).2 - s.pktBase) / 2048)

/-- The number of the packet buffer that starts at `a`. -/
def State.pktOf (s : State) (a : Nat) : Option Nat :=
  if s.pktBase ≤ a ∧ (a - s.pktBase) % 2048 = 0 ∧ (a - s.pktBase) / 2048 < s.pktCount then
    some ((a - s.pktBase) / 2048)
  else none

/-- Return the packet buffer that starts at `a`, if it is one and taken (R327). -/
def State.pktFree (s : State) (a : Nat) : State :=
  match s.pktOf a with
  | some k => { s with ms := { s.ms with pktTaken := without k s.ms.pktTaken } }
  | none => s

/-- The upstream port whose transmit endpoint consumes a queue, if one does (Table 13.1). -/
def uplTxPort (ep : Nat) : Option Nat :=
  if 0x40 ≤ ep ∧ ep ≤ 0x47 then some 0 else if 0x50 ≤ ep ∧ ep ≤ 0x57 then some 1 else none

/-- A queue's consumer is a port's or the tie link's transmitter. -/
def State.sendsFrames (s : State) (q : Nat) : Bool :=
  match s.queueRec q with
  | some r => (uplTxPort r.consumer).isSome || r.consumer = 0x60
  | none => false

/-- A transmit consumer returns the packet buffers of entries that a drop frees (R327). -/
def State.freeDropped (s : State) (q : Nat) (l : List Entry) : State :=
  if s.sendsFrames q then s.each l (fun s e => s.pktFree e.addr) else s

/-- A queue takes an entry whose credit has been spent. While it is dropping for the entry's producer it frees the entry
on arrival, up to and including the one with EOP (R299). -/
def State.queueTakePaid (s : State) (q : Nat) (e : Entry) : State :=
  let v := s.queue q
  if e.src ∈ v.dropping then
    (s.setQueue q { v.giveBack e.src (s.creditAt e.src) with
      dropping := if e.eop then without e.src v.dropping else v.dropping, openPkt := openAfter e v.openPkt }).freeDropped q [e]
  else s.queueAppend q e

/-- A queue takes an entry of a producer that holds a credit, which it spends (R296). -/
def State.queueTake (s : State) (q : Nat) (e : Entry) : State :=
  (s.setQueue q ((s.queue q).spend e.src)).queueTakePaid q e

/-- Whether an endpoint answers a missing credit by discarding what it brings (Table 13.3). -/
def discardsWithoutCredit (ep : Nat) : Bool :=
  ep = 0x31 || ep = 0x48 || ep = 0x58 || ep = 0x61 || ep = 0x71

/-- A producer presents an entry (R295 to R297, R305). Without a credit a hoop's tk.put, a shuttle and the MAC keep what they
have; the receive pipeline and the receive endpoints discard it, an endpoint the whole frame from its first entry on. -/
def State.enqueue (s : State) (q : Nat) (e : Entry) : State :=
  let v := s.queue q
  let word := if e.src = 0x71 then ST.SVC_TUNNEL_FULL else ST.QUEUE_DISCARDED
  if (s.queueRec q).isNone then s.queueRefuse q ST.QUEUE_ABSENT
  else if e.src ∈ v.losing then
    (s.setQueue q { v with losing := if e.eop then without e.src v.losing else v.losing }).answer word
  else if v.credit e.src = 0 || s.fifoFull q e.src then
    if discardsWithoutCredit e.src then
      let s := s.queueDiscard q
      (s.setQueue q { s.queue q with losing := if e.eop then v.losing else withOne e.src v.losing }).answer word
    else s.answer (if e.src < 4 then ST.PILLOW_NO_CREDIT else ST.OK)
  else (s.queueTake q e).answer ST.OK

/-- The oldest entry the consumer can take: of a queue with MEM 1, one that is on-die (R295). -/
def State.head? (s : State) (q : Nat) : Option Entry :=
  let v := s.queue q
  if v.onDie = 0 then none else v.entries.head?

/-- The consumer takes the oldest entry, once it is visible and the queue's fcyc for a dequeue has come (R295); its credit starts back
to the producer named by SRC (R296), and the current packet follows SOP and EOP (R298). -/
def State.dequeue (s : State) (q : Nat) : State :=
  match s.head? q with
  | none => s
  | some e =>
    let v := s.queue q
    let cur := if e.eop then (if e.sop || v.current = some e.src then none else v.current)
      else if e.sop then some e.src else v.current
    let s := s.advance (max v.outAt e.vis)
    let v : Queue := { v.giveBack e.src (s.creditAt e.src) with
      entries := v.entries.tail, onDie := v.onDie - 1, current := cur, outAt := edgeAt 2 s.mtb + 2 }
    ((if foreignEp e.src then s.useFree else s).setQueue q v).watermark q

/-- The entries of producer `src` up to and including its first one with EOP, and the others, in order (R299). -/
def splitPacket (src : Nat) : List Entry → List Entry × List Entry × Bool
  | [] => ([], [], false)
  | e :: es =>
    if e.src = src then
      if e.eop then ([e], es, true)
      else let r := splitPacket src es; (e :: r.1, r.2.1, r.2.2)
    else let r := splitPacket src es; (r.1, e :: r.2.1, r.2.2)

/-- QUEUE_CMD OP 1: drop the remainder of the current packet (R299); a transmit consumer's buffers return (R327). A join entry is a whole
packet, so none is ever dropped with its receive buffer (R310). -/
def State.dropRemainder (s : State) (q : Nat) : State :=
  if (s.queueRec q).isNone then s.queueRefuse q ST.QUEUE_ABSENT
  else
    let v := s.queue q
    if v.dropping ≠ [] then s.queueRefuse q ST.QUEUE_DROPPING
    else match v.current with
    | none => s.queueRefuse q ST.QUEUE_NO_PACKET
    | some src =>
      let r := splitPacket src v.entries
      let v1 := r.1.foldl (fun v _ => v.giveBack src (s.creditAt src)) { v with
        entries := r.2.1, onDie := min v.onDie r.2.1.length, current := none,
        dropping := if r.2.2 then v.dropping else [src] }
      (((s.setQueue q v1).watermark q).freeDropped q r.1).answer ST.OK

/-- Take a free packet buffer: its address, if one is free (R327). -/
def State.pktTake (s : State) : Option Nat × State :=
  match s.pickFree s.ms.pktTaken s.pktCount with
  | some k => (some (s.pktBase + 2048 * k),
      { s.useFree with ms := { s.ms with pktTaken := s.ms.pktTaken ++ [k] } })
  | none => (none, s)

/-- The consumer's own part of a dequeue: an upstream port sends the frame, with an invalid FCS for an entry with ERR,
whose packet it then drops (R300), and it and the tie link return the buffer (R327). -/
def State.consume (s : State) (q : Nat) (ep : Nat) (e : Entry) : State :=
  match uplTxPort ep with
  | some p =>
    let s := ((s.emit (.uplFrame p e.addr e.len (!e.err))).pktFree e.addr)
    if e.err && !e.eop then s.dropRemainder q else s
  | none => if ep = 0x60 then s.pktFree e.addr else s

/-- Every queue that the endpoint of a lost foreign clock produces with a packet open gets an entry with LEN 0, EOP and
ERR (R306); the entry takes a credit where one is held. -/
def State.cutPackets (s : State) (ep : Nat) : State :=
  s.each (s.producedBy ep) (fun s q =>
    let s := s.setQueue q { s.queue q with losing := without ep (s.queue q).losing }
    if ep ∈ (s.queue q).openPkt then
      let s := ((s.setQueue q ((s.queue q).spend ep)).queueTakePaid q ⟨0, 0, 6, ep, 0, 0, [], 0⟩).raise R.QUEUE_BEVENT_CUT
      (s.setF R.QUEUE_CMD_ERR_QUEUE q).setF R.QUEUE_CMD_ERR_STATUS ST.QUEUE_CUT
    else s)

/-- Whether the PFC condition of priority `p` holds on port `port` (R304). -/
def State.pfcCond (s : State) (port p : Nat) : Bool :=
  s.pr.queues.any (fun r => r.pfc == p && (s.queue r.queue).above &&
    (let eps := (s.pr.producers.filter (fun x => x.queue == r.queue)).map (·.ep)
     eps.contains (0x48 + 0x10 * port) || !(eps.contains 0x48 || eps.contains 0x58)))

/-- Every queue empty and every grant restored (R296), and the watermarks at their initial values. -/
def State.queuesReset (s : State) : State :=
  let qs : Store Queue := s.pr.queues.foldl (fun m r =>
    Store.set (fun _ => ({} : Queue)) m r.queue
      { credits := s.pr.producers.foldl (fun c x =>
          if x.queue = r.queue then Store.set (fun _ => 0) c x.ep x.credits else c) [] }) []
  { s with queues := qs }

/-- Table 13.1, the roles: whether an endpoint may produce, whether it may consume (R293). -/
def epProduces (ep : Nat) : Bool :=
  ep < 4 || (0x20 ≤ ep && ep ≤ 0x23) || ep = 0x30 || ep = 0x31 || ep = 0x48 || ep = 0x58 || ep = 0x61 || ep = 0x71
def epConsumes (ep : Nat) : Bool :=
  ep = 0x10 || (0x20 ≤ ep && ep ≤ 0x23) || ep = 0x30 || (0x40 ≤ ep && ep ≤ 0x47) || (0x50 ≤ ep && ep ≤ 0x57) ||
  ep = 0x60 || ep = 0x70

/-- ENQUEUE: a producer's entry (R295). -/
def execEnqueue (queue : Fin 256) (src : Fin 256) (addr len flags tag aux : Nat) (s : State) : Res :=
  .next (s.enqueue queue ⟨addr, len, flags, src, tag, aux, [], 0⟩)

/-- The PFC priority of transmit queue `k` of a port (UPLn_PRIO_MAP). -/
def State.uplPrio (s : State) (p k : Nat) : Nat := s.getF ⟨R.UPL_PRIO_MAP p, 4 * k, 3⟩

/-- Whether a transmit consumer may take an entry (R105, R108, R111): the port carries frames, and a frame of the queue has
started or its priority is not paused; the tie link has completed its training. -/
def State.maySend (s : State) (ep : Nat) (started : Bool) : Bool :=
  match uplTxPort ep with
  | some p =>
    let u := if p = 0 then s.upl0 else s.upl1
    let prio := if u.mode = 1 then 8 else s.uplPrio p (ep % 16)
    s.uplCarries p && (started || (Store.find? prio u.paused).isNone)
  | none => ep ≠ 0x60 || s.getF R.TIE_STAT_PHASE = 4

/-- DEQUEUE: the queue's consumer takes its oldest entry (R295, R296). -/
def execDequeue (queue : Fin 256) (s : State) : Res :=
  match s.queueRec queue, s.head? queue with
  | some r, some e =>
    if s.maySend r.consumer (s.queue queue).current.isSome then .next (((s.dequeue queue).emit (.entry queue e)).consume queue r.consumer e) else .next s
  | _, _ => .next s

/-- The oldest credit on its way back to a producer can be spent (R296). -/
def State.creditBack (s : State) (q src : Nat) : State :=
  let v := s.queue q
  match Store.get (fun _ => []) v.returning src with
  | [] => s
  | t :: ts => (s.advance t).setQueue q { v with
      returning := Store.set (fun _ => []) v.returning src ts,
      credits := Store.set (fun _ => 0) v.credits src (v.credit src + 1) }

/-- QUEUE_READBACK_DONE: a spilled entry of a MEM 1 queue comes on-die, at most 16 of them (R295). -/
def execQueueReadbackDone (queue : Fin 256) (s : State) : Res :=
  let v := s.queue queue
  if v.onDie < 16 ∧ v.onDie < v.level then .next (s.setQueue queue { v with onDie := v.onDie + 1 }) else .next s

/-- QUEUE_DROP_REMAINDER: QUEUE_CMD with OP 1 (R299). -/
def execQueueDropRemainder (queue : Fin 256) (s : State) : Res := .next (s.dropRemainder queue)

/-- QUEUE_CLEAR_COUNT: QUEUE_CMD with OP 2 clears QUEUE_XCOUNT of the queue (R307). -/
def State.queueClear (s : State) (q : Nat) : State :=
  if (s.queueRec q).isNone then s.queueRefuse q ST.QUEUE_ABSENT
  else (s.setReg (R.QUEUE_XCOUNT + q * bankStride) 0).answer ST.OK

/-- QUEUE_CLEAR_COUNT (Table 13.5). -/
def execQueueClearCount (queue : Fin 256) (s : State) : Res := .next (s.queueClear queue)

/-- A write of QUEUE_WM for queue `q` (R302): judged unless it changes nothing (R9). -/
def State.writeWm (s : State) (q high low : Nat) : State :=
  match s.queueRec q with
  | none => s
  | some r =>
    if s.getF (R.QUEUE_WM_HIGH.bank q) = high ∧ s.getF (R.QUEUE_WM_LOW.bank q) = low then s.answer ST.OK
    else if low < high ∧ high ≤ r.depth then
      (((s.setF (R.QUEUE_WM_HIGH.bank q) high).setF (R.QUEUE_WM_LOW.bank q) low).watermark q).answer ST.OK
    else s.queueRefuse q ST.QUEUE_RANGE

/-- QUEUE_WM_WRITE: QUEUE_WM of the queue that QUEUE_SEL names (R302, R307). -/
def execQueueWmWrite (high low : Fin 65536) (s : State) : Res :=
  .next (s.writeWm (s.getF R.QUEUE_SEL_QUEUE) high low)

end Sys2Proof.Machine
end

