-- ==== Sys2Proof/Machine/Mirror.lean ====
section
/-!
DEFINITION. What an ACTIVE unit mirrors to its peer as it happens (R455 to R457): the journal. The rest of pair operation
stands in Pair.lean.
-/
namespace Sys2Proof.Machine

/-- The seven octets of a lease block: KIND, the pair role and PREF, COUNT, EXTEND_US (R442). -/
def State.leaseOctets (s : State) (kind count ext : Nat) : List Nat :=
  [kind, s.pairRole + 8 * s.getF R.PAIR_STATE_PREF] ++ nats (leBytes 2 count) ++ nats (leBytes 3 ext)

/-- A lease block leaves on the tie link. -/
def State.leaseTie (s : State) (kind count ext : Nat) : State := s.emit (.lease (0xD5 :: s.leaseOctets kind count ext))

/-- A witness port that is up: its link is, and it is not administratively blocked or down (R451). -/
def State.witPort (s : State) (n : Nat) : Bool :=
  (match s.pr.pair with | some p => bitOf p.witPorts n | none => false) &&
  s.isSet (R.UPL_STAT_LINK_UP n) && s.getF (R.UPL_CTRL_ADMIN n) = 0

/-- The witness path is up: a pair transport key, and a witness port that is up (R451). -/
def State.witUp (s : State) : Bool := s.pa.key.isSome && [0, 1].any s.witPort

/-- A lease block leaves as a witness datagram on every witness port that is up: EUI-64, the seven octets, a zero octet, SEQ,
and the KMAC256 tag of these 20 octets under the pair transport key (R451). -/
def State.leaseWitness (s : State) (kind count ext : Nat) : State :=
  match s.pa.key with
  | none => s
  | some key =>
    s.each ([0, 1].filter s.witPort) (fun s p =>
      let n := s.pa.witTx + 1
      let body := octs 8 Config.eui64 ++ s.leaseOctets kind count ext ++ [0] ++ nats (leBytes 4 n)
      ({ s with pa := { s.pa with witTx := n } }).emit
        (.witness p (body ++ octs 16 (Config.kmac key body 128 (ascii "SVC4820 witness")))))

/-- A lease block leaves: on the tie link when it is up, else by the witness (R444, R451). -/
def State.leaseOut (s : State) (kind count ext : Nat) : State :=
  if s.isSet R.PAIR_STATE_TIE_UP then s.leaseTie kind count ext else s.leaseWitness kind count ext

/-- The octets of a mirror record (Table 20.5). -/
def MirrorRec.octets (r : MirrorRec) : List Nat :=
  nats (leBytes 1 r.kind ++ leBytes 1 (bit r.sync) ++ leBytes 2 r.data.length ++ leBytes 4 r.seq ++ leBytes 1 r.region ++
    leBytes 3 0 ++ leBytes 4 r.target ++ r.data)

/-- A mirror record leaves in a MIRROR frame (R456). -/
def State.mirrorOut (s : State) (r : MirrorRec) : State := s.amrekOut 3 r.octets

/-- Octets that the journal holds. -/
def journalOctets (l : List MirrorRec) : Nat := l.foldl (fun n r => n + 16 + r.data.length) 0

/-- A record goes into the journal and, in SEQ order, to the peer. When the journal is full the unit sends MARK_STALE,
pauses mirroring and enters AWAIT_STALE (R457). -/
def State.journalAdd (s : State) (kind : Nat) (sync : Bool) (region target : Nat) (data : List Byte) : State :=
  if !s.pa.mirrors then s
  else if (s.region 5).2 < journalOctets s.pa.journal + 16 + data.length then
    let s := (s.leaseOut 4 s.pa.count 0).setF R.PAIR_CMD_ERR_STATUS ST.PAIR_JOURNAL_FULL
    ({ s with pa := { s.pa with mirrors := false } }).setF R.PAIR_STATE_MODE 1
  else
    let r : MirrorRec := ⟨kind, sync, s.pa.nextSeq, region, target, data⟩
    ({ s with pa := { s.pa with journal := s.pa.journal ++ [r], nextSeq := s.pa.nextSeq + 1 } }).mirrorOut r

/-- A write to a mirrored region: 0 node table, 2 TSCH cell table, 6 source-route cache, 7 zone state (R455); a record holds
at most 256 octets. -/
def State.journalWrite (s : State) (region off : Nat) (data : List Byte) : State :=
  s.each (List.range (divUp data.length 256)) (fun s k =>
    s.journalAdd 1 false region (off + 256 * k) ((data.drop (256 * k)).take 256))

/-- A write by a requester at an address: mirrored when the address lies in a mirrored region; of the node table, all but
the LPT field. -/
def State.journalAt (s : State) (a : Nat) (data : List Byte) : State :=
  match [0, 2, 6, 7].find? (fun k => (s.region k).1 ≤ a && a < (s.region k).1 + (s.region k).2) with
  | none => s
  | some k =>
    let off := a - (s.region k).1
    if k = 0 && off % 256 = 94 && data.length ≤ 2 then s else s.journalWrite k off data

/-- A key slot with PERSIST and EXPORT is mirrored, its key wrapped under the pair transport key (R455). -/
def State.mirrorSlot (s : State) (k attr mat octets : Nat) : State :=
  match s.pa.key with
  | some key =>
    if bitOf attr 15 && bitOf attr 14 then
      s.journalAdd 4 false 0 k (leBytes 4 attr ++ beBytes (octets + 8) (Config.wrap key octets mat))
    else s
  | none => s

/-- Its destruction is mirrored. -/
def State.mirrorDestroy (s : State) (k attr : Nat) : State :=
  if bitOf attr 15 && bitOf attr 14 then s.journalAdd 5 false 0 k [] else s

end Sys2Proof.Machine
end

