-- ==== Sys2Proof/Machine/Memory.lean ====
section
/-!
DEFINITION. The memory system (14_memory.md): the address map, SRAM errors, receive buffers, the slot-scheduled DRAM
controller, packet buffers, flash.
-/
namespace Sys2Proof.Machine

/-- Whether an address lies in a range of Table 14.1 and, in a register block, on a register (R308). -/
def mapped (a : Nat) : Bool :=
  a < 0x40000 || (0x4000000 ≤ a && a < 0x4400000) || (0x10000000 ≤ a && a < 0x10600000) ||
  (0x18000000 ≤ a && a < 0x18200000) || (0x40000000 ≤ a && a < 0x40040000) || (0x80000000 ≤ a && a < 0xA0000000) ||
  (regDesc? a).isSome && a < bankStride

/-- Whether a bobbin's access to `n` octets beside the registers raises an access fault in any hoop: it leaves the map, it names table
SRAM (R313), it stores to the boot ROM or to a fixed area of shared SRAM (Table 14.1, R309). -/
def accessBad (a n : Nat) (write : Bool) : Bool :=
  let z := a + n - 1
  !mapped a || !mapped z || (0x18000000 ≤ z && a < 0x18200000) ||
  (write && ((0x40000000 ≤ z && a < 0x40040000) || (0x10000000 ≤ z && a < 0x10480000)))

/-- The DRAM, and the firmware area of shared SRAM (Tables 14.1 and 14.2). -/
def inDram (a : Nat) : Bool := 0x80000000 ≤ a && a < 0xA0000000
def inFirmwareArea (a : Nat) : Bool := 0x10480000 ≤ a && a < 0x10600000

/-- A 64-bit SRAM word read with an error: `kind` 1 a single-bit error, corrected and counted; 2 a double-bit error,
counted with its address (R314). -/
def State.eccError (s : State) (kind addr : Nat) : State :=
  if kind = 1 then (s.bump R.MEM_ECC_STAT_CORRECTED).raise R.MEM_EVENT_ECC_CORR
  else if kind = 2 then
    ((s.bump R.MEM_ECC_STAT_UNCORRECTED).setF R.MEM_ECC_ADDR_ADDR (addr / 8 * 8)).raise R.MEM_EVENT_ECC_UNCORR
  else s

/-- A MEM refusal (R333). -/
def State.memRefuse (s : State) (st : Nat) : State := s.refuse R.MEM_CMD_ERR_STATUS st

/-- The address of a receive buffer: small ones 0 to 2,047, large ones 2,048 to 2,303 (Table 14.2). -/
def rxBufAddr (k : Nat) : Nat := if k < 2048 then 0x10200000 + 256 * k else 0x10280000 + 2048 * (k - 2048)

/-- The free receive buffers shown in MEM_STATE. -/
def State.showPools (s : State) : State :=
  (s.setF R.MEM_STATE_RX_SMALL_FREE (2048 - s.ms.smallTaken.length)).setF R.MEM_STATE_RX_LARGE_FREE
    (256 - s.ms.largeTaken.length)

def State.takeSmall (s : State) : Option (Nat × State) :=
  match s.pickFree s.ms.smallTaken 2048 with
  | some k => some (k, ({ s.useFree with ms := { s.ms with smallTaken := s.ms.smallTaken ++ [k] } }).showPools)
  | none => none

def State.takeLarge (s : State) : Option (Nat × State) :=
  match s.pickFree s.ms.largeTaken 256 with
  | some k => some (2048 + k, ({ s.useFree with ms := { s.ms with largeTaken := s.ms.largeTaken ++ [k] } }).showPools)
  | none => none

/-- The receive buffer a lane takes for a PSDU of `len` octets: small when it fits and one is free, else large (R310). -/
def State.rxTake (s : State) (len : Nat) : Option (Nat × State) :=
  if len ≤ 256 then (match s.takeSmall with | some r => some r | none => s.takeLarge) else s.takeLarge

/-- A receive buffer returns to its pool (R310). -/
def State.rxFree (s : State) (k : Nat) : State :=
  (if k < 2048 then { s with ms := { s.ms with smallTaken := without k s.ms.smallTaken } }
   else { s with ms := { s.ms with largeTaken := without (k - 2048) s.ms.largeTaken } }).showPools

/-- log2 of the burst of a requester class (Table 14.4). -/
def burstLog (c : Nat) : Nat :=
  if c = 0 ∨ c = 2 ∨ c = 3 then 2 else if c = 1 ∨ c = 6 ∨ c = 7 ∨ c = 8 ∨ c = 10 then 3 else 0

/-- The boot schedule (R324). -/
def bootSched : List Nat := (List.range 256).map (fun s => if s < 248 then 9 + s / 8 % 3 else 15)

/-- The class that owns slot `n` of the schedule in force; slots count on from frame to frame. -/
def State.slotClass (s : State) (n : Nat) : Nat :=
  match s.ms.sched[n % 256]? with
  | some c => c
  | none => 15

/-- How long a slot lasts: 8 cyc, and 64 cyc while the DRAM clock is at /16 (R317, R69). -/
def State.slotCyc (s : State) : Nat := if s.clk.dramDiv = 16 then 64 else 8

/-- The first slot from `n` up that `c` owns, of bank `b`, not taken, with the `j` slots from it all so (R320). -/
def State.findSlot (s : State) (c b j : Nat) : Nat → Nat → Option Nat
  | _, 0 => none
  | n, fuel + 1 =>
    if n % 8 = b ∧ (List.range j).all (fun i => s.slotClass (n + i) == c && !s.ms.slotsTaken.contains (n + i))
    then some n else s.findSlot c b j (n + 1) fuel

/-- Whether `k` consecutive chunks from `addr` are a run of the class (R319). -/
def isRun (c addr k : Nat) : Bool :=
  let z := 64 * 2 ^ burstLog c
  1 ≤ k && k ≤ 2 ^ burstLog c && addr / z = (addr + 64 * k - 1) / z

/-- Take slots for chunks that are served one by one (R320), with the chunk that each carries; none where the class owns no
slot. -/
def State.takeChunks (s : State) (c addr : Nat) : List Nat → Option (List (Nat × Nat) × State)
  | [] => some ([], s)
  | k :: ks =>
    match s.findSlot c ((addr / 64 + k) % 8) 1 (s.mtb / s.slotCyc + 1) (256 * (s.ms.slotsTaken.length + 2)) with
    | none => none
    | some n =>
      match State.takeChunks { s with ms := { s.ms with slotsTaken := s.ms.slotsTaken ++ [n] } } c addr ks with
      | none => none
      | some (l, t) => some ((n, k) :: l, t)

/-- The slots that chunks of a request take: as one run, or chunk by chunk. -/
def State.dramSlots (s : State) (r : DramReq) (asRun : Bool) (ks : List Nat) : Option (List (Nat × Nat) × State) :=
  if asRun then
    match s.findSlot r.cls (r.addr / 64 % 8) r.chunks (s.mtb / s.slotCyc + 1) (256 * (s.ms.slotsTaken.length + 2)) with
    | none => none
    | some n => some ((List.range r.chunks).map (fun i => (n + i, i)), { s with ms := { s.ms with
        slotsTaken := s.ms.slotsTaken ++ (List.range r.chunks).map (n + ·) } })
  else s.takeChunks r.cls r.addr ks

/-- Serve the chunks `ks` of a request (R320, R321): their slots are taken, the largest wait of its class recorded, and it is
under way. -/
def State.dramAssign (s : State) (r : DramReq) (ks : List Nat) : State :=
  let asRun := r.run && isRun r.cls r.addr r.chunks && ks.length = r.chunks
  match s.dramSlots r asRun ks with
  | none => s
  | some (l, t) =>
    let last := l.foldl (fun n x => max n x.1) 0
    let wait := last * s.slotCyc - s.mtb - (if asRun then s.slotCyc * (r.chunks - 1) else 0)
    let old := Store.get (fun _ => 0) t.ms.maxWait r.cls
    { t with ms := { t.ms with
        requests := t.ms.requests ++ [{ r with last := last, todo := l }],
        maxWait := Store.set (fun _ => 0) t.ms.maxWait r.cls (min 4095 (max old wait)) } }

/-- Serve a request that is presented. -/
def State.dramServe (s : State) (r : DramReq) : State := s.dramAssign r (List.range r.chunks)

/-- The octets of chunk `k` that a request covers: the first one's address, and how many. -/
def DramReq.part (r : DramReq) (k : Nat) : Nat × Nat :=
  let base := (r.addr / 64 + k) * 64
  let n := if r.write then r.data.length else 64 * r.chunks - r.addr % 64
  let a := max base r.addr
  (a, min (base + 64) (r.addr + n) - a)

/-- A slot carries a chunk of the request at place `i` (R322): a write changes the octets it writes, a read takes those it reads. -/
def State.dramChunk (s : State) (i slot k : Nat) : State :=
  match s.ms.requests[i]? with
  | none => s
  | some r =>
    let p := r.part k
    let r1 : DramReq := { r with
      todo := r.todo.filter (fun x => x.1 != slot),
      got := if r.write then r.got else Store.put k (s.readBytes p.1 p.2) r.got }
    let s := if r.write then s.writeBytes p.1 ((r.data.drop (p.1 - r.addr)).take p.2) else s
    { s with ms := { s.ms with requests := s.ms.requests.set i r1 } }

/-- The earliest slot still to come of the requests under way, with the request's place and the chunk. -/
def State.dramNext (s : State) : Option (Nat × Nat × Nat) :=
  firstBy (fun a b => a.1 < b.1) (s.ms.requests.zipIdx.flatMap (fun x => x.1.todo.map (fun y => (y.1, x.2, y.2))))

/-- What the slots up to `limit` carry, in slot order (R322). -/
def State.dramCarry (s : State) (limit : Nat) : Nat → State
  | 0 => s
  | fuel + 1 =>
    match s.dramNext with
    | none => s
    | some (slot, i, k) => if limit < slot then s else (s.dramChunk i slot k).dramCarry limit fuel

/-- The chunks still to be carried. -/
def State.dramLeft (s : State) : Nat := s.ms.requests.foldl (fun n r => n + r.todo.length) 0

/-- The slots from the present one on are given anew, in the order in which the requests were presented: after a change of the schedule
(R324) or of the DRAM clock (R69). -/
def State.dramAnew (s : State) : State :=
  let l := s.ms.requests
  let s : State := { s with ms := { s.ms with requests := [], slotsTaken := [] } }
  s.each l (fun s r =>
    if r.todo.isEmpty then { s with ms := { s.ms with requests := s.ms.requests ++ [r] } }
    else s.dramAssign r (r.todo.map (·.2)))

/-- A delay of the controller in cyc, 8 times as long while the DRAM clock is at /16 (R69). -/
def State.dramCyc (s : State) (n : Nat) : Nat := n * (s.slotCyc / 8)

/-- A DRAM restart holds every request presented during it (R69). -/
def State.dramHeld (s : State) : Bool := s.clk.restarts.any (fun r => r.domain == 0)

/-- The oldest request under way of a class and direction, and the others. -/
def takeReq (c : Nat) (w : Bool) : List DramReq → Option (DramReq × List DramReq)
  | [] => none
  | r :: rs => if r.cls = c ∧ r.write = w then some (r, rs)
    else match takeReq c w rs with
      | some (q, qs) => some (q, r :: qs)
      | none => none

/-- Slots that have passed are forgotten. -/
def State.forgetSlots (s : State) : State :=
  { s with ms := { s.ms with slotsTaken := s.ms.slotsTaken.filter (fun n => s.mtb < (n + 1) * s.slotCyc) } }

/-- The requester can present a request (R69, R70): its unit is neither gated nor has a gate request pending, its bobbin's clock
runs. -/
def State.mayRequest (s : State) (r : Requester) : Bool :=
  match r with
  | .unit u => !s.gatedOrPending u
  | .bobbin b => !(match s.hoopOf b with | some h => s.stoppedClock (4 + h) | none => true)
  | .other => true

/-- DRAM_READ_DONE: the oldest read of the class delivers its last chunk, 118 cyc after its slot's start (R321). -/
def execDramReadDone (cls : Fin 16) (s : State) : Res :=
  match takeReq cls false s.ms.requests with
  | none => .next s
  | some (r, _) =>
    let s := s.dramCarry r.last s.dramLeft
    match takeReq cls false s.ms.requests with
    | none => .next s
    | some (r, rs) =>
      let d := (List.range r.chunks).flatMap (fun k => Store.get (fun _ => []) r.got k)
      let s := s.advance (r.last * s.slotCyc + s.dramCyc 118)
      .next (({ s with ms := { s.ms with requests := rs } }).emit (.dramRead cls r.addr d))

/-- DRAM_WRITE_DONE: the oldest write of the class is complete for its writer, 40 cyc after its last slot's start (R322). -/
def execDramWriteDone (cls : Fin 16) (s : State) : Res :=
  match takeReq cls true s.ms.requests with
  | none => .next s
  | some (r, _) =>
    let s := s.dramCarry r.last s.dramLeft
    match takeReq cls true s.ms.requests with
    | none => .next s
    | some (r, rs) =>
      let s := s.advance (r.last * s.slotCyc + s.dramCyc 40)
      .next (({ s with ms := { s.ms with requests := rs } }).journalAt r.addr r.data)

/-- DRAM_REFRESH_SLOT: a refresh slot refreshes its bank when the bank's interval calls for it (R323). -/
def execDramRefreshSlot (bank : Fin 8) (due : Bool) (s : State) : Res :=
  if due then .next (({ s with ms := { s.ms with refreshed := Store.set (fun _ => 0) s.ms.refreshed bank s.mtb } }).emit
    (.refresh bank))
  else .next s

/-- DRAM_SCHEDULE_SWITCH: the first frame that starts after the cyc in which step 6 ended takes the pricking's schedule; requests
already presented are then served under it (R324). -/
def execDramScheduleSwitch (s : State) : Res :=
  match s.ms.switchAt with
  | none => .next s
  | some t =>
    let frame := 256 * s.slotCyc
    let first := (t / frame + 1) * frame
    let s := (s.dramCarry (first / s.slotCyc - 1) s.dramLeft).advance first
    .next ((({ s with ms := { s.ms with sched := s.pr.dram, switchAt := none } }).dramAnew).setF R.MEM_STATE_SCHED 1)

/-- MEM_BUF_TAKE: a read of MEM_BUF takes a free packet buffer and returns its address, or 0 (R327). -/
def execMemBufTake (s : State) : Res :=
  match s.pktTake with
  | (some a, t) => .next (t.emit (.pktBuffer a))
  | (none, t) => .next (t.emit (.pktBuffer 0))

/-- A write of MEM_BUF: the buffer that starts at the address returns (R327). -/
def State.memBufReturn (s : State) (a : Nat) : State :=
  match s.pktOf a with
  | some k => if k ∈ s.ms.pktTaken then (s.pktFree a).answer ST.OK else s.memRefuse ST.MEM_BUF_ARG
  | none => s.memRefuse ST.MEM_BUF_ARG

/-- MEM_BUF_RETURN: a write of MEM_BUF (R327). -/
def execMemBufReturn (addr : Word) (s : State) : Res := .next (s.memBufReturn addr.toNat)

/-- The flash map (Table 14.6): (first page, pages, open to register reads, open to register programs and erases). -/
def flashAreas : List (Nat × Nat × Bool × Bool) :=
  [(0, 128, true, false), (128, 64, false, false), (192, 64, false, false), (256, 128, true, false),
   (384, 128, false, false), (512, 256, true, false), (768, 256, true, false), (1024, 1024, true, true),
   (2048, 1024, true, true), (3072, 6144, true, false), (9216, 6144, true, false), (15360, 16384, true, true),
   (31744, 1024, false, false)]

/-- The area that holds a page. -/
def flashArea (p : Nat) : Option (Nat × Nat × Bool × Bool) :=
  flashAreas.find? (fun a => a.1 ≤ p && p < a.1 + a.2.1)

/-- Whether every page of a command lies in an area open to register commands for the operation (R329). -/
def areaOpen (op page n : Nat) : Bool :=
  (List.range n).all (fun i =>
    match flashArea (page + i) with
    | some a => if op = 1 then a.2.2.1 else a.2.2.2
    | none => true)

/-- Whether the pages of a command exist and lie in one area (R329). -/
def areaOne (page n : Nat) : Bool :=
  match flashArea page with
  | some a => page + n ≤ a.1 + a.2.1
  | none => false

/-- The controller starts the oldest waiting operation when none is in progress and its clock is not gated (R330, R70). -/
def State.nandStart (s : State) : State :=
  match s.ms.nand, s.ms.nandWait with
  | none, o :: os =>
    if s.gatedOrPending gateNand then s.setF R.MEM_NAND_STAT_BUSY 0
    else ({ s with ms := { s.ms with nand := some o, nandWait := os } }).setF R.MEM_NAND_STAT_BUSY 1
  | none, [] => s.setF R.MEM_NAND_STAT_BUSY 0
  | some _, _ => s

/-- An operation is handed to the controller, which starts it or has it wait (R330). -/
def State.nandSubmit (s : State) (o : NandOp) : State :=
  ({ s with ms := { s.ms with nandWait := s.ms.nandWait ++ [o] } }).nandStart

/-- During a trial, the settings area of the primary slot takes no program and no erase (R477). -/
def State.trialProtects (s : State) (page n : Nat) : Bool :=
  match s.up.rec_ with
  | none => false
  | some r =>
    let first := 1024 + 1024 * r.settings.getD r.primary 0
    r.trial != 0 && page < first + 1024 && first < page + n

/-- A write of MEM_NAND_CMD (R329, R330), judged in the order of R499. An erase erases one block of 64 pages. -/
def State.nandCmd (s : State) (op count : Nat) : State :=
  let page := s.getF R.MEM_NAND_ADDR_PAGE
  let buf := s.getF R.MEM_NAND_BUF_ADDR
  let pages := if op = 3 then 64 else count
  if !areaOpen op page pages || (op != 1 && s.trialProtects page pages) then s.memRefuse ST.MEM_NAND_AREA
  else if op = 0 || 3 < op || count = 0 || 64 < count || (op = 3 && (count != 1 || page % 64 != 0)) ||
      !areaOne page pages ||
      (op != 3 && (buf % 64 != 0 || !(inDram buf || inFirmwareArea buf))) then s.memRefuse ST.MEM_RANGE
  else if s.gatedOrPending gateNand then s.gatedRefuse gateNand R.MEM_CMD_ERR_STATUS
  else if op = 2 && (List.range count).any (fun i => s.ms.programmed.contains (page + i)) then
    s.memRefuse ST.MEM_NAND_STATE
  else if s.ms.nand.isSome then s.memRefuse ST.MEM_NAND_BUSY
  else (s.nandSubmit ⟨0, op, page, count, buf, []⟩).answer ST.OK

/-- NAND_READ, NAND_PROGRAM, NAND_ERASE: MEM_NAND_CMD with OP 1, 2, 3; the page and the buffer stand in MEM_NAND_ADDR
and MEM_NAND_BUF. -/
def execNandRead (count : Fin 128) (s : State) : Res := .next (s.nandCmd 1 count)
def execNandProgram (count : Fin 128) (s : State) : Res := .next (s.nandCmd 2 count)
def execNandErase (count : Fin 128) (s : State) : Res := .next (s.nandCmd 3 count)

/-- Octets that nothing determines. -/
def freeBytes (v : Nat) : Nat → List Byte
  | 0 => []
  | n + 1 => BitVec.ofNat 8 v :: freeBytes (v / 256) n

/-- Pages become programmed with data. -/
def State.programPages (s : State) (page count : Nat) (d : List Byte) : State :=
  let s := s.flashWrite (4096 * page) d
  { s with ms := { s.ms with programmed := s.ms.programmed ++ (List.range count).map (page + ·) } }

/-- A block's pages are erased. -/
def State.erasePages (s : State) (page count : Nat) : State :=
  { s with
    flash := s.flash.filter (fun c => c.1 < 4096 * page || 4096 * (page + count) ≤ c.1),
    ms := { s.ms with programmed := s.ms.programmed.filter (fun p => p < page || page + count ≤ p) } }

/-- What an operation leaves in memory or in the flash: done, or failed on the die (R330). A page whose program failed
holds nothing the spec states, so it holds a free value. -/
def State.nandEffect (s : State) (o : NandOp) (ok : Bool) : State :=
  if o.op = 1 then (if ok then s.writeBytes o.buf (s.flashBytes (4096 * o.page) (4096 * o.count)) else s)
  else if o.op = 2 then
    if ok then s.programPages o.page o.count (if o.who = 0 then s.readBytes o.buf (4096 * o.count) else o.data)
    else s.useFree.programPages o.page o.count (freeBytes s.freeVal (4096 * o.count))
  else if ok then s.erasePages o.page 64
  else s.useFree.programPages o.page 64 (freeBytes s.freeVal (4096 * 64))

/-- MEM_EVENT_EN.CLR: the ECC counters, the drop counter and every class's largest wait are cleared (R333). -/
def State.memClear (s : State) : State :=
  (({ s with ms := { s.ms with maxWait := [] } }).setReg R.MEM_ECC_STAT 0).setF R.MEM_POOL_DROPS 0

/-- MEM_COUNT_CLEAR: a write of 1 to MEM_EVENT_EN.CLR. -/
def execMemCountClear (s : State) : Res := .next (s.memClear.answer ST.OK)

/-- A receive endpoint takes a frame (R327): its buffer, or none where it is too long or no buffer is free. -/
def State.frameIn (s : State) (len : Nat) : Option (Nat × State) :=
  if 2048 < len then none
  else match s.pktTake with
    | (some a, t) => some (a, t)
    | (none, _) => none

/-- The frame is discarded whole: counted, and the event set (R327). -/
def State.frameDrop (s : State) (len : Nat) : State :=
  ((s.bump R.MEM_POOL_DROPS).raise R.MEM_EVENT_POOL_EMPTY).answer
    (if 2048 < len then ST.MEM_OVERSIZE else ST.MEM_POOL_EMPTY)

end Sys2Proof.Machine
end

