-- ==== Sys2Proof/Machine/Time.lean ====
section
/-!
DEFINITION. Network time (06_network_time.md): device time and mesh time, the PTP domains, the choice of the reference,
peer time over the tie link.

Device time is kept in units of 2^-32 cyc; offsets are in quarter nanoseconds, the unit of TIME_DOMd_OFFSET, and positive
when device time is ahead. The filter of the mean path delay, the servo's prediction and its output are not specified:
each is a free value.
-/
namespace Sys2Proof.Machine

/-! ### Device time and mesh time (R131) -/

/-- TIME_RATE.RATE as a number. -/
def State.rate (s : State) : Int := signed 32 (s.getF R.TIME_RATE_RATE)

/-- Device time at MAC time base `t`, in units of 2^-32 cyc. -/
def State.dev32 (s : State) (t : Nat) : Int := s.tm.anchor + ((t : Int) - (s.tm.anchorTb : Int)) * (2 ^ 32 + s.rate)

/-- Units of 2^-32 cyc in quarter nanoseconds, and back. -/
def toQns (d : Int) : Int := d * 512 / (165 * 2 ^ 32)
def ofQns (q : Int) : Int := q * 165 * 2 ^ 32 / 512

/-- Device time at `t` in quarter nanoseconds. -/
def State.devQ (s : State) (t : Nat) : Int := toQns (s.dev32 t)

/-- Whole seconds of device time, and the nanoseconds within. -/
def State.devSec (s : State) (t : Nat) : Nat := (s.dev32 t / ((secCyc : Nat) * 2 ^ 32 : Nat)).toNat
def State.devNs (s : State) (t : Nat) : Nat :=
  (s.dev32 t % ((secCyc : Nat) * 2 ^ 32 : Nat) * 128 / (165 * 2 ^ 32)).toNat

/-- Device time takes a value at `t`. -/
def State.setDev32 (s : State) (t : Nat) (d : Int) : State := { s with tm := { s.tm with anchorTb := t, anchor := d } }

/-- The rate changes now; device time is continuous (R134, R137). -/
def State.setRate (s : State) (r : Int) : State :=
  (s.setDev32 s.mtb (s.dev32 s.mtb)).setF R.TIME_RATE_RATE (unsigned 32 r)

/-- The timeslot templates (Table 10.1), µs: TsTimeslotLength, TsCCAOffset, TsCCA, TsTxOffset, TsRxOffset, TsRxAckDelay,
TsTxAckDelay, TsRxWait, TsAckWait, TsRxTx, TsMaxAck, TsMaxTx. -/
def templates : List (List Nat) :=
  [[10000, 1800, 128, 2120, 1020, 800, 1000, 2200, 400, 192, 2400, 4256],
   [10000, 400, 1500, 2120, 1020, 800, 1000, 2200, 400, 192, 2400, 4256],
   [20000, 1800, 128, 2120, 1020, 800, 1000, 2200, 400, 192, 4000, 12000],
   [20000, 400, 5000, 5800, 4700, 800, 1000, 2200, 400, 192, 4000, 9000],
   [40000, 1800, 128, 2120, 1020, 800, 1000, 2200, 400, 192, 6000, 30000],
   [40000, 400, 5000, 5800, 4700, 800, 1000, 2200, 400, 192, 6000, 27000]]

/-- Column `k` of template `n`, in µs. -/
def tplUs (n k : Nat) : Nat := (templates.getD n []).getD k 0

/-- The slot duration in cyc (R217): that of the TSCH PANs, 10,000 µs when there is none. -/
def State.slotCycs (s : State) : Nat :=
  match s.pr.pans.find? (fun p => p.access == 1) with
  | some p => usToCyc (tplUs p.template 0)
  | none => usToCyc 10000

/-- The epoch in seconds. -/
def State.epoch (s : State) : Nat := s.getF R.TIME_EPOCH_LO_V + 2 ^ 32 * s.getF R.TIME_EPOCH_HI_V

/-- Device time less the epoch at `t`, in units of 2^-32 cyc. -/
def State.mesh32 (s : State) (t : Nat) : Int := s.dev32 t - (s.epoch * secCyc * 2 ^ 32 : Nat)

/-- ASN and offset within the slot at `t` (R131). -/
def State.asn (s : State) (t : Nat) : Nat := (s.mesh32 t / (s.slotCycs * 2 ^ 32 : Nat) % (2 ^ 40 : Nat)).toNat
def State.slotOff (s : State) (t : Nat) : Nat := (s.mesh32 t % (s.slotCycs * 2 ^ 32 : Nat) / 2 ^ 32).toNat

/-- The MAC time base at which slot `k` slots after the one in progress starts. -/
def State.slotStart (s : State) (t k : Nat) : Nat :=
  let left := (k * s.slotCycs * 2 ^ 32 : Nat) - s.mesh32 t % (s.slotCycs * 2 ^ 32 : Nat)
  ((t : Int) + (left + (2 ^ 32 + s.rate) - 1) / (2 ^ 32 + s.rate)).toNat

/-! ### Domains (R129) -/

def State.domain (s : State) (d : Nat) : Domain := if d = 1 then s.tm.dom1 else s.tm.dom2
def State.setDomain (s : State) (d : Nat) (v : Domain) : State :=
  if d = 1 then { s with tm := { s.tm with dom1 := v } } else { s with tm := { s.tm with dom2 := v } }

/-- A domain's state: 0 DISABLED, 1 LISTENING, 2 ACQUIRING, 3 LOCKED, 4 FROZEN. The domain registers are numbered from 0. -/
def State.domState (s : State) (d : Nat) : Nat := s.getF (R.TIME_DOM_STAT_STATE (d - 1))
def State.setDomState (s : State) (d st : Nat) : State :=
  (s.setF (R.TIME_DOM_STAT_STATE (d - 1)) st).setF (if d = 1 then R.TIME_STATE_DOM1 else R.TIME_STATE_DOM2) st

/-- A signed number in a 32-bit register of quarter nanoseconds; one that does not fit leaves it open. -/
def State.putQ (s : State) (f : Field) (q : Int) : State :=
  if -2147483648 < q ∧ q < 2147483648 then s.setF f (unsigned 32 q) else s.useFree.setF f s.freeVal

/-- The last measured offset of a domain, none when there is none. -/
def State.domOffset (s : State) (d : Nat) : Option Int := (s.domain d).offset

/-- A domain's offset has been measured: kept whole, shown where the register holds it. -/
def State.setOffset (s : State) (d : Nat) (q : Int) : State :=
  (s.setDomain d { s.domain d with offset := some q }).putQ (R.TIME_DOM_OFFSET_V (d - 1)) q

/-- The filtered mean path delay of a domain. -/
def State.domDelay (s : State) (d : Nat) : Option Int :=
  let v := s.getF (R.TIME_DOM_DELAY_V (d - 1))
  if v = 0x80000000 then none else some (signed 32 v)

/-! ### Peer time (R140) and the reference (R136, R139, R141) -/


/-- Peer time is valid. -/
def State.peerValid (s : State) : Bool :=
  match s.tm.peerAt with
  | some a => s.tm.peerOk && s.mtb < a + 8 * 1048576
  | none => false

/-- The peer's device time less the own one. -/
def State.peerOffset (s : State) : Option Int := if s.peerValid then s.tm.peerOff else none

/-- The peer's offset is known: kept whole, shown where the register holds it. -/
def State.setPeerOff (s : State) (q : Int) : State :=
  ({ s with tm := { s.tm with peerOff := some q } }).putQ R.TIME_PEER_OFFSET q

/-- TIME_LIMIT.JUMP_NS in quarter nanoseconds. -/
def State.jumpQ (s : State) : Int := 4 * (s.getF R.TIME_LIMIT_JUMP_NS : Nat)

/-- Whether a reference's offset lies within JUMP_NS. -/
def State.within (s : State) (o : Option Int) : Bool :=
  match o with
  | some q => decide (q.natAbs ≤ s.jumpQ.natAbs)
  | none => false

/-- The peer may be a reference: with a PAIR section alone (R48: else the tie link serves for comparison only). -/
def State.peerRefers (s : State) : Bool := s.pairOn && s.peerValid

/-- The reference that the rules choose with `cur` as the present one (R136, R139, R141): 0 none, 1 or 2 a domain, 3 the peer. It
is not left while it is good, but for FORCE and by a STANDBY unit. -/
def State.chooseRef (s : State) (cur : Nat) : Nat :=
  let sel := s.getF R.TIME_CTRL_SEL_DOM
  let locked := fun d => s.domState d = 3
  if s.pairRole = 2 ∧ s.peerRefers then 3
  else if (sel = 1 ∨ sel = 2) ∧ locked sel then sel
  else if s.tm.holds then 0
  else if (cur = 1 ∨ cur = 2) ∧ locked cur then cur
  else if cur = 3 ∧ s.peerRefers then 3
  else if locked 1 then 1
  else if locked 2 then 2
  else if s.peerRefers && s.within s.peerOffset then 3
  else 0

/-- Another reference: reported where there is one; a slew or a refusal of the old one's offset ends, RATE stays (R136, R137). -/
def State.setRef (s : State) (n : Nat) : State :=
  if n = s.getF R.TIME_STATE_SEL then s
  else
    let s := ({ s with tm := { s.tm with slewing := false, holds := s.tm.holds && n == 0 } }).setF R.TIME_STATE_REFUSED 0
    (s.setF R.TIME_STATE_SEL n).raiseIf (n ≠ 0) R.TIME_EVENT_DOM_SWITCH

/-- The reference is chosen anew. -/
def State.reselect (s : State) : State := s.setRef (s.chooseRef (s.getF R.TIME_STATE_SEL))

/-- A unit that becomes ACTIVE passes from the peer to its own domains (R141). -/
def State.reselectOwn (s : State) : State :=
  let s : State := { s with tm := { s.tm with holds := false } }
  s.setRef (s.chooseRef (if s.getF R.TIME_STATE_SEL = 3 then 0 else s.getF R.TIME_STATE_SEL))

/-! ### The servo (R133 to R135) -/

/-- Whether device time may be corrected by rate: the step has been made or can no longer be (R133, R134). -/
def State.rateRuns (s : State) : Bool := s.isSet R.TIME_STATE_STEPPED || s.tm.ebByWait || s.tm.stdbySet

/-- SLEW in units of 2^-32 (R135). -/
def State.slewRate (s : State) : Int := divRound (s.getF R.TIME_LIMIT_SLEW * 2 ^ 32) 100000000

/-- The selected reference's offset corrects device time by rate (R134), or is refused (R135). While it slews, RATE is SLEW
itself, with the sign towards the reference, and not SLEW more than the held RATE (DESIGN CHOICE,
notes/assumptions/19.md). -/
def State.correct (s : State) (off : Int) : State :=
  if !s.rateRuns then s
  else if s.jumpQ < off.natAbs then
    if s.tm.slewing then s.setRate (if 0 < off then -s.slewRate else s.slewRate)
    else if s.isSet R.TIME_STATE_REFUSED then s
    else (s.setF R.TIME_STATE_REFUSED 1).raise R.TIME_EVENT_JUMP_REFUSED
  else
    let s := ({ s with tm := { s.tm with slewing := false } }).setF R.TIME_STATE_REFUSED 0
    let r := signed 32 (s.freeVal % 2 ^ 32)
    if 85899 < r then (s.useFree.setRate 85899).raise R.TIME_EVENT_RATE_CLIP
    else if r < -85899 then (s.useFree.setRate (-85899)).raise R.TIME_EVENT_RATE_CLIP
    else s.useFree.setRate r

/-- A domain reaches LOCKED (R129): the first one fixes the boundary of the step (R133), unless the unit has set its mesh time as
a STANDBY (R141), and the reference is chosen; while R139 holds RATE this domain becomes the reference. -/
def State.enterLocked (s : State) (d : Nat) : State :=
  let s := (s.setDomState d 3).raise R.TIME_EVENT_LOCKED
  let s :=
    if s.isSet R.TIME_STATE_STEPPED || s.tm.ebByWait || s.tm.step.isSome || s.pairRole = 2 || s.tm.stdbySet then s
    else
      let off := match s.domOffset d with | some q => ofQns q | none => 0
      let slot : Int := (s.slotCycs * 2 ^ 32 : Nat)
      let now := s.mesh32 s.mtb - off
      let n := -((-(now + 2 * slot)) / slot)
      { s with tm := { s.tm with
        step := some (d, ((s.mtb : Int) + (n * slot - now + (2 ^ 32 + s.rate) - 1) / (2 ^ 32 + s.rate)).toNat) } }
  let cur := if s.tm.holds then d else s.getF R.TIME_STATE_SEL
  let s : State := { s with tm := { s.tm with holds := false } }
  s.setRef (s.chooseRef cur)

/-- A frozen domain whose reference is gone is judged against the peer (R139: so are both when both are frozen); without it,
FREEZE_S counts from now (R129). -/
def State.rejudge (s : State) : State :=
  s.each [1, 2] (fun s d =>
    let v := s.domain d
    let gone := if v.refer = 3 then !s.peerRefers else v.refer ≠ 0 && s.domState v.refer ≠ 3
    if s.domState d = 4 && gone then
      let p := s.peerRefers && s.within s.peerOffset
      s.setDomain d { v with refer := if p then 3 else 0, frozenAt := if p then v.frozenAt else s.mtb }
    else s)

/-- A domain enters FROZEN (R138, R139). -/
def State.freeze (s : State) (d : Nat) : State :=
  let o := 3 - d
  let ref := if s.domState o = 3 ∧ s.within (s.domOffset o) then o
    else if s.peerRefers && s.within s.peerOffset then 3 else 0
  let s := ((s.setDomState d 4).raise R.TIME_EVENT_FROZEN).bump (R.TIME_DOM_COUNT_FREEZES (d - 1))
  let s := (s.setF (R.TIME_DOM_STAT_PASS (d - 1)) 0).setDomain d
    { s.domain d with refer := ref, frozenAt := s.mtb, deviates := 0 }
  let s :=
    if s.getF R.TIME_STATE_SEL ≠ d then s
    else if ref ≠ 0 then s.setRef ref
    else
      let s : State := s.setRef 0
      ({ s with tm := { s.tm with holds := true } }).raise R.TIME_EVENT_NO_REF
  s.rejudge

/-- A measurement deviates (R129): it does not enter the servo; the second in a row freezes a LOCKED domain. -/
def State.deviate (s : State) (d : Nat) : State :=
  let v := s.domain d
  if s.domState d = 3 then
    if v.deviates = 1 then s.freeze d else s.setDomain d { v with deviates := 1 }
  else s

/-- STEP_NS and LOCK_NS of a domain in quarter nanoseconds. -/
def State.stepQ (s : State) (d : Nat) : Nat := 4 * s.getF (R.TIME_DOM_CFG_STEP_NS (d - 1))
def State.lockQ (s : State) (d : Nat) : Nat := 4 * s.getF (R.TIME_DOM_CFG_LOCK_NS (d - 1))

/-- PASS counts consecutive offsets within ±LOCK_NS (Table of TIME_DOMd_STAT). -/
def State.tally (s : State) (d : Nat) (off : Int) : State :=
  let f := R.TIME_DOM_STAT_PASS (d - 1)
  if off.natAbs ≤ s.lockQ d then s.bump f else s.setF f 0

/-- An offset is counted; at 16 in a row the domain locks (R129). -/
def State.countPass (s : State) (d : Nat) (off : Int) : State :=
  let s := s.tally d off
  if 16 ≤ s.getF (R.TIME_DOM_STAT_PASS (d - 1)) then s.enterLocked d else s

/-- An offset measurement of a domain (R129, R133, R139). Before the step an ACQUIRING or LOCKED domain's offsets are judged from
the first one, since device time has not yet been set to any scale. -/
def State.measure (s : State) (d : Nat) (off : Int) : State :=
  let s := s.setOffset d off
  let pred := signed 32 (s.freeVal % 2 ^ 32)
  let s := s.useFree
  let v := s.domain d
  let bad := decide (s.stepQ d < (off - pred).natAbs)
  let base := if s.isSet R.TIME_STATE_STEPPED then 0 else match v.base with | some b => b | none => off
  if s.domState d = 2 then (s.setDomain d { v with base := some base }).countPass d (off - base)
  else if s.domState d = 3 then
    let s := s.tally d (off - base)
    if bad then s.deviate d
    else
      let s := s.setDomain d { v with deviates := 0 }
      if s.getF R.TIME_STATE_SEL = d then s.correct off else s
  else if s.domState d = 4 then
    let ref := if v.refer = 3 then s.peerOffset.map (fun q => -q)
      else if v.refer = 0 then none
      else if s.domState v.refer = 3 then s.domOffset v.refer else none
    match ref with
    | some r => s.countPass d (off - r)
    | none => s
  else s

/-- A raw mean path delay (R129): in a LOCKED domain it deviates by more than STEP_NS, or it enters the filter. A domain that
acquires or is frozen takes its path as it now is (Table 06.3, step 4). -/
def State.measureDelay (s : State) (d : Nat) (raw : Int) : State :=
  match s.domDelay d with
  | none => s.putQ (R.TIME_DOM_DELAY_V (d - 1)) raw
  | some f =>
    if s.domState d = 3 && decide (s.stepQ d < (raw - f).natAbs) then s.deviate d
    else
      (s.setDomain d { s.domain d with deviates := 0 }).useFree.setF (R.TIME_DOM_DELAY_V (d - 1)) (s.freeVal % 0x80000000)

/-- A Sync's measurement: arrival `t2`, origin `t1` with its correction. -/
def State.syncMeasure (s : State) (d : Nat) (t1 t2 : Int) : State :=
  let s := s.setDomain d { s.domain d with rawMs := some (t2 - t1), syncAt := none }
  let delay := match s.domDelay d with | some q => q | none => 0
  s.measure d (t2 - t1 - delay - signed 32 (s.getF (R.TIME_DOM_ASYM_ASYM (d - 1))))

/-- A domain's state beside its registers once it has no time transmitter or a new one. The last offset and the filtered path
delay stay as they are until the next measurement, which the spec does not say (DESIGN CHOICE, notes/assumptions/19.md). -/
def State.domAnew (s : State) (d : Nat) : State :=
  (s.setF (R.TIME_DOM_STAT_PASS (d - 1)) 0).setDomain d { offset := (s.domain d).offset }

/-- A domain returns to LISTENING (R129): announce time-out, or link loss on its port. -/
def State.domLost (s : State) (d : Nat) : State :=
  if s.domState d < 2 then s
  else
    let s := ((s.setDomState d 1).raise R.TIME_EVENT_DOM_LOST).bump (R.TIME_DOM_COUNT_LOSSES (d - 1))
    let s := s.domAnew d
    (if s.getF R.TIME_STATE_SEL = d then s.reselect else s).rejudge

/-- Link loss on an upstream port: the domains that chose it are lost (R129). -/
def State.timePortLost (s : State) (port : Nat) : State :=
  s.each [1, 2] (fun s d => if s.getF (R.TIME_DOM_STAT_PORT (d - 1)) = port then s.domLost d else s)

/-- Arrival and departure stamps on a port, in quarter nanoseconds of device time (R143). -/
def portLat (port : Nat) : Nat := 4 * port
def State.rxStamp (s : State) (port t : Nat) : Int :=
  s.devQ t - signed 16 (s.getF (R.TIME_LAT_UPL0_RX_ADJ.off (portLat port)))
def State.txStamp (s : State) (port t : Nat) : Int :=
  s.devQ t + signed 16 (s.getF (R.TIME_LAT_UPL0_TX_ADJ.off (portLat port)))

/-- Whether Enhanced Beacons are permitted (R132), shown in TIME_STATE.EB_OK. -/
def State.ebOk (s : State) : Bool :=
  s.isSet R.TIME_STATE_STEPPED || s.isSet R.TIME_CFG_EB_BEFORE_LOCK || s.pr.time.domains = 0 || s.tm.waitDone

/-- Whether they are permitted by LOCK_WAIT_S alone (R133). -/
def State.ebByWaitOnly (s : State) : Bool :=
  s.tm.waitDone && !(s.isSet R.TIME_STATE_STEPPED || s.isSet R.TIME_CFG_EB_BEFORE_LOCK || s.pr.time.domains = 0)

/-- The first entry to SERVICE starts mesh time at ASN 0 with RATE 0 (R132). -/
def State.timeStart (s : State) : State :=
  if s.tm.started then s
  else
    let s := s.setF R.TIME_RATE_RATE 0
    ({ s with tm := { s.tm with started := true } }).setDev32 s.mtb ((s.epoch * secCyc * 2 ^ 32 : Nat))

/-- The domains that the TIME section names start listening (R127); the fields of one it does not name are 0. -/
def State.timeLoad (s : State) : State :=
  s.each [1, 2] (fun s d =>
    let on := decide (d ≤ s.pr.time.domains)
    let s := s.setF (R.TIME_DOM_STAT_DOMAIN (d - 1)) (if !on then 0 else if d = 1 then s.pr.time.dom1 else s.pr.time.dom2)
    let s := s.setB (R.TIME_DOM_STAT_PROFILE (d - 1)) (on && bitOf s.pr.time.profile (d - 1))
    let s := s.setB (R.TIME_DOM_STAT_DELAY (d - 1)) (on && bitOf s.pr.time.delay (d - 1))
    if on then (if s.domState d = 0 then s.setDomState d 1 else s) else (s.setDomState d 0).setDomain d {})

/-- What is kept of a domain's measurements when device time is set forward by `q` quarter nanoseconds. -/
def Domain.shift (v : Domain) (q : Int) : Domain :=
  let move := Option.map (fun x => x + q)
  { v with base := none, offset := move v.offset, rawMs := move v.rawMs, syncAt := move v.syncAt, reqAt := move v.reqAt }

/-- Device time is set forward by `q` quarter nanoseconds; every offset from it moves with it (R133, R141). -/
def State.stepDev (s : State) (q : Int) : State :=
  let s := s.setDev32 s.mtb (s.dev32 s.mtb + ofQns q)
  let s := s.each [1, 2] (fun s d =>
    let v := (s.domain d).shift q
    let s := s.setDomain d v
    match v.offset with | some o => s.setOffset d o | none => s)
  match s.peerOffset with
  | some o => s.setPeerOff (o - q)
  | none => s

/-- A standby unit takes the peer's epoch and sets its mesh time once (R141). -/
def State.standbyTime (s : State) : State :=
  match s.tm.peer with
  | none => s
  | some f =>
    if s.pairRole = 2 ∧ s.peerRefers then
      let s := (s.setF R.TIME_EPOCH_LO_V f.epoch).setF R.TIME_EPOCH_HI_V (f.epoch / 2 ^ 32)
      let s :=
        if s.tm.stdbySet then s
        else
          let s := s.stepDev (match s.peerOffset with | some q => q | none => 0)
          { s with tm := { s.tm with stdbySet := true } }
      s.reselect
    else s

/-- A TIME refusal (R144). -/
def State.timeRefuse (s : State) (st : Nat) : State := s.refuse R.TIME_CMD_ERR_STATUS st

/-! ### Commands -/

/-- A port and a transport on which a domain takes messages (Table 06.1): the port carries frames (R105); UDP/IPv6 belongs to the
default profile alone. -/
def State.ptpHears (s : State) (d port : Nat) (via : PtpVia) : Bool :=
  s.uplCarries port && (via == .ethernet || (via == .udp6 && !s.isSet (R.TIME_DOM_STAT_PROFILE (d - 1))))

/-- PTP_ANNOUNCE_RX: an Announce message; `chosen` says that the BMCA of the domain's profile chooses its sender, whose
grandmaster is `gm` (R129). -/
def execPtpAnnounceRx (dom : Fin 2) (port : Fin 2) (via : PtpVia) (gm : BitVec 64) (chosen : Bool) (t : Nat)
    (s : State) : Res :=
  let d := dom.val + 1
  let s := s.advance t
  if s.domState d = 0 || !chosen || !s.ptpHears d port via then .next s
  else
    let lo := R.TIME_DOM_GM_LO_GM dom
    let hi := R.TIME_DOM_GM_HI_GM dom
    let same := s.getF lo = idLo gm.toNat && s.getF hi = idHi gm.toNat
    let old := s.domState d
    let moved := s.getF (R.TIME_DOM_STAT_PORT dom) ≠ port
    let s := ((s.setF lo (idLo gm.toNat)).setF hi (idHi gm.toNat)).setF (R.TIME_DOM_STAT_PORT dom) port
    let s := s.setB (R.TIME_DOM_STAT_TRANSPORT dom) (via == .udp6)
    if old = 1 || !same then
      let s := (s.setDomState d 2).domAnew d
      .next (if s.getF R.TIME_STATE_SEL = d then s.reselect else s).rejudge
    else if moved then .next (s.setDomain d { s.domain d with rawMs := none, syncAt := none, reqAt := none })
    else .next s

/-- Whether a message of a domain counts: it has a time transmitter, on this port. -/
def State.ptpTakes (s : State) (d port : Nat) (via : PtpVia) : Bool :=
  2 ≤ s.domState d && s.getF (R.TIME_DOM_STAT_PORT (d - 1)) = port && s.ptpHears d port via

/-- PTP_SYNC_RX: a Sync of the chosen time transmitter, with its origin and correction (R129); a two-step one waits for
its Follow_Up (R128). -/
def execPtpSyncRx (dom : Fin 2) (port : Fin 2) (via : PtpVia) (twoStep : Bool) (origin : Int) (t : Nat) (s : State) : Res :=
  let d := dom.val + 1
  let s := s.advance t
  if !s.ptpTakes d port via then .next s
  else
    let s := s.setB (R.TIME_DOM_STAT_TWO_STEP dom) twoStep
    let t2 := s.rxStamp port t
    if twoStep then .next (s.setDomain d { s.domain d with syncAt := some t2 })
    else .next (s.syncMeasure d origin t2)

/-- PTP_FOLLOW_UP_RX: completes the measurement of a two-step Sync (R128). -/
def execPtpFollowUpRx (dom : Fin 2) (port : Fin 2) (via : PtpVia) (origin : Int) (s : State) : Res :=
  let d := dom.val + 1
  match (s.domain d).syncAt with
  | some t2 => if s.ptpTakes d port via then .next (s.syncMeasure d origin t2) else .next s
  | none => .next s

/-- PTP_DELAY_RESP_RX: the transmitter's arrival time of the last Delay_Req gives a path delay (R129); the message carries the
transmitter's logMinDelayReqInterval (R127). -/
def execPtpDelayRespRx (dom : Fin 2) (port : Fin 2) (via : PtpVia) (t4 : Int) (interval : Fin 256) (s : State) : Res :=
  let d := dom.val + 1
  let v := s.domain d
  match v.rawMs, v.reqAt with
  | some ms, some t3 =>
    if s.ptpTakes d port via && !s.isSet (R.TIME_DOM_STAT_DELAY dom) then
      .next ((s.setDomain d { v with reqAt := none, interval := some (signed 8 interval) }).measureDelay d ((ms + (t4 - t3)) / 2))
    else .next s
  | _, _ => .next s

/-- The ones' complement sum of 16-bit words. -/
def onesSum (l : List Nat) : Nat := l.foldl (fun a w => let c := a + w; if 65536 ≤ c then c - 65535 else c) 0

/-- The two octets that leave a UDP checksum as it was computed before 16-bit words that were 0 took their values (R128). -/
def udpPad (words : List Nat) : Nat := 65535 - onesSum words

/-- The 16-bit words of an originTimestamp, and of a correctionField, for quarter nanoseconds (IEEE 1588-2019). -/
def stampWords (q : Int) : List Nat :=
  let sec := unsigned 48 (q / 4000000000)
  let ns := (q % 4000000000 / 4).toNat
  [sec / 2 ^ 32, sec / 2 ^ 16 % 65536, sec % 65536, ns / 65536, ns % 65536]
def correctionWords (q : Int) : List Nat :=
  let c := unsigned 64 (q * 2 ^ 14)
  [c / 2 ^ 48, c / 2 ^ 32 % 65536, c / 2 ^ 16 % 65536, c % 65536]

/-- PTP_PDELAY_REQ_RX: a Pdelay_Req that arrived at `arrival` is answered on the port under peer delay (R128): one-step with the
turnaround in its correctionField, else with a Follow_Up that brings it. -/
def execPtpPdelayReqRx (port : Fin 2) (via : PtpVia) (arrival : Nat) (t : Nat) (s : State) : Res :=
  let s := s.advance t
  let p : Nat := port
  if [1, 2].any (fun d => s.domState d != 0 && s.isSet (R.TIME_DOM_STAT_DELAY (d - 1)) && s.ptpHears d p via) then
    let turn := s.txStamp p t - s.rxStamp p arrival
    let one := s.isSet R.TIME_CFG_ONE_STEP
    let pad := if one && via == .udp6 then some (udpPad (correctionWords turn)) else none
    let s := s.emit (.pdelayResp p one (if one then turn else 0) pad)
    .next (if one then s else s.emit (.pdelayFollowUp p turn))
  else .next s

/-- PTP_PDELAY_RESP_RX: a peer delay measurement; `turnaround` is what the responder took (R129). -/
def execPtpPdelayRespRx (dom : Fin 2) (port : Fin 2) (via : PtpVia) (turnaround : Int) (t : Nat) (s : State) : Res :=
  let d := dom.val + 1
  let s := s.advance t
  let v := s.domain d
  match v.reqAt with
  | some t1 =>
    if s.ptpTakes d port via && s.isSet (R.TIME_DOM_STAT_DELAY dom) then
      .next ((s.setDomain d { v with reqAt := none }).measureDelay d ((s.rxStamp port t - t1 - turnaround) / 2))
    else .next s
  | none => .next s

/-- The least time between requests of a domain: 2^interval seconds where its transmitter has named the interval (R127). -/
def Domain.gap (v : Domain) : Nat :=
  match v.interval with
  | some k => if 0 ≤ k then secCyc * 2 ^ k.toNat else divUp secCyc (2 ^ (-k).toNat)
  | none => 0

/-- PTP_DELAY_REQ_SEND: Delay_Req or Pdelay_Req leaves with its own departure time, not sooner than the transmitter's interval
allows (R127, R128). -/
def execPtpDelayReqSend (dom : Fin 2) (t : Nat) (s : State) : Res :=
  let d := dom.val + 1
  let s := s.advance t
  let v := s.domain d
  let port := s.getF (R.TIME_DOM_STAT_PORT dom)
  let early := match v.sentAt with | some a => decide (s.mtb < a + v.gap) | none => false
  if s.domState d < 2 || !s.uplCarries port || early then .next s
  else
    let st := s.txStamp port t
    let pad := if s.isSet (R.TIME_DOM_STAT_TRANSPORT dom) then some (udpPad (stampWords st)) else none
    .next ((s.setDomain d { v with reqAt := some st, sentAt := some s.mtb }).emit
      (.delayReq port (s.isSet (R.TIME_DOM_STAT_DELAY dom)) st pad))

/-- PTP_MANAGEMENT_RX: a management message is discarded and counted; signalling is ignored (R127). -/
def execPtpManagementRx (signalling : Bool) (s : State) : Res :=
  if signalling then .next s else .next { s with tm := { s.tm with mgmt := s.tm.mgmt + 1 } }

/-- ANNOUNCE_RECEIPT_TIMEOUT: the domain returns to LISTENING (R129). -/
def execAnnounceReceiptTimeout (dom : Fin 2) (s : State) : Res := .next (s.domLost (dom.val + 1))

/-- FREEZE_TIMEOUT: FREEZE_S elapses with no reference; the domain is LOCKED at its measured offset (R129, R135). -/
def execFreezeTimeout (dom : Fin 2) (t : Nat) (s : State) : Res :=
  let d := dom.val + 1
  let s := s.advance t
  let v := s.domain d
  if s.domState d = 4 ∧ v.refer = 0 ∧ v.frozenAt + s.getF R.TIME_CFG_FREEZE_S * secCyc ≤ s.mtb then
    let s := s.enterLocked d
    if s.getF R.TIME_STATE_SEL = d then
      match s.domOffset d with
      | some q => .next (s.correct q)
      | none => .next s
    else .next s
  else .next s

/-- TIME_STEP: at the target slot boundary device time and mesh time take the locked domain's values (R133). -/
def execTimeStep (s : State) : Res :=
  match s.tm.step with
  | none => .next s
  | some (d, at_) =>
    let s := s.advance at_
    let off := match s.domOffset d with | some q => q | none => 0
    let s := { s with tm := { s.tm with step := none } }
    .next (((s.stepDev (-off)).setF R.TIME_STATE_STEPPED 1).raise R.TIME_EVENT_STEPPED)

/-- LOCK_WAIT_EXPIRY: LOCK_WAIT_S has passed since RUNNING (R132); 0 waits without a limit. -/
def execLockWaitExpiry (t : Nat) (s : State) : Res :=
  let s := s.advance t
  let wait := s.getF R.TIME_CFG_LOCK_WAIT_S
  if s.running && wait != 0 && s.tm.runAt + wait * secCyc ≤ s.mtb then .next { s with tm := { s.tm with waitDone := true } }
  else .next s

/-- TIME_CTRL.ACCEPT (R135). -/
def State.timeAccept (s : State) : State :=
  if s.isSet R.TIME_STATE_REFUSED then
    let sel := s.getF R.TIME_STATE_SEL
    let off := if sel = 3 then s.peerOffset.map (fun q => -q) else s.domOffset sel
    let s := { s with tm := { s.tm with slewing := true } }
    (match off with
     | some q => s.setRate (if 0 < q then -s.slewRate else s.slewRate)
     | none => s).answer ST.OK
  else s.timeRefuse ST.TIME_ACCEPT_STATE

/-- TIME_CTRL.SNAP: MAC time base, mesh time and device time in the same cyc. -/
def State.timeSnap (s : State) : State :=
  let t := s.mtb
  let a := s.asn t
  let sec := s.devSec t
  let s1 := ((s.setF R.TIME_SNAP_TB_LO_V t).setF R.TIME_SNAP_TB_HI_V (t / 2 ^ 32)).setF R.TIME_SNAP_ASN_LO_V a
  let s2 := ((s1.setF R.TIME_SNAP_ASN_HI_ASN (a / 2 ^ 32)).setF R.TIME_SNAP_OFF_OFF (s.slotOff t)).setF R.TIME_SNAP_S_LO_V sec
  ((s2.setF R.TIME_SNAP_S_HI_V (sec / 2 ^ 32)).setF R.TIME_SNAP_NS_NS (s.devNs t)).answer ST.OK

/-- A write of TIME_CTRL.SEL_DOM (R136): judged unless it changes nothing (R9). -/
def State.timeSelDom (s : State) (v : Nat) : State :=
  if v = s.getF R.TIME_CTRL_SEL_DOM then s.answer ST.OK
  else if v = 3 then s.timeRefuse ST.TIME_RANGE
  else if v ≠ 0 ∧ s.domState v = 0 then s.timeRefuse ST.TIME_DOM_ABSENT
  else if v ≠ 0 ∧ s.domState v ≠ 3 then s.timeRefuse ST.TIME_DOM_STATE
  else (s.setF R.TIME_CTRL_SEL_DOM v).reselect.answer ST.OK

/-- TIME_ACCEPT, TIME_SNAP and TIME_SEL_DOM_WRITE: the fields of TIME_CTRL. -/
def execTimeAccept (s : State) : Res := .next s.timeAccept
def execTimeSnap (t : Nat) (s : State) : Res := .next (s.advance t).timeSnap
def execTimeSelDomWrite (sel : Fin 4) (s : State) : Res := .next (s.timeSelDom sel)

/-- The octets of a TIME frame's payload (Table 06.4). -/
def timeOctets (f : TimeFrame) : List Nat :=
  nats (leBytes 8 f.tx ++ leBytes 8 f.echoTx ++ leBytes 8 f.echoRx ++ leBytes 6 f.devS ++ leBytes 2 0 ++ leBytes 4 f.devNs ++
    leBytes 5 f.asn ++ leBytes 3 0 ++ leBytes 6 f.epoch ++ leBytes 1 f.state ++ leBytes 1 0)

/-- What a TIME frame says now. Before the peer's first frame it echoes 0 and 0, and a received frame that does so is evaluated
like any other: the spec names no value (DESIGN CHOICE, notes/assumptions/19.md). -/
def State.timeFrame (s : State) : TimeFrame :=
  let b := fun (c : Bool) (k : Nat) => if c then k else 0
  { tx := s.mtb, echoTx := s.tm.echo.1, echoRx := s.tm.echo.2, devS := s.devSec s.mtb, devNs := s.devNs s.mtb,
    asn := s.asn s.mtb, epoch := s.epoch,
    state := s.getF R.TIME_STATE_SEL + b (s.isSet R.TIME_STATE_STEPPED) 4 + b (s.isSet R.TIME_STATE_REFUSED) 8 +
      b (s.domState 1 = 4 || s.domState 2 = 4) 16 }

/-- TIE_TIME_SEND: an Amrek TIME frame leaves (R140, Table 06.4). -/
def execTieTimeSend (t : Nat) (s : State) : Res :=
  let s := s.advance t
  if !s.isSet R.PAIR_STATE_TIE_UP then .next s else .next (s.amrekOut 5 (timeOctets s.timeFrame))

/-- The own device time at own time base value x / 1,024, in quarter nanoseconds. -/
def State.devQAt (s : State) (x : Int) : Int :=
  toQns (s.tm.anchor + (x - 1024 * (s.tm.anchorTb : Int)) * (2 ^ 32 + s.rate) / 1024)

/-- TIE_TIME_RX: a TIME frame gives the peer's offset (R140, Table 06.5). Its time is valid when SEL is not 0 and REFUSED is 0;
with no PTP domain and a PAIR section, where no unit selects anything, SEL does not count (R48). -/
def execTieTimeRx (f : TimeFrame) (t : Nat) (s : State) : Res :=
  let s := s.advance t
  let x2 : Int := ((f.echoRx : Int) - f.echoTx) - ((t : Int) - f.tx)
  let asym := signed 16 (s.getF R.TIME_TIE_ASYM_ASYM)
  let own := s.devQAt (1024 * (f.tx : Int) - 512 * x2 + 165 * asym)
  let peer : Int := ((f.devS * 1000000000 + f.devNs) * 4 : Nat)
  let ok := (f.state % 4 ≠ 0 || (s.pairOn && s.pr.time.domains = 0)) && !bitOf f.state 3
  let s := { s with tm := { s.tm with peerAt := some t, peerOk := ok, peer := some f, echo := (f.tx, t) },
                    pa := { s.pa with heardAt := some t } }
  let s := s.setF R.PAIR_STATE_PEER_SILENT 0
  let s := if ok then s.setPeerOff (peer - own) else s.setF R.TIME_PEER_OFFSET 0x80000000
  let s := s.standbyTime.reselect.rejudge
  if s.getF R.TIME_STATE_SEL = 3 then
    match s.peerOffset with
    | some q => .next (s.correct (-q))
    | none => .next s
  else .next s

/-- PEER_TIME_EXPIRY: no TIME frame for 8 periods; peer time is no longer valid (R140, R141). -/
def execPeerTimeExpiry (t : Nat) (s : State) : Res :=
  let s := s.advance t
  let old := match s.tm.peerAt with | some a => decide (a + 8 * 1048576 ≤ s.mtb) | none => true
  if !old then .next s
  else
    let s := ({ s with tm := { s.tm with peerAt := none } }).setF R.TIME_PEER_OFFSET 0x80000000
    .next (if s.getF R.TIME_STATE_SEL = 3 then s.reselect else s).rejudge

end Sys2Proof.Machine
end

