-- ==== Sys2Proof/Machine/Audit.lean ====
section
/-!
DEFINITION. The audit log (19_roles_and_audit.md), the answers to service calls, and the record that every change gets
before it takes effect (R433).
-/
namespace Sys2Proof.Machine

/-- Block numbers (Table 00.4) of the blocks whose firmware writes are recorded (R433): KEY, TAMPER, ROLE, PAIR, UPDATE. -/
def auditedBlocks : List Nat := [18, 19, 20, 21, 22]

/-- The number (R13) of the block a register address belongs to (Table 14.8). -/
def blockOf (a : Nat) : Nat :=
  let x := (a % bankStride - 0x20000000) / 0x10000
  if x < 8 then x else if x < 16 then x - 1 else x - 2

/-- What a record says beside its sequence number, times and chain (Table 19.5). -/
structure AuditData where
  kind   : Nat
  role   : Nat
  status : Nat
  cred   : Nat
  target : Nat
  old    : Nat
  new    : Nat
  deriving DecidableEq, Repr

/-- The first four and the first eight octets of a digest, as the little-endian number that has them. -/
def lead4 (digest : Nat) : Nat := leNat (beBytes 4 (digest / 2 ^ 224))
def lead8 (digest : Nat) : Nat := leNat (beBytes 8 (digest / 2 ^ 192))

/-- A record's 64 octets (Table 19.5). -/
def State.auditOctets (s : State) (seq prev : Nat) (d : AuditData) : List Byte :=
  leBytes 4 seq ++ leBytes 1 d.kind ++ leBytes 1 d.role ++ leBytes 2 d.status ++ leBytes 8 s.mtb ++ leBytes 4 d.cred ++
  leBytes 4 d.target ++ leBytes 8 d.old ++ leBytes 8 d.new ++
  leBytes 6 (if s.isSet R.TIME_STATE_STEPPED then s.devSec s.mtb else 0) ++ leBytes 2 0 ++ beBytes 16 prev

/-- The page buffers in use (R436). -/
def Roles.buffers (r : Roles) : Nat := r.closed.length + (if r.cur.isEmpty then 0 else 1)

/-- Whether the audit buffers have room for a record. -/
def State.auditRoom (s : State) : Bool := s.ro.closed.length < 2

/-- The next sequence number, which wraps at 2^32. -/
def Roles.nextSeq (r : Roles) : Nat := (r.seq + 1) % 2 ^ 32

/-- The open page buffer is closed; it holds 64 records or fewer. -/
def Roles.closePage (r : Roles) : Roles :=
  if r.cur.isEmpty then r
  else
    let page := r.cur.flatten
    { r with cur := [], closed := r.closed ++ [page ++ List.replicate (4096 - page.length) 0] }

/-- Append a record's octets to the chain. -/
def State.auditAppend (s : State) (d : AuditData) : State :=
  let r := s.ro
  let seq := r.nextSeq
  let rec_ := s.auditOctets seq (if seq = 1 then 0 else r.prev) d
  let r := { r with seq := seq, prev := Config.sha3 (nats rec_) / 2 ^ 128, cur := r.cur ++ [rec_] }
  if 64 ≤ r.cur.length then
    let r := r.closePage
    let full := r.sincePgs + 1
    { s with ro := { r with sincePgs := full, due := r.due || decide (s.getF R.ROLE_CFG_CKPT_PAGES ≤ full) } }
  else { s with ro := r }

/-- Take a checkpoint (R435): a KIND 10 record in a page of its own, with a signature over it. None where the buffers
have no room for the page. -/
def State.checkpoint? (s : State) : Option State :=
  let r := s.ro.closePage
  if 2 ≤ r.closed.length then none
  else
    let owner := s.getF R.TAMPER_STATE_OWNER = 1
    let key := if owner then 2 else 0
    let seq := r.nextSeq
    let rec_ := s.auditOctets seq r.prev ⟨10, 0, 0, 0, 0, r.firstSeq, key⟩
    let mat := match Store.find? key s.ky.slots with | some k => k.mat | none => 0
    let sig := Config.sign (if owner then 4 else 3) mat (ascii "SVC4820 audit") (nats rec_) s.freeVal
    let sigLen := if owner then 3309 else 2420
    let page := rec_ ++ (leBytes sigLen sig).reverse
    some (({ s.useFree with ro := { r with
      seq := seq, prev := Config.sha3 (nats rec_) / 2 ^ 128, closed := r.closed ++ [page ++ List.replicate (4096 - page.length) 0],
      sincePgs := 0, firstSeq := (seq + 1) % 2 ^ 32, ckptSeq := seq, due := false } }).raise R.ROLE_EVENT_CKPT)

/-- A checkpoint that is due is taken as soon as the buffers have room (R435). -/
def State.checkpointDue (s : State) : State :=
  if s.ro.due then (match s.checkpoint? with | some t => t | none => s) else s

/-- Record a change that cannot be refused; without room the record is lost and ROLE_EVENT.AUDIT_BUSY set (R433). -/
def State.auditNote (s : State) (d : AuditData) : State :=
  if s.auditRoom then (s.auditAppend d).checkpointDue else s.raise R.ROLE_EVENT_AUDIT_BUSY

/-- Make a change with its record (R433): `f` is the change, `d` the record but for its status, which is the word the
change is answered with; without room nothing is made and `busy` refuses it. -/
def State.audited (s : State) (d : AuditData) (busy : State → State) (f : State → State) : State :=
  if s.auditRoom then f ((s.auditAppend { d with status := (f s).resp }).checkpointDue)
  else busy (s.raise R.ROLE_EVENT_AUDIT_BUSY)

/-- Who makes a register write: a role code (0 firmware, 4 the service port) and the first four octets of the session's
credential digest. -/
structure Who where
  role : Nat
  cred : Nat
  deriving DecidableEq, Repr

/-- A register write, recorded when a session makes it or firmware writes one of the audited blocks (R433). -/
def State.recorded (s : State) (w : Who) (addr : Nat) (val : Nat) (err : Field) (f : State → State) : State :=
  if w.role ≠ 0 ∨ blockOf addr ∈ auditedBlocks then
    s.audited ⟨1, w.role % 4, 0, w.cred, addr, (s.getReg addr).toNat, val⟩ (fun s => s.refuse err ST.ROLE_AUDIT_BUSY) f
  else f s

/-! ### Service calls (R122, R123, R361) -/

/-- The services of CMP, by a number of the model's own. -/
def svcNet : Nat := 0
def svcPan : Nat := 1
def svcNode : Nat := 2
def svcSched : Nat := 3
def svcJoin : Nat := 4
def svcImage : Nat := 5
def svcZone : Nat := 6
def svcKey : Nat := 7
def svcRole : Nat := 8
def svcAudit : Nat := 9
def svcUpdate : Nat := 10

/-- The block number (R13) that stands for a service in a record: KEY, ROLE, UPDATE, else Ryurix's 26. -/
def svcBlock (svc : Nat) : Nat :=
  if svc = svcKey then 18 else if svc = svcRole || svc = svcAudit then 20 else if svc = svcUpdate then 22 else 26

/-- The ticket of a service's oldest call that has no result, when it is this one (R361: ticket order). -/
def State.openCall (s : State) (ticket svc op : Nat) : Option Ticket :=
  match List.find? (fun t : Nat × Ticket => t.2.svc == svc && !t.2.ready) s.cmp.tickets with
  | some (k, t) => if k = ticket ∧ t.op = op then some t else none
  | none => none

/-- A call's result becomes ready (R123). -/
def State.finishCall (s : State) (ticket st : Nat) (result : List (Nat × List Nat)) : State :=
  match Store.find? ticket s.cmp.tickets with
  | none => s
  | some t =>
    let tk := { t with ready := true, status := st, result := result }
    ({ s with cmp := { s.cmp with tickets := Store.put ticket tk s.cmp.tickets } }).answer st

/-- A call that makes a change, with its record of KIND `kind` (R433). -/
def State.recordedCall (s : State) (kind ticket role op arg1 arg2 : Nat) (f : State → State) : State :=
  let tk := Store.find? ticket s.cmp.tickets
  let cred := match tk with | some t => t.cred | none => 0
  let block := match tk with | some t => svcBlock t.svc | none => 26
  s.audited ⟨kind, role, 0, cred, block * 2 ^ 24 + op * 2 ^ 16, arg1, arg2⟩
    (fun s => s.finishCall ticket ST.ROLE_AUDIT_BUSY []) f

/-! ### Audit commands -/

/-- The flash page of the audit area at position `k` of its 128 (Table 14.6). -/
def auditPage (k : Nat) : Nat := 256 + k % 128

/-- The oldest closed page buffer is programmed (R436). When the next block still holds pages, the older block is erased
first, once a checkpoint covers its last page. -/
def State.auditProgram (s : State) : State :=
  match s.ro.closed with
  | [] => s
  | page :: rest =>
    let n := s.ro.pages
    let wrap := 128 ≤ n && n % 64 = 0
    if wrap && s.ro.covered ≤ n - 65 then s
    else
      let u := s.erasePages (auditPage n) 64
      let s := if wrap then ({ u with ro := { u.ro with oldest := n - 64 } }).raise R.ROLE_EVENT_AUDIT_WRAP else s
      let s := s.programPages (auditPage n) 1 page
      let ckpt := page.getD 4 0 = 10
      let r := { s.ro with closed := rest, pages := n + 1, covered := if ckpt then n + 1 else s.ro.covered }
      ({ s with ro := r }).checkpointDue

/-- AUDIT_PAGE_PROGRAM: a page buffer is programmed. -/
def execAuditPageProgram (s : State) : Res := .next s.auditProgram

/-- The records of a list of octets, 64 at a time; a page with a checkpoint holds one. -/
def splitRecs (page : List Byte) : Nat → List (List Byte)
  | 0 => []
  | k + 1 => page.take 64 :: splitRecs (page.drop 64) k

/-- Every page the log holds, the oldest first: programmed ones, then the buffers. -/
def State.auditPages (s : State) : List (List Byte) :=
  (List.range (s.ro.pages - s.ro.oldest)).map (fun k => s.flashBytes (4096 * auditPage (s.ro.oldest + k)) 4096) ++
  s.ro.closed ++ (if s.ro.cur.isEmpty then [] else [s.ro.cur.flatten])

/-- The records of a page: an event page's 64, or the one of a checkpoint page, with the octets that follow it. -/
def pageRecs (p : List Byte) : List (List Byte × List Byte) :=
  if p.getD 4 0 = 10 then [(p.take 64, p.drop 64)]
  else ((splitRecs p (p.length / 64)).filter (fun r => leNat (r.take 4) ≠ 0)).map (fun r => (r, []))

/-- AUDIT_READ: audit operation 1 returns records and the checkpoint signatures among them (R436). -/
def execAuditRead (ticket : Nat) (first count : Nat) (s : State) : Res :=
  match s.openCall ticket svcAudit 1 with
  | none => .next s
  | some _ =>
    if count = 0 || 64 < count then .next (s.finishCall ticket ST.ROLE_RANGE [])
    else
      let recs := (s.auditPages.flatMap pageRecs).filter (fun r =>
        let q := leNat (r.1.take 4); first ≤ q && q < first + count)
      .next (s.finishCall ticket ST.OK [(20, recs.flatMap (fun r => nats r.1)), (21, recs.flatMap (fun r => nats r.2))])

/-- AUDIT_CHECKPOINT: audit operation 2 takes a checkpoint (R435). -/
def execAuditCheckpoint (ticket : Nat) (s : State) : Res :=
  match s.openCall ticket svcAudit 2 with
  | none => .next s
  | some t => .next (s.recordedCall 2 ticket t.role 2 0 0 (fun s =>
      match s.checkpoint? with
      | some u => u.finishCall ticket ST.OK []
      | none => (s.raise R.ROLE_EVENT_AUDIT_BUSY).finishCall ticket ST.ROLE_AUDIT_BUSY []))

/-- AUDIT_HEAD_READ: audit operation 3 returns the newest SEQ and the newest checkpoint's SEQ (R436). -/
def execAuditHeadRead (ticket : Nat) (s : State) : Res :=
  match s.openCall ticket svcAudit 3 with
  | none => .next s
  | some _ => .next (s.finishCall ticket ST.OK [(20, [s.ro.seq]), (21, [s.ro.ckptSeq])])

/-- A write of 1 to ROLE_CFG.CKPT takes a checkpoint (R435). -/
def State.roleCkpt (s : State) : State :=
  match s.checkpoint? with
  | some t => t.answer ST.OK
  | none => (s.raise R.ROLE_EVENT_AUDIT_BUSY).refuse R.ROLE_STATE_STATUS ST.ROLE_AUDIT_BUSY

/-- ROLE_CKPT_WRITE: firmware writes ROLE_CFG.CKPT. -/
def execRoleCkptWrite (s : State) : Res :=
  .next (s.recorded ⟨0, 0⟩ R.ROLE_CFG 1 R.ROLE_STATE_STATUS State.roleCkpt)

end Sys2Proof.Machine
end

