-- ==== Sys2Proof/Machine/Pillow.lean ====
section
/-!
DEFINITION. The pillow's shared operations (12_pillow.md): tasks and pins, ready lists, atomic and ordered flows, the
release port, delay lists, the customer hoop; and the hoop clocks' ramps that dispatch drives (R67). The commands
themselves stand in Tasks.lean.
-/
namespace Sys2Proof.Machine

/-! ### Hoop clocks (R67) -/

/-- CLK_HOOP_DIV: the present divider and IDLE_DIV of hoop `h`. -/
def hoopCur (h : Nat) : Field := ⟨0x20010040, 4 + 8 * h, 4⟩
def hoopIdleDiv (h : Nat) : Field := ⟨0x20010040, 8 * h, 4⟩

/-- The next divider on the way from `cur` to `target`: one step. -/
def rampNext (cur target : Nat) : Nat := if cur < target then cur + 1 else if target < cur then cur - 1 else cur

/-- One step of hoop `h`'s ramp; at the target the ramp ends and RAMP_DONE is set. -/
def State.rampStep (s : State) (h target : Nat) : State :=
  let d := rampNext (s.getF (hoopCur h)) target
  let others := s.clk.ramps.filter (fun r => r.hoop != h)
  let s := s.setF (hoopCur h) d
  if d = target then ({ s with clk := { s.clk with ramps := others } }).raise R.CLK_EVENT_RAMP_DONE
  else { s with clk := { s.clk with ramps := others ++ [⟨h, target⟩] } }

/-- Hoop `h` shall go to a divider. With no ramp in progress one starts, its first step at once. A ramp in progress takes the
new target; where that lies behind it, it reverses from the present divider, its first step again at once (DEDUCED: the
rule says when a ramp's first step comes and not whether a reversal is one); where the present divider is the target
it ends here. -/
def State.rampTo (s : State) (h target : Nat) : State :=
  let cur := s.getF (hoopCur h)
  match s.clk.ramps.find? (fun r => r.hoop == h) with
  | none => if cur = target then s else s.rampStep h target
  | some r =>
    if r.target = target then s
    else if cur ≠ target && decide (cur < r.target) = decide (cur < target) then
      { s with clk := { s.clk with ramps := s.clk.ramps.filter (fun r => r.hoop != h) ++ [⟨h, target⟩] } }
    else s.rampStep h target

/-- The pillow dispatches to hoop `h`: an idle hoop's clock ramps back towards /2, a ramp down reverses. -/
def State.hoopBusy (s : State) (h : Nat) : State := if h = s.mainHoop then s else s.rampTo h 2

/-! ### Tasks, bobbins and handles -/

def State.task? (s : State) (i : Nat) : Option Task := Store.find? i s.pl.tasks
def State.putTask (s : State) (i : Nat) (t : Task) : State :=
  { s with pl := { s.pl with tasks := Store.put i t s.pl.tasks } }
def State.bobbin (s : State) (b : Nat) : Bobbin := Store.get (fun _ => {}) s.pl.bobbins b
def State.setBobbin (s : State) (b : Nat) (v : Bobbin) : State :=
  { s with pl := { s.pl with bobbins := Store.set (fun _ => {}) s.pl.bobbins b v } }
def State.ordFlow (s : State) (f : Nat) : OrdFlow := Store.get (fun _ => {}) s.pl.ords f
def State.setOrd (s : State) (f : Nat) (v : OrdFlow) : State :=
  { s with pl := { s.pl with ords := Store.set (fun _ => {}) s.pl.ords f v } }

/-- A task handle (R269). -/
def taskHandle (gen i : Nat) : Nat := gen % 256 * 0x8000 + i

/-- The task a handle names, if it has not ended and the generation matches (R269). -/
def State.byHandle (s : State) (w : Nat) : Option (Nat × Task) :=
  match s.task? (w % 0x8000) with
  | some t => if w = taskHandle t.gen (w % 0x8000) then some (w % 0x8000, t) else none
  | none => none

/-- The hoop of the running firmware on a bobbin, and whether it is the customer hoop (R266, R289). -/
def State.isCustomer (s : State) (h : Nat) : Bool :=
  match s.hoopRec h with
  | some r => r.kind = 3
  | none => false

/-- The present hoop that serves a flow kind (R266, R36). -/
def State.hoopOfKind (s : State) (k : Nat) : Option Nat :=
  (List.range 4).find? (fun h => match s.hoopRec h with | some r => bitOf r.kinds k | none => false)

/-- Whether a kind and a priority are served (R266). -/
def State.servesKindPrio (s : State) (k p : Nat) : Bool :=
  match s.hoopOfKind k with
  | none => false
  | some h => match s.hoopRec h with | some r => bitOf r.prio p | none => false

/-- The address of a bobbin's local memory in the global map (R264). -/
def localAddr (b a : Nat) : Nat := 0x4000000 + 0x40000 * b + a % 0x40000

/-- An address as a bobbin names it: its own local memory, or the global map. -/
def bobAddr (b a : Nat) : Nat := if a < 0x40000 then localAddr b a else a

/-- The shared SRAM cell of a pin and the record buffers (Table 14.2). -/
def pinAddr (c : Nat) : Nat := 0x10000000 + 64 * c
def recordAddr (k : Nat) : Nat := 0x10100000 + 256 * k

/-- Results staged by tasks that have not ended and by ended ones that wait (R281). -/
def State.stagedCount (s : State) : Nat :=
  s.pl.tasks.foldl (fun n t => n + t.2.staged.length) 0 +
  s.pl.ords.foldl (fun n o => n + o.2.done.foldl (fun k d => k + d.2.2.length) 0) 0

/-- What PILLOW_USE, USE2 and USE3 count (12_pillow.md, PILLOW registers). -/
def State.parkedCount (s : State) : Nat := (s.pl.tasks.filter (fun t => t.2.state = .parked)).length

/-- The customer hoop is held in every pair role other than ALONE and ACTIVE (R291, Table 02.13), and while its image is
rejected (R466). -/
def State.custHeld (s : State) : Bool :=
  let r := s.getF R.PAIR_STATE_ROLE
  s.su.extBad || !(r = 0 || r = 1)

/-! ### Ready lists, atomic entries (R270, R278) -/

/-- Whether a task of flow `f` is held: prefetched or running. -/
def State.flowHeld (s : State) (f : Nat) : Bool :=
  s.pl.tasks.any (fun t => t.2.flow = some f && (t.2.state = .prefetched || t.2.state = .running))

/-- Whether flow `f` has a ready, parked or held task. -/
def State.flowLive (s : State) (f : Nat) : Bool :=
  s.pl.tasks.any (fun t => t.2.flow = some f && t.2.state != .waiting)

/-- The parked task with the earliest ready time, the lowest store index on ties. -/
def oldestParked : List (Nat × Task) → Option (Nat × Task)
  | [] => none
  | t :: ts =>
    match oldestParked ts with
    | none => if t.2.state = .parked then some t else none
    | some u => if t.2.state = .parked ∧ t.2.ready ≤ u.2.ready then some t else some u

/-- An atomic entry is free: the oldest parked task's flow takes it, and every parked task of that flow becomes READY
with its own ready time (R278). -/
def State.wakeParked (s : State) : State :=
  if s.pl.atomics.length < 4096 then
    match oldestParked s.pl.tasks with
    | none => s
    | some (_, t) =>
      match t.flow with
      | none => s
      | some f => { s with pl := { s.pl with
          atomics := s.pl.atomics ++ [f],
          tasks := s.pl.tasks.map (fun u =>
            if u.2.state = .parked && u.2.flow = some f then (u.1, { u.2 with state := .ready }) else u) } }
  else s

/-- Flow `f` may have lost its last ready, parked or held task: its atomic entry then frees (R278). -/
def State.freeAtomic (s : State) (f : Option Nat) : State :=
  match f with
  | none => s
  | some f =>
    if f ∈ s.pl.atomics ∧ !s.flowLive f then
      ({ s with pl := { s.pl with atomics := without f s.pl.atomics } }).wakeParked
    else s

/-- The last pin of task `i` is filled: READY 6 cyc after the last fill is visible, or PARKED when its flow has no atomic entry and
none is free (R270, R278). -/
def State.becomeReady (s : State) (i : Nat) : State :=
  match s.task? i with
  | none => s
  | some t =>
    let at_ := t.pins.foldl (fun n (p : Pin) => max n p.seen) 0 + 6
    match t.flow with
    | none => s.putTask i { t with state := .ready, ready := at_ }
    | some f =>
      if f ∈ s.pl.atomics then s.putTask i { t with state := .ready, ready := at_ }
      else if s.pl.atomics.length < 4096 then
        let s := s.putTask i { t with state := .ready, ready := at_ }
        { s with pl := { s.pl with atomics := s.pl.atomics ++ [f] } }
      else ((s.putTask i { t with state := .parked, ready := at_ }).bump (R.PILLOW_COUNT_LO 1)).raise
        R.PILLOW_EVENT_ATOMIC_FULL

/-- A pin of a task is filled, which is visible from `seen` on; when it is the last one the task becomes ready (R270). -/
def State.pinFilledAt (s : State) (i k : Nat) (isRef : Bool) (ref seen : Nat) : State :=
  match s.task? i with
  | none => s
  | some t =>
    match t.pins[k]? with
    | none => s
    | some p =>
      let pins := t.pins.set k { p with filled := true, isRef := isRef, ref := ref, armed := none, seen := seen }
      let s := s.putTask i { t with pins := pins }
      if pins.all (·.filled) && t.state = .waiting then s.becomeReady i else s

/-- A pin of a task is filled now. -/
def State.pinFilled (s : State) (i k : Nat) (isRef : Bool) (ref : Nat) : State := s.pinFilledAt i k isRef ref s.mtb

/-- An inline fill: up to 64 B into the cell, the rest of the cell reads 0 (R272); visible from `seen` on. -/
def State.fillInlineAt (s : State) (i k : Nat) (d : List Byte) (seen : Nat) : State :=
  match s.task? i with
  | none => s
  | some t =>
    match t.pins[k]? with
    | none => s
    | some p =>
      (s.writeBytes (pinAddr p.cell) (d.take 64 ++ List.replicate (64 - d.length) (0 : Byte))).pinFilledAt i k false 0 seen

/-- An inline fill that is visible now. -/
def State.fillInline (s : State) (i k : Nat) (d : List Byte) : State := s.fillInlineAt i k d s.mtb

/-! ### Creation (R272, R273, R275) -/

/-- `n` free members of `0 … m − 1`, one after the other. -/
def pickMany (taken : List Nat) (m from_ : Nat) : Nat → Option (List Nat)
  | 0 => some []
  | n + 1 =>
    match (match firstFree taken m (from_ % m) m with | some k => some k | none => firstFree taken m 0 m) with
    | none => none
    | some k => match pickMany (taken ++ [k]) m from_ n with
      | none => none
      | some ks => some (k :: ks)

/-- Whether the window of an ordered flow has room (R281). -/
def State.windowRoom (s : State) (ord : Option Nat) : Bool :=
  match ord with
  | none => true
  | some f => (s.ordFlow f).next - (s.ordFlow f).oldest < 1024

/-- Create a task: a store entry, its pins, its place in its ordered flow. Which store entry and which cells it takes the
spec leaves open. Nothing is created where a resource is missing; the state then answers why. -/
def State.newTask (s : State) (t : Task) (ordFlow : Option Nat) (arity : Nat) : Option (Nat × State) :=
  if 32768 ≤ s.pl.tasks.length then none
  else match pickMany (s.pl.tasks.map (·.1)) 32768 s.freeVal 1, pickMany s.pl.pins 16384 (s.freeVal / 32768) arity with
  | some [i], some cells =>
    let gen := (Store.get (fun _ => 0) s.pl.gens i + 1) % 256
    let seq := ordFlow.map (fun f => (f, (s.ordFlow f).next))
    let s := s.useFree
    let s := match ordFlow with
      | none => s
      | some f => s.setOrd f { s.ordFlow f with next := (s.ordFlow f).next + 1 }
    some (i, { s with pl := { s.pl with
      tasks := Store.put i { t with gen := gen, ord := seq, pins := cells.map (fun c => { cell := c }) } s.pl.tasks,
      gens := Store.set (fun _ => 0) s.pl.gens i gen,
      pins := s.pl.pins ++ cells } })
  | _, _ => none

/-! ### The end of a task, ordered release (R271, R280) -/

/-- Put results at the release port's door of a bobbin (R283). -/
def State.post (s : State) (b : Nat) (ps : List Posted) : State :=
  s.setBobbin b { s.bobbin b with posts := (s.bobbin b).posts ++ ps }

/-- Release what the oldest tasks of an ordered flow have left, as far as they have ended (R280). -/
def State.ordRelease (s : State) (f : Nat) : Nat → State
  | 0 => s
  | fuel + 1 =>
    let o := s.ordFlow f
    match o.done.find? (fun d => d.1 == o.oldest) with
    | none => s
    | some (q, b, ps) =>
      ((s.setOrd f { o with oldest := o.oldest + 1, done := o.done.filter (fun d => d.1 != q) }).post b ps).ordRelease f
        fuel

/-- The collector credit of a discarded staged result returns to the hoop (R271). -/
def State.returnCredit (s : State) (p : Posted) : State :=
  s.setQueue p.queue ((s.queue p.queue).giveBack p.entry.src (s.creditAt p.entry.src))

/-- A task ends (R271): its pins, record buffer, receive buffer and store entry are freed, its armed timers cancelled, its
place in its ordered flow released with its staged results or, unless it ends in service, empty, its hold released. -/
def State.endTask (s : State) (i : Nat) (inService : Bool) : State :=
  match s.task? i with
  | none => s
  | some t =>
    let cells := t.pins.map (·.cell)
    let s : State := { s with pl := { s.pl with
      tasks := Store.del i s.pl.tasks,
      pins := s.pl.pins.filter (fun c => !cells.contains c),
      records := (match t.record with | some r => without r s.pl.records | none => s.pl.records),
      timers := s.pl.timers.map (fun e => if e.2.live && e.2.task = i then (e.1, { e.2 with live := false }) else e) } }
    let s := match t.rxBuf with | some k => s.rxFree k | none => s
    let s := if inService then s else s.each t.staged (fun s p => s.returnCredit p)
    let s := match t.ord with
      | none => s
      | some (f, q) =>
        let o := s.ordFlow f
        (s.setOrd f { o with done := o.done ++ [(q, t.bobbin, if inService then t.staged else [])] }).ordRelease f 1025
    s.freeAtomic t.flow

/-! ### Dispatch (R279) -/

/-- The registers at task entry (Table 12.6). -/
def entryRegs (i : Nat) (t : Task) : List Nat :=
  let addr := fun (k : Nat) => match t.pins[k]? with
    | some p => if p.isRef then p.ref else pinAddr p.cell
    | none => 0
  let flow := (match t.flow with | some f => 0x80000000 + f | none => 0) + t.kind * 0x1000000
  let refs := (List.range t.pins.length).foldl (fun n k =>
    match t.pins[k]? with | some p => if p.isRef then n + 2 ^ (16 + k) else n | none => n) 0
  let ord := match t.ord with | some (f, _) => 64 + 256 * f | none => 0
  [t.entry, taskHandle t.gen i, t.arg, addr 0, addr 1, addr 2, addr 3, flow,
    t.prio + 16 * (t.pins.length - 1) + ord + refs]

/-- Task `i` starts on bobbin `b`, its first instruction `wait` cyc from now (R279): it takes the run limit in force (R285). -/
def State.runOn (s : State) (i b wait : Nat) : State :=
  match s.task? i with
  | none => s
  | some t =>
    let h := match s.hoopOf b with | some h => h | none => 0
    let s := s.putTask i { t with state := .running, bobbin := b }
    (s.setBobbin b { s.bobbin b with running := some i, limit := s.getF (R.PILLOW_HOOP_LIMIT h), startAt := s.mtb + wait }).emit
      (.taskStart b (entryRegs i t))

/-- Task `i` goes into bobbin `b`'s prefetch slot. -/
def State.prefetchOn (s : State) (i b : Nat) : State :=
  match s.task? i with
  | none => s
  | some t => (s.putTask i { t with state := .prefetched, bobbin := b }).setBobbin b { s.bobbin b with pre := some i }

/-- Whether task `a` comes before `b` in dispatch order: priority, ready time, store index. -/
def taskBefore (a b : Nat × Task) : Bool :=
  a.2.prio < b.2.prio || (a.2.prio = b.2.prio && (a.2.ready < b.2.ready || (a.2.ready = b.2.ready && a.1 < b.1)))

/-- The first eligible task of hoop `h`: ready by now, its flow not held (R279). -/
def State.eligible (s : State) (h : Nat) : Option (Nat × Task) :=
  firstBy taskBefore (s.pl.tasks.filter (fun t =>
    t.2.state = .ready && decide (t.2.ready ≤ s.mtb) && s.hoopOfKind t.2.kind = some h &&
      !(match t.2.flow with | some f => s.flowHeld f | none => false)))

/-- The bobbins of hoop `h` that take tasks, in ascending order: clocked and out of their init run; none while the hoop's
clock is stopped (R69). -/
def State.serving (s : State) (h : Nat) : List Nat :=
  if s.stoppedClock (4 + h) then []
  else (List.range 16).filter (fun b => s.hoopOf b = some h && !(s.bobbin b).reset && !(s.bobbin b).init)

/-- The prefetched task of hoop `h` with the highest priority number, the latest ready time on ties. -/
def State.displaceable (s : State) (h : Nat) : Option (Nat × Task) :=
  firstBy (fun a b => b.2.prio < a.2.prio || (a.2.prio = b.2.prio && b.2.ready < a.2.ready))
    (s.pl.tasks.filter (fun t => t.2.state = .prefetched && s.hoopOf t.2.bobbin = some h))

/-- The pillow's placement for one hoop in one cyc (R279). -/
def State.place (s : State) (h : Nat) : State :=
  match s.eligible h with
  | none => s
  | some (i, t) =>
    match (s.serving h).find? (fun b => (s.bobbin b).running.isNone && (s.bobbin b).pre.isNone) with
    | some b => (s.runOn i b 9).hoopBusy h
    | none =>
      match (s.serving h).find? (fun b => (s.bobbin b).pre.isNone) with
      | some b => (s.prefetchOn i b).hoopBusy h
      | none =>
        match s.displaceable h with
        | none => s
        | some (j, p) =>
          if t.prio < p.prio then
            (((s.putTask j { p with state := .ready }).bump (R.PILLOW_COUNT_LO 2)).prefetchOn i p.bobbin).hoopBusy h
          else s

/-- The put that stalls on a bobbin's full post buffer ends with the task: it is not posted, and its credit returns. -/
def State.unstall (s : State) (b : Nat) : State :=
  match (s.bobbin b).stalled with
  | none => s
  | some p => (s.returnCredit p).setBobbin b { s.bobbin b with stalled := none }

/-- A bobbin's running task has ended: its prefetched task starts, its first instruction 2 cyc later (R279). -/
def State.startNext (s : State) (b : Nat) : State :=
  let s := s.unstall b
  let v := s.bobbin b
  let s := s.setBobbin b { v with running := none, pre := none, ended := (v.ended + 1) % 4294967296, idleAt := s.mtb }
  match v.pre with
  | some j => s.runOn j b 2
  | none => s

/-! ### The customer hoop (R291), init runs (R265) -/

/-- Every bobbin of a present hoop starts its init run at local address 0; a held customer hoop's bobbins stay in reset
(R265, R291, R37). -/
def State.startInitRuns (s : State) (bs : List Nat) : State :=
  s.each bs (fun s b =>
    match s.hoopOf b with
    | none => s.setBobbin b {}
    | some h => if s.isCustomer h && s.custHeld then s.setBobbin b {}
      else (s.setBobbin b { (s.bobbin b) with init := true, reset := false, faulted := false, running := none, pre := none, stalled := none, idleAt := s.mtb }).emit
        (.initRun b))

end Sys2Proof.Machine
end

