-- ==== Sys2Proof/Machine/Ground.lean ====
section
/-!
DEFINITION. The ground table and learned paths (15_ground_tables.md): node records in the node table region, the address
hash with its stash, the table engine's commands, rehash, learned paths.
-/
namespace Sys2Proof.Machine

/-- "None" (R15). -/
def nodeNone : Nat := 262143

/-! ### Node records (R334) -/

/-- The address of byte `o` of node record `n`. -/
def State.recAddr (s : State) (n o : Nat) : Nat := (s.region 0).1 + 256 * n + o

/-- A field of a node record, by its offset and size in Table 15.1. -/
def State.recGet (s : State) (n o z : Nat) : Nat := s.readNat (s.recAddr n o) z

/-- Write a field of a node record; the write is mirrored (R455). -/
def State.recPut (s : State) (n o z v : Nat) : State :=
  (s.writeNat (s.recAddr n o) z v).journalAt (s.recAddr n o) (leBytes z v)

def State.recValid (s : State) (n : Nat) : Bool := bitOf (s.recGet n 13 1) 0

/-- The EUI-64 of a record, octet 0 the most significant. -/
def State.recEui (s : State) (n : Nat) : Nat := beNat (s.readBytes (s.recAddr n 0) 8)

/-- Bytes of a record that Ryurix owns (Table 15.1 and, from 128 up, Table 11.1); of byte 131 only bits [2:0]. -/
def ryurixOwns (o : Nat) : Bool :=
  o < 40 || (56 ≤ o && o < 60) || (64 ≤ o && o < 72) || (80 ≤ o && o < 94) || (96 ≤ o && o < 108) ||
  o = 128 || (156 ≤ o && o < 172) || 192 ≤ o

/-! ### Addresses (R338) -/

/-- base_p: the first node index of PAN record `p`. -/
def State.panBase (s : State) (p : Nat) : Nat := (s.pr.pans.take p).foldl (fun n r => n + r.maxNodes) 0

/-- The device's own short address in PAN `p`. -/
def State.ownShort (s : State) (p : Nat) : Nat := s.getF (R.MAC_PAN_ADDR_SHORT.bank p)

/-- A short address of PAN `p` resolves directly (R338). -/
def State.resolveShort (s : State) (p a : Nat) : Nat :=
  match s.panRec p with
  | none => nodeNone
  | some r => if a < r.maxNodes ∧ a ≠ s.ownShort p then s.panBase p + a else nodeNone

/-- The PAN record with a PAN ID. -/
def State.panOfId (s : State) (id : Nat) : Option Nat := s.pr.pans.findIdx? (fun r => r.panId == id)

/-! ### The address hash (R341 to R345) -/

def mask64 : Nat := 2 ^ 64

/-- The hash function h of R342. -/
def hashOf (key typ seed : Nat) : Nat :=
  let x := (key ^^^ seed) ^^^ (typ * 0x9E3779B97F4A7C15 % mask64)
  let x := (x ^^^ (x / 2 ^ 33)) * 0xFF51AFD7ED558CCD % mask64
  let x := (x ^^^ (x / 2 ^ 33)) * 0xC4CEB9FE1A85EC53 % mask64
  (x ^^^ (x / 2 ^ 33)) % 0x20000

/-- The two buckets of a key (R342). -/
def bucketsOf (seed0 seed1 key typ : Nat) : Nat × Nat :=
  let b0 := hashOf key typ seed0
  let b1 := hashOf key typ seed1
  (b0, if b1 = b0 then b0 ^^^ 1 else b1)

/-- One table of the hash: its area, its seeds. -/
structure HashTab where
  base  : Nat
  seed0 : Nat
  seed1 : Nat
  deriving DecidableEq, Repr

/-- The live table and the alternate one. -/
def State.liveTab (s : State) : HashTab := ⟨s.getF R.GROUND_HASH_BASE_BASE, s.gd.seed0, s.gd.seed1⟩
def State.altTab (s : State) : HashTab := ⟨s.getF R.GROUND_ALT_BASE_BASE, s.gd.alt0, s.gd.alt1⟩

/-- The entry in way `w` of bucket `b`, if the way is taken (R341). -/
def State.way (s : State) (t : HashTab) (b w : Nat) : Option HashEntry :=
  let a := t.base + 64 * b + 16 * w
  let info := s.readNat (a + 8) 4
  if bitOf info 31 then some ⟨beNat (s.readBytes a 8), if bitOf info 30 then 1 else 0, info % 0x40000⟩ else none

/-- Write a way: the entry, or 16 bytes of 0. -/
def State.setWay (s : State) (t : HashTab) (b w : Nat) (e : Option HashEntry) : State :=
  let a := t.base + 64 * b + 16 * w
  match e with
  | none => s.writeNat a 16 0
  | some e => (s.writeBytes a (beBytes 8 e.key)).writeNat (a + 8) 8 (0x80000000 + e.typ * 0x40000000 + e.node)

/-- The lowest free way of a bucket. -/
def State.freeWay (s : State) (t : HashTab) (b : Nat) : Option Nat :=
  (List.range 4).find? (fun w => (s.way t b w).isNone)

/-- Where a key stands in a table's buckets. -/
def State.findWay (s : State) (t : HashTab) (key typ : Nat) : Option (Nat × Nat × HashEntry) :=
  let bs := bucketsOf t.seed0 t.seed1 key typ
  [(bs.1, 0), (bs.1, 1), (bs.1, 2), (bs.1, 3), (bs.2, 0), (bs.2, 1), (bs.2, 2), (bs.2, 3)].findSome? (fun p =>
    match s.way t p.1 p.2 with
    | some e => if e.key = key ∧ e.typ = typ then some (p.1, p.2, e) else none
    | none => none)

/-- The node a key leads to in the live table: stash, buckets, transit register (R343). -/
def State.hashLookup (s : State) (key typ : Nat) : Nat :=
  let hit := fun (l : List HashEntry) => l.find? (fun e => e.key == key && e.typ == typ)
  match hit s.gd.stash with
  | some e => e.node
  | none => match s.findWay s.liveTab key typ with
    | some (_, _, e) => e.node
    | none => match hit s.gd.transit.toList with
      | some e => e.node
      | none => nodeNone

/-- Whether a key is present in a table whose stash is `stash`. -/
def State.hashHas (s : State) (t : HashTab) (stash : List HashEntry) (key typ : Nat) : Option HashEntry :=
  match stash.find? (fun e => e.key == key && e.typ == typ) with
  | some e => some e
  | none => (s.findWay t key typ).map (·.2.2)

/-- A place of the table: a way, or the stash. -/
inductive Place where
  | way (b w : Nat)
  | stash
  deriving DecidableEq, Repr

/-- The displacement path of R344: from bucket `b`, at depth `d`, with what is already on the path. -/
def State.hashPath (s : State) (t : HashTab) (stashFree : Bool) : Nat → Nat → Nat → List Place → Option (List Place)
  | 0, _, _, path => if stashFree then some (path ++ [.stash]) else none
  | fuel + 1, d, b, path =>
    match ((List.range 4).map (fun k => (d % 4 + k) % 4)).find? (fun w => !path.contains (.way b w)) with
    | none => if stashFree then some (path ++ [.stash]) else none
    | some w =>
      match s.way t b w with
      | none => if stashFree then some (path ++ [.stash]) else none
      | some v =>
        let bs := bucketsOf t.seed0 t.seed1 v.key v.typ
        let nb := if bs.1 = b then bs.2 else bs.1
        match s.freeWay t nb with
        | some fw => some (path ++ [.way b w, .way nb fw])
        | none => s.hashPath t stashFree fuel (d + 1) nb (path ++ [.way b w])

/-- The path an entry takes (R344): a free way of its buckets, or a displacement path; none when the insertion fails. -/
def State.hashPlan (s : State) (t : HashTab) (stashFree : Bool) (e : HashEntry) : Option (List Place) :=
  let bs := bucketsOf t.seed0 t.seed1 e.key e.typ
  match s.freeWay t bs.1 with
  | some w => some [.way bs.1 w]
  | none => match s.freeWay t bs.2 with
    | some w => some [.way bs.2 w]
    | none => s.hashPath t stashFree 32 1 bs.1 []

/-- Apply a path (R344): each entry moves to the next place, the last one first, and `e` takes the first place. The second
component is the entry that went to the stash. -/
def State.hashApply (s : State) (t : HashTab) : List Place → HashEntry → State × Option HashEntry
  | [], _ => (s, none)
  | [.stash], e => (s, some e)
  | .stash :: _, e => (s, some e)
  | .way b w :: rest, e =>
    match s.way t b w with
    | none => (s.setWay t b w (some e), none)
    | some v =>
      let r := s.hashApply t rest v
      (r.1.setWay t b w (some e), r.2)

/-- How an insertion into a table ends: ST_OK, or why not. -/
inductive HashIns where
  | ok (s : State) (stashed : Option HashEntry) (moves : Nat)
  | has (node : Nat)
  | full

/-- Insert an entry into a table whose stash is `stash` (R344). -/
def State.hashInsert (s : State) (t : HashTab) (stash : List HashEntry) (e : HashEntry) : HashIns :=
  match s.hashHas t stash e.key e.typ with
  | some v => .has v.node
  | none =>
    match s.hashPlan t (stash.length < 64) e with
    | none => .full
    | some path =>
      let r := s.hashApply t path e
      .ok r.1 r.2 (path.length - 1)

/-- Delete a key from a table: its stash afterwards, and whether the key was there. When a way frees, the oldest stash
entry that hashes to its bucket moves in (R345). -/
def State.hashDelete (s : State) (t : HashTab) (stash : List HashEntry) (key typ : Nat) : State × List HashEntry × Bool :=
  if stash.any (fun e => e.key == key && e.typ == typ) then
    (s, stash.filter (fun e => !(e.key == key && e.typ == typ)), true)
  else match s.findWay t key typ with
    | none => (s, stash, false)
    | some (b, w, _) =>
      match stash.find? (fun e => let bs := bucketsOf t.seed0 t.seed1 e.key e.typ; bs.1 == b || bs.2 == b) with
      | none => (s.setWay t b w none, stash, true)
      | some e => (s.setWay t b w (some e), stash.erase e, true)

/-! ### Command blocks (R347 to R349) -/

/-- The engine ends a command: STATUS, RESULT, DONE, then the pin that NOTIFY names, as a reference to the block
(R348), which is visible 4 cyc after DONE. -/
def State.blockEnd (s : State) (a st result : Nat) : State :=
  let s := ((s.writeNat (a + 4) 2 st).writeNat (a + 28) 4 result).writeNat (a + 3) 1 1
  let n := s.readNat (a + 24) 4
  if bitOf n 31 then
    match s.byHandle (n % 2 ^ 23) with
    | none => s.bump (R.GROUND_COUNT1_HI)
    | some (i, t) =>
      match t.pins[n / 2 ^ 29 % 4]? with
      | none => s.bump R.GROUND_COUNT1_HI
      | some p => if p.filled || p.armed.isSome then s.bump R.GROUND_COUNT1_HI
        else s.pinFilledAt i (n / 2 ^ 29 % 4) true a (s.mtb + 4)
  else s

/-- Fields of a command block (Table 15.2). -/
def State.blkOp (s : State) (a : Nat) : Nat := s.readNat a 1
def State.blkType (s : State) (a : Nat) : Nat := s.readNat (a + 1) 1
def State.blkPan (s : State) (a : Nat) : Nat := s.readNat (a + 2) 1
def State.blkMask (s : State) (a : Nat) : Nat := s.readNat (a + 6) 1
def State.blkKey (s : State) (a : Nat) : Nat := beNat (s.readBytes (a + 8) 8)
def State.blkNode (s : State) (a : Nat) : Nat := s.readNat (a + 16) 4
def State.blkArg (s : State) (a : Nat) : Nat := s.readNat (a + 20) 4

/-- The key of a short-form IID, 0000:00FF:FE00:XXXX. -/
def shortIid (key : Nat) : Bool := key / 0x10000 = 0x000000FFFE00

/-- Octets at ARG that an operation reads or writes: a record, a learned path entry, or a route of `sr` octets. They all
lie in the firmware area (R349; that their last one does too is DEDUCED). -/
def argOctets (op sr : Nat) : Nat := if op = 7 then 72 else if op = 5 then max 1 sr else 256

/-- The checks of R349 that hold for every operation. -/
def State.blkRange (s : State) (a op : Nat) : Bool :=
  let argOp := op = 4 || op = 5 || op = 6 || op = 7
  s.readNat (a + 7) 1 = 0 && s.blkMask a < 16 && s.readNat (a + 24) 4 / 2 ^ 23 % 64 = 0 &&
  s.blkNode a < s.pr.table.nodeLimit &&
  (if op = 1 then s.blkType a ≤ 2 else if op = 2 ∨ op = 3 then s.blkType a ≤ 1 else true) &&
  (!argOp || (s.blkArg a % 64 = 0 && inFirmwareArea (s.blkArg a) &&
    inFirmwareArea (s.blkArg a + argOctets op (s.recGet (s.blkNode a) 92 2) - 1))) &&
  (op != 6 || s.blkMask a != 0) && !(op = 2 && s.blkType a = 1 && shortIid (s.blkKey a))

/-- Operations a customer-hoop bobbin may issue (R349). -/
def custOp (op : Nat) : Bool := op = 1 || op = 4 || op = 5 || op = 7

/-- The head of the command FIFO, when its block names operation `op` and the engine may take it: until HASH_READY only
LOOKUP is taken (R346). -/
def State.groundHead (s : State) (op : Nat) : Option (Nat × Bool) :=
  match s.gd.fifo with
  | [] => none
  | (a, c) :: _ => if s.blkOp a = op ∧ (op = 1 ∨ s.isSet R.GROUND_STATE_HASH_READY) then some (a, c) else none

/-- Take the head off the FIFO. -/
def State.groundPop (s : State) : State := { s with gd := { s.gd with fifo := s.gd.fifo.tail } }

/-- Execute the command at the head when it names `op`: the role and range checks, then the operation. -/
def State.groundRun (s : State) (op : Nat) (f : State → Nat → State) : State :=
  match s.groundHead op with
  | none => s
  | some (a, c) =>
    let t := s.groundPop
    if c && !custOp op then t.blockEnd a ST.GROUND_ROLE 0
    else if !t.blkRange a op then t.blockEnd a ST.GROUND_RANGE 0
    else f t a

/-- LOOKUP's result (Table 15.3). -/
def State.groundLookup (s : State) (typ pan key : Nat) : Nat :=
  if typ = 2 then s.resolveShort pan (key % 0x10000)
  else if typ = 1 ∧ shortIid key then s.resolveShort pan (key % 0x10000)
  else if !s.isSet R.GROUND_STATE_HASH_READY then nodeNone
  else if typ = 0 then s.hashLookup key 0
  else
    let n := s.hashLookup key 1
    if n = nodeNone then s.hashLookup (key ^^^ 0x0200000000000000) 0 else n

/-- An insertion into the alternate table finds its stash full: the rehash ends (R350). -/
def State.rehashFail (s : State) : State :=
  let s := s.raise R.GROUND_EVENT_REHASH_FAIL
  let s := (s.setF R.GROUND_STATE_REHASH 0).setF R.GROUND_STATE_ALT_READY 0
  match s.gd.rehash with
  | none => s
  | some a => ({ s with gd := { s.gd with rehash := none } }).blockEnd a ST.GROUND_REHASH_FAIL 0

/-- Whether INSERT and DELETE act on the alternate table too: during a rehash and until SWAP (R350). -/
def State.altActive (s : State) : Bool := s.isSet R.GROUND_STATE_REHASH || s.isSet R.GROUND_STATE_ALT_READY

/-- Insert into the alternate table, skipping a key already there (R350); a displacement and an entry in the stash are
reported as those of the live table are, since R350 inserts by R344 (DEDUCED). -/
def State.altInsert (s : State) (e : HashEntry) : State :=
  match s.hashInsert s.altTab s.gd.altStash e with
  | .has _ => s
  | .full => s.rehashFail
  | .ok t none moves => t.addF R.GROUND_COUNT0_HI moves
  | .ok t (some v) moves =>
    ({ t with gd := { t.gd with altStash := t.gd.altStash ++ [v] } }.addF R.GROUND_COUNT0_HI moves).raise
      R.GROUND_EVENT_STASH_USED

/-- INSERT (R344, R350): the result written to the block. -/
def State.groundInsert (s : State) (a : Nat) : State :=
  let e : HashEntry := ⟨s.blkKey a, s.blkType a, s.blkNode a⟩
  match s.hashInsert s.liveTab s.gd.stash e with
  | .has n => s.blockEnd a ST.GROUND_EXISTS n
  | .full => ((s.bump R.GROUND_COUNT1_LO).raise R.GROUND_EVENT_REHASH_NEEDED).blockEnd a ST.GROUND_HASH_FULL 0
  | .ok t st moves =>
    let t := (t.addF R.GROUND_COUNT0_HI moves)
    let t := match st with
      | none => t
      | some v => ({ t with gd := { t.gd with stash := t.gd.stash ++ [v] } }).raise R.GROUND_EVENT_STASH_USED
    let t := { t with gd := { t.gd with entries := t.gd.entries + 1 } }
    ((if t.altActive then t.altInsert e else t).journalAdd 2 false 0 e.node (beBytes 8 e.key ++ leBytes 1 e.typ)).blockEnd a
      ST.OK 0

/-- DELETE (R345, R350). -/
def State.groundDelete (s : State) (a : Nat) : State :=
  let key := s.blkKey a
  let typ := s.blkType a
  match s.hashDelete s.liveTab s.gd.stash key typ with
  | (_, _, false) => s.blockEnd a ST.GROUND_ABSENT 0
  | (t, st, true) =>
    let t := { t with gd := { t.gd with stash := st, entries := t.gd.entries - 1 } }
    let t := if t.altActive then
        let r := t.hashDelete t.altTab t.gd.altStash key typ
        { r.1 with gd := { r.1.gd with altStash := r.2.1 } }
      else t
    (t.journalAdd 3 false 0 0 (beBytes 8 key ++ leBytes 1 typ)).blockEnd a ST.OK 0

/-- Copy `n` bytes. -/
def State.copyMem (s : State) (src dst n : Nat) : State := s.writeBytes dst (s.readBytes src n)

/-- The bytes of chunk `c` that a WRITE from image `arg` changes in record `n` (R335). -/
def State.writeChunk (s : State) (n arg c : Nat) : State :=
  s.each ((List.range 64).map (fun i => 64 * c + i)) (fun s o =>
    if ryurixOwns o then s.writeByte (s.recAddr n o) (s.readByte (arg + o))
    else if o = 131 then
      s.writeByte (s.recAddr n o) ((s.readByte (s.recAddr n o) &&& 0xF8#8) ||| (s.readByte (arg + o) &&& 0x07#8))
    else s)

/-- A key change (R336): the counter starts anew, FRESH. -/
def State.keyChange (s : State) (n : Nat) : State :=
  let s := (s.recPut n 40 4 0).recPut n 44 1 1
  let k := Store.get (fun _ => 0) s.gd.keyEpoch n + 1
  { s with gd := { s.gd with keyEpoch := Store.set (fun _ => 0) s.gd.keyEpoch n k } }

/-- WRITE (R335, R336): the chunks of MASK, and a key change when chunk 0 is one of them. -/
def State.recWrite (s : State) (n arg mask : Nat) : State :=
  let s := s.each (List.range 4) (fun s c =>
    if bitOf mask c then
      let s := s.writeChunk n arg c
      s.journalAt (s.recAddr n (64 * c)) (s.readBytes (s.recAddr n (64 * c)) 64)
    else s)
  if bitOf mask 0 then s.keyChange n else s

/-! ### Learned paths (R352 to R358) -/

/-- The seconds stamp (R352). -/
def State.stamp (s : State) : Nat := s.mtb / 1289062500 % 65536

def State.lptEntry (s : State) (k : Nat) : Option Lpt := Store.find? k s.gd.lpt
def State.setLpt (s : State) (k : Nat) (v : Lpt) : State := { s with gd := { s.gd with lpt := Store.put k v s.gd.lpt } }

/-- Whether a port is stale (R355). -/
def State.stale (s : State) (p : Port) : Bool :=
  s.getF R.GROUND_LPT_CFG_AGE_LIMIT_S < (s.stamp + 65536 - p.ts) % 65536

/-- The port with the highest RSSI among those that are valid and not stale; the lower number wins ties (R354). -/
def State.candidate (s : State) (ps : List Port) : Option Nat :=
  firstBy (fun i j =>
    match ps[i]?, ps[j]? with
    | some a, some b => b.rssi < a.rssi || (a.rssi = b.rssi && i < j)
    | _, _ => false)
    ((List.range 8).filter (fun i => match ps[i]? with | some p => p.valid && !s.stale p | none => false))

/-- Evaluate the best port (R354). -/
def State.evalBest (s : State) (e : Lpt) : Lpt :=
  match s.candidate e.ports with
  | none => e
  | some c =>
    match e.best with
    | none => { e with best := some c }
    | some b =>
      match e.ports[b]?, e.ports[c]? with
      | some pb, some pc =>
        if !pb.valid || s.stale pb || pb.rssi + 8 * (s.getF R.GROUND_LPT_CFG_HYST : Int) ≤ pc.rssi then
          { e with best := some c }
        else e
      | _, _ => { e with best := some c }

/-- The newest stamp of an entry's ports, as its age now. -/
def State.newestAge (s : State) (e : Lpt) : Nat :=
  (e.ports.filter (·.valid)).foldl (fun n p => min n ((s.stamp + 65536 - p.ts) % 65536)) 65536

/-- A new entry (R356): the lowest free one, or the one whose newest stamp is the oldest. -/
def State.lptAlloc (s : State) (n : Nat) : Nat × State :=
  let fresh : Lpt := ⟨n, none, List.replicate 8 {}⟩
  match firstFree (s.gd.lpt.map (·.1)) 8192 0 8193 with
  | some k => (k, s.setLpt k fresh)
  | none =>
    match firstBy (fun a b => s.newestAge b.2 < s.newestAge a.2 || (s.newestAge a.2 = s.newestAge b.2 && a.1 < b.1))
        s.gd.lpt with
    | none => (0, s)
    | some (k, _) => (k, ((s.setLpt k fresh).bump R.GROUND_LPT_USE_EVICTS).raise R.GROUND_EVENT_LPT_EVICT)

/-- The entry the record of node `n` names, if it is the node's (R353). -/
def State.lptOf (s : State) (n : Nat) : Option (Nat × Lpt) :=
  let w := s.recGet n 94 2
  if bitOf w 15 then
    match s.lptEntry (w % 8192) with
    | some e => if e.node = n then some (w % 8192, e) else none
    | none => none
  else none

/-- A value smoothed into a port (R353). -/
def State.smooth (s : State) (p : Port) (v : Int) : Int :=
  if p.valid then p.rssi + (v - p.rssi) / (2 ^ s.getF R.GROUND_LPT_CFG_ALPHA : Nat) else v

/-- A reception teaches the table: the port of the path it was received on, and the other path's port when that path is in
use (R353). The third component lists what stood in the ports before. -/
def State.teach (s : State) (n trx path : Nat) (rssi diff : Int) (otherInUse : Bool) (chan : Nat) :
    State × List LptUndo :=
  let got : Nat × State := match s.lptOf n with
    | some (k, _) => (k, s)
    | none => let r := s.lptAlloc n; (r.1, r.2.recPut n 94 2 (0x8000 + r.1))
  let k := got.1
  let s := got.2
  match s.lptEntry k with
  | none => (s, [])
  | some e =>
    let pa := 2 * trx + path
    let pb := 2 * trx + (1 - path)
    let write := fun (e : Lpt) (p : Nat) (v : Int) (est : Bool) =>
      match e.ports[p]? with
      | none => e
      | some o => { e with ports := e.ports.set p ⟨true, s.smooth o v, s.stamp, chan, est, s.gd.obs⟩ }
    let e1 := write e pa rssi false
    let e2 := if otherInUse then write e1 pb (rssi - 2 * diff) true else e1
    let undo := fun (p : Nat) => match e.ports[p]? with
      | some o => [(⟨k, p, s.gd.obs, o⟩ : LptUndo)]
      | none => []
    let s := { s with gd := { s.gd with obs := s.gd.obs + 1 } }
    (s.setLpt k (s.evalBest e2), undo pa ++ (if otherInUse then undo pb else []))

/-- A verdict other than 0 or 2 puts the previous values back, unless another observation has been written meanwhile
(R353). -/
def State.unteach (s : State) (us : List LptUndo) : State :=
  s.each us (fun s u =>
    match s.lptEntry u.entry with
    | none => s
    | some e => match e.ports[u.port]? with
      | none => s
      | some p => if p.obs = u.obs then s.setLpt u.entry { e with ports := e.ports.set u.port u.old } else s)

/-- The transmit path of a command that R358 gives no better one: path A, or path B when A is not in use (R148). -/
def State.pathAny (s : State) (n : Nat) : Nat := if s.isSet (R.TRX_PATH_ON_A n) then 0 else 1

/-- The transmit path of a unicast to node `n` on TRX `t` (R358): 0 path A, 1 path B. -/
def State.txPath (s : State) (n t : Nat) : Nat :=
  let dflt := s.pathAny t
  match s.lptOf n with
  | none => dflt
  | some (_, e) =>
    match e.best with
    | some b => if b / 2 = t then b % 2 else
        (match e.ports[2 * t]?, e.ports[2 * t + 1]? with
         | some a, some c => if a.valid && (!c.valid || c.rssi ≤ a.rssi) then 0 else if c.valid then 1 else dflt
         | _, _ => dflt)
    | none =>
      match e.ports[2 * t]?, e.ports[2 * t + 1]? with
      | some a, some c => if a.valid && (!c.valid || c.rssi ≤ a.rssi) then 0 else if c.valid then 1 else dflt
      | _, _ => dflt

/-- A learned path entry's 72 octets (Table 15.4). -/
def Lpt.bytes (e : Lpt) : List Byte :=
  leBytes 4 (0x80000000 + e.node) ++
  leBytes 4 (match e.best with | some b => b + 8 | none => 0) ++
  e.ports.flatMap (fun p => leBytes 2 (unsigned 16 p.rssi) ++ leBytes 2 p.ts ++ leBytes 3 p.chan ++
    leBytes 1 ((if p.valid then 1 else 0) + (if p.est then 2 else 0)))

/-- Free a learned path entry. -/
def State.lptFree (s : State) (k : Nat) : State := { s with gd := { s.gd with lpt := Store.del k s.gd.lpt } }

/-! ### Commands -/

/-- GROUND_CMD_WRITE: a write of a command block's address (R347). `cmp` says that CMP or the service port wrote it,
else bobbin `bob` did. -/
def State.groundCmd (s : State) (a : Nat) (cmp : Bool) (bob : Nat) : State :=
  if cmp then s.refuse R.GROUND_CMD_ERR_STATUS ST.GROUND_ROLE
  else if a % 32 ≠ 0 || !inFirmwareArea a then s.refuse R.GROUND_CMD_ERR_STATUS ST.GROUND_RANGE
  else if 16 ≤ s.gd.fifo.length then
    (s.raise R.GROUND_EVENT_CMD_FULL).refuse R.GROUND_CMD_ERR_STATUS ST.GROUND_CMD_FULL
  else
    let cust := match s.hoopOf bob with | some h => s.isCustomer h | none => false
    ({ s with gd := { s.gd with fifo := s.gd.fifo ++ [(a, cust)] } }).answer ST.OK

/-- GROUND_CMD_WRITE (R347). -/
def execGroundCmdWrite (addr : Word) (cmp : Bool) (bob : Fin 16) (s : State) : Res :=
  .next (s.groundCmd addr.toNat cmp bob)

/-- GROUND_LOOKUP (R343, R338). -/
def execGroundLookup (s : State) : Res :=
  .next (s.groundRun 1 (fun s a => s.blockEnd a ST.OK (s.groundLookup (s.blkType a) (s.blkPan a) (s.blkKey a))))

/-- GROUND_INSERT (R344). -/
def execGroundInsert (s : State) : Res := .next (s.groundRun 2 State.groundInsert)

/-- GROUND_DELETE (R345). -/
def execGroundDelete (s : State) : Res := .next (s.groundRun 3 State.groundDelete)

/-- GROUND_FETCH: the 256 B record of NODE goes to ARG. -/
def execGroundFetch (s : State) : Res :=
  .next (s.groundRun 4 (fun s a => (s.copyMem (s.recAddr (s.blkNode a) 0) (s.blkArg a) 256).blockEnd a ST.OK 0))

/-- GROUND_ROUTE: the node's source route goes from the route cache to ARG. -/
def execGroundRoute (s : State) : Res :=
  .next (s.groundRun 5 (fun s a =>
    let n := s.blkNode a
    let len := s.recGet n 92 2
    (s.copyMem ((s.region 6).1 + s.recGet n 88 4) (s.blkArg a) len).blockEnd a ST.OK len))

/-- GROUND_WRITE (R335, R336). -/
def execGroundWrite (s : State) : Res :=
  .next (s.groundRun 6 (fun s a => (s.recWrite (s.blkNode a) (s.blkArg a) (s.blkMask a)).blockEnd a ST.OK 0))

/-- GROUND_LPT_READ: NODE's learned path entry goes to ARG; RESULT 0 when it has none. -/
def execGroundLptRead (s : State) : Res :=
  .next (s.groundRun 7 (fun s a =>
    match s.lptOf (s.blkNode a) with
    | none => s.blockEnd a ST.OK 0
    | some (_, e) => (s.writeBytes (s.blkArg a) e.bytes).blockEnd a ST.OK 1))

/-- GROUND_LPT_FORGET: NODE's learned path entry is freed. -/
def execGroundLptForget (s : State) : Res :=
  .next (s.groundRun 8 (fun s a =>
    match s.lptOf (s.blkNode a) with
    | none => s.blockEnd a ST.GROUND_ABSENT 0
    | some (k, _) => (s.lptFree k).blockEnd a ST.OK 0))

/-- The alternate area of a rehash (R350). -/
def State.altAreaOk (s : State) : Bool :=
  let b := s.getF R.GROUND_ALT_BASE_BASE
  let z := 0x800000
  b % 0x100000 = 0 && inDram b && inDram (b + z - 1) && b + z ≤ 0x9FF00000 && b != s.getF R.GROUND_HASH_BASE_BASE &&
  (List.range 8).all (fun k => k = 1 || (let r := s.region k; b + z ≤ r.1 || r.1 + r.2 ≤ b))

/-- GROUND_REHASH: the alternate area is checked and zeroed, its stash emptied, and the walk starts (R350). -/
def execGroundRehash (s : State) : Res :=
  .next (s.groundRun 9 (fun s a =>
    if s.gd.rehash.isSome then s.blockEnd a ST.GROUND_REHASH_BUSY 0
    else if !s.altAreaOk then s.blockEnd a ST.GROUND_ALT_AREA 0
    else if s.gd.alt0 = s.gd.alt1 then s.blockEnd a ST.GROUND_REHASH_FAIL 0
    else
      let b := s.getF R.GROUND_ALT_BASE_BASE
      let s := s.dropMem b (b + 0x800000)
      (({ s with gd := { s.gd with altStash := [], rehash := some a } }).setF R.GROUND_STATE_ALT_READY 0).setF
        R.GROUND_STATE_REHASH 1))

/-- The entries of the live table in the order of the walk: buckets ascending, then the stash (R350). -/
def State.liveEntries (s : State) : List HashEntry :=
  (List.range 131072).flatMap (fun b => (List.range 4).filterMap (fun w => s.way s.liveTab b w)) ++ s.gd.stash

/-- REHASH_WALK_END: every live entry is in the alternate table, or one found its stash full and the rehash failed
(R350). -/
def execRehashWalkEnd (s : State) : Res :=
  match s.gd.rehash with
  | none => .next s
  | some a =>
    let t := s.each s.liveEntries (fun s e => if s.gd.rehash.isSome then s.altInsert e else s)
    if t.gd.rehash.isNone then .next t
    else
      .next (((({ t with gd := { t.gd with rehash := none } }).setF R.GROUND_STATE_REHASH 0).setF
        R.GROUND_STATE_ALT_READY 1).raise R.GROUND_EVENT_REHASH_DONE |>.blockEnd a ST.OK 0)

/-- GROUND_SWAP: live and alternate base, seeds and stash banks are exchanged at once (R351). -/
def execGroundSwap (s : State) : Res :=
  .next (s.groundRun 10 (fun s a =>
    if !s.isSet R.GROUND_STATE_ALT_READY then s.blockEnd a ST.GROUND_REHASH_STATE 0
    else
      let live := s.getF R.GROUND_HASH_BASE_BASE
      let alt := s.getF R.GROUND_ALT_BASE_BASE
      let s := { s with gd := { s.gd with
        seed0 := s.gd.alt0, seed1 := s.gd.alt1, alt0 := s.gd.seed0, alt1 := s.gd.seed1,
        stash := s.gd.altStash, altStash := s.gd.stash } }
      (((s.setF R.GROUND_HASH_BASE_BASE alt).setF R.GROUND_ALT_BASE_BASE live).setF R.GROUND_STATE_ALT_READY 0).blockEnd
        a ST.OK 0))

/-- GROUND_BAD_OP: an operation that is none of Table 15.3. -/
def execGroundBadOp (s : State) : Res :=
  match s.gd.fifo with
  | [] => .next s
  | (a, c) :: _ =>
    if (s.blkOp a = 0 ∨ 10 < s.blkOp a) ∧ s.isSet R.GROUND_STATE_HASH_READY then
      .next (s.groundPop.blockEnd a (if c then ST.GROUND_ROLE else ST.GROUND_RANGE) 0)
    else .next s

/-- One visit of the sweep: stale ports are cleared, the best port evaluated after each, an entry without a valid port
freed (R355). -/
def State.sweep (s : State) (k : Nat) : State :=
  match s.lptEntry k with
  | none => s
  | some e =>
    let r := (List.range 8).foldl (fun (acc : Lpt) i =>
      match acc.ports[i]? with
      | some p => if p.valid && s.stale p then
          s.evalBest { acc with ports := acc.ports.set i {}, best := if acc.best = some i then none else acc.best }
        else acc
      | none => acc) e
    if r.ports.all (fun p => !p.valid) then s.lptFree k else s.setLpt k r

/-- LPT_SWEEP_STEP: the sweep visits its next entry, in ascending order, 2^21 cyc after the one before (R355); its first
visit after a reset is at the present time (DESIGN CHOICE). -/
def execLptSweepStep (s : State) : Res :=
  let s := match s.gd.sweptAt with
    | some t => s.advance (t + 0x200000)
    | none => s
  let s := { s with gd := { s.gd with sweptAt := some (match s.gd.sweptAt with | some t => t + 0x200000 | none => s.mtb) } }
  let k := s.getF R.GROUND_SWEEP_NEXT
  .next ((s.sweep k).setF R.GROUND_SWEEP_NEXT ((k + 1) % 8192))

end Sys2Proof.Machine
end

