-- ==== Sys2Proof/Machine/Keys.lean ====
section
/-!
DEFINITION. The key engine (18_keys_and_tamper.md): slots, key commands in the check order of R409, the key store, the
owner root's part in BOOT. What answers a tamper event in the core stands in Tamper.lean; the flash's side of a key-store
write in Flash.lean.
-/
namespace Sys2Proof.Machine

/-- The status of the first condition that holds, in a list of checks. -/
def firstFail : List (Bool × Nat) → Option Nat
  | [] => none
  | (c, st) :: l => if c then some st else firstFail l

/-! ### Slots (R405 to R407) -/

def State.keySlot (s : State) (k : Nat) : Option KeySlot := Store.find? k s.ky.slots
def State.putSlot (s : State) (k : Nat) (v : KeySlot) : State := { s with ky := { s.ky with slots := Store.put k v s.ky.slots } }
def State.delSlot (s : State) (k : Nat) : State := { s with ky := { s.ky with slots := Store.del k s.ky.slots } }

/-- Fields of an attribute word (Table 18.3). -/
def attrOrigin (a : Nat) : Nat := a / 2 ^ 27 % 8
def attrType (a : Nat) : Nat := a / 2 ^ 24 % 8
def attrUsage (a : Nat) : Nat := a / 2 ^ 16 % 256
def attrExport (a : Nat) : Bool := bitOf a 15
def attrPersist (a : Nat) : Bool := bitOf a 14
def attrRoles (a : Nat) : Nat := a / 2 ^ 11 % 8

/-- The usage bits a type may have (Table 18.4), as a mask of the USAGE field. -/
def usageMask (t : Nat) : Nat := if t < 2 then 0x07 else if t = 2 then 0x28 else if t < 5 then 0x10 else if t = 5 then 0x40 else 0

/-- The attribute word of a new key: the device sets VALID, SEALED and ORIGIN. -/
def attrWord (origin : Nat) (a : Nat) : Nat :=
  2 ^ 31 + (if origin < 2 ∧ !attrExport a then 2 ^ 30 else 0) + origin * 2 ^ 27 + a % 2 ^ 27 / 2 ^ 11 * 2 ^ 11

/-- A new key's attribute word is out of range: TYPE 6 or 7, a 0 field set, a usage its type does not have (R407). -/
def attrBad (a : Nat) : Bool :=
  5 < attrType a || a % 2 ^ 11 ≠ 0 || attrUsage a &&& usageMask (attrType a) ≠ attrUsage a

/-- The octets of a key as EXPORT wraps it: the AES-128 key, or 32 octets. -/
def keyOctets (t : Nat) : Nat := if t = 0 then 16 else 32

/-- Octets of a public key and of a signature (FIPS 203, FIPS 204), by slot type. -/
def publicOctets (t : Nat) : Nat := if t = 3 then 1312 else if t = 4 then 1952 else 1184
def signOctets (t : Nat) : Nat := if t = 3 then 2420 else 3309

/-- The lowest free slot from 8. -/
def State.freeSlot (s : State) : Option Nat := (List.range 504).map (· + 8) |>.find? (fun k => (s.keySlot k).isNone)

/-- A slot of 3 to 7 that is free, the lowest one (R431). -/
def State.freeSession (s : State) : Option Nat := [3, 4, 5, 6, 7].find? (fun k => (s.keySlot k).isNone)

/-! ### Derivation (R413) -/

def State.ownerState (s : State) : Nat := s.getF R.TAMPER_STATE_OWNER

/-- Derivations of Table 18.7. -/
def identitySeed : Nat := Config.kmac Config.birthSecret (ascii "identity") 256 (ascii "SVC4820")
def storeKey (root : Nat) : Nat := Config.kmac root (ascii "store") 256 (ascii "SVC4820")
def ownerSeed (root : Nat) : Nat := Config.kmac root (ascii "owner sign") 256 (ascii "SVC4820")
def derived (k : Nat) (x : List Nat) (t : Nat) : Nat := Config.kmac k x (8 * keyOctets t) (ascii "SVC4820 derive")
def checkValue (k : Nat) : Nat := Config.kmac k [] 128 (ascii "SVC4820 kcv")

/-- The attribute words of the system slots 0, 1 and 2; every role may name them. -/
def attrIdentity : Nat := 2 ^ 31 + 3 * 2 ^ 27 + 3 * 2 ^ 24 + 7 * 2 ^ 11
def attrStore : Nat := 2 ^ 31 + 2 ^ 30 + 2 ^ 24 + 7 * 2 ^ 11
def attrOwner : Nat := 2 ^ 31 + 2 ^ 30 + 4 * 2 ^ 24 + 7 * 2 ^ 11

/-- Slots 1 and 2 derived from the owner root (Table 18.2). -/
def State.ownerSlots (s : State) : State :=
  (s.putSlot 1 ⟨attrStore, storeKey s.ky.root⟩).putSlot 2 ⟨attrOwner, ownerSeed s.ky.root⟩

/-! ### The DRBG (R416) -/

/-- Whether the DRBG is instantiated. -/
def State.drbgOk (s : State) : Bool := s.isSet R.KEY_STATE_DRBG_OK

/-- One DRBG request: after 2^20 requests it is reseeded first. -/
def State.drbgUse (s : State) : State :=
  s.useFree.setF R.KEY_DRBG_REQS (if 1048576 ≤ s.getF R.KEY_DRBG_REQS then 1 else s.getF R.KEY_DRBG_REQS + 1)

/-! ### Command blocks (Table 18.5) -/

/-- The command that a block in memory spells. -/
def State.keyBlkAt (s : State) (a : Nat) : KeyBlk where
  op := s.readNat a 1
  slot := s.readNat (a + 4) 2
  slot2 := s.readNat (a + 6) 2
  attr := s.readNat (a + 8) 4
  role := s.readNat (a + 12) 1
  inAddr := s.readNat (a + 16) 4
  input := s.readBytes (s.readNat (a + 16) 4) (s.readNat (a + 20) 2)
  outCap := s.readNat (a + 22) 2
  out := s.readNat (a + 24) 4
  reserved := s.readNat (a + 13) 3 ≠ 0 || s.readNat (a + 36) 12 ≠ 0 || s.readNat (a + 28) 4 / 2 ^ 23 % 64 ≠ 0

def State.reqBlk (s : State) (r : KeyReq) : KeyBlk :=
  match r with
  | .blk a => s.keyBlkAt a
  | .call _ b => b

/-- The credential of the caller of a key command, 0 for firmware (Table 19.5). -/
def State.reqCred (s : State) (r : KeyReq) : Nat :=
  match r with
  | .blk _ => 0
  | .call t _ => (match Store.find? t s.cmp.tickets with | some k => k.cred | none => 0)

/-- The pin that a NOTIFY word names is filled with a reference to the block (R348). -/
def State.notifyPin (s : State) (n a : Nat) : State :=
  if bitOf n 31 then
    match s.byHandle (n % 2 ^ 23) with
    | none => s
    | some (i, t) =>
      match t.pins[n / 2 ^ 29 % 4]? with
      | none => s
      | some p => if p.filled || p.armed.isSome then s else s.pinFilledAt i (n / 2 ^ 29 % 4) true a (s.mtb + 4)
  else s

/-- A key command ends: STATUS, RESULT and DONE in its block, then its notification; or the ticket's result, with the
output under key 20 (R408). -/
def State.keyEnd (s : State) (r : KeyReq) (st result : Nat) (output : List Byte) : State :=
  match r with
  | .blk a =>
    (((s.writeNat (a + 2) 2 st).writeNat (a + 32) 4 result).writeNat (a + 1) 1 1).notifyPin (s.readNat (a + 28) 4) a
      |>.answer st
  | .call t _ => s.finishCall t st (if output.isEmpty then [(20, [result])] else [(20, nats output)])

/-- A refused key command changes nothing and is counted (R409). -/
def State.keyRefused (s : State) (r : KeyReq) (st : Nat) : State := (s.bump R.KEY_COUNT0_REFUSED).keyEnd r st 0 []

/-- A command that ends with an output (R409): written to OUT, its octets counted in RESULT. -/
def State.keyOut (s : State) (r : KeyReq) (b : KeyBlk) (o : List Byte) : State :=
  match r with
  | .blk _ => (s.writeBytes b.out o).keyEnd r ST.OK o.length []
  | .call _ _ => s.keyEnd r ST.OK o.length o

/-- The names and the codes of Table 18.6's operations that make an audit record (R433): create, restrict, destroy. -/
def keyAudited (op : Nat) : Bool := op = 1 || op = 2 || op = 3 || op = 5 || op = 6 || op = 12 || op = 14

/-- Whether the input and the output lie in shared SRAM or DRAM (Table 18.5). -/
def bufOk (a n : Nat) : Bool :=
  n = 0 || (0x10000000 ≤ a && a + n ≤ 0x10600000) || (0x80000000 ≤ a && a + n ≤ 0xA0000000)

/-- Operations that name an existing slot in SLOT, and those that make a new one. -/
def opNames (op : Nat) : Bool := op = 4 || op = 5 || op = 6 || op = 7 || op = 8 || op = 9 || op = 10 || op = 13
def opMakes (op : Nat) : Bool := op = 1 || op = 2 || op = 3 || op = 12

/-- The input lengths of Table 18.6. -/
def inputBad (op : Nat) (b : KeyBlk) : Bool :=
  let n := b.input.length
  let at_ := fun (k : Nat) => (b.input.getD k 0).toNat
  if op = 2 then n = 0 || 64 < n
  else if op = 3 then n ≠ keyOctets (attrType b.attr) + 8
  else if op = 7 then n < 8 || 32 < n
  else if op = 8 || op = 9 then n = 0 || n < 1 + at_ 0
  else if op = 10 then n < 16 || 256 < n || n % 8 ≠ 0
  else if op = 12 then n ≠ 1088
  else if op = 16 then
    let t := if at_ 0 = 0x44 then 3 else 4
    let head := 1 + publicOctets t + signOctets t
    (at_ 0 ≠ 0x44 && at_ 0 ≠ 0x65) || n < head + 1 || n < head + 1 + at_ head
  else false

/-- The octets an operation puts out, where the length is known before the command executes. -/
def State.outNeed (s : State) (op : Nat) (b : KeyBlk) : Nat :=
  let t := match s.keySlot b.slot with | some k => attrType k.attr | none => 0
  if op = 4 then keyOctets t + 8
  else if op = 8 then signOctets t
  else if op = 10 then b.input.length + 8
  else if op = 13 then publicOctets t
  else if op = 15 then Config.certificate.length
  else 0

/-- Check 2 of R409. -/
def State.keyRangeBad (s : State) (op : Nat) (b : KeyBlk) : Bool :=
  b.reserved || 3 < b.role ||
  (opNames op && 511 < b.slot) || (opMakes op && b.slot ≠ 0xFFFF && 511 < b.slot) ||
  ((op = 3 || op = 4 || op = 12) && 511 < b.slot2) || (op = 2 && b.slot2 ≠ 0xFFFF && 511 < b.slot2) ||
  ((op = 1 || op = 2 || op = 3) && attrBad b.attr) || inputBad op b ||
  (op = 9 && (b.outCap < 16 || 64 < b.outCap)) || (op = 11 && (b.outCap = 0 || 4096 < b.outCap)) ||
  b.outCap < s.outNeed op b || !bufOk b.inAddr b.input.length ||
  ((op = 4 || 7 ≤ op && op ≤ 11 || op = 13 || op = 15) && !bufOk b.out (if op = 9 || op = 11 then b.outCap else s.outNeed op b))

/-- The operations a system slot admits (Table 18.2). -/
def systemUse (op slot : Nat) : Bool := (slot = 0 && (op = 7 || op = 13)) || (slot = 2 && op = 13)

/-- Whether a role may name a slot (check 4): role 0 passes. -/
def roleBad (role : Nat) (k : Option KeySlot) : Bool :=
  role ≠ 0 && (match k with | some v => !bitOf (attrRoles v.attr) (role - 1) | none => false)

def usageBad (k : Option KeySlot) (bit : Nat) : Bool :=
  match k with
  | some v => !bitOf (attrUsage v.attr) bit
  | none => false

/-- The checks of R409 in order, then those of Table 18.6 that look at the owner root and the DRBG. -/
def State.keyCheck (s : State) (op : Nat) (b : KeyBlk) : Option Nat :=
  let k1 := s.keySlot b.slot
  let k2 := s.keySlot b.slot2
  let src2 := op = 3 || op = 4 || op = 12 || (op = 2 && b.slot2 ≠ 0xFFFF)
  let owner := s.ownerState = 1
  firstFail [
    (s.dev = devTamper && !(op = 7 || op = 11 || op = 13 || op = 14 || op = 15), ST.KEY_NO_OWNER),
    (op = 0 || 16 < op || s.keyRangeBad op b, ST.KEY_RANGE),
    (opNames op && b.slot < 8 && !systemUse op b.slot, ST.KEY_SLOT_STATE),
    (opMakes op && b.slot < 8, ST.KEY_SLOT_STATE),
    (src2 && b.slot2 < 8, ST.KEY_SLOT_STATE),
    (opNames op && k1.isNone, ST.KEY_SLOT_EMPTY),
    (src2 && k2.isNone, ST.KEY_SLOT_EMPTY),
    (opMakes op && b.slot ≠ 0xFFFF && k1.isSome, ST.KEY_SLOT_EMPTY),
    (opMakes op && b.slot = 0xFFFF && s.freeSlot.isNone, ST.KEY_SLOTS_FULL),
    (opNames op && roleBad b.role k1, ST.KEY_ROLE),
    (src2 && roleBad b.role k2, ST.KEY_ROLE),
    (op = 14 && b.role ≠ 2, ST.KEY_ROLE),
    (op = 2 && src2 && usageBad k2 3, ST.KEY_USAGE),
    (op = 3 && usageBad k2 2, ST.KEY_USAGE),
    (op = 4 && (match k1 with | some v => !attrExport v.attr | none => false), ST.KEY_EXPORT),
    (op = 4 && usageBad k2 1, ST.KEY_USAGE),
    (op = 8 && usageBad k1 4, ST.KEY_USAGE),
    (op = 9 && usageBad k1 5, ST.KEY_USAGE),
    (op = 10 && usageBad k1 1, ST.KEY_USAGE),
    (op = 12 && usageBad k2 6, ST.KEY_USAGE),
    (op = 13 && (match k1 with | some v => attrType v.attr < 3 | none => false), ST.KEY_USAGE),
    (op = 14 && !(s.ownerState = 0 || s.ownerState = 2), ST.KEY_OWNER_STATE),
    (op = 14 && s.getF R.TAMPER_STATE_ACTIVE &&& s.getF R.TAMPER_CFG_EN ≠ 0, ST.TAMPER_ACTIVE),
    ((op = 1 || op = 2 || op = 3) && attrPersist b.attr && !owner, ST.KEY_NO_OWNER),
    (op = 2 && b.slot2 = 0xFFFF && !owner, ST.KEY_NO_OWNER),
    (op = 6 && s.pr.pans.zipIdx.any (fun p =>
        s.isSet (R.MAC_PAN_KEY_VALID.bank p.2) && s.getF (R.MAC_PAN_KEY_SLOT.bank p.2) = b.slot), ST.KEY_IN_USE),
    ((op = 1 || op = 11 || op = 12 || op = 14) && !s.drbgOk, ST.KEY_ENTROPY_FAIL)]

/-! ### The key store (R417 to R419) -/

def State.keyArea (s : State) (a : Nat) : KeyArea := if a = 0 then s.ky.area0 else s.ky.area1
def State.setKeyArea (s : State) (a : Nat) (v : KeyArea) : State :=
  if a = 0 then { s with ky := { s.ky with area0 := v } } else { s with ky := { s.ky with area1 := v } }

/-- The records of a new blob: one per persistent slot. -/
def State.blobRecords (s : State) : List (Nat × Nat × Nat) :=
  s.ky.slots.filterMap (fun k => if 8 ≤ k.1 && attrPersist k.2.attr then some (k.1, k.2.attr, k.2.mat) else none)

/-- The pages of a blob (R417). -/
def blobPages (b : KeyBlob) : Nat := divUp (64 + 64 * b.records.length + 16) 4096

/-- A blob's octets (R417): header, records, MIC. Fields are little-endian; key material stands as in a wrap, the highest octet first
(DEDUCED). -/
def blobBytes (storeKey area : Nat) (b : KeyBlob) : List Byte :=
  let head := leBytes 4 0x4254534B ++ leBytes 2 1 ++ leBytes 2 (bit b.pending) ++ leBytes 8 b.gen ++ leBytes 2 b.records.length ++
    List.replicate 46 (0 : Byte)
  let recs := b.records.flatMap (fun r =>
    let n := keyOctets (attrType r.2.1)
    leBytes 2 r.1 ++ leBytes 2 0 ++ leBytes 4 r.2.1 ++ beBytes n r.2.2 ++ List.replicate (32 - n + 24) (0 : Byte))
  let nonce := nats (leBytes 8 b.gen ++ leBytes 1 area ++ leBytes 4 0)
  head ++ (Config.ccm storeKey nonce (nats head) (nats recs) 16).map (BitVec.ofNat 8)

/-- The flash operation of a key-store write (R418): the erase of the area's block, or the program of a page. -/
def State.keyNand (s : State) (w : KeyWrite) : NandOp :=
  let page := match w.blob, s.keySlot 1 with
    | some b, some k => ((blobBytes k.mat w.area b).drop (4096 * (w.page - 1))).take 4096
    | _, _ => []
  ⟨1, if w.page = 0 then 3 else 2, 128 + 64 * w.area + (w.page - 1), 1, 0, if w.page = 0 then [] else page⟩

/-- The command in progress waits for its key-store writes, or ends when there are none (R410). -/
def State.keyStoreRun (s : State) (j : KeyJob) : State :=
  match j.writes with
  | [] => s.keyEnd j.req ST.OK j.result []
  | w :: _ =>
    ((({ s with ky := { s.ky with job := some j } }).setF R.KEY_CMD_STAT_BUSY 1).setF R.KEY_CMD_STAT_STORE_BUSY 1).nandSubmit
      (s.keyNand w)

/-- A new blob, one GEN up, into the area that does not hold the newest (R418). -/
def State.newBlob (s : State) (pending : Bool) (gen area : Nat) : KeyWrite :=
  ⟨area, some ⟨gen, pending, s.blobRecords⟩, 0, false⟩

/-- A change to persistent slots: its blob, or two for a destroy (R418). -/
def State.storeWrites (s : State) (destroy : Bool) : List KeyWrite :=
  if destroy then
    [s.newBlob true (s.ky.gen + 1) (1 - s.ky.newest), s.newBlob false (s.ky.gen + 2) s.ky.newest]
  else [s.newBlob false (s.ky.gen + 1) (1 - s.ky.newest)]

/-- The newest blob becomes the one just completed. -/
def State.blobDone (s : State) (area : Nat) (b : KeyBlob) : State :=
  ((({ s with ky := { s.ky with gen := b.gen, newest := area } }).setF R.KEY_STORE_AREA area).setB
    R.KEY_STORE_PENDING b.pending).setF R.KEY_STORE_GEN b.gen

/-- A flash operation of a key-store write has succeeded: what the area holds then, and the write that is left. -/
def State.keyWriteStep (s : State) (w : KeyWrite) : State × Option KeyWrite :=
  match w.blob with
  | none => (s.setKeyArea w.area {}, none)
  | some b =>
    if w.page = 0 then (s.setKeyArea w.area {}, some { w with page := 1, again := false })
    else if w.page < blobPages b then
      (s.setKeyArea w.area { magic := true }, some { w with page := w.page + 1, again := false })
    else ((s.setKeyArea w.area { magic := true, blob := some b }).blobDone w.area b, none)

/-! ### Operations -/

/-- A new key goes into its slot; a persistent one ends with the key store (R410). -/
def State.keyCreate (s : State) (r : KeyReq) (b : KeyBlk) (attr mat : Nat) : State :=
  let k := if b.slot = 0xFFFF then (match s.freeSlot with | some k => k | none => 8) else b.slot
  let s := (s.putSlot k ⟨attr, mat⟩).mirrorSlot k attr mat (keyOctets (attrType attr))
  s.keyStoreRun ⟨r, b.op, k, if attrPersist attr then s.storeWrites false else []⟩

/-- Key material drawn by the DRBG. -/
def State.drawKey (s : State) (t : Nat) : Nat := s.freeVal % 2 ^ (8 * keyOctets t)

/-- CBOR (RFC 8949): the head of a data item, an unsigned integer, an octet string. -/
def cborHead (major n : Nat) : List Byte :=
  if n < 24 then leBytes 1 (32 * major + n)
  else if n < 256 then leBytes 1 (32 * major + 24) ++ leBytes 1 n
  else if n < 65536 then leBytes 1 (32 * major + 25) ++ beBytes 2 n
  else if n < 2 ^ 32 then leBytes 1 (32 * major + 26) ++ beBytes 4 n
  else leBytes 1 (32 * major + 27) ++ beBytes 8 n
def cborUint (n : Nat) : List Byte := cborHead 0 n
def cborOctets (l : List Byte) : List Byte := cborHead 2 l.length ++ l

/-- A map with small unsigned keys. -/
def cborMap (l : List (Nat × List Byte)) : List Byte :=
  cborHead 5 l.length ++ l.flatMap (fun e => cborUint e.1 ++ e.2)

/-- The statement of an attestation (R414). -/
def State.statement (s : State) (slot : Nat) (k : KeySlot) (nonce : List Byte) : List Byte :=
  let t := attrType k.attr
  let pub := if 3 ≤ t then beBytes (publicOctets t) (Config.publicKey t k.mat) else beBytes 16 (checkValue k.mat)
  cborMap ([(1, cborOctets (beBytes 8 Config.eui64)), (2, cborUint 0x4820), (3, cborUint 0xB0), (4, cborUint slot),
    (5, cborUint k.attr), (6, cborOctets pub), (7, cborOctets nonce), (8, cborUint s.mtb)] ++
    (if s.isSet R.TIME_STATE_STEPPED then [(9, cborUint (s.devSec s.mtb))] else []) ++
    [(10, cborOctets (beBytes 32 s.pr.header.structDigest)), (11, cborUint s.ownerState),
     (12, cborUint (s.getF R.TAMPER_COUNT_COUNT))])

/-- An ML-DSA signature of 64 rejected candidates ends the command (R415). -/
def State.signFail (s : State) (r : KeyReq) : State := (s.raise R.KEY_EVENT_SIGN_FAIL).keyEnd r ST.KEY_SIGN_FAIL 0 []

/-- An output whose length is known only now: too small a capacity is out of range (R409). -/
def State.keyOutCap (s : State) (r : KeyReq) (b : KeyBlk) (o : List Byte) : State :=
  if b.outCap < o.length || !bufOk b.out o.length then s.keyRefused r ST.KEY_RANGE else s.keyOut r b o

/-- COMMISSION (R425): a new owner root, slots 1 and 2, both areas erased, an empty blob with GEN 1 in area 0. The record
numbers of the audit log start anew (Table 19.5). -/
def State.commission (s : State) (r : KeyReq) : State :=
  let root := s.freeVal % 2 ^ 256
  let s := s.drbgUse
  let s := ({ s with ky := { s.ky with root := root }, ro := { s.ro with seq := 0, prev := 0, firstSeq := 1 } }).ownerSlots
  let s := (s.setF R.TAMPER_STATE_OWNER 1).setF R.TAMPER_STATE_VBAT_LOST 0
  s.keyStoreRun ⟨r, 14, 0, [⟨0, none, 0, false⟩, ⟨1, none, 0, false⟩, ⟨0, some ⟨1, false, []⟩, 1, false⟩]⟩

/-- The units of Table 03.4 that a key command works on (Table 18.8): the SHA-3/KMAC engine for DERIVE, KMAC and the check value of a
symmetric key; the lattice engine for ATTEST, SIGN, DECAPS, PUBLIC and VERIFY. -/
def State.keyUnits (s : State) (b : KeyBlk) : List Nat :=
  let symmetric := match s.keySlot b.slot with | some k => attrType k.attr < 3 | none => false
  if b.op = 2 || b.op = 9 then [gateSha3]
  else if b.op = 7 && symmetric then [gateSha3, gateLattice]
  else if b.op = 7 || b.op = 8 || b.op = 12 || b.op = 13 || b.op = 16 then [gateLattice]
  else []

/-- A key command finds no engine: its unit is gated or about to be, or, for wraps and DRBG output, each CCM* engine is (R71,
R73). -/
def State.engineOff (s : State) (b : KeyBlk) : Bool :=
  let ccm := b.op = 1 || b.op = 3 || b.op = 4 || b.op = 10 || b.op = 11 || b.op = 14
  (s.keyUnits b).any s.gatedOrPending || (ccm && [0, 1, 2, 3].all s.gatedOrPending)

/-- The engine takes the command at the head of its queue when it names operation `op` (or no operation at all) and the
engine is free and not gated (R71): the checks, the audit record of a change, the operation (R408, R409, R433). -/
def State.keyRun (s : State) (op : Nat) (f : State → KeyReq → KeyBlk → State) : State :=
  match s.ky.fifo with
  | [] => s
  | r :: rest =>
    let b := s.reqBlk r
    if s.ky.job.isSome || !s.ky.bootJob.isEmpty || !s.rootRuns || !(b.op = op || b.op = 0 || 16 < b.op) || s.engineOff b then s
    else
      let s := { s with ky := { s.ky with fifo := rest } }
      let d : AuditData := ⟨3, b.role, 0, s.reqCred r, 18 * 2 ^ 24 + b.op * 2 ^ 16 + b.slot,
        (match s.keySlot b.slot with | some k => k.attr | none => 0), b.attr⟩
      match s.keyCheck b.op b with
      | some st =>
        (if keyAudited b.op then s.auditNote { d with status := st } else s).keyRefused r st
      | none => if keyAudited op then s.audited d (fun s => s.keyRefused r ST.ROLE_AUDIT_BUSY) (fun s => f s r b) else f s r b

/-- A write of KEY_CMD (R408); a job for a gated engine is refused (R73). -/
def State.keyCmd (s : State) (a : Nat) : State :=
  let off := if a % 16 ≠ 0 || !inFirmwareArea a || !inFirmwareArea (a + 47) then []
    else (s.keyUnits (s.keyBlkAt a)).filter s.gatedOrPending
  if a % 16 ≠ 0 || !inFirmwareArea a || !inFirmwareArea (a + 47) then s.refuse R.KEY_CMD_ERR_STATUS ST.KEY_RANGE
  else match off with
    | u :: _ => s.gatedRefuse u R.KEY_CMD_ERR_STATUS
    | [] =>
      if 16 ≤ s.ky.fifo.length then s.refuse R.KEY_CMD_ERR_STATUS ST.KEY_CMD_FULL
      else ({ s with ky := { s.ky with fifo := s.ky.fifo ++ [KeyReq.blk a] } }).answer ST.OK

/-- KEY_CMD_WRITE: firmware writes the address of a command block to KEY_CMD (R408). -/
def execKeyCmdWrite (addr : Word) (s : State) : Res :=
  .next (s.recorded ⟨0, 0⟩ R.KEY_CMD addr.toNat R.KEY_CMD_ERR_STATUS (fun s => s.keyCmd addr.toNat))

/-- KEY_GENERATE: a new key of ATTR from the DRBG. -/
def execKeyGenerate (s : State) : Res :=
  .next (s.keyRun 1 (fun s r b =>
    s.drbgUse.keyCreate r b (attrWord 1 b.attr) (s.drawKey (attrType b.attr))))

/-- KEY_DERIVE: KMAC256 of SLOT2 or of the owner root (R413). -/
def execKeyDerive (s : State) : Res :=
  .next (s.keyRun 2 (fun s r b =>
    let t := attrType b.attr
    let mat := if b.slot2 = 0xFFFF then derived s.ky.root (ascii "work" ++ nats b.input) t
      else match s.keySlot b.slot2 with
        | some k => derived k.mat (nats b.input) t
        | none => 0
    s.keyCreate r b (attrWord 0 b.attr) mat))

/-- KEY_IMPORT: RFC 3394 unwrap of IN under SLOT2. -/
def execKeyImport (s : State) : Res :=
  .next (s.keyRun 3 (fun s r b =>
    match s.keySlot b.slot2 with
    | none => s
    | some k => match Config.unwrap k.mat b.input.length (beNat b.input) with
      | none => s.keyEnd r ST.KEY_UNWRAP 0 []
      | some m => s.keyCreate r b (attrWord 2 b.attr) m))

/-- KEY_EXPORT: RFC 3394 wrap of the key of SLOT under SLOT2. -/
def execKeyExport (s : State) : Res :=
  .next (s.keyRun 4 (fun s r b =>
    match s.keySlot b.slot, s.keySlot b.slot2 with
    | some k, some w =>
      let n := keyOctets (attrType k.attr)
      s.keyOut r b (beBytes (n + 8) (Config.wrap w.mat n k.mat))
    | _, _ => s))

/-- The bits RESTRICT may clear: USAGE, EXPORT, ROLES (R407). -/
def restrictMask : Nat := 0xFFB800

/-- KEY_RESTRICT: ATTR AND-ed into USAGE, EXPORT and ROLES (R407). -/
def execKeyRestrict (s : State) : Res :=
  .next (s.keyRun 5 (fun s r b =>
    match s.keySlot b.slot with
    | none => s
    | some k =>
      let a := (k.attr - (k.attr &&& restrictMask)) + (k.attr &&& restrictMask &&& b.attr)
      let s := s.putSlot b.slot { k with attr := a }
      let s := if attrExport k.attr then s.mirrorSlot b.slot (a ||| 2 ^ 15) k.mat (keyOctets (attrType a)) else s
      s.keyStoreRun ⟨r, 5, 0, if attrPersist a then s.storeWrites false else []⟩))

/-- KEY_DESTROY: the slot is zeroed; a persistent one leaves both areas (R411, R418). -/
def execKeyDestroy (s : State) : Res :=
  .next (s.keyRun 6 (fun s r b =>
    match s.keySlot b.slot with
    | none => s
    | some k =>
      let s := (s.delSlot b.slot).mirrorDestroy b.slot k.attr
      s.keyStoreRun ⟨r, 6, 0, if attrPersist k.attr then s.storeWrites true else []⟩))

/-- KEY_ATTEST: the statement of R414 for SLOT, signed under slot 0. -/
def execKeyAttest (signFails : Bool) (s : State) : Res :=
  .next (s.keyRun 7 (fun s r b =>
    match s.keySlot b.slot with
    | none => s
    | some k =>
      if signFails then s.signFail r
      else
        let st := s.statement b.slot k b.input
        let sig := Config.sign 3 identitySeed (ascii "SVC4820 attest") (nats st) s.freeVal
        s.useFree.keyOutCap r b (cborHead 4 2 ++ st ++ cborOctets (beBytes 2420 sig))))

/-- KEY_SIGN: an ML-DSA signature; the context string leads IN. -/
def execKeySign (signFails : Bool) (s : State) : Res :=
  .next (s.keyRun 8 (fun s r b =>
    match s.keySlot b.slot with
    | none => s
    | some k =>
      if signFails then s.signFail r
      else
        let n := (b.input.getD 0 0).toNat
        let t := attrType k.attr
        let sig := Config.sign t k.mat (nats ((b.input.drop 1).take n)) (nats (b.input.drop (1 + n))) s.freeVal
        s.useFree.keyOut r b (beBytes (signOctets t) sig)))

/-- KEY_KMAC: a tag of OUT_CAP octets over IN = [length of S, S, X]. -/
def execKeyKmac (s : State) : Res :=
  .next (s.keyRun 9 (fun s r b =>
    match s.keySlot b.slot with
    | none => s
    | some k =>
      let n := (b.input.getD 0 0).toNat
      let tag := Config.kmac k.mat (nats (b.input.drop (1 + n))) (8 * b.outCap) (nats ((b.input.drop 1).take n))
      s.keyOut r b (beBytes b.outCap tag)))

/-- KEY_WRAP_DATA: RFC 3394 wrap of IN. -/
def execKeyWrapData (s : State) : Res :=
  .next (s.keyRun 10 (fun s r b =>
    match s.keySlot b.slot with
    | none => s
    | some k =>
      s.keyOut r b (beBytes (b.input.length + 8) (Config.wrap k.mat b.input.length (beNat b.input)))))

/-- KEY_RANDOM: OUT_CAP octets from the DRBG. -/
def execKeyRandom (s : State) : Res :=
  .next (s.keyRun 11 (fun s r b => s.drbgUse.keyOut r b (beBytes b.outCap s.freeVal)))

/-- KEY_DECAPS: ML-KEM-768 decapsulation under SLOT2's seed, into a new volatile slot of type 2 with DERIVE and KMAC. -/
def execKeyDecaps (s : State) : Res :=
  .next (s.keyRun 12 (fun s r b =>
    match s.keySlot b.slot2 with
    | none => s
    | some k =>
      let a := attrWord 4 (2 * 2 ^ 24 + 0x28 * 2 ^ 16 + attrRoles b.attr * 2 ^ 11)
      s.keyCreate r b a (Config.decaps k.mat (beNat b.input))))

/-- KEY_PUBLIC: the public key of a slot of type 3 to 5. -/
def execKeyPublic (s : State) : Res :=
  .next (s.keyRun 13 (fun s r b =>
    match s.keySlot b.slot with
    | none => s
    | some k =>
      let t := attrType k.attr
      s.keyOut r b (beBytes (publicOctets t) (Config.publicKey t k.mat))))

/-- KEY_COMMISSION: R425. -/
def execKeyCommission (s : State) : Res := .next (s.keyRun 14 (fun s r _ => s.commission r))

/-- KEY_CERT: the device certificate (R401). -/
def execKeyCert (s : State) : Res :=
  .next (s.keyRun 15 (fun s r b => s.keyOut r b (Config.certificate.map (BitVec.ofNat 8))))

/-- KEY_VERIFY: IN = [algorithm, public key, signature, context length, context, message]. -/
def execKeyVerify (s : State) : Res :=
  .next (s.keyRun 16 (fun s r b =>
    let t := if b.input.getD 0 0 = 0x44 then 3 else 4
    let p := publicOctets t
    let g := signOctets t
    let rest := b.input.drop (1 + p + g)
    let n := (rest.getD 0 0).toNat
    let good := Config.verifies t (beNat ((b.input.drop 1).take p)) (nats ((rest.drop 1).take n)) (nats (rest.drop (1 + n)))
      (beNat ((b.input.drop (1 + p)).take g))
    s.keyEnd r (if good then ST.OK else ST.KEY_SIG_BAD) 0 []))

/-- ENTROPY_HEALTH_FAIL: the DRBG is uninstantiated (R416). -/
def execEntropyHealthFail (s : State) : Res :=
  let s := ((s.setF R.KEY_CMD_ERR_STATUS ST.KEY_ENTROPY_FAIL).raise R.KEY_EVENT_ENTROPY_FAIL)
  .next ((s.setF R.KEY_STATE_DRBG_OK 0).setF R.KEY_DRBG_HEALTH_OK 0)

/-! ### BOOT (R401, R403, R417, R419) -/

/-- A blob of the two areas that authenticates, the higher GEN first: its area. -/
def State.newestBlob (s : State) : Option (Nat × KeyBlob) :=
  match s.ky.area0.blob, s.ky.area1.blob with
  | some a, some b => if a.gen < b.gen then some (1, b) else some (0, a)
  | some a, none => some (0, a)
  | none, some b => some (1, b)
  | none, none => none

/-- The decision of Table 18.1: 0 continue, 1 uncommissioned, 2 TAMPER_ERASED, 3 released. -/
def State.ownerDecision (s : State) : Nat :=
  if s.ownerState = 1 then 0
  else if s.ownerState = 0 then (if s.ky.area0.magic || s.ky.area1.magic then 2 else 1)
  else if s.ownerState = 2 then 2 else 3

/-- The key engine in BOOT: the identity key, the owner's slots, the persistent slots, the DRBG; a blob with
DESTROY_PENDING is followed by the next GEN without it (R419). -/
def State.keyBoot (s : State) : State :=
  let s := s.putSlot 0 ⟨attrIdentity, identitySeed⟩
  let s := ((s.setF R.KEY_STATE_DRBG_OK 1).setF R.KEY_DRBG_HEALTH_OK 1).setF R.KEY_DRBG_REQS 0
  if s.ownerState ≠ 1 then s
  else
    let s := s.ownerSlots
    match s.newestBlob with
    | none => (s.setF R.KEY_CMD_ERR_STATUS ST.KEY_STORE_LOST).raise R.KEY_EVENT_STORE_LOST
    | some (area, b) =>
      let s := ((s.each b.records (fun s r => s.putSlot r.1 ⟨r.2.1, r.2.2⟩)).setF R.KEY_STATE_STORE_OK 1).blobDone area b
      if b.pending then
        let w := s.newBlob false (b.gen + 1) (1 - area)
        ({ s with ky := { s.ky with bootJob := [w] } }).nandSubmit (s.keyNand w)
      else s

end Sys2Proof.Machine
end

