-- ==== Sys2Proof/Machine/Tunnel.lean ====
section
/-!
DEFINITION. The service port's tunnel (R118): a CMP request that came through it is consumed, and its responses wait there.
-/
namespace Sys2Proof.Machine

/-- The device runs its firmware, and CMP with it (R431: sessions open in every state in which it does). -/
def State.firmwareUp (s : State) : Bool := s.inService || s.erasedLike

/-- What CMP sends to a host. -/
def Msg.ofCmp (m : Msg) : Bool :=
  match m with
  | .sessionStep2 _ _ _ => true
  | .sessionOpen _ => true
  | .cmpReply _ _ _ _ _ => true
  | .cmpResult _ _ _ => true
  | .cmpCode _ => true
  | .notify _ _ _ _ => true
  | _ => false

/-- The messages that a change of state has sent since `s`, the newest first. -/
def State.sentSince (u s : State) : List Msg := u.out.take (u.out.length - s.out.length)

/-- A message waits in the outbound tunnel; the oldest of four is dropped for it (R118). -/
def State.tunnelPut (s : State) (m : Msg) : State :=
  let full := decide (4 ≤ s.svc.outbound.length)
  let l := if full then s.svc.outbound.drop 1 else s.svc.outbound
  ({ s with svc := { s.svc with outbound := l ++ [m] } }).raiseIf full R.SVC_EVENT_TUNNEL_DROP

/-- A request that came through the tunnel: its message is consumed, what CMP sends in response goes out the same way; with
no message there nothing happens. Any other request is `f` alone. -/
def State.viaTunnel (s : State) (tunnel : Bool) (f : State → State) : State :=
  if !tunnel then f s
  else if s.svc.inbound.isNone then s
  else
    let s : State := { s with svc := { s.svc with inbound := none } }
    let u := f s
    let new := u.sentSince s
    let u : State := { u with out := new.filter (fun m => !m.ofCmp) ++ s.out }
    u.each (new.filter Msg.ofCmp).reverse State.tunnelPut

/-- The CoAP codes of executed requests (R120): 2.05 for a GET, 2.04 for a POST or DELETE (DEDUCED, RFC 7252;
notes/assumptions/43.md). -/
def coapContent : Nat := 205
def coapChanged : Nat := 204

/-- A CMP response to a POST or DELETE that carries its status word alone (R120), and to a GET. -/
def State.cmpAnswer (s : State) (st : Nat) : State := (s.answer st).emit (.cmpReply coapChanged st [] 0 0)
def State.cmpTell (s : State) (st : Nat) : State := (s.answer st).emit (.cmpReply coapContent st [] 0 0)

/-- A session's record changed. -/
def State.setSession (s : State) (n : Nat) (v : Session) : State :=
  { s with ro := { s.ro with sessions := Store.put n v s.ro.sessions } }

/-- The CoAP exchange lifetime, 247 s (PRESUMED, RFC 7252; notes/assumptions/43.md). -/
def exchangeLife : Nat := 247 * secCyc

/-- A request is executed once (R119): one that its sender repeats under its message number within the exchange lifetime gets
the response it got; any other is executed, and its response kept. A replayed one that nothing answers any more gets 4.01. -/
def State.cmpOnce (s : State) (sender mid : Nat) (form : ReqForm) (f : State → State) : State :=
  let live := s.cmp.answered.filter (fun a => decide (s.mtb < a.at_ + exchangeLife))
  match live.find? (fun a => a.session == sender && a.mid == mid) with
  | some a => { s with out := a.reply ++ s.out }
  | none =>
    if form = .replayed then s.emit (.cmpCode 401)
    else
      let u := if form = .badPath then s.emit (.cmpCode 404) else if form = .badCbor then s.cmpAnswer ST.CMP_BAD_REQUEST else f s
      let reply := (u.sentSince s).filter Msg.ofCmp
      { u with cmp := { u.cmp with answered := live ++ [⟨sender, mid, s.mtb, reply⟩] } }

/-- A CMP request of a session (R119): where OSCORE processing fails nothing is executed, and the response is what RFC 8613
prescribes, 4.01 for an unprotected or replayed request or an unknown context, 4.00 where decryption fails (DEDUCED). -/
def State.cmpRequest (s : State) (n mid : Nat) (tunnel : Bool) (form : ReqForm) (t : Nat) (f : Session → State → State) : State :=
  if !s.firmwareUp then s
  else (s.advance t).viaTunnel tunnel (fun s =>
    match Store.find? n s.ro.sessions with
    | none => s.emit (.cmpCode 401)
    | some v =>
      if form = .unprotected then s.emit (.cmpCode 401)
      else if form = .noDecrypt then s.emit (.cmpCode 400)
      else
        let v : Session := { v with lastReq := s.mtb }
        (s.setSession n v).cmpOnce n mid form (f v))

/-- A request to /cmp/session, which no session protects (R119). -/
def State.cmpOpen (s : State) (sender mid : Nat) (tunnel : Bool) (form : ReqForm) (t : Nat) (f : State → State) : State :=
  if !s.firmwareUp then s else (s.advance t).viaTunnel tunnel (fun s => s.cmpOnce sender mid form f)

end Sys2Proof.Machine
end

