-- ==== Sys2Proof/Machine/Roles.lean ====
section
/-!
DEFINITION. The role store and the sessions (19_roles_and_audit.md). Release for return and sampler mode stand in
Release.lean, the audit log in Audit.lean.
-/
namespace Sys2Proof.Machine

/-- A session ends (R432): its slot is zeroed. -/
def State.sessionEnd (s : State) (n : Nat) : State :=
  match Store.find? n s.ro.sessions with
  | none => s
  | some v =>
    let s := s.auditNote ⟨4, v.role, 0, lead4 v.digest, 20 * 2 ^ 24 + n, 0, 0⟩
    ({ s with ro := { s.ro with sessions := Store.del n s.ro.sessions },
               cmp := { s.cmp with answered := s.cmp.answered.filter (fun a => a.session != n) } }).delSlot n

/-- The credential record with a digest. -/
def State.credOf (s : State) (digest : Nat) : Option Cred := s.ro.creds.find? (fun c => c.digest == digest)

/-- The role store is written into the settings generation in force after every change (R429). -/
def State.storeRoles (s : State) : State := { s with ro := { s.ro with stored := some s.ro.creds } }

/-- The enrolled records. -/
def State.enrolled (s : State) : List Cred := s.ro.creds.filter (fun c => !c.pricking)

/-- The digest of the transcript of keys 2, 1, 4, 3 (and 6), R431. -/
def transcript (h : Handshake) (ek : Nat) (ct : List Nat) : List Nat :=
  octs 16 h.nonce ++ octs 32 h.digest ++ octs 16 h.ownNonce ++ octs 1184 ek ++ ct

/-- A failed session set-up is recorded with its status (R433). -/
def State.setupFail (s : State) (digest st : Nat) : State := s.auditNote ⟨4, 0, st, lead4 digest, 20 * 2 ^ 24, 0, 0⟩

/-- Step 1 of a session set-up, answered with step 2 (R431, R432). -/
def State.sessionHello (s : State) (digest nonce : Nat) : State :=
  match s.credOf digest with
  | none => (s.setupFail digest ST.ROLE_UNKNOWN_CRED).cmpAnswer ST.ROLE_UNKNOWN_CRED
  | some _ =>
    if 4 ≤ s.ro.shakes.length then (s.setupFail digest ST.ROLE_HANDSHAKES_BUSY).cmpAnswer ST.ROLE_HANDSHAKES_BUSY
    else
      let secret := s.freeVal
      let s := s.drbgUse
      let own := s.freeVal % 2 ^ 128
      let s := s.drbgUse
      let h : Handshake := ⟨digest, nonce, own, secret, s.mtb⟩
      let ek := Config.publicKey 5 secret
      let sig := Config.sign 3 identitySeed (ascii "SVC4820 session") [Config.sha3 (transcript h ek [])] s.freeVal
      (({ s.useFree with ro := { s.ro with shakes := s.ro.shakes ++ [h] } }).emit (.sessionStep2 ek own sig)).answer ST.OK

/-- SESSION_HELLO. -/
def execSessionHello (digest : BitVec 256) (nonce : BitVec 128) (mid : Fin 65536) (tunnel : Bool) (form : ReqForm) (t : Nat)
    (s : State) : Res :=
  .next (s.cmpOpen (16 + digest.toNat) mid tunnel form t (fun s => s.sessionHello digest.toNat nonce.toNat))

/-- A handshake fails (R431): no slot is taken. -/
def State.shakeFail (s : State) (h : Handshake) : State :=
  let s := s.setupFail h.digest ST.ROLE_HANDSHAKE
  (({ s with ro := { s.ro with shakes := s.ro.shakes.erase h } }).raise R.ROLE_EVENT_SESSION_FAIL).answer ST.ROLE_HANDSHAKE

/-- Step 3 of a session set-up: signature, decapsulation into the lowest free slot of 3 to 7, session open (R431, R432). -/
def State.sessionFinish (s : State) (digest : Nat) (ciphertext : List Byte) (signature : Nat) : State :=
  match s.ro.shakes.find? (fun h => h.digest == digest), s.credOf digest with
  | some h, some c =>
    let ek := Config.publicKey 5 h.secret
    let digestT := Config.sha3 (transcript h ek (nats ciphertext))
    let good := Config.verifies 3 c.pubKey (ascii "SVC4820 session") [digestT] signature
    if !good || h.sentAt + 10 * secCyc < s.mtb then (s.shakeFail h).cmpAnswer ST.ROLE_HANDSHAKE
    else match s.freeSession with
      | none => (s.setupFail digest ST.ROLE_SESSIONS_FULL).cmpAnswer ST.ROLE_SESSIONS_FULL
      | some n =>
        s.audited ⟨4, c.role, 0, lead4 c.digest, 20 * 2 ^ 24 + n, 0, 0⟩ (fun s => s.cmpAnswer ST.ROLE_AUDIT_BUSY)
          (fun s =>
            let shared := Config.decaps h.secret (beNat ciphertext)
            let s := s.putSlot n ⟨attrWord 4 (2 * 2 ^ 24 + 0x08 * 2 ^ 16), shared⟩
            let s := { s with ro := { s.ro with
              shakes := s.ro.shakes.erase h,
              sessions := Store.put n {
                role := c.role, digest := c.digest, lastReq := s.mtb,
                master := Config.kmac shared (ascii "oscore" ++ octs 32 digestT) 128 (ascii "SVC4820 derive") } s.ro.sessions } }
            ((s.raise R.ROLE_EVENT_SESSION_OPEN).emit (.sessionOpen n)).answer ST.OK)
  | some h, none => (s.shakeFail h).cmpAnswer ST.ROLE_HANDSHAKE
  | none, _ => ((s.setupFail digest ST.ROLE_HANDSHAKE).raise R.ROLE_EVENT_SESSION_FAIL).cmpAnswer ST.ROLE_HANDSHAKE

/-- SESSION_FINISH. -/
def execSessionFinish (digest : BitVec 256) (ciphertext : List Byte) (signature : Nat) (mid : Fin 65536) (tunnel : Bool)
    (form : ReqForm) (t : Nat) (s : State) : Res :=
  .next (s.cmpOpen (16 + digest.toNat) mid tunnel form t (fun s => s.sessionFinish digest.toNat ciphertext signature))

/-- SESSION_DELETE: DELETE of /cmp/session ends a session (R432). -/
def execSessionDelete (number : Fin 8) (mid : Fin 65536) (tunnel : Bool) (form : ReqForm) (t : Nat) (s : State) : Res :=
  .next (s.cmpOpen (8 + number) mid tunnel form t (fun s => (s.sessionEnd number).cmpAnswer ST.OK))

/-- SESSION_IDLE_EXPIRY: IDLE_S seconds without a request (R432). -/
def execSessionIdleExpiry (number : Fin 8) (t : Nat) (s : State) : Res :=
  let s := s.advance t
  match Store.find? number.val s.ro.sessions with
  | none => .next s
  | some v =>
    if v.lastReq + s.getF R.ROLE_CFG_IDLE_S * secCyc ≤ s.mtb then .next (s.sessionEnd number) else .next s

/-- HANDSHAKE_TIMEOUT: step 3 has not arrived within 10 s (R431). -/
def execHandshakeTimeout (t : Nat) (s : State) : Res :=
  let s := s.advance t
  match s.ro.shakes.find? (fun h => h.sentAt + 10 * secCyc ≤ s.mtb) with
  | none => .next s
  | some h => .next (s.shakeFail h)

/-- ROLE_ENROL: role operation 2 enrols a public key under a role (R428, R429, R430). -/
def execRoleEnrol (ticket : Nat) (role : Fin 4) (pubKey : Nat) (s : State) : Res :=
  match s.openCall ticket svcRole 2 with
  | none => .next s
  | some tk =>
    let digest := Config.sha3 (octs 1312 pubKey)
    match firstFail [
        (!(tk.role = 2 || (tk.role = 3 && role.val = 3)), ST.ROLE_RIGHTS),
        (role.val = 0, ST.ROLE_RANGE),
        ((s.credOf digest).isSome, ST.ROLE_EXISTS),
        (16 ≤ s.enrolled.length, ST.ROLE_STORE_FULL)] with
    | some st => .next ((s.auditNote ⟨5, tk.role, st, tk.cred, 20 * 2 ^ 24 + 2 * 2 ^ 16, role, lead8 digest⟩).finishCall
        ticket st [])
    | none =>
      .next (s.recordedCall 5 ticket tk.role 2 role (lead8 digest) (fun s =>
        let s := { s with ro := { s.ro with creds := s.ro.creds ++ [Cred.mk role digest pubKey false] } }
        (s.storeRoles.raise R.ROLE_EVENT_CRED_CHANGE).finishCall ticket ST.OK []))

/-- ROLE_REVOKE: role operation 3 revokes a credential and ends its sessions (R428, R430). -/
def execRoleRevoke (ticket : Nat) (digest : BitVec 256) (s : State) : Res :=
  match s.openCall ticket svcRole 3 with
  | none => .next s
  | some tk =>
    let d := digest.toNat
    let c := s.credOf d
    let is := fun (p : Cred → Bool) => match c with | some v => p v | none => false
    match firstFail [
        (!(tk.role = 2 || (tk.role = 3 && (c.isNone || is (fun v => v.role == 3)))), ST.ROLE_RIGHTS),
        (c.isNone, ST.ROLE_RANGE),
        (is (fun v => v.pricking), ST.ROLE_PRICKING_CRED),
        (is (fun v => v.role == 2) && (s.ro.creds.filter (fun v => v.role == 2)).length ≤ 1, ST.ROLE_LAST_INSTALLER)] with
    | some st => .next ((s.auditNote ⟨5, tk.role, st, tk.cred, 20 * 2 ^ 24 + 3 * 2 ^ 16, lead8 d, 0⟩).finishCall ticket st [])
    | none =>
      .next (s.recordedCall 5 ticket tk.role 3 (lead8 d) 0 (fun s =>
        let s := { s with ro := { s.ro with creds := s.ro.creds.filter (fun v => v.digest != d) } }
        let s := s.each ((s.ro.sessions.filter (fun x => x.2.digest == d)).map (·.1)) State.sessionEnd
        (s.storeRoles.raise R.ROLE_EVENT_CRED_CHANGE).finishCall ticket ST.OK []))

/-- Step 6 of R40: the ROLE section replaces every pricking record; enrolled records are kept (R429). -/
def State.rolesLoad (s : State) : State :=
  let new := s.pr.roles.map (fun r => (⟨r.role, r.digest, r.key, true⟩ : Cred))
  ({ s with ro := { s.ro with creds := new ++ s.enrolled } }).storeRoles

/-- BOOT loads the role store (R429); `ok`: its signature verifies. -/
def State.rolesBoot (s : State) (ok : Bool) : State :=
  match s.ro.stored with
  | some l => if ok then ({ s with ro := { s.ro with creds := l } }).setF R.ROLE_STATE_STORE_OK 1
      else ({ s with ro := { s.ro with creds := [] } }).raise R.ROLE_EVENT_STORE_LOST
  | none => ({ s with ro := { s.ro with creds := [] } }).raise R.ROLE_EVENT_STORE_LOST

end Sys2Proof.Machine
end

