-- ==== Sys2Proof/Machine/Phy.lean ====
section
/-!
DEFINITION. PHY modes (Table 08.1, R173 to R175, R198) and durations on air (R185, R198, R216). Durations that the spec
takes from IEEE 802.15.4-2020 (the coded SUN FSK body, the SUN OFDM symbols) are PRESUMED (notes/assumptions/24.md).
-/
namespace Sys2Proof.Machine

/-- Family, and the fields of a code. -/
def phyFamily (c : Nat) : Nat := c / 4096
def fskRate (c : Nat) : Nat := c / 512 % 8
def fskFec (c : Nat) : Nat := c / 64 % 4
def ofdmOpt (c : Nat) : Nat := c / 1024 % 4
def ofdmMcs (c : Nat) : Nat := c % 128

/-- The MCS bits that an OFDM option admits. -/
def ofdmMcsMask (o : Nat) : Nat := if o = 0 then 0x0F else if o = 1 then 0x3F else if o = 2 then 0x7E else 0x7C

/-- A legal PHY_MODE code (R173). -/
def phyLegal (c : Nat) : Bool :=
  if phyFamily c = 1 then fskRate c < 5 && c % 32 = 0
  else if phyFamily c = 2 then
    c / 128 % 4 = 0 && ofdmMcs c ≠ 0 && ofdmMcs c &&& ofdmMcsMask (ofdmOpt c) = ofdmMcs c
  else c = 0x3000

/-- The family is permitted in a band (Table 08.2). -/
def phyBand (c band : Nat) : Bool :=
  if phyFamily c = 1 then band < 2 else if phyFamily c = 2 then band < 3 else band = 2

/-- The code names exactly one mode (R198). -/
def phyOne (c : Nat) : Bool := phyLegal c && (phyFamily c ≠ 2 || popCount 7 (ofdmMcs c) = 1)

/-- The one MCS of a narrowed OFDM code. -/
def ofdmOne (c : Nat) : Nat :=
  match (List.range 7).find? (fun k => bitOf (ofdmMcs c) k) with
  | some k => k
  | none => 0

/-- Bit rate of a SUN FSK mode, kb/s. -/
def fskKbps (c : Nat) : Nat := [50, 100, 150, 200, 400].getD (fskRate c) 50

/-- Occupied bandwidth in kHz (R174). -/
def occKhz (c : Nat) : Nat :=
  if phyFamily c = 1 then
    let h2 := if bitOf c 8 then 2 else 1
    if fskRate c = 4 then 200 * (4 + h2 * 3) / 2 else fskKbps c * (4 + h2) / 2
  else if phyFamily c = 2 then [1094, 552, 281, 156].getD (ofdmOpt c) 0
  else 2000

/-- The digital channel offset nearest to an offset in kHz, an exact half up, in steps of the ADC sample rate over 2^24 (R168). -/
def chanSteps (n : Nat) (khz : Int) : Int :=
  let num : Int := khz * 1000 * 2 ^ 25
  let den : Int := if n < 2 then 64453125 else 214843750
  (2 * num + den) / (2 * den)

/-- A symbol of a mode, as a fraction in cyc; PRESUMED for SUN OFDM (120 µs). -/
def symFrac (c : Nat) : Nat × Nat :=
  if phyFamily c = 1 then (165000000, (if fskRate c = 4 then 200 else fskKbps c) * 128)
  else if phyFamily c = 2 then (120000 * 165, 128)
  else (16000 * 165, 128)

/-- A channel, widened by an occupied bandwidth, lies inside a capture span (R38, R145). -/
def inSpan (r : TrxRec) (chan occ : Nat) : Bool :=
  decide (2 * r.centreKhz + occ ≤ 2 * chan + r.spanKhz) && decide (2 * chan + occ ≤ 2 * r.centreKhz + r.spanKhz)

/-- The largest PSDU (R175). -/
def maxPsdu (c : Nat) : Nat := if phyFamily c = 3 then 127 else 2047

/-! ### The OFDM equaliser (R189) -/

/-- Active subcarriers of an option, and how often an MCS carries each symbol (frequency-domain spreading, PRESUMED from the bits per
symbol of IEEE 802.15.4-2020). -/
def ofdmTaps (o : Nat) : Nat := [104, 52, 26, 14].getD o 14
def ofdmSpread (mcs : Nat) : Nat := if mcs = 0 then 4 else if mcs ≤ 2 then 2 else 1

/-- A subcarrier divided by its tap, under the weight of the squared tap magnitude: Y · conj H, with |H|². -/
def divideTap (y h : Int × Int) : (Int × Int) × Int :=
  ((y.1 * h.1 + y.2 * h.2, y.2 * h.1 - y.1 * h.2), h.1 * h.1 + h.2 * h.2)

/-- The sum of the weighted copies of a symbol, and of their weights. -/
def combineCopies (l : List ((Int × Int) × Int)) : (Int × Int) × Int :=
  l.foldl (fun a x => ((a.1.1 + x.1.1, a.1.2 + x.1.2), a.2 + x.2)) ((0, 0), 0)

/-- The soft bits of OFDM symbol `i`: division by the taps, the common phase and slope of the pilots taken off every subcarrier, the
copies combined (PRESUMED: in equal blocks of the data subcarriers), soft bits under the same weights. -/
def symbolBits (code info i : Nat) (taps y : List (Int × Int)) : List Int :=
  let o := ofdmOpt code
  let mcs := info % 16
  let all := ((y.zip taps).map (fun p => divideTap p.1 p.2)).zip (List.range (ofdmTaps o))
  let fit := Config.pilotFit o ((all.filter (fun x => Config.isPilot o i x.2)).map (fun x => x.1.1))
  let data := (all.filter (fun x => !Config.isPilot o i x.2)).map (fun x =>
    (Config.derotate (fit.1 + fit.2 * x.2) x.1.1, x.1.2))
  let s := ofdmSpread mcs
  let n := data.length / s
  (List.range n).flatMap (fun m =>
    let x := combineCopies ((List.range s).map (fun j => data.getD (m + j * n) ((0, 0), 0)))
    Config.softBits code mcs x.1 x.2)

/-- The PSDU of an OFDM reception from its symbols. -/
def ofdmPsdu (code info len : Nat) (taps : List (Int × Int)) (symbols : List (List (Int × Int))) : List Nat :=
  Config.ofdmDecode code info len
    ((symbols.zip (List.range symbols.length)).flatMap (fun x => symbolBits code info x.2 taps x.1))

/-! ### Durations -/

/-- A number of bits at a rate in kb/s, in cyc, rounded once (R6). -/
def bitsCyc (bits kbps : Nat) : Nat := divRound (bits * 1000000 * 165) (kbps * 128)

/-- 10 symbols of a mode in cyc, the unit of the CSL Phase, the CSL Period and the Rendezvous Time (R247). -/
def phaseUnit (c : Nat) : Nat :=
  if phyFamily c = 1 then bitsCyc 10 (if fskRate c = 4 then 200 else fskKbps c)
  else if phyFamily c = 2 then usToCyc 1200 else usToCyc 160

/-- Data bits per OFDM symbol. -/
def ofdmBits (o mcs : Nat) : Nat :=
  ([[12, 24, 48, 96], [6, 12, 24, 48, 72, 96], [0, 6, 12, 24, 36, 48, 72], [0, 0, 6, 12, 18, 24, 36]].getD o []).getD mcs 6

/-- PHR symbols of an OFDM option. -/
def ofdmPhr (o : Nat) : Nat := if o = 0 then 3 else 6

/-- Bits of PHR and PSDU of a SUN FSK frame; `code` is its FEC. -/
def fskBody (code octets : Nat) : Nat :=
  let raw := 16 + 8 * octets
  if code = 0 then raw
  else 2 * (raw + 3 + (if code = 3 then (if octets % 2 = 0 then 13 else 5) else 0))

/-- The SHR that the device sends, in cyc (R198). -/
def shrCyc (c : Nat) : Nat :=
  if phyFamily c = 1 then bitsCyc 80 (fskKbps c) else if phyFamily c = 2 then usToCyc 720 else usToCyc 160

/-- Airtime of a frame with a PSDU of `octets`, FCS included, from its departure to the end of its last symbol. -/
def airCyc (c octets : Nat) : Nat :=
  if phyFamily c = 1 then bitsCyc (80 + fskBody (fskFec c) octets) (fskKbps c)
  else if phyFamily c = 2 then
    usToCyc (120 * (6 + ofdmPhr (ofdmOpt c) + divUp (16 + 8 * octets + 6) (ofdmBits (ofdmOpt c) (ofdmOne c))))
  else usToCyc (32 * (6 + octets))

/-- From the reference point of a reception to the end of its last symbol; `info` is PHR_INFO (Table 08.5). -/
def bodyCyc (c octets info : Nat) : Nat :=
  if phyFamily c = 1 then
    bitsCyc (fskBody (if bitOf info 4 then (if bitOf info 5 then 3 else 1) else 0) octets) (fskKbps c)
  else if phyFamily c = 2 then
    usToCyc (120 * (ofdmPhr (ofdmOpt c) + divUp (16 + 8 * octets + 6) (ofdmBits (ofdmOpt c) (info % 16))))
  else usToCyc (32 * (1 + octets))

/-- A chip in cyc (R212), and a wake-keying frame's airtime: P + 88 bits of two chips (R214, R216). -/
def chipCyc (rate : Nat) : Nat := (if rate = 0 then 10560 else 42240) * 4
def wakeCyc (rate preBits : Nat) : Nat := 2 * (preBits + 88) * chipCyc rate

/-- The CRC of a wake-keying frame (R215), one octet and over a list. -/
def crcBit (crc : Nat) : Nat → Nat
  | 0 => crc
  | k + 1 => crcBit (if 0x8000 ≤ crc then (crc * 2 % 65536) ^^^ 0x1021 else crc * 2) k

def wakeCrc (l : List Nat) : Nat := l.foldl (fun c b => crcBit (c ^^^ (b * 256)) 8) 0xFFFF

/-- The bits of a number, the most significant first. -/
def msbBits (n v : Nat) : List Bool := (List.range n).map (fun i => bitOf v (n - 1 - i))

/-- A wake-keying frame (Table 09.6) as bits. -/
def wakeBits (preBits ctrl addr param : Nat) : List Bool :=
  let octets := [ctrl] ++ (nats (beBytes 4 addr)) ++ (nats (beBytes 2 param))
  List.replicate preBits true ++ msbBits 16 0xB24E ++ msbBits 8 ctrl ++ msbBits 32 addr ++ msbBits 16 param ++
  msbBits 16 (wakeCrc octets)

/-- Its chips in Manchester code (R212): a 1 is on, off; a 0 is off, on. -/
def wakeChips (bits : List Bool) : List Bool := bits.flatMap (fun b => [b, !b])

/-- Turnaround of a PHY in a CSMA-CA PAN (R238), µs. -/
def turnUs (c : Nat) : Nat := if phyFamily c = 3 then 192 else 1000

/-- The back-off period of a PHY's unslotted CSMA-CA (R229) and its CCA, µs: 20 symbols and 8 symbols; PRESUMED. -/
def backoffUs (c : Nat) : Nat := if phyFamily c = 3 then 320 else 1160
def ccaUs (c : Nat) : Nat := if phyFamily c = 3 then 128 else 160

end Sys2Proof.Machine
end

