-- ==== Sys2Proof/Machine/RxOps.lean ====
section
/-!
DEFINITION. What a receive task leaves behind when it ends: its CCM* context (R412) and its counter commit (R235, R336).
-/
namespace Sys2Proof.Machine

/-- A CCM* context is free again (R412). -/
def State.ctxFree (s : State) (k : Nat) : State := { s with ky := { s.ky with ctxs := without k s.ky.ctxs } }

/-- One commit of a node's shadow entry is written. Once all are, the entry waits for the record reads of the node that had started
before and are not delivered yet (R235). -/
def State.shadowDone (s : State) (n : Nat) : State :=
  match Store.find? n s.mac.shadow with
  | none => s
  | some (c, k) =>
    let reads := (s.rd.rxs.filter (fun r => r.2.looked && r.2.node = n && !r.2.record)).map (·.1)
    { s with mac := { s.mac with
      shadow := Store.put n (c, k - 1) s.mac.shadow,
      shadowReads := if k = 1 then Store.put n reads s.mac.shadowReads else s.mac.shadowReads } }

/-- The counter commit: IN_CNT, CNT_STATE, LAST_LQI, LAST_RSSI and LAST_ASN in one chunk write, FRESH cleared; discarded
when a key change has come between (R336). -/
def State.commitCounter (s : State) (c : Commit) : State :=
  let s := s.shadowDone c.node
  if Store.get (fun _ => 0) s.gd.keyEpoch c.node = c.epoch then
    let d := leBytes 4 c.counter ++ leBytes 1 0 ++ leBytes 1 c.lqi ++ leBytes 2 c.rssi ++ leBytes 5 c.asn
    (s.writeBytes (s.recAddr c.node 40) d).journalAt (s.recAddr c.node 40) d
  else s

/-- What follows the end of a task of the receive pipeline. -/
def State.afterTask (s : State) (t : Task) : State :=
  let s := match t.ctx with | some k => s.ctxFree k | none => s
  match t.commit with
  | some c => s.commitCounter c
  | none => s

end Sys2Proof.Machine
end

