-- ==== Sys2Proof/Machine/Radio.lean ====
section
/-!
DEFINITION. Shared operations of the radio (07_radio_front_end.md to 09_transmit.md): transceiver steps, blanking, the end of
a reception, a shuttle's plan, completion records, the ends of a transmission. The commands stand in Trx.lean, Lanes.lean
and Shuttle.lean.
-/
namespace Sys2Proof.Machine

/-! ### Places -/

def State.trx (s : State) (n : Nat) : Trx := Store.get (fun _ => {}) s.rd.trxs n
def State.setTrx (s : State) (n : Nat) (v : Trx) : State :=
  { s with rd := { s.rd with trxs := Store.set (fun _ => {}) s.rd.trxs n v } }
def State.lane (s : State) (l : Nat) : Lane := Store.get (fun _ => {}) s.rd.lanes l
def State.setLane (s : State) (l : Nat) (v : Lane) : State :=
  { s with rd := { s.rd with lanes := Store.set (fun _ => {}) s.rd.lanes l v } }
def State.rx? (s : State) (k : Nat) : Option Rx := Store.find? k s.rd.rxs
def State.putRx (s : State) (k : Nat) (r : Rx) : State := { s with rd := { s.rd with rxs := Store.put k r s.rd.rxs } }
def State.delRx (s : State) (k : Nat) : State := { s with rd := { s.rd with rxs := Store.del k s.rd.rxs } }

/-- Transceiver states and targets (TRXn_STATE), and lane states (LANE_STATE.STATE). -/
def State.trxState (s : State) (n : Nat) : Nat := s.getF (R.TRX_STATE_STATE n)
def State.trxTarget (s : State) (n : Nat) : Nat := s.getF (R.TRX_STATE_TARGET n)
def State.laneState (s : State) (l : Nat) : Nat := s.getF (R.LANE_STATE_STATE l)
def State.setLaneState (s : State) (l st : Nat) : State := s.setF (R.LANE_STATE_STATE l) st

/-- The lanes of a transceiver that are used. -/
def State.lanesOf (s : State) (n : Nat) : List Nat := (trxLanes n).filter (fun l => (s.laneRec l).isSome)

/-- Whether a lane is fixed. -/
def State.fixedLane (s : State) (l : Nat) : Bool := match s.laneRec l with | some r => r.bind == 1 | none => false

/-- A lane takes a channel, realised as a digital offset from the capture centre (R168). -/
def State.laneTune (s : State) (l chan : Nat) : State :=
  let off : Int := match s.trxRec (laneTrx l) with
    | some r => if chan = 0 then 0 else chanSteps (laneTrx l) ((chan : Int) - r.centreKhz)
    | none => 0
  (s.setLane l { s.lane l with offset := off }).setF (R.LANE_CHAN_CHAN_KHZ l) chan

/-- A lane's PHY_MODE, and its channel now. -/
def State.lanePhy (s : State) (l : Nat) : Nat := s.getF (R.LANE_STATE_PHY_MODE l)
def State.laneChan (s : State) (l : Nat) : Nat := s.getF (R.LANE_CHAN_CHAN_KHZ l)

/-- The other transceiver of the same band (Table 02.13). -/
def State.bandPeer (s : State) (n : Nat) : Option Nat :=
  let m := if n % 2 = 0 then n + 1 else n - 1
  match s.trxRec n, s.trxRec m with
  | some a, some b => if a.band = b.band then some m else none
  | _, _ => none

/-- Whether a self-interference interval that the other transceiver of the band causes meets `[a, b]` (R166). -/
def State.siMeets (s : State) (n a b : Nat) : Bool :=
  match s.bandPeer n with
  | some m =>
    let v := s.trx m
    (v.siFrom < v.siTo && v.siFrom ≤ b && (v.onAir.isSome || a < v.siTo)) ||
      v.siPast.any (fun i => i.1 ≤ b && a < i.2)
  | none => false

/-- The earliest moment that a reception or a carrier sense under way may still be held against (R194, R228). -/
def State.siOldest (s : State) : Nat :=
  let a := s.rd.rxs.foldl (fun (m : Nat) (r : Nat × Rx) => min m r.2.ts) s.mtb
  s.mac.senses.foldl (fun (m : Nat) (x : Nat × Sense) => min m x.2.from_) a

/-- A transceiver's interval is over and joins the earlier ones; those that nothing under way can have met are forgotten. -/
def State.siKeep (s : State) (n : Nat) : State :=
  let v := s.trx n
  let l := if v.siFrom < v.siTo then v.siPast ++ [(v.siFrom, v.siTo)] else v.siPast
  s.setTrx n { v with siPast := l.filter (fun i => s.siOldest < i.2), siFrom := 0, siTo := 0 }

/-- Whether TRXn uses the coexistence wires (R163). -/
def State.coexOn (s : State) (n : Nat) : Bool := match s.trxRec n with | some r => r.coex ≠ 0 | none => false

/-- A refusal of a transceiver's; that of a gated one stands in CLK_CMD_ERR too, with the unit (R75). -/
def State.trxRefuse (s : State) (n st : Nat) : State :=
  if st = ST.CLK_GATED then s.gatedRefuse (gateTrx n) (R.TRX_CMD_ERR_STATUS n) else s.refuse (R.TRX_CMD_ERR_STATUS n) st

/-! ### Receive notes and the end of a reception -/

/-- The address of a task's pin cell. -/
def State.pinCell (s : State) (i k : Nat) : Option Nat :=
  match s.task? i with
  | none => none
  | some t => (t.pins[k]?).map (fun p => pinAddr p.cell)

/-- Write octets of a reception's note (Table 08.5) at an offset. -/
def State.noteWrite (s : State) (r : Rx) (off : Nat) (d : List Byte) : State :=
  match r.task with
  | none => s
  | some i => match s.pinCell i 0 with
    | none => s
    | some a => s.writeBytes (a + off) d

/-- Set bits of END_FLAGS of a reception's note. -/
def State.noteFlags (s : State) (r : Rx) (bits : Nat) : State :=
  match r.task with
  | none => s
  | some i => match s.pinCell i 0 with
    | none => s
    | some a => s.writeNat (a + 30) 1 (s.readNat (a + 30) 1 ||| bits)

/-- The pipeline withdraws a reception's task (R274): it ends without service, what it held is freed. -/
def State.rxWithdraw (s : State) (r : Rx) : State :=
  match r.task with
  | none => match r.buf with | some b => s.rxFree b | none => s
  | some i => match s.task? i with
    | none => s
    | some t =>
      let s := { s with ky := { s.ky with waiters := without i s.ky.waiters } }
      (s.endTask i false).afterTask t

/-- The status word of an outcome other than complete (Table 08.6). -/
def outcomeStatus (o : Nat) : Nat :=
  if o = 2 then ST.LANE_PREEMPTED else if o = 3 then ST.LANE_BLANKED else if o = 4 then ST.LANE_PHR
  else if o = 5 then ST.LANE_MODE else ST.LANE_NO_RESOURCE

/-- A reception that ended with an outcome other than complete reaches the MAC receive statistics with its status word, and counts
in the lane's counter (R192, R195). -/
def State.rxLost (s : State) (l o : Nat) : State :=
  let w := outcomeStatus o
  let n := Store.get (fun _ => 0) s.mac.rxStats w
  let s : State := { s with mac := { s.mac with rxStats := Store.set (fun _ => 0) s.mac.rxStats w (n + 1) } }
  let s :=
    if o = 2 then s.bump (R.LANE_COUNT0_PREEMPT l)
    else if o = 4 ∨ o = 5 then s.bump (R.LANE_COUNT1_PHR_ERR l)
    else s.bump (R.LANE_COUNT1_LOST l)
  s.bump R.MAC_RX_COUNT4_LANE_FAIL

/-- A reception ends with an outcome (Table 08.6, R195): the end part of its note; any outcome other than complete withdraws its
task and counts (R192). -/
def State.rxEnd (s : State) (k o : Nat) : State :=
  match s.rx? k with
  | none => s
  | some r =>
    let si := s.siMeets (laneTrx r.lane) r.ts (if o = 1 then r.fin else s.mtb)
    let s := (s.noteWrite r 29 (leBytes 1 o)).noteFlags r (if si then 1 else 0)
    if o = 1 then s.putRx k { r with done := 1 }
    else ((s.rxLost r.lane o).rxWithdraw r).delRx k

/-! ### Blanking (R166, R178) -/

/-- A lane is blanked (Table 08.3): a reception in progress is lost. -/
def State.blankLane (s : State) (l : Nat) : State :=
  let st := s.laneState l
  let s := s.setF (R.LANE_STATE_ARMED l) 0
  if st < 2 then s.setLaneState l 5
  else if st = 2 ∨ st = 3 then
    let s := match (s.lane l).rx with | some k => s.rxEnd k 3 | none => s
    (s.setLane l { s.lane l with rx := none }).setLaneState l 5
  else s

/-- Blanking of a transceiver's lanes starts. -/
def State.blankTrx (s : State) (n : Nat) : State := s.each (s.lanesOf n) State.blankLane

/-- Blanking ends: the lanes are IDLE, and armed as R170 says; their idle measurement (R187) and the gain windows of the paths
(R181) start anew. -/
def State.unblankTrx (s : State) (n : Nat) : State :=
  let s := s.setTrx n { s.trx n with winA := s.mtb, winB := s.mtb }
  s.each (s.lanesOf n) (fun s l =>
    let v := s.lane l
    let s := (s.setLane l { v with idleA := [], idleB := [] }).setF (R.LANE_RSSI_IDLE l) 0x8000
    let s := if s.laneState l = 5 then s.setLaneState l 0 else s
    s.setB (R.LANE_STATE_ARMED l) (s.fixedLane l || v.open_))

/-! ### Transceiver steps (R150, R151, Tables 07.2 and 07.3) -/

/-- STANDBY→SYNTH, and the relock of R154, in cyc. -/
def lockCyc (n : Nat) : Nat := if n < 2 then 79200 else 58080

/-- A calibration, in cyc. -/
def calCyc : Nat := 2640000

/-- The step into TX from the target state, in cyc. -/
def intoTx (target : Nat) : Nat := if target = 3 then 31680 else 23760

/-- The step out of TX towards a target, as the state it ends in and its length in cyc. -/
def outOfTx (target : Nat) (cal : Bool) : Nat × Nat := if target = 3 && !cal then (3, 26400) else (2, 2640)

/-- The next step of a transceiver at rest, as the state it ends in and its length in cyc; state 5 is CAL, entered at
once. -/
def nextStep (n st target : Nat) (cal : Bool) : Option (Nat × Nat) :=
  if st = 0 then (if target = 0 && !cal then none else some (1, 52800))
  else if st = 1 then
    if cal then some (5, 0) else if target = 0 then some (0, 5280) else if target = 1 then none else some (2, lockCyc n)
  else if st = 2 then
    if cal then some (1, 1320) else if target = 0 then some (0, 5280) else if target = 1 then some (1, 1320)
    else if target = 2 then none else some (3, 15840)
  else if st = 3 then
    if cal then some (2, 2640) else if target = 0 then some (0, 5280) else if target = 3 then none else some (2, 2640)
  else none

/-- The time a transceiver takes from a state to rest at its target, steps and calibration included. -/
def reachTime (n target : Nat) : Nat → Nat → Bool → Nat
  | 0, _, _ => 0
  | fuel + 1, st, cal =>
    match nextStep n st target cal with
    | none => 0
    | some (5, _) => calCyc + reachTime n target fuel 1 false
    | some (d, k) => k + reachTime n target fuel d cal

/-- A calibration, on request or at start-up, lies on the way to the target. -/
def Trx.calPending (v : Trx) : Bool := v.cal = 1 || v.cal = 2

/-- A transceiver is in a state. -/
def State.setTrxState (s : State) (n st : Nat) : State :=
  let lock := st = 2 || st = 3 || st = 4
  ((s.setF (R.TRX_STATE_STATE n) st).setB (R.TRX_STATE_SYN_RX_LOCK n) lock).setB (R.TRX_STATE_SYN_TX_LOCK n) lock

/-- The target that a transceiver moves to: one written during a step takes the old one's place when the step ends (R150). -/
def State.trxAim (s : State) (n : Nat) : Nat := match (s.trx n).next with | some t => t | none => s.trxTarget n

/-- A target written during a step is in force. -/
def State.trxNext (s : State) (n : Nat) : State :=
  match (s.trx n).next with
  | some t => (s.setTrx n { s.trx n with next := none }).setF (R.TRX_STATE_TARGET n) t
  | none => s

/-- FEM_LNA_EN is low where it is high, or where a step into RX would raise it (R161). -/
def State.lnaLow (s : State) (n : Nat) : State :=
  if s.trxState n = 3 || (match (s.trx n).step with | some (3, _) => true | _ => false) then s.emit (.line n 1 false s.mtb) else s

/-- A step starts that ends in state `d` after `k` cyc (R161: FEM_LNA_EN around the steps into and out of RX). -/
def State.startStep (s : State) (n d k : Nat) : State :=
  let s := if s.trxState n = 3 then (s.blankTrx n).emit (.line n 1 false s.mtb) else s
  let s := if d = 3 then s.emit (.line n 1 true (s.mtb + k - min k 5280)) else s
  (s.setTrx n { s.trx n with step := some (d, s.mtb + k) }).setF (R.TRX_STATE_MOVING n) 1

/-- A transceiver at rest starts its next step towards its target, if there is one (R150). -/
def State.trxGo (s : State) (n : Nat) : State :=
  let v := s.trx n
  let st := s.trxState n
  if v.step.isSome || st = 4 || st = 5 || s.su.warm.isSome then s
  else match nextStep n st (s.trxTarget n) v.calPending with
    | none => s.setF (R.TRX_STATE_MOVING n) 0
    | some (5, _) => (s.setTrxState n 5).startStep n 1 calCyc
    | some (d, k) => s.startStep n d k

/-- The step from any state to SLEEP on a warm reset or on entry to PARK (R155): the lanes are blanked, FEM_LNA_EN falls, a
calibration or relock under way is given up. A transceiver in SLEEP stays there. -/
def State.toSleep (s : State) (n : Nat) : State :=
  if s.trxState n = 0 && (s.trx n).step.isNone then s
  else
    let s := (s.lnaLow n).blankTrx n
    let s := if s.trxState n = 5 then s.setTrxState n 1 else s
    let s := s.setTrx n { s.trx n with step := some (0, s.mtb + 5280), next := none, cal := 0, relock := false }
    (s.setF (R.TRX_STATE_TARGET n) 0).setF (R.TRX_STATE_MOVING n) 1

/-! ### A shuttle's plan (R199, R202, R203) -/

/-- Members of a shuttle's plan. -/
def Trx.planned (v : Trx) : Nat := v.plan.foldl (fun n c => n + c.members.length) 0

/-- The requested departure of a command, aligned (R7). -/
def TxCmd.tDep (c : TxCmd) : Nat := match c.members with | m :: _ => dcycEdge m.desc.tDep | [] => 0

/-- The planned departure and last symbol of a command: of its first member, and of the member that ends last. -/
def TxCmd.dep (c : TxCmd) : Nat := match c.members with | m :: _ => m.dep | [] => 0
def TxCmd.fin (c : TxCmd) : Nat := c.members.foldl (fun n m => max n m.fin) 0

/-- The latest departure (R203). -/
def TxCmd.latest (c : TxCmd) : Nat := match c.members with | m :: _ => m.desc.tDep + m.desc.slack | [] => 0

/-- The head of a plan (R202): the earliest departure, acceptance order on ties. -/
def planHead (l : List TxCmd) : Option TxCmd :=
  firstBy (fun a b => a.tDep < b.tDep || (a.tDep = b.tDep && a.order < b.order)) l

/-- When a transceiver could start a step into TX (R203): now, or at the end of what it is doing and at its target. -/
def State.readyAt (s : State) (n : Nat) : Nat :=
  let v := s.trx n
  let target := s.trxAim n
  let cal := v.calPending
  match v.onAir with
  | some c => let o := outOfTx target cal; c.fin + o.2 + reachTime n target 8 o.1 cal
  | none => match v.step with
    | some (d, e) => e + reachTime n target 8 d (cal && s.trxState n ≠ 5)
    | none => s.mtb + reachTime n target 8 (s.trxState n) cal

/-- The departure that R203 plans for a command now. -/
def State.planDep (s : State) (n : Nat) (c : TxCmd) : Nat :=
  dcycEdge (max c.tDep (s.readyAt n + intoTx (s.trxAim n)))

/-- Place a command's members from its departure on (R211). -/
def TxCmd.place (c : TxCmd) (dep : Nat) : TxCmd :=
  { c with planned := true, members := c.members.map (fun (m : TxMember) =>
      let d := dcycEdge (max m.desc.tDep dep)
      { m with dep := d, fin := d + m.air }) }

/-- What TRXn_TX_STAT shows. -/
def State.showTx (s : State) (n : Nat) : State :=
  let v := s.trx n
  let braid := (v.plan ++ v.onAir.toList).find? (·.braid)
  let s := s.setF (R.TRX_TX_STAT_PLANNED n) v.planned
  let s := s.setF (R.TRX_TX_STAT_MEMBERS n) (match braid with | some c => c.members.length | none => 0)
  let s := s.setB (R.TRX_TX_STAT_BRAID_OPEN n) braid.isSome
  s.setF (R.TRX_TX_STAT_HEAD_KIND n) (match planHead v.plan with
    | some c => (match c.members with | m :: _ => m.desc.kind | [] => 7)
    | none => 7)

/-- The coexistence lines of a transceiver's set show the OR of its transceivers, each with the transmission on air and the next
(R163, R164). -/
def State.coexLines (s : State) (n at_ : Nat) : State :=
  let m := if n % 2 = 0 then n + 1 else n - 1
  let ask := fun (v : Trx) => v.coex || v.coexNext.isSome
  let prio := fun (v : Trx) => v.prio || (match v.coexNext with | some (_, p) => p | none => false)
  let v := s.trx n
  let w := s.trx m
  (s.emit (.line n 4 (ask v || (s.coexOn m && ask w)) at_)).emit (.line n 5 (prio v || (s.coexOn m && prio w)) at_)

/-- The request of the head of the plan is withdrawn where another command has become the head, or where its departure has moved to
more than 13,200 dcyc from now (R163). -/
def State.coexCheck (s : State) (n : Nat) : State :=
  match (s.trx n).coexNext with
  | none => s
  | some (o, _) =>
    let keep := match planHead (s.trx n).plan with
      | some h => h.order = o && h.planned && decide (h.dep ≤ s.mtb + 52800)
      | none => false
    if keep then s else (s.setTrx n { s.trx n with coexNext := none }).coexLines n s.mtb

/-- The head of the plan is planned anew (R202, R203); the others wait for it. -/
def State.replan (s : State) (n : Nat) : State :=
  let v := s.trx n
  let s := match planHead v.plan with
    | none => s
    | some h =>
      let dep := s.planDep n h
      s.setTrx n { v with plan := v.plan.map (fun (c : TxCmd) =>
        if c.order = h.order then c.place dep else { c with planned := false }) }
  (s.coexCheck n).showTx n

/-! ### Completion records (Table 09.3) -/

/-- The queue that takes a shuttle's completion records: the first it produces into. -/
def State.doneQueue (s : State) (n : Nat) : Option Nat := (s.producedBy (0x20 + n)).head?

/-- Hand over the completion records that have a credit; the others are held (R297). Where the record lies in memory the
spec leaves open: the entry's ADDR is a free value and the entry carries the record. -/
def State.txRelease (s : State) (n : Nat) : Nat → State
  | 0 => s
  | fuel + 1 =>
    match s.doneQueue n, (s.trx n).held with
    | some q, d :: ds =>
      if (s.queue q).credit (0x20 + n) = 0 then s
      else
        let e : Entry := ⟨s.freeVal % 2 ^ 32, 16, 3, 0x20 + n, leNat ((d.drop 8).take 2), leNat ((d.drop 10).take 2), d, 0⟩
        ((s.useFree.setTrx n { s.trx n with held := ds }).queueTake q e).txRelease n fuel
    | _, _ => s

/-- Write a command's completion record and count it (R199). -/
def State.txDone (s : State) (n : Nat) (m : TxMember) (st : Nat) (sent early : Bool) : State :=
  let flags := (if sent && m.clipped then 1 else 0) + (if early then 2 else 0)
  let rec_ := leBytes 8 (if sent then m.dep else 0) ++ leBytes 2 m.desc.tag ++ leBytes 2 st ++
    leBytes 1 (if sent then m.power else 0x80) ++ leBytes 1 flags ++ leBytes 2 0
  let s := if sent then s.bump (R.TRX_TX_COUNT0_SENT n) else s
  let s := if st = ST.TX_LATE n ∨ st = ST.TX_BRAID_LATE n ∨ st = ST.TX_FENCE n then s.bump (R.TRX_TX_COUNT0_LATE n) else s
  let s := s.raiseIf (st = ST.TX_LATE n) (R.TRX_TX_EVENT_LATE n)
  let s := s.raiseIf (st = ST.TX_FENCE n && !sent) (R.TRX_TX_EVENT_FENCE n)
  let s := if st = ST.TX_FLUSHED n then (s.bump (R.TRX_TX_COUNT1_FLUSHED n)).raise (R.TRX_TX_EVENT_FLUSHED n) else s
  if (s.doneQueue n).isNone then s
  else (s.setTrx n { s.trx n with held := (s.trx n).held ++ [rec_] }).txRelease n 17

/-- A command is dropped whole. -/
def State.txDrop (s : State) (n : Nat) (c : TxCmd) (st : Nat) : State :=
  let s := s.setTrx n { s.trx n with plan := (s.trx n).plan.filter (fun x => x.order != c.order) }
  s.each c.members (fun s m => s.txDone n m st false false)

/-- Every command that has not launched is dropped with ST_TX_FLUSHED (R204). -/
def State.txFlush (s : State) (n : Nat) : State :=
  (s.each (s.trx n).plan (fun s c => s.txDrop n c (ST.TX_FLUSHED n))).showTx n

/-! ### The ends of a transmission (R205, R206, R211) -/

/-- FEM_PA_EN rises for the transmission on air, if it has not yet (R161). -/
def State.paRise (s : State) (n : Nat) : State :=
  let v := s.trx n
  if v.up then s else (s.setTrx n { v with up := true }).emit (.line n 0 true v.siFrom)

/-- FEM_PA_EN falls at a time; with it the request and FEM_ANT go back (R161, R163), and the self-interference interval
ends TAIL later (R166). Where it has not risen, it stays low and there is no such interval. -/
def State.paFalls (s : State) (n at_ : Nat) : State :=
  let rose := (s.trx n).up || decide ((s.trx n).siFrom < s.mtb)
  let s := if rose then (s.paRise n).emit (.line n 0 false at_) else s
  let s := s.emit (.line n 3 (s.isSet (R.TRX_FEM_CTRL_ANT_RX n)) at_)
  let v := s.trx n
  let s := s.setTrx n { v with
    siFrom := if rose then v.siFrom else 0, siTo := if rose then at_ + 4 * s.getF (R.TRX_BLANK_TAIL n) else 0, up := false }
  if s.coexOn n then (s.setTrx n { s.trx n with coex := false, prio := false }).coexLines n at_ else s

/-- The step out of TX begins now (R151): a relock takes its place (R154), the step to SLEEP on a warm reset (R155). -/
def State.leaveTx (s : State) (n : Nat) : State :=
  let v := s.trx n
  let o := outOfTx (s.trxTarget n) v.calPending
  let s := s.setF (R.TRX_STATE_STATE n) 4
  let s := (s.setTrx n { v with onAir := none, ending := none, step := none, lag := none }).setF (R.TRX_TX_STAT_LAUNCHED n) 1
  if s.su.warm.isSome then s.toSleep n
  else if v.relock then s.startStep n 2 (lockCyc n) else s.startStep n o.1 o.2

/-- OFF_MS runs from the last symbol of a transmission, that of an acknowledgement included (R232). -/
def State.offFrom (s : State) (n fin : Nat) : State :=
  match s.trxProfile n with
  | some p => { s with mac := { s.mac with off := Store.put n (fin + msToCyc p.offMs) s.mac.off } }
  | none => s

/-- The end of the symbol of a member that is on air at `t`, else `t`. -/
def TxMember.symbolEnd (m : TxMember) (t : Nat) : Nat :=
  if t < m.dep || m.fin ≤ t then t
  else
    let f := if m.desc.kind = 4 then (chipCyc m.rate, 1) else symFrac m.desc.phy
    min m.fin (m.dep + divRound (divUp ((t - m.dep) * f.2) f.1 * f.1) f.2)

/-- The next symbol boundary of a transmission at `t` (R206); of a braid, of the last of its members on air. -/
def TxCmd.symbolEnd (c : TxCmd) (t : Nat) : Nat := c.members.foldl (fun b m => max b (m.symbolEnd t)) t

/-- When FEM_PA_EN falls after a transmission of TRXn that ends at `t`: the ramp, then PA_LAG (R161). -/
def State.paLowAt (s : State) (n t : Nat) : Nat :=
  t + 1320 + 4 * (match (s.trx n).lag with | some k => k | none => s.getF (R.TRX_FEM_PA_LAG n))

/-- The transmission on air ends at `t`, at its last symbol or, with status `st`, before it: completion records for all its
members, ramp-down, step out of TX. A member that has not departed is dropped with `st`. -/
def State.txStopAt (s : State) (n : Nat) (st : Option Nat) (t : Nat) : State :=
  match (s.trx n).onAir with
  | none => s
  | some c =>
    let s := match st with
      | some _ =>
        let cut := (c.members.filter (fun (m : TxMember) => m.dep ≤ t && t < m.fin)).map (fun (m : TxMember) => (m.dep, t))
        (s.setTrx n { s.trx n with ends := (cut ++ (s.trx n).ends).take 32 }).emit (.radioCut n t)
      | none => s
    let s := s.each c.members (fun s m =>
      match st with
      | none => s.txDone n m ST.OK true false
      | some w => if m.fin ≤ t then s.txDone n m ST.OK true false
        else s.txDone n m w (m.dep ≤ t) true)
    let s := if c.dep ≤ t then s.offFrom n t else s
    let s := s.paFalls n (s.paLowAt n t)
    ((s.leaveTx n).replan n)

/-- The transmission on air ends now. -/
def State.txStop (s : State) (n : Nat) (st : Option Nat) : State := s.txStopAt n st s.mtb

/-- A transmission on air is to end at its next symbol boundary with a status (R206). -/
def State.txEndSoon (s : State) (n st : Nat) : State :=
  match (s.trx n).onAir with
  | none => s
  | some c =>
    if (s.trx n).ending.isSome then s else s.setTrx n { s.trx n with ending := some (st, c.symbolEnd s.mtb) }

/-- The 1 s mark of a hold (R62), and the output stop time (R444), long past outside ACTIVE (R459): the times before
which a last symbol must end. -/
def State.holdMark (s : State) : Option Nat := if s.dev = devHold then some (s.clk.holdAt + secCyc) else none
def State.outputStop (s : State) : Option Nat :=
  if !s.pairOn || s.pairRole = 0 then none else some (if s.pairRole = 1 then s.pa.leaseEnd - 20625 else 0)

/-- A transmission ends at once, without waiting for a symbol boundary (R206, R444, R448). -/
def State.txCut (s : State) (n : Nat) : State := s.txStop n (some (ST.TX_FENCE n))

end Sys2Proof.Machine
end

