-- ==== Sys2Proof/Machine/Frames.lean ====
section
/-!
DEFINITION. The octets of radio frames that the device forms or completes: FCS, auxiliary security header, CCM*, acknowledgements,
Enhanced Beacons, keep-alives, wake-up frames (R225, R227, R237, R244, R251, R142). Their layouts are those of IEEE 802.15.4-2020,
which the spec names and does not restate (PRESUMED, notes/assumptions/46.md).
-/
namespace Sys2Proof.Machine

/-! ### FCS -/

/-- Octets with the FCS after them. -/
def withFcs (four : Bool) (l : List Nat) : List Nat := l ++ (if four then nats (leBytes 4 (fcs32 l)) else nats (leBytes 2 (fcs16 l)))

/-! ### The MAC header -/

/-- A number of two octets in a frame; its Frame Control field. -/
def two (l : List Nat) (o : Nat) : Nat := l.getD o 0 + 256 * l.getD (o + 1) 0
def fcfOf (l : List Nat) : Nat := two l 0

/-- Write octets into a frame. -/
def setOctets (l : List Nat) (o : Nat) (d : List Nat) : List Nat := l.take o ++ d ++ l.drop (o + d.length)

/-- Octets of an address of a mode. -/
def addrOctets (mode : Nat) : Nat := if mode = 3 then 8 else if mode = 2 then 2 else 0

/-- Octets of the Frame Control field, the sequence number and the addressing fields. -/
def addrLen (l : List Nat) : Nat :=
  let f := fcfOf l
  let dst := f / 1024 % 4
  let src := f / 16384 % 4
  let comp := bitOf f 6
  let two_ := f / 4096 % 4 = 2
  let seq := if two_ && bitOf f 8 then 0 else 1
  let dstPan := if two_ then
      (if dst = 0 then src = 0 && comp else if src = 0 then !comp else if dst = 3 && src = 3 then !comp else true)
    else dst ≠ 0
  let srcPan := if two_ then
      (if src = 0 then false else if dst = 0 then !comp else if dst = 3 && src = 3 then false else !comp)
    else src ≠ 0 && !(comp && dst ≠ 0)
  2 + seq + 2 * bit dstPan + addrOctets dst + 2 * bit srcPan + addrOctets src

/-- Octets of the auxiliary security header, which stands after the addressing fields. -/
def auxLen (l : List Nat) : Nat :=
  if !bitOf (fcfOf l) 3 then 0
  else
    let c := l.getD (addrLen l) 0
    1 + (if bitOf c 5 then 0 else 4) + [0, 1, 5, 9].getD (c / 8 % 4) 0

/-- The header IEs from an offset on: the content of the one with an element ID, where they end, whether payload IEs follow. -/
def headerIes (l : List Nat) (want : Nat) : Nat → Nat → Option Nat → Option Nat × Nat × Bool
  | 0, o, at_ => (at_, o, false)
  | fuel + 1, o, at_ =>
    let d := two l o
    let id := d / 128 % 256
    if l.length < o + 2 then (at_, o, false)
    else if 32768 ≤ d then (at_, o, true)
    else if id = 0x7E then (at_, o + 2, true)
    else if id = 0x7F then (at_, o + 2, false)
    else headerIes l want fuel (o + 2 + d % 128) (if id = want then some (o + 2) else at_)

/-- The header IEs of a frame. -/
def frameIes (l : List Nat) (want : Nat) : Option Nat × Nat × Bool :=
  let o := addrLen l + auxLen l
  if bitOf (fcfOf l) 9 then headerIes l want 64 o none else (none, o, false)

/-- Octets of a frame's MAC header. -/
def mhrLen (l : List Nat) : Nat := (frameIes l 0).2.1

/-- The content of the Time Correction IE. -/
def tcAt (l : List Nat) : Option Nat := (frameIes l 0x1E).1

/-- The content of the TSCH Synchronization IE among the nested IEs from `o` to `stop`. -/
def nestedSync (l : List Nat) (stop : Nat) : Nat → Nat → Option Nat
  | 0, _ => none
  | fuel + 1, o =>
    let d := two l o
    if stop < o + 2 then none
    else if 32768 ≤ d then nestedSync l stop fuel (o + 2 + d % 2048)
    else if d / 256 = 0x1A then some (o + 2)
    else nestedSync l stop fuel (o + 2 + d % 256)

/-- The same among the payload IEs from `o` on, in the first MLME IE. -/
def payloadSync (l : List Nat) : Nat → Nat → Option Nat
  | 0, _ => none
  | fuel + 1, o =>
    let d := two l o
    let n := d % 2048
    if l.length < o + 2 || d < 32768 then none
    else if d / 2048 % 16 = 1 then nestedSync l (min l.length (o + 2 + n)) 64 (o + 2)
    else if d / 2048 % 16 = 15 then none
    else payloadSync l fuel (o + 2 + n)

/-- The content of a beacon's TSCH Synchronization IE: the ASN, then the join metric. -/
def syncAt (l : List Nat) : Option Nat :=
  match frameIes l 0 with
  | (_, o, true) => payloadSync l 16 o
  | _ => none

/-! ### Security (R225) -/

/-- MIC octets of a level, and what securing adds: auxiliary header and MIC. -/
def micOctets (level : Nat) : Nat := [0, 4, 8, 16].getD (level % 4) 0
def secOctets (level kim : Nat) : Nat := if level = 0 then 0 else 5 + kim + micOctets level

/-- The auxiliary security header: level, Key Identifier Mode, frame counter, Key Index. -/
def auxHeader (level kim keyIndex counter : Nat) : List Nat :=
  [level % 8 + 8 * (kim % 4)] ++ nats (leBytes 4 counter) ++ (if kim = 1 then [keyIndex % 256] else [])

/-- A frame's frame pending bit. -/
def pendingBit (l : List Nat) (b : Bool) : List Nat := setOctets l 0 (nats (leBytes 2 (putBit (fcfOf l) 4 b)))

/-- An unsecured frame with an auxiliary security header. -/
def addAux (l : List Nat) (level kim keyIndex counter : Nat) : List Nat :=
  let a := addrLen l
  setOctets (l.take a) 0 (nats (leBytes 2 (putBit (fcfOf l) 3 true))) ++ auxHeader level kim keyIndex counter ++ l.drop a

/-- A frame with another frame counter in its auxiliary security header. -/
def putCounter (l : List Nat) (c : Nat) : List Nat := setOctets l (addrLen l + 1) (nats (leBytes 4 c))

/-- The first `n` octets of a list, filled with zeros. -/
def fitOctets (n : Nat) (l : List Nat) : List Nat := (l ++ List.replicate n 0).take n

/-- CCM* over a frame (IEEE 802.15.4-2020): the nonce is the device's EUI-64, the frame counter and the level. -/
def sealFrame (x : Seal) (l : List Nat) : List Nat :=
  let nonce := nats (beBytes 8 Config.eui64) ++ nats (beBytes 4 x.counter) ++ [x.level]
  let mic := micOctets x.level
  if x.level = 0 then l
  else if x.level < 4 then l ++ fitOctets mic (Config.ccm x.key nonce l [] mic)
  else
    let m := l.drop x.hdr
    l.take x.hdr ++ fitOctets (m.length + mic) (Config.ccm x.key nonce (l.take x.hdr) m mic)

/-- A node's link key, unwrapped under its WRAP_SLOT; a value that nothing fixes where the record holds none. -/
def State.nodeKey (s : State) (n : Nat) : Nat :=
  match s.keySlot (s.recGet n 14 2 % 512) with
  | some v => (match Config.unwrap v.mat 24 (beNat (s.readBytes (s.recAddr n 16) 24)) with | some k => k | none => s.freeVal)
  | none => s.freeVal

/-- A PAN's group key. -/
def State.groupKey (s : State) (p : Nat) : Nat :=
  match s.keySlot (s.getF (R.MAC_PAN_KEY_SLOT.bank p)) with | some v => v.mat | none => s.freeVal

/-! ### Frames of the device's own -/

/-- An acknowledgement before it is secured (R237): an Imm-Ack for an earlier frame version, else an Enhanced Acknowledgment, with the
Time Correction IE where `timed`. -/
def ackFrame (h : MacHdr) (pending timed : Bool) : List Nat :=
  if h.version < 2 then [2 + 16 * bit pending, 0, h.seq]
  else
    let noSeq := bitOf h.fcf 8
    let fcf := 2 + 8 * bit h.secured + 16 * bit pending + 256 * bit noSeq + 512 * bit timed + 1024 * h.srcMode + 4096 * 2
    nats (leBytes 2 fcf) ++ (if noSeq then [] else [h.seq]) ++
    (if h.srcMode = 0 then [] else nats (leBytes 2 h.srcPan) ++ nats (leBytes (addrOctets h.srcMode) h.src)) ++
    (if h.secured then auxHeader h.level h.kim h.keyIndex 0 else []) ++
    (if timed then nats (leBytes 2 (2 + 0x1E * 128)) ++ [0, 0] else [])

/-- A node's address in frames: its mode and octets. -/
def State.nodeAddr (s : State) (n : Nat) : Nat × List Nat :=
  let a := s.recGet n 10 2
  if a < 0xFFFE then (2, nats (leBytes 2 a)) else (3, nats (leBytes 8 (s.recEui n)))

/-- A keep-alive before it is secured (R251): an empty data frame of version 2 with AR set. -/
def State.keepAliveFrame (s : State) (n pan seq : Nat) : List Nat :=
  let d := s.nodeAddr n
  let id := match s.panRec pan with | some r => r.panId | none => 0
  nats (leBytes 2 (1 + 32 + 64 + 1024 * d.1 + 8192 + 16384 * 2)) ++ [seq] ++ nats (leBytes 2 id) ++ d.2 ++
  nats (leBytes 2 (s.ownShort pan))

/-- A wake-up frame (R244): a multipurpose frame with a Rendezvous Time IE. -/
def State.wakeUpFrame (s : State) (n pan rz : Nat) : List Nat :=
  let d := s.nodeAddr n
  let id := match s.panRec pan with | some r => r.panId | none => 0
  nats (leBytes 2 (5 + 8 + 16 * d.1 + 256 + 1024 + 32768)) ++ nats (leBytes 2 id) ++ d.2 ++
  nats (leBytes 2 (2 + 0x1D * 128)) ++ nats (leBytes 2 rz)

/-- The wake-up sequence of `wus` cyc before a frame (R253): wake-up frames one after the other, each with the time from its end to the
rendezvous. -/
def State.wakeUps (s : State) (n pan phy dep wus : Nat) (four : Bool) : List (Nat × List Nat) :=
  let air := max 1 (airCyc phy ((s.wakeUpFrame n pan 0).length + (if four then 4 else 2)))
  (List.range (wus / air)).map (fun i =>
    (dep + i * air, withFcs four (s.wakeUpFrame n pan (min 65535 ((wus - (i + 1) * air) / phaseUnit phy)))))

/-- What the commit writes into a frame (R142): the ASN of a beacon's first symbol, the Time Correction of an acknowledgement. -/
def picotIn (kind : Nat) (v : Int) (l : List Nat) : List Nat :=
  if kind = 3 then (match syncAt l with | some o => setOctets l o (nats (leBytes 5 v.toNat)) | none => l)
  else match tcAt l with | some o => setOctets l o (nats (leBytes 2 (unsigned 12 v))) | none => l

end Sys2Proof.Machine
end

