-- ==== Sys2Proof/Machine/Trx.lean ====
section
/-!
DEFINITION. The transceivers' commands (07_radio_front_end.md).
-/
namespace Sys2Proof.Machine

/-- What refuses a write that starts something on a transceiver (R45, R73, R152); one that is held in SLEEP (R404) has no
other target (notes/assumptions/38.md). -/
def State.trxBar (s : State) (n target : Nat) (cal : Bool) : Option Nat :=
  if (s.trxRec n).isNone then some (stNotCreated (7 + n))
  else if s.gatedOrPending (gateTrx n) then some ST.CLK_GATED
  else if s.starting || (s.erasedLike && (cal || target != 0)) then some (ST.TRX_STATE n)
  else if s.trxState n = 5 || (cal && (s.trx n).calPending) then some (ST.TRX_BUSY n)
  else none

/-- A write of TRXn_CMD (R150, R152): the target, at once or, during a step, when it ends; a calibration on the way to it; a target
below SYNTH drops what has not launched (R204). -/
def State.trxCmd (s : State) (n target : Nat) (cal : Bool) : State :=
  match s.trxBar n target cal with
  | some st => s.trxRefuse n st
  | none =>
    let s := if (s.trx n).step.isSome && s.trxState n ≠ 4 then s.setTrx n { s.trx n with next := some target }
      else (s.setTrx n { s.trx n with next := none }).setF (R.TRX_STATE_TARGET n) target
    let s := if cal then s.setTrx n { s.trx n with cal := 1 } else s
    let s := if target < 2 then s.txFlush n else s
    ((s.trxGo n).replan n).answer ST.OK

/-- TRX_SET_TARGET: TRXn_CMD with CAL 0. -/
def execTrxSetTarget (trx : Fin 4) (target : Fin 4) (t : Nat) (s : State) : Res :=
  .next ((s.advance t).trxCmd trx target false)

/-- TRX_CALIBRATE: TRXn_CMD with CAL 1. -/
def execTrxCalibrate (trx : Fin 4) (target : Fin 4) (t : Nat) (s : State) : Res :=
  .next ((s.advance t).trxCmd trx target true)

/-- A transceiver whose start-up calibration failed has reached SLEEP and is gated (R90). -/
def State.gateFailed (s : State) (n : Nat) : State :=
  let s := s.setTrx n { s.trx n with cal := 0 }
  (s.setF (R.CLK_GATE_TRX.bit n) 1).setF (R.CLK_GATE_STAT_PEND.bit (gateTrx n)) 1

/-- TRX_STEP_END: the step in progress ends, a target written during it comes into force, and the next step towards the target
begins (R150, R151). -/
def execTrxStepEnd (trx : Fin 4) (s : State) : Res :=
  let n : Nat := trx
  let v := s.trx n
  match v.step with
  | none => .next s
  | some (d, e) =>
    if s.trxState n = 5 then .next s
    else
      let s := (s.advance e).setTrx n { v with step := none, relock := false }
      let s := ((s.setTrxState n d).setF (R.TRX_STATE_MOVING n) 0).trxNext n
      let s := if d = 3 then s.unblankTrx n else s
      let s := if d = 4 then s else s.setF (R.TRX_TX_STAT_LAUNCHED n) 0
      let s := if d = 0 && v.cal = 3 then s.gateFailed n else s
      let s := if s.trxTarget n < 2 then s.txFlush n else s
      .next ((s.trxGo n).replan n)

/-- CAL_END: a calibration passes or fails, and the transceiver goes on from STANDBY (R151, R156, R90). -/
def execCalEnd (trx : Fin 4) (pass : Bool) (s : State) : Res :=
  let n : Nat := trx
  let v := s.trx n
  match v.step with
  | none => .next s
  | some (_, e) =>
    if s.trxState n ≠ 5 then .next s
    else
      let startUp := v.cal = 2
      let s := (s.advance e).setTrx n { v with step := none, cal := if startUp && !pass then 3 else 0 }
      let s := (s.setTrxState n 1).setF (R.TRX_STATE_MOVING n) 0
      let s := if startUp then { s with su := { s.su with calDone := withOne n s.su.calDone } } else s
      let s := if startUp && s.starting && (List.range 4).all (fun k => (s.trxRec k).isNone || s.su.calDone.contains k) then
          s.setF R.START_T_CAL_T (s.mtb / 64) else s
      if pass then
        let s := if startUp then s.setF (R.START_STATE_TRX_CAL.bit n) 1 else s
        let s := (s.setF (R.TRX_CAL_STAT_CAL_OK n) 1).setF (R.TRX_CAL_STAT_CAL_TEMP n) (s.getF (R.TRX_CAL_STAT_TEMP n))
        .next (((s.raise (R.TRX_EVENT_CAL_DONE n)).trxGo n).replan n)
      else
        let s := s.raise (R.TRX_EVENT_CAL_FAIL n)
        if startUp then
          let s := (s.startFail ST.START_CAL_FAIL n 0xF00 0).raise R.SYS_EVENT_CAL_FAIL
          .next ((s.setF (R.TRX_STATE_TARGET n) 0).startStep n 0 5280)
        else
          let s := (s.setF (R.TRX_CMD_ERR_STATUS n) (ST.TRX_CAL_FAIL n)).setF (R.TRX_STATE_TARGET n) 1
          .next (((s.setTrx n { s.trx n with next := none }).txFlush n).trxGo n)

/-- SYN_UNLOCK: a synthesiser loses lock (R147, R154): the transmit synthesiser of a sub-GHz transceiver with `tx`, else the receive
synthesiser; a 2.4 GHz transceiver has one. A transmission on air ends at its next symbol boundary, FEM_LNA_EN falls, the
lanes are blanked, the transceiver relocks and goes on towards its target. -/
def execSynUnlock (trx : Fin 4) (tx : Bool) (t : Nat) (s : State) : Res :=
  let n : Nat := trx
  let s := s.advance t
  let st := s.trxState n
  if !(st = 2 || st = 3 || st = 4) then .next s
  else
    let s := (s.raise (R.TRX_EVENT_SYN_UNLOCK n)).setF (R.TRX_CMD_ERR_STATUS n) (ST.TRX_SYN_UNLOCK n)
    let lost := fun (s : State) =>
      let s := if tx && n < 2 then s else s.setF (R.TRX_STATE_SYN_RX_LOCK n) 0
      if tx || 2 ≤ n then s.setF (R.TRX_STATE_SYN_TX_LOCK n) 0 else s
    if (s.trx n).onAir.isSome then
      let s := (lost s).blankTrx n
      .next ((s.setTrx n { s.trx n with relock := true }).txEndSoon n (ST.TRX_SYN_UNLOCK n))
    else
      let s := ((s.lnaLow n).blankTrx n).setF (R.TRX_STATE_STATE n) 2
      let s := lost (s.setTrx n { s.trx n with relock := true })
      .next ((s.startStep n 2 (lockCyc n)).replan n)

/-- Whether a transceiver is narrow (Table 02.7). -/
def State.narrow (s : State) (n : Nat) : Bool := match s.trxRec n with | some r => r.width = 0 | none => false

/-- BG_CAL_CYCLE_START: BG_PERIOD after the previous one, a background calibration cycle of 2,000 steps begins; one that has not
completed goes on and is reported (R158). When the first begins the spec leaves open. -/
def execBgCalCycleStart (trx : Fin 4) (t : Nat) (s : State) : Res :=
  let n : Nat := trx
  let s := s.advance t
  let v := s.trx n
  let due := match v.bgAt with | some b => decide (b + s.getF (R.TRX_CAL_BG_PERIOD n) * secCyc ≤ s.mtb) | none => true
  if !s.narrow n || !due then .next s
  else if v.bgRuns then
    .next ((s.setTrx n { v with bgAt := some s.mtb }).setF (R.TRX_CAL_STAT_BG_BEHIND n) 1)
  else
    let s := s.setTrx n { v with bgRuns := true, bgAt := some s.mtb }
    .next ((s.setF (R.TRX_CAL_STAT_BG_STEPS n) 0).setF (R.TRX_CAL_STAT_BG_BEHIND n) 0)

/-- Whether no transmission has its commit within the next 1,354 dcyc (R158). -/
def State.bgClear (s : State) (n : Nat) : Bool :=
  let v := s.trx n
  (v.plan ++ v.onAir.toList).all (fun c => c.members.all (fun m =>
    m.commit || !c.planned || s.mtb + 4 * 1354 < m.dep - 4096))

/-- Whether a receive path is in use (R148), path B with `b`. -/
def State.pathOn (s : State) (n : Nat) (b : Bool) : Bool := s.isSet (if b then R.TRX_PATH_ON_B n else R.TRX_PATH_ON_A n)

/-- BG_CAL_STEP: one background calibration step of 330 dcyc on a receive path in use, when its conditions hold (R158). It is counted
as it starts. -/
def execBgCalStep (trx : Fin 4) (pathB : Bool) (t : Nat) (s : State) : Res :=
  let n : Nat := trx
  let s := s.advance t
  let v := s.trx n
  let quiet := (s.lanesOf n).all (fun l =>
    s.laneState l = 0 || (2 ≤ s.laneState l && s.laneState l ≤ 4 && s.isSet (R.LANE_STATE_PATH l) != pathB))
  if !s.narrow n || !s.pathOn n pathB || !v.bgRuns || s.trxState n ≠ 3 || v.step.isSome || !quiet || !s.bgClear n ||
      (v.bgLast ≠ 0 && s.mtb < v.bgLast + 4 * 3960) then .next s
  else
    let k := s.getF (R.TRX_CAL_STAT_BG_STEPS n) + 1
    let s := s.setTrx n { v with bgLast := s.mtb + 1320, bgPathB := pathB, bgRuns := k < 2000 }
    .next ((s.setF (R.TRX_CAL_STAT_BG_STEPS n) (if k < 2000 then k else 0)).raiseIf (2000 ≤ k) (R.TRX_EVENT_BG_DONE n))

/-- TEMP_DRIFT: the die temperature is measured; the event is set once it has moved by more than TEMP_K since the last
passing calibration (R157). -/
def execTempDrift (trx : Fin 4) (temp : BitVec 8) (s : State) : Res :=
  let n : Nat := trx
  let s := s.setF (R.TRX_CAL_STAT_TEMP n) temp.toNat
  let d := temp.toInt - signed 8 (s.getF (R.TRX_CAL_STAT_CAL_TEMP n))
  .next (s.raiseIf (s.isSet (R.TRX_CAL_STAT_CAL_OK n) && decide (s.getF (R.TRX_CAL_TEMP_K n) < d.natAbs))
    (R.TRX_EVENT_TEMP_DRIFT n))

/-- The COEX class bit of a transmission's kind (Table 09.1). -/
def coexClass (kind : Nat) : Nat := if kind = 0 then 0 else if kind ≤ 2 then 1 else kind - 1

/-- The priority of a kind (R163). -/
def State.coexPrio (s : State) (n kind : Nat) : Bool := bitOf (s.getF (R.TRX_COEX_PRIO_MASK n)) (coexClass kind)

/-- The request of a command of the plan rises, with the priority where PRIO_MASK has its kind (R163). -/
def State.coexRise (s : State) (n : Nat) (c : TxCmd) : State :=
  let kind := match c.members with | m :: _ => m.desc.kind | [] => 0
  (s.setTrx n { s.trx n with coexNext := some (c.order, s.coexPrio n kind) }).coexLines n s.mtb

/-- COEX_REQUEST_RISE: 13,200 dcyc before the departure of the head of the plan, or at once when it lies nearer, also while a
transmission is on air (R163). -/
def execCoexRequestRise (trx : Fin 4) (s : State) : Res :=
  let n : Nat := trx
  let v := s.trx n
  match planHead v.plan with
  | none => .next s
  | some c =>
    if !s.coexOn n || v.coexNext.isSome || !c.planned then .next s
    else .next ((s.advance (c.dep - 52800)).coexRise n c)

/-- COEX_GRANT_FALL: the grant falls during a transmission; with ABORT set it ends at its next symbol boundary (R165). -/
def execCoexGrantFall (trx : Fin 4) (t : Nat) (s : State) : Res :=
  let n : Nat := trx
  let s := s.advance t
  let v := s.trx n
  match v.onAir with
  | none => .next s
  | some c =>
    if s.coexOn n && s.isSet (R.TRX_COEX_ABORT n) && decide (c.dep ≤ s.mtb) then
      let s := (s.txEndSoon n (ST.TRX_COEX_ABORT n)).raise (R.TRX_EVENT_COEX_ABORT n)
      .next (s.setF (R.TRX_CMD_ERR_STATUS n) (ST.TRX_COEX_ABORT n))
    else .next s

end Sys2Proof.Machine
end

