-- ==== Sys2Proof/Machine/Shuttle.lean ====
section
/-!
DEFINITION. The shuttles' commands (09_transmit.md): acceptance, lateness, launch, commit, the end of a transmission.
-/
namespace Sys2Proof.Machine

/-- The descriptor that 32 octets spell (Table 09.1). -/
def txDescOf (b : List Byte) : TxDesc :=
  let n := fun (o k : Nat) => leNat ((b.drop o).take k)
  let kind := n 14 1
  let flags := n 15 1
  { tDep := n 0 8, slack := n 8 4, tag := n 12 2, kind := kind, flags := flags, phy := n 16 2, power := n 18 1,
    chanKhz := n 20 3, buf := n 24 4, len := n 28 4, wus := n 32 4, psdu := nats (b.drop 36),
    reserved := decide (n 19 1 ≠ 0) || decide (n 23 1 ≠ 0) || bitOf flags 7 ||
      (decide (kind ≠ 1) && decide (flags / 16 % 8 ≠ 0)) ||
      (decide (kind ≠ 4) && decide (n 30 2 ≠ 0)) }

/-- The descriptor an entry names: at its address, or the entry's own item. -/
def State.txDescAt (s : State) (e : Entry) : TxDesc := txDescOf (if e.item.isEmpty then s.readBytes e.addr 32 else e.item)

/-- FCS octets of a descriptor. -/
def TxDesc.fcs (d : TxDesc) : Nat := if bitOf d.flags 3 then 4 else 2

/-- The members a braid open asks for. -/
def TxDesc.budget (d : TxDesc) : Nat := if d.kind = 1 then d.flags / 16 % 8 + 1 else 1

/-- A command's airtime (R198, R216). -/
def State.txAir (s : State) (n : Nat) (d : TxDesc) : Nat :=
  if d.kind = 4 then wakeCyc (s.getF (R.TRX_WAKE_RATE n)) (s.getF (R.TRX_WAKE_PRE_BITS n)) else d.wus + airCyc d.phy (d.len + d.fcs)

/-- A command's occupied bandwidth in kHz (R174, R213). -/
def TxDesc.occ (d : TxDesc) : Nat := if d.kind = 4 then 156 else occKhz d.phy

/-- POWER within the range of TRXn_PWR.DEFAULT, in 0.5 dB steps. -/
def powerOk (n p : Nat) : Bool :=
  p = 0x80 || (decide (-40 ≤ signed 8 p) && decide (signed 8 p ≤ if n < 2 then 40 else 24))

/-- The fields of a wake-keying frame (Table 09.6). -/
def wakeOk (d : TxDesc) : Bool :=
  let action := d.buf / 8 % 8
  d.phy = 0 && d.buf / 256 % 256 = 0 && d.buf / 64 % 4 ≠ 3 && action ≤ 2 && !bitOf d.flags 2 &&
  (if action = 0 then d.buf / 65536 = 0 else d.buf / 65536 ≠ 0)

/-- Row 4 of Table 09.2 holds nothing against the command. -/
def txRangeOk (n : Nat) (r : TrxRec) (d : TxDesc) : Bool :=
  !d.reserved && d.kind ≤ 4 && !(bitOf d.flags 1 && !(1 ≤ d.kind && d.kind ≤ 3)) && powerOk n d.power &&
  (if d.kind = 4 then wakeOk d
   else phyOne d.phy && phyBand d.phy r.band && !(bitOf d.flags 2 && phyFamily d.phy ≠ 1) &&
     d.len ≠ 0 && d.len + d.fcs ≤ maxPsdu d.phy) &&
  inSpan r d.chanKhz d.occ

/-- The braid of a transceiver that is open: in its plan, or on air until its step out of TX begins (R207). -/
def Trx.braid (v : Trx) : Option TxCmd := (v.plan ++ v.onAir.toList).find? (·.braid)

/-- Braid rules for an append of airtime `air` at `dep` (R207, R208). -/
def braidRoom (c : TxCmd) (d : TxDesc) (dep air : Nat) : Bool :=
  let first := c.dep
  c.members.length < c.budget && c.tDep ≤ dcycEdge d.tDep && max c.fin (dep + air) - first ≤ 13200000 &&
  c.members.all (fun m => !(m.dep < dep + air && dep < m.fin) ||
    decide (m.desc.occ + d.occ ≤ 2 * (max m.desc.chanKhz d.chanKhz - min m.desc.chanKhz d.chanKhz)))

/-- A braid as the checks see it: placed from its requested departure where it has not been planned. -/
def TxCmd.placed (c : TxCmd) : TxCmd := if c.planned then c else c.place c.tDep

/-- The longest transmission of a transceiver's profile, in cyc. -/
def State.onMs (s : State) (n : Nat) : Nat := match s.trxProfile n with | some p => msToCyc p.onMs | none => 0

/-- Table 09.2, in row order: what refuses a command now. An append in HOLD to a braid that is on air is not held against the 1 s
mark: R62 and R205 judge a braid at its launch (DEDUCED, notes/assumptions/24.md). -/
def State.txRefusal (s : State) (n : Nat) (d : TxDesc) : Option Nat :=
  match s.trxRec n with
  | none => some ST.CLK_GATED
  | some r =>
    if s.gatedOrPending (gateTrx n) then some ST.CLK_GATED
    else if s.dev = devHoldInhibit then some ST.CLK_TX_INHIBIT
    else if !s.running || s.trxTarget n < 2 || 2 ≤ s.pairRole then some (ST.TX_STATE n)
    else if !txRangeOk n r d then some (ST.TX_RANGE n)
    else if d.kind = 4 && r.wake = 0 then some (ST.TX_WAKE_OFF n)
    else
      let air := s.txAir n d
      let open_ := (s.trx n).braid.map TxCmd.placed
      match d.kind, open_ with
      | 1, open_ =>
        if s.onMs n < air then some (ST.TX_TOO_LONG n)
        else if open_.isSome then some (ST.TX_BRAID_BUSY n)
        else if 13200000 < air then some (ST.TX_BRAID_LIMIT n) else none
      | 2, none => if s.onMs n < air then some (ST.TX_TOO_LONG n) else some (ST.TX_BRAID_CLOSED n)
      | 2, some c =>
        let dep := dcycEdge (max d.tDep c.dep)
        if s.onMs n < max c.fin (dep + air) - c.dep then some (ST.TX_TOO_LONG n)
        else if dep ≤ s.mtb + 4096 then some (ST.TX_BRAID_LATE n)
        else if !braidRoom c d dep air then some (ST.TX_BRAID_LIMIT n) else none
      | _, _ => if s.onMs n < air then some (ST.TX_TOO_LONG n) else none

/-- An append joins the open braid. -/
def TxCmd.join (c : TxCmd) (m : TxMember) : TxCmd :=
  let dep := dcycEdge (max m.desc.tDep c.dep)
  { c with members := c.members ++ [{ m with dep := dep, fin := dep + m.air }] }

/-- The shuttle judges a command at once (R199, R201): it is refused with a completion record, or enters the plan. -/
def State.txAccept (s : State) (n : Nat) (d : TxDesc) : State :=
  let m : TxMember := { desc := d, air := s.txAir n d, rate := s.getF (R.TRX_WAKE_RATE n), pre := s.getF (R.TRX_WAKE_PRE_BITS n) }
  match s.txRefusal n d with
  | some st =>
    let s := (s.trxRefuse n st).bump (R.TRX_TX_COUNT1_REFUSED n)
    (s.raiseIf (st = ST.TX_BRAID_CLOSED n) (R.TRX_TX_EVENT_BRAID_CLOSED n)).txDone n m st false false
  | none =>
    let v := s.trx n
    let s :=
      if d.kind = 2 then
        s.setTrx n { v with
          plan := v.plan.map (fun (c : TxCmd) => if c.braid then c.join m else c),
          onAir := v.onAir.map (fun (c : TxCmd) => if c.braid then c.join m else c) }
      else s.setTrx n { v with
        orders := v.orders + 1,
        plan := v.plan ++ [{ members := [m], budget := d.budget, braid := d.kind = 1, order := v.orders }] }
    (s.replan n).answer ST.OK

/-- The shuttle takes the next command from its queue when its plan has room and its completion records are handed over
(R199, R297); `want` says for which KIND the command is. -/
def State.txTake (s : State) (n t : Nat) (want : Nat → Bool) : State :=
  let s := (s.advance t).txRelease n 17
  let v := s.trx n
  match (s.consumedBy (0x20 + n)).find? (fun q => (s.head? q).isSome) with
  | none => s
  | some q => match s.head? q with
    | none => s
    | some e =>
      let d := s.txDescAt e
      if v.held ≠ [] || 16 ≤ v.planned || !want d.kind then s
      else ((s.dequeue q).emit (.entry q e)).txAccept n d

/-- TX_CMD_DATA: a KIND 0 descriptor, or one whose KIND is refused (R201). -/
def execTxCmdData (trx : Fin 4) (t : Nat) (s : State) : Res := .next (s.txTake trx t (fun k => k = 0 || 4 < k))

/-- TX_CMD_BRAID_OPEN: a KIND 1 descriptor opens a braid (R207). -/
def execTxCmdBraidOpen (trx : Fin 4) (t : Nat) (s : State) : Res := .next (s.txTake trx t (· == 1))

/-- TX_CMD_BRAID_APPEND: a KIND 2 descriptor joins the open braid (R210). -/
def execTxCmdBraidAppend (trx : Fin 4) (t : Nat) (s : State) : Res := .next (s.txTake trx t (· == 2))

/-- TX_CMD_ENHANCED_BEACON: a KIND 3 descriptor (R201). -/
def execTxCmdEnhancedBeacon (trx : Fin 4) (t : Nat) (s : State) : Res := .next (s.txTake trx t (· == 3))

/-- TX_CMD_WAKE_KEYING: a KIND 4 descriptor (R212 to R214). -/
def execTxCmdWakeKeying (trx : Fin 4) (t : Nat) (s : State) : Res := .next (s.txTake trx t (· == 4))

/-- TX_LATE_DROP: the head of the plan is planned anew and dropped when it cannot meet its latest departure (R203). -/
def execTxLateDrop (trx : Fin 4) (t : Nat) (s : State) : Res :=
  let n : Nat := trx
  let s := (s.advance t).replan n
  match planHead (s.trx n).plan with
  | none => .next s
  | some c => if c.latest < s.planDep n c then .next ((s.txDrop n c (ST.TX_LATE n)).replan n) else .next s

/-! ### Launch (R161, R166, R205, R241) -/

/-- The step into TX begins: the transceiver's lanes are blanked; each reception lost so is counted, as lost to a transmitting slot
where the transceiver transmits in the slot's cell (R241). -/
def State.launchBlank (s : State) (n : Nat) : State :=
  let live := ((s.lanesOf n).filter (fun l => s.laneState l = 2 || s.laneState l = 3)).length
  let slotTx := match s.mac.slot with
    | none => false
    | some a => Store.find? n s.mac.txSlots = some a || (match Store.find? a s.mac.plans with
      | none => false
      | some p => p.txs.any (fun x => x.trx == n))
  let s := s.blankTrx n
  if live = 0 then s
  else (s.addF (if slotTx then R.MAC_CELL_COUNT2_TX_LOST else R.MAC_ACK_COUNT1_LOST) live).raise R.MAC_EVENT_RX_LOST

/-- The kind of a command. -/
def TxCmd.kind (c : TxCmd) : Nat := match c.members with | m :: _ => m.desc.kind | [] => 0

/-- The transmit port of a command (Table 09.1): for a braid the open's. -/
def TxCmd.portB (c : TxCmd) : Bool := match c.members with | m :: _ => bitOf m.desc.flags 0 | [] => false

/-- When FEM_PA_EN rises for a transmission launched at `from_` (R161, R162). -/
def State.paLead (s : State) (n from_ dep : Nat) : Nat := max from_ (dep - 1320 - 4 * s.getF (R.TRX_FEM_PA_LEAD n))

/-- A transmission launches: lines of Table 07.4, blanking, the step into TX, the self-interference interval; its request, which has
risen as the head's or rises at once. -/
def State.launch (s : State) (n : Nat) (c : TxCmd) : State :=
  let rise := s.paLead n s.mtb c.dep
  let s := (((s.lnaLow n).emit (.line n 3 c.portB s.mtb)).launchBlank n).siKeep n
  let s := if s.coexOn n then
      let v := s.trx n
      match v.coexNext with
      | some (_, p) => s.setTrx n { v with coex := true, prio := p, coexNext := none }
      | none => (s.setTrx n { v with coex := true, prio := s.coexPrio n c.kind }).coexLines n s.mtb
    else s
  let v := s.trx n
  let tail := 1320 + 4 * (s.getF (R.TRX_FEM_PA_LAG n) + s.getF (R.TRX_BLANK_TAIL n))
  let s := s.setTrx n { v with
    plan := v.plan.filter (fun x => x.order != c.order), onAir := some c, step := some (4, c.dep),
    siFrom := rise, siTo := c.fin + tail, up := false, lag := none, ending := none }
  ((s.setF (R.TRX_STATE_MOVING n) 1).setF (R.TRX_TX_STAT_LAUNCHED n) 1).replan n

/-- A write of PA_LEAD applies to a transmission that has launched, whose commit has not passed and for which FEM_PA_EN has not risen
(R162). -/
def State.leadWritten (s : State) (n : Nat) : State :=
  let v := s.trx n
  match v.onAir, v.step with
  | some c, some (4, d) =>
    if v.up || v.lag.isSome || v.siFrom ≤ s.mtb then s
    else
      let from_ := d - (if s.trxTarget n = 3 then 31680 else 23760)
      s.setTrx n { v with siFrom := max s.mtb (s.paLead n from_ c.dep) }
  | _, _ => s

/-- TX_LAUNCH: the launch time of the head of the plan has come; the hold and output-stop limits are checked (R203,
R205, R62). -/
def execTxLaunch (trx : Fin 4) (s : State) : Res :=
  let n : Nat := trx
  let v := s.trx n
  match planHead v.plan with
  | none => .next s
  | some c =>
    let st := s.trxState n
    if s.su.warm.isSome || !c.planned || st ≠ s.trxTarget n || !(st = 2 || st = 3) || v.step.isSome || v.calPending || v.onAir.isSome ||
        c.dep - intoTx st < s.mtb || c.latest < c.dep then .next s
    else
      let s := s.advance (c.dep - intoTx st)
      let hold := s.dev = devHoldInhibit || (match s.holdMark with | some m => decide (m ≤ c.fin) | none => false)
      let fence := match s.outputStop with | some m => decide (m ≤ c.fin) | none => false
      if hold then .next ((s.txDrop n c ST.CLK_TX_INHIBIT).replan n)
      else if fence then .next ((s.txDrop n c (ST.TX_FENCE n)).replan n)
      else .next (s.launch n c)

/-! ### Commit (R159, R163, R209) -/

/-- The per-member power reduction, in 0.5 dB steps (Table 09.4). -/
def braidCut (budget : Nat) : Nat := [0, 0, 7, 10, 13, 14, 16, 17, 19].getD budget 19

/-- The grant was low at the first member's commit: nothing goes on air, the request is withdrawn at once; FEM_PA_EN does not rise or,
where it has risen, falls (R163). -/
def State.coexLate (s : State) (n : Nat) (c : TxCmd) : State :=
  let s := ((s.bump (R.TRX_COUNT_COEX_LATE n)).raise (R.TRX_EVENT_COEX_LATE n)).setF (R.TRX_CMD_ERR_STATUS n)
    (ST.TRX_COEX_LATE n)
  let s := s.each c.members (fun s m => s.txDone n m (ST.TRX_COEX_LATE n) false false)
  ((s.paFalls n s.mtb).leaveTx n).replan n

/-- The first member of a transmission that is not committed, by departure. -/
def TxCmd.nextCommit (c : TxCmd) : Option TxMember :=
  firstBy (fun a b => a.dep < b.dep) (c.members.filter (fun m => !m.commit))

/-- The value of a picot, if the descriptor asks for one (R142): the ASN for an Enhanced Beacon; for an acknowledgement the Time
Correction that the MAC holds under the command's TAG. -/
def State.picot (s : State) (d : TxDesc) (dep : Nat) : Option Int :=
  if !bitOf d.flags 1 then none
  else if d.kind = 3 then some (s.asn dep)
  else if d.psdu.isEmpty then none
  else match Store.find? d.tag s.mac.cmds with
    | some c => c.tc
    | none => none

/-- The PSDU that goes on air with its FCS (R197): the octets at BUF or those that the MAC handed over, the picot in its place, then
CCM* for a frame of the MAC's that is secured at its commit (R142). -/
def State.airPsdu (s : State) (d : TxDesc) (dep : Nat) : List Nat :=
  let raw := if d.psdu.isEmpty then nats (s.readBytes d.buf d.len) else d.psdu
  let l := match s.picot d dep with | some v => picotIn d.kind v raw | none => raw
  let x := if d.psdu.isEmpty then none else match Store.find? d.tag s.mac.cmds with | some c => c.sealed | none => none
  withFcs (bitOf d.flags 3) (match x with | some x => sealFrame x l | none => l)

/-- The wake-up sequence before a frame of the MAC's to a CSL node (R244, R253). -/
def State.airWakeUps (s : State) (d : TxDesc) (dep : Nat) : List (Nat × List Nat) :=
  match (if d.wus = 0 then none else Store.find? d.tag s.mac.cmds) with
  | some { wakes := some (n, pan), .. } => s.wakeUps n pan d.phy dep d.wus (bitOf d.flags 3)
  | _ => []

/-- What goes on air for a member whose power is fixed: its generator's channel offset (R168) with the frame's octets, or the chips of a
wake-keying frame. A braid's members take the generators in order (R197). -/
def State.onAirOut (s : State) (n gen : Nat) (m : TxMember) (power : Int) : State :=
  let d := m.desc
  let off : Int := match s.trxRec n with | some r => chanSteps n ((d.chanKhz : Int) - r.centreKhz) | none => 0
  if d.kind = 4 then
    s.emit (.wake n d m.dep power off (chipCyc m.rate)
      (wakeChips (wakeBits m.pre (d.buf % 256) d.len (d.buf / 65536))))
  else
    let w := s.airWakeUps d m.dep
    let s := if w.isEmpty then s else s.emit (.wakeUp n w)
    s.emit (.radio n gen d m.dep power (s.picot d m.dep) off (s.airPsdu d m.dep))

/-- TX_COMMIT: 1,024 dcyc before a member's departure its power is fixed and its picot written; at the first member the
coexistence grant is sampled. -/
def execTxCommit (trx : Fin 4) (grant : Bool) (s : State) : Res :=
  let n : Nat := trx
  let v := s.trx n
  match v.onAir with
  | none => .next s
  | some c => match c.nextCommit with
    | none => .next s
    | some m =>
      let s := s.advance (m.dep - 4096)
      let first := c.members.all (fun x => !x.commit)
      if s.coexOn n && first && !grant then .next (s.coexLate n c)
      else
        let limit := signed 8 (s.getF (R.TRX_PWR_LIMIT n))
        let cap := if c.braid then limit - braidCut c.budget else limit
        let ask := if m.desc.power = 0x80 then signed 8 (s.getF (R.TRX_PWR_DEFAULT n)) else signed 8 m.desc.power
        let power := min ask cap
        let m1 : TxMember := { m with power := unsigned 8 power, clipped := decide (cap < ask), commit := true }
        let c1 : TxCmd := { c with members := c.members.map (fun (x : TxMember) =>
          if x.desc = m.desc && x.dep = m.dep && !x.commit then m1 else x) }
        let lag := match (s.trx n).lag with | some k => k | none => s.getF (R.TRX_FEM_PA_LAG n)
        let s := (s.setTrx n { s.trx n with onAir := some c1, lag := some lag }).paRise n
        let tooMuch := decide (limit < ask)
        let s := if tooMuch then (s.bump (R.TRX_COUNT_PWR_CLIP n)).raise (R.TRX_EVENT_PWR_CLIP n) else s
        let gen := match c.members.findIdx? (fun x => x.desc = m.desc && x.dep = m.dep) with | some k => k | none => 0
        .next (s.onAirOut n gen m1 power)

/-- TX_END: the last symbol ends (R151, R205), or the symbol at whose boundary an early end waits (R206). -/
def execTxEnd (trx : Fin 4) (s : State) : Res :=
  let n : Nat := trx
  let v := s.trx n
  match v.onAir with
  | none => .next s
  | some c => match v.ending with
    | some (st, e) => .next ((s.advance e).txStop n (some st))
    | none => if c.members.all (·.commit) then .next ((s.advance c.fin).txStop n none) else .next s

end Sys2Proof.Machine
end

