-- ==== Sys2Proof/Machine/MacOps.lean ====
section
/-!
DEFINITION. Shared operations of the MAC (10_slots_and_access.md): PANs, the duty account, commands to the shuttles, outbound
counters (R449), the pending store, channel access, acknowledgement grouping.
-/
namespace Sys2Proof.Machine

/-! ### PANs and frames -/

/-- A TSCH PAN; a PAN that MAC_CTRL enables. -/
def State.tsch (s : State) (p : Nat) : Bool := match s.panRec p with | some r => r.access = 1 | none => false
def State.panEnabled (s : State) (p : Nat) : Bool := bitOf (s.getF R.MAC_CTRL_PAN_EN) p && (s.panRec p).isSome

/-- Column `k` of a PAN's timeslot template, in cyc (R218). -/
def State.tpl (s : State) (p k : Nat) : Nat := match s.panRec p with | some r => usToCyc (tplUs r.template k) | none => 0

/-- The pair role lets the unit transmit: ALONE or ACTIVE (R242). -/
def State.roleSends (s : State) : Bool := s.pairRole < 2

/-- FCS octets of a frame that the device originates in a mode. -/
def fcsOctets (phy : Nat) : Nat := if phyFamily phy = 3 then 2 else 4

/-- Octets of a request's frame as it goes on air, FCS excluded. -/
def TxReq.octets (r : TxReq) : Nat := r.len + secOctets r.sec r.key

/-- Its airtime in a mode. -/
def TxReq.air (r : TxReq) (phy : Nat) : Nat := airCyc phy (r.octets + fcsOctets phy)

/-- A node that the sleepy-node scheduler serves (R244): its state is not OFF. -/
def State.tracked (s : State) (n : Nat) : Bool := n < s.pr.table.nodeLimit && s.recGet n 129 1 ≠ 0 && s.recGet n 128 1 ≠ 0

/-- The transmit path of a frame on transceiver `n` (R358). -/
def State.pathOf (s : State) (r : TxReq) (n : Nat) : Nat := if r.node = nodeNone then s.pathAny n else s.txPath r.node n

def State.frame? (s : State) (id : Nat) : Option Frame := Store.find? id s.mac.frames
def State.putFrame (s : State) (id : Nat) (f : Frame) : State :=
  { s with mac := { s.mac with frames := Store.put id f s.mac.frames } }
def State.delFrame (s : State) (id : Nat) : State := { s with mac := { s.mac with frames := Store.del id s.mac.frames } }

/-- No earlier frame to the same next hop is pending (R225). -/
def State.hopHead (s : State) (id : Nat) (f : Frame) : Bool :=
  !s.mac.frames.any (fun g => g.1 < id && g.2.state != .complete && g.2.req.node = f.req.node &&
    (f.req.node != nodeNone || g.2.req.pan = f.req.pan))

/-- The oldest pending frame for a node. -/
def State.headFor (s : State) (n : Nat) : Option (Nat × Frame) :=
  List.find? (fun (g : Nat × Frame) => g.2.req.node = n && g.2.state != .complete) s.mac.frames

/-! ### The duty account (R231) -/

def State.profileOf (s : State) (n : Nat) : Nat := match s.trxRec n with | some r => r.profile | none => 0
def dutyKey (p b : Nat) : Nat := p * 2 ^ 48 + b

/-- Length of a bucket of a profile, never 0. -/
def State.bucketCyc (s : State) (p : Nat) : Nat :=
  match s.pr.profiles[p]? with | some r => max 1 (r.windowS * 12890625) | none => 1

/-- Airtime in the present bucket, the 100 before it and those to come. -/
def State.dutyUsed (s : State) (p : Nat) : Nat :=
  let cur := s.mtb / s.bucketCyc p
  s.mac.duty.foldl (fun (u : Nat) (e : Nat × Nat) =>
    if e.1 / 2 ^ 48 = p && cur ≤ e.1 % 2 ^ 48 + 100 then u + e.2 else u) 0

/-- The check of R231 for a further airtime on a transceiver. -/
def State.dutyFits (s : State) (n air : Nat) : Bool :=
  let p := s.profileOf n
  match s.pr.profiles[p]? with
  | some r => (s.dutyUsed p + air) * 10000 ≤ r.windowS * 1289062500 * r.duty
  | none => false

/-- Airtime goes into the bucket of a departure, or back out of it. -/
def State.dutyAdd (s : State) (key air : Nat) : State :=
  let v := Store.get (fun _ => 0) s.mac.duty key
  { s with mac := { s.mac with duty := Store.set (fun _ => 0) s.mac.duty key (v + air) } }
def State.dutySub (s : State) (key air : Nat) : State :=
  let v := Store.get (fun _ => 0) s.mac.duty key
  { s with mac := { s.mac with duty := Store.set (fun _ => 0) s.mac.duty key (v - air) } }

/-- Whether the account of a profile refuses. -/
def State.setLimit (s : State) (p : Nat) (b : Bool) : State :=
  let s := s.raiseIf (b && !s.mac.atLimit.contains p) R.MAC_EVENT_DUTY_LIMIT
  { s with mac := { s.mac with atLimit := if b then withOne p s.mac.atLimit else without p s.mac.atLimit } }

/-- The account refuses a transmission, which is counted. -/
def State.dutyRefuse (s : State) (n : Nat) : State :=
  (s.setLimit (s.profileOf n) true).bump (R.MAC_DUTY_STAT_HELD.bank (s.profileOf n))

/-- The account takes a transmission's airtime; the key of its bucket. -/
def State.dutyTake (s : State) (n dep air : Nat) : Nat × State :=
  let p := s.profileOf n
  let k := dutyKey p (dep / s.bucketCyc p)
  (k, (s.setLimit p false).dutyAdd k air)

/-! ### Commands to the shuttles (R199, R297) -/

/-- A descriptor's octets (Table 09.1). -/
def TxDesc.bytes (d : TxDesc) : List Byte :=
  leBytes 8 d.tDep ++ leBytes 4 d.slack ++ leBytes 2 d.tag ++ leBytes 1 d.kind ++ leBytes 1 d.flags ++ leBytes 2 d.phy ++
  leBytes 1 d.power ++ [0] ++ leBytes 4 d.chanKhz ++ leBytes 4 d.buf ++ leBytes 4 d.len ++
  (if d.wus = 0 && d.psdu.isEmpty then [] else leBytes 4 d.wus ++ d.psdu.map (fun x => BitVec.ofNat 8 x))

/-- The queue over which the MAC reaches a shuttle, and the one that takes its completions of R224. -/
def State.cmdQueue (s : State) (n : Nat) : Option Nat :=
  (s.producedBy 0x30).find? (fun q => match s.queueRec q with | some r => r.consumer = 0x20 + n | none => false)
def State.doneQueueMac (s : State) : Option Nat :=
  (s.producedBy 0x30).find? (fun q => match s.queueRec q with | some r => !(0x20 ≤ r.consumer && r.consumer ≤ 0x23) | none => false)

/-- Hand over what the MAC holds for the shuttles, as far as there are credits. -/
def State.macSend (s : State) : State :=
  let held := s.mac.held
  s.each held (fun s h =>
    match s.cmdQueue h.1 with
    | none => s
    | some q =>
      if (s.queue q).credit 0x30 = 0 then s
      else
        let e : Entry := ⟨s.freeVal % 2 ^ 32, 32, 3, 0x30, h.2.1, 0, h.2.2.2, 0⟩
        let s := { s.useFree with mac := { s.mac with held := s.mac.held.filter (fun x => x.2.1 != h.2.1) } }
        s.queueTake q e)

/-- The MAC issues a command under its next TAG. -/
def State.macIssue (s : State) (n : Nat) (d : TxDesc) (c : MacCmd) : State :=
  let tag := s.mac.nextTag
  let d := { d with tag := tag }
  State.macSend { s with mac := { s.mac with
    cmds := Store.put tag c s.mac.cmds, nextTag := (tag + 1) % 65536,
    held := s.mac.held ++ [(n, tag, d.tDep + d.slack, d.bytes)] } }

/-! ### Outbound counters (R22, R449) -/

/-- Base of the band of a situation (Table 20.4), for a node with mirrored end `m`. -/
def State.bandBase (s : State) (m : Nat) : Nat :=
  if s.pa.situation = 2 then m + 2 ^ 20
  else if s.pa.situation = 3 then m + (2 + s.getF R.PAIR_STATE_PREF) * 2 ^ 20 else m

/-- The fix of one node by the takeover scan (R450). -/
def State.fixNode (s : State) (n : Nat) : State :=
  let e := s.recGet n 76 4
  if s.isSet R.PAIR_FIX_STALE then
    let s := { s with pa := { s.pa with bands := Store.put n (e, 2) s.pa.bands } }
    (s.recPut n 76 4 (e + 2 ^ 20)).recPut n 72 4 (e + 2 ^ 20)
  else s.recPut n 72 4 e

/-- A counter taken for a node that the scan has not reached fixes the node first. -/
def State.fixFirst (s : State) (n : Nat) : State :=
  if s.isSet R.PAIR_FIX_RUNNING && s.getF R.PAIR_FIX_NEXT ≤ n && !s.pa.fixed.contains n then
    ({ s with pa := { s.pa with fixed := s.pa.fixed ++ [n] } }).fixNode n
  else s

/-- A node's reservation is extended (R449); the second component says that the band is used up. -/
def State.reserve (s : State) (n : Nat) : State × Bool :=
  let e := s.recGet n 76 4
  let mode := s.getF R.PAIR_STATE_MODE
  if !s.pairOn || s.pairRole ≠ 1 then (s.recPut n 76 4 (e + 256), false)
  else if mode = 1 then (s, false)
  else if mode = 0 then
    if (Store.find? n s.pa.waits).isSome then (s, false)
    else
      let s := { s with pa := { s.pa with waits := Store.put n (s.pa.nextSeq, e) s.pa.waits } }
      let s := s.writeNat (s.recAddr n 76) 4 (e + 256)
      (s.journalAdd 1 true 0 (256 * n + 76) (leBytes 4 (e + 256)), false)
  else
    let entered : State × Nat := match Store.find? n s.pa.bands with
      | some (m, k) => if k = s.pa.situation then (s, s.bandBase m) else
          let base := s.bandBase m
          let s := { s with pa := { s.pa with bands := Store.put n (m, s.pa.situation) s.pa.bands } }
          (if e < base then (s.recPut n 76 4 base).recPut n 72 4 base else s, base)
      | none =>
          let base := s.bandBase e
          let s := { s with pa := { s.pa with bands := Store.put n (e, s.pa.situation) s.pa.bands } }
          (if e < base then (s.recPut n 76 4 base).recPut n 72 4 base else s, base)
    let s := entered.1
    let e := s.recGet n 76 4
    if entered.2 + 2 ^ 20 < e + 256 then (s, true) else (s.recPut n 76 4 (e + 256), false)

/-- What taking a counter answers. -/
inductive Taken where
  | got (c : Nat)
  | hold
  | limit
  deriving DecidableEq, Repr

/-- take_out_cnt (R449): a counter, or the frame waits for its reservation, or the band is used up. -/
def State.takeCounter (s : State) (n : Nat) : Taken × State :=
  let s := s.fixFirst n
  let r := if s.recGet n 76 4 ≤ s.recGet n 72 4 + 64 then s.reserve n else (s, false)
  let s := r.1
  let c := s.recGet n 72 4
  let limit := match Store.find? n s.pa.waits with | some (_, e) => e | none => s.recGet n 76 4
  if r.2 then (.limit, (s.raise R.PAIR_EVENT_COUNTER_LIMIT))
  else if limit ≤ c then (.hold, s)
  else (.got c, s.recPut n 72 4 (c + 1))

/-! ### The pending store (R224, R225, R297) -/

/-- Completion records go to the MAC's queue as far as there are credits; a frame leaves the store with its record. -/
def State.frameRelease (s : State) : State :=
  s.each (s.mac.frames.filter (fun f => f.2.state = .complete)) (fun s f =>
    match s.doneQueueMac with
    | none => s.delFrame f.1
    | some q =>
      if (s.queue q).credit 0x30 = 0 then s
      else
        let d := leBytes 8 f.2.sent ++ leBytes 2 f.2.req.tag ++ leBytes 2 f.2.status ++ leBytes 1 f.2.tries ++ leBytes 3 0
        let e : Entry := ⟨s.freeVal % 2 ^ 32, 16, 3, 0x30, f.2.req.tag, 0, d, 0⟩
        (s.useFree.delFrame f.1).queueTake q e)

/-- A frame completes with a status; one of the scheduler's own leaves no record. -/
def State.frameEnd (s : State) (id st : Nat) : State :=
  match s.frame? id with
  | none => s
  | some f =>
    if f.keepAlive then s.delFrame id else (s.putFrame id { f with state := .complete, status := st }).frameRelease

/-- Every pending frame that `which` names completes with a status. -/
def State.flushFrames (s : State) (which : Frame → Bool) (st : Nat) : State :=
  let ids := (s.mac.frames.filter (fun f => which f.2 && f.2.state != .complete)).map (·.1)
  let s := s.each ids (fun s id => s.frameEnd id st)
  let gone := fun (o : CmdOf) => match o with | .frame id => ids.contains id | _ => false
  { s with mac := { s.mac with
    senses := s.mac.senses.filter (fun x => !gone x.2.of),
    senseWait := s.mac.senseWait.filter (fun x => !gone x.2.of) } }

/-- An attempt that did not count: the frame waits again, to be secured anew (R225). -/
def State.frameAgain (s : State) (id : Nat) : State :=
  match s.frame? id with
  | none => s
  | some f => s.putFrame id { f with state := .waiting, counter := none, octets := [] }

/-- A frame's MPDU before it is secured: the scheduler's own, or the octets at BUF, with the frame pending bit that the request asks
for. -/
def State.mpdu (s : State) (f : Frame) : List Nat :=
  pendingBit (if f.plain.isEmpty then nats (s.readBytes f.req.buf f.req.len) else f.plain) f.req.fp

/-- The octets of a frame under a counter (R225): an auxiliary security header and CCM* where it is secured. -/
def State.formed (s : State) (f : Frame) (counter : Nat) : List Nat :=
  let r := f.req
  if r.sec = 0 then s.mpdu f
  else
    let index := s.getF (R.MAC_PAN_KEY_KEY_INDEX.bank r.pan)
    let l := addAux (s.mpdu f) r.sec r.key index counter
    sealFrame ⟨r.sec, if r.key = 1 then s.groupKey r.pan else s.nodeKey r.node, counter, mhrLen l⟩ l

/-- A frame gets its octets, secured if it has to be, unless it is resent with the same ones (R225): done, or why not. The counter of
a broadcast is none of any node's and the spec names no store for it: a free value. -/
def State.secure (s : State) (id : Nat) (f : Frame) : Bool × State :=
  if f.octets ≠ [] then (true, s)
  else
    let form := fun (s : State) (c : Nat) => s.putFrame id { f with counter := some c, octets := s.formed f c }
    if f.req.sec = 0 then (true, s.putFrame id { f with octets := s.formed f 0 })
    else if f.req.node = nodeNone then (true, (form s (s.freeVal % 2 ^ 32)).useFree)
    else match s.takeCounter f.req.node with
      | (.got c, s) => (true, form s c)
      | (.hold, s) => (false, s)
      | (.limit, s) => (false, s.flushFrames (fun g => g.req.node = f.req.node) ST.PAIR_COUNTER_LIMIT)

/-- A frame may still be sent in slot `a` (R225). -/
def Frame.inTime (f : Frame) (a : Nat) : Bool := f.req.deadline = 0xFFFFFFFFFF || decide (a ≤ f.req.deadline)

/-- A frame that is not with a shuttle, awaits no acknowledgement and has not completed. -/
def Frame.free (f : Frame) : Bool := f.state == .waiting || f.state == .backoff || f.state == .sense

/-- No data frame, beacon or wake-keying frame may leave on the transceiver now (R232). -/
def State.offWait (s : State) (n : Nat) : Bool :=
  s.mtb < Store.get (fun _ => 0) s.mac.off n ||
  ((match s.trxProfile n with | some p => p.offMs ≠ 0 | none => false) &&
    s.mac.cmds.any (fun c => c.2.trx = n && (match c.2.of with | .ack _ => false | _ => true)))

/-- The fields of R248 of a node's sleep state. -/
def State.modelOf (s : State) (n : Nat) : NodeModel :=
  let g := fun (o z : Nat) => s.recGet n (128 + o) z
  ⟨g 4 8, signed 32 (g 12 4), signed 16 (g 16 2), g 20 4, g 18 2⟩

/-- Issue a frame on a transceiver (R225, R231, R232): it is secured, its airtime reserved, its command issued; otherwise, and after
its DEADLINE slot, it goes on waiting. -/
def State.issueFrame (s : State) (id n phy chan tDep slack wus : Nat) (shift : Option Int) (shared : Bool) : State :=
  match s.frame? id with
  | none => s
  | some f =>
    let air := wus + f.req.air phy
    if !f.free || !s.roleSends then s
    else if s.offWait n || !f.inTime (s.asn (tDep + wus)) then s.putFrame id { f with state := .waiting }
    else if !s.dutyFits n air then (s.putFrame id { f with state := .waiting, held := true }).dutyRefuse n
    else match s.secure id { f with state := .waiting } with
      | (false, s) => match s.frame? id with
        | some g => s.putFrame id (if g.state = .complete then g else { g with state := .waiting })
        | none => s
      | (true, s) =>
        let f := match s.frame? id with | some g => g | none => f
        let r := s.dutyTake n tDep air
        let flags := s.pathOf f.req n + (if fcsOctets phy = 4 then 8 else 0)
        let d : TxDesc := {
          tDep := tDep, slack := slack, tag := 0, kind := 0, flags := flags, phy := phy, power := f.req.power, chanKhz := chan,
          buf := s.freeVal % 2 ^ 32, len := f.octets.length, reserved := false, wus := wus, psdu := f.octets }
        let g : Frame := { f with
          state := .issued, held := false, trx := n, shift := shift, shared := shared, model := some (s.modelOf f.req.node) }
        (r.2.useFree.putFrame id g).macIssue n d
          { of := .frame id, trx := n, air := air, bucket := r.1,
            wakes := if wus = 0 then none else some (f.req.node, f.req.pan) }

/-! ### Carrier sense and CSMA-CA (R228, R229) -/

/-- The transceiver is in RX. -/
def State.inRx (s : State) (n : Nat) : Bool := s.trxState n = 3 && (s.trx n).step.isNone

/-- A free sense tap of a transceiver. -/
def State.freeTap (s : State) (n : Nat) : Option Nat :=
  [2 * n, 2 * n + 1].find? (fun k => (Store.find? k s.mac.senses).isNone)

/-- A carrier sense starts, at its planned beginning or later, on a dcyc edge (R7), or waits for a tap or for RX (R228). -/
def State.senseAsk (s : State) (n : Nat) (x : Sense) : State :=
  match s.freeTap n with
  | some k =>
    if s.inRx n then
      let from_ := dcycEdge (max s.mtb x.from_)
      let until_ := from_ + divUp x.dur 32 * 41250
      { s with mac := { s.mac with senses := Store.put k { x with from_ := from_, until_ := until_ } s.mac.senses } }
    else { s with mac := { s.mac with senseWait := s.mac.senseWait ++ [(n, x)] } }
  | none => { s with mac := { s.mac with senseWait := s.mac.senseWait ++ [(n, x)] } }

/-- Carrier senses that waited start where they can. -/
def State.sensePoll (s : State) : State :=
  let w := s.mac.senseWait
  ({ s with mac := { s.mac with senseWait := [] } }).each w (fun s x => s.senseAsk x.1 x.2)

/-- LBT of a transceiver's profile, the length of its carrier sense in µs for a mode, and its threshold in dBm (R228). -/
def State.lbt (s : State) (n : Nat) : Bool := match s.trxProfile n with | some p => p.lbt = 1 | none => false
def State.ccaLen (s : State) (n phy : Nat) : Nat :=
  match s.trxProfile n with | some p => if p.lbt = 1 then p.ccaUs else ccaUs phy | none => ccaUs phy
def State.ccaThr (s : State) (n : Nat) : Int :=
  let own := signed 8 (s.getF R.MAC_CSMA_CFG_CCA_THR)
  match s.trxProfile n with | some p => if p.lbt = 1 then p.ccaThr else own | none => own

/-- The channel is busy (R228): the highest window, in 1/8 dB, dBm, exceeds the threshold, a lane on the channel is in SYNC or PAYLOAD,
or a window meets the self-interference interval. -/
def State.senseBusy (s : State) (n : Nat) (x : Sense) (level : Int) : Bool :=
  decide (8 * s.ccaThr n < level) || !s.inRx n || s.siMeets n x.from_ x.until_ ||
  (s.lanesOf n).any (fun l => (s.laneState l = 2 || s.laneState l = 3) && s.laneChan l = x.chan)

/-- The transceiver that serves a CSMA-CA request: the lowest of the PAN that reaches the channel in the mode. -/
def State.csmaTrx (s : State) (r : TxReq) : Option Nat :=
  match s.panRec r.pan with
  | none => none
  | some p => (List.range 4).find? (fun n => bitOf p.trxMask n &&
      (match s.trxRec n with | some t => phyBand r.phy t.band && inSpan t r.chan (occKhz r.phy) | none => false))

/-- An exponential back-off begins (R229). -/
def State.csmaBackoff (s : State) (id : Nat) (f : Frame) : State :=
  let until_ := s.mtb + usToCyc (s.freeVal % 2 ^ f.be * backoffUs f.req.phy)
  s.drbgUse.putFrame id { f with state := .backoff, until_ := until_ }

/-- Carrier sense for a frame. -/
def State.csmaSense (s : State) (id n : Nat) (f : Frame) : State :=
  (s.putFrame id { f with state := .sense }).senseAsk n
    { of := .frame id, chan := f.req.chan, dur := s.ccaLen n f.req.phy }

/-- The CSMA-CA frames that can start an attempt do so (R225, R229, R231, R232). -/
def State.csmaKick (s : State) : State :=
  if !s.roleSends then s
  else s.each (s.mac.frames.filter (fun f => f.2.state = .waiting && !s.tsch f.2.req.pan && !s.tracked f.2.req.node))
    (fun s f =>
      match s.frame? f.1, s.csmaTrx f.2.req with
      | some g, some n =>
        if g.state != .waiting || !g.inTime (s.asn s.mtb) || !s.hopHead f.1 g || s.offWait n || (g.held && !s.dutyFits n (g.req.air g.req.phy)) then s
        else
          let g : Frame := { g with be := s.getF R.MAC_CSMA_CFG_MIN_BE, nb := 0, held := false }
          if s.lbt n then s.csmaSense f.1 n g else s.csmaBackoff f.1 g
      | _, _ => s)

/-! ### Acknowledgements (R239, R240) -/

/-- PSDU octets of an owed acknowledgement, FCS included. -/
def Owed.octets (a : Owed) : Nat := a.body.length + (match a.sealed with | some x => micOctets x.level | none => 0) + a.fcs

/-- The latest departure of an owed acknowledgement. -/
def Owed.last (a : Owed) : Nat := a.nominal + a.slide

/-- Its place in time: by nominal departure, then by reception. -/
def owedBefore (a b : Owed) : Bool := a.nominal < b.nominal || (a.nominal = b.nominal && a.rx < b.rx)

/-- Insertion sort under an order. -/
def insertBy {α : Type} (before : α → α → Bool) (x : α) : List α → List α
  | [] => [x]
  | y :: ys => if before x y then x :: y :: ys else y :: insertBy before x ys
def sortBy {α : Type} (before : α → α → Bool) (l : List α) : List α := l.foldr (insertBy before) []

/-- What a transceiver owes, by nominal departure. -/
def State.owedOf (s : State) (n : Nat) : List Owed := sortBy owedBefore (s.mac.owed.filter (fun a => a.trx = n))

/-- An owed acknowledgement is no longer owed. -/
def State.unowe (s : State) (rx : Nat) : State :=
  { s with mac := { s.mac with owed := s.mac.owed.filter (fun a => a.rx != rx) } }

/-- An acknowledgement is given up and counted (R240). -/
def State.giveUp (s : State) (excess : Bool) : State :=
  let s := (s.bump R.MAC_ACK_COUNT0_GIVEN_UP).raise R.MAC_EVENT_ACK_GIVEN_UP
  if excess then s.bump R.MAC_ACK_COUNT1_EXCESS else s

/-- The live receptions of a transceiver (R239): those in SYNC or PAYLOAD. -/
def State.liveRx (s : State) (n : Nat) : List Rx :=
  (s.rd.rxs.filter (fun r => laneTrx r.2.lane = n && r.2.done = 0)).map (·.2)

/-- What R239 decides before the braid opens: the first departure and how many protected receptions ask for an acknowledgement. The
end of a reception whose header is not known is not known either: with KEEP such a reception is decided upon at the cut, and
outlasts every window there (DESIGN CHOICE, notes/assumptions/27.md). -/
def State.groupPlan (s : State) (n : Nat) (cut : Bool) : Nat → State × Option (Nat × Nat)
  | 0 => (s, none)
  | fuel + 1 =>
    match s.owedOf n with
    | [] => (s, none)
    | a1 :: rest =>
      let live := s.liveRx n
      let safe := fun (r : Rx) => r.known && decide (r.fin + 31680 ≤ a1.last)
      let open_ := fun (r : Rx) => if r.known then !safe r else cut
      match (if s.isSet R.MAC_ACK_CFG_KEEP then live.find? open_ else none) with
      | some r =>
        (s.each ((a1 :: rest).filter (fun a => !r.known || a.last < r.fin + 31680))
          (fun s a => (s.unowe a.rx).giveUp false)).groupPlan n cut fuel
      | none =>
        let prot := live.filter safe
        let first := prot.foldl (fun m r => max m (r.fin + 31680)) a1.nominal
        (s, some (dcycEdge first,
          (prot.filter (fun r => match r.hdr with | some h => h.ar | none => false)).length))

/-- The outbound counter of an acknowledgement (R237, R22): how it is secured, none where it is unsecured; or none at all when the
counter is not to be had. -/
def State.ackSeal (s : State) (a : Owed) : Option (Option Seal) × State :=
  match a.sealed with
  | none => (some none, s)
  | some x =>
    if a.node = nodeNone then (some (some { x with counter := s.freeVal % 2 ^ 32 }), s.useFree)
    else match s.takeCounter a.node with
      | (.got c, s) => (some (some { x with counter := c }), s)
      | (.hold, s) => (none, s)
      | (.limit, s) => (none, s.flushFrames (fun g => g.req.node = a.node) ST.PAIR_COUNTER_LIMIT)

/-- What a braid's occupancy grows by with a member that ends at `fin`, and the booking of it, at the braid's departure (R231). -/
def State.braidGrows (s : State) (n dep fin : Nat) : Nat :=
  match Store.find? n s.mac.braids with | some b => fin - b.fin | none => fin - dep
def State.braidTake (s : State) (n dep fin budget : Nat) : State :=
  let inc := s.braidGrows n dep fin
  match Store.find? n s.mac.braids with
  | some b =>
    let s := (s.setLimit (s.profileOf n) false).dutyAdd b.bucket inc
    let nb : Braid := { b with count := b.count + 1, fin := max b.fin fin }
    { s with mac := { s.mac with braids := Store.put n nb s.mac.braids } }
  | none =>
    let r := s.dutyTake n dep inc
    let nb : Braid := { dep := dep, budget := budget, count := 1, fin := fin, bucket := r.1 }
    { r.2 with mac := { r.2.mac with braids := Store.put n nb r.2.mac.braids } }

/-- An acknowledgement's command (R237, R239): KIND 1 for the first member of a braid, KIND 2 for the others. -/
def State.issueAck (s : State) (n : Nat) (a : Owed) (dep budget : Nat) (excess : Bool) : State :=
  let first := (Store.find? n s.mac.braids).isNone
  let air := airCyc a.phy a.octets
  match s.ackSeal a with
  | (none, s) => (s.unowe a.rx).giveUp false
  | (some x, s) =>
    let s := (s.unowe a.rx).braidTake n dep (dep + air) budget
    let flags := a.flags + (if a.tc.isSome then 2 else 0) + (if first then (budget - 1) * 16 else 0)
    let body := match x with | some x => putCounter a.body x.counter | none => a.body
    let d : TxDesc := {
      tDep := dep, slack := a.last - dep, tag := 0, kind := if first then 1 else 2, flags := flags, phy := a.phy,
      power := 0x80, chanKhz := a.chan, buf := s.freeVal % 2 ^ 32, len := a.octets - a.fcs, reserved := false, psdu := body }
    s.useFree.macIssue n d
      { of := .ack a.rx, trx := n, air := air, bucket := 0, tc := a.tc, excess := excess, obs := a.obs, sealed := x }

/-- One member joins the braid or opens it (R239, R240): given up when its window has closed or the duty account refuses it. -/
def State.addMember (s : State) (n first budget : Nat) (excess : Bool) (a : Owed) : State :=
  let dep := dcycEdge (max a.nominal first)
  if a.last < dep then (s.unowe a.rx).giveUp false
  else if !s.dutyFits n (s.braidGrows n dep (dep + airCyc a.phy a.octets)) then ((s.unowe a.rx).dutyRefuse n).giveUp false
  else s.issueAck n a dep budget excess

/-- An owed acknowledgement asks to join the open braid (R239, R210). -/
def State.appendAck (s : State) (n : Nat) (a : Owed) : State :=
  match Store.find? n s.mac.braids with
  | none => s
  | some b => s.addMember n b.dep b.budget (b.budget ≤ b.count) a

/-- Group the acknowledgements owed on a transceiver (R239): they join its open braid, or its cut is planned. -/
def State.group (s : State) (n : Nat) : State :=
  if (Store.find? n s.mac.braids).isSome then s.each (s.owedOf n) (fun s a => s.appendAck n a)
  else
    match s.groupPlan n false (s.mac.owed.length + 1) with
    | (s, none) => { s with mac := { s.mac with cuts := Store.del n s.mac.cuts } }
    | (s, some (dep1, _)) => { s with mac := { s.mac with cuts := Store.put n (dep1 - 48064) s.mac.cuts } }

/-- The cut (R239, R240): the braid opens with at most eight members; those with the latest nominal departures are in
excess. -/
def State.openBraid (s : State) (n dep1 prot : Nat) : State :=
  let owed := s.owedOf n
  let budget := min 8 (owed.length + prot)
  let s := s.each (owed.drop 8) (fun s a => (s.unowe a.rx).giveUp true)
  let s := s.each (owed.take 8) (fun s a => s.addMember n dep1 budget false a)
  { s with mac := { s.mac with cuts := Store.del n s.mac.cuts } }

/-- A braid of which no command is left is over: what it has booked beyond the end that its members reached goes back (R231). -/
def State.braidOver (s : State) (n : Nat) : State :=
  let left := s.mac.cmds.any (fun d => d.2.trx = n && (match d.2.of with | .ack _ => true | _ => false))
  match (if left then none else Store.find? n s.mac.braids) with
  | none => s
  | some b =>
    State.dutySub { s with mac := { s.mac with braids := Store.del n s.mac.braids } } b.bucket (b.fin - max b.dep b.done)

/-- What R243 ends on a change of pair role away from ALONE or ACTIVE, a warm reset or PARK: pending frames, owed
acknowledgements, cuts, carrier senses; no planned transmission becomes a command any more (R242), and what the commands not
yet handed over had booked goes back (R231). -/
def State.macFlush (s : State) : State :=
  let s := s.flushFrames (fun _ => true) ST.MAC_FLUSHED
  let s := s.each s.mac.owed (fun s _ => s.giveUp false)
  let gone := s.mac.held.map (fun h => h.2.1)
  let s := s.each (s.mac.cmds.filter (fun c => gone.contains c.1)) (fun s c =>
    match c.2.of with | .ack _ => s | _ => s.dutySub c.2.bucket c.2.air)
  let s : State := { s with mac := { s.mac with
    owed := [], cuts := [], senses := [], senseWait := [], held := [],
    plans := s.mac.plans.map (fun (p : Nat × SlotPlan) => (p.1, { p.2 with txs := [] })),
    cmds := s.mac.cmds.filter (fun c => !gone.contains c.1) } }
  s.each (List.range 4) State.braidOver

end Sys2Proof.Machine
end

