-- ==== Sys2Proof/Machine/SleepOps.lean ====
section
/-!
DEFINITION. The sleepy-node scheduler's clock model, opportunities, widening ladder, calls and T3 list
(11_sleepy_nodes.md).
-/
namespace Sys2Proof.Machine

/-! ### The sleep state (Table 11.1), at bytes 128 to 175 of the node record -/

def State.slGet (s : State) (n o z : Nat) : Nat := s.recGet n (128 + o) z
def State.slPut (s : State) (n o z v : Nat) : State := s.recPut n (128 + o) z v

/-- Its signed fields. -/
def State.slInt (s : State) (n o z : Nat) : Int := signed (8 * z) (s.slGet n o z)

def State.slMode (s : State) (n : Nat) : Nat := s.slGet n 0 1
def State.slState (s : State) (n : Nat) : Nat := s.slGet n 1 1
def State.slSet (s : State) (n st : Nat) : State := s.slPut n 1 1 st

/-- Consecutive missed attempts, and attempts or tries in the present ladder level. -/
def State.misses (s : State) (n : Nat) : Nat := s.slGet n 2 1 % 16
def State.attempts (s : State) (n : Nat) : Nat := s.slGet n 2 1 / 16
def State.setMisses (s : State) (n m a : Nat) : State := s.slPut n 2 1 (min 15 m + 16 * min 15 a)

/-- PAN record of a node. -/
def State.nodePan (s : State) (n : Nat) : Nat := s.recGet n 12 1

/-- A SLEEP event of a node: the event bit and SLEEP_LAST. -/
def State.sleepEvent (s : State) (n bit : Nat) : State :=
  ((s.raise ({ R.SLEEP_EVENT_MISPREDICT with lo := bit })).setF R.SLEEP_LAST_EVENT bit).setF R.SLEEP_LAST_NODE n

/-! ### Prediction (R248) -/

/-- The mesh-time scale in cyc (R247). -/
def State.meshCyc (s : State) (t : Nat) : Int := s.mesh32 t / (2 ^ 32 : Nat)

/-- Growth of the uncertainty, in 0.05 ppm. -/
def State.slRate (s : State) (n : Nat) : Int := (s.getF R.SLEEP_CFG_MARGIN + 2 * s.slGet n 18 2 : Nat)

/-- The node offset and its uncertainty at time `t` by a clock model (R248). -/
def State.predictBy (s : State) (m : NodeModel) (t : Nat) : Int × Int :=
  let dt := s.meshCyc t - (m.anchor : Nat)
  (m.oBase + Int.tdiv (m.drift * dt) 20000000,
   (m.uA : Int) + Int.tdiv ((s.getF R.SLEEP_CFG_MARGIN + 2 * m.spread : Nat) * dt) 20000000)

/-- The same by the model in force. -/
def State.predict (s : State) (n t : Nat) : Int × Int := s.predictBy (s.modelOf n) t

/-- G_eff, the steering limit and base, in cyc. -/
def State.gEff (s : State) (n : Nat) : Nat := usToCyc (s.slGet n 28 2 - s.getF R.SLEEP_GUARD_MARGIN_US)
def State.steer (s : State) : Nat := usToCyc (s.getF R.SLEEP_GUARD_STEER_US)
def State.slBase (s : State) : Nat := usToCyc (s.getF R.SLEEP_GUARD_BASE_US)

/-! ### Opportunities (R252) -/

/-- Length of the slotframe of a listen cell. -/
def State.listenLen (s : State) (n : Nat) : Nat :=
  s.getF (R.MAC_SF_CFG_LENGTH.bank (s.nodePan n * 8 + s.slGet n 30 2 % 8))

/-- The start of slot `a`, which has not begun or is in progress. -/
def State.slotAt (s : State) (a : Nat) : Nat := s.slotStart s.mtb ((a + 2 ^ 40 - s.asn s.mtb) % 2 ^ 40)

/-- The `k`-th opportunity from slot `a` on, as slot and instant. -/
def State.opp (s : State) (n a k : Nat) : Option (Nat × Nat) :=
  if s.slMode n = 2 then
    let l := s.listenLen n
    if l = 0 then none
    else
      let b := a + (s.slGet n 32 2 % l + l - a % l) % l + k * l
      some (b, s.slotAt b + s.tpl (s.nodePan n) 3)
  else match Store.find? n s.sl.csl with
    | none => none
    | some c =>
      if c.period = 0 then none
      else
        let t0 := s.slotAt a
        let i := c.at_ + divUp (t0 - c.at_) c.period * c.period + k * c.period
        some (s.asn i, i)

/-- The first slot that an action can still reach: its lane plan is not complete (R221, R258). -/
def State.firstSlot (s : State) : Nat :=
  let a := s.asn s.mtb
  if (Store.find? (a + 2) s.mac.plans).isSome then a + 3
  else if (Store.find? (a + 1) s.mac.plans).isSome then a + 2 else a + 1

/-! ### Links (R256, R257) -/

/-- The two ends' |r| + U_AB at a time, from the model now. -/
def State.linkGap (s : State) (a b t : Nat) : Int :=
  let pa := s.predict a s.mtb
  let pb := s.predict b s.mtb
  let dx : Int := (t : Int) - s.mtb
  let dr : Int := (s.slInt a 16 2 - s.slInt b 16 2).natAbs
  ((pa.1 - pb.1).natAbs : Int) + pa.2 + pb.2 + Int.tdiv (dr * dx) 20000000 +
    Int.tdiv ((s.slRate a + s.slRate b) * dx) 20000000

def State.linkG (s : State) (a b : Nat) : Nat := min (s.gEff a) (s.gEff b)

/-- The end of a link that is resynchronised: the one with the larger |o| + u, the lower node index on a tie. -/
def State.linkEnd (s : State) (a b : Nat) : Nat :=
  let w := fun (n : Nat) => let p := s.predict n s.mtb; (p.1.natAbs : Int) + p.2
  if w a = w b then min a b else if w a < w b then b else a

/-- The links of a node. -/
def State.linksOf (s : State) (n : Nat) : List (Nat × Nat) := s.sl.links.filter (fun l => l.1 = n || l.2 = n)

/-- The slot of a link's next cell from slot `a` on, as Ryurix's schedule in slotframe 1 has it (R377). -/
def State.linkCell (s : State) (l : Nat × Nat) (a : Nat) : Option Nat :=
  let len := max 1 (s.getF (R.MAC_SF_CFG_LENGTH.bank (s.nodePan l.1 * 8 + 1)))
  let own := s.ry.cells.filter (fun c => (c.src = l.1 && c.dst = l.2) || (c.src = l.2 && c.dst = l.1))
  own.foldl (fun (m : Option Nat) c =>
    let b := a + (c.slot % len + len - a % len) % len
    match m with | some x => some (min x b) | none => some b) none

/-- A link has drifted apart (R257); SLEEP_LAST names the end resynchronised last. -/
def State.linkDrift (s : State) (l : Nat × Nat) : State :=
  s.sleepEvent (if s.slGet l.1 4 8 < s.slGet l.2 4 8 then l.2 else l.1) 4

/-- The links of a node are held against their limit (R257): drift is reported where neither end has an opportunity before the link's
next cell. Where no cell of the link is known, neither has (DESIGN CHOICE, notes/assumptions/28.md). -/
def State.linkCheck (s : State) (n : Nat) : State :=
  s.each (s.linksOf n) (fun s l =>
    let a := s.firstSlot
    let late := fun (e : Nat) => match s.opp e a 0, s.linkCell l (s.asn s.mtb) with
      | some (b, _), some c => decide (c ≤ b)
      | _, _ => true
    if decide ((s.linkG l.1 l.2 : Int) < s.linkGap l.1 l.2 s.mtb) && late l.1 && late l.2 then s.linkDrift l else s)

/-! ### The due opportunity (R251, R256) -/

/-- What R251 asks of a node at an instant. -/
def State.ownFresh (s : State) (n t : Nat) : Bool :=
  let p := s.getF R.SLEEP_CFG_RESYNC_PCT
  let q := s.predict n t
  decide (q.2 ≤ (p * s.gEff n / 100 : Nat)) &&
  (s.slMode n = 1 || decide ((q.1.natAbs : Int) + q.2 ≤ (p * s.steer / 100 : Nat)))

/-- A link is not due at an instant (R256). -/
def State.linkFresh (s : State) (l : Nat × Nat) (t : Nat) : Bool :=
  decide (s.linkGap l.1 l.2 t < (s.getF R.SLEEP_CFG_RESYNC_PCT * s.linkG l.1 l.2 / 100 : Nat))

/-- What R251 and R256 ask of an instant: each end's due opportunity is the earlier of its own and its links'. -/
def State.notDue (s : State) (n t : Nat) : Bool := s.ownFresh n t && (s.linksOf n).all (fun l => s.linkFresh l t)

/-- The largest `k` in `lo … hi` for which `ok` holds, `ok lo` given and `ok` failing from some place on. -/
def lastOk (ok : Nat → Bool) : Nat → Nat → Nat → Nat
  | 0, lo, _ => lo
  | fuel + 1, lo, hi =>
    if hi ≤ lo then lo
    else
      let mid := (lo + hi + 1) / 2
      if ok mid then lastOk ok fuel mid hi else lastOk ok fuel lo (mid - 1)

/-- The slot of the due opportunity from slot `a` on: the last at which both conditions still hold; the next one when they
do not. -/
def State.dueSlot (s : State) (n a : Nat) : Option Nat :=
  let ok := fun (k : Nat) => match s.opp n a k with | some (_, t) => s.notDue n t | none => false
  match s.opp n a (if ok 0 then lastOk ok 25 0 16777216 else 0) with
  | some (b, _) => some b
  | none => none

/-! ### T3 (R258, R288) -/

/-- Write a node's T3 entry: it is on-die when the head cache has room or holds a later one, which it displaces. -/
def State.t3Put (s : State) (n key : Nat) : State :=
  let t := Store.del n s.sl.t3
  let cached := t.filter (fun e => e.2.onDie)
  let late := firstBy (fun (a b : Nat × Wake) => b.2.key < a.2.key || (b.2.key = a.2.key && b.2.order < a.2.order)) cached
  let room := decide (cached.length < 4096)
  let t := match late with
    | some (m, w) => if !room && key < w.key then Store.put m { w with onDie := false } t else t
    | none => t
  let onDie := room || (match late with | some (_, w) => decide (key < w.key) | none => false)
  { s with sl := { s.sl with t3 := Store.put n ⟨key, s.sl.writes, onDie⟩ t, writes := s.sl.writes + 1 } }

def State.t3Del (s : State) (n : Nat) : State := { s with sl := { s.sl with t3 := Store.del n s.sl.t3 } }

/-- A node's entry is computed anew, its action slot at `a` or later (R258, R260). Where a node that must hold one has no opportunity
(its slotframe is not enabled, its CSL schedule not known), it is looked at again 256 slots on (DESIGN CHOICE,
notes/assumptions/28.md). -/
def State.t3From (s : State) (n a : Nat) : State :=
  let st := s.slState n
  let later := s.t3Put n (s.asn s.mtb + 256)
  let next := match s.opp n a 0 with | some (b, _) => s.t3Put n (b - 2) | none => later
  if !s.roleSends || !s.tracked n || st = 0 || st = 5 then s.t3Del n
  else if st = 1 then
    if (s.headFor n).isSome then s.t3Put n (s.asn s.mtb) else s.t3Del n
  else if st = 4 then next
  else if (s.headFor n).isSome || s.sl.early.contains n || st = 3 then next
  else match s.dueSlot n a with
    | some b => s.t3Put n (b - 2)
    | none => later

def State.t3Set (s : State) (n : Nat) : State := s.t3From n s.firstSlot

/-- What the scheduler had decided for a node is dropped. -/
def State.actDel (s : State) (n : Nat) : State := { s with sl := { s.sl with acts := Store.del n s.sl.acts } }
def State.callDel (s : State) (n : Nat) : State := { s with sl := { s.sl with calls := Store.del n s.sl.calls } }

/-- The entries of the other ends of a node's links are computed anew (R256). -/
def State.linkEnds (s : State) (n : Nat) : State :=
  s.each (s.linksOf n) (fun s l =>
    let o := if l.1 = n then l.2 else l.1
    if (Store.find? o s.sl.acts).isSome then s else s.t3Set o)

/-! ### Calls (R255) -/

/-- Level 2 is available: a valid wake address, a wake-capable transceiver, tries not 0. -/
def State.callOk (s : State) (n : Nat) : Bool :=
  bitOf (s.slGet n 3 1) 0 && s.getF R.SLEEP_LADDER_WK_TRIES ≠ 0 &&
  (match s.trxRec (s.slGet n 3 1 / 2 % 4) with | some r => r.wake = 1 | none => false)

/-- A node becomes UNREACHABLE (Table 11.2): its frames complete, its entry goes, its links have drifted (R257). -/
def State.unreachable (s : State) (n : Nat) : State :=
  let s := (((s.slSet n 5).t3Del n).actDel n).callDel n
  let s := s.flushFrames (fun f => f.req.node = n) ST.SLEEP_UNREACHABLE
  let s := s.sleepEvent n 3
  s.each (s.linksOf n) State.linkDrift

/-- Send a call, or keep it until the channel-access rules let it go. -/
def State.callSend (s : State) (n : Nat) : State :=
  let w := s.slGet n 3 1
  let trx := w / 2 % 4
  let seq := w / 8 % 8
  let csl := s.slMode n = 1
  let air := wakeCyc (s.getF (R.TRX_WAKE_RATE trx)) (s.getF (R.TRX_WAKE_PRE_BITS trx))
  let wait := { s with sl := { s.sl with calls := Store.put n {} s.sl.calls } }
  if s.offWait trx then wait
  else if !s.dutyFits trx air then wait.dutyRefuse trx
  else
    let r := s.dutyTake trx (s.mtb + 48064) air
    let param := if csl then s.getF R.SLEEP_WAKE_WK_PARAM else 0
    let s := (r.2.slPut n 3 1 (w % 8 + 8 * ((seq + 1) % 8) + w / 64 * 64)).bump R.SLEEP_COUNT2_HI
    let s := { s with sl := { s.sl with calls := Store.put n { issued := true } s.sl.calls } }
    s.macIssue trx
      { tDep := s.mtb + 48064, slack := 0xFFFFFFFF, tag := 0, kind := 4, flags := s.pathAny trx, phy := 0, power := 0x80,
        chanKhz := s.slGet n 40 3, buf := (if csl then 16 else 0) + seq + 65536 * param, len := s.slGet n 36 4,
        reserved := false }
      { of := .call n, trx := trx, air := air, bucket := r.1 }

/-- A node enters CALLING, or UNREACHABLE when it cannot be called (R253). -/
def State.enterCalling (s : State) (n : Nat) : State :=
  if s.callOk n then ((((s.slSet n 4).setMisses n 0 0).sleepEvent n 2).actDel n).callSend n
  else s.unreachable n

/-- A try has failed: the next call starts at once, or the node becomes UNREACHABLE. -/
def State.callFailed (s : State) (n : Nat) : State :=
  let k := s.attempts n + 1
  let s := (s.setMisses n (s.misses n) k).actDel n
  if s.getF R.SLEEP_LADDER_WK_TRIES ≤ k then s.unreachable n else s.callSend n

/-! ### Observations (R249) -/

/-- The ladder ends and the node is at level 0 (R254, Table 11.2). -/
def State.tracking (s : State) (n : Nat) : State :=
  let was := s.slState n
  let s := ((s.slSet n 2).setMisses n 0 0)
  let s := { s with sl := { s.sl with sweep := Store.del n s.sl.sweep, early := without n s.sl.early } }
  let s := s.callDel n
  let s := if was = 5 then s.sleepEvent n 6 else s
  ((s.linkCheck n).t3Set n).linkEnds n

/-- An observation (R249): offset `o` measured at `t`; `kind` 0 an acknowledged downstream frame, 1 a CSL IE with `unit_`
its phase unit in cyc, 2 an upstream frame whose acknowledgement has gone out, 3 any other; `cfo` from the note; `by_` the
model that judges it, none for the one in force (R250). -/
def State.observeNew (s : State) (n t : Nat) (o : Int) (kind unit_ : Nat) (cfo : Int) (by_ : Option NodeModel) : State :=
  let st := s.slState n
  let first := st = 1 || s.sl.fresh.contains n
  let p := s.predictBy (match by_ with | some m => m | none => s.modelOf n) t
  let dt := s.meshCyc t - (s.slGet n 4 8 : Nat)
  let drift := s.slInt n 16 2
  let spread := s.slGet n 18 2
  let filt := s.getF R.SLEEP_CFG_FILT
  let base := s.slBase + (if kind = 1 then unit_ / 2 else 0)
  let s := if first then
      (s.slPut n 16 2 (unsigned 16 cfo)).slPut n 18 2 (s.getF R.SLEEP_CFG_INIT_SPREAD)
    else if st ≠ 5 && decide ((1289062500 : Int) ≤ dt) then
      let x := Int.tdiv ((o - s.slInt n 12 4) * 20000000) dt
      let dev := (x - drift).natAbs
      let spread1 : Int := spread + ((dev : Int) - spread) / (2 ^ filt : Nat)
      if decide (p.2 < ((o - p.1).natAbs : Int)) then
        (((s.slPut n 16 2 (unsigned 16 x)).slPut n 18 2 (max spread1.toNat dev % 65536)).bump R.SLEEP_COUNT0_LO).sleepEvent n 0
      else
        (s.slPut n 16 2 (unsigned 16 (drift + (x - drift) / (2 ^ filt : Nat)))).slPut n 18 2 (spread1.toNat % 65536)
    else s
  let s := { s with sl := { s.sl with fresh := without n s.sl.fresh } }
  let s := s.slPut n 4 8 (unsigned 64 (s.meshCyc t))
  let ou : Int × Nat := if kind < 2 then (0, base) else if kind = 2 then (0, base + o.natAbs) else (o, base)
  let s := (s.slPut n 12 4 (unsigned 32 ou.1)).slPut n 20 4 ou.2
  s.tracking n

/-- Observations apply in time-stamp order (R250): one older than the last is not applied any more. -/
def State.observe (s : State) (n t : Nat) (o : Int) (kind unit_ : Nat) (cfo : Int) (by_ : Option NodeModel) : State :=
  let old := s.slState n ≠ 1 && s.slState n ≠ 5 && !s.sl.fresh.contains n && decide (s.meshCyc t < (s.slGet n 4 8 : Nat))
  if old then s else s.observeNew n t o kind unit_ cfo by_

/-- The acknowledgement of an upstream frame has gone out: the node corrects its clock (R249). -/
def State.observeAcked (s : State) (n t : Nat) (o : Int) : State :=
  if s.roleSends && s.tracked n && s.slState n = 2 && s.slGet n 4 8 = unsigned 64 (s.meshCyc t) then
    ((s.slPut n 12 4 0).slPut n 20 4 (s.slBase + o.natAbs)).t3Set n
  else s

/-! ### Attempts (R252 to R254) -/

/-- A missed attempt: `onAir` says that it went on air. A CSL node's U_W doubles in level 1 (R253, R254). -/
def State.missed (s : State) (n : Nat) (onAir : Bool) : State :=
  let st := s.slState n
  let s := s.actDel n
  let s := s.setMisses n (s.misses n + 1) (if st = 3 && onAir then s.attempts n + 1 else s.attempts n)
  let s := if st = 3 && s.slMode n = 1 then s.slPut n 24 4 (min (2 ^ 32 - 1) (2 * s.slGet n 24 4)) else s
  if st = 4 then s.callFailed n else s.t3Set n

/-- A keep-alive (R251): an empty data frame of version 2 with AR, secured at MIN_SEC under the link key. -/
def State.keepAlive (s : State) (n : Nat) : Nat × State :=
  let pan := s.nodePan n
  let sec := match s.panRec pan with | some r => r.minSec | none => 0
  let csl := Store.find? n s.sl.csl
  let phy := if s.slMode n = 1 then (match csl with | some c => c.phy | none => 0) else 0
  let chan := if s.slMode n = 1 then (match csl with | some c => c.chan | none => 0) else 0
  let id := s.mac.nextId
  let l := s.keepAliveFrame n pan (id % 256)
  let r : TxReq := { node := n, pan := pan, ar := true, fp := false, tag := 0, buf := 0, len := l.length, sec := sec, key := 0,
                     deadline := 0xFFFFFFFFFF, power := 0x80, phy := phy, chan := chan, reserved := false }
  let t := s.putFrame id { req := r, seq := some (id % 256), keepAlive := true, plain := l }
  (id, { t with mac := { t.mac with nextId := id + 1 } })

/-- The widening sweep (R253): the offset of place `p`, in units of G_eff: +2, −2, +4, −4, … -/
def sweepStep (p : Nat) : Int := if p % 2 = 0 then 2 * (p / 2 + 1 : Nat) else -(2 * (p / 2 + 1 : Nat) : Int)

/-- The next offset of the sweep that can be steered to; those skipped are counted. None when it is exhausted. -/
def State.sweepNext (s : State) (n : Nat) (o : Int) : Nat → Nat → State × Option (Nat × Int)
  | 0, _ => (s, none)
  | fuel + 1, p =>
    let g := s.gEff n
    let j := p / 2 + 1
    if s.slGet n 24 4 ≤ (2 * j - 1) * g then (s, none)
    else
      let shift := o + sweepStep p * g
      if shift.natAbs ≤ s.steer then (s, some (p, shift))
      else (s.bump R.SLEEP_COUNT1_LO).sweepNext n o fuel (p + 1)

/-- What the scheduler decides for a node's opportunity is put down. -/
def State.setAct (s : State) (n : Nat) (a : Act) : State := { s with sl := { s.sl with acts := Store.put n a s.sl.acts } }

/-- The rendezvous departure of a CSL attempt at an instant. -/
def cslDep (c : Csl) (t : Nat) (o : Int) : Nat := ((t : Int) - o - shrCyc c.phy).toNat

/-- Level 1 at an opportunity (R253). -/
def State.widened (s : State) (n slot t : Nat) : State :=
  let o := (s.predict n t).1
  if s.getF R.SLEEP_LADDER_SWEEP_MAX ≤ s.attempts n then s.enterCalling n
  else if s.slMode n = 2 then
    match s.sweepNext n o 4096 (Store.get (fun _ => 0) s.sl.sweep n) with
    | (s, none) => s.enterCalling n
    | (s, some (p, shift)) =>
      let s := { s with sl := { s.sl with sweep := Store.set (fun _ => 0) s.sl.sweep n (p + 1) } }
      s.setAct n { level := 1, slot := some slot, shift := shift }
  else match Store.find? n s.sl.csl with
    | none => s.enterCalling n
    | some c =>
      let uw := s.slGet n 24 4
      if msToCyc (s.getF R.SLEEP_LADDER_WUS_MAX_MS) < 2 * uw || s.onMs c.trx < 2 * uw then s.enterCalling n
      else s.setAct n { level := 1, dep := cslDep c t o - uw, wus := 2 * uw, shift := o }

/-- The scheduler chooses the ladder level at an opportunity (R253, Table 11.2). -/
def State.chooseLevel (s : State) (n slot t : Nat) : State :=
  let q := s.predict n t
  let leaf := s.slMode n = 2
  if s.slState n = 3 then s.widened n slot t
  else if s.slState n = 4 ||
      (decide (q.2 ≤ s.gEff n) && (!leaf || q.1.natAbs ≤ s.steer) && s.misses n < s.getF R.SLEEP_LADDER_RETRY_L0) then
    if leaf then s.setAct n { level := 0, slot := some slot, shift := q.1 }
    else match Store.find? n s.sl.csl with
      | none => s
      | some c => s.setAct n { level := 0, dep := cslDep c t q.1, shift := q.1 }
  else
    let s := (s.slSet n 3).slPut n 24 4 (2 * max q.2.toNat (s.gEff n))
    let s := ((s.setMisses n (s.misses n) 0).sleepEvent n 1)
    ({ s with sl := { s.sl with sweep := Store.del n s.sl.sweep } }).widened n slot t

/-- A CSL attempt has its carrier sense end 48,064 cyc before its departure (R252); with too little time or no tap left it
moves to the next opportunity. -/
def State.cslSense (s : State) (n id : Nat) (f : Frame) : State :=
  match Store.find? n s.sl.acts, Store.find? n s.sl.csl with
  | some a, some c =>
    let dur := divUp (s.ccaLen c.trx c.phy) 32 * 41250
    match s.freeTap c.trx with
    | some k =>
      if s.mtb ≤ a.dep - 48064 - dur && s.mtb + 48064 + dur ≤ a.dep then
        let x : Sense := { of := .frame id, chan := c.chan, dur := dur, from_ := a.dep - 48064 - dur, until_ := a.dep - 48064 }
        { (s.putFrame id { f with state := .sense }) with
          mac := { (s.putFrame id { f with state := .sense }).mac with senses := Store.put k x s.mac.senses } }
      else s.actDel n
    | none => s.actDel n
  | _, _ => s

/-- The opportunity at MAC slot `slot` of node `n`, time `t`, is prepared: a call's level, or what waits for the node, or a
keep-alive. -/
def State.sleepTry (s : State) (n slot t : Nat) : State :=
  let got : Nat × State := match s.headFor n with
    | some (id, _) => (id, s)
    | none => s.keepAlive n
  let s := got.2.chooseLevel n slot t
  let s := { s with sl := { s.sl with early := without n s.sl.early } }
  if (Store.find? n s.sl.acts).isNone then
    match s.frame? got.1 with
    | some f => if f.keepAlive then s.delFrame got.1 else s
    | none => s
  else
    let s := match s.slMode n, s.frame? got.1 with
      | 1, some f => s.cslSense n got.1 f
      | _, _ => s
    s.t3From n (slot + 1)

/-- What a rebuild can know of a CSL node's schedule (R247, R260): its sample instants follow ANCHOR at its period; the channel and mode
are those of the lowest fixed lane of its PAN's transceivers (DESIGN CHOICE, notes/assumptions/28.md: no mirrored field holds
them). -/
def State.cslRebuild (s : State) (n : Nat) : State :=
  let pan := s.nodePan n
  let trxs := match s.panRec pan with | some r => (List.range 4).filter (fun k => bitOf r.trxMask k) | none => []
  match (trxs.flatMap s.lanesOf).find? (fun l => s.fixedLane l) with
  | none => s
  | some l =>
    let unit_ := phaseUnit (s.lanePhy l)
    let period := s.slGet n 30 2 * unit_
    if s.slMode n ≠ 1 || period = 0 || (Store.find? n s.sl.csl).isSome then s
    else
      let at_ := s.mtb + (((s.slGet n 4 8 : Nat) - s.meshCyc s.mtb) % (period : Nat)).toNat
      let c : Csl := ⟨at_, period, unit_, s.laneChan l, s.lanePhy l, laneTrx l, pan⟩
      { s with sl := { s.sl with csl := Store.put n c s.sl.csl } }

/-- The scheduler acts for a node at its next opportunity (R259, R253). Where only a link of the node is due and its other end has the
larger |o| + u, that end is resynchronised at its next opportunity instead (R256). -/
def State.sleepAct (s : State) (n : Nat) : State :=
  let st := s.slState n
  let a := s.firstSlot
  if st = 1 then
    if (s.headFor n).isNone then s.t3Del n
    else if s.callOk n then (s.enterCalling n).t3Set n
    else s.t3Put n (match s.headFor n with | some (_, f) => f.req.deadline | none => 0)
  else match s.opp n a 0 with
    | none => s.t3Del n
    | some (slot, t) =>
      let alive := match Store.find? n s.sl.calls with | some c => c.alive | none => false
      let busy := match s.headFor n with | some (_, f) => f.state != .waiting | none => false
      let due := match s.opp n a 1 with | some (_, t1) => (s.linksOf n).filter (fun l => !s.linkFresh l t1) | none => []
      let own := match s.opp n a 1 with | some (_, t1) => !s.ownFresh n t1 | none => true
      let others := due.filter (fun l => s.linkEnd l.1 l.2 ≠ n)
      if busy || (Store.find? n s.sl.acts).isSome || (st = 4 && !alive) then s.t3From n (slot + 1)
      else if st = 2 && (s.headFor n).isNone && !s.sl.early.contains n && !own && others ≠ [] && others.length = due.length then
        (s.each (others.map (fun l => s.linkEnd l.1 l.2)) (fun s e =>
          State.t3Set { s with sl := { s.sl with early := withOne e s.sl.early } } e)).t3From n (slot + 1)
      else s.sleepTry n slot t

end Sys2Proof.Machine
end

