-- ==== Sys2Proof/Machine/MacDone.lean ====
section
/-!
DEFINITION. What follows the completion of a command that the MAC issued (R225, R226, R231, R240, R254, R255), and what the
MAC does whenever it acts.
-/
namespace Sys2Proof.Machine

/-- After a frame of a node has left the store: its T3 entry is computed anew. -/
def State.nodeNext (s : State) (n : Nat) : State := if s.tracked n then (s.actDel n).t3Set n else s

/-- How long after its last symbol a frame awaits its acknowledgement (R222; in a CSMA-CA PAN the turnaround and the SHR). -/
def State.ackWindow (s : State) (r : TxReq) (phy : Nat) : Nat :=
  if s.tsch r.pan then s.tpl r.pan 5 + s.tpl r.pan 8 else usToCyc (turnUs phy) + shrCyc phy

/-- A frame's command has completed at the shuttle (R225, R254). -/
def State.frameSent (s : State) (id : Nat) (c : MacCmd) (phy status sent : Nat) : State :=
  match s.frame? id with
  | none => s
  | some f =>
    let n := f.req.node
    let f : Frame := { f with tries := if sent = 0 then f.tries else f.tries + 1, sent := if sent = 0 then f.sent else sent }
    let level1 := match Store.find? n s.sl.acts with | some a => a.level == 1 | none => false
    let s := if s.tracked n && sent ≠ 0 then
        let s := if f.keepAlive then s.bump R.SLEEP_COUNT0_HI else s
        if level1 then s.bump R.SLEEP_COUNT1_HI else s
      else s
    if status ≠ ST.OK then
      let s := (s.putFrame id { f with state := .waiting, counter := none, octets := [] })
      if s.tracked n then s.missed n (sent ≠ 0) else s
    else if f.req.ar && n ≠ nodeNone then
      s.putFrame id { f with state := .ackWait, until_ := sent + c.air + s.ackWindow f.req phy }
    else ((s.putFrame id f).frameEnd id ST.OK).nodeNext n

/-- The call has gone out: the wait of R255 begins after its last chip, for a CSL node after PARAM as well. -/
def State.callSent (s : State) (n fin : Nat) : State :=
  let param := if s.slMode n = 1 then s.getF R.SLEEP_WAKE_WK_PARAM * 1320000 else 0
  let c : Call := { until_ := some (fin + param + msToCyc (s.getF R.SLEEP_WAKE_WK_WAIT_MS)), issued := true }
  { s with sl := { s.sl with calls := Store.put n c s.sl.calls } }

/-- An Enhanced Beacon has gone out (R227, R133). -/
def State.beaconSent (s : State) (pan trx sent : Nat) : State :=
  let k := pan * 4 + trx
  { s with
    mac := { s.mac with ebDue := without k s.mac.ebDue, ebLast := Store.put k (s.asn sent) s.mac.ebLast },
    tm := { s.tm with ebByWait := s.tm.ebByWait || s.ebByWaitOnly } }

/-- When a member of a transmission that departed at `sent` ended, early or as planned after `air` (R206, R231). -/
def State.endOf (s : State) (n sent air : Nat) : Nat :=
  match (s.trx n).ends.find? (fun e => e.1 = sent) with | some e => min e.2 (sent + air) | none => sent + air

/-- The completion of an acknowledgement's command: it is counted as sent or given up, its braid's end moves. -/
def State.ackDone (s : State) (c : MacCmd) (status sent : Nat) : State :=
  let s := if status = ST.OK then
      let s := s.bump R.MAC_ACK_COUNT0_SENT
      match c.obs with | some (n, t, o) => s.observeAcked n t o | none => s
    else s.giveUp (c.excess && status = ST.TX_BRAID_LIMIT c.trx)
  let s := match (if sent = 0 then none else Store.find? c.trx s.mac.braids) with
    | some b =>
      let nb : Braid := { b with done := max b.done (s.endOf c.trx sent c.air) }
      { s with mac := { s.mac with braids := Store.put c.trx nb s.mac.braids } }
    | none => s
  let s := s.braidOver c.trx
  if (Store.find? c.trx s.mac.braids).isSome then s else s.group c.trx

/-- A command's completion reaches the MAC: its airtime is settled (R231), and what it sent goes on. -/
def State.macComplete (s : State) (tag status sent : Nat) : State :=
  match Store.find? tag s.mac.cmds with
  | none => s
  | some c =>
    let s := { s with mac := { s.mac with cmds := Store.del tag s.mac.cmds } }
    let unused := if sent = 0 then c.air else if status = ST.OK then 0 else c.air - (s.endOf c.trx sent c.air - sent)
    let settled := if unused = 0 then s else s.dutySub c.bucket unused
    match c.of with
    | .ack _ => s.ackDone c status sent
    | .beacon pan => if status = ST.OK then settled.beaconSent pan c.trx sent else settled
    | .call n =>
      if settled.slState n ≠ 4 then settled
      else if status = ST.OK then settled.callSent n (sent + c.air) else settled.callFailed n
    | .frame id =>
      let phy := match s.frame? id with
        | none => 0x3000
        | some f => if f.req.phy ≠ 0 then f.req.phy else 0x3000
      settled.frameSent id c phy status sent

/-- Commands held beyond their latest departure complete with ST_TX_LATE (R297). -/
def State.heldLate (s : State) : State :=
  let late := s.mac.held.filter (fun h => h.2.2.1 < s.mtb)
  let s := { s with mac := { s.mac with held := s.mac.held.filter (fun h => s.mtb ≤ h.2.2.1) } }
  s.each late (fun s h => s.macComplete h.2.1 (ST.TX_LATE h.1) 0)

/-- Calls that the channel-access rules kept back are tried again. -/
def State.callKick (s : State) : State :=
  s.each (s.sl.calls.filter (fun c => !c.2.issued)) (fun s c => if s.slState c.1 = 4 then s.callSend c.1 else s)

/-- What the MAC does whenever it acts: what waited for a credit, a tap or the end of a hold goes on where it can. -/
def State.macTick (s : State) : State := (((s.heldLate.macSend.frameRelease).sensePoll).csmaKick).callKick

/-- CREDIT_RETURN: a returned credit becomes spendable by its producer; what a shuttle or the MAC holds for want of one goes on
(R296, R297). -/
def execCreditReturn (queue : Fin 256) (src : Fin 256) (s : State) : Res :=
  if (Store.get (fun _ => []) (s.queue queue).returning src).isEmpty then .next s
  else
    let s := s.creditBack queue src
    .next (if 0x20 ≤ src.val && src.val ≤ 0x23 then s.txRelease (src.val - 0x20) 17
      else if src.val = 0x30 then s.macTick else s)

/-- A signed number of µs in cyc, to the nearest, an exact half up (R6). -/
def usToCycInt (us : Int) : Int := (2 * us * 165000 + 128) / 256

/-- An acknowledgement accepted for the device completes the frame that awaits it (R226): on its transceiver, from its next
hop where the acknowledgement names one, with its sequence number. -/
def State.ackArrived (s : State) (r : Rx) (h : MacHdr) : State :=
  match List.find? (fun (f : Nat × Frame) => f.2.state = .ackWait && f.2.trx = laneTrx r.lane && f.2.sent < r.ts &&
      (r.node = nodeNone || f.2.req.node = r.node) && (match f.2.seq with | some q => q == h.seq | none => true)) s.mac.frames with
  | none => s
  | some (id, f) =>
    let n := f.req.node
    let s := s.frameEnd id ST.OK
    if s.tracked n then
      let s := s.actDel n
      match f.shift, r.clock.tc with
      | some sh, some tc => s.observe n r.ts (sh - usToCycInt tc) 0 0 r.cfo f.model
      | _, _ => s.tracking n
    else s.csmaKick

/-- No acknowledgement came in the window (R225, R254): the frame is resent with the same octets or completes. -/
def State.ackMissing (s : State) (id : Nat) (f : Frame) : State :=
  let n := f.req.node
  if s.tracked n then (s.putFrame id { f with state := .waiting }).missed n true
  else
    let leaf := s.tsch f.req.pan
    let limit := if leaf then s.getF R.MAC_TSCH_CFG_RETRIES else s.getF R.MAC_CSMA_CFG_RETRIES
    if limit ≤ f.resends then (s.raise R.MAC_EVENT_NO_ACK).frameEnd id ST.MAC_NO_ACK
    else
      let be := min (f.be + 1) (s.getF R.MAC_TSCH_CFG_MAX_BE)
      let g : Frame := { f with state := .waiting, resends := f.resends + 1 }
      if leaf && f.shared then s.drbgUse.putFrame id { g with be := be, skip := s.freeVal % 2 ^ f.be }
      else (s.putFrame id g).csmaKick

end Sys2Proof.Machine
end

