-- ==== Sys2Proof/Machine/Rx.lean ====
section
/-!
DEFINITION. The receive pipeline (01_anatomy.md, 10_slots_and_access.md, 12_pillow.md, 15_ground_tables.md): header checks,
lookup, node record, key unwrap, verdicts, what follows a verdict.
-/
namespace Sys2Proof.Machine

/-! ### Header checks (R233, rows 3 and 4) -/

/-- The PANs of a transceiver that are enabled. -/
def State.pansOf (s : State) (n : Nat) : List Nat :=
  (List.range s.pr.pans.length).filter (fun p =>
    s.panEnabled p && (match s.panRec p with | some r => bitOf r.trxMask n | none => false))

/-- The PAN record a header belongs to on a transceiver: by its destination PAN; for an acknowledgement without a
destination, the transceiver's lowest. -/
def State.hdrPan (s : State) (n : Nat) (h : MacHdr) : Option Nat :=
  if h.ftype = 2 && h.dstMode = 0 then (s.pansOf n).head?
  else (s.pansOf n).find? (fun p => match s.panRec p with | some r => r.panId == h.dstPan | none => false)

/-- The destination is the device itself in a PAN; or it or every node. -/
def State.toDevice (s : State) (p : Nat) (h : MacHdr) : Bool :=
  (h.dstMode = 2 && h.dst = s.ownShort p && h.dst ≠ 0xFFFF) || (h.dstMode = 3 && h.dst = Config.eui64)
def State.toUs (s : State) (p : Nat) (h : MacHdr) : Bool :=
  s.toDevice p h || (h.dstMode = 2 && h.dst = 0xFFFF) || (h.ftype = 2 && h.dstMode = 0)

/-- The verdict of the first header check that fails: 6 or 7; 0 when both pass. -/
def State.hdrBad (s : State) (n : Nat) (h : MacHdr) : Nat :=
  let pan := s.hdrPan n h
  let tsch := match pan with
    | some p => s.tsch p
    | none => (s.pansOf n) ≠ [] && (s.pansOf n).all s.tsch
  if !(h.ftype = 1 || h.ftype = 2 || h.ftype = 3) || 2 < h.version || (tsch && h.version ≠ 2) || h.counterSup ||
      (h.secured && 1 < h.kim) || h.unsupported then 6
  else match pan with
    | none => 7
    | some p => if s.toUs p h then 0 else 7

/-! ### The "none" record (R340) -/

/-- The PAN record of R338 for a source address. -/
def State.srcPanRec (s : State) (h : MacHdr) : Option Nat := s.panOfId h.srcPan

/-- Its 256 octets. -/
def State.noneRecord (s : State) (h : MacHdr) : List Byte :=
  (if h.srcMode = 3 then beBytes 8 h.src else leBytes 8 0) ++ leBytes 2 0 ++
  leBytes 2 (if h.srcMode = 2 then h.src else 0xFFFE) ++
  leBytes 1 (match s.srcPanRec h with | some p => p | none => 0xFF) ++
  List.replicate 43 0 ++ leBytes 4 nodeNone ++ List.replicate 196 0

/-! ### Pins, contexts -/

/-- The record buffer of a reception's task. -/
def State.rxRecord (s : State) (r : Rx) : Option Nat :=
  match r.task with
  | none => none
  | some i => match s.task? i with
    | none => none
    | some t => t.record.map recordAddr

/-- A number in the record copy in pin 2. -/
def State.copyGet (s : State) (r : Rx) (o z : Nat) : Nat :=
  match s.rxRecord r with
  | some a => s.readNat (a + o) z
  | none => 0

/-- A record goes into pin 2, and the task's flow is fixed (R273). -/
def State.pin2 (s : State) (k : Nat) (r : Rx) (node : Nat) (d : List Byte) : State :=
  match r.task, s.rxRecord r with
  | some i, some a =>
    let s := s.writeBytes a d
    let s := match s.task? i with | some t => s.putTask i { t with flow := some node } | none => s
    (s.pinFilled i 1 true a).putRx k { r with node := node, record := true }
  | _, _ => s.putRx k { r with node := node, record := true }

/-- A free context of an engine that runs (R412). -/
def State.freeCtx (s : State) : Option Nat :=
  (List.range 1024).find? (fun c => !s.ky.ctxs.contains c && !s.gatedOrPending (gateCcm (c / 256)))

/-- A reception takes a context. -/
def State.takeCtx (s : State) (k : Nat) (r : Rx) (c : Nat) : State :=
  let s := { s with ky := { s.ky with ctxs := s.ky.ctxs ++ [c] } }
  let s := match r.task with
    | some i => match s.task? i with | some t => s.putTask i { t with ctx := some c } | none => s
    | none => s
  s.putRx k { r with ctx := some c }

/-! ### Classification (R234, R235) -/

/-- Verdict of a secured frame's counter: 0, 2, 3 or 10. -/
def State.counterVerdict (s : State) (r : Rx) (h : MacHdr) : Nat :=
  let rec_ : Int := if bitOf (s.copyGet r 44 1) 0 then -1 else s.copyGet r 40 4
  let sh := Store.find? r.node s.mac.shadow
  let last : Int := match sh with | some (c, _) => max rec_ c | none => rec_
  if h.counter = 0xFFFFFFFF || decide ((h.counter : Int) < last) then 3
  else if (h.counter : Int) = last then 2
  else if sh.isNone && 4096 ≤ s.mac.shadow.length && s.roleSends then 10 else 0

/-- The source of an unsecured frame in the cache, none without a source address. -/
def dupKey (pan : Nat) (h : MacHdr) : Option Nat :=
  if h.srcMode = 3 then some (2 ^ 64 + h.src) else if h.srcMode = 2 then some (pan * 65536 + h.src) else none

/-- Cache entries that live at `t`. -/
def State.dupLive (s : State) (t : Nat) : List (Nat × Nat × Nat) :=
  s.mac.dups.filter (fun d => t < d.2.2 + msToCyc (s.getF R.MAC_DUP_CFG_HOLD_MS))

/-- The cache of unsecured frames: a hit is a duplicate, a miss is new and goes in, in place of the oldest when the cache is
full. -/
def State.dupVerdict (s : State) (pan : Nat) (h : MacHdr) : Nat × State :=
  match dupKey pan h with
  | none => (0, s)
  | some key =>
    let live := s.dupLive s.mtb
    if live.any (fun d => d.1 == key && d.2.1 == h.seq) then (2, s)
    else
      let l := if live.length < 512 then live else live.tail
      (0, { s with mac := { s.mac with dups := l ++ [(key, h.seq, s.mtb)] } })

/-- The verdict of a reception whose FCS is good and whose checks can complete (Table 10.5); none while something is still
to come. -/
def State.rxVerdict (s : State) (r : Rx) : Option (Nat × State) :=
  match r.hdr with
  | none => some (6, s)
  | some h =>
    let pan := match r.pan with | some p => p | none => 0
    let minSec := match s.panRec pan with | some q => q.minSec | none => 0
    let hasNode := r.node ≠ nodeNone
    let level := if h.secured then h.level else 0
    let badKey := h.secured && h.kim = 1 &&
      !(s.isSet (R.MAC_PAN_KEY_VALID.bank pan) && s.getF (R.MAC_PAN_KEY_KEY_INDEX.bank pan) = h.keyIndex)
    if r.badHdr ≠ 0 then some (r.badHdr, s)
    else if !r.record then none
    else if h.secured && (!hasNode || !bitOf (s.copyGet r 13 1) 1 || r.noKey) then some (9, s)
    else if h.secured && r.ctx.isNone then none
    else if (hasNode && level < minSec) || badKey then some (8, s)
    else if h.secured then
      match r.ccm with
      | none => none
      | some false => some (5, s)
      | some true => some (s.counterVerdict r h, s)
    else
      let v := s.dupVerdict pan h
      some (if v.1 = 0 && !hasNode then 1 else v.1, v.2)

/-! ### What follows a verdict -/

/-- The counter of a verdict (Table 10.5). -/
def State.countVerdict (s : State) (v : Nat) : State :=
  if v = 4 then s.bump R.MAC_RX_COUNT0_FCS_FAIL
  else if v = 6 then s.bump R.MAC_RX_COUNT2_UNSUPPORTED
  else if v = 7 then s.bump R.MAC_RX_COUNT2_FILTERED
  else if v = 9 then s.bump R.MAC_RX_COUNT3_NO_NODE
  else if v = 8 then s.bump R.MAC_RX_COUNT3_SEC_LEVEL
  else if v = 5 then s.bump R.MAC_RX_COUNT0_AUTH_FAIL
  else if v = 2 then s.bump R.MAC_RX_COUNT1_DUPLICATE
  else if v = 3 then (s.bump R.MAC_RX_COUNT1_REPLAY).raise R.MAC_EVENT_REPLAY
  else if v = 10 then s.bump R.MAC_RX_COUNT4_SHADOW_FULL
  else s

/-- The mode a reception used, narrowed for its acknowledgement (R237). -/
def usedMode (code info : Nat) : Nat :=
  if phyFamily code = 1 then
    let fec := if bitOf info 4 then (if bitOf info 5 then 3 else fskFec code) else 0
    code - fskFec code * 64 + fec * 64
  else if phyFamily code = 2 then code - ofdmMcs code + 2 ^ (info % 16)
  else code

/-- Expected start less actual start of a frame, in cyc, the actual start taken by the SHR the device sends (R237, R142). -/
def State.offsetOf (s : State) (r : Rx) (pan phy : Nat) : Int :=
  (s.slotStart r.ts 0 + s.tpl pan 3 : Nat) - ((r.ts : Int) - shrCyc phy)

/-- Cyc in µs, to the nearest, an exact half up. -/
def cycToUs (c : Int) : Int := (2 * c * 128 + 165000) / 330000

/-- The acknowledgement that a reception owes (R237, R238), on the reception's channel and mode, its frame pending bit set while the
pending store, in which the scheduler's frames stand as well, holds a frame for the node. -/
def State.owe (s : State) (k : Nat) (r : Rx) (h : MacHdr) (pan : Nat) : Owed :=
  let phy := usedMode r.phy r.phrInfo
  let fcs := if bitOf r.phrInfo 7 then 4 else 2
  let tsch := s.tsch pan
  let white := phyFamily phy = 1 && bitOf r.phrInfo 6
  let o := s.offsetOf r pan phy
  let timed := tsch && h.version = 2
  let body := ackFrame h (r.node ≠ nodeNone && (s.headFor r.node).isSome) timed
  { rx := k, trx := laneTrx r.lane, node := r.node, chan := r.chan, phy := phy,
    flags := r.path + (if white then 4 else 0) + (if fcs = 4 then 8 else 0),
    nominal := r.fin + (if tsch then s.tpl pan 6 else usToCyc (turnUs phy)),
    slide := if tsch then usToCyc (s.getF R.MAC_ACK_CFG_SLIDE_US) else 0,
    body := body, fcs := fcs, tc := if timed then some (cycToUs o) else none,
    sealed := if h.secured && 2 ≤ h.version then
        some ⟨h.level, if h.kim = 1 then s.groupKey pan else s.nodeKey r.node, 0, body.length⟩ else none,
    obs := if timed && s.tracked r.node && s.slMode r.node = 2 then some (r.node, r.ts, o) else none }

/-- The header summary in the note (Table 10.6). -/
def summary (r : Rx) (h : MacHdr) (v ack : Nat) (tc : Option Int) : List Byte :=
  leBytes 2 h.fcf ++ leBytes 1 h.seq ++
  leBytes 1 (h.level % 8 + h.kim % 4 * 8 + (if h.ie then 32 else 0) + (if h.ar then 64 else 0)) ++
  leBytes 2 h.dstPan ++ leBytes 4 (if h.secured then h.counter else 0) ++ leBytes 2 h.hdrLen ++ leBytes 4 r.node ++
  leBytes 1 v ++ leBytes 1 ack ++ leBytes 1 (match r.pan with | some p => p | none => 0xFF) ++ leBytes 1 r.cell ++
  leBytes 2 (match tc with | some t => unsigned 16 t | none => 0x8000) ++ leBytes 2 0

/-- The CSL schedule that a frame declares, and the observation it is (R247, R249): the sample instant lies CSL Phase units of 10
symbols after the frame's time stamp; the observation is taken at that instant, which the mirrored ANCHOR then holds
(DEDUCED, notes/assumptions/28.md). -/
def State.cslSeen (s : State) (r : Rx) (pan phase : Nat) : State :=
  let n := r.node
  let phy := usedMode r.phy r.phrInfo
  let unit_ := phaseUnit phy
  let declared := r.ts + phase * unit_
  let period := r.clock.period * unit_
  let o : Int := match Store.find? n s.sl.csl with
    | none => 0
    | some c => if c.period = 0 then 0 else
        let d : Int := (declared : Int) - c.at_
        let k := (2 * d + c.period) / (2 * c.period : Nat)
        (c.at_ : Int) + k * c.period - declared
  let s := s.slPut n 30 2 r.clock.period
  let c : Csl := ⟨declared, period, unit_, r.chan, phy, laneTrx r.lane, pan⟩
  ({ s with sl := { s.sl with csl := Store.put n c s.sl.csl } }).observe n declared o 1 unit_ r.cfo none

/-- What a frame with verdict 0 or 2 says about its node's clock (R247, R250, R255). -/
def State.sleepSeen (s : State) (r : Rx) (h : MacHdr) (pan v : Nat) : State :=
  let n := r.node
  if !s.roleSends || !s.tracked n || !(v = 0 || v = 2) then s
  else if s.slMode n = 2 then
    if s.tsch pan && h.ftype ≠ 2 then
      s.observe n r.ts (s.offsetOf r pan (usedMode r.phy r.phrInfo)) 3 0 r.cfo none
    else s
  else match r.clock.phase with
    | some p => s.cslSeen r pan p
    | none =>
      match s.slState n, Store.find? n s.sl.calls with
      | 4, some c => match c.until_ with
        | some u => if v = 0 && r.ts ≤ u then s.tracking n else s
        | none => s
      | _, _ => s

/-- A join entry (R274): the note with its receive buffer goes to the PAN's JOIN_Q; discarded without a credit. -/
def State.joinEntry (s : State) (r : Rx) (pan : Nat) (note : List Byte) : State :=
  let q := match s.panRec pan with | some p => p.joinQ | none => 0
  let e : Entry := ⟨s.freeVal % 2 ^ 32, 64, 3, 0x31, 0, (match r.buf with | some b => b | none => 0), note, 0⟩
  let lost := (s.queueRec q).isNone || (s.queue q).credit 0x31 = 0
  let t := s.useFree.enqueue q e
  if lost then (match r.buf with | some b => t.rxFree b | none => t) else t

/-- The task of a reception gives up its receive buffer. -/
def State.dropBuf (s : State) (i : Nat) : State :=
  match s.task? i with
  | some t => s.putTask i { t with rxBuf := none }
  | none => s

/-- Learned paths take an unsecured frame's reception when its verdict accepts it (R353). -/
def State.rxTaught (s : State) (r : Rx) (h : MacHdr) (taught : Bool) : State :=
  if taught && !h.secured && r.node ≠ nodeNone && r.undo = [] then
    let other := if r.path = 0 then s.isSet (R.TRX_PATH_ON_B (laneTrx r.lane)) else s.isSet (R.TRX_PATH_ON_A (laneTrx r.lane))
    (s.teach r.node (laneTrx r.lane) r.path r.rssi r.diff other r.chan).1
  else s

/-- The shadow entry of the node takes the counter of an accepted frame until its commit (R235). -/
def State.rxShadow (s : State) (node counter : Nat) (new : Bool) : State :=
  if new then
    let n := match Store.find? node s.mac.shadow with | some (_, m) => m | none => 0
    { s with mac := { s.mac with shadow := Store.put node (counter, n + 1) s.mac.shadow } }
  else s

/-- An acknowledgement that is owed joins those that wait. -/
def State.rxOwes (s : State) (a : Owed) (owes : Bool) : State :=
  if owes then ({ s with mac := { s.mac with owed := s.mac.owed ++ [a] } }).group a.trx else s

/-- The reception's task takes its commit. -/
def State.rxCommit (s : State) (r : Rx) (commit : Commit) (new : Bool) : State :=
  match r.task with
  | some i => (match s.task? i with
    | some t => if new then s.putTask i { t with commit := some commit } else s
    | none => s)
  | none => s

/-- What the verdict makes of the reception's task: an acknowledgement ends its frame, a join frame goes to the join queue, an
accepted frame's task is filled, any other is withdrawn. -/
def State.rxClose (s : State) (k : Nat) (r : Rx) (h : MacHdr) (v pan note : Nat) : State :=
  let end_ := fun (s : State) => (s.rxWithdraw r).delRx k
  if h.ftype = 2 then
    let level := if h.secured then h.level else 0
    let minSec := match s.panRec pan with | some q => q.minSec | none => 0
    end_ (if v < 2 && minSec ≤ level then s.ackArrived r h else s)
  else if v = 1 then
    let d := s.readBytes note 64
    let s := match r.task with | some i => s.dropBuf i | none => s
    (end_ s).joinEntry r pan d
  else if v ≠ 0 then end_ s
  else match r.task with
    | none => s.delRx k
    | some i => match s.task? i with
      | none => s.delRx k
      | some t =>
        if t.entry = 0 then
          end_ (((s.bump (R.PILLOW_COUNT_HI 1)).raise R.PILLOW_EVENT_WITHDRAWN).emit (.taskEnded (taskHandle t.gen i) ST.PILLOW_WITHDRAWN))
        else
          let ctx := match r.ctx with | some c => c / 256 + c % 256 * 4 | none => 0xFFFF
          (s.fillInline i 2 (leBytes 1 v ++ leBytes 1 0 ++ leBytes 2 ctx ++ leBytes 4 0)).delRx k

/-- A verdict is reached (R233 to R237, R274, R458). -/
def State.rxFinish (s : State) (k v : Nat) : State :=
  match s.rx? k with
  | none => s
  | some r =>
    let s := s.countVerdict v
    let taught := v = 0 || v = 2
    let s := if taught || r.undo = [] then s else s.unteach r.undo
    match r.hdr with
    | none => (s.rxWithdraw r).delRx k
    | some h =>
      let pan := match r.pan with | some p => p | none => 0
      let s := s.rxTaught r h taught
      if !s.roleSends then ((if v < 2 then s.bump R.PAIR_COUNT1_SHADOW else s).rxWithdraw r).delRx k
      else
        let new := v = 0 && h.secured
        let s := s.rxShadow r.node h.counter new
        let note := match r.task with | some i => (match s.pinCell i 0 with | some a => a | none => 0) | none => 0
        let commit : Commit := ⟨r.node, h.counter, r.epoch, s.readNat (note + 22) 1, unsigned 16 r.rssi, s.readNat (note + 8) 5⟩
        let owes := v < 3 && (h.ftype = 1 || h.ftype = 3) && h.ar && s.toDevice pan h
        let a := s.owe k r h pan
        let s := (s.sleepSeen r h pan v).rxOwes a owes
        let gone := owes && !s.mac.owed.any (fun x => x.rx = k) &&
          !s.mac.cmds.any (fun c => match c.2.of with | .ack x => x == k | _ => false)
        let ack := if gone then 2 else if owes then 1 else 0
        ((s.noteWrite r 40 (summary r h v ack (if owes && !gone then a.tc else none))).rxCommit r commit new).rxClose k r h v pan note

/-- A reception is judged as far as it can be: learned paths are taught at the later of the FCS verdict and the record
(R353); the verdict follows once its checks can complete. -/
def State.rxJudge (s : State) (k : Nat) : State :=
  match s.rx? k with
  | none => s
  | some r =>
    match r.fcs with
    | none => s
    | some false => s.rxFinish k 4
    | some true =>
      let secured := match r.hdr with | some h => h.secured | none => false
      let s := if secured && r.record && r.node ≠ nodeNone && r.badHdr = 0 && r.undo = [] then
          let other := if r.path = 0 then s.isSet (R.TRX_PATH_ON_B (laneTrx r.lane)) else s.isSet (R.TRX_PATH_ON_A (laneTrx r.lane))
          let t := s.teach r.node (laneTrx r.lane) r.path r.rssi r.diff other r.chan
          t.1.putRx k { r with undo := t.2 }
        else s
      match s.rx? k with
      | none => s
      | some r => match s.rxVerdict r with
        | none => s
        | some (v, s) => s.rxFinish k v

/-! ### Commands -/

/-- SOURCE_ADDRESS_COMPLETE: the address fields of reception `rx` are complete: its header checks are decided and, when they
pass, the address lookup starts (R17, R233, R239). -/
def execSourceAddressComplete (rx : Nat) (hdr : MacHdr) (clock : ClockIe) (s : State) : Res :=
  match s.rx? rx with
  | none => .next s
  | some r =>
    if r.hdr.isSome || !r.known then .next s
    else
      let n := laneTrx r.lane
      let bad := s.hdrBad n hdr
      let s := s.putRx rx { r with hdr := some hdr, clock := clock, pan := s.hdrPan n hdr, badHdr := bad }
      .next (if (Store.find? n s.mac.braids).isNone then s.group n else s)

/-- ADDRESS_LOOKUP_DONE: the lookup returns a node index or none (R338, R339, R346); with none the "none" record goes to
pin 2 (R20, R340). -/
def execAddressLookupDone (rx : Nat) (s : State) : Res :=
  match s.rx? rx with
  | none => .next s
  | some r =>
    match r.hdr with
    | none => .next s
    | some h =>
      if r.looked || r.badHdr ≠ 0 then .next s
      else
        let node :=
          if h.srcMode = 2 then (match s.srcPanRec h with | some p => s.resolveShort p h.src | none => nodeNone)
          else if h.srcMode = 3 then (if s.isSet R.GROUND_STATE_HASH_READY then s.hashLookup h.src 0 else nodeNone)
          else nodeNone
        let r : Rx := { r with looked := true, node := node }
        if node = nodeNone then .next (((s.putRx rx r).pin2 rx r nodeNone (s.noneRecord h)).rxJudge rx)
        else .next (s.putRx rx r)

/-- Whether the record of node `n` is the one the frame's source address names (R339). -/
def State.recordFits (s : State) (n : Nat) (h : MacHdr) : Bool :=
  s.recValid n && s.recGet n 56 4 = n &&
  (if h.srcMode = 3 then s.recEui n = h.src
   else s.recGet n 10 2 = h.src && some (s.recGet n 12 1) = s.srcPanRec h)

/-- NODE_RECORD_READ_DONE: the node record arrives in pin 2, or the "none" record in its place (R17, R339). -/
def execNodeRecordReadDone (rx : Nat) (s : State) : Res :=
  match s.rx? rx with
  | none => .next s
  | some r =>
    match r.hdr with
    | none => .next s
    | some h =>
      if !r.looked || r.record then .next s
      else
        let n := r.node
        if s.recordFits n h then
          let r : Rx := { r with epoch := Store.get (fun _ => 0) s.gd.keyEpoch n }
          .next ((s.pin2 rx r n (s.readBytes (s.recAddr n 0) 256)).rxJudge rx)
        else
          let s := (s.bump R.GROUND_COUNT0_LO).raise R.GROUND_EVENT_STALE_KEY
          .next ((s.pin2 rx r nodeNone (s.noneRecord h)).rxJudge rx)

/-- The link key of the record in pin 2, unwrapped under its WRAP_SLOT with the rights of ROLE 0 (R412). -/
def State.linkKey (s : State) (r : Rx) : Option Nat :=
  match s.keySlot (s.copyGet r 14 2 % 512) with
  | none => none
  | some v =>
    if !bitOf (attrUsage v.attr) 2 then none
    else Config.unwrap v.mat 24 (beNat (match s.rxRecord r with | some a => s.readBytes (a + 16) 24 | none => []))

/-- KEY_UNWRAP_DONE: the link key of a secured frame's node is loaded into a CCM* context, or the unwrap fails, or it waits
for a context (R412). -/
def execKeyUnwrapDone (rx : Nat) (s : State) : Res :=
  match s.rx? rx with
  | none => .next s
  | some r =>
    let secured := match r.hdr with | some h => h.secured | none => false
    if !secured || !r.record || r.node = nodeNone || r.ctx.isSome || r.noKey || !bitOf (s.copyGet r 13 1) 1 then .next s
    else match s.linkKey r with
      | none => .next (((s.bump R.KEY_COUNT0_UNWRAP_FAIL).putRx rx { r with noKey := true }).rxJudge rx)
      | some _ =>
        match s.freeCtx, r.task with
        | some c, _ => .next ((s.takeCtx rx r c).rxJudge rx)
        | none, some i =>
          if s.ky.waiters.contains i then .next s
          else .next (({ s with ky := { s.ky with waiters := s.ky.waiters ++ [i] } }).bump R.KEY_CTX_WAITS)
        | none, none => .next s

/-- CCM_CONTEXT_FREE: a context is free and the unwrap that has waited longest proceeds (R412). -/
def execCcmContextFree (s : State) : Res :=
  match s.freeCtx, s.ky.waiters with
  | some c, i :: rest =>
    let s := { s with ky := { s.ky with waiters := rest } }
    match List.find? (fun (x : Nat × Rx) => x.2.task = some i) s.rd.rxs with
    | some (k, r) => .next ((s.takeCtx k r c).rxJudge k)
    | none => .next s
  | _, _ => .next s

/-- CCM_VERDICT: the CCM* verdict of a secured frame (R18, R233). Under a context that a tamper response has zeroed (R422) no frame
authenticates. -/
def execCcmVerdict (rx : Nat) (authentic : Bool) (s : State) : Res :=
  match s.rx? rx with
  | none => .next s
  | some r =>
    if r.ctx.isNone || r.fcs ≠ some true || r.ccm.isSome then .next s
    else
      let held := match r.ctx with | some c => s.ky.ctxs.contains c | none => false
      .next ((s.putRx rx { r with ccm := some (authentic && held) }).rxJudge rx)

/-- DUP_CACHE_EXPIRY: entries of the cache of unsecured frames older than HOLD_MS go (R235). -/
def execDupCacheExpiry (t : Nat) (s : State) : Res :=
  let s := s.advance t
  .next { s with mac := { s.mac with dups := s.dupLive s.mtb } }

/-- SHADOW_ENTRY_RELEASE: a node's shadow entry is released once its commits are written and every record read started
before has been delivered, or its reception has ended (R235). -/
def execShadowEntryRelease (node : Nat) (s : State) : Res :=
  match Store.find? node s.mac.shadow with
  | some (_, 0) =>
    let open_ := fun (k : Nat) => match s.rx? k with | some r => !r.record | none => false
    if (Store.get (fun _ => []) s.mac.shadowReads node).any open_ then .next s
    else .next { s with mac := { s.mac with
      shadow := Store.del node s.mac.shadow, shadowReads := Store.del node s.mac.shadowReads } }
  | _ => .next s

end Sys2Proof.Machine
end

