-- ==== Sys2Proof/Machine/Tasks.lean ====
section
/-!
DEFINITION. The pillow's commands (12_pillow.md): the task instructions of a bobbin, placement, faults and run limits,
delay lists, the release port, task queues, templates.
-/
namespace Sys2Proof.Machine

/-- The result word of a refusal (R276). -/
def refusalWord (st : Nat) : Nat := 0x80000000 + st

/-- A task instruction's success and refusal, the result word going to rd (R276). -/
def State.tkOk (s : State) (b w : Nat) : State := (s.emit (.result b w)).answer ST.OK
def State.tkRefuse (s : State) (b st : Nat) : State := (s.emit (.result b (refusalWord st))).answer st

/-- Whether a bobbin executes instructions: in its init run, or with a task in service, not stalled on a full post buffer (R283), and
its clock not stopped (R69). -/
def State.executes (s : State) (b : Nat) : Bool :=
  let v := s.bobbin b
  !v.reset && !v.faulted && (v.init || v.running.isSome) && v.stalled.isNone &&
  !(match s.hoopOf b with | some h => s.stoppedClock (4 + h) | none => false)

/-- The hoop whose firmware runs on a bobbin. -/
def State.hoopIx (s : State) (b : Nat) : Nat := match s.hoopOf b with | some h => h | none => 0

/-- How long `n` cycles of a bobbin's clock last in cyc: as long at /2, longer at /3 and /4 (R266). -/
def State.bobCyc (s : State) (b n : Nat) : Nat :=
  let h := s.hoopIx b
  if h = s.mainHoop then n else divUp (n * s.getF (hoopCur h)) 2

/-- The conditions of a task descriptor (R267, Tables 12.1 and 12.2, R266). -/
def State.descOk (s : State) (a : Nat) : Bool :=
  let entry := s.readNat a 4
  let flow := s.readNat (a + 4) 4
  let prio := s.readNat (a + 8) 1
  let arity := s.readNat (a + 9) 1
  let ord := s.readNat (a + 10) 2
  2 ≤ entry && entry ≤ 0x3FFFE && entry % 2 = 0 &&
  flow / 2 ^ 29 % 4 = 0 && flow / 2 ^ 18 % 64 = 0 && (bitOf flow 31 || flow % 2 ^ 18 = 0) &&
  prio ≤ 7 && 1 ≤ arity && arity ≤ 4 && (ord = 0xFFFF || ord < s.pr.orderedFlows) &&
  s.servesKindPrio (flow / 2 ^ 24 % 32) prio

/-- Whether kind `k` is one a customer task may create: its hoop's own, or one of PILLOW_CUST_KINDS (R290). -/
def State.custKind (s : State) (h k : Nat) : Bool :=
  s.hoopOfKind k = some h || bitOf (s.getF R.PILLOW_CUST_KINDS_KINDS) k

/-- TK_NEW: create a task from the descriptor at a local address (R267, R272, R281, R290, R291). -/
def execTkNew (bob : Fin 16) (desc : Word) (s : State) : Res :=
  if !s.executes bob then .next s
  else
    let a := localAddr bob desc.toNat
    let flow := s.readNat (a + 4) 4
    let kind := flow / 2 ^ 24 % 32
    let prio := s.readNat (a + 8) 1
    let arity := s.readNat (a + 9) 1
    let ordW := s.readNat (a + 10) 2
    let ord := if ordW = 0xFFFF then none else some ordW
    let h := s.hoopIx bob
    if s.isCustomer h && (bitOf flow 31 || !s.custKind h kind) then .next (s.tkRefuse bob ST.PILLOW_ROLE)
    else if desc.toNat % 16 ≠ 0 || 0x40000 ≤ desc.toNat || !s.descOk a then .next (s.tkRefuse bob ST.PILLOW_ARG)
    else if s.custHeld && (match s.hoopOfKind kind with | some k => s.isCustomer k | none => false) then
      .next (s.tkRefuse bob ST.PILLOW_HOOP_HELD)
    else if 32768 ≤ s.pl.tasks.length then
      .next (((s.bump (R.PILLOW_COUNT_HI 3)).raise R.PILLOW_EVENT_TASKS_FULL).tkRefuse bob ST.PILLOW_TASKS_FULL)
    else if 16384 < s.pl.pins.length + arity then
      .next ((s.raise R.PILLOW_EVENT_PINS_FULL).tkRefuse bob ST.PILLOW_PINS_FULL)
    else if !s.windowRoom ord then .next ((s.raise R.PILLOW_EVENT_ORDER_FULL).tkRefuse bob ST.PILLOW_ORDER_FULL)
    else
      match s.newTask {
          gen := 0, entry := s.readNat a 4, kind := kind,
          flow := if bitOf flow 31 then some (flow % 2 ^ 18) else none, prio := prio, ord := none,
          arg := s.readNat (a + 12) 4, pins := [] } ord arity with
      | none => .next (s.tkRefuse bob ST.PILLOW_TASKS_FULL)
      | some (i, t) => .next (t.tkOk bob (match t.task? i with | some k => taskHandle k.gen i | none => 0))

/-- Whether the handle names the task that runs on the bobbin, or one that is prefetched or runs elsewhere (R276). -/
def inServiceState (t : Task) : Bool := t.state = .prefetched || t.state = .running

/-- Whether a bobbin of the customer hoop reaches `n` octets at an address of the global map (R289): the aliases of its hoop's local
memories, its window and, for reading, the operands of its running task's pins. How far a reference pin's operand goes nothing
says; 256 octets, the longest that the device makes, are taken. -/
def State.custReach (s : State) (b a n : Nat) (write : Bool) : Bool :=
  let base := s.getF R.PILLOW_CUST_WIN_BASE
  let size := 0x10000 * s.getF R.PILLOW_CUST_SIZE_SIZE
  ((List.range 16).any (fun k => s.hoopOf k = s.hoopOf b && localAddr k 0 ≤ a && a + n ≤ localAddr k 0 + 0x40000)) ||
  (base ≤ a && a + n ≤ base + size) ||
  (!write && (match (s.bobbin b).running with
   | none => false
   | some i => match s.task? i with
     | none => false
     | some t => t.pins.any (fun p =>
         let o := if p.isRef then p.ref else pinAddr p.cell
         o ≤ a && a + n ≤ o + (if p.isRef then 256 else 64))))

/-- A bobbin's access that faults (R289, R308, R309, R313): its cause, 3 for a load and 4 for a store. -/
def State.accessCause (s : State) (b a n : Nat) (write : Bool) : Option Nat :=
  if accessBad a n write || (s.isCustomer (s.hoopIx b) && 0x40000 ≤ a && !s.custReach b a n write) then
    some (if write then 4 else 3)
  else none

/-- A fault is recorded (R285). -/
def State.recordFault (s : State) (b cause pc : Nat) (init : Bool) (handle : Nat) : State :=
  (((((((s.setF R.PILLOW_FAULT_BOBBIN b).setF R.PILLOW_FAULT_CAUSE cause).setB R.PILLOW_FAULT_INIT init).setF
    R.PILLOW_FAULT_TASK handle).setF R.PILLOW_FAULT_PC_PC pc).bump (R.PILLOW_COUNT_HI 0)).raise R.PILLOW_EVENT_FAULT)

/-- The running task of a bobbin ends in fault, with ST_PILLOW_FAULT or, past its run limit, ST_PILLOW_OVERRUN, and the bobbin starts
its next one; an init run is restarted later (R285). -/
def State.bobFault (s : State) (b cause pc : Nat) : State :=
  let v := s.bobbin b
  if v.init then
    let s := (s.recordFault b cause pc true 0).unstall b
    s.setBobbin b { s.bobbin b with faulted := true, faultAt := s.mtb }
  else match v.running with
    | none => s
    | some i =>
      match s.task? i with
      | none => s
      | some t =>
        let h := taskHandle t.gen i
        let s := (s.recordFault b cause pc false h).emit (.taskEnded h (if cause = 6 then ST.PILLOW_OVERRUN else ST.PILLOW_FAULT))
        ((s.endTask i false).afterTask t).startNext b

/-- A load or store of a bobbin ends its running task in fault (R9, R308, R285): cause 2 misaligned, 3 load access, 4 store
access. The pc that PILLOW_FAULT_PC records is not carried by the command: a free value. -/
def State.accessFault (s : State) (b cause : Nat) : State := s.useFree.bobFault b cause s.freeVal

/-- TK_FILL: fill a task pin inline or by reference (R272, R276). `words` 1 to 16, 0 for a reference. A reference is visible 4 cyc
after the instruction retires, an inline fill 24 cyc after. -/
def execTkFill (bob : Fin 16) (handle src : Word) (pin : Fin 4) (words : Fin 32) (s : State) : Res :=
  if !s.executes bob then .next s
  else
    let a := src.toNat
    let sram := 0x10000000 ≤ a && a + 4 * words.val ≤ 0x10600000
    match s.byHandle handle.toNat with
    | none => .next (s.tkRefuse bob ST.PILLOW_HANDLE)
    | some (i, t) =>
      if t.pins.length ≤ pin.val || 16 < words.val ||
          (words.val ≠ 0 && (a % 4 ≠ 0 || !(a + 4 * words.val ≤ 0x40000 || sram))) then
        .next (s.tkRefuse bob ST.PILLOW_ARG)
      else if inServiceState t then .next (s.tkRefuse bob ST.PILLOW_IN_SERVICE)
      else match t.pins[pin.val]? with
        | none => .next (s.tkRefuse bob ST.PILLOW_ARG)
        | some p =>
          if p.filled then .next (s.tkRefuse bob ST.PILLOW_PIN_FULL)
          else if p.armed.isSome then .next (s.tkRefuse bob ST.PILLOW_PIN_ARMED)
          else if words.val = 0 then .next ((s.pinFilledAt i pin true a (s.mtb + s.bobCyc bob 4 + 4)).tkOk bob 0)
          else if (s.accessCause bob a (4 * words.val) false).isSome then .next (s.accessFault bob 3)
          else .next ((s.fillInlineAt i pin (s.readBytes (bobAddr bob a) (4 * words.val))
            (s.mtb + s.bobCyc bob (4 + words.val) + 24)).tkOk bob 0)

/-- The queue entry that 16 octets spell (Table 13.2). -/
def State.entryAt (s : State) (a src : Nat) : Entry :=
  ⟨s.readNat a 4, s.readNat (a + 4) 2, s.readNat (a + 6) 1, src, s.readNat (a + 8) 4, s.readNat (a + 12) 4, [], 0⟩

/-- An entry's 16 octets. -/
def Entry.bytes (e : Entry) : List Byte :=
  leBytes 4 e.addr ++ leBytes 2 e.len ++ leBytes 1 e.flags ++ leBytes 1 e.src ++ leBytes 4 e.tag ++ leBytes 4 e.aux

/-- A put's credit (R282): taken when the put is issued. -/
def State.takeCredit (s : State) (q h : Nat) : State := s.setQueue q ((s.queue q).spend h)

/-- A put that does not wait for an order (R283): into the bobbin's post buffer of two entries, which the instruction's answer follows;
into a full one when the release port takes an entry of the bobbin, until when the bobbin stalls. -/
def State.putNow (s : State) (b : Nat) (p : Posted) : State :=
  if (s.bobbin b).posts.length < 2 then (s.post b [p]).tkOk b 0
  else s.setBobbin b { s.bobbin b with stalled := some p }

/-- TK_PUT: post or stage a result (R280 to R283). `queue` is the register operand, whose bits [31:8] must be 0. -/
def execTkPut (bob : Fin 16) (queue addr : Word) (ordered : Bool) (s : State) : Res :=
  if !s.executes bob then .next s
  else
    let h := s.hoopIx bob
    let q := queue.toNat % 256
    let p : Posted := ⟨q, s.entryAt (localAddr bob addr.toNat) h⟩
    let noCredit := (s.bump (R.PILLOW_COUNT_HI 2)).tkRefuse bob ST.PILLOW_NO_CREDIT
    if 256 ≤ queue.toNat || addr.toNat % 16 ≠ 0 || 0x40000 ≤ addr.toNat then .next (s.tkRefuse bob ST.PILLOW_ARG)
    else if !ordered then
      if (s.queue q).credit h = 0 then .next noCredit
      else .next ((s.takeCredit q h).putNow bob p)
    else
      match (s.bobbin bob).running with
      | none => .next (s.tkRefuse bob ST.PILLOW_ARG)
      | some i =>
        match s.task? i with
        | none => .next (s.tkRefuse bob ST.PILLOW_ARG)
        | some t =>
          match t.ord with
          | none => .next (s.tkRefuse bob ST.PILLOW_ARG)
          | some (f, seq) =>
            let oldest := (s.ordFlow f).oldest = seq
            let full := 16384 ≤ s.stagedCount
            if 4 ≤ t.puts then .next (s.tkRefuse bob ST.PILLOW_ORDER_LIMIT)
            else if full && !oldest then .next (s.tkRefuse bob ST.PILLOW_STAGE_FULL)
            else if (s.queue q).credit h = 0 then .next noCredit
            else
              let s := s.takeCredit q h
              if t.direct || full then
                .next (((s.putTask i { t with puts := t.puts + 1, direct := true, staged := [] }).post bob t.staged).putNow bob p)
              else .next ((s.putTask i { t with puts := t.puts + 1, staged := t.staged ++ [p] }).tkOk bob 0)

/-- The tick and the capacity of a delay list, and its largest number of ticks (Table 12.9). -/
def listTick (l : Nat) : Nat := if l = 0 then 128 else if l = 1 then 131072 else 134217728
def listCap (l : Nat) : Nat := if l = 0 then 1024 else if l = 1 then 16384 else 65536
def listMax (l : Nat) : Nat := if l = 2 then 1048575 else 65535

/-- The key of a timer entry: list and entry. -/
def timerKey (l e : Nat) : Nat := l * 0x100000 + e

/-- The live entries of a delay list. -/
def State.liveTimers (s : State) (l : Nat) : List (Nat × Timer) :=
  s.pl.timers.filter (fun t => t.2.live && t.1 / 0x100000 = l)

/-- A timer handle (R287). -/
def timerHandle (l e gen : Nat) : Nat := gen % 256 * 2 ^ 20 + l * 2 ^ 18 + e

/-- TK_TIMER: arm a delay-list entry on a pin (R286, R287). -/
def execTkTimer (bob : Fin 16) (handle ticks : Word) (pin list : Fin 4) (s : State) : Res :=
  if !s.executes bob then .next s
  else match s.byHandle handle.toNat with
    | none => .next (s.tkRefuse bob ST.PILLOW_HANDLE)
    | some (i, t) =>
      let n := ticks.toNat
      if n = 0 || 3 ≤ list.val || listMax list < n || t.pins.length ≤ pin.val then
        .next (s.tkRefuse bob ST.PILLOW_ARG)
      else match t.pins[pin.val]? with
        | none => .next (s.tkRefuse bob ST.PILLOW_ARG)
        | some p =>
          if p.filled then .next (s.tkRefuse bob ST.PILLOW_PIN_FULL)
          else if p.armed.isSome then .next (s.tkRefuse bob ST.PILLOW_PIN_ARMED)
          else
            let used := (s.liveTimers list).map (fun e => e.1 % 0x100000)
            match s.pickFree used (listCap list) with
            | none => .next (((s.bump (R.PILLOW_COUNT_LO 3)).raise R.PILLOW_EVENT_TIMER_FULL).tkRefuse bob
                ST.PILLOW_TIMER_FULL)
            | some e =>
              let k := timerKey list e
              let gen := match Store.find? k s.pl.timers with | some x => (x.gen + 1) % 256 | none => 0
              let tick := s.mtb / listTick list + n
              let s := (s.useFree).putTask i { t with pins := t.pins.set pin.val { p with armed := some k } }
              let s := { s with pl := { s.pl with
                timers := Store.put k ⟨gen, i, pin, tick, s.pl.armedCount, true, false⟩ s.pl.timers,
                armedCount := s.pl.armedCount + 1 } }
              .next (s.tkOk bob (timerHandle list e gen))

/-- The pin of a task loses its timer. -/
def State.disarm (s : State) (i k : Nat) : State :=
  match s.task? i with
  | none => s
  | some t => match t.pins[k]? with
    | none => s
    | some p => s.putTask i { t with pins := t.pins.set k { p with armed := none } }

/-- A timer entry's boundary has come: it fills its pin with the boundary value (R286). -/
def State.timerFires (s : State) (k : Nat) (e : Timer) : State :=
  ({ s with pl := { s.pl with timers := Store.put k { e with live := false, fired := true } s.pl.timers } }).fillInline
    e.task e.pin (leBytes 8 (e.tick * listTick (k / 0x100000)))

/-- TK_CANCEL: remove an armed entry; the pin becomes fillable again (R287). One whose boundary has come wins over the cancel. -/
def execTkCancel (bob : Fin 16) (handle : Word) (s : State) : Res :=
  if !s.executes bob then .next s
  else
    let w := handle.toNat
    let l := w / 2 ^ 18 % 4
    let k := timerKey l (w % 2 ^ 17)
    match Store.find? k s.pl.timers with
    | none => .next (s.tkRefuse bob ST.PILLOW_HANDLE)
    | some e =>
      if w ≠ timerHandle l (w % 2 ^ 17) e.gen then .next (s.tkRefuse bob ST.PILLOW_HANDLE)
      else if e.live then
        if e.tick * listTick l ≤ s.mtb then .next ((s.timerFires k e).tkRefuse bob ST.PILLOW_TIMER_FIRED)
        else .next ((({ s with pl := { s.pl with timers := Store.put k { e with live := false } s.pl.timers } }).disarm
          e.task e.pin).tkOk bob 0)
      else .next (s.tkRefuse bob (if e.fired then ST.PILLOW_TIMER_FIRED else ST.PILLOW_HANDLE))

/-- TK_DROP: end a task without service (R270, R276). -/
def execTkDrop (bob : Fin 16) (handle : Word) (s : State) : Res :=
  if !s.executes bob then .next s
  else match s.byHandle handle.toNat with
    | none => .next (s.tkRefuse bob ST.PILLOW_HANDLE)
    | some (i, t) =>
      if inServiceState t then .next (s.tkRefuse bob ST.PILLOW_IN_SERVICE)
      else .next (((s.endTask i false).afterTask t).tkOk bob 0)

/-- TK_END: the running task ends in service, or the init run ends (R265, R271). -/
def execTkEnd (bob : Fin 16) (s : State) : Res :=
  let v := s.bobbin bob
  if !s.executes bob then .next s
  else if v.init then .next (s.setBobbin bob { v with init := false })
  else match v.running with
    | none => .next s
    | some i =>
      match s.task? i with
      | none => .next s
      | some t => .next (((s.endTask i true).afterTask t).startNext bob)

/-- The fault of a DRAM request that a bobbin makes: the bobbin and the cause. -/
def State.requestFault (s : State) (r : Requester) (a n : Nat) (write : Bool) : Option (Nat × Nat) :=
  match r with
  | .bobbin b => (s.accessCause b a n write).map (fun c => (b, c))
  | _ => none

/-- DRAM_REQUEST: a request is presented and takes owned slots of its class (R320); its data, for a write, are the bytes
from its address up. A bobbin's access that faults ends its task. -/
def execDramRequest (cls : Fin 16) (write : Bool) (addr chunks : Nat) (run : Bool) (data : List Byte)
    (by_ : Requester) (s : State) : Res :=
  let r : DramReq := { cls, write, addr, chunks, run, last := 0, data }
  let n := if write then data.length else 64 * chunks - addr % 64
  match s.requestFault by_ addr n write with
  | some (b, c) => if s.executes b then .next (s.accessFault b c) else .next s
  | none =>
    if !s.rootRuns || cls = 15 || cls = 14 || !s.mayRequest by_ || n = 0 || !inDram addr || !inDram (addr + n - 1) then .next s
    else if s.dramHeld then .next { s with ms := { s.ms with held := s.ms.held ++ [r] } }
    else .next (s.forgetSlots.dramServe r)

/-- TASK_PLACE: the pillow's placement for a hoop in one cyc, one at most (R279). -/
def execTaskPlace (hoop : Fin 4) (t : Nat) (s : State) : Res :=
  let s := s.advance t
  if s.mtb < Store.get (fun _ => 0) s.pl.placeAt hoop then .next s
  else .next (({ s with pl := { s.pl with placeAt := Store.set (fun _ => 0) s.pl.placeAt hoop (s.mtb + 1) } }).place hoop)

/-- TASK_EXCEPTION: a synchronous exception ends the running task in fault (R285); `ecc` 2 where a load met a double-bit
SRAM error at `addr` (R314). -/
def execTaskException (bob : Fin 16) (cause : Fin 6) (pc : Word) (ecc : Fin 3) (addr : Word) (s : State) : Res :=
  if s.executes bob then .next ((s.eccError ecc addr.toNat).bobFault bob cause pc.toNat) else .next s

/-- TASK_RUN_LIMIT: a task passes its run limit, units of 256 cyc from its first instruction; it is counted once, and with KILL ended
in fault (R285). -/
def execTaskRunLimit (bob : Fin 16) (pc : Word) (t : Nat) (s : State) : Res :=
  let s := s.advance t
  let v := s.bobbin bob
  match v.running with
  | none => .next s
  | some i =>
    match s.task? i with
    | none => .next s
    | some k =>
      if v.limit = 0 || k.passed || s.mtb ≤ v.startAt + 256 * v.limit then .next s
      else
        let s := ((s.putTask i { k with passed := true }).bump (R.PILLOW_COUNT_LO 0)).raise R.PILLOW_EVENT_OVERRUN
        let h := s.hoopIx bob
        if s.isCustomer h || s.isSet (R.PILLOW_HOOP_KILL h) then .next (s.bobFault bob 6 pc.toNat) else .next s

/-- INIT_RUN_RESTART: 65,536 cyc after a fault in it, the init run restarts at 0 (R285). -/
def execInitRunRestart (bob : Fin 16) (t : Nat) (s : State) : Res :=
  let s := s.advance t
  if (s.bobbin bob).faulted && decide ((s.bobbin bob).faultAt + 65536 ≤ s.mtb) then .next (s.startInitRuns [bob.val]) else .next s

/-- DELAY_LIST_EXPIRY: the earliest live entry of the list, by deadline and then by arming, fills its pin with the boundary value 12 cyc
after the boundary, one cyc after the list's fill before at the earliest (R286). -/
def execDelayListExpiry (list : Fin 3) (s : State) : Res :=
  match firstBy (fun a b => a.2.tick < b.2.tick || (a.2.tick = b.2.tick && a.2.order < b.2.order)) (s.liveTimers list) with
  | none => .next s
  | some (k, e) =>
    let s := s.advance (max (e.tick * listTick list + 12) (Store.get (fun _ => 0) s.pl.fillAt list))
    .next (({ s with pl := { s.pl with fillAt := Store.set (fun _ => 0) s.pl.fillAt list (s.mtb + 1) } }).timerFires k e)

/-- The put that stalled on a bobbin's full post buffer goes into it, and the instruction is answered (R283). -/
def State.stallEnds (s : State) (b : Nat) : State :=
  match (s.bobbin b).stalled with
  | none => s
  | some p =>
    if (s.bobbin b).posts.length < 2 then ((s.setBobbin b { s.bobbin b with stalled := none }).post b [p]).tkOk b 0 else s

/-- RELEASE_PORT_TAKE: the release port takes one posted entry per fcyc, bobbins in round-robin order after the one served last
(R283); its credit was taken at the put (R282). -/
def execReleasePortTake (s : State) : Res :=
  match ((List.range 16).map (fun k => (s.pl.lastServed + 1 + k) % 16)).find? (fun b => (s.bobbin b).posts ≠ []) with
  | none => .next s
  | some b =>
    match (s.bobbin b).posts with
    | [] => .next s
    | p :: ps =>
      let s := s.advance (max (edgeAt 2 s.mtb) s.pl.portAt)
      let s := (s.setBobbin b { s.bobbin b with posts := ps }).stallEnds b
      .next (({ s with pl := { s.pl with lastServed := b, portAt := s.mtb + 2 } }).queueTakePaid p.queue p.entry)

/-- An ORD field as an ordered flow: 0xFFFF names none. -/
def ordOf (w : Nat) : Option Nat := if w = 0xFFFF then none else some w

/-- TASK_QUEUE_ENTRY: a task queue's oldest entry creates a task of arity 1 when a pin, a store entry and the window have
room and its template is in force (R275, R281, R291). -/
def execTaskQueueEntry (queue : Fin 256) (s : State) : Res :=
  let q : Nat := queue
  match s.queueRec q, s.head? q with
  | some r, some e =>
    let kind := s.getF ((R.PILLOW_QT_TASK_KIND).bank q)
    let ord := ordOf (s.getF ((R.PILLOW_QT_ORD_ORD).bank q))
    let held := s.custHeld && (match s.hoopOfKind kind with | some h => s.isCustomer h | none => false)
    if r.consumer ≠ 0x10 || !s.isSet ((R.PILLOW_QT_TASK_EN).bank q) || held then .next s
    else if !s.windowRoom ord then .next (s.raise R.PILLOW_EVENT_ORDER_FULL)
    else
      match (s.dequeue q).newTask {
          gen := 0, entry := s.getF ((R.PILLOW_QT_TASK_ENTRY).bank q), kind := kind, flow := none,
          prio := s.getF ((R.PILLOW_QT_TASK_PRIO).bank q), ord := none, arg := 0, pins := [],
          rxBuf := if e.src = 0x31 then some e.aux else none } ord 1 with
      | none => .next s
      | some (i, t) => .next (t.fillInline i 0 e.bytes)
  | _, _ => .next s

/-- PILLOW_COUNT_CLEAR: PILLOW_CTRL.CLR clears PILLOW_COUNT0 to PILLOW_COUNT3 (R292). -/
def State.pillowClear (s : State) : State :=
  (s.each (List.range 4) (fun s k => s.setReg (R.PILLOW_COUNT k) 0)).answer ST.OK

/-- PILLOW_COUNT_CLEAR (PILLOW_CTRL). -/
def execPillowCountClear (s : State) : Res := .next s.pillowClear

/-- A PILLOW refusal (R292). -/
def State.pillowRefuse (s : State) (st : Nat) : State := s.refuse R.PILLOW_CMD_ERR_STATUS st

/-- A write of a template's TASK register at `a` (PILLOW_HW_TASK, or PILLOW_QT_TASK of a queue): EN 1 asks for a legal
entry point and a kind and priority that are served, and KIND, PRIO or ENTRY change only with EN cleared. -/
def State.writeTemplate (s : State) (a : Nat) (w : Word) : State :=
  let old := s.getReg a
  let new := w &&& regMask a
  let n := new.toNat
  let en := bitOf n 31
  let entry := n % 2 ^ 18
  if new = old then s.answer ST.OK
  else if en && !(s.servesKindPrio (n / 2 ^ 23 % 32) (n / 2 ^ 28 % 8) && 2 ≤ entry && entry ≤ 0x3FFFE && entry % 2 = 0) then
    s.pillowRefuse ST.PILLOW_RANGE
  else if en && bitOf old.toNat 31 then s.pillowRefuse ST.PILLOW_STATE
  else (s.setReg a new).answer ST.OK

/-- PILLOW_TEMPLATE_WRITE: a write of PILLOW_HW_TASK (`qt` false) or of PILLOW_QT_TASK of the queue that PILLOW_QT_SEL
names (R273, R275). -/
def execPillowTemplateWrite (qt : Bool) (val : Word) (s : State) : Res :=
  .next (s.writeTemplate (if qt then R.PILLOW_QT_TASK + s.getF R.PILLOW_QT_SEL_QUEUE * bankStride else R.PILLOW_HW_TASK) val)

end Sys2Proof.Machine
end

