-- ==== Sys2Proof/Machine/Lanes.lean ====
section
/-!
DEFINITION. The demodulation lanes' commands (08_wideband_receive.md): windows and bindings, the reception from preamble to
FCS verdict, the shadow correlator, gain control, idle measurements, the LANE registers' writes.
-/
namespace Sys2Proof.Machine

/-! ### Windows and bindings (R170, R171) -/

/-- RX_WINDOW_OPEN: a plan lane's receive window opens and the lane is armed. -/
def execRxWindowOpen (lane : Fin 96) (s : State) : Res :=
  let l : Nat := lane
  let v := s.lane l
  match v.window with
  | none => .next s
  | some (_, open_, close, _) =>
    if v.open_ || v.bind.isSome || close ≤ s.mtb then .next s
    else
      let s := (s.advance open_).setLane l { v with open_ := true }
      .next (s.setB (R.LANE_STATE_ARMED l) (s.laneState l != 5))

/-- RX_WINDOW_CLOSE: the window closes and the lane is disarmed; a reception that has left IDLE goes on. -/
def execRxWindowClose (lane : Fin 96) (s : State) : Res :=
  let l : Nat := lane
  let v := s.lane l
  match v.window with
  | none => .next s
  | some (_, _, close, _) =>
    if !v.open_ then .next s
    else .next (((s.advance close).setLane l { v with open_ := false }).setF (R.LANE_STATE_ARMED l) 0)

/-- A lane whose binding and channel may change: it is not in PREAMBLE, SYNC, PAYLOAD or DONE (R171). -/
def State.mayBind (s : State) (l : Nat) : Bool := s.laneState l = 0 || s.laneState l = 5

/-- What waits for a lane takes effect. A plan binding whose window has closed is not taken: the cell is missed. -/
def State.laneApply (s : State) (l : Nat) : State :=
  let v := s.lane l
  let s := s.setF (R.LANE_STATE_PENDING l) 0
  match v.chan, v.bind with
  | some c, _ => (s.setLane l { v with chan := none }).laneTune l c
  | none, none => s
  | none, some (chan, open_, close, flags) =>
    let s := s.setF (R.LANE_STATE_ARMED l) 0
    if chan ≠ 0 && s.mtb < close then
      (s.setLane l { v with bind := none, window := some (chan, open_, close, flags), open_ := false }).laneTune l chan
    else
      let s := (s.setLane l { v with bind := none, window := none, open_ := false }).laneTune l 0
      if chan = 0 then s else (s.bump R.MAC_CELL_COUNT_MISS).raise R.MAC_EVENT_CELL_MISS

/-- A change for a lane: at once when the lane may change, else it waits for IDLE (R171). -/
def State.laneChange (s : State) (l : Nat) (v : Lane) : State :=
  let s := s.setLane l v
  if s.mayBind l then s.laneApply l else s.setF (R.LANE_STATE_PENDING l) 1

/-- LANE_BINDING_APPLY: what waits takes effect when the lane reaches IDLE. -/
def execLaneBindingApply (lane : Fin 96) (s : State) : Res :=
  if s.mayBind lane then .next (s.laneApply lane) else .next s

/-! ### From preamble to FCS verdict (Table 08.3) -/

/-- A background calibration step of the transceiver covers `t`, on path B with `true` (R158). -/
def State.bgPath (s : State) (n t : Nat) : Option Bool :=
  let v := s.trx n
  if v.bgLast ≤ t + 1320 && t < v.bgLast then some v.bgPathB else none

/-- PREAMBLE_DETECT: an armed IDLE lane on which nothing waits detects a preamble; not during a background calibration step of a
transceiver with one path in use, in which the lane sees no samples (R158). -/
def execPreambleDetect (lane : Fin 96) (t : Nat) (s : State) : Res :=
  let l : Nat := lane
  let n := laneTrx l
  let v := s.lane l
  let s1 := s.advance t
  let deaf := (s.bgPath n s1.mtb).isSome && !(s.pathOn n false && s.pathOn n true)
  if s.laneState l = 0 && s.isSet (R.LANE_STATE_ARMED l) && v.chan.isNone && v.bind.isNone && !deaf then
    .next (s1.setLaneState l 1)
  else .next s

/-- PREAMBLE_LOST: the preamble is lost for 8 symbols without a sync point. -/
def execPreambleLost (lane : Fin 96) (t : Nat) (s : State) : Res :=
  let l : Nat := lane
  if s.laneState l = 1 then .next (((s.advance t).setLaneState l 0).bump (R.LANE_COUNT1_FALSE_PRE l)) else .next s

/-- The path a lane chooses (R180): 0 A, 1 B. During a background calibration step with both paths in use it is the other one, from
which the lanes take their samples (R158). -/
def State.choosePath (s : State) (l ts : Nat) (metA metB : Int) : Nat :=
  let n := laneTrx l
  let a := s.getF (R.LANE_CFG_AERIAL l)
  if a = 1 then 0 else if a = 2 then 1
  else if !s.pathOn n false then 1
  else if !s.pathOn n true then 0
  else match s.bgPath n ts with
    | some b => if b then 0 else 1
    | none => if metA < metB then 1 else 0

/-- The mean of measurements, to the nearest, an exact half up; none of no measurements. -/
def meanOf (l : List Int) : Option Int :=
  if l = [] then none else some ((2 * l.foldl (· + ·) 0 + l.length) / (2 * l.length : Nat))

/-- LQI (R188). -/
def lqiOf (rssi : Int) (noise : Option Int) : Nat :=
  match noise with
  | none => 255
  | some v => (min 255 (max 0 (rssi - v + 40))).toNat

/-- The hardware receive task (R273) takes its store entry, pins and record buffer together: its index, the record buffer;
or none, with the event that says what is missing. -/
def State.rxTask (s : State) (l : Nat) : Option Nat × State :=
  let ord := ordOf (s.getF R.PILLOW_HW_ORD_ORD)
  if 32768 ≤ s.pl.tasks.length then (none, (s.bump (R.PILLOW_COUNT_HI 3)).raise R.PILLOW_EVENT_TASKS_FULL)
  else if !s.windowRoom ord then (none, s.raise R.PILLOW_EVENT_ORDER_FULL)
  else match s.pickFree s.pl.records 4096 with
    | none => (none, s.raise R.PILLOW_EVENT_PINS_FULL)
    | some k =>
      let s := s.useFree
      match s.newTask {
          gen := 0, entry := if s.isSet R.PILLOW_HW_TASK_EN then s.getF R.PILLOW_HW_TASK_ENTRY else 0,
          kind := s.getF R.PILLOW_HW_TASK_KIND, flow := none, prio := s.getF R.PILLOW_HW_TASK_PRIO, ord := none, arg := 0,
          pins := [], record := some k, lane := some l } ord 3 with
      | none => (none, s.raise R.PILLOW_EVENT_PINS_FULL)
      | some (i, s) => (some i, { s with pl := { s.pl with records := s.pl.records ++ [k] } })

/-- CELL of Table 10.6 for a reception: the window in force, and every cell of the slot on the lane's channel and mode. -/
def State.rxCell (s : State) (l ts : Nat) : Nat :=
  let own := match (s.lane l).window with | some (_, _, _, f) => f | none => 0
  match Store.find? (s.asn ts) s.mac.plans with
  | none => own
  | some p => p.cells.foldl (fun (f : Nat) c =>
      if c.1 = laneTrx l && c.2.1 = s.laneChan l && c.2.2.1 = s.lanePhy l then f ||| c.2.2.2 else f) own

/-- A reception starts at a sync point (R185 to R188, R193, R273): measurements latched, the taps of an OFDM lane estimated (R189), the
sync part of the note pinned. -/
def State.syncStart (s : State) (l ts : Nat) (metA metB rssi cfo : Int) (coded preEmptor : Bool) (taps : List (Int × Int)) :
    State :=
  let n := laneTrx l
  let s := s.advance (ts + 212)
  let path := s.choosePath l ts metA metB
  let v := s.lane l
  let noise := meanOf (if path = 0 then v.idleA else v.idleB)
  let s := ((s.setF (R.LANE_STATE_PATH l) path).setF (R.LANE_RSSI_LAST l) (unsigned 16 rssi)).bump (R.LANE_COUNT0_SYNCS l)
  match s.rxTask l with
  | (none, s) =>
    ((s.rxLost l 6).setLane l { v with rx := none }).setLaneState l 4
  | (some i, s) =>
    let k := s.rd.next
    let flags := path + (if coded then 2 else 0) + (if s.siMeets n ts ts then 4 else 0)
    let d := leBytes 8 ts ++ leBytes 5 (s.asn ts) ++ leBytes 1 l ++ leBytes 2 (s.lanePhy l) ++ leBytes 4 (s.laneChan l) ++
      leBytes 2 (unsigned 16 rssi) ++ leBytes 1 (lqiOf rssi noise) ++ leBytes 1 flags ++ leBytes 2 (unsigned 16 cfo) ++
      List.replicate 4 (0 : Byte) ++ leBytes 1 (if preEmptor then 8 else 0) ++ List.replicate 5 (0 : Byte) ++
      leBytes 2 (match noise with | some x => unsigned 16 x | none => 0x8000) ++
      leBytes 1 (s.getF (if path = 0 then R.TRX_PATH_GAIN_A n else R.TRX_PATH_GAIN_B n))
    let r : Rx := { lane := l, task := some i, ts := ts, path := path, rssi := rssi,
                    diff := if path = 0 then metA - metB else metB - metA, cfo := cfo,
                    cell := s.rxCell l ts, chan := s.laneChan l, phy := s.lanePhy l,
                    taps := if phyFamily (s.lanePhy l) = 2 then taps.take (ofdmTaps (ofdmOpt (s.lanePhy l))) else [] }
    let s := { s with rd := { s.rd with next := k + 1 } }
    (((s.fillInline i 0 d).putRx k r).setLane l { v with rx := some k }).setLaneState l 2

/-- SYNC_POINT: the aerial is chosen, time stamp, RSSI, LQI and frequency offset are latched, the note is pinned. `taps`: what an OFDM
lane estimates from the LTF, one tap for each active subcarrier. -/
def execSyncPoint (lane : Fin 96) (ts : Nat) (metA metB rssi cfo : Int) (coded : Bool) (taps : List (Int × Int)) (s : State) :
    Res :=
  if s.laneState lane = 1 then .next (s.syncStart lane ts metA metB rssi cfo coded false taps) else .next s

/-- The outcome a header asks for (R175): 0 accepted, 4 PHR error, 5 mode not accepted. -/
def headerOutcome (code len info : Nat) (hcsOk modeSwitch coded : Bool) : Nat :=
  let fcs := if bitOf info 7 then 4 else 2
  if !hcsOk || len < fcs + 1 || (phyFamily code = 3 && len ≤ 4) then 4
  else if phyFamily code = 1 && (modeSwitch || (coded && fskFec code = 0)) then 5
  else if phyFamily code = 2 && !bitOf (ofdmMcs code) (info % 16) then 5
  else 0

/-- The reception of a lane in SYNC or PAYLOAD ends with an outcome other than complete: the lane is in DONE. -/
def State.laneFail (s : State) (l k o : Nat) : State :=
  ((s.rxEnd k o).setLane l { s.lane l with rx := none }).setLaneState l 4

/-- HEADER_DECODED: the header is accepted and a receive buffer taken, or the reception ends with an outcome (R175). -/
def execHeaderDecoded (lane : Fin 96) (len : Fin 2048) (info : Fin 256) (hcsOk modeSwitch : Bool) (t : Nat) (s : State) :
    Res :=
  let l : Nat := lane
  match s.laneState l, (s.lane l).rx with
  | 2, some k =>
    match s.rx? k with
    | none => .next s
    | some r =>
      let s := s.advance t
      let code := s.lanePhy l
      let coded := match r.task with
        | some i => (match s.pinCell i 0 with | some a => bitOf (s.readNat (a + 23) 1) 1 | none => false)
        | none => false
      let o := headerOutcome code len info hcsOk modeSwitch coded
      let s := s.noteWrite r 26 (leBytes 2 (if hcsOk then len else 0) ++ leBytes 1 info)
      if o ≠ 0 then .next (s.laneFail l k o)
      else match s.rxTake len with
        | none => .next (s.laneFail l k 6)
        | some (b, s) =>
          let s := s.noteWrite r 32 (leBytes 4 (rxBufAddr b))
          let s := match r.task with
            | some i => (match s.task? i with | some t => s.putTask i { t with rxBuf := some b } | none => s)
            | none => s
          let r : Rx := { r with len := len, phrInfo := info, fin := r.ts + bodyCyc code len info, known := true, buf := some b }
          let s := (s.putRx k r).setLaneState l 3
          let n := laneTrx l
          .next (if (Store.find? n s.mac.braids).isNone then s.group n else s)
  | _, _ => .next s

/-- The octets of a reception: those received or, on an OFDM lane, those that its symbols give through the equaliser (R189). -/
def Rx.octets (r : Rx) (psdu : List Byte) (symbols : List (List (Int × Int))) : List Byte :=
  if phyFamily r.phy = 2 then (ofdmPsdu r.phy r.phrInfo r.len r.taps symbols).map (fun x => BitVec.ofNat 8 x) else psdu

/-- The last symbol of the PSDU: the octets stand in the receive buffer, the lane is in DONE with outcome 1. -/
def State.lastSymbol (s : State) (l k : Nat) (r : Rx) (psdu : List Byte) : State :=
  let s := s.advance r.fin
  let s := match r.buf with | some b => s.writeBytes (rxBufAddr b) (psdu.take r.len) | none => s
  (s.rxEnd k 1).setLaneState l 4

/-- LAST_SYMBOL: with the octets received, or the symbols of an OFDM lane. -/
def execLastSymbol (lane : Fin 96) (psdu : List Byte) (symbols : List (List (Int × Int))) (s : State) : Res :=
  match s.laneState lane, (s.lane lane).rx with
  | 3, some k => (match s.rx? k with | some r => .next (s.lastSymbol lane k r (r.octets psdu symbols)) | none => .next s)
  | _, _ => .next s

/-- FCS_VERDICT: 40 cyc after the last symbol, and the lane returns to IDLE unless a further frame has taken it (R185). -/
def execFcsVerdict (lane : Fin 96) (ok : Bool) (s : State) : Res :=
  let l : Nat := lane
  let idle := fun (s : State) (k : Option Nat) =>
    if s.laneState l = 4 && (s.lane l).rx = k then (s.setLane l { s.lane l with rx := none }).setLaneState l 0 else s
  match List.find? (fun (x : Nat × Rx) => x.2.lane = l && x.2.done = 1 && x.2.fcs.isNone) s.rd.rxs with
  | none => .next (idle s none)
  | some (k, r) =>
    let s := idle (s.advance (r.fin + 40)) (some k)
    .next (((s.putRx k { r with fcs := some ok }).rxJudge k).macTick)

/-- SHADOW_SYNC_POINT: a further sync point while the lane receives (R179, R190, R191). `psdu` and `symbols` are what the reception in
progress has received, used when its last symbol falls in the same dcyc. -/
def execShadowSyncPoint (lane : Fin 96) (ts : Nat) (metA metB rssi cfo : Int) (coded : Bool) (taps : List (Int × Int))
    (psdu : List Byte) (symbols : List (List (Int × Int))) (s : State) : Res :=
  let l : Nat := lane
  let st := s.laneState l
  let fresh := fun (s : State) (mark : Bool) => s.syncStart l ts metA metB rssi cfo coded mark taps
  if st = 4 then .next (fresh s false)
  else match (if st = 2 || st = 3 then (s.lane l).rx else none) with
    | none => .next s
    | some k =>
      match s.rx? k with
      | none => .next s
      | some r =>
        if st = 3 && r.fin / 4 ≤ ts / 4 then .next (fresh (s.lastSymbol l k r (r.octets psdu symbols)) false)
        else if decide (r.rssi + 8 * (s.getF (R.LANE_CFG_CAPTURE l) : Nat) ≤ rssi) then
          .next (fresh ((s.advance ts).laneFail l k 2) true)
        else .next s

/-! ### Gain control (R181 to R184) -/

/-- The gain field of a path. -/
def gainField (n : Nat) (pathB : Bool) : Field := if pathB then R.TRX_PATH_GAIN_B n else R.TRX_PATH_GAIN_A n

/-- The receptions in SYNC or PAYLOAD on a path. -/
def State.onPath (s : State) (n : Nat) (pathB : Bool) : List Rx :=
  (s.rd.rxs.filter (fun r => laneTrx r.2.lane = n && r.2.done = 0 && r.2.path = (if pathB then 1 else 0))).map (·.2)

/-- A window of a path in cyc: 256 samples; 64 samples are a quarter of it (R181, R183). -/
def gainWindow (n : Nat) : Nat := if n < 2 then 10240 else 3072

/-- When the present window of a path began, and that one begins now. -/
def State.winFrom (s : State) (n : Nat) (b : Bool) : Nat := if b then (s.trx n).winB else (s.trx n).winA
def State.setWin (s : State) (n : Nat) (b : Bool) (t : Nat) : State :=
  s.setTrx n (if b then { s.trx n with winB := t } else { s.trx n with winA := t })

/-- A path is live: in use, and its transceiver is in RX (R148). -/
def State.pathLive (s : State) (n : Nat) (b : Bool) : Bool := s.pathOn n b && s.trxState n = 3 && (s.trx n).step.isNone

/-- GAIN_WINDOW_END: the present window of a live path ends with a level in 1/8 dB relative to full scale and the next begins; the
step changes as Table 08.4 states unless the path is frozen (R181, R182). -/
def execGainWindowEnd (trx : Fin 4) (pathB : Bool) (level : Int) (s : State) : Res :=
  let f := gainField trx pathB
  let g := s.getF f
  if !s.pathLive trx pathB then .next s
  else
    let e := s.winFrom trx pathB + gainWindow trx
    let s := (s.advance e).setWin trx pathB e
    if s.onPath trx pathB ≠ [] then .next s
    else if decide (-96 < level) then .next (s.setF f (g - 1))
    else if decide (level < -168) then .next (s.setF f (min 10 (g + 1)))
    else .next s

/-- ADC_CLIP: a live path steps down at once, frozen or not, but not sooner than 64 samples after its last clip step; a new window
starts, and the notes of its receptions say so (R183, R184). -/
def execAdcClip (trx : Fin 4) (pathB : Bool) (t : Nat) (s : State) : Res :=
  let n : Nat := trx
  let f := gainField n pathB
  let s1 := s.advance t
  let last := if pathB then (s.trx n).clipB else (s.trx n).clipA
  let soon := match last with | some c => decide (s1.mtb < c + gainWindow n / 4) | none => false
  if !s.pathLive n pathB || s.getF f = 0 || soon then .next s
  else
    let v := s1.trx n
    let s := (s1.setTrx n (if pathB then { v with clipB := some s1.mtb } else { v with clipA := some s1.mtb })).setWin n pathB s1.mtb
    .next ((s.setF f (s.getF f - 1)).each (s.onPath n pathB) (fun s r => s.noteFlags r 6))

/-- IDLE_POWER_WINDOW_END: an idle window ends with the power on each path, in 1/8 dB, dBm (R187). -/
def execIdlePowerWindowEnd (lane : Fin 96) (powA powB : Int) (s : State) : Res :=
  let l : Nat := lane
  let v := s.lane l
  if s.laneState l ≠ 0 then .next s
  else
    let n := laneTrx l
    let top := if !s.isSet (R.TRX_PATH_ON_A n) then powB else if !s.isSet (R.TRX_PATH_ON_B n) then powA else max powA powB
    let s := s.setLane l { v with idleA := (powA :: v.idleA).take 4, idleB := (powB :: v.idleB).take 4 }
    .next (s.setF (R.LANE_RSSI_IDLE l) (unsigned 16 top))

/-! ### LANE registers (R196) -/

/-- A LANE refusal (R196). -/
def State.laneRefuse (s : State) (l st : Nat) : State := s.refuse (R.LANE_CFG_STATUS l) st

/-- LANE_CHAN_WRITE: a fixed lane's CHAN_KHZ, within R174 and R38, applied by R171. -/
def State.laneChanWrite (s : State) (l chan : Nat) : State :=
  match s.laneRec l, s.trxRec (laneTrx l) with
  | some r, some t =>
    if chan = s.laneChan l && (s.lane l).chan.isNone then s.answer ST.OK
    else if r.bind = 2 then s.laneRefuse l ST.LANE_BIND
    else if !inSpan t chan (occKhz (s.lanePhy l)) then s.laneRefuse l ST.LANE_SPAN
    else (s.laneChange l { s.lane l with chan := some chan }).answer ST.OK
  | _, _ => s.laneRefuse l ST.LANE_UNUSED

/-- LANE_CHAN_WRITE (R171). -/
def execLaneChanWrite (lane : Fin 96) (chan : BitVec 24) (s : State) : Res := .next (s.laneChanWrite lane chan.toNat)

/-- LANE_COUNT_CLEAR: LANE_CFG.CLR clears LANE_COUNT0 and LANE_COUNT1. -/
def State.laneClear (s : State) (l : Nat) : State :=
  if (s.laneRec l).isNone then s.laneRefuse l ST.LANE_UNUSED
  else ((s.setReg (R.LANE_COUNT0 l) 0).setReg (R.LANE_COUNT1 l) 0).answer ST.OK

/-- LANE_COUNT_CLEAR (R196). -/
def execLaneCountClear (lane : Fin 96) (s : State) : Res := .next (s.laneClear lane)

end Sys2Proof.Machine
end

