-- ==== Sys2Proof/Machine/Mac.lean ====
section
/-!
DEFINITION. The MAC's commands (10_slots_and_access.md): slots and lane plans, transmit requests, channel access, Enhanced
Beacons, the duty account, the MAC registers' actions.
-/
namespace Sys2Proof.Machine

/-! ### Cells (R219, R220) -/

/-- Bank of a PAN's slotframe register. -/
def sfBank (p h : Nat) : Nat := p * 8 + h

/-- The rows of a chain from a row offset on, as absolute addresses, and how many links were ignored. -/
def State.rowChain (s : State) (off : Nat) : Nat → List Nat × Nat
  | 0 => ([], 0)
  | fuel + 1 =>
    let a := (s.region 2).1 + off
    let next := s.readNat a 4
    if next = 0 then ([a], 0)
    else if fuel = 0 || next % 256 ≠ 0 || (s.region 2).2 < next + 256 then ([a], 1)
    else let r := s.rowChain next fuel; (a :: r.1, r.2)

/-- The cells of a row chain in order, each with its place. -/
def State.rowCells (s : State) (h p : Nat) (rows : List Nat) : List Cell :=
  let at_ := rows.flatMap (fun a => (List.range (min 15 (s.readNat (a + 4) 1))).map (fun k => a + 16 + 16 * k))
  (at_.zip (List.range at_.length)).map (fun x =>
    let w := s.readNat (x.1 + 3) 1
    { handle := h, pan := p, pos := x.2, choff := s.readNat x.1 2, opt := s.readNat (x.1 + 2) 1, trx := w % 4,
      mode := w / 4 % 4, node := s.readNat (x.1 + 4) 4 % 2 ^ 18 })

/-- Every slotframe that is enabled in an enabled TSCH PAN, by handle, then PAN. -/
def State.slotframes (s : State) : List (Nat × Nat) :=
  (List.range 8).flatMap (fun h => ((List.range s.pr.pans.length).filter (fun p =>
    s.panEnabled p && s.tsch p && s.isSet (R.MAC_SF_CFG_EN.bank (sfBank p h)))).map (fun p => (h, p)))

/-- The cells of slot `a` by handle, PAN and place, and how many links were ignored. -/
def State.slotCells (s : State) (a : Nat) : List Cell × Nat :=
  (s.slotframes).foldl (fun (acc : List Cell × Nat) (x : Nat × Nat) =>
    let b := sfBank x.2 x.1
    let row := s.getF (R.MAC_SF_BASE_ROW_BASE.bank b) + 256 * (a % max 1 (s.getF (R.MAC_SF_CFG_LENGTH.bank b)))
    let r := s.rowChain row 8
    (acc.1 ++ s.rowCells x.1 x.2 r.1, acc.2 + r.2)) ([], 0)

/-- The plan lanes of a transceiver, and its plan modes (R220). -/
def State.planLanes (s : State) (n : Nat) : List Nat :=
  (s.lanesOf n).filter (fun l => match s.laneRec l with | some r => r.bind == 2 | none => false)
def State.planModes (s : State) (n : Nat) : List Nat :=
  (s.planLanes n).foldl (fun (m : List Nat) l => withOne (s.lanePhy l) m) []

/-- A cell's channel in kHz in slot `a`. -/
def State.cellChan (s : State) (c : Cell) (a : Nat) : Nat :=
  let k := (a + c.choff) % max 1 (s.getF (R.MAC_PAN_CHAN_HOP_LEN.bank c.pan))
  s.getF (R.MAC_PAN_CHAN_CH0_KHZ.bank c.pan) +
    s.getF (R.MAC_HOP_DATA_CHANNEL.bank (c.pan * 128 + k)) * s.getF (R.MAC_PAN_SPACING_SPACING_KHZ.bank c.pan)

/-- The code of a cell's plan mode. -/
def State.cellMode (s : State) (c : Cell) : Option Nat := (s.planModes c.trx)[c.mode]?

/-- A cell that the engine does not skip. -/
def State.cellOk (s : State) (c : Cell) (a : Nat) : Bool :=
  match s.panRec c.pan, s.cellMode c, s.trxRec c.trx with
  | some p, some m, some t =>
    bitOf p.trxMask c.trx && s.getF (R.MAC_PAN_SPACING_SPACING_KHZ.bank c.pan) ≠ 0 && inSpan t (s.cellChan c a) (occKhz m)
  | _, _, _ => false

/-! ### The lane plan (R221 to R223) -/

/-- One mode of a plan mode for a transmission: an OFDM code that accepts several MCS is narrowed to one of them. -/
def State.oneMode (s : State) (code : Nat) : Nat :=
  if phyFamily code = 2 then
    let ks := (List.range 7).filter (fun k => bitOf (ofdmMcs code) k)
    code - ofdmMcs code + 2 ^ (ks.getD (s.freeVal % max 1 ks.length) 0)
  else code

/-- What is sent by a command under way or in a plan. -/
def State.inPlans (s : State) (o : CmdOf) : Bool :=
  s.mac.plans.any (fun p => p.2.txs.any (fun x => x.of == o)) || s.mac.cmds.any (fun c => c.2.of == o)

/-- An Enhanced Beacon of a PAN is due on a transceiver and may be sent (R227). -/
def State.beaconReady (s : State) (p n : Nat) : Bool :=
  s.mac.ebDue.contains (p * 4 + n) && s.ebOk && s.getF (R.MAC_PAN_EB_BUF.bank p) ≠ 0 && s.roleSends &&
  !s.mac.cmds.any (fun c => c.2.trx = n && c.2.of == .beacon p) &&
  !s.mac.plans.any (fun q => q.2.txs.any (fun x => x.trx = n && x.of == .beacon p))

/-- A pending frame that could leave in a cell's slot `a`: it waits, its DEADLINE has not passed, it is the first for its next hop, is
not planned already and fits into TsMaxTx. -/
def State.frameReady (s : State) (c : Cell) (m a : Nat) (f : Nat × Frame) : Bool :=
  f.2.state == .waiting && f.2.inTime a && f.2.req.pan = c.pan && s.hopHead f.1 f.2 && !s.inPlans (.frame f.1) &&
  decide (f.2.req.air m ≤ s.tpl c.pan 11)

/-- The work of a TX cell in slot `a` (R222): a due beacon, or the oldest eligible frame. -/
def State.cellWork (s : State) (c : Cell) (m a : Nat) : Option CmdOf :=
  if bitOf c.opt 4 && s.beaconReady c.pan c.trx then some (.beacon c.pan)
  else
    let ok := fun (f : Nat × Frame) => s.frameReady c m a f &&
      (if bitOf c.opt 2 then f.2.skip = 0 && !s.tracked f.2.req.node
       else f.2.req.node = c.node &&
         (!s.tracked c.node || (match Store.find? c.node s.sl.acts with | some x => x.slot == some a | none => false)))
    if s.roleSends then (List.find? ok s.mac.frames).map (fun f => CmdOf.frame f.1) else none

/-- A SHARED cell passes: frames of its PAN in a TSCH back-off have one cell fewer to skip. -/
def State.sharedPass (s : State) (c : Cell) : State :=
  if !bitOf c.opt 2 then s
  else { s with mac := { s.mac with frames := s.mac.frames.map (fun (f : Nat × Frame) =>
    if f.2.req.pan = c.pan && f.2.state == .waiting then (f.1, { f.2 with skip := f.2.skip - 1 }) else f) } }

/-- An Enhanced Beacon's template (R227), and its octets as it goes on air, FCS excluded: with a MIC where the template's Frame Control
field asks for security, by the level of its auxiliary security header. -/
def State.beaconTemplate (s : State) (p : Nat) : List Nat :=
  nats (s.readBytes (s.getF (R.MAC_PAN_EB_BUF.bank p)) (s.getF (R.MAC_PAN_EB_CFG_LEN.bank p)))
def beaconLevel (l : List Nat) : Nat := if bitOf (fcfOf l) 3 then l.getD (addrLen l) 0 % 8 else 0
def State.beaconLen (s : State) (p : Nat) : Nat :=
  let l := s.beaconTemplate p
  l.length + (if beaconLevel l = 0 then 0 else micOctets (beaconLevel l))

/-- Airtime of what a cell sends. -/
def State.ofAir (s : State) (o : CmdOf) (phy : Nat) : Nat :=
  match o with
  | .beacon p => airCyc phy (s.beaconLen p + fcsOctets phy)
  | .frame id => (match s.frame? id with | some f => f.req.air phy | none => 0)
  | _ => 0

/-- The lane that serves an acknowledgement window: a fixed lane on the channel with the mode, else the first plan lane of
the mode. -/
def State.ackLane (s : State) (n chan m : Nat) : Option (Nat × Bool) :=
  match (s.lanesOf n).find? (fun l => s.fixedLane l && s.laneChan l = chan && s.lanePhy l = m) with
  | some l => some (l, false)
  | none => ((s.planLanes n).find? (fun l => s.lanePhy l = m)).map (fun l => (l, true))

/-- The transmitting cell of a transceiver among its TX cells, with the state after the shared cells examined (R222). -/
def State.planTx (s : State) (a start : Nat) (plan : SlotPlan) : List Cell → State × SlotPlan
  | [] => (s, plan)
  | c :: cs =>
    match s.cellMode c with
    | none => s.planTx a start plan cs
    | some m =>
      let w := s.cellWork c m a
      let s := s.sharedPass c
      match w with
      | none => s.planTx a start plan cs
      | some o =>
        let chan := s.cellChan c a
        match s.ackLane c.trx chan m with
        | none => (s.bump R.MAC_CELL_COUNT_SKIP).planTx a start plan cs
        | some (l, bind) =>
          let phy := s.oneMode m
          let act := match o, Store.find? c.node s.sl.acts with
            | .frame _, some x => if x.slot = some a && s.tracked c.node then some x.shift else none
            | _, _ => none
          let dep : Int := (start + s.tpl c.pan 3 : Nat) - (match act with | some x => x | none => 0)
          let fin := dcycEdge dep.toNat + s.ofAir o phy
          let open_ := dcycEdge (fin + s.tpl c.pan 5)
          let binds := if bind then plan.binds ++ [⟨l, chan, open_, open_ + s.tpl c.pan 8, 1⟩] else plan.binds
          (s.useFree, { plan with
            binds := binds, txs := plan.txs ++ [⟨c.trx, c, chan, phy, o, l, act⟩],
            cells := plan.cells ++ [(c.trx, chan, m, 1)] })

/-- bind_rx (R223): the RX cells of a transceiver, timekeeping cells first, are bound to plan lanes. -/
def State.planRx (s : State) (a start : Nat) (plan : SlotPlan) : List Cell → State × SlotPlan
  | [] => (s, plan)
  | c :: cs =>
    match s.cellMode c with
    | none => s.planRx a start plan cs
    | some m =>
      let ch := s.cellChan c a
      let bound := plan.binds.any (fun b => laneTrx b.lane = c.trx && b.chan = ch && s.lanePhy b.lane = m) ||
        (s.lanesOf c.trx).any (fun l => s.fixedLane l && s.laneChan l = ch && s.lanePhy l = m)
      let flags := 1 + (if bitOf c.opt 2 then 2 else 0) + (if bitOf c.opt 3 then 4 else 0)
      let plan : SlotPlan := { plan with cells := plan.cells ++ [(c.trx, ch, m, flags)] }
      if bound then s.planRx a start plan cs
      else match (s.planLanes c.trx).find? (fun l => s.lanePhy l = m && !plan.binds.any (fun b => b.lane = l)) with
        | none => ((s.bump R.MAC_CELL_COUNT_MISS).raise R.MAC_EVENT_CELL_MISS).planRx a start plan cs
        | some l =>
          let open_ := dcycEdge (start + s.tpl c.pan 4)
          s.planRx a start { plan with binds := plan.binds ++ [⟨l, ch, open_, open_ + s.tpl c.pan 7, flags⟩] } cs

/-- The plan grows by what transceiver `n` does with its cells of the slot: one transmission, or its receptions. -/
def State.planTrx (s : State) (a start : Nat) (plan : SlotPlan) (mine : List Cell) (n : Nat) : State × SlotPlan :=
  let t := s.planTx a start plan (mine.filter (fun c => bitOf c.opt 0))
  if t.2.txs.any (fun x => x.trx = n) then t
  else
    let rx := mine.filter (fun c => bitOf c.opt 1)
    t.1.planRx a start t.2 (rx.filter (fun c => bitOf c.opt 3) ++ rx.filter (fun c => !bitOf c.opt 3))

/-- The plan grows transceiver by transceiver. -/
def State.planAll (s : State) (a start : Nat) (plan : SlotPlan) (good : List Cell) : List Nat → State × SlotPlan
  | [] => (s, plan)
  | n :: l =>
    let t := s.planTrx a start plan (good.filter (fun c => c.trx = n)) n
    t.1.planAll a start t.2 good l

/-- A cell fits into a slot from `start` on that the step of R133 may cut short. -/
def State.cellFits (s : State) (start : Nat) (c : Cell) : Bool :=
  match s.tm.step with
  | none => true
  | some (_, at_) =>
    let need := if bitOf c.opt 0 then s.tpl c.pan 3 + s.tpl c.pan 11 + s.tpl c.pan 5 + s.tpl c.pan 8 else s.tpl c.pan 4 + s.tpl c.pan 7
    at_ ≤ start || decide (start + need ≤ at_)

/-- The lane plan of slot `a`. -/
def State.buildPlan (s : State) (a : Nat) : State × SlotPlan :=
  let r := s.slotCells a
  let s := if r.2 = 0 then s else (s.addF R.MAC_CELL_COUNT2_ROWS r.2).raise R.MAC_EVENT_PLAN_ROWS
  let good := r.1.filter (fun c => s.cellOk c a && s.cellFits (s.slotAt a) c)
  (s.addF R.MAC_CELL_COUNT_SKIP (r.1.length - good.length)).planAll a (s.slotAt a) {} good (List.range 4)

/-- LANE_PLAN_COMPLETE: the row reads for the slot two after the present one are complete and its plan is fixed (R221). -/
def execLanePlanComplete (s : State) : Res :=
  match s.mac.slot with
  | none => .next s
  | some a =>
    let b := (a + 2) % 2 ^ 40
    if (Store.find? b s.mac.plans).isSome then .next s
    else
      let r := s.buildPlan b
      .next { r.1 with mac := { r.1.mac with plans := Store.put b r.2 r.1.mac.plans } }

/-- The bindings of a plan go to the lanes; a plan lane without one is unbound (R221, R171). -/
def State.handBinds (s : State) (plan : SlotPlan) : State :=
  s.each ((List.range 4).flatMap s.planLanes) (fun s l =>
    match plan.binds.find? (fun b => b.lane = l) with
    | some b => s.laneChange l { s.lane l with bind := some (b.chan, b.open_, b.close, b.flags) }
    | none =>
      let v := s.lane l
      if v.bind.isNone && v.window.isNone then s else s.laneChange l { v with bind := some (0, 0, 0, 0) })

/-- SLOT_START: in RUNNING (R89, R92) a slot starts: its bindings go to the lanes, a steered attempt for which the engine took other
work is missed (R246), the slot's expiries are shown (SLEEP_LOAD), earlier plans are dropped. -/
def execSlotStart (t : Nat) (s : State) : Res :=
  let s := s.advance t
  let a := s.asn s.mtb
  if !s.running || s.mac.slot = some a then .next s
  else
    let plan := match Store.find? a s.mac.plans with | some p => p | none => {}
    let s := { s with mac := { s.mac with slot := some a, plans := s.mac.plans.filter (fun p => a ≤ p.1) } }
    let s := s.handBinds plan
    let all := min 65535 (s.sl.loadNow + s.sl.deferred.length)
    let s := (s.setF R.SLEEP_LOAD_LAST s.sl.loadNow).setF R.SLEEP_LOAD_MAX (max (s.getF R.SLEEP_LOAD_MAX) all)
    let s := { s with sl := { s.sl with loadSlot := a, loadNow := 0, deferred := [] } }
    let lost := (s.sl.acts.filter (fun (x : Nat × Act) => x.2.slot = some a &&
      !plan.txs.any (fun c => c.cell.node = x.1 && (match c.of with | .frame _ => true | _ => false)))).map (·.1)
    .next ((s.each lost (fun s n => s.missed n false)).macTick)

/-! ### Issuing in a cell (R222, R227, R230) -/

/-- Issue an Enhanced Beacon (R227): KIND 3 with the ASN picot, the template with the join metric set, under the PAN's group key where
its header asks for security; the spec names no counter for that key: a free value. One that the duty account or OFF_MS holds
stays due. -/
def State.issueBeacon (s : State) (n p phy chan tDep : Nat) : State :=
  let len := s.beaconLen p
  let air := airCyc phy (len + fcsOctets phy)
  if s.offWait n then s
  else if !s.dutyFits n air then s.dutyRefuse n
  else
    let r := s.dutyTake n tDep air
    let flags := s.pathAny n + 2 + (if fcsOctets phy = 4 then 8 else 0)
    let t := s.beaconTemplate p
    let l := match syncAt t with
      | some o => setOctets t (o + 5) [s.getF (R.MAC_PAN_EB_CFG_JOIN_METRIC.bank p)]
      | none => t
    let c := s.freeVal % 2 ^ 32
    let x := if beaconLevel t = 0 then none else some ⟨beaconLevel t, s.groupKey p, c, mhrLen l⟩
    (r.2.useFree).macIssue n
      { tDep := tDep, slack := 0, tag := 0, kind := 3, flags := flags, phy := phy, power := 0x80, chanKhz := chan,
        buf := s.getF (R.MAC_PAN_EB_BUF.bank p), len := len, reserved := false,
        psdu := if beaconLevel t = 0 then l else putCounter l c }
      { of := .beacon p, trx := n, air := air, bucket := r.1, sealed := x }

/-- The transmission that the plan of slot `a` still holds for a transceiver. -/
def State.slotTx (s : State) (a n : Nat) : Option TxCell :=
  match Store.find? a s.mac.plans with
  | some p => p.txs.find? (fun x => x.trx = n)
  | none => none

/-- The slot's transmission on a transceiver is no longer in the plan. -/
def State.dropTx (s : State) (a n : Nat) : State :=
  match Store.find? a s.mac.plans with
  | none => s
  | some p => { s with mac := { s.mac with plans := Store.put a { p with txs := p.txs.filter (fun x => x.trx != n) } s.mac.plans } }

/-- An attempt of the scheduler's that channel access has kept back is decided upon anew (R252). -/
def State.heldBack (s : State) (id : Nat) : State :=
  match s.frame? id with
  | some f => if s.tracked f.req.node && f.state == .waiting then (s.actDel f.req.node).t3Set f.req.node else s
  | none => s

/-- A planned transmission of slot `a` is issued in the roles that send (R242): it departs TsTxOffset after the slot start, less the
shift of a steered one, with SLACK 0 (R252). -/
def State.issueCell (s : State) (a : Nat) (x : TxCell) : State :=
  let s := s.dropTx a x.trx
  let dep : Int := (s.slotStart s.mtb 0 + s.tpl x.cell.pan 3 : Nat) - (match x.shift with | some v => v | none => 0)
  if !s.roleSends then s
  else
    let s : State := { s with mac := { s.mac with txSlots := Store.put x.trx a s.mac.txSlots } }
    match x.of with
    | .beacon p => s.issueBeacon x.trx p x.phy x.chan dep.toNat
    | .frame id => (s.issueFrame id x.trx x.phy x.chan dep.toNat 0 0 x.shift (bitOf x.cell.opt 2)).heldBack id
    | _ => s

/-- Carrier sense holds a TSCH transmission back (R230): the attempt counts towards RETRIES and the TSCH back-off. -/
def State.cellBusy (s : State) (a : Nat) (x : TxCell) : State :=
  let s := s.dropTx a x.trx
  match x.of with
  | .frame id =>
    match s.frame? id with
    | none => s
    | some f =>
      if s.tracked f.req.node then (s.putFrame id { f with state := .waiting, counter := none, octets := [] }).missed f.req.node false
      else if s.getF R.MAC_TSCH_CFG_RETRIES ≤ f.resends then (s.raise R.MAC_EVENT_NO_ACK).frameEnd id ST.MAC_NO_ACK
      else
        let g : Frame := { f with state := .waiting, counter := none, octets := [], resends := f.resends + 1 }
        if bitOf x.cell.opt 2 then
          s.drbgUse.putFrame id { g with be := min (f.be + 1) (s.getF R.MAC_TSCH_CFG_MAX_BE), skip := s.freeVal % 2 ^ f.be }
        else s.putFrame id g
  | _ => s

/-- TSCH_TX_CELL: in the roles that send, the slot's transmission on a transceiver is issued, after carrier sense from TsCCAOffset on
when LBT is on (R222, R230, R242). -/
def execTschTxCell (trx : Fin 4) (t : Nat) (s : State) : Res :=
  let n : Nat := trx
  let s := s.advance t
  match s.mac.slot with
  | none => .next s
  | some a =>
    match s.slotTx a n with
    | none => .next s
    | some x =>
      let asked := fun (y : Sense) => y.slot = some a && y.of == x.of
      if !s.roleSends || s.mac.senses.any (fun y => y.1 / 2 = n && asked y.2) ||
          s.mac.senseWait.any (fun y => y.1 = n && asked y.2) then .next s
      else if !s.lbt n then .next (s.issueCell a x).macTick
      else
        let from_ := s.slotStart s.mtb 0 + s.tpl x.cell.pan 1
        let s := match x.of with
          | .frame id => (match s.frame? id with | some f => s.putFrame id { f with state := .sense } | none => s)
          | _ => s
        .next (s.senseAsk n { of := x.of, chan := x.chan, dur := s.ccaLen n x.phy, from_ := from_, slot := some a })

/-! ### Transmit requests (R224, R225, R245) -/

/-- The request that 32 octets spell (Table 10.4). -/
def txReqOf (b : List Byte) : TxReq :=
  let n := fun (o k : Nat) => leNat ((b.drop o).take k)
  { node := n 0 4 % 2 ^ 18, pan := n 4 1, ar := bitOf (n 5 1) 0, fp := bitOf (n 5 1) 1, tag := n 6 2, buf := n 8 4,
    len := n 12 2, sec := n 14 1, key := n 15 1, deadline := n 16 5, power := n 21 1, phy := n 22 2, chan := n 24 4,
    reserved := decide (n 0 4 / 2 ^ 18 ≠ 0) || decide (n 5 1 / 4 ≠ 0) || decide (n 28 4 ≠ 0) }

/-- The transceivers that may send a request's frame: those of a TSCH PAN, the one that serves a CSMA-CA request. -/
def State.reqTrxs (s : State) (r : TxReq) (p : PanRec) : List Nat :=
  if p.access = 1 then (List.range 4).filter (fun n => bitOf p.trxMask n && (s.trxRec n).isSome) else (s.csmaTrx r).toList

/-- The frame of a TSCH request fits into the largest PSDU of some plan mode of a transceiver (R175); without plan modes nothing
limits it. -/
def State.psduFits (s : State) (r : TxReq) (n : Nat) : Bool :=
  let ms := s.planModes n
  if ms.isEmpty then r.octets + 4 ≤ 2047 else ms.any (fun m => decide (r.octets + fcsOctets m ≤ maxPsdu m))

/-- A request's values are in range (R224): POWER and length for a transceiver that may send it. -/
def State.reqOk (s : State) (r : TxReq) : Bool :=
  match s.panRec r.pan with
  | none => false
  | some p =>
    !r.reserved && (r.node = nodeNone || r.node < s.pr.table.nodeLimit) && r.sec ≤ 7 && r.key ≤ 1 &&
    0x10000000 ≤ r.buf && r.buf + r.len ≤ 0x10600000 && 1 ≤ r.len && p.minSec ≤ r.sec &&
    !(r.key = 1 && !s.isSet (R.MAC_PAN_KEY_VALID.bank r.pan)) &&
    (if p.access = 1 then r.phy = 0 && r.chan = 0 && (s.reqTrxs r p).any (fun n => powerOk n r.power && s.psduFits r n)
     else phyOne r.phy && (s.reqTrxs r p).any (fun n => powerOk n r.power) && r.octets + fcsOctets r.phy ≤ maxPsdu r.phy)

/-- No mode in which the request could be sent brings it under TsMaxTx of its PAN's template (R224). -/
def State.reqLong (s : State) (r : TxReq) : Bool :=
  match s.panRec r.pan with
  | none => false
  | some p =>
    if p.access = 1 then
      ((List.range 4).filter (fun n => bitOf p.trxMask n)).all (fun n =>
        (s.planModes n).all (fun m => decide (s.tpl r.pan 11 < r.air m)))
    else decide (usToCyc (tplUs 0 11) < r.air r.phy)

/-- Answer a request with a completion record of its own: nothing has been sent. -/
def State.reqRefuse (s : State) (r : TxReq) (st : Nat) : State :=
  let id := s.mac.nextId
  let s := s.setF R.MAC_CMD_ERR_STATUS st
  let s := s.putFrame id { req := r, state := .complete, status := st }
  ({ s with mac := { s.mac with nextId := id + 1 } }).frameRelease

/-- A request is judged and, when nothing speaks against it, enters the pending store. -/
def State.request (s : State) (r : TxReq) (seq : Option Nat) : State :=
  let pending := (s.mac.frames.filter (fun f => f.2.state != .complete)).length
  if !s.reqOk r then s.reqRefuse r ST.MAC_RANGE
  else if s.reqLong r then s.reqRefuse r ST.MAC_TOO_LONG
  else if !s.panEnabled r.pan || !s.roleSends then s.reqRefuse r ST.MAC_STATE
  else if 8192 ≤ pending then (s.raise R.MAC_EVENT_PEND_FULL).reqRefuse r ST.MAC_PEND_FULL
  else if r.node ≠ nodeNone && s.tracked r.node && s.slState r.node = 5 then s.reqRefuse r ST.SLEEP_UNREACHABLE
  else
    let id := s.mac.nextId
    let s := s.putFrame id { req := r, seq := seq, be := s.getF R.MAC_TSCH_CFG_MIN_BE }
    let s := { s with mac := { s.mac with nextId := id + 1 } }
    if s.tracked r.node then (if (Store.find? r.node s.sl.acts).isSome then s else s.t3Set r.node) else s

/-- The sequence number of the MPDU at an address: its Frame Control field may suppress it. -/
def State.mpduSeq (s : State) (a : Nat) : Option Nat :=
  if s.readNat a 2 / 4096 % 4 = 2 && bitOf (s.readNat a 2) 8 then none else some (s.readNat (a + 2) 1)

/-- An entry's item: its own, or the octets at its address. -/
def State.itemOf (s : State) (e : Entry) (n : Nat) : List Byte := if e.item.isEmpty then s.readBytes e.addr n else e.item

/-- The first queue of the MAC whose oldest entry comes from a shuttle, or from elsewhere. -/
def State.macQueue (s : State) (shuttle : Bool) : Option (Nat × Entry) :=
  match (s.consumedBy 0x30).find? (fun q => match s.head? q with
      | some e => (0x20 ≤ e.src && e.src ≤ 0x23) == shuttle
      | none => false) with
  | none => none
  | some q => (s.head? q).map (fun e => (q, e))

/-- TX_REQUEST: the MAC takes a transmit request from its queue (R224). -/
def execTxRequest (t : Nat) (s : State) : Res :=
  let s := s.advance t
  match s.macQueue false with
  | none => .next s
  | some (q, e) =>
    let r := txReqOf (s.itemOf e 32)
    let seq := s.mpduSeq r.buf
    .next ((((s.dequeue q).emit (.entry q e)).request r seq).macTick)

/-! ### Channel access (R228 to R230, R252) -/

/-- A further back-off after a busy channel, or the end of the attempts (R229). -/
def State.csmaBusy (s : State) (id n : Nat) (f : Frame) : State :=
  let nb := f.nb + 1
  if s.getF R.MAC_CSMA_CFG_MAX_BACKOFFS < nb then s.frameEnd id ST.MAC_ACCESS_FAIL
  else
    let f : Frame := { f with nb := nb, be := min (f.be + 1) (s.getF R.MAC_CSMA_CFG_MAX_BE), counter := none, octets := [] }
    if s.lbt n then
      let top := match s.trxProfile n with | some p => p.backoffUs | none => 0
      s.drbgUse.putFrame id { f with state := .backoff, until_ := s.mtb + usToCyc (s.freeVal % (top + 1)) }
    else s.csmaBackoff id f

/-- Whether a lane of the transceiver is in SYNC or PAYLOAD. -/
def State.anyLive (s : State) (n : Nat) : Bool := (s.lanesOf n).any (fun l => s.laneState l = 2 || s.laneState l = 3)

/-- A carrier sense for a frame outside a TSCH cell has ended. -/
def State.frameSensed (s : State) (id n chan : Nat) (busy : Bool) : State :=
  match s.frame? id with
  | none => s
  | some f =>
    let m := f.req.node
    match (if s.tracked m then Store.find? m s.sl.acts else none), Store.find? m s.sl.csl with
    | some a, some c =>
      if busy then ((s.putFrame id { f with state := .waiting, counter := none, octets := [] }).actDel m).t3Set m
      else (s.issueFrame id n c.phy chan a.dep 0 a.wus (some a.shift) false).heldBack id
    | _, _ =>
      if busy || s.anyLive n then s.csmaBusy id n f
      else s.issueFrame id n f.req.phy chan (s.mtb + 48064) 0 0 none false

/-- CARRIER_SENSE_END: a sense interval ends; `level` is its highest window on either path, in 1/8 dB, dBm (R228). -/
def execCarrierSenseEnd (trx : Fin 4) (tap : Fin 2) (level : Int) (s : State) : Res :=
  let n : Nat := trx
  let k := 2 * n + tap
  match Store.find? k s.mac.senses with
  | none => .next s
  | some x =>
    let s := s.advance x.until_
    let busy := s.senseBusy n x level
    let s := { s with mac := { s.mac with senses := Store.del k s.mac.senses } }
    let s := match x.slot, x.of with
      | some a, _ =>
        (match s.slotTx a n with
         | none => s
         | some y => if busy then s.cellBusy a y else s.issueCell a y)
      | none, .frame id => s.frameSensed id n x.chan busy
      | none, _ => s
    .next s.macTick

/-- CSMA_BACKOFF_END: a back-off ends and carrier sense starts (R229). -/
def execCsmaBackoffEnd (frame : Nat) (s : State) : Res :=
  match s.frame? frame with
  | none => .next s
  | some f =>
    if f.state != .backoff then .next s
    else match s.csmaTrx f.req with
      | none => .next s
      | some n => .next ((s.advance f.until_).csmaSense frame n f)

/-- ACK_WAIT_TIMEOUT: the acknowledgement window of a frame has passed with every reception that began in it decided
(R225, R254). -/
def execAckWaitTimeout (frame : Nat) (t : Nat) (s : State) : Res :=
  match s.frame? frame with
  | none => .next s
  | some f =>
    if f.state != .ackWait || t < f.until_ ||
        s.rd.rxs.any (fun r => laneTrx r.2.lane = f.trx && f.sent < r.2.ts && r.2.ts ≤ f.until_) then .next s
    else .next (((s.advance t).ackMissing frame f).macTick)

/-- FRAME_DEADLINE_EXPIRY: a frame that still waits after its DEADLINE slot completes (R225, R231). -/
def execFrameDeadlineExpiry (frame : Nat) (t : Nat) (s : State) : Res :=
  match s.frame? frame with
  | none => .next s
  | some f =>
    let s := s.advance t
    if f.req.deadline = 0xFFFFFFFFFF || s.asn s.mtb ≤ f.req.deadline ||
        !(f.state == .waiting || f.state == .backoff || f.state == .sense) then .next s
    else
      let s := s.frameEnd frame (if f.held then ST.MAC_DUTY else ST.MAC_EXPIRED)
      let s := { s with mac := { s.mac with
        senses := s.mac.senses.filter (fun x => x.2.of != CmdOf.frame frame),
        senseWait := s.mac.senseWait.filter (fun x => x.2.of != CmdOf.frame frame) } }
      .next ((s.nodeNext f.req.node).macTick)

/-! ### Completions, beacons, duty, braids -/

/-- SHUTTLE_COMPLETION_RX: the MAC takes a completion record of a shuttle (R225). -/
def execShuttleCompletionRx (t : Nat) (s : State) : Res :=
  let s := s.advance t
  match s.macQueue true with
  | none => .next s
  | some (q, e) =>
    let d := s.itemOf e 16
    let s := (s.dequeue q).emit (.entry q e)
    .next (s.macComplete (leNat ((d.drop 8).take 2)) (leNat ((d.drop 10).take 2)) (leNat (d.take 8))).macTick

/-- EB_DUE: EB_PERIOD slots have passed since the last Enhanced Beacon of a PAN on a transceiver (R227). -/
def execEbDue (pan : Fin 16) (trx : Fin 4) (t : Nat) (s : State) : Res :=
  let s := s.advance t
  let k := pan.val * 4 + trx.val
  match s.panRec pan with
  | none => .next s
  | some p =>
    let last := Store.get (fun _ => 0) s.mac.ebLast k
    if s.tsch pan && s.panEnabled pan && bitOf p.trxMask trx && p.ebPeriod ≠ 0 && last + p.ebPeriod ≤ s.asn s.mtb then
      .next { s with mac := { s.mac with ebDue := withOne k s.mac.ebDue } }
    else .next s

/-- DUTY_BUCKET_ROLL: a bucket closes and the oldest leaves the window (R231). -/
def execDutyBucketRoll (profile : Fin 16) (t : Nat) (s : State) : Res :=
  let s := s.advance t
  let p : Nat := profile
  let cur := s.mtb / s.bucketCyc p
  let s := { s with mac := { s.mac with
    duty := s.mac.duty.filter (fun e => e.1 / 2 ^ 48 != p || cur ≤ e.1 % 2 ^ 48 + 100) } }
  let room := match s.pr.profiles[p]? with
    | some r => decide (s.dutyUsed p * 10000 < r.windowS * 1289062500 * r.duty)
    | none => false
  .next (if room then s.setLimit p false else s).macTick

/-- OFF_TIME_END: OFF_MS of a transceiver has elapsed (R232). -/
def execOffTimeEnd (trx : Fin 4) (s : State) : Res :=
  match Store.find? (trx : Nat) s.mac.off with
  | none => .next s
  | some e =>
    let s := s.advance e
    .next (State.macTick { s with mac := { s.mac with off := Store.del trx s.mac.off } })

/-- BRAID_CUT: at the cut the braid opens with the acknowledgements then owed (R239). -/
def execBraidCut (trx : Fin 4) (s : State) : Res :=
  let n : Nat := trx
  match Store.find? n s.mac.cuts with
  | none => .next s
  | some c =>
    let s := s.advance c
    match s.groupPlan n true (s.mac.owed.length + 1) with
    | (s, none) => .next { s with mac := { s.mac with cuts := Store.del n s.mac.cuts } }
    | (s, some (dep1, prot)) =>
      if s.mtb < dep1 - 48064 then .next { s with mac := { s.mac with cuts := Store.put n (dep1 - 48064) s.mac.cuts } }
      else .next (s.openBraid n dep1 prot).macTick

/-! ### MAC registers (R243) -/

/-- A MAC refusal. -/
def State.macRefuse (s : State) (st : Nat) : State := s.refuse R.MAC_CMD_ERR_STATUS st

/-- PAN_EN takes a value: an absent record is refused; a PAN that is disabled has its pending frames completed. -/
def State.panEnable (s : State) (en : Nat) : State :=
  if (List.range 16).any (fun p => bitOf en p && (s.panRec p).isNone) then s.macRefuse ST.MAC_RANGE
  else
    let off := (List.range 16).filter (fun p => bitOf (s.getF R.MAC_CTRL_PAN_EN) p && !bitOf en p)
    let s := s.setF R.MAC_CTRL_PAN_EN en
    (s.flushFrames (fun f => off.contains f.req.pan) ST.MAC_FLUSHED).answer ST.OK

/-- MAC_PAN_ENABLE_WRITE: MAC_CTRL.PAN_EN. -/
def execMacPanEnableWrite (en : BitVec 16) (s : State) : Res := .next (s.panEnable en.toNat)

/-- MAC_COUNT_CLEAR: MAC_CTRL.CLR clears the counter registers of Table 10.9. -/
def State.macClear (s : State) : State :=
  (s.each ((List.range 9).map (fun k => R.MAC_RX_COUNT0 + 4 * k)) (fun s a => s.setReg a 0)).answer ST.OK
def execMacCountClear (s : State) : Res := .next s.macClear

/-- A write of MAC_SF_CFG for the selected PAN and handle: LENGTH changes only while EN is 0, and setting EN holds the rows
against the region. -/
def State.sfCfgWrite (s : State) (en : Bool) (len : Nat) : State :=
  let p := s.getF R.MAC_PAN_SEL_PAN
  let b := sfBank p (s.getF R.MAC_SF_SEL_HANDLE)
  let was := s.isSet (R.MAC_SF_CFG_EN.bank b)
  let base := s.getF (R.MAC_SF_BASE_ROW_BASE.bank b)
  if !en && !was && len = s.getF (R.MAC_SF_CFG_LENGTH.bank b) then s.answer ST.OK
  else if !s.tsch p then s.macRefuse ST.MAC_NOT_TSCH
  else if (en || len ≠ s.getF (R.MAC_SF_CFG_LENGTH.bank b)) && (len = 0 || 65535 < len) then s.macRefuse ST.MAC_RANGE
  else if en && (base % 256 ≠ 0 || (s.region 2).2 < base + 256 * len) then s.macRefuse ST.MAC_ROW
  else if was && len ≠ s.getF (R.MAC_SF_CFG_LENGTH.bank b) then s.macRefuse ST.MAC_STATE
  else ((s.setF (R.MAC_SF_CFG_LENGTH.bank b) len).setB (R.MAC_SF_CFG_EN.bank b) en).answer ST.OK

/-- MAC_SLOTFRAME_ENABLE: MAC_SF_CFG (R219). -/
def execMacSlotframeEnable (en : Bool) (length : Fin 65536) (s : State) : Res := .next (s.sfCfgWrite en length)

end Sys2Proof.Machine
end

