-- ==== Sys2Proof/Machine/Sleep.lean ====
section
/-!
DEFINITION. The sleepy-node scheduler's commands (11_sleepy_nodes.md): SLEEP_CTRL, links, the T3 list, calls, the rebuild.
-/
namespace Sys2Proof.Machine

/-- A SLEEP refusal (R262). -/
def State.sleepRefuse (s : State) (st : Nat) : State := s.refuse R.SLEEP_CMD_ERR_STATUS st

/-- SLEEP_CTRL start (Table 11.2): OFF becomes UNANCHORED; a node that is tracked stays as it is. -/
def State.sleepStart (s : State) (n : Nat) : State :=
  if s.slMode n = 0 || 2 < s.slMode n then s.sleepRefuse ST.SLEEP_RANGE
  else if s.slState n ≠ 0 then s.answer ST.OK
  else
    let s := (((s.slSet n 1).setMisses n 0 0).addF R.SLEEP_STAT_TRACKED 1).answer ST.OK
    s.t3Set n

/-- SLEEP_CTRL stop: OFF; the entry goes, pending frames complete with ST_SLEEP_FLUSHED. -/
def State.sleepStop (s : State) (n : Nat) : State :=
  if s.slState n = 0 then s.sleepRefuse ST.SLEEP_NOT_TRACKED
  else
    let s := s.flushFrames (fun f => f.req.node = n) ST.SLEEP_FLUSHED
    let s := (((s.slSet n 0).t3Del n).actDel n).callDel n
    let s := { s with sl := { s.sl with
      csl := Store.del n s.sl.csl, sweep := Store.del n s.sl.sweep, early := without n s.sl.early,
      fresh := without n s.sl.fresh } }
    (s.setF R.SLEEP_STAT_TRACKED (s.getF R.SLEEP_STAT_TRACKED - 1)).answer ST.OK

/-- SLEEP_CTRL resynchronise: at the next opportunity. -/
def State.sleepResync (s : State) (n : Nat) : State :=
  if s.slState n = 0 then s.sleepRefuse ST.SLEEP_NOT_TRACKED
  else if s.slState n = 4 then s.sleepRefuse ST.SLEEP_STATE
  else (({ s with sl := { s.sl with early := withOne n s.sl.early } }).t3Set n).answer ST.OK

/-- SLEEP_CTRL reset: the next observation is treated as in UNANCHORED. -/
def State.sleepReset (s : State) (n : Nat) : State :=
  if s.slState n = 0 then s.sleepRefuse ST.SLEEP_NOT_TRACKED
  else ({ s with sl := { s.sl with fresh := withOne n s.sl.fresh } }).answer ST.OK

/-- SLEEP_CTRL call now (R255). -/
def State.sleepCall (s : State) (n : Nat) : State :=
  let wake := bitOf (s.slGet n 3 1) 0 &&
    (match s.trxRec (s.slGet n 3 1 / 2 % 4) with | some r => r.wake = 1 | none => false)
  if !wake then s.sleepRefuse ST.SLEEP_NO_WAKE
  else if s.slState n = 0 then s.sleepRefuse ST.SLEEP_NOT_TRACKED
  else if s.slState n = 4 then s.sleepRefuse ST.SLEEP_STATE
  else
    let s := ((((s.slSet n 4).setMisses n 0 0).sleepEvent n 2).actDel n).callSend n
    (s.t3Set n).answer ST.OK

/-- A write of SLEEP_CTRL (R262). -/
def State.sleepCtrl (s : State) (op n : Nat) : State :=
  if op = 0 || 5 < op || s.pr.table.nodeLimit ≤ n then s.sleepRefuse ST.SLEEP_RANGE
  else if !s.roleSends then s.sleepRefuse ST.SLEEP_STATE
  else if op = 1 then s.sleepStart n
  else if op = 2 then s.sleepStop n
  else if op = 3 then s.sleepResync n
  else if op = 4 then s.sleepReset n
  else s.sleepCall n

/-- SLEEP_START, SLEEP_STOP, SLEEP_RESYNC, SLEEP_RESET_DRIFT and SLEEP_CALL: SLEEP_CTRL with OP 1 to 5. -/
def execSleepStart (node : BitVec 18) (s : State) : Res := .next (s.sleepCtrl 1 node.toNat)
def execSleepStop (node : BitVec 18) (s : State) : Res := .next (s.sleepCtrl 2 node.toNat)
def execSleepResync (node : BitVec 18) (s : State) : Res := .next (s.sleepCtrl 3 node.toNat)
def execSleepResetDrift (node : BitVec 18) (s : State) : Res := .next (s.sleepCtrl 4 node.toNat)
def execSleepCall (node : BitVec 18) (s : State) : Res := .next (s.sleepCtrl 5 node.toNat)

/-! ### Links (R256) -/

/-- A tracked TSCH leaf. -/
def State.leaf (s : State) (n : Nat) : Bool := s.tracked n && s.slMode n = 2

/-- Whether two nodes are the ends of a registered link, in either order. -/
def State.linked (s : State) (a b : Nat) : Bool := s.sl.links.any (fun l => (l.1 = a && l.2 = b) || (l.1 = b && l.2 = a))

/-- The link between SLEEP_LINK_A's node and node `b` is added. -/
def State.linkAdd (s : State) (b : Nat) : State :=
  let a := s.getF R.SLEEP_LINK_A_NODE_A
  if !s.leaf a || !s.leaf b || a = b || s.nodePan a ≠ s.nodePan b then s.sleepRefuse ST.SLEEP_RANGE
  else if !s.linked a b && (4096 ≤ s.sl.links.length || 8 ≤ (s.linksOf a).length || 8 ≤ (s.linksOf b).length) then
    s.sleepRefuse ST.SLEEP_LINK_FULL
  else
    let s := (s.setF R.SLEEP_LINK_B_NODE_B b).answer ST.OK
    if s.linked a b then s
    else
      let s := { s with sl := { s.sl with links := s.sl.links ++ [(a, b)] } }
      (((s.setF R.SLEEP_STAT_LINKS s.sl.links.length).t3Set a).t3Set b).linkCheck a

/-- The link is removed. -/
def State.linkRemove (s : State) (b : Nat) : State :=
  let a := s.getF R.SLEEP_LINK_A_NODE_A
  if !s.linked a b then s.sleepRefuse ST.SLEEP_RANGE
  else
    let s := { s with sl := { s.sl with links := s.sl.links.filter (fun l => !((l.1 = a && l.2 = b) || (l.1 = b && l.2 = a))) } }
    let s := (s.setF R.SLEEP_STAT_LINKS s.sl.links.length).setF R.SLEEP_LINK_B_NODE_B b
    ((s.t3Set a).t3Set b).answer ST.OK

/-- A write of SLEEP_LINK_B (R262). -/
def State.linkWrite (s : State) (op b : Nat) : State :=
  let a := s.getF R.SLEEP_LINK_A_NODE_A
  if op = 0 || op = 3 || s.pr.table.nodeLimit ≤ a || s.pr.table.nodeLimit ≤ b then s.sleepRefuse ST.SLEEP_RANGE
  else if !s.roleSends then s.sleepRefuse ST.SLEEP_STATE
  else if op = 1 then s.linkAdd b else s.linkRemove b

/-- SLEEP_LINK_ADD and SLEEP_LINK_REMOVE: SLEEP_LINK_B with OP 1 and 2. -/
def execSleepLinkAdd (node : BitVec 18) (s : State) : Res := .next (s.linkWrite 1 node.toNat)
def execSleepLinkRemove (node : BitVec 18) (s : State) : Res := .next (s.linkWrite 2 node.toNat)

/-! ### T3 (R258 to R260, R288) -/

/-- The entry that expires next: of those in the head cache that have not been deferred in this slot, the one with the earliest ASN,
written first. -/
def State.t3Head (s : State) : Option (Nat × Wake) :=
  firstBy (fun (a b : Nat × Wake) => a.2.key < b.2.key || (a.2.key = b.2.key && a.2.order < b.2.order))
    (s.sl.t3.filter (fun e => e.2.onDie && !s.sl.deferred.contains e.1))

/-- A reception of a node whose verdict is to come: what it says about the node's clock comes before the expiry (R250). -/
def State.hearing (s : State) (n : Nat) : Bool := s.rd.rxs.any (fun r => r.2.looked && r.2.node = n)

/-- T3_EXPIRY: a node's entry expires and the scheduler acts at its next opportunity; beyond 2,048 in one slot it stays for
a later one (R259). Both ends of a link of the node are looked at (R256). -/
def execT3Expiry (t : Nat) (s : State) : Res :=
  let s := s.advance t
  match s.t3Head with
  | none => .next s
  | some (n, w) =>
    if s.asn s.mtb < w.key || s.hearing n then .next s
    else if 2048 ≤ s.sl.loadNow then
      .next (({ s with sl := { s.sl with deferred := s.sl.deferred ++ [n] } }.bump R.SLEEP_COUNT2_LO).sleepEvent n 5)
    else
      let s := { s with sl := { s.sl with loadNow := s.sl.loadNow + 1 } }
      .next ((((s.sleepAct n).linkCheck n).linkEnds n)).macTick

/-- WAKE_WAIT_EXPIRY: WK_WAIT_MS after a call has passed (R255): a TSCH leaf gets a keep-alive at level 0 in its next
opportunity, a CSL node's try has failed. Receptions that began before the end of the wait are judged first. -/
def execWakeWaitExpiry (node : BitVec 18) (s : State) : Res :=
  let n := node.toNat
  match Store.find? n s.sl.calls with
  | none => .next s
  | some c =>
    match c.until_ with
    | none => .next s
    | some u =>
      if s.slState n ≠ 4 || s.rd.rxs.any (fun r => r.2.ts ≤ u) then .next s
      else
        let s := s.advance u
        if s.slMode n = 1 then .next ((s.callFailed n).macTick)
        else
          let s := (s.slPut n 12 4 0).slPut n 20 4 s.slBase
          let s := { s with sl := { s.sl with calls := Store.put n { c with until_ := none, alive := true } s.sl.calls } }
          .next (s.t3Set n)

/-- SLEEP_COUNT_CLEAR: SLEEP_EVENT_EN.CLR clears the counters and SLEEP_LOAD.MAX. -/
def State.sleepClear (s : State) : State :=
  ((s.each [R.SLEEP_COUNT0, R.SLEEP_COUNT1, R.SLEEP_COUNT2] (fun s a => s.setReg a 0)).setF R.SLEEP_LOAD_MAX 0).answer ST.OK
def execSleepCountClear (s : State) : Res := .next s.sleepClear

/-- SLEEP_REBUILD_STEP: one sleep state is read and its entry rebuilt (R260); a node in CALLING is called anew, since no call of its is
under way on this unit. -/
def execSleepRebuildStep (s : State) : Res :=
  match s.sl.rebuild with
  | none => .next s
  | some n =>
    let s := if n = 0 then s.setF R.SLEEP_STAT_TRACKED 0 else s
    if s.pr.table.nodeLimit ≤ n then .next { s with sl := { s.sl with rebuild := none } }
    else
      let s := { s with sl := { s.sl with rebuild := some (n + 1) } }
      if s.tracked n then
        let s := ((s.addF R.SLEEP_STAT_TRACKED 1).cslRebuild n).t3Set n
        .next (if s.slState n = 4 && (Store.find? n s.sl.calls).isNone then s.callSend n else s)
      else .next s

/-- T3_CACHE_REFILL: the earliest entry in DRAM comes into the head cache while it holds fewer than 4,096 (R288). -/
def execT3CacheRefill (s : State) : Res :=
  let off := firstBy (fun (a b : Nat × Wake) => a.2.key < b.2.key || (a.2.key = b.2.key && a.2.order < b.2.order))
    (s.sl.t3.filter (fun e => !e.2.onDie))
  match off with
  | none => .next s
  | some (n, w) =>
    if 4096 ≤ (s.sl.t3.filter (fun e => e.2.onDie)).length then .next s
    else .next { s with sl := { s.sl with t3 := Store.put n { w with onDie := true } s.sl.t3 } }

end Sys2Proof.Machine
end

