-- ==== Sys2Proof/Machine/Settings.lean ====
section
/-!
DEFINITION. Ryurix's settings (16_border_router.md): what a service call writes into the settings generation in force, each
under a number of the model's own (notes/assumptions/31.md), mirrored to the peer (R455).
-/
namespace Sys2Proof.Machine

/-- The number of a setting: service, PAN record (0 where it has none), key, index. -/
def settingNo (svc pan key ix : Nat) : Nat := svc * 2 ^ 24 + pan * 2 ^ 16 + key * 2 ^ 8 + ix

/-- A setting's values; none has been set where it is empty. -/
def State.setting (s : State) (k : Nat) : List Nat := Store.get (fun _ => []) s.ry.settings k

/-- The first value of a setting, or what it defaults to. -/
def State.settingD (s : State) (k d : Nat) : Nat := (s.setting k).headD d

/-- The octets a setting has in a mirror record, and back. -/
def settingBytes (l : List Nat) : List Byte := l.flatMap (fun v => leBytes 16 v)
def settingVals (b : List Byte) : List Nat := (List.range (b.length / 16)).map (fun k => leNat ((b.drop (16 * k)).take 16))

/-- A setting takes values. -/
def State.putSetting (s : State) (k : Nat) (v : List Nat) : State :=
  { s with ry := { s.ry with settings := Store.set (fun _ => []) s.ry.settings k v } }

/-- A service call changes a setting. -/
def State.setSetting (s : State) (k : Nat) (v : List Nat) : State :=
  (s.putSetting k v).journalAdd 6 false 0 k (settingBytes v)

end Sys2Proof.Machine
end

