-- ==== Sys2Proof/Machine/UpdateOps.lean ====
section
/-!
DEFINITION. The slot record and the update session (21_update.md): what other chapters need of them.
-/
namespace Sys2Proof.Machine

/-- The slot record in force; before the first one, slot A is primary and both are EMPTY. -/
def State.slotRec (s : State) : SlotRec :=
  match s.up.rec_ with
  | some r => r
  | none => ⟨0, 0, 0, [0, 0], 0, [0, 1], 0, [0, 0], [0, 0]⟩

/-- The octets of a slot record (Table 21.3); octets with their CRC-32 at offset 60. -/
def crcAt60 (l : List Byte) : List Byte := l ++ leBytes 4 (fcs32 (nats l))
def SlotRec.octets (r : SlotRec) : List Byte :=
  crcAt60 (leBytes 4 0x52544C53 ++ leBytes 2 1 ++ leBytes 1 r.primary ++ leBytes 1 r.trial ++ leBytes 8 r.gen ++
    leBytes 1 (r.states.getD 0 0) ++ leBytes 1 (r.states.getD 1 0) ++ leBytes 1 r.tries ++
    leBytes 1 (r.settings.getD 0 0 % 2 + 2 * (r.settings.getD 1 0 % 2)) ++ leBytes 2 r.windowS ++ leBytes 2 0 ++
    leBytes 4 (r.versions.getD 0 0) ++ leBytes 4 (r.versions.getD 1 0) ++ beBytes 8 (r.mdigs.getD 0 0) ++
    beBytes 8 (r.mdigs.getD 1 0) ++ leBytes 12 0)

/-- A slot record is appended, with GEN one higher than the one it replaces, at the next page of the block in use; when that
block is full the other block of the area is erased and taken (R467, Table 14.6). -/
def State.putRec (s : State) (r : SlotRec) : State :=
  let r := { r with gen := s.slotRec.gen + 1 }
  let page := s.up.recAt % 128
  let s := if page % 64 = 0 then s.erasePages page 64 else s
  let s := s.programPages page 1 r.octets
  { s with up := { s.up with rec_ := some r, recAt := (page + 1) % 128 } }

/-- The first page of a settings area, and the octets of its header (R477). -/
def settingsPage (area : Nat) : Nat := 1024 + 1024 * area
def settingsHeader (gen fmt slot : Nat) : List Byte :=
  crcAt60 (leBytes 4 0x47544553 ++ leBytes 8 gen ++ leBytes 2 fmt ++ leBytes 1 slot ++ leBytes 1 1 ++ leBytes 44 0)

/-- The slot an update stages into: the one that is not primary, or the one on trial. -/
def State.upSlot (s : State) : Nat := if s.slotRec.trial ≠ 0 then s.slotRec.trial - 1 else 1 - s.slotRec.primary

/-- The state of a slot, and a record in which it has another. -/
def State.slotState (s : State) (k : Nat) : Nat := s.slotRec.states.getD k 0
def SlotRec.setState (r : SlotRec) (k st : Nat) : SlotRec := { r with states := r.states.set k st }

/-- The slot being booted or run. -/
def State.booted (s : State) : Nat := s.getF R.UPDATE_STATE_BOOTED

/-- The booted slot is on trial. -/
def State.onTrial (s : State) : Bool := s.slotRec.trial = s.booted + 1

/-- Whether update frames can travel: a PAIR section, and the tie link up. -/
def State.upLink (s : State) : Bool := s.pairOn && s.isSet R.PAIR_STATE_TIE_UP

/-- The first eight octets of a manifest's digest. -/
def mdigOf (digest : Nat) : Nat := digest / 2 ^ 192

/-- The TARGET of an update's audit record, by operation and slot. -/
def upTarget (op slot : Nat) : Nat := 22 * 2 ^ 24 + op * 2 ^ 16 + slot

/-- A session ends without finish, with a status word (R471, R480): the slot stays EMPTY; a finish that waits for the peer
ends too; the unit that forwards tells its peer. -/
def State.sessionAbort (s : State) (st : Nat) : State :=
  match s.up.session with
  | none => s
  | some v =>
    let s := { s with up := { s.up with session := none } }
    let s := (s.auditNote ⟨8, 0, st, (match v.holder with | some c => c | none => 0), upTarget 5 s.upSlot, 0, mdigOf v.man.digest⟩).raise
      R.UPDATE_EVENT_SESSION_ABORTED
    let s := if v.holder.isSome && s.upLink then s.amrekOut 0x15 (List.replicate 8 0) else s
    match v.waiting with
    | some k => s.finishCall k st []
    | none => s

/-- A tie-link loss ends the session that the peer holds (Table 21.6). -/
def State.peerSessionLost (s : State) : State :=
  match s.up.session with
  | some v => if v.holder.isNone then s.sessionAbort ST.UPDATE_ABORTED else s
  | none => s

end Sys2Proof.Machine
end

