-- ==== Sys2Proof/Machine/Pair.lean ====
section
/-!
DEFINITION. Pair operation (20_pair.md): the roles, the cordonnet, takeover, the witness path, mirroring on both sides,
resynchronisation.
-/
namespace Sys2Proof.Machine

/-! ### Roles (R441, Table 20.1) -/

/-- A running task of the held customer hoop ends in fault with ST_PILLOW_HOOP_HELD; its other tasks are withdrawn with
ST_PILLOW_WITHDRAWN; its bobbins go into reset (R291). -/
def State.customerHold (s : State) : State :=
  match (List.range 4).find? s.isCustomer with
  | none => s
  | some h =>
    let bobs := (List.range 16).filter (fun b => s.hoopOf b = some h)
    let s := s.each bobs (fun s b =>
      match (s.bobbin b).running with
      | none => s
      | some i => match s.task? i with
        | none => s
        | some t =>
          let u := s.useFree.useFree.recordFault b (Config.free s.freeIx % 7) (Config.free (s.freeIx + 1)) false
            (taskHandle t.gen i)
          (((u.emit (.taskEnded (taskHandle t.gen i) ST.PILLOW_HOOP_HELD)).endTask i false).afterTask t).unstall b)
    let s := s.each (s.pl.tasks.filter (fun t => s.hoopOfKind t.2.kind = some h)) (fun s t =>
      let s := s.emit (.taskEnded (taskHandle t.2.gen t.1) ST.PILLOW_WITHDRAWN)
      (((s.endTask t.1 false).afterTask t.2).bump (R.PILLOW_COUNT_HI 1)).raise R.PILLOW_EVENT_WITHDRAWN)
    s.each bobs (fun s b =>
      let s := s.unstall b
      s.setBobbin b { posts := (s.bobbin b).posts, ended := (s.bobbin b).ended })

/-- Open service calls of Ryurix end when the unit leaves ALONE or ACTIVE (R362). -/
def State.callsLost (s : State) : State :=
  let gone := s.cmp.tickets.filter (fun t => !t.2.ready && t.2.svc ≤ svcZone)
  ({ s with ry := { s.ry with rekeys := [] } }).each gone (fun s t => s.finishCall t.1 ST.RYURIX_ROLE_LOST [])

/-- What leaving ALONE or ACTIVE ends (R243, R260, R291, R362). -/
def State.roleLeft (s : State) : State :=
  let s := s.macFlush
  let s := { s with sl := { s.sl with t3 := [], acts := [], calls := [], rebuild := none } }
  s.customerHold.callsLost

/-- What entering ACTIVE starts (R260, R291, R141). -/
def State.roleEntered (s : State) : State :=
  let s := { s with sl := { s.sl with rebuild := some 0 } }
  let bobs := match (List.range 4).find? s.isCustomer with
    | some h => (List.range 16).filter (fun b => s.hoopOf b = some h)
    | none => []
  (s.startInitRuns bobs).reselectOwn

/-- The pair role changes: recorded as KIND 9 and reported (R441). -/
def State.setRole (s : State) (new : Nat) : State :=
  let old := s.pairRole
  if old = new then s
  else
    let s := s.setF R.PAIR_STATE_ROLE new
    let s := (s.auditNote ⟨9, 0, 0, 0, 21 * 2 ^ 24, old, new⟩).raise R.PAIR_EVENT_ROLE_CHANGE
    let s := if old < 2 && 2 ≤ new then s.roleLeft else s
    let s := if new = 1 then s.roleEntered else s
    if new = 2 then s.standbyTime else s.reselect

/-- When FEM_PA_EN is low on every transceiver, once every transmission on air has ended now. -/
def State.allPaLow (s : State) : Nat :=
  (List.range 4).foldl (fun t n => if (s.trx n).onAir.isSome then max t (s.paLowAt n s.mtb) else t) s.mtb

/-- A self-detected fault of an ACTIVE unit (R448): every transmission ends; once FEM_PA_EN is low on every transceiver, RESIGN
goes out where there is a path and the unit is FENCED. -/
def State.selfFault (s : State) : State :=
  if s.pairRole ≠ 1 || !s.pairOn then s
  else
    let low := s.allPaLow
    let s := (s.each (List.range 4) State.txCut).advance low
    let s := if s.isSet R.PAIR_STATE_TIE_UP || s.witUp then (s.leaseOut 3 s.pa.count 0).bump R.PAIR_COUNT0_RESIGNS else s
    ({ s with pa := { s.pa with lost := true } }).setRole 4

/-- An ACTIVE unit without a lease path has lost its last one (R448). -/
def State.leasePathCheck (s : State) : State :=
  if s.pairRole = 1 && s.pairOn && !s.isSet R.PAIR_STATE_TIE_UP && !s.witUp then s.selfFault else s

/-! ### The cordonnet (R444 to R446) -/

/-- Latest end of a last symbol among the planned and launched transmissions. -/
def State.lastFin (s : State) : Nat :=
  s.rd.trxs.foldl (fun n v => (v.2.plan ++ v.2.onAir.toList).foldl (fun n c => max n c.fin) n) 0

/-- need_us: the extension that the transmissions need from now on (R444). -/
def State.needUs (s : State) : Nat :=
  min 4194303 (divUp ((s.lastFin - s.mtb) * 128) 165000 + 16 - 320)

/-- A grant of renewal `k` extends the lease end, 320 µs and the renewal's extension after its departure (R444); `granted` is
the extension of the newest granted renewal. -/
def State.onGrant (s : State) (k : Nat) : State :=
  match Store.find? k s.pa.sent with
  | none => s
  | some (t, ext) => { s with pa := { s.pa with
      leaseEnd := max s.pa.leaseEnd (t + 412500 + usToCyc ext),
      granted := if s.pa.grantedAt ≤ t then ext else s.pa.granted, grantedAt := max s.pa.grantedAt t } }

/-- An ACTIVE unit may renew: it is in service, not past the 1 s mark of HOLD (R63), and has a lease path. -/
def State.mayRenew (s : State) : Bool :=
  s.pairRole = 1 && s.pairOn && (s.isSet R.PAIR_STATE_TIE_UP || s.witUp) && (s.dev = devService || s.dev = devHold) &&
  (match s.holdMark with | some m => decide (s.mtb < m) | none => true)

/-- A RENEW goes out; a unit that is peer-silent or self-granted grants it at once (R444, R445). -/
def State.leaseSend (s : State) : State :=
  if !s.mayRenew then s
  else
    let res := if s.isSet R.PAIR_STATE_TIE_UP then s.getF R.PAIR_CFG_RESERVE_US else s.getF R.PAIR_CFG_WIT_RESERVE_US
    let ext := max res s.needUs
    let n := (s.pa.count + 1) % 65536
    let live := s.pa.sent.filter (fun x => s.mtb < x.2.1 + 412500 + usToCyc x.2.2)
    let s := { s with pa := { s.pa with count := n, sent := Store.put n (s.mtb, ext) live } }
    let s := (s.setF R.PAIR_LEASE_COUNT n).leaseOut 1 n ext
    if s.isSet R.PAIR_STATE_PEER_SILENT || s.isSet R.PAIR_STATE_SELF_GRANT then s.onGrant n else s

/-- LEASE_RENEW_DUE: every 82,500 cyc, and at once when need_us exceeds the newest granted extension (R444). -/
def execLeaseRenewDue (t : Nat) (s : State) : Res :=
  let s := s.advance t
  let last := match Store.find? s.pa.count s.pa.sent with | some (a, _) => a + 82500 | none => 0
  if last ≤ s.mtb || s.pa.granted < s.needUs then .next s.leaseSend else .next s

/-! ### Mirroring on the active side (R455, R456, R460) -/

/-- A record of the copy leaves in SEQ order; it is not kept in the journal. -/
def State.copyRec (s : State) (kind region target : Nat) (data : List Byte) : State :=
  let r : MirrorRec := ⟨kind, false, s.pa.nextSeq, region, target, data⟩
  ({ s with pa := { s.pa with nextSeq := s.pa.nextSeq + 1 } }).mirrorOut r

/-- The copy of a mirrored region, chunk by chunk. -/
def State.copyRegion (s : State) (k : Nat) : State :=
  let n := (s.region k).2 / 64
  let s := s.each (List.range n) (fun s c => s.copyRec 1 k (64 * c) (s.readBytes ((s.region k).1 + 64 * c) 64))
  (s.setF R.PAIR_RESYNC_REGION k).setF R.PAIR_RESYNC_CHUNKS n

/-- The copy of every mirrorable key slot and of every setting. -/
def State.copyRest (s : State) : State :=
  let s := match s.pa.key with
    | none => s
    | some key => s.each s.ky.slots (fun s k =>
        if attrPersist k.2.attr && attrExport k.2.attr then
          let n := keyOctets (attrType k.2.attr)
          s.copyRec 4 0 k.1 (leBytes 4 k.2.attr ++ beBytes (n + 8) (Config.wrap key n k.2.mat))
        else s)
  s.each s.ry.settings (fun s k => s.copyRec 6 0 k.1 (settingBytes k.2))

/-- Resynchronisation starts on the active unit (R460): the journal restarts with SEQ 1, then the copy. -/
def State.resyncStart (s : State) : State :=
  let s := { s with pa := { s.pa with journal := [], nextSeq := 1, mirrors := true, fresh := false, waits := [] } }
  let s := s.setF R.PAIR_STATE_RESYNC 1
  (s.each [0, 2, 6, 7] State.copyRegion).copyRest

/-- The standby is current again: the active unit leaves its band (R460). -/
def State.resyncEnd (s : State) : State :=
  let s := { s with pa := { s.pa with bands := [], situation := 0 } }
  (s.setF R.PAIR_STATE_MODE 0).setF R.PAIR_STATE_RESYNC 0

/-! ### Hearing the peer (R441) -/

/-- The service addresses of an upstream port: each SLAAC prefix with the service interface identifier (R452). -/
def State.serviceAddrs (s : State) (p : Nat) : List Nat :=
  let iid := leNat (beBytes 4 (s.getF R.PAIR_SVC_IID_LO_IID)) * 2 ^ 32 + leNat (beBytes 4 (s.getF R.PAIR_SVC_IID_HI_IID))
  ((s.netPort p).prefixes.filter (fun x => s.mtb < x.2)).map (fun x => x.1 * 2 ^ 64 + iid)

/-- Unsolicited Neighbor Advertisements leave on every upstream port that may carry them (R450). -/
def State.advertise (s : State) : State :=
  s.each ([0, 1].filter s.uplCarries) (fun s p => s.emit (.naService p (s.serviceAddrs p)))

/-- Takeover (R450): ACTIVE, a renewal, the fix scan, the upstream Neighbor Advertisement. -/
def State.takeover (s : State) : State :=
  let stale := s.pairRole = 3
  let s := { s with pa := { s.pa with
    situation := 3, bands := [], fixed := [], mirrors := false, journal := [], waits := [], leaseEnd := 0, granted := 0,
    naAt := some (s.mtb + secCyc) } }
  let s := (((s.setF R.PAIR_STATE_MODE 2).setF R.PAIR_STATE_SELF_GRANT 1).setF R.PAIR_STATE_RESYNC 0).setRole 1
  let s := (s.leaseSend.raise R.PAIR_EVENT_TAKEOVER).bump R.PAIR_COUNT0_TAKEOVERS
  let s := ((s.setF R.PAIR_FIX_RUNNING 1).setB R.PAIR_FIX_STALE stale).setF R.PAIR_FIX_NEXT 0
  let s := s.raiseIf stale R.PAIR_EVENT_STALE_TAKEOVER
  s.advertise.macTick

/-- A FENCED unit may enter the pair: the owner root is PRESENT and RUNNING has begun. -/
def State.fencedMay (s : State) : Bool := s.pairRole = 4 && s.pairOn && s.ownerState = 1 && s.pa.runAt.isSome && s.inService

/-- It becomes ACTIVE: no lease yet, no mirrored peer. `self` is the case in which it has heard nobody. -/
def State.becomeActive (s : State) (self : Bool) : State :=
  let s := { s with pa := { s.pa with situation := if self then 3 else 1, bands := [], mirrors := false, journal := [],
                                      waits := [], leaseEnd := 0, granted := 0 } }
  let s := (s.setF R.PAIR_STATE_MODE (if self then 2 else 1)).setB R.PAIR_STATE_SELF_GRANT self
  ((s.setRole 1).leaseSend).macTick

/-- The peer has been heard in a role at the present time (R441, Table 20.1). -/
def State.hear (s : State) (role : Nat) : State :=
  let was := s.getF R.PAIR_STATE_PEER_ROLE
  let s := { s with pa := { s.pa with heardAt := some s.mtb } }
  let s := (s.setF R.PAIR_STATE_PEER_ROLE role).setF R.PAIR_STATE_PEER_SILENT 0
  let own := s.pr.header.structDigest
  if s.pairRole = 4 then
    match s.pa.peerDigest with
    | none => s
    | some d =>
      if d ≠ own then s.raise R.PAIR_EVENT_DIGEST_MISMATCH
      else if !s.fencedMay then s
      else if role = 1 then (s.setRole 3).setB R.PAIR_STATE_RESYNC (s.isSet R.PAIR_STATE_TIE_UP)
      else if s.getF R.PAIR_STATE_PREF = 0 && !s.pa.lost then s.becomeActive false
      else s
  else if s.pairRole = 1 then
    if role = 1 then
      let s := s.raise R.PAIR_EVENT_BOTH_ACTIVE
      if s.getF R.PAIR_STATE_PREF = 1 then s.selfFault else s
    else if role = 2 && s.isSet R.PAIR_STATE_RESYNC then s.resyncEnd
    else if role = 3 && s.isSet R.PAIR_STATE_TIE_UP && (s.pa.fresh || was = 4) then s.resyncStart
    else s
  else s

/-- A standby unit becomes STANDBY_STALE (Table 20.1). -/
def State.goStale (s : State) : State :=
  if s.pairRole = 2 then (s.setRole 3).raise R.PAIR_EVENT_STALE else s

/-- A RENEW (R444): the known end moves, a GRANT goes back on the path it came by, `wit` the witness. -/
def State.renewRx (s : State) (wit : Bool) (role count ext : Nat) : State :=
  let s := s.hear role
  if s.pairRole = 1 || s.pairRole = 0 then s
  else
    let e := s.mtb + 412500 + usToCyc (ext + ext / 4096)
    let s := { s with pa := { s.pa with knownEnd := some (match s.pa.knownEnd with | some k => max k e | none => e) } }
    let s := s.setF R.PAIR_LEASE_COUNT count
    if wit then s.leaseWitness 2 count ext else s.leaseTie 2 count ext

/-- A GRANT (R444, R445, R449, Table 20.4). -/
def State.grantRx (s : State) (role count : Nat) : State :=
  let s := s.hear role
  if s.pairRole ≠ 1 then s
  else
    let s := (s.setF R.PAIR_STATE_SELF_GRANT 0).onGrant count
    let s := if s.pa.situation = 3 then
        { s with pa := { s.pa with situation := if s.isSet R.PAIR_FIX_STALE then 2 else 1 } } else s
    if 3 ≤ role && s.getF R.PAIR_STATE_MODE = 1 then
      let s := { s with pa := { s.pa with situation := if s.pa.situation = 0 then 1 else s.pa.situation } }
      (s.setF R.PAIR_STATE_MODE 2).macTick
    else s

/-- A unit that may take over: STANDBY or STANDBY_STALE, not in HOLD_TX_INHIBIT or PARK (R446). -/
def State.mayTakeOver (s : State) : Bool := (s.pairRole = 2 || s.pairRole = 3) && (s.dev = devService || s.dev = devHold)

/-- A RESIGN (R441): a standby unit takes over 20,625 cyc after its receipt. -/
def State.resignRx (s : State) (role : Nat) : State :=
  let s := s.hear role
  if s.mayTakeOver then (s.advance (s.mtb + 20625)).takeover else s

/-- RENEW_RX, GRANT_RX, RESIGN_RX and MARK_STALE_RX over the tie link (R441, R444). -/
def execRenewRx (role : Fin 8) (count : Fin 65536) (ext : Fin 4194304) (t : Nat) (s : State) : Res :=
  let s := s.advance t
  if s.isSet R.PAIR_STATE_TIE_UP && s.pairOn then .next (s.renewRx false role count ext) else .next s
def execGrantRx (role : Fin 8) (count : Fin 65536) (t : Nat) (s : State) : Res :=
  let s := s.advance t
  if s.isSet R.PAIR_STATE_TIE_UP && s.pairOn then .next (s.grantRx role count) else .next s
def execResignRx (role : Fin 8) (t : Nat) (s : State) : Res :=
  let s := s.advance t
  if s.isSet R.PAIR_STATE_TIE_UP && s.pairOn then .next (s.resignRx role) else .next s
def execMarkStaleRx (role : Fin 8) (t : Nat) (s : State) : Res :=
  let s := s.advance t
  if s.isSet R.PAIR_STATE_TIE_UP && s.pairOn then .next (s.hear role).goStale else .next s

/-- WITNESS_DATAGRAM_RX: authenticated, then acted on as its lease block says (R451, Table 20.1). -/
def execWitnessDatagramRx (kind role : Fin 8) (count : Fin 65536) (ext : Fin 4194304) (seq : Nat) (tagOk : Bool) (t : Nat)
    (s : State) : Res :=
  let s := s.advance t
  if !s.pairOn then .next s
  else if !tagOk || seq ≤ s.pa.witRx || s.pa.key.isNone then
    .next ((s.bump R.PAIR_COUNT1_WIT_AUTH_FAIL).raise R.PAIR_EVENT_PEER_AUTH)
  else
    let s := { s with pa := { s.pa with witRx := seq } }
    if kind.val = 1 then .next (s.goStale.renewRx true role count ext)
    else if kind.val = 2 then .next (s.grantRx role count)
    else if kind.val = 3 then .next (s.resignRx role)
    else if kind.val = 4 then .next (s.hear role).goStale
    else .next (s.hear role)

/-- PEER_SILENT_TIMEOUT: nothing heard for 206,250 cyc (R445). -/
def execPeerSilentTimeout (t : Nat) (s : State) : Res :=
  let s := s.advance t
  let since := match s.pa.heardAt with | some a => a | none => match s.pa.runAt with | some a => a | none => s.mtb
  if !s.pairOn || s.mtb < since + 206250 || s.isSet R.PAIR_STATE_PEER_SILENT then .next s
  else
    let s := (s.setF R.PAIR_STATE_PEER_SILENT 1).raise R.PAIR_EVENT_PEER_SILENT
    if s.pairRole = 1 then
      let s := (s.setF R.PAIR_STATE_SELF_GRANT 1).setF R.PAIR_STATE_MODE 2
      .next ({ s with pa := { s.pa with situation := 3, waits := [] } }).macTick
    else .next s

/-- TAKEOVER_INSTANT: the known end and 20,625 cyc more have passed (R446, R450). -/
def execTakeoverInstant (t : Nat) (s : State) : Res :=
  let s := s.advance t
  match s.pa.knownEnd with
  | none => .next s
  | some e => if s.mayTakeOver && e + 20625 ≤ s.mtb then .next s.takeover else .next s

/-- ALONE_TIMEOUT: nothing heard for ALONE_MS since RUNNING (R441). -/
def execAloneTimeout (t : Nat) (s : State) : Res :=
  let s := s.advance t
  match s.pa.runAt with
  | none => .next s
  | some a =>
    if s.fencedMay && !s.pa.lost && s.pa.heardAt.isNone && a + msToCyc (s.getF R.PAIR_CTRL_ALONE_MS) ≤ s.mtb then
      .next (s.becomeActive true)
    else .next s

/-- OUTPUT_STOP_TIME: every transmission ends at once; an ACTIVE unit becomes FENCED (R441, R444). -/
def execOutputStopTime (t : Nat) (s : State) : Res :=
  let s := s.advance t
  if s.pairRole = 1 && s.pairOn && s.pa.leaseEnd ≤ s.mtb + 20625 then
    let s := s.each (List.range 4) State.txCut
    let s := ({ s with pa := { s.pa with lost := true } }).setRole 4
    .next (s.raise R.PAIR_EVENT_LEASE_LOST)
  else .next s

/-! ### Amrek frames (R443, R454) -/

/-- A HELLO leaves: STRUCT_DIGEST, EUI-64, the pricking's VERSION, role, PREF (Table 20.2). -/
def State.hello (s : State) : State :=
  ({ s with pa := { s.pa with helloAt := some s.mtb } }).amrekOut 1
    (octs 32 s.pr.header.structDigest ++ octs 8 Config.eui64 ++ nats (leBytes 4 s.pr.header.version) ++
      [s.pairRole, s.getF R.PAIR_STATE_PREF, 0, 0])

/-- HELLO_SEND: a HELLO leaves, every 100 ms (R443, Table 20.2). -/
def execHelloSend (t : Nat) (s : State) : Res :=
  let s := s.advance t
  let due := match s.pa.helloAt with | some a => a + msToCyc 100 | none => 0
  if s.isSet R.PAIR_STATE_TIE_UP && due ≤ s.mtb then .next s.hello else .next s

/-- HELLO_RX: the peer's digest, role and PREF; the role transitions follow (R441, R443). -/
def execHelloRx (digest : BitVec 256) (eui : BitVec 64) (role : Fin 8) (pref : Bool) (t : Nat) (s : State) : Res :=
  let s := s.advance t
  if !s.isSet R.PAIR_STATE_TIE_UP then .next s
  else
    let s := { s with pa := { s.pa with peerDigest := some digest.toNat, peerEui := eui.toNat } }
    let s := (s.setF R.TIE_PEER_DIGEST (lead4 digest.toNat)).setF R.TIE_PEER_STATE_ROLE role
    let s := s.setB R.TIE_PEER_STATE_PREF pref
    if s.pairOn then .next (s.hear role)
    else .next s

/-- The service interface identifier (R452). -/
def serviceIid (a b : Nat) : Nat :=
  let d := Config.sha3 (octs 8 (min a b) ++ octs 8 (max a b)) / 2 ^ 192
  putBit d 57 false

/-- The unit's side of the key exchange begins (R454): its certificate and an encapsulation key, signed under slot 0. How they
are divided into frames of 4,096 octets the spec leaves open (notes/assumptions/40.md). -/
def State.keyxStart (s : State) : State :=
  if !s.pairOn then s
  else
    let secret := s.freeVal
    let s := s.drbgUse
    let ek := Config.publicKey 5 secret
    let sig := Config.sign 3 identitySeed (ascii "SVC4820 pair") (octs 1184 ek) s.freeVal
    ({ s.useFree with pa := { s.pa with kem := secret } }).emit (.keyx Config.certificate ek sig)

/-- The unit with PREF 0 encapsulates to its peer's key and signs the ciphertext (R454). -/
def State.keyxCipher (s : State) : State :=
  if s.getF R.PAIR_STATE_PREF = 0 then
    let ct := s.freeVal
    let s := s.drbgUse
    s.useFree.emit (.keyxCipher ct (Config.sign 3 identitySeed (ascii "SVC4820 pair") (octs 1088 ct) s.freeVal))
  else s

/-- KEYX_RX: the key exchange ends (R454); `ok`: certificate, signatures and digest check; `secret`: the shared secret. -/
def execKeyxRx (ok : Bool) (secret : BitVec 256) (peerEui : BitVec 64) (t : Nat) (s : State) : Res :=
  let s := s.advance t
  if !s.isSet R.PAIR_STATE_TIE_UP || !s.pairOn then .next s
  else if !ok || s.pa.peerDigest ≠ some s.pr.header.structDigest then
    .next ((s.raise R.PAIR_EVENT_PEER_AUTH).setF R.PAIR_CMD_ERR_STATUS ST.PAIR_PEER_AUTH)
  else
    let s := s.keyxCipher
    let own := Config.eui64
    let peer := peerEui.toNat
    let key := Config.kmac secret.toNat (octs 8 (min own peer) ++ octs 8 (max own peer)) 256 (ascii "SVC4820 pair")
    let iid := serviceIid own peer
    let s := { s with pa := { s.pa with key := some key, peerEui := peer, kem := 0 } }
    let s := (s.setF R.PAIR_STATE_PEER_AUTH 1).setF R.PAIR_PEER_EUI_LO_EUI (idLo peer)
    let s := s.setF R.PAIR_PEER_EUI_HI_EUI (idHi peer)
    let s := s.setF R.PAIR_SVC_IID_LO_IID (idLo iid)
    .next ((s.setF R.PAIR_SVC_IID_HI_IID (idHi iid)).hear (s.getF R.PAIR_STATE_PEER_ROLE))

/-! ### Mirroring on the standby (R455 to R457, R460) -/

/-- A blob write of the key store that no command waits for. -/
def State.storeKeep (s : State) (ws : List KeyWrite) : State :=
  match s.ky.bootJob, ws with
  | [], w :: _ => ({ s with ky := { s.ky with bootJob := ws } }).nandSubmit (s.keyNand w)
  | l, _ => { s with ky := { s.ky with bootJob := l ++ ws } }

/-- Insert a key into the address hash; the second component says how the engine ends (R344, R350). -/
def State.hashPut (s : State) (e : HashEntry) : State × Nat :=
  match s.hashInsert s.liveTab s.gd.stash e with
  | .has _ => (s, ST.GROUND_EXISTS)
  | .full => ((s.bump R.GROUND_COUNT1_LO).raise R.GROUND_EVENT_REHASH_NEEDED, ST.GROUND_HASH_FULL)
  | .ok t st moves =>
    let t := t.addF R.GROUND_COUNT0_HI moves
    let t := match st with
      | none => t
      | some v => ({ t with gd := { t.gd with stash := t.gd.stash ++ [v] } }).raise R.GROUND_EVENT_STASH_USED
    let t := { t with gd := { t.gd with entries := t.gd.entries + 1 } }
    let t := if t.altActive then t.altInsert e else t
    (t.journalAdd 2 false 0 e.node (beBytes 8 e.key ++ leBytes 1 e.typ), ST.OK)

/-- Delete a key from the address hash (R345, R350). -/
def State.hashTake (s : State) (key typ : Nat) : State :=
  match s.hashDelete s.liveTab s.gd.stash key typ with
  | (_, _, false) => s
  | (t, st, true) =>
    let t := { t with gd := { t.gd with stash := st, entries := t.gd.entries - 1 } }
    let t := if t.altActive then
        let r := t.hashDelete t.altTab t.gd.altStash key typ
        { r.1 with gd := { r.1.gd with altStash := r.2.1 } }
      else t
    t.journalAdd 3 false 0 0 (beBytes 8 key ++ leBytes 1 typ)

/-- A region write of the mirror: a record's bytes 94 and 95 stay (R337, R457). -/
def State.mirrorWrite (s : State) (region off : Nat) (data : List Byte) : State :=
  let base := (s.region region).1
  s.each ((List.range data.length).zip data) (fun s x =>
    let o := off + x.1
    if (s.region region).2 ≤ o then s
    else if region = 0 && (o % 256 = 94 || o % 256 = 95) then s
    else s.writeByte (base + o) x.2)

/-- A key slot's record puts the key into the same slot, unwrapped under the pair transport key (R455). -/
def State.mirrorKey (s : State) (r : MirrorRec) : State :=
  match s.pa.key with
  | none => s
  | some k =>
    let attr := leNat (r.data.take 4)
    match Config.unwrap k (r.data.length - 12) (beNat (r.data.drop 4)) with
    | none => s
    | some m =>
      let s := s.putSlot r.target ⟨attr, m⟩
      if attrPersist attr then s.storeKeep (s.storeWrites false) else s

/-- A mirror record is applied (Table 20.5). -/
def State.mirrorApply (s : State) (r : MirrorRec) : State :=
  let s := { s with pa := { s.pa with applied := r.seq } }
  let key := beNat (r.data.take 8)
  let typ := leNat ((r.data.drop 8).take 1)
  if r.kind = 1 then s.mirrorWrite r.region r.target r.data
  else if r.kind = 2 then (s.hashPut ⟨key, typ, r.target⟩).1
  else if r.kind = 3 then s.hashTake key typ
  else if r.kind = 4 then s.mirrorKey r
  else if r.kind = 5 then (s.delSlot r.target).storeKeep ((s.delSlot r.target).storeWrites true)
  else if r.kind = 6 then s.putSetting r.target (settingVals r.data)
  else s

/-- A standby whose mirror restarts with SEQ 1 is being resynchronised (R460). -/
def State.mirrorTake (s : State) (r : MirrorRec) : State :=
  if r.seq = s.pa.applied + 1 then s.mirrorApply r
  else if r.seq = 1 && s.pairRole = 3 then (s.setF R.PAIR_STATE_RESYNC 1).mirrorApply r
  else s

/-- MIRROR_FRAME_RX: the records are applied in SEQ order and acknowledged (R456, R457). -/
def execMirrorFrameRx (records : List MirrorRec) (t : Nat) (s : State) : Res :=
  let s := s.advance t
  if !s.isSet R.PAIR_STATE_TIE_UP || !(s.pairRole = 2 || s.pairRole = 3) then .next s
  else
    let s := s.each records State.mirrorTake
    .next ((s.hear (s.getF R.PAIR_STATE_PEER_ROLE)).amrekOut 4 (nats (leBytes 4 s.pa.applied ++ leBytes 4 0)))

/-- MIRROR_ACK_RX: journal space frees, reservations take effect (R449, R456). -/
def execMirrorAckRx (seq : Nat) (t : Nat) (s : State) : Res :=
  let s := s.advance t
  if !s.isSet R.PAIR_STATE_TIE_UP || s.pairRole ≠ 1 then .next s
  else
    let s := { s with pa := { s.pa with
      journal := s.pa.journal.filter (fun r => seq < r.seq), waits := s.pa.waits.filter (fun w => seq < w.2.1) } }
    .next (s.hear (s.getF R.PAIR_STATE_PEER_ROLE)).macTick

/-- FIX_SCAN_STEP: the next record of the takeover scan (R450). -/
def execFixScanStep (s : State) : Res :=
  let n := s.getF R.PAIR_FIX_NEXT
  if !s.isSet R.PAIR_FIX_RUNNING then .next s
  else if s.pr.table.nodeLimit ≤ n then .next (s.setF R.PAIR_FIX_RUNNING 0)
  else
    let s := if s.pa.fixed.contains n then s else s.fixNode n
    let s := s.setF R.PAIR_FIX_NEXT (n + 1)
    .next (if s.pr.table.nodeLimit ≤ n + 1 then
        ({ s with pa := { s.pa with fixed := [] } }).setF R.PAIR_FIX_RUNNING 0 else s)

/-- NA_REPEAT: 1 s after the takeover the Neighbor Advertisement goes out again (R450). -/
def execNaRepeat (t : Nat) (s : State) : Res :=
  let s := s.advance t
  match s.pa.naAt with
  | none => .next s
  | some a =>
    if s.mtb < a || s.pairRole ≠ 1 then .next s
    else
      let s := { s with pa := { s.pa with naAt := none } }
      .next s.advertise

/-- Every mirrored key is inserted anew from the records, after the hash has been zeroed (R460). -/
def State.rebuildHash (s : State) : State :=
  let b := s.getF R.GROUND_HASH_BASE_BASE
  let s := s.dropMem b (b + 0x800000)
  let s := { s with gd := { s.gd with stash := [], entries := 0 } }
  s.each (List.range s.pr.table.nodeLimit) (fun s n =>
    if s.recValid n then
      let s := (s.hashPut ⟨s.recEui n, 0, n⟩).1
      if bitOf (s.recGet n 13 1) 2 then (s.hashPut ⟨beNat (s.readBytes (s.recAddr n 64) 8), 1, n⟩).1 else s
    else s)

/-- RESYNC_COMPLETE: copy and backlog are applied; the unit is current (R460). -/
def execResyncComplete (t : Nat) (s : State) : Res :=
  let s := s.advance t
  if s.pairRole = 3 && s.isSet R.PAIR_STATE_RESYNC && s.isSet R.PAIR_STATE_TIE_UP then
    let s := (s.rebuildHash.setF R.PAIR_STATE_RESYNC 0).setRole 2
    .next (s.raise R.PAIR_EVENT_RESYNC_DONE)
  else .next s

/-! ### The tie link (R453, R460) -/

/-- The tie link has completed phase 3: pair traffic may start; a stale standby starts anew (R441, R460). -/
def State.tieUp (s : State) : State :=
  let s := { (s.setF R.PAIR_STATE_TIE_UP 1) with pa := { s.pa with fresh := true, applied := if s.pairRole = 3 then 0 else s.pa.applied } }
  let s := s.hello.keyxStart
  if s.pairRole = 3 then s.setF R.PAIR_STATE_RESYNC 1 else s

/-- The tie link is lost (R453): mirroring pauses, a current pair awaits a stale grant, peer time is no longer valid. -/
def State.tieDown (s : State) : State :=
  if !s.isSet R.PAIR_STATE_TIE_UP then s
  else
    let s := (s.setF R.PAIR_STATE_TIE_UP 0).setF R.PAIR_STATE_RESYNC 0
    let s := { s with pa := { s.pa with mirrors := false, fresh := false }, tm := { s.tm with peerAt := none } }
    let s := (s.setF R.TIME_PEER_OFFSET 0x80000000).reselect.rejudge.peerSessionLost
    let s := if s.pairOn then s.raise R.PAIR_EVENT_TIE_DOWN else s
    let s := if s.pairRole = 1 && s.getF R.PAIR_STATE_MODE = 0 then s.setF R.PAIR_STATE_MODE 1 else s
    s.leasePathCheck

/-! ### PAIR registers (R461) -/

/-- A PAIR refusal. -/
def State.pairRefuse (s : State) (st : Nat) : State := s.refuse R.PAIR_CMD_ERR_STATUS st

/-- A write of 1 to PAIR_CTRL.RESIGN (R448). -/
def State.pairResign (s : State) : State :=
  if !s.pairOn then s.pairRefuse ST.PAIR_OFF
  else if s.pairRole ≠ 1 then s.pairRefuse ST.PAIR_STATE
  else s.selfFault.answer ST.OK

/-- A write of 1 to PAIR_CTRL.RESYNC (R460). -/
def State.pairResync (s : State) : State :=
  if !s.pairOn then s.pairRefuse ST.PAIR_OFF
  else if s.pairRole ≠ 1 || s.getF R.PAIR_STATE_PEER_ROLE ≠ 3 || !s.isSet R.PAIR_STATE_TIE_UP then s.pairRefuse ST.PAIR_STATE
  else s.resyncStart.answer ST.OK

/-- PAIR_RESIGN_WRITE and PAIR_RESYNC_WRITE: firmware writes PAIR_CTRL. -/
def execPairResignWrite (s : State) : Res :=
  .next (s.recorded ⟨0, 0⟩ R.PAIR_CTRL (4 * s.getF R.PAIR_CTRL_ALONE_MS + 1) R.PAIR_CMD_ERR_STATUS State.pairResign)
def execPairResyncWrite (s : State) : Res :=
  .next (s.recorded ⟨0, 0⟩ R.PAIR_CTRL (4 * s.getF R.PAIR_CTRL_ALONE_MS + 2) R.PAIR_CMD_ERR_STATUS State.pairResync)

end Sys2Proof.Machine
end

