-- ==== Sys2Proof/Machine/Reset.lean ====
section
/-!
DEFINITION. Resets (04_start_up.md, Table 04.6): which registers and which state each kind keeps, the warm reset's request,
the cause counter.
-/
namespace Sys2Proof.Machine

/-- The reset kinds by START_CAUSE's code: 1 power-on, 2 RESET_N, 3 park restart, 4 and 5 warm reset, 6 return to
AWAIT_TRAINING. -/
def warmKind (k : Nat) : Bool := k = 4 || k = 5

/-- START_OPT, START_FAIL, START_FAIL_LOC, START_BOOT. -/
def startKept : List Nat := [R.START_OPT, R.START_FAIL, R.START_FAIL_LOC, R.START_BOOT]

/-- Registers of the VBAT domain (R96, R402, R426). -/
def vbatRegs : List Nat :=
  [R.START_CAUSE, R.TAMPER_STATE, R.TAMPER_CFG, R.TAMPER_FILTER, R.TAMPER_COUNT, R.TAMPER_LOG, R.TAMPER_EVENT]

/-- Whether a reset of kind `k` keeps the register at `a` (Table 04.6). A warm reset keeps CLK, UPL0, UPL1, TIE, TIME and
MEM. -/
def keptReg (k a : Nat) : Bool :=
  vbatRegs.contains (a % bankStride) || (3 ≤ k && startKept.contains a) ||
  (warmKind k && [1, 3, 4, 5, 6, 16].contains (blockOf a))

/-- Memory after a reset: SRAM is lost with the supplies; DRAM is kept by a warm reset and, in self-refresh, by a park
restart (R64). What is undefined reads as what nothing has written. -/
def State.resetMem (s : State) (k : Nat) (fault : Bool) : State :=
  if k = 1 || k = 2 then { s with mem := [] }
  else if k = 6 || (k = 3 && fault) then s.dropMem 0x80000000 0xA0000000
  else s

/-- Whether DRAM keeps its content through a reset. -/
def dramKept (k : Nat) (fault : Bool) : Bool := warmKind k || (k = 3 && !fault)

/-- The state with every block reset that the reset kind resets: registers, then what stands beside them (R94, Table 04.6).
What lies in flash, in one-time-programmable memory and in the VBAT domain is kept. -/
def State.cleared (s : State) (k : Nat) (warm keepTab : Bool) : State :=
  { s with
    regs := s.regs.filter (fun x => keptReg k x.1), notes := [], pr := Pricking.none,
    clk := if warm then s.clk else {},
    queues := [], pl := {}, gd := {}, rd := {}, mac := {}, sl := {}, pa := {}, cmp := {},
    tm := if warm then s.tm else {}, mtb := if warm then s.mtb else 0,
    upl0 := if warm then s.upl0 else {}, upl1 := if warm then s.upl1 else {}, tie := if warm then s.tie else {}, svc := {},
    su := { vbat := s.su.vbat, vbatFresh := s.su.vbatFresh, good := s.su.good, resetHigh := s.su.resetHigh,
            cause := s.su.cause, failedSlots := if 3 ≤ k then s.su.failedSlots else [], fromWarm := warm },
    ms := { programmed := s.ms.programmed, nand := if warm then s.ms.nand else none,
            sched := if warm then s.ms.sched else bootSched, slotsTaken := if warm then s.ms.slotsTaken else [],
            refreshed := if warm then s.ms.refreshed else [], maxWait := if warm then s.ms.maxWait else [] },
    ky := { root := s.ky.root, area0 := s.ky.area0, area1 := s.ky.area1, quiet := s.ky.quiet },
    ro := { s.ro with shakes := [], sessions := [] },
    ry := { settings := s.ry.settings, images := s.ry.images,
            cells := if keepTab then s.ry.cells else [], rows := if keepTab then s.ry.rows else [],
            gens := if keepTab then s.ry.gens else [], slots := if keepTab then s.ry.slots else [] },
    up := { s.up with session := none, peer := none, resultTo := if warm then s.up.resultTo else none, trialAt := none, okAt := none, pairWait := 0, heldCyc := 0 } }

/-- The blocks reset (R94, Table 04.6): the outputs go to the levels of Table 04.3 where the supplies stay (R82), registers,
then what stands beside them. What lies in flash, in one-time-programmable memory and in the VBAT domain is kept; a warm
reset keeps the sources locked and the tie link trained, which START_STATE.SRC_LOCK and PAIR_STATE.TIE_UP go on showing. -/
def State.resetBlocks (s : State) (k : Nat) (fault : Bool) : State :=
  let s := (s.each (s.ro.sessions.map (·.1)) State.sessionEnd).sessionAbort ST.UPDATE_ABORTED
  let s := if 3 ≤ k then s.holdOutputs else s
  let park := s.getF R.CLK_EVENT_PARK
  let pll := s.getF R.CLK_EVENT_PLL_FAULT
  let mode := s.getF R.START_STATE_BOOT_MODE
  let lock := s.getF R.START_STATE_SRC_LOCK
  let tie := s.getF R.PAIR_STATE_TIE_UP
  let warm := warmKind k
  let keepTab := dramKept k fault
  let s := s.resetMem k fault
  let s := s.cleared k warm keepTab
  let s := if 3 ≤ k then (s.setF R.CLK_EVENT_PARK park).setF R.CLK_EVENT_PLL_FAULT pll else s
  let s := if 3 ≤ k then s.setF R.START_STATE_BOOT_MODE mode else s
  if warm then (s.setF R.START_STATE_SRC_LOCK lock).setF R.PAIR_STATE_TIE_UP tie else s.setF R.START_STATE_SRC_LOCK 0

/-- START_CAUSE takes a reset's cause, and COUNT one more (R96). -/
def State.writeCause (s : State) (k : Nat) : State := (s.setF R.START_CAUSE_CAUSE k).bump R.START_CAUSE_COUNT

/-- The exit from UNPOWERED: the first one after VBAT was applied leaves START_CAUSE as it stands (R96). -/
def State.exitCause (s : State) (k : Nat) : State :=
  if s.su.vbatFresh then { s with su := { s.su with vbatFresh := false } } else s.writeCause k

/-- A warm reset is requested (R95): recorded, then no new transmission starts; one on air ends, at once on an ACTIVE unit of
a pair (R448), else at its next symbol boundary (R206). Frames and commands that have not launched are flushed (R204, R243); a
transceiver that is not on air takes the step to SLEEP (R155). -/
def State.requestWarm (s : State) (k : Nat) : State :=
  if s.su.warm.isSome then s
  else
    let s := s.auditNote ⟨7, 0, 0, 0, R.SYS_RESET, 0, k⟩
    let s := { s with su := { s.su with warm := some k } }
    let s := s.selfFault.macFlush
    s.each (List.range 4) (fun s n =>
      let s := s.txFlush n
      if (s.trx n).onAir.isSome then s.txEndSoon n (ST.TX_FLUSHED n) else s.toSleep n)

end Sys2Proof.Machine
end

