-- ==== Sys2Proof/Machine/Clock.lean ====
section
/-!
DEFINITION. The clock root (03_clock_root.md): sources and their monitor, selection, hold and park, dividers, gating.
-/
namespace Sys2Proof.Machine

/-! ### Sources (R49 to R59) -/

/-- A field of CLK_SRC_UPL0 for source `n`: 0 UPL0, 1 UPL1, 2 tie link. -/
def srcF (f : Field) (n : Nat) : Field := f.off (4 * (n % 3))

def State.srcLocked (s : State) (n : Nat) : Bool := n < 3 && s.isSet (srcF R.CLK_SRC_UPL0_LOCK n)
def State.srcQual (s : State) (n : Nat) : Bool := n < 3 && s.isSet (srcF R.CLK_SRC_UPL0_QUAL n)

/-- CLK_STATE.CLK_MODE and TX_OK. -/
def State.setClkMode (s : State) (m : Nat) : State :=
  (s.setF R.CLK_STATE_CLK_MODE m).setB R.CLK_STATE_TX_OK (m = 1 || m = 2)

/-- The DPLL's control word as it is now (R58): the held word in a hold, the word recorded at this very moment, and else a
measured value that the spec does not state. -/
def State.presentWord (s : State) : Int :=
  if s.getF R.CLK_STATE_ROOT_SRC = 3 || s.clk.wordAt = some s.mtb then s.clk.word
  else signed 16 (s.freeVal % 2 ^ 16)

/-- The present control word is recorded as the held word (R58). -/
def State.recordHeld (s : State) : State :=
  let w := s.presentWord
  { s.useFree with clk := { s.clk with word := w, held := w, wordAt := some s.mtb } }

/-- The root moves to a source (R56): the DPLL starts from its present control word, which becomes the held word (R58). -/
def State.switchTo (s : State) (n : Nat) : State :=
  let s := s.recordHeld
  let s := s.each [0, 1, 2] (fun s k => s.setB (srcF R.CLK_SRC_UPL0_INSVC k) (k = n))
  (s.setF R.CLK_STATE_ROOT_SRC n).setClkMode 1

/-- No source drives the root: the DPLL holds the held word (Table 03.1). -/
def State.holdRoot (s : State) : State :=
  let s := s.each [0, 1, 2] (fun s k => s.setB (srcF R.CLK_SRC_UPL0_INSVC k) false)
  let s := (s.setF R.CLK_STATE_ROOT_SRC 3).setClkMode 2
  { s with clk := { s.clk with word := s.clk.held } }

/-- Enter HOLD (R60): the marks count from here. -/
def State.enterHold (s : State) : State :=
  let s := s.holdRoot.setDev devHold
  ({ s with clk := { s.clk with holdAt := s.mtb } }).raise R.CLK_EVENT_HOLD_ENTER

/-- SRC_ORDER (Table 02.9) as a list, FORCE_SRC ahead of it (R54). -/
def State.srcOrder (s : State) : List Nat :=
  let o := s.pr.time.srcOrder
  (if s.isSet R.CLK_SRC_CTRL_FORCE then [s.getF R.CLK_SRC_CTRL_FORCE_SRC] else []) ++ [o % 4, o / 4 % 4, o / 16 % 4]

/-- The first qualified source of the order (R54). -/
def State.bestSrc (s : State) : Option Nat := s.srcOrder.find? s.srcQual

/-- Return to AWAIT_TRAINING (R84, Table 04.6). -/
def State.toAwait (s : State) : State :=
  ((s.resetBlocks 6 false).writeCause 6).setDev devAwait

/-- The source that SERVICE changes to, if any (R54): FORCE, a source for one that is no longer qualified, or with REVERT
an earlier one that has passed 16 consecutive windows. -/
def State.serviceSwitch (s : State) : Option Nat :=
  let cur := s.getF R.CLK_STATE_ROOT_SRC
  let curOk := cur < 3 && s.srcQual cur
  let forced := s.isSet R.CLK_SRC_CTRL_FORCE && s.srcQual (s.getF R.CLK_SRC_CTRL_FORCE_SRC)
  if forced then (if s.getF R.CLK_SRC_CTRL_FORCE_SRC = cur then none else some (s.getF R.CLK_SRC_CTRL_FORCE_SRC))
  else if !curOk then s.bestSrc
  else if s.isSet R.CLK_MON_CFG_REVERT then
    (s.srcOrder.takeWhile (fun n => n != cur)).find? (fun n => s.srcQual n && 16 ≤ s.getF (srcF R.CLK_SRC_UPL0_PASS n))
  else none

/-- What a change of locks or qualifications does to the clock root (Table 03.1, R53, R84). -/
def State.clockDecide (s : State) : State :=
  let cur := s.getF R.CLK_STATE_ROOT_SRC
  let d := s.dev
  if d = devService then
    match s.serviceSwitch with
    | some n => (s.switchTo n).raise R.CLK_EVENT_SRC_SWITCH
    | none => if cur < 3 && s.srcQual cur then s else s.enterHold
  else if d = devHold || d = devHoldInhibit then
    match s.bestSrc with
    | some n => ((s.switchTo n).setDev devService).raise R.CLK_EVENT_HOLD_EXIT
    | none => s
  else if d = devDramTrain || d = devBoot || d = devLoad then
    if cur < 3 && s.srcLocked cur then s
    else match s.clk.locks with
      | n :: _ => s.switchTo n
      | [] => s.toAwait
  else if d = devRootLock then
    if cur < 3 && s.srcLocked cur then s else s.toAwait
  else if d = devTamper || d = devReturned || d = devSampler then
    match s.serviceSwitch with
    | some n => s.switchTo n
    | none => if cur < 3 && s.srcLocked cur then s else s.holdRoot
  else s

/-- A source is no longer qualified (R59): reported, and FORCE on it is cleared. -/
def State.unqualify (s : State) (n : Nat) : State :=
  let s := if s.srcQual n then (s.setF (srcF R.CLK_SRC_UPL0_QUAL n) 0).raise R.CLK_EVENT_DISQUAL else s
  if s.isSet R.CLK_SRC_CTRL_FORCE && s.getF R.CLK_SRC_CTRL_FORCE_SRC = n then s.setF R.CLK_SRC_CTRL_FORCE 0 else s

/-- A failed window or a loss disqualifies a source (R59). -/
def State.disqualify (s : State) (n : Nat) : State :=
  let s := (s.setF (srcF R.CLK_SRC_UPL0_PASS n) 0).unqualify n
  { s with clk := { s.clk with everDisq := withOne n s.clk.everDisq } }

/-- A source qualifies if its passes suffice and nothing blocks it (R59). -/
def State.qualify (s : State) (n : Nat) : State :=
  let need := if s.clk.everDisq.contains n then s.getF R.CLK_MON_CFG_REQUAL else 1
  if s.srcLocked n && !s.isSet (srcF R.CLK_SRC_UPL0_BLOCKED n) && need ≤ s.getF (srcF R.CLK_SRC_UPL0_PASS n) then
    s.setF (srcF R.CLK_SRC_UPL0_QUAL n) 1
  else s

/-- A block under R51 or R55 starts or ends (R59). -/
def State.setBlocked (s : State) (n : Nat) (b : Bool) : State :=
  let s := s.setB (srcF R.CLK_SRC_UPL0_BLOCKED n) b
  (if b then s.unqualify n else s.qualify n).clockDecide

/-- R51: the tie link qualifies only while the peer's root is locked to one of its upstream ports. -/
def State.tieBlocked (s : State) : Bool :=
  let r := s.getF R.TIE_PEER_STATE_ROOT
  !(r = 1 || r = 2)

/-- The tolerance in force (R57). -/
def State.tolerance (s : State) : Nat := s.getF R.CLK_MON_CFG_TOL_PPM

/-- A window of a source starts (R57). -/
def State.openWindow (s : State) (n : Nat) : State :=
  { s with clk := { s.clk with windows := (s.clk.windows.filter (fun w => w.1 != n)) ++ [(n, s.tolerance)] } }

/-- An upstream port's training starts anew: nothing is locked, the port listens (R99, R104). -/
def State.portListen (s : State) (p : Nat) : State :=
  let s := ((s.setF (R.UPL_STAT_LINK_UP p) 0).setF (R.UPL_STAT_BLOCK_LOCK p) 0).setF (R.UPL_STAT_CDR_LOCK p) 0
  ((s.setF (R.UPL_STAT_PHASE p) 0).setF (R.UPL_STAT_FEC_ON p) 0)

def State.uplPort (s : State) (p : Nat) : UplPort := if p = 0 then s.upl0 else s.upl1
def State.setUpl (s : State) (p : Nat) (v : UplPort) : State := if p = 0 then { s with upl0 := v } else { s with upl1 := v }

/-- Ryurix leaves a port that has lost its link for the other one (R365). -/
def State.ryPortLost (s : State) (p : Nat) : State :=
  if s.ry.inUse = p && s.isSet (R.UPL_STAT_LINK_UP (1 - p)) then { s with ry := { s.ry with inUse := 1 - p, backAt := none } }
  else s

/-- The preferred upstream port (net key 11). -/
def State.preferred (s : State) : Nat := s.settingD (settingNo svcNet 0 11 0) 0 % 2


/-- A port has a live default router. -/
def State.liveRouter (s : State) (p : Nat) : Bool :=
  s.isSet (R.UPL_STAT_LINK_UP p) && (s.netPort p).routers.any (fun r => s.mtb < r.2)

/-- Ryurix finds a port better than before (R365): it leaves a port in use that has no link, and it returns to the preferred
port 10 s after that one has a live default router again. -/
def State.ryPortBack (s : State) (p : Nat) : State :=
  let s : State := if !s.isSet (R.UPL_STAT_LINK_UP s.ry.inUse) && s.isSet (R.UPL_STAT_LINK_UP p) then
      { s with ry := { s.ry with inUse := p, backAt := none } } else s
  if p = s.preferred && s.ry.inUse ≠ p && s.liveRouter p && s.ry.backAt.isNone then
    { s with ry := { s.ry with backAt := some (s.mtb + 10 * secCyc) } }
  else s

/-- A port loses its link (R104): reported when it was up; packets it was receiving are cut (R306). -/
def State.portDown (s : State) (p : Nat) : State :=
  let up := s.isSet (R.UPL_STAT_LINK_UP p)
  let s := s.portListen p
  if up then
    let s := (s.raise (R.UPL_EVENT_LINK_DOWN p)).setUpl p { s.uplPort p with paused := [], sent := [] }
    (((s.cutPackets (0x48 + 0x10 * p)).timePortLost p).ryPortLost p).leasePathCheck
  else s

/-- The tie link falls back to phase 1, where it sends ACQ blocks, or to listening: TIE_EVENT.DOWN when it was up, and R453. -/
def State.tieListen (s : State) (phase : Nat) : State :=
  let up := s.getF R.TIE_STAT_PHASE = 4
  let s := { s.setF R.TIE_STAT_PHASE phase with tie := { since := s.mtb } }
  let s := if up then ((s.raise R.TIE_EVENT_DOWN).cutPackets 0x61).tieDown else s
  if phase = 1 then s.tieSend tieAcq else s

/-- The tie link starts again: in phase 1 with a root, in listening without one (R109, R112). -/
def State.tieAgain (s : State) : State := s.tieListen (if s.tieSends then 1 else 0)

/-- The tie link reaches block lock in clock acquisition: the limit of phase 1 counts from here (Table 05.3), and ACQ blocks
are sent (R111). -/
def State.tieLocked (s : State) : State :=
  if s.getF R.TIE_STAT_PHASE ≤ 1 && !s.isSet R.TIE_STAT_BLOCK_LOCK then ((s.setF R.TIE_STAT_BLOCK_LOCK 1).tieListen 1)
  else s.setF R.TIE_STAT_BLOCK_LOCK 1

/-- The receiver of a source loses its signal: a port listens again (R104), the tie link returns to phase 1 or, without a
root, to listening (R112). -/
def State.linkGone (s : State) (n : Nat) : State :=
  if n < 2 then s.portDown n else (s.setF R.TIE_STAT_BLOCK_LOCK 0).tieAgain

/-- A source is lost (R50): neither locked nor qualified; the root and the link follow. A loss before the root PLL has locked
does not count as a disqualification since ROOT_LOCK (DEDUCED: R59 counts from ROOT_LOCK, and no window of R57 has begun
before the PLL's lock). -/
def State.sourceLost (s : State) (n : Nat) : State :=
  if !s.srcLocked n then s.linkGone n
  else
    let s := s.setF (srcF R.CLK_SRC_UPL0_LOCK n) 0
    let s := s.setF R.START_STATE_SRC_LOCK (putBit (s.getF R.START_STATE_SRC_LOCK) n false)
    let s := { s with clk := { s.clk with locks := without n s.clk.locks, windows := s.clk.windows.filter (fun w => w.1 != n) } }
    let s := if s.isSet R.CLK_STATE_PLL_LOCK then s.disqualify n else s
    (s.linkGone n).clockDecide

/-- At ROOT_LOCK a port that trains and is not the root source restarts its training (R101). -/
def State.retrainOthers (s : State) (n : Nat) : State :=
  let s := s.each ([0, 1].filter (fun p => p != n && s.getF (R.UPL_STAT_PHASE p) ≠ 0)) (fun s p => s.portListen p)
  if n ≠ 2 && s.getF R.TIE_STAT_PHASE ≠ 0 then s.tieListen 0 else s

/-- A source becomes locked (R50, R52): at start-up and in PARK it becomes the root source. -/
def State.sourceLocked (s : State) (n : Nat) : State :=
  if s.srcLocked n || s.dev = devUnpowered then s
  else
    let s := s.setF (srcF R.CLK_SRC_UPL0_LOCK n) 1
    let s := s.setF R.START_STATE_SRC_LOCK (putBit (s.getF R.START_STATE_SRC_LOCK) n true)
    let s := { s with clk := { s.clk with locks := s.clk.locks ++ [n] } }
    let s := if n = 2 then s.setB (srcF R.CLK_SRC_UPL0_BLOCKED 2) s.tieBlocked else s
    if s.dev = devAwait || s.dev = devPark then
      let s := if s.dev = devPark then s.writeCause 3 else s
      ((s.setDev devRootLock).setF R.CLK_STATE_ROOT_SRC n).setF (srcF R.CLK_SRC_UPL0_INSVC n) 1 |>.retrainOthers n
    else if s.isSet R.CLK_STATE_PLL_LOCK then s.openWindow n
    else s

/-- SOURCE_LOCKED: a receiver holds CDR lock and block lock (R50, R52). -/
def execSourceLocked (src : Fin 3) (t : Nat) (s : State) : Res :=
  let s := if s.rootRuns then s.advance t else s
  let n : Nat := src
  let s := if s.dev = devUnpowered then s
    else if n < 2 then (s.setF (R.UPL_STAT_CDR_LOCK n) 1).setF (R.UPL_STAT_BLOCK_LOCK n) 1 else s.tieLocked
  .next (s.sourceLocked n)

/-- SOURCE_LOST: loss of signal, CDR lock or block lock (R50). -/
def execSourceLost (src : Fin 3) (t : Nat) (s : State) : Res :=
  let s := if s.rootRuns then s.advance t else s
  .next (s.sourceLost src)

/-- MONITOR_WINDOW_END: `meas` is, in 0.05 ppm, the DPLL control word at the window's end for the in-service source, the
frequency against ROOT for another one (R58). -/
def execMonitorWindowEnd (src : Fin 3) (meas : Int) (t : Nat) (s : State) : Res :=
  let s := s.advance t
  let n : Nat := src
  match s.clk.windows.find? (fun w => w.1 == n) with
  | none => .next s
  | some (_, tol) =>
    let own := s.getF R.CLK_STATE_ROOT_SRC = n
    let off := if own then meas - s.clk.held else meas
    let pass := off.natAbs ≤ 20 * tol
    let show_ := max (-32767) (min 32767 off)
    let s := s.setF (srcF R.CLK_SRC_UPL0_OFFSET n) (unsigned 16 show_)
    let s := if own then { s with clk := { s.clk with word := meas, wordAt := some s.mtb, held := if pass then meas else s.clk.held } } else s
    let s := s.openWindow n
    if pass then .next ((s.bump (srcF R.CLK_SRC_UPL0_PASS n)).qualify n).clockDecide
    else .next (s.disqualify n).clockDecide

/-! ### Hold and park (R60 to R64) -/

/-- HOLD_1S_MARK: HOLD_TX_INHIBIT is entered; for an ACTIVE unit of a pair it is a self-detected fault (R60, R448). -/
def execHold1sMark (t : Nat) (s : State) : Res :=
  let s := s.advance t
  if s.dev = devHold && s.clk.holdAt + secCyc ≤ s.mtb then
    let s := ((s.setDev devHoldInhibit).setClkMode 3).raise R.CLK_EVENT_TX_INHIBIT
    .next s.selfFault
  else .next s

/-- Entry to PARK (R64): frames and commands that have not launched are flushed (R204, R243), transmissions end at their next symbol
boundary and every transceiver takes the step to SLEEP (R155, R206); then every link and source is lost and the blocks are reset;
`fault`: after ST_CLK_PLL_FAULT, when DRAM does not keep its content. -/
def State.enterPark (s : State) (fault : Bool) : State :=
  let s := s.macFlush
  let s := s.each (List.range 4) (fun s n =>
    let s := (s.setF (R.TRX_STATE_TARGET n) 0).txFlush n
    let s := match (s.trx n).onAir with
      | some c => s.txStopAt n (some (ST.TX_FLUSHED n)) (c.symbolEnd s.mtb)
      | none => s
    s.toSleep n)
  let s := s.setF R.CLK_EVENT_PARK 1
  ((s.resetBlocks 3 fault).setDev devPark).setB R.MEM_STATE_SELF_REFRESH (!fault)

/-- HOLD_30S_MARK: PARK is entered (R60, R64). -/
def execHold30sMark (t : Nat) (s : State) : Res :=
  let s := s.advance t
  if s.dev = devHoldInhibit && s.clk.holdAt + 30 * secCyc ≤ s.mtb then .next (s.enterPark false) else .next s

/-- ROOT_PLL_UNLOCK: the root PLL loses lock while its source stays locked (R60). -/
def execRootPllUnlock (t : Nat) (s : State) : Res :=
  if s.rootRuns then
    let s := s.advance t
    let s := (s.setF R.CLK_CMD_ERR_UNIT 31).setF R.CLK_CMD_ERR_STATUS ST.CLK_PLL_FAULT
    .next ((s.setF R.CLK_EVENT_PLL_FAULT 1).enterPark true)
  else .next s

/-! ### CLK registers (R54, R67, R69 to R75) -/

/-- A CLK refusal (R75). -/
def State.clkRefuse (s : State) (unit st : Nat) : State := (s.setF R.CLK_CMD_ERR_UNIT unit).refuse R.CLK_CMD_ERR_STATUS st

/-- A write of CLK_SRC_CTRL (R54). -/
def State.forceWrite (s : State) (force : Bool) (src : Nat) : State :=
  if s.isSet R.CLK_SRC_CTRL_FORCE = force && s.getF R.CLK_SRC_CTRL_FORCE_SRC = src then s.answer ST.OK
  else if 3 ≤ src then s.clkRefuse 31 ST.CLK_RANGE
  else if force && !s.srcQual src then s.clkRefuse 31 ST.CLK_SRC_UNQUAL
  else ((s.setB R.CLK_SRC_CTRL_FORCE force).setF R.CLK_SRC_CTRL_FORCE_SRC src).clockDecide.answer ST.OK

/-- CLK_SRC_FORCE_WRITE. -/
def execClkSrcForceWrite (force : Bool) (src : Fin 4) (s : State) : Res := .next (s.forceWrite force src)

/-- A bobbin has neither a task in service nor one prefetched, since at least `n` cyc. -/
def State.bobbinIdle (s : State) (b n : Nat) : Bool :=
  let v := s.bobbin b
  v.running.isNone && v.pre.isNone && v.idleAt + n ≤ s.mtb

/-- HOOP_IDLE: a hoop other than the main hoop whose bobbins have all been idle for CLK_IDLE_CYC ramps towards its IDLE_DIV
(R67). -/
def execHoopIdle (hoop : Fin 4) (t : Nat) (s : State) : Res :=
  let s := if s.rootRuns then s.advance t else s
  let h : Nat := hoop
  let idle := (List.range 16).all (fun b => s.hoopOf b != some h || s.bobbinIdle b (s.getF R.CLK_IDLE_CYC_IDLE))
  if (s.hoopRec h).isNone || h = s.mainHoop || !idle then .next s else .next (s.rampTo h (s.getF (hoopIdleDiv h)))

/-- HOOP_RAMP_STEP: 1,024 cycles at a divider are over; the ramp takes its next step (R67). -/
def execHoopRampStep (hoop : Fin 4) (s : State) : Res :=
  match s.clk.ramps.find? (fun r => r.hoop == hoop.val) with
  | none => .next s
  | some r => .next (s.rampStep hoop r.target)

/-- A command of CLK_RESTART (R69). One for a domain whose restart is in progress starts that restart anew, which the spec does
not say (DESIGN CHOICE). -/
def State.restartGo (s : State) (domain div : Nat) : State :=
  let hoop := domain - 4
  let created := match s.hoopRec hoop with | some _ => true | none => false
  match firstFail [
      (!(domain = 0 || (4 ≤ domain && domain < 8)), ST.CLK_RANGE),
      (4 ≤ domain && !created, stNotCreated 1),
      (domain = 0 && !(div = 2 || div = 16), ST.CLK_RANGE),
      (4 ≤ domain && !(div = 2 || ((div = 3 || div = 4) && hoop ≠ s.mainHoop)), ST.CLK_RANGE),
      (s.inService, ST.CLK_RESTART_STATE)] with
  | some st => s.clkRefuse 31 st
  | none =>
    let others : List Restart := s.clk.restarts.filter (fun r => r.domain != domain)
    let s : State := { s with clk := { s.clk with restarts := others ++ [⟨domain, div, false⟩] } }
    s.answer ST.OK

/-- CLK_RESTART_GO. -/
def execClkRestartGo (domain : Fin 16) (div : Fin 32) (s : State) : Res := .next (s.restartGo domain div)

/-- The restart of a domain that is in progress. -/
def State.restartOf (s : State) (d : Nat) : Option Restart := s.clk.restarts.find? (fun r => r.domain == d)

/-- RESTART_DIVIDER_SWITCH: after 64 old periods the domain's divider switches (R69). -/
def execRestartDividerSwitch (domain : Fin 16) (s : State) : Res :=
  match s.restartOf domain with
  | none => .next s
  | some r =>
    let switched : List Restart :=
      s.clk.restarts.map (fun q => if q.domain = r.domain then { q with switched := true } else q)
    let s : State := { s with clk := { s.clk with restarts := switched } }
    .next (if r.domain = 0 then { s with clk := { s.clk with dramDiv := r.div } } else s.setF (hoopCur (r.domain - 4)) r.div)

/-- The DRAM runs again (R69): the requests under way get their slots anew, those held during the restart are presented in their
order. -/
def State.dramResume (s : State) : State :=
  let l := s.ms.held
  (({ s with ms := { s.ms with held := [] } }).dramAnew).each l State.dramServe

/-- RESTART_FIRST_EDGE: after 64 new periods the domain gives its first edge; held DRAM requests are served (R69). -/
def execRestartFirstEdge (domain : Fin 16) (s : State) : Res :=
  match s.restartOf domain with
  | none => .next s
  | some r =>
    if !r.switched then .next s
    else
      let s : State := { s with clk := { s.clk with restarts := s.clk.restarts.filter (fun q => q.domain != r.domain) } }
      .next (if r.domain = 0 then s.dramResume else s)

/-- Whether a gate request meets its condition (Table 03.4). -/
def State.gateOk (s : State) (u : Nat) : Bool :=
  if u < 4 then s.dev ≠ devService || [0, 1, 2, 3].any (fun k => k != u && !s.gatedOrPending k)
  else if u = 7 || u = 8 then s.getF (R.UPL_CTRL_ADMIN (u - 7)) = 2
  else if 9 ≤ u then s.trxState (u - 9) = 0 && (s.trx (u - 9)).step.isNone
  else true

/-- CLK_GATE as one word of 13 bits. -/
def clkGate : Field := ⟨R.CLK_GATE, 0, 13⟩

/-- A CLK_GATE bit written 1 (R70). -/
def State.gateRequest (s : State) (u : Nat) : State :=
  if bitOf (s.getF clkGate) u then s.answer ST.OK
  else if !s.gateOk u then s.clkRefuse u ST.CLK_GATE_STATE
  else
    let s := s.setF clkGate (putBit (s.getF clkGate) u true)
    (s.setF R.CLK_GATE_STAT_PEND (putBit (s.getF R.CLK_GATE_STAT_PEND) u true)).answer ST.OK

/-- A CLK_GATE bit written 0 (R71, R74): the unit runs again, the flash controller with the operations that wait for it. -/
def State.ungate (s : State) (u : Nat) : State :=
  if !bitOf (s.getF clkGate) u then s.answer ST.OK
  else if 9 ≤ u && (s.trxRec (u - 9)).isNone then s.clkRefuse u (stNotCreated 1)
  else
    let s := s.setF clkGate (putBit (s.getF clkGate) u false)
    let s := s.setF R.CLK_GATE_STAT_PEND (putBit (s.getF R.CLK_GATE_STAT_PEND) u false)
    let s := s.setF R.CLK_GATE_STAT_GATED (putBit (s.getF R.CLK_GATE_STAT_GATED) u false)
    (if u = gateNand then s.nandStart else s).answer ST.OK

/-- GATE_REQUEST and UNGATE. -/
def execGateRequest (unit : Fin 13) (s : State) : Res := .next (s.gateRequest unit)
def execUngate (unit : Fin 13) (s : State) : Res := .next (s.ungate unit)

/-- GATE_CLOSE: the unit's bus port is drained (R70). -/
def execGateClose (unit : Fin 13) (s : State) : Res :=
  let u : Nat := unit
  if bitOf (s.getF R.CLK_GATE_STAT_PEND) u then
    let s := s.setF R.CLK_GATE_STAT_PEND (putBit (s.getF R.CLK_GATE_STAT_PEND) u false)
    .next ((s.setF R.CLK_GATE_STAT_GATED (putBit (s.getF R.CLK_GATE_STAT_GATED) u true)).raise R.CLK_EVENT_GATE_DONE)
  else .next s

end Sys2Proof.Machine
end

