-- ==== Sys2Proof/Machine/Ports.lean ====
section
/-!
DEFINITION. The upstream ports and the tie link (05_link_ports.md), and the quality level of a port (R130).
-/
namespace Sys2Proof.Machine

/-! ### ESMC (R55, R130) -/

/-- The SSM codes of QL-DNU (option I) and QL-DUS (option II; PRESUMED, ITU-T G.781, notes/assumptions/34.md). -/
def qlDnu : Nat := 15
def qlDus : Nat := 15

/-- The quality level blocks its port (R55, R130). -/
def State.qlBlocks (s : State) (ssm : Nat) : Bool := ssm = if s.isSet R.TIME_CFG_QL_OPT then qlDus else qlDnu

/-- A field of TIME_QL_UPL0 for port `p`. -/
def qlF (f : Field) (p : Nat) : Field := f.off (4 * (p % 2))

/-- ESMC_PDU_RX: an information PDU with its SSM code and, in an extended QL TLV, the enhanced one. -/
def execEsmcPduRx (port : Fin 2) (ssm : Fin 16) (essm : Option (Fin 256)) (t : Nat) (s : State) : Res :=
  let s := if s.rootRuns then s.advance t else s
  let p : Nat := port
  if !s.uplCarries p then .next s
  else
    let changed := s.isSet (qlF R.TIME_QL_UPL0_TIMEOUT p) || s.getF (qlF R.TIME_QL_UPL0_SSM p) ≠ ssm
    let s := ((s.setF (qlF R.TIME_QL_UPL0_TIMEOUT p) 0).setF (qlF R.TIME_QL_UPL0_SSM p) ssm)
    let s := s.setB (qlF R.TIME_QL_UPL0_EXT p) essm.isSome
    let s := match essm with | some e => s.setF (qlF R.TIME_QL_UPL0_ESSM p) e | none => s.setF (qlF R.TIME_QL_UPL0_ESSM p) 0
    let s := s.setUpl p { s.uplPort p with ql := some ssm, qlAt := s.mtb }
    .next ((s.raiseIf changed R.TIME_EVENT_QL_CHANGE).setBlocked p (s.qlBlocks ssm))

/-- ESMC_TIMEOUT: no PDU for 5 s; the port is QL-FAILED, which blocks it. A port whose TIMEOUT still has its reset value 1 is not
blocked before this: 5 s without a PDU have not passed (DEDUCED, notes/assumptions/34.md). -/
def execEsmcTimeout (port : Fin 2) (t : Nat) (s : State) : Res :=
  let s := if s.rootRuns then s.advance t else s
  let p : Nat := port
  if s.rootRuns && (s.uplPort p).qlAt + 5 * secCyc ≤ s.mtb then
    let changed := !s.isSet (qlF R.TIME_QL_UPL0_TIMEOUT p)
    let s := (s.setF (qlF R.TIME_QL_UPL0_TIMEOUT p) 1).setUpl p { s.uplPort p with ql := none }
    .next ((s.raiseIf changed R.TIME_EVENT_QL_CHANGE).setBlocked p true)
  else .next s

/-- ESMC_SEND: QL-DNU once per second on each trained upstream port. -/
def execEsmcSend (s : State) : Res :=
  .next (s.each ([0, 1].filter s.uplCarries)
    (fun s p => s.emit (.esmc p)))

/-! ### Training of an upstream port (R98 to R104, Table 05.1) -/

/-- The port's training phase. -/
def State.uplPhase (s : State) (p : Nat) : Nat := s.getF (R.UPL_STAT_PHASE p)

/-- UPL_SIGNAL_DETECT: a listening port detects DME pages (`dme`) or block lock without them; the first decides (R99). With
ADMIN 2 it detects as well: R105 stops the transmitter alone (DEDUCED, notes/assumptions/34.md). -/
def execUplSignalDetect (port : Fin 2) (dme : Bool) (s : State) : Res :=
  let p : Nat := port
  if s.dev = devUnpowered || s.uplPhase p ≠ 0 || s.gatedOrPending (gateUpl p) ||
      !bitOf (s.getF (R.UPL_CFG_ALLOW p)) (if dme then 0 else 1) then .next s
  else .next ((s.setB (R.UPL_STAT_MODE p) (!dme)).setF (R.UPL_STAT_PHASE p) 1)

/-- Auto-negotiation starts: the port sends its base page, with the 10GBASE-KR ability alone, C0 = C1 = 1 where UPLn_FC.MODE is
1, and the FEC bits of UPLn_CFG.FEC_ADV (R102). -/
def State.anStart (s : State) (p : Nat) : State :=
  let s := s.setF (R.UPL_STAT_PHASE p) 2
  if s.uplTx p = .idle then s
  else s.emit (.basePage p (if s.getF (R.UPL_FC_MODE p) = 1 then 3 else 0) (s.getF (R.UPL_CFG_FEC_ADV p)))

/-- UPL_ACQUISITION_DONE: the CDR has acquired frequency; the transmitter leaves electrical idle (R100, R101), in KR mode with
auto-negotiation. -/
def execUplAcquisitionDone (port : Fin 2) (s : State) : Res :=
  let p : Nat := port
  if s.uplPhase p = 1 then
    let s := s.setF (R.UPL_STAT_CDR_LOCK p) 1
    .next (if s.isSet (R.UPL_STAT_MODE p) then s.setF (R.UPL_STAT_PHASE p) 4 else s.anStart p)
  else .next s

/-- UPL_NEXT_PAGE_RX: a null message page answers it (R102). -/
def execUplNextPageRx (port : Fin 2) (s : State) : Res :=
  if s.uplPhase port = 2 && s.uplTx port ≠ .idle then .next (s.emit (.nullPage port)) else .next s

/-- UPL_AN_COMPLETE: the partner's base page bits D47:D32. FEC resolves as Clause 73 says: both able, one requests it. A port in
electrical idle completes none (R105). -/
def execUplAnComplete (port : Fin 2) (base : Fin 65536) (s : State) : Res :=
  let p : Nat := port
  if s.uplPhase p ≠ 2 || s.uplTx p = .idle then .next s
  else
    let adv := s.getF (R.UPL_CFG_FEC_ADV p)
    let fec := bitOf adv 1 && bitOf base 14 && (bitOf adv 0 || bitOf base 15)
    let s := (s.setF (R.UPL_LP_ABILITY_BASE p) base).setB (R.UPL_STAT_FEC_ON p) fec
    .next (s.setF (R.UPL_STAT_PHASE p) 3)

/-- UPL_TRAINING_DONE: Clause 72 training is complete (R103). -/
def execUplTrainingDone (port : Fin 2) (s : State) : Res :=
  if s.uplPhase port = 3 && s.uplTx port ≠ .idle then .next (s.setF (R.UPL_STAT_PHASE port) 4) else .next s

/-- UPL_BLOCK_LOCK: block lock; the link is up, the flow-control mode in force from here, and the source locked (R50). -/
def execUplBlockLock (port : Fin 2) (t : Nat) (s : State) : Res :=
  let s := if s.rootRuns then s.advance t else s
  let p : Nat := port
  if s.uplPhase p ≠ 4 then .next s
  else
    let s := ((s.setF (R.UPL_STAT_BLOCK_LOCK p) 1).setF (R.UPL_STAT_LINK_UP p) 1).setF (R.UPL_STAT_PHASE p) 5
    let s := s.setUpl p { s.uplPort p with mode := s.getF (R.UPL_FC_MODE p), paused := [], sent := [] }
    .next (((s.raise (R.UPL_EVENT_LINK_UP p)).ryPortBack p).sourceLocked p)

/-- UPL_TRAIN_TIMEOUT: max_wait_timer expires; auto-negotiation starts again (R103). -/
def execUplTrainTimeout (port : Fin 2) (s : State) : Res :=
  let p : Nat := port
  if s.uplPhase p ≠ 3 then .next s
  else
    let s := (s.bump (R.UPL_STAT_TRAIN_FAILS p)).setF (R.UPL_CMD_ERR_STATUS p) (ST.UPL_TRAIN_FAIL p)
    .next ((s.raise (R.UPL_EVENT_TRAIN_FAIL p)).anStart p)

/-- UPL_LINK_LOST: a trained port loses its link and listens again (R104). -/
def execUplLinkLost (port : Fin 2) (t : Nat) (s : State) : Res :=
  let s := if s.rootRuns then s.advance t else s
  if s.uplPhase port = 5 then .next (s.sourceLost port) else .next s

/-- A write of UPLn_CTRL.ADMIN (R105); in a gated MAC it is refused (R73). -/
def State.adminWrite (s : State) (p v : Nat) : State :=
  if s.getF (R.UPL_CTRL_ADMIN p) = v then s.answer ST.OK
  else if s.gatedOrPending (gateUpl p) then s.gatedRefuse (gateUpl p) (R.UPL_CMD_ERR_STATUS p)
  else if 3 ≤ v then s.refuse (R.UPL_CMD_ERR_STATUS p) (ST.UPL_RANGE p)
  else
    let root := s.getF R.CLK_STATE_ROOT_SRC = p && s.srcLocked p
    let other := (s.srcOrder ++ [0, 1, 2]).find? (fun n => n != p && s.srcQual n)
    let set (s : State) : State := (s.setF (R.UPL_CTRL_ADMIN p) v).leasePathCheck.answer ST.OK
    if v = 2 && root then
      match other with
      | none => s.refuse (R.UPL_CMD_ERR_STATUS p) (ST.UPL_ADMIN_ROOT p)
      | some n => set ((s.switchTo n).raise R.CLK_EVENT_SRC_SWITCH)
    else set s

/-- UPL_ADMIN_WRITE. -/
def execUplAdminWrite (port : Fin 2) (v : Fin 4) (s : State) : Res := .next (s.adminWrite port v)

/-- UPL_RETRAIN: a write of 1 to UPLn_CTRL.RETRAIN: training starts again by R99 (R98); in a gated MAC it is refused (R73). -/
def State.uplRetrain (s : State) (p : Nat) : State :=
  if s.gatedOrPending (gateUpl p) then s.gatedRefuse (gateUpl p) (R.UPL_CMD_ERR_STATUS p)
  else (s.sourceLost p).answer ST.OK
def execUplRetrain (port : Fin 2) (s : State) : Res := .next (s.uplRetrain port)

/-! ### Pause and priority flow control (R106 to R108) -/

/-- A received pause or PFC frame, or an entry of one, has no effect: counted, with its event bit (R106, R108). -/
def State.fcDiscard (s : State) (p : Nat) : State :=
  (s.setUpl p { s.uplPort p with discards := (s.uplPort p).discards + 1 }).raise (R.UPL_EVENT_FC_DISCARD p)

/-- A pause of `quanta` starts for a priority, 8 the 802.3x pause, at the next lcyc; 0 ends it. 51.2 ns are 66 cyc. -/
def State.pauseFor (s : State) (p prio quanta : Nat) : State :=
  let u := s.uplPort p
  s.setUpl p { u with paused := if quanta = 0 then Store.del prio u.paused else Store.put prio (linkEdge (s.mtb + 1) + 66 * quanta) u.paused }

/-- PAUSE_FRAME_RX: an 802.3x pause frame. -/
def execPauseFrameRx (port : Fin 2) (quanta : Fin 65536) (t : Nat) (s : State) : Res :=
  let s := if s.rootRuns then s.advance t else s
  let p : Nat := port
  if !s.uplHears p then .next s
  else if (s.uplPort p).mode = 1 then .next (s.pauseFor p 8 quanta)
  else .next (s.fcDiscard p)

/-- PFC_FRAME_RX: a PFC frame as its enabled entries, priority and quanta. -/
def execPfcFrameRx (port : Fin 2) (entries : List (Fin 8 × Fin 65536)) (t : Nat) (s : State) : Res :=
  let s := if s.rootRuns then s.advance t else s
  let p : Nat := port
  if !s.uplHears p then .next s
  else if (s.uplPort p).mode = 2 then
    .next (s.each entries (fun s e =>
      if (List.range 8).any (fun k => s.uplPrio p k = e.1.val) then s.pauseFor p e.1 e.2 else s.fcDiscard p))
  else .next (s.fcDiscard p)

/-- PAUSE_QUANTA_END: a count has run out (R108). -/
def execPauseQuantaEnd (port : Fin 2) (prio : Fin 9) (t : Nat) (s : State) : Res :=
  let s := if s.rootRuns then s.advance t else s
  let u := s.uplPort port
  match Store.find? prio.val u.paused with
  | none => .next s
  | some e => if e ≤ s.mtb then .next (s.setUpl port { u with paused := Store.del prio.val u.paused }) else .next s

/-- The conditions that hold on a port, as priorities; 8 in pause mode (R107, R304). -/
def State.fcNow (s : State) (p : Nat) : List Nat :=
  let ps := (List.range 8).filter (s.pfcCond p)
  match (s.uplPort p).mode with
  | 0 => []
  | 1 => if ps.isEmpty then [] else [8]
  | _ => ps

/-- FC_FRAME_SEND: one frame with every priority whose state has changed: QUANTA where the condition holds, else 0
(R107). -/
def execFcFrameSend (port : Fin 2) (t : Nat) (s : State) : Res :=
  let s := if s.rootRuns then s.advance t else s
  let p : Nat := port
  let u := s.uplPort p
  let now := s.fcNow p
  let changed := (List.range 9).filter (fun k => now.contains k != u.sent.contains k)
  if changed.isEmpty || !s.uplCarries p then .next s
  else
    let q := changed.map (fun k => (k, if now.contains k then s.getF (R.UPL_FC_QUANTA p) else 0))
    let at_ : Store Nat := (changed.filter now.contains).foldl (fun m k => Store.put k s.mtb m) u.sentAt
    .next ((s.setUpl p { u with sent := now, sentAt := at_ }).emit (.flow p q))

/-- FC_FRAME_REPEAT: the priorities whose condition holds and whose last frame is half the quanta old (R107). -/
def execFcFrameRepeat (port : Fin 2) (t : Nat) (s : State) : Res :=
  let s := if s.rootRuns then s.advance t else s
  let p : Nat := port
  let u := s.uplPort p
  let half := s.getF (R.UPL_FC_QUANTA p) * 66 / 2
  let due := u.sent.filter (fun k => (s.fcNow p).contains k && decide (Store.get (fun _ => 0) u.sentAt k + half ≤ s.mtb))
  if due.isEmpty || !s.uplCarries p then .next s
  else
    let at_ : Store Nat := due.foldl (fun m k => Store.put k s.mtb m) u.sentAt
    .next ((s.setUpl p { u with sentAt := at_ }).emit (.flow p (due.map (fun k => (k, s.getF (R.UPL_FC_QUANTA p))))))

/-- UPL_FRAME_RX: a frame takes a packet buffer and goes into a queue of the port's receive endpoint, with ERR when its
FCS is bad; without a buffer or a credit it is discarded (R297, R300, R327). Ryurix, whose frame it is, discards IPv4
(type 0x0800) and counts it (R363). -/
def execUplFrameRx (port : Fin 2) (queue : Fin 256) (octets : List Byte) (fcsOk : Bool) (s : State) : Res :=
  let p : Nat := port
  let ep := 0x48 + 0x10 * p
  let v4 := s.running && fcsOk && beNat ((octets.drop 12).take 2) = 0x0800
  let s := if s.uplCarries p && v4 then { s with ry := { s.ry with ipv4 := s.ry.ipv4 + 1 } } else s
  if !s.uplCarries p || !(s.producedBy ep).contains queue.val then .next s
  else match s.frameIn octets.length with
    | none => .next (s.frameDrop octets.length)
    | some (a, u) =>
      let u := (u.writeBytes a octets).enqueue queue ⟨a, octets.length, if fcsOk then 3 else 7, ep, 0, 0, [], 0⟩
      .next (if u.resp = ST.QUEUE_DISCARDED then u.pktFree a else u)

/-! ### The tie link (R109 to R113) -/

/-- The unit's root status (Table 05.2). -/
def State.rootStatus (s : State) : Nat := if s.rootRuns then s.getF R.CLK_STATE_ROOT_SRC + 1 else 0

/-- The unit's ROLE block with its present values. -/
def State.ownRole (s : State) : RoleBlk :=
  ⟨s.tie.ack, s.pairOn, s.isSet R.PAIR_STATE_PREF, s.rootStatus, s.pairRole, lead4 s.pr.header.structDigest⟩

/-- A training phase starts. -/
def State.tiePhase (s : State) (k : Nat) : State := { s.setF R.TIE_STAT_PHASE k with tie := { s.tie with since := s.mtb } }

/-- TIE_ACQUISITION_DONE: a unit with block lock has received the 64th consecutive ACQ block; phase 1 ends (R111). -/
def execTieAcquisitionDone (t : Nat) (s : State) : Res :=
  let s := if s.rootRuns then s.advance t else s
  if s.dev = devUnpowered || 1 < s.getF R.TIE_STAT_PHASE || !s.isSet R.TIE_CFG_ENABLE then .next s
  else .next ((s.tieLocked.tiePhase 2).sourceLocked 2)

/-- One coefficient answers its request: 0 hold, 1 increment, 2 decrement; `edge`: it stands at its limit. -/
def coefStep (req : Nat) (edge : Bool) (c : Int) : Int × Nat :=
  if req = 0 then (c, 0) else if edge then (c, if req = 1 then 3 else 2) else (if req = 1 then c + 1 else c - 1, 1)

/-- Consecutive blocks with RX_READY, counted up to the 16 that end phase 2 (R111). -/
def readyCount (n : Nat) (ready : Bool) : Nat := if 16 ≤ n then n else if ready then n + 1 else 0

/-- TIE_TRAIN_BLOCK_RX: the peer's requests for pre, main and post are applied and reported (R111, Table 05.2); the block that
answers carries the unit's own requests `ask` and whether its receiver is ready, which its equaliser decides. -/
def execTieTrainBlockRx (pre main post : Fin 3) (preEdge mainEdge postEdge : Bool) (ready : Bool) (askPre askMain askPost : Fin 3)
    (askReady : Bool) (s : State) : Res :=
  if s.getF R.TIE_STAT_PHASE ≠ 2 then .next s
  else
    let r : List (Int × Nat) := (List.zip [(pre.val, preEdge), (main.val, mainEdge), (post.val, postEdge)] s.tie.coef).map
      (fun x => coefStep x.1.1 x.1.2 x.2)
    let l : TieLink := { s.tie with
      coef := r.map (fun (x : Int × Nat) => x.1), report := r.map (fun (x : Int × Nat) => x.2),
      ready := if s.tieSends then readyCount s.tie.ready askReady else s.tie.ready,
      peerReady := readyCount s.tie.peerReady ready }
    .next (({ s with tie := l }).tieSend (tieTrain [askPre, askMain, askPost] askReady l.report))

/-- TIE_EQUALISER_DONE: both units have sent RX_READY in 16 consecutive blocks; phase 2 ends (R111). -/
def execTieEqualiserDone (t : Nat) (s : State) : Res :=
  let s := if s.rootRuns then s.advance t else s
  if s.getF R.TIE_STAT_PHASE = 2 && 16 ≤ s.tie.ready && 16 ≤ s.tie.peerReady then
    let s := s.tiePhase 3
    .next (s.tieSend (tieRole s.ownRole))
  else .next s

/-- TIE_ROLE_BLOCK_RX: ACK is set after three identical blocks (R111). -/
def execTieRoleBlockRx (b : RoleBlk) (s : State) : Res :=
  if s.getF R.TIE_STAT_PHASE ≠ 3 then .next s
  else
    let same := if s.tie.blk = some b then s.tie.same + 1 else 1
    let s := { s with tie := { s.tie with blk := some b, same := same, ack := s.tie.ack || 3 ≤ same } }
    .next (s.tieSend (tieRole s.ownRole))

/-- TIE_ROLE_EXCHANGE_DONE: ACK sent and received; TIE_PEER takes the last block's values (R111, R113). -/
def execTieRoleExchangeDone (t : Nat) (s : State) : Res :=
  let s := if s.rootRuns then s.advance t else s
  match s.tie.blk with
  | none => .next s
  | some b =>
    if s.getF R.TIE_STAT_PHASE ≠ 3 || !s.tie.ack || !b.ack then .next s
    else
      let s := ((s.tiePhase 4).setF R.TIE_PEER_DIGEST b.digest).setF R.TIE_PEER_STATE_ROLE b.role
      let s := ((s.setB R.TIE_PEER_STATE_PAIR_ON b.pairOn).setB R.TIE_PEER_STATE_PREF b.pref).setF R.TIE_PEER_STATE_ROOT b.root
      let s := (s.raise R.TIE_EVENT_UP).tieUp
      .next (s.setBlocked 2 s.tieBlocked)

/-- The limit of a phase (Table 05.3). -/
def tieLimit (phase : Nat) : Nat :=
  if phase = 1 then 12890625 else if phase = 2 then 644531250 else 1289063

/-- TIE_PHASE_TIMEOUT: a phase limit expires (R112). With a root it is counted from the start of the phase, for phase 1 from
block lock; without one no MAC time base runs, and the limit of frequency acquisition expires when the command says so. -/
def execTiePhaseTimeout (t : Nat) (s : State) : Res :=
  let s := if s.rootRuns then s.advance t else s
  let ph := s.getF R.TIE_STAT_PHASE
  let runs := if s.rootRuns then ph ≠ 0 && (ph ≠ 1 || s.isSet R.TIE_STAT_BLOCK_LOCK) && s.tie.since + tieLimit ph ≤ s.mtb
    else s.dev ≠ devUnpowered && s.isSet R.TIE_CFG_ENABLE
  if 3 < ph || !runs then .next s
  else .next (((s.bump R.TIE_STAT_TRAIN_FAILS).raise R.TIE_EVENT_TRAIN_FAIL).tieAgain.answer ST.TIE_TRAIN_TIMEOUT)

/-- A write of 1 to TIE_CFG.RETRAIN: the link returns to phase 1, without a root to listening (R109, R111). -/
def State.tieRetrain (s : State) : State :=
  s.tieAgain.answer ST.OK
def execTieRetrain (s : State) : Res := .next s.tieRetrain

/-- A write of TIE_CFG.ENABLE (R109): 0 is refused while the tie link is the only qualified root. -/
def State.tieEnable (s : State) (on : Bool) : State :=
  if s.isSet R.TIE_CFG_ENABLE = on then s.answer ST.OK
  else if on then (s.setF R.TIE_CFG_ENABLE 1).tieAgain.answer ST.OK
  else if s.getF R.CLK_STATE_ROOT_SRC = 2 && s.srcLocked 2 && !(s.srcQual 0 || s.srcQual 1) then s.answer ST.TIE_STATE
  else ((s.setF R.TIE_CFG_ENABLE 0).sourceLost 2).answer ST.OK
def execTieEnableWrite (on : Bool) (s : State) : Res := .next (s.tieEnable on)

end Sys2Proof.Machine
end

