-- ==== Sys2Proof/Machine/Router.lean ====
section
/-!
DEFINITION. Ryurix as border router (16_border_router.md): the upstream network, packets, address registration, the RPL root
and source routes.
-/
namespace Sys2Proof.Machine

/-! ### What every service uses -/

/-- Ryurix runs from RUNNING on. -/
def State.ryRuns (s : State) : Bool := s.running

/-- It serves the mesh on an ALONE or ACTIVE unit (R362). -/
def State.rySends (s : State) : Bool := s.running && s.pairRole < 2

/-- An event of the services, bit `b` of block 26 at register offset 0 (R389, R399). -/
def State.ryEvent (s : State) (b : Nat) : State := { s with notes := s.notes ++ [(0x201C0000, b, s.mtb)] }

/-- Something leaves for a node or the upstream network. -/
def State.say (s : State) (c : Ctl) : State := s.emit (.ryurix c)

/-- A node index that names a valid record (R388). -/
def State.known (s : State) (n : Nat) : Bool := n < s.pr.table.nodeLimit && s.recValid n

/-- The node indices of PAN record `p` (R338). -/
def State.panNodes (s : State) (p : Nat) : List Nat :=
  match s.panRec p with
  | some r => (List.range r.maxNodes).map (· + s.panBase p)
  | none => []

/-- The members of a PAN. -/
def State.members (s : State) (p : Nat) : List Nat := (s.panNodes p).filter s.known

/-- A node's short address in its PAN (R338), 0xFFFF for the device (Table 16.5). -/
def State.shortOf (s : State) (n : Nat) : Nat := if n = nodeNone then 0xFFFF else n - s.panBase (s.nodePan n)

/-- An ICMPv6 error leaves, at most 100 per second in all (R367). -/
def State.icmpError (s : State) (c : Ctl) : State :=
  let sec := s.mtb / secCyc
  let n := if s.ry.icmp.1 = sec then s.ry.icmp.2 else 0
  if n < 100 then ({ s with ry := { s.ry with icmp := (sec, n + 1) } }).say c else s

/-- A read operation, executed in every pair role (R362). -/
def State.svcRead (s : State) (ticket svc op : Nat) (f : State → State) : State :=
  match s.openCall ticket svc op with
  | none => s
  | some _ => f s

/-- Any other operation: recorded, and refused in a role that is not active (R362, R433). -/
def State.svcChange (s : State) (ticket svc op arg1 arg2 : Nat) (f : State → State) : State :=
  match s.openCall ticket svc op with
  | none => s
  | some tk => s.recordedCall 2 ticket tk.role op arg1 arg2 (fun s =>
      if 2 ≤ s.pairRole then s.finishCall ticket ST.RYURIX_NOT_ACTIVE [] else f s)

/-- A call ends with a status and no result, or well with one. -/
def State.callEnd (s : State) (ticket st : Nat) : State := s.finishCall ticket st []
def State.callDone (s : State) (ticket : Nat) (r : List (Nat × List Nat)) : State := s.finishCall ticket ST.OK r

/-- A value under an optional key. -/
def State.maybeSet (s : State) (k : Nat) (v : Option (List Nat)) : State :=
  match v with | some x => s.setSetting k x | none => s

/-! ### Prefixes (R364) -/

/-- The setting of a PAN under a key. -/
def State.panSet (s : State) (p key : Nat) : List Nat := s.setting (settingNo svcPan p key 0)

/-- The prefix that a delegation gives PAN record `p`: `p` in the subnet field behind the delegated bits. -/
def delegated (d : Option (Nat × Nat × Nat)) (p : Nat) : Option Nat :=
  match d with
  | some (bits, len, _) => if p < 2 ^ (64 - len) ∧ len ≤ 64 then some (bits / 2 ^ (64 - len) * 2 ^ (64 - len) + p) else none
  | none => none

/-- A PAN's /64 as its upper 64 bits, and its source: 1 static, 2 delegated. -/
def State.panPrefix (s : State) (p : Nat) : Option (Nat × Nat) :=
  match s.panSet p 12 with
  | x :: _ => some (x, 1)
  | [] => if s.settingD (settingNo svcNet 0 13 0) 0 = 1 then (delegated s.ry.deleg p).map (fun x => (x, 2)) else none

/-! ### RPL parameters and trickle (R370, R374) -/

/-- RPLInstanceID, MinHopRankIncrease, OCP, and DIOIntervalMin, doublings, redundancy constant. -/
def State.rplInstance (s : State) (p : Nat) : Nat := (s.panSet p 13).headD 0
def State.minHop (s : State) (p : Nat) : Nat := (s.panSet p 14).headD 256
def State.ocp (s : State) (p : Nat) : Nat := (s.panSet p 16).headD 0
def State.trickle (s : State) (p : Nat) : Nat × Nat × Nat :=
  match s.panSet p 15 with | [a, b, c] => (a, b, c) | _ => (12, 8, 10)

def State.root (s : State) (p : Nat) : PanRoot := Store.get (fun _ => {}) s.ry.roots p
def State.setRoot (s : State) (p : Nat) (r : PanRoot) : State :=
  { s with ry := { s.ry with roots := Store.set (fun _ => {}) s.ry.roots p r } }

/-- A trickle interval starts: the DIO falls into its second half (RFC 6550); where, the spec leaves open. -/
def State.trickleFrom (s : State) (p start doubled : Nat) : State :=
  let i := msToCyc (2 ^ ((s.trickle p).1 + doubled))
  let r := s.root p
  s.useFree.setRoot p { r with doubled := doubled, ends := start + i, dioAt := some (start + i / 2 + s.freeVal % max 1 (i / 2)) }

/-- Trickle is reset (RFC 6550): the smallest interval starts now, where the PAN has a prefix. -/
def State.trickleReset (s : State) (p : Nat) : State :=
  if (s.panPrefix p).isSome then s.trickleFrom p s.mtb 0 else s.setRoot p { s.root p with dioAt := none }

/-- The next DODAG version (RFC 6550, lollipop counter). -/
def nextVersion (v : Nat) : Nat := if v = 255 || v = 127 then 0 else v + 1

/-- The DODAG version of a PAN is increased and trickle reset (R374). -/
def State.newVersion (s : State) (p : Nat) : State :=
  (s.setRoot p { s.root p with version := nextVersion (s.root p).version }).trickleReset p

/-- What a change of a PAN's prefix from `old` brings (R364): a new DODAG version, or no more DIOs and PREFIX_LOST. -/
def State.prefixMoved (s : State) (p : Nat) (old : Option (Nat × Nat)) : State :=
  let new := s.panPrefix p
  if new = old then s
  else match new with
    | some _ => s.newVersion p
    | none => (s.setRoot p { s.root p with dioAt := none }).ryEvent 1

/-- PREFIX_DELEGATION_CHANGE: the delegation as its 64 upper bits, its length and its lifetime in seconds; none once it has
expired (R364). -/
def execPrefixDelegationChange (deleg : Option (BitVec 64 × Fin 65 × Nat)) (t : Nat) (s : State) : Res :=
  let s := s.advance t
  if !s.ryRuns || s.settingD (settingNo svcNet 0 13 0) 0 ≠ 1 then .next s
  else
    let new := deleg.map (fun d => (d.1.toNat, d.2.1.val, s.mtb + d.2.2 * secCyc))
    let same := s.ry.deleg.map (fun d => (d.1, d.2.1)) = new.map (fun d => (d.1, d.2.1))
    let pans := (List.range s.pr.pans.length).map (fun p => (p, s.panPrefix p))
    let s := { s with ry := { s.ry with deleg := new } }
    if same then .next s
    else .next ((s.each pans (fun s x => s.prefixMoved x.1 x.2)).ryEvent 0)

/-! ### Upstream hosts and routers (R363, R365) -/

def State.setNetPort (s : State) (p : Nat) (v : NetPort) : State :=
  if p = 0 then { s with ry := { s.ry with port0 := v } } else { s with ry := { s.ry with port1 := v } }

/-- The neighbour cache of 1,024 entries takes an address; the least recently used one makes room. -/
def neighbour (l : List Nat) (a : Nat) : List Nat :=
  let l := without a l ++ [a]
  if 1024 < l.length then l.tail else l

/-- Replace or remove an entry with a lifetime. -/
def withLife (l : List (Nat × Nat)) (k life now : Nat) : List (Nat × Nat) :=
  let rest := l.filter (fun x => x.1 != k)
  if life = 0 then rest else rest ++ [(k, now + life * secCyc)]

/-- ROUTER_ADVERTISEMENT_RX: router address, its lifetime, and the prefixes as upper 64 bits, A flag, lifetime, in seconds
(R363). -/
def execRouterAdvertisementRx (port : Fin 2) (router : BitVec 128) (life : Nat) (prefixes : List (BitVec 64 × Bool × Nat))
    (t : Nat) (s : State) : Res :=
  let s := s.advance t
  let p : Nat := port
  if !s.ryRuns || !s.isSet (R.UPL_STAT_LINK_UP p) || s.getF (R.UPL_CTRL_ADMIN p) ≠ 0 then .next s
  else
    let v := s.netPort p
    let pre := (prefixes.filter (fun x => x.2.1)).foldl (fun l x => withLife l x.1.toNat x.2.2 s.mtb) v.prefixes
    let v := { v with prefixes := pre, routers := withLife v.routers router.toNat life s.mtb,
                      neigh := neighbour v.neigh router.toNat }
    .next ((s.setNetPort p v).ryPortBack p)

/-- DEFAULT_ROUTER_EXPIRY: every default router of a port has expired; the preferred port gives way (R365). -/
def execDefaultRouterExpiry (port : Fin 2) (t : Nat) (s : State) : Res :=
  let s := s.advance t
  let p : Nat := port
  let v := s.netPort p
  let s := s.setNetPort p { v with routers := v.routers.filter (fun r => s.mtb < r.2) }
  if !s.ryRuns || s.liveRouter p || p ≠ s.preferred then .next s
  else
    let s := { s with ry := { s.ry with backAt := none } }
    if s.ry.inUse = p && s.isSet (R.UPL_STAT_LINK_UP (1 - p)) then .next { s with ry := { s.ry with inUse := 1 - p } }
    else .next s

/-- PREFERRED_PORT_RETURN: 10 s after the preferred port has a live default router again (R365). -/
def execPreferredPortReturn (t : Nat) (s : State) : Res :=
  let s := s.advance t
  match s.ry.backAt with
  | none => .next s
  | some a =>
    if s.mtb < a || !s.liveRouter s.preferred then .next s
    else .next { s with ry := { s.ry with inUse := s.preferred, backAt := none } }

/-! ### Source routes (R371 to R373) -/

def State.parent (s : State) (n : Nat) : Nat := s.recGet n 80 4 % 2 ^ 18
def State.rank (s : State) (n : Nat) : Nat := s.recGet n 84 2

/-- The hops from the device to a node, the first a direct neighbour, by walking PARENT (R373). -/
def State.hopsTo (s : State) : Nat → Nat → List Nat → Option (List Nat)
  | 0, _, _ => none
  | fuel + 1, v, hops =>
    if s.rank v = 0xFFFF then none
    else if s.parent v = nodeNone then some (v :: hops)
    else if hops.contains v || hops.length = 32 then none
    else s.hopsTo fuel (s.parent v) (v :: hops)

def State.hops (s : State) (n : Nat) : Option (List Nat) :=
  match s.hopsTo 34 n [] with
  | some l => if l.length ≤ 32 then some l else none
  | none => none

/-- Whether `a` stands on the PARENT chain above `n`, or is `n`. -/
def State.under (s : State) (a : Nat) : Nat → Nat → Bool
  | 0, n => n = a
  | fuel + 1, n => n = a || (s.rank n ≠ 0xFFFF && s.parent n ≠ nodeNone && s.under a fuel (s.parent n))

/-- The routes of a node and of every node below it are no longer valid: SR_LEN 0 (R371 to R373). -/
def State.dropRoutes (s : State) (n : Nat) : State :=
  let below := (s.panNodes (s.nodePan n)).filter (fun v => s.recGet v 92 2 ≠ 0 && s.under n 33 v)
  s.each below (fun s v => s.recPut v 92 2 0)

/-- The interface identifier a node is reached by: a registered one, else that of its EUI-64. -/
def State.nodeIid (s : State) (n : Nat) : Nat :=
  if bitOf (s.recGet n 13 1) 2 then beNat (s.readBytes (s.recAddr n 64) 8) else s.recEui n ^^^ 0x0200000000000000

/-- The SRH-6LoRH of hops (RFC 8138): Size counts one less than the hops, Type 3 carries 8 octets of each address. -/
def State.srh (s : State) (hops : List Nat) : List Byte :=
  if hops.isEmpty then [] else leBytes 1 (0x80 + (hops.length - 1)) ++ leBytes 1 3 ++ hops.flatMap (fun v => beBytes 8 (s.nodeIid v))

/-- A source-route slot for a node: an unused one, else the least recently used, whose owner loses its route. -/
def State.takeSlot (s : State) (n : Nat) : Nat × State :=
  let total := (s.region 6).2 / 512
  let put (s : State) (k : Nat) : State :=
    { s with ry := { s.ry with slots := s.ry.slots.filter (fun x => x.1 != k) ++ [(k, n)] } }
  if s.ry.slots.length < total then (s.ry.slots.length, put s s.ry.slots.length)
  else match s.ry.slots with
    | [] => (0, put s 0)
    | (k, m) :: _ => (k, put (if s.recGet m 88 4 = 512 * k then s.recPut m 92 2 0 else s) k)

/-- A node's route as its first hop and its source routing header: the cached one, or built and cached (R373, R374). -/
def State.route (s : State) (n : Nat) : Option ((Nat × List Byte) × State) :=
  match s.hops n with
  | none => none
  | some [] => none
  | some (h :: rest) =>
    let len := s.recGet n 92 2
    if len ≠ 0 && s.recGet n 86 1 = (s.root (s.nodePan n)).version then
      let off := s.recGet n 88 4
      let s := { s with ry := { s.ry with
        slots := s.ry.slots.filter (fun x => x.1 != off / 512) ++ [(off / 512, n)] } }
      some ((h, s.readBytes ((s.region 6).1 + off) len), s)
    else if rest.isEmpty then some ((h, []), s)
    else
      let b := s.srh rest
      let r := s.takeSlot n
      let a := (s.region 6).1 + 512 * r.1
      let s := ((r.2.writeBytes a b).journalAt a b).recPut n 88 4 (512 * r.1)
      some ((h, b), s.recPut n 92 2 b.length)

/-! ### Packets (R366, R367) -/

/-- The interface identifier of the device's own addresses: its EUI-64 with the U/L bit inverted (R363). -/
def ownIid64 : Nat := Config.eui64 ^^^ 0x0200000000000000

/-- The device's address in a PAN's prefix: the DODAGID and the JRC address (R370, R379). -/
def State.panAddress (s : State) (p : Nat) : Nat := match s.panPrefix p with | some (x, _) => x * 2 ^ 64 + ownIid64 | none => 0

/-- A reassembled datagram leaves on the port in use, by the transmit queue of its Traffic Class, or stays on the device when
its destination lies in a PAN's prefix (R365). -/
def State.upstreamOut (s : State) (d : List Byte) : State :=
  let hi := beNat ((d.drop 24).take 8)
  if (List.range s.pr.pans.length).any (fun p => (s.panPrefix p).map (·.1) = some hi) then s.say (.between d)
  else s.say (.upstream s.ry.inUse (beNat (d.take 1) % 16 / 2) d)

/-- The fragments of a datagram: the first holds the compressed headers, each but the last ends at a multiple of 8 octets
of the datagram (RFC 4944). -/
def State.fragments (s : State) (n hop tag mtu total : Nat) : Nat → Nat → State
  | 0, _ => s
  | fuel + 1, off =>
    if total ≤ off then s
    else
      let room := mtu - 5
      let len := if total - off ≤ room then total - off else room / 8 * 8
      if len = 0 then s
      else (s.say (.fragment n hop tag off len)).fragments n hop tag mtu total fuel (off + len)

/-- DOWNSTREAM_PACKET: a packet for the mesh. `octets` it has, `hdrIn` of them in headers that compress to `hdrOut`; `phy` the
PHY mode it leaves in, `extra` the octets of the MAC header, the auxiliary security header, the MIC and the FCS. -/
def execDownstreamPacket (dest : BitVec 128) (octets hdrIn hdrOut : Nat) (phy : Fin 65536) (extra : Nat) (t : Nat) (s : State) :
    Res :=
  let s := s.advance t
  let hi := dest.toNat / 2 ^ 64
  let iid := dest.toNat % 2 ^ 64
  if !s.rySends then .next s
  else match (List.range s.pr.pans.length).find? (fun p => (s.panPrefix p).map (·.1) = some hi) with
    | none => .next s
    | some p =>
      let n := s.groundLookup 1 p iid
      if !s.known n || s.nodePan n ≠ p then .next (s.icmpError (.unreachable 0))
      else match s.route n with
        | none => .next (s.icmpError (.unreachable 0))
        | some ((hop, srh), s) =>
          if 1280 < octets + srh.length then .next (s.icmpError (.tooBig 1280))
          else
            let mtu := maxPsdu phy - extra
            let small := srh.length + hdrOut + (octets - hdrIn)
            if small ≤ mtu then .next (s.say (.packet n hop srh small))
            else
              let tag := s.recGet n 216 2
              let s := s.recPut n 216 2 ((tag + 1) % 65536)
              let first := (hdrIn + (mtu - 4 - srh.length - hdrOut)) / 8 * 8
              .next ((s.say (.fragment n hop tag 0 first)).fragments n hop tag mtu octets octets first)

/-- Whether two fragments overlap with different octets. -/
def clash (a b : Nat × List Byte) : Bool :=
  (List.range a.2.length).any (fun i =>
    decide (b.1 ≤ a.1 + i) && decide (a.1 + i < b.1 + b.2.length) && a.2[i]? != b.2[a.1 + i - b.1]?)

/-- The octets of a datagram once every one of them has come. -/
def assemble (size : Nat) (frags : List (Nat × List Byte)) : Option (List Byte) :=
  (List.range size).mapM (fun i => frags.findSome? (fun f => if f.1 ≤ i then f.2[i - f.1]? else none))

/-- UPSTREAM_FRAGMENT_RX: a fragment of a node's datagram, decompressed (R367); contexts live 60 s. -/
def execUpstreamFragmentRx (node tag size off : Nat) (data : List Byte) (t : Nat) (s : State) : Res :=
  let s := s.advance t
  if !s.rySends || !s.known node then .next s
  else
    let here (c : Reasm) : Bool := c.node = node && c.tag = tag
    let live := s.ry.reasm.filter (fun c => s.mtb < c.at_ + 60 * secCyc)
    match live.find? here with
    | some c =>
      if c.frags.any (fun f => clash f (off, data)) then .next { s with ry := { s.ry with reasm := live.filter (fun x => !here x) } }
      else
        let c := { c with frags := c.frags ++ [(off, data)] }
        match assemble c.size c.frags with
        | some d => .next (({ s with ry := { s.ry with reasm := live.filter (fun x => !here x) } }).upstreamOut d)
        | none => .next { s with ry := { s.ry with reasm := live.map (fun x => if here x then c else x) } }
    | none =>
      if off ≠ 0 then
        if live.length < 2048 then .next { s with ry := { s.ry with reasm := live ++ [⟨node, tag, size, s.mtb, [(off, data)]⟩] } }
        else .next s
      else if 2048 ≤ live.length then .next { s with ry := { s.ry with noContext := s.ry.noContext + 1 } }
      else if size ≤ data.length then .next (s.upstreamOut (data.take size))
      else .next { s with ry := { s.ry with reasm := live ++ [⟨node, tag, size, s.mtb, [(0, data)]⟩] } }

/-- REASSEMBLY_EXPIRY: contexts 60 s old end (R367). -/
def execReassemblyExpiry (t : Nat) (s : State) : Res :=
  let s := s.advance t
  .next { s with ry := { s.ry with reasm := s.ry.reasm.filter (fun c => s.mtb < c.at_ + 60 * secCyc) } }

/-! ### Address registration (R368, R369) -/

/-- A node's registration ends: the IID key is deleted, IID_KEY cleared (R369). -/
def State.deregister (s : State) (n : Nat) : State :=
  let fl := s.recGet n 13 1
  if !bitOf fl 2 then s
  else (s.hashTake (beNat (s.readBytes (s.recAddr n 64) 8)) 1).recPut n 13 1 (putBit fl 2 false)

/-- The record takes a registration: identifier, IID_KEY, end of its lifetime, ROVR. -/
def State.registerWrite (s : State) (n iid rovr life : Nat) : State :=
  let a := s.recAddr n 64
  let s := (s.writeBytes a (beBytes 8 iid)).journalAt a (beBytes 8 iid)
  let s := s.recPut n 13 1 (putBit (s.recGet n 13 1) 2 true)
  (s.recPut n 200 8 (s.mtb + life * 60 * secCyc)).recPut n 208 8 rovr

/-- A registration of an identifier by a node, `life` in minutes: the status it gets (R368, R369). -/
def State.register (s : State) (n iid rovr life : Nat) : State × Nat :=
  let own := beNat (s.readBytes (s.recAddr n 64) 8)
  let keyed := bitOf (s.recGet n 13 1) 2
  let owner := s.hashLookup iid 1
  if !s.known n then (s, 1)
  else if shortIid iid || iid = s.recEui n ^^^ 0x0200000000000000 then (s, 0)
  else if life = 0 then (if keyed && own = iid then s.deregister n else s, 0)
  else if keyed && own ≠ iid then (s, 2)
  else if keyed then (s.registerWrite n iid rovr life, 0)
  else if owner ≠ nodeNone && owner ≠ n && s.recGet owner 208 8 ≠ rovr then (s, 1)
  else
    let s := if owner ≠ nodeNone && owner ≠ n then s.deregister owner else s
    let r := s.hashPut ⟨iid, 1, n⟩
    if r.2 = ST.GROUND_HASH_FULL then (r.1.ryEvent 3, 2) else (r.1.registerWrite n iid rovr life, 0)

/-- ADDRESS_REGISTRATION_RX: a neighbour's NS with EARO (R368). -/
def execAddressRegistrationRx (node : Nat) (iid rovr : BitVec 64) (life : Fin 65536) (t : Nat) (s : State) : Res :=
  let s := s.advance t
  if !s.rySends || !s.isSet R.GROUND_STATE_HASH_READY then .next s
  else
    let r := s.register node iid.toNat rovr.toNat life
    .next (r.1.say (.registered false node r.2))

/-- EDAR_RX: a 6LR registers a node's address; EDAC answers (R368). -/
def execEdarRx (node : Nat) (iid rovr : BitVec 64) (life : Fin 65536) (t : Nat) (s : State) : Res :=
  let s := s.advance t
  if !s.rySends || !s.isSet R.GROUND_STATE_HASH_READY then .next s
  else
    let r := s.register node iid.toNat rovr.toNat life
    .next (r.1.say (.registered true node r.2))

/-- REGISTRATION_EXPIRY: a registration's lifetime has ended (R369). -/
def execRegistrationExpiry (node : Nat) (t : Nat) (s : State) : Res :=
  let s := s.advance t
  if s.rySends && s.known node && s.recGet node 200 8 ≤ s.mtb then .next (s.deregister node) else .next s

/-! ### The RPL root (R370 to R372) -/

/-- A DIO of a PAN leaves (R370): grounded, MOP 1, hence 0x88. -/
def State.dioOut (s : State) (p : Nat) : State :=
  let t := s.trickle p
  s.say (.dio p (s.root p).version (s.minHop p) (s.rplInstance p) 0x88 (s.panAddress p) [t.1, t.2.1, t.2.2, s.ocp p])

/-- DIO_TRICKLE_EXPIRY: the DIO of a PAN is due; `heard` consistent ones have been heard in the interval. The interval after
it doubles (RFC 6550). No DIO leaves before the keys of the records are in the hash (R381). -/
def execDioTrickleExpiry (pan : Fin 16) (heard : Nat) (t : Nat) (s : State) : Res :=
  let s := s.advance t
  let p : Nat := pan
  let r := s.root p
  match r.dioAt with
  | none => .next s
  | some a =>
    if !s.rySends || s.mtb < a || (s.panPrefix p).isNone || !s.isSet R.GROUND_STATE_HASH_READY then .next s
    else
      let k := (s.trickle p).2.2
      let s := if k = 0 || heard < k then s.dioOut p else s
      .next (s.trickleFrom p r.ends (min (s.trickle p).2.1 (r.doubled + 1)))

/-- The option with the highest preference, the first of equals (R371). -/
def bestTransit (l : List Transit) : Option Transit :=
  l.foldl (fun b x => match b with | none => some x | some y => if y.pref < x.pref then some x else some y) none

/-- An address of the device in a PAN, by its interface identifier. -/
def State.ownIid (s : State) (p iid : Nat) : Bool :=
  iid = Config.eui64 ^^^ 0x0200000000000000 || iid = 0x000000FFFE000000 + s.ownShort p

/-- A node has no accepted DAO (R371): no parent, no rank, no route. -/
def State.clearPath (s : State) (n : Nat) : State :=
  let s := s.dropRoutes n
  ((s.recPut n 80 4 nodeNone).recPut n 84 2 0xFFFF).recPut n 92 2 0

/-- DAO_RX: a Target and its Transit options, from node `sender` of a PAN (R371). The rank the record takes is any but
0xFFFF: the spec gives none. -/
def execDaoRx (sender pan : Nat) (target : BitVec 64) (transits : List Transit) (version : Fin 256) (ack : Bool) (t : Nat)
    (s : State) : Res :=
  let s := s.advance t
  if !s.rySends || !s.known sender then .next s
  else
    let answer (s : State) (st : Nat) : State := if ack then s.say (.daoAck sender st) else s
    let n := s.groundLookup 1 pan target.toNat
    match bestTransit transits with
    | none => .next (answer s 129)
    | some x =>
      let self := s.ownIid pan x.parent
      let p := if self then nodeNone else s.groundLookup 1 pan x.parent
      if !s.known n || s.nodePan n ≠ pan || (!self && (!s.known p || s.nodePan p ≠ pan)) then .next (answer s 129)
      else if x.life = 0 then .next (answer (s.clearPath n) 0)
      else
        let s := if s.parent n ≠ p || s.rank n = 0xFFFF then s.dropRoutes n else s
        let rank := s.freeVal % 65535
        let s := ((s.useFree.recPut n 80 4 p).recPut n 84 2 rank).recPut n 86 1 version
        .next (answer (s.recPut n 192 8 (s.mtb + x.life * secCyc)) 0)

/-- PATH_LIFETIME_EXPIRY: a path lifetime has ended (R371, R372). -/
def execPathLifetimeExpiry (node : Nat) (t : Nat) (s : State) : Res :=
  let s := s.advance t
  if s.rySends && s.known node && s.rank node ≠ 0xFFFF && s.recGet node 192 8 ≤ s.mtb then .next (s.clearPath node)
  else .next s

end Sys2Proof.Machine
end

