-- ==== Sys2Proof/Machine/Sched.lean ====
section
/-!
DEFINITION. The schedule and the joins (16_border_router.md): central cell assignment, 6P, the join registrar, group rekeys.
-/
namespace Sys2Proof.Machine

/-! ### The schedule (R375 to R377) -/

/-- Length of slotframe 1 of a PAN (sched key 13), and of slotframe 0 (key 12). -/
def State.sf1 (s : State) (p : Nat) : Nat := s.settingD (settingNo svcSched p 13 0) 397
def State.sf0 (s : State) (p : Nat) : Nat := s.settingD (settingNo svcSched p 12 0) 101

/-- A node's parent, where it has a rank: none, a node, or the device as 262,143. -/
def State.parentOf (s : State) (n : Nat) : Option Nat :=
  if n = nodeNone || s.rank n = 0xFFFF then none else some (s.parent n)

/-- The transceiver of the device's end: the members of TRX_MASK in turn by node index (R377). -/
def State.endTrx (s : State) (p n : Nat) : Nat :=
  match s.panRec p with
  | some r =>
    let l := (List.range 4).filter (bitOf r.trxMask)
    l.getD (n % max 1 l.length) 0
  | none => 0

/-- Lanes that the plan gives the mode that assigned cells use, the first plan mode of the transceiver. -/
def State.modeLanes (s : State) (x : Nat) : Nat :=
  ((s.planLanes x).filter (fun l => some (s.lanePhy l) = (s.planModes x)[0]?)).length

/-- A node other than the device has a cell at a timeslot. -/
def State.uses (s : State) (n t : Nat) : Bool :=
  n ≠ nodeNone && s.ry.cells.any (fun c => c.slot = t && (c.src = n || c.dst = n))

/-- A node is an end of a link, or a parent or child of one. -/
def State.near (s : State) (a b v : Nat) : Bool :=
  v = a || v = b || s.parentOf a = some v || s.parentOf b = some v || s.parentOf v = some a || s.parentOf v = some b

/-- The lowest channel offset below HOP_LEN that is not used at a timeslot near a link. -/
def State.freeOffset (s : State) (p a b t : Nat) : Option Nat :=
  let used := (s.ry.cells.filter (fun c => c.slot = t && c.pan = p && (s.near a b c.src || s.near a b c.dst))).map (·.choff)
  (List.range (s.getF (R.MAC_PAN_CHAN_HOP_LEN.bank p))).find? (fun k => !used.contains k)

/-- Cells for the link from `a` to `b` (R377): from timeslot `i` of its sequence on, until `k` are found. -/
def State.assignFrom (s : State) (p a b l x : Nat) : Nat → Nat → Nat → State × Nat
  | 0, _, _ => (s, 0)
  | _ + 1, _, 0 => (s, 0)
  | fuel + 1, i, k + 1 =>
    let t := (a * 40503 + i) % l
    let at_ := s.ry.cells.filter (fun c => c.slot = t && c.trx = x)
    if s.uses a t || s.uses b t || 1048576 ≤ s.ry.cells.length ||
        (b = nodeNone && (at_.filter (fun c => c.dst = nodeNone)).length = s.modeLanes x) ||
        (a = nodeNone && at_.any (fun c => c.src = nodeNone)) then s.assignFrom p a b l x fuel (i + 1) (k + 1)
    else match s.freeOffset p a b t with
      | none => s.assignFrom p a b l x fuel (i + 1) (k + 1)
      | some c =>
        let s := { s with ry := { s.ry with cells := s.ry.cells ++ [SchedCell.mk a b p t c x] } }
        let r := s.assignFrom p a b l x fuel (i + 1) k
        (r.1, r.2 + 1)

/-- A row of the cell table: its header and up to 15 cells (Table 10.3). HANDLE is Ryurix's own, its value open. -/
def rowBytes (next : Nat) (cells : List SchedCell) (handle : Nat) : List Byte :=
  let body := cells.flatMap (fun c =>
    leBytes 2 c.choff ++ leBytes 1 (if c.dst = nodeNone then 2 else 1) ++ leBytes 1 c.trx ++
    leBytes 4 (if c.dst = nodeNone then c.src else c.dst) ++ leBytes 4 handle ++ leBytes 4 0)
  leBytes 4 next ++ leBytes 1 cells.length ++ leBytes 11 0 ++ body ++ List.replicate (240 - body.length) (0 : Byte)

/-- Bytes of the cell table, mirrored (R455). -/
def State.tableWrite (s : State) (off : Nat) (d : List Byte) : State :=
  let a := (s.region 2).1 + off
  (s.writeBytes a d).journalAt a d

/-- Write a chain of rows: the row at `off`, then its continuations. -/
def State.writeRows (s : State) : Nat → List Nat → List SchedCell → State
  | off, [], cells => s.useFree.tableWrite off (rowBytes 0 (cells.take 15) (s.freeVal % 2 ^ 32))
  | off, o :: os, cells =>
    if 15 < cells.length then
      (s.useFree.tableWrite off (rowBytes o (cells.take 15) (s.freeVal % 2 ^ 32))).writeRows o os (cells.drop 15)
    else s.useFree.tableWrite off (rowBytes 0 cells (s.freeVal % 2 ^ 32))

/-- The row of a timeslot in slotframe 1 is written anew from the device's cells in it; continuation rows are taken from
the top of the region. -/
def State.writeSlot (s : State) (p t : Nat) : State :=
  let row := s.getF (R.MAC_SF_BASE_ROW_BASE.bank (sfBank p 1)) + 256 * t
  let cells := (s.ry.cells.filter (fun c => c.pan = p && c.slot = t && (c.src = nodeNone || c.dst = nodeNone))).take 120
  let have_ := Store.get (fun _ => []) s.ry.rows row
  let used := s.ry.rows.foldl (fun n x => n + x.2.length) 0
  let want := divUp cells.length 15 - 1
  let more := (List.range (want - have_.length)).map (fun k => (s.region 2).2 - 256 * (used + k + 1))
  let rows := have_ ++ more
  ({ s with ry := { s.ry with rows := Store.set (fun _ => []) s.ry.rows row rows } }).writeRows row rows cells

/-- The rows of the slots in which two lists of cells differ. -/
def State.writeChanged (s : State) (p : Nat) (old : List SchedCell) : State :=
  let ch := ((old.filter (fun c => !s.ry.cells.contains c)) ++ (s.ry.cells.filter (fun c => !old.contains c))).filter
    (fun c => c.pan = p && (c.src = nodeNone || c.dst = nodeNone))
  s.each (ch.foldl (fun l c => withOne c.slot l) []) (fun s t => s.writeSlot p t)

/-- A node receives its complete slotframe-1 list (R376, Table 16.5). -/
def State.sendCells (s : State) (n : Nat) : State :=
  if n = nodeNone then s
  else
    let gen := Store.get (fun _ => 0) s.ry.gens n + 1
    let l := (s.ry.cells.filter (fun c => c.src = n || c.dst = n)).map (fun c =>
      (c.slot, c.choff, if c.src = n then 1 else 2, s.shortOf (if c.src = n then c.dst else c.src)))
    ({ s with ry := { s.ry with gens := Store.put n gen s.ry.gens, unacked := withOne n s.ry.unacked } }).say (.assign n gen l)

/-- A tracked TSCH leaf of the device gets its listen cell, which is the device's TX cell to it (R246, R377): the sleep state's
slotframe handle, timeslot, channel offset and WHERE take the cell's values. -/
def State.leafCell (s : State) (p n : Nat) : State :=
  if s.slMode n ≠ 2 || s.parentOf n ≠ some nodeNone || s.ry.cells.any (fun c => c.src = nodeNone && c.dst = n) then s
  else
    let x := s.endTrx p n
    let l := s.sf1 p
    let r := s.assignFrom p nodeNone n l x l 0 1
    let s := r.1
    match s.ry.cells.find? (fun c => c.src = nodeNone && c.dst = n) with
    | none => s.ryEvent 4
    | some c =>
      let s := (s.slPut n 30 2 1).slPut n 32 4 (c.slot + c.choff * 2 ^ 16)
      s.slPut n 40 4 (s.slGet n 40 4 % 2 ^ 24 + c.trx * 2 ^ 24)

/-- A link's assignment changes to `k` cells (R376, R377): cells too many go, missing ones are assigned, both ends are sent
their lists; a short assignment is counted and reported. -/
def State.assignLink (s : State) (n k : Nat) : State :=
  let p := s.nodePan n
  match s.parentOf n with
  | none => s
  | some b =>
    let old := s.ry.cells
    let mine := old.filter (fun c => c.src = n && c.dst = b)
    let keep := mine.take k
    let s := { s with ry := { s.ry with cells := old.filter (fun (c : SchedCell) => !(c.src = n && c.dst = b) || keep.contains c) } }
    let l := s.sf1 p
    let r : State × Nat := s.assignFrom p n b l (s.endTrx p n) l 0 (k - keep.length)
    let s := r.1
    let s : State := if keep.length + r.2 < k then ({ s with ry := { s.ry with short := s.ry.short + 1 } }).ryEvent 4 else s
    let s := (s.leafCell p n).writeChanged p old
    if s.ry.cells == old then s else (s.sendCells n).sendCells b

/-- Whether an end of a node's link has an assignment not acknowledged. -/
def State.linkBusy (s : State) (n : Nat) : Bool :=
  s.ry.unacked.contains n || (match s.parentOf n with | some b => s.ry.unacked.contains b | none => false)

/-- SC_DEMAND_RX: a node states the cells it wants towards its parent (R376, Table 16.4). -/
def execScDemandRx (node : Nat) (cells : Fin 16) (t : Nat) (s : State) : Res :=
  let s := s.advance t
  if !s.rySends || !s.known node || !s.tsch (s.nodePan node) then .next s
  else
    let s := s.say (.coap node 68 [])
    if s.linkBusy node then
      .next { s with ry := { s.ry with waiting := s.ry.waiting.filter (fun w => w.1 != node) ++ [(node, cells.val)] } }
    else .next (s.assignLink node cells)

/-- SC_ASSIGNMENT_ACK: a node acknowledges its list; changes that waited for it are sent (R376). -/
def execScAssignmentAck (node : Nat) (t : Nat) (s : State) : Res :=
  let s := s.advance t
  if !s.rySends || !s.ry.unacked.contains node then .next s
  else
    let s := { s with ry := { s.ry with unacked := without node s.ry.unacked } }
    .next (s.each s.ry.waiting (fun s w =>
      if s.linkBusy w.1 then s
      else ({ s with ry := { s.ry with waiting := s.ry.waiting.filter (fun x => x.1 != w.1) } }).assignLink w.1 w.2))

/-- SIXP_REQUEST_RX: a child's ADD or DELETE towards the device, as SFID and CellList (R376); the codes are those of RFC
8480: 0 success, 5 wrong SFID, 7 CELLLIST, 8 BUSY. -/
def execSixpRequestRx (node : Nat) (sfid : Fin 256) (list : List (Nat × Nat)) (t : Nat) (s : State) : Res :=
  let s := s.advance t
  if !s.rySends || !s.known node then .next s
  else
    let others := s.ry.sixp.filter (fun x => x.1 != node && decide (s.mtb < x.2 + 30 * secCyc))
    let own := (s.ry.cells.filter (fun c => c.src = node && c.dst = nodeNone)).map (fun c => (c.slot, c.choff))
    if sfid.val ≠ 0xF3 then .next (s.say (.sixp node 5))
    else if 512 ≤ others.length then .next (s.say (.sixp node 8))
    else
      let s := { s with ry := { s.ry with sixp := others ++ [(node, s.mtb)] } }
      if list.all own.contains && own.all list.contains then .next (s.say (.sixp node 0)) else .next (s.say (.sixp node 7))

/-- SIXP_TIMEOUT: a transaction is 30 s old (R376). -/
def execSixpTimeout (t : Nat) (s : State) : Res :=
  let s := s.advance t
  .next { s with ry := { s.ry with sixp := s.ry.sixp.filter (fun x => s.mtb < x.2 + 30 * secCyc) } }

/-! ### Joins (R378 to R381) -/

/-- A pledge table entry, as setting number and values: identifier, PSK. -/
def State.pledges (s : State) : List (Nat × List Nat) := s.ry.settings.filter (fun x => 2 ^ 31 ≤ x.1)

/-- A pledge's PSK (R378): from the pledge table, else derived under the key of join key 12. -/
def State.pledgePsk (s : State) (pledge : Nat) : Option Nat :=
  match s.pledges.find? (fun (x : Nat × List Nat) => x.2.head? == some pledge) with
  | some (_, [_, psk]) => some psk
  | some _ => none
  | none =>
    match s.setting (settingNo svcJoin 0 12 0) with
    | slot :: _ => (s.keySlot slot).map (fun k => Config.kmac k.mat (octs 8 pledge) 128 (ascii "SVC4820 join PSK"))
    | [] => none

/-- The lowest free index of a PAN (R379). -/
def State.freeIndex (s : State) (p : Nat) : Option Nat :=
  (s.panNodes p).find? (fun n => !s.recValid n && n - s.panBase p ≠ s.ownShort p)

/-- Joins of a PAN in the present second. -/
def State.joinsNow (s : State) (p : Nat) : Nat := if (s.root p).joinSec = s.mtb / secCyc then (s.root p).joinNow else 0

/-- A join is refused with a CoAP code: 129 is 4.01, 131 is 4.03, 163 is 5.03 with Max-Age 30. -/
def State.joinRefuse (s : State) (p code : Nat) : State :=
  let n := Store.get (fun _ => 0) s.ry.refused code
  ({ s with ry := { s.ry with refused := Store.set (fun _ => 0) s.ry.refused code (n + 1) } }).say
    (.joinRefused p code (if code = 163 then 30 else 0))

/-- A node leaves the tables (15_ground_tables.md, the removal sequence): tracking stops, VALID 0, its keys are deleted, its
learned path forgotten. -/
def State.removeNode (s : State) (n : Nat) : State :=
  let s := if s.tracked n then s.sleepStop n else s
  let s := (s.deregister n).recPut n 13 1 0
  let s := s.hashTake (s.recEui n) 0
  match s.lptOf n with
  | some (k, _) => (s.lptFree k).writeNat (s.recAddr n 94) 2 0
  | none => s

/-- The record of a newly joined node (R371, R379): identity; a new node has no path, no class, no zones, no version. -/
def State.joinRecord (s : State) (p n eui wrapSlot key : Nat) (fresh : Bool) : State :=
  let s := if fresh then
      let s := s.each [(64, 8), (86, 2), (88, 4), (92, 2), (96, 8), (104, 4), (128, 1), (156, 16), (192, 16), (208, 16), (224, 16),
        (240, 16)] (fun s x => s.recPut n x.1 x.2 0)
      (s.recPut n 80 4 nodeNone).recPut n 84 2 0xFFFF
    else s
  let fl := if fresh then 0 else s.recGet n 13 1
  let put (s : State) (o : Nat) (d : List Byte) : State := (s.writeBytes (s.recAddr n o) d).journalAt (s.recAddr n o) d
  let mat := match s.keySlot wrapSlot with | some k => k.mat | none => 0
  let s := put s 0 (beBytes 8 eui)
  let id := match s.panRec p with | some r => r.panId | none => 0
  let s := ((s.recPut n 8 2 id).recPut n 10 2 (n - s.panBase p)).recPut n 12 1 p
  let s := (s.recPut n 13 1 (putBit (putBit fl 0 true) 1 true)).recPut n 14 2 wrapSlot
  ((put s 16 (beBytes 24 (Config.wrap mat 16 key))).recPut n 56 4 n).keyChange n

/-- JOIN_REQUEST_RX: a Join Request by a pledge of an EUI-64, its identifier, the CoAP message ID; `oscore`: its OSCORE
processing under the pledge's PSK succeeds; `wrapSlot`: the PAN's wrapping slot (R379, R380). Without a DRBG there is no key: ST_KEY_ENTROPY_FAIL (R416), answered 5.03
(DEDUCED). -/
def execJoinRequestRx (pan : Fin 16) (eui pledge : BitVec 64) (message : Fin 65536) (oscore : Bool) (wrapSlot : Fin 512)
    (t : Nat) (s : State) : Res :=
  let s := s.advance t
  let p : Nat := pan
  let e := eui.toNat
  let live := s.ry.answers.filter (fun a => s.mtb < a.2.2.1)
  if !s.rySends || (s.panRec p).isNone || (s.panPrefix p).isNone || !s.isSet R.GROUND_STATE_HASH_READY then .next s
  else match live.find? (fun a => a.1 = e && a.2.1 = message.val) with
    | some a => .next (s.say a.2.2.2)
    | none =>
      let listed := s.pledges.any (fun x => x.2.head? = some pledge.toNat)
      if s.settingD (settingNo svcJoin 0 13 0) 50 ≤ s.joinsNow p then .next (s.joinRefuse p 163)
      else if s.settingD (settingNo svcJoin 0 11 0) 0 = 1 && !listed then .next (s.joinRefuse p 131)
      else if (s.pledgePsk pledge.toNat).isNone || !oscore then .next (s.joinRefuse p 129)
      else if !s.drbgOk then .next ((s.setF R.KEY_CMD_ERR_STATUS ST.KEY_ENTROPY_FAIL).joinRefuse p 163)
      else
        let s := s.setRoot p { s.root p with joinSec := s.mtb / secCyc, joinNow := s.joinsNow p + 1 }
        let old := s.hashLookup e 0
        let keep := old ≠ nodeNone && (s.panNodes p).contains old
        let s := if old ≠ nodeNone && !keep then s.removeNode old else s
        match if keep then some old else s.freeIndex p with
        | none => .next ((s.ryEvent 2).joinRefuse p 163)
        | some n =>
          let key := s.freeVal % 2 ^ 128
          let u := s.drbgUse.joinRecord p n e wrapSlot key (!keep)
          let r := u.hashPut ⟨e, 0, n⟩
          if r.2 = ST.GROUND_HASH_FULL then .next (((r.1.recPut n 13 1 0).ryEvent 3).joinRefuse p 163)
          else
            let u := r.1
            let slot := u.getF (R.MAC_PAN_KEY_SLOT.bank p)
            let group := match u.keySlot slot with | some k => k.mat | none => 0
            let c : Ctl := .joined p n (n - u.panBase p) key group (u.getF (R.MAC_PAN_KEY_KEY_INDEX.bank p))
              (u.panAddress p)
            .next (({ u with ry := { u.ry with
              joins := u.ry.joins + 1, answers := live ++ [(e, message.val, u.mtb + 247 * secCyc, c)] } }).say c)

/-! ### Group rekeys (R382) -/

/-- The new group key becomes current; the call ends with the nodes that have not acknowledged. -/
def State.rekeyEnd (s : State) (p : Nat) (r : Rekey) : State :=
  let s := (s.setF (R.MAC_PAN_KEY_SLOT.bank p) r.slot).setF (R.MAC_PAN_KEY_VALID.bank p) 1
  let s := ({ s with ry := { s.ry with rekeys := Store.del p s.ry.rekeys } }).ryEvent 6
  s.finishCall r.ticket ST.OK [(20, r.nodes)]

/-- REKEY_ACK_RX: a node acknowledges the new key. -/
def execRekeyAckRx (pan : Fin 16) (node : Nat) (t : Nat) (s : State) : Res :=
  let s := s.advance t
  match Store.find? pan.val s.ry.rekeys with
  | none => .next s
  | some r =>
    let r := { r with nodes := without node r.nodes }
    if r.nodes.isEmpty then .next (s.rekeyEnd pan r)
    else .next { s with ry := { s.ry with rekeys := Store.put pan.val r s.ry.rekeys } }

/-- REKEY_DEADLINE: the deadline passes. -/
def execRekeyDeadline (pan : Fin 16) (t : Nat) (s : State) : Res :=
  let s := s.advance t
  match Store.find? pan.val s.ry.rekeys with
  | none => .next s
  | some r => if r.deadline ≤ s.mtb then .next (s.rekeyEnd pan r) else .next s

end Sys2Proof.Machine
end

