-- ==== Sys2Proof/Machine/Campaign.lean ====
section
/-!
DEFINITION. Firmware campaigns (16_border_router.md, R383 to R386) and the resources they serve to nodes.
-/
namespace Sys2Proof.Machine

/-- The campaign number `c` while it runs. -/
def State.campaign (s : State) (c : Nat) : Option Campaign := (Store.find? c s.ry.campaigns).filter (fun v => v.phase != 3)

/-- The campaigns that run. -/
def State.campaigns (s : State) : List Campaign := (s.ry.campaigns.map (·.2)).filter (fun v => v.phase != 3)
def State.putCampaign (s : State) (c : Nat) (v : Campaign) : State :=
  { s with ry := { s.ry with campaigns := Store.put c v s.ry.campaigns } }

/-- The image number `k` of the library. -/
def State.image (s : State) (k : Nat) : Option Image := Store.find? k s.ry.images

/-- The flash address of octet `o` of an image: library blocks of 256 KB from page 15,360 up (Table 14.6). -/
def Image.addr (i : Image) (o : Nat) : Nat := 15360 * 4096 + (i.blocks.getD (o / 262144) 0) * 262144 + o % 262144

/-- Octets of an image. -/
def State.imageOctets (s : State) (i : Image) (o n : Nat) : List Byte :=
  (List.range (min n (i.len - o))).map (fun k => s.flashByte (i.addr (o + k)))

/-- The blocks of a campaign. -/
def State.campaignBlocks (s : State) (v : Campaign) : Nat :=
  match s.image v.image with | some i => divUp i.len (2 ^ (v.szx + 4)) | none => 0

/-- The targets of a campaign (R384). -/
def State.targets (s : State) (pan mask bound : Nat) : List Nat :=
  (s.members pan).filter (fun n => bitOf mask (s.recGet n 87 1) && s.recGet n 104 4 < bound && !s.tracked n)

/-- What a pass sends: the header, then blocks in ascending order. -/
def passOf (blocks : List Nat) : List (Option Nat) := none :: blocks.map some

/-- The header of a campaign (Table 16.5): image number, length, digest, class mask, version, version bound, SZX. -/
def State.fwHeader (s : State) (v : Campaign) : List Byte :=
  match s.image v.image with
  | some i => cborMap [(1, cborUint v.image), (2, cborUint i.len), (3, cborOctets (beBytes 32 i.digest)), (4, cborUint v.mask),
      (5, cborUint i.version), (6, cborUint v.bound), (7, cborUint v.szx)]
  | none => []

/-- Octets of a block of a campaign. -/
def State.fwBlock (s : State) (v : Campaign) (szx num : Nat) : List Byte :=
  match s.image v.image with
  | some i => s.imageOctets i (num * 2 ^ (szx + 4)) (2 ^ (szx + 4))
  | none => []

/-- CAMPAIGN_INTERVAL: an interval of BLOCK_MS begins; one message leaves unless the duty account holds it (R385). -/
def execCampaignInterval (campaign : Fin 4) (held : Bool) (t : Nat) (s : State) : Res :=
  let s := s.advance t
  match s.campaign campaign with
  | none => .next s
  | some v =>
    match v.queue with
    | [] => .next s
    | m :: rest =>
      if v.phase ≠ 0 || held || s.mtb < v.last || !s.rySends then .next s
      else
        let fin := s.mtb + msToCyc v.blockMs
        let v := { v with queue := rest, last := fin }
        let v := if rest.isEmpty then
            { v with phase := 1, windowEnd := fin + v.reportS * secCyc, missing := [], reported := false } else v
        .next ((s.putCampaign campaign v).say (match m with
          | none => .fwHeader campaign (s.fwHeader v)
          | some b => .fwBlock campaign b (s.fwBlock v v.szx b)))

/-- REPORT_WINDOW_END: a repair round follows, or after ROUNDS of them or a window without reports the activation (R385).
`held`: the duty account holds the activation message. -/
def execReportWindowEnd (campaign : Fin 4) (held : Bool) (t : Nat) (s : State) : Res :=
  let s := s.advance t
  match s.campaign campaign with
  | none => .next s
  | some v =>
    if v.phase ≠ 1 || s.mtb < v.windowEnd || !s.rySends then .next s
    else if !v.reported || v.rounds ≤ v.round then
      if held then .next s
      else
        let on := v.windowEnd + v.delayS * secCyc
        .next ((s.putCampaign campaign { v with phase := 2, endAt := some (on + 86400 * secCyc) }).say
          (.fwActivate campaign (s.asn on)))
    else
      let n := s.campaignBlocks v
      let more := (s.targets v.pan v.mask v.bound).filter (fun k => !v.targets.contains k && !v.done.contains k)
      let blocks := (List.range n).filter v.missing.contains
      .next (s.putCampaign campaign { v with
        phase := 0, round := v.round + 1, queue := passOf blocks, last := s.mtb, missing := [], targets := v.targets ++ more })

/-- MISSING_BLOCKS_RX: POST /fw/{c}/m with a bit for each missing block (R385, Table 16.4). -/
def execMissingBlocksRx (campaign : Fin 4) (node : Nat) (bitmap : List Byte) (t : Nat) (s : State) : Res :=
  let s := s.advance t
  if !s.rySends || !s.known node then .next s
  else match s.campaign campaign with
    | none => .next (s.say (.coap node 132 []))
    | some v =>
      let miss := (List.range (8 * bitmap.length)).filter (fun i => bitOf (leNat bitmap) i)
      let s := if v.phase = 1 then s.putCampaign campaign { v with
          reported := true, missing := miss.foldl (fun l b => withOne b l) v.missing } else s
      .next (s.say (.coap node 68 []))

/-- FW_HEADER_GET: GET /fw/{c}/h (R387, Table 16.4). -/
def execFwHeaderGet (campaign : Fin 4) (node : Nat) (s : State) : Res :=
  if !s.rySends || !s.known node then .next s
  else match s.campaign campaign with
    | none => .next (s.say (.coap node 132 []))
    | some v => .next (s.say (.coap node 69 (s.fwHeader v)))

/-- FW_BLOCK_GET: GET /fw/{c} with a Block2 option (R385, Table 16.4). -/
def execFwBlockGet (campaign : Fin 4) (node : Nat) (num : Nat) (szx : Fin 7) (s : State) : Res :=
  if !s.rySends || !s.known node then .next s
  else match s.campaign campaign with
    | none => .next (s.say (.coap node 132 []))
    | some v => .next (s.say (.coap node 69 (s.fwBlock v szx num)))

/-- COMPLETION_REPORT_RX: POST /fw/{c}/d after activation: FW_VERSION takes the new version (R386). -/
def execCompletionReportRx (campaign : Fin 4) (node : Nat) (version : BitVec 32) (t : Nat) (s : State) : Res :=
  let s := s.advance t
  if !s.rySends || !s.known node then .next s
  else match s.campaign campaign with
    | none => .next (s.say (.coap node 132 []))
    | some v =>
      let s := if v.phase = 2 then
          (s.putCampaign campaign { v with done := withOne node v.done }).recPut node 104 4 version.toNat else s
      .next (s.say (.coap node 68 []))

/-- A campaign ends: its resources go, its result stays (R386). -/
def State.campaignEnd (s : State) (c : Nat) : State :=
  match s.campaign c with
  | none => s
  | some v => (s.putCampaign c { v with phase := 3, queue := [], missing := [], endAt := none }).ryEvent 5

/-- CAMPAIGN_END_EXPIRY: 24 h after activation. -/
def execCampaignEndExpiry (campaign : Fin 4) (t : Nat) (s : State) : Res :=
  let s := s.advance t
  match s.campaign campaign with
  | none => .next s
  | some v =>
    match v.endAt with
    | none => .next s
    | some e => if e ≤ s.mtb then .next (s.campaignEnd campaign) else .next s

end Sys2Proof.Machine
end

