-- ==== Sys2Proof/Machine/Flash.lean ====
section
/-!
DEFINITION. The end of a flash operation (14_memory.md), and what a key-store write does with it (R410, R418).
-/
namespace Sys2Proof.Machine

/-- A key command whose key-store writes have ended (R410); COMMISSION in TAMPER_ERASED is followed by a warm reset
(R425). -/
def State.keyJobEnd (s : State) (j : KeyJob) (st : Nat) : State :=
  let s := (({ s with ky := { s.ky with job := none } }).setF R.KEY_CMD_STAT_BUSY 0).setF R.KEY_CMD_STAT_STORE_BUSY 0
  let s := s.keyEnd j.req st (if st = ST.OK then j.result else 0) []
  if j.op = 14 ∧ st = ST.OK ∧ s.dev = devTamper then s.requestWarm 4 else s

/-- The writes left once the operation of write `w` has ended: done; failed for the first time, which repeats it; failed
for the second time (none) (R418). -/
def State.keyWriteNext (s : State) (ok : Bool) (w : KeyWrite) (ws : List KeyWrite) : State × Option (List KeyWrite) :=
  if ok then
    let r := s.keyWriteStep w
    (r.1, some ((match r.2 with | some v => [v] | none => []) ++ ws))
  else if w.again then (s.raise R.KEY_EVENT_STORE_WRITE, none)
  else (s, some ({ w with again := true } :: ws))

/-- The key engine goes on after a flash operation of its own. An operation whose command a tamper response has ended
leaves nothing behind (R422). -/
def State.keyFlash (s : State) (ok : Bool) : State :=
  match s.ky.job with
  | some j =>
    match j.writes with
    | [] => s
    | w :: ws =>
      match s.keyWriteNext ok w ws with
      | (s, none) => s.keyJobEnd j ST.KEY_STORE_WRITE
      | (s, some []) => s.keyJobEnd j ST.OK
      | (s, some (v :: vs)) => ({ s with ky := { s.ky with job := some { j with writes := v :: vs } } }).nandSubmit (s.keyNand v)
  | none =>
    match s.ky.bootJob with
    | [] => s
    | w :: ws =>
      match s.keyWriteNext ok w ws with
      | (s, none) => { s with ky := { s.ky with bootJob := [] } }
      | (s, some []) => { s with ky := { s.ky with bootJob := [] } }
      | (s, some (v :: vs)) => ({ s with ky := { s.ky with bootJob := v :: vs } }).nandSubmit (s.keyNand v)

/-- NAND_OPERATION_DONE: the operation in progress ends; a register command's status stands in MEM_NAND_STAT; the next
waiting request starts (R330). `ok` is false for an uncorrectable read and for a program or erase the die reports
failed. A gated controller is stopped with its operation (R71). -/
def execNandOperationDone (ok : Bool) (s : State) : Res :=
  match s.ms.nand with
  | none => .next s
  | some o =>
    if bitOf (s.getF R.CLK_GATE_STAT_GATED) gateNand then .next s
    else
    let st := if ok then ST.OK else if o.op = 1 then ST.MEM_NAND_READ else ST.MEM_NAND_FAIL
    let s := ({ s with ms := { s.ms with nand := none } }).nandEffect o ok
    let s := if o.who = 0 then (s.setF R.MEM_NAND_STAT_STATUS st).raise R.MEM_EVENT_NAND_DONE else s
    let s := s.raiseIf (!ok) R.MEM_EVENT_NAND_FAIL
    let s := s.nandStart
    .next (if o.who = 1 then s.keyFlash ok else s)

end Sys2Proof.Machine
end

