-- ==== Sys2Proof/Machine/Tamper.lean ====
section
/-!
DEFINITION. The tamper logic of the VBAT domain (R420 to R424) and what a tamper event does in the core (R422).
-/
namespace Sys2Proof.Machine

/-- Valid entries of the tamper log. -/
def State.tamperEntries (s : State) : Nat := ((List.range 8).filter (fun i => s.isSet (R.TAMPER_LOG_VALID.bank i))).length

/-- An event is logged while fewer than 8 entries are valid (R421). -/
def State.tamperLog (s : State) (source : Nat) : State :=
  let i := s.tamperEntries
  if 8 ≤ i then s
  else
    let s := ((s.setF (R.TAMPER_LOG_VALID.bank i) 1).setF (R.TAMPER_LOG_SOURCE.bank i) source).setB
      (R.TAMPER_LOG_WAS_PRESENT.bank i) (s.ownerState = 1)
    if s.rootRuns then (s.setF (R.TAMPER_LOG_STAMPED.bank i) 1).setF (R.TAMPER_LOG_STAMP.bank i) (s.mtb / 2 ^ 24) else s

/-- A tamper event (R421): logged and counted; a PRESENT owner root is zeroed and becomes ERASED, and the core is to hear of
it (R422). Otherwise nothing else changes (R423). -/
def State.tamperEvent (s : State) (source : Nat) : State :=
  let s := ((s.tamperLog source).bump R.TAMPER_COUNT_COUNT).raise (R.TAMPER_EVENT_SOURCE.bit source)
  let s := { s with ky := { s.ky with quiet := withOne source s.ky.quiet } }
  if s.ownerState = 1 then
    let s := ({ s with ky := { s.ky with root := 0, coreDue := true } }).setF R.TAMPER_STATE_OWNER 2
    s.raise R.TAMPER_EVENT_ERASED
  else s

/-- TAMPER_SOURCE_EVENT: the condition of a source of Table 18.10 is met for its filter time. It shows in ACTIVE and, when
the source is enabled and has not stayed active since its last event, raises an event (R420, R421). -/
def execTamperSourceEvent (source : Fin 8) (t : Nat) (s : State) : Res :=
  if !s.su.vbat then .next s
  else
    let s := if s.rootRuns then s.advance t else s
    let s := s.setF (R.TAMPER_STATE_ACTIVE.bit source) 1
    if s.isSet (R.TAMPER_CFG_EN.bit source) && !s.ky.quiet.contains source then .next (s.tamperEvent source) else .next s

/-- TAMPER_SOURCE_INACTIVE: a source's condition ends; with `filtered` it has been inactive for its filter time and may
raise an event again (R421). -/
def execTamperSourceInactive (source : Fin 8) (filtered : Bool) (s : State) : Res :=
  if !s.su.vbat then .next s
  else
    let s := s.setF (R.TAMPER_STATE_ACTIVE.bit source) 0
    .next (if filtered then { s with ky := { s.ky with quiet := without source s.ky.quiet } } else s)

/-- The unit is FENCED because its owner root is not PRESENT (R404, Table 20.1). A unit without a pair has no role to report
(R441). -/
def State.fenceUnit (s : State) : State :=
  if s.pairOn then s.setRole 4
  else
    let was := s.pairRole
    let s := s.setF R.PAIR_STATE_ROLE 4
    (if was < 2 then s.roleLeft else s).reselect

/-- A blob write stops where it is, and the key engine's requests are taken off it (R422). -/
def State.keyStop (s : State) : State :=
  let s : State := { s with
    ky := { s.ky with job := none, fifo := [], bootJob := [] },
    ms := { s.ms with nand := s.ms.nand.map (fun (o : NandOp) => if o.who = 1 then { o with who := 4 } else o),
                      nandWait := s.ms.nandWait.filter (fun (o : NandOp) => o.who != 1) } }
  (s.setF R.KEY_CMD_STAT_BUSY 0).setF R.KEY_CMD_STAT_STORE_BUSY 0

/-- Steps 1 and 2 of R422: key commands end, every slot and every CCM* context is zeroed, sessions end with theirs (R432), the DRBG
state is zeroed.
What works in TAMPER_ERASED (R404) is there anew: the identity key in slot 0, the DRBG (notes/assumptions/38.md). -/
def State.keysErased (s : State) : State :=
  let reqs := (match s.ky.job with | some j => [j.req] | none => []) ++ s.ky.fifo
  let s := s.keyStop
  let s := s.each reqs (fun s r => s.keyEnd r ST.KEY_TAMPER 0 [])
  let s := s.raiseIf (!reqs.isEmpty) R.KEY_EVENT_TAMPER_ABORT
  let s := s.each (s.ro.sessions.map (fun (x : Nat × Session) => x.1)) State.sessionEnd
  let s := { s with ky := { s.ky with slots := [], ctxs := [], waiters := [], coreDue := false } }
  ((s.putSlot 0 ⟨attrIdentity, identitySeed⟩).setF R.KEY_DRBG_REQS 0).useFree

/-- Step 3 of R422: TAMPER_ERASED is entered. An ACTIVE unit of a pair ends its transmissions at once (R448); any other ends
them at their next symbol boundary; every transceiver goes to SLEEP. -/
def State.enterErased (s : State) : State :=
  let s := s.selfFault
  let s := s.each (List.range 4) (fun s n =>
    let s := (s.setF (R.TRX_STATE_TARGET n) 0).txFlush n
    if (s.trx n).onAir.isSome then s.txEndSoon n (ST.TX_FLUSHED n) else s.trxGo n)
  s.fenceUnit.setDev devTamper

/-- TAMPER_CORE_RESPONSE: the event reaches the core (R422). -/
def execTamperCoreResponse (t : Nat) (s : State) : Res :=
  if !s.rootRuns || !s.ky.coreDue then .next s
  else
    let s := (s.advance t).keysErased
    .next (if s.inService then s.enterErased else s)

/-- A write of TAMPER_CFG (R424). -/
def State.tamperCfg (s : State) (w : Word) : State :=
  let new := R.TAMPER_CFG_EN.get w
  let old := s.getF R.TAMPER_CFG_EN
  let on := (List.range 8).filter (fun i => bitOf new i && !bitOf old i)
  let off := (List.range 8).any (fun i => bitOf old i && !bitOf new i)
  if on.any (fun i => s.isSet (R.TAMPER_STATE_ACTIVE.bit i)) then s.refuse R.KEY_CMD_ERR_STATUS ST.TAMPER_ACTIVE
  else if off && !(s.running && s.ownerState = 1) then s.refuse R.KEY_CMD_ERR_STATUS ST.TAMPER_STATE
  else (s.setReg R.TAMPER_CFG (w &&& regAccessMask .rw R.TAMPER_CFG)).answer ST.OK

/-- TAMPER_CFG_WRITE: firmware writes TAMPER_CFG, recorded (R424, R433). -/
def execTamperCfgWrite (value : Word) (s : State) : Res :=
  .next (s.recorded ⟨0, 0⟩ R.TAMPER_CFG value.toNat R.KEY_CMD_ERR_STATUS (fun s => s.tamperCfg value))

/-- A write of 1 to TAMPER_LOG_SEL.CLR: the log and the count are cleared, with the owner root PRESENT. -/
def State.tamperLogClear (s : State) : State :=
  if s.ownerState ≠ 1 then s.refuse R.KEY_CMD_ERR_STATUS ST.TAMPER_STATE
  else ((s.each (List.range 8) (fun s i => s.setReg (R.TAMPER_LOG_VALID.bank i).addr 0)).setF R.TAMPER_COUNT_COUNT 0).answer ST.OK

/-- TAMPER_LOG_CLEAR: firmware writes TAMPER_LOG_SEL.CLR, recorded (R433). -/
def execTamperLogClear (s : State) : Res :=
  .next (s.recorded ⟨0, 0⟩ R.TAMPER_LOG_SEL (2 ^ 31) R.KEY_CMD_ERR_STATUS State.tamperLogClear)

end Sys2Proof.Machine
end

