-- ==== Sys2Proof/Machine/Release.lean ====
section
/-!
DEFINITION. Release for return, sampler mode and reissue (R437 to R439).
-/
namespace Sys2Proof.Machine

/-- A call of the role service that is refused: recorded with its status (R433). -/
def State.roleRefused (s : State) (ticket op : Nat) (t : Ticket) (st arg : Nat) : State :=
  (s.auditNote ⟨2, t.role, st, t.cred, 20 * 2 ^ 24 + op * 2 ^ 16, arg, 0⟩).finishCall ticket st []

/-- Steps 3 to 5 of R437. -/
def State.released (s : State) : State :=
  let s := s.keyStop.erasePages 128 128
  let s := { s with
    ky := { s.ky with root := 0, area0 := {}, area1 := {} },
    ro := { s.ro with creds := s.ro.creds.filter (fun c => c.pricking) } }
  ((s.storeRoles.setF R.TAMPER_STATE_OWNER 3).requestWarm 4).answer ST.OK

/-- ROLE_RELEASE: role operation 4 (R437): a checkpoint, the KIND 11 record, both programmed; the key store and the enrolled
records erased; OWNER RELEASED; a warm reset. The result is never ready. -/
def execRoleRelease (ticket : Nat) (eui : BitVec 64) (s : State) : Res :=
  match s.openCall ticket svcRole 4 with
  | none => .next s
  | some t =>
    if eui.toNat ≠ Config.eui64 then .next (s.roleRefused ticket 4 t ST.ROLE_CONFIRM eui.toNat)
    else if s.dev ≠ devService ∨ s.ownerState ≠ 1 then .next (s.roleRefused ticket 4 t ST.ROLE_STATE eui.toNat)
    else match s.checkpoint? with
      | none => .next ((s.raise R.ROLE_EVENT_AUDIT_BUSY).finishCall ticket ST.ROLE_AUDIT_BUSY [])
      | some u =>
        let u := (u.raise R.ROLE_EVENT_RELEASE).auditAppend ⟨11, t.role, 0, t.cred, 20 * 2 ^ 24 + 4 * 2 ^ 16, eui.toNat, 0⟩
        let u := { u with ro := u.ro.closePage }
        .next (u.each [0, 1, 2] (fun s _ => s.auditProgram)).released

/-- SAMPLER_ENTRY: role operation 6 in RETURNED (R439): a visit counted, the KIND 12 record, the request bit, a warm
reset. -/
def execSamplerEntry (ticket : Nat) (s : State) : Res :=
  match s.openCall ticket svcRole 6 with
  | none => .next s
  | some t =>
    if s.dev ≠ devReturned then .next (s.roleRefused ticket 6 t ST.ROLE_STATE 0)
    else if 16 ≤ s.ro.visits then .next (s.roleRefused ticket 6 t ST.ROLE_VISITS_SPENT 0)
    else
      .next (s.audited ⟨12, t.role, 0, t.cred, 20 * 2 ^ 24 + 6 * 2 ^ 16, s.ro.visits, s.ro.visits + 1⟩
        (fun s => s.finishCall ticket ST.ROLE_AUDIT_BUSY [])
        (fun s => (({ s with ro := { s.ro with visits := s.ro.visits + 1, sampler := true } }).requestWarm 4).answer ST.OK))

/-- ROLE_REISSUE: role operation 7 in RETURNED (R439): the audit area is erased, OWNER becomes ABSENT; record numbers start
anew (Table 19.5). -/
def execRoleReissue (ticket : Nat) (s : State) : Res :=
  match s.openCall ticket svcRole 7 with
  | none => .next s
  | some t =>
    if s.dev ≠ devReturned then .next (s.roleRefused ticket 7 t ST.ROLE_STATE 0)
    else
      .next (s.recordedCall 2 ticket t.role 7 0 0 (fun s =>
        let s := s.erasePages 256 128
        let s := { s with ro := { s.ro with
          seq := 0, prev := 0, cur := [], closed := [], pages := 0, oldest := 0, covered := 0, sincePgs := 0, firstSeq := 1,
          ckptSeq := 0, due := false } }
        (s.setF R.TAMPER_STATE_OWNER 0).finishCall ticket ST.OK []))

end Sys2Proof.Machine
end

