-- ==== Sys2Proof/Machine/Parse.lean ====
section
/-!
DEFINITION. Octets read as a pricking (02_pricking.md), a manifest and a second-stage boot (21_update.md).
-/
namespace Sys2Proof.Machine

/-- Where octets are read from: the value at an offset. -/
abbrev Octets := Nat → Nat

/-- The number in `n` octets from an offset, the first the least significant. -/
def leAt (rd : Octets) (o : Nat) : Nat → Nat
  | 0 => 0
  | n + 1 => rd o + 256 * leAt rd (o + 1) n

/-- The number in `n` octets from an offset, the first the most significant: digests, keys and signatures. -/
def beAt (rd : Octets) (o n : Nat) : Nat := (List.range n).foldl (fun v k => 256 * v + rd (o + k)) 0

/-- The octets from an offset. -/
def octetsAt (rd : Octets) (o n : Nat) : List Nat := (List.range n).map (fun k => rd (o + k))

/-- Offsets, among some, at which an octet is not 0. -/
def notZero (rd : Octets) (base : Nat) (offs : List Nat) : List Nat := offs.filter (fun k => rd (base + k) != 0)

/-! ### Signatures (R27, R28) -/

/-- The public key that SIGNER names: a record of the role store, or Svetom's release key. -/
def State.signerKey (s : State) (signer : Nat) : Nat :=
  match s.credOf signer with
  | some c => c.pubKey
  | none => Config.releaseKey

/-- The signature block at an offset, whose signature covers the octets from 0 on. -/
def State.sigBlockAt (s : State) (rd : Octets) (o : Nat) : SigBlock where
  typ := leAt rd o 2
  flags := leAt rd (o + 2) 2
  length := leAt rd (o + 4) 4
  signer := beAt rd (o + 8) 32
  alg := leAt rd (o + 40) 2
  sigOk := Config.verifies 3 (s.signerKey (beAt rd (o + 8) 32)) [] (octetsAt rd 0 (o + 44)) (beAt rd (o + 44) 2420)

/-- A signature block whose fields and signature are right. -/
def sigGood (b : SigBlock) : Bool := b.typ = 0xFFFF && b.flags = 0 && b.length = 2456 && b.alg = 0x44 && b.sigOk

/-! ### Prickings -/

/-- Section headers from an offset up to the signature block, and where that stands: at TYPE 0xFFFF or, once `left` sections
have been read (SECT_COUNT of them), at a TYPE that no section has, which is then a signature block with a broken TYPE
(Table 02.14; DEDUCED: nothing else tells such a block from an unknown section). More than 11 sections are not followed. -/
def walk (rd : Octets) : Nat → Nat → Nat → List SectHdr × Nat
  | 0, _, o => ([], o)
  | fuel + 1, left, o =>
    let typ := leAt rd o 2
    if typ = 0xFFFF || (left = 0 && (typ = 0 || 11 < typ)) then ([], o)
    else
      let h : SectHdr := ⟨o, typ, leAt rd (o + 2) 2, leAt rd (o + 4) 4⟩
      let r := walk rd fuel (left - 1) (o + 8 + divUp h.length 4 * 4)
      (h :: r.1, r.2)

/-- The payload offset of a section. -/
def payloadOf (l : List SectHdr) (typ : Nat) : Option Nat := (l.find? (fun h => h.typ == typ)).map (fun h => h.offset + 8)

/-- `n` records of a size, from an offset. -/
def records {α : Type} (n size o : Nat) (f : Nat → α) : List α := (List.range n).map (fun k => f (o + size * k))

def readRole (rd : Octets) (o : Nat) : RoleRec where
  role := rd o
  digest := beAt rd (o + 4) 32
  key := beAt rd (o + 36) 1312
  keyOk := Config.sha3 (octetsAt rd (o + 36) 1312) = beAt rd (o + 4) 32

def readProfile (rd : Octets) (o : Nat) : Profile where
  lowKhz := leAt rd o 4
  highKhz := leAt rd (o + 4) 4
  maxPwr := signed 8 (rd (o + 8))
  lbt := rd (o + 9)
  ccaThr := signed 8 (rd (o + 10))
  ccaUs := leAt rd (o + 12) 2
  offMs := leAt rd (o + 14) 2
  onMs := leAt rd (o + 16) 2
  duty := leAt rd (o + 18) 2
  windowS := leAt rd (o + 20) 4
  backoffUs := leAt rd (o + 24) 4

def readTable (rd : Octets) (o : Nat) : TableSec where
  nodeLimit := leAt rd o 4
  ageLimitS := leAt rd (o + 4) 2
  seed0 := leAt rd (o + 8) 8
  seed1 := leAt rd (o + 16) 8
  regions := records 8 8 (o + 24) (fun a => (leAt rd a 4, leAt rd (a + 4) 4))

def readQueue (rd : Octets) (o : Nat) : QueueRec where
  queue := rd o
  mem := rd (o + 1)
  flags := rd (o + 2)
  consumer := rd (o + 3)
  depth := leAt rd (o + 4) 4
  high := leAt rd (o + 8) 2
  low := leAt rd (o + 10) 2
  fcp := rd (o + 12)
  pfc := rd (o + 13)

def readProd (rd : Octets) (o : Nat) : ProdRec := ⟨rd o, rd (o + 1), leAt rd (o + 2) 2⟩

def readHoop (rd : Octets) (o : Nat) : HoopRec where
  kind := rd o
  idleDiv := rd (o + 1)
  bobbins := leAt rd (o + 2) 2
  prio := rd (o + 4)
  kinds := leAt rd (o + 8) 4
  extSigner := beAt rd (o + 16) 32

def readTrx (rd : Octets) (o : Nat) : TrxRec where
  present := rd o
  band := rd (o + 1)
  width := rd (o + 2)
  aerials := rd (o + 3)
  centreKhz := leAt rd (o + 4) 4
  spanKhz := leAt rd (o + 8) 4
  lanes := rd (o + 12)
  profile := rd (o + 13)
  maxPwr := signed 8 (rd (o + 14))
  wake := rd (o + 15)
  coex := rd (o + 16)

def readLane (rd : Octets) (o : Nat) : LaneRec := ⟨rd o, leAt rd (o + 2) 2, leAt rd (o + 4) 4⟩

def readPan (rd : Octets) (o : Nat) : PanRec where
  panId := leAt rd o 2
  access := rd (o + 2)
  trxMask := rd (o + 3)
  minSec := rd (o + 4)
  joinQ := rd (o + 5)
  ebPeriod := leAt rd (o + 6) 2
  template := rd (o + 8)
  slotframes := rd (o + 9)
  maxNodes := leAt rd (o + 10) 2

def readTime (rd : Octets) (o : Nat) : TimeSec where
  domains := rd o
  dom1 := rd (o + 1)
  dom2 := rd (o + 2)
  profile := rd (o + 3)
  delay := rd (o + 4)
  srcOrder := rd (o + 5)
  monPpm := leAt rd (o + 6) 2
  jumpNs := leAt rd (o + 8) 4

def readPair (rd : Octets) (o : Nat) : PairSec := ⟨rd o, rd (o + 1), leAt rd (o + 2) 2, beAt rd (o + 4) 16⟩

/-- Reserved octets of a section, as payload offsets: its own, those of its records, its padding. -/
def reservedOffs (typ n m : Nat) : List Nat :=
  let recs := fun (k size base : Nat) (offs : List Nat) => (List.range k).flatMap (fun i => offs.map (fun o => base + size * i + o))
  if typ = 1 then [982, 983]
  else if typ = 2 then recs n 1348 4 [1, 2, 3]
  else if typ = 3 then recs n 32 4 [11, 28, 29, 30, 31]
  else if typ = 5 then [6, 7]
  else if typ = 6 then [6, 7] ++ recs n 16 8 [14, 15] ++ recs m 8 (8 + 16 * n) [4, 5, 6, 7]
  else if typ = 7 then recs 4 48 0 [5, 6, 7, 12, 13, 14, 15]
  else if typ = 8 then recs 4 20 0 [17, 18, 19] ++ recs 96 8 80 [1]
  else if typ = 9 then recs n 16 4 [12, 13, 14, 15]
  else if typ = 11 then [20, 21, 22, 23]
  else []

/-- The octets as a pricking. A record count above what its section admits is cut just above that, so that the section's
LENGTH is found wrong. -/
def State.pricking (s : State) (rd : Octets) (readFail : Option Nat) : Pricking :=
  let w := walk rd 12 (rd 17) 64
  let at_ := fun (typ : Nat) => (payloadOf w.1 typ).getD 0
  let has := fun (typ : Nat) => (payloadOf w.1 typ).isSome
  let count := fun (typ off size cap : Nat) => if has typ then min (cap + 1) (leAt rd (at_ typ + off) size) else 0
  let nRole := count 2 0 4 8
  let nProf := count 3 0 4 16
  let nQ := count 6 0 2 256
  let nP := count 6 2 2 1024
  let nPan := count 9 0 4 16
  let payloads := [3, 4, 5, 6, 7, 8, 9, 10].flatMap (fun typ =>
    match w.1.find? (fun h => h.typ == typ) with
    | some h => octetsAt rd (h.offset + 8) h.length
    | none => [])
  { header := {
      magic := leAt rd 0 4, format := leAt rd 4 2, hdrLen := leAt rd 6 2, totalLen := leAt rd 8 4, part := leAt rd 12 4,
      minRev := rd 16, sectCount := rd 17, version := leAt rd 20 4, structDigest := beAt rd 32 32,
      digestOk := Config.sha3 payloads = beAt rd 32 32 }
    readFail := readFail
    sections := w.1
    sig := s.sigBlockAt rd w.2
    reservedBad :=
      (notZero rd 0 [18, 19]).map (fun o => (0, o)) ++
      w.1.flatMap (fun h =>
        let pad := (List.range (divUp h.length 4 * 4 - h.length)).map (h.length + ·)
        (notZero rd (h.offset + 8) (reservedOffs h.typ
          (if h.typ = 2 then nRole else if h.typ = 3 then nProf else if h.typ = 6 then nQ else nPan) nP ++ pad)).map
          (fun o => (h.typ, o))) ++
      (notZero rd w.2 [42, 43]).map (fun o => (0xFFF, o))
    vis := if has 1 then octetsAt rd (at_ 1) 982 else []
    roles := records nRole 1348 (at_ 2 + 4) (readRole rd)
    profiles := records nProf 32 (at_ 3 + 4) (readProfile rd)
    dram := if has 4 then octetsAt rd (at_ 4) 256 else []
    table := readTable rd (at_ 5)
    queues := records nQ 16 (at_ 6 + 8) (readQueue rd)
    producers := records nP 8 (at_ 6 + 8 + 16 * nQ) (readProd rd)
    orderedFlows := leAt rd (at_ 6 + 4) 2
    hoops := records 4 48 (at_ 7) (readHoop rd)
    trxs := records 4 20 (at_ 8) (readTrx rd)
    lanes := records 96 8 (at_ 8 + 80) (readLane rd)
    pans := records nPan 16 (at_ 9 + 4) (readPan rd)
    time := readTime rd (at_ 10)
    pair := if has 11 then some (readPair rd (at_ 11)) else none }

/-! ### Manifests and second stages -/

/-- A manifest entry (Table 21.2). -/
def readEntry (rd : Octets) (o : Nat) : ManEntry where
  typ := rd o
  unit_ := rd (o + 1)
  dest := leAt rd (o + 2) 2
  offset := leAt rd (o + 4) 4
  len := leAt rd (o + 8) 4
  load := leAt rd (o + 12) 4
  digest := beAt rd (o + 16) 32

/-- Octets as a manifest (R463). `reservedOk` takes in the signature block's own fields. -/
def State.manifest (s : State) (rd : Octets) : Manifest :=
  let n := rd 17
  let b := s.sigBlockAt rd (64 + 48 * n)
  { magic := leAt rd 0 4, format := leAt rd 4 2, hdrLen := leAt rd 6 2, totalLen := leAt rd 8 4, part := leAt rd 12 4,
    minRev := rd 16, flags := rd 18, rollback := leAt rd 20 4, version := leAt rd 24 4, settingsFmt := leAt rd 36 2,
    entries := records n 48 64 (readEntry rd), digest := Config.sha3 (octetsAt rd 0 (leAt rd 8 4)),
    signer := b.signer, sigOk := b.sigOk,
    reservedOk := (notZero rd 0 (19 :: (List.range 26).map (38 + ·))).isEmpty && b.typ = 0xFFFF && b.flags = 0 &&
      b.length = 2456 && b.alg = 0x44 && (notZero rd (64 + 48 * n) [42, 43]).isEmpty }

/-- Octets of a list, 0 past its end. -/
def listOctets (l : List Byte) : Octets := fun k => (l.getD k 0).toNat

/-- Octets of the flash from an address up. -/
def State.flashOctets (s : State) (a : Nat) : Octets := fun k => (s.flashByte (a + k)).toNat

/-- The first address of a firmware slot and of a pricking slot (Table 14.6). -/
def fwPage (k : Nat) : Nat := 3072 + 6144 * k
def prPage (k : Nat) : Nat := 512 + 256 * k

/-- Octets of a firmware slot and of a pricking slot. -/
def State.fwOctets (s : State) (k : Nat) : Octets := s.flashOctets (4096 * fwPage k)
def State.prOctets (s : State) (k : Nat) : Octets := s.flashOctets (4096 * prPage k)

/-- A one-time-programmable counter's value (R476). -/
def counterOf (words : List Nat) : Nat := words.getLastD 0

/-- The rule of R28 for a signer. -/
def State.signerOk (s : State) (signer : Nat) : Bool :=
  let able := s.ro.creds.filter (fun c => c.role == 2 || c.role == 3)
  able.any (fun c => c.digest == signer) || (able.isEmpty && signer = Config.sha3 (octs 1312 Config.releaseKey))

/-- Why a slot's second-stage boot is not accepted (R462): a status word of Table 04.7. -/
def State.stageFault (s : State) (k : Nat) : Option Nat :=
  let rd := s.fwOctets k
  let len := leAt rd 4 4
  let b := s.sigBlockAt rd (len - 2464)
  firstFail [
    (leAt rd 0 4 ≠ 0x32545353 || len < 16 + 2464 || 0x100000 < len || leAt rd 12 4 % 4096 ≠ 0, ST.START_BOOT_FORMAT),
    (!s.signerOk b.signer || !sigGood b, ST.START_BOOT_SIGNATURE),
    (leAt rd 8 4 < counterOf s.up.fwWords, ST.START_BOOT_ROLLBACK)]

/-- A slot's manifest, at the second stage's MANIFEST_OFF. -/
def State.slotManifest (s : State) (k : Nat) : Manifest :=
  s.manifest (s.flashOctets (4096 * fwPage k + leAt (s.fwOctets k) 12 4))

/-- Where an entry's image lies in the flash (Table 21.2). -/
def entryAddr (k : Nat) (e : ManEntry) : Nat := if e.typ = 6 then 4096 * prPage k else 4096 * fwPage k + e.offset

/-- An image in the flash has its entry's digest. -/
def State.imageGood (s : State) (k : Nat) (e : ManEntry) : Bool :=
  Config.sha3 (octetsAt (s.flashOctets (entryAddr k e)) 0 e.len) = e.digest

end Sys2Proof.Machine
end

