-- ==== Sys2Proof/Machine/Check.lean ====
section
/-!
DEFINITION. The checks of a pricking load: steps 1 to 5 of R40, with the status word and the location of the first failure
(R42, Tables 02.10 and 02.14).
-/
namespace Sys2Proof.Machine

/-- A failure of a load: its status word, its TYPE and OFFSET (Table 02.14). -/
structure LoadFault where
  status : Nat
  typ    : Nat
  offset : Nat
  deriving DecidableEq, Repr

/-- The offset of a field whose rule is broken. -/
def badAt (c : Bool) (off : Nat) : List Nat := if c then [off] else []

/-- Occurrences of an element before place `i` of a list. -/
def seenBefore (l : List Nat) (i x : Nat) : Bool := (l.take i).contains x

/-! ### Steps 1 to 4 -/

/-- The header's checks (Table 02.1), in the order of its fields. Header bytes 18 and 19 that are not 0 fail step 1 at TYPE 0,
OFFSET 18 (DESIGN CHOICE: Table 02.1 asks for 0 there and Table 02.14 lists no location for it). -/
def headerFault (p : Pricking) : Option LoadFault :=
  let h := p.header
  (firstFail [
    (h.magic != 0x4B435250, 0), (h.format != 1, 4), (h.hdrLen != 64, 6),
    (1048576 < h.totalLen || h.totalLen % 4 != 0, 8), (h.part != 0x4820, 12), (0xB0 < h.minRev, 16),
    (p.reservedBad.any (fun x => x.1 == 0), 18)]).map
    (fun off => ⟨if off = 12 || off = 16 then ST.PRICKING_PART else ST.PRICKING_FORMAT, 0, off⟩)

/-- The payload length that a section's layout fixes (Table 02.2). -/
def prSectLen (p : Pricking) (typ : Nat) : Option Nat :=
  let counted := fun (n lo hi len : Nat) => if lo ≤ n && n ≤ hi then some len else none
  if typ = 1 then some 984
  else if typ = 2 then counted p.roles.length 1 8 (4 + 1348 * p.roles.length)
  else if typ = 3 then counted p.profiles.length 1 16 (4 + 32 * p.profiles.length)
  else if typ = 4 then some 256
  else if typ = 5 then some 88
  else if typ = 6 then
    if 1 ≤ p.queues.length && p.queues.length ≤ 256 && 1 ≤ p.producers.length && p.producers.length ≤ 1024 then
      some (8 + 16 * p.queues.length + 8 * p.producers.length)
    else none
  else if typ = 7 then some 192
  else if typ = 8 then some 848
  else if typ = 9 then counted p.pans.length 1 16 (4 + 16 * p.pans.length)
  else if typ = 10 then some 12
  else if typ = 11 then some 24
  else none

/-- The first section header that is broken: unknown TYPE, FLAGS not 0, a wrong LENGTH, out of order or repeated (R26). -/
def prBadHeader (p : Pricking) : Nat → List SectHdr → Option Nat
  | _, [] => none
  | prev, h :: hs =>
    if h.typ = 0 || 11 < h.typ || h.flags ≠ 0 || prSectLen p h.typ ≠ some h.length || h.typ ≤ prev then some h.offset
    else prBadHeader p h.typ hs

/-- Octets that a section takes with its header and padding. -/
def sectOctets (len : Nat) : Nat := 8 + divUp len 4 * 4

/-- Step 2 of R40. -/
def prFramingFault (p : Pricking) : Option LoadFault :=
  let fmt := fun (typ off : Nat) => some (LoadFault.mk ST.PRICKING_FORMAT typ off)
  match p.readFail with
  | some off => some ⟨ST.PRICKING_READ, 0xFFC, off⟩
  | none =>
    match prBadHeader p 0 p.sections with
    | some off => fmt 0xFFE off
    | none =>
      if p.sections.length ≠ p.header.sectCount then fmt 0 17
      else match (List.range 10).find? (fun k => p.sections.all (fun h => h.typ != k + 1)) with
        | some k => fmt 0xFFD (k + 1)
        | none =>
          if p.sig.typ ≠ 0xFFFF then fmt 0xFFF 0
          else if p.sig.flags ≠ 0 then fmt 0xFFF 2
          else if p.sig.length ≠ 2456 then fmt 0xFFF 4
          else if p.header.totalLen ≠ p.sections.foldl (fun n h => n + sectOctets h.length) 64 + 2464 then fmt 0 8
          else if !p.header.digestOk then fmt 0 32
          else none

/-- Steps 3 and 4 of R40; `counter` is the anti-rollback counter for prickings. The two bytes after ALG that are not 0 fail as
ST_PRICKING_SIGNATURE at their place, TYPE 0xFFF, OFFSET 42 (DESIGN CHOICE: R27 asks for 0 there; the spec gives neither a
status nor a location). -/
def State.signFault (s : State) (p : Pricking) (counter : Nat) : Option LoadFault :=
  if !s.signerOk p.sig.signer then some ⟨ST.PRICKING_SIGNER, 0xFFF, 8⟩
  else if p.sig.alg ≠ 0x44 then some ⟨ST.PRICKING_SIGNATURE, 0xFFF, 40⟩
  else if p.reservedBad.any (fun x => x.1 == 0xFFF) then some ⟨ST.PRICKING_SIGNATURE, 0xFFF, 42⟩
  else if !p.sig.sigOk then some ⟨ST.PRICKING_SIGNATURE, 0xFFF, 44⟩
  else if p.header.version < counter then some ⟨ST.PRICKING_ROLLBACK, 0, 20⟩
  else none

/-! ### Step 5: each section's own rules -/

/-- Described layouts of each block of Table 14.8, in its order: the instances after them are reserved (R332). -/
def visDescribed : List Nat := [5, 13, 10, 9, 9, 6, 23, 22, 22, 22, 22, 6, 26, 14, 28, 12, 14, 15, 12, 8, 8, 14, 10, 12]

/-- The instances that belong to reserved layouts, and those of the KEY, TAMPER, ROLE, PAIR and UPDATE blocks. -/
def visReserved : List Nat :=
  (visBlocks.zip visDescribed).flatMap (fun (x : (Nat × Nat × Nat) × Nat) =>
    if x.1.2.2 = 1 then (List.range (x.1.2.1 - x.2)).map (fun k => visBase x.1.1 visBlocks + x.2 + k) else [])
def visSecret (i : Nat) : Bool := visBase 0x2014 visBlocks ≤ i && i < visBase 0x2019 visBlocks

/-- VIS (R29, R31, R332). -/
def visFaults (vis : List Nat) : List Nat :=
  vis.zipIdx.flatMap (fun (x : Nat × Nat) =>
    badAt ([1, 4, 16, 64].any (fun d => x.1 / d % 4 = 3) || (visSecret x.2 && x.1 / 64 ≠ 0) ||
      (x.1 ≠ 0 && visReserved.contains x.2)) x.2)

/-- ROLE (R32). -/
def roleFaults (l : List RoleRec) : List Nat :=
  l.zipIdx.flatMap (fun (x : RoleRec × Nat) =>
    let b := 4 + 1348 * x.2
    badAt (x.1.role = 0 || 3 < x.1.role) b ++ badAt (!x.1.keyOk) (b + 4))

/-- REGPROF (Table 02.3). -/
def profileFaults (l : List Profile) : List Nat :=
  l.zipIdx.flatMap (fun (x : Profile × Nat) =>
    let b := 4 + 32 * x.2
    let r := x.1
    badAt (r.highKhz ≤ r.lowKhz) (b + 4) ++ badAt (decide (r.maxPwr < -40) || decide (40 < r.maxPwr)) (b + 8) ++
    badAt (1 < r.lbt) (b + 9) ++ badAt (decide (r.ccaThr < -110) || decide (-50 < r.ccaThr)) (b + 10) ++
    badAt (r.ccaUs < 128 || 5000 < r.ccaUs) (b + 12) ++ badAt (1000 < r.offMs) (b + 14) ++
    badAt (r.onMs = 0 || 4000 < r.onMs) (b + 16) ++ badAt (r.duty = 0 || 10000 < r.duty) (b + 18) ++
    badAt (r.windowS = 0 || 86400 < r.windowS) (b + 20) ++ badAt (100000 < r.backoffUs) (b + 24))

/-- DRAM: the refresh slots (R33). -/
def dramFaults (l : List Nat) : List Nat :=
  l.zipIdx.flatMap (fun (x : Nat × Nat) => badAt (15 < x.1 || (x.1 = 15) != (248 ≤ x.2 : Bool)) x.2)

/-- The least and the greatest size of each region, in MB; 512 stands for no upper bound (R34). -/
def regionSizes : List (Nat × Nat) := [(64, 64), (8, 8), (1, 512), (4, 4), (8, 512), (0, 512), (1, 512), (4, 4)]

def mib : Nat := 0x100000

/-- TABLE (R34, R325). A region that passes the end of the DRAM is located at its base, not its size (DESIGN CHOICE: R34's
condition is on the region, and Table 02.14 names a field). -/
def tableFaults (t : TableSec) : List Nat :=
  badAt (t.nodeLimit = 0 || 262143 < t.nodeLimit) 0 ++ badAt (t.ageLimitS = 0 || 32768 < t.ageLimitS) 4 ++
  badAt (t.seed1 = t.seed0) 16 ++
  (t.regions.zip regionSizes).zipIdx.flatMap (fun (x : ((Nat × Nat) × (Nat × Nat)) × Nat) =>
    let (base, size) := x.1.1
    let o := 24 + 8 * x.2
    let hits := (t.regions.take x.2).any (fun r => r.2 ≠ 0 && size ≠ 0 && base < r.1 + r.2 && r.1 < base + size)
    badAt (base % mib ≠ 0 || 512 * mib < base + size || (size ≠ 0 && 511 * mib < base + size) || hits) o ++
    badAt (size % mib ≠ 0 || size < x.1.2.1 * mib || x.1.2.2 * mib < size) (o + 4))

/-- Endpoints as producers and as consumers (Table 13.1), UPL transmit endpoints, endpoints across clocks (R35). -/
def mayProduce (e : Nat) : Bool := e < 4 || (0x20 ≤ e && e < 0x24) || [0x30, 0x31, 0x48, 0x58, 0x61, 0x71].contains e
def uplSends (e : Nat) : Bool := (0x40 ≤ e && e < 0x48) || (0x50 ≤ e && e < 0x58)
def mayConsume (e : Nat) : Bool := e = 0x10 || (0x20 ≤ e && e < 0x24) || e = 0x30 || uplSends e || e = 0x60 || e = 0x70
def crosses (e : Nat) : Bool := [0x48, 0x58, 0x61, 0x71].contains e

/-- QUEUE (Table 02.5, R35, R293). A producer record that names a queue without a queue record is rejected at its queue number
(DESIGN CHOICE: no rule says so; the record would grant credits on a queue that does not exist). -/
def prQueueFaults (p : Pricking) : List Nat :=
  badAt (256 < p.orderedFlows) 4 ++
  p.queues.zipIdx.flatMap (fun (x : QueueRec × Nat) =>
    let b := 8 + 16 * x.2
    let r := x.1
    let async := p.producers.any (fun q => q.queue == r.queue && crosses q.ep)
    badAt (255 < r.queue || seenBefore (p.queues.map (·.queue)) x.2 r.queue) b ++ badAt (1 < r.mem) (b + 1) ++
    badAt (r.flags ≠ (if async then 1 else 0)) (b + 2) ++
    badAt (!mayConsume r.consumer || (uplSends r.consumer && seenBefore (p.queues.map (·.consumer)) x.2 r.consumer)) (b + 3) ++
    badAt (r.depth < 16 || 65536 < r.depth || popCount 17 r.depth ≠ 1) (b + 4) ++ badAt (r.depth < r.high) (b + 8) ++
    badAt (r.high ≤ r.low) (b + 10) ++ badAt (3 < r.fcp && r.fcp ≠ 0xFF) (b + 12) ++
    badAt (7 < r.pfc && r.pfc ≠ 0xFF) (b + 13)) ++
  p.producers.zipIdx.flatMap (fun (x : ProdRec × Nat) =>
    let b := 8 + 16 * p.queues.length + 8 * x.2
    badAt (!(p.queues.map (·.queue)).contains x.1.queue) b ++ badAt (!mayProduce x.1.ep) (b + 1) ++
    badAt (x.1.credits = 0 || 65535 < x.1.credits) (b + 2))

/-- HOOP (Table 02.6, R36). -/
def hoopFaults (l : List HoopRec) : List Nat :=
  l.zipIdx.flatMap (fun (x : HoopRec × Nat) =>
    let b := 48 * x.2
    let r := x.1
    let before := (l.take x.2).filter (fun h => h.kind != 0)
    let bobs := popCount 16 r.bobbins
    if r.kind = 0 then
      badAt (r.idleDiv ≠ 0) (b + 1) ++ badAt (r.bobbins ≠ 0) (b + 2) ++ badAt (r.prio ≠ 0) (b + 4) ++
      badAt (r.kinds ≠ 0) (b + 8) ++ badAt (r.extSigner ≠ 0) (b + 16)
    else
      badAt (3 < r.kind || ((r.kind = 1 || r.kind = 3) && before.any (fun h => h.kind == r.kind))) b ++
      badAt (r.idleDiv < 2 || 4 < r.idleDiv || (r.kind = 1 && r.idleDiv ≠ 2)) (b + 1) ++
      badAt (r.bobbins = 0 || before.any (fun h => h.bobbins &&& r.bobbins ≠ 0) ||
        (r.kind = 1 && (!bitOf r.bobbins 0 || bobs < 2)) || (r.kind = 3 && 4 < bobs)) (b + 2) ++
      badAt (before.any (fun h => h.kinds &&& r.kinds ≠ 0)) (b + 8) ++ badAt (r.kind ≠ 3 && r.extSigner ≠ 0) (b + 16))

/-- The tuning range of a band, kHz (Table 07.1). -/
def tuning (band : Nat) : Nat × Nat :=
  if band = 0 then (410000, 510000) else if band = 1 then (750000, 960000) else (2400000, 2483500)

/-- A capture span lies in a range. -/
def spanIn (r : TrxRec) (lo hi : Nat) : Bool :=
  2 * lo + r.spanKhz ≤ 2 * r.centreKhz && 2 * r.centreKhz + r.spanKhz ≤ 2 * hi

/-- A transceiver record's own rules (Table 02.7, R38). -/
def trxFaults (r : TrxRec) (n : Nat) : List Nat :=
  let b := 20 * n
  if r.present = 0 then
    badAt (r.band ≠ 0) (b + 1) ++ badAt (r.width ≠ 0) (b + 2) ++ badAt (r.aerials ≠ 0) (b + 3) ++
    badAt (r.centreKhz ≠ 0) (b + 4) ++ badAt (r.spanKhz ≠ 0) (b + 8) ++ badAt (r.lanes ≠ 0) (b + 12) ++
    badAt (r.profile ≠ 0) (b + 13) ++ badAt (r.maxPwr ≠ 0) (b + 14) ++ badAt (r.wake ≠ 0) (b + 15) ++
    badAt (r.coex ≠ 0) (b + 16)
  else
    let sub := n < 2
    let narrow := r.width = 0
    badAt (1 < r.present) b ++ badAt (if sub then 1 < r.band else r.band ≠ 2) (b + 1) ++ badAt (1 < r.width) (b + 2) ++
    badAt (r.aerials = 0 || 3 < r.aerials) (b + 3) ++ badAt (!spanIn r (tuning r.band).1 (tuning r.band).2) (b + 4) ++
    badAt ((if narrow then 2000 else if sub then 28000 else 84000) < r.spanKhz) (b + 8) ++
    badAt ((if narrow then 4 else if sub then 32 else 16) < r.lanes) (b + 12) ++
    badAt (decide (r.maxPwr < -40) || decide ((if sub then 40 else 24) < r.maxPwr)) (b + 14) ++ badAt (1 < r.wake) (b + 15) ++
    badAt (r.coex ≠ 0 && r.coex ≠ (if sub then 1 else 2)) (b + 16)

/-- The modes of a transceiver's plan lanes below lane `l`, each once (R220). -/
def prPlanModesBelow (p : Pricking) (n l : Nat) : List Nat :=
  (trxLanes n).foldl (fun acc k =>
    match p.lanes[k]? with
    | some r => if k < l && r.bind = 2 then withOne r.phyMode acc else acc
    | none => acc) []

/-- A lane record's own rules (R38, R172, R173, R220). -/
def prLaneFaults (p : Pricking) (r : LaneRec) (l : Nat) : List Nat :=
  let b := 80 + 8 * l
  let n := laneTrx l
  if r.bind = 0 then badAt (r.phyMode ≠ 0) (b + 2) ++ badAt (r.chanKhz ≠ 0) (b + 4)
  else
    match p.trxs[n]? with
    | none => [b]
    | some t =>
      let place := l - (trxLanes n).headD 0
      let same := (trxLanes n).any (fun k => k < l && (match p.lanes[k]? with
        | some o => o.bind == 1 && o.phyMode == r.phyMode && o.chanKhz == r.chanKhz
        | none => false))
      let modes := prPlanModesBelow p n l
      badAt (2 < r.bind || t.present ≠ 1 || t.lanes ≤ place) b ++
      badAt (!phyLegal r.phyMode || !phyBand r.phyMode t.band || (r.bind = 2 && modes.length = 4 && !modes.contains r.phyMode))
        (b + 2) ++
      badAt ((r.bind = 1 && (!inSpan t r.chanKhz (occKhz r.phyMode) || same)) || (r.bind = 2 && r.chanKhz ≠ 0)) (b + 4)

/-- MAC (Table 02.8, R217). -/
def macFaults (l : List PanRec) : List Nat :=
  l.zipIdx.flatMap (fun (x : PanRec × Nat) =>
    let b := 4 + 16 * x.2
    let r := x.1
    let tsch := r.access = 1
    let other := (l.take x.2).any (fun q => q.access == 1 && q.template < 6 && tplUs q.template 0 ≠ tplUs r.template 0)
    badAt (0xFFFD < r.panId || seenBefore (l.map (·.panId)) x.2 r.panId) b ++ badAt (1 < r.access) (b + 2) ++
    badAt (r.trxMask = 0 || 15 < r.trxMask) (b + 3) ++ badAt (7 < r.minSec) (b + 4) ++
    badAt (if tsch then r.ebPeriod = 0 else r.ebPeriod ≠ 0) (b + 6) ++
    badAt (if tsch then 5 < r.template || other else r.template ≠ 0) (b + 8) ++
    badAt (if tsch then r.slotframes = 0 || 8 < r.slotframes else r.slotframes ≠ 0) (b + 9) ++
    badAt (r.maxNodes = 0 || 65534 < r.maxNodes) (b + 10))

/-- TIME (Table 02.9). ITU-T G.8275.1 fixes domain numbers 24 to 43 and delay request-response (PRESUMED, log 39). -/
def timeFaults (t : TimeSec) : List Nat :=
  let tele := fun (d : Nat) => d < t.domains && bitOf t.profile d
  badAt (2 < t.domains) 0 ++ badAt (tele 0 && (t.dom1 < 24 || 43 < t.dom1)) 1 ++
  badAt ((t.domains = 2 && t.dom2 = t.dom1) || (tele 1 && (t.dom2 < 24 || 43 < t.dom2))) 2 ++ badAt (3 < t.profile) 3 ++
  badAt (3 < t.delay || [0, 1].any (fun d => tele d && bitOf t.delay d)) 4 ++
  badAt (63 < t.srcOrder || [0, 1, 2].any (fun c => !([t.srcOrder % 4, t.srcOrder / 4 % 4, t.srcOrder / 16 % 4].contains c))) 5 ++
  badAt (t.monPpm < 10 || 500 < t.monPpm) 6 ++ badAt (t.jumpNs < 100 || 1000000 < t.jumpNs) 8

/-- PAIR. -/
def pairFaults : Option PairSec → List Nat
  | none => []
  | some r => badAt (1 < r.pref) 0 ++ badAt (r.witPorts = 0 || 3 < r.witPorts) 1 ++ badAt (r.witUdp < 1024 || 65535 < r.witUdp) 2

/-- Every failure of a section's own rules, as (TYPE, OFFSET). -/
def prOwnFaults (p : Pricking) : List (Nat × Nat) :=
  p.reservedBad ++
  [(1, visFaults p.vis), (2, roleFaults p.roles), (3, profileFaults p.profiles), (4, dramFaults p.dram),
   (5, tableFaults p.table), (6, prQueueFaults p), (7, hoopFaults p.hoops),
   (8, p.trxs.zipIdx.flatMap (fun (x : TrxRec × Nat) => trxFaults x.1 x.2) ++
       p.lanes.zipIdx.flatMap (fun (x : LaneRec × Nat) => prLaneFaults p x.1 x.2)),
   (9, macFaults p.pans), (10, timeFaults p.time), (11, pairFaults p.pair)].flatMap
    (fun (x : Nat × List Nat) => x.2.map (fun o => (x.1, o)))

/-! ### Step 5: rules that join sections, judge a sum or require a presence -/

/-- The enabled requester classes (Table 14.4). -/
def prClassOn (p : Pricking) (c : Nat) : Bool :=
  if c = 2 then p.pans.any (fun r => r.access == 1)
  else if c = 5 then p.queues.any (fun r => r.mem == 1)
  else if c = 8 then p.pair.isSome
  else if c = 12 then p.hoops.any (fun r => r.kind == 2)
  else if c = 13 then p.hoops.any (fun r => r.kind == 3)
  else c < 14

/-- Class `c` owns a slot of bank `b`, and a run of its burst where R319 asks for one. -/
def ownsBank (sched : List Nat) (c b : Nat) : Bool :=
  let k := 2 ^ burstLog c
  let own := fun (n : Nat) => sched[n]? == some c
  (List.range 32).any (fun f => own (8 * f + b)) &&
  (k = 1 || b % k ≠ 0 || (List.range 32).any (fun f => (List.range k).all (fun i => own (8 * f + b + i))))

/-- R33 and R319: the lowest class, and in it the lowest bank, without its slots. -/
def prDramJoint (p : Pricking) : List Nat :=
  match (List.range 14).find? (fun c => prClassOn p c && (List.range 8).any (fun b => !ownsBank p.dram c b)) with
  | none => []
  | some c => match (List.range 8).find? (fun b => !ownsBank p.dram c b) with
    | some b => [b]
    | none => []

/-- Octets of the rings of the MEM 1 queues, and the packet buffers that a region leaves (R326). -/
def prDramRings (p : Pricking) : Nat := p.queues.foldl (fun n r => if r.mem = 1 then n + 16 * r.depth else n) 0
def prPacketBuffers (p : Pricking) : Nat :=
  min 65536 (((p.table.regions.getD 4 (0, 0)).2 - divUp (prDramRings p) 2048 * 2048) / 2048)

/-- TABLE: the mirror journal of a pair (R34), 1,024 packet buffers (R326). -/
def prTableJoint (p : Pricking) : List Nat :=
  badAt (p.pair.isSome && (p.table.regions.getD 5 (0, 0)).2 < 16 * mib) 68 ++ badAt (prPacketBuffers p < 1024) 60

/-- The producer record at which a queue's credits pass its DEPTH (R35), and the queue record at which the rings of the
MEM 0 queues pass 512 KB, taken in ascending queue number (R311). -/
def prQueueJoint (p : Pricking) : List Nat :=
  p.producers.zipIdx.flatMap (fun (x : ProdRec × Nat) =>
    let sum := (p.producers.take (x.2 + 1)).foldl (fun n r => if r.queue = x.1.queue then n + r.credits else n) 0
    match p.queues.find? (fun q => q.queue == x.1.queue) with
    | some q => badAt (q.depth < sum) (8 + 16 * p.queues.length + 8 * x.2 + 2)
    | none => []) ++
  p.queues.zipIdx.flatMap (fun (x : QueueRec × Nat) =>
    let upTo := fun (n : Nat) => p.queues.foldl (fun t r => if r.mem = 0 && r.queue < n then t + r.depth else t) 0
    badAt (x.1.mem = 0 && upTo x.1.queue ≤ 32768 && 32768 < upTo (x.1.queue + 1)) (8 + 16 * x.2 + 4))

/-- HOOP: a main hoop; the customer hoop's EXT_SIGNER is an installer's (R36). -/
def prHoopJoint (p : Pricking) : List Nat :=
  badAt (p.hoops.all (fun r => r.kind != 1)) 0 ++
  p.hoops.zipIdx.flatMap (fun (x : HoopRec × Nat) =>
    badAt (x.1.kind = 3 && !p.roles.any (fun r => r.role == 2 && r.digest == x.1.extSigner)) (48 * x.2 + 16))

/-- TRX: the band profile (R38, Table 02.7); plan lanes serve a TSCH PAN (R38). A capture span outside the band profile is
located at CENTRE_KHZ, as one outside the tuning range is (DESIGN CHOICE: the rule constrains CENTRE_KHZ and SPAN_KHZ
together). -/
def prTrxJoint (p : Pricking) : List Nat :=
  p.trxs.zipIdx.flatMap (fun (x : TrxRec × Nat) =>
    if x.1.present = 0 then []
    else match p.profiles[x.1.profile]? with
      | none => [20 * x.2 + 13]
      | some f => badAt (!spanIn x.1 f.lowKhz f.highKhz) (20 * x.2 + 4) ++ badAt (decide (f.maxPwr < x.1.maxPwr)) (20 * x.2 + 14)) ++
  p.lanes.zipIdx.flatMap (fun (x : LaneRec × Nat) =>
    badAt (x.1.bind = 2 && !p.pans.any (fun r => r.access == 1 && bitOf r.trxMask (laneTrx x.2))) (80 + 8 * x.2))

/-- MAC: transceivers present, the join queue (R35), MAX_NODES (R39), the carrier-sense window of a template (R217). -/
def prMacJoint (p : Pricking) : List Nat :=
  p.pans.zipIdx.flatMap (fun (x : PanRec × Nat) =>
    let b := 4 + 16 * x.2
    let r := x.1
    let sum := (p.pans.take (x.2 + 1)).foldl (fun n q => n + q.maxNodes) 0
    let short := (List.range 4).any (fun n =>
      bitOf r.trxMask n && (match p.trxs[n]? with
        | some t => match p.profiles[t.profile]? with
          | some f => t.present == 1 && f.lbt == 1 && tplUs r.template 2 < f.ccaUs
          | none => false
        | none => false))
    badAt ((List.range 4).any (fun n => bitOf r.trxMask n && (match p.trxs[n]? with | some t => t.present != 1 | none => true)))
      (b + 3) ++
    badAt (p.queues.all (fun q => q.queue != r.joinQ)) (b + 5) ++ badAt (r.access = 1 && short) (b + 8) ++
    badAt (p.table.nodeLimit < sum) (b + 10))

/-- Every failure of the other rules of step 5. -/
def prJointFaults (p : Pricking) : List (Nat × Nat) :=
  [(2, badAt (p.roles.all (fun r => r.role != 2)) 0), (4, prDramJoint p), (5, prTableJoint p), (6, prQueueJoint p), (7, prHoopJoint p),
   (8, prTrxJoint p), (9, prMacJoint p)].flatMap (fun (x : Nat × List Nat) => x.2.map (fun o => (x.1, o)))

/-- The lowest location of a list, by TYPE and then by OFFSET (R42). -/
def lowestLoc : List (Nat × Nat) → Option (Nat × Nat)
  | [] => none
  | x :: l => match lowestLoc l with
    | none => some x
    | some y => if x.1 < y.1 || (x.1 = y.1 && x.2 ≤ y.2) then some x else some y

/-- Step 5 of R40. -/
def prRuleFault (p : Pricking) : Option LoadFault :=
  match lowestLoc (prOwnFaults p) with
  | some l => some ⟨ST.PRICKING_RULE, l.1, l.2⟩
  | none => (lowestLoc (prJointFaults p)).map (fun l => ⟨ST.PRICKING_RULE, l.1, l.2⟩)

/-- Steps 1 to 5 of R40: the first failure, none where the pricking is accepted. A page that cannot be read fails step 1
where it is the header's. -/
def State.loadFault (s : State) (p : Pricking) (counter : Nat) : Option LoadFault :=
  if p.readFail = some 0 then some ⟨ST.PRICKING_READ, 0xFFC, 0⟩
  else (headerFault p).orElse fun _ =>
    (prFramingFault p).orElse fun _ => (s.signFault p counter).orElse fun _ => prRuleFault p

end Sys2Proof.Machine
end

