-- ==== Sys2Proof/Machine/Update.lean ====
section
/-!
DEFINITION. Updating the device (21_update.md): the session, staging, activation, the trial and its decision.
-/
namespace Sys2Proof.Machine

/-! ### The manifest's form (R463, R464) -/

/-- The octets of a firmware slot. -/
def fwSlotOctets : Nat := 4096 * 6144

/-- An entry breaks Table 21.2. -/
def entryBad (pairFlag : Bool) (e : ManEntry) : Bool :=
  e.typ = 0 || 7 < e.typ || (if e.typ = 6 && pairFlag then 2 < e.unit_ else e.unit_ ≠ 0) ||
  (if e.typ = 2 then !(e.dest = 1 || e.dest = 2) else if e.typ = 3 then e.dest ≠ 3
   else if e.typ = 4 then e.dest = 0 || 16 ≤ e.dest else e.dest ≠ 0) ||
  e.offset % 4096 ≠ 0 || ((e.typ = 1 || e.typ = 6) && e.offset ≠ 0) ||
  (if e.typ = 6 then 256 * 4096 < e.len else fwSlotOctets < e.offset + e.len) || (e.typ = 1 && 0x100000 < e.len) ||
  (if e.typ = 7 then !(inFirmwareArea e.load || inDram e.load) else e.load ≠ 0)

/-- Two entries' images overlap in the firmware slot. -/
def entriesMeet (a b : ManEntry) : Bool := a.offset < b.offset + b.len && b.offset < a.offset + a.len

/-- No two of a list meet. -/
def apart : List ManEntry → Bool
  | [] => true
  | e :: l => l.all (fun f => !entriesMeet e f) && apart l

/-- How many entries a test picks. -/
def Manifest.count (m : Manifest) (p : ManEntry → Bool) : Nat := (m.entries.filter p).length

/-- The manifest is malformed by what it holds itself (R463, R464). -/
def Manifest.formBad (m : Manifest) : Bool :=
  let pairFlag := bitOf m.flags 0
  m.magic ≠ 0x54464E4D || m.format ≠ 1 || m.hdrLen ≠ 64 || m.totalLen ≠ 64 + 48 * m.entries.length + 2464 ||
  m.part ≠ 0x4820 || 0xB0 < m.minRev || m.entries.length < 5 || 32 < m.entries.length || 1 < m.flags || !m.reservedOk ||
  m.entries.any (entryBad pairFlag) || m.count (fun e => e.typ == 1) ≠ 1 ||
  m.count (fun e => e.typ == 2 && e.dest == 1) ≠ 1 || 1 < m.count (fun e => e.typ == 2 && e.dest == 2) ||
  (List.range 4).any (fun n => decide (1 < m.count (fun e => e.typ == 4 && bitOf e.dest n))) ||
  m.count (fun e => e.typ == 5) ≠ 1 ||
  (if pairFlag then m.count (fun e => e.typ == 6 && e.unit_ == 1) ≠ 1 || m.count (fun e => e.typ == 6 && e.unit_ == 2) ≠ 1 ||
      m.count (fun e => e.typ == 6) ≠ 2
   else m.count (fun e => e.typ == 6) ≠ 1) ||
  !apart (m.entries.filter (fun e => e.typ != 6 && e.len != 0))

/-- The manifest is malformed (R463, R464): the hoops and transceivers are those of the pricking in force. -/
def State.manifestBad (s : State) (m : Manifest) : Bool :=
  let service := s.pr.hoops.any (fun h => h.kind == 2)
  m.formBad || m.count (fun e => e.typ == 2 && e.dest == 2) ≠ (if service then 1 else 0) ||
  (List.range 4).any (fun n => (s.trxRec n).isSome && m.count (fun e => e.typ == 4 && bitOf e.dest n) ≠ 1)

/-! ### Begin (R469, R470) -/

/-- The manifest that octets hold; octets that are not its TOTAL_LEN are malformed. -/
def State.offered (s : State) (raw : List Byte) : Manifest :=
  let m := s.manifest (listOctets raw)
  if raw.length = m.totalLen then m else { m with magic := 0 }

/-- The checks of R469 in order, for a holder: a credential, or none for the peer. -/
def State.beginFault (s : State) (holder : Option Nat) (m : Manifest) : Option Nat :=
  let held := match s.up.session with | some v => v.holder != holder | none => false
  firstFail [
    (s.slotRec.trial ≠ 0, ST.UPDATE_STATE), (held, ST.UPDATE_BUSY), (s.manifestBad m, ST.UPDATE_MANIFEST),
    (!s.signerOk m.signer, ST.UPDATE_SIGNER), (!m.sigOk, ST.UPDATE_SIGNATURE),
    (m.rollback < counterOf s.up.fwWords, ST.UPDATE_ROLLBACK), (bitOf m.flags 0 != s.pairOn, ST.UPDATE_MANIFEST)]

/-- A begin that passes: the target slot is EMPTY, both its slots are erased, the session is the holder's (R469). -/
def State.upTake (s : State) (holder : Option Nat) (raw : List Byte) (m : Manifest) : State :=
  let k := s.upSlot
  let s := ((s.putRec (s.slotRec.setState k 0)).erasePages (fwPage k) 6144).erasePages (prPage k) 256
  { s with up := { s.up with session := some { holder := holder, man := m, raw := raw, at_ := s.mtb }, stager := none, resultTo := none } }

/-- UPDATE_BEGIN: update operation 1 with the manifest's octets; in a pair the manifest goes to the peer too. -/
def execUpdateBegin (ticket : Nat) (manifest : List Byte) (t : Nat) (s : State) : Res :=
  let s := s.advance t
  match s.openCall ticket svcUpdate 1 with
  | none => .next s
  | some tk =>
    let m := s.offered manifest
    .next (s.audited ⟨8, tk.role, 0, tk.cred, upTarget 1 s.upSlot, 0, mdigOf m.digest⟩
      (fun s => s.finishCall ticket ST.ROLE_AUDIT_BUSY [])
      (fun s =>
        match s.beginFault (some tk.cred) m with
        | some st => (s.raiseIf (st == ST.UPDATE_BUSY) R.UPDATE_EVENT_BUSY_REFUSED).finishCall ticket st []
        | none =>
          let s := s.upTake (some tk.cred) manifest m
          let s := if s.upLink then s.amrekOut 0x10 (nats manifest) else s
          s.finishCall ticket ST.OK [(20, [m.digest]), (21, [s.upSlot])]))

/-- UPDATE_OFFER_RX: an OFFER takes the session for the peer, under the checks of R469 (Table 21.6, R470). -/
def execUpdateOfferRx (manifest : List Byte) (t : Nat) (s : State) : Res :=
  let s := s.advance t
  if !s.upLink then .next s
  else
    let m := s.offered manifest
    let st := match s.beginFault none m with | some st => st | none => ST.OK
    let s := s.auditNote ⟨8, 0, st, 0, upTarget 1 s.upSlot, 0, mdigOf m.digest⟩
    if st = ST.OK then .next (s.upTake none manifest m)
    else .next (s.raiseIf (st == ST.UPDATE_BUSY) R.UPDATE_EVENT_BUSY_REFUSED)

/-! ### Writes (R471) -/

/-- The entries a unit holds itself: those for every unit, and the pricking for its own PREF. -/
def State.isOurs (s : State) (e : ManEntry) : Bool :=
  e.unit_ = 0 || (match s.pr.pair with | some p => e.unit_ == p.pref + 1 | none => false)

/-- The page at which an entry's image begins in the target slot. -/
def State.entryPage (s : State) (e : ManEntry) : Nat := entryAddr s.upSlot e / 4096

/-- How many octets of an entry a session holds. -/
def UpSession.heldOf (v : UpSession) (i : Nat) : Nat := Store.get (fun _ => 0) v.held i

/-- Why a write to an entry is not made (R471), ST_OK for the repetition of the last one; `cap` is the most octets a write
takes. -/
def State.writeFault (s : State) (holder : Option Nat) (i off : Nat) (data : List Byte) (cap : Nat) : Option Nat :=
  if data.isEmpty || cap < data.length then some ST.UPDATE_RANGE
  else match s.up.session with
    | none => some ST.UPDATE_STATE
    | some v =>
      if v.holder ≠ holder then some ST.UPDATE_BUSY
      else if v.waiting.isSome then some ST.UPDATE_STATE
      else match v.man.entries[i]? with
        | none => some ST.UPDATE_RANGE
        | some e =>
          if Store.find? i v.lastOff = some off && Store.find? i v.lastDat = some data then some ST.OK
          else if off ≠ v.heldOf i || e.len < off + data.length then some ST.UPDATE_RANGE
          else none

/-- A write that is made: each complete page of an entry of the unit's own is programmed; `flashOk`: within two tries. -/
def State.upWrite (s : State) (i off : Nat) (data : List Byte) (flashOk : Bool) : State :=
  match s.up.session with
  | none => s
  | some v =>
    match v.man.entries[i]? with
    | none => s
    | some e =>
      let had := Store.get (fun _ => ([] : List Byte)) v.page i
      let buf := had ++ data
      let n := if s.isOurs e then buf.length / 4096 else 0
      let page := s.entryPage e + (off - had.length) / 4096
      if 0 < n && !flashOk then s.sessionAbort ST.UPDATE_FLASH
      else
        let s := if 0 < n then s.programPages page n (buf.take (4096 * n)) else s
        let rest := if s.isOurs e then buf.drop (4096 * n) else []
        { s with up := { s.up with session := some { v with
            held := Store.set (fun _ => 0) v.held i (off + data.length), lastOff := Store.put i off v.lastOff,
            lastDat := Store.put i data v.lastDat, page := Store.set (fun _ => []) v.page i rest, at_ := s.mtb } } }

/-- UPDATE_WRITE: update operation 2; the octets go on to the peer. -/
def execUpdateWrite (ticket entry off : Nat) (data : List Byte) (flashOk : Bool) (t : Nat) (s : State) : Res :=
  let s := s.advance t
  match s.openCall ticket svcUpdate 2 with
  | none => .next s
  | some tk =>
    let held (s : State) : Nat := match s.up.session with | some v => v.heldOf entry | none => 0
    match s.writeFault (some tk.cred) entry off data 1024 with
    | some st => .next (s.finishCall ticket st (if st = ST.OK then [(20, [held s])] else []))
    | none =>
      let s := s.upWrite entry off data flashOk
      if s.up.session.isNone then .next (s.finishCall ticket ST.UPDATE_FLASH [])
      else
        let s := if s.upLink then s.amrekOut 0x11 ([entry, 0, 0, 0] ++ nats (leBytes 4 off ++ data)) else s
        .next (s.finishCall ticket ST.OK [(20, [held s])])

/-! ### Finish (R472, R478) -/

/-- An entry is held whole and, where it is the unit's own, reads back with its digest. -/
def State.entryGood (s : State) (v : UpSession) (i : Nat) (e : ManEntry) : Bool :=
  v.heldOf i = e.len && (!s.isOurs e || s.imageGood s.upSlot e)

/-- The last page of each entry is programmed. -/
def State.upLastPages (s : State) (v : UpSession) : State :=
  s.each v.page (fun s (x : Nat × List Byte) =>
    match v.man.entries[x.1]? with
    | none => s
    | some e => s.programPages (s.entryPage e + v.heldOf x.1 / 4096) 1 x.2)

/-- The staged pricking as the flash holds it. -/
def State.staged (s : State) : Pricking := s.pricking (s.prOctets s.upSlot) none

/-- Every entry is good, and the staged pricking passes steps 1 to 5 of R40. -/
def State.stagedGood (s : State) (v : UpSession) : Bool :=
  (List.range v.man.entries.length).all (fun i =>
    match v.man.entries[i]? with | some e => s.entryGood v i e | none => false) &&
  (s.loadFault s.staged (counterOf s.up.prWords)).isNone

/-- An end of RESULT that is not known yet. -/
def noEnd : Nat := 2 ^ 64

/-- The slot is STAGED (R472): the manifest stands in the slot, the slot record holds its digest and version, the session
ends; on a unit of a pair RESULT is sent from now on. -/
def State.upStaged (s : State) (v : UpSession) (keepsSd : Bool) : State :=
  let k := s.upSlot
  let m := v.man
  let r := s.slotRec.setState k 1
  let s := s.putRec { r with versions := r.versions.set k m.version, mdigs := r.mdigs.set k (mdigOf m.digest) }
  let s := s.programPages (fwPage k + leAt (s.fwOctets k) 12 4 / 4096) (divUp v.raw.length 4096) v.raw
  let s := { s with up := { s.up with
    session := none, rolls := s.up.rolls.set k m.rollback, stager := v.holder, keepsSd := keepsSd, result := 1,
    resultTo := if s.pairOn then some noEnd else none } }
  let s := s.raise R.UPDATE_EVENT_STAGED
  match v.waiting with
  | some ticket => s.finishCall ticket ST.OK [(20, [m.entries.length])]
  | none => s

/-- The peer's RESULT says STAGED with a manifest's digest. -/
def State.peerStaged (s : State) (dig : Nat) : Bool := s.up.peer = some (dig, 1)

/-- A finish whose entries are good: the unit that forwards waits for its peer (R478). -/
def State.upFinish (s : State) (v : UpSession) (ticket : Option Nat) : State :=
  let v := { v with waiting := ticket }
  let keeps : Bool := s.staged.header.structDigest = s.pr.header.structDigest
  if s.pairOn && v.holder.isSome && !s.peerStaged (mdigOf v.man.digest) then
    { s with up := { s.up with session := some v, keepsSd := keeps } }
  else s.upStaged v keeps

/-- UPDATE_FINISH: update operation 3; `flashOk`: the last pages are programmed within two tries. -/
def execUpdateFinish (ticket : Nat) (flashOk : Bool) (t : Nat) (s : State) : Res :=
  let s := s.advance t
  match s.openCall ticket svcUpdate 3 with
  | none => .next s
  | some tk =>
    match s.up.session with
    | none => .next (s.finishCall ticket ST.UPDATE_STATE [])
    | some v =>
      if v.holder ≠ some tk.cred then .next (s.finishCall ticket ST.UPDATE_BUSY [])
      else if v.waiting.isSome then .next (s.finishCall ticket ST.UPDATE_STATE [])
      else if !v.page.isEmpty && !flashOk then .next ((s.sessionAbort ST.UPDATE_FLASH).finishCall ticket ST.UPDATE_FLASH [])
      else
        let s := s.upLastPages v
        if s.stagedGood v then .next (s.upFinish v (some ticket))
        else .next (s.finishCall ticket ST.UPDATE_DIGEST [])

/-- UPDATE_DATA_RX: a DATA frame writes to the peer's session; with the last octet of the last entry it finishes by itself
(notes/assumptions/40.md). -/
def execUpdateDataRx (entry off : Nat) (data : List Byte) (flashOk : Bool) (t : Nat) (s : State) : Res :=
  let s := s.advance t
  if !s.upLink || (s.writeFault none entry off data 4088).isSome then .next s
  else
    let s := s.upWrite entry off data flashOk
    match s.up.session with
    | none => .next s
    | some v =>
      let whole := (List.range v.man.entries.length).all (fun i =>
        match v.man.entries[i]? with | some e => !s.isOurs e || v.heldOf i == e.len | none => true)
      if !whole then .next s
      else if !v.page.isEmpty && !flashOk then .next (s.sessionAbort ST.UPDATE_FLASH)
      else
        let s := s.upLastPages v
        let ours := (List.range v.man.entries.length).all (fun i =>
          match v.man.entries[i]? with | some e => !s.isOurs e || s.entryGood v i e | none => true)
        if ours && (s.loadFault s.staged (counterOf s.up.prWords)).isNone then .next (s.upFinish v none) else .next s

/-! ### Activation (R473, R478) -/

/-- Steps 1 and 3 of R473: the trial's record, the other settings area erased, a warm reset. -/
def State.upActivate (s : State) (window : Nat) : State :=
  let k := s.upSlot
  let r := s.slotRec.setState k 2
  let area := 1 - r.settings.getD r.primary 0
  let s := s.putRec { r with trial := k + 1, tries := s.getF R.UPDATE_CFG_TRIES, windowS := window, settings := r.settings.set k area }
  let s := s.erasePages (settingsPage area) 1024
  ({ s with up := { s.up with other := [], otherCreds := none, pairWait := 0, result := 2 } }).requestWarm 4

/-- The SEQ of the audit record just made: a checkpoint may have followed it. -/
def State.lastSeq (s : State) : Nat := if s.ro.ckptSeq = s.ro.seq then s.ro.seq - 1 else s.ro.seq

/-- The digest that a slot's manifest has. -/
def State.slotDig (s : State) (k : Nat) : Nat := s.slotRec.mdigs.getD k 0

/-- The pair's condition of R478: ACTIVE, the peer STANDBY and STAGED with the same manifest, the tie link up. -/
def State.pairReady (s : State) : Bool :=
  s.pairRole = 1 && s.getF R.PAIR_STATE_PEER_ROLE = 2 && s.upLink && s.peerStaged (s.slotDig s.upSlot)

/-- UPDATE_ACTIVATE: update operation 4 (R473). In a pair the standby goes first (R478). The result is never ready. -/
def execUpdateActivate (ticket : Nat) (window : Option Nat) (s : State) : Res :=
  match s.openCall ticket svcUpdate 4 with
  | none => .next s
  | some tk =>
    let w := match window with | some w => w | none => s.getF R.UPDATE_CFG_WINDOW_S
    let k := s.upSlot
    .next (s.audited ⟨8, tk.role, 0, tk.cred, upTarget 4 k, w, s.slotDig k⟩ (fun s => s.finishCall ticket ST.ROLE_AUDIT_BUSY [])
      (fun s =>
        match firstFail [
            (w < 10 || 3600 < w, ST.UPDATE_RANGE),
            (s.slotState k ≠ 1 || s.slotRec.trial ≠ 0 || s.up.stager ≠ some tk.cred, ST.UPDATE_STATE),
            (s.pairOn && !s.pairReady, ST.UPDATE_PEER)] with
        | some st => s.finishCall ticket st []
        | none =>
          let s := { s with up := { s.up with actSeq := s.lastSeq, windowS := w } }
          if s.pairOn then
            (({ s with up := { s.up with pairWait := 1 } }).amrekOut 0x13
              (octs 8 (s.slotDig k) ++ nats (leBytes 2 w ++ leBytes 6 0))).answer ST.OK
          else (s.upActivate w).answer ST.OK))

/-- An activation that no call asks for at this moment: recorded (R480). -/
def State.upActivateNow (s : State) (window : Nat) : State :=
  let s := s.auditNote ⟨8, 0, 0, 0, upTarget 4 s.upSlot, window, s.slotDig s.upSlot⟩
  ({ s with up := { s.up with actSeq := s.lastSeq } }).upActivate window

/-- UPDATE_ACTIVATE_RX: the standby activates (R478). -/
def execUpdateActivateRx (mdig : BitVec 64) (window : Nat) (s : State) : Res :=
  if s.upLink && s.pairRole = 2 && s.slotState s.upSlot = 1 && s.slotRec.trial = 0 && s.slotDig s.upSlot = mdig.toNat &&
      10 ≤ window && window ≤ 3600 then .next (s.upActivateNow window)
  else .next s

/-! ### Trial (R474 to R476, R479) -/

/-- A counter is raised: the next word is written, unless all 64 are (R476). -/
def State.raiseCounter (s : State) (fw : Bool) (v : Nat) : State :=
  let words := if fw then s.up.fwWords else s.up.prWords
  if v ≤ counterOf words then s
  else if 64 ≤ words.length then s.raise R.UPDATE_EVENT_ROLLBACK_SPENT
  else if fw then { s with up := { s.up with fwWords := words ++ [v] } }
  else { s with up := { s.up with prWords := words ++ [v] } }

/-- RESULT is sent until 10 s after a decision, on a unit of a pair (Table 21.6). -/
def State.upDecided (s : State) (result : Nat) : State :=
  { s with up := { s.up with
    result := result, resultTo := if s.pairOn || s.up.resultTo.isSome then some (s.mtb + 10 * secCyc) else none,
    trialAt := none, okAt := none, pairWait := 0 } }

/-- The trial commits (R475). -/
def State.upCommit (s : State) : State :=
  let k := s.upSlot
  let r := s.slotRec
  let s := s.putRec { (r.setState k 4).setState r.primary 5 with primary := k, trial := 0 }
  let s := (s.raiseCounter true (s.up.rolls.getD k 0)).raiseCounter false s.pr.header.version
  let s := s.auditNote ⟨8, 0, 0, 0, upTarget 0 k, s.up.actSeq, s.slotDig k⟩
  ((s.setF R.UPDATE_TRIAL_LAST ST.OK).raise R.UPDATE_EVENT_COMMITTED).upDecided 4

/-- The trial falls back (R474), with a warm reset when the trial image runs. -/
def State.upFallback (s : State) : State :=
  let k := s.upSlot
  let runs := s.onTrial && (s.running || s.starting)
  let s := s.putRec { s.slotRec.setState k 6 with trial := 0 }
  let s := s.auditNote ⟨8, 0, ST.UPDATE_FALLBACK, 0, upTarget 0 k, s.up.actSeq, s.ro.seq⟩
  let s := ((s.setF R.UPDATE_TRIAL_LAST ST.UPDATE_FALLBACK).raise R.UPDATE_EVENT_FALLBACK).upDecided 6
  if runs then s.requestWarm 4 else s

/-- The trial window is over: it does not run while the device is halted (R474). -/
def State.windowOver (s : State) : Bool :=
  match s.up.trialAt with
  | none => false
  | some a => s.su.heldFrom.isNone && a + s.slotRec.windowS * secCyc + s.up.heldCyc ≤ s.mtb

/-- The state that a RESULT of the peer for this unit's image gave. -/
def State.peerSays (s : State) (st : Nat) : Bool := s.up.peer = some (s.slotDig s.upSlot, st)

/-- This unit takes part in a pair's activation: it waits for its turn, is on trial or is TRIAL_OK. -/
def State.upInPlay (s : State) : Bool := s.up.pairWait ≠ 0 || s.onTrial

/-- R479: what the unit with PREF 0 decides, and what the other follows. -/
def State.pairDecide (s : State) : State :=
  let own := s.slotState s.upSlot
  let first : Bool := match s.pr.pair with | some p => p.pref == 0 | none => true
  if !s.pairOn || !s.upInPlay then s
  else if first then
    if s.peerSays 6 then s.upFallback
    else if own = 3 && s.peerSays 3 then s.upCommit
    else if own = 2 && s.windowOver then s.upFallback
    else if own = 3 && s.peerSays 1 &&
        (match s.up.okAt with | some a => a + s.slotRec.windowS * secCyc < s.mtb | none => false) then s.upFallback
    else s
  else if s.peerSays 4 then s.upCommit
  else if s.peerSays 6 then s.upFallback
  else if own = 2 && s.windowOver then s.upFallback
  else if own = 3 && s.windowOver then s.raise R.UPDATE_EVENT_UNDECIDED
  else s

/-- A refusal of the UPDATE block (R480). -/
def State.updateRefuse (s : State) (st : Nat) : State := s.refuse R.UPDATE_CMD_ERR_STATUS st

/-- A trial image runs. -/
def State.trialRuns (s : State) : Bool := s.onTrial && s.running

/-- A write of UPDATE_CTRL.CONFIRM (R475, R479). -/
def State.upConfirm (s : State) (mainHoop : Bool) : State :=
  if !mainHoop || !s.trialRuns then s.updateRefuse ST.UPDATE_STATE
  else if !s.pairOn then s.upCommit.answer ST.OK
  else if s.slotState s.upSlot = 3 then s.answer ST.OK
  else
    let s := s.putRec (s.slotRec.setState s.upSlot 3)
    ({ s with up := { s.up with okAt := some s.mtb, result := 3 } }).pairDecide.answer ST.OK

/-- A write of UPDATE_CTRL.REJECT (R474). -/
def State.upReject (s : State) (mainHoop : Bool) : State :=
  if !mainHoop || !s.trialRuns then s.updateRefuse ST.UPDATE_STATE else s.upFallback.answer ST.OK

/-- UPDATE_CONFIRM and UPDATE_REJECT: firmware writes UPDATE_CTRL, recorded (R433). -/
def execUpdateConfirm (mainHoop : Bool) (t : Nat) (s : State) : Res :=
  .next ((s.advance t).recorded ⟨0, 0⟩ R.UPDATE_CTRL 1 R.UPDATE_CMD_ERR_STATUS (fun s => s.upConfirm mainHoop))
def execUpdateReject (mainHoop : Bool) (t : Nat) (s : State) : Res :=
  .next ((s.advance t).recorded ⟨0, 0⟩ R.UPDATE_CTRL 2 R.UPDATE_CMD_ERR_STATUS (fun s => s.upReject mainHoop))

/-- TRIAL_WINDOW_EXPIRY: the window ends without CONFIRM (R474); in a pair R479 says what follows. -/
def execTrialWindowExpiry (t : Nat) (s : State) : Res :=
  let s := s.advance t
  if !s.trialRuns || !s.windowOver then .next s
  else if s.pairOn then .next s.pairDecide
  else .next s.upFallback

/-- UPDATE_ABORT: update operation 5 (R471). -/
def execUpdateAbort (ticket : Nat) (s : State) : Res :=
  match s.openCall ticket svcUpdate 5 with
  | none => .next s
  | some tk =>
    match s.up.session with
    | none => .next (s.finishCall ticket ST.UPDATE_STATE [])
    | some v =>
      if v.holder ≠ some tk.cred then .next (s.finishCall ticket ST.UPDATE_BUSY [])
      else .next ((s.sessionAbort ST.UPDATE_ABORTED).finishCall ticket ST.OK [])

/-- UPDATE_STATE.PHASE. -/
def State.trialPhase (s : State) : Nat :=
  if !s.onTrial then 0 else if s.slotState s.upSlot = 3 then (if s.windowOver then 3 else 2) else 1

/-- UPDATE_STATE.HOLDER. -/
def State.upHolder (s : State) : Nat :=
  match s.up.session with
  | none => 0
  | some v => if v.holder.isSome then 1 else 2

/-- UPDATE_STATUS: update operation 6. -/
def execUpdateStatus (ticket : Nat) (s : State) : Res :=
  match s.openCall ticket svcUpdate 6 with
  | none => .next s
  | some _ => .next (s.finishCall ticket ST.OK
      [(20, s.slotRec.states), (21, [s.trialPhase]), (22, s.slotRec.versions), (23, [s.upHolder])])

/-- UPDATE_SESSION_IDLE: IDLE_S passes without a write (R471). -/
def execUpdateSessionIdle (t : Nat) (s : State) : Res :=
  let s := s.advance t
  match s.up.session with
  | none => .next s
  | some v =>
    if v.waiting.isNone && v.at_ + s.getF R.UPDATE_CFG_IDLE_S * secCyc ≤ s.mtb then .next (s.sessionAbort ST.UPDATE_ABORTED)
    else .next s

/-- The active unit's turn (R478): its own activation once the standby is TRIAL_OK and, when the new pricking keeps
STRUCT_DIGEST, is STANDBY again. -/
def State.pairTurn (s : State) : State :=
  let s := if s.up.pairWait = 1 && s.peerSays 3 then { s with up := { s.up with pairWait := 2 } } else s
  if s.up.pairWait = 2 && (!s.up.keepsSd || s.getF R.PAIR_STATE_PEER_ROLE = 2) then s.upActivateNow s.up.windowS else s

/-- UPDATE_RESULT_RX: the peer's RESULT completes a finish that waits, lets the active unit activate, and drives the
decision (R478, R479). -/
def execUpdateResultRx (mdig : BitVec 64) (state : Fin 8) (t : Nat) (s : State) : Res :=
  let s := s.advance t
  if !s.upLink then .next s
  else
    let s := { s with up := { s.up with peer := some (mdig.toNat, state.val) } }
    match s.up.session with
    | some v =>
      if v.waiting.isSome && s.peerStaged (mdigOf v.man.digest) then .next (s.upStaged v s.up.keepsSd)
      else .next s
    | none => .next s.pairDecide.pairTurn

/-- UPDATE_ABORT_RX: the peer's ABORT ends the session it holds. -/
def execUpdateAbortRx (s : State) : Res := .next (if s.upLink then s.peerSessionLost else s)

/-- UPDATE_RESULT_SEND: every 100 ms from finish until 10 s after a decision (Table 21.6). -/
def execUpdateResultSend (t : Nat) (s : State) : Res :=
  let s := s.advance t
  match s.up.resultTo with
  | none => .next s
  | some e =>
    let due := match s.up.resultAt with | some a => a + msToCyc 100 | none => 0
    if s.upLink && s.mtb ≤ e && due ≤ s.mtb then
      let k := if s.up.result = 4 then s.slotRec.primary else s.upSlot
      .next (({ s with up := { s.up with resultAt := some s.mtb } }).amrekOut 0x14
        (octs 8 (s.slotDig k) ++ nats (leBytes 1 s.up.result ++ leBytes 7 0)))
    else .next s

end Sys2Proof.Machine
end

