-- ==== Sys2Proof/Machine/Electrical.lean ====
section
/-!
DEFINITION. Pins (22_electrical.md): general-purpose inputs and flow-control pins. EVENT_N is a function of the state
(R488).
-/
namespace Sys2Proof.Machine

/-- GPIO_EDGE: a pin has changed by a PERIPH edge, where it is sampled (R5); an edge of the selected kind sets its SVC_EVENT bit
(R491). -/
def execGpioEdge (pin : Fin 8) (rising : Bool) (t : Nat) (s : State) : Res :=
  if !s.rootRuns then .next s
  else
    let s := (s.advance (periphEdge t)).setB (R.SVC_GPIO_IN_IN.bit pin) rising
    .next (s.raiseIf (s.isSet (R.SVC_PIN_CFG_EDGE.bit pin) = rising) (R.SVC_EVENT_GPIO_EDGE.bit pin))

/-- A queue whose FCP field is `n` is above (R303). -/
def State.fcpAbove (s : State) (n : Nat) : Bool := s.pr.queues.any (fun r => r.fcp == n && (s.queue r.queue).above)

/-- FCPn is asserted: its queues' state, or FORCE_VAL while it is forced (R489). -/
def State.fcpOn (s : State) (n : Nat) : Bool :=
  if s.isSet (R.SVC_FCP_CFG_FORCE.bit n) then s.isSet (R.SVC_FCP_CFG_FORCE_VAL.bit n) else s.fcpAbove n

/-- FCP_PIN_UPDATE: at a PERIPH edge (R5) QUEUE_FCP.PIN takes the queues' states (R303); from RUNNING on, each pin is driven
from it or from FORCE (R489). -/
def execFcpPinUpdate (t : Nat) (s : State) : Res :=
  if !s.rootRuns then .next s
  else
    .next ((s.advance (periphEdge t)).each [0, 1, 2, 3] (fun s n =>
      let s := s.setB (R.QUEUE_FCP_PIN.bit n) (s.fcpAbove n)
      if s.running then s.emit (.fcp n (s.fcpOn n) (s.fcpLevel n (s.fcpOn n))) else s))

/-- The test port's debug instructions, other than those of the boundary scan, are enabled (R487): in SAMPLER alone. -/
def State.debugEnabled (s : State) : Bool := s.dev = devSampler

/-- The state rules that assert EVENT_N (R43, R64, R85, R87). -/
def State.stateAsserts (s : State) : Bool := s.su.stopped || s.dev = devPark

/-- An event bit that is set and enabled stands in the block of number `b` (SVC_EVENT_SUM.BLOCK). -/
def State.blockAsserts (s : State) (b : Nat) : Bool :=
  eventPairs.any (fun p => blockOf p.1 == b && s.eventAsserted p.1 p.2)

/-- SVC_EVENT_SUM.BLOCK: bit b for block b of Table 00.4. -/
def State.eventSum (s : State) : Nat := (List.range 27).foldl (fun n b => if s.blockAsserts b then n + 2 ^ b else n) 0

/-- EVENT_N is asserted (R488). -/
def State.eventN (s : State) : Bool :=
  s.stateAsserts || s.isSet R.SVC_EVENT_CFG_ASSERT || (s.running && s.eventSum != 0)

end Sys2Proof.Machine
end

