-- ==== Sys2Proof/Machine/Zones.lean ====
section
/-!
DEFINITION. The lighting zone service (17_lighting_zones.md). A zone's state stands in the 256 B that R390 gives it in the
zone state region; where each value stands in them is the model's choice (notes/assumptions/31.md).
-/
namespace Sys2Proof.Machine

/-! ### Zone state (R390) -/

/-- A value of zone `z` at an offset of its 256 B. -/
def State.zGet (s : State) (z o n : Nat) : Nat := s.readNat ((s.region 7).1 + 256 * z + o) n
def State.zPut (s : State) (z o n v : Nat) : State :=
  let a := (s.region 7).1 + 256 * z + o
  (s.writeNat a n v).journalAt a (leBytes n v)

def State.zConf (s : State) (z : Nat) : Bool := s.zGet z 0 1 = 1
/-- 0 IDLE, 1 OCCUPIED, 2 VACANT, 3 OVERRIDE. -/
def State.zState (s : State) (z : Nat) : Nat := s.zGet z 1 1
def State.zPan (s : State) (z : Nat) : Nat := s.zGet z 2 1

/-- The layout of a zone's values: OCC, VAC, IDLE and override level; HOLD_S, VAC_S, OVR_S; the three fades; daylight values;
the sequence; the pending entry; times. -/
def zoRepeat : Nat := 3
def zoOcc : Nat := 4
def zoVac : Nat := 6
def zoIdle : Nat := 8
def zoOvr : Nat := 10
def zoHoldS : Nat := 12
def zoVacS : Nat := 14
def zoOvrS : Nat := 16
def zoUp : Nat := 18
def zoDown : Nat := 20
def zoDlFade : Nat := 22
def zoOn : Nat := 24
def zoMin : Nat := 26
def zoStep : Nat := 28
def zoKp : Nat := 30
def zoKi : Nat := 32
def zoPeriod : Nat := 34
def zoWindow : Nat := 36
def zoLux : Nat := 40
def zoInteg : Nat := 44
def zoOut : Nat := 48
def zoSeen : Nat := 50
def zoSilent : Nat := 51
def zoSeq : Nat := 52
def zoPend : Nat := 54
def zoSent : Nat := 55
def zoPLevel : Nat := 56
def zoPFade : Nat := 58
def zoLast : Nat := 60
def zoPresence : Nat := 64
def zoDeadline : Nat := 72
def zoDue : Nat := 80
def zoEver : Nat := 88

/-- A node's zones: the ZONES entries with the member bit (R390). -/
def State.zonesOf (s : State) (n : Nat) : List Nat :=
  ((List.range 4).map (fun k => s.recGet n (96 + 2 * k) 2)).filter (fun w => bitOf w 15) |>.map (· % 2 ^ 14)

/-- A zone's members. -/
def State.zMembers (s : State) (z : Nat) : List Nat := (s.members (s.zPan z)).filter (fun n => (s.zonesOf n).contains z)

/-! ### Levels and commands (R394 to R396) -/

/-- The level of a zone's state. -/
def State.zLevel (s : State) (z : Nat) : Nat :=
  s.zGet z (match s.zState z with | 0 => zoIdle | 1 => zoOcc | 2 => zoVac | _ => zoOvr) 2

/-- The applied level (R394). -/
def State.zApplied (s : State) (z : Nat) : Nat :=
  let out := if s.zGet z zoOn 1 = 1 && s.zGet z zoSeen 1 = 1 then s.zGet z zoOut 2 else 1000
  if s.zState z = 1 || s.zState z = 2 then min (s.zLevel z) out else s.zLevel z

/-- A command is queued (R396). -/
def State.zQueue (s : State) (z level fade : Nat) : State :=
  let newSeq := s.zGet z zoPend 1 = 0 || s.zGet z zoSent 1 ≠ 0
  let s := if newSeq then s.zPut z zoSeq 2 ((s.zGet z zoSeq 2 + 1) % 65536) else s
  let s := ((s.zPut z zoPend 1 1).zPut z zoSent 1 0).zPut z zoLast 2 level
  (s.zPut z zoPLevel 2 level).zPut z zoPFade 2 fade

/-- The zone enters a state; its applied level is commanded with a fade. -/
def State.zEnter (s : State) (z st deadline fade : Nat) : State :=
  let s := (s.zPut z 1 1 st).zPut z zoDeadline 8 deadline
  s.zQueue z (s.zApplied z) fade

/-- The zone becomes VACANT at a time: the vacancy time starts, without an end when VAC_S is 0. -/
def State.zVacate (s : State) (z now fade : Nat) : State :=
  let v := s.zGet z zoVacS 2
  s.zEnter z 2 (if v = 0 then 0 else now + v * secCyc) fade

/-! ### Events (R392, R393, Table 17.1) -/

/-- A presence report with its time stamp. -/
def State.zPresence (s : State) (z ts : Nat) : State :=
  let st := s.zState z
  let ts := max ts (s.zGet z zoPresence 8)
  let s := (s.zPut z zoPresence 8 ts).zPut z zoEver 1 1
  let fin := ts + s.zGet z zoHoldS 2 * secCyc
  if st = 3 then s
  else if st = 1 then s.zPut z zoDeadline 8 fin
  else s.zEnter z 1 fin (s.zGet z zoUp 2)

/-- An override at a level, for a time in seconds, 0 until release. -/
def State.zOverride (s : State) (z ts level secs : Nat) : State :=
  let s := s.zPut z zoOvr 2 level
  let fade := if s.zGet z zoLast 2 < level then s.zGet z zoUp 2 else s.zGet z zoDown 2
  s.zEnter z 3 (if secs = 0 then 0 else ts + secs * secCyc) fade

/-- An override ends. Which of the zone's fades its command takes, the spec leaves open. -/
def State.zRelease (s : State) (z now : Nat) : State :=
  let fade := if s.freeVal % 2 = 0 then s.zGet z zoUp 2 else s.zGet z zoDown 2
  let s := s.useFree
  let fin := s.zGet z zoPresence 8 + s.zGet z zoHoldS 2 * secCyc
  if s.zGet z zoEver 1 = 1 && now < fin then s.zEnter z 1 fin fade else s.zVacate z now fade

/-- The counts of a PAN's zones. -/
def State.zStat (s : State) (p : Nat) : ZoneStat := Store.get (fun _ => {}) s.ry.zoneStats p
def State.setZStat (s : State) (p : Nat) (v : ZoneStat) : State :=
  { s with ry := { s.ry with zoneStats := Store.set (fun _ => {}) s.ry.zoneStats p v } }

/-- ZONE_REPORT_RX: a member's report of a kind with its value and its frame's time stamp (R392). -/
def execZoneReportRx (node : Nat) (kind value ts : Nat) (t : Nat) (s : State) : Res :=
  let s := s.advance t
  if !s.rySends || !s.known node then .next s
  else
    let p := s.nodePan node
    let zs := (s.zonesOf node).filter s.zConf
    let c := s.zStat p
    if zs.isEmpty || !(kind = 0 || (kind = 1 && value ≤ 100000) || (kind = 2 && value ≤ 1001)) then
      .next (s.setZStat p { c with discarded := c.discarded + 1 })
    else
      let s := s.setZStat p { c with taken := c.taken + 1 }
      if kind = 1 then .next { s with ry := { s.ry with lux := Store.put node (value, ts) s.ry.lux } }
      else .next (s.each zs (fun s z =>
        if kind = 0 then s.zPresence z ts
        else s.zOverride z ts (if value = 1001 then s.zGet z zoOcc 2 else value) (s.zGet z zoOvrS 2)))

/-- Whether the zone's time has come, in a state. -/
def State.zDueIn (s : State) (z st : Nat) : Bool :=
  s.rySends && z < 16384 && s.zConf z && s.zState z = st && s.zGet z zoDeadline 8 ≠ 0 && s.zGet z zoDeadline 8 ≤ s.mtb

/-- ZONE_HOLD_EXPIRY, ZONE_VACANCY_EXPIRY, ZONE_OVERRIDE_EXPIRY (R393). -/
def execZoneHoldExpiry (zone : Fin 16384) (t : Nat) (s : State) : Res :=
  let s := s.advance t
  .next (if s.zDueIn zone 1 then s.zVacate zone s.mtb (s.zGet zone zoDown 2) else s)
def execZoneVacancyExpiry (zone : Fin 16384) (t : Nat) (s : State) : Res :=
  let s := s.advance t
  .next (if s.zDueIn zone 2 then s.zEnter zone 0 0 (s.zGet zone zoDown 2) else s)
def execZoneOverrideExpiry (zone : Fin 16384) (t : Nat) (s : State) : Res :=
  let s := s.advance t
  .next (if s.zDueIn zone 3 then s.zRelease zone s.mtb else s)

/-- An integer between two bounds. -/
def clampInt (x lo hi : Int) : Int := max lo (min hi x)

/-- A state level or a daylight output changed: a command when it differs enough (R395). -/
def State.zDaylight (s : State) (z : Nat) : State :=
  let a := s.zApplied z
  let l := s.zGet z zoLast 2
  if (s.zState z = 1 || s.zState z = 2) && s.zGet z zoStep 2 ≤ (a - l) + (l - a) then s.zQueue z a (s.zGet z zoDlFade 2) else s

/-- pi_step (R394). -/
def State.piStep (s : State) (z : Nat) : State :=
  let old := s.zGet z zoWindow 2 * secCyc
  let vals := (s.zMembers z).filterMap (fun n =>
    match Store.find? n s.ry.lux with | some (v, ts) => if s.mtb ≤ ts + old then some v else none | none => none)
  if vals.isEmpty then
    if s.zGet z zoSilent 1 = 1 then s else (s.zPut z zoSilent 1 1).ryEvent 7
  else
    let s := s.zPut z zoSilent 1 0
    if !(s.zState z = 1 || s.zState z = 2) then s
    else
      let m := (vals.foldl (· + ·) 0) / vals.length
      let e : Int := (s.zGet z zoLux 4 : Int) - m
      let integ := clampInt ((s.zGet z zoInteg 4 : Int) + s.zGet z zoKi 2 * e) 0 1024000
      let out := clampInt (Int.tdiv (s.zGet z zoKp 2 * e + integ) 1024) (s.zGet z zoMin 2) 1000
      let s := ((s.zPut z zoInteg 4 integ.toNat).zPut z zoOut 2 out.toNat).zPut z zoSeen 1 1
      s.zDaylight z

/-- ZONE_PI_STEP: every DL_PERIOD_S seconds with daylight control on (R394). -/
def execZonePiStep (zone : Fin 16384) (t : Nat) (s : State) : Res :=
  let s := s.advance t
  let z : Nat := zone
  if !s.rySends || !s.zConf z || s.zGet z zoOn 1 ≠ 1 || s.mtb < s.zGet z zoDue 8 then .next s
  else .next ((s.zPut z zoDue 8 (s.zGet z zoDue 8 + s.zGet z zoPeriod 2 * secCyc)).piStep z)

/-- The zones of a PAN with a pending entry, in ascending order. -/
def State.zPending (s : State) (p : Nat) : List Nat :=
  (List.range 16384).filter (fun z => s.zConf z && s.zPan z = p && s.zGet z zoPend 1 = 1)

/-- ZONE_BROADCAST_OPPORTUNITY: one message of pending entries (R397); `fit`: how many the link MTU allows; `held`: the duty
account holds it back (R398). -/
def execZoneBroadcastOpportunity (pan : Fin 16) (fit : Nat) (held : Bool) (t : Nat) (s : State) : Res :=
  let s := s.advance t
  let p : Nat := pan
  let zs := (s.zPending p).take (min 16 fit)
  let c := s.zStat p
  if !s.rySends || zs.isEmpty then .next s
  else if held then .next ((s.setZStat p { c with delayed := c.delayed + 1 }).ryEvent 8)
  else
    let entries := zs.map (fun z => (z, s.zGet z zoSeq 2, s.zGet z zoPLevel 2, s.zGet z zoPFade 2))
    let s := (s.setZStat p { c with commands := c.commands + 1, entries := c.entries + zs.length }).say (.zoneCmd p entries)
    .next (s.each zs (fun s z =>
      let n := s.zGet z zoSent 1 + 1
      if s.zGet z zoRepeat 1 < n then (s.zPut z zoPend 1 0).zPut z zoSent 1 0 else s.zPut z zoSent 1 n))

/-! ### Operations (R391, R400, Table 17.3) -/

/-- ZONE_GET: configuration, state, applied level, sequence, member count, last presence. -/
def execZoneGet (ticket zone : Nat) (s : State) : Res :=
  .next (s.svcRead ticket svcZone 1 (fun s =>
    if 16384 ≤ zone then s.callEnd ticket ST.RYURIX_ARG
    else if !s.zConf zone then s.callEnd ticket ST.RYURIX_ZONE_UNSET
    else
      let g (o : Nat) : Nat := s.zGet zone o 2
      s.callDone ticket [(20, [s.zPan zone, g zoOcc, g zoVac, g zoIdle, g zoHoldS, g zoVacS, g zoOvrS, g zoUp, g zoDown, g zoDlFade,
          s.zGet zone zoOn 1, s.zGet zone zoLux 4, g zoKp, g zoKi, g zoMin, g zoStep, g zoPeriod, g zoWindow,
          s.zGet zone zoRepeat 1]),
        (21, [s.zState zone]), (22, [s.zApplied zone]), (23, [g zoSeq]), (24, [(s.zMembers zone).length]),
        (25, [s.zGet zone zoPresence 8])]))

/-- A list of values within bounds, one by one. -/
def inBounds (l : List Nat) (b : List (Nat × Nat)) : Bool :=
  l.length = b.length && (l.zip b).all (fun x => decide (x.2.1 ≤ x.1) && decide (x.1 ≤ x.2.2))

/-- The ranges of Table 17.2. -/
def zoneKeysOk (k : ZoneKeys) : Bool :=
  let ok (l : Option (List Nat)) (b : List (Nat × Nat)) : Bool := match l with | some x => inBounds x b | none => true
  ok k.levels [(0, 1000), (0, 1000), (0, 1000)] && ok k.times [(1, 65535), (0, 65535), (1, 65535)] &&
  ok k.fades [(0, 60000), (0, 60000), (0, 60000)] &&
  ok k.light [(0, 1), (0, 100000), (0, 65535), (0, 65535), (0, 1000), (1, 1000)] &&
  ok k.period [(1, 255), (10, 3600)] && (match k.rep with | some r => decide (r ≤ 3) | none => true)

/-- Values at offsets of sizes. -/
def State.zPuts (s : State) (z : Nat) (os : List (Nat × Nat)) (vs : List Nat) : State :=
  s.each (os.zip vs) (fun s x => s.zPut z x.1.1 x.1.2 x.2)

/-- ZONE_SET (R390, R400); on the first set the zone starts anew, in IDLE without a command (R393). -/
def execZoneSet (ticket zone : Nat) (k : ZoneKeys) (t : Nat) (s : State) : Res :=
  let s := s.advance t
  .next (s.svcChange ticket svcZone 2 zone 0 (fun s =>
    let first := !s.zConf zone
    let pan := match k.pan with | some p => p | none => s.zPan zone
    if 16384 ≤ zone || (first && k.pan.isNone) || (s.panRec pan).isNone || !zoneKeysOk k then s.callEnd ticket ST.RYURIX_ARG
    else if !first && pan ≠ s.zPan zone && !(s.zMembers zone).isEmpty then s.callEnd ticket ST.RYURIX_ZONE_PAN
    else
      let d (v : Option (List Nat)) (l : List Nat) : List Nat := match v with | some x => x | none => if first then l else []
      let s := if first then s.each (List.range 16) (fun s k => s.zPut zone (16 * k) 16 0) else s
      let s := (s.zPut zone 0 1 1).zPut zone 2 1 pan
      let s := s.zPuts zone [(zoOcc, 2), (zoVac, 2), (zoIdle, 2)] (d k.levels [1000, 200, 0])
      let s := s.zPuts zone [(zoHoldS, 2), (zoVacS, 2), (zoOvrS, 2)] (d k.times [120, 600, 3600])
      let s := s.zPuts zone [(zoUp, 2), (zoDown, 2), (zoDlFade, 2)] (d k.fades [500, 4000, 10000])
      let wasOn := s.zGet zone zoOn 1 = 1
      let s := s.zPuts zone [(zoOn, 1), (zoLux, 4), (zoKp, 2), (zoKi, 2), (zoMin, 2), (zoStep, 2)] (d k.light [0, 300, 512, 64, 100, 20])
      let s := s.zPuts zone [(zoPeriod, 2), (zoWindow, 2)] (d k.period [10, 300])
      let s := s.zPuts zone [(zoRepeat, 1)] (match k.rep with | some r => [r] | none => if first then [2] else [])
      let s := if s.zGet zone zoOn 1 = 1 && !wasOn then
          s.zPut zone zoDue 8 (s.mtb + s.zGet zone zoPeriod 2 * secCyc) else s
      let s := if first then s.zPut zone zoLast 2 (s.zGet zone zoIdle 2) else s
      s.callDone ticket []))

/-- A node's list of zones goes to it (R391). -/
def State.zoneList (s : State) (n : Nat) : State := s.say (.zones n (s.zonesOf n))

/-- A node leaves a zone: its entry is cleared, the shortened list sent. -/
def State.zoneLeave (s : State) (z n : Nat) : State :=
  match (List.range 4).find? (fun k => s.recGet n (96 + 2 * k) 2 = 0x8000 + z) with
  | none => s
  | some k => (s.recPut n (96 + 2 * k) 2 0).zoneList n

/-- One node joins a zone: none when it does, else the status of the failure (R391). -/
def State.zoneJoin (s : State) (z n : Nat) : Option Nat × State :=
  if !s.known n then (some ST.RYURIX_UNKNOWN_NODE, s)
  else if s.nodePan n ≠ s.zPan z then (some ST.RYURIX_ZONE_PAN, s)
  else if (s.zonesOf n).contains z then (none, s)
  else match (List.range 4).find? (fun k => !bitOf (s.recGet n (96 + 2 * k) 2) 15) with
    | none => (some ST.RYURIX_ZONE_FULL, s)
    | some k => (none, (s.recPut n (96 + 2 * k) 2 (0x8000 + z)).zoneList n)

/-- Nodes join one after the other up to the first failure: the status and how many were added. -/
def State.zoneJoins (s : State) (z : Nat) : List Nat → Nat → State × Nat × Nat
  | [], n => (s, ST.OK, n)
  | x :: xs, n =>
    match s.zoneJoin z x with
    | (some st, s) => (s, st, n)
    | (none, s) => s.zoneJoins z xs (n + 1)

/-- ZONE_ADD_MEMBERS. -/
def execZoneAddMembers (ticket zone : Nat) (nodes : List Nat) (s : State) : Res :=
  .next (s.svcChange ticket svcZone 3 zone nodes.length (fun s =>
    if 16384 ≤ zone || 1024 < nodes.length then s.callEnd ticket ST.RYURIX_ARG
    else if !s.zConf zone then s.callEnd ticket ST.RYURIX_ZONE_UNSET
    else
      let r := s.zoneJoins zone nodes 0
      r.1.finishCall ticket r.2.1 [(20, [r.2.2])]))

/-- ZONE_REMOVE_MEMBERS. -/
def execZoneRemoveMembers (ticket zone : Nat) (nodes : List Nat) (s : State) : Res :=
  .next (s.svcChange ticket svcZone 4 zone nodes.length (fun s =>
    if 16384 ≤ zone || 1024 < nodes.length then s.callEnd ticket ST.RYURIX_ARG
    else if !s.zConf zone then s.callEnd ticket ST.RYURIX_ZONE_UNSET
    else
      let there := nodes.filter (fun n => s.known n && (s.zonesOf n).contains zone)
      (s.each there (fun s n => s.zoneLeave zone n)).callDone ticket [(20, [there.length])]))

/-- ZONE_OVERRIDE (R393). -/
def execZoneOverride (ticket zone level secs : Nat) (t : Nat) (s : State) : Res :=
  let s := s.advance t
  .next (s.svcChange ticket svcZone 5 zone level (fun s =>
    if 16384 ≤ zone || 1000 < level || 65535 < secs then s.callEnd ticket ST.RYURIX_ARG
    else if !s.zConf zone then s.callEnd ticket ST.RYURIX_ZONE_UNSET
    else (s.zOverride zone s.mtb level secs).callDone ticket []))

/-- ZONE_RELEASE: of a zone that is not in OVERRIDE it changes nothing (R393). -/
def execZoneRelease (ticket zone : Nat) (t : Nat) (s : State) : Res :=
  let s := s.advance t
  .next (s.svcChange ticket svcZone 6 zone 0 (fun s =>
    if 16384 ≤ zone then s.callEnd ticket ST.RYURIX_ARG
    else if !s.zConf zone then s.callEnd ticket ST.RYURIX_ZONE_UNSET
    else (if s.zState zone = 3 then s.zRelease zone s.mtb else s).callDone ticket []))

/-- ZONE_STATS. -/
def execZoneStats (ticket pan : Nat) (s : State) : Res :=
  .next (s.svcRead ticket svcZone 7 (fun s =>
    if (s.panRec pan).isNone then s.callEnd ticket ST.RYURIX_ARG
    else
      let c := s.zStat pan
      s.callDone ticket [(20, [c.taken]), (21, [c.discarded]), (22, [c.commands]), (23, [c.entries]), (24, [c.delayed])]))

/-- ZONE_DELETE: members leave, then the zone is no longer configured (R391). -/
def execZoneDelete (ticket zone : Nat) (s : State) : Res :=
  .next (s.svcChange ticket svcZone 8 zone 0 (fun s =>
    if 16384 ≤ zone then s.callEnd ticket ST.RYURIX_ARG
    else if !s.zConf zone then s.callEnd ticket ST.RYURIX_ZONE_UNSET
    else
      let s := s.each (s.zMembers zone) (fun s n => s.zoneLeave zone n)
      (s.each (List.range 16) (fun s k => s.zPut zone (16 * k) 16 0)).callDone ticket []))

end Sys2Proof.Machine
end

