-- ==== Sys2Proof/Machine/Services.lean ====
section
/-!
DEFINITION. The service operations of Table 16.6 (16_border_router.md): a call runs when it is the oldest call of its service
that has no result (R361).
-/
namespace Sys2Proof.Machine

/-! ### net -/

/-- The addresses of a port (R363): the link-local one while its link is up, then one of each SLAAC prefix that lives. -/
def State.portAddresses (s : State) (p : Nat) : List Nat :=
  (if s.isSet (R.UPL_STAT_LINK_UP p) then [0xFE80 * 2 ^ 112 + ownIid64] else []) ++
  ((s.netPort p).prefixes.filter (fun x => s.mtb < x.2)).map (fun x => x.1 * 2 ^ 64 + ownIid64)

/-- NET_GET: per port its link state, addresses and routers; the delegated prefix; the port in use. -/
def execNetGet (ticket : Nat) (s : State) : Res :=
  .next (s.svcRead ticket svcNet 1 (fun s =>
    let port (p : Nat) : List Nat :=
      let a := s.portAddresses p
      let r := (s.netPort p).routers.filter (fun x => s.mtb < x.2)
      s.getF (R.UPL_STAT_LINK_UP p) :: a.length :: a ++ (r.length :: r.map (·.1))
    s.callDone ticket [(20, port 0 ++ port 1), (21, match s.ry.deleg with | some d => [d.1, d.2.1] | none => []),
      (22, [s.ry.inUse])]))

/-- NET_SET: 11 preferred port, 12 CMP UDP port, 13 prefix delegation (R365). -/
def execNetSet (ticket : Nat) (port udp pd : Option Nat) (s : State) : Res :=
  .next (s.svcChange ticket svcNet 2 (port.getD 0) (udp.getD 0) (fun s =>
    let bad (v : Option Nat) (ok : Nat → Bool) : Bool := match v with | some x => !ok x | none => false
    if bad port (· < 2) || bad udp (fun x => 1024 ≤ x && x < 65536) || bad pd (· < 2) then s.callEnd ticket ST.RYURIX_ARG
    else
      let old := (List.range s.pr.pans.length).map (fun p => (p, s.panPrefix p))
      let s := s.maybeSet (settingNo svcNet 0 11 0) (port.map (fun x => [x]))
      let s := s.maybeSet (settingNo svcNet 0 12 0) (udp.map (fun x => [x]))
      let s := s.maybeSet (settingNo svcNet 0 13 0) (pd.map (fun x => [x]))
      let s := s.each old (fun s x => s.prefixMoved x.1 x.2)
      let s := if s.liveRouter s.preferred && s.ry.inUse ≠ s.preferred then
          { s with ry := { s.ry with inUse := s.preferred, backAt := none } } else s
      s.callDone ticket []))

/-! ### pan -/

/-- PAN_GET: prefix and source, DODAG version, nodes, RPL parameters. -/
def execPanGet (ticket pan : Nat) (s : State) : Res :=
  .next (s.svcRead ticket svcPan 1 (fun s =>
    if (s.panRec pan).isNone then s.callEnd ticket ST.RYURIX_ARG
    else
      let t := s.trickle pan
      s.callDone ticket [(20, match s.panPrefix pan with | some (x, src) => [x, src] | none => []), (21, [(s.root pan).version]),
        (22, [(s.members pan).length]), (23, [s.rplInstance pan, s.minHop pan, t.1, t.2.1, t.2.2, s.ocp pan])]))

/-- PAN_SET (R364, R366, R370). -/
def execPanSet (ticket pan : Nat) (k : PanKeys) (s : State) : Res :=
  .next (s.svcChange ticket svcPan 2 pan 0 (fun s =>
    let big (v : Option Nat) (n : Nat) : Bool := match v with | some x => decide (n ≤ x) | none => false
    let rec_ := (s.panRec pan).isNone
    let tr := match k.trickle with | some (a, b, c) => decide (256 ≤ a) || decide (256 ≤ b) || decide (256 ≤ c) | none => false
    let cx := k.contexts.any (fun c => c.1 = 0 || 16 ≤ c.1)
    if rec_ || big k.inst 256 || big k.minHop 65536 || tr || big k.ocp 65536 || cx then s.callEnd ticket ST.RYURIX_ARG
    else
      let old := s.panPrefix pan
      let s := match k.prefix64 with
        | some (some x) => s.setSetting (settingNo svcPan pan 12 0) [x]
        | some none => s.setSetting (settingNo svcPan pan 12 0) []
        | none => s
      let s := s.maybeSet (settingNo svcPan pan 13 0) (k.inst.map (fun x => [x]))
      let s := s.maybeSet (settingNo svcPan pan 14 0) (k.minHop.map (fun x => [x]))
      let s := s.maybeSet (settingNo svcPan pan 15 0) (k.trickle.map (fun x => [x.1, x.2.1, x.2.2]))
      let s := s.maybeSet (settingNo svcPan pan 16 0) (k.ocp.map (fun x => [x]))
      let s := s.each k.contexts (fun s c => s.setSetting (settingNo svcPan pan 17 c.1) c.2.toList)
      (s.prefixMoved pan old).callDone ticket []))

/-- PAN_REPAIR (R374). -/
def execPanRepair (ticket pan : Nat) (s : State) : Res :=
  .next (s.svcChange ticket svcPan 3 pan 0 (fun s =>
    if (s.panRec pan).isNone then s.callEnd ticket ST.RYURIX_ARG
    else if (s.panPrefix pan).isNone then s.callEnd ticket ST.RYURIX_NO_PREFIX
    else
      let s := s.newVersion pan
      s.callDone ticket [(20, [(s.root pan).version])]))

/-! ### node -/

/-- A node named by index or by EUI-64. -/
def State.nodeArg (s : State) (index eui : Option Nat) : Nat :=
  match index, eui with
  | some n, _ => n
  | none, some e => s.hashLookup e 0
  | none, none => nodeNone

/-- NODE_GET: chunks 0 to 2 of the record, and the learned path entry. -/
def execNodeGet (ticket : Nat) (index eui : Option Nat) (s : State) : Res :=
  .next (s.svcRead ticket svcNode 1 (fun s =>
    if index.isNone && eui.isNone then s.callEnd ticket ST.RYURIX_ARG
    else
      let n := s.nodeArg index eui
      if !s.known n then s.callEnd ticket ST.RYURIX_UNKNOWN_NODE
      else s.callDone ticket [(20, nats (s.readBytes (s.recAddr n 0) 192)),
        (21, match s.lptOf n with | some (_, e) => nats e.bytes | none => [])]))

/-- NODE_REMOVE: the removal sequence, then the node's cells and its IID registration. -/
def execNodeRemove (ticket node : Nat) (s : State) : Res :=
  .next (s.svcChange ticket svcNode 2 node 0 (fun s =>
    if !s.known node then s.callEnd ticket ST.RYURIX_UNKNOWN_NODE
    else
      let p := s.nodePan node
      let s := s.each (s.zonesOf node) (fun s z => s.zoneLeave z node)
      let s := s.dropRoutes node
      let s := s.removeNode node
      let old := s.ry.cells
      let peers := (old.filter (fun c => c.src = node || c.dst = node)).foldl
        (fun l c => withOne (if c.src = node then c.dst else c.src) l) []
      let s := { s with ry := { s.ry with
        cells := old.filter (fun (c : SchedCell) => c.src != node && c.dst != node),
        unacked := without node s.ry.unacked, waiting := s.ry.waiting.filter (fun (w : Nat × Nat) => w.1 != node) } }
      let s := (s.writeChanged p old).each peers State.sendCells
      s.callDone ticket []))

/-- NODE_LIST: index, EUI-64, CLASS, FW_VERSION, RANK of up to `count` nodes of a PAN from an index on. -/
def execNodeList (ticket pan first count : Nat) (s : State) : Res :=
  .next (s.svcRead ticket svcNode 3 (fun s =>
    if (s.panRec pan).isNone || count = 0 || 1024 < count then s.callEnd ticket ST.RYURIX_ARG
    else
      let l := ((s.members pan).filter (fun n => first ≤ n)).take count
      s.callDone ticket [(20, l.flatMap (fun n => [n, s.recEui n, s.recGet n 87 1, s.recGet n 104 4, s.rank n]))]))

/-- NODE_ROUTE: the hop indices, 262,143 when unreachable. -/
def execNodeRoute (ticket node : Nat) (s : State) : Res :=
  .next (s.svcRead ticket svcNode 4 (fun s =>
    if !s.known node then s.callEnd ticket ST.RYURIX_UNKNOWN_NODE
    else s.callDone ticket [(20, match s.hops node with | some l => l | none => [nodeNone])]))

/-- NODE_SET_CLASS. -/
def execNodeSetClass (ticket node cls : Nat) (s : State) : Res :=
  .next (s.svcChange ticket svcNode 5 node cls (fun s =>
    if 5 ≤ cls then s.callEnd ticket ST.RYURIX_ARG
    else if !s.known node then s.callEnd ticket ST.RYURIX_UNKNOWN_NODE
    else (s.recPut node 87 1 cls).callDone ticket []))

/-! ### sched -/

/-- SCHED_GET: a node's cells as from, to, timeslot, channel offset. -/
def execSchedGet (ticket node : Nat) (s : State) : Res :=
  .next (s.svcRead ticket svcSched 1 (fun s =>
    if !s.known node then s.callEnd ticket ST.RYURIX_UNKNOWN_NODE
    else
      let l := s.ry.cells.filter (fun c => c.src = node || c.dst = node)
      s.callDone ticket [(20, l.flatMap (fun c => [c.src, c.dst, c.slot, c.choff]))]))

/-- The minimal cell of slotframe 0, once for each transceiver of TRX_MASK (R375): timeslot 0, channel offset 0, every option. -/
def State.minimalCells (s : State) (p : Nat) : State :=
  match s.panRec p with
  | none => s
  | some r =>
    let xs := (List.range 4).filter (bitOf r.trxMask)
    let cell (x : Nat) : List Byte :=
      leBytes 2 0 ++ leBytes 1 0x1F ++ leBytes 1 x ++ leBytes 4 nodeNone ++ leBytes 4 (s.freeVal % 2 ^ 32) ++ leBytes 4 0
    s.useFree.tableWrite (s.getF (R.MAC_SF_BASE_ROW_BASE.bank (sfBank p 0)))
      (leBytes 4 0 ++ leBytes 1 xs.length ++ leBytes 11 0 ++ xs.flatMap cell)

/-- SCHED_SET: lengths of slotframes 0 and 1 of a TSCH PAN (R375). -/
def execSchedSet (ticket pan : Nat) (sf0 sf1 : Option Nat) (s : State) : Res :=
  .next (s.svcChange ticket svcSched 2 pan (sf0.getD 0 + 2 ^ 32 * sf1.getD 0) (fun s =>
    let bad (v : Option Nat) (lo hi : Nat) : Bool := match v with | some x => decide (x < lo) || decide (hi < x) | none => false
    if !s.tsch pan || bad sf0 7 1021 || bad sf1 11 65535 then s.callEnd ticket ST.RYURIX_ARG
    else
      let s := s.maybeSet (settingNo svcSched pan 12 0) (sf0.map (fun x => [x]))
      let s := s.maybeSet (settingNo svcSched pan 13 0) (sf1.map (fun x => [x]))
      let s := s.setF (R.MAC_SF_CFG_LENGTH.bank (sfBank pan 0)) (s.sf0 pan)
      let s := s.setF (R.MAC_SF_CFG_LENGTH.bank (sfBank pan 1)) (s.sf1 pan)
      (s.minimalCells pan).callDone ticket []))

/-- SCHED_STATS: cells held, open 6P transactions, short assignments. -/
def execSchedStats (ticket : Nat) (s : State) : Res :=
  .next (s.svcRead ticket svcSched 3 (fun s =>
    s.callDone ticket [(20, [s.ry.cells.length]), (21, [s.ry.sixp.length]), (22, [s.ry.short])]))

/-! ### join -/

/-- JOIN_SET: 11 admit only listed, 12 derivation slot (`some none` for null), 13 joins per second (R378 to R380). -/
def execJoinSet (ticket : Nat) (listed : Option Nat) (slot : Option (Option Nat)) (rate : Option Nat) (s : State) : Res :=
  .next (s.svcChange ticket svcJoin 1 (listed.getD 0) (rate.getD 0) (fun s =>
    let bad (v : Option Nat) (lo hi : Nat) : Bool := match v with | some x => decide (x < lo) || decide (hi < x) | none => false
    if bad listed 0 1 || bad (slot.getD none) 0 511 || bad rate 1 1000 then s.callEnd ticket ST.RYURIX_ARG
    else
      let s := s.maybeSet (settingNo svcJoin 0 11 0) (listed.map (fun x => [x]))
      let s := match slot with
        | some v => s.setSetting (settingNo svcJoin 0 12 0) v.toList
        | none => s
      (s.maybeSet (settingNo svcJoin 0 13 0) (rate.map (fun x => [x]))).callDone ticket []))

/-- The lowest setting number without a pledge. -/
def State.pledgeNo (s : State) : Nat :=
  let used := s.pledges.map (·.1)
  match (List.range 16385).find? (fun k => !used.contains (2 ^ 31 + k)) with
  | some k => 2 ^ 31 + k
  | none => 2 ^ 31

/-- A pledge and its PSK enter the table; an entry of the same pledge is replaced. -/
def State.pledgePut (s : State) (pledge psk : Nat) : State :=
  match s.pledges.find? (fun (x : Nat × List Nat) => x.2.head? == some pledge) with
  | some (k, _) => s.setSetting k [pledge, psk]
  | none => s.setSetting s.pledgeNo [pledge, psk]

/-- JOIN_ENROL: pledge identifiers with their PSKs wrapped under a slot's key (R378). A PSK that does not unwrap is an
argument out of range. -/
def execJoinEnrol (ticket : Nat) (entries : List (BitVec 64 × BitVec 192)) (slot : Fin 512) (s : State) : Res :=
  .next (s.svcChange ticket svcJoin 2 entries.length slot (fun s =>
    let psk (w : BitVec 192) : Option Nat := match s.keySlot slot with | some k => Config.unwrap k.mat 16 w.toNat | none => none
    let isNew (e : BitVec 64 × BitVec 192) : Bool := !s.pledges.any (fun x => x.2.head? = some e.1.toNat)
    if entries.isEmpty || 256 < entries.length || (s.keySlot slot).isNone || entries.any (fun e => (psk e.2).isNone) then
      s.callEnd ticket ST.RYURIX_ARG
    else if 16384 < s.pledges.length + (entries.filter isNew).length then s.callEnd ticket ST.RYURIX_PLEDGE_FULL
    else
      let added := (entries.filter isNew).length
      (s.each entries (fun s e => s.pledgePut e.1.toNat ((psk e.2).getD 0))).callDone ticket [(20, [added])]))

/-- JOIN_REVOKE: pledge entries go. -/
def execJoinRevoke (ticket : Nat) (pledges : List (BitVec 64)) (s : State) : Res :=
  .next (s.svcChange ticket svcJoin 3 pledges.length 0 (fun s =>
    let gone := s.pledges.filter (fun x => pledges.any (fun p => x.2.head? = some p.toNat))
    (s.each gone (fun s x => s.setSetting x.1 [])).callDone ticket [(20, [gone.length])]))

/-- JOIN_STATS: joins, refused by CoAP code, pledge entries. -/
def execJoinStats (ticket : Nat) (s : State) : Res :=
  .next (s.svcRead ticket svcJoin 4 (fun s =>
    s.callDone ticket [(20, [s.ry.joins]), (21, s.ry.refused.flatMap (fun x => [x.1, x.2])), (22, [s.pledges.length])]))

/-- JOIN_GROUP_REKEY: the key of a slot goes to every node of a PAN; the result waits for the acknowledgements (R382). -/
def execJoinGroupRekey (ticket pan : Nat) (slot : Nat) (deadline : Nat) (t : Nat) (s : State) : Res :=
  let s := s.advance t
  .next (s.svcChange ticket svcJoin 5 pan slot (fun s =>
    if (s.panRec pan).isNone || 512 ≤ slot || (s.keySlot slot).isNone || (Store.find? pan s.ry.rekeys).isSome then
      s.callEnd ticket ST.RYURIX_ARG
    else
      let r : Rekey := ⟨slot, s.mtb + deadline * secCyc, ticket, s.members pan⟩
      if r.nodes.isEmpty then s.rekeyEnd pan r
      else
        let s := s.each r.nodes (fun s n => s.say (.keySet n slot))
        ({ s with ry := { s.ry with rekeys := Store.put pan r s.ry.rekeys } }).answer ST.OK))

/-! ### image -/

def State.putImage (s : State) (k : Nat) (i : Image) : State :=
  { s with ry := { s.ry with images := Store.put k i s.ry.images } }

/-- The library blocks that no image holds, the lowest first. -/
def State.freeBlocks (s : State) : List Nat :=
  (List.range 256).filter (fun b => !s.ry.images.any (fun i => i.2.blocks.contains b))

/-- IMAGE_BEGIN: reserves and erases the blocks of a new image (R383). -/
def execImageBegin (ticket image len : Nat) (digest : BitVec 256) (mask : Nat) (version : BitVec 32) (s : State) : Res :=
  .next (s.svcChange ticket svcImage 1 image len (fun s =>
    let n := divUp len 262144
    if 64 ≤ image || len = 0 || 256 ≤ mask then s.callEnd ticket ST.RYURIX_ARG
    else if (s.image image).isSome || s.ry.images.any (fun i => !i.2.done) then s.callEnd ticket ST.RYURIX_IMAGE_STATE
    else if s.freeBlocks.length < n then s.callEnd ticket ST.RYURIX_LIBRARY_FULL
    else
      let bs := s.freeBlocks.take n
      let s := s.each bs (fun s b => s.erasePages (15360 + 64 * b) 64)
      (s.putImage image ⟨len, digest.toNat, mask, version.toNat, bs, false⟩).callDone ticket []))

/-- IMAGE_WRITE: up to 1,024 octets at an offset of the open image. -/
def execImageWrite (ticket image off : Nat) (data : List Byte) (s : State) : Res :=
  .next (s.svcChange ticket svcImage 2 image off (fun s =>
    match s.image image with
    | none => s.callEnd ticket (if 64 ≤ image then ST.RYURIX_ARG else ST.RYURIX_IMAGE_STATE)
    | some i =>
      if i.done then s.callEnd ticket ST.RYURIX_IMAGE_STATE
      else if data.isEmpty || 1024 < data.length || i.len < off + data.length then s.callEnd ticket ST.RYURIX_ARG
      else
        (s.each ((List.range data.length).zip data) (fun s x => s.flashPut (i.addr (off + x.1)) x.2)).callDone ticket []))

/-- IMAGE_COMMIT: checks the digest; an image whose digest differs stays open. -/
def execImageCommit (ticket image : Nat) (s : State) : Res :=
  .next (s.svcChange ticket svcImage 3 image 0 (fun s =>
    match s.image image with
    | none => s.callEnd ticket (if 64 ≤ image then ST.RYURIX_ARG else ST.RYURIX_IMAGE_STATE)
    | some i =>
      if i.done then s.callEnd ticket ST.RYURIX_IMAGE_STATE
      else if Config.sha3 (nats (s.imageOctets i 0 i.len)) ≠ i.digest then s.callEnd ticket ST.RYURIX_DIGEST
      else (s.putImage image { i with done := true }).callDone ticket []))

/-- IMAGE_DELETE: not while a campaign uses the image. -/
def execImageDelete (ticket image : Nat) (s : State) : Res :=
  .next (s.svcChange ticket svcImage 4 image 0 (fun s =>
    if 64 ≤ image then s.callEnd ticket ST.RYURIX_ARG
    else if s.campaigns.any (fun c => c.image = image) then s.callEnd ticket ST.RYURIX_IMAGE_IN_USE
    else if (s.image image).isNone then s.callEnd ticket ST.RYURIX_IMAGE_STATE
    else ({ s with ry := { s.ry with images := Store.del image s.ry.images } }).callDone ticket []))

/-- IMAGE_LIST: number, length, version, class mask, state (0 open, 1 complete). -/
def execImageList (ticket : Nat) (s : State) : Res :=
  .next (s.svcRead ticket svcImage 5 (fun s =>
    s.callDone ticket [(20, s.ry.images.flatMap (fun (i : Nat × Image) =>
      [i.1, i.2.len, i.2.version, i.2.mask, cond i.2.done 1 0]))]))

/-- A PAN that runs O-QPSK: a plan or fixed lane of one of its transceivers carries that mode. -/
def State.oqpskPan (s : State) (p : Nat) : Bool :=
  match s.panRec p with
  | some r => (List.range 4).any (fun x => bitOf r.trxMask x && (s.lanesOf x).any (fun l => phyFamily (s.lanePhy l) = 3))
  | none => false

/-- CAMPAIGN_START (R384, R385). -/
def execCampaignStart (ticket pan image : Nat) (a : CampaignArgs) (t : Nat) (s : State) : Res :=
  let s := s.advance t
  .next (s.svcChange ticket svcImage 6 pan image (fun s =>
    let range := 256 ≤ a.mask || 2 ^ 32 ≤ a.bound || a.szx < 2 || 6 < a.szx || (s.oqpskPan pan && a.szx ≠ 2) || a.blockMs < 100 ||
      60000 < a.blockMs || 7 < a.rounds || a.reportS < 10 || 3600 < a.reportS
    if (s.panRec pan).isNone || 64 ≤ image || range then s.callEnd ticket ST.RYURIX_ARG
    else if !(match s.image image with | some i => i.done | none => false) then s.callEnd ticket ST.RYURIX_IMAGE_STATE
    else if (s.panPrefix pan).isNone then s.callEnd ticket ST.RYURIX_NO_PREFIX
    else if s.campaigns.any (fun c => c.pan = pan) || 4 ≤ s.campaigns.length then
      s.callEnd ticket ST.RYURIX_CAMPAIGN_LIMIT
    else
      let c := ((List.range 4).find? (fun k => (s.campaign k).isNone)).getD 0
      let v : Campaign := {
        pan := pan, image := image, mask := a.mask, bound := a.bound, szx := a.szx, blockMs := a.blockMs,
        rounds := a.rounds, reportS := a.reportS, delayS := a.delayS, last := s.mtb,
        targets := s.targets pan a.mask a.bound }
      let v := { v with queue := passOf (List.range (s.campaignBlocks v)) }
      (s.putCampaign c v).callDone ticket [(20, [c])]))

/-- CAMPAIGN_STATUS: phase, round, targets, completed; of a campaign that has ended its result, the nodes that did not report
being the other targets (R386). -/
def execCampaignStatus (ticket campaign : Nat) (s : State) : Res :=
  .next (s.svcRead ticket svcImage 7 (fun s =>
    match Store.find? campaign s.ry.campaigns with
    | none => s.callEnd ticket ST.RYURIX_ARG
    | some v => s.callDone ticket [(20, [v.phase]), (21, [v.round]), (22, [v.targets.length]), (23, [v.done.length])]))

/-- CAMPAIGN_STOP: the campaign ends (R386). -/
def execCampaignStop (ticket campaign : Nat) (s : State) : Res :=
  .next (s.svcChange ticket svcImage 8 campaign 0 (fun s =>
    match s.campaign campaign with
    | none => s.callEnd ticket ST.RYURIX_ARG
    | some _ => (s.campaignEnd campaign).callDone ticket []))

end Sys2Proof.Machine
end

