-- ==== Sys2Proof/Machine/Start.lean ====
section
/-!
DEFINITION. Supplies, reset and start-up (04_start_up.md): from UNPOWERED to RUNNING, and the warm reset.
-/
namespace Sys2Proof.Machine

/-! ### Supplies, VBAT, RESET_N (R76 to R81, R96, R402) -/

/-- The registers of the VBAT domain take their reset values. -/
def State.vbatClear (s : State) : State :=
  { s with regs := s.regs.filter (fun x => !vbatRegs.contains (x.1 % bankStride)) }

/-- VBAT_APPLIED: START_CAUSE is 0 and stays so through the first exit from UNPOWERED (R96); VBAT_LOST tells of an earlier
loss (R402). -/
def execVbatApplied (s : State) : Res :=
  if s.su.vbat then .next s
  else
    let lost := s.getF R.TAMPER_STATE_VBAT_LOST
    let s := { s.vbatClear with su := { s.su with vbat := true, vbatFresh := true } }
    .next (s.setF R.TAMPER_STATE_VBAT_LOST lost)

/-- VBAT_LOST: the owner root is gone and with it what the VBAT domain held: buffered audit records (R436), the sampler request
(R439). -/
def execVbatLost (s : State) : Res :=
  if !s.su.vbat then .next s
  else
    let s := { s.vbatClear with
      su := { s.su with vbat := false, vbatFresh := false },
      ky := { s.ky with root := 0, quiet := [], slots := Store.del 1 (Store.del 2 s.ky.slots) },
      ro := { s.ro with cur := [], closed := [], sampler := false } }
    .next ((s.setF R.TAMPER_STATE_OWNER 0).setF R.TAMPER_STATE_VBAT_LOST 1)

/-- The analogue interval of R78 runs while every main supply is good and RESET_N is high. -/
def State.intervalCheck (s : State) : State :=
  if s.dev = devUnpowered then
    { s with su := { s.su with intervalOn := s.su.resetHigh && (List.range 9).all s.su.good.contains } }
  else s

/-- MAIN_SUPPLY_GOOD: a main supply rises above its good threshold (Table 04.1). -/
def execMainSupplyGood (supply : Fin 9) (s : State) : Res :=
  .next ({ s with su := { s.su with good := withOne supply s.su.good } }).intervalCheck

/-- RESET_N_RELEASE: RESET_N is high again. -/
def execResetNRelease (s : State) : Res := .next ({ s with su := { s.su with resetHigh := true } }).intervalCheck

/-- SUPPLY_GOOD_INTERVAL_END: the device leaves UNPOWERED (R78); BOOT_MODE is sampled (R81, Table 04.2). -/
def execSupplyGoodIntervalEnd (mode : Fin 4) (s : State) : Res :=
  if s.dev ≠ devUnpowered || !s.su.intervalOn then .next s
  else
    let m : Nat := mode
    let s := ({ s with su := { s.su with intervalOn := false } }).exitCause s.su.cause
    let s := (s.setDev devAwait).setF R.START_STATE_BOOT_MODE m
    let s := (s.setF R.START_OPT_HALT (if 2 ≤ m then 1 else 0)).setF R.START_OPT_SLOT 0
    let s := s.setF R.START_OPT_BENCH (if m = 1 then 1 else 0)
    .next (if m = 3 then s.startFail ST.START_MODE_RESERVED 0 0xF00 0 else s)

/-- A key-store write that a loss of power cuts short leaves an area that does not authenticate; whether its first page still
begins with the MAGIC the spec leaves open. -/
def State.keyCut (s : State) : State :=
  let ws := (match s.ky.job with | some j => j.writes | none => []) ++ s.ky.bootJob
  match ws with
  | [] => s
  | w :: _ =>
    let a : KeyArea := ⟨s.freeVal % 2 = 1, none⟩
    let s := s.useFree
    if w.area = 0 then { s with ky := { s.ky with area0 := a } } else { s with ky := { s.ky with area1 := a } }

/-- The flash operation in progress is cut short: its pages hold nothing the spec states. -/
def State.flashCut (s : State) : State :=
  match s.ms.nand with
  | none => s
  | some o => (if o.op = 1 then s else s.nandEffect o false).keyCut

/-- R79: the amplifiers off, every output high impedance, UNPOWERED; `k` is the reset kind, 1 power-on or 2 RESET_N. -/
def State.powerDown (s : State) (k : Nat) : State :=
  let s := s.each (List.range 4) (fun s n => s.emit (.line n 0 false s.mtb))
  let s := s.flashCut.emit .highZ
  let s := { s with su := { s.su with cause := k } }
  (s.resetBlocks k false).setDev devUnpowered

/-- MAIN_SUPPLY_LOST (R79). -/
def execMainSupplyLost (supply : Fin 9) (s : State) : Res :=
  let s := { s with su := { s.su with good := without supply s.su.good } }
  .next (if s.dev = devUnpowered then s.intervalCheck else s.powerDown 1)

/-- RESET_N_TAKEN: the effects of a supply loss (R80). -/
def execResetNTaken (s : State) : Res :=
  let s := { s with su := { s.su with resetHigh := false } }
  .next (if s.dev = devUnpowered then s.intervalCheck else s.powerDown 2)

/-! ### Holds, failures (R87, R93) -/

/-- The device is held at a point of R93. -/
def State.holdAt (s : State) (point : Nat) : State :=
  ({ s with su := { s.su with heldAt := point, heldFrom := some s.mtb } }).setF R.START_STATE_PHASE 3

/-- A boot failure of the slot being booted (R87, R91). -/
def State.bootCount (s : State) (st typ off : Nat) : State :=
  let s := s.startFail st 0 typ off
  let s := (s.bump R.START_BOOT_FAILS).setF R.START_BOOT_FAIL_SLOT s.booted
  { s with su := { s.su with failedSlots := s.su.failedSlots ++ [s.booted] } }

/-- The device stays where it is and asserts EVENT_N (R43, R85, R87). -/
def State.stop (s : State) : State := { s with su := { s.su with stopped := true } }

/-! ### The choice of the slot (R86, R462, R468) -/

/-- A slot that may be booted (R468). -/
def State.bootable (s : State) (k : Nat) : Bool :=
  let st := s.slotState k
  2 ≤ st && st ≤ 5 && (s.stageFault k).isNone

/-- The choice among the primary slot and the other one, when no trial comes first. -/
def State.chooseUntried (s : State) : Option Nat :=
  let r := s.slotRec
  let fails := s.su.failedSlots.length
  let o := 1 - r.primary
  if s.bootable r.primary && fails = 0 then some r.primary
  else if s.slotState o = 5 && s.bootable o && fails ≤ 1 then some o
  else none

/-- choose(r) of R468. A fallback takes the trial slot's failures out of the count, so that the primary slot boots (R474). -/
def State.choose (s : State) : State × Option Nat :=
  match s.up.rec_ with
  | none => (s, [0, 1].find? (fun k => (s.stageFault k).isNone))
  | some r =>
    if r.trial = 0 then (s, s.chooseUntried)
    else
      let t := r.trial - 1
      if s.slotState t = 3 then (s, some t)
      else if s.su.failedSlots.getLast? = some t || r.tries = 0 then
        let s := s.upFallback
        let s := { s with su := { s.su with failedSlots := s.su.failedSlots.filter (fun (k : Nat) => k != t) } }
        (s, s.chooseUntried)
      else (s.putRec { r with tries := r.tries - 1 }, some t)

/-- The settings area of a slot comes into force (R477). -/
def State.useArea (s : State) (a : Nat) : State :=
  if s.up.area = a then s
  else { s with
    up := { s.up with area := a, other := s.ry.settings, otherCreds := s.ro.stored },
    ry := { s.ry with settings := s.up.other }, ro := { s.ro with stored := s.up.otherCreds } }

/-- A slot is taken: its number, its settings area, its role store where that area holds one (R429). -/
def State.bootSlot (s : State) (k : Nat) : State :=
  let s := (s.setF R.START_STATE_SLOT k).setF R.UPDATE_STATE_BOOTED k
  let s := s.useArea (s.slotRec.settings.getD k 0)
  if s.ownerState ≠ 3 && s.ro.stored.isSome then s.rolesBoot true else s

/-- The state is BOOT. -/
def State.inBoot (s : State) : State :=
  let s := (s.setDev devBoot).bump R.START_BOOT_BOOTS
  let s := (s.setF R.START_T_BOOT_T (s.mtb / 64)).setF R.MEM_STATE_NAND_READY 1
  { s with su := { s.su with bootAt := s.mtb, benchWait := false } }

/-- Steps 2 and 3 of R86: a slot whose second stage is accepted; one that is not counts as a boot failure, and
BOOT is entered `again` then. Without any slot, what `last` says. -/
def State.bootNext (s : State) (last : State → State) (again : Bool) : Nat → State
  | 0 => last s
  | fuel + 1 =>
    let forced := s.getF R.START_OPT_SLOT
    let r : State × Option Nat :=
      if forced ≠ 0 then (s, if (s.stageFault (forced - 1)).isNone then some (forced - 1) else none) else s.choose
    match r.2 with
    | none => last r.1
    | some k =>
      let s := (if again then r.1.inBoot else r.1).bootSlot k
      match s.stageFault k with
      | none => s
      | some st => State.bootNext (s.bootCount st 0xF00 0) last true fuel

/-- No slot is left in BOOT (R87). -/
def State.noImage (s : State) : State := (s.startFail ST.START_NO_IMAGE 0 0xF00 0).stop

/-- No slot completes PRICKING_LOAD (R43): a bench pricking is awaited. -/
def State.noPricking (s : State) : State := { s.stop with su := { s.su with stopped := true, benchWait := true } }

/-- The role store as BOOT loads it: in RELEASED the release key alone, with role maker (R438). -/
def State.bootRoles (s : State) : State :=
  if s.ownerState = 3 then
    let d := Config.sha3 (octs 1312 Config.releaseKey)
    { s with ro := { s.ro with creds := [⟨3, d, Config.releaseKey, false⟩] } }
  else s.rolesBoot true

/-- BOOT is entered after a reset or from DRAM_TRAIN (R86, R95, R436): buffered audit records are programmed after a power loss,
the reset is recorded, keys and roles are loaded, a slot is chosen. -/
def State.enterBoot (s : State) : State :=
  let first : Bool := s.getF R.START_BOOT_BOOTS = 0
  let s := s.inBoot
  let s := if first then
      ({ s with ro := s.ro.closePage }).each [0, 1, 2] (fun s _ => s.auditProgram) else s
  let s := if s.su.fromWarm then s.raise R.SYS_EVENT_WARM_DONE
    else s.auditNote ⟨7, 0, 0, 0, R.SYS_RESET, 0, s.getF R.START_CAUSE_CAUSE⟩
  let s := s.keyBoot
  let s : State := { s with su := { s.su with sampler := s.ro.sampler && s.ownerState = 3, fromWarm := false } }
  let s : State := { s with ro := { s.ro with sampler := s.ro.sampler && s.ownerState ≠ 3 } }
  let s := (s.useArea (s.slotRec.settings.getD s.slotRec.primary 0)).bootRoles
  s.bootNext State.noImage false 4

/-- A boot failure: the next slot is chosen with BOOT entered anew (R87). -/
def State.bootFailed (s : State) (st typ off : Nat) : State :=
  (s.bootCount st typ off).bootNext (fun s => if s.dev = devLoad then s.noPricking else s.noImage) true 4

/-! ### ROOT_LOCK and DRAM_TRAIN (R84, R85) -/

/-- ROOT_PLL_LOCK: the domains start, the MAC time base from 0, DRAM at /16; the monitor windows open (R57); the tie link
trains (R109). -/
def execRootPllLock (s : State) : Res :=
  if s.dev ≠ devRootLock then .next s
  else
    let s := ({ s with mtb := 0 }).setF R.CLK_STATE_PLL_LOCK 1
    let s := (s.setClkMode 1).setF R.MEM_STATE_SELF_REFRESH 0
    let s := s.recordHeld.each s.clk.locks (fun s n => s.openWindow n)
    let s := ({ s with su := { s.su with attempts := 1, stage := 1, attemptAt := 0 } }).setDev devDramTrain
    .next (if s.getF R.TIE_STAT_PHASE ≤ 1 then s.tieAgain else s)

/-- ROOT_LOCK_TIMEOUT: the PLL has not locked in time (R52, R84). -/
def execRootLockTimeout (s : State) : Res :=
  if s.dev ≠ devRootLock then .next s
  else .next (s.startFail ST.START_ROOT_TIMEOUT 0 0xF00 0).toAwait

/-- A training attempt fails (R85): repeated once from stage 1, then the device stays. -/
def State.dramFail (s : State) : State :=
  if s.su.attempts < 2 then
    { s with su := { s.su with attempts := 2, stage := 1, attemptAt := s.mtb }, clk := { s.clk with dramDiv := 16, restarts := [] } }
  else (s.startFail ST.START_DRAM_FAIL 0 0xF00 0).stop

/-- DRAM_TRAIN_STAGE_END: a stage passes or fails (R85). Stage 2 is the stop-switch-restart to /2, which ends with its first
edge. -/
def execDramTrainStageEnd (ok : Bool) (t : Nat) (s : State) : Res :=
  if s.dev ≠ devDramTrain || s.su.stopped || s.su.heldAt ≠ 0 then .next s
  else if s.su.stage = 2 && ok && s.stoppedClock 0 then .next s
  else
    let s := s.advance t
    if !ok then .next s.dramFail
    else
      let k := s.su.stage
      let s := { s with su := { s.su with stage := k + 1 } }
      if k = 1 then .next { s with clk := { s.clk with restarts := [⟨0, 2, false⟩] } }
      else if k < 4 then .next s
      else
        let s := (s.dropMem 0x9FF00000 0xA0000000).setF R.MEM_STATE_DRAM_OK 1
        .next (if s.getF R.START_OPT_HALT = 1 then s.holdAt 1 else s.enterBoot)

/-- DRAM_TRAIN_TIMEOUT: an attempt lasts longer than 2,578,125 cyc. -/
def execDramTrainTimeout (t : Nat) (s : State) : Res :=
  if s.dev ≠ devDramTrain || s.su.stopped || s.su.heldAt ≠ 0 then .next s
  else
    let s := s.advance t
    .next (if s.su.attemptAt + 2578125 < s.mtb then s.dramFail else s)

/-! ### BOOT (R86, R87, R465) -/

/-- PRICKING_LOAD is entered. -/
def State.enterLoad (s : State) : State :=
  let s := (s.setDev devLoad).setF R.START_T_LOAD_T (s.mtb / 64)
  { s with su := { s.su with loadAt := s.mtb, benchWait := s.isSet R.START_OPT_BENCH } }

/-- BOOT works on a slot: not stopped, not held. -/
def State.booting (s : State) : Bool := s.dev = devBoot && !s.su.stopped && s.su.heldAt = 0

/-- Why the second stage ends BOOT with a failure (Table 04.4, R465). -/
def State.bootFault (s : State) (k : Nat) (readFail : Bool) : Option Nat :=
  let m := s.slotManifest k
  let bad (p : ManEntry → Bool) : Bool := m.entries.any (fun e => p e && !s.imageGood k e)
  firstFail [
    (readFail, ST.START_FLASH_READ), (m.formBad, ST.START_BOOT_FORMAT),
    (!s.signerOk m.signer || !m.sigOk, ST.START_BOOT_SIGNATURE), (bad (fun e => e.typ == 1), ST.START_BOOT_FORMAT),
    (m.rollback ≠ leAt (s.fwOctets k) 8 4, ST.START_BOOT_FORMAT),
    (bad (fun e => e.typ != 1 && e.typ != 6), ST.START_BOOT_FORMAT)]

/-- The images that go to memories of their own (R86, Table 21.2): data images (TYPE 7) to their destinations, microcode to the
stores of the shuttles that DEST names (TYPE 4) and of the lattice engine (TYPE 5). -/
def State.dataImages (s : State) (k : Nat) : State :=
  s.each (s.slotManifest k).entries (fun s e =>
    let octets := s.flashBytes (entryAddr k e) e.len
    if e.typ = 7 then s.writeBytes e.load octets
    else if e.typ = 4 then
      s.each ((List.range 4).filter (fun n => bitOf e.dest n)) (fun s n =>
        { s with ms := { s.ms with shuttleCode := Store.set (fun _ => []) s.ms.shuttleCode n octets } })
    else if e.typ = 5 then { s with ms := { s.ms with latticeCode := octets } }
    else s)

/-- BOOT_COMPLETE: the second stage has read and hashed every image and verified the manifest; `readFail`: a page could not be
read. A key-store write of BOOT (R419) comes first. -/
def execBootComplete (readFail : Bool) (t : Nat) (s : State) : Res :=
  if !s.booting || !s.ky.bootJob.isEmpty then .next s
  else
    let s := s.advance t
    match s.bootFault s.booted readFail with
    | some st => .next (s.bootFailed st 0xF00 0)
    | none =>
      let s := s.dataImages s.booted
      .next (if s.getF R.START_OPT_HALT = 2 then s.holdAt 2 else s.enterLoad)

/-- BOOT_TIMEOUT: BOOT lasts longer than 335,156,250 cyc. -/
def execBootTimeout (t : Nat) (s : State) : Res :=
  if !s.booting then .next s
  else
    let s := s.advance t
    .next (if s.su.bootAt + 335156250 < s.mtb then s.bootFailed ST.START_BOOT_TIMEOUT 0xF00 0 else s)

/-! ### PRICKING_LOAD (R40 to R44, R88) -/

/-- The staging area's octets (R117). -/
def State.stagingOctets (s : State) : Octets := fun k => (Store.get (fun _ => (0 : Byte)) s.svc.staging k).toNat

/-- The entry of the booted slot's manifest that holds this unit's pricking has another digest than the pricking (R465). -/
def State.wholeBad (s : State) (p : Pricking) : Bool :=
  let unit := match p.pair with | some r => r.pref + 1 | none => 0
  let es := (s.slotManifest s.booted).entries.filter (fun e => e.typ == 6 && (e.unit_ == 0 || e.unit_ == unit))
  let d := Config.sha3 (octetsAt (s.prOctets s.booted) 0 p.header.totalLen)
  !es.any (fun e => e.digest == d)

/-- Why a load from flash fails: the digest of R465 belongs to step 2, after the section digest. -/
def State.flashFault (s : State) (p : Pricking) : Option LoadFault :=
  let early := (headerFault p).orElse fun _ => prFramingFault p
  if p.readFail.isNone && early.isNone && s.wholeBad p then some ⟨ST.PRICKING_FORMAT, 0, 32⟩
  else s.loadFault p (counterOf s.up.prWords)

/-- N and F of R146, as one number of 24 fraction bits: the carrier over RFREF, 322,265,625/8 Hz. -/
def synWord (khz : Nat) : Nat := divRound (khz * 8000 * 2 ^ 24) 322265625

/-- Registers of a transceiver with Reset "pricking"; an absent one is gated, a present one is not, whatever gate a warm reset
has kept (R40, R74). -/
def State.trxLoad (s : State) (n : Nat) : State :=
  match s.trxRec n with
  | none => (s.setF (R.CLK_GATE_TRX.bit n) 1).setF (R.CLK_GATE_STAT_GATED.bit (gateTrx n)) 1
  | some r =>
    let s := ((s.setF (R.CLK_GATE_TRX.bit n) 0).setF (R.CLK_GATE_STAT_GATED.bit (gateTrx n)) 0).setF
      (R.CLK_GATE_STAT_PEND.bit (gateTrx n)) 0
    let s := (s.setF (R.TRX_TUNE_CENTRE_KHZ n) r.centreKhz).setF (R.TRX_SYN_N n) (synWord r.centreKhz / 2 ^ 24)
    let s := (s.setF (R.TRX_SYN_FRAC n) (synWord r.centreKhz)).setB (R.TRX_PATH_ON_A n) (bitOf r.aerials 0)
    (s.setB (R.TRX_PATH_ON_B n) (bitOf r.aerials 1)).setF (R.TRX_PWR_LIMIT n) (unsigned 8 r.maxPwr)

/-- Registers of a lane with Reset "pricking" (R169). -/
def State.laneLoad (s : State) (l : Nat) : State :=
  match s.laneRec l with
  | none => s
  | some r =>
    let s := (s.setF (R.LANE_CHAN_BIND l) r.bind).setF (R.LANE_STATE_PHY_MODE l) r.phyMode
    s.laneTune l (if r.bind = 1 then r.chanKhz else 0)

/-- Registers of a hoop with Reset "pricking"; an absent hoop's dividers read 0. -/
def State.hoopLoad (s : State) (h : Nat) : State :=
  match s.hoopRec h with
  | none => (s.setF (hoopIdleDiv h) 0).setF (hoopCur h) 0
  | some r =>
    let s := (s.setF (hoopIdleDiv h) r.idleDiv).setF (hoopCur h) 2
    if r.kind = 3 then (s.setF (R.PILLOW_HOOP_KILL h) 1).setF (R.PILLOW_HOOP_LIMIT h) 4096 else s

/-- Bobbins of present hoops, as PILLOW_STATE.MEMBER. -/
def State.members16 (s : State) : Nat := (List.range 16).foldl (fun m b => if (s.hoopOf b).isSome then m + 2 ^ b else m) 0

/-- Step 6 of R40. In RETURNED the role store holds the release key alone (R438). -/
def State.applySections (s : State) (p : Pricking) : State :=
  let s := { s with pr := p }
  let s := if s.ownerState = 3 then s else s.rolesLoad
  let s := { s with ms := { s.ms with switchAt := some s.mtb },
                    gd := { seed0 := p.table.seed0, seed1 := p.table.seed1 } }
  s.queuesReset

/-- Step 7 of R40: the register fields whose Reset is "pricking" that hold a value of their own. -/
def State.loadRegs (s : State) : State :=
  let p := s.pr
  let s := (s.setF R.GROUND_HASH_BASE_BASE (s.region 1).1).setF R.GROUND_LPT_CFG_AGE_LIMIT_S p.table.ageLimitS
  let s := s.each p.queues (fun s r =>
    (s.setF (R.QUEUE_WM_HIGH.bank r.queue) r.high).setF (R.QUEUE_WM_LOW.bank r.queue) r.low)
  let s := s.each (List.range 4) State.hoopLoad
  let s := s.each (List.range 4) State.trxLoad
  let s := s.each (List.range 96) State.laneLoad
  let s := (s.setF R.MAC_CTRL_PAN_EN (2 ^ p.pans.length - 1)).setF R.PILLOW_STATE_MEMBER s.members16
  let s := (s.setF R.CLK_MON_CFG_TOL_PPM p.time.monPpm).setF R.TIME_LIMIT_JUMP_NS p.time.jumpNs
  let s := match p.pair with
    | some r => (s.setF R.PAIR_STATE_ROLE 4).setF R.PAIR_STATE_PREF r.pref
    | none => s
  s.timeLoad

/-- The settings in force show in the slotframes of each TSCH PAN (R375). -/
def State.settingsLoad (s : State) : State :=
  s.each (List.range s.pr.pans.length) (fun s p =>
    if s.tsch p then
      let s := s.setF (R.MAC_SF_CFG_LENGTH.bank (sfBank p 0)) (s.sf0 p)
      (s.setF (R.MAC_SF_CFG_LENGTH.bank (sfBank p 1)) (s.sf1 p)).minimalCells p
    else s)

/-- A customer image's signature verifies under the key of EXT_SIGNER (R466). -/
def State.extGood (s : State) (k : Nat) (e : ManEntry) : Bool :=
  let signer := match s.pr.hoops.find? (fun r => r.kind == 3) with | some r => r.extSigner | none => 0
  let rd := s.flashOctets (entryAddr k e)
  match s.credOf signer with
  | some c => Config.verifies 3 c.pubKey (ascii "SVC4820 ext") (octetsAt rd 0 (e.len - 2420)) (beAt rd (e.len - 2420) 2420)
  | none => false

/-- The hoop images stand in the local memories of their hoops' bobbins (R86, R466). -/
def State.hoopImages (s : State) : State :=
  let k := s.booted
  s.each ((s.slotManifest k).entries.filter (fun e => e.typ == 2 || e.typ == 3)) (fun s e =>
    if e.typ = 3 && !s.extGood k e then
      ({ s with su := { s.su with extBad := true } }).raise R.UPDATE_EVENT_EXT_REJECT
    else
      let bs := (List.range 16).filter (fun b =>
        match s.hoopOf b with
        | some h => match s.hoopRec h with | some r => r.kind == e.dest | none => false
        | none => false)
      s.each bs (fun s b => s.writeBytes (localAddr b 0) (s.flashBytes (entryAddr k e) e.len)))

/-- The clock state that step 8 of R40 decides once (R53): the first qualified source of the order (R54), or HOLD with the
present control word as the held word. -/
def State.clockService (s : State) : State :=
  match s.bestSrc with
  | some n =>
    (if s.getF R.CLK_STATE_ROOT_SRC = n then s.setClkMode 1 else s.switchTo n).setDev devService
  | none => s.recordHeld.enterHold

/-- The state that BOOT's owner-root decision leads to in place of SERVICE, 0 none (R403, R438, R439). -/
def State.bootTurn (s : State) : Nat :=
  if s.ownerDecision = 2 then devTamper
  else if s.ownerDecision = 3 then (if s.su.sampler then devSampler else devReturned)
  else 0

/-- Step 8 of R40: the bobbins start, the transceivers go to STANDBY and calibrate (R89), the STARTING phase begins. -/
def State.enterService (s : State) : State :=
  let turn := s.bootTurn
  let s := if turn = 0 then s.clockService else (s.setDev turn).fenceUnit
  let s := (s.hoopImages.startInitRuns (List.range 16)).settingsLoad.timeStart
  let s := (s.setF R.START_STATE_PHASE 1).setF R.START_T_SERVICE_T (s.mtb / 64)
  let s := { s with su := { s.su with serviceAt := s.mtb, benchWait := false, stopped := false, calDone := [] } }
  if turn = 0 then
    s.each ((List.range 4).filter (fun n => (s.trxRec n).isSome)) (fun s n =>
      ((s.setTrx n { s.trx n with cal := 2 }).setF (R.TRX_STATE_TARGET n) 1).trxGo n)
  else s

/-- Steps 6 to 8 of R40 for a pricking that has passed. -/
def State.loadPricking (s : State) (p : Pricking) : State :=
  let s := s.auditNote ⟨6, 0, 0, 0, 2 * 2 ^ 24, 0, p.header.version⟩
  (s.applySections p).loadRegs.enterService

/-- The staging area is zeroed after a load from flash (R117). -/
def State.stagingClear (s : State) : State := { s with svc := { s.svc with staging := [], written := false } }

/-- A bench load has failed: START_FAIL holds it, it is no boot failure (R88, R117). -/
def State.benchFail (s : State) (f : LoadFault) : State :=
  ({ s with svc := { s.svc with commit := none, outcome := f.status } }).startFail f.status 0 f.typ f.offset

/-- PRICKING_LOAD_DONE: the pricking has been read and checked; `readFail` is the offset of the first page that could not be
read. -/
def execPrickingLoadDone (readFail : Option Nat) (t : Nat) (s : State) : Res :=
  if s.dev ≠ devLoad || s.su.heldAt ≠ 0 then .next s
  else
    let s := s.advance t
    if s.svc.commit = some false then
      let p := s.pricking s.stagingOctets none
      match s.loadFault p (counterOf s.up.prWords) with
      | some f => .next (s.benchFail f)
      | none => .next (({ s with svc := { s.svc with commit := none, outcome := ST.OK } }).loadPricking p)
    else if s.su.benchWait || s.su.stopped then .next s
    else
      let p := s.pricking (s.prOctets s.booted) readFail
      match s.flashFault p with
      | some f => .next (s.stagingClear.bootFailed f.status f.typ f.offset)
      | none => .next (s.stagingClear.loadPricking p)

/-- PRICKING_LOAD_TIMEOUT: a load from flash lasts longer than 25,781,250 cyc (R88). -/
def execPrickingLoadTimeout (t : Nat) (s : State) : Res :=
  if s.dev ≠ devLoad || s.su.heldAt ≠ 0 || s.su.benchWait || s.su.stopped then .next s
  else
    let s := s.advance t
    .next (if s.su.loadAt + 25781250 < s.mtb then s.stagingClear.bootFailed ST.START_LOAD_TIMEOUT 0xF00 0 else s)

/-- BENCH_CHECK_DONE: a check-only commit ends after step 5 (R44, R117). -/
def execBenchCheckDone (t : Nat) (s : State) : Res :=
  if s.svc.commit ≠ some true then .next s
  else
    let s := s.advance t
    match s.loadFault (s.pricking s.stagingOctets none) (counterOf s.up.prWords) with
    | some f => .next (s.benchFail f)
    | none => .next { s with svc := { s.svc with commit := none, outcome := ST.OK } }

/-! ### STARTING and RUNNING (R89 to R93) -/

/-- On its first trial boot the trial image migrates the settings into its own area, under a header with a GEN one higher than
the other area's; whether it can, its firmware decides (R477). -/
def State.migrate (s : State) : State :=
  if s.ro.stored.isNone && s.ry.settings.isEmpty then
    if s.freeVal % 2 = 0 then
      let gen := leAt (s.flashOctets (4096 * settingsPage (1 - s.up.area))) 4 8 + 1
      let s := ({ s with ry := { s.ry with settings := s.up.other } }).useFree.storeRoles
      s.programPages (settingsPage s.up.area) 1 (settingsHeader gen (s.slotManifest s.booted).settingsFmt s.booted)
    else s.useFree
  else s

/-- A trial boot reaches RUNNING: its window starts (R474); a unit that is TRIAL_OK goes on waiting (R479). -/
def State.trialStart (s : State) : State :=
  if !s.onTrial then s
  else
    let st := s.slotState s.booted
    let s := { s with up := { s.up with
      trialAt := some s.mtb, heldCyc := 0, result := st, okAt := if st = 3 then some s.mtb else none,
      resultTo := if s.pairOn then some noEnd else none } }
    (s.raise R.UPDATE_EVENT_ACTIVATED).migrate

/-- The first slot record, when RUNNING finds none and the slot was not forced (R468). -/
def State.firstRec (s : State) : State :=
  if s.up.rec_.isSome || s.getF R.START_OPT_SLOT ≠ 0 then s
  else
    let k := s.booted
    let m := s.slotManifest k
    let r := s.slotRec.setState k 4
    let s := s.putRec { r with primary := k, versions := r.versions.set k m.version, mdigs := r.mdigs.set k (mdigOf m.digest) }
    { s with up := { s.up with rolls := s.up.rolls.set k m.rollback } }

/-- Ryurix inserts the keys of every record that has VALID 1 again (R381), once RUNNING has begun and the hash is ready. -/
def State.keysAgain (s : State) : State :=
  if !s.running || !s.isSet R.GROUND_STATE_HASH_READY then s
  else
    let put (s : State) (e : HashEntry) : State :=
      let r := s.hashPut e
      if r.2 = ST.GROUND_HASH_FULL then r.1.ryEvent 3 else r.1
    s.each ((List.range s.pr.pans.length).flatMap s.members) (fun s n =>
      let s := put s ⟨s.recEui n, 0, n⟩
      if bitOf (s.recGet n 13 1) 2 then put s ⟨beNat (s.readBytes (s.recAddr n 64) 8), 1, n⟩ else s)

/-- HASH_ZEROING_DONE: the live area is zero and HASH_READY is set (R346), once after a reset that loaded the pricking; Ryurix inserts the keys of
the records it keeps. -/
def execHashZeroingDone (s : State) : Res :=
  if (s.inService || s.erasedLike) && !s.isSet R.GROUND_STATE_HASH_READY then
    let b := s.getF R.GROUND_HASH_BASE_BASE
    let s := s.dropMem b (b + 0x800000)
    .next ((({ s with gd := { s.gd with entries := s.gd.stash.length } }).setF R.GROUND_STATE_HASH_READY 1).keysAgain)
  else .next s

/-- RUNNING begins: slot timing (R92), outputs, the sleepy-node rebuild (R260), pair operation, trickle, a trial's window; the
transceivers that have passed their calibration go to RX (R156). -/
def State.goRunning (s : State) : State :=
  let s := (s.setF R.START_STATE_PHASE 2).setF R.START_T_RUN_T (s.mtb / 64)
  let s := (s.raise R.SYS_EVENT_RUNNING).setF R.START_BOOT_FAILS 0
  let s : State := { s with su := { s.su with failedSlots := [], heldAt := 0, heldFrom := none } }
  let s := s.releaseOutputs
  let s : State := { s with tm := { s.tm with runAt := s.mtb } }
  let s : State := { s with pa := { s.pa with runAt := some s.mtb } }
  let s := s.each ((List.range 4).filter (fun n => (s.trxRec n).isSome && s.isSet (R.TRX_CAL_STAT_CAL_OK n))) (fun s n =>
    ((s.setF (R.TRX_STATE_TARGET n) 3).trxGo n).replan n)
  let s := s.keysAgain.each (List.range s.pr.pans.length) State.trickleReset
  let s := if s.pairRole < 2 then { s with sl := { s.sl with rebuild := some 0 } } else s
  s.firstRec.trialStart

/-- START_CTRL.READY written 1 (R91, R97). -/
def State.readyWrite (s : State) (mainHoop : Bool) : State :=
  if !mainHoop then s.answer ST.START_READY_ROLE
  else if !s.starting then s.answer ST.START_READY_STATE
  else (s.setF R.START_STATE_READY 1).answer ST.OK

/-- The watchdog of STARTING (R91): LIMIT_MS has passed since SERVICE entry without READY, a boot failure and a warm reset with
cause 5. -/
def State.readyCheck (s : State) : State :=
  if !s.starting || s.isSet R.START_STATE_READY || s.su.heldAt ≠ 0 || s.su.warm.isSome then s
  else if s.su.serviceAt + msToCyc (s.getF R.START_WDOG_LIMIT_MS) ≤ s.mtb then
    (s.bootCount ST.START_READY_TIMEOUT 0xF00 0).requestWarm 5
  else s

/-- READY_WRITE: firmware writes START_CTRL.READY; `mainHoop`: firmware of the main hoop. -/
def execReadyWrite (mainHoop : Bool) (s : State) : Res := .next (s.readyWrite mainHoop)

/-- READY_TIMEOUT: time has passed in STARTING; the watchdog compares (R91). -/
def execReadyTimeout (t : Nat) (s : State) : Res :=
  if !s.starting || s.isSet R.START_STATE_READY || s.su.heldAt ≠ 0 || s.su.warm.isSome then .next s
  else .next (s.advance t).readyCheck

/-- ENTER_RUNNING: READY is written and every present transceiver has ended its calibration (R92); in a state that holds the
transceivers in SLEEP there is none to wait for. -/
def execEnterRunning (t : Nat) (s : State) : Res :=
  let done := (List.range 4).all (fun n => (s.trxRec n).isNone || s.su.calDone.contains n)
  if !s.starting || !s.isSet R.START_STATE_READY || s.su.heldAt ≠ 0 || s.su.warm.isSome || !(done || s.erasedLike) then .next s
  else
    let s := s.advance t
    .next (if s.getF R.START_OPT_HALT = 3 then s.holdAt 3 else s.goRunning)

/-- A write of 1 to START_CTRL.CONTINUE (R93). -/
def State.continueWrite (s : State) : State :=
  let p := s.su.heldAt
  if p = 0 then s.answer ST.START_NOT_HALTED
  else
    let s := ({ s with su := { s.su with heldAt := 0, heldFrom := none } }).setF R.START_STATE_PHASE 0
    (if p = 1 then s.enterBoot else if p = 2 then s.enterLoad else s.goRunning).answer ST.OK

/-- CONTINUE_WRITE. -/
def execContinueWrite (t : Nat) (s : State) : Res :=
  .next ((if s.rootRuns then s.advance t else s).continueWrite)

/-! ### Warm reset (R95) -/

/-- A write of 1 to SYS_RESET.WARM; without room for its record it is refused (R433). -/
def State.warmWrite (s : State) : State :=
  if !s.inService then s.refuse R.SYS_CMD_ERR_STATUS ST.SYS_RESET_STATE
  else if !s.auditRoom then (s.raise R.ROLE_EVENT_AUDIT_BUSY).refuse R.SYS_CMD_ERR_STATUS ST.ROLE_AUDIT_BUSY
  else (s.requestWarm 4).answer ST.OK

/-- WARM_RESET_WRITE. -/
def execWarmResetWrite (t : Nat) (s : State) : Res :=
  .next ((if s.rootRuns then s.advance t else s).warmWrite)

/-- WARM_RESET_PROCEED: nothing is on air any more and every transceiver is in SLEEP (R155): what was accepted since the request is
flushed (R204, R243), the blocks are reset and BOOT is entered. -/
def execWarmResetProceed (t : Nat) (s : State) : Res :=
  match s.su.warm with
  | none => .next s
  | some k =>
    let s1 := s.advance t
    let asleep := fun (v : Trx) => v.onAir.isNone && (match v.step with | some (_, e) => decide (e ≤ s1.mtb) | none => true)
    if !(List.range 4).all (fun n => asleep (s.trx n)) then .next s
    else
      let s := s1.macFlush.each (List.range 4) State.txFlush
      .next ((s.resetBlocks k false).writeCause k).enterBoot

end Sys2Proof.Machine
end

