-- ==== Sys2Proof/Machine/RegRead.lean ====
section
/-!
DEFINITION. Reading a register. A register's stored bits stand in `State.regs`; what a register shows of something the
state holds elsewhere (a table's use, a queue's level, a session) is computed here when it is read. A register that
shows a selected PAN, slotframe, queue, profile or log entry reads the bank that its selection register names.
-/
namespace Sys2Proof.Machine

/-- Whether a queue has a QUEUE_EVENT bit set. -/
def State.queuePends (s : State) (q : Nat) : Bool := s.getReg (R.QUEUE_EVENT + q * bankStride) ≠ 0

/-- The key of the register shown at `a`: the bank its selection register names, `a` itself where it has none (R307;
MAC_PAN_SEL, MAC_SF_SEL, MAC_HOP_SEL, MAC_DUTY_SEL, QUEUE_SEL, PILLOW_QT_SEL, TAMPER_LOG_SEL). -/
def State.bankOf (s : State) (a : Nat) : Nat :=
  let pan := s.getF R.MAC_PAN_SEL_PAN
  let bank : Nat :=
    if R.MAC_PAN_ADDR ≤ a && a ≤ R.MAC_PAN_EB_CFG then pan
    else if a = R.MAC_SF_CFG || a = R.MAC_SF_BASE then sfBank pan (s.getF R.MAC_SF_SEL_HANDLE)
    else if a = R.MAC_HOP_DATA then 128 * pan + s.getF R.MAC_HOP_SEL_INDEX
    else if a = R.MAC_DUTY_USED || a = R.MAC_DUTY_STAT then s.getF R.MAC_DUTY_SEL_PROFILE
    else if R.QUEUE_CFG ≤ a && a ≤ R.QUEUE_EVENT then s.getF R.QUEUE_SEL_QUEUE
    else if a = R.PILLOW_QT_TASK || a = R.PILLOW_QT_ORD then s.getF R.PILLOW_QT_SEL_QUEUE
    else if a = R.TAMPER_LOG then s.getF R.TAMPER_LOG_SEL_ENTRY
    else 0
  a + bank * bankStride

/-- The bits that `f` gives for 0 to n − 1, as a number. -/
def bitsFor (n : Nat) (f : Nat → Bool) : Nat := (List.range n).foldl (fun v i => if f i then v + 2 ^ i else v) 0

/-- What a field that holds at most `m` shows of `v`. -/
def upTo (m v : Nat) : Nat := min m v

/-- Whole µs and whole seconds in a number of cyc. -/
def cycUs (c : Nat) : Nat := c * 128 / 165000
def cycS (c : Nat) : Nat := c / secCyc

/-- The bobbin, ready-list and ordered-flow windows (12_pillow.md). -/
def State.showBobbin (s : State) : List (Field × Nat) :=
  let b := s.getF R.PILLOW_BOBBIN_SEL_BOBBIN
  let v := s.bobbin b
  let run : Nat × Nat := match v.running with
    | some i => (match s.task? i with | some t => (t.prio, taskHandle t.gen i) | none => (0, 0))
    | none => (0, 0)
  [(R.PILLOW_BOBBIN_HOOP, (s.hoopOf b).getD 0), (R.PILLOW_BOBBIN_INIT, bit v.init),
   (R.PILLOW_BOBBIN_PREFETCHED, bit v.pre.isSome), (R.PILLOW_BOBBIN_RUNNING, bit v.running.isSome),
   (R.PILLOW_BOBBIN_PRIO, run.1), (R.PILLOW_BOBBIN_TASK, run.2)]

/-- The tasks on the ready list that PILLOW_READY_SEL names. -/
def State.readyList (s : State) : List (Nat × Task) :=
  s.pl.tasks.filter (fun (t : Nat × Task) => t.2.state = .ready && t.2.prio = s.getF R.PILLOW_READY_SEL_PRIO &&
    s.hoopOfKind t.2.kind = some (s.getF R.PILLOW_READY_SEL_HOOP))

/-- The output stop time of an ACTIVE unit, else the takeover instant, as µs from now (PAIR_LEASE.LEFT_US). -/
def State.leaseLeft (s : State) : Nat :=
  if !s.pairOn then 0
  else if s.pairRole = 1 then cycUs (s.pa.leaseEnd - 20625 - s.mtb)
  else match s.pa.knownEnd with | some e => cycUs (e + 20625 - s.mtb) | none => 0

/-- Seconds left in the trial window (UPDATE_TRIAL.LEFT_S). -/
def State.trialLeft (s : State) : Nat :=
  match s.up.trialAt with
  | some a => if s.onTrial then cycS (a + s.slotRec.windowS * secCyc + s.up.heldCyc - s.mtb) else 0
  | none => 0

/-- The credential record and the session that ROLE_SEL shows. -/
def State.showRole (s : State) : List (Field × Nat) :=
  let l := s.ro.creds.filter (·.pricking) ++ s.enrolled
  let cred : List (Field × Nat) := match l[s.getF R.ROLE_SEL_CRED]? with
    | some c => [(R.ROLE_CRED_VALID, 1), (R.ROLE_CRED_ORIGIN, bit c.pricking), (R.ROLE_CRED_ROLE, c.role),
                 (R.ROLE_CRED_DIGEST, lead4 c.digest)]
    | none => []
  let sess : List (Field × Nat) := match Store.find? (s.getF R.ROLE_SEL_SESS) s.ro.sessions with
    | some v => [(R.ROLE_SESS_OPEN, 1), (R.ROLE_SESS_ROLE, v.role),
                 (R.ROLE_SESS_CRED, l.findIdx (fun c => c.digest == v.digest)),
                 (R.ROLE_SESS_IDLE_LEFT, cycS (v.lastReq + s.getF R.ROLE_CFG_IDLE_S * secCyc - s.mtb))]
    | none => []
  cred ++ sess

/-- The coexistence outputs of a set as SVC_COEX_STAT shows them: request, priority, and the synchronised grant, which is
an input that the model does not carry between commands (a free value). -/
def State.showCoex (s : State) (n : Nat) : Nat :=
  let ask := fun (v : Trx) => v.coex || v.coexNext.isSome
  let prio := fun (v : Trx) => v.prio || (match v.coexNext with | some (_, p) => p | none => false)
  bit (ask (s.trx n) || ask (s.trx (n + 1))) + 2 * bit (prio (s.trx n) || prio (s.trx (n + 1))) + 4 * (s.freeVal % 2)

/-- What the registers of CLK, START, SYS, TIME, LANE and MAC show of the state beside `regs`. -/
def State.showRadio (s : State) (a : Nat) : List (Field × Nat) :=
  let pan := s.getF R.MAC_PAN_SEL_PAN
  let prof := s.getF R.MAC_DUTY_SEL_PROFILE
  if a = R.CLK_HOLD then
    [(R.CLK_HOLD_HOLD_MS, if s.dev = devHold || s.dev = devHoldInhibit then upTo 65535 (cycUs (s.mtb - s.clk.holdAt) / 1000) else 0)]
  else if a = R.START_STATE then [(R.START_STATE_FAIL, bit (s.getF R.START_FAIL_STATUS != 0))]
  else if a = R.START_SUPPLY then [(R.START_SUPPLY_GOOD, bitsFor 9 (fun i => s.su.good.contains i))]
  else if a = R.SYS_ID then [(R.SYS_ID_GRADE, Config.grade)]
  else if a = R.TIME_STATE then [(R.TIME_STATE_EB_OK, bit s.ebOk)]
  else if (List.range 4).any (fun n => a = R.TRX_STATE n) then
    let n := a / 0x10000 - 0x2008
    [(R.TRX_STATE_BG_STEP n, bit (decide ((s.trx n).bgLast ≤ s.mtb + 1320) && decide (s.mtb < (s.trx n).bgLast)))]
  else if a / 0x10000 = 0x200C && a % 0x20 = 8 then
    let l := a % 0x10000 / 0x20
    [(R.LANE_STATE_SI l, bit (s.siMeets (laneTrx l) s.mtb s.mtb))]
  else if a = R.MAC_STATE then
    [(R.MAC_STATE_PAN_RUN, bitsFor 16 (fun p => s.panEnabled p && s.running)),
     (R.MAC_STATE_PENDING, (s.mac.frames.filter (fun f => f.2.state != .complete)).length)]
  else if a = R.MAC_EUI_LO then [(R.MAC_EUI_LO_EUI, idLo Config.eui64)]
  else if a = R.MAC_EUI_HI then [(R.MAC_EUI_HI_EUI, idHi Config.eui64)]
  else if a = R.MAC_PAN_ADDR then
    [(R.MAC_PAN_ADDR_PAN_ID, match s.panRec pan with | some r => r.panId | none => 0)]
  else if a = R.MAC_DUTY_USED then [(R.MAC_DUTY_USED_USED, upTo (2 ^ 32 - 1) (s.dutyUsed prof / 65536))]
  else if a = R.MAC_DUTY_STAT then [(R.MAC_DUTY_STAT_AT_LIMIT, bit (s.mac.atLimit.contains prof))]
  else []

/-- What the registers of PILLOW and QUEUE show. -/
def State.showPillow (s : State) (a : Nat) : List (Field × Nat) :=
  let q := s.getF R.QUEUE_SEL_QUEUE
  let flow := s.ordFlow (s.getF R.PILLOW_ORD_SEL_FLOW)
  if a = R.PILLOW_STATE then
    [(R.PILLOW_STATE_BUSY, bitsFor 16 (fun b => (s.bobbin b).running.isSome || (s.bobbin b).pre.isSome))]
  else if a = R.PILLOW_USE then
    [(R.PILLOW_USE_TASKS, s.pl.tasks.length), (R.PILLOW_USE_PINS, s.pl.pins.length)]
  else if a = R.PILLOW_USE2 then
    [(R.PILLOW_USE2_ATOMIC, s.pl.atomics.length), (R.PILLOW_USE2_RECORDS, s.pl.records.length)]
  else if a = R.PILLOW_USE3 then
    [(R.PILLOW_USE3_STAGED, s.stagedCount), (R.PILLOW_USE3_PARKED, s.parkedCount)]
  else if R.PILLOW_HOOP 0 ≤ a && a ≤ R.PILLOW_HOOP 3 then
    let h := (a - R.PILLOW_HOOP 0) / 4
    [(R.PILLOW_HOOP_KIND h, match s.hoopRec h with | some r => r.kind | none => 0)]
  else if a = R.PILLOW_BOBBIN then s.showBobbin
  else if a = R.PILLOW_BOBBIN_TASKS then
    [(R.PILLOW_BOBBIN_TASKS_ENDED, (s.bobbin (s.getF R.PILLOW_BOBBIN_SEL_BOBBIN)).ended)]
  else if a = R.PILLOW_READY then
    [(R.PILLOW_READY_COUNT, s.readyList.length),
     (R.PILLOW_READY_BLOCKED, (s.readyList.filter (fun (t : Nat × Task) =>
       match t.2.flow with | some f => s.flowHeld f | none => false)).length)]
  else if a = R.PILLOW_ORD then
    [(R.PILLOW_ORD_OUTSTANDING, flow.next - flow.oldest), (R.PILLOW_ORD_NEXT, flow.next)]
  else if a = R.PILLOW_TIMER0 then
    [(R.PILLOW_TIMER0_T0, (s.liveTimers 0).length), (R.PILLOW_TIMER0_T1, (s.liveTimers 1).length)]
  else if a = R.PILLOW_TIMER1 then [(R.PILLOW_TIMER1_T2, (s.liveTimers 2).length)]
  else if a = R.PILLOW_TIMER2 then [(R.PILLOW_TIMER2_T3, s.sl.t3.length)]
  else if a = R.QUEUE_CFG then
    match s.queueRec q with
    | none => []
    | some r => [(R.QUEUE_CFG_CONSUMER, r.consumer), (R.QUEUE_CFG_LOG2_DEPTH, r.depth.log2), (R.QUEUE_CFG_MEM, r.mem),
                 (R.QUEUE_CFG_ASYNC, r.flags), (R.QUEUE_CFG_PRESENT, 1), (R.QUEUE_CFG_PFC, r.pfc),
                 (R.QUEUE_CFG_FCP, r.fcp)]
  else if a = R.QUEUE_LEVEL then
    let v := s.queue q
    [(R.QUEUE_LEVEL_ABOVE, bit v.above), (R.QUEUE_LEVEL_DROPPING, bit (!v.dropping.isEmpty)),
     (R.QUEUE_LEVEL_LEVEL, v.level)]
  else if a = R.QUEUE_FCP then
    [(R.QUEUE_FCP_PFC_UPL0, bitsFor 8 (s.pfcCond 0)), (R.QUEUE_FCP_PFC_UPL1, bitsFor 8 (s.pfcCond 1))]
  else if R.QUEUE_PEND 0 ≤ a && a ≤ R.QUEUE_PEND 7 then
    let k := (a - R.QUEUE_PEND 0) / 4
    [(R.QUEUE_PEND_PEND k, bitsFor 32 (fun j => s.queuePends (32 * k + j)))]
  else []

/-- What the registers of MEM, GROUND and KEY show. -/
def State.showMem (s : State) (a : Nat) : List (Field × Nat) :=
  let c := s.getF R.MEM_CLASS_SEL
  if a = R.MEM_SLOT then [(R.MEM_SLOT_CLASS, s.slotClass (s.getF R.MEM_SLOT_SLOT))]
  else if a = R.MEM_CLASS then
    [(R.MEM_CLASS_MAX_WAIT, upTo 4095 (Store.get (fun _ => 0) s.ms.maxWait c)),
     (R.MEM_CLASS_OWNED, ((List.range 248).filter (fun n => s.slotClass n = c)).length),
     (R.MEM_CLASS_BURST, burstLog c)]
  else if a = R.MEM_POOL then [(R.MEM_POOL_PKT_FREE, s.pktCount - s.ms.pktTaken.length)]
  else if a = R.GROUND_STATE then [(R.GROUND_STATE_STASH, s.gd.stash.length)]
  else if a = R.GROUND_CMD_STAT then
    [(R.GROUND_CMD_STAT_BUSY, bit s.gd.rehash.isSome), (R.GROUND_CMD_STAT_PENDING, s.gd.fifo.length)]
  else if a = R.GROUND_HASH_USE then [(R.GROUND_HASH_USE_ENTRIES, s.gd.entries)]
  else if a = R.GROUND_LPT_USE then [(R.GROUND_LPT_USE_ENTRIES, s.gd.lpt.length)]
  else if a = R.GROUND_PAN_MAP then [(R.GROUND_PAN_MAP_BASE, s.panBase (s.getF R.GROUND_PAN_MAP_PAN))]
  else if a = R.KEY_STATE then [(R.KEY_STATE_OWNER, s.ownerState), (R.KEY_STATE_SLOTS, s.ky.slots.length)]
  else if a = R.KEY_CMD_STAT then [(R.KEY_CMD_STAT_PENDING, s.ky.fifo.length)]
  else if a = R.KEY_SLOT_ATTR then
    [(R.KEY_SLOT_ATTR_ATTR, match s.keySlot (s.getF R.KEY_SLOT_SEL_SLOT) with | some k => k.attr | none => 0)]
  else if a = R.KEY_CTX then [(R.KEY_CTX_IN_USE, s.ky.ctxs.length)]
  else []

/-- What the registers of ROLE, PAIR, UPDATE and SVC show. -/
def State.showRest (s : State) (a : Nat) : List (Field × Nat) :=
  if a = R.ROLE_STATE then
    [(R.ROLE_STATE_SESSIONS, s.ro.sessions.length), (R.ROLE_STATE_ENROLLED, s.enrolled.length),
     (R.ROLE_STATE_PRICKING, (s.ro.creds.filter (·.pricking)).length), (R.ROLE_STATE_VISITS_LEFT, bit (s.ro.visits < 16))]
  else if a = R.ROLE_CRED || a = R.ROLE_SESS then s.showRole
  else if a = R.ROLE_AUDIT then [(R.ROLE_AUDIT_HEAD, s.ro.seq)]
  else if a = R.PAIR_STATE then
    if s.pairOn then [(R.PAIR_STATE_WIT_UP, bit s.witUp)] else [(R.PAIR_STATE_ROLE, 0), (R.PAIR_STATE_PREF, 0)]
  else if a = R.PAIR_LEASE then [(R.PAIR_LEASE_LEFT_US, upTo 65535 s.leaseLeft)]
  else if a = R.PAIR_MIRROR then
    [(R.PAIR_MIRROR_JOURNAL_KB, divUp (journalOctets s.pa.journal) 1024), (R.PAIR_MIRROR_BEHIND, upTo 65535 s.pa.journal.length)]
  else if a = R.UPDATE_STATE then
    [(R.UPDATE_STATE_HOLDER, s.upHolder), (R.UPDATE_STATE_SET_AREA, s.up.area), (R.UPDATE_STATE_PHASE, s.trialPhase),
     (R.UPDATE_STATE_TRIAL, bit s.onTrial), (R.UPDATE_STATE_PRIMARY, s.slotRec.primary)]
  else if a = R.UPDATE_SLOTS then
    [(R.UPDATE_SLOTS_FW_WORDS, s.up.fwWords.length), (R.UPDATE_SLOTS_PR_WORDS, s.up.prWords.length),
     (R.UPDATE_SLOTS_TRIES, s.slotRec.tries), (R.UPDATE_SLOTS_STATE_B, s.slotState 1), (R.UPDATE_SLOTS_STATE_A, s.slotState 0)]
  else if a = R.UPDATE_TRIAL then [(R.UPDATE_TRIAL_LEFT_S, upTo 4095 s.trialLeft)]
  else if a = R.UPDATE_FW_RB then [(R.UPDATE_FW_RB_VALUE, counterOf s.up.fwWords)]
  else if a = R.UPDATE_PR_RB then [(R.UPDATE_PR_RB_VALUE, counterOf s.up.prWords)]
  else if a = R.SVC_COEX_STAT then [(R.SVC_COEX_STAT_S, s.showCoex 0), (R.SVC_COEX_STAT_W, s.showCoex 2)]
  else if a = R.SVC_EVENT_SUM then
    [(R.SVC_EVENT_SUM_STATE, bit s.stateAsserts), (R.SVC_EVENT_SUM_BLOCK, s.eventSum)]
  else if a = R.SVC_PORT_STAT then
    [(R.SVC_PORT_STAT_OUT, s.svc.outbound.length), (R.SVC_PORT_STAT_IN_FULL, bit s.svc.inbound.isSome)]
  else []

/-- The word that a register reads as: its stored bits and what it shows of the state beside them. While QUEUE_SEL names
an absent queue the queue window reads 0 (R307); MEM_BUF's read is execMemBufTake's. -/
def State.regWord (s : State) (a : Nat) : Word :=
  if R.QUEUE_CFG ≤ a && a ≤ R.QUEUE_EVENT && (s.queueRec (s.getF R.QUEUE_SEL_QUEUE)).isNone then 0
  else
    let w := s.getReg (s.bankOf a) &&& ~~~ regAccessMask .w1s a
    (s.showRadio a ++ s.showPillow a ++ s.showMem a ++ s.showRest a).foldl (fun (w : Word) (f : Field × Nat) =>
      if f.1.addr = a then f.1.put w f.2 else w) w

/-- The value of the field of a register as it reads. -/
def State.shown (s : State) (f : Field) : Nat := f.get (s.regWord f.addr)

/-- The custom CSRs of a bobbin (R263): 0xFC0 and 0xFC1 read as bits [31:0] and [63:32] of the MAC time base; none for any other
number, which the RV32IMAC core's own registers have. -/
def State.customCsr (s : State) (n : Nat) : Option Word :=
  if n = 0xFC0 then some (BitVec.ofNat 32 s.mtb) else if n = 0xFC1 then some (BitVec.ofNat 32 (s.mtb / 2 ^ 32)) else none

end Sys2Proof.Machine
end

