-- ==== Sys2Proof/Machine/RegWrite.lean ====
section
/-!
DEFINITION. Writing a register: who writes it, the checks in the order of R499, the fields it changes, and the actions it
starts. Every register of Table 14.8 is written here; the commands that have rows of their own act through the same
functions.
-/
namespace Sys2Proof.Machine

/-- Who accesses a register: the firmware of a bobbin, a session of CMP by its number, the service port's own commands. -/
inductive Writer where
  | bobbin (b : Nat)
  | session (n : Nat)
  | service
  deriving DecidableEq, Repr

/-- The role code of the writer (R427); firmware and the service port act as 0. -/
def State.writerRole (s : State) (w : Writer) : Nat :=
  match w with
  | .session n => (match Store.find? n s.ro.sessions with | some v => v.role | none => 0)
  | _ => 0

/-- The writer as a record names it (Table 19.5). -/
def State.who (s : State) (w : Writer) : Who :=
  match w with
  | .session n => (match Store.find? n s.ro.sessions with | some v => ⟨v.role, lead4 v.digest⟩ | none => ⟨0, 0⟩)
  | _ => ⟨0, 0⟩

/-- Whether the writer is firmware of the customer hoop, of the main hoop. -/
def State.byCustomer (s : State) (w : Writer) : Bool :=
  match w with
  | .bobbin b => (match s.hoopOf b with | some h => s.isCustomer h | none => false)
  | _ => false
def State.byMain (s : State) (w : Writer) : Bool :=
  match w with
  | .bobbin b => s.hoopOf b = some s.mainHoop
  | _ => false

/-- What VIS grants at a register: 0 nothing, 1 reads, 2 reads and writes (R29, R30, R11). -/
def State.granted (s : State) (w : Writer) (a : Nat) : Nat :=
  let bits (k : Nat) : Nat := match visIndex? a with
    | some i => s.pr.vis.getD i 0 / 4 ^ k % 4
    | none => 0
  match w with
  | .session _ => bits (s.writerRole w - 1)
  | .bobbin _ => if s.byCustomer w then bits 3 else 2
  | .service => 2

/-- The first copy of the register at `a`, and which copy `a` is: UPLn, TRXn, a lane, a time domain. -/
def firstCopy (a : Nat) : Nat × Nat :=
  let b := a / 0x10000
  if b = 0x2003 || b = 0x2004 then (0x20030000 + a % 0x10000, b - 0x2003)
  else if 0x2008 ≤ b && b ≤ 0x200B then (0x20080000 + a % 0x10000, b - 0x2008)
  else if b = 0x200C then (0x200C0000 + a % 0x20, a % 0x10000 / 0x20)
  else if 0x20060140 ≤ a && a < 0x20060180 then (a - 0x40, 1)
  else (a, 0)

/-- A refusal at a register, in the refusal register of its block (R501, Table 23.1). -/
def State.refuseAt (s : State) (a st : Nat) : State :=
  let b := blockOf a
  if b = 0 then s.refuse R.SYS_CMD_ERR_STATUS st
  else if b = 1 then s.clkRefuse 31 st
  else if b = 2 || b = 5 then s.answer st
  else if b = 3 || b = 4 then s.refuse (R.UPL_CMD_ERR_STATUS (b - 3)) st
  else if b = 6 then s.refuse R.TIME_CMD_ERR_STATUS st
  else if b ≤ 10 then s.refuse (R.TRX_CMD_ERR_STATUS (b - 7)) st
  else if b = 11 then s.refuse (R.LANE_CFG_STATUS (firstCopy a).2) st
  else if b = 12 then s.refuse R.MAC_CMD_ERR_STATUS st
  else if b = 13 then s.refuse R.SLEEP_CMD_ERR_STATUS st
  else if b = 14 then s.refuse R.PILLOW_CMD_ERR_STATUS st
  else if b = 15 then s.queueRefuse (s.getF R.QUEUE_SEL_QUEUE) st
  else if b = 16 then s.refuse R.MEM_CMD_ERR_STATUS st
  else if b = 17 then s.refuse R.GROUND_CMD_ERR_STATUS st
  else if b = 18 || b = 19 then s.refuse R.KEY_CMD_ERR_STATUS st
  else if b = 20 then s.refuse R.ROLE_STATE_STATUS st
  else if b = 21 then s.refuse R.PAIR_CMD_ERR_STATUS st
  else if b = 22 then s.refuse R.UPDATE_CMD_ERR_STATUS st
  else s.refuse R.SVC_CMD_ERR_STATUS st

/-- The word with which a block refuses a field out of its range. -/
def rangeWord (a : Nat) : Nat :=
  let b := blockOf a
  if b ≤ 1 then ST.CLK_RANGE else if b = 2 then ST.START_RANGE
  else if b = 3 || b = 4 then ST.UPL_RANGE (b - 3) else if b = 5 then ST.TIE_RANGE else if b = 6 then ST.TIME_RANGE
  else if b ≤ 10 then (if (firstCopy a).1 = R.TRX_WAKE 0 then ST.TX_RANGE (b - 7) else ST.TRX_RANGE (b - 7))
  else if b = 11 then ST.LANE_RANGE else if b = 12 then ST.MAC_RANGE else if b = 13 then ST.SLEEP_RANGE
  else if b = 14 then ST.PILLOW_RANGE else if b = 15 then ST.QUEUE_RANGE else if b = 16 then ST.MEM_RANGE
  else if b = 17 then ST.GROUND_RANGE else if b = 18 then ST.KEY_RANGE else if b = 19 then ST.TAMPER_RANGE
  else if b = 20 then ST.ROLE_RANGE else if b = 21 then ST.PAIR_RANGE else if b = 22 then ST.UPDATE_RANGE
  else ST.SVC_RANGE

/-- The ranges of the register tables that do not depend on the state, by the field of the first copy, high bits first:
unsigned fields, then signed ones. -/
def ranges1 : List (Field × Nat × Nat) :=
  [(R.CLK_MON_CFG_TOL_PPM, 10, 500), (R.CLK_MON_CFG_REQUAL, 1, 15), (R.CLK_IDLE_CYC_IDLE, 1024, 0xFFFFFF),
   (R.START_OPT_SLOT, 0, 2), (R.START_WDOG_LIMIT_MS, 100, 60000), (R.UPL_CFG_TXEQ 0, 0, 7), (R.UPL_CFG_ALLOW 0, 1, 3),
   (R.UPL_FC_QUANTA 0, 1, 65535), (R.UPL_FC_MODE 0, 0, 2), (R.TIME_CFG_FREEZE_S, 1, 255), (R.TIME_LIMIT_SLEW, 1, 2000),
   (R.TIME_LIMIT_JUMP_NS, 100, 1000000), (R.TIME_DOM_CFG_LOCK_NS 0, 10, 10000), (R.TIME_DOM_CFG_STEP_NS 0, 20, 65535),
   (R.TRX_CAL_TEMP_K 0, 5, 100), (R.TRX_CAL_BG_PERIOD 0, 1, 3600), (R.LANE_CFG_CAPTURE 0, 3, 15),
   (R.LANE_CFG_AERIAL 0, 0, 2), (R.TRX_WAKE_PRE_BITS 0, 8, 64)]
def ranges2 : List (Field × Nat × Nat) :=
  [(R.MAC_TSCH_CFG_MAX_BE, 3, 8), (R.MAC_CSMA_CFG_MAX_BACKOFFS, 0, 5), (R.MAC_CSMA_CFG_MAX_BE, 3, 8),
   (R.MAC_ACK_CFG_SLIDE_US, 0, 150), (R.MAC_DUP_CFG_HOLD_MS, 10, 10000), (R.MAC_PAN_ADDR_SHORT, 0, 0xFFFD),
   (R.MAC_PAN_CHAN_HOP_LEN, 1, 128), (R.MAC_PAN_KEY_KEY_INDEX, 1, 255), (R.MAC_PAN_EB_CFG_LEN, 0, 2047),
   (R.SLEEP_CFG_RESYNC_PCT, 50, 95), (R.SLEEP_CFG_FILT, 1, 8), (R.SLEEP_GUARD_STEER_US, 100, 4000),
   (R.SLEEP_GUARD_MARGIN_US, 0, 1000), (R.SLEEP_GUARD_BASE_US, 1, 1000), (R.SLEEP_LADDER_SWEEP_MAX, 2, 14),
   (R.SLEEP_LADDER_RETRY_L0, 1, 15), (R.SLEEP_LADDER_WUS_MAX_MS, 1, 255), (R.SLEEP_WAKE_WK_WAIT_MS, 10, 65535),
   (R.SLEEP_WAKE_WK_PARAM, 1, 65535)]
def ranges3 : List (Field × Nat × Nat) :=
  [(R.PILLOW_CUST_SIZE_SIZE, 0, 32), (R.MEM_CLASS_SEL, 0, 14), (R.GROUND_LPT_CFG_HYST, 1, 15),
   (R.GROUND_LPT_CFG_ALPHA, 0, 4), (R.GROUND_LPT_CFG_AGE_LIMIT_S, 1, 32768), (R.ROLE_CFG_IDLE_S, 10, 65535),
   (R.ROLE_CFG_CKPT_PAGES, 1, 63), (R.ROLE_SEL_CRED, 0, 23), (R.ROLE_SEL_SESS, 3, 7), (R.PAIR_CTRL_ALONE_MS, 10, 65535),
   (R.UPDATE_CFG_WINDOW_S, 10, 3600), (R.UPDATE_CFG_TRIES, 1, 3), (R.UPDATE_CFG_IDLE_S, 60, 3600),
   (R.SVC_PIN_CFG_DRV_COEX, 0, 1), (R.SVC_PIN_CFG_DRV_FCP, 0, 1), (R.SVC_PIN_CFG_DRV_GPIO, 0, 1)]
def signedRanges : List (Field × Int × Int) :=
  [(R.TIME_DOM_ASYM_ASYM 0, -400000, 400000), (R.MAC_CSMA_CFG_CCA_THR, -110, -50)]

/-- Whether the word changes the field of the register (R9). -/
def Field.changed (f : Field) (old new : Word) : Bool := f.get new != f.get old

/-- Whether a changed field lies outside its range (R9). -/
def outOfRange (first : Nat) (old new : Word) : Bool :=
  ((ranges1 ++ ranges2 ++ ranges3).any fun r =>
    r.1.addr == first && r.1.changed old new && (r.1.get new < r.2.1 || r.2.2 < r.1.get new)) ||
  (signedRanges.any fun r =>
    r.1.addr == first && r.1.changed old new &&
    (signed r.1.width (r.1.get new) < r.2.1 || r.2.2 < signed r.1.width (r.1.get new)))

/-- Whether the customer window of base `b` and `n` units lies in the firmware area (R312). -/
def windowOk (b n : Nat) : Bool := n = 0 || (inFirmwareArea b && inFirmwareArea (b + n * 0x10000 - 1))

/-- Whether every transceiver that takes part in the coexistence set of TRXn and TRXn+1 is in SLEEP or STANDBY (R490). -/
def State.coexIdle (s : State) (n : Nat) : Bool :=
  [n, n + 1].all (fun m => !s.coexOn m || s.trxState m < 2)

/-- The conditions on changed fields that depend on the state, as (condition, word) in the order of R499: BAD-ARG before
REFUSED-STATE. `c` is the copy of the register, `old` and `new` its word before and after. -/
def State.fieldChecks (s : State) (a first c : Nat) (old new : Word) : List (Bool × Nat) :=
  let ch (f : Field) : Bool := f.changed old new
  let pan := s.getF R.MAC_PAN_SEL_PAN
  let slots : Nat := match s.panRec pan with | some r => r.slotframes | none => 0
  let rng := rangeWord a
  if first = R.CLK_HOOP_DIV then
    (List.range 4).reverse.map (fun h =>
      let f := hoopIdleDiv h
      (ch f && ((s.hoopRec h).isNone || h = s.mainHoop || f.get new < 2 || 4 < f.get new), rng))
  else if first = R.START_OPT then
    [(old != new && !(s.dev = devAwait || s.dev = devRootLock || s.dev = devDramTrain || s.su.heldAt ≠ 0), ST.START_OPT_STATE)]
  else if first = R.UPL_CFG 0 then [(ch (R.UPL_CFG_FEC_ADV 0) && (R.UPL_CFG_FEC_ADV 0).get new = 1, rng)]
  else if first = R.TIME_EPOCH_LO || first = R.TIME_EPOCH_HI then
    [(old != new && (s.isSet R.TIME_STATE_STEPPED || s.pairRole = 2), ST.TIME_EPOCH_STATE)]
  else if first = R.TIME_DOM_CFG 0 || first = R.TIME_DOM_ASYM 0 then
    [(old != new && s.domState (c + 1) = 0, ST.TIME_DOM_ABSENT)]
  else if first = R.TRX_PWR 0 then
    let most : Int := match s.trxRec c with | some r => r.maxPwr | none => 0
    let lim := signed 8 ((R.TRX_PWR_LIMIT 0).get new)
    let dfl := signed 8 ((R.TRX_PWR_DEFAULT 0).get new)
    [(ch (R.TRX_PWR_LIMIT 0) && (lim < -40 || most < lim), rng),
     (ch (R.TRX_PWR_DEFAULT 0) && (dfl < -40 || (if c < 2 then 40 else 24) < dfl), rng)]
  else if first = R.TRX_FEM_CTRL 0 then [(old != new && 2 ≤ s.trxState c, ST.TRX_STATE c)]
  else if first = R.TRX_WAKE 0 then
    [(old != new && (match s.trxRec c with | some r => r.wake = 0 | none => true), ST.TX_WAKE_OFF c)]
  else if first = R.LANE_CFG 0 then
    let v := (R.LANE_CFG_AERIAL 0).get new
    let n := laneTrx c
    [(ch (R.LANE_CFG_AERIAL 0) &&
      ((v = 1 && !s.isSet (R.TRX_PATH_ON_A n)) || (v = 2 && !s.isSet (R.TRX_PATH_ON_B n))), rng)]
  else if first = R.MAC_TSCH_CFG then
    [(ch R.MAC_TSCH_CFG_MIN_BE && R.MAC_TSCH_CFG_MAX_BE.get new < R.MAC_TSCH_CFG_MIN_BE.get new, rng)]
  else if first = R.MAC_CSMA_CFG then
    [(ch R.MAC_CSMA_CFG_MIN_BE && R.MAC_CSMA_CFG_MAX_BE.get new < R.MAC_CSMA_CFG_MIN_BE.get new, rng)]
  else if first = R.MAC_PAN_SEL then [(old != new && (s.panRec (R.MAC_PAN_SEL_PAN.get new)).isNone, rng)]
  else if R.MAC_PAN_ADDR ≤ first && first ≤ R.MAC_PAN_EB_CFG then
    [(old != new && (s.panRec pan).isNone, rng), (first = R.MAC_PAN_CHAN && ch R.MAC_PAN_CHAN_HOP_LEN && !s.tsch pan, ST.MAC_NOT_TSCH)]
  else if first = R.MAC_SF_SEL then
    [(old != new && !s.tsch pan, ST.MAC_NOT_TSCH), (old != new && slots ≤ R.MAC_SF_SEL_HANDLE.get new, rng)]
  else if first = R.MAC_SF_BASE then
    let b := sfBank pan (s.getF R.MAC_SF_SEL_HANDLE)
    [(old != new && !s.tsch pan, ST.MAC_NOT_TSCH), (old != new && new.toNat % 256 ≠ 0, ST.MAC_ROW),
     (old != new && s.isSet (R.MAC_SF_CFG_EN.bank b), ST.MAC_STATE)]
  else if first = R.MAC_HOP_SEL || first = R.MAC_HOP_DATA then [(old != new && !s.tsch pan, ST.MAC_NOT_TSCH)]
  else if first = R.MAC_DUTY_SEL then [(old != new && s.pr.profiles.length ≤ R.MAC_DUTY_SEL_PROFILE.get new, rng)]
  else if first = R.SLEEP_LINK_A then
    [(old != new && s.pr.table.nodeLimit ≤ R.SLEEP_LINK_A_NODE_A.get new, rng), (old != new && !s.roleSends, ST.SLEEP_STATE)]
  else if first = R.PILLOW_HW_ORD || first = R.PILLOW_QT_ORD then
    let v := new.toNat % 65536
    [(old != new && v ≠ 0xFFFF && s.pr.orderedFlows ≤ v, rng)]
  else if R.PILLOW_HOOP 0 ≤ first && first ≤ R.PILLOW_HOOP 3 then
    let h := (first - R.PILLOW_HOOP 0) / 4
    [((s.hoopRec h).isNone && old != new, stNotCreated 14),
     (s.isCustomer h && (R.PILLOW_HOOP_LIMIT h).changed old new && (R.PILLOW_HOOP_LIMIT h).get new = 0, rng)]
  else if first = R.PILLOW_ORD_SEL then [(old != new && s.pr.orderedFlows ≤ R.PILLOW_ORD_SEL_FLOW.get new, rng)]
  else if first = R.PILLOW_QT_SEL then
    [(old != new && !(s.consumedBy 0x10).contains (R.PILLOW_QT_SEL_QUEUE.get new), rng)]
  else if first = R.PILLOW_CUST_WIN then
    [(old != new && (new.toNat % 0x10000 ≠ 0 || !windowOk new.toNat (s.getF R.PILLOW_CUST_SIZE_SIZE)), rng)]
  else if first = R.PILLOW_CUST_SIZE then
    [(old != new && !windowOk (s.getF R.PILLOW_CUST_WIN_BASE) (R.PILLOW_CUST_SIZE_SIZE.get new), rng)]
  else if first = R.GROUND_PAN_MAP then [(old != new && (s.panRec (R.GROUND_PAN_MAP_PAN.get new)).isNone, rng)]
  else if first = R.GROUND_ALT_BASE then
    [(old != new && (s.isSet R.GROUND_STATE_REHASH || s.isSet R.GROUND_STATE_ALT_READY), ST.GROUND_REHASH_STATE)]
  else if first = R.PAIR_CFG || first = R.PAIR_CTRL then [(!s.pairOn, ST.PAIR_OFF)]
  else if first = R.SVC_COEX_CFG then
    [((ch R.SVC_COEX_CFG_POL_W && !s.coexIdle 2) || (ch R.SVC_COEX_CFG_POL_S && !s.coexIdle 0), ST.SVC_PIN_STATE)]
  else []

/-- The first field check that fails: a range, then the conditions above. A unit without a PAIR section is answered so
whatever the fields say (R461), and a transceiver without wake keying and a disabled time domain likewise. -/
def State.fieldFault (s : State) (a : Nat) (old new : Word) : Option Nat :=
  let f := firstCopy a
  if f.1 = R.PAIR_CFG || f.1 = R.PAIR_CTRL || f.1 = R.TRX_WAKE 0 || f.1 = R.TIME_DOM_CFG 0 || f.1 = R.TIME_DOM_ASYM 0 then
    firstFail (s.fieldChecks a f.1 f.2 old new ++ [(outOfRange f.1 old new, rangeWord a)])
  else firstFail ((outOfRange f.1 old new, rangeWord a) :: s.fieldChecks a f.1 f.2 old new)

/-! ### Actions -/

/-- Actions one after another until one is refused. -/
def State.runActions (s : State) : List (State → State) → State
  | [] => s
  | f :: l => if s.resp = ST.OK then (f s).runActions l else s

/-- The actions of a write, the high bits' first; where one is refused nothing of the write stays (R498). -/
def State.actions (s : State) (a : Nat) (l : List (State → State)) : State :=
  let t := (s.answer ST.OK).runActions l
  if t.resp = ST.OK then t else s.refuseAt a t.resp

/-- An action that a bit starts. -/
def onBit (w : Word) (f : Field) (g : State → State) : List (State → State) := if f.get w = 1 then [g] else []

/-- A plain change of a register's RW bits. -/
def State.putRw (s : State) (a : Nat) (w : Word) : State :=
  let k := s.bankOf a
  let m := regAccessMask .rw a
  (s.setReg k ((w &&& m) ||| (s.getReg k &&& ~~~ m))).answer ST.OK

/-- A unit's gate bit is written: a bit that changes requests or removes the gate (R72). -/
def State.gateBit (s : State) (w : Word) (u : Nat) : State :=
  let new := bitOf w.toNat u
  if new = bitOf (s.getF clkGate) u then s else if new then s.gateRequest u else s.ungate u

/-- CLK_GATE: each bit that changes, the high bits first; where one is refused nothing of the write stays but the refusal's
record. -/
def State.gateWrite (s : State) (w : Word) : State :=
  let t := (s.answer ST.OK).runActions ((List.range 13).reverse.map (fun u t => t.gateBit w u))
  if t.resp = ST.OK then t else (s.setReg R.CLK_CMD_ERR (t.getReg R.CLK_CMD_ERR)).answer t.resp

/-- GROUND_ALT_SEED: one 16-bit part of an alternate seed (R350, R351). -/
def State.altSeed (s : State) (w : Word) : State :=
  let p := R.GROUND_ALT_SEED_PART.get w
  let v := R.GROUND_ALT_SEED_VALUE.get w
  let part (seed k : Nat) : Nat := seed - seed / 2 ^ (16 * k) % 65536 * 2 ^ (16 * k) + v * 2 ^ (16 * k)
  if 8 ≤ p then s.refuse R.GROUND_CMD_ERR_STATUS ST.GROUND_RANGE
  else if s.isSet R.GROUND_STATE_REHASH || s.isSet R.GROUND_STATE_ALT_READY then
    s.refuse R.GROUND_CMD_ERR_STATUS ST.GROUND_REHASH_STATE
  else if p < 4 then ({ s with gd := { s.gd with alt0 := part s.gd.alt0 p } }).answer ST.OK
  else ({ s with gd := { s.gd with alt1 := part s.gd.alt1 (p - 4) } }).answer ST.OK

/-- FEM_CTRL: from RUNNING on (R82) the FEM_BYP line takes BYP, FEM_ANT takes ANT_RX outside transmissions (R162). -/
def State.femWrite (s : State) (n : Nat) (w : Word) : State :=
  let t := s.putRw (R.TRX_FEM_CTRL n) w
  let ch (f : Field) : Bool := s.su.outputs && f.changed (s.getReg (R.TRX_FEM_CTRL n)) w
  let t := if ch (R.TRX_FEM_CTRL_BYP n) then t.emit (.line n 2 (t.isSet (R.TRX_FEM_CTRL_BYP n)) s.mtb) else t
  if ch (R.TRX_FEM_CTRL_ANT_RX n) then t.emit (.line n 3 (t.isSet (R.TRX_FEM_CTRL_ANT_RX n)) s.mtb) else t

/-- TRXn_FEM: a PA_LEAD written before the commit applies to a transmission that has launched (R162). -/
def State.femTimes (s : State) (n a : Nat) (w : Word) : State := ((s.putRw a w).leadWritten n).answer ST.OK

/-- QUEUE_CMD (R299, R307): the queue first, then the operation. -/
def State.queueCmd (s : State) (w : Word) : State :=
  let q := R.QUEUE_CMD_QUEUE.get w
  let op := R.QUEUE_CMD_OP.get w
  if (s.queueRec q).isNone then s.queueRefuse q ST.QUEUE_ABSENT
  else if op = 1 then s.dropRemainder q
  else if op = 2 then s.queueClear q
  else s.queueRefuse q ST.QUEUE_RANGE

/-- What a write to one of the registers that start actions does, in the blocks from SLEEP on; none for a register of plain
fields. `w` is the written word, `a` the register's address, `first` its first copy. -/
def State.actionRest (s : State) (wr : Writer) (a first : Nat) (w : Word) : Option State :=
  let main := s.byMain wr
  let cmp : Bool := match wr with | .bobbin _ => false | _ => true
  let bob : Nat := match wr with | .bobbin b => b | _ => 0
  let bits (l : List (State → State)) : Option State := some (s.actions a l)
  let rw : State → State := fun t => t.putRw a w
  if first = R.SLEEP_CTRL then some (s.sleepCtrl (R.SLEEP_CTRL_OP.get w) (R.SLEEP_CTRL_NODE.get w))
  else if first = R.SLEEP_EVENT_EN then
    bits ((fun t => (t.writeEnable R.SLEEP_EVENT R.SLEEP_EVENT_EN w).answer ST.OK) ::
      onBit w R.SLEEP_EVENT_EN_CLR State.sleepClear)
  else if first = R.SLEEP_LINK_B then some (s.linkWrite (R.SLEEP_LINK_B_OP.get w) (R.SLEEP_LINK_B_NODE_B.get w))
  else if first = R.PILLOW_CTRL then bits (onBit w R.PILLOW_CTRL_CLR State.pillowClear)
  else if first = R.PILLOW_HW_TASK then some (s.writeTemplate R.PILLOW_HW_TASK w)
  else if first = R.PILLOW_QT_TASK then
    some (if (s.consumedBy 0x10).contains (s.getF R.PILLOW_QT_SEL_QUEUE) ||
        w &&& regMask (s.bankOf R.PILLOW_QT_TASK) = s.getReg (s.bankOf R.PILLOW_QT_TASK) then
      s.writeTemplate (s.bankOf R.PILLOW_QT_TASK) w else s.pillowRefuse ST.PILLOW_RANGE)
  else if first = R.QUEUE_SEL then
    let q := R.QUEUE_SEL_QUEUE.get w
    some (if q = s.getF R.QUEUE_SEL_QUEUE then s.answer ST.OK
      else if (s.queueRec q).isNone then s.queueRefuse q ST.QUEUE_ABSENT else rw s)
  else if first = R.QUEUE_WM then
    some (s.writeWm (s.getF R.QUEUE_SEL_QUEUE) (R.QUEUE_WM_HIGH.get w) (R.QUEUE_WM_LOW.get w))
  else if first = R.QUEUE_CMD then some (s.queueCmd w)
  else if first = R.MEM_BUF then some (s.memBufReturn w.toNat)
  else if first = R.MEM_NAND_CMD then some (s.nandCmd (R.MEM_NAND_CMD_OP.get w) (R.MEM_NAND_CMD_COUNT.get w))
  else if first = R.MEM_EVENT_EN then
    bits ((fun t => (t.writeEnable R.MEM_EVENT R.MEM_EVENT_EN w).answer ST.OK) ::
      onBit w R.MEM_EVENT_EN_CLR (fun t => t.memClear.answer ST.OK))
  else if first = R.GROUND_CMD then some (s.groundCmd w.toNat cmp bob)
  else if first = R.GROUND_ALT_SEED then some (s.altSeed w)
  else if first = R.KEY_CMD then some (s.keyCmd w.toNat)
  else if first = R.TAMPER_CFG then some (s.tamperCfg w)
  else if first = R.TAMPER_LOG_SEL then bits (rw :: onBit w R.TAMPER_LOG_SEL_CLR State.tamperLogClear)
  else if first = R.ROLE_CFG then bits (rw :: onBit w R.ROLE_CFG_CKPT State.roleCkpt)
  else if first = R.PAIR_CTRL then
    bits (rw :: onBit w R.PAIR_CTRL_RESYNC State.pairResync ++ onBit w R.PAIR_CTRL_RESIGN State.pairResign)
  else if first = R.UPDATE_CTRL then
    bits (onBit w R.UPDATE_CTRL_REJECT (fun t => t.upReject main) ++ onBit w R.UPDATE_CTRL_CONFIRM (fun t => t.upConfirm main))
  else none

/-- What a write to one of the registers that start actions does; none for a register of plain fields. `w` is the written
word, `a` the register's address, `first` and `c` its first copy and its copy. -/
def State.actionOf (s : State) (wr : Writer) (a first c : Nat) (w : Word) : Option State :=
  let main := s.byMain wr
  let bits (l : List (State → State)) : Option State := some (s.actions a l)
  let rw : State → State := fun t => t.putRw a w
  if first = R.CLK_SRC_CTRL then
    some (s.forceWrite (R.CLK_SRC_CTRL_FORCE.get w = 1) (R.CLK_SRC_CTRL_FORCE_SRC.get w))
  else if first = R.CLK_GATE then some (s.gateWrite w)
  else if first = R.CLK_MON_CFG then some ((s.putRw a w).clockDecide.answer ST.OK)
  else if first = R.START_WDOG then some ((s.putRw a w).readyCheck.answer ST.OK)
  else if first = R.SVC_GPIO then some (let t := s.putRw a w; if t.su.outputs then t.gpioDrive else t)
  else if first = R.CLK_RESTART then
    bits (onBit w R.CLK_RESTART_GO (fun t => t.restartGo (R.CLK_RESTART_DOMAIN.get w) (R.CLK_RESTART_DIV.get w)))
  else if first = R.START_CTRL then
    bits (onBit w R.START_CTRL_CONTINUE State.continueWrite ++ onBit w R.START_CTRL_READY (fun t => t.readyWrite main))
  else if first = R.SYS_RESET then bits (onBit w R.SYS_RESET_WARM State.warmWrite)
  else if first = R.UPL_CTRL 0 then
    bits ((fun t => t.adminWrite c ((R.UPL_CTRL_ADMIN 0).get w)) :: onBit w (R.UPL_CTRL_RETRAIN 0) (fun t => t.uplRetrain c))
  else if first = R.TIE_CFG then
    bits ((fun t => t.tieEnable (R.TIE_CFG_ENABLE.get w = 1)) :: onBit w R.TIE_CFG_RETRAIN State.tieRetrain)
  else if first = R.TIME_CTRL then
    bits (onBit w R.TIME_CTRL_SNAP State.timeSnap ++ onBit w R.TIME_CTRL_ACCEPT State.timeAccept ++
      [fun t => t.timeSelDom (R.TIME_CTRL_SEL_DOM.get w)])
  else if first = R.TRX_CMD 0 then
    some (s.trxCmd c ((R.TRX_CMD_TARGET 0).get w) ((R.TRX_CMD_CAL 0).get w = 1))
  else if first = R.TRX_FEM_CTRL 0 then some (s.femWrite c w)
  else if first = R.TRX_FEM 0 then some (s.femTimes c a w)
  else if first = R.LANE_CFG 0 then bits (rw :: onBit w (R.LANE_CFG_CLR 0) (fun t => t.laneClear c))
  else if first = R.LANE_CHAN 0 then some (s.laneChanWrite c ((R.LANE_CHAN_CHAN_KHZ 0).get w))
  else if first = R.MAC_CTRL then
    bits (onBit w R.MAC_CTRL_CLR State.macClear ++ [fun t => t.panEnable (R.MAC_CTRL_PAN_EN.get w)])
  else if first = R.MAC_SF_CFG then some (s.sfCfgWrite (R.MAC_SF_CFG_EN.get w = 1) (R.MAC_SF_CFG_LENGTH.get w))
  else s.actionRest wr a first w

/-- The event register of an enable register. -/
def eventOf? (a : Nat) : Option Nat := (eventPairs.find? (fun p => p.2 == a)).map (·.1)

/-- The word that refuses an address whatever is there: misaligned (R9), in the SAMPLER block outside SAMPLER (R11), no
register (R308). -/
def State.addrFault (s : State) (a : Nat) : Option Nat :=
  if a % 4 ≠ 0 then some ST.MEM_RANGE
  else if a / 0x10000 = 0x201F then (if s.dev = devSampler then none else some ST.SAMPLER_STATE)
  else if (regDesc? a).isSome && a < bankStride then none
  else some ST.MEM_UNMAPPED

/-- The refusal of an address: recorded in MEM_CMD_ERR but for the SAMPLER block's (Table 23.1). -/
def State.refuseAddr (s : State) (st : Nat) : State := if st = ST.SAMPLER_STATE then s.answer st else s.memRefuse st

/-- A write to the register at `a`: VIS (R30), existence (R45), fields, change, action. -/
def State.writeBody (s : State) (wr : Writer) (a : Nat) (w : Word) : State :=
  let f := firstCopy a
  let old := s.regWord a
  let rw := regAccessMask .rw a
  let new := (w &&& rw) ||| (old &&& ~~~ rw)
  let hoop : Bool := R.PILLOW_HOOP 0 ≤ a && a ≤ R.PILLOW_HOOP 3
  match s.addrFault a with
  | some st => s.refuseAddr st
  | none =>
  if a / 0x10000 = 0x201F then s.answer ST.OK
  else if s.granted wr a < 2 then s.refuseAt a (stHidden (blockOf a))
  else if 0x2008 ≤ a / 0x10000 && a / 0x10000 ≤ 0x200B && (s.trxRec (a / 0x10000 - 0x2008)).isNone then
    s.refuseAt a (stNotCreated (blockOf a))
  else if a / 0x10000 = 0x200C && (s.laneRec f.2).isNone then s.refuseAt a ST.LANE_UNUSED
  else if s.byCustomer wr && (hoop || (R.PILLOW_CUST_WIN ≤ a && a ≤ R.PILLOW_CUST_KINDS)) then
    s.refuseAt a ST.PILLOW_ROLE
  else if R.QUEUE_CFG ≤ a && a ≤ R.QUEUE_EVENT && (s.queueRec (s.getF R.QUEUE_SEL_QUEUE)).isNone then s.answer ST.OK
  else match s.fieldFault a old new with
  | some st => s.refuseAt a st
  | none =>
    match s.actionOf wr a f.1 f.2 w with
    | some u => u
    | none =>
      match eventOf? a with
      | some e => (s.writeEnable e a w).answer ST.OK
      | none =>
        if regAccessMask .w1c a ≠ 0 then (s.clearBits (s.bankOf a) w).answer ST.OK
        else if hoop && s.isCustomer ((a - R.PILLOW_HOOP 0) / 4) then
          s.putRw a ((R.PILLOW_HOOP_KILL ((a - R.PILLOW_HOOP 0) / 4)).put w 1)
        else s.putRw a w

/-- Whether a write with no room for its record is refused for that: only one that nothing else refuses (R499: RETRY comes
last). -/
def State.writeRecorded (s : State) (wr : Writer) (a : Nat) (w : Word) : State :=
  let who := s.who wr
  if who.role ≠ 0 || auditedBlocks.contains (blockOf a) then
    let d : AuditData := ⟨1, who.role, 0, who.cred, a, (s.regWord a).toNat, w.toNat⟩
    let t := s.writeBody wr a w
    if s.auditRoom then ((s.auditAppend { d with status := t.resp }).checkpointDue).writeBody wr a w
    else
      let s := s.raise R.ROLE_EVENT_AUDIT_BUSY
      if statusClass t.resp ≠ 0 then s.writeBody wr a w else s.refuseAt a ST.ROLE_AUDIT_BUSY
  else s.writeBody wr a w

/-! ### Firmware's writes -/

/-- A store of the firmware of bobbin `b` to a register, while the bobbin executes; `narrow`, of fewer than 32 bits. A misaligned
store, a narrow one and one to an address that is no register end the running task in fault (R9, R308, R285). -/
def State.firmwareWrite (s : State) (b a : Nat) (w : Word) (narrow : Bool) (t : Nat) : State :=
  if !s.rootRuns || (s.hoopOf b).isNone || !s.executes b then s
  else
    let s := s.advance t
    if a % 4 ≠ 0 then s.accessFault b 2
    else if narrow then s.accessFault b 4
    else match s.addrFault a with
      | some st => if st = ST.SAMPLER_STATE then s.answer st else s.accessFault b 4
      | none => s.writeRecorded (.bobbin b) a w

/-- REGISTER_WRITE (R8, R9, R30, R45): firmware writes a register. -/
def execRegisterWrite (bob : Fin 16) (addr value : Word) (narrow : Bool) (t : Nat) (s : State) : Res :=
  .next (s.firmwareWrite bob addr.toNat value narrow t)

/-- EVENT_CLEAR (R505): firmware writes an event register; each bit written 1 is cleared. -/
def execEventClear (bob : Fin 16) (addr value : Word) (t : Nat) (s : State) : Res :=
  .next (if regAccessMask .w1c addr.toNat = 0 then s else s.firmwareWrite bob addr.toNat value false t)

/-- EVENT_ENABLE_WRITE (R505): firmware writes an event-enable register. -/
def execEventEnableWrite (bob : Fin 16) (addr value : Word) (t : Nat) (s : State) : Res :=
  .next (if (eventOf? addr.toNat).isNone then s else s.firmwareWrite bob addr.toNat value false t)

end Sys2Proof.Machine
end

