-- ==== Sys2Proof/Machine/Cmp.lean ====
section
/-!
DEFINITION. The Chapaelle Management Protocol (05_link_ports.md): register access, service calls and their results, events.
A request names its session, its CoAP message number and the way it came; what it says is its operands, which stand for
the decrypted payload.
-/
namespace Sys2Proof.Machine

/-! ### Registers (R121) -/

/-- One word read by a session: the state after it, the status, the word; a refused word reads 0. -/
def State.readWord (s : State) (n a : Nat) : State × Nat × Nat :=
  match s.addrFault a with
  | some st => (s.refuseAddr st, st, 0)
  | none =>
    if a / 0x10000 = 0x201F then (s.useFree.answer ST.OK, ST.OK, s.freeVal % 2 ^ 32)
    else if s.granted (.session n) a = 0 then (s.refuseAt a (stHidden (blockOf a)), stHidden (blockOf a), 0)
    else if a = R.MEM_BUF then
      match s.pktTake with
      | (some b, t) => (t.answer ST.OK, ST.OK, b)
      | (none, t) => (t.answer ST.OK, ST.OK, 0)
    else (s.answer ST.OK, ST.OK, (s.regWord a).toNat)

/-- Read `count` words from `a` on: the state, the first status that is no ST_OK, the words. -/
def State.readWords (s : State) (n : Nat) : Nat → Nat → State × Nat × List Nat
  | _, 0 => (s, ST.OK, [])
  | a, k + 1 =>
    let r := s.readWord n a
    let q := r.1.readWords n (a + 4) k
    (q.1, if r.2.1 = ST.OK then q.2.1 else r.2.1, r.2.2 :: q.2.2)

/-- CMP_REG_READ: POST to /cmp/reg/read. -/
def execCmpRegRead (session : Fin 8) (mid : Fin 65536) (tunnel : Bool) (form : ReqForm) (addr : Word) (count : Nat) (t : Nat) (s : State) : Res :=
  .next (s.cmpRequest session mid tunnel form t (fun _ s =>
    if count = 0 || 64 < count then s.cmpAnswer ST.CMP_BAD_REQUEST
    else
      let r := s.readWords session addr.toNat count
      (r.1.answer r.2.1).emit (.cmpReply coapChanged r.2.1 r.2.2 0 0)))

/-- Write words from `a` on in ascending order until one is refused: the index of that one, the state. -/
def State.writeWords (s : State) (n : Nat) : Nat → Nat → List Word → State × Option Nat
  | _, _, [] => (s.answer ST.OK, none)
  | a, k, w :: l =>
    let u := s.writeRecorded (.session n) a w
    if u.resp = ST.OK then u.writeWords n (a + 4) (k + 1) l else (u, some k)

/-- CMP_REG_WRITE: POST to /cmp/reg/write. Key 8 of the reply is 1 more than the index in `num`, 0 where it is absent. -/
def execCmpRegWrite (session : Fin 8) (mid : Fin 65536) (tunnel : Bool) (form : ReqForm) (addr : Word) (words : List Word) (t : Nat)
    (s : State) : Res :=
  .next (s.cmpRequest session mid tunnel form t (fun _ s =>
    if words.isEmpty || 64 < words.length then s.cmpAnswer ST.CMP_BAD_REQUEST
    else
      let r := s.writeWords session addr.toNat 0 words
      r.1.emit (.cmpReply coapChanged r.1.resp [] 0 (match r.2 with | some k => k + 1 | none => 0))))

/-! ### Service calls (R122, R123, R428) -/

/-- The operations of a service (Tables 16.6, 17.3, 21.4, R435 to R439); of the key service those of Table 18.6, which its
engine checks. -/
def svcHas (svc op : Nat) : Bool :=
  let top : Nat := match svc with
    | 0 => 2 | 1 => 3 | 2 => 5 | 3 => 3 | 4 => 5 | 5 => 8 | 6 => 8 | 8 => 7 | 9 => 3 | 10 => 6 | _ => 0
  (svc == svcKey) || (decide (1 ≤ op) && decide (op ≤ top) && !(svc == svcRole && (op == 1 || op == 5)))

/-- The word for an operation that a service does not have (R388; DEDUCED for the other services). -/
def svcArgWord (svc : Nat) : Nat :=
  if svc = svcRole || svc = svcAudit then ST.ROLE_RANGE else if svc = svcUpdate then ST.UPDATE_RANGE else ST.RYURIX_ARG

/-- The operations marked "read", and audit operations 1 and 3. -/
def svcReads (svc op : Nat) : Bool :=
  ((svc == svcNet || svc == svcPan) && op == 1) || (svc == svcNode && (op == 1 || op == 3 || op == 4)) ||
  (svc == svcSched && (op == 1 || op == 3)) || (svc == svcJoin && op == 4) || (svc == svcImage && (op == 5 || op == 7)) ||
  (svc == svcZone && (op == 1 || op == 7)) || (svc == svcAudit && (op == 1 || op == 3)) || (svc == svcUpdate && op == 6)

/-- Table 19.1: whether a role may call an operation. What depends on the arguments (enrolment, revocation, a slot's ROLES)
is judged when the call is executed. Operations 6 and 7 of the role service are the release key's in RETURNED; in any
other state they are answered by the call itself (R439). -/
def State.mayCall (s : State) (v : Session) (svc op : Nat) : Bool :=
  if svcReads svc op || svc == svcKey || !svcHas svc op then true
  else if svc == svcRole && (op == 6 || op == 7) then
    s.dev != devReturned || v.digest == Config.sha3 (octs 1312 Config.releaseKey)
  else if v.role = 1 then
    svc == svcZone || (svc == svcNode && (op == 2 || op == 5)) || (svc == svcImage && (op == 6 || op == 8))
  else if v.role = 2 then true
  else (svc == svcImage && op ≤ 4) || (svc == svcRole && (op == 2 || op == 3)) || svc == svcUpdate

/-- A key command that a call makes: the caller's role; input and output stand in the request and the result, so their
addresses do not matter and their room is what a block can name. -/
def callBlk (role op : Nat) (b : KeyBlk) : KeyBlk :=
  { b with op := op, role := role, reserved := false, inAddr := 0x10480000, out := 0x10480000,
           outCap := if op = 9 || op = 11 then b.outCap else 65535 }

/-- CMP_SERVICE_CALL: POST to /cmp/svc/{service}. `key` is the command that a call of the key service makes. -/
def execCmpServiceCall (session : Fin 8) (mid : Fin 65536) (tunnel : Bool) (form : ReqForm) (svc : Fin 11) (op : Fin 256) (key : KeyBlk)
    (t : Nat) (s : State) : Res :=
  .next (s.cmpRequest session mid tunnel form t (fun v s =>
    let refused (s : State) (st : Nat) : State :=
      (if svcReads svc op then s
       else s.auditNote ⟨2, v.role, st, lead4 v.digest, svcBlock svc * 2 ^ 24 + op * 2 ^ 16, 0, 0⟩).cmpAnswer st
    let ofRole := (s.cmp.tickets.filter (fun (x : Nat × Ticket) => x.2.role == v.role)).length
    if !s.mayCall v svc op then refused s ST.ROLE_RIGHTS
    else if 1024 ≤ s.cmp.tickets.length || 256 ≤ ofRole then refused s ST.CMP_TICKETS_FULL
    else
      let k := s.cmp.next
      let tk : Ticket := { role := v.role, svc := svc, op := op, cred := lead4 v.digest }
      let s : State := { s with cmp := { s.cmp with tickets := Store.put k tk s.cmp.tickets, next := k + 1 } }
      let s :=
        if !svcHas svc op then s.finishCall k (svcArgWord svc) []
        else if svc = svcKey then
          if 16 ≤ s.ky.fifo.length then s.finishCall k ST.KEY_CMD_FULL []
          else { s with ky := { s.ky with fifo := s.ky.fifo ++ [.call k (callBlk v.role op key)] } }
        else s
      (s.answer ST.OK).emit (.cmpReply coapChanged ST.OK [] 0 k)))

/-- The flags of a result (R123). -/
def resultFlags (tk : Ticket) : Nat := 1 + 2 * bit tk.read

/-- CMP_RESULT_GET: GET of /cmp/result/{ticket}. -/
def execCmpResultGet (session : Fin 8) (mid : Fin 65536) (tunnel : Bool) (form : ReqForm) (ticket : Word) (t : Nat) (s : State) : Res :=
  .next (s.cmpRequest session mid tunnel form t (fun v s =>
    match Store.find? ticket.toNat s.cmp.tickets with
    | none => s.cmpTell ST.CMP_TICKET_UNKNOWN
    | some tk =>
      if tk.role ≠ v.role then s.cmpTell ST.CMP_TICKET_ROLE
      else if !tk.ready then s.cmpTell ST.RETRY_NOT_READY
      else
        let tks := Store.put ticket.toNat { tk with read := true } s.cmp.tickets
        (({ s with cmp := { s.cmp with tickets := tks } }).answer tk.status).emit
          (.cmpResult tk.status (resultFlags tk) tk.result)))

/-- CMP_RESULT_DELETE: DELETE of /cmp/result/{ticket}. -/
def execCmpResultDelete (session : Fin 8) (mid : Fin 65536) (tunnel : Bool) (form : ReqForm) (ticket : Word) (t : Nat) (s : State) : Res :=
  .next (s.cmpRequest session mid tunnel form t (fun v s =>
    match Store.find? ticket.toNat s.cmp.tickets with
    | none => s.cmpAnswer ST.CMP_TICKET_UNKNOWN
    | some tk =>
      if tk.role ≠ v.role then s.cmpAnswer ST.CMP_TICKET_ROLE
      else if !tk.ready then s.cmpAnswer ST.CMP_ACK_NOT_READY
      else ({ s with cmp := { s.cmp with tickets := Store.del ticket.toNat s.cmp.tickets } }).cmpAnswer ST.OK))

/-! ### Events (R126) -/

/-- CMP_EVENT_OBSERVE: GET of /cmp/event with Observe; the response carries the sequence number so far. -/
def execCmpEventObserve (session : Fin 8) (mid : Fin 65536) (tunnel : Bool) (form : ReqForm) (t : Nat) (s : State) : Res :=
  .next (s.cmpRequest session mid tunnel form t (fun v s =>
    ((s.setSession session { v with observes := true, tunnel := tunnel }).answer ST.OK).emit (.cmpReply coapContent ST.OK [] 0 v.seq)))

/-- The event of a notification that is due, without its sequence number. -/
def eventOfNote (x : Nat × Nat × Nat) : Event := ⟨blockOf x.1, x.1 % bankStride % 0x10000, 2 ^ x.2.1, x.2.2, 0⟩

/-- An event reaches an observing session: queued, or discarded and counted where 256 wait. -/
def Session.take (v : Session) (e : Event) : Session :=
  if !v.observes then v
  else
    let v := { v with seq := v.seq + 1 }
    if v.queue.length < 256 then { v with queue := v.queue ++ [{ e with seq := v.seq }] } else { v with lost := v.lost + 1 }

/-- The oldest notification that is due reaches every observing session. -/
def State.noteOut (s : State) : State :=
  match s.notes with
  | [] => s
  | x :: l =>
    { s with notes := l,
             ro := { s.ro with sessions := s.ro.sessions.map (fun (y : Nat × Session) => (y.1, y.2.take (eventOfNote x))) } }

/-- The oldest event of a session's queue is sent the way the session observes; the first one sent after events were lost carries
ST_CMP_EVENT_LOST and their count (R126). -/
def State.notifySend (s : State) (n : Nat) : State :=
  match Store.find? n s.ro.sessions with
  | none => s
  | some v =>
    match v.queue with
    | [] => s
    | e :: l =>
      let s := s.setSession n { v with queue := l, lost := 0 }
      let m := Msg.notify n (if v.lost = 0 then ST.OK else ST.CMP_EVENT_LOST) e v.lost
      if v.tunnel then s.tunnelPut m else s.emit m

/-- CMP_EVENT_NOTIFY: the oldest notification that is due is queued for every observing session; then session `send`, where
one is named, is sent its oldest event. -/
def execCmpEventNotify (send : Option (Fin 8)) (t : Nat) (s : State) : Res :=
  if !s.firmwareUp then .next s
  else
    let s := (s.advance t).noteOut
    match send with
    | some n => .next (s.notifySend n)
    | none => .next s

end Sys2Proof.Machine
end

