-- ==== Sys2Proof/Machine/ServicePort.lean ====
section
/-!
DEFINITION. The commands of the service port (05_link_ports.md, Table 05.4). Each carries the SPI mode its transaction was
taken in (R114); before AWAIT_TRAINING the port does not answer (R77).
-/
namespace Sys2Proof.Machine

/-- A service port transaction: its mode shows in SVC_PORT_STAT (R114), device time moves to `t` where ROOT runs. -/
def State.svcCommand (s : State) (mode3 : Bool) (t : Nat) (f : State → State) : State :=
  if s.dev = devUnpowered then s
  else f ((if s.rootRuns then s.advance t else s).setB R.SVC_PORT_STAT_MODE mode3)

/-- A command that only reads: abandoned before its marker it has no effect (R115). -/
def State.svcReading (s : State) (mode3 abandoned : Bool) (t : Nat) (f : State → State) : State :=
  s.svcCommand mode3 t (fun s => if abandoned then s else f s)

/-- A command that writes completes in any case; abandoned before its marker it sends no reply (R115). -/
def State.svcWriting (s : State) (mode3 abandoned : Bool) (t : Nat) (f : State → State) : State :=
  s.svcCommand mode3 t (fun s => let u := f s; if abandoned then { u with out := u.out.drop 1 } else u)

/-- What the target sends from its marker on (R115): 0x5A, the reply of Table 05.4, the status word. How many octets 0xFF go
before it is a matter of timing. -/
def svcFrame (data : List Nat) (st : Nat) : List Nat := 0x5A :: data ++ nats (leBytes 2 st)

/-- The reply of a command: its data octets and the status. -/
def State.svcReply (s : State) (data : List Nat) (st : Nat) : State := (s.answer st).emit (.svcReply (svcFrame data st))

/-- A refusal of the SVC block; its refusal register takes the word where ROOT runs. -/
def State.svcRefuse (s : State) (st : Nat) : State := if s.rootRuns then s.refuse R.SVC_CMD_ERR_STATUS st else s.answer st

/-- The registers that commands 0x0B and 0x02 reach (R116), and those of them that answer before ROOT_LOCK. -/
def svcReach : List Nat :=
  [R.SYS_ID, R.START_STATE, R.START_OPT, R.START_CTRL, R.START_FAIL, R.START_FAIL_LOC, R.START_SUPPLY, R.START_CAUSE]
def svcEarly : List Nat := [R.START_STATE, R.START_OPT, R.START_SUPPLY, R.START_CAUSE]

/-- Why the service port does not reach an address: misaligned (R9), not one of its registers, or one that answers only from
ROOT_LOCK on (R116). In PARK, where ROOT is stopped again, it answers as before ROOT_LOCK (DEDUCED: R64 leaves the front
end alone active). -/
def State.svcGate (s : State) (a : Nat) : Option Nat :=
  let early := s.dev = devUnpowered || s.dev = devAwait || s.dev = devPark
  firstFail [(a % 4 ≠ 0, ST.MEM_RANGE), (!svcReach.contains a, ST.SVC_SESSION_NEEDED),
    (early && !svcEarly.contains a, ST.SVC_NO_CLOCK)]

/-- SVC_READ_REGISTER: command 0x0B. A refused read sends a data word of 0 before its status. -/
def execSvcReadRegister (addr : Word) (mode3 abandoned : Bool) (t : Nat) (s : State) : Res :=
  .next (s.svcReading mode3 abandoned t (fun s =>
    match s.svcGate addr.toNat with
    | some st => (s.svcRefuse st).svcReply (nats (leBytes 4 0)) st
    | none => s.svcReply (nats (leBytes 4 (s.regWord addr.toNat).toNat)) ST.OK))

/-- What a write or a chunk answers is the status that command 0x05 returns next (R115). -/
def State.svcWritten (s : State) : State :=
  ({ s with svc := { s.svc with last := s.resp, ofCommit := false } }).svcReply [] s.resp

/-- SVC_WRITE_REGISTER: command 0x02. -/
def execSvcWriteRegister (addr value : Word) (mode3 abandoned : Bool) (t : Nat) (s : State) : Res :=
  .next (s.svcWriting mode3 abandoned t (fun s =>
    (match s.svcGate addr.toNat with
      | some st => s.svcRefuse st
      | none => s.writeRecorded .service addr.toNat value).svcWritten))

/-- SVC_LAST_STATUS: command 0x05. -/
def execSvcLastStatus (mode3 abandoned : Bool) (t : Nat) (s : State) : Res :=
  .next (s.svcReading mode3 abandoned t (fun s => s.svcReply []
    (if !s.svc.ofCommit then s.svc.last else if s.svc.commit.isSome then ST.SVC_BENCH_BUSY else s.svc.outcome)))

/-- A pricking from flash is being loaded. -/
def State.flashLoads (s : State) : Bool :=
  s.dev = devLoad && !s.su.benchWait && !s.su.stopped && s.svc.commit.isNone

/-- What refuses a chunk or a check-only commit (R117). -/
def State.benchGate (s : State) : Option Nat :=
  firstFail [
    (!s.rootRuns, ST.SVC_NO_CLOCK),
    (s.dev = devDramTrain || s.dev = devBoot, ST.SVC_BENCH_STATE),
    (s.svc.commit.isSome || s.flashLoads, ST.SVC_BENCH_BUSY)]

/-- Write a chunk's octets into the staging area from offset `off` on. -/
def stagePut (m : List Host.Cell) (off : Nat) : List Byte → List Host.Cell
  | [] => m
  | b :: l => stagePut (Store.set (fun _ => (0 : Byte)) m off b) (off + 1) l

/-- SVC_BENCH_CHUNK: command 0x20. -/
def execSvcBenchChunk (offset : Word) (data : List Byte) (mode3 abandoned : Bool) (t : Nat) (s : State) : Res :=
  let n := data.length
  .next (s.svcWriting mode3 abandoned t (fun s =>
    (match firstFail [(n < 4 || 256 < n || n % 4 ≠ 0 || 1048576 < offset.toNat + n, ST.SVC_BENCH_RANGE)] with
      | some st => s.svcRefuse st
      | none =>
        match s.benchGate with
        | some st => s.svcRefuse st
        | none => ({ s with svc := { s.svc with
            staging := stagePut s.svc.staging offset.toNat data, written := true } }).answer ST.OK).svcWritten))

/-- SVC_BENCH_COMMIT: command 0x21. -/
def execSvcBenchCommit (checkOnly : Bool) (mode3 abandoned : Bool) (t : Nat) (s : State) : Res :=
  .next (s.svcWriting mode3 abandoned t (fun s =>
    let waits := s.dev = devLoad && (s.su.benchWait || s.su.stopped)
    match (if !checkOnly && s.rootRuns && !waits then some ST.SVC_BENCH_STATE else s.benchGate) with
    | some st => ({ s.svcRefuse st with svc := { s.svc with last := st, ofCommit := false } }).svcReply [] st
    | none => ({ s with svc := { s.svc with commit := some checkOnly, ofCommit := true } }).svcReply [] ST.OK))

/-- SVC_TUNNEL_IN: command 0x30. -/
def execSvcTunnelIn (message : List Byte) (mode3 abandoned : Bool) (t : Nat) (s : State) : Res :=
  .next (s.svcWriting mode3 abandoned t (fun s =>
    match firstFail [(message.isEmpty || 1280 < message.length, ST.SVC_RANGE), (s.svc.inbound.isSome, ST.SVC_TUNNEL_FULL)] with
    | some st => (s.svcRefuse st).svcReply [] st
    | none => ({ s with svc := { s.svc with inbound := some message } }).svcReply [] ST.OK))

/-- SVC_TUNNEL_OUT: command 0x31. The length of a message as it is encoded is a free value of 1 to 1,280. -/
def execSvcTunnelOut (mode3 abandoned : Bool) (t : Nat) (s : State) : Res :=
  .next (s.svcReading mode3 abandoned t (fun s =>
    match s.svc.outbound with
    | [] => s.svcReply (nats (leBytes 2 0)) ST.OK
    | m :: l =>
      (({ s.useFree with svc := { s.svc with outbound := l } }).emit m).svcReply
        (nats (leBytes 2 (1 + s.freeVal % 1280))) ST.OK))

/-- SCLK_STOP_MID_MESSAGE: SCLK stops with CS_N high in mid message (R306); the service port's endpoint is 0x71. -/
def execSclkStopMidMessage (t : Nat) (s : State) : Res :=
  .next (if s.rootRuns then (s.advance t).cutPackets 0x71 else s)

end Sys2Proof.Machine
end

