-- ==== Sys2Proof/Machine/Dispatch.lean ====
section
/-!
DEFINITION. What each command does: one arm per command, one direct call of its meaning.
-/
namespace Sys2Proof.Machine
open Sys2Proof

/-- The command's effect on everything but the queue. -/
def exec (i : Instr) (s : State) : Host.Outcome State Fault Refusal :=
  match i with
  | .registerWrite bob addr value narrow t => Sys2Proof.Machine.execRegisterWrite bob addr value narrow t s
  | .eventClear bob addr value t => Sys2Proof.Machine.execEventClear bob addr value t s
  | .eventEnableWrite bob addr value t => Sys2Proof.Machine.execEventEnableWrite bob addr value t s
  | .vbatApplied => Sys2Proof.Machine.execVbatApplied s
  | .vbatLost => Sys2Proof.Machine.execVbatLost s
  | .supplyGoodIntervalEnd mode => Sys2Proof.Machine.execSupplyGoodIntervalEnd mode s
  | .mainSupplyLost supply => Sys2Proof.Machine.execMainSupplyLost supply s
  | .resetNTaken => Sys2Proof.Machine.execResetNTaken s
  | .sourceLocked src t => Sys2Proof.Machine.execSourceLocked src t s
  | .sourceLost src t => Sys2Proof.Machine.execSourceLost src t s
  | .rootPllLock => Sys2Proof.Machine.execRootPllLock s
  | .rootLockTimeout => Sys2Proof.Machine.execRootLockTimeout s
  | .dramTrainStageEnd ok t => Sys2Proof.Machine.execDramTrainStageEnd ok t s
  | .dramTrainTimeout t => Sys2Proof.Machine.execDramTrainTimeout t s
  | .bootComplete readFail t => Sys2Proof.Machine.execBootComplete readFail t s
  | .bootTimeout t => Sys2Proof.Machine.execBootTimeout t s
  | .prickingLoadDone readFail t => Sys2Proof.Machine.execPrickingLoadDone readFail t s
  | .prickingLoadTimeout t => Sys2Proof.Machine.execPrickingLoadTimeout t s
  | .benchCheckDone t => Sys2Proof.Machine.execBenchCheckDone t s
  | .readyWrite mainHoop => Sys2Proof.Machine.execReadyWrite mainHoop s
  | .readyTimeout t => Sys2Proof.Machine.execReadyTimeout t s
  | .continueWrite t => Sys2Proof.Machine.execContinueWrite t s
  | .enterRunning t => Sys2Proof.Machine.execEnterRunning t s
  | .warmResetWrite t => Sys2Proof.Machine.execWarmResetWrite t s
  | .warmResetProceed t => Sys2Proof.Machine.execWarmResetProceed t s
  | .monitorWindowEnd src meas t => Sys2Proof.Machine.execMonitorWindowEnd src meas t s
  | .hold1sMark t => Sys2Proof.Machine.execHold1sMark t s
  | .hold30sMark t => Sys2Proof.Machine.execHold30sMark t s
  | .rootPllUnlock t => Sys2Proof.Machine.execRootPllUnlock t s
  | .clkSrcForceWrite force src => Sys2Proof.Machine.execClkSrcForceWrite force src s
  | .hoopIdle hoop t => Sys2Proof.Machine.execHoopIdle hoop t s
  | .hoopRampStep hoop => Sys2Proof.Machine.execHoopRampStep hoop s
  | .clkRestartGo domain div => Sys2Proof.Machine.execClkRestartGo domain div s
  | .restartDividerSwitch domain => Sys2Proof.Machine.execRestartDividerSwitch domain s
  | .restartFirstEdge domain => Sys2Proof.Machine.execRestartFirstEdge domain s
  | .gateRequest unit => Sys2Proof.Machine.execGateRequest unit s
  | .gateClose unit => Sys2Proof.Machine.execGateClose unit s
  | .ungate unit => Sys2Proof.Machine.execUngate unit s
  | .esmcPduRx port ssm essm t => Sys2Proof.Machine.execEsmcPduRx port ssm essm t s
  | .esmcTimeout port t => Sys2Proof.Machine.execEsmcTimeout port t s
  | .esmcSend => Sys2Proof.Machine.execEsmcSend s
  | .uplSignalDetect port dme => Sys2Proof.Machine.execUplSignalDetect port dme s
  | .uplAcquisitionDone port => Sys2Proof.Machine.execUplAcquisitionDone port s
  | .uplNextPageRx port => Sys2Proof.Machine.execUplNextPageRx port s
  | .uplAnComplete port base => Sys2Proof.Machine.execUplAnComplete port base s
  | .uplTrainingDone port => Sys2Proof.Machine.execUplTrainingDone port s
  | .uplBlockLock port t => Sys2Proof.Machine.execUplBlockLock port t s
  | .uplTrainTimeout port => Sys2Proof.Machine.execUplTrainTimeout port s
  | .uplLinkLost port t => Sys2Proof.Machine.execUplLinkLost port t s
  | .uplAdminWrite port v => Sys2Proof.Machine.execUplAdminWrite port v s
  | .uplRetrain port => Sys2Proof.Machine.execUplRetrain port s
  | .pauseFrameRx port quanta t => Sys2Proof.Machine.execPauseFrameRx port quanta t s
  | .pfcFrameRx port entries t => Sys2Proof.Machine.execPfcFrameRx port entries t s
  | .pauseQuantaEnd port prio t => Sys2Proof.Machine.execPauseQuantaEnd port prio t s
  | .fcFrameSend port t => Sys2Proof.Machine.execFcFrameSend port t s
  | .fcFrameRepeat port t => Sys2Proof.Machine.execFcFrameRepeat port t s
  | .uplFrameRx port queue octets fcsOk => Sys2Proof.Machine.execUplFrameRx port queue octets fcsOk s
  | .tieAcquisitionDone t => Sys2Proof.Machine.execTieAcquisitionDone t s
  | .tieTrainBlockRx pre main post preEdge mainEdge postEdge ready askPre askMain askPost askReady => Sys2Proof.Machine.execTieTrainBlockRx pre main post preEdge mainEdge postEdge ready askPre askMain askPost askReady s
  | .tieEqualiserDone t => Sys2Proof.Machine.execTieEqualiserDone t s
  | .tieRoleBlockRx b => Sys2Proof.Machine.execTieRoleBlockRx b s
  | .tieRoleExchangeDone t => Sys2Proof.Machine.execTieRoleExchangeDone t s
  | .tiePhaseTimeout t => Sys2Proof.Machine.execTiePhaseTimeout t s
  | .tieRetrain => Sys2Proof.Machine.execTieRetrain s
  | .tieEnableWrite on => Sys2Proof.Machine.execTieEnableWrite on s
  | .svcReadRegister addr mode3 abandoned t => Sys2Proof.Machine.execSvcReadRegister addr mode3 abandoned t s
  | .svcWriteRegister addr value mode3 abandoned t => Sys2Proof.Machine.execSvcWriteRegister addr value mode3 abandoned t s
  | .svcLastStatus mode3 abandoned t => Sys2Proof.Machine.execSvcLastStatus mode3 abandoned t s
  | .svcBenchChunk offset data mode3 abandoned t => Sys2Proof.Machine.execSvcBenchChunk offset data mode3 abandoned t s
  | .svcBenchCommit checkOnly mode3 abandoned t => Sys2Proof.Machine.execSvcBenchCommit checkOnly mode3 abandoned t s
  | .svcTunnelIn message mode3 abandoned t => Sys2Proof.Machine.execSvcTunnelIn message mode3 abandoned t s
  | .svcTunnelOut mode3 abandoned t => Sys2Proof.Machine.execSvcTunnelOut mode3 abandoned t s
  | .sclkStopMidMessage t => Sys2Proof.Machine.execSclkStopMidMessage t s
  | .cmpRegRead session mid tunnel form addr count t => Sys2Proof.Machine.execCmpRegRead session mid tunnel form addr count t s
  | .cmpRegWrite session mid tunnel form addr words t => Sys2Proof.Machine.execCmpRegWrite session mid tunnel form addr words t s
  | .cmpServiceCall session mid tunnel form svc op key t => Sys2Proof.Machine.execCmpServiceCall session mid tunnel form svc op key t s
  | .cmpResultGet session mid tunnel form ticket t => Sys2Proof.Machine.execCmpResultGet session mid tunnel form ticket t s
  | .cmpResultDelete session mid tunnel form ticket t => Sys2Proof.Machine.execCmpResultDelete session mid tunnel form ticket t s
  | .cmpEventObserve session mid tunnel form t => Sys2Proof.Machine.execCmpEventObserve session mid tunnel form t s
  | .cmpEventNotify send t => Sys2Proof.Machine.execCmpEventNotify send t s
  | .sessionHello digest nonce mid tunnel form t => Sys2Proof.Machine.execSessionHello digest nonce mid tunnel form t s
  | .sessionFinish digest ciphertext signature mid tunnel form t => Sys2Proof.Machine.execSessionFinish digest ciphertext signature mid tunnel form t s
  | .sessionDelete number mid tunnel form t => Sys2Proof.Machine.execSessionDelete number mid tunnel form t s
  | .sessionIdleExpiry number t => Sys2Proof.Machine.execSessionIdleExpiry number t s
  | .handshakeTimeout t => Sys2Proof.Machine.execHandshakeTimeout t s
  | .ptpAnnounceRx dom port via gm chosen t => Sys2Proof.Machine.execPtpAnnounceRx dom port via gm chosen t s
  | .ptpSyncRx dom port via twoStep origin t => Sys2Proof.Machine.execPtpSyncRx dom port via twoStep origin t s
  | .ptpFollowUpRx dom port via origin => Sys2Proof.Machine.execPtpFollowUpRx dom port via origin s
  | .ptpDelayRespRx dom port via t4 interval => Sys2Proof.Machine.execPtpDelayRespRx dom port via t4 interval s
  | .ptpPdelayReqRx port via arrival t => Sys2Proof.Machine.execPtpPdelayReqRx port via arrival t s
  | .ptpPdelayRespRx dom port via turnaround t => Sys2Proof.Machine.execPtpPdelayRespRx dom port via turnaround t s
  | .ptpDelayReqSend dom t => Sys2Proof.Machine.execPtpDelayReqSend dom t s
  | .ptpManagementRx signalling => Sys2Proof.Machine.execPtpManagementRx signalling s
  | .announceReceiptTimeout dom => Sys2Proof.Machine.execAnnounceReceiptTimeout dom s
  | .freezeTimeout dom t => Sys2Proof.Machine.execFreezeTimeout dom t s
  | .timeStep => Sys2Proof.Machine.execTimeStep s
  | .lockWaitExpiry t => Sys2Proof.Machine.execLockWaitExpiry t s
  | .timeAccept => Sys2Proof.Machine.execTimeAccept s
  | .timeSnap t => Sys2Proof.Machine.execTimeSnap t s
  | .timeSelDomWrite sel => Sys2Proof.Machine.execTimeSelDomWrite sel s
  | .tieTimeSend t => Sys2Proof.Machine.execTieTimeSend t s
  | .tieTimeRx f t => Sys2Proof.Machine.execTieTimeRx f t s
  | .peerTimeExpiry t => Sys2Proof.Machine.execPeerTimeExpiry t s
  | .trxSetTarget trx target t => Sys2Proof.Machine.execTrxSetTarget trx target t s
  | .trxCalibrate trx target t => Sys2Proof.Machine.execTrxCalibrate trx target t s
  | .trxStepEnd trx => Sys2Proof.Machine.execTrxStepEnd trx s
  | .calEnd trx pass => Sys2Proof.Machine.execCalEnd trx pass s
  | .synUnlock trx tx t => Sys2Proof.Machine.execSynUnlock trx tx t s
  | .bgCalCycleStart trx t => Sys2Proof.Machine.execBgCalCycleStart trx t s
  | .bgCalStep trx pathB t => Sys2Proof.Machine.execBgCalStep trx pathB t s
  | .tempDrift trx temp => Sys2Proof.Machine.execTempDrift trx temp s
  | .coexRequestRise trx => Sys2Proof.Machine.execCoexRequestRise trx s
  | .coexGrantFall trx t => Sys2Proof.Machine.execCoexGrantFall trx t s
  | .rxWindowOpen lane => Sys2Proof.Machine.execRxWindowOpen lane s
  | .rxWindowClose lane => Sys2Proof.Machine.execRxWindowClose lane s
  | .laneBindingApply lane => Sys2Proof.Machine.execLaneBindingApply lane s
  | .preambleDetect lane t => Sys2Proof.Machine.execPreambleDetect lane t s
  | .preambleLost lane t => Sys2Proof.Machine.execPreambleLost lane t s
  | .syncPoint lane ts metA metB rssi cfo coded taps => Sys2Proof.Machine.execSyncPoint lane ts metA metB rssi cfo coded taps s
  | .headerDecoded lane len info hcsOk modeSwitch t => Sys2Proof.Machine.execHeaderDecoded lane len info hcsOk modeSwitch t s
  | .shadowSyncPoint lane ts metA metB rssi cfo coded taps psdu symbols => Sys2Proof.Machine.execShadowSyncPoint lane ts metA metB rssi cfo coded taps psdu symbols s
  | .lastSymbol lane psdu symbols => Sys2Proof.Machine.execLastSymbol lane psdu symbols s
  | .fcsVerdict lane ok => Sys2Proof.Machine.execFcsVerdict lane ok s
  | .gainWindowEnd trx pathB level => Sys2Proof.Machine.execGainWindowEnd trx pathB level s
  | .adcClip trx pathB t => Sys2Proof.Machine.execAdcClip trx pathB t s
  | .idlePowerWindowEnd lane powA powB => Sys2Proof.Machine.execIdlePowerWindowEnd lane powA powB s
  | .laneChanWrite lane chan => Sys2Proof.Machine.execLaneChanWrite lane chan s
  | .laneCountClear lane => Sys2Proof.Machine.execLaneCountClear lane s
  | .sourceAddressComplete rx hdr clock => Sys2Proof.Machine.execSourceAddressComplete rx hdr clock s
  | .addressLookupDone rx => Sys2Proof.Machine.execAddressLookupDone rx s
  | .nodeRecordReadDone rx => Sys2Proof.Machine.execNodeRecordReadDone rx s
  | .keyUnwrapDone rx => Sys2Proof.Machine.execKeyUnwrapDone rx s
  | .ccmContextFree => Sys2Proof.Machine.execCcmContextFree s
  | .ccmVerdict rx authentic => Sys2Proof.Machine.execCcmVerdict rx authentic s
  | .dupCacheExpiry t => Sys2Proof.Machine.execDupCacheExpiry t s
  | .shadowEntryRelease node => Sys2Proof.Machine.execShadowEntryRelease node s
  | .lptSweepStep => Sys2Proof.Machine.execLptSweepStep s
  | .txCmdData trx t => Sys2Proof.Machine.execTxCmdData trx t s
  | .txCmdBraidOpen trx t => Sys2Proof.Machine.execTxCmdBraidOpen trx t s
  | .txCmdBraidAppend trx t => Sys2Proof.Machine.execTxCmdBraidAppend trx t s
  | .txCmdEnhancedBeacon trx t => Sys2Proof.Machine.execTxCmdEnhancedBeacon trx t s
  | .txCmdWakeKeying trx t => Sys2Proof.Machine.execTxCmdWakeKeying trx t s
  | .txLateDrop trx t => Sys2Proof.Machine.execTxLateDrop trx t s
  | .txLaunch trx => Sys2Proof.Machine.execTxLaunch trx s
  | .txCommit trx grant => Sys2Proof.Machine.execTxCommit trx grant s
  | .txEnd trx => Sys2Proof.Machine.execTxEnd trx s
  | .outputStopTime t => Sys2Proof.Machine.execOutputStopTime t s
  | .slotStart t => Sys2Proof.Machine.execSlotStart t s
  | .lanePlanComplete => Sys2Proof.Machine.execLanePlanComplete s
  | .txRequest t => Sys2Proof.Machine.execTxRequest t s
  | .tschTxCell trx t => Sys2Proof.Machine.execTschTxCell trx t s
  | .carrierSenseEnd trx tap level => Sys2Proof.Machine.execCarrierSenseEnd trx tap level s
  | .csmaBackoffEnd frame => Sys2Proof.Machine.execCsmaBackoffEnd frame s
  | .ackWaitTimeout frame t => Sys2Proof.Machine.execAckWaitTimeout frame t s
  | .frameDeadlineExpiry frame t => Sys2Proof.Machine.execFrameDeadlineExpiry frame t s
  | .shuttleCompletionRx t => Sys2Proof.Machine.execShuttleCompletionRx t s
  | .ebDue pan trx t => Sys2Proof.Machine.execEbDue pan trx t s
  | .dutyBucketRoll profile t => Sys2Proof.Machine.execDutyBucketRoll profile t s
  | .offTimeEnd trx => Sys2Proof.Machine.execOffTimeEnd trx s
  | .braidCut trx => Sys2Proof.Machine.execBraidCut trx s
  | .macPanEnableWrite en => Sys2Proof.Machine.execMacPanEnableWrite en s
  | .macCountClear => Sys2Proof.Machine.execMacCountClear s
  | .macSlotframeEnable en length => Sys2Proof.Machine.execMacSlotframeEnable en length s
  | .sleepStart node => Sys2Proof.Machine.execSleepStart node s
  | .sleepStop node => Sys2Proof.Machine.execSleepStop node s
  | .sleepResync node => Sys2Proof.Machine.execSleepResync node s
  | .sleepResetDrift node => Sys2Proof.Machine.execSleepResetDrift node s
  | .sleepCall node => Sys2Proof.Machine.execSleepCall node s
  | .sleepLinkAdd node => Sys2Proof.Machine.execSleepLinkAdd node s
  | .sleepLinkRemove node => Sys2Proof.Machine.execSleepLinkRemove node s
  | .t3Expiry t => Sys2Proof.Machine.execT3Expiry t s
  | .wakeWaitExpiry node => Sys2Proof.Machine.execWakeWaitExpiry node s
  | .sleepCountClear => Sys2Proof.Machine.execSleepCountClear s
  | .sleepRebuildStep => Sys2Proof.Machine.execSleepRebuildStep s
  | .t3CacheRefill => Sys2Proof.Machine.execT3CacheRefill s
  | .tkNew bob desc => Sys2Proof.Machine.execTkNew bob desc s
  | .tkFill bob handle src pin words => Sys2Proof.Machine.execTkFill bob handle src pin words s
  | .tkPut bob queue addr ordered => Sys2Proof.Machine.execTkPut bob queue addr ordered s
  | .tkTimer bob handle ticks pin list => Sys2Proof.Machine.execTkTimer bob handle ticks pin list s
  | .tkCancel bob handle => Sys2Proof.Machine.execTkCancel bob handle s
  | .tkDrop bob handle => Sys2Proof.Machine.execTkDrop bob handle s
  | .tkEnd bob => Sys2Proof.Machine.execTkEnd bob s
  | .taskPlace hoop t => Sys2Proof.Machine.execTaskPlace hoop t s
  | .taskException bob cause pc ecc addr => Sys2Proof.Machine.execTaskException bob cause pc ecc addr s
  | .taskRunLimit bob pc t => Sys2Proof.Machine.execTaskRunLimit bob pc t s
  | .initRunRestart bob t => Sys2Proof.Machine.execInitRunRestart bob t s
  | .delayListExpiry list => Sys2Proof.Machine.execDelayListExpiry list s
  | .releasePortTake => Sys2Proof.Machine.execReleasePortTake s
  | .taskQueueEntry queue => Sys2Proof.Machine.execTaskQueueEntry queue s
  | .pillowCountClear => Sys2Proof.Machine.execPillowCountClear s
  | .pillowTemplateWrite qt val => Sys2Proof.Machine.execPillowTemplateWrite qt val s
  | .enqueue queue src addr len flags tag aux => Sys2Proof.Machine.execEnqueue queue src addr len flags tag aux s
  | .dequeue queue => Sys2Proof.Machine.execDequeue queue s
  | .creditReturn queue src => Sys2Proof.Machine.execCreditReturn queue src s
  | .queueReadbackDone queue => Sys2Proof.Machine.execQueueReadbackDone queue s
  | .queueDropRemainder queue => Sys2Proof.Machine.execQueueDropRemainder queue s
  | .queueClearCount queue => Sys2Proof.Machine.execQueueClearCount queue s
  | .queueWmWrite high low => Sys2Proof.Machine.execQueueWmWrite high low s
  | .dramRequest cls write addr chunks run data by_ => Sys2Proof.Machine.execDramRequest cls write addr chunks run data by_ s
  | .dramReadDone cls => Sys2Proof.Machine.execDramReadDone cls s
  | .dramWriteDone cls => Sys2Proof.Machine.execDramWriteDone cls s
  | .dramRefreshSlot bank due => Sys2Proof.Machine.execDramRefreshSlot bank due s
  | .dramScheduleSwitch => Sys2Proof.Machine.execDramScheduleSwitch s
  | .memBufTake => Sys2Proof.Machine.execMemBufTake s
  | .memBufReturn addr => Sys2Proof.Machine.execMemBufReturn addr s
  | .nandRead count => Sys2Proof.Machine.execNandRead count s
  | .nandProgram count => Sys2Proof.Machine.execNandProgram count s
  | .nandErase count => Sys2Proof.Machine.execNandErase count s
  | .nandOperationDone ok => Sys2Proof.Machine.execNandOperationDone ok s
  | .memCountClear => Sys2Proof.Machine.execMemCountClear s
  | .groundCmdWrite addr cmp bob => Sys2Proof.Machine.execGroundCmdWrite addr cmp bob s
  | .groundLookup => Sys2Proof.Machine.execGroundLookup s
  | .groundInsert => Sys2Proof.Machine.execGroundInsert s
  | .groundDelete => Sys2Proof.Machine.execGroundDelete s
  | .groundFetch => Sys2Proof.Machine.execGroundFetch s
  | .groundRoute => Sys2Proof.Machine.execGroundRoute s
  | .groundWrite => Sys2Proof.Machine.execGroundWrite s
  | .groundLptRead => Sys2Proof.Machine.execGroundLptRead s
  | .groundLptForget => Sys2Proof.Machine.execGroundLptForget s
  | .groundRehash => Sys2Proof.Machine.execGroundRehash s
  | .rehashWalkEnd => Sys2Proof.Machine.execRehashWalkEnd s
  | .groundSwap => Sys2Proof.Machine.execGroundSwap s
  | .groundBadOp => Sys2Proof.Machine.execGroundBadOp s
  | .hashZeroingDone => Sys2Proof.Machine.execHashZeroingDone s
  | .routerAdvertisementRx port router life prefixes t => Sys2Proof.Machine.execRouterAdvertisementRx port router life prefixes t s
  | .prefixDelegationChange deleg t => Sys2Proof.Machine.execPrefixDelegationChange deleg t s
  | .defaultRouterExpiry port t => Sys2Proof.Machine.execDefaultRouterExpiry port t s
  | .preferredPortReturn t => Sys2Proof.Machine.execPreferredPortReturn t s
  | .downstreamPacket dest octets hdrIn hdrOut phy extra t => Sys2Proof.Machine.execDownstreamPacket dest octets hdrIn hdrOut phy extra t s
  | .upstreamFragmentRx node tag size off data t => Sys2Proof.Machine.execUpstreamFragmentRx node tag size off data t s
  | .reassemblyExpiry t => Sys2Proof.Machine.execReassemblyExpiry t s
  | .addressRegistrationRx node iid rovr life t => Sys2Proof.Machine.execAddressRegistrationRx node iid rovr life t s
  | .edarRx node iid rovr life t => Sys2Proof.Machine.execEdarRx node iid rovr life t s
  | .registrationExpiry node t => Sys2Proof.Machine.execRegistrationExpiry node t s
  | .dioTrickleExpiry pan heard t => Sys2Proof.Machine.execDioTrickleExpiry pan heard t s
  | .daoRx sender pan target transits version ack t => Sys2Proof.Machine.execDaoRx sender pan target transits version ack t s
  | .pathLifetimeExpiry node t => Sys2Proof.Machine.execPathLifetimeExpiry node t s
  | .scDemandRx node cells t => Sys2Proof.Machine.execScDemandRx node cells t s
  | .scAssignmentAck node t => Sys2Proof.Machine.execScAssignmentAck node t s
  | .sixpRequestRx node sfid list t => Sys2Proof.Machine.execSixpRequestRx node sfid list t s
  | .sixpTimeout t => Sys2Proof.Machine.execSixpTimeout t s
  | .joinRequestRx pan eui pledge message oscore wrapSlot t => Sys2Proof.Machine.execJoinRequestRx pan eui pledge message oscore wrapSlot t s
  | .rekeyAckRx pan node t => Sys2Proof.Machine.execRekeyAckRx pan node t s
  | .rekeyDeadline pan t => Sys2Proof.Machine.execRekeyDeadline pan t s
  | .campaignInterval campaign held t => Sys2Proof.Machine.execCampaignInterval campaign held t s
  | .reportWindowEnd campaign held t => Sys2Proof.Machine.execReportWindowEnd campaign held t s
  | .missingBlocksRx campaign node bitmap t => Sys2Proof.Machine.execMissingBlocksRx campaign node bitmap t s
  | .fwBlockGet campaign node num szx => Sys2Proof.Machine.execFwBlockGet campaign node num szx s
  | .completionReportRx campaign node version t => Sys2Proof.Machine.execCompletionReportRx campaign node version t s
  | .campaignEndExpiry campaign t => Sys2Proof.Machine.execCampaignEndExpiry campaign t s
  | .netGet ticket => Sys2Proof.Machine.execNetGet ticket s
  | .netSet ticket port udp pd => Sys2Proof.Machine.execNetSet ticket port udp pd s
  | .panGet ticket pan => Sys2Proof.Machine.execPanGet ticket pan s
  | .panSet ticket pan k => Sys2Proof.Machine.execPanSet ticket pan k s
  | .panRepair ticket pan => Sys2Proof.Machine.execPanRepair ticket pan s
  | .nodeGet ticket index eui => Sys2Proof.Machine.execNodeGet ticket index eui s
  | .nodeRemove ticket node => Sys2Proof.Machine.execNodeRemove ticket node s
  | .nodeList ticket pan first count => Sys2Proof.Machine.execNodeList ticket pan first count s
  | .nodeRoute ticket node => Sys2Proof.Machine.execNodeRoute ticket node s
  | .nodeSetClass ticket node cls => Sys2Proof.Machine.execNodeSetClass ticket node cls s
  | .schedGet ticket node => Sys2Proof.Machine.execSchedGet ticket node s
  | .schedSet ticket pan sf0 sf1 => Sys2Proof.Machine.execSchedSet ticket pan sf0 sf1 s
  | .schedStats ticket => Sys2Proof.Machine.execSchedStats ticket s
  | .joinSet ticket listed slot rate => Sys2Proof.Machine.execJoinSet ticket listed slot rate s
  | .joinEnrol ticket entries slot => Sys2Proof.Machine.execJoinEnrol ticket entries slot s
  | .joinRevoke ticket pledges => Sys2Proof.Machine.execJoinRevoke ticket pledges s
  | .joinStats ticket => Sys2Proof.Machine.execJoinStats ticket s
  | .joinGroupRekey ticket pan slot deadline t => Sys2Proof.Machine.execJoinGroupRekey ticket pan slot deadline t s
  | .imageBegin ticket image len digest mask version => Sys2Proof.Machine.execImageBegin ticket image len digest mask version s
  | .imageWrite ticket image off data => Sys2Proof.Machine.execImageWrite ticket image off data s
  | .imageCommit ticket image => Sys2Proof.Machine.execImageCommit ticket image s
  | .imageDelete ticket image => Sys2Proof.Machine.execImageDelete ticket image s
  | .imageList ticket => Sys2Proof.Machine.execImageList ticket s
  | .campaignStart ticket pan image a t => Sys2Proof.Machine.execCampaignStart ticket pan image a t s
  | .campaignStatus ticket campaign => Sys2Proof.Machine.execCampaignStatus ticket campaign s
  | .campaignStop ticket campaign => Sys2Proof.Machine.execCampaignStop ticket campaign s
  | .zoneReportRx node kind value ts t => Sys2Proof.Machine.execZoneReportRx node kind value ts t s
  | .zoneHoldExpiry zone t => Sys2Proof.Machine.execZoneHoldExpiry zone t s
  | .zoneVacancyExpiry zone t => Sys2Proof.Machine.execZoneVacancyExpiry zone t s
  | .zoneOverrideExpiry zone t => Sys2Proof.Machine.execZoneOverrideExpiry zone t s
  | .zonePiStep zone t => Sys2Proof.Machine.execZonePiStep zone t s
  | .zoneBroadcastOpportunity pan fit held t => Sys2Proof.Machine.execZoneBroadcastOpportunity pan fit held t s
  | .zoneGet ticket zone => Sys2Proof.Machine.execZoneGet ticket zone s
  | .zoneSet ticket zone k t => Sys2Proof.Machine.execZoneSet ticket zone k t s
  | .zoneAddMembers ticket zone nodes => Sys2Proof.Machine.execZoneAddMembers ticket zone nodes s
  | .zoneRemoveMembers ticket zone nodes => Sys2Proof.Machine.execZoneRemoveMembers ticket zone nodes s
  | .zoneOverride ticket zone level secs t => Sys2Proof.Machine.execZoneOverride ticket zone level secs t s
  | .zoneRelease ticket zone t => Sys2Proof.Machine.execZoneRelease ticket zone t s
  | .zoneStats ticket pan => Sys2Proof.Machine.execZoneStats ticket pan s
  | .zoneDelete ticket zone => Sys2Proof.Machine.execZoneDelete ticket zone s
  | .keyCmdWrite addr => Sys2Proof.Machine.execKeyCmdWrite addr s
  | .keyGenerate => Sys2Proof.Machine.execKeyGenerate s
  | .keyDerive => Sys2Proof.Machine.execKeyDerive s
  | .keyImport => Sys2Proof.Machine.execKeyImport s
  | .keyExport => Sys2Proof.Machine.execKeyExport s
  | .keyRestrict => Sys2Proof.Machine.execKeyRestrict s
  | .keyDestroy => Sys2Proof.Machine.execKeyDestroy s
  | .keyAttest signFails => Sys2Proof.Machine.execKeyAttest signFails s
  | .keySign signFails => Sys2Proof.Machine.execKeySign signFails s
  | .keyKmac => Sys2Proof.Machine.execKeyKmac s
  | .keyWrapData => Sys2Proof.Machine.execKeyWrapData s
  | .keyRandom => Sys2Proof.Machine.execKeyRandom s
  | .keyDecaps => Sys2Proof.Machine.execKeyDecaps s
  | .keyPublic => Sys2Proof.Machine.execKeyPublic s
  | .keyCommission => Sys2Proof.Machine.execKeyCommission s
  | .keyCert => Sys2Proof.Machine.execKeyCert s
  | .keyVerify => Sys2Proof.Machine.execKeyVerify s
  | .entropyHealthFail => Sys2Proof.Machine.execEntropyHealthFail s
  | .tamperSourceEvent source t => Sys2Proof.Machine.execTamperSourceEvent source t s
  | .tamperCoreResponse t => Sys2Proof.Machine.execTamperCoreResponse t s
  | .tamperCfgWrite value => Sys2Proof.Machine.execTamperCfgWrite value s
  | .tamperLogClear => Sys2Proof.Machine.execTamperLogClear s
  | .roleEnrol ticket role pubKey => Sys2Proof.Machine.execRoleEnrol ticket role pubKey s
  | .roleRevoke ticket digest => Sys2Proof.Machine.execRoleRevoke ticket digest s
  | .roleRelease ticket eui => Sys2Proof.Machine.execRoleRelease ticket eui s
  | .samplerEntry ticket => Sys2Proof.Machine.execSamplerEntry ticket s
  | .roleReissue ticket => Sys2Proof.Machine.execRoleReissue ticket s
  | .auditRead ticket first count => Sys2Proof.Machine.execAuditRead ticket first count s
  | .auditCheckpoint ticket => Sys2Proof.Machine.execAuditCheckpoint ticket s
  | .auditHeadRead ticket => Sys2Proof.Machine.execAuditHeadRead ticket s
  | .roleCkptWrite => Sys2Proof.Machine.execRoleCkptWrite s
  | .auditPageProgram => Sys2Proof.Machine.execAuditPageProgram s
  | .leaseRenewDue t => Sys2Proof.Machine.execLeaseRenewDue t s
  | .renewRx role count ext t => Sys2Proof.Machine.execRenewRx role count ext t s
  | .grantRx role count t => Sys2Proof.Machine.execGrantRx role count t s
  | .resignRx role t => Sys2Proof.Machine.execResignRx role t s
  | .markStaleRx role t => Sys2Proof.Machine.execMarkStaleRx role t s
  | .witnessDatagramRx kind role count ext seq tagOk t => Sys2Proof.Machine.execWitnessDatagramRx kind role count ext seq tagOk t s
  | .peerSilentTimeout t => Sys2Proof.Machine.execPeerSilentTimeout t s
  | .takeoverInstant t => Sys2Proof.Machine.execTakeoverInstant t s
  | .aloneTimeout t => Sys2Proof.Machine.execAloneTimeout t s
  | .helloSend t => Sys2Proof.Machine.execHelloSend t s
  | .helloRx digest eui role pref t => Sys2Proof.Machine.execHelloRx digest eui role pref t s
  | .keyxRx ok secret peerEui t => Sys2Proof.Machine.execKeyxRx ok secret peerEui t s
  | .mirrorFrameRx records t => Sys2Proof.Machine.execMirrorFrameRx records t s
  | .mirrorAckRx seq t => Sys2Proof.Machine.execMirrorAckRx seq t s
  | .fixScanStep => Sys2Proof.Machine.execFixScanStep s
  | .naRepeat t => Sys2Proof.Machine.execNaRepeat t s
  | .pairResignWrite => Sys2Proof.Machine.execPairResignWrite s
  | .pairResyncWrite => Sys2Proof.Machine.execPairResyncWrite s
  | .resyncComplete t => Sys2Proof.Machine.execResyncComplete t s
  | .updateBegin ticket manifest t => Sys2Proof.Machine.execUpdateBegin ticket manifest t s
  | .updateWrite ticket entry off data flashOk t => Sys2Proof.Machine.execUpdateWrite ticket entry off data flashOk t s
  | .updateFinish ticket flashOk t => Sys2Proof.Machine.execUpdateFinish ticket flashOk t s
  | .updateActivate ticket window => Sys2Proof.Machine.execUpdateActivate ticket window s
  | .updateAbort ticket => Sys2Proof.Machine.execUpdateAbort ticket s
  | .updateStatus ticket => Sys2Proof.Machine.execUpdateStatus ticket s
  | .updateConfirm mainHoop t => Sys2Proof.Machine.execUpdateConfirm mainHoop t s
  | .updateReject mainHoop t => Sys2Proof.Machine.execUpdateReject mainHoop t s
  | .trialWindowExpiry t => Sys2Proof.Machine.execTrialWindowExpiry t s
  | .updateSessionIdle t => Sys2Proof.Machine.execUpdateSessionIdle t s
  | .updateOfferRx manifest t => Sys2Proof.Machine.execUpdateOfferRx manifest t s
  | .updateDataRx entry off data flashOk t => Sys2Proof.Machine.execUpdateDataRx entry off data flashOk t s
  | .updateActivateRx mdig window => Sys2Proof.Machine.execUpdateActivateRx mdig window s
  | .updateResultRx mdig state t => Sys2Proof.Machine.execUpdateResultRx mdig state t s
  | .updateAbortRx => Sys2Proof.Machine.execUpdateAbortRx s
  | .updateResultSend t => Sys2Proof.Machine.execUpdateResultSend t s
  | .gpioEdge pin rising t => Sys2Proof.Machine.execGpioEdge pin rising t s
  | .mainSupplyGood supply => Sys2Proof.Machine.execMainSupplyGood supply s
  | .resetNRelease => Sys2Proof.Machine.execResetNRelease s
  | .tamperSourceInactive source filtered => Sys2Proof.Machine.execTamperSourceInactive source filtered s
  | .fwHeaderGet campaign node => Sys2Proof.Machine.execFwHeaderGet campaign node s
  | .fcpPinUpdate t => Sys2Proof.Machine.execFcpPinUpdate t s

end Sys2Proof.Machine
end

