-- ==== Sys2Proof/Machine/Step.lean ====
section
/-!
DEFINITION. One step: the command at the front of the queue, or a tick of the clock when none waits.
-/
namespace Sys2Proof.Machine
open Sys2Proof

/-- One core cycle passes with nothing commanded: the MAC time base counts while ROOT runs (R4; notes/assumptions/2.md). -/
def State.tick (s : State) : State := if s.rootRuns then { s with mtb := s.mtb + 1 } else s

/-- The step. -/
def step (s : State) : Host.Outcome State Fault Refusal :=
  match s.pending with
  | [] => .next s.tick
  | c :: rest => exec c { s with pending := rest }

/-- The state with the command that a word spells at the front of its queue. -/
def State.withFetchWord (s : State) (nbits w : Nat) : State :=
  match decodeTableWord nbits w with
  | none => s
  | some c => { s with pending := c :: s.pending }

end Sys2Proof.Machine
end

