-- ==== Sys2Proof/Safety.lean ====
section
/-!
DEFINITION. What is true of every state that the block can be in: the tables that stand for registers, memory and flash are in
their canonical form, and no register holds a bit that the spec reserves.
-/
namespace Sys2Proof.Machine
open Sys2Proof

/-- The canonical form of memory: addresses rise strictly, and no entry equals what an unlisted address reads as. -/
def Memory.wf (m : List Host.Cell) : Bool := Store.wf (fun _ => (0 : Byte)) m

/-- The same of the flash, whose unlisted octets are erased. -/
def Flash.wf (m : List Host.Cell) : Bool := Store.wf (fun _ => (0xFF : Byte)) m

/-- A register word without a bit that the spec reserves (R8, R9: an RSV field reads 0). -/
def cleanWord (x : Nat × Word) : Bool := x.2 &&& ~~~ regMask x.1 = 0

/-- The register table: canonical, and no listed register holds a reserved bit. -/
def Registers.wf (r : Store Word) : Bool := Store.wf regReset r && r.all cleanWord

/-- The invariant of every step. -/
abbrev State.Inv (s : State) : Prop := Registers.wf s.regs = true ∧ Memory.wf s.mem = true ∧ Flash.wf s.flash = true

/-- The block that the register at an address stands in, by its number in a status word (Table 00.4); the blocks of both upstream
ports count as the first one's (3), those of the four transceivers as TRX0's (7). -/
def regBlock (a : Nat) : Nat :=
  let b := blockOf a
  if b = 4 then 3 else if 8 ≤ b && b ≤ 10 then 7 else b

/-- The parts of a state that a command may or may not touch: every register (`regs`), the registers of one block (`block`), or
one of the state's other fields. -/
inductive Part where
  | regs | block (b : Nat)
  | mem | flash | out | resp | notes | mtb | freeIx | pr | clk | su | queues | ms | pl | gd | tm | ky | ro | cmp | rd | mac
  | sl | pa | ry | upl0 | upl1 | tie | svc | up
  deriving DecidableEq, Repr

/-- The part, where it is no register, is the same in two states. -/
def Part.same (s t : State) : Part → Prop
  | .regs => True
  | .block _ => True
  | .mem => t.mem = s.mem
  | .flash => t.flash = s.flash
  | .out => t.out = s.out
  | .resp => t.resp = s.resp
  | .notes => t.notes = s.notes
  | .mtb => t.mtb = s.mtb
  | .freeIx => t.freeIx = s.freeIx
  | .pr => t.pr = s.pr
  | .clk => t.clk = s.clk
  | .su => t.su = s.su
  | .queues => t.queues = s.queues
  | .ms => t.ms = s.ms
  | .pl => t.pl = s.pl
  | .gd => t.gd = s.gd
  | .tm => t.tm = s.tm
  | .ky => t.ky = s.ky
  | .ro => t.ro = s.ro
  | .cmp => t.cmp = s.cmp
  | .rd => t.rd = s.rd
  | .mac => t.mac = s.mac
  | .sl => t.sl = s.sl
  | .pa => t.pa = s.pa
  | .ry => t.ry = s.ry
  | .upl0 => t.upl0 = s.upl0
  | .upl1 => t.upl1 = s.upl1
  | .tie => t.tie = s.tie
  | .svc => t.svc = s.svc
  | .up => t.up = s.up

/-- `t` differs from `s` in parts of the list `l` alone, and it meets the invariant if `s` does. The registers of a block that is
not in the list read as before, unless `regs` is in it. -/
structure State.Within (l : List Part) (s t : State) : Prop where
  pending : t.pending = s.pending
  inv : s.Inv → t.Inv
  same : ∀ p, p ∉ l → p.same s t
  regs : s.Inv → Part.regs ∉ l → ∀ a, Part.block (regBlock a) ∉ l → t.getReg a = s.getReg a

/-- What a service call was answered: its status and result (R123). -/
def State.answer? (s : State) (ticket : Nat) : Option (Nat × List (Nat × List Nat)) :=
  match Store.find? ticket s.cmp.tickets with
  | some k => if k.ready then some (k.status, k.result) else none
  | none => none

/-- A service call that may make a change now: it is the oldest open one of its service (R361), its record finds room (R433) and
the unit's role serves it (R362). -/
def State.callable (s : State) (ticket svc op : Nat) : Bool :=
  (s.openCall ticket svc op).isSome && s.auditRoom && decide (s.pairRole < 2)

/-- What a service call that may not make its change leaves: nothing where it is not the oldest open one of its service (R361);
ST_ROLE_AUDIT_BUSY and the event where its record finds no room (R433); ST_RYURIX_NOT_ACTIVE, and no change, in a role that serves
reads alone (R362). -/
abbrev State.turnedAway (s t : State) (ticket svc op : Nat) : Prop :=
  ((s.openCall ticket svc op).isNone = true → t = s) ∧
  ((s.openCall ticket svc op).isSome = true ∧ s.auditRoom = false →
    t = (s.raise R.ROLE_EVENT_AUDIT_BUSY).finishCall ticket ST.ROLE_AUDIT_BUSY []) ∧
  ((s.openCall ticket svc op).isSome = true ∧ s.auditRoom = true →
    t.answer? ticket = some (ST.RYURIX_NOT_ACTIVE, []) ∧ t.mem = s.mem ∧ t.flash = s.flash ∧ t.ry = s.ry ∧ t.ky = s.ky)

/-- The key engine takes request `r` from the head of its queue under the name of operation `op` (R408): no key command and no
key-store write is in progress, ROOT runs, and no engine it needs is gated (R71). A request that names no operation at all is
taken under any name. -/
def State.keyHead (s : State) (op : Nat) (r : KeyReq) : Bool :=
  s.ky.fifo.head? == some r && s.ky.job.isNone && s.ky.bootJob.isEmpty && s.rootRuns &&
  ((s.reqBlk r).op == op || (s.reqBlk r).op == 0 || decide (16 < (s.reqBlk r).op)) && !s.engineOff (s.reqBlk r)

/-- The key engine takes request `r`, of operation `op`, and a record finds room (R433). -/
def State.keyTurn (s : State) (op : Nat) (r : KeyReq) : Bool := s.keyHead op r && (s.reqBlk r).op == op && s.auditRoom

/-- How a key command has ended (R408): STATUS, RESULT and DONE stand in its block, or its ticket, where it has one, is answered. -/
def State.keyTold (t : State) (r : KeyReq) (st result : Nat) : Bool :=
  match r with
  | .blk a => decide (t.readNat (a + 2) 2 = st % 2 ^ 16 ∧ t.readNat (a + 32) 4 = result % 2 ^ 32 ∧ t.readNat (a + 1) 1 = 1 ∧ t.resp = st)
  | .call k _ => (Store.find? k t.cmp.tickets).isNone || decide (t.answer? k = some (st, [(20, [result])]))

/-- A key command has ended well with the output `o`: in the buffer at OUT, where that does not reach into the block, or in its
ticket's result. -/
def State.keyGave (t : State) (r : KeyReq) (b : KeyBlk) (o : List Byte) : Bool :=
  match r with
  | .blk a =>
    decide (b.out < a + 48 ∧ a < b.out + o.length) || (t.keyTold r ST.OK o.length && decide (t.readBytes b.out o.length = o))
  | .call k _ =>
    (Store.find? k t.cmp.tickets).isNone || decide (t.answer? k = some (ST.OK, [(20, if o.isEmpty then [0] else nats o)]))

/-- Firmware of bobbin `b` may write the register at `a` now: ROOT runs, the bobbin is created and executes (R69, R285), the
address is a register outside the SAMPLER block (R308), VIS grants it (R30), and the unit, lane or queue it belongs to is created
(R45). -/
def State.opens (s : State) (b a : Nat) : Bool :=
  s.rootRuns && (s.hoopOf b).isSome && s.executes b && (s.addrFault a).isNone && a / 0x10000 != 0x201F &&
  2 ≤ s.granted (.bobbin b) a &&
  !(0x2008 ≤ a / 0x10000 && a / 0x10000 ≤ 0x200B && (s.trxRec (a / 0x10000 - 0x2008)).isNone) &&
  !(a / 0x10000 = 0x200C && (s.laneRec (firstCopy a).2).isNone) &&
  !(R.QUEUE_CFG ≤ a && a ≤ R.QUEUE_EVENT && (s.queueRec (s.getF R.QUEUE_SEL_QUEUE)).isNone) &&
  !(s.byCustomer (.bobbin b) && ((R.PILLOW_HOOP 0 ≤ a && a ≤ R.PILLOW_HOOP 3) || (R.PILLOW_CUST_WIN ≤ a && a ≤ R.PILLOW_CUST_KINDS)))

/-- What a write of `w` makes of the register at `a`: its RW bits as written, the others as they read (R9). -/
def State.newWord (s : State) (a : Nat) (w : Word) : Word :=
  (w &&& regAccessMask .rw a) ||| (s.regWord a &&& ~~~ regAccessMask .rw a)

/-- The state once the record of firmware's write of `w` at `a` has been appended (R433). -/
def State.recordedWrite (s : State) (b a : Nat) (w : Word) : State :=
  (s.auditAppend ⟨1, 0, (s.writeBody (.bobbin b) a w).resp, 0, a, (s.regWord a).toNat, w.toNat⟩).checkpointDue

/-- No state of start-up in which the root source is not locked (R84): there a command that looks at the sources leads back to
AWAIT_TRAINING. -/
def State.rootKept (s : State) : Bool :=
  s.dev < devRootLock || devLoad < s.dev || s.srcLocked (s.getF R.CLK_STATE_ROOT_SRC)

/-- The state in which a service port transaction of mode `m` is executed (R114). -/
def State.svcAt (s : State) (m : Bool) (u : Nat) : State := (if s.rootRuns then s.advance u else s).setB R.SVC_PORT_STAT_MODE m

/-- What answers a CMP request that is not executed (R119, R120). -/
def formAnswer (f : ReqForm) : Msg :=
  match f with
  | .noDecrypt => .cmpCode 400
  | .badPath => .cmpCode 404
  | .badCbor => .cmpReply coapChanged ST.CMP_BAD_REQUEST [] 0 0
  | _ => .cmpCode 401

/-- A request under number `mid` of a sender is taken and not one that was answered before (R119): firmware runs, no response
under that number lives, and where it came through the tunnel it stands there. -/
def State.cmpReady (s : State) (sender mid : Nat) (tunnel : Bool) (u : Nat) : Bool :=
  s.firmwareUp && (!tunnel || s.svc.inbound.isSome) &&
  s.cmp.answered.all (fun a => !(decide (max s.mtb u < a.at_ + exchangeLife) && a.session == sender && a.mid == mid))

/-- The state in which a request that is taken is executed: its message has left the tunnel. -/
def State.cmpTaken (s : State) (tunnel : Bool) (u : Nat) : State :=
  if tunnel then { s.advance u with svc := { s.svc with inbound := none } } else s.advance u

/-- The state in which a request of session `n`, whose record is `v`, is executed. -/
def State.cmpAt (s : State) (n : Nat) (v : Session) (tunnel : Bool) (u : Nat) : State :=
  (s.cmpTaken tunnel u).setSession n { v with lastReq := max s.mtb u }

/-- The response `m` is the last thing that went out the way the request came (R118). -/
abbrev State.replied (t : State) (tunnel : Bool) (m : Msg) : Prop :=
  (tunnel = false → t.out.head? = some m) ∧ (tunnel = true → t.svc.outbound.getLast? = some m ∧ t.svc.inbound = none)

/-- The response `m` is all that went out since `s`. -/
abbrev State.told (s t : State) (tunnel : Bool) (m : Msg) : Prop :=
  (tunnel = false → t.out = m :: s.out) ∧
  (tunnel = true → t.out = s.out ∧ t.svc.outbound.getLast? = some m ∧ t.svc.inbound = none)

/-- The pillow has what a hardware receive task needs (R185, R273, R278): an entry of the task store, three pins, a record buffer,
and room in the window of its ordered flow. -/
def State.rxRoom (s : State) : Bool :=
  decide (s.pl.tasks.length < 32768) && decide (s.pl.pins.length + 3 ≤ 16384) && decide (s.pl.records.length < 4096) &&
  s.windowRoom (ordOf (s.getF R.PILLOW_HW_ORD_ORD))

/-- The SYNC_FLAGS bit of a reception's note that says its preamble was one of a coded frame (Table 08.5). -/
def State.codedOf (s : State) (r : Rx) : Bool :=
  match r.task with
  | some i => (match s.pinCell i 0 with | some a => bitOf (s.readNat (a + 23) 1) 1 | none => false)
  | none => false

/-- What the address lookup answers for a header (R338, R339, R346). -/
def State.lookedUp (s : State) (h : MacHdr) : Nat :=
  if h.srcMode = 2 then (match s.srcPanRec h with | some p => s.resolveShort p h.src | none => nodeNone)
  else if h.srcMode = 3 then (if s.isSet R.GROUND_STATE_HASH_READY then s.hashLookup h.src 0 else nodeNone)
  else nodeNone

/-- A frame's attempt can become a command now (R225, R231, R232): it is with no shuttle, the unit sends, no OFF_MS runs, its DEADLINE
slot has not passed at its departure, the duty account takes it and its octets can be secured. -/
def State.mayIssue (s : State) (id n phy tDep wus : Nat) (f : Frame) : Bool :=
  f.free && s.roleSends && !s.offWait n && f.inTime (s.asn (tDep + wus)) && s.dutyFits n (wus + f.req.air phy) &&
  (s.secure id { f with state := .waiting }).1

/-- The state in which a carrier sense `x` at tap `k` has ended. -/
def State.senseOver (s : State) (k : Nat) (x : Sense) : State :=
  let s := s.advance x.until_
  { s with mac := { s.mac with senses := Store.del k s.mac.senses } }

/-- The MAC has taken the entry `e` from its queue `q`. -/
def State.macTaken (s : State) (u q : Nat) (e : Entry) : State := ((s.advance u).dequeue q).emit (.entry q e)

/-- What refuses a transmit request, in the order of R224; 0 nothing. -/
def State.reqStatus (s : State) (r : TxReq) : Nat :=
  if !s.reqOk r then ST.MAC_RANGE
  else if s.reqLong r then ST.MAC_TOO_LONG
  else if !s.panEnabled r.pan || !s.roleSends then ST.MAC_STATE
  else if 8192 ≤ (s.mac.frames.filter (fun f => f.2.state != .complete)).length then ST.MAC_PEND_FULL
  else if r.node ≠ nodeNone && s.tracked r.node && s.slState r.node = 5 then ST.SLEEP_UNREACHABLE
  else 0

/-- The command `c` completes from `s`, with a state of which `P` holds. -/
def Completes (c : Instr) (s : State) (P : State → Prop) : Prop := ∃ t, exec c s = .next t ∧ P t

end Sys2Proof.Machine
end

