-- ==== Sys2Proof/Touches.lean ====
section
/-!
DEFINITION. The parts of the state that each command may touch: the frame of every command. A command leaves every other part as
it was, and its queue.
-/
namespace Sys2Proof.Machine
open Sys2Proof

/-- The parts of the state that a command may touch. -/
def touches (c : Instr) : List Part :=
  match c with
  | .registerWrite _ _ _ _ _ => [.block 0, .block 1, .block 11, .block 12, .block 13, .block 14, .block 15, .block 16, .block 17,
      .block 18, .block 19, .block 2, .block 20, .block 21, .block 22, .block 23, .block 3, .block 5, .block 6, .block 7, .clk, .cmp,
      .flash, .freeIx, .gd, .ky, .mac, .mem, .ms, .mtb, .notes, .out, .pa, .pl, .pr, .queues, .rd, .regs, .resp, .ro, .ry, .sl, .su,
      .svc, .tie, .tm, .up, .upl0, .upl1]
  | .eventClear _ _ _ _ => [.block 0, .block 1, .block 11, .block 12, .block 13, .block 14, .block 15, .block 16, .block 17, .block 18,
      .block 19, .block 2, .block 20, .block 21, .block 22, .block 23, .block 3, .block 5, .block 6, .block 7, .clk, .cmp, .flash,
      .freeIx, .gd, .ky, .mac, .mem, .ms, .mtb, .notes, .out, .pa, .pl, .pr, .queues, .rd, .regs, .resp, .ro, .ry, .sl, .su, .svc, .tie,
      .tm, .up, .upl0, .upl1]
  | .eventEnableWrite _ _ _ _ => [.block 0, .block 1, .block 11, .block 12, .block 13, .block 14, .block 15, .block 16, .block 17,
      .block 18, .block 19, .block 2, .block 20, .block 21, .block 22, .block 23, .block 3, .block 5, .block 6, .block 7, .clk, .cmp,
      .flash, .freeIx, .gd, .ky, .mac, .mem, .ms, .mtb, .notes, .out, .pa, .pl, .pr, .queues, .rd, .regs, .resp, .ro, .ry, .sl, .su,
      .svc, .tie, .tm, .up, .upl0, .upl1]
  | .vbatApplied => [.block 19, .regs, .su]
  | .vbatLost => [.block 19, .ky, .regs, .ro, .su]
  | .supplyGoodIntervalEnd _ => [.block 0, .block 2, .notes, .su]
  | .mainSupplyLost _ => [.block 1, .block 2, .block 20, .block 21, .block 22, .clk, .cmp, .flash, .freeIx, .gd, .ky, .mac, .mem, .ms,
      .mtb, .notes, .out, .pa, .pl, .pr, .queues, .rd, .regs, .resp, .ro, .ry, .sl, .su, .svc, .tie, .tm, .up, .upl0, .upl1]
  | .resetNTaken => [.block 1, .block 2, .block 20, .block 21, .block 22, .clk, .cmp, .flash, .freeIx, .gd, .ky, .mac, .mem, .ms, .mtb,
      .notes, .out, .pa, .pl, .pr, .queues, .rd, .regs, .resp, .ro, .ry, .sl, .su, .svc, .tie, .tm, .up, .upl0, .upl1]
  | .sourceLocked _ _ => [.block 1, .block 11, .block 12, .block 14, .block 15, .block 16, .block 2, .block 20, .block 21, .block 22,
      .block 3, .block 5, .block 6, .block 7, .clk, .cmp, .freeIx, .ky, .mac, .mem, .ms, .mtb, .notes, .out, .pa, .pl, .queues, .rd,
      .resp, .ro, .ry, .sl, .tie, .tm, .up]
  | .sourceLost _ _ => [.block 1, .block 11, .block 12, .block 14, .block 15, .block 16, .block 2, .block 20, .block 21, .block 22,
      .block 3, .block 5, .block 6, .block 7, .clk, .cmp, .freeIx, .gd, .ky, .mac, .mem, .ms, .mtb, .notes, .out, .pa, .pl, .pr,
      .queues, .rd, .regs, .resp, .ro, .ry, .sl, .su, .svc, .tie, .tm, .up, .upl0, .upl1]
  | .rootPllLock => [.block 1, .block 11, .block 12, .block 14, .block 15, .block 16, .block 2, .block 20, .block 21, .block 22,
      .block 5, .block 6, .block 7, .clk, .cmp, .freeIx, .ky, .mac, .mem, .ms, .mtb, .notes, .out, .pa, .pl, .queues, .rd, .resp, .ro,
      .ry, .sl, .su, .tie, .tm, .up]
  | .rootLockTimeout => [.block 0, .block 1, .block 2, .block 20, .block 21, .block 22, .clk, .cmp, .freeIx, .gd, .ky, .mac, .mem, .ms,
      .mtb, .notes, .out, .pa, .pl, .pr, .queues, .rd, .regs, .resp, .ro, .ry, .sl, .su, .svc, .tie, .tm, .up, .upl0, .upl1]
  | .dramTrainStageEnd _ _ => [.block 0, .block 11, .block 12, .block 14, .block 15, .block 16, .block 18, .block 2, .block 20,
      .block 21, .block 22, .block 6, .block 7, .clk, .cmp, .flash, .freeIx, .ky, .mac, .mem, .ms, .mtb, .notes, .out, .pa, .pl,
      .queues, .rd, .resp, .ro, .ry, .sl, .su, .tm, .up]
  | .dramTrainTimeout _ => [.block 0, .block 2, .clk, .mtb, .notes, .su]
  | .bootComplete _ _ => [.block 0, .block 11, .block 12, .block 14, .block 15, .block 16, .block 2, .block 20, .block 21, .block 22,
      .block 6, .block 7, .cmp, .flash, .freeIx, .ky, .mac, .mem, .ms, .mtb, .notes, .out, .pa, .pl, .queues, .rd, .resp, .ro, .ry, .sl,
      .su, .tm, .up]
  | .bootTimeout _ => [.block 0, .block 11, .block 12, .block 14, .block 15, .block 16, .block 2, .block 20, .block 21, .block 22,
      .block 6, .block 7, .cmp, .flash, .freeIx, .ky, .mac, .mem, .ms, .mtb, .notes, .out, .pa, .pl, .queues, .rd, .resp, .ro, .ry, .sl,
      .su, .tm, .up]
  | .prickingLoadDone _ _ => [.block 0, .block 1, .block 11, .block 12, .block 14, .block 15, .block 16, .block 17, .block 2, .block 20,
      .block 21, .block 22, .block 6, .block 7, .clk, .cmp, .flash, .freeIx, .gd, .ky, .mac, .mem, .ms, .mtb, .notes, .out, .pa, .pl,
      .pr, .queues, .rd, .resp, .ro, .ry, .sl, .su, .svc, .tm, .up]
  | .prickingLoadTimeout _ => [.block 0, .block 11, .block 12, .block 14, .block 15, .block 16, .block 2, .block 20, .block 21,
      .block 22, .block 6, .block 7, .cmp, .flash, .freeIx, .ky, .mac, .mem, .ms, .mtb, .notes, .out, .pa, .pl, .queues, .rd, .resp,
      .ro, .ry, .sl, .su, .svc, .tm, .up]
  | .benchCheckDone _ => [.block 0, .block 2, .mtb, .notes, .svc]
  | .readyWrite _ => [.block 2, .resp]
  | .readyTimeout _ => [.block 0, .block 11, .block 12, .block 14, .block 15, .block 16, .block 2, .block 20, .block 21, .block 6,
      .block 7, .cmp, .freeIx, .ky, .mac, .mem, .ms, .mtb, .notes, .out, .pa, .pl, .queues, .rd, .resp, .ro, .ry, .sl, .su, .tm]
  | .continueWrite _ => [.block 0, .block 11, .block 12, .block 14, .block 15, .block 16, .block 17, .block 18, .block 2, .block 20,
      .block 21, .block 22, .block 6, .block 7, .cmp, .flash, .freeIx, .gd, .ky, .mac, .mem, .ms, .mtb, .notes, .out, .pa, .pl, .queues,
      .rd, .resp, .ro, .ry, .sl, .su, .tm, .up]
  | .enterRunning _ => [.block 0, .block 11, .block 12, .block 14, .block 16, .block 17, .block 2, .block 21, .block 22, .block 7,
      .flash, .freeIx, .gd, .ky, .mac, .mem, .ms, .mtb, .notes, .out, .pa, .pl, .queues, .rd, .ro, .ry, .sl, .su, .tm, .up]
  | .warmResetWrite _ => [.block 0, .block 11, .block 12, .block 14, .block 15, .block 16, .block 20, .block 21, .block 6, .block 7,
      .cmp, .freeIx, .ky, .mac, .mem, .ms, .mtb, .notes, .out, .pa, .pl, .queues, .rd, .resp, .ro, .ry, .sl, .su, .tm]
  | .warmResetProceed _ => [.block 0, .block 1, .block 11, .block 12, .block 14, .block 15, .block 16, .block 18, .block 2, .block 20,
      .block 21, .block 22, .block 6, .block 7, .clk, .cmp, .flash, .freeIx, .gd, .ky, .mac, .mem, .ms, .mtb, .notes, .out, .pa, .pl,
      .pr, .queues, .rd, .regs, .resp, .ro, .ry, .sl, .su, .svc, .tie, .tm, .up, .upl0, .upl1]
  | .monitorWindowEnd _ _ _ => [.block 1, .block 2, .block 20, .block 21, .block 22, .clk, .cmp, .freeIx, .gd, .ky, .mac, .mem, .ms,
      .mtb, .notes, .out, .pa, .pl, .pr, .queues, .rd, .regs, .resp, .ro, .ry, .sl, .su, .svc, .tie, .tm, .up, .upl0, .upl1]
  | .hold1sMark _ => [.block 1, .block 11, .block 12, .block 14, .block 15, .block 16, .block 2, .block 20, .block 21, .block 6,
      .block 7, .cmp, .freeIx, .ky, .mac, .mem, .ms, .mtb, .notes, .out, .pa, .pl, .queues, .rd, .resp, .ro, .ry, .sl, .tm]
  | .hold30sMark _ => [.block 1, .block 11, .block 12, .block 15, .block 16, .block 2, .block 20, .block 21, .block 22, .block 7, .clk,
      .cmp, .freeIx, .gd, .ky, .mac, .mem, .ms, .mtb, .notes, .out, .pa, .pl, .pr, .queues, .rd, .regs, .resp, .ro, .ry, .sl, .su, .svc,
      .tie, .tm, .up, .upl0, .upl1]
  | .rootPllUnlock _ => [.block 1, .block 11, .block 12, .block 15, .block 16, .block 2, .block 20, .block 21, .block 22, .block 7,
      .clk, .cmp, .freeIx, .gd, .ky, .mac, .mem, .ms, .mtb, .notes, .out, .pa, .pl, .pr, .queues, .rd, .regs, .resp, .ro, .ry, .sl, .su,
      .svc, .tie, .tm, .up, .upl0, .upl1]
  | .clkSrcForceWrite _ _ => [.block 1, .block 2, .block 20, .block 21, .block 22, .clk, .cmp, .freeIx, .gd, .ky, .mac, .mem, .ms, .mtb,
      .notes, .out, .pa, .pl, .pr, .queues, .rd, .regs, .resp, .ro, .ry, .sl, .su, .svc, .tie, .tm, .up, .upl0, .upl1]
  | .hoopIdle _ _ => [.block 1, .clk, .mtb, .notes]
  | .hoopRampStep _ => [.block 1, .clk, .notes]
  | .clkRestartGo _ _ => [.block 1, .clk, .resp]
  | .restartDividerSwitch _ => [.block 1, .clk]
  | .restartFirstEdge _ => [.clk, .ms]
  | .gateRequest _ => [.block 1, .resp]
  | .gateClose _ => [.block 1, .notes]
  | .ungate _ => [.block 1, .block 16, .ms, .resp]
  | .esmcPduRx _ _ _ _ => [.block 1, .block 2, .block 20, .block 21, .block 22, .block 6, .clk, .cmp, .freeIx, .gd, .ky, .mac, .mem,
      .ms, .mtb, .notes, .out, .pa, .pl, .pr, .queues, .rd, .regs, .resp, .ro, .ry, .sl, .su, .svc, .tie, .tm, .up, .upl0, .upl1]
  | .esmcTimeout _ _ => [.block 1, .block 2, .block 20, .block 21, .block 22, .block 6, .clk, .cmp, .freeIx, .gd, .ky, .mac, .mem, .ms,
      .mtb, .notes, .out, .pa, .pl, .pr, .queues, .rd, .regs, .resp, .ro, .ry, .sl, .su, .svc, .tie, .tm, .up, .upl0, .upl1]
  | .esmcSend => [.out]
  | .uplSignalDetect _ _ => [.block 3]
  | .uplAcquisitionDone _ => [.block 3, .out]
  | .uplNextPageRx _ => [.out]
  | .uplAnComplete _ _ => [.block 3]
  | .uplTrainingDone _ => [.block 3]
  | .uplBlockLock _ _ => [.block 1, .block 11, .block 12, .block 14, .block 15, .block 16, .block 2, .block 20, .block 21, .block 22,
      .block 3, .block 5, .block 6, .block 7, .clk, .cmp, .freeIx, .ky, .mac, .mem, .ms, .mtb, .notes, .out, .pa, .pl, .queues, .rd,
      .resp, .ro, .ry, .sl, .tie, .tm, .up, .upl0, .upl1]
  | .uplTrainTimeout _ => [.block 3, .notes, .out]
  | .uplLinkLost _ _ => [.block 1, .block 11, .block 12, .block 14, .block 15, .block 16, .block 2, .block 20, .block 21, .block 22,
      .block 3, .block 5, .block 6, .block 7, .clk, .cmp, .freeIx, .gd, .ky, .mac, .mem, .ms, .mtb, .notes, .out, .pa, .pl, .pr,
      .queues, .rd, .regs, .resp, .ro, .ry, .sl, .su, .svc, .tie, .tm, .up, .upl0, .upl1]
  | .uplAdminWrite _ _ => [.block 1, .block 11, .block 12, .block 14, .block 15, .block 16, .block 20, .block 21, .block 3, .block 6,
      .block 7, .clk, .cmp, .freeIx, .ky, .mac, .mem, .ms, .mtb, .notes, .out, .pa, .pl, .queues, .rd, .resp, .ro, .ry, .sl, .tm]
  | .uplRetrain _ => [.block 1, .block 11, .block 12, .block 14, .block 15, .block 16, .block 2, .block 20, .block 21, .block 22,
      .block 3, .block 5, .block 6, .block 7, .clk, .cmp, .freeIx, .gd, .ky, .mac, .mem, .ms, .mtb, .notes, .out, .pa, .pl, .pr,
      .queues, .rd, .regs, .resp, .ro, .ry, .sl, .su, .svc, .tie, .tm, .up, .upl0, .upl1]
  | .pauseFrameRx _ _ _ => [.block 3, .mtb, .notes, .upl0, .upl1]
  | .pfcFrameRx _ _ _ => [.block 3, .mtb, .notes, .upl0, .upl1]
  | .pauseQuantaEnd _ _ _ => [.mtb, .upl0, .upl1]
  | .fcFrameSend _ _ => [.mtb, .out, .upl0, .upl1]
  | .fcFrameRepeat _ _ => [.mtb, .out, .upl0, .upl1]
  | .uplFrameRx _ _ _ _ => [.block 15, .block 16, .freeIx, .mem, .ms, .notes, .queues, .resp, .ry]
  | .tieAcquisitionDone _ => [.block 1, .block 11, .block 12, .block 14, .block 15, .block 16, .block 2, .block 20, .block 21,
      .block 22, .block 3, .block 5, .block 6, .block 7, .clk, .cmp, .freeIx, .ky, .mac, .mem, .ms, .mtb, .notes, .out, .pa, .pl,
      .queues, .rd, .resp, .ro, .ry, .sl, .tie, .tm, .up]
  | .tieTrainBlockRx _ _ _ _ _ _ _ _ _ _ _ => [.out, .tie]
  | .tieEqualiserDone _ => [.block 5, .mtb, .out, .tie]
  | .tieRoleBlockRx _ => [.out, .tie]
  | .tieRoleExchangeDone _ => [.block 1, .block 18, .block 2, .block 20, .block 21, .block 22, .block 5, .clk, .cmp, .freeIx, .gd, .ky,
      .mac, .mem, .ms, .mtb, .notes, .out, .pa, .pl, .pr, .queues, .rd, .regs, .resp, .ro, .ry, .sl, .su, .svc, .tie, .tm, .up, .upl0,
      .upl1]
  | .tiePhaseTimeout _ => [.block 11, .block 12, .block 14, .block 15, .block 16, .block 20, .block 21, .block 22, .block 5, .block 6,
      .block 7, .cmp, .freeIx, .ky, .mac, .mem, .ms, .mtb, .notes, .out, .pa, .pl, .queues, .rd, .resp, .ro, .ry, .sl, .tie, .tm, .up]
  | .tieRetrain => [.block 11, .block 12, .block 14, .block 15, .block 16, .block 20, .block 21, .block 22, .block 5, .block 6,
      .block 7, .cmp, .freeIx, .ky, .mac, .mem, .ms, .mtb, .notes, .out, .pa, .pl, .queues, .rd, .resp, .ro, .ry, .sl, .tie, .tm, .up]
  | .tieEnableWrite _ => [.block 1, .block 11, .block 12, .block 14, .block 15, .block 16, .block 2, .block 20, .block 21, .block 22,
      .block 3, .block 5, .block 6, .block 7, .clk, .cmp, .freeIx, .gd, .ky, .mac, .mem, .ms, .mtb, .notes, .out, .pa, .pl, .pr,
      .queues, .rd, .regs, .resp, .ro, .ry, .sl, .su, .svc, .tie, .tm, .up, .upl0, .upl1]
  | .svcReadRegister _ _ _ _ => [.block 23, .mtb, .out, .resp]
  | .svcWriteRegister _ _ _ _ _ => [.block 0, .block 1, .block 11, .block 12, .block 13, .block 14, .block 15, .block 16, .block 17,
      .block 18, .block 19, .block 2, .block 20, .block 21, .block 22, .block 23, .block 3, .block 5, .block 6, .block 7, .clk, .cmp,
      .flash, .freeIx, .gd, .ky, .mac, .mem, .ms, .mtb, .notes, .out, .pa, .pl, .pr, .queues, .rd, .regs, .resp, .ro, .ry, .sl, .su,
      .svc, .tie, .tm, .up, .upl0, .upl1]
  | .svcLastStatus _ _ _ => [.block 23, .mtb, .out, .resp]
  | .svcBenchChunk _ _ _ _ _ => [.block 23, .mtb, .out, .resp, .svc]
  | .svcBenchCommit _ _ _ _ => [.block 23, .mtb, .out, .resp, .svc]
  | .svcTunnelIn _ _ _ _ => [.block 23, .mtb, .out, .resp, .svc]
  | .svcTunnelOut _ _ _ => [.block 23, .freeIx, .mtb, .out, .resp, .svc]
  | .sclkStopMidMessage _ => [.block 15, .freeIx, .ms, .mtb, .notes, .queues]
  | .cmpRegRead _ _ _ _ _ _ _ => [.block 0, .block 1, .block 11, .block 12, .block 13, .block 14, .block 15, .block 16, .block 17,
      .block 18, .block 20, .block 21, .block 22, .block 23, .block 3, .block 6, .block 7, .cmp, .freeIx, .ms, .mtb, .notes, .out,
      .resp, .ro, .svc]
  | .cmpRegWrite _ _ _ _ _ _ _ => [.block 0, .block 1, .block 11, .block 12, .block 13, .block 14, .block 15, .block 16, .block 17,
      .block 18, .block 19, .block 2, .block 20, .block 21, .block 22, .block 23, .block 3, .block 5, .block 6, .block 7, .clk, .cmp,
      .flash, .freeIx, .gd, .ky, .mac, .mem, .ms, .mtb, .notes, .out, .pa, .pl, .pr, .queues, .rd, .regs, .resp, .ro, .ry, .sl, .su,
      .svc, .tie, .tm, .up, .upl0, .upl1]
  | .cmpServiceCall _ _ _ _ _ _ _ _ => [.block 20, .block 23, .cmp, .freeIx, .ky, .mtb, .notes, .out, .resp, .ro, .svc]
  | .cmpResultGet _ _ _ _ _ _ => [.block 23, .cmp, .mtb, .notes, .out, .resp, .ro, .svc]
  | .cmpResultDelete _ _ _ _ _ _ => [.block 23, .cmp, .mtb, .notes, .out, .resp, .ro, .svc]
  | .cmpEventObserve _ _ _ _ _ => [.block 23, .cmp, .mtb, .notes, .out, .resp, .ro, .svc]
  | .cmpEventNotify _ _ => [.block 23, .mtb, .notes, .out, .ro, .svc]
  | .sessionHello _ _ _ _ _ _ => [.block 18, .block 20, .block 23, .cmp, .freeIx, .mtb, .notes, .out, .resp, .ro, .svc]
  | .sessionFinish _ _ _ _ _ _ _ => [.block 20, .block 23, .cmp, .freeIx, .ky, .mtb, .notes, .out, .resp, .ro, .svc]
  | .sessionDelete _ _ _ _ _ => [.block 20, .block 23, .cmp, .freeIx, .ky, .mtb, .notes, .out, .resp, .ro, .svc]
  | .sessionIdleExpiry _ _ => [.block 20, .cmp, .freeIx, .ky, .mtb, .notes, .ro]
  | .handshakeTimeout _ => [.block 20, .freeIx, .mtb, .notes, .resp, .ro]
  | .ptpAnnounceRx _ _ _ _ _ _ => [.block 6, .mtb, .notes, .tm]
  | .ptpSyncRx _ _ _ _ _ _ => [.block 6, .freeIx, .mtb, .notes, .tm]
  | .ptpFollowUpRx _ _ _ _ => [.block 6, .freeIx, .notes, .tm]
  | .ptpDelayRespRx _ _ _ _ _ => [.block 6, .freeIx, .notes, .tm]
  | .ptpPdelayReqRx _ _ _ _ => [.mtb, .out]
  | .ptpPdelayRespRx _ _ _ _ _ => [.block 6, .freeIx, .mtb, .notes, .tm]
  | .ptpDelayReqSend _ _ => [.mtb, .out, .tm]
  | .ptpManagementRx _ => [.tm]
  | .announceReceiptTimeout _ => [.block 6, .notes, .tm]
  | .freezeTimeout _ _ => [.block 6, .freeIx, .mtb, .notes, .tm]
  | .timeStep => [.block 6, .freeIx, .mtb, .notes, .tm]
  | .lockWaitExpiry _ => [.mtb, .tm]
  | .timeAccept => [.block 6, .resp, .tm]
  | .timeSnap _ => [.block 6, .mtb, .resp]
  | .timeSelDomWrite _ => [.block 6, .notes, .resp, .tm]
  | .tieTimeSend _ => [.mtb, .out, .pa]
  | .tieTimeRx _ _ => [.block 21, .block 6, .freeIx, .mtb, .notes, .pa, .tm]
  | .peerTimeExpiry _ => [.block 6, .mtb, .notes, .tm]
  | .trxSetTarget _ _ _ => [.block 1, .block 11, .block 12, .block 15, .block 16, .block 21, .block 7, .freeIx, .ky, .mac, .mem, .ms,
      .mtb, .notes, .out, .pa, .pl, .queues, .rd, .resp]
  | .trxCalibrate _ _ _ => [.block 1, .block 11, .block 12, .block 15, .block 16, .block 21, .block 7, .freeIx, .ky, .mac, .mem, .ms,
      .mtb, .notes, .out, .pa, .pl, .queues, .rd, .resp]
  | .trxStepEnd _ => [.block 1, .block 11, .block 12, .block 15, .block 16, .block 21, .block 7, .freeIx, .ky, .mac, .mem, .ms, .mtb,
      .notes, .out, .pa, .pl, .queues, .rd]
  | .calEnd _ _ => [.block 0, .block 11, .block 12, .block 15, .block 16, .block 2, .block 21, .block 7, .freeIx, .ky, .mac, .mem, .ms,
      .mtb, .notes, .out, .pa, .pl, .queues, .rd, .su]
  | .synUnlock _ _ _ => [.block 11, .block 12, .block 16, .block 21, .block 7, .ky, .mac, .mem, .ms, .mtb, .notes, .out, .pa, .pl,
      .queues, .rd]
  | .bgCalCycleStart _ _ => [.block 7, .mtb, .rd]
  | .bgCalStep _ _ _ => [.block 7, .mtb, .notes, .rd]
  | .tempDrift _ _ => [.block 7, .notes]
  | .coexRequestRise _ => [.mtb, .out, .rd]
  | .coexGrantFall _ _ => [.block 7, .mtb, .notes, .rd]
  | .rxWindowOpen _ => [.block 11, .mtb, .rd]
  | .rxWindowClose _ => [.block 11, .mtb, .rd]
  | .laneBindingApply _ => [.block 11, .block 12, .notes, .rd]
  | .preambleDetect _ _ => [.block 11, .mtb]
  | .preambleLost _ _ => [.block 11, .mtb]
  | .syncPoint _ _ _ _ _ _ _ _ => [.block 11, .block 12, .block 14, .freeIx, .mac, .mem, .mtb, .notes, .pl, .rd]
  | .headerDecoded _ _ _ _ _ _ => [.block 11, .block 12, .block 15, .block 16, .block 21, .freeIx, .ky, .mac, .mem, .ms, .mtb, .notes,
      .out, .pa, .pl, .queues, .rd]
  | .shadowSyncPoint _ _ _ _ _ _ _ _ _ _ => [.block 11, .block 12, .block 14, .block 16, .block 21, .freeIx, .ky, .mac, .mem, .ms, .mtb,
      .notes, .out, .pa, .pl, .queues, .rd]
  | .lastSymbol _ _ _ => [.block 11, .block 12, .block 16, .block 21, .ky, .mac, .mem, .ms, .mtb, .out, .pa, .pl, .queues, .rd]
  | .fcsVerdict _ _ => [.block 11, .block 12, .block 13, .block 14, .block 15, .block 16, .block 17, .block 18, .block 21, .freeIx, .gd,
      .ky, .mac, .mem, .ms, .mtb, .notes, .out, .pa, .pl, .queues, .rd, .resp, .sl, .tm]
  | .gainWindowEnd _ _ _ => [.block 7, .mtb, .rd]
  | .adcClip _ _ _ => [.block 7, .mem, .mtb, .rd]
  | .idlePowerWindowEnd _ _ _ => [.block 11, .rd]
  | .laneChanWrite _ _ => [.block 11, .block 12, .notes, .rd, .resp]
  | .laneCountClear _ => [.block 11, .resp]
  | .sourceAddressComplete _ _ _ => [.block 12, .block 15, .block 21, .freeIx, .mac, .mem, .ms, .notes, .out, .pa, .queues, .rd]
  | .addressLookupDone _ => [.block 12, .block 13, .block 14, .block 15, .block 16, .block 17, .block 18, .block 21, .freeIx, .gd, .ky,
      .mac, .mem, .ms, .notes, .out, .pa, .pl, .queues, .rd, .resp, .sl]
  | .nodeRecordReadDone _ => [.block 12, .block 13, .block 14, .block 15, .block 16, .block 17, .block 18, .block 21, .freeIx, .gd, .ky,
      .mac, .mem, .ms, .notes, .out, .pa, .pl, .queues, .rd, .resp, .sl]
  | .keyUnwrapDone _ => [.block 12, .block 13, .block 14, .block 15, .block 16, .block 17, .block 18, .block 21, .freeIx, .gd, .ky,
      .mac, .mem, .ms, .notes, .out, .pa, .pl, .queues, .rd, .resp, .sl]
  | .ccmContextFree => [.block 12, .block 13, .block 14, .block 15, .block 16, .block 17, .block 18, .block 21, .freeIx, .gd, .ky, .mac,
      .mem, .ms, .notes, .out, .pa, .pl, .queues, .rd, .resp, .sl]
  | .ccmVerdict _ _ => [.block 12, .block 13, .block 14, .block 15, .block 16, .block 17, .block 18, .block 21, .freeIx, .gd, .ky, .mac,
      .mem, .ms, .notes, .out, .pa, .pl, .queues, .rd, .resp, .sl]
  | .dupCacheExpiry _ => [.mac, .mtb]
  | .shadowEntryRelease _ => [.mac]
  | .lptSweepStep => [.block 17, .gd, .mtb]
  | .txCmdData _ _ => [.block 1, .block 15, .block 7, .freeIx, .ms, .mtb, .notes, .out, .queues, .rd, .resp]
  | .txCmdBraidOpen _ _ => [.block 1, .block 15, .block 7, .freeIx, .ms, .mtb, .notes, .out, .queues, .rd, .resp]
  | .txCmdBraidAppend _ _ => [.block 1, .block 15, .block 7, .freeIx, .ms, .mtb, .notes, .out, .queues, .rd, .resp]
  | .txCmdEnhancedBeacon _ _ => [.block 1, .block 15, .block 7, .freeIx, .ms, .mtb, .notes, .out, .queues, .rd, .resp]
  | .txCmdWakeKeying _ _ => [.block 1, .block 15, .block 7, .freeIx, .ms, .mtb, .notes, .out, .queues, .rd, .resp]
  | .txLateDrop _ _ => [.block 15, .block 7, .freeIx, .ms, .mtb, .notes, .out, .queues, .rd]
  | .txLaunch _ => [.block 11, .block 12, .block 15, .block 16, .block 21, .block 7, .freeIx, .ky, .mac, .mem, .ms, .mtb, .notes, .out,
      .pa, .pl, .queues, .rd]
  | .txCommit _ _ => [.block 11, .block 12, .block 15, .block 16, .block 21, .block 7, .freeIx, .ky, .mac, .mem, .ms, .mtb, .notes,
      .out, .pa, .pl, .queues, .rd]
  | .txEnd _ => [.block 11, .block 12, .block 15, .block 16, .block 21, .block 7, .freeIx, .ky, .mac, .mem, .ms, .mtb, .notes, .out,
      .pa, .pl, .queues, .rd]
  | .outputStopTime _ => [.block 11, .block 12, .block 14, .block 15, .block 16, .block 20, .block 21, .block 6, .block 7, .cmp,
      .freeIx, .ky, .mac, .mem, .ms, .mtb, .notes, .out, .pa, .pl, .queues, .rd, .resp, .ro, .ry, .sl, .tm]
  | .slotStart _ => [.block 11, .block 12, .block 13, .block 15, .block 18, .block 21, .freeIx, .mac, .mem, .ms, .mtb, .notes, .out,
      .pa, .queues, .rd, .sl, .tm]
  | .lanePlanComplete => [.block 12, .freeIx, .mac, .notes]
  | .txRequest _ => [.block 12, .block 13, .block 15, .block 18, .block 21, .freeIx, .mac, .mem, .ms, .mtb, .notes, .out, .pa, .queues,
      .sl, .tm]
  | .tschTxCell _ _ => [.block 12, .block 13, .block 15, .block 18, .block 21, .freeIx, .mac, .mem, .ms, .mtb, .notes, .out, .pa,
      .queues, .sl, .tm]
  | .carrierSenseEnd _ _ _ => [.block 12, .block 13, .block 15, .block 18, .block 21, .freeIx, .mac, .mem, .ms, .mtb, .notes, .out, .pa,
      .queues, .sl, .tm]
  | .csmaBackoffEnd _ => [.mac, .mtb]
  | .ackWaitTimeout _ _ => [.block 12, .block 13, .block 15, .block 18, .block 21, .freeIx, .mac, .mem, .ms, .mtb, .notes, .out, .pa,
      .queues, .sl, .tm]
  | .frameDeadlineExpiry _ _ => [.block 12, .block 13, .block 15, .block 18, .block 21, .freeIx, .mac, .mem, .ms, .mtb, .notes, .out,
      .pa, .queues, .sl, .tm]
  | .shuttleCompletionRx _ => [.block 12, .block 13, .block 15, .block 18, .block 21, .freeIx, .mac, .mem, .ms, .mtb, .notes, .out, .pa,
      .queues, .sl, .tm]
  | .ebDue _ _ _ => [.mac, .mtb]
  | .dutyBucketRoll _ _ => [.block 12, .block 13, .block 15, .block 18, .block 21, .freeIx, .mac, .mem, .ms, .mtb, .notes, .out, .pa,
      .queues, .sl, .tm]
  | .offTimeEnd _ => [.block 12, .block 13, .block 15, .block 18, .block 21, .freeIx, .mac, .mem, .ms, .mtb, .notes, .out, .pa, .queues,
      .sl, .tm]
  | .braidCut _ => [.block 12, .block 13, .block 15, .block 18, .block 21, .freeIx, .mac, .mem, .ms, .mtb, .notes, .out, .pa, .queues,
      .sl, .tm]
  | .macPanEnableWrite _ => [.block 12, .block 15, .freeIx, .mac, .ms, .notes, .queues, .resp]
  | .macCountClear => [.block 12, .resp]
  | .macSlotframeEnable _ _ => [.block 12, .resp]
  | .sleepStart _ => [.block 12, .block 13, .block 15, .block 21, .freeIx, .mac, .mem, .ms, .notes, .out, .pa, .queues, .resp, .sl]
  | .sleepStop _ => [.block 12, .block 13, .block 15, .block 21, .freeIx, .mac, .mem, .ms, .notes, .out, .pa, .queues, .resp, .sl]
  | .sleepResync _ => [.block 12, .block 13, .block 15, .block 21, .freeIx, .mac, .mem, .ms, .notes, .out, .pa, .queues, .resp, .sl]
  | .sleepResetDrift _ => [.block 12, .block 13, .block 15, .block 21, .freeIx, .mac, .mem, .ms, .notes, .out, .pa, .queues, .resp, .sl]
  | .sleepCall _ => [.block 12, .block 13, .block 15, .block 21, .freeIx, .mac, .mem, .ms, .notes, .out, .pa, .queues, .resp, .sl]
  | .sleepLinkAdd _ => [.block 13, .notes, .resp, .sl]
  | .sleepLinkRemove _ => [.block 13, .notes, .resp, .sl]
  | .t3Expiry _ => [.block 12, .block 13, .block 15, .block 18, .block 21, .freeIx, .mac, .mem, .ms, .mtb, .notes, .out, .pa, .queues,
      .sl, .tm]
  | .wakeWaitExpiry _ => [.block 12, .block 13, .block 15, .block 18, .block 21, .freeIx, .mac, .mem, .ms, .mtb, .notes, .out, .pa,
      .queues, .sl, .tm]
  | .sleepCountClear => [.block 13, .resp]
  | .sleepRebuildStep => [.block 12, .block 13, .block 15, .block 21, .freeIx, .mac, .mem, .ms, .notes, .out, .pa, .queues, .sl]
  | .t3CacheRefill => [.sl]
  | .tkNew _ _ => [.block 14, .freeIx, .notes, .out, .pl, .resp]
  | .tkFill _ _ _ _ _ => [.block 14, .block 16, .block 21, .freeIx, .ky, .mac, .mem, .ms, .notes, .out, .pa, .pl, .queues, .resp]
  | .tkPut _ _ _ _ => [.block 14, .out, .pl, .queues, .resp]
  | .tkTimer _ _ _ _ _ => [.block 14, .freeIx, .notes, .out, .pl, .resp]
  | .tkCancel _ _ => [.block 14, .mem, .notes, .out, .pl, .resp]
  | .tkDrop _ _ => [.block 16, .block 21, .ky, .mac, .mem, .ms, .out, .pa, .pl, .queues, .resp]
  | .tkEnd _ => [.block 16, .block 21, .ky, .mac, .mem, .ms, .out, .pa, .pl, .queues]
  | .taskPlace _ _ => [.block 1, .block 14, .clk, .mtb, .notes, .out, .pl]
  | .taskException _ _ _ _ _ => [.block 14, .block 16, .block 21, .ky, .mac, .mem, .ms, .notes, .out, .pa, .pl, .queues]
  | .taskRunLimit _ _ _ => [.block 14, .block 16, .block 21, .ky, .mac, .mem, .ms, .mtb, .notes, .out, .pa, .pl, .queues]
  | .initRunRestart _ _ => [.mtb, .out, .pl]
  | .delayListExpiry _ => [.block 14, .mem, .mtb, .notes, .pl]
  | .releasePortTake => [.block 15, .freeIx, .ms, .mtb, .notes, .out, .pl, .queues, .resp]
  | .taskQueueEntry _ => [.block 14, .block 15, .freeIx, .mem, .mtb, .notes, .pl, .queues]
  | .pillowCountClear => [.block 14, .resp]
  | .pillowTemplateWrite _ _ => [.block 14, .resp]
  | .enqueue _ _ _ _ _ _ _ => [.block 15, .freeIx, .ms, .notes, .queues, .resp]
  | .dequeue _ => [.block 15, .freeIx, .ms, .mtb, .notes, .out, .queues, .resp]
  | .creditReturn _ _ => [.block 12, .block 13, .block 15, .block 18, .block 21, .freeIx, .mac, .mem, .ms, .mtb, .notes, .out, .pa,
      .queues, .rd, .sl, .tm]
  | .queueReadbackDone _ => [.queues]
  | .queueDropRemainder _ => [.block 15, .ms, .notes, .queues, .resp]
  | .queueClearCount _ => [.block 15, .resp]
  | .queueWmWrite _ _ => [.block 15, .notes, .queues, .resp]
  | .dramRequest _ _ _ _ _ _ _ => [.block 14, .block 16, .block 21, .freeIx, .ky, .mac, .mem, .ms, .notes, .out, .pa, .pl, .queues]
  | .dramReadDone _ => [.mem, .ms, .mtb, .out]
  | .dramWriteDone _ => [.block 21, .mem, .ms, .mtb, .out, .pa]
  | .dramRefreshSlot _ _ => [.ms, .out]
  | .dramScheduleSwitch => [.block 16, .mem, .ms, .mtb]
  | .memBufTake => [.freeIx, .ms, .out]
  | .memBufReturn _ => [.block 16, .ms, .resp]
  | .nandRead _ => [.block 1, .block 16, .ms, .resp]
  | .nandProgram _ => [.block 1, .block 16, .ms, .resp]
  | .nandErase _ => [.block 1, .block 16, .ms, .resp]
  | .nandOperationDone _ => [.block 11, .block 12, .block 14, .block 15, .block 16, .block 18, .block 20, .block 21, .block 6, .block 7,
      .cmp, .flash, .freeIx, .ky, .mac, .mem, .ms, .mtb, .notes, .out, .pa, .pl, .queues, .rd, .resp, .ro, .ry, .sl, .su, .tm]
  | .memCountClear => [.block 16, .ms, .resp]
  | .groundCmdWrite _ _ _ => [.block 17, .gd, .notes, .resp]
  | .groundLookup => [.block 14, .block 17, .gd, .mem, .notes, .pl]
  | .groundInsert => [.block 14, .block 17, .block 21, .gd, .mem, .notes, .out, .pa, .pl]
  | .groundDelete => [.block 14, .block 17, .block 21, .gd, .mem, .notes, .out, .pa, .pl]
  | .groundFetch => [.block 14, .block 17, .gd, .mem, .notes, .pl]
  | .groundRoute => [.block 14, .block 17, .gd, .mem, .notes, .pl]
  | .groundWrite => [.block 14, .block 17, .block 21, .gd, .mem, .notes, .out, .pa, .pl]
  | .groundLptRead => [.block 14, .block 17, .gd, .mem, .notes, .pl]
  | .groundLptForget => [.block 14, .block 17, .gd, .mem, .notes, .pl]
  | .groundRehash => [.block 14, .block 17, .gd, .mem, .notes, .pl]
  | .rehashWalkEnd => [.block 14, .block 17, .gd, .mem, .notes, .pl]
  | .groundSwap => [.block 14, .block 17, .gd, .mem, .notes, .pl]
  | .groundBadOp => [.block 14, .block 17, .gd, .mem, .notes, .pl]
  | .hashZeroingDone => [.block 14, .block 17, .block 21, .gd, .mem, .notes, .out, .pa, .pl]
  | .routerAdvertisementRx _ _ _ _ _ => [.mtb, .ry]
  | .prefixDelegationChange _ _ => [.freeIx, .mtb, .notes, .ry]
  | .defaultRouterExpiry _ _ => [.mtb, .ry]
  | .preferredPortReturn _ => [.mtb, .ry]
  | .downstreamPacket _ _ _ _ _ _ _ => [.block 21, .mem, .mtb, .out, .pa, .ry]
  | .upstreamFragmentRx _ _ _ _ _ _ => [.mtb, .out, .ry]
  | .reassemblyExpiry _ => [.mtb, .ry]
  | .addressRegistrationRx _ _ _ _ _ => [.block 14, .block 17, .block 21, .gd, .mem, .mtb, .notes, .out, .pa, .pl]
  | .edarRx _ _ _ _ _ => [.block 14, .block 17, .block 21, .gd, .mem, .mtb, .notes, .out, .pa, .pl]
  | .registrationExpiry _ _ => [.block 21, .gd, .mem, .mtb, .out, .pa]
  | .dioTrickleExpiry _ _ _ => [.freeIx, .mtb, .out, .ry]
  | .daoRx _ _ _ _ _ _ _ => [.block 21, .freeIx, .mem, .mtb, .out, .pa]
  | .pathLifetimeExpiry _ _ => [.block 21, .mem, .mtb, .out, .pa]
  | .scDemandRx _ _ _ => [.block 21, .freeIx, .mem, .mtb, .notes, .out, .pa, .ry]
  | .scAssignmentAck _ _ => [.block 21, .freeIx, .mem, .mtb, .notes, .out, .pa, .ry]
  | .sixpRequestRx _ _ _ _ => [.mtb, .out, .ry]
  | .sixpTimeout _ => [.mtb, .ry]
  | .joinRequestRx _ _ _ _ _ _ _ => [.block 13, .block 14, .block 15, .block 17, .block 18, .block 21, .freeIx, .gd, .mac, .mem, .ms,
      .mtb, .notes, .out, .pa, .pl, .queues, .resp, .ry, .sl]
  | .rekeyAckRx _ _ _ => [.block 12, .cmp, .mtb, .notes, .resp, .ry]
  | .rekeyDeadline _ _ => [.block 12, .cmp, .mtb, .notes, .resp, .ry]
  | .campaignInterval _ _ _ => [.mtb, .out, .ry]
  | .reportWindowEnd _ _ _ => [.mtb, .out, .ry]
  | .missingBlocksRx _ _ _ _ => [.mtb, .out, .ry]
  | .fwBlockGet _ _ _ _ => [.out]
  | .completionReportRx _ _ _ _ => [.block 21, .mem, .mtb, .out, .pa, .ry]
  | .campaignEndExpiry _ _ => [.mtb, .notes, .ry]
  | .netGet _ => [.cmp, .resp]
  | .netSet _ _ _ _ => [.block 20, .block 21, .cmp, .freeIx, .notes, .out, .pa, .resp, .ro, .ry]
  | .panGet _ _ => [.cmp, .resp]
  | .panSet _ _ _ => [.block 20, .block 21, .cmp, .freeIx, .notes, .out, .pa, .resp, .ro, .ry]
  | .panRepair _ _ => [.block 20, .cmp, .freeIx, .notes, .resp, .ro, .ry]
  | .nodeGet _ _ _ => [.cmp, .resp]
  | .nodeRemove _ _ => [.block 13, .block 15, .block 20, .block 21, .cmp, .freeIx, .gd, .mac, .mem, .ms, .notes, .out, .pa, .queues,
      .resp, .ro, .ry, .sl]
  | .nodeList _ _ _ _ => [.cmp, .resp]
  | .nodeRoute _ _ => [.cmp, .resp]
  | .nodeSetClass _ _ _ => [.block 20, .block 21, .cmp, .freeIx, .mem, .notes, .out, .pa, .resp, .ro]
  | .schedGet _ _ => [.cmp, .resp]
  | .schedSet _ _ _ _ => [.block 12, .block 20, .block 21, .cmp, .freeIx, .mem, .notes, .out, .pa, .resp, .ro, .ry]
  | .schedStats _ => [.cmp, .resp]
  | .joinSet _ _ _ _ => [.block 20, .block 21, .cmp, .freeIx, .notes, .out, .pa, .resp, .ro, .ry]
  | .joinEnrol _ _ _ => [.block 20, .block 21, .cmp, .freeIx, .notes, .out, .pa, .resp, .ro, .ry]
  | .joinRevoke _ _ => [.block 20, .block 21, .cmp, .freeIx, .notes, .out, .pa, .resp, .ro, .ry]
  | .joinStats _ => [.cmp, .resp]
  | .joinGroupRekey _ _ _ _ _ => [.block 12, .block 20, .cmp, .freeIx, .mtb, .notes, .out, .resp, .ro, .ry]
  | .imageBegin _ _ _ _ _ _ => [.block 20, .cmp, .flash, .freeIx, .ms, .notes, .resp, .ro, .ry]
  | .imageWrite _ _ _ _ => [.block 20, .cmp, .flash, .freeIx, .notes, .resp, .ro]
  | .imageCommit _ _ => [.block 20, .cmp, .freeIx, .notes, .resp, .ro, .ry]
  | .imageDelete _ _ => [.block 20, .cmp, .freeIx, .notes, .resp, .ro, .ry]
  | .imageList _ => [.cmp, .resp]
  | .campaignStart _ _ _ _ _ => [.block 20, .cmp, .freeIx, .mtb, .notes, .resp, .ro, .ry]
  | .campaignStatus _ _ => [.cmp, .resp]
  | .campaignStop _ _ => [.block 20, .cmp, .freeIx, .notes, .resp, .ro, .ry]
  | .zoneReportRx _ _ _ _ _ => [.block 21, .mem, .mtb, .out, .pa, .ry]
  | .zoneHoldExpiry _ _ => [.block 21, .mem, .mtb, .out, .pa]
  | .zoneVacancyExpiry _ _ => [.block 21, .mem, .mtb, .out, .pa]
  | .zoneOverrideExpiry _ _ => [.block 21, .freeIx, .mem, .mtb, .out, .pa]
  | .zonePiStep _ _ => [.block 21, .mem, .mtb, .notes, .out, .pa]
  | .zoneBroadcastOpportunity _ _ _ _ => [.block 21, .mem, .mtb, .notes, .out, .pa, .ry]
  | .zoneGet _ _ => [.cmp, .resp]
  | .zoneSet _ _ _ _ => [.block 20, .block 21, .cmp, .freeIx, .mem, .mtb, .notes, .out, .pa, .resp, .ro]
  | .zoneAddMembers _ _ _ => [.block 20, .block 21, .cmp, .freeIx, .mem, .notes, .out, .pa, .resp, .ro]
  | .zoneRemoveMembers _ _ _ => [.block 20, .block 21, .cmp, .freeIx, .mem, .notes, .out, .pa, .resp, .ro]
  | .zoneOverride _ _ _ _ _ => [.block 20, .block 21, .cmp, .freeIx, .mem, .mtb, .notes, .out, .pa, .resp, .ro]
  | .zoneRelease _ _ _ => [.block 20, .block 21, .cmp, .freeIx, .mem, .mtb, .notes, .out, .pa, .resp, .ro]
  | .zoneStats _ _ => [.cmp, .resp]
  | .zoneDelete _ _ => [.block 20, .block 21, .cmp, .freeIx, .mem, .notes, .out, .pa, .resp, .ro]
  | .keyCmdWrite _ => [.block 1, .block 18, .block 20, .freeIx, .ky, .notes, .resp, .ro]
  | .keyGenerate => [.block 14, .block 16, .block 18, .block 20, .block 21, .cmp, .freeIx, .ky, .mem, .ms, .notes, .out, .pa, .pl,
      .resp, .ro]
  | .keyDerive => [.block 14, .block 16, .block 18, .block 20, .block 21, .cmp, .freeIx, .ky, .mem, .ms, .notes, .out, .pa, .pl, .resp,
      .ro]
  | .keyImport => [.block 14, .block 16, .block 18, .block 20, .block 21, .cmp, .freeIx, .ky, .mem, .ms, .notes, .out, .pa, .pl, .resp,
      .ro]
  | .keyExport => [.block 14, .block 18, .block 20, .cmp, .freeIx, .ky, .mem, .notes, .pl, .resp, .ro]
  | .keyRestrict => [.block 14, .block 16, .block 18, .block 20, .block 21, .cmp, .freeIx, .ky, .mem, .ms, .notes, .out, .pa, .pl,
      .resp, .ro]
  | .keyDestroy => [.block 14, .block 16, .block 18, .block 20, .block 21, .cmp, .freeIx, .ky, .mem, .ms, .notes, .out, .pa, .pl, .resp,
      .ro]
  | .keyAttest _ => [.block 14, .block 18, .block 20, .cmp, .freeIx, .ky, .mem, .notes, .pl, .resp, .ro]
  | .keySign _ => [.block 14, .block 18, .block 20, .cmp, .freeIx, .ky, .mem, .notes, .pl, .resp, .ro]
  | .keyKmac => [.block 14, .block 18, .block 20, .cmp, .freeIx, .ky, .mem, .notes, .pl, .resp, .ro]
  | .keyWrapData => [.block 14, .block 18, .block 20, .cmp, .freeIx, .ky, .mem, .notes, .pl, .resp, .ro]
  | .keyRandom => [.block 14, .block 18, .block 20, .cmp, .freeIx, .ky, .mem, .notes, .pl, .resp, .ro]
  | .keyDecaps => [.block 14, .block 16, .block 18, .block 20, .block 21, .cmp, .freeIx, .ky, .mem, .ms, .notes, .out, .pa, .pl, .resp,
      .ro]
  | .keyPublic => [.block 14, .block 18, .block 20, .cmp, .freeIx, .ky, .mem, .notes, .pl, .resp, .ro]
  | .keyCommission => [.block 14, .block 16, .block 18, .block 19, .block 20, .cmp, .freeIx, .ky, .mem, .ms, .notes, .pl, .resp, .ro]
  | .keyCert => [.block 14, .block 18, .block 20, .cmp, .freeIx, .ky, .mem, .notes, .pl, .resp, .ro]
  | .keyVerify => [.block 14, .block 18, .block 20, .cmp, .freeIx, .ky, .mem, .notes, .pl, .resp, .ro]
  | .entropyHealthFail => [.block 18, .notes]
  | .tamperSourceEvent _ _ => [.block 19, .ky, .mtb, .notes]
  | .tamperCoreResponse _ => [.block 11, .block 12, .block 14, .block 15, .block 16, .block 18, .block 2, .block 20, .block 21,
      .block 6, .block 7, .cmp, .freeIx, .ky, .mac, .mem, .ms, .mtb, .notes, .out, .pa, .pl, .queues, .rd, .resp, .ro, .ry, .sl, .tm]
  | .tamperCfgWrite _ => [.block 18, .block 19, .block 20, .freeIx, .notes, .resp, .ro]
  | .tamperLogClear => [.block 18, .block 19, .block 20, .freeIx, .notes, .resp, .ro]
  | .roleEnrol _ _ _ => [.block 20, .cmp, .freeIx, .notes, .resp, .ro]
  | .roleRevoke _ _ => [.block 20, .cmp, .freeIx, .ky, .notes, .resp, .ro]
  | .roleRelease _ _ => [.block 11, .block 12, .block 14, .block 15, .block 16, .block 18, .block 19, .block 20, .block 21, .block 6,
      .block 7, .cmp, .flash, .freeIx, .ky, .mac, .mem, .ms, .mtb, .notes, .out, .pa, .pl, .queues, .rd, .resp, .ro, .ry, .sl, .su, .tm]
  | .samplerEntry _ => [.block 11, .block 12, .block 14, .block 15, .block 16, .block 20, .block 21, .block 6, .block 7, .cmp, .freeIx,
      .ky, .mac, .mem, .ms, .mtb, .notes, .out, .pa, .pl, .queues, .rd, .resp, .ro, .ry, .sl, .su, .tm]
  | .roleReissue _ => [.block 19, .block 20, .cmp, .flash, .freeIx, .ms, .notes, .resp, .ro]
  | .auditRead _ _ _ => [.cmp, .resp]
  | .auditCheckpoint _ => [.block 20, .cmp, .freeIx, .notes, .resp, .ro]
  | .auditHeadRead _ => [.cmp, .resp]
  | .roleCkptWrite => [.block 20, .freeIx, .notes, .resp, .ro]
  | .auditPageProgram => [.block 20, .flash, .freeIx, .ms, .notes, .ro]
  | .leaseRenewDue _ => [.block 21, .mtb, .out, .pa]
  | .renewRx _ _ _ _ => [.block 11, .block 12, .block 13, .block 14, .block 15, .block 16, .block 18, .block 20, .block 21, .block 6,
      .block 7, .cmp, .freeIx, .ky, .mac, .mem, .ms, .mtb, .notes, .out, .pa, .pl, .queues, .rd, .resp, .ro, .ry, .sl, .tm]
  | .grantRx _ _ _ => [.block 11, .block 12, .block 13, .block 14, .block 15, .block 16, .block 18, .block 20, .block 21, .block 6,
      .block 7, .cmp, .freeIx, .ky, .mac, .mem, .ms, .mtb, .notes, .out, .pa, .pl, .queues, .rd, .resp, .ro, .ry, .sl, .tm]
  | .resignRx _ _ => [.block 11, .block 12, .block 13, .block 14, .block 15, .block 16, .block 18, .block 20, .block 21, .block 6,
      .block 7, .cmp, .freeIx, .ky, .mac, .mem, .ms, .mtb, .notes, .out, .pa, .pl, .queues, .rd, .resp, .ro, .ry, .sl, .tm]
  | .markStaleRx _ _ => [.block 11, .block 12, .block 13, .block 14, .block 15, .block 16, .block 18, .block 20, .block 21, .block 6,
      .block 7, .cmp, .freeIx, .ky, .mac, .mem, .ms, .mtb, .notes, .out, .pa, .pl, .queues, .rd, .resp, .ro, .ry, .sl, .tm]
  | .witnessDatagramRx _ _ _ _ _ _ _ => [.block 11, .block 12, .block 13, .block 14, .block 15, .block 16, .block 18, .block 20,
      .block 21, .block 6, .block 7, .cmp, .freeIx, .ky, .mac, .mem, .ms, .mtb, .notes, .out, .pa, .pl, .queues, .rd, .resp, .ro, .ry,
      .sl, .tm]
  | .peerSilentTimeout _ => [.block 12, .block 13, .block 15, .block 18, .block 21, .freeIx, .mac, .mem, .ms, .mtb, .notes, .out, .pa,
      .queues, .sl, .tm]
  | .takeoverInstant _ => [.block 12, .block 13, .block 14, .block 15, .block 16, .block 18, .block 20, .block 21, .block 6, .cmp,
      .freeIx, .ky, .mac, .mem, .ms, .mtb, .notes, .out, .pa, .pl, .queues, .resp, .ro, .ry, .sl, .tm]
  | .aloneTimeout _ => [.block 12, .block 13, .block 14, .block 15, .block 16, .block 18, .block 20, .block 21, .block 6, .cmp, .freeIx,
      .ky, .mac, .mem, .ms, .mtb, .notes, .out, .pa, .pl, .queues, .resp, .ro, .ry, .sl, .tm]
  | .helloSend _ => [.mtb, .out, .pa]
  | .helloRx _ _ _ _ _ => [.block 11, .block 12, .block 13, .block 14, .block 15, .block 16, .block 18, .block 20, .block 21, .block 5,
      .block 6, .block 7, .cmp, .freeIx, .ky, .mac, .mem, .ms, .mtb, .notes, .out, .pa, .pl, .queues, .rd, .resp, .ro, .ry, .sl, .tm]
  | .keyxRx _ _ _ _ => [.block 11, .block 12, .block 13, .block 14, .block 15, .block 16, .block 18, .block 20, .block 21, .block 6,
      .block 7, .cmp, .freeIx, .ky, .mac, .mem, .ms, .mtb, .notes, .out, .pa, .pl, .queues, .rd, .resp, .ro, .ry, .sl, .tm]
  | .mirrorFrameRx _ _ => [.block 11, .block 12, .block 13, .block 14, .block 15, .block 16, .block 17, .block 18, .block 20, .block 21,
      .block 6, .block 7, .cmp, .freeIx, .gd, .ky, .mac, .mem, .ms, .mtb, .notes, .out, .pa, .pl, .queues, .rd, .resp, .ro, .ry, .sl,
      .tm]
  | .mirrorAckRx _ _ => [.block 11, .block 12, .block 13, .block 14, .block 15, .block 16, .block 18, .block 20, .block 21, .block 6,
      .block 7, .cmp, .freeIx, .ky, .mac, .mem, .ms, .mtb, .notes, .out, .pa, .pl, .queues, .rd, .resp, .ro, .ry, .sl, .tm]
  | .fixScanStep => [.block 21, .mem, .out, .pa]
  | .naRepeat _ => [.mtb, .out, .pa]
  | .pairResignWrite => [.block 11, .block 12, .block 14, .block 15, .block 16, .block 20, .block 21, .block 6, .block 7, .cmp, .freeIx,
      .ky, .mac, .mem, .ms, .mtb, .notes, .out, .pa, .pl, .queues, .rd, .resp, .ro, .ry, .sl, .tm]
  | .pairResyncWrite => [.block 20, .block 21, .freeIx, .notes, .out, .pa, .resp, .ro]
  | .resyncComplete _ => [.block 12, .block 14, .block 15, .block 16, .block 17, .block 20, .block 21, .block 6, .cmp, .freeIx, .gd,
      .ky, .mac, .mem, .ms, .mtb, .notes, .out, .pa, .pl, .queues, .resp, .ro, .ry, .sl, .tm]
  | .updateBegin _ _ _ => [.block 20, .block 22, .cmp, .flash, .freeIx, .ms, .mtb, .notes, .out, .pa, .resp, .ro, .up]
  | .updateWrite _ _ _ _ _ _ => [.block 20, .block 22, .cmp, .flash, .freeIx, .ms, .mtb, .notes, .out, .pa, .resp, .ro, .up]
  | .updateFinish _ _ _ => [.block 20, .block 22, .cmp, .flash, .freeIx, .ms, .mtb, .notes, .out, .pa, .resp, .ro, .up]
  | .updateActivate _ _ => [.block 11, .block 12, .block 14, .block 15, .block 16, .block 20, .block 21, .block 6, .block 7, .cmp,
      .flash, .freeIx, .ky, .mac, .mem, .ms, .mtb, .notes, .out, .pa, .pl, .queues, .rd, .resp, .ro, .ry, .sl, .su, .tm, .up]
  | .updateAbort _ => [.block 20, .block 22, .cmp, .freeIx, .notes, .out, .pa, .resp, .ro, .up]
  | .updateStatus _ => [.cmp, .resp]
  | .updateConfirm _ _ => [.block 11, .block 12, .block 14, .block 15, .block 16, .block 20, .block 21, .block 22, .block 6, .block 7,
      .cmp, .flash, .freeIx, .ky, .mac, .mem, .ms, .mtb, .notes, .out, .pa, .pl, .queues, .rd, .resp, .ro, .ry, .sl, .su, .tm, .up]
  | .updateReject _ _ => [.block 11, .block 12, .block 14, .block 15, .block 16, .block 20, .block 21, .block 22, .block 6, .block 7,
      .cmp, .flash, .freeIx, .ky, .mac, .mem, .ms, .mtb, .notes, .out, .pa, .pl, .queues, .rd, .resp, .ro, .ry, .sl, .su, .tm, .up]
  | .trialWindowExpiry _ => [.block 11, .block 12, .block 14, .block 15, .block 16, .block 20, .block 21, .block 22, .block 6, .block 7,
      .cmp, .flash, .freeIx, .ky, .mac, .mem, .ms, .mtb, .notes, .out, .pa, .pl, .queues, .rd, .resp, .ro, .ry, .sl, .su, .tm, .up]
  | .updateSessionIdle _ => [.block 20, .block 22, .cmp, .freeIx, .mtb, .notes, .out, .pa, .resp, .ro, .up]
  | .updateOfferRx _ _ => [.block 20, .block 22, .flash, .freeIx, .ms, .mtb, .notes, .ro, .up]
  | .updateDataRx _ _ _ _ _ => [.block 20, .block 22, .cmp, .flash, .freeIx, .ms, .mtb, .notes, .out, .pa, .resp, .ro, .up]
  | .updateActivateRx _ _ => [.block 11, .block 12, .block 14, .block 15, .block 16, .block 20, .block 21, .block 6, .block 7, .cmp,
      .flash, .freeIx, .ky, .mac, .mem, .ms, .mtb, .notes, .out, .pa, .pl, .queues, .rd, .resp, .ro, .ry, .sl, .su, .tm, .up]
  | .updateResultRx _ _ _ => [.block 11, .block 12, .block 14, .block 15, .block 16, .block 20, .block 21, .block 22, .block 6,
      .block 7, .cmp, .flash, .freeIx, .ky, .mac, .mem, .ms, .mtb, .notes, .out, .pa, .pl, .queues, .rd, .resp, .ro, .ry, .sl, .su, .tm,
      .up]
  | .updateAbortRx => [.block 20, .block 22, .cmp, .freeIx, .notes, .out, .pa, .resp, .ro, .up]
  | .updateResultSend _ => [.mtb, .out, .pa, .up]
  | .gpioEdge _ _ _ => [.block 23, .mtb, .notes]
  | .mainSupplyGood _ => [.su]
  | .resetNRelease => [.su]
  | .tamperSourceInactive _ _ => [.block 19, .ky]
  | .fwHeaderGet _ _ => [.out]
  | .fcpPinUpdate _ => [.block 15, .mtb, .out]

end Sys2Proof.Machine
end

