-- ==== Sys2Proof/WellFormed.lean ====
section
/-!
DEFINITION. The widths that an operand of a command keeps where its type is wider: fields of frames, headers, command blocks
and queue entries (Tables 05.2, 05.4, 06.4, 13.2, 18.5, 19.3, 20.5).
-/
namespace Sys2Proof

/-- The number fits `n` bits. -/
def fits (n v : Nat) : Bool := decide (v < 2 ^ n)

/-- A ROLE block's fields (Table 05.2). -/
def Machine.RoleBlk.wf (b : Machine.RoleBlk) : Bool := fits 3 b.root && fits 8 b.role && fits 32 b.digest

/-- A key command's fields (Table 18.5). -/
def Machine.KeyBlk.wf (b : Machine.KeyBlk) : Bool :=
  fits 8 b.op && fits 16 b.slot && fits 16 b.slot2 && fits 32 b.attr && fits 8 b.role && fits 16 b.input.length &&
  fits 16 b.outCap

/-- A TIME frame's fields (Table 06.4). -/
def Machine.TimeFrame.wf (f : Machine.TimeFrame) : Bool :=
  fits 64 f.tx && fits 64 f.echoTx && fits 64 f.echoRx && fits 48 f.devS && fits 32 f.devNs && fits 40 f.asn &&
  fits 48 f.epoch && fits 5 f.state

/-- A MAC header's fields. -/
def Machine.MacHdr.wf (h : Machine.MacHdr) : Bool :=
  fits 16 h.fcf && fits 3 h.ftype && fits 2 h.version && fits 8 h.seq && fits 16 h.dstPan && fits 16 h.srcPan &&
  fits 2 h.dstMode && fits 2 h.srcMode && fits 64 h.dst && fits 64 h.src && fits 3 h.level && fits 2 h.kim &&
  fits 8 h.keyIndex && fits 40 h.counter

/-- A mirror record's fields (Table 20.5). -/
def Machine.MirrorRec.wf (r : Machine.MirrorRec) : Bool :=
  fits 8 r.kind && fits 32 r.seq && fits 8 r.region && fits 32 r.target && decide (r.data.length ≤ 256)

/-- The command's operands keep their widths. -/
def Instr.wf (i : Instr) : Bool :=
  match i with
  | .registerWrite _ _ _ _ _ => true
  | .eventClear _ _ _ _ => true
  | .eventEnableWrite _ _ _ _ => true
  | .vbatApplied => true
  | .vbatLost => true
  | .supplyGoodIntervalEnd _ => true
  | .mainSupplyLost _ => true
  | .resetNTaken => true
  | .sourceLocked _ _ => true
  | .sourceLost _ _ => true
  | .rootPllLock => true
  | .rootLockTimeout => true
  | .dramTrainStageEnd _ _ => true
  | .dramTrainTimeout _ => true
  | .bootComplete _ _ => true
  | .bootTimeout _ => true
  | .prickingLoadDone _ _ => true
  | .prickingLoadTimeout _ => true
  | .benchCheckDone _ => true
  | .readyWrite _ => true
  | .readyTimeout _ => true
  | .continueWrite _ => true
  | .enterRunning _ => true
  | .warmResetWrite _ => true
  | .warmResetProceed _ => true
  | .monitorWindowEnd _ _ _ => true
  | .hold1sMark _ => true
  | .hold30sMark _ => true
  | .rootPllUnlock _ => true
  | .clkSrcForceWrite _ _ => true
  | .hoopIdle _ _ => true
  | .hoopRampStep _ => true
  | .clkRestartGo _ _ => true
  | .restartDividerSwitch _ => true
  | .restartFirstEdge _ => true
  | .gateRequest _ => true
  | .gateClose _ => true
  | .ungate _ => true
  | .esmcPduRx _ _ _ _ => true
  | .esmcTimeout _ _ => true
  | .esmcSend => true
  | .uplSignalDetect _ _ => true
  | .uplAcquisitionDone _ => true
  | .uplNextPageRx _ => true
  | .uplAnComplete _ _ => true
  | .uplTrainingDone _ => true
  | .uplBlockLock _ _ => true
  | .uplTrainTimeout _ => true
  | .uplLinkLost _ _ => true
  | .uplAdminWrite _ _ => true
  | .uplRetrain _ => true
  | .pauseFrameRx _ _ _ => true
  | .pfcFrameRx _ entries _ => (entries.map (·.1)).Nodup
  | .pauseQuantaEnd _ _ _ => true
  | .fcFrameSend _ _ => true
  | .fcFrameRepeat _ _ => true
  | .uplFrameRx _ _ octets _ => decide (octets.length < 65536)
  | .tieAcquisitionDone _ => true
  | .tieTrainBlockRx _ _ _ _ _ _ _ _ _ _ _ => true
  | .tieEqualiserDone _ => true
  | .tieRoleBlockRx b => b.wf
  | .tieRoleExchangeDone _ => true
  | .tiePhaseTimeout _ => true
  | .tieRetrain => true
  | .tieEnableWrite _ => true
  | .svcReadRegister _ _ _ _ => true
  | .svcWriteRegister _ _ _ _ _ => true
  | .svcLastStatus _ _ _ => true
  | .svcBenchChunk _ data _ _ _ => fits 16 data.length
  | .svcBenchCommit _ _ _ _ => true
  | .svcTunnelIn message _ _ _ => fits 16 message.length
  | .svcTunnelOut _ _ _ => true
  | .sclkStopMidMessage _ => true
  | .cmpRegRead _ _ _ _ _ _ _ => true
  | .cmpRegWrite _ _ _ _ _ _ _ => true
  | .cmpServiceCall _ _ _ _ _ _ key _ => key.wf
  | .cmpResultGet _ _ _ _ _ _ => true
  | .cmpResultDelete _ _ _ _ _ _ => true
  | .cmpEventObserve _ _ _ _ _ => true
  | .cmpEventNotify _ _ => true
  | .sessionHello _ _ _ _ _ _ => true
  | .sessionFinish _ ciphertext signature _ _ _ _ => ciphertext.length == 1088 && decide (signature < 256 ^ 2420)
  | .sessionDelete _ _ _ _ _ => true
  | .sessionIdleExpiry _ _ => true
  | .handshakeTimeout _ => true
  | .ptpAnnounceRx _ _ _ _ _ _ => true
  | .ptpSyncRx _ _ _ _ _ _ => true
  | .ptpFollowUpRx _ _ _ _ => true
  | .ptpDelayRespRx _ _ _ _ _ => true
  | .ptpPdelayReqRx _ _ _ _ => true
  | .ptpPdelayRespRx _ _ _ _ _ => true
  | .ptpDelayReqSend _ _ => true
  | .ptpManagementRx _ => true
  | .announceReceiptTimeout _ => true
  | .freezeTimeout _ _ => true
  | .timeStep => true
  | .lockWaitExpiry _ => true
  | .timeAccept => true
  | .timeSnap _ => true
  | .timeSelDomWrite _ => true
  | .tieTimeSend _ => true
  | .tieTimeRx f _ => f.wf
  | .peerTimeExpiry _ => true
  | .trxSetTarget _ _ _ => true
  | .trxCalibrate _ _ _ => true
  | .trxStepEnd _ => true
  | .calEnd _ _ => true
  | .synUnlock _ _ _ => true
  | .bgCalCycleStart _ _ => true
  | .bgCalStep _ _ _ => true
  | .tempDrift _ _ => true
  | .coexRequestRise _ => true
  | .coexGrantFall _ _ => true
  | .rxWindowOpen _ => true
  | .rxWindowClose _ => true
  | .laneBindingApply _ => true
  | .preambleDetect _ _ => true
  | .preambleLost _ _ => true
  | .syncPoint _ _ _ _ _ _ _ _ => true
  | .headerDecoded _ _ _ _ _ _ => true
  | .shadowSyncPoint _ _ _ _ _ _ _ _ _ _ => true
  | .lastSymbol _ _ _ => true
  | .fcsVerdict _ _ => true
  | .gainWindowEnd _ _ _ => true
  | .adcClip _ _ _ => true
  | .idlePowerWindowEnd _ _ _ => true
  | .laneChanWrite _ _ => true
  | .laneCountClear _ => true
  | .sourceAddressComplete _ hdr _ => hdr.wf
  | .addressLookupDone _ => true
  | .nodeRecordReadDone _ => true
  | .keyUnwrapDone _ => true
  | .ccmContextFree => true
  | .ccmVerdict _ _ => true
  | .dupCacheExpiry _ => true
  | .shadowEntryRelease _ => true
  | .lptSweepStep => true
  | .txCmdData _ _ => true
  | .txCmdBraidOpen _ _ => true
  | .txCmdBraidAppend _ _ => true
  | .txCmdEnhancedBeacon _ _ => true
  | .txCmdWakeKeying _ _ => true
  | .txLateDrop _ _ => true
  | .txLaunch _ => true
  | .txCommit _ _ => true
  | .txEnd _ => true
  | .outputStopTime _ => true
  | .slotStart _ => true
  | .lanePlanComplete => true
  | .txRequest _ => true
  | .tschTxCell _ _ => true
  | .carrierSenseEnd _ _ _ => true
  | .csmaBackoffEnd _ => true
  | .ackWaitTimeout _ _ => true
  | .frameDeadlineExpiry _ _ => true
  | .shuttleCompletionRx _ => true
  | .ebDue _ _ _ => true
  | .dutyBucketRoll _ _ => true
  | .offTimeEnd _ => true
  | .braidCut _ => true
  | .macPanEnableWrite _ => true
  | .macCountClear => true
  | .macSlotframeEnable _ _ => true
  | .sleepStart _ => true
  | .sleepStop _ => true
  | .sleepResync _ => true
  | .sleepResetDrift _ => true
  | .sleepCall _ => true
  | .sleepLinkAdd _ => true
  | .sleepLinkRemove _ => true
  | .t3Expiry _ => true
  | .wakeWaitExpiry _ => true
  | .sleepCountClear => true
  | .sleepRebuildStep => true
  | .t3CacheRefill => true
  | .tkNew _ _ => true
  | .tkFill _ _ _ _ _ => true
  | .tkPut _ _ _ _ => true
  | .tkTimer _ _ _ _ _ => true
  | .tkCancel _ _ => true
  | .tkDrop _ _ => true
  | .tkEnd _ => true
  | .taskPlace _ _ => true
  | .taskException _ _ _ _ _ => true
  | .taskRunLimit _ _ _ => true
  | .initRunRestart _ _ => true
  | .delayListExpiry _ => true
  | .releasePortTake => true
  | .taskQueueEntry _ => true
  | .pillowCountClear => true
  | .pillowTemplateWrite _ _ => true
  | .enqueue _ _ addr len flags tag aux => fits 32 addr && fits 16 len && decide (flags < 8) && fits 32 tag && fits 32 aux
  | .dequeue _ => true
  | .creditReturn _ _ => true
  | .queueReadbackDone _ => true
  | .queueDropRemainder _ => true
  | .queueClearCount _ => true
  | .queueWmWrite _ _ => true
  | .dramRequest _ write addr chunks _ data _ => fits 32 addr && (if write then decide (addr % 64 + data.length ≤ 64 * chunks) else data.isEmpty)
  | .dramReadDone _ => true
  | .dramWriteDone _ => true
  | .dramRefreshSlot _ _ => true
  | .dramScheduleSwitch => true
  | .memBufTake => true
  | .memBufReturn _ => true
  | .nandRead _ => true
  | .nandProgram _ => true
  | .nandErase _ => true
  | .nandOperationDone _ => true
  | .memCountClear => true
  | .groundCmdWrite _ _ _ => true
  | .groundLookup => true
  | .groundInsert => true
  | .groundDelete => true
  | .groundFetch => true
  | .groundRoute => true
  | .groundWrite => true
  | .groundLptRead => true
  | .groundLptForget => true
  | .groundRehash => true
  | .rehashWalkEnd => true
  | .groundSwap => true
  | .groundBadOp => true
  | .hashZeroingDone => true
  | .routerAdvertisementRx _ _ _ _ _ => true
  | .prefixDelegationChange _ _ => true
  | .defaultRouterExpiry _ _ => true
  | .preferredPortReturn _ => true
  | .downstreamPacket _ _ _ _ _ _ _ => true
  | .upstreamFragmentRx _ tag size off _ _ => fits 16 tag && decide (size < 2048) && decide (off < 2048)
  | .reassemblyExpiry _ => true
  | .addressRegistrationRx _ _ _ _ _ => true
  | .edarRx _ _ _ _ _ => true
  | .registrationExpiry _ _ => true
  | .dioTrickleExpiry _ _ _ => true
  | .daoRx _ _ _ _ _ _ _ => true
  | .pathLifetimeExpiry _ _ => true
  | .scDemandRx _ _ _ => true
  | .scAssignmentAck _ _ => true
  | .sixpRequestRx _ _ _ _ => true
  | .sixpTimeout _ => true
  | .joinRequestRx _ _ _ _ _ _ _ => true
  | .rekeyAckRx _ _ _ => true
  | .rekeyDeadline _ _ => true
  | .campaignInterval _ _ _ => true
  | .reportWindowEnd _ _ _ => true
  | .missingBlocksRx _ _ _ _ => true
  | .fwBlockGet _ _ _ _ => true
  | .completionReportRx _ _ _ _ => true
  | .campaignEndExpiry _ _ => true
  | .netGet _ => true
  | .netSet _ _ _ _ => true
  | .panGet _ _ => true
  | .panSet _ _ _ => true
  | .panRepair _ _ => true
  | .nodeGet _ _ _ => true
  | .nodeRemove _ _ => true
  | .nodeList _ _ _ _ => true
  | .nodeRoute _ _ => true
  | .nodeSetClass _ _ _ => true
  | .schedGet _ _ => true
  | .schedSet _ _ _ _ => true
  | .schedStats _ => true
  | .joinSet _ _ _ _ => true
  | .joinEnrol _ _ _ => true
  | .joinRevoke _ _ => true
  | .joinStats _ => true
  | .joinGroupRekey _ _ _ _ _ => true
  | .imageBegin _ _ _ _ _ _ => true
  | .imageWrite _ _ _ _ => true
  | .imageCommit _ _ => true
  | .imageDelete _ _ => true
  | .imageList _ => true
  | .campaignStart _ _ _ _ _ => true
  | .campaignStatus _ _ => true
  | .campaignStop _ _ => true
  | .zoneReportRx _ kind value _ _ => fits 8 kind && fits 16 value
  | .zoneHoldExpiry _ _ => true
  | .zoneVacancyExpiry _ _ => true
  | .zoneOverrideExpiry _ _ => true
  | .zonePiStep _ _ => true
  | .zoneBroadcastOpportunity _ _ _ _ => true
  | .zoneGet _ _ => true
  | .zoneSet _ _ _ _ => true
  | .zoneAddMembers _ _ _ => true
  | .zoneRemoveMembers _ _ _ => true
  | .zoneOverride _ _ _ _ _ => true
  | .zoneRelease _ _ _ => true
  | .zoneStats _ _ => true
  | .zoneDelete _ _ => true
  | .keyCmdWrite _ => true
  | .keyGenerate => true
  | .keyDerive => true
  | .keyImport => true
  | .keyExport => true
  | .keyRestrict => true
  | .keyDestroy => true
  | .keyAttest _ => true
  | .keySign _ => true
  | .keyKmac => true
  | .keyWrapData => true
  | .keyRandom => true
  | .keyDecaps => true
  | .keyPublic => true
  | .keyCommission => true
  | .keyCert => true
  | .keyVerify => true
  | .entropyHealthFail => true
  | .tamperSourceEvent _ _ => true
  | .tamperCoreResponse _ => true
  | .tamperCfgWrite _ => true
  | .tamperLogClear => true
  | .roleEnrol _ _ pubKey => decide (pubKey < 256 ^ 1312)
  | .roleRevoke _ _ => true
  | .roleRelease _ _ => true
  | .samplerEntry _ => true
  | .roleReissue _ => true
  | .auditRead _ _ _ => true
  | .auditCheckpoint _ => true
  | .auditHeadRead _ => true
  | .roleCkptWrite => true
  | .auditPageProgram => true
  | .leaseRenewDue _ => true
  | .renewRx _ _ _ _ => true
  | .grantRx _ _ _ => true
  | .resignRx _ _ => true
  | .markStaleRx _ _ => true
  | .witnessDatagramRx _ _ _ _ seq _ _ => fits 32 seq
  | .peerSilentTimeout _ => true
  | .takeoverInstant _ => true
  | .aloneTimeout _ => true
  | .helloSend _ => true
  | .helloRx _ _ _ _ _ => true
  | .keyxRx _ _ _ _ => true
  | .mirrorFrameRx records _ => records.all Machine.MirrorRec.wf
  | .mirrorAckRx seq _ => fits 32 seq
  | .fixScanStep => true
  | .naRepeat _ => true
  | .pairResignWrite => true
  | .pairResyncWrite => true
  | .resyncComplete _ => true
  | .updateBegin _ _ _ => true
  | .updateWrite _ _ _ _ _ _ => true
  | .updateFinish _ _ _ => true
  | .updateActivate _ _ => true
  | .updateAbort _ => true
  | .updateStatus _ => true
  | .updateConfirm _ _ => true
  | .updateReject _ _ => true
  | .trialWindowExpiry _ => true
  | .updateSessionIdle _ => true
  | .updateOfferRx _ _ => true
  | .updateDataRx _ _ _ _ _ => true
  | .updateActivateRx _ _ => true
  | .updateResultRx _ _ _ => true
  | .updateAbortRx => true
  | .updateResultSend _ => true
  | .gpioEdge _ _ _ => true
  | .mainSupplyGood _ => true
  | .resetNRelease => true
  | .tamperSourceInactive _ _ => true
  | .fwHeaderGet _ _ => true
  | .fcpPinUpdate _ => true

end Sys2Proof
end

