-- ==== Sys2Proof/Certificates/Slice0/Obligations.lean ====
section
/-!
DEFINITION. The statements for the provers: what each command does to the state, family by family, and what holds of every step.
A statement is a conjunction of clauses, one for a command and a case; each clause ends in the next state that the command
answers.
-/
open Sys2Proof Sys2Proof.Machine

/-- Where firmware may write a register (ROOT runs, the bobbin executes, the register exists, VIS grants it) a write of plain
fields that no check refuses changes the RW bits of that register alone, and no other register; a write that a field check
refuses is answered with that check's word and leaves the RW bits; in the blocks of KEY, TAMPER, ROLE, PAIR and UPDATE the
same write is made after its record is appended, or without room for the record answered ST_ROLE_AUDIT_BUSY with the RW bits
left; an init run that stores to a misaligned address, with fewer than 32 bits or to no register is faulted and no register
outside the PILLOW block changes; a write of 1 clears an event bit and leaves the others and every other register; a write to
an event-enable register changes its RW bits, leaves the event register, and each bit that goes to 1 over a set event bit
makes one notification due. Where the spec leaves a detail open it rests on the model's choices of log entries 3, 13 and 42.
-/
def Obligations.RegisterAccess : Prop :=
  ∀ s : State, s.Inv → 
    (∀ (b : Fin 16) (a w : Word) (u : Nat), s.opens b a.toNat = true → auditedBlocks.contains (blockOf a.toNat) = false → (s.advance u).fieldFault a.toNat ((s.advance u).regWord a.toNat) ((s.advance u).newWord a.toNat w) = none → ((s.advance u).actionOf (.bobbin b) a.toNat (firstCopy a.toNat).1 (firstCopy a.toNat).2 w).isNone = true → eventOf? a.toNat = none → regAccessMask .w1c a.toNat = 0 → (¬ (R.PILLOW_HOOP 0 ≤ a.toNat ∧ a.toNat ≤ R.PILLOW_HOOP 3)) → Completes (.registerWrite b a w false u) s fun t =>
      t.getReg (s.bankOf a.toNat) = ((w &&& regAccessMask .rw a.toNat) ||| (s.getReg (s.bankOf a.toNat) &&& ~~~ regAccessMask .rw a.toNat)) &&& regMask (s.bankOf a.toNat) ∧
      (∀ k, k ≠ s.bankOf a.toNat → t.getReg k = s.getReg k) ∧
      t.resp = ST.OK ∧
      t.mem = s.mem ∧
      t.out = s.out) ∧
    (∀ (b : Fin 16) (a w : Word) (u : Nat), s.opens b a.toNat = true → auditedBlocks.contains (blockOf a.toNat) = false → ((s.advance u).fieldFault a.toNat ((s.advance u).regWord a.toNat) ((s.advance u).newWord a.toNat w)).isSome = true → Completes (.registerWrite b a w false u) s fun t =>
      some t.resp = (s.advance u).fieldFault a.toNat ((s.advance u).regWord a.toNat) ((s.advance u).newWord a.toNat w) ∧
      t.getReg (s.bankOf a.toNat) &&& regAccessMask .rw a.toNat = s.getReg (s.bankOf a.toNat) &&& regAccessMask .rw a.toNat ∧
      t.mem = s.mem ∧
      t.out = s.out) ∧
    (∀ (b : Fin 16) (a w : Word) (u : Nat), s.opens b a.toNat = true → auditedBlocks.contains (blockOf a.toNat) = true → s.auditRoom = true → Completes (.registerWrite b a w false u) s fun t =>
      t = ((s.advance u).recordedWrite b a.toNat w).writeBody (.bobbin b) a.toNat w) ∧
    (∀ (b : Fin 16) (a w : Word) (u : Nat), s.opens b a.toNat = true → auditedBlocks.contains (blockOf a.toNat) = true → s.auditRoom = false → statusClass (((s.advance u).raise R.ROLE_EVENT_AUDIT_BUSY).writeBody (.bobbin b) a.toNat w).resp = 0 → statusClass ((s.advance u).writeBody (.bobbin b) a.toNat w).resp = 0 → Completes (.registerWrite b a w false u) s fun t =>
      t.resp = ST.ROLE_AUDIT_BUSY ∧
      t.getReg (s.bankOf a.toNat) &&& regAccessMask .rw a.toNat = s.getReg (s.bankOf a.toNat) &&& regAccessMask .rw a.toNat) ∧
    (∀ (b : Fin 16) (a w : Word) (n : Bool) (u : Nat), s.rootRuns = true → (s.hoopOf b).isSome = true → s.executes b = true → (s.bobbin b).init = true → (a.toNat % 4 ≠ 0 ∨ n = true ∨ s.addrFault a.toNat = some ST.MEM_UNMAPPED) → Completes (.registerWrite b a w n u) s fun t =>
      (t.bobbin b).faulted = true ∧
      t.mem = s.mem ∧
      (∀ k, regBlock k ≠ 14 → t.getReg k = s.getReg k)) ∧
    (∀ (b : Fin 16) (a w : Word) (u : Nat), regAccessMask .w1c a.toNat ≠ 0 → s.opens b a.toNat = true → auditedBlocks.contains (blockOf a.toNat) = false → Completes (.eventClear b a w u) s fun t =>
      t.getReg (s.bankOf a.toNat) = s.getReg (s.bankOf a.toNat) &&& ~~~ (w &&& regAccessMask .w1c (s.bankOf a.toNat)) ∧
      (∀ k, k ≠ s.bankOf a.toNat → t.getReg k = s.getReg k) ∧
      t.resp = ST.OK ∧
      t.notes = s.notes) ∧
    (∀ (b : Fin 16) (a w : Word) (u : Nat), regAccessMask .w1c a.toNat ≠ 0 → s.opens b a.toNat = true → auditedBlocks.contains (blockOf a.toNat) = true → s.auditRoom = true → Completes (.eventClear b a w u) s fun t =>
      t.getReg a.toNat = ((s.advance u).recordedWrite b a.toNat w).getReg a.toNat &&& ~~~ (w &&& regAccessMask .w1c a.toNat) ∧
      t.resp = ST.OK) ∧
    (∀ (b : Fin 16) (p : Nat × Nat) (w : Word) (u : Nat), p ∈ eventPairs → s.opens b p.2 = true → auditedBlocks.contains (blockOf p.1) = false → Completes (.eventEnableWrite b (BitVec.ofNat 32 p.2) w u) s fun t =>
      t.getReg p.2 = (w &&& regAccessMask .rw p.2) ||| (s.getReg p.2 &&& ~~~ regAccessMask .rw p.2) ∧
      t.getReg p.1 = s.getReg p.1 ∧
      t.notes = s.notes ++ ((bitsOf (s.getReg p.1) 31).filter (fun i => bitOf (t.getReg p.2).toNat i && !bitOf (s.getReg p.2).toNat i)).map (fun i => (p.1, i, max s.mtb u)) ∧
      t.resp = ST.OK) ∧
    (∀ (b : Fin 16) (p : Nat × Nat) (w : Word) (u : Nat), p ∈ eventPairs → s.opens b p.2 = true → auditedBlocks.contains (blockOf p.1) = true → s.auditRoom = true → Completes (.eventEnableWrite b (BitVec.ofNat 32 p.2) w u) s fun t =>
      t.getReg p.2 = (w &&& regAccessMask .rw p.2) ||| (s.getReg p.2 &&& ~~~ regAccessMask .rw p.2) ∧
      t.getReg p.1 = ((s.advance u).recordedWrite b p.2 w).getReg p.1 ∧
      t.resp = ST.OK)

/-- A main supply that rises or RESET_N that is released starts the interval of R78 once all is good; its end leads to
AWAIT_TRAINING with BOOT_MODE sampled; a supply lost or RESET_N low leads to UNPOWERED with memory, MAC time base and
pricking gone, or in UNPOWERED stops the interval; VBAT applied or lost clears START_CAUSE, and a loss clears the owner root
and the buffered records and sets VBAT_LOST. Where the spec leaves a detail open it rests on the model's choices of log
entries 12, 32 and 41. -/
def Obligations.SupplyCommands : Prop :=
  ∀ s : State, 
    (∀ (n : Fin 9), Completes (.mainSupplyGood n) s fun t =>
      t.su.good = withOne (n : Nat) s.su.good ∧
      t.dev = s.dev ∧
      (s.dev = devUnpowered → t.su.intervalOn = (s.su.resetHigh && (List.range 9).all (withOne (n : Nat) s.su.good).contains))) ∧
    (Completes .resetNRelease s fun t =>
      t.su.resetHigh = true ∧
      t.dev = s.dev ∧
      (s.dev = devUnpowered → t.su.intervalOn = (List.range 9).all s.su.good.contains)) ∧
    (s.Inv → s.su.vbat = false → Completes .vbatApplied s fun t =>
      t.su.vbat = true ∧
      t.su.vbatFresh = true ∧
      t.getF R.START_CAUSE_CAUSE = 0 ∧
      t.getF R.START_CAUSE_COUNT = 0 ∧
      t.getF R.TAMPER_STATE_VBAT_LOST = s.getF R.TAMPER_STATE_VBAT_LOST) ∧
    (s.Inv → s.su.vbat = true → Completes .vbatLost s fun t =>
      t.su.vbat = false ∧
      t.ky.root = 0 ∧
      t.ro.cur = [] ∧
      t.ro.closed = [] ∧
      t.getF R.TAMPER_STATE_OWNER = 0 ∧
      t.getF R.TAMPER_STATE_VBAT_LOST = 1) ∧
    (∀ (m : Fin 4), s.Inv → s.dev = devUnpowered → s.su.intervalOn = true → Completes (.supplyGoodIntervalEnd m) s fun t =>
      t.dev = devAwait ∧
      t.su.intervalOn = false ∧
      t.getF R.START_STATE_BOOT_MODE = m ∧
      (t.getF R.START_OPT_HALT = (if 2 ≤ (m : Nat) then 1 else 0)) ∧
      (t.getF R.START_OPT_BENCH = (if (m : Nat) = 1 then 1 else 0)) ∧
      (t.getF R.START_CAUSE_CAUSE = (if s.su.vbatFresh then s.getF R.START_CAUSE_CAUSE else s.su.cause % 8))) ∧
    (∀ (n : Fin 9), s.Inv → s.dev ≠ devUnpowered → Completes (.mainSupplyLost n) s fun t =>
      t.dev = devUnpowered ∧
      t.su.good = without (n : Nat) s.su.good ∧
      t.su.cause = 1 ∧
      t.mem = [] ∧
      t.mtb = 0 ∧
      t.pr = Pricking.none) ∧
    (s.Inv → s.dev ≠ devUnpowered → Completes .resetNTaken s fun t =>
      t.dev = devUnpowered ∧
      t.su.resetHigh = false ∧
      t.su.cause = 2 ∧
      t.mem = [] ∧
      t.mtb = 0 ∧
      t.pr = Pricking.none) ∧
    (s.dev = devUnpowered → Completes .resetNTaken s fun t =>
      t.dev = devUnpowered ∧
      t.su.resetHigh = false ∧
      t.su.intervalOn = false) ∧
    (∀ (n : Fin 9), s.dev = devUnpowered → Completes (.mainSupplyLost n) s fun t =>
      t.dev = devUnpowered ∧
      t.su.good = without (n : Nat) s.su.good ∧
      t.su.intervalOn = false)

/-- The root PLL's lock leads from ROOT_LOCK to DRAM_TRAIN with the MAC time base at 0 and DRAM out of self-refresh, its
timeout back to AWAIT_TRAINING; a training stage that passes leads to the next one, the fourth to BOOT or to the hold point
of BOOT_MODE 2, and a failed or overlong attempt is repeated once, then the unit stops; a completed BOOT leads to
PRICKING_LOAD or to its hold point, a failed or overlong one stays in BOOT, and stops where the forced slot cannot be booted;
a bench load brings the staged pricking into force or ends with the word of the failed check, a load from flash clears the
staging area and brings the slot's pricking into force or leaves the pricking; a check-only commit ends with the word of the
load's check alone. Where the spec leaves a detail open it rests on the model's choices of log entries 12, 32 and 41. -/
def Obligations.BootCommands : Prop :=
  ∀ s : State, s.Inv → 
    (s.dev = devRootLock → Completes .rootPllLock s fun t =>
      t.dev = devDramTrain ∧
      t.mtb = 0 ∧
      t.getF R.CLK_STATE_PLL_LOCK = 1 ∧
      t.getF R.CLK_STATE_CLK_MODE = 1 ∧
      t.getF R.MEM_STATE_SELF_REFRESH = 0 ∧
      t.su.attempts = 1 ∧
      t.su.stage = 1) ∧
    (s.dev = devRootLock → Completes .rootLockTimeout s fun t =>
      t.dev = devAwait ∧
      t.mtb = 0 ∧
      t.getF R.START_FAIL_STATUS = ST.START_ROOT_TIMEOUT) ∧
    (∀ (u : Nat), s.dev = devDramTrain → s.su.stopped = false → s.su.heldAt = 0 → s.su.stage < 4 → (s.su.stage = 2 → s.stoppedClock 0 = false) → Completes (.dramTrainStageEnd true u) s fun t =>
      t.dev = devDramTrain ∧
      t.su.stage = s.su.stage + 1 ∧
      (s.su.stage = 1 → t.clk.restarts = [⟨0, 2, false⟩])) ∧
    (∀ (u : Nat), s.dev = devDramTrain → s.su.stopped = false → s.su.heldAt = 0 → Completes (.dramTrainStageEnd false u) s fun t =>
      (s.su.attempts < 2 → t.su.attempts = 2 ∧ t.su.stage = 1 ∧ t.clk.dramDiv = 16) ∧
      (2 ≤ s.su.attempts → t.su.stopped = true ∧ t.getF R.START_FAIL_STATUS = ST.START_DRAM_FAIL)) ∧
    (∀ (u : Nat), s.dev = devDramTrain → s.su.stopped = false → s.su.heldAt = 0 → 4 ≤ s.su.stage → Completes (.dramTrainStageEnd true u) s fun t =>
      t.getF R.MEM_STATE_DRAM_OK = 1 ∧
      (s.getF R.START_OPT_HALT = 1 → t.su.heldAt = 1 ∧ t.getF R.START_STATE_PHASE = 3) ∧
      (s.getF R.START_OPT_HALT ≠ 1 → t.dev = devBoot)) ∧
    (∀ (u : Nat), s.dev = devDramTrain → s.su.stopped = false → s.su.heldAt = 0 → s.su.attemptAt + 2578125 < max s.mtb u → Completes (.dramTrainTimeout u) s fun t =>
      (s.su.attempts < 2 → t.su.attempts = 2 ∧ t.su.stage = 1 ∧ t.clk.dramDiv = 16) ∧
      (2 ≤ s.su.attempts → t.su.stopped = true ∧ t.getF R.START_FAIL_STATUS = ST.START_DRAM_FAIL)) ∧
    (∀ (f : Bool) (u : Nat), s.dev = devBoot → s.su.stopped = false → s.su.heldAt = 0 → s.ky.bootJob = [] → Completes (.bootComplete f u) s fun t =>
      (s.bootFault s.booted f = none → if s.getF R.START_OPT_HALT = 2 then t.su.heldAt = 2 else t.dev = devLoad ∧ t.su.loadAt = max s.mtb u) ∧
      (s.bootFault s.booted f ≠ none → t.dev = devBoot) ∧
      (s.bootFault s.booted f ≠ none → s.getF R.START_OPT_SLOT ≠ 0 → (s.stageFault (s.getF R.START_OPT_SLOT - 1)).isSome → t.su.stopped = true)) ∧
    (∀ (u : Nat), s.dev = devBoot → s.su.stopped = false → s.su.heldAt = 0 → s.su.bootAt + 335156250 < max s.mtb u → Completes (.bootTimeout u) s fun t =>
      t.dev = devBoot ∧
      (s.getF R.START_OPT_SLOT ≠ 0 → (s.stageFault (s.getF R.START_OPT_SLOT - 1)).isSome → t.su.stopped = true ∧ t.su.failedSlots = s.su.failedSlots ++ [s.booted] ∧ t.getF R.START_FAIL_STATUS = ST.START_NO_IMAGE)) ∧
    (∀ (u : Nat), s.dev = devLoad → s.su.heldAt = 0 → s.svc.commit = some false → Completes (.prickingLoadDone none u) s fun t =>
      (match s.loadFault (s.pricking s.stagingOctets none) (counterOf s.up.prWords) with
      | none => t.pr = s.pricking s.stagingOctets none ∧ t.svc.outcome = ST.OK
      | some f => t.svc.outcome = f.status ∧ t.svc.commit = none ∧ t.pr = s.pr)) ∧
    (∀ (f : Option Nat) (u : Nat), s.dev = devLoad → s.su.heldAt = 0 → s.svc.commit ≠ some false → s.su.benchWait = false → s.su.stopped = false → Completes (.prickingLoadDone f u) s fun t =>
      t.svc.staging = [] ∧
      (s.flashFault (s.pricking (s.prOctets s.booted) f) = none → t.pr = s.pricking (s.prOctets s.booted) f) ∧
      (s.flashFault (s.pricking (s.prOctets s.booted) f) ≠ none → t.pr = s.pr ∧ (t.dev = devBoot ∨ t.dev = devLoad))) ∧
    (∀ (u : Nat), s.dev = devLoad → s.su.heldAt = 0 → s.su.benchWait = false → s.su.stopped = false → s.su.loadAt + 25781250 < max s.mtb u → Completes (.prickingLoadTimeout u) s fun t =>
      t.svc.staging = [] ∧
      t.pr = s.pr ∧
      (s.getF R.START_OPT_SLOT ≠ 0 → (s.stageFault (s.getF R.START_OPT_SLOT - 1)).isSome → t.su.stopped = true ∧ t.su.benchWait = true ∧ t.getF R.START_FAIL_STATUS = ST.START_LOAD_TIMEOUT)) ∧
    (∀ (u : Nat), s.svc.commit = some true → Completes (.benchCheckDone u) s fun t =>
      t.svc.commit = none ∧
      (t.svc.outcome = (match s.loadFault (s.pricking s.stagingOctets none) (counterOf s.up.prWords) with | none => ST.OK | some f => f.status)) ∧
      t.pr = s.pr ∧
      t.dev = s.dev)

/-- READY written by the main hoop's firmware during STARTING is taken, by other firmware refused; its timeout counts the
slot as failed and asks for a warm reset with cause 5; once READY is written and every present transceiver has ended its
calibration, or the state has none to calibrate, RUNNING begins, or the unit is held; CONTINUE leaves a hold point for BOOT,
PRICKING_LOAD or RUNNING; a warm reset is asked for and, with every transceiver asleep and nothing on air, leaves BOOT with
no pricking in force. Where the spec leaves a detail open it rests on the model's choices of log entries 12, 32 and 41. -/
def Obligations.RunningCommands : Prop :=
  ∀ s : State, s.Inv → 
    (s.starting = true → Completes (.readyWrite true) s fun t =>
      t.getF R.START_STATE_READY = 1 ∧
      t.resp = ST.OK) ∧
    (Completes (.readyWrite false) s fun t =>
      t = s.answer ST.START_READY_ROLE) ∧
    (∀ (u : Nat), s.starting = true → s.isSet R.START_STATE_READY = false → s.su.heldAt = 0 → s.su.warm = none → s.su.serviceAt + msToCyc (s.getF R.START_WDOG_LIMIT_MS) ≤ max s.mtb u → Completes (.readyTimeout u) s fun t =>
      t.su.warm = some 5 ∧
      t.su.failedSlots = s.su.failedSlots ++ [s.booted]) ∧
    (∀ (u : Nat), s.su.heldAt ≠ 0 → Completes (.continueWrite u) s fun t =>
      t.resp = ST.OK ∧
      (s.su.heldAt = 1 → t.dev = devBoot) ∧
      (s.su.heldAt = 2 → t.dev = devLoad ∧ t.su.heldAt = 0) ∧
      (3 ≤ s.su.heldAt → t.getF R.START_STATE_PHASE = 2 ∧ t.su.outputs = true ∧ t.su.heldAt = 0)) ∧
    (∀ (u : Nat), s.starting = true → s.isSet R.START_STATE_READY = true → s.su.heldAt = 0 → s.su.warm = none → (s.erasedLike = true ∨ ∀ n ∈ List.range 4, (s.trxRec n).isNone = true ∨ n ∈ s.su.calDone) → Completes (.enterRunning u) s fun t =>
      (if s.getF R.START_OPT_HALT = 3 then t.su.heldAt = 3 ∧ t.getF R.START_STATE_PHASE = 3 else t.su.outputs = true ∧ t.tm.runAt = max s.mtb u ∧ t.su.failedSlots = [] ∧ t.getF R.START_STATE_PHASE = 2)) ∧
    (∀ (u : Nat), s.inService = true → s.auditRoom = true → s.su.warm = none → Completes (.warmResetWrite u) s fun t =>
      t.su.warm = some 4 ∧
      t.resp = ST.OK) ∧
    (∀ (u k : Nat), s.su.warm = some k → (∀ n ∈ List.range 4, (s.trx n).onAir = none ∧ (s.trx n).step.all (fun e => decide (e.2 ≤ max s.mtb u)) = true) → Completes (.warmResetProceed u) s fun t =>
      t.dev = devBoot ∧
      t.pr = Pricking.none ∧
      t.gd = {} ∧
      t.svc = {})

/-- A source that locks is noted as locked, last in the order of locking, and while the unit awaits training or is parked it
becomes the root source in ROOT_LOCK; a source that is lost is no longer locked, which in ROOT_LOCK leads back to
AWAIT_TRAINING and in SERVICE, with no other source qualified, to HOLD; a monitor window within the tolerance counts as
passed, one outside it clears the count and disqualifies the source, and both show the offset; the one-second mark leads from
HOLD to HOLD_TX_INHIBIT, the thirty-second mark from there to PARK with DRAM in self-refresh, an unlocked root PLL to PARK
without; a write of FORCE takes effect for a qualified source. Where the spec leaves a detail open it rests on the model's
choices of log entries 2 and 33. -/
def Obligations.SourceCommands : Prop :=
  ∀ s : State, s.Inv → 
    (∀ (n : Fin 3) (u : Nat), s.srcLocked n = false → s.dev ≠ devUnpowered → Completes (.sourceLocked n u) s fun t =>
      t.srcLocked n = true ∧
      t.clk.locks = s.clk.locks ++ [(n : Nat)] ∧
      (s.dev = devAwait ∨ s.dev = devPark → t.dev = devRootLock ∧ t.getF R.CLK_STATE_ROOT_SRC = n) ∧
      (s.dev ≠ devAwait → s.dev ≠ devPark → t.dev = s.dev)) ∧
    (∀ (n : Fin 3) (u : Nat), s.srcLocked n = true → Completes (.sourceLost n u) s fun t =>
      t.srcLocked n = false ∧
      (s.dev = devRootLock → s.getF R.CLK_STATE_ROOT_SRC = n → t.dev = devAwait ∧ t.clk.locks = []) ∧
      (s.dev = devService → s.isSet R.CLK_STATE_PLL_LOCK = true → s.getF R.CLK_STATE_ROOT_SRC = n → [0, 1, 2].all (fun k => k == n.val || !s.srcQual k) = true → t.dev = devHold ∧ t.getF R.CLK_STATE_ROOT_SRC = 3 ∧ t.getF R.CLK_EVENT_HOLD_ENTER = 1)) ∧
    (∀ (n : Fin 3) (m : Int) (u tol : Nat), s.clk.windows.find? (fun w => w.1 == n.val) = some (n.val, tol) → s.rootKept = true → Completes (.monitorWindowEnd n m u) s fun t =>
      ((m - (if s.getF R.CLK_STATE_ROOT_SRC = n then s.clk.held else 0)).natAbs ≤ 20 * tol → t.getF (srcF R.CLK_SRC_UPL0_PASS n) = min 255 (s.getF (srcF R.CLK_SRC_UPL0_PASS n) + 1)) ∧
      (20 * tol < (m - (if s.getF R.CLK_STATE_ROOT_SRC = n then s.clk.held else 0)).natAbs → t.getF (srcF R.CLK_SRC_UPL0_PASS n) = 0 ∧ t.srcQual n = false) ∧
      (t.getF (srcF R.CLK_SRC_UPL0_OFFSET n) = unsigned 16 (max (-32767) (min 32767 (m - (if s.getF R.CLK_STATE_ROOT_SRC = n then s.clk.held else 0)))))) ∧
    (∀ (u : Nat), s.dev = devHold → s.clk.holdAt + secCyc ≤ max s.mtb u → Completes (.hold1sMark u) s fun t =>
      t.dev = devHoldInhibit ∧
      t.getF R.CLK_STATE_TX_OK = 0 ∧
      t.getF R.CLK_STATE_CLK_MODE = 3 ∧
      t.getF R.CLK_EVENT_TX_INHIBIT = 1) ∧
    (∀ (u : Nat), s.dev = devHoldInhibit → s.clk.holdAt + 30 * secCyc ≤ max s.mtb u → Completes (.hold30sMark u) s fun t =>
      t.dev = devPark ∧
      t.getF R.CLK_EVENT_PARK = 1 ∧
      t.getF R.MEM_STATE_SELF_REFRESH = 1 ∧
      t.mtb = 0) ∧
    (∀ (u : Nat), s.rootRuns = true → Completes (.rootPllUnlock u) s fun t =>
      t.dev = devPark ∧
      t.getF R.CLK_EVENT_PLL_FAULT = 1 ∧
      t.getF R.MEM_STATE_SELF_REFRESH = 0 ∧
      t.mtb = 0) ∧
    (∀ (f : Bool) (n : Fin 4), (n : Nat) < 3 → (f = true → s.srcQual n = true) → s.rootKept = true → Completes (.clkSrcForceWrite f n) s fun t =>
      t.isSet R.CLK_SRC_CTRL_FORCE = f ∧
      t.getF R.CLK_SRC_CTRL_FORCE_SRC = n ∧
      t.resp = ST.OK)

/-- The clock of a hoop whose bobbins have been idle for CLK_IDLE_CYC takes, with no ramp in progress, one step towards its
idle divider, and a ramp one step more, RAMP_DONE at its target; a restart outside SERVICE is taken, switches its domain's
divider and ends with the first edge, DRAM requests held by it being presented; a gate bit that meets its condition becomes
pending, one that does not is refused, a pending one closes with its event, and a bit written 0 opens the unit again. Where
the spec leaves a detail open it rests on the model's choices of log entries 2 and 33. -/
def Obligations.ClockDividersAndGates : Prop :=
  ∀ s : State, s.Inv → 
    (∀ (n : Fin 4) (u : Nat), s.rootRuns = true → (s.hoopRec n).isSome = true → (n : Nat) ≠ s.mainHoop → (∀ b ∈ List.range 16, s.hoopOf b = some (n : Nat) → (s.bobbin b).running = none ∧ (s.bobbin b).pre = none ∧ (s.bobbin b).idleAt + s.getF R.CLK_IDLE_CYC_IDLE ≤ max s.mtb u) → (s.clk.ramps.find? (fun r => r.hoop == n.val)).isNone = true → Completes (.hoopIdle n u) s fun t =>
      t.getF (hoopCur n) = rampNext (s.getF (hoopCur n)) (s.getF (hoopIdleDiv n)) ∧
      (s.getF (hoopCur n) ≠ s.getF (hoopIdleDiv n) → t.getF (hoopCur n) ≠ s.getF (hoopIdleDiv n) → ⟨n, s.getF (hoopIdleDiv n)⟩ ∈ t.clk.ramps) ∧
      (s.getF (hoopCur n) ≠ s.getF (hoopIdleDiv n) → t.getF (hoopCur n) = s.getF (hoopIdleDiv n) → t.getF R.CLK_EVENT_RAMP_DONE = 1)) ∧
    (∀ (n : Fin 4) (d : Nat), s.clk.ramps.find? (fun r => r.hoop == n.val) = some ⟨n.val, d⟩ → Completes (.hoopRampStep n) s fun t =>
      t.getF (hoopCur n) = rampNext (s.getF (hoopCur n)) d % 16 ∧
      (rampNext (s.getF (hoopCur n)) d = d → t.getF R.CLK_EVENT_RAMP_DONE = 1)) ∧
    (∀ (d : Fin 16) (v : Fin 32), s.inService = false → ((d : Nat) = 0 ∧ ((v : Nat) = 2 ∨ (v : Nat) = 16) ∨ (4 ≤ (d : Nat) ∧ (d : Nat) < 8 ∧ (s.hoopRec (d - 4)).isSome ∧ ((v : Nat) = 2 ∨ (((v : Nat) = 3 ∨ (v : Nat) = 4) ∧ (d : Nat) - 4 ≠ s.mainHoop)))) → Completes (.clkRestartGo d v) s fun t =>
      t.clk.restarts = s.clk.restarts.filter (fun r => r.domain != d.val) ++ [⟨d, v, false⟩] ∧
      t.stoppedClock d = true ∧
      t.resp = ST.OK) ∧
    (∀ (d : Fin 16) (r : Restart), s.restartOf d = some r → Completes (.restartDividerSwitch d) s fun t =>
      t.restartOf d = some ⟨d, r.div, true⟩ ∧
      ((d : Nat) = 0 → t.clk.dramDiv = r.div) ∧
      (4 ≤ (d : Nat) → (d : Nat) < 8 → t.getF (hoopCur (d - 4)) = r.div % 16)) ∧
    (∀ (d : Fin 16) (r : Restart), s.restartOf d = some r → r.switched = true → Completes (.restartFirstEdge d) s fun t =>
      t.stoppedClock d = false ∧
      ((d : Nat) = 0 → t.ms.held = []) ∧
      ((d : Nat) ≠ 0 → t.ms = s.ms)) ∧
    (∀ (u : Fin 13), bitOf (s.getF clkGate) u = false → s.gateOk u = true → Completes (.gateRequest u) s fun t =>
      bitOf (t.getF clkGate) u = true ∧
      bitOf (t.getF R.CLK_GATE_STAT_PEND) u = true ∧
      t.resp = ST.OK) ∧
    (∀ (u : Fin 13), bitOf (s.getF clkGate) u = false → s.gateOk u = false → Completes (.gateRequest u) s fun t =>
      bitOf (t.getF clkGate) u = false ∧
      t.getF R.CLK_CMD_ERR_UNIT = u ∧
      t.getF R.CLK_CMD_ERR_STATUS = ST.CLK_GATE_STATE ∧
      t.resp = ST.CLK_GATE_STATE) ∧
    (∀ (u : Fin 13), bitOf (s.getF R.CLK_GATE_STAT_PEND) u = true → Completes (.gateClose u) s fun t =>
      bitOf (t.getF R.CLK_GATE_STAT_PEND) u = false ∧
      bitOf (t.getF R.CLK_GATE_STAT_GATED) u = true ∧
      t.getF R.CLK_EVENT_GATE_DONE = 1) ∧
    (∀ (u : Fin 13), bitOf (s.getF clkGate) u = true → (9 ≤ (u : Nat) → (s.trxRec (u - 9)).isSome = true) → Completes (.ungate u) s fun t =>
      bitOf (t.getF clkGate) u = false ∧
      bitOf (t.getF R.CLK_GATE_STAT_PEND) u = false ∧
      bitOf (t.getF R.CLK_GATE_STAT_GATED) u = false ∧
      t.resp = ST.OK)

/-- A signal that UPLn_CFG allows selects KR or SFI mode; acquisition leads to auto-negotiation, whose base page is sent, or
in SFI mode to block-lock search; a next page is answered with the null page; a completed auto-negotiation resolves FEC;
Clause 72 training and block lock lead to a link that is up, whose source locks and whose flow-control mode is in force; a
training timeout counts, is reported and starts auto-negotiation again; a lost link or RETRAIN leads back to listening with
the source not locked; ADMIN takes its value, switching the root first where another source is qualified, and is refused
where none is and in a gated MAC, as RETRAIN is there. Where the spec leaves a detail open it rests on the model's choices of
log entry 34. -/
def Obligations.UpstreamTraining : Prop :=
  ∀ s : State, s.Inv → 
    (∀ (p : Fin 2) (m : Bool), s.dev ≠ devUnpowered → s.uplPhase p = 0 → s.gatedOrPending (gateUpl p) = false → (bitOf (s.getF (R.UPL_CFG_ALLOW p)) (if m then 0 else 1) = true) → Completes (.uplSignalDetect p m) s fun t =>
      t.uplPhase p = 1 ∧
      t.isSet (R.UPL_STAT_MODE p) = !m) ∧
    (∀ (p : Fin 2), s.uplPhase p = 1 → Completes (.uplAcquisitionDone p) s fun t =>
      (t.uplPhase p = if s.isSet (R.UPL_STAT_MODE p) then 4 else 2) ∧
      t.isSet (R.UPL_STAT_CDR_LOCK p) = true ∧
      (s.isSet (R.UPL_STAT_MODE p) = false → t.uplTx p ≠ .idle → t.out = .basePage p (if s.getF (R.UPL_FC_MODE p) = 1 then 3 else 0) (s.getF (R.UPL_CFG_FEC_ADV p)) :: s.out)) ∧
    (∀ (p : Fin 2), s.uplPhase p = 2 → s.uplTx p ≠ .idle → Completes (.uplNextPageRx p) s fun t =>
      t.out = .nullPage p :: s.out ∧
      t.regs = s.regs) ∧
    (∀ (p : Fin 2) (v : Fin 65536), s.uplPhase p = 2 → s.uplTx p ≠ .idle → Completes (.uplAnComplete p v) s fun t =>
      t.uplPhase p = 3 ∧
      t.getF (R.UPL_LP_ABILITY_BASE p) = v ∧
      t.isSet (R.UPL_STAT_FEC_ON p) = (bitOf (s.getF (R.UPL_CFG_FEC_ADV p)) 1 && bitOf v 14 && (bitOf (s.getF (R.UPL_CFG_FEC_ADV p)) 0 || bitOf v 15))) ∧
    (∀ (p : Fin 2), s.uplPhase p = 3 → s.uplTx p ≠ .idle → Completes (.uplTrainingDone p) s fun t =>
      t.uplPhase p = 4) ∧
    (∀ (p : Fin 2) (u : Nat), s.uplPhase p = 4 → s.dev ≠ devUnpowered → Completes (.uplBlockLock p u) s fun t =>
      t.uplPhase p = 5 ∧
      t.isSet (R.UPL_STAT_LINK_UP p) = true ∧
      t.isSet (R.UPL_EVENT_LINK_UP p) = true ∧
      t.srcLocked p = true ∧
      (t.uplPort p).mode = s.getF (R.UPL_FC_MODE p)) ∧
    (∀ (p : Fin 2), s.uplPhase p = 3 → Completes (.uplTrainTimeout p) s fun t =>
      t.uplPhase p = 2 ∧
      t.getF (R.UPL_STAT_TRAIN_FAILS p) = min (R.UPL_STAT_TRAIN_FAILS p).max (s.getF (R.UPL_STAT_TRAIN_FAILS p) + 1) ∧
      t.getF (R.UPL_CMD_ERR_STATUS p) = ST.UPL_TRAIN_FAIL p ∧
      t.isSet (R.UPL_EVENT_TRAIN_FAIL p) = true) ∧
    (∀ (p : Fin 2) (u : Nat), s.uplPhase p = 5 → Completes (.uplLinkLost p u) s fun t =>
      t.uplPhase p = 0 ∧
      t.isSet (R.UPL_STAT_LINK_UP p) = false ∧
      t.srcLocked p = false ∧
      (s.inService = true → s.isSet (R.UPL_STAT_LINK_UP p) = true → t.isSet (R.UPL_EVENT_LINK_DOWN p) = true)) ∧
    (∀ (p : Fin 2) (v : Fin 4), (v : Nat) < 3 → s.getF (R.UPL_CTRL_ADMIN p) ≠ v → s.gatedOrPending (gateUpl p) = false → ((v : Nat) = 2 → s.getF R.CLK_STATE_ROOT_SRC = p → s.srcLocked p = true → (s.srcQual (1 - p) || s.srcQual 2) = true) → Completes (.uplAdminWrite p v) s fun t =>
      t.getF (R.UPL_CTRL_ADMIN p) = v ∧
      t.resp = ST.OK ∧
      ((v : Nat) = 2 → s.getF R.CLK_STATE_ROOT_SRC = p → s.srcLocked p = true → t.getF R.CLK_STATE_ROOT_SRC ≠ p ∧ t.getF R.CLK_EVENT_SRC_SWITCH = 1)) ∧
    (∀ (p : Fin 2) (v : Fin 4), (v : Nat) = 2 → s.getF (R.UPL_CTRL_ADMIN p) ≠ 2 → s.gatedOrPending (gateUpl p) = false → s.getF R.CLK_STATE_ROOT_SRC = p → s.srcLocked p = true → (∀ n ∈ List.range 3, n ≠ p → s.srcQual n = false) → Completes (.uplAdminWrite p v) s fun t =>
      t.getF (R.UPL_CTRL_ADMIN p) = s.getF (R.UPL_CTRL_ADMIN p) ∧
      t.resp = ST.UPL_ADMIN_ROOT p ∧
      t.getF (R.UPL_CMD_ERR_STATUS p) = ST.UPL_ADMIN_ROOT p) ∧
    (∀ (p : Fin 2) (v : Fin 4), s.getF (R.UPL_CTRL_ADMIN p) ≠ v → s.gatedOrPending (gateUpl p) = true → Completes (.uplAdminWrite p v) s fun t =>
      t.getF (R.UPL_CTRL_ADMIN p) = s.getF (R.UPL_CTRL_ADMIN p) ∧
      t.resp = ST.CLK_GATED ∧
      t.getF (R.UPL_CMD_ERR_STATUS p) = ST.CLK_GATED ∧
      t.getF R.CLK_CMD_ERR_UNIT = gateUpl p) ∧
    (∀ (p : Fin 2), s.gatedOrPending (gateUpl p) = false → Completes (.uplRetrain p) s fun t =>
      t.uplPhase p = 0 ∧
      t.isSet (R.UPL_STAT_LINK_UP p) = false ∧
      t.srcLocked p = false ∧
      t.resp = ST.OK) ∧
    (∀ (p : Fin 2), s.gatedOrPending (gateUpl p) = true → Completes (.uplRetrain p) s fun t =>
      t.uplPhase p = s.uplPhase p ∧
      t.resp = ST.CLK_GATED)

/-- On a port whose link is up, ADMIN not 2 and clock running, a pause frame in pause mode pauses the port and in another
mode is discarded and counted; each entry of a PFC frame in PFC mode pauses its priority, or ends the pause, where a queue is
mapped to it and else is counted; quanta run out; on a port that carries frames a changed condition is sent, a lasting one
repeated after half the quanta, QL-DNU is sent on every such port, and an ESMC PDU, or 5 s without one, sets the quality
level and whether the source is blocked; a received frame takes a packet buffer and the last place in its queue, is discarded
and counted without a buffer, and an IPv4 frame is counted in RUNNING. Where the spec leaves a detail open it rests on the
model's choices of log entry 34. -/
def Obligations.UpstreamFlowAndFrames : Prop :=
  ∀ s : State, s.Inv → 
    (∀ (p : Fin 2) (q : Fin 65536) (u : Nat), s.uplHears p = true → Completes (.pauseFrameRx p q u) s fun t =>
      ((s.uplPort p).mode = 1 → (q : Nat) ≠ 0 → Store.find? 8 (t.uplPort p).paused = some (linkEdge (max s.mtb u + 1) + 66 * (q : Nat))) ∧
      ((s.uplPort p).mode = 1 → (q : Nat) = 0 → (t.uplPort p).paused = Store.del 8 (s.uplPort p).paused) ∧
      ((s.uplPort p).mode ≠ 1 → t.isSet (R.UPL_EVENT_FC_DISCARD p) = true ∧ t.uplPort p = { s.uplPort p with discards := (s.uplPort p).discards + 1 })) ∧
    (∀ (p : Fin 2) (l : List (Fin 8 × Fin 65536)) (u : Nat), s.uplHears p = true → Completes (.pfcFrameRx p l u) s fun t =>
      ((s.uplPort p).mode = 2 → (t.uplPort p).paused = l.foldl (fun m e => if (List.range 8).any (fun i => s.uplPrio p i = e.1.val) then (if e.2.val = 0 then Store.del e.1.val m else Store.put e.1.val (linkEdge (max s.mtb u + 1) + 66 * e.2.val) m) else m) (s.uplPort p).paused) ∧
      ((s.uplPort p).mode = 2 → (t.uplPort p).discards = (s.uplPort p).discards + (l.filter (fun e => !(List.range 8).any (fun i => s.uplPrio p i = e.1.val))).length) ∧
      ((s.uplPort p).mode ≠ 2 → t.isSet (R.UPL_EVENT_FC_DISCARD p) = true ∧ t.uplPort p = { s.uplPort p with discards := (s.uplPort p).discards + 1 })) ∧
    (∀ (p : Fin 2) (k : Fin 9) (u e : Nat), Store.find? (k : Nat) (s.uplPort p).paused = some e → (e ≤ if s.rootRuns then max s.mtb u else s.mtb) → Completes (.pauseQuantaEnd p k u) s fun t =>
      (t.uplPort p).paused = Store.del (k : Nat) (s.uplPort p).paused ∧
      t.regs = s.regs) ∧
    (∀ (p : Fin 2) (u : Nat), s.uplCarries p = true → ((List.range 9).filter (fun k => (s.fcNow p).contains k != (s.uplPort p).sent.contains k)).isEmpty = false → Completes (.fcFrameSend p u) s fun t =>
      (t.uplPort p).sent = s.fcNow p ∧
      (t.out = .flow p (((List.range 9).filter (fun k => (s.fcNow p).contains k != (s.uplPort p).sent.contains k)).map (fun k => (k, if (s.fcNow p).contains k then s.getF (R.UPL_FC_QUANTA p) else 0))) :: s.out)) ∧
    (∀ (p : Fin 2) (u : Nat) (l : List Nat), s.uplCarries p = true → l = (s.uplPort p).sent.filter (fun k => (s.fcNow p).contains k && decide (Store.get (fun _ => 0) (s.uplPort p).sentAt k + s.getF (R.UPL_FC_QUANTA p) * 66 / 2 ≤ max s.mtb u)) → l.isEmpty = false → Completes (.fcFrameRepeat p u) s fun t =>
      (∀ k ∈ l, Store.get (fun _ => 0) (t.uplPort p).sentAt k = max s.mtb u) ∧
      t.out = .flow p (l.map (fun k => (k, s.getF (R.UPL_FC_QUANTA p)))) :: s.out) ∧
    (∀ (p : Fin 2) (ssm : Fin 16) (e : Option (Fin 256)) (u : Nat), s.uplCarries p = true → s.rootKept = true → Completes (.esmcPduRx p ssm e u) s fun t =>
      (t.uplPort p).ql = some (ssm : Nat) ∧
      (t.uplPort p).qlAt = max s.mtb u ∧
      t.getF (qlF R.TIME_QL_UPL0_SSM p) = ssm ∧
      t.isSet (qlF R.TIME_QL_UPL0_EXT p) = e.isSome ∧
      t.isSet (qlF R.TIME_QL_UPL0_TIMEOUT p) = false ∧
      t.isSet (srcF R.CLK_SRC_UPL0_BLOCKED p) = s.qlBlocks ssm) ∧
    (∀ (p : Fin 2) (u : Nat), s.rootRuns = true → s.rootKept = true → (s.uplPort p).qlAt + 5 * secCyc ≤ max s.mtb u → Completes (.esmcTimeout p u) s fun t =>
      t.isSet (qlF R.TIME_QL_UPL0_TIMEOUT p) = true ∧
      (t.uplPort p).ql = none ∧
      t.isSet (srcF R.CLK_SRC_UPL0_BLOCKED p) = true ∧
      t.srcQual p = false) ∧
    (Completes .esmcSend s fun t =>
      t.out = ((([0, 1] : List Nat).filter s.uplCarries).map (fun p => Msg.esmc p)).reverse ++ s.out ∧
      t.regs = s.regs) ∧
    (∀ (p : Fin 2) (q : Fin 256) (l : List Byte) (ok : Bool), s.uplCarries p = true → (s.producedBy (0x48 + 0x10 * (p : Nat))).contains q.val = true → l.length ≤ 2048 → (s.queueRec q).isSome = true → 0 < (s.queue q).credit (0x48 + 0x10 * (p : Nat)) → s.fifoFull q (0x48 + 0x10 * (p : Nat)) = false → (0x48 + 0x10 * (p : Nat)) ∉ (s.queue q).dropping ++ (s.queue q).losing → Completes (.uplFrameRx p q l ok) s fun t =>
      (∀ a, s.pktTake.1 = some a → t.ms.pktTaken = s.pktTake.2.ms.pktTaken ∧ t.readBytes a l.length = l ∧ (t.queue q).entries.getLast?.map (fun (e : Entry) => (e.addr, e.len, e.flags, e.src)) = some (a, l.length, if ok then 3 else 7, 0x48 + 0x10 * (p : Nat))) ∧
      (t.ry.ipv4 = s.ry.ipv4 + (if s.running && ok && beNat ((l.drop 12).take 2) = 0x0800 then 1 else 0))) ∧
    (∀ (p : Fin 2) (q : Fin 256) (l : List Byte) (ok : Bool), s.uplCarries p = true → (s.producedBy (0x48 + 0x10 * (p : Nat))).contains q.val = true → (2048 < l.length ∨ s.pktTake.1 = none) → Completes (.uplFrameRx p q l ok) s fun t =>
      t.getF R.MEM_POOL_DROPS = min R.MEM_POOL_DROPS.max (s.getF R.MEM_POOL_DROPS + 1) ∧
      t.getF R.MEM_EVENT_POOL_EMPTY = 1 ∧
      t.queues = s.queues)

/-- Acquisition, the coefficient exchange and the role exchange follow one another; a TRAIN block's requests are applied and
reported in the block that answers, and RX_READY is counted on both sides; a ROLE block is counted, three identical ones set
ACK, and each is answered; the peer's last block loads TIE_PEER; a phase limit counts a failure and starts phase 1 again,
without a root listening; RETRAIN and ENABLE lead back to the start, ENABLE 0 with the source lost, or is refused where the
tie link is the only qualified root. Where the spec leaves a detail open it rests on the model's choices of log entry 34. -/
def Obligations.TieTraining : Prop :=
  ∀ s : State, s.Inv → 
    (∀ (u : Nat), s.dev ≠ devUnpowered → s.getF R.TIE_STAT_PHASE ≤ 1 → s.isSet R.TIE_CFG_ENABLE = true → Completes (.tieAcquisitionDone u) s fun t =>
      t.getF R.TIE_STAT_PHASE = 2 ∧
      t.isSet R.TIE_STAT_BLOCK_LOCK = true ∧
      t.srcLocked 2 = true ∧
      (t.tie.since = (if s.rootRuns then max s.mtb u else s.mtb))) ∧
    (∀ (a b c d e f : Fin 3) (x y z w v : Bool), s.getF R.TIE_STAT_PHASE = 2 → s.tie.coef.length = 3 → Completes (.tieTrainBlockRx a b c x y z w d e f v) s fun t =>
      t.tie.coef = [(coefStep a x (s.tie.coef.getD 0 0)).1, (coefStep b y (s.tie.coef.getD 1 0)).1, (coefStep c z (s.tie.coef.getD 2 0)).1] ∧
      t.tie.report = [(coefStep a x (s.tie.coef.getD 0 0)).2, (coefStep b y (s.tie.coef.getD 1 0)).2, (coefStep c z (s.tie.coef.getD 2 0)).2] ∧
      t.tie.peerReady = readyCount s.tie.peerReady w ∧
      (t.tie.ready = (if s.tieSends then readyCount s.tie.ready v else s.tie.ready)) ∧
      (t.out = (if s.tieSends then .tieBlock (tieTrain [d, e, f] v t.tie.report) :: s.out else s.out)) ∧
      t.regs = s.regs) ∧
    (∀ (u : Nat), s.getF R.TIE_STAT_PHASE = 2 → 16 ≤ s.tie.ready → 16 ≤ s.tie.peerReady → Completes (.tieEqualiserDone u) s fun t =>
      t.getF R.TIE_STAT_PHASE = 3 ∧
      (t.tie.since = (if s.rootRuns then max s.mtb u else s.mtb)) ∧
      (t.out = (if s.tieSends then .tieBlock (tieRole s.ownRole) :: s.out else s.out))) ∧
    (∀ (b : RoleBlk), s.getF R.TIE_STAT_PHASE = 3 → Completes (.tieRoleBlockRx b) s fun t =>
      t.tie.blk = some b ∧
      (t.tie.same = (if s.tie.blk = some b then s.tie.same + 1 else 1)) ∧
      t.tie.ack = (s.tie.ack || decide (3 ≤ t.tie.same)) ∧
      (t.out = (if s.tieSends then .tieBlock (tieRole { s.ownRole with ack := t.tie.ack }) :: s.out else s.out)) ∧
      t.regs = s.regs) ∧
    (∀ (u : Nat) (b : RoleBlk), s.rootKept = true → s.getF R.TIE_STAT_PHASE = 3 → s.tie.ack = true → b.ack = true → s.tie.blk = some b → Completes (.tieRoleExchangeDone u) s fun t =>
      t.getF R.TIE_STAT_PHASE = 4 ∧
      t.isSet R.TIE_EVENT_UP = true ∧
      t.getF R.TIE_PEER_DIGEST = b.digest % 2 ^ 32 ∧
      t.getF R.TIE_PEER_STATE_ROLE = b.role % 2 ^ R.TIE_PEER_STATE_ROLE.width ∧
      t.isSet R.TIE_PEER_STATE_PAIR_ON = b.pairOn) ∧
    (∀ (u : Nat), s.rootRuns = true → (0 < s.getF R.TIE_STAT_PHASE ∧ s.getF R.TIE_STAT_PHASE ≤ 3) → (s.getF R.TIE_STAT_PHASE = 1 → s.isSet R.TIE_STAT_BLOCK_LOCK = true) → s.tie.since + tieLimit (s.getF R.TIE_STAT_PHASE) ≤ max s.mtb u → Completes (.tiePhaseTimeout u) s fun t =>
      (t.getF R.TIE_STAT_PHASE = (if s.isSet R.TIE_CFG_ENABLE then 1 else 0)) ∧
      t.isSet R.TIE_EVENT_TRAIN_FAIL = true ∧
      t.getF R.TIE_STAT_TRAIN_FAILS = min R.TIE_STAT_TRAIN_FAILS.max (s.getF R.TIE_STAT_TRAIN_FAILS + 1) ∧
      t.resp = ST.TIE_TRAIN_TIMEOUT ∧
      t.tie.since = max s.mtb u) ∧
    (∀ (u : Nat), s.rootRuns = false → s.dev ≠ devUnpowered → s.isSet R.TIE_CFG_ENABLE = true → s.getF R.TIE_STAT_PHASE ≤ 3 → Completes (.tiePhaseTimeout u) s fun t =>
      t.getF R.TIE_STAT_PHASE = 0 ∧
      t.isSet R.TIE_EVENT_TRAIN_FAIL = true ∧
      t.getF R.TIE_STAT_TRAIN_FAILS = min R.TIE_STAT_TRAIN_FAILS.max (s.getF R.TIE_STAT_TRAIN_FAILS + 1) ∧
      t.resp = ST.TIE_TRAIN_TIMEOUT) ∧
    (Completes .tieRetrain s fun t =>
      (t.getF R.TIE_STAT_PHASE = (if s.tieSends then 1 else 0)) ∧
      (s.getF R.TIE_STAT_PHASE = 4 → t.isSet R.TIE_EVENT_DOWN = true) ∧
      t.resp = ST.OK) ∧
    (s.isSet R.TIE_CFG_ENABLE = false → Completes (.tieEnableWrite true) s fun t =>
      t.isSet R.TIE_CFG_ENABLE = true ∧
      (t.getF R.TIE_STAT_PHASE = (if s.rootRuns then 1 else 0)) ∧
      t.resp = ST.OK) ∧
    (s.isSet R.TIE_CFG_ENABLE = true → (s.getF R.CLK_STATE_ROOT_SRC ≠ 2 ∨ s.srcLocked 2 = false ∨ s.srcQual 0 = true ∨ s.srcQual 1 = true) → Completes (.tieEnableWrite false) s fun t =>
      t.getF R.TIE_STAT_PHASE = 0 ∧
      t.srcLocked 2 = false ∧
      (s.rootKept = true → s.getF R.CLK_STATE_ROOT_SRC ≠ 2 → t.isSet R.TIE_CFG_ENABLE = false) ∧
      t.resp = ST.OK) ∧
    (s.isSet R.TIE_CFG_ENABLE = true → s.getF R.CLK_STATE_ROOT_SRC = 2 → s.srcLocked 2 = true → (s.srcQual 0 = false ∧ s.srcQual 1 = false) → Completes (.tieEnableWrite false) s fun t =>
      t.regs = s.regs ∧
      t.resp = ST.TIE_STATE)

/-- A transaction that is not abandoned is answered from its marker on: a read with the register's word where it is one of
the eight that the port reaches, and one of the four early ones before ROOT_LOCK, a write with the outcome of the write,
which command 0x05 returns next, a chunk, which then stands in the staging area, a commit, which starts a load or a check, a
tunnel message in, which waits, or out, which leaves; a read of another register is answered ST_SVC_SESSION_NEEDED, of one
that waits for ROOT_LOCK ST_SVC_NO_CLOCK; an abandoned read changes nothing but the clock and the mode, an abandoned write
completes and sends no reply; a stopped SCLK cuts the open packet. Where the spec leaves a detail open it rests on the
model's choices of log entries 21, 22, 23 and 43. -/
def Obligations.ServicePort : Prop :=
  ∀ s : State, s.Inv → 
    (∀ (a : Word) (m b : Bool) (u : Nat), s.dev ≠ devUnpowered → svcReach.contains a.toNat = true → (s.dev = devAwait ∨ s.dev = devPark → svcEarly.contains a.toNat = true) → Completes (.svcReadRegister a m b u) s fun t =>
      (b = false → t.out = .svcReply (svcFrame (nats (leBytes 4 ((s.svcAt m u).regWord a.toNat).toNat)) ST.OK) :: s.out ∧ t.resp = ST.OK) ∧
      (b = true → t = s.svcAt m u) ∧
      t.regs = (s.svcAt m u).regs) ∧
    (∀ (a : Word) (m : Bool) (u : Nat), s.dev ≠ devUnpowered → a.toNat % 4 = 0 → (svcReach.contains a.toNat = false ∨ ((s.dev = devAwait ∨ s.dev = devPark) ∧ svcEarly.contains a.toNat = false)) → Completes (.svcReadRegister a m false u) s fun t =>
      (t.resp = (if svcReach.contains a.toNat then ST.SVC_NO_CLOCK else ST.SVC_SESSION_NEEDED)) ∧
      t.out = .svcReply (svcFrame (nats (leBytes 4 0)) t.resp) :: s.out ∧
      (s.rootRuns = true → t.getF R.SVC_CMD_ERR_STATUS = t.resp)) ∧
    (∀ (a w : Word) (m b : Bool) (u : Nat), s.dev ≠ devUnpowered → svcReach.contains a.toNat = true → (s.dev = devAwait ∨ s.dev = devPark → svcEarly.contains a.toNat = true) → Completes (.svcWriteRegister a w m b u) s fun t =>
      t.regs = ((s.svcAt m u).writeRecorded .service a.toNat w).regs ∧
      t.resp = ((s.svcAt m u).writeRecorded .service a.toNat w).resp ∧
      t.svc.last = t.resp ∧ t.svc.ofCommit = false ∧
      (t.out = (if b then [] else [Msg.svcReply (svcFrame [] t.resp)]) ++ ((s.svcAt m u).writeRecorded .service a.toNat w).out)) ∧
    (∀ (a w : Word) (m : Bool) (u : Nat), (s.dev = devAwait ∨ s.dev = devRootLock ∨ s.dev = devDramTrain) → a.toNat = R.START_OPT → R.START_OPT_SLOT.get ((w &&& regAccessMask .rw R.START_OPT) ||| (s.getReg R.START_OPT &&& ~~~ regAccessMask .rw R.START_OPT)) ≤ 2 → Completes (.svcWriteRegister a w m false u) s fun t =>
      t.getReg R.START_OPT = (w &&& regAccessMask .rw R.START_OPT) ||| (s.getReg R.START_OPT &&& ~~~ regAccessMask .rw R.START_OPT) ∧
      t.svc.last = ST.OK ∧
      t.out = .svcReply (svcFrame [] ST.OK) :: s.out) ∧
    (∀ (m b : Bool) (u : Nat), s.dev ≠ devUnpowered → Completes (.svcLastStatus m b u) s fun t =>
      (b = false → t.out = .svcReply (svcFrame [] (if !s.svc.ofCommit then s.svc.last else if s.svc.commit.isSome then ST.SVC_BENCH_BUSY else s.svc.outcome)) :: s.out) ∧
      (b = true → t.out = s.out) ∧
      t.svc = s.svc) ∧
    (∀ (o : Word) (l : List Byte) (m b : Bool) (u : Nat), s.rootRuns = true → (s.dev ≠ devDramTrain ∧ s.dev ≠ devBoot) → s.flashLoads = false → s.svc.commit = none → (4 ≤ l.length ∧ l.length ≤ 256 ∧ l.length % 4 = 0) → o.toNat + l.length ≤ 1048576 → Completes (.svcBenchChunk o l m b u) s fun t =>
      t.svc.staging = stagePut s.svc.staging o.toNat l ∧
      t.svc.written = true ∧
      t.svc.last = ST.OK ∧
      (t.out = (if b then [] else [Msg.svcReply (svcFrame [] ST.OK)]) ++ s.out)) ∧
    (∀ (o : Word) (l : List Byte) (m : Bool) (u : Nat), s.dev ≠ devUnpowered → (l.length < 4 ∨ 256 < l.length ∨ l.length % 4 ≠ 0 ∨ 1048576 < o.toNat + l.length ∨ s.rootRuns = false ∨ s.dev = devDramTrain ∨ s.dev = devBoot ∨ s.svc.commit.isSome = true ∨ s.flashLoads = true) → Completes (.svcBenchChunk o l m false u) s fun t =>
      t.svc.staging = s.svc.staging ∧
      t.svc.last = t.resp ∧ t.resp ≠ ST.OK ∧
      t.out = .svcReply (svcFrame [] t.resp) :: s.out) ∧
    (∀ (c m b : Bool) (u : Nat), s.rootRuns = true → (s.dev ≠ devDramTrain ∧ s.dev ≠ devBoot) → s.flashLoads = false → (c = false → s.dev = devLoad ∧ (s.su.benchWait = true ∨ s.su.stopped = true)) → s.svc.commit = none → Completes (.svcBenchCommit c m b u) s fun t =>
      t.svc.commit = some c ∧
      t.svc.ofCommit = true ∧
      (t.out = (if b then [] else [Msg.svcReply (svcFrame [] ST.OK)]) ++ s.out)) ∧
    (∀ (l : List Byte) (m b : Bool) (u : Nat), s.dev ≠ devUnpowered → (1 ≤ l.length ∧ l.length ≤ 1280) → Completes (.svcTunnelIn l m b u) s fun t =>
      (s.svc.inbound = none → t.svc.inbound = some l ∧ t.resp = ST.OK) ∧
      (s.svc.inbound ≠ none → t.svc = s.svc ∧ t.resp = ST.SVC_TUNNEL_FULL) ∧
      (t.out = (if b then [] else [Msg.svcReply (svcFrame [] t.resp)]) ++ s.out)) ∧
    (∀ (m : Bool) (u : Nat), s.dev ≠ devUnpowered → Completes (.svcTunnelOut m false u) s fun t =>
      t.svc.outbound = s.svc.outbound.drop 1 ∧
      (t.out = .svcReply (svcFrame (nats (leBytes 2 (if s.svc.outbound.isEmpty then 0 else 1 + s.freeVal % 1280))) ST.OK) :: (s.svc.outbound.take 1 ++ s.out))) ∧
    (∀ (m : Bool) (u : Nat), s.dev ≠ devUnpowered → Completes (.svcTunnelOut m true u) s fun t =>
      t = s.svcAt m u) ∧
    (∀ (u : Nat), s.rootRuns = true → Completes (.sclkStopMidMessage u) s fun t =>
      t.mtb = max s.mtb u ∧
      t.queues = ((s.advance u).cutPackets 0x71).queues ∧
      t.mem = s.mem)

/-- A protected, well-formed request of an open session that is no repetition reads or writes 1 to 64 registers in ascending
order, makes a ticket or, where the role has no right or the tickets are full, none, reads or deletes a ready result or tells
why not, or observes events, and its response leaves the way it came; a request that is unprotected, replayed, not decrypted,
malformed or for another path, of an unknown session or with a count out of range is answered so and executed by nothing, a
repeated one gets the response it got; an event reaches each observing session and leaves as a notification. Where the spec
leaves a detail open it rests on the model's choices of log entries 21, 22, 23 and 43. -/
def Obligations.CmpRequests : Prop :=
  ∀ s : State, s.Inv → 
    (∀ (n : Fin 8) (mid : Fin 65536) (tun : Bool) (u : Nat) (a : Word) (c : Nat) (v : Session), s.cmpReady n mid tun u = true → Store.find? n.val s.ro.sessions = some v → (0 < c ∧ c ≤ 64) → Completes (.cmpRegRead n mid tun .good a c u) s fun t =>
      State.told s t tun (.cmpReply coapChanged t.resp ((s.cmpAt n v tun u).readWords n a.toNat c).2.2 0 0) ∧
      t.resp = ((s.cmpAt n v tun u).readWords n a.toNat c).2.1 ∧
      t.cmp.answered.getLast?.map (fun x => (x.session, x.mid)) = some (n.val, mid.val)) ∧
    (∀ (n : Fin 8) (mid : Fin 65536) (tun : Bool) (u : Nat) (f : ReqForm) (a : Word) (c : Nat), s.cmpReady n mid tun u = true → ((f ≠ .good ∧ (Store.find? n.val s.ro.sessions).isSome = true) ∨ Store.find? n.val s.ro.sessions = none) → Completes (.cmpRegRead n mid tun f a c u) s fun t =>
      (State.told s t tun (if (Store.find? n.val s.ro.sessions).isNone then .cmpCode 401 else formAnswer f)) ∧
      (tun = false → t.regs = s.regs) ∧
      t.cmp.tickets = s.cmp.tickets) ∧
    (∀ (n : Fin 8) (mid : Fin 65536) (tun : Bool) (u : Nat) (f : ReqForm) (a : Word) (l : List Word), s.cmpReady n mid tun u = true → ((f ≠ .good ∧ (Store.find? n.val s.ro.sessions).isSome = true) ∨ Store.find? n.val s.ro.sessions = none) → Completes (.cmpRegWrite n mid tun f a l u) s fun t =>
      (State.told s t tun (if (Store.find? n.val s.ro.sessions).isNone then .cmpCode 401 else formAnswer f)) ∧
      (tun = false → t.regs = s.regs) ∧
      t.cmp.tickets = s.cmp.tickets) ∧
    (∀ (n : Fin 8) (mid : Fin 65536) (tun : Bool) (u : Nat) (f : ReqForm) (k : Fin 11) (op : Fin 256) (b : KeyBlk), s.cmpReady n mid tun u = true → ((f ≠ .good ∧ (Store.find? n.val s.ro.sessions).isSome = true) ∨ Store.find? n.val s.ro.sessions = none) → Completes (.cmpServiceCall n mid tun f k op b u) s fun t =>
      (State.told s t tun (if (Store.find? n.val s.ro.sessions).isNone then .cmpCode 401 else formAnswer f)) ∧
      (tun = false → t.regs = s.regs) ∧
      t.cmp.tickets = s.cmp.tickets) ∧
    (∀ (n : Fin 8) (mid : Fin 65536) (tun : Bool) (u : Nat) (f : ReqForm) (k : Word), s.cmpReady n mid tun u = true → ((f ≠ .good ∧ (Store.find? n.val s.ro.sessions).isSome = true) ∨ Store.find? n.val s.ro.sessions = none) → Completes (.cmpResultGet n mid tun f k u) s fun t =>
      (State.told s t tun (if (Store.find? n.val s.ro.sessions).isNone then .cmpCode 401 else formAnswer f)) ∧
      (tun = false → t.regs = s.regs) ∧
      t.cmp.tickets = s.cmp.tickets) ∧
    (∀ (n : Fin 8) (mid : Fin 65536) (tun : Bool) (u : Nat) (f : ReqForm) (k : Word), s.cmpReady n mid tun u = true → ((f ≠ .good ∧ (Store.find? n.val s.ro.sessions).isSome = true) ∨ Store.find? n.val s.ro.sessions = none) → Completes (.cmpResultDelete n mid tun f k u) s fun t =>
      (State.told s t tun (if (Store.find? n.val s.ro.sessions).isNone then .cmpCode 401 else formAnswer f)) ∧
      (tun = false → t.regs = s.regs) ∧
      t.cmp.tickets = s.cmp.tickets) ∧
    (∀ (n : Fin 8) (mid : Fin 65536) (tun : Bool) (u : Nat) (f : ReqForm), s.cmpReady n mid tun u = true → ((f ≠ .good ∧ (Store.find? n.val s.ro.sessions).isSome = true) ∨ Store.find? n.val s.ro.sessions = none) → Completes (.cmpEventObserve n mid tun f u) s fun t =>
      (State.told s t tun (if (Store.find? n.val s.ro.sessions).isNone then .cmpCode 401 else formAnswer f)) ∧
      (tun = false → t.regs = s.regs) ∧
      t.cmp.tickets = s.cmp.tickets) ∧
    (∀ (n : Fin 8) (mid : Fin 65536) (u : Nat) (a : Word) (c : Nat) (v : Session) (x : Answered), s.firmwareUp = true → Store.find? n.val s.ro.sessions = some v → (s.cmp.answered.filter (fun a => decide (max s.mtb u < a.at_ + exchangeLife))).find? (fun a => a.session == n.val && a.mid == mid.val) = some x → Completes (.cmpRegRead n mid false .good a c u) s fun t =>
      t.out = x.reply ++ s.out ∧
      t.regs = s.regs) ∧
    (∀ (n : Fin 8) (mid : Fin 65536) (tun : Bool) (u : Nat) (a : Word) (c : Nat) (v : Session), s.cmpReady n mid tun u = true → Store.find? n.val s.ro.sessions = some v → (c = 0 ∨ 64 < c) → Completes (.cmpRegRead n mid tun .good a c u) s fun t =>
      State.told s t tun (.cmpReply coapChanged ST.CMP_BAD_REQUEST [] 0 0)) ∧
    (∀ (n : Fin 8) (mid : Fin 65536) (tun : Bool) (u : Nat) (a : Word) (l : List Word) (v : Session), s.cmpReady n mid tun u = true → Store.find? n.val s.ro.sessions = some v → (1 ≤ l.length ∧ l.length ≤ 64) → Completes (.cmpRegWrite n mid tun .good a l u) s fun t =>
      (tun = false → t.regs = ((s.cmpAt n v tun u).writeWords n a.toNat 0 l).1.regs) ∧
      t.resp = ((s.cmpAt n v tun u).writeWords n a.toNat 0 l).1.resp ∧
      (t.replied tun (.cmpReply coapChanged t.resp [] 0 (match ((s.cmpAt n v tun u).writeWords n a.toNat 0 l).2 with | some k => k + 1 | none => 0)))) ∧
    (∀ (n : Fin 8) (mid : Fin 65536) (tun : Bool) (u : Nat) (a : Word) (l : List Word) (v : Session), s.cmpReady n mid tun u = true → Store.find? n.val s.ro.sessions = some v → (l.length = 0 ∨ 64 < l.length) → Completes (.cmpRegWrite n mid tun .good a l u) s fun t =>
      State.told s t tun (.cmpReply coapChanged ST.CMP_BAD_REQUEST [] 0 0)) ∧
    (∀ (n : Fin 8) (mid : Fin 65536) (tun : Bool) (u : Nat) (k : Fin 11) (op : Fin 256) (b : KeyBlk) (v : Session), s.cmpReady n mid tun u = true → Store.find? n.val s.ro.sessions = some v → s.mayCall v k op = true → s.cmp.tickets.length < 1024 → (s.cmp.tickets.filter (fun (x : Nat × Ticket) => x.2.role == v.role)).length < 256 → (k : Nat) ≠ svcKey → svcHas k op = true → Completes (.cmpServiceCall n mid tun .good k op b u) s fun t =>
      t.cmp.tickets = Store.put s.cmp.next { role := v.role, svc := k, op := op, cred := lead4 v.digest } s.cmp.tickets ∧
      t.cmp.next = s.cmp.next + 1 ∧
      State.told s t tun (.cmpReply coapChanged ST.OK [] 0 s.cmp.next) ∧
      (tun = false → t.regs = s.regs)) ∧
    (∀ (n : Fin 8) (mid : Fin 65536) (tun : Bool) (u : Nat) (k : Fin 11) (op : Fin 256) (b : KeyBlk) (v : Session), s.cmpReady n mid tun u = true → Store.find? n.val s.ro.sessions = some v → s.mayCall v k op = true → s.cmp.tickets.length < 1024 → (s.cmp.tickets.filter (fun (x : Nat × Ticket) => x.2.role == v.role)).length < 256 → svcHas k op = false → Completes (.cmpServiceCall n mid tun .good k op b u) s fun t =>
      (Store.find? s.cmp.next t.cmp.tickets).map (fun x => (x.ready, x.status)) = some (true, svcArgWord k) ∧
      t.cmp.next = s.cmp.next + 1 ∧
      State.told s t tun (.cmpReply coapChanged ST.OK [] 0 s.cmp.next)) ∧
    (∀ (n : Fin 8) (mid : Fin 65536) (tun : Bool) (u : Nat) (k : Fin 11) (op : Fin 256) (b : KeyBlk) (v : Session), s.cmpReady n mid tun u = true → Store.find? n.val s.ro.sessions = some v → (s.mayCall v k op = false ∨ 1024 ≤ s.cmp.tickets.length ∨ 256 ≤ (s.cmp.tickets.filter (fun (x : Nat × Ticket) => x.2.role == v.role)).length) → Completes (.cmpServiceCall n mid tun .good k op b u) s fun t =>
      t.cmp.tickets = s.cmp.tickets ∧
      t.cmp.next = s.cmp.next ∧
      (State.told s t tun (.cmpReply coapChanged (if s.mayCall v k op then ST.CMP_TICKETS_FULL else ST.ROLE_RIGHTS) [] 0 0))) ∧
    (∀ (n : Fin 8) (mid : Fin 65536) (tun : Bool) (u : Nat) (op : Fin 256) (b : KeyBlk) (v : Session), s.cmpReady n mid tun u = true → Store.find? n.val s.ro.sessions = some v → s.cmp.tickets.length < 1024 → (s.cmp.tickets.filter (fun (x : Nat × Ticket) => x.2.role == v.role)).length < 256 → s.ky.fifo.length < 16 → Completes (.cmpServiceCall n mid tun .good 7 op b u) s fun t =>
      t.ky.fifo = s.ky.fifo ++ [.call s.cmp.next (callBlk v.role op b)] ∧
      State.told s t tun (.cmpReply coapChanged ST.OK [] 0 s.cmp.next) ∧
      (tun = false → t.regs = s.regs)) ∧
    (∀ (n : Fin 8) (mid : Fin 65536) (tun : Bool) (u : Nat) (op : Fin 256) (b : KeyBlk) (v : Session), s.cmpReady n mid tun u = true → Store.find? n.val s.ro.sessions = some v → s.cmp.tickets.length < 1024 → (s.cmp.tickets.filter (fun (x : Nat × Ticket) => x.2.role == v.role)).length < 256 → 16 ≤ s.ky.fifo.length → Completes (.cmpServiceCall n mid tun .good 7 op b u) s fun t =>
      t.ky.fifo = s.ky.fifo ∧
      (Store.find? s.cmp.next t.cmp.tickets).map (fun x => (x.ready, x.status)) = some (true, ST.KEY_CMD_FULL)) ∧
    (∀ (n : Fin 8) (mid : Fin 65536) (tun : Bool) (u : Nat) (k : Word) (v : Session) (r : Ticket), s.cmpReady n mid tun u = true → Store.find? n.val s.ro.sessions = some v → Store.find? k.toNat s.cmp.tickets = some r → r.role = v.role → r.ready = true → Completes (.cmpResultGet n mid tun .good k u) s fun t =>
      t.cmp.tickets = Store.put k.toNat { r with read := true } s.cmp.tickets ∧
      State.told s t tun (.cmpResult r.status (resultFlags r) r.result) ∧
      (tun = false → t.regs = s.regs)) ∧
    (∀ (n : Fin 8) (mid : Fin 65536) (tun : Bool) (u : Nat) (k : Word) (v : Session), s.cmpReady n mid tun u = true → Store.find? n.val s.ro.sessions = some v → (match Store.find? k.toNat s.cmp.tickets with | some r => r.role == v.role && r.ready | none => false) = false → Completes (.cmpResultGet n mid tun .good k u) s fun t =>
      t.cmp.tickets = s.cmp.tickets ∧
      (State.told s t tun (.cmpReply coapContent (match Store.find? k.toNat s.cmp.tickets with | none => ST.CMP_TICKET_UNKNOWN | some r => if r.role ≠ v.role then ST.CMP_TICKET_ROLE else ST.RETRY_NOT_READY) [] 0 0))) ∧
    (∀ (n : Fin 8) (mid : Fin 65536) (tun : Bool) (u : Nat) (k : Word) (v : Session) (r : Ticket), s.cmpReady n mid tun u = true → Store.find? n.val s.ro.sessions = some v → Store.find? k.toNat s.cmp.tickets = some r → r.role = v.role → r.ready = true → Completes (.cmpResultDelete n mid tun .good k u) s fun t =>
      t.cmp.tickets = Store.del k.toNat s.cmp.tickets ∧
      State.told s t tun (.cmpReply coapChanged ST.OK [] 0 0) ∧
      (tun = false → t.regs = s.regs)) ∧
    (∀ (n : Fin 8) (mid : Fin 65536) (tun : Bool) (u : Nat) (k : Word) (v : Session), s.cmpReady n mid tun u = true → Store.find? n.val s.ro.sessions = some v → (match Store.find? k.toNat s.cmp.tickets with | some r => r.role == v.role && r.ready | none => false) = false → Completes (.cmpResultDelete n mid tun .good k u) s fun t =>
      t.cmp.tickets = s.cmp.tickets ∧
      (State.told s t tun (.cmpReply coapChanged (match Store.find? k.toNat s.cmp.tickets with | none => ST.CMP_TICKET_UNKNOWN | some r => if r.role ≠ v.role then ST.CMP_TICKET_ROLE else ST.CMP_ACK_NOT_READY) [] 0 0))) ∧
    (∀ (n : Fin 8) (mid : Fin 65536) (tun : Bool) (u : Nat) (v : Session), s.cmpReady n mid tun u = true → Store.find? n.val s.ro.sessions = some v → Completes (.cmpEventObserve n mid tun .good u) s fun t =>
      (Store.find? n.val t.ro.sessions).map (fun x => (x.observes, x.tunnel, x.lastReq)) = some (true, tun, max s.mtb u) ∧
      State.told s t tun (.cmpReply coapContent ST.OK [] 0 v.seq) ∧
      (tun = false → t.regs = s.regs)) ∧
    (∀ (u : Nat) (x : Nat × Nat × Nat) (l : List (Nat × Nat × Nat)), s.firmwareUp = true → s.notes = x :: l → Completes (.cmpEventNotify none u) s fun t =>
      t.notes = l ∧
      t.ro.sessions = s.ro.sessions.map (fun (y : Nat × Session) => (y.1, y.2.take (eventOfNote x))) ∧
      t.out = s.out ∧
      t.regs = s.regs) ∧
    (∀ (n : Fin 8) (u : Nat) (v : Session) (e : Event) (l : List Event), s.firmwareUp = true → Store.find? n.val s.noteOut.ro.sessions = some v → v.queue = e :: l → Completes (.cmpEventNotify (some n) u) s fun t =>
      t.notes = s.notes.drop 1 ∧
      (Store.find? n.val t.ro.sessions).map (fun x => (x.queue, x.lost)) = some (l, 0) ∧
      (v.tunnel = false → t.out = .notify n (if v.lost = 0 then ST.OK else ST.CMP_EVENT_LOST) e v.lost :: s.out ∧ t.regs = s.regs) ∧
      (v.tunnel = true → t.out = s.out ∧ t.svc.outbound.getLast? = some (.notify n (if v.lost = 0 then ST.OK else ST.CMP_EVENT_LOST) e v.lost)))

/-- A hello from a known credential, with fewer than four handshakes open, opens one, from an unknown one or with four it
does not; a finish in time with a good signature opens a session in the lowest free slot, whose key and Master Secret come
from the decapsulated secret and the transcript, one with a bad signature or too late fails the handshake; a delete or an
idle expiry ends a session and zeroes its slot, and a handshake without step 3 fails after 10 s; enrolment adds and stores a
record, or is refused where the digest is enrolled or the store full; revocation removes it with its sessions. Where the spec
leaves a detail open it rests on the model's choices of log entries 21, 22, 23 and 43. -/
def Obligations.SessionsAndCredentials : Prop :=
  ∀ s : State, s.Inv → 
    (∀ (mid : Fin 65536) (tun : Bool) (u : Nat) (f : ReqForm) (d : BitVec 256) (o : BitVec 128) (c : Cred), s.cmpReady (16 + d.toNat) mid tun u = true → (f = .good ∨ f = .unprotected ∨ f = .noDecrypt) → s.credOf d.toNat = some c → s.ro.shakes.length < 4 → Completes (.sessionHello d o mid tun f u) s fun t =>
      t.ro.shakes.map (fun h => (h.digest, h.nonce, h.sentAt)) = s.ro.shakes.map (fun h => (h.digest, h.nonce, h.sentAt)) ++ [(d.toNat, o.toNat, max s.mtb u)] ∧
      t.ro.sessions = s.ro.sessions ∧
      t.resp = ST.OK) ∧
    (∀ (mid : Fin 65536) (tun : Bool) (u : Nat) (f : ReqForm) (d : BitVec 256) (o : BitVec 128), s.cmpReady (16 + d.toNat) mid tun u = true → (f = .good ∨ f = .unprotected ∨ f = .noDecrypt) → (s.credOf d.toNat = none ∨ 4 ≤ s.ro.shakes.length) → Completes (.sessionHello d o mid tun f u) s fun t =>
      t.ro.shakes = s.ro.shakes ∧
      t.ro.sessions = s.ro.sessions ∧
      (State.told s t tun (.cmpReply coapChanged (if (s.credOf d.toNat).isNone then ST.ROLE_UNKNOWN_CRED else ST.ROLE_HANDSHAKES_BUSY) [] 0 0))) ∧
    (∀ (mid : Fin 65536) (tun : Bool) (u : Nat) (f : ReqForm) (d : BitVec 256) (o : BitVec 128), s.cmpReady (16 + d.toNat) mid tun u = true → (f = .replayed ∨ f = .badCbor ∨ f = .badPath) → Completes (.sessionHello d o mid tun f u) s fun t =>
      t.ro.shakes = s.ro.shakes ∧
      State.told s t tun (formAnswer f)) ∧
    (∀ (mid : Fin 65536) (tun : Bool) (u : Nat) (f : ReqForm) (d : BitVec 256) (ct : List Byte) (sig : Nat) (h : Handshake) (c : Cred) (n : Nat), s.cmpReady (16 + d.toNat) mid tun u = true → (f = .good ∨ f = .unprotected ∨ f = .noDecrypt) → s.ro.shakes.find? (fun h => h.digest == d.toNat) = some h → s.credOf d.toNat = some c → max s.mtb u ≤ h.sentAt + 10 * secCyc → s.freeSession = some n → s.auditRoom = true → Completes (.sessionFinish d ct sig mid tun f u) s fun t =>
      (Config.verifies 3 c.pubKey (ascii "SVC4820 session") [Config.sha3 (transcript h (Config.publicKey 5 h.secret) (nats ct))] sig = true → (Store.find? n t.ro.sessions).map (fun x => (x.role, x.digest, x.lastReq, x.master)) = some (c.role, c.digest, max s.mtb u, Config.kmac (Config.decaps h.secret (beNat ct)) (ascii "oscore" ++ octs 32 (Config.sha3 (transcript h (Config.publicKey 5 h.secret) (nats ct)))) 128 (ascii "SVC4820 derive")) ∧ (t.keySlot n).map (·.mat) = some (Config.decaps h.secret (beNat ct)) ∧ t.ro.shakes = s.ro.shakes.erase h ∧ State.told s t tun (.sessionOpen n)) ∧
      (Config.verifies 3 c.pubKey (ascii "SVC4820 session") [Config.sha3 (transcript h (Config.publicKey 5 h.secret) (nats ct))] sig = false → t.ro.sessions = s.ro.sessions ∧ t.ro.shakes = s.ro.shakes.erase h ∧ t.isSet R.ROLE_EVENT_SESSION_FAIL = true ∧ State.told s t tun (.cmpReply coapChanged ST.ROLE_HANDSHAKE [] 0 0))) ∧
    (∀ (mid : Fin 65536) (tun : Bool) (u : Nat) (f : ReqForm) (d : BitVec 256) (ct : List Byte) (sig : Nat) (h : Handshake), s.cmpReady (16 + d.toNat) mid tun u = true → (f = .good ∨ f = .unprotected ∨ f = .noDecrypt) → s.ro.shakes.find? (fun h => h.digest == d.toNat) = some h → (h.sentAt + 10 * secCyc < max s.mtb u ∨ s.credOf d.toNat = none) → Completes (.sessionFinish d ct sig mid tun f u) s fun t =>
      t.ro.sessions = s.ro.sessions ∧
      t.ro.shakes = s.ro.shakes.erase h ∧
      t.isSet R.ROLE_EVENT_SESSION_FAIL = true ∧
      State.told s t tun (.cmpReply coapChanged ST.ROLE_HANDSHAKE [] 0 0)) ∧
    (∀ (mid : Fin 65536) (tun : Bool) (u : Nat) (f : ReqForm) (d : BitVec 256) (ct : List Byte) (sig : Nat), s.cmpReady (16 + d.toNat) mid tun u = true → (f = .replayed ∨ f = .badCbor ∨ f = .badPath ∨ s.ro.shakes.find? (fun h => h.digest == d.toNat) = none) → Completes (.sessionFinish d ct sig mid tun f u) s fun t =>
      t.ro.sessions = s.ro.sessions ∧
      t.ro.shakes = s.ro.shakes ∧
      (State.told s t tun (if f = .good ∨ f = .unprotected ∨ f = .noDecrypt then .cmpReply coapChanged ST.ROLE_HANDSHAKE [] 0 0 else formAnswer f))) ∧
    (∀ (mid : Fin 65536) (tun : Bool) (u : Nat) (f : ReqForm) (n : Fin 8), s.cmpReady (8 + n.val) mid tun u = true → (f = .good ∨ f = .unprotected ∨ f = .noDecrypt) → (Store.find? n.val s.ro.sessions).isSome = true → Completes (.sessionDelete n mid tun f u) s fun t =>
      t.ro.sessions = Store.del n.val s.ro.sessions ∧
      t.keySlot n = none ∧
      State.told s t tun (.cmpReply coapChanged ST.OK [] 0 0)) ∧
    (∀ (mid : Fin 65536) (tun : Bool) (u : Nat) (f : ReqForm) (n : Fin 8), s.cmpReady (8 + n.val) mid tun u = true → (f = .replayed ∨ f = .badCbor ∨ f = .badPath) → Completes (.sessionDelete n mid tun f u) s fun t =>
      t.ro.sessions = s.ro.sessions ∧
      State.told s t tun (formAnswer f)) ∧
    (∀ (n : Fin 8) (u : Nat) (v : Session), Store.find? n.val s.ro.sessions = some v → v.lastReq + s.getF R.ROLE_CFG_IDLE_S * secCyc ≤ max s.mtb u → Completes (.sessionIdleExpiry n u) s fun t =>
      t.ro.sessions = Store.del n.val s.ro.sessions ∧
      t.keySlot n = none ∧
      t.out = s.out) ∧
    (∀ (u : Nat) (h : Handshake), s.ro.shakes.find? (fun h => decide (h.sentAt + 10 * secCyc ≤ max s.mtb u)) = some h → Completes (.handshakeTimeout u) s fun t =>
      t.ro.shakes = s.ro.shakes.erase h ∧
      t.isSet R.ROLE_EVENT_SESSION_FAIL = true ∧
      t.resp = ST.ROLE_HANDSHAKE ∧
      t.ro.sessions = s.ro.sessions) ∧
    (∀ (k : Nat) (role : Fin 4) (key : Nat) (r : Ticket), s.openCall k svcRole 2 = some r → Store.find? k s.cmp.tickets = some r → ((r.role = 2 ∨ (r.role = 3 ∧ (role : Nat) = 3)) ∧ (role : Nat) ≠ 0) → s.auditRoom = true → Completes (.roleEnrol k role key) s fun t =>
      (s.credOf (Config.sha3 (octs 1312 key)) = none → s.enrolled.length < 16 → t.ro.creds = s.ro.creds ++ [⟨role, Config.sha3 (octs 1312 key), key, false⟩] ∧ t.ro.stored = some t.ro.creds ∧ t.isSet R.ROLE_EVENT_CRED_CHANGE = true ∧ (Store.find? k t.cmp.tickets).map (fun x => (x.ready, x.status)) = some (true, ST.OK)) ∧
      (s.credOf (Config.sha3 (octs 1312 key)) = none → 16 ≤ s.enrolled.length → t.ro.creds = s.ro.creds ∧ (Store.find? k t.cmp.tickets).map (fun x => (x.ready, x.status)) = some (true, ST.ROLE_STORE_FULL)) ∧
      (s.credOf (Config.sha3 (octs 1312 key)) ≠ none → t.ro.creds = s.ro.creds ∧ (Store.find? k t.cmp.tickets).map (fun x => (x.ready, x.status)) = some (true, ST.ROLE_EXISTS))) ∧
    (∀ (k : Nat) (d : BitVec 256) (r : Ticket) (c : Cred), s.openCall k svcRole 3 = some r → Store.find? k s.cmp.tickets = some r → (r.role = 2 ∨ (r.role = 3 ∧ c.role = 3)) → s.credOf d.toNat = some c → c.pricking = false → (c.role = 2 → 1 < (s.ro.creds.filter (fun v => v.role == 2)).length) → s.auditRoom = true → Completes (.roleRevoke k d) s fun t =>
      t.ro.creds = s.ro.creds.filter (fun v => v.digest != d.toNat) ∧
      t.ro.stored = some t.ro.creds ∧
      t.isSet R.ROLE_EVENT_CRED_CHANGE = true ∧
      t.ro.sessions.all (fun x => x.2.digest != d.toNat) = true ∧
      s.ro.sessions.all (fun x => x.2.digest != d.toNat || (t.keySlot x.1).isNone) = true ∧
      (Store.find? k t.cmp.tickets).map (fun x => (x.ready, x.status)) = some (true, ST.OK))

/-- Release, with the part's EUI-64 in SERVICE under an owner and room for the checkpoint, erases the key store and the
enrolled records, sets OWNER RELEASED and asks for a warm reset, with another EUI-64 it changes nothing; a sampler visit is
counted and asks for one; reissue erases the audit area and the owner; audit calls read the records of a range, take a
checkpoint and tell the newest numbers; a write of CKPT takes a checkpoint; a full page buffer is programmed once the pages
it displaces are covered. Where the spec leaves a detail open it rests on the model's choices of log entries 21, 22, 23 and
43. -/
def Obligations.ReleaseAndAudit : Prop :=
  ∀ s : State, s.Inv → 
    (∀ (k : Nat) (e : BitVec 64) (r : Ticket), s.openCall k svcRole 4 = some r → Store.find? k s.cmp.tickets = some r → s.dev = devService → s.ownerState = 1 → (s.checkpoint?).isSome = true → Completes (.roleRelease k e) s fun t =>
      (e.toNat = Config.eui64 → t.ky.root = 0 ∧ t.ky.area0 = {} ∧ t.ky.area1 = {} ∧ t.ro.creds = s.ro.creds.filter (fun c => c.pricking) ∧ t.getF R.TAMPER_STATE_OWNER = 3 ∧ t.isSet R.ROLE_EVENT_RELEASE = true ∧ t.su.warm.isSome = true) ∧
      (e.toNat ≠ Config.eui64 → t.ky = s.ky ∧ t.ro.creds = s.ro.creds ∧ t.resp = ST.ROLE_CONFIRM)) ∧
    (∀ (k : Nat) (r : Ticket), s.openCall k svcRole 6 = some r → s.dev = devReturned → s.ro.visits < 16 → s.auditRoom = true → Completes (.samplerEntry k) s fun t =>
      t.ro.visits = s.ro.visits + 1 ∧
      t.ro.sampler = true ∧
      t.su.warm.isSome = true ∧
      t.resp = ST.OK) ∧
    (∀ (k : Nat) (r : Ticket), s.openCall k svcRole 7 = some r → Store.find? k s.cmp.tickets = some r → s.dev = devReturned → s.auditRoom = true → Completes (.roleReissue k) s fun t =>
      t.ro.seq = 0 ∧ t.ro.pages = 0 ∧ t.ro.cur = [] ∧ t.ro.closed = [] ∧
      t.getF R.TAMPER_STATE_OWNER = 0 ∧
      (Store.find? k t.cmp.tickets).map (fun x => (x.ready, x.status)) = some (true, ST.OK)) ∧
    (∀ (k a n : Nat) (r : Ticket), s.openCall k svcAudit 1 = some r → Store.find? k s.cmp.tickets = some r → (0 < n ∧ n ≤ 64) → Completes (.auditRead k a n) s fun t =>
      Store.find? k t.cmp.tickets = some { r with ready := true, status := ST.OK, result := [(20, ((s.auditPages.flatMap pageRecs).filter (fun (x : List Byte × List Byte) => decide (a ≤ leNat (x.1.take 4)) && decide (leNat (x.1.take 4) < a + n))).flatMap (fun x => nats x.1)), (21, ((s.auditPages.flatMap pageRecs).filter (fun (x : List Byte × List Byte) => decide (a ≤ leNat (x.1.take 4)) && decide (leNat (x.1.take 4) < a + n))).flatMap (fun x => nats x.2))] } ∧
      t.regs = s.regs ∧
      t.ro = s.ro) ∧
    (∀ (k : Nat) (r : Ticket), s.openCall k svcAudit 2 = some r → Store.find? k s.cmp.tickets = some r → s.ro.closed = [] → s.ro.due = false → (s.ro.cur.length < 63 ∨ s.ro.sincePgs + 1 < s.getF R.ROLE_CFG_CKPT_PAGES) → Completes (.auditCheckpoint k) s fun t =>
      t.ro.ckptSeq = t.ro.seq ∧
      t.ro.cur = [] ∧
      t.isSet R.ROLE_EVENT_CKPT = true ∧
      (Store.find? k t.cmp.tickets).map (fun x => (x.ready, x.status)) = some (true, ST.OK)) ∧
    (∀ (k : Nat) (r : Ticket), s.openCall k svcAudit 3 = some r → Store.find? k s.cmp.tickets = some r → Completes (.auditHeadRead k) s fun t =>
      Store.find? k t.cmp.tickets = some { r with ready := true, status := ST.OK, result := [(20, [s.ro.seq]), (21, [s.ro.ckptSeq])] } ∧
      t.regs = s.regs ∧
      t.ro = s.ro) ∧
    (s.ro.closed = [] → s.ro.due = false → (s.ro.cur.length < 63 ∨ s.ro.sincePgs + 1 < s.getF R.ROLE_CFG_CKPT_PAGES) → Completes .roleCkptWrite s fun t =>
      t.ro.ckptSeq = t.ro.seq ∧
      t.isSet R.ROLE_EVENT_CKPT = true ∧
      t.resp = ST.OK) ∧
    (∀ (p : List Byte) (l : List (List Byte)), s.ro.closed = p :: l → (128 ≤ s.ro.pages → s.ro.pages % 64 = 0 → s.ro.pages - 65 < s.ro.covered) → s.ro.due = false → Completes .auditPageProgram s fun t =>
      t.ro.closed = l ∧
      t.ro.pages = s.ro.pages + 1 ∧
      (t.ro.covered = (if p.getD 4 0 = 10 then s.ro.pages + 1 else s.ro.covered)) ∧
      (128 ≤ s.ro.pages → s.ro.pages % 64 = 0 → t.ro.oldest = s.ro.pages - 64 ∧ t.isSet R.ROLE_EVENT_AUDIT_WRAP = true) ∧
      t.mem = s.mem)

/-- On a port that carries frames, over a transport of its profile, an Announce of the sender that the BMCA chooses gives a
domain its grandmaster, port and transport, and ACQUIRING with PASS 0 where it listened or the grandmaster is another; one
that it does not choose does nothing. Of a domain with a time transmitter, on its port: a two-step Sync waits for its
Follow_Up; a one-step Sync, and the Follow_Up of a two-step one, give the offset, arrival less origin less delay less
asymmetry; the response to its last request gives the first mean path delay, and a request leaves with its departure stamp,
not sooner than the transmitter's interval allows. A Pdelay_Req is answered under peer delay, with the turnaround in it or
after it. A message that the domain does not take changes nothing but the time base. A management message is counted, a
signalling one ignored. A lost domain listens again with its count of losses one up. FREEZE_S without a reference leaves the
frozen domain LOCKED. Where the spec leaves a detail open it rests on the model's choices of log entries 19 and 34. -/
def Obligations.PtpMessages : Prop :=
  ∀ s : State, s.Inv → 
    (∀ (d p : Fin 2) (v : PtpVia) (g : BitVec 64) (u : Nat), s.domState (d + 1) ≠ 0 → s.ptpHears (d + 1) p v = true → Completes (.ptpAnnounceRx d p v g true u) s fun t =>
      t.getF (R.TIME_DOM_GM_LO_GM d) = idLo g.toNat ∧
      t.getF (R.TIME_DOM_GM_HI_GM d) = idHi g.toNat ∧
      t.getF (R.TIME_DOM_STAT_PORT d) = p ∧
      t.isSet (R.TIME_DOM_STAT_TRANSPORT d) = (v == .udp6) ∧
      (s.domState (d + 1) = 1 ∨ s.getF (R.TIME_DOM_GM_LO_GM d) ≠ idLo g.toNat ∨ s.getF (R.TIME_DOM_GM_HI_GM d) ≠ idHi g.toNat → t.domState (d + 1) = 2 ∧ t.getF (R.TIME_DOM_STAT_PASS d) = 0) ∧
      t.mtb = max s.mtb u) ∧
    (∀ (d p : Fin 2) (v : PtpVia) (g : BitVec 64) (c : Bool) (u : Nat), (s.domState (d + 1) = 0 ∨ c = false ∨ s.ptpHears (d + 1) p v = false) → Completes (.ptpAnnounceRx d p v g c u) s fun t =>
      t = s.advance u) ∧
    (∀ (d p : Fin 2) (v : PtpVia) (x : Int) (u : Nat), s.ptpTakes (d + 1) p v = true → Completes (.ptpSyncRx d p v true x u) s fun t =>
      (t.domain (d + 1)).syncAt = some ((s.advance u).rxStamp p u) ∧
      t.isSet (R.TIME_DOM_STAT_TWO_STEP d) = true ∧
      t.domState (d + 1) = s.domState (d + 1)) ∧
    (∀ (d p : Fin 2) (v : PtpVia) (x y : Int) (u : Nat), s.ptpTakes (d + 1) p v = true → y = (s.advance u).rxStamp p u - x - ((s.domDelay (d + 1)).getD 0) - signed 32 (s.getF (R.TIME_DOM_ASYM_ASYM d)) → Completes (.ptpSyncRx d p v false x u) s fun t =>
      t.domOffset (d + 1) = some y ∧
      (-2147483648 < y ∧ y < 2147483648 → t.getF (R.TIME_DOM_OFFSET_V d) = unsigned 32 y) ∧
      t.isSet (R.TIME_DOM_STAT_TWO_STEP d) = false ∧
      t.mem = s.mem) ∧
    (∀ (d p : Fin 2) (v : PtpVia) (b : Bool) (x : Int) (u : Nat), s.ptpTakes (d + 1) p v = false → Completes (.ptpSyncRx d p v b x u) s fun t =>
      t = s.advance u) ∧
    (∀ (d p : Fin 2) (v : PtpVia) (x y z : Int), s.ptpTakes (d + 1) p v = true → (s.domain (d + 1)).syncAt = some z → y = z - x - ((s.domDelay (d + 1)).getD 0) - signed 32 (s.getF (R.TIME_DOM_ASYM_ASYM d)) → Completes (.ptpFollowUpRx d p v x) s fun t =>
      t.domOffset (d + 1) = some y ∧
      (-2147483648 < y ∧ y < 2147483648 → t.getF (R.TIME_DOM_OFFSET_V d) = unsigned 32 y) ∧
      (s.domState (d + 1) = 2 → (t.domain (d + 1)).syncAt = none ∧ (t.domain (d + 1)).rawMs = some (z - x))) ∧
    (∀ (d p : Fin 2) (v : PtpVia) (x : Int), (s.ptpTakes (d + 1) p v = false ∨ (s.domain (d + 1)).syncAt = none) → Completes (.ptpFollowUpRx d p v x) s fun t =>
      t = s) ∧
    (∀ (d p : Fin 2) (v : PtpVia) (x y z : Int) (i : Fin 256), s.ptpTakes (d + 1) p v = true → s.isSet (R.TIME_DOM_STAT_DELAY d) = false → (s.domain (d + 1)).rawMs = some y → (s.domain (d + 1)).reqAt = some z → Completes (.ptpDelayRespRx d p v x i) s fun t =>
      (s.domDelay (d + 1) = none ∧ -2147483648 < (y + (x - z)) / 2 ∧ (y + (x - z)) / 2 < 2147483648 → t.getF (R.TIME_DOM_DELAY_V d) = unsigned 32 ((y + (x - z)) / 2)) ∧
      (t.domain (d + 1)).reqAt = none ∧
      (t.domain (d + 1)).interval = some (signed 8 i) ∧
      t.mem = s.mem) ∧
    (∀ (p : Fin 2) (v : PtpVia) (a u : Nat), ((s.domState 1 ≠ 0 ∧ s.isSet (R.TIME_DOM_STAT_DELAY 0) = true ∧ s.ptpHears 1 p v = true) ∨ (s.domState 2 ≠ 0 ∧ s.isSet (R.TIME_DOM_STAT_DELAY 1) = true ∧ s.ptpHears 2 p v = true)) → Completes (.ptpPdelayReqRx p v a u) s fun t =>
      (s.isSet R.TIME_CFG_ONE_STEP = true → t.out = .pdelayResp p true ((s.advance u).txStamp p u - (s.advance u).rxStamp p a) (if v == .udp6 then some (udpPad (correctionWords ((s.advance u).txStamp p u - (s.advance u).rxStamp p a))) else none) :: s.out) ∧
      (s.isSet R.TIME_CFG_ONE_STEP = false → t.out = .pdelayFollowUp p ((s.advance u).txStamp p u - (s.advance u).rxStamp p a) :: .pdelayResp p false 0 none :: s.out) ∧
      t.regs = s.regs ∧
      t.mtb = max s.mtb u) ∧
    (∀ (d p : Fin 2) (v : PtpVia) (x z : Int) (u : Nat), s.ptpTakes (d + 1) p v = true → s.isSet (R.TIME_DOM_STAT_DELAY d) = true → (s.domain (d + 1)).reqAt = some z → Completes (.ptpPdelayRespRx d p v x u) s fun t =>
      (s.domDelay (d + 1) = none ∧ -2147483648 < ((s.advance u).rxStamp p u - z - x) / 2 ∧ ((s.advance u).rxStamp p u - z - x) / 2 < 2147483648 → t.getF (R.TIME_DOM_DELAY_V d) = unsigned 32 (((s.advance u).rxStamp p u - z - x) / 2)) ∧
      (t.domain (d + 1)).reqAt = none ∧
      t.mtb = max s.mtb u) ∧
    (∀ (d : Fin 2) (u : Nat) (a : Int), 2 ≤ s.domState (d + 1) → s.uplCarries (s.getF (R.TIME_DOM_STAT_PORT d)) = true → (s.domain (d + 1)).sentAt.all (fun x => decide (x + (s.domain (d + 1)).gap ≤ max s.mtb u)) = true → a = (s.advance u).txStamp (s.getF (R.TIME_DOM_STAT_PORT d)) u → Completes (.ptpDelayReqSend d u) s fun t =>
      (t.domain (d + 1)).reqAt = some a ∧
      (t.domain (d + 1)).sentAt = some (max s.mtb u) ∧
      (t.out = .delayReq (s.getF (R.TIME_DOM_STAT_PORT d)) (s.isSet (R.TIME_DOM_STAT_DELAY d)) a (if s.isSet (R.TIME_DOM_STAT_TRANSPORT d) then some (udpPad (stampWords a)) else none) :: s.out) ∧
      t.regs = s.regs) ∧
    (∀ (d : Fin 2) (u a : Nat), (s.domState (d + 1) < 2 ∨ s.uplCarries (s.getF (R.TIME_DOM_STAT_PORT d)) = false ∨ ((s.domain (d + 1)).sentAt = some a ∧ max s.mtb u < a + (s.domain (d + 1)).gap)) → Completes (.ptpDelayReqSend d u) s fun t =>
      t = s.advance u) ∧
    (∀ (g : Bool), Completes (.ptpManagementRx g) s fun t =>
      (t = (if g then s else { s with tm := { s.tm with mgmt := s.tm.mgmt + 1 } }))) ∧
    (∀ (d : Fin 2), 2 ≤ s.domState (d + 1) → Completes (.announceReceiptTimeout d) s fun t =>
      t.domState (d + 1) = 1 ∧
      t.isSet R.TIME_EVENT_DOM_LOST = true ∧
      t.getF (R.TIME_DOM_STAT_PASS d) = 0 ∧
      t.getF (R.TIME_DOM_COUNT_LOSSES d) = min (R.TIME_DOM_COUNT_LOSSES d).max (s.getF (R.TIME_DOM_COUNT_LOSSES d) + 1)) ∧
    (∀ (d : Fin 2), s.domState (d + 1) < 2 → Completes (.announceReceiptTimeout d) s fun t =>
      t = s) ∧
    (∀ (d : Fin 2) (u : Nat), s.domState (d + 1) = 4 → (s.domain (d + 1)).refer = 0 → (s.domain (d + 1)).frozenAt + s.getF R.TIME_CFG_FREEZE_S * secCyc ≤ max s.mtb u → Completes (.freezeTimeout d u) s fun t =>
      t.domState (d + 1) = 3 ∧
      t.isSet R.TIME_EVENT_LOCKED = true) ∧
    (∀ (d : Fin 2) (u : Nat), (s.domState (d + 1) ≠ 4 ∨ (s.domain (d + 1)).refer ≠ 0 ∨ max s.mtb u < (s.domain (d + 1)).frozenAt + s.getF R.TIME_CFG_FREEZE_S * secCyc) → Completes (.freezeTimeout d u) s fun t =>
      t = s.advance u)

/-- The pending step sets device time forward by the locked domain's offset at its boundary, once. LOCK_WAIT_S after RUNNING,
if not 0, beacons are permitted; before, nothing changes. ACCEPT of a refused offset slews towards the reference, device time
staying continuous; without a refusal it is refused. SNAP captures MAC time base, mesh time and device time of one cyc.
SEL_DOM forces a locked domain, 0 ends the force, and a write that names another is refused with the first status that
applies. While the tie is up a TIME frame leaves with the unit's times and the last echo; one received is kept as the peer's
time, valid if SEL is not 0, or if no unit has a domain, and REFUSED is 0, and ends the peer's silence; 8 periods without one
end it. Where the spec leaves a detail open it rests on the model's choices of log entries 19 and 34. -/
def Obligations.DeviceTimeAndPeerTime : Prop :=
  ∀ s : State, s.Inv → 
    (∀ (d a : Nat) (q : Int), s.tm.step = some (d, a) → s.domOffset d = some q → Completes .timeStep s fun t =>
      t.tm.step = none ∧
      t.mtb = max s.mtb a ∧
      t.dev32 t.mtb = s.dev32 (max s.mtb a) + ofQns (-q) ∧
      t.isSet R.TIME_STATE_STEPPED = true ∧
      t.isSet R.TIME_EVENT_STEPPED = true) ∧
    (s.tm.step = none → Completes .timeStep s fun t =>
      t = s) ∧
    (∀ (u : Nat), s.running = true → s.getF R.TIME_CFG_LOCK_WAIT_S ≠ 0 → s.tm.runAt + s.getF R.TIME_CFG_LOCK_WAIT_S * secCyc ≤ max s.mtb u → Completes (.lockWaitExpiry u) s fun t =>
      t = { s.advance u with tm := { s.tm with waitDone := true } } ∧
      t.ebOk = true) ∧
    (∀ (u : Nat), (s.running = false ∨ s.getF R.TIME_CFG_LOCK_WAIT_S = 0 ∨ max s.mtb u < s.tm.runAt + s.getF R.TIME_CFG_LOCK_WAIT_S * secCyc) → Completes (.lockWaitExpiry u) s fun t =>
      t = s.advance u) ∧
    (∀ (q : Int), s.isSet R.TIME_STATE_REFUSED = true → ((s.getF R.TIME_STATE_SEL ≠ 3 ∧ s.domOffset (s.getF R.TIME_STATE_SEL) = some q) ∨ (s.getF R.TIME_STATE_SEL = 3 ∧ s.peerOffset = some (-q))) → Completes .timeAccept s fun t =>
      t.tm.slewing = true ∧
      (t.rate = signed 32 (unsigned 32 (if 0 < q then -s.slewRate else s.slewRate))) ∧
      t.dev32 s.mtb = s.dev32 s.mtb ∧
      t.resp = ST.OK) ∧
    (s.isSet R.TIME_STATE_REFUSED = false → Completes .timeAccept s fun t =>
      t.tm = s.tm ∧
      t.getF R.TIME_CMD_ERR_STATUS = ST.TIME_ACCEPT_STATE ∧
      t.resp = ST.TIME_ACCEPT_STATE) ∧
    (∀ (u : Nat), Completes (.timeSnap u) s fun t =>
      t.getF R.TIME_SNAP_TB_LO_V + 2 ^ 32 * t.getF R.TIME_SNAP_TB_HI_V = max s.mtb u % 2 ^ 64 ∧
      t.getF R.TIME_SNAP_ASN_LO_V + 2 ^ 32 * t.getF R.TIME_SNAP_ASN_HI_ASN = s.asn (max s.mtb u) ∧
      t.getF R.TIME_SNAP_NS_NS = s.devNs (max s.mtb u) ∧
      t.resp = ST.OK ∧
      t.tm = s.tm) ∧
    (∀ (k : Fin 4), (k = 1 ∨ k = 2) → s.domState k = 3 → s.pairRole ≠ 2 → Completes (.timeSelDomWrite k) s fun t =>
      t.getF R.TIME_CTRL_SEL_DOM = k ∧
      (s.getF R.TIME_CTRL_SEL_DOM ≠ k → t.getF R.TIME_STATE_SEL = k) ∧
      t.resp = ST.OK) ∧
    (∀ (k : Fin 4), (k = 0 ∨ s.getF R.TIME_CTRL_SEL_DOM = k) → Completes (.timeSelDomWrite k) s fun t =>
      t.getF R.TIME_CTRL_SEL_DOM = k ∧
      t.resp = ST.OK) ∧
    (∀ (k : Fin 4), s.getF R.TIME_CTRL_SEL_DOM ≠ k → (k = 3 ∨ (k ≠ 0 ∧ s.domState k ≠ 3)) → Completes (.timeSelDomWrite k) s fun t =>
      t.getF R.TIME_CTRL_SEL_DOM = s.getF R.TIME_CTRL_SEL_DOM ∧
      (t.resp = (if k = 3 then ST.TIME_RANGE else if s.domState k = 0 then ST.TIME_DOM_ABSENT else ST.TIME_DOM_STATE)) ∧
      t.getF R.TIME_CMD_ERR_STATUS = t.resp) ∧
    (∀ (u : Nat), s.isSet R.PAIR_STATE_TIE_UP = true → Completes (.tieTimeSend u) s fun t =>
      t.out = .amrek (amrekOctets 5 (Store.get (fun _ => 0) s.pa.amrekSeq 5) (timeOctets (s.advance u).timeFrame)) :: s.out ∧
      t.regs = s.regs ∧
      t.mtb = max s.mtb u) ∧
    (∀ (u : Nat), s.isSet R.PAIR_STATE_TIE_UP = false → Completes (.tieTimeSend u) s fun t =>
      t = s.advance u) ∧
    (∀ (f : TimeFrame) (u : Nat), Completes (.tieTimeRx f u) s fun t =>
      t.tm.peerAt = some u ∧
      t.tm.peer = some f ∧
      t.tm.echo = (f.tx, u) ∧
      (t.tm.peerOk = decide ((f.state % 4 ≠ 0 ∨ (s.pairOn = true ∧ s.pr.time.domains = 0)) ∧ bitOf f.state 3 = false)) ∧
      t.isSet R.PAIR_STATE_PEER_SILENT = false ∧
      t.pa.heardAt = some u) ∧
    (∀ (u : Nat), s.tm.peerAt.all (fun a => decide (a + 8 * 1048576 ≤ max s.mtb u)) = true → Completes (.peerTimeExpiry u) s fun t =>
      t.tm.peerAt = none ∧
      t.getF R.TIME_PEER_OFFSET = 0x80000000 ∧
      t.peerValid = false) ∧
    (∀ (u a : Nat), s.tm.peerAt = some a → max s.mtb u < a + 8 * 1048576 → Completes (.peerTimeExpiry u) s fun t =>
      t = s.advance u)

/-- An accepted target is in force at once, or waits for the end of the step in progress, and starts the first step towards
it; a refused one leaves the target and its status in CMD_ERR; with CAL a calibration lies on the way. A step's end shows the
state reached, or CAL from STANDBY, and starts the next step. A calibration passes, with CAL_OK and its temperature, or
fails: to STANDBY, or to SLEEP at start-up. A synthesiser that loses lock is reported, shown unlocked and relocked for, a
transmission first ending at its next symbol boundary. A background cycle begins when BG_PERIOD is over, or is reported
behind; a step is counted when its conditions hold, the 2,000th ending the cycle. The temperature is shown, a drift beyond
TEMP_K reported. The request of the planned head rises 13,200 dcyc before its departure. A fallen grant with ABORT ends the
transmission that has departed, with its event and status. Where its conditions do not hold, a command changes nothing but
the time base. Where the spec leaves a detail open it rests on the model's choices of log entry 25. -/
def Obligations.TransceiverCommands : Prop :=
  ∀ s : State, s.Inv → 
    (∀ (n g : Fin 4) (u : Nat), s.trxBar n g false = none → Completes (.trxSetTarget n g u) s fun t =>
      t.resp = ST.OK ∧
      ((s.trx n).step = none ∨ s.trxState n = 4 → t.trxTarget n = g) ∧
      ((s.trx n).step ≠ none ∧ s.trxState n ≠ 4 → t.trxTarget n = s.trxTarget n ∧ (t.trx n).next = some (g : Nat) ∧ (t.trx n).step = (s.trx n).step) ∧
      ((s.trx n).step = none ∧ s.trxState n < 4 ∧ (s.trx n).calPending = false ∧ s.su.warm = none → (t.trx n).step = (nextStep n (s.trxState n) g false).map (fun x => (x.1, max s.mtb u + x.2)))) ∧
    (∀ (n g : Fin 4) (u w : Nat), s.trxBar n g false = some w → Completes (.trxSetTarget n g u) s fun t =>
      t.trxTarget n = s.trxTarget n ∧
      t.rd = s.rd ∧
      t.resp = w ∧
      t.getF (R.TRX_CMD_ERR_STATUS n) = w) ∧
    (∀ (n g : Fin 4) (u : Nat), s.trxBar n g true = none → Completes (.trxCalibrate n g u) s fun t =>
      (t.trx n).cal = 1 ∧
      t.resp = ST.OK ∧
      ((s.trx n).step = none ∨ s.trxState n = 4 → t.trxTarget n = g) ∧
      ((s.trx n).step ≠ none ∧ s.trxState n ≠ 4 → t.trxTarget n = s.trxTarget n ∧ (t.trx n).next = some (g : Nat)) ∧
      ((s.trx n).step = none ∧ s.trxState n = 1 ∧ s.su.warm = none → t.trxState n = 5 ∧ (t.trx n).step = some (1, max s.mtb u + calCyc))) ∧
    (∀ (n g : Fin 4) (u w : Nat), s.trxBar n g true = some w → Completes (.trxCalibrate n g u) s fun t =>
      t.rd = s.rd ∧
      t.resp = w ∧
      t.getF (R.TRX_CMD_ERR_STATUS n) = w) ∧
    (∀ (n : Fin 4) (d e : Nat), (s.trx n).step = some (d, e) → s.trxState n ≠ 5 → d < 5 → Completes (.trxStepEnd n) s fun t =>
      t.mtb = max s.mtb e ∧
      t.trxTarget n = s.trxAim n ∧
      (t.trxState n = (if d = 1 ∧ (s.trx n).calPending = true ∧ s.su.warm = none then 5 else d)) ∧
      ((s.trx n).cal = 0 ∧ s.su.warm = none → (t.trx n).step = (nextStep n d (s.trxAim n) false).map (fun x => (x.1, max s.mtb e + x.2)))) ∧
    (∀ (n : Fin 4), ((s.trx n).step = none ∨ s.trxState n = 5) → Completes (.trxStepEnd n) s fun t =>
      t = s) ∧
    (∀ (n : Fin 4) (d e : Nat), (s.trx n).step = some (d, e) → s.trxState n = 5 → Completes (.calEnd n true) s fun t =>
      (t.trx n).cal = 0 ∧
      t.mtb = max s.mtb e ∧
      t.isSet (R.TRX_EVENT_CAL_DONE n) = true ∧
      t.isSet (R.TRX_CAL_STAT_CAL_OK n) = true ∧
      t.getF (R.TRX_CAL_STAT_CAL_TEMP n) = s.getF (R.TRX_CAL_STAT_TEMP n) ∧
      ((s.trx n).cal = 2 → t.isSet (R.START_STATE_TRX_CAL.bit n) = true) ∧
      (s.su.warm = none → (t.trx n).step = (nextStep n 1 (s.trxTarget n) false).map (fun x => (x.1, max s.mtb e + x.2)))) ∧
    (∀ (n : Fin 4) (d e : Nat), (s.trx n).step = some (d, e) → s.trxState n = 5 → Completes (.calEnd n false) s fun t =>
      t.trxState n = 1 ∧
      t.isSet (R.TRX_EVENT_CAL_FAIL n) = true ∧
      ((s.trx n).cal ≠ 2 → t.trxTarget n = 1 ∧ (t.trx n).cal = 0 ∧ t.getF (R.TRX_CMD_ERR_STATUS n) = ST.TRX_CAL_FAIL n) ∧
      ((s.trx n).cal = 2 → t.trxTarget n = 0 ∧ (t.trx n).step = some (0, max s.mtb e + 5280) ∧ t.isSet R.SYS_EVENT_CAL_FAIL = true)) ∧
    (∀ (n : Fin 4) (ok : Bool), ((s.trx n).step = none ∨ s.trxState n ≠ 5) → Completes (.calEnd n ok) s fun t =>
      t = s) ∧
    (∀ (n : Fin 4) (x : Bool) (u : Nat), (s.trxState n = 2 ∨ s.trxState n = 3 ∨ s.trxState n = 4) → Completes (.synUnlock n x u) s fun t =>
      t.isSet (R.TRX_EVENT_SYN_UNLOCK n) = true ∧
      t.getF (R.TRX_CMD_ERR_STATUS n) = ST.TRX_SYN_UNLOCK n ∧
      (t.trx n).relock = true ∧
      (x = false ∨ 2 ≤ (n : Nat) → t.isSet (R.TRX_STATE_SYN_RX_LOCK n) = false) ∧
      (x = true ∨ 2 ≤ (n : Nat) → t.isSet (R.TRX_STATE_SYN_TX_LOCK n) = false) ∧
      ((s.trx n).onAir = none → t.trxState n = 2 ∧ (t.trx n).step = some (2, max s.mtb u + lockCyc n)) ∧
      ((s.trx n).ending = none → (t.trx n).ending = (s.trx n).onAir.map (fun c => (ST.TRX_SYN_UNLOCK n, c.symbolEnd (max s.mtb u))))) ∧
    (∀ (n : Fin 4) (x : Bool) (u : Nat), (s.trxState n < 2 ∨ 4 < s.trxState n) → Completes (.synUnlock n x u) s fun t =>
      t = s.advance u) ∧
    (∀ (n : Fin 4) (u : Nat), s.narrow n = true → (s.trx n).bgAt.all (fun b => decide (b + s.getF (R.TRX_CAL_BG_PERIOD n) * secCyc ≤ max s.mtb u)) = true → Completes (.bgCalCycleStart n u) s fun t =>
      (t.trx n).bgAt = some (max s.mtb u) ∧
      (t.trx n).bgRuns = true ∧
      ((s.trx n).bgRuns = false → t.getF (R.TRX_CAL_STAT_BG_STEPS n) = 0) ∧
      t.isSet (R.TRX_CAL_STAT_BG_BEHIND n) = (s.trx n).bgRuns) ∧
    (∀ (n : Fin 4) (u b : Nat), (s.narrow n = false ∨ ((s.trx n).bgAt = some b ∧ max s.mtb u < b + s.getF (R.TRX_CAL_BG_PERIOD n) * secCyc)) → Completes (.bgCalCycleStart n u) s fun t =>
      t = s.advance u) ∧
    (∀ (n : Fin 4) (b : Bool) (u : Nat), s.narrow n = true → s.pathOn n b = true → (s.trx n).bgRuns = true → (s.trxState n = 3 ∧ (s.trx n).step = none) → (s.advance u).bgClear n = true → ((s.lanesOf n).all (fun l => s.laneState l == 0 || (decide (2 ≤ s.laneState l ∧ s.laneState l ≤ 4) && s.isSet (R.LANE_STATE_PATH l) != b)) = true) → ((s.trx n).bgLast = 0 ∨ (s.trx n).bgLast + 4 * 3960 ≤ max s.mtb u) → Completes (.bgCalStep n b u) s fun t =>
      (t.trx n).bgLast = max s.mtb u + 1320 ∧
      (t.trx n).bgPathB = b ∧
      (t.getF (R.TRX_CAL_STAT_BG_STEPS n) = (if s.getF (R.TRX_CAL_STAT_BG_STEPS n) + 1 < 2000 then s.getF (R.TRX_CAL_STAT_BG_STEPS n) + 1 else 0)) ∧
      (s.getF (R.TRX_CAL_STAT_BG_STEPS n) + 1 ≥ 2000 → t.isSet (R.TRX_EVENT_BG_DONE n) = true ∧ (t.trx n).bgRuns = false)) ∧
    (∀ (n : Fin 4) (b : Bool) (u : Nat), (s.narrow n = false ∨ s.pathOn n b = false ∨ (s.trx n).bgRuns = false ∨ s.trxState n ≠ 3 ∨ (s.trx n).step ≠ none ∨ (s.advance u).bgClear n = false) → Completes (.bgCalStep n b u) s fun t =>
      t = s.advance u) ∧
    (∀ (n : Fin 4) (v : BitVec 8), Completes (.tempDrift n v) s fun t =>
      t.getF (R.TRX_CAL_STAT_TEMP n) = v.toNat ∧
      t.isSet (R.TRX_EVENT_TEMP_DRIFT n) = (s.isSet (R.TRX_EVENT_TEMP_DRIFT n) || (s.isSet (R.TRX_CAL_STAT_CAL_OK n) && decide (s.getF (R.TRX_CAL_TEMP_K n) < (v.toInt - signed 8 (s.getF (R.TRX_CAL_STAT_CAL_TEMP n))).natAbs))) ∧
      t.rd = s.rd) ∧
    (∀ (n : Fin 4) (c : TxCmd), planHead (s.trx n).plan = some c → s.coexOn n = true → (s.trx n).coexNext = none → c.planned = true → Completes (.coexRequestRise n) s fun t =>
      ((t.trx n).coexNext = some (c.order, s.coexPrio n (match c.members with | m :: _ => m.desc.kind | [] => 0))) ∧
      t.out.tail.head? = some (.line n 4 true (max s.mtb (c.dep - 52800))) ∧
      t.mtb = max s.mtb (c.dep - 52800) ∧
      t.regs = s.regs) ∧
    (∀ (n : Fin 4), (planHead (s.trx n).plan = none ∨ s.coexOn n = false ∨ (s.trx n).coexNext ≠ none) → Completes (.coexRequestRise n) s fun t =>
      t = s) ∧
    (∀ (n : Fin 4) (u : Nat) (c : TxCmd), (s.trx n).onAir = some c → s.coexOn n = true → s.isSet (R.TRX_COEX_ABORT n) = true → c.dep ≤ max s.mtb u → Completes (.coexGrantFall n u) s fun t =>
      ((t.trx n).ending = (if (s.trx n).ending = none then some (ST.TRX_COEX_ABORT n, c.symbolEnd (max s.mtb u)) else (s.trx n).ending)) ∧
      t.isSet (R.TRX_EVENT_COEX_ABORT n) = true ∧
      t.getF (R.TRX_CMD_ERR_STATUS n) = ST.TRX_COEX_ABORT n) ∧
    (∀ (n : Fin 4) (u : Nat), ((s.trx n).onAir = none ∨ s.coexOn n = false ∨ s.isSet (R.TRX_COEX_ABORT n) = false) → Completes (.coexGrantFall n u) s fun t =>
      t = s.advance u)

/-- A window opens before its end and arms the lane unless it is blanked, and closes, which disarms it. What waits for a lane
takes effect when it may change: a channel, or a plan binding whose window has not ended; else the cell is missed. An armed
idle lane with nothing waiting enters PREAMBLE, unless it sees no samples; a lost preamble is counted. A sync point in
PREAMBLE starts a reception with its stamp, path, RSSI and offset and the lane in SYNC, where the pillow has room; where it
has none for the task, the lane is in DONE. A header refused by its check ends the reception; one accepted, where a buffer is
free, puts the lane in PAYLOAD with the length, end and buffer known. The last symbol puts the octets into the buffer,
outcome 1 and the lane in DONE. The FCS verdict, 40 cyc later, returns it to IDLE. A further sync point in DONE starts a
reception; in SYNC one stronger by CAPTURE ends the reception in progress, counted, and starts its own, a weaker one does
nothing. Where the spec leaves a detail open it rests on the model's choices of log entries 5, 24, 25 and 29. -/
def Obligations.LaneReception : Prop :=
  ∀ s : State, s.Inv → 
    (∀ (l : Fin 96) (c o e f : Nat), (s.lane l).window = some (c, o, e, f) → ((s.lane l).open_ = false ∧ (s.lane l).bind = none) → s.mtb < e → Completes (.rxWindowOpen l) s fun t =>
      (t.lane l).open_ = true ∧
      t.mtb = max s.mtb o ∧
      t.isSet (R.LANE_STATE_ARMED l) = (s.laneState l != 5) ∧
      t.mac = s.mac) ∧
    (∀ (l : Fin 96), ((s.lane l).window = none ∨ (s.lane l).open_ = true ∨ (s.lane l).bind ≠ none) → Completes (.rxWindowOpen l) s fun t =>
      t = s) ∧
    (∀ (l : Fin 96) (c o e f : Nat), (s.lane l).window = some (c, o, e, f) → (s.lane l).open_ = true → Completes (.rxWindowClose l) s fun t =>
      (t.lane l).open_ = false ∧
      t.mtb = max s.mtb e ∧
      t.isSet (R.LANE_STATE_ARMED l) = false ∧
      t.laneState l = s.laneState l) ∧
    (∀ (l : Fin 96), ((s.lane l).window = none ∨ (s.lane l).open_ = false) → Completes (.rxWindowClose l) s fun t =>
      t = s) ∧
    (∀ (l : Fin 96), s.mayBind l = true → Completes (.laneBindingApply l) s fun t =>
      t.isSet (R.LANE_STATE_PENDING l) = false ∧
      (∀ c, (s.lane l).chan = some c → t.laneChan l = c % 2 ^ (R.LANE_CHAN_CHAN_KHZ l).width ∧ (t.lane l).chan = none) ∧
      (∀ c o e f, (s.lane l).chan = none → (s.lane l).bind = some (c, o, e, f) → c ≠ 0 → s.mtb < e → (t.lane l).window = some (c, o, e, f) ∧ (t.lane l).bind = none) ∧
      (∀ c o e f, (s.lane l).chan = none → (s.lane l).bind = some (c, o, e, f) → c ≠ 0 → e ≤ s.mtb → t.isSet R.MAC_EVENT_CELL_MISS = true ∧ (t.lane l).window = none)) ∧
    (∀ (l : Fin 96), s.mayBind l = false → Completes (.laneBindingApply l) s fun t =>
      t = s) ∧
    (∀ (l : Fin 96) (u : Nat), s.laneState l = 0 → s.isSet (R.LANE_STATE_ARMED l) = true → ((s.lane l).chan = none ∧ (s.lane l).bind = none) → (s.bgPath (laneTrx l) (max s.mtb u) = none ∨ (s.pathOn (laneTrx l) false = true ∧ s.pathOn (laneTrx l) true = true)) → Completes (.preambleDetect l u) s fun t =>
      t.laneState l = 1 ∧
      t.mtb = max s.mtb u ∧
      t.rd = s.rd) ∧
    (∀ (l : Fin 96) (u : Nat), (s.laneState l ≠ 0 ∨ s.isSet (R.LANE_STATE_ARMED l) = false ∨ (s.lane l).chan ≠ none ∨ (s.lane l).bind ≠ none) → Completes (.preambleDetect l u) s fun t =>
      t = s) ∧
    (∀ (l : Fin 96) (u : Nat), s.laneState l = 1 → Completes (.preambleLost l u) s fun t =>
      t.laneState l = 0 ∧
      t.getF (R.LANE_COUNT1_FALSE_PRE l) = min (R.LANE_COUNT1_FALSE_PRE l).max (s.getF (R.LANE_COUNT1_FALSE_PRE l) + 1) ∧
      t.rd = s.rd) ∧
    (∀ (l : Fin 96) (u : Nat), s.laneState l ≠ 1 → Completes (.preambleLost l u) s fun t =>
      t = s) ∧
    (∀ (l : Fin 96) (x : Nat) (a b r c : Int) (k : Bool) (y : List (Int × Int)), s.laneState l = 1 → s.rxRoom = true → Completes (.syncPoint l x a b r c k y) s fun t =>
      t.laneState l = 2 ∧
      (t.lane l).rx = some s.rd.next ∧
      t.rd.next = s.rd.next + 1 ∧
      (t.rx? s.rd.next).map (fun v => (v.lane, v.ts, v.path, v.rssi, v.cfo)) = some ((l : Nat), x, s.choosePath l x a b, r, c) ∧
      t.mtb = max s.mtb (x + 212) ∧
      t.getF (R.LANE_RSSI_LAST l) = unsigned 16 r) ∧
    (∀ (l : Fin 96) (x : Nat) (a b r c : Int) (k : Bool) (y : List (Int × Int)), s.laneState l = 1 → (32768 ≤ s.pl.tasks.length ∨ s.windowRoom (ordOf (s.getF R.PILLOW_HW_ORD_ORD)) = false) → Completes (.syncPoint l x a b r c k y) s fun t =>
      t.laneState l = 4 ∧
      (t.lane l).rx = none ∧
      t.rd.rxs = s.rd.rxs ∧
      t.mtb = max s.mtb (x + 212)) ∧
    (∀ (l : Fin 96) (x : Nat) (a b r c : Int) (k : Bool) (y : List (Int × Int)), s.laneState l ≠ 1 → Completes (.syncPoint l x a b r c k y) s fun t =>
      t = s) ∧
    (∀ (l : Fin 96) (n : Fin 2048) (i : Fin 256) (h ms : Bool) (u k : Nat) (r : Rx), s.laneState l = 2 → (s.lane l).rx = some k → s.rx? k = some r → headerOutcome (s.lanePhy l) n i h ms (s.codedOf r) ≠ 0 → Completes (.headerDecoded l n i h ms u) s fun t =>
      t.laneState l = 4 ∧
      (t.lane l).rx = none ∧
      t.rx? k = none ∧
      t.mtb = max s.mtb u) ∧
    (∀ (l : Fin 96) (n : Fin 2048) (i : Fin 256) (h ms : Bool) (u k : Nat) (r : Rx), s.laneState l = 2 → (s.lane l).rx = some k → s.rx? k = some r → headerOutcome (s.lanePhy l) n i h ms (s.codedOf r) = 0 → (((n : Nat) ≤ 256 ∧ s.ms.smallTaken.length < 2048) ∨ s.ms.largeTaken.length < 256) → Completes (.headerDecoded l n i h ms u) s fun t =>
      t.laneState l = 3 ∧
      (t.rx? k).map (fun y => (y.len, y.fin, y.known, y.buf.isSome)) = some ((n : Nat), r.ts + bodyCyc (s.lanePhy l) n i, true, true) ∧
      t.mtb = max s.mtb u) ∧
    (∀ (l : Fin 96) (n : Fin 2048) (i : Fin 256) (h ms : Bool) (u : Nat), (s.laneState l ≠ 2 ∨ (s.lane l).rx = none) → Completes (.headerDecoded l n i h ms u) s fun t =>
      t = s) ∧
    (∀ (l : Fin 96) (d : List Byte) (y : List (List (Int × Int))) (k b : Nat) (r : Rx), s.laneState l = 3 → (s.lane l).rx = some k → s.rx? k = some r → (r.buf = some b ∧ b < 2304) → Completes (.lastSymbol l d y) s fun t =>
      t.laneState l = 4 ∧
      t.rx? k = some { r with done := 1 } ∧
      (r.task = none → t.readBytes (rxBufAddr b) ((r.octets d y).take r.len).length = (r.octets d y).take r.len) ∧
      t.mtb = max s.mtb r.fin) ∧
    (∀ (l : Fin 96) (d : List Byte) (y : List (List (Int × Int))), (s.laneState l ≠ 3 ∨ (s.lane l).rx = none) → Completes (.lastSymbol l d y) s fun t =>
      t = s) ∧
    (∀ (l : Fin 96) (ok : Bool) (k : Nat) (r : Rx), (List.find? (fun (x : Nat × Rx) => decide (x.2.lane = l ∧ x.2.done = 1 ∧ x.2.fcs = none)) s.rd.rxs = some (k, r)) → s.laneState l = 4 → (s.lane l).rx = some k → Completes (.fcsVerdict l ok) s fun t =>
      t.laneState l = 0 ∧
      (t.lane l).rx = none ∧
      max s.mtb (r.fin + 40) ≤ t.mtb) ∧
    (∀ (l : Fin 96) (ok : Bool), (List.find? (fun (x : Nat × Rx) => decide (x.2.lane = l ∧ x.2.done = 1 ∧ x.2.fcs = none)) s.rd.rxs = none) → s.laneState l = 4 → (s.lane l).rx = none → Completes (.fcsVerdict l ok) s fun t =>
      t.laneState l = 0 ∧
      t.mtb = s.mtb) ∧
    (∀ (l : Fin 96) (x : Nat) (a b y c : Int) (m : Bool) (p : List (Int × Int)) (d : List Byte) (z : List (List (Int × Int))), s.laneState l = 4 → s.rxRoom = true → Completes (.shadowSyncPoint l x a b y c m p d z) s fun t =>
      t.laneState l = 2 ∧
      (t.lane l).rx = some s.rd.next ∧
      (t.rx? s.rd.next).map (fun v => (v.lane, v.ts, v.path, v.rssi, v.cfo)) = some ((l : Nat), x, s.choosePath l x a b, y, c)) ∧
    (∀ (l : Fin 96) (x k : Nat) (a b y c : Int) (m : Bool) (p : List (Int × Int)) (d : List Byte) (z : List (List (Int × Int))) (r : Rx), s.laneState l = 2 → (s.lane l).rx = some k → s.rx? k = some r → r.lane = l → s.rd.next ≠ k → r.rssi + 8 * (s.getF (R.LANE_CFG_CAPTURE l) : Nat) ≤ y → Completes (.shadowSyncPoint l x a b y c m p d z) s fun t =>
      t.rx? k = none ∧
      t.getF (R.LANE_COUNT0_PREEMPT l) = min (R.LANE_COUNT0_PREEMPT l).max (s.getF (R.LANE_COUNT0_PREEMPT l) + 1) ∧
      (((s.advance x).laneFail l k 2).rxRoom = true → (t.lane l).rx = some s.rd.next ∧ t.laneState l = 2)) ∧
    (∀ (l : Fin 96) (x k : Nat) (a b y c : Int) (m : Bool) (p : List (Int × Int)) (d : List Byte) (z : List (List (Int × Int))) (r : Rx), s.laneState l = 2 → (s.lane l).rx = some k → s.rx? k = some r → y < r.rssi + 8 * (s.getF (R.LANE_CFG_CAPTURE l) : Nat) → Completes (.shadowSyncPoint l x a b y c m p d z) s fun t =>
      t = s)

/-- A gain window of a path in use, its transceiver in RX, ends a window's length after it began; with no reception on the
path the gain steps down above -12 dBFS, up below -21 dBFS but not beyond 10, and stays between. A clip on such a path whose
step is not 0 steps down at once, not sooner than 64 samples after the last clip. An idle power window of a lane in IDLE puts
its two powers in front of the last three and shows the larger of the paths in use. A fixed lane's new channel is checked
against its span and applied at once or pending; one outside leaves the channel; an unused lane refuses. CLR clears the
counters of a used lane. Elsewhere a command changes nothing but the time base. Where the spec leaves a detail open it rests
on the model's choices of log entries 25 and 29. -/
def Obligations.LaneMeasurements : Prop :=
  ∀ s : State, s.Inv → 
    (∀ (n : Fin 4) (b : Bool) (v : Int), s.pathLive n b = true → s.onPath n b = [] → Completes (.gainWindowEnd n b v) s fun t =>
      t.mtb = max s.mtb (s.winFrom n b + gainWindow n) ∧
      t.winFrom n b = s.winFrom n b + gainWindow n ∧
      (t.getF (gainField n b) = (if -96 < v then s.getF (gainField n b) - 1 else if v < -168 then min 10 (s.getF (gainField n b) + 1) else s.getF (gainField n b)))) ∧
    (∀ (n : Fin 4) (b : Bool) (v : Int), s.pathLive n b = true → s.onPath n b ≠ [] → Completes (.gainWindowEnd n b v) s fun t =>
      t.mtb = max s.mtb (s.winFrom n b + gainWindow n) ∧
      t.regs = s.regs) ∧
    (∀ (n : Fin 4) (b : Bool) (v : Int), s.pathLive n b = false → Completes (.gainWindowEnd n b v) s fun t =>
      t = s) ∧
    (∀ (n : Fin 4) (b : Bool) (u : Nat), s.pathLive n b = true → 0 < s.getF (gainField n b) → ((if b then (s.trx n).clipB else (s.trx n).clipA).all (fun c => decide (c + gainWindow n / 4 ≤ max s.mtb u)) = true) → Completes (.adcClip n b u) s fun t =>
      t.getF (gainField n b) = s.getF (gainField n b) - 1 ∧
      t.winFrom n b = max s.mtb u ∧
      ((if b then (t.trx n).clipB else (t.trx n).clipA) = some (max s.mtb u))) ∧
    (∀ (n : Fin 4) (b : Bool) (u : Nat), (s.pathLive n b = false ∨ s.getF (gainField n b) = 0) → Completes (.adcClip n b u) s fun t =>
      t = s) ∧
    (∀ (l : Fin 96) (a b : Int), s.laneState l = 0 → Completes (.idlePowerWindowEnd l a b) s fun t =>
      (t.lane l).idleA = (a :: (s.lane l).idleA).take 4 ∧
      (t.lane l).idleB = (b :: (s.lane l).idleB).take 4 ∧
      (t.getF (R.LANE_RSSI_IDLE l) = unsigned 16 (if s.isSet (R.TRX_PATH_ON_A (laneTrx l)) = false then b else if s.isSet (R.TRX_PATH_ON_B (laneTrx l)) = false then a else max a b))) ∧
    (∀ (l : Fin 96) (a b : Int), s.laneState l ≠ 0 → Completes (.idlePowerWindowEnd l a b) s fun t =>
      t = s) ∧
    (∀ (l : Fin 96) (c : BitVec 24) (r : LaneRec) (x : TrxRec), s.laneRec l = some r → r.bind ≠ 2 → s.trxRec (laneTrx l) = some x → (c.toNat ≠ s.laneChan l ∨ (s.lane l).chan ≠ none) → Completes (.laneChanWrite l c) s fun t =>
      (inSpan x c.toNat (occKhz (s.lanePhy l)) = true → t.resp = ST.OK ∧ (if s.mayBind l then t.laneChan l = c.toNat else (t.lane l).chan = some c.toNat ∧ t.isSet (R.LANE_STATE_PENDING l) = true)) ∧
      (inSpan x c.toNat (occKhz (s.lanePhy l)) = false → t.resp = ST.LANE_SPAN ∧ t.rd = s.rd ∧ t.laneChan l = s.laneChan l ∧ t.getF (R.LANE_CFG_STATUS l) = ST.LANE_SPAN)) ∧
    (∀ (l : Fin 96) (c : BitVec 24), s.laneRec l = none → Completes (.laneChanWrite l c) s fun t =>
      t.resp = ST.LANE_UNUSED ∧
      t.rd = s.rd) ∧
    (∀ (l : Fin 96), (s.laneRec l).isSome = true → Completes (.laneCountClear l) s fun t =>
      t.getReg (R.LANE_COUNT0 l) = 0 ∧
      t.getReg (R.LANE_COUNT1 l) = 0 ∧
      t.resp = ST.OK) ∧
    (∀ (l : Fin 96), s.laneRec l = none → Completes (.laneCountClear l) s fun t =>
      t.resp = ST.LANE_UNUSED ∧
      t.getReg (R.LANE_COUNT0 l) = s.getReg (R.LANE_COUNT0 l))

/-- The first header of a reception whose length is known is kept, its PAN and first failing check decided. A header that
passes is looked up once: the node, or none with the record of none. The record of the node looked up is taken where the
source address names it, with its key epoch; else the record of none, reported as stale. The link key of a secured frame with
a key goes to a free context, waits in order where there is none, or fails, counted; a context that comes free goes to the
first that waits. The CCM* verdict of a frame with a good FCS ends the reception with the verdict that the checks give,
counted; under a zeroed context no frame is authentic. Expired cache entries go. A shadow entry whose commits are written
goes unless a record read that had started before is still under way. The sweep visits its next entry, 2^21 cyc after the
last. A command whose step the reception has passed or not reached changes nothing. Where the spec leaves a detail open it
rests on the model's choices of log entries 15, 24, 29 and 46. -/
def Obligations.ReceivePipeline : Prop :=
  ∀ s : State, s.Inv → 
    (∀ (k : Nat) (h : MacHdr) (c : ClockIe) (r : Rx), s.rx? k = some r → (r.hdr = none ∧ r.known = true) → Completes (.sourceAddressComplete k h c) s fun t =>
      t.rx? k = some { r with hdr := some h, clock := c, pan := s.hdrPan (laneTrx r.lane) h, badHdr := s.hdrBad (laneTrx r.lane) h } ∧
      (s.owedOf (laneTrx r.lane) = [] → t.regs = s.regs)) ∧
    (∀ (k : Nat) (h : MacHdr) (c : ClockIe), s.rx? k = none → Completes (.sourceAddressComplete k h c) s fun t =>
      t = s) ∧
    (∀ (k : Nat) (h : MacHdr) (r : Rx), s.rx? k = some r → r.hdr = some h → (r.looked = false ∧ r.badHdr = 0) → Completes (.addressLookupDone k) s fun t =>
      (s.lookedUp h ≠ nodeNone → t = s.putRx k { r with looked := true, node := s.lookedUp h }) ∧
      (s.lookedUp h = nodeNone ∧ r.fcs = none → (t.rx? k).map (fun x => (x.looked, x.node, x.record)) = some (true, nodeNone, true)) ∧
      (r.fcs = none → t.mac = s.mac)) ∧
    (∀ (k : Nat) (r : Rx), s.rx? k = some r → (r.hdr = none ∨ r.looked = true ∨ r.badHdr ≠ 0) → Completes (.addressLookupDone k) s fun t =>
      t = s) ∧
    (∀ (k : Nat) (h : MacHdr) (r : Rx), s.rx? k = some r → r.hdr = some h → (r.looked = true ∧ r.record = false) → Completes (.nodeRecordReadDone k) s fun t =>
      (s.recordFits r.node h = true ∧ r.fcs = none → (t.rx? k).map (fun x => (x.record, x.node, x.epoch)) = some (true, r.node, Store.get (fun _ => 0) s.gd.keyEpoch r.node)) ∧
      (s.recordFits r.node h = false → t.isSet R.GROUND_EVENT_STALE_KEY = true) ∧
      (s.recordFits r.node h = false ∧ r.fcs = none → (t.rx? k).map (fun x => (x.record, x.node)) = some (true, nodeNone))) ∧
    (∀ (k : Nat) (r : Rx), s.rx? k = some r → (r.hdr = none ∨ r.looked = false ∨ r.record = true) → Completes (.nodeRecordReadDone k) s fun t =>
      t = s) ∧
    (∀ (k : Nat) (h : MacHdr) (r : Rx), s.rx? k = some r → r.hdr = some h → h.secured = true → (r.record = true ∧ r.node ≠ nodeNone ∧ r.ctx = none ∧ r.noKey = false) → bitOf (s.copyGet r 13 1) 1 = true → Completes (.keyUnwrapDone k) s fun t =>
      (s.linkKey r = none → t.getF R.KEY_COUNT0_UNWRAP_FAIL = min R.KEY_COUNT0_UNWRAP_FAIL.max (s.getF R.KEY_COUNT0_UNWRAP_FAIL + 1)) ∧
      (s.linkKey r = none → r.fcs = none → (t.rx? k).map (fun x => x.noKey) = some true) ∧
      (s.linkKey r ≠ none → r.fcs = none → ∀ c, s.freeCtx = some c → (t.rx? k).map (fun x => x.ctx) = some (some c) ∧ t.ky.ctxs = s.ky.ctxs ++ [c]) ∧
      (s.linkKey r ≠ none → s.freeCtx = none → ∀ i, r.task = some i → s.ky.waiters.contains i = false → t.ky.waiters = s.ky.waiters ++ [i] ∧ t.rd = s.rd)) ∧
    (∀ (k : Nat) (r : Rx), s.rx? k = some r → (r.record = false ∨ r.node = nodeNone ∨ r.ctx ≠ none ∨ r.noKey = true) → Completes (.keyUnwrapDone k) s fun t =>
      t = s) ∧
    (∀ (c i k : Nat) (l : List Nat) (r : Rx), s.freeCtx = some c → s.ky.waiters = i :: l → List.find? (fun (x : Nat × Rx) => decide (x.2.task = some i)) s.rd.rxs = some (k, r) → Completes .ccmContextFree s fun t =>
      (r.fcs = none → t.ky.waiters = l ∧ t.ky.ctxs = s.ky.ctxs ++ [c] ∧ (t.rx? k).map (fun x => x.ctx) = some (some c))) ∧
    ((s.freeCtx = none ∨ s.ky.waiters = []) → Completes .ccmContextFree s fun t =>
      t = s) ∧
    (∀ (k v : Nat) (ok : Bool) (r : Rx) (c : Nat), s.rx? k = some r → (r.ctx = some c ∧ r.fcs = some true ∧ r.ccm = none) → (r.record = true ∧ r.undo ≠ []) → (s.rxVerdict { r with ccm := some (ok && s.ky.ctxs.contains c) }).map (·.1) = some v → Completes (.ccmVerdict k ok) s fun t =>
      t.rx? k = none ∧
      (v = 5 → t.getF R.MAC_RX_COUNT0_AUTH_FAIL = min R.MAC_RX_COUNT0_AUTH_FAIL.max (s.getF R.MAC_RX_COUNT0_AUTH_FAIL + 1)) ∧
      (v = 2 → t.getF R.MAC_RX_COUNT1_DUPLICATE = min R.MAC_RX_COUNT1_DUPLICATE.max (s.getF R.MAC_RX_COUNT1_DUPLICATE + 1)) ∧
      (v = 3 → t.isSet R.MAC_EVENT_REPLAY = true)) ∧
    (∀ (k : Nat) (ok : Bool) (r : Rx), s.rx? k = some r → (r.ctx = none ∨ r.fcs ≠ some true ∨ r.ccm ≠ none) → Completes (.ccmVerdict k ok) s fun t =>
      t = s) ∧
    (∀ (u : Nat), Completes (.dupCacheExpiry u) s fun t =>
      t.mac.dups = s.mac.dups.filter (fun d => decide (max s.mtb u < d.2.2 + msToCyc (s.getF R.MAC_DUP_CFG_HOLD_MS))) ∧
      t.mtb = max s.mtb u ∧
      t.regs = s.regs) ∧
    (∀ (n c : Nat), Store.find? n s.mac.shadow = some (c, 0) → (Store.get (fun _ => []) s.mac.shadowReads n).any (fun k => match s.rx? k with | some r => !r.record | none => false) = false → Completes (.shadowEntryRelease n) s fun t =>
      t.mac = { s.mac with shadow := Store.del n s.mac.shadow, shadowReads := Store.del n s.mac.shadowReads } ∧
      t.regs = s.regs) ∧
    (∀ (n c : Nat), Store.find? n s.mac.shadow = some (c, 0) → (Store.get (fun _ => []) s.mac.shadowReads n).any (fun k => match s.rx? k with | some r => !r.record | none => false) = true → Completes (.shadowEntryRelease n) s fun t =>
      t = s) ∧
    (Completes .lptSweepStep s fun t =>
      t.getF R.GROUND_SWEEP_NEXT = (s.getF R.GROUND_SWEEP_NEXT + 1) % 8192 ∧
      (t.mtb = (match s.gd.sweptAt with | some x => max s.mtb (x + 0x200000) | none => s.mtb)) ∧
      (t.gd.sweptAt = some (match s.gd.sweptAt with | some x => x + 0x200000 | none => s.mtb)) ∧
      t.mem = s.mem)

/-- With no completion record held and room in its plan, a shuttle takes the first descriptor of its queues that is of the
command's kind: one that nothing refuses leaves its queue and enters the plan under the next order, as a braid with KIND 1,
or with KIND 2 joins the open braid; a refused one is counted and leaves its status in CMD_ERR and the plan as it was. The
head that cannot meet its latest departure is dropped as late; another stays. The planned head launches at its launch time
where the transceiver rests at its target: it is on air, the step into TX ends at its departure; a hold or the output stop
time drops it instead. 1,024 dcyc before a member's departure, with the grant where one is asked for, what goes on air leaves
with power limited by the limit and the braid's reduction, its picot, channel offset and octets or chips, a clipped request
reported; without the grant the transmission ends as late. The last symbol, or the boundary at which an early end waits, ends
the transmission; each member sent is counted. Where the spec leaves a detail open it rests on the model's choices of log
entries 24, 25 and 46. -/
def Obligations.ShuttleCommands : Prop :=
  ∀ s : State, s.Inv → 
    (∀ (n : Fin 4) (u q : Nat) (e : Entry) (d : TxDesc), ((s.trx n).held = [] ∧ (s.trx n).planned < 16) → (s.consumedBy (0x20 + n)).find? (fun (x : Nat) => (s.head? x).isSome) = some q → s.head? q = some e → s.txDescAt e = d → d.kind = 0 → (((s.advance u).dequeue q).emit (.entry q e)).txRefusal n d = none → Completes (.txCmdData n u) s fun t =>
      (t.trx n).orders = (s.trx n).orders + 1 ∧
      (t.trx n).planned = (s.trx n).planned + 1 ∧
      (t.trx n).plan.any (fun (c : TxCmd) => decide (c.order = (s.trx n).orders) && decide (c.members.map (fun (m : TxMember) => m.desc) = [d]) && decide (c.braid = false)) = true ∧
      (t.queue q).entries = (s.queue q).entries.tail ∧
      t.resp = ST.OK) ∧
    (∀ (n : Fin 4) (u q w : Nat) (e : Entry) (d : TxDesc), ((s.trx n).held = [] ∧ (s.trx n).planned < 16) → (s.consumedBy (0x20 + n)).find? (fun (x : Nat) => (s.head? x).isSome) = some q → s.head? q = some e → s.txDescAt e = d → (d.kind = 0 ∨ 4 < d.kind) → (((s.advance u).dequeue q).emit (.entry q e)).txRefusal n d = some w → Completes (.txCmdData n u) s fun t =>
      (t.trx n).plan = (s.trx n).plan ∧
      t.getF (R.TRX_CMD_ERR_STATUS n) = w % 2 ^ 16 ∧
      t.resp = w ∧
      t.getF (R.TRX_TX_COUNT1_REFUSED n) = min (R.TRX_TX_COUNT1_REFUSED n).max (s.getF (R.TRX_TX_COUNT1_REFUSED n) + 1)) ∧
    (∀ (n : Fin 4) (u q : Nat) (e : Entry) (d : TxDesc), ((s.trx n).held = [] ∧ (s.trx n).planned < 16) → (s.consumedBy (0x20 + n)).find? (fun (x : Nat) => (s.head? x).isSome) = some q → s.head? q = some e → s.txDescAt e = d → d.kind = 1 → (((s.advance u).dequeue q).emit (.entry q e)).txRefusal n d = none → Completes (.txCmdBraidOpen n u) s fun t =>
      (t.trx n).orders = (s.trx n).orders + 1 ∧
      (t.trx n).planned = (s.trx n).planned + 1 ∧
      (t.trx n).plan.any (fun (c : TxCmd) => decide (c.order = (s.trx n).orders) && decide (c.members.map (fun (m : TxMember) => m.desc) = [d]) && decide (c.braid = true)) = true ∧
      (t.queue q).entries = (s.queue q).entries.tail ∧
      t.resp = ST.OK) ∧
    (∀ (n : Fin 4) (u q w : Nat) (e : Entry) (d : TxDesc), ((s.trx n).held = [] ∧ (s.trx n).planned < 16) → (s.consumedBy (0x20 + n)).find? (fun (x : Nat) => (s.head? x).isSome) = some q → s.head? q = some e → s.txDescAt e = d → d.kind = 1 → (((s.advance u).dequeue q).emit (.entry q e)).txRefusal n d = some w → Completes (.txCmdBraidOpen n u) s fun t =>
      (t.trx n).plan = (s.trx n).plan ∧
      t.getF (R.TRX_CMD_ERR_STATUS n) = w % 2 ^ 16 ∧
      t.resp = w ∧
      t.getF (R.TRX_TX_COUNT1_REFUSED n) = min (R.TRX_TX_COUNT1_REFUSED n).max (s.getF (R.TRX_TX_COUNT1_REFUSED n) + 1)) ∧
    (∀ (n : Fin 4) (u q : Nat) (e : Entry) (d : TxDesc) (b : TxCmd), ((s.trx n).held = [] ∧ (s.trx n).planned < 16) → (s.consumedBy (0x20 + n)).find? (fun (x : Nat) => (s.head? x).isSome) = some q → s.head? q = some e → s.txDescAt e = d → d.kind = 2 → (s.trx n).braid = some b → (((s.advance u).dequeue q).emit (.entry q e)).txRefusal n d = none → Completes (.txCmdBraidAppend n u) s fun t =>
      (t.trx n).braid.map (fun (c : TxCmd) => c.members.map (fun (m : TxMember) => m.desc)) = some (b.members.map (fun (m : TxMember) => m.desc) ++ [d]) ∧
      (t.trx n).orders = (s.trx n).orders ∧
      (t.queue q).entries = (s.queue q).entries.tail ∧
      t.resp = ST.OK) ∧
    (∀ (n : Fin 4) (u q w : Nat) (e : Entry) (d : TxDesc), ((s.trx n).held = [] ∧ (s.trx n).planned < 16) → (s.consumedBy (0x20 + n)).find? (fun (x : Nat) => (s.head? x).isSome) = some q → s.head? q = some e → s.txDescAt e = d → d.kind = 2 → (((s.advance u).dequeue q).emit (.entry q e)).txRefusal n d = some w → Completes (.txCmdBraidAppend n u) s fun t =>
      (t.trx n).plan = (s.trx n).plan ∧
      t.getF (R.TRX_CMD_ERR_STATUS n) = w % 2 ^ 16 ∧
      t.resp = w ∧
      t.getF (R.TRX_TX_COUNT1_REFUSED n) = min (R.TRX_TX_COUNT1_REFUSED n).max (s.getF (R.TRX_TX_COUNT1_REFUSED n) + 1)) ∧
    (∀ (n : Fin 4) (u q : Nat) (e : Entry) (d : TxDesc), ((s.trx n).held = [] ∧ (s.trx n).planned < 16) → (s.consumedBy (0x20 + n)).find? (fun (x : Nat) => (s.head? x).isSome) = some q → s.head? q = some e → s.txDescAt e = d → d.kind = 3 → (((s.advance u).dequeue q).emit (.entry q e)).txRefusal n d = none → Completes (.txCmdEnhancedBeacon n u) s fun t =>
      (t.trx n).orders = (s.trx n).orders + 1 ∧
      (t.trx n).planned = (s.trx n).planned + 1 ∧
      (t.trx n).plan.any (fun (c : TxCmd) => decide (c.order = (s.trx n).orders) && decide (c.members.map (fun (m : TxMember) => m.desc) = [d]) && decide (c.braid = false)) = true ∧
      (t.queue q).entries = (s.queue q).entries.tail ∧
      t.resp = ST.OK) ∧
    (∀ (n : Fin 4) (u q w : Nat) (e : Entry) (d : TxDesc), ((s.trx n).held = [] ∧ (s.trx n).planned < 16) → (s.consumedBy (0x20 + n)).find? (fun (x : Nat) => (s.head? x).isSome) = some q → s.head? q = some e → s.txDescAt e = d → d.kind = 3 → (((s.advance u).dequeue q).emit (.entry q e)).txRefusal n d = some w → Completes (.txCmdEnhancedBeacon n u) s fun t =>
      (t.trx n).plan = (s.trx n).plan ∧
      t.getF (R.TRX_CMD_ERR_STATUS n) = w % 2 ^ 16 ∧
      t.resp = w ∧
      t.getF (R.TRX_TX_COUNT1_REFUSED n) = min (R.TRX_TX_COUNT1_REFUSED n).max (s.getF (R.TRX_TX_COUNT1_REFUSED n) + 1)) ∧
    (∀ (n : Fin 4) (u q : Nat) (e : Entry) (d : TxDesc), ((s.trx n).held = [] ∧ (s.trx n).planned < 16) → (s.consumedBy (0x20 + n)).find? (fun (x : Nat) => (s.head? x).isSome) = some q → s.head? q = some e → s.txDescAt e = d → d.kind = 4 → (((s.advance u).dequeue q).emit (.entry q e)).txRefusal n d = none → Completes (.txCmdWakeKeying n u) s fun t =>
      (t.trx n).orders = (s.trx n).orders + 1 ∧
      (t.trx n).planned = (s.trx n).planned + 1 ∧
      (t.trx n).plan.any (fun (c : TxCmd) => decide (c.order = (s.trx n).orders) && decide (c.members.map (fun (m : TxMember) => m.desc) = [d]) && decide (c.braid = false)) = true ∧
      (t.queue q).entries = (s.queue q).entries.tail ∧
      t.resp = ST.OK) ∧
    (∀ (n : Fin 4) (u q w : Nat) (e : Entry) (d : TxDesc), ((s.trx n).held = [] ∧ (s.trx n).planned < 16) → (s.consumedBy (0x20 + n)).find? (fun (x : Nat) => (s.head? x).isSome) = some q → s.head? q = some e → s.txDescAt e = d → d.kind = 4 → (((s.advance u).dequeue q).emit (.entry q e)).txRefusal n d = some w → Completes (.txCmdWakeKeying n u) s fun t =>
      (t.trx n).plan = (s.trx n).plan ∧
      t.getF (R.TRX_CMD_ERR_STATUS n) = w % 2 ^ 16 ∧
      t.resp = w ∧
      t.getF (R.TRX_TX_COUNT1_REFUSED n) = min (R.TRX_TX_COUNT1_REFUSED n).max (s.getF (R.TRX_TX_COUNT1_REFUSED n) + 1)) ∧
    (∀ (n : Fin 4) (u : Nat) (c : TxCmd), planHead (((s.advance u).replan n).trx n).plan = some c → c.latest < ((s.advance u).replan n).planDep n c → c.members ≠ [] → Completes (.txLateDrop n u) s fun t =>
      t.isSet (R.TRX_TX_EVENT_LATE n) = true ∧
      (t.trx n).plan.map (fun (x : TxCmd) => x.order) = ((s.trx n).plan.filter (fun (x : TxCmd) => x.order != c.order)).map (fun (x : TxCmd) => x.order)) ∧
    (∀ (n : Fin 4) (u : Nat) (c : TxCmd), ((s.trx n).plan = [] ∨ (planHead (((s.advance u).replan n).trx n).plan = some c ∧ ((s.advance u).replan n).planDep n c ≤ c.latest)) → Completes (.txLateDrop n u) s fun t =>
      t = (s.advance u).replan n) ∧
    (∀ (n : Fin 4) (c : TxCmd), planHead (s.trx n).plan = some c → c.planned = true → s.su.warm = none → (s.trxState n = s.trxTarget n ∧ 2 ≤ s.trxState n ∧ s.trxState n ≤ 3) → ((s.trx n).step = none ∧ (s.trx n).onAir = none ∧ (s.trx n).calPending = false) → (s.mtb ≤ c.dep - intoTx (s.trxState n) ∧ c.dep ≤ c.latest) → s.dev ≠ devHoldInhibit → s.holdMark.all (fun m => decide (c.fin < m)) = true → s.outputStop.all (fun m => decide (c.fin < m)) = true → Completes (.txLaunch n) s fun t =>
      (t.trx n).onAir = some c ∧
      (t.trx n).step = some (4, c.dep) ∧
      t.isSet (R.TRX_TX_STAT_LAUNCHED n) = true ∧
      t.mtb = c.dep - intoTx (s.trxState n)) ∧
    (∀ (n : Fin 4) (c : TxCmd) (b : Bool), planHead (s.trx n).plan = some c → (c.planned = true ∧ c.members ≠ []) → s.su.warm = none → (s.trxState n = s.trxTarget n ∧ 2 ≤ s.trxState n ∧ s.trxState n ≤ 3) → ((s.trx n).step = none ∧ (s.trx n).onAir = none ∧ (s.trx n).calPending = false) → (s.mtb ≤ c.dep - intoTx (s.trxState n) ∧ c.dep ≤ c.latest) → b = (decide (s.dev = devHoldInhibit) || s.holdMark.any (fun m => decide (m ≤ c.fin))) → (b = true ∨ s.outputStop.any (fun m => decide (m ≤ c.fin)) = true) → Completes (.txLaunch n) s fun t =>
      (t.trx n).onAir = none ∧
      (t.trx n).plan.map (fun (x : TxCmd) => x.order) = ((s.trx n).plan.filter (fun (x : TxCmd) => x.order != c.order)).map (fun (x : TxCmd) => x.order) ∧
      (b = false → t.isSet (R.TRX_TX_EVENT_FENCE n) = true)) ∧
    (∀ (n : Fin 4), ((s.trx n).plan = [] ∨ (s.trx n).step ≠ none ∨ (s.trx n).onAir ≠ none ∨ s.trxState n ≠ s.trxTarget n) → Completes (.txLaunch n) s fun t =>
      t = s) ∧
    (∀ (n : Fin 4) (g : Bool) (c : TxCmd) (m : TxMember) (a p f : Int) (k : Nat), (s.trx n).onAir = some c → c.nextCommit = some m → (s.coexOn n = false ∨ g = true ∨ c.members.any (fun (x : TxMember) => x.commit) = true) → (a = (if m.desc.power = 0x80 then signed 8 (s.getF (R.TRX_PWR_DEFAULT n)) else signed 8 m.desc.power)) → (p = min a (if c.braid then signed 8 (s.getF (R.TRX_PWR_LIMIT n)) - braidCut c.budget else signed 8 (s.getF (R.TRX_PWR_LIMIT n)))) → f = (match s.trxRec n with | some r => chanSteps n ((m.desc.chanKhz : Int) - r.centreKhz) | none => 0) → k = (c.members.findIdx? (fun (x : TxMember) => decide (x.desc = m.desc) && decide (x.dep = m.dep))).getD 0 → Completes (.txCommit n g) s fun t =>
      t.mtb = max s.mtb (m.dep - 4096) ∧
      (m.desc.kind ≠ 4 → t.out.head? = some (.radio n k m.desc m.dep p (s.picot m.desc m.dep) f (s.airPsdu m.desc m.dep))) ∧
      (m.desc.kind = 4 → t.out.head? = some (.wake n m.desc m.dep p f (chipCyc m.rate) (wakeChips (wakeBits m.pre (m.desc.buf % 256) m.desc.len (m.desc.buf / 65536))))) ∧
      (signed 8 (s.getF (R.TRX_PWR_LIMIT n)) < a → t.isSet (R.TRX_EVENT_PWR_CLIP n) = true)) ∧
    (∀ (n : Fin 4) (g : Bool) (c : TxCmd) (m : TxMember), (s.trx n).onAir = some c → c.nextCommit = some m → c.members.all (fun (x : TxMember) => !x.commit) = true → (s.coexOn n = true ∧ g = false) → Completes (.txCommit n g) s fun t =>
      (t.trx n).onAir = none ∧
      t.isSet (R.TRX_EVENT_COEX_LATE n) = true ∧
      t.getF (R.TRX_CMD_ERR_STATUS n) = ST.TRX_COEX_LATE n ∧
      t.trxState n = 4) ∧
    (∀ (n : Fin 4) (g : Bool), (s.trx n).onAir.all (fun (c : TxCmd) => decide (c.nextCommit = none)) = true → Completes (.txCommit n g) s fun t =>
      t = s) ∧
    (∀ (n : Fin 4) (c : TxCmd), (s.trx n).onAir = some c → (s.trx n).ending = none → c.members.all (fun (x : TxMember) => x.commit) = true → Completes (.txEnd n) s fun t =>
      (t.trx n).onAir = none ∧
      t.trxState n = 4 ∧
      t.mtb = max s.mtb c.fin ∧
      ((s.trx n).relock = false ∧ s.su.warm = none → (t.trx n).step = some ((outOfTx (s.trxTarget n) (s.trx n).calPending).1, max s.mtb c.fin + (outOfTx (s.trxTarget n) (s.trx n).calPending).2)) ∧
      t.getF (R.TRX_TX_COUNT0_SENT n) = min (R.TRX_TX_COUNT0_SENT n).max (s.getF (R.TRX_TX_COUNT0_SENT n) + c.members.length)) ∧
    (∀ (n : Fin 4) (w e : Nat) (c : TxCmd), (s.trx n).onAir = some c → (s.trx n).ending = some (w, e) → Completes (.txEnd n) s fun t =>
      (t.trx n).onAir = none ∧
      t.trxState n = 4 ∧
      t.mtb = max s.mtb e) ∧
    (∀ (n : Fin 4), ((s.trx n).onAir = none ∨ ((s.trx n).ending = none ∧ (s.trx n).onAir.all (fun (c : TxCmd) => c.members.any (fun (x : TxMember) => !x.commit)) = true)) → Completes (.txEnd n) s fun t =>
      t = s)

/-- Slots, requests, channel access. Where the MAC acts once more on what waited (`macTick`), the statement says what the
state it acts on holds. Where the spec leaves a detail open it rests on the model's choices of log entries 24, 27 and 46. -/
def Obligations.SlotsAndRequests : Prop :=
  ∀ s : State, s.Inv → 
    (∀ (u : Nat), s.running = true → s.mac.slot ≠ some (s.asn (max s.mtb u)) → Completes (.slotStart u) s fun t =>
      t.mac.slot = some (s.asn (max s.mtb u)) ∧
      t.mac.plans = s.mac.plans.filter (fun (p : Nat × SlotPlan) => decide (s.asn (max s.mtb u) ≤ p.1)) ∧
      t.mtb = max s.mtb u ∧
      t.getF R.SLEEP_LOAD_LAST = s.sl.loadNow % 2 ^ R.SLEEP_LOAD_LAST.width) ∧
    (∀ (u : Nat), (s.running = false ∨ s.mac.slot = some (s.asn (max s.mtb u))) → Completes (.slotStart u) s fun t =>
      t = s.advance u) ∧
    (∀ (a : Nat), s.mac.slot = some a → Store.find? ((a + 2) % 2 ^ 40) s.mac.plans = none → Completes .lanePlanComplete s fun t =>
      Store.find? ((a + 2) % 2 ^ 40) t.mac.plans = some (s.buildPlan ((a + 2) % 2 ^ 40)).2 ∧
      ((s.slotCells ((a + 2) % 2 ^ 40)).1 = [] → Store.find? ((a + 2) % 2 ^ 40) t.mac.plans = some {}) ∧
      ((s.slotCells ((a + 2) % 2 ^ 40)).2 ≠ 0 → t.isSet R.MAC_EVENT_PLAN_ROWS = true) ∧
      t.mtb = s.mtb) ∧
    (s.mac.slot.all (fun (a : Nat) => (Store.find? ((a + 2) % 2 ^ 40) s.mac.plans).isSome) = true → Completes .lanePlanComplete s fun t =>
      t = s) ∧
    (∀ (u q : Nat) (e : Entry) (r0 : TxReq), s.macQueue false = some (q, e) → txReqOf (s.itemOf e 32) = r0 → (s.macTaken u q e).reqStatus r0 = 0 → Completes (.txRequest u) s fun t =>
      t.out.contains (.entry q e) = true ∧
      t.mtb = max s.mtb u ∧
      (∃ r : State, t = State.macTick r ∧ (r.frame? s.mac.nextId).map (fun (g : Frame) => (g.req, g.state)) = some (r0, .waiting) ∧ r.mac.nextId = s.mac.nextId + 1 ∧ (r.queue q).entries = (s.queue q).entries.tail)) ∧
    (∀ (u q w : Nat) (e : Entry) (r0 : TxReq), s.macQueue false = some (q, e) → txReqOf (s.itemOf e 32) = r0 → ((s.macTaken u q e).reqStatus r0 = w ∧ w ≠ 0) → Completes (.txRequest u) s fun t =>
      t.out.contains (.entry q e) = true ∧
      t.mtb = max s.mtb u ∧
      (∃ r : State, t = State.macTick r ∧ r.getF R.MAC_CMD_ERR_STATUS = w % 2 ^ 16 ∧ (r.frame? s.mac.nextId).all (fun (g : Frame) => g.state == FrameState.complete && g.status == w) = true)) ∧
    (∀ (u : Nat), s.macQueue false = none → Completes (.txRequest u) s fun t =>
      t = s.advance u) ∧
    (∀ (n : Fin 4) (u a : Nat) (x : TxCell), s.mac.slot = some a → s.slotTx a n = some x → (s.roleSends = true ∧ s.lbt n = false) → (s.mac.senses = [] ∧ s.mac.senseWait = []) → Completes (.tschTxCell n u) s fun t =>
      t.mtb = max s.mtb u ∧
      (∃ r : State, t = State.macTick r ∧ r.slotTx a n = none ∧ (x.shift = none → ∀ id ∈ (match x.of with | .frame id => [id] | _ => []), (s.frame? id).any (fun (f : Frame) => (s.advance u).mayIssue id x.trx x.phy (s.slotStart (max s.mtb u) 0 + s.tpl x.cell.pan 3) 0 f) = true → (r.frame? id).map (fun (g : Frame) => (g.state, g.trx, g.held)) = some (.issued, x.trx, false) ∧ (Store.find? s.mac.nextTag r.mac.cmds).map (fun (c : MacCmd) => (c.of, c.trx)) = some (.frame id, x.trx)))) ∧
    (∀ (n : Fin 4) (u a : Nat) (x : TxCell), s.mac.slot = some a → s.slotTx a n = some x → (s.roleSends = true ∧ s.lbt n = true) → (s.mac.senses = [] ∧ s.mac.senseWait = []) → Completes (.tschTxCell n u) s fun t =>
      (s.inRx n = true → (Store.find? (2 * (n : Nat)) t.mac.senses).map (fun (y : Sense) => (y.of, y.chan, y.from_, y.until_, y.slot)) = some (x.of, x.chan, dcycEdge (max (max s.mtb u) (s.slotStart (max s.mtb u) 0 + s.tpl x.cell.pan 1)), dcycEdge (max (max s.mtb u) (s.slotStart (max s.mtb u) 0 + s.tpl x.cell.pan 1)) + divUp (s.ccaLen n x.phy) 32 * 41250, some a)) ∧
      (s.inRx n = false → t.mac.senseWait.map (fun y => (y.1, y.2.of, y.2.slot)) = [((n : Nat), x.of, some a)]) ∧
      t.regs = s.regs ∧
      t.mtb = max s.mtb u) ∧
    (∀ (n : Fin 4) (u : Nat), (s.mac.slot = none ∨ s.roleSends = false) → Completes (.tschTxCell n u) s fun t =>
      t = s.advance u) ∧
    (∀ (n : Fin 4) (k : Fin 2) (v : Int) (x : Sense) (f : Frame) (id : Nat), Store.find? (2 * n.val + k.val) s.mac.senses = some x → (x.slot = none ∧ x.of = .frame id) → s.frame? id = some f → s.tracked f.req.node = false → ((s.advance x.until_).senseBusy n x v = false ∧ (s.senseOver (2 * n.val + k.val) x).anyLive n = false) → Completes (.carrierSenseEnd n k v) s fun t =>
      t.mtb = max s.mtb x.until_ ∧
      (∃ r : State, t = State.macTick r ∧ r.mac.senses = Store.del (2 * n.val + k.val) s.mac.senses ∧ ((s.senseOver (2 * n.val + k.val) x).mayIssue id n f.req.phy (max s.mtb x.until_ + 48064) 0 f = true → (r.frame? id).map (fun (g : Frame) => (g.state, g.trx)) = some (.issued, n.val) ∧ (Store.find? s.mac.nextTag r.mac.cmds).map (fun (c : MacCmd) => (c.of, c.trx)) = some (.frame id, n.val)))) ∧
    (∀ (n : Fin 4) (k : Fin 2) (v : Int) (id : Nat) (x : Sense) (f : Frame), Store.find? (2 * n.val + k.val) s.mac.senses = some x → (x.slot = none ∧ x.of = .frame id) → s.frame? id = some f → s.tracked f.req.node = false → (s.advance x.until_).senseBusy n x v = true → Completes (.carrierSenseEnd n k v) s fun t =>
      t.mtb = max s.mtb x.until_ ∧
      (∃ r : State, t = State.macTick r ∧ (f.nb + 1 ≤ s.getF R.MAC_CSMA_CFG_MAX_BACKOFFS → (r.frame? id).map (fun (g : Frame) => (g.state, g.nb, g.be, g.counter)) = some (.backoff, f.nb + 1, min (f.be + 1) (s.getF R.MAC_CSMA_CFG_MAX_BE), none)) ∧ (s.getF R.MAC_CSMA_CFG_MAX_BACKOFFS < f.nb + 1 → (r.frame? id).all (fun (g : Frame) => g.state == FrameState.complete && g.status == ST.MAC_ACCESS_FAIL) = true) ∧ r.mac.senses = Store.del (2 * n.val + k.val) s.mac.senses)) ∧
    (∀ (n : Fin 4) (k : Fin 2) (v : Int) (a : Nat) (x : Sense) (y : TxCell), Store.find? (2 * n.val + k.val) s.mac.senses = some x → x.slot = some a → s.slotTx a n = some y → Completes (.carrierSenseEnd n k v) s fun t =>
      t.mtb = max s.mtb x.until_ ∧
      (∃ r : State, t = State.macTick r ∧ r.slotTx a n = none ∧ ((s.advance x.until_).senseBusy n x v = true → r.mac.cmds = s.mac.cmds))) ∧
    (∀ (n : Fin 4) (k : Fin 2) (v : Int), Store.find? (2 * n.val + k.val) s.mac.senses = none → Completes (.carrierSenseEnd n k v) s fun t =>
      t = s) ∧
    (∀ (id n : Nat) (f : Frame), s.frame? id = some f → f.state = .backoff → s.csmaTrx f.req = some n → Completes (.csmaBackoffEnd id) s fun t =>
      t.mtb = max s.mtb f.until_ ∧
      t.frame? id = some { f with state := .sense } ∧
      (s.inRx n = true → (s.freeTap n).toList.all (fun (k : Nat) => decide (Store.find? k t.mac.senses = some { of := .frame id, chan := f.req.chan, dur := s.ccaLen n f.req.phy, from_ := dcycEdge (max s.mtb f.until_), until_ := dcycEdge (max s.mtb f.until_) + divUp (s.ccaLen n f.req.phy) 32 * 41250 })) = true) ∧
      (s.freeTap n = none ∨ s.inRx n = false → t.mac.senseWait = s.mac.senseWait ++ [(n, { of := .frame id, chan := f.req.chan, dur := s.ccaLen n f.req.phy })])) ∧
    (∀ (id : Nat), (s.frame? id).all (fun (f : Frame) => f.state != .backoff) = true → Completes (.csmaBackoffEnd id) s fun t =>
      t = s) ∧
    (∀ (id u : Nat) (f : Frame), s.frame? id = some f → (f.state = .ackWait ∧ f.until_ ≤ u) → (s.rd.rxs.any (fun (r : Nat × Rx) => decide (laneTrx r.2.lane = f.trx ∧ f.sent < r.2.ts ∧ r.2.ts ≤ f.until_)) = false) → s.tracked f.req.node = false → ((if s.tsch f.req.pan then s.getF R.MAC_TSCH_CFG_RETRIES else s.getF R.MAC_CSMA_CFG_RETRIES) ≤ f.resends) → Completes (.ackWaitTimeout id u) s fun t =>
      t.isSet R.MAC_EVENT_NO_ACK = true ∧
      t.mtb = max s.mtb u ∧
      (∃ r : State, t = State.macTick r ∧ (r.frame? id).all (fun (g : Frame) => g.state == FrameState.complete && g.status == ST.MAC_NO_ACK) = true)) ∧
    (∀ (id u : Nat) (f : Frame), s.frame? id = some f → (f.state = .ackWait ∧ f.until_ ≤ u) → (s.rd.rxs.any (fun (r : Nat × Rx) => decide (laneTrx r.2.lane = f.trx ∧ f.sent < r.2.ts ∧ r.2.ts ≤ f.until_)) = false) → s.tracked f.req.node = false → (f.resends < (if s.tsch f.req.pan then s.getF R.MAC_TSCH_CFG_RETRIES else s.getF R.MAC_CSMA_CFG_RETRIES)) → Completes (.ackWaitTimeout id u) s fun t =>
      t.mtb = max s.mtb u ∧
      (∃ r : State, t = State.macTick r ∧ (s.tsch f.req.pan = true → (r.frame? id).map (fun (g : Frame) => (g.state, g.resends, g.octets)) = some (.waiting, f.resends + 1, f.octets)) ∧ (r.frame? id).map (fun (g : Frame) => (g.resends, g.octets)) = some (f.resends + 1, f.octets) ∧ r.mac.cmds = s.mac.cmds)) ∧
    (∀ (id u : Nat), (s.frame? id).all (fun (f : Frame) => f.state != .ackWait || decide (u < f.until_)) = true → Completes (.ackWaitTimeout id u) s fun t =>
      t = s) ∧
    (∀ (id u : Nat) (f : Frame), s.frame? id = some f → (f.req.deadline ≠ 0xFFFFFFFFFF ∧ f.req.deadline < s.asn (max s.mtb u)) → (f.state = .waiting ∨ f.state = .backoff ∨ f.state = .sense) → Completes (.frameDeadlineExpiry id u) s fun t =>
      t.mtb = max s.mtb u ∧
      (∃ r : State, t = State.macTick r ∧ (r.frame? id).all (fun (g : Frame) => g.state == FrameState.complete && g.status == (if f.held then ST.MAC_DUTY else ST.MAC_EXPIRED)) = true ∧ r.mac.senses = s.mac.senses.filter (fun (x : Nat × Sense) => x.2.of != CmdOf.frame id))) ∧
    (∀ (id u : Nat) (f : Frame), s.frame? id = some f → (f.req.deadline = 0xFFFFFFFFFF ∨ s.asn (max s.mtb u) ≤ f.req.deadline ∨ f.free = false) → Completes (.frameDeadlineExpiry id u) s fun t =>
      t = s.advance u)

/-- Completions, accounts, registers. Where the MAC acts once more on what waited (`macTick`), the statement says what the
state it acts on holds. Where the spec leaves a detail open it rests on the model's choices of log entries 24, 27 and 46. -/
def Obligations.MacAccountsAndRegisters : Prop :=
  ∀ s : State, s.Inv → 
    (∀ (u q p : Nat) (e : Entry) (d : List Byte) (c : MacCmd), s.macQueue true = some (q, e) → s.itemOf e 16 = d → Store.find? (leNat ((d.drop 8).take 2)) s.mac.cmds = some c → (leNat ((d.drop 10).take 2) = ST.OK ∧ leNat (d.take 8) ≠ 0) → c.of = .beacon p → Completes (.shuttleCompletionRx u) s fun t =>
      t.out.contains (.entry q e) = true ∧
      t.mtb = max s.mtb u ∧
      (∃ r : State, t = State.macTick r ∧ r.mac.ebDue = without (p * 4 + c.trx) s.mac.ebDue ∧ Store.find? (p * 4 + c.trx) r.mac.ebLast = some (s.asn (leNat (d.take 8))) ∧ r.mac.cmds = Store.del (leNat ((d.drop 8).take 2)) s.mac.cmds)) ∧
    (∀ (u q id : Nat) (e : Entry) (d : List Byte) (c : MacCmd) (f : Frame), s.macQueue true = some (q, e) → s.itemOf e 16 = d → Store.find? (leNat ((d.drop 8).take 2)) s.mac.cmds = some c → (leNat ((d.drop 10).take 2) = ST.OK ∧ leNat (d.take 8) ≠ 0) → c.of = .frame id → s.frame? id = some f → (f.req.ar = true ∧ f.req.node ≠ nodeNone) → Completes (.shuttleCompletionRx u) s fun t =>
      t.out.contains (.entry q e) = true ∧
      t.mtb = max s.mtb u ∧
      (∃ r : State, t = State.macTick r ∧ (r.frame? id).map (fun (g : Frame) => (g.state, g.tries, g.sent, g.req)) = some (.ackWait, f.tries + 1, leNat (d.take 8), f.req) ∧ r.mac.cmds = Store.del (leNat ((d.drop 8).take 2)) s.mac.cmds)) ∧
    (∀ (u q id : Nat) (e : Entry) (d : List Byte) (c : MacCmd) (f : Frame), s.macQueue true = some (q, e) → s.itemOf e 16 = d → Store.find? (leNat ((d.drop 8).take 2)) s.mac.cmds = some c → (leNat ((d.drop 10).take 2) = ST.OK ∧ leNat (d.take 8) ≠ 0) → c.of = .frame id → s.frame? id = some f → (f.req.ar = false ∨ f.req.node = nodeNone) → Completes (.shuttleCompletionRx u) s fun t =>
      t.out.contains (.entry q e) = true ∧
      t.mtb = max s.mtb u ∧
      (∃ r : State, t = State.macTick r ∧ (r.frame? id).all (fun (g : Frame) => g.state == FrameState.complete && g.status == ST.OK && g.tries == f.tries + 1) = true ∧ r.mac.cmds = Store.del (leNat ((d.drop 8).take 2)) s.mac.cmds)) ∧
    (∀ (u q id : Nat) (e : Entry) (d : List Byte) (c : MacCmd) (f : Frame), s.macQueue true = some (q, e) → s.itemOf e 16 = d → Store.find? (leNat ((d.drop 8).take 2)) s.mac.cmds = some c → (leNat ((d.drop 10).take 2) ≠ ST.OK ∧ leNat (d.take 8) = 0) → c.of = .frame id → s.frame? id = some f → s.tracked f.req.node = false → Completes (.shuttleCompletionRx u) s fun t =>
      t.out.contains (.entry q e) = true ∧
      t.mtb = max s.mtb u ∧
      (∃ r : State, t = State.macTick r ∧ (r.frame? id).map (fun (g : Frame) => (g.state, g.tries, g.counter)) = some (.waiting, f.tries, none) ∧ r.mac.cmds = Store.del (leNat ((d.drop 8).take 2)) s.mac.cmds)) ∧
    (∀ (u q k : Nat) (e : Entry) (d : List Byte) (c : MacCmd), s.macQueue true = some (q, e) → s.itemOf e 16 = d → Store.find? (leNat ((d.drop 8).take 2)) s.mac.cmds = some c → (leNat ((d.drop 10).take 2) = ST.OK ∧ leNat (d.take 8) ≠ 0) → c.of = .ack k → Completes (.shuttleCompletionRx u) s fun t =>
      t.out.contains (.entry q e) = true ∧
      t.mtb = max s.mtb u ∧
      (∃ r : State, t = State.macTick r ∧ r.getF R.MAC_ACK_COUNT0_SENT = min R.MAC_ACK_COUNT0_SENT.max (s.getF R.MAC_ACK_COUNT0_SENT + 1) ∧ r.mac.cmds = Store.del (leNat ((d.drop 8).take 2)) s.mac.cmds)) ∧
    (∀ (u : Nat), s.macQueue true = none → Completes (.shuttleCompletionRx u) s fun t =>
      t = s.advance u) ∧
    (∀ (p : Fin 16) (n : Fin 4) (u : Nat) (a : PanRec), s.panRec p = some a → (s.tsch p = true ∧ s.panEnabled p = true) → (bitOf a.trxMask n = true ∧ a.ebPeriod ≠ 0) → Store.get (fun _ => 0) s.mac.ebLast (p.val * 4 + n.val) + a.ebPeriod ≤ s.asn (max s.mtb u) → Completes (.ebDue p n u) s fun t =>
      t.mac.ebDue = withOne (p.val * 4 + n.val) s.mac.ebDue ∧
      t.mtb = max s.mtb u ∧
      t.regs = s.regs) ∧
    (∀ (p : Fin 16) (n : Fin 4) (u : Nat), (s.tsch p = false ∨ s.panEnabled p = false ∨ (s.panRec p).all (fun (a : PanRec) => !bitOf a.trxMask n || decide (a.ebPeriod = 0)) = true) → Completes (.ebDue p n u) s fun t =>
      t = s.advance u) ∧
    (∀ (p : Fin 16) (u : Nat), Completes (.dutyBucketRoll p u) s fun t =>
      t.mtb = max s.mtb u ∧
      (∃ r : State, t = State.macTick r ∧ r.mac.duty = s.mac.duty.filter (fun (e : Nat × Nat) => !(e.1 / 2 ^ 48 == (p : Nat) && decide (e.1 % 2 ^ 48 + 100 < max s.mtb u / s.bucketCyc p))) ∧ r.regs = s.regs ∧ (r.dutyUsed p = 0 → s.pr.profiles[(p : Nat)]?.any (fun (a : Profile) => decide (0 < a.windowS * a.duty)) = true → r.mac.atLimit = without p s.mac.atLimit))) ∧
    (∀ (n : Fin 4) (e : Nat), Store.find? n.val s.mac.off = some e → Completes (.offTimeEnd n) s fun t =>
      t.mtb = max s.mtb e ∧
      (∃ r : State, t = State.macTick r ∧ r.mac.off = Store.del n.val s.mac.off ∧ r.regs = s.regs)) ∧
    (∀ (n : Fin 4), Store.find? n.val s.mac.off = none → Completes (.offTimeEnd n) s fun t =>
      t = s) ∧
    (∀ (n : Fin 4) (c d k : Nat), Store.find? n.val s.mac.cuts = some c → ((s.advance c).groupPlan n true (s.mac.owed.length + 1)).2 = some (d, k) → d - 48064 ≤ max s.mtb c → Completes (.braidCut n) s fun t =>
      t.mtb = max s.mtb c ∧
      (∃ r : State, t = State.macTick r ∧ Store.find? n.val r.mac.cuts = none ∧ (r.mac.owed.filter (fun (a : Owed) => decide (a.trx = n))) = [])) ∧
    (∀ (n : Fin 4) (c : Nat) (a : Owed), Store.find? n.val s.mac.cuts = some c → (s.mac.owed = [a] ∧ a.trx = n) → (s.liveRx n = [] ∧ Store.find? n.val s.mac.braids = none) → (a.sealed = none ∧ dcycEdge a.nominal ≤ a.last) → dcycEdge a.nominal - 48064 ≤ max s.mtb c → (s.advance c).dutyFits n (airCyc a.phy a.octets) = true → Completes (.braidCut n) s fun t =>
      t.mtb = max s.mtb c ∧
      (∃ r : State, t = State.macTick r ∧ r.mac.owed = [] ∧ (Store.find? n.val r.mac.braids).map (fun (b : Braid) => (b.dep, b.budget, b.count)) = some (dcycEdge a.nominal, 1, 1) ∧ Store.find? n.val r.mac.cuts = none ∧ (Store.find? s.mac.nextTag r.mac.cmds).map (fun (x : MacCmd) => (x.of, x.trx, x.tc)) = some (.ack a.rx, n.val, a.tc))) ∧
    (∀ (n : Fin 4), Store.find? n.val s.mac.cuts = none → Completes (.braidCut n) s fun t =>
      t = s) ∧
    (∀ (en : BitVec 16), (List.range 16).any (fun p => bitOf en.toNat p && (s.panRec p).isNone) = false → Completes (.macPanEnableWrite en) s fun t =>
      t.getF R.MAC_CTRL_PAN_EN = en.toNat ∧
      t.resp = ST.OK ∧
      (∀ f ∈ s.mac.frames, f.2.state ≠ .complete → (List.range 16).any (fun p => bitOf (s.getF R.MAC_CTRL_PAN_EN) p && !bitOf en.toNat p && f.2.req.pan == p) = true → (t.frame? f.1).all (fun (g : Frame) => g.state == FrameState.complete) = true)) ∧
    (∀ (en : BitVec 16), (List.range 16).any (fun p => bitOf en.toNat p && (s.panRec p).isNone) = true → Completes (.macPanEnableWrite en) s fun t =>
      t.getF R.MAC_CTRL_PAN_EN = s.getF R.MAC_CTRL_PAN_EN ∧
      t.resp = ST.MAC_RANGE ∧
      t.getF R.MAC_CMD_ERR_STATUS = ST.MAC_RANGE ∧
      t.mac = s.mac) ∧
    (Completes .macCountClear s fun t =>
      (List.range 9).all (fun k => decide (t.getReg (R.MAC_RX_COUNT0 + 4 * k) = 0)) = true ∧
      t.resp = ST.OK ∧
      t.mac = s.mac) ∧
    (∀ (en : Bool) (len : Fin 65536) (b : Nat), sfBank (s.getF R.MAC_PAN_SEL_PAN) (s.getF R.MAC_SF_SEL_HANDLE) = b → s.tsch (s.getF R.MAC_PAN_SEL_PAN) = true → len.val ≠ 0 → (en = true → s.getF (R.MAC_SF_BASE_ROW_BASE.bank b) % 256 = 0 ∧ s.getF (R.MAC_SF_BASE_ROW_BASE.bank b) + 256 * len.val ≤ (s.region 2).2) → (s.isSet (R.MAC_SF_CFG_EN.bank b) = true → len.val = s.getF (R.MAC_SF_CFG_LENGTH.bank b)) → Completes (.macSlotframeEnable en len) s fun t =>
      t.getF (R.MAC_SF_CFG_LENGTH.bank b) = len.val ∧
      t.isSet (R.MAC_SF_CFG_EN.bank b) = en ∧
      t.resp = ST.OK) ∧
    (∀ (en : Bool) (len : Fin 65536) (w : Nat), (¬ (en = false ∧ len.val = s.getF (R.MAC_SF_CFG_LENGTH.bank (sfBank (s.getF R.MAC_PAN_SEL_PAN) (s.getF R.MAC_SF_SEL_HANDLE))))) → ((if s.tsch (s.getF R.MAC_PAN_SEL_PAN) = false then some ST.MAC_NOT_TSCH else if len.val = 0 then some ST.MAC_RANGE else none) = some w) → Completes (.macSlotframeEnable en len) s fun t =>
      t.getF R.MAC_CMD_ERR_STATUS = w ∧
      t.resp = w ∧
      t.mac = s.mac)

/-- SLEEP_CTRL and SLEEP_LINK_B refuse a bad operation or node (SLEEP_RANGE), then a role without sending (SLEEP_STATE), then
what the operation needs, with status in SLEEP_CMD_ERR and the state otherwise as it was. A start takes a node OFF to
UNANCHORED, TRACKED + 1, or answers OK for one tracked; a stop takes any tracked node to OFF, forgets its entry, decision,
call, schedule and marks, TRACKED - 1; resynchronise marks the node early; reset marks its next observation as first; a call
of a node that can be woken makes it CALLING, raises CALL and starts the call. A link between two tracked leaves of one PAN
is added within the limits or already there; LINKS counts; a link is removed. T3_EXPIRY does nothing before the head's slot
or while the node is being heard; beyond 2,048 it defers; else it counts the expiry and acts. A call's wait that ends makes a
leaf's call alive at level 0 and ends a CSL node's try; not before receptions begun in it are judged. The counters clear; the
rebuild goes one node on; the earliest entry in DRAM comes into the cache while it holds fewer than 4,096. Where the spec
leaves a detail open it rests on the model's choices of log entries 28 and 46. -/
def Obligations.SleepyNodes : Prop :=
  ∀ s : State, s.Inv → 
    (∀ (n : BitVec 18), (s.roleSends = true ∧ n.toNat < s.pr.table.nodeLimit) → (s.slMode n.toNat = 1 ∨ s.slMode n.toNat = 2) → s.slState n.toNat = 0 → Completes (.sleepStart n) s fun t =>
      t.slState n.toNat = 1 ∧
      t.misses n.toNat = 0 ∧ t.attempts n.toNat = 0 ∧
      t.getF R.SLEEP_STAT_TRACKED = min R.SLEEP_STAT_TRACKED.max (s.getF R.SLEEP_STAT_TRACKED + 1) ∧
      t.resp = ST.OK) ∧
    (∀ (n : BitVec 18), (s.roleSends = true ∧ n.toNat < s.pr.table.nodeLimit) → (s.slMode n.toNat = 1 ∨ s.slMode n.toNat = 2) → s.slState n.toNat ≠ 0 → Completes (.sleepStart n) s fun t =>
      t = s.answer ST.OK) ∧
    (∀ (n : BitVec 18) (w : Nat), ((if n.toNat ≥ s.pr.table.nodeLimit then some ST.SLEEP_RANGE else if s.roleSends = false then some ST.SLEEP_STATE else if s.slMode n.toNat = 0 ∨ 2 < s.slMode n.toNat then some ST.SLEEP_RANGE else none) = some w) → Completes (.sleepStart n) s fun t =>
      t = s.refuse R.SLEEP_CMD_ERR_STATUS w) ∧
    (∀ (n : BitVec 18), (s.roleSends = true ∧ n.toNat < s.pr.table.nodeLimit) → s.slState n.toNat ≠ 0 → Completes (.sleepStop n) s fun t =>
      t.slState n.toNat = 0 ∧
      Store.find? n.toNat t.sl.t3 = none ∧ Store.find? n.toNat t.sl.acts = none ∧ Store.find? n.toNat t.sl.calls = none ∧ Store.find? n.toNat t.sl.csl = none ∧
      n.toNat ∉ t.sl.early ∧ n.toNat ∉ t.sl.fresh ∧
      t.getF R.SLEEP_STAT_TRACKED = s.getF R.SLEEP_STAT_TRACKED - 1 ∧
      t.resp = ST.OK) ∧
    (∀ (n : BitVec 18) (w : Nat), ((if n.toNat ≥ s.pr.table.nodeLimit then some ST.SLEEP_RANGE else if s.roleSends = false then some ST.SLEEP_STATE else if s.slState n.toNat = 0 then some ST.SLEEP_NOT_TRACKED else none) = some w) → Completes (.sleepStop n) s fun t =>
      t = s.refuse R.SLEEP_CMD_ERR_STATUS w) ∧
    (∀ (n : BitVec 18), (s.roleSends = true ∧ n.toNat < s.pr.table.nodeLimit) → (s.slState n.toNat ≠ 0 ∧ s.slState n.toNat ≠ 4) → Completes (.sleepResync n) s fun t =>
      t = (({ s with sl := { s.sl with early := withOne n.toNat s.sl.early } }).t3Set n.toNat).answer ST.OK ∧
      t.sl.early = withOne n.toNat s.sl.early ∧
      t.mem = s.mem ∧ t.regs = s.regs) ∧
    (∀ (n : BitVec 18) (w : Nat), ((if n.toNat ≥ s.pr.table.nodeLimit then some ST.SLEEP_RANGE else if s.roleSends = false then some ST.SLEEP_STATE else if s.slState n.toNat = 0 then some ST.SLEEP_NOT_TRACKED else if s.slState n.toNat = 4 then some ST.SLEEP_STATE else none) = some w) → Completes (.sleepResync n) s fun t =>
      t = s.refuse R.SLEEP_CMD_ERR_STATUS w) ∧
    (∀ (n : BitVec 18), (s.roleSends = true ∧ n.toNat < s.pr.table.nodeLimit) → s.slState n.toNat ≠ 0 → Completes (.sleepResetDrift n) s fun t =>
      t = ({ s with sl := { s.sl with fresh := withOne n.toNat s.sl.fresh } }).answer ST.OK) ∧
    (∀ (n : BitVec 18) (w : Nat), ((if n.toNat ≥ s.pr.table.nodeLimit then some ST.SLEEP_RANGE else if s.roleSends = false then some ST.SLEEP_STATE else if s.slState n.toNat = 0 then some ST.SLEEP_NOT_TRACKED else none) = some w) → Completes (.sleepResetDrift n) s fun t =>
      t = s.refuse R.SLEEP_CMD_ERR_STATUS w) ∧
    (∀ (n : BitVec 18), (s.roleSends = true ∧ n.toNat < s.pr.table.nodeLimit) → (s.slState n.toNat ≠ 0 ∧ s.slState n.toNat ≠ 4) → bitOf (s.slGet n.toNat 3 1) 0 = true → (s.trxRec (s.slGet n.toNat 3 1 / 2 % 4)).any (fun (r : TrxRec) => r.wake == 1) = true → Completes (.sleepCall n) s fun t =>
      t.slState n.toNat = 4 ∧
      t.isSet R.SLEEP_EVENT_CALL = true ∧
      t.getF R.SLEEP_LAST_NODE = n.toNat ∧
      (Store.find? n.toNat t.sl.calls).isSome = true ∧
      t.resp = ST.OK) ∧
    (∀ (n : BitVec 18) (w : Nat), ((if n.toNat ≥ s.pr.table.nodeLimit then some ST.SLEEP_RANGE else if s.roleSends = false then some ST.SLEEP_STATE else if bitOf (s.slGet n.toNat 3 1) 0 = false ∨ (s.trxRec (s.slGet n.toNat 3 1 / 2 % 4)).any (fun (r : TrxRec) => r.wake == 1) = false then some ST.SLEEP_NO_WAKE else if s.slState n.toNat = 0 then some ST.SLEEP_NOT_TRACKED else if s.slState n.toNat = 4 then some ST.SLEEP_STATE else none) = some w) → Completes (.sleepCall n) s fun t =>
      t = s.refuse R.SLEEP_CMD_ERR_STATUS w) ∧
    (∀ (n : BitVec 18) (a : Nat), (s.roleSends = true ∧ n.toNat < s.pr.table.nodeLimit) → (s.getF R.SLEEP_LINK_A_NODE_A = a ∧ a < s.pr.table.nodeLimit) → (s.leaf a = true ∧ s.leaf n.toNat = true) → (a ≠ n.toNat ∧ s.nodePan a = s.nodePan n.toNat) → s.linked a n.toNat = false → (s.sl.links.length < 4096 ∧ (s.linksOf a).length < 8 ∧ (s.linksOf n.toNat).length < 8) → Completes (.sleepLinkAdd n) s fun t =>
      t.sl.links = s.sl.links ++ [(a, n.toNat)] ∧
      t.getF R.SLEEP_STAT_LINKS = s.sl.links.length + 1 ∧
      t.getF R.SLEEP_LINK_B_NODE_B = n.toNat ∧
      t.resp = ST.OK) ∧
    (∀ (n : BitVec 18) (a : Nat), (s.roleSends = true ∧ n.toNat < s.pr.table.nodeLimit) → (s.getF R.SLEEP_LINK_A_NODE_A = a ∧ a < s.pr.table.nodeLimit) → (s.leaf a = true ∧ s.leaf n.toNat = true ∧ a ≠ n.toNat ∧ s.nodePan a = s.nodePan n.toNat) → s.linked a n.toNat = true → Completes (.sleepLinkAdd n) s fun t =>
      t = (s.setF R.SLEEP_LINK_B_NODE_B n.toNat).answer ST.OK) ∧
    (∀ (n : BitVec 18) (a w : Nat), s.getF R.SLEEP_LINK_A_NODE_A = a → ((if s.pr.table.nodeLimit ≤ a ∨ s.pr.table.nodeLimit ≤ n.toNat then some ST.SLEEP_RANGE else if s.roleSends = false then some ST.SLEEP_STATE else if s.leaf a = false ∨ s.leaf n.toNat = false ∨ a = n.toNat ∨ s.nodePan a ≠ s.nodePan n.toNat then some ST.SLEEP_RANGE else if s.linked a n.toNat = false ∧ (4096 ≤ s.sl.links.length ∨ 8 ≤ (s.linksOf a).length ∨ 8 ≤ (s.linksOf n.toNat).length) then some ST.SLEEP_LINK_FULL else none) = some w) → Completes (.sleepLinkAdd n) s fun t =>
      t = s.refuse R.SLEEP_CMD_ERR_STATUS w) ∧
    (∀ (n : BitVec 18) (a : Nat), (s.roleSends = true ∧ n.toNat < s.pr.table.nodeLimit) → (s.getF R.SLEEP_LINK_A_NODE_A = a ∧ a < s.pr.table.nodeLimit) → s.linked a n.toNat = true → Completes (.sleepLinkRemove n) s fun t =>
      t.linked a n.toNat = false ∧
      t.sl.links = s.sl.links.filter (fun (l : Nat × Nat) => !((l.1 = a && l.2 = n.toNat) || (l.1 = n.toNat && l.2 = a))) ∧
      t.getF R.SLEEP_STAT_LINKS = min R.SLEEP_STAT_LINKS.max t.sl.links.length ∧
      t.getF R.SLEEP_LINK_B_NODE_B = n.toNat ∧
      t.mem = s.mem ∧
      t.resp = ST.OK) ∧
    (∀ (n : BitVec 18) (a w : Nat), s.getF R.SLEEP_LINK_A_NODE_A = a → ((if s.pr.table.nodeLimit ≤ a ∨ s.pr.table.nodeLimit ≤ n.toNat then some ST.SLEEP_RANGE else if s.roleSends = false then some ST.SLEEP_STATE else if s.linked a n.toNat = false then some ST.SLEEP_RANGE else none) = some w) → Completes (.sleepLinkRemove n) s fun t =>
      t = s.refuse R.SLEEP_CMD_ERR_STATUS w) ∧
    (∀ (u : Nat), (match s.t3Head with | none => true | some (n, w) => decide (s.asn (max s.mtb u) < w.key) || s.hearing n) = true → Completes (.t3Expiry u) s fun t =>
      t = s.advance u) ∧
    (∀ (u n : Nat) (w : Wake), s.t3Head = some (n, w) → (w.key ≤ s.asn (max s.mtb u) ∧ s.hearing n = false) → s.sl.loadNow < 2048 → Completes (.t3Expiry u) s fun t =>
      t = (((State.sleepAct { s.advance u with sl := { s.sl with loadNow := s.sl.loadNow + 1 } } n).linkCheck n).linkEnds n).macTick) ∧
    (∀ (u n : Nat) (w : Wake), s.t3Head = some (n, w) → (w.key ≤ s.asn (max s.mtb u) ∧ s.hearing n = false) → 2048 ≤ s.sl.loadNow → Completes (.t3Expiry u) s fun t =>
      t.getF R.SLEEP_COUNT2_LO = min R.SLEEP_COUNT2_LO.max (s.getF R.SLEEP_COUNT2_LO + 1) ∧
      t.isSet R.SLEEP_EVENT_DEFERRED = true ∧
      t.sl = { s.sl with deferred := s.sl.deferred ++ [n] }) ∧
    (∀ (u n : Nat) (w : Wake), s.t3Head = some (n, w) → (w.key ≤ s.asn (max s.mtb u) ∧ s.hearing n = false) → s.sl.loadNow < 2048 → (s.slState n = 1 ∧ s.headFor n = none) → Completes (.t3Expiry u) s fun t =>
      (∃ r : State, t = State.macTick r ∧ r.sl.loadNow = s.sl.loadNow + 1 ∧ Store.find? n r.sl.t3 = none ∧ r.mem = s.mem)) ∧
    (∀ (u n id slot at_ : Nat) (w : Wake) (f : Frame), s.t3Head = some (n, w) → (w.key ≤ s.asn (max s.mtb u) ∧ s.hearing n = false) → s.sl.loadNow < 2048 → (s.slState n = 2 ∧ s.slMode n = 2) → (s.headFor n = some (id, f) ∧ f.state = .waiting) → Store.find? n s.sl.acts = none → (s.advance u).opp n (s.advance u).firstSlot 0 = some (slot, at_) → (((s.advance u).predict n at_).2 ≤ (s.gEff n : Int) ∧ ((s.advance u).predict n at_).1.natAbs ≤ s.steer) → s.misses n < s.getF R.SLEEP_LADDER_RETRY_L0 → Completes (.t3Expiry u) s fun t =>
      (∃ r : State, t = r.macTick ∧ Store.find? n r.sl.acts = some { level := 0, slot := some slot, shift := ((s.advance u).predict n at_).1 } ∧ r.sl.loadNow = s.sl.loadNow + 1 ∧ r.sl.early = without n s.sl.early)) ∧
    (∀ (n : BitVec 18) (c : Call) (u : Nat), Store.find? n.toNat s.sl.calls = some c → c.until_ = some u → (s.slState n.toNat = 4 ∧ s.slMode n.toNat = 2) → s.rd.rxs.all (fun r => decide (u < r.2.ts)) = true → Completes (.wakeWaitExpiry n) s fun t =>
      Store.find? n.toNat t.sl.calls = some { c with until_ := none, alive := true } ∧
      t.slGet n.toNat 12 4 = 0 ∧
      t.slGet n.toNat 20 4 = s.slBase ∧
      t.mtb = max s.mtb u) ∧
    (∀ (n : BitVec 18) (c : Call) (u : Nat), Store.find? n.toNat s.sl.calls = some c → c.until_ = some u → (s.slState n.toNat = 4 ∧ s.slMode n.toNat = 1) → s.rd.rxs.all (fun r => decide (u < r.2.ts)) = true → Completes (.wakeWaitExpiry n) s fun t =>
      t = ((s.advance u).callFailed n.toNat).macTick) ∧
    (∀ (n : BitVec 18), (match (Store.find? n.toNat s.sl.calls).bind (fun (c : Call) => c.until_) with | none => true | some u => decide (s.slState n.toNat ≠ 4) || s.rd.rxs.any (fun r => decide (r.2.ts ≤ u))) = true → Completes (.wakeWaitExpiry n) s fun t =>
      t = s) ∧
    (Completes .sleepCountClear s fun t =>
      (∀ a ∈ [R.SLEEP_COUNT0, R.SLEEP_COUNT1, R.SLEEP_COUNT2], t.getReg a = 0) ∧
      t.getF R.SLEEP_LOAD_MAX = 0 ∧
      t.resp = ST.OK) ∧
    (s.sl.rebuild = none → Completes .sleepRebuildStep s fun t =>
      t = s) ∧
    (∀ (n : Nat), s.sl.rebuild = some n → (s.pr.table.nodeLimit ≤ n ∧ 0 < n) → Completes .sleepRebuildStep s fun t =>
      t = { s with sl := { s.sl with rebuild := none } }) ∧
    (∀ (n : Nat), s.sl.rebuild = some n → n < s.pr.table.nodeLimit → Completes .sleepRebuildStep s fun t =>
      t.sl.rebuild = some (n + 1) ∧
      (s.slState n ≠ 4 → t.mem = s.mem) ∧
      (t.getF R.SLEEP_STAT_TRACKED = (if s.tracked n then min R.SLEEP_STAT_TRACKED.max ((if n = 0 then 0 else s.getF R.SLEEP_STAT_TRACKED) + 1) else if n = 0 then 0 else s.getF R.SLEEP_STAT_TRACKED))) ∧
    (∀ (n : Nat) (w : Wake), firstBy (fun (a b : Nat × Wake) => a.2.key < b.2.key || (a.2.key = b.2.key && a.2.order < b.2.order)) (s.sl.t3.filter (fun e => !e.2.onDie)) = some (n, w) → (s.sl.t3.filter (fun (e : Nat × Wake) => e.2.onDie)).length < 4096 → Completes .t3CacheRefill s fun t =>
      Store.find? n t.sl.t3 = some { w with onDie := true } ∧
      t.regs = s.regs ∧
      t = { s with sl := { s.sl with t3 := Store.put n { w with onDie := true } s.sl.t3 } }) ∧
    ((s.sl.t3.all (fun e => e.2.onDie) = true ∨ 4096 ≤ (s.sl.t3.filter (fun (e : Nat × Wake) => e.2.onDie)).length) → Completes .t3CacheRefill s fun t =>
      t = s)

/-- A bobbin that does not execute does nothing. TK_NEW creates a task from its descriptor, WAITING, with free cells, its
place in its ordered flow and its handle as the result, or answers the first of ROLE, ARG, HOOP_HELD, TASKS_FULL, PINS_FULL
and ORDER_FULL with the event. TK_FILL fills a pin, inline (the operands in the cell, visible 24 cyc after the instruction)
or by reference (4 cyc), the last fill making the task READY or PARKED 6 cyc later; or answers the first of HANDLE, ARG,
IN_SERVICE, PIN_FULL and PIN_ARMED; a source out of the reach of a customer bobbin faults. TK_PUT takes a credit and posts
the entry, stalls on a full post buffer, stages it for an ordered task, or, of the oldest task past the staging limit or
since, posts what is staged and the entry; or answers the first of ARG, ORDER_LIMIT, STAGE_FULL and NO_CREDIT. TK_TIMER arms
a live entry for the present tick plus its operand; TK_CANCEL disarms a live one before its boundary and loses to it from
then on; each refuses as listed. TK_DROP ends a task that is not in service. TK_END ends the init run, or the running task,
and the prefetched task, if any, runs. Where the spec leaves a detail open it rests on the model's choices of log entries 10,
15, 16 and 17. -/
def Obligations.TaskInstructions : Prop :=
  ∀ s : State, s.Inv → 
    (∀ (b : Fin 16) (w : Word), s.executes b = false → Completes (.tkNew b w) s fun t =>
      t = s) ∧
    (∀ (b : Fin 16) (h src : Word) (k : Fin 4) (words : Fin 32), s.executes b = false → Completes (.tkFill b h src k words) s fun t =>
      t = s) ∧
    (∀ (b : Fin 16) (q a : Word) (ordered : Bool), s.executes b = false → Completes (.tkPut b q a ordered) s fun t =>
      t = s) ∧
    (∀ (b : Fin 16) (h ticks : Word) (k l : Fin 4), s.executes b = false → Completes (.tkTimer b h ticks k l) s fun t =>
      t = s) ∧
    (∀ (b : Fin 16) (h : Word), s.executes b = false → Completes (.tkCancel b h) s fun t =>
      t = s) ∧
    (∀ (b : Fin 16) (h : Word), s.executes b = false → Completes (.tkDrop b h) s fun t =>
      t = s) ∧
    (∀ (b : Fin 16), s.executes b = false → Completes (.tkEnd b) s fun t =>
      t = s) ∧
    (∀ (b : Fin 16) (w : Word) (a : Nat), s.executes b = true → localAddr b w.toNat = a → ((if s.isCustomer (s.hoopIx b) = true ∧ (bitOf (s.readNat (a + 4) 4) 31 = true ∨ s.custKind (s.hoopIx b) (s.readNat (a + 4) 4 / 2 ^ 24 % 32) = false) then some ST.PILLOW_ROLE else if w.toNat % 16 ≠ 0 ∨ 0x40000 ≤ w.toNat ∨ s.descOk a = false then some ST.PILLOW_ARG else if s.custHeld = true ∧ (s.hoopOfKind (s.readNat (a + 4) 4 / 2 ^ 24 % 32)).any s.isCustomer = true then some ST.PILLOW_HOOP_HELD else if 32768 ≤ s.pl.tasks.length then some ST.PILLOW_TASKS_FULL else if 16384 < s.pl.pins.length + s.readNat (a + 9) 1 then some ST.PILLOW_PINS_FULL else if s.windowRoom (if s.readNat (a + 10) 2 = 0xFFFF then none else some (s.readNat (a + 10) 2)) = false then some ST.PILLOW_ORDER_FULL else none) = none) → Completes (.tkNew b w) s fun t =>
      (t.pl.tasks.any (fun (x : Nat × Task) => (s.task? x.1).isNone && x.2.entry == s.readNat a 4 && x.2.kind == s.readNat (a + 4) 4 / 2 ^ 24 % 32 && x.2.prio == s.readNat (a + 8) 1 && x.2.arg == s.readNat (a + 12) 4 && x.2.pins.length == s.readNat (a + 9) 1 && x.2.pins.all (fun (p : Pin) => !p.filled && !s.pl.pins.contains p.cell) && decide (x.2.state = .waiting) && decide (x.2.flow = if bitOf (s.readNat (a + 4) 4) 31 then some (s.readNat (a + 4) 4 % 2 ^ 18) else none) && decide (x.2.ord = if s.readNat (a + 10) 2 = 0xFFFF then none else some (s.readNat (a + 10) 2, (s.ordFlow (s.readNat (a + 10) 2)).next)) && decide (t.out = .result b (taskHandle x.2.gen x.1) :: s.out)) = true) ∧
      t.resp = ST.OK ∧
      t.regs = s.regs ∧ t.mem = s.mem) ∧
    (∀ (b : Fin 16) (w : Word) (a st : Nat), s.executes b = true → localAddr b w.toNat = a → ((if s.isCustomer (s.hoopIx b) = true ∧ (bitOf (s.readNat (a + 4) 4) 31 = true ∨ s.custKind (s.hoopIx b) (s.readNat (a + 4) 4 / 2 ^ 24 % 32) = false) then some ST.PILLOW_ROLE else if w.toNat % 16 ≠ 0 ∨ 0x40000 ≤ w.toNat ∨ s.descOk a = false then some ST.PILLOW_ARG else if s.custHeld = true ∧ (s.hoopOfKind (s.readNat (a + 4) 4 / 2 ^ 24 % 32)).any s.isCustomer = true then some ST.PILLOW_HOOP_HELD else if 32768 ≤ s.pl.tasks.length then some ST.PILLOW_TASKS_FULL else if 16384 < s.pl.pins.length + s.readNat (a + 9) 1 then some ST.PILLOW_PINS_FULL else if s.windowRoom (if s.readNat (a + 10) 2 = 0xFFFF then none else some (s.readNat (a + 10) 2)) = false then some ST.PILLOW_ORDER_FULL else none) = some st) → Completes (.tkNew b w) s fun t =>
      t.pl = s.pl ∧ t.mem = s.mem ∧
      t.resp = st ∧
      t.out = .result b (refusalWord st) :: s.out ∧
      (st = ST.PILLOW_TASKS_FULL → t.isSet R.PILLOW_EVENT_TASKS_FULL = true ∧ t.getF (R.PILLOW_COUNT_HI 3) = min (R.PILLOW_COUNT_HI 3).max (s.getF (R.PILLOW_COUNT_HI 3) + 1)) ∧
      (st = ST.PILLOW_PINS_FULL → t.isSet R.PILLOW_EVENT_PINS_FULL = true) ∧
      (st = ST.PILLOW_ORDER_FULL → t.isSet R.PILLOW_EVENT_ORDER_FULL = true)) ∧
    (∀ (b : Fin 16) (h src : Word) (k : Fin 4) (words : Fin 32) (i : Nat) (x : Task) (p : Pin), s.executes b = true → ((match s.byHandle h.toNat with | none => some ST.PILLOW_HANDLE | some (_, x) => if x.pins.length ≤ k.val ∨ 16 < words.val ∨ words.val ≠ 0 ∧ ¬ (src.toNat % 4 = 0 ∧ (src.toNat + 4 * words.val ≤ 0x40000 ∨ 0x10000000 ≤ src.toNat ∧ src.toNat + 4 * words.val ≤ 0x10600000)) then some ST.PILLOW_ARG else if inServiceState x = true then some ST.PILLOW_IN_SERVICE else if (x.pins[k.val]?).any (fun (p : Pin) => p.filled) = true then some ST.PILLOW_PIN_FULL else if (x.pins[k.val]?).any (fun (p : Pin) => p.armed.isSome) = true then some ST.PILLOW_PIN_ARMED else none) = none) → s.byHandle h.toNat = some (i, x) → x.pins[k.val]? = some p → (words.val = 0 ∨ s.accessCause b src.toNat (4 * words.val) false = none) → Completes (.tkFill b h src k words) s fun t =>
      ((t.task? i).map (fun (y : Task) => y.pins) = some (x.pins.set k.val { p with filled := true, isRef := decide (words.val = 0), ref := if words.val = 0 then src.toNat else 0, armed := none, seen := s.mtb + (if words.val = 0 then s.bobCyc b 4 + 4 else s.bobCyc b (4 + words.val) + 24) })) ∧
      (words.val ≠ 0 → t.readBytes (pinAddr p.cell) (4 * words.val) = s.readBytes (bobAddr b src.toNat) (4 * words.val)) ∧
      (words.val = 0 → t.mem = s.mem) ∧
      ((t.task? i).map (fun (y : Task) => y.state) = some (if x.state = .waiting ∧ (x.pins.set k.val { p with filled := true }).all (fun (y : Pin) => y.filled) = true then (if x.flow.all (fun (f : Nat) => s.pl.atomics.contains f || decide (s.pl.atomics.length < 4096)) = true then .ready else .parked) else x.state)) ∧
      (x.state = .waiting ∧ (x.pins.set k.val { p with filled := true }).all (fun (y : Pin) => y.filled) = true → (t.task? i).map (fun (y : Task) => y.ready) = some ((x.pins.set k.val { p with filled := true, isRef := decide (words.val = 0), ref := if words.val = 0 then src.toNat else 0, armed := none, seen := s.mtb + (if words.val = 0 then s.bobCyc b 4 + 4 else s.bobCyc b (4 + words.val) + 24) }).foldl (fun n (y : Pin) => max n y.seen) 0 + 6)) ∧
      t.resp = ST.OK ∧ t.out = .result b 0 :: s.out) ∧
    (∀ (b : Fin 16) (h src : Word) (k : Fin 4) (words : Fin 32) (w : Nat), s.executes b = true → ((match s.byHandle h.toNat with | none => some ST.PILLOW_HANDLE | some (_, x) => if x.pins.length ≤ k.val ∨ 16 < words.val ∨ words.val ≠ 0 ∧ ¬ (src.toNat % 4 = 0 ∧ (src.toNat + 4 * words.val ≤ 0x40000 ∨ 0x10000000 ≤ src.toNat ∧ src.toNat + 4 * words.val ≤ 0x10600000)) then some ST.PILLOW_ARG else if inServiceState x = true then some ST.PILLOW_IN_SERVICE else if (x.pins[k.val]?).any (fun (p : Pin) => p.filled) = true then some ST.PILLOW_PIN_FULL else if (x.pins[k.val]?).any (fun (p : Pin) => p.armed.isSome) = true then some ST.PILLOW_PIN_ARMED else none) = some w) → Completes (.tkFill b h src k words) s fun t =>
      t = s.tkRefuse b w) ∧
    (∀ (b : Fin 16) (h src : Word) (k : Fin 4) (words : Fin 32), s.executes b = true → ((match s.byHandle h.toNat with | none => some ST.PILLOW_HANDLE | some (_, x) => if x.pins.length ≤ k.val ∨ 16 < words.val ∨ words.val ≠ 0 ∧ ¬ (src.toNat % 4 = 0 ∧ (src.toNat + 4 * words.val ≤ 0x40000 ∨ 0x10000000 ≤ src.toNat ∧ src.toNat + 4 * words.val ≤ 0x10600000)) then some ST.PILLOW_ARG else if inServiceState x = true then some ST.PILLOW_IN_SERVICE else if (x.pins[k.val]?).any (fun (p : Pin) => p.filled) = true then some ST.PILLOW_PIN_FULL else if (x.pins[k.val]?).any (fun (p : Pin) => p.armed.isSome) = true then some ST.PILLOW_PIN_ARMED else none) = none) → (words.val ≠ 0 ∧ s.accessCause b src.toNat (4 * words.val) false ≠ none) → Completes (.tkFill b h src k words) s fun t =>
      t = s.accessFault b 3) ∧
    (∀ (b : Fin 16) (q a : Word) (ordered : Bool), s.executes b = true → (q.toNat < 256 ∧ a.toNat % 16 = 0 ∧ a.toNat < 0x40000) → ordered = false → (s.queue q.toNat).credit (s.hoopIx b) ≠ 0 → Completes (.tkPut b q a ordered) s fun t =>
      (t.queue q.toNat).credit (s.hoopIx b) = (s.queue q.toNat).credit (s.hoopIx b) - 1 ∧
      ((s.bobbin b).posts.length < 2 → (t.bobbin b).posts = (s.bobbin b).posts ++ [⟨q.toNat, s.entryAt (localAddr b a.toNat) (s.hoopIx b)⟩] ∧ t.resp = ST.OK ∧ t.out = .result b 0 :: s.out) ∧
      (2 ≤ (s.bobbin b).posts.length → t.bobbin b = { s.bobbin b with stalled := some ⟨q.toNat, s.entryAt (localAddr b a.toNat) (s.hoopIx b)⟩ } ∧ t.out = s.out) ∧
      t.regs = s.regs ∧ t.mem = s.mem) ∧
    (∀ (b : Fin 16) (q a : Word) (ordered : Bool) (i f n : Nat) (x : Task), s.executes b = true → (q.toNat < 256 ∧ a.toNat % 16 = 0 ∧ a.toNat < 0x40000) → ordered = true → (s.bobbin b).running = some i → s.task? i = some x → (x.ord = some (f, n) ∧ x.puts < 4) → (x.direct = false ∧ s.stagedCount < 16384) → (s.queue q.toNat).credit (s.hoopIx b) ≠ 0 → Completes (.tkPut b q a ordered) s fun t =>
      (t.task? i).map (fun (y : Task) => (y.staged, y.puts)) = some (x.staged ++ [⟨q.toNat, s.entryAt (localAddr b a.toNat) (s.hoopIx b)⟩], x.puts + 1) ∧
      (t.queue q.toNat).credit (s.hoopIx b) = (s.queue q.toNat).credit (s.hoopIx b) - 1 ∧
      (t.bobbin b).posts = (s.bobbin b).posts ∧
      t.resp = ST.OK ∧ t.out = .result b 0 :: s.out) ∧
    (∀ (b : Fin 16) (q a : Word) (ordered : Bool) (i f n : Nat) (x : Task), s.executes b = true → (q.toNat < 256 ∧ a.toNat % 16 = 0 ∧ a.toNat < 0x40000) → ordered = true → (s.bobbin b).running = some i → s.task? i = some x → (x.ord = some (f, n) ∧ x.puts < 4) → (x.direct = true ∨ 16384 ≤ s.stagedCount) → (s.stagedCount < 16384 ∨ (s.ordFlow f).oldest = n) → (s.queue q.toNat).credit (s.hoopIx b) ≠ 0 → Completes (.tkPut b q a ordered) s fun t =>
      (t.task? i).map (fun (y : Task) => (y.staged, y.puts, y.direct)) = some ([], x.puts + 1, true) ∧
      (t.queue q.toNat).credit (s.hoopIx b) = (s.queue q.toNat).credit (s.hoopIx b) - 1 ∧
      ((s.bobbin b).posts.length + x.staged.length < 2 → (t.bobbin b).posts = (s.bobbin b).posts ++ x.staged ++ [⟨q.toNat, s.entryAt (localAddr b a.toNat) (s.hoopIx b)⟩] ∧ t.resp = ST.OK ∧ t.out = .result b 0 :: s.out) ∧
      (2 ≤ (s.bobbin b).posts.length + x.staged.length → (t.bobbin b).posts = (s.bobbin b).posts ++ x.staged ∧ (t.bobbin b).stalled = some ⟨q.toNat, s.entryAt (localAddr b a.toNat) (s.hoopIx b)⟩ ∧ t.out = s.out)) ∧
    (∀ (b : Fin 16) (q a : Word) (ordered : Bool) (w : Nat), s.executes b = true → ((if ¬ (q.toNat < 256 ∧ a.toNat % 16 = 0 ∧ a.toNat < 0x40000) then some ST.PILLOW_ARG else if ordered = false then (if (s.queue q.toNat).credit (s.hoopIx b) = 0 then some ST.PILLOW_NO_CREDIT else none) else match (s.bobbin b).running.bind s.task? with | none => some ST.PILLOW_ARG | some x => match x.ord with | none => some ST.PILLOW_ARG | some (f, n) => if 4 ≤ x.puts then some ST.PILLOW_ORDER_LIMIT else if 16384 ≤ s.stagedCount ∧ (s.ordFlow f).oldest ≠ n then some ST.PILLOW_STAGE_FULL else if (s.queue q.toNat).credit (s.hoopIx b) = 0 then some ST.PILLOW_NO_CREDIT else none) = some w) → Completes (.tkPut b q a ordered) s fun t =>
      (t = (if w = ST.PILLOW_NO_CREDIT then s.bump (R.PILLOW_COUNT_HI 2) else s).tkRefuse b w)) ∧
    (∀ (b : Fin 16) (h ticks : Word) (k l : Fin 4) (i : Nat) (x : Task) (p : Pin), s.executes b = true → ((match s.byHandle h.toNat with | none => some ST.PILLOW_HANDLE | some (_, x) => if ¬ (l.val < 3 ∧ 1 ≤ ticks.toNat ∧ ticks.toNat ≤ listMax l) ∨ x.pins.length ≤ k.val then some ST.PILLOW_ARG else if (x.pins[k.val]?).any (fun (p : Pin) => p.filled) = true then some ST.PILLOW_PIN_FULL else if (x.pins[k.val]?).any (fun (p : Pin) => p.armed.isSome) = true then some ST.PILLOW_PIN_ARMED else if listCap l ≤ (s.liveTimers l).length then some ST.PILLOW_TIMER_FULL else none) = none) → s.byHandle h.toNat = some (i, x) → x.pins[k.val]? = some p → Completes (.tkTimer b h ticks k l) s fun t =>
      t.pl.timers.any (fun (e : Nat × Timer) => e.1 / 0x100000 == l.val && e.2.live && !e.2.fired && e.2.task == i && e.2.pin == k.val && e.2.tick == s.mtb / listTick l + ticks.toNat && decide ((t.task? i).map (fun (y : Task) => y.pins) = some (x.pins.set k.val { p with armed := some e.1 })) && decide (t.out = .result b (timerHandle l (e.1 % 0x100000) e.2.gen) :: s.out)) = true ∧
      t.pl.armedCount = s.pl.armedCount + 1 ∧
      t.resp = ST.OK ∧
      t.regs = s.regs ∧ t.mem = s.mem) ∧
    (∀ (b : Fin 16) (h ticks : Word) (k l : Fin 4) (w : Nat), s.executes b = true → ((match s.byHandle h.toNat with | none => some ST.PILLOW_HANDLE | some (_, x) => if ¬ (l.val < 3 ∧ 1 ≤ ticks.toNat ∧ ticks.toNat ≤ listMax l) ∨ x.pins.length ≤ k.val then some ST.PILLOW_ARG else if (x.pins[k.val]?).any (fun (p : Pin) => p.filled) = true then some ST.PILLOW_PIN_FULL else if (x.pins[k.val]?).any (fun (p : Pin) => p.armed.isSome) = true then some ST.PILLOW_PIN_ARMED else if listCap l ≤ (s.liveTimers l).length then some ST.PILLOW_TIMER_FULL else none) = some w) → Completes (.tkTimer b h ticks k l) s fun t =>
      (t = (if w = ST.PILLOW_TIMER_FULL then (s.bump (R.PILLOW_COUNT_LO 3)).raise R.PILLOW_EVENT_TIMER_FULL else s).tkRefuse b w)) ∧
    (∀ (b : Fin 16) (h : Word) (k : Nat) (e : Timer), s.executes b = true → timerKey (h.toNat / 2 ^ 18 % 4) (h.toNat % 2 ^ 17) = k → Store.find? k s.pl.timers = some e → (h.toNat = timerHandle (h.toNat / 2 ^ 18 % 4) (h.toNat % 2 ^ 17) e.gen ∧ e.live = true) → s.mtb < e.tick * listTick (h.toNat / 2 ^ 18 % 4) → Completes (.tkCancel b h) s fun t =>
      Store.find? k t.pl.timers = some { e with live := false } ∧
      (t.task? e.task = (s.task? e.task).map (fun (x : Task) => { x with pins := (match x.pins[e.pin]? with | some p => x.pins.set e.pin { p with armed := none } | none => x.pins) })) ∧
      t.resp = ST.OK ∧ t.out = .result b 0 :: s.out ∧
      t.regs = s.regs ∧ t.mem = s.mem) ∧
    (∀ (b : Fin 16) (h : Word) (k : Nat) (e : Timer), s.executes b = true → timerKey (h.toNat / 2 ^ 18 % 4) (h.toNat % 2 ^ 17) = k → Store.find? k s.pl.timers = some e → (h.toNat = timerHandle (h.toNat / 2 ^ 18 % 4) (h.toNat % 2 ^ 17) e.gen ∧ e.live = true) → e.tick * listTick (h.toNat / 2 ^ 18 % 4) ≤ s.mtb → Completes (.tkCancel b h) s fun t =>
      t = (s.timerFires k e).tkRefuse b ST.PILLOW_TIMER_FIRED) ∧
    (∀ (b : Fin 16) (h : Word) (k w : Nat), s.executes b = true → timerKey (h.toNat / 2 ^ 18 % 4) (h.toNat % 2 ^ 17) = k → ((match Store.find? k s.pl.timers with | none => some ST.PILLOW_HANDLE | some e => if ¬ h.toNat = timerHandle (h.toNat / 2 ^ 18 % 4) (h.toNat % 2 ^ 17) e.gen then some ST.PILLOW_HANDLE else if e.live = true then none else if e.fired = true then some ST.PILLOW_TIMER_FIRED else some ST.PILLOW_HANDLE) = some w) → Completes (.tkCancel b h) s fun t =>
      t = s.tkRefuse b w) ∧
    (∀ (b : Fin 16) (h : Word) (i : Nat) (x : Task), s.executes b = true → s.byHandle h.toNat = some (i, x) → inServiceState x = false → Completes (.tkDrop b h) s fun t =>
      t.task? i = none ∧
      t.resp = ST.OK ∧ t.out.head? = some (.result b 0)) ∧
    (∀ (b : Fin 16) (h : Word) (w : Nat), s.executes b = true → ((match s.byHandle h.toNat with | none => some ST.PILLOW_HANDLE | some (_, x) => if inServiceState x = true then some ST.PILLOW_IN_SERVICE else none) = some w) → Completes (.tkDrop b h) s fun t =>
      t = s.tkRefuse b w) ∧
    (∀ (b : Fin 16), s.executes b = true → (s.bobbin b).init = true → Completes (.tkEnd b) s fun t =>
      t = s.setBobbin b { s.bobbin b with init := false }) ∧
    (∀ (b : Fin 16) (i : Nat) (x : Task), s.executes b = true → (s.bobbin b).init = false → (s.bobbin b).running = some i → s.task? i = some x → Completes (.tkEnd b) s fun t =>
      t.task? i = none ∧
      (t.bobbin b).running = (s.bobbin b).pre.filter (fun (j : Nat) => j != i && (s.task? j).isSome) ∧ (t.bobbin b).pre = none ∧
      ((s.bobbin b).pre.filter (fun (j : Nat) => j != i && (s.task? j).isSome)).all (fun (j : Nat) => decide ((t.task? j).map (fun (z : Task) => (z.state, z.bobbin)) = some (.running, b.val))) = true ∧
      (t.bobbin b).ended = ((s.bobbin b).ended + 1) % 4294967296) ∧
    (∀ (b : Fin 16), s.executes b = true → (s.bobbin b).init = false → (s.bobbin b).running.bind s.task? = none → Completes (.tkEnd b) s fun t =>
      t = s)

/-- A placement for a hoop, at most one a cyc, runs the first eligible task on a bobbin that is free, else puts it into an
empty prefetch slot, else in place of a prefetched task of higher priority number, which is ready again, else does nothing.
An exception of an executing bobbin is recorded and ends its running task with its result, or stops its init run until the
restart 65,536 cyc later. A run limit that has passed is counted once and, in the customer hoop or with KILL, ends the task
with cause 6. The earliest live entry of a delay list fills its pin with the boundary value and is fired. The release port
takes the oldest entry of the next bobbin with one, which its queue appends unless it drops; a stalled put then goes in. A
task queue's oldest entry creates a READY task of arity 1 from the template, or sets ORDER_FULL at a full window, or stays.
The counters clear. A template is written, or refused with RANGE or STATE. Where the spec leaves a detail open it rests on
the model's choices of log entries 10, 15, 16 and 17. -/
def Obligations.PillowCommands : Prop :=
  ∀ s : State, s.Inv → 
    (∀ (h : Fin 4) (u : Nat), max s.mtb u < Store.get (fun _ => 0) s.pl.placeAt h → Completes (.taskPlace h u) s fun t =>
      t = s.advance u) ∧
    (∀ (h : Fin 4) (u : Nat), Store.get (fun _ => 0) s.pl.placeAt h ≤ max s.mtb u → ((s.advance u).eligible h = none ∨ ((s.advance u).serving h).find? (fun b => (s.bobbin b).pre.isNone) = none ∧ ((s.advance u).displaceable h = none ∨ ((s.advance u).eligible h).any (fun x => ((s.advance u).displaceable h).any (fun y => decide (y.2.prio ≤ x.2.prio))) = true)) → Completes (.taskPlace h u) s fun t =>
      t = { s.advance u with pl := { s.pl with placeAt := Store.set (fun _ => 0) s.pl.placeAt h (max s.mtb u + 1) } }) ∧
    (∀ (h : Fin 4) (u i b : Nat) (x : Task), Store.get (fun _ => 0) s.pl.placeAt h ≤ max s.mtb u → (s.advance u).eligible h = some (i, x) → s.task? i = some x → ((s.advance u).serving h).find? (fun b => (s.bobbin b).running.isNone && (s.bobbin b).pre.isNone) = some b → Completes (.taskPlace h u) s fun t =>
      (t.bobbin b).running = some i ∧ (t.bobbin b).startAt = max s.mtb u + 9 ∧
      (t.task? i).map (fun (y : Task) => (y.state, y.bobbin)) = some (.running, b) ∧
      t.out = .taskStart b (entryRegs i x) :: s.out) ∧
    (∀ (h : Fin 4) (u i b : Nat) (x : Task), Store.get (fun _ => 0) s.pl.placeAt h ≤ max s.mtb u → (s.advance u).eligible h = some (i, x) → s.task? i = some x → ((s.advance u).serving h).find? (fun b => (s.bobbin b).running.isNone && (s.bobbin b).pre.isNone) = none → ((s.advance u).serving h).find? (fun b => (s.bobbin b).pre.isNone) = some b → Completes (.taskPlace h u) s fun t =>
      (t.bobbin b).pre = some i ∧
      (t.task? i).map (fun (y : Task) => (y.state, y.bobbin)) = some (.prefetched, b) ∧
      t.out = s.out) ∧
    (∀ (h : Fin 4) (u i j : Nat) (x y : Task), Store.get (fun _ => 0) s.pl.placeAt h ≤ max s.mtb u → (s.advance u).eligible h = some (i, x) → s.task? i = some x → ((s.advance u).serving h).find? (fun b => (s.bobbin b).pre.isNone) = none → ((s.advance u).displaceable h = some (j, y) ∧ i ≠ j) → x.prio < y.prio → Completes (.taskPlace h u) s fun t =>
      (t.bobbin y.bobbin).pre = some i ∧
      (t.task? i).map (fun (z : Task) => (z.state, z.bobbin)) = some (.prefetched, y.bobbin) ∧
      (t.task? j).map (fun (z : Task) => z.state) = some .ready ∧
      t.getF (R.PILLOW_COUNT_LO 2) = min (R.PILLOW_COUNT_LO 2).max (s.getF (R.PILLOW_COUNT_LO 2) + 1) ∧
      t.out = s.out) ∧
    (∀ (b : Fin 16) (cause : Fin 6) (pc a : Word) (ecc : Fin 3) (i : Nat) (x : Task), s.executes b = true → (s.bobbin b).init = false → (s.bobbin b).running = some i → s.task? i = some x → Completes (.taskException b cause pc ecc a) s fun t =>
      t.task? i = none ∧
      (t.bobbin b).running = (s.bobbin b).pre.filter (fun (j : Nat) => j != i && (s.task? j).isSome) ∧ (t.bobbin b).pre = none ∧
      t.getF R.PILLOW_FAULT_BOBBIN = b.val ∧ t.getF R.PILLOW_FAULT_CAUSE = cause.val ∧
      t.isSet R.PILLOW_FAULT_INIT = false ∧ t.getF R.PILLOW_FAULT_PC_PC = pc.toNat ∧
      t.getF R.PILLOW_FAULT_TASK = taskHandle x.gen i % 2 ^ 23 ∧
      t.isSet R.PILLOW_EVENT_FAULT = true ∧ t.getF (R.PILLOW_COUNT_HI 0) = min (R.PILLOW_COUNT_HI 0).max (s.getF (R.PILLOW_COUNT_HI 0) + 1) ∧
      t.out.contains (.taskEnded (taskHandle x.gen i) ST.PILLOW_FAULT) = true ∧
      (ecc.val = 2 → t.getF R.MEM_ECC_STAT_UNCORRECTED = min R.MEM_ECC_STAT_UNCORRECTED.max (s.getF R.MEM_ECC_STAT_UNCORRECTED + 1) ∧ t.getF R.MEM_ECC_ADDR_ADDR = min R.MEM_ECC_ADDR_ADDR.max (a.toNat / 8 * 8))) ∧
    (∀ (b : Fin 16) (cause : Fin 6) (pc a : Word) (ecc : Fin 3), s.executes b = true → (s.bobbin b).init = true → Completes (.taskException b cause pc ecc a) s fun t =>
      t.bobbin b = { s.bobbin b with faulted := true, faultAt := s.mtb } ∧
      t.isSet R.PILLOW_FAULT_INIT = true ∧ t.getF R.PILLOW_FAULT_PC_PC = pc.toNat ∧ t.getF R.PILLOW_FAULT_BOBBIN = b.val ∧ t.getF R.PILLOW_FAULT_CAUSE = cause.val ∧
      t.isSet R.PILLOW_EVENT_FAULT = true ∧
      (ecc.val = 2 → t.getF R.MEM_ECC_STAT_UNCORRECTED = min R.MEM_ECC_STAT_UNCORRECTED.max (s.getF R.MEM_ECC_STAT_UNCORRECTED + 1) ∧ t.getF R.MEM_ECC_ADDR_ADDR = min R.MEM_ECC_ADDR_ADDR.max (a.toNat / 8 * 8))) ∧
    (∀ (b : Fin 16) (cause : Fin 6) (pc a : Word) (ecc : Fin 3), s.executes b = false → Completes (.taskException b cause pc ecc a) s fun t =>
      t = s) ∧
    (∀ (b : Fin 16) (pc : Word) (u : Nat) (i : Nat) (x : Task), (s.bobbin b).running = some i → s.task? i = some x → ((s.bobbin b).limit ≠ 0 ∧ x.passed = false ∧ (s.bobbin b).startAt + 256 * (s.bobbin b).limit < max s.mtb u) → (s.isCustomer (s.hoopIx b) = false ∧ s.isSet (R.PILLOW_HOOP_KILL (s.hoopIx b)) = false) → Completes (.taskRunLimit b pc u) s fun t =>
      t.task? i = some { x with passed := true } ∧
      t.isSet R.PILLOW_EVENT_OVERRUN = true ∧
      t.getF (R.PILLOW_COUNT_LO 0) = min (R.PILLOW_COUNT_LO 0).max (s.getF (R.PILLOW_COUNT_LO 0) + 1) ∧
      t.bobbin b = s.bobbin b) ∧
    (∀ (b : Fin 16) (pc : Word) (u : Nat) (i : Nat) (x : Task), ((s.bobbin b).running = some i ∧ (s.bobbin b).init = false) → s.task? i = some x → ((s.bobbin b).limit ≠ 0 ∧ x.passed = false ∧ (s.bobbin b).startAt + 256 * (s.bobbin b).limit < max s.mtb u) → (s.isCustomer (s.hoopIx b) = true ∨ s.isSet (R.PILLOW_HOOP_KILL (s.hoopIx b)) = true) → Completes (.taskRunLimit b pc u) s fun t =>
      t.task? i = none ∧
      (t.bobbin b).running = (s.bobbin b).pre.filter (fun (j : Nat) => j != i && (s.task? j).isSome) ∧
      t.isSet R.PILLOW_EVENT_OVERRUN = true ∧ t.isSet R.PILLOW_EVENT_FAULT = true ∧
      t.getF R.PILLOW_FAULT_CAUSE = 6 ∧ t.getF R.PILLOW_FAULT_PC_PC = pc.toNat ∧
      t.out.contains (.taskEnded (taskHandle x.gen i) ST.PILLOW_OVERRUN) = true) ∧
    (∀ (b : Fin 16) (pc : Word) (u : Nat), ((s.bobbin b).running.bind s.task?).all (fun (x : Task) => (s.bobbin b).limit == 0 || x.passed || decide (max s.mtb u ≤ (s.bobbin b).startAt + 256 * (s.bobbin b).limit)) = true → Completes (.taskRunLimit b pc u) s fun t =>
      t = s.advance u) ∧
    (∀ (b : Fin 16) (u h : Nat), ((s.bobbin b).faulted = true ∧ (s.bobbin b).faultAt + 65536 ≤ max s.mtb u) → s.hoopOf b = some h → (s.isCustomer h = false ∨ s.custHeld = false) → Completes (.initRunRestart b u) s fun t =>
      t.bobbin b = { s.bobbin b with init := true, reset := false, faulted := false, running := none, pre := none, stalled := none, idleAt := max s.mtb u } ∧
      t.out = .initRun b :: s.out ∧
      t.regs = s.regs) ∧
    (∀ (b : Fin 16) (u : Nat), ((s.bobbin b).faulted = false ∨ max s.mtb u < (s.bobbin b).faultAt + 65536) → Completes (.initRunRestart b u) s fun t =>
      t = s.advance u) ∧
    (∀ (l : Fin 3) (k : Nat) (e : Timer) (x : Task) (p : Pin), firstBy (fun (a b : Nat × Timer) => a.2.tick < b.2.tick || (a.2.tick = b.2.tick && a.2.order < b.2.order)) (s.liveTimers l) = some (k, e) → s.task? e.task = some x → x.pins[e.pin]? = some p → Completes (.delayListExpiry l) s fun t =>
      Store.find? k t.pl.timers = some { e with live := false, fired := true } ∧
      t.readNat (pinAddr p.cell) 8 = e.tick * listTick l % 2 ^ 64 ∧
      (t.task? e.task).map (fun (y : Task) => y.pins) = some (x.pins.set e.pin { p with filled := true, isRef := false, ref := 0, armed := none, seen := max s.mtb (max (e.tick * listTick l + 12) (Store.get (fun _ => 0) s.pl.fillAt l)) }) ∧
      t.mtb = max s.mtb (max (e.tick * listTick l + 12) (Store.get (fun _ => 0) s.pl.fillAt l)) ∧ Store.get (fun _ => 0) t.pl.fillAt l = max s.mtb (max (e.tick * listTick l + 12) (Store.get (fun _ => 0) s.pl.fillAt l)) + 1) ∧
    (∀ (l : Fin 3), s.liveTimers l = [] → Completes (.delayListExpiry l) s fun t =>
      t = s) ∧
    (∀ (b : Nat) (p : Posted) (ps : List Posted), ((List.range 16).map (fun k => (s.pl.lastServed + 1 + k) % 16)).find? (fun b => decide ((s.bobbin b).posts ≠ [])) = some b → (s.bobbin b).posts = p :: ps → Completes .releasePortTake s fun t =>
      ((t.bobbin b).posts = ps ++ (if ps.length < 2 then (s.bobbin b).stalled.toList else [])) ∧
      (ps.length < 2 → (t.bobbin b).stalled = none) ∧
      t.pl.lastServed = b ∧ s.pl.portAt ≤ t.mtb ∧ t.pl.portAt = t.mtb + 2 ∧
      (p.entry.src ∉ (s.queue p.queue).dropping → (t.queue p.queue).entries.dropLast = (s.queue p.queue).entries ∧ (t.queue p.queue).entries.getLast?.map (fun (e : Entry) => { e with vis := 0 }) = some { p.entry with vis := 0 }) ∧
      (p.entry.src ∈ (s.queue p.queue).dropping → (t.queue p.queue).entries = (s.queue p.queue).entries)) ∧
    (((List.range 16).map (fun k => (s.pl.lastServed + 1 + k) % 16)).find? (fun b => decide ((s.bobbin b).posts ≠ [])) = none → Completes .releasePortTake s fun t =>
      t = s) ∧
    (∀ (q : Fin 256) (r : QueueRec) (e : Entry), s.queueRec q = some r → s.head? q = some e → (r.consumer = 0x10 ∧ s.isSet (R.PILLOW_QT_TASK_EN.bank q) = true) → (¬ (s.custHeld = true ∧ (s.hoopOfKind (s.getF (R.PILLOW_QT_TASK_KIND.bank q))).any s.isCustomer = true)) → s.windowRoom (ordOf (s.getF (R.PILLOW_QT_ORD_ORD.bank q))) = true → (s.pl.tasks.length < 32768 ∧ s.pl.pins.length < 16384) → Completes (.taskQueueEntry q) s fun t =>
      (t.queue q).entries = (s.queue q).entries.tail ∧
      t.pl.tasks.any (fun (x : Nat × Task) => (s.task? x.1).isNone && x.2.entry == s.getF (R.PILLOW_QT_TASK_ENTRY.bank q) && x.2.kind == s.getF (R.PILLOW_QT_TASK_KIND.bank q) && x.2.prio == s.getF (R.PILLOW_QT_TASK_PRIO.bank q) && decide (x.2.state = .ready) && x.2.ready == t.mtb + 6 && x.2.arg == 0 && decide (x.2.flow = none) && decide (x.2.ord = (ordOf (s.getF (R.PILLOW_QT_ORD_ORD.bank q))).map (fun (f : Nat) => (f, (s.ordFlow f).next))) && x.2.pins.length == 1 && x.2.pins.all (fun (p : Pin) => p.filled && decide (t.readBytes (pinAddr p.cell) 16 = e.bytes))) = true) ∧
    (∀ (q : Fin 256), ((match s.queueRec q, s.head? q with | some r, some _ => decide (r.consumer ≠ 0x10) || !s.isSet (R.PILLOW_QT_TASK_EN.bank q) || (s.custHeld && (s.hoopOfKind (s.getF (R.PILLOW_QT_TASK_KIND.bank q))).any s.isCustomer) || s.windowRoom (ordOf (s.getF (R.PILLOW_QT_ORD_ORD.bank q))) && (decide (32768 ≤ s.pl.tasks.length) || decide (16384 ≤ s.pl.pins.length ∧ s.pl.pins.Nodup ∧ s.pl.pins.all (fun c => decide (c < 16384)) = true)) | _, _ => true) = true) → Completes (.taskQueueEntry q) s fun t =>
      t = s) ∧
    (∀ (q : Fin 256) (r : QueueRec), s.queueRec q = some r → (s.head? q).isSome = true → (r.consumer = 0x10 ∧ s.isSet (R.PILLOW_QT_TASK_EN.bank q) = true) → (¬ (s.custHeld = true ∧ (s.hoopOfKind (s.getF (R.PILLOW_QT_TASK_KIND.bank q))).any s.isCustomer = true)) → s.windowRoom (ordOf (s.getF (R.PILLOW_QT_ORD_ORD.bank q))) = false → Completes (.taskQueueEntry q) s fun t =>
      t = s.raise R.PILLOW_EVENT_ORDER_FULL) ∧
    (Completes .pillowCountClear s fun t =>
      (∀ k ∈ List.range 4, t.getReg (R.PILLOW_COUNT k) = 0) ∧
      t.resp = ST.OK) ∧
    (∀ (qt : Bool) (v : Word) (a : Nat), ((if qt then R.PILLOW_QT_TASK + s.getF R.PILLOW_QT_SEL_QUEUE * bankStride else R.PILLOW_HW_TASK) = a) → ((if v &&& regMask a = s.getReg a then none else if 2 ^ 31 ≤ (v &&& regMask a).toNat ∧ ¬ (s.servesKindPrio ((v &&& regMask a).toNat / 2 ^ 23 % 32) ((v &&& regMask a).toNat / 2 ^ 28 % 8) = true ∧ 2 ≤ (v &&& regMask a).toNat % 2 ^ 18 ∧ (v &&& regMask a).toNat % 2 ^ 18 ≤ 0x3FFFE ∧ (v &&& regMask a).toNat % 2 = 0) then some ST.PILLOW_RANGE else if 2 ^ 31 ≤ (v &&& regMask a).toNat ∧ bitOf (s.getReg a).toNat 31 = true then some ST.PILLOW_STATE else none) = none) → Completes (.pillowTemplateWrite qt v) s fun t =>
      t.getReg a = v &&& regMask a ∧
      t.resp = ST.OK) ∧
    (∀ (qt : Bool) (v : Word) (a w : Nat), ((if qt then R.PILLOW_QT_TASK + s.getF R.PILLOW_QT_SEL_QUEUE * bankStride else R.PILLOW_HW_TASK) = a) → ((if v &&& regMask a = s.getReg a then none else if 2 ^ 31 ≤ (v &&& regMask a).toNat ∧ ¬ (s.servesKindPrio ((v &&& regMask a).toNat / 2 ^ 23 % 32) ((v &&& regMask a).toNat / 2 ^ 28 % 8) = true ∧ 2 ≤ (v &&& regMask a).toNat % 2 ^ 18 ∧ (v &&& regMask a).toNat % 2 ^ 18 ≤ 0x3FFFE ∧ (v &&& regMask a).toNat % 2 = 0) then some ST.PILLOW_RANGE else if 2 ^ 31 ≤ (v &&& regMask a).toNat ∧ bitOf (s.getReg a).toNat 31 = true then some ST.PILLOW_STATE else none) = some w) → Completes (.pillowTemplateWrite qt v) s fun t =>
      t = s.refuse R.PILLOW_CMD_ERR_STATUS w)

/-- An entry of a producer that holds a credit and, on a foreign clock, has room in its FIFO goes in at the end with SRC
written, or is freed while the queue drops for its producer; the credit is spent. Without a credit a receive producer
discards it (counted) and, until EOP, what follows of the frame; another keeps it, a tk.put answered NO_CREDIT. The consumer
that may send takes the oldest entry when it is visible and returns its credit; a transmitter sends the frame, with a bad FCS
for ERR, returns its buffer and drops the rest of an ERR packet. A credit comes back to its producer, whose shuttle or MAC
goes on. A spilled entry comes on-die below 16. A drop removes the current packet up to EOP, or goes on dropping; counts
clear; watermarks with LOW < HIGH <= depth are taken. Absent queues, a drop in progress, no packet and bad watermarks are
refused in QUEUE_CMD_ERR. Elsewhere nothing changes. Where the spec leaves a detail open it rests on the model's choices of
log entries 9, 10, 11, 12 and 14. -/
def Obligations.QueueCommands : Prop :=
  ∀ s : State, s.Inv → 
    (∀ (q p : Fin 256) (a l f g x : Nat), (s.queueRec q).isSome = true → p.val ∉ (s.queue q).losing → ((s.queue q).credit p ≠ 0 ∧ s.fifoFull q p = false) → Completes (.enqueue q p a l f g x) s fun t =>
      (p.val ∉ (s.queue q).dropping → (t.queue q).entries.map (fun (e : Entry) => { e with vis := 0 }) = (s.queue q).entries.map (fun (e : Entry) => { e with vis := 0 }) ++ [⟨a, l, f, p.val, g, x, [], 0⟩] ∧ (t.queue q).entries.dropLast = (s.queue q).entries) ∧
      (p.val ∈ (s.queue q).dropping → (t.queue q).entries = (s.queue q).entries) ∧
      (t.queue q).credit p = (s.queue q).credit p - 1 ∧
      t.resp = ST.OK) ∧
    (∀ (q p : Fin 256) (a l f g x : Nat), (s.queueRec q).isSome = true → p.val ∉ (s.queue q).losing → ((s.queue q).credit p = 0 ∨ s.fifoFull q p = true) → discardsWithoutCredit p = true → Completes (.enqueue q p a l f g x) s fun t =>
      (t.queue q).entries = (s.queue q).entries ∧ (t.queue q).credits = (s.queue q).credits ∧
      ((t.queue q).losing = (if bitOf f 1 then (s.queue q).losing else withOne p (s.queue q).losing)) ∧
      t.getF (R.QUEUE_XCOUNT_DISCARD.bank q) = min R.QUEUE_XCOUNT_DISCARD.max (s.getF (R.QUEUE_XCOUNT_DISCARD.bank q) + 1) ∧
      t.isSet R.QUEUE_BEVENT_DISCARD = true ∧
      (t.resp = (if p.val = 0x71 then ST.SVC_TUNNEL_FULL else ST.QUEUE_DISCARDED))) ∧
    (∀ (q p : Fin 256) (a l f g x : Nat), (s.queueRec q).isSome = true → p.val ∈ (s.queue q).losing → Completes (.enqueue q p a l f g x) s fun t =>
      (t.queue q).entries = (s.queue q).entries ∧ (t.queue q).credits = (s.queue q).credits ∧
      ((t.queue q).losing = (if bitOf f 1 then without p (s.queue q).losing else (s.queue q).losing)) ∧
      t.regs = s.regs ∧
      (t.resp = (if p.val = 0x71 then ST.SVC_TUNNEL_FULL else ST.QUEUE_DISCARDED))) ∧
    (∀ (q p : Fin 256) (a l f g x : Nat), (s.queueRec q).isSome = true → p.val ∉ (s.queue q).losing → ((s.queue q).credit p = 0 ∨ s.fifoFull q p = true) → discardsWithoutCredit p = false → Completes (.enqueue q p a l f g x) s fun t =>
      (t = s.answer (if p.val < 4 then ST.PILLOW_NO_CREDIT else ST.OK))) ∧
    (∀ (q p : Fin 256) (a l f g x : Nat), s.queueRec q = none → Completes (.enqueue q p a l f g x) s fun t =>
      t = s.queueRefuse q ST.QUEUE_ABSENT) ∧
    (∀ (q : Fin 256) (r : QueueRec) (e : Entry), s.queueRec q = some r → s.head? q = some e → s.maySend r.consumer (s.queue q).current.isSome = true → (uplTxPort r.consumer = none ∨ e.err = false ∨ e.eop = true) → Completes (.dequeue q) s fun t =>
      (t.queue q).entries = (s.queue q).entries.tail ∧
      (Store.get (fun _ => []) (t.queue q).returning e.src).take (Store.get (fun _ => []) (s.queue q).returning e.src).length = Store.get (fun _ => []) (s.queue q).returning e.src ∧ (Store.get (fun _ => []) (s.queue q).returning e.src).length < (Store.get (fun _ => []) (t.queue q).returning e.src).length ∧
      t.mtb = max s.mtb (max (s.queue q).outAt e.vis) ∧
      Msg.entry q e ∈ t.out ∧
      (uplTxPort r.consumer).all (fun (p : Nat) => t.out.contains (.uplFrame p e.addr e.len (!e.err))) = true ∧
      ((uplTxPort r.consumer).isSome = true ∨ r.consumer = 0x60 → (s.pktOf e.addr).all (fun (k : Nat) => !t.ms.pktTaken.contains k) = true)) ∧
    (∀ (q : Fin 256) (r : QueueRec) (e : Entry) (p : Nat), s.queueRec q = some r → s.head? q = some e → s.maySend r.consumer (s.queue q).current.isSome = true → uplTxPort r.consumer = some p → (e.err = true ∧ e.eop = false) → (e.sop = true ∨ (s.queue q).current = some e.src) → Completes (.dequeue q) s fun t =>
      Msg.uplFrame p e.addr e.len false ∈ t.out ∧
      ((t.queue q).entries = (if (s.queue q).dropping = [] then (splitPacket e.src (s.queue q).entries.tail).2.1 else (s.queue q).entries.tail))) ∧
    (∀ (q : Fin 256), (match s.queueRec q, s.head? q with | some r, some _ => s.maySend r.consumer (s.queue q).current.isSome | _, _ => false) = false → Completes (.dequeue q) s fun t =>
      t = s) ∧
    (∀ (q p : Fin 256) (at_ : Nat) (l : List Nat), Store.get (fun _ => []) (s.queue q).returning p = at_ :: l → (¬ (0x20 ≤ p.val ∧ p.val ≤ 0x23) ∧ p.val ≠ 0x30) → Completes (.creditReturn q p) s fun t =>
      Store.get (fun _ => []) (t.queue q).returning p = l ∧
      (t.queue q).credit p = (s.queue q).credit p + 1 ∧
      (t.queue q).entries = (s.queue q).entries ∧
      t.regs = s.regs ∧ t.mtb = max s.mtb at_) ∧
    (∀ (q p : Fin 256), (Store.get (fun _ => []) (s.queue q).returning p).isEmpty = false → (0x20 ≤ p.val ∧ p.val ≤ 0x23 ∨ p.val = 0x30) → Completes (.creditReturn q p) s fun t =>
      (t = if p.val = 0x30 then (s.creditBack q p).macTick else (s.creditBack q p).txRelease (p.val - 0x20) 17)) ∧
    (∀ (q p : Fin 256), (Store.get (fun _ => []) (s.queue q).returning p).isEmpty = true → Completes (.creditReturn q p) s fun t =>
      t = s) ∧
    (∀ (q : Fin 256), ((s.queue q).onDie < 16 ∧ (s.queue q).onDie < (s.queue q).level) → Completes (.queueReadbackDone q) s fun t =>
      t = s.setQueue q { s.queue q with onDie := (s.queue q).onDie + 1 }) ∧
    (∀ (q : Fin 256), (¬ ((s.queue q).onDie < 16 ∧ (s.queue q).onDie < (s.queue q).level)) → Completes (.queueReadbackDone q) s fun t =>
      t = s) ∧
    (∀ (q : Fin 256) (p : Nat), (s.queueRec q).isSome = true → ((s.queue q).dropping = [] ∧ (s.queue q).current = some p) → Completes (.queueDropRemainder q) s fun t =>
      (t.queue q).entries = (splitPacket p (s.queue q).entries).2.1 ∧
      (t.queue q).current = none ∧
      ((t.queue q).dropping = (if (splitPacket p (s.queue q).entries).2.2 then [] else [p])) ∧
      (Store.get (fun _ => []) (t.queue q).returning p).length = (Store.get (fun _ => []) (s.queue q).returning p).length + (splitPacket p (s.queue q).entries).1.length ∧
      (s.sendsFrames q = true → (splitPacket p (s.queue q).entries).1.all (fun (e : Entry) => (s.pktOf e.addr).all (fun (k : Nat) => !t.ms.pktTaken.contains k)) = true) ∧
      t.resp = ST.OK) ∧
    (∀ (q : Fin 256) (w : Nat), ((if s.queueRec q = none then some ST.QUEUE_ABSENT else if (s.queue q).dropping ≠ [] then some ST.QUEUE_DROPPING else if (s.queue q).current = none then some ST.QUEUE_NO_PACKET else none) = some w) → Completes (.queueDropRemainder q) s fun t =>
      t = s.queueRefuse q w) ∧
    (∀ (q : Fin 256), (s.queueRec q).isSome = true → Completes (.queueClearCount q) s fun t =>
      t = (s.setReg (R.QUEUE_XCOUNT + q.val * bankStride) 0).answer ST.OK ∧
      t.getF (R.QUEUE_XCOUNT_UP.bank q) = 0 ∧ t.getF (R.QUEUE_XCOUNT_DISCARD.bank q) = 0) ∧
    (∀ (q : Fin 256), s.queueRec q = none → Completes (.queueClearCount q) s fun t =>
      t = s.queueRefuse q ST.QUEUE_ABSENT) ∧
    (∀ (h l : Fin 65536) (q : Nat) (r : QueueRec), s.getF R.QUEUE_SEL_QUEUE = q → s.queueRec q = some r → (l < h ∧ h.val ≤ r.depth) → Completes (.queueWmWrite h l) s fun t =>
      t.getF (R.QUEUE_WM_HIGH.bank q) = h.val % 2 ^ R.QUEUE_WM_HIGH.width ∧ t.getF (R.QUEUE_WM_LOW.bank q) = l.val % 2 ^ R.QUEUE_WM_LOW.width ∧
      t.resp = ST.OK) ∧
    (∀ (h l : Fin 65536) (q : Nat) (r : QueueRec), s.getF R.QUEUE_SEL_QUEUE = q → s.queueRec q = some r → (h ≤ l ∨ r.depth < h.val) → (¬ (s.getF (R.QUEUE_WM_HIGH.bank q) = h.val ∧ s.getF (R.QUEUE_WM_LOW.bank q) = l.val)) → Completes (.queueWmWrite h l) s fun t =>
      t = s.queueRefuse q ST.QUEUE_RANGE) ∧
    (∀ (h l : Fin 65536) (q : Nat) (r : QueueRec), s.getF R.QUEUE_SEL_QUEUE = q → s.queueRec q = some r → (s.getF (R.QUEUE_WM_HIGH.bank q) = h.val ∧ s.getF (R.QUEUE_WM_LOW.bank q) = l.val) → Completes (.queueWmWrite h l) s fun t =>
      t.regs = s.regs ∧ t.resp = ST.OK) ∧
    (∀ (h l : Fin 65536), s.queueRec (s.getF R.QUEUE_SEL_QUEUE) = none → Completes (.queueWmWrite h l) s fun t =>
      t = s)

/-- A DRAM request of a class, a size and a requester that may make it takes the slots of its class from the next one on and
is under way, or is held during a DRAM restart; a bobbin's access that is misaligned or out of reach faults; another changes
nothing. A read ends 118 cyc after its last slot with what its slots carried, a write 40 cyc after, memory changed in the
bytes it writes and, for one chunk, in no other. A refresh slot refreshes a bank that is due. The schedule switches at the
next frame. A free packet buffer is taken, or 0 answered; a taken one returns, else MEM_BUF_ARG. A flash command is refused
in the order AREA, RANGE, the gate, STATE, BUSY, or submitted. A flash operation that ends (not while gated) reads, programs
or erases, a failed one leaves STATUS and NAND_FAIL, and the next one waiting starts unless the gate holds it; a key engine's
operation goes on with the engine. The counters clear. Where the spec leaves a detail open it rests on the model's choices of
log entries 9, 10, 11, 12 and 14. -/
def Obligations.MemorySystem : Prop :=
  ∀ s : State, s.Inv → 
    (∀ (c : Fin 16) (w run : Bool) (a n : Nat) (d : List Byte) (y : Requester) (l : List (Nat × Nat)), (s.requestFault y a (if w then d.length else 64 * n - a % 64) w = none) → (s.rootRuns = true ∧ c.val < 14 ∧ s.mayRequest y = true ∧ (if w then d.length else 64 * n - a % 64) ≠ 0 ∧ inDram a = true ∧ inDram (a + (if w then d.length else 64 * n - a % 64) - 1) = true) → s.dramHeld = false → (s.forgetSlots.dramSlots ({ cls := c.val, write := w, addr := a, chunks := n, run := run, last := 0, data := d } : DramReq) (run && isRun c a n) (List.range n)).map (fun (x : List (Nat × Nat) × State) => x.1) = some l → Completes (.dramRequest c w a n run d y) s fun t =>
      t.ms.requests = s.ms.requests ++ [{ ({ cls := c.val, write := w, addr := a, chunks := n, run := run, last := 0, data := d } : DramReq) with last := l.foldl (fun k (x : Nat × Nat) => max k x.1) 0, todo := l }] ∧
      t.mem = s.mem ∧ t.regs = s.regs ∧ t.mtb = s.mtb) ∧
    (∀ (c : Fin 16) (w run : Bool) (a n : Nat) (d : List Byte) (y : Requester), (s.requestFault y a (if w then d.length else 64 * n - a % 64) w = none) → (s.rootRuns = true ∧ c.val < 14 ∧ s.mayRequest y = true ∧ (if w then d.length else 64 * n - a % 64) ≠ 0 ∧ inDram a = true ∧ inDram (a + (if w then d.length else 64 * n - a % 64) - 1) = true) → s.dramHeld = false → (s.forgetSlots.dramSlots ({ cls := c.val, write := w, addr := a, chunks := n, run := run, last := 0, data := d } : DramReq) (run && isRun c a n) (List.range n)).isNone = true → Completes (.dramRequest c w a n run d y) s fun t =>
      t = s.forgetSlots) ∧
    (∀ (c : Fin 16) (w run : Bool) (a n : Nat) (d : List Byte) (y : Requester), (s.requestFault y a (if w then d.length else 64 * n - a % 64) w = none) → (s.rootRuns = true ∧ c.val < 14 ∧ s.mayRequest y = true ∧ (if w then d.length else 64 * n - a % 64) ≠ 0 ∧ inDram a = true ∧ inDram (a + (if w then d.length else 64 * n - a % 64) - 1) = true) → s.dramHeld = true → Completes (.dramRequest c w a n run d y) s fun t =>
      t = { s with ms := { s.ms with held := s.ms.held ++ [({ cls := c.val, write := w, addr := a, chunks := n, run := run, last := 0, data := d } : DramReq)] } }) ∧
    (∀ (c : Fin 16) (w run : Bool) (a n : Nat) (d : List Byte) (y : Requester), (s.requestFault y a (if w then d.length else 64 * n - a % 64) w = none) → (¬ (s.rootRuns = true ∧ c.val < 14 ∧ s.mayRequest y = true ∧ (if w then d.length else 64 * n - a % 64) ≠ 0 ∧ inDram a = true ∧ inDram (a + (if w then d.length else 64 * n - a % 64) - 1) = true)) → Completes (.dramRequest c w a n run d y) s fun t =>
      t = s) ∧
    (∀ (c : Fin 16) (w run : Bool) (a n : Nat) (d : List Byte) (y : Requester) (b x : Nat), (s.requestFault y a (if w then d.length else 64 * n - a % 64) w = some (b, x)) → Completes (.dramRequest c w a n run d y) s fun t =>
      (t = if s.executes b then s.accessFault b x else s)) ∧
    (∀ (c : Fin 16) (r r1 : DramReq) (rs rs1 : List DramReq), takeReq c false s.ms.requests = some (r, rs) → takeReq c false (s.dramCarry r.last s.dramLeft).ms.requests = some (r1, rs1) → Completes (.dramReadDone c) s fun t =>
      t.ms.requests = rs1 ∧
      t.mtb = max s.mtb (r1.last * s.slotCyc + s.dramCyc 118) ∧
      t.out = .dramRead c r1.addr ((List.range r1.chunks).flatMap (fun (k : Nat) => Store.get (fun _ => []) r1.got k)) :: s.out ∧
      t.mem = (s.dramCarry r.last s.dramLeft).mem) ∧
    (∀ (c : Fin 16) (r : DramReq), s.ms.requests = [r] → (r.cls = c.val ∧ r.write = false ∧ r.chunks = 1 ∧ r.todo = [(r.last, 0)]) → r.got = [] → Completes (.dramReadDone c) s fun t =>
      t.out = .dramRead c r.addr (s.readBytes r.addr (64 - r.addr % 64)) :: s.out ∧
      t.mem = s.mem ∧ t.ms.requests = []) ∧
    (∀ (c : Fin 16), (takeReq c false s.ms.requests).isNone = true → Completes (.dramReadDone c) s fun t =>
      t = s) ∧
    (∀ (c : Fin 16) (r r1 : DramReq) (rs rs1 : List DramReq), takeReq c true s.ms.requests = some (r, rs) → takeReq c true (s.dramCarry r.last s.dramLeft).ms.requests = some (r1, rs1) → Completes (.dramWriteDone c) s fun t =>
      t.ms.requests = rs1 ∧
      t.mtb = max s.mtb (r1.last * s.slotCyc + s.dramCyc 40) ∧
      t.mem = (s.dramCarry r.last s.dramLeft).mem) ∧
    (∀ (c : Fin 16) (r : DramReq), s.ms.requests = [r] → (r.cls = c.val ∧ r.write = true ∧ r.chunks = 1 ∧ r.todo = [(r.last, 0)]) → (r.addr % 64 + r.data.length ≤ 64 ∧ r.data ≠ []) → Completes (.dramWriteDone c) s fun t =>
      t.readBytes r.addr r.data.length = r.data ∧
      (∀ a, a < r.addr ∨ r.addr + r.data.length ≤ a → t.readByte a = s.readByte a) ∧
      t.ms.requests = []) ∧
    (∀ (c : Fin 16), (takeReq c true s.ms.requests).isNone = true → Completes (.dramWriteDone c) s fun t =>
      t = s) ∧
    (∀ (b : Fin 8) (due : Bool), Completes (.dramRefreshSlot b due) s fun t =>
      (due = true → Store.get (fun _ => 0) t.ms.refreshed b = s.mtb ∧ t.out = .refresh b :: s.out) ∧
      (due = false → t = s) ∧
      t.mem = s.mem ∧ t.regs = s.regs) ∧
    (∀ (k : Nat), s.ms.switchAt = some k → Completes .dramScheduleSwitch s fun t =>
      t.ms.sched = s.pr.dram ∧ t.ms.switchAt = none ∧
      t.isSet R.MEM_STATE_SCHED = true ∧
      t.mtb = max s.mtb ((k / (256 * s.slotCyc) + 1) * (256 * s.slotCyc)) ∧
      (s.ms.requests = [] → t.mem = s.mem ∧ t.ms.requests = [])) ∧
    (s.ms.switchAt = none → Completes .dramScheduleSwitch s fun t =>
      t = s) ∧
    (s.ms.pktTaken.length < s.pktCount → Completes .memBufTake s fun t =>
      (∃ k, k < s.pktCount ∧ k ∉ s.ms.pktTaken ∧ t.ms.pktTaken = s.ms.pktTaken ++ [k] ∧ t.out = .pktBuffer (s.pktBase + 2048 * k) :: s.out) ∧
      t.regs = s.regs ∧ t.mem = s.mem) ∧
    ((List.range s.pktCount).all (fun k => s.ms.pktTaken.contains k) = true → Completes .memBufTake s fun t =>
      t = s.emit (.pktBuffer 0)) ∧
    (∀ (a : Word) (k : Nat), s.pktOf a.toNat = some k → k ∈ s.ms.pktTaken → Completes (.memBufReturn a) s fun t =>
      t.ms.pktTaken = without k s.ms.pktTaken ∧ t.resp = ST.OK ∧
      t.regs = s.regs) ∧
    (∀ (a : Word), (s.pktOf a.toNat).all (fun (k : Nat) => !s.ms.pktTaken.contains k) = true → Completes (.memBufReturn a) s fun t =>
      t = s.memRefuse ST.MEM_BUF_ARG) ∧
    (∀ (n : Fin 128) (p b : Nat), (s.getF R.MEM_NAND_ADDR_PAGE = p ∧ s.getF R.MEM_NAND_BUF_ADDR = b) → ((if areaOpen 1 p n.val = false then some ST.MEM_NAND_AREA else if n.val = 0 ∨ 64 < n.val ∨ b % 64 ≠ 0 ∨ (inDram b || inFirmwareArea b) = false ∨ areaOne p n.val = false then some ST.MEM_RANGE else if s.gatedOrPending gateNand = true then some ST.CLK_GATED else if s.ms.nand.isSome = true then some ST.MEM_NAND_BUSY else none) = none) → Completes (.nandRead n) s fun t =>
      t.ms.nand = (s.ms.nandWait ++ [(⟨0, 1, p, n.val, b, []⟩ : NandOp)]).head? ∧ t.ms.nandWait = (s.ms.nandWait ++ [(⟨0, 1, p, n.val, b, []⟩ : NandOp)]).tail ∧
      t.isSet R.MEM_NAND_STAT_BUSY = true ∧
      t.resp = ST.OK ∧
      t.flash = s.flash ∧ t.mem = s.mem) ∧
    (∀ (n : Fin 128) (p b w : Nat), (s.getF R.MEM_NAND_ADDR_PAGE = p ∧ s.getF R.MEM_NAND_BUF_ADDR = b) → ((if areaOpen 1 p n.val = false then some ST.MEM_NAND_AREA else if n.val = 0 ∨ 64 < n.val ∨ b % 64 ≠ 0 ∨ (inDram b || inFirmwareArea b) = false ∨ areaOne p n.val = false then some ST.MEM_RANGE else if s.gatedOrPending gateNand = true then some ST.CLK_GATED else if s.ms.nand.isSome = true then some ST.MEM_NAND_BUSY else none) = some w) → Completes (.nandRead n) s fun t =>
      (t = (if w = ST.CLK_GATED then s.gatedRefuse gateNand R.MEM_CMD_ERR_STATUS else s.memRefuse w))) ∧
    (∀ (n : Fin 128) (p b : Nat), (s.getF R.MEM_NAND_ADDR_PAGE = p ∧ s.getF R.MEM_NAND_BUF_ADDR = b) → ((if areaOpen 2 p n.val = false ∨ s.trialProtects p n.val = true then some ST.MEM_NAND_AREA else if n.val = 0 ∨ 64 < n.val ∨ b % 64 ≠ 0 ∨ (inDram b || inFirmwareArea b) = false ∨ areaOne p n.val = false then some ST.MEM_RANGE else if s.gatedOrPending gateNand = true then some ST.CLK_GATED else if (List.range n.val).any (fun i => s.ms.programmed.contains (p + i)) = true then some ST.MEM_NAND_STATE else if s.ms.nand.isSome = true then some ST.MEM_NAND_BUSY else none) = none) → Completes (.nandProgram n) s fun t =>
      t.ms.nand = (s.ms.nandWait ++ [(⟨0, 2, p, n.val, b, []⟩ : NandOp)]).head? ∧ t.ms.nandWait = (s.ms.nandWait ++ [(⟨0, 2, p, n.val, b, []⟩ : NandOp)]).tail ∧
      t.isSet R.MEM_NAND_STAT_BUSY = true ∧
      t.resp = ST.OK ∧
      t.flash = s.flash ∧ t.mem = s.mem) ∧
    (∀ (n : Fin 128) (p b w : Nat), (s.getF R.MEM_NAND_ADDR_PAGE = p ∧ s.getF R.MEM_NAND_BUF_ADDR = b) → ((if areaOpen 2 p n.val = false ∨ s.trialProtects p n.val = true then some ST.MEM_NAND_AREA else if n.val = 0 ∨ 64 < n.val ∨ b % 64 ≠ 0 ∨ (inDram b || inFirmwareArea b) = false ∨ areaOne p n.val = false then some ST.MEM_RANGE else if s.gatedOrPending gateNand = true then some ST.CLK_GATED else if (List.range n.val).any (fun i => s.ms.programmed.contains (p + i)) = true then some ST.MEM_NAND_STATE else if s.ms.nand.isSome = true then some ST.MEM_NAND_BUSY else none) = some w) → Completes (.nandProgram n) s fun t =>
      (t = (if w = ST.CLK_GATED then s.gatedRefuse gateNand R.MEM_CMD_ERR_STATUS else s.memRefuse w))) ∧
    (∀ (n : Fin 128) (p b : Nat), (s.getF R.MEM_NAND_ADDR_PAGE = p ∧ s.getF R.MEM_NAND_BUF_ADDR = b) → ((if areaOpen 3 p 64 = false ∨ s.trialProtects p 64 = true then some ST.MEM_NAND_AREA else if n.val ≠ 1 ∨ p % 64 ≠ 0 ∨ areaOne p 64 = false then some ST.MEM_RANGE else if s.gatedOrPending gateNand = true then some ST.CLK_GATED else if s.ms.nand.isSome = true then some ST.MEM_NAND_BUSY else none) = none) → Completes (.nandErase n) s fun t =>
      t.ms.nand = (s.ms.nandWait ++ [(⟨0, 3, p, n.val, b, []⟩ : NandOp)]).head? ∧ t.ms.nandWait = (s.ms.nandWait ++ [(⟨0, 3, p, n.val, b, []⟩ : NandOp)]).tail ∧
      t.isSet R.MEM_NAND_STAT_BUSY = true ∧
      t.resp = ST.OK ∧
      t.flash = s.flash ∧ t.mem = s.mem) ∧
    (∀ (n : Fin 128) (p b w : Nat), (s.getF R.MEM_NAND_ADDR_PAGE = p ∧ s.getF R.MEM_NAND_BUF_ADDR = b) → ((if areaOpen 3 p 64 = false ∨ s.trialProtects p 64 = true then some ST.MEM_NAND_AREA else if n.val ≠ 1 ∨ p % 64 ≠ 0 ∨ areaOne p 64 = false then some ST.MEM_RANGE else if s.gatedOrPending gateNand = true then some ST.CLK_GATED else if s.ms.nand.isSome = true then some ST.MEM_NAND_BUSY else none) = some w) → Completes (.nandErase n) s fun t =>
      (t = (if w = ST.CLK_GATED then s.gatedRefuse gateNand R.MEM_CMD_ERR_STATUS else s.memRefuse w))) ∧
    (∀ (ok : Bool) (x : NandOp), s.ms.nand = some x → bitOf (s.getF R.CLK_GATE_STAT_GATED) gateNand = false → (x.who = 0 ∧ ok = true) → Completes (.nandOperationDone ok) s fun t =>
      (x.op = 1 → t.readBytes x.buf (4096 * x.count) = s.flashBytes (4096 * x.page) (4096 * x.count) ∧ t.flash = s.flash) ∧
      (x.op = 2 → t.flashBytes (4096 * x.page) (4096 * x.count) = s.readBytes x.buf (4096 * x.count) ∧ t.mem = s.mem) ∧
      (x.op = 3 → ∀ i, i < 4096 * 64 → t.flashByte (4096 * x.page + i) = 0xFF) ∧
      t.getF R.MEM_NAND_STAT_STATUS = ST.OK ∧ t.isSet R.MEM_EVENT_NAND_DONE = true ∧
      (t.ms.nand = (if s.gatedOrPending gateNand then none else s.ms.nandWait.head?) ∧ t.ms.nandWait = (if s.gatedOrPending gateNand then s.ms.nandWait else s.ms.nandWait.tail)) ∧
      (s.ms.nandWait = [] → t.isSet R.MEM_NAND_STAT_BUSY = false)) ∧
    (∀ (ok : Bool) (x : NandOp), s.ms.nand = some x → bitOf (s.getF R.CLK_GATE_STAT_GATED) gateNand = false → (x.who = 0 ∧ ok = false) → Completes (.nandOperationDone ok) s fun t =>
      (x.op = 1 → t.flash = s.flash ∧ t.getF R.MEM_NAND_STAT_STATUS = ST.MEM_NAND_READ) ∧
      (x.op ≠ 1 → t.getF R.MEM_NAND_STAT_STATUS = ST.MEM_NAND_FAIL) ∧
      t.mem = s.mem ∧
      t.isSet R.MEM_EVENT_NAND_DONE = true ∧ t.isSet R.MEM_EVENT_NAND_FAIL = true ∧
      (t.ms.nand = (if s.gatedOrPending gateNand then none else s.ms.nandWait.head?) ∧ t.ms.nandWait = (if s.gatedOrPending gateNand then s.ms.nandWait else s.ms.nandWait.tail))) ∧
    (∀ (ok : Bool) (x : NandOp), s.ms.nand = some x → bitOf (s.getF R.CLK_GATE_STAT_GATED) gateNand = false → x.who ≠ 0 → Completes (.nandOperationDone ok) s fun t =>
      (t = (let y := (((({ s with ms := { s.ms with nand := none } }).nandEffect x ok).raiseIf (!ok) R.MEM_EVENT_NAND_FAIL)).nandStart; if x.who = 1 then y.keyFlash ok else y))) ∧
    (∀ (ok : Bool), (s.ms.nand = none ∨ bitOf (s.getF R.CLK_GATE_STAT_GATED) gateNand = true) → Completes (.nandOperationDone ok) s fun t =>
      t = s) ∧
    (Completes .memCountClear s fun t =>
      t.getReg R.MEM_ECC_STAT = 0 ∧
      t.getF R.MEM_POOL_DROPS = 0 ∧
      t.ms.maxWait = [] ∧
      t.mem = s.mem ∧ t.flash = s.flash ∧
      t.resp = ST.OK)

/-- A block's address is queued, or refused ROLE, RANGE or CMD_FULL. The engine takes the block at the head of its FIFO,
until HASH_READY only a LOOKUP; one that is a customer's and not for it ends with ROLE, one with a bad field with RANGE. Each
operation leaves STATUS, RESULT and DONE in the block: LOOKUP the node; INSERT an entry more in a way or the stash, EXISTS
with the node, or HASH_FULL; DELETE one less, a way refilled from the stash, or ABSENT; FETCH the record at ARG; ROUTE the
route and its length; WRITE Ryurix's bytes of the chunks of MASK, chunk 0 changing the key; LPT_READ the learned path, or 0;
LPT_FORGET frees it, or ABSENT; REHASH empties the alternate table and starts, or BUSY, ALT_AREA, FAIL; the walk's end leaves
the alternate table ready or the rehash failed; SWAP exchanges the tables, or STATE; another operation RANGE, a customer's
ROLE. Zeroing done makes the hash ready. A sweep visits the next entry of the learned paths. Elsewhere nothing changes. Where
the spec leaves a detail open it rests on the model's choices of log entries 9, 10, 11, 12 and 14. -/
def Obligations.TableEngine : Prop :=
  ∀ s : State, s.Inv → 
    (∀ (w : Word) (cmp : Bool) (b : Fin 16), ((if cmp = true then some ST.GROUND_ROLE else if w.toNat % 32 ≠ 0 ∨ inFirmwareArea w.toNat = false then some ST.GROUND_RANGE else if 16 ≤ s.gd.fifo.length then some ST.GROUND_CMD_FULL else none) = none) → Completes (.groundCmdWrite w cmp b) s fun t =>
      t = ({ s with gd := { s.gd with fifo := s.gd.fifo ++ [(w.toNat, (s.hoopOf b).any s.isCustomer)] } }).answer ST.OK) ∧
    (∀ (w : Word) (cmp : Bool) (b : Fin 16) (st : Nat), ((if cmp = true then some ST.GROUND_ROLE else if w.toNat % 32 ≠ 0 ∨ inFirmwareArea w.toNat = false then some ST.GROUND_RANGE else if 16 ≤ s.gd.fifo.length then some ST.GROUND_CMD_FULL else none) = some st) → Completes (.groundCmdWrite w cmp b) s fun t =>
      t.gd = s.gd ∧
      t.resp = st ∧ t.getF R.GROUND_CMD_ERR_STATUS = st ∧
      (st = ST.GROUND_CMD_FULL → t.isSet R.GROUND_EVENT_CMD_FULL = true)) ∧
    (s.groundHead 1 = none → Completes .groundLookup s fun t =>
      t = s) ∧
    (∀ (a : Nat) (c : Bool), s.groundHead 1 = some (a, c) → s.blkRange a 1 = false → Completes .groundLookup s fun t =>
      t = s.groundPop.blockEnd a ST.GROUND_RANGE 0) ∧
    (s.groundHead 2 = none → Completes .groundInsert s fun t =>
      t = s) ∧
    (∀ (a : Nat) (c : Bool), s.groundHead 2 = some (a, c) → (c = true ∨ s.blkRange a 2 = false) → Completes .groundInsert s fun t =>
      (t = s.groundPop.blockEnd a (if c then ST.GROUND_ROLE else ST.GROUND_RANGE) 0)) ∧
    (s.groundHead 3 = none → Completes .groundDelete s fun t =>
      t = s) ∧
    (∀ (a : Nat) (c : Bool), s.groundHead 3 = some (a, c) → (c = true ∨ s.blkRange a 3 = false) → Completes .groundDelete s fun t =>
      (t = s.groundPop.blockEnd a (if c then ST.GROUND_ROLE else ST.GROUND_RANGE) 0)) ∧
    (s.groundHead 4 = none → Completes .groundFetch s fun t =>
      t = s) ∧
    (∀ (a : Nat) (c : Bool), s.groundHead 4 = some (a, c) → s.blkRange a 4 = false → Completes .groundFetch s fun t =>
      t = s.groundPop.blockEnd a ST.GROUND_RANGE 0) ∧
    (s.groundHead 5 = none → Completes .groundRoute s fun t =>
      t = s) ∧
    (∀ (a : Nat) (c : Bool), s.groundHead 5 = some (a, c) → s.blkRange a 5 = false → Completes .groundRoute s fun t =>
      t = s.groundPop.blockEnd a ST.GROUND_RANGE 0) ∧
    (s.groundHead 6 = none → Completes .groundWrite s fun t =>
      t = s) ∧
    (∀ (a : Nat) (c : Bool), s.groundHead 6 = some (a, c) → (c = true ∨ s.blkRange a 6 = false) → Completes .groundWrite s fun t =>
      (t = s.groundPop.blockEnd a (if c then ST.GROUND_ROLE else ST.GROUND_RANGE) 0)) ∧
    (s.groundHead 7 = none → Completes .groundLptRead s fun t =>
      t = s) ∧
    (∀ (a : Nat) (c : Bool), s.groundHead 7 = some (a, c) → s.blkRange a 7 = false → Completes .groundLptRead s fun t =>
      t = s.groundPop.blockEnd a ST.GROUND_RANGE 0) ∧
    (s.groundHead 8 = none → Completes .groundLptForget s fun t =>
      t = s) ∧
    (∀ (a : Nat) (c : Bool), s.groundHead 8 = some (a, c) → (c = true ∨ s.blkRange a 8 = false) → Completes .groundLptForget s fun t =>
      (t = s.groundPop.blockEnd a (if c then ST.GROUND_ROLE else ST.GROUND_RANGE) 0)) ∧
    (s.groundHead 9 = none → Completes .groundRehash s fun t =>
      t = s) ∧
    (∀ (a : Nat) (c : Bool), s.groundHead 9 = some (a, c) → (c = true ∨ s.blkRange a 9 = false) → Completes .groundRehash s fun t =>
      (t = s.groundPop.blockEnd a (if c then ST.GROUND_ROLE else ST.GROUND_RANGE) 0)) ∧
    (s.groundHead 10 = none → Completes .groundSwap s fun t =>
      t = s) ∧
    (∀ (a : Nat) (c : Bool), s.groundHead 10 = some (a, c) → (c = true ∨ s.blkRange a 10 = false) → Completes .groundSwap s fun t =>
      (t = s.groundPop.blockEnd a (if c then ST.GROUND_ROLE else ST.GROUND_RANGE) 0)) ∧
    (∀ (a : Nat) (c : Bool), s.groundHead 1 = some (a, c) → (c = false ∨ custOp 1 = true) → s.blkRange a 1 = true → Completes .groundLookup s fun t =>
      t.readNat (a + 4) 2 = ST.OK ∧ t.readNat (a + 28) 4 = s.groundLookup (s.blkType a) (s.blkPan a) (s.blkKey a) % 2 ^ 32 ∧ t.readNat (a + 3) 1 = 1 ∧
      t.gd.fifo = s.gd.fifo.tail ∧
      (t.regs = s.regs ∨ bitOf (s.readNat (a + 24) 4) 31 = true)) ∧
    (∀ (a : Nat) (c : Bool) (w : Nat), s.groundHead 2 = some (a, c) → c = false → s.blkRange a 2 = true → s.hashHas s.liveTab s.gd.stash (s.blkKey a) (s.blkType a) = none → s.freeWay s.liveTab (bucketsOf s.gd.seed0 s.gd.seed1 (s.blkKey a) (s.blkType a)).1 = some w → (s.altActive = false ∧ s.blkNode a < 2 ^ 18) → (inFirmwareArea a = true ∧ 0x10600000 ≤ s.getF R.GROUND_HASH_BASE_BASE) → Completes .groundInsert s fun t =>
      t.way s.liveTab (bucketsOf s.gd.seed0 s.gd.seed1 (s.blkKey a) (s.blkType a)).1 w = some ⟨s.blkKey a, s.blkType a, s.blkNode a⟩ ∧
      t.gd.entries = s.gd.entries + 1 ∧ t.gd.stash = s.gd.stash ∧
      t.readNat (a + 4) 2 = ST.OK ∧ t.readNat (a + 28) 4 = 0 ∧ t.readNat (a + 3) 1 = 1 ∧
      t.gd.fifo = s.gd.fifo.tail) ∧
    (∀ (a : Nat) (c : Bool) (path : List Place), s.groundHead 2 = some (a, c) → c = false → s.blkRange a 2 = true → s.hashHas s.liveTab s.gd.stash (s.blkKey a) (s.blkType a) = none → s.hashPlan s.liveTab (decide (s.gd.stash.length < 64)) ⟨s.blkKey a, s.blkType a, s.blkNode a⟩ = some path → (inFirmwareArea a = true ∧ 0x10600000 ≤ s.getF R.GROUND_HASH_BASE_BASE) → s.altActive = false → Completes .groundInsert s fun t =>
      t.gd.entries = s.gd.entries + 1 ∧
      (t.gd.stash.length = s.gd.stash.length + (if path.contains .stash then 1 else 0)) ∧
      t.getF R.GROUND_COUNT0_HI = min R.GROUND_COUNT0_HI.max (s.getF R.GROUND_COUNT0_HI + (path.length - 1)) ∧
      t.readNat (a + 4) 2 = ST.OK ∧ t.readNat (a + 28) 4 = 0 ∧ t.readNat (a + 3) 1 = 1 ∧
      t.gd.fifo = s.gd.fifo.tail) ∧
    (∀ (a : Nat) (c : Bool) (e : HashEntry), s.groundHead 2 = some (a, c) → c = false → s.blkRange a 2 = true → s.hashHas s.liveTab s.gd.stash (s.blkKey a) (s.blkType a) = some e → Completes .groundInsert s fun t =>
      t.gd.entries = s.gd.entries ∧ t.gd.stash = s.gd.stash ∧
      t.readNat (a + 4) 2 = ST.GROUND_EXISTS ∧ t.readNat (a + 28) 4 = e.node % 2 ^ 32 ∧ t.readNat (a + 3) 1 = 1 ∧
      t.gd.fifo = s.gd.fifo.tail) ∧
    (∀ (a : Nat) (c : Bool), s.groundHead 2 = some (a, c) → c = false → s.blkRange a 2 = true → s.hashHas s.liveTab s.gd.stash (s.blkKey a) (s.blkType a) = none → s.hashPlan s.liveTab (decide (s.gd.stash.length < 64)) ⟨s.blkKey a, s.blkType a, s.blkNode a⟩ = none → Completes .groundInsert s fun t =>
      t.gd.entries = s.gd.entries ∧ t.gd.stash = s.gd.stash ∧
      t.isSet R.GROUND_EVENT_REHASH_NEEDED = true ∧
      t.getF R.GROUND_COUNT1_LO = min R.GROUND_COUNT1_LO.max (s.getF R.GROUND_COUNT1_LO + 1) ∧
      t.readNat (a + 4) 2 = ST.GROUND_HASH_FULL ∧ t.readNat (a + 28) 4 = 0 ∧ t.readNat (a + 3) 1 = 1 ∧
      t.gd.fifo = s.gd.fifo.tail) ∧
    (∀ (a : Nat) (c : Bool), s.groundHead 3 = some (a, c) → c = false → s.blkRange a 3 = true → s.gd.stash.any (fun (e : HashEntry) => e.key == s.blkKey a && e.typ == s.blkType a) = true → Completes .groundDelete s fun t =>
      t.gd.stash = s.gd.stash.filter (fun (e : HashEntry) => !(e.key == s.blkKey a && e.typ == s.blkType a)) ∧
      t.gd.entries = s.gd.entries - 1 ∧
      t.readNat (a + 4) 2 = ST.OK ∧ t.readNat (a + 28) 4 = 0 ∧ t.readNat (a + 3) 1 = 1 ∧
      t.gd.fifo = s.gd.fifo.tail) ∧
    (∀ (a : Nat) (c : Bool) (b w : Nat) (e : HashEntry), s.groundHead 3 = some (a, c) → c = false → s.blkRange a 3 = true → s.gd.stash.any (fun (e : HashEntry) => e.key == s.blkKey a && e.typ == s.blkType a) = false → s.findWay s.liveTab (s.blkKey a) (s.blkType a) = some (b, w, e) → s.altActive = false → (inFirmwareArea a = true ∧ 0x10600000 ≤ s.getF R.GROUND_HASH_BASE_BASE) → Completes .groundDelete s fun t =>
      t.way s.liveTab b w = s.gd.stash.find? (fun (e : HashEntry) => (bucketsOf s.gd.seed0 s.gd.seed1 e.key e.typ).1 == b || (bucketsOf s.gd.seed0 s.gd.seed1 e.key e.typ).2 == b) ∧
      t.gd.entries = s.gd.entries - 1 ∧
      (t.gd.stash.length = s.gd.stash.length - (if (t.way s.liveTab b w).isSome then 1 else 0)) ∧
      t.readNat (a + 4) 2 = ST.OK ∧ t.readNat (a + 28) 4 = 0 ∧ t.readNat (a + 3) 1 = 1 ∧
      t.gd.fifo = s.gd.fifo.tail) ∧
    (∀ (a : Nat) (c : Bool), s.groundHead 3 = some (a, c) → c = false → s.blkRange a 3 = true → s.hashHas s.liveTab s.gd.stash (s.blkKey a) (s.blkType a) = none → Completes .groundDelete s fun t =>
      t.gd.stash = s.gd.stash ∧ t.gd.entries = s.gd.entries ∧
      t.readNat (a + 4) 2 = ST.GROUND_ABSENT ∧ t.readNat (a + 28) 4 = 0 ∧ t.readNat (a + 3) 1 = 1 ∧
      t.gd.fifo = s.gd.fifo.tail) ∧
    (∀ (a : Nat) (c : Bool), s.groundHead 4 = some (a, c) → (c = false ∨ custOp 4 = true) → s.blkRange a 4 = true → (s.blkArg a + 256 ≤ a ∨ a + 32 ≤ s.blkArg a) → Completes .groundFetch s fun t =>
      t.readBytes (s.blkArg a) 256 = s.readBytes (s.recAddr (s.blkNode a) 0) 256 ∧
      t.readNat (a + 4) 2 = ST.OK ∧ t.readNat (a + 28) 4 = 0 ∧ t.readNat (a + 3) 1 = 1 ∧
      t.gd.fifo = s.gd.fifo.tail) ∧
    (∀ (a : Nat) (c : Bool), s.groundHead 5 = some (a, c) → (c = false ∨ custOp 5 = true) → s.blkRange a 5 = true → (s.blkArg a + (s.recGet (s.blkNode a) 92 2) ≤ a ∨ a + 32 ≤ s.blkArg a) → Completes .groundRoute s fun t =>
      t.readBytes (s.blkArg a) (s.recGet (s.blkNode a) 92 2) = s.readBytes ((s.region 6).1 + s.recGet (s.blkNode a) 88 4) (s.recGet (s.blkNode a) 92 2) ∧
      t.readNat (a + 4) 2 = ST.OK ∧ t.readNat (a + 28) 4 = s.recGet (s.blkNode a) 92 2 ∧ t.readNat (a + 3) 1 = 1 ∧
      t.gd.fifo = s.gd.fifo.tail) ∧
    (∀ (a : Nat) (c : Bool), s.groundHead 6 = some (a, c) → c = false → s.blkRange a 6 = true → (inFirmwareArea a = true ∧ 0x10600000 ≤ (s.region 0).1) → inFirmwareArea (s.blkArg a + 255) = true → Completes .groundWrite s fun t =>
      (∀ i ∈ List.range 256, ryurixOwns i = true → bitOf (s.blkMask a) (i / 64) = true → t.readByte (s.recAddr (s.blkNode a) i) = s.readByte (s.blkArg a + i)) ∧
      (bitOf (s.blkMask a) 0 = true → t.recGet (s.blkNode a) 40 4 = 0 ∧ t.recGet (s.blkNode a) 44 1 = 1 ∧ Store.get (fun _ => 0) t.gd.keyEpoch (s.blkNode a) = Store.get (fun _ => 0) s.gd.keyEpoch (s.blkNode a) + 1) ∧
      (∀ i ∈ List.range 256, bitOf (s.blkMask a) (i / 64) = false → t.readByte (s.recAddr (s.blkNode a) i) = s.readByte (s.recAddr (s.blkNode a) i)) ∧
      t.readNat (a + 4) 2 = ST.OK ∧ t.readNat (a + 28) 4 = 0 ∧ t.readNat (a + 3) 1 = 1 ∧
      t.gd.fifo = s.gd.fifo.tail) ∧
    (∀ (a : Nat) (c : Bool) (k : Nat) (e : Lpt), s.groundHead 7 = some (a, c) → (c = false ∨ custOp 7 = true) → s.blkRange a 7 = true → s.lptOf (s.blkNode a) = some (k, e) → (s.blkArg a + e.bytes.length ≤ a ∨ a + 32 ≤ s.blkArg a) → Completes .groundLptRead s fun t =>
      t.readBytes (s.blkArg a) e.bytes.length = e.bytes ∧
      t.readNat (a + 4) 2 = ST.OK ∧ t.readNat (a + 28) 4 = 1 ∧ t.readNat (a + 3) 1 = 1 ∧
      t.gd.fifo = s.gd.fifo.tail) ∧
    (∀ (a : Nat) (c : Bool), s.groundHead 7 = some (a, c) → (c = false ∨ custOp 7 = true) → s.blkRange a 7 = true → s.lptOf (s.blkNode a) = none → Completes .groundLptRead s fun t =>
      t = s.groundPop.blockEnd a ST.OK 0 ∧
      t.readNat (a + 4) 2 = ST.OK ∧ t.readNat (a + 28) 4 = 0 ∧ t.readNat (a + 3) 1 = 1 ∧
      t.gd.fifo = s.gd.fifo.tail) ∧
    (∀ (a : Nat) (c : Bool) (k : Nat) (e : Lpt), s.groundHead 8 = some (a, c) → c = false → s.blkRange a 8 = true → s.lptOf (s.blkNode a) = some (k, e) → Completes .groundLptForget s fun t =>
      Store.find? k t.gd.lpt = none ∧
      t.readNat (a + 4) 2 = ST.OK ∧ t.readNat (a + 28) 4 = 0 ∧ t.readNat (a + 3) 1 = 1 ∧
      t.gd.fifo = s.gd.fifo.tail) ∧
    (∀ (a : Nat) (c : Bool), s.groundHead 8 = some (a, c) → c = false → s.blkRange a 8 = true → s.lptOf (s.blkNode a) = none → Completes .groundLptForget s fun t =>
      t = s.groundPop.blockEnd a ST.GROUND_ABSENT 0) ∧
    (∀ (a : Nat) (c : Bool), s.groundHead 9 = some (a, c) → c = false → s.blkRange a 9 = true → ((if s.gd.rehash.isSome = true then some ST.GROUND_REHASH_BUSY else if s.altAreaOk = false then some ST.GROUND_ALT_AREA else if s.gd.alt0 = s.gd.alt1 then some ST.GROUND_REHASH_FAIL else none) = none) → Completes .groundRehash s fun t =>
      t.gd.rehash = some a ∧ t.gd.altStash = [] ∧ t.gd.fifo = s.gd.fifo.tail ∧
      t.isSet R.GROUND_STATE_REHASH = true ∧ t.isSet R.GROUND_STATE_ALT_READY = false ∧
      (∀ i, i < 0x800000 → t.readByte (s.getF R.GROUND_ALT_BASE_BASE + i) = 0)) ∧
    (∀ (a : Nat) (c : Bool) (st : Nat), s.groundHead 9 = some (a, c) → c = false → s.blkRange a 9 = true → ((if s.gd.rehash.isSome = true then some ST.GROUND_REHASH_BUSY else if s.altAreaOk = false then some ST.GROUND_ALT_AREA else if s.gd.alt0 = s.gd.alt1 then some ST.GROUND_REHASH_FAIL else none) = some st) → Completes .groundRehash s fun t =>
      t = s.groundPop.blockEnd a st 0 ∧
      t.gd.rehash = s.gd.rehash ∧
      t.readNat (a + 4) 2 = st ∧ t.readNat (a + 28) 4 = 0 ∧ t.readNat (a + 3) 1 = 1 ∧
      t.gd.fifo = s.gd.fifo.tail) ∧
    (∀ (a : Nat), s.gd.rehash = some a → Completes .rehashWalkEnd s fun t =>
      t.gd.rehash = none ∧
      t.isSet R.GROUND_STATE_REHASH = false ∧
      (t.isSet R.GROUND_STATE_ALT_READY = true ∧ t.isSet R.GROUND_EVENT_REHASH_DONE = true ∧ t.readNat (a + 4) 2 = ST.OK ∨ t.isSet R.GROUND_STATE_ALT_READY = false ∧ t.isSet R.GROUND_EVENT_REHASH_FAIL = true ∧ t.readNat (a + 4) 2 = ST.GROUND_REHASH_FAIL)) ∧
    (s.gd.rehash = none → Completes .rehashWalkEnd s fun t =>
      t = s) ∧
    (∀ (a : Nat) (c : Bool), s.groundHead 10 = some (a, c) → c = false → s.blkRange a 10 = true → s.isSet R.GROUND_STATE_ALT_READY = true → Completes .groundSwap s fun t =>
      t.getF R.GROUND_HASH_BASE_BASE = s.getF R.GROUND_ALT_BASE_BASE ∧ t.getF R.GROUND_ALT_BASE_BASE = s.getF R.GROUND_HASH_BASE_BASE ∧
      t.gd.seed0 = s.gd.alt0 ∧ t.gd.seed1 = s.gd.alt1 ∧ t.gd.alt0 = s.gd.seed0 ∧ t.gd.alt1 = s.gd.seed1 ∧
      t.gd.stash = s.gd.altStash ∧ t.gd.altStash = s.gd.stash ∧
      t.isSet R.GROUND_STATE_ALT_READY = false ∧
      t.readNat (a + 4) 2 = ST.OK ∧ t.readNat (a + 28) 4 = 0 ∧ t.readNat (a + 3) 1 = 1 ∧
      t.gd.fifo = s.gd.fifo.tail) ∧
    (∀ (a : Nat) (c : Bool), s.groundHead 10 = some (a, c) → c = false → s.blkRange a 10 = true → s.isSet R.GROUND_STATE_ALT_READY = false → Completes .groundSwap s fun t =>
      t = s.groundPop.blockEnd a ST.GROUND_REHASH_STATE 0) ∧
    (∀ (a : Nat) (c : Bool), s.gd.fifo.head? = some (a, c) → ((s.blkOp a = 0 ∨ 10 < s.blkOp a) ∧ s.isSet R.GROUND_STATE_HASH_READY = true) → Completes .groundBadOp s fun t =>
      (t = s.groundPop.blockEnd a (if c then ST.GROUND_ROLE else ST.GROUND_RANGE) 0) ∧
      (t.readNat (a + 4) 2 = (if c then ST.GROUND_ROLE else ST.GROUND_RANGE) ∧ t.readNat (a + 28) 4 = 0 ∧ t.readNat (a + 3) 1 = 1) ∧
      t.gd.fifo = s.gd.fifo.tail) ∧
    ((s.gd.fifo.head?.all (fun (x : Nat × Bool) => decide (1 ≤ s.blkOp x.1 ∧ s.blkOp x.1 ≤ 10) || !s.isSet R.GROUND_STATE_HASH_READY) = true) → Completes .groundBadOp s fun t =>
      t = s) ∧
    (((s.inService || s.erasedLike) = true ∧ s.isSet R.GROUND_STATE_HASH_READY = false) → s.running = false → Completes .hashZeroingDone s fun t =>
      t.isSet R.GROUND_STATE_HASH_READY = true ∧
      t.gd.entries = s.gd.stash.length ∧
      (∀ i, i < 0x800000 → t.readByte (s.getF R.GROUND_HASH_BASE_BASE + i) = 0)) ∧
    (∀ (b : Nat), ((s.inService || s.erasedLike) = true ∧ s.isSet R.GROUND_STATE_HASH_READY = false) → s.getF R.GROUND_HASH_BASE_BASE = b → Completes .hashZeroingDone s fun t =>
      t = ((({ s.dropMem b (b + 0x800000) with gd := { s.gd with entries := s.gd.stash.length } }).setF R.GROUND_STATE_HASH_READY 1).keysAgain)) ∧
    ((¬ ((s.inService || s.erasedLike) = true ∧ s.isSet R.GROUND_STATE_HASH_READY = false)) → Completes .hashZeroingDone s fun t =>
      t = s)

/-- While Ryurix runs, an advertisement on a port that is up sets its routers, prefixes and neighbours, and the preferred
port comes back 10 s after it has a live router; a change of the delegation moves the prefixes of the PANs and is reported;
the preferred port gives way when its routers have expired, if the other has a link. While it serves the mesh: a packet for a
PAN's prefix leaves by the route of its node, compressed, in one frame or in fragments, or is answered unreachable or too
big, at most 100 errors a second; a fragment starts, extends, ends or breaks a context of 60 s, and a complete datagram goes
upstream; a registration, by NS or EDAR, gets the status it gets, and its end clears the identifier; a DIO that is due and
not suppressed leaves and the interval doubles; a DAO sets parent, version and lifetime, clears the path for lifetime 0, or
is answered 129, as asked; a path ends with its lifetime. Elsewhere only time moves on. Where the spec leaves a detail open
it rests on the model's choices of log entries 31 and 35. -/
def Obligations.BorderRouter : Prop :=
  ∀ s : State, s.Inv → 
    (∀ (p : Fin 2) (r : BitVec 128) (life u : Nat) (l : List (BitVec 64 × Bool × Nat)), (s.ryRuns = true ∧ s.isSet (R.UPL_STAT_LINK_UP p) = true ∧ s.getF (R.UPL_CTRL_ADMIN p) = 0) → Completes (.routerAdvertisementRx p r life l u) s fun t =>
      (t.netPort p).routers = withLife (s.netPort p).routers r.toNat life (max s.mtb u) ∧
      (t.netPort p).neigh = neighbour (s.netPort p).neigh r.toNat ∧
      (t.netPort p).prefixes = ((l.filter (fun x => x.2.1)).foldl (fun m (x : BitVec 64 × Bool × Nat) => withLife m x.1.toNat x.2.2 (max s.mtb u)) (s.netPort p).prefixes) ∧
      (t.ry.inUse = (if s.isSet (R.UPL_STAT_LINK_UP s.ry.inUse) then s.ry.inUse else p.val)) ∧
      (p.val ≠ s.preferred → s.isSet (R.UPL_STAT_LINK_UP s.ry.inUse) = true → t.ry.backAt = s.ry.backAt) ∧
      (p.val = s.preferred → s.isSet (R.UPL_STAT_LINK_UP s.ry.inUse) = true → s.ry.inUse ≠ p.val → s.ry.backAt = none → life ≠ 0 → t.ry.backAt = some (max s.mtb u + 10 * secCyc))) ∧
    (∀ (p : Fin 2) (r : BitVec 128) (life u : Nat) (l : List (BitVec 64 × Bool × Nat)), (¬ (s.ryRuns = true ∧ s.isSet (R.UPL_STAT_LINK_UP p) = true ∧ s.getF (R.UPL_CTRL_ADMIN p) = 0)) → Completes (.routerAdvertisementRx p r life l u) s fun t =>
      t = s.advance u) ∧
    (∀ (d : Option (BitVec 64 × Fin 65 × Nat)) (u : Nat), (s.ryRuns = true ∧ s.settingD (settingNo svcNet 0 13 0) 0 = 1) → s.ry.deleg.map (fun (x : Nat × Nat × Nat) => (x.1, x.2.1)) = d.map (fun (x : BitVec 64 × Fin 65 × Nat) => (x.1.toNat, x.2.1.val)) → Completes (.prefixDelegationChange d u) s fun t =>
      t = { s.advance u with ry := { s.ry with deleg := d.map (fun (x : BitVec 64 × Fin 65 × Nat) => (x.1.toNat, x.2.1.val, max s.mtb u + x.2.2 * secCyc)) } }) ∧
    (∀ (d : Option (BitVec 64 × Fin 65 × Nat)) (u : Nat), (s.ryRuns = true ∧ s.settingD (settingNo svcNet 0 13 0) 0 = 1) → ¬ (s.ry.deleg.map (fun (x : Nat × Nat × Nat) => (x.1, x.2.1)) = d.map (fun (x : BitVec 64 × Fin 65 × Nat) => (x.1.toNat, x.2.1.val))) → Completes (.prefixDelegationChange d u) s fun t =>
      (0x201C0000, 0, max s.mtb u) ∈ t.notes ∧
      t.ry.deleg = d.map (fun (x : BitVec 64 × Fin 65 × Nat) => (x.1.toNat, x.2.1.val, max s.mtb u + x.2.2 * secCyc)) ∧
      ((List.range s.pr.pans.length).all (fun (p : Nat) => decide (s.panSet p 12 ≠ [] ∨ delegated s.ry.deleg p = delegated t.ry.deleg p ∨ (t.root p).version = (if (delegated t.ry.deleg p).isSome then nextVersion (s.root p).version else (s.root p).version) ∧ ((delegated t.ry.deleg p).isNone = true → (t.root p).dioAt = none))) = true) ∧
      t.mem = s.mem) ∧
    (∀ (d : Option (BitVec 64 × Fin 65 × Nat)) (u : Nat), (¬ (s.ryRuns = true ∧ s.settingD (settingNo svcNet 0 13 0) 0 = 1)) → Completes (.prefixDelegationChange d u) s fun t =>
      t = s.advance u) ∧
    (∀ (p : Fin 2) (u : Nat), (s.ryRuns = true ∧ p.val = s.preferred) → (¬ (s.isSet (R.UPL_STAT_LINK_UP p) = true ∧ (s.netPort p).routers.any (fun (r : Nat × Nat) => decide (max s.mtb u < r.2)) = true)) → Completes (.defaultRouterExpiry p u) s fun t =>
      (t.ry.inUse = (if s.ry.inUse = p.val ∧ s.isSet (R.UPL_STAT_LINK_UP (1 - p.val)) = true then 1 - p.val else s.ry.inUse)) ∧
      t.ry.backAt = none ∧
      (t.netPort p).routers = (s.netPort p).routers.filter (fun (r : Nat × Nat) => decide (max s.mtb u < r.2))) ∧
    (∀ (p : Fin 2) (u : Nat), (s.ryRuns = false ∨ p.val ≠ s.preferred ∨ s.isSet (R.UPL_STAT_LINK_UP p) = true ∧ (s.netPort p).routers.any (fun (r : Nat × Nat) => decide (max s.mtb u < r.2)) = true) → Completes (.defaultRouterExpiry p u) s fun t =>
      t.ry.inUse = s.ry.inUse ∧ t.ry.backAt = s.ry.backAt ∧
      (t.netPort p).routers = (s.netPort p).routers.filter (fun (r : Nat × Nat) => decide (max s.mtb u < r.2)) ∧
      t.regs = s.regs ∧ t.mtb = max s.mtb u) ∧
    (∀ (u : Nat), (s.ry.backAt.any (fun (a : Nat) => decide (a ≤ max s.mtb u)) = true ∧ (s.advance u).liveRouter s.preferred = true) → Completes (.preferredPortReturn u) s fun t =>
      t = { s.advance u with ry := { s.ry with inUse := s.preferred, backAt := none } }) ∧
    (∀ (u : Nat), (¬ (s.ry.backAt.any (fun (a : Nat) => decide (a ≤ max s.mtb u)) = true ∧ (s.advance u).liveRouter s.preferred = true)) → Completes (.preferredPortReturn u) s fun t =>
      t = s.advance u) ∧
    (∀ (d : BitVec 128) (n hi ho x u : Nat) (phy : Fin 65536), (s.rySends = false ∨ (List.range s.pr.pans.length).find? (fun p => decide ((s.panPrefix p).map (fun (y : Nat × Nat) => y.1) = some (d.toNat / 2 ^ 64))) = none) → Completes (.downstreamPacket d n hi ho phy x u) s fun t =>
      t = s.advance u) ∧
    (∀ (d : BitVec 128) (n hi ho x u : Nat) (phy : Fin 65536) (p : Nat), s.rySends = true → (List.range s.pr.pans.length).find? (fun p => decide ((s.panPrefix p).map (fun (y : Nat × Nat) => y.1) = some (d.toNat / 2 ^ 64))) = some p → (s.known (s.groundLookup 1 p (d.toNat % 2 ^ 64)) = false ∨ s.nodePan (s.groundLookup 1 p (d.toNat % 2 ^ 64)) ≠ p ∨ ((s.advance u).route (s.groundLookup 1 p (d.toNat % 2 ^ 64))).isNone = true) → Completes (.downstreamPacket d n hi ho phy x u) s fun t =>
      t = (s.advance u).icmpError (.unreachable 0) ∧
      (s.ry.icmp.1 ≠ max s.mtb u / secCyc ∨ s.ry.icmp.2 < 100 → t.out = .ryurix (.unreachable 0) :: s.out) ∧
      (s.ry.icmp.1 = max s.mtb u / secCyc ∧ 100 ≤ s.ry.icmp.2 → t.out = s.out)) ∧
    (∀ (d : BitVec 128) (n hi ho x u : Nat) (phy : Fin 65536) (p v hop : Nat) (h : List Byte) (y : State), s.rySends = true → (List.range s.pr.pans.length).find? (fun p => decide ((s.panPrefix p).map (fun (y : Nat × Nat) => y.1) = some (d.toNat / 2 ^ 64))) = some p → s.groundLookup 1 p (d.toNat % 2 ^ 64) = v → (s.known v = true ∧ s.nodePan v = p) → (s.advance u).route v = some ((hop, h), y) → 1280 < n + h.length → Completes (.downstreamPacket d n hi ho phy x u) s fun t =>
      t = y.icmpError (.tooBig 1280)) ∧
    (∀ (d : BitVec 128) (n hi ho x u : Nat) (phy : Fin 65536) (p v hop : Nat) (h : List Byte) (y : State), s.rySends = true → (List.range s.pr.pans.length).find? (fun p => decide ((s.panPrefix p).map (fun (y : Nat × Nat) => y.1) = some (d.toNat / 2 ^ 64))) = some p → s.groundLookup 1 p (d.toNat % 2 ^ 64) = v → (s.known v = true ∧ s.nodePan v = p) → (s.advance u).route v = some ((hop, h), y) → n + h.length ≤ 1280 → h.length + ho + (n - hi) ≤ maxPsdu phy - x → Completes (.downstreamPacket d n hi ho phy x u) s fun t =>
      t = y.say (.packet v hop h (h.length + ho + (n - hi)))) ∧
    (∀ (d : BitVec 128) (n hi ho x u : Nat) (phy : Fin 65536) (p v hop : Nat) (h : List Byte) (y : State), s.rySends = true → (List.range s.pr.pans.length).find? (fun p => decide ((s.panPrefix p).map (fun (y : Nat × Nat) => y.1) = some (d.toNat / 2 ^ 64))) = some p → s.groundLookup 1 p (d.toNat % 2 ^ 64) = v → (s.known v = true ∧ s.nodePan v = p) → (s.advance u).route v = some ((hop, h), y) → n + h.length ≤ 1280 → maxPsdu phy - x < h.length + ho + (n - hi) → Completes (.downstreamPacket d n hi ho phy x u) s fun t =>
      t.out.contains (.ryurix (.fragment v hop (y.recGet v 216 2) 0 ((hi + (maxPsdu phy - x - 4 - h.length - ho)) / 8 * 8))) = true ∧
      t.recGet v 216 2 = (y.recGet v 216 2 + 1) % 65536 ∧
      (t.out.all (fun (m : Msg) => y.out.contains m || (match m with | .ryurix (.fragment a b c off len) => a == v && b == hop && c == y.recGet v 216 2 && (off == 0 && len == (hi + (maxPsdu phy - x - 4 - h.length - ho)) / 8 * 8 || (hi + (maxPsdu phy - x - 4 - h.length - ho)) / 8 * 8 ≤ off && len ≤ maxPsdu phy - x - 5 && off + len ≤ max n ((hi + (maxPsdu phy - x - 4 - h.length - ho)) / 8 * 8) && off % 8 == 0) | _ => s.pa.mirrors)) = true)) ∧
    (∀ (v tag n off u : Nat) (d : List Byte), (¬ (s.rySends = true ∧ s.known v = true)) → Completes (.upstreamFragmentRx v tag n off d u) s fun t =>
      t = s.advance u) ∧
    (∀ (v tag n off u : Nat) (d : List Byte), (s.rySends = true ∧ s.known v = true) → (s.ry.reasm.filter (fun (c : Reasm) => decide (max s.mtb u < c.at_ + 60 * secCyc))).any (fun (c : Reasm) => c.node == v && c.tag == tag) = false → (off = 0 ∧ (s.ry.reasm.filter (fun (c : Reasm) => decide (max s.mtb u < c.at_ + 60 * secCyc))).length < 2048) → Completes (.upstreamFragmentRx v tag n off d u) s fun t =>
      (n ≤ d.length → t = (s.advance u).upstreamOut (d.take n)) ∧
      (d.length < n → t = { s.advance u with ry := { s.ry with reasm := (s.ry.reasm.filter (fun (c : Reasm) => decide (max s.mtb u < c.at_ + 60 * secCyc))) ++ [⟨v, tag, n, max s.mtb u, [(0, d)]⟩] } })) ∧
    (∀ (v tag n off u : Nat) (d : List Byte), (s.rySends = true ∧ s.known v = true) → (s.ry.reasm.filter (fun (c : Reasm) => decide (max s.mtb u < c.at_ + 60 * secCyc))).any (fun (c : Reasm) => c.node == v && c.tag == tag) = false → (off ≠ 0 ∨ 2048 ≤ (s.ry.reasm.filter (fun (c : Reasm) => decide (max s.mtb u < c.at_ + 60 * secCyc))).length) → Completes (.upstreamFragmentRx v tag n off d u) s fun t =>
      (t = (if off = 0 then { s.advance u with ry := { s.ry with noContext := s.ry.noContext + 1 } } else if (s.ry.reasm.filter (fun (c : Reasm) => decide (max s.mtb u < c.at_ + 60 * secCyc))).length < 2048 then { s.advance u with ry := { s.ry with reasm := (s.ry.reasm.filter (fun (c : Reasm) => decide (max s.mtb u < c.at_ + 60 * secCyc))) ++ [⟨v, tag, n, max s.mtb u, [(off, d)]⟩] } } else s.advance u))) ∧
    (∀ (v tag n off u : Nat) (d : List Byte) (c : Reasm), (s.rySends = true ∧ s.known v = true) → (s.ry.reasm.filter (fun (c : Reasm) => decide (max s.mtb u < c.at_ + 60 * secCyc))).find? (fun (c : Reasm) => c.node == v && c.tag == tag) = some c → c.frags.any (fun f => clash f (off, d)) = true → Completes (.upstreamFragmentRx v tag n off d u) s fun t =>
      t = { s.advance u with ry := { s.ry with reasm := (s.ry.reasm.filter (fun (c : Reasm) => decide (max s.mtb u < c.at_ + 60 * secCyc))).filter (fun (c : Reasm) => !(c.node == v && c.tag == tag)) } }) ∧
    (∀ (v tag n off u : Nat) (d : List Byte) (b : List Byte) (c : Reasm), (s.rySends = true ∧ s.known v = true) → (s.ry.reasm.filter (fun (c : Reasm) => decide (max s.mtb u < c.at_ + 60 * secCyc))).find? (fun (c : Reasm) => c.node == v && c.tag == tag) = some c → c.frags.any (fun f => clash f (off, d)) = false → assemble c.size (c.frags ++ [(off, d)]) = some b → Completes (.upstreamFragmentRx v tag n off d u) s fun t =>
      t = State.upstreamOut { s.advance u with ry := { s.ry with reasm := (s.ry.reasm.filter (fun (c : Reasm) => decide (max s.mtb u < c.at_ + 60 * secCyc))).filter (fun (c : Reasm) => !(c.node == v && c.tag == tag)) } } b) ∧
    (∀ (v tag n off u : Nat) (d : List Byte) (c : Reasm), (s.rySends = true ∧ s.known v = true) → (s.ry.reasm.filter (fun (c : Reasm) => decide (max s.mtb u < c.at_ + 60 * secCyc))).find? (fun (c : Reasm) => c.node == v && c.tag == tag) = some c → c.frags.any (fun f => clash f (off, d)) = false → assemble c.size (c.frags ++ [(off, d)]) = none → Completes (.upstreamFragmentRx v tag n off d u) s fun t =>
      (t = { s.advance u with ry := { s.ry with reasm := (s.ry.reasm.filter (fun (c : Reasm) => decide (max s.mtb u < c.at_ + 60 * secCyc))).map (fun (x : Reasm) => if x.node == v && x.tag == tag then { c with frags := c.frags ++ [(off, d)] } else x) } })) ∧
    (∀ (u : Nat), Completes (.reassemblyExpiry u) s fun t =>
      t = { s.advance u with ry := { s.ry with reasm := (s.ry.reasm.filter (fun (c : Reasm) => decide (max s.mtb u < c.at_ + 60 * secCyc))) } }) ∧
    (∀ (v u : Nat) (iid rovr : BitVec 64) (life : Fin 65536), (¬ (s.rySends = true ∧ s.isSet R.GROUND_STATE_HASH_READY = true)) → Completes (.addressRegistrationRx v iid rovr life u) s fun t =>
      t = s.advance u) ∧
    (∀ (v u : Nat) (iid rovr : BitVec 64) (life : Fin 65536), (s.rySends = true ∧ s.isSet R.GROUND_STATE_HASH_READY = true) → Completes (.addressRegistrationRx v iid rovr life u) s fun t =>
      t.out.head? = some (.ryurix (.registered false v ((s.advance u).register v iid.toNat rovr.toNat life).2)) ∧
      t = ((s.advance u).register v iid.toNat rovr.toNat life).1.say (.registered false v ((s.advance u).register v iid.toNat rovr.toNat life).2) ∧
      (s.known v = false → t.out.head? = some (.ryurix (.registered false v 1)) ∧ t.mem = s.mem) ∧
      (s.known v = true → ¬ (shortIid iid.toNat = false ∧ iid.toNat ≠ s.recEui v ^^^ 0x0200000000000000) → t.out.head? = some (.ryurix (.registered false v 0)) ∧ t.mem = s.mem)) ∧
    (∀ (v u : Nat) (iid rovr : BitVec 64) (life : Fin 65536), (s.rySends = true ∧ s.isSet R.GROUND_STATE_HASH_READY = true) → s.known v = true → (shortIid iid.toNat = false ∧ iid.toNat ≠ s.recEui v ^^^ 0x0200000000000000) → Completes (.addressRegistrationRx v iid rovr life u) s fun t =>
      (life.val = 0 → t.out.head? = some (.ryurix (.registered false v 0)) ∧ (bitOf (s.recGet v 13 1) 2 = true ∧ beNat (s.readBytes (s.recAddr v 64) 8) = iid.toNat → bitOf (t.recGet v 13 1) 2 = false)) ∧
      (life.val ≠ 0 → bitOf (s.recGet v 13 1) 2 = true → beNat (s.readBytes (s.recAddr v 64) 8) = iid.toNat → t.out.head? = some (.ryurix (.registered false v 0)) ∧ t.recGet v 200 8 = (max s.mtb u + life.val * 60 * secCyc) % 2 ^ 64 ∧ t.recGet v 208 8 = rovr.toNat ∧ bitOf (t.recGet v 13 1) 2 = true ∧ beNat (t.readBytes (t.recAddr v 64) 8) = iid.toNat) ∧
      (life.val ≠ 0 → bitOf (s.recGet v 13 1) 2 = true → ¬ (beNat (s.readBytes (s.recAddr v 64) 8) = iid.toNat) → t.out.head? = some (.ryurix (.registered false v 2)) ∧ t.mem = s.mem) ∧
      (life.val ≠ 0 → ¬ (bitOf (s.recGet v 13 1) 2 = true) → s.hashLookup iid.toNat 1 ≠ nodeNone → s.hashLookup iid.toNat 1 ≠ v → s.recGet (s.hashLookup iid.toNat 1) 208 8 ≠ rovr.toNat → t.out.head? = some (.ryurix (.registered false v 1)) ∧ t.mem = s.mem) ∧
      (life.val ≠ 0 → ¬ (bitOf (s.recGet v 13 1) 2 = true) → s.hashLookup iid.toNat 1 = nodeNone ∨ s.hashLookup iid.toNat 1 = v → (t.out.head? = some (.ryurix (.registered false v 0)) ∧ t.recGet v 200 8 = (max s.mtb u + life.val * 60 * secCyc) % 2 ^ 64 ∧ t.recGet v 208 8 = rovr.toNat ∧ bitOf (t.recGet v 13 1) 2 = true ∧ beNat (t.readBytes (t.recAddr v 64) 8) = iid.toNat) ∨ (t.out.head? = some (.ryurix (.registered false v 2)) ∧ (0x201C0000, 3, max s.mtb u) ∈ t.notes))) ∧
    (∀ (v u : Nat) (iid rovr : BitVec 64) (life : Fin 65536), (¬ (s.rySends = true ∧ s.isSet R.GROUND_STATE_HASH_READY = true)) → Completes (.edarRx v iid rovr life u) s fun t =>
      t = s.advance u) ∧
    (∀ (v u : Nat) (iid rovr : BitVec 64) (life : Fin 65536), (s.rySends = true ∧ s.isSet R.GROUND_STATE_HASH_READY = true) → Completes (.edarRx v iid rovr life u) s fun t =>
      t.out.head? = some (.ryurix (.registered true v ((s.advance u).register v iid.toNat rovr.toNat life).2)) ∧
      t = ((s.advance u).register v iid.toNat rovr.toNat life).1.say (.registered true v ((s.advance u).register v iid.toNat rovr.toNat life).2) ∧
      (s.known v = false → t.out.head? = some (.ryurix (.registered true v 1)) ∧ t.mem = s.mem) ∧
      (s.known v = true → ¬ (shortIid iid.toNat = false ∧ iid.toNat ≠ s.recEui v ^^^ 0x0200000000000000) → t.out.head? = some (.ryurix (.registered true v 0)) ∧ t.mem = s.mem)) ∧
    (∀ (v u : Nat) (iid rovr : BitVec 64) (life : Fin 65536), (s.rySends = true ∧ s.isSet R.GROUND_STATE_HASH_READY = true) → s.known v = true → (shortIid iid.toNat = false ∧ iid.toNat ≠ s.recEui v ^^^ 0x0200000000000000) → Completes (.edarRx v iid rovr life u) s fun t =>
      (life.val = 0 → t.out.head? = some (.ryurix (.registered true v 0)) ∧ (bitOf (s.recGet v 13 1) 2 = true ∧ beNat (s.readBytes (s.recAddr v 64) 8) = iid.toNat → bitOf (t.recGet v 13 1) 2 = false)) ∧
      (life.val ≠ 0 → bitOf (s.recGet v 13 1) 2 = true → beNat (s.readBytes (s.recAddr v 64) 8) = iid.toNat → t.out.head? = some (.ryurix (.registered true v 0)) ∧ t.recGet v 200 8 = (max s.mtb u + life.val * 60 * secCyc) % 2 ^ 64 ∧ t.recGet v 208 8 = rovr.toNat ∧ bitOf (t.recGet v 13 1) 2 = true ∧ beNat (t.readBytes (t.recAddr v 64) 8) = iid.toNat) ∧
      (life.val ≠ 0 → bitOf (s.recGet v 13 1) 2 = true → ¬ (beNat (s.readBytes (s.recAddr v 64) 8) = iid.toNat) → t.out.head? = some (.ryurix (.registered true v 2)) ∧ t.mem = s.mem) ∧
      (life.val ≠ 0 → ¬ (bitOf (s.recGet v 13 1) 2 = true) → s.hashLookup iid.toNat 1 ≠ nodeNone → s.hashLookup iid.toNat 1 ≠ v → s.recGet (s.hashLookup iid.toNat 1) 208 8 ≠ rovr.toNat → t.out.head? = some (.ryurix (.registered true v 1)) ∧ t.mem = s.mem) ∧
      (life.val ≠ 0 → ¬ (bitOf (s.recGet v 13 1) 2 = true) → s.hashLookup iid.toNat 1 = nodeNone ∨ s.hashLookup iid.toNat 1 = v → (t.out.head? = some (.ryurix (.registered true v 0)) ∧ t.recGet v 200 8 = (max s.mtb u + life.val * 60 * secCyc) % 2 ^ 64 ∧ t.recGet v 208 8 = rovr.toNat ∧ bitOf (t.recGet v 13 1) 2 = true ∧ beNat (t.readBytes (t.recAddr v 64) 8) = iid.toNat) ∨ (t.out.head? = some (.ryurix (.registered true v 2)) ∧ (0x201C0000, 3, max s.mtb u) ∈ t.notes))) ∧
    (∀ (v u : Nat), (s.rySends = true ∧ s.known v = true ∧ s.recGet v 200 8 ≤ max s.mtb u) → Completes (.registrationExpiry v u) s fun t =>
      bitOf (t.recGet v 13 1) 2 = false ∧
      t.mtb = max s.mtb u) ∧
    (∀ (v u : Nat), (¬ (s.rySends = true ∧ s.known v = true ∧ s.recGet v 200 8 ≤ max s.mtb u)) → Completes (.registrationExpiry v u) s fun t =>
      t = s.advance u) ∧
    (∀ (p : Fin 16) (h u : Nat), ((s.root p).dioAt.any (fun (a : Nat) => decide (a ≤ max s.mtb u)) = true ∧ s.rySends = true ∧ (s.panPrefix p).isSome = true ∧ s.isSet R.GROUND_STATE_HASH_READY = true) → Completes (.dioTrickleExpiry p h u) s fun t =>
      ((s.trickle p).2.2 = 0 ∨ h < (s.trickle p).2.2 → t.out = .ryurix (.dio p (s.root p).version (s.minHop p) (s.rplInstance p) 0x88 (s.panAddress p) [(s.trickle p).1, (s.trickle p).2.1, (s.trickle p).2.2, s.ocp p]) :: s.out) ∧
      ((s.trickle p).2.2 ≠ 0 ∧ (s.trickle p).2.2 ≤ h → t.out = s.out) ∧
      (t.root p).doubled = min (s.trickle p).2.1 ((s.root p).doubled + 1) ∧ (t.root p).version = (s.root p).version ∧
      (t.root p).ends = (s.root p).ends + msToCyc (2 ^ ((s.trickle p).1 + min (s.trickle p).2.1 ((s.root p).doubled + 1))) ∧
      (∃ a, (t.root p).dioAt = some a ∧ (s.root p).ends + ((t.root p).ends - (s.root p).ends) / 2 ≤ a ∧ a ≤ (t.root p).ends)) ∧
    (∀ (p : Fin 16) (h u : Nat), (¬ ((s.root p).dioAt.any (fun (a : Nat) => decide (a ≤ max s.mtb u)) = true ∧ s.rySends = true ∧ (s.panPrefix p).isSome = true ∧ s.isSet R.GROUND_STATE_HASH_READY = true)) → Completes (.dioTrickleExpiry p h u) s fun t =>
      t = s.advance u) ∧
    (∀ (q p u : Nat) (tg : BitVec 64) (l : List Transit) (ver : Fin 256) (ack : Bool) (x : Transit), (s.rySends = true ∧ s.known q = true) → (bestTransit l = some x ∧ x.life ≠ 0) → (s.known (s.groundLookup 1 p tg.toNat) = true ∧ s.nodePan (s.groundLookup 1 p tg.toNat) = p ∧ (s.ownIid p x.parent = true ∨ s.known (if s.ownIid p x.parent then nodeNone else s.groundLookup 1 p x.parent) = true ∧ s.nodePan (if s.ownIid p x.parent then nodeNone else s.groundLookup 1 p x.parent) = p)) → Completes (.daoRx q p tg l ver ack u) s fun t =>
      (t.parent (s.groundLookup 1 p tg.toNat) = (if s.ownIid p x.parent then nodeNone else s.groundLookup 1 p x.parent) ∧ t.rank (s.groundLookup 1 p tg.toNat) ≠ 0xFFFF ∧ t.recGet (s.groundLookup 1 p tg.toNat) 86 1 = ver.val) ∧
      t.recGet (s.groundLookup 1 p tg.toNat) 192 8 = (max s.mtb u + x.life * secCyc) % 2 ^ 64 ∧
      (s.parent (s.groundLookup 1 p tg.toNat) ≠ (if s.ownIid p x.parent then nodeNone else s.groundLookup 1 p x.parent) → s.rank (s.groundLookup 1 p tg.toNat) ≠ 0xFFFF → t.recGet (s.groundLookup 1 p tg.toNat) 92 2 = 0) ∧
      (ack = true → t.out.head? = some (.ryurix (.daoAck q 0)))) ∧
    (∀ (q p u : Nat) (tg : BitVec 64) (l : List Transit) (ver : Fin 256) (ack : Bool) (x : Transit), (s.rySends = true ∧ s.known q = true) → (bestTransit l = some x ∧ x.life = 0) → (s.known (s.groundLookup 1 p tg.toNat) = true ∧ s.nodePan (s.groundLookup 1 p tg.toNat) = p ∧ (s.ownIid p x.parent = true ∨ s.known (if s.ownIid p x.parent then nodeNone else s.groundLookup 1 p x.parent) = true ∧ s.nodePan (if s.ownIid p x.parent then nodeNone else s.groundLookup 1 p x.parent) = p)) → Completes (.daoRx q p tg l ver ack u) s fun t =>
      t.parent (s.groundLookup 1 p tg.toNat) = nodeNone ∧ t.rank (s.groundLookup 1 p tg.toNat) = 0xFFFF ∧ t.recGet (s.groundLookup 1 p tg.toNat) 92 2 = 0 ∧
      (ack = true → t.out.head? = some (.ryurix (.daoAck q 0)))) ∧
    (∀ (q p u : Nat) (tg : BitVec 64) (l : List Transit) (ver : Fin 256) (ack : Bool), (s.rySends = true ∧ s.known q = true) → ((bestTransit l).all (fun (x : Transit) => !decide (s.known (s.groundLookup 1 p tg.toNat) = true ∧ s.nodePan (s.groundLookup 1 p tg.toNat) = p ∧ (s.ownIid p x.parent = true ∨ s.known (if s.ownIid p x.parent then nodeNone else s.groundLookup 1 p x.parent) = true ∧ s.nodePan (if s.ownIid p x.parent then nodeNone else s.groundLookup 1 p x.parent) = p))) = true) → Completes (.daoRx q p tg l ver ack u) s fun t =>
      (t = (if ack then (s.advance u).say (.daoAck q 129) else s.advance u))) ∧
    (∀ (q p u : Nat) (tg : BitVec 64) (l : List Transit) (ver : Fin 256) (ack : Bool), (¬ (s.rySends = true ∧ s.known q = true)) → Completes (.daoRx q p tg l ver ack u) s fun t =>
      t = s.advance u) ∧
    (∀ (v u : Nat), (s.rySends = true ∧ s.known v = true ∧ s.rank v ≠ 0xFFFF ∧ s.recGet v 192 8 ≤ max s.mtb u) → Completes (.pathLifetimeExpiry v u) s fun t =>
      t.parent v = nodeNone ∧ t.rank v = 0xFFFF ∧ t.recGet v 92 2 = 0 ∧
      t.mtb = max s.mtb u) ∧
    (∀ (v u : Nat), (¬ (s.rySends = true ∧ s.known v = true ∧ s.rank v ≠ 0xFFFF ∧ s.recGet v 192 8 ≤ max s.mtb u)) → Completes (.pathLifetimeExpiry v u) s fun t =>
      t = s.advance u)

/-- A demand of a node of a TSCH PAN is answered 2.04 and waits while an end of its link has an assignment not acknowledged,
else the link is assigned: at most the cells asked for, a shortage counted and reported. An acknowledgement clears the node's
mark and each waiting change whose link is free is assigned. A 6P request gets code 5 for another SFID, 8 for a 513th
transaction, else a transaction of 30 s and 0 where its list is the node's, 7 where not; old transactions go. A join request
that was answered within 247 s gets the same answer; one beyond the rate 5.03, a listed-only miss 4.03, without PSK or OSCORE
4.01, without a DRBG 5.03 with KEY_ENTROPY_FAIL, without a free index 5.03 and event 2, with a full hash 5.03 and event 3;
else the pledge gets a record, valid, its index kept where it has one in the PAN, its key in the hash, and its keys. A rekey
takes acknowledgements and ends with the last of them or at its deadline: the new slot becomes current, event 6, the call's
result. Elsewhere only time moves on. Where the spec leaves a detail open it rests on the model's choices of log entries 31,
36 and 37. -/
def Obligations.SchedulesAndJoins : Prop :=
  ∀ s : State, s.Inv → 
    (∀ (v u : Nat) (k : Fin 16), (¬ (s.rySends = true ∧ s.known v = true ∧ s.tsch (s.nodePan v) = true)) → Completes (.scDemandRx v k u) s fun t =>
      t = s.advance u) ∧
    (∀ (v u : Nat) (k : Fin 16), (s.rySends = true ∧ s.known v = true ∧ s.tsch (s.nodePan v) = true) → s.linkBusy v = true → Completes (.scDemandRx v k u) s fun t =>
      t = State.say { s.advance u with ry := { s.ry with waiting := s.ry.waiting.filter (fun (w : Nat × Nat) => w.1 != v) ++ [(v, k.val)] } } (.coap v 68 [])) ∧
    (∀ (v u : Nat) (k : Fin 16), (s.rySends = true ∧ s.known v = true ∧ s.tsch (s.nodePan v) = true) → s.linkBusy v = false → Completes (.scDemandRx v k u) s fun t =>
      t = ((s.advance u).say (.coap v 68 [])).assignLink v k ∧
      ((s.parentOf v).isNone = true → t.ry = s.ry)) ∧
    (∀ (v u : Nat) (k : Fin 16) (b : Nat), (s.rySends = true ∧ s.known v = true ∧ s.tsch (s.nodePan v) = true) → (s.linkBusy v = false ∧ s.parentOf v = some b ∧ v ≠ b) → Completes (.scDemandRx v k u) s fun t =>
      (t.ry.cells.filter (fun (c : SchedCell) => c.src == v && c.dst == b)).length ≤ k ∧
      (t.ry.short = (if (t.ry.cells.filter (fun (c : SchedCell) => c.src == v && c.dst == b)).length < k.val then s.ry.short + 1 else s.ry.short)) ∧
      ((t.ry.cells.filter (fun (c : SchedCell) => c.src == v && c.dst == b)).length < k.val → (0x201C0000, 4, max s.mtb u) ∈ t.notes) ∧
      (t.ry.cells.filter (fun (c : SchedCell) => c.src == v && c.dst == b)).take k = (s.ry.cells.filter (fun (c : SchedCell) => c.src == v && c.dst == b)).take k ++ (t.ry.cells.filter (fun (c : SchedCell) => c.src == v && c.dst == b)).drop (min k ((s.ry.cells.filter (fun (c : SchedCell) => c.src == v && c.dst == b)).length)) ∧
      (t.ry.cells ≠ s.ry.cells → v ∈ t.ry.unacked)) ∧
    (∀ (v u : Nat), (s.rySends = true ∧ v ∈ s.ry.unacked) → Completes (.scAssignmentAck v u) s fun t =>
      (t = State.each { s.advance u with ry := { s.ry with unacked := without v s.ry.unacked } } s.ry.waiting (fun (y : State) (w : Nat × Nat) => if y.linkBusy w.1 then y else State.assignLink { y with ry := { y.ry with waiting := y.ry.waiting.filter (fun (x : Nat × Nat) => x.1 != w.1) } } w.1 w.2)) ∧
      (s.ry.waiting = [] → t = { s.advance u with ry := { s.ry with unacked := without v s.ry.unacked } })) ∧
    (∀ (v u : Nat), (s.rySends = false ∨ v ∉ s.ry.unacked) → Completes (.scAssignmentAck v u) s fun t =>
      t = s.advance u) ∧
    (∀ (v u : Nat) (f : Fin 256) (l : List (Nat × Nat)), (s.rySends = true ∧ s.known v = true) → (f.val ≠ 0xF3 ∨ 512 ≤ (s.ry.sixp.filter (fun (x : Nat × Nat) => x.1 != v && decide (max s.mtb u < x.2 + 30 * secCyc))).length) → Completes (.sixpRequestRx v f l u) s fun t =>
      (t = (s.advance u).say (.sixp v (if f.val ≠ 0xF3 then 5 else 8)))) ∧
    (∀ (v u : Nat) (f : Fin 256) (l : List (Nat × Nat)), (s.rySends = true ∧ s.known v = true) → (f.val = 0xF3 ∧ (s.ry.sixp.filter (fun (x : Nat × Nat) => x.1 != v && decide (max s.mtb u < x.2 + 30 * secCyc))).length < 512) → Completes (.sixpRequestRx v f l u) s fun t =>
      (t = State.say { s.advance u with ry := { s.ry with sixp := (s.ry.sixp.filter (fun (x : Nat × Nat) => x.1 != v && decide (max s.mtb u < x.2 + 30 * secCyc))) ++ [(v, max s.mtb u)] } } (.sixp v (if (∀ x ∈ l, x ∈ ((s.ry.cells.filter (fun (c : SchedCell) => c.src == v && c.dst == nodeNone)).map (fun (c : SchedCell) => (c.slot, c.choff)))) ∧ (∀ x ∈ ((s.ry.cells.filter (fun (c : SchedCell) => c.src == v && c.dst == nodeNone)).map (fun (c : SchedCell) => (c.slot, c.choff))), x ∈ l) then 0 else 7)))) ∧
    (∀ (v u : Nat) (f : Fin 256) (l : List (Nat × Nat)), (¬ (s.rySends = true ∧ s.known v = true)) → Completes (.sixpRequestRx v f l u) s fun t =>
      t = s.advance u) ∧
    (∀ (u : Nat), Completes (.sixpTimeout u) s fun t =>
      t = { s.advance u with ry := { s.ry with sixp := s.ry.sixp.filter (fun (x : Nat × Nat) => decide (max s.mtb u < x.2 + 30 * secCyc)) } }) ∧
    (∀ (p : Fin 16) (e g : BitVec 64) (m : Fin 65536) (oscore : Bool) (w : Fin 512) (u : Nat), (¬ (s.rySends = true ∧ (s.panPrefix p).isSome = true ∧ (s.panRec p).isSome = true ∧ s.isSet R.GROUND_STATE_HASH_READY = true)) → Completes (.joinRequestRx p e g m oscore w u) s fun t =>
      t = s.advance u) ∧
    (∀ (p : Fin 16) (e g : BitVec 64) (m : Fin 65536) (oscore : Bool) (w : Fin 512) (u : Nat) (a : Nat × Nat × Nat × Ctl), (s.rySends = true ∧ (s.panPrefix p).isSome = true ∧ (s.panRec p).isSome = true ∧ s.isSet R.GROUND_STATE_HASH_READY = true) → ((s.ry.answers.filter (fun a => decide (max s.mtb u < a.2.2.1))).find? (fun a => decide (a.1 = e.toNat ∧ a.2.1 = m.val)) = some a) → Completes (.joinRequestRx p e g m oscore w u) s fun t =>
      t = (s.advance u).say a.2.2.2) ∧
    (∀ (p : Fin 16) (e g : BitVec 64) (m : Fin 65536) (oscore : Bool) (w : Fin 512) (u : Nat) (c : Nat), (s.rySends = true ∧ (s.panPrefix p).isSome = true ∧ (s.panRec p).isSome = true ∧ s.isSet R.GROUND_STATE_HASH_READY = true) → ((s.ry.answers.filter (fun a => decide (max s.mtb u < a.2.2.1))).any (fun a => decide (a.1 = e.toNat ∧ a.2.1 = m.val)) = false) → ((if s.settingD (settingNo svcJoin 0 13 0) 50 ≤ (s.advance u).joinsNow p then some 163 else if s.settingD (settingNo svcJoin 0 11 0) 0 = 1 ∧ s.pledges.any (fun (x : Nat × List Nat) => decide (x.2.head? = some g.toNat)) = false then some 131 else if (s.pledgePsk g.toNat).isNone = true ∨ oscore = false then some 129 else none) = some c) → Completes (.joinRequestRx p e g m oscore w u) s fun t =>
      t = (s.advance u).joinRefuse p c ∧
      (t.out = .ryurix (.joinRefused p c (if c = 163 then 30 else 0)) :: s.out) ∧
      Store.get (fun _ => 0) t.ry.refused c = Store.get (fun _ => 0) s.ry.refused c + 1) ∧
    (∀ (p : Fin 16) (e g : BitVec 64) (m : Fin 65536) (oscore : Bool) (w : Fin 512) (u : Nat), (s.rySends = true ∧ (s.panPrefix p).isSome = true ∧ (s.panRec p).isSome = true ∧ s.isSet R.GROUND_STATE_HASH_READY = true) → ((s.ry.answers.filter (fun a => decide (max s.mtb u < a.2.2.1))).any (fun a => decide (a.1 = e.toNat ∧ a.2.1 = m.val)) = false) → ((if s.settingD (settingNo svcJoin 0 13 0) 50 ≤ (s.advance u).joinsNow p then some 163 else if s.settingD (settingNo svcJoin 0 11 0) 0 = 1 ∧ s.pledges.any (fun (x : Nat × List Nat) => decide (x.2.head? = some g.toNat)) = false then some 131 else if (s.pledgePsk g.toNat).isNone = true ∨ oscore = false then some 129 else none) = none) → s.drbgOk = false → Completes (.joinRequestRx p e g m oscore w u) s fun t =>
      t = (((s.advance u).setF R.KEY_CMD_ERR_STATUS ST.KEY_ENTROPY_FAIL).joinRefuse p 163)) ∧
    (∀ (p : Fin 16) (e g : BitVec 64) (m : Fin 65536) (oscore : Bool) (w : Fin 512) (u : Nat) (v k : Nat), (s.rySends = true ∧ (s.panPrefix p).isSome = true ∧ (s.panRec p).isSome = true ∧ s.isSet R.GROUND_STATE_HASH_READY = true) → ((s.ry.answers.filter (fun a => decide (max s.mtb u < a.2.2.1))).any (fun a => decide (a.1 = e.toNat ∧ a.2.1 = m.val)) = false) → ((if s.settingD (settingNo svcJoin 0 13 0) 50 ≤ (s.advance u).joinsNow p then some 163 else if s.settingD (settingNo svcJoin 0 11 0) 0 = 1 ∧ s.pledges.any (fun (x : Nat × List Nat) => decide (x.2.head? = some g.toNat)) = false then some 131 else if (s.pledgePsk g.toNat).isNone = true ∨ oscore = false then some 129 else none) = none) → s.drbgOk = true → (s.hashLookup e.toNat 0 = nodeNone ∧ s.hashHas s.liveTab s.gd.stash e.toNat 0 = none) → (s.freeIndex p = some v ∧ v < 2 ^ 18) → s.freeWay s.liveTab (bucketsOf s.gd.seed0 s.gd.seed1 e.toNat 0).1 = some k → (s.altActive = false ∧ s.recAddr v 256 ≤ s.getF R.GROUND_HASH_BASE_BASE) → Completes (.joinRequestRx p e g m oscore w u) s fun t =>
      t.recEui v = e.toNat ∧ bitOf (t.recGet v 13 1) 0 = true ∧ bitOf (t.recGet v 13 1) 1 = true ∧
      t.recGet v 12 1 = p.val ∧ t.recGet v 14 2 = w.val ∧ t.recGet v 40 4 = 0 ∧ t.recGet v 56 4 = v ∧
      t.ry.joins = s.ry.joins + 1 ∧ (t.root p).joinNow = (s.advance u).joinsNow p + 1 ∧
      (∃ key group ix addr, t.out.head? = some (.ryurix (.joined p v (v - s.panBase p) key group ix addr))) ∧
      t.ry.answers.dropLast = (s.ry.answers.filter (fun a => decide (max s.mtb u < a.2.2.1))) ∧ t.ry.answers.getLast?.map (fun a => (a.1, a.2.1, a.2.2.1)) = some (e.toNat, m.val, max s.mtb u + 247 * secCyc) ∧
      t.way s.liveTab (bucketsOf s.gd.seed0 s.gd.seed1 e.toNat 0).1 k = some ⟨e.toNat, 0, v⟩ ∧
      t.rank v = 0xFFFF ∧ t.parent v = nodeNone) ∧
    (∀ (p : Fin 16) (e g : BitVec 64) (m : Fin 65536) (oscore : Bool) (w : Fin 512) (u : Nat) (v : Nat), (s.rySends = true ∧ (s.panPrefix p).isSome = true ∧ (s.panRec p).isSome = true ∧ s.isSet R.GROUND_STATE_HASH_READY = true) → ((s.ry.answers.filter (fun a => decide (max s.mtb u < a.2.2.1))).any (fun a => decide (a.1 = e.toNat ∧ a.2.1 = m.val)) = false) → ((if s.settingD (settingNo svcJoin 0 13 0) 50 ≤ (s.advance u).joinsNow p then some 163 else if s.settingD (settingNo svcJoin 0 11 0) 0 = 1 ∧ s.pledges.any (fun (x : Nat × List Nat) => decide (x.2.head? = some g.toNat)) = false then some 131 else if (s.pledgePsk g.toNat).isNone = true ∨ oscore = false then some 129 else none) = none) → s.drbgOk = true → (s.hashLookup e.toNat 0 = v ∧ v ≠ nodeNone ∧ (s.panNodes p).contains v = true) → (s.hashHas s.liveTab s.gd.stash e.toNat 0).isSome = true → (s.altActive = false ∧ s.recAddr v 256 ≤ s.getF R.GROUND_HASH_BASE_BASE) → Completes (.joinRequestRx p e g m oscore w u) s fun t =>
      t.recEui v = e.toNat ∧ bitOf (t.recGet v 13 1) 0 = true ∧ bitOf (t.recGet v 13 1) 1 = true ∧
      t.recGet v 12 1 = p.val ∧ t.recGet v 14 2 = w.val ∧ t.recGet v 40 4 = 0 ∧ t.recGet v 56 4 = v ∧
      t.ry.joins = s.ry.joins + 1 ∧ (t.root p).joinNow = (s.advance u).joinsNow p + 1 ∧
      (∃ key group ix addr, t.out.head? = some (.ryurix (.joined p v (v - s.panBase p) key group ix addr))) ∧
      t.ry.answers.dropLast = (s.ry.answers.filter (fun a => decide (max s.mtb u < a.2.2.1))) ∧ t.ry.answers.getLast?.map (fun a => (a.1, a.2.1, a.2.2.1)) = some (e.toNat, m.val, max s.mtb u + 247 * secCyc) ∧
      t.gd.entries = s.gd.entries ∧
      t.rank v = s.rank v ∧ t.parent v = s.parent v) ∧
    (∀ (p : Fin 16) (e g : BitVec 64) (m : Fin 65536) (oscore : Bool) (w : Fin 512) (u : Nat) (v k : Nat) (y : State), (s.rySends = true ∧ (s.panPrefix p).isSome = true ∧ (s.panRec p).isSome = true ∧ s.isSet R.GROUND_STATE_HASH_READY = true) → ((s.ry.answers.filter (fun a => decide (max s.mtb u < a.2.2.1))).any (fun a => decide (a.1 = e.toNat ∧ a.2.1 = m.val)) = false) → ((if s.settingD (settingNo svcJoin 0 13 0) 50 ≤ (s.advance u).joinsNow p then some 163 else if s.settingD (settingNo svcJoin 0 11 0) 0 = 1 ∧ s.pledges.any (fun (x : Nat × List Nat) => decide (x.2.head? = some g.toNat)) = false then some 131 else if (s.pledgePsk g.toNat).isNone = true ∨ oscore = false then some 129 else none) = none) → s.drbgOk = true → (s.hashLookup e.toNat 0 ≠ nodeNone ∧ (s.panNodes p).contains (s.hashLookup e.toNat 0) = false) → ((s.advance u).setRoot p { s.root p with joinSec := max s.mtb u / secCyc, joinNow := (s.advance u).joinsNow p + 1 }).removeNode (s.hashLookup e.toNat 0) = y → (y.freeIndex p = some v ∧ v < 2 ^ 18) → (y.hashHas y.liveTab y.gd.stash e.toNat 0 = none ∧ y.freeWay y.liveTab (bucketsOf s.gd.seed0 s.gd.seed1 e.toNat 0).1 = some k) → (y.altActive = false ∧ y.recAddr v 256 ≤ y.getF R.GROUND_HASH_BASE_BASE) → Completes (.joinRequestRx p e g m oscore w u) s fun t =>
      t.recEui v = e.toNat ∧ bitOf (t.recGet v 13 1) 0 = true ∧ bitOf (t.recGet v 13 1) 1 = true ∧
      t.recGet v 12 1 = p.val ∧ t.recGet v 14 2 = w.val ∧ t.recGet v 40 4 = 0 ∧ t.recGet v 56 4 = v ∧
      t.ry.joins = s.ry.joins + 1 ∧ (t.root p).joinNow = (s.advance u).joinsNow p + 1 ∧
      (∃ key group ix addr, t.out.head? = some (.ryurix (.joined p v (v - s.panBase p) key group ix addr))) ∧
      t.ry.answers.dropLast = (s.ry.answers.filter (fun a => decide (max s.mtb u < a.2.2.1))) ∧ t.ry.answers.getLast?.map (fun a => (a.1, a.2.1, a.2.2.1)) = some (e.toNat, m.val, max s.mtb u + 247 * secCyc) ∧
      t.rank v = 0xFFFF ∧ t.parent v = nodeNone) ∧
    (∀ (p : Fin 16) (e g : BitVec 64) (m : Fin 65536) (oscore : Bool) (w : Fin 512) (u : Nat), (s.rySends = true ∧ (s.panPrefix p).isSome = true ∧ (s.panRec p).isSome = true ∧ s.isSet R.GROUND_STATE_HASH_READY = true) → ((s.ry.answers.filter (fun a => decide (max s.mtb u < a.2.2.1))).any (fun a => decide (a.1 = e.toNat ∧ a.2.1 = m.val)) = false) → ((if s.settingD (settingNo svcJoin 0 13 0) 50 ≤ (s.advance u).joinsNow p then some 163 else if s.settingD (settingNo svcJoin 0 11 0) 0 = 1 ∧ s.pledges.any (fun (x : Nat × List Nat) => decide (x.2.head? = some g.toNat)) = false then some 131 else if (s.pledgePsk g.toNat).isNone = true ∨ oscore = false then some 129 else none) = none) → s.drbgOk = true → s.hashLookup e.toNat 0 = nodeNone → s.freeIndex p = none → Completes (.joinRequestRx p e g m oscore w u) s fun t =>
      t.out.head? = some (.ryurix (.joinRefused p 163 30)) ∧
      (0x201C0000, 2, max s.mtb u) ∈ t.notes ∧
      t.mem = s.mem ∧ t.gd = s.gd ∧ t.ry.joins = s.ry.joins) ∧
    (∀ (p : Fin 16) (e g : BitVec 64) (m : Fin 65536) (oscore : Bool) (w : Fin 512) (u : Nat) (v : Nat), (s.rySends = true ∧ (s.panPrefix p).isSome = true ∧ (s.panRec p).isSome = true ∧ s.isSet R.GROUND_STATE_HASH_READY = true) → ((s.ry.answers.filter (fun a => decide (max s.mtb u < a.2.2.1))).any (fun a => decide (a.1 = e.toNat ∧ a.2.1 = m.val)) = false) → ((if s.settingD (settingNo svcJoin 0 13 0) 50 ≤ (s.advance u).joinsNow p then some 163 else if s.settingD (settingNo svcJoin 0 11 0) 0 = 1 ∧ s.pledges.any (fun (x : Nat × List Nat) => decide (x.2.head? = some g.toNat)) = false then some 131 else if (s.pledgePsk g.toNat).isNone = true ∨ oscore = false then some 129 else none) = none) → s.drbgOk = true → (s.hashLookup e.toNat 0 = nodeNone ∧ s.hashHas s.liveTab s.gd.stash e.toNat 0 = none) → (s.freeIndex p = some v ∧ v < 2 ^ 18) → s.hashPlan s.liveTab (decide (s.gd.stash.length < 64)) ⟨e.toNat, 0, v⟩ = none → (s.altActive = false ∧ s.recAddr v 256 ≤ s.getF R.GROUND_HASH_BASE_BASE) → Completes (.joinRequestRx p e g m oscore w u) s fun t =>
      t.out.head? = some (.ryurix (.joinRefused p 163 30)) ∧
      (0x201C0000, 3, max s.mtb u) ∈ t.notes ∧
      t.recGet v 13 1 = 0 ∧
      t.gd.entries = s.gd.entries ∧ t.ry.joins = s.ry.joins) ∧
    (∀ (p : Fin 16) (v u : Nat) (r : Rekey), Store.find? p.val s.ry.rekeys = some r → without v r.nodes = [] → Completes (.rekeyAckRx p v u) s fun t =>
      Store.find? p.val t.ry.rekeys = none ∧ t.getF (R.MAC_PAN_KEY_SLOT.bank p) = r.slot % 2 ^ R.MAC_PAN_KEY_SLOT.width ∧ t.isSet (R.MAC_PAN_KEY_VALID.bank p) = true ∧
      (0x201C0000, 6, max s.mtb u) ∈ t.notes ∧
      ((Store.find? r.ticket s.cmp.tickets).isSome = true → (Store.find? r.ticket t.cmp.tickets).map (fun (k : Ticket) => (k.ready, k.status, k.result)) = some (true, ST.OK, [(20, [])]))) ∧
    (∀ (p : Fin 16) (v u : Nat) (r : Rekey), Store.find? p.val s.ry.rekeys = some r → without v r.nodes ≠ [] → Completes (.rekeyAckRx p v u) s fun t =>
      t = { s.advance u with ry := { s.ry with rekeys := Store.put p.val { r with nodes := without v r.nodes } s.ry.rekeys } }) ∧
    (∀ (p : Fin 16) (v u : Nat), Store.find? p.val s.ry.rekeys = none → Completes (.rekeyAckRx p v u) s fun t =>
      t = s.advance u) ∧
    (∀ (p : Fin 16) (u : Nat) (r : Rekey), Store.find? p.val s.ry.rekeys = some r → r.deadline ≤ max s.mtb u → Completes (.rekeyDeadline p u) s fun t =>
      Store.find? p.val t.ry.rekeys = none ∧ t.getF (R.MAC_PAN_KEY_SLOT.bank p) = r.slot % 2 ^ R.MAC_PAN_KEY_SLOT.width ∧ t.isSet (R.MAC_PAN_KEY_VALID.bank p) = true ∧
      (0x201C0000, 6, max s.mtb u) ∈ t.notes ∧
      ((Store.find? r.ticket s.cmp.tickets).isSome = true → (Store.find? r.ticket t.cmp.tickets).map (fun (k : Ticket) => (k.ready, k.status, k.result)) = some (true, ST.OK, [(20, r.nodes)]))) ∧
    (∀ (p : Fin 16) (u : Nat), (Store.find? p.val s.ry.rekeys).all (fun (r : Rekey) => decide (max s.mtb u < r.deadline)) = true → Completes (.rekeyDeadline p u) s fun t =>
      t = s.advance u)

/-- An interval of a campaign, once the last one is over and the duty account lets it, sends the next header or block of the
pass and, after the last, opens the report window. The window's end starts a repair round of the missing blocks, with the
targets that have come since, or, without reports or after ROUNDS, sends the activation unless held and dates the end 24 h
after it. Reports in the window are taken with their missing blocks; header and blocks of the image are served; a completion
after the activation writes FW_VERSION and is noted; each is answered 2.04, 2.05, or 4.04 where no campaign of that number
runs. At its end a campaign stays as a result only and is reported. Elsewhere only time moves on. Where the spec leaves a
detail open it rests on the model's choices of log entries 31, 36 and 37. -/
def Obligations.FirmwareCampaigns : Prop :=
  ∀ s : State, s.Inv → 
    (∀ (c : Fin 4) (held : Bool) (u : Nat) (v : Campaign) (m : Option Nat) (l : List (Option Nat)), s.campaign c = some v → v.queue = m :: l → (v.phase = 0 ∧ held = false ∧ v.last ≤ max s.mtb u ∧ s.rySends = true) → Completes (.campaignInterval c held u) s fun t =>
      (t.out = .ryurix (match m with | none => .fwHeader c (s.fwHeader v) | some b => .fwBlock c b (s.fwBlock v v.szx b)) :: s.out) ∧
      ((t.campaign c).map (fun (x : Campaign) => (x.queue, x.last, x.phase)) = some (l, max s.mtb u + msToCyc v.blockMs, if l = [] then 1 else 0)) ∧
      (l = [] → (t.campaign c).map (fun (x : Campaign) => (x.windowEnd, x.reported, x.missing)) = some (max s.mtb u + msToCyc v.blockMs + v.reportS * secCyc, false, [])) ∧
      t.regs = s.regs ∧ t.mem = s.mem) ∧
    (∀ (c : Fin 4) (held : Bool) (u : Nat), ((s.campaign c).all (fun (v : Campaign) => v.queue.isEmpty || !decide (v.phase = 0 ∧ held = false ∧ v.last ≤ max s.mtb u ∧ s.rySends = true)) = true) → Completes (.campaignInterval c held u) s fun t =>
      t = s.advance u) ∧
    (∀ (c : Fin 4) (held : Bool) (u : Nat) (v : Campaign), s.campaign c = some v → (v.phase = 1 ∧ v.windowEnd ≤ max s.mtb u ∧ s.rySends = true) → (v.reported = false ∨ v.rounds ≤ v.round) → held = false → Completes (.reportWindowEnd c held u) s fun t =>
      t.out = .ryurix (.fwActivate c (s.asn (v.windowEnd + v.delayS * secCyc))) :: s.out ∧
      t.campaign c = some { v with phase := 2, endAt := some (v.windowEnd + v.delayS * secCyc + 86400 * secCyc) }) ∧
    (∀ (c : Fin 4) (held : Bool) (u : Nat) (v : Campaign), s.campaign c = some v → (v.phase = 1 ∧ v.windowEnd ≤ max s.mtb u ∧ s.rySends = true) → (¬ (v.reported = false ∨ v.rounds ≤ v.round)) → Completes (.reportWindowEnd c held u) s fun t =>
      t.campaign c = some { v with phase := 0, round := v.round + 1, queue := none :: ((List.range (s.campaignBlocks v)).filter (fun b => v.missing.contains b)).map some, last := max s.mtb u, missing := [], targets := v.targets ++ (s.targets v.pan v.mask v.bound).filter (fun k => !v.targets.contains k && !v.done.contains k) } ∧
      t.out = s.out) ∧
    (∀ (c : Fin 4) (held : Bool) (u : Nat), ((s.campaign c).all (fun (v : Campaign) => !decide (v.phase = 1 ∧ v.windowEnd ≤ max s.mtb u ∧ s.rySends = true) || decide (v.reported = false ∨ v.rounds ≤ v.round) && held) = true) → Completes (.reportWindowEnd c held u) s fun t =>
      t = s.advance u) ∧
    (∀ (c : Fin 4) (n u : Nat) (b : List Byte), (¬ (s.rySends = true ∧ s.known n = true)) → Completes (.missingBlocksRx c n b u) s fun t =>
      t = s.advance u) ∧
    (∀ (c : Fin 4) (n u : Nat) (b : List Byte), (s.rySends = true ∧ s.known n = true) → s.campaign c = none → Completes (.missingBlocksRx c n b u) s fun t =>
      t = State.say (s.advance u) (.coap n 132 [])) ∧
    (∀ (c : Fin 4) (n u : Nat) (b : List Byte) (v : Campaign), (s.rySends = true ∧ s.known n = true) → s.campaign c = some v → Completes (.missingBlocksRx c n b u) s fun t =>
      t.out = .ryurix (.coap n 68 []) :: s.out ∧
      (v.phase ≠ 1 → t.ry = s.ry) ∧
      (v.phase = 1 → (t.campaign c).map (fun (x : Campaign) => x.reported) = some true ∧ (List.range (8 * b.length)).all (fun i => !bitOf (leNat b) i || (t.campaign c).any (fun (x : Campaign) => x.missing.contains i)) = true ∧ v.missing.all (fun i => (t.campaign c).any (fun (x : Campaign) => x.missing.contains i)) = true)) ∧
    (∀ (c : Fin 4) (n : Nat), (¬ (s.rySends = true ∧ s.known n = true)) → Completes (.fwHeaderGet c n) s fun t =>
      t = s) ∧
    (∀ (c : Fin 4) (n : Nat), (s.rySends = true ∧ s.known n = true) → s.campaign c = none → Completes (.fwHeaderGet c n) s fun t =>
      t = State.say (s) (.coap n 132 [])) ∧
    (∀ (c : Fin 4) (n : Nat) (v : Campaign) (i : Image), (s.rySends = true ∧ s.known n = true) → s.campaign c = some v → s.image v.image = some i → Completes (.fwHeaderGet c n) s fun t =>
      t = s.say (.coap n 69 (cborMap [(1, cborUint v.image), (2, cborUint i.len), (3, cborOctets (beBytes 32 i.digest)), (4, cborUint v.mask), (5, cborUint i.version), (6, cborUint v.bound), (7, cborUint v.szx)]))) ∧
    (∀ (c : Fin 4) (n k : Nat) (z : Fin 7), (¬ (s.rySends = true ∧ s.known n = true)) → Completes (.fwBlockGet c n k z) s fun t =>
      t = s) ∧
    (∀ (c : Fin 4) (n k : Nat) (z : Fin 7), (s.rySends = true ∧ s.known n = true) → s.campaign c = none → Completes (.fwBlockGet c n k z) s fun t =>
      t = State.say (s) (.coap n 132 [])) ∧
    (∀ (c : Fin 4) (n k : Nat) (z : Fin 7) (v : Campaign) (i : Image), (s.rySends = true ∧ s.known n = true) → s.campaign c = some v → s.image v.image = some i → Completes (.fwBlockGet c n k z) s fun t =>
      t = s.say (.coap n 69 ((List.range (min (2 ^ (z.val + 4)) (i.len - k * 2 ^ (z.val + 4)))).map (fun j => s.flashByte (i.addr (k * 2 ^ (z.val + 4) + j)))))) ∧
    (∀ (c : Fin 4) (n u : Nat) (w : BitVec 32), (¬ (s.rySends = true ∧ s.known n = true)) → Completes (.completionReportRx c n w u) s fun t =>
      t = s.advance u) ∧
    (∀ (c : Fin 4) (n u : Nat) (w : BitVec 32), (s.rySends = true ∧ s.known n = true) → s.campaign c = none → Completes (.completionReportRx c n w u) s fun t =>
      t = State.say (s.advance u) (.coap n 132 [])) ∧
    (∀ (c : Fin 4) (n u : Nat) (w : BitVec 32) (v : Campaign), (s.rySends = true ∧ s.known n = true) → (s.campaign c = some v ∧ v.phase = 2) → Completes (.completionReportRx c n w u) s fun t =>
      t.recGet n 104 4 = w.toNat ∧
      t.campaign c = some { v with done := withOne n v.done } ∧
      t.out.head? = some (.ryurix (.coap n 68 []))) ∧
    (∀ (c : Fin 4) (n u : Nat) (w : BitVec 32) (v : Campaign), (s.rySends = true ∧ s.known n = true) → (s.campaign c = some v ∧ v.phase ≠ 2) → Completes (.completionReportRx c n w u) s fun t =>
      t = (s.advance u).say (.coap n 68 [])) ∧
    (∀ (c : Fin 4) (u e : Nat) (v : Campaign), s.campaign c = some v → (v.endAt = some e ∧ e ≤ max s.mtb u) → Completes (.campaignEndExpiry c u) s fun t =>
      t.campaign c = none ∧
      Store.find? c.val t.ry.campaigns = some { v with phase := 3, queue := [], missing := [], endAt := none } ∧
      (0x201C0000, 5, max s.mtb u) ∈ t.notes) ∧
    (∀ (c : Fin 4) (u : Nat), (s.campaign c).all (fun (v : Campaign) => v.endAt.all (fun (e : Nat) => decide (max s.mtb u < e))) = true → Completes (.campaignEndExpiry c u) s fun t =>
      t = s.advance u)

/-- A reading operation whose call is the oldest open one of its service answers, in every pair role: net get each port's
link, addresses (the link-local one while the link is up, one of each live prefix), live routers, the delegation and the port
in use; pan get the prefix and its source, version, member count and RPL parameters; node get, by index or by EUI-64, chunks
0 to 2 and the learned path; node list, node route, sched get, sched stats, join stats, image list; campaign status, of an
ended campaign too; zone get and zone stats. A PAN without a record, a count outside 1 to 1,024, no node argument, an unknown
campaign and a zone from 16,384 answer ST_RYURIX_ARG, a node without a valid record UNKNOWN_NODE, a zone not configured
ZONE_UNSET. Nothing else changes; a call that is not the oldest open one changes nothing. Where the spec leaves a detail open
it rests on the model's choices of log entries 23, 31 and 35. -/
def Obligations.ServiceReads : Prop :=
  ∀ s : State, s.Inv → 
    (∀ (k : Nat), (s.openCall k svcNet 1).isSome = true → Completes (.netGet k) s fun t =>
      (t.answer? k = some (ST.OK, [(20, (s.getF (R.UPL_STAT_LINK_UP 0) :: (s.portAddresses 0).length :: s.portAddresses 0 ++ (((s.netPort 0).routers.filter (fun (x : Nat × Nat) => decide (s.mtb < x.2))).length :: ((s.netPort 0).routers.filter (fun (x : Nat × Nat) => decide (s.mtb < x.2))).map (·.1))) ++ (s.getF (R.UPL_STAT_LINK_UP 1) :: (s.portAddresses 1).length :: s.portAddresses 1 ++ (((s.netPort 1).routers.filter (fun (x : Nat × Nat) => decide (s.mtb < x.2))).length :: ((s.netPort 1).routers.filter (fun (x : Nat × Nat) => decide (s.mtb < x.2))).map (·.1)))), (21, match s.ry.deleg with | some d => [d.1, d.2.1] | none => []), (22, [s.ry.inUse])])) ∧
      t.mem = s.mem ∧ t.ry = s.ry ∧ t.regs = s.regs ∧ t.out = s.out ∧ t.ro = s.ro) ∧
    (∀ (k : Nat), (s.openCall k svcNet 1).isNone = true → Completes (.netGet k) s fun t =>
      t = s) ∧
    (∀ (k : Nat) (p : Nat), (s.openCall k svcPan 1).isSome = true → Completes (.panGet k p) s fun t =>
      ((s.panRec p).isNone = true → t.answer? k = some (ST.RYURIX_ARG, [])) ∧
      ((s.panRec p).isSome = true → t.answer? k = some (ST.OK, [(20, match s.panPrefix p with | some (x, c) => [x, c] | none => []), (21, [(s.root p).version]), (22, [(s.members p).length]), (23, [s.rplInstance p, s.minHop p, (s.trickle p).1, (s.trickle p).2.1, (s.trickle p).2.2, s.ocp p])])) ∧
      t.mem = s.mem ∧ t.ry = s.ry ∧ t.regs = s.regs ∧ t.out = s.out ∧ t.ro = s.ro) ∧
    (∀ (k : Nat) (p : Nat), (s.openCall k svcPan 1).isNone = true → Completes (.panGet k p) s fun t =>
      t = s) ∧
    (∀ (k : Nat) (i e : Option Nat) (n : Nat), (s.openCall k svcNode 1).isSome = true → ((i = some n) ∨ (i = none ∧ e.map (fun x => s.hashLookup x 0) = some n)) → Completes (.nodeGet k i e) s fun t =>
      (s.known n = true → t.answer? k = some (ST.OK, [(20, nats (s.readBytes (s.recAddr n 0) 192)), (21, match s.lptOf n with | some (_, y) => nats y.bytes | none => [])])) ∧
      (s.known n = false → t.answer? k = some (ST.RYURIX_UNKNOWN_NODE, [])) ∧
      t.mem = s.mem ∧ t.ry = s.ry ∧ t.regs = s.regs ∧ t.out = s.out ∧ t.ro = s.ro) ∧
    (∀ (k : Nat), (s.openCall k svcNode 1).isSome = true → Completes (.nodeGet k none none) s fun t =>
      t.answer? k = some (ST.RYURIX_ARG, []) ∧
      t.mem = s.mem ∧ t.ry = s.ry ∧ t.regs = s.regs ∧ t.out = s.out ∧ t.ro = s.ro) ∧
    (∀ (k : Nat) (i e : Option Nat), (s.openCall k svcNode 1).isNone = true → Completes (.nodeGet k i e) s fun t =>
      t = s) ∧
    (∀ (k : Nat) (p a c : Nat), (s.openCall k svcNode 3).isSome = true → Completes (.nodeList k p a c) s fun t =>
      ((s.panRec p).isNone = true ∨ c = 0 ∨ 1024 < c → t.answer? k = some (ST.RYURIX_ARG, [])) ∧
      ((s.panRec p).isSome = true ∧ 0 < c ∧ c ≤ 1024 → t.answer? k = some (ST.OK, [(20, (((s.members p).filter (fun n => decide (a ≤ n))).take c).flatMap (fun n => [n, s.recEui n, s.recGet n 87 1, s.recGet n 104 4, s.rank n]))])) ∧
      t.mem = s.mem ∧ t.ry = s.ry ∧ t.regs = s.regs ∧ t.out = s.out ∧ t.ro = s.ro) ∧
    (∀ (k : Nat) (p a c : Nat), (s.openCall k svcNode 3).isNone = true → Completes (.nodeList k p a c) s fun t =>
      t = s) ∧
    (∀ (k : Nat) (n : Nat), (s.openCall k svcNode 4).isSome = true → Completes (.nodeRoute k n) s fun t =>
      (s.known n = false → t.answer? k = some (ST.RYURIX_UNKNOWN_NODE, [])) ∧
      (s.known n = true → t.answer? k = some (ST.OK, [(20, (s.hops n).getD [nodeNone])])) ∧
      t.mem = s.mem ∧ t.ry = s.ry ∧ t.regs = s.regs ∧ t.out = s.out ∧ t.ro = s.ro) ∧
    (∀ (k : Nat) (n : Nat), (s.openCall k svcNode 4).isNone = true → Completes (.nodeRoute k n) s fun t =>
      t = s) ∧
    (∀ (k : Nat) (n : Nat), (s.openCall k svcSched 1).isSome = true → Completes (.schedGet k n) s fun t =>
      (s.known n = false → t.answer? k = some (ST.RYURIX_UNKNOWN_NODE, [])) ∧
      (s.known n = true → t.answer? k = some (ST.OK, [(20, (s.ry.cells.filter (fun (c : SchedCell) => c.src == n || c.dst == n)).flatMap (fun (c : SchedCell) => [c.src, c.dst, c.slot, c.choff]))])) ∧
      t.mem = s.mem ∧ t.ry = s.ry ∧ t.regs = s.regs ∧ t.out = s.out ∧ t.ro = s.ro) ∧
    (∀ (k : Nat) (n : Nat), (s.openCall k svcSched 1).isNone = true → Completes (.schedGet k n) s fun t =>
      t = s) ∧
    (∀ (k : Nat), (s.openCall k svcSched 3).isSome = true → Completes (.schedStats k) s fun t =>
      t.answer? k = some (ST.OK, [(20, [s.ry.cells.length]), (21, [s.ry.sixp.length]), (22, [s.ry.short])]) ∧
      t.mem = s.mem ∧ t.ry = s.ry ∧ t.regs = s.regs ∧ t.out = s.out ∧ t.ro = s.ro) ∧
    (∀ (k : Nat), (s.openCall k svcSched 3).isNone = true → Completes (.schedStats k) s fun t =>
      t = s) ∧
    (∀ (k : Nat), (s.openCall k svcJoin 4).isSome = true → Completes (.joinStats k) s fun t =>
      t.answer? k = some (ST.OK, [(20, [s.ry.joins]), (21, s.ry.refused.flatMap (fun (x : Nat × Nat) => [x.1, x.2])), (22, [s.pledges.length])]) ∧
      t.mem = s.mem ∧ t.ry = s.ry ∧ t.regs = s.regs ∧ t.out = s.out ∧ t.ro = s.ro) ∧
    (∀ (k : Nat), (s.openCall k svcJoin 4).isNone = true → Completes (.joinStats k) s fun t =>
      t = s) ∧
    (∀ (k : Nat), (s.openCall k svcImage 5).isSome = true → Completes (.imageList k) s fun t =>
      (t.answer? k = some (ST.OK, [(20, s.ry.images.flatMap (fun (i : Nat × Image) => [i.1, i.2.len, i.2.version, i.2.mask, if i.2.done then 1 else 0]))])) ∧
      t.mem = s.mem ∧ t.ry = s.ry ∧ t.regs = s.regs ∧ t.out = s.out ∧ t.ro = s.ro) ∧
    (∀ (k : Nat), (s.openCall k svcImage 5).isNone = true → Completes (.imageList k) s fun t =>
      t = s) ∧
    (∀ (k : Nat) (c : Nat), (s.openCall k svcImage 7).isSome = true → Completes (.campaignStatus k c) s fun t =>
      (Store.find? c s.ry.campaigns = none → t.answer? k = some (ST.RYURIX_ARG, [])) ∧
      (∀ v ∈ Store.find? c s.ry.campaigns, t.answer? k = some (ST.OK, [(20, [v.phase]), (21, [v.round]), (22, [v.targets.length]), (23, [v.done.length])])) ∧
      t.mem = s.mem ∧ t.ry = s.ry ∧ t.regs = s.regs ∧ t.out = s.out ∧ t.ro = s.ro) ∧
    (∀ (k : Nat) (c : Nat), (s.openCall k svcImage 7).isNone = true → Completes (.campaignStatus k c) s fun t =>
      t = s) ∧
    (∀ (k : Nat) (z : Nat), (s.openCall k svcZone 1).isSome = true → Completes (.zoneGet k z) s fun t =>
      (16384 ≤ z → t.answer? k = some (ST.RYURIX_ARG, [])) ∧
      (z < 16384 ∧ s.zConf z = false → t.answer? k = some (ST.RYURIX_ZONE_UNSET, [])) ∧
      (z < 16384 ∧ s.zConf z = true → (t.answer? k).map (fun (x : Nat × List (Nat × List Nat)) => (x.1, x.2.tail)) = some (ST.OK, [(21, [s.zState z]), (22, [s.zApplied z]), (23, [s.zGet z zoSeq 2]), (24, [(s.zMembers z).length]), (25, [s.zGet z zoPresence 8])])) ∧
      (z < 16384 ∧ s.zConf z = true → (t.answer? k).map (fun (x : Nat × List (Nat × List Nat)) => x.2.head?) = some (some (20, [s.zPan z, s.zGet z zoOcc 2, s.zGet z zoVac 2, s.zGet z zoIdle 2, s.zGet z zoHoldS 2, s.zGet z zoVacS 2, s.zGet z zoOvrS 2, s.zGet z zoUp 2, s.zGet z zoDown 2, s.zGet z zoDlFade 2, s.zGet z zoOn 1, s.zGet z zoLux 4, s.zGet z zoKp 2, s.zGet z zoKi 2, s.zGet z zoMin 2, s.zGet z zoStep 2, s.zGet z zoPeriod 2, s.zGet z zoWindow 2, s.zGet z zoRepeat 1]))) ∧
      t.mem = s.mem ∧ t.ry = s.ry ∧ t.regs = s.regs ∧ t.out = s.out ∧ t.ro = s.ro) ∧
    (∀ (k : Nat) (z : Nat), (s.openCall k svcZone 1).isNone = true → Completes (.zoneGet k z) s fun t =>
      t = s) ∧
    (∀ (k : Nat) (p : Nat), (s.openCall k svcZone 7).isSome = true → Completes (.zoneStats k p) s fun t =>
      ((s.panRec p).isNone = true → t.answer? k = some (ST.RYURIX_ARG, [])) ∧
      ((s.panRec p).isSome = true → t.answer? k = some (ST.OK, [(20, [(s.zStat p).taken]), (21, [(s.zStat p).discarded]), (22, [(s.zStat p).commands]), (23, [(s.zStat p).entries]), (24, [(s.zStat p).delayed])])) ∧
      t.mem = s.mem ∧ t.ry = s.ry ∧ t.regs = s.regs ∧ t.out = s.out ∧ t.ro = s.ro) ∧
    (∀ (k : Nat) (p : Nat), (s.openCall k svcZone 7).isNone = true → Completes (.zoneStats k p) s fun t =>
      t = s)

/-- A changing operation that is the oldest open call of its service, with room for its record and in a role that is active,
sets the keys it names and keeps the others; a PAN whose prefix is another gets a new DODAG version, one that lost it sends
no DIO more and event 1 is raised; net set goes over to the preferred port where that has a live router. Repair makes and
answers the next version. Node remove takes the node's cells, and its record is no longer valid. Set class writes CLASS
alone. Sched set loads both slotframe lengths and the minimal cell of each transceiver. Enrol takes pledges whose PSK
unwraps, each once; revoke counts those it takes. Group rekey sends the slot to each member and stays open until they
acknowledge, and without members ends at once. A value out of range, a PAN without a record and a slot that is empty answer
ST_RYURIX_ARG, repair without a prefix NO_PREFIX, a table of more than 16,384 pledges PLEDGE_FULL, and nothing changes. A
call that may not make its change leaves what turnedAway says. Where the spec leaves a detail open it rests on the model's
choices of log entries 23, 31 and 35. -/
def Obligations.ServiceChanges : Prop :=
  ∀ s : State, s.Inv → 
    (∀ (k : Nat) (p q d : Option Nat) (r : Nat), s.callable k svcNet 2 = true → ((p.any (fun x => decide (2 ≤ x)) || q.any (fun x => decide (x < 1024 ∨ 65536 ≤ x)) || d.any (fun x => decide (2 ≤ x))) = false) → r < s.pr.pans.length → Completes (.netSet k p q d) s fun t =>
      t.answer? k = some (ST.OK, []) ∧
      (t.setting (settingNo svcNet 0 11 0) = p.toList ++ (if p.isSome then [] else s.setting (settingNo svcNet 0 11 0))) ∧
      (t.setting (settingNo svcNet 0 12 0) = q.toList ++ (if q.isSome then [] else s.setting (settingNo svcNet 0 12 0))) ∧
      (t.setting (settingNo svcNet 0 13 0) = d.toList ++ (if d.isSome then [] else s.setting (settingNo svcNet 0 13 0))) ∧
      (t.ry.inUse = (if t.liveRouter t.preferred then t.preferred else s.ry.inUse)) ∧
      (s.panPrefix r = t.panPrefix r → t.root r = s.root r) ∧
      (s.panPrefix r ≠ t.panPrefix r ∧ (t.panPrefix r).isSome = true → (t.root r).version = nextVersion (s.root r).version ∧ (t.root r).doubled = 0) ∧
      (s.panPrefix r ≠ t.panPrefix r ∧ (t.panPrefix r).isNone = true → (t.root r).dioAt = none ∧ (t.root r).version = (s.root r).version ∧ (0x201C0000, 1, s.mtb) ∈ t.notes)) ∧
    (∀ (k : Nat) (p q d : Option Nat), s.callable k svcNet 2 = true → ((p.any (fun x => decide (2 ≤ x)) || q.any (fun x => decide (x < 1024 ∨ 65536 ≤ x)) || d.any (fun x => decide (2 ≤ x))) = true) → Completes (.netSet k p q d) s fun t =>
      t.answer? k = some (ST.RYURIX_ARG, []) ∧
      t.ry = s.ry ∧ t.mem = s.mem) ∧
    (∀ (k : Nat) (p q d : Option Nat), s.callable k svcNet 2 = false → Completes (.netSet k p q d) s fun t =>
      s.turnedAway t k svcNet 2) ∧
    (∀ (k : Nat) (p : Nat) (v : PanKeys), s.callable k svcPan 2 = true → (((s.panRec p).isNone || v.inst.any (fun x => decide (256 ≤ x)) || v.minHop.any (fun x => decide (65536 ≤ x)) || v.trickle.any (fun x => decide (256 ≤ x.1 ∨ 256 ≤ x.2.1 ∨ 256 ≤ x.2.2)) || v.ocp.any (fun x => decide (65536 ≤ x)) || v.contexts.any (fun (c : Nat × Option Nat) => decide (c.1 = 0 ∨ 16 ≤ c.1))) = false) → Completes (.panSet k p v) s fun t =>
      t.answer? k = some (ST.OK, []) ∧
      (t.panSet p 12 = (match v.prefix64 with | some x => x.toList | none => s.panSet p 12)) ∧
      t.rplInstance p = v.inst.getD (s.rplInstance p) ∧ t.minHop p = v.minHop.getD (s.minHop p) ∧
      t.trickle p = v.trickle.getD (s.trickle p) ∧ t.ocp p = v.ocp.getD (s.ocp p) ∧
      ((v.contexts.map (·.1)).Nodup → ∀ c ∈ v.contexts, t.setting (settingNo svcPan p 17 c.1) = c.2.toList) ∧
      (s.panPrefix p = t.panPrefix p → t.root p = s.root p) ∧
      (s.panPrefix p ≠ t.panPrefix p ∧ (t.panPrefix p).isSome = true → (t.root p).version = nextVersion (s.root p).version ∧ (t.root p).doubled = 0) ∧
      (s.panPrefix p ≠ t.panPrefix p ∧ (t.panPrefix p).isNone = true → (t.root p).dioAt = none ∧ (t.root p).version = (s.root p).version ∧ (0x201C0000, 1, s.mtb) ∈ t.notes)) ∧
    (∀ (k : Nat) (p : Nat) (v : PanKeys), s.callable k svcPan 2 = true → (((s.panRec p).isNone || v.inst.any (fun x => decide (256 ≤ x)) || v.minHop.any (fun x => decide (65536 ≤ x)) || v.trickle.any (fun x => decide (256 ≤ x.1 ∨ 256 ≤ x.2.1 ∨ 256 ≤ x.2.2)) || v.ocp.any (fun x => decide (65536 ≤ x)) || v.contexts.any (fun (c : Nat × Option Nat) => decide (c.1 = 0 ∨ 16 ≤ c.1))) = true) → Completes (.panSet k p v) s fun t =>
      t.answer? k = some (ST.RYURIX_ARG, []) ∧
      t.ry = s.ry ∧ t.mem = s.mem) ∧
    (∀ (k : Nat) (p : Nat) (v : PanKeys), s.callable k svcPan 2 = false → Completes (.panSet k p v) s fun t =>
      s.turnedAway t k svcPan 2) ∧
    (∀ (k : Nat) (p : Nat), s.callable k svcPan 3 = true → Completes (.panRepair k p) s fun t =>
      ((s.panRec p).isNone = true → t.answer? k = some (ST.RYURIX_ARG, []) ∧ t.ry = s.ry) ∧
      ((s.panRec p).isSome = true ∧ s.panPrefix p = none → t.answer? k = some (ST.RYURIX_NO_PREFIX, []) ∧ t.ry = s.ry) ∧
      ((s.panRec p).isSome = true ∧ (s.panPrefix p).isSome = true → t.answer? k = some (ST.OK, [(20, [nextVersion (s.root p).version])]) ∧ (t.root p).version = nextVersion (s.root p).version ∧ (t.root p).doubled = 0)) ∧
    (∀ (k : Nat) (p : Nat), s.callable k svcPan 3 = false → Completes (.panRepair k p) s fun t =>
      s.turnedAway t k svcPan 3) ∧
    (∀ (k : Nat) (n : Nat), s.callable k svcNode 2 = true → s.known n = true → Completes (.nodeRemove k n) s fun t =>
      t.answer? k = some (ST.OK, []) ∧
      t.ry.cells = s.ry.cells.filter (fun (c : SchedCell) => c.src != n && c.dst != n) ∧
      (n ∉ t.ry.unacked ∨ (s.ry.cells.any (fun (c : SchedCell) => decide (c.src = n ∧ c.dst = n))) = true) ∧
      (∀ w ∈ t.ry.waiting, w.1 ≠ n) ∧
      (s.tracked n = false ∧ s.lptOf n = none ∧ t.ry.cells = s.ry.cells ∧ n < 2 ^ 18 ∧ s.altActive = false ∧ s.recAddr n 256 ≤ s.getF R.GROUND_HASH_BASE_BASE → t.known n = false)) ∧
    (∀ (k : Nat) (n : Nat), s.callable k svcNode 2 = true → s.known n = false → Completes (.nodeRemove k n) s fun t =>
      t.answer? k = some (ST.RYURIX_UNKNOWN_NODE, []) ∧
      t.ry = s.ry ∧ t.mem = s.mem) ∧
    (∀ (k : Nat) (n : Nat), s.callable k svcNode 2 = false → Completes (.nodeRemove k n) s fun t =>
      s.turnedAway t k svcNode 2) ∧
    (∀ (k : Nat) (n c : Nat), s.callable k svcNode 5 = true → Completes (.nodeSetClass k n c) s fun t =>
      (5 ≤ c → t.answer? k = some (ST.RYURIX_ARG, []) ∧ t.mem = s.mem) ∧
      (c < 5 ∧ s.known n = false → t.answer? k = some (ST.RYURIX_UNKNOWN_NODE, []) ∧ t.mem = s.mem) ∧
      (c < 5 ∧ s.known n = true → t.answer? k = some (ST.OK, []) ∧ t.recGet n 87 1 = c) ∧
      (c < 5 ∧ s.known n = true → ∀ a, a ≠ s.recAddr n 87 → t.readByte a = s.readByte a)) ∧
    (∀ (k : Nat) (n c : Nat), s.callable k svcNode 5 = false → Completes (.nodeSetClass k n c) s fun t =>
      s.turnedAway t k svcNode 5) ∧
    (∀ (k : Nat) (p : Fin 16) (a b : Option Nat) (r : PanRec), s.callable k svcSched 2 = true → ((!s.tsch p || a.any (fun x => decide (x < 7 ∨ 1021 < x)) || b.any (fun x => decide (x < 11 ∨ 65535 < x))) = false) → s.panRec p = some r → Completes (.schedSet k p a b) s fun t =>
      t.answer? k = some (ST.OK, []) ∧
      t.sf0 p = a.getD (s.sf0 p) ∧ t.sf1 p = b.getD (s.sf1 p) ∧
      t.getF (R.MAC_SF_CFG_LENGTH.bank (sfBank p 0)) = (a.getD (s.sf0 p)) % 65536 ∧ t.getF (R.MAC_SF_CFG_LENGTH.bank (sfBank p 1)) = (b.getD (s.sf1 p)) % 65536 ∧
      t.readNat ((s.region 2).1 + s.getF (R.MAC_SF_BASE_ROW_BASE.bank (sfBank p 0))) 4 = 0 ∧ t.readNat (((s.region 2).1 + s.getF (R.MAC_SF_BASE_ROW_BASE.bank (sfBank p 0))) + 4) 1 = ((List.range 4).filter (bitOf r.trxMask)).length ∧
      (List.range 4).all (fun (i : Nat) => (((List.range 4).filter (bitOf r.trxMask))[i]?).all (fun x => decide (t.readNat (((s.region 2).1 + s.getF (R.MAC_SF_BASE_ROW_BASE.bank (sfBank p 0))) + 16 + 16 * i) 4 = 0x1F0000 + x * 2 ^ 24 ∧ t.readNat (((s.region 2).1 + s.getF (R.MAC_SF_BASE_ROW_BASE.bank (sfBank p 0))) + 20 + 16 * i) 4 = nodeNone))) = true) ∧
    (∀ (k : Nat) (p : Nat) (a b : Option Nat), s.callable k svcSched 2 = true → ((!s.tsch p || a.any (fun x => decide (x < 7 ∨ 1021 < x)) || b.any (fun x => decide (x < 11 ∨ 65535 < x))) = true) → Completes (.schedSet k p a b) s fun t =>
      t.answer? k = some (ST.RYURIX_ARG, []) ∧
      t.ry = s.ry ∧ t.mem = s.mem) ∧
    (∀ (k : Nat) (p : Nat) (a b : Option Nat), s.callable k svcSched 2 = false → Completes (.schedSet k p a b) s fun t =>
      s.turnedAway t k svcSched 2) ∧
    (∀ (k : Nat) (l r : Option Nat) (v : Option (Option Nat)), s.callable k svcJoin 1 = true → ((l.any (fun x => decide (1 < x)) || (v.getD none).any (fun x => decide (511 < x)) || r.any (fun x => decide (x < 1 ∨ 1000 < x))) = false) → Completes (.joinSet k l v r) s fun t =>
      t.answer? k = some (ST.OK, []) ∧
      (t.setting (settingNo svcJoin 0 11 0) = l.toList ++ (if l.isSome then [] else s.setting (settingNo svcJoin 0 11 0))) ∧
      (t.setting (settingNo svcJoin 0 12 0) = (v.getD none).toList ++ (if v.isSome then [] else s.setting (settingNo svcJoin 0 12 0))) ∧
      (t.setting (settingNo svcJoin 0 13 0) = r.toList ++ (if r.isSome then [] else s.setting (settingNo svcJoin 0 13 0)))) ∧
    (∀ (k : Nat) (l r : Option Nat) (v : Option (Option Nat)), s.callable k svcJoin 1 = true → ((l.any (fun x => decide (1 < x)) || (v.getD none).any (fun x => decide (511 < x)) || r.any (fun x => decide (x < 1 ∨ 1000 < x))) = true) → Completes (.joinSet k l v r) s fun t =>
      t.answer? k = some (ST.RYURIX_ARG, []) ∧
      t.ry = s.ry) ∧
    (∀ (k : Nat) (l r : Option Nat) (v : Option (Option Nat)), s.callable k svcJoin 1 = false → Completes (.joinSet k l v r) s fun t =>
      s.turnedAway t k svcJoin 1) ∧
    (∀ (k : Nat) (l : List (BitVec 64 × BitVec 192)) (v : Fin 512), s.callable k svcJoin 2 = true → (l.isEmpty = true ∨ 256 < l.length ∨ s.keySlot v = none) → Completes (.joinEnrol k l v) s fun t =>
      t.answer? k = some (ST.RYURIX_ARG, []) ∧
      t.ry = s.ry) ∧
    (∀ (k : Nat) (l : List (BitVec 64 × BitVec 192)) (v : Fin 512), s.callable k svcJoin 2 = true → (l.isEmpty = false ∧ l.length ≤ 256) → (s.keySlot v).isSome = true → Completes (.joinEnrol k l v) s fun t =>
      ((l.any (fun x => ((s.keySlot v).bind (fun y => Config.unwrap y.mat 16 x.2.toNat)).isNone)) = true → t.answer? k = some (ST.RYURIX_ARG, []) ∧ t.ry = s.ry) ∧
      ((l.any (fun x => ((s.keySlot v).bind (fun y => Config.unwrap y.mat 16 x.2.toNat)).isNone)) = false ∧ 16384 < s.pledges.length + (l.filter (fun x => !s.pledges.any (fun y => decide (y.2.head? = some x.1.toNat)))).length → t.answer? k = some (ST.RYURIX_PLEDGE_FULL, []) ∧ t.ry = s.ry) ∧
      ((l.any (fun x => ((s.keySlot v).bind (fun y => Config.unwrap y.mat 16 x.2.toNat)).isNone)) = false ∧ s.pledges.length + (l.filter (fun x => !s.pledges.any (fun y => decide (y.2.head? = some x.1.toNat)))).length ≤ 16384 → t.answer? k = some (ST.OK, [(20, [(l.filter (fun x => !s.pledges.any (fun y => decide (y.2.head? = some x.1.toNat)))).length])])) ∧
      ((l.any (fun x => ((s.keySlot v).bind (fun y => Config.unwrap y.mat 16 x.2.toNat)).isNone)) = false ∧ s.pledges.length + (l.filter (fun x => !s.pledges.any (fun y => decide (y.2.head? = some x.1.toNat)))).length ≤ 16384 ∧ (l.map (·.1)).Nodup ∧ Store.wf (fun _ => ([] : List Nat)) s.ry.settings = true → (l.all (fun x => t.pledgePsk x.1.toNat == (s.keySlot v).bind (fun y => Config.unwrap y.mat 16 x.2.toNat))) = true)) ∧
    (∀ (k : Nat) (l : List (BitVec 64 × BitVec 192)) (v : Fin 512), s.callable k svcJoin 2 = false → Completes (.joinEnrol k l v) s fun t =>
      s.turnedAway t k svcJoin 2) ∧
    (∀ (k : Nat) (l : List (BitVec 64)), s.callable k svcJoin 3 = true → s.pledges.all (fun (x : Nat × List Nat) => decide (x.2 ≠ [])) = true → Completes (.joinRevoke k l) s fun t =>
      t.answer? k = some (ST.OK, [(20, [(s.pledges.filter (fun (x : Nat × List Nat) => l.any (fun p => decide (x.2.head? = some p.toNat)))).length])]) ∧
      (∀ x ∈ s.pledges, l.any (fun p => decide (x.2.head? = some p.toNat)) = true → t.setting x.1 = []) ∧
      (∀ x ∈ s.pledges, t.setting x.1 = [] ∨ t.setting x.1 = s.setting x.1)) ∧
    (∀ (k : Nat) (l : List (BitVec 64)), s.callable k svcJoin 3 = false → Completes (.joinRevoke k l) s fun t =>
      s.turnedAway t k svcJoin 3) ∧
    (∀ (k : Nat) (p v d u : Nat), s.callable k svcJoin 5 = true → ((s.panRec p).isSome = true ∧ v < 512 ∧ (s.keySlot v).isSome = true ∧ Store.find? p s.ry.rekeys = none) → s.members p ≠ [] → Completes (.joinGroupRekey k p v d u) s fun t =>
      Store.find? p t.ry.rekeys = some ⟨v, max s.mtb u + d * secCyc, k, s.members p⟩ ∧
      t.out = (s.members p).reverse.map (fun n => Msg.ryurix (.keySet n v)) ++ s.out ∧
      t.answer? k = none ∧
      t.resp = ST.OK) ∧
    (∀ (k : Nat) (p : Fin 16) (v d u : Nat), s.callable k svcJoin 5 = true → ((s.panRec p).isSome = true ∧ v < 512 ∧ (s.keySlot v).isSome = true ∧ Store.find? p s.ry.rekeys = none) → s.members p = [] → Completes (.joinGroupRekey k p v d u) s fun t =>
      t.answer? k = some (ST.OK, [(20, [])]) ∧
      t.getF (R.MAC_PAN_KEY_SLOT.bank p) = v ∧ t.getF (R.MAC_PAN_KEY_VALID.bank p) = 1 ∧
      (0x201C0000, 6, max s.mtb u) ∈ t.notes) ∧
    (∀ (k : Nat) (p v d u : Nat), s.callable k svcJoin 5 = true → ((s.panRec p).isNone = true ∨ 512 ≤ v ∨ (s.keySlot v).isNone = true ∨ (Store.find? p s.ry.rekeys).isSome = true) → Completes (.joinGroupRekey k p v d u) s fun t =>
      t.answer? k = some (ST.RYURIX_ARG, []) ∧
      t.ry = s.ry ∧ t.out = s.out) ∧
    (∀ (k : Nat) (p v d u : Nat), s.callable k svcJoin 5 = false → Completes (.joinGroupRekey k p v d u) s fun t =>
      (s.advance u).turnedAway t k svcJoin 5)

/-- Begin of an unknown number while no image is open takes the lowest free library blocks, erases them and opens the image;
a known number or another open image is IMAGE_STATE, too few blocks LIBRARY_FULL. Write puts 1 to 1,024 octets of an open
image within its length; a complete or unknown image is IMAGE_STATE. Commit of an open image checks the SHA3-256 digest and
completes it, else DIGEST, and it stays open. Delete takes an image that no running campaign uses, else IMAGE_IN_USE; an
unknown one is IMAGE_STATE. Campaign start with values in range (SZX 2 for an O-QPSK PAN), of a complete image on a PAN with
a prefix, without a campaign there and with fewer than four running, makes the lowest free number a campaign of the present
targets that sends the header and every block; else ARG, IMAGE_STATE, NO_PREFIX or CAMPAIGN_LIMIT. Stop ends a running
campaign, whose result stays, with event 5. Numbers or values out of range are ARG. A call that may not make its change
leaves what turnedAway says. Where the spec leaves a detail open it rests on the model's choices of log entries 23, 31 and
35. -/
def Obligations.ImageService : Prop :=
  ∀ s : State, s.Inv → 
    (∀ (k : Nat) (i n m : Nat) (h : BitVec 256) (w : BitVec 32), s.callable k svcImage 1 = true → Completes (.imageBegin k i n h m w) s fun t =>
      (64 ≤ i ∨ n = 0 ∨ 256 ≤ m → t.answer? k = some (ST.RYURIX_ARG, []) ∧ t.ry = s.ry ∧ t.flash = s.flash) ∧
      (i < 64 ∧ 0 < n ∧ m < 256 → (s.image i).isSome = true ∨ s.ry.images.any (fun (x : Nat × Image) => !x.2.done) = true → t.answer? k = some (ST.RYURIX_IMAGE_STATE, []) ∧ t.ry = s.ry ∧ t.flash = s.flash) ∧
      (i < 64 ∧ 0 < n ∧ m < 256 ∧ (s.image i).isNone = true ∧ s.ry.images.any (fun (x : Nat × Image) => !x.2.done) = false → s.freeBlocks.length < divUp n 262144 → t.answer? k = some (ST.RYURIX_LIBRARY_FULL, []) ∧ t.ry = s.ry ∧ t.flash = s.flash) ∧
      (i < 64 ∧ 0 < n ∧ m < 256 ∧ (s.image i).isNone = true ∧ s.ry.images.any (fun (x : Nat × Image) => !x.2.done) = false → divUp n 262144 ≤ s.freeBlocks.length → t.answer? k = some (ST.OK, []) ∧ t.image i = some ⟨n, h.toNat, m, w.toNat, s.freeBlocks.take (divUp n 262144), false⟩) ∧
      (t.image i = some ⟨n, h.toNat, m, w.toNat, s.freeBlocks.take (divUp n 262144), false⟩ ∧ (s.image i).isNone = true → ∀ b ∈ s.freeBlocks.take (divUp n 262144), ∀ o < 262144, t.flashByte (15360 * 4096 + b * 262144 + o) = 0xFF)) ∧
    (∀ (k : Nat) (i n m : Nat) (h : BitVec 256) (w : BitVec 32), s.callable k svcImage 1 = false → Completes (.imageBegin k i n h m w) s fun t =>
      s.turnedAway t k svcImage 1) ∧
    (∀ (k : Nat) (i a : Nat) (l : List Byte) (v : Image), s.callable k svcImage 2 = true → s.image i = some v → Completes (.imageWrite k i a l) s fun t =>
      (v.done = true → t.answer? k = some (ST.RYURIX_IMAGE_STATE, []) ∧ t.flash = s.flash) ∧
      (v.done = false ∧ (l = [] ∨ 1024 < l.length ∨ v.len < a + l.length) → t.answer? k = some (ST.RYURIX_ARG, []) ∧ t.flash = s.flash) ∧
      (v.done = false ∧ l ≠ [] ∧ l.length ≤ 1024 ∧ a + l.length ≤ v.len → t.answer? k = some (ST.OK, []) ∧ (v.blocks.Nodup ∧ v.len ≤ 262144 * v.blocks.length → t.imageOctets v a l.length = l)) ∧
      t.ry = s.ry) ∧
    (∀ (k : Nat) (i a : Nat) (l : List Byte), s.callable k svcImage 2 = true → s.image i = none → Completes (.imageWrite k i a l) s fun t =>
      (t.answer? k = some ((if 64 ≤ i then ST.RYURIX_ARG else ST.RYURIX_IMAGE_STATE), [])) ∧
      t.flash = s.flash ∧ t.ry = s.ry) ∧
    (∀ (k : Nat) (i a : Nat) (l : List Byte), s.callable k svcImage 2 = false → Completes (.imageWrite k i a l) s fun t =>
      s.turnedAway t k svcImage 2) ∧
    (∀ (k : Nat) (i : Nat) (v : Image), s.callable k svcImage 3 = true → s.image i = some v → Completes (.imageCommit k i) s fun t =>
      (v.done = false ∧ Config.sha3 (nats (s.imageOctets v 0 v.len)) = v.digest → t.answer? k = some (ST.OK, []) ∧ t.image i = some { v with done := true }) ∧
      (v.done = false ∧ Config.sha3 (nats (s.imageOctets v 0 v.len)) ≠ v.digest → t.answer? k = some (ST.RYURIX_DIGEST, []) ∧ t.ry = s.ry) ∧
      (v.done = true → t.answer? k = some (ST.RYURIX_IMAGE_STATE, []) ∧ t.ry = s.ry) ∧
      t.flash = s.flash) ∧
    (∀ (k : Nat) (i : Nat), s.callable k svcImage 3 = true → s.image i = none → Completes (.imageCommit k i) s fun t =>
      (t.answer? k = some ((if 64 ≤ i then ST.RYURIX_ARG else ST.RYURIX_IMAGE_STATE), [])) ∧
      t.ry = s.ry) ∧
    (∀ (k : Nat) (i : Nat), s.callable k svcImage 3 = false → Completes (.imageCommit k i) s fun t =>
      s.turnedAway t k svcImage 3) ∧
    (∀ (k : Nat) (i : Nat), s.callable k svcImage 4 = true → Completes (.imageDelete k i) s fun t =>
      (64 ≤ i → t.answer? k = some (ST.RYURIX_ARG, []) ∧ t.ry = s.ry) ∧
      (i < 64 ∧ s.campaigns.any (fun (c : Campaign) => decide (c.image = i)) = true → t.answer? k = some (ST.RYURIX_IMAGE_IN_USE, []) ∧ t.ry = s.ry) ∧
      (i < 64 ∧ s.campaigns.any (fun (c : Campaign) => decide (c.image = i)) = false → (s.image i).isNone = true → t.answer? k = some (ST.RYURIX_IMAGE_STATE, []) ∧ t.ry = s.ry) ∧
      (i < 64 ∧ s.campaigns.any (fun (c : Campaign) => decide (c.image = i)) = false → (s.image i).isSome = true → t.answer? k = some (ST.OK, []) ∧ t.image i = none) ∧
      (∀ j, j ≠ i → t.image j = s.image j)) ∧
    (∀ (k : Nat) (i : Nat), s.callable k svcImage 4 = false → Completes (.imageDelete k i) s fun t =>
      s.turnedAway t k svcImage 4) ∧
    (∀ (k : Nat) (p i u : Nat) (a : CampaignArgs) (v : Image) (c : Nat), s.callable k svcImage 6 = true → (((s.panRec p).isNone || decide (64 ≤ i) || decide (256 ≤ a.mask) || decide (2 ^ 32 ≤ a.bound) || decide (a.szx < 2 ∨ 6 < a.szx) || (s.oqpskPan p && decide (a.szx ≠ 2)) || decide (a.blockMs < 100 ∨ 60000 < a.blockMs) || decide (7 < a.rounds) || decide (a.reportS < 10 ∨ 3600 < a.reportS)) = false) → (s.image i = some v ∧ v.done = true) → ((s.panPrefix p).isSome = true ∧ (s.campaigns.any (fun (c : Campaign) => decide (c.pan = p))) = false ∧ s.campaigns.length < 4) → (c < 4 ∧ s.campaign c = none ∧ ∀ e < c, (s.campaign e).isSome = true) → Completes (.campaignStart k p i a u) s fun t =>
      t.answer? k = some (ST.OK, [(20, [c])]) ∧
      t.campaign c = some { pan := p, image := i, mask := a.mask, bound := a.bound, szx := a.szx, blockMs := a.blockMs, rounds := a.rounds, reportS := a.reportS, delayS := a.delayS, last := max s.mtb u, targets := s.targets p a.mask a.bound, queue := none :: (List.range (divUp v.len (2 ^ (a.szx + 4)))).map some }) ∧
    (∀ (k : Nat) (p i u : Nat) (a : CampaignArgs), s.callable k svcImage 6 = true → Completes (.campaignStart k p i a u) s fun t =>
      (((s.panRec p).isNone || decide (64 ≤ i) || decide (256 ≤ a.mask) || decide (2 ^ 32 ≤ a.bound) || decide (a.szx < 2 ∨ 6 < a.szx) || (s.oqpskPan p && decide (a.szx ≠ 2)) || decide (a.blockMs < 100 ∨ 60000 < a.blockMs) || decide (7 < a.rounds) || decide (a.reportS < 10 ∨ 3600 < a.reportS)) = true → t.answer? k = some (ST.RYURIX_ARG, []) ∧ t.ry = s.ry) ∧
      (((s.panRec p).isNone || decide (64 ≤ i) || decide (256 ≤ a.mask) || decide (2 ^ 32 ≤ a.bound) || decide (a.szx < 2 ∨ 6 < a.szx) || (s.oqpskPan p && decide (a.szx ≠ 2)) || decide (a.blockMs < 100 ∨ 60000 < a.blockMs) || decide (7 < a.rounds) || decide (a.reportS < 10 ∨ 3600 < a.reportS)) = false ∧ ((s.image i).any (fun (v : Image) => v.done)) = false → t.answer? k = some (ST.RYURIX_IMAGE_STATE, []) ∧ t.ry = s.ry) ∧
      (((s.panRec p).isNone || decide (64 ≤ i) || decide (256 ≤ a.mask) || decide (2 ^ 32 ≤ a.bound) || decide (a.szx < 2 ∨ 6 < a.szx) || (s.oqpskPan p && decide (a.szx ≠ 2)) || decide (a.blockMs < 100 ∨ 60000 < a.blockMs) || decide (7 < a.rounds) || decide (a.reportS < 10 ∨ 3600 < a.reportS)) = false ∧ ((s.image i).any (fun (v : Image) => v.done)) = true ∧ s.panPrefix p = none → t.answer? k = some (ST.RYURIX_NO_PREFIX, []) ∧ t.ry = s.ry) ∧
      (((s.panRec p).isNone || decide (64 ≤ i) || decide (256 ≤ a.mask) || decide (2 ^ 32 ≤ a.bound) || decide (a.szx < 2 ∨ 6 < a.szx) || (s.oqpskPan p && decide (a.szx ≠ 2)) || decide (a.blockMs < 100 ∨ 60000 < a.blockMs) || decide (7 < a.rounds) || decide (a.reportS < 10 ∨ 3600 < a.reportS)) = false ∧ ((s.image i).any (fun (v : Image) => v.done)) = true ∧ (s.panPrefix p).isSome = true ∧ ((s.campaigns.any (fun (c : Campaign) => decide (c.pan = p))) = true ∨ 4 ≤ s.campaigns.length) → t.answer? k = some (ST.RYURIX_CAMPAIGN_LIMIT, []) ∧ t.ry = s.ry)) ∧
    (∀ (k : Nat) (p i u : Nat) (a : CampaignArgs), s.callable k svcImage 6 = false → Completes (.campaignStart k p i a u) s fun t =>
      (s.advance u).turnedAway t k svcImage 6) ∧
    (∀ (k : Nat) (c : Nat), s.callable k svcImage 8 = true → Completes (.campaignStop k c) s fun t =>
      (s.campaign c = none → t.answer? k = some (ST.RYURIX_ARG, []) ∧ t.ry = s.ry) ∧
      (∀ v ∈ s.campaign c, t.answer? k = some (ST.OK, []) ∧ t.campaign c = none ∧ (0x201C0000, 5, s.mtb) ∈ t.notes) ∧
      ((s.campaign c).isSome = true → (Store.find? c t.ry.campaigns).map (fun (x : Campaign) => (x.phase, x.round, x.targets, x.done)) = (s.campaign c).map (fun (x : Campaign) => (3, x.round, x.targets, x.done)))) ∧
    (∀ (k : Nat) (c : Nat), s.callable k svcImage 8 = false → Completes (.campaignStop k c) s fun t =>
      s.turnedAway t k svcImage 8)

/-- Every row of Table 17.1: presence (its time the latest time stamp of a presence report), hold and vacancy expiry (VAC_S
0: the zone stays VACANT), switch reports and operation 5, the end of an override by its time or by operation 6, a changed
daylight output; with the state, its deadline, and the level and the fade of the entry each queues (for the end of an
override the table names no fade: one of the two). A daylight change queues an entry, with DL_FADE_MS, only from DL_STEP on;
a change of state queues one whatever the difference. A newly configured zone is IDLE without a command. Before its deadline,
or in another state, a timer changes nothing. -/
def Obligations.ZoneTransitions : Prop :=
  ∀ s : State, s.Inv → 
    (∀ (n v a u z : Nat), (s.rySends = true ∧ s.known n = true ∧ (s.zonesOf n).count z = 1 ∧ s.zConf z = true) → (s.zState z = 0 ∨ s.zState z = 2) → max a (s.zGet z zoPresence 8) + 65536 * secCyc < 2 ^ 64 → Completes (.zoneReportRx n 0 v a u) s fun t =>
      t.zState z = 1 ∧ t.zGet z zoPresence 8 = max a (s.zGet z zoPresence 8) ∧ t.zGet z zoEver 1 = 1 ∧
      t.zGet z zoDeadline 8 = max a (s.zGet z zoPresence 8) + s.zGet z zoHoldS 2 * secCyc ∧
      (t.zGet z zoPend 1 = 1 ∧ t.zGet z zoSent 1 = 0 ∧ t.zGet z zoSeq 2 = (if s.zGet z zoPend 1 = 0 ∨ s.zGet z zoSent 1 ≠ 0 then (s.zGet z zoSeq 2 + 1) % 65536 else s.zGet z zoSeq 2)) ∧
      t.zGet z zoPFade 2 = s.zGet z zoUp 2 ∧ t.zGet z zoPLevel 2 = t.zApplied z ∧ t.zGet z zoLast 2 = t.zApplied z ∧
      (s.zGet z zoOn 1 = 0 → t.zApplied z = min (s.zGet z zoOcc 2) 1000) ∧
      (t.zStat (s.nodePan n)).taken = (s.zStat (s.nodePan n)).taken + 1) ∧
    (∀ (n v a u z : Nat), (s.rySends = true ∧ s.known n = true ∧ (s.zonesOf n).count z = 1 ∧ s.zConf z = true) → (s.zState z = 1 ∨ s.zState z = 3) → max a (s.zGet z zoPresence 8) + 65536 * secCyc < 2 ^ 64 → Completes (.zoneReportRx n 0 v a u) s fun t =>
      t.zState z = s.zState z ∧ t.zGet z zoPresence 8 = max a (s.zGet z zoPresence 8) ∧
      (t.zGet z zoDeadline 8 = (if s.zState z = 1 then max a (s.zGet z zoPresence 8) + s.zGet z zoHoldS 2 * secCyc else s.zGet z zoDeadline 8)) ∧
      t.zGet z zoPend 1 = s.zGet z zoPend 1 ∧ t.zGet z zoSent 1 = s.zGet z zoSent 1 ∧ t.zGet z zoSeq 2 = s.zGet z zoSeq 2 ∧ t.zGet z zoPLevel 2 = s.zGet z zoPLevel 2 ∧ t.zGet z zoPFade 2 = s.zGet z zoPFade 2) ∧
    (∀ (n v a u z : Nat), (s.rySends = true ∧ s.known n = true ∧ (s.zonesOf n).count z = 1 ∧ s.zConf z = true ∧ v ≤ 1001) → a + 65536 * secCyc < 2 ^ 64 → Completes (.zoneReportRx n 2 v a u) s fun t =>
      (t.zState z = 3 ∧ t.zGet z zoOvr 2 = (if v = 1001 then s.zGet z zoOcc 2 else v)) ∧
      (t.zGet z zoDeadline 8 = (if s.zGet z zoOvrS 2 = 0 then 0 else a + s.zGet z zoOvrS 2 * secCyc)) ∧
      (t.zGet z zoPLevel 2 = t.zGet z zoOvr 2 ∧ t.zGet z zoPFade 2 = (if s.zGet z zoLast 2 < t.zGet z zoOvr 2 then s.zGet z zoUp 2 else s.zGet z zoDown 2)) ∧
      (t.zGet z zoPend 1 = 1 ∧ t.zGet z zoSent 1 = 0 ∧ t.zGet z zoSeq 2 = (if s.zGet z zoPend 1 = 0 ∨ s.zGet z zoSent 1 ≠ 0 then (s.zGet z zoSeq 2 + 1) % 65536 else s.zGet z zoSeq 2))) ∧
    (∀ (z : Fin 16384) (u : Nat), (s.rySends = true ∧ s.zConf z = true ∧ s.zState z = 1 ∧ s.zGet z zoDeadline 8 ≠ 0 ∧ s.zGet z zoDeadline 8 ≤ max s.mtb u) → max s.mtb u + 65536 * secCyc < 2 ^ 64 → Completes (.zoneHoldExpiry z u) s fun t =>
      (t.zState z = 2 ∧ t.zGet z zoDeadline 8 = (if s.zGet z zoVacS 2 = 0 then 0 else max s.mtb u + s.zGet z zoVacS 2 * secCyc)) ∧
      (t.zGet z zoPend 1 = 1 ∧ t.zGet z zoSent 1 = 0 ∧ t.zGet z zoSeq 2 = (if s.zGet z zoPend 1 = 0 ∨ s.zGet z zoSent 1 ≠ 0 then (s.zGet z zoSeq 2 + 1) % 65536 else s.zGet z zoSeq 2)) ∧
      t.zGet z zoPFade 2 = s.zGet z zoDown 2 ∧ t.zGet z zoPLevel 2 = t.zApplied z ∧
      (s.zGet z zoOn 1 = 0 → t.zApplied z = min (s.zGet z zoVac 2) 1000)) ∧
    (∀ (z : Fin 16384) (u : Nat), (s.rySends = true ∧ s.zConf z = true ∧ s.zState z = 2 ∧ s.zGet z zoDeadline 8 ≠ 0 ∧ s.zGet z zoDeadline 8 ≤ max s.mtb u) → Completes (.zoneVacancyExpiry z u) s fun t =>
      t.zState z = 0 ∧ t.zGet z zoDeadline 8 = 0 ∧
      (t.zGet z zoPend 1 = 1 ∧ t.zGet z zoSent 1 = 0 ∧ t.zGet z zoSeq 2 = (if s.zGet z zoPend 1 = 0 ∨ s.zGet z zoSent 1 ≠ 0 then (s.zGet z zoSeq 2 + 1) % 65536 else s.zGet z zoSeq 2)) ∧
      t.zGet z zoPFade 2 = s.zGet z zoDown 2 ∧ t.zGet z zoPLevel 2 = s.zGet z zoIdle 2) ∧
    (∀ (z : Fin 16384) (u : Nat), (¬ (s.rySends = true ∧ s.zConf z = true ∧ s.zState z = 1 ∧ s.zGet z zoDeadline 8 ≠ 0 ∧ s.zGet z zoDeadline 8 ≤ max s.mtb u)) → Completes (.zoneHoldExpiry z u) s fun t =>
      t = s.advance u) ∧
    (∀ (z : Fin 16384) (u : Nat), (¬ (s.rySends = true ∧ s.zConf z = true ∧ s.zState z = 2 ∧ s.zGet z zoDeadline 8 ≠ 0 ∧ s.zGet z zoDeadline 8 ≤ max s.mtb u)) → Completes (.zoneVacancyExpiry z u) s fun t =>
      t = s.advance u) ∧
    (∀ (z : Fin 16384) (u : Nat), (¬ (s.rySends = true ∧ s.zConf z = true ∧ s.zState z = 3 ∧ s.zGet z zoDeadline 8 ≠ 0 ∧ s.zGet z zoDeadline 8 ≤ max s.mtb u)) → Completes (.zoneOverrideExpiry z u) s fun t =>
      t = s.advance u) ∧
    (∀ (z : Fin 16384) (u : Nat), (s.rySends = true ∧ s.zConf z = true ∧ s.zState z = 3 ∧ s.zGet z zoDeadline 8 ≠ 0 ∧ s.zGet z zoDeadline 8 ≤ max s.mtb u) → (max s.mtb u + 65536 * secCyc < 2 ^ 64 ∧ s.zGet z zoPresence 8 + 65536 * secCyc < 2 ^ 64) → Completes (.zoneOverrideExpiry z u) s fun t =>
      (t.zState z = (if s.zGet z zoEver 1 = 1 ∧ max s.mtb u < s.zGet z zoPresence 8 + s.zGet z zoHoldS 2 * secCyc then 1 else 2)) ∧
      (t.zState z = 1 → t.zGet z zoDeadline 8 = s.zGet z zoPresence 8 + s.zGet z zoHoldS 2 * secCyc) ∧
      (t.zState z = 2 → t.zGet z zoDeadline 8 = (if s.zGet z zoVacS 2 = 0 then 0 else max s.mtb u + s.zGet z zoVacS 2 * secCyc)) ∧
      (t.zGet z zoPend 1 = 1 ∧ t.zGet z zoSent 1 = 0 ∧ t.zGet z zoSeq 2 = (if s.zGet z zoPend 1 = 0 ∨ s.zGet z zoSent 1 ≠ 0 then (s.zGet z zoSeq 2 + 1) % 65536 else s.zGet z zoSeq 2)) ∧
      (t.zGet z zoPLevel 2 = t.zApplied z ∧ (t.zGet z zoPFade 2 = s.zGet z zoUp 2 ∨ t.zGet z zoPFade 2 = s.zGet z zoDown 2))) ∧
    (∀ (k z v d u : Nat), s.callable k svcZone 5 = true → (z < 16384 ∧ s.zConf z = true ∧ v ≤ 1000 ∧ d ≤ 65535 ∧ max s.mtb u + 65536 * secCyc < 2 ^ 64) → Completes (.zoneOverride k z v d u) s fun t =>
      t.answer? k = some (ST.OK, []) ∧
      t.zState z = 3 ∧ t.zGet z zoOvr 2 = v ∧ t.zGet z zoPLevel 2 = v ∧
      (t.zGet z zoDeadline 8 = (if d = 0 then 0 else max s.mtb u + d * secCyc)) ∧
      (t.zGet z zoPend 1 = 1 ∧ t.zGet z zoSent 1 = 0 ∧ t.zGet z zoSeq 2 = (if s.zGet z zoPend 1 = 0 ∨ s.zGet z zoSent 1 ≠ 0 then (s.zGet z zoSeq 2 + 1) % 65536 else s.zGet z zoSeq 2)) ∧
      (t.zGet z zoPFade 2 = (if s.zGet z zoLast 2 < v then s.zGet z zoUp 2 else s.zGet z zoDown 2))) ∧
    (∀ (k z u : Nat), s.callable k svcZone 6 = true → (z < 16384 ∧ s.zConf z = true ∧ s.zState z = 3) → (max s.mtb u + 65536 * secCyc < 2 ^ 64 ∧ s.zGet z zoPresence 8 + 65536 * secCyc < 2 ^ 64) → Completes (.zoneRelease k z u) s fun t =>
      t.answer? k = some (ST.OK, []) ∧
      (t.zState z = (if s.zGet z zoEver 1 = 1 ∧ max s.mtb u < s.zGet z zoPresence 8 + s.zGet z zoHoldS 2 * secCyc then 1 else 2)) ∧
      (t.zState z = 1 → t.zGet z zoDeadline 8 = s.zGet z zoPresence 8 + s.zGet z zoHoldS 2 * secCyc) ∧
      (t.zState z = 2 → t.zGet z zoDeadline 8 = (if s.zGet z zoVacS 2 = 0 then 0 else max s.mtb u + s.zGet z zoVacS 2 * secCyc)) ∧
      (t.zGet z zoPend 1 = 1 ∧ t.zGet z zoSent 1 = 0 ∧ t.zGet z zoSeq 2 = (if s.zGet z zoPend 1 = 0 ∨ s.zGet z zoSent 1 ≠ 0 then (s.zGet z zoSeq 2 + 1) % 65536 else s.zGet z zoSeq 2)) ∧
      (t.zGet z zoPLevel 2 = t.zApplied z ∧ (t.zGet z zoPFade 2 = s.zGet z zoUp 2 ∨ t.zGet z zoPFade 2 = s.zGet z zoDown 2))) ∧
    (∀ (z : Fin 16384) (u : Nat), (s.pr.table.nodeLimit * 256 + (s.region 0).1 ≤ (s.region 7).1 ∨ (s.region 7).1 + 2 ^ 22 ≤ (s.region 0).1) → (s.rySends = true ∧ s.zConf z = true ∧ s.zGet z zoOn 1 = 1 ∧ s.zGet z zoDue 8 ≤ max s.mtb u ∧ (s.zState z = 1 ∨ s.zState z = 2)) → (((s.zMembers z).filterMap (fun n => (Store.find? n s.ry.lux).bind (fun (x : Nat × Nat) => if max s.mtb u ≤ x.2 + s.zGet z zoWindow 2 * secCyc then some x.1 else none))) ≠ []) → Completes (.zonePiStep z u) s fun t =>
      t.zState z = s.zState z ∧
      ((t.zApplied z - s.zGet z zoLast 2) + (s.zGet z zoLast 2 - t.zApplied z) < s.zGet z zoStep 2 → t.zGet z zoPend 1 = s.zGet z zoPend 1 ∧ t.zGet z zoSent 1 = s.zGet z zoSent 1 ∧ t.zGet z zoSeq 2 = s.zGet z zoSeq 2 ∧ t.zGet z zoPLevel 2 = s.zGet z zoPLevel 2 ∧ t.zGet z zoPFade 2 = s.zGet z zoPFade 2) ∧
      (s.zGet z zoStep 2 ≤ (t.zApplied z - s.zGet z zoLast 2) + (s.zGet z zoLast 2 - t.zApplied z) → t.zGet z zoPend 1 = 1 ∧ t.zGet z zoSent 1 = 0 ∧ t.zGet z zoSeq 2 = (if s.zGet z zoPend 1 = 0 ∨ s.zGet z zoSent 1 ≠ 0 then (s.zGet z zoSeq 2 + 1) % 65536 else s.zGet z zoSeq 2) ∧ t.zGet z zoPLevel 2 = t.zApplied z ∧ t.zGet z zoPFade 2 = s.zGet z zoDlFade 2)) ∧
    (∀ (k z u : Nat) (q : ZoneKeys), s.callable k svcZone 2 = true → (z < 16384 ∧ s.zConf z = false ∧ q.pan.any (fun x => (s.panRec x).isSome) = true ∧ zoneKeysOk q = true) → Completes (.zoneSet k z q u) s fun t =>
      t.zConf z = true ∧ t.zState z = 0 ∧ t.zGet z zoPend 1 = 0 ∧ t.zGet z zoSent 1 = 0)

/-- A daylight report is kept as its member's latest; a report of another kind or value, or of a member of no configured
zone, is counted and discarded; one of an unknown node, or in a role that is not active, is not taken. The controller runs
when its time has come: from the mean of the members' values in the window it computes the integrator and the output,
clamped, in OCCUPIED and VACANT alone, and queues an entry from DL_STEP on; without a value it holds its output and reports
the silence once. An opportunity sends the first 16 pending entries, or as many as fit, in ascending order in one message,
counts both, and an entry goes after its last repeat; one that the duty account holds back is counted, with event 8, and
everything waits. Elsewhere only time moves on. Where the spec leaves a detail open it rests on the model's choices of log
entries 31 and 37. -/
def Obligations.ZoneControl : Prop :=
  ∀ s : State, s.Inv → 
    (∀ (n v a u : Nat), (s.rySends = true ∧ s.known n = true ∧ ((s.zonesOf n).any s.zConf) = true ∧ v ≤ 100000) → Completes (.zoneReportRx n 1 v a u) s fun t =>
      t = State.setZStat { s.advance u with ry := { s.ry with lux := Store.put n (v, a) s.ry.lux } } (s.nodePan n) { s.zStat (s.nodePan n) with taken := (s.zStat (s.nodePan n)).taken + 1 }) ∧
    (∀ (n c v a u : Nat), (s.rySends = true ∧ s.known n = true) → (((s.zonesOf n).any s.zConf) = false ∨ 2 < c ∨ (c = 1 ∧ 100000 < v) ∨ (c = 2 ∧ 1001 < v)) → Completes (.zoneReportRx n c v a u) s fun t =>
      t = State.setZStat (s.advance u) (s.nodePan n) { s.zStat (s.nodePan n) with discarded := (s.zStat (s.nodePan n)).discarded + 1 }) ∧
    (∀ (n c v a u : Nat), (s.rySends = false ∨ s.known n = false) → Completes (.zoneReportRx n c v a u) s fun t =>
      t = s.advance u) ∧
    (∀ (z : Fin 16384) (u : Nat) (l : List Nat), (s.pr.table.nodeLimit * 256 + (s.region 0).1 ≤ (s.region 7).1 ∨ (s.region 7).1 + 2 ^ 22 ≤ (s.region 0).1) → (s.rySends = true ∧ s.zConf z = true ∧ s.zGet z zoOn 1 = 1 ∧ s.zGet z zoDue 8 ≤ max s.mtb u) → (((s.zMembers z).filterMap (fun n => (Store.find? n s.ry.lux).bind (fun (x : Nat × Nat) => if max s.mtb u ≤ x.2 + s.zGet z zoWindow 2 * secCyc then some x.1 else none))) = l ∧ l ≠ []) → (s.zState z = 1 ∨ s.zState z = 2) → s.zGet z zoMin 2 ≤ 1000 → (max s.mtb u + 65536 * secCyc < 2 ^ 64 ∧ s.zGet z zoWindow 2 < 65536) → Completes (.zonePiStep z u) s fun t =>
      t.zGet z zoDue 8 = s.zGet z zoDue 8 + s.zGet z zoPeriod 2 * secCyc ∧
      (t.zGet z zoInteg 4 : Int) = max 0 (min 1024000 ((s.zGet z zoInteg 4 : Int) + s.zGet z zoKi 2 * ((s.zGet z zoLux 4 : Int) - (l.foldl (· + ·) 0 / l.length : Nat)))) ∧
      (t.zGet z zoOut 2 : Int) = max (s.zGet z zoMin 2 : Int) (min 1000 (Int.tdiv (s.zGet z zoKp 2 * ((s.zGet z zoLux 4 : Int) - (l.foldl (· + ·) 0 / l.length : Nat)) + t.zGet z zoInteg 4) 1024)) ∧
      t.zState z = s.zState z ∧ t.zGet z zoSilent 1 = 0 ∧ t.zGet z zoSeen 1 = 1 ∧
      ((t.zApplied z - s.zGet z zoLast 2) + (s.zGet z zoLast 2 - t.zApplied z) < s.zGet z zoStep 2 → t.zGet z zoPend 1 = s.zGet z zoPend 1 ∧ t.zGet z zoSent 1 = s.zGet z zoSent 1 ∧ t.zGet z zoSeq 2 = s.zGet z zoSeq 2 ∧ t.zGet z zoPLevel 2 = s.zGet z zoPLevel 2 ∧ t.zGet z zoPFade 2 = s.zGet z zoPFade 2) ∧
      (s.zGet z zoStep 2 ≤ (t.zApplied z - s.zGet z zoLast 2) + (s.zGet z zoLast 2 - t.zApplied z) → t.zGet z zoPend 1 = 1 ∧ t.zGet z zoSent 1 = 0 ∧ t.zGet z zoSeq 2 = (if s.zGet z zoPend 1 = 0 ∨ s.zGet z zoSent 1 ≠ 0 then (s.zGet z zoSeq 2 + 1) % 65536 else s.zGet z zoSeq 2) ∧ t.zGet z zoPLevel 2 = t.zApplied z ∧ t.zGet z zoPFade 2 = s.zGet z zoDlFade 2)) ∧
    (∀ (z : Fin 16384) (u : Nat), (s.pr.table.nodeLimit * 256 + (s.region 0).1 ≤ (s.region 7).1 ∨ (s.region 7).1 + 2 ^ 22 ≤ (s.region 0).1) → (s.rySends = true ∧ s.zConf z = true ∧ s.zGet z zoOn 1 = 1 ∧ s.zGet z zoDue 8 ≤ max s.mtb u) → (((s.zMembers z).filterMap (fun n => (Store.find? n s.ry.lux).bind (fun (x : Nat × Nat) => if max s.mtb u ≤ x.2 + s.zGet z zoWindow 2 * secCyc then some x.1 else none))) ≠ []) → (s.zState z ≠ 1 ∧ s.zState z ≠ 2) → Completes (.zonePiStep z u) s fun t =>
      t.zGet z zoSilent 1 = 0 ∧ t.zState z = s.zState z ∧
      t.zGet z zoInteg 4 = s.zGet z zoInteg 4 ∧ t.zGet z zoOut 2 = s.zGet z zoOut 2 ∧ t.zGet z zoPend 1 = s.zGet z zoPend 1 ∧ t.zGet z zoSent 1 = s.zGet z zoSent 1 ∧ t.zGet z zoSeq 2 = s.zGet z zoSeq 2 ∧ t.zGet z zoPLevel 2 = s.zGet z zoPLevel 2 ∧ t.zGet z zoPFade 2 = s.zGet z zoPFade 2) ∧
    (∀ (z : Fin 16384) (u : Nat), (s.pr.table.nodeLimit * 256 + (s.region 0).1 ≤ (s.region 7).1 ∨ (s.region 7).1 + 2 ^ 22 ≤ (s.region 0).1) → (s.rySends = true ∧ s.zConf z = true ∧ s.zGet z zoOn 1 = 1 ∧ s.zGet z zoDue 8 ≤ max s.mtb u) → (((s.zMembers z).filterMap (fun n => (Store.find? n s.ry.lux).bind (fun (x : Nat × Nat) => if max s.mtb u ≤ x.2 + s.zGet z zoWindow 2 * secCyc then some x.1 else none))) = []) → Completes (.zonePiStep z u) s fun t =>
      (t.zGet z zoSilent 1 = (if s.zGet z zoSilent 1 = 1 then s.zGet z zoSilent 1 else 1)) ∧
      (s.zGet z zoSilent 1 ≠ 1 → (0x201C0000, 7, max s.mtb u) ∈ t.notes) ∧
      t.zGet z zoOut 2 = s.zGet z zoOut 2 ∧ t.zGet z zoInteg 4 = s.zGet z zoInteg 4 ∧ t.zState z = s.zState z ∧ t.zGet z zoPend 1 = s.zGet z zoPend 1 ∧ t.zGet z zoSent 1 = s.zGet z zoSent 1 ∧ t.zGet z zoSeq 2 = s.zGet z zoSeq 2 ∧ t.zGet z zoPLevel 2 = s.zGet z zoPLevel 2 ∧ t.zGet z zoPFade 2 = s.zGet z zoPFade 2) ∧
    (∀ (z : Fin 16384) (u : Nat), (¬ (s.rySends = true ∧ s.zConf z = true ∧ s.zGet z zoOn 1 = 1 ∧ s.zGet z zoDue 8 ≤ max s.mtb u)) → Completes (.zonePiStep z u) s fun t =>
      t = s.advance u) ∧
    (∀ (p : Fin 16) (f u : Nat), (s.rySends = true ∧ 1 ≤ f ∧ s.zPending p ≠ []) → Completes (.zoneBroadcastOpportunity p f false u) s fun t =>
      .ryurix (.zoneCmd p (((s.zPending p).take (min 16 f)).map (fun z => (z, s.zGet z zoSeq 2, s.zGet z zoPLevel 2, s.zGet z zoPFade 2)))) ∈ t.out ∧
      t.zStat p = { s.zStat p with commands := (s.zStat p).commands + 1, entries := (s.zStat p).entries + ((s.zPending p).take (min 16 f)).length } ∧
      (((s.zPending p).take (min 16 f)).all (fun z => if s.zGet z zoRepeat 1 ≤ s.zGet z zoSent 1 then decide (t.zGet z zoPend 1 = 0 ∧ t.zGet z zoSent 1 = 0) else decide (t.zGet z zoPend 1 = 1 ∧ t.zGet z zoSent 1 = (s.zGet z zoSent 1 + 1) % 256)) = true) ∧
      ((s.zPending p).drop (min 16 f)).all (fun z => decide (t.zGet z zoPend 1 = 1 ∧ t.zGet z zoSent 1 = s.zGet z zoSent 1)) = true) ∧
    (∀ (p : Fin 16) (f u : Nat), (s.rySends = true ∧ 1 ≤ f ∧ s.zPending p ≠ []) → Completes (.zoneBroadcastOpportunity p f true u) s fun t =>
      t = (State.setZStat (s.advance u) p { s.zStat p with delayed := (s.zStat p).delayed + 1 }).ryEvent 8) ∧
    (∀ (p : Fin 16) (f u : Nat) (h : Bool), (s.rySends = false ∨ f = 0 ∨ s.zPending p = []) → Completes (.zoneBroadcastOpportunity p f h u) s fun t =>
      t = s.advance u)

/-- Zone set takes the keys it names, the others keep their values or take their defaults on the first set, which starts the
zone anew; daylight control switched on has its first step one period later. Without a PAN on the first set, of a PAN without
a record and with a value out of range it answers ST_RYURIX_ARG; another PAN of a zone with members ZONE_PAN. Add enters each
node into the lowest free entry of its record and sends it its list, a member already counts as added; it stops at the first
node that cannot join, with UNKNOWN_NODE, ZONE_PAN or ZONE_FULL and the number added. Remove clears the entries of those who
are members and counts them; delete removes every member and unconfigures the zone. Override and release of a zone not
configured answer ZONE_UNSET, as add, remove and delete do; release of a zone not in OVERRIDE changes nothing. A call that
may not make its change leaves what turnedAway says. Where the spec leaves a detail open it rests on the model's choices of
log entries 31 and 37. -/
def Obligations.ZoneService : Prop :=
  ∀ s : State, s.Inv → 
    (∀ (k z u p : Nat) (q : ZoneKeys), s.callable k svcZone 2 = true → (z < 16384 ∧ s.zConf z = false ∧ q.pan.any (fun x => (s.panRec x).isSome) = true ∧ zoneKeysOk q = true ∧ q.pan = some p) → max s.mtb u + 65536 * secCyc < 2 ^ 64 → Completes (.zoneSet k z q u) s fun t =>
      t.answer? k = some (ST.OK, []) ∧
      t.zConf z = true ∧ t.zPan z = p % 256 ∧
      [t.zGet z zoOcc 2, t.zGet z zoVac 2, t.zGet z zoIdle 2] = q.levels.getD [1000, 200, 0] ∧
      [t.zGet z zoHoldS 2, t.zGet z zoVacS 2, t.zGet z zoOvrS 2] = q.times.getD [120, 600, 3600] ∧
      [t.zGet z zoUp 2, t.zGet z zoDown 2, t.zGet z zoDlFade 2] = q.fades.getD [500, 4000, 10000] ∧
      [t.zGet z zoOn 1, t.zGet z zoLux 4, t.zGet z zoKp 2, t.zGet z zoKi 2, t.zGet z zoMin 2, t.zGet z zoStep 2] = q.light.getD [0, 300, 512, 64, 100, 20] ∧
      [t.zGet z zoPeriod 2, t.zGet z zoWindow 2] = q.period.getD [10, 300] ∧
      t.zGet z zoRepeat 1 = q.rep.getD 2 ∧
      (t.zGet z zoOn 1 = 1 → t.zGet z zoDue 8 = max s.mtb u + t.zGet z zoPeriod 2 * secCyc) ∧
      t.zGet z zoEver 1 = 0 ∧ t.zGet z zoSeq 2 = 0 ∧ t.zGet z zoLast 2 = t.zGet z zoIdle 2) ∧
    (∀ (k z u : Nat) (q : ZoneKeys), s.callable k svcZone 2 = true → (z < 16384 ∧ s.zConf z = true ∧ (s.panRec (q.pan.getD (s.zPan z))).isSome = true ∧ zoneKeysOk q = true) → (q.pan.getD (s.zPan z) = s.zPan z ∨ s.zMembers z = []) → max s.mtb u + 65536 * secCyc < 2 ^ 64 → Completes (.zoneSet k z q u) s fun t =>
      t.answer? k = some (ST.OK, []) ∧
      t.zConf z = true ∧ t.zPan z = q.pan.getD (s.zPan z) % 256 ∧
      [t.zGet z zoOcc 2, t.zGet z zoVac 2, t.zGet z zoIdle 2] = q.levels.getD [s.zGet z zoOcc 2, s.zGet z zoVac 2, s.zGet z zoIdle 2] ∧
      [t.zGet z zoHoldS 2, t.zGet z zoVacS 2, t.zGet z zoOvrS 2] = q.times.getD [s.zGet z zoHoldS 2, s.zGet z zoVacS 2, s.zGet z zoOvrS 2] ∧
      [t.zGet z zoUp 2, t.zGet z zoDown 2, t.zGet z zoDlFade 2] = q.fades.getD [s.zGet z zoUp 2, s.zGet z zoDown 2, s.zGet z zoDlFade 2] ∧
      [t.zGet z zoOn 1, t.zGet z zoLux 4, t.zGet z zoKp 2, t.zGet z zoKi 2, t.zGet z zoMin 2, t.zGet z zoStep 2] = q.light.getD [s.zGet z zoOn 1, s.zGet z zoLux 4, s.zGet z zoKp 2, s.zGet z zoKi 2, s.zGet z zoMin 2, s.zGet z zoStep 2] ∧
      [t.zGet z zoPeriod 2, t.zGet z zoWindow 2] = q.period.getD [s.zGet z zoPeriod 2, s.zGet z zoWindow 2] ∧
      t.zGet z zoRepeat 1 = q.rep.getD (s.zGet z zoRepeat 1) ∧
      (t.zGet z zoOn 1 = 1 ∧ s.zGet z zoOn 1 ≠ 1 → t.zGet z zoDue 8 = max s.mtb u + t.zGet z zoPeriod 2 * secCyc) ∧
      t.zState z = s.zState z ∧ t.zGet z zoDeadline 8 = s.zGet z zoDeadline 8 ∧ t.zGet z zoPend 1 = s.zGet z zoPend 1 ∧ t.zGet z zoSent 1 = s.zGet z zoSent 1 ∧ t.zGet z zoSeq 2 = s.zGet z zoSeq 2 ∧ t.zGet z zoPLevel 2 = s.zGet z zoPLevel 2 ∧ t.zGet z zoPFade 2 = s.zGet z zoPFade 2) ∧
    (∀ (k z u : Nat) (q : ZoneKeys), s.callable k svcZone 2 = true → (z < 16384 ∧ s.zConf z = true ∧ (s.panRec (q.pan.getD (s.zPan z))).isSome = true ∧ zoneKeysOk q = true) → (q.pan.getD (s.zPan z) ≠ s.zPan z ∧ s.zMembers z ≠ []) → Completes (.zoneSet k z q u) s fun t =>
      t.answer? k = some (ST.RYURIX_ZONE_PAN, []) ∧
      t.mem = s.mem ∧ t.ry = s.ry) ∧
    (∀ (k z u : Nat) (q : ZoneKeys), s.callable k svcZone 2 = true → (16384 ≤ z ∨ (s.zConf z = false ∧ q.pan = none) ∨ (s.panRec (q.pan.getD (s.zPan z))).isNone = true ∨ zoneKeysOk q = false) → Completes (.zoneSet k z q u) s fun t =>
      t.answer? k = some (ST.RYURIX_ARG, []) ∧
      t.mem = s.mem ∧ t.ry = s.ry) ∧
    (∀ (k : Nat) (z u : Nat) (q : ZoneKeys), s.callable k svcZone 2 = false → Completes (.zoneSet k z q u) s fun t =>
      (s.advance u).turnedAway t k svcZone 2) ∧
    (∀ (k z : Nat) (l : List Nat), s.callable k svcZone 3 = true → (z < 16384 ∧ s.zConf z = true ∧ l.length ≤ 1024) → (s.pr.table.nodeLimit * 256 + (s.region 0).1 ≤ (s.region 7).1 ∨ (s.region 7).1 + 2 ^ 22 ≤ (s.region 0).1) → l.all (fun n => (s.known n && decide (s.nodePan n = s.zPan z) && ((s.zonesOf n).contains z || (List.range 4).any (fun j => !bitOf (s.recGet n (96 + 2 * j) 2) 15)))) = true → Completes (.zoneAddMembers k z l) s fun t =>
      t.answer? k = some (ST.OK, [(20, [l.length])]) ∧
      (∀ n ∈ l, z ∈ t.zonesOf n) ∧
      (∀ n ∈ l, z ∉ s.zonesOf n ∧ l.count n = 1 → .ryurix (.zones n (t.zonesOf n)) ∈ t.out)) ∧
    (∀ (k z n i : Nat), s.callable k svcZone 3 = true → (z < 16384 ∧ s.zConf z = true ∧ s.known n = true ∧ s.nodePan n = s.zPan z ∧ z ∉ s.zonesOf n) → (i < 4 ∧ bitOf (s.recGet n (96 + 2 * i) 2) 15 = false ∧ (List.range i).all (fun j => bitOf (s.recGet n (96 + 2 * j) 2) 15) = true) → Completes (.zoneAddMembers k z [n]) s fun t =>
      t.answer? k = some (ST.OK, [(20, [1])]) ∧
      t.recGet n (96 + 2 * i) 2 = 0x8000 + z) ∧
    (∀ (k z n : Nat) (l m : List Nat), s.callable k svcZone 3 = true → (z < 16384 ∧ s.zConf z = true ∧ l.length + m.length < 1024) → (s.pr.table.nodeLimit * 256 + (s.region 0).1 ≤ (s.region 7).1 ∨ (s.region 7).1 + 2 ^ 22 ≤ (s.region 0).1) → (l.all (fun n => (s.known n && decide (s.nodePan n = s.zPan z) && ((s.zonesOf n).contains z || (List.range 4).any (fun j => !bitOf (s.recGet n (96 + 2 * j) 2) 15)))) = true ∧ (s.known n && decide (s.nodePan n = s.zPan z) && ((s.zonesOf n).contains z || (List.range 4).any (fun j => !bitOf (s.recGet n (96 + 2 * j) 2) 15))) = false) → Completes (.zoneAddMembers k z (l ++ n :: m)) s fun t =>
      (t.answer? k = some (if s.known n = false then ST.RYURIX_UNKNOWN_NODE else if s.nodePan n ≠ s.zPan z then ST.RYURIX_ZONE_PAN else ST.RYURIX_ZONE_FULL, [(20, [l.length])])) ∧
      (∀ n ∈ l, z ∈ t.zonesOf n) ∧
      (l = [] → t.mem = s.mem ∧ t.out = s.out)) ∧
    (∀ (k z : Nat) (l : List Nat), s.callable k svcZone 3 = true → (16384 ≤ z ∨ 1024 < l.length ∨ s.zConf z = false) → Completes (.zoneAddMembers k z l) s fun t =>
      (t.answer? k = some (if 16384 ≤ z ∨ 1024 < l.length then ST.RYURIX_ARG else ST.RYURIX_ZONE_UNSET, [])) ∧
      t.mem = s.mem ∧ t.ry = s.ry) ∧
    (∀ (k : Nat) (z : Nat) (l : List Nat), s.callable k svcZone 3 = false → Completes (.zoneAddMembers k z l) s fun t =>
      s.turnedAway t k svcZone 3) ∧
    (∀ (k z n j : Nat) (l : List Nat), s.callable k svcZone 4 = true → (z < 16384 ∧ s.zConf z = true ∧ l.length ≤ 1024) → (s.pr.table.nodeLimit * 256 + (s.region 0).1 ≤ (s.region 7).1 ∨ (s.region 7).1 + 2 ^ 22 ≤ (s.region 0).1) → (n ∈ l ∧ s.known n = true ∧ j < 4 ∧ s.recGet n (96 + 2 * j) 2 = 0x8000 + z ∧ (List.range j).all (fun i => s.recGet n (96 + 2 * i) 2 != 0x8000 + z) = true) → Completes (.zoneRemoveMembers k z l) s fun t =>
      t.answer? k = some (ST.OK, [(20, [(l.filter (fun n => s.known n && (s.zonesOf n).contains z)).length])]) ∧
      t.recGet n (96 + 2 * j) 2 = 0 ∧
      (l.count n = 1 → .ryurix (.zones n (t.zonesOf n)) ∈ t.out)) ∧
    (∀ (k z : Nat) (l : List Nat), s.callable k svcZone 4 = true → (z < 16384 ∧ s.zConf z = true ∧ l.length ≤ 1024) → l.any (fun n => s.known n && (s.zonesOf n).contains z) = false → Completes (.zoneRemoveMembers k z l) s fun t =>
      t.answer? k = some (ST.OK, [(20, [0])]) ∧
      t.mem = s.mem ∧ t.ry = s.ry ∧ t.out = s.out) ∧
    (∀ (k z : Nat) (l : List Nat), s.callable k svcZone 4 = true → (16384 ≤ z ∨ 1024 < l.length ∨ s.zConf z = false) → Completes (.zoneRemoveMembers k z l) s fun t =>
      (t.answer? k = some (if 16384 ≤ z ∨ 1024 < l.length then ST.RYURIX_ARG else ST.RYURIX_ZONE_UNSET, [])) ∧
      t.mem = s.mem ∧ t.ry = s.ry) ∧
    (∀ (k : Nat) (z : Nat) (l : List Nat), s.callable k svcZone 4 = false → Completes (.zoneRemoveMembers k z l) s fun t =>
      s.turnedAway t k svcZone 4) ∧
    (∀ (k z v d u : Nat), s.callable k svcZone 5 = true → (16384 ≤ z ∨ 1000 < v ∨ 65535 < d ∨ s.zConf z = false) → Completes (.zoneOverride k z v d u) s fun t =>
      (t.answer? k = some (if 16384 ≤ z ∨ 1000 < v ∨ 65535 < d then ST.RYURIX_ARG else ST.RYURIX_ZONE_UNSET, [])) ∧
      t.mem = s.mem ∧ t.ry = s.ry) ∧
    (∀ (k : Nat) (z v d u : Nat), s.callable k svcZone 5 = false → Completes (.zoneOverride k z v d u) s fun t =>
      (s.advance u).turnedAway t k svcZone 5) ∧
    (∀ (k z u : Nat), s.callable k svcZone 6 = true → (16384 ≤ z ∨ s.zConf z = false ∨ s.zState z ≠ 3) → Completes (.zoneRelease k z u) s fun t =>
      (t.answer? k = some (if 16384 ≤ z then ST.RYURIX_ARG else if s.zConf z = false then ST.RYURIX_ZONE_UNSET else ST.OK, [])) ∧
      t.mem = s.mem ∧ t.ry = s.ry) ∧
    (∀ (k : Nat) (z u : Nat), s.callable k svcZone 6 = false → Completes (.zoneRelease k z u) s fun t =>
      (s.advance u).turnedAway t k svcZone 6) ∧
    (∀ (k z n j : Nat), s.callable k svcZone 8 = true → (z < 16384 ∧ s.zConf z = true) → Completes (.zoneDelete k z) s fun t =>
      t.answer? k = some (ST.OK, []) ∧
      t.zConf z = false ∧ (List.range 256).all (fun i => t.zGet z i 1 == 0) = true ∧
      ((s.pr.table.nodeLimit * 256 + (s.region 0).1 ≤ (s.region 7).1 ∨ (s.region 7).1 + 2 ^ 22 ≤ (s.region 0).1) ∧ n ∈ s.zMembers z ∧ j < 4 ∧ s.recGet n (96 + 2 * j) 2 = 0x8000 + z ∧ (List.range j).all (fun i => s.recGet n (96 + 2 * i) 2 != 0x8000 + z) = true → t.recGet n (96 + 2 * j) 2 = 0)) ∧
    (∀ (k z : Nat), s.callable k svcZone 8 = true → (16384 ≤ z ∨ s.zConf z = false) → Completes (.zoneDelete k z) s fun t =>
      (t.answer? k = some (if 16384 ≤ z then ST.RYURIX_ARG else ST.RYURIX_ZONE_UNSET, [])) ∧
      t.mem = s.mem ∧ t.ry = s.ry) ∧
    (∀ (k : Nat) (z : Nat), s.callable k svcZone 8 = false → Completes (.zoneDelete k z) s fun t =>
      s.turnedAway t k svcZone 8)

/-- The engine takes the command at the head of its queue, a block in memory or a call, while no command and no key-store
write is in progress, ROOT runs and no engine it needs is gated; else nothing happens. One that fails a check of R409 changes
no slot or root, is counted as refused and ends with that status; a change without room for its record ends with
ST_ROLE_AUDIT_BUSY. One that passes: GENERATE, DERIVE and IMPORT put a key with the attribute word of its origin into SLOT,
or the lowest free one for 0xFFFF, and end with its number, a persistent one after the key-store write that starts (BUSY and
STORE_BUSY); an input that does not unwrap ends with KEY_UNWRAP; EXPORT gives the RFC 3394 wrap; RESTRICT clears usage,
export and role bits alone; DESTROY takes the slot away, with two blobs where it was persistent. A request that names no
operation ends with KEY_RANGE. Where the spec leaves a detail open it rests on the model's choices of log entries 20 and 38.
-/
def Obligations.KeyChanges : Prop :=
  ∀ s : State, s.Inv → 
    (∀ (r : KeyReq) (b : KeyBlk) (v : Nat), (s.keyTurn 1 r = true ∧ s.reqBlk r = b) → s.keyCheck 1 b = none → ((if b.slot = 0xFFFF then s.freeSlot else some b.slot) = some v) → attrPersist b.attr = false → Completes .keyGenerate s fun t =>
      t.keyTold r ST.OK v = true ∧
      (t.keySlot v).map (fun (x : KeySlot) => x.attr) = some (attrWord 1 b.attr) ∧
      (∀ k ∈ s.ky.slots, k.1 ≠ v → t.keySlot k.1 = s.keySlot k.1) ∧
      t.ky.job = none ∧
      (t.getF R.KEY_DRBG_REQS = (if 1048576 ≤ s.getF R.KEY_DRBG_REQS then 1 else s.getF R.KEY_DRBG_REQS + 1) % 2 ^ R.KEY_DRBG_REQS.width) ∧
      t.ky.fifo = s.ky.fifo.tail) ∧
    (∀ (r : KeyReq) (b : KeyBlk) (v : Nat), (s.keyTurn 1 r = true ∧ s.reqBlk r = b) → s.keyCheck 1 b = none → ((if b.slot = 0xFFFF then s.freeSlot else some b.slot) = some v) → attrPersist b.attr = true → Completes .keyGenerate s fun t =>
      t.ky.job.map (fun (j : KeyJob) => (j.req, j.op, j.result, j.writes.length)) = some (r, 1, v, 1) ∧
      t.getF R.KEY_CMD_STAT_BUSY = 1 ∧ t.getF R.KEY_CMD_STAT_STORE_BUSY = 1 ∧
      t.cmp = s.cmp ∧ t.mem = s.mem ∧
      (t.keySlot v).map (fun (x : KeySlot) => x.attr) = some (attrWord 1 b.attr) ∧
      (∀ k ∈ s.ky.slots, k.1 ≠ v → t.keySlot k.1 = s.keySlot k.1) ∧
      (t.getF R.KEY_DRBG_REQS = (if 1048576 ≤ s.getF R.KEY_DRBG_REQS then 1 else s.getF R.KEY_DRBG_REQS + 1) % 2 ^ R.KEY_DRBG_REQS.width) ∧
      t.ky.fifo = s.ky.fifo.tail) ∧
    (∀ (r : KeyReq) (b : KeyBlk) (st : Nat), (s.keyHead 1 r = true ∧ s.reqBlk r = b ∧ s.keyCheck b.op b = some st) → Completes .keyGenerate s fun t =>
      t.keyTold r st 0 = true ∧
      t.ky.slots = s.ky.slots ∧ t.ky.fifo = s.ky.fifo.tail ∧ t.ky.job = none ∧ t.ky.root = s.ky.root ∧
      t.getF R.KEY_COUNT0_REFUSED = (s.getF R.KEY_COUNT0_REFUSED + 1) % 2 ^ R.KEY_COUNT0_REFUSED.width) ∧
    (∀ (r : KeyReq) (b : KeyBlk), (s.keyHead 1 r = true ∧ s.reqBlk r = b ∧ b.op = 1 ∧ s.keyCheck 1 b = none ∧ s.auditRoom = false) → Completes .keyGenerate s fun t =>
      t.keyTold r ST.ROLE_AUDIT_BUSY 0 = true ∧
      t.ky.slots = s.ky.slots ∧ t.ky.fifo = s.ky.fifo.tail ∧ t.ky.root = s.ky.root ∧ t.getF R.ROLE_EVENT_AUDIT_BUSY = 1) ∧
    (s.ky.fifo.head?.all (fun r => !s.keyHead 1 r) = true → Completes .keyGenerate s fun t =>
      t = s) ∧
    (∀ (a v : Nat), (s.keyTurn 1 (.blk a) = true ∧ s.keyCheck 1 (s.keyBlkAt a) = none) → attrPersist (s.keyBlkAt a).attr = false → Completes .keyGenerate s fun t =>
      (∀ c : Nat, c < a + 1 ∨ a + 4 ≤ c ∧ c < a + 32 ∨ a + 36 ≤ c → t.readByte c = s.readByte c)) ∧
    (∀ (r : KeyReq) (b : KeyBlk) (v : Nat), (s.keyTurn 2 r = true ∧ s.reqBlk r = b) → s.keyCheck 2 b = none → ((if b.slot = 0xFFFF then s.freeSlot else some b.slot) = some v) → attrPersist b.attr = false → Completes .keyDerive s fun t =>
      t.keyTold r ST.OK v = true ∧
      (t.keySlot v = some ⟨attrWord 0 b.attr, if b.slot2 = 0xFFFF then derived s.ky.root (ascii "work" ++ nats b.input) (attrType b.attr) else derived (((s.keySlot b.slot2).map (fun (x : KeySlot) => x.mat)).getD 0) (nats b.input) (attrType b.attr)⟩) ∧
      (∀ k ∈ s.ky.slots, k.1 ≠ v → t.keySlot k.1 = s.keySlot k.1) ∧
      t.ky.job = none ∧
      t.ky.fifo = s.ky.fifo.tail) ∧
    (∀ (r : KeyReq) (b : KeyBlk) (v : Nat), (s.keyTurn 2 r = true ∧ s.reqBlk r = b) → s.keyCheck 2 b = none → ((if b.slot = 0xFFFF then s.freeSlot else some b.slot) = some v) → attrPersist b.attr = true → Completes .keyDerive s fun t =>
      t.ky.job.map (fun (j : KeyJob) => (j.req, j.op, j.result, j.writes.length)) = some (r, 2, v, 1) ∧
      t.getF R.KEY_CMD_STAT_BUSY = 1 ∧ t.getF R.KEY_CMD_STAT_STORE_BUSY = 1 ∧
      t.cmp = s.cmp ∧ t.mem = s.mem ∧
      (t.keySlot v = some ⟨attrWord 0 b.attr, if b.slot2 = 0xFFFF then derived s.ky.root (ascii "work" ++ nats b.input) (attrType b.attr) else derived (((s.keySlot b.slot2).map (fun (x : KeySlot) => x.mat)).getD 0) (nats b.input) (attrType b.attr)⟩) ∧
      (∀ k ∈ s.ky.slots, k.1 ≠ v → t.keySlot k.1 = s.keySlot k.1) ∧
      t.ky.fifo = s.ky.fifo.tail) ∧
    (∀ (r : KeyReq) (b : KeyBlk) (v : Nat), (s.keyTurn 2 r = true ∧ s.reqBlk r = b) → s.keyCheck 2 b = none → ((if b.slot = 0xFFFF then s.freeSlot else some b.slot) = some v) → (attrPersist b.attr = false ∧ b.slot2 = 0xFFFF) → Completes .keyDerive s fun t =>
      t.keySlot v = some ⟨attrWord 0 b.attr, derived s.ky.root (ascii "work" ++ nats b.input) (attrType b.attr)⟩ ∧
      t.ky.fifo = s.ky.fifo.tail) ∧
    (∀ (r : KeyReq) (b : KeyBlk) (st : Nat), (s.keyHead 2 r = true ∧ s.reqBlk r = b ∧ s.keyCheck b.op b = some st) → Completes .keyDerive s fun t =>
      t.keyTold r st 0 = true ∧
      t.ky.slots = s.ky.slots ∧ t.ky.fifo = s.ky.fifo.tail ∧ t.ky.job = none ∧ t.ky.root = s.ky.root ∧
      t.getF R.KEY_COUNT0_REFUSED = (s.getF R.KEY_COUNT0_REFUSED + 1) % 2 ^ R.KEY_COUNT0_REFUSED.width) ∧
    (∀ (r : KeyReq) (b : KeyBlk), (s.keyHead 2 r = true ∧ s.reqBlk r = b ∧ b.op = 2 ∧ s.keyCheck 2 b = none ∧ s.auditRoom = false) → Completes .keyDerive s fun t =>
      t.keyTold r ST.ROLE_AUDIT_BUSY 0 = true ∧
      t.ky.slots = s.ky.slots ∧ t.ky.fifo = s.ky.fifo.tail ∧ t.ky.root = s.ky.root ∧ t.getF R.ROLE_EVENT_AUDIT_BUSY = 1) ∧
    (s.ky.fifo.head?.all (fun r => !s.keyHead 2 r) = true → Completes .keyDerive s fun t =>
      t = s) ∧
    (∀ (r : KeyReq) (b : KeyBlk) (v : Nat) (q : KeySlot), (s.keyTurn 3 r = true ∧ s.reqBlk r = b) → s.keyCheck 3 b = none → ((if b.slot = 0xFFFF then s.freeSlot else some b.slot) = some v) → s.keySlot b.slot2 = some q → Completes .keyImport s fun t =>
      (Config.unwrap q.mat b.input.length (beNat b.input) = none → t.keyTold r ST.KEY_UNWRAP 0 = true ∧ t.ky.slots = s.ky.slots ∧ t.ky.job = none) ∧
      (∀ m ∈ Config.unwrap q.mat b.input.length (beNat b.input), t.keySlot v = some ⟨attrWord 2 b.attr, m⟩ ∧ (attrPersist b.attr = false → t.keyTold r ST.OK v = true ∧ t.ky.job = none)) ∧
      (∀ m ∈ Config.unwrap q.mat b.input.length (beNat b.input), attrPersist b.attr = true → t.ky.job.map (fun (j : KeyJob) => (j.req, j.op, j.result, j.writes.length)) = some (r, 3, v, 1) ∧ t.getF R.KEY_CMD_STAT_BUSY = 1) ∧
      t.ky.fifo = s.ky.fifo.tail) ∧
    (∀ (r : KeyReq) (b : KeyBlk) (st : Nat), (s.keyHead 3 r = true ∧ s.reqBlk r = b ∧ s.keyCheck b.op b = some st) → Completes .keyImport s fun t =>
      t.keyTold r st 0 = true ∧
      t.ky.slots = s.ky.slots ∧ t.ky.fifo = s.ky.fifo.tail ∧ t.ky.job = none ∧ t.ky.root = s.ky.root ∧
      t.getF R.KEY_COUNT0_REFUSED = (s.getF R.KEY_COUNT0_REFUSED + 1) % 2 ^ R.KEY_COUNT0_REFUSED.width) ∧
    (∀ (r : KeyReq) (b : KeyBlk), (s.keyHead 3 r = true ∧ s.reqBlk r = b ∧ b.op = 3 ∧ s.keyCheck 3 b = none ∧ s.auditRoom = false) → Completes .keyImport s fun t =>
      t.keyTold r ST.ROLE_AUDIT_BUSY 0 = true ∧
      t.ky.slots = s.ky.slots ∧ t.ky.fifo = s.ky.fifo.tail ∧ t.ky.root = s.ky.root ∧ t.getF R.ROLE_EVENT_AUDIT_BUSY = 1) ∧
    (s.ky.fifo.head?.all (fun r => !s.keyHead 3 r) = true → Completes .keyImport s fun t =>
      t = s) ∧
    (∀ (r : KeyReq) (b : KeyBlk) (p q : KeySlot), (s.keyTurn 4 r = true ∧ s.reqBlk r = b) → s.keyCheck 4 b = none → (s.keySlot b.slot = some p ∧ s.keySlot b.slot2 = some q) → Completes .keyExport s fun t =>
      t.keyGave r b (beBytes (keyOctets (attrType p.attr) + 8) (Config.wrap q.mat (keyOctets (attrType p.attr)) p.mat)) = true ∧
      t.ky.slots = s.ky.slots ∧
      t.ky.fifo = s.ky.fifo.tail) ∧
    (∀ (r : KeyReq) (b : KeyBlk) (st : Nat), (s.keyHead 4 r = true ∧ s.reqBlk r = b ∧ s.keyCheck b.op b = some st) → Completes .keyExport s fun t =>
      t.keyTold r st 0 = true ∧
      t.ky.slots = s.ky.slots ∧ t.ky.fifo = s.ky.fifo.tail ∧ t.ky.job = none ∧ t.ky.root = s.ky.root ∧
      t.getF R.KEY_COUNT0_REFUSED = (s.getF R.KEY_COUNT0_REFUSED + 1) % 2 ^ R.KEY_COUNT0_REFUSED.width) ∧
    (s.ky.fifo.head?.all (fun r => !s.keyHead 4 r) = true → Completes .keyExport s fun t =>
      t = s) ∧
    (∀ (r : KeyReq) (b : KeyBlk) (p : KeySlot), (s.keyTurn 5 r = true ∧ s.reqBlk r = b) → s.keyCheck 5 b = none → s.keySlot b.slot = some p → (attrPersist p.attr = false ∧ p.attr < 2 ^ 32) → Completes .keyRestrict s fun t =>
      t.keyTold r ST.OK 0 = true ∧ t.ky.job = none ∧
      t.keySlot b.slot = some ⟨(p.attr &&& 0xFF0047FF) ||| (p.attr &&& 0x00FFB800 &&& b.attr), p.mat⟩ ∧
      t.ky.fifo = s.ky.fifo.tail) ∧
    (∀ (r : KeyReq) (b : KeyBlk) (p : KeySlot), (s.keyTurn 5 r = true ∧ s.reqBlk r = b) → s.keyCheck 5 b = none → s.keySlot b.slot = some p → (attrPersist p.attr = true ∧ p.attr < 2 ^ 32) → Completes .keyRestrict s fun t =>
      t.ky.job.map (fun (j : KeyJob) => (j.req, j.op, j.result, j.writes.length)) = some (r, 5, 0, 1) ∧
      t.getF R.KEY_CMD_STAT_BUSY = 1 ∧ t.getF R.KEY_CMD_STAT_STORE_BUSY = 1 ∧
      t.cmp = s.cmp ∧ t.mem = s.mem ∧
      t.keySlot b.slot = some ⟨(p.attr &&& 0xFF0047FF) ||| (p.attr &&& 0x00FFB800 &&& b.attr), p.mat⟩ ∧
      t.ky.fifo = s.ky.fifo.tail) ∧
    (∀ (r : KeyReq) (b : KeyBlk) (st : Nat), (s.keyHead 5 r = true ∧ s.reqBlk r = b ∧ s.keyCheck b.op b = some st) → Completes .keyRestrict s fun t =>
      t.keyTold r st 0 = true ∧
      t.ky.slots = s.ky.slots ∧ t.ky.fifo = s.ky.fifo.tail ∧ t.ky.job = none ∧ t.ky.root = s.ky.root ∧
      t.getF R.KEY_COUNT0_REFUSED = (s.getF R.KEY_COUNT0_REFUSED + 1) % 2 ^ R.KEY_COUNT0_REFUSED.width) ∧
    (∀ (r : KeyReq) (b : KeyBlk), (s.keyHead 5 r = true ∧ s.reqBlk r = b ∧ b.op = 5 ∧ s.keyCheck 5 b = none ∧ s.auditRoom = false) → Completes .keyRestrict s fun t =>
      t.keyTold r ST.ROLE_AUDIT_BUSY 0 = true ∧
      t.ky.slots = s.ky.slots ∧ t.ky.fifo = s.ky.fifo.tail ∧ t.ky.root = s.ky.root ∧ t.getF R.ROLE_EVENT_AUDIT_BUSY = 1) ∧
    (s.ky.fifo.head?.all (fun r => !s.keyHead 5 r) = true → Completes .keyRestrict s fun t =>
      t = s) ∧
    (∀ (r : KeyReq) (b : KeyBlk) (p : KeySlot), (s.keyTurn 6 r = true ∧ s.reqBlk r = b) → s.keyCheck 6 b = none → s.keySlot b.slot = some p → Completes .keyDestroy s fun t =>
      t.keySlot b.slot = none ∧
      (attrPersist p.attr = false → t.keyTold r ST.OK 0 = true ∧ t.ky.job = none) ∧
      (attrPersist p.attr = true → t.ky.job.map (fun (j : KeyJob) => (j.req, j.writes.map (fun (w : KeyWrite) => w.area), j.writes.map (fun (w : KeyWrite) => w.blob.map (fun (x : KeyBlob) => (x.gen, x.pending))))) = some (r, [1 - s.ky.newest, s.ky.newest], [some (s.ky.gen + 1, true), some (s.ky.gen + 2, false)])) ∧
      (attrPersist p.attr = true → t.getF R.KEY_CMD_STAT_BUSY = 1 ∧ t.getF R.KEY_CMD_STAT_STORE_BUSY = 1 ∧ t.cmp = s.cmp) ∧
      t.ky.fifo = s.ky.fifo.tail) ∧
    (∀ (r : KeyReq) (b : KeyBlk) (st : Nat), (s.keyHead 6 r = true ∧ s.reqBlk r = b ∧ s.keyCheck b.op b = some st) → Completes .keyDestroy s fun t =>
      t.keyTold r st 0 = true ∧
      t.ky.slots = s.ky.slots ∧ t.ky.fifo = s.ky.fifo.tail ∧ t.ky.job = none ∧ t.ky.root = s.ky.root ∧
      t.getF R.KEY_COUNT0_REFUSED = (s.getF R.KEY_COUNT0_REFUSED + 1) % 2 ^ R.KEY_COUNT0_REFUSED.width) ∧
    (∀ (r : KeyReq) (b : KeyBlk), (s.keyHead 6 r = true ∧ s.reqBlk r = b ∧ b.op = 6 ∧ s.keyCheck 6 b = none ∧ s.auditRoom = false) → Completes .keyDestroy s fun t =>
      t.keyTold r ST.ROLE_AUDIT_BUSY 0 = true ∧
      t.ky.slots = s.ky.slots ∧ t.ky.fifo = s.ky.fifo.tail ∧ t.ky.root = s.ky.root ∧ t.getF R.ROLE_EVENT_AUDIT_BUSY = 1) ∧
    (s.ky.fifo.head?.all (fun r => !s.keyHead 6 r) = true → Completes .keyDestroy s fun t =>
      t = s)

/-- A command taken that passes its checks gives: ATTEST the statement of R414 signed under slot 0, where the buffer holds
it, else KEY_RANGE; SIGN the signature over the message under its context string; KMAC the tag; WRAP_DATA the RFC 3394 wrap;
RANDOM octets of the DRBG, counted; PUBLIC the public key; CERT the certificate, where the buffer holds it. DECAPS makes a
type 2 key with DERIVE and KMAC, COMMISSION the owner root with its two slots, three key-store writes and audit numbers from
the start, VERIFY answers whether the signature holds; 64 rejected candidates end ATTEST and SIGN with KEY_SIGN_FAIL and the
event. Refusals are as with the other operations. KEY_CMD queues an aligned block of the firmware area, up to 16; else
KEY_RANGE, KEY_CMD_FULL, CLK_GATED with the unit, or ROLE_AUDIT_BUSY. A failed health test ends the DRBG. Where the spec
leaves a detail open it rests on the model's choices of log entries 20 and 38. -/
def Obligations.KeyOperations : Prop :=
  ∀ s : State, s.Inv → 
    (∀ (r : KeyReq) (b : KeyBlk), (s.keyTurn 7 r = true ∧ s.reqBlk r = b) → s.keyCheck 7 b = none → (s.keySlot b.slot).isSome = true → Completes (.keyAttest true) s fun t =>
      t.keyTold r ST.KEY_SIGN_FAIL 0 = true ∧
      t.getF R.KEY_EVENT_SIGN_FAIL = 1 ∧ t.ky.slots = s.ky.slots ∧
      t.ky.fifo = s.ky.fifo.tail) ∧
    (∀ (r : KeyReq) (b : KeyBlk) (p : KeySlot), (s.keyTurn 7 r = true ∧ s.reqBlk r = b) → s.keyCheck 7 b = none → s.keySlot b.slot = some p → Completes (.keyAttest false) s fun t =>
      (let sig := Config.sign 3 identitySeed (ascii "SVC4820 attest") (nats (s.statement b.slot p b.input)) s.freeVal; let doc := cborHead 4 2 ++ s.statement b.slot p b.input ++ cborOctets (beBytes 2420 sig); (if b.outCap < doc.length ∨ bufOk b.out doc.length = false then t.keyTold r ST.KEY_RANGE 0 else t.keyGave r b doc) = true) ∧
      t.ky.slots = s.ky.slots ∧
      t.ky.fifo = s.ky.fifo.tail) ∧
    (∀ (r : KeyReq) (b : KeyBlk) (st : Nat) (f : Bool), (s.keyHead 7 r = true ∧ s.reqBlk r = b ∧ s.keyCheck b.op b = some st) → Completes (.keyAttest f) s fun t =>
      t.keyTold r st 0 = true ∧
      t.ky.slots = s.ky.slots ∧ t.ky.fifo = s.ky.fifo.tail ∧ t.ky.job = none ∧ t.ky.root = s.ky.root ∧
      t.getF R.KEY_COUNT0_REFUSED = (s.getF R.KEY_COUNT0_REFUSED + 1) % 2 ^ R.KEY_COUNT0_REFUSED.width) ∧
    (∀ (f : Bool), s.ky.fifo.head?.all (fun r => !s.keyHead 7 r) = true → Completes (.keyAttest f) s fun t =>
      t = s) ∧
    (∀ (r : KeyReq) (b : KeyBlk) (f : Bool) (p : KeySlot), (s.keyTurn 8 r = true ∧ s.reqBlk r = b) → s.keyCheck 8 b = none → (s.keySlot b.slot = some p ∧ (attrType p.attr = 3 ∨ attrType p.attr = 4)) → Completes (.keySign f) s fun t =>
      (f = true → t.keyTold r ST.KEY_SIGN_FAIL 0 = true ∧ t.getF R.KEY_EVENT_SIGN_FAIL = 1) ∧
      (f = false → t.keyGave r b (beBytes (signOctets (attrType p.attr)) (Config.sign (attrType p.attr) p.mat (nats ((b.input.drop 1).take (b.input.getD 0 0).toNat)) (nats (b.input.drop (1 + (b.input.getD 0 0).toNat))) s.freeVal)) = true) ∧
      t.ky.slots = s.ky.slots ∧
      t.ky.fifo = s.ky.fifo.tail) ∧
    (∀ (r : KeyReq) (b : KeyBlk) (st : Nat) (f : Bool), (s.keyHead 8 r = true ∧ s.reqBlk r = b ∧ s.keyCheck b.op b = some st) → Completes (.keySign f) s fun t =>
      t.keyTold r st 0 = true ∧
      t.ky.slots = s.ky.slots ∧ t.ky.fifo = s.ky.fifo.tail ∧ t.ky.job = none ∧ t.ky.root = s.ky.root ∧
      t.getF R.KEY_COUNT0_REFUSED = (s.getF R.KEY_COUNT0_REFUSED + 1) % 2 ^ R.KEY_COUNT0_REFUSED.width) ∧
    (∀ (f : Bool), s.ky.fifo.head?.all (fun r => !s.keyHead 8 r) = true → Completes (.keySign f) s fun t =>
      t = s) ∧
    (∀ (r : KeyReq) (b : KeyBlk) (p : KeySlot), (s.keyTurn 9 r = true ∧ s.reqBlk r = b) → s.keyCheck 9 b = none → s.keySlot b.slot = some p → Completes .keyKmac s fun t =>
      t.keyGave r b (beBytes b.outCap (Config.kmac p.mat (nats (b.input.drop (1 + (b.input.getD 0 0).toNat))) (8 * b.outCap) (nats ((b.input.drop 1).take (b.input.getD 0 0).toNat)))) = true ∧
      t.ky.slots = s.ky.slots ∧
      t.ky.fifo = s.ky.fifo.tail) ∧
    (∀ (r : KeyReq) (b : KeyBlk) (st : Nat), (s.keyHead 9 r = true ∧ s.reqBlk r = b ∧ s.keyCheck b.op b = some st) → Completes .keyKmac s fun t =>
      t.keyTold r st 0 = true ∧
      t.ky.slots = s.ky.slots ∧ t.ky.fifo = s.ky.fifo.tail ∧ t.ky.job = none ∧ t.ky.root = s.ky.root ∧
      t.getF R.KEY_COUNT0_REFUSED = (s.getF R.KEY_COUNT0_REFUSED + 1) % 2 ^ R.KEY_COUNT0_REFUSED.width) ∧
    (s.ky.fifo.head?.all (fun r => !s.keyHead 9 r) = true → Completes .keyKmac s fun t =>
      t = s) ∧
    (∀ (r : KeyReq) (b : KeyBlk) (p : KeySlot), (s.keyTurn 10 r = true ∧ s.reqBlk r = b) → s.keyCheck 10 b = none → s.keySlot b.slot = some p → Completes .keyWrapData s fun t =>
      t.keyGave r b (beBytes (b.input.length + 8) (Config.wrap p.mat b.input.length (beNat b.input))) = true ∧
      t.ky.slots = s.ky.slots ∧
      t.ky.fifo = s.ky.fifo.tail) ∧
    (∀ (r : KeyReq) (b : KeyBlk) (st : Nat), (s.keyHead 10 r = true ∧ s.reqBlk r = b ∧ s.keyCheck b.op b = some st) → Completes .keyWrapData s fun t =>
      t.keyTold r st 0 = true ∧
      t.ky.slots = s.ky.slots ∧ t.ky.fifo = s.ky.fifo.tail ∧ t.ky.job = none ∧ t.ky.root = s.ky.root ∧
      t.getF R.KEY_COUNT0_REFUSED = (s.getF R.KEY_COUNT0_REFUSED + 1) % 2 ^ R.KEY_COUNT0_REFUSED.width) ∧
    (s.ky.fifo.head?.all (fun r => !s.keyHead 10 r) = true → Completes .keyWrapData s fun t =>
      t = s) ∧
    (∀ (r : KeyReq) (b : KeyBlk), (s.keyTurn 11 r = true ∧ s.reqBlk r = b) → s.keyCheck 11 b = none → Completes .keyRandom s fun t =>
      t.keyGave r b (beBytes b.outCap s.freeVal) = true ∧
      (t.getF R.KEY_DRBG_REQS = (if 1048576 ≤ s.getF R.KEY_DRBG_REQS then 1 else s.getF R.KEY_DRBG_REQS + 1) % 2 ^ R.KEY_DRBG_REQS.width) ∧
      t.ky.slots = s.ky.slots ∧
      t.ky.fifo = s.ky.fifo.tail) ∧
    (∀ (r : KeyReq) (b : KeyBlk) (st : Nat), (s.keyHead 11 r = true ∧ s.reqBlk r = b ∧ s.keyCheck b.op b = some st) → Completes .keyRandom s fun t =>
      t.keyTold r st 0 = true ∧
      t.ky.slots = s.ky.slots ∧ t.ky.fifo = s.ky.fifo.tail ∧ t.ky.job = none ∧ t.ky.root = s.ky.root ∧
      t.getF R.KEY_COUNT0_REFUSED = (s.getF R.KEY_COUNT0_REFUSED + 1) % 2 ^ R.KEY_COUNT0_REFUSED.width) ∧
    (s.ky.fifo.head?.all (fun r => !s.keyHead 11 r) = true → Completes .keyRandom s fun t =>
      t = s) ∧
    (∀ (r : KeyReq) (b : KeyBlk) (v : Nat) (q : KeySlot), (s.keyTurn 12 r = true ∧ s.reqBlk r = b) → s.keyCheck 12 b = none → ((if b.slot = 0xFFFF then s.freeSlot else some b.slot) = some v) → s.keySlot b.slot2 = some q → Completes .keyDecaps s fun t =>
      t.keyTold r ST.OK v = true ∧
      t.keySlot v = some ⟨attrWord 4 (0x02280000 + attrRoles b.attr * 2 ^ 11), Config.decaps q.mat (beNat b.input)⟩ ∧
      (∀ k ∈ s.ky.slots, k.1 ≠ v → t.keySlot k.1 = s.keySlot k.1) ∧
      t.ky.fifo = s.ky.fifo.tail) ∧
    (∀ (r : KeyReq) (b : KeyBlk) (st : Nat), (s.keyHead 12 r = true ∧ s.reqBlk r = b ∧ s.keyCheck b.op b = some st) → Completes .keyDecaps s fun t =>
      t.keyTold r st 0 = true ∧
      t.ky.slots = s.ky.slots ∧ t.ky.fifo = s.ky.fifo.tail ∧ t.ky.job = none ∧ t.ky.root = s.ky.root ∧
      t.getF R.KEY_COUNT0_REFUSED = (s.getF R.KEY_COUNT0_REFUSED + 1) % 2 ^ R.KEY_COUNT0_REFUSED.width) ∧
    (∀ (r : KeyReq) (b : KeyBlk), (s.keyHead 12 r = true ∧ s.reqBlk r = b ∧ b.op = 12 ∧ s.keyCheck 12 b = none ∧ s.auditRoom = false) → Completes .keyDecaps s fun t =>
      t.keyTold r ST.ROLE_AUDIT_BUSY 0 = true ∧
      t.ky.slots = s.ky.slots ∧ t.ky.fifo = s.ky.fifo.tail ∧ t.ky.root = s.ky.root ∧ t.getF R.ROLE_EVENT_AUDIT_BUSY = 1) ∧
    (s.ky.fifo.head?.all (fun r => !s.keyHead 12 r) = true → Completes .keyDecaps s fun t =>
      t = s) ∧
    (∀ (r : KeyReq) (b : KeyBlk) (p : KeySlot), (s.keyTurn 13 r = true ∧ s.reqBlk r = b) → s.keyCheck 13 b = none → s.keySlot b.slot = some p → Completes .keyPublic s fun t =>
      t.keyGave r b (beBytes (publicOctets (attrType p.attr)) (Config.publicKey (attrType p.attr) p.mat)) = true ∧
      t.ky.slots = s.ky.slots ∧
      t.ky.fifo = s.ky.fifo.tail) ∧
    (∀ (r : KeyReq) (b : KeyBlk) (st : Nat), (s.keyHead 13 r = true ∧ s.reqBlk r = b ∧ s.keyCheck b.op b = some st) → Completes .keyPublic s fun t =>
      t.keyTold r st 0 = true ∧
      t.ky.slots = s.ky.slots ∧ t.ky.fifo = s.ky.fifo.tail ∧ t.ky.job = none ∧ t.ky.root = s.ky.root ∧
      t.getF R.KEY_COUNT0_REFUSED = (s.getF R.KEY_COUNT0_REFUSED + 1) % 2 ^ R.KEY_COUNT0_REFUSED.width) ∧
    (s.ky.fifo.head?.all (fun r => !s.keyHead 13 r) = true → Completes .keyPublic s fun t =>
      t = s) ∧
    (∀ (r : KeyReq) (b : KeyBlk), (s.keyTurn 14 r = true ∧ s.reqBlk r = b) → s.keyCheck 14 b = none → Completes .keyCommission s fun t =>
      t.ownerState = 1 ∧ t.getF R.TAMPER_STATE_VBAT_LOST = 0 ∧
      (t.ky.root = s.freeVal % 2 ^ 256 ∨ t.ky.root = Config.free (s.freeIx + 1) % 2 ^ 256) ∧
      t.keySlot 1 = some ⟨attrStore, storeKey t.ky.root⟩ ∧ t.keySlot 2 = some ⟨attrOwner, ownerSeed t.ky.root⟩ ∧
      t.ky.job.map (fun (j : KeyJob) => (j.req, j.writes)) = some (r, [⟨0, none, 0, false⟩, ⟨1, none, 0, false⟩, ⟨0, some ⟨1, false, []⟩, 1, false⟩]) ∧
      t.ro.seq = 0 ∧ t.getF R.KEY_CMD_STAT_BUSY = 1 ∧
      t.ky.fifo = s.ky.fifo.tail) ∧
    (∀ (r : KeyReq) (b : KeyBlk) (st : Nat), (s.keyHead 14 r = true ∧ s.reqBlk r = b ∧ s.keyCheck b.op b = some st) → Completes .keyCommission s fun t =>
      t.keyTold r st 0 = true ∧
      t.ky.slots = s.ky.slots ∧ t.ky.fifo = s.ky.fifo.tail ∧ t.ky.job = none ∧ t.ky.root = s.ky.root ∧
      t.getF R.KEY_COUNT0_REFUSED = (s.getF R.KEY_COUNT0_REFUSED + 1) % 2 ^ R.KEY_COUNT0_REFUSED.width) ∧
    (∀ (r : KeyReq) (b : KeyBlk), (s.keyHead 14 r = true ∧ s.reqBlk r = b ∧ b.op = 14 ∧ s.keyCheck 14 b = none ∧ s.auditRoom = false) → Completes .keyCommission s fun t =>
      t.keyTold r ST.ROLE_AUDIT_BUSY 0 = true ∧
      t.ky.slots = s.ky.slots ∧ t.ky.fifo = s.ky.fifo.tail ∧ t.ky.root = s.ky.root ∧ t.getF R.ROLE_EVENT_AUDIT_BUSY = 1) ∧
    (s.ky.fifo.head?.all (fun r => !s.keyHead 14 r) = true → Completes .keyCommission s fun t =>
      t = s) ∧
    (∀ (r : KeyReq) (b : KeyBlk), (s.keyTurn 15 r = true ∧ s.reqBlk r = b) → (b.reserved = false ∧ b.role ≤ 3 ∧ bufOk b.inAddr b.input.length = true) → Completes .keyCert s fun t =>
      (b.outCap < Config.certificate.length ∨ bufOk b.out Config.certificate.length = false → t.keyTold r ST.KEY_RANGE 0 = true) ∧
      (Config.certificate.length ≤ b.outCap → bufOk b.out Config.certificate.length = true → t.keyGave r b (Config.certificate.map (BitVec.ofNat 8)) = true) ∧
      t.ky.slots = s.ky.slots ∧
      t.ky.fifo = s.ky.fifo.tail) ∧
    (∀ (r : KeyReq) (b : KeyBlk) (st : Nat), (s.keyHead 15 r = true ∧ s.reqBlk r = b ∧ s.keyCheck b.op b = some st) → Completes .keyCert s fun t =>
      t.keyTold r st 0 = true ∧
      t.ky.slots = s.ky.slots ∧ t.ky.fifo = s.ky.fifo.tail ∧ t.ky.job = none ∧ t.ky.root = s.ky.root ∧
      t.getF R.KEY_COUNT0_REFUSED = (s.getF R.KEY_COUNT0_REFUSED + 1) % 2 ^ R.KEY_COUNT0_REFUSED.width) ∧
    (s.ky.fifo.head?.all (fun r => !s.keyHead 15 r) = true → Completes .keyCert s fun t =>
      t = s) ∧
    (∀ (r : KeyReq) (b : KeyBlk), (s.keyTurn 16 r = true ∧ s.reqBlk r = b) → s.keyCheck 16 b = none → Completes .keyVerify s fun t =>
      (t.keyTold r (if Config.verifies (if b.input.getD 0 0 = 0x44 then 3 else 4) (beNat ((b.input.drop 1).take (publicOctets (if b.input.getD 0 0 = 0x44 then 3 else 4)))) (nats (((b.input.drop (1 + publicOctets (if b.input.getD 0 0 = 0x44 then 3 else 4) + signOctets (if b.input.getD 0 0 = 0x44 then 3 else 4))).drop 1).take ((b.input.drop (1 + publicOctets (if b.input.getD 0 0 = 0x44 then 3 else 4) + signOctets (if b.input.getD 0 0 = 0x44 then 3 else 4))).getD 0 0).toNat)) (nats ((b.input.drop (1 + publicOctets (if b.input.getD 0 0 = 0x44 then 3 else 4) + signOctets (if b.input.getD 0 0 = 0x44 then 3 else 4))).drop (1 + ((b.input.drop (1 + publicOctets (if b.input.getD 0 0 = 0x44 then 3 else 4) + signOctets (if b.input.getD 0 0 = 0x44 then 3 else 4))).getD 0 0).toNat))) (beNat ((b.input.drop (1 + publicOctets (if b.input.getD 0 0 = 0x44 then 3 else 4))).take (signOctets (if b.input.getD 0 0 = 0x44 then 3 else 4)))) = true then ST.OK else ST.KEY_SIG_BAD) 0 = true) ∧
      t.ky.slots = s.ky.slots ∧
      t.ky.fifo = s.ky.fifo.tail) ∧
    (∀ (r : KeyReq) (b : KeyBlk) (st : Nat), (s.keyHead 16 r = true ∧ s.reqBlk r = b ∧ s.keyCheck b.op b = some st) → Completes .keyVerify s fun t =>
      t.keyTold r st 0 = true ∧
      t.ky.slots = s.ky.slots ∧ t.ky.fifo = s.ky.fifo.tail ∧ t.ky.job = none ∧ t.ky.root = s.ky.root ∧
      t.getF R.KEY_COUNT0_REFUSED = (s.getF R.KEY_COUNT0_REFUSED + 1) % 2 ^ R.KEY_COUNT0_REFUSED.width) ∧
    (s.ky.fifo.head?.all (fun r => !s.keyHead 16 r) = true → Completes .keyVerify s fun t =>
      t = s) ∧
    (∀ (a : Word), s.auditRoom = true → Completes (.keyCmdWrite a) s fun t =>
      ((a.toNat % 16 = 0 ∧ inFirmwareArea a.toNat = true ∧ inFirmwareArea (a.toNat + 47) = true) ∧ ((s.keyUnits (s.keyBlkAt a.toNat)).filter s.gatedOrPending) = [] ∧ s.ky.fifo.length < 16 → t.ky.fifo = s.ky.fifo ++ [.blk a.toNat] ∧ t.resp = ST.OK) ∧
      (¬ (a.toNat % 16 = 0 ∧ inFirmwareArea a.toNat = true ∧ inFirmwareArea (a.toNat + 47) = true) → t.ky.fifo = s.ky.fifo ∧ t.resp = ST.KEY_RANGE ∧ t.getF R.KEY_CMD_ERR_STATUS = ST.KEY_RANGE) ∧
      (∀ u ∈ ((s.keyUnits (s.keyBlkAt a.toNat)).filter s.gatedOrPending).head?, (a.toNat % 16 = 0 ∧ inFirmwareArea a.toNat = true ∧ inFirmwareArea (a.toNat + 47) = true) → t.ky.fifo = s.ky.fifo ∧ t.resp = ST.CLK_GATED ∧ t.getF R.KEY_CMD_ERR_STATUS = ST.CLK_GATED ∧ t.getF R.CLK_CMD_ERR_STATUS = ST.CLK_GATED ∧ t.getF R.CLK_CMD_ERR_UNIT = u % 2 ^ R.CLK_CMD_ERR_UNIT.width) ∧
      ((a.toNat % 16 = 0 ∧ inFirmwareArea a.toNat = true ∧ inFirmwareArea (a.toNat + 47) = true) ∧ ((s.keyUnits (s.keyBlkAt a.toNat)).filter s.gatedOrPending) = [] ∧ 16 ≤ s.ky.fifo.length → t.ky.fifo = s.ky.fifo ∧ t.resp = ST.KEY_CMD_FULL ∧ t.getF R.KEY_CMD_ERR_STATUS = ST.KEY_CMD_FULL)) ∧
    (∀ (a : Word), s.auditRoom = false → Completes (.keyCmdWrite a) s fun t =>
      t = (s.raise R.ROLE_EVENT_AUDIT_BUSY).refuse R.KEY_CMD_ERR_STATUS ST.ROLE_AUDIT_BUSY) ∧
    (Completes .entropyHealthFail s fun t =>
      t.getF R.KEY_STATE_DRBG_OK = 0 ∧ t.getF R.KEY_DRBG_HEALTH_OK = 0 ∧
      t.getF R.KEY_EVENT_ENTROPY_FAIL = 1 ∧ t.getF R.KEY_CMD_ERR_STATUS = ST.KEY_ENTROPY_FAIL ∧
      t.ky = s.ky)

/-- With VBAT, a source's condition shows in ACTIVE; an enabled one that has been inactive since its last event raises an
event: logged while fewer than 8 entries are valid, with the time where ROOT runs, counted, and a PRESENT owner root is
zeroed, ERASED, and the core is to hear of it; otherwise the root stays. Its end clears ACTIVE, and after the filter time it
may raise again. Without VBAT nothing happens. The core, told of an erased root, ends its key commands with KEY_TAMPER,
zeroes slots, contexts and the DRBG state, keeps the identity key, ends its sessions, and in service enters TAMPER_ERASED,
FENCED, with every transceiver to SLEEP. TAMPER_CFG enables no active source (ST_TAMPER_ACTIVE) and disables one only in
RUNNING with the root PRESENT (ST_TAMPER_STATE), as the log and its count are cleared; without room for the record
ST_ROLE_AUDIT_BUSY, and nothing changes. Where the spec leaves a detail open it rests on the model's choices of log entries
20 and 38. -/
def Obligations.TamperLogic : Prop :=
  ∀ s : State, s.Inv → 
    (∀ (i : Fin 8) (u : Nat), s.su.vbat = true → (s.isSet (R.TAMPER_CFG_EN.bit i) = true ∧ s.ky.quiet.contains i.val = false) → Completes (.tamperSourceEvent i u) s fun t =>
      t.isSet (R.TAMPER_STATE_ACTIVE.bit i) = true ∧ t.isSet (R.TAMPER_EVENT_SOURCE.bit i) = true ∧
      t.getF R.TAMPER_COUNT_COUNT = (s.getF R.TAMPER_COUNT_COUNT + 1) % 2 ^ R.TAMPER_COUNT_COUNT.width ∧
      t.ky.quiet.contains i.val = true ∧
      (s.ownerState = 1 → t.ownerState = 2 ∧ t.ky.root = 0 ∧ t.ky.coreDue = true ∧ t.getF R.TAMPER_EVENT_ERASED = 1) ∧
      (s.ownerState ≠ 1 → t.ownerState = s.ownerState ∧ t.ky.root = s.ky.root ∧ t.ky.coreDue = s.ky.coreDue) ∧
      (s.tamperEntries < 8 → t.isSet (R.TAMPER_LOG_VALID.bank s.tamperEntries) = true ∧ t.getF (R.TAMPER_LOG_SOURCE.bank s.tamperEntries) = i ∧ t.isSet (R.TAMPER_LOG_WAS_PRESENT.bank s.tamperEntries) = decide (s.ownerState = 1)) ∧
      (s.rootRuns = true ∧ s.tamperEntries < 8 → t.isSet (R.TAMPER_LOG_STAMPED.bank s.tamperEntries) = true ∧ t.getF (R.TAMPER_LOG_STAMP.bank s.tamperEntries) = max s.mtb u / 2 ^ 24 % 2 ^ R.TAMPER_LOG_STAMP.width) ∧
      (s.rootRuns = false ∧ s.tamperEntries < 8 → t.isSet (R.TAMPER_LOG_STAMPED.bank s.tamperEntries) = s.isSet (R.TAMPER_LOG_STAMPED.bank s.tamperEntries)) ∧
      (8 ≤ s.tamperEntries → (List.range 8).all (fun k => t.getReg (R.TAMPER_LOG_VALID.bank k).addr == s.getReg (R.TAMPER_LOG_VALID.bank k).addr) = true) ∧
      t.ky.slots = s.ky.slots) ∧
    (∀ (i : Fin 8) (u : Nat), s.su.vbat = true → (¬ (s.isSet (R.TAMPER_CFG_EN.bit i) = true ∧ s.ky.quiet.contains i.val = false)) → Completes (.tamperSourceEvent i u) s fun t =>
      (t = (if s.rootRuns then s.advance u else s).setF (R.TAMPER_STATE_ACTIVE.bit i) 1)) ∧
    (∀ (i : Fin 8) (u : Nat), s.su.vbat = false → Completes (.tamperSourceEvent i u) s fun t =>
      t = s) ∧
    (∀ (i : Fin 8) (f : Bool), s.su.vbat = true → Completes (.tamperSourceInactive i f) s fun t =>
      t.isSet (R.TAMPER_STATE_ACTIVE.bit i) = false ∧
      (t.ky = { s.ky with quiet := if f then without i.val s.ky.quiet else s.ky.quiet }) ∧
      t.getF R.TAMPER_COUNT_COUNT = s.getF R.TAMPER_COUNT_COUNT ∧ t.ownerState = s.ownerState) ∧
    (∀ (i : Fin 8) (f : Bool), s.su.vbat = false → Completes (.tamperSourceInactive i f) s fun t =>
      t = s) ∧
    (∀ (u : Nat), (s.rootRuns = true ∧ s.ky.coreDue = true) → Completes (.tamperCoreResponse u) s fun t =>
      t.ky.fifo = [] ∧ t.ky.job = none ∧ t.ky.bootJob = [] ∧ t.ky.coreDue = false ∧ t.ky.ctxs = [] ∧
      t.ky.slots = [(0, ⟨attrIdentity, identitySeed⟩)] ∧ t.getF R.KEY_DRBG_REQS = 0 ∧ t.getF R.KEY_CMD_STAT_BUSY = 0 ∧
      t.ro.sessions = [] ∧
      (s.ky.fifo ≠ [] ∨ s.ky.job.isSome = true → t.getF R.KEY_EVENT_TAMPER_ABORT = 1) ∧
      (s.inService = true → t.dev = devTamper ∧ t.pairRole = 4 ∧ (List.range 4).all (fun i => t.getF (R.TRX_STATE_TARGET i) == 0) = true) ∧
      (s.inService = false → t.dev = s.dev)) ∧
    (∀ (u : Nat), (¬ (s.rootRuns = true ∧ s.ky.coreDue = true)) → Completes (.tamperCoreResponse u) s fun t =>
      t = s) ∧
    (∀ (u k : Nat) (b : KeyBlk), (s.rootRuns = true ∧ s.ky.coreDue = true ∧ s.inService = false ∧ s.ky.job = none ∧ s.ky.fifo = [.call k b]) → Completes (.tamperCoreResponse u) s fun t =>
      t.keyTold (.call k b) ST.KEY_TAMPER 0 = true) ∧
    (∀ (w : Word), s.auditRoom = true → ((if (List.range 8).any (fun i => bitOf (R.TAMPER_CFG_EN.get w) i && !bitOf (s.getF R.TAMPER_CFG_EN) i && s.isSet (R.TAMPER_STATE_ACTIVE.bit i)) then some ST.TAMPER_ACTIVE else if (List.range 8).any (fun i => !bitOf (R.TAMPER_CFG_EN.get w) i && bitOf (s.getF R.TAMPER_CFG_EN) i) && !(s.running && decide (s.ownerState = 1)) then some ST.TAMPER_STATE else none) = none) → Completes (.tamperCfgWrite w) s fun t =>
      t.getF R.TAMPER_CFG_EN = R.TAMPER_CFG_EN.get w ∧ t.getF R.TAMPER_CFG_POL = R.TAMPER_CFG_POL.get w ∧ t.resp = ST.OK) ∧
    (∀ (w : Word) (st : Nat), s.auditRoom = true → ((if (List.range 8).any (fun i => bitOf (R.TAMPER_CFG_EN.get w) i && !bitOf (s.getF R.TAMPER_CFG_EN) i && s.isSet (R.TAMPER_STATE_ACTIVE.bit i)) then some ST.TAMPER_ACTIVE else if (List.range 8).any (fun i => !bitOf (R.TAMPER_CFG_EN.get w) i && bitOf (s.getF R.TAMPER_CFG_EN) i) && !(s.running && decide (s.ownerState = 1)) then some ST.TAMPER_STATE else none) = some st) → Completes (.tamperCfgWrite w) s fun t =>
      t.getReg R.TAMPER_CFG = s.getReg R.TAMPER_CFG ∧ t.resp = st ∧ t.getF R.KEY_CMD_ERR_STATUS = st) ∧
    (∀ (w : Word), s.auditRoom = false → Completes (.tamperCfgWrite w) s fun t =>
      t = (s.raise R.ROLE_EVENT_AUDIT_BUSY).refuse R.KEY_CMD_ERR_STATUS ST.ROLE_AUDIT_BUSY) ∧
    (s.auditRoom = true → Completes .tamperLogClear s fun t =>
      (s.ownerState = 1 → (List.range 8).all (fun i => !t.isSet (R.TAMPER_LOG_VALID.bank i)) = true ∧ t.getF R.TAMPER_COUNT_COUNT = 0 ∧ t.resp = ST.OK) ∧
      (s.ownerState ≠ 1 → t.resp = ST.TAMPER_STATE ∧ t.getF R.KEY_CMD_ERR_STATUS = ST.TAMPER_STATE ∧ t.getF R.TAMPER_COUNT_COUNT = s.getF R.TAMPER_COUNT_COUNT ∧ t.tamperEntries = s.tamperEntries)) ∧
    (s.auditRoom = false → Completes .tamperLogClear s fun t =>
      t = (s.raise R.ROLE_EVENT_AUDIT_BUSY).refuse R.KEY_CMD_ERR_STATUS ST.ROLE_AUDIT_BUSY)

/-- A RENEW leaves every 82,500 cyc, or at once when the transmissions need more than was granted, on the tie link or as a
datagram on each witness port, and a peer-silent or self-granted unit grants it to itself. A standby moves the known end by
it and answers with a GRANT on the same path; a GRANT moves the lease end of an ACTIVE unit, ends its own grants, and one of
a stale peer ends AWAIT_STALE. RESIGN after 20,625 cyc, the takeover instant and ALONE_MS make a unit that may ACTIVE:
renewal, fix scan, event and count, Neighbor Advertisements. MARK_STALE makes a STANDBY stale. An unauthenticated or repeated
datagram is counted. A peer not heard for 206,250 cyc is silent, and an ACTIVE unit grants itself. At the output stop time
every transmission ends and the unit is FENCED. What is heard from the peer is recorded; two ACTIVE units are reported, and
the one with PREF 1 gives way. Elsewhere only time moves on. Where the spec leaves a detail open it rests on the model's
choices of log entries 26, 30 and 40. -/
def Obligations.LeaseCommands : Prop :=
  ∀ s : State, s.Inv → 
    (∀ (u : Nat), ((s.advance u).mayRenew = true ∧ ((Store.find? s.pa.count s.pa.sent).all (fun (x : Nat × Nat) => decide (x.1 + 82500 ≤ max s.mtb u)) = true ∨ s.pa.granted < (s.advance u).needUs)) → Completes (.leaseRenewDue u) s fun t =>
      t.pa.count = ((s.pa.count + 1) % 65536) ∧ t.getF R.PAIR_LEASE_COUNT = ((s.pa.count + 1) % 65536) ∧
      (s.isSet R.PAIR_STATE_TIE_UP = true → t.out = .lease (0xD5 :: s.leaseOctets 1 ((s.pa.count + 1) % 65536) (max (if s.isSet R.PAIR_STATE_TIE_UP then s.getF R.PAIR_CFG_RESERVE_US else s.getF R.PAIR_CFG_WIT_RESERVE_US) (s.advance u).needUs)) :: s.out) ∧
      (s.isSet R.PAIR_STATE_TIE_UP = false → t.pa.witTx = s.pa.witTx + ([0, 1].filter s.witPort).length ∧ t.out.length = s.out.length + ([0, 1].filter s.witPort).length) ∧
      (Store.find? ((s.pa.count + 1) % 65536) t.pa.sent = some (max s.mtb u, max (if s.isSet R.PAIR_STATE_TIE_UP then s.getF R.PAIR_CFG_RESERVE_US else s.getF R.PAIR_CFG_WIT_RESERVE_US) (s.advance u).needUs)) ∧
      (t.pa.leaseEnd = (if s.isSet R.PAIR_STATE_PEER_SILENT || s.isSet R.PAIR_STATE_SELF_GRANT then max s.pa.leaseEnd (max s.mtb u + 412500 + usToCyc (max (if s.isSet R.PAIR_STATE_TIE_UP then s.getF R.PAIR_CFG_RESERVE_US else s.getF R.PAIR_CFG_WIT_RESERVE_US) (s.advance u).needUs)) else s.pa.leaseEnd)) ∧
      t.pairRole = 1) ∧
    (∀ (u : Nat), (¬ ((s.advance u).mayRenew = true ∧ ((Store.find? s.pa.count s.pa.sent).all (fun (x : Nat × Nat) => decide (x.1 + 82500 ≤ max s.mtb u)) = true ∨ s.pa.granted < (s.advance u).needUs))) → Completes (.leaseRenewDue u) s fun t =>
      t = s.advance u) ∧
    (∀ (r : Fin 8) (c : Fin 65536) (e : Fin 4194304) (u : Nat), (s.pairOn = true ∧ s.isSet R.PAIR_STATE_TIE_UP = true ∧ (s.pairRole = 2 ∨ s.pairRole = 3)) → Completes (.renewRx r c e u) s fun t =>
      t.pa.knownEnd = some (max (s.pa.knownEnd.getD 0) (max s.mtb u + 412500 + usToCyc (e.val + e.val / 4096))) ∧
      t.out = .lease (0xD5 :: s.leaseOctets 2 c e) :: s.out ∧
      t.getF R.PAIR_LEASE_COUNT = c ∧
      t.pa.heardAt = some (max s.mtb u) ∧ t.getF R.PAIR_STATE_PEER_ROLE = r ∧ t.isSet R.PAIR_STATE_PEER_SILENT = false ∧
      t.pairRole = s.pairRole) ∧
    (∀ (c : Fin 65536) (e : Fin 4194304) (u : Nat), (s.pairOn = true ∧ s.isSet R.PAIR_STATE_TIE_UP = true ∧ s.pairRole = 1) → Completes (.renewRx 1 c e u) s fun t =>
      t.getF R.PAIR_EVENT_BOTH_ACTIVE = 1 ∧
      (s.getF R.PAIR_STATE_PREF = 1 → t.pairRole = 4 ∧ t.pa.lost = true) ∧
      (s.getF R.PAIR_STATE_PREF ≠ 1 → t.pairRole = 1 ∧ t.pa.knownEnd = s.pa.knownEnd)) ∧
    (∀ (r : Fin 8) (c : Fin 65536) (e : Fin 4194304) (u : Nat), (¬ (s.pairOn = true ∧ s.isSet R.PAIR_STATE_TIE_UP = true)) → Completes (.renewRx r c e u) s fun t =>
      t = s.advance u) ∧
    (∀ (r : Fin 8) (c : Fin 65536) (u : Nat), (s.pairOn = true ∧ s.isSet R.PAIR_STATE_TIE_UP = true ∧ s.pairRole = 1) → (r.val = 2 ∧ s.isSet R.PAIR_STATE_RESYNC = false) → Completes (.grantRx r c u) s fun t =>
      (t.pa.leaseEnd = (match Store.find? c s.pa.sent with | some x => max s.pa.leaseEnd (x.1 + 412500 + usToCyc x.2) | none => s.pa.leaseEnd) ∧ t.pa.granted = (match Store.find? c s.pa.sent with | some x => if s.pa.grantedAt ≤ x.1 then x.2 else s.pa.granted | none => s.pa.granted)) ∧
      t.isSet R.PAIR_STATE_SELF_GRANT = false ∧
      (t.pa.situation = (if s.pa.situation = 3 then (if s.isSet R.PAIR_FIX_STALE then 2 else 1) else s.pa.situation)) ∧
      t.pa.heardAt = some (max s.mtb u) ∧ t.getF R.PAIR_STATE_PEER_ROLE = r ∧ t.isSet R.PAIR_STATE_PEER_SILENT = false ∧
      t.getF R.PAIR_STATE_MODE = s.getF R.PAIR_STATE_MODE) ∧
    (∀ (c : Fin 65536) (u : Nat), (s.pairOn = true ∧ s.isSet R.PAIR_STATE_TIE_UP = true ∧ s.pairRole = 1 ∧ s.isSet R.PAIR_STATE_RESYNC = true) → Completes (.grantRx 2 c u) s fun t =>
      t.getF R.PAIR_STATE_MODE = 0 ∧ t.isSet R.PAIR_STATE_RESYNC = false ∧ t.pa.bands = [] ∧ t.pa.situation = 0 ∧
      (t.pa.leaseEnd = (match Store.find? c s.pa.sent with | some x => max s.pa.leaseEnd (x.1 + 412500 + usToCyc x.2) | none => s.pa.leaseEnd) ∧ t.pa.granted = (match Store.find? c s.pa.sent with | some x => if s.pa.grantedAt ≤ x.1 then x.2 else s.pa.granted | none => s.pa.granted))) ∧
    (∀ (r : Fin 8) (c : Fin 65536) (u : Nat), (s.pairOn = true ∧ s.isSet R.PAIR_STATE_TIE_UP = true ∧ s.pairRole = 1 ∧ s.getF R.PAIR_STATE_MODE = 1) → (r.val = 3 ∧ s.pa.fresh = false ∧ s.getF R.PAIR_STATE_PEER_ROLE ≠ 4) → Completes (.grantRx r c u) s fun t =>
      t.getF R.PAIR_STATE_MODE = 2 ∧ t.isSet R.PAIR_STATE_SELF_GRANT = false ∧
      (t.pa.situation = (if (if s.pa.situation = 3 then (if s.isSet R.PAIR_FIX_STALE then 2 else 1) else s.pa.situation) = 0 then 1 else (if s.pa.situation = 3 then (if s.isSet R.PAIR_FIX_STALE then 2 else 1) else s.pa.situation))) ∧
      t.pa.heardAt = some (max s.mtb u) ∧ t.getF R.PAIR_STATE_PEER_ROLE = r ∧ t.isSet R.PAIR_STATE_PEER_SILENT = false) ∧
    (∀ (r : Fin 8) (c : Fin 65536) (u : Nat), (s.pairOn = true ∧ s.isSet R.PAIR_STATE_TIE_UP = true ∧ (s.pairRole = 2 ∨ s.pairRole = 3)) → Completes (.grantRx r c u) s fun t =>
      t.pa.leaseEnd = s.pa.leaseEnd ∧ t.pairRole = s.pairRole ∧
      t.pa.heardAt = some (max s.mtb u) ∧ t.getF R.PAIR_STATE_PEER_ROLE = r ∧ t.isSet R.PAIR_STATE_PEER_SILENT = false) ∧
    (∀ (r : Fin 8) (c : Fin 65536) (u : Nat), (¬ (s.pairOn = true ∧ s.isSet R.PAIR_STATE_TIE_UP = true)) → Completes (.grantRx r c u) s fun t =>
      t = s.advance u) ∧
    (∀ (r : Fin 8) (u : Nat), (s.pairOn = true ∧ s.isSet R.PAIR_STATE_TIE_UP = true ∧ (s.pairRole = 2 ∨ s.pairRole = 3) ∧ (s.dev = devService ∨ s.dev = devHold)) → Completes (.resignRx r u) s fun t =>
      t.pairRole = 1 ∧ t.getF R.PAIR_STATE_MODE = 2 ∧ t.isSet R.PAIR_STATE_SELF_GRANT = true ∧ t.isSet R.PAIR_STATE_RESYNC = false ∧
      t.getF R.PAIR_EVENT_TAKEOVER = 1 ∧ t.getF R.PAIR_COUNT0_TAKEOVERS = (s.getF R.PAIR_COUNT0_TAKEOVERS + 1) % 2 ^ R.PAIR_COUNT0_TAKEOVERS.width ∧
      t.isSet R.PAIR_FIX_RUNNING = true ∧ t.isSet R.PAIR_FIX_STALE = decide (s.pairRole = 3) ∧ t.getF R.PAIR_FIX_NEXT = 0 ∧
      (s.pairRole = 3 → t.getF R.PAIR_EVENT_STALE_TAKEOVER = 1) ∧
      ((List.range 2).all (fun p => !s.uplCarries p || t.out.any (fun (m : Msg) => match m with | .naService q _ => q == p | _ => false)) = true) ∧
      t.pa.bands = [] ∧ t.pa.situation = 3 ∧ t.sl.rebuild = some 0 ∧
      t.mtb = max s.mtb u + 20625) ∧
    (∀ (r : Fin 8) (u : Nat), (s.pairOn = true ∧ s.isSet R.PAIR_STATE_TIE_UP = true ∧ (s.pairRole = 2 ∨ s.pairRole = 3) ∧ ¬ (s.dev = devService ∨ s.dev = devHold)) → Completes (.resignRx r u) s fun t =>
      t.pa.heardAt = some (max s.mtb u) ∧ t.getF R.PAIR_STATE_PEER_ROLE = r ∧ t.isSet R.PAIR_STATE_PEER_SILENT = false ∧
      t.pairRole = s.pairRole ∧ t.mtb = max s.mtb u) ∧
    (∀ (r : Fin 8) (u : Nat), (¬ (s.pairOn = true ∧ s.isSet R.PAIR_STATE_TIE_UP = true)) → Completes (.resignRx r u) s fun t =>
      t = s.advance u) ∧
    (∀ (r : Fin 8) (u : Nat), (s.pairOn = true ∧ s.isSet R.PAIR_STATE_TIE_UP = true ∧ s.pairRole = 2) → Completes (.markStaleRx r u) s fun t =>
      t.pairRole = 3 ∧ t.getF R.PAIR_EVENT_STALE = 1 ∧ t.getF R.PAIR_EVENT_ROLE_CHANGE = 1 ∧
      t.pa.heardAt = some (max s.mtb u) ∧ t.getF R.PAIR_STATE_PEER_ROLE = r ∧ t.isSet R.PAIR_STATE_PEER_SILENT = false) ∧
    (∀ (r : Fin 8) (u : Nat), (s.pairOn = true ∧ s.isSet R.PAIR_STATE_TIE_UP = true ∧ s.pairRole = 3) → Completes (.markStaleRx r u) s fun t =>
      t.pairRole = 3 ∧
      t.pa.heardAt = some (max s.mtb u) ∧ t.getF R.PAIR_STATE_PEER_ROLE = r ∧ t.isSet R.PAIR_STATE_PEER_SILENT = false) ∧
    (∀ (r : Fin 8) (u : Nat), (¬ (s.pairOn = true ∧ s.isSet R.PAIR_STATE_TIE_UP = true)) → Completes (.markStaleRx r u) s fun t =>
      t = s.advance u) ∧
    (∀ (k r : Fin 8) (c : Fin 65536) (e : Fin 4194304) (q u : Nat) (a : Bool), s.pairOn = true → (a = false ∨ q ≤ s.pa.witRx ∨ s.pa.key = none) → Completes (.witnessDatagramRx k r c e q a u) s fun t =>
      t = ((s.advance u).bump R.PAIR_COUNT1_WIT_AUTH_FAIL).raise R.PAIR_EVENT_PEER_AUTH) ∧
    (∀ (k r : Fin 8) (c : Fin 65536) (e : Fin 4194304) (q u : Nat) (a : Bool), s.pairOn = false → Completes (.witnessDatagramRx k r c e q a u) s fun t =>
      t = s.advance u) ∧
    (∀ (r : Fin 8) (c : Fin 65536) (e : Fin 4194304) (q u : Nat), (s.pairOn = true ∧ s.pa.key.isSome = true ∧ s.pa.witRx < q ∧ (s.pairRole = 2 ∨ s.pairRole = 3)) → Completes (.witnessDatagramRx 1 r c e q true u) s fun t =>
      t.pairRole = 3 ∧ t.pa.witRx = q ∧
      t.pa.knownEnd = some (max (s.pa.knownEnd.getD 0) (max s.mtb u + 412500 + usToCyc (e.val + e.val / 4096))) ∧
      t.pa.witTx = s.pa.witTx + ([0, 1].filter s.witPort).length ∧ t.out.length = s.out.length + ([0, 1].filter s.witPort).length ∧
      t.pa.heardAt = some (max s.mtb u) ∧ t.getF R.PAIR_STATE_PEER_ROLE = r ∧ t.isSet R.PAIR_STATE_PEER_SILENT = false) ∧
    (∀ (r : Fin 8) (c : Fin 65536) (e : Fin 4194304) (q u : Nat), (s.pairOn = true ∧ s.pa.key.isSome = true ∧ s.pa.witRx < q ∧ s.pairRole = 1 ∧ r.val = 2 ∧ s.isSet R.PAIR_STATE_RESYNC = false) → Completes (.witnessDatagramRx 2 r c e q true u) s fun t =>
      t.pa.witRx = q ∧ t.isSet R.PAIR_STATE_SELF_GRANT = false ∧
      (t.pa.leaseEnd = (match Store.find? c s.pa.sent with | some x => max s.pa.leaseEnd (x.1 + 412500 + usToCyc x.2) | none => s.pa.leaseEnd) ∧ t.pa.granted = (match Store.find? c s.pa.sent with | some x => if s.pa.grantedAt ≤ x.1 then x.2 else s.pa.granted | none => s.pa.granted)) ∧
      t.pa.heardAt = some (max s.mtb u) ∧ t.getF R.PAIR_STATE_PEER_ROLE = r ∧ t.isSet R.PAIR_STATE_PEER_SILENT = false) ∧
    (∀ (r : Fin 8) (c : Fin 65536) (e : Fin 4194304) (q u : Nat), (s.pairOn = true ∧ s.pa.key.isSome = true ∧ s.pa.witRx < q ∧ (s.pairRole = 2 ∨ s.pairRole = 3) ∧ (s.dev = devService ∨ s.dev = devHold)) → Completes (.witnessDatagramRx 3 r c e q true u) s fun t =>
      t.pairRole = 1 ∧ t.getF R.PAIR_STATE_MODE = 2 ∧ t.isSet R.PAIR_STATE_SELF_GRANT = true ∧ t.isSet R.PAIR_STATE_RESYNC = false ∧
      t.getF R.PAIR_EVENT_TAKEOVER = 1 ∧ t.getF R.PAIR_COUNT0_TAKEOVERS = (s.getF R.PAIR_COUNT0_TAKEOVERS + 1) % 2 ^ R.PAIR_COUNT0_TAKEOVERS.width ∧
      t.isSet R.PAIR_FIX_RUNNING = true ∧ t.isSet R.PAIR_FIX_STALE = decide (s.pairRole = 3) ∧ t.getF R.PAIR_FIX_NEXT = 0 ∧
      (s.pairRole = 3 → t.getF R.PAIR_EVENT_STALE_TAKEOVER = 1) ∧
      ((List.range 2).all (fun p => !s.uplCarries p || t.out.any (fun (m : Msg) => match m with | .naService q _ => q == p | _ => false)) = true) ∧
      t.pa.bands = [] ∧ t.pa.situation = 3 ∧ t.sl.rebuild = some 0 ∧
      t.mtb = max s.mtb u + 20625) ∧
    (∀ (r : Fin 8) (c : Fin 65536) (e : Fin 4194304) (q u : Nat), (s.pairOn = true ∧ s.pa.key.isSome = true ∧ s.pa.witRx < q ∧ s.pairRole = 2) → Completes (.witnessDatagramRx 4 r c e q true u) s fun t =>
      t.pairRole = 3 ∧ t.pa.witRx = q ∧ t.getF R.PAIR_EVENT_STALE = 1 ∧
      t.pa.heardAt = some (max s.mtb u) ∧ t.getF R.PAIR_STATE_PEER_ROLE = r ∧ t.isSet R.PAIR_STATE_PEER_SILENT = false) ∧
    (∀ (u : Nat), (s.pairOn = true ∧ s.isSet R.PAIR_STATE_PEER_SILENT = false ∧ (match s.pa.heardAt with | some a => a | none => match s.pa.runAt with | some a => a | none => max s.mtb u) + 206250 ≤ max s.mtb u) → Completes (.peerSilentTimeout u) s fun t =>
      t.isSet R.PAIR_STATE_PEER_SILENT = true ∧ t.getF R.PAIR_EVENT_PEER_SILENT = 1 ∧
      (s.pairRole = 1 → t.isSet R.PAIR_STATE_SELF_GRANT = true ∧ t.getF R.PAIR_STATE_MODE = 2 ∧ t.pa.situation = 3 ∧ t.pa.waits = []) ∧
      (s.pairRole ≠ 1 → t.pa = s.pa) ∧
      t.pairRole = s.pairRole) ∧
    (∀ (u : Nat), (¬ (s.pairOn = true ∧ s.isSet R.PAIR_STATE_PEER_SILENT = false ∧ (match s.pa.heardAt with | some a => a | none => match s.pa.runAt with | some a => a | none => max s.mtb u) + 206250 ≤ max s.mtb u)) → Completes (.peerSilentTimeout u) s fun t =>
      t = s.advance u) ∧
    (∀ (u : Nat), ((s.pairRole = 2 ∨ s.pairRole = 3) ∧ (s.dev = devService ∨ s.dev = devHold) ∧ s.pa.knownEnd.any (fun e => decide (e + 20625 ≤ max s.mtb u)) = true) → Completes (.takeoverInstant u) s fun t =>
      t.pairRole = 1 ∧ t.getF R.PAIR_STATE_MODE = 2 ∧ t.isSet R.PAIR_STATE_SELF_GRANT = true ∧ t.isSet R.PAIR_STATE_RESYNC = false ∧
      t.getF R.PAIR_EVENT_TAKEOVER = 1 ∧ t.getF R.PAIR_COUNT0_TAKEOVERS = (s.getF R.PAIR_COUNT0_TAKEOVERS + 1) % 2 ^ R.PAIR_COUNT0_TAKEOVERS.width ∧
      t.isSet R.PAIR_FIX_RUNNING = true ∧ t.isSet R.PAIR_FIX_STALE = decide (s.pairRole = 3) ∧ t.getF R.PAIR_FIX_NEXT = 0 ∧
      (s.pairRole = 3 → t.getF R.PAIR_EVENT_STALE_TAKEOVER = 1) ∧
      ((List.range 2).all (fun p => !s.uplCarries p || t.out.any (fun (m : Msg) => match m with | .naService q _ => q == p | _ => false)) = true) ∧
      t.pa.bands = [] ∧ t.pa.situation = 3 ∧ t.sl.rebuild = some 0 ∧
      t.mtb = max s.mtb u) ∧
    (∀ (u : Nat), (¬ ((s.pairRole = 2 ∨ s.pairRole = 3) ∧ (s.dev = devService ∨ s.dev = devHold) ∧ s.pa.knownEnd.any (fun e => decide (e + 20625 ≤ max s.mtb u)) = true)) → Completes (.takeoverInstant u) s fun t =>
      t = s.advance u) ∧
    (∀ (u : Nat), (s.fencedMay = true ∧ s.pa.lost = false ∧ s.pa.heardAt = none ∧ s.pa.runAt.any (fun a => decide (a + msToCyc (s.getF R.PAIR_CTRL_ALONE_MS) ≤ max s.mtb u)) = true) → Completes (.aloneTimeout u) s fun t =>
      t.pairRole = 1 ∧ t.getF R.PAIR_STATE_MODE = 2 ∧ t.isSet R.PAIR_STATE_SELF_GRANT = true ∧ t.getF R.PAIR_EVENT_ROLE_CHANGE = 1 ∧
      t.mtb = max s.mtb u ∧ t.pa.situation = 3) ∧
    (∀ (u : Nat), (¬ (s.fencedMay = true ∧ s.pa.lost = false ∧ s.pa.heardAt = none ∧ s.pa.runAt.any (fun a => decide (a + msToCyc (s.getF R.PAIR_CTRL_ALONE_MS) ≤ max s.mtb u)) = true)) → Completes (.aloneTimeout u) s fun t =>
      t = s.advance u) ∧
    (∀ (u : Nat), (s.pairOn = true ∧ s.pairRole = 1 ∧ s.pa.leaseEnd ≤ max s.mtb u + 20625) → Completes (.outputStopTime u) s fun t =>
      t.pairRole = 4 ∧ t.pa.lost = true ∧ t.getF R.PAIR_EVENT_LEASE_LOST = 1 ∧ t.getF R.PAIR_EVENT_ROLE_CHANGE = 1 ∧
      (List.range 4).all (fun i => (t.trx i).onAir.isNone) = true ∧
      t.mtb = max s.mtb u) ∧
    (∀ (u : Nat), (¬ (s.pairOn = true ∧ s.pairRole = 1 ∧ s.pa.leaseEnd ≤ max s.mtb u + 20625)) → Completes (.outputStopTime u) s fun t =>
      t = s.advance u)

/-- A HELLO leaves every 100 ms; one received names the peer: a FENCED unit with its digest may become STANDBY_STALE beside
an ACTIVE peer or, with PREF 0, ACTIVE, another digest is reported. A key exchange that checks gives the pair key, the peer's
EUI-64 and the service identifier; another is reported. A standby applies mirror records in SEQ order, memory, hash entries,
keys and settings, a stale one from SEQ 1 anew, and acknowledges the last; others are not applied. An acknowledgement frees
the journal and lets what waits go on. The scan fixes one record a step, those fixed before are passed over. 1 s after a
takeover the advertisement is repeated. RESIGN ends every transmission and leaves a unit FENCED, RESYNC restarts the journal
and copies every mirrored region; both are refused without a pair, in another role, or without room for their record. A
completed resynchronisation makes a unit STANDBY. Elsewhere only time moves on. Where the spec leaves a detail open it rests
on the model's choices of log entries 26, 30 and 40. -/
def Obligations.AmrekCommands : Prop :=
  ∀ s : State, s.Inv → 
    (∀ (u : Nat), (s.isSet R.PAIR_STATE_TIE_UP = true ∧ s.pa.helloAt.all (fun a => decide (a + msToCyc 100 ≤ max s.mtb u)) = true) → Completes (.helloSend u) s fun t =>
      t.out = .amrek (amrekOctets 1 (Store.get (fun _ => 0) s.pa.amrekSeq 1) (octs 32 s.pr.header.structDigest ++ octs 8 Config.eui64 ++ nats (leBytes 4 s.pr.header.version) ++ [s.pairRole, s.getF R.PAIR_STATE_PREF, 0, 0])) :: s.out ∧
      t.regs = s.regs ∧ t.pa.helloAt = some (max s.mtb u) ∧ t.mtb = max s.mtb u ∧ Store.get (fun _ => 0) t.pa.amrekSeq 1 = ((Store.get (fun _ => 0) s.pa.amrekSeq 1) + 1) % 2 ^ 32) ∧
    (∀ (u : Nat), (¬ (s.isSet R.PAIR_STATE_TIE_UP = true ∧ s.pa.helloAt.all (fun a => decide (a + msToCyc 100 ≤ max s.mtb u)) = true)) → Completes (.helloSend u) s fun t =>
      t = s.advance u) ∧
    (∀ (d : BitVec 256) (e : BitVec 64) (r : Fin 8) (p : Bool) (u : Nat), (s.pairOn = true ∧ s.isSet R.PAIR_STATE_TIE_UP = true ∧ (s.pairRole = 2 ∨ s.pairRole = 3)) → Completes (.helloRx d e r p u) s fun t =>
      t.pa.peerDigest = some d.toNat ∧ t.pa.peerEui = e.toNat ∧ t.getF R.TIE_PEER_DIGEST = lead4 d.toNat ∧ t.getF R.TIE_PEER_STATE_ROLE = r ∧ t.isSet R.TIE_PEER_STATE_PREF = p ∧
      t.pa.heardAt = some (max s.mtb u) ∧ t.getF R.PAIR_STATE_PEER_ROLE = r ∧ t.isSet R.PAIR_STATE_PEER_SILENT = false ∧
      t.pairRole = s.pairRole) ∧
    (∀ (d : BitVec 256) (e : BitVec 64) (r : Fin 8) (p : Bool) (u : Nat), (s.isSet R.PAIR_STATE_TIE_UP = true ∧ s.pairOn = false) → Completes (.helloRx d e r p u) s fun t =>
      t.pa.peerDigest = some d.toNat ∧ t.pa.peerEui = e.toNat ∧ t.getF R.TIE_PEER_DIGEST = lead4 d.toNat ∧ t.getF R.TIE_PEER_STATE_ROLE = r ∧ t.isSet R.TIE_PEER_STATE_PREF = p ∧
      t.pairRole = s.pairRole ∧ t.pa.heardAt = s.pa.heardAt) ∧
    (∀ (d : BitVec 256) (e : BitVec 64) (r : Fin 8) (p : Bool) (u : Nat), (s.pairOn = true ∧ s.isSet R.PAIR_STATE_TIE_UP = true ∧ s.pairRole = 4) → Completes (.helloRx d e r p u) s fun t =>
      (d.toNat ≠ s.pr.header.structDigest → t.getF R.PAIR_EVENT_DIGEST_MISMATCH = 1 ∧ t.pairRole = 4) ∧
      (d.toNat = s.pr.header.structDigest ∧ s.fencedMay = true ∧ r.val = 1 → t.pairRole = 3 ∧ t.isSet R.PAIR_STATE_RESYNC = true) ∧
      (d.toNat = s.pr.header.structDigest ∧ s.fencedMay = true ∧ r.val ≠ 1 ∧ s.getF R.PAIR_STATE_PREF = 0 ∧ s.pa.lost = false → t.pairRole = 1 ∧ t.getF R.PAIR_STATE_MODE = 1) ∧
      (d.toNat = s.pr.header.structDigest ∧ (s.fencedMay = false ∨ (r.val ≠ 1 ∧ (s.getF R.PAIR_STATE_PREF ≠ 0 ∨ s.pa.lost = true))) → t.pairRole = 4) ∧
      t.pa.peerDigest = some d.toNat ∧ t.pa.peerEui = e.toNat ∧ t.getF R.TIE_PEER_DIGEST = lead4 d.toNat ∧ t.getF R.TIE_PEER_STATE_ROLE = r ∧ t.isSet R.TIE_PEER_STATE_PREF = p) ∧
    (∀ (d : BitVec 256) (e : BitVec 64) (r : Fin 8) (p : Bool) (u : Nat), ¬ (s.isSet R.PAIR_STATE_TIE_UP = true) → Completes (.helloRx d e r p u) s fun t =>
      t = s.advance u) ∧
    (∀ (x : BitVec 256) (e : BitVec 64) (u : Nat) (o : Bool), (s.pairOn = true ∧ s.isSet R.PAIR_STATE_TIE_UP = true) → (o = false ∨ s.pa.peerDigest ≠ some s.pr.header.structDigest) → Completes (.keyxRx o x e u) s fun t =>
      t = ((s.advance u).raise R.PAIR_EVENT_PEER_AUTH).setF R.PAIR_CMD_ERR_STATUS ST.PAIR_PEER_AUTH) ∧
    (∀ (x : BitVec 256) (e : BitVec 64) (u : Nat), (s.pairOn = true ∧ s.isSet R.PAIR_STATE_TIE_UP = true) → s.pa.peerDigest = some s.pr.header.structDigest → Completes (.keyxRx true x e u) s fun t =>
      t.pa.key = some (Config.kmac x.toNat (octs 8 (min Config.eui64 e.toNat) ++ octs 8 (max Config.eui64 e.toNat)) 256 (ascii "SVC4820 pair")) ∧ t.pa.peerEui = e.toNat ∧
      t.isSet R.PAIR_STATE_PEER_AUTH = true ∧ t.getF R.PAIR_PEER_EUI_LO_EUI = idLo e.toNat ∧ t.getF R.PAIR_PEER_EUI_HI_EUI = idHi e.toNat ∧
      t.getF R.PAIR_SVC_IID_LO_IID = idLo (serviceIid Config.eui64 e.toNat) ∧ t.getF R.PAIR_SVC_IID_HI_IID = idHi (serviceIid Config.eui64 e.toNat) ∧
      (s.getF R.PAIR_STATE_PREF = 0 → t.out.any (fun (m : Msg) => match m with | .keyxCipher _ _ => true | _ => false) = true)) ∧
    (∀ (x : BitVec 256) (e : BitVec 64) (u : Nat) (o : Bool), (¬ (s.pairOn = true ∧ s.isSet R.PAIR_STATE_TIE_UP = true)) → Completes (.keyxRx o x e u) s fun t =>
      t = s.advance u) ∧
    (∀ (r : MirrorRec) (u : Nat), (s.isSet R.PAIR_STATE_TIE_UP = true ∧ (s.pairRole = 2 ∨ s.pairRole = 3)) → (r.seq = s.pa.applied + 1 ∨ (r.seq = 1 ∧ s.pairRole = 3)) → (r.kind = 1 ∧ r.target + r.data.length ≤ (s.region r.region).2) → Completes (.mirrorFrameRx [r] u) s fun t =>
      t.out.head? = some (.amrek (amrekOctets 4 (Store.get (fun _ => 0) s.pa.amrekSeq 4) (nats (leBytes 4 r.seq ++ leBytes 4 0)))) ∧ t.pa.applied = r.seq ∧
      ((List.range r.data.length).all (fun i => decide (t.readByte ((s.region r.region).1 + r.target + i) = if r.region = 0 ∧ ((r.target + i) % 256 = 94 ∨ (r.target + i) % 256 = 95) then s.readByte ((s.region r.region).1 + r.target + i) else r.data.getD i 0)) = true) ∧
      (∀ a : Nat, a < (s.region r.region).1 + r.target ∨ (s.region r.region).1 + r.target + r.data.length ≤ a → t.readByte a = s.readByte a)) ∧
    (∀ (r : MirrorRec) (u k : Nat), (s.isSet R.PAIR_STATE_TIE_UP = true ∧ (s.pairRole = 2 ∨ s.pairRole = 3)) → (r.seq = s.pa.applied + 1 ∨ (r.seq = 1 ∧ s.pairRole = 3)) → (r.kind = 2 ∧ r.target < 2 ^ 18 ∧ s.altActive = false) → (s.hashHas s.liveTab s.gd.stash (beNat (r.data.take 8)) (leNat ((r.data.drop 8).take 1)) = none ∧ s.freeWay s.liveTab (bucketsOf s.gd.seed0 s.gd.seed1 (beNat (r.data.take 8)) (leNat ((r.data.drop 8).take 1))).1 = some k) → (leNat ((r.data.drop 8).take 1)) < 2 → Completes (.mirrorFrameRx [r] u) s fun t =>
      t.out.head? = some (.amrek (amrekOctets 4 (Store.get (fun _ => 0) s.pa.amrekSeq 4) (nats (leBytes 4 r.seq ++ leBytes 4 0)))) ∧ t.pa.applied = r.seq ∧
      t.way s.liveTab (bucketsOf s.gd.seed0 s.gd.seed1 (beNat (r.data.take 8)) (leNat ((r.data.drop 8).take 1))).1 k = some ⟨(beNat (r.data.take 8)), (leNat ((r.data.drop 8).take 1)), r.target⟩ ∧ t.gd.entries = s.gd.entries + 1) ∧
    (∀ (r : MirrorRec) (u : Nat), (s.isSet R.PAIR_STATE_TIE_UP = true ∧ (s.pairRole = 2 ∨ s.pairRole = 3)) → (r.seq = s.pa.applied + 1 ∨ (r.seq = 1 ∧ s.pairRole = 3)) → ((r.kind = 2 ∧ (s.hashHas s.liveTab s.gd.stash (beNat (r.data.take 8)) (leNat ((r.data.drop 8).take 1))).isSome = true) ∨ (r.kind = 3 ∧ (s.hashDelete s.liveTab s.gd.stash (beNat (r.data.take 8)) (leNat ((r.data.drop 8).take 1))).2.2 = false)) → Completes (.mirrorFrameRx [r] u) s fun t =>
      t.out.head? = some (.amrek (amrekOctets 4 (Store.get (fun _ => 0) s.pa.amrekSeq 4) (nats (leBytes 4 r.seq ++ leBytes 4 0)))) ∧ t.pa.applied = r.seq ∧
      t.mem = s.mem ∧ t.gd = s.gd) ∧
    (∀ (r : MirrorRec) (u : Nat), (s.isSet R.PAIR_STATE_TIE_UP = true ∧ (s.pairRole = 2 ∨ s.pairRole = 3)) → (r.seq = s.pa.applied + 1 ∨ (r.seq = 1 ∧ s.pairRole = 3)) → (r.kind = 3 ∧ (s.hashDelete s.liveTab s.gd.stash (beNat (r.data.take 8)) (leNat ((r.data.drop 8).take 1))).2.2 = true) → Completes (.mirrorFrameRx [r] u) s fun t =>
      t.out.head? = some (.amrek (amrekOctets 4 (Store.get (fun _ => 0) s.pa.amrekSeq 4) (nats (leBytes 4 r.seq ++ leBytes 4 0)))) ∧ t.pa.applied = r.seq ∧
      t.gd.entries = s.gd.entries - 1) ∧
    (∀ (r : MirrorRec) (u k : Nat), (s.isSet R.PAIR_STATE_TIE_UP = true ∧ (s.pairRole = 2 ∨ s.pairRole = 3)) → (r.seq = s.pa.applied + 1 ∨ (r.seq = 1 ∧ s.pairRole = 3)) → (r.kind = 4 ∧ s.pa.key = some k) → Completes (.mirrorFrameRx [r] u) s fun t =>
      t.out.head? = some (.amrek (amrekOctets 4 (Store.get (fun _ => 0) s.pa.amrekSeq 4) (nats (leBytes 4 r.seq ++ leBytes 4 0)))) ∧ t.pa.applied = r.seq ∧
      (Config.unwrap k (r.data.length - 12) (beNat (r.data.drop 4))).all (fun m => decide (t.keySlot r.target = some (⟨leNat (r.data.take 4), m⟩ : KeySlot))) = true ∧
      ((Config.unwrap k (r.data.length - 12) (beNat (r.data.drop 4))).isNone = true → t.ky = s.ky)) ∧
    (∀ (r : MirrorRec) (u : Nat), (s.isSet R.PAIR_STATE_TIE_UP = true ∧ (s.pairRole = 2 ∨ s.pairRole = 3)) → (r.seq = s.pa.applied + 1 ∨ (r.seq = 1 ∧ s.pairRole = 3)) → r.kind = 5 → Completes (.mirrorFrameRx [r] u) s fun t =>
      t.out.head? = some (.amrek (amrekOctets 4 (Store.get (fun _ => 0) s.pa.amrekSeq 4) (nats (leBytes 4 r.seq ++ leBytes 4 0)))) ∧ t.pa.applied = r.seq ∧
      t.keySlot r.target = none ∧
      t.ky.bootJob.length = s.ky.bootJob.length + 2) ∧
    (∀ (r : MirrorRec) (u : Nat), (s.isSet R.PAIR_STATE_TIE_UP = true ∧ (s.pairRole = 2 ∨ s.pairRole = 3)) → (r.seq = s.pa.applied + 1 ∨ (r.seq = 1 ∧ s.pairRole = 3)) → r.kind = 6 → Completes (.mirrorFrameRx [r] u) s fun t =>
      t.out.head? = some (.amrek (amrekOctets 4 (Store.get (fun _ => 0) s.pa.amrekSeq 4) (nats (leBytes 4 r.seq ++ leBytes 4 0)))) ∧ t.pa.applied = r.seq ∧
      t.setting r.target = settingVals r.data ∧
      t.mem = s.mem) ∧
    (∀ (r : MirrorRec) (u : Nat), (s.isSet R.PAIR_STATE_TIE_UP = true ∧ (s.pairRole = 2 ∨ s.pairRole = 3)) → (¬ (r.seq = s.pa.applied + 1 ∨ (r.seq = 1 ∧ s.pairRole = 3))) → Completes (.mirrorFrameRx [r] u) s fun t =>
      t.out.head? = some (.amrek (amrekOctets 4 (Store.get (fun _ => 0) s.pa.amrekSeq 4) (nats (leBytes 4 s.pa.applied ++ leBytes 4 0)))) ∧ t.pa.applied = s.pa.applied ∧
      t.mem = s.mem ∧ t.ry = s.ry ∧ t.ky = s.ky ∧ t.gd = s.gd) ∧
    (∀ (l : List MirrorRec) (u : Nat), (s.isSet R.PAIR_STATE_TIE_UP = true ∧ (s.pairRole = 2 ∨ s.pairRole = 3)) → Completes (.mirrorFrameRx l u) s fun t =>
      t.out.head? = some (.amrek (amrekOctets 4 (Store.get (fun _ => 0) s.pa.amrekSeq 4) (nats (leBytes 4 t.pa.applied ++ leBytes 4 0)))) ∧ t.pa.heardAt = some (max s.mtb u) ∧ t.pairRole = s.pairRole ∧
      (l.map (fun (r : MirrorRec) => r.seq) = (List.range l.length).map (fun i => s.pa.applied + 1 + i) → t.pa.applied = s.pa.applied + l.length)) ∧
    (∀ (l : List MirrorRec) (u : Nat), (¬ (s.isSet R.PAIR_STATE_TIE_UP = true ∧ (s.pairRole = 2 ∨ s.pairRole = 3))) → Completes (.mirrorFrameRx l u) s fun t =>
      t = s.advance u) ∧
    (∀ (q u : Nat), (s.isSet R.PAIR_STATE_TIE_UP = true ∧ s.pairRole = 1) → Completes (.mirrorAckRx q u) s fun t =>
      t = (State.hear ({ s.advance u with pa := { s.pa with journal := s.pa.journal.filter (fun (r : MirrorRec) => decide (q < r.seq)), waits := s.pa.waits.filter (fun (w : Nat × Nat × Nat) => decide (q < w.2.1)) } } : State) (s.getF R.PAIR_STATE_PEER_ROLE)).macTick) ∧
    (∀ (q u : Nat), (s.isSet R.PAIR_STATE_TIE_UP = true ∧ s.pairRole = 1) → (s.getF R.PAIR_STATE_PEER_ROLE = 2 ∧ s.isSet R.PAIR_STATE_RESYNC = false) → Completes (.mirrorAckRx q u) s fun t =>
      (∃ r : State, t = State.macTick r ∧ r.pa.journal = s.pa.journal.filter (fun (x : MirrorRec) => decide (q < x.seq)) ∧ r.pa.waits = s.pa.waits.filter (fun (w : Nat × Nat × Nat) => decide (q < w.2.1)) ∧ r.mtb = max s.mtb u ∧ r.isSet R.PAIR_STATE_PEER_SILENT = false)) ∧
    (∀ (q u : Nat), (¬ (s.isSet R.PAIR_STATE_TIE_UP = true ∧ s.pairRole = 1)) → Completes (.mirrorAckRx q u) s fun t =>
      t = s.advance u) ∧
    (∀ (n : Nat), (s.isSet R.PAIR_FIX_RUNNING = true ∧ n = s.getF R.PAIR_FIX_NEXT ∧ n < s.pr.table.nodeLimit ∧ s.pa.fixed.contains n = false) → Completes .fixScanStep s fun t =>
      (n + 1 < s.pr.table.nodeLimit → t.getF R.PAIR_FIX_NEXT = (n + 1) % 2 ^ R.PAIR_FIX_NEXT.width ∧ t.isSet R.PAIR_FIX_RUNNING = true) ∧
      (s.pr.table.nodeLimit ≤ n + 1 → t.isSet R.PAIR_FIX_RUNNING = false ∧ t.pa.fixed = []) ∧
      (t.recGet n 72 4 = (s.recGet n 76 4 + (if s.isSet R.PAIR_FIX_STALE then 2 ^ 20 else 0)) % 2 ^ 32) ∧
      (t.recGet n 76 4 = (if s.isSet R.PAIR_FIX_STALE then (s.recGet n 76 4 + 2 ^ 20) % 2 ^ 32 else s.recGet n 76 4)) ∧
      (s.isSet R.PAIR_FIX_STALE = true → Store.find? n t.pa.bands = some (s.recGet n 76 4, 2) ∨ t.pa.bands = [])) ∧
    (∀ (n : Nat), (s.isSet R.PAIR_FIX_RUNNING = true ∧ n = s.getF R.PAIR_FIX_NEXT ∧ n < s.pr.table.nodeLimit ∧ s.pa.fixed.contains n = true) → Completes .fixScanStep s fun t =>
      t.mem = s.mem ∧ t.getF R.PAIR_FIX_NEXT = (n + 1) % 2 ^ R.PAIR_FIX_NEXT.width ∧ t.isSet R.PAIR_FIX_RUNNING = decide (n + 1 < s.pr.table.nodeLimit)) ∧
    ((s.isSet R.PAIR_FIX_RUNNING = true ∧ s.pr.table.nodeLimit ≤ s.getF R.PAIR_FIX_NEXT) → Completes .fixScanStep s fun t =>
      t = s.setF R.PAIR_FIX_RUNNING 0) ∧
    (s.isSet R.PAIR_FIX_RUNNING = false → Completes .fixScanStep s fun t =>
      t = s) ∧
    (∀ (u : Nat), (s.pa.naAt.any (fun a => decide (a ≤ max s.mtb u)) = true ∧ s.pairRole = 1) → Completes (.naRepeat u) s fun t =>
      t.pa.naAt = none ∧
      t.out = ([1, 0].filter s.uplCarries).map (fun p => Msg.naService p ((s.advance u).serviceAddrs p)) ++ s.out ∧
      t.regs = s.regs) ∧
    (∀ (u : Nat), (¬ (s.pa.naAt.any (fun a => decide (a ≤ max s.mtb u)) = true ∧ s.pairRole = 1)) → Completes (.naRepeat u) s fun t =>
      t = s.advance u) ∧
    (s.auditRoom = true → Completes .pairResignWrite s fun t =>
      (s.pairOn = true ∧ s.pairRole = 1 → t.pairRole = 4 ∧ t.pa.lost = true ∧ t.resp = ST.OK ∧ (List.range 4).all (fun i => (t.trx i).onAir.isNone) = true) ∧
      (s.pairOn = true ∧ s.pairRole = 1 ∧ (s.isSet R.PAIR_STATE_TIE_UP = true ∨ s.witUp = true) → t.getF R.PAIR_COUNT0_RESIGNS = (s.getF R.PAIR_COUNT0_RESIGNS + 1) % 2 ^ R.PAIR_COUNT0_RESIGNS.width) ∧
      (s.pairOn = false → t.resp = ST.PAIR_OFF ∧ t.getF R.PAIR_CMD_ERR_STATUS = ST.PAIR_OFF ∧ t.pa = s.pa) ∧
      (s.pairOn = true ∧ s.pairRole ≠ 1 → t.resp = ST.PAIR_STATE ∧ t.getF R.PAIR_CMD_ERR_STATUS = ST.PAIR_STATE ∧ t.pa = s.pa)) ∧
    (s.auditRoom = false → Completes .pairResignWrite s fun t =>
      t = (s.raise R.ROLE_EVENT_AUDIT_BUSY).refuse R.PAIR_CMD_ERR_STATUS ST.ROLE_AUDIT_BUSY) ∧
    (s.auditRoom = true → (s.pairOn = true ∧ s.pairRole = 1 ∧ s.getF R.PAIR_STATE_PEER_ROLE = 3 ∧ s.isSet R.PAIR_STATE_TIE_UP = true) → Completes .pairResyncWrite s fun t =>
      t.resp = ST.OK ∧ t.isSet R.PAIR_STATE_RESYNC = true ∧
      t.pa.journal = [] ∧ t.pa.mirrors = true ∧ t.pa.fresh = false ∧ t.pa.waits = [] ∧
      (s.ry.settings = [] ∧ s.pa.key = none → t.pa.nextSeq = 1 + (s.region 0).2 / 64 + (s.region 2).2 / 64 + (s.region 6).2 / 64 + (s.region 7).2 / 64)) ∧
    (s.auditRoom = true → (¬ (s.pairOn = true ∧ s.pairRole = 1 ∧ s.getF R.PAIR_STATE_PEER_ROLE = 3 ∧ s.isSet R.PAIR_STATE_TIE_UP = true)) → Completes .pairResyncWrite s fun t =>
      (t.resp = (if s.pairOn then ST.PAIR_STATE else ST.PAIR_OFF) ∧ t.getF R.PAIR_CMD_ERR_STATUS = t.resp ∧ t.pa = s.pa ∧ t.out = s.out)) ∧
    (s.auditRoom = false → Completes .pairResyncWrite s fun t =>
      t = (s.raise R.ROLE_EVENT_AUDIT_BUSY).refuse R.PAIR_CMD_ERR_STATUS ST.ROLE_AUDIT_BUSY) ∧
    (∀ (u : Nat), (s.pairRole = 3 ∧ s.isSet R.PAIR_STATE_RESYNC = true ∧ s.isSet R.PAIR_STATE_TIE_UP = true) → Completes (.resyncComplete u) s fun t =>
      t.pairRole = 2 ∧ t.isSet R.PAIR_STATE_RESYNC = false ∧ t.getF R.PAIR_EVENT_RESYNC_DONE = 1) ∧
    (∀ (u : Nat), (¬ (s.pairRole = 3 ∧ s.isSet R.PAIR_STATE_RESYNC = true ∧ s.isSet R.PAIR_STATE_TIE_UP = true)) → Completes (.resyncComplete u) s fun t =>
      t = s.advance u)

/-- A begin that passes the checks of R469 takes the session for its credential, sets the target slot EMPTY, erases it, and
in a pair sends the manifest as OFFER; else it answers the check's status, with event BUSY_REFUSED for a session held by
another. A write that continues its entry is held, its complete pages are programmed when the entry is the unit's own, and it
goes on as DATA in a pair; the last write repeated is ST_OK; a page that cannot be programmed ends the session with
ST_UPDATE_FLASH. Finish programs the last pages and, when all is good, makes the slot STAGED, writes the manifest and ends
the session, or on the unit of a pair that forwards waits for the peer; else ST_UPDATE_DIGEST. Activate of a STAGED slot by
its stager makes the trial record, erases the other settings area and asks for a warm reset; in a pair it sends ACTIVATE to a
ready peer, else ST_UPDATE_PEER. Abort ends the caller's session, telling the peer. Status answers. Calls out of range,
without a session or of another holder are refused and change nothing; begin and activate without room for their record
answer ST_ROLE_AUDIT_BUSY; a call that is not the oldest open one of its service does nothing. Where the spec leaves a detail
open it rests on the model's choices of log entry 40. -/
def Obligations.UpdateService : Prop :=
  ∀ s : State, s.Inv → 
    (∀ (k u : Nat) (l : List Byte), s.openCall k svcUpdate 1 = none → Completes (.updateBegin k l u) s fun t =>
      t = s.advance u) ∧
    (∀ (k : Nat) (q : Ticket) (l : List Byte) (u : Nat), s.openCall k svcUpdate 1 = some q → s.auditRoom = false → Completes (.updateBegin k l u) s fun t =>
      t = ((s.advance u).raise R.ROLE_EVENT_AUDIT_BUSY).finishCall k ST.ROLE_AUDIT_BUSY []) ∧
    (∀ (k : Nat) (q : Ticket) (l : List Byte) (u : Nat), s.openCall k svcUpdate 1 = some q → s.auditRoom = true → Completes (.updateBegin k l u) s fun t =>
      ((s.advance u).beginFault (some q.cred) (s.offered l)).all (fun st => decide (t.answer? k = some (st, []) ∧ t.up = s.up ∧ t.flash = s.flash)) = true ∧
      (s.slotRec.trial ≠ 0 → t.answer? k = some (ST.UPDATE_STATE, [])) ∧
      (s.slotRec.trial = 0 ∧ s.up.session.any (fun (v : UpSession) => v.holder != some q.cred) = true → t.answer? k = some (ST.UPDATE_BUSY, []) ∧ t.getF R.UPDATE_EVENT_BUSY_REFUSED = 1) ∧
      ((s.advance u).beginFault (some q.cred) (s.offered l) = none → t.answer? k = some (ST.OK, [(20, [(s.offered l).digest]), (21, [s.upSlot])]) ∧ t.slotState s.upSlot = 0 ∧ t.up.session = some { holder := some q.cred, man := s.offered l, raw := l, at_ := max s.mtb u } ∧ t.up.stager = none) ∧
      ((s.advance u).beginFault (some q.cred) (s.offered l) = none → ∀ a : Nat, (4096 * fwPage s.upSlot ≤ a ∧ a < 4096 * (fwPage s.upSlot + 6144)) ∨ (4096 * prPage s.upSlot ≤ a ∧ a < 4096 * (prPage s.upSlot + 256)) → t.flashByte a = 0xFF) ∧
      ((s.advance u).beginFault (some q.cred) (s.offered l) = none ∧ s.upLink = true → .amrek (amrekOctets 0x10 (Store.get (fun _ => 0) s.pa.amrekSeq 0x10) (nats l)) ∈ t.out) ∧
      (s.upLink = false → t.out = s.out)) ∧
    (∀ (k i a u : Nat) (l : List Byte) (f : Bool), s.openCall k svcUpdate 2 = none → Completes (.updateWrite k i a l f u) s fun t =>
      t = s.advance u) ∧
    (∀ (k : Nat) (q : Ticket) (i a u : Nat) (l : List Byte) (f : Bool), s.openCall k svcUpdate 2 = some q → ((s.advance u).writeFault (some q.cred) i a l 1024).isSome = true → Completes (.updateWrite k i a l f u) s fun t =>
      ((s.advance u).writeFault (some q.cred) i a l 1024).all (fun st => decide ((t.answer? k).map (·.1) = some st)) = true ∧ t.up = s.up ∧ t.flash = s.flash ∧ t.out = s.out ∧
      (l = [] ∨ 1024 < l.length → t.answer? k = some (ST.UPDATE_RANGE, [])) ∧
      (s.up.session = none ∧ l ≠ [] ∧ l.length ≤ 1024 → t.answer? k = some (ST.UPDATE_STATE, [])) ∧
      (l ≠ [] ∧ l.length ≤ 1024 ∧ s.up.session.any (fun (v : UpSession) => v.holder != some q.cred) = true → t.answer? k = some (ST.UPDATE_BUSY, [])) ∧
      (l ≠ [] ∧ l.length ≤ 1024 ∧ s.up.session.any (fun (v : UpSession) => v.holder == some q.cred && v.waiting.isNone && decide (i < v.man.entries.length ∧ Store.find? i v.lastOff = some a ∧ Store.find? i v.lastDat = some l)) = true → (t.answer? k).map (·.1) = some ST.OK) ∧
      (l ≠ [] ∧ l.length ≤ 1024 ∧ s.up.session.any (fun (v : UpSession) => v.holder == some q.cred && v.waiting.isNone && decide (v.man.entries.length ≤ i)) = true → t.answer? k = some (ST.UPDATE_RANGE, []))) ∧
    (∀ (k : Nat) (q : Ticket) (i a u : Nat) (l : List Byte) (f : Bool) (v : UpSession) (e : ManEntry), s.openCall k svcUpdate 2 = some q → (s.advance u).writeFault (some q.cred) i a l 1024 = none → (s.up.session = some v ∧ v.man.entries[i]? = some e) → (s.isOurs e = false ∨ (Store.get (fun _ => ([] : List Byte)) v.page i ++ l).length < 4096 ∨ f = true) → Completes (.updateWrite k i a l f u) s fun t =>
      t.answer? k = some (ST.OK, [(20, [a + l.length])]) ∧
      t.up.session.map (fun (x : UpSession) => (x.heldOf i, Store.find? i x.lastOff, Store.find? i x.lastDat)) = some (a + l.length, some a, some l) ∧
      t.up.session.map (fun (x : UpSession) => (x.at_, x.holder, x.man)) = some (max s.mtb u, v.holder, v.man) ∧
      (s.isOurs e = true → t.up.session.map (fun (x : UpSession) => Store.get (fun _ => ([] : List Byte)) x.page i) = some ((Store.get (fun _ => ([] : List Byte)) v.page i ++ l).drop (4096 * ((Store.get (fun _ => ([] : List Byte)) v.page i ++ l).length / 4096)))) ∧
      (s.isOurs e = true ∧ 4096 ≤ (Store.get (fun _ => ([] : List Byte)) v.page i ++ l).length → t.flash = (s.programPages (s.entryPage e + (a - (Store.get (fun _ => ([] : List Byte)) v.page i).length) / 4096) ((Store.get (fun _ => ([] : List Byte)) v.page i ++ l).length / 4096) ((Store.get (fun _ => ([] : List Byte)) v.page i ++ l).take (4096 * ((Store.get (fun _ => ([] : List Byte)) v.page i ++ l).length / 4096)))).flash) ∧
      (s.isOurs e = false ∨ (Store.get (fun _ => ([] : List Byte)) v.page i ++ l).length < 4096 → t.flash = s.flash) ∧
      (t.out = (if s.upLink then .amrek (amrekOctets 0x11 (Store.get (fun _ => 0) s.pa.amrekSeq 0x11) ([i, 0, 0, 0] ++ nats (leBytes 4 a ++ l))) :: s.out else s.out))) ∧
    (∀ (k : Nat) (q : Ticket) (i a u : Nat) (l : List Byte) (v : UpSession) (e : ManEntry), s.openCall k svcUpdate 2 = some q → (s.advance u).writeFault (some q.cred) i a l 1024 = none → (s.up.session = some v ∧ v.man.entries[i]? = some e) → (s.isOurs e = true ∧ 4096 ≤ (Store.get (fun _ => ([] : List Byte)) v.page i ++ l).length) → Completes (.updateWrite k i a l false u) s fun t =>
      t.answer? k = some (ST.UPDATE_FLASH, []) ∧
      t.up.session = none ∧ t.getF R.UPDATE_EVENT_SESSION_ABORTED = 1 ∧ t.flash = s.flash ∧
      (s.upLink = true → .amrek (amrekOctets 0x15 (Store.get (fun _ => 0) s.pa.amrekSeq 0x15) (List.replicate 8 0)) ∈ t.out)) ∧
    (∀ (k : Nat) (q : Ticket) (u : Nat) (f : Bool) (v : UpSession), s.openCall k svcUpdate 3 = some q → (s.up.session = some v ∧ v.holder = some q.cred ∧ v.waiting = none) → (v.page = [] ∨ f = true) → Completes (.updateFinish k f u) s fun t =>
      (((s.advance u).upLastPages v).stagedGood v = false → t.answer? k = some (ST.UPDATE_DIGEST, []) ∧ t.up.session = some v ∧ t.flash = ((s.advance u).upLastPages v).flash) ∧
      (((s.advance u).upLastPages v).stagedGood v = true ∧ (s.pairOn = false ∨ s.peerStaged (mdigOf v.man.digest) = true) → t.answer? k = some (ST.OK, [(20, [v.man.entries.length])]) ∧ t.up.session = none ∧ t.up.stager = some q.cred ∧ t.getF R.UPDATE_EVENT_STAGED = 1) ∧
      (((s.advance u).upLastPages v).stagedGood v = true ∧ (s.pairOn = false ∨ s.peerStaged (mdigOf v.man.digest) = true) ∧ s.upSlot < s.slotRec.states.length ∧ s.upSlot < s.slotRec.mdigs.length → t.slotState s.upSlot = 1 ∧ t.slotDig s.upSlot = mdigOf v.man.digest) ∧
      (((s.advance u).upLastPages v).stagedGood v = true ∧ (s.pairOn = false ∨ s.peerStaged (mdigOf v.man.digest) = true) → t.flash = ((((s.advance u).upLastPages v).putRec ({ s.slotRec.setState s.upSlot 1 with versions := s.slotRec.versions.set s.upSlot v.man.version, mdigs := s.slotRec.mdigs.set s.upSlot (mdigOf v.man.digest) } : SlotRec)).programPages (fwPage s.upSlot + leAt ((((s.advance u).upLastPages v).putRec ({ s.slotRec.setState s.upSlot 1 with versions := s.slotRec.versions.set s.upSlot v.man.version, mdigs := s.slotRec.mdigs.set s.upSlot (mdigOf v.man.digest) } : SlotRec)).fwOctets s.upSlot) 12 4 / 4096) (divUp v.raw.length 4096) v.raw).flash) ∧
      (((s.advance u).upLastPages v).stagedGood v = true ∧ s.pairOn = true ∧ s.peerStaged (mdigOf v.man.digest) = false → t.up.session = some { v with waiting := some k } ∧ t.cmp = s.cmp ∧ t.flash = ((s.advance u).upLastPages v).flash)) ∧
    (∀ (k : Nat) (q : Ticket) (u : Nat) (v : UpSession), s.openCall k svcUpdate 3 = some q → (s.up.session = some v ∧ v.holder = some q.cred ∧ v.waiting = none) → v.page ≠ [] → Completes (.updateFinish k false u) s fun t =>
      t.answer? k = some (ST.UPDATE_FLASH, []) ∧
      t.up.session = none ∧ t.getF R.UPDATE_EVENT_SESSION_ABORTED = 1 ∧ t.flash = s.flash) ∧
    (∀ (k : Nat) (q : Ticket) (u : Nat) (f : Bool), s.openCall k svcUpdate 3 = some q → s.up.session.all (fun (v : UpSession) => v.holder != some q.cred || v.waiting.isSome) = true → Completes (.updateFinish k f u) s fun t =>
      (t.answer? k = some (if s.up.session.any (fun (v : UpSession) => v.holder != some q.cred) then ST.UPDATE_BUSY else ST.UPDATE_STATE, [])) ∧
      t.up = s.up ∧ t.flash = s.flash) ∧
    (∀ (k u : Nat) (f : Bool), s.openCall k svcUpdate 3 = none → Completes (.updateFinish k f u) s fun t =>
      t = s.advance u) ∧
    (∀ (k : Nat) (w : Option Nat), s.openCall k svcUpdate 4 = none → Completes (.updateActivate k w) s fun t =>
      t = s) ∧
    (∀ (k : Nat) (q : Ticket) (w : Option Nat), s.openCall k svcUpdate 4 = some q → s.auditRoom = false → Completes (.updateActivate k w) s fun t =>
      t = (s.raise R.ROLE_EVENT_AUDIT_BUSY).finishCall k ST.ROLE_AUDIT_BUSY []) ∧
    (∀ (k : Nat) (q : Ticket) (w : Option Nat), s.openCall k svcUpdate 4 = some q → s.auditRoom = true → (s.slotState s.upSlot = 1 ∧ s.slotRec.trial = 0 ∧ s.up.stager = some q.cred) → (10 ≤ (w.getD (s.getF R.UPDATE_CFG_WINDOW_S)) ∧ (w.getD (s.getF R.UPDATE_CFG_WINDOW_S)) ≤ 3600) → s.pairOn = false → Completes (.updateActivate k w) s fun t =>
      t.slotRec.trial = s.upSlot + 1 ∧ t.slotState s.upSlot = 2 ∧ t.slotRec.windowS = (w.getD (s.getF R.UPDATE_CFG_WINDOW_S)) ∧ t.slotRec.tries = s.getF R.UPDATE_CFG_TRIES ∧ t.slotRec.gen = s.slotRec.gen + 1 ∧ t.slotRec.settings = s.slotRec.settings.set s.upSlot (1 - s.slotRec.settings.getD s.slotRec.primary 0) ∧
      t.su.warm = some (s.su.warm.getD 4) ∧ t.resp = ST.OK ∧ t.answer? k = none ∧
      (∀ a : Nat, 4096 * settingsPage (1 - s.slotRec.settings.getD s.slotRec.primary 0) ≤ a ∧ a < 4096 * (settingsPage (1 - s.slotRec.settings.getD s.slotRec.primary 0) + 1024) → t.flashByte a = 0xFF) ∧
      t.up.other = [] ∧ t.up.otherCreds = none) ∧
    (∀ (k : Nat) (q : Ticket) (w : Option Nat), s.openCall k svcUpdate 4 = some q → s.auditRoom = true → (s.slotState s.upSlot = 1 ∧ s.slotRec.trial = 0 ∧ s.up.stager = some q.cred) → (10 ≤ (w.getD (s.getF R.UPDATE_CFG_WINDOW_S)) ∧ (w.getD (s.getF R.UPDATE_CFG_WINDOW_S)) ≤ 3600) → s.pairOn = true → Completes (.updateActivate k w) s fun t =>
      (s.pairReady = false → t.answer? k = some (ST.UPDATE_PEER, []) ∧ t.up = s.up) ∧
      (s.pairReady = true → .amrek (amrekOctets 0x13 (Store.get (fun _ => 0) s.pa.amrekSeq 0x13) (octs 8 (s.slotDig s.upSlot) ++ nats (leBytes 2 (w.getD (s.getF R.UPDATE_CFG_WINDOW_S)) ++ leBytes 6 0))) ∈ t.out ∧ t.up.pairWait = 1 ∧ t.up.windowS = (w.getD (s.getF R.UPDATE_CFG_WINDOW_S)) ∧ t.resp = ST.OK ∧ t.answer? k = none) ∧
      t.slotRec = s.slotRec ∧ t.su.warm = s.su.warm ∧ t.flash = s.flash) ∧
    (∀ (k : Nat) (q : Ticket) (w : Option Nat), s.openCall k svcUpdate 4 = some q → s.auditRoom = true → ((w.getD (s.getF R.UPDATE_CFG_WINDOW_S)) < 10 ∨ 3600 < (w.getD (s.getF R.UPDATE_CFG_WINDOW_S)) ∨ s.slotState s.upSlot ≠ 1 ∨ s.slotRec.trial ≠ 0 ∨ s.up.stager ≠ some q.cred) → Completes (.updateActivate k w) s fun t =>
      (t.answer? k = some (if (w.getD (s.getF R.UPDATE_CFG_WINDOW_S)) < 10 ∨ 3600 < (w.getD (s.getF R.UPDATE_CFG_WINDOW_S)) then ST.UPDATE_RANGE else ST.UPDATE_STATE, [])) ∧
      t.up = s.up ∧ t.su.warm = s.su.warm ∧ t.flash = s.flash) ∧
    (∀ (k : Nat), s.openCall k svcUpdate 5 = none → Completes (.updateAbort k) s fun t =>
      t = s) ∧
    (∀ (k : Nat) (q : Ticket), s.openCall k svcUpdate 5 = some q → Completes (.updateAbort k) s fun t =>
      (s.up.session = none → t.answer? k = some (ST.UPDATE_STATE, []) ∧ t.up = s.up) ∧
      (s.up.session.any (fun (v : UpSession) => v.holder != some q.cred) = true → t.answer? k = some (ST.UPDATE_BUSY, []) ∧ t.up = s.up) ∧
      (s.up.session.any (fun (v : UpSession) => v.holder == some q.cred) = true → t.answer? k = some (ST.OK, []) ∧ t.up.session = none ∧ t.getF R.UPDATE_EVENT_SESSION_ABORTED = 1 ∧ t.slotRec = s.slotRec ∧ t.flash = s.flash) ∧
      (s.up.session.any (fun (v : UpSession) => v.holder == some q.cred) = true ∧ s.upLink = true → .amrek (amrekOctets 0x15 (Store.get (fun _ => 0) s.pa.amrekSeq 0x15) (List.replicate 8 0)) ∈ t.out)) ∧
    (∀ (k : Nat), s.openCall k svcUpdate 6 = none → Completes (.updateStatus k) s fun t =>
      t = s) ∧
    (∀ (k : Nat) (q : Ticket), s.openCall k svcUpdate 6 = some q → Completes (.updateStatus k) s fun t =>
      t.answer? k = some (ST.OK, [(20, s.slotRec.states), (21, [s.trialPhase]), (22, s.slotRec.versions), (23, [s.upHolder])]) ∧
      t.up = s.up ∧ t.regs = s.regs)

/-- CONFIRM of a running trial image by the main hoop commits the trial of a single unit, raises both anti-rollback counters
and reports it; in a pair the slot becomes TRIAL_OK and the peer's last RESULT for the image decides. REJECT falls back: the
slot is FAILED, the primary stays, and the running image asks for a warm reset. Any other write is refused with
ST_UPDATE_STATE; without room for its record with ST_ROLE_AUDIT_BUSY. The window's end falls back, in a pair by R479: the
unit with PREF 0 commits when both are TRIAL_OK, the other follows COMMITTED and FAILED and reports UNDECIDED while it has no
decision. An idle session ends. OFFER takes the session for the peer under the checks of R469, DATA writes to it and with its
last octet finishes by itself, ACTIVATE makes the standby's trial of the image it names, RESULT completes a finish that
waits, starts the active unit's own activation and drives the decision, ABORT ends the peer's session. RESULT is sent every
100 ms until its end. Without the tie link, a session or a trial, and for frames that do not fit, nothing but the time
changes. That an own PREF 1 unit falls back on window end while on trial is the model's reading (notes/assumptions/40.md).
Where the spec leaves a detail open it rests on the model's choices of log entry 40. -/
def Obligations.UpdateTrials : Prop :=
  ∀ s : State, s.Inv → 
    (∀ (u : Nat), (s.auditRoom = true ∧ s.trialRuns = true) → s.pairOn = false → Completes (.updateConfirm true u) s fun t =>
      t.slotRec.gen = s.slotRec.gen + 1 ∧ t.slotRec.primary = s.upSlot ∧ t.slotRec.trial = 0 ∧ t.getF R.UPDATE_TRIAL_LAST = ST.OK ∧ t.getF R.UPDATE_EVENT_COMMITTED = 1 ∧ t.up.trialAt = none ∧ t.up.result = 4 ∧ t.resp = ST.OK ∧
      (s.upSlot < s.slotRec.states.length ∧ s.upSlot ≠ s.slotRec.primary → t.slotRec.states.getD s.upSlot 0 = 4) ∧
      (s.slotRec.primary < s.slotRec.states.length → t.slotRec.states.getD s.slotRec.primary 0 = 5) ∧
      (s.up.fwWords.length < 64 → counterOf t.up.fwWords = max (counterOf s.up.fwWords) (s.up.rolls.getD s.upSlot 0)) ∧
      (s.up.prWords.length < 64 → counterOf t.up.prWords = max (counterOf s.up.prWords) s.pr.header.version) ∧
      (64 ≤ s.up.fwWords.length → t.up.fwWords = s.up.fwWords) ∧
      (64 ≤ s.up.prWords.length → t.up.prWords = s.up.prWords) ∧
      (64 ≤ s.up.fwWords.length ∧ counterOf s.up.fwWords < s.up.rolls.getD s.upSlot 0 → t.getF R.UPDATE_EVENT_ROLLBACK_SPENT = 1) ∧
      t.up.okAt = none) ∧
    (∀ (u : Nat), (s.auditRoom = true ∧ s.trialRuns = true) → (s.pairOn = true ∧ s.slotState s.upSlot = 3) → Completes (.updateConfirm true u) s fun t =>
      t.up = s.up ∧ t.su = s.su ∧ t.resp = ST.OK) ∧
    (∀ (u : Nat), (s.auditRoom = true ∧ s.trialRuns = true) → (s.pairOn = true ∧ s.slotState s.upSlot ≠ 3 ∧ s.upSlot < s.slotRec.states.length) → Completes (.updateConfirm true u) s fun t =>
      (s.peerSays 6 = true → t.slotRec.trial = 0 ∧ t.slotRec.primary = s.slotRec.primary ∧ (s.upSlot < s.slotRec.states.length → t.slotRec.states.getD s.upSlot 0 = 6) ∧ t.getF R.UPDATE_TRIAL_LAST = ST.UPDATE_FALLBACK ∧ t.getF R.UPDATE_EVENT_FALLBACK = 1 ∧ t.up.trialAt = none ∧ t.up.result = 6 ∧ t.su.warm = some (s.su.warm.getD 4)) ∧
      ((s.pr.pair.any (fun (p : PairSec) => p.pref == 0) = true ∧ s.peerSays 3 = true) ∨ (s.pr.pair.any (fun (p : PairSec) => p.pref != 0) = true ∧ s.peerSays 4 = true) → t.slotRec.primary = s.upSlot ∧ t.slotRec.trial = 0 ∧ t.getF R.UPDATE_TRIAL_LAST = ST.OK ∧ t.getF R.UPDATE_EVENT_COMMITTED = 1 ∧ t.up.trialAt = none ∧ t.up.result = 4) ∧
      (¬ (s.peerSays 6 = true ∨ (s.pr.pair.any (fun (p : PairSec) => p.pref == 0) = true ∧ s.peerSays 3 = true) ∨ (s.pr.pair.any (fun (p : PairSec) => p.pref != 0) = true ∧ s.peerSays 4 = true)) → t.slotState s.upSlot = 3 ∧ t.up.okAt = some (max s.mtb u) ∧ t.up.result = 3 ∧ t.slotRec.trial = s.slotRec.trial) ∧
      t.resp = ST.OK) ∧
    (∀ (m : Bool) (u : Nat), s.auditRoom = true → (m = false ∨ s.trialRuns = false) → Completes (.updateConfirm m u) s fun t =>
      t.up = s.up ∧ t.resp = ST.UPDATE_STATE ∧ t.getF R.UPDATE_CMD_ERR_STATUS = ST.UPDATE_STATE) ∧
    (∀ (m : Bool) (u : Nat), s.auditRoom = false → Completes (.updateConfirm m u) s fun t =>
      t = ((s.advance u).raise R.ROLE_EVENT_AUDIT_BUSY).refuse R.UPDATE_CMD_ERR_STATUS ST.ROLE_AUDIT_BUSY) ∧
    (∀ (m : Bool) (u : Nat), s.auditRoom = true → (m = false ∨ s.trialRuns = false) → Completes (.updateReject m u) s fun t =>
      t.up = s.up ∧ t.resp = ST.UPDATE_STATE ∧ t.getF R.UPDATE_CMD_ERR_STATUS = ST.UPDATE_STATE) ∧
    (∀ (m : Bool) (u : Nat), s.auditRoom = false → Completes (.updateReject m u) s fun t =>
      t = ((s.advance u).raise R.ROLE_EVENT_AUDIT_BUSY).refuse R.UPDATE_CMD_ERR_STATUS ST.ROLE_AUDIT_BUSY) ∧
    (∀ (u : Nat), (s.auditRoom = true ∧ s.trialRuns = true) → Completes (.updateReject true u) s fun t =>
      (t.slotRec.trial = 0 ∧ t.slotRec.primary = s.slotRec.primary ∧ (s.upSlot < s.slotRec.states.length → t.slotRec.states.getD s.upSlot 0 = 6) ∧ t.getF R.UPDATE_TRIAL_LAST = ST.UPDATE_FALLBACK ∧ t.getF R.UPDATE_EVENT_FALLBACK = 1 ∧ t.up.trialAt = none ∧ t.up.result = 6 ∧ t.su.warm = some (s.su.warm.getD 4) ∧ t.resp = ST.OK)) ∧
    (∀ (u : Nat), (s.trialRuns = true ∧ s.su.heldFrom = none ∧ s.up.trialAt.any (fun a => decide (a + s.slotRec.windowS * secCyc + s.up.heldCyc ≤ max s.mtb u)) = true) → s.pairOn = false → Completes (.trialWindowExpiry u) s fun t =>
      (t.slotRec.trial = 0 ∧ t.slotRec.primary = s.slotRec.primary ∧ (s.upSlot < s.slotRec.states.length → t.slotRec.states.getD s.upSlot 0 = 6) ∧ t.getF R.UPDATE_TRIAL_LAST = ST.UPDATE_FALLBACK ∧ t.getF R.UPDATE_EVENT_FALLBACK = 1 ∧ t.up.trialAt = none ∧ t.up.result = 6 ∧ t.su.warm = some (s.su.warm.getD 4))) ∧
    (∀ (u : Nat), (s.trialRuns = true ∧ s.su.heldFrom = none ∧ s.up.trialAt.any (fun a => decide (a + s.slotRec.windowS * secCyc + s.up.heldCyc ≤ max s.mtb u)) = true) → s.pr.pair.any (fun (p : PairSec) => p.pref == 0) = true → Completes (.trialWindowExpiry u) s fun t =>
      (s.peerSays 6 = true ∨ s.slotState s.upSlot = 2 ∨ (s.slotState s.upSlot = 3 ∧ s.peerSays 1 = true ∧ s.up.okAt.any (fun a => decide (a + s.slotRec.windowS * secCyc < max s.mtb u)) = true) → t.slotRec.trial = 0 ∧ t.slotRec.primary = s.slotRec.primary ∧ (s.upSlot < s.slotRec.states.length → t.slotRec.states.getD s.upSlot 0 = 6) ∧ t.getF R.UPDATE_TRIAL_LAST = ST.UPDATE_FALLBACK ∧ t.getF R.UPDATE_EVENT_FALLBACK = 1 ∧ t.up.trialAt = none ∧ t.up.result = 6 ∧ t.su.warm = some (s.su.warm.getD 4)) ∧
      (s.slotState s.upSlot = 3 ∧ s.peerSays 3 = true → t.slotRec.primary = s.upSlot ∧ t.slotRec.trial = 0 ∧ t.getF R.UPDATE_TRIAL_LAST = ST.OK ∧ t.getF R.UPDATE_EVENT_COMMITTED = 1 ∧ t.up.trialAt = none ∧ t.up.result = 4) ∧
      (s.peerSays 6 = false ∧ s.slotState s.upSlot = 3 ∧ s.peerSays 3 = false ∧ ¬ (s.peerSays 1 = true ∧ s.up.okAt.any (fun a => decide (a + s.slotRec.windowS * secCyc < max s.mtb u)) = true) → t = s.advance u)) ∧
    (∀ (u : Nat), (s.trialRuns = true ∧ s.su.heldFrom = none ∧ s.up.trialAt.any (fun a => decide (a + s.slotRec.windowS * secCyc + s.up.heldCyc ≤ max s.mtb u)) = true) → s.pr.pair.any (fun (p : PairSec) => p.pref != 0) = true → Completes (.trialWindowExpiry u) s fun t =>
      (s.peerSays 4 = true → t.slotRec.primary = s.upSlot ∧ t.slotRec.trial = 0 ∧ t.getF R.UPDATE_TRIAL_LAST = ST.OK ∧ t.getF R.UPDATE_EVENT_COMMITTED = 1 ∧ t.up.trialAt = none ∧ t.up.result = 4) ∧
      (s.peerSays 6 = true ∨ (s.peerSays 4 = false ∧ s.slotState s.upSlot = 2) → t.slotRec.trial = 0 ∧ t.slotRec.primary = s.slotRec.primary ∧ (s.upSlot < s.slotRec.states.length → t.slotRec.states.getD s.upSlot 0 = 6) ∧ t.getF R.UPDATE_TRIAL_LAST = ST.UPDATE_FALLBACK ∧ t.getF R.UPDATE_EVENT_FALLBACK = 1 ∧ t.up.trialAt = none ∧ t.up.result = 6 ∧ t.su.warm = some (s.su.warm.getD 4)) ∧
      (s.peerSays 4 = false ∧ s.peerSays 6 = false ∧ s.slotState s.upSlot = 3 → t = (s.advance u).raise R.UPDATE_EVENT_UNDECIDED)) ∧
    (∀ (u : Nat), (¬ (s.trialRuns = true ∧ s.su.heldFrom = none ∧ s.up.trialAt.any (fun a => decide (a + s.slotRec.windowS * secCyc + s.up.heldCyc ≤ max s.mtb u)) = true)) → Completes (.trialWindowExpiry u) s fun t =>
      t = s.advance u) ∧
    (∀ (u : Nat), s.up.session.any (fun (v : UpSession) => v.waiting.isNone && decide (v.at_ + s.getF R.UPDATE_CFG_IDLE_S * secCyc ≤ max s.mtb u)) = true → Completes (.updateSessionIdle u) s fun t =>
      t.up.session = none ∧ t.getF R.UPDATE_EVENT_SESSION_ABORTED = 1 ∧ t.slotRec = s.slotRec ∧ t.flash = s.flash ∧
      (s.up.session.any (fun (v : UpSession) => v.holder.isSome) = true ∧ s.upLink = true → .amrek (amrekOctets 0x15 (Store.get (fun _ => 0) s.pa.amrekSeq 0x15) (List.replicate 8 0)) ∈ t.out)) ∧
    (∀ (u : Nat), ¬ (s.up.session.any (fun (v : UpSession) => v.waiting.isNone && decide (v.at_ + s.getF R.UPDATE_CFG_IDLE_S * secCyc ≤ max s.mtb u)) = true) → Completes (.updateSessionIdle u) s fun t =>
      t = s.advance u) ∧
    (∀ (l : List Byte) (u : Nat), s.upLink = true → Completes (.updateOfferRx l u) s fun t =>
      (((s.advance u).beginFault none (s.offered l)).isSome = true → t.up = s.up ∧ t.flash = s.flash) ∧
      (s.slotRec.trial = 0 ∧ s.up.session.any (fun (v : UpSession) => v.holder.isSome) = true → t.getF R.UPDATE_EVENT_BUSY_REFUSED = 1) ∧
      ((s.advance u).beginFault none (s.offered l) = none → t.up.session = some { holder := none, man := s.offered l, raw := l, at_ := max s.mtb u } ∧ t.slotState s.upSlot = 0) ∧
      ((s.advance u).beginFault none (s.offered l) = none → ∀ a : Nat, (4096 * fwPage s.upSlot ≤ a ∧ a < 4096 * (fwPage s.upSlot + 6144)) ∨ (4096 * prPage s.upSlot ≤ a ∧ a < 4096 * (prPage s.upSlot + 256)) → t.flashByte a = 0xFF)) ∧
    (∀ (l : List Byte) (u : Nat), ¬ (s.upLink = true) → Completes (.updateOfferRx l u) s fun t =>
      t = s.advance u) ∧
    (∀ (i a u : Nat) (l : List Byte) (f : Bool), (¬ (s.upLink = true ∧ ((s.advance u).writeFault none i a l 4088).isNone = true)) → Completes (.updateDataRx i a l f u) s fun t =>
      t = s.advance u) ∧
    (∀ (i a u : Nat) (l : List Byte) (f : Bool) (v : UpSession) (e : ManEntry), (s.upLink = true ∧ (s.advance u).writeFault none i a l 4088 = none) → (s.up.session = some v ∧ v.man.entries[i]? = some e) → (s.isOurs e = false ∨ (Store.get (fun _ => ([] : List Byte)) v.page i ++ l).length < 4096 ∨ f = true) → Completes (.updateDataRx i a l f u) s fun t =>
      t.up.session.all (fun (x : UpSession) => decide (x.heldOf i = a + l.length ∧ Store.find? i x.lastOff = some a ∧ Store.find? i x.lastDat = some l)) = true ∧
      ((Store.get (fun _ => ([] : List Byte)) v.page i ++ l).length < 4096 ∧ s.isOurs e = true ∧ a + l.length < e.len → t.flash = s.flash ∧ t.up.session.map (fun (x : UpSession) => Store.get (fun _ => ([] : List Byte)) x.page i) = some ((Store.get (fun _ => ([] : List Byte)) v.page i ++ l))) ∧
      (s.isOurs e = true ∧ a + l.length < e.len ∧ 4096 ≤ (Store.get (fun _ => ([] : List Byte)) v.page i ++ l).length → t.flash = (s.programPages (s.entryPage e + (a - (Store.get (fun _ => ([] : List Byte)) v.page i).length) / 4096) ((Store.get (fun _ => ([] : List Byte)) v.page i ++ l).length / 4096) ((Store.get (fun _ => ([] : List Byte)) v.page i ++ l).take (4096 * ((Store.get (fun _ => ([] : List Byte)) v.page i ++ l).length / 4096)))).flash)) ∧
    (∀ (i a u : Nat) (l : List Byte) (v : UpSession) (e : ManEntry), (s.upLink = true ∧ (s.advance u).writeFault none i a l 4088 = none) → (s.up.session = some v ∧ v.man.entries[i]? = some e) → (s.isOurs e = true ∧ 4096 ≤ (Store.get (fun _ => ([] : List Byte)) v.page i ++ l).length) → Completes (.updateDataRx i a l false u) s fun t =>
      t.up.session = none ∧ t.getF R.UPDATE_EVENT_SESSION_ABORTED = 1 ∧ t.flash = s.flash) ∧
    (∀ (i a u : Nat) (l : List Byte) (f : Bool) (x : UpSession), (s.upLink = true ∧ (s.advance u).writeFault none i a l 4088 = none) → ((s.advance u).upWrite i a l f).up.session = some x → Completes (.updateDataRx i a l f u) s fun t =>
      ((List.range x.man.entries.length).all (fun (j : Nat) => (x.man.entries[j]?).all (fun (d : ManEntry) => !s.isOurs d || x.heldOf j == d.len)) = false → t = ((s.advance u).upWrite i a l f)) ∧
      ((List.range x.man.entries.length).all (fun (j : Nat) => (x.man.entries[j]?).all (fun (d : ManEntry) => !s.isOurs d || x.heldOf j == d.len)) = true ∧ (x.page = [] ∨ f = true) ∧ ((List.range x.man.entries.length).all (fun (j : Nat) => (x.man.entries[j]?).all (fun (d : ManEntry) => !s.isOurs d || (((s.advance u).upWrite i a l f).upLastPages x).entryGood x j d)) = true ∧ ((((s.advance u).upWrite i a l f).upLastPages x).loadFault (((s.advance u).upWrite i a l f).upLastPages x).staged (counterOf s.up.prWords)) = none) → t.up.session = none ∧ t.getF R.UPDATE_EVENT_STAGED = 1 ∧ t.up.result = 1 ∧ t.up.resultTo = some noEnd ∧ (s.upSlot < s.slotRec.states.length → t.slotState s.upSlot = 1)) ∧
      ((List.range x.man.entries.length).all (fun (j : Nat) => (x.man.entries[j]?).all (fun (d : ManEntry) => !s.isOurs d || x.heldOf j == d.len)) = true ∧ (x.page = [] ∨ f = true) ∧ ¬ ((List.range x.man.entries.length).all (fun (j : Nat) => (x.man.entries[j]?).all (fun (d : ManEntry) => !s.isOurs d || (((s.advance u).upWrite i a l f).upLastPages x).entryGood x j d)) = true ∧ ((((s.advance u).upWrite i a l f).upLastPages x).loadFault (((s.advance u).upWrite i a l f).upLastPages x).staged (counterOf s.up.prWords)) = none) → t = ((s.advance u).upWrite i a l f).upLastPages x) ∧
      ((List.range x.man.entries.length).all (fun (j : Nat) => (x.man.entries[j]?).all (fun (d : ManEntry) => !s.isOurs d || x.heldOf j == d.len)) = true ∧ x.page ≠ [] ∧ f = false → t.up.session = none ∧ t.getF R.UPDATE_EVENT_SESSION_ABORTED = 1)) ∧
    (∀ (d : BitVec 64) (w : Nat), (s.upLink = true ∧ s.pairRole = 2 ∧ s.slotState s.upSlot = 1 ∧ s.slotRec.trial = 0 ∧ s.slotDig s.upSlot = d.toNat ∧ 10 ≤ w ∧ w ≤ 3600) → Completes (.updateActivateRx d w) s fun t =>
      t.slotRec.trial = s.upSlot + 1 ∧ t.slotState s.upSlot = 2 ∧ t.slotRec.tries = s.getF R.UPDATE_CFG_TRIES ∧ t.su.warm = some (s.su.warm.getD 4) ∧ t.slotRec.windowS = w ∧
      (∀ a : Nat, 4096 * settingsPage (1 - s.slotRec.settings.getD s.slotRec.primary 0) ≤ a ∧ a < 4096 * (settingsPage (1 - s.slotRec.settings.getD s.slotRec.primary 0) + 1024) → t.flashByte a = 0xFF)) ∧
    (∀ (d : BitVec 64) (w : Nat), (¬ (s.upLink = true ∧ s.pairRole = 2 ∧ s.slotState s.upSlot = 1 ∧ s.slotRec.trial = 0 ∧ s.slotDig s.upSlot = d.toNat ∧ 10 ≤ w ∧ w ≤ 3600)) → Completes (.updateActivateRx d w) s fun t =>
      t = s) ∧
    (∀ (d : BitVec 64) (r : Fin 8) (u : Nat), ¬ (s.upLink = true) → Completes (.updateResultRx d r u) s fun t =>
      t = s.advance u) ∧
    (∀ (d : BitVec 64) (r : Fin 8) (u : Nat) (v : UpSession), s.upLink = true → s.up.session = some v → Completes (.updateResultRx d r u) s fun t =>
      (v.waiting.isSome = true ∧ d.toNat = mdigOf v.man.digest ∧ r.val = 1 → t.up.session = none ∧ t.getF R.UPDATE_EVENT_STAGED = 1 ∧ t.up.peer = some (d.toNat, r.val) ∧ (s.upSlot < s.slotRec.states.length → t.slotState s.upSlot = 1)) ∧
      (v.waiting.isSome = true ∧ d.toNat = mdigOf v.man.digest ∧ r.val = 1 → v.waiting.all (fun k => (Store.find? k s.cmp.tickets).isNone || decide (t.answer? k = some (ST.OK, [(20, [v.man.entries.length])]))) = true) ∧
      (¬ (v.waiting.isSome = true ∧ d.toNat = mdigOf v.man.digest ∧ r.val = 1) → t = ({ s.advance u with up := { s.up with peer := some (d.toNat, r.val) } } : State))) ∧
    (∀ (d : BitVec 64) (r : Fin 8) (u : Nat), (s.upLink = true ∧ s.up.session = none) → d.toNat = s.slotDig s.upSlot → (s.onTrial = true ∨ s.up.pairWait ≠ 0) → Completes (.updateResultRx d r u) s fun t =>
      (r.val = 6 → t.slotRec.trial = 0 ∧ t.slotRec.primary = s.slotRec.primary ∧ (s.upSlot < s.slotRec.states.length → t.slotRec.states.getD s.upSlot 0 = 6) ∧ t.getF R.UPDATE_TRIAL_LAST = ST.UPDATE_FALLBACK ∧ t.getF R.UPDATE_EVENT_FALLBACK = 1 ∧ t.up.trialAt = none ∧ t.up.result = 6) ∧
      ((s.pr.pair.any (fun (p : PairSec) => p.pref != 0) = true ∧ r.val = 4) ∨ (s.pr.pair.any (fun (p : PairSec) => p.pref == 0) = true ∧ s.slotState s.upSlot = 3 ∧ r.val = 3) → t.slotRec.primary = s.upSlot ∧ t.slotRec.trial = 0 ∧ t.getF R.UPDATE_TRIAL_LAST = ST.OK ∧ t.getF R.UPDATE_EVENT_COMMITTED = 1 ∧ t.up.trialAt = none ∧ t.up.result = 4) ∧
      (r.val = 6 ∧ s.trialRuns = true → t.su.warm = some (s.su.warm.getD 4))) ∧
    (∀ (d : BitVec 64) (r : Fin 8) (u : Nat), (s.upLink = true ∧ s.up.session = none) → (s.onTrial = false ∧ s.slotState s.upSlot = 1) → ((d.toNat = s.slotDig s.upSlot ∧ r.val = 3 ∧ s.up.pairWait = 1) ∨ (s.up.pairWait = 2 ∧ (d.toNat ≠ s.slotDig s.upSlot ∨ r.val < 4))) → Completes (.updateResultRx d r u) s fun t =>
      ((s.up.keepsSd = false ∨ s.getF R.PAIR_STATE_PEER_ROLE = 2) → t.slotRec.trial = s.upSlot + 1 ∧ t.slotState s.upSlot = 2 ∧ t.slotRec.tries = s.getF R.UPDATE_CFG_TRIES ∧ t.su.warm = some (s.su.warm.getD 4) ∧ t.slotRec.windowS = s.up.windowS ∧ t.up.pairWait = 0) ∧
      (¬ (s.up.keepsSd = false ∨ s.getF R.PAIR_STATE_PEER_ROLE = 2) → t.slotRec = s.slotRec ∧ t.up.pairWait = 2 ∧ t.su.warm = s.su.warm)) ∧
    (∀ (d : BitVec 64) (r : Fin 8) (u : Nat), (s.upLink = true ∧ s.up.session = none) → (s.onTrial = false ∧ s.up.pairWait = 0) → Completes (.updateResultRx d r u) s fun t =>
      t = ({ s.advance u with up := { s.up with peer := some (d.toNat, r.val) } } : State)) ∧
    ((s.upLink = true ∧ s.up.session.any (fun (v : UpSession) => v.holder.isNone) = true) → Completes .updateAbortRx s fun t =>
      t.up.session = none ∧ t.getF R.UPDATE_EVENT_SESSION_ABORTED = 1 ∧ t.flash = s.flash ∧ t.slotRec = s.slotRec ∧ t.out = s.out) ∧
    ((¬ (s.upLink = true ∧ s.up.session.any (fun (v : UpSession) => v.holder.isNone) = true)) → Completes .updateAbortRx s fun t =>
      t = s) ∧
    (∀ (u : Nat), (s.upLink = true ∧ s.up.resultTo.any (fun e => decide (max s.mtb u ≤ e)) = true ∧ s.up.resultAt.all (fun a => decide (a + msToCyc 100 ≤ max s.mtb u)) = true) → Completes (.updateResultSend u) s fun t =>
      (t.out = .amrek (amrekOctets 0x14 (Store.get (fun _ => 0) s.pa.amrekSeq 0x14) (octs 8 (s.slotDig (if s.up.result = 4 then s.slotRec.primary else s.upSlot)) ++ nats (leBytes 1 s.up.result ++ leBytes 7 0))) :: s.out) ∧
      t.up = { s.up with resultAt := some (max s.mtb u) } ∧ t.regs = s.regs) ∧
    (∀ (u : Nat), (¬ (s.upLink = true ∧ s.up.resultTo.any (fun e => decide (max s.mtb u ≤ e)) = true ∧ s.up.resultAt.all (fun a => decide (a + msToCyc 100 ≤ max s.mtb u)) = true)) → Completes (.updateResultSend u) s fun t =>
      t = s.advance u)

/-- At the PERIPH edge at or after the given time, while ROOT runs, a pin's new level stands in SVC_GPIO_IN and an edge of
the selected kind sets its event bit, the other pins stay as they are; and QUEUE_FCP.PIN takes the queues' states, each flow-
control pin being driven, from RUNNING on, from it or from FORCE_VAL where FORCE is set, at the level POL gives and, with OD,
only while asserted. Before ROOT runs neither does anything. Where the spec leaves a detail open it rests on the model's
choices of log entries 2 and 45. -/
def Obligations.PinCommands : Prop :=
  ∀ s : State, s.Inv → 
    (∀ (p : Fin 8) (r : Bool) (u : Nat), s.rootRuns = true → Completes (.gpioEdge p r u) s fun t =>
      t.isSet (R.SVC_GPIO_IN_IN.bit p) = r ∧
      (s.isSet (R.SVC_PIN_CFG_EDGE.bit p) = r → t.isSet (R.SVC_EVENT_GPIO_EDGE.bit p) = true) ∧
      (s.isSet (R.SVC_PIN_CFG_EDGE.bit p) ≠ r → t.getF R.SVC_EVENT_GPIO_EDGE = s.getF R.SVC_EVENT_GPIO_EDGE) ∧
      (List.range 8).all (fun i => i == p.val || t.isSet (R.SVC_GPIO_IN_IN.bit i) == s.isSet (R.SVC_GPIO_IN_IN.bit i)) = true ∧
      (t.mtb = max s.mtb (periphEdge u) ∧ t.mtb % 16 = (if s.mtb ≤ periphEdge u then 0 else s.mtb % 16) ∧ t.out = s.out)) ∧
    (∀ (p : Fin 8) (r : Bool) (u : Nat), s.rootRuns = false → Completes (.gpioEdge p r u) s fun t =>
      t = s) ∧
    (∀ (u : Nat), s.rootRuns = true → Completes (.fcpPinUpdate u) s fun t =>
      (List.range 4).all (fun n => t.isSet (R.QUEUE_FCP_PIN.bit n) == s.fcpAbove n) = true ∧
      (t.out = (if s.running then [3, 2, 1, 0].map (fun n => Msg.fcp n (if s.isSet (R.SVC_FCP_CFG_FORCE.bit n) then s.isSet (R.SVC_FCP_CFG_FORCE_VAL.bit n) else s.fcpAbove n) (s.fcpLevel n (if s.isSet (R.SVC_FCP_CFG_FORCE.bit n) then s.isSet (R.SVC_FCP_CFG_FORCE_VAL.bit n) else s.fcpAbove n))) else []) ++ s.out) ∧
      ((List.range 4).all (fun n => s.fcpLevel n true == some (s.isSet (R.SVC_FCP_CFG_POL.bit n)) && s.fcpLevel n false == (if s.isSet (R.SVC_FCP_CFG_OD.bit n) then none else some (!s.isSet (R.SVC_FCP_CFG_POL.bit n)))) = true) ∧
      t.queues = s.queues ∧ t.mem = s.mem ∧ t.mtb = max s.mtb (periphEdge u)) ∧
    (∀ (u : Nat), s.rootRuns = false → Completes (.fcpPinUpdate u) s fun t =>
      t = s)

/-- With the owner root ABSENT, ERASED or RELEASED, an enabled source's event takes the next log entry while one is free,
counts in TAMPER_COUNT, and leaves the owner root's state, every key, every register of another block, memory, flash and the
rest of the state as they were. -/
def Obligations.TamperWithoutOwner : Prop :=
  ∀ s : State, s.Inv → 
    (∀ (i : Fin 8) (u : Nat), (s.su.vbat = true ∧ s.ownerState ≠ 1) → (s.isSet (R.TAMPER_CFG_EN.bit i) = true ∧ s.ky.quiet.contains i.val = false) → Completes (.tamperSourceEvent i u) s fun t =>
      (s.tamperEntries < 8 → t.isSet (R.TAMPER_LOG_VALID.bank s.tamperEntries) = true ∧ t.getF (R.TAMPER_LOG_SOURCE.bank s.tamperEntries) = i ∧ t.isSet (R.TAMPER_LOG_WAS_PRESENT.bank s.tamperEntries) = false) ∧
      (List.range 8).all (fun j => j == s.tamperEntries || t.isSet (R.TAMPER_LOG_VALID.bank j) == s.isSet (R.TAMPER_LOG_VALID.bank j) && t.getF (R.TAMPER_LOG_SOURCE.bank j) == s.getF (R.TAMPER_LOG_SOURCE.bank j)) = true ∧
      t.getF R.TAMPER_COUNT_COUNT = (s.getF R.TAMPER_COUNT_COUNT + 1) % 2 ^ R.TAMPER_COUNT_COUNT.width ∧
      t.ownerState = s.ownerState ∧ t.getReg R.TAMPER_CFG = s.getReg R.TAMPER_CFG ∧
      ({ t.ky with quiet := s.ky.quiet } : Keys) = s.ky ∧
      State.Within [.block 19, .ky, .notes, .mtb] s t)

/-- A STANDBY or STANDBY_STALE unit takes over at known_end + 20,625 cyc and not before; a renewal moves known_end; a unit in
HOLD_TX_INHIBIT or PARK and a FENCED unit keep their role and take nothing over. -/
def Obligations.TakeoverInstants : Prop :=
  ∀ s : State, s.Inv → 
    (∀ (u e : Nat), s.pa.knownEnd = some e → ((s.pairRole = 2 ∨ s.pairRole = 3) ∧ (s.dev = devService ∨ s.dev = devHold)) → Completes (.takeoverInstant u) s fun t =>
      (e + 20625 ≤ max s.mtb u → t.pairRole = 1 ∧ t.getF R.PAIR_EVENT_TAKEOVER = 1 ∧ t.getF R.PAIR_COUNT0_TAKEOVERS = (s.getF R.PAIR_COUNT0_TAKEOVERS + 1) % 2 ^ R.PAIR_COUNT0_TAKEOVERS.width) ∧
      (max s.mtb u < e + 20625 → t.pairRole = s.pairRole ∧ t.regs = s.regs)) ∧
    (∀ (r : Fin 8) (c : Fin 65536) (x : Fin 4194304) (u e : Nat), (s.pa.knownEnd = some e ∧ s.pairOn = true ∧ s.isSet R.PAIR_STATE_TIE_UP = true) → (s.pairRole = 2 ∨ s.pairRole = 3) → Completes (.renewRx r c x u) s fun t =>
      t.pa.knownEnd = some (max e (max s.mtb u + 412500 + usToCyc (x.val + x.val / 4096))) ∧ t.pairRole = s.pairRole) ∧
    (∀ (u : Nat), (s.pairRole = 4 ∨ s.dev = devHoldInhibit ∨ s.dev = devPark) → Completes (.takeoverInstant u) s fun t =>
      t.regs = s.regs ∧ t.pa = s.pa ∧ t.out = s.out) ∧
    (∀ (r : Fin 8) (u : Nat), ((s.pairRole = 2 ∨ s.pairRole = 3) ∧ (s.dev = devHoldInhibit ∨ s.dev = devPark)) → Completes (.resignRx r u) s fun t =>
      t.pairRole = s.pairRole ∧ t.getF R.PAIR_COUNT0_TAKEOVERS = s.getF R.PAIR_COUNT0_TAKEOVERS) ∧
    (∀ (r : Fin 8) (u : Nat), s.pairRole = 4 → Completes (.resignRx r u) s fun t =>
      t.getF R.PAIR_COUNT0_TAKEOVERS = s.getF R.PAIR_COUNT0_TAKEOVERS ∧ t.getF R.PAIR_EVENT_TAKEOVER = s.getF R.PAIR_EVENT_TAKEOVER)

/-- For every command, queue and state, a step with the command at the front of the queue is the command's effect on the
state with the rest of the queue. -/
def Obligations.StepRunsTheFrontCommand : Prop :=
  ∀ (c : Instr) (q : List Instr) (s : State), step { s with pending := c :: q } = exec c { s with pending := q }

/-- On an empty queue the step answers next; the MAC time base has advanced by 1 in a state in which ROOT runs and stands
otherwise; nothing else has changed. -/
def Obligations.IdleStepTicks : Prop :=
  ∀ s : State, s.pending = [] →
    ∃ t, step s = .next t ∧ t = { s with mtb := t.mtb } ∧ (s.rootRuns = true → t.mtb = s.mtb + 1) ∧ (s.rootRuns = false → t.mtb = s.mtb)

/-- nsToCyc answers the integer n with n - 1/2 ≤ ns × 165/128 < n + 1/2 for every number of nanoseconds. -/
def Obligations.TimeConstants : Prop :=
  ∀ ns : Nat, 256 * nsToCyc ns ≤ 330 * ns + 128 ∧ 330 * ns + 128 < 256 * (nsToCyc ns + 1)

/-- After reset the listed fields hold the values of the Reset columns, the device is UNPOWERED, no memory is written, no
task, queue entry or command waits. Where the spec leaves a detail open it rests on the model's choices of log entries 8 and
13. -/
def Obligations.ResetValues : Prop :=
  State.reset.getF R.START_STATE_DEV_STATE = 0 ∧
    State.reset.getF R.START_STATE_PHASE = 0 ∧
    State.reset.getF R.SYS_ID_PART = 0x4820 ∧
    State.reset.getF R.SYS_ID_REV = 0xB0 ∧
    State.reset.getF R.CLK_MON_CFG_REQUAL = 4 ∧
    State.reset.getF R.START_WDOG_LIMIT_MS = 10000 ∧
    State.reset.getF R.TIE_CFG_ENABLE = 1 ∧
    State.reset.getF R.TIME_CFG_LOCK_WAIT_S = 60 ∧
    State.reset.getF R.TIME_LIMIT_SLEW = 1000 ∧
    State.reset.getF R.TIME_PEER_OFFSET = 0x80000000 ∧
    State.reset.getF R.MAC_TSCH_CFG_MAX_BE = 7 ∧
    State.reset.getF R.MAC_CSMA_CFG_MIN_BE = 3 ∧
    State.reset.getF R.MAC_EVENT_EN_EN = 0xF0 ∧
    State.reset.getF R.SLEEP_CFG_RESYNC_PCT = 75 ∧
    State.reset.getF R.SLEEP_LAST_NODE = 262143 ∧
    State.reset.getF R.PILLOW_EVENT_EN_EN = 0x23 ∧
    State.reset.getF R.QUEUE_BEVENT_EN_EN = 0xD ∧
    State.reset.getF R.MEM_STATE_RX_SMALL_FREE = 2048 ∧
    State.reset.getF R.GROUND_LPT_CFG_HYST = 3 ∧
    State.reset.getF R.KEY_EVENT_EN_EN = 0x1F ∧
    State.reset.getF R.TAMPER_CFG_EN = 0xE0 ∧
    State.reset.getF R.ROLE_CFG_IDLE_S = 600 ∧
    State.reset.getF R.PAIR_CFG_WIT_RESERVE_US = 12000 ∧
    State.reset.getF R.UPDATE_CFG_WINDOW_S = 300 ∧
    State.reset.getF R.SVC_PIN_CFG_EDGE = 0xFF ∧
    (List.range 2).all (fun i => State.reset.getF (R.UPL_FC_QUANTA i) == 0xFFFF) = true ∧
    (List.range 4).all (fun i => State.reset.getF (R.TRX_PATH_GAIN_A i) == 10) = true ∧
    (List.range 96).all (fun i => State.reset.getF (R.LANE_STATE_STATE i) == 5) = true ∧
    (List.range 16).all (fun i => State.reset.getF (R.MAC_PAN_ADDR_SHORT.bank i) == 0xFFFD) = true ∧
    State.reset.mem = [] ∧ State.reset.flash = [] ∧ State.reset.out = [] ∧ State.reset.pending = [] ∧ State.reset.queues = [] ∧ State.reset.pl.tasks = []

/-- After reset the register table, memory and flash are in canonical form and no register holds a reserved bit. Where the
spec leaves a detail open it rests on the model's choices of log entries 3 and 8. -/
def Obligations.ResetMeetsTheInvariant : Prop :=
  State.reset.Inv

/-- From every state that meets the invariant, every step, whatever command waits, answers a state that meets it. Where the
spec leaves a detail open it rests on the model's choices of log entries 3 and 8. -/
def Obligations.StepKeepsTheInvariant : Prop :=
  ∀ s t : State, s.Inv → step s = .next t → t.Inv

/-- Every command leaves the queue, every part of the state that is not in its list touches, and every register of a block
that is not in that list as they were; and it keeps the invariant. Where the spec leaves a detail open it rests on the
model's choices of log entries 1 and 3. -/
def Obligations.CommandFrames : Prop :=
  ∀ (c : Instr) (s t : State), exec c s = .next t → State.Within (touches c) s t

/-- Every command with every operand answers a next state from every state: what the block refuses it refuses with a status
word. Where the spec leaves a detail open it rests on the model's choices of log entry 1. -/
def Obligations.EveryCommandCompletes : Prop :=
  ∀ (c : Instr) (s : State), ∃ t, exec c s = .next t

/-- A step takes the front command off the queue and leaves the others in their order; no command adds one. -/
def Obligations.QueueIsServedInOrder : Prop :=
  ∀ s t : State, step s = .next t → t.pending = s.pending.tail

/-- After any step from a state that meets the invariant, no register of the map holds a bit that the spec reserves. Where
the spec leaves a detail open it rests on the model's choices of log entry 3. -/
def Obligations.ReservedFieldsReadZero : Prop :=
  ∀ s t : State, s.Inv → step s = .next t → ∀ a : Nat, t.getReg a &&& ~~~ regMask a = 0

/-- Bytes written at an address read back in order, every address outside them reads as before, and the canonical form is
kept. Where the spec leaves a detail open it rests on the model's choices of log entry 8. -/
def Obligations.MemoryReadsBack : Prop :=
  ∀ (s : State) (a : Nat) (l : List Byte), (s.writeBytes a l).readBytes a l.length = l ∧
    (∀ x : Nat, x < a ∨ a + l.length ≤ x → (s.writeBytes a l).readByte x = s.readByte x) ∧
    (Memory.wf s.mem = true → Memory.wf (s.writeBytes a l).mem = true)
end

