-- ==== Sys2Proof/Laws/Blocks.lean ====
section
/-!
SUPPORT. The block that each written register stands in.
-/
namespace Sys2Proof.Machine

section
variable (c n : Nat)

theorem regBlock_of (a x : Nat) (e : (a % bankStride - 0x20000000) / 0x10000 = x) :
    regBlock a = (let b := if x < 8 then x else if x < 16 then x - 1 else x - 2; if b = 4 then 3 else if 8 ≤ b && b ≤ 10 then 7 else b) := by
  unfold regBlock blockOf; rw [e]

theorem regBlock_upl (h : 0x20030000 ≤ c) (h2 : c < 0x20040000) : regBlock (c + 0x10000 * (n % 2)) = 3 := by
  rw [regBlock_of _ (3 + n % 2) (by unfold bankStride; omega)]
  have hn : n % 2 < 2 := Nat.mod_lt _ (by decide)
  generalize n % 2 = k at hn
  interval_cases k <;> rfl

theorem regBlock_trx (h : 0x20080000 ≤ c) (h2 : c < 0x20090000) : regBlock (c + 0x10000 * (n % 4)) = 7 := by
  rw [regBlock_of _ (8 + n % 4) (by unfold bankStride; omega)]
  have hn : n % 4 < 4 := Nat.mod_lt _ (by decide)
  generalize n % 4 = k at hn
  interval_cases k <;> rfl

theorem regBlock_lane (h : 0x200C0000 ≤ c) (h2 : c < 0x200C0020) : regBlock (c + 0x20 * (n % 96)) = 11 := by
  rw [regBlock_of _ 12 (by unfold bankStride; omega)]; rfl

theorem regBlock_dom (h : 0x20060000 ≤ c) (h2 : c < 0x20060400) : regBlock (c + 0x40 * (n % 2)) = 6 := by
  rw [regBlock_of _ 6 (by unfold bankStride; omega)]; rfl

theorem regBlock_hoop (h : 0x20100000 ≤ c) (h2 : c < 0x20100400) : regBlock (c + 0x4 * (n % 4)) = 14 := by
  rw [regBlock_of _ 16 (by unfold bankStride; omega)]; rfl

theorem regBlock_src (h : 0x20010000 ≤ c) (h2 : c < 0x20010400) : regBlock (c + 4 * (n % 3)) = 1 := by
  rw [regBlock_of _ 1 (by unfold bankStride; omega)]; rfl

theorem regBlock_ql (h : 0x20060000 ≤ c) (h2 : c < 0x20060400) : regBlock (c + 4 * (n % 2)) = 6 := by
  rw [regBlock_of _ 6 (by unfold bankStride; omega)]; rfl

/-- A bank of a register stands where the register does. -/
@[simp] theorem regBlock_bank (a b : Nat) : regBlock (a + b * bankStride) = regBlock a := by
  unfold regBlock blockOf; rw [Nat.add_mul_mod_self_right]

end

@[simp] theorem Field.bit_addr (f : Field) (i : Nat) : (f.bit i).addr = f.addr := rfl
@[simp] theorem Field.bank_block (f : Field) (b : Nat) : regBlock (f.bank b).addr = regBlock f.addr := by
  exact regBlock_bank f.addr b
@[simp] theorem hoopCur_block (h : Nat) : regBlock (hoopCur h).addr = 1 := by
  show regBlock 0x20010040 = 1; decide
@[simp] theorem hoopIdleDiv_block (h : Nat) : regBlock (hoopIdleDiv h).addr = 1 := by
  show regBlock 0x20010040 = 1; decide
@[simp] theorem clkGate_block : regBlock clkGate.addr = 1 := by decide
@[simp] theorem gainField_block (n : Nat) (b : Bool) : regBlock (gainField n b).addr = 7 := by
  cases b <;> exact regBlock_trx _ n (by decide) (by decide)
@[simp] theorem srcF_LOCK_block (n : Nat) : regBlock (srcF R.CLK_SRC_UPL0_LOCK n).addr = 1 := regBlock_src _ n (by decide) (by decide)
@[simp] theorem srcF_QUAL_block (n : Nat) : regBlock (srcF R.CLK_SRC_UPL0_QUAL n).addr = 1 := regBlock_src _ n (by decide) (by decide)
@[simp] theorem srcF_INSVC_block (n : Nat) : regBlock (srcF R.CLK_SRC_UPL0_INSVC n).addr = 1 := regBlock_src _ n (by decide) (by decide)
@[simp] theorem srcF_BLOCKED_block (n : Nat) : regBlock (srcF R.CLK_SRC_UPL0_BLOCKED n).addr = 1 := regBlock_src _ n (by decide) (by decide)
@[simp] theorem srcF_PASS_block (n : Nat) : regBlock (srcF R.CLK_SRC_UPL0_PASS n).addr = 1 := regBlock_src _ n (by decide) (by decide)
@[simp] theorem srcF_OFFSET_block (n : Nat) : regBlock (srcF R.CLK_SRC_UPL0_OFFSET n).addr = 1 := regBlock_src _ n (by decide) (by decide)
@[simp] theorem qlF_TIMEOUT_block (n : Nat) : regBlock (qlF R.TIME_QL_UPL0_TIMEOUT n).addr = 6 := regBlock_ql _ n (by decide) (by decide)
@[simp] theorem qlF_SSM_block (n : Nat) : regBlock (qlF R.TIME_QL_UPL0_SSM n).addr = 6 := regBlock_ql _ n (by decide) (by decide)
@[simp] theorem qlF_EXT_block (n : Nat) : regBlock (qlF R.TIME_QL_UPL0_EXT n).addr = 6 := regBlock_ql _ n (by decide) (by decide)
@[simp] theorem qlF_ESSM_block (n : Nat) : regBlock (qlF R.TIME_QL_UPL0_ESSM n).addr = 6 := regBlock_ql _ n (by decide) (by decide)
@[simp] theorem R.CLK_CMD_ERR_block : regBlock R.CLK_CMD_ERR = 1 := by decide
@[simp] theorem R.CLK_CMD_ERR_STATUS_block : regBlock R.CLK_CMD_ERR_STATUS.addr = 1 := by decide
@[simp] theorem R.CLK_CMD_ERR_UNIT_block : regBlock R.CLK_CMD_ERR_UNIT.addr = 1 := by decide
@[simp] theorem R.CLK_EVENT_DISQUAL_block : regBlock R.CLK_EVENT_DISQUAL.addr = 1 := by decide
@[simp] theorem R.CLK_EVENT_GATE_DONE_block : regBlock R.CLK_EVENT_GATE_DONE.addr = 1 := by decide
@[simp] theorem R.CLK_EVENT_HOLD_ENTER_block : regBlock R.CLK_EVENT_HOLD_ENTER.addr = 1 := by decide
@[simp] theorem R.CLK_EVENT_HOLD_EXIT_block : regBlock R.CLK_EVENT_HOLD_EXIT.addr = 1 := by decide
@[simp] theorem R.CLK_EVENT_PARK_block : regBlock R.CLK_EVENT_PARK.addr = 1 := by decide
@[simp] theorem R.CLK_EVENT_PLL_FAULT_block : regBlock R.CLK_EVENT_PLL_FAULT.addr = 1 := by decide
@[simp] theorem R.CLK_EVENT_RAMP_DONE_block : regBlock R.CLK_EVENT_RAMP_DONE.addr = 1 := by decide
@[simp] theorem R.CLK_EVENT_SRC_SWITCH_block : regBlock R.CLK_EVENT_SRC_SWITCH.addr = 1 := by decide
@[simp] theorem R.CLK_EVENT_TX_INHIBIT_block : regBlock R.CLK_EVENT_TX_INHIBIT.addr = 1 := by decide
@[simp] theorem R.CLK_GATE_STAT_GATED_block : regBlock R.CLK_GATE_STAT_GATED.addr = 1 := by decide
@[simp] theorem R.CLK_GATE_STAT_PEND_block : regBlock R.CLK_GATE_STAT_PEND.addr = 1 := by decide
@[simp] theorem R.CLK_GATE_TRX_block : regBlock R.CLK_GATE_TRX.addr = 1 := by decide
@[simp] theorem R.CLK_MON_CFG_TOL_PPM_block : regBlock R.CLK_MON_CFG_TOL_PPM.addr = 1 := by decide
@[simp] theorem R.CLK_SRC_CTRL_FORCE_block : regBlock R.CLK_SRC_CTRL_FORCE.addr = 1 := by decide
@[simp] theorem R.CLK_SRC_CTRL_FORCE_SRC_block : regBlock R.CLK_SRC_CTRL_FORCE_SRC.addr = 1 := by decide
@[simp] theorem R.CLK_SRC_UPL0_BLOCKED_block : regBlock R.CLK_SRC_UPL0_BLOCKED.addr = 1 := by decide
@[simp] theorem R.CLK_SRC_UPL0_INSVC_block : regBlock R.CLK_SRC_UPL0_INSVC.addr = 1 := by decide
@[simp] theorem R.CLK_SRC_UPL0_LOCK_block : regBlock R.CLK_SRC_UPL0_LOCK.addr = 1 := by decide
@[simp] theorem R.CLK_SRC_UPL0_OFFSET_block : regBlock R.CLK_SRC_UPL0_OFFSET.addr = 1 := by decide
@[simp] theorem R.CLK_SRC_UPL0_PASS_block : regBlock R.CLK_SRC_UPL0_PASS.addr = 1 := by decide
@[simp] theorem R.CLK_SRC_UPL0_QUAL_block : regBlock R.CLK_SRC_UPL0_QUAL.addr = 1 := by decide
@[simp] theorem R.CLK_STATE_CLK_MODE_block : regBlock R.CLK_STATE_CLK_MODE.addr = 1 := by decide
@[simp] theorem R.CLK_STATE_PLL_LOCK_block : regBlock R.CLK_STATE_PLL_LOCK.addr = 1 := by decide
@[simp] theorem R.CLK_STATE_ROOT_SRC_block : regBlock R.CLK_STATE_ROOT_SRC.addr = 1 := by decide
@[simp] theorem R.CLK_STATE_TX_OK_block : regBlock R.CLK_STATE_TX_OK.addr = 1 := by decide
@[simp] theorem R.GROUND_ALT_BASE_BASE_block : regBlock R.GROUND_ALT_BASE_BASE.addr = 17 := by decide
@[simp] theorem R.GROUND_CMD_ERR_STATUS_block : regBlock R.GROUND_CMD_ERR_STATUS.addr = 17 := by decide
@[simp] theorem R.GROUND_COUNT0_HI_block : regBlock R.GROUND_COUNT0_HI.addr = 17 := by decide
@[simp] theorem R.GROUND_COUNT0_LO_block : regBlock R.GROUND_COUNT0_LO.addr = 17 := by decide
@[simp] theorem R.GROUND_COUNT1_HI_block : regBlock R.GROUND_COUNT1_HI.addr = 17 := by decide
@[simp] theorem R.GROUND_COUNT1_LO_block : regBlock R.GROUND_COUNT1_LO.addr = 17 := by decide
@[simp] theorem R.GROUND_EVENT_CMD_FULL_block : regBlock R.GROUND_EVENT_CMD_FULL.addr = 17 := by decide
@[simp] theorem R.GROUND_EVENT_LPT_EVICT_block : regBlock R.GROUND_EVENT_LPT_EVICT.addr = 17 := by decide
@[simp] theorem R.GROUND_EVENT_REHASH_DONE_block : regBlock R.GROUND_EVENT_REHASH_DONE.addr = 17 := by decide
@[simp] theorem R.GROUND_EVENT_REHASH_FAIL_block : regBlock R.GROUND_EVENT_REHASH_FAIL.addr = 17 := by decide
@[simp] theorem R.GROUND_EVENT_REHASH_NEEDED_block : regBlock R.GROUND_EVENT_REHASH_NEEDED.addr = 17 := by decide
@[simp] theorem R.GROUND_EVENT_STALE_KEY_block : regBlock R.GROUND_EVENT_STALE_KEY.addr = 17 := by decide
@[simp] theorem R.GROUND_EVENT_STASH_USED_block : regBlock R.GROUND_EVENT_STASH_USED.addr = 17 := by decide
@[simp] theorem R.GROUND_HASH_BASE_BASE_block : regBlock R.GROUND_HASH_BASE_BASE.addr = 17 := by decide
@[simp] theorem R.GROUND_LPT_CFG_AGE_LIMIT_S_block : regBlock R.GROUND_LPT_CFG_AGE_LIMIT_S.addr = 17 := by decide
@[simp] theorem R.GROUND_LPT_USE_EVICTS_block : regBlock R.GROUND_LPT_USE_EVICTS.addr = 17 := by decide
@[simp] theorem R.GROUND_STATE_ALT_READY_block : regBlock R.GROUND_STATE_ALT_READY.addr = 17 := by decide
@[simp] theorem R.GROUND_STATE_HASH_READY_block : regBlock R.GROUND_STATE_HASH_READY.addr = 17 := by decide
@[simp] theorem R.GROUND_STATE_REHASH_block : regBlock R.GROUND_STATE_REHASH.addr = 17 := by decide
@[simp] theorem R.GROUND_SWEEP_NEXT_block : regBlock R.GROUND_SWEEP_NEXT.addr = 17 := by decide
@[simp] theorem R.KEY_CMD_ERR_STATUS_block : regBlock R.KEY_CMD_ERR_STATUS.addr = 18 := by decide
@[simp] theorem R.KEY_CMD_STAT_BUSY_block : regBlock R.KEY_CMD_STAT_BUSY.addr = 18 := by decide
@[simp] theorem R.KEY_CMD_STAT_STORE_BUSY_block : regBlock R.KEY_CMD_STAT_STORE_BUSY.addr = 18 := by decide
@[simp] theorem R.KEY_COUNT0_REFUSED_block : regBlock R.KEY_COUNT0_REFUSED.addr = 18 := by decide
@[simp] theorem R.KEY_COUNT0_UNWRAP_FAIL_block : regBlock R.KEY_COUNT0_UNWRAP_FAIL.addr = 18 := by decide
@[simp] theorem R.KEY_CTX_WAITS_block : regBlock R.KEY_CTX_WAITS.addr = 18 := by decide
@[simp] theorem R.KEY_DRBG_HEALTH_OK_block : regBlock R.KEY_DRBG_HEALTH_OK.addr = 18 := by decide
@[simp] theorem R.KEY_DRBG_REQS_block : regBlock R.KEY_DRBG_REQS.addr = 18 := by decide
@[simp] theorem R.KEY_EVENT_ENTROPY_FAIL_block : regBlock R.KEY_EVENT_ENTROPY_FAIL.addr = 18 := by decide
@[simp] theorem R.KEY_EVENT_SIGN_FAIL_block : regBlock R.KEY_EVENT_SIGN_FAIL.addr = 18 := by decide
@[simp] theorem R.KEY_EVENT_STORE_LOST_block : regBlock R.KEY_EVENT_STORE_LOST.addr = 18 := by decide
@[simp] theorem R.KEY_EVENT_STORE_WRITE_block : regBlock R.KEY_EVENT_STORE_WRITE.addr = 18 := by decide
@[simp] theorem R.KEY_EVENT_TAMPER_ABORT_block : regBlock R.KEY_EVENT_TAMPER_ABORT.addr = 18 := by decide
@[simp] theorem R.KEY_STATE_DRBG_OK_block : regBlock R.KEY_STATE_DRBG_OK.addr = 18 := by decide
@[simp] theorem R.KEY_STATE_STORE_OK_block : regBlock R.KEY_STATE_STORE_OK.addr = 18 := by decide
@[simp] theorem R.KEY_STORE_AREA_block : regBlock R.KEY_STORE_AREA.addr = 18 := by decide
@[simp] theorem R.KEY_STORE_GEN_block : regBlock R.KEY_STORE_GEN.addr = 18 := by decide
@[simp] theorem R.KEY_STORE_PENDING_block : regBlock R.KEY_STORE_PENDING.addr = 18 := by decide
@[simp] theorem R.LANE_CFG_STATUS_block (n : Nat) : regBlock (R.LANE_CFG_STATUS n).addr = 11 := regBlock_lane _ n (by decide) (by decide)
@[simp] theorem R.LANE_CHAN_BIND_block (n : Nat) : regBlock (R.LANE_CHAN_BIND n).addr = 11 := regBlock_lane _ n (by decide) (by decide)
@[simp] theorem R.LANE_CHAN_CHAN_KHZ_block (n : Nat) : regBlock (R.LANE_CHAN_CHAN_KHZ n).addr = 11 := regBlock_lane _ n (by decide) (by decide)
@[simp] theorem R.LANE_COUNT0_block (n : Nat) : regBlock (R.LANE_COUNT0 n) = 11 := regBlock_lane _ n (by decide) (by decide)
@[simp] theorem R.LANE_COUNT0_PREEMPT_block (n : Nat) : regBlock (R.LANE_COUNT0_PREEMPT n).addr = 11 := regBlock_lane _ n (by decide) (by decide)
@[simp] theorem R.LANE_COUNT0_SYNCS_block (n : Nat) : regBlock (R.LANE_COUNT0_SYNCS n).addr = 11 := regBlock_lane _ n (by decide) (by decide)
@[simp] theorem R.LANE_COUNT1_block (n : Nat) : regBlock (R.LANE_COUNT1 n) = 11 := regBlock_lane _ n (by decide) (by decide)
@[simp] theorem R.LANE_COUNT1_FALSE_PRE_block (n : Nat) : regBlock (R.LANE_COUNT1_FALSE_PRE n).addr = 11 := regBlock_lane _ n (by decide) (by decide)
@[simp] theorem R.LANE_COUNT1_LOST_block (n : Nat) : regBlock (R.LANE_COUNT1_LOST n).addr = 11 := regBlock_lane _ n (by decide) (by decide)
@[simp] theorem R.LANE_COUNT1_PHR_ERR_block (n : Nat) : regBlock (R.LANE_COUNT1_PHR_ERR n).addr = 11 := regBlock_lane _ n (by decide) (by decide)
@[simp] theorem R.LANE_RSSI_IDLE_block (n : Nat) : regBlock (R.LANE_RSSI_IDLE n).addr = 11 := regBlock_lane _ n (by decide) (by decide)
@[simp] theorem R.LANE_RSSI_LAST_block (n : Nat) : regBlock (R.LANE_RSSI_LAST n).addr = 11 := regBlock_lane _ n (by decide) (by decide)
@[simp] theorem R.LANE_STATE_ARMED_block (n : Nat) : regBlock (R.LANE_STATE_ARMED n).addr = 11 := regBlock_lane _ n (by decide) (by decide)
@[simp] theorem R.LANE_STATE_PATH_block (n : Nat) : regBlock (R.LANE_STATE_PATH n).addr = 11 := regBlock_lane _ n (by decide) (by decide)
@[simp] theorem R.LANE_STATE_PENDING_block (n : Nat) : regBlock (R.LANE_STATE_PENDING n).addr = 11 := regBlock_lane _ n (by decide) (by decide)
@[simp] theorem R.LANE_STATE_PHY_MODE_block (n : Nat) : regBlock (R.LANE_STATE_PHY_MODE n).addr = 11 := regBlock_lane _ n (by decide) (by decide)
@[simp] theorem R.LANE_STATE_STATE_block (n : Nat) : regBlock (R.LANE_STATE_STATE n).addr = 11 := regBlock_lane _ n (by decide) (by decide)
@[simp] theorem R.MAC_ACK_COUNT0_GIVEN_UP_block : regBlock R.MAC_ACK_COUNT0_GIVEN_UP.addr = 12 := by decide
@[simp] theorem R.MAC_ACK_COUNT0_SENT_block : regBlock R.MAC_ACK_COUNT0_SENT.addr = 12 := by decide
@[simp] theorem R.MAC_ACK_COUNT1_EXCESS_block : regBlock R.MAC_ACK_COUNT1_EXCESS.addr = 12 := by decide
@[simp] theorem R.MAC_ACK_COUNT1_LOST_block : regBlock R.MAC_ACK_COUNT1_LOST.addr = 12 := by decide
@[simp] theorem R.MAC_CELL_COUNT2_ROWS_block : regBlock R.MAC_CELL_COUNT2_ROWS.addr = 12 := by decide
@[simp] theorem R.MAC_CELL_COUNT2_TX_LOST_block : regBlock R.MAC_CELL_COUNT2_TX_LOST.addr = 12 := by decide
@[simp] theorem R.MAC_CELL_COUNT_MISS_block : regBlock R.MAC_CELL_COUNT_MISS.addr = 12 := by decide
@[simp] theorem R.MAC_CELL_COUNT_SKIP_block : regBlock R.MAC_CELL_COUNT_SKIP.addr = 12 := by decide
@[simp] theorem R.MAC_CMD_ERR_STATUS_block : regBlock R.MAC_CMD_ERR_STATUS.addr = 12 := by decide
@[simp] theorem R.MAC_CTRL_PAN_EN_block : regBlock R.MAC_CTRL_PAN_EN.addr = 12 := by decide
@[simp] theorem R.MAC_DUTY_STAT_HELD_block : regBlock R.MAC_DUTY_STAT_HELD.addr = 12 := by decide
@[simp] theorem R.MAC_EVENT_ACK_GIVEN_UP_block : regBlock R.MAC_EVENT_ACK_GIVEN_UP.addr = 12 := by decide
@[simp] theorem R.MAC_EVENT_CELL_MISS_block : regBlock R.MAC_EVENT_CELL_MISS.addr = 12 := by decide
@[simp] theorem R.MAC_EVENT_DUTY_LIMIT_block : regBlock R.MAC_EVENT_DUTY_LIMIT.addr = 12 := by decide
@[simp] theorem R.MAC_EVENT_NO_ACK_block : regBlock R.MAC_EVENT_NO_ACK.addr = 12 := by decide
@[simp] theorem R.MAC_EVENT_PEND_FULL_block : regBlock R.MAC_EVENT_PEND_FULL.addr = 12 := by decide
@[simp] theorem R.MAC_EVENT_PLAN_ROWS_block : regBlock R.MAC_EVENT_PLAN_ROWS.addr = 12 := by decide
@[simp] theorem R.MAC_EVENT_REPLAY_block : regBlock R.MAC_EVENT_REPLAY.addr = 12 := by decide
@[simp] theorem R.MAC_EVENT_RX_LOST_block : regBlock R.MAC_EVENT_RX_LOST.addr = 12 := by decide
@[simp] theorem R.MAC_PAN_KEY_SLOT_block : regBlock R.MAC_PAN_KEY_SLOT.addr = 12 := by decide
@[simp] theorem R.MAC_PAN_KEY_VALID_block : regBlock R.MAC_PAN_KEY_VALID.addr = 12 := by decide
@[simp] theorem R.MAC_PAN_SEL_PAN_block : regBlock R.MAC_PAN_SEL_PAN.addr = 12 := by decide
@[simp] theorem R.MAC_RX_COUNT0_AUTH_FAIL_block : regBlock R.MAC_RX_COUNT0_AUTH_FAIL.addr = 12 := by decide
@[simp] theorem R.MAC_RX_COUNT0_FCS_FAIL_block : regBlock R.MAC_RX_COUNT0_FCS_FAIL.addr = 12 := by decide
@[simp] theorem R.MAC_RX_COUNT1_DUPLICATE_block : regBlock R.MAC_RX_COUNT1_DUPLICATE.addr = 12 := by decide
@[simp] theorem R.MAC_RX_COUNT1_REPLAY_block : regBlock R.MAC_RX_COUNT1_REPLAY.addr = 12 := by decide
@[simp] theorem R.MAC_RX_COUNT2_FILTERED_block : regBlock R.MAC_RX_COUNT2_FILTERED.addr = 12 := by decide
@[simp] theorem R.MAC_RX_COUNT2_UNSUPPORTED_block : regBlock R.MAC_RX_COUNT2_UNSUPPORTED.addr = 12 := by decide
@[simp] theorem R.MAC_RX_COUNT3_NO_NODE_block : regBlock R.MAC_RX_COUNT3_NO_NODE.addr = 12 := by decide
@[simp] theorem R.MAC_RX_COUNT3_SEC_LEVEL_block : regBlock R.MAC_RX_COUNT3_SEC_LEVEL.addr = 12 := by decide
@[simp] theorem R.MAC_RX_COUNT4_LANE_FAIL_block : regBlock R.MAC_RX_COUNT4_LANE_FAIL.addr = 12 := by decide
@[simp] theorem R.MAC_RX_COUNT4_SHADOW_FULL_block : regBlock R.MAC_RX_COUNT4_SHADOW_FULL.addr = 12 := by decide
@[simp] theorem R.MAC_SF_CFG_EN_block : regBlock R.MAC_SF_CFG_EN.addr = 12 := by decide
@[simp] theorem R.MAC_SF_CFG_LENGTH_block : regBlock R.MAC_SF_CFG_LENGTH.addr = 12 := by decide
@[simp] theorem R.MAC_SF_SEL_HANDLE_block : regBlock R.MAC_SF_SEL_HANDLE.addr = 12 := by decide
@[simp] theorem R.MEM_CMD_ERR_STATUS_block : regBlock R.MEM_CMD_ERR_STATUS.addr = 16 := by decide
@[simp] theorem R.MEM_ECC_ADDR_ADDR_block : regBlock R.MEM_ECC_ADDR_ADDR.addr = 16 := by decide
@[simp] theorem R.MEM_ECC_STAT_block : regBlock R.MEM_ECC_STAT = 16 := by decide
@[simp] theorem R.MEM_ECC_STAT_CORRECTED_block : regBlock R.MEM_ECC_STAT_CORRECTED.addr = 16 := by decide
@[simp] theorem R.MEM_ECC_STAT_UNCORRECTED_block : regBlock R.MEM_ECC_STAT_UNCORRECTED.addr = 16 := by decide
@[simp] theorem R.MEM_EVENT_ECC_CORR_block : regBlock R.MEM_EVENT_ECC_CORR.addr = 16 := by decide
@[simp] theorem R.MEM_EVENT_ECC_UNCORR_block : regBlock R.MEM_EVENT_ECC_UNCORR.addr = 16 := by decide
@[simp] theorem R.MEM_EVENT_EN_block : regBlock R.MEM_EVENT_EN = 16 := by decide
@[simp] theorem R.MEM_EVENT_NAND_DONE_block : regBlock R.MEM_EVENT_NAND_DONE.addr = 16 := by decide
@[simp] theorem R.MEM_EVENT_NAND_FAIL_block : regBlock R.MEM_EVENT_NAND_FAIL.addr = 16 := by decide
@[simp] theorem R.MEM_EVENT_POOL_EMPTY_block : regBlock R.MEM_EVENT_POOL_EMPTY.addr = 16 := by decide
@[simp] theorem R.MEM_NAND_STAT_BUSY_block : regBlock R.MEM_NAND_STAT_BUSY.addr = 16 := by decide
@[simp] theorem R.MEM_NAND_STAT_STATUS_block : regBlock R.MEM_NAND_STAT_STATUS.addr = 16 := by decide
@[simp] theorem R.MEM_POOL_DROPS_block : regBlock R.MEM_POOL_DROPS.addr = 16 := by decide
@[simp] theorem R.MEM_STATE_DRAM_OK_block : regBlock R.MEM_STATE_DRAM_OK.addr = 16 := by decide
@[simp] theorem R.MEM_STATE_NAND_READY_block : regBlock R.MEM_STATE_NAND_READY.addr = 16 := by decide
@[simp] theorem R.MEM_STATE_RX_LARGE_FREE_block : regBlock R.MEM_STATE_RX_LARGE_FREE.addr = 16 := by decide
@[simp] theorem R.MEM_STATE_RX_SMALL_FREE_block : regBlock R.MEM_STATE_RX_SMALL_FREE.addr = 16 := by decide
@[simp] theorem R.MEM_STATE_SCHED_block : regBlock R.MEM_STATE_SCHED.addr = 16 := by decide
@[simp] theorem R.MEM_STATE_SELF_REFRESH_block : regBlock R.MEM_STATE_SELF_REFRESH.addr = 16 := by decide
@[simp] theorem R.PAIR_CMD_ERR_STATUS_block : regBlock R.PAIR_CMD_ERR_STATUS.addr = 21 := by decide
@[simp] theorem R.PAIR_COUNT0_RESIGNS_block : regBlock R.PAIR_COUNT0_RESIGNS.addr = 21 := by decide
@[simp] theorem R.PAIR_COUNT0_TAKEOVERS_block : regBlock R.PAIR_COUNT0_TAKEOVERS.addr = 21 := by decide
@[simp] theorem R.PAIR_COUNT1_SHADOW_block : regBlock R.PAIR_COUNT1_SHADOW.addr = 21 := by decide
@[simp] theorem R.PAIR_COUNT1_WIT_AUTH_FAIL_block : regBlock R.PAIR_COUNT1_WIT_AUTH_FAIL.addr = 21 := by decide
@[simp] theorem R.PAIR_EVENT_BOTH_ACTIVE_block : regBlock R.PAIR_EVENT_BOTH_ACTIVE.addr = 21 := by decide
@[simp] theorem R.PAIR_EVENT_COUNTER_LIMIT_block : regBlock R.PAIR_EVENT_COUNTER_LIMIT.addr = 21 := by decide
@[simp] theorem R.PAIR_EVENT_DIGEST_MISMATCH_block : regBlock R.PAIR_EVENT_DIGEST_MISMATCH.addr = 21 := by decide
@[simp] theorem R.PAIR_EVENT_LEASE_LOST_block : regBlock R.PAIR_EVENT_LEASE_LOST.addr = 21 := by decide
@[simp] theorem R.PAIR_EVENT_PEER_AUTH_block : regBlock R.PAIR_EVENT_PEER_AUTH.addr = 21 := by decide
@[simp] theorem R.PAIR_EVENT_PEER_SILENT_block : regBlock R.PAIR_EVENT_PEER_SILENT.addr = 21 := by decide
@[simp] theorem R.PAIR_EVENT_RESYNC_DONE_block : regBlock R.PAIR_EVENT_RESYNC_DONE.addr = 21 := by decide
@[simp] theorem R.PAIR_EVENT_ROLE_CHANGE_block : regBlock R.PAIR_EVENT_ROLE_CHANGE.addr = 21 := by decide
@[simp] theorem R.PAIR_EVENT_STALE_block : regBlock R.PAIR_EVENT_STALE.addr = 21 := by decide
@[simp] theorem R.PAIR_EVENT_STALE_TAKEOVER_block : regBlock R.PAIR_EVENT_STALE_TAKEOVER.addr = 21 := by decide
@[simp] theorem R.PAIR_EVENT_TAKEOVER_block : regBlock R.PAIR_EVENT_TAKEOVER.addr = 21 := by decide
@[simp] theorem R.PAIR_EVENT_TIE_DOWN_block : regBlock R.PAIR_EVENT_TIE_DOWN.addr = 21 := by decide
@[simp] theorem R.PAIR_FIX_NEXT_block : regBlock R.PAIR_FIX_NEXT.addr = 21 := by decide
@[simp] theorem R.PAIR_FIX_RUNNING_block : regBlock R.PAIR_FIX_RUNNING.addr = 21 := by decide
@[simp] theorem R.PAIR_FIX_STALE_block : regBlock R.PAIR_FIX_STALE.addr = 21 := by decide
@[simp] theorem R.PAIR_LEASE_COUNT_block : regBlock R.PAIR_LEASE_COUNT.addr = 21 := by decide
@[simp] theorem R.PAIR_PEER_EUI_HI_EUI_block : regBlock R.PAIR_PEER_EUI_HI_EUI.addr = 21 := by decide
@[simp] theorem R.PAIR_PEER_EUI_LO_EUI_block : regBlock R.PAIR_PEER_EUI_LO_EUI.addr = 21 := by decide
@[simp] theorem R.PAIR_RESYNC_CHUNKS_block : regBlock R.PAIR_RESYNC_CHUNKS.addr = 21 := by decide
@[simp] theorem R.PAIR_RESYNC_REGION_block : regBlock R.PAIR_RESYNC_REGION.addr = 21 := by decide
@[simp] theorem R.PAIR_STATE_MODE_block : regBlock R.PAIR_STATE_MODE.addr = 21 := by decide
@[simp] theorem R.PAIR_STATE_PEER_AUTH_block : regBlock R.PAIR_STATE_PEER_AUTH.addr = 21 := by decide
@[simp] theorem R.PAIR_STATE_PEER_ROLE_block : regBlock R.PAIR_STATE_PEER_ROLE.addr = 21 := by decide
@[simp] theorem R.PAIR_STATE_PEER_SILENT_block : regBlock R.PAIR_STATE_PEER_SILENT.addr = 21 := by decide
@[simp] theorem R.PAIR_STATE_PREF_block : regBlock R.PAIR_STATE_PREF.addr = 21 := by decide
@[simp] theorem R.PAIR_STATE_RESYNC_block : regBlock R.PAIR_STATE_RESYNC.addr = 21 := by decide
@[simp] theorem R.PAIR_STATE_ROLE_block : regBlock R.PAIR_STATE_ROLE.addr = 21 := by decide
@[simp] theorem R.PAIR_STATE_SELF_GRANT_block : regBlock R.PAIR_STATE_SELF_GRANT.addr = 21 := by decide
@[simp] theorem R.PAIR_STATE_TIE_UP_block : regBlock R.PAIR_STATE_TIE_UP.addr = 21 := by decide
@[simp] theorem R.PAIR_SVC_IID_HI_IID_block : regBlock R.PAIR_SVC_IID_HI_IID.addr = 21 := by decide
@[simp] theorem R.PAIR_SVC_IID_LO_IID_block : regBlock R.PAIR_SVC_IID_LO_IID.addr = 21 := by decide
@[simp] theorem R.PILLOW_CMD_ERR_STATUS_block : regBlock R.PILLOW_CMD_ERR_STATUS.addr = 14 := by decide
@[simp] theorem R.PILLOW_COUNT_block (n : Nat) : regBlock (R.PILLOW_COUNT n) = 14 := regBlock_hoop _ n (by decide) (by decide)
@[simp] theorem R.PILLOW_COUNT_HI_block (n : Nat) : regBlock (R.PILLOW_COUNT_HI n).addr = 14 := regBlock_hoop _ n (by decide) (by decide)
@[simp] theorem R.PILLOW_COUNT_LO_block (n : Nat) : regBlock (R.PILLOW_COUNT_LO n).addr = 14 := regBlock_hoop _ n (by decide) (by decide)
@[simp] theorem R.PILLOW_EVENT_ATOMIC_FULL_block : regBlock R.PILLOW_EVENT_ATOMIC_FULL.addr = 14 := by decide
@[simp] theorem R.PILLOW_EVENT_FAULT_block : regBlock R.PILLOW_EVENT_FAULT.addr = 14 := by decide
@[simp] theorem R.PILLOW_EVENT_ORDER_FULL_block : regBlock R.PILLOW_EVENT_ORDER_FULL.addr = 14 := by decide
@[simp] theorem R.PILLOW_EVENT_OVERRUN_block : regBlock R.PILLOW_EVENT_OVERRUN.addr = 14 := by decide
@[simp] theorem R.PILLOW_EVENT_PINS_FULL_block : regBlock R.PILLOW_EVENT_PINS_FULL.addr = 14 := by decide
@[simp] theorem R.PILLOW_EVENT_TASKS_FULL_block : regBlock R.PILLOW_EVENT_TASKS_FULL.addr = 14 := by decide
@[simp] theorem R.PILLOW_EVENT_TIMER_FULL_block : regBlock R.PILLOW_EVENT_TIMER_FULL.addr = 14 := by decide
@[simp] theorem R.PILLOW_EVENT_WITHDRAWN_block : regBlock R.PILLOW_EVENT_WITHDRAWN.addr = 14 := by decide
@[simp] theorem R.PILLOW_FAULT_BOBBIN_block : regBlock R.PILLOW_FAULT_BOBBIN.addr = 14 := by decide
@[simp] theorem R.PILLOW_FAULT_CAUSE_block : regBlock R.PILLOW_FAULT_CAUSE.addr = 14 := by decide
@[simp] theorem R.PILLOW_FAULT_INIT_block : regBlock R.PILLOW_FAULT_INIT.addr = 14 := by decide
@[simp] theorem R.PILLOW_FAULT_PC_PC_block : regBlock R.PILLOW_FAULT_PC_PC.addr = 14 := by decide
@[simp] theorem R.PILLOW_FAULT_TASK_block : regBlock R.PILLOW_FAULT_TASK.addr = 14 := by decide
@[simp] theorem R.PILLOW_HOOP_KILL_block (n : Nat) : regBlock (R.PILLOW_HOOP_KILL n).addr = 14 := regBlock_hoop _ n (by decide) (by decide)
@[simp] theorem R.PILLOW_HOOP_LIMIT_block (n : Nat) : regBlock (R.PILLOW_HOOP_LIMIT n).addr = 14 := regBlock_hoop _ n (by decide) (by decide)
@[simp] theorem R.PILLOW_HW_TASK_block : regBlock R.PILLOW_HW_TASK = 14 := by decide
@[simp] theorem R.PILLOW_QT_SEL_QUEUE_block : regBlock R.PILLOW_QT_SEL_QUEUE.addr = 14 := by decide
@[simp] theorem R.PILLOW_QT_TASK_block : regBlock R.PILLOW_QT_TASK = 14 := by decide
@[simp] theorem R.PILLOW_STATE_MEMBER_block : regBlock R.PILLOW_STATE_MEMBER.addr = 14 := by decide
@[simp] theorem R.QUEUE_BEVENT_CROSS_DOWN_block : regBlock R.QUEUE_BEVENT_CROSS_DOWN.addr = 15 := by decide
@[simp] theorem R.QUEUE_BEVENT_CROSS_UP_block : regBlock R.QUEUE_BEVENT_CROSS_UP.addr = 15 := by decide
@[simp] theorem R.QUEUE_BEVENT_CUT_block : regBlock R.QUEUE_BEVENT_CUT.addr = 15 := by decide
@[simp] theorem R.QUEUE_BEVENT_DISCARD_block : regBlock R.QUEUE_BEVENT_DISCARD.addr = 15 := by decide
@[simp] theorem R.QUEUE_CMD_ERR_QUEUE_block : regBlock R.QUEUE_CMD_ERR_QUEUE.addr = 15 := by decide
@[simp] theorem R.QUEUE_CMD_ERR_STATUS_block : regBlock R.QUEUE_CMD_ERR_STATUS.addr = 15 := by decide
@[simp] theorem R.QUEUE_EVENT_CROSS_DOWN_block : regBlock R.QUEUE_EVENT_CROSS_DOWN.addr = 15 := by decide
@[simp] theorem R.QUEUE_EVENT_CROSS_UP_block : regBlock R.QUEUE_EVENT_CROSS_UP.addr = 15 := by decide
@[simp] theorem R.QUEUE_EVENT_DISCARD_block : regBlock R.QUEUE_EVENT_DISCARD.addr = 15 := by decide
@[simp] theorem R.QUEUE_FCP_PIN_block : regBlock R.QUEUE_FCP_PIN.addr = 15 := by decide
@[simp] theorem R.QUEUE_WM_HIGH_block : regBlock R.QUEUE_WM_HIGH.addr = 15 := by decide
@[simp] theorem R.QUEUE_WM_LOW_block : regBlock R.QUEUE_WM_LOW.addr = 15 := by decide
@[simp] theorem R.QUEUE_XCOUNT_block : regBlock R.QUEUE_XCOUNT = 15 := by decide
@[simp] theorem R.QUEUE_XCOUNT_DISCARD_block : regBlock R.QUEUE_XCOUNT_DISCARD.addr = 15 := by decide
@[simp] theorem R.QUEUE_XCOUNT_UP_block : regBlock R.QUEUE_XCOUNT_UP.addr = 15 := by decide
@[simp] theorem R.ROLE_EVENT_AUDIT_BUSY_block : regBlock R.ROLE_EVENT_AUDIT_BUSY.addr = 20 := by decide
@[simp] theorem R.ROLE_EVENT_AUDIT_WRAP_block : regBlock R.ROLE_EVENT_AUDIT_WRAP.addr = 20 := by decide
@[simp] theorem R.ROLE_EVENT_CKPT_block : regBlock R.ROLE_EVENT_CKPT.addr = 20 := by decide
@[simp] theorem R.ROLE_EVENT_CRED_CHANGE_block : regBlock R.ROLE_EVENT_CRED_CHANGE.addr = 20 := by decide
@[simp] theorem R.ROLE_EVENT_RELEASE_block : regBlock R.ROLE_EVENT_RELEASE.addr = 20 := by decide
@[simp] theorem R.ROLE_EVENT_SESSION_FAIL_block : regBlock R.ROLE_EVENT_SESSION_FAIL.addr = 20 := by decide
@[simp] theorem R.ROLE_EVENT_SESSION_OPEN_block : regBlock R.ROLE_EVENT_SESSION_OPEN.addr = 20 := by decide
@[simp] theorem R.ROLE_EVENT_STORE_LOST_block : regBlock R.ROLE_EVENT_STORE_LOST.addr = 20 := by decide
@[simp] theorem R.ROLE_STATE_STATUS_block : regBlock R.ROLE_STATE_STATUS.addr = 20 := by decide
@[simp] theorem R.ROLE_STATE_STORE_OK_block : regBlock R.ROLE_STATE_STORE_OK.addr = 20 := by decide
@[simp] theorem R.SLEEP_CMD_ERR_STATUS_block : regBlock R.SLEEP_CMD_ERR_STATUS.addr = 13 := by decide
@[simp] theorem R.SLEEP_COUNT0_HI_block : regBlock R.SLEEP_COUNT0_HI.addr = 13 := by decide
@[simp] theorem R.SLEEP_COUNT0_LO_block : regBlock R.SLEEP_COUNT0_LO.addr = 13 := by decide
@[simp] theorem R.SLEEP_COUNT1_HI_block : regBlock R.SLEEP_COUNT1_HI.addr = 13 := by decide
@[simp] theorem R.SLEEP_COUNT1_LO_block : regBlock R.SLEEP_COUNT1_LO.addr = 13 := by decide
@[simp] theorem R.SLEEP_COUNT2_HI_block : regBlock R.SLEEP_COUNT2_HI.addr = 13 := by decide
@[simp] theorem R.SLEEP_COUNT2_LO_block : regBlock R.SLEEP_COUNT2_LO.addr = 13 := by decide
@[simp] theorem R.SLEEP_EVENT_EN_block : regBlock R.SLEEP_EVENT_EN = 13 := by decide
@[simp] theorem R.SLEEP_EVENT_MISPREDICT_block : regBlock R.SLEEP_EVENT_MISPREDICT.addr = 13 := by decide
@[simp] theorem R.SLEEP_LAST_EVENT_block : regBlock R.SLEEP_LAST_EVENT.addr = 13 := by decide
@[simp] theorem R.SLEEP_LAST_NODE_block : regBlock R.SLEEP_LAST_NODE.addr = 13 := by decide
@[simp] theorem R.SLEEP_LINK_B_NODE_B_block : regBlock R.SLEEP_LINK_B_NODE_B.addr = 13 := by decide
@[simp] theorem R.SLEEP_LOAD_LAST_block : regBlock R.SLEEP_LOAD_LAST.addr = 13 := by decide
@[simp] theorem R.SLEEP_LOAD_MAX_block : regBlock R.SLEEP_LOAD_MAX.addr = 13 := by decide
@[simp] theorem R.SLEEP_STAT_LINKS_block : regBlock R.SLEEP_STAT_LINKS.addr = 13 := by decide
@[simp] theorem R.SLEEP_STAT_TRACKED_block : regBlock R.SLEEP_STAT_TRACKED.addr = 13 := by decide
@[simp] theorem R.START_BOOT_BOOTS_block : regBlock R.START_BOOT_BOOTS.addr = 2 := by decide
@[simp] theorem R.START_BOOT_FAILS_block : regBlock R.START_BOOT_FAILS.addr = 2 := by decide
@[simp] theorem R.START_BOOT_FAIL_SLOT_block : regBlock R.START_BOOT_FAIL_SLOT.addr = 2 := by decide
@[simp] theorem R.START_CAUSE_CAUSE_block : regBlock R.START_CAUSE_CAUSE.addr = 2 := by decide
@[simp] theorem R.START_CAUSE_COUNT_block : regBlock R.START_CAUSE_COUNT.addr = 2 := by decide
@[simp] theorem R.START_FAIL_LOC_OFFSET_block : regBlock R.START_FAIL_LOC_OFFSET.addr = 2 := by decide
@[simp] theorem R.START_FAIL_LOC_TYPE_block : regBlock R.START_FAIL_LOC_TYPE.addr = 2 := by decide
@[simp] theorem R.START_FAIL_STATE_block : regBlock R.START_FAIL_STATE.addr = 2 := by decide
@[simp] theorem R.START_FAIL_STATUS_block : regBlock R.START_FAIL_STATUS.addr = 2 := by decide
@[simp] theorem R.START_FAIL_UNIT_block : regBlock R.START_FAIL_UNIT.addr = 2 := by decide
@[simp] theorem R.START_OPT_BENCH_block : regBlock R.START_OPT_BENCH.addr = 2 := by decide
@[simp] theorem R.START_OPT_HALT_block : regBlock R.START_OPT_HALT.addr = 2 := by decide
@[simp] theorem R.START_OPT_SLOT_block : regBlock R.START_OPT_SLOT.addr = 2 := by decide
@[simp] theorem R.START_STATE_BOOT_MODE_block : regBlock R.START_STATE_BOOT_MODE.addr = 2 := by decide
@[simp] theorem R.START_STATE_DEV_STATE_block : regBlock R.START_STATE_DEV_STATE.addr = 2 := by decide
@[simp] theorem R.START_STATE_PHASE_block : regBlock R.START_STATE_PHASE.addr = 2 := by decide
@[simp] theorem R.START_STATE_READY_block : regBlock R.START_STATE_READY.addr = 2 := by decide
@[simp] theorem R.START_STATE_SLOT_block : regBlock R.START_STATE_SLOT.addr = 2 := by decide
@[simp] theorem R.START_STATE_SRC_LOCK_block : regBlock R.START_STATE_SRC_LOCK.addr = 2 := by decide
@[simp] theorem R.START_STATE_TRX_CAL_block : regBlock R.START_STATE_TRX_CAL.addr = 2 := by decide
@[simp] theorem R.START_T_BOOT_T_block : regBlock R.START_T_BOOT_T.addr = 2 := by decide
@[simp] theorem R.START_T_CAL_T_block : regBlock R.START_T_CAL_T.addr = 2 := by decide
@[simp] theorem R.START_T_LOAD_T_block : regBlock R.START_T_LOAD_T.addr = 2 := by decide
@[simp] theorem R.START_T_RUN_T_block : regBlock R.START_T_RUN_T.addr = 2 := by decide
@[simp] theorem R.START_T_SERVICE_T_block : regBlock R.START_T_SERVICE_T.addr = 2 := by decide
@[simp] theorem R.SVC_CMD_ERR_STATUS_block : regBlock R.SVC_CMD_ERR_STATUS.addr = 23 := by decide
@[simp] theorem R.SVC_EVENT_GPIO_EDGE_block : regBlock R.SVC_EVENT_GPIO_EDGE.addr = 23 := by decide
@[simp] theorem R.SVC_EVENT_TUNNEL_DROP_block : regBlock R.SVC_EVENT_TUNNEL_DROP.addr = 23 := by decide
@[simp] theorem R.SVC_GPIO_IN_IN_block : regBlock R.SVC_GPIO_IN_IN.addr = 23 := by decide
@[simp] theorem R.SVC_PORT_STAT_MODE_block : regBlock R.SVC_PORT_STAT_MODE.addr = 23 := by decide
@[simp] theorem R.SYS_CMD_ERR_STATUS_block : regBlock R.SYS_CMD_ERR_STATUS.addr = 0 := by decide
@[simp] theorem R.SYS_EVENT_CAL_FAIL_block : regBlock R.SYS_EVENT_CAL_FAIL.addr = 0 := by decide
@[simp] theorem R.SYS_EVENT_RUNNING_block : regBlock R.SYS_EVENT_RUNNING.addr = 0 := by decide
@[simp] theorem R.SYS_EVENT_START_FAIL_block : regBlock R.SYS_EVENT_START_FAIL.addr = 0 := by decide
@[simp] theorem R.SYS_EVENT_WARM_DONE_block : regBlock R.SYS_EVENT_WARM_DONE.addr = 0 := by decide
@[simp] theorem R.TAMPER_CFG_block : regBlock R.TAMPER_CFG = 19 := by decide
@[simp] theorem R.TAMPER_COUNT_COUNT_block : regBlock R.TAMPER_COUNT_COUNT.addr = 19 := by decide
@[simp] theorem R.TAMPER_EVENT_ERASED_block : regBlock R.TAMPER_EVENT_ERASED.addr = 19 := by decide
@[simp] theorem R.TAMPER_EVENT_SOURCE_block : regBlock R.TAMPER_EVENT_SOURCE.addr = 19 := by decide
@[simp] theorem R.TAMPER_LOG_SOURCE_block : regBlock R.TAMPER_LOG_SOURCE.addr = 19 := by decide
@[simp] theorem R.TAMPER_LOG_STAMP_block : regBlock R.TAMPER_LOG_STAMP.addr = 19 := by decide
@[simp] theorem R.TAMPER_LOG_STAMPED_block : regBlock R.TAMPER_LOG_STAMPED.addr = 19 := by decide
@[simp] theorem R.TAMPER_LOG_VALID_block : regBlock R.TAMPER_LOG_VALID.addr = 19 := by decide
@[simp] theorem R.TAMPER_LOG_WAS_PRESENT_block : regBlock R.TAMPER_LOG_WAS_PRESENT.addr = 19 := by decide
@[simp] theorem R.TAMPER_STATE_ACTIVE_block : regBlock R.TAMPER_STATE_ACTIVE.addr = 19 := by decide
@[simp] theorem R.TAMPER_STATE_OWNER_block : regBlock R.TAMPER_STATE_OWNER.addr = 19 := by decide
@[simp] theorem R.TAMPER_STATE_VBAT_LOST_block : regBlock R.TAMPER_STATE_VBAT_LOST.addr = 19 := by decide
@[simp] theorem R.TIE_CFG_ENABLE_block : regBlock R.TIE_CFG_ENABLE.addr = 5 := by decide
@[simp] theorem R.TIE_EVENT_DOWN_block : regBlock R.TIE_EVENT_DOWN.addr = 5 := by decide
@[simp] theorem R.TIE_EVENT_TRAIN_FAIL_block : regBlock R.TIE_EVENT_TRAIN_FAIL.addr = 5 := by decide
@[simp] theorem R.TIE_EVENT_UP_block : regBlock R.TIE_EVENT_UP.addr = 5 := by decide
@[simp] theorem R.TIE_PEER_DIGEST_block : regBlock R.TIE_PEER_DIGEST.addr = 5 := by decide
@[simp] theorem R.TIE_PEER_STATE_PAIR_ON_block : regBlock R.TIE_PEER_STATE_PAIR_ON.addr = 5 := by decide
@[simp] theorem R.TIE_PEER_STATE_PREF_block : regBlock R.TIE_PEER_STATE_PREF.addr = 5 := by decide
@[simp] theorem R.TIE_PEER_STATE_ROLE_block : regBlock R.TIE_PEER_STATE_ROLE.addr = 5 := by decide
@[simp] theorem R.TIE_PEER_STATE_ROOT_block : regBlock R.TIE_PEER_STATE_ROOT.addr = 5 := by decide
@[simp] theorem R.TIE_STAT_BLOCK_LOCK_block : regBlock R.TIE_STAT_BLOCK_LOCK.addr = 5 := by decide
@[simp] theorem R.TIE_STAT_PHASE_block : regBlock R.TIE_STAT_PHASE.addr = 5 := by decide
@[simp] theorem R.TIE_STAT_TRAIN_FAILS_block : regBlock R.TIE_STAT_TRAIN_FAILS.addr = 5 := by decide
@[simp] theorem R.TIME_CMD_ERR_STATUS_block : regBlock R.TIME_CMD_ERR_STATUS.addr = 6 := by decide
@[simp] theorem R.TIME_CTRL_SEL_DOM_block : regBlock R.TIME_CTRL_SEL_DOM.addr = 6 := by decide
@[simp] theorem R.TIME_DOM_COUNT_FREEZES_block (n : Nat) : regBlock (R.TIME_DOM_COUNT_FREEZES n).addr = 6 := regBlock_dom _ n (by decide) (by decide)
@[simp] theorem R.TIME_DOM_COUNT_LOSSES_block (n : Nat) : regBlock (R.TIME_DOM_COUNT_LOSSES n).addr = 6 := regBlock_dom _ n (by decide) (by decide)
@[simp] theorem R.TIME_DOM_DELAY_V_block (n : Nat) : regBlock (R.TIME_DOM_DELAY_V n).addr = 6 := regBlock_dom _ n (by decide) (by decide)
@[simp] theorem R.TIME_DOM_GM_HI_GM_block (n : Nat) : regBlock (R.TIME_DOM_GM_HI_GM n).addr = 6 := regBlock_dom _ n (by decide) (by decide)
@[simp] theorem R.TIME_DOM_GM_LO_GM_block (n : Nat) : regBlock (R.TIME_DOM_GM_LO_GM n).addr = 6 := regBlock_dom _ n (by decide) (by decide)
@[simp] theorem R.TIME_DOM_OFFSET_V_block (n : Nat) : regBlock (R.TIME_DOM_OFFSET_V n).addr = 6 := regBlock_dom _ n (by decide) (by decide)
@[simp] theorem R.TIME_DOM_STAT_DELAY_block (n : Nat) : regBlock (R.TIME_DOM_STAT_DELAY n).addr = 6 := regBlock_dom _ n (by decide) (by decide)
@[simp] theorem R.TIME_DOM_STAT_DOMAIN_block (n : Nat) : regBlock (R.TIME_DOM_STAT_DOMAIN n).addr = 6 := regBlock_dom _ n (by decide) (by decide)
@[simp] theorem R.TIME_DOM_STAT_PASS_block (n : Nat) : regBlock (R.TIME_DOM_STAT_PASS n).addr = 6 := regBlock_dom _ n (by decide) (by decide)
@[simp] theorem R.TIME_DOM_STAT_PORT_block (n : Nat) : regBlock (R.TIME_DOM_STAT_PORT n).addr = 6 := regBlock_dom _ n (by decide) (by decide)
@[simp] theorem R.TIME_DOM_STAT_PROFILE_block (n : Nat) : regBlock (R.TIME_DOM_STAT_PROFILE n).addr = 6 := regBlock_dom _ n (by decide) (by decide)
@[simp] theorem R.TIME_DOM_STAT_STATE_block (n : Nat) : regBlock (R.TIME_DOM_STAT_STATE n).addr = 6 := regBlock_dom _ n (by decide) (by decide)
@[simp] theorem R.TIME_DOM_STAT_TRANSPORT_block (n : Nat) : regBlock (R.TIME_DOM_STAT_TRANSPORT n).addr = 6 := regBlock_dom _ n (by decide) (by decide)
@[simp] theorem R.TIME_DOM_STAT_TWO_STEP_block (n : Nat) : regBlock (R.TIME_DOM_STAT_TWO_STEP n).addr = 6 := regBlock_dom _ n (by decide) (by decide)
@[simp] theorem R.TIME_EPOCH_HI_V_block : regBlock R.TIME_EPOCH_HI_V.addr = 6 := by decide
@[simp] theorem R.TIME_EPOCH_LO_V_block : regBlock R.TIME_EPOCH_LO_V.addr = 6 := by decide
@[simp] theorem R.TIME_EVENT_DOM_LOST_block : regBlock R.TIME_EVENT_DOM_LOST.addr = 6 := by decide
@[simp] theorem R.TIME_EVENT_DOM_SWITCH_block : regBlock R.TIME_EVENT_DOM_SWITCH.addr = 6 := by decide
@[simp] theorem R.TIME_EVENT_FROZEN_block : regBlock R.TIME_EVENT_FROZEN.addr = 6 := by decide
@[simp] theorem R.TIME_EVENT_JUMP_REFUSED_block : regBlock R.TIME_EVENT_JUMP_REFUSED.addr = 6 := by decide
@[simp] theorem R.TIME_EVENT_LOCKED_block : regBlock R.TIME_EVENT_LOCKED.addr = 6 := by decide
@[simp] theorem R.TIME_EVENT_NO_REF_block : regBlock R.TIME_EVENT_NO_REF.addr = 6 := by decide
@[simp] theorem R.TIME_EVENT_QL_CHANGE_block : regBlock R.TIME_EVENT_QL_CHANGE.addr = 6 := by decide
@[simp] theorem R.TIME_EVENT_RATE_CLIP_block : regBlock R.TIME_EVENT_RATE_CLIP.addr = 6 := by decide
@[simp] theorem R.TIME_EVENT_STEPPED_block : regBlock R.TIME_EVENT_STEPPED.addr = 6 := by decide
@[simp] theorem R.TIME_LIMIT_JUMP_NS_block : regBlock R.TIME_LIMIT_JUMP_NS.addr = 6 := by decide
@[simp] theorem R.TIME_PEER_OFFSET_block : regBlock R.TIME_PEER_OFFSET.addr = 6 := by decide
@[simp] theorem R.TIME_QL_UPL0_ESSM_block : regBlock R.TIME_QL_UPL0_ESSM.addr = 6 := by decide
@[simp] theorem R.TIME_QL_UPL0_EXT_block : regBlock R.TIME_QL_UPL0_EXT.addr = 6 := by decide
@[simp] theorem R.TIME_QL_UPL0_SSM_block : regBlock R.TIME_QL_UPL0_SSM.addr = 6 := by decide
@[simp] theorem R.TIME_QL_UPL0_TIMEOUT_block : regBlock R.TIME_QL_UPL0_TIMEOUT.addr = 6 := by decide
@[simp] theorem R.TIME_RATE_RATE_block : regBlock R.TIME_RATE_RATE.addr = 6 := by decide
@[simp] theorem R.TIME_SNAP_ASN_HI_ASN_block : regBlock R.TIME_SNAP_ASN_HI_ASN.addr = 6 := by decide
@[simp] theorem R.TIME_SNAP_ASN_LO_V_block : regBlock R.TIME_SNAP_ASN_LO_V.addr = 6 := by decide
@[simp] theorem R.TIME_SNAP_NS_NS_block : regBlock R.TIME_SNAP_NS_NS.addr = 6 := by decide
@[simp] theorem R.TIME_SNAP_OFF_OFF_block : regBlock R.TIME_SNAP_OFF_OFF.addr = 6 := by decide
@[simp] theorem R.TIME_SNAP_S_HI_V_block : regBlock R.TIME_SNAP_S_HI_V.addr = 6 := by decide
@[simp] theorem R.TIME_SNAP_S_LO_V_block : regBlock R.TIME_SNAP_S_LO_V.addr = 6 := by decide
@[simp] theorem R.TIME_SNAP_TB_HI_V_block : regBlock R.TIME_SNAP_TB_HI_V.addr = 6 := by decide
@[simp] theorem R.TIME_SNAP_TB_LO_V_block : regBlock R.TIME_SNAP_TB_LO_V.addr = 6 := by decide
@[simp] theorem R.TIME_STATE_DOM1_block : regBlock R.TIME_STATE_DOM1.addr = 6 := by decide
@[simp] theorem R.TIME_STATE_DOM2_block : regBlock R.TIME_STATE_DOM2.addr = 6 := by decide
@[simp] theorem R.TIME_STATE_REFUSED_block : regBlock R.TIME_STATE_REFUSED.addr = 6 := by decide
@[simp] theorem R.TIME_STATE_SEL_block : regBlock R.TIME_STATE_SEL.addr = 6 := by decide
@[simp] theorem R.TIME_STATE_STEPPED_block : regBlock R.TIME_STATE_STEPPED.addr = 6 := by decide
@[simp] theorem R.TRX_CAL_STAT_BG_BEHIND_block (n : Nat) : regBlock (R.TRX_CAL_STAT_BG_BEHIND n).addr = 7 := regBlock_trx _ n (by decide) (by decide)
@[simp] theorem R.TRX_CAL_STAT_BG_STEPS_block (n : Nat) : regBlock (R.TRX_CAL_STAT_BG_STEPS n).addr = 7 := regBlock_trx _ n (by decide) (by decide)
@[simp] theorem R.TRX_CAL_STAT_CAL_OK_block (n : Nat) : regBlock (R.TRX_CAL_STAT_CAL_OK n).addr = 7 := regBlock_trx _ n (by decide) (by decide)
@[simp] theorem R.TRX_CAL_STAT_CAL_TEMP_block (n : Nat) : regBlock (R.TRX_CAL_STAT_CAL_TEMP n).addr = 7 := regBlock_trx _ n (by decide) (by decide)
@[simp] theorem R.TRX_CAL_STAT_TEMP_block (n : Nat) : regBlock (R.TRX_CAL_STAT_TEMP n).addr = 7 := regBlock_trx _ n (by decide) (by decide)
@[simp] theorem R.TRX_CMD_ERR_STATUS_block (n : Nat) : regBlock (R.TRX_CMD_ERR_STATUS n).addr = 7 := regBlock_trx _ n (by decide) (by decide)
@[simp] theorem R.TRX_COUNT_COEX_LATE_block (n : Nat) : regBlock (R.TRX_COUNT_COEX_LATE n).addr = 7 := regBlock_trx _ n (by decide) (by decide)
@[simp] theorem R.TRX_COUNT_PWR_CLIP_block (n : Nat) : regBlock (R.TRX_COUNT_PWR_CLIP n).addr = 7 := regBlock_trx _ n (by decide) (by decide)
@[simp] theorem R.TRX_EVENT_BG_DONE_block (n : Nat) : regBlock (R.TRX_EVENT_BG_DONE n).addr = 7 := regBlock_trx _ n (by decide) (by decide)
@[simp] theorem R.TRX_EVENT_CAL_DONE_block (n : Nat) : regBlock (R.TRX_EVENT_CAL_DONE n).addr = 7 := regBlock_trx _ n (by decide) (by decide)
@[simp] theorem R.TRX_EVENT_CAL_FAIL_block (n : Nat) : regBlock (R.TRX_EVENT_CAL_FAIL n).addr = 7 := regBlock_trx _ n (by decide) (by decide)
@[simp] theorem R.TRX_EVENT_COEX_ABORT_block (n : Nat) : regBlock (R.TRX_EVENT_COEX_ABORT n).addr = 7 := regBlock_trx _ n (by decide) (by decide)
@[simp] theorem R.TRX_EVENT_COEX_LATE_block (n : Nat) : regBlock (R.TRX_EVENT_COEX_LATE n).addr = 7 := regBlock_trx _ n (by decide) (by decide)
@[simp] theorem R.TRX_EVENT_PWR_CLIP_block (n : Nat) : regBlock (R.TRX_EVENT_PWR_CLIP n).addr = 7 := regBlock_trx _ n (by decide) (by decide)
@[simp] theorem R.TRX_EVENT_SYN_UNLOCK_block (n : Nat) : regBlock (R.TRX_EVENT_SYN_UNLOCK n).addr = 7 := regBlock_trx _ n (by decide) (by decide)
@[simp] theorem R.TRX_EVENT_TEMP_DRIFT_block (n : Nat) : regBlock (R.TRX_EVENT_TEMP_DRIFT n).addr = 7 := regBlock_trx _ n (by decide) (by decide)
@[simp] theorem R.TRX_FEM_CTRL_block (n : Nat) : regBlock (R.TRX_FEM_CTRL n) = 7 := regBlock_trx _ n (by decide) (by decide)
@[simp] theorem R.TRX_PATH_ON_A_block (n : Nat) : regBlock (R.TRX_PATH_ON_A n).addr = 7 := regBlock_trx _ n (by decide) (by decide)
@[simp] theorem R.TRX_PATH_ON_B_block (n : Nat) : regBlock (R.TRX_PATH_ON_B n).addr = 7 := regBlock_trx _ n (by decide) (by decide)
@[simp] theorem R.TRX_PWR_LIMIT_block (n : Nat) : regBlock (R.TRX_PWR_LIMIT n).addr = 7 := regBlock_trx _ n (by decide) (by decide)
@[simp] theorem R.TRX_STATE_MOVING_block (n : Nat) : regBlock (R.TRX_STATE_MOVING n).addr = 7 := regBlock_trx _ n (by decide) (by decide)
@[simp] theorem R.TRX_STATE_STATE_block (n : Nat) : regBlock (R.TRX_STATE_STATE n).addr = 7 := regBlock_trx _ n (by decide) (by decide)
@[simp] theorem R.TRX_STATE_SYN_RX_LOCK_block (n : Nat) : regBlock (R.TRX_STATE_SYN_RX_LOCK n).addr = 7 := regBlock_trx _ n (by decide) (by decide)
@[simp] theorem R.TRX_STATE_SYN_TX_LOCK_block (n : Nat) : regBlock (R.TRX_STATE_SYN_TX_LOCK n).addr = 7 := regBlock_trx _ n (by decide) (by decide)
@[simp] theorem R.TRX_STATE_TARGET_block (n : Nat) : regBlock (R.TRX_STATE_TARGET n).addr = 7 := regBlock_trx _ n (by decide) (by decide)
@[simp] theorem R.TRX_SYN_FRAC_block (n : Nat) : regBlock (R.TRX_SYN_FRAC n).addr = 7 := regBlock_trx _ n (by decide) (by decide)
@[simp] theorem R.TRX_SYN_N_block (n : Nat) : regBlock (R.TRX_SYN_N n).addr = 7 := regBlock_trx _ n (by decide) (by decide)
@[simp] theorem R.TRX_TUNE_CENTRE_KHZ_block (n : Nat) : regBlock (R.TRX_TUNE_CENTRE_KHZ n).addr = 7 := regBlock_trx _ n (by decide) (by decide)
@[simp] theorem R.TRX_TX_COUNT0_LATE_block (n : Nat) : regBlock (R.TRX_TX_COUNT0_LATE n).addr = 7 := regBlock_trx _ n (by decide) (by decide)
@[simp] theorem R.TRX_TX_COUNT0_SENT_block (n : Nat) : regBlock (R.TRX_TX_COUNT0_SENT n).addr = 7 := regBlock_trx _ n (by decide) (by decide)
@[simp] theorem R.TRX_TX_COUNT1_FLUSHED_block (n : Nat) : regBlock (R.TRX_TX_COUNT1_FLUSHED n).addr = 7 := regBlock_trx _ n (by decide) (by decide)
@[simp] theorem R.TRX_TX_COUNT1_REFUSED_block (n : Nat) : regBlock (R.TRX_TX_COUNT1_REFUSED n).addr = 7 := regBlock_trx _ n (by decide) (by decide)
@[simp] theorem R.TRX_TX_EVENT_BRAID_CLOSED_block (n : Nat) : regBlock (R.TRX_TX_EVENT_BRAID_CLOSED n).addr = 7 := regBlock_trx _ n (by decide) (by decide)
@[simp] theorem R.TRX_TX_EVENT_FENCE_block (n : Nat) : regBlock (R.TRX_TX_EVENT_FENCE n).addr = 7 := regBlock_trx _ n (by decide) (by decide)
@[simp] theorem R.TRX_TX_EVENT_FLUSHED_block (n : Nat) : regBlock (R.TRX_TX_EVENT_FLUSHED n).addr = 7 := regBlock_trx _ n (by decide) (by decide)
@[simp] theorem R.TRX_TX_EVENT_LATE_block (n : Nat) : regBlock (R.TRX_TX_EVENT_LATE n).addr = 7 := regBlock_trx _ n (by decide) (by decide)
@[simp] theorem R.TRX_TX_STAT_BRAID_OPEN_block (n : Nat) : regBlock (R.TRX_TX_STAT_BRAID_OPEN n).addr = 7 := regBlock_trx _ n (by decide) (by decide)
@[simp] theorem R.TRX_TX_STAT_HEAD_KIND_block (n : Nat) : regBlock (R.TRX_TX_STAT_HEAD_KIND n).addr = 7 := regBlock_trx _ n (by decide) (by decide)
@[simp] theorem R.TRX_TX_STAT_LAUNCHED_block (n : Nat) : regBlock (R.TRX_TX_STAT_LAUNCHED n).addr = 7 := regBlock_trx _ n (by decide) (by decide)
@[simp] theorem R.TRX_TX_STAT_MEMBERS_block (n : Nat) : regBlock (R.TRX_TX_STAT_MEMBERS n).addr = 7 := regBlock_trx _ n (by decide) (by decide)
@[simp] theorem R.TRX_TX_STAT_PLANNED_block (n : Nat) : regBlock (R.TRX_TX_STAT_PLANNED n).addr = 7 := regBlock_trx _ n (by decide) (by decide)
@[simp] theorem R.UPDATE_CMD_ERR_STATUS_block : regBlock R.UPDATE_CMD_ERR_STATUS.addr = 22 := by decide
@[simp] theorem R.UPDATE_EVENT_ACTIVATED_block : regBlock R.UPDATE_EVENT_ACTIVATED.addr = 22 := by decide
@[simp] theorem R.UPDATE_EVENT_BUSY_REFUSED_block : regBlock R.UPDATE_EVENT_BUSY_REFUSED.addr = 22 := by decide
@[simp] theorem R.UPDATE_EVENT_COMMITTED_block : regBlock R.UPDATE_EVENT_COMMITTED.addr = 22 := by decide
@[simp] theorem R.UPDATE_EVENT_EXT_REJECT_block : regBlock R.UPDATE_EVENT_EXT_REJECT.addr = 22 := by decide
@[simp] theorem R.UPDATE_EVENT_FALLBACK_block : regBlock R.UPDATE_EVENT_FALLBACK.addr = 22 := by decide
@[simp] theorem R.UPDATE_EVENT_ROLLBACK_SPENT_block : regBlock R.UPDATE_EVENT_ROLLBACK_SPENT.addr = 22 := by decide
@[simp] theorem R.UPDATE_EVENT_SESSION_ABORTED_block : regBlock R.UPDATE_EVENT_SESSION_ABORTED.addr = 22 := by decide
@[simp] theorem R.UPDATE_EVENT_STAGED_block : regBlock R.UPDATE_EVENT_STAGED.addr = 22 := by decide
@[simp] theorem R.UPDATE_EVENT_UNDECIDED_block : regBlock R.UPDATE_EVENT_UNDECIDED.addr = 22 := by decide
@[simp] theorem R.UPDATE_STATE_BOOTED_block : regBlock R.UPDATE_STATE_BOOTED.addr = 22 := by decide
@[simp] theorem R.UPDATE_TRIAL_LAST_block : regBlock R.UPDATE_TRIAL_LAST.addr = 22 := by decide
@[simp] theorem R.UPL_CMD_ERR_STATUS_block (n : Nat) : regBlock (R.UPL_CMD_ERR_STATUS n).addr = 3 := regBlock_upl _ n (by decide) (by decide)
@[simp] theorem R.UPL_CTRL_ADMIN_block (n : Nat) : regBlock (R.UPL_CTRL_ADMIN n).addr = 3 := regBlock_upl _ n (by decide) (by decide)
@[simp] theorem R.UPL_EVENT_FC_DISCARD_block (n : Nat) : regBlock (R.UPL_EVENT_FC_DISCARD n).addr = 3 := regBlock_upl _ n (by decide) (by decide)
@[simp] theorem R.UPL_EVENT_LINK_DOWN_block (n : Nat) : regBlock (R.UPL_EVENT_LINK_DOWN n).addr = 3 := regBlock_upl _ n (by decide) (by decide)
@[simp] theorem R.UPL_EVENT_LINK_UP_block (n : Nat) : regBlock (R.UPL_EVENT_LINK_UP n).addr = 3 := regBlock_upl _ n (by decide) (by decide)
@[simp] theorem R.UPL_EVENT_TRAIN_FAIL_block (n : Nat) : regBlock (R.UPL_EVENT_TRAIN_FAIL n).addr = 3 := regBlock_upl _ n (by decide) (by decide)
@[simp] theorem R.UPL_LP_ABILITY_BASE_block (n : Nat) : regBlock (R.UPL_LP_ABILITY_BASE n).addr = 3 := regBlock_upl _ n (by decide) (by decide)
@[simp] theorem R.UPL_STAT_BLOCK_LOCK_block (n : Nat) : regBlock (R.UPL_STAT_BLOCK_LOCK n).addr = 3 := regBlock_upl _ n (by decide) (by decide)
@[simp] theorem R.UPL_STAT_CDR_LOCK_block (n : Nat) : regBlock (R.UPL_STAT_CDR_LOCK n).addr = 3 := regBlock_upl _ n (by decide) (by decide)
@[simp] theorem R.UPL_STAT_FEC_ON_block (n : Nat) : regBlock (R.UPL_STAT_FEC_ON n).addr = 3 := regBlock_upl _ n (by decide) (by decide)
@[simp] theorem R.UPL_STAT_LINK_UP_block (n : Nat) : regBlock (R.UPL_STAT_LINK_UP n).addr = 3 := regBlock_upl _ n (by decide) (by decide)
@[simp] theorem R.UPL_STAT_MODE_block (n : Nat) : regBlock (R.UPL_STAT_MODE n).addr = 3 := regBlock_upl _ n (by decide) (by decide)
@[simp] theorem R.UPL_STAT_PHASE_block (n : Nat) : regBlock (R.UPL_STAT_PHASE n).addr = 3 := regBlock_upl _ n (by decide) (by decide)
@[simp] theorem R.UPL_STAT_TRAIN_FAILS_block (n : Nat) : regBlock (R.UPL_STAT_TRAIN_FAILS n).addr = 3 := regBlock_upl _ n (by decide) (by decide)

end Sys2Proof.Machine
end

