-- ==== Sys2Proof/Laws/Store.lean ====
section
/-!
SUPPORT. What the operations of a sparse table do: reading after a change, and that every change keeps the canonical form.
-/
namespace Sys2Proof.Machine

variable {α : Type}

@[simp] theorem Store.get_put_same (d : Nat → α) (m : List (Nat × α)) (k : Nat) (v : α) : Store.get d (Store.put k v m) k = v := by
  induction m with
  | nil => simp [Store.put, Store.get]
  | cons x m ih =>
    obtain ⟨j, w⟩ := x
    simp only [Store.put]
    split
    · simp [Store.get]
    · split
      · simp [Store.get]
      · next h1 h2 => simp [Store.get, h2, ih]

theorem Store.get_put_ne (d : Nat → α) (m : List (Nat × α)) {k i : Nat} (v : α) (h : i ≠ k) :
    Store.get d (Store.put k v m) i = Store.get d m i := by
  induction m with
  | nil => simp only [Store.put, Store.get, if_neg h]
  | cons x m ih =>
    obtain ⟨j, w⟩ := x
    simp only [Store.put]
    split
    · simp only [Store.get, if_neg h]
    · split
      · next h1 h2 => subst h2; simp [Store.get, h]
      · simp only [Store.get, ih]

@[simp] theorem Store.get_del_same (d : Nat → α) (m : List (Nat × α)) (k : Nat) : Store.get d (Store.del k m) k = d k := by
  induction m with
  | nil => rfl
  | cons x m ih =>
    obtain ⟨j, w⟩ := x
    simp only [Store.del]
    split
    · exact ih
    · next h => simp only [Store.get, if_neg h, ih]

theorem Store.get_del_ne (d : Nat → α) (m : List (Nat × α)) {k i : Nat} (hn : i ≠ k) :
    Store.get d (Store.del k m) i = Store.get d m i := by
  induction m with
  | nil => rfl
  | cons x m ih =>
    obtain ⟨j, w⟩ := x
    simp only [Store.del]
    split
    · next h => subst h; simp only [Store.get, if_neg hn, ih]
    · simp only [Store.get, ih]

/-- Reading the key that was written. -/
@[simp] theorem Store.get_set_same [DecidableEq α] (d : Nat → α) (m : List (Nat × α)) (k : Nat) (v : α) :
    Store.get d (Store.set d m k v) k = v := by
  unfold Store.set
  split
  · next e => rw [e]; exact Store.get_del_same d m k
  · exact Store.get_put_same d m k v

/-- Reading another key than the one that was written. -/
theorem Store.get_set_ne [DecidableEq α] (d : Nat → α) (m : List (Nat × α)) {k i : Nat} (v : α) (hn : i ≠ k) :
    Store.get d (Store.set d m k v) i = Store.get d m i := by
  unfold Store.set
  split
  · exact Store.get_del_ne d m hn
  · exact Store.get_put_ne d m v hn

@[simp] theorem Store.find?_put_same (m : List (Nat × α)) (k : Nat) (v : α) : Store.find? k (Store.put k v m) = some v := by
  induction m with
  | nil => simp [Store.put, Store.find?]
  | cons x m ih =>
    obtain ⟨j, w⟩ := x
    simp only [Store.put]
    split
    · simp [Store.find?]
    · split
      · simp [Store.find?]
      · next h1 h2 => simp only [Store.find?, if_neg h2, ih]

theorem Store.find?_put_ne (m : List (Nat × α)) {k i : Nat} (v : α) (h : i ≠ k) :
    Store.find? i (Store.put k v m) = Store.find? i m := by
  induction m with
  | nil => simp only [Store.put, Store.find?, if_neg h]
  | cons x m ih =>
    obtain ⟨j, w⟩ := x
    simp only [Store.put]
    split
    · simp only [Store.find?, if_neg h]
    · split
      · next h1 h2 => subst h2; simp [Store.find?, h]
      · simp only [Store.find?, ih]

@[simp] theorem Store.find?_del_same (m : List (Nat × α)) (k : Nat) : Store.find? k (Store.del k m) = none := by
  induction m with
  | nil => rfl
  | cons x m ih =>
    obtain ⟨j, w⟩ := x
    simp only [Store.del]
    split
    · exact ih
    · next h => simp only [Store.find?, if_neg h, ih]

theorem Store.find?_del_ne (m : List (Nat × α)) {k i : Nat} (h : i ≠ k) : Store.find? i (Store.del k m) = Store.find? i m := by
  induction m with
  | nil => rfl
  | cons x m ih =>
    obtain ⟨j, w⟩ := x
    simp only [Store.del]
    split
    · next e => subst e; simp only [Store.find?, if_neg h, ih]
    · simp only [Store.find?, ih]

/-- An entry that was put in and taken out again leaves no trace. -/
@[simp] theorem Store.del_put (m : List (Nat × α)) (k : Nat) (v : α) : Store.del k (Store.put k v m) = Store.del k m := by
  induction m with
  | nil => simp [Store.put, Store.del]
  | cons x m ih =>
    obtain ⟨j, w⟩ := x
    simp only [Store.put]
    split
    · simp [Store.del]
    · split
      · next h1 h2 => subst h2; simp [Store.del]
      · next h1 h2 => simp only [Store.del, if_neg h2, ih]

/-- A bound below another bounds as well. -/
theorem Store.wfFrom_mono [DecidableEq α] (d : Nat → α) (m : List (Nat × α)) {b c : Nat} (hbc : b ≤ c)
    (h : Store.wfFrom d (some c) m = true) : Store.wfFrom d (some b) m = true := by
  cases m with
  | nil => rfl
  | cons x m =>
    simp only [Store.wfFrom, Bool.and_eq_true, decide_eq_true_eq] at h ⊢
    exact ⟨⟨by omega, h.1.2⟩, h.2⟩

theorem Store.wfFrom_none [DecidableEq α] (d : Nat → α) (m : List (Nat × α)) {c : Nat}
    (h : Store.wfFrom d (some c) m = true) : Store.wfFrom d none m = true := by
  cases m with
  | nil => rfl
  | cons x m =>
    simp only [Store.wfFrom, Bool.and_eq_true, decide_eq_true_eq, true_and] at h ⊢
    exact ⟨h.1.2, h.2⟩

theorem Store.wfFrom_put [DecidableEq α] (d : Nat → α) (m : List (Nat × α)) (b : Option Nat) (k : Nat) (v : α)
    (hv : v ≠ d k) (hb : ∀ c, b = some c → c < k) (h : Store.wfFrom d b m = true) : Store.wfFrom d b (Store.put k v m) = true := by
  have new : ∀ m' : List (Nat × α), Store.wfFrom d (some k) m' = true → Store.wfFrom d b ((k, v) :: m') = true := by
    intro m' h'
    cases b with
    | none => simp [Store.wfFrom, hv, h']
    | some c => simp [Store.wfFrom, hv, h', hb c rfl]
  induction m generalizing b with
  | nil => exact new [] rfl
  | cons x m ih =>
    obtain ⟨j, w⟩ := x
    simp only [Store.put]
    have h0 := h
    simp only [Store.wfFrom, Bool.and_eq_true] at h
    split
    · next h1 => exact new _ (by simp [Store.wfFrom, h1, h.2, of_decide_eq_true h.1.2])
    · split
      · next h1 h2 => subst h2; exact new _ h.2
      · next h1 h2 =>
        have hjk : j < k := by omega
        simp only [Store.wfFrom, Bool.and_eq_true]
        refine ⟨h.1, ih (some j) (by simpa using hjk) h.2 ?_⟩
        intro m' h'
        simp [Store.wfFrom, hv, h', hjk]

theorem Store.wfFrom_del [DecidableEq α] (d : Nat → α) (m : List (Nat × α)) (b : Option Nat) (k : Nat)
    (h : Store.wfFrom d b m = true) : Store.wfFrom d b (Store.del k m) = true := by
  induction m generalizing b with
  | nil => rfl
  | cons x m ih =>
    obtain ⟨j, w⟩ := x
    simp only [Store.wfFrom, Bool.and_eq_true] at h
    simp only [Store.del]
    split
    · cases b with
      | none => exact Store.wfFrom_none d _ (ih _ h.2)
      | some c => exact Store.wfFrom_mono d _ (by simpa using Nat.le_of_lt (of_decide_eq_true h.1.1)) (ih _ h.2)
    · simp only [Store.wfFrom, Bool.and_eq_true]
      exact ⟨h.1, ih _ h.2⟩

/-- Every write keeps the canonical form. -/
theorem Store.wf_set [DecidableEq α] (d : Nat → α) (m : List (Nat × α)) (k : Nat) (v : α) (h : Store.wf d m = true) :
    Store.wf d (Store.set d m k v) = true := by
  unfold Store.set Store.wf at *
  split
  · exact Store.wfFrom_del d m none k h
  · next e => exact Store.wfFrom_put d m none k v e (by simp) h

theorem Store.wfFrom_filter [DecidableEq α] (d : Nat → α) (m : List (Nat × α)) (b : Option Nat) (p : Nat × α → Bool)
    (h : Store.wfFrom d b m = true) : Store.wfFrom d b (m.filter p) = true := by
  induction m generalizing b with
  | nil => rfl
  | cons x m ih =>
    obtain ⟨j, w⟩ := x
    simp only [Store.wfFrom, Bool.and_eq_true] at h
    simp only [List.filter_cons]
    split
    · simp only [Store.wfFrom, Bool.and_eq_true]
      exact ⟨h.1, ih _ h.2⟩
    · cases b with
      | none => exact Store.wfFrom_none d _ (ih _ h.2)
      | some c => exact Store.wfFrom_mono d _ (by simpa using Nat.le_of_lt (of_decide_eq_true h.1.1)) (ih _ h.2)

/-- Taking entries out keeps the canonical form. -/
theorem Store.wf_filter [DecidableEq α] (d : Nat → α) (m : List (Nat × α)) (p : Nat × α → Bool) (h : Store.wf d m = true) :
    Store.wf d (m.filter p) = true := Store.wfFrom_filter d m none p h

theorem Store.wf_nil [DecidableEq α] (d : Nat → α) : Store.wf d [] = true := rfl

/-- Every entry of a table after a write is the one written or one from before. -/
theorem Store.mem_put (m : List (Nat × α)) (k : Nat) (v : α) (x : Nat × α) (h : x ∈ Store.put k v m) : x = (k, v) ∨ x ∈ m := by
  induction m with
  | nil => exact Or.inl (by simpa [Store.put] using h)
  | cons y m ih =>
    simp only [Store.put] at h
    split at h
    · rcases List.mem_cons.mp h with h | h
      · exact Or.inl h
      · exact Or.inr h
    · split at h
      · rcases List.mem_cons.mp h with h | h
        · exact Or.inl h
        · exact Or.inr (List.mem_cons_of_mem _ h)
      · rcases List.mem_cons.mp h with h | h
        · exact Or.inr (by simp [h])
        · rcases ih h with h | h
          · exact Or.inl h
          · exact Or.inr (List.mem_cons_of_mem _ h)

theorem Store.mem_del (m : List (Nat × α)) (k : Nat) (x : Nat × α) (h : x ∈ Store.del k m) : x ∈ m := by
  induction m with
  | nil => exact h
  | cons y m ih =>
    simp only [Store.del] at h
    split at h
    · exact List.mem_cons_of_mem _ (ih h)
    · rcases List.mem_cons.mp h with h | h
      · simp [h]
      · exact List.mem_cons_of_mem _ (ih h)

theorem Store.mem_set [DecidableEq α] (d : Nat → α) (m : List (Nat × α)) (k : Nat) (v : α) (x : Nat × α)
    (h : x ∈ Store.set d m k v) : x = (k, v) ∨ x ∈ m := by
  unfold Store.set at h
  split at h
  · exact Or.inr (Store.mem_del m k x h)
  · exact Store.mem_put m k v x h

end Sys2Proof.Machine
end

