-- ==== Sys2Proof/Laws/Fields.lean ====
section
/-!
SUPPORT. The register laws: what a register, a field, a byte of memory and an octet of flash read as after a write.
-/
namespace Sys2Proof.Machine

/-- A field that fits its register: within 32 bits, and every bit of it holds a value (R8). -/
def Field.ok (f : Field) : Bool :=
  decide (f.lo + f.width ≤ 32) && decide ((regMask f.addr).toNat / 2 ^ f.lo % 2 ^ f.width = 2 ^ f.width - 1)

/-- Two fields of one register that share no bit, or fields of two registers. -/
def Field.apart (f g : Field) : Bool :=
  decide (f.addr ≠ g.addr) || decide (g.lo + g.width ≤ f.lo) || decide (f.lo + f.width ≤ g.lo)

theorem Field.get_lt (f : Field) (w : Word) : f.get w < 2 ^ f.width := Nat.mod_lt _ (Nat.two_pow_pos _)

theorem Field.testBit_get (f : Field) (w : Word) (i : Nat) :
    (f.get w).testBit i = (decide (i < f.width) && w.getLsbD (f.lo + i)) := by
  simp [Field.get, Nat.testBit_mod_two_pow, Nat.testBit_div_two_pow, BitVec.getLsbD, Nat.add_comm]

/-- The word that a put makes, bit by bit: the field's bits are the new value's, the others stay. -/
theorem Field.put_split (f : Field) (w : Word) (v : Nat) (h : f.lo + f.width ≤ 32) :
    (f.put w v).toNat = w.toNat / 2 ^ (f.lo + f.width) * 2 ^ (f.lo + f.width) + v % 2 ^ f.width * 2 ^ f.lo + w.toNat % 2 ^ f.lo := by
  have hw : w.toNat < 2 ^ 32 := w.isLt
  have e1 : w.toNat = w.toNat / 2 ^ f.lo * 2 ^ f.lo + w.toNat % 2 ^ f.lo := by
    rw [Nat.mul_comm]; exact (Nat.div_add_mod _ _).symm
  have e2 : w.toNat / 2 ^ f.lo = w.toNat / 2 ^ (f.lo + f.width) * 2 ^ f.width + f.get w := by
    rw [Nat.pow_add, ← Nat.div_div_eq_div_mul, Nat.mul_comm]; exact (Nat.div_add_mod _ _).symm
  have e3 : w.toNat = w.toNat / 2 ^ (f.lo + f.width) * 2 ^ (f.lo + f.width) + f.get w * 2 ^ f.lo + w.toNat % 2 ^ f.lo := by
    conv_lhs => rw [e1, e2]
    rw [Nat.add_mul, Nat.mul_assoc, ← Nat.pow_add, Nat.add_comm f.width]
  have b1 : v % 2 ^ f.width * 2 ^ f.lo + w.toNat % 2 ^ f.lo < 2 ^ (f.lo + f.width) := by
    have h1 : v % 2 ^ f.width + 1 ≤ 2 ^ f.width := Nat.mod_lt _ (Nat.two_pow_pos _)
    have h2 : w.toNat % 2 ^ f.lo < 2 ^ f.lo := Nat.mod_lt _ (Nat.two_pow_pos _)
    have h3 := Nat.mul_le_mul_right (2 ^ f.lo) h1
    rw [Nat.add_mul, ← Nat.pow_add, Nat.add_comm f.width] at h3
    omega
  have b2 : w.toNat / 2 ^ (f.lo + f.width) * 2 ^ (f.lo + f.width) + 2 ^ (f.lo + f.width) ≤ 2 ^ 32 := by
    have h1 : w.toNat / 2 ^ (f.lo + f.width) + 1 ≤ 2 ^ (32 - (f.lo + f.width)) := by
      apply (Nat.div_lt_iff_lt_mul (Nat.two_pow_pos _)).mpr
      rw [← Nat.pow_add, Nat.sub_add_cancel h]; exact hw
    have h3 := Nat.mul_le_mul_right (2 ^ (f.lo + f.width)) h1
    rw [Nat.add_mul, ← Nat.pow_add, Nat.sub_add_cancel h] at h3
    omega
  rw [Field.put, BitVec.toNat_ofNat, Nat.mod_eq_of_lt] <;> omega

/-- The field put reads as the value's lowest bits. -/
theorem Field.get_put_same (f : Field) (w : Word) (v : Nat) (h : f.lo + f.width ≤ 32) : f.get (f.put w v) = v % 2 ^ f.width := by
  rw [Field.get, Field.put_split f w v h, Nat.pow_add, ← Nat.mul_assoc, Nat.mul_right_comm, ← Nat.add_mul,
    Nat.add_comm _ (w.toNat % 2 ^ f.lo), Nat.add_mul_div_right _ _ (Nat.two_pow_pos _),
    Nat.div_eq_of_lt (Nat.mod_lt _ (Nat.two_pow_pos _)), Nat.zero_add, Nat.add_comm, Nat.add_mul_mod_self_right, Nat.mod_mod]

/-- A field below the one put stays. -/
theorem Field.get_put_below (f g : Field) (w : Word) (v : Nat) (h : f.lo + f.width ≤ 32) (hg : g.lo + g.width ≤ f.lo) :
    g.get (f.put w v) = g.get w := by
  have key : ∀ n, n % 2 ^ f.lo / 2 ^ g.lo % 2 ^ g.width = n / 2 ^ g.lo % 2 ^ g.width := by
    intro n
    apply Nat.eq_of_testBit_eq; intro i
    simp only [Nat.testBit_mod_two_pow, Nat.testBit_div_two_pow]
    by_cases hi : i < g.width
    · have : i + g.lo < f.lo := by omega
      simp [hi, this]
    · simp [hi]
  rw [Field.get, ← key, Field.put_split f w v h, Nat.pow_add, Nat.mul_comm (2 ^ f.lo), ← Nat.mul_assoc, ← Nat.add_mul,
    Nat.add_comm, Nat.add_mul_mod_self_right, Nat.mod_mod, key, Field.get]

/-- A field above the one put stays. -/
theorem Field.get_put_above (f g : Field) (w : Word) (v : Nat) (h : f.lo + f.width ≤ 32) (hg : f.lo + f.width ≤ g.lo) :
    g.get (f.put w v) = g.get w := by
  have key : ∀ n, n / 2 ^ g.lo = n / 2 ^ (f.lo + f.width) / 2 ^ (g.lo - (f.lo + f.width)) := by
    intro n; rw [Nat.div_div_eq_div_mul, ← Nat.pow_add, Nat.add_sub_cancel' hg]
  have b1 : v % 2 ^ f.width * 2 ^ f.lo + w.toNat % 2 ^ f.lo < 2 ^ (f.lo + f.width) := by
    have h1 : v % 2 ^ f.width + 1 ≤ 2 ^ f.width := Nat.mod_lt _ (Nat.two_pow_pos _)
    have h2 : w.toNat % 2 ^ f.lo < 2 ^ f.lo := Nat.mod_lt _ (Nat.two_pow_pos _)
    have h3 := Nat.mul_le_mul_right (2 ^ f.lo) h1
    rw [Nat.add_mul, ← Nat.pow_add, Nat.add_comm f.width] at h3
    omega
  rw [Field.get, key, Field.put_split f w v h, Nat.add_assoc, Nat.add_comm, Nat.add_mul_div_right _ _ (Nat.two_pow_pos _),
    Nat.div_eq_of_lt b1, Nat.zero_add, ← key, Field.get]

/-- A register's mask leaves a field that fits. -/
theorem Field.get_mask (f : Field) (w : Word) (h : f.ok = true) : f.get (w &&& regMask f.addr) = f.get w := by
  simp only [Field.ok, Bool.and_eq_true, decide_eq_true_eq] at h
  apply Nat.eq_of_testBit_eq; intro i
  have hm := congrArg (Nat.testBit · i) h.2
  simp only [Nat.testBit_mod_two_pow, Nat.testBit_div_two_pow, Nat.testBit_two_pow_sub_one] at hm
  simp only [Field.testBit_get, BitVec.getLsbD_and]
  by_cases hi : i < f.width
  · simp only [hi, decide_true, Bool.true_and] at hm ⊢
    rw [show (regMask f.addr).getLsbD (f.lo + i) = true by rw [Nat.add_comm]; exact hm, Bool.and_true]
  · simp [hi]

@[simp] theorem State.getReg_setReg_same (s : State) (a : Nat) (w : Word) : (s.setReg a w).getReg a = w &&& regMask a :=
  Store.get_set_same regReset s.regs a _

theorem State.getReg_setReg_ne (s : State) {a b : Nat} (w : Word) (hb : b ≠ a) : (s.setReg a w).getReg b = s.getReg b :=
  Store.get_set_ne regReset s.regs _ hb

theorem Registers.wf_setReg (s : State) (a : Nat) (w : Word) (h : Registers.wf s.regs = true) :
    Registers.wf (s.setReg a w).regs = true := by
  simp only [Registers.wf, Bool.and_eq_true, List.all_eq_true] at h
  simp only [Registers.wf, Bool.and_eq_true, List.all_eq_true, State.setReg]
  refine ⟨Store.wf_set _ _ _ _ h.1, fun x hx => ?_⟩
  rcases Store.mem_set _ _ _ _ x hx with h2 | h2
  · subst h2
    simp only [cleanWord, BitVec.and_assoc, decide_eq_true_eq]
    simp
  · exact h.2 x h2

theorem Registers.wf_setF (s : State) (f : Field) (v : Nat) (h : Registers.wf s.regs = true) :
    Registers.wf (s.setF f v).regs = true := Registers.wf_setReg s _ _ h

/-- A field reads as what was set, cut to its width. -/
theorem State.getF_setF_same (s : State) (f : Field) (v : Nat) (hf : f.ok = true) : (s.setF f v).getF f = v % 2 ^ f.width := by
  have hf' := hf
  simp only [Field.ok, Bool.and_eq_true, decide_eq_true_eq] at hf'
  rw [State.getF, State.setF, State.getReg_setReg_same, Field.get_mask f _ hf, Field.get_put_same f _ _ hf'.1]

/-- Another field keeps its value. -/
theorem State.getF_setF_ne (s : State) (f g : Field) (v : Nat) (hf : f.lo + f.width ≤ 32) (hg : g.ok = true)
    (ha : f.apart g = true) : (s.setF f v).getF g = s.getF g := by
  by_cases e : g.addr = f.addr
  · simp only [Field.apart, Bool.or_eq_true, decide_eq_true_eq] at ha
    rw [State.getF, State.setF, e, State.getReg_setReg_same, ← e, Field.get_mask g _ hg, State.getF]
    rcases ha with (ha | ha) | ha
    · exact absurd e.symm ha
    · exact Field.get_put_below f g _ v hf ha
    · exact Field.get_put_above f g _ v hf ha
  · rw [State.getF, State.setF, State.getReg_setReg_ne s _ e, State.getF]

/-- A register that a field does not lie in keeps its word. -/
theorem State.getReg_setF_ne (s : State) (f : Field) (v : Nat) {b : Nat} (hb : b ≠ f.addr) :
    (s.setF f v).getReg b = s.getReg b := State.getReg_setReg_ne s _ hb

@[simp] theorem State.readByte_writeByte_same (s : State) (a : Nat) (b : Byte) : (s.writeByte a b).readByte a = b :=
  Store.get_set_same _ _ _ _

theorem State.readByte_writeByte_ne (s : State) {a i : Nat} (b : Byte) (hi : i ≠ a) :
    (s.writeByte a b).readByte i = s.readByte i := Store.get_set_ne _ _ _ hi

theorem Memory.wf_writeByte (s : State) (a : Nat) (b : Byte) (h : Memory.wf s.mem = true) :
    Memory.wf (s.writeByte a b).mem = true := Store.wf_set _ _ _ _ h

theorem Memory.wf_writeBytes (s : State) (a : Nat) (l : List Byte) (h : Memory.wf s.mem = true) :
    Memory.wf (s.writeBytes a l).mem = true := by
  induction l generalizing s a with
  | nil => exact h
  | cons b l ih => exact ih _ _ (Memory.wf_writeByte s a b h)

/-- A byte outside the ones written stays. -/
theorem State.readByte_writeBytes_ne (s : State) (a : Nat) (l : List Byte) {i : Nat} (hi : i < a ∨ a + l.length ≤ i) :
    (s.writeBytes a l).readByte i = s.readByte i := by
  induction l generalizing s a with
  | nil => rfl
  | cons b l ih =>
    simp only [List.length_cons] at hi
    rw [State.writeBytes, ih _ _ (by omega), State.readByte_writeByte_ne s b (by omega)]

/-- The bytes written read back. -/
theorem State.readBytes_writeBytes (s : State) (a : Nat) (l : List Byte) : (s.writeBytes a l).readBytes a l.length = l := by
  induction l generalizing s a with
  | nil => rfl
  | cons b l ih =>
    rw [List.length_cons, State.readBytes, State.writeBytes, ih, State.readByte_writeBytes_ne _ _ _ (by omega),
      State.readByte_writeByte_same]

@[simp] theorem State.flashByte_flashPut_same (s : State) (a : Nat) (b : Byte) : (s.flashPut a b).flashByte a = b :=
  Store.get_set_same _ _ _ _

theorem State.flashByte_flashPut_ne (s : State) {a i : Nat} (b : Byte) (hi : i ≠ a) :
    (s.flashPut a b).flashByte i = s.flashByte i := Store.get_set_ne _ _ _ hi

end Sys2Proof.Machine
end

