-- ==== Sys2Proof/Laws/State.lean ====
section
/-!
SUPPORT. One lemma per field of the state per plain update: what the update leaves as it was, and what it sets.
-/
namespace Sys2Proof.Machine

section setReg
variable (s : State) (a : Nat) (w : Word)

@[simp] theorem State.setReg_mem : (s.setReg a w).mem = s.mem := rfl
@[simp] theorem State.setReg_flash : (s.setReg a w).flash = s.flash := rfl
@[simp] theorem State.setReg_pending : (s.setReg a w).pending = s.pending := rfl
@[simp] theorem State.setReg_out : (s.setReg a w).out = s.out := rfl
@[simp] theorem State.setReg_resp : (s.setReg a w).resp = s.resp := rfl
@[simp] theorem State.setReg_notes : (s.setReg a w).notes = s.notes := rfl
@[simp] theorem State.setReg_mtb : (s.setReg a w).mtb = s.mtb := rfl
@[simp] theorem State.setReg_freeIx : (s.setReg a w).freeIx = s.freeIx := rfl
@[simp] theorem State.setReg_pr : (s.setReg a w).pr = s.pr := rfl
@[simp] theorem State.setReg_clk : (s.setReg a w).clk = s.clk := rfl
@[simp] theorem State.setReg_su : (s.setReg a w).su = s.su := rfl
@[simp] theorem State.setReg_queues : (s.setReg a w).queues = s.queues := rfl
@[simp] theorem State.setReg_ms : (s.setReg a w).ms = s.ms := rfl
@[simp] theorem State.setReg_pl : (s.setReg a w).pl = s.pl := rfl
@[simp] theorem State.setReg_gd : (s.setReg a w).gd = s.gd := rfl
@[simp] theorem State.setReg_tm : (s.setReg a w).tm = s.tm := rfl
@[simp] theorem State.setReg_ky : (s.setReg a w).ky = s.ky := rfl
@[simp] theorem State.setReg_ro : (s.setReg a w).ro = s.ro := rfl
@[simp] theorem State.setReg_cmp : (s.setReg a w).cmp = s.cmp := rfl
@[simp] theorem State.setReg_rd : (s.setReg a w).rd = s.rd := rfl
@[simp] theorem State.setReg_mac : (s.setReg a w).mac = s.mac := rfl
@[simp] theorem State.setReg_sl : (s.setReg a w).sl = s.sl := rfl
@[simp] theorem State.setReg_pa : (s.setReg a w).pa = s.pa := rfl
@[simp] theorem State.setReg_ry : (s.setReg a w).ry = s.ry := rfl
@[simp] theorem State.setReg_upl0 : (s.setReg a w).upl0 = s.upl0 := rfl
@[simp] theorem State.setReg_upl1 : (s.setReg a w).upl1 = s.upl1 := rfl
@[simp] theorem State.setReg_tie : (s.setReg a w).tie = s.tie := rfl
@[simp] theorem State.setReg_svc : (s.setReg a w).svc = s.svc := rfl
@[simp] theorem State.setReg_up : (s.setReg a w).up = s.up := rfl

end setReg

section setF
variable (s : State) (f : Field) (v : Nat)

@[simp] theorem State.setF_mem : (s.setF f v).mem = s.mem := rfl
@[simp] theorem State.setF_flash : (s.setF f v).flash = s.flash := rfl
@[simp] theorem State.setF_pending : (s.setF f v).pending = s.pending := rfl
@[simp] theorem State.setF_out : (s.setF f v).out = s.out := rfl
@[simp] theorem State.setF_resp : (s.setF f v).resp = s.resp := rfl
@[simp] theorem State.setF_notes : (s.setF f v).notes = s.notes := rfl
@[simp] theorem State.setF_mtb : (s.setF f v).mtb = s.mtb := rfl
@[simp] theorem State.setF_freeIx : (s.setF f v).freeIx = s.freeIx := rfl
@[simp] theorem State.setF_pr : (s.setF f v).pr = s.pr := rfl
@[simp] theorem State.setF_clk : (s.setF f v).clk = s.clk := rfl
@[simp] theorem State.setF_su : (s.setF f v).su = s.su := rfl
@[simp] theorem State.setF_queues : (s.setF f v).queues = s.queues := rfl
@[simp] theorem State.setF_ms : (s.setF f v).ms = s.ms := rfl
@[simp] theorem State.setF_pl : (s.setF f v).pl = s.pl := rfl
@[simp] theorem State.setF_gd : (s.setF f v).gd = s.gd := rfl
@[simp] theorem State.setF_tm : (s.setF f v).tm = s.tm := rfl
@[simp] theorem State.setF_ky : (s.setF f v).ky = s.ky := rfl
@[simp] theorem State.setF_ro : (s.setF f v).ro = s.ro := rfl
@[simp] theorem State.setF_cmp : (s.setF f v).cmp = s.cmp := rfl
@[simp] theorem State.setF_rd : (s.setF f v).rd = s.rd := rfl
@[simp] theorem State.setF_mac : (s.setF f v).mac = s.mac := rfl
@[simp] theorem State.setF_sl : (s.setF f v).sl = s.sl := rfl
@[simp] theorem State.setF_pa : (s.setF f v).pa = s.pa := rfl
@[simp] theorem State.setF_ry : (s.setF f v).ry = s.ry := rfl
@[simp] theorem State.setF_upl0 : (s.setF f v).upl0 = s.upl0 := rfl
@[simp] theorem State.setF_upl1 : (s.setF f v).upl1 = s.upl1 := rfl
@[simp] theorem State.setF_tie : (s.setF f v).tie = s.tie := rfl
@[simp] theorem State.setF_svc : (s.setF f v).svc = s.svc := rfl
@[simp] theorem State.setF_up : (s.setF f v).up = s.up := rfl

end setF

section emit
variable (s : State) (m : Msg)

@[simp] theorem State.emit_regs : (s.emit m).regs = s.regs := rfl
@[simp] theorem State.emit_mem : (s.emit m).mem = s.mem := rfl
@[simp] theorem State.emit_flash : (s.emit m).flash = s.flash := rfl
@[simp] theorem State.emit_pending : (s.emit m).pending = s.pending := rfl
@[simp] theorem State.emit_resp : (s.emit m).resp = s.resp := rfl
@[simp] theorem State.emit_notes : (s.emit m).notes = s.notes := rfl
@[simp] theorem State.emit_mtb : (s.emit m).mtb = s.mtb := rfl
@[simp] theorem State.emit_freeIx : (s.emit m).freeIx = s.freeIx := rfl
@[simp] theorem State.emit_pr : (s.emit m).pr = s.pr := rfl
@[simp] theorem State.emit_clk : (s.emit m).clk = s.clk := rfl
@[simp] theorem State.emit_su : (s.emit m).su = s.su := rfl
@[simp] theorem State.emit_queues : (s.emit m).queues = s.queues := rfl
@[simp] theorem State.emit_ms : (s.emit m).ms = s.ms := rfl
@[simp] theorem State.emit_pl : (s.emit m).pl = s.pl := rfl
@[simp] theorem State.emit_gd : (s.emit m).gd = s.gd := rfl
@[simp] theorem State.emit_tm : (s.emit m).tm = s.tm := rfl
@[simp] theorem State.emit_ky : (s.emit m).ky = s.ky := rfl
@[simp] theorem State.emit_ro : (s.emit m).ro = s.ro := rfl
@[simp] theorem State.emit_cmp : (s.emit m).cmp = s.cmp := rfl
@[simp] theorem State.emit_rd : (s.emit m).rd = s.rd := rfl
@[simp] theorem State.emit_mac : (s.emit m).mac = s.mac := rfl
@[simp] theorem State.emit_sl : (s.emit m).sl = s.sl := rfl
@[simp] theorem State.emit_pa : (s.emit m).pa = s.pa := rfl
@[simp] theorem State.emit_ry : (s.emit m).ry = s.ry := rfl
@[simp] theorem State.emit_upl0 : (s.emit m).upl0 = s.upl0 := rfl
@[simp] theorem State.emit_upl1 : (s.emit m).upl1 = s.upl1 := rfl
@[simp] theorem State.emit_tie : (s.emit m).tie = s.tie := rfl
@[simp] theorem State.emit_svc : (s.emit m).svc = s.svc := rfl
@[simp] theorem State.emit_up : (s.emit m).up = s.up := rfl

end emit

section answer
variable (s : State) (st : Nat)

@[simp] theorem State.answer_regs : (s.answer st).regs = s.regs := rfl
@[simp] theorem State.answer_mem : (s.answer st).mem = s.mem := rfl
@[simp] theorem State.answer_flash : (s.answer st).flash = s.flash := rfl
@[simp] theorem State.answer_pending : (s.answer st).pending = s.pending := rfl
@[simp] theorem State.answer_out : (s.answer st).out = s.out := rfl
@[simp] theorem State.answer_notes : (s.answer st).notes = s.notes := rfl
@[simp] theorem State.answer_mtb : (s.answer st).mtb = s.mtb := rfl
@[simp] theorem State.answer_freeIx : (s.answer st).freeIx = s.freeIx := rfl
@[simp] theorem State.answer_pr : (s.answer st).pr = s.pr := rfl
@[simp] theorem State.answer_clk : (s.answer st).clk = s.clk := rfl
@[simp] theorem State.answer_su : (s.answer st).su = s.su := rfl
@[simp] theorem State.answer_queues : (s.answer st).queues = s.queues := rfl
@[simp] theorem State.answer_ms : (s.answer st).ms = s.ms := rfl
@[simp] theorem State.answer_pl : (s.answer st).pl = s.pl := rfl
@[simp] theorem State.answer_gd : (s.answer st).gd = s.gd := rfl
@[simp] theorem State.answer_tm : (s.answer st).tm = s.tm := rfl
@[simp] theorem State.answer_ky : (s.answer st).ky = s.ky := rfl
@[simp] theorem State.answer_ro : (s.answer st).ro = s.ro := rfl
@[simp] theorem State.answer_cmp : (s.answer st).cmp = s.cmp := rfl
@[simp] theorem State.answer_rd : (s.answer st).rd = s.rd := rfl
@[simp] theorem State.answer_mac : (s.answer st).mac = s.mac := rfl
@[simp] theorem State.answer_sl : (s.answer st).sl = s.sl := rfl
@[simp] theorem State.answer_pa : (s.answer st).pa = s.pa := rfl
@[simp] theorem State.answer_ry : (s.answer st).ry = s.ry := rfl
@[simp] theorem State.answer_upl0 : (s.answer st).upl0 = s.upl0 := rfl
@[simp] theorem State.answer_upl1 : (s.answer st).upl1 = s.upl1 := rfl
@[simp] theorem State.answer_tie : (s.answer st).tie = s.tie := rfl
@[simp] theorem State.answer_svc : (s.answer st).svc = s.svc := rfl
@[simp] theorem State.answer_up : (s.answer st).up = s.up := rfl

end answer

section useFree
variable (s : State)

@[simp] theorem State.useFree_regs : (s.useFree).regs = s.regs := rfl
@[simp] theorem State.useFree_mem : (s.useFree).mem = s.mem := rfl
@[simp] theorem State.useFree_flash : (s.useFree).flash = s.flash := rfl
@[simp] theorem State.useFree_pending : (s.useFree).pending = s.pending := rfl
@[simp] theorem State.useFree_out : (s.useFree).out = s.out := rfl
@[simp] theorem State.useFree_resp : (s.useFree).resp = s.resp := rfl
@[simp] theorem State.useFree_notes : (s.useFree).notes = s.notes := rfl
@[simp] theorem State.useFree_mtb : (s.useFree).mtb = s.mtb := rfl
@[simp] theorem State.useFree_pr : (s.useFree).pr = s.pr := rfl
@[simp] theorem State.useFree_clk : (s.useFree).clk = s.clk := rfl
@[simp] theorem State.useFree_su : (s.useFree).su = s.su := rfl
@[simp] theorem State.useFree_queues : (s.useFree).queues = s.queues := rfl
@[simp] theorem State.useFree_ms : (s.useFree).ms = s.ms := rfl
@[simp] theorem State.useFree_pl : (s.useFree).pl = s.pl := rfl
@[simp] theorem State.useFree_gd : (s.useFree).gd = s.gd := rfl
@[simp] theorem State.useFree_tm : (s.useFree).tm = s.tm := rfl
@[simp] theorem State.useFree_ky : (s.useFree).ky = s.ky := rfl
@[simp] theorem State.useFree_ro : (s.useFree).ro = s.ro := rfl
@[simp] theorem State.useFree_cmp : (s.useFree).cmp = s.cmp := rfl
@[simp] theorem State.useFree_rd : (s.useFree).rd = s.rd := rfl
@[simp] theorem State.useFree_mac : (s.useFree).mac = s.mac := rfl
@[simp] theorem State.useFree_sl : (s.useFree).sl = s.sl := rfl
@[simp] theorem State.useFree_pa : (s.useFree).pa = s.pa := rfl
@[simp] theorem State.useFree_ry : (s.useFree).ry = s.ry := rfl
@[simp] theorem State.useFree_upl0 : (s.useFree).upl0 = s.upl0 := rfl
@[simp] theorem State.useFree_upl1 : (s.useFree).upl1 = s.upl1 := rfl
@[simp] theorem State.useFree_tie : (s.useFree).tie = s.tie := rfl
@[simp] theorem State.useFree_svc : (s.useFree).svc = s.svc := rfl
@[simp] theorem State.useFree_up : (s.useFree).up = s.up := rfl

end useFree

section advance
variable (s : State) (t : Nat)

@[simp] theorem State.advance_regs : (s.advance t).regs = s.regs := rfl
@[simp] theorem State.advance_mem : (s.advance t).mem = s.mem := rfl
@[simp] theorem State.advance_flash : (s.advance t).flash = s.flash := rfl
@[simp] theorem State.advance_pending : (s.advance t).pending = s.pending := rfl
@[simp] theorem State.advance_out : (s.advance t).out = s.out := rfl
@[simp] theorem State.advance_resp : (s.advance t).resp = s.resp := rfl
@[simp] theorem State.advance_notes : (s.advance t).notes = s.notes := rfl
@[simp] theorem State.advance_freeIx : (s.advance t).freeIx = s.freeIx := rfl
@[simp] theorem State.advance_pr : (s.advance t).pr = s.pr := rfl
@[simp] theorem State.advance_clk : (s.advance t).clk = s.clk := rfl
@[simp] theorem State.advance_su : (s.advance t).su = s.su := rfl
@[simp] theorem State.advance_queues : (s.advance t).queues = s.queues := rfl
@[simp] theorem State.advance_ms : (s.advance t).ms = s.ms := rfl
@[simp] theorem State.advance_pl : (s.advance t).pl = s.pl := rfl
@[simp] theorem State.advance_gd : (s.advance t).gd = s.gd := rfl
@[simp] theorem State.advance_tm : (s.advance t).tm = s.tm := rfl
@[simp] theorem State.advance_ky : (s.advance t).ky = s.ky := rfl
@[simp] theorem State.advance_ro : (s.advance t).ro = s.ro := rfl
@[simp] theorem State.advance_cmp : (s.advance t).cmp = s.cmp := rfl
@[simp] theorem State.advance_rd : (s.advance t).rd = s.rd := rfl
@[simp] theorem State.advance_mac : (s.advance t).mac = s.mac := rfl
@[simp] theorem State.advance_sl : (s.advance t).sl = s.sl := rfl
@[simp] theorem State.advance_pa : (s.advance t).pa = s.pa := rfl
@[simp] theorem State.advance_ry : (s.advance t).ry = s.ry := rfl
@[simp] theorem State.advance_upl0 : (s.advance t).upl0 = s.upl0 := rfl
@[simp] theorem State.advance_upl1 : (s.advance t).upl1 = s.upl1 := rfl
@[simp] theorem State.advance_tie : (s.advance t).tie = s.tie := rfl
@[simp] theorem State.advance_svc : (s.advance t).svc = s.svc := rfl
@[simp] theorem State.advance_up : (s.advance t).up = s.up := rfl

end advance

section writeByte
variable (s : State) (a : Nat) (b : Byte)

@[simp] theorem State.writeByte_regs : (s.writeByte a b).regs = s.regs := rfl
@[simp] theorem State.writeByte_flash : (s.writeByte a b).flash = s.flash := rfl
@[simp] theorem State.writeByte_pending : (s.writeByte a b).pending = s.pending := rfl
@[simp] theorem State.writeByte_out : (s.writeByte a b).out = s.out := rfl
@[simp] theorem State.writeByte_resp : (s.writeByte a b).resp = s.resp := rfl
@[simp] theorem State.writeByte_notes : (s.writeByte a b).notes = s.notes := rfl
@[simp] theorem State.writeByte_mtb : (s.writeByte a b).mtb = s.mtb := rfl
@[simp] theorem State.writeByte_freeIx : (s.writeByte a b).freeIx = s.freeIx := rfl
@[simp] theorem State.writeByte_pr : (s.writeByte a b).pr = s.pr := rfl
@[simp] theorem State.writeByte_clk : (s.writeByte a b).clk = s.clk := rfl
@[simp] theorem State.writeByte_su : (s.writeByte a b).su = s.su := rfl
@[simp] theorem State.writeByte_queues : (s.writeByte a b).queues = s.queues := rfl
@[simp] theorem State.writeByte_ms : (s.writeByte a b).ms = s.ms := rfl
@[simp] theorem State.writeByte_pl : (s.writeByte a b).pl = s.pl := rfl
@[simp] theorem State.writeByte_gd : (s.writeByte a b).gd = s.gd := rfl
@[simp] theorem State.writeByte_tm : (s.writeByte a b).tm = s.tm := rfl
@[simp] theorem State.writeByte_ky : (s.writeByte a b).ky = s.ky := rfl
@[simp] theorem State.writeByte_ro : (s.writeByte a b).ro = s.ro := rfl
@[simp] theorem State.writeByte_cmp : (s.writeByte a b).cmp = s.cmp := rfl
@[simp] theorem State.writeByte_rd : (s.writeByte a b).rd = s.rd := rfl
@[simp] theorem State.writeByte_mac : (s.writeByte a b).mac = s.mac := rfl
@[simp] theorem State.writeByte_sl : (s.writeByte a b).sl = s.sl := rfl
@[simp] theorem State.writeByte_pa : (s.writeByte a b).pa = s.pa := rfl
@[simp] theorem State.writeByte_ry : (s.writeByte a b).ry = s.ry := rfl
@[simp] theorem State.writeByte_upl0 : (s.writeByte a b).upl0 = s.upl0 := rfl
@[simp] theorem State.writeByte_upl1 : (s.writeByte a b).upl1 = s.upl1 := rfl
@[simp] theorem State.writeByte_tie : (s.writeByte a b).tie = s.tie := rfl
@[simp] theorem State.writeByte_svc : (s.writeByte a b).svc = s.svc := rfl
@[simp] theorem State.writeByte_up : (s.writeByte a b).up = s.up := rfl

end writeByte

section flashPut
variable (s : State) (a : Nat) (b : Byte)

@[simp] theorem State.flashPut_regs : (s.flashPut a b).regs = s.regs := rfl
@[simp] theorem State.flashPut_mem : (s.flashPut a b).mem = s.mem := rfl
@[simp] theorem State.flashPut_pending : (s.flashPut a b).pending = s.pending := rfl
@[simp] theorem State.flashPut_out : (s.flashPut a b).out = s.out := rfl
@[simp] theorem State.flashPut_resp : (s.flashPut a b).resp = s.resp := rfl
@[simp] theorem State.flashPut_notes : (s.flashPut a b).notes = s.notes := rfl
@[simp] theorem State.flashPut_mtb : (s.flashPut a b).mtb = s.mtb := rfl
@[simp] theorem State.flashPut_freeIx : (s.flashPut a b).freeIx = s.freeIx := rfl
@[simp] theorem State.flashPut_pr : (s.flashPut a b).pr = s.pr := rfl
@[simp] theorem State.flashPut_clk : (s.flashPut a b).clk = s.clk := rfl
@[simp] theorem State.flashPut_su : (s.flashPut a b).su = s.su := rfl
@[simp] theorem State.flashPut_queues : (s.flashPut a b).queues = s.queues := rfl
@[simp] theorem State.flashPut_ms : (s.flashPut a b).ms = s.ms := rfl
@[simp] theorem State.flashPut_pl : (s.flashPut a b).pl = s.pl := rfl
@[simp] theorem State.flashPut_gd : (s.flashPut a b).gd = s.gd := rfl
@[simp] theorem State.flashPut_tm : (s.flashPut a b).tm = s.tm := rfl
@[simp] theorem State.flashPut_ky : (s.flashPut a b).ky = s.ky := rfl
@[simp] theorem State.flashPut_ro : (s.flashPut a b).ro = s.ro := rfl
@[simp] theorem State.flashPut_cmp : (s.flashPut a b).cmp = s.cmp := rfl
@[simp] theorem State.flashPut_rd : (s.flashPut a b).rd = s.rd := rfl
@[simp] theorem State.flashPut_mac : (s.flashPut a b).mac = s.mac := rfl
@[simp] theorem State.flashPut_sl : (s.flashPut a b).sl = s.sl := rfl
@[simp] theorem State.flashPut_pa : (s.flashPut a b).pa = s.pa := rfl
@[simp] theorem State.flashPut_ry : (s.flashPut a b).ry = s.ry := rfl
@[simp] theorem State.flashPut_upl0 : (s.flashPut a b).upl0 = s.upl0 := rfl
@[simp] theorem State.flashPut_upl1 : (s.flashPut a b).upl1 = s.upl1 := rfl
@[simp] theorem State.flashPut_tie : (s.flashPut a b).tie = s.tie := rfl
@[simp] theorem State.flashPut_svc : (s.flashPut a b).svc = s.svc := rfl
@[simp] theorem State.flashPut_up : (s.flashPut a b).up = s.up := rfl

end flashPut

section dropMem
variable (s : State) (lo hi : Nat)

@[simp] theorem State.dropMem_regs : (s.dropMem lo hi).regs = s.regs := rfl
@[simp] theorem State.dropMem_flash : (s.dropMem lo hi).flash = s.flash := rfl
@[simp] theorem State.dropMem_pending : (s.dropMem lo hi).pending = s.pending := rfl
@[simp] theorem State.dropMem_out : (s.dropMem lo hi).out = s.out := rfl
@[simp] theorem State.dropMem_resp : (s.dropMem lo hi).resp = s.resp := rfl
@[simp] theorem State.dropMem_notes : (s.dropMem lo hi).notes = s.notes := rfl
@[simp] theorem State.dropMem_mtb : (s.dropMem lo hi).mtb = s.mtb := rfl
@[simp] theorem State.dropMem_freeIx : (s.dropMem lo hi).freeIx = s.freeIx := rfl
@[simp] theorem State.dropMem_pr : (s.dropMem lo hi).pr = s.pr := rfl
@[simp] theorem State.dropMem_clk : (s.dropMem lo hi).clk = s.clk := rfl
@[simp] theorem State.dropMem_su : (s.dropMem lo hi).su = s.su := rfl
@[simp] theorem State.dropMem_queues : (s.dropMem lo hi).queues = s.queues := rfl
@[simp] theorem State.dropMem_ms : (s.dropMem lo hi).ms = s.ms := rfl
@[simp] theorem State.dropMem_pl : (s.dropMem lo hi).pl = s.pl := rfl
@[simp] theorem State.dropMem_gd : (s.dropMem lo hi).gd = s.gd := rfl
@[simp] theorem State.dropMem_tm : (s.dropMem lo hi).tm = s.tm := rfl
@[simp] theorem State.dropMem_ky : (s.dropMem lo hi).ky = s.ky := rfl
@[simp] theorem State.dropMem_ro : (s.dropMem lo hi).ro = s.ro := rfl
@[simp] theorem State.dropMem_cmp : (s.dropMem lo hi).cmp = s.cmp := rfl
@[simp] theorem State.dropMem_rd : (s.dropMem lo hi).rd = s.rd := rfl
@[simp] theorem State.dropMem_mac : (s.dropMem lo hi).mac = s.mac := rfl
@[simp] theorem State.dropMem_sl : (s.dropMem lo hi).sl = s.sl := rfl
@[simp] theorem State.dropMem_pa : (s.dropMem lo hi).pa = s.pa := rfl
@[simp] theorem State.dropMem_ry : (s.dropMem lo hi).ry = s.ry := rfl
@[simp] theorem State.dropMem_upl0 : (s.dropMem lo hi).upl0 = s.upl0 := rfl
@[simp] theorem State.dropMem_upl1 : (s.dropMem lo hi).upl1 = s.upl1 := rfl
@[simp] theorem State.dropMem_tie : (s.dropMem lo hi).tie = s.tie := rfl
@[simp] theorem State.dropMem_svc : (s.dropMem lo hi).svc = s.svc := rfl
@[simp] theorem State.dropMem_up : (s.dropMem lo hi).up = s.up := rfl

end dropMem

@[simp] theorem State.emit_out (s : State) (m : Msg) : (s.emit m).out = m :: s.out := rfl
@[simp] theorem State.answer_resp (s : State) (st : Nat) : (s.answer st).resp = st := rfl
@[simp] theorem State.useFree_freeIx (s : State) : s.useFree.freeIx = s.freeIx + 1 := rfl
@[simp] theorem State.advance_mtb (s : State) (t : Nat) : (s.advance t).mtb = max s.mtb t := rfl
theorem State.setReg_regs (s : State) (a : Nat) (w : Word) :
    (s.setReg a w).regs = Store.set regReset s.regs a (w &&& regMask a) := rfl
theorem State.writeByte_mem (s : State) (a : Nat) (b : Byte) :
    (s.writeByte a b).mem = Store.set (fun _ => (0 : Byte)) s.mem a b := rfl
theorem State.flashPut_flash (s : State) (a : Nat) (b : Byte) :
    (s.flashPut a b).flash = Store.set (fun _ => (0xFF : Byte)) s.flash a b := rfl

theorem State.setB_eq (s : State) (f : Field) (b : Bool) : s.setB f b = s.setF f (if b then 1 else 0) := rfl
theorem State.addF_eq (s : State) (f : Field) (n : Nat) : s.addF f n = s.setF f (min f.max (s.getF f + n)) := rfl
theorem State.bump_eq (s : State) (f : Field) : s.bump f = s.setF f (min f.max (s.getF f + 1)) := rfl
theorem State.setDev_eq (s : State) (d : Nat) : s.setDev d = s.setF R.START_STATE_DEV_STATE d := rfl
theorem State.refuse_eq (s : State) (f : Field) (st : Nat) : s.refuse f st = (s.setF f st).answer st := rfl

@[simp] theorem State.readByte_setReg (s : State) (a : Nat) (w : Word) (i : Nat) : (s.setReg a w).readByte i = s.readByte i := rfl
@[simp] theorem State.flashByte_setReg (s : State) (a : Nat) (w : Word) (i : Nat) : (s.setReg a w).flashByte i = s.flashByte i := rfl
@[simp] theorem State.readByte_setF (s : State) (f : Field) (v : Nat) (i : Nat) : (s.setF f v).readByte i = s.readByte i := rfl
@[simp] theorem State.flashByte_setF (s : State) (f : Field) (v : Nat) (i : Nat) : (s.setF f v).flashByte i = s.flashByte i := rfl
@[simp] theorem State.getReg_emit (s : State) (m : Msg) (i : Nat) : (s.emit m).getReg i = s.getReg i := rfl
@[simp] theorem State.getF_emit (s : State) (m : Msg) (g : Field) : (s.emit m).getF g = s.getF g := rfl
@[simp] theorem State.isSet_emit (s : State) (m : Msg) (g : Field) : (s.emit m).isSet g = s.isSet g := rfl
@[simp] theorem State.readByte_emit (s : State) (m : Msg) (i : Nat) : (s.emit m).readByte i = s.readByte i := rfl
@[simp] theorem State.flashByte_emit (s : State) (m : Msg) (i : Nat) : (s.emit m).flashByte i = s.flashByte i := rfl
@[simp] theorem State.getReg_answer (s : State) (st : Nat) (i : Nat) : (s.answer st).getReg i = s.getReg i := rfl
@[simp] theorem State.getF_answer (s : State) (st : Nat) (g : Field) : (s.answer st).getF g = s.getF g := rfl
@[simp] theorem State.isSet_answer (s : State) (st : Nat) (g : Field) : (s.answer st).isSet g = s.isSet g := rfl
@[simp] theorem State.readByte_answer (s : State) (st : Nat) (i : Nat) : (s.answer st).readByte i = s.readByte i := rfl
@[simp] theorem State.flashByte_answer (s : State) (st : Nat) (i : Nat) : (s.answer st).flashByte i = s.flashByte i := rfl
@[simp] theorem State.getReg_useFree (s : State) (i : Nat) : (s.useFree).getReg i = s.getReg i := rfl
@[simp] theorem State.getF_useFree (s : State) (g : Field) : (s.useFree).getF g = s.getF g := rfl
@[simp] theorem State.isSet_useFree (s : State) (g : Field) : (s.useFree).isSet g = s.isSet g := rfl
@[simp] theorem State.readByte_useFree (s : State) (i : Nat) : (s.useFree).readByte i = s.readByte i := rfl
@[simp] theorem State.flashByte_useFree (s : State) (i : Nat) : (s.useFree).flashByte i = s.flashByte i := rfl
@[simp] theorem State.getReg_advance (s : State) (t : Nat) (i : Nat) : (s.advance t).getReg i = s.getReg i := rfl
@[simp] theorem State.getF_advance (s : State) (t : Nat) (g : Field) : (s.advance t).getF g = s.getF g := rfl
@[simp] theorem State.isSet_advance (s : State) (t : Nat) (g : Field) : (s.advance t).isSet g = s.isSet g := rfl
@[simp] theorem State.readByte_advance (s : State) (t : Nat) (i : Nat) : (s.advance t).readByte i = s.readByte i := rfl
@[simp] theorem State.flashByte_advance (s : State) (t : Nat) (i : Nat) : (s.advance t).flashByte i = s.flashByte i := rfl
@[simp] theorem State.getReg_writeByte (s : State) (a : Nat) (b : Byte) (i : Nat) : (s.writeByte a b).getReg i = s.getReg i := rfl
@[simp] theorem State.getF_writeByte (s : State) (a : Nat) (b : Byte) (g : Field) : (s.writeByte a b).getF g = s.getF g := rfl
@[simp] theorem State.isSet_writeByte (s : State) (a : Nat) (b : Byte) (g : Field) : (s.writeByte a b).isSet g = s.isSet g := rfl
@[simp] theorem State.flashByte_writeByte (s : State) (a : Nat) (b : Byte) (i : Nat) : (s.writeByte a b).flashByte i = s.flashByte i := rfl
@[simp] theorem State.getReg_flashPut (s : State) (a : Nat) (b : Byte) (i : Nat) : (s.flashPut a b).getReg i = s.getReg i := rfl
@[simp] theorem State.getF_flashPut (s : State) (a : Nat) (b : Byte) (g : Field) : (s.flashPut a b).getF g = s.getF g := rfl
@[simp] theorem State.isSet_flashPut (s : State) (a : Nat) (b : Byte) (g : Field) : (s.flashPut a b).isSet g = s.isSet g := rfl
@[simp] theorem State.readByte_flashPut (s : State) (a : Nat) (b : Byte) (i : Nat) : (s.flashPut a b).readByte i = s.readByte i := rfl
@[simp] theorem State.getReg_dropMem (s : State) (lo hi : Nat) (i : Nat) : (s.dropMem lo hi).getReg i = s.getReg i := rfl
@[simp] theorem State.getF_dropMem (s : State) (lo hi : Nat) (g : Field) : (s.dropMem lo hi).getF g = s.getF g := rfl
@[simp] theorem State.isSet_dropMem (s : State) (lo hi : Nat) (g : Field) : (s.dropMem lo hi).isSet g = s.isSet g := rfl
@[simp] theorem State.flashByte_dropMem (s : State) (lo hi : Nat) (i : Nat) : (s.dropMem lo hi).flashByte i = s.flashByte i := rfl

section raise
variable (s : State) (e : Field)

@[simp] theorem State.raise_mem : (s.raise e).mem = s.mem := by
  simp only [State.raise]; split <;> (try split) <;> rfl
@[simp] theorem State.raise_flash : (s.raise e).flash = s.flash := by
  simp only [State.raise]; split <;> (try split) <;> rfl
@[simp] theorem State.raise_pending : (s.raise e).pending = s.pending := by
  simp only [State.raise]; split <;> (try split) <;> rfl
@[simp] theorem State.raise_out : (s.raise e).out = s.out := by
  simp only [State.raise]; split <;> (try split) <;> rfl
@[simp] theorem State.raise_resp : (s.raise e).resp = s.resp := by
  simp only [State.raise]; split <;> (try split) <;> rfl
@[simp] theorem State.raise_mtb : (s.raise e).mtb = s.mtb := by
  simp only [State.raise]; split <;> (try split) <;> rfl
@[simp] theorem State.raise_freeIx : (s.raise e).freeIx = s.freeIx := by
  simp only [State.raise]; split <;> (try split) <;> rfl
@[simp] theorem State.raise_pr : (s.raise e).pr = s.pr := by
  simp only [State.raise]; split <;> (try split) <;> rfl
@[simp] theorem State.raise_clk : (s.raise e).clk = s.clk := by
  simp only [State.raise]; split <;> (try split) <;> rfl
@[simp] theorem State.raise_su : (s.raise e).su = s.su := by
  simp only [State.raise]; split <;> (try split) <;> rfl
@[simp] theorem State.raise_queues : (s.raise e).queues = s.queues := by
  simp only [State.raise]; split <;> (try split) <;> rfl
@[simp] theorem State.raise_ms : (s.raise e).ms = s.ms := by
  simp only [State.raise]; split <;> (try split) <;> rfl
@[simp] theorem State.raise_pl : (s.raise e).pl = s.pl := by
  simp only [State.raise]; split <;> (try split) <;> rfl
@[simp] theorem State.raise_gd : (s.raise e).gd = s.gd := by
  simp only [State.raise]; split <;> (try split) <;> rfl
@[simp] theorem State.raise_tm : (s.raise e).tm = s.tm := by
  simp only [State.raise]; split <;> (try split) <;> rfl
@[simp] theorem State.raise_ky : (s.raise e).ky = s.ky := by
  simp only [State.raise]; split <;> (try split) <;> rfl
@[simp] theorem State.raise_ro : (s.raise e).ro = s.ro := by
  simp only [State.raise]; split <;> (try split) <;> rfl
@[simp] theorem State.raise_cmp : (s.raise e).cmp = s.cmp := by
  simp only [State.raise]; split <;> (try split) <;> rfl
@[simp] theorem State.raise_rd : (s.raise e).rd = s.rd := by
  simp only [State.raise]; split <;> (try split) <;> rfl
@[simp] theorem State.raise_mac : (s.raise e).mac = s.mac := by
  simp only [State.raise]; split <;> (try split) <;> rfl
@[simp] theorem State.raise_sl : (s.raise e).sl = s.sl := by
  simp only [State.raise]; split <;> (try split) <;> rfl
@[simp] theorem State.raise_pa : (s.raise e).pa = s.pa := by
  simp only [State.raise]; split <;> (try split) <;> rfl
@[simp] theorem State.raise_ry : (s.raise e).ry = s.ry := by
  simp only [State.raise]; split <;> (try split) <;> rfl
@[simp] theorem State.raise_upl0 : (s.raise e).upl0 = s.upl0 := by
  simp only [State.raise]; split <;> (try split) <;> rfl
@[simp] theorem State.raise_upl1 : (s.raise e).upl1 = s.upl1 := by
  simp only [State.raise]; split <;> (try split) <;> rfl
@[simp] theorem State.raise_tie : (s.raise e).tie = s.tie := by
  simp only [State.raise]; split <;> (try split) <;> rfl
@[simp] theorem State.raise_svc : (s.raise e).svc = s.svc := by
  simp only [State.raise]; split <;> (try split) <;> rfl
@[simp] theorem State.raise_up : (s.raise e).up = s.up := by
  simp only [State.raise]; split <;> (try split) <;> rfl

end raise

section raiseIf
variable (s : State) (c : Bool) (e : Field)

@[simp] theorem State.raiseIf_mem : (s.raiseIf c e).mem = s.mem := by
  cases c <;> simp [State.raiseIf]
@[simp] theorem State.raiseIf_flash : (s.raiseIf c e).flash = s.flash := by
  cases c <;> simp [State.raiseIf]
@[simp] theorem State.raiseIf_pending : (s.raiseIf c e).pending = s.pending := by
  cases c <;> simp [State.raiseIf]
@[simp] theorem State.raiseIf_out : (s.raiseIf c e).out = s.out := by
  cases c <;> simp [State.raiseIf]
@[simp] theorem State.raiseIf_resp : (s.raiseIf c e).resp = s.resp := by
  cases c <;> simp [State.raiseIf]
@[simp] theorem State.raiseIf_mtb : (s.raiseIf c e).mtb = s.mtb := by
  cases c <;> simp [State.raiseIf]
@[simp] theorem State.raiseIf_freeIx : (s.raiseIf c e).freeIx = s.freeIx := by
  cases c <;> simp [State.raiseIf]
@[simp] theorem State.raiseIf_pr : (s.raiseIf c e).pr = s.pr := by
  cases c <;> simp [State.raiseIf]
@[simp] theorem State.raiseIf_clk : (s.raiseIf c e).clk = s.clk := by
  cases c <;> simp [State.raiseIf]
@[simp] theorem State.raiseIf_su : (s.raiseIf c e).su = s.su := by
  cases c <;> simp [State.raiseIf]
@[simp] theorem State.raiseIf_queues : (s.raiseIf c e).queues = s.queues := by
  cases c <;> simp [State.raiseIf]
@[simp] theorem State.raiseIf_ms : (s.raiseIf c e).ms = s.ms := by
  cases c <;> simp [State.raiseIf]
@[simp] theorem State.raiseIf_pl : (s.raiseIf c e).pl = s.pl := by
  cases c <;> simp [State.raiseIf]
@[simp] theorem State.raiseIf_gd : (s.raiseIf c e).gd = s.gd := by
  cases c <;> simp [State.raiseIf]
@[simp] theorem State.raiseIf_tm : (s.raiseIf c e).tm = s.tm := by
  cases c <;> simp [State.raiseIf]
@[simp] theorem State.raiseIf_ky : (s.raiseIf c e).ky = s.ky := by
  cases c <;> simp [State.raiseIf]
@[simp] theorem State.raiseIf_ro : (s.raiseIf c e).ro = s.ro := by
  cases c <;> simp [State.raiseIf]
@[simp] theorem State.raiseIf_cmp : (s.raiseIf c e).cmp = s.cmp := by
  cases c <;> simp [State.raiseIf]
@[simp] theorem State.raiseIf_rd : (s.raiseIf c e).rd = s.rd := by
  cases c <;> simp [State.raiseIf]
@[simp] theorem State.raiseIf_mac : (s.raiseIf c e).mac = s.mac := by
  cases c <;> simp [State.raiseIf]
@[simp] theorem State.raiseIf_sl : (s.raiseIf c e).sl = s.sl := by
  cases c <;> simp [State.raiseIf]
@[simp] theorem State.raiseIf_pa : (s.raiseIf c e).pa = s.pa := by
  cases c <;> simp [State.raiseIf]
@[simp] theorem State.raiseIf_ry : (s.raiseIf c e).ry = s.ry := by
  cases c <;> simp [State.raiseIf]
@[simp] theorem State.raiseIf_upl0 : (s.raiseIf c e).upl0 = s.upl0 := by
  cases c <;> simp [State.raiseIf]
@[simp] theorem State.raiseIf_upl1 : (s.raiseIf c e).upl1 = s.upl1 := by
  cases c <;> simp [State.raiseIf]
@[simp] theorem State.raiseIf_tie : (s.raiseIf c e).tie = s.tie := by
  cases c <;> simp [State.raiseIf]
@[simp] theorem State.raiseIf_svc : (s.raiseIf c e).svc = s.svc := by
  cases c <;> simp [State.raiseIf]
@[simp] theorem State.raiseIf_up : (s.raiseIf c e).up = s.up := by
  cases c <;> simp [State.raiseIf]

end raiseIf

/-- Raising an event bit writes that bit alone. -/
theorem State.raise_regs (s : State) (e : Field) :
    (s.raise e).regs = if s.getF e = 0 then (s.setF e 1).regs else s.regs := by
  simp only [State.raise]
  split
  · split <;> rfl
  · rfl

theorem Registers.wf_raise (s : State) (e : Field) (h : Registers.wf s.regs = true) : Registers.wf (s.raise e).regs = true := by
  rw [State.raise_regs]
  split
  · exact Registers.wf_setF s e 1 h
  · exact h

/-- A one-bit event bit reads 1 once raised. -/
theorem State.getF_raise_same (s : State) (e : Field) (he : e.ok = true) (hw : e.width = 1) :
    (s.raise e).getF e = 1 := by
  have hr := State.raise_regs s e
  unfold State.getF State.getReg
  rw [hr]
  split
  · have := State.getF_setF_same s e 1 he
    rw [hw] at this
    exact this
  · next hn =>
    have := Field.get_lt e (s.getReg e.addr)
    rw [hw] at this
    have hn' : e.get (s.getReg e.addr) ≠ 0 := hn
    change e.get (s.getReg e.addr) = 1
    omega

/-- Another field keeps its value when an event bit is raised. -/
theorem State.getF_raise_ne (s : State) (e g : Field) (he : e.lo + e.width ≤ 32)
    (hg : g.ok = true) (ha : e.apart g = true) : (s.raise e).getF g = s.getF g := by
  unfold State.getF State.getReg
  rw [State.raise_regs]
  split
  · exact State.getF_setF_ne s e g 1 he hg ha
  · rfl

section writeBytes
variable (s : State) (a : Nat) (l : List Byte)

@[simp] theorem State.writeBytes_regs : (s.writeBytes a l).regs = s.regs := by
  induction l generalizing s a with
  | nil => rfl
  | cons b l ih => exact ih _ _
@[simp] theorem State.writeBytes_flash : (s.writeBytes a l).flash = s.flash := by
  induction l generalizing s a with
  | nil => rfl
  | cons b l ih => exact ih _ _
@[simp] theorem State.writeBytes_pending : (s.writeBytes a l).pending = s.pending := by
  induction l generalizing s a with
  | nil => rfl
  | cons b l ih => exact ih _ _
@[simp] theorem State.writeBytes_out : (s.writeBytes a l).out = s.out := by
  induction l generalizing s a with
  | nil => rfl
  | cons b l ih => exact ih _ _
@[simp] theorem State.writeBytes_resp : (s.writeBytes a l).resp = s.resp := by
  induction l generalizing s a with
  | nil => rfl
  | cons b l ih => exact ih _ _
@[simp] theorem State.writeBytes_notes : (s.writeBytes a l).notes = s.notes := by
  induction l generalizing s a with
  | nil => rfl
  | cons b l ih => exact ih _ _
@[simp] theorem State.writeBytes_mtb : (s.writeBytes a l).mtb = s.mtb := by
  induction l generalizing s a with
  | nil => rfl
  | cons b l ih => exact ih _ _
@[simp] theorem State.writeBytes_freeIx : (s.writeBytes a l).freeIx = s.freeIx := by
  induction l generalizing s a with
  | nil => rfl
  | cons b l ih => exact ih _ _
@[simp] theorem State.writeBytes_pr : (s.writeBytes a l).pr = s.pr := by
  induction l generalizing s a with
  | nil => rfl
  | cons b l ih => exact ih _ _
@[simp] theorem State.writeBytes_clk : (s.writeBytes a l).clk = s.clk := by
  induction l generalizing s a with
  | nil => rfl
  | cons b l ih => exact ih _ _
@[simp] theorem State.writeBytes_su : (s.writeBytes a l).su = s.su := by
  induction l generalizing s a with
  | nil => rfl
  | cons b l ih => exact ih _ _
@[simp] theorem State.writeBytes_queues : (s.writeBytes a l).queues = s.queues := by
  induction l generalizing s a with
  | nil => rfl
  | cons b l ih => exact ih _ _
@[simp] theorem State.writeBytes_ms : (s.writeBytes a l).ms = s.ms := by
  induction l generalizing s a with
  | nil => rfl
  | cons b l ih => exact ih _ _
@[simp] theorem State.writeBytes_pl : (s.writeBytes a l).pl = s.pl := by
  induction l generalizing s a with
  | nil => rfl
  | cons b l ih => exact ih _ _
@[simp] theorem State.writeBytes_gd : (s.writeBytes a l).gd = s.gd := by
  induction l generalizing s a with
  | nil => rfl
  | cons b l ih => exact ih _ _
@[simp] theorem State.writeBytes_tm : (s.writeBytes a l).tm = s.tm := by
  induction l generalizing s a with
  | nil => rfl
  | cons b l ih => exact ih _ _
@[simp] theorem State.writeBytes_ky : (s.writeBytes a l).ky = s.ky := by
  induction l generalizing s a with
  | nil => rfl
  | cons b l ih => exact ih _ _
@[simp] theorem State.writeBytes_ro : (s.writeBytes a l).ro = s.ro := by
  induction l generalizing s a with
  | nil => rfl
  | cons b l ih => exact ih _ _
@[simp] theorem State.writeBytes_cmp : (s.writeBytes a l).cmp = s.cmp := by
  induction l generalizing s a with
  | nil => rfl
  | cons b l ih => exact ih _ _
@[simp] theorem State.writeBytes_rd : (s.writeBytes a l).rd = s.rd := by
  induction l generalizing s a with
  | nil => rfl
  | cons b l ih => exact ih _ _
@[simp] theorem State.writeBytes_mac : (s.writeBytes a l).mac = s.mac := by
  induction l generalizing s a with
  | nil => rfl
  | cons b l ih => exact ih _ _
@[simp] theorem State.writeBytes_sl : (s.writeBytes a l).sl = s.sl := by
  induction l generalizing s a with
  | nil => rfl
  | cons b l ih => exact ih _ _
@[simp] theorem State.writeBytes_pa : (s.writeBytes a l).pa = s.pa := by
  induction l generalizing s a with
  | nil => rfl
  | cons b l ih => exact ih _ _
@[simp] theorem State.writeBytes_ry : (s.writeBytes a l).ry = s.ry := by
  induction l generalizing s a with
  | nil => rfl
  | cons b l ih => exact ih _ _
@[simp] theorem State.writeBytes_upl0 : (s.writeBytes a l).upl0 = s.upl0 := by
  induction l generalizing s a with
  | nil => rfl
  | cons b l ih => exact ih _ _
@[simp] theorem State.writeBytes_upl1 : (s.writeBytes a l).upl1 = s.upl1 := by
  induction l generalizing s a with
  | nil => rfl
  | cons b l ih => exact ih _ _
@[simp] theorem State.writeBytes_tie : (s.writeBytes a l).tie = s.tie := by
  induction l generalizing s a with
  | nil => rfl
  | cons b l ih => exact ih _ _
@[simp] theorem State.writeBytes_svc : (s.writeBytes a l).svc = s.svc := by
  induction l generalizing s a with
  | nil => rfl
  | cons b l ih => exact ih _ _
@[simp] theorem State.writeBytes_up : (s.writeBytes a l).up = s.up := by
  induction l generalizing s a with
  | nil => rfl
  | cons b l ih => exact ih _ _

end writeBytes

section flashWrite
variable (s : State) (a : Nat) (l : List Byte)

@[simp] theorem State.flashWrite_regs : (s.flashWrite a l).regs = s.regs := by
  induction l generalizing s a with
  | nil => rfl
  | cons b l ih => exact ih _ _
@[simp] theorem State.flashWrite_mem : (s.flashWrite a l).mem = s.mem := by
  induction l generalizing s a with
  | nil => rfl
  | cons b l ih => exact ih _ _
@[simp] theorem State.flashWrite_pending : (s.flashWrite a l).pending = s.pending := by
  induction l generalizing s a with
  | nil => rfl
  | cons b l ih => exact ih _ _
@[simp] theorem State.flashWrite_out : (s.flashWrite a l).out = s.out := by
  induction l generalizing s a with
  | nil => rfl
  | cons b l ih => exact ih _ _
@[simp] theorem State.flashWrite_resp : (s.flashWrite a l).resp = s.resp := by
  induction l generalizing s a with
  | nil => rfl
  | cons b l ih => exact ih _ _
@[simp] theorem State.flashWrite_notes : (s.flashWrite a l).notes = s.notes := by
  induction l generalizing s a with
  | nil => rfl
  | cons b l ih => exact ih _ _
@[simp] theorem State.flashWrite_mtb : (s.flashWrite a l).mtb = s.mtb := by
  induction l generalizing s a with
  | nil => rfl
  | cons b l ih => exact ih _ _
@[simp] theorem State.flashWrite_freeIx : (s.flashWrite a l).freeIx = s.freeIx := by
  induction l generalizing s a with
  | nil => rfl
  | cons b l ih => exact ih _ _
@[simp] theorem State.flashWrite_pr : (s.flashWrite a l).pr = s.pr := by
  induction l generalizing s a with
  | nil => rfl
  | cons b l ih => exact ih _ _
@[simp] theorem State.flashWrite_clk : (s.flashWrite a l).clk = s.clk := by
  induction l generalizing s a with
  | nil => rfl
  | cons b l ih => exact ih _ _
@[simp] theorem State.flashWrite_su : (s.flashWrite a l).su = s.su := by
  induction l generalizing s a with
  | nil => rfl
  | cons b l ih => exact ih _ _
@[simp] theorem State.flashWrite_queues : (s.flashWrite a l).queues = s.queues := by
  induction l generalizing s a with
  | nil => rfl
  | cons b l ih => exact ih _ _
@[simp] theorem State.flashWrite_ms : (s.flashWrite a l).ms = s.ms := by
  induction l generalizing s a with
  | nil => rfl
  | cons b l ih => exact ih _ _
@[simp] theorem State.flashWrite_pl : (s.flashWrite a l).pl = s.pl := by
  induction l generalizing s a with
  | nil => rfl
  | cons b l ih => exact ih _ _
@[simp] theorem State.flashWrite_gd : (s.flashWrite a l).gd = s.gd := by
  induction l generalizing s a with
  | nil => rfl
  | cons b l ih => exact ih _ _
@[simp] theorem State.flashWrite_tm : (s.flashWrite a l).tm = s.tm := by
  induction l generalizing s a with
  | nil => rfl
  | cons b l ih => exact ih _ _
@[simp] theorem State.flashWrite_ky : (s.flashWrite a l).ky = s.ky := by
  induction l generalizing s a with
  | nil => rfl
  | cons b l ih => exact ih _ _
@[simp] theorem State.flashWrite_ro : (s.flashWrite a l).ro = s.ro := by
  induction l generalizing s a with
  | nil => rfl
  | cons b l ih => exact ih _ _
@[simp] theorem State.flashWrite_cmp : (s.flashWrite a l).cmp = s.cmp := by
  induction l generalizing s a with
  | nil => rfl
  | cons b l ih => exact ih _ _
@[simp] theorem State.flashWrite_rd : (s.flashWrite a l).rd = s.rd := by
  induction l generalizing s a with
  | nil => rfl
  | cons b l ih => exact ih _ _
@[simp] theorem State.flashWrite_mac : (s.flashWrite a l).mac = s.mac := by
  induction l generalizing s a with
  | nil => rfl
  | cons b l ih => exact ih _ _
@[simp] theorem State.flashWrite_sl : (s.flashWrite a l).sl = s.sl := by
  induction l generalizing s a with
  | nil => rfl
  | cons b l ih => exact ih _ _
@[simp] theorem State.flashWrite_pa : (s.flashWrite a l).pa = s.pa := by
  induction l generalizing s a with
  | nil => rfl
  | cons b l ih => exact ih _ _
@[simp] theorem State.flashWrite_ry : (s.flashWrite a l).ry = s.ry := by
  induction l generalizing s a with
  | nil => rfl
  | cons b l ih => exact ih _ _
@[simp] theorem State.flashWrite_upl0 : (s.flashWrite a l).upl0 = s.upl0 := by
  induction l generalizing s a with
  | nil => rfl
  | cons b l ih => exact ih _ _
@[simp] theorem State.flashWrite_upl1 : (s.flashWrite a l).upl1 = s.upl1 := by
  induction l generalizing s a with
  | nil => rfl
  | cons b l ih => exact ih _ _
@[simp] theorem State.flashWrite_tie : (s.flashWrite a l).tie = s.tie := by
  induction l generalizing s a with
  | nil => rfl
  | cons b l ih => exact ih _ _
@[simp] theorem State.flashWrite_svc : (s.flashWrite a l).svc = s.svc := by
  induction l generalizing s a with
  | nil => rfl
  | cons b l ih => exact ih _ _
@[simp] theorem State.flashWrite_up : (s.flashWrite a l).up = s.up := by
  induction l generalizing s a with
  | nil => rfl
  | cons b l ih => exact ih _ _

end flashWrite

end Sys2Proof.Machine
end

