-- ==== Sys2Proof/Laws/WithinBase.lean ====
section
/-!
SUPPORT. What an operation can do, said once: `State.Within` for the operations that all others are made of, and the lemmas by
which it goes through conditions, pairs, options and updates of the state.
-/
namespace Sys2Proof.Machine
open Sys2Proof
set_option linter.all false
set_option Elab.async false

/-- A number for each part. -/
def Part.code : Part → Nat
  | .regs => 0
  | .mem => 1
  | .flash => 2
  | .out => 3
  | .resp => 4
  | .notes => 5
  | .mtb => 6
  | .freeIx => 7
  | .pr => 8
  | .clk => 9
  | .su => 10
  | .queues => 11
  | .ms => 12
  | .pl => 13
  | .gd => 14
  | .tm => 15
  | .ky => 16
  | .ro => 17
  | .cmp => 18
  | .rd => 19
  | .mac => 20
  | .sl => 21
  | .pa => 22
  | .ry => 23
  | .upl0 => 24
  | .upl1 => 25
  | .tie => 26
  | .svc => 27
  | .up => 28
  | .block b => 29 + b

theorem Part.code_inj (p q : Part) (h : p.code = q.code) : p = q := by
  cases p <;> cases q <;> simp only [Part.code, Part.block.injEq] at h ⊢ <;> omega

/-- A list of parts as the bits of a number. -/
def Part.mask (l : List Part) : Nat := l.foldr (fun p n => n ||| 1 <<< p.code) 0

theorem Part.testBit_mask (l : List Part) (p : Part) : (Part.mask l).testBit p.code = true ↔ p ∈ l := by
  induction l with
  | nil => simp [Part.mask]
  | cons q l ih =>
    rw [List.mem_cons, ← ih, Part.mask, List.foldr_cons, Nat.testBit_or, Bool.or_eq_true, Nat.one_shiftLeft,
      Nat.testBit_two_pow, decide_eq_true_eq, Or.comm]
    exact or_congr ⟨fun e => Part.code_inj _ _ e.symm, fun e => by rw [e]⟩ Iff.rfl

/-- A list within a list, by their numbers. -/
theorem part_trans {l m T : List Part} (h : Part.mask l &&& Part.mask m = Part.mask l) (hm : m ⊆ T) : l ⊆ T := by
  intro p hp
  apply hm
  rw [← Part.testBit_mask] at hp ⊢
  rw [← h, Nat.testBit_and, Bool.and_eq_true] at hp
  exact hp.2

theorem State.Within.refl (T : List Part) (s : State) : State.Within T s s :=
  ⟨rfl, id, fun p _ => by cases p <;> first | trivial | rfl, fun _ _ _ _ => rfl⟩

/-- A longer list claims less. -/
theorem State.Within.mono {l m : List Part} {s t : State} (h : State.Within l s t) (hl : l ⊆ m) : State.Within m s t :=
  ⟨h.pending, h.inv, fun p hp => h.same p (fun e => hp (hl e)),
   fun hi hr a ha => h.regs hi (fun e => hr (hl e)) a (fun e => ha (hl e))⟩

/-- The same of the next state that an outcome holds. -/
structure WithinRes (T : List Part) (s0 : State) (r : Res) : Prop where
  of : ∀ t, r = .next t → State.Within T s0 t

/-- The same of a state that comes with a value behind it. -/
structure Within1 {α : Type} (T : List Part) (s0 : State) (p : State × α) : Prop where
  of : State.Within T s0 p.1

/-- The same of a state that comes with a value before it. -/
structure Within2 {α : Type} (T : List Part) (s0 : State) (p : α × State) : Prop where
  of : State.Within T s0 p.2

/-- The same of a state that comes with a value, if one comes at all. -/
structure WithinO {α : Type} (T : List Part) (s0 : State) (p : Option (α × State)) : Prop where
  of : ∀ x t, p = some (x, t) → State.Within T s0 t

/-- The same of a state, if one comes at all. -/
structure WithinOS (T : List Part) (s0 : State) (p : Option State) : Prop where
  of : ∀ t, p = some t → State.Within T s0 t

section
variable {T : List Part} {s0 s : State} {α : Type} {x : α}

theorem withinRes_next (h : State.Within T s0 s) : WithinRes T s0 (.next s) := ⟨by intro t e; cases e; exact h⟩

theorem within1_mk (h : State.Within T s0 s) : Within1 T s0 (s, x) := ⟨h⟩

theorem within2_mk (h : State.Within T s0 s) : Within2 T s0 (x, s) := ⟨h⟩

theorem withinO_some (h : State.Within T s0 s) : WithinO T s0 (some (x, s)) := ⟨by intro y t e; cases e; exact h⟩

theorem withinO_none : WithinO (α := α) T s0 none := ⟨by intro y t e; cases e⟩

theorem withinOS_some (h : State.Within T s0 s) : WithinOS T s0 (some s) := ⟨by intro t e; cases e; exact h⟩

theorem withinOS_none : WithinOS T s0 none := ⟨by intro t e; cases e⟩

theorem within1_elim {p : State × α} (e : p = (s, x)) (h : Within1 T s0 p) : State.Within T s0 s := by
  subst e; exact h.of

theorem within2_elim {p : α × State} (e : p = (x, s)) (h : Within2 T s0 p) : State.Within T s0 s := by
  subst e; exact h.of

theorem withinO_elim {p : Option (α × State)} (e : p = some (x, s)) (h : WithinO T s0 p) : State.Within T s0 s := h.of x s e

theorem withinOS_elim {p : Option State} (e : p = some s) (h : WithinOS T s0 p) : State.Within T s0 s := h.of s e

theorem within1_fst {p : State × α} (h : Within1 T s0 p) : State.Within T s0 p.1 := h.of

theorem within2_snd {p : α × State} (h : Within2 T s0 p) : State.Within T s0 p.2 := h.of

variable {c : Prop} [Decidable c]

theorem within_ite {a b : State} (ha : c → State.Within T s0 a) (hb : ¬ c → State.Within T s0 b) :
    State.Within T s0 (if c then a else b) := by
  split
  · exact ha ‹_›
  · exact hb ‹_›

theorem withinRes_ite {a b : Res} (ha : c → WithinRes T s0 a) (hb : ¬ c → WithinRes T s0 b) :
    WithinRes T s0 (if c then a else b) := by
  split
  · exact ha ‹_›
  · exact hb ‹_›

theorem within1_ite {a b : State × α} (ha : c → Within1 T s0 a) (hb : ¬ c → Within1 T s0 b) :
    Within1 T s0 (if c then a else b) := by
  split
  · exact ha ‹_›
  · exact hb ‹_›

theorem within2_ite {a b : α × State} (ha : c → Within2 T s0 a) (hb : ¬ c → Within2 T s0 b) :
    Within2 T s0 (if c then a else b) := by
  split
  · exact ha ‹_›
  · exact hb ‹_›

theorem withinO_ite {a b : Option (α × State)} (ha : c → WithinO T s0 a) (hb : ¬ c → WithinO T s0 b) :
    WithinO T s0 (if c then a else b) := by
  split
  · exact ha ‹_›
  · exact hb ‹_›

theorem withinOS_ite {a b : Option State} (ha : c → WithinOS T s0 a) (hb : ¬ c → WithinOS T s0 b) :
    WithinOS T s0 (if c then a else b) := by
  split
  · exact ha ‹_›
  · exact hb ‹_›

end

/-- An update beside registers, memory, flash and the queue: each field is the same or in the list. -/
theorem within_upd {T : List Part} {s0 s : State} (h : State.Within T s0 s) (out : List Msg) (resp : Nat)
    (notes : List (Nat × Nat × Nat)) (mtb : Nat) (freeIx : Nat) (pr : Pricking) (clk : Clk) (su : StartUp) (queues : Store Queue)
    (ms : MemSys) (pl : Pillow) (gd : Ground) (tm : TimeUnit) (ky : Keys) (ro : Roles) (cmp : Cmp) (rd : Radio) (mac : Mac)
    (sl : Sleep) (pa : PairUnit) (ry : Ryurix) (upl0 : UplPort) (upl1 : UplPort) (tie : TieLink) (svc : SvcPort) (up : UpdateUnit)
    (h1 : out = s.out ∨ .out ∈ T) (h2 : resp = s.resp ∨ .resp ∈ T) (h3 : notes = s.notes ∨ .notes ∈ T)
    (h4 : mtb = s.mtb ∨ .mtb ∈ T) (h5 : freeIx = s.freeIx ∨ .freeIx ∈ T) (h6 : pr = s.pr ∨ .pr ∈ T) (h7 : clk = s.clk ∨ .clk ∈ T)
    (h8 : su = s.su ∨ .su ∈ T) (h9 : queues = s.queues ∨ .queues ∈ T) (h10 : ms = s.ms ∨ .ms ∈ T) (h11 : pl = s.pl ∨ .pl ∈ T)
    (h12 : gd = s.gd ∨ .gd ∈ T) (h13 : tm = s.tm ∨ .tm ∈ T) (h14 : ky = s.ky ∨ .ky ∈ T) (h15 : ro = s.ro ∨ .ro ∈ T)
    (h16 : cmp = s.cmp ∨ .cmp ∈ T) (h17 : rd = s.rd ∨ .rd ∈ T) (h18 : mac = s.mac ∨ .mac ∈ T) (h19 : sl = s.sl ∨ .sl ∈ T)
    (h20 : pa = s.pa ∨ .pa ∈ T) (h21 : ry = s.ry ∨ .ry ∈ T) (h22 : upl0 = s.upl0 ∨ .upl0 ∈ T) (h23 : upl1 = s.upl1 ∨ .upl1 ∈ T)
    (h24 : tie = s.tie ∨ .tie ∈ T) (h25 : svc = s.svc ∨ .svc ∈ T) (h26 : up = s.up ∨ .up ∈ T) :
    State.Within T s0 ⟨s.regs, s.mem, s.flash, s.pending, out, resp, notes, mtb, freeIx, pr, clk, su, queues, ms, pl, gd, tm, ky, ro,
      cmp, rd, mac, sl, pa, ry, upl0, upl1, tie, svc, up⟩ := by
  refine ⟨h.pending, h.inv, fun p hp => ?_, h.regs⟩
  have hs := h.same p hp
  cases p
  case regs => trivial
  case block => trivial
  case mem => exact hs
  case flash => exact hs
  case out => exact (h1.resolve_right hp).trans hs
  case resp => exact (h2.resolve_right hp).trans hs
  case notes => exact (h3.resolve_right hp).trans hs
  case mtb => exact (h4.resolve_right hp).trans hs
  case freeIx => exact (h5.resolve_right hp).trans hs
  case pr => exact (h6.resolve_right hp).trans hs
  case clk => exact (h7.resolve_right hp).trans hs
  case su => exact (h8.resolve_right hp).trans hs
  case queues => exact (h9.resolve_right hp).trans hs
  case ms => exact (h10.resolve_right hp).trans hs
  case pl => exact (h11.resolve_right hp).trans hs
  case gd => exact (h12.resolve_right hp).trans hs
  case tm => exact (h13.resolve_right hp).trans hs
  case ky => exact (h14.resolve_right hp).trans hs
  case ro => exact (h15.resolve_right hp).trans hs
  case cmp => exact (h16.resolve_right hp).trans hs
  case rd => exact (h17.resolve_right hp).trans hs
  case mac => exact (h18.resolve_right hp).trans hs
  case sl => exact (h19.resolve_right hp).trans hs
  case pa => exact (h20.resolve_right hp).trans hs
  case ry => exact (h21.resolve_right hp).trans hs
  case upl0 => exact (h22.resolve_right hp).trans hs
  case upl1 => exact (h23.resolve_right hp).trans hs
  case tie => exact (h24.resolve_right hp).trans hs
  case svc => exact (h25.resolve_right hp).trans hs
  case up => exact (h26.resolve_right hp).trans hs

/-- An update of the registers, the memory or the flash that keeps their forms, with every other field as it was. -/
theorem within_data {T : List Part} {s0 s t : State} (h : State.Within T s0 s) (e : t = { s with regs := t.regs, mem := t.mem, flash := t.flash })
    (hi : s.Inv → t.Inv) (hm : t.mem = s.mem ∨ .mem ∈ T) (hf : t.flash = s.flash ∨ .flash ∈ T)
    (hr : s.Inv → .regs ∉ T → ∀ a, .block (regBlock a) ∉ T → t.getReg a = s.getReg a) : State.Within T s0 t := by
  refine ⟨(by rw [e]; exact h.pending), fun i => hi (h.inv i), fun p hp => ?_, fun i hn a ha => (hr (h.inv i) hn a ha).trans (h.regs i hn a ha)⟩
  have hs := h.same p hp
  cases p
  case mem => exact (hm.resolve_right hp).trans hs
  case flash => exact (hf.resolve_right hp).trans hs
  all_goals first | trivial | (rw [e]; exact hs)

/-- Taking registers out keeps their form. -/
theorem Registers.wf_filter {r : Store Word} (h : Registers.wf r = true) (p : Nat × Word → Bool) :
    Registers.wf (r.filter p) = true := by
  simp only [Registers.wf, Bool.and_eq_true, List.all_eq_true] at h ⊢
  exact ⟨Store.wf_filter _ _ _ h.1, fun x hx => h.2 x (List.mem_filter.mp hx).1⟩

section
variable {T : List Part} {s0 s : State} (h : State.Within T s0 s)
include h

/-- A register write stays within the register's block and drops the reserved bits. -/
theorem State.setReg_within (a : Nat) (hT : .regs ∈ T ∨ .block (regBlock a) ∈ T) (w : Word) : State.Within T s0 (s.setReg a w) :=
  within_data h rfl (fun i => ⟨Registers.wf_setReg s a w i.1, i.2⟩) (Or.inl rfl) (Or.inl rfl) (fun _ hn b hb =>
    State.getReg_setReg_ne s w (fun e => by subst e; exact hT.elim hn hb))

theorem State.setF_within (f : Field) (hT : .regs ∈ T ∨ .block (regBlock f.addr) ∈ T) (v : Nat) : State.Within T s0 (s.setF f v) :=
  State.setReg_within h _ hT _

theorem State.setB_within (f : Field) (hT : .regs ∈ T ∨ .block (regBlock f.addr) ∈ T) (b : Bool) : State.Within T s0 (s.setB f b) :=
  State.setF_within h f hT _

theorem State.addF_within (f : Field) (hT : .regs ∈ T ∨ .block (regBlock f.addr) ∈ T) (n : Nat) : State.Within T s0 (s.addF f n) :=
  State.setF_within h f hT _

theorem State.bump_within (f : Field) (hT : .regs ∈ T ∨ .block (regBlock f.addr) ∈ T) : State.Within T s0 (s.bump f) :=
  State.setF_within h f hT _

theorem State.emit_within (hT : [.out] ⊆ T) (m : Msg) : State.Within T s0 (s.emit m) := by
  apply within_upd h <;> first | exact Or.inl rfl | exact Or.inr (hT (by decide))

theorem State.answer_within (hT : [.resp] ⊆ T) (st : Nat) : State.Within T s0 (s.answer st) := by
  apply within_upd h <;> first | exact Or.inl rfl | exact Or.inr (hT (by decide))

theorem State.refuse_within (hT : [.resp] ⊆ T) (f : Field) (hF : .regs ∈ T ∨ .block (regBlock f.addr) ∈ T) (st : Nat) :
    State.Within T s0 (s.refuse f st) := State.answer_within (State.setF_within h f hF st) hT st

theorem State.useFree_within (hT : [.freeIx] ⊆ T) : State.Within T s0 s.useFree := by
  apply within_upd h <;> first | exact Or.inl rfl | exact Or.inr (hT (by decide))

theorem State.advance_within (hT : [.mtb] ⊆ T) (t : Nat) : State.Within T s0 (s.advance t) := by
  apply within_upd h <;> first | exact Or.inl rfl | exact Or.inr (hT (by decide))

theorem State.raise_within (hT : [.notes] ⊆ T) (e : Field) (hF : .regs ∈ T ∨ .block (regBlock e.addr) ∈ T) :
    State.Within T s0 (s.raise e) := by
  unfold State.raise
  apply within_ite
  · intro _
    dsimp only
    apply within_ite
    · intro _
      apply within_upd (State.setF_within h e hF 1) <;> first | exact Or.inl rfl | exact Or.inr (hT (by decide))
    · intro _
      exact State.setF_within h e hF 1
  · intro _
    exact h

theorem State.raiseIf_within (hT : [.notes] ⊆ T) (c : Bool) (e : Field) (hF : .regs ∈ T ∨ .block (regBlock e.addr) ∈ T) :
    State.Within T s0 (s.raiseIf c e) := by
  cases c
  · exact h
  · exact State.raise_within h hT e hF

theorem State.writeByte_within (hT : [.mem] ⊆ T) (a : Nat) (b : Byte) : State.Within T s0 (s.writeByte a b) :=
  within_data h rfl (fun i => ⟨i.1, Store.wf_set _ _ _ _ i.2.1, i.2.2⟩) (Or.inr (hT (by decide))) (Or.inl rfl) (fun _ _ _ _ => rfl)

theorem State.flashPut_within (hT : [.flash] ⊆ T) (a : Nat) (b : Byte) : State.Within T s0 (s.flashPut a b) :=
  within_data h rfl (fun i => ⟨i.1, i.2.1, Store.wf_set _ _ _ _ i.2.2⟩) (Or.inl rfl) (Or.inr (hT (by decide))) (fun _ _ _ _ => rfl)

theorem State.dropMem_within (hT : [.mem] ⊆ T) (a b : Nat) : State.Within T s0 (s.dropMem a b) :=
  within_data h rfl (fun i => ⟨i.1, Store.wf_filter _ _ _ i.2.1, i.2.2⟩) (Or.inr (hT (by decide))) (Or.inl rfl) (fun _ _ _ _ => rfl)

omit h in
theorem State.each_within {α : Type} (h : State.Within T s0 s) (l : List α) (f : State → α → State)
    (hf : ∀ s a, State.Within T s0 s → State.Within T s0 (f s a)) : State.Within T s0 (s.each l f) := by
  unfold State.each
  induction l generalizing s with
  | nil => exact h
  | cons a l ih => exact ih (hf s a h)

omit h in
theorem State.each_within_mem {α : Type} (h : State.Within T s0 s) (l : List α) (f : State → α → State)
    (hf : ∀ s, ∀ a ∈ l, State.Within T s0 s → State.Within T s0 (f s a)) : State.Within T s0 (s.each l f) := by
  unfold State.each
  induction l generalizing s with
  | nil => exact h
  | cons a l ih => exact ih (hf s a (by simp) h) (fun s b hb => hf s b (by simp [hb]))

omit h in
theorem State.writeBytes_within (h : State.Within T s0 s) (hT : [.mem] ⊆ T) (a : Nat) (l : List Byte) :
    State.Within T s0 (s.writeBytes a l) := by
  induction l generalizing s a with
  | nil => exact h
  | cons b l ih => exact ih (State.writeByte_within h hT a b) (a + 1)

omit h in
theorem State.flashWrite_within (h : State.Within T s0 s) (hT : [.flash] ⊆ T) (a : Nat) (l : List Byte) :
    State.Within T s0 (s.flashWrite a l) := by
  induction l generalizing s a with
  | nil => exact h
  | cons b l ih => exact ih (State.flashPut_within h hT a b) (a + 1)

end

end Sys2Proof.Machine
end

