-- ==== Sys2Proof/Laws/WithinTime.lean ====
section
/-!
SUPPORT. What the operations of the plainest updates and the network time can do: one lemma per operation, which names the
parts of the state that it may touch and says that it keeps the invariant and the queue. A proof about a step cites these and
unfolds none of the operations.
-/
namespace Sys2Proof.Machine
open Sys2Proof
set_option linter.all false
set_option Elab.async false

theorem State.writeNat_within {T : List Part} {s0 s : State} (h : State.Within T s0 s) (hT : [.mem] ⊆ T) (a : Nat) (n : Nat) (v : Nat) : State.Within T s0 (State.writeNat s a n v) := by
  unfold State.writeNat
  repeat' (first | with_reducible assumption | exact part_trans (by decide) hT | with_reducible apply State.writeBytes_within | exact Or.inl (hT (by decide)) | exact Or.inr (hT (by simp)))

theorem State.clearBits_within {T : List Part} {s0 s : State} (h : State.Within T s0 s) (a : Nat) (hF : .regs ∈ T ∨ .block (regBlock a) ∈ T) (w : Word) : State.Within T s0 (s.clearBits a w) :=
  State.setReg_within h a hF _

theorem State.writeEnable_within {T : List Part} {s0 s : State} (h : State.Within T s0 s) (hT : [.notes] ⊆ T) (event enable : Nat) (hF : .regs ∈ T ∨ .block (regBlock enable) ∈ T) (w : Word) :
    State.Within T s0 (s.writeEnable event enable w) := by
  unfold State.writeEnable
  apply within_upd (State.setReg_within h enable hF _) <;> first | exact Or.inl rfl | exact Or.inr (hT (by decide))

theorem State.setDev_within {T : List Part} {s0 s : State} (h : State.Within T s0 s) (hT : [.block 2] ⊆ T) (d : Nat) : State.Within T s0 (State.setDev s d) := by
  unfold State.setDev
  repeat' (first | with_reducible assumption | exact part_trans (by decide) hT | with_reducible apply State.setF_within | exact Or.inl (hT (by decide)) | exact Or.inr (hT (by simp)))

theorem State.gatedRefuse_within {T : List Part} {s0 s : State} (h : State.Within T s0 s) (hT : [.block 1, .resp] ⊆ T) (u : Nat) (own : Field) (hF_own : .regs ∈ T ∨ .block (regBlock own.addr) ∈ T) : State.Within T s0 (State.gatedRefuse s u own) := by
  unfold State.gatedRefuse
  repeat' (first | with_reducible assumption | exact part_trans (by decide) hT | intro _ | extract_lets | with_reducible apply within_ite | with_reducible apply State.refuse_within | with_reducible apply State.setF_within | fail_if_no_progress ((with_reducible apply within_upd) <;> first | with_reducible exact Or.inl rfl | exact Or.inr (hT (by decide)) | skip) | exact Or.inl (hT (by decide)) | exact Or.inr (hT (by simp)) | split | dsimp +zetaDelta only)

theorem State.tieSend_within {T : List Part} {s0 s : State} (h : State.Within T s0 s) (hT : [.out] ⊆ T) (octets : List Nat) : State.Within T s0 (State.tieSend s octets) := by
  unfold State.tieSend
  repeat' (first | with_reducible assumption | exact part_trans (by decide) hT | intro _ | extract_lets | with_reducible apply within_ite | with_reducible apply State.emit_within | fail_if_no_progress ((with_reducible apply within_upd) <;> first | with_reducible exact Or.inl rfl | exact Or.inr (hT (by decide)) | skip) | exact Or.inl (hT (by decide)) | exact Or.inr (hT (by simp)) | split | dsimp +zetaDelta only)

theorem State.gpioDrive_within {T : List Part} {s0 s : State} (h : State.Within T s0 s) (hT : [.out] ⊆ T) : State.Within T s0 (State.gpioDrive s) := by
  unfold State.gpioDrive
  repeat' (first | with_reducible assumption | exact part_trans (by decide) hT | intro _ | extract_lets | with_reducible apply within_ite | with_reducible apply State.each_within | with_reducible apply State.emit_within | fail_if_no_progress ((with_reducible apply within_upd) <;> first | with_reducible exact Or.inl rfl | exact Or.inr (hT (by decide)) | skip) | exact Or.inl (hT (by decide)) | exact Or.inr (hT (by simp)) | split | dsimp +zetaDelta only)

theorem State.holdOutputs_within {T : List Part} {s0 s : State} (h : State.Within T s0 s) (hT : [.out] ⊆ T) : State.Within T s0 (State.holdOutputs s) := by
  unfold State.holdOutputs
  repeat' (first | with_reducible assumption | exact part_trans (by decide) hT | intro _ | extract_lets | with_reducible apply within_ite | with_reducible apply State.each_within | with_reducible apply State.emit_within | fail_if_no_progress ((with_reducible apply within_upd) <;> first | with_reducible exact Or.inl rfl | exact Or.inr (hT (by decide)) | skip) | exact Or.inl (hT (by decide)) | exact Or.inr (hT (by simp)) | split | dsimp +zetaDelta only)

theorem State.releaseOutputs_within {T : List Part} {s0 s : State} (h : State.Within T s0 s) (hT : [.out, .su] ⊆ T) : State.Within T s0 (State.releaseOutputs s) := by
  unfold State.releaseOutputs
  repeat' (first | with_reducible assumption | exact part_trans (by decide) hT | intro _ | extract_lets | with_reducible apply within_ite | with_reducible apply State.each_within | with_reducible apply State.emit_within | with_reducible apply State.gpioDrive_within | fail_if_no_progress ((with_reducible apply within_upd) <;> first | with_reducible exact Or.inl rfl | exact Or.inr (hT (by decide)) | skip) | exact Or.inl (hT (by decide)) | exact Or.inr (hT (by simp)) | split | dsimp +zetaDelta only)

theorem State.startFail_within {T : List Part} {s0 s : State} (h : State.Within T s0 s) (hT : [.block 0, .block 2, .notes] ⊆ T) (st : Nat) (unit : Nat) (typ : Nat) (off : Nat) : State.Within T s0 (State.startFail s st unit typ off) := by
  unfold State.startFail
  repeat' (first | with_reducible assumption | exact part_trans (by decide) hT | with_reducible apply State.setF_within | with_reducible apply State.raise_within | exact Or.inl (hT (by decide)) | exact Or.inr (hT (by simp)))

theorem State.amrekOut_within {T : List Part} {s0 s : State} (h : State.Within T s0 s) (hT : [.out, .pa] ⊆ T) (typ : Nat) (p : List Nat) : State.Within T s0 (State.amrekOut s typ p) := by
  unfold State.amrekOut
  repeat' (first | with_reducible assumption | exact part_trans (by decide) hT | intro _ | extract_lets | with_reducible apply within_ite | with_reducible apply State.emit_within | fail_if_no_progress ((with_reducible apply within_upd) <;> first | with_reducible exact Or.inl rfl | exact Or.inr (hT (by decide)) | skip) | exact Or.inl (hT (by decide)) | exact Or.inr (hT (by simp)) | split | dsimp +zetaDelta only)

theorem State.setDev32_within {T : List Part} {s0 s : State} (h : State.Within T s0 s) (hT : [.tm] ⊆ T) (t : Nat) (d : Int) : State.Within T s0 (State.setDev32 s t d) := by
  unfold State.setDev32
  repeat' (first | with_reducible assumption | exact part_trans (by decide) hT | fail_if_no_progress ((with_reducible apply within_upd) <;> first | with_reducible exact Or.inl rfl | exact Or.inr (hT (by decide)) | skip) | exact Or.inl (hT (by decide)) | exact Or.inr (hT (by simp)))

theorem State.setRate_within {T : List Part} {s0 s : State} (h : State.Within T s0 s) (hT : [.block 6, .tm] ⊆ T) (r : Int) : State.Within T s0 (State.setRate s r) := by
  unfold State.setRate
  repeat' (first | with_reducible assumption | exact part_trans (by decide) hT | with_reducible apply State.setDev32_within | with_reducible apply State.setF_within | exact Or.inl (hT (by decide)) | exact Or.inr (hT (by simp)))

theorem State.setDomain_within {T : List Part} {s0 s : State} (h : State.Within T s0 s) (hT : [.tm] ⊆ T) (d : Nat) (v : Domain) : State.Within T s0 (State.setDomain s d v) := by
  unfold State.setDomain
  repeat' (first | with_reducible assumption | exact part_trans (by decide) hT | with_reducible intro _ | with_reducible apply within_ite | fail_if_no_progress ((with_reducible apply within_upd) <;> first | with_reducible exact Or.inl rfl | exact Or.inr (hT (by decide)) | skip) | exact Or.inl (hT (by decide)) | exact Or.inr (hT (by simp)))

theorem State.setDomState_within {T : List Part} {s0 s : State} (h : State.Within T s0 s) (hT : [.block 6] ⊆ T) (d : Nat) (st : Nat) : State.Within T s0 (State.setDomState s d st) := by
  unfold State.setDomState
  repeat' (first | with_reducible assumption | exact part_trans (by decide) hT | exact Or.inr (hT (by first | (simp; done) | (simp +zetaDelta; done) | (simp +zetaDelta; split <;> simp))) | with_reducible apply State.setF_within | exact Or.inl (hT (by decide)))

theorem State.putQ_within {T : List Part} {s0 s : State} (h : State.Within T s0 s) (hT : [.freeIx] ⊆ T) (f : Field) (hF : .regs ∈ T ∨ .block (regBlock f.addr) ∈ T) (q : Int) :
    State.Within T s0 (s.putQ f q) := by
  unfold State.putQ
  apply within_ite
  · intro _; exact State.setF_within h f hF _
  · intro _; exact State.useFree_within (State.setF_within h f hF _) hT

theorem State.setOffset_within {T : List Part} {s0 s : State} (h : State.Within T s0 s) (hT : [.block 6, .freeIx, .tm] ⊆ T) (d : Nat) (q : Int) : State.Within T s0 (State.setOffset s d q) := by
  unfold State.setOffset
  repeat' (first | with_reducible assumption | exact part_trans (by decide) hT | intro _ | extract_lets | with_reducible apply within_ite | with_reducible apply State.putQ_within | with_reducible apply State.setDomain_within | fail_if_no_progress ((with_reducible apply within_upd) <;> first | with_reducible exact Or.inl rfl | exact Or.inr (hT (by decide)) | skip) | exact Or.inl (hT (by decide)) | exact Or.inr (hT (by simp)) | split | dsimp +zetaDelta only)

theorem State.setPeerOff_within {T : List Part} {s0 s : State} (h : State.Within T s0 s) (hT : [.block 6, .freeIx, .tm] ⊆ T) (q : Int) : State.Within T s0 (State.setPeerOff s q) := by
  unfold State.setPeerOff
  repeat' (first | with_reducible assumption | exact part_trans (by decide) hT | intro _ | extract_lets | with_reducible apply within_ite | with_reducible apply State.putQ_within | fail_if_no_progress ((with_reducible apply within_upd) <;> first | with_reducible exact Or.inl rfl | exact Or.inr (hT (by decide)) | skip) | exact Or.inl (hT (by decide)) | exact Or.inr (hT (by simp)) | split | dsimp +zetaDelta only)

theorem State.setRef_within {T : List Part} {s0 s : State} (h : State.Within T s0 s) (hT : [.block 6, .notes, .tm] ⊆ T) (n : Nat) : State.Within T s0 (State.setRef s n) := by
  unfold State.setRef
  repeat' (first | with_reducible assumption | exact part_trans (by decide) hT | intro _ | extract_lets | with_reducible apply within_ite | with_reducible apply State.setF_within | with_reducible apply State.raiseIf_within | fail_if_no_progress ((with_reducible apply within_upd) <;> first | with_reducible exact Or.inl rfl | exact Or.inr (hT (by decide)) | skip) | exact Or.inl (hT (by decide)) | exact Or.inr (hT (by simp)) | split | dsimp +zetaDelta only)

theorem State.reselect_within {T : List Part} {s0 s : State} (h : State.Within T s0 s) (hT : [.block 6, .notes, .tm] ⊆ T) : State.Within T s0 (State.reselect s) := by
  unfold State.reselect
  repeat' (first | with_reducible assumption | exact part_trans (by decide) hT | intro _ | extract_lets | with_reducible apply within_ite | with_reducible apply State.setRef_within | fail_if_no_progress ((with_reducible apply within_upd) <;> first | with_reducible exact Or.inl rfl | exact Or.inr (hT (by decide)) | skip) | exact Or.inl (hT (by decide)) | exact Or.inr (hT (by simp)) | split | dsimp +zetaDelta only)

theorem State.reselectOwn_within {T : List Part} {s0 s : State} (h : State.Within T s0 s) (hT : [.block 6, .notes, .tm] ⊆ T) : State.Within T s0 (State.reselectOwn s) := by
  unfold State.reselectOwn
  repeat' (first | with_reducible assumption | exact part_trans (by decide) hT | intro _ | extract_lets | with_reducible apply within_ite | with_reducible apply State.setRef_within | fail_if_no_progress ((with_reducible apply within_upd) <;> first | with_reducible exact Or.inl rfl | exact Or.inr (hT (by decide)) | skip) | exact Or.inl (hT (by decide)) | exact Or.inr (hT (by simp)) | split | dsimp +zetaDelta only)

theorem State.correct_within {T : List Part} {s0 s : State} (h : State.Within T s0 s) (hT : [.block 6, .freeIx, .notes, .tm] ⊆ T) (off : Int) : State.Within T s0 (State.correct s off) := by
  unfold State.correct
  repeat' (first | with_reducible assumption | exact part_trans (by decide) hT | with_reducible intro _ | with_reducible apply within_ite | with_reducible apply State.setRate_within | with_reducible apply State.setF_within | with_reducible apply State.raise_within | with_reducible apply State.useFree_within | fail_if_no_progress ((with_reducible apply within_upd) <;> first | with_reducible exact Or.inl rfl | exact Or.inr (hT (by decide)) | skip) | exact Or.inl (hT (by decide)) | exact Or.inr (hT (by simp)))

theorem State.enterLocked_within {T : List Part} {s0 s : State} (h : State.Within T s0 s) (hT : [.block 6, .notes, .tm] ⊆ T) (d : Nat) : State.Within T s0 (State.enterLocked s d) := by
  unfold State.enterLocked
  repeat' (first | with_reducible assumption | exact part_trans (by decide) hT | intro _ | extract_lets | with_reducible apply within_ite | with_reducible apply State.raise_within | with_reducible apply State.setDomState_within | with_reducible apply State.setRef_within | fail_if_no_progress ((with_reducible apply within_upd) <;> first | with_reducible exact Or.inl rfl | exact Or.inr (hT (by decide)) | skip) | exact Or.inl (hT (by decide)) | exact Or.inr (hT (by simp)) | split | dsimp +zetaDelta only)

theorem State.rejudge_within {T : List Part} {s0 s : State} (h : State.Within T s0 s) (hT : [.tm] ⊆ T) : State.Within T s0 (State.rejudge s) := by
  unfold State.rejudge
  repeat' (first | with_reducible assumption | exact part_trans (by decide) hT | intro _ | extract_lets | with_reducible apply within_ite | with_reducible apply State.each_within | with_reducible apply State.setDomain_within | fail_if_no_progress ((with_reducible apply within_upd) <;> first | with_reducible exact Or.inl rfl | exact Or.inr (hT (by decide)) | skip) | exact Or.inl (hT (by decide)) | exact Or.inr (hT (by simp)) | split | dsimp +zetaDelta only)

theorem State.freeze_within {T : List Part} {s0 s : State} (h : State.Within T s0 s) (hT : [.block 6, .notes, .tm] ⊆ T) (d : Nat) : State.Within T s0 (State.freeze s d) := by
  unfold State.freeze
  repeat' (first | with_reducible assumption | exact part_trans (by decide) hT | intro _ | extract_lets | with_reducible apply within_ite | with_reducible apply State.bump_within | with_reducible apply State.raise_within | with_reducible apply State.setDomState_within | with_reducible apply State.setDomain_within | with_reducible apply State.setF_within | with_reducible apply State.setRef_within | with_reducible apply State.rejudge_within | fail_if_no_progress ((with_reducible apply within_upd) <;> first | with_reducible exact Or.inl rfl | exact Or.inr (hT (by decide)) | skip) | exact Or.inl (hT (by decide)) | exact Or.inr (hT (by simp)) | split | dsimp +zetaDelta only)

theorem State.deviate_within {T : List Part} {s0 s : State} (h : State.Within T s0 s) (hT : [.block 6, .notes, .tm] ⊆ T) (d : Nat) : State.Within T s0 (State.deviate s d) := by
  unfold State.deviate
  repeat' (first | with_reducible assumption | exact part_trans (by decide) hT | with_reducible intro _ | with_reducible apply within_ite | with_reducible apply State.freeze_within | with_reducible apply State.setDomain_within | exact Or.inl (hT (by decide)) | exact Or.inr (hT (by simp)))

theorem State.tally_within {T : List Part} {s0 s : State} (h : State.Within T s0 s) (hT : [.block 6] ⊆ T) (d : Nat) (off : Int) : State.Within T s0 (State.tally s d off) := by
  unfold State.tally
  repeat' (first | with_reducible assumption | exact part_trans (by decide) hT | exact Or.inr (hT (by first | (simp; done) | (simp +zetaDelta; done) | (simp +zetaDelta; split <;> simp))) | intro _ | extract_lets | with_reducible apply within_ite | with_reducible apply State.bump_within | with_reducible apply State.setF_within | fail_if_no_progress ((with_reducible apply within_upd) <;> first | with_reducible exact Or.inl rfl | exact Or.inr (hT (by decide)) | skip) | exact Or.inl (hT (by decide)) | split | dsimp +zetaDelta only)

theorem State.countPass_within {T : List Part} {s0 s : State} (h : State.Within T s0 s) (hT : [.block 6, .notes, .tm] ⊆ T) (d : Nat) (off : Int) : State.Within T s0 (State.countPass s d off) := by
  unfold State.countPass
  repeat' (first | with_reducible assumption | exact part_trans (by decide) hT | intro _ | extract_lets | with_reducible apply within_ite | with_reducible apply State.tally_within | with_reducible apply State.enterLocked_within | fail_if_no_progress ((with_reducible apply within_upd) <;> first | with_reducible exact Or.inl rfl | exact Or.inr (hT (by decide)) | skip) | exact Or.inl (hT (by decide)) | exact Or.inr (hT (by simp)) | split | dsimp +zetaDelta only)

theorem State.measure_within {T : List Part} {s0 s : State} (h : State.Within T s0 s) (hT : [.block 6, .freeIx, .notes, .tm] ⊆ T) (d : Nat) (off : Int) : State.Within T s0 (State.measure s d off) := by
  unfold State.measure
  repeat' (first | with_reducible assumption | exact part_trans (by decide) hT | intro _ | extract_lets | with_reducible apply within_ite | with_reducible apply State.setOffset_within | with_reducible apply State.useFree_within | with_reducible apply State.countPass_within | with_reducible apply State.setDomain_within | with_reducible apply State.tally_within | with_reducible apply State.deviate_within | with_reducible apply State.correct_within | fail_if_no_progress ((with_reducible apply within_upd) <;> first | with_reducible exact Or.inl rfl | exact Or.inr (hT (by decide)) | skip) | exact Or.inl (hT (by decide)) | exact Or.inr (hT (by simp)) | split | dsimp +zetaDelta only)

theorem State.measureDelay_within {T : List Part} {s0 s : State} (h : State.Within T s0 s) (hT : [.block 6, .freeIx, .notes, .tm] ⊆ T) (d : Nat) (raw : Int) : State.Within T s0 (State.measureDelay s d raw) := by
  unfold State.measureDelay
  repeat' (first | with_reducible assumption | exact part_trans (by decide) hT | intro _ | extract_lets | with_reducible apply within_ite | with_reducible apply State.putQ_within | with_reducible apply State.deviate_within | with_reducible apply State.setF_within | with_reducible apply State.useFree_within | with_reducible apply State.setDomain_within | fail_if_no_progress ((with_reducible apply within_upd) <;> first | with_reducible exact Or.inl rfl | exact Or.inr (hT (by decide)) | skip) | exact Or.inl (hT (by decide)) | exact Or.inr (hT (by simp)) | split | dsimp +zetaDelta only)

theorem State.syncMeasure_within {T : List Part} {s0 s : State} (h : State.Within T s0 s) (hT : [.block 6, .freeIx, .notes, .tm] ⊆ T) (d : Nat) (t1 : Int) (t2 : Int) : State.Within T s0 (State.syncMeasure s d t1 t2) := by
  unfold State.syncMeasure
  repeat' (first | with_reducible assumption | exact part_trans (by decide) hT | with_reducible apply State.setDomain_within | with_reducible apply State.measure_within | exact Or.inl (hT (by decide)) | exact Or.inr (hT (by simp)))

theorem State.domAnew_within {T : List Part} {s0 s : State} (h : State.Within T s0 s) (hT : [.block 6, .tm] ⊆ T) (d : Nat) : State.Within T s0 (State.domAnew s d) := by
  unfold State.domAnew
  repeat' (first | with_reducible assumption | exact part_trans (by decide) hT | intro _ | extract_lets | with_reducible apply within_ite | with_reducible apply State.setDomain_within | with_reducible apply State.setF_within | fail_if_no_progress ((with_reducible apply within_upd) <;> first | with_reducible exact Or.inl rfl | exact Or.inr (hT (by decide)) | skip) | exact Or.inl (hT (by decide)) | exact Or.inr (hT (by simp)) | split | dsimp +zetaDelta only)

theorem State.domLost_within {T : List Part} {s0 s : State} (h : State.Within T s0 s) (hT : [.block 6, .notes, .tm] ⊆ T) (d : Nat) : State.Within T s0 (State.domLost s d) := by
  unfold State.domLost
  repeat' (first | with_reducible assumption | exact part_trans (by decide) hT | intro _ | extract_lets | with_reducible apply within_ite | with_reducible apply State.bump_within | with_reducible apply State.raise_within | with_reducible apply State.setDomState_within | with_reducible apply State.domAnew_within | with_reducible apply State.rejudge_within | with_reducible apply State.reselect_within | fail_if_no_progress ((with_reducible apply within_upd) <;> first | with_reducible exact Or.inl rfl | exact Or.inr (hT (by decide)) | skip) | exact Or.inl (hT (by decide)) | exact Or.inr (hT (by simp)) | split | dsimp +zetaDelta only)

theorem State.timePortLost_within {T : List Part} {s0 s : State} (h : State.Within T s0 s) (hT : [.block 6, .notes, .tm] ⊆ T) (port : Nat) : State.Within T s0 (State.timePortLost s port) := by
  unfold State.timePortLost
  repeat' (first | with_reducible assumption | exact part_trans (by decide) hT | with_reducible intro _ | with_reducible apply within_ite | with_reducible apply State.each_within | with_reducible apply State.domLost_within | exact Or.inl (hT (by decide)) | exact Or.inr (hT (by simp)))

theorem State.timeStart_within {T : List Part} {s0 s : State} (h : State.Within T s0 s) (hT : [.block 6, .tm] ⊆ T) : State.Within T s0 (State.timeStart s) := by
  unfold State.timeStart
  repeat' (first | with_reducible assumption | exact part_trans (by decide) hT | with_reducible intro _ | with_reducible apply within_ite | with_reducible apply State.setF_within | with_reducible apply State.setDev32_within | fail_if_no_progress ((with_reducible apply within_upd) <;> first | with_reducible exact Or.inl rfl | exact Or.inr (hT (by decide)) | skip) | exact Or.inl (hT (by decide)) | exact Or.inr (hT (by simp)))

theorem State.timeLoad_within {T : List Part} {s0 s : State} (h : State.Within T s0 s) (hT : [.block 6, .tm] ⊆ T) : State.Within T s0 (State.timeLoad s) := by
  unfold State.timeLoad
  repeat' (first | with_reducible assumption | exact part_trans (by decide) hT | intro _ | extract_lets | with_reducible apply within_ite | with_reducible apply State.each_within | with_reducible apply State.setF_within | with_reducible apply State.setB_within | with_reducible apply State.setDomState_within | with_reducible apply State.setDomain_within | fail_if_no_progress ((with_reducible apply within_upd) <;> first | with_reducible exact Or.inl rfl | exact Or.inr (hT (by decide)) | skip) | exact Or.inl (hT (by decide)) | exact Or.inr (hT (by simp)) | split | dsimp +zetaDelta only)

theorem State.stepDev_within {T : List Part} {s0 s : State} (h : State.Within T s0 s) (hT : [.block 6, .freeIx, .tm] ⊆ T) (q : Int) : State.Within T s0 (State.stepDev s q) := by
  unfold State.stepDev
  repeat' (first | with_reducible assumption | exact part_trans (by decide) hT | intro _ | extract_lets | with_reducible apply within_ite | with_reducible apply State.setDev32_within | with_reducible apply State.each_within | with_reducible apply State.setDomain_within | with_reducible apply State.setOffset_within | with_reducible apply State.setPeerOff_within | fail_if_no_progress ((with_reducible apply within_upd) <;> first | with_reducible exact Or.inl rfl | exact Or.inr (hT (by decide)) | skip) | exact Or.inl (hT (by decide)) | exact Or.inr (hT (by simp)) | split | dsimp +zetaDelta only)

theorem State.standbyTime_within {T : List Part} {s0 s : State} (h : State.Within T s0 s) (hT : [.block 6, .freeIx, .notes, .tm] ⊆ T) : State.Within T s0 (State.standbyTime s) := by
  unfold State.standbyTime
  repeat' (first | with_reducible assumption | exact part_trans (by decide) hT | intro _ | extract_lets | with_reducible apply within_ite | with_reducible apply State.setF_within | with_reducible apply State.stepDev_within | with_reducible apply State.reselect_within | fail_if_no_progress ((with_reducible apply within_upd) <;> first | with_reducible exact Or.inl rfl | exact Or.inr (hT (by decide)) | skip) | exact Or.inl (hT (by decide)) | exact Or.inr (hT (by simp)) | split | dsimp +zetaDelta only)

theorem State.timeRefuse_within {T : List Part} {s0 s : State} (h : State.Within T s0 s) (hT : [.block 6, .resp] ⊆ T) (st : Nat) : State.Within T s0 (State.timeRefuse s st) := by
  unfold State.timeRefuse
  repeat' (first | with_reducible assumption | exact part_trans (by decide) hT | with_reducible apply State.refuse_within | exact Or.inl (hT (by decide)) | exact Or.inr (hT (by simp)))

theorem execPtpAnnounceRx_within {T : List Part} {s0 s : State} (h : State.Within T s0 s) (hT : [.block 6, .mtb, .notes, .tm] ⊆ T) (dom : Fin 2) (port : Fin 2) (via : PtpVia) (gm : BitVec 64) (chosen : Bool) (t : Nat) : WithinRes T s0 (execPtpAnnounceRx dom port via gm chosen t s) := by
  unfold execPtpAnnounceRx
  repeat' (first | with_reducible assumption | exact part_trans (by decide) hT | exact Or.inr (hT (by first | (simp; done) | (simp +zetaDelta; done) | (simp +zetaDelta; split <;> simp))) | intro _ | extract_lets | with_reducible apply withinRes_next | with_reducible apply withinRes_ite | with_reducible apply within_ite | with_reducible apply State.advance_within | with_reducible apply State.setF_within | with_reducible apply State.setB_within | with_reducible apply State.domAnew_within | with_reducible apply State.setDomState_within | with_reducible apply State.rejudge_within | with_reducible apply State.reselect_within | with_reducible apply State.setDomain_within | fail_if_no_progress ((with_reducible apply within_upd) <;> first | with_reducible exact Or.inl rfl | exact Or.inr (hT (by decide)) | skip) | exact Or.inl (hT (by decide)) | split | dsimp +zetaDelta only)

theorem execPtpSyncRx_within {T : List Part} {s0 s : State} (h : State.Within T s0 s) (hT : [.block 6, .freeIx, .mtb, .notes, .tm] ⊆ T) (dom : Fin 2) (port : Fin 2) (via : PtpVia) (twoStep : Bool) (origin : Int) (t : Nat) : WithinRes T s0 (execPtpSyncRx dom port via twoStep origin t s) := by
  unfold execPtpSyncRx
  repeat' (first | with_reducible assumption | exact part_trans (by decide) hT | intro _ | extract_lets | with_reducible apply withinRes_next | with_reducible apply withinRes_ite | with_reducible apply within_ite | with_reducible apply State.advance_within | with_reducible apply State.setB_within | with_reducible apply State.setDomain_within | with_reducible apply State.syncMeasure_within | fail_if_no_progress ((with_reducible apply within_upd) <;> first | with_reducible exact Or.inl rfl | exact Or.inr (hT (by decide)) | skip) | exact Or.inl (hT (by decide)) | exact Or.inr (hT (by simp)) | split | dsimp +zetaDelta only)

theorem execPtpFollowUpRx_within {T : List Part} {s0 s : State} (h : State.Within T s0 s) (hT : [.block 6, .freeIx, .notes, .tm] ⊆ T) (dom : Fin 2) (port : Fin 2) (via : PtpVia) (origin : Int) : WithinRes T s0 (execPtpFollowUpRx dom port via origin s) := by
  unfold execPtpFollowUpRx
  repeat' (first | with_reducible assumption | exact part_trans (by decide) hT | intro _ | extract_lets | with_reducible apply withinRes_next | with_reducible apply withinRes_ite | with_reducible apply within_ite | with_reducible apply State.syncMeasure_within | fail_if_no_progress ((with_reducible apply within_upd) <;> first | with_reducible exact Or.inl rfl | exact Or.inr (hT (by decide)) | skip) | exact Or.inl (hT (by decide)) | exact Or.inr (hT (by simp)) | split | dsimp +zetaDelta only)

theorem execPtpDelayRespRx_within {T : List Part} {s0 s : State} (h : State.Within T s0 s) (hT : [.block 6, .freeIx, .notes, .tm] ⊆ T) (dom : Fin 2) (port : Fin 2) (via : PtpVia) (t4 : Int) (interval : Fin 256) : WithinRes T s0 (execPtpDelayRespRx dom port via t4 interval s) := by
  unfold execPtpDelayRespRx
  repeat' (first | with_reducible assumption | exact part_trans (by decide) hT | intro _ | extract_lets | with_reducible apply withinRes_next | with_reducible apply withinRes_ite | with_reducible apply within_ite | with_reducible apply State.measureDelay_within | with_reducible apply State.setDomain_within | fail_if_no_progress ((with_reducible apply within_upd) <;> first | with_reducible exact Or.inl rfl | exact Or.inr (hT (by decide)) | skip) | exact Or.inl (hT (by decide)) | exact Or.inr (hT (by simp)) | split | dsimp +zetaDelta only)

theorem execPtpPdelayReqRx_within {T : List Part} {s0 s : State} (h : State.Within T s0 s) (hT : [.mtb, .out] ⊆ T) (port : Fin 2) (via : PtpVia) (arrival : Nat) (t : Nat) : WithinRes T s0 (execPtpPdelayReqRx port via arrival t s) := by
  unfold execPtpPdelayReqRx
  repeat' (first | with_reducible assumption | exact part_trans (by decide) hT | intro _ | extract_lets | with_reducible apply withinRes_next | with_reducible apply withinRes_ite | with_reducible apply within_ite | with_reducible apply State.advance_within | with_reducible apply State.emit_within | fail_if_no_progress ((with_reducible apply within_upd) <;> first | with_reducible exact Or.inl rfl | exact Or.inr (hT (by decide)) | skip) | exact Or.inl (hT (by decide)) | exact Or.inr (hT (by simp)) | split | dsimp +zetaDelta only)

theorem execPtpPdelayRespRx_within {T : List Part} {s0 s : State} (h : State.Within T s0 s) (hT : [.block 6, .freeIx, .mtb, .notes, .tm] ⊆ T) (dom : Fin 2) (port : Fin 2) (via : PtpVia) (turnaround : Int) (t : Nat) : WithinRes T s0 (execPtpPdelayRespRx dom port via turnaround t s) := by
  unfold execPtpPdelayRespRx
  repeat' (first | with_reducible assumption | exact part_trans (by decide) hT | intro _ | extract_lets | with_reducible apply withinRes_next | with_reducible apply withinRes_ite | with_reducible apply within_ite | with_reducible apply State.advance_within | with_reducible apply State.measureDelay_within | with_reducible apply State.setDomain_within | fail_if_no_progress ((with_reducible apply within_upd) <;> first | with_reducible exact Or.inl rfl | exact Or.inr (hT (by decide)) | skip) | exact Or.inl (hT (by decide)) | exact Or.inr (hT (by simp)) | split | dsimp +zetaDelta only)

theorem execPtpDelayReqSend_within {T : List Part} {s0 s : State} (h : State.Within T s0 s) (hT : [.mtb, .out, .tm] ⊆ T) (dom : Fin 2) (t : Nat) : WithinRes T s0 (execPtpDelayReqSend dom t s) := by
  unfold execPtpDelayReqSend
  repeat' (first | with_reducible assumption | exact part_trans (by decide) hT | intro _ | extract_lets | with_reducible apply withinRes_next | with_reducible apply withinRes_ite | with_reducible apply within_ite | with_reducible apply State.advance_within | with_reducible apply State.emit_within | with_reducible apply State.setDomain_within | fail_if_no_progress ((with_reducible apply within_upd) <;> first | with_reducible exact Or.inl rfl | exact Or.inr (hT (by decide)) | skip) | exact Or.inl (hT (by decide)) | exact Or.inr (hT (by simp)) | split | dsimp +zetaDelta only)

theorem execPtpManagementRx_within {T : List Part} {s0 s : State} (h : State.Within T s0 s) (hT : [.tm] ⊆ T) (signalling : Bool) : WithinRes T s0 (execPtpManagementRx signalling s) := by
  unfold execPtpManagementRx
  repeat' (first | with_reducible assumption | exact part_trans (by decide) hT | intro _ | extract_lets | with_reducible apply withinRes_next | with_reducible apply withinRes_ite | with_reducible apply within_ite | fail_if_no_progress ((with_reducible apply within_upd) <;> first | with_reducible exact Or.inl rfl | exact Or.inr (hT (by decide)) | skip) | exact Or.inl (hT (by decide)) | exact Or.inr (hT (by simp)) | split | dsimp +zetaDelta only)

theorem execAnnounceReceiptTimeout_within {T : List Part} {s0 s : State} (h : State.Within T s0 s) (hT : [.block 6, .notes, .tm] ⊆ T) (dom : Fin 2) : WithinRes T s0 (execAnnounceReceiptTimeout dom s) := by
  unfold execAnnounceReceiptTimeout
  repeat' (first | with_reducible assumption | exact part_trans (by decide) hT | intro _ | extract_lets | with_reducible apply withinRes_next | with_reducible apply withinRes_ite | with_reducible apply within_ite | with_reducible apply State.domLost_within | fail_if_no_progress ((with_reducible apply within_upd) <;> first | with_reducible exact Or.inl rfl | exact Or.inr (hT (by decide)) | skip) | exact Or.inl (hT (by decide)) | exact Or.inr (hT (by simp)) | split | dsimp +zetaDelta only)

theorem execFreezeTimeout_within {T : List Part} {s0 s : State} (h : State.Within T s0 s) (hT : [.block 6, .freeIx, .mtb, .notes, .tm] ⊆ T) (dom : Fin 2) (t : Nat) : WithinRes T s0 (execFreezeTimeout dom t s) := by
  unfold execFreezeTimeout
  repeat' (first | with_reducible assumption | exact part_trans (by decide) hT | intro _ | extract_lets | with_reducible apply withinRes_next | with_reducible apply withinRes_ite | with_reducible apply within_ite | with_reducible apply State.advance_within | with_reducible apply State.enterLocked_within | with_reducible apply State.correct_within | fail_if_no_progress ((with_reducible apply within_upd) <;> first | with_reducible exact Or.inl rfl | exact Or.inr (hT (by decide)) | skip) | exact Or.inl (hT (by decide)) | exact Or.inr (hT (by simp)) | split | dsimp +zetaDelta only)

theorem execTimeStep_within {T : List Part} {s0 s : State} (h : State.Within T s0 s) (hT : [.block 6, .freeIx, .mtb, .notes, .tm] ⊆ T) : WithinRes T s0 (execTimeStep s) := by
  unfold execTimeStep
  repeat' (first | with_reducible assumption | exact part_trans (by decide) hT | intro _ | extract_lets | with_reducible apply withinRes_next | with_reducible apply withinRes_ite | with_reducible apply within_ite | with_reducible apply State.advance_within | with_reducible apply State.raise_within | with_reducible apply State.setF_within | with_reducible apply State.stepDev_within | fail_if_no_progress ((with_reducible apply within_upd) <;> first | with_reducible exact Or.inl rfl | exact Or.inr (hT (by decide)) | skip) | exact Or.inl (hT (by decide)) | exact Or.inr (hT (by simp)) | split | dsimp +zetaDelta only)

theorem execLockWaitExpiry_within {T : List Part} {s0 s : State} (h : State.Within T s0 s) (hT : [.mtb, .tm] ⊆ T) (t : Nat) : WithinRes T s0 (execLockWaitExpiry t s) := by
  unfold execLockWaitExpiry
  repeat' (first | with_reducible assumption | exact part_trans (by decide) hT | intro _ | extract_lets | with_reducible apply withinRes_next | with_reducible apply withinRes_ite | with_reducible apply within_ite | with_reducible apply State.advance_within | fail_if_no_progress ((with_reducible apply within_upd) <;> first | with_reducible exact Or.inl rfl | exact Or.inr (hT (by decide)) | skip) | exact Or.inl (hT (by decide)) | exact Or.inr (hT (by simp)) | split | dsimp +zetaDelta only)

theorem State.timeAccept_within {T : List Part} {s0 s : State} (h : State.Within T s0 s) (hT : [.block 6, .resp, .tm] ⊆ T) : State.Within T s0 (State.timeAccept s) := by
  unfold State.timeAccept
  repeat' (first | with_reducible assumption | exact part_trans (by decide) hT | with_reducible intro _ | with_reducible apply State.setRate_within | with_reducible apply State.answer_within | with_reducible apply State.timeRefuse_within | fail_if_no_progress ((with_reducible apply within_upd) <;> first | with_reducible exact Or.inl rfl | exact Or.inr (hT (by decide)) | skip) | exact Or.inl (hT (by decide)) | exact Or.inr (hT (by simp)) | with_reducible split | with_reducible dsimp +zetaDelta only)

theorem State.timeSnap_within {T : List Part} {s0 s : State} (h : State.Within T s0 s) (hT : [.block 6, .resp] ⊆ T) : State.Within T s0 (State.timeSnap s) := by
  unfold State.timeSnap
  repeat' (first | with_reducible assumption | exact part_trans (by decide) hT | with_reducible apply State.setF_within | with_reducible apply State.answer_within | exact Or.inl (hT (by decide)) | exact Or.inr (hT (by simp)))

theorem State.timeSelDom_within {T : List Part} {s0 s : State} (h : State.Within T s0 s) (hT : [.block 6, .notes, .resp, .tm] ⊆ T) (v : Nat) : State.Within T s0 (State.timeSelDom s v) := by
  unfold State.timeSelDom
  repeat' (first | with_reducible assumption | exact part_trans (by decide) hT | with_reducible intro _ | with_reducible apply within_ite | with_reducible apply State.answer_within | with_reducible apply State.timeRefuse_within | with_reducible apply State.setF_within | with_reducible apply State.reselect_within | exact Or.inl (hT (by decide)) | exact Or.inr (hT (by simp)))

theorem execTimeAccept_within {T : List Part} {s0 s : State} (h : State.Within T s0 s) (hT : [.block 6, .resp, .tm] ⊆ T) : WithinRes T s0 (execTimeAccept s) := by
  unfold execTimeAccept
  repeat' (first | with_reducible assumption | exact part_trans (by decide) hT | intro _ | extract_lets | with_reducible apply withinRes_next | with_reducible apply withinRes_ite | with_reducible apply within_ite | with_reducible apply State.timeAccept_within | fail_if_no_progress ((with_reducible apply within_upd) <;> first | with_reducible exact Or.inl rfl | exact Or.inr (hT (by decide)) | skip) | exact Or.inl (hT (by decide)) | exact Or.inr (hT (by simp)) | split | dsimp +zetaDelta only)

theorem execTimeSnap_within {T : List Part} {s0 s : State} (h : State.Within T s0 s) (hT : [.block 6, .mtb, .resp] ⊆ T) (t : Nat) : WithinRes T s0 (execTimeSnap t s) := by
  unfold execTimeSnap
  repeat' (first | with_reducible assumption | exact part_trans (by decide) hT | intro _ | extract_lets | with_reducible apply withinRes_next | with_reducible apply withinRes_ite | with_reducible apply within_ite | with_reducible apply State.advance_within | with_reducible apply State.timeSnap_within | fail_if_no_progress ((with_reducible apply within_upd) <;> first | with_reducible exact Or.inl rfl | exact Or.inr (hT (by decide)) | skip) | exact Or.inl (hT (by decide)) | exact Or.inr (hT (by simp)) | split | dsimp +zetaDelta only)

theorem execTimeSelDomWrite_within {T : List Part} {s0 s : State} (h : State.Within T s0 s) (hT : [.block 6, .notes, .resp, .tm] ⊆ T) (sel : Fin 4) : WithinRes T s0 (execTimeSelDomWrite sel s) := by
  unfold execTimeSelDomWrite
  repeat' (first | with_reducible assumption | exact part_trans (by decide) hT | intro _ | extract_lets | with_reducible apply withinRes_next | with_reducible apply withinRes_ite | with_reducible apply within_ite | with_reducible apply State.timeSelDom_within | fail_if_no_progress ((with_reducible apply within_upd) <;> first | with_reducible exact Or.inl rfl | exact Or.inr (hT (by decide)) | skip) | exact Or.inl (hT (by decide)) | exact Or.inr (hT (by simp)) | split | dsimp +zetaDelta only)

theorem execTieTimeSend_within {T : List Part} {s0 s : State} (h : State.Within T s0 s) (hT : [.mtb, .out, .pa] ⊆ T) (t : Nat) : WithinRes T s0 (execTieTimeSend t s) := by
  unfold execTieTimeSend
  repeat' (first | with_reducible assumption | exact part_trans (by decide) hT | intro _ | extract_lets | with_reducible apply withinRes_next | with_reducible apply withinRes_ite | with_reducible apply within_ite | with_reducible apply State.advance_within | with_reducible apply State.amrekOut_within | fail_if_no_progress ((with_reducible apply within_upd) <;> first | with_reducible exact Or.inl rfl | exact Or.inr (hT (by decide)) | skip) | exact Or.inl (hT (by decide)) | exact Or.inr (hT (by simp)) | split | dsimp +zetaDelta only)

theorem execTieTimeRx_within {T : List Part} {s0 s : State} (h : State.Within T s0 s) (hT : [.block 21, .block 6, .freeIx, .mtb, .notes, .pa, .tm] ⊆ T) (f : TimeFrame) (t : Nat) : WithinRes T s0 (execTieTimeRx f t s) := by
  unfold execTieTimeRx
  repeat' (first | with_reducible assumption | exact part_trans (by decide) hT | intro _ | extract_lets | with_reducible apply withinRes_next | with_reducible apply withinRes_ite | with_reducible apply within_ite | with_reducible apply State.advance_within | with_reducible apply State.setF_within | with_reducible apply State.setPeerOff_within | with_reducible apply State.rejudge_within | with_reducible apply State.reselect_within | with_reducible apply State.standbyTime_within | with_reducible apply State.correct_within | fail_if_no_progress ((with_reducible apply within_upd) <;> first | with_reducible exact Or.inl rfl | exact Or.inr (hT (by decide)) | skip) | exact Or.inl (hT (by decide)) | exact Or.inr (hT (by simp)) | split | dsimp +zetaDelta only)

theorem execPeerTimeExpiry_within {T : List Part} {s0 s : State} (h : State.Within T s0 s) (hT : [.block 6, .mtb, .notes, .tm] ⊆ T) (t : Nat) : WithinRes T s0 (execPeerTimeExpiry t s) := by
  unfold execPeerTimeExpiry
  repeat' (first | with_reducible assumption | exact part_trans (by decide) hT | intro _ | extract_lets | with_reducible apply withinRes_next | with_reducible apply withinRes_ite | with_reducible apply within_ite | with_reducible apply State.advance_within | with_reducible apply State.setF_within | with_reducible apply State.rejudge_within | with_reducible apply State.reselect_within | fail_if_no_progress ((with_reducible apply within_upd) <;> first | with_reducible exact Or.inl rfl | exact Or.inr (hT (by decide)) | skip) | exact Or.inl (hT (by decide)) | exact Or.inr (hT (by simp)) | split | dsimp +zetaDelta only)

end Sys2Proof.Machine
end

