-- ==== Sys2Proof/Laws/WithinMemory.lean ====
section
/-!
SUPPORT. What the operations of the queues, the mirror, the memory system and the audit log can do: one lemma per operation, which names the
parts of the state that it may touch and says that it keeps the invariant and the queue. A proof about a step cites these and
unfolds none of the operations.
-/
namespace Sys2Proof.Machine
open Sys2Proof
set_option linter.all false
set_option Elab.async false

theorem State.setQueue_within {T : List Part} {s0 s : State} (h : State.Within T s0 s) (hT : [.queues] ⊆ T) (q : Nat) (v : Queue) : State.Within T s0 (State.setQueue s q v) := by
  unfold State.setQueue
  repeat' (first | with_reducible assumption | exact part_trans (by decide) hT | fail_if_no_progress ((with_reducible apply within_upd) <;> first | with_reducible exact Or.inl rfl | exact Or.inr (hT (by decide)) | skip) | exact Or.inl (hT (by decide)) | exact Or.inr (hT (by simp)))

theorem State.queueRefuse_within {T : List Part} {s0 s : State} (h : State.Within T s0 s) (hT : [.block 15, .resp] ⊆ T) (q : Nat) (st : Nat) : State.Within T s0 (State.queueRefuse s q st) := by
  unfold State.queueRefuse
  repeat' (first | with_reducible assumption | exact part_trans (by decide) hT | with_reducible apply State.setF_within | with_reducible apply State.refuse_within | exact Or.inl (hT (by decide)) | exact Or.inr (hT (by simp)))

theorem State.crossUp_within {T : List Part} {s0 s : State} (h : State.Within T s0 s) (hT : [.block 15, .notes, .queues] ⊆ T) (q : Nat) : State.Within T s0 (State.crossUp s q) := by
  unfold State.crossUp
  repeat' (first | with_reducible assumption | exact part_trans (by decide) hT | with_reducible apply State.setF_within | with_reducible apply State.raise_within | with_reducible apply State.bump_within | with_reducible apply State.setQueue_within | exact Or.inl (hT (by decide)) | exact Or.inr (hT (by simp)))

theorem State.crossDown_within {T : List Part} {s0 s : State} (h : State.Within T s0 s) (hT : [.block 15, .notes, .queues] ⊆ T) (q : Nat) : State.Within T s0 (State.crossDown s q) := by
  unfold State.crossDown
  repeat' (first | with_reducible assumption | exact part_trans (by decide) hT | with_reducible apply State.setF_within | with_reducible apply State.raise_within | with_reducible apply State.setQueue_within | exact Or.inl (hT (by decide)) | exact Or.inr (hT (by simp)))

theorem State.watermark_within {T : List Part} {s0 s : State} (h : State.Within T s0 s) (hT : [.block 15, .notes, .queues] ⊆ T) (q : Nat) : State.Within T s0 (State.watermark s q) := by
  unfold State.watermark
  repeat' (first | with_reducible assumption | exact part_trans (by decide) hT | with_reducible intro _ | with_reducible apply within_ite | with_reducible apply State.crossUp_within | with_reducible apply State.crossDown_within | exact Or.inl (hT (by decide)) | exact Or.inr (hT (by simp)))

theorem State.queueDiscard_within {T : List Part} {s0 s : State} (h : State.Within T s0 s) (hT : [.block 15, .notes] ⊆ T) (q : Nat) : State.Within T s0 (State.queueDiscard s q) := by
  unfold State.queueDiscard
  repeat' (first | with_reducible assumption | exact part_trans (by decide) hT | intro _ | extract_lets | with_reducible apply within_ite | with_reducible apply State.raise_within | with_reducible apply State.setF_within | with_reducible apply State.bump_within | fail_if_no_progress ((with_reducible apply within_upd) <;> first | with_reducible exact Or.inl rfl | exact Or.inr (hT (by decide)) | skip) | exact Or.inl (hT (by decide)) | exact Or.inr (hT (by simp)) | split | dsimp +zetaDelta only)

theorem State.queueAppend_within {T : List Part} {s0 s : State} (h : State.Within T s0 s) (hT : [.block 15, .freeIx, .notes, .queues] ⊆ T) (q : Nat) (e : Entry) : State.Within T s0 (State.queueAppend s q e) := by
  unfold State.queueAppend
  repeat' (first | with_reducible assumption | exact part_trans (by decide) hT | intro _ | extract_lets | with_reducible apply within_ite | with_reducible apply State.watermark_within | with_reducible apply State.setQueue_within | with_reducible apply State.useFree_within | fail_if_no_progress ((with_reducible apply within_upd) <;> first | with_reducible exact Or.inl rfl | exact Or.inr (hT (by decide)) | skip) | exact Or.inl (hT (by decide)) | exact Or.inr (hT (by simp)) | split | dsimp +zetaDelta only)

theorem State.pktFree_within {T : List Part} {s0 s : State} (h : State.Within T s0 s) (hT : [.ms] ⊆ T) (a : Nat) : State.Within T s0 (State.pktFree s a) := by
  unfold State.pktFree
  repeat' (first | with_reducible assumption | exact part_trans (by decide) hT | fail_if_no_progress ((with_reducible apply within_upd) <;> first | with_reducible exact Or.inl rfl | exact Or.inr (hT (by decide)) | skip) | exact Or.inl (hT (by decide)) | exact Or.inr (hT (by simp)) | with_reducible split)

theorem State.freeDropped_within {T : List Part} {s0 s : State} (h : State.Within T s0 s) (hT : [.ms] ⊆ T) (q : Nat) (l : List Entry) : State.Within T s0 (State.freeDropped s q l) := by
  unfold State.freeDropped
  repeat' (first | with_reducible assumption | exact part_trans (by decide) hT | intro _ | extract_lets | with_reducible apply within_ite | with_reducible apply State.each_within | with_reducible apply State.pktFree_within | fail_if_no_progress ((with_reducible apply within_upd) <;> first | with_reducible exact Or.inl rfl | exact Or.inr (hT (by decide)) | skip) | exact Or.inl (hT (by decide)) | exact Or.inr (hT (by simp)) | split | dsimp +zetaDelta only)

theorem State.queueTakePaid_within {T : List Part} {s0 s : State} (h : State.Within T s0 s) (hT : [.block 15, .freeIx, .ms, .notes, .queues] ⊆ T) (q : Nat) (e : Entry) : State.Within T s0 (State.queueTakePaid s q e) := by
  unfold State.queueTakePaid
  repeat' (first | with_reducible assumption | exact part_trans (by decide) hT | intro _ | extract_lets | with_reducible apply within_ite | with_reducible apply State.freeDropped_within | with_reducible apply State.setQueue_within | with_reducible apply State.queueAppend_within | fail_if_no_progress ((with_reducible apply within_upd) <;> first | with_reducible exact Or.inl rfl | exact Or.inr (hT (by decide)) | skip) | exact Or.inl (hT (by decide)) | exact Or.inr (hT (by simp)) | split | dsimp +zetaDelta only)

theorem State.queueTake_within {T : List Part} {s0 s : State} (h : State.Within T s0 s) (hT : [.block 15, .freeIx, .ms, .notes, .queues] ⊆ T) (q : Nat) (e : Entry) : State.Within T s0 (State.queueTake s q e) := by
  unfold State.queueTake
  repeat' (first | with_reducible assumption | exact part_trans (by decide) hT | with_reducible apply State.setQueue_within | with_reducible apply State.queueTakePaid_within | exact Or.inl (hT (by decide)) | exact Or.inr (hT (by simp)))

theorem State.enqueue_within {T : List Part} {s0 s : State} (h : State.Within T s0 s) (hT : [.block 15, .freeIx, .ms, .notes, .queues, .resp] ⊆ T) (q : Nat) (e : Entry) : State.Within T s0 (State.enqueue s q e) := by
  unfold State.enqueue
  repeat' (first | with_reducible assumption | exact part_trans (by decide) hT | intro _ | extract_lets | with_reducible apply within_ite | with_reducible apply State.queueRefuse_within | with_reducible apply State.answer_within | with_reducible apply State.setQueue_within | with_reducible apply State.queueDiscard_within | with_reducible apply State.queueTake_within | fail_if_no_progress ((with_reducible apply within_upd) <;> first | with_reducible exact Or.inl rfl | exact Or.inr (hT (by decide)) | skip) | exact Or.inl (hT (by decide)) | exact Or.inr (hT (by simp)) | split | dsimp +zetaDelta only)

theorem State.dequeue_within {T : List Part} {s0 s : State} (h : State.Within T s0 s) (hT : [.block 15, .freeIx, .mtb, .notes, .queues] ⊆ T) (q : Nat) : State.Within T s0 (State.dequeue s q) := by
  unfold State.dequeue
  repeat' (first | with_reducible assumption | exact part_trans (by decide) hT | intro _ | extract_lets | with_reducible apply within_ite | with_reducible apply State.advance_within | with_reducible apply State.watermark_within | with_reducible apply State.setQueue_within | with_reducible apply State.useFree_within | fail_if_no_progress ((with_reducible apply within_upd) <;> first | with_reducible exact Or.inl rfl | exact Or.inr (hT (by decide)) | skip) | exact Or.inl (hT (by decide)) | exact Or.inr (hT (by simp)) | split | dsimp +zetaDelta only)

theorem State.dropRemainder_within {T : List Part} {s0 s : State} (h : State.Within T s0 s) (hT : [.block 15, .ms, .notes, .queues, .resp] ⊆ T) (q : Nat) : State.Within T s0 (State.dropRemainder s q) := by
  unfold State.dropRemainder
  repeat' (first | with_reducible assumption | exact part_trans (by decide) hT | intro _ | extract_lets | with_reducible apply within_ite | with_reducible apply State.queueRefuse_within | with_reducible apply State.answer_within | with_reducible apply State.freeDropped_within | with_reducible apply State.watermark_within | with_reducible apply State.setQueue_within | fail_if_no_progress ((with_reducible apply within_upd) <;> first | with_reducible exact Or.inl rfl | exact Or.inr (hT (by decide)) | skip) | exact Or.inl (hT (by decide)) | exact Or.inr (hT (by simp)) | split | dsimp +zetaDelta only)

theorem State.pktTake_within {T : List Part} {s0 s : State} (h : State.Within T s0 s) (hT : [.freeIx, .ms] ⊆ T) : Within2 T s0 (State.pktTake s) := by
  unfold State.pktTake
  repeat' (first | with_reducible assumption | exact part_trans (by decide) hT | with_reducible apply within2_ite | with_reducible apply State.useFree_within | with_reducible apply within1_ite | with_reducible apply within2_ite | with_reducible apply withinO_some | with_reducible apply withinO_none | with_reducible apply withinO_ite | fail_if_no_progress ((with_reducible apply within_upd) <;> first | with_reducible exact Or.inl rfl | exact Or.inr (hT (by decide)) | skip) | with_reducible split | with_reducible apply within1_mk | with_reducible apply within2_mk | exact Or.inl (hT (by decide)) | exact Or.inr (hT (by simp)))

theorem State.consume_within {T : List Part} {s0 s : State} (h : State.Within T s0 s) (hT : [.block 15, .ms, .notes, .out, .queues, .resp] ⊆ T) (q : Nat) (ep : Nat) (e : Entry) : State.Within T s0 (State.consume s q ep e) := by
  unfold State.consume
  repeat' (first | with_reducible assumption | exact part_trans (by decide) hT | intro _ | extract_lets | with_reducible apply within_ite | with_reducible apply State.pktFree_within | with_reducible apply State.emit_within | with_reducible apply State.dropRemainder_within | fail_if_no_progress ((with_reducible apply within_upd) <;> first | with_reducible exact Or.inl rfl | exact Or.inr (hT (by decide)) | skip) | exact Or.inl (hT (by decide)) | exact Or.inr (hT (by simp)) | split | dsimp +zetaDelta only)

theorem State.cutPackets_within {T : List Part} {s0 s : State} (h : State.Within T s0 s) (hT : [.block 15, .freeIx, .ms, .notes, .queues] ⊆ T) (ep : Nat) : State.Within T s0 (State.cutPackets s ep) := by
  unfold State.cutPackets
  repeat' (first | with_reducible assumption | exact part_trans (by decide) hT | intro _ | extract_lets | with_reducible apply within_ite | with_reducible apply State.each_within | with_reducible apply State.setQueue_within | with_reducible apply State.raise_within | with_reducible apply State.queueTakePaid_within | with_reducible apply State.setF_within | fail_if_no_progress ((with_reducible apply within_upd) <;> first | with_reducible exact Or.inl rfl | exact Or.inr (hT (by decide)) | skip) | exact Or.inl (hT (by decide)) | exact Or.inr (hT (by simp)) | split | dsimp +zetaDelta only)

theorem State.queuesReset_within {T : List Part} {s0 s : State} (h : State.Within T s0 s) (hT : [.queues] ⊆ T) : State.Within T s0 (State.queuesReset s) := by
  unfold State.queuesReset
  repeat' (first | with_reducible assumption | exact part_trans (by decide) hT | fail_if_no_progress ((with_reducible apply within_upd) <;> first | with_reducible exact Or.inl rfl | exact Or.inr (hT (by decide)) | skip) | exact Or.inl (hT (by decide)) | exact Or.inr (hT (by simp)))

theorem execEnqueue_within {T : List Part} {s0 s : State} (h : State.Within T s0 s) (hT : [.block 15, .freeIx, .ms, .notes, .queues, .resp] ⊆ T) (queue : Fin 256) (src : Fin 256) (addr : Nat) (len : Nat) (flags : Nat) (tag : Nat) (aux : Nat) : WithinRes T s0 (execEnqueue queue src addr len flags tag aux s) := by
  unfold execEnqueue
  repeat' (first | with_reducible assumption | exact part_trans (by decide) hT | intro _ | extract_lets | with_reducible apply withinRes_next | with_reducible apply withinRes_ite | with_reducible apply within_ite | with_reducible apply State.enqueue_within | fail_if_no_progress ((with_reducible apply within_upd) <;> first | with_reducible exact Or.inl rfl | exact Or.inr (hT (by decide)) | skip) | exact Or.inl (hT (by decide)) | exact Or.inr (hT (by simp)) | split | dsimp +zetaDelta only)

theorem execDequeue_within {T : List Part} {s0 s : State} (h : State.Within T s0 s) (hT : [.block 15, .freeIx, .ms, .mtb, .notes, .out, .queues, .resp] ⊆ T) (queue : Fin 256) : WithinRes T s0 (execDequeue queue s) := by
  unfold execDequeue
  repeat' (first | with_reducible assumption | exact part_trans (by decide) hT | intro _ | extract_lets | with_reducible apply withinRes_next | with_reducible apply withinRes_ite | with_reducible apply within_ite | with_reducible apply State.consume_within | with_reducible apply State.emit_within | with_reducible apply State.dequeue_within | fail_if_no_progress ((with_reducible apply within_upd) <;> first | with_reducible exact Or.inl rfl | exact Or.inr (hT (by decide)) | skip) | exact Or.inl (hT (by decide)) | exact Or.inr (hT (by simp)) | split | dsimp +zetaDelta only)

theorem State.creditBack_within {T : List Part} {s0 s : State} (h : State.Within T s0 s) (hT : [.mtb, .queues] ⊆ T) (q : Nat) (src : Nat) : State.Within T s0 (State.creditBack s q src) := by
  unfold State.creditBack
  repeat' (first | with_reducible assumption | exact part_trans (by decide) hT | intro _ | extract_lets | with_reducible apply within_ite | with_reducible apply State.setQueue_within | with_reducible apply State.advance_within | fail_if_no_progress ((with_reducible apply within_upd) <;> first | with_reducible exact Or.inl rfl | exact Or.inr (hT (by decide)) | skip) | exact Or.inl (hT (by decide)) | exact Or.inr (hT (by simp)) | split | dsimp +zetaDelta only)

theorem execQueueReadbackDone_within {T : List Part} {s0 s : State} (h : State.Within T s0 s) (hT : [.queues] ⊆ T) (queue : Fin 256) : WithinRes T s0 (execQueueReadbackDone queue s) := by
  unfold execQueueReadbackDone
  repeat' (first | with_reducible assumption | exact part_trans (by decide) hT | intro _ | extract_lets | with_reducible apply withinRes_next | with_reducible apply withinRes_ite | with_reducible apply within_ite | with_reducible apply State.setQueue_within | fail_if_no_progress ((with_reducible apply within_upd) <;> first | with_reducible exact Or.inl rfl | exact Or.inr (hT (by decide)) | skip) | exact Or.inl (hT (by decide)) | exact Or.inr (hT (by simp)) | split | dsimp +zetaDelta only)

theorem execQueueDropRemainder_within {T : List Part} {s0 s : State} (h : State.Within T s0 s) (hT : [.block 15, .ms, .notes, .queues, .resp] ⊆ T) (queue : Fin 256) : WithinRes T s0 (execQueueDropRemainder queue s) := by
  unfold execQueueDropRemainder
  repeat' (first | with_reducible assumption | exact part_trans (by decide) hT | intro _ | extract_lets | with_reducible apply withinRes_next | with_reducible apply withinRes_ite | with_reducible apply within_ite | with_reducible apply State.dropRemainder_within | fail_if_no_progress ((with_reducible apply within_upd) <;> first | with_reducible exact Or.inl rfl | exact Or.inr (hT (by decide)) | skip) | exact Or.inl (hT (by decide)) | exact Or.inr (hT (by simp)) | split | dsimp +zetaDelta only)

theorem State.queueClear_within {T : List Part} {s0 s : State} (h : State.Within T s0 s) (hT : [.block 15, .resp] ⊆ T) (q : Nat) : State.Within T s0 (State.queueClear s q) := by
  unfold State.queueClear
  repeat' (first | with_reducible assumption | exact part_trans (by decide) hT | with_reducible intro _ | with_reducible apply within_ite | with_reducible apply State.queueRefuse_within | with_reducible apply State.setReg_within | with_reducible apply State.answer_within | exact Or.inl (hT (by decide)) | exact Or.inr (hT (by simp)))

theorem execQueueClearCount_within {T : List Part} {s0 s : State} (h : State.Within T s0 s) (hT : [.block 15, .resp] ⊆ T) (queue : Fin 256) : WithinRes T s0 (execQueueClearCount queue s) := by
  unfold execQueueClearCount
  repeat' (first | with_reducible assumption | exact part_trans (by decide) hT | intro _ | extract_lets | with_reducible apply withinRes_next | with_reducible apply withinRes_ite | with_reducible apply within_ite | with_reducible apply State.queueClear_within | fail_if_no_progress ((with_reducible apply within_upd) <;> first | with_reducible exact Or.inl rfl | exact Or.inr (hT (by decide)) | skip) | exact Or.inl (hT (by decide)) | exact Or.inr (hT (by simp)) | split | dsimp +zetaDelta only)

theorem State.writeWm_within {T : List Part} {s0 s : State} (h : State.Within T s0 s) (hT : [.block 15, .notes, .queues, .resp] ⊆ T) (q : Nat) (high : Nat) (low : Nat) : State.Within T s0 (State.writeWm s q high low) := by
  unfold State.writeWm
  repeat' (first | with_reducible assumption | exact part_trans (by decide) hT | with_reducible intro _ | with_reducible apply State.answer_within | with_reducible apply State.setF_within | with_reducible apply State.watermark_within | with_reducible apply State.queueRefuse_within | exact Or.inl (hT (by decide)) | exact Or.inr (hT (by simp)) | with_reducible split)

theorem execQueueWmWrite_within {T : List Part} {s0 s : State} (h : State.Within T s0 s) (hT : [.block 15, .notes, .queues, .resp] ⊆ T) (high : Fin 65536) (low : Fin 65536) : WithinRes T s0 (execQueueWmWrite high low s) := by
  unfold execQueueWmWrite
  repeat' (first | with_reducible assumption | exact part_trans (by decide) hT | intro _ | extract_lets | with_reducible apply withinRes_next | with_reducible apply withinRes_ite | with_reducible apply within_ite | with_reducible apply State.writeWm_within | fail_if_no_progress ((with_reducible apply within_upd) <;> first | with_reducible exact Or.inl rfl | exact Or.inr (hT (by decide)) | skip) | exact Or.inl (hT (by decide)) | exact Or.inr (hT (by simp)) | split | dsimp +zetaDelta only)

theorem State.leaseTie_within {T : List Part} {s0 s : State} (h : State.Within T s0 s) (hT : [.out] ⊆ T) (kind : Nat) (count : Nat) (ext : Nat) : State.Within T s0 (State.leaseTie s kind count ext) := by
  unfold State.leaseTie
  repeat' (first | with_reducible assumption | exact part_trans (by decide) hT | intro _ | extract_lets | with_reducible apply within_ite | with_reducible apply State.emit_within | fail_if_no_progress ((with_reducible apply within_upd) <;> first | with_reducible exact Or.inl rfl | exact Or.inr (hT (by decide)) | skip) | exact Or.inl (hT (by decide)) | exact Or.inr (hT (by simp)) | split | dsimp +zetaDelta only)

theorem State.leaseWitness_within {T : List Part} {s0 s : State} (h : State.Within T s0 s) (hT : [.out, .pa] ⊆ T) (kind : Nat) (count : Nat) (ext : Nat) : State.Within T s0 (State.leaseWitness s kind count ext) := by
  unfold State.leaseWitness
  repeat' (first | with_reducible assumption | exact part_trans (by decide) hT | intro _ | extract_lets | with_reducible apply within_ite | with_reducible apply State.each_within | with_reducible apply State.emit_within | fail_if_no_progress ((with_reducible apply within_upd) <;> first | with_reducible exact Or.inl rfl | exact Or.inr (hT (by decide)) | skip) | exact Or.inl (hT (by decide)) | exact Or.inr (hT (by simp)) | split | dsimp +zetaDelta only)

theorem State.leaseOut_within {T : List Part} {s0 s : State} (h : State.Within T s0 s) (hT : [.out, .pa] ⊆ T) (kind : Nat) (count : Nat) (ext : Nat) : State.Within T s0 (State.leaseOut s kind count ext) := by
  unfold State.leaseOut
  repeat' (first | with_reducible assumption | exact part_trans (by decide) hT | intro _ | extract_lets | with_reducible apply within_ite | with_reducible apply State.leaseTie_within | with_reducible apply State.leaseWitness_within | fail_if_no_progress ((with_reducible apply within_upd) <;> first | with_reducible exact Or.inl rfl | exact Or.inr (hT (by decide)) | skip) | exact Or.inl (hT (by decide)) | exact Or.inr (hT (by simp)) | split | dsimp +zetaDelta only)

theorem State.mirrorOut_within {T : List Part} {s0 s : State} (h : State.Within T s0 s) (hT : [.out, .pa] ⊆ T) (r : MirrorRec) : State.Within T s0 (State.mirrorOut s r) := by
  unfold State.mirrorOut
  repeat' (first | with_reducible assumption | exact part_trans (by decide) hT | intro _ | extract_lets | with_reducible apply within_ite | with_reducible apply State.amrekOut_within | fail_if_no_progress ((with_reducible apply within_upd) <;> first | with_reducible exact Or.inl rfl | exact Or.inr (hT (by decide)) | skip) | exact Or.inl (hT (by decide)) | exact Or.inr (hT (by simp)) | split | dsimp +zetaDelta only)

theorem State.journalAdd_within {T : List Part} {s0 s : State} (h : State.Within T s0 s) (hT : [.block 21, .out, .pa] ⊆ T) (kind : Nat) (sync : Bool) (region : Nat) (target : Nat) (data : List Byte) : State.Within T s0 (State.journalAdd s kind sync region target data) := by
  unfold State.journalAdd
  repeat' (first | with_reducible assumption | exact part_trans (by decide) hT | intro _ | extract_lets | with_reducible apply within_ite | with_reducible apply State.setF_within | with_reducible apply State.leaseOut_within | with_reducible apply State.mirrorOut_within | fail_if_no_progress ((with_reducible apply within_upd) <;> first | with_reducible exact Or.inl rfl | exact Or.inr (hT (by decide)) | skip) | exact Or.inl (hT (by decide)) | exact Or.inr (hT (by simp)) | split | dsimp +zetaDelta only)

theorem State.journalWrite_within {T : List Part} {s0 s : State} (h : State.Within T s0 s) (hT : [.block 21, .out, .pa] ⊆ T) (region : Nat) (off : Nat) (data : List Byte) : State.Within T s0 (State.journalWrite s region off data) := by
  unfold State.journalWrite
  repeat' (first | with_reducible assumption | exact part_trans (by decide) hT | intro _ | extract_lets | with_reducible apply within_ite | with_reducible apply State.each_within | with_reducible apply State.journalAdd_within | fail_if_no_progress ((with_reducible apply within_upd) <;> first | with_reducible exact Or.inl rfl | exact Or.inr (hT (by decide)) | skip) | exact Or.inl (hT (by decide)) | exact Or.inr (hT (by simp)) | split | dsimp +zetaDelta only)

theorem State.journalAt_within {T : List Part} {s0 s : State} (h : State.Within T s0 s) (hT : [.block 21, .out, .pa] ⊆ T) (a : Nat) (data : List Byte) : State.Within T s0 (State.journalAt s a data) := by
  unfold State.journalAt
  repeat' (first | with_reducible assumption | exact part_trans (by decide) hT | with_reducible intro _ | with_reducible apply within_ite | with_reducible apply State.journalWrite_within | exact Or.inl (hT (by decide)) | exact Or.inr (hT (by simp)) | with_reducible split)

theorem State.mirrorSlot_within {T : List Part} {s0 s : State} (h : State.Within T s0 s) (hT : [.block 21, .out, .pa] ⊆ T) (k : Nat) (attr : Nat) (mat : Nat) (octets : Nat) : State.Within T s0 (State.mirrorSlot s k attr mat octets) := by
  unfold State.mirrorSlot
  repeat' (first | with_reducible assumption | exact part_trans (by decide) hT | with_reducible intro _ | with_reducible apply State.journalAdd_within | exact Or.inl (hT (by decide)) | exact Or.inr (hT (by simp)) | with_reducible split)

theorem State.mirrorDestroy_within {T : List Part} {s0 s : State} (h : State.Within T s0 s) (hT : [.block 21, .out, .pa] ⊆ T) (k : Nat) (attr : Nat) : State.Within T s0 (State.mirrorDestroy s k attr) := by
  unfold State.mirrorDestroy
  repeat' (first | with_reducible assumption | exact part_trans (by decide) hT | with_reducible intro _ | with_reducible apply within_ite | with_reducible apply State.journalAdd_within | exact Or.inl (hT (by decide)) | exact Or.inr (hT (by simp)))

theorem State.eccError_within {T : List Part} {s0 s : State} (h : State.Within T s0 s) (hT : [.block 16, .notes] ⊆ T) (kind : Nat) (addr : Nat) : State.Within T s0 (State.eccError s kind addr) := by
  unfold State.eccError
  repeat' (first | with_reducible assumption | exact part_trans (by decide) hT | with_reducible intro _ | with_reducible apply within_ite | with_reducible apply State.bump_within | with_reducible apply State.raise_within | with_reducible apply State.setF_within | exact Or.inl (hT (by decide)) | exact Or.inr (hT (by simp)))

theorem State.memRefuse_within {T : List Part} {s0 s : State} (h : State.Within T s0 s) (hT : [.block 16, .resp] ⊆ T) (st : Nat) : State.Within T s0 (State.memRefuse s st) := by
  unfold State.memRefuse
  repeat' (first | with_reducible assumption | exact part_trans (by decide) hT | with_reducible apply State.refuse_within | exact Or.inl (hT (by decide)) | exact Or.inr (hT (by simp)))

theorem State.showPools_within {T : List Part} {s0 s : State} (h : State.Within T s0 s) (hT : [.block 16] ⊆ T) : State.Within T s0 (State.showPools s) := by
  unfold State.showPools
  repeat' (first | with_reducible assumption | exact part_trans (by decide) hT | with_reducible apply State.setF_within | exact Or.inl (hT (by decide)) | exact Or.inr (hT (by simp)))

theorem State.takeSmall_within {T : List Part} {s0 s : State} (h : State.Within T s0 s) (hT : [.block 16, .freeIx, .ms] ⊆ T) : WithinO T s0 (State.takeSmall s) := by
  unfold State.takeSmall
  repeat' (first | with_reducible assumption | exact part_trans (by decide) hT | with_reducible apply withinO_some | with_reducible apply withinO_none | with_reducible apply withinO_ite | with_reducible apply State.useFree_within | with_reducible apply State.showPools_within | with_reducible apply within1_ite | with_reducible apply within2_ite | with_reducible apply withinO_some | with_reducible apply withinO_none | with_reducible apply withinO_ite | fail_if_no_progress ((with_reducible apply within_upd) <;> first | with_reducible exact Or.inl rfl | exact Or.inr (hT (by decide)) | skip) | with_reducible split | with_reducible apply within1_mk | with_reducible apply within2_mk | exact Or.inl (hT (by decide)) | exact Or.inr (hT (by simp)))

theorem State.takeLarge_within {T : List Part} {s0 s : State} (h : State.Within T s0 s) (hT : [.block 16, .freeIx, .ms] ⊆ T) : WithinO T s0 (State.takeLarge s) := by
  unfold State.takeLarge
  repeat' (first | with_reducible assumption | exact part_trans (by decide) hT | with_reducible apply withinO_some | with_reducible apply withinO_none | with_reducible apply withinO_ite | with_reducible apply State.useFree_within | with_reducible apply State.showPools_within | with_reducible apply within1_ite | with_reducible apply within2_ite | with_reducible apply withinO_some | with_reducible apply withinO_none | with_reducible apply withinO_ite | fail_if_no_progress ((with_reducible apply within_upd) <;> first | with_reducible exact Or.inl rfl | exact Or.inr (hT (by decide)) | skip) | with_reducible split | with_reducible apply within1_mk | with_reducible apply within2_mk | exact Or.inl (hT (by decide)) | exact Or.inr (hT (by simp)))

theorem State.rxTake_within {T : List Part} {s0 s : State} (h : State.Within T s0 s) (hT : [.block 16, .freeIx, .ms] ⊆ T) (len : Nat) : WithinO T s0 (State.rxTake s len) := by
  unfold State.rxTake
  repeat' (first | with_reducible assumption | exact part_trans (by decide) hT | with_reducible intro _ | with_reducible apply withinO_some | with_reducible apply withinO_none | with_reducible apply withinO_ite | with_reducible refine withinO_elim (by assumption) (State.takeSmall_within ?_ ?_) | with_reducible apply State.takeLarge_within | with_reducible apply within1_ite | with_reducible apply within2_ite | with_reducible apply withinO_some | with_reducible apply withinO_none | with_reducible apply withinO_ite | with_reducible split | with_reducible apply within1_mk | with_reducible apply within2_mk | exact Or.inl (hT (by decide)) | exact Or.inr (hT (by simp)))

theorem State.rxFree_within {T : List Part} {s0 s : State} (h : State.Within T s0 s) (hT : [.block 16, .ms] ⊆ T) (k : Nat) : State.Within T s0 (State.rxFree s k) := by
  unfold State.rxFree
  repeat' (first | with_reducible assumption | exact part_trans (by decide) hT | with_reducible intro _ | with_reducible apply within_ite | with_reducible apply State.showPools_within | fail_if_no_progress ((with_reducible apply within_upd) <;> first | with_reducible exact Or.inl rfl | exact Or.inr (hT (by decide)) | skip) | exact Or.inl (hT (by decide)) | exact Or.inr (hT (by simp)))

theorem State.takeChunks_within {T : List Part} {s0 s : State} (h : State.Within T s0 s) (hT : [.ms] ⊆ T) (c : Nat) (addr : Nat) (x0 : List Nat) : WithinO T s0 (State.takeChunks s c addr x0) := by
  induction x0 generalizing s with
  | nil => exact withinO_some h
  | cons y l ih =>
    unfold State.takeChunks
    split
    · exact withinO_none
    · split
      · exact withinO_none
      · rename_i heq
        exact withinO_some (withinO_elim heq (ih (by apply within_upd h <;> first | exact Or.inl rfl | exact Or.inr (hT (by decide)))))

theorem State.dramSlots_within {T : List Part} {s0 s : State} (h : State.Within T s0 s) (hT : [.ms] ⊆ T) (r : DramReq) (asRun : Bool) (ks : List Nat) : WithinO T s0 (State.dramSlots s r asRun ks) := by
  unfold State.dramSlots
  repeat' (first | with_reducible assumption | exact part_trans (by decide) hT | intro _ | extract_lets | with_reducible apply within_ite | with_reducible apply State.takeChunks_within | refine withinO_elim (by with_reducible assumption) (State.takeChunks_within ?_ ?_ _ _ _) | with_reducible apply withinO_some | with_reducible apply withinO_none | with_reducible apply withinO_ite | fail_if_no_progress ((with_reducible apply within_upd) <;> first | with_reducible exact Or.inl rfl | exact Or.inr (hT (by decide)) | skip) | exact Or.inl (hT (by decide)) | exact Or.inr (hT (by simp)) | split | dsimp +zetaDelta only)

theorem State.dramAssign_within {T : List Part} {s0 s : State} (h : State.Within T s0 s) (hT : [.ms] ⊆ T) (r : DramReq) (ks : List Nat) : State.Within T s0 (State.dramAssign s r ks) := by
  unfold State.dramAssign
  repeat' (first | with_reducible assumption | exact part_trans (by decide) hT | intro _ | extract_lets | with_reducible apply within_ite | with_reducible apply State.dramSlots_within | refine withinO_elim (by with_reducible assumption) (State.dramSlots_within ?_ ?_ _ _ _) | fail_if_no_progress ((with_reducible apply within_upd) <;> first | with_reducible exact Or.inl rfl | exact Or.inr (hT (by decide)) | skip) | exact Or.inl (hT (by decide)) | exact Or.inr (hT (by simp)) | split | dsimp +zetaDelta only)

theorem State.dramServe_within {T : List Part} {s0 s : State} (h : State.Within T s0 s) (hT : [.ms] ⊆ T) (r : DramReq) : State.Within T s0 (State.dramServe s r) := by
  unfold State.dramServe
  repeat' (first | with_reducible assumption | exact part_trans (by decide) hT | intro _ | extract_lets | with_reducible apply within_ite | with_reducible apply State.dramAssign_within | fail_if_no_progress ((with_reducible apply within_upd) <;> first | with_reducible exact Or.inl rfl | exact Or.inr (hT (by decide)) | skip) | exact Or.inl (hT (by decide)) | exact Or.inr (hT (by simp)) | split | dsimp +zetaDelta only)

theorem State.dramChunk_within {T : List Part} {s0 s : State} (h : State.Within T s0 s) (hT : [.mem, .ms] ⊆ T) (i : Nat) (slot : Nat) (k : Nat) : State.Within T s0 (State.dramChunk s i slot k) := by
  unfold State.dramChunk
  repeat' (first | with_reducible assumption | exact part_trans (by decide) hT | intro _ | extract_lets | with_reducible apply within_ite | with_reducible apply State.writeBytes_within | fail_if_no_progress ((with_reducible apply within_upd) <;> first | with_reducible exact Or.inl rfl | exact Or.inr (hT (by decide)) | skip) | exact Or.inl (hT (by decide)) | exact Or.inr (hT (by simp)) | split | dsimp +zetaDelta only)

theorem State.dramCarry_within {T : List Part} {s0 s : State} (h : State.Within T s0 s) (hT : [.mem, .ms] ⊆ T) (limit : Nat) (x0 : Nat) : State.Within T s0 (State.dramCarry s limit x0) := by
  induction x0 generalizing s limit with
  | zero =>
    unfold State.dramCarry
    repeat' (first | with_reducible assumption | exact part_trans (by decide) hT | intro _ | extract_lets | with_reducible apply within_ite | with_reducible apply State.dramChunk_within | fail_if_no_progress ((with_reducible apply within_upd) <;> first | with_reducible exact Or.inl rfl | exact Or.inr (hT (by decide)) | skip) | exact Or.inl (hT (by decide)) | exact Or.inr (hT (by simp)) | split | dsimp +zetaDelta only)
  | succ k ih =>
    unfold State.dramCarry
    repeat' (first | with_reducible assumption | exact part_trans (by decide) hT | intro _ | extract_lets | with_reducible apply within_ite | with_reducible apply State.dramChunk_within | with_reducible apply ih | fail_if_no_progress ((with_reducible apply within_upd) <;> first | with_reducible exact Or.inl rfl | exact Or.inr (hT (by decide)) | skip) | exact Or.inl (hT (by decide)) | exact Or.inr (hT (by simp)) | split | dsimp +zetaDelta only)

theorem State.dramAnew_within {T : List Part} {s0 s : State} (h : State.Within T s0 s) (hT : [.ms] ⊆ T) : State.Within T s0 (State.dramAnew s) := by
  unfold State.dramAnew
  repeat' (first | with_reducible assumption | exact part_trans (by decide) hT | intro _ | extract_lets | with_reducible apply within_ite | with_reducible apply State.each_within | with_reducible apply State.dramAssign_within | fail_if_no_progress ((with_reducible apply within_upd) <;> first | with_reducible exact Or.inl rfl | exact Or.inr (hT (by decide)) | skip) | exact Or.inl (hT (by decide)) | exact Or.inr (hT (by simp)) | split | dsimp +zetaDelta only)

theorem State.forgetSlots_within {T : List Part} {s0 s : State} (h : State.Within T s0 s) (hT : [.ms] ⊆ T) : State.Within T s0 (State.forgetSlots s) := by
  unfold State.forgetSlots
  repeat' (first | with_reducible assumption | exact part_trans (by decide) hT | fail_if_no_progress ((with_reducible apply within_upd) <;> first | with_reducible exact Or.inl rfl | exact Or.inr (hT (by decide)) | skip) | exact Or.inl (hT (by decide)) | exact Or.inr (hT (by simp)))

theorem execDramReadDone_within {T : List Part} {s0 s : State} (h : State.Within T s0 s) (hT : [.mem, .ms, .mtb, .out] ⊆ T) (cls : Fin 16) : WithinRes T s0 (execDramReadDone cls s) := by
  unfold execDramReadDone
  repeat' (first | with_reducible assumption | exact part_trans (by decide) hT | intro _ | extract_lets | with_reducible apply withinRes_next | with_reducible apply withinRes_ite | with_reducible apply within_ite | with_reducible apply State.dramCarry_within | with_reducible apply State.advance_within | with_reducible apply State.emit_within | fail_if_no_progress ((with_reducible apply within_upd) <;> first | with_reducible exact Or.inl rfl | exact Or.inr (hT (by decide)) | skip) | exact Or.inl (hT (by decide)) | exact Or.inr (hT (by simp)) | split | dsimp +zetaDelta only)

theorem execDramWriteDone_within {T : List Part} {s0 s : State} (h : State.Within T s0 s) (hT : [.block 21, .mem, .ms, .mtb, .out, .pa] ⊆ T) (cls : Fin 16) : WithinRes T s0 (execDramWriteDone cls s) := by
  unfold execDramWriteDone
  repeat' (first | with_reducible assumption | exact part_trans (by decide) hT | intro _ | extract_lets | with_reducible apply withinRes_next | with_reducible apply withinRes_ite | with_reducible apply within_ite | with_reducible apply State.dramCarry_within | with_reducible apply State.advance_within | with_reducible apply State.journalAt_within | fail_if_no_progress ((with_reducible apply within_upd) <;> first | with_reducible exact Or.inl rfl | exact Or.inr (hT (by decide)) | skip) | exact Or.inl (hT (by decide)) | exact Or.inr (hT (by simp)) | split | dsimp +zetaDelta only)

theorem execDramRefreshSlot_within {T : List Part} {s0 s : State} (h : State.Within T s0 s) (hT : [.ms, .out] ⊆ T) (bank : Fin 8) (due : Bool) : WithinRes T s0 (execDramRefreshSlot bank due s) := by
  unfold execDramRefreshSlot
  repeat' (first | with_reducible assumption | exact part_trans (by decide) hT | intro _ | extract_lets | with_reducible apply withinRes_next | with_reducible apply withinRes_ite | with_reducible apply within_ite | with_reducible apply State.emit_within | fail_if_no_progress ((with_reducible apply within_upd) <;> first | with_reducible exact Or.inl rfl | exact Or.inr (hT (by decide)) | skip) | exact Or.inl (hT (by decide)) | exact Or.inr (hT (by simp)) | split | dsimp +zetaDelta only)

theorem execDramScheduleSwitch_within {T : List Part} {s0 s : State} (h : State.Within T s0 s) (hT : [.block 16, .mem, .ms, .mtb] ⊆ T) : WithinRes T s0 (execDramScheduleSwitch s) := by
  unfold execDramScheduleSwitch
  repeat' (first | with_reducible assumption | exact part_trans (by decide) hT | intro _ | extract_lets | with_reducible apply withinRes_next | with_reducible apply withinRes_ite | with_reducible apply within_ite | with_reducible apply State.advance_within | with_reducible apply State.dramCarry_within | with_reducible apply State.setF_within | with_reducible apply State.dramAnew_within | fail_if_no_progress ((with_reducible apply within_upd) <;> first | with_reducible exact Or.inl rfl | exact Or.inr (hT (by decide)) | skip) | exact Or.inl (hT (by decide)) | exact Or.inr (hT (by simp)) | split | dsimp +zetaDelta only)

theorem execMemBufTake_within {T : List Part} {s0 s : State} (h : State.Within T s0 s) (hT : [.freeIx, .ms, .out] ⊆ T) : WithinRes T s0 (execMemBufTake s) := by
  unfold execMemBufTake
  repeat' (first | with_reducible assumption | exact part_trans (by decide) hT | intro _ | extract_lets | with_reducible apply withinRes_next | with_reducible apply withinRes_ite | with_reducible apply within_ite | with_reducible apply State.pktTake_within | refine within2_elim (by with_reducible assumption) (State.pktTake_within ?_ ?_) | with_reducible apply within2_snd | with_reducible apply State.emit_within | fail_if_no_progress ((with_reducible apply within_upd) <;> first | with_reducible exact Or.inl rfl | exact Or.inr (hT (by decide)) | skip) | exact Or.inl (hT (by decide)) | exact Or.inr (hT (by simp)) | split | dsimp +zetaDelta only)

theorem State.memBufReturn_within {T : List Part} {s0 s : State} (h : State.Within T s0 s) (hT : [.block 16, .ms, .resp] ⊆ T) (a : Nat) : State.Within T s0 (State.memBufReturn s a) := by
  unfold State.memBufReturn
  repeat' (first | with_reducible assumption | exact part_trans (by decide) hT | with_reducible intro _ | with_reducible apply State.pktFree_within | with_reducible apply State.answer_within | with_reducible apply State.memRefuse_within | exact Or.inl (hT (by decide)) | exact Or.inr (hT (by simp)) | with_reducible split)

theorem execMemBufReturn_within {T : List Part} {s0 s : State} (h : State.Within T s0 s) (hT : [.block 16, .ms, .resp] ⊆ T) (addr : Word) : WithinRes T s0 (execMemBufReturn addr s) := by
  unfold execMemBufReturn
  repeat' (first | with_reducible assumption | exact part_trans (by decide) hT | intro _ | extract_lets | with_reducible apply withinRes_next | with_reducible apply withinRes_ite | with_reducible apply within_ite | with_reducible apply State.memBufReturn_within | fail_if_no_progress ((with_reducible apply within_upd) <;> first | with_reducible exact Or.inl rfl | exact Or.inr (hT (by decide)) | skip) | exact Or.inl (hT (by decide)) | exact Or.inr (hT (by simp)) | split | dsimp +zetaDelta only)

theorem State.nandStart_within {T : List Part} {s0 s : State} (h : State.Within T s0 s) (hT : [.block 16, .ms] ⊆ T) : State.Within T s0 (State.nandStart s) := by
  unfold State.nandStart
  repeat' (first | with_reducible assumption | exact part_trans (by decide) hT | intro _ | extract_lets | with_reducible apply within_ite | with_reducible apply State.setF_within | fail_if_no_progress ((with_reducible apply within_upd) <;> first | with_reducible exact Or.inl rfl | exact Or.inr (hT (by decide)) | skip) | exact Or.inl (hT (by decide)) | exact Or.inr (hT (by simp)) | split | dsimp +zetaDelta only)

theorem State.nandSubmit_within {T : List Part} {s0 s : State} (h : State.Within T s0 s) (hT : [.block 16, .ms] ⊆ T) (o : NandOp) : State.Within T s0 (State.nandSubmit s o) := by
  unfold State.nandSubmit
  repeat' (first | with_reducible assumption | exact part_trans (by decide) hT | intro _ | extract_lets | with_reducible apply within_ite | with_reducible apply State.nandStart_within | fail_if_no_progress ((with_reducible apply within_upd) <;> first | with_reducible exact Or.inl rfl | exact Or.inr (hT (by decide)) | skip) | exact Or.inl (hT (by decide)) | exact Or.inr (hT (by simp)) | split | dsimp +zetaDelta only)

theorem State.nandCmd_within {T : List Part} {s0 s : State} (h : State.Within T s0 s) (hT : [.block 1, .block 16, .ms, .resp] ⊆ T) (op : Nat) (count : Nat) : State.Within T s0 (State.nandCmd s op count) := by
  unfold State.nandCmd
  repeat' (first | with_reducible assumption | exact part_trans (by decide) hT | intro _ | extract_lets | with_reducible apply within_ite | with_reducible apply State.memRefuse_within | with_reducible apply State.gatedRefuse_within | with_reducible apply State.answer_within | with_reducible apply State.nandSubmit_within | fail_if_no_progress ((with_reducible apply within_upd) <;> first | with_reducible exact Or.inl rfl | exact Or.inr (hT (by decide)) | skip) | exact Or.inl (hT (by decide)) | exact Or.inr (hT (by simp)) | split | dsimp +zetaDelta only)

theorem execNandRead_within {T : List Part} {s0 s : State} (h : State.Within T s0 s) (hT : [.block 1, .block 16, .ms, .resp] ⊆ T) (count : Fin 128) : WithinRes T s0 (execNandRead count s) := by
  unfold execNandRead
  repeat' (first | with_reducible assumption | exact part_trans (by decide) hT | intro _ | extract_lets | with_reducible apply withinRes_next | with_reducible apply withinRes_ite | with_reducible apply within_ite | with_reducible apply State.nandCmd_within | fail_if_no_progress ((with_reducible apply within_upd) <;> first | with_reducible exact Or.inl rfl | exact Or.inr (hT (by decide)) | skip) | exact Or.inl (hT (by decide)) | exact Or.inr (hT (by simp)) | split | dsimp +zetaDelta only)

theorem execNandProgram_within {T : List Part} {s0 s : State} (h : State.Within T s0 s) (hT : [.block 1, .block 16, .ms, .resp] ⊆ T) (count : Fin 128) : WithinRes T s0 (execNandProgram count s) := by
  unfold execNandProgram
  repeat' (first | with_reducible assumption | exact part_trans (by decide) hT | intro _ | extract_lets | with_reducible apply withinRes_next | with_reducible apply withinRes_ite | with_reducible apply within_ite | with_reducible apply State.nandCmd_within | fail_if_no_progress ((with_reducible apply within_upd) <;> first | with_reducible exact Or.inl rfl | exact Or.inr (hT (by decide)) | skip) | exact Or.inl (hT (by decide)) | exact Or.inr (hT (by simp)) | split | dsimp +zetaDelta only)

theorem execNandErase_within {T : List Part} {s0 s : State} (h : State.Within T s0 s) (hT : [.block 1, .block 16, .ms, .resp] ⊆ T) (count : Fin 128) : WithinRes T s0 (execNandErase count s) := by
  unfold execNandErase
  repeat' (first | with_reducible assumption | exact part_trans (by decide) hT | intro _ | extract_lets | with_reducible apply withinRes_next | with_reducible apply withinRes_ite | with_reducible apply within_ite | with_reducible apply State.nandCmd_within | fail_if_no_progress ((with_reducible apply within_upd) <;> first | with_reducible exact Or.inl rfl | exact Or.inr (hT (by decide)) | skip) | exact Or.inl (hT (by decide)) | exact Or.inr (hT (by simp)) | split | dsimp +zetaDelta only)

theorem State.programPages_within {T : List Part} {s0 s : State} (h : State.Within T s0 s) (hT : [.flash, .ms] ⊆ T) (page : Nat) (count : Nat) (d : List Byte) : State.Within T s0 (State.programPages s page count d) := by
  unfold State.programPages
  repeat' (first | with_reducible assumption | exact part_trans (by decide) hT | with_reducible apply State.flashWrite_within | fail_if_no_progress ((with_reducible apply within_upd) <;> first | with_reducible exact Or.inl rfl | exact Or.inr (hT (by decide)) | skip) | exact Or.inl (hT (by decide)) | exact Or.inr (hT (by simp)))

theorem State.erasePages_within {T : List Part} {s0 s : State} (h : State.Within T s0 s) (hT : [.flash, .ms] ⊆ T) (page : Nat) (count : Nat) : State.Within T s0 (State.erasePages s page count) := by
  have h1 : State.Within T s0 (⟨s.regs, s.mem, s.flash.filter (fun c => c.1 < 4096 * page || 4096 * (page + count) ≤ c.1), s.pending,
      s.out, s.resp, s.notes, s.mtb, s.freeIx, s.pr, s.clk, s.su, s.queues, s.ms, s.pl, s.gd, s.tm, s.ky, s.ro, s.cmp, s.rd, s.mac, s.sl,
      s.pa, s.ry, s.upl0, s.upl1, s.tie, s.svc, s.up⟩ : State) :=
    within_data h rfl (fun i => ⟨i.1, i.2.1, Store.wf_filter _ _ _ i.2.2⟩) (Or.inl rfl) (Or.inr (hT (by decide))) (fun _ _ _ _ => rfl)
  unfold State.erasePages
  apply within_upd h1 <;> first | exact Or.inl rfl | exact Or.inr (hT (by decide))

theorem State.nandEffect_within {T : List Part} {s0 s : State} (h : State.Within T s0 s) (hT : [.flash, .freeIx, .mem, .ms] ⊆ T) (o : NandOp) (ok : Bool) : State.Within T s0 (State.nandEffect s o ok) := by
  unfold State.nandEffect
  repeat' (first | with_reducible assumption | exact part_trans (by decide) hT | with_reducible intro _ | with_reducible apply within_ite | with_reducible apply State.writeBytes_within | with_reducible apply State.programPages_within | with_reducible apply State.useFree_within | with_reducible apply State.erasePages_within | exact Or.inl (hT (by decide)) | exact Or.inr (hT (by simp)))

theorem State.memClear_within {T : List Part} {s0 s : State} (h : State.Within T s0 s) (hT : [.block 16, .ms] ⊆ T) : State.Within T s0 (State.memClear s) := by
  unfold State.memClear
  repeat' (first | with_reducible assumption | exact part_trans (by decide) hT | with_reducible apply State.setReg_within | with_reducible apply State.setF_within | fail_if_no_progress ((with_reducible apply within_upd) <;> first | with_reducible exact Or.inl rfl | exact Or.inr (hT (by decide)) | skip) | exact Or.inl (hT (by decide)) | exact Or.inr (hT (by simp)))

theorem execMemCountClear_within {T : List Part} {s0 s : State} (h : State.Within T s0 s) (hT : [.block 16, .ms, .resp] ⊆ T) : WithinRes T s0 (execMemCountClear s) := by
  unfold execMemCountClear
  repeat' (first | with_reducible assumption | exact part_trans (by decide) hT | intro _ | extract_lets | with_reducible apply withinRes_next | with_reducible apply withinRes_ite | with_reducible apply within_ite | with_reducible apply State.memClear_within | with_reducible apply State.answer_within | fail_if_no_progress ((with_reducible apply within_upd) <;> first | with_reducible exact Or.inl rfl | exact Or.inr (hT (by decide)) | skip) | exact Or.inl (hT (by decide)) | exact Or.inr (hT (by simp)) | split | dsimp +zetaDelta only)

theorem State.frameIn_within {T : List Part} {s0 s : State} (h : State.Within T s0 s) (hT : [.freeIx, .ms] ⊆ T) (len : Nat) : WithinO T s0 (State.frameIn s len) := by
  unfold State.frameIn
  repeat' (first | with_reducible assumption | exact part_trans (by decide) hT | with_reducible intro _ | with_reducible apply withinO_some | with_reducible apply withinO_none | with_reducible apply withinO_ite | with_reducible refine within2_elim (by assumption) (State.pktTake_within ?_ ?_) | with_reducible apply within2_snd | with_reducible apply within1_ite | with_reducible apply within2_ite | with_reducible apply withinO_some | with_reducible apply withinO_none | with_reducible apply withinO_ite | with_reducible split | with_reducible apply within1_mk | with_reducible apply within2_mk | exact Or.inl (hT (by decide)) | exact Or.inr (hT (by simp)))

theorem State.frameDrop_within {T : List Part} {s0 s : State} (h : State.Within T s0 s) (hT : [.block 16, .notes, .resp] ⊆ T) (len : Nat) : State.Within T s0 (State.frameDrop s len) := by
  unfold State.frameDrop
  repeat' (first | with_reducible assumption | exact part_trans (by decide) hT | with_reducible apply State.bump_within | with_reducible apply State.raise_within | with_reducible apply State.answer_within | exact Or.inl (hT (by decide)) | exact Or.inr (hT (by simp)))

theorem State.auditAppend_within {T : List Part} {s0 s : State} (h : State.Within T s0 s) (hT : [.ro] ⊆ T) (d : AuditData) : State.Within T s0 (State.auditAppend s d) := by
  unfold State.auditAppend
  repeat' (first | with_reducible assumption | exact part_trans (by decide) hT | with_reducible intro _ | with_reducible apply within_ite | fail_if_no_progress ((with_reducible apply within_upd) <;> first | with_reducible exact Or.inl rfl | exact Or.inr (hT (by decide)) | skip) | exact Or.inl (hT (by decide)) | exact Or.inr (hT (by simp)))

theorem State.checkpoint?_within {T : List Part} {s0 s : State} (h : State.Within T s0 s) (hT : [.block 20, .freeIx, .notes, .ro] ⊆ T) : WithinOS T s0 (State.checkpoint? s) := by
  unfold State.checkpoint?
  repeat' (first | with_reducible assumption | exact part_trans (by decide) hT | with_reducible intro _ | with_reducible apply withinOS_some | with_reducible apply withinOS_none | with_reducible apply withinOS_ite | with_reducible apply State.useFree_within | with_reducible apply State.raise_within | with_reducible apply within1_ite | with_reducible apply within2_ite | with_reducible apply withinO_some | with_reducible apply withinO_none | with_reducible apply withinO_ite | fail_if_no_progress ((with_reducible apply within_upd) <;> first | with_reducible exact Or.inl rfl | exact Or.inr (hT (by decide)) | skip) | with_reducible apply within1_mk | with_reducible apply within2_mk | exact Or.inl (hT (by decide)) | exact Or.inr (hT (by simp)))

theorem State.checkpointDue_within {T : List Part} {s0 s : State} (h : State.Within T s0 s) (hT : [.block 20, .freeIx, .notes, .ro] ⊆ T) : State.Within T s0 (State.checkpointDue s) := by
  unfold State.checkpointDue
  repeat' (first | with_reducible assumption | exact part_trans (by decide) hT | with_reducible intro _ | with_reducible refine withinOS_elim (by assumption) (State.checkpoint?_within ?_ ?_) | exact Or.inl (hT (by decide)) | exact Or.inr (hT (by simp)) | with_reducible split)

theorem State.auditNote_within {T : List Part} {s0 s : State} (h : State.Within T s0 s) (hT : [.block 20, .freeIx, .notes, .ro] ⊆ T) (d : AuditData) : State.Within T s0 (State.auditNote s d) := by
  unfold State.auditNote
  repeat' (first | with_reducible assumption | exact part_trans (by decide) hT | with_reducible intro _ | with_reducible apply within_ite | with_reducible apply State.auditAppend_within | with_reducible apply State.checkpointDue_within | with_reducible apply State.raise_within | exact Or.inl (hT (by decide)) | exact Or.inr (hT (by simp)))

theorem State.audited_within {T : List Part} {s0 s : State} (h : State.Within T s0 s) (hT : [.block 20, .freeIx, .notes, .ro] ⊆ T) (d : AuditData) (busy : State → State) (f : State → State)  (hbusy : ∀ s, State.Within T s0 s → State.Within T s0 (busy s)) (hf : ∀ s, State.Within T s0 s → State.Within T s0 (f s)) : State.Within T s0 (State.audited s d busy f) := by
  unfold State.audited
  repeat' (first | with_reducible assumption | exact part_trans (by decide) hT | with_reducible intro _ | with_reducible apply within_ite | with_reducible apply State.auditAppend_within | with_reducible apply State.checkpointDue_within | with_reducible apply State.raise_within | with_reducible apply hbusy | with_reducible apply hf | exact Or.inl (hT (by decide)) | exact Or.inr (hT (by simp)))

theorem State.recorded_within {T : List Part} {s0 s : State} (h : State.Within T s0 s) (hT : [.block 20, .freeIx, .notes, .resp, .ro] ⊆ T) (w : Who) (addr val : Nat) (err : Field)
    (hF : .regs ∈ T ∨ .block (regBlock err.addr) ∈ T) (f : State → State) (hf : ∀ s, State.Within T s0 s → State.Within T s0 (f s)) :
    State.Within T s0 (State.recorded s w addr val err f) := by
  unfold State.recorded
  apply within_ite
  · intro _
    apply State.audited_within h (part_trans (by decide) hT)
    · intro s hs; exact State.refuse_within hs (part_trans (by decide) hT) err hF _
    · exact hf
  · intro _; exact hf s h

theorem State.finishCall_within {T : List Part} {s0 s : State} (h : State.Within T s0 s) (hT : [.cmp, .resp] ⊆ T) (ticket : Nat) (st : Nat) (result : List (Nat × List Nat)) : State.Within T s0 (State.finishCall s ticket st result) := by
  unfold State.finishCall
  repeat' (first | with_reducible assumption | exact part_trans (by decide) hT | with_reducible apply State.answer_within | fail_if_no_progress ((with_reducible apply within_upd) <;> first | with_reducible exact Or.inl rfl | exact Or.inr (hT (by decide)) | skip) | exact Or.inl (hT (by decide)) | exact Or.inr (hT (by simp)) | with_reducible split)

theorem State.recordedCall_within {T : List Part} {s0 s : State} (h : State.Within T s0 s) (hT : [.block 20, .cmp, .freeIx, .notes, .resp, .ro] ⊆ T) (kind : Nat) (ticket : Nat) (role : Nat) (op : Nat) (arg1 : Nat) (arg2 : Nat) (f : State → State)  (hf : ∀ s, State.Within T s0 s → State.Within T s0 (f s)) : State.Within T s0 (State.recordedCall s kind ticket role op arg1 arg2 f) := by
  unfold State.recordedCall
  repeat' (first | with_reducible assumption | exact part_trans (by decide) hT | with_reducible intro _ | with_reducible apply State.audited_within | with_reducible apply State.finishCall_within | with_reducible apply hf | exact Or.inl (hT (by decide)) | exact Or.inr (hT (by simp)))

theorem State.auditProgram_within {T : List Part} {s0 s : State} (h : State.Within T s0 s) (hT : [.block 20, .flash, .freeIx, .ms, .notes, .ro] ⊆ T) : State.Within T s0 (State.auditProgram s) := by
  unfold State.auditProgram
  repeat' (first | with_reducible assumption | exact part_trans (by decide) hT | with_reducible intro _ | with_reducible apply within_ite | with_reducible apply State.erasePages_within | with_reducible apply State.raise_within | with_reducible apply State.programPages_within | with_reducible apply State.checkpointDue_within | fail_if_no_progress ((with_reducible apply within_upd) <;> first | with_reducible exact Or.inl rfl | exact Or.inr (hT (by decide)) | skip) | exact Or.inl (hT (by decide)) | exact Or.inr (hT (by simp)) | with_reducible split)

theorem execAuditPageProgram_within {T : List Part} {s0 s : State} (h : State.Within T s0 s) (hT : [.block 20, .flash, .freeIx, .ms, .notes, .ro] ⊆ T) : WithinRes T s0 (execAuditPageProgram s) := by
  unfold execAuditPageProgram
  repeat' (first | with_reducible assumption | exact part_trans (by decide) hT | intro _ | extract_lets | with_reducible apply withinRes_next | with_reducible apply withinRes_ite | with_reducible apply within_ite | with_reducible apply State.auditProgram_within | fail_if_no_progress ((with_reducible apply within_upd) <;> first | with_reducible exact Or.inl rfl | exact Or.inr (hT (by decide)) | skip) | exact Or.inl (hT (by decide)) | exact Or.inr (hT (by simp)) | split | dsimp +zetaDelta only)

theorem execAuditRead_within {T : List Part} {s0 s : State} (h : State.Within T s0 s) (hT : [.cmp, .resp] ⊆ T) (ticket : Nat) (first : Nat) (count : Nat) : WithinRes T s0 (execAuditRead ticket first count s) := by
  unfold execAuditRead
  repeat' (first | with_reducible assumption | exact part_trans (by decide) hT | intro _ | extract_lets | with_reducible apply withinRes_next | with_reducible apply withinRes_ite | with_reducible apply within_ite | with_reducible apply State.finishCall_within | fail_if_no_progress ((with_reducible apply within_upd) <;> first | with_reducible exact Or.inl rfl | exact Or.inr (hT (by decide)) | skip) | exact Or.inl (hT (by decide)) | exact Or.inr (hT (by simp)) | split | dsimp +zetaDelta only)

theorem execAuditCheckpoint_within {T : List Part} {s0 s : State} (h : State.Within T s0 s) (hT : [.block 20, .cmp, .freeIx, .notes, .resp, .ro] ⊆ T) (ticket : Nat) : WithinRes T s0 (execAuditCheckpoint ticket s) := by
  unfold execAuditCheckpoint
  repeat' (first | with_reducible assumption | exact part_trans (by decide) hT | intro _ | extract_lets | with_reducible apply withinRes_next | with_reducible apply withinRes_ite | with_reducible apply within_ite | with_reducible apply State.recordedCall_within | with_reducible apply State.checkpoint?_within | refine withinOS_elim (by with_reducible assumption) (State.checkpoint?_within ?_ ?_) | with_reducible apply State.finishCall_within | with_reducible apply State.raise_within | fail_if_no_progress ((with_reducible apply within_upd) <;> first | with_reducible exact Or.inl rfl | exact Or.inr (hT (by decide)) | skip) | exact Or.inl (hT (by decide)) | exact Or.inr (hT (by simp)) | split | dsimp +zetaDelta only)

theorem execAuditHeadRead_within {T : List Part} {s0 s : State} (h : State.Within T s0 s) (hT : [.cmp, .resp] ⊆ T) (ticket : Nat) : WithinRes T s0 (execAuditHeadRead ticket s) := by
  unfold execAuditHeadRead
  repeat' (first | with_reducible assumption | exact part_trans (by decide) hT | intro _ | extract_lets | with_reducible apply withinRes_next | with_reducible apply withinRes_ite | with_reducible apply within_ite | with_reducible apply State.finishCall_within | fail_if_no_progress ((with_reducible apply within_upd) <;> first | with_reducible exact Or.inl rfl | exact Or.inr (hT (by decide)) | skip) | exact Or.inl (hT (by decide)) | exact Or.inr (hT (by simp)) | split | dsimp +zetaDelta only)

theorem State.roleCkpt_within {T : List Part} {s0 s : State} (h : State.Within T s0 s) (hT : [.block 20, .freeIx, .notes, .resp, .ro] ⊆ T) : State.Within T s0 (State.roleCkpt s) := by
  unfold State.roleCkpt
  repeat' (first | with_reducible assumption | exact part_trans (by decide) hT | with_reducible refine withinOS_elim (by assumption) (State.checkpoint?_within ?_ ?_) | with_reducible apply State.answer_within | with_reducible apply State.raise_within | with_reducible apply State.refuse_within | exact Or.inl (hT (by decide)) | exact Or.inr (hT (by simp)) | with_reducible split)

theorem execRoleCkptWrite_within {T : List Part} {s0 s : State} (h : State.Within T s0 s) (hT : [.block 20, .freeIx, .notes, .resp, .ro] ⊆ T) : WithinRes T s0 (execRoleCkptWrite s) := by
  unfold execRoleCkptWrite
  repeat' (first | with_reducible assumption | exact part_trans (by decide) hT | intro _ | extract_lets | with_reducible apply withinRes_next | with_reducible apply withinRes_ite | with_reducible apply within_ite | with_reducible apply State.recorded_within | with_reducible apply State.roleCkpt_within | fail_if_no_progress ((with_reducible apply within_upd) <;> first | with_reducible exact Or.inl rfl | exact Or.inr (hT (by decide)) | skip) | exact Or.inl (hT (by decide)) | exact Or.inr (hT (by simp)) | split | dsimp +zetaDelta only)

end Sys2Proof.Machine
end

