-- ==== Sys2Proof/Laws/WithinTables.lean ====
section
/-!
SUPPORT. What the operations of the pillow and the GROUND tables can do: one lemma per operation, which names the
parts of the state that it may touch and says that it keeps the invariant and the queue. A proof about a step cites these and
unfolds none of the operations.
-/
namespace Sys2Proof.Machine
open Sys2Proof
set_option linter.all false
set_option Elab.async false

theorem State.rampStep_within {T : List Part} {s0 s : State} (h : State.Within T s0 s) (hT : [.block 1, .clk, .notes] ⊆ T) (h : Nat) (target : Nat) : State.Within T s0 (State.rampStep s h target) := by
  unfold State.rampStep
  repeat' (first | with_reducible assumption | exact part_trans (by decide) hT | with_reducible intro _ | with_reducible apply within_ite | with_reducible apply State.setF_within | with_reducible apply State.raise_within | fail_if_no_progress ((with_reducible apply within_upd) <;> first | with_reducible exact Or.inl rfl | exact Or.inr (hT (by decide)) | skip) | exact Or.inl (hT (by decide)) | exact Or.inr (hT (by simp)))

theorem State.rampTo_within {T : List Part} {s0 s : State} (h : State.Within T s0 s) (hT : [.block 1, .clk, .notes] ⊆ T) (x0 : Nat) (target : Nat) : State.Within T s0 (State.rampTo s x0 target) := by
  unfold State.rampTo
  repeat' (first | with_reducible assumption | exact part_trans (by decide) hT | intro _ | extract_lets | with_reducible apply within_ite | with_reducible apply State.rampStep_within | fail_if_no_progress ((with_reducible apply within_upd) <;> first | with_reducible exact Or.inl rfl | exact Or.inr (hT (by decide)) | skip) | exact Or.inl (hT (by decide)) | exact Or.inr (hT (by simp)) | split | dsimp +zetaDelta only)

theorem State.hoopBusy_within {T : List Part} {s0 s : State} (h : State.Within T s0 s) (hT : [.block 1, .clk, .notes] ⊆ T) (h : Nat) : State.Within T s0 (State.hoopBusy s h) := by
  unfold State.hoopBusy
  repeat' (first | with_reducible assumption | exact part_trans (by decide) hT | with_reducible intro _ | with_reducible apply within_ite | with_reducible apply State.rampTo_within | exact Or.inl (hT (by decide)) | exact Or.inr (hT (by simp)))

theorem State.putTask_within {T : List Part} {s0 s : State} (h : State.Within T s0 s) (hT : [.pl] ⊆ T) (i : Nat) (t : Task) : State.Within T s0 (State.putTask s i t) := by
  unfold State.putTask
  repeat' (first | with_reducible assumption | exact part_trans (by decide) hT | fail_if_no_progress ((with_reducible apply within_upd) <;> first | with_reducible exact Or.inl rfl | exact Or.inr (hT (by decide)) | skip) | exact Or.inl (hT (by decide)) | exact Or.inr (hT (by simp)))

theorem State.setBobbin_within {T : List Part} {s0 s : State} (h : State.Within T s0 s) (hT : [.pl] ⊆ T) (b : Nat) (v : Bobbin) : State.Within T s0 (State.setBobbin s b v) := by
  unfold State.setBobbin
  repeat' (first | with_reducible assumption | exact part_trans (by decide) hT | fail_if_no_progress ((with_reducible apply within_upd) <;> first | with_reducible exact Or.inl rfl | exact Or.inr (hT (by decide)) | skip) | exact Or.inl (hT (by decide)) | exact Or.inr (hT (by simp)))

theorem State.setOrd_within {T : List Part} {s0 s : State} (h : State.Within T s0 s) (hT : [.pl] ⊆ T) (f : Nat) (v : OrdFlow) : State.Within T s0 (State.setOrd s f v) := by
  unfold State.setOrd
  repeat' (first | with_reducible assumption | exact part_trans (by decide) hT | fail_if_no_progress ((with_reducible apply within_upd) <;> first | with_reducible exact Or.inl rfl | exact Or.inr (hT (by decide)) | skip) | exact Or.inl (hT (by decide)) | exact Or.inr (hT (by simp)))

theorem State.wakeParked_within {T : List Part} {s0 s : State} (h : State.Within T s0 s) (hT : [.pl] ⊆ T) : State.Within T s0 (State.wakeParked s) := by
  unfold State.wakeParked
  repeat' (first | with_reducible assumption | exact part_trans (by decide) hT | with_reducible intro _ | fail_if_no_progress ((with_reducible apply within_upd) <;> first | with_reducible exact Or.inl rfl | exact Or.inr (hT (by decide)) | skip) | exact Or.inl (hT (by decide)) | exact Or.inr (hT (by simp)) | with_reducible split)

theorem State.freeAtomic_within {T : List Part} {s0 s : State} (h : State.Within T s0 s) (hT : [.pl] ⊆ T) (f : Option Nat) : State.Within T s0 (State.freeAtomic s f) := by
  unfold State.freeAtomic
  repeat' (first | with_reducible assumption | exact part_trans (by decide) hT | with_reducible intro _ | with_reducible apply State.wakeParked_within | fail_if_no_progress ((with_reducible apply within_upd) <;> first | with_reducible exact Or.inl rfl | exact Or.inr (hT (by decide)) | skip) | exact Or.inl (hT (by decide)) | exact Or.inr (hT (by simp)) | with_reducible split)

theorem State.becomeReady_within {T : List Part} {s0 s : State} (h : State.Within T s0 s) (hT : [.block 14, .notes, .pl] ⊆ T) (i : Nat) : State.Within T s0 (State.becomeReady s i) := by
  unfold State.becomeReady
  repeat' (first | with_reducible assumption | exact part_trans (by decide) hT | intro _ | extract_lets | with_reducible apply within_ite | with_reducible apply State.putTask_within | with_reducible apply State.raise_within | with_reducible apply State.bump_within | fail_if_no_progress ((with_reducible apply within_upd) <;> first | with_reducible exact Or.inl rfl | exact Or.inr (hT (by decide)) | skip) | exact Or.inl (hT (by decide)) | exact Or.inr (hT (by simp)) | split | dsimp +zetaDelta only)

theorem State.pinFilledAt_within {T : List Part} {s0 s : State} (h : State.Within T s0 s) (hT : [.block 14, .notes, .pl] ⊆ T) (i : Nat) (k : Nat) (isRef : Bool) (ref : Nat) (seen : Nat) : State.Within T s0 (State.pinFilledAt s i k isRef ref seen) := by
  unfold State.pinFilledAt
  repeat' (first | with_reducible assumption | exact part_trans (by decide) hT | intro _ | extract_lets | with_reducible apply within_ite | with_reducible apply State.putTask_within | with_reducible apply State.becomeReady_within | fail_if_no_progress ((with_reducible apply within_upd) <;> first | with_reducible exact Or.inl rfl | exact Or.inr (hT (by decide)) | skip) | exact Or.inl (hT (by decide)) | exact Or.inr (hT (by simp)) | split | dsimp +zetaDelta only)

theorem State.pinFilled_within {T : List Part} {s0 s : State} (h : State.Within T s0 s) (hT : [.block 14, .notes, .pl] ⊆ T) (i : Nat) (k : Nat) (isRef : Bool) (ref : Nat) : State.Within T s0 (State.pinFilled s i k isRef ref) := by
  unfold State.pinFilled
  repeat' (first | with_reducible assumption | exact part_trans (by decide) hT | intro _ | extract_lets | with_reducible apply within_ite | with_reducible apply State.pinFilledAt_within | fail_if_no_progress ((with_reducible apply within_upd) <;> first | with_reducible exact Or.inl rfl | exact Or.inr (hT (by decide)) | skip) | exact Or.inl (hT (by decide)) | exact Or.inr (hT (by simp)) | split | dsimp +zetaDelta only)

theorem State.fillInlineAt_within {T : List Part} {s0 s : State} (h : State.Within T s0 s) (hT : [.block 14, .mem, .notes, .pl] ⊆ T) (i : Nat) (k : Nat) (d : List Byte) (seen : Nat) : State.Within T s0 (State.fillInlineAt s i k d seen) := by
  unfold State.fillInlineAt
  repeat' (first | with_reducible assumption | exact part_trans (by decide) hT | intro _ | extract_lets | with_reducible apply within_ite | with_reducible apply State.pinFilledAt_within | with_reducible apply State.writeBytes_within | fail_if_no_progress ((with_reducible apply within_upd) <;> first | with_reducible exact Or.inl rfl | exact Or.inr (hT (by decide)) | skip) | exact Or.inl (hT (by decide)) | exact Or.inr (hT (by simp)) | split | dsimp +zetaDelta only)

theorem State.fillInline_within {T : List Part} {s0 s : State} (h : State.Within T s0 s) (hT : [.block 14, .mem, .notes, .pl] ⊆ T) (i : Nat) (k : Nat) (d : List Byte) : State.Within T s0 (State.fillInline s i k d) := by
  unfold State.fillInline
  repeat' (first | with_reducible assumption | exact part_trans (by decide) hT | intro _ | extract_lets | with_reducible apply within_ite | with_reducible apply State.fillInlineAt_within | fail_if_no_progress ((with_reducible apply within_upd) <;> first | with_reducible exact Or.inl rfl | exact Or.inr (hT (by decide)) | skip) | exact Or.inl (hT (by decide)) | exact Or.inr (hT (by simp)) | split | dsimp +zetaDelta only)

theorem State.newTask_within {T : List Part} {s0 s : State} (h : State.Within T s0 s) (hT : [.freeIx, .pl] ⊆ T) (t : Task) (ordFlow : Option Nat) (arity : Nat) : WithinO T s0 (State.newTask s t ordFlow arity) := by
  unfold State.newTask
  repeat' (first | with_reducible assumption | exact part_trans (by decide) hT | with_reducible intro _ | with_reducible apply withinO_some | with_reducible apply withinO_none | with_reducible apply withinO_ite | with_reducible apply State.useFree_within | with_reducible apply State.setOrd_within | with_reducible apply within1_ite | with_reducible apply within2_ite | with_reducible apply withinO_some | with_reducible apply withinO_none | with_reducible apply withinO_ite | fail_if_no_progress ((with_reducible apply within_upd) <;> first | with_reducible exact Or.inl rfl | exact Or.inr (hT (by decide)) | skip) | with_reducible split | with_reducible dsimp +zetaDelta only | with_reducible apply within1_mk | with_reducible apply within2_mk | exact Or.inl (hT (by decide)) | exact Or.inr (hT (by simp)))

theorem State.post_within {T : List Part} {s0 s : State} (h : State.Within T s0 s) (hT : [.pl] ⊆ T) (b : Nat) (ps : List Posted) : State.Within T s0 (State.post s b ps) := by
  unfold State.post
  repeat' (first | with_reducible assumption | exact part_trans (by decide) hT | with_reducible apply State.setBobbin_within | exact Or.inl (hT (by decide)) | exact Or.inr (hT (by simp)))

theorem State.ordRelease_within {T : List Part} {s0 s : State} (h : State.Within T s0 s) (hT : [.pl] ⊆ T) (f : Nat) (x0 : Nat) : State.Within T s0 (State.ordRelease s f x0) := by
  induction x0 generalizing s f with
  | zero =>
    unfold State.ordRelease
    repeat' (first | with_reducible assumption | exact part_trans (by decide) hT | intro _ | extract_lets | with_reducible apply within_ite | with_reducible apply State.setOrd_within | with_reducible apply State.post_within | with_reducible apply within1_ite | with_reducible apply within2_ite | with_reducible apply withinO_some | with_reducible apply withinO_none | with_reducible apply withinO_ite | fail_if_no_progress ((with_reducible apply within_upd) <;> first | with_reducible exact Or.inl rfl | exact Or.inr (hT (by decide)) | skip) | split | dsimp +zetaDelta only | with_reducible apply within1_mk | with_reducible apply within2_mk | exact Or.inl (hT (by decide)) | exact Or.inr (hT (by simp)))
  | succ k ih =>
    unfold State.ordRelease
    repeat' (first | with_reducible assumption | exact part_trans (by decide) hT | intro _ | extract_lets | with_reducible apply within_ite | with_reducible apply State.setOrd_within | with_reducible apply State.post_within | with_reducible apply within1_ite | with_reducible apply within2_ite | with_reducible apply withinO_some | with_reducible apply withinO_none | with_reducible apply withinO_ite | with_reducible apply ih | fail_if_no_progress ((with_reducible apply within_upd) <;> first | with_reducible exact Or.inl rfl | exact Or.inr (hT (by decide)) | skip) | split | dsimp +zetaDelta only | with_reducible apply within1_mk | with_reducible apply within2_mk | exact Or.inl (hT (by decide)) | exact Or.inr (hT (by simp)))

theorem State.returnCredit_within {T : List Part} {s0 s : State} (h : State.Within T s0 s) (hT : [.queues] ⊆ T) (p : Posted) : State.Within T s0 (State.returnCredit s p) := by
  unfold State.returnCredit
  repeat' (first | with_reducible assumption | exact part_trans (by decide) hT | intro _ | extract_lets | with_reducible apply within_ite | with_reducible apply State.setQueue_within | fail_if_no_progress ((with_reducible apply within_upd) <;> first | with_reducible exact Or.inl rfl | exact Or.inr (hT (by decide)) | skip) | exact Or.inl (hT (by decide)) | exact Or.inr (hT (by simp)) | split | dsimp +zetaDelta only)

theorem State.endTask_within {T : List Part} {s0 s : State} (h : State.Within T s0 s) (hT : [.block 16, .ms, .pl, .queues] ⊆ T) (i : Nat) (inService : Bool) : State.Within T s0 (State.endTask s i inService) := by
  unfold State.endTask
  repeat' (first | with_reducible assumption | exact part_trans (by decide) hT | with_reducible intro _ | with_reducible apply State.rxFree_within | with_reducible apply State.each_within | with_reducible apply State.returnCredit_within | with_reducible apply State.setOrd_within | with_reducible apply State.ordRelease_within | with_reducible apply State.freeAtomic_within | fail_if_no_progress ((with_reducible apply within_upd) <;> first | with_reducible exact Or.inl rfl | exact Or.inr (hT (by decide)) | skip) | exact Or.inl (hT (by decide)) | exact Or.inr (hT (by simp)) | with_reducible split | with_reducible dsimp +zetaDelta only)

theorem State.runOn_within {T : List Part} {s0 s : State} (h : State.Within T s0 s) (hT : [.out, .pl] ⊆ T) (i : Nat) (b : Nat) (wait : Nat) : State.Within T s0 (State.runOn s i b wait) := by
  unfold State.runOn
  repeat' (first | with_reducible assumption | exact part_trans (by decide) hT | intro _ | extract_lets | with_reducible apply within_ite | with_reducible apply State.putTask_within | with_reducible apply State.emit_within | with_reducible apply State.setBobbin_within | fail_if_no_progress ((with_reducible apply within_upd) <;> first | with_reducible exact Or.inl rfl | exact Or.inr (hT (by decide)) | skip) | exact Or.inl (hT (by decide)) | exact Or.inr (hT (by simp)) | split | dsimp +zetaDelta only)

theorem State.prefetchOn_within {T : List Part} {s0 s : State} (h : State.Within T s0 s) (hT : [.pl] ⊆ T) (i : Nat) (b : Nat) : State.Within T s0 (State.prefetchOn s i b) := by
  unfold State.prefetchOn
  repeat' (first | with_reducible assumption | exact part_trans (by decide) hT | with_reducible apply State.putTask_within | with_reducible apply State.setBobbin_within | exact Or.inl (hT (by decide)) | exact Or.inr (hT (by simp)) | with_reducible split)

theorem State.place_within {T : List Part} {s0 s : State} (h : State.Within T s0 s) (hT : [.block 1, .block 14, .clk, .notes, .out, .pl] ⊆ T) (x0 : Nat) : State.Within T s0 (State.place s x0) := by
  unfold State.place
  repeat' (first | with_reducible assumption | exact part_trans (by decide) hT | intro _ | extract_lets | with_reducible apply within_ite | with_reducible apply State.hoopBusy_within | with_reducible apply State.runOn_within | with_reducible apply State.prefetchOn_within | with_reducible apply State.bump_within | with_reducible apply State.putTask_within | fail_if_no_progress ((with_reducible apply within_upd) <;> first | with_reducible exact Or.inl rfl | exact Or.inr (hT (by decide)) | skip) | exact Or.inl (hT (by decide)) | exact Or.inr (hT (by simp)) | split | dsimp +zetaDelta only)

theorem State.unstall_within {T : List Part} {s0 s : State} (h : State.Within T s0 s) (hT : [.pl, .queues] ⊆ T) (b : Nat) : State.Within T s0 (State.unstall s b) := by
  unfold State.unstall
  repeat' (first | with_reducible assumption | exact part_trans (by decide) hT | intro _ | extract_lets | with_reducible apply within_ite | with_reducible apply State.setBobbin_within | with_reducible apply State.returnCredit_within | fail_if_no_progress ((with_reducible apply within_upd) <;> first | with_reducible exact Or.inl rfl | exact Or.inr (hT (by decide)) | skip) | exact Or.inl (hT (by decide)) | exact Or.inr (hT (by simp)) | split | dsimp +zetaDelta only)

theorem State.startNext_within {T : List Part} {s0 s : State} (h : State.Within T s0 s) (hT : [.out, .pl, .queues] ⊆ T) (b : Nat) : State.Within T s0 (State.startNext s b) := by
  unfold State.startNext
  repeat' (first | with_reducible assumption | exact part_trans (by decide) hT | intro _ | extract_lets | with_reducible apply within_ite | with_reducible apply State.unstall_within | with_reducible apply State.setBobbin_within | with_reducible apply State.runOn_within | fail_if_no_progress ((with_reducible apply within_upd) <;> first | with_reducible exact Or.inl rfl | exact Or.inr (hT (by decide)) | skip) | exact Or.inl (hT (by decide)) | exact Or.inr (hT (by simp)) | split | dsimp +zetaDelta only)

theorem State.startInitRuns_within {T : List Part} {s0 s : State} (h : State.Within T s0 s) (hT : [.out, .pl] ⊆ T) (bs : List Nat) : State.Within T s0 (State.startInitRuns s bs) := by
  unfold State.startInitRuns
  repeat' (first | with_reducible assumption | exact part_trans (by decide) hT | intro _ | extract_lets | with_reducible apply within_ite | with_reducible apply State.each_within | with_reducible apply State.setBobbin_within | with_reducible apply State.emit_within | fail_if_no_progress ((with_reducible apply within_upd) <;> first | with_reducible exact Or.inl rfl | exact Or.inr (hT (by decide)) | skip) | exact Or.inl (hT (by decide)) | exact Or.inr (hT (by simp)) | split | dsimp +zetaDelta only)

theorem State.recPut_within {T : List Part} {s0 s : State} (h : State.Within T s0 s) (hT : [.block 21, .mem, .out, .pa] ⊆ T) (n : Nat) (o : Nat) (z : Nat) (v : Nat) : State.Within T s0 (State.recPut s n o z v) := by
  unfold State.recPut
  repeat' (first | with_reducible assumption | exact part_trans (by decide) hT | with_reducible apply State.writeNat_within | with_reducible apply State.journalAt_within | exact Or.inl (hT (by decide)) | exact Or.inr (hT (by simp)))

theorem State.setWay_within {T : List Part} {s0 s : State} (h : State.Within T s0 s) (hT : [.mem] ⊆ T) (t : HashTab) (b : Nat) (w : Nat) (e : Option HashEntry) : State.Within T s0 (State.setWay s t b w e) := by
  unfold State.setWay
  repeat' (first | with_reducible assumption | exact part_trans (by decide) hT | with_reducible apply State.writeNat_within | with_reducible apply State.writeBytes_within | exact Or.inl (hT (by decide)) | exact Or.inr (hT (by simp)) | with_reducible split)

theorem State.hashApply_within {T : List Part} {s0 s : State} (h : State.Within T s0 s) (hT : [.mem] ⊆ T) (t : HashTab) (l : List Place) (e : HashEntry) :
    Within1 T s0 (State.hashApply s t l e) := by
  induction l generalizing s e with
  | nil => exact ⟨h⟩
  | cons y l ih =>
    cases y with
    | stash => cases l <;> exact ⟨h⟩
    | way b w =>
      unfold State.hashApply
      dsimp only
      split
      · exact within1_mk (by with_reducible exact State.setWay_within h (part_trans (by decide) hT) _ _ _ _)
      · exact within1_mk (by with_reducible exact State.setWay_within (within1_fst (ih h _)) (part_trans (by decide) hT) _ _ _ _)

theorem State.hashInsert_within {T : List Part} {s0 s : State} (h : State.Within T s0 s) (hT : [.mem] ⊆ T) {t : HashTab} {l : List HashEntry} {e : HashEntry}
    {u : State} {x : Option HashEntry} {m : Nat} (hm : State.hashInsert s t l e = .ok u x m) : State.Within T s0 u := by
  unfold State.hashInsert at hm
  split at hm
  · cases hm
  · split at hm
    · cases hm
    · cases hm; exact (State.hashApply_within h (part_trans (by decide) hT) t _ e).of

theorem State.hashDelete_within {T : List Part} {s0 s : State} (h : State.Within T s0 s) (hT : [.mem] ⊆ T) (t : HashTab) (stash : List HashEntry) (key : Nat) (typ : Nat) : Within1 T s0 (State.hashDelete s t stash key typ) := by
  unfold State.hashDelete
  repeat' (first | with_reducible assumption | exact part_trans (by decide) hT | with_reducible intro _ | with_reducible apply within1_ite | with_reducible apply State.setWay_within | with_reducible apply within1_ite | with_reducible apply within2_ite | with_reducible apply withinO_some | with_reducible apply withinO_none | with_reducible apply withinO_ite | with_reducible split | with_reducible apply within1_mk | with_reducible apply within2_mk | exact Or.inl (hT (by decide)) | exact Or.inr (hT (by simp)))

theorem State.blockEnd_within {T : List Part} {s0 s : State} (h : State.Within T s0 s) (hT : [.block 14, .block 17, .mem, .notes, .pl] ⊆ T) (a : Nat) (st : Nat) (result : Nat) : State.Within T s0 (State.blockEnd s a st result) := by
  unfold State.blockEnd
  repeat' (first | with_reducible assumption | exact part_trans (by decide) hT | intro _ | extract_lets | with_reducible apply within_ite | with_reducible apply State.writeNat_within | with_reducible apply State.bump_within | with_reducible apply State.pinFilledAt_within | fail_if_no_progress ((with_reducible apply within_upd) <;> first | with_reducible exact Or.inl rfl | exact Or.inr (hT (by decide)) | skip) | exact Or.inl (hT (by decide)) | exact Or.inr (hT (by simp)) | split | dsimp +zetaDelta only)

theorem State.groundPop_within {T : List Part} {s0 s : State} (h : State.Within T s0 s) (hT : [.gd] ⊆ T) : State.Within T s0 (State.groundPop s) := by
  unfold State.groundPop
  repeat' (first | with_reducible assumption | exact part_trans (by decide) hT | fail_if_no_progress ((with_reducible apply within_upd) <;> first | with_reducible exact Or.inl rfl | exact Or.inr (hT (by decide)) | skip) | exact Or.inl (hT (by decide)) | exact Or.inr (hT (by simp)))

theorem State.groundRun_within {T : List Part} {s0 s : State} (h : State.Within T s0 s) (hT : [.block 14, .block 17, .gd, .mem, .notes, .pl] ⊆ T) (op : Nat) (f : State → Nat → State)  (hf : ∀ s x, State.Within T s0 s → State.Within T s0 (f s x)) : State.Within T s0 (State.groundRun s op f) := by
  unfold State.groundRun
  repeat' (first | with_reducible assumption | exact part_trans (by decide) hT | with_reducible intro _ | with_reducible apply within_ite | with_reducible apply State.groundPop_within | with_reducible apply State.blockEnd_within | with_reducible apply hf | exact Or.inl (hT (by decide)) | exact Or.inr (hT (by simp)) | with_reducible split)

theorem State.rehashFail_within {T : List Part} {s0 s : State} (h : State.Within T s0 s) (hT : [.block 14, .block 17, .gd, .mem, .notes, .pl] ⊆ T) : State.Within T s0 (State.rehashFail s) := by
  unfold State.rehashFail
  repeat' (first | with_reducible assumption | exact part_trans (by decide) hT | with_reducible extract_lets | with_reducible apply State.raise_within | with_reducible apply State.setF_within | with_reducible apply State.blockEnd_within | fail_if_no_progress ((with_reducible apply within_upd) <;> first | with_reducible exact Or.inl rfl | exact Or.inr (hT (by decide)) | skip) | exact Or.inl (hT (by decide)) | exact Or.inr (hT (by simp)) | with_reducible split)

theorem State.altInsert_within {T : List Part} {s0 s : State} (h : State.Within T s0 s) (hT : [.block 14, .block 17, .gd, .mem, .notes, .pl] ⊆ T) (e : HashEntry) : State.Within T s0 (State.altInsert s e) := by
  unfold State.altInsert
  repeat' (first | with_reducible assumption | exact part_trans (by decide) hT | intro _ | extract_lets | with_reducible apply within_ite | with_reducible apply State.rehashFail_within | with_reducible apply State.addF_within | with_reducible apply State.raise_within | refine State.hashInsert_within ?_ ?_ (by with_reducible assumption) | fail_if_no_progress ((with_reducible apply within_upd) <;> first | with_reducible exact Or.inl rfl | exact Or.inr (hT (by decide)) | skip) | exact Or.inl (hT (by decide)) | exact Or.inr (hT (by simp)) | split | dsimp +zetaDelta only)

theorem State.groundInsert_within {T : List Part} {s0 s : State} (h : State.Within T s0 s) (hT : [.block 14, .block 17, .block 21, .gd, .mem, .notes, .out, .pa, .pl] ⊆ T) (a : Nat) : State.Within T s0 (State.groundInsert s a) := by
  unfold State.groundInsert
  repeat' (first | with_reducible assumption | exact part_trans (by decide) hT | with_reducible intro _ | with_reducible refine State.hashInsert_within ?_ ?_ (by assumption) | with_reducible apply State.blockEnd_within | with_reducible apply State.bump_within | with_reducible apply State.raise_within | with_reducible apply State.addF_within | with_reducible apply State.altInsert_within | with_reducible apply State.journalAdd_within | fail_if_no_progress ((with_reducible apply within_upd) <;> first | with_reducible exact Or.inl rfl | exact Or.inr (hT (by decide)) | skip) | exact Or.inl (hT (by decide)) | exact Or.inr (hT (by simp)) | with_reducible split | with_reducible dsimp +zetaDelta only)

theorem State.groundDelete_within {T : List Part} {s0 s : State} (h : State.Within T s0 s) (hT : [.block 14, .block 17, .block 21, .gd, .mem, .notes, .out, .pa, .pl] ⊆ T) (a : Nat) : State.Within T s0 (State.groundDelete s a) := by
  unfold State.groundDelete
  repeat' (first | with_reducible assumption | exact part_trans (by decide) hT | with_reducible intro _ | with_reducible extract_lets | with_reducible apply within_ite | with_reducible apply State.hashDelete_within | with_reducible refine within1_elim (by assumption) (State.hashDelete_within ?_ ?_ _ _ _ _) | with_reducible apply within1_fst | with_reducible apply State.blockEnd_within | with_reducible apply State.journalAdd_within | with_reducible apply within1_ite | with_reducible apply within2_ite | with_reducible apply withinO_some | with_reducible apply withinO_none | with_reducible apply withinO_ite | fail_if_no_progress ((with_reducible apply within_upd) <;> first | with_reducible exact Or.inl rfl | exact Or.inr (hT (by decide)) | skip) | with_reducible split | with_reducible apply within1_mk | with_reducible apply within2_mk | exact Or.inl (hT (by decide)) | exact Or.inr (hT (by simp)))

theorem State.copyMem_within {T : List Part} {s0 s : State} (h : State.Within T s0 s) (hT : [.mem] ⊆ T) (src : Nat) (dst : Nat) (n : Nat) : State.Within T s0 (State.copyMem s src dst n) := by
  unfold State.copyMem
  repeat' (first | with_reducible assumption | exact part_trans (by decide) hT | with_reducible apply State.writeBytes_within | exact Or.inl (hT (by decide)) | exact Or.inr (hT (by simp)))

theorem State.writeChunk_within {T : List Part} {s0 s : State} (h : State.Within T s0 s) (hT : [.mem] ⊆ T) (n : Nat) (arg : Nat) (c : Nat) : State.Within T s0 (State.writeChunk s n arg c) := by
  unfold State.writeChunk
  repeat' (first | with_reducible assumption | exact part_trans (by decide) hT | with_reducible intro _ | with_reducible apply within_ite | with_reducible apply State.each_within | with_reducible apply State.writeByte_within | exact Or.inl (hT (by decide)) | exact Or.inr (hT (by simp)))

theorem State.keyChange_within {T : List Part} {s0 s : State} (h : State.Within T s0 s) (hT : [.block 21, .gd, .mem, .out, .pa] ⊆ T) (n : Nat) : State.Within T s0 (State.keyChange s n) := by
  unfold State.keyChange
  repeat' (first | with_reducible assumption | exact part_trans (by decide) hT | with_reducible apply State.recPut_within | fail_if_no_progress ((with_reducible apply within_upd) <;> first | with_reducible exact Or.inl rfl | exact Or.inr (hT (by decide)) | skip) | exact Or.inl (hT (by decide)) | exact Or.inr (hT (by simp)))

theorem State.recWrite_within {T : List Part} {s0 s : State} (h : State.Within T s0 s) (hT : [.block 21, .gd, .mem, .out, .pa] ⊆ T) (n : Nat) (arg : Nat) (mask : Nat) : State.Within T s0 (State.recWrite s n arg mask) := by
  unfold State.recWrite
  repeat' (first | with_reducible assumption | exact part_trans (by decide) hT | with_reducible intro _ | with_reducible apply within_ite | with_reducible apply State.each_within | with_reducible apply State.writeChunk_within | with_reducible apply State.journalAt_within | with_reducible apply State.keyChange_within | exact Or.inl (hT (by decide)) | exact Or.inr (hT (by simp)))

theorem State.setLpt_within {T : List Part} {s0 s : State} (h : State.Within T s0 s) (hT : [.gd] ⊆ T) (k : Nat) (v : Lpt) : State.Within T s0 (State.setLpt s k v) := by
  unfold State.setLpt
  repeat' (first | with_reducible assumption | exact part_trans (by decide) hT | fail_if_no_progress ((with_reducible apply within_upd) <;> first | with_reducible exact Or.inl rfl | exact Or.inr (hT (by decide)) | skip) | exact Or.inl (hT (by decide)) | exact Or.inr (hT (by simp)))

theorem State.lptAlloc_within {T : List Part} {s0 s : State} (h : State.Within T s0 s) (hT : [.block 17, .gd, .notes] ⊆ T) (n : Nat) : Within2 T s0 (State.lptAlloc s n) := by
  unfold State.lptAlloc
  repeat' (first | with_reducible assumption | exact part_trans (by decide) hT | with_reducible apply within2_ite | with_reducible apply State.setLpt_within | with_reducible apply State.bump_within | with_reducible apply State.raise_within | with_reducible apply within1_ite | with_reducible apply within2_ite | with_reducible apply withinO_some | with_reducible apply withinO_none | with_reducible apply withinO_ite | with_reducible split | with_reducible apply within1_mk | with_reducible apply within2_mk | exact Or.inl (hT (by decide)) | exact Or.inr (hT (by simp)))

theorem State.teach_within {T : List Part} {s0 s : State} (h : State.Within T s0 s) (hT : [.block 17, .block 21, .gd, .mem, .notes, .out, .pa] ⊆ T) (n : Nat) (trx : Nat) (path : Nat) (rssi : Int) (diff : Int) (otherInUse : Bool) (chan : Nat) : Within1 T s0 (State.teach s n trx path rssi diff otherInUse chan) := by
  unfold State.teach
  repeat' (first | with_reducible assumption | exact part_trans (by decide) hT | with_reducible apply within1_ite | with_reducible apply State.lptAlloc_within | with_reducible apply within2_snd | with_reducible apply State.recPut_within | with_reducible apply State.setLpt_within | with_reducible apply within1_ite | with_reducible apply within2_ite | with_reducible apply withinO_some | with_reducible apply withinO_none | with_reducible apply withinO_ite | fail_if_no_progress ((with_reducible apply within_upd) <;> first | with_reducible exact Or.inl rfl | exact Or.inr (hT (by decide)) | skip) | with_reducible split | with_reducible apply within1_mk | with_reducible apply within2_mk | exact Or.inl (hT (by decide)) | exact Or.inr (hT (by simp)))

theorem State.unteach_within {T : List Part} {s0 s : State} (h : State.Within T s0 s) (hT : [.gd] ⊆ T) (us : List LptUndo) : State.Within T s0 (State.unteach s us) := by
  unfold State.unteach
  repeat' (first | with_reducible assumption | exact part_trans (by decide) hT | with_reducible intro _ | with_reducible apply State.each_within | with_reducible apply State.setLpt_within | exact Or.inl (hT (by decide)) | exact Or.inr (hT (by simp)) | with_reducible split)

theorem State.lptFree_within {T : List Part} {s0 s : State} (h : State.Within T s0 s) (hT : [.gd] ⊆ T) (k : Nat) : State.Within T s0 (State.lptFree s k) := by
  unfold State.lptFree
  repeat' (first | with_reducible assumption | exact part_trans (by decide) hT | fail_if_no_progress ((with_reducible apply within_upd) <;> first | with_reducible exact Or.inl rfl | exact Or.inr (hT (by decide)) | skip) | exact Or.inl (hT (by decide)) | exact Or.inr (hT (by simp)))

theorem State.groundCmd_within {T : List Part} {s0 s : State} (h : State.Within T s0 s) (hT : [.block 17, .gd, .notes, .resp] ⊆ T) (a : Nat) (cmp : Bool) (bob : Nat) : State.Within T s0 (State.groundCmd s a cmp bob) := by
  unfold State.groundCmd
  repeat' (first | with_reducible assumption | exact part_trans (by decide) hT | with_reducible intro _ | with_reducible apply within_ite | with_reducible apply State.refuse_within | with_reducible apply State.raise_within | with_reducible apply State.answer_within | fail_if_no_progress ((with_reducible apply within_upd) <;> first | with_reducible exact Or.inl rfl | exact Or.inr (hT (by decide)) | skip) | exact Or.inl (hT (by decide)) | exact Or.inr (hT (by simp)))

theorem execGroundCmdWrite_within {T : List Part} {s0 s : State} (h : State.Within T s0 s) (hT : [.block 17, .gd, .notes, .resp] ⊆ T) (addr : Word) (cmp : Bool) (bob : Fin 16) : WithinRes T s0 (execGroundCmdWrite addr cmp bob s) := by
  unfold execGroundCmdWrite
  repeat' (first | with_reducible assumption | exact part_trans (by decide) hT | intro _ | extract_lets | with_reducible apply withinRes_next | with_reducible apply withinRes_ite | with_reducible apply within_ite | with_reducible apply State.groundCmd_within | fail_if_no_progress ((with_reducible apply within_upd) <;> first | with_reducible exact Or.inl rfl | exact Or.inr (hT (by decide)) | skip) | exact Or.inl (hT (by decide)) | exact Or.inr (hT (by simp)) | split | dsimp +zetaDelta only)

theorem execGroundLookup_within {T : List Part} {s0 s : State} (h : State.Within T s0 s) (hT : [.block 14, .block 17, .gd, .mem, .notes, .pl] ⊆ T) : WithinRes T s0 (execGroundLookup s) := by
  unfold execGroundLookup
  repeat' (first | with_reducible assumption | exact part_trans (by decide) hT | intro _ | extract_lets | with_reducible apply withinRes_next | with_reducible apply withinRes_ite | with_reducible apply within_ite | with_reducible apply State.groundRun_within | with_reducible apply State.blockEnd_within | fail_if_no_progress ((with_reducible apply within_upd) <;> first | with_reducible exact Or.inl rfl | exact Or.inr (hT (by decide)) | skip) | exact Or.inl (hT (by decide)) | exact Or.inr (hT (by simp)) | split | dsimp +zetaDelta only)

theorem execGroundInsert_within {T : List Part} {s0 s : State} (h : State.Within T s0 s) (hT : [.block 14, .block 17, .block 21, .gd, .mem, .notes, .out, .pa, .pl] ⊆ T) : WithinRes T s0 (execGroundInsert s) := by
  unfold execGroundInsert
  repeat' (first | with_reducible assumption | exact part_trans (by decide) hT | intro _ | extract_lets | with_reducible apply withinRes_next | with_reducible apply withinRes_ite | with_reducible apply within_ite | with_reducible apply State.groundRun_within | with_reducible apply State.groundInsert_within | fail_if_no_progress ((with_reducible apply within_upd) <;> first | with_reducible exact Or.inl rfl | exact Or.inr (hT (by decide)) | skip) | exact Or.inl (hT (by decide)) | exact Or.inr (hT (by simp)) | split | dsimp +zetaDelta only)

theorem execGroundDelete_within {T : List Part} {s0 s : State} (h : State.Within T s0 s) (hT : [.block 14, .block 17, .block 21, .gd, .mem, .notes, .out, .pa, .pl] ⊆ T) : WithinRes T s0 (execGroundDelete s) := by
  unfold execGroundDelete
  repeat' (first | with_reducible assumption | exact part_trans (by decide) hT | intro _ | extract_lets | with_reducible apply withinRes_next | with_reducible apply withinRes_ite | with_reducible apply within_ite | with_reducible apply State.groundRun_within | with_reducible apply State.groundDelete_within | fail_if_no_progress ((with_reducible apply within_upd) <;> first | with_reducible exact Or.inl rfl | exact Or.inr (hT (by decide)) | skip) | exact Or.inl (hT (by decide)) | exact Or.inr (hT (by simp)) | split | dsimp +zetaDelta only)

theorem execGroundFetch_within {T : List Part} {s0 s : State} (h : State.Within T s0 s) (hT : [.block 14, .block 17, .gd, .mem, .notes, .pl] ⊆ T) : WithinRes T s0 (execGroundFetch s) := by
  unfold execGroundFetch
  repeat' (first | with_reducible assumption | exact part_trans (by decide) hT | intro _ | extract_lets | with_reducible apply withinRes_next | with_reducible apply withinRes_ite | with_reducible apply within_ite | with_reducible apply State.groundRun_within | with_reducible apply State.copyMem_within | with_reducible apply State.blockEnd_within | fail_if_no_progress ((with_reducible apply within_upd) <;> first | with_reducible exact Or.inl rfl | exact Or.inr (hT (by decide)) | skip) | exact Or.inl (hT (by decide)) | exact Or.inr (hT (by simp)) | split | dsimp +zetaDelta only)

theorem execGroundRoute_within {T : List Part} {s0 s : State} (h : State.Within T s0 s) (hT : [.block 14, .block 17, .gd, .mem, .notes, .pl] ⊆ T) : WithinRes T s0 (execGroundRoute s) := by
  unfold execGroundRoute
  repeat' (first | with_reducible assumption | exact part_trans (by decide) hT | intro _ | extract_lets | with_reducible apply withinRes_next | with_reducible apply withinRes_ite | with_reducible apply within_ite | with_reducible apply State.groundRun_within | with_reducible apply State.copyMem_within | with_reducible apply State.blockEnd_within | fail_if_no_progress ((with_reducible apply within_upd) <;> first | with_reducible exact Or.inl rfl | exact Or.inr (hT (by decide)) | skip) | exact Or.inl (hT (by decide)) | exact Or.inr (hT (by simp)) | split | dsimp +zetaDelta only)

theorem execGroundWrite_within {T : List Part} {s0 s : State} (h : State.Within T s0 s) (hT : [.block 14, .block 17, .block 21, .gd, .mem, .notes, .out, .pa, .pl] ⊆ T) : WithinRes T s0 (execGroundWrite s) := by
  unfold execGroundWrite
  repeat' (first | with_reducible assumption | exact part_trans (by decide) hT | intro _ | extract_lets | with_reducible apply withinRes_next | with_reducible apply withinRes_ite | with_reducible apply within_ite | with_reducible apply State.groundRun_within | with_reducible apply State.recWrite_within | with_reducible apply State.blockEnd_within | fail_if_no_progress ((with_reducible apply within_upd) <;> first | with_reducible exact Or.inl rfl | exact Or.inr (hT (by decide)) | skip) | exact Or.inl (hT (by decide)) | exact Or.inr (hT (by simp)) | split | dsimp +zetaDelta only)

theorem execGroundLptRead_within {T : List Part} {s0 s : State} (h : State.Within T s0 s) (hT : [.block 14, .block 17, .gd, .mem, .notes, .pl] ⊆ T) : WithinRes T s0 (execGroundLptRead s) := by
  unfold execGroundLptRead
  repeat' (first | with_reducible assumption | exact part_trans (by decide) hT | intro _ | extract_lets | with_reducible apply withinRes_next | with_reducible apply withinRes_ite | with_reducible apply within_ite | with_reducible apply State.groundRun_within | with_reducible apply State.blockEnd_within | with_reducible apply State.writeBytes_within | fail_if_no_progress ((with_reducible apply within_upd) <;> first | with_reducible exact Or.inl rfl | exact Or.inr (hT (by decide)) | skip) | exact Or.inl (hT (by decide)) | exact Or.inr (hT (by simp)) | split | dsimp +zetaDelta only)

theorem execGroundLptForget_within {T : List Part} {s0 s : State} (h : State.Within T s0 s) (hT : [.block 14, .block 17, .gd, .mem, .notes, .pl] ⊆ T) : WithinRes T s0 (execGroundLptForget s) := by
  unfold execGroundLptForget
  repeat' (first | with_reducible assumption | exact part_trans (by decide) hT | intro _ | extract_lets | with_reducible apply withinRes_next | with_reducible apply withinRes_ite | with_reducible apply within_ite | with_reducible apply State.groundRun_within | with_reducible apply State.blockEnd_within | with_reducible apply State.lptFree_within | fail_if_no_progress ((with_reducible apply within_upd) <;> first | with_reducible exact Or.inl rfl | exact Or.inr (hT (by decide)) | skip) | exact Or.inl (hT (by decide)) | exact Or.inr (hT (by simp)) | split | dsimp +zetaDelta only)

theorem execGroundRehash_within {T : List Part} {s0 s : State} (h : State.Within T s0 s) (hT : [.block 14, .block 17, .gd, .mem, .notes, .pl] ⊆ T) : WithinRes T s0 (execGroundRehash s) := by
  unfold execGroundRehash
  repeat' (first | with_reducible assumption | exact part_trans (by decide) hT | intro _ | extract_lets | with_reducible apply withinRes_next | with_reducible apply withinRes_ite | with_reducible apply within_ite | with_reducible apply State.groundRun_within | with_reducible apply State.blockEnd_within | with_reducible apply State.dropMem_within | with_reducible apply State.setF_within | fail_if_no_progress ((with_reducible apply within_upd) <;> first | with_reducible exact Or.inl rfl | exact Or.inr (hT (by decide)) | skip) | exact Or.inl (hT (by decide)) | exact Or.inr (hT (by simp)) | split | dsimp +zetaDelta only)

theorem execRehashWalkEnd_within {T : List Part} {s0 s : State} (h : State.Within T s0 s) (hT : [.block 14, .block 17, .gd, .mem, .notes, .pl] ⊆ T) : WithinRes T s0 (execRehashWalkEnd s) := by
  unfold execRehashWalkEnd
  repeat' (first | with_reducible assumption | exact part_trans (by decide) hT | exact Or.inl (hT (by decide)) | exact Or.inr (hT (by simp)) | intro _ | extract_lets | with_reducible apply withinRes_next | with_reducible apply withinRes_ite | with_reducible apply within_ite | with_reducible apply State.each_within | with_reducible apply State.altInsert_within | with_reducible apply State.setF_within | with_reducible apply State.raise_within | with_reducible apply State.blockEnd_within | fail_if_no_progress ((with_reducible apply within_upd) <;> first | exact Or.inr (hT (by decide)) | with_reducible exact Or.inl rfl | skip) | split | dsimp +zetaDelta only)

theorem execGroundSwap_within {T : List Part} {s0 s : State} (h : State.Within T s0 s) (hT : [.block 14, .block 17, .gd, .mem, .notes, .pl] ⊆ T) : WithinRes T s0 (execGroundSwap s) := by
  unfold execGroundSwap
  repeat' (first | with_reducible assumption | exact part_trans (by decide) hT | intro _ | extract_lets | with_reducible apply withinRes_next | with_reducible apply withinRes_ite | with_reducible apply within_ite | with_reducible apply State.groundRun_within | with_reducible apply State.blockEnd_within | with_reducible apply State.setF_within | fail_if_no_progress ((with_reducible apply within_upd) <;> first | with_reducible exact Or.inl rfl | exact Or.inr (hT (by decide)) | skip) | exact Or.inl (hT (by decide)) | exact Or.inr (hT (by simp)) | split | dsimp +zetaDelta only)

theorem execGroundBadOp_within {T : List Part} {s0 s : State} (h : State.Within T s0 s) (hT : [.block 14, .block 17, .gd, .mem, .notes, .pl] ⊆ T) : WithinRes T s0 (execGroundBadOp s) := by
  unfold execGroundBadOp
  repeat' (first | with_reducible assumption | exact part_trans (by decide) hT | intro _ | extract_lets | with_reducible apply withinRes_next | with_reducible apply withinRes_ite | with_reducible apply within_ite | with_reducible apply State.groundPop_within | with_reducible apply State.blockEnd_within | fail_if_no_progress ((with_reducible apply within_upd) <;> first | with_reducible exact Or.inl rfl | exact Or.inr (hT (by decide)) | skip) | exact Or.inl (hT (by decide)) | exact Or.inr (hT (by simp)) | split | dsimp +zetaDelta only)

theorem State.sweep_within {T : List Part} {s0 s : State} (h : State.Within T s0 s) (hT : [.gd] ⊆ T) (k : Nat) : State.Within T s0 (State.sweep s k) := by
  unfold State.sweep
  repeat' (first | with_reducible assumption | exact part_trans (by decide) hT | with_reducible intro _ | with_reducible apply within_ite | with_reducible apply State.lptFree_within | with_reducible apply State.setLpt_within | exact Or.inl (hT (by decide)) | exact Or.inr (hT (by simp)) | with_reducible split)

theorem execLptSweepStep_within {T : List Part} {s0 s : State} (h : State.Within T s0 s) (hT : [.block 17, .gd, .mtb] ⊆ T) : WithinRes T s0 (execLptSweepStep s) := by
  unfold execLptSweepStep
  repeat' (first | with_reducible assumption | exact part_trans (by decide) hT | intro _ | extract_lets | with_reducible apply withinRes_next | with_reducible apply withinRes_ite | with_reducible apply within_ite | with_reducible apply State.advance_within | with_reducible apply State.setF_within | with_reducible apply State.sweep_within | fail_if_no_progress ((with_reducible apply within_upd) <;> first | with_reducible exact Or.inl rfl | exact Or.inr (hT (by decide)) | skip) | exact Or.inl (hT (by decide)) | exact Or.inr (hT (by simp)) | split | dsimp +zetaDelta only)

end Sys2Proof.Machine
end

