-- ==== Sys2Proof/Laws/WithinKeys.lean ====
section
/-!
SUPPORT. What the operations of the key engine, the tunnel and the roles can do: one lemma per operation, which names the
parts of the state that it may touch and says that it keeps the invariant and the queue. A proof about a step cites these and
unfolds none of the operations.
-/
namespace Sys2Proof.Machine
open Sys2Proof
set_option linter.all false
set_option Elab.async false

theorem State.putSlot_within {T : List Part} {s0 s : State} (h : State.Within T s0 s) (hT : [.ky] ⊆ T) (k : Nat) (v : KeySlot) : State.Within T s0 (State.putSlot s k v) := by
  unfold State.putSlot
  repeat' (first | with_reducible assumption | exact part_trans (by decide) hT | fail_if_no_progress ((with_reducible apply within_upd) <;> first | with_reducible exact Or.inl rfl | exact Or.inr (hT (by decide)) | skip) | exact Or.inl (hT (by decide)) | exact Or.inr (hT (by simp)))

theorem State.delSlot_within {T : List Part} {s0 s : State} (h : State.Within T s0 s) (hT : [.ky] ⊆ T) (k : Nat) : State.Within T s0 (State.delSlot s k) := by
  unfold State.delSlot
  repeat' (first | with_reducible assumption | exact part_trans (by decide) hT | fail_if_no_progress ((with_reducible apply within_upd) <;> first | with_reducible exact Or.inl rfl | exact Or.inr (hT (by decide)) | skip) | exact Or.inl (hT (by decide)) | exact Or.inr (hT (by simp)))

theorem State.ownerSlots_within {T : List Part} {s0 s : State} (h : State.Within T s0 s) (hT : [.ky] ⊆ T) : State.Within T s0 (State.ownerSlots s) := by
  unfold State.ownerSlots
  repeat' (first | with_reducible assumption | exact part_trans (by decide) hT | with_reducible apply State.putSlot_within | exact Or.inl (hT (by decide)) | exact Or.inr (hT (by simp)))

theorem State.drbgUse_within {T : List Part} {s0 s : State} (h : State.Within T s0 s) (hT : [.block 18, .freeIx] ⊆ T) : State.Within T s0 (State.drbgUse s) := by
  unfold State.drbgUse
  repeat' (first | with_reducible assumption | exact part_trans (by decide) hT | with_reducible apply State.useFree_within | with_reducible apply State.setF_within | exact Or.inl (hT (by decide)) | exact Or.inr (hT (by simp)))

theorem State.notifyPin_within {T : List Part} {s0 s : State} (h : State.Within T s0 s) (hT : [.block 14, .notes, .pl] ⊆ T) (n : Nat) (a : Nat) : State.Within T s0 (State.notifyPin s n a) := by
  unfold State.notifyPin
  repeat' (first | with_reducible assumption | exact part_trans (by decide) hT | intro _ | extract_lets | with_reducible apply within_ite | with_reducible apply State.pinFilledAt_within | fail_if_no_progress ((with_reducible apply within_upd) <;> first | with_reducible exact Or.inl rfl | exact Or.inr (hT (by decide)) | skip) | exact Or.inl (hT (by decide)) | exact Or.inr (hT (by simp)) | split | dsimp +zetaDelta only)

theorem State.keyEnd_within {T : List Part} {s0 s : State} (h : State.Within T s0 s) (hT : [.block 14, .cmp, .mem, .notes, .pl, .resp] ⊆ T) (r : KeyReq) (st : Nat) (result : Nat) (output : List Byte) : State.Within T s0 (State.keyEnd s r st result output) := by
  unfold State.keyEnd
  repeat' (first | with_reducible assumption | exact part_trans (by decide) hT | with_reducible apply State.writeNat_within | with_reducible apply State.notifyPin_within | with_reducible apply State.answer_within | with_reducible apply State.finishCall_within | exact Or.inl (hT (by decide)) | exact Or.inr (hT (by simp)) | with_reducible split)

theorem State.keyRefused_within {T : List Part} {s0 s : State} (h : State.Within T s0 s) (hT : [.block 14, .block 18, .cmp, .mem, .notes, .pl, .resp] ⊆ T) (r : KeyReq) (st : Nat) : State.Within T s0 (State.keyRefused s r st) := by
  unfold State.keyRefused
  repeat' (first | with_reducible assumption | exact part_trans (by decide) hT | with_reducible apply State.bump_within | with_reducible apply State.keyEnd_within | exact Or.inl (hT (by decide)) | exact Or.inr (hT (by simp)))

theorem State.keyOut_within {T : List Part} {s0 s : State} (h : State.Within T s0 s) (hT : [.block 14, .cmp, .mem, .notes, .pl, .resp] ⊆ T) (r : KeyReq) (b : KeyBlk) (o : List Byte) : State.Within T s0 (State.keyOut s r b o) := by
  unfold State.keyOut
  repeat' (first | with_reducible assumption | exact part_trans (by decide) hT | with_reducible apply State.writeBytes_within | with_reducible apply State.keyEnd_within | exact Or.inl (hT (by decide)) | exact Or.inr (hT (by simp)) | with_reducible split)

theorem State.setKeyArea_within {T : List Part} {s0 s : State} (h : State.Within T s0 s) (hT : [.ky] ⊆ T) (a : Nat) (v : KeyArea) : State.Within T s0 (State.setKeyArea s a v) := by
  unfold State.setKeyArea
  repeat' (first | with_reducible assumption | exact part_trans (by decide) hT | with_reducible intro _ | with_reducible apply within_ite | fail_if_no_progress ((with_reducible apply within_upd) <;> first | with_reducible exact Or.inl rfl | exact Or.inr (hT (by decide)) | skip) | exact Or.inl (hT (by decide)) | exact Or.inr (hT (by simp)))

theorem State.keyStoreRun_within {T : List Part} {s0 s : State} (h : State.Within T s0 s) (hT : [.block 14, .block 16, .block 18, .cmp, .ky, .mem, .ms, .notes, .pl, .resp] ⊆ T) (j : KeyJob) : State.Within T s0 (State.keyStoreRun s j) := by
  unfold State.keyStoreRun
  repeat' (first | with_reducible assumption | exact part_trans (by decide) hT | intro _ | extract_lets | with_reducible apply within_ite | with_reducible apply State.keyEnd_within | with_reducible apply State.nandSubmit_within | with_reducible apply State.setF_within | fail_if_no_progress ((with_reducible apply within_upd) <;> first | with_reducible exact Or.inl rfl | exact Or.inr (hT (by decide)) | skip) | exact Or.inl (hT (by decide)) | exact Or.inr (hT (by simp)) | split | dsimp +zetaDelta only)

theorem State.blobDone_within {T : List Part} {s0 s : State} (h : State.Within T s0 s) (hT : [.block 18, .ky] ⊆ T) (area : Nat) (b : KeyBlob) : State.Within T s0 (State.blobDone s area b) := by
  unfold State.blobDone
  repeat' (first | with_reducible assumption | exact part_trans (by decide) hT | with_reducible apply State.setF_within | with_reducible apply State.setB_within | fail_if_no_progress ((with_reducible apply within_upd) <;> first | with_reducible exact Or.inl rfl | exact Or.inr (hT (by decide)) | skip) | exact Or.inl (hT (by decide)) | exact Or.inr (hT (by simp)))

theorem State.keyWriteStep_within {T : List Part} {s0 s : State} (h : State.Within T s0 s) (hT : [.block 18, .ky] ⊆ T) (w : KeyWrite) : Within1 T s0 (State.keyWriteStep s w) := by
  unfold State.keyWriteStep
  repeat' (first | with_reducible assumption | exact part_trans (by decide) hT | with_reducible intro _ | with_reducible apply within1_ite | with_reducible apply State.setKeyArea_within | with_reducible apply State.blobDone_within | with_reducible apply within1_ite | with_reducible apply within2_ite | with_reducible apply withinO_some | with_reducible apply withinO_none | with_reducible apply withinO_ite | with_reducible split | with_reducible apply within1_mk | with_reducible apply within2_mk | exact Or.inl (hT (by decide)) | exact Or.inr (hT (by simp)))

theorem State.keyCreate_within {T : List Part} {s0 s : State} (h : State.Within T s0 s) (hT : [.block 14, .block 16, .block 18, .block 21, .cmp, .ky, .mem, .ms, .notes, .out, .pa, .pl, .resp] ⊆ T) (r : KeyReq) (b : KeyBlk) (attr : Nat) (mat : Nat) : State.Within T s0 (State.keyCreate s r b attr mat) := by
  unfold State.keyCreate
  repeat' (first | with_reducible assumption | exact part_trans (by decide) hT | with_reducible apply State.putSlot_within | with_reducible apply State.mirrorSlot_within | with_reducible apply State.keyStoreRun_within | exact Or.inl (hT (by decide)) | exact Or.inr (hT (by simp)))

theorem State.signFail_within {T : List Part} {s0 s : State} (h : State.Within T s0 s) (hT : [.block 14, .block 18, .cmp, .mem, .notes, .pl, .resp] ⊆ T) (r : KeyReq) : State.Within T s0 (State.signFail s r) := by
  unfold State.signFail
  repeat' (first | with_reducible assumption | exact part_trans (by decide) hT | with_reducible apply State.raise_within | with_reducible apply State.keyEnd_within | exact Or.inl (hT (by decide)) | exact Or.inr (hT (by simp)))

theorem State.keyOutCap_within {T : List Part} {s0 s : State} (h : State.Within T s0 s) (hT : [.block 14, .block 18, .cmp, .mem, .notes, .pl, .resp] ⊆ T) (r : KeyReq) (b : KeyBlk) (o : List Byte) : State.Within T s0 (State.keyOutCap s r b o) := by
  unfold State.keyOutCap
  repeat' (first | with_reducible assumption | exact part_trans (by decide) hT | with_reducible intro _ | with_reducible apply within_ite | with_reducible apply State.keyRefused_within | with_reducible apply State.keyOut_within | exact Or.inl (hT (by decide)) | exact Or.inr (hT (by simp)))

theorem State.commission_within {T : List Part} {s0 s : State} (h : State.Within T s0 s) (hT : [.block 14, .block 16, .block 18, .block 19, .cmp, .freeIx, .ky, .mem, .ms, .notes, .pl, .resp, .ro] ⊆ T) (r : KeyReq) : State.Within T s0 (State.commission s r) := by
  unfold State.commission
  repeat' (first | with_reducible assumption | exact part_trans (by decide) hT | with_reducible apply State.drbgUse_within | with_reducible apply State.ownerSlots_within | with_reducible apply State.setF_within | with_reducible apply State.keyStoreRun_within | fail_if_no_progress ((with_reducible apply within_upd) <;> first | with_reducible exact Or.inl rfl | exact Or.inr (hT (by decide)) | skip) | exact Or.inl (hT (by decide)) | exact Or.inr (hT (by simp)))

theorem State.keyRun_within {T : List Part} {s0 s : State} (h : State.Within T s0 s) (hT : [.block 14, .block 18, .block 20, .cmp, .freeIx, .ky, .mem, .notes, .pl, .resp, .ro] ⊆ T) (op : Nat) (f : State → KeyReq → KeyBlk → State) (hf : ∀ s y1 y2, State.Within T s0 s → State.Within T s0 (f s y1 y2)) : State.Within T s0 (State.keyRun s op f) := by
  unfold State.keyRun
  repeat' (first | with_reducible assumption | exact part_trans (by decide) hT | intro _ | extract_lets | with_reducible apply within_ite | with_reducible apply State.keyRefused_within | with_reducible apply State.auditNote_within | with_reducible apply State.audited_within | with_reducible apply hf | fail_if_no_progress ((with_reducible apply within_upd) <;> first | with_reducible exact Or.inl rfl | exact Or.inr (hT (by decide)) | skip) | exact Or.inl (hT (by decide)) | exact Or.inr (hT (by simp)) | split | dsimp +zetaDelta only)

theorem State.keyCmd_within {T : List Part} {s0 s : State} (h : State.Within T s0 s) (hT : [.block 1, .block 18, .ky, .resp] ⊆ T) (a : Nat) : State.Within T s0 (State.keyCmd s a) := by
  unfold State.keyCmd
  repeat' (first | with_reducible assumption | exact part_trans (by decide) hT | intro _ | extract_lets | with_reducible apply within_ite | with_reducible apply State.refuse_within | with_reducible apply State.gatedRefuse_within | with_reducible apply State.answer_within | fail_if_no_progress ((with_reducible apply within_upd) <;> first | with_reducible exact Or.inl rfl | exact Or.inr (hT (by decide)) | skip) | exact Or.inl (hT (by decide)) | exact Or.inr (hT (by simp)) | split | dsimp +zetaDelta only)

theorem execKeyCmdWrite_within {T : List Part} {s0 s : State} (h : State.Within T s0 s) (hT : [.block 1, .block 18, .block 20, .freeIx, .ky, .notes, .resp, .ro] ⊆ T) (addr : Word) : WithinRes T s0 (execKeyCmdWrite addr s) := by
  unfold execKeyCmdWrite
  repeat' (first | with_reducible assumption | exact part_trans (by decide) hT | intro _ | extract_lets | with_reducible apply withinRes_next | with_reducible apply withinRes_ite | with_reducible apply within_ite | with_reducible apply State.recorded_within | with_reducible apply State.keyCmd_within | fail_if_no_progress ((with_reducible apply within_upd) <;> first | with_reducible exact Or.inl rfl | exact Or.inr (hT (by decide)) | skip) | exact Or.inl (hT (by decide)) | exact Or.inr (hT (by simp)) | split | dsimp +zetaDelta only)

theorem execKeyGenerate_within {T : List Part} {s0 s : State} (h : State.Within T s0 s) (hT : [.block 14, .block 16, .block 18, .block 20, .block 21, .cmp, .freeIx, .ky, .mem, .ms, .notes, .out, .pa, .pl, .resp, .ro] ⊆ T) : WithinRes T s0 (execKeyGenerate s) := by
  unfold execKeyGenerate
  repeat' (first | with_reducible assumption | exact part_trans (by decide) hT | intro _ | extract_lets | with_reducible apply withinRes_next | with_reducible apply withinRes_ite | with_reducible apply within_ite | with_reducible apply State.keyRun_within | with_reducible apply State.drbgUse_within | with_reducible apply State.keyCreate_within | fail_if_no_progress ((with_reducible apply within_upd) <;> first | with_reducible exact Or.inl rfl | exact Or.inr (hT (by decide)) | skip) | exact Or.inl (hT (by decide)) | exact Or.inr (hT (by simp)) | split | dsimp +zetaDelta only)

theorem execKeyDerive_within {T : List Part} {s0 s : State} (h : State.Within T s0 s) (hT : [.block 14, .block 16, .block 18, .block 20, .block 21, .cmp, .freeIx, .ky, .mem, .ms, .notes, .out, .pa, .pl, .resp, .ro] ⊆ T) : WithinRes T s0 (execKeyDerive s) := by
  unfold execKeyDerive
  repeat' (first | with_reducible assumption | exact part_trans (by decide) hT | intro _ | extract_lets | with_reducible apply withinRes_next | with_reducible apply withinRes_ite | with_reducible apply within_ite | with_reducible apply State.keyRun_within | with_reducible apply State.keyCreate_within | fail_if_no_progress ((with_reducible apply within_upd) <;> first | with_reducible exact Or.inl rfl | exact Or.inr (hT (by decide)) | skip) | exact Or.inl (hT (by decide)) | exact Or.inr (hT (by simp)) | split | dsimp +zetaDelta only)

theorem execKeyImport_within {T : List Part} {s0 s : State} (h : State.Within T s0 s) (hT : [.block 14, .block 16, .block 18, .block 20, .block 21, .cmp, .freeIx, .ky, .mem, .ms, .notes, .out, .pa, .pl, .resp, .ro] ⊆ T) : WithinRes T s0 (execKeyImport s) := by
  unfold execKeyImport
  repeat' (first | with_reducible assumption | exact part_trans (by decide) hT | intro _ | extract_lets | with_reducible apply withinRes_next | with_reducible apply withinRes_ite | with_reducible apply within_ite | with_reducible apply State.keyRun_within | with_reducible apply State.keyEnd_within | with_reducible apply State.keyCreate_within | fail_if_no_progress ((with_reducible apply within_upd) <;> first | with_reducible exact Or.inl rfl | exact Or.inr (hT (by decide)) | skip) | exact Or.inl (hT (by decide)) | exact Or.inr (hT (by simp)) | split | dsimp +zetaDelta only)

theorem execKeyExport_within {T : List Part} {s0 s : State} (h : State.Within T s0 s) (hT : [.block 14, .block 18, .block 20, .cmp, .freeIx, .ky, .mem, .notes, .pl, .resp, .ro] ⊆ T) : WithinRes T s0 (execKeyExport s) := by
  unfold execKeyExport
  repeat' (first | with_reducible assumption | exact part_trans (by decide) hT | intro _ | extract_lets | with_reducible apply withinRes_next | with_reducible apply withinRes_ite | with_reducible apply within_ite | with_reducible apply State.keyRun_within | with_reducible apply State.keyOut_within | fail_if_no_progress ((with_reducible apply within_upd) <;> first | with_reducible exact Or.inl rfl | exact Or.inr (hT (by decide)) | skip) | exact Or.inl (hT (by decide)) | exact Or.inr (hT (by simp)) | split | dsimp +zetaDelta only)

theorem execKeyRestrict_within {T : List Part} {s0 s : State} (h : State.Within T s0 s) (hT : [.block 14, .block 16, .block 18, .block 20, .block 21, .cmp, .freeIx, .ky, .mem, .ms, .notes, .out, .pa, .pl, .resp, .ro] ⊆ T) : WithinRes T s0 (execKeyRestrict s) := by
  unfold execKeyRestrict
  repeat' (first | with_reducible assumption | exact part_trans (by decide) hT | intro _ | extract_lets | with_reducible apply withinRes_next | with_reducible apply withinRes_ite | with_reducible apply within_ite | with_reducible apply State.keyRun_within | with_reducible apply State.putSlot_within | with_reducible apply State.mirrorSlot_within | with_reducible apply State.keyStoreRun_within | fail_if_no_progress ((with_reducible apply within_upd) <;> first | with_reducible exact Or.inl rfl | exact Or.inr (hT (by decide)) | skip) | exact Or.inl (hT (by decide)) | exact Or.inr (hT (by simp)) | split | dsimp +zetaDelta only)

theorem execKeyDestroy_within {T : List Part} {s0 s : State} (h : State.Within T s0 s) (hT : [.block 14, .block 16, .block 18, .block 20, .block 21, .cmp, .freeIx, .ky, .mem, .ms, .notes, .out, .pa, .pl, .resp, .ro] ⊆ T) : WithinRes T s0 (execKeyDestroy s) := by
  unfold execKeyDestroy
  repeat' (first | with_reducible assumption | exact part_trans (by decide) hT | intro _ | extract_lets | with_reducible apply withinRes_next | with_reducible apply withinRes_ite | with_reducible apply within_ite | with_reducible apply State.keyRun_within | with_reducible apply State.delSlot_within | with_reducible apply State.mirrorDestroy_within | with_reducible apply State.keyStoreRun_within | fail_if_no_progress ((with_reducible apply within_upd) <;> first | with_reducible exact Or.inl rfl | exact Or.inr (hT (by decide)) | skip) | exact Or.inl (hT (by decide)) | exact Or.inr (hT (by simp)) | split | dsimp +zetaDelta only)

theorem execKeyAttest_within {T : List Part} {s0 s : State} (h : State.Within T s0 s) (hT : [.block 14, .block 18, .block 20, .cmp, .freeIx, .ky, .mem, .notes, .pl, .resp, .ro] ⊆ T) (signFails : Bool) : WithinRes T s0 (execKeyAttest signFails s) := by
  unfold execKeyAttest
  repeat' (first | with_reducible assumption | exact part_trans (by decide) hT | intro _ | extract_lets | with_reducible apply withinRes_next | with_reducible apply withinRes_ite | with_reducible apply within_ite | with_reducible apply State.keyRun_within | with_reducible apply State.signFail_within | with_reducible apply State.useFree_within | with_reducible apply State.keyOutCap_within | fail_if_no_progress ((with_reducible apply within_upd) <;> first | with_reducible exact Or.inl rfl | exact Or.inr (hT (by decide)) | skip) | exact Or.inl (hT (by decide)) | exact Or.inr (hT (by simp)) | split | dsimp +zetaDelta only)

theorem execKeySign_within {T : List Part} {s0 s : State} (h : State.Within T s0 s) (hT : [.block 14, .block 18, .block 20, .cmp, .freeIx, .ky, .mem, .notes, .pl, .resp, .ro] ⊆ T) (signFails : Bool) : WithinRes T s0 (execKeySign signFails s) := by
  unfold execKeySign
  repeat' (first | with_reducible assumption | exact part_trans (by decide) hT | intro _ | extract_lets | with_reducible apply withinRes_next | with_reducible apply withinRes_ite | with_reducible apply within_ite | with_reducible apply State.keyRun_within | with_reducible apply State.signFail_within | with_reducible apply State.useFree_within | with_reducible apply State.keyOut_within | fail_if_no_progress ((with_reducible apply within_upd) <;> first | with_reducible exact Or.inl rfl | exact Or.inr (hT (by decide)) | skip) | exact Or.inl (hT (by decide)) | exact Or.inr (hT (by simp)) | split | dsimp +zetaDelta only)

theorem execKeyKmac_within {T : List Part} {s0 s : State} (h : State.Within T s0 s) (hT : [.block 14, .block 18, .block 20, .cmp, .freeIx, .ky, .mem, .notes, .pl, .resp, .ro] ⊆ T) : WithinRes T s0 (execKeyKmac s) := by
  unfold execKeyKmac
  repeat' (first | with_reducible assumption | exact part_trans (by decide) hT | intro _ | extract_lets | with_reducible apply withinRes_next | with_reducible apply withinRes_ite | with_reducible apply within_ite | with_reducible apply State.keyRun_within | with_reducible apply State.keyOut_within | fail_if_no_progress ((with_reducible apply within_upd) <;> first | with_reducible exact Or.inl rfl | exact Or.inr (hT (by decide)) | skip) | exact Or.inl (hT (by decide)) | exact Or.inr (hT (by simp)) | split | dsimp +zetaDelta only)

theorem execKeyWrapData_within {T : List Part} {s0 s : State} (h : State.Within T s0 s) (hT : [.block 14, .block 18, .block 20, .cmp, .freeIx, .ky, .mem, .notes, .pl, .resp, .ro] ⊆ T) : WithinRes T s0 (execKeyWrapData s) := by
  unfold execKeyWrapData
  repeat' (first | with_reducible assumption | exact part_trans (by decide) hT | intro _ | extract_lets | with_reducible apply withinRes_next | with_reducible apply withinRes_ite | with_reducible apply within_ite | with_reducible apply State.keyRun_within | with_reducible apply State.keyOut_within | fail_if_no_progress ((with_reducible apply within_upd) <;> first | with_reducible exact Or.inl rfl | exact Or.inr (hT (by decide)) | skip) | exact Or.inl (hT (by decide)) | exact Or.inr (hT (by simp)) | split | dsimp +zetaDelta only)

theorem execKeyRandom_within {T : List Part} {s0 s : State} (h : State.Within T s0 s) (hT : [.block 14, .block 18, .block 20, .cmp, .freeIx, .ky, .mem, .notes, .pl, .resp, .ro] ⊆ T) : WithinRes T s0 (execKeyRandom s) := by
  unfold execKeyRandom
  repeat' (first | with_reducible assumption | exact part_trans (by decide) hT | intro _ | extract_lets | with_reducible apply withinRes_next | with_reducible apply withinRes_ite | with_reducible apply within_ite | with_reducible apply State.keyRun_within | with_reducible apply State.drbgUse_within | with_reducible apply State.keyOut_within | fail_if_no_progress ((with_reducible apply within_upd) <;> first | with_reducible exact Or.inl rfl | exact Or.inr (hT (by decide)) | skip) | exact Or.inl (hT (by decide)) | exact Or.inr (hT (by simp)) | split | dsimp +zetaDelta only)

theorem execKeyDecaps_within {T : List Part} {s0 s : State} (h : State.Within T s0 s) (hT : [.block 14, .block 16, .block 18, .block 20, .block 21, .cmp, .freeIx, .ky, .mem, .ms, .notes, .out, .pa, .pl, .resp, .ro] ⊆ T) : WithinRes T s0 (execKeyDecaps s) := by
  unfold execKeyDecaps
  repeat' (first | with_reducible assumption | exact part_trans (by decide) hT | intro _ | extract_lets | with_reducible apply withinRes_next | with_reducible apply withinRes_ite | with_reducible apply within_ite | with_reducible apply State.keyRun_within | with_reducible apply State.keyCreate_within | fail_if_no_progress ((with_reducible apply within_upd) <;> first | with_reducible exact Or.inl rfl | exact Or.inr (hT (by decide)) | skip) | exact Or.inl (hT (by decide)) | exact Or.inr (hT (by simp)) | split | dsimp +zetaDelta only)

theorem execKeyPublic_within {T : List Part} {s0 s : State} (h : State.Within T s0 s) (hT : [.block 14, .block 18, .block 20, .cmp, .freeIx, .ky, .mem, .notes, .pl, .resp, .ro] ⊆ T) : WithinRes T s0 (execKeyPublic s) := by
  unfold execKeyPublic
  repeat' (first | with_reducible assumption | exact part_trans (by decide) hT | intro _ | extract_lets | with_reducible apply withinRes_next | with_reducible apply withinRes_ite | with_reducible apply within_ite | with_reducible apply State.keyRun_within | with_reducible apply State.keyOut_within | fail_if_no_progress ((with_reducible apply within_upd) <;> first | with_reducible exact Or.inl rfl | exact Or.inr (hT (by decide)) | skip) | exact Or.inl (hT (by decide)) | exact Or.inr (hT (by simp)) | split | dsimp +zetaDelta only)

theorem execKeyCommission_within {T : List Part} {s0 s : State} (h : State.Within T s0 s) (hT : [.block 14, .block 16, .block 18, .block 19, .block 20, .cmp, .freeIx, .ky, .mem, .ms, .notes, .pl, .resp, .ro] ⊆ T) : WithinRes T s0 (execKeyCommission s) := by
  unfold execKeyCommission
  repeat' (first | with_reducible assumption | exact part_trans (by decide) hT | intro _ | extract_lets | with_reducible apply withinRes_next | with_reducible apply withinRes_ite | with_reducible apply within_ite | with_reducible apply State.keyRun_within | with_reducible apply State.commission_within | fail_if_no_progress ((with_reducible apply within_upd) <;> first | with_reducible exact Or.inl rfl | exact Or.inr (hT (by decide)) | skip) | exact Or.inl (hT (by decide)) | exact Or.inr (hT (by simp)) | split | dsimp +zetaDelta only)

theorem execKeyCert_within {T : List Part} {s0 s : State} (h : State.Within T s0 s) (hT : [.block 14, .block 18, .block 20, .cmp, .freeIx, .ky, .mem, .notes, .pl, .resp, .ro] ⊆ T) : WithinRes T s0 (execKeyCert s) := by
  unfold execKeyCert
  repeat' (first | with_reducible assumption | exact part_trans (by decide) hT | intro _ | extract_lets | with_reducible apply withinRes_next | with_reducible apply withinRes_ite | with_reducible apply within_ite | with_reducible apply State.keyRun_within | with_reducible apply State.keyOut_within | fail_if_no_progress ((with_reducible apply within_upd) <;> first | with_reducible exact Or.inl rfl | exact Or.inr (hT (by decide)) | skip) | exact Or.inl (hT (by decide)) | exact Or.inr (hT (by simp)) | split | dsimp +zetaDelta only)

theorem execKeyVerify_within {T : List Part} {s0 s : State} (h : State.Within T s0 s) (hT : [.block 14, .block 18, .block 20, .cmp, .freeIx, .ky, .mem, .notes, .pl, .resp, .ro] ⊆ T) : WithinRes T s0 (execKeyVerify s) := by
  unfold execKeyVerify
  repeat' (first | with_reducible assumption | exact part_trans (by decide) hT | intro _ | extract_lets | with_reducible apply withinRes_next | with_reducible apply withinRes_ite | with_reducible apply within_ite | with_reducible apply State.keyRun_within | with_reducible apply State.keyEnd_within | fail_if_no_progress ((with_reducible apply within_upd) <;> first | with_reducible exact Or.inl rfl | exact Or.inr (hT (by decide)) | skip) | exact Or.inl (hT (by decide)) | exact Or.inr (hT (by simp)) | split | dsimp +zetaDelta only)

theorem execEntropyHealthFail_within {T : List Part} {s0 s : State} (h : State.Within T s0 s) (hT : [.block 18, .notes] ⊆ T) : WithinRes T s0 (execEntropyHealthFail s) := by
  unfold execEntropyHealthFail
  repeat' (first | with_reducible assumption | exact part_trans (by decide) hT | intro _ | extract_lets | with_reducible apply withinRes_next | with_reducible apply withinRes_ite | with_reducible apply within_ite | with_reducible apply State.setF_within | with_reducible apply State.raise_within | fail_if_no_progress ((with_reducible apply within_upd) <;> first | with_reducible exact Or.inl rfl | exact Or.inr (hT (by decide)) | skip) | exact Or.inl (hT (by decide)) | exact Or.inr (hT (by simp)) | split | dsimp +zetaDelta only)

theorem State.keyBoot_within {T : List Part} {s0 s : State} (h : State.Within T s0 s) (hT : [.block 16, .block 18, .ky, .ms, .notes] ⊆ T) : State.Within T s0 (State.keyBoot s) := by
  unfold State.keyBoot
  repeat' (first | with_reducible assumption | exact part_trans (by decide) hT | intro _ | extract_lets | with_reducible apply within_ite | with_reducible apply State.putSlot_within | with_reducible apply State.setF_within | with_reducible apply State.ownerSlots_within | with_reducible apply State.raise_within | with_reducible apply State.blobDone_within | with_reducible apply State.each_within | with_reducible apply State.nandSubmit_within | fail_if_no_progress ((with_reducible apply within_upd) <;> first | with_reducible exact Or.inl rfl | exact Or.inr (hT (by decide)) | skip) | exact Or.inl (hT (by decide)) | exact Or.inr (hT (by simp)) | split | dsimp +zetaDelta only)

theorem State.tunnelPut_within {T : List Part} {s0 s : State} (h : State.Within T s0 s) (hT : [.block 23, .notes, .svc] ⊆ T) (m : Msg) : State.Within T s0 (State.tunnelPut s m) := by
  unfold State.tunnelPut
  repeat' (first | with_reducible assumption | exact part_trans (by decide) hT | with_reducible apply State.raiseIf_within | fail_if_no_progress ((with_reducible apply within_upd) <;> first | with_reducible exact Or.inl rfl | exact Or.inr (hT (by decide)) | skip) | exact Or.inl (hT (by decide)) | exact Or.inr (hT (by simp)))

theorem State.viaTunnel_within {T : List Part} {s0 s : State} (h : State.Within T s0 s) (hT : [.block 23, .notes, .out, .svc] ⊆ T) (tunnel : Bool) (f : State → State)  (hf : ∀ s, State.Within T s0 s → State.Within T s0 (f s)) : State.Within T s0 (State.viaTunnel s tunnel f) := by
  unfold State.viaTunnel
  repeat' (first | with_reducible assumption | exact part_trans (by decide) hT | with_reducible intro _ | with_reducible apply within_ite | with_reducible apply State.each_within | with_reducible apply State.tunnelPut_within | with_reducible apply hf | fail_if_no_progress ((with_reducible apply within_upd) <;> first | with_reducible exact Or.inl rfl | exact Or.inr (hT (by decide)) | skip) | exact Or.inl (hT (by decide)) | exact Or.inr (hT (by simp)))

theorem State.cmpAnswer_within {T : List Part} {s0 s : State} (h : State.Within T s0 s) (hT : [.out, .resp] ⊆ T) (st : Nat) : State.Within T s0 (State.cmpAnswer s st) := by
  unfold State.cmpAnswer
  repeat' (first | with_reducible assumption | exact part_trans (by decide) hT | intro _ | extract_lets | with_reducible apply within_ite | with_reducible apply State.emit_within | with_reducible apply State.answer_within | fail_if_no_progress ((with_reducible apply within_upd) <;> first | with_reducible exact Or.inl rfl | exact Or.inr (hT (by decide)) | skip) | exact Or.inl (hT (by decide)) | exact Or.inr (hT (by simp)) | split | dsimp +zetaDelta only)

theorem State.cmpTell_within {T : List Part} {s0 s : State} (h : State.Within T s0 s) (hT : [.out, .resp] ⊆ T) (st : Nat) : State.Within T s0 (State.cmpTell s st) := by
  unfold State.cmpTell
  repeat' (first | with_reducible assumption | exact part_trans (by decide) hT | intro _ | extract_lets | with_reducible apply within_ite | with_reducible apply State.emit_within | with_reducible apply State.answer_within | fail_if_no_progress ((with_reducible apply within_upd) <;> first | with_reducible exact Or.inl rfl | exact Or.inr (hT (by decide)) | skip) | exact Or.inl (hT (by decide)) | exact Or.inr (hT (by simp)) | split | dsimp +zetaDelta only)

theorem State.setSession_within {T : List Part} {s0 s : State} (h : State.Within T s0 s) (hT : [.ro] ⊆ T) (n : Nat) (v : Session) : State.Within T s0 (State.setSession s n v) := by
  unfold State.setSession
  repeat' (first | with_reducible assumption | exact part_trans (by decide) hT | fail_if_no_progress ((with_reducible apply within_upd) <;> first | with_reducible exact Or.inl rfl | exact Or.inr (hT (by decide)) | skip) | exact Or.inl (hT (by decide)) | exact Or.inr (hT (by simp)))

theorem State.cmpOnce_within {T : List Part} {s0 s : State} (h : State.Within T s0 s) (hT : [.cmp, .out, .resp] ⊆ T) (sender : Nat) (mid : Nat) (form : ReqForm) (f : State → State) (hf : ∀ s, State.Within T s0 s → State.Within T s0 (f s)) : State.Within T s0 (State.cmpOnce s sender mid form f) := by
  unfold State.cmpOnce
  repeat' (first | with_reducible assumption | exact part_trans (by decide) hT | intro _ | extract_lets | with_reducible apply within_ite | with_reducible apply State.emit_within | with_reducible apply State.cmpAnswer_within | with_reducible apply hf | fail_if_no_progress ((with_reducible apply within_upd) <;> first | with_reducible exact Or.inl rfl | exact Or.inr (hT (by decide)) | skip) | exact Or.inl (hT (by decide)) | exact Or.inr (hT (by simp)) | split | dsimp +zetaDelta only)

theorem State.cmpRequest_within {T : List Part} {s0 s : State} (h : State.Within T s0 s) (hT : [.block 23, .cmp, .mtb, .notes, .out, .resp, .ro, .svc] ⊆ T) (n : Nat) (mid : Nat) (tunnel : Bool) (form : ReqForm) (t : Nat) (f : Session → State → State) (hf : ∀ y0 s, State.Within T s0 s → State.Within T s0 (f y0 s)) : State.Within T s0 (State.cmpRequest s n mid tunnel form t f) := by
  unfold State.cmpRequest
  repeat' (first | with_reducible assumption | exact part_trans (by decide) hT | intro _ | extract_lets | with_reducible apply within_ite | with_reducible apply State.viaTunnel_within | with_reducible apply State.advance_within | with_reducible apply State.emit_within | with_reducible apply State.cmpOnce_within | with_reducible apply State.setSession_within | with_reducible apply hf | fail_if_no_progress ((with_reducible apply within_upd) <;> first | with_reducible exact Or.inl rfl | exact Or.inr (hT (by decide)) | skip) | exact Or.inl (hT (by decide)) | exact Or.inr (hT (by simp)) | split | dsimp +zetaDelta only)

theorem State.cmpOpen_within {T : List Part} {s0 s : State} (h : State.Within T s0 s) (hT : [.block 23, .cmp, .mtb, .notes, .out, .resp, .svc] ⊆ T) (sender : Nat) (mid : Nat) (tunnel : Bool) (form : ReqForm) (t : Nat) (f : State → State) (hf : ∀ s, State.Within T s0 s → State.Within T s0 (f s)) : State.Within T s0 (State.cmpOpen s sender mid tunnel form t f) := by
  unfold State.cmpOpen
  repeat' (first | with_reducible assumption | exact part_trans (by decide) hT | intro _ | extract_lets | with_reducible apply within_ite | with_reducible apply State.viaTunnel_within | with_reducible apply State.advance_within | with_reducible apply State.cmpOnce_within | with_reducible apply hf | fail_if_no_progress ((with_reducible apply within_upd) <;> first | with_reducible exact Or.inl rfl | exact Or.inr (hT (by decide)) | skip) | exact Or.inl (hT (by decide)) | exact Or.inr (hT (by simp)) | split | dsimp +zetaDelta only)

theorem State.sessionEnd_within {T : List Part} {s0 s : State} (h : State.Within T s0 s) (hT : [.block 20, .cmp, .freeIx, .ky, .notes, .ro] ⊆ T) (n : Nat) : State.Within T s0 (State.sessionEnd s n) := by
  unfold State.sessionEnd
  repeat' (first | with_reducible assumption | exact part_trans (by decide) hT | with_reducible apply State.auditNote_within | with_reducible apply State.delSlot_within | fail_if_no_progress ((with_reducible apply within_upd) <;> first | with_reducible exact Or.inl rfl | exact Or.inr (hT (by decide)) | skip) | exact Or.inl (hT (by decide)) | exact Or.inr (hT (by simp)) | with_reducible split)

theorem State.storeRoles_within {T : List Part} {s0 s : State} (h : State.Within T s0 s) (hT : [.ro] ⊆ T) : State.Within T s0 (State.storeRoles s) := by
  unfold State.storeRoles
  repeat' (first | with_reducible assumption | exact part_trans (by decide) hT | fail_if_no_progress ((with_reducible apply within_upd) <;> first | with_reducible exact Or.inl rfl | exact Or.inr (hT (by decide)) | skip) | exact Or.inl (hT (by decide)) | exact Or.inr (hT (by simp)))

theorem State.setupFail_within {T : List Part} {s0 s : State} (h : State.Within T s0 s) (hT : [.block 20, .freeIx, .notes, .ro] ⊆ T) (digest : Nat) (st : Nat) : State.Within T s0 (State.setupFail s digest st) := by
  unfold State.setupFail
  repeat' (first | with_reducible assumption | exact part_trans (by decide) hT | intro _ | extract_lets | with_reducible apply within_ite | with_reducible apply State.auditNote_within | fail_if_no_progress ((with_reducible apply within_upd) <;> first | with_reducible exact Or.inl rfl | exact Or.inr (hT (by decide)) | skip) | exact Or.inl (hT (by decide)) | exact Or.inr (hT (by simp)) | split | dsimp +zetaDelta only)

theorem State.sessionHello_within {T : List Part} {s0 s : State} (h : State.Within T s0 s) (hT : [.block 18, .block 20, .freeIx, .notes, .out, .resp, .ro] ⊆ T) (digest : Nat) (nonce : Nat) : State.Within T s0 (State.sessionHello s digest nonce) := by
  unfold State.sessionHello
  repeat' (first | with_reducible assumption | exact part_trans (by decide) hT | intro _ | extract_lets | with_reducible apply within_ite | with_reducible apply State.cmpAnswer_within | with_reducible apply State.setupFail_within | with_reducible apply State.drbgUse_within | with_reducible apply State.answer_within | with_reducible apply State.emit_within | with_reducible apply State.useFree_within | fail_if_no_progress ((with_reducible apply within_upd) <;> first | with_reducible exact Or.inl rfl | exact Or.inr (hT (by decide)) | skip) | exact Or.inl (hT (by decide)) | exact Or.inr (hT (by simp)) | split | dsimp +zetaDelta only)

theorem execSessionHello_within {T : List Part} {s0 s : State} (h : State.Within T s0 s) (hT : [.block 18, .block 20, .block 23, .cmp, .freeIx, .mtb, .notes, .out, .resp, .ro, .svc] ⊆ T) (digest : BitVec 256) (nonce : BitVec 128) (mid : Fin 65536) (tunnel : Bool) (form : ReqForm) (t : Nat) : WithinRes T s0 (execSessionHello digest nonce mid tunnel form t s) := by
  unfold execSessionHello
  repeat' (first | with_reducible assumption | exact part_trans (by decide) hT | intro _ | extract_lets | with_reducible apply withinRes_next | with_reducible apply withinRes_ite | with_reducible apply within_ite | with_reducible apply State.cmpOpen_within | with_reducible apply State.sessionHello_within | fail_if_no_progress ((with_reducible apply within_upd) <;> first | with_reducible exact Or.inl rfl | exact Or.inr (hT (by decide)) | skip) | exact Or.inl (hT (by decide)) | exact Or.inr (hT (by simp)) | split | dsimp +zetaDelta only)

theorem State.shakeFail_within {T : List Part} {s0 s : State} (h : State.Within T s0 s) (hT : [.block 20, .freeIx, .notes, .resp, .ro] ⊆ T) (x0 : Handshake) : State.Within T s0 (State.shakeFail s x0) := by
  unfold State.shakeFail
  repeat' (first | with_reducible assumption | exact part_trans (by decide) hT | intro _ | extract_lets | with_reducible apply within_ite | with_reducible apply State.setupFail_within | with_reducible apply State.answer_within | with_reducible apply State.raise_within | fail_if_no_progress ((with_reducible apply within_upd) <;> first | with_reducible exact Or.inl rfl | exact Or.inr (hT (by decide)) | skip) | exact Or.inl (hT (by decide)) | exact Or.inr (hT (by simp)) | split | dsimp +zetaDelta only)

theorem State.sessionFinish_within {T : List Part} {s0 s : State} (h : State.Within T s0 s) (hT : [.block 20, .freeIx, .ky, .notes, .out, .resp, .ro] ⊆ T) (digest : Nat) (ciphertext : List Byte) (signature : Nat) : State.Within T s0 (State.sessionFinish s digest ciphertext signature) := by
  unfold State.sessionFinish
  repeat' (first | with_reducible assumption | exact part_trans (by decide) hT | intro _ | extract_lets | with_reducible apply within_ite | with_reducible apply State.cmpAnswer_within | with_reducible apply State.shakeFail_within | with_reducible apply State.setupFail_within | with_reducible apply State.audited_within | with_reducible apply State.putSlot_within | with_reducible apply State.answer_within | with_reducible apply State.emit_within | with_reducible apply State.raise_within | fail_if_no_progress ((with_reducible apply within_upd) <;> first | with_reducible exact Or.inl rfl | exact Or.inr (hT (by decide)) | skip) | exact Or.inl (hT (by decide)) | exact Or.inr (hT (by simp)) | split | dsimp +zetaDelta only)

theorem execSessionFinish_within {T : List Part} {s0 s : State} (h : State.Within T s0 s) (hT : [.block 20, .block 23, .cmp, .freeIx, .ky, .mtb, .notes, .out, .resp, .ro, .svc] ⊆ T) (digest : BitVec 256) (ciphertext : List Byte) (signature : Nat) (mid : Fin 65536) (tunnel : Bool) (form : ReqForm) (t : Nat) : WithinRes T s0 (execSessionFinish digest ciphertext signature mid tunnel form t s) := by
  unfold execSessionFinish
  repeat' (first | with_reducible assumption | exact part_trans (by decide) hT | intro _ | extract_lets | with_reducible apply withinRes_next | with_reducible apply withinRes_ite | with_reducible apply within_ite | with_reducible apply State.cmpOpen_within | with_reducible apply State.sessionFinish_within | fail_if_no_progress ((with_reducible apply within_upd) <;> first | with_reducible exact Or.inl rfl | exact Or.inr (hT (by decide)) | skip) | exact Or.inl (hT (by decide)) | exact Or.inr (hT (by simp)) | split | dsimp +zetaDelta only)

theorem execSessionDelete_within {T : List Part} {s0 s : State} (h : State.Within T s0 s) (hT : [.block 20, .block 23, .cmp, .freeIx, .ky, .mtb, .notes, .out, .resp, .ro, .svc] ⊆ T) (number : Fin 8) (mid : Fin 65536) (tunnel : Bool) (form : ReqForm) (t : Nat) : WithinRes T s0 (execSessionDelete number mid tunnel form t s) := by
  unfold execSessionDelete
  repeat' (first | with_reducible assumption | exact part_trans (by decide) hT | intro _ | extract_lets | with_reducible apply withinRes_next | with_reducible apply withinRes_ite | with_reducible apply within_ite | with_reducible apply State.cmpOpen_within | with_reducible apply State.cmpAnswer_within | with_reducible apply State.sessionEnd_within | fail_if_no_progress ((with_reducible apply within_upd) <;> first | with_reducible exact Or.inl rfl | exact Or.inr (hT (by decide)) | skip) | exact Or.inl (hT (by decide)) | exact Or.inr (hT (by simp)) | split | dsimp +zetaDelta only)

theorem execSessionIdleExpiry_within {T : List Part} {s0 s : State} (h : State.Within T s0 s) (hT : [.block 20, .cmp, .freeIx, .ky, .mtb, .notes, .ro] ⊆ T) (number : Fin 8) (t : Nat) : WithinRes T s0 (execSessionIdleExpiry number t s) := by
  unfold execSessionIdleExpiry
  repeat' (first | with_reducible assumption | exact part_trans (by decide) hT | intro _ | extract_lets | with_reducible apply withinRes_next | with_reducible apply withinRes_ite | with_reducible apply within_ite | with_reducible apply State.advance_within | with_reducible apply State.sessionEnd_within | fail_if_no_progress ((with_reducible apply within_upd) <;> first | with_reducible exact Or.inl rfl | exact Or.inr (hT (by decide)) | skip) | exact Or.inl (hT (by decide)) | exact Or.inr (hT (by simp)) | split | dsimp +zetaDelta only)

theorem execHandshakeTimeout_within {T : List Part} {s0 s : State} (h : State.Within T s0 s) (hT : [.block 20, .freeIx, .mtb, .notes, .resp, .ro] ⊆ T) (t : Nat) : WithinRes T s0 (execHandshakeTimeout t s) := by
  unfold execHandshakeTimeout
  repeat' (first | with_reducible assumption | exact part_trans (by decide) hT | intro _ | extract_lets | with_reducible apply withinRes_next | with_reducible apply withinRes_ite | with_reducible apply within_ite | with_reducible apply State.advance_within | with_reducible apply State.shakeFail_within | fail_if_no_progress ((with_reducible apply within_upd) <;> first | with_reducible exact Or.inl rfl | exact Or.inr (hT (by decide)) | skip) | exact Or.inl (hT (by decide)) | exact Or.inr (hT (by simp)) | split | dsimp +zetaDelta only)

theorem execRoleEnrol_within {T : List Part} {s0 s : State} (h : State.Within T s0 s) (hT : [.block 20, .cmp, .freeIx, .notes, .resp, .ro] ⊆ T) (ticket : Nat) (role : Fin 4) (pubKey : Nat) : WithinRes T s0 (execRoleEnrol ticket role pubKey s) := by
  unfold execRoleEnrol
  repeat' (first | with_reducible assumption | exact part_trans (by decide) hT | intro _ | extract_lets | with_reducible apply withinRes_next | with_reducible apply withinRes_ite | with_reducible apply within_ite | with_reducible apply State.auditNote_within | with_reducible apply State.finishCall_within | with_reducible apply State.recordedCall_within | with_reducible apply State.storeRoles_within | with_reducible apply State.raise_within | fail_if_no_progress ((with_reducible apply within_upd) <;> first | with_reducible exact Or.inl rfl | exact Or.inr (hT (by decide)) | skip) | exact Or.inl (hT (by decide)) | exact Or.inr (hT (by simp)) | split | dsimp +zetaDelta only)

theorem execRoleRevoke_within {T : List Part} {s0 s : State} (h : State.Within T s0 s) (hT : [.block 20, .cmp, .freeIx, .ky, .notes, .resp, .ro] ⊆ T) (ticket : Nat) (digest : BitVec 256) : WithinRes T s0 (execRoleRevoke ticket digest s) := by
  unfold execRoleRevoke
  repeat' (first | with_reducible assumption | exact part_trans (by decide) hT | intro _ | extract_lets | with_reducible apply withinRes_next | with_reducible apply withinRes_ite | with_reducible apply within_ite | with_reducible apply State.auditNote_within | with_reducible apply State.finishCall_within | with_reducible apply State.recordedCall_within | with_reducible apply State.each_within | with_reducible apply State.sessionEnd_within | with_reducible apply State.storeRoles_within | with_reducible apply State.raise_within | fail_if_no_progress ((with_reducible apply within_upd) <;> first | with_reducible exact Or.inl rfl | exact Or.inr (hT (by decide)) | skip) | exact Or.inl (hT (by decide)) | exact Or.inr (hT (by simp)) | split | dsimp +zetaDelta only)

theorem State.rolesLoad_within {T : List Part} {s0 s : State} (h : State.Within T s0 s) (hT : [.ro] ⊆ T) : State.Within T s0 (State.rolesLoad s) := by
  unfold State.rolesLoad
  repeat' (first | with_reducible assumption | exact part_trans (by decide) hT | with_reducible apply State.storeRoles_within | fail_if_no_progress ((with_reducible apply within_upd) <;> first | with_reducible exact Or.inl rfl | exact Or.inr (hT (by decide)) | skip) | exact Or.inl (hT (by decide)) | exact Or.inr (hT (by simp)))

theorem State.rolesBoot_within {T : List Part} {s0 s : State} (h : State.Within T s0 s) (hT : [.block 20, .notes, .ro] ⊆ T) (ok : Bool) : State.Within T s0 (State.rolesBoot s ok) := by
  unfold State.rolesBoot
  repeat' (first | with_reducible assumption | exact part_trans (by decide) hT | with_reducible intro _ | with_reducible apply State.setF_within | with_reducible apply State.raise_within | fail_if_no_progress ((with_reducible apply within_upd) <;> first | with_reducible exact Or.inl rfl | exact Or.inr (hT (by decide)) | skip) | exact Or.inl (hT (by decide)) | exact Or.inr (hT (by simp)) | with_reducible split)

end Sys2Proof.Machine
end

