-- ==== Sys2Proof/Laws/WithinRadio.lean ====
section
/-!
SUPPORT. What the operations of the radio and the shuttle can do: one lemma per operation, which names the
parts of the state that it may touch and says that it keeps the invariant and the queue. A proof about a step cites these and
unfolds none of the operations.
-/
namespace Sys2Proof.Machine
open Sys2Proof
set_option linter.all false
set_option Elab.async false

theorem State.ctxFree_within {T : List Part} {s0 s : State} (h : State.Within T s0 s) (hT : [.ky] ⊆ T) (k : Nat) : State.Within T s0 (State.ctxFree s k) := by
  unfold State.ctxFree
  repeat' (first | with_reducible assumption | exact part_trans (by decide) hT | fail_if_no_progress ((with_reducible apply within_upd) <;> first | with_reducible exact Or.inl rfl | exact Or.inr (hT (by decide)) | skip) | exact Or.inl (hT (by decide)) | exact Or.inr (hT (by simp)))

theorem State.shadowDone_within {T : List Part} {s0 s : State} (h : State.Within T s0 s) (hT : [.mac] ⊆ T) (n : Nat) : State.Within T s0 (State.shadowDone s n) := by
  unfold State.shadowDone
  repeat' (first | with_reducible assumption | exact part_trans (by decide) hT | intro _ | extract_lets | with_reducible apply within_ite | fail_if_no_progress ((with_reducible apply within_upd) <;> first | with_reducible exact Or.inl rfl | exact Or.inr (hT (by decide)) | skip) | exact Or.inl (hT (by decide)) | exact Or.inr (hT (by simp)) | split | dsimp +zetaDelta only)

theorem State.commitCounter_within {T : List Part} {s0 s : State} (h : State.Within T s0 s) (hT : [.block 21, .mac, .mem, .out, .pa] ⊆ T) (c : Commit) : State.Within T s0 (State.commitCounter s c) := by
  unfold State.commitCounter
  repeat' (first | with_reducible assumption | exact part_trans (by decide) hT | with_reducible intro _ | with_reducible apply within_ite | with_reducible apply State.shadowDone_within | with_reducible apply State.writeBytes_within | with_reducible apply State.journalAt_within | exact Or.inl (hT (by decide)) | exact Or.inr (hT (by simp)))

theorem State.afterTask_within {T : List Part} {s0 s : State} (h : State.Within T s0 s) (hT : [.block 21, .ky, .mac, .mem, .out, .pa] ⊆ T) (t : Task) : State.Within T s0 (State.afterTask s t) := by
  unfold State.afterTask
  repeat' (first | with_reducible assumption | exact part_trans (by decide) hT | with_reducible apply State.ctxFree_within | with_reducible apply State.commitCounter_within | exact Or.inl (hT (by decide)) | exact Or.inr (hT (by simp)) | with_reducible split | with_reducible dsimp +zetaDelta only)

theorem State.setTrx_within {T : List Part} {s0 s : State} (h : State.Within T s0 s) (hT : [.rd] ⊆ T) (n : Nat) (v : Trx) : State.Within T s0 (State.setTrx s n v) := by
  unfold State.setTrx
  repeat' (first | with_reducible assumption | exact part_trans (by decide) hT | fail_if_no_progress ((with_reducible apply within_upd) <;> first | with_reducible exact Or.inl rfl | exact Or.inr (hT (by decide)) | skip) | exact Or.inl (hT (by decide)) | exact Or.inr (hT (by simp)))

theorem State.setLane_within {T : List Part} {s0 s : State} (h : State.Within T s0 s) (hT : [.rd] ⊆ T) (l : Nat) (v : Lane) : State.Within T s0 (State.setLane s l v) := by
  unfold State.setLane
  repeat' (first | with_reducible assumption | exact part_trans (by decide) hT | fail_if_no_progress ((with_reducible apply within_upd) <;> first | with_reducible exact Or.inl rfl | exact Or.inr (hT (by decide)) | skip) | exact Or.inl (hT (by decide)) | exact Or.inr (hT (by simp)))

theorem State.putRx_within {T : List Part} {s0 s : State} (h : State.Within T s0 s) (hT : [.rd] ⊆ T) (k : Nat) (r : Rx) : State.Within T s0 (State.putRx s k r) := by
  unfold State.putRx
  repeat' (first | with_reducible assumption | exact part_trans (by decide) hT | fail_if_no_progress ((with_reducible apply within_upd) <;> first | with_reducible exact Or.inl rfl | exact Or.inr (hT (by decide)) | skip) | exact Or.inl (hT (by decide)) | exact Or.inr (hT (by simp)))

theorem State.delRx_within {T : List Part} {s0 s : State} (h : State.Within T s0 s) (hT : [.rd] ⊆ T) (k : Nat) : State.Within T s0 (State.delRx s k) := by
  unfold State.delRx
  repeat' (first | with_reducible assumption | exact part_trans (by decide) hT | fail_if_no_progress ((with_reducible apply within_upd) <;> first | with_reducible exact Or.inl rfl | exact Or.inr (hT (by decide)) | skip) | exact Or.inl (hT (by decide)) | exact Or.inr (hT (by simp)))

theorem State.setLaneState_within {T : List Part} {s0 s : State} (h : State.Within T s0 s) (hT : [.block 11] ⊆ T) (l : Nat) (st : Nat) : State.Within T s0 (State.setLaneState s l st) := by
  unfold State.setLaneState
  repeat' (first | with_reducible assumption | exact part_trans (by decide) hT | with_reducible apply State.setF_within | exact Or.inl (hT (by decide)) | exact Or.inr (hT (by simp)))

theorem State.laneTune_within {T : List Part} {s0 s : State} (h : State.Within T s0 s) (hT : [.block 11, .rd] ⊆ T) (l : Nat) (chan : Nat) : State.Within T s0 (State.laneTune s l chan) := by
  unfold State.laneTune
  repeat' (first | with_reducible assumption | exact part_trans (by decide) hT | intro _ | extract_lets | with_reducible apply within_ite | with_reducible apply State.setF_within | with_reducible apply State.setLane_within | fail_if_no_progress ((with_reducible apply within_upd) <;> first | with_reducible exact Or.inl rfl | exact Or.inr (hT (by decide)) | skip) | exact Or.inl (hT (by decide)) | exact Or.inr (hT (by simp)) | split | dsimp +zetaDelta only)

theorem State.siKeep_within {T : List Part} {s0 s : State} (h : State.Within T s0 s) (hT : [.rd] ⊆ T) (n : Nat) : State.Within T s0 (State.siKeep s n) := by
  unfold State.siKeep
  repeat' (first | with_reducible assumption | exact part_trans (by decide) hT | intro _ | extract_lets | with_reducible apply within_ite | with_reducible apply State.setTrx_within | fail_if_no_progress ((with_reducible apply within_upd) <;> first | with_reducible exact Or.inl rfl | exact Or.inr (hT (by decide)) | skip) | exact Or.inl (hT (by decide)) | exact Or.inr (hT (by simp)) | split | dsimp +zetaDelta only)

theorem State.trxRefuse_within {T : List Part} {s0 s : State} (h : State.Within T s0 s) (hT : [.block 1, .block 7, .resp] ⊆ T) (n : Nat) (st : Nat) : State.Within T s0 (State.trxRefuse s n st) := by
  unfold State.trxRefuse
  repeat' (first | with_reducible assumption | exact part_trans (by decide) hT | intro _ | extract_lets | with_reducible apply within_ite | with_reducible apply State.gatedRefuse_within | with_reducible apply State.refuse_within | fail_if_no_progress ((with_reducible apply within_upd) <;> first | with_reducible exact Or.inl rfl | exact Or.inr (hT (by decide)) | skip) | exact Or.inl (hT (by decide)) | exact Or.inr (hT (by simp)) | split | dsimp +zetaDelta only)

theorem State.noteWrite_within {T : List Part} {s0 s : State} (h : State.Within T s0 s) (hT : [.mem] ⊆ T) (r : Rx) (off : Nat) (d : List Byte) : State.Within T s0 (State.noteWrite s r off d) := by
  unfold State.noteWrite
  repeat' (first | with_reducible assumption | exact part_trans (by decide) hT | with_reducible apply State.writeBytes_within | exact Or.inl (hT (by decide)) | exact Or.inr (hT (by simp)) | with_reducible split)

theorem State.noteFlags_within {T : List Part} {s0 s : State} (h : State.Within T s0 s) (hT : [.mem] ⊆ T) (r : Rx) (bits : Nat) : State.Within T s0 (State.noteFlags s r bits) := by
  unfold State.noteFlags
  repeat' (first | with_reducible assumption | exact part_trans (by decide) hT | with_reducible apply State.writeNat_within | exact Or.inl (hT (by decide)) | exact Or.inr (hT (by simp)) | with_reducible split)

theorem State.rxWithdraw_within {T : List Part} {s0 s : State} (h : State.Within T s0 s) (hT : [.block 16, .block 21, .ky, .mac, .mem, .ms, .out, .pa, .pl, .queues] ⊆ T) (r : Rx) : State.Within T s0 (State.rxWithdraw s r) := by
  unfold State.rxWithdraw
  repeat' (first | with_reducible assumption | exact part_trans (by decide) hT | with_reducible apply State.rxFree_within | with_reducible apply State.endTask_within | with_reducible apply State.afterTask_within | fail_if_no_progress ((with_reducible apply within_upd) <;> first | with_reducible exact Or.inl rfl | exact Or.inr (hT (by decide)) | skip) | exact Or.inl (hT (by decide)) | exact Or.inr (hT (by simp)) | with_reducible split)

theorem State.rxLost_within {T : List Part} {s0 s : State} (h : State.Within T s0 s) (hT : [.block 11, .block 12, .mac] ⊆ T) (l : Nat) (o : Nat) : State.Within T s0 (State.rxLost s l o) := by
  unfold State.rxLost
  repeat' (first | with_reducible assumption | exact part_trans (by decide) hT | intro _ | extract_lets | with_reducible apply within_ite | with_reducible apply State.bump_within | fail_if_no_progress ((with_reducible apply within_upd) <;> first | with_reducible exact Or.inl rfl | exact Or.inr (hT (by decide)) | skip) | exact Or.inl (hT (by decide)) | exact Or.inr (hT (by simp)) | split | dsimp +zetaDelta only)

theorem State.rxEnd_within {T : List Part} {s0 s : State} (h : State.Within T s0 s) (hT : [.block 11, .block 12, .block 16, .block 21, .ky, .mac, .mem, .ms, .out, .pa, .pl, .queues, .rd] ⊆ T) (k : Nat) (o : Nat) : State.Within T s0 (State.rxEnd s k o) := by
  unfold State.rxEnd
  repeat' (first | with_reducible assumption | exact part_trans (by decide) hT | intro _ | extract_lets | with_reducible apply within_ite | with_reducible apply State.noteFlags_within | with_reducible apply State.noteWrite_within | with_reducible apply State.putRx_within | with_reducible apply State.delRx_within | with_reducible apply State.rxWithdraw_within | with_reducible apply State.rxLost_within | fail_if_no_progress ((with_reducible apply within_upd) <;> first | with_reducible exact Or.inl rfl | exact Or.inr (hT (by decide)) | skip) | exact Or.inl (hT (by decide)) | exact Or.inr (hT (by simp)) | split | dsimp +zetaDelta only)

theorem State.blankLane_within {T : List Part} {s0 s : State} (h : State.Within T s0 s) (hT : [.block 11, .block 12, .block 16, .block 21, .ky, .mac, .mem, .ms, .out, .pa, .pl, .queues, .rd] ⊆ T) (l : Nat) : State.Within T s0 (State.blankLane s l) := by
  unfold State.blankLane
  repeat' (first | with_reducible assumption | exact part_trans (by decide) hT | with_reducible intro _ | with_reducible apply State.setF_within | with_reducible apply State.setLaneState_within | with_reducible apply State.rxEnd_within | with_reducible apply State.setLane_within | exact Or.inl (hT (by decide)) | exact Or.inr (hT (by simp)) | with_reducible split | with_reducible dsimp +zetaDelta only)

theorem State.blankTrx_within {T : List Part} {s0 s : State} (h : State.Within T s0 s) (hT : [.block 11, .block 12, .block 16, .block 21, .ky, .mac, .mem, .ms, .out, .pa, .pl, .queues, .rd] ⊆ T) (n : Nat) : State.Within T s0 (State.blankTrx s n) := by
  unfold State.blankTrx
  repeat' (first | with_reducible assumption | exact part_trans (by decide) hT | with_reducible intro _ | with_reducible apply State.each_within | with_reducible apply State.blankLane_within | exact Or.inl (hT (by decide)) | exact Or.inr (hT (by simp)))

theorem State.unblankTrx_within {T : List Part} {s0 s : State} (h : State.Within T s0 s) (hT : [.block 11, .rd] ⊆ T) (n : Nat) : State.Within T s0 (State.unblankTrx s n) := by
  unfold State.unblankTrx
  repeat' (first | with_reducible assumption | exact part_trans (by decide) hT | intro _ | extract_lets | with_reducible apply within_ite | with_reducible apply State.setTrx_within | with_reducible apply State.each_within | with_reducible apply State.setF_within | with_reducible apply State.setLane_within | with_reducible apply State.setLaneState_within | with_reducible apply State.setB_within | fail_if_no_progress ((with_reducible apply within_upd) <;> first | with_reducible exact Or.inl rfl | exact Or.inr (hT (by decide)) | skip) | exact Or.inl (hT (by decide)) | exact Or.inr (hT (by simp)) | split | dsimp +zetaDelta only)

theorem State.setTrxState_within {T : List Part} {s0 s : State} (h : State.Within T s0 s) (hT : [.block 7] ⊆ T) (n : Nat) (st : Nat) : State.Within T s0 (State.setTrxState s n st) := by
  unfold State.setTrxState
  repeat' (first | with_reducible assumption | exact part_trans (by decide) hT | with_reducible apply State.setF_within | with_reducible apply State.setB_within | exact Or.inl (hT (by decide)) | exact Or.inr (hT (by simp)))

theorem State.trxNext_within {T : List Part} {s0 s : State} (h : State.Within T s0 s) (hT : [.block 7, .rd] ⊆ T) (n : Nat) : State.Within T s0 (State.trxNext s n) := by
  unfold State.trxNext
  repeat' (first | with_reducible assumption | exact part_trans (by decide) hT | intro _ | extract_lets | with_reducible apply within_ite | with_reducible apply State.setF_within | with_reducible apply State.setTrx_within | fail_if_no_progress ((with_reducible apply within_upd) <;> first | with_reducible exact Or.inl rfl | exact Or.inr (hT (by decide)) | skip) | exact Or.inl (hT (by decide)) | exact Or.inr (hT (by simp)) | split | dsimp +zetaDelta only)

theorem State.lnaLow_within {T : List Part} {s0 s : State} (h : State.Within T s0 s) (hT : [.out] ⊆ T) (n : Nat) : State.Within T s0 (State.lnaLow s n) := by
  unfold State.lnaLow
  repeat' (first | with_reducible assumption | exact part_trans (by decide) hT | intro _ | extract_lets | with_reducible apply within_ite | with_reducible apply State.emit_within | fail_if_no_progress ((with_reducible apply within_upd) <;> first | with_reducible exact Or.inl rfl | exact Or.inr (hT (by decide)) | skip) | exact Or.inl (hT (by decide)) | exact Or.inr (hT (by simp)) | split | dsimp +zetaDelta only)

theorem State.startStep_within {T : List Part} {s0 s : State} (h : State.Within T s0 s) (hT : [.block 11, .block 12, .block 16, .block 21, .block 7, .ky, .mac, .mem, .ms, .out, .pa, .pl, .queues, .rd] ⊆ T) (n : Nat) (d : Nat) (k : Nat) : State.Within T s0 (State.startStep s n d k) := by
  unfold State.startStep
  repeat' (first | with_reducible assumption | exact part_trans (by decide) hT | with_reducible intro _ | with_reducible apply within_ite | with_reducible apply State.blankTrx_within | with_reducible apply State.emit_within | with_reducible apply State.setTrx_within | with_reducible apply State.setF_within | exact Or.inl (hT (by decide)) | exact Or.inr (hT (by simp)))

theorem State.trxGo_within {T : List Part} {s0 s : State} (h : State.Within T s0 s) (hT : [.block 11, .block 12, .block 16, .block 21, .block 7, .ky, .mac, .mem, .ms, .out, .pa, .pl, .queues, .rd] ⊆ T) (n : Nat) : State.Within T s0 (State.trxGo s n) := by
  unfold State.trxGo
  repeat' (first | with_reducible assumption | exact part_trans (by decide) hT | intro _ | extract_lets | with_reducible apply within_ite | with_reducible apply State.setF_within | with_reducible apply State.startStep_within | with_reducible apply State.setTrxState_within | fail_if_no_progress ((with_reducible apply within_upd) <;> first | with_reducible exact Or.inl rfl | exact Or.inr (hT (by decide)) | skip) | exact Or.inl (hT (by decide)) | exact Or.inr (hT (by simp)) | split | dsimp +zetaDelta only)

theorem State.toSleep_within {T : List Part} {s0 s : State} (h : State.Within T s0 s) (hT : [.block 11, .block 12, .block 16, .block 21, .block 7, .ky, .mac, .mem, .ms, .out, .pa, .pl, .queues, .rd] ⊆ T) (n : Nat) : State.Within T s0 (State.toSleep s n) := by
  unfold State.toSleep
  repeat' (first | with_reducible assumption | exact part_trans (by decide) hT | intro _ | extract_lets | with_reducible apply within_ite | with_reducible apply State.blankTrx_within | with_reducible apply State.lnaLow_within | with_reducible apply State.setTrxState_within | with_reducible apply State.setTrx_within | with_reducible apply State.setF_within | fail_if_no_progress ((with_reducible apply within_upd) <;> first | with_reducible exact Or.inl rfl | exact Or.inr (hT (by decide)) | skip) | exact Or.inl (hT (by decide)) | exact Or.inr (hT (by simp)) | split | dsimp +zetaDelta only)

theorem State.showTx_within {T : List Part} {s0 s : State} (h : State.Within T s0 s) (hT : [.block 7] ⊆ T) (n : Nat) : State.Within T s0 (State.showTx s n) := by
  unfold State.showTx
  repeat' (first | with_reducible assumption | exact part_trans (by decide) hT | with_reducible apply State.setF_within | with_reducible apply State.setB_within | exact Or.inl (hT (by decide)) | exact Or.inr (hT (by simp)))

theorem State.coexLines_within {T : List Part} {s0 s : State} (h : State.Within T s0 s) (hT : [.out] ⊆ T) (n : Nat) (at_ : Nat) : State.Within T s0 (State.coexLines s n at_) := by
  unfold State.coexLines
  repeat' (first | with_reducible assumption | exact part_trans (by decide) hT | intro _ | extract_lets | with_reducible apply within_ite | with_reducible apply State.emit_within | fail_if_no_progress ((with_reducible apply within_upd) <;> first | with_reducible exact Or.inl rfl | exact Or.inr (hT (by decide)) | skip) | exact Or.inl (hT (by decide)) | exact Or.inr (hT (by simp)) | split | dsimp +zetaDelta only)

theorem State.coexCheck_within {T : List Part} {s0 s : State} (h : State.Within T s0 s) (hT : [.out, .rd] ⊆ T) (n : Nat) : State.Within T s0 (State.coexCheck s n) := by
  unfold State.coexCheck
  repeat' (first | with_reducible assumption | exact part_trans (by decide) hT | intro _ | extract_lets | with_reducible apply within_ite | with_reducible apply State.coexLines_within | with_reducible apply State.setTrx_within | fail_if_no_progress ((with_reducible apply within_upd) <;> first | with_reducible exact Or.inl rfl | exact Or.inr (hT (by decide)) | skip) | exact Or.inl (hT (by decide)) | exact Or.inr (hT (by simp)) | split | dsimp +zetaDelta only)

theorem State.replan_within {T : List Part} {s0 s : State} (h : State.Within T s0 s) (hT : [.block 7, .out, .rd] ⊆ T) (n : Nat) : State.Within T s0 (State.replan s n) := by
  unfold State.replan
  repeat' (first | with_reducible assumption | exact part_trans (by decide) hT | intro _ | extract_lets | with_reducible apply within_ite | with_reducible apply State.setTrx_within | with_reducible apply State.showTx_within | with_reducible apply State.coexCheck_within | fail_if_no_progress ((with_reducible apply within_upd) <;> first | with_reducible exact Or.inl rfl | exact Or.inr (hT (by decide)) | skip) | exact Or.inl (hT (by decide)) | exact Or.inr (hT (by simp)) | split | dsimp +zetaDelta only)

theorem State.txRelease_within {T : List Part} {s0 s : State} (h : State.Within T s0 s) (hT : [.block 15, .freeIx, .ms, .notes, .queues, .rd] ⊆ T) (n : Nat) (x0 : Nat) : State.Within T s0 (State.txRelease s n x0) := by
  induction x0 generalizing s n with
  | zero =>
    unfold State.txRelease
    repeat' (first | with_reducible assumption | exact part_trans (by decide) hT | intro _ | extract_lets | with_reducible apply within_ite | with_reducible apply State.queueTake_within | with_reducible apply State.setTrx_within | with_reducible apply State.useFree_within | fail_if_no_progress ((with_reducible apply within_upd) <;> first | with_reducible exact Or.inl rfl | exact Or.inr (hT (by decide)) | skip) | exact Or.inl (hT (by decide)) | exact Or.inr (hT (by simp)) | split | dsimp +zetaDelta only)
  | succ k ih =>
    unfold State.txRelease
    repeat' (first | with_reducible assumption | exact part_trans (by decide) hT | intro _ | extract_lets | with_reducible apply within_ite | with_reducible apply State.queueTake_within | with_reducible apply State.setTrx_within | with_reducible apply State.useFree_within | with_reducible apply ih | fail_if_no_progress ((with_reducible apply within_upd) <;> first | with_reducible exact Or.inl rfl | exact Or.inr (hT (by decide)) | skip) | exact Or.inl (hT (by decide)) | exact Or.inr (hT (by simp)) | split | dsimp +zetaDelta only)

theorem State.txDone_within {T : List Part} {s0 s : State} (h : State.Within T s0 s) (hT : [.block 15, .block 7, .freeIx, .ms, .notes, .queues, .rd] ⊆ T) (n : Nat) (m : TxMember) (st : Nat) (sent : Bool) (early : Bool) : State.Within T s0 (State.txDone s n m st sent early) := by
  unfold State.txDone
  repeat' (first | with_reducible assumption | exact part_trans (by decide) hT | with_reducible intro _ | with_reducible apply within_ite | with_reducible apply State.bump_within | with_reducible apply State.raiseIf_within | with_reducible apply State.raise_within | with_reducible apply State.setTrx_within | with_reducible apply State.txRelease_within | exact Or.inl (hT (by decide)) | exact Or.inr (hT (by simp)))

theorem State.txDrop_within {T : List Part} {s0 s : State} (h : State.Within T s0 s) (hT : [.block 15, .block 7, .freeIx, .ms, .notes, .queues, .rd] ⊆ T) (n : Nat) (c : TxCmd) (st : Nat) : State.Within T s0 (State.txDrop s n c st) := by
  unfold State.txDrop
  repeat' (first | with_reducible assumption | exact part_trans (by decide) hT | with_reducible intro _ | with_reducible apply State.setTrx_within | with_reducible apply State.each_within | with_reducible apply State.txDone_within | exact Or.inl (hT (by decide)) | exact Or.inr (hT (by simp)))

theorem State.txFlush_within {T : List Part} {s0 s : State} (h : State.Within T s0 s) (hT : [.block 15, .block 7, .freeIx, .ms, .notes, .queues, .rd] ⊆ T) (n : Nat) : State.Within T s0 (State.txFlush s n) := by
  unfold State.txFlush
  repeat' (first | with_reducible assumption | exact part_trans (by decide) hT | with_reducible intro _ | with_reducible apply State.each_within | with_reducible apply State.txDrop_within | with_reducible apply State.showTx_within | exact Or.inl (hT (by decide)) | exact Or.inr (hT (by simp)))

theorem State.paRise_within {T : List Part} {s0 s : State} (h : State.Within T s0 s) (hT : [.out, .rd] ⊆ T) (n : Nat) : State.Within T s0 (State.paRise s n) := by
  unfold State.paRise
  repeat' (first | with_reducible assumption | exact part_trans (by decide) hT | intro _ | extract_lets | with_reducible apply within_ite | with_reducible apply State.emit_within | with_reducible apply State.setTrx_within | fail_if_no_progress ((with_reducible apply within_upd) <;> first | with_reducible exact Or.inl rfl | exact Or.inr (hT (by decide)) | skip) | exact Or.inl (hT (by decide)) | exact Or.inr (hT (by simp)) | split | dsimp +zetaDelta only)

theorem State.paFalls_within {T : List Part} {s0 s : State} (h : State.Within T s0 s) (hT : [.out, .rd] ⊆ T) (n : Nat) (at_ : Nat) : State.Within T s0 (State.paFalls s n at_) := by
  unfold State.paFalls
  repeat' (first | with_reducible assumption | exact part_trans (by decide) hT | intro _ | extract_lets | with_reducible apply within_ite | with_reducible apply State.emit_within | with_reducible apply State.paRise_within | with_reducible apply State.setTrx_within | with_reducible apply State.coexLines_within | fail_if_no_progress ((with_reducible apply within_upd) <;> first | with_reducible exact Or.inl rfl | exact Or.inr (hT (by decide)) | skip) | exact Or.inl (hT (by decide)) | exact Or.inr (hT (by simp)) | split | dsimp +zetaDelta only)

theorem State.leaveTx_within {T : List Part} {s0 s : State} (h : State.Within T s0 s) (hT : [.block 11, .block 12, .block 16, .block 21, .block 7, .ky, .mac, .mem, .ms, .out, .pa, .pl, .queues, .rd] ⊆ T) (n : Nat) : State.Within T s0 (State.leaveTx s n) := by
  unfold State.leaveTx
  repeat' (first | with_reducible assumption | exact part_trans (by decide) hT | intro _ | extract_lets | with_reducible apply within_ite | with_reducible apply State.setF_within | with_reducible apply State.setTrx_within | with_reducible apply State.toSleep_within | with_reducible apply State.startStep_within | fail_if_no_progress ((with_reducible apply within_upd) <;> first | with_reducible exact Or.inl rfl | exact Or.inr (hT (by decide)) | skip) | exact Or.inl (hT (by decide)) | exact Or.inr (hT (by simp)) | split | dsimp +zetaDelta only)

theorem State.offFrom_within {T : List Part} {s0 s : State} (h : State.Within T s0 s) (hT : [.mac] ⊆ T) (n : Nat) (fin : Nat) : State.Within T s0 (State.offFrom s n fin) := by
  unfold State.offFrom
  repeat' (first | with_reducible assumption | exact part_trans (by decide) hT | fail_if_no_progress ((with_reducible apply within_upd) <;> first | with_reducible exact Or.inl rfl | exact Or.inr (hT (by decide)) | skip) | exact Or.inl (hT (by decide)) | exact Or.inr (hT (by simp)) | with_reducible split)

theorem State.txStopAt_within {T : List Part} {s0 s : State} (h : State.Within T s0 s) (hT : [.block 11, .block 12, .block 15, .block 16, .block 21, .block 7, .freeIx, .ky, .mac, .mem, .ms, .notes, .out, .pa, .pl, .queues, .rd] ⊆ T) (n : Nat) (st : Option Nat) (t : Nat) : State.Within T s0 (State.txStopAt s n st t) := by
  unfold State.txStopAt
  repeat' (first | with_reducible assumption | exact part_trans (by decide) hT | intro _ | extract_lets | with_reducible apply within_ite | with_reducible apply State.emit_within | with_reducible apply State.setTrx_within | with_reducible apply State.each_within | with_reducible apply State.txDone_within | with_reducible apply State.offFrom_within | with_reducible apply State.paFalls_within | with_reducible apply State.replan_within | with_reducible apply State.leaveTx_within | fail_if_no_progress ((with_reducible apply within_upd) <;> first | with_reducible exact Or.inl rfl | exact Or.inr (hT (by decide)) | skip) | exact Or.inl (hT (by decide)) | exact Or.inr (hT (by simp)) | split | dsimp +zetaDelta only)

theorem State.txStop_within {T : List Part} {s0 s : State} (h : State.Within T s0 s) (hT : [.block 11, .block 12, .block 15, .block 16, .block 21, .block 7, .freeIx, .ky, .mac, .mem, .ms, .notes, .out, .pa, .pl, .queues, .rd] ⊆ T) (n : Nat) (st : Option Nat) : State.Within T s0 (State.txStop s n st) := by
  unfold State.txStop
  repeat' (first | with_reducible assumption | exact part_trans (by decide) hT | intro _ | extract_lets | with_reducible apply within_ite | with_reducible apply State.txStopAt_within | fail_if_no_progress ((with_reducible apply within_upd) <;> first | with_reducible exact Or.inl rfl | exact Or.inr (hT (by decide)) | skip) | exact Or.inl (hT (by decide)) | exact Or.inr (hT (by simp)) | split | dsimp +zetaDelta only)

theorem State.txEndSoon_within {T : List Part} {s0 s : State} (h : State.Within T s0 s) (hT : [.rd] ⊆ T) (n : Nat) (st : Nat) : State.Within T s0 (State.txEndSoon s n st) := by
  unfold State.txEndSoon
  repeat' (first | with_reducible assumption | exact part_trans (by decide) hT | intro _ | extract_lets | with_reducible apply within_ite | with_reducible apply State.setTrx_within | fail_if_no_progress ((with_reducible apply within_upd) <;> first | with_reducible exact Or.inl rfl | exact Or.inr (hT (by decide)) | skip) | exact Or.inl (hT (by decide)) | exact Or.inr (hT (by simp)) | split | dsimp +zetaDelta only)

theorem State.txCut_within {T : List Part} {s0 s : State} (h : State.Within T s0 s) (hT : [.block 11, .block 12, .block 15, .block 16, .block 21, .block 7, .freeIx, .ky, .mac, .mem, .ms, .notes, .out, .pa, .pl, .queues, .rd] ⊆ T) (n : Nat) : State.Within T s0 (State.txCut s n) := by
  unfold State.txCut
  repeat' (first | with_reducible assumption | exact part_trans (by decide) hT | with_reducible apply State.txStop_within | exact Or.inl (hT (by decide)) | exact Or.inr (hT (by simp)))

theorem State.trxCmd_within {T : List Part} {s0 s : State} (h : State.Within T s0 s) (hT : [.block 1, .block 11, .block 12, .block 15, .block 16, .block 21, .block 7, .freeIx, .ky, .mac, .mem, .ms, .notes, .out, .pa, .pl, .queues, .rd, .resp] ⊆ T) (n : Nat) (target : Nat) (cal : Bool) : State.Within T s0 (State.trxCmd s n target cal) := by
  unfold State.trxCmd
  repeat' (first | with_reducible assumption | exact part_trans (by decide) hT | intro _ | extract_lets | with_reducible apply within_ite | with_reducible apply State.trxRefuse_within | with_reducible apply State.setTrx_within | with_reducible apply State.setF_within | with_reducible apply State.txFlush_within | with_reducible apply State.answer_within | with_reducible apply State.replan_within | with_reducible apply State.trxGo_within | fail_if_no_progress ((with_reducible apply within_upd) <;> first | with_reducible exact Or.inl rfl | exact Or.inr (hT (by decide)) | skip) | exact Or.inl (hT (by decide)) | exact Or.inr (hT (by simp)) | split | dsimp +zetaDelta only)

theorem execTrxSetTarget_within {T : List Part} {s0 s : State} (h : State.Within T s0 s) (hT : [.block 1, .block 11, .block 12, .block 15, .block 16, .block 21, .block 7, .freeIx, .ky, .mac, .mem, .ms, .mtb, .notes, .out, .pa, .pl, .queues, .rd, .resp] ⊆ T) (trx : Fin 4) (target : Fin 4) (t : Nat) : WithinRes T s0 (execTrxSetTarget trx target t s) := by
  unfold execTrxSetTarget
  repeat' (first | with_reducible assumption | exact part_trans (by decide) hT | intro _ | extract_lets | with_reducible apply withinRes_next | with_reducible apply withinRes_ite | with_reducible apply within_ite | with_reducible apply State.advance_within | with_reducible apply State.trxCmd_within | fail_if_no_progress ((with_reducible apply within_upd) <;> first | with_reducible exact Or.inl rfl | exact Or.inr (hT (by decide)) | skip) | exact Or.inl (hT (by decide)) | exact Or.inr (hT (by simp)) | split | dsimp +zetaDelta only)

theorem execTrxCalibrate_within {T : List Part} {s0 s : State} (h : State.Within T s0 s) (hT : [.block 1, .block 11, .block 12, .block 15, .block 16, .block 21, .block 7, .freeIx, .ky, .mac, .mem, .ms, .mtb, .notes, .out, .pa, .pl, .queues, .rd, .resp] ⊆ T) (trx : Fin 4) (target : Fin 4) (t : Nat) : WithinRes T s0 (execTrxCalibrate trx target t s) := by
  unfold execTrxCalibrate
  repeat' (first | with_reducible assumption | exact part_trans (by decide) hT | intro _ | extract_lets | with_reducible apply withinRes_next | with_reducible apply withinRes_ite | with_reducible apply within_ite | with_reducible apply State.advance_within | with_reducible apply State.trxCmd_within | fail_if_no_progress ((with_reducible apply within_upd) <;> first | with_reducible exact Or.inl rfl | exact Or.inr (hT (by decide)) | skip) | exact Or.inl (hT (by decide)) | exact Or.inr (hT (by simp)) | split | dsimp +zetaDelta only)

theorem State.gateFailed_within {T : List Part} {s0 s : State} (h : State.Within T s0 s) (hT : [.block 1, .rd] ⊆ T) (n : Nat) : State.Within T s0 (State.gateFailed s n) := by
  unfold State.gateFailed
  repeat' (first | with_reducible assumption | exact part_trans (by decide) hT | with_reducible apply State.setTrx_within | with_reducible apply State.setF_within | exact Or.inl (hT (by decide)) | exact Or.inr (hT (by simp)))

theorem execTrxStepEnd_within {T : List Part} {s0 s : State} (h : State.Within T s0 s) (hT : [.block 1, .block 11, .block 12, .block 15, .block 16, .block 21, .block 7, .freeIx, .ky, .mac, .mem, .ms, .mtb, .notes, .out, .pa, .pl, .queues, .rd] ⊆ T) (trx : Fin 4) : WithinRes T s0 (execTrxStepEnd trx s) := by
  unfold execTrxStepEnd
  repeat' (first | with_reducible assumption | exact part_trans (by decide) hT | intro _ | extract_lets | with_reducible apply withinRes_next | with_reducible apply withinRes_ite | with_reducible apply within_ite | with_reducible apply State.setTrx_within | with_reducible apply State.advance_within | with_reducible apply State.trxNext_within | with_reducible apply State.setF_within | with_reducible apply State.setTrxState_within | with_reducible apply State.unblankTrx_within | with_reducible apply State.gateFailed_within | with_reducible apply State.txFlush_within | with_reducible apply State.replan_within | with_reducible apply State.trxGo_within | fail_if_no_progress ((with_reducible apply within_upd) <;> first | with_reducible exact Or.inl rfl | exact Or.inr (hT (by decide)) | skip) | exact Or.inl (hT (by decide)) | exact Or.inr (hT (by simp)) | split | dsimp +zetaDelta only)

theorem execCalEnd_within {T : List Part} {s0 s : State} (h : State.Within T s0 s) (hT : [.block 0, .block 11, .block 12, .block 15, .block 16, .block 2, .block 21, .block 7, .freeIx, .ky, .mac, .mem, .ms, .mtb, .notes, .out, .pa, .pl, .queues, .rd, .su] ⊆ T) (trx : Fin 4) (pass : Bool) : WithinRes T s0 (execCalEnd trx pass s) := by
  unfold execCalEnd
  repeat' (first | with_reducible assumption | exact part_trans (by decide) hT | intro _ | extract_lets | with_reducible apply withinRes_next | with_reducible apply withinRes_ite | with_reducible apply within_ite | with_reducible apply State.setTrx_within | with_reducible apply State.advance_within | with_reducible apply State.setF_within | with_reducible apply State.setTrxState_within | with_reducible apply State.replan_within | with_reducible apply State.trxGo_within | with_reducible apply State.raise_within | with_reducible apply State.startFail_within | with_reducible apply State.startStep_within | with_reducible apply State.txFlush_within | fail_if_no_progress ((with_reducible apply within_upd) <;> first | with_reducible exact Or.inl rfl | exact Or.inr (hT (by decide)) | skip) | exact Or.inl (hT (by decide)) | exact Or.inr (hT (by simp)) | split | dsimp +zetaDelta only)

theorem execSynUnlock_within {T : List Part} {s0 s : State} (h : State.Within T s0 s) (hT : [.block 11, .block 12, .block 16, .block 21, .block 7, .ky, .mac, .mem, .ms, .mtb, .notes, .out, .pa, .pl, .queues, .rd] ⊆ T) (trx : Fin 4) (tx : Bool) (t : Nat) : WithinRes T s0 (execSynUnlock trx tx t s) := by
  unfold execSynUnlock
  repeat' (first | with_reducible assumption | exact part_trans (by decide) hT | intro _ | extract_lets | with_reducible apply withinRes_next | with_reducible apply withinRes_ite | with_reducible apply within_ite | with_reducible apply State.advance_within | with_reducible apply State.setF_within | with_reducible apply State.raise_within | with_reducible apply State.blankTrx_within | with_reducible apply State.txEndSoon_within | with_reducible apply State.setTrx_within | with_reducible apply State.lnaLow_within | with_reducible apply State.replan_within | with_reducible apply State.startStep_within | fail_if_no_progress ((with_reducible apply within_upd) <;> first | with_reducible exact Or.inl rfl | exact Or.inr (hT (by decide)) | skip) | exact Or.inl (hT (by decide)) | exact Or.inr (hT (by simp)) | split | dsimp +zetaDelta only)

theorem execBgCalCycleStart_within {T : List Part} {s0 s : State} (h : State.Within T s0 s) (hT : [.block 7, .mtb, .rd] ⊆ T) (trx : Fin 4) (t : Nat) : WithinRes T s0 (execBgCalCycleStart trx t s) := by
  unfold execBgCalCycleStart
  repeat' (first | with_reducible assumption | exact part_trans (by decide) hT | intro _ | extract_lets | with_reducible apply withinRes_next | with_reducible apply withinRes_ite | with_reducible apply within_ite | with_reducible apply State.advance_within | with_reducible apply State.setF_within | with_reducible apply State.setTrx_within | fail_if_no_progress ((with_reducible apply within_upd) <;> first | with_reducible exact Or.inl rfl | exact Or.inr (hT (by decide)) | skip) | exact Or.inl (hT (by decide)) | exact Or.inr (hT (by simp)) | split | dsimp +zetaDelta only)

theorem execBgCalStep_within {T : List Part} {s0 s : State} (h : State.Within T s0 s) (hT : [.block 7, .mtb, .notes, .rd] ⊆ T) (trx : Fin 4) (pathB : Bool) (t : Nat) : WithinRes T s0 (execBgCalStep trx pathB t s) := by
  unfold execBgCalStep
  repeat' (first | with_reducible assumption | exact part_trans (by decide) hT | intro _ | extract_lets | with_reducible apply withinRes_next | with_reducible apply withinRes_ite | with_reducible apply within_ite | with_reducible apply State.advance_within | with_reducible apply State.setTrx_within | with_reducible apply State.raiseIf_within | with_reducible apply State.setF_within | fail_if_no_progress ((with_reducible apply within_upd) <;> first | with_reducible exact Or.inl rfl | exact Or.inr (hT (by decide)) | skip) | exact Or.inl (hT (by decide)) | exact Or.inr (hT (by simp)) | split | dsimp +zetaDelta only)

theorem execTempDrift_within {T : List Part} {s0 s : State} (h : State.Within T s0 s) (hT : [.block 7, .notes] ⊆ T) (trx : Fin 4) (temp : BitVec 8) : WithinRes T s0 (execTempDrift trx temp s) := by
  unfold execTempDrift
  repeat' (first | with_reducible assumption | exact part_trans (by decide) hT | intro _ | extract_lets | with_reducible apply withinRes_next | with_reducible apply withinRes_ite | with_reducible apply within_ite | with_reducible apply State.setF_within | with_reducible apply State.raiseIf_within | fail_if_no_progress ((with_reducible apply within_upd) <;> first | with_reducible exact Or.inl rfl | exact Or.inr (hT (by decide)) | skip) | exact Or.inl (hT (by decide)) | exact Or.inr (hT (by simp)) | split | dsimp +zetaDelta only)

theorem State.coexRise_within {T : List Part} {s0 s : State} (h : State.Within T s0 s) (hT : [.out, .rd] ⊆ T) (n : Nat) (c : TxCmd) : State.Within T s0 (State.coexRise s n c) := by
  unfold State.coexRise
  repeat' (first | with_reducible assumption | exact part_trans (by decide) hT | intro _ | extract_lets | with_reducible apply within_ite | with_reducible apply State.coexLines_within | with_reducible apply State.setTrx_within | fail_if_no_progress ((with_reducible apply within_upd) <;> first | with_reducible exact Or.inl rfl | exact Or.inr (hT (by decide)) | skip) | exact Or.inl (hT (by decide)) | exact Or.inr (hT (by simp)) | split | dsimp +zetaDelta only)

theorem execCoexRequestRise_within {T : List Part} {s0 s : State} (h : State.Within T s0 s) (hT : [.mtb, .out, .rd] ⊆ T) (trx : Fin 4) : WithinRes T s0 (execCoexRequestRise trx s) := by
  unfold execCoexRequestRise
  repeat' (first | with_reducible assumption | exact part_trans (by decide) hT | intro _ | extract_lets | with_reducible apply withinRes_next | with_reducible apply withinRes_ite | with_reducible apply within_ite | with_reducible apply State.coexRise_within | with_reducible apply State.advance_within | fail_if_no_progress ((with_reducible apply within_upd) <;> first | with_reducible exact Or.inl rfl | exact Or.inr (hT (by decide)) | skip) | exact Or.inl (hT (by decide)) | exact Or.inr (hT (by simp)) | split | dsimp +zetaDelta only)

theorem execCoexGrantFall_within {T : List Part} {s0 s : State} (h : State.Within T s0 s) (hT : [.block 7, .mtb, .notes, .rd] ⊆ T) (trx : Fin 4) (t : Nat) : WithinRes T s0 (execCoexGrantFall trx t s) := by
  unfold execCoexGrantFall
  repeat' (first | with_reducible assumption | exact part_trans (by decide) hT | intro _ | extract_lets | with_reducible apply withinRes_next | with_reducible apply withinRes_ite | with_reducible apply within_ite | with_reducible apply State.advance_within | with_reducible apply State.raise_within | with_reducible apply State.txEndSoon_within | with_reducible apply State.setF_within | fail_if_no_progress ((with_reducible apply within_upd) <;> first | with_reducible exact Or.inl rfl | exact Or.inr (hT (by decide)) | skip) | exact Or.inl (hT (by decide)) | exact Or.inr (hT (by simp)) | split | dsimp +zetaDelta only)

theorem State.txAccept_within {T : List Part} {s0 s : State} (h : State.Within T s0 s) (hT : [.block 1, .block 15, .block 7, .freeIx, .ms, .notes, .out, .queues, .rd, .resp] ⊆ T) (n : Nat) (d : TxDesc) : State.Within T s0 (State.txAccept s n d) := by
  unfold State.txAccept
  repeat' (first | with_reducible assumption | exact part_trans (by decide) hT | intro _ | extract_lets | with_reducible apply within_ite | with_reducible apply State.bump_within | with_reducible apply State.trxRefuse_within | with_reducible apply State.txDone_within | with_reducible apply State.raiseIf_within | with_reducible apply State.setTrx_within | with_reducible apply State.answer_within | with_reducible apply State.replan_within | fail_if_no_progress ((with_reducible apply within_upd) <;> first | with_reducible exact Or.inl rfl | exact Or.inr (hT (by decide)) | skip) | exact Or.inl (hT (by decide)) | exact Or.inr (hT (by simp)) | split | dsimp +zetaDelta only)

theorem State.txTake_within {T : List Part} {s0 s : State} (h : State.Within T s0 s) (hT : [.block 1, .block 15, .block 7, .freeIx, .ms, .mtb, .notes, .out, .queues, .rd, .resp] ⊆ T) (n : Nat) (t : Nat) (want : Nat → Bool) : State.Within T s0 (State.txTake s n t want) := by
  unfold State.txTake
  repeat' (first | with_reducible assumption | exact part_trans (by decide) hT | with_reducible intro _ | with_reducible extract_lets | with_reducible apply State.advance_within | with_reducible apply State.txRelease_within | with_reducible apply State.dequeue_within | with_reducible apply State.emit_within | with_reducible apply State.txAccept_within | exact Or.inl (hT (by decide)) | exact Or.inr (hT (by simp)) | with_reducible split)

theorem execTxCmdData_within {T : List Part} {s0 s : State} (h : State.Within T s0 s) (hT : [.block 1, .block 15, .block 7, .freeIx, .ms, .mtb, .notes, .out, .queues, .rd, .resp] ⊆ T) (trx : Fin 4) (t : Nat) : WithinRes T s0 (execTxCmdData trx t s) := by
  unfold execTxCmdData
  repeat' (first | with_reducible assumption | exact part_trans (by decide) hT | intro _ | extract_lets | with_reducible apply withinRes_next | with_reducible apply withinRes_ite | with_reducible apply within_ite | with_reducible apply State.txTake_within | fail_if_no_progress ((with_reducible apply within_upd) <;> first | with_reducible exact Or.inl rfl | exact Or.inr (hT (by decide)) | skip) | exact Or.inl (hT (by decide)) | exact Or.inr (hT (by simp)) | split | dsimp +zetaDelta only)

theorem execTxCmdBraidOpen_within {T : List Part} {s0 s : State} (h : State.Within T s0 s) (hT : [.block 1, .block 15, .block 7, .freeIx, .ms, .mtb, .notes, .out, .queues, .rd, .resp] ⊆ T) (trx : Fin 4) (t : Nat) : WithinRes T s0 (execTxCmdBraidOpen trx t s) := by
  unfold execTxCmdBraidOpen
  repeat' (first | with_reducible assumption | exact part_trans (by decide) hT | intro _ | extract_lets | with_reducible apply withinRes_next | with_reducible apply withinRes_ite | with_reducible apply within_ite | with_reducible apply State.txTake_within | fail_if_no_progress ((with_reducible apply within_upd) <;> first | with_reducible exact Or.inl rfl | exact Or.inr (hT (by decide)) | skip) | exact Or.inl (hT (by decide)) | exact Or.inr (hT (by simp)) | split | dsimp +zetaDelta only)

theorem execTxCmdBraidAppend_within {T : List Part} {s0 s : State} (h : State.Within T s0 s) (hT : [.block 1, .block 15, .block 7, .freeIx, .ms, .mtb, .notes, .out, .queues, .rd, .resp] ⊆ T) (trx : Fin 4) (t : Nat) : WithinRes T s0 (execTxCmdBraidAppend trx t s) := by
  unfold execTxCmdBraidAppend
  repeat' (first | with_reducible assumption | exact part_trans (by decide) hT | intro _ | extract_lets | with_reducible apply withinRes_next | with_reducible apply withinRes_ite | with_reducible apply within_ite | with_reducible apply State.txTake_within | fail_if_no_progress ((with_reducible apply within_upd) <;> first | with_reducible exact Or.inl rfl | exact Or.inr (hT (by decide)) | skip) | exact Or.inl (hT (by decide)) | exact Or.inr (hT (by simp)) | split | dsimp +zetaDelta only)

theorem execTxCmdEnhancedBeacon_within {T : List Part} {s0 s : State} (h : State.Within T s0 s) (hT : [.block 1, .block 15, .block 7, .freeIx, .ms, .mtb, .notes, .out, .queues, .rd, .resp] ⊆ T) (trx : Fin 4) (t : Nat) : WithinRes T s0 (execTxCmdEnhancedBeacon trx t s) := by
  unfold execTxCmdEnhancedBeacon
  repeat' (first | with_reducible assumption | exact part_trans (by decide) hT | intro _ | extract_lets | with_reducible apply withinRes_next | with_reducible apply withinRes_ite | with_reducible apply within_ite | with_reducible apply State.txTake_within | fail_if_no_progress ((with_reducible apply within_upd) <;> first | with_reducible exact Or.inl rfl | exact Or.inr (hT (by decide)) | skip) | exact Or.inl (hT (by decide)) | exact Or.inr (hT (by simp)) | split | dsimp +zetaDelta only)

theorem execTxCmdWakeKeying_within {T : List Part} {s0 s : State} (h : State.Within T s0 s) (hT : [.block 1, .block 15, .block 7, .freeIx, .ms, .mtb, .notes, .out, .queues, .rd, .resp] ⊆ T) (trx : Fin 4) (t : Nat) : WithinRes T s0 (execTxCmdWakeKeying trx t s) := by
  unfold execTxCmdWakeKeying
  repeat' (first | with_reducible assumption | exact part_trans (by decide) hT | intro _ | extract_lets | with_reducible apply withinRes_next | with_reducible apply withinRes_ite | with_reducible apply within_ite | with_reducible apply State.txTake_within | fail_if_no_progress ((with_reducible apply within_upd) <;> first | with_reducible exact Or.inl rfl | exact Or.inr (hT (by decide)) | skip) | exact Or.inl (hT (by decide)) | exact Or.inr (hT (by simp)) | split | dsimp +zetaDelta only)

theorem execTxLateDrop_within {T : List Part} {s0 s : State} (h : State.Within T s0 s) (hT : [.block 15, .block 7, .freeIx, .ms, .mtb, .notes, .out, .queues, .rd] ⊆ T) (trx : Fin 4) (t : Nat) : WithinRes T s0 (execTxLateDrop trx t s) := by
  unfold execTxLateDrop
  repeat' (first | with_reducible assumption | exact part_trans (by decide) hT | intro _ | extract_lets | with_reducible apply withinRes_next | with_reducible apply withinRes_ite | with_reducible apply within_ite | with_reducible apply State.advance_within | with_reducible apply State.replan_within | with_reducible apply State.txDrop_within | fail_if_no_progress ((with_reducible apply within_upd) <;> first | with_reducible exact Or.inl rfl | exact Or.inr (hT (by decide)) | skip) | exact Or.inl (hT (by decide)) | exact Or.inr (hT (by simp)) | split | dsimp +zetaDelta only)

theorem State.launchBlank_within {T : List Part} {s0 s : State} (h : State.Within T s0 s) (hT : [.block 11, .block 12, .block 16, .block 21, .ky, .mac, .mem, .ms, .notes, .out, .pa, .pl, .queues, .rd] ⊆ T) (n : Nat) : State.Within T s0 (State.launchBlank s n) := by
  have e : ∀ b : Bool, regBlock (if b then R.MAC_CELL_COUNT2_TX_LOST else R.MAC_ACK_COUNT1_LOST).addr = 12 := by
    intro b; cases b <;> simp
  have hb := State.blankTrx_within h (part_trans (by decide) hT) n
  unfold State.launchBlank
  apply within_ite
  · intro _; exact hb
  · intro _
    refine State.raise_within (State.addF_within hb _ (Or.inr (hT ?_)) _) (part_trans (by decide) hT) _ (Or.inr (hT (by simp)))
    rw [e]; decide

theorem State.launch_within {T : List Part} {s0 s : State} (h : State.Within T s0 s) (hT : [.block 11, .block 12, .block 16, .block 21, .block 7, .ky, .mac, .mem, .ms, .notes, .out, .pa, .pl, .queues, .rd] ⊆ T) (n : Nat) (c : TxCmd) : State.Within T s0 (State.launch s n c) := by
  unfold State.launch
  repeat' (first | with_reducible assumption | exact part_trans (by decide) hT | intro _ | extract_lets | with_reducible apply within_ite | with_reducible apply State.siKeep_within | with_reducible apply State.launchBlank_within | with_reducible apply State.emit_within | with_reducible apply State.lnaLow_within | with_reducible apply State.setTrx_within | with_reducible apply State.coexLines_within | with_reducible apply State.replan_within | with_reducible apply State.setF_within | fail_if_no_progress ((with_reducible apply within_upd) <;> first | with_reducible exact Or.inl rfl | exact Or.inr (hT (by decide)) | skip) | exact Or.inl (hT (by decide)) | exact Or.inr (hT (by simp)) | split | dsimp +zetaDelta only)

theorem State.leadWritten_within {T : List Part} {s0 s : State} (h : State.Within T s0 s) (hT : [.rd] ⊆ T) (n : Nat) : State.Within T s0 (State.leadWritten s n) := by
  unfold State.leadWritten
  repeat' (first | with_reducible assumption | exact part_trans (by decide) hT | intro _ | extract_lets | with_reducible apply within_ite | with_reducible apply State.setTrx_within | fail_if_no_progress ((with_reducible apply within_upd) <;> first | with_reducible exact Or.inl rfl | exact Or.inr (hT (by decide)) | skip) | exact Or.inl (hT (by decide)) | exact Or.inr (hT (by simp)) | split | dsimp +zetaDelta only)

theorem execTxLaunch_within {T : List Part} {s0 s : State} (h : State.Within T s0 s) (hT : [.block 11, .block 12, .block 15, .block 16, .block 21, .block 7, .freeIx, .ky, .mac, .mem, .ms, .mtb, .notes, .out, .pa, .pl, .queues, .rd] ⊆ T) (trx : Fin 4) : WithinRes T s0 (execTxLaunch trx s) := by
  unfold execTxLaunch
  repeat' (first | with_reducible assumption | exact part_trans (by decide) hT | intro _ | extract_lets | with_reducible apply withinRes_next | with_reducible apply withinRes_ite | with_reducible apply within_ite | with_reducible apply State.advance_within | with_reducible apply State.txDrop_within | with_reducible apply State.replan_within | with_reducible apply State.launch_within | fail_if_no_progress ((with_reducible apply within_upd) <;> first | with_reducible exact Or.inl rfl | exact Or.inr (hT (by decide)) | skip) | exact Or.inl (hT (by decide)) | exact Or.inr (hT (by simp)) | split | dsimp +zetaDelta only)

theorem State.coexLate_within {T : List Part} {s0 s : State} (h : State.Within T s0 s) (hT : [.block 11, .block 12, .block 15, .block 16, .block 21, .block 7, .freeIx, .ky, .mac, .mem, .ms, .notes, .out, .pa, .pl, .queues, .rd] ⊆ T) (n : Nat) (c : TxCmd) : State.Within T s0 (State.coexLate s n c) := by
  unfold State.coexLate
  repeat' (first | with_reducible assumption | exact part_trans (by decide) hT | intro _ | extract_lets | with_reducible apply within_ite | with_reducible apply State.setF_within | with_reducible apply State.raise_within | with_reducible apply State.bump_within | with_reducible apply State.each_within | with_reducible apply State.txDone_within | with_reducible apply State.replan_within | with_reducible apply State.leaveTx_within | with_reducible apply State.paFalls_within | fail_if_no_progress ((with_reducible apply within_upd) <;> first | with_reducible exact Or.inl rfl | exact Or.inr (hT (by decide)) | skip) | exact Or.inl (hT (by decide)) | exact Or.inr (hT (by simp)) | split | dsimp +zetaDelta only)

theorem State.onAirOut_within {T : List Part} {s0 s : State} (h : State.Within T s0 s) (hT : [.out] ⊆ T) (n : Nat) (gen : Nat) (m : TxMember) (power : Int) : State.Within T s0 (State.onAirOut s n gen m power) := by
  unfold State.onAirOut
  repeat' (first | with_reducible assumption | exact part_trans (by decide) hT | intro _ | extract_lets | with_reducible apply within_ite | with_reducible apply State.emit_within | fail_if_no_progress ((with_reducible apply within_upd) <;> first | with_reducible exact Or.inl rfl | exact Or.inr (hT (by decide)) | skip) | exact Or.inl (hT (by decide)) | exact Or.inr (hT (by simp)) | split | dsimp +zetaDelta only)

theorem execTxCommit_within {T : List Part} {s0 s : State} (h : State.Within T s0 s) (hT : [.block 11, .block 12, .block 15, .block 16, .block 21, .block 7, .freeIx, .ky, .mac, .mem, .ms, .mtb, .notes, .out, .pa, .pl, .queues, .rd] ⊆ T) (trx : Fin 4) (grant : Bool) : WithinRes T s0 (execTxCommit trx grant s) := by
  unfold execTxCommit
  repeat' (first | with_reducible assumption | exact part_trans (by decide) hT | intro _ | extract_lets | with_reducible apply withinRes_next | with_reducible apply withinRes_ite | with_reducible apply within_ite | with_reducible apply State.advance_within | with_reducible apply State.coexLate_within | with_reducible apply State.paRise_within | with_reducible apply State.setTrx_within | with_reducible apply State.raise_within | with_reducible apply State.bump_within | with_reducible apply State.onAirOut_within | fail_if_no_progress ((with_reducible apply within_upd) <;> first | with_reducible exact Or.inl rfl | exact Or.inr (hT (by decide)) | skip) | exact Or.inl (hT (by decide)) | exact Or.inr (hT (by simp)) | split | dsimp +zetaDelta only)

theorem execTxEnd_within {T : List Part} {s0 s : State} (h : State.Within T s0 s) (hT : [.block 11, .block 12, .block 15, .block 16, .block 21, .block 7, .freeIx, .ky, .mac, .mem, .ms, .mtb, .notes, .out, .pa, .pl, .queues, .rd] ⊆ T) (trx : Fin 4) : WithinRes T s0 (execTxEnd trx s) := by
  unfold execTxEnd
  repeat' (first | with_reducible assumption | exact part_trans (by decide) hT | intro _ | extract_lets | with_reducible apply withinRes_next | with_reducible apply withinRes_ite | with_reducible apply within_ite | with_reducible apply State.txStop_within | with_reducible apply State.advance_within | fail_if_no_progress ((with_reducible apply within_upd) <;> first | with_reducible exact Or.inl rfl | exact Or.inr (hT (by decide)) | skip) | exact Or.inl (hT (by decide)) | exact Or.inr (hT (by simp)) | split | dsimp +zetaDelta only)

end Sys2Proof.Machine
end

