-- ==== Sys2Proof/Laws/WithinMac.lean ====
section
/-!
SUPPORT. What the operations of the MAC tasks can do: one lemma per operation, which names the
parts of the state that it may touch and says that it keeps the invariant and the queue. A proof about a step cites these and
unfolds none of the operations.
-/
namespace Sys2Proof.Machine
open Sys2Proof
set_option linter.all false
set_option Elab.async false

theorem State.putFrame_within {T : List Part} {s0 s : State} (h : State.Within T s0 s) (hT : [.mac] ⊆ T) (id : Nat) (f : Frame) : State.Within T s0 (State.putFrame s id f) := by
  unfold State.putFrame
  repeat' (first | with_reducible assumption | exact part_trans (by decide) hT | fail_if_no_progress ((with_reducible apply within_upd) <;> first | with_reducible exact Or.inl rfl | exact Or.inr (hT (by decide)) | skip) | exact Or.inl (hT (by decide)) | exact Or.inr (hT (by simp)))

theorem State.delFrame_within {T : List Part} {s0 s : State} (h : State.Within T s0 s) (hT : [.mac] ⊆ T) (id : Nat) : State.Within T s0 (State.delFrame s id) := by
  unfold State.delFrame
  repeat' (first | with_reducible assumption | exact part_trans (by decide) hT | fail_if_no_progress ((with_reducible apply within_upd) <;> first | with_reducible exact Or.inl rfl | exact Or.inr (hT (by decide)) | skip) | exact Or.inl (hT (by decide)) | exact Or.inr (hT (by simp)))

theorem State.dutyAdd_within {T : List Part} {s0 s : State} (h : State.Within T s0 s) (hT : [.mac] ⊆ T) (key : Nat) (air : Nat) : State.Within T s0 (State.dutyAdd s key air) := by
  unfold State.dutyAdd
  repeat' (first | with_reducible assumption | exact part_trans (by decide) hT | fail_if_no_progress ((with_reducible apply within_upd) <;> first | with_reducible exact Or.inl rfl | exact Or.inr (hT (by decide)) | skip) | exact Or.inl (hT (by decide)) | exact Or.inr (hT (by simp)))

theorem State.dutySub_within {T : List Part} {s0 s : State} (h : State.Within T s0 s) (hT : [.mac] ⊆ T) (key : Nat) (air : Nat) : State.Within T s0 (State.dutySub s key air) := by
  unfold State.dutySub
  repeat' (first | with_reducible assumption | exact part_trans (by decide) hT | fail_if_no_progress ((with_reducible apply within_upd) <;> first | with_reducible exact Or.inl rfl | exact Or.inr (hT (by decide)) | skip) | exact Or.inl (hT (by decide)) | exact Or.inr (hT (by simp)))

theorem State.setLimit_within {T : List Part} {s0 s : State} (h : State.Within T s0 s) (hT : [.block 12, .mac, .notes] ⊆ T) (p : Nat) (b : Bool) : State.Within T s0 (State.setLimit s p b) := by
  unfold State.setLimit
  repeat' (first | with_reducible assumption | exact part_trans (by decide) hT | with_reducible apply State.raiseIf_within | fail_if_no_progress ((with_reducible apply within_upd) <;> first | with_reducible exact Or.inl rfl | exact Or.inr (hT (by decide)) | skip) | exact Or.inl (hT (by decide)) | exact Or.inr (hT (by simp)))

theorem State.dutyRefuse_within {T : List Part} {s0 s : State} (h : State.Within T s0 s) (hT : [.block 12, .mac, .notes] ⊆ T) (n : Nat) : State.Within T s0 (State.dutyRefuse s n) := by
  unfold State.dutyRefuse
  repeat' (first | with_reducible assumption | exact part_trans (by decide) hT | with_reducible apply State.setLimit_within | with_reducible apply State.bump_within | exact Or.inl (hT (by decide)) | exact Or.inr (hT (by simp)))

theorem State.dutyTake_within {T : List Part} {s0 s : State} (h : State.Within T s0 s) (hT : [.block 12, .mac, .notes] ⊆ T) (n : Nat) (dep : Nat) (air : Nat) : Within2 T s0 (State.dutyTake s n dep air) := by
  unfold State.dutyTake
  repeat' (first | with_reducible assumption | exact part_trans (by decide) hT | with_reducible apply within2_ite | with_reducible apply State.setLimit_within | with_reducible apply State.dutyAdd_within | with_reducible apply within1_ite | with_reducible apply within2_ite | with_reducible apply withinO_some | with_reducible apply withinO_none | with_reducible apply withinO_ite | with_reducible apply within1_mk | with_reducible apply within2_mk | exact Or.inl (hT (by decide)) | exact Or.inr (hT (by simp)))

theorem State.macSend_within {T : List Part} {s0 s : State} (h : State.Within T s0 s) (hT : [.block 15, .freeIx, .mac, .ms, .notes, .queues] ⊆ T) : State.Within T s0 (State.macSend s) := by
  unfold State.macSend
  repeat' (first | with_reducible assumption | exact part_trans (by decide) hT | intro _ | extract_lets | with_reducible apply within_ite | with_reducible apply State.each_within | with_reducible apply State.useFree_within | with_reducible apply State.queueTake_within | fail_if_no_progress ((with_reducible apply within_upd) <;> first | with_reducible exact Or.inl rfl | exact Or.inr (hT (by decide)) | skip) | exact Or.inl (hT (by decide)) | exact Or.inr (hT (by simp)) | split | dsimp +zetaDelta only)

theorem State.macIssue_within {T : List Part} {s0 s : State} (h : State.Within T s0 s) (hT : [.block 15, .freeIx, .mac, .ms, .notes, .queues] ⊆ T) (n : Nat) (d : TxDesc) (c : MacCmd) : State.Within T s0 (State.macIssue s n d c) := by
  unfold State.macIssue
  repeat' (first | with_reducible assumption | exact part_trans (by decide) hT | with_reducible apply State.macSend_within | fail_if_no_progress ((with_reducible apply within_upd) <;> first | with_reducible exact Or.inl rfl | exact Or.inr (hT (by decide)) | skip) | exact Or.inl (hT (by decide)) | exact Or.inr (hT (by simp)))

theorem State.fixNode_within {T : List Part} {s0 s : State} (h : State.Within T s0 s) (hT : [.block 21, .mem, .out, .pa] ⊆ T) (n : Nat) : State.Within T s0 (State.fixNode s n) := by
  unfold State.fixNode
  repeat' (first | with_reducible assumption | exact part_trans (by decide) hT | with_reducible intro _ | with_reducible apply within_ite | with_reducible apply State.recPut_within | fail_if_no_progress ((with_reducible apply within_upd) <;> first | with_reducible exact Or.inl rfl | exact Or.inr (hT (by decide)) | skip) | exact Or.inl (hT (by decide)) | exact Or.inr (hT (by simp)))

theorem State.fixFirst_within {T : List Part} {s0 s : State} (h : State.Within T s0 s) (hT : [.block 21, .mem, .out, .pa] ⊆ T) (n : Nat) : State.Within T s0 (State.fixFirst s n) := by
  unfold State.fixFirst
  repeat' (first | with_reducible assumption | exact part_trans (by decide) hT | with_reducible intro _ | with_reducible apply within_ite | with_reducible apply State.fixNode_within | fail_if_no_progress ((with_reducible apply within_upd) <;> first | with_reducible exact Or.inl rfl | exact Or.inr (hT (by decide)) | skip) | exact Or.inl (hT (by decide)) | exact Or.inr (hT (by simp)))

theorem State.reserve_within {T : List Part} {s0 s : State} (h : State.Within T s0 s) (hT : [.block 21, .mem, .out, .pa] ⊆ T) (n : Nat) : Within1 T s0 (State.reserve s n) := by
  unfold State.reserve
  repeat' (first | with_reducible assumption | exact part_trans (by decide) hT | with_reducible intro _ | with_reducible apply within1_ite | with_reducible apply State.recPut_within | with_reducible apply State.writeNat_within | with_reducible apply State.journalAdd_within | with_reducible apply within1_ite | with_reducible apply within2_ite | with_reducible apply withinO_some | with_reducible apply withinO_none | with_reducible apply withinO_ite | fail_if_no_progress ((with_reducible apply within_upd) <;> first | with_reducible exact Or.inl rfl | exact Or.inr (hT (by decide)) | skip) | with_reducible split | with_reducible dsimp +zetaDelta only | with_reducible apply within1_mk | with_reducible apply within2_mk | exact Or.inl (hT (by decide)) | exact Or.inr (hT (by simp)))

theorem State.takeCounter_within {T : List Part} {s0 s : State} (h : State.Within T s0 s) (hT : [.block 21, .mem, .notes, .out, .pa] ⊆ T) (n : Nat) : Within2 T s0 (State.takeCounter s n) := by
  unfold State.takeCounter
  repeat' (first | with_reducible assumption | exact part_trans (by decide) hT | with_reducible intro _ | with_reducible apply within2_ite | with_reducible apply State.fixFirst_within | with_reducible apply State.reserve_within | with_reducible apply within1_fst | with_reducible apply State.raise_within | with_reducible apply State.recPut_within | with_reducible apply within1_ite | with_reducible apply within2_ite | with_reducible apply withinO_some | with_reducible apply withinO_none | with_reducible apply withinO_ite | with_reducible apply within1_mk | with_reducible apply within2_mk | exact Or.inl (hT (by decide)) | exact Or.inr (hT (by simp)))

theorem State.frameRelease_within {T : List Part} {s0 s : State} (h : State.Within T s0 s) (hT : [.block 15, .freeIx, .mac, .ms, .notes, .queues] ⊆ T) : State.Within T s0 (State.frameRelease s) := by
  unfold State.frameRelease
  repeat' (first | with_reducible assumption | exact part_trans (by decide) hT | intro _ | extract_lets | with_reducible apply within_ite | with_reducible apply State.each_within | with_reducible apply State.delFrame_within | with_reducible apply State.queueTake_within | with_reducible apply State.useFree_within | fail_if_no_progress ((with_reducible apply within_upd) <;> first | with_reducible exact Or.inl rfl | exact Or.inr (hT (by decide)) | skip) | exact Or.inl (hT (by decide)) | exact Or.inr (hT (by simp)) | split | dsimp +zetaDelta only)

theorem State.frameEnd_within {T : List Part} {s0 s : State} (h : State.Within T s0 s) (hT : [.block 15, .freeIx, .mac, .ms, .notes, .queues] ⊆ T) (id : Nat) (st : Nat) : State.Within T s0 (State.frameEnd s id st) := by
  unfold State.frameEnd
  repeat' (first | with_reducible assumption | exact part_trans (by decide) hT | with_reducible intro _ | with_reducible apply State.delFrame_within | with_reducible apply State.putFrame_within | with_reducible apply State.frameRelease_within | exact Or.inl (hT (by decide)) | exact Or.inr (hT (by simp)) | with_reducible split)

theorem State.flushFrames_within {T : List Part} {s0 s : State} (h : State.Within T s0 s) (hT : [.block 15, .freeIx, .mac, .ms, .notes, .queues] ⊆ T) (which : Frame → Bool) (st : Nat) : State.Within T s0 (State.flushFrames s which st) := by
  unfold State.flushFrames
  repeat' (first | with_reducible assumption | exact part_trans (by decide) hT | with_reducible intro _ | with_reducible apply State.each_within | with_reducible apply State.frameEnd_within | fail_if_no_progress ((with_reducible apply within_upd) <;> first | with_reducible exact Or.inl rfl | exact Or.inr (hT (by decide)) | skip) | exact Or.inl (hT (by decide)) | exact Or.inr (hT (by simp)))

theorem State.frameAgain_within {T : List Part} {s0 s : State} (h : State.Within T s0 s) (hT : [.mac] ⊆ T) (id : Nat) : State.Within T s0 (State.frameAgain s id) := by
  unfold State.frameAgain
  repeat' (first | with_reducible assumption | exact part_trans (by decide) hT | intro _ | extract_lets | with_reducible apply within_ite | with_reducible apply State.putFrame_within | fail_if_no_progress ((with_reducible apply within_upd) <;> first | with_reducible exact Or.inl rfl | exact Or.inr (hT (by decide)) | skip) | exact Or.inl (hT (by decide)) | exact Or.inr (hT (by simp)) | split | dsimp +zetaDelta only)

theorem State.secure_within {T : List Part} {s0 s : State} (h : State.Within T s0 s) (hT : [.block 15, .block 21, .freeIx, .mac, .mem, .ms, .notes, .out, .pa, .queues] ⊆ T) (id : Nat) (f : Frame) : Within2 T s0 (State.secure s id f) := by
  unfold State.secure
  repeat' (first | with_reducible assumption | exact part_trans (by decide) hT | intro _ | extract_lets | with_reducible apply within_ite | with_reducible apply State.putFrame_within | with_reducible apply State.useFree_within | with_reducible apply State.takeCounter_within | refine within2_elim (by with_reducible assumption) (State.takeCounter_within ?_ ?_ _) | with_reducible apply State.flushFrames_within | with_reducible apply within2_ite | with_reducible apply within2_snd | fail_if_no_progress ((with_reducible apply within_upd) <;> first | with_reducible exact Or.inl rfl | exact Or.inr (hT (by decide)) | skip) | split | dsimp +zetaDelta only | with_reducible apply within2_mk | exact Or.inl (hT (by decide)) | exact Or.inr (hT (by simp)))

theorem State.issueFrame_within {T : List Part} {s0 s : State} (h : State.Within T s0 s) (hT : [.block 12, .block 15, .block 21, .freeIx, .mac, .mem, .ms, .notes, .out, .pa, .queues] ⊆ T) (id : Nat) (n : Nat) (phy : Nat) (chan : Nat) (tDep : Nat) (slack : Nat) (wus : Nat) (shift : Option Int) (shared : Bool) : State.Within T s0 (State.issueFrame s id n phy chan tDep slack wus shift shared) := by
  unfold State.issueFrame
  repeat' (first | with_reducible assumption | exact part_trans (by decide) hT | intro _ | extract_lets | with_reducible apply within_ite | with_reducible apply State.putFrame_within | with_reducible apply State.dutyRefuse_within | with_reducible apply State.secure_within | refine within2_elim (by with_reducible assumption) (State.secure_within ?_ ?_ _ _) | with_reducible apply State.dutyTake_within | refine within2_elim (by with_reducible assumption) (State.dutyTake_within ?_ ?_ _ _ _) | with_reducible apply State.macIssue_within | with_reducible apply State.useFree_within | with_reducible apply within2_snd | fail_if_no_progress ((with_reducible apply within_upd) <;> first | with_reducible exact Or.inl rfl | exact Or.inr (hT (by decide)) | skip) | exact Or.inl (hT (by decide)) | exact Or.inr (hT (by simp)) | split | dsimp +zetaDelta only)

theorem State.senseAsk_within {T : List Part} {s0 s : State} (h : State.Within T s0 s) (hT : [.mac] ⊆ T) (n : Nat) (x : Sense) : State.Within T s0 (State.senseAsk s n x) := by
  unfold State.senseAsk
  repeat' (first | with_reducible assumption | exact part_trans (by decide) hT | intro _ | extract_lets | with_reducible apply within_ite | fail_if_no_progress ((with_reducible apply within_upd) <;> first | with_reducible exact Or.inl rfl | exact Or.inr (hT (by decide)) | skip) | exact Or.inl (hT (by decide)) | exact Or.inr (hT (by simp)) | split | dsimp +zetaDelta only)

theorem State.sensePoll_within {T : List Part} {s0 s : State} (h : State.Within T s0 s) (hT : [.mac] ⊆ T) : State.Within T s0 (State.sensePoll s) := by
  unfold State.sensePoll
  repeat' (first | with_reducible assumption | exact part_trans (by decide) hT | with_reducible intro _ | with_reducible apply State.each_within | with_reducible apply State.senseAsk_within | fail_if_no_progress ((with_reducible apply within_upd) <;> first | with_reducible exact Or.inl rfl | exact Or.inr (hT (by decide)) | skip) | exact Or.inl (hT (by decide)) | exact Or.inr (hT (by simp)))

theorem State.csmaBackoff_within {T : List Part} {s0 s : State} (h : State.Within T s0 s) (hT : [.block 18, .freeIx, .mac] ⊆ T) (id : Nat) (f : Frame) : State.Within T s0 (State.csmaBackoff s id f) := by
  unfold State.csmaBackoff
  repeat' (first | with_reducible assumption | exact part_trans (by decide) hT | with_reducible apply State.drbgUse_within | with_reducible apply State.putFrame_within | exact Or.inl (hT (by decide)) | exact Or.inr (hT (by simp)))

theorem State.csmaSense_within {T : List Part} {s0 s : State} (h : State.Within T s0 s) (hT : [.mac] ⊆ T) (id : Nat) (n : Nat) (f : Frame) : State.Within T s0 (State.csmaSense s id n f) := by
  unfold State.csmaSense
  repeat' (first | with_reducible assumption | exact part_trans (by decide) hT | with_reducible apply State.putFrame_within | with_reducible apply State.senseAsk_within | exact Or.inl (hT (by decide)) | exact Or.inr (hT (by simp)))

theorem State.csmaKick_within {T : List Part} {s0 s : State} (h : State.Within T s0 s) (hT : [.block 18, .freeIx, .mac] ⊆ T) : State.Within T s0 (State.csmaKick s) := by
  unfold State.csmaKick
  repeat' (first | with_reducible assumption | exact part_trans (by decide) hT | intro _ | extract_lets | with_reducible apply within_ite | with_reducible apply State.each_within | with_reducible apply State.csmaSense_within | with_reducible apply State.csmaBackoff_within | fail_if_no_progress ((with_reducible apply within_upd) <;> first | with_reducible exact Or.inl rfl | exact Or.inr (hT (by decide)) | skip) | exact Or.inl (hT (by decide)) | exact Or.inr (hT (by simp)) | split | dsimp +zetaDelta only)

theorem State.unowe_within {T : List Part} {s0 s : State} (h : State.Within T s0 s) (hT : [.mac] ⊆ T) (rx : Nat) : State.Within T s0 (State.unowe s rx) := by
  unfold State.unowe
  repeat' (first | with_reducible assumption | exact part_trans (by decide) hT | fail_if_no_progress ((with_reducible apply within_upd) <;> first | with_reducible exact Or.inl rfl | exact Or.inr (hT (by decide)) | skip) | exact Or.inl (hT (by decide)) | exact Or.inr (hT (by simp)))

theorem State.giveUp_within {T : List Part} {s0 s : State} (h : State.Within T s0 s) (hT : [.block 12, .notes] ⊆ T) (excess : Bool) : State.Within T s0 (State.giveUp s excess) := by
  unfold State.giveUp
  repeat' (first | with_reducible assumption | exact part_trans (by decide) hT | with_reducible intro _ | with_reducible apply within_ite | with_reducible apply State.bump_within | with_reducible apply State.raise_within | exact Or.inl (hT (by decide)) | exact Or.inr (hT (by simp)))

theorem State.groupPlan_within {T : List Part} {s0 s : State} (h : State.Within T s0 s) (hT : [.block 12, .mac, .notes] ⊆ T) (n : Nat) (cut : Bool) (x0 : Nat) : Within1 T s0 (State.groupPlan s n cut x0) := by
  induction x0 generalizing s n cut with
  | zero =>
    unfold State.groupPlan
    repeat' (first | with_reducible assumption | exact part_trans (by decide) hT | intro _ | extract_lets | with_reducible apply within_ite | with_reducible apply State.each_within | with_reducible apply State.giveUp_within | with_reducible apply State.unowe_within | with_reducible apply within1_ite | fail_if_no_progress ((with_reducible apply within_upd) <;> first | with_reducible exact Or.inl rfl | exact Or.inr (hT (by decide)) | skip) | split | dsimp +zetaDelta only | with_reducible apply within1_mk | exact Or.inl (hT (by decide)) | exact Or.inr (hT (by simp)))
  | succ k ih =>
    unfold State.groupPlan
    repeat' (first | with_reducible assumption | exact part_trans (by decide) hT | intro _ | extract_lets | with_reducible apply within_ite | with_reducible apply State.each_within | with_reducible apply State.giveUp_within | with_reducible apply State.unowe_within | with_reducible apply within1_ite | with_reducible apply ih | fail_if_no_progress ((with_reducible apply within_upd) <;> first | with_reducible exact Or.inl rfl | exact Or.inr (hT (by decide)) | skip) | split | dsimp +zetaDelta only | with_reducible apply within1_mk | exact Or.inl (hT (by decide)) | exact Or.inr (hT (by simp)))

theorem State.ackSeal_within {T : List Part} {s0 s : State} (h : State.Within T s0 s) (hT : [.block 15, .block 21, .freeIx, .mac, .mem, .ms, .notes, .out, .pa, .queues] ⊆ T) (a : Owed) : Within2 T s0 (State.ackSeal s a) := by
  unfold State.ackSeal
  repeat' (first | with_reducible assumption | exact part_trans (by decide) hT | intro _ | extract_lets | with_reducible apply within_ite | with_reducible apply State.useFree_within | with_reducible apply State.takeCounter_within | refine within2_elim (by with_reducible assumption) (State.takeCounter_within ?_ ?_ _) | with_reducible apply State.flushFrames_within | with_reducible apply within2_ite | with_reducible apply within2_snd | fail_if_no_progress ((with_reducible apply within_upd) <;> first | with_reducible exact Or.inl rfl | exact Or.inr (hT (by decide)) | skip) | split | dsimp +zetaDelta only | with_reducible apply within2_mk | exact Or.inl (hT (by decide)) | exact Or.inr (hT (by simp)))

theorem State.braidTake_within {T : List Part} {s0 s : State} (h : State.Within T s0 s) (hT : [.block 12, .mac, .notes] ⊆ T) (n : Nat) (dep : Nat) (fin : Nat) (budget : Nat) : State.Within T s0 (State.braidTake s n dep fin budget) := by
  unfold State.braidTake
  repeat' (first | with_reducible assumption | exact part_trans (by decide) hT | intro _ | extract_lets | with_reducible apply within_ite | with_reducible apply State.dutyAdd_within | with_reducible apply State.setLimit_within | with_reducible apply State.dutyTake_within | refine within2_elim (by with_reducible assumption) (State.dutyTake_within ?_ ?_ _ _ _) | with_reducible apply within2_snd | fail_if_no_progress ((with_reducible apply within_upd) <;> first | with_reducible exact Or.inl rfl | exact Or.inr (hT (by decide)) | skip) | exact Or.inl (hT (by decide)) | exact Or.inr (hT (by simp)) | split | dsimp +zetaDelta only)

theorem State.issueAck_within {T : List Part} {s0 s : State} (h : State.Within T s0 s) (hT : [.block 12, .block 15, .block 21, .freeIx, .mac, .mem, .ms, .notes, .out, .pa, .queues] ⊆ T) (n : Nat) (a : Owed) (dep : Nat) (budget : Nat) (excess : Bool) : State.Within T s0 (State.issueAck s n a dep budget excess) := by
  unfold State.issueAck
  repeat' (first | with_reducible assumption | exact part_trans (by decide) hT | intro _ | extract_lets | with_reducible apply within_ite | with_reducible apply State.ackSeal_within | refine within2_elim (by with_reducible assumption) (State.ackSeal_within ?_ ?_ _) | with_reducible apply State.giveUp_within | with_reducible apply State.unowe_within | with_reducible apply State.braidTake_within | with_reducible apply State.macIssue_within | with_reducible apply State.useFree_within | with_reducible apply within2_snd | fail_if_no_progress ((with_reducible apply within_upd) <;> first | with_reducible exact Or.inl rfl | exact Or.inr (hT (by decide)) | skip) | exact Or.inl (hT (by decide)) | exact Or.inr (hT (by simp)) | split | dsimp +zetaDelta only)

theorem State.addMember_within {T : List Part} {s0 s : State} (h : State.Within T s0 s) (hT : [.block 12, .block 15, .block 21, .freeIx, .mac, .mem, .ms, .notes, .out, .pa, .queues] ⊆ T) (n : Nat) (first : Nat) (budget : Nat) (excess : Bool) (a : Owed) : State.Within T s0 (State.addMember s n first budget excess a) := by
  unfold State.addMember
  repeat' (first | with_reducible assumption | exact part_trans (by decide) hT | intro _ | extract_lets | with_reducible apply within_ite | with_reducible apply State.giveUp_within | with_reducible apply State.unowe_within | with_reducible apply State.dutyRefuse_within | with_reducible apply State.issueAck_within | fail_if_no_progress ((with_reducible apply within_upd) <;> first | with_reducible exact Or.inl rfl | exact Or.inr (hT (by decide)) | skip) | exact Or.inl (hT (by decide)) | exact Or.inr (hT (by simp)) | split | dsimp +zetaDelta only)

theorem State.appendAck_within {T : List Part} {s0 s : State} (h : State.Within T s0 s) (hT : [.block 12, .block 15, .block 21, .freeIx, .mac, .mem, .ms, .notes, .out, .pa, .queues] ⊆ T) (n : Nat) (a : Owed) : State.Within T s0 (State.appendAck s n a) := by
  unfold State.appendAck
  repeat' (first | with_reducible assumption | exact part_trans (by decide) hT | intro _ | extract_lets | with_reducible apply within_ite | with_reducible apply State.addMember_within | fail_if_no_progress ((with_reducible apply within_upd) <;> first | with_reducible exact Or.inl rfl | exact Or.inr (hT (by decide)) | skip) | exact Or.inl (hT (by decide)) | exact Or.inr (hT (by simp)) | split | dsimp +zetaDelta only)

theorem State.group_within {T : List Part} {s0 s : State} (h : State.Within T s0 s) (hT : [.block 12, .block 15, .block 21, .freeIx, .mac, .mem, .ms, .notes, .out, .pa, .queues] ⊆ T) (n : Nat) : State.Within T s0 (State.group s n) := by
  unfold State.group
  repeat' (first | with_reducible assumption | exact part_trans (by decide) hT | intro _ | extract_lets | with_reducible apply within_ite | with_reducible apply State.each_within | with_reducible apply State.appendAck_within | with_reducible apply State.groupPlan_within | refine within1_elim (by with_reducible assumption) (State.groupPlan_within ?_ ?_ _ _ _) | with_reducible apply within1_fst | fail_if_no_progress ((with_reducible apply within_upd) <;> first | with_reducible exact Or.inl rfl | exact Or.inr (hT (by decide)) | skip) | exact Or.inl (hT (by decide)) | exact Or.inr (hT (by simp)) | split | dsimp +zetaDelta only)

theorem State.openBraid_within {T : List Part} {s0 s : State} (h : State.Within T s0 s) (hT : [.block 12, .block 15, .block 21, .freeIx, .mac, .mem, .ms, .notes, .out, .pa, .queues] ⊆ T) (n : Nat) (dep1 : Nat) (prot : Nat) : State.Within T s0 (State.openBraid s n dep1 prot) := by
  unfold State.openBraid
  repeat' (first | with_reducible assumption | exact part_trans (by decide) hT | intro _ | extract_lets | with_reducible apply within_ite | with_reducible apply State.each_within | with_reducible apply State.giveUp_within | with_reducible apply State.unowe_within | with_reducible apply State.addMember_within | fail_if_no_progress ((with_reducible apply within_upd) <;> first | with_reducible exact Or.inl rfl | exact Or.inr (hT (by decide)) | skip) | exact Or.inl (hT (by decide)) | exact Or.inr (hT (by simp)) | split | dsimp +zetaDelta only)

theorem State.braidOver_within {T : List Part} {s0 s : State} (h : State.Within T s0 s) (hT : [.mac] ⊆ T) (n : Nat) : State.Within T s0 (State.braidOver s n) := by
  unfold State.braidOver
  repeat' (first | with_reducible assumption | exact part_trans (by decide) hT | intro _ | extract_lets | with_reducible apply within_ite | with_reducible apply State.dutySub_within | fail_if_no_progress ((with_reducible apply within_upd) <;> first | with_reducible exact Or.inl rfl | exact Or.inr (hT (by decide)) | skip) | exact Or.inl (hT (by decide)) | exact Or.inr (hT (by simp)) | split | dsimp +zetaDelta only)

theorem State.macFlush_within {T : List Part} {s0 s : State} (h : State.Within T s0 s) (hT : [.block 12, .block 15, .freeIx, .mac, .ms, .notes, .queues] ⊆ T) : State.Within T s0 (State.macFlush s) := by
  unfold State.macFlush
  repeat' (first | with_reducible assumption | exact part_trans (by decide) hT | intro _ | extract_lets | with_reducible apply within_ite | with_reducible apply State.flushFrames_within | with_reducible apply State.each_within | with_reducible apply State.giveUp_within | with_reducible apply State.dutySub_within | with_reducible apply State.braidOver_within | fail_if_no_progress ((with_reducible apply within_upd) <;> first | with_reducible exact Or.inl rfl | exact Or.inr (hT (by decide)) | skip) | exact Or.inl (hT (by decide)) | exact Or.inr (hT (by simp)) | split | dsimp +zetaDelta only)

theorem State.slPut_within {T : List Part} {s0 s : State} (h : State.Within T s0 s) (hT : [.block 21, .mem, .out, .pa] ⊆ T) (n : Nat) (o : Nat) (z : Nat) (v : Nat) : State.Within T s0 (State.slPut s n o z v) := by
  unfold State.slPut
  repeat' (first | with_reducible assumption | exact part_trans (by decide) hT | with_reducible apply State.recPut_within | exact Or.inl (hT (by decide)) | exact Or.inr (hT (by simp)))

theorem State.slSet_within {T : List Part} {s0 s : State} (h : State.Within T s0 s) (hT : [.block 21, .mem, .out, .pa] ⊆ T) (n : Nat) (st : Nat) : State.Within T s0 (State.slSet s n st) := by
  unfold State.slSet
  repeat' (first | with_reducible assumption | exact part_trans (by decide) hT | with_reducible apply State.slPut_within | exact Or.inl (hT (by decide)) | exact Or.inr (hT (by simp)))

theorem State.setMisses_within {T : List Part} {s0 s : State} (h : State.Within T s0 s) (hT : [.block 21, .mem, .out, .pa] ⊆ T) (n : Nat) (m : Nat) (a : Nat) : State.Within T s0 (State.setMisses s n m a) := by
  unfold State.setMisses
  repeat' (first | with_reducible assumption | exact part_trans (by decide) hT | with_reducible apply State.slPut_within | exact Or.inl (hT (by decide)) | exact Or.inr (hT (by simp)))

theorem State.sleepEvent_within {T : List Part} {s0 s : State} (h : State.Within T s0 s) (hT : [.block 13, .notes] ⊆ T) (n : Nat) (bit : Nat) : State.Within T s0 (State.sleepEvent s n bit) := by
  unfold State.sleepEvent
  repeat' (first | with_reducible assumption | exact part_trans (by decide) hT | with_reducible apply State.raise_within | with_reducible apply State.setF_within | exact Or.inl (hT (by decide)) | exact Or.inr (hT (by simp)))

theorem State.linkDrift_within {T : List Part} {s0 s : State} (h : State.Within T s0 s) (hT : [.block 13, .notes] ⊆ T) (l : Nat × Nat) : State.Within T s0 (State.linkDrift s l) := by
  unfold State.linkDrift
  repeat' (first | with_reducible assumption | exact part_trans (by decide) hT | with_reducible apply State.sleepEvent_within | exact Or.inl (hT (by decide)) | exact Or.inr (hT (by simp)))

theorem State.linkCheck_within {T : List Part} {s0 s : State} (h : State.Within T s0 s) (hT : [.block 13, .notes] ⊆ T) (n : Nat) : State.Within T s0 (State.linkCheck s n) := by
  unfold State.linkCheck
  repeat' (first | with_reducible assumption | exact part_trans (by decide) hT | intro _ | extract_lets | with_reducible apply within_ite | with_reducible apply State.each_within | with_reducible apply State.linkDrift_within | fail_if_no_progress ((with_reducible apply within_upd) <;> first | with_reducible exact Or.inl rfl | exact Or.inr (hT (by decide)) | skip) | exact Or.inl (hT (by decide)) | exact Or.inr (hT (by simp)) | split | dsimp +zetaDelta only)

theorem State.t3Put_within {T : List Part} {s0 s : State} (h : State.Within T s0 s) (hT : [.sl] ⊆ T) (n : Nat) (key : Nat) : State.Within T s0 (State.t3Put s n key) := by
  unfold State.t3Put
  repeat' (first | with_reducible assumption | exact part_trans (by decide) hT | fail_if_no_progress ((with_reducible apply within_upd) <;> first | with_reducible exact Or.inl rfl | exact Or.inr (hT (by decide)) | skip) | exact Or.inl (hT (by decide)) | exact Or.inr (hT (by simp)))

theorem State.t3Del_within {T : List Part} {s0 s : State} (h : State.Within T s0 s) (hT : [.sl] ⊆ T) (n : Nat) : State.Within T s0 (State.t3Del s n) := by
  unfold State.t3Del
  repeat' (first | with_reducible assumption | exact part_trans (by decide) hT | fail_if_no_progress ((with_reducible apply within_upd) <;> first | with_reducible exact Or.inl rfl | exact Or.inr (hT (by decide)) | skip) | exact Or.inl (hT (by decide)) | exact Or.inr (hT (by simp)))

theorem State.t3From_within {T : List Part} {s0 s : State} (h : State.Within T s0 s) (hT : [.sl] ⊆ T) (n : Nat) (a : Nat) : State.Within T s0 (State.t3From s n a) := by
  unfold State.t3From
  repeat' (first | with_reducible assumption | exact part_trans (by decide) hT | intro _ | extract_lets | with_reducible apply within_ite | with_reducible apply State.t3Put_within | with_reducible apply State.t3Del_within | fail_if_no_progress ((with_reducible apply within_upd) <;> first | with_reducible exact Or.inl rfl | exact Or.inr (hT (by decide)) | skip) | exact Or.inl (hT (by decide)) | exact Or.inr (hT (by simp)) | split | dsimp +zetaDelta only)

theorem State.t3Set_within {T : List Part} {s0 s : State} (h : State.Within T s0 s) (hT : [.sl] ⊆ T) (n : Nat) : State.Within T s0 (State.t3Set s n) := by
  unfold State.t3Set
  repeat' (first | with_reducible assumption | exact part_trans (by decide) hT | with_reducible apply State.t3From_within | exact Or.inl (hT (by decide)) | exact Or.inr (hT (by simp)))

theorem State.actDel_within {T : List Part} {s0 s : State} (h : State.Within T s0 s) (hT : [.sl] ⊆ T) (n : Nat) : State.Within T s0 (State.actDel s n) := by
  unfold State.actDel
  repeat' (first | with_reducible assumption | exact part_trans (by decide) hT | fail_if_no_progress ((with_reducible apply within_upd) <;> first | with_reducible exact Or.inl rfl | exact Or.inr (hT (by decide)) | skip) | exact Or.inl (hT (by decide)) | exact Or.inr (hT (by simp)))

theorem State.callDel_within {T : List Part} {s0 s : State} (h : State.Within T s0 s) (hT : [.sl] ⊆ T) (n : Nat) : State.Within T s0 (State.callDel s n) := by
  unfold State.callDel
  repeat' (first | with_reducible assumption | exact part_trans (by decide) hT | fail_if_no_progress ((with_reducible apply within_upd) <;> first | with_reducible exact Or.inl rfl | exact Or.inr (hT (by decide)) | skip) | exact Or.inl (hT (by decide)) | exact Or.inr (hT (by simp)))

theorem State.linkEnds_within {T : List Part} {s0 s : State} (h : State.Within T s0 s) (hT : [.sl] ⊆ T) (n : Nat) : State.Within T s0 (State.linkEnds s n) := by
  unfold State.linkEnds
  repeat' (first | with_reducible assumption | exact part_trans (by decide) hT | intro _ | extract_lets | with_reducible apply within_ite | with_reducible apply State.each_within | with_reducible apply State.t3Set_within | fail_if_no_progress ((with_reducible apply within_upd) <;> first | with_reducible exact Or.inl rfl | exact Or.inr (hT (by decide)) | skip) | exact Or.inl (hT (by decide)) | exact Or.inr (hT (by simp)) | split | dsimp +zetaDelta only)

theorem State.unreachable_within {T : List Part} {s0 s : State} (h : State.Within T s0 s) (hT : [.block 13, .block 15, .block 21, .freeIx, .mac, .mem, .ms, .notes, .out, .pa, .queues, .sl] ⊆ T) (n : Nat) : State.Within T s0 (State.unreachable s n) := by
  unfold State.unreachable
  repeat' (first | with_reducible assumption | exact part_trans (by decide) hT | with_reducible intro _ | with_reducible apply State.slSet_within | with_reducible apply State.t3Del_within | with_reducible apply State.actDel_within | with_reducible apply State.callDel_within | with_reducible apply State.flushFrames_within | with_reducible apply State.sleepEvent_within | with_reducible apply State.each_within | with_reducible apply State.linkDrift_within | exact Or.inl (hT (by decide)) | exact Or.inr (hT (by simp)))

theorem State.callSend_within {T : List Part} {s0 s : State} (h : State.Within T s0 s) (hT : [.block 12, .block 13, .block 15, .block 21, .freeIx, .mac, .mem, .ms, .notes, .out, .pa, .queues, .sl] ⊆ T) (n : Nat) : State.Within T s0 (State.callSend s n) := by
  unfold State.callSend
  repeat' (first | with_reducible assumption | exact part_trans (by decide) hT | with_reducible intro _ | with_reducible apply within_ite | with_reducible apply State.dutyRefuse_within | with_reducible apply State.dutyTake_within | with_reducible apply within2_snd | with_reducible apply State.slPut_within | with_reducible apply State.bump_within | with_reducible apply State.macIssue_within | with_reducible apply within1_ite | with_reducible apply within2_ite | with_reducible apply withinO_some | with_reducible apply withinO_none | with_reducible apply withinO_ite | fail_if_no_progress ((with_reducible apply within_upd) <;> first | with_reducible exact Or.inl rfl | exact Or.inr (hT (by decide)) | skip) | with_reducible apply within1_mk | with_reducible apply within2_mk | exact Or.inl (hT (by decide)) | exact Or.inr (hT (by simp)))

theorem State.enterCalling_within {T : List Part} {s0 s : State} (h : State.Within T s0 s) (hT : [.block 12, .block 13, .block 15, .block 21, .freeIx, .mac, .mem, .ms, .notes, .out, .pa, .queues, .sl] ⊆ T) (n : Nat) : State.Within T s0 (State.enterCalling s n) := by
  unfold State.enterCalling
  repeat' (first | with_reducible assumption | exact part_trans (by decide) hT | with_reducible intro _ | with_reducible apply within_ite | with_reducible apply State.slSet_within | with_reducible apply State.setMisses_within | with_reducible apply State.sleepEvent_within | with_reducible apply State.actDel_within | with_reducible apply State.callSend_within | with_reducible apply State.unreachable_within | exact Or.inl (hT (by decide)) | exact Or.inr (hT (by simp)))

theorem State.callFailed_within {T : List Part} {s0 s : State} (h : State.Within T s0 s) (hT : [.block 12, .block 13, .block 15, .block 21, .freeIx, .mac, .mem, .ms, .notes, .out, .pa, .queues, .sl] ⊆ T) (n : Nat) : State.Within T s0 (State.callFailed s n) := by
  unfold State.callFailed
  repeat' (first | with_reducible assumption | exact part_trans (by decide) hT | with_reducible intro _ | with_reducible apply within_ite | with_reducible apply State.setMisses_within | with_reducible apply State.actDel_within | with_reducible apply State.unreachable_within | with_reducible apply State.callSend_within | exact Or.inl (hT (by decide)) | exact Or.inr (hT (by simp)))

theorem State.tracking_within {T : List Part} {s0 s : State} (h : State.Within T s0 s) (hT : [.block 13, .block 21, .mem, .notes, .out, .pa, .sl] ⊆ T) (n : Nat) : State.Within T s0 (State.tracking s n) := by
  unfold State.tracking
  repeat' (first | with_reducible assumption | exact part_trans (by decide) hT | intro _ | extract_lets | with_reducible apply within_ite | with_reducible apply State.setMisses_within | with_reducible apply State.slSet_within | with_reducible apply State.callDel_within | with_reducible apply State.sleepEvent_within | with_reducible apply State.linkEnds_within | with_reducible apply State.t3Set_within | with_reducible apply State.linkCheck_within | fail_if_no_progress ((with_reducible apply within_upd) <;> first | with_reducible exact Or.inl rfl | exact Or.inr (hT (by decide)) | skip) | exact Or.inl (hT (by decide)) | exact Or.inr (hT (by simp)) | split | dsimp +zetaDelta only)

theorem State.observeNew_within {T : List Part} {s0 s : State} (h : State.Within T s0 s) (hT : [.block 13, .block 21, .mem, .notes, .out, .pa, .sl] ⊆ T) (n : Nat) (t : Nat) (o : Int) (kind : Nat) (unit_ : Nat) (cfo : Int) (by_ : Option NodeModel) : State.Within T s0 (State.observeNew s n t o kind unit_ cfo by_) := by
  unfold State.observeNew
  repeat' (first | with_reducible assumption | exact part_trans (by decide) hT | intro _ | extract_lets | with_reducible apply within_ite | with_reducible apply State.slPut_within | with_reducible apply State.sleepEvent_within | with_reducible apply State.bump_within | with_reducible apply State.tracking_within | fail_if_no_progress ((with_reducible apply within_upd) <;> first | with_reducible exact Or.inl rfl | exact Or.inr (hT (by decide)) | skip) | exact Or.inl (hT (by decide)) | exact Or.inr (hT (by simp)) | split | dsimp +zetaDelta only)

theorem State.observe_within {T : List Part} {s0 s : State} (h : State.Within T s0 s) (hT : [.block 13, .block 21, .mem, .notes, .out, .pa, .sl] ⊆ T) (n : Nat) (t : Nat) (o : Int) (kind : Nat) (unit_ : Nat) (cfo : Int) (by_ : Option NodeModel) : State.Within T s0 (State.observe s n t o kind unit_ cfo by_) := by
  unfold State.observe
  repeat' (first | with_reducible assumption | exact part_trans (by decide) hT | intro _ | extract_lets | with_reducible apply within_ite | with_reducible apply State.observeNew_within | fail_if_no_progress ((with_reducible apply within_upd) <;> first | with_reducible exact Or.inl rfl | exact Or.inr (hT (by decide)) | skip) | exact Or.inl (hT (by decide)) | exact Or.inr (hT (by simp)) | split | dsimp +zetaDelta only)

theorem State.observeAcked_within {T : List Part} {s0 s : State} (h : State.Within T s0 s) (hT : [.block 21, .mem, .out, .pa, .sl] ⊆ T) (n : Nat) (t : Nat) (o : Int) : State.Within T s0 (State.observeAcked s n t o) := by
  unfold State.observeAcked
  repeat' (first | with_reducible assumption | exact part_trans (by decide) hT | with_reducible intro _ | with_reducible apply within_ite | with_reducible apply State.slPut_within | with_reducible apply State.t3Set_within | exact Or.inl (hT (by decide)) | exact Or.inr (hT (by simp)))

theorem State.missed_within {T : List Part} {s0 s : State} (h : State.Within T s0 s) (hT : [.block 12, .block 13, .block 15, .block 21, .freeIx, .mac, .mem, .ms, .notes, .out, .pa, .queues, .sl] ⊆ T) (n : Nat) (onAir : Bool) : State.Within T s0 (State.missed s n onAir) := by
  unfold State.missed
  repeat' (first | with_reducible assumption | exact part_trans (by decide) hT | intro _ | extract_lets | with_reducible apply within_ite | with_reducible apply State.actDel_within | with_reducible apply State.setMisses_within | with_reducible apply State.slPut_within | with_reducible apply State.callFailed_within | with_reducible apply State.t3Set_within | fail_if_no_progress ((with_reducible apply within_upd) <;> first | with_reducible exact Or.inl rfl | exact Or.inr (hT (by decide)) | skip) | exact Or.inl (hT (by decide)) | exact Or.inr (hT (by simp)) | split | dsimp +zetaDelta only)

theorem State.keepAlive_within {T : List Part} {s0 s : State} (h : State.Within T s0 s) (hT : [.mac] ⊆ T) (n : Nat) : Within2 T s0 (State.keepAlive s n) := by
  unfold State.keepAlive
  repeat' (first | with_reducible assumption | exact part_trans (by decide) hT | intro _ | extract_lets | with_reducible apply within_ite | with_reducible apply State.putFrame_within | with_reducible apply within2_ite | fail_if_no_progress ((with_reducible apply within_upd) <;> first | with_reducible exact Or.inl rfl | exact Or.inr (hT (by decide)) | skip) | split | dsimp +zetaDelta only | with_reducible apply within2_mk | exact Or.inl (hT (by decide)) | exact Or.inr (hT (by simp)))

theorem State.sweepNext_within {T : List Part} {s0 s : State} (h : State.Within T s0 s) (hT : [.block 13] ⊆ T) (n : Nat) (o : Int) (x0 : Nat) (x1 : Nat) : Within1 T s0 (State.sweepNext s n o x0 x1) := by
  induction x0 generalizing s n o x1 with
  | zero =>
    unfold State.sweepNext
    repeat' (first | with_reducible assumption | exact part_trans (by decide) hT | intro _ | extract_lets | with_reducible apply within1_ite | with_reducible apply within_ite | with_reducible apply State.bump_within | with_reducible apply within1_ite | with_reducible apply within2_ite | with_reducible apply withinO_some | with_reducible apply withinO_none | with_reducible apply withinO_ite | with_reducible apply within1_fst | fail_if_no_progress ((with_reducible apply within_upd) <;> first | with_reducible exact Or.inl rfl | exact Or.inr (hT (by decide)) | skip) | split | dsimp +zetaDelta only | with_reducible apply within1_mk | with_reducible apply within2_mk | exact Or.inl (hT (by decide)) | exact Or.inr (hT (by simp)))
  | succ k ih =>
    unfold State.sweepNext
    repeat' (first | with_reducible assumption | exact part_trans (by decide) hT | intro _ | extract_lets | with_reducible apply within1_ite | with_reducible apply within_ite | with_reducible apply State.bump_within | with_reducible apply within1_ite | with_reducible apply within2_ite | with_reducible apply withinO_some | with_reducible apply withinO_none | with_reducible apply withinO_ite | with_reducible apply ih | with_reducible apply within1_fst | fail_if_no_progress ((with_reducible apply within_upd) <;> first | with_reducible exact Or.inl rfl | exact Or.inr (hT (by decide)) | skip) | split | dsimp +zetaDelta only | with_reducible apply within1_mk | with_reducible apply within2_mk | exact Or.inl (hT (by decide)) | exact Or.inr (hT (by simp)))

theorem State.setAct_within {T : List Part} {s0 s : State} (h : State.Within T s0 s) (hT : [.sl] ⊆ T) (n : Nat) (a : Act) : State.Within T s0 (State.setAct s n a) := by
  unfold State.setAct
  repeat' (first | with_reducible assumption | exact part_trans (by decide) hT | fail_if_no_progress ((with_reducible apply within_upd) <;> first | with_reducible exact Or.inl rfl | exact Or.inr (hT (by decide)) | skip) | exact Or.inl (hT (by decide)) | exact Or.inr (hT (by simp)))

theorem State.widened_within {T : List Part} {s0 s : State} (h : State.Within T s0 s) (hT : [.block 12, .block 13, .block 15, .block 21, .freeIx, .mac, .mem, .ms, .notes, .out, .pa, .queues, .sl] ⊆ T) (n : Nat) (slot : Nat) (t : Nat) : State.Within T s0 (State.widened s n slot t) := by
  unfold State.widened
  repeat' (first | with_reducible assumption | exact part_trans (by decide) hT | intro _ | extract_lets | with_reducible apply within_ite | with_reducible apply State.enterCalling_within | with_reducible apply State.sweepNext_within | refine within1_elim (by with_reducible assumption) (State.sweepNext_within ?_ ?_ _ _ _ _) | with_reducible apply State.setAct_within | with_reducible apply within1_fst | fail_if_no_progress ((with_reducible apply within_upd) <;> first | with_reducible exact Or.inl rfl | exact Or.inr (hT (by decide)) | skip) | exact Or.inl (hT (by decide)) | exact Or.inr (hT (by simp)) | split | dsimp +zetaDelta only)

theorem State.chooseLevel_within {T : List Part} {s0 s : State} (h : State.Within T s0 s) (hT : [.block 12, .block 13, .block 15, .block 21, .freeIx, .mac, .mem, .ms, .notes, .out, .pa, .queues, .sl] ⊆ T) (n : Nat) (slot : Nat) (t : Nat) : State.Within T s0 (State.chooseLevel s n slot t) := by
  unfold State.chooseLevel
  repeat' (first | with_reducible assumption | exact part_trans (by decide) hT | with_reducible intro _ | with_reducible apply within_ite | with_reducible apply State.widened_within | with_reducible apply State.setAct_within | with_reducible apply State.slSet_within | with_reducible apply State.slPut_within | with_reducible apply State.setMisses_within | with_reducible apply State.sleepEvent_within | fail_if_no_progress ((with_reducible apply within_upd) <;> first | with_reducible exact Or.inl rfl | exact Or.inr (hT (by decide)) | skip) | exact Or.inl (hT (by decide)) | exact Or.inr (hT (by simp)) | with_reducible split)

theorem State.cslSense_within {T : List Part} {s0 s : State} (h : State.Within T s0 s) (hT : [.mac, .sl] ⊆ T) (n : Nat) (id : Nat) (f : Frame) : State.Within T s0 (State.cslSense s n id f) := by
  unfold State.cslSense
  repeat' (first | with_reducible assumption | exact part_trans (by decide) hT | with_reducible intro _ | with_reducible apply within_ite | with_reducible apply State.putFrame_within | with_reducible apply State.actDel_within | fail_if_no_progress ((with_reducible apply within_upd) <;> first | with_reducible exact Or.inl rfl | exact Or.inr (hT (by decide)) | skip) | exact Or.inl (hT (by decide)) | exact Or.inr (hT (by simp)) | with_reducible split)

theorem State.sleepTry_within {T : List Part} {s0 s : State} (h : State.Within T s0 s) (hT : [.block 12, .block 13, .block 15, .block 21, .freeIx, .mac, .mem, .ms, .notes, .out, .pa, .queues, .sl] ⊆ T) (n slot t : Nat) : State.Within T s0 (State.sleepTry s n slot t) := by
  unfold State.sleepTry
  repeat' (first | with_reducible assumption | exact part_trans (by decide) hT | with_reducible intro _ | with_reducible apply State.t3Del_within | with_reducible apply State.enterCalling_within | with_reducible apply State.t3Set_within | with_reducible apply State.t3Put_within | with_reducible apply State.t3From_within | with_reducible apply State.keepAlive_within | with_reducible apply within2_snd | with_reducible apply State.chooseLevel_within | with_reducible apply State.delFrame_within | with_reducible apply State.cslSense_within | with_reducible apply within1_ite | with_reducible apply within2_ite | with_reducible apply withinO_some | with_reducible apply withinO_none | with_reducible apply withinO_ite | fail_if_no_progress ((with_reducible apply within_upd) <;> first | with_reducible exact Or.inl rfl | exact Or.inr (hT (by decide)) | skip) | with_reducible split | with_reducible dsimp +zetaDelta only | with_reducible apply within1_mk | with_reducible apply within2_mk | exact Or.inl (hT (by decide)) | exact Or.inr (hT (by simp)))

theorem State.cslRebuild_within {T : List Part} {s0 s : State} (h : State.Within T s0 s) (hT : [.sl] ⊆ T) (n : Nat) : State.Within T s0 (State.cslRebuild s n) := by
  unfold State.cslRebuild
  repeat' (first | with_reducible assumption | exact part_trans (by decide) hT | intro _ | extract_lets | with_reducible apply within_ite | fail_if_no_progress ((with_reducible apply within_upd) <;> first | with_reducible exact Or.inl rfl | exact Or.inr (hT (by decide)) | skip) | exact Or.inl (hT (by decide)) | exact Or.inr (hT (by simp)) | split | dsimp +zetaDelta only)

theorem State.sleepAct_within {T : List Part} {s0 s : State} (h : State.Within T s0 s) (hT : [.block 12, .block 13, .block 15, .block 21, .freeIx, .mac, .mem, .ms, .notes, .out, .pa, .queues, .sl] ⊆ T) (n : Nat) : State.Within T s0 (State.sleepAct s n) := by
  unfold State.sleepAct
  repeat' (first | with_reducible assumption | exact part_trans (by decide) hT | intro _ | extract_lets | with_reducible apply within_ite | with_reducible apply State.t3Del_within | with_reducible apply State.t3Set_within | with_reducible apply State.enterCalling_within | with_reducible apply State.t3Put_within | with_reducible apply State.t3From_within | with_reducible apply State.each_within | with_reducible apply State.sleepTry_within | fail_if_no_progress ((with_reducible apply within_upd) <;> first | with_reducible exact Or.inl rfl | exact Or.inr (hT (by decide)) | skip) | exact Or.inl (hT (by decide)) | exact Or.inr (hT (by simp)) | split | dsimp +zetaDelta only)

theorem State.nodeNext_within {T : List Part} {s0 s : State} (h : State.Within T s0 s) (hT : [.sl] ⊆ T) (n : Nat) : State.Within T s0 (State.nodeNext s n) := by
  unfold State.nodeNext
  repeat' (first | with_reducible assumption | exact part_trans (by decide) hT | with_reducible intro _ | with_reducible apply within_ite | with_reducible apply State.actDel_within | with_reducible apply State.t3Set_within | exact Or.inl (hT (by decide)) | exact Or.inr (hT (by simp)))

theorem State.frameSent_within {T : List Part} {s0 s : State} (h : State.Within T s0 s) (hT : [.block 12, .block 13, .block 15, .block 21, .freeIx, .mac, .mem, .ms, .notes, .out, .pa, .queues, .sl] ⊆ T) (id : Nat) (c : MacCmd) (phy : Nat) (status : Nat) (sent : Nat) : State.Within T s0 (State.frameSent s id c phy status sent) := by
  unfold State.frameSent
  repeat' (first | with_reducible assumption | exact part_trans (by decide) hT | intro _ | extract_lets | with_reducible apply within_ite | with_reducible apply State.bump_within | with_reducible apply State.putFrame_within | with_reducible apply State.missed_within | with_reducible apply State.nodeNext_within | with_reducible apply State.frameEnd_within | fail_if_no_progress ((with_reducible apply within_upd) <;> first | with_reducible exact Or.inl rfl | exact Or.inr (hT (by decide)) | skip) | exact Or.inl (hT (by decide)) | exact Or.inr (hT (by simp)) | split | dsimp +zetaDelta only)

theorem State.callSent_within {T : List Part} {s0 s : State} (h : State.Within T s0 s) (hT : [.sl] ⊆ T) (n : Nat) (fin : Nat) : State.Within T s0 (State.callSent s n fin) := by
  unfold State.callSent
  repeat' (first | with_reducible assumption | exact part_trans (by decide) hT | fail_if_no_progress ((with_reducible apply within_upd) <;> first | with_reducible exact Or.inl rfl | exact Or.inr (hT (by decide)) | skip) | exact Or.inl (hT (by decide)) | exact Or.inr (hT (by simp)))

theorem State.beaconSent_within {T : List Part} {s0 s : State} (h : State.Within T s0 s) (hT : [.mac, .tm] ⊆ T) (pan : Nat) (trx : Nat) (sent : Nat) : State.Within T s0 (State.beaconSent s pan trx sent) := by
  unfold State.beaconSent
  repeat' (first | with_reducible assumption | exact part_trans (by decide) hT | fail_if_no_progress ((with_reducible apply within_upd) <;> first | with_reducible exact Or.inl rfl | exact Or.inr (hT (by decide)) | skip) | exact Or.inl (hT (by decide)) | exact Or.inr (hT (by simp)))

theorem State.ackDone_within {T : List Part} {s0 s : State} (h : State.Within T s0 s) (hT : [.block 12, .block 15, .block 21, .freeIx, .mac, .mem, .ms, .notes, .out, .pa, .queues, .sl] ⊆ T) (c : MacCmd) (status : Nat) (sent : Nat) : State.Within T s0 (State.ackDone s c status sent) := by
  unfold State.ackDone
  repeat' (first | with_reducible assumption | exact part_trans (by decide) hT | intro _ | extract_lets | with_reducible apply within_ite | with_reducible apply State.bump_within | with_reducible apply State.observeAcked_within | with_reducible apply State.giveUp_within | with_reducible apply State.braidOver_within | with_reducible apply State.group_within | fail_if_no_progress ((with_reducible apply within_upd) <;> first | with_reducible exact Or.inl rfl | exact Or.inr (hT (by decide)) | skip) | exact Or.inl (hT (by decide)) | exact Or.inr (hT (by simp)) | split | dsimp +zetaDelta only)

theorem State.macComplete_within {T : List Part} {s0 s : State} (h : State.Within T s0 s) (hT : [.block 12, .block 13, .block 15, .block 21, .freeIx, .mac, .mem, .ms, .notes, .out, .pa, .queues, .sl, .tm] ⊆ T) (tag : Nat) (status : Nat) (sent : Nat) : State.Within T s0 (State.macComplete s tag status sent) := by
  unfold State.macComplete
  repeat' (first | with_reducible assumption | exact part_trans (by decide) hT | intro _ | extract_lets | with_reducible apply within_ite | with_reducible apply State.dutySub_within | with_reducible apply State.ackDone_within | with_reducible apply State.beaconSent_within | with_reducible apply State.callSent_within | with_reducible apply State.callFailed_within | with_reducible apply State.frameSent_within | fail_if_no_progress ((with_reducible apply within_upd) <;> first | with_reducible exact Or.inl rfl | exact Or.inr (hT (by decide)) | skip) | exact Or.inl (hT (by decide)) | exact Or.inr (hT (by simp)) | split | dsimp +zetaDelta only)

theorem State.heldLate_within {T : List Part} {s0 s : State} (h : State.Within T s0 s) (hT : [.block 12, .block 13, .block 15, .block 21, .freeIx, .mac, .mem, .ms, .notes, .out, .pa, .queues, .sl, .tm] ⊆ T) : State.Within T s0 (State.heldLate s) := by
  unfold State.heldLate
  repeat' (first | with_reducible assumption | exact part_trans (by decide) hT | with_reducible intro _ | with_reducible apply State.each_within | with_reducible apply State.macComplete_within | fail_if_no_progress ((with_reducible apply within_upd) <;> first | with_reducible exact Or.inl rfl | exact Or.inr (hT (by decide)) | skip) | exact Or.inl (hT (by decide)) | exact Or.inr (hT (by simp)))

theorem State.callKick_within {T : List Part} {s0 s : State} (h : State.Within T s0 s) (hT : [.block 12, .block 13, .block 15, .block 21, .freeIx, .mac, .mem, .ms, .notes, .out, .pa, .queues, .sl] ⊆ T) : State.Within T s0 (State.callKick s) := by
  unfold State.callKick
  repeat' (first | with_reducible assumption | exact part_trans (by decide) hT | with_reducible intro _ | with_reducible apply within_ite | with_reducible apply State.each_within | with_reducible apply State.callSend_within | exact Or.inl (hT (by decide)) | exact Or.inr (hT (by simp)))

theorem State.macTick_within {T : List Part} {s0 s : State} (h : State.Within T s0 s) (hT : [.block 12, .block 13, .block 15, .block 18, .block 21, .freeIx, .mac, .mem, .ms, .notes, .out, .pa, .queues, .sl, .tm] ⊆ T) : State.Within T s0 (State.macTick s) := by
  unfold State.macTick
  repeat' (first | with_reducible assumption | exact part_trans (by decide) hT | with_reducible apply State.heldLate_within | with_reducible apply State.macSend_within | with_reducible apply State.frameRelease_within | with_reducible apply State.sensePoll_within | with_reducible apply State.csmaKick_within | with_reducible apply State.callKick_within | exact Or.inl (hT (by decide)) | exact Or.inr (hT (by simp)))

theorem execCreditReturn_within {T : List Part} {s0 s : State} (h : State.Within T s0 s) (hT : [.block 12, .block 13, .block 15, .block 18, .block 21, .freeIx, .mac, .mem, .ms, .mtb, .notes, .out, .pa, .queues, .rd, .sl, .tm] ⊆ T) (queue : Fin 256) (src : Fin 256) : WithinRes T s0 (execCreditReturn queue src s) := by
  unfold execCreditReturn
  repeat' (first | with_reducible assumption | exact part_trans (by decide) hT | intro _ | extract_lets | with_reducible apply withinRes_next | with_reducible apply withinRes_ite | with_reducible apply within_ite | with_reducible apply State.creditBack_within | with_reducible apply State.txRelease_within | with_reducible apply State.macTick_within | fail_if_no_progress ((with_reducible apply within_upd) <;> first | with_reducible exact Or.inl rfl | exact Or.inr (hT (by decide)) | skip) | exact Or.inl (hT (by decide)) | exact Or.inr (hT (by simp)) | split | dsimp +zetaDelta only)

theorem State.ackArrived_within {T : List Part} {s0 s : State} (h : State.Within T s0 s) (hT : [.block 13, .block 15, .block 18, .block 21, .freeIx, .mac, .mem, .ms, .notes, .out, .pa, .queues, .sl] ⊆ T) (r : Rx) (x0 : MacHdr) : State.Within T s0 (State.ackArrived s r x0) := by
  unfold State.ackArrived
  repeat' (first | with_reducible assumption | exact part_trans (by decide) hT | intro _ | extract_lets | with_reducible apply within_ite | with_reducible apply State.frameEnd_within | with_reducible apply State.actDel_within | with_reducible apply State.observe_within | with_reducible apply State.tracking_within | with_reducible apply State.csmaKick_within | fail_if_no_progress ((with_reducible apply within_upd) <;> first | with_reducible exact Or.inl rfl | exact Or.inr (hT (by decide)) | skip) | exact Or.inl (hT (by decide)) | exact Or.inr (hT (by simp)) | split | dsimp +zetaDelta only)

theorem State.ackMissing_within {T : List Part} {s0 s : State} (h : State.Within T s0 s) (hT : [.block 12, .block 13, .block 15, .block 18, .block 21, .freeIx, .mac, .mem, .ms, .notes, .out, .pa, .queues, .sl] ⊆ T) (id : Nat) (f : Frame) : State.Within T s0 (State.ackMissing s id f) := by
  unfold State.ackMissing
  repeat' (first | with_reducible assumption | exact part_trans (by decide) hT | with_reducible intro _ | with_reducible apply within_ite | with_reducible apply State.putFrame_within | with_reducible apply State.missed_within | with_reducible apply State.raise_within | with_reducible apply State.frameEnd_within | with_reducible apply State.drbgUse_within | with_reducible apply State.csmaKick_within | exact Or.inl (hT (by decide)) | exact Or.inr (hT (by simp)))

theorem State.pin2_within {T : List Part} {s0 s : State} (h : State.Within T s0 s) (hT : [.block 14, .mem, .notes, .pl, .rd] ⊆ T) (k : Nat) (r : Rx) (node : Nat) (d : List Byte) : State.Within T s0 (State.pin2 s k r node d) := by
  unfold State.pin2
  repeat' (first | with_reducible assumption | exact part_trans (by decide) hT | with_reducible apply State.writeBytes_within | with_reducible apply State.putTask_within | with_reducible apply State.pinFilled_within | with_reducible apply State.putRx_within | exact Or.inl (hT (by decide)) | exact Or.inr (hT (by simp)) | with_reducible split | with_reducible dsimp +zetaDelta only)

theorem State.takeCtx_within {T : List Part} {s0 s : State} (h : State.Within T s0 s) (hT : [.ky, .pl, .rd] ⊆ T) (k : Nat) (r : Rx) (c : Nat) : State.Within T s0 (State.takeCtx s k r c) := by
  unfold State.takeCtx
  repeat' (first | with_reducible assumption | exact part_trans (by decide) hT | with_reducible apply State.putTask_within | with_reducible apply State.putRx_within | fail_if_no_progress ((with_reducible apply within_upd) <;> first | with_reducible exact Or.inl rfl | exact Or.inr (hT (by decide)) | skip) | exact Or.inl (hT (by decide)) | exact Or.inr (hT (by simp)) | with_reducible split | with_reducible dsimp +zetaDelta only)

theorem State.dupVerdict_within {T : List Part} {s0 s : State} (h : State.Within T s0 s) (hT : [.mac] ⊆ T) (pan : Nat) (h : MacHdr) : Within2 T s0 (State.dupVerdict s pan h) := by
  unfold State.dupVerdict
  repeat' (first | with_reducible assumption | exact part_trans (by decide) hT | with_reducible intro _ | with_reducible apply within2_ite | with_reducible apply within1_ite | with_reducible apply within2_ite | with_reducible apply withinO_some | with_reducible apply withinO_none | with_reducible apply withinO_ite | fail_if_no_progress ((with_reducible apply within_upd) <;> first | with_reducible exact Or.inl rfl | exact Or.inr (hT (by decide)) | skip) | with_reducible split | with_reducible apply within1_mk | with_reducible apply within2_mk | exact Or.inl (hT (by decide)) | exact Or.inr (hT (by simp)))

theorem State.rxVerdict_within {T : List Part} {s0 s : State} (h : State.Within T s0 s) (hT : [.mac] ⊆ T) (r : Rx) : WithinO T s0 (State.rxVerdict s r) := by
  unfold State.rxVerdict
  repeat' (first | with_reducible assumption | exact part_trans (by decide) hT | with_reducible intro _ | with_reducible apply withinO_some | with_reducible apply withinO_none | with_reducible apply withinO_ite | with_reducible apply State.dupVerdict_within | with_reducible apply within2_snd | with_reducible apply within1_ite | with_reducible apply within2_ite | with_reducible apply withinO_some | with_reducible apply withinO_none | with_reducible apply withinO_ite | with_reducible split | with_reducible apply within1_mk | with_reducible apply within2_mk | exact Or.inl (hT (by decide)) | exact Or.inr (hT (by simp)))

theorem State.countVerdict_within {T : List Part} {s0 s : State} (h : State.Within T s0 s) (hT : [.block 12, .notes] ⊆ T) (v : Nat) : State.Within T s0 (State.countVerdict s v) := by
  unfold State.countVerdict
  repeat' (first | with_reducible assumption | exact part_trans (by decide) hT | with_reducible intro _ | with_reducible apply within_ite | with_reducible apply State.bump_within | with_reducible apply State.raise_within | exact Or.inl (hT (by decide)) | exact Or.inr (hT (by simp)))

theorem State.cslSeen_within {T : List Part} {s0 s : State} (h : State.Within T s0 s) (hT : [.block 13, .block 21, .mem, .notes, .out, .pa, .sl] ⊆ T) (r : Rx) (pan : Nat) (phase : Nat) : State.Within T s0 (State.cslSeen s r pan phase) := by
  unfold State.cslSeen
  repeat' (first | with_reducible assumption | exact part_trans (by decide) hT | intro _ | extract_lets | with_reducible apply within_ite | with_reducible apply State.slPut_within | with_reducible apply State.observe_within | fail_if_no_progress ((with_reducible apply within_upd) <;> first | with_reducible exact Or.inl rfl | exact Or.inr (hT (by decide)) | skip) | exact Or.inl (hT (by decide)) | exact Or.inr (hT (by simp)) | split | dsimp +zetaDelta only)

theorem State.sleepSeen_within {T : List Part} {s0 s : State} (h : State.Within T s0 s) (hT : [.block 13, .block 21, .mem, .notes, .out, .pa, .sl] ⊆ T) (r : Rx) (x0 : MacHdr) (pan : Nat) (v : Nat) : State.Within T s0 (State.sleepSeen s r x0 pan v) := by
  unfold State.sleepSeen
  repeat' (first | with_reducible assumption | exact part_trans (by decide) hT | intro _ | extract_lets | with_reducible apply within_ite | with_reducible apply State.observe_within | with_reducible apply State.cslSeen_within | with_reducible apply State.tracking_within | fail_if_no_progress ((with_reducible apply within_upd) <;> first | with_reducible exact Or.inl rfl | exact Or.inr (hT (by decide)) | skip) | exact Or.inl (hT (by decide)) | exact Or.inr (hT (by simp)) | split | dsimp +zetaDelta only)

theorem State.joinEntry_within {T : List Part} {s0 s : State} (h : State.Within T s0 s) (hT : [.block 15, .block 16, .freeIx, .ms, .notes, .queues, .resp] ⊆ T) (r : Rx) (pan : Nat) (note : List Byte) : State.Within T s0 (State.joinEntry s r pan note) := by
  unfold State.joinEntry
  repeat' (first | with_reducible assumption | exact part_trans (by decide) hT | intro _ | extract_lets | with_reducible apply within_ite | with_reducible apply State.enqueue_within | with_reducible apply State.useFree_within | with_reducible apply State.rxFree_within | fail_if_no_progress ((with_reducible apply within_upd) <;> first | with_reducible exact Or.inl rfl | exact Or.inr (hT (by decide)) | skip) | exact Or.inl (hT (by decide)) | exact Or.inr (hT (by simp)) | split | dsimp +zetaDelta only)

theorem State.dropBuf_within {T : List Part} {s0 s : State} (h : State.Within T s0 s) (hT : [.pl] ⊆ T) (i : Nat) : State.Within T s0 (State.dropBuf s i) := by
  unfold State.dropBuf
  repeat' (first | with_reducible assumption | exact part_trans (by decide) hT | with_reducible apply State.putTask_within | exact Or.inl (hT (by decide)) | exact Or.inr (hT (by simp)) | with_reducible split)

theorem State.rxTaught_within {T : List Part} {s0 s : State} (h : State.Within T s0 s) (hT : [.block 17, .block 21, .gd, .mem, .notes, .out, .pa] ⊆ T) (r : Rx) (x0 : MacHdr) (taught : Bool) : State.Within T s0 (State.rxTaught s r x0 taught) := by
  unfold State.rxTaught
  repeat' (first | with_reducible assumption | exact part_trans (by decide) hT | intro _ | extract_lets | with_reducible apply within_ite | with_reducible apply State.teach_within | refine within1_elim (by with_reducible assumption) (State.teach_within ?_ ?_ _ _ _ _ _ _ _) | with_reducible apply within1_fst | fail_if_no_progress ((with_reducible apply within_upd) <;> first | with_reducible exact Or.inl rfl | exact Or.inr (hT (by decide)) | skip) | exact Or.inl (hT (by decide)) | exact Or.inr (hT (by simp)) | split | dsimp +zetaDelta only)

theorem State.rxShadow_within {T : List Part} {s0 s : State} (h : State.Within T s0 s) (hT : [.mac] ⊆ T) (node : Nat) (counter : Nat) (new : Bool) : State.Within T s0 (State.rxShadow s node counter new) := by
  unfold State.rxShadow
  repeat' (first | with_reducible assumption | exact part_trans (by decide) hT | with_reducible intro _ | with_reducible apply within_ite | fail_if_no_progress ((with_reducible apply within_upd) <;> first | with_reducible exact Or.inl rfl | exact Or.inr (hT (by decide)) | skip) | exact Or.inl (hT (by decide)) | exact Or.inr (hT (by simp)))

theorem State.rxOwes_within {T : List Part} {s0 s : State} (h : State.Within T s0 s) (hT : [.block 12, .block 15, .block 21, .freeIx, .mac, .mem, .ms, .notes, .out, .pa, .queues] ⊆ T) (a : Owed) (owes : Bool) : State.Within T s0 (State.rxOwes s a owes) := by
  unfold State.rxOwes
  repeat' (first | with_reducible assumption | exact part_trans (by decide) hT | with_reducible intro _ | with_reducible apply within_ite | with_reducible apply State.group_within | fail_if_no_progress ((with_reducible apply within_upd) <;> first | with_reducible exact Or.inl rfl | exact Or.inr (hT (by decide)) | skip) | exact Or.inl (hT (by decide)) | exact Or.inr (hT (by simp)))

theorem State.rxCommit_within {T : List Part} {s0 s : State} (h : State.Within T s0 s) (hT : [.pl] ⊆ T) (r : Rx) (commit : Commit) (new : Bool) : State.Within T s0 (State.rxCommit s r commit new) := by
  unfold State.rxCommit
  repeat' (first | with_reducible assumption | exact part_trans (by decide) hT | with_reducible intro _ | with_reducible apply State.putTask_within | exact Or.inl (hT (by decide)) | exact Or.inr (hT (by simp)) | with_reducible split)

theorem State.rxClose_within {T : List Part} {s0 s : State} (h : State.Within T s0 s) (hT : [.block 13, .block 14, .block 15, .block 16, .block 18, .block 21, .freeIx, .ky, .mac, .mem, .ms, .notes, .out, .pa, .pl, .queues, .rd, .resp, .sl] ⊆ T) (k : Nat) (r : Rx) (x0 : MacHdr) (v : Nat) (pan : Nat) (note : Nat) : State.Within T s0 (State.rxClose s k r x0 v pan note) := by
  unfold State.rxClose
  repeat' (first | with_reducible assumption | exact part_trans (by decide) hT | intro _ | extract_lets | with_reducible apply within_ite | with_reducible apply State.delRx_within | with_reducible apply State.rxWithdraw_within | with_reducible apply State.ackArrived_within | with_reducible apply State.dropBuf_within | with_reducible apply State.joinEntry_within | with_reducible apply State.emit_within | with_reducible apply State.raise_within | with_reducible apply State.bump_within | with_reducible apply State.fillInline_within | fail_if_no_progress ((with_reducible apply within_upd) <;> first | with_reducible exact Or.inl rfl | exact Or.inr (hT (by decide)) | skip) | exact Or.inl (hT (by decide)) | exact Or.inr (hT (by simp)) | split | dsimp +zetaDelta only)

theorem State.rxFinish_within {T : List Part} {s0 s : State} (h : State.Within T s0 s) (hT : [.block 12, .block 13, .block 14, .block 15, .block 16, .block 17, .block 18, .block 21, .freeIx, .gd, .ky, .mac, .mem, .ms, .notes, .out, .pa, .pl, .queues, .rd, .resp, .sl] ⊆ T) (k : Nat) (v : Nat) : State.Within T s0 (State.rxFinish s k v) := by
  unfold State.rxFinish
  repeat' (first | with_reducible assumption | exact part_trans (by decide) hT | intro _ | extract_lets | with_reducible apply within_ite | with_reducible apply State.countVerdict_within | with_reducible apply State.unteach_within | with_reducible apply State.delRx_within | with_reducible apply State.rxWithdraw_within | with_reducible apply State.rxTaught_within | with_reducible apply State.bump_within | with_reducible apply State.rxShadow_within | with_reducible apply State.rxOwes_within | with_reducible apply State.sleepSeen_within | with_reducible apply State.rxClose_within | with_reducible apply State.rxCommit_within | with_reducible apply State.noteWrite_within | fail_if_no_progress ((with_reducible apply within_upd) <;> first | with_reducible exact Or.inl rfl | exact Or.inr (hT (by decide)) | skip) | exact Or.inl (hT (by decide)) | exact Or.inr (hT (by simp)) | split | dsimp +zetaDelta only)

theorem State.rxJudge_within {T : List Part} {s0 s : State} (h : State.Within T s0 s) (hT : [.block 12, .block 13, .block 14, .block 15, .block 16, .block 17, .block 18, .block 21, .freeIx, .gd, .ky, .mac, .mem, .ms, .notes, .out, .pa, .pl, .queues, .rd, .resp, .sl] ⊆ T) (k : Nat) : State.Within T s0 (State.rxJudge s k) := by
  unfold State.rxJudge
  repeat' (first | with_reducible assumption | exact part_trans (by decide) hT | intro _ | extract_lets | with_reducible apply within_ite | with_reducible apply State.rxFinish_within | with_reducible apply State.teach_within | refine within1_elim (by with_reducible assumption) (State.teach_within ?_ ?_ _ _ _ _ _ _ _) | with_reducible apply State.putRx_within | with_reducible apply State.rxVerdict_within | refine withinO_elim (by with_reducible assumption) (State.rxVerdict_within ?_ ?_ _) | with_reducible apply within1_fst | fail_if_no_progress ((with_reducible apply within_upd) <;> first | with_reducible exact Or.inl rfl | exact Or.inr (hT (by decide)) | skip) | exact Or.inl (hT (by decide)) | exact Or.inr (hT (by simp)) | split | dsimp +zetaDelta only)

theorem execSourceAddressComplete_within {T : List Part} {s0 s : State} (h : State.Within T s0 s) (hT : [.block 12, .block 15, .block 21, .freeIx, .mac, .mem, .ms, .notes, .out, .pa, .queues, .rd] ⊆ T) (rx : Nat) (hdr : MacHdr) (clock : ClockIe) : WithinRes T s0 (execSourceAddressComplete rx hdr clock s) := by
  unfold execSourceAddressComplete
  repeat' (first | with_reducible assumption | exact part_trans (by decide) hT | intro _ | extract_lets | with_reducible apply withinRes_next | with_reducible apply withinRes_ite | with_reducible apply within_ite | with_reducible apply State.putRx_within | with_reducible apply State.group_within | fail_if_no_progress ((with_reducible apply within_upd) <;> first | with_reducible exact Or.inl rfl | exact Or.inr (hT (by decide)) | skip) | exact Or.inl (hT (by decide)) | exact Or.inr (hT (by simp)) | split | dsimp +zetaDelta only)

theorem execAddressLookupDone_within {T : List Part} {s0 s : State} (h : State.Within T s0 s) (hT : [.block 12, .block 13, .block 14, .block 15, .block 16, .block 17, .block 18, .block 21, .freeIx, .gd, .ky, .mac, .mem, .ms, .notes, .out, .pa, .pl, .queues, .rd, .resp, .sl] ⊆ T) (rx : Nat) : WithinRes T s0 (execAddressLookupDone rx s) := by
  unfold execAddressLookupDone
  repeat' (first | with_reducible assumption | exact part_trans (by decide) hT | intro _ | extract_lets | with_reducible apply withinRes_next | with_reducible apply withinRes_ite | with_reducible apply within_ite | with_reducible apply State.putRx_within | with_reducible apply State.pin2_within | with_reducible apply State.rxJudge_within | fail_if_no_progress ((with_reducible apply within_upd) <;> first | with_reducible exact Or.inl rfl | exact Or.inr (hT (by decide)) | skip) | exact Or.inl (hT (by decide)) | exact Or.inr (hT (by simp)) | split | dsimp +zetaDelta only)

theorem execNodeRecordReadDone_within {T : List Part} {s0 s : State} (h : State.Within T s0 s) (hT : [.block 12, .block 13, .block 14, .block 15, .block 16, .block 17, .block 18, .block 21, .freeIx, .gd, .ky, .mac, .mem, .ms, .notes, .out, .pa, .pl, .queues, .rd, .resp, .sl] ⊆ T) (rx : Nat) : WithinRes T s0 (execNodeRecordReadDone rx s) := by
  unfold execNodeRecordReadDone
  repeat' (first | with_reducible assumption | exact part_trans (by decide) hT | intro _ | extract_lets | with_reducible apply withinRes_next | with_reducible apply withinRes_ite | with_reducible apply within_ite | with_reducible apply State.pin2_within | with_reducible apply State.rxJudge_within | with_reducible apply State.bump_within | with_reducible apply State.raise_within | fail_if_no_progress ((with_reducible apply within_upd) <;> first | with_reducible exact Or.inl rfl | exact Or.inr (hT (by decide)) | skip) | exact Or.inl (hT (by decide)) | exact Or.inr (hT (by simp)) | split | dsimp +zetaDelta only)

theorem execKeyUnwrapDone_within {T : List Part} {s0 s : State} (h : State.Within T s0 s) (hT : [.block 12, .block 13, .block 14, .block 15, .block 16, .block 17, .block 18, .block 21, .freeIx, .gd, .ky, .mac, .mem, .ms, .notes, .out, .pa, .pl, .queues, .rd, .resp, .sl] ⊆ T) (rx : Nat) : WithinRes T s0 (execKeyUnwrapDone rx s) := by
  unfold execKeyUnwrapDone
  repeat' (first | with_reducible assumption | exact part_trans (by decide) hT | intro _ | extract_lets | with_reducible apply withinRes_next | with_reducible apply withinRes_ite | with_reducible apply within_ite | with_reducible apply State.bump_within | with_reducible apply State.putRx_within | with_reducible apply State.rxJudge_within | with_reducible apply State.takeCtx_within | fail_if_no_progress ((with_reducible apply within_upd) <;> first | with_reducible exact Or.inl rfl | exact Or.inr (hT (by decide)) | skip) | exact Or.inl (hT (by decide)) | exact Or.inr (hT (by simp)) | split | dsimp +zetaDelta only)

theorem execCcmContextFree_within {T : List Part} {s0 s : State} (h : State.Within T s0 s) (hT : [.block 12, .block 13, .block 14, .block 15, .block 16, .block 17, .block 18, .block 21, .freeIx, .gd, .ky, .mac, .mem, .ms, .notes, .out, .pa, .pl, .queues, .rd, .resp, .sl] ⊆ T) : WithinRes T s0 (execCcmContextFree s) := by
  unfold execCcmContextFree
  repeat' (first | with_reducible assumption | exact part_trans (by decide) hT | intro _ | extract_lets | with_reducible apply withinRes_next | with_reducible apply withinRes_ite | with_reducible apply within_ite | with_reducible apply State.takeCtx_within | with_reducible apply State.rxJudge_within | fail_if_no_progress ((with_reducible apply within_upd) <;> first | with_reducible exact Or.inl rfl | exact Or.inr (hT (by decide)) | skip) | exact Or.inl (hT (by decide)) | exact Or.inr (hT (by simp)) | split | dsimp +zetaDelta only)

theorem execCcmVerdict_within {T : List Part} {s0 s : State} (h : State.Within T s0 s) (hT : [.block 12, .block 13, .block 14, .block 15, .block 16, .block 17, .block 18, .block 21, .freeIx, .gd, .ky, .mac, .mem, .ms, .notes, .out, .pa, .pl, .queues, .rd, .resp, .sl] ⊆ T) (rx : Nat) (authentic : Bool) : WithinRes T s0 (execCcmVerdict rx authentic s) := by
  unfold execCcmVerdict
  repeat' (first | with_reducible assumption | exact part_trans (by decide) hT | intro _ | extract_lets | with_reducible apply withinRes_next | with_reducible apply withinRes_ite | with_reducible apply within_ite | with_reducible apply State.rxJudge_within | with_reducible apply State.putRx_within | fail_if_no_progress ((with_reducible apply within_upd) <;> first | with_reducible exact Or.inl rfl | exact Or.inr (hT (by decide)) | skip) | exact Or.inl (hT (by decide)) | exact Or.inr (hT (by simp)) | split | dsimp +zetaDelta only)

theorem execDupCacheExpiry_within {T : List Part} {s0 s : State} (h : State.Within T s0 s) (hT : [.mac, .mtb] ⊆ T) (t : Nat) : WithinRes T s0 (execDupCacheExpiry t s) := by
  unfold execDupCacheExpiry
  repeat' (first | with_reducible assumption | exact part_trans (by decide) hT | intro _ | extract_lets | with_reducible apply withinRes_next | with_reducible apply withinRes_ite | with_reducible apply within_ite | with_reducible apply State.advance_within | fail_if_no_progress ((with_reducible apply within_upd) <;> first | with_reducible exact Or.inl rfl | exact Or.inr (hT (by decide)) | skip) | exact Or.inl (hT (by decide)) | exact Or.inr (hT (by simp)) | split | dsimp +zetaDelta only)

theorem execShadowEntryRelease_within {T : List Part} {s0 s : State} (h : State.Within T s0 s) (hT : [.mac] ⊆ T) (node : Nat) : WithinRes T s0 (execShadowEntryRelease node s) := by
  unfold execShadowEntryRelease
  repeat' (first | with_reducible assumption | exact part_trans (by decide) hT | intro _ | extract_lets | with_reducible apply withinRes_next | with_reducible apply withinRes_ite | with_reducible apply within_ite | fail_if_no_progress ((with_reducible apply within_upd) <;> first | with_reducible exact Or.inl rfl | exact Or.inr (hT (by decide)) | skip) | exact Or.inl (hT (by decide)) | exact Or.inr (hT (by simp)) | split | dsimp +zetaDelta only)

theorem State.tkOk_within {T : List Part} {s0 s : State} (h : State.Within T s0 s) (hT : [.out, .resp] ⊆ T) (b : Nat) (w : Nat) : State.Within T s0 (State.tkOk s b w) := by
  unfold State.tkOk
  repeat' (first | with_reducible assumption | exact part_trans (by decide) hT | with_reducible apply State.emit_within | with_reducible apply State.answer_within | exact Or.inl (hT (by decide)) | exact Or.inr (hT (by simp)))

theorem State.tkRefuse_within {T : List Part} {s0 s : State} (h : State.Within T s0 s) (hT : [.out, .resp] ⊆ T) (b : Nat) (st : Nat) : State.Within T s0 (State.tkRefuse s b st) := by
  unfold State.tkRefuse
  repeat' (first | with_reducible assumption | exact part_trans (by decide) hT | with_reducible apply State.emit_within | with_reducible apply State.answer_within | exact Or.inl (hT (by decide)) | exact Or.inr (hT (by simp)))

theorem execTkNew_within {T : List Part} {s0 s : State} (h : State.Within T s0 s) (hT : [.block 14, .freeIx, .notes, .out, .pl, .resp] ⊆ T) (bob : Fin 16) (desc : Word) : WithinRes T s0 (execTkNew bob desc s) := by
  unfold execTkNew
  repeat' (first | with_reducible assumption | exact part_trans (by decide) hT | intro _ | extract_lets | with_reducible apply withinRes_next | with_reducible apply withinRes_ite | with_reducible apply within_ite | with_reducible apply State.tkRefuse_within | with_reducible apply State.bump_within | with_reducible apply State.raise_within | with_reducible apply State.newTask_within | refine withinO_elim (by with_reducible assumption) (State.newTask_within ?_ ?_ _ _ _) | with_reducible apply State.tkOk_within | fail_if_no_progress ((with_reducible apply within_upd) <;> first | with_reducible exact Or.inl rfl | exact Or.inr (hT (by decide)) | skip) | exact Or.inl (hT (by decide)) | exact Or.inr (hT (by simp)) | split | dsimp +zetaDelta only)

theorem State.recordFault_within {T : List Part} {s0 s : State} (h : State.Within T s0 s) (hT : [.block 14, .notes] ⊆ T) (b : Nat) (cause : Nat) (pc : Nat) (init : Bool) (handle : Nat) : State.Within T s0 (State.recordFault s b cause pc init handle) := by
  unfold State.recordFault
  repeat' (first | with_reducible assumption | exact part_trans (by decide) hT | with_reducible apply State.setF_within | with_reducible apply State.setB_within | with_reducible apply State.bump_within | with_reducible apply State.raise_within | exact Or.inl (hT (by decide)) | exact Or.inr (hT (by simp)))

theorem State.bobFault_within {T : List Part} {s0 s : State} (h : State.Within T s0 s) (hT : [.block 14, .block 16, .block 21, .ky, .mac, .mem, .ms, .notes, .out, .pa, .pl, .queues] ⊆ T) (b : Nat) (cause : Nat) (pc : Nat) : State.Within T s0 (State.bobFault s b cause pc) := by
  unfold State.bobFault
  repeat' (first | with_reducible assumption | exact part_trans (by decide) hT | intro _ | extract_lets | with_reducible apply within_ite | with_reducible apply State.unstall_within | with_reducible apply State.recordFault_within | with_reducible apply State.setBobbin_within | with_reducible apply State.emit_within | with_reducible apply State.startNext_within | with_reducible apply State.afterTask_within | with_reducible apply State.endTask_within | fail_if_no_progress ((with_reducible apply within_upd) <;> first | with_reducible exact Or.inl rfl | exact Or.inr (hT (by decide)) | skip) | exact Or.inl (hT (by decide)) | exact Or.inr (hT (by simp)) | split | dsimp +zetaDelta only)

theorem State.accessFault_within {T : List Part} {s0 s : State} (h : State.Within T s0 s) (hT : [.block 14, .block 16, .block 21, .freeIx, .ky, .mac, .mem, .ms, .notes, .out, .pa, .pl, .queues] ⊆ T) (b : Nat) (cause : Nat) : State.Within T s0 (State.accessFault s b cause) := by
  unfold State.accessFault
  repeat' (first | with_reducible assumption | exact part_trans (by decide) hT | intro _ | extract_lets | with_reducible apply within_ite | with_reducible apply State.bobFault_within | with_reducible apply State.useFree_within | fail_if_no_progress ((with_reducible apply within_upd) <;> first | with_reducible exact Or.inl rfl | exact Or.inr (hT (by decide)) | skip) | exact Or.inl (hT (by decide)) | exact Or.inr (hT (by simp)) | split | dsimp +zetaDelta only)

theorem execTkFill_within {T : List Part} {s0 s : State} (h : State.Within T s0 s) (hT : [.block 14, .block 16, .block 21, .freeIx, .ky, .mac, .mem, .ms, .notes, .out, .pa, .pl, .queues, .resp] ⊆ T) (bob : Fin 16) (handle : Word) (src : Word) (pin : Fin 4) (words : Fin 32) : WithinRes T s0 (execTkFill bob handle src pin words s) := by
  unfold execTkFill
  repeat' (first | with_reducible assumption | exact part_trans (by decide) hT | intro _ | extract_lets | with_reducible apply withinRes_next | with_reducible apply withinRes_ite | with_reducible apply within_ite | with_reducible apply State.tkRefuse_within | with_reducible apply State.tkOk_within | with_reducible apply State.pinFilledAt_within | with_reducible apply State.accessFault_within | with_reducible apply State.fillInlineAt_within | fail_if_no_progress ((with_reducible apply within_upd) <;> first | with_reducible exact Or.inl rfl | exact Or.inr (hT (by decide)) | skip) | exact Or.inl (hT (by decide)) | exact Or.inr (hT (by simp)) | split | dsimp +zetaDelta only)

theorem State.takeCredit_within {T : List Part} {s0 s : State} (h : State.Within T s0 s) (hT : [.queues] ⊆ T) (q : Nat) (h : Nat) : State.Within T s0 (State.takeCredit s q h) := by
  unfold State.takeCredit
  repeat' (first | with_reducible assumption | exact part_trans (by decide) hT | with_reducible apply State.setQueue_within | exact Or.inl (hT (by decide)) | exact Or.inr (hT (by simp)))

theorem State.putNow_within {T : List Part} {s0 s : State} (h : State.Within T s0 s) (hT : [.out, .pl, .resp] ⊆ T) (b : Nat) (p : Posted) : State.Within T s0 (State.putNow s b p) := by
  unfold State.putNow
  repeat' (first | with_reducible assumption | exact part_trans (by decide) hT | intro _ | extract_lets | with_reducible apply within_ite | with_reducible apply State.tkOk_within | with_reducible apply State.post_within | with_reducible apply State.setBobbin_within | fail_if_no_progress ((with_reducible apply within_upd) <;> first | with_reducible exact Or.inl rfl | exact Or.inr (hT (by decide)) | skip) | exact Or.inl (hT (by decide)) | exact Or.inr (hT (by simp)) | split | dsimp +zetaDelta only)

theorem execTkPut_within {T : List Part} {s0 s : State} (h : State.Within T s0 s) (hT : [.block 14, .out, .pl, .queues, .resp] ⊆ T) (bob : Fin 16) (queue : Word) (addr : Word) (ordered : Bool) : WithinRes T s0 (execTkPut bob queue addr ordered s) := by
  unfold execTkPut
  repeat' (first | with_reducible assumption | exact part_trans (by decide) hT | intro _ | extract_lets | with_reducible apply withinRes_next | with_reducible apply withinRes_ite | with_reducible apply within_ite | with_reducible apply State.tkRefuse_within | with_reducible apply State.bump_within | with_reducible apply State.putNow_within | with_reducible apply State.takeCredit_within | with_reducible apply State.post_within | with_reducible apply State.putTask_within | with_reducible apply State.tkOk_within | fail_if_no_progress ((with_reducible apply within_upd) <;> first | with_reducible exact Or.inl rfl | exact Or.inr (hT (by decide)) | skip) | exact Or.inl (hT (by decide)) | exact Or.inr (hT (by simp)) | split | dsimp +zetaDelta only)

theorem execTkTimer_within {T : List Part} {s0 s : State} (h : State.Within T s0 s) (hT : [.block 14, .freeIx, .notes, .out, .pl, .resp] ⊆ T) (bob : Fin 16) (handle : Word) (ticks : Word) (pin : Fin 4) (list : Fin 4) : WithinRes T s0 (execTkTimer bob handle ticks pin list s) := by
  unfold execTkTimer
  repeat' (first | with_reducible assumption | exact part_trans (by decide) hT | intro _ | extract_lets | with_reducible apply withinRes_next | with_reducible apply withinRes_ite | with_reducible apply within_ite | with_reducible apply State.tkRefuse_within | with_reducible apply State.bump_within | with_reducible apply State.raise_within | with_reducible apply State.useFree_within | with_reducible apply State.putTask_within | with_reducible apply State.tkOk_within | fail_if_no_progress ((with_reducible apply within_upd) <;> first | with_reducible exact Or.inl rfl | exact Or.inr (hT (by decide)) | skip) | exact Or.inl (hT (by decide)) | exact Or.inr (hT (by simp)) | split | dsimp +zetaDelta only)

theorem State.disarm_within {T : List Part} {s0 s : State} (h : State.Within T s0 s) (hT : [.pl] ⊆ T) (i : Nat) (k : Nat) : State.Within T s0 (State.disarm s i k) := by
  unfold State.disarm
  repeat' (first | with_reducible assumption | exact part_trans (by decide) hT | with_reducible apply State.putTask_within | exact Or.inl (hT (by decide)) | exact Or.inr (hT (by simp)) | with_reducible split)

theorem State.timerFires_within {T : List Part} {s0 s : State} (h : State.Within T s0 s) (hT : [.block 14, .mem, .notes, .pl] ⊆ T) (k : Nat) (e : Timer) : State.Within T s0 (State.timerFires s k e) := by
  unfold State.timerFires
  repeat' (first | with_reducible assumption | exact part_trans (by decide) hT | intro _ | extract_lets | with_reducible apply within_ite | with_reducible apply State.fillInline_within | fail_if_no_progress ((with_reducible apply within_upd) <;> first | with_reducible exact Or.inl rfl | exact Or.inr (hT (by decide)) | skip) | exact Or.inl (hT (by decide)) | exact Or.inr (hT (by simp)) | split | dsimp +zetaDelta only)

theorem execTkCancel_within {T : List Part} {s0 s : State} (h : State.Within T s0 s) (hT : [.block 14, .mem, .notes, .out, .pl, .resp] ⊆ T) (bob : Fin 16) (handle : Word) : WithinRes T s0 (execTkCancel bob handle s) := by
  unfold execTkCancel
  repeat' (first | with_reducible assumption | exact part_trans (by decide) hT | intro _ | extract_lets | with_reducible apply withinRes_next | with_reducible apply withinRes_ite | with_reducible apply within_ite | with_reducible apply State.tkRefuse_within | with_reducible apply State.timerFires_within | with_reducible apply State.tkOk_within | with_reducible apply State.disarm_within | fail_if_no_progress ((with_reducible apply within_upd) <;> first | with_reducible exact Or.inl rfl | exact Or.inr (hT (by decide)) | skip) | exact Or.inl (hT (by decide)) | exact Or.inr (hT (by simp)) | split | dsimp +zetaDelta only)

theorem execTkDrop_within {T : List Part} {s0 s : State} (h : State.Within T s0 s) (hT : [.block 16, .block 21, .ky, .mac, .mem, .ms, .out, .pa, .pl, .queues, .resp] ⊆ T) (bob : Fin 16) (handle : Word) : WithinRes T s0 (execTkDrop bob handle s) := by
  unfold execTkDrop
  repeat' (first | with_reducible assumption | exact part_trans (by decide) hT | intro _ | extract_lets | with_reducible apply withinRes_next | with_reducible apply withinRes_ite | with_reducible apply within_ite | with_reducible apply State.tkRefuse_within | with_reducible apply State.endTask_within | with_reducible apply State.afterTask_within | with_reducible apply State.tkOk_within | fail_if_no_progress ((with_reducible apply within_upd) <;> first | with_reducible exact Or.inl rfl | exact Or.inr (hT (by decide)) | skip) | exact Or.inl (hT (by decide)) | exact Or.inr (hT (by simp)) | split | dsimp +zetaDelta only)

theorem execTkEnd_within {T : List Part} {s0 s : State} (h : State.Within T s0 s) (hT : [.block 16, .block 21, .ky, .mac, .mem, .ms, .out, .pa, .pl, .queues] ⊆ T) (bob : Fin 16) : WithinRes T s0 (execTkEnd bob s) := by
  unfold execTkEnd
  repeat' (first | with_reducible assumption | exact part_trans (by decide) hT | intro _ | extract_lets | with_reducible apply withinRes_next | with_reducible apply withinRes_ite | with_reducible apply within_ite | with_reducible apply State.setBobbin_within | with_reducible apply State.endTask_within | with_reducible apply State.afterTask_within | with_reducible apply State.startNext_within | fail_if_no_progress ((with_reducible apply within_upd) <;> first | with_reducible exact Or.inl rfl | exact Or.inr (hT (by decide)) | skip) | exact Or.inl (hT (by decide)) | exact Or.inr (hT (by simp)) | split | dsimp +zetaDelta only)

theorem execDramRequest_within {T : List Part} {s0 s : State} (h : State.Within T s0 s) (hT : [.block 14, .block 16, .block 21, .freeIx, .ky, .mac, .mem, .ms, .notes, .out, .pa, .pl, .queues] ⊆ T) (cls : Fin 16) (write : Bool) (addr : Nat) (chunks : Nat) (run : Bool) (data : List Byte) (by_ : Requester) : WithinRes T s0 (execDramRequest cls write addr chunks run data by_ s) := by
  unfold execDramRequest
  repeat' (first | with_reducible assumption | exact part_trans (by decide) hT | intro _ | extract_lets | with_reducible apply withinRes_next | with_reducible apply withinRes_ite | with_reducible apply within_ite | with_reducible apply State.accessFault_within | with_reducible apply State.dramServe_within | with_reducible apply State.forgetSlots_within | fail_if_no_progress ((with_reducible apply within_upd) <;> first | with_reducible exact Or.inl rfl | exact Or.inr (hT (by decide)) | skip) | exact Or.inl (hT (by decide)) | exact Or.inr (hT (by simp)) | split | dsimp +zetaDelta only)

theorem execTaskPlace_within {T : List Part} {s0 s : State} (h : State.Within T s0 s) (hT : [.block 1, .block 14, .clk, .mtb, .notes, .out, .pl] ⊆ T) (hoop : Fin 4) (t : Nat) : WithinRes T s0 (execTaskPlace hoop t s) := by
  unfold execTaskPlace
  repeat' (first | with_reducible assumption | exact part_trans (by decide) hT | intro _ | extract_lets | with_reducible apply withinRes_next | with_reducible apply withinRes_ite | with_reducible apply within_ite | with_reducible apply State.advance_within | with_reducible apply State.place_within | fail_if_no_progress ((with_reducible apply within_upd) <;> first | with_reducible exact Or.inl rfl | exact Or.inr (hT (by decide)) | skip) | exact Or.inl (hT (by decide)) | exact Or.inr (hT (by simp)) | split | dsimp +zetaDelta only)

theorem execTaskException_within {T : List Part} {s0 s : State} (h : State.Within T s0 s) (hT : [.block 14, .block 16, .block 21, .ky, .mac, .mem, .ms, .notes, .out, .pa, .pl, .queues] ⊆ T) (bob : Fin 16) (cause : Fin 6) (pc : Word) (ecc : Fin 3) (addr : Word) : WithinRes T s0 (execTaskException bob cause pc ecc addr s) := by
  unfold execTaskException
  repeat' (first | with_reducible assumption | exact part_trans (by decide) hT | intro _ | extract_lets | with_reducible apply withinRes_next | with_reducible apply withinRes_ite | with_reducible apply within_ite | with_reducible apply State.eccError_within | with_reducible apply State.bobFault_within | fail_if_no_progress ((with_reducible apply within_upd) <;> first | with_reducible exact Or.inl rfl | exact Or.inr (hT (by decide)) | skip) | exact Or.inl (hT (by decide)) | exact Or.inr (hT (by simp)) | split | dsimp +zetaDelta only)

theorem execTaskRunLimit_within {T : List Part} {s0 s : State} (h : State.Within T s0 s) (hT : [.block 14, .block 16, .block 21, .ky, .mac, .mem, .ms, .mtb, .notes, .out, .pa, .pl, .queues] ⊆ T) (bob : Fin 16) (pc : Word) (t : Nat) : WithinRes T s0 (execTaskRunLimit bob pc t s) := by
  unfold execTaskRunLimit
  repeat' (first | with_reducible assumption | exact part_trans (by decide) hT | intro _ | extract_lets | with_reducible apply withinRes_next | with_reducible apply withinRes_ite | with_reducible apply within_ite | with_reducible apply State.advance_within | with_reducible apply State.raise_within | with_reducible apply State.bump_within | with_reducible apply State.putTask_within | with_reducible apply State.bobFault_within | fail_if_no_progress ((with_reducible apply within_upd) <;> first | with_reducible exact Or.inl rfl | exact Or.inr (hT (by decide)) | skip) | exact Or.inl (hT (by decide)) | exact Or.inr (hT (by simp)) | split | dsimp +zetaDelta only)

theorem execInitRunRestart_within {T : List Part} {s0 s : State} (h : State.Within T s0 s) (hT : [.mtb, .out, .pl] ⊆ T) (bob : Fin 16) (t : Nat) : WithinRes T s0 (execInitRunRestart bob t s) := by
  unfold execInitRunRestart
  repeat' (first | with_reducible assumption | exact part_trans (by decide) hT | intro _ | extract_lets | with_reducible apply withinRes_next | with_reducible apply withinRes_ite | with_reducible apply within_ite | with_reducible apply State.advance_within | with_reducible apply State.startInitRuns_within | fail_if_no_progress ((with_reducible apply within_upd) <;> first | with_reducible exact Or.inl rfl | exact Or.inr (hT (by decide)) | skip) | exact Or.inl (hT (by decide)) | exact Or.inr (hT (by simp)) | split | dsimp +zetaDelta only)

theorem execDelayListExpiry_within {T : List Part} {s0 s : State} (h : State.Within T s0 s) (hT : [.block 14, .mem, .mtb, .notes, .pl] ⊆ T) (list : Fin 3) : WithinRes T s0 (execDelayListExpiry list s) := by
  unfold execDelayListExpiry
  repeat' (first | with_reducible assumption | exact part_trans (by decide) hT | intro _ | extract_lets | with_reducible apply withinRes_next | with_reducible apply withinRes_ite | with_reducible apply within_ite | with_reducible apply State.advance_within | with_reducible apply State.timerFires_within | fail_if_no_progress ((with_reducible apply within_upd) <;> first | with_reducible exact Or.inl rfl | exact Or.inr (hT (by decide)) | skip) | exact Or.inl (hT (by decide)) | exact Or.inr (hT (by simp)) | split | dsimp +zetaDelta only)

theorem State.stallEnds_within {T : List Part} {s0 s : State} (h : State.Within T s0 s) (hT : [.out, .pl, .resp] ⊆ T) (b : Nat) : State.Within T s0 (State.stallEnds s b) := by
  unfold State.stallEnds
  repeat' (first | with_reducible assumption | exact part_trans (by decide) hT | intro _ | extract_lets | with_reducible apply within_ite | with_reducible apply State.tkOk_within | with_reducible apply State.post_within | with_reducible apply State.setBobbin_within | fail_if_no_progress ((with_reducible apply within_upd) <;> first | with_reducible exact Or.inl rfl | exact Or.inr (hT (by decide)) | skip) | exact Or.inl (hT (by decide)) | exact Or.inr (hT (by simp)) | split | dsimp +zetaDelta only)

theorem execReleasePortTake_within {T : List Part} {s0 s : State} (h : State.Within T s0 s) (hT : [.block 15, .freeIx, .ms, .mtb, .notes, .out, .pl, .queues, .resp] ⊆ T) : WithinRes T s0 (execReleasePortTake s) := by
  unfold execReleasePortTake
  repeat' (first | with_reducible assumption | exact part_trans (by decide) hT | intro _ | extract_lets | with_reducible apply withinRes_next | with_reducible apply withinRes_ite | with_reducible apply within_ite | with_reducible apply State.advance_within | with_reducible apply State.stallEnds_within | with_reducible apply State.setBobbin_within | with_reducible apply State.queueTakePaid_within | fail_if_no_progress ((with_reducible apply within_upd) <;> first | with_reducible exact Or.inl rfl | exact Or.inr (hT (by decide)) | skip) | exact Or.inl (hT (by decide)) | exact Or.inr (hT (by simp)) | split | dsimp +zetaDelta only)

theorem execTaskQueueEntry_within {T : List Part} {s0 s : State} (h : State.Within T s0 s) (hT : [.block 14, .block 15, .freeIx, .mem, .mtb, .notes, .pl, .queues] ⊆ T) (queue : Fin 256) : WithinRes T s0 (execTaskQueueEntry queue s) := by
  unfold execTaskQueueEntry
  repeat' (first | with_reducible assumption | exact part_trans (by decide) hT | intro _ | extract_lets | with_reducible apply withinRes_next | with_reducible apply withinRes_ite | with_reducible apply within_ite | with_reducible apply State.raise_within | with_reducible apply State.dequeue_within | with_reducible apply State.newTask_within | refine withinO_elim (by with_reducible assumption) (State.newTask_within ?_ ?_ _ _ _) | with_reducible apply State.fillInline_within | fail_if_no_progress ((with_reducible apply within_upd) <;> first | with_reducible exact Or.inl rfl | exact Or.inr (hT (by decide)) | skip) | exact Or.inl (hT (by decide)) | exact Or.inr (hT (by simp)) | split | dsimp +zetaDelta only)

theorem State.pillowClear_within {T : List Part} {s0 s : State} (h : State.Within T s0 s) (hT : [.block 14, .resp] ⊆ T) : State.Within T s0 (State.pillowClear s) := by
  unfold State.pillowClear
  repeat' (first | with_reducible assumption | exact part_trans (by decide) hT | with_reducible intro _ | with_reducible apply State.each_within | with_reducible apply State.setReg_within | with_reducible apply State.answer_within | exact Or.inl (hT (by decide)) | exact Or.inr (hT (by simp)))

theorem execPillowCountClear_within {T : List Part} {s0 s : State} (h : State.Within T s0 s) (hT : [.block 14, .resp] ⊆ T) : WithinRes T s0 (execPillowCountClear s) := by
  unfold execPillowCountClear
  repeat' (first | with_reducible assumption | exact part_trans (by decide) hT | intro _ | extract_lets | with_reducible apply withinRes_next | with_reducible apply withinRes_ite | with_reducible apply within_ite | with_reducible apply State.pillowClear_within | fail_if_no_progress ((with_reducible apply within_upd) <;> first | with_reducible exact Or.inl rfl | exact Or.inr (hT (by decide)) | skip) | exact Or.inl (hT (by decide)) | exact Or.inr (hT (by simp)) | split | dsimp +zetaDelta only)

theorem State.pillowRefuse_within {T : List Part} {s0 s : State} (h : State.Within T s0 s) (hT : [.block 14, .resp] ⊆ T) (st : Nat) : State.Within T s0 (State.pillowRefuse s st) := by
  unfold State.pillowRefuse
  repeat' (first | with_reducible assumption | exact part_trans (by decide) hT | with_reducible apply State.refuse_within | exact Or.inl (hT (by decide)) | exact Or.inr (hT (by simp)))

theorem State.writeTemplate_within {T : List Part} {s0 s : State} (h : State.Within T s0 s) (hT : [.block 14, .resp] ⊆ T) (a : Nat) (hF : .regs ∈ T ∨ .block (regBlock a) ∈ T) (w : Word) :
    State.Within T s0 (State.writeTemplate s a w) := by
  unfold State.writeTemplate
  repeat' (first | with_reducible assumption | exact part_trans (by decide) hT | intro _ | extract_lets | with_reducible apply within_ite | with_reducible apply State.pillowRefuse_within | with_reducible apply State.answer_within | with_reducible apply State.setReg_within | exact Or.inl (hT (by decide)) | exact Or.inr (hT (by simp)) | split)

theorem execPillowTemplateWrite_within {T : List Part} {s0 s : State} (h : State.Within T s0 s) (hT : [.block 14, .resp] ⊆ T) (qt : Bool) (val : Word) : WithinRes T s0 (execPillowTemplateWrite qt val s) := by
  unfold execPillowTemplateWrite
  repeat' (first | with_reducible assumption | exact part_trans (by decide) hT | exact Or.inr (hT (by first | (simp; done) | (simp +zetaDelta; done) | (simp +zetaDelta; split <;> simp))) | intro _ | extract_lets | with_reducible apply withinRes_next | with_reducible apply withinRes_ite | with_reducible apply within_ite | with_reducible apply State.writeTemplate_within | fail_if_no_progress ((with_reducible apply within_upd) <;> first | with_reducible exact Or.inl rfl | exact Or.inr (hT (by decide)) | skip) | exact Or.inl (hT (by decide)) | split | dsimp +zetaDelta only)

end Sys2Proof.Machine
end

