-- ==== Sys2Proof/Laws/WithinLanes.lean ====
section
/-!
SUPPORT. What the operations of the lanes, the cells and the sleepy nodes can do: one lemma per operation, which names the
parts of the state that it may touch and says that it keeps the invariant and the queue. A proof about a step cites these and
unfolds none of the operations.
-/
namespace Sys2Proof.Machine
open Sys2Proof
set_option linter.all false
set_option Elab.async false

theorem execRxWindowOpen_within {T : List Part} {s0 s : State} (h : State.Within T s0 s) (hT : [.block 11, .mtb, .rd] ⊆ T) (lane : Fin 96) : WithinRes T s0 (execRxWindowOpen lane s) := by
  unfold execRxWindowOpen
  repeat' (first | with_reducible assumption | exact part_trans (by decide) hT | intro _ | extract_lets | with_reducible apply withinRes_next | with_reducible apply withinRes_ite | with_reducible apply within_ite | with_reducible apply State.advance_within | with_reducible apply State.setLane_within | with_reducible apply State.setB_within | fail_if_no_progress ((with_reducible apply within_upd) <;> first | with_reducible exact Or.inl rfl | exact Or.inr (hT (by decide)) | skip) | exact Or.inl (hT (by decide)) | exact Or.inr (hT (by simp)) | split | dsimp +zetaDelta only)

theorem execRxWindowClose_within {T : List Part} {s0 s : State} (h : State.Within T s0 s) (hT : [.block 11, .mtb, .rd] ⊆ T) (lane : Fin 96) : WithinRes T s0 (execRxWindowClose lane s) := by
  unfold execRxWindowClose
  repeat' (first | with_reducible assumption | exact part_trans (by decide) hT | intro _ | extract_lets | with_reducible apply withinRes_next | with_reducible apply withinRes_ite | with_reducible apply within_ite | with_reducible apply State.advance_within | with_reducible apply State.setLane_within | with_reducible apply State.setF_within | fail_if_no_progress ((with_reducible apply within_upd) <;> first | with_reducible exact Or.inl rfl | exact Or.inr (hT (by decide)) | skip) | exact Or.inl (hT (by decide)) | exact Or.inr (hT (by simp)) | split | dsimp +zetaDelta only)

theorem State.laneApply_within {T : List Part} {s0 s : State} (h : State.Within T s0 s) (hT : [.block 11, .block 12, .notes, .rd] ⊆ T) (l : Nat) : State.Within T s0 (State.laneApply s l) := by
  unfold State.laneApply
  repeat' (first | with_reducible assumption | exact part_trans (by decide) hT | intro _ | extract_lets | with_reducible apply within_ite | with_reducible apply State.setF_within | with_reducible apply State.laneTune_within | with_reducible apply State.setLane_within | with_reducible apply State.raise_within | with_reducible apply State.bump_within | fail_if_no_progress ((with_reducible apply within_upd) <;> first | with_reducible exact Or.inl rfl | exact Or.inr (hT (by decide)) | skip) | exact Or.inl (hT (by decide)) | exact Or.inr (hT (by simp)) | split | dsimp +zetaDelta only)

theorem State.laneChange_within {T : List Part} {s0 s : State} (h : State.Within T s0 s) (hT : [.block 11, .block 12, .notes, .rd] ⊆ T) (l : Nat) (v : Lane) : State.Within T s0 (State.laneChange s l v) := by
  unfold State.laneChange
  repeat' (first | with_reducible assumption | exact part_trans (by decide) hT | with_reducible intro _ | with_reducible apply within_ite | with_reducible apply State.setLane_within | with_reducible apply State.laneApply_within | with_reducible apply State.setF_within | exact Or.inl (hT (by decide)) | exact Or.inr (hT (by simp)))

theorem execLaneBindingApply_within {T : List Part} {s0 s : State} (h : State.Within T s0 s) (hT : [.block 11, .block 12, .notes, .rd] ⊆ T) (lane : Fin 96) : WithinRes T s0 (execLaneBindingApply lane s) := by
  unfold execLaneBindingApply
  repeat' (first | with_reducible assumption | exact part_trans (by decide) hT | intro _ | extract_lets | with_reducible apply withinRes_next | with_reducible apply withinRes_ite | with_reducible apply within_ite | with_reducible apply State.laneApply_within | fail_if_no_progress ((with_reducible apply within_upd) <;> first | with_reducible exact Or.inl rfl | exact Or.inr (hT (by decide)) | skip) | exact Or.inl (hT (by decide)) | exact Or.inr (hT (by simp)) | split | dsimp +zetaDelta only)

theorem execPreambleDetect_within {T : List Part} {s0 s : State} (h : State.Within T s0 s) (hT : [.block 11, .mtb] ⊆ T) (lane : Fin 96) (t : Nat) : WithinRes T s0 (execPreambleDetect lane t s) := by
  unfold execPreambleDetect
  repeat' (first | with_reducible assumption | exact part_trans (by decide) hT | intro _ | extract_lets | with_reducible apply withinRes_next | with_reducible apply withinRes_ite | with_reducible apply within_ite | with_reducible apply State.advance_within | with_reducible apply State.setLaneState_within | fail_if_no_progress ((with_reducible apply within_upd) <;> first | with_reducible exact Or.inl rfl | exact Or.inr (hT (by decide)) | skip) | exact Or.inl (hT (by decide)) | exact Or.inr (hT (by simp)) | split | dsimp +zetaDelta only)

theorem execPreambleLost_within {T : List Part} {s0 s : State} (h : State.Within T s0 s) (hT : [.block 11, .mtb] ⊆ T) (lane : Fin 96) (t : Nat) : WithinRes T s0 (execPreambleLost lane t s) := by
  unfold execPreambleLost
  repeat' (first | with_reducible assumption | exact part_trans (by decide) hT | intro _ | extract_lets | with_reducible apply withinRes_next | with_reducible apply withinRes_ite | with_reducible apply within_ite | with_reducible apply State.advance_within | with_reducible apply State.setLaneState_within | with_reducible apply State.bump_within | fail_if_no_progress ((with_reducible apply within_upd) <;> first | with_reducible exact Or.inl rfl | exact Or.inr (hT (by decide)) | skip) | exact Or.inl (hT (by decide)) | exact Or.inr (hT (by simp)) | split | dsimp +zetaDelta only)

theorem State.rxTask_within {T : List Part} {s0 s : State} (h : State.Within T s0 s) (hT : [.block 14, .freeIx, .notes, .pl] ⊆ T) (l : Nat) : Within2 T s0 (State.rxTask s l) := by
  unfold State.rxTask
  repeat' (first | with_reducible assumption | exact part_trans (by decide) hT | with_reducible intro _ | with_reducible apply within2_ite | with_reducible apply State.bump_within | with_reducible apply State.raise_within | with_reducible apply State.useFree_within | with_reducible refine withinO_elim (by assumption) (State.newTask_within ?_ ?_ _ _ _) | with_reducible apply within1_ite | with_reducible apply within2_ite | with_reducible apply withinO_some | with_reducible apply withinO_none | with_reducible apply withinO_ite | fail_if_no_progress ((with_reducible apply within_upd) <;> first | with_reducible exact Or.inl rfl | exact Or.inr (hT (by decide)) | skip) | with_reducible split | with_reducible apply within1_mk | with_reducible apply within2_mk | exact Or.inl (hT (by decide)) | exact Or.inr (hT (by simp)))

theorem State.syncStart_within {T : List Part} {s0 s : State} (h : State.Within T s0 s) (hT : [.block 11, .block 12, .block 14, .freeIx, .mac, .mem, .mtb, .notes, .pl, .rd] ⊆ T) (l : Nat) (ts : Nat) (metA : Int) (metB : Int) (rssi : Int) (cfo : Int) (coded : Bool) (preEmptor : Bool) (taps : List (Int × Int)) : State.Within T s0 (State.syncStart s l ts metA metB rssi cfo coded preEmptor taps) := by
  unfold State.syncStart
  repeat' (first | with_reducible assumption | exact part_trans (by decide) hT | intro _ | extract_lets | with_reducible apply within_ite | with_reducible apply State.advance_within | with_reducible apply State.bump_within | with_reducible apply State.setF_within | with_reducible apply State.rxTask_within | refine within2_elim (by with_reducible assumption) (State.rxTask_within ?_ ?_ _) | with_reducible apply State.setLaneState_within | with_reducible apply State.setLane_within | with_reducible apply State.rxLost_within | with_reducible apply State.putRx_within | with_reducible apply State.fillInline_within | with_reducible apply within2_snd | fail_if_no_progress ((with_reducible apply within_upd) <;> first | with_reducible exact Or.inl rfl | exact Or.inr (hT (by decide)) | skip) | exact Or.inl (hT (by decide)) | exact Or.inr (hT (by simp)) | split | dsimp +zetaDelta only)

theorem execSyncPoint_within {T : List Part} {s0 s : State} (h : State.Within T s0 s) (hT : [.block 11, .block 12, .block 14, .freeIx, .mac, .mem, .mtb, .notes, .pl, .rd] ⊆ T) (lane : Fin 96) (ts : Nat) (metA : Int) (metB : Int) (rssi : Int) (cfo : Int) (coded : Bool) (taps : List (Int × Int)) : WithinRes T s0 (execSyncPoint lane ts metA metB rssi cfo coded taps s) := by
  unfold execSyncPoint
  repeat' (first | with_reducible assumption | exact part_trans (by decide) hT | intro _ | extract_lets | with_reducible apply withinRes_next | with_reducible apply withinRes_ite | with_reducible apply within_ite | with_reducible apply State.syncStart_within | fail_if_no_progress ((with_reducible apply within_upd) <;> first | with_reducible exact Or.inl rfl | exact Or.inr (hT (by decide)) | skip) | exact Or.inl (hT (by decide)) | exact Or.inr (hT (by simp)) | split | dsimp +zetaDelta only)

theorem State.laneFail_within {T : List Part} {s0 s : State} (h : State.Within T s0 s) (hT : [.block 11, .block 12, .block 16, .block 21, .ky, .mac, .mem, .ms, .out, .pa, .pl, .queues, .rd] ⊆ T) (l : Nat) (k : Nat) (o : Nat) : State.Within T s0 (State.laneFail s l k o) := by
  unfold State.laneFail
  repeat' (first | with_reducible assumption | exact part_trans (by decide) hT | with_reducible apply State.rxEnd_within | with_reducible apply State.setLane_within | with_reducible apply State.setLaneState_within | exact Or.inl (hT (by decide)) | exact Or.inr (hT (by simp)))

theorem execHeaderDecoded_within {T : List Part} {s0 s : State} (h : State.Within T s0 s) (hT : [.block 11, .block 12, .block 15, .block 16, .block 21, .freeIx, .ky, .mac, .mem, .ms, .mtb, .notes, .out, .pa, .pl, .queues, .rd] ⊆ T) (lane : Fin 96) (len : Fin 2048) (info : Fin 256) (hcsOk : Bool) (modeSwitch : Bool) (t : Nat) : WithinRes T s0 (execHeaderDecoded lane len info hcsOk modeSwitch t s) := by
  unfold execHeaderDecoded
  repeat' (first | with_reducible assumption | exact part_trans (by decide) hT | intro _ | extract_lets | with_reducible apply withinRes_next | with_reducible apply withinRes_ite | with_reducible apply within_ite | with_reducible apply State.advance_within | with_reducible apply State.noteWrite_within | with_reducible apply State.laneFail_within | with_reducible apply State.rxTake_within | refine withinO_elim (by with_reducible assumption) (State.rxTake_within ?_ ?_ _) | with_reducible apply State.putTask_within | with_reducible apply State.putRx_within | with_reducible apply State.setLaneState_within | with_reducible apply State.group_within | fail_if_no_progress ((with_reducible apply within_upd) <;> first | with_reducible exact Or.inl rfl | exact Or.inr (hT (by decide)) | skip) | exact Or.inl (hT (by decide)) | exact Or.inr (hT (by simp)) | split | dsimp +zetaDelta only)

theorem State.lastSymbol_within {T : List Part} {s0 s : State} (h : State.Within T s0 s) (hT : [.block 11, .block 12, .block 16, .block 21, .ky, .mac, .mem, .ms, .mtb, .out, .pa, .pl, .queues, .rd] ⊆ T) (l : Nat) (k : Nat) (r : Rx) (psdu : List Byte) : State.Within T s0 (State.lastSymbol s l k r psdu) := by
  unfold State.lastSymbol
  repeat' (first | with_reducible assumption | exact part_trans (by decide) hT | with_reducible apply State.advance_within | with_reducible apply State.writeBytes_within | with_reducible apply State.rxEnd_within | with_reducible apply State.setLaneState_within | exact Or.inl (hT (by decide)) | exact Or.inr (hT (by simp)) | with_reducible split | with_reducible dsimp +zetaDelta only)

theorem execLastSymbol_within {T : List Part} {s0 s : State} (h : State.Within T s0 s) (hT : [.block 11, .block 12, .block 16, .block 21, .ky, .mac, .mem, .ms, .mtb, .out, .pa, .pl, .queues, .rd] ⊆ T) (lane : Fin 96) (psdu : List Byte) (symbols : List (List (Int × Int))) : WithinRes T s0 (execLastSymbol lane psdu symbols s) := by
  unfold execLastSymbol
  repeat' (first | with_reducible assumption | exact part_trans (by decide) hT | intro _ | extract_lets | with_reducible apply withinRes_next | with_reducible apply withinRes_ite | with_reducible apply within_ite | with_reducible apply State.lastSymbol_within | fail_if_no_progress ((with_reducible apply within_upd) <;> first | with_reducible exact Or.inl rfl | exact Or.inr (hT (by decide)) | skip) | exact Or.inl (hT (by decide)) | exact Or.inr (hT (by simp)) | split | dsimp +zetaDelta only)

theorem execFcsVerdict_within {T : List Part} {s0 s : State} (h : State.Within T s0 s) (hT : [.block 11, .block 12, .block 13, .block 14, .block 15, .block 16, .block 17, .block 18, .block 21, .freeIx, .gd, .ky, .mac, .mem, .ms, .mtb, .notes, .out, .pa, .pl, .queues, .rd, .resp, .sl, .tm] ⊆ T) (lane : Fin 96) (ok : Bool) : WithinRes T s0 (execFcsVerdict lane ok s) := by
  unfold execFcsVerdict
  repeat' (first | with_reducible assumption | exact part_trans (by decide) hT | intro _ | extract_lets | with_reducible apply withinRes_next | with_reducible apply withinRes_ite | with_reducible apply within_ite | with_reducible apply State.setLane_within | with_reducible apply State.setLaneState_within | with_reducible apply State.advance_within | with_reducible apply State.putRx_within | with_reducible apply State.rxJudge_within | with_reducible apply State.macTick_within | fail_if_no_progress ((with_reducible apply within_upd) <;> first | with_reducible exact Or.inl rfl | exact Or.inr (hT (by decide)) | skip) | exact Or.inl (hT (by decide)) | exact Or.inr (hT (by simp)) | split | dsimp +zetaDelta only)

theorem execShadowSyncPoint_within {T : List Part} {s0 s : State} (h : State.Within T s0 s) (hT : [.block 11, .block 12, .block 14, .block 16, .block 21, .freeIx, .ky, .mac, .mem, .ms, .mtb, .notes, .out, .pa, .pl, .queues, .rd] ⊆ T) (lane : Fin 96) (ts : Nat) (metA : Int) (metB : Int) (rssi : Int) (cfo : Int) (coded : Bool) (taps : List (Int × Int)) (psdu : List Byte) (symbols : List (List (Int × Int))) : WithinRes T s0 (execShadowSyncPoint lane ts metA metB rssi cfo coded taps psdu symbols s) := by
  unfold execShadowSyncPoint
  repeat' (first | with_reducible assumption | exact part_trans (by decide) hT | intro _ | extract_lets | with_reducible apply withinRes_next | with_reducible apply withinRes_ite | with_reducible apply within_ite | with_reducible apply State.syncStart_within | with_reducible apply State.lastSymbol_within | with_reducible apply State.laneFail_within | with_reducible apply State.advance_within | fail_if_no_progress ((with_reducible apply within_upd) <;> first | with_reducible exact Or.inl rfl | exact Or.inr (hT (by decide)) | skip) | exact Or.inl (hT (by decide)) | exact Or.inr (hT (by simp)) | split | dsimp +zetaDelta only)

theorem State.setWin_within {T : List Part} {s0 s : State} (h : State.Within T s0 s) (hT : [.rd] ⊆ T) (n : Nat) (b : Bool) (t : Nat) : State.Within T s0 (State.setWin s n b t) := by
  unfold State.setWin
  repeat' (first | with_reducible assumption | exact part_trans (by decide) hT | intro _ | extract_lets | with_reducible apply within_ite | with_reducible apply State.setTrx_within | fail_if_no_progress ((with_reducible apply within_upd) <;> first | with_reducible exact Or.inl rfl | exact Or.inr (hT (by decide)) | skip) | exact Or.inl (hT (by decide)) | exact Or.inr (hT (by simp)) | split | dsimp +zetaDelta only)

theorem execGainWindowEnd_within {T : List Part} {s0 s : State} (h : State.Within T s0 s) (hT : [.block 7, .mtb, .rd] ⊆ T) (trx : Fin 4) (pathB : Bool) (level : Int) : WithinRes T s0 (execGainWindowEnd trx pathB level s) := by
  unfold execGainWindowEnd
  repeat' (first | with_reducible assumption | exact part_trans (by decide) hT | exact Or.inr (hT (by first | (simp; done) | (simp +zetaDelta; done) | (simp +zetaDelta; split <;> simp))) | intro _ | extract_lets | with_reducible apply withinRes_next | with_reducible apply withinRes_ite | with_reducible apply within_ite | with_reducible apply State.setWin_within | with_reducible apply State.advance_within | with_reducible apply State.setF_within | fail_if_no_progress ((with_reducible apply within_upd) <;> first | with_reducible exact Or.inl rfl | exact Or.inr (hT (by decide)) | skip) | exact Or.inl (hT (by decide)) | split | dsimp +zetaDelta only)

theorem execAdcClip_within {T : List Part} {s0 s : State} (h : State.Within T s0 s) (hT : [.block 7, .mem, .mtb, .rd] ⊆ T) (trx : Fin 4) (pathB : Bool) (t : Nat) : WithinRes T s0 (execAdcClip trx pathB t s) := by
  unfold execAdcClip
  repeat' (first | with_reducible assumption | exact part_trans (by decide) hT | exact Or.inr (hT (by first | (simp; done) | (simp +zetaDelta; done) | (simp +zetaDelta; split <;> simp))) | intro _ | extract_lets | with_reducible apply withinRes_next | with_reducible apply withinRes_ite | with_reducible apply within_ite | with_reducible apply State.advance_within | with_reducible apply State.setWin_within | with_reducible apply State.setTrx_within | with_reducible apply State.each_within | with_reducible apply State.setF_within | with_reducible apply State.noteFlags_within | fail_if_no_progress ((with_reducible apply within_upd) <;> first | with_reducible exact Or.inl rfl | exact Or.inr (hT (by decide)) | skip) | exact Or.inl (hT (by decide)) | split | dsimp +zetaDelta only)

theorem execIdlePowerWindowEnd_within {T : List Part} {s0 s : State} (h : State.Within T s0 s) (hT : [.block 11, .rd] ⊆ T) (lane : Fin 96) (powA : Int) (powB : Int) : WithinRes T s0 (execIdlePowerWindowEnd lane powA powB s) := by
  unfold execIdlePowerWindowEnd
  repeat' (first | with_reducible assumption | exact part_trans (by decide) hT | intro _ | extract_lets | with_reducible apply withinRes_next | with_reducible apply withinRes_ite | with_reducible apply within_ite | with_reducible apply State.setLane_within | with_reducible apply State.setF_within | fail_if_no_progress ((with_reducible apply within_upd) <;> first | with_reducible exact Or.inl rfl | exact Or.inr (hT (by decide)) | skip) | exact Or.inl (hT (by decide)) | exact Or.inr (hT (by simp)) | split | dsimp +zetaDelta only)

theorem State.laneRefuse_within {T : List Part} {s0 s : State} (h : State.Within T s0 s) (hT : [.block 11, .resp] ⊆ T) (l : Nat) (st : Nat) : State.Within T s0 (State.laneRefuse s l st) := by
  unfold State.laneRefuse
  repeat' (first | with_reducible assumption | exact part_trans (by decide) hT | with_reducible apply State.refuse_within | exact Or.inl (hT (by decide)) | exact Or.inr (hT (by simp)))

theorem State.laneChanWrite_within {T : List Part} {s0 s : State} (h : State.Within T s0 s) (hT : [.block 11, .block 12, .notes, .rd, .resp] ⊆ T) (l : Nat) (chan : Nat) : State.Within T s0 (State.laneChanWrite s l chan) := by
  unfold State.laneChanWrite
  repeat' (first | with_reducible assumption | exact part_trans (by decide) hT | with_reducible intro _ | with_reducible apply State.answer_within | with_reducible apply State.laneRefuse_within | with_reducible apply State.laneChange_within | exact Or.inl (hT (by decide)) | exact Or.inr (hT (by simp)) | with_reducible split)

theorem execLaneChanWrite_within {T : List Part} {s0 s : State} (h : State.Within T s0 s) (hT : [.block 11, .block 12, .notes, .rd, .resp] ⊆ T) (lane : Fin 96) (chan : BitVec 24) : WithinRes T s0 (execLaneChanWrite lane chan s) := by
  unfold execLaneChanWrite
  repeat' (first | with_reducible assumption | exact part_trans (by decide) hT | intro _ | extract_lets | with_reducible apply withinRes_next | with_reducible apply withinRes_ite | with_reducible apply within_ite | with_reducible apply State.laneChanWrite_within | fail_if_no_progress ((with_reducible apply within_upd) <;> first | with_reducible exact Or.inl rfl | exact Or.inr (hT (by decide)) | skip) | exact Or.inl (hT (by decide)) | exact Or.inr (hT (by simp)) | split | dsimp +zetaDelta only)

theorem State.laneClear_within {T : List Part} {s0 s : State} (h : State.Within T s0 s) (hT : [.block 11, .resp] ⊆ T) (l : Nat) : State.Within T s0 (State.laneClear s l) := by
  unfold State.laneClear
  repeat' (first | with_reducible assumption | exact part_trans (by decide) hT | with_reducible intro _ | with_reducible apply within_ite | with_reducible apply State.laneRefuse_within | with_reducible apply State.setReg_within | with_reducible apply State.answer_within | exact Or.inl (hT (by decide)) | exact Or.inr (hT (by simp)))

theorem execLaneCountClear_within {T : List Part} {s0 s : State} (h : State.Within T s0 s) (hT : [.block 11, .resp] ⊆ T) (lane : Fin 96) : WithinRes T s0 (execLaneCountClear lane s) := by
  unfold execLaneCountClear
  repeat' (first | with_reducible assumption | exact part_trans (by decide) hT | intro _ | extract_lets | with_reducible apply withinRes_next | with_reducible apply withinRes_ite | with_reducible apply within_ite | with_reducible apply State.laneClear_within | fail_if_no_progress ((with_reducible apply within_upd) <;> first | with_reducible exact Or.inl rfl | exact Or.inr (hT (by decide)) | skip) | exact Or.inl (hT (by decide)) | exact Or.inr (hT (by simp)) | split | dsimp +zetaDelta only)

theorem State.sharedPass_within {T : List Part} {s0 s : State} (h : State.Within T s0 s) (hT : [.mac] ⊆ T) (c : Cell) : State.Within T s0 (State.sharedPass s c) := by
  unfold State.sharedPass
  repeat' (first | with_reducible assumption | exact part_trans (by decide) hT | with_reducible intro _ | with_reducible apply within_ite | fail_if_no_progress ((with_reducible apply within_upd) <;> first | with_reducible exact Or.inl rfl | exact Or.inr (hT (by decide)) | skip) | exact Or.inl (hT (by decide)) | exact Or.inr (hT (by simp)))

theorem State.planTx_within {T : List Part} {s0 s : State} (h : State.Within T s0 s) (hT : [.block 12, .freeIx, .mac] ⊆ T) (a : Nat) (start : Nat) (plan : SlotPlan) (x0 : List Cell) : Within1 T s0 (State.planTx s a start plan x0) := by
  induction x0 generalizing s a start plan with
  | nil =>
    unfold State.planTx
    repeat' (first | with_reducible assumption | exact part_trans (by decide) hT | intro _ | extract_lets | with_reducible apply within_ite | with_reducible apply State.sharedPass_within | with_reducible apply State.bump_within | with_reducible apply State.useFree_within | with_reducible apply within1_ite | fail_if_no_progress ((with_reducible apply within_upd) <;> first | with_reducible exact Or.inl rfl | exact Or.inr (hT (by decide)) | skip) | split | dsimp +zetaDelta only | with_reducible apply within1_mk | exact Or.inl (hT (by decide)) | exact Or.inr (hT (by simp)))
  | cons y l ih =>
    unfold State.planTx
    repeat' (first | with_reducible assumption | exact part_trans (by decide) hT | intro _ | extract_lets | with_reducible apply within_ite | with_reducible apply State.sharedPass_within | with_reducible apply State.bump_within | with_reducible apply State.useFree_within | with_reducible apply within1_ite | with_reducible apply ih | fail_if_no_progress ((with_reducible apply within_upd) <;> first | with_reducible exact Or.inl rfl | exact Or.inr (hT (by decide)) | skip) | split | dsimp +zetaDelta only | with_reducible apply within1_mk | exact Or.inl (hT (by decide)) | exact Or.inr (hT (by simp)))

theorem State.planRx_within {T : List Part} {s0 s : State} (h : State.Within T s0 s) (hT : [.block 12, .notes] ⊆ T) (a : Nat) (start : Nat) (plan : SlotPlan) (x0 : List Cell) : Within1 T s0 (State.planRx s a start plan x0) := by
  induction x0 generalizing s a start plan with
  | nil =>
    unfold State.planRx
    repeat' (first | with_reducible assumption | exact part_trans (by decide) hT | intro _ | extract_lets | with_reducible apply within_ite | with_reducible apply State.raise_within | with_reducible apply State.bump_within | with_reducible apply within1_ite | fail_if_no_progress ((with_reducible apply within_upd) <;> first | with_reducible exact Or.inl rfl | exact Or.inr (hT (by decide)) | skip) | split | dsimp +zetaDelta only | with_reducible apply within1_mk | exact Or.inl (hT (by decide)) | exact Or.inr (hT (by simp)))
  | cons y l ih =>
    unfold State.planRx
    repeat' (first | with_reducible assumption | exact part_trans (by decide) hT | intro _ | extract_lets | with_reducible apply within_ite | with_reducible apply State.raise_within | with_reducible apply State.bump_within | with_reducible apply within1_ite | with_reducible apply ih | fail_if_no_progress ((with_reducible apply within_upd) <;> first | with_reducible exact Or.inl rfl | exact Or.inr (hT (by decide)) | skip) | split | dsimp +zetaDelta only | with_reducible apply within1_mk | exact Or.inl (hT (by decide)) | exact Or.inr (hT (by simp)))

theorem State.planTrx_within {T : List Part} {s0 s : State} (h : State.Within T s0 s) (hT : [.block 12, .freeIx, .mac, .notes] ⊆ T) (a : Nat) (start : Nat) (plan : SlotPlan) (mine : List Cell) (n : Nat) : Within1 T s0 (State.planTrx s a start plan mine n) := by
  unfold State.planTrx
  repeat' (first | with_reducible assumption | exact part_trans (by decide) hT | with_reducible intro _ | with_reducible apply within1_ite | with_reducible apply State.planTx_within | with_reducible apply within1_fst | with_reducible apply State.planRx_within | with_reducible apply within1_ite | with_reducible apply within2_ite | with_reducible apply withinO_some | with_reducible apply withinO_none | with_reducible apply withinO_ite | with_reducible apply within1_mk | with_reducible apply within2_mk | exact Or.inl (hT (by decide)) | exact Or.inr (hT (by simp)))

theorem State.planAll_within {T : List Part} {s0 s : State} (h : State.Within T s0 s) (hT : [.block 12, .freeIx, .mac, .notes] ⊆ T) (a : Nat) (start : Nat) (plan : SlotPlan) (good : List Cell) (x0 : List Nat) : Within1 T s0 (State.planAll s a start plan good x0) := by
  induction x0 generalizing s a start plan good with
  | nil =>
    unfold State.planAll
    repeat' (first | with_reducible assumption | exact part_trans (by decide) hT | intro _ | extract_lets | with_reducible apply within1_ite | with_reducible apply within_ite | with_reducible apply State.planTrx_within | refine within1_elim (by with_reducible assumption) (State.planTrx_within ?_ ?_ _ _ _ _ _) | with_reducible apply within1_fst | with_reducible apply within1_ite | with_reducible apply within2_ite | with_reducible apply withinO_some | with_reducible apply withinO_none | with_reducible apply withinO_ite | with_reducible apply within1_fst | fail_if_no_progress ((with_reducible apply within_upd) <;> first | with_reducible exact Or.inl rfl | exact Or.inr (hT (by decide)) | skip) | split | dsimp +zetaDelta only | with_reducible apply within1_mk | with_reducible apply within2_mk | exact Or.inl (hT (by decide)) | exact Or.inr (hT (by simp)))
  | cons y l ih =>
    unfold State.planAll
    repeat' (first | with_reducible assumption | exact part_trans (by decide) hT | intro _ | extract_lets | with_reducible apply within1_ite | with_reducible apply within_ite | with_reducible apply State.planTrx_within | refine within1_elim (by with_reducible assumption) (State.planTrx_within ?_ ?_ _ _ _ _ _) | with_reducible apply within1_fst | with_reducible apply within1_ite | with_reducible apply within2_ite | with_reducible apply withinO_some | with_reducible apply withinO_none | with_reducible apply withinO_ite | with_reducible apply ih | with_reducible apply within1_fst | fail_if_no_progress ((with_reducible apply within_upd) <;> first | with_reducible exact Or.inl rfl | exact Or.inr (hT (by decide)) | skip) | split | dsimp +zetaDelta only | with_reducible apply within1_mk | with_reducible apply within2_mk | exact Or.inl (hT (by decide)) | exact Or.inr (hT (by simp)))

theorem State.buildPlan_within {T : List Part} {s0 s : State} (h : State.Within T s0 s) (hT : [.block 12, .freeIx, .mac, .notes] ⊆ T) (a : Nat) : Within1 T s0 (State.buildPlan s a) := by
  unfold State.buildPlan
  repeat' (first | with_reducible assumption | exact part_trans (by decide) hT | intro _ | extract_lets | with_reducible apply within_ite | with_reducible apply State.raise_within | with_reducible apply State.addF_within | with_reducible apply State.planAll_within | refine within1_elim (by with_reducible assumption) (State.planAll_within ?_ ?_ _ _ _ _ _) | with_reducible apply within1_ite | with_reducible apply within1_fst | fail_if_no_progress ((with_reducible apply within_upd) <;> first | with_reducible exact Or.inl rfl | exact Or.inr (hT (by decide)) | skip) | split | dsimp +zetaDelta only | with_reducible apply within1_mk | exact Or.inl (hT (by decide)) | exact Or.inr (hT (by simp)))

theorem execLanePlanComplete_within {T : List Part} {s0 s : State} (h : State.Within T s0 s) (hT : [.block 12, .freeIx, .mac, .notes] ⊆ T) : WithinRes T s0 (execLanePlanComplete s) := by
  unfold execLanePlanComplete
  repeat' (first | with_reducible assumption | exact part_trans (by decide) hT | exact Or.inl (hT (by decide)) | exact Or.inr (hT (by simp)) | intro _ | extract_lets | with_reducible apply withinRes_next | with_reducible apply withinRes_ite | with_reducible apply within_ite | with_reducible apply State.buildPlan_within | refine within1_elim (by with_reducible assumption) (State.buildPlan_within ?_ ?_ _) | with_reducible apply within1_fst | fail_if_no_progress ((with_reducible apply within_upd) <;> first | exact Or.inr (hT (by decide)) | with_reducible exact Or.inl rfl | skip) | split | dsimp +zetaDelta only)

theorem State.handBinds_within {T : List Part} {s0 s : State} (h : State.Within T s0 s) (hT : [.block 11, .block 12, .notes, .rd] ⊆ T) (plan : SlotPlan) : State.Within T s0 (State.handBinds s plan) := by
  unfold State.handBinds
  repeat' (first | with_reducible assumption | exact part_trans (by decide) hT | with_reducible intro _ | with_reducible apply within_ite | with_reducible apply State.each_within | with_reducible apply State.laneChange_within | exact Or.inl (hT (by decide)) | exact Or.inr (hT (by simp)) | with_reducible split)

theorem execSlotStart_within {T : List Part} {s0 s : State} (h : State.Within T s0 s) (hT : [.block 11, .block 12, .block 13, .block 15, .block 18, .block 21, .freeIx, .mac, .mem, .ms, .mtb, .notes, .out, .pa, .queues, .rd, .sl, .tm] ⊆ T) (t : Nat) : WithinRes T s0 (execSlotStart t s) := by
  unfold execSlotStart
  repeat' (first | with_reducible assumption | exact part_trans (by decide) hT | intro _ | extract_lets | with_reducible apply withinRes_next | with_reducible apply withinRes_ite | with_reducible apply within_ite | with_reducible apply State.advance_within | with_reducible apply State.handBinds_within | with_reducible apply State.setF_within | with_reducible apply State.macTick_within | with_reducible apply State.each_within | with_reducible apply State.missed_within | fail_if_no_progress ((with_reducible apply within_upd) <;> first | with_reducible exact Or.inl rfl | exact Or.inr (hT (by decide)) | skip) | exact Or.inl (hT (by decide)) | exact Or.inr (hT (by simp)) | split | dsimp +zetaDelta only)

theorem State.issueBeacon_within {T : List Part} {s0 s : State} (h : State.Within T s0 s) (hT : [.block 12, .block 15, .freeIx, .mac, .ms, .notes, .queues] ⊆ T) (n : Nat) (p : Nat) (phy : Nat) (chan : Nat) (tDep : Nat) : State.Within T s0 (State.issueBeacon s n p phy chan tDep) := by
  unfold State.issueBeacon
  repeat' (first | with_reducible assumption | exact part_trans (by decide) hT | intro _ | extract_lets | with_reducible apply within_ite | with_reducible apply State.dutyRefuse_within | with_reducible apply State.dutyTake_within | refine within2_elim (by with_reducible assumption) (State.dutyTake_within ?_ ?_ _ _ _) | with_reducible apply State.macIssue_within | with_reducible apply State.useFree_within | with_reducible apply within2_snd | fail_if_no_progress ((with_reducible apply within_upd) <;> first | with_reducible exact Or.inl rfl | exact Or.inr (hT (by decide)) | skip) | exact Or.inl (hT (by decide)) | exact Or.inr (hT (by simp)) | split | dsimp +zetaDelta only)

theorem State.dropTx_within {T : List Part} {s0 s : State} (h : State.Within T s0 s) (hT : [.mac] ⊆ T) (a : Nat) (n : Nat) : State.Within T s0 (State.dropTx s a n) := by
  unfold State.dropTx
  repeat' (first | with_reducible assumption | exact part_trans (by decide) hT | fail_if_no_progress ((with_reducible apply within_upd) <;> first | with_reducible exact Or.inl rfl | exact Or.inr (hT (by decide)) | skip) | exact Or.inl (hT (by decide)) | exact Or.inr (hT (by simp)) | with_reducible split)

theorem State.heldBack_within {T : List Part} {s0 s : State} (h : State.Within T s0 s) (hT : [.sl] ⊆ T) (id : Nat) : State.Within T s0 (State.heldBack s id) := by
  unfold State.heldBack
  repeat' (first | with_reducible assumption | exact part_trans (by decide) hT | intro _ | extract_lets | with_reducible apply within_ite | with_reducible apply State.t3Set_within | with_reducible apply State.actDel_within | fail_if_no_progress ((with_reducible apply within_upd) <;> first | with_reducible exact Or.inl rfl | exact Or.inr (hT (by decide)) | skip) | exact Or.inl (hT (by decide)) | exact Or.inr (hT (by simp)) | split | dsimp +zetaDelta only)

theorem State.issueCell_within {T : List Part} {s0 s : State} (h : State.Within T s0 s) (hT : [.block 12, .block 15, .block 21, .freeIx, .mac, .mem, .ms, .notes, .out, .pa, .queues, .sl] ⊆ T) (a : Nat) (x : TxCell) : State.Within T s0 (State.issueCell s a x) := by
  unfold State.issueCell
  repeat' (first | with_reducible assumption | exact part_trans (by decide) hT | intro _ | extract_lets | with_reducible apply within_ite | with_reducible apply State.dropTx_within | with_reducible apply State.issueBeacon_within | with_reducible apply State.heldBack_within | with_reducible apply State.issueFrame_within | fail_if_no_progress ((with_reducible apply within_upd) <;> first | with_reducible exact Or.inl rfl | exact Or.inr (hT (by decide)) | skip) | exact Or.inl (hT (by decide)) | exact Or.inr (hT (by simp)) | split | dsimp +zetaDelta only)

theorem State.cellBusy_within {T : List Part} {s0 s : State} (h : State.Within T s0 s) (hT : [.block 12, .block 13, .block 15, .block 18, .block 21, .freeIx, .mac, .mem, .ms, .notes, .out, .pa, .queues, .sl] ⊆ T) (a : Nat) (x : TxCell) : State.Within T s0 (State.cellBusy s a x) := by
  unfold State.cellBusy
  repeat' (first | with_reducible assumption | exact part_trans (by decide) hT | intro _ | extract_lets | with_reducible apply within_ite | with_reducible apply State.dropTx_within | with_reducible apply State.missed_within | with_reducible apply State.putFrame_within | with_reducible apply State.frameEnd_within | with_reducible apply State.raise_within | with_reducible apply State.drbgUse_within | fail_if_no_progress ((with_reducible apply within_upd) <;> first | with_reducible exact Or.inl rfl | exact Or.inr (hT (by decide)) | skip) | exact Or.inl (hT (by decide)) | exact Or.inr (hT (by simp)) | split | dsimp +zetaDelta only)

theorem execTschTxCell_within {T : List Part} {s0 s : State} (h : State.Within T s0 s) (hT : [.block 12, .block 13, .block 15, .block 18, .block 21, .freeIx, .mac, .mem, .ms, .mtb, .notes, .out, .pa, .queues, .sl, .tm] ⊆ T) (trx : Fin 4) (t : Nat) : WithinRes T s0 (execTschTxCell trx t s) := by
  unfold execTschTxCell
  repeat' (first | with_reducible assumption | exact part_trans (by decide) hT | intro _ | extract_lets | with_reducible apply withinRes_next | with_reducible apply withinRes_ite | with_reducible apply within_ite | with_reducible apply State.advance_within | with_reducible apply State.macTick_within | with_reducible apply State.issueCell_within | with_reducible apply State.putFrame_within | with_reducible apply State.senseAsk_within | fail_if_no_progress ((with_reducible apply within_upd) <;> first | with_reducible exact Or.inl rfl | exact Or.inr (hT (by decide)) | skip) | exact Or.inl (hT (by decide)) | exact Or.inr (hT (by simp)) | split | dsimp +zetaDelta only)

theorem State.reqRefuse_within {T : List Part} {s0 s : State} (h : State.Within T s0 s) (hT : [.block 12, .block 15, .freeIx, .mac, .ms, .notes, .queues] ⊆ T) (r : TxReq) (st : Nat) : State.Within T s0 (State.reqRefuse s r st) := by
  unfold State.reqRefuse
  repeat' (first | with_reducible assumption | exact part_trans (by decide) hT | with_reducible apply State.setF_within | with_reducible apply State.putFrame_within | with_reducible apply State.frameRelease_within | fail_if_no_progress ((with_reducible apply within_upd) <;> first | with_reducible exact Or.inl rfl | exact Or.inr (hT (by decide)) | skip) | exact Or.inl (hT (by decide)) | exact Or.inr (hT (by simp)))

theorem State.request_within {T : List Part} {s0 s : State} (h : State.Within T s0 s) (hT : [.block 12, .block 15, .freeIx, .mac, .ms, .notes, .queues, .sl] ⊆ T) (r : TxReq) (seq : Option Nat) : State.Within T s0 (State.request s r seq) := by
  unfold State.request
  repeat' (first | with_reducible assumption | exact part_trans (by decide) hT | with_reducible intro _ | with_reducible apply within_ite | with_reducible apply State.reqRefuse_within | with_reducible apply State.raise_within | with_reducible apply State.putFrame_within | with_reducible apply State.t3Set_within | fail_if_no_progress ((with_reducible apply within_upd) <;> first | with_reducible exact Or.inl rfl | exact Or.inr (hT (by decide)) | skip) | exact Or.inl (hT (by decide)) | exact Or.inr (hT (by simp)))

theorem execTxRequest_within {T : List Part} {s0 s : State} (h : State.Within T s0 s) (hT : [.block 12, .block 13, .block 15, .block 18, .block 21, .freeIx, .mac, .mem, .ms, .mtb, .notes, .out, .pa, .queues, .sl, .tm] ⊆ T) (t : Nat) : WithinRes T s0 (execTxRequest t s) := by
  unfold execTxRequest
  repeat' (first | with_reducible assumption | exact part_trans (by decide) hT | intro _ | extract_lets | with_reducible apply withinRes_next | with_reducible apply withinRes_ite | with_reducible apply within_ite | with_reducible apply State.advance_within | with_reducible apply State.dequeue_within | with_reducible apply State.emit_within | with_reducible apply State.request_within | with_reducible apply State.macTick_within | fail_if_no_progress ((with_reducible apply within_upd) <;> first | with_reducible exact Or.inl rfl | exact Or.inr (hT (by decide)) | skip) | exact Or.inl (hT (by decide)) | exact Or.inr (hT (by simp)) | split | dsimp +zetaDelta only)

theorem State.csmaBusy_within {T : List Part} {s0 s : State} (h : State.Within T s0 s) (hT : [.block 15, .block 18, .freeIx, .mac, .ms, .notes, .queues] ⊆ T) (id : Nat) (n : Nat) (f : Frame) : State.Within T s0 (State.csmaBusy s id n f) := by
  unfold State.csmaBusy
  repeat' (first | with_reducible assumption | exact part_trans (by decide) hT | intro _ | extract_lets | with_reducible apply within_ite | with_reducible apply State.frameEnd_within | with_reducible apply State.putFrame_within | with_reducible apply State.drbgUse_within | with_reducible apply State.csmaBackoff_within | fail_if_no_progress ((with_reducible apply within_upd) <;> first | with_reducible exact Or.inl rfl | exact Or.inr (hT (by decide)) | skip) | exact Or.inl (hT (by decide)) | exact Or.inr (hT (by simp)) | split | dsimp +zetaDelta only)

theorem State.frameSensed_within {T : List Part} {s0 s : State} (h : State.Within T s0 s) (hT : [.block 12, .block 15, .block 18, .block 21, .freeIx, .mac, .mem, .ms, .notes, .out, .pa, .queues, .sl] ⊆ T) (id : Nat) (n : Nat) (chan : Nat) (busy : Bool) : State.Within T s0 (State.frameSensed s id n chan busy) := by
  unfold State.frameSensed
  repeat' (first | with_reducible assumption | exact part_trans (by decide) hT | intro _ | extract_lets | with_reducible apply within_ite | with_reducible apply State.t3Set_within | with_reducible apply State.actDel_within | with_reducible apply State.putFrame_within | with_reducible apply State.heldBack_within | with_reducible apply State.issueFrame_within | with_reducible apply State.csmaBusy_within | fail_if_no_progress ((with_reducible apply within_upd) <;> first | with_reducible exact Or.inl rfl | exact Or.inr (hT (by decide)) | skip) | exact Or.inl (hT (by decide)) | exact Or.inr (hT (by simp)) | split | dsimp +zetaDelta only)

theorem execCarrierSenseEnd_within {T : List Part} {s0 s : State} (h : State.Within T s0 s) (hT : [.block 12, .block 13, .block 15, .block 18, .block 21, .freeIx, .mac, .mem, .ms, .mtb, .notes, .out, .pa, .queues, .sl, .tm] ⊆ T) (trx : Fin 4) (tap : Fin 2) (level : Int) : WithinRes T s0 (execCarrierSenseEnd trx tap level s) := by
  unfold execCarrierSenseEnd
  repeat' (first | with_reducible assumption | exact part_trans (by decide) hT | intro _ | extract_lets | with_reducible apply withinRes_next | with_reducible apply withinRes_ite | with_reducible apply within_ite | with_reducible apply State.advance_within | with_reducible apply State.cellBusy_within | with_reducible apply State.issueCell_within | with_reducible apply State.frameSensed_within | with_reducible apply State.macTick_within | fail_if_no_progress ((with_reducible apply within_upd) <;> first | with_reducible exact Or.inl rfl | exact Or.inr (hT (by decide)) | skip) | exact Or.inl (hT (by decide)) | exact Or.inr (hT (by simp)) | split | dsimp +zetaDelta only)

theorem execCsmaBackoffEnd_within {T : List Part} {s0 s : State} (h : State.Within T s0 s) (hT : [.mac, .mtb] ⊆ T) (frame : Nat) : WithinRes T s0 (execCsmaBackoffEnd frame s) := by
  unfold execCsmaBackoffEnd
  repeat' (first | with_reducible assumption | exact part_trans (by decide) hT | intro _ | extract_lets | with_reducible apply withinRes_next | with_reducible apply withinRes_ite | with_reducible apply within_ite | with_reducible apply State.advance_within | with_reducible apply State.csmaSense_within | fail_if_no_progress ((with_reducible apply within_upd) <;> first | with_reducible exact Or.inl rfl | exact Or.inr (hT (by decide)) | skip) | exact Or.inl (hT (by decide)) | exact Or.inr (hT (by simp)) | split | dsimp +zetaDelta only)

theorem execAckWaitTimeout_within {T : List Part} {s0 s : State} (h : State.Within T s0 s) (hT : [.block 12, .block 13, .block 15, .block 18, .block 21, .freeIx, .mac, .mem, .ms, .mtb, .notes, .out, .pa, .queues, .sl, .tm] ⊆ T) (frame : Nat) (t : Nat) : WithinRes T s0 (execAckWaitTimeout frame t s) := by
  unfold execAckWaitTimeout
  repeat' (first | with_reducible assumption | exact part_trans (by decide) hT | intro _ | extract_lets | with_reducible apply withinRes_next | with_reducible apply withinRes_ite | with_reducible apply within_ite | with_reducible apply State.advance_within | with_reducible apply State.ackMissing_within | with_reducible apply State.macTick_within | fail_if_no_progress ((with_reducible apply within_upd) <;> first | with_reducible exact Or.inl rfl | exact Or.inr (hT (by decide)) | skip) | exact Or.inl (hT (by decide)) | exact Or.inr (hT (by simp)) | split | dsimp +zetaDelta only)

theorem execFrameDeadlineExpiry_within {T : List Part} {s0 s : State} (h : State.Within T s0 s) (hT : [.block 12, .block 13, .block 15, .block 18, .block 21, .freeIx, .mac, .mem, .ms, .mtb, .notes, .out, .pa, .queues, .sl, .tm] ⊆ T) (frame : Nat) (t : Nat) : WithinRes T s0 (execFrameDeadlineExpiry frame t s) := by
  unfold execFrameDeadlineExpiry
  repeat' (first | with_reducible assumption | exact part_trans (by decide) hT | intro _ | extract_lets | with_reducible apply withinRes_next | with_reducible apply withinRes_ite | with_reducible apply within_ite | with_reducible apply State.advance_within | with_reducible apply State.frameEnd_within | with_reducible apply State.nodeNext_within | with_reducible apply State.macTick_within | fail_if_no_progress ((with_reducible apply within_upd) <;> first | with_reducible exact Or.inl rfl | exact Or.inr (hT (by decide)) | skip) | exact Or.inl (hT (by decide)) | exact Or.inr (hT (by simp)) | split | dsimp +zetaDelta only)

theorem execShuttleCompletionRx_within {T : List Part} {s0 s : State} (h : State.Within T s0 s) (hT : [.block 12, .block 13, .block 15, .block 18, .block 21, .freeIx, .mac, .mem, .ms, .mtb, .notes, .out, .pa, .queues, .sl, .tm] ⊆ T) (t : Nat) : WithinRes T s0 (execShuttleCompletionRx t s) := by
  unfold execShuttleCompletionRx
  repeat' (first | with_reducible assumption | exact part_trans (by decide) hT | intro _ | extract_lets | with_reducible apply withinRes_next | with_reducible apply withinRes_ite | with_reducible apply within_ite | with_reducible apply State.advance_within | with_reducible apply State.dequeue_within | with_reducible apply State.emit_within | with_reducible apply State.macComplete_within | with_reducible apply State.macTick_within | fail_if_no_progress ((with_reducible apply within_upd) <;> first | with_reducible exact Or.inl rfl | exact Or.inr (hT (by decide)) | skip) | exact Or.inl (hT (by decide)) | exact Or.inr (hT (by simp)) | split | dsimp +zetaDelta only)

theorem execEbDue_within {T : List Part} {s0 s : State} (h : State.Within T s0 s) (hT : [.mac, .mtb] ⊆ T) (pan : Fin 16) (trx : Fin 4) (t : Nat) : WithinRes T s0 (execEbDue pan trx t s) := by
  unfold execEbDue
  repeat' (first | with_reducible assumption | exact part_trans (by decide) hT | intro _ | extract_lets | with_reducible apply withinRes_next | with_reducible apply withinRes_ite | with_reducible apply within_ite | with_reducible apply State.advance_within | fail_if_no_progress ((with_reducible apply within_upd) <;> first | with_reducible exact Or.inl rfl | exact Or.inr (hT (by decide)) | skip) | exact Or.inl (hT (by decide)) | exact Or.inr (hT (by simp)) | split | dsimp +zetaDelta only)

theorem execDutyBucketRoll_within {T : List Part} {s0 s : State} (h : State.Within T s0 s) (hT : [.block 12, .block 13, .block 15, .block 18, .block 21, .freeIx, .mac, .mem, .ms, .mtb, .notes, .out, .pa, .queues, .sl, .tm] ⊆ T) (profile : Fin 16) (t : Nat) : WithinRes T s0 (execDutyBucketRoll profile t s) := by
  unfold execDutyBucketRoll
  repeat' (first | with_reducible assumption | exact part_trans (by decide) hT | intro _ | extract_lets | with_reducible apply withinRes_next | with_reducible apply withinRes_ite | with_reducible apply within_ite | with_reducible apply State.advance_within | with_reducible apply State.setLimit_within | with_reducible apply State.macTick_within | fail_if_no_progress ((with_reducible apply within_upd) <;> first | with_reducible exact Or.inl rfl | exact Or.inr (hT (by decide)) | skip) | exact Or.inl (hT (by decide)) | exact Or.inr (hT (by simp)) | split | dsimp +zetaDelta only)

theorem execOffTimeEnd_within {T : List Part} {s0 s : State} (h : State.Within T s0 s) (hT : [.block 12, .block 13, .block 15, .block 18, .block 21, .freeIx, .mac, .mem, .ms, .mtb, .notes, .out, .pa, .queues, .sl, .tm] ⊆ T) (trx : Fin 4) : WithinRes T s0 (execOffTimeEnd trx s) := by
  unfold execOffTimeEnd
  repeat' (first | with_reducible assumption | exact part_trans (by decide) hT | intro _ | extract_lets | with_reducible apply withinRes_next | with_reducible apply withinRes_ite | with_reducible apply within_ite | with_reducible apply State.advance_within | with_reducible apply State.macTick_within | fail_if_no_progress ((with_reducible apply within_upd) <;> first | with_reducible exact Or.inl rfl | exact Or.inr (hT (by decide)) | skip) | exact Or.inl (hT (by decide)) | exact Or.inr (hT (by simp)) | split | dsimp +zetaDelta only)

theorem execBraidCut_within {T : List Part} {s0 s : State} (h : State.Within T s0 s) (hT : [.block 12, .block 13, .block 15, .block 18, .block 21, .freeIx, .mac, .mem, .ms, .mtb, .notes, .out, .pa, .queues, .sl, .tm] ⊆ T) (trx : Fin 4) : WithinRes T s0 (execBraidCut trx s) := by
  unfold execBraidCut
  repeat' (first | with_reducible assumption | exact part_trans (by decide) hT | intro _ | extract_lets | with_reducible apply withinRes_next | with_reducible apply withinRes_ite | with_reducible apply within_ite | with_reducible apply State.advance_within | with_reducible apply State.groupPlan_within | refine within1_elim (by with_reducible assumption) (State.groupPlan_within ?_ ?_ _ _ _) | with_reducible apply State.macTick_within | with_reducible apply State.openBraid_within | with_reducible apply within1_fst | fail_if_no_progress ((with_reducible apply within_upd) <;> first | with_reducible exact Or.inl rfl | exact Or.inr (hT (by decide)) | skip) | exact Or.inl (hT (by decide)) | exact Or.inr (hT (by simp)) | split | dsimp +zetaDelta only)

theorem State.macRefuse_within {T : List Part} {s0 s : State} (h : State.Within T s0 s) (hT : [.block 12, .resp] ⊆ T) (st : Nat) : State.Within T s0 (State.macRefuse s st) := by
  unfold State.macRefuse
  repeat' (first | with_reducible assumption | exact part_trans (by decide) hT | with_reducible apply State.refuse_within | exact Or.inl (hT (by decide)) | exact Or.inr (hT (by simp)))

theorem State.panEnable_within {T : List Part} {s0 s : State} (h : State.Within T s0 s) (hT : [.block 12, .block 15, .freeIx, .mac, .ms, .notes, .queues, .resp] ⊆ T) (en : Nat) : State.Within T s0 (State.panEnable s en) := by
  unfold State.panEnable
  repeat' (first | with_reducible assumption | exact part_trans (by decide) hT | with_reducible intro _ | with_reducible apply within_ite | with_reducible apply State.macRefuse_within | with_reducible apply State.setF_within | with_reducible apply State.flushFrames_within | with_reducible apply State.answer_within | exact Or.inl (hT (by decide)) | exact Or.inr (hT (by simp)))

theorem execMacPanEnableWrite_within {T : List Part} {s0 s : State} (h : State.Within T s0 s) (hT : [.block 12, .block 15, .freeIx, .mac, .ms, .notes, .queues, .resp] ⊆ T) (en : BitVec 16) : WithinRes T s0 (execMacPanEnableWrite en s) := by
  unfold execMacPanEnableWrite
  repeat' (first | with_reducible assumption | exact part_trans (by decide) hT | intro _ | extract_lets | with_reducible apply withinRes_next | with_reducible apply withinRes_ite | with_reducible apply within_ite | with_reducible apply State.panEnable_within | fail_if_no_progress ((with_reducible apply within_upd) <;> first | with_reducible exact Or.inl rfl | exact Or.inr (hT (by decide)) | skip) | exact Or.inl (hT (by decide)) | exact Or.inr (hT (by simp)) | split | dsimp +zetaDelta only)

theorem State.macClear_within {T : List Part} {s0 s : State} (h : State.Within T s0 s) (hT : [.block 12, .resp] ⊆ T) : State.Within T s0 (State.macClear s) := by
  unfold State.macClear
  apply State.answer_within _ (part_trans (by decide) hT)
  apply State.each_within_mem h
  intro s a ha hs
  obtain ⟨k, hk, rfl⟩ := List.mem_map.mp ha
  refine State.setReg_within hs _ (Or.inr (hT ?_)) _
  have hk' := List.mem_range.mp hk
  have : regBlock (R.MAC_RX_COUNT0 + 4 * k) = 12 := by
    rw [regBlock_of _ 13 (by unfold R.MAC_RX_COUNT0 bankStride; omega)]; rfl
  rw [this]; decide

theorem execMacCountClear_within {T : List Part} {s0 s : State} (h : State.Within T s0 s) (hT : [.block 12, .resp] ⊆ T) : WithinRes T s0 (execMacCountClear s) := by
  unfold execMacCountClear
  repeat' (first | with_reducible assumption | exact part_trans (by decide) hT | intro _ | extract_lets | with_reducible apply withinRes_next | with_reducible apply withinRes_ite | with_reducible apply within_ite | with_reducible apply State.macClear_within | fail_if_no_progress ((with_reducible apply within_upd) <;> first | with_reducible exact Or.inl rfl | exact Or.inr (hT (by decide)) | skip) | exact Or.inl (hT (by decide)) | exact Or.inr (hT (by simp)) | split | dsimp +zetaDelta only)

theorem State.sfCfgWrite_within {T : List Part} {s0 s : State} (h : State.Within T s0 s) (hT : [.block 12, .resp] ⊆ T) (en : Bool) (len : Nat) : State.Within T s0 (State.sfCfgWrite s en len) := by
  unfold State.sfCfgWrite
  repeat' (first | with_reducible assumption | exact part_trans (by decide) hT | intro _ | extract_lets | with_reducible apply within_ite | with_reducible apply State.answer_within | with_reducible apply State.macRefuse_within | with_reducible apply State.setB_within | with_reducible apply State.setF_within | fail_if_no_progress ((with_reducible apply within_upd) <;> first | with_reducible exact Or.inl rfl | exact Or.inr (hT (by decide)) | skip) | exact Or.inl (hT (by decide)) | exact Or.inr (hT (by simp)) | split | dsimp +zetaDelta only)

theorem execMacSlotframeEnable_within {T : List Part} {s0 s : State} (h : State.Within T s0 s) (hT : [.block 12, .resp] ⊆ T) (en : Bool) (length : Fin 65536) : WithinRes T s0 (execMacSlotframeEnable en length s) := by
  unfold execMacSlotframeEnable
  repeat' (first | with_reducible assumption | exact part_trans (by decide) hT | intro _ | extract_lets | with_reducible apply withinRes_next | with_reducible apply withinRes_ite | with_reducible apply within_ite | with_reducible apply State.sfCfgWrite_within | fail_if_no_progress ((with_reducible apply within_upd) <;> first | with_reducible exact Or.inl rfl | exact Or.inr (hT (by decide)) | skip) | exact Or.inl (hT (by decide)) | exact Or.inr (hT (by simp)) | split | dsimp +zetaDelta only)

theorem State.sleepRefuse_within {T : List Part} {s0 s : State} (h : State.Within T s0 s) (hT : [.block 13, .resp] ⊆ T) (st : Nat) : State.Within T s0 (State.sleepRefuse s st) := by
  unfold State.sleepRefuse
  repeat' (first | with_reducible assumption | exact part_trans (by decide) hT | with_reducible apply State.refuse_within | exact Or.inl (hT (by decide)) | exact Or.inr (hT (by simp)))

theorem State.sleepStart_within {T : List Part} {s0 s : State} (h : State.Within T s0 s) (hT : [.block 13, .block 21, .mem, .out, .pa, .resp, .sl] ⊆ T) (n : Nat) : State.Within T s0 (State.sleepStart s n) := by
  unfold State.sleepStart
  repeat' (first | with_reducible assumption | exact part_trans (by decide) hT | with_reducible intro _ | with_reducible apply within_ite | with_reducible apply State.sleepRefuse_within | with_reducible apply State.answer_within | with_reducible apply State.slSet_within | with_reducible apply State.setMisses_within | with_reducible apply State.addF_within | with_reducible apply State.t3Set_within | exact Or.inl (hT (by decide)) | exact Or.inr (hT (by simp)))

theorem State.sleepStop_within {T : List Part} {s0 s : State} (h : State.Within T s0 s) (hT : [.block 13, .block 15, .block 21, .freeIx, .mac, .mem, .ms, .notes, .out, .pa, .queues, .resp, .sl] ⊆ T) (n : Nat) : State.Within T s0 (State.sleepStop s n) := by
  unfold State.sleepStop
  repeat' (first | with_reducible assumption | exact part_trans (by decide) hT | with_reducible intro _ | with_reducible apply within_ite | with_reducible apply State.sleepRefuse_within | with_reducible apply State.flushFrames_within | with_reducible apply State.slSet_within | with_reducible apply State.t3Del_within | with_reducible apply State.actDel_within | with_reducible apply State.callDel_within | with_reducible apply State.setF_within | with_reducible apply State.answer_within | fail_if_no_progress ((with_reducible apply within_upd) <;> first | with_reducible exact Or.inl rfl | exact Or.inr (hT (by decide)) | skip) | exact Or.inl (hT (by decide)) | exact Or.inr (hT (by simp)))

theorem State.sleepResync_within {T : List Part} {s0 s : State} (h : State.Within T s0 s) (hT : [.block 13, .resp, .sl] ⊆ T) (n : Nat) : State.Within T s0 (State.sleepResync s n) := by
  unfold State.sleepResync
  repeat' (first | with_reducible assumption | exact part_trans (by decide) hT | with_reducible intro _ | with_reducible apply within_ite | with_reducible apply State.sleepRefuse_within | with_reducible apply State.t3Set_within | with_reducible apply State.answer_within | fail_if_no_progress ((with_reducible apply within_upd) <;> first | with_reducible exact Or.inl rfl | exact Or.inr (hT (by decide)) | skip) | exact Or.inl (hT (by decide)) | exact Or.inr (hT (by simp)))

theorem State.sleepReset_within {T : List Part} {s0 s : State} (h : State.Within T s0 s) (hT : [.block 13, .resp, .sl] ⊆ T) (n : Nat) : State.Within T s0 (State.sleepReset s n) := by
  unfold State.sleepReset
  repeat' (first | with_reducible assumption | exact part_trans (by decide) hT | with_reducible intro _ | with_reducible apply within_ite | with_reducible apply State.sleepRefuse_within | with_reducible apply State.answer_within | fail_if_no_progress ((with_reducible apply within_upd) <;> first | with_reducible exact Or.inl rfl | exact Or.inr (hT (by decide)) | skip) | exact Or.inl (hT (by decide)) | exact Or.inr (hT (by simp)))

theorem State.sleepCall_within {T : List Part} {s0 s : State} (h : State.Within T s0 s) (hT : [.block 12, .block 13, .block 15, .block 21, .freeIx, .mac, .mem, .ms, .notes, .out, .pa, .queues, .resp, .sl] ⊆ T) (n : Nat) : State.Within T s0 (State.sleepCall s n) := by
  unfold State.sleepCall
  repeat' (first | with_reducible assumption | exact part_trans (by decide) hT | intro _ | extract_lets | with_reducible apply within_ite | with_reducible apply State.sleepRefuse_within | with_reducible apply State.callSend_within | with_reducible apply State.actDel_within | with_reducible apply State.sleepEvent_within | with_reducible apply State.setMisses_within | with_reducible apply State.slSet_within | with_reducible apply State.answer_within | with_reducible apply State.t3Set_within | fail_if_no_progress ((with_reducible apply within_upd) <;> first | with_reducible exact Or.inl rfl | exact Or.inr (hT (by decide)) | skip) | exact Or.inl (hT (by decide)) | exact Or.inr (hT (by simp)) | split | dsimp +zetaDelta only)

theorem State.sleepCtrl_within {T : List Part} {s0 s : State} (h : State.Within T s0 s) (hT : [.block 12, .block 13, .block 15, .block 21, .freeIx, .mac, .mem, .ms, .notes, .out, .pa, .queues, .resp, .sl] ⊆ T) (op : Nat) (n : Nat) : State.Within T s0 (State.sleepCtrl s op n) := by
  unfold State.sleepCtrl
  repeat' (first | with_reducible assumption | exact part_trans (by decide) hT | with_reducible intro _ | with_reducible apply within_ite | with_reducible apply State.sleepRefuse_within | with_reducible apply State.sleepStart_within | with_reducible apply State.sleepStop_within | with_reducible apply State.sleepResync_within | with_reducible apply State.sleepReset_within | with_reducible apply State.sleepCall_within | exact Or.inl (hT (by decide)) | exact Or.inr (hT (by simp)))

theorem execSleepStart_within {T : List Part} {s0 s : State} (h : State.Within T s0 s) (hT : [.block 12, .block 13, .block 15, .block 21, .freeIx, .mac, .mem, .ms, .notes, .out, .pa, .queues, .resp, .sl] ⊆ T) (node : BitVec 18) : WithinRes T s0 (execSleepStart node s) := by
  unfold execSleepStart
  repeat' (first | with_reducible assumption | exact part_trans (by decide) hT | intro _ | extract_lets | with_reducible apply withinRes_next | with_reducible apply withinRes_ite | with_reducible apply within_ite | with_reducible apply State.sleepCtrl_within | fail_if_no_progress ((with_reducible apply within_upd) <;> first | with_reducible exact Or.inl rfl | exact Or.inr (hT (by decide)) | skip) | exact Or.inl (hT (by decide)) | exact Or.inr (hT (by simp)) | split | dsimp +zetaDelta only)

theorem execSleepStop_within {T : List Part} {s0 s : State} (h : State.Within T s0 s) (hT : [.block 12, .block 13, .block 15, .block 21, .freeIx, .mac, .mem, .ms, .notes, .out, .pa, .queues, .resp, .sl] ⊆ T) (node : BitVec 18) : WithinRes T s0 (execSleepStop node s) := by
  unfold execSleepStop
  repeat' (first | with_reducible assumption | exact part_trans (by decide) hT | intro _ | extract_lets | with_reducible apply withinRes_next | with_reducible apply withinRes_ite | with_reducible apply within_ite | with_reducible apply State.sleepCtrl_within | fail_if_no_progress ((with_reducible apply within_upd) <;> first | with_reducible exact Or.inl rfl | exact Or.inr (hT (by decide)) | skip) | exact Or.inl (hT (by decide)) | exact Or.inr (hT (by simp)) | split | dsimp +zetaDelta only)

theorem execSleepResync_within {T : List Part} {s0 s : State} (h : State.Within T s0 s) (hT : [.block 12, .block 13, .block 15, .block 21, .freeIx, .mac, .mem, .ms, .notes, .out, .pa, .queues, .resp, .sl] ⊆ T) (node : BitVec 18) : WithinRes T s0 (execSleepResync node s) := by
  unfold execSleepResync
  repeat' (first | with_reducible assumption | exact part_trans (by decide) hT | intro _ | extract_lets | with_reducible apply withinRes_next | with_reducible apply withinRes_ite | with_reducible apply within_ite | with_reducible apply State.sleepCtrl_within | fail_if_no_progress ((with_reducible apply within_upd) <;> first | with_reducible exact Or.inl rfl | exact Or.inr (hT (by decide)) | skip) | exact Or.inl (hT (by decide)) | exact Or.inr (hT (by simp)) | split | dsimp +zetaDelta only)

theorem execSleepResetDrift_within {T : List Part} {s0 s : State} (h : State.Within T s0 s) (hT : [.block 12, .block 13, .block 15, .block 21, .freeIx, .mac, .mem, .ms, .notes, .out, .pa, .queues, .resp, .sl] ⊆ T) (node : BitVec 18) : WithinRes T s0 (execSleepResetDrift node s) := by
  unfold execSleepResetDrift
  repeat' (first | with_reducible assumption | exact part_trans (by decide) hT | intro _ | extract_lets | with_reducible apply withinRes_next | with_reducible apply withinRes_ite | with_reducible apply within_ite | with_reducible apply State.sleepCtrl_within | fail_if_no_progress ((with_reducible apply within_upd) <;> first | with_reducible exact Or.inl rfl | exact Or.inr (hT (by decide)) | skip) | exact Or.inl (hT (by decide)) | exact Or.inr (hT (by simp)) | split | dsimp +zetaDelta only)

theorem execSleepCall_within {T : List Part} {s0 s : State} (h : State.Within T s0 s) (hT : [.block 12, .block 13, .block 15, .block 21, .freeIx, .mac, .mem, .ms, .notes, .out, .pa, .queues, .resp, .sl] ⊆ T) (node : BitVec 18) : WithinRes T s0 (execSleepCall node s) := by
  unfold execSleepCall
  repeat' (first | with_reducible assumption | exact part_trans (by decide) hT | intro _ | extract_lets | with_reducible apply withinRes_next | with_reducible apply withinRes_ite | with_reducible apply within_ite | with_reducible apply State.sleepCtrl_within | fail_if_no_progress ((with_reducible apply within_upd) <;> first | with_reducible exact Or.inl rfl | exact Or.inr (hT (by decide)) | skip) | exact Or.inl (hT (by decide)) | exact Or.inr (hT (by simp)) | split | dsimp +zetaDelta only)

theorem State.linkAdd_within {T : List Part} {s0 s : State} (h : State.Within T s0 s) (hT : [.block 13, .notes, .resp, .sl] ⊆ T) (b : Nat) : State.Within T s0 (State.linkAdd s b) := by
  unfold State.linkAdd
  repeat' (first | with_reducible assumption | exact part_trans (by decide) hT | with_reducible intro _ | with_reducible apply within_ite | with_reducible apply State.sleepRefuse_within | with_reducible apply State.setF_within | with_reducible apply State.answer_within | with_reducible apply State.t3Set_within | with_reducible apply State.linkCheck_within | fail_if_no_progress ((with_reducible apply within_upd) <;> first | with_reducible exact Or.inl rfl | exact Or.inr (hT (by decide)) | skip) | exact Or.inl (hT (by decide)) | exact Or.inr (hT (by simp)))

theorem State.linkRemove_within {T : List Part} {s0 s : State} (h : State.Within T s0 s) (hT : [.block 13, .resp, .sl] ⊆ T) (b : Nat) : State.Within T s0 (State.linkRemove s b) := by
  unfold State.linkRemove
  repeat' (first | with_reducible assumption | exact part_trans (by decide) hT | with_reducible intro _ | with_reducible apply within_ite | with_reducible apply State.sleepRefuse_within | with_reducible apply State.setF_within | with_reducible apply State.t3Set_within | with_reducible apply State.answer_within | fail_if_no_progress ((with_reducible apply within_upd) <;> first | with_reducible exact Or.inl rfl | exact Or.inr (hT (by decide)) | skip) | exact Or.inl (hT (by decide)) | exact Or.inr (hT (by simp)))

theorem State.linkWrite_within {T : List Part} {s0 s : State} (h : State.Within T s0 s) (hT : [.block 13, .notes, .resp, .sl] ⊆ T) (op : Nat) (b : Nat) : State.Within T s0 (State.linkWrite s op b) := by
  unfold State.linkWrite
  repeat' (first | with_reducible assumption | exact part_trans (by decide) hT | with_reducible intro _ | with_reducible apply within_ite | with_reducible apply State.sleepRefuse_within | with_reducible apply State.linkAdd_within | with_reducible apply State.linkRemove_within | exact Or.inl (hT (by decide)) | exact Or.inr (hT (by simp)))

theorem execSleepLinkAdd_within {T : List Part} {s0 s : State} (h : State.Within T s0 s) (hT : [.block 13, .notes, .resp, .sl] ⊆ T) (node : BitVec 18) : WithinRes T s0 (execSleepLinkAdd node s) := by
  unfold execSleepLinkAdd
  repeat' (first | with_reducible assumption | exact part_trans (by decide) hT | intro _ | extract_lets | with_reducible apply withinRes_next | with_reducible apply withinRes_ite | with_reducible apply within_ite | with_reducible apply State.linkWrite_within | fail_if_no_progress ((with_reducible apply within_upd) <;> first | with_reducible exact Or.inl rfl | exact Or.inr (hT (by decide)) | skip) | exact Or.inl (hT (by decide)) | exact Or.inr (hT (by simp)) | split | dsimp +zetaDelta only)

theorem execSleepLinkRemove_within {T : List Part} {s0 s : State} (h : State.Within T s0 s) (hT : [.block 13, .notes, .resp, .sl] ⊆ T) (node : BitVec 18) : WithinRes T s0 (execSleepLinkRemove node s) := by
  unfold execSleepLinkRemove
  repeat' (first | with_reducible assumption | exact part_trans (by decide) hT | intro _ | extract_lets | with_reducible apply withinRes_next | with_reducible apply withinRes_ite | with_reducible apply within_ite | with_reducible apply State.linkWrite_within | fail_if_no_progress ((with_reducible apply within_upd) <;> first | with_reducible exact Or.inl rfl | exact Or.inr (hT (by decide)) | skip) | exact Or.inl (hT (by decide)) | exact Or.inr (hT (by simp)) | split | dsimp +zetaDelta only)

theorem execT3Expiry_within {T : List Part} {s0 s : State} (h : State.Within T s0 s) (hT : [.block 12, .block 13, .block 15, .block 18, .block 21, .freeIx, .mac, .mem, .ms, .mtb, .notes, .out, .pa, .queues, .sl, .tm] ⊆ T) (t : Nat) : WithinRes T s0 (execT3Expiry t s) := by
  unfold execT3Expiry
  repeat' (first | with_reducible assumption | exact part_trans (by decide) hT | intro _ | extract_lets | with_reducible apply withinRes_next | with_reducible apply withinRes_ite | with_reducible apply within_ite | with_reducible apply State.advance_within | with_reducible apply State.sleepEvent_within | with_reducible apply State.bump_within | with_reducible apply State.macTick_within | with_reducible apply State.linkEnds_within | with_reducible apply State.linkCheck_within | with_reducible apply State.sleepAct_within | fail_if_no_progress ((with_reducible apply within_upd) <;> first | with_reducible exact Or.inl rfl | exact Or.inr (hT (by decide)) | skip) | exact Or.inl (hT (by decide)) | exact Or.inr (hT (by simp)) | split | dsimp +zetaDelta only)

theorem execWakeWaitExpiry_within {T : List Part} {s0 s : State} (h : State.Within T s0 s) (hT : [.block 12, .block 13, .block 15, .block 18, .block 21, .freeIx, .mac, .mem, .ms, .mtb, .notes, .out, .pa, .queues, .sl, .tm] ⊆ T) (node : BitVec 18) : WithinRes T s0 (execWakeWaitExpiry node s) := by
  unfold execWakeWaitExpiry
  repeat' (first | with_reducible assumption | exact part_trans (by decide) hT | intro _ | extract_lets | with_reducible apply withinRes_next | with_reducible apply withinRes_ite | with_reducible apply within_ite | with_reducible apply State.advance_within | with_reducible apply State.callFailed_within | with_reducible apply State.macTick_within | with_reducible apply State.slPut_within | with_reducible apply State.t3Set_within | fail_if_no_progress ((with_reducible apply within_upd) <;> first | with_reducible exact Or.inl rfl | exact Or.inr (hT (by decide)) | skip) | exact Or.inl (hT (by decide)) | exact Or.inr (hT (by simp)) | split | dsimp +zetaDelta only)

theorem State.sleepClear_within {T : List Part} {s0 s : State} (h : State.Within T s0 s) (hT : [.block 13, .resp] ⊆ T) : State.Within T s0 (State.sleepClear s) := by
  unfold State.sleepClear
  apply State.answer_within _ (part_trans (by decide) hT)
  refine State.setF_within ?_ _ (Or.inr (hT (by simp))) _
  apply State.each_within_mem h
  intro s a ha hs
  refine State.setReg_within hs _ (Or.inr (hT ?_)) _
  have : regBlock a = 13 := by
    simp only [List.mem_cons, List.not_mem_nil, or_false] at ha
    rcases ha with rfl | rfl | rfl <;> decide
  rw [this]; decide

theorem execSleepCountClear_within {T : List Part} {s0 s : State} (h : State.Within T s0 s) (hT : [.block 13, .resp] ⊆ T) : WithinRes T s0 (execSleepCountClear s) := by
  unfold execSleepCountClear
  repeat' (first | with_reducible assumption | exact part_trans (by decide) hT | intro _ | extract_lets | with_reducible apply withinRes_next | with_reducible apply withinRes_ite | with_reducible apply within_ite | with_reducible apply State.sleepClear_within | fail_if_no_progress ((with_reducible apply within_upd) <;> first | with_reducible exact Or.inl rfl | exact Or.inr (hT (by decide)) | skip) | exact Or.inl (hT (by decide)) | exact Or.inr (hT (by simp)) | split | dsimp +zetaDelta only)

theorem execSleepRebuildStep_within {T : List Part} {s0 s : State} (h : State.Within T s0 s) (hT : [.block 12, .block 13, .block 15, .block 21, .freeIx, .mac, .mem, .ms, .notes, .out, .pa, .queues, .sl] ⊆ T) : WithinRes T s0 (execSleepRebuildStep s) := by
  unfold execSleepRebuildStep
  repeat' (first | with_reducible assumption | exact part_trans (by decide) hT | intro _ | extract_lets | with_reducible apply withinRes_next | with_reducible apply withinRes_ite | with_reducible apply within_ite | with_reducible apply State.setF_within | with_reducible apply State.t3Set_within | with_reducible apply State.cslRebuild_within | with_reducible apply State.addF_within | with_reducible apply State.callSend_within | fail_if_no_progress ((with_reducible apply within_upd) <;> first | with_reducible exact Or.inl rfl | exact Or.inr (hT (by decide)) | skip) | exact Or.inl (hT (by decide)) | exact Or.inr (hT (by simp)) | split | dsimp +zetaDelta only)

theorem execT3CacheRefill_within {T : List Part} {s0 s : State} (h : State.Within T s0 s) (hT : [.sl] ⊆ T) : WithinRes T s0 (execT3CacheRefill s) := by
  unfold execT3CacheRefill
  repeat' (first | with_reducible assumption | exact part_trans (by decide) hT | intro _ | extract_lets | with_reducible apply withinRes_next | with_reducible apply withinRes_ite | with_reducible apply within_ite | fail_if_no_progress ((with_reducible apply within_upd) <;> first | with_reducible exact Or.inl rfl | exact Or.inr (hT (by decide)) | skip) | exact Or.inl (hT (by decide)) | exact Or.inr (hT (by simp)) | split | dsimp +zetaDelta only)

end Sys2Proof.Machine
end

