-- ==== Sys2Proof/Laws/WithinPair.lean ====
section
/-!
SUPPORT. What the operations of the pair and the resets can do: one lemma per operation, which names the
parts of the state that it may touch and says that it keeps the invariant and the queue. A proof about a step cites these and
unfolds none of the operations.
-/
namespace Sys2Proof.Machine
open Sys2Proof
set_option linter.all false
set_option Elab.async false

theorem State.putSetting_within {T : List Part} {s0 s : State} (h : State.Within T s0 s) (hT : [.ry] ⊆ T) (k : Nat) (v : List Nat) : State.Within T s0 (State.putSetting s k v) := by
  unfold State.putSetting
  repeat' (first | with_reducible assumption | exact part_trans (by decide) hT | fail_if_no_progress ((with_reducible apply within_upd) <;> first | with_reducible exact Or.inl rfl | exact Or.inr (hT (by decide)) | skip) | exact Or.inl (hT (by decide)) | exact Or.inr (hT (by simp)))

theorem State.setSetting_within {T : List Part} {s0 s : State} (h : State.Within T s0 s) (hT : [.block 21, .out, .pa, .ry] ⊆ T) (k : Nat) (v : List Nat) : State.Within T s0 (State.setSetting s k v) := by
  unfold State.setSetting
  repeat' (first | with_reducible assumption | exact part_trans (by decide) hT | with_reducible apply State.putSetting_within | with_reducible apply State.journalAdd_within | exact Or.inl (hT (by decide)) | exact Or.inr (hT (by simp)))

theorem State.putRec_within {T : List Part} {s0 s : State} (h : State.Within T s0 s) (hT : [.flash, .ms, .up] ⊆ T) (r : SlotRec) : State.Within T s0 (State.putRec s r) := by
  unfold State.putRec
  repeat' (first | with_reducible assumption | exact part_trans (by decide) hT | exact Or.inl (hT (by decide)) | exact Or.inr (hT (by simp)) | intro _ | extract_lets | with_reducible apply within_ite | with_reducible apply State.erasePages_within | with_reducible apply State.programPages_within | fail_if_no_progress ((with_reducible apply within_upd) <;> first | exact Or.inr (hT (by decide)) | with_reducible exact Or.inl rfl | skip) | split | dsimp +zetaDelta only)

theorem State.sessionAbort_within {T : List Part} {s0 s : State} (h : State.Within T s0 s) (hT : [.block 20, .block 22, .cmp, .freeIx, .notes, .out, .pa, .resp, .ro, .up] ⊆ T) (st : Nat) : State.Within T s0 (State.sessionAbort s st) := by
  unfold State.sessionAbort
  repeat' (first | with_reducible assumption | exact part_trans (by decide) hT | intro _ | extract_lets | with_reducible apply within_ite | with_reducible apply State.raise_within | with_reducible apply State.auditNote_within | with_reducible apply State.amrekOut_within | with_reducible apply State.finishCall_within | fail_if_no_progress ((with_reducible apply within_upd) <;> first | with_reducible exact Or.inl rfl | exact Or.inr (hT (by decide)) | skip) | exact Or.inl (hT (by decide)) | exact Or.inr (hT (by simp)) | split | dsimp +zetaDelta only)

theorem State.peerSessionLost_within {T : List Part} {s0 s : State} (h : State.Within T s0 s) (hT : [.block 20, .block 22, .cmp, .freeIx, .notes, .out, .pa, .resp, .ro, .up] ⊆ T) : State.Within T s0 (State.peerSessionLost s) := by
  unfold State.peerSessionLost
  repeat' (first | with_reducible assumption | exact part_trans (by decide) hT | with_reducible intro _ | with_reducible apply State.sessionAbort_within | exact Or.inl (hT (by decide)) | exact Or.inr (hT (by simp)) | with_reducible split)

theorem State.customerHold_within {T : List Part} {s0 s : State} (h : State.Within T s0 s) (hT : [.block 14, .block 16, .block 21, .freeIx, .ky, .mac, .mem, .ms, .notes, .out, .pa, .pl, .queues] ⊆ T) : State.Within T s0 (State.customerHold s) := by
  unfold State.customerHold
  repeat' (first | with_reducible assumption | exact part_trans (by decide) hT | intro _ | extract_lets | with_reducible apply within_ite | with_reducible apply State.each_within | with_reducible apply State.recordFault_within | with_reducible apply State.useFree_within | with_reducible apply State.unstall_within | with_reducible apply State.afterTask_within | with_reducible apply State.endTask_within | with_reducible apply State.emit_within | with_reducible apply State.raise_within | with_reducible apply State.bump_within | with_reducible apply State.setBobbin_within | fail_if_no_progress ((with_reducible apply within_upd) <;> first | with_reducible exact Or.inl rfl | exact Or.inr (hT (by decide)) | skip) | exact Or.inl (hT (by decide)) | exact Or.inr (hT (by simp)) | split | dsimp +zetaDelta only)

theorem State.callsLost_within {T : List Part} {s0 s : State} (h : State.Within T s0 s) (hT : [.cmp, .resp, .ry] ⊆ T) : State.Within T s0 (State.callsLost s) := by
  unfold State.callsLost
  repeat' (first | with_reducible assumption | exact part_trans (by decide) hT | with_reducible intro _ | with_reducible apply State.each_within | with_reducible apply State.finishCall_within | fail_if_no_progress ((with_reducible apply within_upd) <;> first | with_reducible exact Or.inl rfl | exact Or.inr (hT (by decide)) | skip) | exact Or.inl (hT (by decide)) | exact Or.inr (hT (by simp)))

theorem State.roleLeft_within {T : List Part} {s0 s : State} (h : State.Within T s0 s) (hT : [.block 12, .block 14, .block 15, .block 16, .block 21, .cmp, .freeIx, .ky, .mac, .mem, .ms, .notes, .out, .pa, .pl, .queues, .resp, .ry, .sl] ⊆ T) : State.Within T s0 (State.roleLeft s) := by
  unfold State.roleLeft
  repeat' (first | with_reducible assumption | exact part_trans (by decide) hT | exact Or.inl (hT (by decide)) | exact Or.inr (hT (by simp)) | with_reducible apply State.macFlush_within | with_reducible apply State.customerHold_within | with_reducible apply State.callsLost_within | fail_if_no_progress ((with_reducible apply within_upd) <;> first | exact Or.inr (hT (by decide)) | with_reducible exact Or.inl rfl | skip))

theorem State.roleEntered_within {T : List Part} {s0 s : State} (h : State.Within T s0 s) (hT : [.block 6, .notes, .out, .pl, .sl, .tm] ⊆ T) : State.Within T s0 (State.roleEntered s) := by
  unfold State.roleEntered
  repeat' (first | with_reducible assumption | exact part_trans (by decide) hT | intro _ | extract_lets | with_reducible apply within_ite | with_reducible apply State.reselectOwn_within | with_reducible apply State.startInitRuns_within | fail_if_no_progress ((with_reducible apply within_upd) <;> first | with_reducible exact Or.inl rfl | exact Or.inr (hT (by decide)) | skip) | exact Or.inl (hT (by decide)) | exact Or.inr (hT (by simp)) | split | dsimp +zetaDelta only)

theorem State.setRole_within {T : List Part} {s0 s : State} (h : State.Within T s0 s) (hT : [.block 12, .block 14, .block 15, .block 16, .block 20, .block 21, .block 6, .cmp, .freeIx, .ky, .mac, .mem, .ms, .notes, .out, .pa, .pl, .queues, .resp, .ro, .ry, .sl, .tm] ⊆ T) (new : Nat) : State.Within T s0 (State.setRole s new) := by
  unfold State.setRole
  repeat' (first | with_reducible assumption | exact part_trans (by decide) hT | with_reducible intro _ | with_reducible apply within_ite | with_reducible apply State.setF_within | with_reducible apply State.auditNote_within | with_reducible apply State.raise_within | with_reducible apply State.roleLeft_within | with_reducible apply State.roleEntered_within | with_reducible apply State.standbyTime_within | with_reducible apply State.reselect_within | exact Or.inl (hT (by decide)) | exact Or.inr (hT (by simp)))

theorem State.selfFault_within {T : List Part} {s0 s : State} (h : State.Within T s0 s) (hT : [.block 11, .block 12, .block 14, .block 15, .block 16, .block 20, .block 21, .block 6, .block 7, .cmp, .freeIx, .ky, .mac, .mem, .ms, .mtb, .notes, .out, .pa, .pl, .queues, .rd, .resp, .ro, .ry, .sl, .tm] ⊆ T) : State.Within T s0 (State.selfFault s) := by
  unfold State.selfFault
  repeat' (first | with_reducible assumption | exact part_trans (by decide) hT | intro _ | extract_lets | with_reducible apply within_ite | with_reducible apply State.advance_within | with_reducible apply State.each_within | with_reducible apply State.txCut_within | with_reducible apply State.bump_within | with_reducible apply State.leaseOut_within | with_reducible apply State.setRole_within | fail_if_no_progress ((with_reducible apply within_upd) <;> first | with_reducible exact Or.inl rfl | exact Or.inr (hT (by decide)) | skip) | exact Or.inl (hT (by decide)) | exact Or.inr (hT (by simp)) | split | dsimp +zetaDelta only)

theorem State.leasePathCheck_within {T : List Part} {s0 s : State} (h : State.Within T s0 s) (hT : [.block 11, .block 12, .block 14, .block 15, .block 16, .block 20, .block 21, .block 6, .block 7, .cmp, .freeIx, .ky, .mac, .mem, .ms, .mtb, .notes, .out, .pa, .pl, .queues, .rd, .resp, .ro, .ry, .sl, .tm] ⊆ T) : State.Within T s0 (State.leasePathCheck s) := by
  unfold State.leasePathCheck
  repeat' (first | with_reducible assumption | exact part_trans (by decide) hT | with_reducible intro _ | with_reducible apply within_ite | with_reducible apply State.selfFault_within | exact Or.inl (hT (by decide)) | exact Or.inr (hT (by simp)))

theorem State.onGrant_within {T : List Part} {s0 s : State} (h : State.Within T s0 s) (hT : [.pa] ⊆ T) (k : Nat) : State.Within T s0 (State.onGrant s k) := by
  unfold State.onGrant
  repeat' (first | with_reducible assumption | exact part_trans (by decide) hT | intro _ | extract_lets | with_reducible apply within_ite | fail_if_no_progress ((with_reducible apply within_upd) <;> first | with_reducible exact Or.inl rfl | exact Or.inr (hT (by decide)) | skip) | exact Or.inl (hT (by decide)) | exact Or.inr (hT (by simp)) | split | dsimp +zetaDelta only)

theorem State.leaseSend_within {T : List Part} {s0 s : State} (h : State.Within T s0 s) (hT : [.block 21, .out, .pa] ⊆ T) : State.Within T s0 (State.leaseSend s) := by
  unfold State.leaseSend
  repeat' (first | with_reducible assumption | exact part_trans (by decide) hT | with_reducible intro _ | with_reducible apply within_ite | with_reducible apply State.setF_within | with_reducible apply State.leaseOut_within | with_reducible apply State.onGrant_within | fail_if_no_progress ((with_reducible apply within_upd) <;> first | with_reducible exact Or.inl rfl | exact Or.inr (hT (by decide)) | skip) | exact Or.inl (hT (by decide)) | exact Or.inr (hT (by simp)))

theorem execLeaseRenewDue_within {T : List Part} {s0 s : State} (h : State.Within T s0 s) (hT : [.block 21, .mtb, .out, .pa] ⊆ T) (t : Nat) : WithinRes T s0 (execLeaseRenewDue t s) := by
  unfold execLeaseRenewDue
  repeat' (first | with_reducible assumption | exact part_trans (by decide) hT | intro _ | extract_lets | with_reducible apply withinRes_next | with_reducible apply withinRes_ite | with_reducible apply within_ite | with_reducible apply State.advance_within | with_reducible apply State.leaseSend_within | fail_if_no_progress ((with_reducible apply within_upd) <;> first | with_reducible exact Or.inl rfl | exact Or.inr (hT (by decide)) | skip) | exact Or.inl (hT (by decide)) | exact Or.inr (hT (by simp)) | split | dsimp +zetaDelta only)

theorem State.copyRec_within {T : List Part} {s0 s : State} (h : State.Within T s0 s) (hT : [.out, .pa] ⊆ T) (kind : Nat) (region : Nat) (target : Nat) (data : List Byte) : State.Within T s0 (State.copyRec s kind region target data) := by
  unfold State.copyRec
  repeat' (first | with_reducible assumption | exact part_trans (by decide) hT | intro _ | extract_lets | with_reducible apply within_ite | with_reducible apply State.mirrorOut_within | fail_if_no_progress ((with_reducible apply within_upd) <;> first | with_reducible exact Or.inl rfl | exact Or.inr (hT (by decide)) | skip) | exact Or.inl (hT (by decide)) | exact Or.inr (hT (by simp)) | split | dsimp +zetaDelta only)

theorem State.copyRegion_within {T : List Part} {s0 s : State} (h : State.Within T s0 s) (hT : [.block 21, .out, .pa] ⊆ T) (k : Nat) : State.Within T s0 (State.copyRegion s k) := by
  unfold State.copyRegion
  repeat' (first | with_reducible assumption | exact part_trans (by decide) hT | with_reducible intro _ | with_reducible apply State.each_within | with_reducible apply State.copyRec_within | with_reducible apply State.setF_within | exact Or.inl (hT (by decide)) | exact Or.inr (hT (by simp)))

theorem State.copyRest_within {T : List Part} {s0 s : State} (h : State.Within T s0 s) (hT : [.out, .pa] ⊆ T) : State.Within T s0 (State.copyRest s) := by
  unfold State.copyRest
  repeat' (first | with_reducible assumption | exact part_trans (by decide) hT | with_reducible intro _ | with_reducible apply State.each_within | with_reducible apply State.copyRec_within | exact Or.inl (hT (by decide)) | exact Or.inr (hT (by simp)) | with_reducible split | with_reducible dsimp +zetaDelta only)

theorem State.resyncStart_within {T : List Part} {s0 s : State} (h : State.Within T s0 s) (hT : [.block 21, .out, .pa] ⊆ T) : State.Within T s0 (State.resyncStart s) := by
  unfold State.resyncStart
  repeat' (first | with_reducible assumption | exact part_trans (by decide) hT | with_reducible intro _ | with_reducible apply State.setF_within | with_reducible apply State.each_within | with_reducible apply State.copyRegion_within | with_reducible apply State.copyRest_within | fail_if_no_progress ((with_reducible apply within_upd) <;> first | with_reducible exact Or.inl rfl | exact Or.inr (hT (by decide)) | skip) | exact Or.inl (hT (by decide)) | exact Or.inr (hT (by simp)))

theorem State.resyncEnd_within {T : List Part} {s0 s : State} (h : State.Within T s0 s) (hT : [.block 21, .pa] ⊆ T) : State.Within T s0 (State.resyncEnd s) := by
  unfold State.resyncEnd
  repeat' (first | with_reducible assumption | exact part_trans (by decide) hT | with_reducible apply State.setF_within | fail_if_no_progress ((with_reducible apply within_upd) <;> first | with_reducible exact Or.inl rfl | exact Or.inr (hT (by decide)) | skip) | exact Or.inl (hT (by decide)) | exact Or.inr (hT (by simp)))

theorem State.advertise_within {T : List Part} {s0 s : State} (h : State.Within T s0 s) (hT : [.out] ⊆ T) : State.Within T s0 (State.advertise s) := by
  unfold State.advertise
  repeat' (first | with_reducible assumption | exact part_trans (by decide) hT | intro _ | extract_lets | with_reducible apply within_ite | with_reducible apply State.each_within | with_reducible apply State.emit_within | fail_if_no_progress ((with_reducible apply within_upd) <;> first | with_reducible exact Or.inl rfl | exact Or.inr (hT (by decide)) | skip) | exact Or.inl (hT (by decide)) | exact Or.inr (hT (by simp)) | split | dsimp +zetaDelta only)

theorem State.takeover_within {T : List Part} {s0 s : State} (h : State.Within T s0 s) (hT : [.block 12, .block 13, .block 14, .block 15, .block 16, .block 18, .block 20, .block 21, .block 6, .cmp, .freeIx, .ky, .mac, .mem, .ms, .notes, .out, .pa, .pl, .queues, .resp, .ro, .ry, .sl, .tm] ⊆ T) : State.Within T s0 (State.takeover s) := by
  unfold State.takeover
  repeat' (first | with_reducible assumption | exact part_trans (by decide) hT | intro _ | extract_lets | with_reducible apply within_ite | with_reducible apply State.setRole_within | with_reducible apply State.setF_within | with_reducible apply State.bump_within | with_reducible apply State.raise_within | with_reducible apply State.leaseSend_within | with_reducible apply State.setB_within | with_reducible apply State.raiseIf_within | with_reducible apply State.macTick_within | with_reducible apply State.advertise_within | fail_if_no_progress ((with_reducible apply within_upd) <;> first | with_reducible exact Or.inl rfl | exact Or.inr (hT (by decide)) | skip) | exact Or.inl (hT (by decide)) | exact Or.inr (hT (by simp)) | split | dsimp +zetaDelta only)

theorem State.becomeActive_within {T : List Part} {s0 s : State} (h : State.Within T s0 s) (hT : [.block 12, .block 13, .block 14, .block 15, .block 16, .block 18, .block 20, .block 21, .block 6, .cmp, .freeIx, .ky, .mac, .mem, .ms, .notes, .out, .pa, .pl, .queues, .resp, .ro, .ry, .sl, .tm] ⊆ T) (self : Bool) : State.Within T s0 (State.becomeActive s self) := by
  unfold State.becomeActive
  repeat' (first | with_reducible assumption | exact part_trans (by decide) hT | with_reducible apply State.setF_within | with_reducible apply State.setB_within | with_reducible apply State.setRole_within | with_reducible apply State.leaseSend_within | with_reducible apply State.macTick_within | fail_if_no_progress ((with_reducible apply within_upd) <;> first | with_reducible exact Or.inl rfl | exact Or.inr (hT (by decide)) | skip) | exact Or.inl (hT (by decide)) | exact Or.inr (hT (by simp)))

theorem State.hear_within {T : List Part} {s0 s : State} (h : State.Within T s0 s) (hT : [.block 11, .block 12, .block 13, .block 14, .block 15, .block 16, .block 18, .block 20, .block 21, .block 6, .block 7, .cmp, .freeIx, .ky, .mac, .mem, .ms, .mtb, .notes, .out, .pa, .pl, .queues, .rd, .resp, .ro, .ry, .sl, .tm] ⊆ T) (role : Nat) : State.Within T s0 (State.hear s role) := by
  unfold State.hear
  repeat' (first | with_reducible assumption | exact part_trans (by decide) hT | with_reducible intro _ | with_reducible apply within_ite | with_reducible apply State.setF_within | with_reducible apply State.raise_within | with_reducible apply State.setRole_within | with_reducible apply State.setB_within | with_reducible apply State.becomeActive_within | with_reducible apply State.selfFault_within | with_reducible apply State.resyncEnd_within | with_reducible apply State.resyncStart_within | fail_if_no_progress ((with_reducible apply within_upd) <;> first | with_reducible exact Or.inl rfl | exact Or.inr (hT (by decide)) | skip) | exact Or.inl (hT (by decide)) | exact Or.inr (hT (by simp)) | with_reducible split)

theorem State.goStale_within {T : List Part} {s0 s : State} (h : State.Within T s0 s) (hT : [.block 12, .block 14, .block 15, .block 16, .block 20, .block 21, .block 6, .cmp, .freeIx, .ky, .mac, .mem, .ms, .notes, .out, .pa, .pl, .queues, .resp, .ro, .ry, .sl, .tm] ⊆ T) : State.Within T s0 (State.goStale s) := by
  unfold State.goStale
  repeat' (first | with_reducible assumption | exact part_trans (by decide) hT | with_reducible intro _ | with_reducible apply within_ite | with_reducible apply State.setRole_within | with_reducible apply State.raise_within | exact Or.inl (hT (by decide)) | exact Or.inr (hT (by simp)))

theorem State.renewRx_within {T : List Part} {s0 s : State} (h : State.Within T s0 s) (hT : [.block 11, .block 12, .block 13, .block 14, .block 15, .block 16, .block 18, .block 20, .block 21, .block 6, .block 7, .cmp, .freeIx, .ky, .mac, .mem, .ms, .mtb, .notes, .out, .pa, .pl, .queues, .rd, .resp, .ro, .ry, .sl, .tm] ⊆ T) (wit : Bool) (role : Nat) (count : Nat) (ext : Nat) : State.Within T s0 (State.renewRx s wit role count ext) := by
  unfold State.renewRx
  repeat' (first | with_reducible assumption | exact part_trans (by decide) hT | intro _ | extract_lets | with_reducible apply within_ite | with_reducible apply State.hear_within | with_reducible apply State.setF_within | with_reducible apply State.leaseWitness_within | with_reducible apply State.leaseTie_within | fail_if_no_progress ((with_reducible apply within_upd) <;> first | with_reducible exact Or.inl rfl | exact Or.inr (hT (by decide)) | skip) | exact Or.inl (hT (by decide)) | exact Or.inr (hT (by simp)) | split | dsimp +zetaDelta only)

theorem State.grantRx_within {T : List Part} {s0 s : State} (h : State.Within T s0 s) (hT : [.block 11, .block 12, .block 13, .block 14, .block 15, .block 16, .block 18, .block 20, .block 21, .block 6, .block 7, .cmp, .freeIx, .ky, .mac, .mem, .ms, .mtb, .notes, .out, .pa, .pl, .queues, .rd, .resp, .ro, .ry, .sl, .tm] ⊆ T) (role : Nat) (count : Nat) : State.Within T s0 (State.grantRx s role count) := by
  unfold State.grantRx
  repeat' (first | with_reducible assumption | exact part_trans (by decide) hT | with_reducible intro _ | with_reducible apply within_ite | with_reducible apply State.hear_within | with_reducible apply State.setF_within | with_reducible apply State.onGrant_within | with_reducible apply State.macTick_within | fail_if_no_progress ((with_reducible apply within_upd) <;> first | with_reducible exact Or.inl rfl | exact Or.inr (hT (by decide)) | skip) | exact Or.inl (hT (by decide)) | exact Or.inr (hT (by simp)))

theorem State.resignRx_within {T : List Part} {s0 s : State} (h : State.Within T s0 s) (hT : [.block 11, .block 12, .block 13, .block 14, .block 15, .block 16, .block 18, .block 20, .block 21, .block 6, .block 7, .cmp, .freeIx, .ky, .mac, .mem, .ms, .mtb, .notes, .out, .pa, .pl, .queues, .rd, .resp, .ro, .ry, .sl, .tm] ⊆ T) (role : Nat) : State.Within T s0 (State.resignRx s role) := by
  unfold State.resignRx
  repeat' (first | with_reducible assumption | exact part_trans (by decide) hT | with_reducible intro _ | with_reducible apply within_ite | with_reducible apply State.hear_within | with_reducible apply State.advance_within | with_reducible apply State.takeover_within | exact Or.inl (hT (by decide)) | exact Or.inr (hT (by simp)))

theorem execRenewRx_within {T : List Part} {s0 s : State} (h : State.Within T s0 s) (hT : [.block 11, .block 12, .block 13, .block 14, .block 15, .block 16, .block 18, .block 20, .block 21, .block 6, .block 7, .cmp, .freeIx, .ky, .mac, .mem, .ms, .mtb, .notes, .out, .pa, .pl, .queues, .rd, .resp, .ro, .ry, .sl, .tm] ⊆ T) (role : Fin 8) (count : Fin 65536) (ext : Fin 4194304) (t : Nat) : WithinRes T s0 (execRenewRx role count ext t s) := by
  unfold execRenewRx
  repeat' (first | with_reducible assumption | exact part_trans (by decide) hT | intro _ | extract_lets | with_reducible apply withinRes_next | with_reducible apply withinRes_ite | with_reducible apply within_ite | with_reducible apply State.advance_within | with_reducible apply State.renewRx_within | fail_if_no_progress ((with_reducible apply within_upd) <;> first | with_reducible exact Or.inl rfl | exact Or.inr (hT (by decide)) | skip) | exact Or.inl (hT (by decide)) | exact Or.inr (hT (by simp)) | split | dsimp +zetaDelta only)

theorem execGrantRx_within {T : List Part} {s0 s : State} (h : State.Within T s0 s) (hT : [.block 11, .block 12, .block 13, .block 14, .block 15, .block 16, .block 18, .block 20, .block 21, .block 6, .block 7, .cmp, .freeIx, .ky, .mac, .mem, .ms, .mtb, .notes, .out, .pa, .pl, .queues, .rd, .resp, .ro, .ry, .sl, .tm] ⊆ T) (role : Fin 8) (count : Fin 65536) (t : Nat) : WithinRes T s0 (execGrantRx role count t s) := by
  unfold execGrantRx
  repeat' (first | with_reducible assumption | exact part_trans (by decide) hT | intro _ | extract_lets | with_reducible apply withinRes_next | with_reducible apply withinRes_ite | with_reducible apply within_ite | with_reducible apply State.advance_within | with_reducible apply State.grantRx_within | fail_if_no_progress ((with_reducible apply within_upd) <;> first | with_reducible exact Or.inl rfl | exact Or.inr (hT (by decide)) | skip) | exact Or.inl (hT (by decide)) | exact Or.inr (hT (by simp)) | split | dsimp +zetaDelta only)

theorem execResignRx_within {T : List Part} {s0 s : State} (h : State.Within T s0 s) (hT : [.block 11, .block 12, .block 13, .block 14, .block 15, .block 16, .block 18, .block 20, .block 21, .block 6, .block 7, .cmp, .freeIx, .ky, .mac, .mem, .ms, .mtb, .notes, .out, .pa, .pl, .queues, .rd, .resp, .ro, .ry, .sl, .tm] ⊆ T) (role : Fin 8) (t : Nat) : WithinRes T s0 (execResignRx role t s) := by
  unfold execResignRx
  repeat' (first | with_reducible assumption | exact part_trans (by decide) hT | intro _ | extract_lets | with_reducible apply withinRes_next | with_reducible apply withinRes_ite | with_reducible apply within_ite | with_reducible apply State.advance_within | with_reducible apply State.resignRx_within | fail_if_no_progress ((with_reducible apply within_upd) <;> first | with_reducible exact Or.inl rfl | exact Or.inr (hT (by decide)) | skip) | exact Or.inl (hT (by decide)) | exact Or.inr (hT (by simp)) | split | dsimp +zetaDelta only)

theorem execMarkStaleRx_within {T : List Part} {s0 s : State} (h : State.Within T s0 s) (hT : [.block 11, .block 12, .block 13, .block 14, .block 15, .block 16, .block 18, .block 20, .block 21, .block 6, .block 7, .cmp, .freeIx, .ky, .mac, .mem, .ms, .mtb, .notes, .out, .pa, .pl, .queues, .rd, .resp, .ro, .ry, .sl, .tm] ⊆ T) (role : Fin 8) (t : Nat) : WithinRes T s0 (execMarkStaleRx role t s) := by
  unfold execMarkStaleRx
  repeat' (first | with_reducible assumption | exact part_trans (by decide) hT | intro _ | extract_lets | with_reducible apply withinRes_next | with_reducible apply withinRes_ite | with_reducible apply within_ite | with_reducible apply State.advance_within | with_reducible apply State.hear_within | with_reducible apply State.goStale_within | fail_if_no_progress ((with_reducible apply within_upd) <;> first | with_reducible exact Or.inl rfl | exact Or.inr (hT (by decide)) | skip) | exact Or.inl (hT (by decide)) | exact Or.inr (hT (by simp)) | split | dsimp +zetaDelta only)

theorem execWitnessDatagramRx_within {T : List Part} {s0 s : State} (h : State.Within T s0 s) (hT : [.block 11, .block 12, .block 13, .block 14, .block 15, .block 16, .block 18, .block 20, .block 21, .block 6, .block 7, .cmp, .freeIx, .ky, .mac, .mem, .ms, .mtb, .notes, .out, .pa, .pl, .queues, .rd, .resp, .ro, .ry, .sl, .tm] ⊆ T) (kind : Fin 8) (role : Fin 8) (count : Fin 65536) (ext : Fin 4194304) (seq : Nat) (tagOk : Bool) (t : Nat) : WithinRes T s0 (execWitnessDatagramRx kind role count ext seq tagOk t s) := by
  unfold execWitnessDatagramRx
  repeat' (first | with_reducible assumption | exact part_trans (by decide) hT | intro _ | extract_lets | with_reducible apply withinRes_next | with_reducible apply withinRes_ite | with_reducible apply within_ite | with_reducible apply State.advance_within | with_reducible apply State.raise_within | with_reducible apply State.bump_within | with_reducible apply State.renewRx_within | with_reducible apply State.goStale_within | with_reducible apply State.grantRx_within | with_reducible apply State.resignRx_within | with_reducible apply State.hear_within | fail_if_no_progress ((with_reducible apply within_upd) <;> first | with_reducible exact Or.inl rfl | exact Or.inr (hT (by decide)) | skip) | exact Or.inl (hT (by decide)) | exact Or.inr (hT (by simp)) | split | dsimp +zetaDelta only)

theorem execPeerSilentTimeout_within {T : List Part} {s0 s : State} (h : State.Within T s0 s) (hT : [.block 12, .block 13, .block 15, .block 18, .block 21, .freeIx, .mac, .mem, .ms, .mtb, .notes, .out, .pa, .queues, .sl, .tm] ⊆ T) (t : Nat) : WithinRes T s0 (execPeerSilentTimeout t s) := by
  unfold execPeerSilentTimeout
  repeat' (first | with_reducible assumption | exact part_trans (by decide) hT | intro _ | extract_lets | with_reducible apply withinRes_next | with_reducible apply withinRes_ite | with_reducible apply within_ite | with_reducible apply State.advance_within | with_reducible apply State.setF_within | with_reducible apply State.raise_within | with_reducible apply State.macTick_within | fail_if_no_progress ((with_reducible apply within_upd) <;> first | with_reducible exact Or.inl rfl | exact Or.inr (hT (by decide)) | skip) | exact Or.inl (hT (by decide)) | exact Or.inr (hT (by simp)) | split | dsimp +zetaDelta only)

theorem execTakeoverInstant_within {T : List Part} {s0 s : State} (h : State.Within T s0 s) (hT : [.block 12, .block 13, .block 14, .block 15, .block 16, .block 18, .block 20, .block 21, .block 6, .cmp, .freeIx, .ky, .mac, .mem, .ms, .mtb, .notes, .out, .pa, .pl, .queues, .resp, .ro, .ry, .sl, .tm] ⊆ T) (t : Nat) : WithinRes T s0 (execTakeoverInstant t s) := by
  unfold execTakeoverInstant
  repeat' (first | with_reducible assumption | exact part_trans (by decide) hT | intro _ | extract_lets | with_reducible apply withinRes_next | with_reducible apply withinRes_ite | with_reducible apply within_ite | with_reducible apply State.advance_within | with_reducible apply State.takeover_within | fail_if_no_progress ((with_reducible apply within_upd) <;> first | with_reducible exact Or.inl rfl | exact Or.inr (hT (by decide)) | skip) | exact Or.inl (hT (by decide)) | exact Or.inr (hT (by simp)) | split | dsimp +zetaDelta only)

theorem execAloneTimeout_within {T : List Part} {s0 s : State} (h : State.Within T s0 s) (hT : [.block 12, .block 13, .block 14, .block 15, .block 16, .block 18, .block 20, .block 21, .block 6, .cmp, .freeIx, .ky, .mac, .mem, .ms, .mtb, .notes, .out, .pa, .pl, .queues, .resp, .ro, .ry, .sl, .tm] ⊆ T) (t : Nat) : WithinRes T s0 (execAloneTimeout t s) := by
  unfold execAloneTimeout
  repeat' (first | with_reducible assumption | exact part_trans (by decide) hT | intro _ | extract_lets | with_reducible apply withinRes_next | with_reducible apply withinRes_ite | with_reducible apply within_ite | with_reducible apply State.advance_within | with_reducible apply State.becomeActive_within | fail_if_no_progress ((with_reducible apply within_upd) <;> first | with_reducible exact Or.inl rfl | exact Or.inr (hT (by decide)) | skip) | exact Or.inl (hT (by decide)) | exact Or.inr (hT (by simp)) | split | dsimp +zetaDelta only)

theorem execOutputStopTime_within {T : List Part} {s0 s : State} (h : State.Within T s0 s) (hT : [.block 11, .block 12, .block 14, .block 15, .block 16, .block 20, .block 21, .block 6, .block 7, .cmp, .freeIx, .ky, .mac, .mem, .ms, .mtb, .notes, .out, .pa, .pl, .queues, .rd, .resp, .ro, .ry, .sl, .tm] ⊆ T) (t : Nat) : WithinRes T s0 (execOutputStopTime t s) := by
  unfold execOutputStopTime
  repeat' (first | with_reducible assumption | exact part_trans (by decide) hT | intro _ | extract_lets | with_reducible apply withinRes_next | with_reducible apply withinRes_ite | with_reducible apply within_ite | with_reducible apply State.advance_within | with_reducible apply State.each_within | with_reducible apply State.txCut_within | with_reducible apply State.setRole_within | with_reducible apply State.raise_within | fail_if_no_progress ((with_reducible apply within_upd) <;> first | with_reducible exact Or.inl rfl | exact Or.inr (hT (by decide)) | skip) | exact Or.inl (hT (by decide)) | exact Or.inr (hT (by simp)) | split | dsimp +zetaDelta only)

theorem State.hello_within {T : List Part} {s0 s : State} (h : State.Within T s0 s) (hT : [.out, .pa] ⊆ T) : State.Within T s0 (State.hello s) := by
  unfold State.hello
  repeat' (first | with_reducible assumption | exact part_trans (by decide) hT | intro _ | extract_lets | with_reducible apply within_ite | with_reducible apply State.amrekOut_within | fail_if_no_progress ((with_reducible apply within_upd) <;> first | with_reducible exact Or.inl rfl | exact Or.inr (hT (by decide)) | skip) | exact Or.inl (hT (by decide)) | exact Or.inr (hT (by simp)) | split | dsimp +zetaDelta only)

theorem execHelloSend_within {T : List Part} {s0 s : State} (h : State.Within T s0 s) (hT : [.mtb, .out, .pa] ⊆ T) (t : Nat) : WithinRes T s0 (execHelloSend t s) := by
  unfold execHelloSend
  repeat' (first | with_reducible assumption | exact part_trans (by decide) hT | intro _ | extract_lets | with_reducible apply withinRes_next | with_reducible apply withinRes_ite | with_reducible apply within_ite | with_reducible apply State.advance_within | with_reducible apply State.hello_within | fail_if_no_progress ((with_reducible apply within_upd) <;> first | with_reducible exact Or.inl rfl | exact Or.inr (hT (by decide)) | skip) | exact Or.inl (hT (by decide)) | exact Or.inr (hT (by simp)) | split | dsimp +zetaDelta only)

theorem execHelloRx_within {T : List Part} {s0 s : State} (h : State.Within T s0 s) (hT : [.block 11, .block 12, .block 13, .block 14, .block 15, .block 16, .block 18, .block 20, .block 21, .block 5, .block 6, .block 7, .cmp, .freeIx, .ky, .mac, .mem, .ms, .mtb, .notes, .out, .pa, .pl, .queues, .rd, .resp, .ro, .ry, .sl, .tm] ⊆ T) (digest : BitVec 256) (eui : BitVec 64) (role : Fin 8) (pref : Bool) (t : Nat) : WithinRes T s0 (execHelloRx digest eui role pref t s) := by
  unfold execHelloRx
  repeat' (first | with_reducible assumption | exact part_trans (by decide) hT | intro _ | extract_lets | with_reducible apply withinRes_next | with_reducible apply withinRes_ite | with_reducible apply within_ite | with_reducible apply State.advance_within | with_reducible apply State.setF_within | with_reducible apply State.setB_within | with_reducible apply State.hear_within | fail_if_no_progress ((with_reducible apply within_upd) <;> first | with_reducible exact Or.inl rfl | exact Or.inr (hT (by decide)) | skip) | exact Or.inl (hT (by decide)) | exact Or.inr (hT (by simp)) | split | dsimp +zetaDelta only)

theorem State.keyxStart_within {T : List Part} {s0 s : State} (h : State.Within T s0 s) (hT : [.block 18, .freeIx, .out, .pa] ⊆ T) : State.Within T s0 (State.keyxStart s) := by
  unfold State.keyxStart
  repeat' (first | with_reducible assumption | exact part_trans (by decide) hT | intro _ | extract_lets | with_reducible apply within_ite | with_reducible apply State.drbgUse_within | with_reducible apply State.emit_within | with_reducible apply State.useFree_within | fail_if_no_progress ((with_reducible apply within_upd) <;> first | with_reducible exact Or.inl rfl | exact Or.inr (hT (by decide)) | skip) | exact Or.inl (hT (by decide)) | exact Or.inr (hT (by simp)) | split | dsimp +zetaDelta only)

theorem State.keyxCipher_within {T : List Part} {s0 s : State} (h : State.Within T s0 s) (hT : [.block 18, .freeIx, .out] ⊆ T) : State.Within T s0 (State.keyxCipher s) := by
  unfold State.keyxCipher
  repeat' (first | with_reducible assumption | exact part_trans (by decide) hT | intro _ | extract_lets | with_reducible apply within_ite | with_reducible apply State.drbgUse_within | with_reducible apply State.emit_within | with_reducible apply State.useFree_within | fail_if_no_progress ((with_reducible apply within_upd) <;> first | with_reducible exact Or.inl rfl | exact Or.inr (hT (by decide)) | skip) | exact Or.inl (hT (by decide)) | exact Or.inr (hT (by simp)) | split | dsimp +zetaDelta only)

theorem execKeyxRx_within {T : List Part} {s0 s : State} (h : State.Within T s0 s) (hT : [.block 11, .block 12, .block 13, .block 14, .block 15, .block 16, .block 18, .block 20, .block 21, .block 6, .block 7, .cmp, .freeIx, .ky, .mac, .mem, .ms, .mtb, .notes, .out, .pa, .pl, .queues, .rd, .resp, .ro, .ry, .sl, .tm] ⊆ T) (ok : Bool) (secret : BitVec 256) (peerEui : BitVec 64) (t : Nat) : WithinRes T s0 (execKeyxRx ok secret peerEui t s) := by
  unfold execKeyxRx
  repeat' (first | with_reducible assumption | exact part_trans (by decide) hT | intro _ | extract_lets | with_reducible apply withinRes_next | with_reducible apply withinRes_ite | with_reducible apply within_ite | with_reducible apply State.advance_within | with_reducible apply State.setF_within | with_reducible apply State.raise_within | with_reducible apply State.keyxCipher_within | with_reducible apply State.hear_within | fail_if_no_progress ((with_reducible apply within_upd) <;> first | with_reducible exact Or.inl rfl | exact Or.inr (hT (by decide)) | skip) | exact Or.inl (hT (by decide)) | exact Or.inr (hT (by simp)) | split | dsimp +zetaDelta only)

theorem State.storeKeep_within {T : List Part} {s0 s : State} (h : State.Within T s0 s) (hT : [.block 16, .ky, .ms] ⊆ T) (ws : List KeyWrite) : State.Within T s0 (State.storeKeep s ws) := by
  unfold State.storeKeep
  repeat' (first | with_reducible assumption | exact part_trans (by decide) hT | intro _ | extract_lets | with_reducible apply within_ite | with_reducible apply State.nandSubmit_within | fail_if_no_progress ((with_reducible apply within_upd) <;> first | with_reducible exact Or.inl rfl | exact Or.inr (hT (by decide)) | skip) | exact Or.inl (hT (by decide)) | exact Or.inr (hT (by simp)) | split | dsimp +zetaDelta only)

theorem State.hashPut_within {T : List Part} {s0 s : State} (h : State.Within T s0 s) (hT : [.block 14, .block 17, .block 21, .gd, .mem, .notes, .out, .pa, .pl] ⊆ T) (e : HashEntry) : Within1 T s0 (State.hashPut s e) := by
  unfold State.hashPut
  repeat' (first | with_reducible assumption | exact part_trans (by decide) hT | with_reducible apply within1_ite | with_reducible refine State.hashInsert_within ?_ ?_ (by assumption) | with_reducible apply State.bump_within | with_reducible apply State.raise_within | with_reducible apply State.addF_within | with_reducible apply State.altInsert_within | with_reducible apply State.journalAdd_within | with_reducible apply within1_ite | with_reducible apply within2_ite | with_reducible apply withinO_some | with_reducible apply withinO_none | with_reducible apply withinO_ite | fail_if_no_progress ((with_reducible apply within_upd) <;> first | with_reducible exact Or.inl rfl | exact Or.inr (hT (by decide)) | skip) | with_reducible split | with_reducible dsimp +zetaDelta only | with_reducible apply within1_mk | with_reducible apply within2_mk | exact Or.inl (hT (by decide)) | exact Or.inr (hT (by simp)))

theorem State.hashTake_within {T : List Part} {s0 s : State} (h : State.Within T s0 s) (hT : [.block 21, .gd, .mem, .out, .pa] ⊆ T) (key : Nat) (typ : Nat) : State.Within T s0 (State.hashTake s key typ) := by
  unfold State.hashTake
  repeat' (first | with_reducible assumption | exact part_trans (by decide) hT | with_reducible intro _ | with_reducible apply State.hashDelete_within | with_reducible refine within1_elim (by assumption) (State.hashDelete_within ?_ ?_ _ _ _ _) | with_reducible apply within1_fst | with_reducible apply State.journalAdd_within | with_reducible apply within1_ite | with_reducible apply within2_ite | with_reducible apply withinO_some | with_reducible apply withinO_none | with_reducible apply withinO_ite | fail_if_no_progress ((with_reducible apply within_upd) <;> first | with_reducible exact Or.inl rfl | exact Or.inr (hT (by decide)) | skip) | with_reducible split | with_reducible apply within1_mk | with_reducible apply within2_mk | exact Or.inl (hT (by decide)) | exact Or.inr (hT (by simp)))

theorem State.mirrorWrite_within {T : List Part} {s0 s : State} (h : State.Within T s0 s) (hT : [.mem] ⊆ T) (region : Nat) (off : Nat) (data : List Byte) : State.Within T s0 (State.mirrorWrite s region off data) := by
  unfold State.mirrorWrite
  repeat' (first | with_reducible assumption | exact part_trans (by decide) hT | with_reducible intro _ | with_reducible apply within_ite | with_reducible apply State.each_within | with_reducible apply State.writeByte_within | exact Or.inl (hT (by decide)) | exact Or.inr (hT (by simp)))

theorem State.mirrorKey_within {T : List Part} {s0 s : State} (h : State.Within T s0 s) (hT : [.block 16, .ky, .ms] ⊆ T) (r : MirrorRec) : State.Within T s0 (State.mirrorKey s r) := by
  unfold State.mirrorKey
  repeat' (first | with_reducible assumption | exact part_trans (by decide) hT | intro _ | extract_lets | with_reducible apply within_ite | with_reducible apply State.putSlot_within | with_reducible apply State.storeKeep_within | fail_if_no_progress ((with_reducible apply within_upd) <;> first | with_reducible exact Or.inl rfl | exact Or.inr (hT (by decide)) | skip) | exact Or.inl (hT (by decide)) | exact Or.inr (hT (by simp)) | split | dsimp +zetaDelta only)

theorem State.mirrorApply_within {T : List Part} {s0 s : State} (h : State.Within T s0 s) (hT : [.block 14, .block 16, .block 17, .block 21, .gd, .ky, .mem, .ms, .notes, .out, .pa, .pl, .ry] ⊆ T) (r : MirrorRec) : State.Within T s0 (State.mirrorApply s r) := by
  unfold State.mirrorApply
  repeat' (first | with_reducible assumption | exact part_trans (by decide) hT | intro _ | extract_lets | with_reducible apply within_ite | with_reducible apply State.mirrorWrite_within | with_reducible apply State.hashPut_within | refine within1_elim (by with_reducible assumption) (State.hashPut_within ?_ ?_ _) | with_reducible apply State.hashTake_within | with_reducible apply State.mirrorKey_within | with_reducible apply State.storeKeep_within | with_reducible apply State.delSlot_within | with_reducible apply State.putSetting_within | with_reducible apply within1_fst | fail_if_no_progress ((with_reducible apply within_upd) <;> first | with_reducible exact Or.inl rfl | exact Or.inr (hT (by decide)) | skip) | exact Or.inl (hT (by decide)) | exact Or.inr (hT (by simp)) | split | dsimp +zetaDelta only)

theorem State.mirrorTake_within {T : List Part} {s0 s : State} (h : State.Within T s0 s) (hT : [.block 14, .block 16, .block 17, .block 21, .gd, .ky, .mem, .ms, .notes, .out, .pa, .pl, .ry] ⊆ T) (r : MirrorRec) : State.Within T s0 (State.mirrorTake s r) := by
  unfold State.mirrorTake
  repeat' (first | with_reducible assumption | exact part_trans (by decide) hT | intro _ | extract_lets | with_reducible apply within_ite | with_reducible apply State.mirrorApply_within | with_reducible apply State.setF_within | fail_if_no_progress ((with_reducible apply within_upd) <;> first | with_reducible exact Or.inl rfl | exact Or.inr (hT (by decide)) | skip) | exact Or.inl (hT (by decide)) | exact Or.inr (hT (by simp)) | split | dsimp +zetaDelta only)

theorem execMirrorFrameRx_within {T : List Part} {s0 s : State} (h : State.Within T s0 s) (hT : [.block 11, .block 12, .block 13, .block 14, .block 15, .block 16, .block 17, .block 18, .block 20, .block 21, .block 6, .block 7, .cmp, .freeIx, .gd, .ky, .mac, .mem, .ms, .mtb, .notes, .out, .pa, .pl, .queues, .rd, .resp, .ro, .ry, .sl, .tm] ⊆ T) (records : List MirrorRec) (t : Nat) : WithinRes T s0 (execMirrorFrameRx records t s) := by
  unfold execMirrorFrameRx
  repeat' (first | with_reducible assumption | exact part_trans (by decide) hT | intro _ | extract_lets | with_reducible apply withinRes_next | with_reducible apply withinRes_ite | with_reducible apply within_ite | with_reducible apply State.advance_within | with_reducible apply State.each_within | with_reducible apply State.mirrorTake_within | with_reducible apply State.amrekOut_within | with_reducible apply State.hear_within | fail_if_no_progress ((with_reducible apply within_upd) <;> first | with_reducible exact Or.inl rfl | exact Or.inr (hT (by decide)) | skip) | exact Or.inl (hT (by decide)) | exact Or.inr (hT (by simp)) | split | dsimp +zetaDelta only)

theorem execMirrorAckRx_within {T : List Part} {s0 s : State} (h : State.Within T s0 s) (hT : [.block 11, .block 12, .block 13, .block 14, .block 15, .block 16, .block 18, .block 20, .block 21, .block 6, .block 7, .cmp, .freeIx, .ky, .mac, .mem, .ms, .mtb, .notes, .out, .pa, .pl, .queues, .rd, .resp, .ro, .ry, .sl, .tm] ⊆ T) (seq : Nat) (t : Nat) : WithinRes T s0 (execMirrorAckRx seq t s) := by
  unfold execMirrorAckRx
  repeat' (first | with_reducible assumption | exact part_trans (by decide) hT | intro _ | extract_lets | with_reducible apply withinRes_next | with_reducible apply withinRes_ite | with_reducible apply within_ite | with_reducible apply State.advance_within | with_reducible apply State.hear_within | with_reducible apply State.macTick_within | fail_if_no_progress ((with_reducible apply within_upd) <;> first | with_reducible exact Or.inl rfl | exact Or.inr (hT (by decide)) | skip) | exact Or.inl (hT (by decide)) | exact Or.inr (hT (by simp)) | split | dsimp +zetaDelta only)

theorem execFixScanStep_within {T : List Part} {s0 s : State} (h : State.Within T s0 s) (hT : [.block 21, .mem, .out, .pa] ⊆ T) : WithinRes T s0 (execFixScanStep s) := by
  unfold execFixScanStep
  repeat' (first | with_reducible assumption | exact part_trans (by decide) hT | intro _ | extract_lets | with_reducible apply withinRes_next | with_reducible apply withinRes_ite | with_reducible apply within_ite | with_reducible apply State.setF_within | with_reducible apply State.fixNode_within | fail_if_no_progress ((with_reducible apply within_upd) <;> first | with_reducible exact Or.inl rfl | exact Or.inr (hT (by decide)) | skip) | exact Or.inl (hT (by decide)) | exact Or.inr (hT (by simp)) | split | dsimp +zetaDelta only)

theorem execNaRepeat_within {T : List Part} {s0 s : State} (h : State.Within T s0 s) (hT : [.mtb, .out, .pa] ⊆ T) (t : Nat) : WithinRes T s0 (execNaRepeat t s) := by
  unfold execNaRepeat
  repeat' (first | with_reducible assumption | exact part_trans (by decide) hT | intro _ | extract_lets | with_reducible apply withinRes_next | with_reducible apply withinRes_ite | with_reducible apply within_ite | with_reducible apply State.advance_within | with_reducible apply State.advertise_within | fail_if_no_progress ((with_reducible apply within_upd) <;> first | with_reducible exact Or.inl rfl | exact Or.inr (hT (by decide)) | skip) | exact Or.inl (hT (by decide)) | exact Or.inr (hT (by simp)) | split | dsimp +zetaDelta only)

theorem State.rebuildHash_within {T : List Part} {s0 s : State} (h : State.Within T s0 s) (hT : [.block 14, .block 17, .block 21, .gd, .mem, .notes, .out, .pa, .pl] ⊆ T) : State.Within T s0 (State.rebuildHash s) := by
  unfold State.rebuildHash
  repeat' (first | with_reducible assumption | exact part_trans (by decide) hT | with_reducible intro _ | with_reducible apply within_ite | with_reducible apply State.dropMem_within | with_reducible apply State.each_within | with_reducible apply State.hashPut_within | with_reducible apply within1_fst | with_reducible apply within1_ite | with_reducible apply within2_ite | with_reducible apply withinO_some | with_reducible apply withinO_none | with_reducible apply withinO_ite | fail_if_no_progress ((with_reducible apply within_upd) <;> first | with_reducible exact Or.inl rfl | exact Or.inr (hT (by decide)) | skip) | with_reducible apply within1_mk | with_reducible apply within2_mk | exact Or.inl (hT (by decide)) | exact Or.inr (hT (by simp)))

theorem execResyncComplete_within {T : List Part} {s0 s : State} (h : State.Within T s0 s) (hT : [.block 12, .block 14, .block 15, .block 16, .block 17, .block 20, .block 21, .block 6, .cmp, .freeIx, .gd, .ky, .mac, .mem, .ms, .mtb, .notes, .out, .pa, .pl, .queues, .resp, .ro, .ry, .sl, .tm] ⊆ T) (t : Nat) : WithinRes T s0 (execResyncComplete t s) := by
  unfold execResyncComplete
  repeat' (first | with_reducible assumption | exact part_trans (by decide) hT | intro _ | extract_lets | with_reducible apply withinRes_next | with_reducible apply withinRes_ite | with_reducible apply within_ite | with_reducible apply State.advance_within | with_reducible apply State.rebuildHash_within | with_reducible apply State.setF_within | with_reducible apply State.setRole_within | with_reducible apply State.raise_within | fail_if_no_progress ((with_reducible apply within_upd) <;> first | with_reducible exact Or.inl rfl | exact Or.inr (hT (by decide)) | skip) | exact Or.inl (hT (by decide)) | exact Or.inr (hT (by simp)) | split | dsimp +zetaDelta only)

theorem State.tieUp_within {T : List Part} {s0 s : State} (h : State.Within T s0 s) (hT : [.block 18, .block 21, .freeIx, .out, .pa] ⊆ T) : State.Within T s0 (State.tieUp s) := by
  unfold State.tieUp
  repeat' (first | with_reducible assumption | exact part_trans (by decide) hT | intro _ | extract_lets | with_reducible apply within_ite | with_reducible apply State.setF_within | with_reducible apply State.keyxStart_within | with_reducible apply State.hello_within | fail_if_no_progress ((with_reducible apply within_upd) <;> first | with_reducible exact Or.inl rfl | exact Or.inr (hT (by decide)) | skip) | exact Or.inl (hT (by decide)) | exact Or.inr (hT (by simp)) | split | dsimp +zetaDelta only)

theorem State.tieDown_within {T : List Part} {s0 s : State} (h : State.Within T s0 s) (hT : [.block 11, .block 12, .block 14, .block 15, .block 16, .block 20, .block 21, .block 22, .block 6, .block 7, .cmp, .freeIx, .ky, .mac, .mem, .ms, .mtb, .notes, .out, .pa, .pl, .queues, .rd, .resp, .ro, .ry, .sl, .tm, .up] ⊆ T) : State.Within T s0 (State.tieDown s) := by
  unfold State.tieDown
  repeat' (first | with_reducible assumption | exact part_trans (by decide) hT | intro _ | extract_lets | with_reducible apply within_ite | with_reducible apply State.setF_within | with_reducible apply State.peerSessionLost_within | with_reducible apply State.rejudge_within | with_reducible apply State.reselect_within | with_reducible apply State.raise_within | with_reducible apply State.leasePathCheck_within | fail_if_no_progress ((with_reducible apply within_upd) <;> first | with_reducible exact Or.inl rfl | exact Or.inr (hT (by decide)) | skip) | exact Or.inl (hT (by decide)) | exact Or.inr (hT (by simp)) | split | dsimp +zetaDelta only)

theorem State.pairRefuse_within {T : List Part} {s0 s : State} (h : State.Within T s0 s) (hT : [.block 21, .resp] ⊆ T) (st : Nat) : State.Within T s0 (State.pairRefuse s st) := by
  unfold State.pairRefuse
  repeat' (first | with_reducible assumption | exact part_trans (by decide) hT | with_reducible apply State.refuse_within | exact Or.inl (hT (by decide)) | exact Or.inr (hT (by simp)))

theorem State.pairResign_within {T : List Part} {s0 s : State} (h : State.Within T s0 s) (hT : [.block 11, .block 12, .block 14, .block 15, .block 16, .block 20, .block 21, .block 6, .block 7, .cmp, .freeIx, .ky, .mac, .mem, .ms, .mtb, .notes, .out, .pa, .pl, .queues, .rd, .resp, .ro, .ry, .sl, .tm] ⊆ T) : State.Within T s0 (State.pairResign s) := by
  unfold State.pairResign
  repeat' (first | with_reducible assumption | exact part_trans (by decide) hT | with_reducible intro _ | with_reducible apply within_ite | with_reducible apply State.pairRefuse_within | with_reducible apply State.selfFault_within | with_reducible apply State.answer_within | exact Or.inl (hT (by decide)) | exact Or.inr (hT (by simp)))

theorem State.pairResync_within {T : List Part} {s0 s : State} (h : State.Within T s0 s) (hT : [.block 21, .out, .pa, .resp] ⊆ T) : State.Within T s0 (State.pairResync s) := by
  unfold State.pairResync
  repeat' (first | with_reducible assumption | exact part_trans (by decide) hT | with_reducible intro _ | with_reducible apply within_ite | with_reducible apply State.pairRefuse_within | with_reducible apply State.resyncStart_within | with_reducible apply State.answer_within | exact Or.inl (hT (by decide)) | exact Or.inr (hT (by simp)))

theorem execPairResignWrite_within {T : List Part} {s0 s : State} (h : State.Within T s0 s) (hT : [.block 11, .block 12, .block 14, .block 15, .block 16, .block 20, .block 21, .block 6, .block 7, .cmp, .freeIx, .ky, .mac, .mem, .ms, .mtb, .notes, .out, .pa, .pl, .queues, .rd, .resp, .ro, .ry, .sl, .tm] ⊆ T) : WithinRes T s0 (execPairResignWrite s) := by
  unfold execPairResignWrite
  repeat' (first | with_reducible assumption | exact part_trans (by decide) hT | intro _ | extract_lets | with_reducible apply withinRes_next | with_reducible apply withinRes_ite | with_reducible apply within_ite | with_reducible apply State.recorded_within | with_reducible apply State.pairResign_within | fail_if_no_progress ((with_reducible apply within_upd) <;> first | with_reducible exact Or.inl rfl | exact Or.inr (hT (by decide)) | skip) | exact Or.inl (hT (by decide)) | exact Or.inr (hT (by simp)) | split | dsimp +zetaDelta only)

theorem execPairResyncWrite_within {T : List Part} {s0 s : State} (h : State.Within T s0 s) (hT : [.block 20, .block 21, .freeIx, .notes, .out, .pa, .resp, .ro] ⊆ T) : WithinRes T s0 (execPairResyncWrite s) := by
  unfold execPairResyncWrite
  repeat' (first | with_reducible assumption | exact part_trans (by decide) hT | intro _ | extract_lets | with_reducible apply withinRes_next | with_reducible apply withinRes_ite | with_reducible apply within_ite | with_reducible apply State.recorded_within | with_reducible apply State.pairResync_within | fail_if_no_progress ((with_reducible apply within_upd) <;> first | with_reducible exact Or.inl rfl | exact Or.inr (hT (by decide)) | skip) | exact Or.inl (hT (by decide)) | exact Or.inr (hT (by simp)) | split | dsimp +zetaDelta only)

theorem State.resetMem_within {T : List Part} {s0 s : State} (h : State.Within T s0 s) (hT : [.mem] ⊆ T) (k : Nat) (fault : Bool) : State.Within T s0 (State.resetMem s k fault) := by
  unfold State.resetMem
  split
  · exact within_data h rfl (fun i => ⟨i.1, rfl, i.2.2⟩) (Or.inr (hT (by decide))) (Or.inl rfl) (fun _ _ _ _ => rfl)
  · split
    · exact State.dropMem_within h (part_trans (by decide) hT) _ _
    · exact h

theorem State.cleared_within {T : List Part} {s0 s : State} (h : State.Within T s0 s) (hT : [.clk, .cmp, .gd, .ky, .mac, .ms, .mtb, .notes, .pa, .pl, .pr, .queues, .rd, .regs, .ro, .ry, .sl, .su, .svc, .tie, .tm, .up, .upl0, .upl1] ⊆ T) (k : Nat) (warm : Bool) (keepTab : Bool) : State.Within T s0 (State.cleared s k warm keepTab) := by
  refine ⟨h.pending, fun i => ⟨Registers.wf_filter (h.inv i).1 _, (h.inv i).2⟩, fun p hp => ?_, fun _ hr => absurd (hT (by decide)) hr⟩
  have hs := h.same p hp
  cases p <;> first | trivial | exact hs | exact absurd (hT (by decide)) hp

theorem State.resetBlocks_within {T : List Part} {s0 s : State} (h : State.Within T s0 s) (hT : [.block 1, .block 2, .block 20, .block 21, .block 22, .clk, .cmp, .freeIx, .gd, .ky, .mac, .mem, .ms, .mtb, .notes, .out, .pa, .pl, .pr, .queues, .rd, .regs, .resp, .ro, .ry, .sl, .su, .svc, .tie, .tm, .up, .upl0, .upl1] ⊆ T) (k : Nat) (fault : Bool) : State.Within T s0 (State.resetBlocks s k fault) := by
  unfold State.resetBlocks
  repeat' (first | with_reducible assumption | exact part_trans (by decide) hT | intro _ | extract_lets | with_reducible apply within_ite | with_reducible apply State.sessionAbort_within | with_reducible apply State.each_within | with_reducible apply State.sessionEnd_within | with_reducible apply State.holdOutputs_within | with_reducible apply State.resetMem_within | with_reducible apply State.cleared_within | with_reducible apply State.setF_within | fail_if_no_progress ((with_reducible apply within_upd) <;> first | with_reducible exact Or.inl rfl | exact Or.inr (hT (by decide)) | skip) | exact Or.inl (hT (by decide)) | exact Or.inr (hT (by simp)) | split | dsimp +zetaDelta only)

theorem State.writeCause_within {T : List Part} {s0 s : State} (h : State.Within T s0 s) (hT : [.block 2] ⊆ T) (k : Nat) : State.Within T s0 (State.writeCause s k) := by
  unfold State.writeCause
  repeat' (first | with_reducible assumption | exact part_trans (by decide) hT | intro _ | extract_lets | with_reducible apply within_ite | with_reducible apply State.bump_within | with_reducible apply State.setF_within | fail_if_no_progress ((with_reducible apply within_upd) <;> first | with_reducible exact Or.inl rfl | exact Or.inr (hT (by decide)) | skip) | exact Or.inl (hT (by decide)) | exact Or.inr (hT (by simp)) | split | dsimp +zetaDelta only)

theorem State.exitCause_within {T : List Part} {s0 s : State} (h : State.Within T s0 s) (hT : [.block 2, .su] ⊆ T) (k : Nat) : State.Within T s0 (State.exitCause s k) := by
  unfold State.exitCause
  repeat' (first | with_reducible assumption | exact part_trans (by decide) hT | intro _ | extract_lets | with_reducible apply within_ite | with_reducible apply State.writeCause_within | fail_if_no_progress ((with_reducible apply within_upd) <;> first | with_reducible exact Or.inl rfl | exact Or.inr (hT (by decide)) | skip) | exact Or.inl (hT (by decide)) | exact Or.inr (hT (by simp)) | split | dsimp +zetaDelta only)

theorem State.requestWarm_within {T : List Part} {s0 s : State} (h : State.Within T s0 s) (hT : [.block 11, .block 12, .block 14, .block 15, .block 16, .block 20, .block 21, .block 6, .block 7, .cmp, .freeIx, .ky, .mac, .mem, .ms, .mtb, .notes, .out, .pa, .pl, .queues, .rd, .resp, .ro, .ry, .sl, .su, .tm] ⊆ T) (k : Nat) : State.Within T s0 (State.requestWarm s k) := by
  unfold State.requestWarm
  repeat' (first | with_reducible assumption | exact part_trans (by decide) hT | intro _ | extract_lets | with_reducible apply within_ite | with_reducible apply State.auditNote_within | with_reducible apply State.macFlush_within | with_reducible apply State.selfFault_within | with_reducible apply State.each_within | with_reducible apply State.txFlush_within | with_reducible apply State.txEndSoon_within | with_reducible apply State.toSleep_within | fail_if_no_progress ((with_reducible apply within_upd) <;> first | with_reducible exact Or.inl rfl | exact Or.inr (hT (by decide)) | skip) | exact Or.inl (hT (by decide)) | exact Or.inr (hT (by simp)) | split | dsimp +zetaDelta only)

end Sys2Proof.Machine
end

