-- ==== Sys2Proof/Laws/WithinClock.lean ====
section
/-!
SUPPORT. What the operations of the root clock and the ports can do: one lemma per operation, which names the
parts of the state that it may touch and says that it keeps the invariant and the queue. A proof about a step cites these and
unfolds none of the operations.
-/
namespace Sys2Proof.Machine
open Sys2Proof
set_option linter.all false
set_option Elab.async false

theorem State.setClkMode_within {T : List Part} {s0 s : State} (h : State.Within T s0 s) (hT : [.block 1] ⊆ T) (m : Nat) : State.Within T s0 (State.setClkMode s m) := by
  unfold State.setClkMode
  repeat' (first | with_reducible assumption | exact part_trans (by decide) hT | with_reducible apply State.setF_within | with_reducible apply State.setB_within | exact Or.inl (hT (by decide)) | exact Or.inr (hT (by simp)))

theorem State.recordHeld_within {T : List Part} {s0 s : State} (h : State.Within T s0 s) (hT : [.clk, .freeIx] ⊆ T) : State.Within T s0 (State.recordHeld s) := by
  unfold State.recordHeld
  repeat' (first | with_reducible assumption | exact part_trans (by decide) hT | intro _ | extract_lets | with_reducible apply within_ite | with_reducible apply State.useFree_within | fail_if_no_progress ((with_reducible apply within_upd) <;> first | with_reducible exact Or.inl rfl | exact Or.inr (hT (by decide)) | skip) | exact Or.inl (hT (by decide)) | exact Or.inr (hT (by simp)) | split | dsimp +zetaDelta only)

theorem State.switchTo_within {T : List Part} {s0 s : State} (h : State.Within T s0 s) (hT : [.block 1, .clk, .freeIx] ⊆ T) (n : Nat) : State.Within T s0 (State.switchTo s n) := by
  unfold State.switchTo
  repeat' (first | with_reducible assumption | exact part_trans (by decide) hT | intro _ | extract_lets | with_reducible apply within_ite | with_reducible apply State.recordHeld_within | with_reducible apply State.each_within | with_reducible apply State.setB_within | with_reducible apply State.setClkMode_within | with_reducible apply State.setF_within | fail_if_no_progress ((with_reducible apply within_upd) <;> first | with_reducible exact Or.inl rfl | exact Or.inr (hT (by decide)) | skip) | exact Or.inl (hT (by decide)) | exact Or.inr (hT (by simp)) | split | dsimp +zetaDelta only)

theorem State.holdRoot_within {T : List Part} {s0 s : State} (h : State.Within T s0 s) (hT : [.block 1, .clk] ⊆ T) : State.Within T s0 (State.holdRoot s) := by
  unfold State.holdRoot
  repeat' (first | with_reducible assumption | exact part_trans (by decide) hT | with_reducible intro _ | with_reducible apply State.each_within | with_reducible apply State.setB_within | with_reducible apply State.setF_within | with_reducible apply State.setClkMode_within | fail_if_no_progress ((with_reducible apply within_upd) <;> first | with_reducible exact Or.inl rfl | exact Or.inr (hT (by decide)) | skip) | exact Or.inl (hT (by decide)) | exact Or.inr (hT (by simp)))

theorem State.enterHold_within {T : List Part} {s0 s : State} (h : State.Within T s0 s) (hT : [.block 1, .block 2, .clk, .notes] ⊆ T) : State.Within T s0 (State.enterHold s) := by
  unfold State.enterHold
  repeat' (first | with_reducible assumption | exact part_trans (by decide) hT | with_reducible apply State.holdRoot_within | with_reducible apply State.setDev_within | with_reducible apply State.raise_within | fail_if_no_progress ((with_reducible apply within_upd) <;> first | with_reducible exact Or.inl rfl | exact Or.inr (hT (by decide)) | skip) | exact Or.inl (hT (by decide)) | exact Or.inr (hT (by simp)))

theorem State.toAwait_within {T : List Part} {s0 s : State} (h : State.Within T s0 s) (hT : [.block 1, .block 2, .block 20, .block 21, .block 22, .clk, .cmp, .freeIx, .gd, .ky, .mac, .mem, .ms, .mtb, .notes, .out, .pa, .pl, .pr, .queues, .rd, .regs, .resp, .ro, .ry, .sl, .su, .svc, .tie, .tm, .up, .upl0, .upl1] ⊆ T) : State.Within T s0 (State.toAwait s) := by
  unfold State.toAwait
  repeat' (first | with_reducible assumption | exact part_trans (by decide) hT | with_reducible apply State.resetBlocks_within | with_reducible apply State.writeCause_within | with_reducible apply State.setDev_within | exact Or.inl (hT (by decide)) | exact Or.inr (hT (by simp)))

theorem State.clockDecide_within {T : List Part} {s0 s : State} (h : State.Within T s0 s) (hT : [.block 1, .block 2, .block 20, .block 21, .block 22, .clk, .cmp, .freeIx, .gd, .ky, .mac, .mem, .ms, .mtb, .notes, .out, .pa, .pl, .pr, .queues, .rd, .regs, .resp, .ro, .ry, .sl, .su, .svc, .tie, .tm, .up, .upl0, .upl1] ⊆ T) : State.Within T s0 (State.clockDecide s) := by
  unfold State.clockDecide
  repeat' (first | with_reducible assumption | exact part_trans (by decide) hT | with_reducible intro _ | with_reducible apply within_ite | with_reducible apply State.switchTo_within | with_reducible apply State.raise_within | with_reducible apply State.enterHold_within | with_reducible apply State.setDev_within | with_reducible apply State.toAwait_within | with_reducible apply State.holdRoot_within | exact Or.inl (hT (by decide)) | exact Or.inr (hT (by simp)) | with_reducible split)

theorem State.unqualify_within {T : List Part} {s0 s : State} (h : State.Within T s0 s) (hT : [.block 1, .notes] ⊆ T) (n : Nat) : State.Within T s0 (State.unqualify s n) := by
  unfold State.unqualify
  repeat' (first | with_reducible assumption | exact part_trans (by decide) hT | with_reducible intro _ | with_reducible apply within_ite | with_reducible apply State.setF_within | with_reducible apply State.raise_within | exact Or.inl (hT (by decide)) | exact Or.inr (hT (by simp)))

theorem State.disqualify_within {T : List Part} {s0 s : State} (h : State.Within T s0 s) (hT : [.block 1, .clk, .notes] ⊆ T) (n : Nat) : State.Within T s0 (State.disqualify s n) := by
  unfold State.disqualify
  repeat' (first | with_reducible assumption | exact part_trans (by decide) hT | with_reducible apply State.setF_within | with_reducible apply State.unqualify_within | fail_if_no_progress ((with_reducible apply within_upd) <;> first | with_reducible exact Or.inl rfl | exact Or.inr (hT (by decide)) | skip) | exact Or.inl (hT (by decide)) | exact Or.inr (hT (by simp)))

theorem State.qualify_within {T : List Part} {s0 s : State} (h : State.Within T s0 s) (hT : [.block 1] ⊆ T) (n : Nat) : State.Within T s0 (State.qualify s n) := by
  unfold State.qualify
  repeat' (first | with_reducible assumption | exact part_trans (by decide) hT | with_reducible intro _ | with_reducible apply within_ite | with_reducible apply State.setF_within | exact Or.inl (hT (by decide)) | exact Or.inr (hT (by simp)))

theorem State.setBlocked_within {T : List Part} {s0 s : State} (h : State.Within T s0 s) (hT : [.block 1, .block 2, .block 20, .block 21, .block 22, .clk, .cmp, .freeIx, .gd, .ky, .mac, .mem, .ms, .mtb, .notes, .out, .pa, .pl, .pr, .queues, .rd, .regs, .resp, .ro, .ry, .sl, .su, .svc, .tie, .tm, .up, .upl0, .upl1] ⊆ T) (n : Nat) (b : Bool) : State.Within T s0 (State.setBlocked s n b) := by
  unfold State.setBlocked
  repeat' (first | with_reducible assumption | exact part_trans (by decide) hT | with_reducible intro _ | with_reducible apply within_ite | with_reducible apply State.setB_within | with_reducible apply State.unqualify_within | with_reducible apply State.qualify_within | with_reducible apply State.clockDecide_within | exact Or.inl (hT (by decide)) | exact Or.inr (hT (by simp)))

theorem State.openWindow_within {T : List Part} {s0 s : State} (h : State.Within T s0 s) (hT : [.clk] ⊆ T) (n : Nat) : State.Within T s0 (State.openWindow s n) := by
  unfold State.openWindow
  repeat' (first | with_reducible assumption | exact part_trans (by decide) hT | fail_if_no_progress ((with_reducible apply within_upd) <;> first | with_reducible exact Or.inl rfl | exact Or.inr (hT (by decide)) | skip) | exact Or.inl (hT (by decide)) | exact Or.inr (hT (by simp)))

theorem State.portListen_within {T : List Part} {s0 s : State} (h : State.Within T s0 s) (hT : [.block 3] ⊆ T) (p : Nat) : State.Within T s0 (State.portListen s p) := by
  unfold State.portListen
  repeat' (first | with_reducible assumption | exact part_trans (by decide) hT | with_reducible apply State.setF_within | exact Or.inl (hT (by decide)) | exact Or.inr (hT (by simp)))

theorem State.setUpl_within {T : List Part} {s0 s : State} (h : State.Within T s0 s) (hT : [.upl0, .upl1] ⊆ T) (p : Nat) (v : UplPort) : State.Within T s0 (State.setUpl s p v) := by
  unfold State.setUpl
  repeat' (first | with_reducible assumption | exact part_trans (by decide) hT | with_reducible intro _ | with_reducible apply within_ite | fail_if_no_progress ((with_reducible apply within_upd) <;> first | with_reducible exact Or.inl rfl | exact Or.inr (hT (by decide)) | skip) | exact Or.inl (hT (by decide)) | exact Or.inr (hT (by simp)))

theorem State.ryPortLost_within {T : List Part} {s0 s : State} (h : State.Within T s0 s) (hT : [.ry] ⊆ T) (p : Nat) : State.Within T s0 (State.ryPortLost s p) := by
  unfold State.ryPortLost
  repeat' (first | with_reducible assumption | exact part_trans (by decide) hT | with_reducible intro _ | with_reducible apply within_ite | fail_if_no_progress ((with_reducible apply within_upd) <;> first | with_reducible exact Or.inl rfl | exact Or.inr (hT (by decide)) | skip) | exact Or.inl (hT (by decide)) | exact Or.inr (hT (by simp)))

theorem State.ryPortBack_within {T : List Part} {s0 s : State} (h : State.Within T s0 s) (hT : [.ry] ⊆ T) (p : Nat) : State.Within T s0 (State.ryPortBack s p) := by
  unfold State.ryPortBack
  repeat' (first | with_reducible assumption | exact part_trans (by decide) hT | intro _ | extract_lets | with_reducible apply within_ite | fail_if_no_progress ((with_reducible apply within_upd) <;> first | with_reducible exact Or.inl rfl | exact Or.inr (hT (by decide)) | skip) | exact Or.inl (hT (by decide)) | exact Or.inr (hT (by simp)) | split | dsimp +zetaDelta only)

theorem State.portDown_within {T : List Part} {s0 s : State} (h : State.Within T s0 s) (hT : [.block 11, .block 12, .block 14, .block 15, .block 16, .block 20, .block 21, .block 3, .block 6, .block 7, .cmp, .freeIx, .ky, .mac, .mem, .ms, .mtb, .notes, .out, .pa, .pl, .queues, .rd, .resp, .ro, .ry, .sl, .tm, .upl0, .upl1] ⊆ T) (p : Nat) : State.Within T s0 (State.portDown s p) := by
  unfold State.portDown
  repeat' (first | with_reducible assumption | exact part_trans (by decide) hT | with_reducible intro _ | with_reducible apply within_ite | with_reducible apply State.portListen_within | with_reducible apply State.raise_within | with_reducible apply State.setUpl_within | with_reducible apply State.cutPackets_within | with_reducible apply State.timePortLost_within | with_reducible apply State.ryPortLost_within | with_reducible apply State.leasePathCheck_within | exact Or.inl (hT (by decide)) | exact Or.inr (hT (by simp)))

theorem State.tieListen_within {T : List Part} {s0 s : State} (h : State.Within T s0 s) (hT : [.block 11, .block 12, .block 14, .block 15, .block 16, .block 20, .block 21, .block 22, .block 5, .block 6, .block 7, .cmp, .freeIx, .ky, .mac, .mem, .ms, .mtb, .notes, .out, .pa, .pl, .queues, .rd, .resp, .ro, .ry, .sl, .tie, .tm, .up] ⊆ T) (phase : Nat) : State.Within T s0 (State.tieListen s phase) := by
  unfold State.tieListen
  repeat' (first | with_reducible assumption | exact part_trans (by decide) hT | intro _ | extract_lets | with_reducible apply within_ite | with_reducible apply State.setF_within | with_reducible apply State.tieDown_within | with_reducible apply State.cutPackets_within | with_reducible apply State.raise_within | with_reducible apply State.tieSend_within | fail_if_no_progress ((with_reducible apply within_upd) <;> first | with_reducible exact Or.inl rfl | exact Or.inr (hT (by decide)) | skip) | exact Or.inl (hT (by decide)) | exact Or.inr (hT (by simp)) | split | dsimp +zetaDelta only)

theorem State.tieAgain_within {T : List Part} {s0 s : State} (h : State.Within T s0 s) (hT : [.block 11, .block 12, .block 14, .block 15, .block 16, .block 20, .block 21, .block 22, .block 5, .block 6, .block 7, .cmp, .freeIx, .ky, .mac, .mem, .ms, .mtb, .notes, .out, .pa, .pl, .queues, .rd, .resp, .ro, .ry, .sl, .tie, .tm, .up] ⊆ T) : State.Within T s0 (State.tieAgain s) := by
  unfold State.tieAgain
  repeat' (first | with_reducible assumption | exact part_trans (by decide) hT | intro _ | extract_lets | with_reducible apply within_ite | with_reducible apply State.tieListen_within | fail_if_no_progress ((with_reducible apply within_upd) <;> first | with_reducible exact Or.inl rfl | exact Or.inr (hT (by decide)) | skip) | exact Or.inl (hT (by decide)) | exact Or.inr (hT (by simp)) | split | dsimp +zetaDelta only)

theorem State.tieLocked_within {T : List Part} {s0 s : State} (h : State.Within T s0 s) (hT : [.block 11, .block 12, .block 14, .block 15, .block 16, .block 20, .block 21, .block 22, .block 5, .block 6, .block 7, .cmp, .freeIx, .ky, .mac, .mem, .ms, .mtb, .notes, .out, .pa, .pl, .queues, .rd, .resp, .ro, .ry, .sl, .tie, .tm, .up] ⊆ T) : State.Within T s0 (State.tieLocked s) := by
  unfold State.tieLocked
  repeat' (first | with_reducible assumption | exact part_trans (by decide) hT | intro _ | extract_lets | with_reducible apply within_ite | with_reducible apply State.tieListen_within | with_reducible apply State.setF_within | fail_if_no_progress ((with_reducible apply within_upd) <;> first | with_reducible exact Or.inl rfl | exact Or.inr (hT (by decide)) | skip) | exact Or.inl (hT (by decide)) | exact Or.inr (hT (by simp)) | split | dsimp +zetaDelta only)

theorem State.linkGone_within {T : List Part} {s0 s : State} (h : State.Within T s0 s) (hT : [.block 11, .block 12, .block 14, .block 15, .block 16, .block 20, .block 21, .block 22, .block 3, .block 5, .block 6, .block 7, .cmp, .freeIx, .ky, .mac, .mem, .ms, .mtb, .notes, .out, .pa, .pl, .queues, .rd, .resp, .ro, .ry, .sl, .tie, .tm, .up, .upl0, .upl1] ⊆ T) (n : Nat) : State.Within T s0 (State.linkGone s n) := by
  unfold State.linkGone
  repeat' (first | with_reducible assumption | exact part_trans (by decide) hT | intro _ | extract_lets | with_reducible apply within_ite | with_reducible apply State.portDown_within | with_reducible apply State.tieAgain_within | with_reducible apply State.setF_within | fail_if_no_progress ((with_reducible apply within_upd) <;> first | with_reducible exact Or.inl rfl | exact Or.inr (hT (by decide)) | skip) | exact Or.inl (hT (by decide)) | exact Or.inr (hT (by simp)) | split | dsimp +zetaDelta only)

theorem State.sourceLost_within {T : List Part} {s0 s : State} (h : State.Within T s0 s) (hT : [.block 1, .block 11, .block 12, .block 14, .block 15, .block 16, .block 2, .block 20, .block 21, .block 22, .block 3, .block 5, .block 6, .block 7, .clk, .cmp, .freeIx, .gd, .ky, .mac, .mem, .ms, .mtb, .notes, .out, .pa, .pl, .pr, .queues, .rd, .regs, .resp, .ro, .ry, .sl, .su, .svc, .tie, .tm, .up, .upl0, .upl1] ⊆ T) (n : Nat) : State.Within T s0 (State.sourceLost s n) := by
  unfold State.sourceLost
  repeat' (first | with_reducible assumption | exact part_trans (by decide) hT | with_reducible intro _ | with_reducible apply within_ite | with_reducible apply State.linkGone_within | with_reducible apply State.setF_within | with_reducible apply State.disqualify_within | with_reducible apply State.clockDecide_within | fail_if_no_progress ((with_reducible apply within_upd) <;> first | with_reducible exact Or.inl rfl | exact Or.inr (hT (by decide)) | skip) | exact Or.inl (hT (by decide)) | exact Or.inr (hT (by simp)))

theorem State.retrainOthers_within {T : List Part} {s0 s : State} (h : State.Within T s0 s) (hT : [.block 11, .block 12, .block 14, .block 15, .block 16, .block 20, .block 21, .block 22, .block 3, .block 5, .block 6, .block 7, .cmp, .freeIx, .ky, .mac, .mem, .ms, .mtb, .notes, .out, .pa, .pl, .queues, .rd, .resp, .ro, .ry, .sl, .tie, .tm, .up] ⊆ T) (n : Nat) : State.Within T s0 (State.retrainOthers s n) := by
  unfold State.retrainOthers
  repeat' (first | with_reducible assumption | exact part_trans (by decide) hT | with_reducible intro _ | with_reducible apply within_ite | with_reducible apply State.each_within | with_reducible apply State.portListen_within | with_reducible apply State.tieListen_within | exact Or.inl (hT (by decide)) | exact Or.inr (hT (by simp)))

theorem State.sourceLocked_within {T : List Part} {s0 s : State} (h : State.Within T s0 s) (hT : [.block 1, .block 11, .block 12, .block 14, .block 15, .block 16, .block 2, .block 20, .block 21, .block 22, .block 3, .block 5, .block 6, .block 7, .clk, .cmp, .freeIx, .ky, .mac, .mem, .ms, .mtb, .notes, .out, .pa, .pl, .queues, .rd, .resp, .ro, .ry, .sl, .tie, .tm, .up] ⊆ T) (n : Nat) : State.Within T s0 (State.sourceLocked s n) := by
  unfold State.sourceLocked
  repeat' (first | with_reducible assumption | exact part_trans (by decide) hT | with_reducible intro _ | with_reducible apply within_ite | with_reducible apply State.setF_within | with_reducible apply State.setB_within | with_reducible apply State.writeCause_within | with_reducible apply State.setDev_within | with_reducible apply State.retrainOthers_within | with_reducible apply State.openWindow_within | fail_if_no_progress ((with_reducible apply within_upd) <;> first | with_reducible exact Or.inl rfl | exact Or.inr (hT (by decide)) | skip) | exact Or.inl (hT (by decide)) | exact Or.inr (hT (by simp)))

theorem execSourceLocked_within {T : List Part} {s0 s : State} (h : State.Within T s0 s) (hT : [.block 1, .block 11, .block 12, .block 14, .block 15, .block 16, .block 2, .block 20, .block 21, .block 22, .block 3, .block 5, .block 6, .block 7, .clk, .cmp, .freeIx, .ky, .mac, .mem, .ms, .mtb, .notes, .out, .pa, .pl, .queues, .rd, .resp, .ro, .ry, .sl, .tie, .tm, .up] ⊆ T) (src : Fin 3) (t : Nat) : WithinRes T s0 (execSourceLocked src t s) := by
  unfold execSourceLocked
  repeat' (first | with_reducible assumption | exact part_trans (by decide) hT | intro _ | extract_lets | with_reducible apply withinRes_next | with_reducible apply withinRes_ite | with_reducible apply within_ite | with_reducible apply State.advance_within | with_reducible apply State.setF_within | with_reducible apply State.tieLocked_within | with_reducible apply State.sourceLocked_within | fail_if_no_progress ((with_reducible apply within_upd) <;> first | with_reducible exact Or.inl rfl | exact Or.inr (hT (by decide)) | skip) | exact Or.inl (hT (by decide)) | exact Or.inr (hT (by simp)) | split | dsimp +zetaDelta only)

theorem execSourceLost_within {T : List Part} {s0 s : State} (h : State.Within T s0 s) (hT : [.block 1, .block 11, .block 12, .block 14, .block 15, .block 16, .block 2, .block 20, .block 21, .block 22, .block 3, .block 5, .block 6, .block 7, .clk, .cmp, .freeIx, .gd, .ky, .mac, .mem, .ms, .mtb, .notes, .out, .pa, .pl, .pr, .queues, .rd, .regs, .resp, .ro, .ry, .sl, .su, .svc, .tie, .tm, .up, .upl0, .upl1] ⊆ T) (src : Fin 3) (t : Nat) : WithinRes T s0 (execSourceLost src t s) := by
  unfold execSourceLost
  repeat' (first | with_reducible assumption | exact part_trans (by decide) hT | intro _ | extract_lets | with_reducible apply withinRes_next | with_reducible apply withinRes_ite | with_reducible apply within_ite | with_reducible apply State.advance_within | with_reducible apply State.sourceLost_within | fail_if_no_progress ((with_reducible apply within_upd) <;> first | with_reducible exact Or.inl rfl | exact Or.inr (hT (by decide)) | skip) | exact Or.inl (hT (by decide)) | exact Or.inr (hT (by simp)) | split | dsimp +zetaDelta only)

theorem execMonitorWindowEnd_within {T : List Part} {s0 s : State} (h : State.Within T s0 s) (hT : [.block 1, .block 2, .block 20, .block 21, .block 22, .clk, .cmp, .freeIx, .gd, .ky, .mac, .mem, .ms, .mtb, .notes, .out, .pa, .pl, .pr, .queues, .rd, .regs, .resp, .ro, .ry, .sl, .su, .svc, .tie, .tm, .up, .upl0, .upl1] ⊆ T) (src : Fin 3) (meas : Int) (t : Nat) : WithinRes T s0 (execMonitorWindowEnd src meas t s) := by
  unfold execMonitorWindowEnd
  repeat' (first | with_reducible assumption | exact part_trans (by decide) hT | intro _ | extract_lets | with_reducible apply withinRes_next | with_reducible apply withinRes_ite | with_reducible apply within_ite | with_reducible apply State.advance_within | with_reducible apply State.setF_within | with_reducible apply State.openWindow_within | with_reducible apply State.clockDecide_within | with_reducible apply State.qualify_within | with_reducible apply State.bump_within | with_reducible apply State.disqualify_within | fail_if_no_progress ((with_reducible apply within_upd) <;> first | with_reducible exact Or.inl rfl | exact Or.inr (hT (by decide)) | skip) | exact Or.inl (hT (by decide)) | exact Or.inr (hT (by simp)) | split | dsimp +zetaDelta only)

theorem execHold1sMark_within {T : List Part} {s0 s : State} (h : State.Within T s0 s) (hT : [.block 1, .block 11, .block 12, .block 14, .block 15, .block 16, .block 2, .block 20, .block 21, .block 6, .block 7, .cmp, .freeIx, .ky, .mac, .mem, .ms, .mtb, .notes, .out, .pa, .pl, .queues, .rd, .resp, .ro, .ry, .sl, .tm] ⊆ T) (t : Nat) : WithinRes T s0 (execHold1sMark t s) := by
  unfold execHold1sMark
  repeat' (first | with_reducible assumption | exact part_trans (by decide) hT | intro _ | extract_lets | with_reducible apply withinRes_next | with_reducible apply withinRes_ite | with_reducible apply within_ite | with_reducible apply State.advance_within | with_reducible apply State.setDev_within | with_reducible apply State.setClkMode_within | with_reducible apply State.raise_within | with_reducible apply State.selfFault_within | fail_if_no_progress ((with_reducible apply within_upd) <;> first | with_reducible exact Or.inl rfl | exact Or.inr (hT (by decide)) | skip) | exact Or.inl (hT (by decide)) | exact Or.inr (hT (by simp)) | split | dsimp +zetaDelta only)

theorem State.enterPark_within {T : List Part} {s0 s : State} (h : State.Within T s0 s) (hT : [.block 1, .block 11, .block 12, .block 15, .block 16, .block 2, .block 20, .block 21, .block 22, .block 7, .clk, .cmp, .freeIx, .gd, .ky, .mac, .mem, .ms, .mtb, .notes, .out, .pa, .pl, .pr, .queues, .rd, .regs, .resp, .ro, .ry, .sl, .su, .svc, .tie, .tm, .up, .upl0, .upl1] ⊆ T) (fault : Bool) : State.Within T s0 (State.enterPark s fault) := by
  unfold State.enterPark
  repeat' (first | with_reducible assumption | exact part_trans (by decide) hT | intro _ | extract_lets | with_reducible apply within_ite | with_reducible apply State.macFlush_within | with_reducible apply State.each_within | with_reducible apply State.txFlush_within | with_reducible apply State.setF_within | with_reducible apply State.txStopAt_within | with_reducible apply State.toSleep_within | with_reducible apply State.setB_within | with_reducible apply State.setDev_within | with_reducible apply State.resetBlocks_within | fail_if_no_progress ((with_reducible apply within_upd) <;> first | with_reducible exact Or.inl rfl | exact Or.inr (hT (by decide)) | skip) | exact Or.inl (hT (by decide)) | exact Or.inr (hT (by simp)) | split | dsimp +zetaDelta only)

theorem execHold30sMark_within {T : List Part} {s0 s : State} (h : State.Within T s0 s) (hT : [.block 1, .block 11, .block 12, .block 15, .block 16, .block 2, .block 20, .block 21, .block 22, .block 7, .clk, .cmp, .freeIx, .gd, .ky, .mac, .mem, .ms, .mtb, .notes, .out, .pa, .pl, .pr, .queues, .rd, .regs, .resp, .ro, .ry, .sl, .su, .svc, .tie, .tm, .up, .upl0, .upl1] ⊆ T) (t : Nat) : WithinRes T s0 (execHold30sMark t s) := by
  unfold execHold30sMark
  repeat' (first | with_reducible assumption | exact part_trans (by decide) hT | intro _ | extract_lets | with_reducible apply withinRes_next | with_reducible apply withinRes_ite | with_reducible apply within_ite | with_reducible apply State.advance_within | with_reducible apply State.enterPark_within | fail_if_no_progress ((with_reducible apply within_upd) <;> first | with_reducible exact Or.inl rfl | exact Or.inr (hT (by decide)) | skip) | exact Or.inl (hT (by decide)) | exact Or.inr (hT (by simp)) | split | dsimp +zetaDelta only)

theorem execRootPllUnlock_within {T : List Part} {s0 s : State} (h : State.Within T s0 s) (hT : [.block 1, .block 11, .block 12, .block 15, .block 16, .block 2, .block 20, .block 21, .block 22, .block 7, .clk, .cmp, .freeIx, .gd, .ky, .mac, .mem, .ms, .mtb, .notes, .out, .pa, .pl, .pr, .queues, .rd, .regs, .resp, .ro, .ry, .sl, .su, .svc, .tie, .tm, .up, .upl0, .upl1] ⊆ T) (t : Nat) : WithinRes T s0 (execRootPllUnlock t s) := by
  unfold execRootPllUnlock
  repeat' (first | with_reducible assumption | exact part_trans (by decide) hT | intro _ | extract_lets | with_reducible apply withinRes_next | with_reducible apply withinRes_ite | with_reducible apply within_ite | with_reducible apply State.advance_within | with_reducible apply State.setF_within | with_reducible apply State.enterPark_within | fail_if_no_progress ((with_reducible apply within_upd) <;> first | with_reducible exact Or.inl rfl | exact Or.inr (hT (by decide)) | skip) | exact Or.inl (hT (by decide)) | exact Or.inr (hT (by simp)) | split | dsimp +zetaDelta only)

theorem State.clkRefuse_within {T : List Part} {s0 s : State} (h : State.Within T s0 s) (hT : [.block 1, .resp] ⊆ T) (unit : Nat) (st : Nat) : State.Within T s0 (State.clkRefuse s unit st) := by
  unfold State.clkRefuse
  repeat' (first | with_reducible assumption | exact part_trans (by decide) hT | with_reducible apply State.setF_within | with_reducible apply State.refuse_within | exact Or.inl (hT (by decide)) | exact Or.inr (hT (by simp)))

theorem State.forceWrite_within {T : List Part} {s0 s : State} (h : State.Within T s0 s) (hT : [.block 1, .block 2, .block 20, .block 21, .block 22, .clk, .cmp, .freeIx, .gd, .ky, .mac, .mem, .ms, .mtb, .notes, .out, .pa, .pl, .pr, .queues, .rd, .regs, .resp, .ro, .ry, .sl, .su, .svc, .tie, .tm, .up, .upl0, .upl1] ⊆ T) (force : Bool) (src : Nat) : State.Within T s0 (State.forceWrite s force src) := by
  unfold State.forceWrite
  repeat' (first | with_reducible assumption | exact part_trans (by decide) hT | with_reducible intro _ | with_reducible apply within_ite | with_reducible apply State.answer_within | with_reducible apply State.clkRefuse_within | with_reducible apply State.setB_within | with_reducible apply State.setF_within | with_reducible apply State.clockDecide_within | exact Or.inl (hT (by decide)) | exact Or.inr (hT (by simp)))

theorem execClkSrcForceWrite_within {T : List Part} {s0 s : State} (h : State.Within T s0 s) (hT : [.block 1, .block 2, .block 20, .block 21, .block 22, .clk, .cmp, .freeIx, .gd, .ky, .mac, .mem, .ms, .mtb, .notes, .out, .pa, .pl, .pr, .queues, .rd, .regs, .resp, .ro, .ry, .sl, .su, .svc, .tie, .tm, .up, .upl0, .upl1] ⊆ T) (force : Bool) (src : Fin 4) : WithinRes T s0 (execClkSrcForceWrite force src s) := by
  unfold execClkSrcForceWrite
  repeat' (first | with_reducible assumption | exact part_trans (by decide) hT | intro _ | extract_lets | with_reducible apply withinRes_next | with_reducible apply withinRes_ite | with_reducible apply within_ite | with_reducible apply State.forceWrite_within | fail_if_no_progress ((with_reducible apply within_upd) <;> first | with_reducible exact Or.inl rfl | exact Or.inr (hT (by decide)) | skip) | exact Or.inl (hT (by decide)) | exact Or.inr (hT (by simp)) | split | dsimp +zetaDelta only)

theorem execHoopIdle_within {T : List Part} {s0 s : State} (h : State.Within T s0 s) (hT : [.block 1, .clk, .mtb, .notes] ⊆ T) (hoop : Fin 4) (t : Nat) : WithinRes T s0 (execHoopIdle hoop t s) := by
  unfold execHoopIdle
  repeat' (first | with_reducible assumption | exact part_trans (by decide) hT | intro _ | extract_lets | with_reducible apply withinRes_next | with_reducible apply withinRes_ite | with_reducible apply within_ite | with_reducible apply State.advance_within | with_reducible apply State.rampTo_within | fail_if_no_progress ((with_reducible apply within_upd) <;> first | with_reducible exact Or.inl rfl | exact Or.inr (hT (by decide)) | skip) | exact Or.inl (hT (by decide)) | exact Or.inr (hT (by simp)) | split | dsimp +zetaDelta only)

theorem execHoopRampStep_within {T : List Part} {s0 s : State} (h : State.Within T s0 s) (hT : [.block 1, .clk, .notes] ⊆ T) (hoop : Fin 4) : WithinRes T s0 (execHoopRampStep hoop s) := by
  unfold execHoopRampStep
  repeat' (first | with_reducible assumption | exact part_trans (by decide) hT | intro _ | extract_lets | with_reducible apply withinRes_next | with_reducible apply withinRes_ite | with_reducible apply within_ite | with_reducible apply State.rampStep_within | fail_if_no_progress ((with_reducible apply within_upd) <;> first | with_reducible exact Or.inl rfl | exact Or.inr (hT (by decide)) | skip) | exact Or.inl (hT (by decide)) | exact Or.inr (hT (by simp)) | split | dsimp +zetaDelta only)

theorem State.restartGo_within {T : List Part} {s0 s : State} (h : State.Within T s0 s) (hT : [.block 1, .clk, .resp] ⊆ T) (domain : Nat) (div : Nat) : State.Within T s0 (State.restartGo s domain div) := by
  unfold State.restartGo
  repeat' (first | with_reducible assumption | exact part_trans (by decide) hT | intro _ | extract_lets | with_reducible apply within_ite | with_reducible apply State.clkRefuse_within | with_reducible apply State.answer_within | fail_if_no_progress ((with_reducible apply within_upd) <;> first | with_reducible exact Or.inl rfl | exact Or.inr (hT (by decide)) | skip) | exact Or.inl (hT (by decide)) | exact Or.inr (hT (by simp)) | split | dsimp +zetaDelta only)

theorem execClkRestartGo_within {T : List Part} {s0 s : State} (h : State.Within T s0 s) (hT : [.block 1, .clk, .resp] ⊆ T) (domain : Fin 16) (div : Fin 32) : WithinRes T s0 (execClkRestartGo domain div s) := by
  unfold execClkRestartGo
  repeat' (first | with_reducible assumption | exact part_trans (by decide) hT | intro _ | extract_lets | with_reducible apply withinRes_next | with_reducible apply withinRes_ite | with_reducible apply within_ite | with_reducible apply State.restartGo_within | fail_if_no_progress ((with_reducible apply within_upd) <;> first | with_reducible exact Or.inl rfl | exact Or.inr (hT (by decide)) | skip) | exact Or.inl (hT (by decide)) | exact Or.inr (hT (by simp)) | split | dsimp +zetaDelta only)

theorem execRestartDividerSwitch_within {T : List Part} {s0 s : State} (h : State.Within T s0 s) (hT : [.block 1, .clk] ⊆ T) (domain : Fin 16) : WithinRes T s0 (execRestartDividerSwitch domain s) := by
  unfold execRestartDividerSwitch
  repeat' (first | with_reducible assumption | exact part_trans (by decide) hT | intro _ | extract_lets | with_reducible apply withinRes_next | with_reducible apply withinRes_ite | with_reducible apply within_ite | with_reducible apply State.setF_within | fail_if_no_progress ((with_reducible apply within_upd) <;> first | with_reducible exact Or.inl rfl | exact Or.inr (hT (by decide)) | skip) | exact Or.inl (hT (by decide)) | exact Or.inr (hT (by simp)) | split | dsimp +zetaDelta only)

theorem State.dramResume_within {T : List Part} {s0 s : State} (h : State.Within T s0 s) (hT : [.ms] ⊆ T) : State.Within T s0 (State.dramResume s) := by
  unfold State.dramResume
  repeat' (first | with_reducible assumption | exact part_trans (by decide) hT | intro _ | extract_lets | with_reducible apply within_ite | with_reducible apply State.each_within | with_reducible apply State.dramAnew_within | with_reducible apply State.dramServe_within | fail_if_no_progress ((with_reducible apply within_upd) <;> first | with_reducible exact Or.inl rfl | exact Or.inr (hT (by decide)) | skip) | exact Or.inl (hT (by decide)) | exact Or.inr (hT (by simp)) | split | dsimp +zetaDelta only)

theorem execRestartFirstEdge_within {T : List Part} {s0 s : State} (h : State.Within T s0 s) (hT : [.clk, .ms] ⊆ T) (domain : Fin 16) : WithinRes T s0 (execRestartFirstEdge domain s) := by
  unfold execRestartFirstEdge
  repeat' (first | with_reducible assumption | exact part_trans (by decide) hT | intro _ | extract_lets | with_reducible apply withinRes_next | with_reducible apply withinRes_ite | with_reducible apply within_ite | with_reducible apply State.dramResume_within | fail_if_no_progress ((with_reducible apply within_upd) <;> first | with_reducible exact Or.inl rfl | exact Or.inr (hT (by decide)) | skip) | exact Or.inl (hT (by decide)) | exact Or.inr (hT (by simp)) | split | dsimp +zetaDelta only)

theorem State.gateRequest_within {T : List Part} {s0 s : State} (h : State.Within T s0 s) (hT : [.block 1, .resp] ⊆ T) (u : Nat) : State.Within T s0 (State.gateRequest s u) := by
  unfold State.gateRequest
  repeat' (first | with_reducible assumption | exact part_trans (by decide) hT | with_reducible intro _ | with_reducible apply within_ite | with_reducible apply State.answer_within | with_reducible apply State.clkRefuse_within | with_reducible apply State.setF_within | exact Or.inl (hT (by decide)) | exact Or.inr (hT (by simp)))

theorem State.ungate_within {T : List Part} {s0 s : State} (h : State.Within T s0 s) (hT : [.block 1, .block 16, .ms, .resp] ⊆ T) (u : Nat) : State.Within T s0 (State.ungate s u) := by
  unfold State.ungate
  repeat' (first | with_reducible assumption | exact part_trans (by decide) hT | intro _ | extract_lets | with_reducible apply within_ite | with_reducible apply State.answer_within | with_reducible apply State.clkRefuse_within | with_reducible apply State.setF_within | with_reducible apply State.nandStart_within | fail_if_no_progress ((with_reducible apply within_upd) <;> first | with_reducible exact Or.inl rfl | exact Or.inr (hT (by decide)) | skip) | exact Or.inl (hT (by decide)) | exact Or.inr (hT (by simp)) | split | dsimp +zetaDelta only)

theorem execGateRequest_within {T : List Part} {s0 s : State} (h : State.Within T s0 s) (hT : [.block 1, .resp] ⊆ T) (unit : Fin 13) : WithinRes T s0 (execGateRequest unit s) := by
  unfold execGateRequest
  repeat' (first | with_reducible assumption | exact part_trans (by decide) hT | intro _ | extract_lets | with_reducible apply withinRes_next | with_reducible apply withinRes_ite | with_reducible apply within_ite | with_reducible apply State.gateRequest_within | fail_if_no_progress ((with_reducible apply within_upd) <;> first | with_reducible exact Or.inl rfl | exact Or.inr (hT (by decide)) | skip) | exact Or.inl (hT (by decide)) | exact Or.inr (hT (by simp)) | split | dsimp +zetaDelta only)

theorem execUngate_within {T : List Part} {s0 s : State} (h : State.Within T s0 s) (hT : [.block 1, .block 16, .ms, .resp] ⊆ T) (unit : Fin 13) : WithinRes T s0 (execUngate unit s) := by
  unfold execUngate
  repeat' (first | with_reducible assumption | exact part_trans (by decide) hT | intro _ | extract_lets | with_reducible apply withinRes_next | with_reducible apply withinRes_ite | with_reducible apply within_ite | with_reducible apply State.ungate_within | fail_if_no_progress ((with_reducible apply within_upd) <;> first | with_reducible exact Or.inl rfl | exact Or.inr (hT (by decide)) | skip) | exact Or.inl (hT (by decide)) | exact Or.inr (hT (by simp)) | split | dsimp +zetaDelta only)

theorem execGateClose_within {T : List Part} {s0 s : State} (h : State.Within T s0 s) (hT : [.block 1, .notes] ⊆ T) (unit : Fin 13) : WithinRes T s0 (execGateClose unit s) := by
  unfold execGateClose
  repeat' (first | with_reducible assumption | exact part_trans (by decide) hT | intro _ | extract_lets | with_reducible apply withinRes_next | with_reducible apply withinRes_ite | with_reducible apply within_ite | with_reducible apply State.setF_within | with_reducible apply State.raise_within | fail_if_no_progress ((with_reducible apply within_upd) <;> first | with_reducible exact Or.inl rfl | exact Or.inr (hT (by decide)) | skip) | exact Or.inl (hT (by decide)) | exact Or.inr (hT (by simp)) | split | dsimp +zetaDelta only)

theorem execEsmcPduRx_within {T : List Part} {s0 s : State} (h : State.Within T s0 s) (hT : [.block 1, .block 2, .block 20, .block 21, .block 22, .block 6, .clk, .cmp, .freeIx, .gd, .ky, .mac, .mem, .ms, .mtb, .notes, .out, .pa, .pl, .pr, .queues, .rd, .regs, .resp, .ro, .ry, .sl, .su, .svc, .tie, .tm, .up, .upl0, .upl1] ⊆ T) (port : Fin 2) (ssm : Fin 16) (essm : Option (Fin 256)) (t : Nat) : WithinRes T s0 (execEsmcPduRx port ssm essm t s) := by
  unfold execEsmcPduRx
  repeat' (first | with_reducible assumption | exact part_trans (by decide) hT | intro _ | extract_lets | with_reducible apply withinRes_next | with_reducible apply withinRes_ite | with_reducible apply within_ite | with_reducible apply State.advance_within | with_reducible apply State.setF_within | with_reducible apply State.setB_within | with_reducible apply State.setUpl_within | with_reducible apply State.setBlocked_within | with_reducible apply State.raiseIf_within | fail_if_no_progress ((with_reducible apply within_upd) <;> first | with_reducible exact Or.inl rfl | exact Or.inr (hT (by decide)) | skip) | exact Or.inl (hT (by decide)) | exact Or.inr (hT (by simp)) | split | dsimp +zetaDelta only)

theorem execEsmcTimeout_within {T : List Part} {s0 s : State} (h : State.Within T s0 s) (hT : [.block 1, .block 2, .block 20, .block 21, .block 22, .block 6, .clk, .cmp, .freeIx, .gd, .ky, .mac, .mem, .ms, .mtb, .notes, .out, .pa, .pl, .pr, .queues, .rd, .regs, .resp, .ro, .ry, .sl, .su, .svc, .tie, .tm, .up, .upl0, .upl1] ⊆ T) (port : Fin 2) (t : Nat) : WithinRes T s0 (execEsmcTimeout port t s) := by
  unfold execEsmcTimeout
  repeat' (first | with_reducible assumption | exact part_trans (by decide) hT | intro _ | extract_lets | with_reducible apply withinRes_next | with_reducible apply withinRes_ite | with_reducible apply within_ite | with_reducible apply State.advance_within | with_reducible apply State.setF_within | with_reducible apply State.setUpl_within | with_reducible apply State.raiseIf_within | with_reducible apply State.setBlocked_within | fail_if_no_progress ((with_reducible apply within_upd) <;> first | with_reducible exact Or.inl rfl | exact Or.inr (hT (by decide)) | skip) | exact Or.inl (hT (by decide)) | exact Or.inr (hT (by simp)) | split | dsimp +zetaDelta only)

theorem execEsmcSend_within {T : List Part} {s0 s : State} (h : State.Within T s0 s) (hT : [.out] ⊆ T) : WithinRes T s0 (execEsmcSend s) := by
  unfold execEsmcSend
  repeat' (first | with_reducible assumption | exact part_trans (by decide) hT | intro _ | extract_lets | with_reducible apply withinRes_next | with_reducible apply withinRes_ite | with_reducible apply within_ite | with_reducible apply State.each_within | with_reducible apply State.emit_within | fail_if_no_progress ((with_reducible apply within_upd) <;> first | with_reducible exact Or.inl rfl | exact Or.inr (hT (by decide)) | skip) | exact Or.inl (hT (by decide)) | exact Or.inr (hT (by simp)) | split | dsimp +zetaDelta only)

theorem execUplSignalDetect_within {T : List Part} {s0 s : State} (h : State.Within T s0 s) (hT : [.block 3] ⊆ T) (port : Fin 2) (dme : Bool) : WithinRes T s0 (execUplSignalDetect port dme s) := by
  unfold execUplSignalDetect
  repeat' (first | with_reducible assumption | exact part_trans (by decide) hT | intro _ | extract_lets | with_reducible apply withinRes_next | with_reducible apply withinRes_ite | with_reducible apply within_ite | with_reducible apply State.setF_within | with_reducible apply State.setB_within | fail_if_no_progress ((with_reducible apply within_upd) <;> first | with_reducible exact Or.inl rfl | exact Or.inr (hT (by decide)) | skip) | exact Or.inl (hT (by decide)) | exact Or.inr (hT (by simp)) | split | dsimp +zetaDelta only)

theorem State.anStart_within {T : List Part} {s0 s : State} (h : State.Within T s0 s) (hT : [.block 3, .out] ⊆ T) (p : Nat) : State.Within T s0 (State.anStart s p) := by
  unfold State.anStart
  repeat' (first | with_reducible assumption | exact part_trans (by decide) hT | intro _ | extract_lets | with_reducible apply within_ite | with_reducible apply State.setF_within | with_reducible apply State.emit_within | fail_if_no_progress ((with_reducible apply within_upd) <;> first | with_reducible exact Or.inl rfl | exact Or.inr (hT (by decide)) | skip) | exact Or.inl (hT (by decide)) | exact Or.inr (hT (by simp)) | split | dsimp +zetaDelta only)

theorem execUplAcquisitionDone_within {T : List Part} {s0 s : State} (h : State.Within T s0 s) (hT : [.block 3, .out] ⊆ T) (port : Fin 2) : WithinRes T s0 (execUplAcquisitionDone port s) := by
  unfold execUplAcquisitionDone
  repeat' (first | with_reducible assumption | exact part_trans (by decide) hT | intro _ | extract_lets | with_reducible apply withinRes_next | with_reducible apply withinRes_ite | with_reducible apply within_ite | with_reducible apply State.setF_within | with_reducible apply State.anStart_within | fail_if_no_progress ((with_reducible apply within_upd) <;> first | with_reducible exact Or.inl rfl | exact Or.inr (hT (by decide)) | skip) | exact Or.inl (hT (by decide)) | exact Or.inr (hT (by simp)) | split | dsimp +zetaDelta only)

theorem execUplNextPageRx_within {T : List Part} {s0 s : State} (h : State.Within T s0 s) (hT : [.out] ⊆ T) (port : Fin 2) : WithinRes T s0 (execUplNextPageRx port s) := by
  unfold execUplNextPageRx
  repeat' (first | with_reducible assumption | exact part_trans (by decide) hT | intro _ | extract_lets | with_reducible apply withinRes_next | with_reducible apply withinRes_ite | with_reducible apply within_ite | with_reducible apply State.emit_within | fail_if_no_progress ((with_reducible apply within_upd) <;> first | with_reducible exact Or.inl rfl | exact Or.inr (hT (by decide)) | skip) | exact Or.inl (hT (by decide)) | exact Or.inr (hT (by simp)) | split | dsimp +zetaDelta only)

theorem execUplAnComplete_within {T : List Part} {s0 s : State} (h : State.Within T s0 s) (hT : [.block 3] ⊆ T) (port : Fin 2) (base : Fin 65536) : WithinRes T s0 (execUplAnComplete port base s) := by
  unfold execUplAnComplete
  repeat' (first | with_reducible assumption | exact part_trans (by decide) hT | intro _ | extract_lets | with_reducible apply withinRes_next | with_reducible apply withinRes_ite | with_reducible apply within_ite | with_reducible apply State.setB_within | with_reducible apply State.setF_within | fail_if_no_progress ((with_reducible apply within_upd) <;> first | with_reducible exact Or.inl rfl | exact Or.inr (hT (by decide)) | skip) | exact Or.inl (hT (by decide)) | exact Or.inr (hT (by simp)) | split | dsimp +zetaDelta only)

theorem execUplTrainingDone_within {T : List Part} {s0 s : State} (h : State.Within T s0 s) (hT : [.block 3] ⊆ T) (port : Fin 2) : WithinRes T s0 (execUplTrainingDone port s) := by
  unfold execUplTrainingDone
  repeat' (first | with_reducible assumption | exact part_trans (by decide) hT | intro _ | extract_lets | with_reducible apply withinRes_next | with_reducible apply withinRes_ite | with_reducible apply within_ite | with_reducible apply State.setF_within | fail_if_no_progress ((with_reducible apply within_upd) <;> first | with_reducible exact Or.inl rfl | exact Or.inr (hT (by decide)) | skip) | exact Or.inl (hT (by decide)) | exact Or.inr (hT (by simp)) | split | dsimp +zetaDelta only)

theorem execUplBlockLock_within {T : List Part} {s0 s : State} (h : State.Within T s0 s) (hT : [.block 1, .block 11, .block 12, .block 14, .block 15, .block 16, .block 2, .block 20, .block 21, .block 22, .block 3, .block 5, .block 6, .block 7, .clk, .cmp, .freeIx, .ky, .mac, .mem, .ms, .mtb, .notes, .out, .pa, .pl, .queues, .rd, .resp, .ro, .ry, .sl, .tie, .tm, .up, .upl0, .upl1] ⊆ T) (port : Fin 2) (t : Nat) : WithinRes T s0 (execUplBlockLock port t s) := by
  unfold execUplBlockLock
  repeat' (first | with_reducible assumption | exact part_trans (by decide) hT | intro _ | extract_lets | with_reducible apply withinRes_next | with_reducible apply withinRes_ite | with_reducible apply within_ite | with_reducible apply State.advance_within | with_reducible apply State.setF_within | with_reducible apply State.setUpl_within | with_reducible apply State.sourceLocked_within | with_reducible apply State.ryPortBack_within | with_reducible apply State.raise_within | fail_if_no_progress ((with_reducible apply within_upd) <;> first | with_reducible exact Or.inl rfl | exact Or.inr (hT (by decide)) | skip) | exact Or.inl (hT (by decide)) | exact Or.inr (hT (by simp)) | split | dsimp +zetaDelta only)

theorem execUplTrainTimeout_within {T : List Part} {s0 s : State} (h : State.Within T s0 s) (hT : [.block 3, .notes, .out] ⊆ T) (port : Fin 2) : WithinRes T s0 (execUplTrainTimeout port s) := by
  unfold execUplTrainTimeout
  repeat' (first | with_reducible assumption | exact part_trans (by decide) hT | intro _ | extract_lets | with_reducible apply withinRes_next | with_reducible apply withinRes_ite | with_reducible apply within_ite | with_reducible apply State.setF_within | with_reducible apply State.bump_within | with_reducible apply State.anStart_within | with_reducible apply State.raise_within | fail_if_no_progress ((with_reducible apply within_upd) <;> first | with_reducible exact Or.inl rfl | exact Or.inr (hT (by decide)) | skip) | exact Or.inl (hT (by decide)) | exact Or.inr (hT (by simp)) | split | dsimp +zetaDelta only)

theorem execUplLinkLost_within {T : List Part} {s0 s : State} (h : State.Within T s0 s) (hT : [.block 1, .block 11, .block 12, .block 14, .block 15, .block 16, .block 2, .block 20, .block 21, .block 22, .block 3, .block 5, .block 6, .block 7, .clk, .cmp, .freeIx, .gd, .ky, .mac, .mem, .ms, .mtb, .notes, .out, .pa, .pl, .pr, .queues, .rd, .regs, .resp, .ro, .ry, .sl, .su, .svc, .tie, .tm, .up, .upl0, .upl1] ⊆ T) (port : Fin 2) (t : Nat) : WithinRes T s0 (execUplLinkLost port t s) := by
  unfold execUplLinkLost
  repeat' (first | with_reducible assumption | exact part_trans (by decide) hT | intro _ | extract_lets | with_reducible apply withinRes_next | with_reducible apply withinRes_ite | with_reducible apply within_ite | with_reducible apply State.advance_within | with_reducible apply State.sourceLost_within | fail_if_no_progress ((with_reducible apply within_upd) <;> first | with_reducible exact Or.inl rfl | exact Or.inr (hT (by decide)) | skip) | exact Or.inl (hT (by decide)) | exact Or.inr (hT (by simp)) | split | dsimp +zetaDelta only)

theorem State.adminWrite_within {T : List Part} {s0 s : State} (h : State.Within T s0 s) (hT : [.block 1, .block 11, .block 12, .block 14, .block 15, .block 16, .block 20, .block 21, .block 3, .block 6, .block 7, .clk, .cmp, .freeIx, .ky, .mac, .mem, .ms, .mtb, .notes, .out, .pa, .pl, .queues, .rd, .resp, .ro, .ry, .sl, .tm] ⊆ T) (p : Nat) (v : Nat) : State.Within T s0 (State.adminWrite s p v) := by
  unfold State.adminWrite
  repeat' (first | with_reducible assumption | exact part_trans (by decide) hT | intro _ | extract_lets | with_reducible apply within_ite | with_reducible apply State.answer_within | with_reducible apply State.gatedRefuse_within | with_reducible apply State.refuse_within | with_reducible apply State.leasePathCheck_within | with_reducible apply State.setF_within | with_reducible apply State.raise_within | with_reducible apply State.switchTo_within | fail_if_no_progress ((with_reducible apply within_upd) <;> first | with_reducible exact Or.inl rfl | exact Or.inr (hT (by decide)) | skip) | exact Or.inl (hT (by decide)) | exact Or.inr (hT (by simp)) | split | dsimp +zetaDelta only)

theorem execUplAdminWrite_within {T : List Part} {s0 s : State} (h : State.Within T s0 s) (hT : [.block 1, .block 11, .block 12, .block 14, .block 15, .block 16, .block 20, .block 21, .block 3, .block 6, .block 7, .clk, .cmp, .freeIx, .ky, .mac, .mem, .ms, .mtb, .notes, .out, .pa, .pl, .queues, .rd, .resp, .ro, .ry, .sl, .tm] ⊆ T) (port : Fin 2) (v : Fin 4) : WithinRes T s0 (execUplAdminWrite port v s) := by
  unfold execUplAdminWrite
  repeat' (first | with_reducible assumption | exact part_trans (by decide) hT | intro _ | extract_lets | with_reducible apply withinRes_next | with_reducible apply withinRes_ite | with_reducible apply within_ite | with_reducible apply State.adminWrite_within | fail_if_no_progress ((with_reducible apply within_upd) <;> first | with_reducible exact Or.inl rfl | exact Or.inr (hT (by decide)) | skip) | exact Or.inl (hT (by decide)) | exact Or.inr (hT (by simp)) | split | dsimp +zetaDelta only)

theorem State.uplRetrain_within {T : List Part} {s0 s : State} (h : State.Within T s0 s) (hT : [.block 1, .block 11, .block 12, .block 14, .block 15, .block 16, .block 2, .block 20, .block 21, .block 22, .block 3, .block 5, .block 6, .block 7, .clk, .cmp, .freeIx, .gd, .ky, .mac, .mem, .ms, .mtb, .notes, .out, .pa, .pl, .pr, .queues, .rd, .regs, .resp, .ro, .ry, .sl, .su, .svc, .tie, .tm, .up, .upl0, .upl1] ⊆ T) (p : Nat) : State.Within T s0 (State.uplRetrain s p) := by
  unfold State.uplRetrain
  repeat' (first | with_reducible assumption | exact part_trans (by decide) hT | intro _ | extract_lets | with_reducible apply within_ite | with_reducible apply State.gatedRefuse_within | with_reducible apply State.answer_within | with_reducible apply State.sourceLost_within | fail_if_no_progress ((with_reducible apply within_upd) <;> first | with_reducible exact Or.inl rfl | exact Or.inr (hT (by decide)) | skip) | exact Or.inl (hT (by decide)) | exact Or.inr (hT (by simp)) | split | dsimp +zetaDelta only)

theorem execUplRetrain_within {T : List Part} {s0 s : State} (h : State.Within T s0 s) (hT : [.block 1, .block 11, .block 12, .block 14, .block 15, .block 16, .block 2, .block 20, .block 21, .block 22, .block 3, .block 5, .block 6, .block 7, .clk, .cmp, .freeIx, .gd, .ky, .mac, .mem, .ms, .mtb, .notes, .out, .pa, .pl, .pr, .queues, .rd, .regs, .resp, .ro, .ry, .sl, .su, .svc, .tie, .tm, .up, .upl0, .upl1] ⊆ T) (port : Fin 2) : WithinRes T s0 (execUplRetrain port s) := by
  unfold execUplRetrain
  repeat' (first | with_reducible assumption | exact part_trans (by decide) hT | intro _ | extract_lets | with_reducible apply withinRes_next | with_reducible apply withinRes_ite | with_reducible apply within_ite | with_reducible apply State.uplRetrain_within | fail_if_no_progress ((with_reducible apply within_upd) <;> first | with_reducible exact Or.inl rfl | exact Or.inr (hT (by decide)) | skip) | exact Or.inl (hT (by decide)) | exact Or.inr (hT (by simp)) | split | dsimp +zetaDelta only)

theorem State.fcDiscard_within {T : List Part} {s0 s : State} (h : State.Within T s0 s) (hT : [.block 3, .notes, .upl0, .upl1] ⊆ T) (p : Nat) : State.Within T s0 (State.fcDiscard s p) := by
  unfold State.fcDiscard
  repeat' (first | with_reducible assumption | exact part_trans (by decide) hT | intro _ | extract_lets | with_reducible apply within_ite | with_reducible apply State.raise_within | with_reducible apply State.setUpl_within | fail_if_no_progress ((with_reducible apply within_upd) <;> first | with_reducible exact Or.inl rfl | exact Or.inr (hT (by decide)) | skip) | exact Or.inl (hT (by decide)) | exact Or.inr (hT (by simp)) | split | dsimp +zetaDelta only)

theorem State.pauseFor_within {T : List Part} {s0 s : State} (h : State.Within T s0 s) (hT : [.upl0, .upl1] ⊆ T) (p : Nat) (prio : Nat) (quanta : Nat) : State.Within T s0 (State.pauseFor s p prio quanta) := by
  unfold State.pauseFor
  repeat' (first | with_reducible assumption | exact part_trans (by decide) hT | intro _ | extract_lets | with_reducible apply within_ite | with_reducible apply State.setUpl_within | fail_if_no_progress ((with_reducible apply within_upd) <;> first | with_reducible exact Or.inl rfl | exact Or.inr (hT (by decide)) | skip) | exact Or.inl (hT (by decide)) | exact Or.inr (hT (by simp)) | split | dsimp +zetaDelta only)

theorem execPauseFrameRx_within {T : List Part} {s0 s : State} (h : State.Within T s0 s) (hT : [.block 3, .mtb, .notes, .upl0, .upl1] ⊆ T) (port : Fin 2) (quanta : Fin 65536) (t : Nat) : WithinRes T s0 (execPauseFrameRx port quanta t s) := by
  unfold execPauseFrameRx
  repeat' (first | with_reducible assumption | exact part_trans (by decide) hT | intro _ | extract_lets | with_reducible apply withinRes_next | with_reducible apply withinRes_ite | with_reducible apply within_ite | with_reducible apply State.advance_within | with_reducible apply State.pauseFor_within | with_reducible apply State.fcDiscard_within | fail_if_no_progress ((with_reducible apply within_upd) <;> first | with_reducible exact Or.inl rfl | exact Or.inr (hT (by decide)) | skip) | exact Or.inl (hT (by decide)) | exact Or.inr (hT (by simp)) | split | dsimp +zetaDelta only)

theorem execPfcFrameRx_within {T : List Part} {s0 s : State} (h : State.Within T s0 s) (hT : [.block 3, .mtb, .notes, .upl0, .upl1] ⊆ T) (port : Fin 2) (entries : List (Fin 8 × Fin 65536)) (t : Nat) : WithinRes T s0 (execPfcFrameRx port entries t s) := by
  unfold execPfcFrameRx
  repeat' (first | with_reducible assumption | exact part_trans (by decide) hT | intro _ | extract_lets | with_reducible apply withinRes_next | with_reducible apply withinRes_ite | with_reducible apply within_ite | with_reducible apply State.advance_within | with_reducible apply State.each_within | with_reducible apply State.pauseFor_within | with_reducible apply State.fcDiscard_within | fail_if_no_progress ((with_reducible apply within_upd) <;> first | with_reducible exact Or.inl rfl | exact Or.inr (hT (by decide)) | skip) | exact Or.inl (hT (by decide)) | exact Or.inr (hT (by simp)) | split | dsimp +zetaDelta only)

theorem execPauseQuantaEnd_within {T : List Part} {s0 s : State} (h : State.Within T s0 s) (hT : [.mtb, .upl0, .upl1] ⊆ T) (port : Fin 2) (prio : Fin 9) (t : Nat) : WithinRes T s0 (execPauseQuantaEnd port prio t s) := by
  unfold execPauseQuantaEnd
  repeat' (first | with_reducible assumption | exact part_trans (by decide) hT | intro _ | extract_lets | with_reducible apply withinRes_next | with_reducible apply withinRes_ite | with_reducible apply within_ite | with_reducible apply State.advance_within | with_reducible apply State.setUpl_within | fail_if_no_progress ((with_reducible apply within_upd) <;> first | with_reducible exact Or.inl rfl | exact Or.inr (hT (by decide)) | skip) | exact Or.inl (hT (by decide)) | exact Or.inr (hT (by simp)) | split | dsimp +zetaDelta only)

theorem execFcFrameSend_within {T : List Part} {s0 s : State} (h : State.Within T s0 s) (hT : [.mtb, .out, .upl0, .upl1] ⊆ T) (port : Fin 2) (t : Nat) : WithinRes T s0 (execFcFrameSend port t s) := by
  unfold execFcFrameSend
  repeat' (first | with_reducible assumption | exact part_trans (by decide) hT | intro _ | extract_lets | with_reducible apply withinRes_next | with_reducible apply withinRes_ite | with_reducible apply within_ite | with_reducible apply State.advance_within | with_reducible apply State.emit_within | with_reducible apply State.setUpl_within | fail_if_no_progress ((with_reducible apply within_upd) <;> first | with_reducible exact Or.inl rfl | exact Or.inr (hT (by decide)) | skip) | exact Or.inl (hT (by decide)) | exact Or.inr (hT (by simp)) | split | dsimp +zetaDelta only)

theorem execFcFrameRepeat_within {T : List Part} {s0 s : State} (h : State.Within T s0 s) (hT : [.mtb, .out, .upl0, .upl1] ⊆ T) (port : Fin 2) (t : Nat) : WithinRes T s0 (execFcFrameRepeat port t s) := by
  unfold execFcFrameRepeat
  repeat' (first | with_reducible assumption | exact part_trans (by decide) hT | intro _ | extract_lets | with_reducible apply withinRes_next | with_reducible apply withinRes_ite | with_reducible apply within_ite | with_reducible apply State.advance_within | with_reducible apply State.emit_within | with_reducible apply State.setUpl_within | fail_if_no_progress ((with_reducible apply within_upd) <;> first | with_reducible exact Or.inl rfl | exact Or.inr (hT (by decide)) | skip) | exact Or.inl (hT (by decide)) | exact Or.inr (hT (by simp)) | split | dsimp +zetaDelta only)

theorem execUplFrameRx_within {T : List Part} {s0 s : State} (h : State.Within T s0 s) (hT : [.block 15, .block 16, .freeIx, .mem, .ms, .notes, .queues, .resp, .ry] ⊆ T) (port : Fin 2) (queue : Fin 256) (octets : List Byte) (fcsOk : Bool) : WithinRes T s0 (execUplFrameRx port queue octets fcsOk s) := by
  unfold execUplFrameRx
  repeat' (first | with_reducible assumption | exact part_trans (by decide) hT | intro _ | extract_lets | with_reducible apply withinRes_next | with_reducible apply withinRes_ite | with_reducible apply within_ite | with_reducible apply State.frameIn_within | refine withinO_elim (by with_reducible assumption) (State.frameIn_within ?_ ?_ _) | with_reducible apply State.frameDrop_within | with_reducible apply State.enqueue_within | with_reducible apply State.writeBytes_within | with_reducible apply State.pktFree_within | fail_if_no_progress ((with_reducible apply within_upd) <;> first | with_reducible exact Or.inl rfl | exact Or.inr (hT (by decide)) | skip) | exact Or.inl (hT (by decide)) | exact Or.inr (hT (by simp)) | split | dsimp +zetaDelta only)

theorem State.tiePhase_within {T : List Part} {s0 s : State} (h : State.Within T s0 s) (hT : [.block 5, .tie] ⊆ T) (k : Nat) : State.Within T s0 (State.tiePhase s k) := by
  unfold State.tiePhase
  repeat' (first | with_reducible assumption | exact part_trans (by decide) hT | with_reducible apply State.setF_within | fail_if_no_progress ((with_reducible apply within_upd) <;> first | with_reducible exact Or.inl rfl | exact Or.inr (hT (by decide)) | skip) | exact Or.inl (hT (by decide)) | exact Or.inr (hT (by simp)))

theorem execTieAcquisitionDone_within {T : List Part} {s0 s : State} (h : State.Within T s0 s) (hT : [.block 1, .block 11, .block 12, .block 14, .block 15, .block 16, .block 2, .block 20, .block 21, .block 22, .block 3, .block 5, .block 6, .block 7, .clk, .cmp, .freeIx, .ky, .mac, .mem, .ms, .mtb, .notes, .out, .pa, .pl, .queues, .rd, .resp, .ro, .ry, .sl, .tie, .tm, .up] ⊆ T) (t : Nat) : WithinRes T s0 (execTieAcquisitionDone t s) := by
  unfold execTieAcquisitionDone
  repeat' (first | with_reducible assumption | exact part_trans (by decide) hT | intro _ | extract_lets | with_reducible apply withinRes_next | with_reducible apply withinRes_ite | with_reducible apply within_ite | with_reducible apply State.advance_within | with_reducible apply State.sourceLocked_within | with_reducible apply State.tiePhase_within | with_reducible apply State.tieLocked_within | fail_if_no_progress ((with_reducible apply within_upd) <;> first | with_reducible exact Or.inl rfl | exact Or.inr (hT (by decide)) | skip) | exact Or.inl (hT (by decide)) | exact Or.inr (hT (by simp)) | split | dsimp +zetaDelta only)

theorem execTieTrainBlockRx_within {T : List Part} {s0 s : State} (h : State.Within T s0 s) (hT : [.out, .tie] ⊆ T) (pre : Fin 3) (main : Fin 3) (post : Fin 3) (preEdge : Bool) (mainEdge : Bool) (postEdge : Bool) (ready : Bool) (askPre : Fin 3) (askMain : Fin 3) (askPost : Fin 3) (askReady : Bool) : WithinRes T s0 (execTieTrainBlockRx pre main post preEdge mainEdge postEdge ready askPre askMain askPost askReady s) := by
  unfold execTieTrainBlockRx
  repeat' (first | with_reducible assumption | exact part_trans (by decide) hT | intro _ | extract_lets | with_reducible apply withinRes_next | with_reducible apply withinRes_ite | with_reducible apply within_ite | with_reducible apply State.tieSend_within | fail_if_no_progress ((with_reducible apply within_upd) <;> first | with_reducible exact Or.inl rfl | exact Or.inr (hT (by decide)) | skip) | exact Or.inl (hT (by decide)) | exact Or.inr (hT (by simp)) | split | dsimp +zetaDelta only)

theorem execTieEqualiserDone_within {T : List Part} {s0 s : State} (h : State.Within T s0 s) (hT : [.block 5, .mtb, .out, .tie] ⊆ T) (t : Nat) : WithinRes T s0 (execTieEqualiserDone t s) := by
  unfold execTieEqualiserDone
  repeat' (first | with_reducible assumption | exact part_trans (by decide) hT | intro _ | extract_lets | with_reducible apply withinRes_next | with_reducible apply withinRes_ite | with_reducible apply within_ite | with_reducible apply State.advance_within | with_reducible apply State.tiePhase_within | with_reducible apply State.tieSend_within | fail_if_no_progress ((with_reducible apply within_upd) <;> first | with_reducible exact Or.inl rfl | exact Or.inr (hT (by decide)) | skip) | exact Or.inl (hT (by decide)) | exact Or.inr (hT (by simp)) | split | dsimp +zetaDelta only)

theorem execTieRoleBlockRx_within {T : List Part} {s0 s : State} (h : State.Within T s0 s) (hT : [.out, .tie] ⊆ T) (b : RoleBlk) : WithinRes T s0 (execTieRoleBlockRx b s) := by
  unfold execTieRoleBlockRx
  repeat' (first | with_reducible assumption | exact part_trans (by decide) hT | intro _ | extract_lets | with_reducible apply withinRes_next | with_reducible apply withinRes_ite | with_reducible apply within_ite | with_reducible apply State.tieSend_within | fail_if_no_progress ((with_reducible apply within_upd) <;> first | with_reducible exact Or.inl rfl | exact Or.inr (hT (by decide)) | skip) | exact Or.inl (hT (by decide)) | exact Or.inr (hT (by simp)) | split | dsimp +zetaDelta only)

theorem execTieRoleExchangeDone_within {T : List Part} {s0 s : State} (h : State.Within T s0 s) (hT : [.block 1, .block 18, .block 2, .block 20, .block 21, .block 22, .block 5, .clk, .cmp, .freeIx, .gd, .ky, .mac, .mem, .ms, .mtb, .notes, .out, .pa, .pl, .pr, .queues, .rd, .regs, .resp, .ro, .ry, .sl, .su, .svc, .tie, .tm, .up, .upl0, .upl1] ⊆ T) (t : Nat) : WithinRes T s0 (execTieRoleExchangeDone t s) := by
  unfold execTieRoleExchangeDone
  repeat' (first | with_reducible assumption | exact part_trans (by decide) hT | intro _ | extract_lets | with_reducible apply withinRes_next | with_reducible apply withinRes_ite | with_reducible apply within_ite | with_reducible apply State.advance_within | with_reducible apply State.tiePhase_within | with_reducible apply State.setF_within | with_reducible apply State.setB_within | with_reducible apply State.raise_within | with_reducible apply State.tieUp_within | with_reducible apply State.setBlocked_within | fail_if_no_progress ((with_reducible apply within_upd) <;> first | with_reducible exact Or.inl rfl | exact Or.inr (hT (by decide)) | skip) | exact Or.inl (hT (by decide)) | exact Or.inr (hT (by simp)) | split | dsimp +zetaDelta only)

theorem execTiePhaseTimeout_within {T : List Part} {s0 s : State} (h : State.Within T s0 s) (hT : [.block 11, .block 12, .block 14, .block 15, .block 16, .block 20, .block 21, .block 22, .block 5, .block 6, .block 7, .cmp, .freeIx, .ky, .mac, .mem, .ms, .mtb, .notes, .out, .pa, .pl, .queues, .rd, .resp, .ro, .ry, .sl, .tie, .tm, .up] ⊆ T) (t : Nat) : WithinRes T s0 (execTiePhaseTimeout t s) := by
  unfold execTiePhaseTimeout
  repeat' (first | with_reducible assumption | exact part_trans (by decide) hT | intro _ | extract_lets | with_reducible apply withinRes_next | with_reducible apply withinRes_ite | with_reducible apply within_ite | with_reducible apply State.advance_within | with_reducible apply State.answer_within | with_reducible apply State.tieAgain_within | with_reducible apply State.raise_within | with_reducible apply State.bump_within | fail_if_no_progress ((with_reducible apply within_upd) <;> first | with_reducible exact Or.inl rfl | exact Or.inr (hT (by decide)) | skip) | exact Or.inl (hT (by decide)) | exact Or.inr (hT (by simp)) | split | dsimp +zetaDelta only)

theorem State.tieRetrain_within {T : List Part} {s0 s : State} (h : State.Within T s0 s) (hT : [.block 11, .block 12, .block 14, .block 15, .block 16, .block 20, .block 21, .block 22, .block 5, .block 6, .block 7, .cmp, .freeIx, .ky, .mac, .mem, .ms, .mtb, .notes, .out, .pa, .pl, .queues, .rd, .resp, .ro, .ry, .sl, .tie, .tm, .up] ⊆ T) : State.Within T s0 (State.tieRetrain s) := by
  unfold State.tieRetrain
  repeat' (first | with_reducible assumption | exact part_trans (by decide) hT | intro _ | extract_lets | with_reducible apply within_ite | with_reducible apply State.answer_within | with_reducible apply State.tieAgain_within | fail_if_no_progress ((with_reducible apply within_upd) <;> first | with_reducible exact Or.inl rfl | exact Or.inr (hT (by decide)) | skip) | exact Or.inl (hT (by decide)) | exact Or.inr (hT (by simp)) | split | dsimp +zetaDelta only)

theorem execTieRetrain_within {T : List Part} {s0 s : State} (h : State.Within T s0 s) (hT : [.block 11, .block 12, .block 14, .block 15, .block 16, .block 20, .block 21, .block 22, .block 5, .block 6, .block 7, .cmp, .freeIx, .ky, .mac, .mem, .ms, .mtb, .notes, .out, .pa, .pl, .queues, .rd, .resp, .ro, .ry, .sl, .tie, .tm, .up] ⊆ T) : WithinRes T s0 (execTieRetrain s) := by
  unfold execTieRetrain
  repeat' (first | with_reducible assumption | exact part_trans (by decide) hT | intro _ | extract_lets | with_reducible apply withinRes_next | with_reducible apply withinRes_ite | with_reducible apply within_ite | with_reducible apply State.tieRetrain_within | fail_if_no_progress ((with_reducible apply within_upd) <;> first | with_reducible exact Or.inl rfl | exact Or.inr (hT (by decide)) | skip) | exact Or.inl (hT (by decide)) | exact Or.inr (hT (by simp)) | split | dsimp +zetaDelta only)

theorem State.tieEnable_within {T : List Part} {s0 s : State} (h : State.Within T s0 s) (hT : [.block 1, .block 11, .block 12, .block 14, .block 15, .block 16, .block 2, .block 20, .block 21, .block 22, .block 3, .block 5, .block 6, .block 7, .clk, .cmp, .freeIx, .gd, .ky, .mac, .mem, .ms, .mtb, .notes, .out, .pa, .pl, .pr, .queues, .rd, .regs, .resp, .ro, .ry, .sl, .su, .svc, .tie, .tm, .up, .upl0, .upl1] ⊆ T) (on : Bool) : State.Within T s0 (State.tieEnable s on) := by
  unfold State.tieEnable
  repeat' (first | with_reducible assumption | exact part_trans (by decide) hT | intro _ | extract_lets | with_reducible apply within_ite | with_reducible apply State.answer_within | with_reducible apply State.tieAgain_within | with_reducible apply State.setF_within | with_reducible apply State.sourceLost_within | fail_if_no_progress ((with_reducible apply within_upd) <;> first | with_reducible exact Or.inl rfl | exact Or.inr (hT (by decide)) | skip) | exact Or.inl (hT (by decide)) | exact Or.inr (hT (by simp)) | split | dsimp +zetaDelta only)

theorem execTieEnableWrite_within {T : List Part} {s0 s : State} (h : State.Within T s0 s) (hT : [.block 1, .block 11, .block 12, .block 14, .block 15, .block 16, .block 2, .block 20, .block 21, .block 22, .block 3, .block 5, .block 6, .block 7, .clk, .cmp, .freeIx, .gd, .ky, .mac, .mem, .ms, .mtb, .notes, .out, .pa, .pl, .pr, .queues, .rd, .regs, .resp, .ro, .ry, .sl, .su, .svc, .tie, .tm, .up, .upl0, .upl1] ⊆ T) (on : Bool) : WithinRes T s0 (execTieEnableWrite on s) := by
  unfold execTieEnableWrite
  repeat' (first | with_reducible assumption | exact part_trans (by decide) hT | intro _ | extract_lets | with_reducible apply withinRes_next | with_reducible apply withinRes_ite | with_reducible apply within_ite | with_reducible apply State.tieEnable_within | fail_if_no_progress ((with_reducible apply within_upd) <;> first | with_reducible exact Or.inl rfl | exact Or.inr (hT (by decide)) | skip) | exact Or.inl (hT (by decide)) | exact Or.inr (hT (by simp)) | split | dsimp +zetaDelta only)

end Sys2Proof.Machine
end

