-- ==== Sys2Proof/Laws/WithinRouter.lean ====
section
/-!
SUPPORT. What the operations of the border router, the schedule and the campaigns can do: one lemma per operation, which names the
parts of the state that it may touch and says that it keeps the invariant and the queue. A proof about a step cites these and
unfolds none of the operations.
-/
namespace Sys2Proof.Machine
open Sys2Proof
set_option linter.all false
set_option Elab.async false

theorem State.ryEvent_within {T : List Part} {s0 s : State} (h : State.Within T s0 s) (hT : [.notes] ⊆ T) (b : Nat) : State.Within T s0 (State.ryEvent s b) := by
  unfold State.ryEvent
  repeat' (first | with_reducible assumption | exact part_trans (by decide) hT | fail_if_no_progress ((with_reducible apply within_upd) <;> first | with_reducible exact Or.inl rfl | exact Or.inr (hT (by decide)) | skip) | exact Or.inl (hT (by decide)) | exact Or.inr (hT (by simp)))

theorem State.say_within {T : List Part} {s0 s : State} (h : State.Within T s0 s) (hT : [.out] ⊆ T) (c : Ctl) : State.Within T s0 (State.say s c) := by
  unfold State.say
  repeat' (first | with_reducible assumption | exact part_trans (by decide) hT | with_reducible apply State.emit_within | exact Or.inl (hT (by decide)) | exact Or.inr (hT (by simp)))

theorem State.icmpError_within {T : List Part} {s0 s : State} (h : State.Within T s0 s) (hT : [.out, .ry] ⊆ T) (c : Ctl) : State.Within T s0 (State.icmpError s c) := by
  unfold State.icmpError
  repeat' (first | with_reducible assumption | exact part_trans (by decide) hT | with_reducible intro _ | with_reducible apply within_ite | with_reducible apply State.say_within | fail_if_no_progress ((with_reducible apply within_upd) <;> first | with_reducible exact Or.inl rfl | exact Or.inr (hT (by decide)) | skip) | exact Or.inl (hT (by decide)) | exact Or.inr (hT (by simp)))

theorem State.svcRead_within {T : List Part} {s0 s : State} (h : State.Within T s0 s) (ticket : Nat) (svc : Nat) (op : Nat) (f : State → State)  (hf : ∀ s, State.Within T s0 s → State.Within T s0 (f s)) : State.Within T s0 (State.svcRead s ticket svc op f) := by
  unfold State.svcRead
  repeat' (first | with_reducible assumption | with_reducible apply hf | with_reducible split)

theorem State.svcChange_within {T : List Part} {s0 s : State} (h : State.Within T s0 s) (hT : [.block 20, .cmp, .freeIx, .notes, .resp, .ro] ⊆ T) (ticket : Nat) (svc : Nat) (op : Nat) (arg1 : Nat) (arg2 : Nat) (f : State → State)  (hf : ∀ s, State.Within T s0 s → State.Within T s0 (f s)) : State.Within T s0 (State.svcChange s ticket svc op arg1 arg2 f) := by
  unfold State.svcChange
  repeat' (first | with_reducible assumption | exact part_trans (by decide) hT | with_reducible intro _ | with_reducible apply State.recordedCall_within | with_reducible apply State.finishCall_within | with_reducible apply hf | exact Or.inl (hT (by decide)) | exact Or.inr (hT (by simp)) | with_reducible split)

theorem State.callEnd_within {T : List Part} {s0 s : State} (h : State.Within T s0 s) (hT : [.cmp, .resp] ⊆ T) (ticket : Nat) (st : Nat) : State.Within T s0 (State.callEnd s ticket st) := by
  unfold State.callEnd
  repeat' (first | with_reducible assumption | exact part_trans (by decide) hT | with_reducible apply State.finishCall_within | exact Or.inl (hT (by decide)) | exact Or.inr (hT (by simp)))

theorem State.callDone_within {T : List Part} {s0 s : State} (h : State.Within T s0 s) (hT : [.cmp, .resp] ⊆ T) (ticket : Nat) (r : List (Nat × List Nat)) : State.Within T s0 (State.callDone s ticket r) := by
  unfold State.callDone
  repeat' (first | with_reducible assumption | exact part_trans (by decide) hT | with_reducible apply State.finishCall_within | exact Or.inl (hT (by decide)) | exact Or.inr (hT (by simp)))

theorem State.maybeSet_within {T : List Part} {s0 s : State} (h : State.Within T s0 s) (hT : [.block 21, .out, .pa, .ry] ⊆ T) (k : Nat) (v : Option (List Nat)) : State.Within T s0 (State.maybeSet s k v) := by
  unfold State.maybeSet
  repeat' (first | with_reducible assumption | exact part_trans (by decide) hT | with_reducible apply State.setSetting_within | exact Or.inl (hT (by decide)) | exact Or.inr (hT (by simp)) | with_reducible split)

theorem State.setRoot_within {T : List Part} {s0 s : State} (h : State.Within T s0 s) (hT : [.ry] ⊆ T) (p : Nat) (r : PanRoot) : State.Within T s0 (State.setRoot s p r) := by
  unfold State.setRoot
  repeat' (first | with_reducible assumption | exact part_trans (by decide) hT | fail_if_no_progress ((with_reducible apply within_upd) <;> first | with_reducible exact Or.inl rfl | exact Or.inr (hT (by decide)) | skip) | exact Or.inl (hT (by decide)) | exact Or.inr (hT (by simp)))

theorem State.trickleFrom_within {T : List Part} {s0 s : State} (h : State.Within T s0 s) (hT : [.freeIx, .ry] ⊆ T) (p : Nat) (start : Nat) (doubled : Nat) : State.Within T s0 (State.trickleFrom s p start doubled) := by
  unfold State.trickleFrom
  repeat' (first | with_reducible assumption | exact part_trans (by decide) hT | with_reducible apply State.useFree_within | with_reducible apply State.setRoot_within | exact Or.inl (hT (by decide)) | exact Or.inr (hT (by simp)))

theorem State.trickleReset_within {T : List Part} {s0 s : State} (h : State.Within T s0 s) (hT : [.freeIx, .ry] ⊆ T) (p : Nat) : State.Within T s0 (State.trickleReset s p) := by
  unfold State.trickleReset
  repeat' (first | with_reducible assumption | exact part_trans (by decide) hT | with_reducible intro _ | with_reducible apply within_ite | with_reducible apply State.trickleFrom_within | with_reducible apply State.setRoot_within | exact Or.inl (hT (by decide)) | exact Or.inr (hT (by simp)))

theorem State.newVersion_within {T : List Part} {s0 s : State} (h : State.Within T s0 s) (hT : [.freeIx, .ry] ⊆ T) (p : Nat) : State.Within T s0 (State.newVersion s p) := by
  unfold State.newVersion
  repeat' (first | with_reducible assumption | exact part_trans (by decide) hT | with_reducible apply State.setRoot_within | with_reducible apply State.trickleReset_within | exact Or.inl (hT (by decide)) | exact Or.inr (hT (by simp)))

theorem State.prefixMoved_within {T : List Part} {s0 s : State} (h : State.Within T s0 s) (hT : [.freeIx, .notes, .ry] ⊆ T) (p : Nat) (old : Option (Nat × Nat)) : State.Within T s0 (State.prefixMoved s p old) := by
  unfold State.prefixMoved
  repeat' (first | with_reducible assumption | exact part_trans (by decide) hT | with_reducible intro _ | with_reducible apply State.newVersion_within | with_reducible apply State.setRoot_within | with_reducible apply State.ryEvent_within | exact Or.inl (hT (by decide)) | exact Or.inr (hT (by simp)) | with_reducible split | with_reducible dsimp +zetaDelta only)

theorem execPrefixDelegationChange_within {T : List Part} {s0 s : State} (h : State.Within T s0 s) (hT : [.freeIx, .mtb, .notes, .ry] ⊆ T) (deleg : Option (BitVec 64 × Fin 65 × Nat)) (t : Nat) : WithinRes T s0 (execPrefixDelegationChange deleg t s) := by
  unfold execPrefixDelegationChange
  repeat' (first | with_reducible assumption | exact part_trans (by decide) hT | intro _ | extract_lets | with_reducible apply withinRes_next | with_reducible apply withinRes_ite | with_reducible apply within_ite | with_reducible apply State.advance_within | with_reducible apply State.each_within | with_reducible apply State.prefixMoved_within | with_reducible apply State.ryEvent_within | fail_if_no_progress ((with_reducible apply within_upd) <;> first | with_reducible exact Or.inl rfl | exact Or.inr (hT (by decide)) | skip) | exact Or.inl (hT (by decide)) | exact Or.inr (hT (by simp)) | split | dsimp +zetaDelta only)

theorem State.setNetPort_within {T : List Part} {s0 s : State} (h : State.Within T s0 s) (hT : [.ry] ⊆ T) (p : Nat) (v : NetPort) : State.Within T s0 (State.setNetPort s p v) := by
  unfold State.setNetPort
  repeat' (first | with_reducible assumption | exact part_trans (by decide) hT | with_reducible intro _ | with_reducible apply within_ite | fail_if_no_progress ((with_reducible apply within_upd) <;> first | with_reducible exact Or.inl rfl | exact Or.inr (hT (by decide)) | skip) | exact Or.inl (hT (by decide)) | exact Or.inr (hT (by simp)))

theorem execRouterAdvertisementRx_within {T : List Part} {s0 s : State} (h : State.Within T s0 s) (hT : [.mtb, .ry] ⊆ T) (port : Fin 2) (router : BitVec 128) (life : Nat) (prefixes : List (BitVec 64 × Bool × Nat)) (t : Nat) : WithinRes T s0 (execRouterAdvertisementRx port router life prefixes t s) := by
  unfold execRouterAdvertisementRx
  repeat' (first | with_reducible assumption | exact part_trans (by decide) hT | intro _ | extract_lets | with_reducible apply withinRes_next | with_reducible apply withinRes_ite | with_reducible apply within_ite | with_reducible apply State.advance_within | with_reducible apply State.ryPortBack_within | with_reducible apply State.setNetPort_within | fail_if_no_progress ((with_reducible apply within_upd) <;> first | with_reducible exact Or.inl rfl | exact Or.inr (hT (by decide)) | skip) | exact Or.inl (hT (by decide)) | exact Or.inr (hT (by simp)) | split | dsimp +zetaDelta only)

theorem execDefaultRouterExpiry_within {T : List Part} {s0 s : State} (h : State.Within T s0 s) (hT : [.mtb, .ry] ⊆ T) (port : Fin 2) (t : Nat) : WithinRes T s0 (execDefaultRouterExpiry port t s) := by
  unfold execDefaultRouterExpiry
  repeat' (first | with_reducible assumption | exact part_trans (by decide) hT | intro _ | extract_lets | with_reducible apply withinRes_next | with_reducible apply withinRes_ite | with_reducible apply within_ite | with_reducible apply State.advance_within | with_reducible apply State.setNetPort_within | fail_if_no_progress ((with_reducible apply within_upd) <;> first | with_reducible exact Or.inl rfl | exact Or.inr (hT (by decide)) | skip) | exact Or.inl (hT (by decide)) | exact Or.inr (hT (by simp)) | split | dsimp +zetaDelta only)

theorem execPreferredPortReturn_within {T : List Part} {s0 s : State} (h : State.Within T s0 s) (hT : [.mtb, .ry] ⊆ T) (t : Nat) : WithinRes T s0 (execPreferredPortReturn t s) := by
  unfold execPreferredPortReturn
  repeat' (first | with_reducible assumption | exact part_trans (by decide) hT | intro _ | extract_lets | with_reducible apply withinRes_next | with_reducible apply withinRes_ite | with_reducible apply within_ite | with_reducible apply State.advance_within | fail_if_no_progress ((with_reducible apply within_upd) <;> first | with_reducible exact Or.inl rfl | exact Or.inr (hT (by decide)) | skip) | exact Or.inl (hT (by decide)) | exact Or.inr (hT (by simp)) | split | dsimp +zetaDelta only)

theorem State.dropRoutes_within {T : List Part} {s0 s : State} (h : State.Within T s0 s) (hT : [.block 21, .mem, .out, .pa] ⊆ T) (n : Nat) : State.Within T s0 (State.dropRoutes s n) := by
  unfold State.dropRoutes
  repeat' (first | with_reducible assumption | exact part_trans (by decide) hT | with_reducible intro _ | with_reducible apply State.each_within | with_reducible apply State.recPut_within | exact Or.inl (hT (by decide)) | exact Or.inr (hT (by simp)))

theorem State.takeSlot_within {T : List Part} {s0 s : State} (h : State.Within T s0 s) (hT : [.block 21, .mem, .out, .pa, .ry] ⊆ T) (n : Nat) : Within2 T s0 (State.takeSlot s n) := by
  unfold State.takeSlot
  repeat' (first | with_reducible assumption | exact part_trans (by decide) hT | with_reducible intro _ | with_reducible apply within2_ite | with_reducible apply State.recPut_within | with_reducible apply within1_ite | with_reducible apply within2_ite | with_reducible apply withinO_some | with_reducible apply withinO_none | with_reducible apply withinO_ite | fail_if_no_progress ((with_reducible apply within_upd) <;> first | with_reducible exact Or.inl rfl | exact Or.inr (hT (by decide)) | skip) | with_reducible split | with_reducible apply within1_mk | with_reducible apply within2_mk | exact Or.inl (hT (by decide)) | exact Or.inr (hT (by simp)))

theorem State.route_within {T : List Part} {s0 s : State} (h : State.Within T s0 s) (hT : [.block 21, .mem, .out, .pa, .ry] ⊆ T) (n : Nat) : WithinO T s0 (State.route s n) := by
  unfold State.route
  repeat' (first | with_reducible assumption | exact part_trans (by decide) hT | with_reducible intro _ | with_reducible apply withinO_some | with_reducible apply withinO_none | with_reducible apply withinO_ite | with_reducible apply State.takeSlot_within | with_reducible apply within2_snd | with_reducible apply State.writeBytes_within | with_reducible apply State.journalAt_within | with_reducible apply State.recPut_within | with_reducible apply within1_ite | with_reducible apply within2_ite | with_reducible apply withinO_some | with_reducible apply withinO_none | with_reducible apply withinO_ite | fail_if_no_progress ((with_reducible apply within_upd) <;> first | with_reducible exact Or.inl rfl | exact Or.inr (hT (by decide)) | skip) | with_reducible split | with_reducible apply within1_mk | with_reducible apply within2_mk | exact Or.inl (hT (by decide)) | exact Or.inr (hT (by simp)))

theorem State.upstreamOut_within {T : List Part} {s0 s : State} (h : State.Within T s0 s) (hT : [.out] ⊆ T) (d : List Byte) : State.Within T s0 (State.upstreamOut s d) := by
  unfold State.upstreamOut
  repeat' (first | with_reducible assumption | exact part_trans (by decide) hT | intro _ | extract_lets | with_reducible apply within_ite | with_reducible apply State.say_within | fail_if_no_progress ((with_reducible apply within_upd) <;> first | with_reducible exact Or.inl rfl | exact Or.inr (hT (by decide)) | skip) | exact Or.inl (hT (by decide)) | exact Or.inr (hT (by simp)) | split | dsimp +zetaDelta only)

theorem State.fragments_within {T : List Part} {s0 s : State} (h : State.Within T s0 s) (hT : [.out] ⊆ T) (n : Nat) (hop : Nat) (tag : Nat) (mtu : Nat) (total : Nat) (x0 : Nat) (x1 : Nat) : State.Within T s0 (State.fragments s n hop tag mtu total x0 x1) := by
  induction x0 generalizing s n hop tag mtu total x1 with
  | zero =>
    unfold State.fragments
    repeat' (first | with_reducible assumption | exact part_trans (by decide) hT | intro _ | extract_lets | with_reducible apply within_ite | with_reducible apply State.say_within | with_reducible apply within1_ite | with_reducible apply within2_ite | with_reducible apply withinO_some | with_reducible apply withinO_none | with_reducible apply withinO_ite | fail_if_no_progress ((with_reducible apply within_upd) <;> first | with_reducible exact Or.inl rfl | exact Or.inr (hT (by decide)) | skip) | split | dsimp +zetaDelta only | with_reducible apply within1_mk | with_reducible apply within2_mk | exact Or.inl (hT (by decide)) | exact Or.inr (hT (by simp)))
  | succ k ih =>
    unfold State.fragments
    repeat' (first | with_reducible assumption | exact part_trans (by decide) hT | intro _ | extract_lets | with_reducible apply within_ite | with_reducible apply State.say_within | with_reducible apply within1_ite | with_reducible apply within2_ite | with_reducible apply withinO_some | with_reducible apply withinO_none | with_reducible apply withinO_ite | with_reducible apply ih | fail_if_no_progress ((with_reducible apply within_upd) <;> first | with_reducible exact Or.inl rfl | exact Or.inr (hT (by decide)) | skip) | split | dsimp +zetaDelta only | with_reducible apply within1_mk | with_reducible apply within2_mk | exact Or.inl (hT (by decide)) | exact Or.inr (hT (by simp)))

theorem execDownstreamPacket_within {T : List Part} {s0 s : State} (h : State.Within T s0 s) (hT : [.block 21, .mem, .mtb, .out, .pa, .ry] ⊆ T) (dest : BitVec 128) (octets : Nat) (hdrIn : Nat) (hdrOut : Nat) (phy : Fin 65536) (extra : Nat) (t : Nat) : WithinRes T s0 (execDownstreamPacket dest octets hdrIn hdrOut phy extra t s) := by
  unfold execDownstreamPacket
  repeat' (first | with_reducible assumption | exact part_trans (by decide) hT | intro _ | extract_lets | with_reducible apply withinRes_next | with_reducible apply withinRes_ite | with_reducible apply within_ite | with_reducible apply State.advance_within | with_reducible apply State.icmpError_within | with_reducible apply State.unreachable_within | with_reducible apply State.route_within | refine withinO_elim (by with_reducible assumption) (State.route_within ?_ ?_ _) | with_reducible apply State.say_within | with_reducible apply State.recPut_within | with_reducible apply State.fragments_within | fail_if_no_progress ((with_reducible apply within_upd) <;> first | with_reducible exact Or.inl rfl | exact Or.inr (hT (by decide)) | skip) | exact Or.inl (hT (by decide)) | exact Or.inr (hT (by simp)) | split | dsimp +zetaDelta only)

theorem execUpstreamFragmentRx_within {T : List Part} {s0 s : State} (h : State.Within T s0 s) (hT : [.mtb, .out, .ry] ⊆ T) (node : Nat) (tag : Nat) (size : Nat) (off : Nat) (data : List Byte) (t : Nat) : WithinRes T s0 (execUpstreamFragmentRx node tag size off data t s) := by
  unfold execUpstreamFragmentRx
  repeat' (first | with_reducible assumption | exact part_trans (by decide) hT | intro _ | extract_lets | with_reducible apply withinRes_next | with_reducible apply withinRes_ite | with_reducible apply within_ite | with_reducible apply State.advance_within | with_reducible apply State.upstreamOut_within | fail_if_no_progress ((with_reducible apply within_upd) <;> first | with_reducible exact Or.inl rfl | exact Or.inr (hT (by decide)) | skip) | exact Or.inl (hT (by decide)) | exact Or.inr (hT (by simp)) | split | dsimp +zetaDelta only)

theorem execReassemblyExpiry_within {T : List Part} {s0 s : State} (h : State.Within T s0 s) (hT : [.mtb, .ry] ⊆ T) (t : Nat) : WithinRes T s0 (execReassemblyExpiry t s) := by
  unfold execReassemblyExpiry
  repeat' (first | with_reducible assumption | exact part_trans (by decide) hT | intro _ | extract_lets | with_reducible apply withinRes_next | with_reducible apply withinRes_ite | with_reducible apply within_ite | with_reducible apply State.advance_within | fail_if_no_progress ((with_reducible apply within_upd) <;> first | with_reducible exact Or.inl rfl | exact Or.inr (hT (by decide)) | skip) | exact Or.inl (hT (by decide)) | exact Or.inr (hT (by simp)) | split | dsimp +zetaDelta only)

theorem State.deregister_within {T : List Part} {s0 s : State} (h : State.Within T s0 s) (hT : [.block 21, .gd, .mem, .out, .pa] ⊆ T) (n : Nat) : State.Within T s0 (State.deregister s n) := by
  unfold State.deregister
  repeat' (first | with_reducible assumption | exact part_trans (by decide) hT | with_reducible intro _ | with_reducible apply within_ite | with_reducible apply State.hashTake_within | with_reducible apply State.recPut_within | exact Or.inl (hT (by decide)) | exact Or.inr (hT (by simp)))

theorem State.registerWrite_within {T : List Part} {s0 s : State} (h : State.Within T s0 s) (hT : [.block 21, .mem, .out, .pa] ⊆ T) (n : Nat) (iid : Nat) (rovr : Nat) (life : Nat) : State.Within T s0 (State.registerWrite s n iid rovr life) := by
  unfold State.registerWrite
  repeat' (first | with_reducible assumption | exact part_trans (by decide) hT | with_reducible apply State.writeBytes_within | with_reducible apply State.journalAt_within | with_reducible apply State.recPut_within | exact Or.inl (hT (by decide)) | exact Or.inr (hT (by simp)))

theorem State.register_within {T : List Part} {s0 s : State} (h : State.Within T s0 s) (hT : [.block 14, .block 17, .block 21, .gd, .mem, .notes, .out, .pa, .pl] ⊆ T) (n : Nat) (iid : Nat) (rovr : Nat) (life : Nat) : Within1 T s0 (State.register s n iid rovr life) := by
  unfold State.register
  repeat' (first | with_reducible assumption | exact part_trans (by decide) hT | with_reducible intro _ | with_reducible apply within1_ite | with_reducible apply within_ite | with_reducible apply State.deregister_within | with_reducible apply State.registerWrite_within | with_reducible apply State.hashPut_within | with_reducible apply within1_fst | with_reducible apply State.ryEvent_within | with_reducible apply within1_ite | with_reducible apply within2_ite | with_reducible apply withinO_some | with_reducible apply withinO_none | with_reducible apply withinO_ite | with_reducible apply within1_mk | with_reducible apply within2_mk | exact Or.inl (hT (by decide)) | exact Or.inr (hT (by simp)))

theorem execAddressRegistrationRx_within {T : List Part} {s0 s : State} (h : State.Within T s0 s) (hT : [.block 14, .block 17, .block 21, .gd, .mem, .mtb, .notes, .out, .pa, .pl] ⊆ T) (node : Nat) (iid : BitVec 64) (rovr : BitVec 64) (life : Fin 65536) (t : Nat) : WithinRes T s0 (execAddressRegistrationRx node iid rovr life t s) := by
  unfold execAddressRegistrationRx
  repeat' (first | with_reducible assumption | exact part_trans (by decide) hT | intro _ | extract_lets | with_reducible apply withinRes_next | with_reducible apply withinRes_ite | with_reducible apply within_ite | with_reducible apply State.advance_within | with_reducible apply State.register_within | refine within1_elim (by with_reducible assumption) (State.register_within ?_ ?_ _ _ _ _) | with_reducible apply within1_fst | with_reducible apply State.say_within | fail_if_no_progress ((with_reducible apply within_upd) <;> first | with_reducible exact Or.inl rfl | exact Or.inr (hT (by decide)) | skip) | exact Or.inl (hT (by decide)) | exact Or.inr (hT (by simp)) | split | dsimp +zetaDelta only)

theorem execEdarRx_within {T : List Part} {s0 s : State} (h : State.Within T s0 s) (hT : [.block 14, .block 17, .block 21, .gd, .mem, .mtb, .notes, .out, .pa, .pl] ⊆ T) (node : Nat) (iid : BitVec 64) (rovr : BitVec 64) (life : Fin 65536) (t : Nat) : WithinRes T s0 (execEdarRx node iid rovr life t s) := by
  unfold execEdarRx
  repeat' (first | with_reducible assumption | exact part_trans (by decide) hT | intro _ | extract_lets | with_reducible apply withinRes_next | with_reducible apply withinRes_ite | with_reducible apply within_ite | with_reducible apply State.advance_within | with_reducible apply State.register_within | refine within1_elim (by with_reducible assumption) (State.register_within ?_ ?_ _ _ _ _) | with_reducible apply within1_fst | with_reducible apply State.say_within | fail_if_no_progress ((with_reducible apply within_upd) <;> first | with_reducible exact Or.inl rfl | exact Or.inr (hT (by decide)) | skip) | exact Or.inl (hT (by decide)) | exact Or.inr (hT (by simp)) | split | dsimp +zetaDelta only)

theorem execRegistrationExpiry_within {T : List Part} {s0 s : State} (h : State.Within T s0 s) (hT : [.block 21, .gd, .mem, .mtb, .out, .pa] ⊆ T) (node : Nat) (t : Nat) : WithinRes T s0 (execRegistrationExpiry node t s) := by
  unfold execRegistrationExpiry
  repeat' (first | with_reducible assumption | exact part_trans (by decide) hT | intro _ | extract_lets | with_reducible apply withinRes_next | with_reducible apply withinRes_ite | with_reducible apply within_ite | with_reducible apply State.advance_within | with_reducible apply State.deregister_within | fail_if_no_progress ((with_reducible apply within_upd) <;> first | with_reducible exact Or.inl rfl | exact Or.inr (hT (by decide)) | skip) | exact Or.inl (hT (by decide)) | exact Or.inr (hT (by simp)) | split | dsimp +zetaDelta only)

theorem State.dioOut_within {T : List Part} {s0 s : State} (h : State.Within T s0 s) (hT : [.out] ⊆ T) (p : Nat) : State.Within T s0 (State.dioOut s p) := by
  unfold State.dioOut
  repeat' (first | with_reducible assumption | exact part_trans (by decide) hT | intro _ | extract_lets | with_reducible apply within_ite | with_reducible apply State.say_within | fail_if_no_progress ((with_reducible apply within_upd) <;> first | with_reducible exact Or.inl rfl | exact Or.inr (hT (by decide)) | skip) | exact Or.inl (hT (by decide)) | exact Or.inr (hT (by simp)) | split | dsimp +zetaDelta only)

theorem execDioTrickleExpiry_within {T : List Part} {s0 s : State} (h : State.Within T s0 s) (hT : [.freeIx, .mtb, .out, .ry] ⊆ T) (pan : Fin 16) (heard : Nat) (t : Nat) : WithinRes T s0 (execDioTrickleExpiry pan heard t s) := by
  unfold execDioTrickleExpiry
  repeat' (first | with_reducible assumption | exact part_trans (by decide) hT | intro _ | extract_lets | with_reducible apply withinRes_next | with_reducible apply withinRes_ite | with_reducible apply within_ite | with_reducible apply State.advance_within | with_reducible apply State.dioOut_within | with_reducible apply State.trickleFrom_within | fail_if_no_progress ((with_reducible apply within_upd) <;> first | with_reducible exact Or.inl rfl | exact Or.inr (hT (by decide)) | skip) | exact Or.inl (hT (by decide)) | exact Or.inr (hT (by simp)) | split | dsimp +zetaDelta only)

theorem State.clearPath_within {T : List Part} {s0 s : State} (h : State.Within T s0 s) (hT : [.block 21, .mem, .out, .pa] ⊆ T) (n : Nat) : State.Within T s0 (State.clearPath s n) := by
  unfold State.clearPath
  repeat' (first | with_reducible assumption | exact part_trans (by decide) hT | with_reducible apply State.dropRoutes_within | with_reducible apply State.recPut_within | exact Or.inl (hT (by decide)) | exact Or.inr (hT (by simp)))

theorem execDaoRx_within {T : List Part} {s0 s : State} (h : State.Within T s0 s) (hT : [.block 21, .freeIx, .mem, .mtb, .out, .pa] ⊆ T) (sender : Nat) (pan : Nat) (target : BitVec 64) (transits : List Transit) (version : Fin 256) (ack : Bool) (t : Nat) : WithinRes T s0 (execDaoRx sender pan target transits version ack t s) := by
  unfold execDaoRx
  repeat' (first | with_reducible assumption | exact part_trans (by decide) hT | intro _ | extract_lets | with_reducible apply withinRes_next | with_reducible apply withinRes_ite | with_reducible apply within_ite | with_reducible apply State.advance_within | with_reducible apply State.answer_within | with_reducible apply State.say_within | with_reducible apply State.clearPath_within | with_reducible apply State.dropRoutes_within | with_reducible apply State.useFree_within | with_reducible apply State.recPut_within | fail_if_no_progress ((with_reducible apply within_upd) <;> first | with_reducible exact Or.inl rfl | exact Or.inr (hT (by decide)) | skip) | exact Or.inl (hT (by decide)) | exact Or.inr (hT (by simp)) | split | dsimp +zetaDelta only)

theorem execPathLifetimeExpiry_within {T : List Part} {s0 s : State} (h : State.Within T s0 s) (hT : [.block 21, .mem, .mtb, .out, .pa] ⊆ T) (node : Nat) (t : Nat) : WithinRes T s0 (execPathLifetimeExpiry node t s) := by
  unfold execPathLifetimeExpiry
  repeat' (first | with_reducible assumption | exact part_trans (by decide) hT | intro _ | extract_lets | with_reducible apply withinRes_next | with_reducible apply withinRes_ite | with_reducible apply within_ite | with_reducible apply State.advance_within | with_reducible apply State.clearPath_within | fail_if_no_progress ((with_reducible apply within_upd) <;> first | with_reducible exact Or.inl rfl | exact Or.inr (hT (by decide)) | skip) | exact Or.inl (hT (by decide)) | exact Or.inr (hT (by simp)) | split | dsimp +zetaDelta only)

theorem State.assignFrom_within {T : List Part} {s0 s : State} (h : State.Within T s0 s) (hT : [.ry] ⊆ T) (p a b l x fuel i k : Nat) :
    Within1 T s0 (State.assignFrom s p a b l x fuel i k) := by
  induction fuel generalizing s i k with
  | zero => exact within1_mk h
  | succ fuel ih =>
    cases k with
    | zero => exact within1_mk h
    | succ k =>
      simp only [State.assignFrom]
      split
      · exact ih h _ _
      · split
        · exact ih h _ _
        · refine within1_mk (within1_fst ?_)
          with_reducible apply ih
          apply within_upd h <;> first | exact Or.inr (hT (by decide)) | exact Or.inl rfl

theorem State.tableWrite_within {T : List Part} {s0 s : State} (h : State.Within T s0 s) (hT : [.block 21, .mem, .out, .pa] ⊆ T) (off : Nat) (d : List Byte) : State.Within T s0 (State.tableWrite s off d) := by
  unfold State.tableWrite
  repeat' (first | with_reducible assumption | exact part_trans (by decide) hT | with_reducible apply State.writeBytes_within | with_reducible apply State.journalAt_within | exact Or.inl (hT (by decide)) | exact Or.inr (hT (by simp)))

theorem State.writeRows_within {T : List Part} {s0 s : State} (h : State.Within T s0 s) (hT : [.block 21, .freeIx, .mem, .out, .pa] ⊆ T)  (x0 : Nat) (x1 : List Nat) (x2 : List SchedCell) : State.Within T s0 (State.writeRows s x0 x1 x2) := by
  induction x1 generalizing s x0 x2 with
  | nil =>
    unfold State.writeRows
    repeat' (first | with_reducible assumption | exact part_trans (by decide) hT | intro _ | extract_lets | with_reducible apply within_ite | with_reducible apply State.useFree_within | with_reducible apply State.tableWrite_within | with_reducible apply within1_ite | with_reducible apply within2_ite | with_reducible apply withinO_some | with_reducible apply withinO_none | with_reducible apply withinO_ite | fail_if_no_progress ((with_reducible apply within_upd) <;> first | with_reducible exact Or.inl rfl | exact Or.inr (hT (by decide)) | skip) | split | dsimp +zetaDelta only | with_reducible apply within1_mk | with_reducible apply within2_mk | exact Or.inl (hT (by decide)) | exact Or.inr (hT (by simp)))
  | cons y l ih =>
    unfold State.writeRows
    repeat' (first | with_reducible assumption | exact part_trans (by decide) hT | intro _ | extract_lets | with_reducible apply within_ite | with_reducible apply State.useFree_within | with_reducible apply State.tableWrite_within | with_reducible apply within1_ite | with_reducible apply within2_ite | with_reducible apply withinO_some | with_reducible apply withinO_none | with_reducible apply withinO_ite | with_reducible apply ih | fail_if_no_progress ((with_reducible apply within_upd) <;> first | with_reducible exact Or.inl rfl | exact Or.inr (hT (by decide)) | skip) | split | dsimp +zetaDelta only | with_reducible apply within1_mk | with_reducible apply within2_mk | exact Or.inl (hT (by decide)) | exact Or.inr (hT (by simp)))

theorem State.writeSlot_within {T : List Part} {s0 s : State} (h : State.Within T s0 s) (hT : [.block 21, .freeIx, .mem, .out, .pa, .ry] ⊆ T) (p : Nat) (t : Nat) : State.Within T s0 (State.writeSlot s p t) := by
  unfold State.writeSlot
  repeat' (first | with_reducible assumption | exact part_trans (by decide) hT | with_reducible apply State.writeRows_within | fail_if_no_progress ((with_reducible apply within_upd) <;> first | with_reducible exact Or.inl rfl | exact Or.inr (hT (by decide)) | skip) | exact Or.inl (hT (by decide)) | exact Or.inr (hT (by simp)))

theorem State.writeChanged_within {T : List Part} {s0 s : State} (h : State.Within T s0 s) (hT : [.block 21, .freeIx, .mem, .out, .pa, .ry] ⊆ T) (p : Nat) (old : List SchedCell) : State.Within T s0 (State.writeChanged s p old) := by
  unfold State.writeChanged
  repeat' (first | with_reducible assumption | exact part_trans (by decide) hT | with_reducible intro _ | with_reducible apply State.each_within | with_reducible apply State.writeSlot_within | exact Or.inl (hT (by decide)) | exact Or.inr (hT (by simp)))

theorem State.sendCells_within {T : List Part} {s0 s : State} (h : State.Within T s0 s) (hT : [.out, .ry] ⊆ T) (n : Nat) : State.Within T s0 (State.sendCells s n) := by
  unfold State.sendCells
  repeat' (first | with_reducible assumption | exact part_trans (by decide) hT | with_reducible intro _ | with_reducible apply within_ite | with_reducible apply State.say_within | fail_if_no_progress ((with_reducible apply within_upd) <;> first | with_reducible exact Or.inl rfl | exact Or.inr (hT (by decide)) | skip) | exact Or.inl (hT (by decide)) | exact Or.inr (hT (by simp)))

theorem State.leafCell_within {T : List Part} {s0 s : State} (h : State.Within T s0 s) (hT : [.block 21, .mem, .notes, .out, .pa, .ry] ⊆ T) (p : Nat) (n : Nat) : State.Within T s0 (State.leafCell s p n) := by
  unfold State.leafCell
  repeat' (first | with_reducible assumption | exact part_trans (by decide) hT | with_reducible intro _ | with_reducible extract_lets | with_reducible apply State.assignFrom_within | with_reducible apply within1_fst | with_reducible apply State.ryEvent_within | with_reducible apply State.slPut_within | with_reducible apply within1_ite | with_reducible apply within2_ite | with_reducible apply withinO_some | with_reducible apply withinO_none | with_reducible apply withinO_ite | with_reducible split | with_reducible apply within1_mk | with_reducible apply within2_mk | exact Or.inl (hT (by decide)) | exact Or.inr (hT (by simp)))

theorem State.assignLink_within {T : List Part} {s0 s : State} (h : State.Within T s0 s) (hT : [.block 21, .freeIx, .mem, .notes, .out, .pa, .ry] ⊆ T) (n : Nat) (k : Nat) : State.Within T s0 (State.assignLink s n k) := by
  unfold State.assignLink
  repeat' (first | with_reducible assumption | exact part_trans (by decide) hT | with_reducible intro _ | with_reducible apply within_ite | with_reducible apply State.assignFrom_within | with_reducible apply within1_fst | with_reducible apply State.ryEvent_within | with_reducible apply State.leafCell_within | with_reducible apply State.writeChanged_within | with_reducible apply State.sendCells_within | with_reducible apply within1_ite | with_reducible apply within2_ite | with_reducible apply withinO_some | with_reducible apply withinO_none | with_reducible apply withinO_ite | fail_if_no_progress ((with_reducible apply within_upd) <;> first | with_reducible exact Or.inl rfl | exact Or.inr (hT (by decide)) | skip) | with_reducible split | with_reducible apply within1_mk | with_reducible apply within2_mk | exact Or.inl (hT (by decide)) | exact Or.inr (hT (by simp)))

theorem execScDemandRx_within {T : List Part} {s0 s : State} (h : State.Within T s0 s) (hT : [.block 21, .freeIx, .mem, .mtb, .notes, .out, .pa, .ry] ⊆ T) (node : Nat) (cells : Fin 16) (t : Nat) : WithinRes T s0 (execScDemandRx node cells t s) := by
  unfold execScDemandRx
  repeat' (first | with_reducible assumption | exact part_trans (by decide) hT | intro _ | extract_lets | with_reducible apply withinRes_next | with_reducible apply withinRes_ite | with_reducible apply within_ite | with_reducible apply State.advance_within | with_reducible apply State.say_within | with_reducible apply State.assignLink_within | fail_if_no_progress ((with_reducible apply within_upd) <;> first | with_reducible exact Or.inl rfl | exact Or.inr (hT (by decide)) | skip) | exact Or.inl (hT (by decide)) | exact Or.inr (hT (by simp)) | split | dsimp +zetaDelta only)

theorem execScAssignmentAck_within {T : List Part} {s0 s : State} (h : State.Within T s0 s) (hT : [.block 21, .freeIx, .mem, .mtb, .notes, .out, .pa, .ry] ⊆ T) (node : Nat) (t : Nat) : WithinRes T s0 (execScAssignmentAck node t s) := by
  unfold execScAssignmentAck
  repeat' (first | with_reducible assumption | exact part_trans (by decide) hT | intro _ | extract_lets | with_reducible apply withinRes_next | with_reducible apply withinRes_ite | with_reducible apply within_ite | with_reducible apply State.advance_within | with_reducible apply State.each_within | with_reducible apply State.assignLink_within | fail_if_no_progress ((with_reducible apply within_upd) <;> first | with_reducible exact Or.inl rfl | exact Or.inr (hT (by decide)) | skip) | exact Or.inl (hT (by decide)) | exact Or.inr (hT (by simp)) | split | dsimp +zetaDelta only)

theorem execSixpRequestRx_within {T : List Part} {s0 s : State} (h : State.Within T s0 s) (hT : [.mtb, .out, .ry] ⊆ T) (node : Nat) (sfid : Fin 256) (list : List (Nat × Nat)) (t : Nat) : WithinRes T s0 (execSixpRequestRx node sfid list t s) := by
  unfold execSixpRequestRx
  repeat' (first | with_reducible assumption | exact part_trans (by decide) hT | intro _ | extract_lets | with_reducible apply withinRes_next | with_reducible apply withinRes_ite | with_reducible apply within_ite | with_reducible apply State.advance_within | with_reducible apply State.say_within | fail_if_no_progress ((with_reducible apply within_upd) <;> first | with_reducible exact Or.inl rfl | exact Or.inr (hT (by decide)) | skip) | exact Or.inl (hT (by decide)) | exact Or.inr (hT (by simp)) | split | dsimp +zetaDelta only)

theorem execSixpTimeout_within {T : List Part} {s0 s : State} (h : State.Within T s0 s) (hT : [.mtb, .ry] ⊆ T) (t : Nat) : WithinRes T s0 (execSixpTimeout t s) := by
  unfold execSixpTimeout
  repeat' (first | with_reducible assumption | exact part_trans (by decide) hT | intro _ | extract_lets | with_reducible apply withinRes_next | with_reducible apply withinRes_ite | with_reducible apply within_ite | with_reducible apply State.advance_within | fail_if_no_progress ((with_reducible apply within_upd) <;> first | with_reducible exact Or.inl rfl | exact Or.inr (hT (by decide)) | skip) | exact Or.inl (hT (by decide)) | exact Or.inr (hT (by simp)) | split | dsimp +zetaDelta only)

theorem State.joinRefuse_within {T : List Part} {s0 s : State} (h : State.Within T s0 s) (hT : [.out, .ry] ⊆ T) (p : Nat) (code : Nat) : State.Within T s0 (State.joinRefuse s p code) := by
  unfold State.joinRefuse
  repeat' (first | with_reducible assumption | exact part_trans (by decide) hT | with_reducible apply State.say_within | fail_if_no_progress ((with_reducible apply within_upd) <;> first | with_reducible exact Or.inl rfl | exact Or.inr (hT (by decide)) | skip) | exact Or.inl (hT (by decide)) | exact Or.inr (hT (by simp)))

theorem State.removeNode_within {T : List Part} {s0 s : State} (h : State.Within T s0 s) (hT : [.block 13, .block 15, .block 21, .freeIx, .gd, .mac, .mem, .ms, .notes, .out, .pa, .queues, .resp, .sl] ⊆ T) (n : Nat) : State.Within T s0 (State.removeNode s n) := by
  unfold State.removeNode
  repeat' (first | with_reducible assumption | exact part_trans (by decide) hT | with_reducible intro _ | with_reducible extract_lets | with_reducible apply within_ite | with_reducible apply State.sleepStop_within | with_reducible apply State.deregister_within | with_reducible apply State.recPut_within | with_reducible apply State.hashTake_within | with_reducible apply State.lptFree_within | with_reducible apply State.writeNat_within | exact Or.inl (hT (by decide)) | exact Or.inr (hT (by simp)) | with_reducible split)

theorem State.joinRecord_within {T : List Part} {s0 s : State} (h : State.Within T s0 s) (hT : [.block 21, .gd, .mem, .out, .pa] ⊆ T) (p : Nat) (n : Nat) (eui : Nat) (wrapSlot : Nat) (key : Nat) (fresh : Bool) : State.Within T s0 (State.joinRecord s p n eui wrapSlot key fresh) := by
  unfold State.joinRecord
  repeat' (first | with_reducible assumption | exact part_trans (by decide) hT | with_reducible intro _ | with_reducible apply within_ite | with_reducible apply State.each_within | with_reducible apply State.recPut_within | with_reducible apply State.writeBytes_within | with_reducible apply State.journalAt_within | with_reducible apply State.keyChange_within | exact Or.inl (hT (by decide)) | exact Or.inr (hT (by simp)))

theorem execJoinRequestRx_within {T : List Part} {s0 s : State} (h : State.Within T s0 s) (hT : [.block 13, .block 14, .block 15, .block 17, .block 18, .block 21, .freeIx, .gd, .mac, .mem, .ms, .mtb, .notes, .out, .pa, .pl, .queues, .resp, .ry, .sl] ⊆ T) (pan : Fin 16) (eui : BitVec 64) (pledge : BitVec 64) (message : Fin 65536) (oscore : Bool) (wrapSlot : Fin 512) (t : Nat) : WithinRes T s0 (execJoinRequestRx pan eui pledge message oscore wrapSlot t s) := by
  unfold execJoinRequestRx
  repeat' (first | with_reducible assumption | exact part_trans (by decide) hT | exact Or.inl (hT (by decide)) | exact Or.inr (hT (by simp)) | intro _ | extract_lets | with_reducible apply withinRes_next | with_reducible apply withinRes_ite | with_reducible apply within_ite | with_reducible apply State.advance_within | with_reducible apply State.say_within | with_reducible apply State.joinRefuse_within | with_reducible apply State.setF_within | with_reducible apply State.setRoot_within | with_reducible apply State.removeNode_within | with_reducible apply State.ryEvent_within | with_reducible apply State.joinRecord_within | with_reducible apply State.drbgUse_within | with_reducible apply State.hashPut_within | refine within1_elim (by with_reducible assumption) (State.hashPut_within ?_ ?_ _) | with_reducible apply State.recPut_within | with_reducible apply within1_fst | fail_if_no_progress ((with_reducible apply within_upd) <;> first | exact Or.inr (hT (by decide)) | with_reducible exact Or.inl rfl | skip) | split | dsimp +zetaDelta only)

theorem State.rekeyEnd_within {T : List Part} {s0 s : State} (h : State.Within T s0 s) (hT : [.block 12, .cmp, .notes, .resp, .ry] ⊆ T) (p : Nat) (r : Rekey) : State.Within T s0 (State.rekeyEnd s p r) := by
  unfold State.rekeyEnd
  repeat' (first | with_reducible assumption | exact part_trans (by decide) hT | with_reducible apply State.setF_within | with_reducible apply State.ryEvent_within | with_reducible apply State.finishCall_within | fail_if_no_progress ((with_reducible apply within_upd) <;> first | with_reducible exact Or.inl rfl | exact Or.inr (hT (by decide)) | skip) | exact Or.inl (hT (by decide)) | exact Or.inr (hT (by simp)))

theorem execRekeyAckRx_within {T : List Part} {s0 s : State} (h : State.Within T s0 s) (hT : [.block 12, .cmp, .mtb, .notes, .resp, .ry] ⊆ T) (pan : Fin 16) (node : Nat) (t : Nat) : WithinRes T s0 (execRekeyAckRx pan node t s) := by
  unfold execRekeyAckRx
  repeat' (first | with_reducible assumption | exact part_trans (by decide) hT | intro _ | extract_lets | with_reducible apply withinRes_next | with_reducible apply withinRes_ite | with_reducible apply within_ite | with_reducible apply State.advance_within | with_reducible apply State.rekeyEnd_within | fail_if_no_progress ((with_reducible apply within_upd) <;> first | with_reducible exact Or.inl rfl | exact Or.inr (hT (by decide)) | skip) | exact Or.inl (hT (by decide)) | exact Or.inr (hT (by simp)) | split | dsimp +zetaDelta only)

theorem execRekeyDeadline_within {T : List Part} {s0 s : State} (h : State.Within T s0 s) (hT : [.block 12, .cmp, .mtb, .notes, .resp, .ry] ⊆ T) (pan : Fin 16) (t : Nat) : WithinRes T s0 (execRekeyDeadline pan t s) := by
  unfold execRekeyDeadline
  repeat' (first | with_reducible assumption | exact part_trans (by decide) hT | intro _ | extract_lets | with_reducible apply withinRes_next | with_reducible apply withinRes_ite | with_reducible apply within_ite | with_reducible apply State.advance_within | with_reducible apply State.rekeyEnd_within | fail_if_no_progress ((with_reducible apply within_upd) <;> first | with_reducible exact Or.inl rfl | exact Or.inr (hT (by decide)) | skip) | exact Or.inl (hT (by decide)) | exact Or.inr (hT (by simp)) | split | dsimp +zetaDelta only)

theorem State.putCampaign_within {T : List Part} {s0 s : State} (h : State.Within T s0 s) (hT : [.ry] ⊆ T) (c : Nat) (v : Campaign) : State.Within T s0 (State.putCampaign s c v) := by
  unfold State.putCampaign
  repeat' (first | with_reducible assumption | exact part_trans (by decide) hT | fail_if_no_progress ((with_reducible apply within_upd) <;> first | with_reducible exact Or.inl rfl | exact Or.inr (hT (by decide)) | skip) | exact Or.inl (hT (by decide)) | exact Or.inr (hT (by simp)))

theorem execCampaignInterval_within {T : List Part} {s0 s : State} (h : State.Within T s0 s) (hT : [.mtb, .out, .ry] ⊆ T) (campaign : Fin 4) (held : Bool) (t : Nat) : WithinRes T s0 (execCampaignInterval campaign held t s) := by
  unfold execCampaignInterval
  repeat' (first | with_reducible assumption | exact part_trans (by decide) hT | intro _ | extract_lets | with_reducible apply withinRes_next | with_reducible apply withinRes_ite | with_reducible apply within_ite | with_reducible apply State.advance_within | with_reducible apply State.say_within | with_reducible apply State.putCampaign_within | fail_if_no_progress ((with_reducible apply within_upd) <;> first | with_reducible exact Or.inl rfl | exact Or.inr (hT (by decide)) | skip) | exact Or.inl (hT (by decide)) | exact Or.inr (hT (by simp)) | split | dsimp +zetaDelta only)

theorem execReportWindowEnd_within {T : List Part} {s0 s : State} (h : State.Within T s0 s) (hT : [.mtb, .out, .ry] ⊆ T) (campaign : Fin 4) (held : Bool) (t : Nat) : WithinRes T s0 (execReportWindowEnd campaign held t s) := by
  unfold execReportWindowEnd
  repeat' (first | with_reducible assumption | exact part_trans (by decide) hT | intro _ | extract_lets | with_reducible apply withinRes_next | with_reducible apply withinRes_ite | with_reducible apply within_ite | with_reducible apply State.advance_within | with_reducible apply State.putCampaign_within | with_reducible apply State.say_within | fail_if_no_progress ((with_reducible apply within_upd) <;> first | with_reducible exact Or.inl rfl | exact Or.inr (hT (by decide)) | skip) | exact Or.inl (hT (by decide)) | exact Or.inr (hT (by simp)) | split | dsimp +zetaDelta only)

theorem execMissingBlocksRx_within {T : List Part} {s0 s : State} (h : State.Within T s0 s) (hT : [.mtb, .out, .ry] ⊆ T) (campaign : Fin 4) (node : Nat) (bitmap : List Byte) (t : Nat) : WithinRes T s0 (execMissingBlocksRx campaign node bitmap t s) := by
  unfold execMissingBlocksRx
  repeat' (first | with_reducible assumption | exact part_trans (by decide) hT | intro _ | extract_lets | with_reducible apply withinRes_next | with_reducible apply withinRes_ite | with_reducible apply within_ite | with_reducible apply State.advance_within | with_reducible apply State.say_within | with_reducible apply State.putCampaign_within | fail_if_no_progress ((with_reducible apply within_upd) <;> first | with_reducible exact Or.inl rfl | exact Or.inr (hT (by decide)) | skip) | exact Or.inl (hT (by decide)) | exact Or.inr (hT (by simp)) | split | dsimp +zetaDelta only)

theorem execFwHeaderGet_within {T : List Part} {s0 s : State} (h : State.Within T s0 s) (hT : [.out] ⊆ T) (campaign : Fin 4) (node : Nat) : WithinRes T s0 (execFwHeaderGet campaign node s) := by
  unfold execFwHeaderGet
  repeat' (first | with_reducible assumption | exact part_trans (by decide) hT | intro _ | extract_lets | with_reducible apply withinRes_next | with_reducible apply withinRes_ite | with_reducible apply within_ite | with_reducible apply State.say_within | fail_if_no_progress ((with_reducible apply within_upd) <;> first | with_reducible exact Or.inl rfl | exact Or.inr (hT (by decide)) | skip) | exact Or.inl (hT (by decide)) | exact Or.inr (hT (by simp)) | split | dsimp +zetaDelta only)

theorem execFwBlockGet_within {T : List Part} {s0 s : State} (h : State.Within T s0 s) (hT : [.out] ⊆ T) (campaign : Fin 4) (node : Nat) (num : Nat) (szx : Fin 7) : WithinRes T s0 (execFwBlockGet campaign node num szx s) := by
  unfold execFwBlockGet
  repeat' (first | with_reducible assumption | exact part_trans (by decide) hT | intro _ | extract_lets | with_reducible apply withinRes_next | with_reducible apply withinRes_ite | with_reducible apply within_ite | with_reducible apply State.say_within | fail_if_no_progress ((with_reducible apply within_upd) <;> first | with_reducible exact Or.inl rfl | exact Or.inr (hT (by decide)) | skip) | exact Or.inl (hT (by decide)) | exact Or.inr (hT (by simp)) | split | dsimp +zetaDelta only)

theorem execCompletionReportRx_within {T : List Part} {s0 s : State} (h : State.Within T s0 s) (hT : [.block 21, .mem, .mtb, .out, .pa, .ry] ⊆ T) (campaign : Fin 4) (node : Nat) (version : BitVec 32) (t : Nat) : WithinRes T s0 (execCompletionReportRx campaign node version t s) := by
  unfold execCompletionReportRx
  repeat' (first | with_reducible assumption | exact part_trans (by decide) hT | intro _ | extract_lets | with_reducible apply withinRes_next | with_reducible apply withinRes_ite | with_reducible apply within_ite | with_reducible apply State.advance_within | with_reducible apply State.say_within | with_reducible apply State.putCampaign_within | with_reducible apply State.recPut_within | fail_if_no_progress ((with_reducible apply within_upd) <;> first | with_reducible exact Or.inl rfl | exact Or.inr (hT (by decide)) | skip) | exact Or.inl (hT (by decide)) | exact Or.inr (hT (by simp)) | split | dsimp +zetaDelta only)

theorem State.campaignEnd_within {T : List Part} {s0 s : State} (h : State.Within T s0 s) (hT : [.notes, .ry] ⊆ T) (c : Nat) : State.Within T s0 (State.campaignEnd s c) := by
  unfold State.campaignEnd
  repeat' (first | with_reducible assumption | exact part_trans (by decide) hT | intro _ | extract_lets | with_reducible apply within_ite | with_reducible apply State.ryEvent_within | with_reducible apply State.putCampaign_within | fail_if_no_progress ((with_reducible apply within_upd) <;> first | with_reducible exact Or.inl rfl | exact Or.inr (hT (by decide)) | skip) | exact Or.inl (hT (by decide)) | exact Or.inr (hT (by simp)) | split | dsimp +zetaDelta only)

theorem execCampaignEndExpiry_within {T : List Part} {s0 s : State} (h : State.Within T s0 s) (hT : [.mtb, .notes, .ry] ⊆ T) (campaign : Fin 4) (t : Nat) : WithinRes T s0 (execCampaignEndExpiry campaign t s) := by
  unfold execCampaignEndExpiry
  repeat' (first | with_reducible assumption | exact part_trans (by decide) hT | intro _ | extract_lets | with_reducible apply withinRes_next | with_reducible apply withinRes_ite | with_reducible apply within_ite | with_reducible apply State.advance_within | with_reducible apply State.campaignEnd_within | fail_if_no_progress ((with_reducible apply within_upd) <;> first | with_reducible exact Or.inl rfl | exact Or.inr (hT (by decide)) | skip) | exact Or.inl (hT (by decide)) | exact Or.inr (hT (by simp)) | split | dsimp +zetaDelta only)

end Sys2Proof.Machine
end

