-- ==== Sys2Proof/Laws/WithinUpdate.lean ====
section
/-!
SUPPORT. What the operations of flash, tamper, release, update and the pins can do: one lemma per operation, which names the
parts of the state that it may touch and says that it keeps the invariant and the queue. A proof about a step cites these and
unfolds none of the operations.
-/
namespace Sys2Proof.Machine
open Sys2Proof
set_option linter.all false
set_option Elab.async false

theorem State.keyJobEnd_within {T : List Part} {s0 s : State} (h : State.Within T s0 s) (hT : [.block 11, .block 12, .block 14, .block 15, .block 16, .block 18, .block 20, .block 21, .block 6, .block 7, .cmp, .freeIx, .ky, .mac, .mem, .ms, .mtb, .notes, .out, .pa, .pl, .queues, .rd, .resp, .ro, .ry, .sl, .su, .tm] ⊆ T) (j : KeyJob) (st : Nat) : State.Within T s0 (State.keyJobEnd s j st) := by
  unfold State.keyJobEnd
  repeat' (first | with_reducible assumption | exact part_trans (by decide) hT | with_reducible intro _ | with_reducible apply within_ite | with_reducible apply State.setF_within | with_reducible apply State.keyEnd_within | with_reducible apply State.requestWarm_within | fail_if_no_progress ((with_reducible apply within_upd) <;> first | with_reducible exact Or.inl rfl | exact Or.inr (hT (by decide)) | skip) | exact Or.inl (hT (by decide)) | exact Or.inr (hT (by simp)))

theorem State.keyWriteNext_within {T : List Part} {s0 s : State} (h : State.Within T s0 s) (hT : [.block 18, .ky, .notes] ⊆ T) (ok : Bool) (w : KeyWrite) (ws : List KeyWrite) : Within1 T s0 (State.keyWriteNext s ok w ws) := by
  unfold State.keyWriteNext
  repeat' (first | with_reducible assumption | exact part_trans (by decide) hT | with_reducible intro _ | with_reducible apply within1_ite | with_reducible apply State.keyWriteStep_within | with_reducible apply within1_fst | with_reducible apply State.raise_within | with_reducible apply within1_ite | with_reducible apply within2_ite | with_reducible apply withinO_some | with_reducible apply withinO_none | with_reducible apply withinO_ite | with_reducible apply within1_mk | with_reducible apply within2_mk | exact Or.inl (hT (by decide)) | exact Or.inr (hT (by simp)))

theorem State.keyFlash_within {T : List Part} {s0 s : State} (h : State.Within T s0 s) (hT : [.block 11, .block 12, .block 14, .block 15, .block 16, .block 18, .block 20, .block 21, .block 6, .block 7, .cmp, .freeIx, .ky, .mac, .mem, .ms, .mtb, .notes, .out, .pa, .pl, .queues, .rd, .resp, .ro, .ry, .sl, .su, .tm] ⊆ T) (ok : Bool) : State.Within T s0 (State.keyFlash s ok) := by
  unfold State.keyFlash
  repeat' (first | with_reducible assumption | exact part_trans (by decide) hT | intro _ | extract_lets | with_reducible apply within_ite | with_reducible apply State.keyWriteNext_within | refine within1_elim (by with_reducible assumption) (State.keyWriteNext_within ?_ ?_ _ _ _) | with_reducible apply State.keyJobEnd_within | with_reducible apply State.nandSubmit_within | with_reducible apply within1_fst | fail_if_no_progress ((with_reducible apply within_upd) <;> first | with_reducible exact Or.inl rfl | exact Or.inr (hT (by decide)) | skip) | exact Or.inl (hT (by decide)) | exact Or.inr (hT (by simp)) | split | dsimp +zetaDelta only)

theorem execNandOperationDone_within {T : List Part} {s0 s : State} (h : State.Within T s0 s) (hT : [.block 11, .block 12, .block 14, .block 15, .block 16, .block 18, .block 20, .block 21, .block 6, .block 7, .cmp, .flash, .freeIx, .ky, .mac, .mem, .ms, .mtb, .notes, .out, .pa, .pl, .queues, .rd, .resp, .ro, .ry, .sl, .su, .tm] ⊆ T) (ok : Bool) : WithinRes T s0 (execNandOperationDone ok s) := by
  unfold execNandOperationDone
  repeat' (first | with_reducible assumption | exact part_trans (by decide) hT | intro _ | extract_lets | with_reducible apply withinRes_next | with_reducible apply withinRes_ite | with_reducible apply within_ite | with_reducible apply State.nandEffect_within | with_reducible apply State.raise_within | with_reducible apply State.setF_within | with_reducible apply State.raiseIf_within | with_reducible apply State.nandStart_within | with_reducible apply State.keyFlash_within | fail_if_no_progress ((with_reducible apply within_upd) <;> first | with_reducible exact Or.inl rfl | exact Or.inr (hT (by decide)) | skip) | exact Or.inl (hT (by decide)) | exact Or.inr (hT (by simp)) | split | dsimp +zetaDelta only)

theorem State.tamperLog_within {T : List Part} {s0 s : State} (h : State.Within T s0 s) (hT : [.block 19] ⊆ T) (source : Nat) : State.Within T s0 (State.tamperLog s source) := by
  unfold State.tamperLog
  repeat' (first | with_reducible assumption | exact part_trans (by decide) hT | with_reducible intro _ | with_reducible apply within_ite | with_reducible apply State.setF_within | with_reducible apply State.setB_within | exact Or.inl (hT (by decide)) | exact Or.inr (hT (by simp)))

theorem State.tamperEvent_within {T : List Part} {s0 s : State} (h : State.Within T s0 s) (hT : [.block 19, .ky, .notes] ⊆ T) (source : Nat) : State.Within T s0 (State.tamperEvent s source) := by
  unfold State.tamperEvent
  repeat' (first | with_reducible assumption | exact part_trans (by decide) hT | with_reducible intro _ | with_reducible apply within_ite | with_reducible apply State.tamperLog_within | with_reducible apply State.bump_within | with_reducible apply State.raise_within | with_reducible apply State.setF_within | fail_if_no_progress ((with_reducible apply within_upd) <;> first | with_reducible exact Or.inl rfl | exact Or.inr (hT (by decide)) | skip) | exact Or.inl (hT (by decide)) | exact Or.inr (hT (by simp)))

theorem execTamperSourceEvent_within {T : List Part} {s0 s : State} (h : State.Within T s0 s) (hT : [.block 19, .ky, .mtb, .notes] ⊆ T) (source : Fin 8) (t : Nat) : WithinRes T s0 (execTamperSourceEvent source t s) := by
  unfold execTamperSourceEvent
  repeat' (first | with_reducible assumption | exact part_trans (by decide) hT | intro _ | extract_lets | with_reducible apply withinRes_next | with_reducible apply withinRes_ite | with_reducible apply within_ite | with_reducible apply State.advance_within | with_reducible apply State.setF_within | with_reducible apply State.tamperEvent_within | fail_if_no_progress ((with_reducible apply within_upd) <;> first | with_reducible exact Or.inl rfl | exact Or.inr (hT (by decide)) | skip) | exact Or.inl (hT (by decide)) | exact Or.inr (hT (by simp)) | split | dsimp +zetaDelta only)

theorem execTamperSourceInactive_within {T : List Part} {s0 s : State} (h : State.Within T s0 s) (hT : [.block 19, .ky] ⊆ T) (source : Fin 8) (filtered : Bool) : WithinRes T s0 (execTamperSourceInactive source filtered s) := by
  unfold execTamperSourceInactive
  repeat' (first | with_reducible assumption | exact part_trans (by decide) hT | intro _ | extract_lets | with_reducible apply withinRes_next | with_reducible apply withinRes_ite | with_reducible apply within_ite | with_reducible apply State.setF_within | fail_if_no_progress ((with_reducible apply within_upd) <;> first | with_reducible exact Or.inl rfl | exact Or.inr (hT (by decide)) | skip) | exact Or.inl (hT (by decide)) | exact Or.inr (hT (by simp)) | split | dsimp +zetaDelta only)

theorem State.fenceUnit_within {T : List Part} {s0 s : State} (h : State.Within T s0 s) (hT : [.block 12, .block 14, .block 15, .block 16, .block 20, .block 21, .block 6, .cmp, .freeIx, .ky, .mac, .mem, .ms, .notes, .out, .pa, .pl, .queues, .resp, .ro, .ry, .sl, .tm] ⊆ T) : State.Within T s0 (State.fenceUnit s) := by
  unfold State.fenceUnit
  repeat' (first | with_reducible assumption | exact part_trans (by decide) hT | with_reducible intro _ | with_reducible apply within_ite | with_reducible apply State.setRole_within | with_reducible apply State.setF_within | with_reducible apply State.roleLeft_within | with_reducible apply State.reselect_within | exact Or.inl (hT (by decide)) | exact Or.inr (hT (by simp)))

theorem State.keyStop_within {T : List Part} {s0 s : State} (h : State.Within T s0 s) (hT : [.block 18, .ky, .ms] ⊆ T) : State.Within T s0 (State.keyStop s) := by
  unfold State.keyStop
  repeat' (first | with_reducible assumption | exact part_trans (by decide) hT | with_reducible apply State.setF_within | fail_if_no_progress ((with_reducible apply within_upd) <;> first | with_reducible exact Or.inl rfl | exact Or.inr (hT (by decide)) | skip) | exact Or.inl (hT (by decide)) | exact Or.inr (hT (by simp)))

theorem State.keysErased_within {T : List Part} {s0 s : State} (h : State.Within T s0 s) (hT : [.block 14, .block 18, .block 20, .cmp, .freeIx, .ky, .mem, .ms, .notes, .pl, .resp, .ro] ⊆ T) : State.Within T s0 (State.keysErased s) := by
  unfold State.keysErased
  repeat' (first | with_reducible assumption | exact part_trans (by decide) hT | intro _ | extract_lets | with_reducible apply within_ite | with_reducible apply State.keyStop_within | with_reducible apply State.each_within | with_reducible apply State.keyEnd_within | with_reducible apply State.raiseIf_within | with_reducible apply State.sessionEnd_within | with_reducible apply State.useFree_within | with_reducible apply State.setF_within | with_reducible apply State.putSlot_within | fail_if_no_progress ((with_reducible apply within_upd) <;> first | with_reducible exact Or.inl rfl | exact Or.inr (hT (by decide)) | skip) | exact Or.inl (hT (by decide)) | exact Or.inr (hT (by simp)) | split | dsimp +zetaDelta only)

theorem State.enterErased_within {T : List Part} {s0 s : State} (h : State.Within T s0 s) (hT : [.block 11, .block 12, .block 14, .block 15, .block 16, .block 2, .block 20, .block 21, .block 6, .block 7, .cmp, .freeIx, .ky, .mac, .mem, .ms, .mtb, .notes, .out, .pa, .pl, .queues, .rd, .resp, .ro, .ry, .sl, .tm] ⊆ T) : State.Within T s0 (State.enterErased s) := by
  unfold State.enterErased
  repeat' (first | with_reducible assumption | exact part_trans (by decide) hT | intro _ | extract_lets | with_reducible apply within_ite | with_reducible apply State.selfFault_within | with_reducible apply State.each_within | with_reducible apply State.txFlush_within | with_reducible apply State.setF_within | with_reducible apply State.txEndSoon_within | with_reducible apply State.trxGo_within | with_reducible apply State.setDev_within | with_reducible apply State.fenceUnit_within | fail_if_no_progress ((with_reducible apply within_upd) <;> first | with_reducible exact Or.inl rfl | exact Or.inr (hT (by decide)) | skip) | exact Or.inl (hT (by decide)) | exact Or.inr (hT (by simp)) | split | dsimp +zetaDelta only)

theorem execTamperCoreResponse_within {T : List Part} {s0 s : State} (h : State.Within T s0 s) (hT : [.block 11, .block 12, .block 14, .block 15, .block 16, .block 18, .block 2, .block 20, .block 21, .block 6, .block 7, .cmp, .freeIx, .ky, .mac, .mem, .ms, .mtb, .notes, .out, .pa, .pl, .queues, .rd, .resp, .ro, .ry, .sl, .tm] ⊆ T) (t : Nat) : WithinRes T s0 (execTamperCoreResponse t s) := by
  unfold execTamperCoreResponse
  repeat' (first | with_reducible assumption | exact part_trans (by decide) hT | intro _ | extract_lets | with_reducible apply withinRes_next | with_reducible apply withinRes_ite | with_reducible apply within_ite | with_reducible apply State.advance_within | with_reducible apply State.keysErased_within | with_reducible apply State.enterErased_within | fail_if_no_progress ((with_reducible apply within_upd) <;> first | with_reducible exact Or.inl rfl | exact Or.inr (hT (by decide)) | skip) | exact Or.inl (hT (by decide)) | exact Or.inr (hT (by simp)) | split | dsimp +zetaDelta only)

theorem State.tamperCfg_within {T : List Part} {s0 s : State} (h : State.Within T s0 s) (hT : [.block 18, .block 19, .resp] ⊆ T) (w : Word) : State.Within T s0 (State.tamperCfg s w) := by
  unfold State.tamperCfg
  repeat' (first | with_reducible assumption | exact part_trans (by decide) hT | with_reducible intro _ | with_reducible apply within_ite | with_reducible apply State.refuse_within | with_reducible apply State.setReg_within | with_reducible apply State.answer_within | exact Or.inl (hT (by decide)) | exact Or.inr (hT (by simp)))

theorem execTamperCfgWrite_within {T : List Part} {s0 s : State} (h : State.Within T s0 s) (hT : [.block 18, .block 19, .block 20, .freeIx, .notes, .resp, .ro] ⊆ T) (value : Word) : WithinRes T s0 (execTamperCfgWrite value s) := by
  unfold execTamperCfgWrite
  repeat' (first | with_reducible assumption | exact part_trans (by decide) hT | intro _ | extract_lets | with_reducible apply withinRes_next | with_reducible apply withinRes_ite | with_reducible apply within_ite | with_reducible apply State.recorded_within | with_reducible apply State.tamperCfg_within | fail_if_no_progress ((with_reducible apply within_upd) <;> first | with_reducible exact Or.inl rfl | exact Or.inr (hT (by decide)) | skip) | exact Or.inl (hT (by decide)) | exact Or.inr (hT (by simp)) | split | dsimp +zetaDelta only)

theorem State.tamperLogClear_within {T : List Part} {s0 s : State} (h : State.Within T s0 s) (hT : [.block 18, .block 19, .resp] ⊆ T) : State.Within T s0 (State.tamperLogClear s) := by
  unfold State.tamperLogClear
  repeat' (first | with_reducible assumption | exact part_trans (by decide) hT | with_reducible intro _ | with_reducible apply within_ite | with_reducible apply State.refuse_within | with_reducible apply State.each_within | with_reducible apply State.setReg_within | with_reducible apply State.setF_within | with_reducible apply State.answer_within | exact Or.inl (hT (by decide)) | exact Or.inr (hT (by simp)))

theorem execTamperLogClear_within {T : List Part} {s0 s : State} (h : State.Within T s0 s) (hT : [.block 18, .block 19, .block 20, .freeIx, .notes, .resp, .ro] ⊆ T) : WithinRes T s0 (execTamperLogClear s) := by
  unfold execTamperLogClear
  repeat' (first | with_reducible assumption | exact part_trans (by decide) hT | intro _ | extract_lets | with_reducible apply withinRes_next | with_reducible apply withinRes_ite | with_reducible apply within_ite | with_reducible apply State.recorded_within | with_reducible apply State.tamperLogClear_within | fail_if_no_progress ((with_reducible apply within_upd) <;> first | with_reducible exact Or.inl rfl | exact Or.inr (hT (by decide)) | skip) | exact Or.inl (hT (by decide)) | exact Or.inr (hT (by simp)) | split | dsimp +zetaDelta only)

theorem State.roleRefused_within {T : List Part} {s0 s : State} (h : State.Within T s0 s) (hT : [.block 20, .cmp, .freeIx, .notes, .resp, .ro] ⊆ T) (ticket : Nat) (op : Nat) (t : Ticket) (st : Nat) (arg : Nat) : State.Within T s0 (State.roleRefused s ticket op t st arg) := by
  unfold State.roleRefused
  repeat' (first | with_reducible assumption | exact part_trans (by decide) hT | with_reducible apply State.auditNote_within | with_reducible apply State.finishCall_within | exact Or.inl (hT (by decide)) | exact Or.inr (hT (by simp)))

theorem State.released_within {T : List Part} {s0 s : State} (h : State.Within T s0 s) (hT : [.block 11, .block 12, .block 14, .block 15, .block 16, .block 18, .block 19, .block 20, .block 21, .block 6, .block 7, .cmp, .flash, .freeIx, .ky, .mac, .mem, .ms, .mtb, .notes, .out, .pa, .pl, .queues, .rd, .resp, .ro, .ry, .sl, .su, .tm] ⊆ T) : State.Within T s0 (State.released s) := by
  unfold State.released
  repeat' (first | with_reducible assumption | exact part_trans (by decide) hT | with_reducible apply State.keyStop_within | with_reducible apply State.erasePages_within | with_reducible apply State.storeRoles_within | with_reducible apply State.setF_within | with_reducible apply State.requestWarm_within | with_reducible apply State.answer_within | fail_if_no_progress ((with_reducible apply within_upd) <;> first | with_reducible exact Or.inl rfl | exact Or.inr (hT (by decide)) | skip) | exact Or.inl (hT (by decide)) | exact Or.inr (hT (by simp)))

theorem execRoleRelease_within {T : List Part} {s0 s : State} (h : State.Within T s0 s) (hT : [.block 11, .block 12, .block 14, .block 15, .block 16, .block 18, .block 19, .block 20, .block 21, .block 6, .block 7, .cmp, .flash, .freeIx, .ky, .mac, .mem, .ms, .mtb, .notes, .out, .pa, .pl, .queues, .rd, .resp, .ro, .ry, .sl, .su, .tm] ⊆ T) (ticket : Nat) (eui : BitVec 64) : WithinRes T s0 (execRoleRelease ticket eui s) := by
  unfold execRoleRelease
  repeat' (first | with_reducible assumption | exact part_trans (by decide) hT | intro _ | extract_lets | with_reducible apply withinRes_next | with_reducible apply withinRes_ite | with_reducible apply within_ite | with_reducible apply State.roleRefused_within | with_reducible apply State.checkpoint?_within | refine withinOS_elim (by with_reducible assumption) (State.checkpoint?_within ?_ ?_) | with_reducible apply State.raise_within | with_reducible apply State.finishCall_within | with_reducible apply State.auditAppend_within | with_reducible apply State.each_within | with_reducible apply State.auditProgram_within | with_reducible apply State.released_within | fail_if_no_progress ((with_reducible apply within_upd) <;> first | with_reducible exact Or.inl rfl | exact Or.inr (hT (by decide)) | skip) | exact Or.inl (hT (by decide)) | exact Or.inr (hT (by simp)) | split | dsimp +zetaDelta only)

theorem execSamplerEntry_within {T : List Part} {s0 s : State} (h : State.Within T s0 s) (hT : [.block 11, .block 12, .block 14, .block 15, .block 16, .block 20, .block 21, .block 6, .block 7, .cmp, .freeIx, .ky, .mac, .mem, .ms, .mtb, .notes, .out, .pa, .pl, .queues, .rd, .resp, .ro, .ry, .sl, .su, .tm] ⊆ T) (ticket : Nat) : WithinRes T s0 (execSamplerEntry ticket s) := by
  unfold execSamplerEntry
  repeat' (first | with_reducible assumption | exact part_trans (by decide) hT | intro _ | extract_lets | with_reducible apply withinRes_next | with_reducible apply withinRes_ite | with_reducible apply within_ite | with_reducible apply State.roleRefused_within | with_reducible apply State.audited_within | with_reducible apply State.finishCall_within | with_reducible apply State.requestWarm_within | with_reducible apply State.answer_within | fail_if_no_progress ((with_reducible apply within_upd) <;> first | with_reducible exact Or.inl rfl | exact Or.inr (hT (by decide)) | skip) | exact Or.inl (hT (by decide)) | exact Or.inr (hT (by simp)) | split | dsimp +zetaDelta only)

theorem execRoleReissue_within {T : List Part} {s0 s : State} (h : State.Within T s0 s) (hT : [.block 19, .block 20, .cmp, .flash, .freeIx, .ms, .notes, .resp, .ro] ⊆ T) (ticket : Nat) : WithinRes T s0 (execRoleReissue ticket s) := by
  unfold execRoleReissue
  repeat' (first | with_reducible assumption | exact part_trans (by decide) hT | intro _ | extract_lets | with_reducible apply withinRes_next | with_reducible apply withinRes_ite | with_reducible apply within_ite | with_reducible apply State.roleRefused_within | with_reducible apply State.recordedCall_within | with_reducible apply State.erasePages_within | with_reducible apply State.setF_within | with_reducible apply State.finishCall_within | fail_if_no_progress ((with_reducible apply within_upd) <;> first | with_reducible exact Or.inl rfl | exact Or.inr (hT (by decide)) | skip) | exact Or.inl (hT (by decide)) | exact Or.inr (hT (by simp)) | split | dsimp +zetaDelta only)

theorem State.upTake_within {T : List Part} {s0 s : State} (h : State.Within T s0 s) (hT : [.flash, .ms, .up] ⊆ T) (holder : Option Nat) (raw : List Byte) (m : Manifest) : State.Within T s0 (State.upTake s holder raw m) := by
  unfold State.upTake
  repeat' (first | with_reducible assumption | exact part_trans (by decide) hT | exact Or.inl (hT (by decide)) | exact Or.inr (hT (by simp)) | with_reducible apply State.putRec_within | with_reducible apply State.erasePages_within | fail_if_no_progress ((with_reducible apply within_upd) <;> first | exact Or.inr (hT (by decide)) | with_reducible exact Or.inl rfl | skip))

theorem execUpdateBegin_within {T : List Part} {s0 s : State} (h : State.Within T s0 s) (hT : [.block 20, .block 22, .cmp, .flash, .freeIx, .ms, .mtb, .notes, .out, .pa, .resp, .ro, .up] ⊆ T) (ticket : Nat) (manifest : List Byte) (t : Nat) : WithinRes T s0 (execUpdateBegin ticket manifest t s) := by
  unfold execUpdateBegin
  repeat' (first | with_reducible assumption | exact part_trans (by decide) hT | intro _ | extract_lets | with_reducible apply withinRes_next | with_reducible apply withinRes_ite | with_reducible apply within_ite | with_reducible apply State.advance_within | with_reducible apply State.audited_within | with_reducible apply State.finishCall_within | with_reducible apply State.raiseIf_within | with_reducible apply State.upTake_within | with_reducible apply State.amrekOut_within | fail_if_no_progress ((with_reducible apply within_upd) <;> first | with_reducible exact Or.inl rfl | exact Or.inr (hT (by decide)) | skip) | exact Or.inl (hT (by decide)) | exact Or.inr (hT (by simp)) | split | dsimp +zetaDelta only)

theorem execUpdateOfferRx_within {T : List Part} {s0 s : State} (h : State.Within T s0 s) (hT : [.block 20, .block 22, .flash, .freeIx, .ms, .mtb, .notes, .ro, .up] ⊆ T) (manifest : List Byte) (t : Nat) : WithinRes T s0 (execUpdateOfferRx manifest t s) := by
  unfold execUpdateOfferRx
  repeat' (first | with_reducible assumption | exact part_trans (by decide) hT | intro _ | extract_lets | with_reducible apply withinRes_next | with_reducible apply withinRes_ite | with_reducible apply within_ite | with_reducible apply State.advance_within | with_reducible apply State.auditNote_within | with_reducible apply State.upTake_within | with_reducible apply State.raiseIf_within | fail_if_no_progress ((with_reducible apply within_upd) <;> first | with_reducible exact Or.inl rfl | exact Or.inr (hT (by decide)) | skip) | exact Or.inl (hT (by decide)) | exact Or.inr (hT (by simp)) | split | dsimp +zetaDelta only)

theorem State.upWrite_within {T : List Part} {s0 s : State} (h : State.Within T s0 s) (hT : [.block 20, .block 22, .cmp, .flash, .freeIx, .ms, .notes, .out, .pa, .resp, .ro, .up] ⊆ T) (i : Nat) (off : Nat) (data : List Byte) (flashOk : Bool) : State.Within T s0 (State.upWrite s i off data flashOk) := by
  unfold State.upWrite
  repeat' (first | with_reducible assumption | exact part_trans (by decide) hT | with_reducible intro _ | with_reducible apply within_ite | with_reducible apply State.sessionAbort_within | with_reducible apply State.programPages_within | fail_if_no_progress ((with_reducible apply within_upd) <;> first | with_reducible exact Or.inl rfl | exact Or.inr (hT (by decide)) | skip) | exact Or.inl (hT (by decide)) | exact Or.inr (hT (by simp)) | with_reducible split)

theorem execUpdateWrite_within {T : List Part} {s0 s : State} (h : State.Within T s0 s) (hT : [.block 20, .block 22, .cmp, .flash, .freeIx, .ms, .mtb, .notes, .out, .pa, .resp, .ro, .up] ⊆ T) (ticket : Nat) (entry : Nat) (off : Nat) (data : List Byte) (flashOk : Bool) (t : Nat) : WithinRes T s0 (execUpdateWrite ticket entry off data flashOk t s) := by
  unfold execUpdateWrite
  repeat' (first | with_reducible assumption | exact part_trans (by decide) hT | intro _ | extract_lets | with_reducible apply withinRes_next | with_reducible apply withinRes_ite | with_reducible apply within_ite | with_reducible apply State.advance_within | with_reducible apply State.finishCall_within | with_reducible apply State.upWrite_within | with_reducible apply State.amrekOut_within | fail_if_no_progress ((with_reducible apply within_upd) <;> first | with_reducible exact Or.inl rfl | exact Or.inr (hT (by decide)) | skip) | exact Or.inl (hT (by decide)) | exact Or.inr (hT (by simp)) | split | dsimp +zetaDelta only)

theorem State.upLastPages_within {T : List Part} {s0 s : State} (h : State.Within T s0 s) (hT : [.flash, .ms] ⊆ T) (v : UpSession) : State.Within T s0 (State.upLastPages s v) := by
  unfold State.upLastPages
  repeat' (first | with_reducible assumption | exact part_trans (by decide) hT | with_reducible intro _ | with_reducible apply State.each_within | with_reducible apply State.programPages_within | exact Or.inl (hT (by decide)) | exact Or.inr (hT (by simp)) | with_reducible split)

theorem State.upStaged_within {T : List Part} {s0 s : State} (h : State.Within T s0 s) (hT : [.block 22, .cmp, .flash, .ms, .notes, .resp, .up] ⊆ T) (v : UpSession) (keepsSd : Bool) : State.Within T s0 (State.upStaged s v keepsSd) := by
  unfold State.upStaged
  repeat' (first | with_reducible assumption | exact part_trans (by decide) hT | with_reducible apply State.putRec_within | with_reducible apply State.programPages_within | with_reducible apply State.raise_within | with_reducible apply State.finishCall_within | fail_if_no_progress ((with_reducible apply within_upd) <;> first | with_reducible exact Or.inl rfl | exact Or.inr (hT (by decide)) | skip) | exact Or.inl (hT (by decide)) | exact Or.inr (hT (by simp)) | with_reducible split)

theorem State.upFinish_within {T : List Part} {s0 s : State} (h : State.Within T s0 s) (hT : [.block 22, .cmp, .flash, .ms, .notes, .resp, .up] ⊆ T) (v : UpSession) (ticket : Option Nat) : State.Within T s0 (State.upFinish s v ticket) := by
  unfold State.upFinish
  repeat' (first | with_reducible assumption | exact part_trans (by decide) hT | with_reducible intro _ | with_reducible apply within_ite | with_reducible apply State.upStaged_within | fail_if_no_progress ((with_reducible apply within_upd) <;> first | with_reducible exact Or.inl rfl | exact Or.inr (hT (by decide)) | skip) | exact Or.inl (hT (by decide)) | exact Or.inr (hT (by simp)))

theorem execUpdateFinish_within {T : List Part} {s0 s : State} (h : State.Within T s0 s) (hT : [.block 20, .block 22, .cmp, .flash, .freeIx, .ms, .mtb, .notes, .out, .pa, .resp, .ro, .up] ⊆ T) (ticket : Nat) (flashOk : Bool) (t : Nat) : WithinRes T s0 (execUpdateFinish ticket flashOk t s) := by
  unfold execUpdateFinish
  repeat' (first | with_reducible assumption | exact part_trans (by decide) hT | intro _ | extract_lets | with_reducible apply withinRes_next | with_reducible apply withinRes_ite | with_reducible apply within_ite | with_reducible apply State.advance_within | with_reducible apply State.finishCall_within | with_reducible apply State.sessionAbort_within | with_reducible apply State.upLastPages_within | with_reducible apply State.upFinish_within | fail_if_no_progress ((with_reducible apply within_upd) <;> first | with_reducible exact Or.inl rfl | exact Or.inr (hT (by decide)) | skip) | exact Or.inl (hT (by decide)) | exact Or.inr (hT (by simp)) | split | dsimp +zetaDelta only)

theorem execUpdateDataRx_within {T : List Part} {s0 s : State} (h : State.Within T s0 s) (hT : [.block 20, .block 22, .cmp, .flash, .freeIx, .ms, .mtb, .notes, .out, .pa, .resp, .ro, .up] ⊆ T) (entry : Nat) (off : Nat) (data : List Byte) (flashOk : Bool) (t : Nat) : WithinRes T s0 (execUpdateDataRx entry off data flashOk t s) := by
  unfold execUpdateDataRx
  repeat' (first | with_reducible assumption | exact part_trans (by decide) hT | intro _ | extract_lets | with_reducible apply withinRes_next | with_reducible apply withinRes_ite | with_reducible apply within_ite | with_reducible apply State.advance_within | with_reducible apply State.upWrite_within | with_reducible apply State.sessionAbort_within | with_reducible apply State.upLastPages_within | with_reducible apply State.upFinish_within | fail_if_no_progress ((with_reducible apply within_upd) <;> first | with_reducible exact Or.inl rfl | exact Or.inr (hT (by decide)) | skip) | exact Or.inl (hT (by decide)) | exact Or.inr (hT (by simp)) | split | dsimp +zetaDelta only)

theorem State.upActivate_within {T : List Part} {s0 s : State} (h : State.Within T s0 s) (hT : [.block 11, .block 12, .block 14, .block 15, .block 16, .block 20, .block 21, .block 6, .block 7, .cmp, .flash, .freeIx, .ky, .mac, .mem, .ms, .mtb, .notes, .out, .pa, .pl, .queues, .rd, .resp, .ro, .ry, .sl, .su, .tm, .up] ⊆ T) (window : Nat) : State.Within T s0 (State.upActivate s window) := by
  unfold State.upActivate
  repeat' (first | with_reducible assumption | exact part_trans (by decide) hT | exact Or.inl (hT (by decide)) | exact Or.inr (hT (by simp)) | intro _ | extract_lets | with_reducible apply within_ite | with_reducible apply State.putRec_within | with_reducible apply State.erasePages_within | with_reducible apply State.requestWarm_within | fail_if_no_progress ((with_reducible apply within_upd) <;> first | exact Or.inr (hT (by decide)) | with_reducible exact Or.inl rfl | skip) | split | dsimp +zetaDelta only)

theorem execUpdateActivate_within {T : List Part} {s0 s : State} (h : State.Within T s0 s) (hT : [.block 11, .block 12, .block 14, .block 15, .block 16, .block 20, .block 21, .block 6, .block 7, .cmp, .flash, .freeIx, .ky, .mac, .mem, .ms, .mtb, .notes, .out, .pa, .pl, .queues, .rd, .resp, .ro, .ry, .sl, .su, .tm, .up] ⊆ T) (ticket : Nat) (window : Option Nat) : WithinRes T s0 (execUpdateActivate ticket window s) := by
  unfold execUpdateActivate
  repeat' (first | with_reducible assumption | exact part_trans (by decide) hT | intro _ | extract_lets | with_reducible apply withinRes_next | with_reducible apply withinRes_ite | with_reducible apply within_ite | with_reducible apply State.audited_within | with_reducible apply State.finishCall_within | with_reducible apply State.answer_within | with_reducible apply State.amrekOut_within | with_reducible apply State.upActivate_within | fail_if_no_progress ((with_reducible apply within_upd) <;> first | with_reducible exact Or.inl rfl | exact Or.inr (hT (by decide)) | skip) | exact Or.inl (hT (by decide)) | exact Or.inr (hT (by simp)) | split | dsimp +zetaDelta only)

theorem State.upActivateNow_within {T : List Part} {s0 s : State} (h : State.Within T s0 s) (hT : [.block 11, .block 12, .block 14, .block 15, .block 16, .block 20, .block 21, .block 6, .block 7, .cmp, .flash, .freeIx, .ky, .mac, .mem, .ms, .mtb, .notes, .out, .pa, .pl, .queues, .rd, .resp, .ro, .ry, .sl, .su, .tm, .up] ⊆ T) (window : Nat) : State.Within T s0 (State.upActivateNow s window) := by
  unfold State.upActivateNow
  repeat' (first | with_reducible assumption | exact part_trans (by decide) hT | with_reducible apply State.auditNote_within | with_reducible apply State.upActivate_within | fail_if_no_progress ((with_reducible apply within_upd) <;> first | with_reducible exact Or.inl rfl | exact Or.inr (hT (by decide)) | skip) | exact Or.inl (hT (by decide)) | exact Or.inr (hT (by simp)))

theorem execUpdateActivateRx_within {T : List Part} {s0 s : State} (h : State.Within T s0 s) (hT : [.block 11, .block 12, .block 14, .block 15, .block 16, .block 20, .block 21, .block 6, .block 7, .cmp, .flash, .freeIx, .ky, .mac, .mem, .ms, .mtb, .notes, .out, .pa, .pl, .queues, .rd, .resp, .ro, .ry, .sl, .su, .tm, .up] ⊆ T) (mdig : BitVec 64) (window : Nat) : WithinRes T s0 (execUpdateActivateRx mdig window s) := by
  unfold execUpdateActivateRx
  repeat' (first | with_reducible assumption | exact part_trans (by decide) hT | intro _ | extract_lets | with_reducible apply withinRes_next | with_reducible apply withinRes_ite | with_reducible apply within_ite | with_reducible apply State.upActivateNow_within | fail_if_no_progress ((with_reducible apply within_upd) <;> first | with_reducible exact Or.inl rfl | exact Or.inr (hT (by decide)) | skip) | exact Or.inl (hT (by decide)) | exact Or.inr (hT (by simp)) | split | dsimp +zetaDelta only)

theorem State.raiseCounter_within {T : List Part} {s0 s : State} (h : State.Within T s0 s) (hT : [.block 22, .notes, .up] ⊆ T) (fw : Bool) (v : Nat) : State.Within T s0 (State.raiseCounter s fw v) := by
  unfold State.raiseCounter
  repeat' (first | with_reducible assumption | exact part_trans (by decide) hT | with_reducible intro _ | with_reducible apply within_ite | with_reducible apply State.raise_within | fail_if_no_progress ((with_reducible apply within_upd) <;> first | with_reducible exact Or.inl rfl | exact Or.inr (hT (by decide)) | skip) | exact Or.inl (hT (by decide)) | exact Or.inr (hT (by simp)))

theorem State.upDecided_within {T : List Part} {s0 s : State} (h : State.Within T s0 s) (hT : [.up] ⊆ T) (result : Nat) : State.Within T s0 (State.upDecided s result) := by
  unfold State.upDecided
  repeat' (first | with_reducible assumption | exact part_trans (by decide) hT | fail_if_no_progress ((with_reducible apply within_upd) <;> first | with_reducible exact Or.inl rfl | exact Or.inr (hT (by decide)) | skip) | exact Or.inl (hT (by decide)) | exact Or.inr (hT (by simp)))

theorem State.upCommit_within {T : List Part} {s0 s : State} (h : State.Within T s0 s) (hT : [.block 20, .block 22, .flash, .freeIx, .ms, .notes, .ro, .up] ⊆ T) : State.Within T s0 (State.upCommit s) := by
  unfold State.upCommit
  repeat' (first | with_reducible assumption | exact part_trans (by decide) hT | with_reducible apply State.putRec_within | with_reducible apply State.raiseCounter_within | with_reducible apply State.auditNote_within | with_reducible apply State.setF_within | with_reducible apply State.raise_within | with_reducible apply State.upDecided_within | exact Or.inl (hT (by decide)) | exact Or.inr (hT (by simp)))

theorem State.upFallback_within {T : List Part} {s0 s : State} (h : State.Within T s0 s) (hT : [.block 11, .block 12, .block 14, .block 15, .block 16, .block 20, .block 21, .block 22, .block 6, .block 7, .cmp, .flash, .freeIx, .ky, .mac, .mem, .ms, .mtb, .notes, .out, .pa, .pl, .queues, .rd, .resp, .ro, .ry, .sl, .su, .tm, .up] ⊆ T) : State.Within T s0 (State.upFallback s) := by
  unfold State.upFallback
  repeat' (first | with_reducible assumption | exact part_trans (by decide) hT | with_reducible intro _ | with_reducible apply within_ite | with_reducible apply State.putRec_within | with_reducible apply State.auditNote_within | with_reducible apply State.setF_within | with_reducible apply State.raise_within | with_reducible apply State.upDecided_within | with_reducible apply State.requestWarm_within | exact Or.inl (hT (by decide)) | exact Or.inr (hT (by simp)))

theorem State.pairDecide_within {T : List Part} {s0 s : State} (h : State.Within T s0 s) (hT : [.block 11, .block 12, .block 14, .block 15, .block 16, .block 20, .block 21, .block 22, .block 6, .block 7, .cmp, .flash, .freeIx, .ky, .mac, .mem, .ms, .mtb, .notes, .out, .pa, .pl, .queues, .rd, .resp, .ro, .ry, .sl, .su, .tm, .up] ⊆ T) : State.Within T s0 (State.pairDecide s) := by
  unfold State.pairDecide
  repeat' (first | with_reducible assumption | exact part_trans (by decide) hT | intro _ | extract_lets | with_reducible apply within_ite | with_reducible apply State.upFallback_within | with_reducible apply State.upCommit_within | with_reducible apply State.raise_within | fail_if_no_progress ((with_reducible apply within_upd) <;> first | with_reducible exact Or.inl rfl | exact Or.inr (hT (by decide)) | skip) | exact Or.inl (hT (by decide)) | exact Or.inr (hT (by simp)) | split | dsimp +zetaDelta only)

theorem State.updateRefuse_within {T : List Part} {s0 s : State} (h : State.Within T s0 s) (hT : [.block 22, .resp] ⊆ T) (st : Nat) : State.Within T s0 (State.updateRefuse s st) := by
  unfold State.updateRefuse
  repeat' (first | with_reducible assumption | exact part_trans (by decide) hT | with_reducible apply State.refuse_within | exact Or.inl (hT (by decide)) | exact Or.inr (hT (by simp)))

theorem State.upConfirm_within {T : List Part} {s0 s : State} (h : State.Within T s0 s) (hT : [.block 11, .block 12, .block 14, .block 15, .block 16, .block 20, .block 21, .block 22, .block 6, .block 7, .cmp, .flash, .freeIx, .ky, .mac, .mem, .ms, .mtb, .notes, .out, .pa, .pl, .queues, .rd, .resp, .ro, .ry, .sl, .su, .tm, .up] ⊆ T) (mainHoop : Bool) : State.Within T s0 (State.upConfirm s mainHoop) := by
  unfold State.upConfirm
  repeat' (first | with_reducible assumption | exact part_trans (by decide) hT | exact Or.inl (hT (by decide)) | exact Or.inr (hT (by simp)) | with_reducible intro _ | with_reducible apply within_ite | with_reducible apply State.updateRefuse_within | with_reducible apply State.upCommit_within | with_reducible apply State.answer_within | with_reducible apply State.putRec_within | with_reducible apply State.pairDecide_within | fail_if_no_progress ((with_reducible apply within_upd) <;> first | exact Or.inr (hT (by decide)) | with_reducible exact Or.inl rfl | skip))

theorem State.upReject_within {T : List Part} {s0 s : State} (h : State.Within T s0 s) (hT : [.block 11, .block 12, .block 14, .block 15, .block 16, .block 20, .block 21, .block 22, .block 6, .block 7, .cmp, .flash, .freeIx, .ky, .mac, .mem, .ms, .mtb, .notes, .out, .pa, .pl, .queues, .rd, .resp, .ro, .ry, .sl, .su, .tm, .up] ⊆ T) (mainHoop : Bool) : State.Within T s0 (State.upReject s mainHoop) := by
  unfold State.upReject
  repeat' (first | with_reducible assumption | exact part_trans (by decide) hT | with_reducible intro _ | with_reducible apply within_ite | with_reducible apply State.updateRefuse_within | with_reducible apply State.upFallback_within | with_reducible apply State.answer_within | exact Or.inl (hT (by decide)) | exact Or.inr (hT (by simp)))

theorem execUpdateConfirm_within {T : List Part} {s0 s : State} (h : State.Within T s0 s) (hT : [.block 11, .block 12, .block 14, .block 15, .block 16, .block 20, .block 21, .block 22, .block 6, .block 7, .cmp, .flash, .freeIx, .ky, .mac, .mem, .ms, .mtb, .notes, .out, .pa, .pl, .queues, .rd, .resp, .ro, .ry, .sl, .su, .tm, .up] ⊆ T) (mainHoop : Bool) (t : Nat) : WithinRes T s0 (execUpdateConfirm mainHoop t s) := by
  unfold execUpdateConfirm
  repeat' (first | with_reducible assumption | exact part_trans (by decide) hT | exact Or.inl (hT (by decide)) | exact Or.inr (hT (by simp)) | intro _ | extract_lets | with_reducible apply withinRes_next | with_reducible apply withinRes_ite | with_reducible apply within_ite | with_reducible apply State.advance_within | with_reducible apply State.recorded_within | with_reducible apply State.upConfirm_within | fail_if_no_progress ((with_reducible apply within_upd) <;> first | exact Or.inr (hT (by decide)) | with_reducible exact Or.inl rfl | skip) | split | dsimp +zetaDelta only)

theorem execUpdateReject_within {T : List Part} {s0 s : State} (h : State.Within T s0 s) (hT : [.block 11, .block 12, .block 14, .block 15, .block 16, .block 20, .block 21, .block 22, .block 6, .block 7, .cmp, .flash, .freeIx, .ky, .mac, .mem, .ms, .mtb, .notes, .out, .pa, .pl, .queues, .rd, .resp, .ro, .ry, .sl, .su, .tm, .up] ⊆ T) (mainHoop : Bool) (t : Nat) : WithinRes T s0 (execUpdateReject mainHoop t s) := by
  unfold execUpdateReject
  repeat' (first | with_reducible assumption | exact part_trans (by decide) hT | intro _ | extract_lets | with_reducible apply withinRes_next | with_reducible apply withinRes_ite | with_reducible apply within_ite | with_reducible apply State.advance_within | with_reducible apply State.recorded_within | with_reducible apply State.upReject_within | fail_if_no_progress ((with_reducible apply within_upd) <;> first | with_reducible exact Or.inl rfl | exact Or.inr (hT (by decide)) | skip) | exact Or.inl (hT (by decide)) | exact Or.inr (hT (by simp)) | split | dsimp +zetaDelta only)

theorem execTrialWindowExpiry_within {T : List Part} {s0 s : State} (h : State.Within T s0 s) (hT : [.block 11, .block 12, .block 14, .block 15, .block 16, .block 20, .block 21, .block 22, .block 6, .block 7, .cmp, .flash, .freeIx, .ky, .mac, .mem, .ms, .mtb, .notes, .out, .pa, .pl, .queues, .rd, .resp, .ro, .ry, .sl, .su, .tm, .up] ⊆ T) (t : Nat) : WithinRes T s0 (execTrialWindowExpiry t s) := by
  unfold execTrialWindowExpiry
  repeat' (first | with_reducible assumption | exact part_trans (by decide) hT | intro _ | extract_lets | with_reducible apply withinRes_next | with_reducible apply withinRes_ite | with_reducible apply within_ite | with_reducible apply State.advance_within | with_reducible apply State.pairDecide_within | with_reducible apply State.upFallback_within | fail_if_no_progress ((with_reducible apply within_upd) <;> first | with_reducible exact Or.inl rfl | exact Or.inr (hT (by decide)) | skip) | exact Or.inl (hT (by decide)) | exact Or.inr (hT (by simp)) | split | dsimp +zetaDelta only)

theorem execUpdateAbort_within {T : List Part} {s0 s : State} (h : State.Within T s0 s) (hT : [.block 20, .block 22, .cmp, .freeIx, .notes, .out, .pa, .resp, .ro, .up] ⊆ T) (ticket : Nat) : WithinRes T s0 (execUpdateAbort ticket s) := by
  unfold execUpdateAbort
  repeat' (first | with_reducible assumption | exact part_trans (by decide) hT | intro _ | extract_lets | with_reducible apply withinRes_next | with_reducible apply withinRes_ite | with_reducible apply within_ite | with_reducible apply State.finishCall_within | with_reducible apply State.sessionAbort_within | fail_if_no_progress ((with_reducible apply within_upd) <;> first | with_reducible exact Or.inl rfl | exact Or.inr (hT (by decide)) | skip) | exact Or.inl (hT (by decide)) | exact Or.inr (hT (by simp)) | split | dsimp +zetaDelta only)

theorem execUpdateStatus_within {T : List Part} {s0 s : State} (h : State.Within T s0 s) (hT : [.cmp, .resp] ⊆ T) (ticket : Nat) : WithinRes T s0 (execUpdateStatus ticket s) := by
  unfold execUpdateStatus
  repeat' (first | with_reducible assumption | exact part_trans (by decide) hT | intro _ | extract_lets | with_reducible apply withinRes_next | with_reducible apply withinRes_ite | with_reducible apply within_ite | with_reducible apply State.finishCall_within | fail_if_no_progress ((with_reducible apply within_upd) <;> first | with_reducible exact Or.inl rfl | exact Or.inr (hT (by decide)) | skip) | exact Or.inl (hT (by decide)) | exact Or.inr (hT (by simp)) | split | dsimp +zetaDelta only)

theorem execUpdateSessionIdle_within {T : List Part} {s0 s : State} (h : State.Within T s0 s) (hT : [.block 20, .block 22, .cmp, .freeIx, .mtb, .notes, .out, .pa, .resp, .ro, .up] ⊆ T) (t : Nat) : WithinRes T s0 (execUpdateSessionIdle t s) := by
  unfold execUpdateSessionIdle
  repeat' (first | with_reducible assumption | exact part_trans (by decide) hT | intro _ | extract_lets | with_reducible apply withinRes_next | with_reducible apply withinRes_ite | with_reducible apply within_ite | with_reducible apply State.advance_within | with_reducible apply State.sessionAbort_within | fail_if_no_progress ((with_reducible apply within_upd) <;> first | with_reducible exact Or.inl rfl | exact Or.inr (hT (by decide)) | skip) | exact Or.inl (hT (by decide)) | exact Or.inr (hT (by simp)) | split | dsimp +zetaDelta only)

theorem State.pairTurn_within {T : List Part} {s0 s : State} (h : State.Within T s0 s) (hT : [.block 11, .block 12, .block 14, .block 15, .block 16, .block 20, .block 21, .block 6, .block 7, .cmp, .flash, .freeIx, .ky, .mac, .mem, .ms, .mtb, .notes, .out, .pa, .pl, .queues, .rd, .resp, .ro, .ry, .sl, .su, .tm, .up] ⊆ T) : State.Within T s0 (State.pairTurn s) := by
  unfold State.pairTurn
  repeat' (first | with_reducible assumption | exact part_trans (by decide) hT | with_reducible intro _ | with_reducible apply within_ite | with_reducible apply State.upActivateNow_within | fail_if_no_progress ((with_reducible apply within_upd) <;> first | with_reducible exact Or.inl rfl | exact Or.inr (hT (by decide)) | skip) | exact Or.inl (hT (by decide)) | exact Or.inr (hT (by simp)))

theorem execUpdateResultRx_within {T : List Part} {s0 s : State} (h : State.Within T s0 s) (hT : [.block 11, .block 12, .block 14, .block 15, .block 16, .block 20, .block 21, .block 22, .block 6, .block 7, .cmp, .flash, .freeIx, .ky, .mac, .mem, .ms, .mtb, .notes, .out, .pa, .pl, .queues, .rd, .resp, .ro, .ry, .sl, .su, .tm, .up] ⊆ T) (mdig : BitVec 64) (state : Fin 8) (t : Nat) : WithinRes T s0 (execUpdateResultRx mdig state t s) := by
  unfold execUpdateResultRx
  repeat' (first | with_reducible assumption | exact part_trans (by decide) hT | intro _ | extract_lets | with_reducible apply withinRes_next | with_reducible apply withinRes_ite | with_reducible apply within_ite | with_reducible apply State.advance_within | with_reducible apply State.upStaged_within | with_reducible apply State.pairDecide_within | with_reducible apply State.pairTurn_within | fail_if_no_progress ((with_reducible apply within_upd) <;> first | with_reducible exact Or.inl rfl | exact Or.inr (hT (by decide)) | skip) | exact Or.inl (hT (by decide)) | exact Or.inr (hT (by simp)) | split | dsimp +zetaDelta only)

theorem execUpdateAbortRx_within {T : List Part} {s0 s : State} (h : State.Within T s0 s) (hT : [.block 20, .block 22, .cmp, .freeIx, .notes, .out, .pa, .resp, .ro, .up] ⊆ T) : WithinRes T s0 (execUpdateAbortRx s) := by
  unfold execUpdateAbortRx
  repeat' (first | with_reducible assumption | exact part_trans (by decide) hT | intro _ | extract_lets | with_reducible apply withinRes_next | with_reducible apply withinRes_ite | with_reducible apply within_ite | with_reducible apply State.peerSessionLost_within | fail_if_no_progress ((with_reducible apply within_upd) <;> first | with_reducible exact Or.inl rfl | exact Or.inr (hT (by decide)) | skip) | exact Or.inl (hT (by decide)) | exact Or.inr (hT (by simp)) | split | dsimp +zetaDelta only)

theorem execUpdateResultSend_within {T : List Part} {s0 s : State} (h : State.Within T s0 s) (hT : [.mtb, .out, .pa, .up] ⊆ T) (t : Nat) : WithinRes T s0 (execUpdateResultSend t s) := by
  unfold execUpdateResultSend
  repeat' (first | with_reducible assumption | exact part_trans (by decide) hT | intro _ | extract_lets | with_reducible apply withinRes_next | with_reducible apply withinRes_ite | with_reducible apply within_ite | with_reducible apply State.advance_within | with_reducible apply State.amrekOut_within | fail_if_no_progress ((with_reducible apply within_upd) <;> first | with_reducible exact Or.inl rfl | exact Or.inr (hT (by decide)) | skip) | exact Or.inl (hT (by decide)) | exact Or.inr (hT (by simp)) | split | dsimp +zetaDelta only)

theorem execGpioEdge_within {T : List Part} {s0 s : State} (h : State.Within T s0 s) (hT : [.block 23, .mtb, .notes] ⊆ T) (pin : Fin 8) (rising : Bool) (t : Nat) : WithinRes T s0 (execGpioEdge pin rising t s) := by
  unfold execGpioEdge
  repeat' (first | with_reducible assumption | exact part_trans (by decide) hT | intro _ | extract_lets | with_reducible apply withinRes_next | with_reducible apply withinRes_ite | with_reducible apply within_ite | with_reducible apply State.setB_within | with_reducible apply State.advance_within | with_reducible apply State.raiseIf_within | fail_if_no_progress ((with_reducible apply within_upd) <;> first | with_reducible exact Or.inl rfl | exact Or.inr (hT (by decide)) | skip) | exact Or.inl (hT (by decide)) | exact Or.inr (hT (by simp)) | split | dsimp +zetaDelta only)

theorem execFcpPinUpdate_within {T : List Part} {s0 s : State} (h : State.Within T s0 s) (hT : [.block 15, .mtb, .out] ⊆ T) (t : Nat) : WithinRes T s0 (execFcpPinUpdate t s) := by
  unfold execFcpPinUpdate
  repeat' (first | with_reducible assumption | exact part_trans (by decide) hT | intro _ | extract_lets | with_reducible apply withinRes_next | with_reducible apply withinRes_ite | with_reducible apply within_ite | with_reducible apply State.each_within | with_reducible apply State.advance_within | with_reducible apply State.setB_within | with_reducible apply State.emit_within | fail_if_no_progress ((with_reducible apply within_upd) <;> first | with_reducible exact Or.inl rfl | exact Or.inr (hT (by decide)) | skip) | exact Or.inl (hT (by decide)) | exact Or.inr (hT (by simp)) | split | dsimp +zetaDelta only)

end Sys2Proof.Machine
end

