-- ==== Sys2Proof/Laws/WithinZones.lean ====
section
/-!
SUPPORT. What the operations of the zones and the service calls can do: one lemma per operation, which names the
parts of the state that it may touch and says that it keeps the invariant and the queue. A proof about a step cites these and
unfolds none of the operations.
-/
namespace Sys2Proof.Machine
open Sys2Proof
set_option linter.all false
set_option Elab.async false

theorem State.zPut_within {T : List Part} {s0 s : State} (h : State.Within T s0 s) (hT : [.block 21, .mem, .out, .pa] ⊆ T) (z : Nat) (o : Nat) (n : Nat) (v : Nat) : State.Within T s0 (State.zPut s z o n v) := by
  unfold State.zPut
  repeat' (first | with_reducible assumption | exact part_trans (by decide) hT | with_reducible apply State.writeNat_within | with_reducible apply State.journalAt_within | exact Or.inl (hT (by decide)) | exact Or.inr (hT (by simp)))

theorem State.zQueue_within {T : List Part} {s0 s : State} (h : State.Within T s0 s) (hT : [.block 21, .mem, .out, .pa] ⊆ T) (z : Nat) (level : Nat) (fade : Nat) : State.Within T s0 (State.zQueue s z level fade) := by
  unfold State.zQueue
  repeat' (first | with_reducible assumption | exact part_trans (by decide) hT | with_reducible intro _ | with_reducible apply within_ite | with_reducible apply State.zPut_within | exact Or.inl (hT (by decide)) | exact Or.inr (hT (by simp)))

theorem State.zEnter_within {T : List Part} {s0 s : State} (h : State.Within T s0 s) (hT : [.block 21, .mem, .out, .pa] ⊆ T) (z : Nat) (st : Nat) (deadline : Nat) (fade : Nat) : State.Within T s0 (State.zEnter s z st deadline fade) := by
  unfold State.zEnter
  repeat' (first | with_reducible assumption | exact part_trans (by decide) hT | with_reducible apply State.zPut_within | with_reducible apply State.zQueue_within | exact Or.inl (hT (by decide)) | exact Or.inr (hT (by simp)))

theorem State.zVacate_within {T : List Part} {s0 s : State} (h : State.Within T s0 s) (hT : [.block 21, .mem, .out, .pa] ⊆ T) (z : Nat) (now : Nat) (fade : Nat) : State.Within T s0 (State.zVacate s z now fade) := by
  unfold State.zVacate
  repeat' (first | with_reducible assumption | exact part_trans (by decide) hT | with_reducible apply State.zEnter_within | exact Or.inl (hT (by decide)) | exact Or.inr (hT (by simp)))

theorem State.zPresence_within {T : List Part} {s0 s : State} (h : State.Within T s0 s) (hT : [.block 21, .mem, .out, .pa] ⊆ T) (z : Nat) (ts : Nat) : State.Within T s0 (State.zPresence s z ts) := by
  unfold State.zPresence
  repeat' (first | with_reducible assumption | exact part_trans (by decide) hT | intro _ | extract_lets | with_reducible apply within_ite | with_reducible apply State.zPut_within | with_reducible apply State.zEnter_within | fail_if_no_progress ((with_reducible apply within_upd) <;> first | with_reducible exact Or.inl rfl | exact Or.inr (hT (by decide)) | skip) | exact Or.inl (hT (by decide)) | exact Or.inr (hT (by simp)) | split | dsimp +zetaDelta only)

theorem State.zOverride_within {T : List Part} {s0 s : State} (h : State.Within T s0 s) (hT : [.block 21, .mem, .out, .pa] ⊆ T) (z : Nat) (ts : Nat) (level : Nat) (secs : Nat) : State.Within T s0 (State.zOverride s z ts level secs) := by
  unfold State.zOverride
  repeat' (first | with_reducible assumption | exact part_trans (by decide) hT | with_reducible apply State.zPut_within | with_reducible apply State.zEnter_within | exact Or.inl (hT (by decide)) | exact Or.inr (hT (by simp)))

theorem State.zRelease_within {T : List Part} {s0 s : State} (h : State.Within T s0 s) (hT : [.block 21, .freeIx, .mem, .out, .pa] ⊆ T) (z : Nat) (now : Nat) : State.Within T s0 (State.zRelease s z now) := by
  unfold State.zRelease
  repeat' (first | with_reducible assumption | exact part_trans (by decide) hT | with_reducible intro _ | with_reducible apply within_ite | with_reducible apply State.useFree_within | with_reducible apply State.zEnter_within | with_reducible apply State.zVacate_within | exact Or.inl (hT (by decide)) | exact Or.inr (hT (by simp)))

theorem State.setZStat_within {T : List Part} {s0 s : State} (h : State.Within T s0 s) (hT : [.ry] ⊆ T) (p : Nat) (v : ZoneStat) : State.Within T s0 (State.setZStat s p v) := by
  unfold State.setZStat
  repeat' (first | with_reducible assumption | exact part_trans (by decide) hT | fail_if_no_progress ((with_reducible apply within_upd) <;> first | with_reducible exact Or.inl rfl | exact Or.inr (hT (by decide)) | skip) | exact Or.inl (hT (by decide)) | exact Or.inr (hT (by simp)))

theorem execZoneReportRx_within {T : List Part} {s0 s : State} (h : State.Within T s0 s) (hT : [.block 21, .mem, .mtb, .out, .pa, .ry] ⊆ T) (node : Nat) (kind : Nat) (value : Nat) (ts : Nat) (t : Nat) : WithinRes T s0 (execZoneReportRx node kind value ts t s) := by
  unfold execZoneReportRx
  repeat' (first | with_reducible assumption | exact part_trans (by decide) hT | intro _ | extract_lets | with_reducible apply withinRes_next | with_reducible apply withinRes_ite | with_reducible apply within_ite | with_reducible apply State.advance_within | with_reducible apply State.setZStat_within | with_reducible apply State.each_within | with_reducible apply State.zPresence_within | with_reducible apply State.zOverride_within | fail_if_no_progress ((with_reducible apply within_upd) <;> first | with_reducible exact Or.inl rfl | exact Or.inr (hT (by decide)) | skip) | exact Or.inl (hT (by decide)) | exact Or.inr (hT (by simp)) | split | dsimp +zetaDelta only)

theorem execZoneHoldExpiry_within {T : List Part} {s0 s : State} (h : State.Within T s0 s) (hT : [.block 21, .mem, .mtb, .out, .pa] ⊆ T) (zone : Fin 16384) (t : Nat) : WithinRes T s0 (execZoneHoldExpiry zone t s) := by
  unfold execZoneHoldExpiry
  repeat' (first | with_reducible assumption | exact part_trans (by decide) hT | intro _ | extract_lets | with_reducible apply withinRes_next | with_reducible apply withinRes_ite | with_reducible apply within_ite | with_reducible apply State.advance_within | with_reducible apply State.zVacate_within | fail_if_no_progress ((with_reducible apply within_upd) <;> first | with_reducible exact Or.inl rfl | exact Or.inr (hT (by decide)) | skip) | exact Or.inl (hT (by decide)) | exact Or.inr (hT (by simp)) | split | dsimp +zetaDelta only)

theorem execZoneVacancyExpiry_within {T : List Part} {s0 s : State} (h : State.Within T s0 s) (hT : [.block 21, .mem, .mtb, .out, .pa] ⊆ T) (zone : Fin 16384) (t : Nat) : WithinRes T s0 (execZoneVacancyExpiry zone t s) := by
  unfold execZoneVacancyExpiry
  repeat' (first | with_reducible assumption | exact part_trans (by decide) hT | intro _ | extract_lets | with_reducible apply withinRes_next | with_reducible apply withinRes_ite | with_reducible apply within_ite | with_reducible apply State.advance_within | with_reducible apply State.zEnter_within | fail_if_no_progress ((with_reducible apply within_upd) <;> first | with_reducible exact Or.inl rfl | exact Or.inr (hT (by decide)) | skip) | exact Or.inl (hT (by decide)) | exact Or.inr (hT (by simp)) | split | dsimp +zetaDelta only)

theorem execZoneOverrideExpiry_within {T : List Part} {s0 s : State} (h : State.Within T s0 s) (hT : [.block 21, .freeIx, .mem, .mtb, .out, .pa] ⊆ T) (zone : Fin 16384) (t : Nat) : WithinRes T s0 (execZoneOverrideExpiry zone t s) := by
  unfold execZoneOverrideExpiry
  repeat' (first | with_reducible assumption | exact part_trans (by decide) hT | intro _ | extract_lets | with_reducible apply withinRes_next | with_reducible apply withinRes_ite | with_reducible apply within_ite | with_reducible apply State.advance_within | with_reducible apply State.zRelease_within | fail_if_no_progress ((with_reducible apply within_upd) <;> first | with_reducible exact Or.inl rfl | exact Or.inr (hT (by decide)) | skip) | exact Or.inl (hT (by decide)) | exact Or.inr (hT (by simp)) | split | dsimp +zetaDelta only)

theorem State.zDaylight_within {T : List Part} {s0 s : State} (h : State.Within T s0 s) (hT : [.block 21, .mem, .out, .pa] ⊆ T) (z : Nat) : State.Within T s0 (State.zDaylight s z) := by
  unfold State.zDaylight
  repeat' (first | with_reducible assumption | exact part_trans (by decide) hT | with_reducible intro _ | with_reducible apply within_ite | with_reducible apply State.zQueue_within | exact Or.inl (hT (by decide)) | exact Or.inr (hT (by simp)))

theorem State.piStep_within {T : List Part} {s0 s : State} (h : State.Within T s0 s) (hT : [.block 21, .mem, .notes, .out, .pa] ⊆ T) (z : Nat) : State.Within T s0 (State.piStep s z) := by
  unfold State.piStep
  repeat' (first | with_reducible assumption | exact part_trans (by decide) hT | with_reducible intro _ | with_reducible apply within_ite | with_reducible apply State.zPut_within | with_reducible apply State.ryEvent_within | with_reducible apply State.zDaylight_within | exact Or.inl (hT (by decide)) | exact Or.inr (hT (by simp)))

theorem execZonePiStep_within {T : List Part} {s0 s : State} (h : State.Within T s0 s) (hT : [.block 21, .mem, .mtb, .notes, .out, .pa] ⊆ T) (zone : Fin 16384) (t : Nat) : WithinRes T s0 (execZonePiStep zone t s) := by
  unfold execZonePiStep
  repeat' (first | with_reducible assumption | exact part_trans (by decide) hT | intro _ | extract_lets | with_reducible apply withinRes_next | with_reducible apply withinRes_ite | with_reducible apply within_ite | with_reducible apply State.advance_within | with_reducible apply State.zPut_within | with_reducible apply State.piStep_within | fail_if_no_progress ((with_reducible apply within_upd) <;> first | with_reducible exact Or.inl rfl | exact Or.inr (hT (by decide)) | skip) | exact Or.inl (hT (by decide)) | exact Or.inr (hT (by simp)) | split | dsimp +zetaDelta only)

theorem execZoneBroadcastOpportunity_within {T : List Part} {s0 s : State} (h : State.Within T s0 s) (hT : [.block 21, .mem, .mtb, .notes, .out, .pa, .ry] ⊆ T) (pan : Fin 16) (fit : Nat) (held : Bool) (t : Nat) : WithinRes T s0 (execZoneBroadcastOpportunity pan fit held t s) := by
  unfold execZoneBroadcastOpportunity
  repeat' (first | with_reducible assumption | exact part_trans (by decide) hT | intro _ | extract_lets | with_reducible apply withinRes_next | with_reducible apply withinRes_ite | with_reducible apply within_ite | with_reducible apply State.advance_within | with_reducible apply State.setZStat_within | with_reducible apply State.ryEvent_within | with_reducible apply State.say_within | with_reducible apply State.each_within | with_reducible apply State.zPut_within | fail_if_no_progress ((with_reducible apply within_upd) <;> first | with_reducible exact Or.inl rfl | exact Or.inr (hT (by decide)) | skip) | exact Or.inl (hT (by decide)) | exact Or.inr (hT (by simp)) | split | dsimp +zetaDelta only)

theorem execZoneGet_within {T : List Part} {s0 s : State} (h : State.Within T s0 s) (hT : [.cmp, .resp] ⊆ T) (ticket : Nat) (zone : Nat) : WithinRes T s0 (execZoneGet ticket zone s) := by
  unfold execZoneGet
  repeat' (first | with_reducible assumption | exact part_trans (by decide) hT | intro _ | extract_lets | with_reducible apply withinRes_next | with_reducible apply withinRes_ite | with_reducible apply within_ite | with_reducible apply State.svcRead_within | with_reducible apply State.callEnd_within | with_reducible apply State.callDone_within | fail_if_no_progress ((with_reducible apply within_upd) <;> first | with_reducible exact Or.inl rfl | exact Or.inr (hT (by decide)) | skip) | exact Or.inl (hT (by decide)) | exact Or.inr (hT (by simp)) | split | dsimp +zetaDelta only)

theorem State.zPuts_within {T : List Part} {s0 s : State} (h : State.Within T s0 s) (hT : [.block 21, .mem, .out, .pa] ⊆ T) (z : Nat) (os : List (Nat × Nat)) (vs : List Nat) : State.Within T s0 (State.zPuts s z os vs) := by
  unfold State.zPuts
  repeat' (first | with_reducible assumption | exact part_trans (by decide) hT | with_reducible intro _ | with_reducible apply State.each_within | with_reducible apply State.zPut_within | exact Or.inl (hT (by decide)) | exact Or.inr (hT (by simp)))

theorem execZoneSet_within {T : List Part} {s0 s : State} (h : State.Within T s0 s) (hT : [.block 20, .block 21, .cmp, .freeIx, .mem, .mtb, .notes, .out, .pa, .resp, .ro] ⊆ T) (ticket : Nat) (zone : Nat) (k : ZoneKeys) (t : Nat) : WithinRes T s0 (execZoneSet ticket zone k t s) := by
  unfold execZoneSet
  repeat' (first | with_reducible assumption | exact part_trans (by decide) hT | intro _ | extract_lets | with_reducible apply withinRes_next | with_reducible apply withinRes_ite | with_reducible apply within_ite | with_reducible apply State.advance_within | with_reducible apply State.svcChange_within | with_reducible apply State.callEnd_within | with_reducible apply State.each_within | with_reducible apply State.zPut_within | with_reducible apply State.zPuts_within | with_reducible apply State.callDone_within | fail_if_no_progress ((with_reducible apply within_upd) <;> first | with_reducible exact Or.inl rfl | exact Or.inr (hT (by decide)) | skip) | exact Or.inl (hT (by decide)) | exact Or.inr (hT (by simp)) | split | dsimp +zetaDelta only)

theorem State.zoneList_within {T : List Part} {s0 s : State} (h : State.Within T s0 s) (hT : [.out] ⊆ T) (n : Nat) : State.Within T s0 (State.zoneList s n) := by
  unfold State.zoneList
  repeat' (first | with_reducible assumption | exact part_trans (by decide) hT | with_reducible apply State.say_within | exact Or.inl (hT (by decide)) | exact Or.inr (hT (by simp)))

theorem State.zoneLeave_within {T : List Part} {s0 s : State} (h : State.Within T s0 s) (hT : [.block 21, .mem, .out, .pa] ⊆ T) (z : Nat) (n : Nat) : State.Within T s0 (State.zoneLeave s z n) := by
  unfold State.zoneLeave
  repeat' (first | with_reducible assumption | exact part_trans (by decide) hT | with_reducible apply State.recPut_within | with_reducible apply State.zoneList_within | exact Or.inl (hT (by decide)) | exact Or.inr (hT (by simp)) | with_reducible split)

theorem State.zoneJoin_within {T : List Part} {s0 s : State} (h : State.Within T s0 s) (hT : [.block 21, .mem, .out, .pa] ⊆ T) (z : Nat) (n : Nat) : Within2 T s0 (State.zoneJoin s z n) := by
  unfold State.zoneJoin
  repeat' (first | with_reducible assumption | exact part_trans (by decide) hT | with_reducible intro _ | with_reducible apply within2_ite | with_reducible apply State.recPut_within | with_reducible apply State.zoneList_within | with_reducible apply within1_ite | with_reducible apply within2_ite | with_reducible apply withinO_some | with_reducible apply withinO_none | with_reducible apply withinO_ite | with_reducible split | with_reducible apply within1_mk | with_reducible apply within2_mk | exact Or.inl (hT (by decide)) | exact Or.inr (hT (by simp)))

theorem State.zoneJoins_within {T : List Part} {s0 s : State} (h : State.Within T s0 s) (hT : [.block 21, .mem, .out, .pa] ⊆ T) (z : Nat) (x0 : List Nat) (x1 : Nat) : Within1 T s0 (State.zoneJoins s z x0 x1) := by
  induction x0 generalizing s z x1 with
  | nil =>
    unfold State.zoneJoins
    repeat' (first | with_reducible assumption | exact part_trans (by decide) hT | intro _ | extract_lets | with_reducible apply within1_ite | with_reducible apply within_ite | with_reducible apply State.zoneJoin_within | refine within2_elim (by with_reducible assumption) (State.zoneJoin_within ?_ ?_ _ _) | with_reducible apply within2_snd | with_reducible apply within1_ite | with_reducible apply within2_ite | with_reducible apply withinO_some | with_reducible apply withinO_none | with_reducible apply withinO_ite | with_reducible apply within1_fst | fail_if_no_progress ((with_reducible apply within_upd) <;> first | with_reducible exact Or.inl rfl | exact Or.inr (hT (by decide)) | skip) | split | dsimp +zetaDelta only | with_reducible apply within1_mk | with_reducible apply within2_mk | exact Or.inl (hT (by decide)) | exact Or.inr (hT (by simp)))
  | cons y l ih =>
    unfold State.zoneJoins
    repeat' (first | with_reducible assumption | exact part_trans (by decide) hT | intro _ | extract_lets | with_reducible apply within1_ite | with_reducible apply within_ite | with_reducible apply State.zoneJoin_within | refine within2_elim (by with_reducible assumption) (State.zoneJoin_within ?_ ?_ _ _) | with_reducible apply within2_snd | with_reducible apply within1_ite | with_reducible apply within2_ite | with_reducible apply withinO_some | with_reducible apply withinO_none | with_reducible apply withinO_ite | with_reducible apply ih | with_reducible apply within1_fst | fail_if_no_progress ((with_reducible apply within_upd) <;> first | with_reducible exact Or.inl rfl | exact Or.inr (hT (by decide)) | skip) | split | dsimp +zetaDelta only | with_reducible apply within1_mk | with_reducible apply within2_mk | exact Or.inl (hT (by decide)) | exact Or.inr (hT (by simp)))

theorem execZoneAddMembers_within {T : List Part} {s0 s : State} (h : State.Within T s0 s) (hT : [.block 20, .block 21, .cmp, .freeIx, .mem, .notes, .out, .pa, .resp, .ro] ⊆ T) (ticket : Nat) (zone : Nat) (nodes : List Nat) : WithinRes T s0 (execZoneAddMembers ticket zone nodes s) := by
  unfold execZoneAddMembers
  repeat' (first | with_reducible assumption | exact part_trans (by decide) hT | intro _ | extract_lets | with_reducible apply withinRes_next | with_reducible apply withinRes_ite | with_reducible apply within_ite | with_reducible apply State.svcChange_within | with_reducible apply State.callEnd_within | with_reducible apply State.zoneJoins_within | refine within1_elim (by with_reducible assumption) (State.zoneJoins_within ?_ ?_ _ _ _) | with_reducible apply within1_fst | with_reducible apply State.finishCall_within | fail_if_no_progress ((with_reducible apply within_upd) <;> first | with_reducible exact Or.inl rfl | exact Or.inr (hT (by decide)) | skip) | exact Or.inl (hT (by decide)) | exact Or.inr (hT (by simp)) | split | dsimp +zetaDelta only)

theorem execZoneRemoveMembers_within {T : List Part} {s0 s : State} (h : State.Within T s0 s) (hT : [.block 20, .block 21, .cmp, .freeIx, .mem, .notes, .out, .pa, .resp, .ro] ⊆ T) (ticket : Nat) (zone : Nat) (nodes : List Nat) : WithinRes T s0 (execZoneRemoveMembers ticket zone nodes s) := by
  unfold execZoneRemoveMembers
  repeat' (first | with_reducible assumption | exact part_trans (by decide) hT | intro _ | extract_lets | with_reducible apply withinRes_next | with_reducible apply withinRes_ite | with_reducible apply within_ite | with_reducible apply State.svcChange_within | with_reducible apply State.callEnd_within | with_reducible apply State.each_within | with_reducible apply State.zoneLeave_within | with_reducible apply State.callDone_within | fail_if_no_progress ((with_reducible apply within_upd) <;> first | with_reducible exact Or.inl rfl | exact Or.inr (hT (by decide)) | skip) | exact Or.inl (hT (by decide)) | exact Or.inr (hT (by simp)) | split | dsimp +zetaDelta only)

theorem execZoneOverride_within {T : List Part} {s0 s : State} (h : State.Within T s0 s) (hT : [.block 20, .block 21, .cmp, .freeIx, .mem, .mtb, .notes, .out, .pa, .resp, .ro] ⊆ T) (ticket : Nat) (zone : Nat) (level : Nat) (secs : Nat) (t : Nat) : WithinRes T s0 (execZoneOverride ticket zone level secs t s) := by
  unfold execZoneOverride
  repeat' (first | with_reducible assumption | exact part_trans (by decide) hT | intro _ | extract_lets | with_reducible apply withinRes_next | with_reducible apply withinRes_ite | with_reducible apply within_ite | with_reducible apply State.advance_within | with_reducible apply State.svcChange_within | with_reducible apply State.callEnd_within | with_reducible apply State.zOverride_within | with_reducible apply State.callDone_within | fail_if_no_progress ((with_reducible apply within_upd) <;> first | with_reducible exact Or.inl rfl | exact Or.inr (hT (by decide)) | skip) | exact Or.inl (hT (by decide)) | exact Or.inr (hT (by simp)) | split | dsimp +zetaDelta only)

theorem execZoneRelease_within {T : List Part} {s0 s : State} (h : State.Within T s0 s) (hT : [.block 20, .block 21, .cmp, .freeIx, .mem, .mtb, .notes, .out, .pa, .resp, .ro] ⊆ T) (ticket : Nat) (zone : Nat) (t : Nat) : WithinRes T s0 (execZoneRelease ticket zone t s) := by
  unfold execZoneRelease
  repeat' (first | with_reducible assumption | exact part_trans (by decide) hT | intro _ | extract_lets | with_reducible apply withinRes_next | with_reducible apply withinRes_ite | with_reducible apply within_ite | with_reducible apply State.advance_within | with_reducible apply State.svcChange_within | with_reducible apply State.callEnd_within | with_reducible apply State.zRelease_within | with_reducible apply State.callDone_within | fail_if_no_progress ((with_reducible apply within_upd) <;> first | with_reducible exact Or.inl rfl | exact Or.inr (hT (by decide)) | skip) | exact Or.inl (hT (by decide)) | exact Or.inr (hT (by simp)) | split | dsimp +zetaDelta only)

theorem execZoneStats_within {T : List Part} {s0 s : State} (h : State.Within T s0 s) (hT : [.cmp, .resp] ⊆ T) (ticket : Nat) (pan : Nat) : WithinRes T s0 (execZoneStats ticket pan s) := by
  unfold execZoneStats
  repeat' (first | with_reducible assumption | exact part_trans (by decide) hT | intro _ | extract_lets | with_reducible apply withinRes_next | with_reducible apply withinRes_ite | with_reducible apply within_ite | with_reducible apply State.svcRead_within | with_reducible apply State.callEnd_within | with_reducible apply State.callDone_within | fail_if_no_progress ((with_reducible apply within_upd) <;> first | with_reducible exact Or.inl rfl | exact Or.inr (hT (by decide)) | skip) | exact Or.inl (hT (by decide)) | exact Or.inr (hT (by simp)) | split | dsimp +zetaDelta only)

theorem execZoneDelete_within {T : List Part} {s0 s : State} (h : State.Within T s0 s) (hT : [.block 20, .block 21, .cmp, .freeIx, .mem, .notes, .out, .pa, .resp, .ro] ⊆ T) (ticket : Nat) (zone : Nat) : WithinRes T s0 (execZoneDelete ticket zone s) := by
  unfold execZoneDelete
  repeat' (first | with_reducible assumption | exact part_trans (by decide) hT | intro _ | extract_lets | with_reducible apply withinRes_next | with_reducible apply withinRes_ite | with_reducible apply within_ite | with_reducible apply State.svcChange_within | with_reducible apply State.callEnd_within | with_reducible apply State.each_within | with_reducible apply State.zoneLeave_within | with_reducible apply State.zPut_within | with_reducible apply State.callDone_within | fail_if_no_progress ((with_reducible apply within_upd) <;> first | with_reducible exact Or.inl rfl | exact Or.inr (hT (by decide)) | skip) | exact Or.inl (hT (by decide)) | exact Or.inr (hT (by simp)) | split | dsimp +zetaDelta only)

theorem execNetGet_within {T : List Part} {s0 s : State} (h : State.Within T s0 s) (hT : [.cmp, .resp] ⊆ T) (ticket : Nat) : WithinRes T s0 (execNetGet ticket s) := by
  unfold execNetGet
  repeat' (first | with_reducible assumption | exact part_trans (by decide) hT | intro _ | extract_lets | with_reducible apply withinRes_next | with_reducible apply withinRes_ite | with_reducible apply within_ite | with_reducible apply State.svcRead_within | with_reducible apply State.callDone_within | fail_if_no_progress ((with_reducible apply within_upd) <;> first | with_reducible exact Or.inl rfl | exact Or.inr (hT (by decide)) | skip) | exact Or.inl (hT (by decide)) | exact Or.inr (hT (by simp)) | split | dsimp +zetaDelta only)

theorem execNetSet_within {T : List Part} {s0 s : State} (h : State.Within T s0 s) (hT : [.block 20, .block 21, .cmp, .freeIx, .notes, .out, .pa, .resp, .ro, .ry] ⊆ T) (ticket : Nat) (port : Option Nat) (udp : Option Nat) (pd : Option Nat) : WithinRes T s0 (execNetSet ticket port udp pd s) := by
  unfold execNetSet
  repeat' (first | with_reducible assumption | exact part_trans (by decide) hT | intro _ | extract_lets | with_reducible apply withinRes_next | with_reducible apply withinRes_ite | with_reducible apply within_ite | with_reducible apply State.svcChange_within | with_reducible apply State.callEnd_within | with_reducible apply State.maybeSet_within | with_reducible apply State.each_within | with_reducible apply State.prefixMoved_within | with_reducible apply State.callDone_within | fail_if_no_progress ((with_reducible apply within_upd) <;> first | with_reducible exact Or.inl rfl | exact Or.inr (hT (by decide)) | skip) | exact Or.inl (hT (by decide)) | exact Or.inr (hT (by simp)) | split | dsimp +zetaDelta only)

theorem execPanGet_within {T : List Part} {s0 s : State} (h : State.Within T s0 s) (hT : [.cmp, .resp] ⊆ T) (ticket : Nat) (pan : Nat) : WithinRes T s0 (execPanGet ticket pan s) := by
  unfold execPanGet
  repeat' (first | with_reducible assumption | exact part_trans (by decide) hT | intro _ | extract_lets | with_reducible apply withinRes_next | with_reducible apply withinRes_ite | with_reducible apply within_ite | with_reducible apply State.svcRead_within | with_reducible apply State.callEnd_within | with_reducible apply State.callDone_within | fail_if_no_progress ((with_reducible apply within_upd) <;> first | with_reducible exact Or.inl rfl | exact Or.inr (hT (by decide)) | skip) | exact Or.inl (hT (by decide)) | exact Or.inr (hT (by simp)) | split | dsimp +zetaDelta only)

theorem execPanSet_within {T : List Part} {s0 s : State} (h : State.Within T s0 s) (hT : [.block 20, .block 21, .cmp, .freeIx, .notes, .out, .pa, .resp, .ro, .ry] ⊆ T) (ticket : Nat) (pan : Nat) (k : PanKeys) : WithinRes T s0 (execPanSet ticket pan k s) := by
  unfold execPanSet
  repeat' (first | with_reducible assumption | exact part_trans (by decide) hT | intro _ | extract_lets | with_reducible apply withinRes_next | with_reducible apply withinRes_ite | with_reducible apply within_ite | with_reducible apply State.svcChange_within | with_reducible apply State.callEnd_within | with_reducible apply State.setSetting_within | with_reducible apply State.maybeSet_within | with_reducible apply State.each_within | with_reducible apply State.prefixMoved_within | with_reducible apply State.callDone_within | fail_if_no_progress ((with_reducible apply within_upd) <;> first | with_reducible exact Or.inl rfl | exact Or.inr (hT (by decide)) | skip) | exact Or.inl (hT (by decide)) | exact Or.inr (hT (by simp)) | split | dsimp +zetaDelta only)

theorem execPanRepair_within {T : List Part} {s0 s : State} (h : State.Within T s0 s) (hT : [.block 20, .cmp, .freeIx, .notes, .resp, .ro, .ry] ⊆ T) (ticket : Nat) (pan : Nat) : WithinRes T s0 (execPanRepair ticket pan s) := by
  unfold execPanRepair
  repeat' (first | with_reducible assumption | exact part_trans (by decide) hT | intro _ | extract_lets | with_reducible apply withinRes_next | with_reducible apply withinRes_ite | with_reducible apply within_ite | with_reducible apply State.svcChange_within | with_reducible apply State.callEnd_within | with_reducible apply State.newVersion_within | with_reducible apply State.callDone_within | fail_if_no_progress ((with_reducible apply within_upd) <;> first | with_reducible exact Or.inl rfl | exact Or.inr (hT (by decide)) | skip) | exact Or.inl (hT (by decide)) | exact Or.inr (hT (by simp)) | split | dsimp +zetaDelta only)

theorem execNodeGet_within {T : List Part} {s0 s : State} (h : State.Within T s0 s) (hT : [.cmp, .resp] ⊆ T) (ticket : Nat) (index : Option Nat) (eui : Option Nat) : WithinRes T s0 (execNodeGet ticket index eui s) := by
  unfold execNodeGet
  repeat' (first | with_reducible assumption | exact part_trans (by decide) hT | intro _ | extract_lets | with_reducible apply withinRes_next | with_reducible apply withinRes_ite | with_reducible apply within_ite | with_reducible apply State.svcRead_within | with_reducible apply State.callEnd_within | with_reducible apply State.callDone_within | fail_if_no_progress ((with_reducible apply within_upd) <;> first | with_reducible exact Or.inl rfl | exact Or.inr (hT (by decide)) | skip) | exact Or.inl (hT (by decide)) | exact Or.inr (hT (by simp)) | split | dsimp +zetaDelta only)

theorem execNodeRemove_within {T : List Part} {s0 s : State} (h : State.Within T s0 s) (hT : [.block 13, .block 15, .block 20, .block 21, .cmp, .freeIx, .gd, .mac, .mem, .ms, .notes, .out, .pa, .queues, .resp, .ro, .ry, .sl] ⊆ T) (ticket : Nat) (node : Nat) : WithinRes T s0 (execNodeRemove ticket node s) := by
  unfold execNodeRemove
  repeat' (first | with_reducible assumption | exact part_trans (by decide) hT | intro _ | extract_lets | with_reducible apply withinRes_next | with_reducible apply withinRes_ite | with_reducible apply within_ite | with_reducible apply State.svcChange_within | with_reducible apply State.callEnd_within | with_reducible apply State.each_within | with_reducible apply State.zoneLeave_within | with_reducible apply State.dropRoutes_within | with_reducible apply State.removeNode_within | with_reducible apply State.writeChanged_within | with_reducible apply State.sendCells_within | with_reducible apply State.callDone_within | fail_if_no_progress ((with_reducible apply within_upd) <;> first | with_reducible exact Or.inl rfl | exact Or.inr (hT (by decide)) | skip) | exact Or.inl (hT (by decide)) | exact Or.inr (hT (by simp)) | split | dsimp +zetaDelta only)

theorem execNodeList_within {T : List Part} {s0 s : State} (h : State.Within T s0 s) (hT : [.cmp, .resp] ⊆ T) (ticket : Nat) (pan : Nat) (first : Nat) (count : Nat) : WithinRes T s0 (execNodeList ticket pan first count s) := by
  unfold execNodeList
  repeat' (first | with_reducible assumption | exact part_trans (by decide) hT | intro _ | extract_lets | with_reducible apply withinRes_next | with_reducible apply withinRes_ite | with_reducible apply within_ite | with_reducible apply State.svcRead_within | with_reducible apply State.callEnd_within | with_reducible apply State.callDone_within | fail_if_no_progress ((with_reducible apply within_upd) <;> first | with_reducible exact Or.inl rfl | exact Or.inr (hT (by decide)) | skip) | exact Or.inl (hT (by decide)) | exact Or.inr (hT (by simp)) | split | dsimp +zetaDelta only)

theorem execNodeRoute_within {T : List Part} {s0 s : State} (h : State.Within T s0 s) (hT : [.cmp, .resp] ⊆ T) (ticket : Nat) (node : Nat) : WithinRes T s0 (execNodeRoute ticket node s) := by
  unfold execNodeRoute
  repeat' (first | with_reducible assumption | exact part_trans (by decide) hT | intro _ | extract_lets | with_reducible apply withinRes_next | with_reducible apply withinRes_ite | with_reducible apply within_ite | with_reducible apply State.svcRead_within | with_reducible apply State.callEnd_within | with_reducible apply State.callDone_within | fail_if_no_progress ((with_reducible apply within_upd) <;> first | with_reducible exact Or.inl rfl | exact Or.inr (hT (by decide)) | skip) | exact Or.inl (hT (by decide)) | exact Or.inr (hT (by simp)) | split | dsimp +zetaDelta only)

theorem execNodeSetClass_within {T : List Part} {s0 s : State} (h : State.Within T s0 s) (hT : [.block 20, .block 21, .cmp, .freeIx, .mem, .notes, .out, .pa, .resp, .ro] ⊆ T) (ticket : Nat) (node : Nat) (cls : Nat) : WithinRes T s0 (execNodeSetClass ticket node cls s) := by
  unfold execNodeSetClass
  repeat' (first | with_reducible assumption | exact part_trans (by decide) hT | intro _ | extract_lets | with_reducible apply withinRes_next | with_reducible apply withinRes_ite | with_reducible apply within_ite | with_reducible apply State.svcChange_within | with_reducible apply State.callEnd_within | with_reducible apply State.recPut_within | with_reducible apply State.callDone_within | fail_if_no_progress ((with_reducible apply within_upd) <;> first | with_reducible exact Or.inl rfl | exact Or.inr (hT (by decide)) | skip) | exact Or.inl (hT (by decide)) | exact Or.inr (hT (by simp)) | split | dsimp +zetaDelta only)

theorem execSchedGet_within {T : List Part} {s0 s : State} (h : State.Within T s0 s) (hT : [.cmp, .resp] ⊆ T) (ticket : Nat) (node : Nat) : WithinRes T s0 (execSchedGet ticket node s) := by
  unfold execSchedGet
  repeat' (first | with_reducible assumption | exact part_trans (by decide) hT | intro _ | extract_lets | with_reducible apply withinRes_next | with_reducible apply withinRes_ite | with_reducible apply within_ite | with_reducible apply State.svcRead_within | with_reducible apply State.callEnd_within | with_reducible apply State.callDone_within | fail_if_no_progress ((with_reducible apply within_upd) <;> first | with_reducible exact Or.inl rfl | exact Or.inr (hT (by decide)) | skip) | exact Or.inl (hT (by decide)) | exact Or.inr (hT (by simp)) | split | dsimp +zetaDelta only)

theorem State.minimalCells_within {T : List Part} {s0 s : State} (h : State.Within T s0 s) (hT : [.block 21, .freeIx, .mem, .out, .pa] ⊆ T) (p : Nat) : State.Within T s0 (State.minimalCells s p) := by
  unfold State.minimalCells
  repeat' (first | with_reducible assumption | exact part_trans (by decide) hT | with_reducible apply State.useFree_within | with_reducible apply State.tableWrite_within | exact Or.inl (hT (by decide)) | exact Or.inr (hT (by simp)) | with_reducible split)

theorem execSchedSet_within {T : List Part} {s0 s : State} (h : State.Within T s0 s) (hT : [.block 12, .block 20, .block 21, .cmp, .freeIx, .mem, .notes, .out, .pa, .resp, .ro, .ry] ⊆ T) (ticket : Nat) (pan : Nat) (sf0 : Option Nat) (sf1 : Option Nat) : WithinRes T s0 (execSchedSet ticket pan sf0 sf1 s) := by
  unfold execSchedSet
  repeat' (first | with_reducible assumption | exact part_trans (by decide) hT | intro _ | extract_lets | with_reducible apply withinRes_next | with_reducible apply withinRes_ite | with_reducible apply within_ite | with_reducible apply State.svcChange_within | with_reducible apply State.callEnd_within | with_reducible apply State.maybeSet_within | with_reducible apply State.setF_within | with_reducible apply State.minimalCells_within | with_reducible apply State.callDone_within | fail_if_no_progress ((with_reducible apply within_upd) <;> first | with_reducible exact Or.inl rfl | exact Or.inr (hT (by decide)) | skip) | exact Or.inl (hT (by decide)) | exact Or.inr (hT (by simp)) | split | dsimp +zetaDelta only)

theorem execSchedStats_within {T : List Part} {s0 s : State} (h : State.Within T s0 s) (hT : [.cmp, .resp] ⊆ T) (ticket : Nat) : WithinRes T s0 (execSchedStats ticket s) := by
  unfold execSchedStats
  repeat' (first | with_reducible assumption | exact part_trans (by decide) hT | intro _ | extract_lets | with_reducible apply withinRes_next | with_reducible apply withinRes_ite | with_reducible apply within_ite | with_reducible apply State.svcRead_within | with_reducible apply State.callDone_within | fail_if_no_progress ((with_reducible apply within_upd) <;> first | with_reducible exact Or.inl rfl | exact Or.inr (hT (by decide)) | skip) | exact Or.inl (hT (by decide)) | exact Or.inr (hT (by simp)) | split | dsimp +zetaDelta only)

theorem execJoinSet_within {T : List Part} {s0 s : State} (h : State.Within T s0 s) (hT : [.block 20, .block 21, .cmp, .freeIx, .notes, .out, .pa, .resp, .ro, .ry] ⊆ T) (ticket : Nat) (listed : Option Nat) (slot : Option (Option Nat)) (rate : Option Nat) : WithinRes T s0 (execJoinSet ticket listed slot rate s) := by
  unfold execJoinSet
  repeat' (first | with_reducible assumption | exact part_trans (by decide) hT | intro _ | extract_lets | with_reducible apply withinRes_next | with_reducible apply withinRes_ite | with_reducible apply within_ite | with_reducible apply State.svcChange_within | with_reducible apply State.callEnd_within | with_reducible apply State.maybeSet_within | with_reducible apply State.setSetting_within | with_reducible apply State.callDone_within | fail_if_no_progress ((with_reducible apply within_upd) <;> first | with_reducible exact Or.inl rfl | exact Or.inr (hT (by decide)) | skip) | exact Or.inl (hT (by decide)) | exact Or.inr (hT (by simp)) | split | dsimp +zetaDelta only)

theorem State.pledgePut_within {T : List Part} {s0 s : State} (h : State.Within T s0 s) (hT : [.block 21, .out, .pa, .ry] ⊆ T) (pledge : Nat) (psk : Nat) : State.Within T s0 (State.pledgePut s pledge psk) := by
  unfold State.pledgePut
  repeat' (first | with_reducible assumption | exact part_trans (by decide) hT | with_reducible apply State.setSetting_within | exact Or.inl (hT (by decide)) | exact Or.inr (hT (by simp)) | with_reducible split)

theorem execJoinEnrol_within {T : List Part} {s0 s : State} (h : State.Within T s0 s) (hT : [.block 20, .block 21, .cmp, .freeIx, .notes, .out, .pa, .resp, .ro, .ry] ⊆ T) (ticket : Nat) (entries : List (BitVec 64 × BitVec 192)) (slot : Fin 512) : WithinRes T s0 (execJoinEnrol ticket entries slot s) := by
  unfold execJoinEnrol
  repeat' (first | with_reducible assumption | exact part_trans (by decide) hT | intro _ | extract_lets | with_reducible apply withinRes_next | with_reducible apply withinRes_ite | with_reducible apply within_ite | with_reducible apply State.svcChange_within | with_reducible apply State.callEnd_within | with_reducible apply State.each_within | with_reducible apply State.pledgePut_within | with_reducible apply State.callDone_within | fail_if_no_progress ((with_reducible apply within_upd) <;> first | with_reducible exact Or.inl rfl | exact Or.inr (hT (by decide)) | skip) | exact Or.inl (hT (by decide)) | exact Or.inr (hT (by simp)) | split | dsimp +zetaDelta only)

theorem execJoinRevoke_within {T : List Part} {s0 s : State} (h : State.Within T s0 s) (hT : [.block 20, .block 21, .cmp, .freeIx, .notes, .out, .pa, .resp, .ro, .ry] ⊆ T) (ticket : Nat) (pledges : List (BitVec 64)) : WithinRes T s0 (execJoinRevoke ticket pledges s) := by
  unfold execJoinRevoke
  repeat' (first | with_reducible assumption | exact part_trans (by decide) hT | intro _ | extract_lets | with_reducible apply withinRes_next | with_reducible apply withinRes_ite | with_reducible apply within_ite | with_reducible apply State.svcChange_within | with_reducible apply State.each_within | with_reducible apply State.setSetting_within | with_reducible apply State.callDone_within | fail_if_no_progress ((with_reducible apply within_upd) <;> first | with_reducible exact Or.inl rfl | exact Or.inr (hT (by decide)) | skip) | exact Or.inl (hT (by decide)) | exact Or.inr (hT (by simp)) | split | dsimp +zetaDelta only)

theorem execJoinStats_within {T : List Part} {s0 s : State} (h : State.Within T s0 s) (hT : [.cmp, .resp] ⊆ T) (ticket : Nat) : WithinRes T s0 (execJoinStats ticket s) := by
  unfold execJoinStats
  repeat' (first | with_reducible assumption | exact part_trans (by decide) hT | intro _ | extract_lets | with_reducible apply withinRes_next | with_reducible apply withinRes_ite | with_reducible apply within_ite | with_reducible apply State.svcRead_within | with_reducible apply State.callDone_within | fail_if_no_progress ((with_reducible apply within_upd) <;> first | with_reducible exact Or.inl rfl | exact Or.inr (hT (by decide)) | skip) | exact Or.inl (hT (by decide)) | exact Or.inr (hT (by simp)) | split | dsimp +zetaDelta only)

theorem execJoinGroupRekey_within {T : List Part} {s0 s : State} (h : State.Within T s0 s) (hT : [.block 12, .block 20, .cmp, .freeIx, .mtb, .notes, .out, .resp, .ro, .ry] ⊆ T) (ticket : Nat) (pan : Nat) (slot : Nat) (deadline : Nat) (t : Nat) : WithinRes T s0 (execJoinGroupRekey ticket pan slot deadline t s) := by
  unfold execJoinGroupRekey
  repeat' (first | with_reducible assumption | exact part_trans (by decide) hT | intro _ | extract_lets | with_reducible apply withinRes_next | with_reducible apply withinRes_ite | with_reducible apply within_ite | with_reducible apply State.advance_within | with_reducible apply State.svcChange_within | with_reducible apply State.callEnd_within | with_reducible apply State.rekeyEnd_within | with_reducible apply State.each_within | with_reducible apply State.say_within | with_reducible apply State.answer_within | fail_if_no_progress ((with_reducible apply within_upd) <;> first | with_reducible exact Or.inl rfl | exact Or.inr (hT (by decide)) | skip) | exact Or.inl (hT (by decide)) | exact Or.inr (hT (by simp)) | split | dsimp +zetaDelta only)

theorem State.putImage_within {T : List Part} {s0 s : State} (h : State.Within T s0 s) (hT : [.ry] ⊆ T) (k : Nat) (i : Image) : State.Within T s0 (State.putImage s k i) := by
  unfold State.putImage
  repeat' (first | with_reducible assumption | exact part_trans (by decide) hT | fail_if_no_progress ((with_reducible apply within_upd) <;> first | with_reducible exact Or.inl rfl | exact Or.inr (hT (by decide)) | skip) | exact Or.inl (hT (by decide)) | exact Or.inr (hT (by simp)))

theorem execImageBegin_within {T : List Part} {s0 s : State} (h : State.Within T s0 s) (hT : [.block 20, .cmp, .flash, .freeIx, .ms, .notes, .resp, .ro, .ry] ⊆ T) (ticket : Nat) (image : Nat) (len : Nat) (digest : BitVec 256) (mask : Nat) (version : BitVec 32) : WithinRes T s0 (execImageBegin ticket image len digest mask version s) := by
  unfold execImageBegin
  repeat' (first | with_reducible assumption | exact part_trans (by decide) hT | intro _ | extract_lets | with_reducible apply withinRes_next | with_reducible apply withinRes_ite | with_reducible apply within_ite | with_reducible apply State.svcChange_within | with_reducible apply State.callEnd_within | with_reducible apply State.each_within | with_reducible apply State.erasePages_within | with_reducible apply State.putImage_within | with_reducible apply State.callDone_within | fail_if_no_progress ((with_reducible apply within_upd) <;> first | with_reducible exact Or.inl rfl | exact Or.inr (hT (by decide)) | skip) | exact Or.inl (hT (by decide)) | exact Or.inr (hT (by simp)) | split | dsimp +zetaDelta only)

theorem execImageWrite_within {T : List Part} {s0 s : State} (h : State.Within T s0 s) (hT : [.block 20, .cmp, .flash, .freeIx, .notes, .resp, .ro] ⊆ T) (ticket : Nat) (image : Nat) (off : Nat) (data : List Byte) : WithinRes T s0 (execImageWrite ticket image off data s) := by
  unfold execImageWrite
  repeat' (first | with_reducible assumption | exact part_trans (by decide) hT | intro _ | extract_lets | with_reducible apply withinRes_next | with_reducible apply withinRes_ite | with_reducible apply within_ite | with_reducible apply State.svcChange_within | with_reducible apply State.callEnd_within | with_reducible apply State.each_within | with_reducible apply State.flashPut_within | with_reducible apply State.callDone_within | fail_if_no_progress ((with_reducible apply within_upd) <;> first | with_reducible exact Or.inl rfl | exact Or.inr (hT (by decide)) | skip) | exact Or.inl (hT (by decide)) | exact Or.inr (hT (by simp)) | split | dsimp +zetaDelta only)

theorem execImageCommit_within {T : List Part} {s0 s : State} (h : State.Within T s0 s) (hT : [.block 20, .cmp, .freeIx, .notes, .resp, .ro, .ry] ⊆ T) (ticket : Nat) (image : Nat) : WithinRes T s0 (execImageCommit ticket image s) := by
  unfold execImageCommit
  repeat' (first | with_reducible assumption | exact part_trans (by decide) hT | intro _ | extract_lets | with_reducible apply withinRes_next | with_reducible apply withinRes_ite | with_reducible apply within_ite | with_reducible apply State.svcChange_within | with_reducible apply State.callEnd_within | with_reducible apply State.putImage_within | with_reducible apply State.callDone_within | fail_if_no_progress ((with_reducible apply within_upd) <;> first | with_reducible exact Or.inl rfl | exact Or.inr (hT (by decide)) | skip) | exact Or.inl (hT (by decide)) | exact Or.inr (hT (by simp)) | split | dsimp +zetaDelta only)

theorem execImageDelete_within {T : List Part} {s0 s : State} (h : State.Within T s0 s) (hT : [.block 20, .cmp, .freeIx, .notes, .resp, .ro, .ry] ⊆ T) (ticket : Nat) (image : Nat) : WithinRes T s0 (execImageDelete ticket image s) := by
  unfold execImageDelete
  repeat' (first | with_reducible assumption | exact part_trans (by decide) hT | intro _ | extract_lets | with_reducible apply withinRes_next | with_reducible apply withinRes_ite | with_reducible apply within_ite | with_reducible apply State.svcChange_within | with_reducible apply State.callEnd_within | with_reducible apply State.callDone_within | fail_if_no_progress ((with_reducible apply within_upd) <;> first | with_reducible exact Or.inl rfl | exact Or.inr (hT (by decide)) | skip) | exact Or.inl (hT (by decide)) | exact Or.inr (hT (by simp)) | split | dsimp +zetaDelta only)

theorem execImageList_within {T : List Part} {s0 s : State} (h : State.Within T s0 s) (hT : [.cmp, .resp] ⊆ T) (ticket : Nat) : WithinRes T s0 (execImageList ticket s) := by
  unfold execImageList
  repeat' (first | with_reducible assumption | exact part_trans (by decide) hT | intro _ | extract_lets | with_reducible apply withinRes_next | with_reducible apply withinRes_ite | with_reducible apply within_ite | with_reducible apply State.svcRead_within | with_reducible apply State.callDone_within | fail_if_no_progress ((with_reducible apply within_upd) <;> first | with_reducible exact Or.inl rfl | exact Or.inr (hT (by decide)) | skip) | exact Or.inl (hT (by decide)) | exact Or.inr (hT (by simp)) | split | dsimp +zetaDelta only)

theorem execCampaignStart_within {T : List Part} {s0 s : State} (h : State.Within T s0 s) (hT : [.block 20, .cmp, .freeIx, .mtb, .notes, .resp, .ro, .ry] ⊆ T) (ticket : Nat) (pan : Nat) (image : Nat) (a : CampaignArgs) (t : Nat) : WithinRes T s0 (execCampaignStart ticket pan image a t s) := by
  unfold execCampaignStart
  repeat' (first | with_reducible assumption | exact part_trans (by decide) hT | intro _ | extract_lets | with_reducible apply withinRes_next | with_reducible apply withinRes_ite | with_reducible apply within_ite | with_reducible apply State.advance_within | with_reducible apply State.svcChange_within | with_reducible apply State.callEnd_within | with_reducible apply State.callDone_within | with_reducible apply State.putCampaign_within | fail_if_no_progress ((with_reducible apply within_upd) <;> first | with_reducible exact Or.inl rfl | exact Or.inr (hT (by decide)) | skip) | exact Or.inl (hT (by decide)) | exact Or.inr (hT (by simp)) | split | dsimp +zetaDelta only)

theorem execCampaignStatus_within {T : List Part} {s0 s : State} (h : State.Within T s0 s) (hT : [.cmp, .resp] ⊆ T) (ticket : Nat) (campaign : Nat) : WithinRes T s0 (execCampaignStatus ticket campaign s) := by
  unfold execCampaignStatus
  repeat' (first | with_reducible assumption | exact part_trans (by decide) hT | intro _ | extract_lets | with_reducible apply withinRes_next | with_reducible apply withinRes_ite | with_reducible apply within_ite | with_reducible apply State.svcRead_within | with_reducible apply State.callEnd_within | with_reducible apply State.callDone_within | fail_if_no_progress ((with_reducible apply within_upd) <;> first | with_reducible exact Or.inl rfl | exact Or.inr (hT (by decide)) | skip) | exact Or.inl (hT (by decide)) | exact Or.inr (hT (by simp)) | split | dsimp +zetaDelta only)

theorem execCampaignStop_within {T : List Part} {s0 s : State} (h : State.Within T s0 s) (hT : [.block 20, .cmp, .freeIx, .notes, .resp, .ro, .ry] ⊆ T) (ticket : Nat) (campaign : Nat) : WithinRes T s0 (execCampaignStop ticket campaign s) := by
  unfold execCampaignStop
  repeat' (first | with_reducible assumption | exact part_trans (by decide) hT | intro _ | extract_lets | with_reducible apply withinRes_next | with_reducible apply withinRes_ite | with_reducible apply within_ite | with_reducible apply State.svcChange_within | with_reducible apply State.callEnd_within | with_reducible apply State.campaignEnd_within | with_reducible apply State.callDone_within | fail_if_no_progress ((with_reducible apply within_upd) <;> first | with_reducible exact Or.inl rfl | exact Or.inr (hT (by decide)) | skip) | exact Or.inl (hT (by decide)) | exact Or.inr (hT (by simp)) | split | dsimp +zetaDelta only)

end Sys2Proof.Machine
end

