-- ==== Sys2Proof/Laws/WithinStart.lean ====
section
/-!
SUPPORT. What the operations of start-up can do: one lemma per operation, which names the
parts of the state that it may touch and says that it keeps the invariant and the queue. A proof about a step cites these and
unfolds none of the operations.
-/
namespace Sys2Proof.Machine
open Sys2Proof
set_option linter.all false
set_option Elab.async false

theorem State.vbatClear_within {T : List Part} {s0 s : State} (h : State.Within T s0 s) (hT : [.regs] ⊆ T) : State.Within T s0 (State.vbatClear s) :=
  ⟨h.pending, fun i => ⟨Registers.wf_filter (h.inv i).1 _, (h.inv i).2⟩, h.same, fun _ hr => absurd (hT (by decide)) hr⟩

theorem execVbatApplied_within {T : List Part} {s0 s : State} (h : State.Within T s0 s) (hT : [.block 19, .regs, .su] ⊆ T) : WithinRes T s0 (execVbatApplied s) := by
  unfold execVbatApplied
  repeat' (first | with_reducible assumption | exact part_trans (by decide) hT | intro _ | extract_lets | with_reducible apply withinRes_next | with_reducible apply withinRes_ite | with_reducible apply within_ite | with_reducible apply State.vbatClear_within | with_reducible apply State.setF_within | fail_if_no_progress ((with_reducible apply within_upd) <;> first | with_reducible exact Or.inl rfl | exact Or.inr (hT (by decide)) | skip) | exact Or.inl (hT (by decide)) | exact Or.inr (hT (by simp)) | split | dsimp +zetaDelta only)

theorem execVbatLost_within {T : List Part} {s0 s : State} (h : State.Within T s0 s) (hT : [.block 19, .ky, .regs, .ro, .su] ⊆ T) : WithinRes T s0 (execVbatLost s) := by
  unfold execVbatLost
  repeat' (first | with_reducible assumption | exact part_trans (by decide) hT | intro _ | extract_lets | with_reducible apply withinRes_next | with_reducible apply withinRes_ite | with_reducible apply within_ite | with_reducible apply State.vbatClear_within | with_reducible apply State.setF_within | fail_if_no_progress ((with_reducible apply within_upd) <;> first | with_reducible exact Or.inl rfl | exact Or.inr (hT (by decide)) | skip) | exact Or.inl (hT (by decide)) | exact Or.inr (hT (by simp)) | split | dsimp +zetaDelta only)

theorem State.intervalCheck_within {T : List Part} {s0 s : State} (h : State.Within T s0 s) (hT : [.su] ⊆ T) : State.Within T s0 (State.intervalCheck s) := by
  unfold State.intervalCheck
  repeat' (first | with_reducible assumption | exact part_trans (by decide) hT | with_reducible intro _ | with_reducible apply within_ite | fail_if_no_progress ((with_reducible apply within_upd) <;> first | with_reducible exact Or.inl rfl | exact Or.inr (hT (by decide)) | skip) | exact Or.inl (hT (by decide)) | exact Or.inr (hT (by simp)))

theorem execMainSupplyGood_within {T : List Part} {s0 s : State} (h : State.Within T s0 s) (hT : [.su] ⊆ T) (supply : Fin 9) : WithinRes T s0 (execMainSupplyGood supply s) := by
  unfold execMainSupplyGood
  repeat' (first | with_reducible assumption | exact part_trans (by decide) hT | intro _ | extract_lets | with_reducible apply withinRes_next | with_reducible apply withinRes_ite | with_reducible apply within_ite | with_reducible apply State.intervalCheck_within | fail_if_no_progress ((with_reducible apply within_upd) <;> first | with_reducible exact Or.inl rfl | exact Or.inr (hT (by decide)) | skip) | exact Or.inl (hT (by decide)) | exact Or.inr (hT (by simp)) | split | dsimp +zetaDelta only)

theorem execResetNRelease_within {T : List Part} {s0 s : State} (h : State.Within T s0 s) (hT : [.su] ⊆ T) : WithinRes T s0 (execResetNRelease s) := by
  unfold execResetNRelease
  repeat' (first | with_reducible assumption | exact part_trans (by decide) hT | intro _ | extract_lets | with_reducible apply withinRes_next | with_reducible apply withinRes_ite | with_reducible apply within_ite | with_reducible apply State.intervalCheck_within | fail_if_no_progress ((with_reducible apply within_upd) <;> first | with_reducible exact Or.inl rfl | exact Or.inr (hT (by decide)) | skip) | exact Or.inl (hT (by decide)) | exact Or.inr (hT (by simp)) | split | dsimp +zetaDelta only)

theorem execSupplyGoodIntervalEnd_within {T : List Part} {s0 s : State} (h : State.Within T s0 s) (hT : [.block 0, .block 2, .notes, .su] ⊆ T) (mode : Fin 4) : WithinRes T s0 (execSupplyGoodIntervalEnd mode s) := by
  unfold execSupplyGoodIntervalEnd
  repeat' (first | with_reducible assumption | exact part_trans (by decide) hT | intro _ | extract_lets | with_reducible apply withinRes_next | with_reducible apply withinRes_ite | with_reducible apply within_ite | with_reducible apply State.exitCause_within | with_reducible apply State.setF_within | with_reducible apply State.setDev_within | with_reducible apply State.startFail_within | fail_if_no_progress ((with_reducible apply within_upd) <;> first | with_reducible exact Or.inl rfl | exact Or.inr (hT (by decide)) | skip) | exact Or.inl (hT (by decide)) | exact Or.inr (hT (by simp)) | split | dsimp +zetaDelta only)

theorem State.keyCut_within {T : List Part} {s0 s : State} (h : State.Within T s0 s) (hT : [.freeIx, .ky] ⊆ T) : State.Within T s0 (State.keyCut s) := by
  unfold State.keyCut
  repeat' (first | with_reducible assumption | exact part_trans (by decide) hT | with_reducible intro _ | with_reducible apply State.useFree_within | fail_if_no_progress ((with_reducible apply within_upd) <;> first | with_reducible exact Or.inl rfl | exact Or.inr (hT (by decide)) | skip) | exact Or.inl (hT (by decide)) | exact Or.inr (hT (by simp)) | with_reducible split | with_reducible dsimp +zetaDelta only)

theorem State.flashCut_within {T : List Part} {s0 s : State} (h : State.Within T s0 s) (hT : [.flash, .freeIx, .ky, .mem, .ms] ⊆ T) : State.Within T s0 (State.flashCut s) := by
  unfold State.flashCut
  repeat' (first | with_reducible assumption | exact part_trans (by decide) hT | with_reducible intro _ | with_reducible apply State.nandEffect_within | with_reducible apply State.keyCut_within | exact Or.inl (hT (by decide)) | exact Or.inr (hT (by simp)) | with_reducible split)

theorem State.powerDown_within {T : List Part} {s0 s : State} (h : State.Within T s0 s) (hT : [.block 1, .block 2, .block 20, .block 21, .block 22, .clk, .cmp, .flash, .freeIx, .gd, .ky, .mac, .mem, .ms, .mtb, .notes, .out, .pa, .pl, .pr, .queues, .rd, .regs, .resp, .ro, .ry, .sl, .su, .svc, .tie, .tm, .up, .upl0, .upl1] ⊆ T) (k : Nat) : State.Within T s0 (State.powerDown s k) := by
  unfold State.powerDown
  repeat' (first | with_reducible assumption | exact part_trans (by decide) hT | with_reducible intro _ | with_reducible apply State.each_within | with_reducible apply State.emit_within | with_reducible apply State.flashCut_within | with_reducible apply State.resetBlocks_within | with_reducible apply State.setDev_within | fail_if_no_progress ((with_reducible apply within_upd) <;> first | with_reducible exact Or.inl rfl | exact Or.inr (hT (by decide)) | skip) | exact Or.inl (hT (by decide)) | exact Or.inr (hT (by simp)))

theorem execMainSupplyLost_within {T : List Part} {s0 s : State} (h : State.Within T s0 s) (hT : [.block 1, .block 2, .block 20, .block 21, .block 22, .clk, .cmp, .flash, .freeIx, .gd, .ky, .mac, .mem, .ms, .mtb, .notes, .out, .pa, .pl, .pr, .queues, .rd, .regs, .resp, .ro, .ry, .sl, .su, .svc, .tie, .tm, .up, .upl0, .upl1] ⊆ T) (supply : Fin 9) : WithinRes T s0 (execMainSupplyLost supply s) := by
  unfold execMainSupplyLost
  repeat' (first | with_reducible assumption | exact part_trans (by decide) hT | intro _ | extract_lets | with_reducible apply withinRes_next | with_reducible apply withinRes_ite | with_reducible apply within_ite | with_reducible apply State.intervalCheck_within | with_reducible apply State.powerDown_within | fail_if_no_progress ((with_reducible apply within_upd) <;> first | with_reducible exact Or.inl rfl | exact Or.inr (hT (by decide)) | skip) | exact Or.inl (hT (by decide)) | exact Or.inr (hT (by simp)) | split | dsimp +zetaDelta only)

theorem execResetNTaken_within {T : List Part} {s0 s : State} (h : State.Within T s0 s) (hT : [.block 1, .block 2, .block 20, .block 21, .block 22, .clk, .cmp, .flash, .freeIx, .gd, .ky, .mac, .mem, .ms, .mtb, .notes, .out, .pa, .pl, .pr, .queues, .rd, .regs, .resp, .ro, .ry, .sl, .su, .svc, .tie, .tm, .up, .upl0, .upl1] ⊆ T) : WithinRes T s0 (execResetNTaken s) := by
  unfold execResetNTaken
  repeat' (first | with_reducible assumption | exact part_trans (by decide) hT | intro _ | extract_lets | with_reducible apply withinRes_next | with_reducible apply withinRes_ite | with_reducible apply within_ite | with_reducible apply State.intervalCheck_within | with_reducible apply State.powerDown_within | fail_if_no_progress ((with_reducible apply within_upd) <;> first | with_reducible exact Or.inl rfl | exact Or.inr (hT (by decide)) | skip) | exact Or.inl (hT (by decide)) | exact Or.inr (hT (by simp)) | split | dsimp +zetaDelta only)

theorem State.holdAt_within {T : List Part} {s0 s : State} (h : State.Within T s0 s) (hT : [.block 2, .su] ⊆ T) (point : Nat) : State.Within T s0 (State.holdAt s point) := by
  unfold State.holdAt
  repeat' (first | with_reducible assumption | exact part_trans (by decide) hT | with_reducible apply State.setF_within | fail_if_no_progress ((with_reducible apply within_upd) <;> first | with_reducible exact Or.inl rfl | exact Or.inr (hT (by decide)) | skip) | exact Or.inl (hT (by decide)) | exact Or.inr (hT (by simp)))

theorem State.bootCount_within {T : List Part} {s0 s : State} (h : State.Within T s0 s) (hT : [.block 0, .block 2, .notes, .su] ⊆ T) (st : Nat) (typ : Nat) (off : Nat) : State.Within T s0 (State.bootCount s st typ off) := by
  unfold State.bootCount
  repeat' (first | with_reducible assumption | exact part_trans (by decide) hT | with_reducible apply State.startFail_within | with_reducible apply State.bump_within | with_reducible apply State.setF_within | fail_if_no_progress ((with_reducible apply within_upd) <;> first | with_reducible exact Or.inl rfl | exact Or.inr (hT (by decide)) | skip) | exact Or.inl (hT (by decide)) | exact Or.inr (hT (by simp)))

theorem State.stop_within {T : List Part} {s0 s : State} (h : State.Within T s0 s) (hT : [.su] ⊆ T) : State.Within T s0 (State.stop s) := by
  unfold State.stop
  repeat' (first | with_reducible assumption | exact part_trans (by decide) hT | fail_if_no_progress ((with_reducible apply within_upd) <;> first | with_reducible exact Or.inl rfl | exact Or.inr (hT (by decide)) | skip) | exact Or.inl (hT (by decide)) | exact Or.inr (hT (by simp)))

theorem State.choose_within {T : List Part} {s0 s : State} (h : State.Within T s0 s) (hT : [.block 11, .block 12, .block 14, .block 15, .block 16, .block 20, .block 21, .block 22, .block 6, .block 7, .cmp, .flash, .freeIx, .ky, .mac, .mem, .ms, .mtb, .notes, .out, .pa, .pl, .queues, .rd, .resp, .ro, .ry, .sl, .su, .tm, .up] ⊆ T) : Within1 T s0 (State.choose s) := by
  unfold State.choose
  repeat' (first | with_reducible assumption | exact part_trans (by decide) hT | with_reducible intro _ | with_reducible apply within1_ite | with_reducible apply State.upFallback_within | with_reducible apply State.putRec_within | with_reducible apply within1_ite | with_reducible apply within2_ite | with_reducible apply withinO_some | with_reducible apply withinO_none | with_reducible apply withinO_ite | fail_if_no_progress ((with_reducible apply within_upd) <;> first | with_reducible exact Or.inl rfl | exact Or.inr (hT (by decide)) | skip) | with_reducible split | with_reducible apply within1_mk | with_reducible apply within2_mk | exact Or.inl (hT (by decide)) | exact Or.inr (hT (by simp)))

theorem State.useArea_within {T : List Part} {s0 s : State} (h : State.Within T s0 s) (hT : [.ro, .ry, .up] ⊆ T) (a : Nat) : State.Within T s0 (State.useArea s a) := by
  unfold State.useArea
  repeat' (first | with_reducible assumption | exact part_trans (by decide) hT | with_reducible intro _ | with_reducible apply within_ite | fail_if_no_progress ((with_reducible apply within_upd) <;> first | with_reducible exact Or.inl rfl | exact Or.inr (hT (by decide)) | skip) | exact Or.inl (hT (by decide)) | exact Or.inr (hT (by simp)))

theorem State.bootSlot_within {T : List Part} {s0 s : State} (h : State.Within T s0 s) (hT : [.block 2, .block 20, .block 22, .notes, .ro, .ry, .up] ⊆ T) (k : Nat) : State.Within T s0 (State.bootSlot s k) := by
  unfold State.bootSlot
  repeat' (first | with_reducible assumption | exact part_trans (by decide) hT | with_reducible intro _ | with_reducible apply within_ite | with_reducible apply State.setF_within | with_reducible apply State.useArea_within | with_reducible apply State.rolesBoot_within | exact Or.inl (hT (by decide)) | exact Or.inr (hT (by simp)))

theorem State.inBoot_within {T : List Part} {s0 s : State} (h : State.Within T s0 s) (hT : [.block 16, .block 2, .su] ⊆ T) : State.Within T s0 (State.inBoot s) := by
  unfold State.inBoot
  repeat' (first | with_reducible assumption | exact part_trans (by decide) hT | with_reducible apply State.setDev_within | with_reducible apply State.bump_within | with_reducible apply State.setF_within | fail_if_no_progress ((with_reducible apply within_upd) <;> first | with_reducible exact Or.inl rfl | exact Or.inr (hT (by decide)) | skip) | exact Or.inl (hT (by decide)) | exact Or.inr (hT (by simp)))

theorem State.bootNext_within {T : List Part} {s0 s : State} (h : State.Within T s0 s) (hT : [.block 0, .block 11, .block 12, .block 14, .block 15, .block 16, .block 2, .block 20, .block 21, .block 22, .block 6, .block 7, .cmp, .flash, .freeIx, .ky, .mac, .mem, .ms, .mtb, .notes, .out, .pa, .pl, .queues, .rd, .resp, .ro, .ry, .sl, .su, .tm, .up] ⊆ T) (last : State → State) (again : Bool) (x0 : Nat) (hlast : ∀ s, State.Within T s0 s → State.Within T s0 (last s)) : State.Within T s0 (State.bootNext s last again x0) := by
  induction x0 generalizing s again with
  | zero =>
    unfold State.bootNext
    repeat' (first | with_reducible assumption | exact part_trans (by decide) hT | intro _ | extract_lets | with_reducible apply within_ite | with_reducible apply State.choose_within | refine within1_elim (by with_reducible assumption) (State.choose_within ?_ ?_) | with_reducible apply within1_fst | with_reducible apply State.inBoot_within | with_reducible apply State.bootSlot_within | with_reducible apply State.bootCount_within | with_reducible apply hlast | with_reducible apply within1_ite | with_reducible apply within2_ite | with_reducible apply withinO_some | with_reducible apply withinO_none | with_reducible apply withinO_ite | fail_if_no_progress ((with_reducible apply within_upd) <;> first | with_reducible exact Or.inl rfl | exact Or.inr (hT (by decide)) | skip) | split | dsimp +zetaDelta only | with_reducible apply within1_mk | with_reducible apply within2_mk | exact Or.inl (hT (by decide)) | exact Or.inr (hT (by simp)))
  | succ k ih =>
    unfold State.bootNext
    repeat' (first | with_reducible assumption | exact part_trans (by decide) hT | intro _ | extract_lets | with_reducible apply within_ite | with_reducible apply State.choose_within | refine within1_elim (by with_reducible assumption) (State.choose_within ?_ ?_) | with_reducible apply within1_fst | with_reducible apply State.inBoot_within | with_reducible apply State.bootSlot_within | with_reducible apply State.bootCount_within | with_reducible apply hlast | with_reducible apply within1_ite | with_reducible apply within2_ite | with_reducible apply withinO_some | with_reducible apply withinO_none | with_reducible apply withinO_ite | with_reducible apply ih | fail_if_no_progress ((with_reducible apply within_upd) <;> first | with_reducible exact Or.inl rfl | exact Or.inr (hT (by decide)) | skip) | split | dsimp +zetaDelta only | with_reducible apply within1_mk | with_reducible apply within2_mk | exact Or.inl (hT (by decide)) | exact Or.inr (hT (by simp)))

theorem State.noImage_within {T : List Part} {s0 s : State} (h : State.Within T s0 s) (hT : [.block 0, .block 2, .notes, .su] ⊆ T) : State.Within T s0 (State.noImage s) := by
  unfold State.noImage
  repeat' (first | with_reducible assumption | exact part_trans (by decide) hT | with_reducible apply State.startFail_within | with_reducible apply State.stop_within | exact Or.inl (hT (by decide)) | exact Or.inr (hT (by simp)))

theorem State.noPricking_within {T : List Part} {s0 s : State} (h : State.Within T s0 s) (hT : [.su] ⊆ T) : State.Within T s0 (State.noPricking s) := by
  unfold State.noPricking
  repeat' (first | with_reducible assumption | exact part_trans (by decide) hT | with_reducible apply State.stop_within | fail_if_no_progress ((with_reducible apply within_upd) <;> first | with_reducible exact Or.inl rfl | exact Or.inr (hT (by decide)) | skip) | exact Or.inl (hT (by decide)) | exact Or.inr (hT (by simp)))

theorem State.bootRoles_within {T : List Part} {s0 s : State} (h : State.Within T s0 s) (hT : [.block 20, .notes, .ro] ⊆ T) : State.Within T s0 (State.bootRoles s) := by
  unfold State.bootRoles
  repeat' (first | with_reducible assumption | exact part_trans (by decide) hT | with_reducible intro _ | with_reducible apply within_ite | with_reducible apply State.rolesBoot_within | fail_if_no_progress ((with_reducible apply within_upd) <;> first | with_reducible exact Or.inl rfl | exact Or.inr (hT (by decide)) | skip) | exact Or.inl (hT (by decide)) | exact Or.inr (hT (by simp)))

theorem State.enterBoot_within {T : List Part} {s0 s : State} (h : State.Within T s0 s) (hT : [.block 0, .block 11, .block 12, .block 14, .block 15, .block 16, .block 18, .block 2, .block 20, .block 21, .block 22, .block 6, .block 7, .cmp, .flash, .freeIx, .ky, .mac, .mem, .ms, .mtb, .notes, .out, .pa, .pl, .queues, .rd, .resp, .ro, .ry, .sl, .su, .tm, .up] ⊆ T) : State.Within T s0 (State.enterBoot s) := by
  unfold State.enterBoot
  repeat' (first | with_reducible assumption | exact part_trans (by decide) hT | with_reducible intro _ | with_reducible apply within_ite | with_reducible apply State.inBoot_within | with_reducible apply State.each_within | with_reducible apply State.auditProgram_within | with_reducible apply State.raise_within | with_reducible apply State.auditNote_within | with_reducible apply State.keyBoot_within | with_reducible apply State.useArea_within | with_reducible apply State.bootRoles_within | with_reducible apply State.bootNext_within | with_reducible apply State.noImage_within | fail_if_no_progress ((with_reducible apply within_upd) <;> first | with_reducible exact Or.inl rfl | exact Or.inr (hT (by decide)) | skip) | exact Or.inl (hT (by decide)) | exact Or.inr (hT (by simp)))

theorem State.bootFailed_within {T : List Part} {s0 s : State} (h : State.Within T s0 s) (hT : [.block 0, .block 11, .block 12, .block 14, .block 15, .block 16, .block 2, .block 20, .block 21, .block 22, .block 6, .block 7, .cmp, .flash, .freeIx, .ky, .mac, .mem, .ms, .mtb, .notes, .out, .pa, .pl, .queues, .rd, .resp, .ro, .ry, .sl, .su, .tm, .up] ⊆ T) (st : Nat) (typ : Nat) (off : Nat) : State.Within T s0 (State.bootFailed s st typ off) := by
  unfold State.bootFailed
  repeat' (first | with_reducible assumption | exact part_trans (by decide) hT | with_reducible intro _ | with_reducible apply within_ite | with_reducible apply State.bootCount_within | with_reducible apply State.bootNext_within | with_reducible apply State.noPricking_within | with_reducible apply State.noImage_within | exact Or.inl (hT (by decide)) | exact Or.inr (hT (by simp)))

theorem execRootPllLock_within {T : List Part} {s0 s : State} (h : State.Within T s0 s) (hT : [.block 1, .block 11, .block 12, .block 14, .block 15, .block 16, .block 2, .block 20, .block 21, .block 22, .block 5, .block 6, .block 7, .clk, .cmp, .freeIx, .ky, .mac, .mem, .ms, .mtb, .notes, .out, .pa, .pl, .queues, .rd, .resp, .ro, .ry, .sl, .su, .tie, .tm, .up] ⊆ T) : WithinRes T s0 (execRootPllLock s) := by
  unfold execRootPllLock
  repeat' (first | with_reducible assumption | exact part_trans (by decide) hT | intro _ | extract_lets | with_reducible apply withinRes_next | with_reducible apply withinRes_ite | with_reducible apply within_ite | with_reducible apply State.setF_within | with_reducible apply State.setClkMode_within | with_reducible apply State.each_within | with_reducible apply State.recordHeld_within | with_reducible apply State.openWindow_within | with_reducible apply State.setDev_within | with_reducible apply State.tieAgain_within | fail_if_no_progress ((with_reducible apply within_upd) <;> first | with_reducible exact Or.inl rfl | exact Or.inr (hT (by decide)) | skip) | exact Or.inl (hT (by decide)) | exact Or.inr (hT (by simp)) | split | dsimp +zetaDelta only)

theorem execRootLockTimeout_within {T : List Part} {s0 s : State} (h : State.Within T s0 s) (hT : [.block 0, .block 1, .block 2, .block 20, .block 21, .block 22, .clk, .cmp, .freeIx, .gd, .ky, .mac, .mem, .ms, .mtb, .notes, .out, .pa, .pl, .pr, .queues, .rd, .regs, .resp, .ro, .ry, .sl, .su, .svc, .tie, .tm, .up, .upl0, .upl1] ⊆ T) : WithinRes T s0 (execRootLockTimeout s) := by
  unfold execRootLockTimeout
  repeat' (first | with_reducible assumption | exact part_trans (by decide) hT | intro _ | extract_lets | with_reducible apply withinRes_next | with_reducible apply withinRes_ite | with_reducible apply within_ite | with_reducible apply State.startFail_within | with_reducible apply State.toAwait_within | fail_if_no_progress ((with_reducible apply within_upd) <;> first | with_reducible exact Or.inl rfl | exact Or.inr (hT (by decide)) | skip) | exact Or.inl (hT (by decide)) | exact Or.inr (hT (by simp)) | split | dsimp +zetaDelta only)

theorem State.dramFail_within {T : List Part} {s0 s : State} (h : State.Within T s0 s) (hT : [.block 0, .block 2, .clk, .notes, .su] ⊆ T) : State.Within T s0 (State.dramFail s) := by
  unfold State.dramFail
  repeat' (first | with_reducible assumption | exact part_trans (by decide) hT | intro _ | extract_lets | with_reducible apply within_ite | with_reducible apply State.stop_within | with_reducible apply State.startFail_within | fail_if_no_progress ((with_reducible apply within_upd) <;> first | with_reducible exact Or.inl rfl | exact Or.inr (hT (by decide)) | skip) | exact Or.inl (hT (by decide)) | exact Or.inr (hT (by simp)) | split | dsimp +zetaDelta only)

theorem execDramTrainStageEnd_within {T : List Part} {s0 s : State} (h : State.Within T s0 s) (hT : [.block 0, .block 11, .block 12, .block 14, .block 15, .block 16, .block 18, .block 2, .block 20, .block 21, .block 22, .block 6, .block 7, .clk, .cmp, .flash, .freeIx, .ky, .mac, .mem, .ms, .mtb, .notes, .out, .pa, .pl, .queues, .rd, .resp, .ro, .ry, .sl, .su, .tm, .up] ⊆ T) (ok : Bool) (t : Nat) : WithinRes T s0 (execDramTrainStageEnd ok t s) := by
  unfold execDramTrainStageEnd
  repeat' (first | with_reducible assumption | exact part_trans (by decide) hT | intro _ | extract_lets | with_reducible apply withinRes_next | with_reducible apply withinRes_ite | with_reducible apply within_ite | with_reducible apply State.advance_within | with_reducible apply State.dramFail_within | with_reducible apply State.setF_within | with_reducible apply State.dropMem_within | with_reducible apply State.holdAt_within | with_reducible apply State.enterBoot_within | fail_if_no_progress ((with_reducible apply within_upd) <;> first | with_reducible exact Or.inl rfl | exact Or.inr (hT (by decide)) | skip) | exact Or.inl (hT (by decide)) | exact Or.inr (hT (by simp)) | split | dsimp +zetaDelta only)

theorem execDramTrainTimeout_within {T : List Part} {s0 s : State} (h : State.Within T s0 s) (hT : [.block 0, .block 2, .clk, .mtb, .notes, .su] ⊆ T) (t : Nat) : WithinRes T s0 (execDramTrainTimeout t s) := by
  unfold execDramTrainTimeout
  repeat' (first | with_reducible assumption | exact part_trans (by decide) hT | intro _ | extract_lets | with_reducible apply withinRes_next | with_reducible apply withinRes_ite | with_reducible apply within_ite | with_reducible apply State.advance_within | with_reducible apply State.dramFail_within | fail_if_no_progress ((with_reducible apply within_upd) <;> first | with_reducible exact Or.inl rfl | exact Or.inr (hT (by decide)) | skip) | exact Or.inl (hT (by decide)) | exact Or.inr (hT (by simp)) | split | dsimp +zetaDelta only)

theorem State.enterLoad_within {T : List Part} {s0 s : State} (h : State.Within T s0 s) (hT : [.block 2, .su] ⊆ T) : State.Within T s0 (State.enterLoad s) := by
  unfold State.enterLoad
  repeat' (first | with_reducible assumption | exact part_trans (by decide) hT | with_reducible apply State.setDev_within | with_reducible apply State.setF_within | fail_if_no_progress ((with_reducible apply within_upd) <;> first | with_reducible exact Or.inl rfl | exact Or.inr (hT (by decide)) | skip) | exact Or.inl (hT (by decide)) | exact Or.inr (hT (by simp)))

theorem State.dataImages_within {T : List Part} {s0 s : State} (h : State.Within T s0 s) (hT : [.mem, .ms] ⊆ T) (k : Nat) : State.Within T s0 (State.dataImages s k) := by
  unfold State.dataImages
  repeat' (first | with_reducible assumption | exact part_trans (by decide) hT | intro _ | extract_lets | with_reducible apply within_ite | with_reducible apply State.each_within | with_reducible apply State.writeBytes_within | fail_if_no_progress ((with_reducible apply within_upd) <;> first | with_reducible exact Or.inl rfl | exact Or.inr (hT (by decide)) | skip) | exact Or.inl (hT (by decide)) | exact Or.inr (hT (by simp)) | split | dsimp +zetaDelta only)

theorem execBootComplete_within {T : List Part} {s0 s : State} (h : State.Within T s0 s) (hT : [.block 0, .block 11, .block 12, .block 14, .block 15, .block 16, .block 2, .block 20, .block 21, .block 22, .block 6, .block 7, .cmp, .flash, .freeIx, .ky, .mac, .mem, .ms, .mtb, .notes, .out, .pa, .pl, .queues, .rd, .resp, .ro, .ry, .sl, .su, .tm, .up] ⊆ T) (readFail : Bool) (t : Nat) : WithinRes T s0 (execBootComplete readFail t s) := by
  unfold execBootComplete
  repeat' (first | with_reducible assumption | exact part_trans (by decide) hT | intro _ | extract_lets | with_reducible apply withinRes_next | with_reducible apply withinRes_ite | with_reducible apply within_ite | with_reducible apply State.advance_within | with_reducible apply State.bootFailed_within | with_reducible apply State.dataImages_within | with_reducible apply State.holdAt_within | with_reducible apply State.enterLoad_within | fail_if_no_progress ((with_reducible apply within_upd) <;> first | with_reducible exact Or.inl rfl | exact Or.inr (hT (by decide)) | skip) | exact Or.inl (hT (by decide)) | exact Or.inr (hT (by simp)) | split | dsimp +zetaDelta only)

theorem execBootTimeout_within {T : List Part} {s0 s : State} (h : State.Within T s0 s) (hT : [.block 0, .block 11, .block 12, .block 14, .block 15, .block 16, .block 2, .block 20, .block 21, .block 22, .block 6, .block 7, .cmp, .flash, .freeIx, .ky, .mac, .mem, .ms, .mtb, .notes, .out, .pa, .pl, .queues, .rd, .resp, .ro, .ry, .sl, .su, .tm, .up] ⊆ T) (t : Nat) : WithinRes T s0 (execBootTimeout t s) := by
  unfold execBootTimeout
  repeat' (first | with_reducible assumption | exact part_trans (by decide) hT | intro _ | extract_lets | with_reducible apply withinRes_next | with_reducible apply withinRes_ite | with_reducible apply within_ite | with_reducible apply State.advance_within | with_reducible apply State.bootFailed_within | fail_if_no_progress ((with_reducible apply within_upd) <;> first | with_reducible exact Or.inl rfl | exact Or.inr (hT (by decide)) | skip) | exact Or.inl (hT (by decide)) | exact Or.inr (hT (by simp)) | split | dsimp +zetaDelta only)

theorem State.trxLoad_within {T : List Part} {s0 s : State} (h : State.Within T s0 s) (hT : [.block 1, .block 7] ⊆ T) (n : Nat) : State.Within T s0 (State.trxLoad s n) := by
  unfold State.trxLoad
  repeat' (first | with_reducible assumption | exact part_trans (by decide) hT | intro _ | extract_lets | with_reducible apply within_ite | with_reducible apply State.setF_within | with_reducible apply State.setB_within | fail_if_no_progress ((with_reducible apply within_upd) <;> first | with_reducible exact Or.inl rfl | exact Or.inr (hT (by decide)) | skip) | exact Or.inl (hT (by decide)) | exact Or.inr (hT (by simp)) | split | dsimp +zetaDelta only)

theorem State.laneLoad_within {T : List Part} {s0 s : State} (h : State.Within T s0 s) (hT : [.block 11, .rd] ⊆ T) (l : Nat) : State.Within T s0 (State.laneLoad s l) := by
  unfold State.laneLoad
  repeat' (first | with_reducible assumption | exact part_trans (by decide) hT | intro _ | extract_lets | with_reducible apply within_ite | with_reducible apply State.setF_within | with_reducible apply State.laneTune_within | fail_if_no_progress ((with_reducible apply within_upd) <;> first | with_reducible exact Or.inl rfl | exact Or.inr (hT (by decide)) | skip) | exact Or.inl (hT (by decide)) | exact Or.inr (hT (by simp)) | split | dsimp +zetaDelta only)

theorem State.hoopLoad_within {T : List Part} {s0 s : State} (h : State.Within T s0 s) (hT : [.block 1, .block 14] ⊆ T) (x0 : Nat) : State.Within T s0 (State.hoopLoad s x0) := by
  unfold State.hoopLoad
  repeat' (first | with_reducible assumption | exact part_trans (by decide) hT | intro _ | extract_lets | with_reducible apply within_ite | with_reducible apply State.setF_within | fail_if_no_progress ((with_reducible apply within_upd) <;> first | with_reducible exact Or.inl rfl | exact Or.inr (hT (by decide)) | skip) | exact Or.inl (hT (by decide)) | exact Or.inr (hT (by simp)) | split | dsimp +zetaDelta only)

theorem State.applySections_within {T : List Part} {s0 s : State} (h : State.Within T s0 s) (hT : [.gd, .ms, .pr, .queues, .ro] ⊆ T) (p : Pricking) : State.Within T s0 (State.applySections s p) := by
  unfold State.applySections
  repeat' (first | with_reducible assumption | exact part_trans (by decide) hT | with_reducible intro _ | with_reducible apply within_ite | with_reducible apply State.rolesLoad_within | with_reducible apply State.queuesReset_within | fail_if_no_progress ((with_reducible apply within_upd) <;> first | with_reducible exact Or.inl rfl | exact Or.inr (hT (by decide)) | skip) | exact Or.inl (hT (by decide)) | exact Or.inr (hT (by simp)))

theorem State.loadRegs_within {T : List Part} {s0 s : State} (h : State.Within T s0 s) (hT : [.block 1, .block 11, .block 12, .block 14, .block 15, .block 17, .block 21, .block 6, .block 7, .rd, .tm] ⊆ T) : State.Within T s0 (State.loadRegs s) := by
  unfold State.loadRegs
  repeat' (first | with_reducible assumption | exact part_trans (by decide) hT | with_reducible intro _ | with_reducible apply State.setF_within | with_reducible apply State.each_within | with_reducible apply State.hoopLoad_within | with_reducible apply State.trxLoad_within | with_reducible apply State.laneLoad_within | with_reducible apply State.timeLoad_within | exact Or.inl (hT (by decide)) | exact Or.inr (hT (by simp)) | with_reducible split | with_reducible dsimp +zetaDelta only)

theorem State.settingsLoad_within {T : List Part} {s0 s : State} (h : State.Within T s0 s) (hT : [.block 12, .block 21, .freeIx, .mem, .out, .pa] ⊆ T) : State.Within T s0 (State.settingsLoad s) := by
  unfold State.settingsLoad
  repeat' (first | with_reducible assumption | exact part_trans (by decide) hT | with_reducible intro _ | with_reducible apply within_ite | with_reducible apply State.each_within | with_reducible apply State.setF_within | with_reducible apply State.minimalCells_within | exact Or.inl (hT (by decide)) | exact Or.inr (hT (by simp)))

theorem State.hoopImages_within {T : List Part} {s0 s : State} (h : State.Within T s0 s) (hT : [.block 22, .mem, .notes, .su] ⊆ T) : State.Within T s0 (State.hoopImages s) := by
  unfold State.hoopImages
  repeat' (first | with_reducible assumption | exact part_trans (by decide) hT | with_reducible intro _ | with_reducible apply within_ite | with_reducible apply State.each_within | with_reducible apply State.raise_within | with_reducible apply State.writeBytes_within | fail_if_no_progress ((with_reducible apply within_upd) <;> first | with_reducible exact Or.inl rfl | exact Or.inr (hT (by decide)) | skip) | exact Or.inl (hT (by decide)) | exact Or.inr (hT (by simp)))

theorem State.clockService_within {T : List Part} {s0 s : State} (h : State.Within T s0 s) (hT : [.block 1, .block 2, .clk, .freeIx, .notes] ⊆ T) : State.Within T s0 (State.clockService s) := by
  unfold State.clockService
  repeat' (first | with_reducible assumption | exact part_trans (by decide) hT | intro _ | extract_lets | with_reducible apply within_ite | with_reducible apply State.setDev_within | with_reducible apply State.setClkMode_within | with_reducible apply State.switchTo_within | with_reducible apply State.enterHold_within | with_reducible apply State.recordHeld_within | fail_if_no_progress ((with_reducible apply within_upd) <;> first | with_reducible exact Or.inl rfl | exact Or.inr (hT (by decide)) | skip) | exact Or.inl (hT (by decide)) | exact Or.inr (hT (by simp)) | split | dsimp +zetaDelta only)

theorem State.enterService_within {T : List Part} {s0 s : State} (h : State.Within T s0 s) (hT : [.block 1, .block 11, .block 12, .block 14, .block 15, .block 16, .block 2, .block 20, .block 21, .block 22, .block 6, .block 7, .clk, .cmp, .freeIx, .ky, .mac, .mem, .ms, .notes, .out, .pa, .pl, .queues, .rd, .resp, .ro, .ry, .sl, .su, .tm] ⊆ T) : State.Within T s0 (State.enterService s) := by
  unfold State.enterService
  repeat' (first | with_reducible assumption | exact part_trans (by decide) hT | exact Or.inl (hT (by decide)) | exact Or.inr (hT (by simp)) | with_reducible intro _ | with_reducible apply within_ite | with_reducible apply State.clockService_within | with_reducible apply State.setDev_within | with_reducible apply State.fenceUnit_within | with_reducible apply State.hoopImages_within | with_reducible apply State.startInitRuns_within | with_reducible apply State.settingsLoad_within | with_reducible apply State.timeStart_within | with_reducible apply State.setF_within | with_reducible apply State.each_within | with_reducible apply State.setTrx_within | with_reducible apply State.trxGo_within | fail_if_no_progress ((with_reducible apply within_upd) <;> first | exact Or.inr (hT (by decide)) | with_reducible exact Or.inl rfl | skip))

theorem State.loadPricking_within {T : List Part} {s0 s : State} (h : State.Within T s0 s) (hT : [.block 1, .block 11, .block 12, .block 14, .block 15, .block 16, .block 17, .block 2, .block 20, .block 21, .block 22, .block 6, .block 7, .clk, .cmp, .freeIx, .gd, .ky, .mac, .mem, .ms, .notes, .out, .pa, .pl, .pr, .queues, .rd, .resp, .ro, .ry, .sl, .su, .tm] ⊆ T) (p : Pricking) : State.Within T s0 (State.loadPricking s p) := by
  unfold State.loadPricking
  repeat' (first | with_reducible assumption | exact part_trans (by decide) hT | exact Or.inl (hT (by decide)) | exact Or.inr (hT (by simp)) | with_reducible apply State.auditNote_within | with_reducible apply State.applySections_within | with_reducible apply State.loadRegs_within | with_reducible apply State.enterService_within)

theorem State.stagingClear_within {T : List Part} {s0 s : State} (h : State.Within T s0 s) (hT : [.svc] ⊆ T) : State.Within T s0 (State.stagingClear s) := by
  unfold State.stagingClear
  repeat' (first | with_reducible assumption | exact part_trans (by decide) hT | fail_if_no_progress ((with_reducible apply within_upd) <;> first | with_reducible exact Or.inl rfl | exact Or.inr (hT (by decide)) | skip) | exact Or.inl (hT (by decide)) | exact Or.inr (hT (by simp)))

theorem State.benchFail_within {T : List Part} {s0 s : State} (h : State.Within T s0 s) (hT : [.block 0, .block 2, .notes, .svc] ⊆ T) (f : LoadFault) : State.Within T s0 (State.benchFail s f) := by
  unfold State.benchFail
  repeat' (first | with_reducible assumption | exact part_trans (by decide) hT | with_reducible apply State.startFail_within | fail_if_no_progress ((with_reducible apply within_upd) <;> first | with_reducible exact Or.inl rfl | exact Or.inr (hT (by decide)) | skip) | exact Or.inl (hT (by decide)) | exact Or.inr (hT (by simp)))

theorem execPrickingLoadDone_within {T : List Part} {s0 s : State} (h : State.Within T s0 s) (hT : [.block 0, .block 1, .block 11, .block 12, .block 14, .block 15, .block 16, .block 17, .block 2, .block 20, .block 21, .block 22, .block 6, .block 7, .clk, .cmp, .flash, .freeIx, .gd, .ky, .mac, .mem, .ms, .mtb, .notes, .out, .pa, .pl, .pr, .queues, .rd, .resp, .ro, .ry, .sl, .su, .svc, .tm, .up] ⊆ T) (readFail : Option Nat) (t : Nat) : WithinRes T s0 (execPrickingLoadDone readFail t s) := by
  unfold execPrickingLoadDone
  repeat' (first | with_reducible assumption | exact part_trans (by decide) hT | intro _ | extract_lets | with_reducible apply withinRes_next | with_reducible apply withinRes_ite | with_reducible apply within_ite | with_reducible apply State.advance_within | with_reducible apply State.benchFail_within | with_reducible apply State.loadPricking_within | with_reducible apply State.stagingClear_within | with_reducible apply State.bootFailed_within | fail_if_no_progress ((with_reducible apply within_upd) <;> first | with_reducible exact Or.inl rfl | exact Or.inr (hT (by decide)) | skip) | exact Or.inl (hT (by decide)) | exact Or.inr (hT (by simp)) | split | dsimp +zetaDelta only)

theorem execPrickingLoadTimeout_within {T : List Part} {s0 s : State} (h : State.Within T s0 s) (hT : [.block 0, .block 11, .block 12, .block 14, .block 15, .block 16, .block 2, .block 20, .block 21, .block 22, .block 6, .block 7, .cmp, .flash, .freeIx, .ky, .mac, .mem, .ms, .mtb, .notes, .out, .pa, .pl, .queues, .rd, .resp, .ro, .ry, .sl, .su, .svc, .tm, .up] ⊆ T) (t : Nat) : WithinRes T s0 (execPrickingLoadTimeout t s) := by
  unfold execPrickingLoadTimeout
  repeat' (first | with_reducible assumption | exact part_trans (by decide) hT | intro _ | extract_lets | with_reducible apply withinRes_next | with_reducible apply withinRes_ite | with_reducible apply within_ite | with_reducible apply State.advance_within | with_reducible apply State.stagingClear_within | with_reducible apply State.bootFailed_within | fail_if_no_progress ((with_reducible apply within_upd) <;> first | with_reducible exact Or.inl rfl | exact Or.inr (hT (by decide)) | skip) | exact Or.inl (hT (by decide)) | exact Or.inr (hT (by simp)) | split | dsimp +zetaDelta only)

theorem execBenchCheckDone_within {T : List Part} {s0 s : State} (h : State.Within T s0 s) (hT : [.block 0, .block 2, .mtb, .notes, .svc] ⊆ T) (t : Nat) : WithinRes T s0 (execBenchCheckDone t s) := by
  unfold execBenchCheckDone
  repeat' (first | with_reducible assumption | exact part_trans (by decide) hT | intro _ | extract_lets | with_reducible apply withinRes_next | with_reducible apply withinRes_ite | with_reducible apply within_ite | with_reducible apply State.advance_within | with_reducible apply State.benchFail_within | fail_if_no_progress ((with_reducible apply within_upd) <;> first | with_reducible exact Or.inl rfl | exact Or.inr (hT (by decide)) | skip) | exact Or.inl (hT (by decide)) | exact Or.inr (hT (by simp)) | split | dsimp +zetaDelta only)

theorem State.migrate_within {T : List Part} {s0 s : State} (h : State.Within T s0 s) (hT : [.flash, .freeIx, .ms, .ro, .ry] ⊆ T) : State.Within T s0 (State.migrate s) := by
  unfold State.migrate
  repeat' (first | with_reducible assumption | exact part_trans (by decide) hT | intro _ | extract_lets | with_reducible apply within_ite | with_reducible apply State.storeRoles_within | with_reducible apply State.useFree_within | with_reducible apply State.programPages_within | fail_if_no_progress ((with_reducible apply within_upd) <;> first | with_reducible exact Or.inl rfl | exact Or.inr (hT (by decide)) | skip) | exact Or.inl (hT (by decide)) | exact Or.inr (hT (by simp)) | split | dsimp +zetaDelta only)

theorem State.trialStart_within {T : List Part} {s0 s : State} (h : State.Within T s0 s) (hT : [.block 22, .flash, .freeIx, .ms, .notes, .ro, .ry, .up] ⊆ T) : State.Within T s0 (State.trialStart s) := by
  unfold State.trialStart
  repeat' (first | with_reducible assumption | exact part_trans (by decide) hT | with_reducible intro _ | with_reducible apply within_ite | with_reducible apply State.raise_within | with_reducible apply State.migrate_within | fail_if_no_progress ((with_reducible apply within_upd) <;> first | with_reducible exact Or.inl rfl | exact Or.inr (hT (by decide)) | skip) | exact Or.inl (hT (by decide)) | exact Or.inr (hT (by simp)))

theorem State.firstRec_within {T : List Part} {s0 s : State} (h : State.Within T s0 s) (hT : [.flash, .ms, .up] ⊆ T) : State.Within T s0 (State.firstRec s) := by
  unfold State.firstRec
  repeat' (first | with_reducible assumption | exact part_trans (by decide) hT | exact Or.inl (hT (by decide)) | exact Or.inr (hT (by simp)) | with_reducible intro _ | with_reducible apply within_ite | with_reducible apply State.putRec_within | fail_if_no_progress ((with_reducible apply within_upd) <;> first | exact Or.inr (hT (by decide)) | with_reducible exact Or.inl rfl | skip))

theorem State.keysAgain_within {T : List Part} {s0 s : State} (h : State.Within T s0 s) (hT : [.block 14, .block 17, .block 21, .gd, .mem, .notes, .out, .pa, .pl] ⊆ T) : State.Within T s0 (State.keysAgain s) := by
  unfold State.keysAgain
  repeat' (first | with_reducible assumption | exact part_trans (by decide) hT | intro _ | extract_lets | with_reducible apply within_ite | with_reducible apply State.hashPut_within | refine within1_elim (by with_reducible assumption) (State.hashPut_within ?_ ?_ _) | with_reducible apply State.ryEvent_within | with_reducible apply State.each_within | with_reducible apply within1_fst | fail_if_no_progress ((with_reducible apply within_upd) <;> first | with_reducible exact Or.inl rfl | exact Or.inr (hT (by decide)) | skip) | exact Or.inl (hT (by decide)) | exact Or.inr (hT (by simp)) | split | dsimp +zetaDelta only)

theorem execHashZeroingDone_within {T : List Part} {s0 s : State} (h : State.Within T s0 s) (hT : [.block 14, .block 17, .block 21, .gd, .mem, .notes, .out, .pa, .pl] ⊆ T) : WithinRes T s0 (execHashZeroingDone s) := by
  unfold execHashZeroingDone
  repeat' (first | with_reducible assumption | exact part_trans (by decide) hT | intro _ | extract_lets | with_reducible apply withinRes_next | with_reducible apply withinRes_ite | with_reducible apply within_ite | with_reducible apply State.dropMem_within | with_reducible apply State.keysAgain_within | with_reducible apply State.setF_within | fail_if_no_progress ((with_reducible apply within_upd) <;> first | with_reducible exact Or.inl rfl | exact Or.inr (hT (by decide)) | skip) | exact Or.inl (hT (by decide)) | exact Or.inr (hT (by simp)) | split | dsimp +zetaDelta only)

theorem State.goRunning_within {T : List Part} {s0 s : State} (h : State.Within T s0 s) (hT : [.block 0, .block 11, .block 12, .block 14, .block 16, .block 17, .block 2, .block 21, .block 22, .block 7, .flash, .freeIx, .gd, .ky, .mac, .mem, .ms, .notes, .out, .pa, .pl, .queues, .rd, .ro, .ry, .sl, .su, .tm, .up] ⊆ T) : State.Within T s0 (State.goRunning s) := by
  unfold State.goRunning
  repeat' (first | with_reducible assumption | exact part_trans (by decide) hT | exact Or.inl (hT (by decide)) | exact Or.inr (hT (by simp)) | intro _ | extract_lets | with_reducible apply within_ite | with_reducible apply State.setF_within | with_reducible apply State.raise_within | with_reducible apply State.releaseOutputs_within | with_reducible apply State.each_within | with_reducible apply State.replan_within | with_reducible apply State.trxGo_within | with_reducible apply State.keysAgain_within | with_reducible apply State.trickleReset_within | with_reducible apply State.trialStart_within | with_reducible apply State.firstRec_within | fail_if_no_progress ((with_reducible apply within_upd) <;> first | exact Or.inr (hT (by decide)) | with_reducible exact Or.inl rfl | skip) | split | dsimp +zetaDelta only)

theorem State.readyWrite_within {T : List Part} {s0 s : State} (h : State.Within T s0 s) (hT : [.block 2, .resp] ⊆ T) (mainHoop : Bool) : State.Within T s0 (State.readyWrite s mainHoop) := by
  unfold State.readyWrite
  repeat' (first | with_reducible assumption | exact part_trans (by decide) hT | with_reducible intro _ | with_reducible apply within_ite | with_reducible apply State.answer_within | with_reducible apply State.setF_within | exact Or.inl (hT (by decide)) | exact Or.inr (hT (by simp)))

theorem State.readyCheck_within {T : List Part} {s0 s : State} (h : State.Within T s0 s) (hT : [.block 0, .block 11, .block 12, .block 14, .block 15, .block 16, .block 2, .block 20, .block 21, .block 6, .block 7, .cmp, .freeIx, .ky, .mac, .mem, .ms, .mtb, .notes, .out, .pa, .pl, .queues, .rd, .resp, .ro, .ry, .sl, .su, .tm] ⊆ T) : State.Within T s0 (State.readyCheck s) := by
  unfold State.readyCheck
  repeat' (first | with_reducible assumption | exact part_trans (by decide) hT | intro _ | extract_lets | with_reducible apply within_ite | with_reducible apply State.requestWarm_within | with_reducible apply State.bootCount_within | fail_if_no_progress ((with_reducible apply within_upd) <;> first | with_reducible exact Or.inl rfl | exact Or.inr (hT (by decide)) | skip) | exact Or.inl (hT (by decide)) | exact Or.inr (hT (by simp)) | split | dsimp +zetaDelta only)

theorem execReadyWrite_within {T : List Part} {s0 s : State} (h : State.Within T s0 s) (hT : [.block 2, .resp] ⊆ T) (mainHoop : Bool) : WithinRes T s0 (execReadyWrite mainHoop s) := by
  unfold execReadyWrite
  repeat' (first | with_reducible assumption | exact part_trans (by decide) hT | intro _ | extract_lets | with_reducible apply withinRes_next | with_reducible apply withinRes_ite | with_reducible apply within_ite | with_reducible apply State.readyWrite_within | fail_if_no_progress ((with_reducible apply within_upd) <;> first | with_reducible exact Or.inl rfl | exact Or.inr (hT (by decide)) | skip) | exact Or.inl (hT (by decide)) | exact Or.inr (hT (by simp)) | split | dsimp +zetaDelta only)

theorem execReadyTimeout_within {T : List Part} {s0 s : State} (h : State.Within T s0 s) (hT : [.block 0, .block 11, .block 12, .block 14, .block 15, .block 16, .block 2, .block 20, .block 21, .block 6, .block 7, .cmp, .freeIx, .ky, .mac, .mem, .ms, .mtb, .notes, .out, .pa, .pl, .queues, .rd, .resp, .ro, .ry, .sl, .su, .tm] ⊆ T) (t : Nat) : WithinRes T s0 (execReadyTimeout t s) := by
  unfold execReadyTimeout
  repeat' (first | with_reducible assumption | exact part_trans (by decide) hT | intro _ | extract_lets | with_reducible apply withinRes_next | with_reducible apply withinRes_ite | with_reducible apply within_ite | with_reducible apply State.readyCheck_within | with_reducible apply State.advance_within | fail_if_no_progress ((with_reducible apply within_upd) <;> first | with_reducible exact Or.inl rfl | exact Or.inr (hT (by decide)) | skip) | exact Or.inl (hT (by decide)) | exact Or.inr (hT (by simp)) | split | dsimp +zetaDelta only)

theorem execEnterRunning_within {T : List Part} {s0 s : State} (h : State.Within T s0 s) (hT : [.block 0, .block 11, .block 12, .block 14, .block 16, .block 17, .block 2, .block 21, .block 22, .block 7, .flash, .freeIx, .gd, .ky, .mac, .mem, .ms, .mtb, .notes, .out, .pa, .pl, .queues, .rd, .ro, .ry, .sl, .su, .tm, .up] ⊆ T) (t : Nat) : WithinRes T s0 (execEnterRunning t s) := by
  unfold execEnterRunning
  repeat' (first | with_reducible assumption | exact part_trans (by decide) hT | exact Or.inl (hT (by decide)) | exact Or.inr (hT (by simp)) | intro _ | extract_lets | with_reducible apply withinRes_next | with_reducible apply withinRes_ite | with_reducible apply within_ite | with_reducible apply State.advance_within | with_reducible apply State.holdAt_within | with_reducible apply State.goRunning_within | fail_if_no_progress ((with_reducible apply within_upd) <;> first | exact Or.inr (hT (by decide)) | with_reducible exact Or.inl rfl | skip) | split | dsimp +zetaDelta only)

theorem State.continueWrite_within {T : List Part} {s0 s : State} (h : State.Within T s0 s) (hT : [.block 0, .block 11, .block 12, .block 14, .block 15, .block 16, .block 17, .block 18, .block 2, .block 20, .block 21, .block 22, .block 6, .block 7, .cmp, .flash, .freeIx, .gd, .ky, .mac, .mem, .ms, .mtb, .notes, .out, .pa, .pl, .queues, .rd, .resp, .ro, .ry, .sl, .su, .tm, .up] ⊆ T) : State.Within T s0 (State.continueWrite s) := by
  unfold State.continueWrite
  repeat' (first | with_reducible assumption | exact part_trans (by decide) hT | exact Or.inl (hT (by decide)) | exact Or.inr (hT (by simp)) | with_reducible intro _ | with_reducible apply within_ite | with_reducible apply State.answer_within | with_reducible apply State.setF_within | with_reducible apply State.enterBoot_within | with_reducible apply State.enterLoad_within | with_reducible apply State.goRunning_within | fail_if_no_progress ((with_reducible apply within_upd) <;> first | exact Or.inr (hT (by decide)) | with_reducible exact Or.inl rfl | skip))

theorem execContinueWrite_within {T : List Part} {s0 s : State} (h : State.Within T s0 s) (hT : [.block 0, .block 11, .block 12, .block 14, .block 15, .block 16, .block 17, .block 18, .block 2, .block 20, .block 21, .block 22, .block 6, .block 7, .cmp, .flash, .freeIx, .gd, .ky, .mac, .mem, .ms, .mtb, .notes, .out, .pa, .pl, .queues, .rd, .resp, .ro, .ry, .sl, .su, .tm, .up] ⊆ T) (t : Nat) : WithinRes T s0 (execContinueWrite t s) := by
  unfold execContinueWrite
  repeat' (first | with_reducible assumption | exact part_trans (by decide) hT | intro _ | extract_lets | with_reducible apply withinRes_next | with_reducible apply withinRes_ite | with_reducible apply within_ite | with_reducible apply State.advance_within | with_reducible apply State.continueWrite_within | fail_if_no_progress ((with_reducible apply within_upd) <;> first | with_reducible exact Or.inl rfl | exact Or.inr (hT (by decide)) | skip) | exact Or.inl (hT (by decide)) | exact Or.inr (hT (by simp)) | split | dsimp +zetaDelta only)

theorem State.warmWrite_within {T : List Part} {s0 s : State} (h : State.Within T s0 s) (hT : [.block 0, .block 11, .block 12, .block 14, .block 15, .block 16, .block 20, .block 21, .block 6, .block 7, .cmp, .freeIx, .ky, .mac, .mem, .ms, .mtb, .notes, .out, .pa, .pl, .queues, .rd, .resp, .ro, .ry, .sl, .su, .tm] ⊆ T) : State.Within T s0 (State.warmWrite s) := by
  unfold State.warmWrite
  repeat' (first | with_reducible assumption | exact part_trans (by decide) hT | with_reducible intro _ | with_reducible apply within_ite | with_reducible apply State.refuse_within | with_reducible apply State.raise_within | with_reducible apply State.requestWarm_within | with_reducible apply State.answer_within | exact Or.inl (hT (by decide)) | exact Or.inr (hT (by simp)))

theorem execWarmResetWrite_within {T : List Part} {s0 s : State} (h : State.Within T s0 s) (hT : [.block 0, .block 11, .block 12, .block 14, .block 15, .block 16, .block 20, .block 21, .block 6, .block 7, .cmp, .freeIx, .ky, .mac, .mem, .ms, .mtb, .notes, .out, .pa, .pl, .queues, .rd, .resp, .ro, .ry, .sl, .su, .tm] ⊆ T) (t : Nat) : WithinRes T s0 (execWarmResetWrite t s) := by
  unfold execWarmResetWrite
  repeat' (first | with_reducible assumption | exact part_trans (by decide) hT | intro _ | extract_lets | with_reducible apply withinRes_next | with_reducible apply withinRes_ite | with_reducible apply within_ite | with_reducible apply State.advance_within | with_reducible apply State.warmWrite_within | fail_if_no_progress ((with_reducible apply within_upd) <;> first | with_reducible exact Or.inl rfl | exact Or.inr (hT (by decide)) | skip) | exact Or.inl (hT (by decide)) | exact Or.inr (hT (by simp)) | split | dsimp +zetaDelta only)

theorem execWarmResetProceed_within {T : List Part} {s0 s : State} (h : State.Within T s0 s) (hT : [.block 0, .block 1, .block 11, .block 12, .block 14, .block 15, .block 16, .block 18, .block 2, .block 20, .block 21, .block 22, .block 6, .block 7, .clk, .cmp, .flash, .freeIx, .gd, .ky, .mac, .mem, .ms, .mtb, .notes, .out, .pa, .pl, .pr, .queues, .rd, .regs, .resp, .ro, .ry, .sl, .su, .svc, .tie, .tm, .up, .upl0, .upl1] ⊆ T) (t : Nat) : WithinRes T s0 (execWarmResetProceed t s) := by
  unfold execWarmResetProceed
  repeat' (first | with_reducible assumption | exact part_trans (by decide) hT | intro _ | extract_lets | with_reducible apply withinRes_next | with_reducible apply withinRes_ite | with_reducible apply within_ite | with_reducible apply State.advance_within | with_reducible apply State.each_within | with_reducible apply State.macFlush_within | with_reducible apply State.txFlush_within | with_reducible apply State.enterBoot_within | with_reducible apply State.writeCause_within | with_reducible apply State.resetBlocks_within | fail_if_no_progress ((with_reducible apply within_upd) <;> first | with_reducible exact Or.inl rfl | exact Or.inr (hT (by decide)) | skip) | exact Or.inl (hT (by decide)) | exact Or.inr (hT (by simp)) | split | dsimp +zetaDelta only)

end Sys2Proof.Machine
end

