-- ==== Sys2Proof/Laws/WithinWrite.lean ====
section
/-!
SUPPORT. What the operations of register writes, the management calls, the service port and the tick can do: one lemma per operation, which names the
parts of the state that it may touch and says that it keeps the invariant and the queue. A proof about a step cites these and
unfolds none of the operations.
-/
namespace Sys2Proof.Machine
open Sys2Proof
set_option linter.all false
set_option Elab.async false

theorem State.refuseAt_within {T : List Part} {s0 s : State} (h : State.Within T s0 s) (hT : [.block 0, .block 1, .block 11, .block 12, .block 13, .block 14, .block 15, .block 16, .block 17, .block 18, .block 20, .block 21, .block 22, .block 23, .block 3, .block 6, .block 7, .resp] ⊆ T) (a : Nat) (st : Nat) : State.Within T s0 (State.refuseAt s a st) := by
  unfold State.refuseAt
  repeat' (first | with_reducible assumption | exact part_trans (by decide) hT | with_reducible intro _ | with_reducible apply within_ite | with_reducible apply State.refuse_within | with_reducible apply State.clkRefuse_within | with_reducible apply State.answer_within | with_reducible apply State.queueRefuse_within | exact Or.inl (hT (by decide)) | exact Or.inr (hT (by simp)))

/-- The same of what every one of some actions makes. -/
structure ActsWithin (T : List Part) (s0 : State) (l : List (State → State)) : Prop where
  of : ∀ f ∈ l, ∀ s : State, State.Within T s0 s → State.Within T s0 (f s)

theorem acts_nil {T : List Part} {s0 : State} : ActsWithin T s0 [] := ⟨by intro f hf; cases hf⟩

theorem acts_cons {T : List Part} {s0 : State} {f : State → State} {l : List (State → State)}
    (hf : ∀ s : State, State.Within T s0 s → State.Within T s0 (f s)) (hl : ActsWithin T s0 l) : ActsWithin T s0 (f :: l) := by
  refine ⟨fun g hg => ?_⟩
  rcases List.mem_cons.mp hg with e | e
  · subst e; exact hf
  · exact hl.of g e

theorem acts_append {T : List Part} {s0 : State} {l m : List (State → State)} (hl : ActsWithin T s0 l) (hm : ActsWithin T s0 m) :
    ActsWithin T s0 (l ++ m) := ⟨fun g hg => (List.mem_append.mp hg).elim (hl.of g) (hm.of g)⟩

theorem acts_map {T : List Part} {s0 : State} {α : Type} {f : α → State → State} {l : List α}
    (hf : ∀ a, ∀ s : State, State.Within T s0 s → State.Within T s0 (f a s)) : ActsWithin T s0 (l.map f) := by
  refine ⟨fun g hg => ?_⟩
  obtain ⟨a, _, e⟩ := List.mem_map.mp hg
  subst e; exact hf a

theorem State.runActions_within {T : List Part} {s0 s : State} (h : State.Within T s0 s) (l : List (State → State))
    (hl : ActsWithin T s0 l) : State.Within T s0 (s.runActions l) := by
  induction l generalizing s with
  | nil => exact h
  | cons f l ih =>
    unfold State.runActions
    split
    · exact ih (hl.of f (by simp) s h) ⟨fun g hg => hl.of g (by simp [hg])⟩
    · exact h

theorem onBit_within {T : List Part} {s0 : State} (w : Word) (f : Field) (g : State → State)
    (hg : ∀ s : State, State.Within T s0 s → State.Within T s0 (g s)) : ActsWithin T s0 (onBit w f g) := by
  unfold onBit
  split
  · exact acts_cons hg acts_nil
  · exact acts_nil

theorem State.actions_within {T : List Part} {s0 s : State} (h : State.Within T s0 s) (hT : [.block 0, .block 1, .block 11, .block 12, .block 13, .block 14, .block 15, .block 16, .block 17, .block 18, .block 20, .block 21, .block 22, .block 23, .block 3, .block 6, .block 7, .resp] ⊆ T) (a : Nat) (l : List (State → State))  (hl : ActsWithin T s0 l) : State.Within T s0 (State.actions s a l) := by
  unfold State.actions
  repeat' (first | with_reducible assumption | exact part_trans (by decide) hT | with_reducible intro _ | with_reducible apply within_ite | with_reducible apply State.answer_within | with_reducible apply State.runActions_within | with_reducible apply State.refuseAt_within | with_reducible apply hl | with_reducible apply acts_nil | with_reducible apply acts_cons | with_reducible apply acts_append | with_reducible apply acts_map | exact Or.inl (hT (by decide)) | exact Or.inr (hT (by simp)))

theorem State.putRw_within {T : List Part} {s0 s : State} (h : State.Within T s0 s) (hT : [.regs, .resp] ⊆ T) (a : Nat) (w : Word) : State.Within T s0 (State.putRw s a w) := by
  unfold State.putRw
  repeat' (first | with_reducible assumption | exact part_trans (by decide) hT | with_reducible apply State.setReg_within | with_reducible apply State.answer_within | exact Or.inl (hT (by decide)) | exact Or.inr (hT (by simp)))

theorem State.gateBit_within {T : List Part} {s0 s : State} (h : State.Within T s0 s) (hT : [.block 1, .block 16, .ms, .resp] ⊆ T) (w : Word) (u : Nat) : State.Within T s0 (State.gateBit s w u) := by
  unfold State.gateBit
  repeat' (first | with_reducible assumption | exact part_trans (by decide) hT | with_reducible intro _ | with_reducible apply within_ite | with_reducible apply State.gateRequest_within | with_reducible apply State.ungate_within | exact Or.inl (hT (by decide)) | exact Or.inr (hT (by simp)))

theorem State.gateWrite_within {T : List Part} {s0 s : State} (h : State.Within T s0 s) (hT : [.block 1, .block 16, .ms, .resp] ⊆ T) (w : Word) : State.Within T s0 (State.gateWrite s w) := by
  unfold State.gateWrite
  repeat' (first | with_reducible assumption | exact part_trans (by decide) hT | with_reducible intro _ | with_reducible apply within_ite | with_reducible apply State.answer_within | with_reducible apply State.runActions_within | with_reducible apply State.gateBit_within | with_reducible apply State.setReg_within | with_reducible apply acts_nil | with_reducible apply acts_cons | with_reducible apply acts_append | with_reducible apply acts_map | exact Or.inl (hT (by decide)) | exact Or.inr (hT (by simp)))

theorem State.altSeed_within {T : List Part} {s0 s : State} (h : State.Within T s0 s) (hT : [.block 17, .gd, .resp] ⊆ T) (w : Word) : State.Within T s0 (State.altSeed s w) := by
  unfold State.altSeed
  repeat' (first | with_reducible assumption | exact part_trans (by decide) hT | with_reducible intro _ | with_reducible apply within_ite | with_reducible apply State.refuse_within | with_reducible apply State.answer_within | fail_if_no_progress ((with_reducible apply within_upd) <;> first | with_reducible exact Or.inl rfl | exact Or.inr (hT (by decide)) | skip) | exact Or.inl (hT (by decide)) | exact Or.inr (hT (by simp)))

theorem State.femWrite_within {T : List Part} {s0 s : State} (h : State.Within T s0 s) (hT : [.block 7, .out, .regs, .resp] ⊆ T) (n : Nat) (w : Word) : State.Within T s0 (State.femWrite s n w) := by
  unfold State.femWrite
  repeat' (first | with_reducible assumption | exact part_trans (by decide) hT | intro _ | extract_lets | with_reducible apply within_ite | with_reducible apply State.putRw_within | with_reducible apply State.emit_within | fail_if_no_progress ((with_reducible apply within_upd) <;> first | with_reducible exact Or.inl rfl | exact Or.inr (hT (by decide)) | skip) | exact Or.inl (hT (by decide)) | exact Or.inr (hT (by simp)) | split | dsimp +zetaDelta only)

theorem State.femTimes_within {T : List Part} {s0 s : State} (h : State.Within T s0 s) (hT : [.rd, .regs, .resp] ⊆ T) (n : Nat) (a : Nat) (w : Word) : State.Within T s0 (State.femTimes s n a w) := by
  unfold State.femTimes
  repeat' (first | with_reducible assumption | exact part_trans (by decide) hT | intro _ | extract_lets | with_reducible apply within_ite | with_reducible apply State.answer_within | with_reducible apply State.leadWritten_within | with_reducible apply State.putRw_within | fail_if_no_progress ((with_reducible apply within_upd) <;> first | with_reducible exact Or.inl rfl | exact Or.inr (hT (by decide)) | skip) | exact Or.inl (hT (by decide)) | exact Or.inr (hT (by simp)) | split | dsimp +zetaDelta only)

theorem State.queueCmd_within {T : List Part} {s0 s : State} (h : State.Within T s0 s) (hT : [.block 15, .ms, .notes, .queues, .resp] ⊆ T) (w : Word) : State.Within T s0 (State.queueCmd s w) := by
  unfold State.queueCmd
  repeat' (first | with_reducible assumption | exact part_trans (by decide) hT | with_reducible intro _ | with_reducible apply within_ite | with_reducible apply State.queueRefuse_within | with_reducible apply State.dropRemainder_within | with_reducible apply State.queueClear_within | exact Or.inl (hT (by decide)) | exact Or.inr (hT (by simp)))

theorem State.actionRest_within {T : List Part} {s0 s : State} (h : State.Within T s0 s) (hT : [.block 0, .block 1, .block 11, .block 12, .block 13, .block 14, .block 15, .block 16, .block 17, .block 18, .block 19, .block 20, .block 21, .block 22, .block 23, .block 3, .block 6, .block 7, .cmp, .flash, .freeIx, .gd, .ky, .mac, .mem, .ms, .mtb, .notes, .out, .pa, .pl, .queues, .rd, .regs, .resp, .ro, .ry, .sl, .su, .tm, .up] ⊆ T) (wr : Writer) (a : Nat) (first : Nat) (w : Word) : WithinOS T s0 (State.actionRest s wr a first w) := by
  unfold State.actionRest
  repeat' (first | with_reducible assumption | exact part_trans (by decide) hT | with_reducible intro _ | with_reducible apply within_ite | with_reducible apply State.actions_within | with_reducible apply State.putRw_within | with_reducible apply State.sleepCtrl_within | with_reducible apply State.answer_within | with_reducible apply State.writeEnable_within | with_reducible apply State.sleepClear_within | with_reducible apply State.linkWrite_within | with_reducible apply State.pillowClear_within | with_reducible apply State.writeTemplate_within | with_reducible apply State.pillowRefuse_within | with_reducible apply State.queueRefuse_within | with_reducible apply State.writeWm_within | with_reducible apply State.queueCmd_within | with_reducible apply State.memBufReturn_within | with_reducible apply State.nandCmd_within | with_reducible apply State.memClear_within | with_reducible apply State.groundCmd_within | with_reducible apply State.altSeed_within | with_reducible apply State.keyCmd_within | with_reducible apply State.tamperCfg_within | with_reducible apply State.tamperLogClear_within | with_reducible apply State.roleCkpt_within | with_reducible apply State.pairResync_within | with_reducible apply State.pairResign_within | with_reducible apply State.upReject_within | with_reducible apply State.upConfirm_within | with_reducible apply withinOS_some | with_reducible apply withinOS_none | with_reducible apply withinOS_ite | with_reducible apply onBit_within | with_reducible apply acts_nil | with_reducible apply acts_cons | with_reducible apply acts_append | with_reducible apply acts_map | exact Or.inl (hT (by decide)) | exact Or.inr (hT (by simp)) | with_reducible split)

theorem State.actionOf_within {T : List Part} {s0 s : State} (h : State.Within T s0 s) (hT : [.block 0, .block 1, .block 11, .block 12, .block 13, .block 14, .block 15, .block 16, .block 17, .block 18, .block 19, .block 2, .block 20, .block 21, .block 22, .block 23, .block 3, .block 5, .block 6, .block 7, .clk, .cmp, .flash, .freeIx, .gd, .ky, .mac, .mem, .ms, .mtb, .notes, .out, .pa, .pl, .pr, .queues, .rd, .regs, .resp, .ro, .ry, .sl, .su, .svc, .tie, .tm, .up, .upl0, .upl1] ⊆ T) (wr : Writer) (a : Nat) (first : Nat) (c : Nat) (w : Word) : WithinOS T s0 (State.actionOf s wr a first c w) := by
  unfold State.actionOf
  repeat' (first | with_reducible assumption | exact part_trans (by decide) hT | with_reducible intro _ | with_reducible apply within_ite | with_reducible apply State.actions_within | with_reducible apply State.putRw_within | with_reducible apply State.forceWrite_within | with_reducible apply State.gateWrite_within | with_reducible apply State.answer_within | with_reducible apply State.clockDecide_within | with_reducible apply State.readyCheck_within | with_reducible apply State.gpioDrive_within | with_reducible apply State.restartGo_within | with_reducible apply State.continueWrite_within | with_reducible apply State.readyWrite_within | with_reducible apply State.warmWrite_within | with_reducible apply State.adminWrite_within | with_reducible apply State.uplRetrain_within | with_reducible apply State.tieEnable_within | with_reducible apply State.tieRetrain_within | with_reducible apply State.timeSnap_within | with_reducible apply State.timeAccept_within | with_reducible apply State.timeSelDom_within | with_reducible apply State.trxCmd_within | with_reducible apply State.femWrite_within | with_reducible apply State.femTimes_within | with_reducible apply State.laneClear_within | with_reducible apply State.laneChanWrite_within | with_reducible apply State.macClear_within | with_reducible apply State.panEnable_within | with_reducible apply State.sfCfgWrite_within | with_reducible apply State.actionRest_within | refine withinOS_elim (by with_reducible assumption) (State.actionRest_within ?_ ?_ _ _ _ _) | with_reducible apply withinOS_some | with_reducible apply withinOS_none | with_reducible apply withinOS_ite | with_reducible apply onBit_within | with_reducible apply acts_nil | with_reducible apply acts_cons | with_reducible apply acts_append | with_reducible apply acts_map | exact Or.inl (hT (by decide)) | exact Or.inr (hT (by simp)) | with_reducible split)

theorem State.refuseAddr_within {T : List Part} {s0 s : State} (h : State.Within T s0 s) (hT : [.block 16, .resp] ⊆ T) (st : Nat) : State.Within T s0 (State.refuseAddr s st) := by
  unfold State.refuseAddr
  repeat' (first | with_reducible assumption | exact part_trans (by decide) hT | with_reducible intro _ | with_reducible apply within_ite | with_reducible apply State.answer_within | with_reducible apply State.memRefuse_within | exact Or.inl (hT (by decide)) | exact Or.inr (hT (by simp)))

theorem State.writeBody_within {T : List Part} {s0 s : State} (h : State.Within T s0 s) (hT : [.block 0, .block 1, .block 11, .block 12, .block 13, .block 14, .block 15, .block 16, .block 17, .block 18, .block 19, .block 2, .block 20, .block 21, .block 22, .block 23, .block 3, .block 5, .block 6, .block 7, .clk, .cmp, .flash, .freeIx, .gd, .ky, .mac, .mem, .ms, .mtb, .notes, .out, .pa, .pl, .pr, .queues, .rd, .regs, .resp, .ro, .ry, .sl, .su, .svc, .tie, .tm, .up, .upl0, .upl1] ⊆ T) (wr : Writer) (a : Nat) (w : Word) : State.Within T s0 (State.writeBody s wr a w) := by
  unfold State.writeBody
  repeat' (first | with_reducible assumption | exact part_trans (by decide) hT | with_reducible intro _ | with_reducible apply within_ite | with_reducible apply State.refuseAddr_within | with_reducible apply State.answer_within | with_reducible apply State.refuseAt_within | with_reducible refine withinOS_elim (by assumption) (State.actionOf_within ?_ ?_ _ _ _ _ _) | with_reducible apply State.writeEnable_within | with_reducible apply State.clearBits_within | with_reducible apply State.putRw_within | exact Or.inl (hT (by decide)) | exact Or.inr (hT (by simp)) | with_reducible split)

theorem State.writeRecorded_within {T : List Part} {s0 s : State} (h : State.Within T s0 s) (hT : [.block 0, .block 1, .block 11, .block 12, .block 13, .block 14, .block 15, .block 16, .block 17, .block 18, .block 19, .block 2, .block 20, .block 21, .block 22, .block 23, .block 3, .block 5, .block 6, .block 7, .clk, .cmp, .flash, .freeIx, .gd, .ky, .mac, .mem, .ms, .mtb, .notes, .out, .pa, .pl, .pr, .queues, .rd, .regs, .resp, .ro, .ry, .sl, .su, .svc, .tie, .tm, .up, .upl0, .upl1] ⊆ T) (wr : Writer) (a : Nat) (w : Word) : State.Within T s0 (State.writeRecorded s wr a w) := by
  unfold State.writeRecorded
  repeat' (first | with_reducible assumption | exact part_trans (by decide) hT | with_reducible intro _ | with_reducible apply within_ite | with_reducible apply State.writeBody_within | with_reducible apply State.auditAppend_within | with_reducible apply State.checkpointDue_within | with_reducible apply State.raise_within | with_reducible apply State.refuseAt_within | exact Or.inl (hT (by decide)) | exact Or.inr (hT (by simp)))

theorem State.firmwareWrite_within {T : List Part} {s0 s : State} (h : State.Within T s0 s) (hT : [.block 0, .block 1, .block 11, .block 12, .block 13, .block 14, .block 15, .block 16, .block 17, .block 18, .block 19, .block 2, .block 20, .block 21, .block 22, .block 23, .block 3, .block 5, .block 6, .block 7, .clk, .cmp, .flash, .freeIx, .gd, .ky, .mac, .mem, .ms, .mtb, .notes, .out, .pa, .pl, .pr, .queues, .rd, .regs, .resp, .ro, .ry, .sl, .su, .svc, .tie, .tm, .up, .upl0, .upl1] ⊆ T) (b : Nat) (a : Nat) (w : Word) (narrow : Bool) (t : Nat) : State.Within T s0 (State.firmwareWrite s b a w narrow t) := by
  unfold State.firmwareWrite
  repeat' (first | with_reducible assumption | exact part_trans (by decide) hT | intro _ | extract_lets | with_reducible apply within_ite | with_reducible apply State.advance_within | with_reducible apply State.accessFault_within | with_reducible apply State.answer_within | with_reducible apply State.writeRecorded_within | fail_if_no_progress ((with_reducible apply within_upd) <;> first | with_reducible exact Or.inl rfl | exact Or.inr (hT (by decide)) | skip) | exact Or.inl (hT (by decide)) | exact Or.inr (hT (by simp)) | split | dsimp +zetaDelta only)

theorem execRegisterWrite_within {T : List Part} {s0 s : State} (h : State.Within T s0 s) (hT : [.block 0, .block 1, .block 11, .block 12, .block 13, .block 14, .block 15, .block 16, .block 17, .block 18, .block 19, .block 2, .block 20, .block 21, .block 22, .block 23, .block 3, .block 5, .block 6, .block 7, .clk, .cmp, .flash, .freeIx, .gd, .ky, .mac, .mem, .ms, .mtb, .notes, .out, .pa, .pl, .pr, .queues, .rd, .regs, .resp, .ro, .ry, .sl, .su, .svc, .tie, .tm, .up, .upl0, .upl1] ⊆ T) (bob : Fin 16) (addr : Word) (value : Word) (narrow : Bool) (t : Nat) : WithinRes T s0 (execRegisterWrite bob addr value narrow t s) := by
  unfold execRegisterWrite
  repeat' (first | with_reducible assumption | exact part_trans (by decide) hT | intro _ | extract_lets | with_reducible apply withinRes_next | with_reducible apply withinRes_ite | with_reducible apply within_ite | with_reducible apply State.firmwareWrite_within | fail_if_no_progress ((with_reducible apply within_upd) <;> first | with_reducible exact Or.inl rfl | exact Or.inr (hT (by decide)) | skip) | exact Or.inl (hT (by decide)) | exact Or.inr (hT (by simp)) | split | dsimp +zetaDelta only)

theorem execEventClear_within {T : List Part} {s0 s : State} (h : State.Within T s0 s) (hT : [.block 0, .block 1, .block 11, .block 12, .block 13, .block 14, .block 15, .block 16, .block 17, .block 18, .block 19, .block 2, .block 20, .block 21, .block 22, .block 23, .block 3, .block 5, .block 6, .block 7, .clk, .cmp, .flash, .freeIx, .gd, .ky, .mac, .mem, .ms, .mtb, .notes, .out, .pa, .pl, .pr, .queues, .rd, .regs, .resp, .ro, .ry, .sl, .su, .svc, .tie, .tm, .up, .upl0, .upl1] ⊆ T) (bob : Fin 16) (addr : Word) (value : Word) (t : Nat) : WithinRes T s0 (execEventClear bob addr value t s) := by
  unfold execEventClear
  repeat' (first | with_reducible assumption | exact part_trans (by decide) hT | intro _ | extract_lets | with_reducible apply withinRes_next | with_reducible apply withinRes_ite | with_reducible apply within_ite | with_reducible apply State.firmwareWrite_within | fail_if_no_progress ((with_reducible apply within_upd) <;> first | with_reducible exact Or.inl rfl | exact Or.inr (hT (by decide)) | skip) | exact Or.inl (hT (by decide)) | exact Or.inr (hT (by simp)) | split | dsimp +zetaDelta only)

theorem execEventEnableWrite_within {T : List Part} {s0 s : State} (h : State.Within T s0 s) (hT : [.block 0, .block 1, .block 11, .block 12, .block 13, .block 14, .block 15, .block 16, .block 17, .block 18, .block 19, .block 2, .block 20, .block 21, .block 22, .block 23, .block 3, .block 5, .block 6, .block 7, .clk, .cmp, .flash, .freeIx, .gd, .ky, .mac, .mem, .ms, .mtb, .notes, .out, .pa, .pl, .pr, .queues, .rd, .regs, .resp, .ro, .ry, .sl, .su, .svc, .tie, .tm, .up, .upl0, .upl1] ⊆ T) (bob : Fin 16) (addr : Word) (value : Word) (t : Nat) : WithinRes T s0 (execEventEnableWrite bob addr value t s) := by
  unfold execEventEnableWrite
  repeat' (first | with_reducible assumption | exact part_trans (by decide) hT | intro _ | extract_lets | with_reducible apply withinRes_next | with_reducible apply withinRes_ite | with_reducible apply within_ite | with_reducible apply State.firmwareWrite_within | fail_if_no_progress ((with_reducible apply within_upd) <;> first | with_reducible exact Or.inl rfl | exact Or.inr (hT (by decide)) | skip) | exact Or.inl (hT (by decide)) | exact Or.inr (hT (by simp)) | split | dsimp +zetaDelta only)

theorem State.readWord_within {T : List Part} {s0 s : State} (h : State.Within T s0 s) (hT : [.block 0, .block 1, .block 11, .block 12, .block 13, .block 14, .block 15, .block 16, .block 17, .block 18, .block 20, .block 21, .block 22, .block 23, .block 3, .block 6, .block 7, .freeIx, .ms, .resp] ⊆ T) (n : Nat) (a : Nat) : Within1 T s0 (State.readWord s n a) := by
  unfold State.readWord
  repeat' (first | with_reducible assumption | exact part_trans (by decide) hT | with_reducible intro _ | with_reducible apply within1_ite | with_reducible apply State.refuseAddr_within | with_reducible apply State.useFree_within | with_reducible apply State.answer_within | with_reducible apply State.refuseAt_within | with_reducible refine within2_elim (by assumption) (State.pktTake_within ?_ ?_) | with_reducible apply within2_snd | with_reducible apply within1_ite | with_reducible apply within2_ite | with_reducible apply withinO_some | with_reducible apply withinO_none | with_reducible apply withinO_ite | with_reducible split | with_reducible apply within1_mk | with_reducible apply within2_mk | exact Or.inl (hT (by decide)) | exact Or.inr (hT (by simp)))

theorem State.readWords_within {T : List Part} {s0 s : State} (h : State.Within T s0 s) (hT : [.block 0, .block 1, .block 11, .block 12, .block 13, .block 14, .block 15, .block 16, .block 17, .block 18, .block 20, .block 21, .block 22, .block 23, .block 3, .block 6, .block 7, .freeIx, .ms, .resp] ⊆ T) (n : Nat) (x0 : Nat) (x1 : Nat) : Within1 T s0 (State.readWords s n x0 x1) := by
  induction x1 generalizing s n x0 with
  | zero =>
    unfold State.readWords
    repeat' (first | with_reducible assumption | exact part_trans (by decide) hT | intro _ | extract_lets | with_reducible apply within1_ite | with_reducible apply within_ite | with_reducible apply State.readWord_within | refine within1_elim (by with_reducible assumption) (State.readWord_within ?_ ?_ _ _) | with_reducible apply within1_fst | with_reducible apply within1_ite | with_reducible apply within2_ite | with_reducible apply withinO_some | with_reducible apply withinO_none | with_reducible apply withinO_ite | with_reducible apply within1_fst | fail_if_no_progress ((with_reducible apply within_upd) <;> first | with_reducible exact Or.inl rfl | exact Or.inr (hT (by decide)) | skip) | split | dsimp +zetaDelta only | with_reducible apply within1_mk | with_reducible apply within2_mk | exact Or.inl (hT (by decide)) | exact Or.inr (hT (by simp)))
  | succ k ih =>
    unfold State.readWords
    repeat' (first | with_reducible assumption | exact part_trans (by decide) hT | intro _ | extract_lets | with_reducible apply within1_ite | with_reducible apply within_ite | with_reducible apply State.readWord_within | refine within1_elim (by with_reducible assumption) (State.readWord_within ?_ ?_ _ _) | with_reducible apply within1_fst | with_reducible apply within1_ite | with_reducible apply within2_ite | with_reducible apply withinO_some | with_reducible apply withinO_none | with_reducible apply withinO_ite | with_reducible apply ih | with_reducible apply within1_fst | fail_if_no_progress ((with_reducible apply within_upd) <;> first | with_reducible exact Or.inl rfl | exact Or.inr (hT (by decide)) | skip) | split | dsimp +zetaDelta only | with_reducible apply within1_mk | with_reducible apply within2_mk | exact Or.inl (hT (by decide)) | exact Or.inr (hT (by simp)))

theorem execCmpRegRead_within {T : List Part} {s0 s : State} (h : State.Within T s0 s) (hT : [.block 0, .block 1, .block 11, .block 12, .block 13, .block 14, .block 15, .block 16, .block 17, .block 18, .block 20, .block 21, .block 22, .block 23, .block 3, .block 6, .block 7, .cmp, .freeIx, .ms, .mtb, .notes, .out, .resp, .ro, .svc] ⊆ T) (session : Fin 8) (mid : Fin 65536) (tunnel : Bool) (form : ReqForm) (addr : Word) (count : Nat) (t : Nat) : WithinRes T s0 (execCmpRegRead session mid tunnel form addr count t s) := by
  unfold execCmpRegRead
  repeat' (first | with_reducible assumption | exact part_trans (by decide) hT | intro _ | extract_lets | with_reducible apply withinRes_next | with_reducible apply withinRes_ite | with_reducible apply within_ite | with_reducible apply State.cmpRequest_within | with_reducible apply State.cmpAnswer_within | with_reducible apply State.readWords_within | refine within1_elim (by with_reducible assumption) (State.readWords_within ?_ ?_ _ _ _) | with_reducible apply State.emit_within | with_reducible apply State.answer_within | with_reducible apply within1_fst | fail_if_no_progress ((with_reducible apply within_upd) <;> first | with_reducible exact Or.inl rfl | exact Or.inr (hT (by decide)) | skip) | exact Or.inl (hT (by decide)) | exact Or.inr (hT (by simp)) | split | dsimp +zetaDelta only)

theorem State.writeWords_within {T : List Part} {s0 s : State} (h : State.Within T s0 s) (hT : [.block 0, .block 1, .block 11, .block 12, .block 13, .block 14, .block 15, .block 16, .block 17, .block 18, .block 19, .block 2, .block 20, .block 21, .block 22, .block 23, .block 3, .block 5, .block 6, .block 7, .clk, .cmp, .flash, .freeIx, .gd, .ky, .mac, .mem, .ms, .mtb, .notes, .out, .pa, .pl, .pr, .queues, .rd, .regs, .resp, .ro, .ry, .sl, .su, .svc, .tie, .tm, .up, .upl0, .upl1] ⊆ T) (n : Nat) (x0 : Nat) (x1 : Nat) (x2 : List Word) : Within1 T s0 (State.writeWords s n x0 x1 x2) := by
  induction x2 generalizing s n x0 x1 with
  | nil =>
    unfold State.writeWords
    repeat' (first | with_reducible assumption | exact part_trans (by decide) hT | intro _ | extract_lets | with_reducible apply within1_ite | with_reducible apply within_ite | with_reducible apply State.answer_within | with_reducible apply State.writeRecorded_within | with_reducible apply within1_ite | with_reducible apply within2_ite | with_reducible apply withinO_some | with_reducible apply withinO_none | with_reducible apply withinO_ite | with_reducible apply within1_fst | fail_if_no_progress ((with_reducible apply within_upd) <;> first | with_reducible exact Or.inl rfl | exact Or.inr (hT (by decide)) | skip) | split | dsimp +zetaDelta only | with_reducible apply within1_mk | with_reducible apply within2_mk | exact Or.inl (hT (by decide)) | exact Or.inr (hT (by simp)))
  | cons y l ih =>
    unfold State.writeWords
    repeat' (first | with_reducible assumption | exact part_trans (by decide) hT | intro _ | extract_lets | with_reducible apply within1_ite | with_reducible apply within_ite | with_reducible apply State.answer_within | with_reducible apply State.writeRecorded_within | with_reducible apply within1_ite | with_reducible apply within2_ite | with_reducible apply withinO_some | with_reducible apply withinO_none | with_reducible apply withinO_ite | with_reducible apply ih | with_reducible apply within1_fst | fail_if_no_progress ((with_reducible apply within_upd) <;> first | with_reducible exact Or.inl rfl | exact Or.inr (hT (by decide)) | skip) | split | dsimp +zetaDelta only | with_reducible apply within1_mk | with_reducible apply within2_mk | exact Or.inl (hT (by decide)) | exact Or.inr (hT (by simp)))

theorem execCmpRegWrite_within {T : List Part} {s0 s : State} (h : State.Within T s0 s) (hT : [.block 0, .block 1, .block 11, .block 12, .block 13, .block 14, .block 15, .block 16, .block 17, .block 18, .block 19, .block 2, .block 20, .block 21, .block 22, .block 23, .block 3, .block 5, .block 6, .block 7, .clk, .cmp, .flash, .freeIx, .gd, .ky, .mac, .mem, .ms, .mtb, .notes, .out, .pa, .pl, .pr, .queues, .rd, .regs, .resp, .ro, .ry, .sl, .su, .svc, .tie, .tm, .up, .upl0, .upl1] ⊆ T) (session : Fin 8) (mid : Fin 65536) (tunnel : Bool) (form : ReqForm) (addr : Word) (words : List Word) (t : Nat) : WithinRes T s0 (execCmpRegWrite session mid tunnel form addr words t s) := by
  unfold execCmpRegWrite
  repeat' (first | with_reducible assumption | exact part_trans (by decide) hT | intro _ | extract_lets | with_reducible apply withinRes_next | with_reducible apply withinRes_ite | with_reducible apply within_ite | with_reducible apply State.cmpRequest_within | with_reducible apply State.cmpAnswer_within | with_reducible apply State.writeWords_within | refine within1_elim (by with_reducible assumption) (State.writeWords_within ?_ ?_ _ _ _ _) | with_reducible apply State.emit_within | with_reducible apply within1_fst | fail_if_no_progress ((with_reducible apply within_upd) <;> first | with_reducible exact Or.inl rfl | exact Or.inr (hT (by decide)) | skip) | exact Or.inl (hT (by decide)) | exact Or.inr (hT (by simp)) | split | dsimp +zetaDelta only)

theorem execCmpServiceCall_within {T : List Part} {s0 s : State} (h : State.Within T s0 s) (hT : [.block 20, .block 23, .cmp, .freeIx, .ky, .mtb, .notes, .out, .resp, .ro, .svc] ⊆ T) (session : Fin 8) (mid : Fin 65536) (tunnel : Bool) (form : ReqForm) (svc : Fin 11) (op : Fin 256) (key : KeyBlk) (t : Nat) : WithinRes T s0 (execCmpServiceCall session mid tunnel form svc op key t s) := by
  unfold execCmpServiceCall
  repeat' (first | with_reducible assumption | exact part_trans (by decide) hT | intro _ | extract_lets | with_reducible apply withinRes_next | with_reducible apply withinRes_ite | with_reducible apply within_ite | with_reducible apply State.cmpRequest_within | with_reducible apply State.cmpAnswer_within | with_reducible apply State.auditNote_within | with_reducible apply State.finishCall_within | with_reducible apply State.emit_within | with_reducible apply State.answer_within | fail_if_no_progress ((with_reducible apply within_upd) <;> first | with_reducible exact Or.inl rfl | exact Or.inr (hT (by decide)) | skip) | exact Or.inl (hT (by decide)) | exact Or.inr (hT (by simp)) | split | dsimp +zetaDelta only)

theorem execCmpResultGet_within {T : List Part} {s0 s : State} (h : State.Within T s0 s) (hT : [.block 23, .cmp, .mtb, .notes, .out, .resp, .ro, .svc] ⊆ T) (session : Fin 8) (mid : Fin 65536) (tunnel : Bool) (form : ReqForm) (ticket : Word) (t : Nat) : WithinRes T s0 (execCmpResultGet session mid tunnel form ticket t s) := by
  unfold execCmpResultGet
  repeat' (first | with_reducible assumption | exact part_trans (by decide) hT | intro _ | extract_lets | with_reducible apply withinRes_next | with_reducible apply withinRes_ite | with_reducible apply within_ite | with_reducible apply State.cmpRequest_within | with_reducible apply State.cmpTell_within | with_reducible apply State.emit_within | with_reducible apply State.answer_within | fail_if_no_progress ((with_reducible apply within_upd) <;> first | with_reducible exact Or.inl rfl | exact Or.inr (hT (by decide)) | skip) | exact Or.inl (hT (by decide)) | exact Or.inr (hT (by simp)) | split | dsimp +zetaDelta only)

theorem execCmpResultDelete_within {T : List Part} {s0 s : State} (h : State.Within T s0 s) (hT : [.block 23, .cmp, .mtb, .notes, .out, .resp, .ro, .svc] ⊆ T) (session : Fin 8) (mid : Fin 65536) (tunnel : Bool) (form : ReqForm) (ticket : Word) (t : Nat) : WithinRes T s0 (execCmpResultDelete session mid tunnel form ticket t s) := by
  unfold execCmpResultDelete
  repeat' (first | with_reducible assumption | exact part_trans (by decide) hT | intro _ | extract_lets | with_reducible apply withinRes_next | with_reducible apply withinRes_ite | with_reducible apply within_ite | with_reducible apply State.cmpRequest_within | with_reducible apply State.cmpAnswer_within | fail_if_no_progress ((with_reducible apply within_upd) <;> first | with_reducible exact Or.inl rfl | exact Or.inr (hT (by decide)) | skip) | exact Or.inl (hT (by decide)) | exact Or.inr (hT (by simp)) | split | dsimp +zetaDelta only)

theorem execCmpEventObserve_within {T : List Part} {s0 s : State} (h : State.Within T s0 s) (hT : [.block 23, .cmp, .mtb, .notes, .out, .resp, .ro, .svc] ⊆ T) (session : Fin 8) (mid : Fin 65536) (tunnel : Bool) (form : ReqForm) (t : Nat) : WithinRes T s0 (execCmpEventObserve session mid tunnel form t s) := by
  unfold execCmpEventObserve
  repeat' (first | with_reducible assumption | exact part_trans (by decide) hT | intro _ | extract_lets | with_reducible apply withinRes_next | with_reducible apply withinRes_ite | with_reducible apply within_ite | with_reducible apply State.cmpRequest_within | with_reducible apply State.emit_within | with_reducible apply State.answer_within | with_reducible apply State.setSession_within | fail_if_no_progress ((with_reducible apply within_upd) <;> first | with_reducible exact Or.inl rfl | exact Or.inr (hT (by decide)) | skip) | exact Or.inl (hT (by decide)) | exact Or.inr (hT (by simp)) | split | dsimp +zetaDelta only)

theorem State.noteOut_within {T : List Part} {s0 s : State} (h : State.Within T s0 s) (hT : [.notes, .ro] ⊆ T) : State.Within T s0 (State.noteOut s) := by
  unfold State.noteOut
  repeat' (first | with_reducible assumption | exact part_trans (by decide) hT | fail_if_no_progress ((with_reducible apply within_upd) <;> first | with_reducible exact Or.inl rfl | exact Or.inr (hT (by decide)) | skip) | exact Or.inl (hT (by decide)) | exact Or.inr (hT (by simp)) | with_reducible split)

theorem State.notifySend_within {T : List Part} {s0 s : State} (h : State.Within T s0 s) (hT : [.block 23, .notes, .out, .ro, .svc] ⊆ T) (n : Nat) : State.Within T s0 (State.notifySend s n) := by
  unfold State.notifySend
  repeat' (first | with_reducible assumption | exact part_trans (by decide) hT | intro _ | extract_lets | with_reducible apply within_ite | with_reducible apply State.setSession_within | with_reducible apply State.tunnelPut_within | with_reducible apply State.emit_within | fail_if_no_progress ((with_reducible apply within_upd) <;> first | with_reducible exact Or.inl rfl | exact Or.inr (hT (by decide)) | skip) | exact Or.inl (hT (by decide)) | exact Or.inr (hT (by simp)) | split | dsimp +zetaDelta only)

theorem execCmpEventNotify_within {T : List Part} {s0 s : State} (h : State.Within T s0 s) (hT : [.block 23, .mtb, .notes, .out, .ro, .svc] ⊆ T) (send : Option (Fin 8)) (t : Nat) : WithinRes T s0 (execCmpEventNotify send t s) := by
  unfold execCmpEventNotify
  repeat' (first | with_reducible assumption | exact part_trans (by decide) hT | intro _ | extract_lets | with_reducible apply withinRes_next | with_reducible apply withinRes_ite | with_reducible apply within_ite | with_reducible apply State.advance_within | with_reducible apply State.noteOut_within | with_reducible apply State.notifySend_within | fail_if_no_progress ((with_reducible apply within_upd) <;> first | with_reducible exact Or.inl rfl | exact Or.inr (hT (by decide)) | skip) | exact Or.inl (hT (by decide)) | exact Or.inr (hT (by simp)) | split | dsimp +zetaDelta only)

theorem State.svcCommand_within {T : List Part} {s0 s : State} (h : State.Within T s0 s) (hT : [.block 23, .mtb] ⊆ T) (mode3 : Bool) (t : Nat) (f : State → State)  (hf : ∀ s, State.Within T s0 s → State.Within T s0 (f s)) : State.Within T s0 (State.svcCommand s mode3 t f) := by
  unfold State.svcCommand
  repeat' (first | with_reducible assumption | exact part_trans (by decide) hT | with_reducible intro _ | with_reducible apply within_ite | with_reducible apply State.advance_within | with_reducible apply State.setB_within | with_reducible apply hf | exact Or.inl (hT (by decide)) | exact Or.inr (hT (by simp)))

theorem State.svcReading_within {T : List Part} {s0 s : State} (h : State.Within T s0 s) (hT : [.block 23, .mtb] ⊆ T) (mode3 : Bool) (abandoned : Bool) (t : Nat) (f : State → State) (hf : ∀ s, State.Within T s0 s → State.Within T s0 (f s)) : State.Within T s0 (State.svcReading s mode3 abandoned t f) := by
  unfold State.svcReading
  repeat' (first | with_reducible assumption | exact part_trans (by decide) hT | intro _ | extract_lets | with_reducible apply within_ite | with_reducible apply State.svcCommand_within | with_reducible apply hf | fail_if_no_progress ((with_reducible apply within_upd) <;> first | with_reducible exact Or.inl rfl | exact Or.inr (hT (by decide)) | skip) | exact Or.inl (hT (by decide)) | exact Or.inr (hT (by simp)) | split | dsimp +zetaDelta only)

theorem State.svcWriting_within {T : List Part} {s0 s : State} (h : State.Within T s0 s) (hT : [.block 23, .mtb, .out] ⊆ T) (mode3 : Bool) (abandoned : Bool) (t : Nat) (f : State → State) (hf : ∀ s, State.Within T s0 s → State.Within T s0 (f s)) : State.Within T s0 (State.svcWriting s mode3 abandoned t f) := by
  unfold State.svcWriting
  repeat' (first | with_reducible assumption | exact part_trans (by decide) hT | intro _ | extract_lets | with_reducible apply within_ite | with_reducible apply State.svcCommand_within | with_reducible apply hf | fail_if_no_progress ((with_reducible apply within_upd) <;> first | with_reducible exact Or.inl rfl | exact Or.inr (hT (by decide)) | skip) | exact Or.inl (hT (by decide)) | exact Or.inr (hT (by simp)) | split | dsimp +zetaDelta only)

theorem State.svcReply_within {T : List Part} {s0 s : State} (h : State.Within T s0 s) (hT : [.out, .resp] ⊆ T) (data : List Nat) (st : Nat) : State.Within T s0 (State.svcReply s data st) := by
  unfold State.svcReply
  repeat' (first | with_reducible assumption | exact part_trans (by decide) hT | intro _ | extract_lets | with_reducible apply within_ite | with_reducible apply State.emit_within | with_reducible apply State.answer_within | fail_if_no_progress ((with_reducible apply within_upd) <;> first | with_reducible exact Or.inl rfl | exact Or.inr (hT (by decide)) | skip) | exact Or.inl (hT (by decide)) | exact Or.inr (hT (by simp)) | split | dsimp +zetaDelta only)

theorem State.svcRefuse_within {T : List Part} {s0 s : State} (h : State.Within T s0 s) (hT : [.block 23, .resp] ⊆ T) (st : Nat) : State.Within T s0 (State.svcRefuse s st) := by
  unfold State.svcRefuse
  repeat' (first | with_reducible assumption | exact part_trans (by decide) hT | with_reducible intro _ | with_reducible apply within_ite | with_reducible apply State.refuse_within | with_reducible apply State.answer_within | exact Or.inl (hT (by decide)) | exact Or.inr (hT (by simp)))

theorem execSvcReadRegister_within {T : List Part} {s0 s : State} (h : State.Within T s0 s) (hT : [.block 23, .mtb, .out, .resp] ⊆ T) (addr : Word) (mode3 : Bool) (abandoned : Bool) (t : Nat) : WithinRes T s0 (execSvcReadRegister addr mode3 abandoned t s) := by
  unfold execSvcReadRegister
  repeat' (first | with_reducible assumption | exact part_trans (by decide) hT | intro _ | extract_lets | with_reducible apply withinRes_next | with_reducible apply withinRes_ite | with_reducible apply within_ite | with_reducible apply State.svcReading_within | with_reducible apply State.svcReply_within | with_reducible apply State.svcRefuse_within | fail_if_no_progress ((with_reducible apply within_upd) <;> first | with_reducible exact Or.inl rfl | exact Or.inr (hT (by decide)) | skip) | exact Or.inl (hT (by decide)) | exact Or.inr (hT (by simp)) | split | dsimp +zetaDelta only)

theorem State.svcWritten_within {T : List Part} {s0 s : State} (h : State.Within T s0 s) (hT : [.out, .resp, .svc] ⊆ T) : State.Within T s0 (State.svcWritten s) := by
  unfold State.svcWritten
  repeat' (first | with_reducible assumption | exact part_trans (by decide) hT | intro _ | extract_lets | with_reducible apply within_ite | with_reducible apply State.svcReply_within | fail_if_no_progress ((with_reducible apply within_upd) <;> first | with_reducible exact Or.inl rfl | exact Or.inr (hT (by decide)) | skip) | exact Or.inl (hT (by decide)) | exact Or.inr (hT (by simp)) | split | dsimp +zetaDelta only)

theorem execSvcWriteRegister_within {T : List Part} {s0 s : State} (h : State.Within T s0 s) (hT : [.block 0, .block 1, .block 11, .block 12, .block 13, .block 14, .block 15, .block 16, .block 17, .block 18, .block 19, .block 2, .block 20, .block 21, .block 22, .block 23, .block 3, .block 5, .block 6, .block 7, .clk, .cmp, .flash, .freeIx, .gd, .ky, .mac, .mem, .ms, .mtb, .notes, .out, .pa, .pl, .pr, .queues, .rd, .regs, .resp, .ro, .ry, .sl, .su, .svc, .tie, .tm, .up, .upl0, .upl1] ⊆ T) (addr : Word) (value : Word) (mode3 : Bool) (abandoned : Bool) (t : Nat) : WithinRes T s0 (execSvcWriteRegister addr value mode3 abandoned t s) := by
  unfold execSvcWriteRegister
  repeat' (first | with_reducible assumption | exact part_trans (by decide) hT | intro _ | extract_lets | with_reducible apply withinRes_next | with_reducible apply withinRes_ite | with_reducible apply within_ite | with_reducible apply State.svcWriting_within | with_reducible apply State.svcWritten_within | with_reducible apply State.svcRefuse_within | with_reducible apply State.writeRecorded_within | fail_if_no_progress ((with_reducible apply within_upd) <;> first | with_reducible exact Or.inl rfl | exact Or.inr (hT (by decide)) | skip) | exact Or.inl (hT (by decide)) | exact Or.inr (hT (by simp)) | split | dsimp +zetaDelta only)

theorem execSvcLastStatus_within {T : List Part} {s0 s : State} (h : State.Within T s0 s) (hT : [.block 23, .mtb, .out, .resp] ⊆ T) (mode3 : Bool) (abandoned : Bool) (t : Nat) : WithinRes T s0 (execSvcLastStatus mode3 abandoned t s) := by
  unfold execSvcLastStatus
  repeat' (first | with_reducible assumption | exact part_trans (by decide) hT | intro _ | extract_lets | with_reducible apply withinRes_next | with_reducible apply withinRes_ite | with_reducible apply within_ite | with_reducible apply State.svcReading_within | with_reducible apply State.svcReply_within | fail_if_no_progress ((with_reducible apply within_upd) <;> first | with_reducible exact Or.inl rfl | exact Or.inr (hT (by decide)) | skip) | exact Or.inl (hT (by decide)) | exact Or.inr (hT (by simp)) | split | dsimp +zetaDelta only)

theorem execSvcBenchChunk_within {T : List Part} {s0 s : State} (h : State.Within T s0 s) (hT : [.block 23, .mtb, .out, .resp, .svc] ⊆ T) (offset : Word) (data : List Byte) (mode3 : Bool) (abandoned : Bool) (t : Nat) : WithinRes T s0 (execSvcBenchChunk offset data mode3 abandoned t s) := by
  unfold execSvcBenchChunk
  repeat' (first | with_reducible assumption | exact part_trans (by decide) hT | intro _ | extract_lets | with_reducible apply withinRes_next | with_reducible apply withinRes_ite | with_reducible apply within_ite | with_reducible apply State.svcWriting_within | with_reducible apply State.svcWritten_within | with_reducible apply State.svcRefuse_within | with_reducible apply State.answer_within | fail_if_no_progress ((with_reducible apply within_upd) <;> first | with_reducible exact Or.inl rfl | exact Or.inr (hT (by decide)) | skip) | exact Or.inl (hT (by decide)) | exact Or.inr (hT (by simp)) | split | dsimp +zetaDelta only)

theorem execSvcBenchCommit_within {T : List Part} {s0 s : State} (h : State.Within T s0 s) (hT : [.block 23, .mtb, .out, .resp, .svc] ⊆ T) (checkOnly : Bool) (mode3 : Bool) (abandoned : Bool) (t : Nat) : WithinRes T s0 (execSvcBenchCommit checkOnly mode3 abandoned t s) := by
  unfold execSvcBenchCommit
  repeat' (first | with_reducible assumption | exact part_trans (by decide) hT | intro _ | extract_lets | with_reducible apply withinRes_next | with_reducible apply withinRes_ite | with_reducible apply within_ite | with_reducible apply State.svcWriting_within | with_reducible apply State.svcReply_within | with_reducible apply State.svcRefuse_within | fail_if_no_progress ((with_reducible apply within_upd) <;> first | with_reducible exact Or.inl rfl | exact Or.inr (hT (by decide)) | skip) | exact Or.inl (hT (by decide)) | exact Or.inr (hT (by simp)) | split | dsimp +zetaDelta only)

theorem execSvcTunnelIn_within {T : List Part} {s0 s : State} (h : State.Within T s0 s) (hT : [.block 23, .mtb, .out, .resp, .svc] ⊆ T) (message : List Byte) (mode3 : Bool) (abandoned : Bool) (t : Nat) : WithinRes T s0 (execSvcTunnelIn message mode3 abandoned t s) := by
  unfold execSvcTunnelIn
  repeat' (first | with_reducible assumption | exact part_trans (by decide) hT | intro _ | extract_lets | with_reducible apply withinRes_next | with_reducible apply withinRes_ite | with_reducible apply within_ite | with_reducible apply State.svcWriting_within | with_reducible apply State.svcReply_within | with_reducible apply State.svcRefuse_within | fail_if_no_progress ((with_reducible apply within_upd) <;> first | with_reducible exact Or.inl rfl | exact Or.inr (hT (by decide)) | skip) | exact Or.inl (hT (by decide)) | exact Or.inr (hT (by simp)) | split | dsimp +zetaDelta only)

theorem execSvcTunnelOut_within {T : List Part} {s0 s : State} (h : State.Within T s0 s) (hT : [.block 23, .freeIx, .mtb, .out, .resp, .svc] ⊆ T) (mode3 : Bool) (abandoned : Bool) (t : Nat) : WithinRes T s0 (execSvcTunnelOut mode3 abandoned t s) := by
  unfold execSvcTunnelOut
  repeat' (first | with_reducible assumption | exact part_trans (by decide) hT | intro _ | extract_lets | with_reducible apply withinRes_next | with_reducible apply withinRes_ite | with_reducible apply within_ite | with_reducible apply State.svcReading_within | with_reducible apply State.svcReply_within | with_reducible apply State.emit_within | with_reducible apply State.useFree_within | fail_if_no_progress ((with_reducible apply within_upd) <;> first | with_reducible exact Or.inl rfl | exact Or.inr (hT (by decide)) | skip) | exact Or.inl (hT (by decide)) | exact Or.inr (hT (by simp)) | split | dsimp +zetaDelta only)

theorem execSclkStopMidMessage_within {T : List Part} {s0 s : State} (h : State.Within T s0 s) (hT : [.block 15, .freeIx, .ms, .mtb, .notes, .queues] ⊆ T) (t : Nat) : WithinRes T s0 (execSclkStopMidMessage t s) := by
  unfold execSclkStopMidMessage
  repeat' (first | with_reducible assumption | exact part_trans (by decide) hT | intro _ | extract_lets | with_reducible apply withinRes_next | with_reducible apply withinRes_ite | with_reducible apply within_ite | with_reducible apply State.advance_within | with_reducible apply State.cutPackets_within | fail_if_no_progress ((with_reducible apply within_upd) <;> first | with_reducible exact Or.inl rfl | exact Or.inr (hT (by decide)) | skip) | exact Or.inl (hT (by decide)) | exact Or.inr (hT (by simp)) | split | dsimp +zetaDelta only)

theorem State.tick_within {T : List Part} {s0 s : State} (h : State.Within T s0 s) (hT : [.mtb] ⊆ T) : State.Within T s0 (State.tick s) := by
  unfold State.tick
  repeat' (first | with_reducible assumption | exact part_trans (by decide) hT | with_reducible intro _ | with_reducible apply within_ite | fail_if_no_progress ((with_reducible apply within_upd) <;> first | with_reducible exact Or.inl rfl | exact Or.inr (hT (by decide)) | skip) | exact Or.inl (hT (by decide)) | exact Or.inr (hT (by simp)))

end Sys2Proof.Machine
end

