-- ==== Sys2Proof/Tests/Slice0.lean ====
section
/-!
SUPPORT. Tests: an ill-formed command for each check of WellFormed, single steps with results worked out from the spec by hand,
and, for every statement with hypotheses, states and operands that meet them.
-/
namespace Sys2Proof.Machine

/-- A state with some register fields set. -/
def State.withF (s : State) (l : List (Field × Nat)) : State := l.foldl (fun s p => s.setF p.1 p.2) s

/-- A lane list: lane `i` as `f` gives it. -/
def wLanes : List LaneRec := (List.range 96).map (fun i =>
  if i = 0 then ⟨1, 0x1000, 868000⟩ else if i = 1 then ⟨2, 0x1000, 0⟩ else if i = 2 then ⟨1, 0x1000, 868800⟩
  else if i = 32 then ⟨1, 0x1000, 868000⟩ else if i = 64 then ⟨1, 0x3000, 2440000⟩ else ⟨0, 0, 0⟩)

/-- A small pricking for the witness states. -/
def wPr : Pricking := { Pricking.none with
  profiles := [⟨863000, 876000, 28, 1, -80, 160, 10, 400, 1000, 3600, 5000⟩, ⟨2400000, 2483500, 20, 0, -80, 128, 0, 4000, 10000, 60, 0⟩]
  table := ⟨1000, 100, 1, 2, [(0, 0x4000000), (0x4000000, 0x800000), (0x4800000, 0x100000), (0x4C00000, 0x400000),
    (0x5000000, 0x800000), (0x6000000, 0x1000000), (0x7000000, 0x100000), (0x7400000, 0x400000)]⟩
  queues := [⟨3, 0, 1, 0x10, 16, 12, 4, 0, 2⟩, ⟨4, 0, 0, 0x40, 16, 12, 4, 0xFF, 0xFF⟩, ⟨5, 0, 0, 0x10, 16, 12, 4, 0xFF, 0xFF⟩,
    ⟨6, 0, 0, 0x20, 16, 12, 4, 0xFF, 0xFF⟩, ⟨7, 0, 0, 0x30, 16, 12, 4, 0xFF, 0xFF⟩, ⟨8, 0, 0, 0x60, 16, 12, 4, 0xFF, 0xFF⟩, ⟨9, 0, 1, 0x70, 16, 12, 4, 0xFF, 0xFF⟩,
    ⟨10, 0, 1, 0x10, 16, 12, 4, 0xFF, 0xFF⟩]
  producers := [⟨3, 0x58, 8⟩, ⟨4, 0, 8⟩, ⟨5, 0x30, 8⟩, ⟨5, 0x20, 8⟩, ⟨6, 0, 8⟩, ⟨7, 0, 8⟩, ⟨8, 0, 8⟩, ⟨9, 0, 8⟩, ⟨10, 0x71, 8⟩]
  orderedFlows := 4
  hoops := [⟨1, 2, 3, 4, 0x7, 0⟩, ⟨0, 0, 0, 0, 0, 0⟩, ⟨2, 3, 0xC, 4, 0x38, 0⟩, ⟨3, 2, 0x30, 4, 0x1C0, 55⟩]
  trxs := [⟨1, 1, 1, 3, 868000, 10000, 8, 0, 28, 1, 1⟩, ⟨1, 1, 0, 1, 868000, 2000, 4, 0, 28, 0, 1⟩, ⟨1, 2, 1, 3, 2441750, 80000, 16, 1, 20, 0, 2⟩, ⟨0, 0, 0, 0, 0, 0, 0, 0, 0, 0, 0⟩]
  lanes := wLanes
  pans := [⟨0x1234, 1, 1, 5, 5, 10, 0, 2, 100⟩, ⟨0x2345, 0, 4, 5, 5, 0, 0, 0, 100⟩]
  time := ⟨2, 24, 25, 0, 0, 0x24, 100, 1000⟩ }

/-- The same of a unit of a pair. -/
def wPair : Pricking := { wPr with pair := some ⟨0, 3, 5000, 0⟩ }

/-- A state in SERVICE with that pricking in force. -/
def wS (l : List (Field × Nat)) : State := { State.reset.withF ((R.START_STATE_DEV_STATE, 6) :: (R.START_STATE_PHASE, 2) :: (R.CLK_STATE_PLL_LOCK, 1) :: (R.CLK_STATE_TX_OK, 1) :: l) with pr := wPr }

/-- The octets of a transmit descriptor. -/
def wDesc (dep slack tag kind flags phy chan len : Nat) : List Byte :=
  leBytes 8 dep ++ leBytes 4 slack ++ leBytes 2 tag ++ leBytes 1 kind ++ leBytes 1 flags ++ leBytes 2 phy ++ leBytes 1 0x80 ++ leBytes 1 0 ++
    leBytes 3 chan ++ leBytes 1 0 ++ leBytes 4 0x1000 ++ leBytes 4 len

/-- A transmit command in a shuttle's plan. -/
def wCmd (order kind dep len : Nat) : TxCmd :=
  { members := [{ desc := txDescOf (wDesc dep 4000 7 kind 0 0x1000 868000 len), air := 1000000, dep := dep, fin := dep + 1000000 }],
    budget := 4, braid := kind = 1, order := order, planned := true }

/-- The queue of shuttle 0 holds one descriptor. -/
def wTxQ (item : List Byte) : Store Queue := [(6, { entries := [⟨0x80000000, 32, 3, 0x30, 0, 0, item, 0⟩], onDie := 1 })]
end Sys2Proof.Machine

open Sys2Proof Sys2Proof.Machine

section
set_option maxRecDepth 4000
set_option Elab.async false

/-! ### An ill-formed command for each check of WellFormed -/

theorem test_wf_pfcFrameRx_repeated_priority : (Instr.pfcFrameRx 0 [(1, 5), (1, 6)] 0).wf = false := by decide
theorem test_wf_uplFrameRx_length : (Instr.uplFrameRx 0 3 (List.replicate 65536 0) true).wf = false := by
  simp only [Instr.wf, List.length_replicate]; decide
theorem test_wf_tieRoleBlockRx_root : (Instr.tieRoleBlockRx ⟨false, false, false, 8, 0, 0⟩).wf = false := by decide
theorem test_wf_svcBenchChunk_length : (Instr.svcBenchChunk 0 (List.replicate 65536 0) true false 0).wf = false := by
  simp only [Instr.wf, List.length_replicate]; decide
theorem test_wf_svcTunnelIn_length : (Instr.svcTunnelIn (List.replicate 65536 0) true false 0).wf = false := by
  simp only [Instr.wf, List.length_replicate]; decide
theorem test_wf_cmpServiceCall_slot : (Instr.cmpServiceCall 0 0 false .good 0 0 ⟨2, 65536, 0, 0, 0, 0, [], 0, 0, false⟩ 0).wf = false := by decide
theorem test_wf_sessionFinish_ciphertext : (Instr.sessionFinish 0 [1] 0 0 false .good 0).wf = false := by decide
theorem test_wf_tieTimeRx_state : (Instr.tieTimeRx ⟨0, 0, 0, 0, 0, 0, 0, 32⟩ 0).wf = false := by decide
theorem test_wf_sourceAddressComplete_seq :
    (Instr.sourceAddressComplete 0 ⟨0, 0, 0, false, 256, false, 0, 0, 0, 0, 0, 0, false, 0, 0, 0, false, 0, false, 9⟩ {}).wf = false := by
  decide
theorem test_wf_enqueue_length : (Instr.enqueue 3 0 0 65536 0 0 0).wf = false := by decide
theorem test_wf_dramRequest_data : (Instr.dramRequest 0 false 0x80000000 1 false [1, 2] .other).wf = false := by decide
theorem test_wf_upstreamFragmentRx_size : (Instr.upstreamFragmentRx 0 0 2048 0 [] 0).wf = false := by decide
theorem test_wf_zoneReportRx_kind : (Instr.zoneReportRx 0 256 0 0 0).wf = false := by decide
theorem test_wf_roleEnrol_key : (Instr.roleEnrol 0 0 (256 ^ 1312)).wf = false := by decide +kernel
theorem test_wf_witnessDatagramRx_sequence : (Instr.witnessDatagramRx 0 0 0 0 (2 ^ 32) true 0).wf = false := by decide
theorem test_wf_mirrorFrameRx_region : (Instr.mirrorFrameRx [⟨1, false, 0, 256, 0, []⟩] 0).wf = false := by decide
theorem test_wf_mirrorAckRx_sequence : (Instr.mirrorAckRx (2 ^ 32) 0).wf = false := by decide

/-! ### Single steps, with the numbers of the spec's worked examples -/

/-- One step with a command at the front of the queue answers a state of which `p` holds. -/
def stepSays (c : Instr) (s : State) (p : State → Bool) : Bool :=
  match step { s with pending := c :: s.pending } with
  | .next t => p t
  | .fault _ => false
  | .refused _ => false

/-- 00_scope, R6: 320 µs are 412,500 cyc, 16 µs 20,625; 1 ms is 1,289,062.5, half up 1,289,063. -/
theorem test_time_constants : nsToCyc 320000 = 412500 ∧ nsToCyc 16000 = 20625 ∧ nsToCyc 1000000 = 1289063 := by decide

/-- 07_radio_front_end, Example: CENTRE_KHZ 868,000 gives N 21 and FRAC 0x8C_2530. -/
theorem test_synthesiser_word : synWord 868000 = 21 * 2 ^ 24 + 0x8C2530 := by decide

/-- 08_wideband_receive, Table 08.7 steps 1 and 5. -/
theorem test_link_quality : lqiOf (-836) (some (-848)) = 52 ∧ lqiOf (-704) (some (-844)) = 180 := by decide

/-- 20_pair, Table 20.6 step 2: a renewal with EXTEND_US 64 received at 1,500 moves known_end to 496,500. -/
theorem test_renewal_moves_known_end :
    stepSays (.renewRx 1 9001 64 1500) { wS [(R.PAIR_STATE_ROLE, 2), (R.PAIR_STATE_TIE_UP, 1)] with pr := wPair, pa := { knownEnd := some 0 } }
      (fun t => t.pa.knownEnd == some 496500) = true := by decide

/-- 20_pair, Table 20.6 step 6: the takeover instant is 517,125. -/
theorem test_takeover_at_the_instant :
    stepSays (.takeoverInstant 517125) { wS [(R.PAIR_STATE_ROLE, 2), (R.PAIR_STATE_TIE_UP, 1)] with pr := wPair, pa := { knownEnd := some 496500 } }
      (fun t => t.pairRole == 1) = true := by decide

/-- The same unit a cycle before. -/
theorem test_no_takeover_before_the_instant :
    stepSays (.takeoverInstant 517124) { wS [(R.PAIR_STATE_ROLE, 2), (R.PAIR_STATE_TIE_UP, 1)] with pr := wPair, pa := { knownEnd := some 496500 } }
      (fun t => t.pairRole == 2) = true := by decide

/-- 04_start_up, Table 04.2: the analogue interval's end takes UNPOWERED to AWAIT_TRAINING. -/
theorem test_supplies_good : stepSays (.supplyGoodIntervalEnd 0) { State.reset with su := { State.reset.su with intervalOn := true } }
      (fun t => t.dev == devAwait) = true := by decide

/-- R4: with no command waiting and ROOT stopped, nothing changes. -/
theorem test_idle : step State.reset = .next State.reset := rfl

/-! ### Witnesses for the statements over every step -/

theorem test_IdleStepTicks_witness : ∃ s : State, s.pending = [] ∧ s.rootRuns = true := ⟨wS [], by decide, by decide⟩
theorem test_StepKeepsTheInvariant_witness : ∃ s t : State, s.Inv ∧ step s = .next t ∧ t.Inv :=
  ⟨State.reset, State.reset, by decide, rfl, by decide⟩
theorem test_CommandFrames_witness : ∃ (c : Instr) (s t : State), exec c s = .next t := ⟨.vbatApplied, State.reset, _, rfl⟩
theorem test_QueueIsServedInOrder_witness : ∃ s t : State, s.pending = [.vbatApplied, .rootPllLock] ∧ step s = .next t :=
  ⟨{ State.reset with pending := [.vbatApplied, .rootPllLock] }, _, rfl, rfl⟩
theorem test_ReservedFieldsReadZero_witness : ∃ s t : State, s.Inv ∧ s.pending = [.vbatApplied] ∧ step s = .next t :=
  ⟨{ State.reset with pending := [.vbatApplied] }, _, by decide, rfl, rfl⟩

/-! ### Witnesses for the statements over one family's commands -/


/-- States and operands that meet the hypotheses of each clause of RegisterAccess. -/
theorem test_RegisterAccess_witness :
    (∃ s : State, ∃ b : Fin 16, ∃ a : Word, ∃ w : Word, ∃ u : Nat, (s.Inv) ∧ (s.opens b a.toNat = true) ∧ (auditedBlocks.contains (blockOf a.toNat) = false) ∧ ((s.advance u).fieldFault a.toNat ((s.advance u).regWord a.toNat) ((s.advance u).newWord a.toNat w) = none) ∧ (((s.advance u).actionOf (.bobbin b) a.toNat (firstCopy a.toNat).1 (firstCopy a.toNat).2 w).isNone = true) ∧ (eventOf? a.toNat = none) ∧ (regAccessMask .w1c a.toNat = 0) ∧ (¬ (R.PILLOW_HOOP 0 ≤ a.toNat ∧ a.toNat ≤ R.PILLOW_HOOP 3))) ∧
    (∃ s : State, ∃ b : Fin 16, ∃ a : Word, ∃ w : Word, ∃ u : Nat, (s.Inv) ∧ (s.opens b a.toNat = true) ∧ (auditedBlocks.contains (blockOf a.toNat) = false) ∧ (((s.advance u).fieldFault a.toNat ((s.advance u).regWord a.toNat) ((s.advance u).newWord a.toNat w)).isSome = true)) ∧
    (∃ s : State, ∃ b : Fin 16, ∃ a : Word, (s.Inv) ∧ (s.opens b a.toNat = true) ∧ (auditedBlocks.contains (blockOf a.toNat) = true) ∧ (s.auditRoom = true)) ∧
    (∃ s : State, ∃ b : Fin 16, ∃ a : Word, ∃ w : Word, ∃ u : Nat, (s.Inv) ∧ (s.opens b a.toNat = true) ∧ (auditedBlocks.contains (blockOf a.toNat) = true) ∧ (s.auditRoom = false) ∧ (statusClass (((s.advance u).raise R.ROLE_EVENT_AUDIT_BUSY).writeBody (.bobbin b) a.toNat w).resp = 0) ∧ (statusClass ((s.advance u).writeBody (.bobbin b) a.toNat w).resp = 0)) ∧
    (∃ s : State, ∃ b : Fin 16, ∃ a : Word, ∃ n : Bool, (s.Inv) ∧ (s.rootRuns = true) ∧ ((s.hoopOf b).isSome = true) ∧ (s.executes b = true) ∧ ((s.bobbin b).init = true) ∧ (a.toNat % 4 ≠ 0 ∨ n = true ∨ s.addrFault a.toNat = some ST.MEM_UNMAPPED)) ∧
    (∃ s : State, ∃ b : Fin 16, ∃ a : Word, (s.Inv) ∧ (regAccessMask .w1c a.toNat ≠ 0) ∧ (s.opens b a.toNat = true) ∧ (auditedBlocks.contains (blockOf a.toNat) = false)) ∧
    (∃ s : State, ∃ b : Fin 16, ∃ a : Word, (s.Inv) ∧ (regAccessMask .w1c a.toNat ≠ 0) ∧ (s.opens b a.toNat = true) ∧ (auditedBlocks.contains (blockOf a.toNat) = true) ∧ (s.auditRoom = true)) ∧
    (∃ s : State, ∃ b : Fin 16, ∃ p : Nat × Nat, (s.Inv) ∧ (p ∈ eventPairs) ∧ (s.opens b p.2 = true) ∧ (auditedBlocks.contains (blockOf p.1) = false)) ∧
    (∃ s : State, ∃ b : Fin 16, ∃ p : Nat × Nat, (s.Inv) ∧ (p ∈ eventPairs) ∧ (s.opens b p.2 = true) ∧ (auditedBlocks.contains (blockOf p.1) = true) ∧ (s.auditRoom = true)) :=
  ⟨⟨{ State.reset.withF [(R.START_STATE_DEV_STATE, 6)] with pr := { Pricking.none with hoops := [⟨1, 2, 1, 0, 0, 0⟩] }, pl := { bobbins := [(0, { reset := false })] } }, (0 : Fin 16), (BitVec.ofNat 32 R.MEM_NAND_ADDR_PAGE.addr : Word), (0x12345 : Word), (5 : Nat), by decide⟩,
    ⟨{ State.reset.withF [(R.START_STATE_DEV_STATE, 6)] with pr := { Pricking.none with hoops := [⟨1, 2, 1, 0, 0, 0⟩] }, pl := { bobbins := [(0, { reset := false })] } }, (0 : Fin 16), (BitVec.ofNat 32 R.CLK_MON_CFG_TOL_PPM.addr : Word), (1 : Word), (5 : Nat), by decide⟩,
    ⟨{ State.reset.withF [(R.START_STATE_DEV_STATE, 6)] with pr := { Pricking.none with hoops := [⟨1, 2, 1, 0, 0, 0⟩] }, pl := { bobbins := [(0, { reset := false })] } }, (0 : Fin 16), (BitVec.ofNat 32 R.UPDATE_CFG_TRIES.addr : Word), by decide⟩,
    ⟨{ State.reset.withF [(R.START_STATE_DEV_STATE, 6)] with pr := { Pricking.none with hoops := [⟨1, 2, 1, 0, 0, 0⟩] }, pl := { bobbins := [(0, { reset := false })] }, ro := { closed := [[], []] } }, (0 : Fin 16), (BitVec.ofNat 32 R.UPDATE_CFG_TRIES.addr : Word), (0x12c20258 : Word), (5 : Nat), by decide⟩,
    ⟨{ State.reset.withF [(R.START_STATE_DEV_STATE, 6)] with pr := { Pricking.none with hoops := [⟨1, 2, 1, 0, 0, 0⟩] }, pl := { bobbins := [(0, { reset := false })] } }, (0 : Fin 16), (0x20010002 : Word), (false : Bool), by decide⟩,
    ⟨{ State.reset.withF [(R.START_STATE_DEV_STATE, 6), (R.CLK_EVENT_GATE_DONE, 1), (R.CLK_EVENT_RAMP_DONE, 1)] with pr := { Pricking.none with hoops := [⟨1, 2, 1, 0, 0, 0⟩] }, pl := { bobbins := [(0, { reset := false })] } }, (0 : Fin 16), (BitVec.ofNat 32 R.CLK_EVENT : Word), by decide⟩,
    ⟨{ State.reset.withF [(R.START_STATE_DEV_STATE, 6), (R.KEY_EVENT_ENTROPY_FAIL, 1)] with pr := { Pricking.none with hoops := [⟨1, 2, 1, 0, 0, 0⟩] }, pl := { bobbins := [(0, { reset := false })] } }, (0 : Fin 16), (BitVec.ofNat 32 R.KEY_EVENT : Word), by decide⟩,
    ⟨{ State.reset.withF [(R.START_STATE_DEV_STATE, 6), (R.CLK_EVENT_GATE_DONE, 1), (R.CLK_EVENT_RAMP_DONE, 1)] with pr := { Pricking.none with hoops := [⟨1, 2, 1, 0, 0, 0⟩] }, pl := { bobbins := [(0, { reset := false })] } }, (0 : Fin 16), ((R.CLK_EVENT, R.CLK_EVENT_EN) : Nat × Nat), by decide⟩,
    ⟨{ State.reset.withF [(R.START_STATE_DEV_STATE, 6), (R.KEY_EVENT_ENTROPY_FAIL, 1)] with pr := { Pricking.none with hoops := [⟨1, 2, 1, 0, 0, 0⟩] }, pl := { bobbins := [(0, { reset := false })] } }, (0 : Fin 16), ((R.KEY_EVENT, R.KEY_EVENT_EN) : Nat × Nat), by decide⟩⟩

/-- States and operands that meet the hypotheses of each clause of SupplyCommands. -/
theorem test_SupplyCommands_witness :
    (∃ s : State, (s.Inv) ∧ (s.su.vbat = false)) ∧
    (∃ s : State, (s.Inv) ∧ (s.su.vbat = true)) ∧
    (∃ s : State, (s.Inv) ∧ (s.dev = devUnpowered) ∧ (s.su.intervalOn = true)) ∧
    (∃ s : State, (s.Inv) ∧ (s.dev ≠ devUnpowered)) ∧
    (∃ s : State, (s.dev = devUnpowered)) ∧
    (∃ s : State, (s.dev = devUnpowered)) :=
  ⟨⟨State.reset.withF [(R.START_CAUSE_CAUSE, 2), (R.TAMPER_STATE_VBAT_LOST, 1)], by decide⟩,
    ⟨{ State.reset.withF [(R.TAMPER_STATE_OWNER, 2)] with su := { vbat := true }, ky := { root := 7 } }, by decide⟩,
    ⟨{ State.reset with su := { intervalOn := true } }, by decide⟩,
    ⟨{ State.reset.withF [(R.START_STATE_DEV_STATE, 4)] with mem := [(5, 1)], mtb := 9 }, by decide⟩,
    ⟨{ State.reset with su := { intervalOn := true } }, by decide⟩,
    ⟨{ State.reset with su := { intervalOn := true, good := List.range 9 } }, by decide⟩⟩

/-- States and operands that meet the hypotheses of each clause of BootCommands. -/
theorem test_BootCommands_witness :
    (∃ s : State, (s.Inv) ∧ (s.dev = devRootLock)) ∧
    (∃ s : State, (s.Inv) ∧ (s.dev = devRootLock)) ∧
    (∃ s : State, (s.Inv) ∧ (s.dev = devDramTrain) ∧ (s.su.stopped = false) ∧ (s.su.heldAt = 0) ∧ (s.su.stage < 4) ∧ (s.su.stage = 2 → s.stoppedClock 0 = false)) ∧
    (∃ s : State, (s.Inv) ∧ (s.dev = devDramTrain) ∧ (s.su.stopped = false) ∧ (s.su.heldAt = 0)) ∧
    (∃ s : State, (s.Inv) ∧ (s.dev = devDramTrain) ∧ (s.su.stopped = false) ∧ (s.su.heldAt = 0) ∧ (4 ≤ s.su.stage)) ∧
    (∃ s : State, ∃ u : Nat, (s.Inv) ∧ (s.dev = devDramTrain) ∧ (s.su.stopped = false) ∧ (s.su.heldAt = 0) ∧ (s.su.attemptAt + 2578125 < max s.mtb u)) ∧
    (∃ s : State, (s.Inv) ∧ (s.dev = devBoot) ∧ (s.su.stopped = false) ∧ (s.su.heldAt = 0) ∧ (s.ky.bootJob = [])) ∧
    (∃ s : State, ∃ u : Nat, (s.Inv) ∧ (s.dev = devBoot) ∧ (s.su.stopped = false) ∧ (s.su.heldAt = 0) ∧ (s.su.bootAt + 335156250 < max s.mtb u)) ∧
    (∃ s : State, (s.Inv) ∧ (s.dev = devLoad) ∧ (s.su.heldAt = 0) ∧ (s.svc.commit = some false)) ∧
    (∃ s : State, (s.Inv) ∧ (s.dev = devLoad) ∧ (s.su.heldAt = 0) ∧ (s.svc.commit ≠ some false) ∧ (s.su.benchWait = false) ∧ (s.su.stopped = false)) ∧
    (∃ s : State, ∃ u : Nat, (s.Inv) ∧ (s.dev = devLoad) ∧ (s.su.heldAt = 0) ∧ (s.su.benchWait = false) ∧ (s.su.stopped = false) ∧ (s.su.loadAt + 25781250 < max s.mtb u)) ∧
    (∃ s : State, (s.Inv) ∧ (s.svc.commit = some true)) :=
  ⟨⟨{ State.reset.withF [(R.START_STATE_DEV_STATE, 2)] with mtb := 5, clk := { locks := [1] } }, by decide⟩,
    ⟨State.reset.withF [(R.START_STATE_DEV_STATE, 2)], by decide⟩,
    ⟨{ State.reset.withF [(R.START_STATE_DEV_STATE, 3)] with su := { stage := 1 } }, by decide⟩,
    ⟨{ State.reset.withF [(R.START_STATE_DEV_STATE, 3)] with su := { stage := 2, attempts := 1 } }, by decide⟩,
    ⟨{ State.reset.withF [(R.START_STATE_DEV_STATE, 3), (R.START_OPT_HALT, 1)] with su := { stage := 4 } }, by decide⟩,
    ⟨{ State.reset.withF [(R.START_STATE_DEV_STATE, 3)] with su := { stage := 4, attempts := 2 } }, (2578126 : Nat), by decide⟩,
    ⟨State.reset.withF [(R.START_STATE_DEV_STATE, 4)], by decide⟩,
    ⟨State.reset.withF [(R.START_STATE_DEV_STATE, 4), (R.START_OPT_SLOT, 1)], (335156251 : Nat), by decide⟩,
    ⟨{ State.reset.withF [(R.START_STATE_DEV_STATE, 5)] with svc := { commit := some false } }, by decide⟩,
    ⟨State.reset.withF [(R.START_STATE_DEV_STATE, 5)], by decide⟩,
    ⟨State.reset.withF [(R.START_STATE_DEV_STATE, 5), (R.START_OPT_SLOT, 2)], (25781251 : Nat), by decide⟩,
    ⟨{ State.reset with svc := { commit := some true } }, by decide⟩⟩

/-- States and operands that meet the hypotheses of each clause of RunningCommands. -/
theorem test_RunningCommands_witness :
    (∃ s : State, (s.Inv) ∧ (s.starting = true)) ∧
    (∃ s : State, ∃ u : Nat, (s.Inv) ∧ (s.starting = true) ∧ (s.isSet R.START_STATE_READY = false) ∧ (s.su.heldAt = 0) ∧ (s.su.warm = none) ∧ (s.su.serviceAt + msToCyc (s.getF R.START_WDOG_LIMIT_MS) ≤ max s.mtb u)) ∧
    (∃ s : State, (s.Inv) ∧ (s.su.heldAt ≠ 0)) ∧
    (∃ s : State, (s.Inv) ∧ (s.starting = true) ∧ (s.isSet R.START_STATE_READY = true) ∧ (s.su.heldAt = 0) ∧ (s.su.warm = none) ∧ (s.erasedLike = true ∨ ∀ n ∈ List.range 4, (s.trxRec n).isNone = true ∨ n ∈ s.su.calDone)) ∧
    (∃ s : State, (s.Inv) ∧ (s.inService = true) ∧ (s.auditRoom = true) ∧ (s.su.warm = none)) ∧
    (∃ s : State, ∃ u : Nat, ∃ k : Nat, (s.Inv) ∧ (s.su.warm = some k) ∧ (∀ n ∈ List.range 4, (s.trx n).onAir = none ∧ (s.trx n).step.all (fun e => decide (e.2 ≤ max s.mtb u)) = true)) :=
  ⟨⟨State.reset.withF [(R.START_STATE_DEV_STATE, 6), (R.START_STATE_PHASE, 1)], by decide⟩,
    ⟨State.reset.withF [(R.START_STATE_DEV_STATE, 6), (R.START_STATE_PHASE, 1), (R.START_WDOG_LIMIT_MS, 100)], (128906250 : Nat), by decide⟩,
    ⟨{ State.reset.withF [(R.START_STATE_DEV_STATE, 4)] with su := { heldAt := 2 } }, by decide⟩,
    ⟨State.reset.withF [(R.START_STATE_DEV_STATE, 6), (R.START_STATE_PHASE, 1), (R.START_STATE_READY, 1)], by decide⟩,
    ⟨State.reset.withF [(R.START_STATE_DEV_STATE, 6)], by decide⟩,
    ⟨{ State.reset.withF [(R.START_STATE_DEV_STATE, 6)] with su := { warm := some 4 } }, (1 : Nat), (4 : Nat), by decide⟩⟩

/-- States and operands that meet the hypotheses of each clause of SourceCommands. -/
theorem test_SourceCommands_witness :
    (∃ s : State, ∃ n : Fin 3, (s.Inv) ∧ (s.srcLocked n = false) ∧ (s.dev ≠ devUnpowered)) ∧
    (∃ s : State, ∃ n : Fin 3, (s.Inv) ∧ (s.srcLocked n = true)) ∧
    (∃ s : State, ∃ n : Fin 3, ∃ tol : Nat, (s.Inv) ∧ (s.clk.windows.find? (fun w => w.1 == n.val) = some (n.val, tol)) ∧ (s.rootKept = true)) ∧
    (∃ s : State, ∃ u : Nat, (s.Inv) ∧ (s.dev = devHold) ∧ (s.clk.holdAt + secCyc ≤ max s.mtb u)) ∧
    (∃ s : State, ∃ u : Nat, (s.Inv) ∧ (s.dev = devHoldInhibit) ∧ (s.clk.holdAt + 30 * secCyc ≤ max s.mtb u)) ∧
    (∃ s : State, (s.Inv) ∧ (s.rootRuns = true)) ∧
    (∃ s : State, ∃ f : Bool, ∃ n : Fin 4, (s.Inv) ∧ ((n : Nat) < 3) ∧ (f = true → s.srcQual n = true) ∧ (s.rootKept = true)) :=
  ⟨⟨State.reset.withF [(R.START_STATE_DEV_STATE, 1)], (2 : Fin 3), by decide⟩,
    ⟨{ State.reset.withF [(R.START_STATE_DEV_STATE, 2), (R.CLK_STATE_ROOT_SRC, 1), (srcF R.CLK_SRC_UPL0_LOCK 1, 1)] with clk := { locks := [1] } }, (1 : Fin 3), by decide⟩,
    ⟨{ State.reset.withF [(R.START_STATE_DEV_STATE, 6), (R.CLK_STATE_ROOT_SRC, 3), (srcF R.CLK_SRC_UPL0_PASS 1, 255)] with clk := { windows := [(1, 50)] } }, (1 : Fin 3), (50 : Nat), by decide⟩,
    ⟨State.reset.withF [(R.START_STATE_DEV_STATE, 7)], (1289062500 : Nat), by decide⟩,
    ⟨State.reset.withF [(R.START_STATE_DEV_STATE, 8)], (38671875000 : Nat), by decide⟩,
    ⟨State.reset.withF [(R.START_STATE_DEV_STATE, 6)], by decide⟩,
    ⟨State.reset.withF [(R.START_STATE_DEV_STATE, 6), (srcF R.CLK_SRC_UPL0_QUAL 2, 1)], (true : Bool), (2 : Fin 4), by decide⟩⟩

/-- States and operands that meet the hypotheses of each clause of ClockDividersAndGates. -/
theorem test_ClockDividersAndGates_witness :
    (∃ s : State, ∃ n : Fin 4, ∃ u : Nat, (s.Inv) ∧ (s.rootRuns = true) ∧ ((s.hoopRec n).isSome = true) ∧ ((n : Nat) ≠ s.mainHoop) ∧ (∀ b ∈ List.range 16, s.hoopOf b = some (n : Nat) → (s.bobbin b).running = none ∧ (s.bobbin b).pre = none ∧ (s.bobbin b).idleAt + s.getF R.CLK_IDLE_CYC_IDLE ≤ max s.mtb u) ∧ ((s.clk.ramps.find? (fun r => r.hoop == n.val)).isNone = true)) ∧
    (∃ s : State, ∃ n : Fin 4, ∃ d : Nat, (s.Inv) ∧ (s.clk.ramps.find? (fun r => r.hoop == n.val) = some ⟨n.val, d⟩)) ∧
    (∃ s : State, ∃ d : Fin 16, ∃ v : Fin 32, (s.Inv) ∧ (s.inService = false) ∧ ((d : Nat) = 0 ∧ ((v : Nat) = 2 ∨ (v : Nat) = 16) ∨ (4 ≤ (d : Nat) ∧ (d : Nat) < 8 ∧ (s.hoopRec (d - 4)).isSome ∧ ((v : Nat) = 2 ∨ (((v : Nat) = 3 ∨ (v : Nat) = 4) ∧ (d : Nat) - 4 ≠ s.mainHoop))))) ∧
    (∃ s : State, ∃ d : Fin 16, ∃ r : Restart, (s.Inv) ∧ (s.restartOf d = some r)) ∧
    (∃ s : State, ∃ d : Fin 16, ∃ r : Restart, (s.Inv) ∧ (s.restartOf d = some r) ∧ (r.switched = true)) ∧
    (∃ s : State, ∃ u : Fin 13, (s.Inv) ∧ (bitOf (s.getF clkGate) u = false) ∧ (s.gateOk u = true)) ∧
    (∃ s : State, ∃ u : Fin 13, (s.Inv) ∧ (bitOf (s.getF clkGate) u = false) ∧ (s.gateOk u = false)) ∧
    (∃ s : State, ∃ u : Fin 13, (s.Inv) ∧ (bitOf (s.getF R.CLK_GATE_STAT_PEND) u = true)) ∧
    (∃ s : State, ∃ u : Fin 13, (s.Inv) ∧ (bitOf (s.getF clkGate) u = true) ∧ (9 ≤ (u : Nat) → (s.trxRec (u - 9)).isSome = true)) :=
  ⟨⟨{ State.reset.withF [(R.START_STATE_DEV_STATE, 6), (hoopCur 1, 2), (hoopIdleDiv 1, 4)] with pr := { Pricking.none with hoops := [⟨1, 2, 1, 0, 0, 0⟩, ⟨2, 4, 2, 0, 0, 0⟩] } }, (1 : Fin 4), (65536 : Nat), by decide⟩,
    ⟨{ State.reset.withF [(hoopCur 3, 3)] with clk := { ramps := [⟨3, 4⟩] } }, (3 : Fin 4), (4 : Nat), by decide⟩,
    ⟨State.reset, (0 : Fin 16), (16 : Fin 32), by decide⟩,
    ⟨{ State.reset with clk := { restarts := [⟨0, 2, false⟩] } }, (0 : Fin 16), (⟨0, 2, false⟩ : Restart), by decide⟩,
    ⟨{ State.reset with clk := { restarts := [⟨0, 2, true⟩] } }, (0 : Fin 16), (⟨0, 2, true⟩ : Restart), by decide⟩,
    ⟨State.reset, (12 : Fin 13), by decide⟩,
    ⟨wS [(R.TRX_STATE_STATE 0, 3)], (9 : Fin 13), by decide⟩,
    ⟨State.reset.withF [(R.CLK_GATE_STAT_PEND, 0x80)], (7 : Fin 13), by decide⟩,
    ⟨State.reset.withF [(clkGate, 0x10), (R.CLK_GATE_STAT_GATED, 0x10)], (4 : Fin 13), by decide⟩⟩

/-- States and operands that meet the hypotheses of each clause of UpstreamTraining. -/
theorem test_UpstreamTraining_witness :
    (∃ s : State, ∃ p : Fin 2, ∃ m : Bool, (s.Inv) ∧ (s.dev ≠ devUnpowered) ∧ (s.uplPhase p = 0) ∧ (s.gatedOrPending (gateUpl p) = false) ∧ (bitOf (s.getF (R.UPL_CFG_ALLOW p)) (if m then 0 else 1) = true)) ∧
    (∃ s : State, ∃ p : Fin 2, (s.Inv) ∧ (s.uplPhase p = 1)) ∧
    (∃ s : State, ∃ p : Fin 2, (s.Inv) ∧ (s.uplPhase p = 2) ∧ (s.uplTx p ≠ .idle)) ∧
    (∃ s : State, ∃ p : Fin 2, (s.Inv) ∧ (s.uplPhase p = 2) ∧ (s.uplTx p ≠ .idle)) ∧
    (∃ s : State, ∃ p : Fin 2, (s.Inv) ∧ (s.uplPhase p = 3) ∧ (s.uplTx p ≠ .idle)) ∧
    (∃ s : State, ∃ p : Fin 2, (s.Inv) ∧ (s.uplPhase p = 4) ∧ (s.dev ≠ devUnpowered)) ∧
    (∃ s : State, ∃ p : Fin 2, (s.Inv) ∧ (s.uplPhase p = 3)) ∧
    (∃ s : State, ∃ p : Fin 2, (s.Inv) ∧ (s.uplPhase p = 5)) ∧
    (∃ s : State, ∃ p : Fin 2, ∃ v : Fin 4, (s.Inv) ∧ ((v : Nat) < 3) ∧ (s.getF (R.UPL_CTRL_ADMIN p) ≠ v) ∧ (s.gatedOrPending (gateUpl p) = false) ∧ ((v : Nat) = 2 → s.getF R.CLK_STATE_ROOT_SRC = p → s.srcLocked p = true → (s.srcQual (1 - p) || s.srcQual 2) = true)) ∧
    (∃ s : State, ∃ p : Fin 2, ∃ v : Fin 4, (s.Inv) ∧ ((v : Nat) = 2) ∧ (s.getF (R.UPL_CTRL_ADMIN p) ≠ 2) ∧ (s.gatedOrPending (gateUpl p) = false) ∧ (s.getF R.CLK_STATE_ROOT_SRC = p) ∧ (s.srcLocked p = true) ∧ (∀ n ∈ List.range 3, n ≠ p → s.srcQual n = false)) ∧
    (∃ s : State, ∃ p : Fin 2, ∃ v : Fin 4, (s.Inv) ∧ (s.getF (R.UPL_CTRL_ADMIN p) ≠ v) ∧ (s.gatedOrPending (gateUpl p) = true)) ∧
    (∃ s : State, ∃ p : Fin 2, (s.Inv) ∧ (s.gatedOrPending (gateUpl p) = false)) ∧
    (∃ s : State, ∃ p : Fin 2, (s.Inv) ∧ (s.gatedOrPending (gateUpl p) = true)) :=
  ⟨⟨State.reset.withF [(R.START_STATE_DEV_STATE, 1), (R.UPL_CFG_ALLOW 1, 3)], (1 : Fin 2), (false : Bool), by decide⟩,
    ⟨State.reset.withF [(R.UPL_STAT_PHASE 1, 1), (R.UPL_STAT_MODE 1, 1)], (1 : Fin 2), by decide⟩,
    ⟨State.reset.withF [(R.START_STATE_DEV_STATE, 1), (R.UPL_STAT_PHASE 1, 2)], (1 : Fin 2), by decide⟩,
    ⟨State.reset.withF [(R.START_STATE_DEV_STATE, 1), (R.UPL_STAT_PHASE 0, 2)], (0 : Fin 2), by decide⟩,
    ⟨State.reset.withF [(R.START_STATE_DEV_STATE, 1), (R.UPL_STAT_PHASE 0, 3)], (0 : Fin 2), by decide⟩,
    ⟨State.reset.withF [(R.UPL_STAT_PHASE 1, 4), (R.START_STATE_DEV_STATE, 1), (R.UPL_FC_MODE 1, 2)], (1 : Fin 2), by decide⟩,
    ⟨State.reset.withF [(R.UPL_STAT_PHASE 1, 3)], (1 : Fin 2), by decide⟩,
    ⟨State.reset.withF [(R.UPL_STAT_PHASE 1, 5), (R.UPL_STAT_LINK_UP 1, 1)], (1 : Fin 2), by decide⟩,
    ⟨State.reset.withF [(R.CLK_STATE_ROOT_SRC, 0)], (1 : Fin 2), (2 : Fin 4), by decide⟩,
    ⟨State.reset.withF [(R.CLK_STATE_ROOT_SRC, 1), (srcF R.CLK_SRC_UPL0_LOCK 1, 1)], (1 : Fin 2), (2 : Fin 4), by decide⟩,
    ⟨wS [(R.CLK_GATE_STAT_GATED, 0x100), (R.UPL_CTRL_ADMIN 1, 2)], (1 : Fin 2), (0 : Fin 4), by decide⟩,
    ⟨State.reset.withF [(R.UPL_STAT_PHASE 1, 4)], (1 : Fin 2), by decide⟩,
    ⟨wS [(R.CLK_GATE_STAT_GATED, 0x100), (R.UPL_STAT_PHASE 1, 4)], (1 : Fin 2), by decide⟩⟩

/-- States and operands that meet the hypotheses of each clause of UpstreamFlowAndFrames. -/
theorem test_UpstreamFlowAndFrames_witness :
    (∃ s : State, ∃ p : Fin 2, (s.Inv) ∧ (s.uplHears p = true)) ∧
    (∃ s : State, ∃ p : Fin 2, (s.Inv) ∧ (s.uplHears p = true)) ∧
    (∃ s : State, ∃ p : Fin 2, ∃ k : Fin 9, ∃ u : Nat, ∃ e : Nat, (s.Inv) ∧ (Store.find? (k : Nat) (s.uplPort p).paused = some e) ∧ (e ≤ if s.rootRuns then max s.mtb u else s.mtb)) ∧
    (∃ s : State, ∃ p : Fin 2, (s.Inv) ∧ (s.uplCarries p = true) ∧ (((List.range 9).filter (fun k => (s.fcNow p).contains k != (s.uplPort p).sent.contains k)).isEmpty = false)) ∧
    (∃ s : State, ∃ p : Fin 2, ∃ u : Nat, ∃ l : List Nat, (s.Inv) ∧ (s.uplCarries p = true) ∧ (l = (s.uplPort p).sent.filter (fun k => (s.fcNow p).contains k && decide (Store.get (fun _ => 0) (s.uplPort p).sentAt k + s.getF (R.UPL_FC_QUANTA p) * 66 / 2 ≤ max s.mtb u))) ∧ (l.isEmpty = false)) ∧
    (∃ s : State, ∃ p : Fin 2, (s.Inv) ∧ (s.uplCarries p = true) ∧ (s.rootKept = true)) ∧
    (∃ s : State, ∃ p : Fin 2, ∃ u : Nat, (s.Inv) ∧ (s.rootRuns = true) ∧ (s.rootKept = true) ∧ ((s.uplPort p).qlAt + 5 * secCyc ≤ max s.mtb u)) ∧
    (∃ s : State, ∃ p : Fin 2, ∃ q : Fin 256, ∃ l : List Byte, (s.Inv) ∧ (s.uplCarries p = true) ∧ ((s.producedBy (0x48 + 0x10 * (p : Nat))).contains q.val = true) ∧ (l.length ≤ 2048) ∧ ((s.queueRec q).isSome = true) ∧ (0 < (s.queue q).credit (0x48 + 0x10 * (p : Nat))) ∧ (s.fifoFull q (0x48 + 0x10 * (p : Nat)) = false) ∧ ((0x48 + 0x10 * (p : Nat)) ∉ (s.queue q).dropping ++ (s.queue q).losing)) ∧
    (∃ s : State, ∃ p : Fin 2, ∃ q : Fin 256, ∃ l : List Byte, (s.Inv) ∧ (s.uplCarries p = true) ∧ ((s.producedBy (0x48 + 0x10 * (p : Nat))).contains q.val = true) ∧ (2048 < l.length ∨ s.pktTake.1 = none)) :=
  ⟨⟨{ State.reset.withF [(R.START_STATE_DEV_STATE, 6), (R.UPL_STAT_LINK_UP 1, 1)] with upl1 := { mode := 1 } }, (1 : Fin 2), by decide⟩,
    ⟨{ State.reset.withF [(R.START_STATE_DEV_STATE, 6), (R.UPL_STAT_LINK_UP 0, 1)] with upl0 := { mode := 2, paused := [(3, 5)] } }, (0 : Fin 2), by decide⟩,
    ⟨{ State.reset with upl1 := { paused := [(3, 7), (8, 9)] }, mtb := 9 }, (1 : Fin 2), (8 : Fin 9), (0 : Nat), (9 : Nat), by decide⟩,
    ⟨{ State.reset.withF [(R.START_STATE_DEV_STATE, 6), (R.UPL_STAT_LINK_UP 1, 1)] with upl1 := { sent := [8] } }, (1 : Fin 2), by decide⟩,
    ⟨{ State.reset.withF [(R.START_STATE_DEV_STATE, 6), (R.UPL_STAT_LINK_UP 1, 1)] with pr := wPr, queues := [(3, { above := true })], upl1 := { mode := 1, sent := [8] } }, (1 : Fin 2), (3000000 : Nat), ([8] : List Nat), by decide⟩,
    ⟨State.reset.withF [(R.START_STATE_DEV_STATE, 6), (R.UPL_STAT_LINK_UP 1, 1), (R.CLK_STATE_ROOT_SRC, 0)], (1 : Fin 2), by decide⟩,
    ⟨{ State.reset.withF [(R.START_STATE_DEV_STATE, 6), (srcF R.CLK_SRC_UPL0_QUAL 1, 1), (R.CLK_STATE_ROOT_SRC, 0)] with upl1 := { ql := some 4 } }, (1 : Fin 2), (7000000000 : Nat), by decide⟩,
    ⟨{ State.reset.withF [(R.START_STATE_DEV_STATE, 6), (R.UPL_STAT_LINK_UP 1, 1)] with pr := wPr, queues := [(3, { credits := [(0x58, 2)] })] }, (1 : Fin 2), (3 : Fin 256), ([1, 2, 3] : List Byte), by decide⟩,
    ⟨{ State.reset.withF [(R.START_STATE_DEV_STATE, 6), (R.UPL_STAT_LINK_UP 1, 1)] with pr := { wPr with table := Pricking.none.table } }, (1 : Fin 2), (3 : Fin 256), ([] : List Byte), by decide⟩⟩

/-- States and operands that meet the hypotheses of each clause of TieTraining. -/
theorem test_TieTraining_witness :
    (∃ s : State, (s.Inv) ∧ (s.dev ≠ devUnpowered) ∧ (s.getF R.TIE_STAT_PHASE ≤ 1) ∧ (s.isSet R.TIE_CFG_ENABLE = true)) ∧
    (∃ s : State, (s.Inv) ∧ (s.getF R.TIE_STAT_PHASE = 2) ∧ (s.tie.coef.length = 3)) ∧
    (∃ s : State, (s.Inv) ∧ (s.getF R.TIE_STAT_PHASE = 2) ∧ (16 ≤ s.tie.ready) ∧ (16 ≤ s.tie.peerReady)) ∧
    (∃ s : State, (s.Inv) ∧ (s.getF R.TIE_STAT_PHASE = 3)) ∧
    (∃ s : State, ∃ b : RoleBlk, (s.Inv) ∧ (s.rootKept = true) ∧ (s.getF R.TIE_STAT_PHASE = 3) ∧ (s.tie.ack = true) ∧ (b.ack = true) ∧ (s.tie.blk = some b)) ∧
    (∃ s : State, ∃ u : Nat, (s.Inv) ∧ (s.rootRuns = true) ∧ (0 < s.getF R.TIE_STAT_PHASE ∧ s.getF R.TIE_STAT_PHASE ≤ 3) ∧ (s.getF R.TIE_STAT_PHASE = 1 → s.isSet R.TIE_STAT_BLOCK_LOCK = true) ∧ (s.tie.since + tieLimit (s.getF R.TIE_STAT_PHASE) ≤ max s.mtb u)) ∧
    (∃ s : State, (s.Inv) ∧ (s.rootRuns = false) ∧ (s.dev ≠ devUnpowered) ∧ (s.isSet R.TIE_CFG_ENABLE = true) ∧ (s.getF R.TIE_STAT_PHASE ≤ 3)) ∧
    (∃ s : State, (s.Inv) ∧ (s.isSet R.TIE_CFG_ENABLE = false)) ∧
    (∃ s : State, (s.Inv) ∧ (s.isSet R.TIE_CFG_ENABLE = true) ∧ (s.getF R.CLK_STATE_ROOT_SRC ≠ 2 ∨ s.srcLocked 2 = false ∨ s.srcQual 0 = true ∨ s.srcQual 1 = true)) ∧
    (∃ s : State, (s.Inv) ∧ (s.isSet R.TIE_CFG_ENABLE = true) ∧ (s.getF R.CLK_STATE_ROOT_SRC = 2) ∧ (s.srcLocked 2 = true) ∧ (s.srcQual 0 = false ∧ s.srcQual 1 = false)) :=
  ⟨⟨State.reset.withF [(R.START_STATE_DEV_STATE, 6), (R.TIE_STAT_PHASE, 1), (R.TIE_CFG_ENABLE, 1)], by decide⟩,
    ⟨{ State.reset.withF [(R.START_STATE_DEV_STATE, 6), (R.TIE_CFG_ENABLE, 1), (R.TIE_STAT_PHASE, 2)] with tie := { coef := [1, -2, 3] } }, by decide⟩,
    ⟨{ State.reset.withF [(R.TIE_STAT_PHASE, 2), (R.START_STATE_DEV_STATE, 6), (R.TIE_CFG_ENABLE, 1)] with tie := { ready := 16, peerReady := 16 } }, by decide⟩,
    ⟨{ State.reset.withF [(R.START_STATE_DEV_STATE, 6), (R.TIE_CFG_ENABLE, 1), (R.TIE_STAT_PHASE, 3)] with tie := { blk := some ⟨false, true, true, 1, 2, 7⟩, same := 2 } }, by decide⟩,
    ⟨{ State.reset.withF [(R.START_STATE_DEV_STATE, 6), (R.TIE_STAT_PHASE, 3)] with tie := { blk := some ⟨true, false, true, 1, 2, 7⟩, same := 3, ack := true } }, (⟨true, false, true, 1, 2, 7⟩ : RoleBlk), by decide⟩,
    ⟨State.reset.withF [(R.START_STATE_DEV_STATE, 6), (R.TIE_CFG_ENABLE, 1), (R.TIE_STAT_PHASE, 3)], (1289063 : Nat), by decide⟩,
    ⟨State.reset.withF [(R.START_STATE_DEV_STATE, 1), (R.TIE_CFG_ENABLE, 1), (R.TIE_STAT_PHASE, 0)], by decide⟩,
    ⟨State.reset.withF [(R.START_STATE_DEV_STATE, 6), (R.TIE_CFG_ENABLE, 0)], by decide⟩,
    ⟨State.reset.withF [(R.START_STATE_DEV_STATE, 6), (R.TIE_STAT_PHASE, 2), (R.TIE_CFG_ENABLE, 1)], by decide⟩,
    ⟨State.reset.withF [(R.START_STATE_DEV_STATE, 6), (R.TIE_CFG_ENABLE, 1), (R.CLK_STATE_ROOT_SRC, 2), (srcF R.CLK_SRC_UPL0_LOCK 2, 1)], by decide⟩⟩

/-- States and operands that meet the hypotheses of each clause of ServicePort. -/
theorem test_ServicePort_witness :
    (∃ s : State, ∃ a : Word, (s.Inv) ∧ (s.dev ≠ devUnpowered) ∧ (svcReach.contains a.toNat = true) ∧ (s.dev = devAwait ∨ s.dev = devPark → svcEarly.contains a.toNat = true)) ∧
    (∃ s : State, ∃ a : Word, (s.Inv) ∧ (s.dev ≠ devUnpowered) ∧ (a.toNat % 4 = 0) ∧ (svcReach.contains a.toNat = false ∨ ((s.dev = devAwait ∨ s.dev = devPark) ∧ svcEarly.contains a.toNat = false))) ∧
    (∃ s : State, ∃ a : Word, (s.Inv) ∧ (s.dev ≠ devUnpowered) ∧ (svcReach.contains a.toNat = true) ∧ (s.dev = devAwait ∨ s.dev = devPark → svcEarly.contains a.toNat = true)) ∧
    (∃ s : State, ∃ a : Word, ∃ w : Word, (s.Inv) ∧ (s.dev = devAwait ∨ s.dev = devRootLock ∨ s.dev = devDramTrain) ∧ (a.toNat = R.START_OPT) ∧ (R.START_OPT_SLOT.get ((w &&& regAccessMask .rw R.START_OPT) ||| (s.getReg R.START_OPT &&& ~~~ regAccessMask .rw R.START_OPT)) ≤ 2)) ∧
    (∃ s : State, (s.Inv) ∧ (s.dev ≠ devUnpowered)) ∧
    (∃ s : State, ∃ o : Word, ∃ l : List Byte, (s.Inv) ∧ (s.rootRuns = true) ∧ (s.dev ≠ devDramTrain ∧ s.dev ≠ devBoot) ∧ (s.flashLoads = false) ∧ (s.svc.commit = none) ∧ (4 ≤ l.length ∧ l.length ≤ 256 ∧ l.length % 4 = 0) ∧ (o.toNat + l.length ≤ 1048576)) ∧
    (∃ s : State, ∃ o : Word, ∃ l : List Byte, (s.Inv) ∧ (s.dev ≠ devUnpowered) ∧ (l.length < 4 ∨ 256 < l.length ∨ l.length % 4 ≠ 0 ∨ 1048576 < o.toNat + l.length ∨ s.rootRuns = false ∨ s.dev = devDramTrain ∨ s.dev = devBoot ∨ s.svc.commit.isSome = true ∨ s.flashLoads = true)) ∧
    (∃ s : State, ∃ c : Bool, (s.Inv) ∧ (s.rootRuns = true) ∧ (s.dev ≠ devDramTrain ∧ s.dev ≠ devBoot) ∧ (s.flashLoads = false) ∧ (c = false → s.dev = devLoad ∧ (s.su.benchWait = true ∨ s.su.stopped = true)) ∧ (s.svc.commit = none)) ∧
    (∃ s : State, ∃ l : List Byte, (s.Inv) ∧ (s.dev ≠ devUnpowered) ∧ (1 ≤ l.length ∧ l.length ≤ 1280)) ∧
    (∃ s : State, (s.Inv) ∧ (s.dev ≠ devUnpowered)) ∧
    (∃ s : State, (s.Inv) ∧ (s.rootRuns = true)) :=
  ⟨⟨State.reset.withF [(R.START_STATE_DEV_STATE, 6)], (0x20000000 : Word), by decide⟩,
    ⟨State.reset.withF [(R.START_STATE_DEV_STATE, 6)], (0x20010000 : Word), by decide⟩,
    ⟨State.reset.withF [(R.START_STATE_DEV_STATE, 1)], (BitVec.ofNat 32 R.START_OPT : Word), by decide⟩,
    ⟨State.reset.withF [(R.START_STATE_DEV_STATE, 1)], (BitVec.ofNat 32 R.START_OPT : Word), (1 : Word), by decide⟩,
    ⟨{ State.reset.withF [(R.START_STATE_DEV_STATE, 1)] with svc := { ofCommit := true, outcome := 77 } }, by decide⟩,
    ⟨State.reset.withF [(R.START_STATE_DEV_STATE, 6)], (8 : Word), ([1, 2, 3, 4] : List Byte), by decide⟩,
    ⟨State.reset.withF [(R.START_STATE_DEV_STATE, 4)], (8 : Word), ([1, 2, 3, 4] : List Byte), by decide⟩,
    ⟨State.reset.withF [(R.START_STATE_DEV_STATE, 6)], (true : Bool), by decide⟩,
    ⟨State.reset.withF [(R.START_STATE_DEV_STATE, 6)], ([1] : List Byte), by decide⟩,
    ⟨{ State.reset.withF [(R.START_STATE_DEV_STATE, 6)] with svc := { outbound := [.cmpCode 401, .cmpCode 404] } }, by decide⟩,
    ⟨State.reset.withF [(R.START_STATE_DEV_STATE, 6)], by decide⟩⟩

/-- States and operands that meet the hypotheses of each clause of CmpRequests. -/
theorem test_CmpRequests_witness :
    (∃ s : State, ∃ n : Fin 8, ∃ mid : Fin 65536, ∃ tun : Bool, ∃ u : Nat, ∃ c : Nat, ∃ v : Session, (s.Inv) ∧ (s.cmpReady n mid tun u = true) ∧ (Store.find? n.val s.ro.sessions = some v) ∧ (0 < c ∧ c ≤ 64)) ∧
    (∃ s : State, ∃ n : Fin 8, ∃ mid : Fin 65536, ∃ tun : Bool, ∃ u : Nat, ∃ f : ReqForm, (s.Inv) ∧ (s.cmpReady n mid tun u = true) ∧ ((f ≠ .good ∧ (Store.find? n.val s.ro.sessions).isSome = true) ∨ Store.find? n.val s.ro.sessions = none)) ∧
    (∃ s : State, ∃ n : Fin 8, ∃ mid : Fin 65536, ∃ u : Nat, ∃ a : Word, ∃ v : Session, ∃ x : Answered, (s.Inv) ∧ (s.firmwareUp = true) ∧ (Store.find? n.val s.ro.sessions = some v) ∧ ((s.cmp.answered.filter (fun a => decide (max s.mtb u < a.at_ + exchangeLife))).find? (fun a => a.session == n.val && a.mid == mid.val) = some x)) ∧
    (∃ s : State, ∃ n : Fin 8, ∃ mid : Fin 65536, ∃ tun : Bool, ∃ u : Nat, ∃ c : Nat, ∃ v : Session, (s.Inv) ∧ (s.cmpReady n mid tun u = true) ∧ (Store.find? n.val s.ro.sessions = some v) ∧ (c = 0 ∨ 64 < c)) ∧
    (∃ s : State, ∃ n : Fin 8, ∃ mid : Fin 65536, ∃ tun : Bool, ∃ u : Nat, ∃ l : List Word, ∃ v : Session, (s.Inv) ∧ (s.cmpReady n mid tun u = true) ∧ (Store.find? n.val s.ro.sessions = some v) ∧ (1 ≤ l.length ∧ l.length ≤ 64)) ∧
    (∃ s : State, ∃ n : Fin 8, ∃ mid : Fin 65536, ∃ tun : Bool, ∃ u : Nat, ∃ l : List Word, ∃ v : Session, (s.Inv) ∧ (s.cmpReady n mid tun u = true) ∧ (Store.find? n.val s.ro.sessions = some v) ∧ (l.length = 0 ∨ 64 < l.length)) ∧
    (∃ s : State, ∃ n : Fin 8, ∃ mid : Fin 65536, ∃ tun : Bool, ∃ u : Nat, ∃ k : Fin 11, ∃ op : Fin 256, ∃ v : Session, (s.Inv) ∧ (s.cmpReady n mid tun u = true) ∧ (Store.find? n.val s.ro.sessions = some v) ∧ (s.mayCall v k op = true) ∧ (s.cmp.tickets.length < 1024) ∧ ((s.cmp.tickets.filter (fun (x : Nat × Ticket) => x.2.role == v.role)).length < 256) ∧ ((k : Nat) ≠ svcKey) ∧ (svcHas k op = true)) ∧
    (∃ s : State, ∃ n : Fin 8, ∃ mid : Fin 65536, ∃ tun : Bool, ∃ u : Nat, ∃ k : Fin 11, ∃ op : Fin 256, ∃ v : Session, (s.Inv) ∧ (s.cmpReady n mid tun u = true) ∧ (Store.find? n.val s.ro.sessions = some v) ∧ (s.mayCall v k op = true) ∧ (s.cmp.tickets.length < 1024) ∧ ((s.cmp.tickets.filter (fun (x : Nat × Ticket) => x.2.role == v.role)).length < 256) ∧ (svcHas k op = false)) ∧
    (∃ s : State, ∃ n : Fin 8, ∃ mid : Fin 65536, ∃ tun : Bool, ∃ u : Nat, ∃ k : Fin 11, ∃ op : Fin 256, ∃ v : Session, (s.Inv) ∧ (s.cmpReady n mid tun u = true) ∧ (Store.find? n.val s.ro.sessions = some v) ∧ (s.mayCall v k op = false ∨ 1024 ≤ s.cmp.tickets.length ∨ 256 ≤ (s.cmp.tickets.filter (fun (x : Nat × Ticket) => x.2.role == v.role)).length)) ∧
    (∃ s : State, ∃ n : Fin 8, ∃ mid : Fin 65536, ∃ tun : Bool, ∃ u : Nat, ∃ v : Session, (s.Inv) ∧ (s.cmpReady n mid tun u = true) ∧ (Store.find? n.val s.ro.sessions = some v) ∧ (s.cmp.tickets.length < 1024) ∧ ((s.cmp.tickets.filter (fun (x : Nat × Ticket) => x.2.role == v.role)).length < 256) ∧ (s.ky.fifo.length < 16)) ∧
    (∃ s : State, ∃ n : Fin 8, ∃ mid : Fin 65536, ∃ tun : Bool, ∃ u : Nat, ∃ v : Session, (s.Inv) ∧ (s.cmpReady n mid tun u = true) ∧ (Store.find? n.val s.ro.sessions = some v) ∧ (s.cmp.tickets.length < 1024) ∧ ((s.cmp.tickets.filter (fun (x : Nat × Ticket) => x.2.role == v.role)).length < 256) ∧ (16 ≤ s.ky.fifo.length)) ∧
    (∃ s : State, ∃ n : Fin 8, ∃ mid : Fin 65536, ∃ tun : Bool, ∃ u : Nat, ∃ k : Word, ∃ v : Session, ∃ r : Ticket, (s.Inv) ∧ (s.cmpReady n mid tun u = true) ∧ (Store.find? n.val s.ro.sessions = some v) ∧ (Store.find? k.toNat s.cmp.tickets = some r) ∧ (r.role = v.role) ∧ (r.ready = true)) ∧
    (∃ s : State, ∃ n : Fin 8, ∃ mid : Fin 65536, ∃ tun : Bool, ∃ u : Nat, ∃ k : Word, ∃ v : Session, (s.Inv) ∧ (s.cmpReady n mid tun u = true) ∧ (Store.find? n.val s.ro.sessions = some v) ∧ ((match Store.find? k.toNat s.cmp.tickets with | some r => r.role == v.role && r.ready | none => false) = false)) ∧
    (∃ s : State, ∃ n : Fin 8, ∃ mid : Fin 65536, ∃ tun : Bool, ∃ u : Nat, ∃ v : Session, (s.Inv) ∧ (s.cmpReady n mid tun u = true) ∧ (Store.find? n.val s.ro.sessions = some v)) ∧
    (∃ s : State, ∃ x : Nat × Nat × Nat, ∃ l : List (Nat × Nat × Nat), (s.Inv) ∧ (s.firmwareUp = true) ∧ (s.notes = x :: l)) ∧
    (∃ s : State, ∃ n : Fin 8, ∃ v : Session, ∃ e : Event, ∃ l : List Event, (s.Inv) ∧ (s.firmwareUp = true) ∧ (Store.find? n.val s.noteOut.ro.sessions = some v) ∧ (v.queue = e :: l)) :=
  ⟨⟨{ wS [] with ro := { sessions := [(3, ⟨2, 77, 0, 0, false, false, [], 0, 0⟩)] } }, (3 : Fin 8), (9 : Fin 65536), (false : Bool), (40 : Nat), (2 : Nat), (⟨2, 77, 0, 0, false, false, [], 0, 0⟩ : Session), by decide⟩,
    ⟨{ wS [] with ro := { sessions := [(3, ⟨2, 77, 0, 0, false, false, [], 0, 0⟩)] } }, (3 : Fin 8), (9 : Fin 65536), (false : Bool), (40 : Nat), (.badCbor : ReqForm), by decide⟩,
    ⟨{ { wS [] with ro := { sessions := [(3, ⟨2, 77, 0, 0, false, false, [], 0, 0⟩)] } } with cmp := { answered := [⟨3, 9, 0, [.cmpCode 404]⟩] } }, (3 : Fin 8), (9 : Fin 65536), (40 : Nat), (0x20000000 : Word), (⟨2, 77, 0, 0, false, false, [], 0, 0⟩ : Session), (⟨3, 9, 0, [.cmpCode 404]⟩ : Answered), by decide⟩,
    ⟨{ wS [] with ro := { sessions := [(3, ⟨2, 77, 0, 0, false, false, [], 0, 0⟩)] } }, (3 : Fin 8), (9 : Fin 65536), (false : Bool), (40 : Nat), (65 : Nat), (⟨2, 77, 0, 0, false, false, [], 0, 0⟩ : Session), by decide⟩,
    ⟨{ wS [] with ro := { sessions := [(3, ⟨2, 77, 0, 0, false, false, [], 0, 0⟩)] } }, (3 : Fin 8), (9 : Fin 65536), (false : Bool), (40 : Nat), ([2] : List Word), (⟨2, 77, 0, 0, false, false, [], 0, 0⟩ : Session), by decide⟩,
    ⟨{ wS [] with ro := { sessions := [(3, ⟨2, 77, 0, 0, false, false, [], 0, 0⟩)] } }, (3 : Fin 8), (9 : Fin 65536), (false : Bool), (40 : Nat), ([] : List Word), (⟨2, 77, 0, 0, false, false, [], 0, 0⟩ : Session), by decide⟩,
    ⟨{ wS [] with ro := { sessions := [(3, ⟨2, 77, 0, 0, false, false, [], 0, 0⟩)] } }, (3 : Fin 8), (9 : Fin 65536), (false : Bool), (40 : Nat), (8 : Fin 11), (2 : Fin 256), (⟨2, 77, 0, 0, false, false, [], 0, 0⟩ : Session), by decide⟩,
    ⟨{ wS [] with ro := { sessions := [(3, ⟨2, 77, 0, 0, false, false, [], 0, 0⟩)] } }, (3 : Fin 8), (9 : Fin 65536), (false : Bool), (40 : Nat), (8 : Fin 11), (200 : Fin 256), (⟨2, 77, 0, 0, false, false, [], 0, 0⟩ : Session), by decide⟩,
    ⟨{ wS [] with ro := { sessions := [(3, ⟨1, 77, 0, 0, false, false, [], 0, 0⟩)] } }, (3 : Fin 8), (9 : Fin 65536), (false : Bool), (40 : Nat), (8 : Fin 11), (2 : Fin 256), (⟨1, 77, 0, 0, false, false, [], 0, 0⟩ : Session), by decide⟩,
    ⟨{ wS [] with ro := { sessions := [(3, ⟨2, 77, 0, 0, false, false, [], 0, 0⟩)] } }, (3 : Fin 8), (9 : Fin 65536), (false : Bool), (40 : Nat), (⟨2, 77, 0, 0, false, false, [], 0, 0⟩ : Session), by decide⟩,
    ⟨{ { wS [] with ro := { sessions := [(3, ⟨2, 77, 0, 0, false, false, [], 0, 0⟩)] } } with ky := { fifo := List.replicate 16 (.call 0 ⟨0, 0, 0, 0, 0, 0, [], 0, 0, false⟩) } }, (3 : Fin 8), (9 : Fin 65536), (false : Bool), (40 : Nat), (⟨2, 77, 0, 0, false, false, [], 0, 0⟩ : Session), by decide⟩,
    ⟨{ wS [] with ro := { sessions := [(3, ⟨2, 77, 0, 0, false, false, [], 0, 0⟩)] }, cmp := { tickets := [(5, ⟨2, 1, 1, true, false, 7, [], 0⟩)] } }, (3 : Fin 8), (9 : Fin 65536), (false : Bool), (40 : Nat), (5 : Word), (⟨2, 77, 0, 0, false, false, [], 0, 0⟩ : Session), (⟨2, 1, 1, true, false, 7, [], 0⟩ : Ticket), by decide⟩,
    ⟨{ wS [] with ro := { sessions := [(3, ⟨2, 77, 0, 0, false, false, [], 0, 0⟩)] }, cmp := { tickets := [(5, ⟨2, 1, 1, true, false, 7, [], 0⟩)] } }, (3 : Fin 8), (9 : Fin 65536), (false : Bool), (40 : Nat), (6 : Word), (⟨2, 77, 0, 0, false, false, [], 0, 0⟩ : Session), by decide⟩,
    ⟨{ wS [] with ro := { sessions := [(3, ⟨2, 77, 0, 0, false, false, [], 0, 0⟩)] } }, (3 : Fin 8), (9 : Fin 65536), (false : Bool), (40 : Nat), (⟨2, 77, 0, 0, false, false, [], 0, 0⟩ : Session), by decide⟩,
    ⟨{ wS [] with notes := [(0x20010028, 3, 8)], ro := { sessions := [(3, ⟨2, 77, 0, 0, true, false, [], 0, 0⟩)] } }, ((0x20010028, 3, 8) : Nat × Nat × Nat), ([] : List (Nat × Nat × Nat)), by decide⟩,
    ⟨{ wS [] with ro := { sessions := [(3, ⟨2, 77, 0, 0, true, false, [⟨1, 2, 4, 8, 1⟩], 0, 3⟩)] } }, (3 : Fin 8), (⟨2, 77, 0, 0, true, false, [⟨1, 2, 4, 8, 1⟩], 0, 3⟩ : Session), (⟨1, 2, 4, 8, 1⟩ : Event), ([] : List Event), by decide⟩⟩

/-- States and operands that meet the hypotheses of each clause of SessionsAndCredentials. -/
theorem test_SessionsAndCredentials_witness :
    (∃ s : State, ∃ mid : Fin 65536, ∃ tun : Bool, ∃ u : Nat, ∃ f : ReqForm, ∃ d : BitVec 256, ∃ c : Cred, (s.Inv) ∧ (s.cmpReady (16 + d.toNat) mid tun u = true) ∧ (f = .good ∨ f = .unprotected ∨ f = .noDecrypt) ∧ (s.credOf d.toNat = some c) ∧ (s.ro.shakes.length < 4)) ∧
    (∃ s : State, ∃ mid : Fin 65536, ∃ tun : Bool, ∃ u : Nat, ∃ f : ReqForm, ∃ d : BitVec 256, (s.Inv) ∧ (s.cmpReady (16 + d.toNat) mid tun u = true) ∧ (f = .good ∨ f = .unprotected ∨ f = .noDecrypt) ∧ (s.credOf d.toNat = none ∨ 4 ≤ s.ro.shakes.length)) ∧
    (∃ s : State, ∃ mid : Fin 65536, ∃ tun : Bool, ∃ u : Nat, ∃ f : ReqForm, ∃ d : BitVec 256, (s.Inv) ∧ (s.cmpReady (16 + d.toNat) mid tun u = true) ∧ (f = .replayed ∨ f = .badCbor ∨ f = .badPath)) ∧
    (∃ s : State, ∃ mid : Fin 65536, ∃ tun : Bool, ∃ u : Nat, ∃ f : ReqForm, ∃ d : BitVec 256, ∃ h : Handshake, ∃ c : Cred, ∃ n : Nat, (s.Inv) ∧ (s.cmpReady (16 + d.toNat) mid tun u = true) ∧ (f = .good ∨ f = .unprotected ∨ f = .noDecrypt) ∧ (s.ro.shakes.find? (fun h => h.digest == d.toNat) = some h) ∧ (s.credOf d.toNat = some c) ∧ (max s.mtb u ≤ h.sentAt + 10 * secCyc) ∧ (s.freeSession = some n) ∧ (s.auditRoom = true)) ∧
    (∃ s : State, ∃ mid : Fin 65536, ∃ tun : Bool, ∃ u : Nat, ∃ f : ReqForm, ∃ d : BitVec 256, ∃ h : Handshake, (s.Inv) ∧ (s.cmpReady (16 + d.toNat) mid tun u = true) ∧ (f = .good ∨ f = .unprotected ∨ f = .noDecrypt) ∧ (s.ro.shakes.find? (fun h => h.digest == d.toNat) = some h) ∧ (h.sentAt + 10 * secCyc < max s.mtb u ∨ s.credOf d.toNat = none)) ∧
    (∃ s : State, ∃ mid : Fin 65536, ∃ tun : Bool, ∃ u : Nat, ∃ f : ReqForm, ∃ d : BitVec 256, (s.Inv) ∧ (s.cmpReady (16 + d.toNat) mid tun u = true) ∧ (f = .replayed ∨ f = .badCbor ∨ f = .badPath ∨ s.ro.shakes.find? (fun h => h.digest == d.toNat) = none)) ∧
    (∃ s : State, ∃ mid : Fin 65536, ∃ tun : Bool, ∃ u : Nat, ∃ f : ReqForm, ∃ n : Fin 8, (s.Inv) ∧ (s.cmpReady (8 + n.val) mid tun u = true) ∧ (f = .good ∨ f = .unprotected ∨ f = .noDecrypt) ∧ ((Store.find? n.val s.ro.sessions).isSome = true)) ∧
    (∃ s : State, ∃ mid : Fin 65536, ∃ tun : Bool, ∃ u : Nat, ∃ f : ReqForm, ∃ n : Fin 8, (s.Inv) ∧ (s.cmpReady (8 + n.val) mid tun u = true) ∧ (f = .replayed ∨ f = .badCbor ∨ f = .badPath)) ∧
    (∃ s : State, ∃ n : Fin 8, ∃ u : Nat, ∃ v : Session, (s.Inv) ∧ (Store.find? n.val s.ro.sessions = some v) ∧ (v.lastReq + s.getF R.ROLE_CFG_IDLE_S * secCyc ≤ max s.mtb u)) ∧
    (∃ s : State, ∃ u : Nat, ∃ h : Handshake, (s.Inv) ∧ (s.ro.shakes.find? (fun h => decide (h.sentAt + 10 * secCyc ≤ max s.mtb u)) = some h)) ∧
    (∃ s : State, ∃ k : Nat, ∃ role : Fin 4, ∃ r : Ticket, (s.Inv) ∧ (s.openCall k svcRole 2 = some r) ∧ (Store.find? k s.cmp.tickets = some r) ∧ ((r.role = 2 ∨ (r.role = 3 ∧ (role : Nat) = 3)) ∧ (role : Nat) ≠ 0) ∧ (s.auditRoom = true)) ∧
    (∃ s : State, ∃ k : Nat, ∃ d : BitVec 256, ∃ r : Ticket, ∃ c : Cred, (s.Inv) ∧ (s.openCall k svcRole 3 = some r) ∧ (Store.find? k s.cmp.tickets = some r) ∧ (r.role = 2 ∨ (r.role = 3 ∧ c.role = 3)) ∧ (s.credOf d.toNat = some c) ∧ (c.pricking = false) ∧ (c.role = 2 → 1 < (s.ro.creds.filter (fun v => v.role == 2)).length) ∧ (s.auditRoom = true)) :=
  ⟨⟨{ wS [] with ro := { creds := [⟨2, 77, 99, true⟩] } }, (9 : Fin 65536), (false : Bool), (12 : Nat), (.good : ReqForm), (77 : BitVec 256), (⟨2, 77, 99, true⟩ : Cred), by decide⟩,
    ⟨{ wS [] with ro := { creds := [⟨2, 77, 99, true⟩] } }, (9 : Fin 65536), (false : Bool), (12 : Nat), (.good : ReqForm), (78 : BitVec 256), by decide⟩,
    ⟨{ wS [] with ro := { creds := [⟨2, 77, 99, true⟩] } }, (9 : Fin 65536), (false : Bool), (12 : Nat), (.badPath : ReqForm), (78 : BitVec 256), by decide⟩,
    ⟨{ wS [] with ro := { creds := [⟨2, 77, 99, true⟩], shakes := [⟨77, 5, 6, 7, 8⟩] } }, (9 : Fin 65536), (false : Bool), (12 : Nat), (.good : ReqForm), (77 : BitVec 256), (⟨77, 5, 6, 7, 8⟩ : Handshake), (⟨2, 77, 99, true⟩ : Cred), (3 : Nat), by decide⟩,
    ⟨{ wS [] with ro := { creds := [⟨2, 77, 99, true⟩], shakes := [⟨77, 5, 6, 7, 8⟩] } }, (9 : Fin 65536), (false : Bool), (20000000000 : Nat), (.good : ReqForm), (77 : BitVec 256), (⟨77, 5, 6, 7, 8⟩ : Handshake), by decide⟩,
    ⟨{ wS [] with ro := { creds := [⟨2, 77, 99, true⟩] } }, (9 : Fin 65536), (false : Bool), (12 : Nat), (.good : ReqForm), (77 : BitVec 256), by decide⟩,
    ⟨{ wS [] with ro := { sessions := [(3, ⟨2, 77, 0, 0, false, false, [], 0, 0⟩)] } }, (9 : Fin 65536), (false : Bool), (12 : Nat), (.good : ReqForm), (3 : Fin 8), by decide⟩,
    ⟨{ wS [] with ro := { sessions := [(3, ⟨2, 77, 0, 0, false, false, [], 0, 0⟩)] } }, (9 : Fin 65536), (false : Bool), (12 : Nat), (.badCbor : ReqForm), (3 : Fin 8), by decide⟩,
    ⟨{ wS [] with ro := { sessions := [(3, ⟨2, 77, 0, 0, false, false, [], 0, 0⟩)] } }, (3 : Fin 8), (1289062500000 : Nat), (⟨2, 77, 0, 0, false, false, [], 0, 0⟩ : Session), by decide⟩,
    ⟨{ wS [] with ro := { shakes := [⟨77, 5, 6, 7, 8⟩] } }, (20000000000 : Nat), (⟨77, 5, 6, 7, 8⟩ : Handshake), by decide⟩,
    ⟨{ wS [] with cmp := { tickets := [(5, ⟨2, 8, 2, false, false, 0, [], 0⟩)] } }, (5 : Nat), (3 : Fin 4), (⟨2, 8, 2, false, false, 0, [], 0⟩ : Ticket), by decide⟩,
    ⟨{ wS [] with ro := { creds := [⟨1, 77, 99, false⟩], sessions := [(4, ⟨1, 77, 0, 0, true, false, [], 0, 0⟩), (5, ⟨1, 78, 0, 0, true, false, [], 0, 0⟩)] }, cmp := { tickets := [(5, ⟨2, 8, 3, false, false, 0, [], 0⟩)] } }, (5 : Nat), (77 : BitVec 256), (⟨2, 8, 3, false, false, 0, [], 0⟩ : Ticket), (⟨1, 77, 99, false⟩ : Cred), by decide⟩⟩

/-- States and operands that meet the hypotheses of each clause of ReleaseAndAudit. -/
theorem test_ReleaseAndAudit_witness :
    (∃ s : State, ∃ k : Nat, ∃ r : Ticket, (s.Inv) ∧ (s.openCall k svcRole 4 = some r) ∧ (Store.find? k s.cmp.tickets = some r) ∧ (s.dev = devService) ∧ (s.ownerState = 1) ∧ ((s.checkpoint?).isSome = true)) ∧
    (∃ s : State, ∃ k : Nat, ∃ r : Ticket, (s.Inv) ∧ (s.openCall k svcRole 6 = some r) ∧ (s.dev = devReturned) ∧ (s.ro.visits < 16) ∧ (s.auditRoom = true)) ∧
    (∃ s : State, ∃ k : Nat, ∃ r : Ticket, (s.Inv) ∧ (s.openCall k svcRole 7 = some r) ∧ (Store.find? k s.cmp.tickets = some r) ∧ (s.dev = devReturned) ∧ (s.auditRoom = true)) ∧
    (∃ s : State, ∃ k : Nat, ∃ n : Nat, ∃ r : Ticket, (s.Inv) ∧ (s.openCall k svcAudit 1 = some r) ∧ (Store.find? k s.cmp.tickets = some r) ∧ (0 < n ∧ n ≤ 64)) ∧
    (∃ s : State, ∃ k : Nat, ∃ r : Ticket, (s.Inv) ∧ (s.openCall k svcAudit 2 = some r) ∧ (Store.find? k s.cmp.tickets = some r) ∧ (s.ro.closed = []) ∧ (s.ro.due = false) ∧ (s.ro.cur.length < 63 ∨ s.ro.sincePgs + 1 < s.getF R.ROLE_CFG_CKPT_PAGES)) ∧
    (∃ s : State, ∃ k : Nat, ∃ r : Ticket, (s.Inv) ∧ (s.openCall k svcAudit 3 = some r) ∧ (Store.find? k s.cmp.tickets = some r)) ∧
    (∃ s : State, (s.Inv) ∧ (s.ro.closed = []) ∧ (s.ro.due = false) ∧ (s.ro.cur.length < 63 ∨ s.ro.sincePgs + 1 < s.getF R.ROLE_CFG_CKPT_PAGES)) ∧
    (∃ s : State, ∃ p : List Byte, ∃ l : List (List Byte), (s.Inv) ∧ (s.ro.closed = p :: l) ∧ (128 ≤ s.ro.pages → s.ro.pages % 64 = 0 → s.ro.pages - 65 < s.ro.covered) ∧ (s.ro.due = false)) :=
  ⟨⟨{ wS [(R.TAMPER_STATE_OWNER, 1)] with cmp := { tickets := [(5, ⟨2, 8, 4, false, false, 0, [], 0⟩)] } }, (5 : Nat), (⟨2, 8, 4, false, false, 0, [], 0⟩ : Ticket), by decide⟩,
    ⟨{ wS [(R.START_STATE_DEV_STATE, 11)] with cmp := { tickets := [(5, ⟨2, 8, 6, false, false, 0, [], 0⟩)] } }, (5 : Nat), (⟨2, 8, 6, false, false, 0, [], 0⟩ : Ticket), by decide⟩,
    ⟨{ wS [(R.START_STATE_DEV_STATE, 11)] with cmp := { tickets := [(5, ⟨2, 8, 7, false, false, 0, [], 0⟩)] } }, (5 : Nat), (⟨2, 8, 7, false, false, 0, [], 0⟩ : Ticket), by decide⟩,
    ⟨{ wS [] with cmp := { tickets := [(5, ⟨2, 9, 1, false, false, 0, [], 0⟩)] }, ro := { seq := 1, cur := [leBytes 4 1 ++ leBytes 60 8] } }, (5 : Nat), (2 : Nat), (⟨2, 9, 1, false, false, 0, [], 0⟩ : Ticket), by decide⟩,
    ⟨{ wS [] with cmp := { tickets := [(5, ⟨2, 9, 2, false, false, 0, [], 0⟩)] } }, (5 : Nat), (⟨2, 9, 2, false, false, 0, [], 0⟩ : Ticket), by decide⟩,
    ⟨{ wS [] with cmp := { tickets := [(5, ⟨2, 9, 3, false, false, 0, [], 0⟩)] }, ro := { seq := 6, ckptSeq := 4 } }, (5 : Nat), (⟨2, 9, 3, false, false, 0, [], 0⟩ : Ticket), by decide⟩,
    ⟨wS [], by decide⟩,
    ⟨{ wS [] with ro := { closed := [[1, 0, 0, 0, 10]], pages := 1 } }, ([1, 0, 0, 0, 10] : List Byte), ([] : List (List Byte)), by decide⟩⟩

/-- States and operands that meet the hypotheses of each clause of PtpMessages. -/
theorem test_PtpMessages_witness :
    (∃ s : State, ∃ d : Fin 2, ∃ p : Fin 2, ∃ v : PtpVia, (s.Inv) ∧ (s.domState (d + 1) ≠ 0) ∧ (s.ptpHears (d + 1) p v = true)) ∧
    (∃ s : State, ∃ d : Fin 2, ∃ p : Fin 2, ∃ v : PtpVia, ∃ c : Bool, (s.Inv) ∧ (s.domState (d + 1) = 0 ∨ c = false ∨ s.ptpHears (d + 1) p v = false)) ∧
    (∃ s : State, ∃ d : Fin 2, ∃ p : Fin 2, ∃ v : PtpVia, (s.Inv) ∧ (s.ptpTakes (d + 1) p v = true)) ∧
    (∃ s : State, ∃ d : Fin 2, ∃ p : Fin 2, ∃ v : PtpVia, ∃ x : Int, ∃ y : Int, ∃ u : Nat, (s.Inv) ∧ (s.ptpTakes (d + 1) p v = true) ∧ (y = (s.advance u).rxStamp p u - x - ((s.domDelay (d + 1)).getD 0) - signed 32 (s.getF (R.TIME_DOM_ASYM_ASYM d)))) ∧
    (∃ s : State, ∃ d : Fin 2, ∃ p : Fin 2, ∃ v : PtpVia, (s.Inv) ∧ (s.ptpTakes (d + 1) p v = false)) ∧
    (∃ s : State, ∃ d : Fin 2, ∃ p : Fin 2, ∃ v : PtpVia, ∃ x : Int, ∃ y : Int, ∃ z : Int, (s.Inv) ∧ (s.ptpTakes (d + 1) p v = true) ∧ ((s.domain (d + 1)).syncAt = some z) ∧ (y = z - x - ((s.domDelay (d + 1)).getD 0) - signed 32 (s.getF (R.TIME_DOM_ASYM_ASYM d)))) ∧
    (∃ s : State, ∃ d : Fin 2, ∃ p : Fin 2, ∃ v : PtpVia, (s.Inv) ∧ (s.ptpTakes (d + 1) p v = false ∨ (s.domain (d + 1)).syncAt = none)) ∧
    (∃ s : State, ∃ d : Fin 2, ∃ p : Fin 2, ∃ v : PtpVia, ∃ y : Int, ∃ z : Int, (s.Inv) ∧ (s.ptpTakes (d + 1) p v = true) ∧ (s.isSet (R.TIME_DOM_STAT_DELAY d) = false) ∧ ((s.domain (d + 1)).rawMs = some y) ∧ ((s.domain (d + 1)).reqAt = some z)) ∧
    (∃ s : State, ∃ p : Fin 2, ∃ v : PtpVia, (s.Inv) ∧ ((s.domState 1 ≠ 0 ∧ s.isSet (R.TIME_DOM_STAT_DELAY 0) = true ∧ s.ptpHears 1 p v = true) ∨ (s.domState 2 ≠ 0 ∧ s.isSet (R.TIME_DOM_STAT_DELAY 1) = true ∧ s.ptpHears 2 p v = true))) ∧
    (∃ s : State, ∃ d : Fin 2, ∃ p : Fin 2, ∃ v : PtpVia, ∃ z : Int, (s.Inv) ∧ (s.ptpTakes (d + 1) p v = true) ∧ (s.isSet (R.TIME_DOM_STAT_DELAY d) = true) ∧ ((s.domain (d + 1)).reqAt = some z)) ∧
    (∃ s : State, ∃ d : Fin 2, ∃ u : Nat, ∃ a : Int, (s.Inv) ∧ (2 ≤ s.domState (d + 1)) ∧ (s.uplCarries (s.getF (R.TIME_DOM_STAT_PORT d)) = true) ∧ ((s.domain (d + 1)).sentAt.all (fun x => decide (x + (s.domain (d + 1)).gap ≤ max s.mtb u)) = true) ∧ (a = (s.advance u).txStamp (s.getF (R.TIME_DOM_STAT_PORT d)) u)) ∧
    (∃ s : State, ∃ d : Fin 2, ∃ u : Nat, ∃ a : Nat, (s.Inv) ∧ (s.domState (d + 1) < 2 ∨ s.uplCarries (s.getF (R.TIME_DOM_STAT_PORT d)) = false ∨ ((s.domain (d + 1)).sentAt = some a ∧ max s.mtb u < a + (s.domain (d + 1)).gap))) ∧
    (∃ s : State, ∃ d : Fin 2, (s.Inv) ∧ (2 ≤ s.domState (d + 1))) ∧
    (∃ s : State, ∃ d : Fin 2, (s.Inv) ∧ (s.domState (d + 1) < 2)) ∧
    (∃ s : State, ∃ d : Fin 2, ∃ u : Nat, (s.Inv) ∧ (s.domState (d + 1) = 4) ∧ ((s.domain (d + 1)).refer = 0) ∧ ((s.domain (d + 1)).frozenAt + s.getF R.TIME_CFG_FREEZE_S * secCyc ≤ max s.mtb u)) ∧
    (∃ s : State, ∃ d : Fin 2, ∃ u : Nat, (s.Inv) ∧ (s.domState (d + 1) ≠ 4 ∨ (s.domain (d + 1)).refer ≠ 0 ∨ max s.mtb u < (s.domain (d + 1)).frozenAt + s.getF R.TIME_CFG_FREEZE_S * secCyc)) :=
  ⟨⟨wS [(R.TIME_DOM_STAT_STATE 1, 1), (R.UPL_STAT_LINK_UP 1, 1)], (1 : Fin 2), (1 : Fin 2), (.ethernet : PtpVia), by decide⟩,
    ⟨wS [(R.TIME_DOM_STAT_STATE 1, 1), (R.UPL_STAT_LINK_UP 1, 1)], (1 : Fin 2), (1 : Fin 2), (.other : PtpVia), (true : Bool), by decide⟩,
    ⟨wS [(R.TIME_DOM_STAT_STATE 1, 2), (R.UPL_STAT_LINK_UP 0, 1)], (1 : Fin 2), (0 : Fin 2), (.ethernet : PtpVia), by decide⟩,
    ⟨wS [(R.TIME_DOM_STAT_STATE 1, 2), (R.UPL_STAT_LINK_UP 0, 1)], (1 : Fin 2), (0 : Fin 2), (.ethernet : PtpVia), (40 : Int), (-25 : Int), (5 : Nat), by decide⟩,
    ⟨wS [(R.TIME_DOM_STAT_STATE 1, 2)], (1 : Fin 2), (0 : Fin 2), (.ethernet : PtpVia), by decide⟩,
    ⟨{ wS [(R.TIME_DOM_STAT_STATE 1, 2), (R.UPL_STAT_LINK_UP 0, 1)] with tm := { dom2 := { syncAt := some 100 } } }, (1 : Fin 2), (0 : Fin 2), (.ethernet : PtpVia), (40 : Int), (60 : Int), (100 : Int), by decide⟩,
    ⟨wS [(R.TIME_DOM_STAT_STATE 1, 2), (R.UPL_STAT_LINK_UP 0, 1)], (1 : Fin 2), (0 : Fin 2), (.ethernet : PtpVia), by decide⟩,
    ⟨{ wS [(R.TIME_DOM_STAT_STATE 1, 2), (R.TIME_DOM_DELAY_V 1, 0x80000000), (R.UPL_STAT_LINK_UP 0, 1)] with tm := { dom2 := { rawMs := some 100, reqAt := some 300 } } }, (1 : Fin 2), (0 : Fin 2), (.ethernet : PtpVia), (100 : Int), (300 : Int), by decide⟩,
    ⟨wS [(R.TIME_DOM_STAT_STATE 0, 1), (R.TIME_DOM_STAT_DELAY 0, 1), (R.TIME_CFG_ONE_STEP, 1), (R.UPL_STAT_LINK_UP 1, 1)], (1 : Fin 2), (.udp6 : PtpVia), by decide⟩,
    ⟨{ wS [(R.TIME_DOM_STAT_STATE 1, 2), (R.TIME_DOM_STAT_DELAY 1, 1), (R.TIME_DOM_DELAY_V 1, 0x80000000), (R.UPL_STAT_LINK_UP 0, 1)] with tm := { dom2 := { reqAt := some 300 } } }, (1 : Fin 2), (0 : Fin 2), (.ethernet : PtpVia), (300 : Int), by decide⟩,
    ⟨wS [(R.TIME_DOM_STAT_STATE 1, 2), (R.UPL_STAT_LINK_UP 0, 1)], (1 : Fin 2), (5120 : Nat), (15887 : Int), by decide⟩,
    ⟨{ wS [(R.TIME_DOM_STAT_STATE 1, 2), (R.UPL_STAT_LINK_UP 0, 1)] with tm := { dom2 := { sentAt := some 100, interval := some 0 } } }, (1 : Fin 2), (500 : Nat), (100 : Nat), by decide⟩,
    ⟨wS [(R.TIME_DOM_STAT_STATE 1, 3), (R.TIME_STATE_SEL, 2)], (1 : Fin 2), by decide⟩,
    ⟨wS [(R.TIME_DOM_STAT_STATE 1, 1)], (1 : Fin 2), by decide⟩,
    ⟨wS [(R.TIME_DOM_STAT_STATE 1, 4), (R.TIME_CFG_FREEZE_S, 1)], (1 : Fin 2), (1320000000 : Nat), by decide⟩,
    ⟨wS [(R.TIME_DOM_STAT_STATE 1, 4), (R.TIME_CFG_FREEZE_S, 2)], (1 : Fin 2), (1320000000 : Nat), by decide⟩⟩

/-- States and operands that meet the hypotheses of each clause of DeviceTimeAndPeerTime. -/
theorem test_DeviceTimeAndPeerTime_witness :
    (∃ s : State, ∃ d : Nat, ∃ a : Nat, ∃ q : Int, (s.Inv) ∧ (s.tm.step = some (d, a)) ∧ (s.domOffset d = some q)) ∧
    (∃ s : State, (s.Inv) ∧ (s.tm.step = none)) ∧
    (∃ s : State, ∃ u : Nat, (s.Inv) ∧ (s.running = true) ∧ (s.getF R.TIME_CFG_LOCK_WAIT_S ≠ 0) ∧ (s.tm.runAt + s.getF R.TIME_CFG_LOCK_WAIT_S * secCyc ≤ max s.mtb u)) ∧
    (∃ s : State, ∃ u : Nat, (s.Inv) ∧ (s.running = false ∨ s.getF R.TIME_CFG_LOCK_WAIT_S = 0 ∨ max s.mtb u < s.tm.runAt + s.getF R.TIME_CFG_LOCK_WAIT_S * secCyc)) ∧
    (∃ s : State, ∃ q : Int, (s.Inv) ∧ (s.isSet R.TIME_STATE_REFUSED = true) ∧ ((s.getF R.TIME_STATE_SEL ≠ 3 ∧ s.domOffset (s.getF R.TIME_STATE_SEL) = some q) ∨ (s.getF R.TIME_STATE_SEL = 3 ∧ s.peerOffset = some (-q)))) ∧
    (∃ s : State, (s.Inv) ∧ (s.isSet R.TIME_STATE_REFUSED = false)) ∧
    (∃ s : State, ∃ k : Fin 4, (s.Inv) ∧ (k = 1 ∨ k = 2) ∧ (s.domState k = 3) ∧ (s.pairRole ≠ 2)) ∧
    (∃ s : State, ∃ k : Fin 4, (s.Inv) ∧ (k = 0 ∨ s.getF R.TIME_CTRL_SEL_DOM = k)) ∧
    (∃ s : State, ∃ k : Fin 4, (s.Inv) ∧ (s.getF R.TIME_CTRL_SEL_DOM ≠ k) ∧ (k = 3 ∨ (k ≠ 0 ∧ s.domState k ≠ 3))) ∧
    (∃ s : State, (s.Inv) ∧ (s.isSet R.PAIR_STATE_TIE_UP = true)) ∧
    (∃ s : State, (s.Inv) ∧ (s.isSet R.PAIR_STATE_TIE_UP = false)) ∧
    (∃ s : State, ∃ u : Nat, (s.Inv) ∧ (s.tm.peerAt.all (fun a => decide (a + 8 * 1048576 ≤ max s.mtb u)) = true)) ∧
    (∃ s : State, ∃ u : Nat, ∃ a : Nat, (s.Inv) ∧ (s.tm.peerAt = some a) ∧ (max s.mtb u < a + 8 * 1048576)) :=
  ⟨⟨{ wS [] with tm := { step := some (1, 1000), dom1 := { offset := some 400 } } }, (1 : Nat), (1000 : Nat), (400 : Int), by decide⟩,
    ⟨wS [], by decide⟩,
    ⟨wS [(R.TIME_CFG_LOCK_WAIT_S, 1)], (1320000000 : Nat), by decide⟩,
    ⟨wS [(R.TIME_CFG_LOCK_WAIT_S, 2)], (1320000000 : Nat), by decide⟩,
    ⟨{ wS [(R.TIME_STATE_REFUSED, 1), (R.TIME_STATE_SEL, 1), (R.TIME_LIMIT_SLEW, 100)] with tm := { dom1 := { offset := some 400 } } }, (400 : Int), by decide⟩,
    ⟨wS [], by decide⟩,
    ⟨wS [(R.TIME_DOM_STAT_STATE 1, 3)], (2 : Fin 4), by decide⟩,
    ⟨wS [(R.TIME_CTRL_SEL_DOM, 2)], (0 : Fin 4), by decide⟩,
    ⟨wS [(R.TIME_DOM_STAT_STATE 1, 2)], (2 : Fin 4), by decide⟩,
    ⟨wS [(R.PAIR_STATE_TIE_UP, 1)], by decide⟩,
    ⟨wS [], by decide⟩,
    ⟨{ wS [(R.TIME_PEER_OFFSET, 5)] with tm := { peerAt := some 5 } }, (8388613 : Nat), by decide⟩,
    ⟨{ wS [(R.TIME_PEER_OFFSET, 5)] with tm := { peerAt := some 5 } }, (8388612 : Nat), (5 : Nat), by decide⟩⟩

/-- States and operands that meet the hypotheses of each clause of TransceiverCommands. -/
theorem test_TransceiverCommands_witness :
    (∃ s : State, ∃ n : Fin 4, ∃ g : Fin 4, (s.Inv) ∧ (s.trxBar n g false = none)) ∧
    (∃ s : State, ∃ n : Fin 4, ∃ g : Fin 4, ∃ w : Nat, (s.Inv) ∧ (s.trxBar n g false = some w)) ∧
    (∃ s : State, ∃ n : Fin 4, ∃ g : Fin 4, (s.Inv) ∧ (s.trxBar n g true = none)) ∧
    (∃ s : State, ∃ n : Fin 4, ∃ g : Fin 4, ∃ w : Nat, (s.Inv) ∧ (s.trxBar n g true = some w)) ∧
    (∃ s : State, ∃ n : Fin 4, ∃ d : Nat, ∃ e : Nat, (s.Inv) ∧ ((s.trx n).step = some (d, e)) ∧ (s.trxState n ≠ 5) ∧ (d < 5)) ∧
    (∃ s : State, ∃ n : Fin 4, (s.Inv) ∧ ((s.trx n).step = none ∨ s.trxState n = 5)) ∧
    (∃ s : State, ∃ n : Fin 4, ∃ d : Nat, ∃ e : Nat, (s.Inv) ∧ ((s.trx n).step = some (d, e)) ∧ (s.trxState n = 5)) ∧
    (∃ s : State, ∃ n : Fin 4, (s.Inv) ∧ ((s.trx n).step = none ∨ s.trxState n ≠ 5)) ∧
    (∃ s : State, ∃ n : Fin 4, (s.Inv) ∧ (s.trxState n = 2 ∨ s.trxState n = 3 ∨ s.trxState n = 4)) ∧
    (∃ s : State, ∃ n : Fin 4, (s.Inv) ∧ (s.trxState n < 2 ∨ 4 < s.trxState n)) ∧
    (∃ s : State, ∃ n : Fin 4, ∃ u : Nat, (s.Inv) ∧ (s.narrow n = true) ∧ ((s.trx n).bgAt.all (fun b => decide (b + s.getF (R.TRX_CAL_BG_PERIOD n) * secCyc ≤ max s.mtb u)) = true)) ∧
    (∃ s : State, ∃ n : Fin 4, ∃ u : Nat, ∃ b : Nat, (s.Inv) ∧ (s.narrow n = false ∨ ((s.trx n).bgAt = some b ∧ max s.mtb u < b + s.getF (R.TRX_CAL_BG_PERIOD n) * secCyc))) ∧
    (∃ s : State, ∃ n : Fin 4, ∃ b : Bool, ∃ u : Nat, (s.Inv) ∧ (s.narrow n = true) ∧ (s.pathOn n b = true) ∧ ((s.trx n).bgRuns = true) ∧ (s.trxState n = 3 ∧ (s.trx n).step = none) ∧ ((s.advance u).bgClear n = true) ∧ ((s.lanesOf n).all (fun l => s.laneState l == 0 || (decide (2 ≤ s.laneState l ∧ s.laneState l ≤ 4) && s.isSet (R.LANE_STATE_PATH l) != b)) = true) ∧ ((s.trx n).bgLast = 0 ∨ (s.trx n).bgLast + 4 * 3960 ≤ max s.mtb u)) ∧
    (∃ s : State, ∃ n : Fin 4, ∃ b : Bool, ∃ u : Nat, (s.Inv) ∧ (s.narrow n = false ∨ s.pathOn n b = false ∨ (s.trx n).bgRuns = false ∨ s.trxState n ≠ 3 ∨ (s.trx n).step ≠ none ∨ (s.advance u).bgClear n = false)) ∧
    (∃ s : State, ∃ n : Fin 4, ∃ c : TxCmd, (s.Inv) ∧ (planHead (s.trx n).plan = some c) ∧ (s.coexOn n = true) ∧ ((s.trx n).coexNext = none) ∧ (c.planned = true)) ∧
    (∃ s : State, ∃ n : Fin 4, (s.Inv) ∧ (planHead (s.trx n).plan = none ∨ s.coexOn n = false ∨ (s.trx n).coexNext ≠ none)) ∧
    (∃ s : State, ∃ n : Fin 4, ∃ u : Nat, ∃ c : TxCmd, (s.Inv) ∧ ((s.trx n).onAir = some c) ∧ (s.coexOn n = true) ∧ (s.isSet (R.TRX_COEX_ABORT n) = true) ∧ (c.dep ≤ max s.mtb u)) ∧
    (∃ s : State, ∃ n : Fin 4, (s.Inv) ∧ ((s.trx n).onAir = none ∨ s.coexOn n = false ∨ s.isSet (R.TRX_COEX_ABORT n) = false)) :=
  ⟨⟨wS [(R.TRX_STATE_STATE 1, 1), (R.TRX_STATE_TARGET 1, 1)], (1 : Fin 4), (3 : Fin 4), by decide⟩,
    ⟨wS [(R.TRX_STATE_STATE 1, 5)], (1 : Fin 4), (3 : Fin 4), (ST.TRX_BUSY 1 : Nat), by decide⟩,
    ⟨wS [(R.TRX_STATE_STATE 1, 1), (R.TRX_STATE_TARGET 1, 1)], (1 : Fin 4), (3 : Fin 4), by decide⟩,
    ⟨wS [(R.TRX_STATE_STATE 1, 5)], (1 : Fin 4), (3 : Fin 4), (ST.TRX_BUSY 1 : Nat), by decide⟩,
    ⟨{ wS [(R.TRX_STATE_STATE 1, 0), (R.TRX_STATE_TARGET 1, 3)] with rd := { trxs := [(1, { step := some (1, 70) })] } }, (1 : Fin 4), (1 : Nat), (70 : Nat), by decide⟩,
    ⟨wS [(R.TRX_STATE_STATE 1, 3)], (1 : Fin 4), by decide⟩,
    ⟨{ wS [(R.TRX_STATE_STATE 1, 5), (R.TRX_STATE_TARGET 1, 3)] with rd := { trxs := [(1, { step := some (1, 70), cal := 1 })] } }, (1 : Fin 4), (1 : Nat), (70 : Nat), by decide⟩,
    ⟨wS [(R.TRX_STATE_STATE 1, 3)], (1 : Fin 4), by decide⟩,
    ⟨wS [(R.TRX_STATE_STATE 1, 3), (R.TRX_STATE_TARGET 1, 3)], (1 : Fin 4), by decide⟩,
    ⟨wS [(R.TRX_STATE_STATE 1, 1)], (1 : Fin 4), by decide⟩,
    ⟨wS [(R.TRX_CAL_STAT_BG_STEPS 1, 7)], (1 : Fin 4), (9 : Nat), by decide⟩,
    ⟨{ wS [(R.TRX_CAL_STAT_BG_STEPS 1, 7), (R.TRX_CAL_BG_PERIOD 1, 1)] with rd := { trxs := [(1, { bgAt := some 5, bgRuns := true })] } }, (1 : Fin 4), (1289062504 : Nat), (5 : Nat), by decide⟩,
    ⟨{ wS [(R.TRX_STATE_STATE 1, 3), (R.TRX_CAL_STAT_BG_STEPS 1, 1999), (R.TRX_PATH_ON_A 1, 1), (R.LANE_STATE_STATE 32, 0)] with rd := { trxs := [(1, { bgRuns := true })] } }, (1 : Fin 4), (false : Bool), (50 : Nat), by decide⟩,
    ⟨wS [(R.TRX_STATE_STATE 1, 3)], (1 : Fin 4), (false : Bool), (50 : Nat), by decide⟩,
    ⟨{ wS [(R.TRX_STATE_STATE 0, 3), (R.TRX_COEX_PRIO_MASK 0, 2)] with rd := { trxs := [(0, { plan := [⟨[⟨⟨100000, 50, 7, 1, 0, 0x1000, 0, 868000, 0x10200000, 20, false, 0, []⟩, 5000, 100000, 105000, 20, false, false, 0, 0⟩], 0, false, 3, true⟩] })] } }, (0 : Fin 4), (⟨[⟨⟨100000, 50, 7, 1, 0, 0x1000, 0, 868000, 0x10200000, 20, false, 0, []⟩, 5000, 100000, 105000, 20, false, false, 0, 0⟩], 0, false, 3, true⟩ : TxCmd), by decide⟩,
    ⟨wS [(R.TRX_STATE_STATE 0, 3)], (0 : Fin 4), by decide⟩,
    ⟨{ wS [(R.TRX_STATE_STATE 0, 4), (R.TRX_COEX_ABORT 0, 1)] with rd := { trxs := [(0, { onAir := some ⟨[⟨⟨100000, 50, 7, 1, 0, 0x1000, 0, 868000, 0x10200000, 20, false, 0, []⟩, 5000, 100000, 105000, 20, false, true, 0, 0⟩], 0, false, 3, true⟩ })] } }, (0 : Fin 4), (100004 : Nat), (⟨[⟨⟨100000, 50, 7, 1, 0, 0x1000, 0, 868000, 0x10200000, 20, false, 0, []⟩, 5000, 100000, 105000, 20, false, true, 0, 0⟩], 0, false, 3, true⟩ : TxCmd), by decide⟩,
    ⟨wS [(R.TRX_STATE_STATE 0, 4)], (0 : Fin 4), by decide⟩⟩

/-- States and operands that meet the hypotheses of each clause of LaneReception. -/
theorem test_LaneReception_witness :
    (∃ s : State, ∃ l : Fin 96, ∃ c : Nat, ∃ o : Nat, ∃ e : Nat, ∃ f : Nat, (s.Inv) ∧ ((s.lane l).window = some (c, o, e, f)) ∧ ((s.lane l).open_ = false ∧ (s.lane l).bind = none) ∧ (s.mtb < e)) ∧
    (∃ s : State, ∃ l : Fin 96, (s.Inv) ∧ ((s.lane l).window = none ∨ (s.lane l).open_ = true ∨ (s.lane l).bind ≠ none)) ∧
    (∃ s : State, ∃ l : Fin 96, ∃ c : Nat, ∃ o : Nat, ∃ e : Nat, ∃ f : Nat, (s.Inv) ∧ ((s.lane l).window = some (c, o, e, f)) ∧ ((s.lane l).open_ = true)) ∧
    (∃ s : State, ∃ l : Fin 96, (s.Inv) ∧ ((s.lane l).window = none ∨ (s.lane l).open_ = false)) ∧
    (∃ s : State, ∃ l : Fin 96, (s.Inv) ∧ (s.mayBind l = true)) ∧
    (∃ s : State, ∃ l : Fin 96, (s.Inv) ∧ (s.mayBind l = false)) ∧
    (∃ s : State, ∃ l : Fin 96, ∃ u : Nat, (s.Inv) ∧ (s.laneState l = 0) ∧ (s.isSet (R.LANE_STATE_ARMED l) = true) ∧ ((s.lane l).chan = none ∧ (s.lane l).bind = none) ∧ (s.bgPath (laneTrx l) (max s.mtb u) = none ∨ (s.pathOn (laneTrx l) false = true ∧ s.pathOn (laneTrx l) true = true))) ∧
    (∃ s : State, ∃ l : Fin 96, (s.Inv) ∧ (s.laneState l ≠ 0 ∨ s.isSet (R.LANE_STATE_ARMED l) = false ∨ (s.lane l).chan ≠ none ∨ (s.lane l).bind ≠ none)) ∧
    (∃ s : State, ∃ l : Fin 96, (s.Inv) ∧ (s.laneState l = 1)) ∧
    (∃ s : State, ∃ l : Fin 96, (s.Inv) ∧ (s.laneState l ≠ 1)) ∧
    (∃ s : State, ∃ l : Fin 96, (s.Inv) ∧ (s.laneState l = 1) ∧ (s.rxRoom = true)) ∧
    (∃ s : State, ∃ l : Fin 96, (s.Inv) ∧ (s.laneState l = 1) ∧ (32768 ≤ s.pl.tasks.length ∨ s.windowRoom (ordOf (s.getF R.PILLOW_HW_ORD_ORD)) = false)) ∧
    (∃ s : State, ∃ l : Fin 96, (s.Inv) ∧ (s.laneState l ≠ 1)) ∧
    (∃ s : State, ∃ l : Fin 96, ∃ n : Fin 2048, ∃ i : Fin 256, ∃ h : Bool, ∃ ms : Bool, ∃ k : Nat, ∃ r : Rx, (s.Inv) ∧ (s.laneState l = 2) ∧ ((s.lane l).rx = some k) ∧ (s.rx? k = some r) ∧ (headerOutcome (s.lanePhy l) n i h ms (s.codedOf r) ≠ 0)) ∧
    (∃ s : State, ∃ l : Fin 96, ∃ n : Fin 2048, ∃ i : Fin 256, ∃ h : Bool, ∃ ms : Bool, ∃ k : Nat, ∃ r : Rx, (s.Inv) ∧ (s.laneState l = 2) ∧ ((s.lane l).rx = some k) ∧ (s.rx? k = some r) ∧ (headerOutcome (s.lanePhy l) n i h ms (s.codedOf r) = 0) ∧ (((n : Nat) ≤ 256 ∧ s.ms.smallTaken.length < 2048) ∨ s.ms.largeTaken.length < 256)) ∧
    (∃ s : State, ∃ l : Fin 96, (s.Inv) ∧ (s.laneState l ≠ 2 ∨ (s.lane l).rx = none)) ∧
    (∃ s : State, ∃ l : Fin 96, ∃ k : Nat, ∃ b : Nat, ∃ r : Rx, (s.Inv) ∧ (s.laneState l = 3) ∧ ((s.lane l).rx = some k) ∧ (s.rx? k = some r) ∧ (r.buf = some b ∧ b < 2304)) ∧
    (∃ s : State, ∃ l : Fin 96, (s.Inv) ∧ (s.laneState l ≠ 3 ∨ (s.lane l).rx = none)) ∧
    (∃ s : State, ∃ l : Fin 96, ∃ k : Nat, ∃ r : Rx, (s.Inv) ∧ (List.find? (fun (x : Nat × Rx) => decide (x.2.lane = l ∧ x.2.done = 1 ∧ x.2.fcs = none)) s.rd.rxs = some (k, r)) ∧ (s.laneState l = 4) ∧ ((s.lane l).rx = some k)) ∧
    (∃ s : State, ∃ l : Fin 96, (s.Inv) ∧ (List.find? (fun (x : Nat × Rx) => decide (x.2.lane = l ∧ x.2.done = 1 ∧ x.2.fcs = none)) s.rd.rxs = none) ∧ (s.laneState l = 4) ∧ ((s.lane l).rx = none)) ∧
    (∃ s : State, ∃ l : Fin 96, (s.Inv) ∧ (s.laneState l = 4) ∧ (s.rxRoom = true)) ∧
    (∃ s : State, ∃ l : Fin 96, ∃ k : Nat, ∃ y : Int, ∃ r : Rx, (s.Inv) ∧ (s.laneState l = 2) ∧ ((s.lane l).rx = some k) ∧ (s.rx? k = some r) ∧ (r.lane = l) ∧ (s.rd.next ≠ k) ∧ (r.rssi + 8 * (s.getF (R.LANE_CFG_CAPTURE l) : Nat) ≤ y)) ∧
    (∃ s : State, ∃ l : Fin 96, ∃ k : Nat, ∃ y : Int, ∃ r : Rx, (s.Inv) ∧ (s.laneState l = 2) ∧ ((s.lane l).rx = some k) ∧ (s.rx? k = some r) ∧ (y < r.rssi + 8 * (s.getF (R.LANE_CFG_CAPTURE l) : Nat))) :=
  ⟨⟨{ wS [] with rd := { lanes := [(1, { window := some (868000, 100, 200, 1) })] } }, (1 : Fin 96), (868000 : Nat), (100 : Nat), (200 : Nat), (1 : Nat), by decide⟩,
    ⟨wS [], (1 : Fin 96), by decide⟩,
    ⟨{ wS [(R.LANE_STATE_ARMED 1, 1)] with rd := { lanes := [(1, { window := some (868000, 100, 200, 1), open_ := true })] } }, (1 : Fin 96), (868000 : Nat), (100 : Nat), (200 : Nat), (1 : Nat), by decide⟩,
    ⟨wS [], (1 : Fin 96), by decide⟩,
    ⟨{ wS [(R.LANE_STATE_PENDING 0, 1)] with rd := { lanes := [(0, { chan := some 869000 })] } }, (0 : Fin 96), by decide⟩,
    ⟨wS [(R.LANE_STATE_STATE 0, 2)], (0 : Fin 96), by decide⟩,
    ⟨wS [(R.LANE_STATE_ARMED 95, 1), (R.LANE_STATE_STATE 95, 0)], (95 : Fin 96), (8000 : Nat), by decide⟩,
    ⟨wS [(R.LANE_STATE_STATE 95, 0)], (95 : Fin 96), by decide⟩,
    ⟨wS [(R.LANE_STATE_STATE 95, 1)], (95 : Fin 96), by decide⟩,
    ⟨wS [(R.LANE_STATE_STATE 95, 3)], (95 : Fin 96), by decide⟩,
    ⟨wS [(R.LANE_STATE_STATE 0, 1), (R.PILLOW_HW_ORD_ORD, 0xFFFF)], (0 : Fin 96), by decide⟩,
    ⟨{ wS [(R.LANE_STATE_STATE 0, 1), (R.PILLOW_HW_ORD_ORD, 3)] with pl := { ords := [(3, { next := 1024 })] } }, (0 : Fin 96), by decide⟩,
    ⟨wS [(R.LANE_STATE_STATE 0, 0)], (0 : Fin 96), by decide⟩,
    ⟨{ wS [(R.LANE_STATE_STATE 0, 2), (R.LANE_STATE_PHY_MODE 0, 0x1000)] with rd := { lanes := [(0, { rx := some 4 })], rxs := [(4, { lane := 0, task := none, ts := 1000, path := 0, rssi := -600, diff := 0, cfo := 0 })] } }, (0 : Fin 96), (20 : Fin 2048), (0 : Fin 256), (false : Bool), (false : Bool), (4 : Nat), ({ lane := 0, task := none, ts := 1000, path := 0, rssi := -600, diff := 0, cfo := 0 } : Rx), by decide⟩,
    ⟨{ wS [(R.LANE_STATE_STATE 0, 2), (R.LANE_STATE_PHY_MODE 0, 0x1000)] with rd := { lanes := [(0, { rx := some 4 })], rxs := [(4, { lane := 0, task := none, ts := 1000, path := 0, rssi := -600, diff := 0, cfo := 0 })] } }, (0 : Fin 96), (20 : Fin 2048), (0 : Fin 256), (true : Bool), (false : Bool), (4 : Nat), ({ lane := 0, task := none, ts := 1000, path := 0, rssi := -600, diff := 0, cfo := 0 } : Rx), by decide⟩,
    ⟨wS [(R.LANE_STATE_STATE 0, 3)], (0 : Fin 96), by decide⟩,
    ⟨{ wS [(R.LANE_STATE_STATE 0, 3), (R.LANE_STATE_PHY_MODE 0, 0x1000)] with rd := { lanes := [(0, { rx := some 4 })], rxs := [(4, { lane := 0, task := none, ts := 1000, path := 0, rssi := -600, diff := 0, cfo := 0, buf := some 2, len := 3, fin := 5000 })] } }, (0 : Fin 96), (4 : Nat), (2 : Nat), ({ lane := 0, task := none, ts := 1000, path := 0, rssi := -600, diff := 0, cfo := 0, buf := some 2, len := 3, fin := 5000 } : Rx), by decide⟩,
    ⟨wS [(R.LANE_STATE_STATE 0, 2)], (0 : Fin 96), by decide⟩,
    ⟨{ wS [(R.LANE_STATE_STATE 0, 4), (R.LANE_STATE_PHY_MODE 0, 0x1000)] with rd := { lanes := [(0, { rx := some 4 })], rxs := [(4, { lane := 0, task := none, ts := 1000, path := 0, rssi := -600, diff := 0, cfo := 0, buf := some 2, len := 3, fin := 5000, done := 1 })] } }, (0 : Fin 96), (4 : Nat), ({ lane := 0, task := none, ts := 1000, path := 0, rssi := -600, diff := 0, cfo := 0, buf := some 2, len := 3, fin := 5000, done := 1 } : Rx), by decide⟩,
    ⟨wS [(R.LANE_STATE_STATE 0, 4)], (0 : Fin 96), by decide⟩,
    ⟨wS [(R.LANE_STATE_STATE 0, 4), (R.PILLOW_HW_ORD_ORD, 0xFFFF)], (0 : Fin 96), by decide⟩,
    ⟨{ wS [(R.LANE_STATE_STATE 0, 2), (R.PILLOW_HW_ORD_ORD, 0xFFFF), (R.LANE_CFG_CAPTURE 0, 6)] with rd := { next := 5, lanes := [(0, { rx := some 4 })], rxs := [(4, { lane := 0, task := none, ts := 1000, path := 0, rssi := -600, diff := 0, cfo := 0 })] } }, (0 : Fin 96), (4 : Nat), (-552 : Int), ({ lane := 0, task := none, ts := 1000, path := 0, rssi := -600, diff := 0, cfo := 0 } : Rx), by decide⟩,
    ⟨{ wS [(R.LANE_STATE_STATE 0, 2), (R.PILLOW_HW_ORD_ORD, 0xFFFF), (R.LANE_CFG_CAPTURE 0, 6)] with rd := { next := 5, lanes := [(0, { rx := some 4 })], rxs := [(4, { lane := 0, task := none, ts := 1000, path := 0, rssi := -600, diff := 0, cfo := 0 })] } }, (0 : Fin 96), (4 : Nat), (-553 : Int), ({ lane := 0, task := none, ts := 1000, path := 0, rssi := -600, diff := 0, cfo := 0 } : Rx), by decide⟩⟩

/-- States and operands that meet the hypotheses of each clause of LaneMeasurements. -/
theorem test_LaneMeasurements_witness :
    (∃ s : State, ∃ n : Fin 4, ∃ b : Bool, (s.Inv) ∧ (s.pathLive n b = true) ∧ (s.onPath n b = [])) ∧
    (∃ s : State, ∃ n : Fin 4, ∃ b : Bool, (s.Inv) ∧ (s.pathLive n b = true) ∧ (s.onPath n b ≠ [])) ∧
    (∃ s : State, ∃ n : Fin 4, ∃ b : Bool, (s.Inv) ∧ (s.pathLive n b = false)) ∧
    (∃ s : State, ∃ n : Fin 4, ∃ b : Bool, ∃ u : Nat, (s.Inv) ∧ (s.pathLive n b = true) ∧ (0 < s.getF (gainField n b)) ∧ ((if b then (s.trx n).clipB else (s.trx n).clipA).all (fun c => decide (c + gainWindow n / 4 ≤ max s.mtb u)) = true)) ∧
    (∃ s : State, ∃ n : Fin 4, ∃ b : Bool, (s.Inv) ∧ (s.pathLive n b = false ∨ s.getF (gainField n b) = 0)) ∧
    (∃ s : State, ∃ l : Fin 96, (s.Inv) ∧ (s.laneState l = 0)) ∧
    (∃ s : State, ∃ l : Fin 96, (s.Inv) ∧ (s.laneState l ≠ 0)) ∧
    (∃ s : State, ∃ l : Fin 96, ∃ c : BitVec 24, ∃ r : LaneRec, ∃ x : TrxRec, (s.Inv) ∧ (s.laneRec l = some r) ∧ (r.bind ≠ 2) ∧ (s.trxRec (laneTrx l) = some x) ∧ (c.toNat ≠ s.laneChan l ∨ (s.lane l).chan ≠ none)) ∧
    (∃ s : State, ∃ l : Fin 96, (s.Inv) ∧ (s.laneRec l = none)) ∧
    (∃ s : State, ∃ l : Fin 96, (s.Inv) ∧ ((s.laneRec l).isSome = true)) :=
  ⟨⟨wS [(R.TRX_PATH_GAIN_A 1, 5), (R.TRX_PATH_ON_A 1, 1), (R.TRX_STATE_STATE 1, 3)], (1 : Fin 4), (false : Bool), by decide⟩,
    ⟨{ wS [(R.TRX_PATH_GAIN_A 0, 5), (R.TRX_PATH_ON_A 0, 1), (R.TRX_STATE_STATE 0, 3)] with rd := { rxs := [(4, { lane := 0, task := none, ts := 1000, path := 0, rssi := -600, diff := 0, cfo := 0 })] } }, (0 : Fin 4), (false : Bool), by decide⟩,
    ⟨wS [(R.TRX_PATH_GAIN_A 1, 5), (R.TRX_STATE_STATE 1, 3)], (1 : Fin 4), (false : Bool), by decide⟩,
    ⟨wS [(R.TRX_PATH_GAIN_B 1, 5), (R.TRX_PATH_ON_B 1, 1), (R.TRX_STATE_STATE 1, 3)], (1 : Fin 4), (true : Bool), (5000 : Nat), by decide⟩,
    ⟨wS [(R.TRX_PATH_GAIN_B 1, 5), (R.TRX_PATH_ON_B 1, 1), (R.TRX_STATE_STATE 1, 2)], (1 : Fin 4), (true : Bool), by decide⟩,
    ⟨wS [(R.TRX_PATH_ON_A 0, 1), (R.TRX_PATH_ON_B 0, 1), (R.LANE_STATE_STATE 0, 0)], (0 : Fin 96), by decide⟩,
    ⟨wS [(R.LANE_STATE_STATE 0, 3)], (0 : Fin 96), by decide⟩,
    ⟨wS [(R.LANE_STATE_PHY_MODE 0, 0x1000)], (0 : Fin 96), (868400 : BitVec 24), (⟨1, 0x1000, 868000⟩ : LaneRec), (⟨1, 1, 1, 3, 868000, 10000, 8, 0, 28, 1, 1⟩ : TrxRec), by decide⟩,
    ⟨wS [], (5 : Fin 96), by decide⟩,
    ⟨wS [(R.LANE_COUNT0_SYNCS 64, 9)], (64 : Fin 96), by decide⟩⟩

/-- States and operands that meet the hypotheses of each clause of ReceivePipeline. -/
theorem test_ReceivePipeline_witness :
    (∃ s : State, ∃ k : Nat, ∃ r : Rx, (s.Inv) ∧ (s.rx? k = some r) ∧ (r.hdr = none ∧ r.known = true)) ∧
    (∃ s : State, ∃ k : Nat, (s.Inv) ∧ (s.rx? k = none)) ∧
    (∃ s : State, ∃ k : Nat, ∃ h : MacHdr, ∃ r : Rx, (s.Inv) ∧ (s.rx? k = some r) ∧ (r.hdr = some h) ∧ (r.looked = false ∧ r.badHdr = 0)) ∧
    (∃ s : State, ∃ k : Nat, ∃ r : Rx, (s.Inv) ∧ (s.rx? k = some r) ∧ (r.hdr = none ∨ r.looked = true ∨ r.badHdr ≠ 0)) ∧
    (∃ s : State, ∃ k : Nat, ∃ h : MacHdr, ∃ r : Rx, (s.Inv) ∧ (s.rx? k = some r) ∧ (r.hdr = some h) ∧ (r.looked = true ∧ r.record = false)) ∧
    (∃ s : State, ∃ k : Nat, ∃ r : Rx, (s.Inv) ∧ (s.rx? k = some r) ∧ (r.hdr = none ∨ r.looked = false ∨ r.record = true)) ∧
    (∃ s : State, ∃ k : Nat, ∃ h : MacHdr, ∃ r : Rx, (s.Inv) ∧ (s.rx? k = some r) ∧ (r.hdr = some h) ∧ (h.secured = true) ∧ (r.record = true ∧ r.node ≠ nodeNone ∧ r.ctx = none ∧ r.noKey = false) ∧ (bitOf (s.copyGet r 13 1) 1 = true)) ∧
    (∃ s : State, ∃ k : Nat, ∃ r : Rx, (s.Inv) ∧ (s.rx? k = some r) ∧ (r.record = false ∨ r.node = nodeNone ∨ r.ctx ≠ none ∨ r.noKey = true)) ∧
    (∃ s : State, ∃ c : Nat, ∃ i : Nat, ∃ k : Nat, ∃ l : List Nat, ∃ r : Rx, (s.Inv) ∧ (s.freeCtx = some c) ∧ (s.ky.waiters = i :: l) ∧ (List.find? (fun (x : Nat × Rx) => decide (x.2.task = some i)) s.rd.rxs = some (k, r))) ∧
    (∃ s : State, (s.Inv) ∧ (s.freeCtx = none ∨ s.ky.waiters = [])) ∧
    (∃ s : State, ∃ k : Nat, ∃ v : Nat, ∃ ok : Bool, ∃ r : Rx, ∃ c : Nat, (s.Inv) ∧ (s.rx? k = some r) ∧ (r.ctx = some c ∧ r.fcs = some true ∧ r.ccm = none) ∧ (r.record = true ∧ r.undo ≠ []) ∧ ((s.rxVerdict { r with ccm := some (ok && s.ky.ctxs.contains c) }).map (·.1) = some v)) ∧
    (∃ s : State, ∃ k : Nat, ∃ r : Rx, (s.Inv) ∧ (s.rx? k = some r) ∧ (r.ctx = none ∨ r.fcs ≠ some true ∨ r.ccm ≠ none)) ∧
    (∃ s : State, ∃ n : Nat, ∃ c : Nat, (s.Inv) ∧ (Store.find? n s.mac.shadow = some (c, 0)) ∧ ((Store.get (fun _ => []) s.mac.shadowReads n).any (fun k => match s.rx? k with | some r => !r.record | none => false) = false)) ∧
    (∃ s : State, ∃ n : Nat, ∃ c : Nat, (s.Inv) ∧ (Store.find? n s.mac.shadow = some (c, 0)) ∧ ((Store.get (fun _ => []) s.mac.shadowReads n).any (fun k => match s.rx? k with | some r => !r.record | none => false) = true)) :=
  ⟨⟨{ wS [] with rd := { rxs := [(4, { lane := 0, task := none, ts := 1000, path := 0, rssi := -600, diff := 0, cfo := 0, known := true })] } }, (4 : Nat), ({ lane := 0, task := none, ts := 1000, path := 0, rssi := -600, diff := 0, cfo := 0, known := true } : Rx), by decide⟩,
    ⟨wS [], (4 : Nat), by decide⟩,
    ⟨{ wS [] with rd := { rxs := [(4, { lane := 0, task := none, ts := 1000, path := 0, rssi := -600, diff := 0, cfo := 0, known := true, hdr := some ⟨0x9841, 1, 2, true, 7, false, 0x1234, 0x1234, 2, 0, 2, 5, false, 0, 0, 0, false, 0, false, 9⟩ })] } }, (4 : Nat), (⟨0x9841, 1, 2, true, 7, false, 0x1234, 0x1234, 2, 0, 2, 5, false, 0, 0, 0, false, 0, false, 9⟩ : MacHdr), ({ lane := 0, task := none, ts := 1000, path := 0, rssi := -600, diff := 0, cfo := 0, known := true, hdr := some ⟨0x9841, 1, 2, true, 7, false, 0x1234, 0x1234, 2, 0, 2, 5, false, 0, 0, 0, false, 0, false, 9⟩ } : Rx), by decide⟩,
    ⟨{ wS [] with rd := { rxs := [(4, { lane := 0, task := none, ts := 1000, path := 0, rssi := -600, diff := 0, cfo := 0, known := true, badHdr := 7, hdr := some ⟨0x9841, 1, 2, true, 7, false, 0x1234, 0x1234, 2, 0, 2, 5, false, 0, 0, 0, false, 0, false, 9⟩ })] } }, (4 : Nat), ({ lane := 0, task := none, ts := 1000, path := 0, rssi := -600, diff := 0, cfo := 0, known := true, badHdr := 7, hdr := some ⟨0x9841, 1, 2, true, 7, false, 0x1234, 0x1234, 2, 0, 2, 5, false, 0, 0, 0, false, 0, false, 9⟩ } : Rx), by decide⟩,
    ⟨{ wS [] with rd := { rxs := [(4, { lane := 0, task := none, ts := 1000, path := 0, rssi := -600, diff := 0, cfo := 0, known := true, looked := true, node := 5, hdr := some ⟨0x9841, 1, 2, true, 7, false, 0x1234, 0x1234, 2, 0, 2, 5, false, 0, 0, 0, false, 0, false, 9⟩ })] } }, (4 : Nat), (⟨0x9841, 1, 2, true, 7, false, 0x1234, 0x1234, 2, 0, 2, 5, false, 0, 0, 0, false, 0, false, 9⟩ : MacHdr), ({ lane := 0, task := none, ts := 1000, path := 0, rssi := -600, diff := 0, cfo := 0, known := true, looked := true, node := 5, hdr := some ⟨0x9841, 1, 2, true, 7, false, 0x1234, 0x1234, 2, 0, 2, 5, false, 0, 0, 0, false, 0, false, 9⟩ } : Rx), by decide⟩,
    ⟨{ wS [] with rd := { rxs := [(4, { lane := 0, task := none, ts := 1000, path := 0, rssi := -600, diff := 0, cfo := 0, known := true, hdr := some ⟨0x9841, 1, 2, true, 7, false, 0x1234, 0x1234, 2, 0, 2, 5, false, 0, 0, 0, false, 0, false, 9⟩ })] } }, (4 : Nat), ({ lane := 0, task := none, ts := 1000, path := 0, rssi := -600, diff := 0, cfo := 0, known := true, hdr := some ⟨0x9841, 1, 2, true, 7, false, 0x1234, 0x1234, 2, 0, 2, 5, false, 0, 0, 0, false, 0, false, 9⟩ } : Rx), by decide⟩,
    ⟨{ wS [] with mem := [(0x1010070D, 2)], pl := { tasks := [(5, { gen := 0, entry := 16, kind := 0, flow := none, prio := 0, ord := none, arg := 0, pins := [], record := some 7 })] }, rd := { rxs := [(4, { lane := 0, task := some 5, ts := 1000, path := 0, rssi := -600, diff := 0, cfo := 0, known := true, looked := true, record := true, node := 5, hdr := some ⟨0x9841, 1, 2, true, 7, false, 0x1234, 0x1234, 2, 0, 2, 5, true, 5, 0, 0, false, 0, false, 9⟩ })] } }, (4 : Nat), (⟨0x9841, 1, 2, true, 7, false, 0x1234, 0x1234, 2, 0, 2, 5, true, 5, 0, 0, false, 0, false, 9⟩ : MacHdr), ({ lane := 0, task := some 5, ts := 1000, path := 0, rssi := -600, diff := 0, cfo := 0, known := true, looked := true, record := true, node := 5, hdr := some ⟨0x9841, 1, 2, true, 7, false, 0x1234, 0x1234, 2, 0, 2, 5, true, 5, 0, 0, false, 0, false, 9⟩ } : Rx), by decide⟩,
    ⟨{ wS [] with rd := { rxs := [(4, { lane := 0, task := none, ts := 1000, path := 0, rssi := -600, diff := 0, cfo := 0, known := true, hdr := some ⟨0x9841, 1, 2, true, 7, false, 0x1234, 0x1234, 2, 0, 2, 5, false, 0, 0, 0, false, 0, false, 9⟩ })] } }, (4 : Nat), ({ lane := 0, task := none, ts := 1000, path := 0, rssi := -600, diff := 0, cfo := 0, known := true, hdr := some ⟨0x9841, 1, 2, true, 7, false, 0x1234, 0x1234, 2, 0, 2, 5, false, 0, 0, 0, false, 0, false, 9⟩ } : Rx), by decide⟩,
    ⟨{ wS [] with ky := { waiters := [5] }, rd := { rxs := [(4, { lane := 0, task := some 5, ts := 1000, path := 0, rssi := -600, diff := 0, cfo := 0 })] } }, (0 : Nat), (5 : Nat), (4 : Nat), ([] : List Nat), ({ lane := 0, task := some 5, ts := 1000, path := 0, rssi := -600, diff := 0, cfo := 0 } : Rx), by decide⟩,
    ⟨wS [], by decide⟩,
    ⟨{ wS [(R.MAC_PAN_KEY_VALID, 1), (R.MAC_PAN_KEY_KEY_INDEX, 1)] with mem := [(0x1010070D, 2)], pl := { tasks := [(5, { gen := 0, entry := 16, kind := 0, flow := none, prio := 0, ord := none, arg := 0, pins := [{ cell := 1 }, { cell := 2 }, { cell := 3 }], record := some 7 })] }, ky := { ctxs := [3] }, rd := { rxs := [(4, { lane := 0, task := some 5, ts := 1000, path := 0, rssi := -600, diff := 0, cfo := 0, known := true, looked := true, record := true, node := 5, ctx := some 3, fcs := some true, undo := [⟨0, 0, 0, {}⟩], hdr := some ⟨0x9841, 1, 2, true, 7, false, 0x1234, 0x1234, 2, 0, 2, 5, true, 5, 0, 0, false, 0, false, 9⟩ })] } }, (4 : Nat), (5 : Nat), (false : Bool), ({ lane := 0, task := some 5, ts := 1000, path := 0, rssi := -600, diff := 0, cfo := 0, known := true, looked := true, record := true, node := 5, ctx := some 3, fcs := some true, undo := [⟨0, 0, 0, {}⟩], hdr := some ⟨0x9841, 1, 2, true, 7, false, 0x1234, 0x1234, 2, 0, 2, 5, true, 5, 0, 0, false, 0, false, 9⟩ } : Rx), (3 : Nat), by decide⟩,
    ⟨{ wS [] with rd := { rxs := [(4, { lane := 0, task := none, ts := 1000, path := 0, rssi := -600, diff := 0, cfo := 0, known := true, hdr := some ⟨0x9841, 1, 2, true, 7, false, 0x1234, 0x1234, 2, 0, 2, 5, false, 0, 0, 0, false, 0, false, 9⟩ })] } }, (4 : Nat), ({ lane := 0, task := none, ts := 1000, path := 0, rssi := -600, diff := 0, cfo := 0, known := true, hdr := some ⟨0x9841, 1, 2, true, 7, false, 0x1234, 0x1234, 2, 0, 2, 5, false, 0, 0, 0, false, 0, false, 9⟩ } : Rx), by decide⟩,
    ⟨{ wS [] with mac := { shadow := [(5, (7, 0))], shadowReads := [(5, [3])] } }, (5 : Nat), (7 : Nat), by decide⟩,
    ⟨{ wS [] with mac := { shadow := [(5, (7, 0))], shadowReads := [(5, [4])] }, rd := { rxs := [(4, { lane := 0, task := none, ts := 1000, path := 0, rssi := -600, diff := 0, cfo := 0, known := true, hdr := some ⟨0x9841, 1, 2, true, 7, false, 0x1234, 0x1234, 2, 0, 2, 5, false, 0, 0, 0, false, 0, false, 9⟩ })] } }, (5 : Nat), (7 : Nat), by decide⟩⟩

/-- States and operands that meet the hypotheses of each clause of ShuttleCommands. -/
theorem test_ShuttleCommands_witness :
    (∃ s : State, ∃ n : Fin 4, ∃ u : Nat, ∃ q : Nat, ∃ e : Entry, ∃ d : TxDesc, (s.Inv) ∧ ((s.trx n).held = [] ∧ (s.trx n).planned < 16) ∧ ((s.consumedBy (0x20 + n)).find? (fun (x : Nat) => (s.head? x).isSome) = some q) ∧ (s.head? q = some e) ∧ (s.txDescAt e = d) ∧ (d.kind = 0) ∧ ((((s.advance u).dequeue q).emit (.entry q e)).txRefusal n d = none)) ∧
    (∃ s : State, ∃ n : Fin 4, ∃ u : Nat, ∃ q : Nat, ∃ w : Nat, ∃ e : Entry, ∃ d : TxDesc, (s.Inv) ∧ ((s.trx n).held = [] ∧ (s.trx n).planned < 16) ∧ ((s.consumedBy (0x20 + n)).find? (fun (x : Nat) => (s.head? x).isSome) = some q) ∧ (s.head? q = some e) ∧ (s.txDescAt e = d) ∧ (d.kind = 0 ∨ 4 < d.kind) ∧ ((((s.advance u).dequeue q).emit (.entry q e)).txRefusal n d = some w)) ∧
    (∃ s : State, ∃ n : Fin 4, ∃ u : Nat, ∃ q : Nat, ∃ e : Entry, ∃ d : TxDesc, (s.Inv) ∧ ((s.trx n).held = [] ∧ (s.trx n).planned < 16) ∧ ((s.consumedBy (0x20 + n)).find? (fun (x : Nat) => (s.head? x).isSome) = some q) ∧ (s.head? q = some e) ∧ (s.txDescAt e = d) ∧ (d.kind = 1) ∧ ((((s.advance u).dequeue q).emit (.entry q e)).txRefusal n d = none)) ∧
    (∃ s : State, ∃ n : Fin 4, ∃ u : Nat, ∃ q : Nat, ∃ w : Nat, ∃ e : Entry, ∃ d : TxDesc, (s.Inv) ∧ ((s.trx n).held = [] ∧ (s.trx n).planned < 16) ∧ ((s.consumedBy (0x20 + n)).find? (fun (x : Nat) => (s.head? x).isSome) = some q) ∧ (s.head? q = some e) ∧ (s.txDescAt e = d) ∧ (d.kind = 1) ∧ ((((s.advance u).dequeue q).emit (.entry q e)).txRefusal n d = some w)) ∧
    (∃ s : State, ∃ n : Fin 4, ∃ u : Nat, ∃ q : Nat, ∃ e : Entry, ∃ d : TxDesc, ∃ b : TxCmd, (s.Inv) ∧ ((s.trx n).held = [] ∧ (s.trx n).planned < 16) ∧ ((s.consumedBy (0x20 + n)).find? (fun (x : Nat) => (s.head? x).isSome) = some q) ∧ (s.head? q = some e) ∧ (s.txDescAt e = d) ∧ (d.kind = 2) ∧ ((s.trx n).braid = some b) ∧ ((((s.advance u).dequeue q).emit (.entry q e)).txRefusal n d = none)) ∧
    (∃ s : State, ∃ n : Fin 4, ∃ u : Nat, ∃ q : Nat, ∃ w : Nat, ∃ e : Entry, ∃ d : TxDesc, (s.Inv) ∧ ((s.trx n).held = [] ∧ (s.trx n).planned < 16) ∧ ((s.consumedBy (0x20 + n)).find? (fun (x : Nat) => (s.head? x).isSome) = some q) ∧ (s.head? q = some e) ∧ (s.txDescAt e = d) ∧ (d.kind = 2) ∧ ((((s.advance u).dequeue q).emit (.entry q e)).txRefusal n d = some w)) ∧
    (∃ s : State, ∃ n : Fin 4, ∃ u : Nat, ∃ q : Nat, ∃ e : Entry, ∃ d : TxDesc, (s.Inv) ∧ ((s.trx n).held = [] ∧ (s.trx n).planned < 16) ∧ ((s.consumedBy (0x20 + n)).find? (fun (x : Nat) => (s.head? x).isSome) = some q) ∧ (s.head? q = some e) ∧ (s.txDescAt e = d) ∧ (d.kind = 3) ∧ ((((s.advance u).dequeue q).emit (.entry q e)).txRefusal n d = none)) ∧
    (∃ s : State, ∃ n : Fin 4, ∃ u : Nat, ∃ q : Nat, ∃ w : Nat, ∃ e : Entry, ∃ d : TxDesc, (s.Inv) ∧ ((s.trx n).held = [] ∧ (s.trx n).planned < 16) ∧ ((s.consumedBy (0x20 + n)).find? (fun (x : Nat) => (s.head? x).isSome) = some q) ∧ (s.head? q = some e) ∧ (s.txDescAt e = d) ∧ (d.kind = 3) ∧ ((((s.advance u).dequeue q).emit (.entry q e)).txRefusal n d = some w)) ∧
    (∃ s : State, ∃ n : Fin 4, ∃ u : Nat, ∃ q : Nat, ∃ e : Entry, ∃ d : TxDesc, (s.Inv) ∧ ((s.trx n).held = [] ∧ (s.trx n).planned < 16) ∧ ((s.consumedBy (0x20 + n)).find? (fun (x : Nat) => (s.head? x).isSome) = some q) ∧ (s.head? q = some e) ∧ (s.txDescAt e = d) ∧ (d.kind = 4) ∧ ((((s.advance u).dequeue q).emit (.entry q e)).txRefusal n d = none)) ∧
    (∃ s : State, ∃ n : Fin 4, ∃ u : Nat, ∃ q : Nat, ∃ w : Nat, ∃ e : Entry, ∃ d : TxDesc, (s.Inv) ∧ ((s.trx n).held = [] ∧ (s.trx n).planned < 16) ∧ ((s.consumedBy (0x20 + n)).find? (fun (x : Nat) => (s.head? x).isSome) = some q) ∧ (s.head? q = some e) ∧ (s.txDescAt e = d) ∧ (d.kind = 4) ∧ ((((s.advance u).dequeue q).emit (.entry q e)).txRefusal n d = some w)) ∧
    (∃ s : State, ∃ n : Fin 4, ∃ u : Nat, ∃ c : TxCmd, (s.Inv) ∧ (planHead (((s.advance u).replan n).trx n).plan = some c) ∧ (c.latest < ((s.advance u).replan n).planDep n c) ∧ (c.members ≠ [])) ∧
    (∃ s : State, ∃ n : Fin 4, ∃ u : Nat, ∃ c : TxCmd, (s.Inv) ∧ ((s.trx n).plan = [] ∨ (planHead (((s.advance u).replan n).trx n).plan = some c ∧ ((s.advance u).replan n).planDep n c ≤ c.latest))) ∧
    (∃ s : State, ∃ n : Fin 4, ∃ c : TxCmd, (s.Inv) ∧ (planHead (s.trx n).plan = some c) ∧ (c.planned = true) ∧ (s.su.warm = none) ∧ (s.trxState n = s.trxTarget n ∧ 2 ≤ s.trxState n ∧ s.trxState n ≤ 3) ∧ ((s.trx n).step = none ∧ (s.trx n).onAir = none ∧ (s.trx n).calPending = false) ∧ (s.mtb ≤ c.dep - intoTx (s.trxState n) ∧ c.dep ≤ c.latest) ∧ (s.dev ≠ devHoldInhibit) ∧ (s.holdMark.all (fun m => decide (c.fin < m)) = true) ∧ (s.outputStop.all (fun m => decide (c.fin < m)) = true)) ∧
    (∃ s : State, ∃ n : Fin 4, ∃ c : TxCmd, ∃ b : Bool, (s.Inv) ∧ (planHead (s.trx n).plan = some c) ∧ (c.planned = true ∧ c.members ≠ []) ∧ (s.su.warm = none) ∧ (s.trxState n = s.trxTarget n ∧ 2 ≤ s.trxState n ∧ s.trxState n ≤ 3) ∧ ((s.trx n).step = none ∧ (s.trx n).onAir = none ∧ (s.trx n).calPending = false) ∧ (s.mtb ≤ c.dep - intoTx (s.trxState n) ∧ c.dep ≤ c.latest) ∧ (b = (decide (s.dev = devHoldInhibit) || s.holdMark.any (fun m => decide (m ≤ c.fin)))) ∧ (b = true ∨ s.outputStop.any (fun m => decide (m ≤ c.fin)) = true)) ∧
    (∃ s : State, ∃ n : Fin 4, (s.Inv) ∧ ((s.trx n).plan = [] ∨ (s.trx n).step ≠ none ∨ (s.trx n).onAir ≠ none ∨ s.trxState n ≠ s.trxTarget n)) ∧
    (∃ s : State, ∃ n : Fin 4, ∃ g : Bool, ∃ c : TxCmd, ∃ m : TxMember, ∃ a : Int, ∃ p : Int, ∃ f : Int, ∃ k : Nat, (s.Inv) ∧ ((s.trx n).onAir = some c) ∧ (c.nextCommit = some m) ∧ (s.coexOn n = false ∨ g = true ∨ c.members.any (fun (x : TxMember) => x.commit) = true) ∧ (a = (if m.desc.power = 0x80 then signed 8 (s.getF (R.TRX_PWR_DEFAULT n)) else signed 8 m.desc.power)) ∧ (p = min a (if c.braid then signed 8 (s.getF (R.TRX_PWR_LIMIT n)) - braidCut c.budget else signed 8 (s.getF (R.TRX_PWR_LIMIT n)))) ∧ (f = (match s.trxRec n with | some r => chanSteps n ((m.desc.chanKhz : Int) - r.centreKhz) | none => 0)) ∧ (k = (c.members.findIdx? (fun (x : TxMember) => decide (x.desc = m.desc) && decide (x.dep = m.dep))).getD 0)) ∧
    (∃ s : State, ∃ n : Fin 4, ∃ g : Bool, ∃ c : TxCmd, ∃ m : TxMember, (s.Inv) ∧ ((s.trx n).onAir = some c) ∧ (c.nextCommit = some m) ∧ (c.members.all (fun (x : TxMember) => !x.commit) = true) ∧ (s.coexOn n = true ∧ g = false)) ∧
    (∃ s : State, ∃ n : Fin 4, (s.Inv) ∧ ((s.trx n).onAir.all (fun (c : TxCmd) => decide (c.nextCommit = none)) = true)) ∧
    (∃ s : State, ∃ n : Fin 4, ∃ c : TxCmd, (s.Inv) ∧ ((s.trx n).onAir = some c) ∧ ((s.trx n).ending = none) ∧ (c.members.all (fun (x : TxMember) => x.commit) = true)) ∧
    (∃ s : State, ∃ n : Fin 4, ∃ w : Nat, ∃ e : Nat, ∃ c : TxCmd, (s.Inv) ∧ ((s.trx n).onAir = some c) ∧ ((s.trx n).ending = some (w, e))) ∧
    (∃ s : State, ∃ n : Fin 4, (s.Inv) ∧ ((s.trx n).onAir = none ∨ ((s.trx n).ending = none ∧ (s.trx n).onAir.all (fun (c : TxCmd) => c.members.any (fun (x : TxMember) => !x.commit)) = true))) :=
  ⟨⟨{ wS [(R.TRX_STATE_STATE 0, 3), (R.TRX_STATE_TARGET 0, 3), (R.TRX_PWR_DEFAULT 0, 20)] with queues := wTxQ (wDesc 200000 4000 7 0 0 0x1000 868000 20) }, (0 : Fin 4), (100 : Nat), (6 : Nat), (⟨0x80000000, 32, 3, 0x30, 0, 0, wDesc 200000 4000 7 0 0 0x1000 868000 20, 0⟩ : Entry), (txDescOf (wDesc 200000 4000 7 0 0 0x1000 868000 20) : TxDesc), by decide⟩,
    ⟨{ wS [(R.TRX_STATE_STATE 0, 3), (R.TRX_STATE_TARGET 0, 3), (R.TRX_PWR_DEFAULT 0, 20)] with queues := wTxQ (wDesc 200000 4000 7 5 0 0x1000 868000 20) }, (0 : Fin 4), (100 : Nat), (6 : Nat), (ST.TX_RANGE 0 : Nat), (⟨0x80000000, 32, 3, 0x30, 0, 0, wDesc 200000 4000 7 5 0 0x1000 868000 20, 0⟩ : Entry), (txDescOf (wDesc 200000 4000 7 5 0 0x1000 868000 20) : TxDesc), by decide⟩,
    ⟨{ wS [(R.TRX_STATE_STATE 0, 3), (R.TRX_STATE_TARGET 0, 3), (R.TRX_PWR_DEFAULT 0, 20)] with queues := wTxQ (wDesc 200000 4000 7 1 0 0x1000 868000 20) }, (0 : Fin 4), (100 : Nat), (6 : Nat), (⟨0x80000000, 32, 3, 0x30, 0, 0, wDesc 200000 4000 7 1 0 0x1000 868000 20, 0⟩ : Entry), (txDescOf (wDesc 200000 4000 7 1 0 0x1000 868000 20) : TxDesc), by decide⟩,
    ⟨{ wS [(R.TRX_STATE_STATE 0, 3), (R.TRX_STATE_TARGET 0, 3), (R.TRX_PWR_DEFAULT 0, 20)] with queues := wTxQ (wDesc 200000 4000 7 1 0 0x1000 968000 20) }, (0 : Fin 4), (100 : Nat), (6 : Nat), (ST.TX_RANGE 0 : Nat), (⟨0x80000000, 32, 3, 0x30, 0, 0, wDesc 200000 4000 7 1 0 0x1000 968000 20, 0⟩ : Entry), (txDescOf (wDesc 200000 4000 7 1 0 0x1000 968000 20) : TxDesc), by decide⟩,
    ⟨{ wS [(R.TRX_STATE_STATE 0, 3), (R.TRX_STATE_TARGET 0, 3), (R.TRX_PWR_DEFAULT 0, 20)] with queues := wTxQ (wDesc 200000 4000 7 2 0 0x1000 868400 20), rd := { trxs := [(0, { plan := [wCmd 0 1 200000 20], orders := 1 })] } }, (0 : Fin 4), (100 : Nat), (6 : Nat), (⟨0x80000000, 32, 3, 0x30, 0, 0, wDesc 200000 4000 7 2 0 0x1000 868400 20, 0⟩ : Entry), (txDescOf (wDesc 200000 4000 7 2 0 0x1000 868400 20) : TxDesc), (wCmd 0 1 200000 20 : TxCmd), by decide⟩,
    ⟨{ wS [(R.TRX_STATE_STATE 0, 3), (R.TRX_STATE_TARGET 0, 3), (R.TRX_PWR_DEFAULT 0, 20)] with queues := wTxQ (wDesc 200000 4000 7 2 0 0x1000 868000 20) }, (0 : Fin 4), (100 : Nat), (6 : Nat), (ST.TX_BRAID_CLOSED 0 : Nat), (⟨0x80000000, 32, 3, 0x30, 0, 0, wDesc 200000 4000 7 2 0 0x1000 868000 20, 0⟩ : Entry), (txDescOf (wDesc 200000 4000 7 2 0 0x1000 868000 20) : TxDesc), by decide⟩,
    ⟨{ wS [(R.TRX_STATE_STATE 0, 3), (R.TRX_STATE_TARGET 0, 3), (R.TRX_PWR_DEFAULT 0, 20)] with queues := wTxQ (wDesc 200000 4000 7 3 0 0x1000 868000 20) }, (0 : Fin 4), (100 : Nat), (6 : Nat), (⟨0x80000000, 32, 3, 0x30, 0, 0, wDesc 200000 4000 7 3 0 0x1000 868000 20, 0⟩ : Entry), (txDescOf (wDesc 200000 4000 7 3 0 0x1000 868000 20) : TxDesc), by decide⟩,
    ⟨{ wS [(R.TRX_STATE_STATE 0, 3), (R.TRX_STATE_TARGET 0, 3), (R.TRX_PWR_DEFAULT 0, 20)] with queues := wTxQ (wDesc 200000 4000 7 3 0 0x1000 968000 20) }, (0 : Fin 4), (100 : Nat), (6 : Nat), (ST.TX_RANGE 0 : Nat), (⟨0x80000000, 32, 3, 0x30, 0, 0, wDesc 200000 4000 7 3 0 0x1000 968000 20, 0⟩ : Entry), (txDescOf (wDesc 200000 4000 7 3 0 0x1000 968000 20) : TxDesc), by decide⟩,
    ⟨{ wS [(R.TRX_STATE_STATE 0, 3), (R.TRX_STATE_TARGET 0, 3), (R.TRX_PWR_DEFAULT 0, 20)] with queues := wTxQ (leBytes 8 200000 ++ leBytes 4 4000 ++ leBytes 2 7 ++ leBytes 1 4 ++ leBytes 1 0 ++ leBytes 2 0 ++ leBytes 1 0x80 ++ leBytes 1 0 ++ leBytes 3 868000 ++ leBytes 1 0 ++ leBytes 4 0x00050008 ++ leBytes 4 0) }, (0 : Fin 4), (100 : Nat), (6 : Nat), (⟨0x80000000, 32, 3, 0x30, 0, 0, leBytes 8 200000 ++ leBytes 4 4000 ++ leBytes 2 7 ++ leBytes 1 4 ++ leBytes 1 0 ++ leBytes 2 0 ++ leBytes 1 0x80 ++ leBytes 1 0 ++ leBytes 3 868000 ++ leBytes 1 0 ++ leBytes 4 0x00050008 ++ leBytes 4 0, 0⟩ : Entry), (txDescOf (leBytes 8 200000 ++ leBytes 4 4000 ++ leBytes 2 7 ++ leBytes 1 4 ++ leBytes 1 0 ++ leBytes 2 0 ++ leBytes 1 0x80 ++ leBytes 1 0 ++ leBytes 3 868000 ++ leBytes 1 0 ++ leBytes 4 0x00050008 ++ leBytes 4 0) : TxDesc), by decide⟩,
    ⟨{ wS [(R.TRX_STATE_STATE 0, 3), (R.TRX_STATE_TARGET 0, 3), (R.TRX_PWR_DEFAULT 0, 20)] with queues := wTxQ (wDesc 200000 4000 7 4 0 0x1000 868000 20) }, (0 : Fin 4), (100 : Nat), (6 : Nat), (ST.TX_RANGE 0 : Nat), (⟨0x80000000, 32, 3, 0x30, 0, 0, wDesc 200000 4000 7 4 0 0x1000 868000 20, 0⟩ : Entry), (txDescOf (wDesc 200000 4000 7 4 0 0x1000 868000 20) : TxDesc), by decide⟩,
    ⟨{ wS [(R.TRX_STATE_STATE 0, 3), (R.TRX_STATE_TARGET 0, 3), (R.TRX_PWR_DEFAULT 0, 20)] with mtb := 210000, rd := { trxs := [(0, { plan := [wCmd 0 0 200000 20] })] } }, (0 : Fin 4), (220000 : Nat), ((planHead ((((({ wS [(R.TRX_STATE_STATE 0, 3), (R.TRX_STATE_TARGET 0, 3), (R.TRX_PWR_DEFAULT 0, 20)] with mtb := 210000, rd := { trxs := [(0, { plan := [wCmd 0 0 200000 20] })] } } : State).advance 220000).replan 0).trx 0).plan)).getD (wCmd 0 0 0 0) : TxCmd), by decide⟩,
    ⟨wS [(R.TRX_STATE_STATE 0, 3), (R.TRX_STATE_TARGET 0, 3), (R.TRX_PWR_DEFAULT 0, 20)], (0 : Fin 4), (220000 : Nat), (wCmd 0 0 200000 20 : TxCmd), by decide⟩,
    ⟨{ wS [(R.TRX_STATE_STATE 0, 3), (R.TRX_STATE_TARGET 0, 3), (R.TRX_PWR_DEFAULT 0, 20)] with rd := { trxs := [(0, { plan := [wCmd 0 0 200000 20] })] } }, (0 : Fin 4), (wCmd 0 0 200000 20 : TxCmd), by decide⟩,
    ⟨{ wS ((R.PAIR_STATE_ROLE, 1) :: [(R.TRX_STATE_STATE 0, 3), (R.TRX_STATE_TARGET 0, 3), (R.TRX_PWR_DEFAULT 0, 20)]) with pr := wPair, rd := { trxs := [(0, { plan := [wCmd 0 0 200000 20] })] } }, (0 : Fin 4), (wCmd 0 0 200000 20 : TxCmd), (false : Bool), by decide⟩,
    ⟨wS [], (0 : Fin 4), by decide⟩,
    ⟨{ wS [(R.TRX_STATE_STATE 0, 3), (R.TRX_STATE_TARGET 0, 3), (R.TRX_PWR_DEFAULT 0, 20), (R.TRX_PWR_LIMIT 0, 24)] with rd := { trxs := [(0, { onAir := some (wCmd 0 0 200000 20) })] } }, (0 : Fin 4), (true : Bool), (wCmd 0 0 200000 20 : TxCmd), ({ desc := txDescOf (wDesc 200000 4000 7 0 0 0x1000 868000 20), air := 1000000, dep := 200000, fin := 1200000 } : TxMember), (20 : Int), (20 : Int), (0 : Int), (0 : Nat), by decide⟩,
    ⟨{ wS [(R.TRX_STATE_STATE 2, 4), (R.TRX_STATE_TARGET 2, 3)] with rd := { trxs := [(2, { onAir := some (wCmd 0 0 200000 20) })] } }, (2 : Fin 4), (false : Bool), (wCmd 0 0 200000 20 : TxCmd), ({ desc := txDescOf (wDesc 200000 4000 7 0 0 0x1000 868000 20), air := 1000000, dep := 200000, fin := 1200000 } : TxMember), by decide⟩,
    ⟨wS [], (2 : Fin 4), by decide⟩,
    ⟨{ wS [(R.TRX_STATE_STATE 0, 3), (R.TRX_STATE_TARGET 0, 3), (R.TRX_PWR_DEFAULT 0, 20)] with rd := { trxs := [(0, { onAir := some { wCmd 0 0 200000 20 with members := [{ desc := txDescOf (wDesc 200000 4000 7 0 0 0x1000 868000 20), air := 1000000, dep := 200000, fin := 1200000, commit := true }] } })] } }, (0 : Fin 4), ({ wCmd 0 0 200000 20 with members := [{ desc := txDescOf (wDesc 200000 4000 7 0 0 0x1000 868000 20), air := 1000000, dep := 200000, fin := 1200000, commit := true }] } : TxCmd), by decide⟩,
    ⟨{ wS [(R.TRX_STATE_STATE 0, 3), (R.TRX_STATE_TARGET 0, 3), (R.TRX_PWR_DEFAULT 0, 20)] with rd := { trxs := [(0, { onAir := some (wCmd 0 0 200000 20), ending := some (ST.TX_FENCE 0, 300000) })] } }, (0 : Fin 4), (ST.TX_FENCE 0 : Nat), (300000 : Nat), (wCmd 0 0 200000 20 : TxCmd), by decide⟩,
    ⟨wS [], (0 : Fin 4), by decide⟩⟩

/-- States and operands that meet the hypotheses of each clause of SlotsAndRequests. -/
theorem test_SlotsAndRequests_witness :
    (∃ s : State, ∃ u : Nat, (s.Inv) ∧ (s.running = true) ∧ (s.mac.slot ≠ some (s.asn (max s.mtb u)))) ∧
    (∃ s : State, ∃ u : Nat, (s.Inv) ∧ (s.running = false ∨ s.mac.slot = some (s.asn (max s.mtb u)))) ∧
    (∃ s : State, ∃ a : Nat, (s.Inv) ∧ (s.mac.slot = some a) ∧ (Store.find? ((a + 2) % 2 ^ 40) s.mac.plans = none)) ∧
    (∃ s : State, (s.Inv) ∧ (s.mac.slot.all (fun (a : Nat) => (Store.find? ((a + 2) % 2 ^ 40) s.mac.plans).isSome) = true)) ∧
    (∃ s : State, ∃ u : Nat, ∃ q : Nat, ∃ e : Entry, ∃ r0 : TxReq, (s.Inv) ∧ (s.macQueue false = some (q, e)) ∧ (txReqOf (s.itemOf e 32) = r0) ∧ ((s.macTaken u q e).reqStatus r0 = 0)) ∧
    (∃ s : State, ∃ u : Nat, ∃ q : Nat, ∃ w : Nat, ∃ e : Entry, ∃ r0 : TxReq, (s.Inv) ∧ (s.macQueue false = some (q, e)) ∧ (txReqOf (s.itemOf e 32) = r0) ∧ ((s.macTaken u q e).reqStatus r0 = w ∧ w ≠ 0)) ∧
    (∃ s : State, (s.Inv) ∧ (s.macQueue false = none)) ∧
    (∃ s : State, ∃ n : Fin 4, ∃ a : Nat, ∃ x : TxCell, (s.Inv) ∧ (s.mac.slot = some a) ∧ (s.slotTx a n = some x) ∧ (s.roleSends = true ∧ s.lbt n = false) ∧ (s.mac.senses = [] ∧ s.mac.senseWait = [])) ∧
    (∃ s : State, ∃ n : Fin 4, ∃ a : Nat, ∃ x : TxCell, (s.Inv) ∧ (s.mac.slot = some a) ∧ (s.slotTx a n = some x) ∧ (s.roleSends = true ∧ s.lbt n = true) ∧ (s.mac.senses = [] ∧ s.mac.senseWait = [])) ∧
    (∃ s : State, (s.Inv) ∧ (s.mac.slot = none ∨ s.roleSends = false)) ∧
    (∃ s : State, ∃ n : Fin 4, ∃ k : Fin 2, ∃ v : Int, ∃ x : Sense, ∃ f : Frame, ∃ id : Nat, (s.Inv) ∧ (Store.find? (2 * n.val + k.val) s.mac.senses = some x) ∧ (x.slot = none ∧ x.of = .frame id) ∧ (s.frame? id = some f) ∧ (s.tracked f.req.node = false) ∧ ((s.advance x.until_).senseBusy n x v = false ∧ (s.senseOver (2 * n.val + k.val) x).anyLive n = false)) ∧
    (∃ s : State, ∃ n : Fin 4, ∃ k : Fin 2, ∃ v : Int, ∃ id : Nat, ∃ x : Sense, ∃ f : Frame, (s.Inv) ∧ (Store.find? (2 * n.val + k.val) s.mac.senses = some x) ∧ (x.slot = none ∧ x.of = .frame id) ∧ (s.frame? id = some f) ∧ (s.tracked f.req.node = false) ∧ ((s.advance x.until_).senseBusy n x v = true)) ∧
    (∃ s : State, ∃ n : Fin 4, ∃ k : Fin 2, ∃ a : Nat, ∃ x : Sense, ∃ y : TxCell, (s.Inv) ∧ (Store.find? (2 * n.val + k.val) s.mac.senses = some x) ∧ (x.slot = some a) ∧ (s.slotTx a n = some y)) ∧
    (∃ s : State, ∃ n : Fin 4, ∃ k : Fin 2, (s.Inv) ∧ (Store.find? (2 * n.val + k.val) s.mac.senses = none)) ∧
    (∃ s : State, ∃ id : Nat, ∃ n : Nat, ∃ f : Frame, (s.Inv) ∧ (s.frame? id = some f) ∧ (f.state = .backoff) ∧ (s.csmaTrx f.req = some n)) ∧
    (∃ s : State, ∃ id : Nat, (s.Inv) ∧ ((s.frame? id).all (fun (f : Frame) => f.state != .backoff) = true)) ∧
    (∃ s : State, ∃ id : Nat, ∃ u : Nat, ∃ f : Frame, (s.Inv) ∧ (s.frame? id = some f) ∧ (f.state = .ackWait ∧ f.until_ ≤ u) ∧ (s.rd.rxs.any (fun (r : Nat × Rx) => decide (laneTrx r.2.lane = f.trx ∧ f.sent < r.2.ts ∧ r.2.ts ≤ f.until_)) = false) ∧ (s.tracked f.req.node = false) ∧ ((if s.tsch f.req.pan then s.getF R.MAC_TSCH_CFG_RETRIES else s.getF R.MAC_CSMA_CFG_RETRIES) ≤ f.resends)) ∧
    (∃ s : State, ∃ id : Nat, ∃ u : Nat, ∃ f : Frame, (s.Inv) ∧ (s.frame? id = some f) ∧ (f.state = .ackWait ∧ f.until_ ≤ u) ∧ (s.rd.rxs.any (fun (r : Nat × Rx) => decide (laneTrx r.2.lane = f.trx ∧ f.sent < r.2.ts ∧ r.2.ts ≤ f.until_)) = false) ∧ (s.tracked f.req.node = false) ∧ (f.resends < (if s.tsch f.req.pan then s.getF R.MAC_TSCH_CFG_RETRIES else s.getF R.MAC_CSMA_CFG_RETRIES))) ∧
    (∃ s : State, ∃ id : Nat, ∃ u : Nat, (s.Inv) ∧ ((s.frame? id).all (fun (f : Frame) => f.state != .ackWait || decide (u < f.until_)) = true)) ∧
    (∃ s : State, ∃ id : Nat, ∃ u : Nat, ∃ f : Frame, (s.Inv) ∧ (s.frame? id = some f) ∧ (f.req.deadline ≠ 0xFFFFFFFFFF ∧ f.req.deadline < s.asn (max s.mtb u)) ∧ (f.state = .waiting ∨ f.state = .backoff ∨ f.state = .sense)) ∧
    (∃ s : State, ∃ id : Nat, ∃ u : Nat, ∃ f : Frame, (s.Inv) ∧ (s.frame? id = some f) ∧ (f.req.deadline = 0xFFFFFFFFFF ∨ s.asn (max s.mtb u) ≤ f.req.deadline ∨ f.free = false)) :=
  ⟨⟨{ wS [] with tm := { started := true }, sl := { loadNow := 4 }, mac := { plans := [(0, {}), (2, {})] } }, (12375000 : Nat), by decide⟩,
    ⟨{ wS [(R.START_STATE_PHASE, 1)] with mac := {  } }, (12375000 : Nat), by decide⟩,
    ⟨{ wS [] with mac := { slot := some 7 } }, (7 : Nat), by decide⟩,
    ⟨{ wS [] with mac := { slot := some 7, plans := [(9, {})] } }, by decide⟩,
    ⟨{ wS [(R.MAC_CTRL_PAN_EN, 3), (R.TRX_STATE_STATE 0, 3), (R.TRX_STATE_TARGET 0, 3)] with queues := [(7, { entries := [⟨0x80000000, 32, 3, 1, 0, 0, leBytes 4 5 ++ leBytes 1 0 ++ leBytes 1 1 ++ leBytes 2 9 ++ leBytes 4 0x10000000 ++ leBytes 2 30 ++ leBytes 1 5 ++ leBytes 1 0 ++ leBytes 5 0xFFFFFFFFFF ++ leBytes 1 0x80 ++ leBytes 2 0 ++ leBytes 4 0 ++ leBytes 4 0, 0⟩], onDie := 1 })] }, (100 : Nat), (7 : Nat), (⟨0x80000000, 32, 3, 1, 0, 0, leBytes 4 5 ++ leBytes 1 0 ++ leBytes 1 1 ++ leBytes 2 9 ++ leBytes 4 0x10000000 ++ leBytes 2 30 ++ leBytes 1 5 ++ leBytes 1 0 ++ leBytes 5 0xFFFFFFFFFF ++ leBytes 1 0x80 ++ leBytes 2 0 ++ leBytes 4 0 ++ leBytes 4 0, 0⟩ : Entry), (txReqOf (leBytes 4 5 ++ leBytes 1 0 ++ leBytes 1 1 ++ leBytes 2 9 ++ leBytes 4 0x10000000 ++ leBytes 2 30 ++ leBytes 1 5 ++ leBytes 1 0 ++ leBytes 5 0xFFFFFFFFFF ++ leBytes 1 0x80 ++ leBytes 2 0 ++ leBytes 4 0 ++ leBytes 4 0) : TxReq), by decide⟩,
    ⟨{ wS [(R.MAC_CTRL_PAN_EN, 3)] with queues := [(7, { entries := [⟨0x80000000, 32, 3, 1, 0, 0, [0xFF, 0xFF, 0xFF, 0xFF], 0⟩], onDie := 1 })] }, (100 : Nat), (7 : Nat), (ST.MAC_RANGE : Nat), (⟨0x80000000, 32, 3, 1, 0, 0, [0xFF, 0xFF, 0xFF, 0xFF], 0⟩ : Entry), (txReqOf [0xFF, 0xFF, 0xFF, 0xFF] : TxReq), by decide⟩,
    ⟨wS [], by decide⟩,
    ⟨{ wS [(R.TRX_STATE_STATE 1, 3), (R.TRX_STATE_TARGET 1, 3)] with mac := { slot := some 0, frames := [(3, { req := { node := 5, pan := 0, ar := true, fp := false, tag := 9, buf := 0x10000000, len := 30, sec := 0, key := 0, deadline := 0xFFFFFFFFFF, power := 0x80, phy := 0, chan := 0, reserved := false } })], plans := [(0, { txs := [{ trx := 2, cell := ⟨0, 0, 0, 0, 1, 2, 0, 5⟩, chan := 2440000, phy := 0x3000, of := .frame 3, ackLane := 64 }] })] } }, (2 : Fin 4), (0 : Nat), ({ trx := 2, cell := ⟨0, 0, 0, 0, 1, 2, 0, 5⟩, chan := 2440000, phy := 0x3000, of := .frame 3, ackLane := 64 } : TxCell), by decide⟩,
    ⟨{ wS [(R.TRX_STATE_STATE 0, 3), (R.TRX_STATE_TARGET 0, 3)] with mac := { slot := some 0, frames := [(3, { req := { node := 5, pan := 0, ar := true, fp := false, tag := 9, buf := 0x10000000, len := 30, sec := 0, key := 0, deadline := 0xFFFFFFFFFF, power := 0x80, phy := 0, chan := 0, reserved := false } })], plans := [(0, { txs := [{ trx := 0, cell := ⟨0, 0, 0, 0, 1, 0, 0, 5⟩, chan := 868000, phy := 0x1000, of := .frame 3, ackLane := 64 }] })] } }, (0 : Fin 4), (0 : Nat), ({ trx := 0, cell := ⟨0, 0, 0, 0, 1, 0, 0, 5⟩, chan := 868000, phy := 0x1000, of := .frame 3, ackLane := 64 } : TxCell), by decide⟩,
    ⟨wS [(R.PAIR_STATE_ROLE, 2)], by decide⟩,
    ⟨{ wS [(R.TRX_STATE_STATE 2, 3), (R.TRX_STATE_TARGET 2, 3)] with mac := { frames := [(3, { req := { node := 5, pan := 1, ar := true, fp := false, tag := 9, buf := 0x10000000, len := 30, sec := 0, key := 0, deadline := 77, power := 0x80, phy := 0x3000, chan := 2440000, reserved := false }, state := .sense })], senses := [(4, { of := .frame 3, chan := 2440000, dur := 8, until_ := 500 })] } }, (2 : Fin 4), (0 : Fin 2), (-900 : Int), ({ of := .frame 3, chan := 2440000, dur := 8, until_ := 500 } : Sense), ({ req := { node := 5, pan := 1, ar := true, fp := false, tag := 9, buf := 0x10000000, len := 30, sec := 0, key := 0, deadline := 77, power := 0x80, phy := 0x3000, chan := 2440000, reserved := false }, state := .sense } : Frame), (3 : Nat), by decide⟩,
    ⟨{ wS [(R.TRX_STATE_STATE 2, 3), (R.TRX_STATE_TARGET 2, 3), (R.MAC_CSMA_CFG_MAX_BACKOFFS, 4)] with mac := { frames := [(3, { req := { node := 5, pan := 1, ar := true, fp := false, tag := 9, buf := 0x10000000, len := 30, sec := 0, key := 0, deadline := 77, power := 0x80, phy := 0x3000, chan := 2440000, reserved := false }, state := .sense })], senses := [(4, { of := .frame 3, chan := 2440000, dur := 8, until_ := 500 })] } }, (2 : Fin 4), (0 : Fin 2), (0 : Int), (3 : Nat), ({ of := .frame 3, chan := 2440000, dur := 8, until_ := 500 } : Sense), ({ req := { node := 5, pan := 1, ar := true, fp := false, tag := 9, buf := 0x10000000, len := 30, sec := 0, key := 0, deadline := 77, power := 0x80, phy := 0x3000, chan := 2440000, reserved := false }, state := .sense } : Frame), by decide⟩,
    ⟨{ wS [(R.TRX_STATE_STATE 2, 3), (R.TRX_STATE_TARGET 2, 3)] with mac := { slot := some 0, frames := [(3, { req := { node := 5, pan := 0, ar := true, fp := false, tag := 9, buf := 0x10000000, len := 30, sec := 0, key := 0, deadline := 0xFFFFFFFFFF, power := 0x80, phy := 0, chan := 0, reserved := false }, state := .sense })], plans := [(0, { txs := [{ trx := 2, cell := ⟨0, 0, 0, 0, 1, 2, 0, 5⟩, chan := 2440000, phy := 0x3000, of := .frame 3, ackLane := 64 }] })], senses := [(4, { of := .frame 3, chan := 2440000, dur := 8, until_ := 500, slot := some 0 })] } }, (2 : Fin 4), (0 : Fin 2), (0 : Nat), ({ of := .frame 3, chan := 2440000, dur := 8, until_ := 500, slot := some 0 } : Sense), ({ trx := 2, cell := ⟨0, 0, 0, 0, 1, 2, 0, 5⟩, chan := 2440000, phy := 0x3000, of := .frame 3, ackLane := 64 } : TxCell), by decide⟩,
    ⟨wS [], (2 : Fin 4), (0 : Fin 2), by decide⟩,
    ⟨{ wS [(R.TRX_STATE_STATE 2, 3), (R.TRX_STATE_TARGET 2, 3)] with mac := { frames := [(3, { req := { node := 5, pan := 1, ar := true, fp := false, tag := 9, buf := 0x10000000, len := 30, sec := 0, key := 0, deadline := 77, power := 0x80, phy := 0x3000, chan := 2440000, reserved := false }, state := .backoff, until_ := 400 })] } }, (3 : Nat), (2 : Nat), ({ req := { node := 5, pan := 1, ar := true, fp := false, tag := 9, buf := 0x10000000, len := 30, sec := 0, key := 0, deadline := 77, power := 0x80, phy := 0x3000, chan := 2440000, reserved := false }, state := .backoff, until_ := 400 } : Frame), by decide⟩,
    ⟨wS [], (3 : Nat), by decide⟩,
    ⟨{ wS [(R.MAC_CSMA_CFG_RETRIES, 3)] with mac := { frames := [(3, { req := { node := 5, pan := 1, ar := true, fp := false, tag := 9, buf := 0x10000000, len := 30, sec := 0, key := 0, deadline := 77, power := 0x80, phy := 0x3000, chan := 2440000, reserved := false }, state := .ackWait, until_ := 400, resends := 3 })] } }, (3 : Nat), (500 : Nat), ({ req := { node := 5, pan := 1, ar := true, fp := false, tag := 9, buf := 0x10000000, len := 30, sec := 0, key := 0, deadline := 77, power := 0x80, phy := 0x3000, chan := 2440000, reserved := false }, state := .ackWait, until_ := 400, resends := 3 } : Frame), by decide⟩,
    ⟨{ wS [(R.MAC_CSMA_CFG_RETRIES, 3)] with mac := { frames := [(3, { req := { node := 5, pan := 1, ar := true, fp := false, tag := 9, buf := 0x10000000, len := 30, sec := 0, key := 0, deadline := 77, power := 0x80, phy := 0x3000, chan := 2440000, reserved := false }, state := .ackWait, until_ := 400, resends := 2 })] } }, (3 : Nat), (500 : Nat), ({ req := { node := 5, pan := 1, ar := true, fp := false, tag := 9, buf := 0x10000000, len := 30, sec := 0, key := 0, deadline := 77, power := 0x80, phy := 0x3000, chan := 2440000, reserved := false }, state := .ackWait, until_ := 400, resends := 2 } : Frame), by decide⟩,
    ⟨wS [], (3 : Nat), (500 : Nat), by decide⟩,
    ⟨{ wS [] with mtb := 12890625000, mac := { frames := [(3, { req := { node := 5, pan := 1, ar := true, fp := false, tag := 9, buf := 0x10000000, len := 30, sec := 0, key := 0, deadline := 77, power := 0x80, phy := 0x3000, chan := 2440000, reserved := false }, state := .sense, held := true })], senses := [(4, { of := .frame 3, chan := 2440000, dur := 8, until_ := 500 })] } }, (3 : Nat), (500 : Nat), ({ req := { node := 5, pan := 1, ar := true, fp := false, tag := 9, buf := 0x10000000, len := 30, sec := 0, key := 0, deadline := 77, power := 0x80, phy := 0x3000, chan := 2440000, reserved := false }, state := .sense, held := true } : Frame), by decide⟩,
    ⟨{ wS [] with mac := { frames := [(3, { req := { node := 5, pan := 1, ar := true, fp := false, tag := 9, buf := 0x10000000, len := 30, sec := 0, key := 0, deadline := 77, power := 0x80, phy := 0x3000, chan := 2440000, reserved := false }, state := .issued })] } }, (3 : Nat), (500 : Nat), ({ req := { node := 5, pan := 1, ar := true, fp := false, tag := 9, buf := 0x10000000, len := 30, sec := 0, key := 0, deadline := 77, power := 0x80, phy := 0x3000, chan := 2440000, reserved := false }, state := .issued } : Frame), by decide⟩⟩

/-- States and operands that meet the hypotheses of each clause of MacAccountsAndRegisters. -/
theorem test_MacAccountsAndRegisters_witness :
    (∃ s : State, ∃ q : Nat, ∃ p : Nat, ∃ e : Entry, ∃ d : List Byte, ∃ c : MacCmd, (s.Inv) ∧ (s.macQueue true = some (q, e)) ∧ (s.itemOf e 16 = d) ∧ (Store.find? (leNat ((d.drop 8).take 2)) s.mac.cmds = some c) ∧ (leNat ((d.drop 10).take 2) = ST.OK ∧ leNat (d.take 8) ≠ 0) ∧ (c.of = .beacon p)) ∧
    (∃ s : State, ∃ q : Nat, ∃ id : Nat, ∃ e : Entry, ∃ d : List Byte, ∃ c : MacCmd, ∃ f : Frame, (s.Inv) ∧ (s.macQueue true = some (q, e)) ∧ (s.itemOf e 16 = d) ∧ (Store.find? (leNat ((d.drop 8).take 2)) s.mac.cmds = some c) ∧ (leNat ((d.drop 10).take 2) = ST.OK ∧ leNat (d.take 8) ≠ 0) ∧ (c.of = .frame id) ∧ (s.frame? id = some f) ∧ (f.req.ar = true ∧ f.req.node ≠ nodeNone)) ∧
    (∃ s : State, ∃ q : Nat, ∃ id : Nat, ∃ e : Entry, ∃ d : List Byte, ∃ c : MacCmd, ∃ f : Frame, (s.Inv) ∧ (s.macQueue true = some (q, e)) ∧ (s.itemOf e 16 = d) ∧ (Store.find? (leNat ((d.drop 8).take 2)) s.mac.cmds = some c) ∧ (leNat ((d.drop 10).take 2) = ST.OK ∧ leNat (d.take 8) ≠ 0) ∧ (c.of = .frame id) ∧ (s.frame? id = some f) ∧ (f.req.ar = false ∨ f.req.node = nodeNone)) ∧
    (∃ s : State, ∃ q : Nat, ∃ id : Nat, ∃ e : Entry, ∃ d : List Byte, ∃ c : MacCmd, ∃ f : Frame, (s.Inv) ∧ (s.macQueue true = some (q, e)) ∧ (s.itemOf e 16 = d) ∧ (Store.find? (leNat ((d.drop 8).take 2)) s.mac.cmds = some c) ∧ (leNat ((d.drop 10).take 2) ≠ ST.OK ∧ leNat (d.take 8) = 0) ∧ (c.of = .frame id) ∧ (s.frame? id = some f) ∧ (s.tracked f.req.node = false)) ∧
    (∃ s : State, ∃ q : Nat, ∃ k : Nat, ∃ e : Entry, ∃ d : List Byte, ∃ c : MacCmd, (s.Inv) ∧ (s.macQueue true = some (q, e)) ∧ (s.itemOf e 16 = d) ∧ (Store.find? (leNat ((d.drop 8).take 2)) s.mac.cmds = some c) ∧ (leNat ((d.drop 10).take 2) = ST.OK ∧ leNat (d.take 8) ≠ 0) ∧ (c.of = .ack k)) ∧
    (∃ s : State, (s.Inv) ∧ (s.macQueue true = none)) ∧
    (∃ s : State, ∃ p : Fin 16, ∃ n : Fin 4, ∃ u : Nat, ∃ a : PanRec, (s.Inv) ∧ (s.panRec p = some a) ∧ (s.tsch p = true ∧ s.panEnabled p = true) ∧ (bitOf a.trxMask n = true ∧ a.ebPeriod ≠ 0) ∧ (Store.get (fun _ => 0) s.mac.ebLast (p.val * 4 + n.val) + a.ebPeriod ≤ s.asn (max s.mtb u))) ∧
    (∃ s : State, ∃ p : Fin 16, ∃ n : Fin 4, (s.Inv) ∧ (s.tsch p = false ∨ s.panEnabled p = false ∨ (s.panRec p).all (fun (a : PanRec) => !bitOf a.trxMask n || decide (a.ebPeriod = 0)) = true)) ∧
    (∃ s : State, ∃ n : Fin 4, ∃ e : Nat, (s.Inv) ∧ (Store.find? n.val s.mac.off = some e)) ∧
    (∃ s : State, ∃ n : Fin 4, (s.Inv) ∧ (Store.find? n.val s.mac.off = none)) ∧
    (∃ s : State, ∃ n : Fin 4, ∃ c : Nat, ∃ d : Nat, ∃ k : Nat, (s.Inv) ∧ (Store.find? n.val s.mac.cuts = some c) ∧ (((s.advance c).groupPlan n true (s.mac.owed.length + 1)).2 = some (d, k)) ∧ (d - 48064 ≤ max s.mtb c)) ∧
    (∃ s : State, ∃ n : Fin 4, ∃ c : Nat, ∃ a : Owed, (s.Inv) ∧ (Store.find? n.val s.mac.cuts = some c) ∧ (s.mac.owed = [a] ∧ a.trx = n) ∧ (s.liveRx n = [] ∧ Store.find? n.val s.mac.braids = none) ∧ (a.sealed = none ∧ dcycEdge a.nominal ≤ a.last) ∧ (dcycEdge a.nominal - 48064 ≤ max s.mtb c) ∧ ((s.advance c).dutyFits n (airCyc a.phy a.octets) = true)) ∧
    (∃ s : State, ∃ n : Fin 4, (s.Inv) ∧ (Store.find? n.val s.mac.cuts = none)) ∧
    (∃ s : State, ∃ en : BitVec 16, (s.Inv) ∧ ((List.range 16).any (fun p => bitOf en.toNat p && (s.panRec p).isNone) = false)) ∧
    (∃ s : State, ∃ en : BitVec 16, (s.Inv) ∧ ((List.range 16).any (fun p => bitOf en.toNat p && (s.panRec p).isNone) = true)) ∧
    (∃ s : State, ∃ en : Bool, ∃ len : Fin 65536, ∃ b : Nat, (s.Inv) ∧ (sfBank (s.getF R.MAC_PAN_SEL_PAN) (s.getF R.MAC_SF_SEL_HANDLE) = b) ∧ (s.tsch (s.getF R.MAC_PAN_SEL_PAN) = true) ∧ (len.val ≠ 0) ∧ (en = true → s.getF (R.MAC_SF_BASE_ROW_BASE.bank b) % 256 = 0 ∧ s.getF (R.MAC_SF_BASE_ROW_BASE.bank b) + 256 * len.val ≤ (s.region 2).2) ∧ (s.isSet (R.MAC_SF_CFG_EN.bank b) = true → len.val = s.getF (R.MAC_SF_CFG_LENGTH.bank b))) ∧
    (∃ s : State, ∃ en : Bool, ∃ len : Fin 65536, ∃ w : Nat, (s.Inv) ∧ (¬ (en = false ∧ len.val = s.getF (R.MAC_SF_CFG_LENGTH.bank (sfBank (s.getF R.MAC_PAN_SEL_PAN) (s.getF R.MAC_SF_SEL_HANDLE))))) ∧ ((if s.tsch (s.getF R.MAC_PAN_SEL_PAN) = false then some ST.MAC_NOT_TSCH else if len.val = 0 then some ST.MAC_RANGE else none) = some w)) :=
  ⟨⟨{ wS [] with mtb := 900000000, mac := { ebDue := [0, 2], cmds := [(7, { of := .beacon 0, trx := 2, air := 10, bucket := 0 })] }, queues := [(7, { entries := [⟨0x80000000, 16, 3, 0x22, 7, 0, leBytes 8 50000000 ++ leBytes 2 7 ++ leBytes 6 0, 0⟩], onDie := 1 })] }, (7 : Nat), (0 : Nat), (⟨0x80000000, 16, 3, 0x22, 7, 0, leBytes 8 50000000 ++ leBytes 2 7 ++ leBytes 6 0, 0⟩ : Entry), (leBytes 8 50000000 ++ leBytes 2 7 ++ leBytes 6 0 : List Byte), ({ of := .beacon 0, trx := 2, air := 10, bucket := 0 } : MacCmd), by decide⟩,
    ⟨{ wS [] with mtb := 900000000, mac := { ebDue := [0, 2], frames := [(3, { req := { node := 5, pan := 1, ar := true, fp := false, tag := 9, buf := 0x10000000, len := 30, sec := 0, key := 0, deadline := 77, power := 0x80, phy := 0x3000, chan := 2440000, reserved := false }, state := .issued })], cmds := [(7, { of := .frame 3, trx := 2, air := 10, bucket := 0 })] }, queues := [(7, { entries := [⟨0x80000000, 16, 3, 0x22, 7, 0, leBytes 8 50000000 ++ leBytes 2 7 ++ leBytes 6 0, 0⟩], onDie := 1 })] }, (7 : Nat), (3 : Nat), (⟨0x80000000, 16, 3, 0x22, 7, 0, leBytes 8 50000000 ++ leBytes 2 7 ++ leBytes 6 0, 0⟩ : Entry), (leBytes 8 50000000 ++ leBytes 2 7 ++ leBytes 6 0 : List Byte), ({ of := .frame 3, trx := 2, air := 10, bucket := 0 } : MacCmd), ({ req := { node := 5, pan := 1, ar := true, fp := false, tag := 9, buf := 0x10000000, len := 30, sec := 0, key := 0, deadline := 77, power := 0x80, phy := 0x3000, chan := 2440000, reserved := false }, state := .issued } : Frame), by decide⟩,
    ⟨{ wS [] with mtb := 900000000, mac := { ebDue := [0, 2], frames := [(3, { req := { node := 5, pan := 1, ar := false, fp := false, tag := 9, buf := 0x10000000, len := 30, sec := 0, key := 0, deadline := 77, power := 0x80, phy := 0x3000, chan := 2440000, reserved := false }, state := .issued })], cmds := [(7, { of := .frame 3, trx := 2, air := 10, bucket := 0 })] }, queues := [(7, { entries := [⟨0x80000000, 16, 3, 0x22, 7, 0, leBytes 8 50000000 ++ leBytes 2 7 ++ leBytes 6 0, 0⟩], onDie := 1 })] }, (7 : Nat), (3 : Nat), (⟨0x80000000, 16, 3, 0x22, 7, 0, leBytes 8 50000000 ++ leBytes 2 7 ++ leBytes 6 0, 0⟩ : Entry), (leBytes 8 50000000 ++ leBytes 2 7 ++ leBytes 6 0 : List Byte), ({ of := .frame 3, trx := 2, air := 10, bucket := 0 } : MacCmd), ({ req := { node := 5, pan := 1, ar := false, fp := false, tag := 9, buf := 0x10000000, len := 30, sec := 0, key := 0, deadline := 77, power := 0x80, phy := 0x3000, chan := 2440000, reserved := false }, state := .issued } : Frame), by decide⟩,
    ⟨{ wS [] with mtb := 900000000, mac := { ebDue := [0, 2], frames := [(3, { req := { node := 5, pan := 1, ar := true, fp := false, tag := 9, buf := 0x10000000, len := 30, sec := 0, key := 0, deadline := 77, power := 0x80, phy := 0x3000, chan := 2440000, reserved := false }, state := .issued })], cmds := [(7, { of := .frame 3, trx := 2, air := 10, bucket := 0 })] }, queues := [(7, { entries := [⟨0x80000000, 16, 3, 0x22, 7, 0, leBytes 8 0 ++ leBytes 2 7 ++ leBytes 2 9 ++ leBytes 4 0, 0⟩], onDie := 1 })] }, (7 : Nat), (3 : Nat), (⟨0x80000000, 16, 3, 0x22, 7, 0, leBytes 8 0 ++ leBytes 2 7 ++ leBytes 2 9 ++ leBytes 4 0, 0⟩ : Entry), (leBytes 8 0 ++ leBytes 2 7 ++ leBytes 2 9 ++ leBytes 4 0 : List Byte), ({ of := .frame 3, trx := 2, air := 10, bucket := 0 } : MacCmd), ({ req := { node := 5, pan := 1, ar := true, fp := false, tag := 9, buf := 0x10000000, len := 30, sec := 0, key := 0, deadline := 77, power := 0x80, phy := 0x3000, chan := 2440000, reserved := false }, state := .issued } : Frame), by decide⟩,
    ⟨{ wS [] with mtb := 900000000, mac := { ebDue := [0, 2], cmds := [(7, { of := .ack 4, trx := 2, air := 10, bucket := 0 })] }, queues := [(7, { entries := [⟨0x80000000, 16, 3, 0x22, 7, 0, leBytes 8 50000000 ++ leBytes 2 7 ++ leBytes 6 0, 0⟩], onDie := 1 })] }, (7 : Nat), (4 : Nat), (⟨0x80000000, 16, 3, 0x22, 7, 0, leBytes 8 50000000 ++ leBytes 2 7 ++ leBytes 6 0, 0⟩ : Entry), (leBytes 8 50000000 ++ leBytes 2 7 ++ leBytes 6 0 : List Byte), ({ of := .ack 4, trx := 2, air := 10, bucket := 0 } : MacCmd), by decide⟩,
    ⟨wS [], by decide⟩,
    ⟨{ wS [(R.MAC_CTRL_PAN_EN, 3)] with mac := {  } }, (0 : Fin 16), (0 : Fin 4), (12890625000 : Nat), (⟨0x1234, 1, 1, 5, 5, 10, 0, 2, 100⟩ : PanRec), by decide⟩,
    ⟨wS [], (0 : Fin 16), (0 : Fin 4), by decide⟩,
    ⟨{ wS [] with mac := { off := [(1, 500)] } }, (1 : Fin 4), (500 : Nat), by decide⟩,
    ⟨wS [], (1 : Fin 4), by decide⟩,
    ⟨{ wS [] with mtb := 100000, mac := { cuts := [(2, 101936)], owed := [{ rx := 4, trx := 2, node := 5, chan := 2440000, phy := 0x3000, flags := 0, nominal := 150000, slide := 4000, body := [2, 0, 9], fcs := 2, tc := none, sealed := none, obs := none }] } }, (2 : Fin 4), (101936 : Nat), (150000 : Nat), (0 : Nat), by decide⟩,
    ⟨{ wS [] with mtb := 100000, mac := { cuts := [(2, 101936)], owed := [{ rx := 4, trx := 2, node := 5, chan := 2440000, phy := 0x3000, flags := 0, nominal := 150000, slide := 4000, body := [2, 0, 9], fcs := 2, tc := none, sealed := none, obs := none }] } }, (2 : Fin 4), (101936 : Nat), ({ rx := 4, trx := 2, node := 5, chan := 2440000, phy := 0x3000, flags := 0, nominal := 150000, slide := 4000, body := [2, 0, 9], fcs := 2, tc := none, sealed := none, obs := none } : Owed), by decide⟩,
    ⟨wS [], (1 : Fin 4), by decide⟩,
    ⟨{ wS [(R.MAC_CTRL_PAN_EN, 3)] with mac := { frames := [(3, { req := { node := 5, pan := 1, ar := true, fp := false, tag := 9, buf := 0x10000000, len := 30, sec := 0, key := 0, deadline := 77, power := 0x80, phy := 0x3000, chan := 2440000, reserved := false } }), (4, { req := { node := 5, pan := 0, ar := true, fp := false, tag := 9, buf := 0x10000000, len := 30, sec := 0, key := 0, deadline := 0xFFFFFFFFFF, power := 0x80, phy := 0, chan := 0, reserved := false } })] } }, (1 : BitVec 16), by decide⟩,
    ⟨wS [], (0x8000 : BitVec 16), by decide⟩,
    ⟨wS [], (true : Bool), (101 : Fin 65536), (0 : Nat), by decide⟩,
    ⟨wS [(R.MAC_PAN_SEL_PAN, 1)], (true : Bool), (101 : Fin 65536), (ST.MAC_NOT_TSCH : Nat), by decide⟩⟩

/-- States and operands that meet the hypotheses of each clause of SleepyNodes. -/
theorem test_SleepyNodes_witness :
    (∃ s : State, ∃ n : BitVec 18, (s.Inv) ∧ (s.roleSends = true ∧ n.toNat < s.pr.table.nodeLimit) ∧ (s.slMode n.toNat = 1 ∨ s.slMode n.toNat = 2) ∧ (s.slState n.toNat = 0)) ∧
    (∃ s : State, ∃ n : BitVec 18, (s.Inv) ∧ (s.roleSends = true ∧ n.toNat < s.pr.table.nodeLimit) ∧ (s.slMode n.toNat = 1 ∨ s.slMode n.toNat = 2) ∧ (s.slState n.toNat ≠ 0)) ∧
    (∃ s : State, ∃ n : BitVec 18, ∃ w : Nat, (s.Inv) ∧ ((if n.toNat ≥ s.pr.table.nodeLimit then some ST.SLEEP_RANGE else if s.roleSends = false then some ST.SLEEP_STATE else if s.slMode n.toNat = 0 ∨ 2 < s.slMode n.toNat then some ST.SLEEP_RANGE else none) = some w)) ∧
    (∃ s : State, ∃ n : BitVec 18, (s.Inv) ∧ (s.roleSends = true ∧ n.toNat < s.pr.table.nodeLimit) ∧ (s.slState n.toNat ≠ 0)) ∧
    (∃ s : State, ∃ n : BitVec 18, ∃ w : Nat, (s.Inv) ∧ ((if n.toNat ≥ s.pr.table.nodeLimit then some ST.SLEEP_RANGE else if s.roleSends = false then some ST.SLEEP_STATE else if s.slState n.toNat = 0 then some ST.SLEEP_NOT_TRACKED else none) = some w)) ∧
    (∃ s : State, ∃ n : BitVec 18, (s.Inv) ∧ (s.roleSends = true ∧ n.toNat < s.pr.table.nodeLimit) ∧ (s.slState n.toNat ≠ 0 ∧ s.slState n.toNat ≠ 4)) ∧
    (∃ s : State, ∃ n : BitVec 18, ∃ w : Nat, (s.Inv) ∧ ((if n.toNat ≥ s.pr.table.nodeLimit then some ST.SLEEP_RANGE else if s.roleSends = false then some ST.SLEEP_STATE else if s.slState n.toNat = 0 then some ST.SLEEP_NOT_TRACKED else if s.slState n.toNat = 4 then some ST.SLEEP_STATE else none) = some w)) ∧
    (∃ s : State, ∃ n : BitVec 18, (s.Inv) ∧ (s.roleSends = true ∧ n.toNat < s.pr.table.nodeLimit) ∧ (s.slState n.toNat ≠ 0)) ∧
    (∃ s : State, ∃ n : BitVec 18, (s.Inv) ∧ (s.roleSends = true ∧ n.toNat < s.pr.table.nodeLimit) ∧ (s.slState n.toNat ≠ 0 ∧ s.slState n.toNat ≠ 4) ∧ (bitOf (s.slGet n.toNat 3 1) 0 = true) ∧ ((s.trxRec (s.slGet n.toNat 3 1 / 2 % 4)).any (fun (r : TrxRec) => r.wake == 1) = true)) ∧
    (∃ s : State, ∃ n : BitVec 18, ∃ w : Nat, (s.Inv) ∧ ((if n.toNat ≥ s.pr.table.nodeLimit then some ST.SLEEP_RANGE else if s.roleSends = false then some ST.SLEEP_STATE else if bitOf (s.slGet n.toNat 3 1) 0 = false ∨ (s.trxRec (s.slGet n.toNat 3 1 / 2 % 4)).any (fun (r : TrxRec) => r.wake == 1) = false then some ST.SLEEP_NO_WAKE else if s.slState n.toNat = 0 then some ST.SLEEP_NOT_TRACKED else if s.slState n.toNat = 4 then some ST.SLEEP_STATE else none) = some w)) ∧
    (∃ s : State, ∃ n : BitVec 18, ∃ a : Nat, (s.Inv) ∧ (s.roleSends = true ∧ n.toNat < s.pr.table.nodeLimit) ∧ (s.getF R.SLEEP_LINK_A_NODE_A = a ∧ a < s.pr.table.nodeLimit) ∧ (s.leaf a = true ∧ s.leaf n.toNat = true) ∧ (a ≠ n.toNat ∧ s.nodePan a = s.nodePan n.toNat) ∧ (s.linked a n.toNat = false) ∧ (s.sl.links.length < 4096 ∧ (s.linksOf a).length < 8 ∧ (s.linksOf n.toNat).length < 8)) ∧
    (∃ s : State, ∃ n : BitVec 18, ∃ a : Nat, (s.Inv) ∧ (s.roleSends = true ∧ n.toNat < s.pr.table.nodeLimit) ∧ (s.getF R.SLEEP_LINK_A_NODE_A = a ∧ a < s.pr.table.nodeLimit) ∧ (s.leaf a = true ∧ s.leaf n.toNat = true ∧ a ≠ n.toNat ∧ s.nodePan a = s.nodePan n.toNat) ∧ (s.linked a n.toNat = true)) ∧
    (∃ s : State, ∃ n : BitVec 18, ∃ a : Nat, ∃ w : Nat, (s.Inv) ∧ (s.getF R.SLEEP_LINK_A_NODE_A = a) ∧ ((if s.pr.table.nodeLimit ≤ a ∨ s.pr.table.nodeLimit ≤ n.toNat then some ST.SLEEP_RANGE else if s.roleSends = false then some ST.SLEEP_STATE else if s.leaf a = false ∨ s.leaf n.toNat = false ∨ a = n.toNat ∨ s.nodePan a ≠ s.nodePan n.toNat then some ST.SLEEP_RANGE else if s.linked a n.toNat = false ∧ (4096 ≤ s.sl.links.length ∨ 8 ≤ (s.linksOf a).length ∨ 8 ≤ (s.linksOf n.toNat).length) then some ST.SLEEP_LINK_FULL else none) = some w)) ∧
    (∃ s : State, ∃ n : BitVec 18, ∃ a : Nat, (s.Inv) ∧ (s.roleSends = true ∧ n.toNat < s.pr.table.nodeLimit) ∧ (s.getF R.SLEEP_LINK_A_NODE_A = a ∧ a < s.pr.table.nodeLimit) ∧ (s.linked a n.toNat = true)) ∧
    (∃ s : State, ∃ n : BitVec 18, ∃ a : Nat, ∃ w : Nat, (s.Inv) ∧ (s.getF R.SLEEP_LINK_A_NODE_A = a) ∧ ((if s.pr.table.nodeLimit ≤ a ∨ s.pr.table.nodeLimit ≤ n.toNat then some ST.SLEEP_RANGE else if s.roleSends = false then some ST.SLEEP_STATE else if s.linked a n.toNat = false then some ST.SLEEP_RANGE else none) = some w)) ∧
    (∃ s : State, ∃ u : Nat, (s.Inv) ∧ ((match s.t3Head with | none => true | some (n, w) => decide (s.asn (max s.mtb u) < w.key) || s.hearing n) = true)) ∧
    (∃ s : State, ∃ u : Nat, ∃ n : Nat, ∃ w : Wake, (s.Inv) ∧ (s.t3Head = some (n, w)) ∧ (w.key ≤ s.asn (max s.mtb u) ∧ s.hearing n = false) ∧ (s.sl.loadNow < 2048)) ∧
    (∃ s : State, ∃ u : Nat, ∃ n : Nat, ∃ w : Wake, (s.Inv) ∧ (s.t3Head = some (n, w)) ∧ (w.key ≤ s.asn (max s.mtb u) ∧ s.hearing n = false) ∧ (2048 ≤ s.sl.loadNow)) ∧
    (∃ s : State, ∃ u : Nat, ∃ n : Nat, ∃ w : Wake, (s.Inv) ∧ (s.t3Head = some (n, w)) ∧ (w.key ≤ s.asn (max s.mtb u) ∧ s.hearing n = false) ∧ (s.sl.loadNow < 2048) ∧ (s.slState n = 1 ∧ s.headFor n = none)) ∧
    (∃ s : State, ∃ u : Nat, ∃ n : Nat, ∃ id : Nat, ∃ slot : Nat, ∃ at_ : Nat, ∃ w : Wake, ∃ f : Frame, (s.Inv) ∧ (s.t3Head = some (n, w)) ∧ (w.key ≤ s.asn (max s.mtb u) ∧ s.hearing n = false) ∧ (s.sl.loadNow < 2048) ∧ (s.slState n = 2 ∧ s.slMode n = 2) ∧ (s.headFor n = some (id, f) ∧ f.state = .waiting) ∧ (Store.find? n s.sl.acts = none) ∧ ((s.advance u).opp n (s.advance u).firstSlot 0 = some (slot, at_)) ∧ (((s.advance u).predict n at_).2 ≤ (s.gEff n : Int) ∧ ((s.advance u).predict n at_).1.natAbs ≤ s.steer) ∧ (s.misses n < s.getF R.SLEEP_LADDER_RETRY_L0)) ∧
    (∃ s : State, ∃ n : BitVec 18, ∃ c : Call, ∃ u : Nat, (s.Inv) ∧ (Store.find? n.toNat s.sl.calls = some c) ∧ (c.until_ = some u) ∧ (s.slState n.toNat = 4 ∧ s.slMode n.toNat = 2) ∧ (s.rd.rxs.all (fun r => decide (u < r.2.ts)) = true)) ∧
    (∃ s : State, ∃ n : BitVec 18, ∃ c : Call, ∃ u : Nat, (s.Inv) ∧ (Store.find? n.toNat s.sl.calls = some c) ∧ (c.until_ = some u) ∧ (s.slState n.toNat = 4 ∧ s.slMode n.toNat = 1) ∧ (s.rd.rxs.all (fun r => decide (u < r.2.ts)) = true)) ∧
    (∃ s : State, ∃ n : BitVec 18, (s.Inv) ∧ ((match (Store.find? n.toNat s.sl.calls).bind (fun (c : Call) => c.until_) with | none => true | some u => decide (s.slState n.toNat ≠ 4) || s.rd.rxs.any (fun r => decide (r.2.ts ≤ u))) = true)) ∧
    (∃ s : State, (s.Inv) ∧ (s.sl.rebuild = none)) ∧
    (∃ s : State, ∃ n : Nat, (s.Inv) ∧ (s.sl.rebuild = some n) ∧ (s.pr.table.nodeLimit ≤ n ∧ 0 < n)) ∧
    (∃ s : State, ∃ n : Nat, (s.Inv) ∧ (s.sl.rebuild = some n) ∧ (n < s.pr.table.nodeLimit)) ∧
    (∃ s : State, ∃ n : Nat, ∃ w : Wake, (s.Inv) ∧ (firstBy (fun (a b : Nat × Wake) => a.2.key < b.2.key || (a.2.key = b.2.key && a.2.order < b.2.order)) (s.sl.t3.filter (fun e => !e.2.onDie)) = some (n, w)) ∧ ((s.sl.t3.filter (fun (e : Nat × Wake) => e.2.onDie)).length < 4096)) ∧
    (∃ s : State, (s.Inv) ∧ (s.sl.t3.all (fun e => e.2.onDie) = true ∨ 4096 ≤ (s.sl.t3.filter (fun (e : Nat × Wake) => e.2.onDie)).length)) :=
  ⟨⟨{ wS [] with mem := [(0x80000580, 2)] }, (5 : BitVec 18), by decide⟩,
    ⟨{ wS [] with mem := [(0x80000580, 2), (0x80000581, 2)] }, (5 : BitVec 18), by decide⟩,
    ⟨wS [], (5 : BitVec 18), (ST.SLEEP_RANGE : Nat), by decide⟩,
    ⟨{ wS [(R.SLEEP_STAT_TRACKED, 7)] with mem := [(0x80000580, 2), (0x80000581, 2)], sl := { t3 := [(5, ⟨7, 0, true⟩)] }, mac := { frames := [(3, { req := { node := 5, pan := 0, ar := true, fp := false, tag := 9, buf := 0x10000000, len := 30, sec := 0, key := 0, deadline := 0xFFFFFFFFFF, power := 0x80, phy := 0, chan := 0, reserved := false } })] } }, (5 : BitVec 18), by decide⟩,
    ⟨wS [], (5 : BitVec 18), (ST.SLEEP_NOT_TRACKED : Nat), by decide⟩,
    ⟨{ wS [] with mem := [(0x80000580, 2), (0x80000581, 2)] }, (5 : BitVec 18), by decide⟩,
    ⟨wS [], (5 : BitVec 18), (ST.SLEEP_NOT_TRACKED : Nat), by decide⟩,
    ⟨{ wS [] with mem := [(0x80000580, 2), (0x80000581, 2)] }, (5 : BitVec 18), by decide⟩,
    ⟨{ wS [(R.TRX_STATE_STATE 0, 3), (R.TRX_STATE_TARGET 0, 3)] with mem := [(0x80000580, 2), (0x80000581, 2), (0x80000583, 1)] }, (5 : BitVec 18), by decide⟩,
    ⟨wS [], (5 : BitVec 18), (ST.SLEEP_NO_WAKE : Nat), by decide⟩,
    ⟨{ wS [(R.SLEEP_LINK_A_NODE_A, 6)] with mem := [(0x80000580, 2), (0x80000581, 2), (0x80000680, 2), (0x80000681, 2)] }, (5 : BitVec 18), (6 : Nat), by decide⟩,
    ⟨{ wS [(R.SLEEP_LINK_A_NODE_A, 6)] with mem := [(0x80000580, 2), (0x80000581, 2), (0x80000680, 2), (0x80000681, 2)], sl := { links := [(5, 6)] } }, (5 : BitVec 18), (6 : Nat), by decide⟩,
    ⟨wS [(R.SLEEP_LINK_A_NODE_A, 6)], (5 : BitVec 18), (6 : Nat), (ST.SLEEP_RANGE : Nat), by decide⟩,
    ⟨{ wS [(R.SLEEP_LINK_A_NODE_A, 6)] with sl := { links := [(5, 6), (5, 7)] } }, (5 : BitVec 18), (6 : Nat), by decide⟩,
    ⟨wS [(R.SLEEP_LINK_A_NODE_A, 6)], (5 : BitVec 18), (6 : Nat), (ST.SLEEP_RANGE : Nat), by decide⟩,
    ⟨wS [], (10 : Nat), by decide⟩,
    ⟨{ wS [] with mem := [(0x80000580, 2), (0x80000581, 1)], sl := { t3 := [(5, ⟨0, 0, true⟩)] } }, (10 : Nat), (5 : Nat), (⟨0, 0, true⟩ : Wake), by decide⟩,
    ⟨{ wS [] with sl := { t3 := [(5, ⟨0, 0, true⟩)], loadNow := 2048 } }, (10 : Nat), (5 : Nat), (⟨0, 0, true⟩ : Wake), by decide⟩,
    ⟨{ wS [] with mem := [(0x80000580, 2), (0x80000581, 1)], sl := { t3 := [(5, ⟨0, 0, true⟩)] } }, (10 : Nat), (5 : Nat), (⟨0, 0, true⟩ : Wake), by decide⟩,
    ⟨{ wS [(R.SLEEP_LADDER_RETRY_L0, 2), (R.SLEEP_GUARD_MARGIN_US, 0), (R.MAC_SF_CFG_LENGTH, 101), (R.SLEEP_GUARD_STEER_US, 1000)] with mem := [(0x80000580, 2), (0x80000581, 2), (0x8000059C, 200)], mac := { frames := [(3, { req := { node := 5, pan := 0, ar := true, fp := false, tag := 9, buf := 0x10000000, len := 30, sec := 0, key := 0, deadline := 0xFFFFFFFFFF, power := 0x80, phy := 0, chan := 0, reserved := false } })] }, sl := { t3 := [(5, ⟨0, 0, true⟩)] } }, (10 : Nat), (5 : Nat), (3 : Nat), (101 : Nat), (1304685938 : Nat), (⟨0, 0, true⟩ : Wake), ({ req := { node := 5, pan := 0, ar := true, fp := false, tag := 9, buf := 0x10000000, len := 30, sec := 0, key := 0, deadline := 0xFFFFFFFFFF, power := 0x80, phy := 0, chan := 0, reserved := false } } : Frame), by decide⟩,
    ⟨{ wS [] with mem := [(0x80000580, 2), (0x80000581, 4), (0x8000058C, 9)], sl := { calls := [(5, { until_ := some 700, issued := true })] } }, (5 : BitVec 18), ({ until_ := some 700, issued := true } : Call), (700 : Nat), by decide⟩,
    ⟨{ wS [] with mem := [(0x80000580, 1), (0x80000581, 4), (0x8000058C, 9)], sl := { calls := [(5, { until_ := some 700, issued := true })] } }, (5 : BitVec 18), ({ until_ := some 700, issued := true } : Call), (700 : Nat), by decide⟩,
    ⟨wS [], (5 : BitVec 18), by decide⟩,
    ⟨wS [], by decide⟩,
    ⟨{ wS [] with sl := { rebuild := some 1000 } }, (1000 : Nat), by decide⟩,
    ⟨{ wS [] with mem := [(0x80000580, 2), (0x80000581, 2)], sl := { rebuild := some 5 } }, (5 : Nat), by decide⟩,
    ⟨{ wS [] with sl := { t3 := [(5, ⟨9, 0, false⟩), (6, ⟨7, 1, false⟩)] } }, (6 : Nat), (⟨7, 1, false⟩ : Wake), by decide⟩,
    ⟨{ wS [] with sl := { t3 := [(5, ⟨9, 0, true⟩)] } }, by decide⟩⟩

/-- States and operands that meet the hypotheses of each clause of TaskInstructions. -/
theorem test_TaskInstructions_witness :
    (∃ s : State, ∃ b : Fin 16, (s.Inv) ∧ (s.executes b = false)) ∧
    (∃ s : State, ∃ b : Fin 16, ∃ w : Word, ∃ a : Nat, (s.Inv) ∧ (s.executes b = true) ∧ (localAddr b w.toNat = a) ∧ ((if s.isCustomer (s.hoopIx b) = true ∧ (bitOf (s.readNat (a + 4) 4) 31 = true ∨ s.custKind (s.hoopIx b) (s.readNat (a + 4) 4 / 2 ^ 24 % 32) = false) then some ST.PILLOW_ROLE else if w.toNat % 16 ≠ 0 ∨ 0x40000 ≤ w.toNat ∨ s.descOk a = false then some ST.PILLOW_ARG else if s.custHeld = true ∧ (s.hoopOfKind (s.readNat (a + 4) 4 / 2 ^ 24 % 32)).any s.isCustomer = true then some ST.PILLOW_HOOP_HELD else if 32768 ≤ s.pl.tasks.length then some ST.PILLOW_TASKS_FULL else if 16384 < s.pl.pins.length + s.readNat (a + 9) 1 then some ST.PILLOW_PINS_FULL else if s.windowRoom (if s.readNat (a + 10) 2 = 0xFFFF then none else some (s.readNat (a + 10) 2)) = false then some ST.PILLOW_ORDER_FULL else none) = none)) ∧
    (∃ s : State, ∃ b : Fin 16, ∃ w : Word, ∃ a : Nat, ∃ st : Nat, (s.Inv) ∧ (s.executes b = true) ∧ (localAddr b w.toNat = a) ∧ ((if s.isCustomer (s.hoopIx b) = true ∧ (bitOf (s.readNat (a + 4) 4) 31 = true ∨ s.custKind (s.hoopIx b) (s.readNat (a + 4) 4 / 2 ^ 24 % 32) = false) then some ST.PILLOW_ROLE else if w.toNat % 16 ≠ 0 ∨ 0x40000 ≤ w.toNat ∨ s.descOk a = false then some ST.PILLOW_ARG else if s.custHeld = true ∧ (s.hoopOfKind (s.readNat (a + 4) 4 / 2 ^ 24 % 32)).any s.isCustomer = true then some ST.PILLOW_HOOP_HELD else if 32768 ≤ s.pl.tasks.length then some ST.PILLOW_TASKS_FULL else if 16384 < s.pl.pins.length + s.readNat (a + 9) 1 then some ST.PILLOW_PINS_FULL else if s.windowRoom (if s.readNat (a + 10) 2 = 0xFFFF then none else some (s.readNat (a + 10) 2)) = false then some ST.PILLOW_ORDER_FULL else none) = some st)) ∧
    (∃ s : State, ∃ b : Fin 16, ∃ h : Word, ∃ src : Word, ∃ k : Fin 4, ∃ words : Fin 32, ∃ i : Nat, ∃ x : Task, ∃ p : Pin, (s.Inv) ∧ (s.executes b = true) ∧ ((match s.byHandle h.toNat with | none => some ST.PILLOW_HANDLE | some (_, x) => if x.pins.length ≤ k.val ∨ 16 < words.val ∨ words.val ≠ 0 ∧ ¬ (src.toNat % 4 = 0 ∧ (src.toNat + 4 * words.val ≤ 0x40000 ∨ 0x10000000 ≤ src.toNat ∧ src.toNat + 4 * words.val ≤ 0x10600000)) then some ST.PILLOW_ARG else if inServiceState x = true then some ST.PILLOW_IN_SERVICE else if (x.pins[k.val]?).any (fun (p : Pin) => p.filled) = true then some ST.PILLOW_PIN_FULL else if (x.pins[k.val]?).any (fun (p : Pin) => p.armed.isSome) = true then some ST.PILLOW_PIN_ARMED else none) = none) ∧ (s.byHandle h.toNat = some (i, x)) ∧ (x.pins[k.val]? = some p) ∧ (words.val = 0 ∨ s.accessCause b src.toNat (4 * words.val) false = none)) ∧
    (∃ s : State, ∃ b : Fin 16, ∃ h : Word, ∃ src : Word, ∃ k : Fin 4, ∃ words : Fin 32, ∃ w : Nat, (s.Inv) ∧ (s.executes b = true) ∧ ((match s.byHandle h.toNat with | none => some ST.PILLOW_HANDLE | some (_, x) => if x.pins.length ≤ k.val ∨ 16 < words.val ∨ words.val ≠ 0 ∧ ¬ (src.toNat % 4 = 0 ∧ (src.toNat + 4 * words.val ≤ 0x40000 ∨ 0x10000000 ≤ src.toNat ∧ src.toNat + 4 * words.val ≤ 0x10600000)) then some ST.PILLOW_ARG else if inServiceState x = true then some ST.PILLOW_IN_SERVICE else if (x.pins[k.val]?).any (fun (p : Pin) => p.filled) = true then some ST.PILLOW_PIN_FULL else if (x.pins[k.val]?).any (fun (p : Pin) => p.armed.isSome) = true then some ST.PILLOW_PIN_ARMED else none) = some w)) ∧
    (∃ s : State, ∃ b : Fin 16, ∃ h : Word, ∃ src : Word, ∃ k : Fin 4, ∃ words : Fin 32, (s.Inv) ∧ (s.executes b = true) ∧ ((match s.byHandle h.toNat with | none => some ST.PILLOW_HANDLE | some (_, x) => if x.pins.length ≤ k.val ∨ 16 < words.val ∨ words.val ≠ 0 ∧ ¬ (src.toNat % 4 = 0 ∧ (src.toNat + 4 * words.val ≤ 0x40000 ∨ 0x10000000 ≤ src.toNat ∧ src.toNat + 4 * words.val ≤ 0x10600000)) then some ST.PILLOW_ARG else if inServiceState x = true then some ST.PILLOW_IN_SERVICE else if (x.pins[k.val]?).any (fun (p : Pin) => p.filled) = true then some ST.PILLOW_PIN_FULL else if (x.pins[k.val]?).any (fun (p : Pin) => p.armed.isSome) = true then some ST.PILLOW_PIN_ARMED else none) = none) ∧ (words.val ≠ 0 ∧ s.accessCause b src.toNat (4 * words.val) false ≠ none)) ∧
    (∃ s : State, ∃ b : Fin 16, ∃ q : Word, ∃ a : Word, ∃ ordered : Bool, (s.Inv) ∧ (s.executes b = true) ∧ (q.toNat < 256 ∧ a.toNat % 16 = 0 ∧ a.toNat < 0x40000) ∧ (ordered = false) ∧ ((s.queue q.toNat).credit (s.hoopIx b) ≠ 0)) ∧
    (∃ s : State, ∃ b : Fin 16, ∃ q : Word, ∃ a : Word, ∃ ordered : Bool, ∃ i : Nat, ∃ f : Nat, ∃ n : Nat, ∃ x : Task, (s.Inv) ∧ (s.executes b = true) ∧ (q.toNat < 256 ∧ a.toNat % 16 = 0 ∧ a.toNat < 0x40000) ∧ (ordered = true) ∧ ((s.bobbin b).running = some i) ∧ (s.task? i = some x) ∧ (x.ord = some (f, n) ∧ x.puts < 4) ∧ (x.direct = false ∧ s.stagedCount < 16384) ∧ ((s.queue q.toNat).credit (s.hoopIx b) ≠ 0)) ∧
    (∃ s : State, ∃ b : Fin 16, ∃ q : Word, ∃ a : Word, ∃ ordered : Bool, ∃ i : Nat, ∃ f : Nat, ∃ n : Nat, ∃ x : Task, (s.Inv) ∧ (s.executes b = true) ∧ (q.toNat < 256 ∧ a.toNat % 16 = 0 ∧ a.toNat < 0x40000) ∧ (ordered = true) ∧ ((s.bobbin b).running = some i) ∧ (s.task? i = some x) ∧ (x.ord = some (f, n) ∧ x.puts < 4) ∧ (x.direct = true ∨ 16384 ≤ s.stagedCount) ∧ (s.stagedCount < 16384 ∨ (s.ordFlow f).oldest = n) ∧ ((s.queue q.toNat).credit (s.hoopIx b) ≠ 0)) ∧
    (∃ s : State, ∃ b : Fin 16, ∃ q : Word, ∃ a : Word, ∃ ordered : Bool, ∃ w : Nat, (s.Inv) ∧ (s.executes b = true) ∧ ((if ¬ (q.toNat < 256 ∧ a.toNat % 16 = 0 ∧ a.toNat < 0x40000) then some ST.PILLOW_ARG else if ordered = false then (if (s.queue q.toNat).credit (s.hoopIx b) = 0 then some ST.PILLOW_NO_CREDIT else none) else match (s.bobbin b).running.bind s.task? with | none => some ST.PILLOW_ARG | some x => match x.ord with | none => some ST.PILLOW_ARG | some (f, n) => if 4 ≤ x.puts then some ST.PILLOW_ORDER_LIMIT else if 16384 ≤ s.stagedCount ∧ (s.ordFlow f).oldest ≠ n then some ST.PILLOW_STAGE_FULL else if (s.queue q.toNat).credit (s.hoopIx b) = 0 then some ST.PILLOW_NO_CREDIT else none) = some w)) ∧
    (∃ s : State, ∃ b : Fin 16, ∃ h : Word, ∃ ticks : Word, ∃ k : Fin 4, ∃ l : Fin 4, ∃ i : Nat, ∃ x : Task, ∃ p : Pin, (s.Inv) ∧ (s.executes b = true) ∧ ((match s.byHandle h.toNat with | none => some ST.PILLOW_HANDLE | some (_, x) => if ¬ (l.val < 3 ∧ 1 ≤ ticks.toNat ∧ ticks.toNat ≤ listMax l) ∨ x.pins.length ≤ k.val then some ST.PILLOW_ARG else if (x.pins[k.val]?).any (fun (p : Pin) => p.filled) = true then some ST.PILLOW_PIN_FULL else if (x.pins[k.val]?).any (fun (p : Pin) => p.armed.isSome) = true then some ST.PILLOW_PIN_ARMED else if listCap l ≤ (s.liveTimers l).length then some ST.PILLOW_TIMER_FULL else none) = none) ∧ (s.byHandle h.toNat = some (i, x)) ∧ (x.pins[k.val]? = some p)) ∧
    (∃ s : State, ∃ b : Fin 16, ∃ h : Word, ∃ ticks : Word, ∃ k : Fin 4, ∃ l : Fin 4, ∃ w : Nat, (s.Inv) ∧ (s.executes b = true) ∧ ((match s.byHandle h.toNat with | none => some ST.PILLOW_HANDLE | some (_, x) => if ¬ (l.val < 3 ∧ 1 ≤ ticks.toNat ∧ ticks.toNat ≤ listMax l) ∨ x.pins.length ≤ k.val then some ST.PILLOW_ARG else if (x.pins[k.val]?).any (fun (p : Pin) => p.filled) = true then some ST.PILLOW_PIN_FULL else if (x.pins[k.val]?).any (fun (p : Pin) => p.armed.isSome) = true then some ST.PILLOW_PIN_ARMED else if listCap l ≤ (s.liveTimers l).length then some ST.PILLOW_TIMER_FULL else none) = some w)) ∧
    (∃ s : State, ∃ b : Fin 16, ∃ h : Word, ∃ k : Nat, ∃ e : Timer, (s.Inv) ∧ (s.executes b = true) ∧ (timerKey (h.toNat / 2 ^ 18 % 4) (h.toNat % 2 ^ 17) = k) ∧ (Store.find? k s.pl.timers = some e) ∧ (h.toNat = timerHandle (h.toNat / 2 ^ 18 % 4) (h.toNat % 2 ^ 17) e.gen ∧ e.live = true) ∧ (s.mtb < e.tick * listTick (h.toNat / 2 ^ 18 % 4))) ∧
    (∃ s : State, ∃ b : Fin 16, ∃ h : Word, ∃ k : Nat, ∃ e : Timer, (s.Inv) ∧ (s.executes b = true) ∧ (timerKey (h.toNat / 2 ^ 18 % 4) (h.toNat % 2 ^ 17) = k) ∧ (Store.find? k s.pl.timers = some e) ∧ (h.toNat = timerHandle (h.toNat / 2 ^ 18 % 4) (h.toNat % 2 ^ 17) e.gen ∧ e.live = true) ∧ (e.tick * listTick (h.toNat / 2 ^ 18 % 4) ≤ s.mtb)) ∧
    (∃ s : State, ∃ b : Fin 16, ∃ h : Word, ∃ k : Nat, ∃ w : Nat, (s.Inv) ∧ (s.executes b = true) ∧ (timerKey (h.toNat / 2 ^ 18 % 4) (h.toNat % 2 ^ 17) = k) ∧ ((match Store.find? k s.pl.timers with | none => some ST.PILLOW_HANDLE | some e => if ¬ h.toNat = timerHandle (h.toNat / 2 ^ 18 % 4) (h.toNat % 2 ^ 17) e.gen then some ST.PILLOW_HANDLE else if e.live = true then none else if e.fired = true then some ST.PILLOW_TIMER_FIRED else some ST.PILLOW_HANDLE) = some w)) ∧
    (∃ s : State, ∃ b : Fin 16, ∃ h : Word, ∃ i : Nat, ∃ x : Task, (s.Inv) ∧ (s.executes b = true) ∧ (s.byHandle h.toNat = some (i, x)) ∧ (inServiceState x = false)) ∧
    (∃ s : State, ∃ b : Fin 16, ∃ h : Word, ∃ w : Nat, (s.Inv) ∧ (s.executes b = true) ∧ ((match s.byHandle h.toNat with | none => some ST.PILLOW_HANDLE | some (_, x) => if inServiceState x = true then some ST.PILLOW_IN_SERVICE else none) = some w)) ∧
    (∃ s : State, ∃ b : Fin 16, (s.Inv) ∧ (s.executes b = true) ∧ ((s.bobbin b).init = true)) ∧
    (∃ s : State, ∃ b : Fin 16, ∃ i : Nat, ∃ x : Task, (s.Inv) ∧ (s.executes b = true) ∧ ((s.bobbin b).init = false) ∧ ((s.bobbin b).running = some i) ∧ (s.task? i = some x)) ∧
    (∃ s : State, ∃ b : Fin 16, (s.Inv) ∧ (s.executes b = true) ∧ ((s.bobbin b).init = false) ∧ ((s.bobbin b).running.bind s.task? = none)) :=
  ⟨⟨wS [], (0 : Fin 16), by decide⟩,
    ⟨{ wS [] with mem := [(0x4000000, 16), (0x4000008, 2), (0x4000009, 2), (0x400000A, 0xFF), (0x400000B, 0xFF), (0x400000C, 5)], pl := { bobbins := [(0, { init := false, reset := false, running := some 7 })], tasks := [] } }, (0 : Fin 16), (0 : Word), (0x4000000 : Nat), by decide⟩,
    ⟨{ wS [] with mem := [], pl := { bobbins := [(0, { init := false, reset := false, running := some 7 })], tasks := [] } }, (0 : Fin 16), (0 : Word), (0x4000000 : Nat), (ST.PILLOW_ARG : Nat), by decide⟩,
    ⟨{ wS [] with mem := [(0x4000020, 9), (0x4000021, 8)], pl := { bobbins := [(0, { init := false, reset := false, running := some 7 })], tasks := [(3, { gen := 1, entry := 16, kind := 0, flow := none, prio := 0, ord := none, arg := 0, pins := [{ cell := 1 }, { cell := 2 }] }), (7, { gen := 1, entry := 16, kind := 0, flow := none, prio := 0, ord := none, arg := 0, pins := [{ cell := 1 }, { cell := 2 }], state := .running, bobbin := 0 })] } }, (0 : Fin 16), (0x8003 : Word), (0x20 : Word), (1 : Fin 4), (2 : Fin 32), (3 : Nat), ({ gen := 1, entry := 16, kind := 0, flow := none, prio := 0, ord := none, arg := 0, pins := [{ cell := 1 }, { cell := 2 }] } : Task), ({ cell := 2 } : Pin), by decide⟩,
    ⟨{ wS [] with mem := [], pl := { bobbins := [(0, { init := false, reset := false, running := some 7 })], tasks := [] } }, (0 : Fin 16), (0x8003 : Word), (0x20 : Word), (1 : Fin 4), (2 : Fin 32), (ST.PILLOW_HANDLE : Nat), by decide⟩,
    ⟨{ { wS [] with mem := [], pl := { bobbins := [(0, { reset := true })], tasks := [(3, { gen := 1, entry := 16, kind := 0, flow := none, prio := 0, ord := none, arg := 0, pins := [{ cell := 1 }, { cell := 2 }] }), (7, { gen := 1, entry := 16, kind := 0, flow := none, prio := 0, ord := none, arg := 0, pins := [{ cell := 1 }, { cell := 2 }], state := .running, bobbin := 0 })] } } with pr := { wPr with hoops := [⟨1, 2, 3, 4, 0x7, 0⟩, ⟨0, 0, 0, 0, 0, 0⟩, ⟨2, 3, 0xC, 4, 0x38, 0⟩, ⟨3, 2, 0x30, 4, 0x1C0, 55⟩] }, pl := { bobbins := [(4, { init := false, reset := false, running := some 7 })], tasks := [(3, { gen := 1, entry := 16, kind := 0, flow := none, prio := 0, ord := none, arg := 0, pins := [{ cell := 1 }, { cell := 2 }] }), (7, { gen := 1, entry := 16, kind := 0, flow := none, prio := 0, ord := none, arg := 0, pins := [{ cell := 1 }, { cell := 2 }], state := .running, bobbin := 4 })] } }, (4 : Fin 16), (0x8003 : Word), (0x10000100 : Word), (1 : Fin 4), (2 : Fin 32), by decide⟩,
    ⟨{ { wS [] with mem := [], pl := { bobbins := [(0, { init := false, reset := false, running := some 7 })], tasks := [] } } with queues := [(5, { credits := [(0, 3)] })] }, (0 : Fin 16), (5 : Word), (0x40 : Word), (false : Bool), by decide⟩,
    ⟨{ { wS [] with mem := [], pl := { bobbins := [(0, { init := false, reset := false, running := some 7 })], tasks := [(7, { gen := 1, entry := 16, kind := 0, flow := none, prio := 0, ord := some (1, 0), arg := 0, pins := [{ cell := 1 }, { cell := 2 }], state := .running, bobbin := 0 })] } } with queues := [(5, { credits := [(0, 3)] })] }, (0 : Fin 16), (5 : Word), (0x40 : Word), (true : Bool), (7 : Nat), (1 : Nat), (0 : Nat), ({ gen := 1, entry := 16, kind := 0, flow := none, prio := 0, ord := some (1, 0), arg := 0, pins := [{ cell := 1 }, { cell := 2 }], state := .running, bobbin := 0 } : Task), by decide⟩,
    ⟨{ { wS [] with mem := [], pl := { bobbins := [(0, { init := false, reset := false, running := some 7 })], tasks := [(7, { gen := 1, entry := 16, kind := 0, flow := none, prio := 0, ord := some (1, 0), arg := 0, pins := [{ cell := 1 }, { cell := 2 }], state := .running, bobbin := 0, direct := true })] } } with queues := [(5, { credits := [(0, 3)] })] }, (0 : Fin 16), (5 : Word), (0x40 : Word), (true : Bool), (7 : Nat), (1 : Nat), (0 : Nat), ({ gen := 1, entry := 16, kind := 0, flow := none, prio := 0, ord := some (1, 0), arg := 0, pins := [{ cell := 1 }, { cell := 2 }], state := .running, bobbin := 0, direct := true } : Task), by decide⟩,
    ⟨{ wS [] with mem := [], pl := { bobbins := [(0, { init := false, reset := false, running := some 7 })], tasks := [] } }, (0 : Fin 16), (5 : Word), (0x40 : Word), (false : Bool), (ST.PILLOW_NO_CREDIT : Nat), by decide⟩,
    ⟨{ wS [] with mem := [], pl := { bobbins := [(0, { init := false, reset := false, running := some 7 })], tasks := [(3, { gen := 1, entry := 16, kind := 0, flow := none, prio := 0, ord := none, arg := 0, pins := [{ cell := 1 }, { cell := 2 }] }), (7, { gen := 1, entry := 16, kind := 0, flow := none, prio := 0, ord := none, arg := 0, pins := [{ cell := 1 }, { cell := 2 }], state := .running, bobbin := 0 })] } }, (0 : Fin 16), (0x8003 : Word), (100 : Word), (1 : Fin 4), (2 : Fin 4), (3 : Nat), ({ gen := 1, entry := 16, kind := 0, flow := none, prio := 0, ord := none, arg := 0, pins := [{ cell := 1 }, { cell := 2 }] } : Task), ({ cell := 2 } : Pin), by decide⟩,
    ⟨{ wS [] with mem := [], pl := { bobbins := [(0, { init := false, reset := false, running := some 7 })], tasks := [] } }, (0 : Fin 16), (0x8003 : Word), (100 : Word), (1 : Fin 4), (2 : Fin 4), (ST.PILLOW_HANDLE : Nat), by decide⟩,
    ⟨{ wS [] with mem := [], pl := { bobbins := [(0, { init := false, reset := false, running := some 7 })], tasks := [(3, { gen := 1, entry := 16, kind := 0, flow := none, prio := 0, ord := none, arg := 0, pins := [{ cell := 1, armed := some 5 }] }), (7, { gen := 1, entry := 16, kind := 0, flow := none, prio := 0, ord := none, arg := 0, pins := [{ cell := 1 }, { cell := 2 }], state := .running, bobbin := 0 })], timers := [(5, ⟨2, 3, 0, 9, 0, true, false⟩)] } }, (0 : Fin 16), (0x200005 : Word), (5 : Nat), (⟨2, 3, 0, 9, 0, true, false⟩ : Timer), by decide⟩,
    ⟨{ { wS [] with mem := [], pl := { bobbins := [(0, { init := false, reset := false, running := some 7 })], tasks := [(3, { gen := 1, entry := 16, kind := 0, flow := none, prio := 0, ord := none, arg := 0, pins := [{ cell := 1, armed := some 5 }] }), (7, { gen := 1, entry := 16, kind := 0, flow := none, prio := 0, ord := none, arg := 0, pins := [{ cell := 1 }, { cell := 2 }], state := .running, bobbin := 0 })], timers := [(5, ⟨2, 3, 0, 9, 0, true, false⟩)] } } with mtb := 1152 }, (0 : Fin 16), (0x200005 : Word), (5 : Nat), (⟨2, 3, 0, 9, 0, true, false⟩ : Timer), by decide⟩,
    ⟨{ wS [] with mem := [], pl := { bobbins := [(0, { init := false, reset := false, running := some 7 })], tasks := [(7, { gen := 1, entry := 16, kind := 0, flow := none, prio := 0, ord := none, arg := 0, pins := [{ cell := 1 }, { cell := 2 }], state := .running, bobbin := 0 })] } }, (0 : Fin 16), (0x200005 : Word), (5 : Nat), (ST.PILLOW_HANDLE : Nat), by decide⟩,
    ⟨{ wS [] with mem := [], pl := { bobbins := [(0, { init := false, reset := false, running := some 7 })], tasks := [(3, { gen := 1, entry := 16, kind := 0, flow := none, prio := 0, ord := none, arg := 0, pins := [{ cell := 1 }, { cell := 2 }] }), (7, { gen := 1, entry := 16, kind := 0, flow := none, prio := 0, ord := none, arg := 0, pins := [{ cell := 1 }, { cell := 2 }], state := .running, bobbin := 0 })], pins := [1, 2, 3] } }, (0 : Fin 16), (0x8003 : Word), (3 : Nat), ({ gen := 1, entry := 16, kind := 0, flow := none, prio := 0, ord := none, arg := 0, pins := [{ cell := 1 }, { cell := 2 }] } : Task), by decide⟩,
    ⟨{ wS [] with mem := [], pl := { bobbins := [(0, { init := false, reset := false, running := some 7 })], tasks := [(7, { gen := 1, entry := 16, kind := 0, flow := none, prio := 0, ord := none, arg := 0, pins := [{ cell := 1 }, { cell := 2 }], state := .running, bobbin := 0 })] } }, (0 : Fin 16), (0x8007 : Word), (ST.PILLOW_IN_SERVICE : Nat), by decide⟩,
    ⟨{ wS [] with mem := [], pl := { bobbins := [(0, { init := true, reset := false })], tasks := [] } }, (0 : Fin 16), by decide⟩,
    ⟨{ wS [] with mem := [], pl := { bobbins := [(0, { init := false, reset := false, running := some 7 })], tasks := [(7, { gen := 1, entry := 16, kind := 0, flow := none, prio := 0, ord := none, arg := 0, pins := [{ cell := 1 }, { cell := 2 }], state := .running, bobbin := 0 })] } }, (0 : Fin 16), (7 : Nat), ({ gen := 1, entry := 16, kind := 0, flow := none, prio := 0, ord := none, arg := 0, pins := [{ cell := 1 }, { cell := 2 }], state := .running, bobbin := 0 } : Task), by decide⟩,
    ⟨{ wS [] with mem := [], pl := { bobbins := [(0, { init := false, reset := false, running := some 7 })], tasks := [] } }, (0 : Fin 16), by decide⟩⟩

/-- States and operands that meet the hypotheses of each clause of PillowCommands. -/
theorem test_PillowCommands_witness :
    (∃ s : State, ∃ h : Fin 4, ∃ u : Nat, (s.Inv) ∧ (max s.mtb u < Store.get (fun _ => 0) s.pl.placeAt h)) ∧
    (∃ s : State, ∃ h : Fin 4, ∃ u : Nat, (s.Inv) ∧ (Store.get (fun _ => 0) s.pl.placeAt h ≤ max s.mtb u) ∧ ((s.advance u).eligible h = none ∨ ((s.advance u).serving h).find? (fun b => (s.bobbin b).pre.isNone) = none ∧ ((s.advance u).displaceable h = none ∨ ((s.advance u).eligible h).any (fun x => ((s.advance u).displaceable h).any (fun y => decide (y.2.prio ≤ x.2.prio))) = true))) ∧
    (∃ s : State, ∃ h : Fin 4, ∃ u : Nat, ∃ i : Nat, ∃ b : Nat, ∃ x : Task, (s.Inv) ∧ (Store.get (fun _ => 0) s.pl.placeAt h ≤ max s.mtb u) ∧ ((s.advance u).eligible h = some (i, x)) ∧ (s.task? i = some x) ∧ (((s.advance u).serving h).find? (fun b => (s.bobbin b).running.isNone && (s.bobbin b).pre.isNone) = some b)) ∧
    (∃ s : State, ∃ h : Fin 4, ∃ u : Nat, ∃ i : Nat, ∃ b : Nat, ∃ x : Task, (s.Inv) ∧ (Store.get (fun _ => 0) s.pl.placeAt h ≤ max s.mtb u) ∧ ((s.advance u).eligible h = some (i, x)) ∧ (s.task? i = some x) ∧ (((s.advance u).serving h).find? (fun b => (s.bobbin b).running.isNone && (s.bobbin b).pre.isNone) = none) ∧ (((s.advance u).serving h).find? (fun b => (s.bobbin b).pre.isNone) = some b)) ∧
    (∃ s : State, ∃ h : Fin 4, ∃ u : Nat, ∃ i : Nat, ∃ j : Nat, ∃ x : Task, ∃ y : Task, (s.Inv) ∧ (Store.get (fun _ => 0) s.pl.placeAt h ≤ max s.mtb u) ∧ ((s.advance u).eligible h = some (i, x)) ∧ (s.task? i = some x) ∧ (((s.advance u).serving h).find? (fun b => (s.bobbin b).pre.isNone) = none) ∧ ((s.advance u).displaceable h = some (j, y) ∧ i ≠ j) ∧ (x.prio < y.prio)) ∧
    (∃ s : State, ∃ b : Fin 16, ∃ i : Nat, ∃ x : Task, (s.Inv) ∧ (s.executes b = true) ∧ ((s.bobbin b).init = false) ∧ ((s.bobbin b).running = some i) ∧ (s.task? i = some x)) ∧
    (∃ s : State, ∃ b : Fin 16, (s.Inv) ∧ (s.executes b = true) ∧ ((s.bobbin b).init = true)) ∧
    (∃ s : State, ∃ b : Fin 16, (s.Inv) ∧ (s.executes b = false)) ∧
    (∃ s : State, ∃ b : Fin 16, ∃ u : Nat, ∃ i : Nat, ∃ x : Task, (s.Inv) ∧ ((s.bobbin b).running = some i) ∧ (s.task? i = some x) ∧ ((s.bobbin b).limit ≠ 0 ∧ x.passed = false ∧ (s.bobbin b).startAt + 256 * (s.bobbin b).limit < max s.mtb u) ∧ (s.isCustomer (s.hoopIx b) = false ∧ s.isSet (R.PILLOW_HOOP_KILL (s.hoopIx b)) = false)) ∧
    (∃ s : State, ∃ b : Fin 16, ∃ u : Nat, ∃ i : Nat, ∃ x : Task, (s.Inv) ∧ ((s.bobbin b).running = some i ∧ (s.bobbin b).init = false) ∧ (s.task? i = some x) ∧ ((s.bobbin b).limit ≠ 0 ∧ x.passed = false ∧ (s.bobbin b).startAt + 256 * (s.bobbin b).limit < max s.mtb u) ∧ (s.isCustomer (s.hoopIx b) = true ∨ s.isSet (R.PILLOW_HOOP_KILL (s.hoopIx b)) = true)) ∧
    (∃ s : State, ∃ b : Fin 16, ∃ u : Nat, (s.Inv) ∧ (((s.bobbin b).running.bind s.task?).all (fun (x : Task) => (s.bobbin b).limit == 0 || x.passed || decide (max s.mtb u ≤ (s.bobbin b).startAt + 256 * (s.bobbin b).limit)) = true)) ∧
    (∃ s : State, ∃ b : Fin 16, ∃ u : Nat, ∃ h : Nat, (s.Inv) ∧ ((s.bobbin b).faulted = true ∧ (s.bobbin b).faultAt + 65536 ≤ max s.mtb u) ∧ (s.hoopOf b = some h) ∧ (s.isCustomer h = false ∨ s.custHeld = false)) ∧
    (∃ s : State, ∃ b : Fin 16, ∃ u : Nat, (s.Inv) ∧ ((s.bobbin b).faulted = false ∨ max s.mtb u < (s.bobbin b).faultAt + 65536)) ∧
    (∃ s : State, ∃ l : Fin 3, ∃ k : Nat, ∃ e : Timer, ∃ x : Task, ∃ p : Pin, (s.Inv) ∧ (firstBy (fun (a b : Nat × Timer) => a.2.tick < b.2.tick || (a.2.tick = b.2.tick && a.2.order < b.2.order)) (s.liveTimers l) = some (k, e)) ∧ (s.task? e.task = some x) ∧ (x.pins[e.pin]? = some p)) ∧
    (∃ s : State, ∃ l : Fin 3, (s.Inv) ∧ (s.liveTimers l = [])) ∧
    (∃ s : State, ∃ b : Nat, ∃ p : Posted, ∃ ps : List Posted, (s.Inv) ∧ (((List.range 16).map (fun k => (s.pl.lastServed + 1 + k) % 16)).find? (fun b => decide ((s.bobbin b).posts ≠ [])) = some b) ∧ ((s.bobbin b).posts = p :: ps)) ∧
    (∃ s : State, (s.Inv) ∧ (((List.range 16).map (fun k => (s.pl.lastServed + 1 + k) % 16)).find? (fun b => decide ((s.bobbin b).posts ≠ [])) = none)) ∧
    (∃ s : State, ∃ q : Fin 256, ∃ r : QueueRec, ∃ e : Entry, (s.Inv) ∧ (s.queueRec q = some r) ∧ (s.head? q = some e) ∧ (r.consumer = 0x10 ∧ s.isSet (R.PILLOW_QT_TASK_EN.bank q) = true) ∧ (¬ (s.custHeld = true ∧ (s.hoopOfKind (s.getF (R.PILLOW_QT_TASK_KIND.bank q))).any s.isCustomer = true)) ∧ (s.windowRoom (ordOf (s.getF (R.PILLOW_QT_ORD_ORD.bank q))) = true) ∧ (s.pl.tasks.length < 32768 ∧ s.pl.pins.length < 16384)) ∧
    (∃ s : State, ∃ q : Fin 256, (s.Inv) ∧ ((match s.queueRec q, s.head? q with | some r, some _ => decide (r.consumer ≠ 0x10) || !s.isSet (R.PILLOW_QT_TASK_EN.bank q) || (s.custHeld && (s.hoopOfKind (s.getF (R.PILLOW_QT_TASK_KIND.bank q))).any s.isCustomer) || s.windowRoom (ordOf (s.getF (R.PILLOW_QT_ORD_ORD.bank q))) && (decide (32768 ≤ s.pl.tasks.length) || decide (16384 ≤ s.pl.pins.length ∧ s.pl.pins.Nodup ∧ s.pl.pins.all (fun c => decide (c < 16384)) = true)) | _, _ => true) = true)) ∧
    (∃ s : State, ∃ q : Fin 256, ∃ r : QueueRec, (s.Inv) ∧ (s.queueRec q = some r) ∧ ((s.head? q).isSome = true) ∧ (r.consumer = 0x10 ∧ s.isSet (R.PILLOW_QT_TASK_EN.bank q) = true) ∧ (¬ (s.custHeld = true ∧ (s.hoopOfKind (s.getF (R.PILLOW_QT_TASK_KIND.bank q))).any s.isCustomer = true)) ∧ (s.windowRoom (ordOf (s.getF (R.PILLOW_QT_ORD_ORD.bank q))) = false)) ∧
    (∃ s : State, ∃ qt : Bool, ∃ v : Word, ∃ a : Nat, (s.Inv) ∧ ((if qt then R.PILLOW_QT_TASK + s.getF R.PILLOW_QT_SEL_QUEUE * bankStride else R.PILLOW_HW_TASK) = a) ∧ ((if v &&& regMask a = s.getReg a then none else if 2 ^ 31 ≤ (v &&& regMask a).toNat ∧ ¬ (s.servesKindPrio ((v &&& regMask a).toNat / 2 ^ 23 % 32) ((v &&& regMask a).toNat / 2 ^ 28 % 8) = true ∧ 2 ≤ (v &&& regMask a).toNat % 2 ^ 18 ∧ (v &&& regMask a).toNat % 2 ^ 18 ≤ 0x3FFFE ∧ (v &&& regMask a).toNat % 2 = 0) then some ST.PILLOW_RANGE else if 2 ^ 31 ≤ (v &&& regMask a).toNat ∧ bitOf (s.getReg a).toNat 31 = true then some ST.PILLOW_STATE else none) = none)) ∧
    (∃ s : State, ∃ qt : Bool, ∃ v : Word, ∃ a : Nat, ∃ w : Nat, (s.Inv) ∧ ((if qt then R.PILLOW_QT_TASK + s.getF R.PILLOW_QT_SEL_QUEUE * bankStride else R.PILLOW_HW_TASK) = a) ∧ ((if v &&& regMask a = s.getReg a then none else if 2 ^ 31 ≤ (v &&& regMask a).toNat ∧ ¬ (s.servesKindPrio ((v &&& regMask a).toNat / 2 ^ 23 % 32) ((v &&& regMask a).toNat / 2 ^ 28 % 8) = true ∧ 2 ≤ (v &&& regMask a).toNat % 2 ^ 18 ∧ (v &&& regMask a).toNat % 2 ^ 18 ≤ 0x3FFFE ∧ (v &&& regMask a).toNat % 2 = 0) then some ST.PILLOW_RANGE else if 2 ^ 31 ≤ (v &&& regMask a).toNat ∧ bitOf (s.getReg a).toNat 31 = true then some ST.PILLOW_STATE else none) = some w)) :=
  ⟨⟨{ wS [] with pl := { placeAt := [(1, 90)] } }, (1 : Fin 4), (7 : Nat), by decide⟩,
    ⟨wS [], (1 : Fin 4), (7 : Nat), by decide⟩,
    ⟨{ wS [] with mem := [], pl := { bobbins := [(0, { init := false, reset := false })], tasks := [(3, { gen := 1, entry := 16, kind := 0, flow := none, prio := 0, ord := none, arg := 0, pins := [{ cell := 1 }, { cell := 2 }], state := .ready })] } }, (0 : Fin 4), (7 : Nat), (3 : Nat), (0 : Nat), ({ gen := 1, entry := 16, kind := 0, flow := none, prio := 0, ord := none, arg := 0, pins := [{ cell := 1 }, { cell := 2 }], state := .ready } : Task), by decide⟩,
    ⟨{ wS [] with mem := [], pl := { bobbins := [(0, { init := false, reset := false, running := some 7 })], tasks := [(3, { gen := 1, entry := 16, kind := 0, flow := none, prio := 0, ord := none, arg := 0, pins := [{ cell := 1 }, { cell := 2 }], state := .ready }), (7, { gen := 1, entry := 16, kind := 0, flow := none, prio := 0, ord := none, arg := 0, pins := [{ cell := 1 }, { cell := 2 }], state := .running, bobbin := 0 })] } }, (0 : Fin 4), (7 : Nat), (3 : Nat), (0 : Nat), ({ gen := 1, entry := 16, kind := 0, flow := none, prio := 0, ord := none, arg := 0, pins := [{ cell := 1 }, { cell := 2 }], state := .ready } : Task), by decide⟩,
    ⟨{ wS [] with pr := { wPr with hoops := [⟨1, 1, 1, 4, 0x7, 0⟩, ⟨0, 0, 0, 0, 0, 0⟩, ⟨0, 0, 0, 0, 0, 0⟩, ⟨0, 0, 0, 0, 0, 0⟩] }, pl := { bobbins := [(0, { init := false, reset := false, running := some 7, pre := some 4 })], tasks := [(3, { gen := 1, entry := 16, kind := 0, flow := none, prio := 1, ord := none, arg := 0, pins := [{ cell := 1 }, { cell := 2 }], state := .ready }), (4, { gen := 1, entry := 16, kind := 0, flow := none, prio := 2, ord := none, arg := 0, pins := [{ cell := 1 }, { cell := 2 }], state := .prefetched, bobbin := 0 }), (7, { gen := 1, entry := 16, kind := 0, flow := none, prio := 0, ord := none, arg := 0, pins := [{ cell := 1 }, { cell := 2 }], state := .running, bobbin := 0 })] } }, (0 : Fin 4), (7 : Nat), (3 : Nat), (4 : Nat), ({ gen := 1, entry := 16, kind := 0, flow := none, prio := 1, ord := none, arg := 0, pins := [{ cell := 1 }, { cell := 2 }], state := .ready } : Task), ({ gen := 1, entry := 16, kind := 0, flow := none, prio := 2, ord := none, arg := 0, pins := [{ cell := 1 }, { cell := 2 }], state := .prefetched, bobbin := 0 } : Task), by decide⟩,
    ⟨{ wS [] with mem := [], pl := { bobbins := [(0, { init := false, reset := false, running := some 7 })], tasks := [(7, { gen := 1, entry := 16, kind := 0, flow := none, prio := 0, ord := none, arg := 0, pins := [{ cell := 1 }, { cell := 2 }], state := .running, bobbin := 0 })] } }, (0 : Fin 16), (7 : Nat), ({ gen := 1, entry := 16, kind := 0, flow := none, prio := 0, ord := none, arg := 0, pins := [{ cell := 1 }, { cell := 2 }], state := .running, bobbin := 0 } : Task), by decide⟩,
    ⟨{ wS [] with mem := [], pl := { bobbins := [(0, { init := true, reset := false })], tasks := [] } }, (0 : Fin 16), by decide⟩,
    ⟨wS [], (0 : Fin 16), by decide⟩,
    ⟨{ wS [] with mem := [], pl := { bobbins := [(0, { init := false, reset := false, running := some 7, limit := 4 })], tasks := [(7, { gen := 1, entry := 16, kind := 0, flow := none, prio := 0, ord := none, arg := 0, pins := [{ cell := 1 }, { cell := 2 }], state := .running, bobbin := 0 })] } }, (0 : Fin 16), (1025 : Nat), (7 : Nat), ({ gen := 1, entry := 16, kind := 0, flow := none, prio := 0, ord := none, arg := 0, pins := [{ cell := 1 }, { cell := 2 }], state := .running, bobbin := 0 } : Task), by decide⟩,
    ⟨{ wS [(R.PILLOW_HOOP_KILL 0, 1)] with mem := [], pl := { bobbins := [(0, { init := false, reset := false, running := some 7, limit := 4 })], tasks := [(7, { gen := 1, entry := 16, kind := 0, flow := none, prio := 0, ord := none, arg := 0, pins := [{ cell := 1 }, { cell := 2 }], state := .running, bobbin := 0 })] } }, (0 : Fin 16), (1025 : Nat), (7 : Nat), ({ gen := 1, entry := 16, kind := 0, flow := none, prio := 0, ord := none, arg := 0, pins := [{ cell := 1 }, { cell := 2 }], state := .running, bobbin := 0 } : Task), by decide⟩,
    ⟨{ wS [] with mem := [], pl := { bobbins := [(0, { init := false, reset := false, running := some 7, limit := 4 })], tasks := [(7, { gen := 1, entry := 16, kind := 0, flow := none, prio := 0, ord := none, arg := 0, pins := [{ cell := 1 }, { cell := 2 }], state := .running, bobbin := 0 })] } }, (0 : Fin 16), (1024 : Nat), by decide⟩,
    ⟨{ wS [] with mem := [], pl := { bobbins := [(0, { init := true, reset := false, faulted := true })], tasks := [] } }, (0 : Fin 16), (65536 : Nat), (0 : Nat), by decide⟩,
    ⟨{ wS [] with mem := [], pl := { bobbins := [(0, { init := true, reset := false, faulted := true })], tasks := [] } }, (0 : Fin 16), (65535 : Nat), by decide⟩,
    ⟨{ { wS [] with mem := [], pl := { bobbins := [(0, { init := false, reset := false, running := some 7 })], tasks := [(3, { gen := 1, entry := 16, kind := 0, flow := none, prio := 0, ord := none, arg := 0, pins := [{ cell := 1, armed := some 5 }] })], timers := [(5, ⟨2, 3, 0, 9, 0, true, false⟩)] } } with mtb := 2000 }, (0 : Fin 3), (5 : Nat), (⟨2, 3, 0, 9, 0, true, false⟩ : Timer), ({ gen := 1, entry := 16, kind := 0, flow := none, prio := 0, ord := none, arg := 0, pins := [{ cell := 1, armed := some 5 }] } : Task), ({ cell := 1, armed := some 5 } : Pin), by decide⟩,
    ⟨wS [], (0 : Fin 3), by decide⟩,
    ⟨{ wS [] with mem := [], pl := { bobbins := [(0, { init := false, reset := false, posts := [⟨5, ⟨1, 2, 3, 0, 4, 5, [], 0⟩⟩] })], tasks := [] } }, (0 : Nat), (⟨5, ⟨1, 2, 3, 0, 4, 5, [], 0⟩⟩ : Posted), ([] : List Posted), by decide⟩,
    ⟨wS [], by decide⟩,
    ⟨{ { wS [(R.PILLOW_QT_TASK_EN.bank 3, 1), (R.PILLOW_QT_TASK_ENTRY.bank 3, 16), (R.PILLOW_QT_ORD_ORD.bank 3, 0xFFFF)] with mem := [], pl := { bobbins := [(0, { init := false, reset := false, running := some 7 })], tasks := [] } } with queues := [(3, { entries := [⟨1, 2, 3, 0, 4, 5, [], 0⟩], onDie := 1 })] }, (3 : Fin 256), (⟨3, 0, 1, 0x10, 16, 12, 4, 0, 2⟩ : QueueRec), (⟨1, 2, 3, 0, 4, 5, [], 0⟩ : Entry), by decide⟩,
    ⟨wS [], (3 : Fin 256), by decide⟩,
    ⟨{ { wS [(R.PILLOW_QT_TASK_EN.bank 3, 1), (R.PILLOW_QT_ORD_ORD.bank 3, 1)] with mem := [], pl := { bobbins := [(0, { init := false, reset := false, running := some 7 })], tasks := [], ords := [(1, { next := 1024 })] } } with queues := [(3, { entries := [⟨1, 2, 3, 0, 4, 5, [], 0⟩], onDie := 1 })] }, (3 : Fin 256), (⟨3, 0, 1, 0x10, 16, 12, 4, 0, 2⟩ : QueueRec), by decide⟩,
    ⟨wS [], (false : Bool), (0xA0000010 : Word), (R.PILLOW_HW_TASK : Nat), by decide⟩,
    ⟨wS [], (false : Bool), (0xA0000011 : Word), (R.PILLOW_HW_TASK : Nat), (ST.PILLOW_RANGE : Nat), by decide⟩⟩

/-- States and operands that meet the hypotheses of each clause of QueueCommands. -/
theorem test_QueueCommands_witness :
    (∃ s : State, ∃ q : Fin 256, ∃ p : Fin 256, (s.Inv) ∧ ((s.queueRec q).isSome = true) ∧ (p.val ∉ (s.queue q).losing) ∧ ((s.queue q).credit p ≠ 0 ∧ s.fifoFull q p = false)) ∧
    (∃ s : State, ∃ q : Fin 256, ∃ p : Fin 256, (s.Inv) ∧ ((s.queueRec q).isSome = true) ∧ (p.val ∉ (s.queue q).losing) ∧ ((s.queue q).credit p = 0 ∨ s.fifoFull q p = true) ∧ (discardsWithoutCredit p = true)) ∧
    (∃ s : State, ∃ q : Fin 256, ∃ p : Fin 256, (s.Inv) ∧ ((s.queueRec q).isSome = true) ∧ (p.val ∈ (s.queue q).losing)) ∧
    (∃ s : State, ∃ q : Fin 256, ∃ p : Fin 256, (s.Inv) ∧ ((s.queueRec q).isSome = true) ∧ (p.val ∉ (s.queue q).losing) ∧ ((s.queue q).credit p = 0 ∨ s.fifoFull q p = true) ∧ (discardsWithoutCredit p = false)) ∧
    (∃ s : State, ∃ q : Fin 256, (s.Inv) ∧ (s.queueRec q = none)) ∧
    (∃ s : State, ∃ q : Fin 256, ∃ r : QueueRec, ∃ e : Entry, (s.Inv) ∧ (s.queueRec q = some r) ∧ (s.head? q = some e) ∧ (s.maySend r.consumer (s.queue q).current.isSome = true) ∧ (uplTxPort r.consumer = none ∨ e.err = false ∨ e.eop = true)) ∧
    (∃ s : State, ∃ q : Fin 256, ∃ r : QueueRec, ∃ e : Entry, ∃ p : Nat, (s.Inv) ∧ (s.queueRec q = some r) ∧ (s.head? q = some e) ∧ (s.maySend r.consumer (s.queue q).current.isSome = true) ∧ (uplTxPort r.consumer = some p) ∧ (e.err = true ∧ e.eop = false) ∧ (e.sop = true ∨ (s.queue q).current = some e.src)) ∧
    (∃ s : State, ∃ q : Fin 256, (s.Inv) ∧ ((match s.queueRec q, s.head? q with | some r, some _ => s.maySend r.consumer (s.queue q).current.isSome | _, _ => false) = false)) ∧
    (∃ s : State, ∃ q : Fin 256, ∃ p : Fin 256, ∃ at_ : Nat, ∃ l : List Nat, (s.Inv) ∧ (Store.get (fun _ => []) (s.queue q).returning p = at_ :: l) ∧ (¬ (0x20 ≤ p.val ∧ p.val ≤ 0x23) ∧ p.val ≠ 0x30)) ∧
    (∃ s : State, ∃ q : Fin 256, ∃ p : Fin 256, (s.Inv) ∧ ((Store.get (fun _ => []) (s.queue q).returning p).isEmpty = false) ∧ (0x20 ≤ p.val ∧ p.val ≤ 0x23 ∨ p.val = 0x30)) ∧
    (∃ s : State, ∃ q : Fin 256, ∃ p : Fin 256, (s.Inv) ∧ ((Store.get (fun _ => []) (s.queue q).returning p).isEmpty = true)) ∧
    (∃ s : State, ∃ q : Fin 256, (s.Inv) ∧ ((s.queue q).onDie < 16 ∧ (s.queue q).onDie < (s.queue q).level)) ∧
    (∃ s : State, ∃ q : Fin 256, (s.Inv) ∧ (¬ ((s.queue q).onDie < 16 ∧ (s.queue q).onDie < (s.queue q).level))) ∧
    (∃ s : State, ∃ q : Fin 256, ∃ p : Nat, (s.Inv) ∧ ((s.queueRec q).isSome = true) ∧ ((s.queue q).dropping = [] ∧ (s.queue q).current = some p)) ∧
    (∃ s : State, ∃ q : Fin 256, ∃ w : Nat, (s.Inv) ∧ ((if s.queueRec q = none then some ST.QUEUE_ABSENT else if (s.queue q).dropping ≠ [] then some ST.QUEUE_DROPPING else if (s.queue q).current = none then some ST.QUEUE_NO_PACKET else none) = some w)) ∧
    (∃ s : State, ∃ q : Fin 256, (s.Inv) ∧ ((s.queueRec q).isSome = true)) ∧
    (∃ s : State, ∃ h : Fin 65536, ∃ l : Fin 65536, ∃ q : Nat, ∃ r : QueueRec, (s.Inv) ∧ (s.getF R.QUEUE_SEL_QUEUE = q) ∧ (s.queueRec q = some r) ∧ (l < h ∧ h.val ≤ r.depth)) ∧
    (∃ s : State, ∃ h : Fin 65536, ∃ l : Fin 65536, ∃ q : Nat, ∃ r : QueueRec, (s.Inv) ∧ (s.getF R.QUEUE_SEL_QUEUE = q) ∧ (s.queueRec q = some r) ∧ (h ≤ l ∨ r.depth < h.val) ∧ (¬ (s.getF (R.QUEUE_WM_HIGH.bank q) = h.val ∧ s.getF (R.QUEUE_WM_LOW.bank q) = l.val))) ∧
    (∃ s : State, ∃ h : Fin 65536, ∃ l : Fin 65536, ∃ q : Nat, ∃ r : QueueRec, (s.Inv) ∧ (s.getF R.QUEUE_SEL_QUEUE = q) ∧ (s.queueRec q = some r) ∧ (s.getF (R.QUEUE_WM_HIGH.bank q) = h.val ∧ s.getF (R.QUEUE_WM_LOW.bank q) = l.val)) ∧
    (∃ s : State, (s.Inv) ∧ (s.queueRec (s.getF R.QUEUE_SEL_QUEUE) = none)) :=
  ⟨⟨{ wS [] with queues := [(3, { credits := [(0x58, 2)] })] }, (3 : Fin 256), (0x58 : Fin 256), by decide⟩,
    ⟨wS [], (3 : Fin 256), (0x58 : Fin 256), by decide⟩,
    ⟨{ wS [] with queues := [(3, { losing := [0x58] })] }, (3 : Fin 256), (0x58 : Fin 256), by decide⟩,
    ⟨wS [], (3 : Fin 256), (1 : Fin 256), by decide⟩,
    ⟨wS [], (200 : Fin 256), by decide⟩,
    ⟨{ wS [] with queues := [(5, { entries := [⟨1, 2, 3, 0x30, 4, 5, [], 0⟩], onDie := 1 })] }, (5 : Fin 256), (⟨5, 0, 0, 0x10, 16, 12, 4, 0xFF, 0xFF⟩ : QueueRec), (⟨1, 2, 3, 0x30, 4, 5, [], 0⟩ : Entry), by decide⟩,
    ⟨{ wS [(R.UPL_STAT_LINK_UP 0, 1)] with queues := [(4, { entries := [⟨1, 2, 5, 0, 4, 5, [], 0⟩, ⟨1, 2, 0, 0, 4, 5, [], 0⟩, ⟨1, 2, 2, 0, 4, 5, [], 0⟩, ⟨1, 2, 3, 0, 4, 9, [], 0⟩], onDie := 4 })] }, (4 : Fin 256), (⟨4, 0, 0, 0x40, 16, 12, 4, 0xFF, 0xFF⟩ : QueueRec), (⟨1, 2, 5, 0, 4, 5, [], 0⟩ : Entry), (0 : Nat), by decide⟩,
    ⟨wS [], (5 : Fin 256), by decide⟩,
    ⟨{ wS [] with queues := [(5, { returning := [(1, [70, 90])] })] }, (5 : Fin 256), (1 : Fin 256), (70 : Nat), ([90] : List Nat), by decide⟩,
    ⟨{ wS [] with queues := [(5, { returning := [(0x30, [70])] })] }, (5 : Fin 256), (0x30 : Fin 256), by decide⟩,
    ⟨wS [], (5 : Fin 256), (1 : Fin 256), by decide⟩,
    ⟨{ wS [] with queues := [(5, { entries := [⟨1, 2, 3, 0x30, 4, 5, [], 0⟩] })] }, (5 : Fin 256), by decide⟩,
    ⟨wS [], (5 : Fin 256), by decide⟩,
    ⟨{ wS [] with queues := [(5, { entries := [⟨1, 2, 2, 0x30, 4, 5, [], 0⟩, ⟨1, 2, 3, 0x20, 4, 5, [], 0⟩], current := some 0x30 })] }, (5 : Fin 256), (0x30 : Nat), by decide⟩,
    ⟨wS [], (5 : Fin 256), (ST.QUEUE_NO_PACKET : Nat), by decide⟩,
    ⟨wS [(R.QUEUE_XCOUNT_UP.bank 5, 8)], (5 : Fin 256), by decide⟩,
    ⟨wS [(R.QUEUE_SEL_QUEUE, 5)], (8 : Fin 65536), (2 : Fin 65536), (5 : Nat), (⟨5, 0, 0, 0x10, 16, 12, 4, 0xFF, 0xFF⟩ : QueueRec), by decide⟩,
    ⟨wS [(R.QUEUE_SEL_QUEUE, 5)], (17 : Fin 65536), (2 : Fin 65536), (5 : Nat), (⟨5, 0, 0, 0x10, 16, 12, 4, 0xFF, 0xFF⟩ : QueueRec), by decide⟩,
    ⟨wS [(R.QUEUE_SEL_QUEUE, 5), (R.QUEUE_WM_HIGH.bank 5, 8), (R.QUEUE_WM_LOW.bank 5, 2)], (8 : Fin 65536), (2 : Fin 65536), (5 : Nat), (⟨5, 0, 0, 0x10, 16, 12, 4, 0xFF, 0xFF⟩ : QueueRec), by decide⟩,
    ⟨wS [(R.QUEUE_SEL_QUEUE, 200)], by decide⟩⟩

/-- States and operands that meet the hypotheses of each clause of MemorySystem. -/
theorem test_MemorySystem_witness :
    (∃ s : State, ∃ c : Fin 16, ∃ w : Bool, ∃ run : Bool, ∃ a : Nat, ∃ n : Nat, ∃ d : List Byte, ∃ y : Requester, ∃ l : List (Nat × Nat), (s.Inv) ∧ (s.requestFault y a (if w then d.length else 64 * n - a % 64) w = none) ∧ (s.rootRuns = true ∧ c.val < 14 ∧ s.mayRequest y = true ∧ (if w then d.length else 64 * n - a % 64) ≠ 0 ∧ inDram a = true ∧ inDram (a + (if w then d.length else 64 * n - a % 64) - 1) = true) ∧ (s.dramHeld = false) ∧ ((s.forgetSlots.dramSlots ({ cls := c.val, write := w, addr := a, chunks := n, run := run, last := 0, data := d } : DramReq) (run && isRun c a n) (List.range n)).map (fun (x : List (Nat × Nat) × State) => x.1) = some l)) ∧
    (∃ s : State, ∃ c : Fin 16, ∃ w : Bool, ∃ run : Bool, ∃ a : Nat, ∃ n : Nat, ∃ d : List Byte, ∃ y : Requester, (s.Inv) ∧ (s.requestFault y a (if w then d.length else 64 * n - a % 64) w = none) ∧ (s.rootRuns = true ∧ c.val < 14 ∧ s.mayRequest y = true ∧ (if w then d.length else 64 * n - a % 64) ≠ 0 ∧ inDram a = true ∧ inDram (a + (if w then d.length else 64 * n - a % 64) - 1) = true) ∧ (s.dramHeld = false) ∧ ((s.forgetSlots.dramSlots ({ cls := c.val, write := w, addr := a, chunks := n, run := run, last := 0, data := d } : DramReq) (run && isRun c a n) (List.range n)).isNone = true)) ∧
    (∃ s : State, ∃ c : Fin 16, ∃ w : Bool, ∃ a : Nat, ∃ n : Nat, ∃ d : List Byte, ∃ y : Requester, (s.Inv) ∧ (s.requestFault y a (if w then d.length else 64 * n - a % 64) w = none) ∧ (s.rootRuns = true ∧ c.val < 14 ∧ s.mayRequest y = true ∧ (if w then d.length else 64 * n - a % 64) ≠ 0 ∧ inDram a = true ∧ inDram (a + (if w then d.length else 64 * n - a % 64) - 1) = true) ∧ (s.dramHeld = true)) ∧
    (∃ s : State, ∃ c : Fin 16, ∃ w : Bool, ∃ a : Nat, ∃ n : Nat, ∃ d : List Byte, ∃ y : Requester, (s.Inv) ∧ (s.requestFault y a (if w then d.length else 64 * n - a % 64) w = none) ∧ (¬ (s.rootRuns = true ∧ c.val < 14 ∧ s.mayRequest y = true ∧ (if w then d.length else 64 * n - a % 64) ≠ 0 ∧ inDram a = true ∧ inDram (a + (if w then d.length else 64 * n - a % 64) - 1) = true))) ∧
    (∃ s : State, ∃ w : Bool, ∃ a : Nat, ∃ n : Nat, ∃ d : List Byte, ∃ y : Requester, ∃ b : Nat, ∃ x : Nat, (s.Inv) ∧ (s.requestFault y a (if w then d.length else 64 * n - a % 64) w = some (b, x))) ∧
    (∃ s : State, ∃ c : Fin 16, ∃ r : DramReq, ∃ r1 : DramReq, ∃ rs : List DramReq, ∃ rs1 : List DramReq, (s.Inv) ∧ (takeReq c false s.ms.requests = some (r, rs)) ∧ (takeReq c false (s.dramCarry r.last s.dramLeft).ms.requests = some (r1, rs1))) ∧
    (∃ s : State, ∃ c : Fin 16, ∃ r : DramReq, (s.Inv) ∧ (s.ms.requests = [r]) ∧ (r.cls = c.val ∧ r.write = false ∧ r.chunks = 1 ∧ r.todo = [(r.last, 0)]) ∧ (r.got = [])) ∧
    (∃ s : State, ∃ c : Fin 16, (s.Inv) ∧ ((takeReq c false s.ms.requests).isNone = true)) ∧
    (∃ s : State, ∃ c : Fin 16, ∃ r : DramReq, ∃ r1 : DramReq, ∃ rs : List DramReq, ∃ rs1 : List DramReq, (s.Inv) ∧ (takeReq c true s.ms.requests = some (r, rs)) ∧ (takeReq c true (s.dramCarry r.last s.dramLeft).ms.requests = some (r1, rs1))) ∧
    (∃ s : State, ∃ c : Fin 16, ∃ r : DramReq, (s.Inv) ∧ (s.ms.requests = [r]) ∧ (r.cls = c.val ∧ r.write = true ∧ r.chunks = 1 ∧ r.todo = [(r.last, 0)]) ∧ (r.addr % 64 + r.data.length ≤ 64 ∧ r.data ≠ [])) ∧
    (∃ s : State, ∃ c : Fin 16, (s.Inv) ∧ ((takeReq c true s.ms.requests).isNone = true)) ∧
    (∃ s : State, ∃ k : Nat, (s.Inv) ∧ (s.ms.switchAt = some k)) ∧
    (∃ s : State, (s.Inv) ∧ (s.ms.switchAt = none)) ∧
    (∃ s : State, (s.Inv) ∧ (s.ms.pktTaken.length < s.pktCount)) ∧
    (∃ s : State, (s.Inv) ∧ ((List.range s.pktCount).all (fun k => s.ms.pktTaken.contains k) = true)) ∧
    (∃ s : State, ∃ a : Word, ∃ k : Nat, (s.Inv) ∧ (s.pktOf a.toNat = some k) ∧ (k ∈ s.ms.pktTaken)) ∧
    (∃ s : State, ∃ a : Word, (s.Inv) ∧ ((s.pktOf a.toNat).all (fun (k : Nat) => !s.ms.pktTaken.contains k) = true)) ∧
    (∃ s : State, ∃ n : Fin 128, ∃ p : Nat, ∃ b : Nat, (s.Inv) ∧ (s.getF R.MEM_NAND_ADDR_PAGE = p ∧ s.getF R.MEM_NAND_BUF_ADDR = b) ∧ ((if areaOpen 1 p n.val = false then some ST.MEM_NAND_AREA else if n.val = 0 ∨ 64 < n.val ∨ b % 64 ≠ 0 ∨ (inDram b || inFirmwareArea b) = false ∨ areaOne p n.val = false then some ST.MEM_RANGE else if s.gatedOrPending gateNand = true then some ST.CLK_GATED else if s.ms.nand.isSome = true then some ST.MEM_NAND_BUSY else none) = none)) ∧
    (∃ s : State, ∃ n : Fin 128, ∃ p : Nat, ∃ b : Nat, ∃ w : Nat, (s.Inv) ∧ (s.getF R.MEM_NAND_ADDR_PAGE = p ∧ s.getF R.MEM_NAND_BUF_ADDR = b) ∧ ((if areaOpen 1 p n.val = false then some ST.MEM_NAND_AREA else if n.val = 0 ∨ 64 < n.val ∨ b % 64 ≠ 0 ∨ (inDram b || inFirmwareArea b) = false ∨ areaOne p n.val = false then some ST.MEM_RANGE else if s.gatedOrPending gateNand = true then some ST.CLK_GATED else if s.ms.nand.isSome = true then some ST.MEM_NAND_BUSY else none) = some w)) ∧
    (∃ s : State, ∃ n : Fin 128, ∃ p : Nat, ∃ b : Nat, (s.Inv) ∧ (s.getF R.MEM_NAND_ADDR_PAGE = p ∧ s.getF R.MEM_NAND_BUF_ADDR = b) ∧ ((if areaOpen 2 p n.val = false ∨ s.trialProtects p n.val = true then some ST.MEM_NAND_AREA else if n.val = 0 ∨ 64 < n.val ∨ b % 64 ≠ 0 ∨ (inDram b || inFirmwareArea b) = false ∨ areaOne p n.val = false then some ST.MEM_RANGE else if s.gatedOrPending gateNand = true then some ST.CLK_GATED else if (List.range n.val).any (fun i => s.ms.programmed.contains (p + i)) = true then some ST.MEM_NAND_STATE else if s.ms.nand.isSome = true then some ST.MEM_NAND_BUSY else none) = none)) ∧
    (∃ s : State, ∃ n : Fin 128, ∃ p : Nat, ∃ b : Nat, ∃ w : Nat, (s.Inv) ∧ (s.getF R.MEM_NAND_ADDR_PAGE = p ∧ s.getF R.MEM_NAND_BUF_ADDR = b) ∧ ((if areaOpen 2 p n.val = false ∨ s.trialProtects p n.val = true then some ST.MEM_NAND_AREA else if n.val = 0 ∨ 64 < n.val ∨ b % 64 ≠ 0 ∨ (inDram b || inFirmwareArea b) = false ∨ areaOne p n.val = false then some ST.MEM_RANGE else if s.gatedOrPending gateNand = true then some ST.CLK_GATED else if (List.range n.val).any (fun i => s.ms.programmed.contains (p + i)) = true then some ST.MEM_NAND_STATE else if s.ms.nand.isSome = true then some ST.MEM_NAND_BUSY else none) = some w)) ∧
    (∃ s : State, ∃ n : Fin 128, ∃ p : Nat, ∃ b : Nat, (s.Inv) ∧ (s.getF R.MEM_NAND_ADDR_PAGE = p ∧ s.getF R.MEM_NAND_BUF_ADDR = b) ∧ ((if areaOpen 3 p 64 = false ∨ s.trialProtects p 64 = true then some ST.MEM_NAND_AREA else if n.val ≠ 1 ∨ p % 64 ≠ 0 ∨ areaOne p 64 = false then some ST.MEM_RANGE else if s.gatedOrPending gateNand = true then some ST.CLK_GATED else if s.ms.nand.isSome = true then some ST.MEM_NAND_BUSY else none) = none)) ∧
    (∃ s : State, ∃ n : Fin 128, ∃ p : Nat, ∃ b : Nat, ∃ w : Nat, (s.Inv) ∧ (s.getF R.MEM_NAND_ADDR_PAGE = p ∧ s.getF R.MEM_NAND_BUF_ADDR = b) ∧ ((if areaOpen 3 p 64 = false ∨ s.trialProtects p 64 = true then some ST.MEM_NAND_AREA else if n.val ≠ 1 ∨ p % 64 ≠ 0 ∨ areaOne p 64 = false then some ST.MEM_RANGE else if s.gatedOrPending gateNand = true then some ST.CLK_GATED else if s.ms.nand.isSome = true then some ST.MEM_NAND_BUSY else none) = some w)) ∧
    (∃ s : State, ∃ ok : Bool, ∃ x : NandOp, (s.Inv) ∧ (s.ms.nand = some x) ∧ (bitOf (s.getF R.CLK_GATE_STAT_GATED) gateNand = false) ∧ (x.who = 0 ∧ ok = true)) ∧
    (∃ s : State, ∃ ok : Bool, ∃ x : NandOp, (s.Inv) ∧ (s.ms.nand = some x) ∧ (bitOf (s.getF R.CLK_GATE_STAT_GATED) gateNand = false) ∧ (x.who = 0 ∧ ok = false)) ∧
    (∃ s : State, ∃ x : NandOp, (s.Inv) ∧ (s.ms.nand = some x) ∧ (bitOf (s.getF R.CLK_GATE_STAT_GATED) gateNand = false) ∧ (x.who ≠ 0)) ∧
    (∃ s : State, (s.Inv) ∧ (s.ms.nand = none ∨ bitOf (s.getF R.CLK_GATE_STAT_GATED) gateNand = true)) :=
  ⟨⟨{ wS [] with ms := { sched := bootSched } }, (9 : Fin 16), (false : Bool), (false : Bool), (0x80000000 : Nat), (1 : Nat), ([] : List Byte), (.other : Requester), ([(24, 0)] : List (Nat × Nat)), by decide⟩,
    ⟨{ wS [] with ms := { sched := List.replicate 256 15 } }, (9 : Fin 16), (false : Bool), (false : Bool), (0x80000000 : Nat), (1 : Nat), ([] : List Byte), (.other : Requester), by decide⟩,
    ⟨{ wS [] with clk := { restarts := [⟨0, 8, false⟩] } }, (9 : Fin 16), (false : Bool), (0x80000000 : Nat), (1 : Nat), ([] : List Byte), (.other : Requester), by decide⟩,
    ⟨wS [], (15 : Fin 16), (false : Bool), (0x80000000 : Nat), (1 : Nat), ([] : List Byte), (.other : Requester), by decide⟩,
    ⟨wS [], (true : Bool), (0x40000000 : Nat), (1 : Nat), ([1] : List Byte), (.bobbin 2 : Requester), (2 : Nat), (4 : Nat), by decide⟩,
    ⟨{ wS [] with ms := { requests := [{ cls := 9, write := false, addr := 0x80000000, chunks := 1, run := false, last := 8, data := [], todo := [(8, 0)] }] } }, (9 : Fin 16), ({ cls := 9, write := false, addr := 0x80000000, chunks := 1, run := false, last := 8, data := [], todo := [(8, 0)] } : DramReq), ({ cls := 9, write := false, addr := 0x80000000, chunks := 1, run := false, last := 8, data := [], todo := [], got := [(0, List.replicate 64 0)] } : DramReq), ([] : List DramReq), ([] : List DramReq), by decide⟩,
    ⟨{ wS [] with mem := [(0x80000003, 7)], ms := { requests := [{ cls := 9, write := false, addr := 0x80000000, chunks := 1, run := false, last := 8, data := [], todo := [(8, 0)] }] } }, (9 : Fin 16), ({ cls := 9, write := false, addr := 0x80000000, chunks := 1, run := false, last := 8, data := [], todo := [(8, 0)] } : DramReq), by decide⟩,
    ⟨wS [], (9 : Fin 16), by decide⟩,
    ⟨{ wS [] with ms := { requests := [{ cls := 9, write := true, addr := 0x80000000, chunks := 1, run := false, last := 8, data := [1, 2, 3], todo := [(8, 0)] }] } }, (9 : Fin 16), ({ cls := 9, write := true, addr := 0x80000000, chunks := 1, run := false, last := 8, data := [1, 2, 3], todo := [(8, 0)] } : DramReq), ({ cls := 9, write := true, addr := 0x80000000, chunks := 1, run := false, last := 8, data := [1, 2, 3], todo := [] } : DramReq), ([] : List DramReq), ([] : List DramReq), by decide⟩,
    ⟨{ wS [] with ms := { requests := [{ cls := 9, write := true, addr := 0x80000000, chunks := 1, run := false, last := 8, data := [1, 2, 3], todo := [(8, 0)] }] } }, (9 : Fin 16), ({ cls := 9, write := true, addr := 0x80000000, chunks := 1, run := false, last := 8, data := [1, 2, 3], todo := [(8, 0)] } : DramReq), by decide⟩,
    ⟨wS [], (9 : Fin 16), by decide⟩,
    ⟨{ wS [] with ms := { switchAt := some 7 } }, (7 : Nat), by decide⟩,
    ⟨wS [], by decide⟩,
    ⟨wS [], by decide⟩,
    ⟨{ wS [] with pr := Pricking.none }, by decide⟩,
    ⟨{ wS [] with ms := { pktTaken := [1, 2] } }, (BitVec.ofNat 32 ((wS []).pktBase + 2048) : Word), (1 : Nat), by decide⟩,
    ⟨wS [], (0 : Word), by decide⟩,
    ⟨wS [(R.MEM_NAND_ADDR_PAGE, 1024), (R.MEM_NAND_BUF_ADDR, 0x80000000)], (1 : Fin 128), (1024 : Nat), (0x80000000 : Nat), by decide⟩,
    ⟨wS [(R.MEM_NAND_ADDR_PAGE, 128)], (1 : Fin 128), (128 : Nat), (0 : Nat), (ST.MEM_NAND_AREA : Nat), by decide⟩,
    ⟨wS [(R.MEM_NAND_ADDR_PAGE, 1024), (R.MEM_NAND_BUF_ADDR, 0x80000000)], (1 : Fin 128), (1024 : Nat), (0x80000000 : Nat), by decide⟩,
    ⟨wS [(R.MEM_NAND_ADDR_PAGE, 128)], (1 : Fin 128), (128 : Nat), (0 : Nat), (ST.MEM_NAND_AREA : Nat), by decide⟩,
    ⟨wS [(R.MEM_NAND_ADDR_PAGE, 1024), (R.MEM_NAND_BUF_ADDR, 0x80000000)], (1 : Fin 128), (1024 : Nat), (0x80000000 : Nat), by decide⟩,
    ⟨wS [(R.MEM_NAND_ADDR_PAGE, 128)], (1 : Fin 128), (128 : Nat), (0 : Nat), (ST.MEM_NAND_AREA : Nat), by decide⟩,
    ⟨{ wS [] with flash := [(0x400000, 5)], ms := { nand := some ⟨0, 1, 1024, 1, 0x80000000, []⟩ } }, (true : Bool), (⟨0, 1, 1024, 1, 0x80000000, []⟩ : NandOp), by decide⟩,
    ⟨{ wS [] with ms := { nand := some ⟨0, 1, 1024, 1, 0x80000000, []⟩ } }, (false : Bool), (⟨0, 1, 1024, 1, 0x80000000, []⟩ : NandOp), by decide⟩,
    ⟨{ wS [] with ms := { nand := some ⟨1, 2, 128, 1, 0, [1]⟩ } }, (⟨1, 2, 128, 1, 0, [1]⟩ : NandOp), by decide⟩,
    ⟨wS [], by decide⟩⟩

/-- States and operands that meet the hypotheses of each clause of TableEngine. -/
theorem test_TableEngine_witness :
    (∃ s : State, ∃ w : Word, ∃ cmp : Bool, (s.Inv) ∧ ((if cmp = true then some ST.GROUND_ROLE else if w.toNat % 32 ≠ 0 ∨ inFirmwareArea w.toNat = false then some ST.GROUND_RANGE else if 16 ≤ s.gd.fifo.length then some ST.GROUND_CMD_FULL else none) = none)) ∧
    (∃ s : State, ∃ w : Word, ∃ cmp : Bool, ∃ st : Nat, (s.Inv) ∧ ((if cmp = true then some ST.GROUND_ROLE else if w.toNat % 32 ≠ 0 ∨ inFirmwareArea w.toNat = false then some ST.GROUND_RANGE else if 16 ≤ s.gd.fifo.length then some ST.GROUND_CMD_FULL else none) = some st)) ∧
    (∃ s : State, (s.Inv) ∧ (s.groundHead 1 = none)) ∧
    (∃ s : State, ∃ a : Nat, ∃ c : Bool, (s.Inv) ∧ (s.groundHead 1 = some (a, c)) ∧ (s.blkRange a 1 = false)) ∧
    (∃ s : State, (s.Inv) ∧ (s.groundHead 2 = none)) ∧
    (∃ s : State, ∃ a : Nat, ∃ c : Bool, (s.Inv) ∧ (s.groundHead 2 = some (a, c)) ∧ (c = true ∨ s.blkRange a 2 = false)) ∧
    (∃ s : State, (s.Inv) ∧ (s.groundHead 3 = none)) ∧
    (∃ s : State, ∃ a : Nat, ∃ c : Bool, (s.Inv) ∧ (s.groundHead 3 = some (a, c)) ∧ (c = true ∨ s.blkRange a 3 = false)) ∧
    (∃ s : State, (s.Inv) ∧ (s.groundHead 4 = none)) ∧
    (∃ s : State, ∃ a : Nat, ∃ c : Bool, (s.Inv) ∧ (s.groundHead 4 = some (a, c)) ∧ (s.blkRange a 4 = false)) ∧
    (∃ s : State, (s.Inv) ∧ (s.groundHead 5 = none)) ∧
    (∃ s : State, ∃ a : Nat, ∃ c : Bool, (s.Inv) ∧ (s.groundHead 5 = some (a, c)) ∧ (s.blkRange a 5 = false)) ∧
    (∃ s : State, (s.Inv) ∧ (s.groundHead 6 = none)) ∧
    (∃ s : State, ∃ a : Nat, ∃ c : Bool, (s.Inv) ∧ (s.groundHead 6 = some (a, c)) ∧ (c = true ∨ s.blkRange a 6 = false)) ∧
    (∃ s : State, (s.Inv) ∧ (s.groundHead 7 = none)) ∧
    (∃ s : State, ∃ a : Nat, ∃ c : Bool, (s.Inv) ∧ (s.groundHead 7 = some (a, c)) ∧ (s.blkRange a 7 = false)) ∧
    (∃ s : State, (s.Inv) ∧ (s.groundHead 8 = none)) ∧
    (∃ s : State, ∃ a : Nat, ∃ c : Bool, (s.Inv) ∧ (s.groundHead 8 = some (a, c)) ∧ (c = true ∨ s.blkRange a 8 = false)) ∧
    (∃ s : State, (s.Inv) ∧ (s.groundHead 9 = none)) ∧
    (∃ s : State, ∃ a : Nat, ∃ c : Bool, (s.Inv) ∧ (s.groundHead 9 = some (a, c)) ∧ (c = true ∨ s.blkRange a 9 = false)) ∧
    (∃ s : State, (s.Inv) ∧ (s.groundHead 10 = none)) ∧
    (∃ s : State, ∃ a : Nat, ∃ c : Bool, (s.Inv) ∧ (s.groundHead 10 = some (a, c)) ∧ (c = true ∨ s.blkRange a 10 = false)) ∧
    (∃ s : State, ∃ a : Nat, ∃ c : Bool, (s.Inv) ∧ (s.groundHead 1 = some (a, c)) ∧ (c = false ∨ custOp 1 = true) ∧ (s.blkRange a 1 = true)) ∧
    (∃ s : State, ∃ a : Nat, ∃ c : Bool, ∃ w : Nat, (s.Inv) ∧ (s.groundHead 2 = some (a, c)) ∧ (c = false) ∧ (s.blkRange a 2 = true) ∧ (s.hashHas s.liveTab s.gd.stash (s.blkKey a) (s.blkType a) = none) ∧ (s.freeWay s.liveTab (bucketsOf s.gd.seed0 s.gd.seed1 (s.blkKey a) (s.blkType a)).1 = some w) ∧ (s.altActive = false ∧ s.blkNode a < 2 ^ 18) ∧ (inFirmwareArea a = true ∧ 0x10600000 ≤ s.getF R.GROUND_HASH_BASE_BASE)) ∧
    (∃ s : State, ∃ a : Nat, ∃ c : Bool, ∃ path : List Place, (s.Inv) ∧ (s.groundHead 2 = some (a, c)) ∧ (c = false) ∧ (s.blkRange a 2 = true) ∧ (s.hashHas s.liveTab s.gd.stash (s.blkKey a) (s.blkType a) = none) ∧ (s.hashPlan s.liveTab (decide (s.gd.stash.length < 64)) ⟨s.blkKey a, s.blkType a, s.blkNode a⟩ = some path) ∧ (inFirmwareArea a = true ∧ 0x10600000 ≤ s.getF R.GROUND_HASH_BASE_BASE) ∧ (s.altActive = false)) ∧
    (∃ s : State, ∃ a : Nat, ∃ c : Bool, ∃ e : HashEntry, (s.Inv) ∧ (s.groundHead 2 = some (a, c)) ∧ (c = false) ∧ (s.blkRange a 2 = true) ∧ (s.hashHas s.liveTab s.gd.stash (s.blkKey a) (s.blkType a) = some e)) ∧
    (∃ s : State, ∃ a : Nat, ∃ c : Bool, (s.Inv) ∧ (s.groundHead 2 = some (a, c)) ∧ (c = false) ∧ (s.blkRange a 2 = true) ∧ (s.hashHas s.liveTab s.gd.stash (s.blkKey a) (s.blkType a) = none) ∧ (s.hashPlan s.liveTab (decide (s.gd.stash.length < 64)) ⟨s.blkKey a, s.blkType a, s.blkNode a⟩ = none)) ∧
    (∃ s : State, ∃ a : Nat, ∃ c : Bool, (s.Inv) ∧ (s.groundHead 3 = some (a, c)) ∧ (c = false) ∧ (s.blkRange a 3 = true) ∧ (s.gd.stash.any (fun (e : HashEntry) => e.key == s.blkKey a && e.typ == s.blkType a) = true)) ∧
    (∃ s : State, ∃ a : Nat, ∃ c : Bool, ∃ b : Nat, ∃ w : Nat, ∃ e : HashEntry, (s.Inv) ∧ (s.groundHead 3 = some (a, c)) ∧ (c = false) ∧ (s.blkRange a 3 = true) ∧ (s.gd.stash.any (fun (e : HashEntry) => e.key == s.blkKey a && e.typ == s.blkType a) = false) ∧ (s.findWay s.liveTab (s.blkKey a) (s.blkType a) = some (b, w, e)) ∧ (s.altActive = false) ∧ (inFirmwareArea a = true ∧ 0x10600000 ≤ s.getF R.GROUND_HASH_BASE_BASE)) ∧
    (∃ s : State, ∃ a : Nat, ∃ c : Bool, (s.Inv) ∧ (s.groundHead 3 = some (a, c)) ∧ (c = false) ∧ (s.blkRange a 3 = true) ∧ (s.hashHas s.liveTab s.gd.stash (s.blkKey a) (s.blkType a) = none)) ∧
    (∃ s : State, ∃ a : Nat, ∃ c : Bool, (s.Inv) ∧ (s.groundHead 4 = some (a, c)) ∧ (c = false ∨ custOp 4 = true) ∧ (s.blkRange a 4 = true) ∧ (s.blkArg a + 256 ≤ a ∨ a + 32 ≤ s.blkArg a)) ∧
    (∃ s : State, ∃ a : Nat, ∃ c : Bool, (s.Inv) ∧ (s.groundHead 5 = some (a, c)) ∧ (c = false ∨ custOp 5 = true) ∧ (s.blkRange a 5 = true) ∧ (s.blkArg a + (s.recGet (s.blkNode a) 92 2) ≤ a ∨ a + 32 ≤ s.blkArg a)) ∧
    (∃ s : State, ∃ a : Nat, ∃ c : Bool, (s.Inv) ∧ (s.groundHead 6 = some (a, c)) ∧ (c = false) ∧ (s.blkRange a 6 = true) ∧ (inFirmwareArea a = true ∧ 0x10600000 ≤ (s.region 0).1) ∧ (inFirmwareArea (s.blkArg a + 255) = true)) ∧
    (∃ s : State, ∃ a : Nat, ∃ c : Bool, ∃ k : Nat, ∃ e : Lpt, (s.Inv) ∧ (s.groundHead 7 = some (a, c)) ∧ (c = false ∨ custOp 7 = true) ∧ (s.blkRange a 7 = true) ∧ (s.lptOf (s.blkNode a) = some (k, e)) ∧ (s.blkArg a + e.bytes.length ≤ a ∨ a + 32 ≤ s.blkArg a)) ∧
    (∃ s : State, ∃ a : Nat, ∃ c : Bool, (s.Inv) ∧ (s.groundHead 7 = some (a, c)) ∧ (c = false ∨ custOp 7 = true) ∧ (s.blkRange a 7 = true) ∧ (s.lptOf (s.blkNode a) = none)) ∧
    (∃ s : State, ∃ a : Nat, ∃ c : Bool, ∃ k : Nat, ∃ e : Lpt, (s.Inv) ∧ (s.groundHead 8 = some (a, c)) ∧ (c = false) ∧ (s.blkRange a 8 = true) ∧ (s.lptOf (s.blkNode a) = some (k, e))) ∧
    (∃ s : State, ∃ a : Nat, ∃ c : Bool, (s.Inv) ∧ (s.groundHead 8 = some (a, c)) ∧ (c = false) ∧ (s.blkRange a 8 = true) ∧ (s.lptOf (s.blkNode a) = none)) ∧
    (∃ s : State, ∃ a : Nat, ∃ c : Bool, (s.Inv) ∧ (s.groundHead 9 = some (a, c)) ∧ (c = false) ∧ (s.blkRange a 9 = true) ∧ ((if s.gd.rehash.isSome = true then some ST.GROUND_REHASH_BUSY else if s.altAreaOk = false then some ST.GROUND_ALT_AREA else if s.gd.alt0 = s.gd.alt1 then some ST.GROUND_REHASH_FAIL else none) = none)) ∧
    (∃ s : State, ∃ a : Nat, ∃ c : Bool, ∃ st : Nat, (s.Inv) ∧ (s.groundHead 9 = some (a, c)) ∧ (c = false) ∧ (s.blkRange a 9 = true) ∧ ((if s.gd.rehash.isSome = true then some ST.GROUND_REHASH_BUSY else if s.altAreaOk = false then some ST.GROUND_ALT_AREA else if s.gd.alt0 = s.gd.alt1 then some ST.GROUND_REHASH_FAIL else none) = some st)) ∧
    (∃ s : State, ∃ a : Nat, (s.Inv) ∧ (s.gd.rehash = some a)) ∧
    (∃ s : State, (s.Inv) ∧ (s.gd.rehash = none)) ∧
    (∃ s : State, ∃ a : Nat, ∃ c : Bool, (s.Inv) ∧ (s.groundHead 10 = some (a, c)) ∧ (c = false) ∧ (s.blkRange a 10 = true) ∧ (s.isSet R.GROUND_STATE_ALT_READY = true)) ∧
    (∃ s : State, ∃ a : Nat, ∃ c : Bool, (s.Inv) ∧ (s.groundHead 10 = some (a, c)) ∧ (c = false) ∧ (s.blkRange a 10 = true) ∧ (s.isSet R.GROUND_STATE_ALT_READY = false)) ∧
    (∃ s : State, ∃ a : Nat, ∃ c : Bool, (s.Inv) ∧ (s.gd.fifo.head? = some (a, c)) ∧ ((s.blkOp a = 0 ∨ 10 < s.blkOp a) ∧ s.isSet R.GROUND_STATE_HASH_READY = true)) ∧
    (∃ s : State, (s.Inv) ∧ (s.gd.fifo.head?.all (fun (x : Nat × Bool) => decide (1 ≤ s.blkOp x.1 ∧ s.blkOp x.1 ≤ 10) || !s.isSet R.GROUND_STATE_HASH_READY) = true)) ∧
    (∃ s : State, (s.Inv) ∧ ((s.inService || s.erasedLike) = true ∧ s.isSet R.GROUND_STATE_HASH_READY = false) ∧ (s.running = false)) ∧
    (∃ s : State, ∃ b : Nat, (s.Inv) ∧ ((s.inService || s.erasedLike) = true ∧ s.isSet R.GROUND_STATE_HASH_READY = false) ∧ (s.getF R.GROUND_HASH_BASE_BASE = b)) ∧
    (∃ s : State, (s.Inv) ∧ (¬ ((s.inService || s.erasedLike) = true ∧ s.isSet R.GROUND_STATE_HASH_READY = false))) :=
  ⟨⟨wS [], (0x10480000 : Word), (false : Bool), by decide⟩,
    ⟨wS [], (0x10480000 : Word), (true : Bool), (ST.GROUND_ROLE : Nat), by decide⟩,
    ⟨wS [], by decide⟩,
    ⟨{ wS [(R.GROUND_STATE_HASH_READY, 1), (R.GROUND_HASH_BASE_BASE, 0x84000000)] with mem := [(0x10480000, 1), (0x10480007, 1)], gd := { fifo := [(0x10480000, false)] } }, (0x10480000 : Nat), (false : Bool), by decide⟩,
    ⟨wS [], by decide⟩,
    ⟨{ wS [(R.GROUND_STATE_HASH_READY, 1), (R.GROUND_HASH_BASE_BASE, 0x84000000)] with mem := [(0x10480000, 2), (0x10480007, 1)], gd := { fifo := [(0x10480000, true)] } }, (0x10480000 : Nat), (true : Bool), by decide⟩,
    ⟨wS [], by decide⟩,
    ⟨{ wS [(R.GROUND_STATE_HASH_READY, 1), (R.GROUND_HASH_BASE_BASE, 0x84000000)] with mem := [(0x10480000, 3), (0x10480007, 1)], gd := { fifo := [(0x10480000, true)] } }, (0x10480000 : Nat), (true : Bool), by decide⟩,
    ⟨wS [], by decide⟩,
    ⟨{ wS [(R.GROUND_STATE_HASH_READY, 1), (R.GROUND_HASH_BASE_BASE, 0x84000000)] with mem := [(0x10480000, 4), (0x10480007, 1)], gd := { fifo := [(0x10480000, false)] } }, (0x10480000 : Nat), (false : Bool), by decide⟩,
    ⟨wS [], by decide⟩,
    ⟨{ wS [(R.GROUND_STATE_HASH_READY, 1), (R.GROUND_HASH_BASE_BASE, 0x84000000)] with mem := [(0x10480000, 5), (0x10480007, 1)], gd := { fifo := [(0x10480000, false)] } }, (0x10480000 : Nat), (false : Bool), by decide⟩,
    ⟨wS [], by decide⟩,
    ⟨{ wS [(R.GROUND_STATE_HASH_READY, 1), (R.GROUND_HASH_BASE_BASE, 0x84000000)] with mem := [(0x10480000, 6), (0x10480007, 1)], gd := { fifo := [(0x10480000, true)] } }, (0x10480000 : Nat), (true : Bool), by decide⟩,
    ⟨wS [], by decide⟩,
    ⟨{ wS [(R.GROUND_STATE_HASH_READY, 1), (R.GROUND_HASH_BASE_BASE, 0x84000000)] with mem := [(0x10480000, 7), (0x10480007, 1)], gd := { fifo := [(0x10480000, false)] } }, (0x10480000 : Nat), (false : Bool), by decide⟩,
    ⟨wS [], by decide⟩,
    ⟨{ wS [(R.GROUND_STATE_HASH_READY, 1), (R.GROUND_HASH_BASE_BASE, 0x84000000)] with mem := [(0x10480000, 8), (0x10480007, 1)], gd := { fifo := [(0x10480000, true)] } }, (0x10480000 : Nat), (true : Bool), by decide⟩,
    ⟨wS [], by decide⟩,
    ⟨{ wS [(R.GROUND_STATE_HASH_READY, 1), (R.GROUND_HASH_BASE_BASE, 0x84000000)] with mem := [(0x10480000, 9), (0x10480007, 1)], gd := { fifo := [(0x10480000, true)] } }, (0x10480000 : Nat), (true : Bool), by decide⟩,
    ⟨wS [], by decide⟩,
    ⟨{ wS [(R.GROUND_STATE_HASH_READY, 1), (R.GROUND_HASH_BASE_BASE, 0x84000000)] with mem := [(0x10480000, 10), (0x10480007, 1)], gd := { fifo := [(0x10480000, true)] } }, (0x10480000 : Nat), (true : Bool), by decide⟩,
    ⟨{ wS [(R.GROUND_STATE_HASH_READY, 1), (R.GROUND_HASH_BASE_BASE, 0x84000000)] with mem := [(0x10480000, 1), (0x10480001, 2), (0x1048000F, 7)], gd := { fifo := [(0x10480000, false)] } }, (0x10480000 : Nat), (false : Bool), by decide⟩,
    ⟨{ wS [(R.GROUND_STATE_HASH_READY, 1), (R.GROUND_HASH_BASE_BASE, 0x84000000)] with mem := [(0x10480000, 2), (0x10480008, 17), (0x10480009, 34), (0x1048000A, 51), (0x1048000B, 68), (0x1048000C, 85), (0x1048000D, 102), (0x1048000E, 119), (0x1048000F, 136), (0x10480010, 7)], gd := { fifo := [(0x10480000, false)] } }, (0x10480000 : Nat), (false : Bool), (0 : Nat), by decide⟩,
    ⟨{ wS [(R.GROUND_STATE_HASH_READY, 1), (R.GROUND_HASH_BASE_BASE, 0x84000000)] with mem := [(0x10480000, 2), (0x10480008, 17), (0x10480009, 34), (0x1048000A, 51), (0x1048000B, 68), (0x1048000C, 85), (0x1048000D, 102), (0x1048000E, 119), (0x1048000F, 136), (0x10480010, 7)], gd := { fifo := [(0x10480000, false)] } }, (0x10480000 : Nat), (false : Bool), ([.way (hashOf 0x1122334455667788 0 0) 0] : List Place), by decide⟩,
    ⟨{ wS [(R.GROUND_STATE_HASH_READY, 1), (R.GROUND_HASH_BASE_BASE, 0x84000000)] with mem := [(0x10480000, 2), (0x10480008, 17), (0x10480009, 34), (0x1048000A, 51), (0x1048000B, 68), (0x1048000C, 85), (0x1048000D, 102), (0x1048000E, 119), (0x1048000F, 136), (0x10480010, 7)], gd := { fifo := [(0x10480000, false)], stash := [⟨0x1122334455667788, 0, 9⟩] } }, (0x10480000 : Nat), (false : Bool), (⟨0x1122334455667788, 0, 9⟩ : HashEntry), by decide⟩,
    ⟨{ wS [(R.GROUND_STATE_HASH_READY, 1), (R.GROUND_HASH_BASE_BASE, 0x84000000)] with mem := [(0x10480000, 2), (0x10480008, 17), (0x10480009, 34), (0x1048000A, 51), (0x1048000B, 68), (0x1048000C, 85), (0x1048000D, 102), (0x1048000E, 119), (0x1048000F, 136), (0x10480010, 7), (0x84010D85, 2), (0x84010D86, 45), (0x84010D87, 78), (0x84010D88, 9), (0x84010D8B, 128), (0x84010D95, 2), (0x84010D96, 45), (0x84010D97, 78), (0x84010D98, 9), (0x84010D9B, 128), (0x84010DA5, 2), (0x84010DA6, 45), (0x84010DA7, 78), (0x84010DA8, 9), (0x84010DAB, 128), (0x84010DB5, 2), (0x84010DB6, 45), (0x84010DB7, 78), (0x84010DB8, 9), (0x84010DBB, 128), (0x84010DC5, 2), (0x84010DC6, 45), (0x84010DC7, 78), (0x84010DC8, 9), (0x84010DCB, 128), (0x84010DD5, 2), (0x84010DD6, 45), (0x84010DD7, 78), (0x84010DD8, 9), (0x84010DDB, 128), (0x84010DE5, 2), (0x84010DE6, 45), (0x84010DE7, 78), (0x84010DE8, 9), (0x84010DEB, 128), (0x84010DF5, 2), (0x84010DF6, 45), (0x84010DF7, 78), (0x84010DF8, 9), (0x84010DFB, 128)], gd := { fifo := [(0x10480000, false)], stash := List.replicate 64 ⟨1, 0, 9⟩ } }, (0x10480000 : Nat), (false : Bool), by decide +kernel⟩,
    ⟨{ wS [(R.GROUND_STATE_HASH_READY, 1), (R.GROUND_HASH_BASE_BASE, 0x84000000)] with mem := [(0x10480000, 3), (0x10480008, 17), (0x10480009, 34), (0x1048000A, 51), (0x1048000B, 68), (0x1048000C, 85), (0x1048000D, 102), (0x1048000E, 119), (0x1048000F, 136)], gd := { fifo := [(0x10480000, false)], entries := 3, stash := [⟨0x1122334455667788, 0, 9⟩] } }, (0x10480000 : Nat), (false : Bool), by decide⟩,
    ⟨{ wS [(R.GROUND_STATE_HASH_READY, 1), (R.GROUND_HASH_BASE_BASE, 0x84000000)] with mem := [(0x10480000, 3), (0x10480008, 17), (0x10480009, 34), (0x1048000A, 51), (0x1048000B, 68), (0x1048000C, 85), (0x1048000D, 102), (0x1048000E, 119), (0x1048000F, 136), (0x84010DC0, 17), (0x84010DC1, 34), (0x84010DC2, 51), (0x84010DC3, 68), (0x84010DC4, 85), (0x84010DC5, 102), (0x84010DC6, 119), (0x84010DC7, 136), (0x84010DC8, 9), (0x84010DCB, 128)], gd := { fifo := [(0x10480000, false)], entries := 3 } }, (0x10480000 : Nat), (false : Bool), (1079 : Nat), (0 : Nat), (⟨0x1122334455667788, 0, 9⟩ : HashEntry), by decide⟩,
    ⟨{ wS [(R.GROUND_STATE_HASH_READY, 1), (R.GROUND_HASH_BASE_BASE, 0x84000000)] with mem := [(0x10480000, 3), (0x10480008, 17), (0x10480009, 34), (0x1048000A, 51), (0x1048000B, 68), (0x1048000C, 85), (0x1048000D, 102), (0x1048000E, 119), (0x1048000F, 136)], gd := { fifo := [(0x10480000, false)] } }, (0x10480000 : Nat), (false : Bool), by decide⟩,
    ⟨{ wS [(R.GROUND_STATE_HASH_READY, 1), (R.GROUND_HASH_BASE_BASE, 0x84000000)] with mem := [(0x10480000, 4), (0x10480010, 5), (0x10480015, 16), (0x10480016, 72), (0x10480017, 16), (0x80000500, 5)], gd := { fifo := [(0x10480000, false)] } }, (0x10480000 : Nat), (false : Bool), by decide⟩,
    ⟨{ wS [(R.GROUND_STATE_HASH_READY, 1), (R.GROUND_HASH_BASE_BASE, 0x84000000)] with mem := [(0x10480000, 5), (0x10480010, 5), (0x10480015, 16), (0x10480016, 72), (0x10480017, 16), (0x8000055C, 9)], gd := { fifo := [(0x10480000, false)] } }, (0x10480000 : Nat), (false : Bool), by decide⟩,
    ⟨{ wS [(R.GROUND_STATE_HASH_READY, 1), (R.GROUND_HASH_BASE_BASE, 0x84000000)] with mem := [(0x10480000, 6), (0x10480006, 9), (0x10480010, 5), (0x10480015, 16), (0x10480016, 72), (0x10480017, 16), (0x10481002, 9), (0x104810C4, 7)], gd := { fifo := [(0x10480000, false)] } }, (0x10480000 : Nat), (false : Bool), by decide⟩,
    ⟨{ wS [(R.GROUND_STATE_HASH_READY, 1), (R.GROUND_HASH_BASE_BASE, 0x84000000)] with mem := [(0x10480000, 7), (0x10480010, 5), (0x10480015, 16), (0x10480016, 72), (0x10480017, 16), (0x8000055E, 3), (0x8000055F, 0x80)], gd := { fifo := [(0x10480000, false)], lpt := [(3, ⟨5, some 1, List.replicate 8 {}⟩)] } }, (0x10480000 : Nat), (false : Bool), (3 : Nat), (⟨5, some 1, List.replicate 8 {}⟩ : Lpt), by decide⟩,
    ⟨{ wS [(R.GROUND_STATE_HASH_READY, 1), (R.GROUND_HASH_BASE_BASE, 0x84000000)] with mem := [(0x10480000, 7), (0x10480010, 5), (0x10480015, 16), (0x10480016, 72), (0x10480017, 16)], gd := { fifo := [(0x10480000, false)] } }, (0x10480000 : Nat), (false : Bool), by decide⟩,
    ⟨{ wS [(R.GROUND_STATE_HASH_READY, 1), (R.GROUND_HASH_BASE_BASE, 0x84000000)] with mem := [(0x10480000, 8), (0x10480010, 5), (0x8000055E, 3), (0x8000055F, 0x80)], gd := { fifo := [(0x10480000, false)], lpt := [(3, ⟨5, some 1, List.replicate 8 {}⟩)] } }, (0x10480000 : Nat), (false : Bool), (3 : Nat), (⟨5, some 1, List.replicate 8 {}⟩ : Lpt), by decide⟩,
    ⟨{ wS [(R.GROUND_STATE_HASH_READY, 1), (R.GROUND_HASH_BASE_BASE, 0x84000000)] with mem := [(0x10480000, 8), (0x10480010, 5)], gd := { fifo := [(0x10480000, false)] } }, (0x10480000 : Nat), (false : Bool), by decide⟩,
    ⟨{ wS [(R.GROUND_STATE_HASH_READY, 1), (R.GROUND_HASH_BASE_BASE, 0x84000000), (R.GROUND_ALT_BASE_BASE, 0x90000000)] with mem := [(0x10480000, 9)], gd := { fifo := [(0x10480000, false)], alt0 := 1, alt1 := 2 } }, (0x10480000 : Nat), (false : Bool), by decide⟩,
    ⟨{ wS [(R.GROUND_STATE_HASH_READY, 1), (R.GROUND_HASH_BASE_BASE, 0x84000000), (R.GROUND_ALT_BASE_BASE, 0x90000001)] with mem := [(0x10480000, 9)], gd := { fifo := [(0x10480000, false)], alt0 := 1, alt1 := 2 } }, (0x10480000 : Nat), (false : Bool), (ST.GROUND_ALT_AREA : Nat), by decide⟩,
    ⟨{ wS [(R.GROUND_STATE_HASH_READY, 1), (R.GROUND_HASH_BASE_BASE, 0x84000000)] with mem := [(0x10480000, 9)], gd := { fifo := [(0x10480000, false)], rehash := some 0x10480000 } }, (0x10480000 : Nat), by decide⟩,
    ⟨wS [], by decide⟩,
    ⟨{ wS [(R.GROUND_STATE_HASH_READY, 1), (R.GROUND_HASH_BASE_BASE, 0x84000000), (R.GROUND_ALT_BASE_BASE, 0x90000000), (R.GROUND_STATE_ALT_READY, 1)] with mem := [(0x10480000, 10)], gd := { fifo := [(0x10480000, false)], alt0 := 1, alt1 := 2 } }, (0x10480000 : Nat), (false : Bool), by decide⟩,
    ⟨{ wS [(R.GROUND_STATE_HASH_READY, 1), (R.GROUND_HASH_BASE_BASE, 0x84000000)] with mem := [(0x10480000, 10)], gd := { fifo := [(0x10480000, false)] } }, (0x10480000 : Nat), (false : Bool), by decide⟩,
    ⟨{ wS [(R.GROUND_STATE_HASH_READY, 1), (R.GROUND_HASH_BASE_BASE, 0x84000000)] with mem := [(0x10480000, 11)], gd := { fifo := [(0x10480000, false)] } }, (0x10480000 : Nat), (false : Bool), by decide⟩,
    ⟨wS [], by decide⟩,
    ⟨wS [(R.GROUND_HASH_BASE_BASE, 0x84000000), (R.START_STATE_PHASE, 1)], by decide⟩,
    ⟨wS [(R.GROUND_HASH_BASE_BASE, 0x84000000)], (0x84000000 : Nat), by decide⟩,
    ⟨wS [(R.GROUND_STATE_HASH_READY, 1)], by decide⟩⟩

/-- States and operands that meet the hypotheses of each clause of BorderRouter. -/
theorem test_BorderRouter_witness :
    (∃ s : State, ∃ p : Fin 2, (s.Inv) ∧ (s.ryRuns = true ∧ s.isSet (R.UPL_STAT_LINK_UP p) = true ∧ s.getF (R.UPL_CTRL_ADMIN p) = 0)) ∧
    (∃ s : State, ∃ p : Fin 2, (s.Inv) ∧ (¬ (s.ryRuns = true ∧ s.isSet (R.UPL_STAT_LINK_UP p) = true ∧ s.getF (R.UPL_CTRL_ADMIN p) = 0))) ∧
    (∃ s : State, ∃ d : Option (BitVec 64 × Fin 65 × Nat), (s.Inv) ∧ (s.ryRuns = true ∧ s.settingD (settingNo svcNet 0 13 0) 0 = 1) ∧ (s.ry.deleg.map (fun (x : Nat × Nat × Nat) => (x.1, x.2.1)) = d.map (fun (x : BitVec 64 × Fin 65 × Nat) => (x.1.toNat, x.2.1.val)))) ∧
    (∃ s : State, ∃ d : Option (BitVec 64 × Fin 65 × Nat), (s.Inv) ∧ (s.ryRuns = true ∧ s.settingD (settingNo svcNet 0 13 0) 0 = 1) ∧ (¬ (s.ry.deleg.map (fun (x : Nat × Nat × Nat) => (x.1, x.2.1)) = d.map (fun (x : BitVec 64 × Fin 65 × Nat) => (x.1.toNat, x.2.1.val))))) ∧
    (∃ s : State, (s.Inv) ∧ (¬ (s.ryRuns = true ∧ s.settingD (settingNo svcNet 0 13 0) 0 = 1))) ∧
    (∃ s : State, ∃ p : Fin 2, ∃ u : Nat, (s.Inv) ∧ (s.ryRuns = true ∧ p.val = s.preferred) ∧ (¬ (s.isSet (R.UPL_STAT_LINK_UP p) = true ∧ (s.netPort p).routers.any (fun (r : Nat × Nat) => decide (max s.mtb u < r.2)) = true))) ∧
    (∃ s : State, ∃ p : Fin 2, ∃ u : Nat, (s.Inv) ∧ (s.ryRuns = false ∨ p.val ≠ s.preferred ∨ s.isSet (R.UPL_STAT_LINK_UP p) = true ∧ (s.netPort p).routers.any (fun (r : Nat × Nat) => decide (max s.mtb u < r.2)) = true)) ∧
    (∃ s : State, ∃ u : Nat, (s.Inv) ∧ (s.ry.backAt.any (fun (a : Nat) => decide (a ≤ max s.mtb u)) = true ∧ (s.advance u).liveRouter s.preferred = true)) ∧
    (∃ s : State, ∃ u : Nat, (s.Inv) ∧ (¬ (s.ry.backAt.any (fun (a : Nat) => decide (a ≤ max s.mtb u)) = true ∧ (s.advance u).liveRouter s.preferred = true))) ∧
    (∃ s : State, ∃ d : BitVec 128, (s.Inv) ∧ (s.rySends = false ∨ (List.range s.pr.pans.length).find? (fun p => decide ((s.panPrefix p).map (fun (y : Nat × Nat) => y.1) = some (d.toNat / 2 ^ 64))) = none)) ∧
    (∃ s : State, ∃ d : BitVec 128, ∃ u : Nat, ∃ p : Nat, (s.Inv) ∧ (s.rySends = true) ∧ ((List.range s.pr.pans.length).find? (fun p => decide ((s.panPrefix p).map (fun (y : Nat × Nat) => y.1) = some (d.toNat / 2 ^ 64))) = some p) ∧ (s.known (s.groundLookup 1 p (d.toNat % 2 ^ 64)) = false ∨ s.nodePan (s.groundLookup 1 p (d.toNat % 2 ^ 64)) ≠ p ∨ ((s.advance u).route (s.groundLookup 1 p (d.toNat % 2 ^ 64))).isNone = true)) ∧
    (∃ s : State, ∃ d : BitVec 128, ∃ n : Nat, ∃ u : Nat, ∃ p : Nat, ∃ v : Nat, ∃ hop : Nat, ∃ h : List Byte, ∃ y : State, (s.Inv) ∧ (s.rySends = true) ∧ ((List.range s.pr.pans.length).find? (fun p => decide ((s.panPrefix p).map (fun (y : Nat × Nat) => y.1) = some (d.toNat / 2 ^ 64))) = some p) ∧ (s.groundLookup 1 p (d.toNat % 2 ^ 64) = v) ∧ (s.known v = true ∧ s.nodePan v = p) ∧ ((s.advance u).route v = some ((hop, h), y)) ∧ (1280 < n + h.length)) ∧
    (∃ s : State, ∃ d : BitVec 128, ∃ n : Nat, ∃ hi : Nat, ∃ ho : Nat, ∃ x : Nat, ∃ u : Nat, ∃ phy : Fin 65536, ∃ p : Nat, ∃ v : Nat, ∃ hop : Nat, ∃ h : List Byte, ∃ y : State, (s.Inv) ∧ (s.rySends = true) ∧ ((List.range s.pr.pans.length).find? (fun p => decide ((s.panPrefix p).map (fun (y : Nat × Nat) => y.1) = some (d.toNat / 2 ^ 64))) = some p) ∧ (s.groundLookup 1 p (d.toNat % 2 ^ 64) = v) ∧ (s.known v = true ∧ s.nodePan v = p) ∧ ((s.advance u).route v = some ((hop, h), y)) ∧ (n + h.length ≤ 1280) ∧ (h.length + ho + (n - hi) ≤ maxPsdu phy - x)) ∧
    (∃ s : State, ∃ d : BitVec 128, ∃ n : Nat, ∃ hi : Nat, ∃ ho : Nat, ∃ x : Nat, ∃ u : Nat, ∃ phy : Fin 65536, ∃ p : Nat, ∃ v : Nat, ∃ hop : Nat, ∃ h : List Byte, ∃ y : State, (s.Inv) ∧ (s.rySends = true) ∧ ((List.range s.pr.pans.length).find? (fun p => decide ((s.panPrefix p).map (fun (y : Nat × Nat) => y.1) = some (d.toNat / 2 ^ 64))) = some p) ∧ (s.groundLookup 1 p (d.toNat % 2 ^ 64) = v) ∧ (s.known v = true ∧ s.nodePan v = p) ∧ ((s.advance u).route v = some ((hop, h), y)) ∧ (n + h.length ≤ 1280) ∧ (maxPsdu phy - x < h.length + ho + (n - hi))) ∧
    (∃ s : State, ∃ v : Nat, (s.Inv) ∧ (¬ (s.rySends = true ∧ s.known v = true))) ∧
    (∃ s : State, ∃ v : Nat, ∃ tag : Nat, ∃ off : Nat, ∃ u : Nat, (s.Inv) ∧ (s.rySends = true ∧ s.known v = true) ∧ ((s.ry.reasm.filter (fun (c : Reasm) => decide (max s.mtb u < c.at_ + 60 * secCyc))).any (fun (c : Reasm) => c.node == v && c.tag == tag) = false) ∧ (off = 0 ∧ (s.ry.reasm.filter (fun (c : Reasm) => decide (max s.mtb u < c.at_ + 60 * secCyc))).length < 2048)) ∧
    (∃ s : State, ∃ v : Nat, ∃ tag : Nat, ∃ off : Nat, ∃ u : Nat, (s.Inv) ∧ (s.rySends = true ∧ s.known v = true) ∧ ((s.ry.reasm.filter (fun (c : Reasm) => decide (max s.mtb u < c.at_ + 60 * secCyc))).any (fun (c : Reasm) => c.node == v && c.tag == tag) = false) ∧ (off ≠ 0 ∨ 2048 ≤ (s.ry.reasm.filter (fun (c : Reasm) => decide (max s.mtb u < c.at_ + 60 * secCyc))).length)) ∧
    (∃ s : State, ∃ v : Nat, ∃ tag : Nat, ∃ off : Nat, ∃ u : Nat, ∃ d : List Byte, ∃ c : Reasm, (s.Inv) ∧ (s.rySends = true ∧ s.known v = true) ∧ ((s.ry.reasm.filter (fun (c : Reasm) => decide (max s.mtb u < c.at_ + 60 * secCyc))).find? (fun (c : Reasm) => c.node == v && c.tag == tag) = some c) ∧ (c.frags.any (fun f => clash f (off, d)) = true)) ∧
    (∃ s : State, ∃ v : Nat, ∃ tag : Nat, ∃ off : Nat, ∃ u : Nat, ∃ d : List Byte, ∃ b : List Byte, ∃ c : Reasm, (s.Inv) ∧ (s.rySends = true ∧ s.known v = true) ∧ ((s.ry.reasm.filter (fun (c : Reasm) => decide (max s.mtb u < c.at_ + 60 * secCyc))).find? (fun (c : Reasm) => c.node == v && c.tag == tag) = some c) ∧ (c.frags.any (fun f => clash f (off, d)) = false) ∧ (assemble c.size (c.frags ++ [(off, d)]) = some b)) ∧
    (∃ s : State, ∃ v : Nat, ∃ tag : Nat, ∃ off : Nat, ∃ u : Nat, ∃ d : List Byte, ∃ c : Reasm, (s.Inv) ∧ (s.rySends = true ∧ s.known v = true) ∧ ((s.ry.reasm.filter (fun (c : Reasm) => decide (max s.mtb u < c.at_ + 60 * secCyc))).find? (fun (c : Reasm) => c.node == v && c.tag == tag) = some c) ∧ (c.frags.any (fun f => clash f (off, d)) = false) ∧ (assemble c.size (c.frags ++ [(off, d)]) = none)) ∧
    (∃ s : State, (s.Inv) ∧ (¬ (s.rySends = true ∧ s.isSet R.GROUND_STATE_HASH_READY = true))) ∧
    (∃ s : State, (s.Inv) ∧ (s.rySends = true ∧ s.isSet R.GROUND_STATE_HASH_READY = true)) ∧
    (∃ s : State, ∃ v : Nat, ∃ iid : BitVec 64, (s.Inv) ∧ (s.rySends = true ∧ s.isSet R.GROUND_STATE_HASH_READY = true) ∧ (s.known v = true) ∧ (shortIid iid.toNat = false ∧ iid.toNat ≠ s.recEui v ^^^ 0x0200000000000000)) ∧
    (∃ s : State, ∃ v : Nat, ∃ u : Nat, (s.Inv) ∧ (s.rySends = true ∧ s.known v = true ∧ s.recGet v 200 8 ≤ max s.mtb u)) ∧
    (∃ s : State, ∃ v : Nat, ∃ u : Nat, (s.Inv) ∧ (¬ (s.rySends = true ∧ s.known v = true ∧ s.recGet v 200 8 ≤ max s.mtb u))) ∧
    (∃ s : State, ∃ p : Fin 16, ∃ u : Nat, (s.Inv) ∧ ((s.root p).dioAt.any (fun (a : Nat) => decide (a ≤ max s.mtb u)) = true ∧ s.rySends = true ∧ (s.panPrefix p).isSome = true ∧ s.isSet R.GROUND_STATE_HASH_READY = true)) ∧
    (∃ s : State, ∃ p : Fin 16, ∃ u : Nat, (s.Inv) ∧ (¬ ((s.root p).dioAt.any (fun (a : Nat) => decide (a ≤ max s.mtb u)) = true ∧ s.rySends = true ∧ (s.panPrefix p).isSome = true ∧ s.isSet R.GROUND_STATE_HASH_READY = true))) ∧
    (∃ s : State, ∃ q : Nat, ∃ p : Nat, ∃ tg : BitVec 64, ∃ l : List Transit, ∃ x : Transit, (s.Inv) ∧ (s.rySends = true ∧ s.known q = true) ∧ (bestTransit l = some x ∧ x.life ≠ 0) ∧ (s.known (s.groundLookup 1 p tg.toNat) = true ∧ s.nodePan (s.groundLookup 1 p tg.toNat) = p ∧ (s.ownIid p x.parent = true ∨ s.known (if s.ownIid p x.parent then nodeNone else s.groundLookup 1 p x.parent) = true ∧ s.nodePan (if s.ownIid p x.parent then nodeNone else s.groundLookup 1 p x.parent) = p))) ∧
    (∃ s : State, ∃ q : Nat, ∃ p : Nat, ∃ tg : BitVec 64, ∃ l : List Transit, ∃ x : Transit, (s.Inv) ∧ (s.rySends = true ∧ s.known q = true) ∧ (bestTransit l = some x ∧ x.life = 0) ∧ (s.known (s.groundLookup 1 p tg.toNat) = true ∧ s.nodePan (s.groundLookup 1 p tg.toNat) = p ∧ (s.ownIid p x.parent = true ∨ s.known (if s.ownIid p x.parent then nodeNone else s.groundLookup 1 p x.parent) = true ∧ s.nodePan (if s.ownIid p x.parent then nodeNone else s.groundLookup 1 p x.parent) = p))) ∧
    (∃ s : State, ∃ q : Nat, ∃ p : Nat, ∃ tg : BitVec 64, ∃ l : List Transit, (s.Inv) ∧ (s.rySends = true ∧ s.known q = true) ∧ ((bestTransit l).all (fun (x : Transit) => !decide (s.known (s.groundLookup 1 p tg.toNat) = true ∧ s.nodePan (s.groundLookup 1 p tg.toNat) = p ∧ (s.ownIid p x.parent = true ∨ s.known (if s.ownIid p x.parent then nodeNone else s.groundLookup 1 p x.parent) = true ∧ s.nodePan (if s.ownIid p x.parent then nodeNone else s.groundLookup 1 p x.parent) = p))) = true)) ∧
    (∃ s : State, ∃ q : Nat, (s.Inv) ∧ (¬ (s.rySends = true ∧ s.known q = true))) ∧
    (∃ s : State, ∃ v : Nat, ∃ u : Nat, (s.Inv) ∧ (s.rySends = true ∧ s.known v = true ∧ s.rank v ≠ 0xFFFF ∧ s.recGet v 192 8 ≤ max s.mtb u)) ∧
    (∃ s : State, ∃ v : Nat, ∃ u : Nat, (s.Inv) ∧ (¬ (s.rySends = true ∧ s.known v = true ∧ s.rank v ≠ 0xFFFF ∧ s.recGet v 192 8 ≤ max s.mtb u))) :=
  ⟨⟨{ wS [(R.GROUND_STATE_HASH_READY, 1), (R.UPL_STAT_LINK_UP 0, 1), (R.UPL_STAT_LINK_UP 1, 1)] with mem := [], ry := {  } }, (1 : Fin 2), by decide⟩,
    ⟨wS [], (1 : Fin 2), by decide⟩,
    ⟨{ wS [(R.GROUND_STATE_HASH_READY, 1), (R.UPL_STAT_LINK_UP 0, 1), (R.UPL_STAT_LINK_UP 1, 1)] with mem := [], ry := { settings := [(settingNo svcNet 0 13 0, [1])], deleg := some (0x20010DB800000000, 56, 50) } }, (some (0x20010DB800000000, 56, 3600) : Option (BitVec 64 × Fin 65 × Nat)), by decide⟩,
    ⟨{ wS [(R.GROUND_STATE_HASH_READY, 1), (R.UPL_STAT_LINK_UP 0, 1), (R.UPL_STAT_LINK_UP 1, 1)] with mem := [], ry := { settings := [(settingNo svcNet 0 13 0, [1])] } }, (some (0x20010DB800000000, 56, 3600) : Option (BitVec 64 × Fin 65 × Nat)), by decide⟩,
    ⟨wS [], by decide⟩,
    ⟨{ wS [(R.GROUND_STATE_HASH_READY, 1), (R.UPL_STAT_LINK_UP 0, 1), (R.UPL_STAT_LINK_UP 1, 1)] with mem := [], ry := { port0 := { routers := [(5, 50)] } } }, (0 : Fin 2), (100 : Nat), by decide⟩,
    ⟨{ wS [(R.GROUND_STATE_HASH_READY, 1), (R.UPL_STAT_LINK_UP 0, 1), (R.UPL_STAT_LINK_UP 1, 1)] with mem := [], ry := { port1 := { routers := [(5, 50)] } } }, (1 : Fin 2), (100 : Nat), by decide⟩,
    ⟨{ wS [(R.GROUND_STATE_HASH_READY, 1), (R.UPL_STAT_LINK_UP 0, 1), (R.UPL_STAT_LINK_UP 1, 1)] with mem := [], ry := { inUse := 1, backAt := some 50, port0 := { routers := [(5, 5000)] } } }, (100 : Nat), by decide⟩,
    ⟨wS [], (100 : Nat), by decide⟩,
    ⟨wS [], (BitVec.ofNat 128 (0x20010DB800000000 * 2 ^ 64 + 0x000000FFFE000005) : BitVec 128), by decide⟩,
    ⟨{ wS [(R.GROUND_STATE_HASH_READY, 1), (R.UPL_STAT_LINK_UP 0, 1), (R.UPL_STAT_LINK_UP 1, 1)] with mem := [], ry := { settings := [(settingNo svcPan 0 12 0, [0x20010DB800000000])] } }, (BitVec.ofNat 128 (0x20010DB800000000 * 2 ^ 64 + 0x000000FFFE000005) : BitVec 128), (100 : Nat), (0 : Nat), by decide⟩,
    ⟨{ wS [(R.GROUND_STATE_HASH_READY, 1), (R.UPL_STAT_LINK_UP 0, 1), (R.UPL_STAT_LINK_UP 1, 1)] with mem := [(0x8000050D, 1), (0x80000550, 0xFF), (0x80000551, 0xFF), (0x80000552, 3)], ry := { settings := [(settingNo svcPan 0 12 0, [0x20010DB800000000])] } }, (BitVec.ofNat 128 (0x20010DB800000000 * 2 ^ 64 + 0x000000FFFE000005) : BitVec 128), (1281 : Nat), (100 : Nat), (0 : Nat), (5 : Nat), (5 : Nat), ([] : List Byte), ({ ({ wS [(R.GROUND_STATE_HASH_READY, 1), (R.UPL_STAT_LINK_UP 0, 1), (R.UPL_STAT_LINK_UP 1, 1)] with mem := [(0x8000050D, 1), (0x80000550, 0xFF), (0x80000551, 0xFF), (0x80000552, 3)], ry := { settings := [(settingNo svcPan 0 12 0, [0x20010DB800000000])] } } : State) with mtb := 100 } : State), by decide⟩,
    ⟨{ wS [(R.GROUND_STATE_HASH_READY, 1), (R.UPL_STAT_LINK_UP 0, 1), (R.UPL_STAT_LINK_UP 1, 1)] with mem := [(0x8000050D, 1), (0x80000550, 0xFF), (0x80000551, 0xFF), (0x80000552, 3)], ry := { settings := [(settingNo svcPan 0 12 0, [0x20010DB800000000])] } }, (BitVec.ofNat 128 (0x20010DB800000000 * 2 ^ 64 + 0x000000FFFE000005) : BitVec 128), (80 : Nat), (48 : Nat), (10 : Nat), (30 : Nat), (100 : Nat), (0x3000 : Fin 65536), (0 : Nat), (5 : Nat), (5 : Nat), ([] : List Byte), ({ ({ wS [(R.GROUND_STATE_HASH_READY, 1), (R.UPL_STAT_LINK_UP 0, 1), (R.UPL_STAT_LINK_UP 1, 1)] with mem := [(0x8000050D, 1), (0x80000550, 0xFF), (0x80000551, 0xFF), (0x80000552, 3)], ry := { settings := [(settingNo svcPan 0 12 0, [0x20010DB800000000])] } } : State) with mtb := 100 } : State), by decide⟩,
    ⟨{ wS [(R.GROUND_STATE_HASH_READY, 1), (R.UPL_STAT_LINK_UP 0, 1), (R.UPL_STAT_LINK_UP 1, 1)] with mem := [(0x8000050D, 1), (0x80000550, 0xFF), (0x80000551, 0xFF), (0x80000552, 3)], ry := { settings := [(settingNo svcPan 0 12 0, [0x20010DB800000000])] } }, (BitVec.ofNat 128 (0x20010DB800000000 * 2 ^ 64 + 0x000000FFFE000005) : BitVec 128), (1200 : Nat), (48 : Nat), (10 : Nat), (1999 : Nat), (100 : Nat), (0x3000 : Fin 65536), (0 : Nat), (5 : Nat), (5 : Nat), ([] : List Byte), ({ ({ wS [(R.GROUND_STATE_HASH_READY, 1), (R.UPL_STAT_LINK_UP 0, 1), (R.UPL_STAT_LINK_UP 1, 1)] with mem := [(0x8000050D, 1), (0x80000550, 0xFF), (0x80000551, 0xFF), (0x80000552, 3)], ry := { settings := [(settingNo svcPan 0 12 0, [0x20010DB800000000])] } } : State) with mtb := 100 } : State), by decide⟩,
    ⟨wS [], (5 : Nat), by decide⟩,
    ⟨{ wS [(R.GROUND_STATE_HASH_READY, 1), (R.UPL_STAT_LINK_UP 0, 1), (R.UPL_STAT_LINK_UP 1, 1)] with mem := [(0x8000050D, 1)], ry := {  } }, (5 : Nat), (3 : Nat), (0 : Nat), (100 : Nat), by decide⟩,
    ⟨{ wS [(R.GROUND_STATE_HASH_READY, 1), (R.UPL_STAT_LINK_UP 0, 1), (R.UPL_STAT_LINK_UP 1, 1)] with mem := [(0x8000050D, 1)], ry := {  } }, (5 : Nat), (3 : Nat), (8 : Nat), (100 : Nat), by decide⟩,
    ⟨{ wS [(R.GROUND_STATE_HASH_READY, 1), (R.UPL_STAT_LINK_UP 0, 1), (R.UPL_STAT_LINK_UP 1, 1)] with mem := [(0x8000050D, 1)], ry := { reasm := [⟨5, 3, 4, 0, [(0, [1, 2])]⟩] } }, (5 : Nat), (3 : Nat), (1 : Nat), (100 : Nat), ([3, 4] : List Byte), (⟨5, 3, 4, 0, [(0, [1, 2])]⟩ : Reasm), by decide⟩,
    ⟨{ wS [(R.GROUND_STATE_HASH_READY, 1), (R.UPL_STAT_LINK_UP 0, 1), (R.UPL_STAT_LINK_UP 1, 1)] with mem := [(0x8000050D, 1)], ry := { reasm := [⟨5, 3, 4, 0, [(0, [1, 2])]⟩] } }, (5 : Nat), (3 : Nat), (2 : Nat), (100 : Nat), ([3, 4] : List Byte), ([1, 2, 3, 4] : List Byte), (⟨5, 3, 4, 0, [(0, [1, 2])]⟩ : Reasm), by decide⟩,
    ⟨{ wS [(R.GROUND_STATE_HASH_READY, 1), (R.UPL_STAT_LINK_UP 0, 1), (R.UPL_STAT_LINK_UP 1, 1)] with mem := [(0x8000050D, 1)], ry := { reasm := [⟨5, 3, 9, 0, [(0, [1, 2])]⟩] } }, (5 : Nat), (3 : Nat), (2 : Nat), (100 : Nat), ([3, 4] : List Byte), (⟨5, 3, 9, 0, [(0, [1, 2])]⟩ : Reasm), by decide⟩,
    ⟨wS [], by decide⟩,
    ⟨{ wS [(R.GROUND_STATE_HASH_READY, 1), (R.UPL_STAT_LINK_UP 0, 1), (R.UPL_STAT_LINK_UP 1, 1)] with mem := [(0x8000050D, 5), (0x80000547, 9)], ry := {  } }, by decide⟩,
    ⟨{ wS [(R.GROUND_STATE_HASH_READY, 1), (R.UPL_STAT_LINK_UP 0, 1), (R.UPL_STAT_LINK_UP 1, 1)] with mem := [(0x8000050D, 5), (0x80000547, 9)], ry := {  } }, (5 : Nat), (9 : BitVec 64), by decide⟩,
    ⟨{ wS [(R.GROUND_STATE_HASH_READY, 1), (R.UPL_STAT_LINK_UP 0, 1), (R.UPL_STAT_LINK_UP 1, 1)] with mem := [(0x8000050D, 5), (0x80000547, 9)], ry := {  } }, (5 : Nat), (100 : Nat), by decide⟩,
    ⟨wS [], (5 : Nat), (100 : Nat), by decide⟩,
    ⟨{ wS [(R.GROUND_STATE_HASH_READY, 1), (R.UPL_STAT_LINK_UP 0, 1), (R.UPL_STAT_LINK_UP 1, 1)] with mem := [], ry := { settings := [(settingNo svcPan 0 12 0, [0x20010DB800000000])], roots := [(0, { dioAt := some 50, ends := 60 })] } }, (0 : Fin 16), (100 : Nat), by decide⟩,
    ⟨wS [], (0 : Fin 16), (100 : Nat), by decide⟩,
    ⟨{ wS [(R.GROUND_STATE_HASH_READY, 1), (R.UPL_STAT_LINK_UP 0, 1), (R.UPL_STAT_LINK_UP 1, 1), (R.MAC_PAN_ADDR_SHORT, 0)] with mem := [(0x8000050D, 1), (0x8000060D, 1)], ry := {  } }, (5 : Nat), (0 : Nat), (0x000000FFFE000005 : BitVec 64), ([⟨7, 0x000000FFFE000000, 600⟩] : List Transit), (⟨7, 0x000000FFFE000000, 600⟩ : Transit), by decide, by decide, by decide, by decide, by decide, .inl (by rw [State.ownIid, Bool.or_eq_true]; exact .inr (by decide))⟩,
    ⟨{ wS [(R.GROUND_STATE_HASH_READY, 1), (R.UPL_STAT_LINK_UP 0, 1), (R.UPL_STAT_LINK_UP 1, 1), (R.MAC_PAN_ADDR_SHORT, 0)] with mem := [(0x8000050D, 1), (0x8000060D, 1)], ry := {  } }, (5 : Nat), (0 : Nat), (0x000000FFFE000005 : BitVec 64), ([⟨7, 0x000000FFFE000000, 0⟩] : List Transit), (⟨7, 0x000000FFFE000000, 0⟩ : Transit), by decide, by decide, by decide, by decide, by decide, .inl (by rw [State.ownIid, Bool.or_eq_true]; exact .inr (by decide))⟩,
    ⟨{ wS [(R.GROUND_STATE_HASH_READY, 1), (R.UPL_STAT_LINK_UP 0, 1), (R.UPL_STAT_LINK_UP 1, 1)] with mem := [(0x8000050D, 1)], ry := {  } }, (5 : Nat), (0 : Nat), (0x000000FFFE000005 : BitVec 64), ([] : List Transit), by decide⟩,
    ⟨wS [], (5 : Nat), by decide⟩,
    ⟨{ wS [(R.GROUND_STATE_HASH_READY, 1), (R.UPL_STAT_LINK_UP 0, 1), (R.UPL_STAT_LINK_UP 1, 1)] with mem := [(0x8000050D, 1), (0x80000554, 9)], ry := {  } }, (5 : Nat), (100 : Nat), by decide⟩,
    ⟨wS [], (5 : Nat), (100 : Nat), by decide⟩⟩

/-- States and operands that meet the hypotheses of each clause of SchedulesAndJoins. -/
theorem test_SchedulesAndJoins_witness :
    (∃ s : State, ∃ v : Nat, (s.Inv) ∧ (¬ (s.rySends = true ∧ s.known v = true ∧ s.tsch (s.nodePan v) = true))) ∧
    (∃ s : State, ∃ v : Nat, (s.Inv) ∧ (s.rySends = true ∧ s.known v = true ∧ s.tsch (s.nodePan v) = true) ∧ (s.linkBusy v = true)) ∧
    (∃ s : State, ∃ v : Nat, (s.Inv) ∧ (s.rySends = true ∧ s.known v = true ∧ s.tsch (s.nodePan v) = true) ∧ (s.linkBusy v = false)) ∧
    (∃ s : State, ∃ v : Nat, ∃ b : Nat, (s.Inv) ∧ (s.rySends = true ∧ s.known v = true ∧ s.tsch (s.nodePan v) = true) ∧ (s.linkBusy v = false ∧ s.parentOf v = some b ∧ v ≠ b)) ∧
    (∃ s : State, ∃ v : Nat, (s.Inv) ∧ (s.rySends = true ∧ v ∈ s.ry.unacked)) ∧
    (∃ s : State, ∃ v : Nat, (s.Inv) ∧ (s.rySends = false ∨ v ∉ s.ry.unacked)) ∧
    (∃ s : State, ∃ v : Nat, ∃ u : Nat, ∃ f : Fin 256, (s.Inv) ∧ (s.rySends = true ∧ s.known v = true) ∧ (f.val ≠ 0xF3 ∨ 512 ≤ (s.ry.sixp.filter (fun (x : Nat × Nat) => x.1 != v && decide (max s.mtb u < x.2 + 30 * secCyc))).length)) ∧
    (∃ s : State, ∃ v : Nat, ∃ u : Nat, ∃ f : Fin 256, (s.Inv) ∧ (s.rySends = true ∧ s.known v = true) ∧ (f.val = 0xF3 ∧ (s.ry.sixp.filter (fun (x : Nat × Nat) => x.1 != v && decide (max s.mtb u < x.2 + 30 * secCyc))).length < 512)) ∧
    (∃ s : State, ∃ v : Nat, (s.Inv) ∧ (¬ (s.rySends = true ∧ s.known v = true))) ∧
    (∃ s : State, ∃ p : Fin 16, (s.Inv) ∧ (¬ (s.rySends = true ∧ (s.panPrefix p).isSome = true ∧ (s.panRec p).isSome = true ∧ s.isSet R.GROUND_STATE_HASH_READY = true))) ∧
    (∃ s : State, ∃ p : Fin 16, ∃ e : BitVec 64, ∃ m : Fin 65536, ∃ u : Nat, ∃ a : Nat × Nat × Nat × Ctl, (s.Inv) ∧ (s.rySends = true ∧ (s.panPrefix p).isSome = true ∧ (s.panRec p).isSome = true ∧ s.isSet R.GROUND_STATE_HASH_READY = true) ∧ ((s.ry.answers.filter (fun a => decide (max s.mtb u < a.2.2.1))).find? (fun a => decide (a.1 = e.toNat ∧ a.2.1 = m.val)) = some a)) ∧
    (∃ s : State, ∃ p : Fin 16, ∃ e : BitVec 64, ∃ g : BitVec 64, ∃ m : Fin 65536, ∃ oscore : Bool, ∃ u : Nat, ∃ c : Nat, (s.Inv) ∧ (s.rySends = true ∧ (s.panPrefix p).isSome = true ∧ (s.panRec p).isSome = true ∧ s.isSet R.GROUND_STATE_HASH_READY = true) ∧ ((s.ry.answers.filter (fun a => decide (max s.mtb u < a.2.2.1))).any (fun a => decide (a.1 = e.toNat ∧ a.2.1 = m.val)) = false) ∧ ((if s.settingD (settingNo svcJoin 0 13 0) 50 ≤ (s.advance u).joinsNow p then some 163 else if s.settingD (settingNo svcJoin 0 11 0) 0 = 1 ∧ s.pledges.any (fun (x : Nat × List Nat) => decide (x.2.head? = some g.toNat)) = false then some 131 else if (s.pledgePsk g.toNat).isNone = true ∨ oscore = false then some 129 else none) = some c)) ∧
    (∃ s : State, ∃ p : Fin 16, ∃ e : BitVec 64, ∃ g : BitVec 64, ∃ m : Fin 65536, ∃ oscore : Bool, ∃ u : Nat, (s.Inv) ∧ (s.rySends = true ∧ (s.panPrefix p).isSome = true ∧ (s.panRec p).isSome = true ∧ s.isSet R.GROUND_STATE_HASH_READY = true) ∧ ((s.ry.answers.filter (fun a => decide (max s.mtb u < a.2.2.1))).any (fun a => decide (a.1 = e.toNat ∧ a.2.1 = m.val)) = false) ∧ ((if s.settingD (settingNo svcJoin 0 13 0) 50 ≤ (s.advance u).joinsNow p then some 163 else if s.settingD (settingNo svcJoin 0 11 0) 0 = 1 ∧ s.pledges.any (fun (x : Nat × List Nat) => decide (x.2.head? = some g.toNat)) = false then some 131 else if (s.pledgePsk g.toNat).isNone = true ∨ oscore = false then some 129 else none) = none) ∧ (s.drbgOk = false)) ∧
    (∃ s : State, ∃ p : Fin 16, ∃ e : BitVec 64, ∃ g : BitVec 64, ∃ m : Fin 65536, ∃ oscore : Bool, ∃ u : Nat, ∃ v : Nat, ∃ k : Nat, (s.Inv) ∧ (s.rySends = true ∧ (s.panPrefix p).isSome = true ∧ (s.panRec p).isSome = true ∧ s.isSet R.GROUND_STATE_HASH_READY = true) ∧ ((s.ry.answers.filter (fun a => decide (max s.mtb u < a.2.2.1))).any (fun a => decide (a.1 = e.toNat ∧ a.2.1 = m.val)) = false) ∧ ((if s.settingD (settingNo svcJoin 0 13 0) 50 ≤ (s.advance u).joinsNow p then some 163 else if s.settingD (settingNo svcJoin 0 11 0) 0 = 1 ∧ s.pledges.any (fun (x : Nat × List Nat) => decide (x.2.head? = some g.toNat)) = false then some 131 else if (s.pledgePsk g.toNat).isNone = true ∨ oscore = false then some 129 else none) = none) ∧ (s.drbgOk = true) ∧ (s.hashLookup e.toNat 0 = nodeNone ∧ s.hashHas s.liveTab s.gd.stash e.toNat 0 = none) ∧ (s.freeIndex p = some v ∧ v < 2 ^ 18) ∧ (s.freeWay s.liveTab (bucketsOf s.gd.seed0 s.gd.seed1 e.toNat 0).1 = some k) ∧ (s.altActive = false ∧ s.recAddr v 256 ≤ s.getF R.GROUND_HASH_BASE_BASE)) ∧
    (∃ s : State, ∃ p : Fin 16, ∃ e : BitVec 64, ∃ g : BitVec 64, ∃ m : Fin 65536, ∃ oscore : Bool, ∃ u : Nat, ∃ v : Nat, (s.Inv) ∧ (s.rySends = true ∧ (s.panPrefix p).isSome = true ∧ (s.panRec p).isSome = true ∧ s.isSet R.GROUND_STATE_HASH_READY = true) ∧ ((s.ry.answers.filter (fun a => decide (max s.mtb u < a.2.2.1))).any (fun a => decide (a.1 = e.toNat ∧ a.2.1 = m.val)) = false) ∧ ((if s.settingD (settingNo svcJoin 0 13 0) 50 ≤ (s.advance u).joinsNow p then some 163 else if s.settingD (settingNo svcJoin 0 11 0) 0 = 1 ∧ s.pledges.any (fun (x : Nat × List Nat) => decide (x.2.head? = some g.toNat)) = false then some 131 else if (s.pledgePsk g.toNat).isNone = true ∨ oscore = false then some 129 else none) = none) ∧ (s.drbgOk = true) ∧ (s.hashLookup e.toNat 0 = v ∧ v ≠ nodeNone ∧ (s.panNodes p).contains v = true) ∧ ((s.hashHas s.liveTab s.gd.stash e.toNat 0).isSome = true) ∧ (s.altActive = false ∧ s.recAddr v 256 ≤ s.getF R.GROUND_HASH_BASE_BASE)) ∧
    (∃ s : State, ∃ p : Fin 16, ∃ e : BitVec 64, ∃ g : BitVec 64, ∃ m : Fin 65536, ∃ oscore : Bool, ∃ u : Nat, ∃ v : Nat, ∃ k : Nat, ∃ y : State, (s.Inv) ∧ (s.rySends = true ∧ (s.panPrefix p).isSome = true ∧ (s.panRec p).isSome = true ∧ s.isSet R.GROUND_STATE_HASH_READY = true) ∧ ((s.ry.answers.filter (fun a => decide (max s.mtb u < a.2.2.1))).any (fun a => decide (a.1 = e.toNat ∧ a.2.1 = m.val)) = false) ∧ ((if s.settingD (settingNo svcJoin 0 13 0) 50 ≤ (s.advance u).joinsNow p then some 163 else if s.settingD (settingNo svcJoin 0 11 0) 0 = 1 ∧ s.pledges.any (fun (x : Nat × List Nat) => decide (x.2.head? = some g.toNat)) = false then some 131 else if (s.pledgePsk g.toNat).isNone = true ∨ oscore = false then some 129 else none) = none) ∧ (s.drbgOk = true) ∧ (s.hashLookup e.toNat 0 ≠ nodeNone ∧ (s.panNodes p).contains (s.hashLookup e.toNat 0) = false) ∧ (((s.advance u).setRoot p { s.root p with joinSec := max s.mtb u / secCyc, joinNow := (s.advance u).joinsNow p + 1 }).removeNode (s.hashLookup e.toNat 0) = y) ∧ (y.freeIndex p = some v ∧ v < 2 ^ 18) ∧ (y.hashHas y.liveTab y.gd.stash e.toNat 0 = none ∧ y.freeWay y.liveTab (bucketsOf s.gd.seed0 s.gd.seed1 e.toNat 0).1 = some k) ∧ (y.altActive = false ∧ y.recAddr v 256 ≤ y.getF R.GROUND_HASH_BASE_BASE)) ∧
    (∃ s : State, ∃ p : Fin 16, ∃ e : BitVec 64, ∃ g : BitVec 64, ∃ m : Fin 65536, ∃ oscore : Bool, ∃ u : Nat, (s.Inv) ∧ (s.rySends = true ∧ (s.panPrefix p).isSome = true ∧ (s.panRec p).isSome = true ∧ s.isSet R.GROUND_STATE_HASH_READY = true) ∧ ((s.ry.answers.filter (fun a => decide (max s.mtb u < a.2.2.1))).any (fun a => decide (a.1 = e.toNat ∧ a.2.1 = m.val)) = false) ∧ ((if s.settingD (settingNo svcJoin 0 13 0) 50 ≤ (s.advance u).joinsNow p then some 163 else if s.settingD (settingNo svcJoin 0 11 0) 0 = 1 ∧ s.pledges.any (fun (x : Nat × List Nat) => decide (x.2.head? = some g.toNat)) = false then some 131 else if (s.pledgePsk g.toNat).isNone = true ∨ oscore = false then some 129 else none) = none) ∧ (s.drbgOk = true) ∧ (s.hashLookup e.toNat 0 = nodeNone) ∧ (s.freeIndex p = none)) ∧
    (∃ s : State, ∃ p : Fin 16, ∃ e : BitVec 64, ∃ g : BitVec 64, ∃ m : Fin 65536, ∃ oscore : Bool, ∃ u : Nat, ∃ v : Nat, (s.Inv) ∧ (s.rySends = true ∧ (s.panPrefix p).isSome = true ∧ (s.panRec p).isSome = true ∧ s.isSet R.GROUND_STATE_HASH_READY = true) ∧ ((s.ry.answers.filter (fun a => decide (max s.mtb u < a.2.2.1))).any (fun a => decide (a.1 = e.toNat ∧ a.2.1 = m.val)) = false) ∧ ((if s.settingD (settingNo svcJoin 0 13 0) 50 ≤ (s.advance u).joinsNow p then some 163 else if s.settingD (settingNo svcJoin 0 11 0) 0 = 1 ∧ s.pledges.any (fun (x : Nat × List Nat) => decide (x.2.head? = some g.toNat)) = false then some 131 else if (s.pledgePsk g.toNat).isNone = true ∨ oscore = false then some 129 else none) = none) ∧ (s.drbgOk = true) ∧ (s.hashLookup e.toNat 0 = nodeNone ∧ s.hashHas s.liveTab s.gd.stash e.toNat 0 = none) ∧ (s.freeIndex p = some v ∧ v < 2 ^ 18) ∧ (s.hashPlan s.liveTab (decide (s.gd.stash.length < 64)) ⟨e.toNat, 0, v⟩ = none) ∧ (s.altActive = false ∧ s.recAddr v 256 ≤ s.getF R.GROUND_HASH_BASE_BASE)) ∧
    (∃ s : State, ∃ p : Fin 16, ∃ v : Nat, ∃ r : Rekey, (s.Inv) ∧ (Store.find? p.val s.ry.rekeys = some r) ∧ (without v r.nodes = [])) ∧
    (∃ s : State, ∃ p : Fin 16, ∃ v : Nat, ∃ r : Rekey, (s.Inv) ∧ (Store.find? p.val s.ry.rekeys = some r) ∧ (without v r.nodes ≠ [])) ∧
    (∃ s : State, ∃ p : Fin 16, (s.Inv) ∧ (Store.find? p.val s.ry.rekeys = none)) ∧
    (∃ s : State, ∃ p : Fin 16, ∃ u : Nat, ∃ r : Rekey, (s.Inv) ∧ (Store.find? p.val s.ry.rekeys = some r) ∧ (r.deadline ≤ max s.mtb u)) ∧
    (∃ s : State, ∃ p : Fin 16, ∃ u : Nat, (s.Inv) ∧ ((Store.find? p.val s.ry.rekeys).all (fun (r : Rekey) => decide (max s.mtb u < r.deadline)) = true)) :=
  ⟨⟨wS [], (5 : Nat), by decide⟩,
    ⟨{ wS [(R.GROUND_STATE_HASH_READY, 1), (R.GROUND_HASH_BASE_BASE, 0x84000000), (R.MAC_PAN_CHAN_HOP_LEN, 16)] with mem := [(0x8000050D, 1), (0x80000550, 0xFF), (0x80000551, 0xFF), (0x80000552, 3)], ry := { unacked := [5] } }, (5 : Nat), by decide⟩,
    ⟨{ wS [(R.GROUND_STATE_HASH_READY, 1), (R.GROUND_HASH_BASE_BASE, 0x84000000), (R.MAC_PAN_CHAN_HOP_LEN, 16)] with mem := [(0x8000050D, 1), (0x80000550, 0xFF), (0x80000551, 0xFF), (0x80000552, 3)], ry := {  } }, (5 : Nat), by decide⟩,
    ⟨{ wS [(R.GROUND_STATE_HASH_READY, 1), (R.GROUND_HASH_BASE_BASE, 0x84000000), (R.MAC_PAN_CHAN_HOP_LEN, 16)] with mem := [(0x8000050D, 1), (0x80000550, 0xFF), (0x80000551, 0xFF), (0x80000552, 3)], ry := {  } }, (5 : Nat), (nodeNone : Nat), by decide⟩,
    ⟨{ wS [(R.GROUND_STATE_HASH_READY, 1), (R.GROUND_HASH_BASE_BASE, 0x84000000), (R.MAC_PAN_CHAN_HOP_LEN, 16)] with mem := [(0x8000050D, 1), (0x80000550, 0xFF), (0x80000551, 0xFF), (0x80000552, 3)], ry := { unacked := [5, 6], waiting := [(5, 1)] } }, (5 : Nat), by decide⟩,
    ⟨wS [], (5 : Nat), by decide⟩,
    ⟨{ wS [(R.GROUND_STATE_HASH_READY, 1), (R.GROUND_HASH_BASE_BASE, 0x84000000), (R.MAC_PAN_CHAN_HOP_LEN, 16)] with mem := [(0x8000050D, 1), (0x80000550, 0xFF), (0x80000551, 0xFF), (0x80000552, 3)], ry := {  } }, (5 : Nat), (100 : Nat), (0 : Fin 256), by decide⟩,
    ⟨{ wS [(R.GROUND_STATE_HASH_READY, 1), (R.GROUND_HASH_BASE_BASE, 0x84000000), (R.MAC_PAN_CHAN_HOP_LEN, 16)] with mem := [(0x8000050D, 1), (0x80000550, 0xFF), (0x80000551, 0xFF), (0x80000552, 3)], ry := { cells := [⟨5, nodeNone, 0, 3, 1, 0⟩] } }, (5 : Nat), (100 : Nat), (0xF3 : Fin 256), by decide⟩,
    ⟨wS [], (5 : Nat), by decide⟩,
    ⟨wS [], (0 : Fin 16), by decide⟩,
    ⟨{ wS [(R.GROUND_STATE_HASH_READY, 1), (R.GROUND_HASH_BASE_BASE, 0x84000000), (R.MAC_PAN_CHAN_HOP_LEN, 16)] with mem := [], ry := { settings := [(settingNo svcPan 0 12 0, [0x20010DB800000000])], answers := [(0x1122334455667788, 3, 9999, .joinRefused 0 129 0)] } }, (0 : Fin 16), (0x1122334455667788 : BitVec 64), (3 : Fin 65536), (5 : Nat), ((0x1122334455667788, 3, 9999, .joinRefused 0 129 0) : Nat × Nat × Nat × Ctl), by decide⟩,
    ⟨{ wS [(R.GROUND_STATE_HASH_READY, 1), (R.GROUND_HASH_BASE_BASE, 0x84000000), (R.MAC_PAN_CHAN_HOP_LEN, 16)] with mem := [], ry := { settings := [(settingNo svcPan 0 12 0, [0x20010DB800000000])] } }, (0 : Fin 16), (0x1122334455667788 : BitVec 64), (77 : BitVec 64), (3 : Fin 65536), (true : Bool), (5 : Nat), (129 : Nat), by decide⟩,
    ⟨{ wS [(R.GROUND_STATE_HASH_READY, 1), (R.GROUND_HASH_BASE_BASE, 0x84000000), (R.MAC_PAN_CHAN_HOP_LEN, 16), (R.KEY_DRBG_HEALTH_OK, 0), (R.KEY_STATE_DRBG_OK, 0)] with mem := [], ry := { settings := [(settingNo svcPan 0 12 0, [0x20010DB800000000]), (2 ^ 31, [77, 123])] } }, (0 : Fin 16), (0x1122334455667788 : BitVec 64), (77 : BitVec 64), (3 : Fin 65536), (true : Bool), (2 * 1289062500 : Nat), by decide⟩,
    ⟨{ wS [(R.GROUND_STATE_HASH_READY, 1), (R.GROUND_HASH_BASE_BASE, 0x84000000), (R.MAC_PAN_CHAN_HOP_LEN, 16), (R.KEY_STATE_DRBG_OK, 1), (R.KEY_DRBG_HEALTH_OK, 1)] with mem := [], ry := { settings := [(settingNo svcPan 0 12 0, [0x20010DB800000000]), (2 ^ 31, [77, 123])] } }, (0 : Fin 16), (0x1122334455667788 : BitVec 64), (77 : BitVec 64), (3 : Fin 65536), (true : Bool), (2 * 1289062500 : Nat), (0 : Nat), (0 : Nat), by decide⟩,
    ⟨{ wS [(R.GROUND_STATE_HASH_READY, 1), (R.GROUND_HASH_BASE_BASE, 0x84000000), (R.MAC_PAN_CHAN_HOP_LEN, 16), (R.KEY_STATE_DRBG_OK, 1), (R.KEY_DRBG_HEALTH_OK, 1)] with mem := [(0x8000050D, 1), (0x84010DC0, 17), (0x84010DC1, 34), (0x84010DC2, 51), (0x84010DC3, 68), (0x84010DC4, 85), (0x84010DC5, 102), (0x84010DC6, 119), (0x84010DC7, 136), (0x84010DC8, 5), (0x84010DCB, 128)], ry := { settings := [(settingNo svcPan 0 12 0, [0x20010DB800000000]), (2 ^ 31, [77, 123])] } }, (0 : Fin 16), (0x1122334455667788 : BitVec 64), (77 : BitVec 64), (3 : Fin 65536), (true : Bool), (2 * 1289062500 : Nat), (5 : Nat), by decide⟩,
    ⟨{ wS [(R.GROUND_STATE_HASH_READY, 1), (R.GROUND_HASH_BASE_BASE, 0x84000000), (R.MAC_PAN_CHAN_HOP_LEN, 16), (R.KEY_STATE_DRBG_OK, 1), (R.KEY_DRBG_HEALTH_OK, 1)] with mem := [(0x80006400, 17), (0x80006401, 34), (0x80006402, 51), (0x80006403, 68), (0x80006404, 85), (0x80006405, 102), (0x80006406, 119), (0x80006407, 136), (0x8000640D, 1), (0x84010DC0, 17), (0x84010DC1, 34), (0x84010DC2, 51), (0x84010DC3, 68), (0x84010DC4, 85), (0x84010DC5, 102), (0x84010DC6, 119), (0x84010DC7, 136), (0x84010DC8, 100), (0x84010DCB, 128)], ry := { settings := [(settingNo svcPan 0 12 0, [0x20010DB800000000]), (2 ^ 31, [77, 123])] } }, (0 : Fin 16), (0x1122334455667788 : BitVec 64), (77 : BitVec 64), (3 : Fin 65536), (true : Bool), (2 * 1289062500 : Nat), (0 : Nat), (0 : Nat), (((({ wS [(R.GROUND_STATE_HASH_READY, 1), (R.GROUND_HASH_BASE_BASE, 0x84000000), (R.MAC_PAN_CHAN_HOP_LEN, 16), (R.KEY_STATE_DRBG_OK, 1), (R.KEY_DRBG_HEALTH_OK, 1)] with mem := [(0x80006400, 17), (0x80006401, 34), (0x80006402, 51), (0x80006403, 68), (0x80006404, 85), (0x80006405, 102), (0x80006406, 119), (0x80006407, 136), (0x8000640D, 1), (0x84010DC0, 17), (0x84010DC1, 34), (0x84010DC2, 51), (0x84010DC3, 68), (0x84010DC4, 85), (0x84010DC5, 102), (0x84010DC6, 119), (0x84010DC7, 136), (0x84010DC8, 100), (0x84010DCB, 128)], ry := { settings := [(settingNo svcPan 0 12 0, [0x20010DB800000000]), (2 ^ 31, [77, 123])] } } : State).advance (2 * 1289062500)).setRoot 0 { joinSec := 2, joinNow := 1 }).removeNode 100 : State), by decide⟩,
    ⟨{ wS [(R.GROUND_STATE_HASH_READY, 1), (R.GROUND_HASH_BASE_BASE, 0x84000000), (R.MAC_PAN_CHAN_HOP_LEN, 16), (R.KEY_STATE_DRBG_OK, 1), (R.KEY_DRBG_HEALTH_OK, 1)] with mem := [], ry := { settings := [(settingNo svcPan 0 12 0, [0x20010DB800000000]), (2 ^ 31, [77, 123])] }, pr := { wPr with pans := [⟨0x1234, 1, 1, 5, 5, 10, 0, 2, 0⟩, ⟨0x2345, 0, 4, 5, 5, 0, 0, 0, 100⟩] } }, (0 : Fin 16), (0x1122334455667788 : BitVec 64), (77 : BitVec 64), (3 : Fin 65536), (true : Bool), (2 * 1289062500 : Nat), by decide⟩,
    ⟨{ wS [(R.GROUND_STATE_HASH_READY, 1), (R.GROUND_HASH_BASE_BASE, 0x84000000), (R.MAC_PAN_CHAN_HOP_LEN, 16), (R.KEY_STATE_DRBG_OK, 1), (R.KEY_DRBG_HEALTH_OK, 1)] with mem := [(0x84010D85, 2), (0x84010D86, 45), (0x84010D87, 78), (0x84010D88, 9), (0x84010D8B, 128), (0x84010D95, 2), (0x84010D96, 45), (0x84010D97, 78), (0x84010D98, 9), (0x84010D9B, 128), (0x84010DA5, 2), (0x84010DA6, 45), (0x84010DA7, 78), (0x84010DA8, 9), (0x84010DAB, 128), (0x84010DB5, 2), (0x84010DB6, 45), (0x84010DB7, 78), (0x84010DB8, 9), (0x84010DBB, 128), (0x84010DC5, 2), (0x84010DC6, 45), (0x84010DC7, 78), (0x84010DC8, 9), (0x84010DCB, 128), (0x84010DD5, 2), (0x84010DD6, 45), (0x84010DD7, 78), (0x84010DD8, 9), (0x84010DDB, 128), (0x84010DE5, 2), (0x84010DE6, 45), (0x84010DE7, 78), (0x84010DE8, 9), (0x84010DEB, 128), (0x84010DF5, 2), (0x84010DF6, 45), (0x84010DF7, 78), (0x84010DF8, 9), (0x84010DFB, 128)], ry := { settings := [(settingNo svcPan 0 12 0, [0x20010DB800000000]), (2 ^ 31, [77, 123])] }, gd := { stash := List.replicate 64 ⟨1, 0, 9⟩ } }, (0 : Fin 16), (0x1122334455667788 : BitVec 64), (77 : BitVec 64), (3 : Fin 65536), (true : Bool), (2 * 1289062500 : Nat), (0 : Nat), by decide +kernel⟩,
    ⟨{ wS [(R.GROUND_STATE_HASH_READY, 1), (R.GROUND_HASH_BASE_BASE, 0x84000000), (R.MAC_PAN_CHAN_HOP_LEN, 16)] with mem := [], ry := { rekeys := [(0, ⟨7, 900, 3, [5]⟩)] }, cmp := { tickets := [(3, { role := 1, svc := 7, op := 5 })] } }, (0 : Fin 16), (5 : Nat), (⟨7, 900, 3, [5]⟩ : Rekey), by decide⟩,
    ⟨{ wS [(R.GROUND_STATE_HASH_READY, 1), (R.GROUND_HASH_BASE_BASE, 0x84000000), (R.MAC_PAN_CHAN_HOP_LEN, 16)] with mem := [], ry := { rekeys := [(0, ⟨7, 900, 3, [5, 6]⟩)] } }, (0 : Fin 16), (5 : Nat), (⟨7, 900, 3, [5, 6]⟩ : Rekey), by decide⟩,
    ⟨wS [], (0 : Fin 16), by decide⟩,
    ⟨{ wS [(R.GROUND_STATE_HASH_READY, 1), (R.GROUND_HASH_BASE_BASE, 0x84000000), (R.MAC_PAN_CHAN_HOP_LEN, 16)] with mem := [], ry := { rekeys := [(0, ⟨7, 900, 3, [5]⟩)] }, cmp := { tickets := [(3, { role := 1, svc := 7, op := 5 })] } }, (0 : Fin 16), (1000 : Nat), (⟨7, 900, 3, [5]⟩ : Rekey), by decide⟩,
    ⟨wS [], (0 : Fin 16), (100 : Nat), by decide⟩⟩

/-- States and operands that meet the hypotheses of each clause of FirmwareCampaigns. -/
theorem test_FirmwareCampaigns_witness :
    (∃ s : State, ∃ c : Fin 4, ∃ held : Bool, ∃ u : Nat, ∃ v : Campaign, ∃ m : Option Nat, ∃ l : List (Option Nat), (s.Inv) ∧ (s.campaign c = some v) ∧ (v.queue = m :: l) ∧ (v.phase = 0 ∧ held = false ∧ v.last ≤ max s.mtb u ∧ s.rySends = true)) ∧
    (∃ s : State, ∃ c : Fin 4, ∃ held : Bool, ∃ u : Nat, (s.Inv) ∧ ((s.campaign c).all (fun (v : Campaign) => v.queue.isEmpty || !decide (v.phase = 0 ∧ held = false ∧ v.last ≤ max s.mtb u ∧ s.rySends = true)) = true)) ∧
    (∃ s : State, ∃ c : Fin 4, ∃ held : Bool, ∃ u : Nat, ∃ v : Campaign, (s.Inv) ∧ (s.campaign c = some v) ∧ (v.phase = 1 ∧ v.windowEnd ≤ max s.mtb u ∧ s.rySends = true) ∧ (v.reported = false ∨ v.rounds ≤ v.round) ∧ (held = false)) ∧
    (∃ s : State, ∃ c : Fin 4, ∃ u : Nat, ∃ v : Campaign, (s.Inv) ∧ (s.campaign c = some v) ∧ (v.phase = 1 ∧ v.windowEnd ≤ max s.mtb u ∧ s.rySends = true) ∧ (¬ (v.reported = false ∨ v.rounds ≤ v.round))) ∧
    (∃ s : State, ∃ c : Fin 4, ∃ held : Bool, ∃ u : Nat, (s.Inv) ∧ ((s.campaign c).all (fun (v : Campaign) => !decide (v.phase = 1 ∧ v.windowEnd ≤ max s.mtb u ∧ s.rySends = true) || decide (v.reported = false ∨ v.rounds ≤ v.round) && held) = true)) ∧
    (∃ s : State, ∃ n : Nat, (s.Inv) ∧ (¬ (s.rySends = true ∧ s.known n = true))) ∧
    (∃ s : State, ∃ c : Fin 4, ∃ n : Nat, (s.Inv) ∧ (s.rySends = true ∧ s.known n = true) ∧ (s.campaign c = none)) ∧
    (∃ s : State, ∃ c : Fin 4, ∃ n : Nat, ∃ v : Campaign, (s.Inv) ∧ (s.rySends = true ∧ s.known n = true) ∧ (s.campaign c = some v)) ∧
    (∃ s : State, ∃ c : Fin 4, ∃ n : Nat, ∃ v : Campaign, ∃ i : Image, (s.Inv) ∧ (s.rySends = true ∧ s.known n = true) ∧ (s.campaign c = some v) ∧ (s.image v.image = some i)) ∧
    (∃ s : State, ∃ c : Fin 4, ∃ n : Nat, ∃ v : Campaign, (s.Inv) ∧ (s.rySends = true ∧ s.known n = true) ∧ (s.campaign c = some v ∧ v.phase = 2)) ∧
    (∃ s : State, ∃ c : Fin 4, ∃ n : Nat, ∃ v : Campaign, (s.Inv) ∧ (s.rySends = true ∧ s.known n = true) ∧ (s.campaign c = some v ∧ v.phase ≠ 2)) ∧
    (∃ s : State, ∃ c : Fin 4, ∃ u : Nat, ∃ e : Nat, ∃ v : Campaign, (s.Inv) ∧ (s.campaign c = some v) ∧ (v.endAt = some e ∧ e ≤ max s.mtb u)) ∧
    (∃ s : State, ∃ c : Fin 4, ∃ u : Nat, (s.Inv) ∧ ((s.campaign c).all (fun (v : Campaign) => v.endAt.all (fun (e : Nat) => decide (max s.mtb u < e))) = true)) :=
  ⟨⟨{ wS [(R.GROUND_STATE_HASH_READY, 1), (R.GROUND_HASH_BASE_BASE, 0x84000000), (R.MAC_PAN_CHAN_HOP_LEN, 16)] with mem := [], ry := { campaigns := [(1, { pan := 0, image := 0, mask := 1, bound := 5, szx := 4, blockMs := 1000, rounds := 2, reportS := 60, delayS := 60, queue := [some 3] })] } }, (1 : Fin 4), (false : Bool), (100 : Nat), ({ pan := 0, image := 0, mask := 1, bound := 5, szx := 4, blockMs := 1000, rounds := 2, reportS := 60, delayS := 60, queue := [some 3] } : Campaign), (some 3 : Option Nat), ([] : List (Option Nat)), by decide⟩,
    ⟨wS [], (1 : Fin 4), (false : Bool), (100 : Nat), by decide⟩,
    ⟨{ wS [(R.GROUND_STATE_HASH_READY, 1), (R.GROUND_HASH_BASE_BASE, 0x84000000), (R.MAC_PAN_CHAN_HOP_LEN, 16)] with mem := [], ry := { campaigns := [(1, { pan := 0, image := 0, mask := 1, bound := 5, szx := 4, blockMs := 1000, rounds := 2, reportS := 60, delayS := 60, phase := 1, windowEnd := 50 })] } }, (1 : Fin 4), (false : Bool), (100 : Nat), ({ pan := 0, image := 0, mask := 1, bound := 5, szx := 4, blockMs := 1000, rounds := 2, reportS := 60, delayS := 60, phase := 1, windowEnd := 50 } : Campaign), by decide⟩,
    ⟨{ wS [(R.GROUND_STATE_HASH_READY, 1), (R.GROUND_HASH_BASE_BASE, 0x84000000), (R.MAC_PAN_CHAN_HOP_LEN, 16)] with mem := [], ry := { images := [(0, ⟨9, 5, 1, 7, [0], true⟩)], campaigns := [(1, { pan := 0, image := 0, mask := 1, bound := 5, szx := 4, blockMs := 1000, rounds := 2, reportS := 60, delayS := 60, phase := 1, windowEnd := 50, reported := true, missing := [0] })] } }, (1 : Fin 4), (100 : Nat), ({ pan := 0, image := 0, mask := 1, bound := 5, szx := 4, blockMs := 1000, rounds := 2, reportS := 60, delayS := 60, phase := 1, windowEnd := 50, reported := true, missing := [0] } : Campaign), by decide⟩,
    ⟨wS [], (1 : Fin 4), (false : Bool), (100 : Nat), by decide⟩,
    ⟨wS [], (5 : Nat), by decide⟩,
    ⟨{ wS [(R.GROUND_STATE_HASH_READY, 1), (R.GROUND_HASH_BASE_BASE, 0x84000000), (R.MAC_PAN_CHAN_HOP_LEN, 16)] with mem := [(0x8000050D, 1), (0x80000550, 0xFF), (0x80000551, 0xFF), (0x80000552, 3)], ry := {  } }, (1 : Fin 4), (5 : Nat), by decide⟩,
    ⟨{ wS [(R.GROUND_STATE_HASH_READY, 1), (R.GROUND_HASH_BASE_BASE, 0x84000000), (R.MAC_PAN_CHAN_HOP_LEN, 16)] with mem := [(0x8000050D, 1), (0x80000550, 0xFF), (0x80000551, 0xFF), (0x80000552, 3)], ry := { campaigns := [(1, { pan := 0, image := 0, mask := 1, bound := 5, szx := 4, blockMs := 1000, rounds := 2, reportS := 60, delayS := 60, phase := 1 })] } }, (1 : Fin 4), (5 : Nat), ({ pan := 0, image := 0, mask := 1, bound := 5, szx := 4, blockMs := 1000, rounds := 2, reportS := 60, delayS := 60, phase := 1 } : Campaign), by decide⟩,
    ⟨{ wS [(R.GROUND_STATE_HASH_READY, 1), (R.GROUND_HASH_BASE_BASE, 0x84000000), (R.MAC_PAN_CHAN_HOP_LEN, 16)] with mem := [(0x8000050D, 1), (0x80000550, 0xFF), (0x80000551, 0xFF), (0x80000552, 3)], ry := { images := [(0, ⟨9, 5, 1, 7, [0], true⟩)], campaigns := [(1, { pan := 0, image := 0, mask := 1, bound := 5, szx := 4, blockMs := 1000, rounds := 2, reportS := 60, delayS := 60 })] } }, (1 : Fin 4), (5 : Nat), ({ pan := 0, image := 0, mask := 1, bound := 5, szx := 4, blockMs := 1000, rounds := 2, reportS := 60, delayS := 60 } : Campaign), (⟨9, 5, 1, 7, [0], true⟩ : Image), by decide⟩,
    ⟨{ wS [(R.GROUND_STATE_HASH_READY, 1), (R.GROUND_HASH_BASE_BASE, 0x84000000), (R.MAC_PAN_CHAN_HOP_LEN, 16)] with mem := [(0x8000050D, 1), (0x80000550, 0xFF), (0x80000551, 0xFF), (0x80000552, 3)], ry := { campaigns := [(1, { pan := 0, image := 0, mask := 1, bound := 5, szx := 4, blockMs := 1000, rounds := 2, reportS := 60, delayS := 60, phase := 2 })] } }, (1 : Fin 4), (5 : Nat), ({ pan := 0, image := 0, mask := 1, bound := 5, szx := 4, blockMs := 1000, rounds := 2, reportS := 60, delayS := 60, phase := 2 } : Campaign), by decide⟩,
    ⟨{ wS [(R.GROUND_STATE_HASH_READY, 1), (R.GROUND_HASH_BASE_BASE, 0x84000000), (R.MAC_PAN_CHAN_HOP_LEN, 16)] with mem := [(0x8000050D, 1), (0x80000550, 0xFF), (0x80000551, 0xFF), (0x80000552, 3)], ry := { campaigns := [(1, { pan := 0, image := 0, mask := 1, bound := 5, szx := 4, blockMs := 1000, rounds := 2, reportS := 60, delayS := 60 })] } }, (1 : Fin 4), (5 : Nat), ({ pan := 0, image := 0, mask := 1, bound := 5, szx := 4, blockMs := 1000, rounds := 2, reportS := 60, delayS := 60 } : Campaign), by decide⟩,
    ⟨{ wS [(R.GROUND_STATE_HASH_READY, 1), (R.GROUND_HASH_BASE_BASE, 0x84000000), (R.MAC_PAN_CHAN_HOP_LEN, 16)] with mem := [], ry := { campaigns := [(1, { pan := 0, image := 0, mask := 1, bound := 5, szx := 4, blockMs := 1000, rounds := 2, reportS := 60, delayS := 60, phase := 2, endAt := some 50 })] } }, (1 : Fin 4), (100 : Nat), (50 : Nat), ({ pan := 0, image := 0, mask := 1, bound := 5, szx := 4, blockMs := 1000, rounds := 2, reportS := 60, delayS := 60, phase := 2, endAt := some 50 } : Campaign), by decide⟩,
    ⟨wS [], (1 : Fin 4), (100 : Nat), by decide⟩⟩

/-- States and operands that meet the hypotheses of each clause of ServiceReads. -/
theorem test_ServiceReads_witness :
    (∃ s : State, ∃ k : Nat, (s.Inv) ∧ ((s.openCall k svcNet 1).isSome = true)) ∧
    (∃ s : State, ∃ k : Nat, (s.Inv) ∧ ((s.openCall k svcNet 1).isNone = true)) ∧
    (∃ s : State, ∃ k : Nat, (s.Inv) ∧ ((s.openCall k svcPan 1).isSome = true)) ∧
    (∃ s : State, ∃ k : Nat, (s.Inv) ∧ ((s.openCall k svcPan 1).isNone = true)) ∧
    (∃ s : State, ∃ k : Nat, ∃ i : Option Nat, ∃ e : Option Nat, ∃ n : Nat, (s.Inv) ∧ ((s.openCall k svcNode 1).isSome = true) ∧ ((i = some n) ∨ (i = none ∧ e.map (fun x => s.hashLookup x 0) = some n))) ∧
    (∃ s : State, ∃ k : Nat, (s.Inv) ∧ ((s.openCall k svcNode 1).isSome = true)) ∧
    (∃ s : State, ∃ k : Nat, (s.Inv) ∧ ((s.openCall k svcNode 1).isNone = true)) ∧
    (∃ s : State, ∃ k : Nat, (s.Inv) ∧ ((s.openCall k svcNode 3).isSome = true)) ∧
    (∃ s : State, ∃ k : Nat, (s.Inv) ∧ ((s.openCall k svcNode 3).isNone = true)) ∧
    (∃ s : State, ∃ k : Nat, (s.Inv) ∧ ((s.openCall k svcNode 4).isSome = true)) ∧
    (∃ s : State, ∃ k : Nat, (s.Inv) ∧ ((s.openCall k svcNode 4).isNone = true)) ∧
    (∃ s : State, ∃ k : Nat, (s.Inv) ∧ ((s.openCall k svcSched 1).isSome = true)) ∧
    (∃ s : State, ∃ k : Nat, (s.Inv) ∧ ((s.openCall k svcSched 1).isNone = true)) ∧
    (∃ s : State, ∃ k : Nat, (s.Inv) ∧ ((s.openCall k svcSched 3).isSome = true)) ∧
    (∃ s : State, ∃ k : Nat, (s.Inv) ∧ ((s.openCall k svcSched 3).isNone = true)) ∧
    (∃ s : State, ∃ k : Nat, (s.Inv) ∧ ((s.openCall k svcJoin 4).isSome = true)) ∧
    (∃ s : State, ∃ k : Nat, (s.Inv) ∧ ((s.openCall k svcJoin 4).isNone = true)) ∧
    (∃ s : State, ∃ k : Nat, (s.Inv) ∧ ((s.openCall k svcImage 5).isSome = true)) ∧
    (∃ s : State, ∃ k : Nat, (s.Inv) ∧ ((s.openCall k svcImage 5).isNone = true)) ∧
    (∃ s : State, ∃ k : Nat, (s.Inv) ∧ ((s.openCall k svcImage 7).isSome = true)) ∧
    (∃ s : State, ∃ k : Nat, (s.Inv) ∧ ((s.openCall k svcImage 7).isNone = true)) ∧
    (∃ s : State, ∃ k : Nat, (s.Inv) ∧ ((s.openCall k svcZone 1).isSome = true)) ∧
    (∃ s : State, ∃ k : Nat, (s.Inv) ∧ ((s.openCall k svcZone 1).isNone = true)) ∧
    (∃ s : State, ∃ k : Nat, (s.Inv) ∧ ((s.openCall k svcZone 7).isSome = true)) ∧
    (∃ s : State, ∃ k : Nat, (s.Inv) ∧ ((s.openCall k svcZone 7).isNone = true)) :=
  ⟨⟨{ wS [(R.GROUND_STATE_HASH_READY, 1), (R.GROUND_HASH_BASE_BASE, 0x84000000), (R.MAC_PAN_CHAN_HOP_LEN, 16)] with cmp := { tickets := [(9, { role := 1, svc := svcNet, op := 1 })] }, mem := [], ry := { inUse := 1, deleg := some (77, 56, 9), port0 := { prefixes := [(5, 6)], routers := [(7, 8), (9, 0)] } } }, (9 : Nat), by decide⟩,
    ⟨wS [], (9 : Nat), by decide⟩,
    ⟨{ wS [(R.GROUND_STATE_HASH_READY, 1), (R.GROUND_HASH_BASE_BASE, 0x84000000), (R.MAC_PAN_CHAN_HOP_LEN, 16)] with cmp := { tickets := [(9, { role := 1, svc := svcPan, op := 1 })] }, mem := [(0x8000050D, 1), (0x80000550, 0xFF), (0x80000551, 0xFF), (0x80000552, 3)], ry := { settings := [(settingNo svcPan 0 12 0, [5])] } }, (9 : Nat), by decide⟩,
    ⟨wS [], (9 : Nat), by decide⟩,
    ⟨{ wS [(R.GROUND_STATE_HASH_READY, 1), (R.GROUND_HASH_BASE_BASE, 0x84000000), (R.MAC_PAN_CHAN_HOP_LEN, 16)] with cmp := { tickets := [(9, { role := 1, svc := svcNode, op := 1 })] }, mem := [(0x8000050D, 1), (0x80000550, 0xFF), (0x80000551, 0xFF), (0x80000552, 3)], ry := {  } }, (9 : Nat), (some 5 : Option Nat), (none : Option Nat), (5 : Nat), by decide⟩,
    ⟨{ wS [(R.GROUND_STATE_HASH_READY, 1), (R.GROUND_HASH_BASE_BASE, 0x84000000), (R.MAC_PAN_CHAN_HOP_LEN, 16)] with cmp := { tickets := [(9, { role := 1, svc := svcNode, op := 1 })] }, mem := [], ry := {  } }, (9 : Nat), by decide⟩,
    ⟨wS [], (9 : Nat), by decide⟩,
    ⟨{ wS [(R.GROUND_STATE_HASH_READY, 1), (R.GROUND_HASH_BASE_BASE, 0x84000000), (R.MAC_PAN_CHAN_HOP_LEN, 16)] with cmp := { tickets := [(9, { role := 1, svc := svcNode, op := 3 })] }, mem := [(0x8000050D, 1), (0x80000550, 0xFF), (0x80000551, 0xFF), (0x80000552, 3)], ry := {  } }, (9 : Nat), by decide⟩,
    ⟨wS [], (9 : Nat), by decide⟩,
    ⟨{ wS [(R.GROUND_STATE_HASH_READY, 1), (R.GROUND_HASH_BASE_BASE, 0x84000000), (R.MAC_PAN_CHAN_HOP_LEN, 16)] with cmp := { tickets := [(9, { role := 1, svc := svcNode, op := 4 })] }, mem := [(0x8000050D, 1), (0x80000550, 0xFF), (0x80000551, 0xFF), (0x80000552, 3)], ry := {  } }, (9 : Nat), by decide⟩,
    ⟨wS [], (9 : Nat), by decide⟩,
    ⟨{ wS [(R.GROUND_STATE_HASH_READY, 1), (R.GROUND_HASH_BASE_BASE, 0x84000000), (R.MAC_PAN_CHAN_HOP_LEN, 16)] with cmp := { tickets := [(9, { role := 1, svc := svcSched, op := 1 })] }, mem := [(0x8000050D, 1), (0x80000550, 0xFF), (0x80000551, 0xFF), (0x80000552, 3)], ry := { cells := [⟨5, nodeNone, 0, 3, 1, 0⟩] } }, (9 : Nat), by decide⟩,
    ⟨wS [], (9 : Nat), by decide⟩,
    ⟨{ wS [(R.GROUND_STATE_HASH_READY, 1), (R.GROUND_HASH_BASE_BASE, 0x84000000), (R.MAC_PAN_CHAN_HOP_LEN, 16)] with cmp := { tickets := [(9, { role := 1, svc := svcSched, op := 3 })] }, mem := [], ry := { cells := [⟨5, nodeNone, 0, 3, 1, 0⟩], short := 4 } }, (9 : Nat), by decide⟩,
    ⟨wS [], (9 : Nat), by decide⟩,
    ⟨{ wS [(R.GROUND_STATE_HASH_READY, 1), (R.GROUND_HASH_BASE_BASE, 0x84000000), (R.MAC_PAN_CHAN_HOP_LEN, 16)] with cmp := { tickets := [(9, { role := 1, svc := svcJoin, op := 4 })] }, mem := [], ry := { joins := 3, refused := [(129, 2)], settings := [(2 ^ 31, [77, 123])] } }, (9 : Nat), by decide⟩,
    ⟨wS [], (9 : Nat), by decide⟩,
    ⟨{ wS [(R.GROUND_STATE_HASH_READY, 1), (R.GROUND_HASH_BASE_BASE, 0x84000000), (R.MAC_PAN_CHAN_HOP_LEN, 16)] with cmp := { tickets := [(9, { role := 1, svc := svcImage, op := 5 })] }, mem := [], ry := { images := [(0, ⟨9, 5, 1, 7, [0], true⟩)] } }, (9 : Nat), by decide⟩,
    ⟨wS [], (9 : Nat), by decide⟩,
    ⟨{ wS [(R.GROUND_STATE_HASH_READY, 1), (R.GROUND_HASH_BASE_BASE, 0x84000000), (R.MAC_PAN_CHAN_HOP_LEN, 16)] with cmp := { tickets := [(9, { role := 1, svc := svcImage, op := 7 })] }, mem := [], ry := { campaigns := [(1, { pan := 0, image := 0, mask := 1, bound := 5, szx := 4, blockMs := 1000, rounds := 2, reportS := 60, delayS := 60, phase := 2 })] } }, (9 : Nat), by decide⟩,
    ⟨wS [], (9 : Nat), by decide⟩,
    ⟨{ wS [(R.GROUND_STATE_HASH_READY, 1), (R.GROUND_HASH_BASE_BASE, 0x84000000), (R.MAC_PAN_CHAN_HOP_LEN, 16)] with cmp := { tickets := [(9, { role := 1, svc := svcZone, op := 1 })] }, mem := [(0x87400200, 0x1), (0x87400203, 0x2), (0x87400204, 0xE8), (0x87400205, 0x3), (0x87400206, 0xC8), (0x8740020C, 0x78), (0x8740020E, 0x58), (0x8740020F, 0x2), (0x87400210, 0x10), (0x87400211, 0xE), (0x87400212, 0xF4), (0x87400213, 0x1), (0x87400214, 0xA0), (0x87400215, 0xF), (0x87400216, 0x10), (0x87400217, 0x27)], ry := {  } }, (9 : Nat), by decide⟩,
    ⟨wS [], (9 : Nat), by decide⟩,
    ⟨{ wS [(R.GROUND_STATE_HASH_READY, 1), (R.GROUND_HASH_BASE_BASE, 0x84000000), (R.MAC_PAN_CHAN_HOP_LEN, 16)] with cmp := { tickets := [(9, { role := 1, svc := svcZone, op := 7 })] }, mem := [], ry := { zoneStats := [(0, ⟨1, 2, 3, 4, 5⟩)] } }, (9 : Nat), by decide⟩,
    ⟨wS [], (9 : Nat), by decide⟩⟩

/-- States and operands that meet the hypotheses of each clause of ServiceChanges. -/
theorem test_ServiceChanges_witness :
    (∃ s : State, ∃ k : Nat, ∃ p : Option Nat, ∃ q : Option Nat, ∃ d : Option Nat, ∃ r : Nat, (s.Inv) ∧ (s.callable k svcNet 2 = true) ∧ ((p.any (fun x => decide (2 ≤ x)) || q.any (fun x => decide (x < 1024 ∨ 65536 ≤ x)) || d.any (fun x => decide (2 ≤ x))) = false) ∧ (r < s.pr.pans.length)) ∧
    (∃ s : State, ∃ k : Nat, ∃ p : Option Nat, ∃ q : Option Nat, ∃ d : Option Nat, (s.Inv) ∧ (s.callable k svcNet 2 = true) ∧ ((p.any (fun x => decide (2 ≤ x)) || q.any (fun x => decide (x < 1024 ∨ 65536 ≤ x)) || d.any (fun x => decide (2 ≤ x))) = true)) ∧
    (∃ s : State, ∃ k : Nat, (s.Inv) ∧ (s.callable k svcNet 2 = false)) ∧
    (∃ s : State, ∃ k : Nat, ∃ p : Nat, ∃ v : PanKeys, (s.Inv) ∧ (s.callable k svcPan 2 = true) ∧ (((s.panRec p).isNone || v.inst.any (fun x => decide (256 ≤ x)) || v.minHop.any (fun x => decide (65536 ≤ x)) || v.trickle.any (fun x => decide (256 ≤ x.1 ∨ 256 ≤ x.2.1 ∨ 256 ≤ x.2.2)) || v.ocp.any (fun x => decide (65536 ≤ x)) || v.contexts.any (fun (c : Nat × Option Nat) => decide (c.1 = 0 ∨ 16 ≤ c.1))) = false)) ∧
    (∃ s : State, ∃ k : Nat, ∃ p : Nat, ∃ v : PanKeys, (s.Inv) ∧ (s.callable k svcPan 2 = true) ∧ (((s.panRec p).isNone || v.inst.any (fun x => decide (256 ≤ x)) || v.minHop.any (fun x => decide (65536 ≤ x)) || v.trickle.any (fun x => decide (256 ≤ x.1 ∨ 256 ≤ x.2.1 ∨ 256 ≤ x.2.2)) || v.ocp.any (fun x => decide (65536 ≤ x)) || v.contexts.any (fun (c : Nat × Option Nat) => decide (c.1 = 0 ∨ 16 ≤ c.1))) = true)) ∧
    (∃ s : State, ∃ k : Nat, (s.Inv) ∧ (s.callable k svcPan 2 = false)) ∧
    (∃ s : State, ∃ k : Nat, (s.Inv) ∧ (s.callable k svcPan 3 = true)) ∧
    (∃ s : State, ∃ k : Nat, (s.Inv) ∧ (s.callable k svcPan 3 = false)) ∧
    (∃ s : State, ∃ k : Nat, ∃ n : Nat, (s.Inv) ∧ (s.callable k svcNode 2 = true) ∧ (s.known n = true)) ∧
    (∃ s : State, ∃ k : Nat, ∃ n : Nat, (s.Inv) ∧ (s.callable k svcNode 2 = true) ∧ (s.known n = false)) ∧
    (∃ s : State, ∃ k : Nat, (s.Inv) ∧ (s.callable k svcNode 2 = false)) ∧
    (∃ s : State, ∃ k : Nat, (s.Inv) ∧ (s.callable k svcNode 5 = true)) ∧
    (∃ s : State, ∃ k : Nat, (s.Inv) ∧ (s.callable k svcNode 5 = false)) ∧
    (∃ s : State, ∃ k : Nat, ∃ p : Fin 16, ∃ a : Option Nat, ∃ b : Option Nat, ∃ r : PanRec, (s.Inv) ∧ (s.callable k svcSched 2 = true) ∧ ((!s.tsch p || a.any (fun x => decide (x < 7 ∨ 1021 < x)) || b.any (fun x => decide (x < 11 ∨ 65535 < x))) = false) ∧ (s.panRec p = some r)) ∧
    (∃ s : State, ∃ k : Nat, ∃ p : Nat, ∃ a : Option Nat, ∃ b : Option Nat, (s.Inv) ∧ (s.callable k svcSched 2 = true) ∧ ((!s.tsch p || a.any (fun x => decide (x < 7 ∨ 1021 < x)) || b.any (fun x => decide (x < 11 ∨ 65535 < x))) = true)) ∧
    (∃ s : State, ∃ k : Nat, (s.Inv) ∧ (s.callable k svcSched 2 = false)) ∧
    (∃ s : State, ∃ k : Nat, ∃ l : Option Nat, ∃ r : Option Nat, ∃ v : Option (Option Nat), (s.Inv) ∧ (s.callable k svcJoin 1 = true) ∧ ((l.any (fun x => decide (1 < x)) || (v.getD none).any (fun x => decide (511 < x)) || r.any (fun x => decide (x < 1 ∨ 1000 < x))) = false)) ∧
    (∃ s : State, ∃ k : Nat, ∃ l : Option Nat, ∃ r : Option Nat, ∃ v : Option (Option Nat), (s.Inv) ∧ (s.callable k svcJoin 1 = true) ∧ ((l.any (fun x => decide (1 < x)) || (v.getD none).any (fun x => decide (511 < x)) || r.any (fun x => decide (x < 1 ∨ 1000 < x))) = true)) ∧
    (∃ s : State, ∃ k : Nat, (s.Inv) ∧ (s.callable k svcJoin 1 = false)) ∧
    (∃ s : State, ∃ k : Nat, ∃ l : List (BitVec 64 × BitVec 192), ∃ v : Fin 512, (s.Inv) ∧ (s.callable k svcJoin 2 = true) ∧ (l.isEmpty = true ∨ 256 < l.length ∨ s.keySlot v = none)) ∧
    (∃ s : State, ∃ k : Nat, ∃ l : List (BitVec 64 × BitVec 192), ∃ v : Fin 512, (s.Inv) ∧ (s.callable k svcJoin 2 = true) ∧ (l.isEmpty = false ∧ l.length ≤ 256) ∧ ((s.keySlot v).isSome = true)) ∧
    (∃ s : State, ∃ k : Nat, (s.Inv) ∧ (s.callable k svcJoin 2 = false)) ∧
    (∃ s : State, ∃ k : Nat, (s.Inv) ∧ (s.callable k svcJoin 3 = true) ∧ (s.pledges.all (fun (x : Nat × List Nat) => decide (x.2 ≠ [])) = true)) ∧
    (∃ s : State, ∃ k : Nat, (s.Inv) ∧ (s.callable k svcJoin 3 = false)) ∧
    (∃ s : State, ∃ k : Nat, ∃ p : Nat, ∃ v : Nat, (s.Inv) ∧ (s.callable k svcJoin 5 = true) ∧ ((s.panRec p).isSome = true ∧ v < 512 ∧ (s.keySlot v).isSome = true ∧ Store.find? p s.ry.rekeys = none) ∧ (s.members p ≠ [])) ∧
    (∃ s : State, ∃ k : Nat, ∃ p : Fin 16, ∃ v : Nat, (s.Inv) ∧ (s.callable k svcJoin 5 = true) ∧ ((s.panRec p).isSome = true ∧ v < 512 ∧ (s.keySlot v).isSome = true ∧ Store.find? p s.ry.rekeys = none) ∧ (s.members p = [])) ∧
    (∃ s : State, ∃ k : Nat, ∃ p : Nat, ∃ v : Nat, (s.Inv) ∧ (s.callable k svcJoin 5 = true) ∧ ((s.panRec p).isNone = true ∨ 512 ≤ v ∨ (s.keySlot v).isNone = true ∨ (Store.find? p s.ry.rekeys).isSome = true)) ∧
    (∃ s : State, ∃ k : Nat, (s.Inv) ∧ (s.callable k svcJoin 5 = false)) :=
  ⟨⟨{ wS [(R.GROUND_STATE_HASH_READY, 1), (R.GROUND_HASH_BASE_BASE, 0x84000000), (R.MAC_PAN_CHAN_HOP_LEN, 16), (R.UPL_STAT_LINK_UP 1, 1)] with cmp := { tickets := [(9, { role := 1, svc := svcNet, op := 2 })] }, mem := [], ry := { port1 := { routers := [(7, 80)] } } }, (9 : Nat), (some 1 : Option Nat), (some 5683 : Option Nat), (some 1 : Option Nat), (0 : Nat), by decide⟩,
    ⟨{ wS [(R.GROUND_STATE_HASH_READY, 1), (R.GROUND_HASH_BASE_BASE, 0x84000000), (R.MAC_PAN_CHAN_HOP_LEN, 16)] with cmp := { tickets := [(9, { role := 1, svc := svcNet, op := 2 })] }, mem := [], ry := {  } }, (9 : Nat), (some 2 : Option Nat), (none : Option Nat), (none : Option Nat), by decide⟩,
    ⟨wS [], (9 : Nat), by decide⟩,
    ⟨{ wS [(R.GROUND_STATE_HASH_READY, 1), (R.GROUND_HASH_BASE_BASE, 0x84000000), (R.MAC_PAN_CHAN_HOP_LEN, 16)] with cmp := { tickets := [(9, { role := 1, svc := svcPan, op := 2 })] }, mem := [], ry := {  } }, (9 : Nat), (0 : Nat), (⟨some (some 5), some 1, some 128, some (3, 4, 5), some 1, [(1, some 7), (2, none)]⟩ : PanKeys), by decide⟩,
    ⟨{ wS [(R.GROUND_STATE_HASH_READY, 1), (R.GROUND_HASH_BASE_BASE, 0x84000000), (R.MAC_PAN_CHAN_HOP_LEN, 16)] with cmp := { tickets := [(9, { role := 1, svc := svcPan, op := 2 })] }, mem := [], ry := {  } }, (9 : Nat), (0 : Nat), (⟨none, some 256, none, none, none, []⟩ : PanKeys), by decide⟩,
    ⟨wS [], (9 : Nat), by decide⟩,
    ⟨{ wS [(R.GROUND_STATE_HASH_READY, 1), (R.GROUND_HASH_BASE_BASE, 0x84000000), (R.MAC_PAN_CHAN_HOP_LEN, 16)] with cmp := { tickets := [(9, { role := 1, svc := svcPan, op := 3 })] }, mem := [], ry := { settings := [(settingNo svcPan 0 12 0, [5])] } }, (9 : Nat), by decide⟩,
    ⟨wS [], (9 : Nat), by decide⟩,
    ⟨{ wS [(R.GROUND_STATE_HASH_READY, 1), (R.GROUND_HASH_BASE_BASE, 0x84000000), (R.MAC_PAN_CHAN_HOP_LEN, 16)] with cmp := { tickets := [(9, { role := 1, svc := svcNode, op := 2 })] }, mem := [(0x8000050D, 1), (0x80000550, 0xFF), (0x80000551, 0xFF), (0x80000552, 3)], ry := { cells := [⟨5, nodeNone, 0, 3, 1, 0⟩, ⟨7, nodeNone, 0, 4, 1, 0⟩] } }, (9 : Nat), (5 : Nat), by decide⟩,
    ⟨{ wS [(R.GROUND_STATE_HASH_READY, 1), (R.GROUND_HASH_BASE_BASE, 0x84000000), (R.MAC_PAN_CHAN_HOP_LEN, 16)] with cmp := { tickets := [(9, { role := 1, svc := svcNode, op := 2 })] }, mem := [], ry := {  } }, (9 : Nat), (5 : Nat), by decide⟩,
    ⟨wS [], (9 : Nat), by decide⟩,
    ⟨{ wS [(R.GROUND_STATE_HASH_READY, 1), (R.GROUND_HASH_BASE_BASE, 0x84000000), (R.MAC_PAN_CHAN_HOP_LEN, 16)] with cmp := { tickets := [(9, { role := 1, svc := svcNode, op := 5 })] }, mem := [(0x8000050D, 1), (0x80000550, 0xFF), (0x80000551, 0xFF), (0x80000552, 3)], ry := {  } }, (9 : Nat), by decide⟩,
    ⟨wS [], (9 : Nat), by decide⟩,
    ⟨{ wS [(R.GROUND_STATE_HASH_READY, 1), (R.GROUND_HASH_BASE_BASE, 0x84000000), (R.MAC_PAN_CHAN_HOP_LEN, 16), (R.MAC_SF_BASE_ROW_BASE, 0x10000)] with cmp := { tickets := [(9, { role := 1, svc := svcSched, op := 2 })] }, mem := [], ry := {  } }, (9 : Nat), (0 : Fin 16), (some 7 : Option Nat), (some 65535 : Option Nat), (⟨0x1234, 1, 1, 5, 5, 10, 0, 2, 100⟩ : PanRec), by decide⟩,
    ⟨{ wS [(R.GROUND_STATE_HASH_READY, 1), (R.GROUND_HASH_BASE_BASE, 0x84000000), (R.MAC_PAN_CHAN_HOP_LEN, 16)] with cmp := { tickets := [(9, { role := 1, svc := svcSched, op := 2 })] }, mem := [], ry := {  } }, (9 : Nat), (0 : Nat), (some 6 : Option Nat), (none : Option Nat), by decide⟩,
    ⟨wS [], (9 : Nat), by decide⟩,
    ⟨{ wS [(R.GROUND_STATE_HASH_READY, 1), (R.GROUND_HASH_BASE_BASE, 0x84000000), (R.MAC_PAN_CHAN_HOP_LEN, 16)] with cmp := { tickets := [(9, { role := 1, svc := svcJoin, op := 1 })] }, mem := [], ry := {  } }, (9 : Nat), (some 1 : Option Nat), (some 1000 : Option Nat), (some (some 511) : Option (Option Nat)), by decide⟩,
    ⟨{ wS [(R.GROUND_STATE_HASH_READY, 1), (R.GROUND_HASH_BASE_BASE, 0x84000000), (R.MAC_PAN_CHAN_HOP_LEN, 16)] with cmp := { tickets := [(9, { role := 1, svc := svcJoin, op := 1 })] }, mem := [], ry := {  } }, (9 : Nat), (some 2 : Option Nat), (none : Option Nat), (none : Option (Option Nat)), by decide⟩,
    ⟨wS [], (9 : Nat), by decide⟩,
    ⟨{ wS [(R.GROUND_STATE_HASH_READY, 1), (R.GROUND_HASH_BASE_BASE, 0x84000000), (R.MAC_PAN_CHAN_HOP_LEN, 16)] with cmp := { tickets := [(9, { role := 1, svc := svcJoin, op := 2 })] }, mem := [], ry := {  } }, (9 : Nat), ([(7, 8)] : List (BitVec 64 × BitVec 192)), (9 : Fin 512), by decide⟩,
    ⟨{ wS [(R.GROUND_STATE_HASH_READY, 1), (R.GROUND_HASH_BASE_BASE, 0x84000000), (R.MAC_PAN_CHAN_HOP_LEN, 16)] with cmp := { tickets := [(9, { role := 1, svc := svcJoin, op := 2 })] }, mem := [], ry := {  }, ky := { slots := [(9, { attr := 0, mat := 5 })] } }, (9 : Nat), ([(7, 8)] : List (BitVec 64 × BitVec 192)), (9 : Fin 512), by decide⟩,
    ⟨wS [], (9 : Nat), by decide⟩,
    ⟨{ wS [(R.GROUND_STATE_HASH_READY, 1), (R.GROUND_HASH_BASE_BASE, 0x84000000), (R.MAC_PAN_CHAN_HOP_LEN, 16)] with cmp := { tickets := [(9, { role := 1, svc := svcJoin, op := 3 })] }, mem := [], ry := { settings := [(2 ^ 31, [77, 123]), (2 ^ 31 + 1, [78, 124])] } }, (9 : Nat), by decide⟩,
    ⟨wS [], (9 : Nat), by decide⟩,
    ⟨{ wS [(R.GROUND_STATE_HASH_READY, 1), (R.GROUND_HASH_BASE_BASE, 0x84000000), (R.MAC_PAN_CHAN_HOP_LEN, 16)] with cmp := { tickets := [(9, { role := 1, svc := svcJoin, op := 5 })] }, mem := [(0x8000050D, 1), (0x80000550, 0xFF), (0x80000551, 0xFF), (0x80000552, 3)], ry := {  }, ky := { slots := [(9, { attr := 0, mat := 5 })] } }, (9 : Nat), (0 : Nat), (9 : Nat), by decide⟩,
    ⟨{ wS [(R.GROUND_STATE_HASH_READY, 1), (R.GROUND_HASH_BASE_BASE, 0x84000000), (R.MAC_PAN_CHAN_HOP_LEN, 16)] with cmp := { tickets := [(9, { role := 1, svc := svcJoin, op := 5 })] }, mem := [], ry := {  }, ky := { slots := [(9, { attr := 0, mat := 5 })] } }, (9 : Nat), (0 : Fin 16), (9 : Nat), by decide⟩,
    ⟨{ wS [(R.GROUND_STATE_HASH_READY, 1), (R.GROUND_HASH_BASE_BASE, 0x84000000), (R.MAC_PAN_CHAN_HOP_LEN, 16)] with cmp := { tickets := [(9, { role := 1, svc := svcJoin, op := 5 })] }, mem := [(0x8000050D, 1), (0x80000550, 0xFF), (0x80000551, 0xFF), (0x80000552, 3)], ry := {  } }, (9 : Nat), (0 : Nat), (9 : Nat), by decide⟩,
    ⟨wS [], (9 : Nat), by decide⟩⟩

/-- States and operands that meet the hypotheses of each clause of ImageService. -/
theorem test_ImageService_witness :
    (∃ s : State, ∃ k : Nat, (s.Inv) ∧ (s.callable k svcImage 1 = true)) ∧
    (∃ s : State, ∃ k : Nat, (s.Inv) ∧ (s.callable k svcImage 1 = false)) ∧
    (∃ s : State, ∃ k : Nat, ∃ i : Nat, ∃ v : Image, (s.Inv) ∧ (s.callable k svcImage 2 = true) ∧ (s.image i = some v)) ∧
    (∃ s : State, ∃ k : Nat, ∃ i : Nat, (s.Inv) ∧ (s.callable k svcImage 2 = true) ∧ (s.image i = none)) ∧
    (∃ s : State, ∃ k : Nat, (s.Inv) ∧ (s.callable k svcImage 2 = false)) ∧
    (∃ s : State, ∃ k : Nat, ∃ i : Nat, ∃ v : Image, (s.Inv) ∧ (s.callable k svcImage 3 = true) ∧ (s.image i = some v)) ∧
    (∃ s : State, ∃ k : Nat, ∃ i : Nat, (s.Inv) ∧ (s.callable k svcImage 3 = true) ∧ (s.image i = none)) ∧
    (∃ s : State, ∃ k : Nat, (s.Inv) ∧ (s.callable k svcImage 3 = false)) ∧
    (∃ s : State, ∃ k : Nat, (s.Inv) ∧ (s.callable k svcImage 4 = true)) ∧
    (∃ s : State, ∃ k : Nat, (s.Inv) ∧ (s.callable k svcImage 4 = false)) ∧
    (∃ s : State, ∃ k : Nat, ∃ p : Nat, ∃ i : Nat, ∃ a : CampaignArgs, ∃ v : Image, ∃ c : Nat, (s.Inv) ∧ (s.callable k svcImage 6 = true) ∧ (((s.panRec p).isNone || decide (64 ≤ i) || decide (256 ≤ a.mask) || decide (2 ^ 32 ≤ a.bound) || decide (a.szx < 2 ∨ 6 < a.szx) || (s.oqpskPan p && decide (a.szx ≠ 2)) || decide (a.blockMs < 100 ∨ 60000 < a.blockMs) || decide (7 < a.rounds) || decide (a.reportS < 10 ∨ 3600 < a.reportS)) = false) ∧ (s.image i = some v ∧ v.done = true) ∧ ((s.panPrefix p).isSome = true ∧ (s.campaigns.any (fun (c : Campaign) => decide (c.pan = p))) = false ∧ s.campaigns.length < 4) ∧ (c < 4 ∧ s.campaign c = none ∧ ∀ e < c, (s.campaign e).isSome = true)) ∧
    (∃ s : State, ∃ k : Nat, (s.Inv) ∧ (s.callable k svcImage 6 = true)) ∧
    (∃ s : State, ∃ k : Nat, (s.Inv) ∧ (s.callable k svcImage 6 = false)) ∧
    (∃ s : State, ∃ k : Nat, (s.Inv) ∧ (s.callable k svcImage 8 = true)) ∧
    (∃ s : State, ∃ k : Nat, (s.Inv) ∧ (s.callable k svcImage 8 = false)) :=
  ⟨⟨{ wS [(R.GROUND_STATE_HASH_READY, 1), (R.GROUND_HASH_BASE_BASE, 0x84000000), (R.MAC_PAN_CHAN_HOP_LEN, 16)] with cmp := { tickets := [(9, { role := 1, svc := svcImage, op := 1 })] }, mem := [], ry := { images := [(3, ⟨9, 5, 1, 7, [0], true⟩)] } }, (9 : Nat), by decide⟩,
    ⟨wS [], (9 : Nat), by decide⟩,
    ⟨{ wS [(R.GROUND_STATE_HASH_READY, 1), (R.GROUND_HASH_BASE_BASE, 0x84000000), (R.MAC_PAN_CHAN_HOP_LEN, 16)] with cmp := { tickets := [(9, { role := 1, svc := svcImage, op := 2 })] }, mem := [], ry := { images := [(3, ⟨9, 5, 1, 7, [0], false⟩)] } }, (9 : Nat), (3 : Nat), (⟨9, 5, 1, 7, [0], false⟩ : Image), by decide⟩,
    ⟨{ wS [(R.GROUND_STATE_HASH_READY, 1), (R.GROUND_HASH_BASE_BASE, 0x84000000), (R.MAC_PAN_CHAN_HOP_LEN, 16)] with cmp := { tickets := [(9, { role := 1, svc := svcImage, op := 2 })] }, mem := [], ry := { images := [(3, ⟨9, 5, 1, 7, [0], false⟩)] } }, (9 : Nat), (4 : Nat), by decide⟩,
    ⟨wS [], (9 : Nat), by decide⟩,
    ⟨{ wS [(R.GROUND_STATE_HASH_READY, 1), (R.GROUND_HASH_BASE_BASE, 0x84000000), (R.MAC_PAN_CHAN_HOP_LEN, 16)] with cmp := { tickets := [(9, { role := 1, svc := svcImage, op := 3 })] }, mem := [], ry := { images := [(3, ⟨9, 5, 1, 7, [0], false⟩)] } }, (9 : Nat), (3 : Nat), (⟨9, 5, 1, 7, [0], false⟩ : Image), by decide⟩,
    ⟨{ wS [(R.GROUND_STATE_HASH_READY, 1), (R.GROUND_HASH_BASE_BASE, 0x84000000), (R.MAC_PAN_CHAN_HOP_LEN, 16)] with cmp := { tickets := [(9, { role := 1, svc := svcImage, op := 3 })] }, mem := [], ry := { images := [(3, ⟨9, 5, 1, 7, [0], false⟩)] } }, (9 : Nat), (4 : Nat), by decide⟩,
    ⟨wS [], (9 : Nat), by decide⟩,
    ⟨{ wS [(R.GROUND_STATE_HASH_READY, 1), (R.GROUND_HASH_BASE_BASE, 0x84000000), (R.MAC_PAN_CHAN_HOP_LEN, 16)] with cmp := { tickets := [(9, { role := 1, svc := svcImage, op := 4 })] }, mem := [], ry := { images := [(3, ⟨9, 5, 1, 7, [0], true⟩)] } }, (9 : Nat), by decide⟩,
    ⟨wS [], (9 : Nat), by decide⟩,
    ⟨{ wS [(R.GROUND_STATE_HASH_READY, 1), (R.GROUND_HASH_BASE_BASE, 0x84000000), (R.MAC_PAN_CHAN_HOP_LEN, 16)] with cmp := { tickets := [(9, { role := 1, svc := svcImage, op := 6 })] }, mem := [(0x8000050D, 1), (0x80000550, 0xFF), (0x80000551, 0xFF), (0x80000552, 3)], ry := { images := [(3, ⟨9, 5, 1, 7, [0], true⟩)], settings := [(settingNo svcPan 0 12 0, [5])] } }, (9 : Nat), (0 : Nat), (3 : Nat), (⟨1, 5, 4, 1000, 2, 60, 60⟩ : CampaignArgs), (⟨9, 5, 1, 7, [0], true⟩ : Image), (0 : Nat), by decide⟩,
    ⟨{ wS [(R.GROUND_STATE_HASH_READY, 1), (R.GROUND_HASH_BASE_BASE, 0x84000000), (R.MAC_PAN_CHAN_HOP_LEN, 16)] with cmp := { tickets := [(9, { role := 1, svc := svcImage, op := 6 })] }, mem := [], ry := { images := [(3, ⟨9, 5, 1, 7, [0], true⟩)] } }, (9 : Nat), by decide⟩,
    ⟨wS [], (9 : Nat), by decide⟩,
    ⟨{ wS [(R.GROUND_STATE_HASH_READY, 1), (R.GROUND_HASH_BASE_BASE, 0x84000000), (R.MAC_PAN_CHAN_HOP_LEN, 16)] with cmp := { tickets := [(9, { role := 1, svc := svcImage, op := 8 })] }, mem := [], ry := { campaigns := [(1, { pan := 0, image := 0, mask := 1, bound := 5, szx := 4, blockMs := 1000, rounds := 2, reportS := 60, delayS := 60, phase := 2 })] } }, (9 : Nat), by decide⟩,
    ⟨wS [], (9 : Nat), by decide⟩⟩

/-- States and operands that meet the hypotheses of each clause of ZoneTransitions. -/
theorem test_ZoneTransitions_witness :
    (∃ s : State, ∃ n : Nat, ∃ a : Nat, ∃ z : Nat, (s.Inv) ∧ (s.rySends = true ∧ s.known n = true ∧ (s.zonesOf n).count z = 1 ∧ s.zConf z = true) ∧ (s.zState z = 0 ∨ s.zState z = 2) ∧ (max a (s.zGet z zoPresence 8) + 65536 * secCyc < 2 ^ 64)) ∧
    (∃ s : State, ∃ n : Nat, ∃ a : Nat, ∃ z : Nat, (s.Inv) ∧ (s.rySends = true ∧ s.known n = true ∧ (s.zonesOf n).count z = 1 ∧ s.zConf z = true) ∧ (s.zState z = 1 ∨ s.zState z = 3) ∧ (max a (s.zGet z zoPresence 8) + 65536 * secCyc < 2 ^ 64)) ∧
    (∃ s : State, ∃ n : Nat, ∃ v : Nat, ∃ a : Nat, ∃ z : Nat, (s.Inv) ∧ (s.rySends = true ∧ s.known n = true ∧ (s.zonesOf n).count z = 1 ∧ s.zConf z = true ∧ v ≤ 1001) ∧ (a + 65536 * secCyc < 2 ^ 64)) ∧
    (∃ s : State, ∃ z : Fin 16384, ∃ u : Nat, (s.Inv) ∧ (s.rySends = true ∧ s.zConf z = true ∧ s.zState z = 1 ∧ s.zGet z zoDeadline 8 ≠ 0 ∧ s.zGet z zoDeadline 8 ≤ max s.mtb u) ∧ (max s.mtb u + 65536 * secCyc < 2 ^ 64)) ∧
    (∃ s : State, ∃ z : Fin 16384, ∃ u : Nat, (s.Inv) ∧ (s.rySends = true ∧ s.zConf z = true ∧ s.zState z = 2 ∧ s.zGet z zoDeadline 8 ≠ 0 ∧ s.zGet z zoDeadline 8 ≤ max s.mtb u)) ∧
    (∃ s : State, ∃ z : Fin 16384, ∃ u : Nat, (s.Inv) ∧ (¬ (s.rySends = true ∧ s.zConf z = true ∧ s.zState z = 1 ∧ s.zGet z zoDeadline 8 ≠ 0 ∧ s.zGet z zoDeadline 8 ≤ max s.mtb u))) ∧
    (∃ s : State, ∃ z : Fin 16384, ∃ u : Nat, (s.Inv) ∧ (¬ (s.rySends = true ∧ s.zConf z = true ∧ s.zState z = 2 ∧ s.zGet z zoDeadline 8 ≠ 0 ∧ s.zGet z zoDeadline 8 ≤ max s.mtb u))) ∧
    (∃ s : State, ∃ z : Fin 16384, ∃ u : Nat, (s.Inv) ∧ (¬ (s.rySends = true ∧ s.zConf z = true ∧ s.zState z = 3 ∧ s.zGet z zoDeadline 8 ≠ 0 ∧ s.zGet z zoDeadline 8 ≤ max s.mtb u))) ∧
    (∃ s : State, ∃ z : Fin 16384, ∃ u : Nat, (s.Inv) ∧ (s.rySends = true ∧ s.zConf z = true ∧ s.zState z = 3 ∧ s.zGet z zoDeadline 8 ≠ 0 ∧ s.zGet z zoDeadline 8 ≤ max s.mtb u) ∧ (max s.mtb u + 65536 * secCyc < 2 ^ 64 ∧ s.zGet z zoPresence 8 + 65536 * secCyc < 2 ^ 64)) ∧
    (∃ s : State, ∃ k : Nat, ∃ z : Nat, ∃ v : Nat, ∃ d : Nat, ∃ u : Nat, (s.Inv) ∧ (s.callable k svcZone 5 = true) ∧ (z < 16384 ∧ s.zConf z = true ∧ v ≤ 1000 ∧ d ≤ 65535 ∧ max s.mtb u + 65536 * secCyc < 2 ^ 64)) ∧
    (∃ s : State, ∃ k : Nat, ∃ z : Nat, ∃ u : Nat, (s.Inv) ∧ (s.callable k svcZone 6 = true) ∧ (z < 16384 ∧ s.zConf z = true ∧ s.zState z = 3) ∧ (max s.mtb u + 65536 * secCyc < 2 ^ 64 ∧ s.zGet z zoPresence 8 + 65536 * secCyc < 2 ^ 64)) ∧
    (∃ s : State, ∃ z : Fin 16384, ∃ u : Nat, (s.Inv) ∧ (s.pr.table.nodeLimit * 256 + (s.region 0).1 ≤ (s.region 7).1 ∨ (s.region 7).1 + 2 ^ 22 ≤ (s.region 0).1) ∧ (s.rySends = true ∧ s.zConf z = true ∧ s.zGet z zoOn 1 = 1 ∧ s.zGet z zoDue 8 ≤ max s.mtb u ∧ (s.zState z = 1 ∨ s.zState z = 2)) ∧ (((s.zMembers z).filterMap (fun n => (Store.find? n s.ry.lux).bind (fun (x : Nat × Nat) => if max s.mtb u ≤ x.2 + s.zGet z zoWindow 2 * secCyc then some x.1 else none))) ≠ [])) ∧
    (∃ s : State, ∃ k : Nat, ∃ z : Nat, ∃ q : ZoneKeys, (s.Inv) ∧ (s.callable k svcZone 2 = true) ∧ (z < 16384 ∧ s.zConf z = false ∧ q.pan.any (fun x => (s.panRec x).isSome) = true ∧ zoneKeysOk q = true)) :=
  ⟨⟨{ wS [(R.GROUND_STATE_HASH_READY, 1), (R.GROUND_HASH_BASE_BASE, 0x84000000), (R.MAC_PAN_CHAN_HOP_LEN, 16)] with cmp := { tickets := [(9, { role := 1, svc := svcZone, op := 1 })] }, mem := [(0x8000050D, 0x1), (0x80000550, 0xFF), (0x80000551, 0xFF), (0x80000552, 0x3), (0x80000560, 0x2), (0x80000561, 0x80), (0x87400200, 0x1), (0x87400203, 0x2), (0x87400204, 0xE8), (0x87400205, 0x3), (0x87400206, 0xC8), (0x8740020C, 0x78), (0x8740020E, 0x58), (0x8740020F, 0x2), (0x87400210, 0x10), (0x87400211, 0xE), (0x87400212, 0xF4), (0x87400213, 0x1), (0x87400214, 0xA0), (0x87400215, 0xF), (0x87400216, 0x10), (0x87400217, 0x27)], ry := {  } }, (5 : Nat), (90 : Nat), (2 : Nat), by decide⟩,
    ⟨{ wS [(R.GROUND_STATE_HASH_READY, 1), (R.GROUND_HASH_BASE_BASE, 0x84000000), (R.MAC_PAN_CHAN_HOP_LEN, 16)] with cmp := { tickets := [(9, { role := 1, svc := svcZone, op := 1 })] }, mem := [(0x8000050D, 0x1), (0x80000550, 0xFF), (0x80000551, 0xFF), (0x80000552, 0x3), (0x80000560, 0x2), (0x80000561, 0x80), (0x87400200, 0x1), (0x87400201, 0x1), (0x87400203, 0x2), (0x87400204, 0xE8), (0x87400205, 0x3), (0x87400206, 0xC8), (0x8740020C, 0x78), (0x8740020E, 0x58), (0x8740020F, 0x2), (0x87400210, 0x10), (0x87400211, 0xE), (0x87400212, 0xF4), (0x87400213, 0x1), (0x87400214, 0xA0), (0x87400215, 0xF), (0x87400216, 0x10), (0x87400217, 0x27), (0x87400248, 0x32)], ry := {  } }, (5 : Nat), (90 : Nat), (2 : Nat), by decide⟩,
    ⟨{ wS [(R.GROUND_STATE_HASH_READY, 1), (R.GROUND_HASH_BASE_BASE, 0x84000000), (R.MAC_PAN_CHAN_HOP_LEN, 16)] with cmp := { tickets := [(9, { role := 1, svc := svcZone, op := 1 })] }, mem := [(0x8000050D, 0x1), (0x80000550, 0xFF), (0x80000551, 0xFF), (0x80000552, 0x3), (0x80000560, 0x2), (0x80000561, 0x80), (0x87400200, 0x1), (0x87400203, 0x2), (0x87400204, 0xE8), (0x87400205, 0x3), (0x87400206, 0xC8), (0x8740020C, 0x78), (0x8740020E, 0x58), (0x8740020F, 0x2), (0x87400210, 0x10), (0x87400211, 0xE), (0x87400212, 0xF4), (0x87400213, 0x1), (0x87400214, 0xA0), (0x87400215, 0xF), (0x87400216, 0x10), (0x87400217, 0x27)], ry := {  } }, (5 : Nat), (1001 : Nat), (90 : Nat), (2 : Nat), by decide⟩,
    ⟨{ wS [(R.GROUND_STATE_HASH_READY, 1), (R.GROUND_HASH_BASE_BASE, 0x84000000), (R.MAC_PAN_CHAN_HOP_LEN, 16)] with cmp := { tickets := [(9, { role := 1, svc := svcZone, op := 1 })] }, mem := [(0x8000050D, 0x1), (0x80000550, 0xFF), (0x80000551, 0xFF), (0x80000552, 0x3), (0x80000560, 0x2), (0x80000561, 0x80), (0x87400200, 0x1), (0x87400201, 0x1), (0x87400203, 0x2), (0x87400204, 0xE8), (0x87400205, 0x3), (0x87400206, 0xC8), (0x8740020C, 0x78), (0x8740020E, 0x58), (0x8740020F, 0x2), (0x87400210, 0x10), (0x87400211, 0xE), (0x87400212, 0xF4), (0x87400213, 0x1), (0x87400214, 0xA0), (0x87400215, 0xF), (0x87400216, 0x10), (0x87400217, 0x27), (0x87400248, 0x64)], ry := {  } }, (2 : Fin 16384), (100 : Nat), by decide⟩,
    ⟨{ wS [(R.GROUND_STATE_HASH_READY, 1), (R.GROUND_HASH_BASE_BASE, 0x84000000), (R.MAC_PAN_CHAN_HOP_LEN, 16)] with cmp := { tickets := [(9, { role := 1, svc := svcZone, op := 1 })] }, mem := [(0x8000050D, 0x1), (0x80000550, 0xFF), (0x80000551, 0xFF), (0x80000552, 0x3), (0x80000560, 0x2), (0x80000561, 0x80), (0x87400200, 0x1), (0x87400201, 0x2), (0x87400203, 0x2), (0x87400204, 0xE8), (0x87400205, 0x3), (0x87400206, 0xC8), (0x8740020C, 0x78), (0x8740020E, 0x58), (0x8740020F, 0x2), (0x87400210, 0x10), (0x87400211, 0xE), (0x87400212, 0xF4), (0x87400213, 0x1), (0x87400214, 0xA0), (0x87400215, 0xF), (0x87400216, 0x10), (0x87400217, 0x27), (0x87400248, 0x64)], ry := {  } }, (2 : Fin 16384), (100 : Nat), by decide⟩,
    ⟨{ wS [(R.GROUND_STATE_HASH_READY, 1), (R.GROUND_HASH_BASE_BASE, 0x84000000), (R.MAC_PAN_CHAN_HOP_LEN, 16)] with cmp := { tickets := [(9, { role := 1, svc := svcZone, op := 1 })] }, mem := [(0x8000050D, 0x1), (0x80000550, 0xFF), (0x80000551, 0xFF), (0x80000552, 0x3), (0x80000560, 0x2), (0x80000561, 0x80), (0x87400200, 0x1), (0x87400201, 0x1), (0x87400203, 0x2), (0x87400204, 0xE8), (0x87400205, 0x3), (0x87400206, 0xC8), (0x8740020C, 0x78), (0x8740020E, 0x58), (0x8740020F, 0x2), (0x87400210, 0x10), (0x87400211, 0xE), (0x87400212, 0xF4), (0x87400213, 0x1), (0x87400214, 0xA0), (0x87400215, 0xF), (0x87400216, 0x10), (0x87400217, 0x27)], ry := {  } }, (2 : Fin 16384), (100 : Nat), by decide⟩,
    ⟨{ wS [(R.GROUND_STATE_HASH_READY, 1), (R.GROUND_HASH_BASE_BASE, 0x84000000), (R.MAC_PAN_CHAN_HOP_LEN, 16)] with cmp := { tickets := [(9, { role := 1, svc := svcZone, op := 1 })] }, mem := [(0x8000050D, 0x1), (0x80000550, 0xFF), (0x80000551, 0xFF), (0x80000552, 0x3), (0x80000560, 0x2), (0x80000561, 0x80), (0x87400200, 0x1), (0x87400201, 0x2), (0x87400203, 0x2), (0x87400204, 0xE8), (0x87400205, 0x3), (0x87400206, 0xC8), (0x8740020C, 0x78), (0x8740020E, 0x58), (0x8740020F, 0x2), (0x87400210, 0x10), (0x87400211, 0xE), (0x87400212, 0xF4), (0x87400213, 0x1), (0x87400214, 0xA0), (0x87400215, 0xF), (0x87400216, 0x10), (0x87400217, 0x27)], ry := {  } }, (2 : Fin 16384), (100 : Nat), by decide⟩,
    ⟨{ wS [(R.GROUND_STATE_HASH_READY, 1), (R.GROUND_HASH_BASE_BASE, 0x84000000), (R.MAC_PAN_CHAN_HOP_LEN, 16)] with cmp := { tickets := [(9, { role := 1, svc := svcZone, op := 1 })] }, mem := [(0x8000050D, 0x1), (0x80000550, 0xFF), (0x80000551, 0xFF), (0x80000552, 0x3), (0x80000560, 0x2), (0x80000561, 0x80), (0x87400200, 0x1), (0x87400201, 0x3), (0x87400203, 0x2), (0x87400204, 0xE8), (0x87400205, 0x3), (0x87400206, 0xC8), (0x8740020C, 0x78), (0x8740020E, 0x58), (0x8740020F, 0x2), (0x87400210, 0x10), (0x87400211, 0xE), (0x87400212, 0xF4), (0x87400213, 0x1), (0x87400214, 0xA0), (0x87400215, 0xF), (0x87400216, 0x10), (0x87400217, 0x27)], ry := {  } }, (2 : Fin 16384), (100 : Nat), by decide⟩,
    ⟨{ wS [(R.GROUND_STATE_HASH_READY, 1), (R.GROUND_HASH_BASE_BASE, 0x84000000), (R.MAC_PAN_CHAN_HOP_LEN, 16)] with cmp := { tickets := [(9, { role := 1, svc := svcZone, op := 1 })] }, mem := [(0x8000050D, 0x1), (0x80000550, 0xFF), (0x80000551, 0xFF), (0x80000552, 0x3), (0x80000560, 0x2), (0x80000561, 0x80), (0x87400200, 0x1), (0x87400201, 0x3), (0x87400203, 0x2), (0x87400204, 0xE8), (0x87400205, 0x3), (0x87400206, 0xC8), (0x8740020C, 0x78), (0x8740020E, 0x58), (0x8740020F, 0x2), (0x87400210, 0x10), (0x87400211, 0xE), (0x87400212, 0xF4), (0x87400213, 0x1), (0x87400214, 0xA0), (0x87400215, 0xF), (0x87400216, 0x10), (0x87400217, 0x27), (0x87400248, 0x64)], ry := {  } }, (2 : Fin 16384), (100 : Nat), by decide⟩,
    ⟨{ wS [(R.GROUND_STATE_HASH_READY, 1), (R.GROUND_HASH_BASE_BASE, 0x84000000), (R.MAC_PAN_CHAN_HOP_LEN, 16)] with cmp := { tickets := [(9, { role := 1, svc := svcZone, op := 5 })] }, mem := [(0x8000050D, 0x1), (0x80000550, 0xFF), (0x80000551, 0xFF), (0x80000552, 0x3), (0x80000560, 0x2), (0x80000561, 0x80), (0x87400200, 0x1), (0x87400203, 0x2), (0x87400204, 0xE8), (0x87400205, 0x3), (0x87400206, 0xC8), (0x8740020C, 0x78), (0x8740020E, 0x58), (0x8740020F, 0x2), (0x87400210, 0x10), (0x87400211, 0xE), (0x87400212, 0xF4), (0x87400213, 0x1), (0x87400214, 0xA0), (0x87400215, 0xF), (0x87400216, 0x10), (0x87400217, 0x27)], ry := {  } }, (9 : Nat), (2 : Nat), (300 : Nat), (0 : Nat), (100 : Nat), by decide⟩,
    ⟨{ wS [(R.GROUND_STATE_HASH_READY, 1), (R.GROUND_HASH_BASE_BASE, 0x84000000), (R.MAC_PAN_CHAN_HOP_LEN, 16)] with cmp := { tickets := [(9, { role := 1, svc := svcZone, op := 6 })] }, mem := [(0x8000050D, 0x1), (0x80000550, 0xFF), (0x80000551, 0xFF), (0x80000552, 0x3), (0x80000560, 0x2), (0x80000561, 0x80), (0x87400200, 0x1), (0x87400201, 0x3), (0x87400203, 0x2), (0x87400204, 0xE8), (0x87400205, 0x3), (0x87400206, 0xC8), (0x8740020C, 0x78), (0x8740020E, 0x58), (0x8740020F, 0x2), (0x87400210, 0x10), (0x87400211, 0xE), (0x87400212, 0xF4), (0x87400213, 0x1), (0x87400214, 0xA0), (0x87400215, 0xF), (0x87400216, 0x10), (0x87400217, 0x27)], ry := {  } }, (9 : Nat), (2 : Nat), (100 : Nat), by decide⟩,
    ⟨{ wS [(R.GROUND_STATE_HASH_READY, 1), (R.GROUND_HASH_BASE_BASE, 0x84000000), (R.MAC_PAN_CHAN_HOP_LEN, 16)] with cmp := { tickets := [(9, { role := 1, svc := svcZone, op := 1 })] }, mem := [(0x8000050D, 0x1), (0x80000550, 0xFF), (0x80000551, 0xFF), (0x80000552, 0x3), (0x80000560, 0x2), (0x80000561, 0x80), (0x87400200, 0x1), (0x87400201, 0x1), (0x87400203, 0x2), (0x87400204, 0xE8), (0x87400205, 0x3), (0x87400206, 0xC8), (0x8740020C, 0x78), (0x8740020E, 0x58), (0x8740020F, 0x2), (0x87400210, 0x10), (0x87400211, 0xE), (0x87400212, 0xF4), (0x87400213, 0x1), (0x87400214, 0xA0), (0x87400215, 0xF), (0x87400216, 0x10), (0x87400217, 0x27), (0x87400218, 0x1), (0x8740021A, 0x64), (0x8740021C, 0x14), (0x8740021F, 0x2), (0x87400220, 0x40), (0x87400222, 0xA), (0x87400224, 0x2C), (0x87400225, 0x1), (0x87400228, 0x2C), (0x87400229, 0x1), (0x8740022C, 0xE0), (0x8740022D, 0x93), (0x8740022E, 0x4), (0x8740023C, 0x96), (0x87400250, 0x64)], ry := { lux := [(5, (250, 90))] } }, (2 : Fin 16384), (100 : Nat), by decide⟩,
    ⟨{ wS [(R.GROUND_STATE_HASH_READY, 1), (R.GROUND_HASH_BASE_BASE, 0x84000000), (R.MAC_PAN_CHAN_HOP_LEN, 16)] with cmp := { tickets := [(9, { role := 1, svc := svcZone, op := 2 })] }, mem := [(0x8000050D, 0x1), (0x80000550, 0xFF), (0x80000551, 0xFF), (0x80000552, 0x3), (0x80000560, 0x2), (0x80000561, 0x80), (0x87400200, 0x1), (0x87400203, 0x2), (0x87400204, 0xE8), (0x87400205, 0x3), (0x87400206, 0xC8), (0x8740020C, 0x78), (0x8740020E, 0x58), (0x8740020F, 0x2), (0x87400210, 0x10), (0x87400211, 0xE), (0x87400212, 0xF4), (0x87400213, 0x1), (0x87400214, 0xA0), (0x87400215, 0xF), (0x87400216, 0x10), (0x87400217, 0x27), (0x87400301, 0x2), (0x87400336, 0x1)], ry := {  } }, (9 : Nat), (3 : Nat), (⟨some 0, none, none, none, none, none, none⟩ : ZoneKeys), by decide⟩⟩

/-- States and operands that meet the hypotheses of each clause of ZoneControl. -/
theorem test_ZoneControl_witness :
    (∃ s : State, ∃ n : Nat, ∃ v : Nat, (s.Inv) ∧ (s.rySends = true ∧ s.known n = true ∧ ((s.zonesOf n).any s.zConf) = true ∧ v ≤ 100000)) ∧
    (∃ s : State, ∃ n : Nat, ∃ c : Nat, ∃ v : Nat, (s.Inv) ∧ (s.rySends = true ∧ s.known n = true) ∧ (((s.zonesOf n).any s.zConf) = false ∨ 2 < c ∨ (c = 1 ∧ 100000 < v) ∨ (c = 2 ∧ 1001 < v))) ∧
    (∃ s : State, ∃ n : Nat, (s.Inv) ∧ (s.rySends = false ∨ s.known n = false)) ∧
    (∃ s : State, ∃ z : Fin 16384, ∃ u : Nat, ∃ l : List Nat, (s.Inv) ∧ (s.pr.table.nodeLimit * 256 + (s.region 0).1 ≤ (s.region 7).1 ∨ (s.region 7).1 + 2 ^ 22 ≤ (s.region 0).1) ∧ (s.rySends = true ∧ s.zConf z = true ∧ s.zGet z zoOn 1 = 1 ∧ s.zGet z zoDue 8 ≤ max s.mtb u) ∧ (((s.zMembers z).filterMap (fun n => (Store.find? n s.ry.lux).bind (fun (x : Nat × Nat) => if max s.mtb u ≤ x.2 + s.zGet z zoWindow 2 * secCyc then some x.1 else none))) = l ∧ l ≠ []) ∧ (s.zState z = 1 ∨ s.zState z = 2) ∧ (s.zGet z zoMin 2 ≤ 1000) ∧ (max s.mtb u + 65536 * secCyc < 2 ^ 64 ∧ s.zGet z zoWindow 2 < 65536)) ∧
    (∃ s : State, ∃ z : Fin 16384, ∃ u : Nat, (s.Inv) ∧ (s.pr.table.nodeLimit * 256 + (s.region 0).1 ≤ (s.region 7).1 ∨ (s.region 7).1 + 2 ^ 22 ≤ (s.region 0).1) ∧ (s.rySends = true ∧ s.zConf z = true ∧ s.zGet z zoOn 1 = 1 ∧ s.zGet z zoDue 8 ≤ max s.mtb u) ∧ (((s.zMembers z).filterMap (fun n => (Store.find? n s.ry.lux).bind (fun (x : Nat × Nat) => if max s.mtb u ≤ x.2 + s.zGet z zoWindow 2 * secCyc then some x.1 else none))) ≠ []) ∧ (s.zState z ≠ 1 ∧ s.zState z ≠ 2)) ∧
    (∃ s : State, ∃ z : Fin 16384, ∃ u : Nat, (s.Inv) ∧ (s.pr.table.nodeLimit * 256 + (s.region 0).1 ≤ (s.region 7).1 ∨ (s.region 7).1 + 2 ^ 22 ≤ (s.region 0).1) ∧ (s.rySends = true ∧ s.zConf z = true ∧ s.zGet z zoOn 1 = 1 ∧ s.zGet z zoDue 8 ≤ max s.mtb u) ∧ (((s.zMembers z).filterMap (fun n => (Store.find? n s.ry.lux).bind (fun (x : Nat × Nat) => if max s.mtb u ≤ x.2 + s.zGet z zoWindow 2 * secCyc then some x.1 else none))) = [])) ∧
    (∃ s : State, ∃ z : Fin 16384, ∃ u : Nat, (s.Inv) ∧ (¬ (s.rySends = true ∧ s.zConf z = true ∧ s.zGet z zoOn 1 = 1 ∧ s.zGet z zoDue 8 ≤ max s.mtb u))) ∧
    (∃ s : State, ∃ p : Fin 16, ∃ f : Nat, (s.Inv) ∧ (s.rySends = true ∧ 1 ≤ f ∧ s.zPending p ≠ [])) ∧
    (∃ s : State, ∃ p : Fin 16, ∃ f : Nat, (s.Inv) ∧ (s.rySends = true ∧ 1 ≤ f ∧ s.zPending p ≠ [])) ∧
    (∃ s : State, ∃ p : Fin 16, ∃ f : Nat, (s.Inv) ∧ (s.rySends = false ∨ f = 0 ∨ s.zPending p = [])) :=
  ⟨⟨{ wS [(R.GROUND_STATE_HASH_READY, 1), (R.GROUND_HASH_BASE_BASE, 0x84000000), (R.MAC_PAN_CHAN_HOP_LEN, 16)] with cmp := { tickets := [(9, { role := 1, svc := svcZone, op := 1 })] }, mem := [(0x8000050D, 0x1), (0x80000550, 0xFF), (0x80000551, 0xFF), (0x80000552, 0x3), (0x80000560, 0x2), (0x80000561, 0x80), (0x87400200, 0x1), (0x87400203, 0x2), (0x87400204, 0xE8), (0x87400205, 0x3), (0x87400206, 0xC8), (0x8740020C, 0x78), (0x8740020E, 0x58), (0x8740020F, 0x2), (0x87400210, 0x10), (0x87400211, 0xE), (0x87400212, 0xF4), (0x87400213, 0x1), (0x87400214, 0xA0), (0x87400215, 0xF), (0x87400216, 0x10), (0x87400217, 0x27)], ry := {  } }, (5 : Nat), (100000 : Nat), by decide⟩,
    ⟨{ wS [(R.GROUND_STATE_HASH_READY, 1), (R.GROUND_HASH_BASE_BASE, 0x84000000), (R.MAC_PAN_CHAN_HOP_LEN, 16)] with cmp := { tickets := [(9, { role := 1, svc := svcZone, op := 1 })] }, mem := [(0x8000050D, 0x1), (0x80000550, 0xFF), (0x80000551, 0xFF), (0x80000552, 0x3), (0x80000560, 0x2), (0x80000561, 0x80), (0x87400200, 0x1), (0x87400203, 0x2), (0x87400204, 0xE8), (0x87400205, 0x3), (0x87400206, 0xC8), (0x8740020C, 0x78), (0x8740020E, 0x58), (0x8740020F, 0x2), (0x87400210, 0x10), (0x87400211, 0xE), (0x87400212, 0xF4), (0x87400213, 0x1), (0x87400214, 0xA0), (0x87400215, 0xF), (0x87400216, 0x10), (0x87400217, 0x27)], ry := {  } }, (5 : Nat), (2 : Nat), (1002 : Nat), by decide⟩,
    ⟨{ wS [(R.GROUND_STATE_HASH_READY, 1), (R.GROUND_HASH_BASE_BASE, 0x84000000), (R.MAC_PAN_CHAN_HOP_LEN, 16)] with cmp := { tickets := [(9, { role := 1, svc := svcZone, op := 1 })] }, mem := [(0x8000050D, 0x1), (0x80000550, 0xFF), (0x80000551, 0xFF), (0x80000552, 0x3), (0x80000560, 0x2), (0x80000561, 0x80), (0x87400200, 0x1), (0x87400203, 0x2), (0x87400204, 0xE8), (0x87400205, 0x3), (0x87400206, 0xC8), (0x8740020C, 0x78), (0x8740020E, 0x58), (0x8740020F, 0x2), (0x87400210, 0x10), (0x87400211, 0xE), (0x87400212, 0xF4), (0x87400213, 0x1), (0x87400214, 0xA0), (0x87400215, 0xF), (0x87400216, 0x10), (0x87400217, 0x27)], ry := {  } }, (6 : Nat), by decide⟩,
    ⟨{ wS [(R.GROUND_STATE_HASH_READY, 1), (R.GROUND_HASH_BASE_BASE, 0x84000000), (R.MAC_PAN_CHAN_HOP_LEN, 16)] with cmp := { tickets := [(9, { role := 1, svc := svcZone, op := 1 })] }, mem := [(0x8000050D, 0x1), (0x80000550, 0xFF), (0x80000551, 0xFF), (0x80000552, 0x3), (0x80000560, 0x2), (0x80000561, 0x80), (0x87400200, 0x1), (0x87400201, 0x1), (0x87400203, 0x2), (0x87400204, 0xE8), (0x87400205, 0x3), (0x87400206, 0xC8), (0x8740020C, 0x78), (0x8740020E, 0x58), (0x8740020F, 0x2), (0x87400210, 0x10), (0x87400211, 0xE), (0x87400212, 0xF4), (0x87400213, 0x1), (0x87400214, 0xA0), (0x87400215, 0xF), (0x87400216, 0x10), (0x87400217, 0x27), (0x87400218, 0x1), (0x8740021A, 0x64), (0x8740021C, 0x14), (0x8740021F, 0x2), (0x87400220, 0x40), (0x87400222, 0xA), (0x87400224, 0x2C), (0x87400225, 0x1), (0x87400228, 0x2C), (0x87400229, 0x1), (0x8740022C, 0xE0), (0x8740022D, 0x93), (0x8740022E, 0x4), (0x8740023C, 0x96), (0x87400250, 0x64)], ry := { lux := [(5, (250, 90))] } }, (2 : Fin 16384), (100 : Nat), ([250] : List Nat), by decide⟩,
    ⟨{ wS [(R.GROUND_STATE_HASH_READY, 1), (R.GROUND_HASH_BASE_BASE, 0x84000000), (R.MAC_PAN_CHAN_HOP_LEN, 16)] with cmp := { tickets := [(9, { role := 1, svc := svcZone, op := 1 })] }, mem := [(0x8000050D, 0x1), (0x80000550, 0xFF), (0x80000551, 0xFF), (0x80000552, 0x3), (0x80000560, 0x2), (0x80000561, 0x80), (0x87400200, 0x1), (0x87400201, 0x3), (0x87400203, 0x2), (0x87400204, 0xE8), (0x87400205, 0x3), (0x87400206, 0xC8), (0x8740020C, 0x78), (0x8740020E, 0x58), (0x8740020F, 0x2), (0x87400210, 0x10), (0x87400211, 0xE), (0x87400212, 0xF4), (0x87400213, 0x1), (0x87400214, 0xA0), (0x87400215, 0xF), (0x87400216, 0x10), (0x87400217, 0x27), (0x87400218, 0x1), (0x8740021A, 0x64), (0x8740021C, 0x14), (0x8740021F, 0x2), (0x87400220, 0x40), (0x87400222, 0xA), (0x87400224, 0x2C), (0x87400225, 0x1), (0x87400228, 0x2C), (0x87400229, 0x1), (0x8740022C, 0xE0), (0x8740022D, 0x93), (0x8740022E, 0x4), (0x87400233, 0x1), (0x87400250, 0x64)], ry := { lux := [(5, (250, 90))] } }, (2 : Fin 16384), (100 : Nat), by decide⟩,
    ⟨{ wS [(R.GROUND_STATE_HASH_READY, 1), (R.GROUND_HASH_BASE_BASE, 0x84000000), (R.MAC_PAN_CHAN_HOP_LEN, 16)] with cmp := { tickets := [(9, { role := 1, svc := svcZone, op := 1 })] }, mem := [(0x8000050D, 0x1), (0x80000550, 0xFF), (0x80000551, 0xFF), (0x80000552, 0x3), (0x80000560, 0x2), (0x80000561, 0x80), (0x87400300, 0x1), (0x87400301, 0x1), (0x87400303, 0x2), (0x87400304, 0xE8), (0x87400305, 0x3), (0x87400306, 0xC8), (0x8740030C, 0x78), (0x8740030E, 0x58), (0x8740030F, 0x2), (0x87400310, 0x10), (0x87400311, 0xE), (0x87400312, 0xF4), (0x87400313, 0x1), (0x87400314, 0xA0), (0x87400315, 0xF), (0x87400316, 0x10), (0x87400317, 0x27), (0x87400318, 0x1), (0x87400350, 0x64)], ry := {  } }, (3 : Fin 16384), (100 : Nat), by decide⟩,
    ⟨{ wS [(R.GROUND_STATE_HASH_READY, 1), (R.GROUND_HASH_BASE_BASE, 0x84000000), (R.MAC_PAN_CHAN_HOP_LEN, 16)] with cmp := { tickets := [(9, { role := 1, svc := svcZone, op := 1 })] }, mem := [(0x8000050D, 0x1), (0x80000550, 0xFF), (0x80000551, 0xFF), (0x80000552, 0x3), (0x80000560, 0x2), (0x80000561, 0x80), (0x87400300, 0x1), (0x87400301, 0x1), (0x87400303, 0x2), (0x87400304, 0xE8), (0x87400305, 0x3), (0x87400306, 0xC8), (0x8740030C, 0x78), (0x8740030E, 0x58), (0x8740030F, 0x2), (0x87400310, 0x10), (0x87400311, 0xE), (0x87400312, 0xF4), (0x87400313, 0x1), (0x87400314, 0xA0), (0x87400315, 0xF), (0x87400316, 0x10), (0x87400317, 0x27), (0x87400350, 0x64)], ry := {  } }, (3 : Fin 16384), (100 : Nat), by decide⟩,
    ⟨{ wS [(R.GROUND_STATE_HASH_READY, 1), (R.GROUND_HASH_BASE_BASE, 0x84000000), (R.MAC_PAN_CHAN_HOP_LEN, 16)] with cmp := { tickets := [(9, { role := 1, svc := svcZone, op := 1 })] }, mem := [(0x8000050D, 0x1), (0x80000550, 0xFF), (0x80000551, 0xFF), (0x80000552, 0x3), (0x80000560, 0x2), (0x80000561, 0x80), (0x87400200, 0x1), (0x87400201, 0x1), (0x87400203, 0x2), (0x87400204, 0xE8), (0x87400205, 0x3), (0x87400206, 0xC8), (0x8740020C, 0x78), (0x8740020E, 0x58), (0x8740020F, 0x2), (0x87400210, 0x10), (0x87400211, 0xE), (0x87400212, 0xF4), (0x87400213, 0x1), (0x87400214, 0xA0), (0x87400215, 0xF), (0x87400216, 0x10), (0x87400217, 0x27), (0x87400234, 0x7), (0x87400236, 0x1), (0x87400238, 0x64), (0x8740023A, 0xF4), (0x8740023B, 0x1)], ry := {  } }, (0 : Fin 16), (20 : Nat), by decide +kernel⟩,
    ⟨{ wS [(R.GROUND_STATE_HASH_READY, 1), (R.GROUND_HASH_BASE_BASE, 0x84000000), (R.MAC_PAN_CHAN_HOP_LEN, 16)] with cmp := { tickets := [(9, { role := 1, svc := svcZone, op := 1 })] }, mem := [(0x8000050D, 0x1), (0x80000550, 0xFF), (0x80000551, 0xFF), (0x80000552, 0x3), (0x80000560, 0x2), (0x80000561, 0x80), (0x87400200, 0x1), (0x87400201, 0x1), (0x87400203, 0x2), (0x87400204, 0xE8), (0x87400205, 0x3), (0x87400206, 0xC8), (0x8740020C, 0x78), (0x8740020E, 0x58), (0x8740020F, 0x2), (0x87400210, 0x10), (0x87400211, 0xE), (0x87400212, 0xF4), (0x87400213, 0x1), (0x87400214, 0xA0), (0x87400215, 0xF), (0x87400216, 0x10), (0x87400217, 0x27), (0x87400236, 0x1)], ry := {  } }, (0 : Fin 16), (20 : Nat), by decide +kernel⟩,
    ⟨wS [], (0 : Fin 16), (0 : Nat), by decide⟩⟩

/-- States and operands that meet the hypotheses of each clause of ZoneService. -/
theorem test_ZoneService_witness :
    (∃ s : State, ∃ k : Nat, ∃ z : Nat, ∃ u : Nat, ∃ p : Nat, ∃ q : ZoneKeys, (s.Inv) ∧ (s.callable k svcZone 2 = true) ∧ (z < 16384 ∧ s.zConf z = false ∧ q.pan.any (fun x => (s.panRec x).isSome) = true ∧ zoneKeysOk q = true ∧ q.pan = some p) ∧ (max s.mtb u + 65536 * secCyc < 2 ^ 64)) ∧
    (∃ s : State, ∃ k : Nat, ∃ z : Nat, ∃ u : Nat, ∃ q : ZoneKeys, (s.Inv) ∧ (s.callable k svcZone 2 = true) ∧ (z < 16384 ∧ s.zConf z = true ∧ (s.panRec (q.pan.getD (s.zPan z))).isSome = true ∧ zoneKeysOk q = true) ∧ (q.pan.getD (s.zPan z) = s.zPan z ∨ s.zMembers z = []) ∧ (max s.mtb u + 65536 * secCyc < 2 ^ 64)) ∧
    (∃ s : State, ∃ k : Nat, ∃ z : Nat, ∃ q : ZoneKeys, (s.Inv) ∧ (s.callable k svcZone 2 = true) ∧ (z < 16384 ∧ s.zConf z = true ∧ (s.panRec (q.pan.getD (s.zPan z))).isSome = true ∧ zoneKeysOk q = true) ∧ (q.pan.getD (s.zPan z) ≠ s.zPan z ∧ s.zMembers z ≠ [])) ∧
    (∃ s : State, ∃ k : Nat, ∃ z : Nat, ∃ q : ZoneKeys, (s.Inv) ∧ (s.callable k svcZone 2 = true) ∧ (16384 ≤ z ∨ (s.zConf z = false ∧ q.pan = none) ∨ (s.panRec (q.pan.getD (s.zPan z))).isNone = true ∨ zoneKeysOk q = false)) ∧
    (∃ s : State, ∃ k : Nat, (s.Inv) ∧ (s.callable k svcZone 2 = false)) ∧
    (∃ s : State, ∃ k : Nat, ∃ z : Nat, ∃ l : List Nat, (s.Inv) ∧ (s.callable k svcZone 3 = true) ∧ (z < 16384 ∧ s.zConf z = true ∧ l.length ≤ 1024) ∧ (s.pr.table.nodeLimit * 256 + (s.region 0).1 ≤ (s.region 7).1 ∨ (s.region 7).1 + 2 ^ 22 ≤ (s.region 0).1) ∧ (l.all (fun n => (s.known n && decide (s.nodePan n = s.zPan z) && ((s.zonesOf n).contains z || (List.range 4).any (fun j => !bitOf (s.recGet n (96 + 2 * j) 2) 15)))) = true)) ∧
    (∃ s : State, ∃ k : Nat, ∃ z : Nat, ∃ n : Nat, ∃ i : Nat, (s.Inv) ∧ (s.callable k svcZone 3 = true) ∧ (z < 16384 ∧ s.zConf z = true ∧ s.known n = true ∧ s.nodePan n = s.zPan z ∧ z ∉ s.zonesOf n) ∧ (i < 4 ∧ bitOf (s.recGet n (96 + 2 * i) 2) 15 = false ∧ (List.range i).all (fun j => bitOf (s.recGet n (96 + 2 * j) 2) 15) = true)) ∧
    (∃ s : State, ∃ k : Nat, ∃ z : Nat, ∃ n : Nat, ∃ l : List Nat, ∃ m : List Nat, (s.Inv) ∧ (s.callable k svcZone 3 = true) ∧ (z < 16384 ∧ s.zConf z = true ∧ l.length + m.length < 1024) ∧ (s.pr.table.nodeLimit * 256 + (s.region 0).1 ≤ (s.region 7).1 ∨ (s.region 7).1 + 2 ^ 22 ≤ (s.region 0).1) ∧ (l.all (fun n => (s.known n && decide (s.nodePan n = s.zPan z) && ((s.zonesOf n).contains z || (List.range 4).any (fun j => !bitOf (s.recGet n (96 + 2 * j) 2) 15)))) = true ∧ (s.known n && decide (s.nodePan n = s.zPan z) && ((s.zonesOf n).contains z || (List.range 4).any (fun j => !bitOf (s.recGet n (96 + 2 * j) 2) 15))) = false)) ∧
    (∃ s : State, ∃ k : Nat, ∃ z : Nat, ∃ l : List Nat, (s.Inv) ∧ (s.callable k svcZone 3 = true) ∧ (16384 ≤ z ∨ 1024 < l.length ∨ s.zConf z = false)) ∧
    (∃ s : State, ∃ k : Nat, (s.Inv) ∧ (s.callable k svcZone 3 = false)) ∧
    (∃ s : State, ∃ k : Nat, ∃ z : Nat, ∃ n : Nat, ∃ j : Nat, ∃ l : List Nat, (s.Inv) ∧ (s.callable k svcZone 4 = true) ∧ (z < 16384 ∧ s.zConf z = true ∧ l.length ≤ 1024) ∧ (s.pr.table.nodeLimit * 256 + (s.region 0).1 ≤ (s.region 7).1 ∨ (s.region 7).1 + 2 ^ 22 ≤ (s.region 0).1) ∧ (n ∈ l ∧ s.known n = true ∧ j < 4 ∧ s.recGet n (96 + 2 * j) 2 = 0x8000 + z ∧ (List.range j).all (fun i => s.recGet n (96 + 2 * i) 2 != 0x8000 + z) = true)) ∧
    (∃ s : State, ∃ k : Nat, ∃ z : Nat, ∃ l : List Nat, (s.Inv) ∧ (s.callable k svcZone 4 = true) ∧ (z < 16384 ∧ s.zConf z = true ∧ l.length ≤ 1024) ∧ (l.any (fun n => s.known n && (s.zonesOf n).contains z) = false)) ∧
    (∃ s : State, ∃ k : Nat, ∃ z : Nat, ∃ l : List Nat, (s.Inv) ∧ (s.callable k svcZone 4 = true) ∧ (16384 ≤ z ∨ 1024 < l.length ∨ s.zConf z = false)) ∧
    (∃ s : State, ∃ k : Nat, (s.Inv) ∧ (s.callable k svcZone 4 = false)) ∧
    (∃ s : State, ∃ k : Nat, ∃ z : Nat, ∃ v : Nat, ∃ d : Nat, (s.Inv) ∧ (s.callable k svcZone 5 = true) ∧ (16384 ≤ z ∨ 1000 < v ∨ 65535 < d ∨ s.zConf z = false)) ∧
    (∃ s : State, ∃ k : Nat, (s.Inv) ∧ (s.callable k svcZone 5 = false)) ∧
    (∃ s : State, ∃ k : Nat, ∃ z : Nat, (s.Inv) ∧ (s.callable k svcZone 6 = true) ∧ (16384 ≤ z ∨ s.zConf z = false ∨ s.zState z ≠ 3)) ∧
    (∃ s : State, ∃ k : Nat, (s.Inv) ∧ (s.callable k svcZone 6 = false)) ∧
    (∃ s : State, ∃ k : Nat, ∃ z : Nat, (s.Inv) ∧ (s.callable k svcZone 8 = true) ∧ (z < 16384 ∧ s.zConf z = true)) ∧
    (∃ s : State, ∃ k : Nat, ∃ z : Nat, (s.Inv) ∧ (s.callable k svcZone 8 = true) ∧ (16384 ≤ z ∨ s.zConf z = false)) ∧
    (∃ s : State, ∃ k : Nat, (s.Inv) ∧ (s.callable k svcZone 8 = false)) :=
  ⟨⟨{ wS [(R.GROUND_STATE_HASH_READY, 1), (R.GROUND_HASH_BASE_BASE, 0x84000000), (R.MAC_PAN_CHAN_HOP_LEN, 16)] with cmp := { tickets := [(9, { role := 1, svc := svcZone, op := 2 })] }, mem := [(0x8000050D, 0x1), (0x80000550, 0xFF), (0x80000551, 0xFF), (0x80000552, 0x3), (0x80000560, 0x2), (0x80000561, 0x80), (0x87400200, 0x1), (0x87400203, 0x2), (0x87400204, 0xE8), (0x87400205, 0x3), (0x87400206, 0xC8), (0x8740020C, 0x78), (0x8740020E, 0x58), (0x8740020F, 0x2), (0x87400210, 0x10), (0x87400211, 0xE), (0x87400212, 0xF4), (0x87400213, 0x1), (0x87400214, 0xA0), (0x87400215, 0xF), (0x87400216, 0x10), (0x87400217, 0x27)], ry := {  } }, (9 : Nat), (3 : Nat), (100 : Nat), (0 : Nat), (⟨some 0, none, none, none, none, none, none⟩ : ZoneKeys), by decide⟩,
    ⟨{ wS [(R.GROUND_STATE_HASH_READY, 1), (R.GROUND_HASH_BASE_BASE, 0x84000000), (R.MAC_PAN_CHAN_HOP_LEN, 16)] with cmp := { tickets := [(9, { role := 1, svc := svcZone, op := 2 })] }, mem := [(0x8000050D, 0x1), (0x80000550, 0xFF), (0x80000551, 0xFF), (0x80000552, 0x3), (0x80000560, 0x2), (0x80000561, 0x80), (0x87400200, 0x1), (0x87400203, 0x2), (0x87400204, 0xE8), (0x87400205, 0x3), (0x87400206, 0xC8), (0x8740020C, 0x78), (0x8740020E, 0x58), (0x8740020F, 0x2), (0x87400210, 0x10), (0x87400211, 0xE), (0x87400212, 0xF4), (0x87400213, 0x1), (0x87400214, 0xA0), (0x87400215, 0xF), (0x87400216, 0x10), (0x87400217, 0x27)], ry := {  } }, (9 : Nat), (2 : Nat), (100 : Nat), (⟨none, some [1000, 0, 5], none, none, none, none, some 3⟩ : ZoneKeys), by decide⟩,
    ⟨{ wS [(R.GROUND_STATE_HASH_READY, 1), (R.GROUND_HASH_BASE_BASE, 0x84000000), (R.MAC_PAN_CHAN_HOP_LEN, 16)] with cmp := { tickets := [(9, { role := 1, svc := svcZone, op := 2 })] }, mem := [(0x8000050D, 0x1), (0x80000550, 0xFF), (0x80000551, 0xFF), (0x80000552, 0x3), (0x80000560, 0x2), (0x80000561, 0x80), (0x87400200, 0x1), (0x87400203, 0x2), (0x87400204, 0xE8), (0x87400205, 0x3), (0x87400206, 0xC8), (0x8740020C, 0x78), (0x8740020E, 0x58), (0x8740020F, 0x2), (0x87400210, 0x10), (0x87400211, 0xE), (0x87400212, 0xF4), (0x87400213, 0x1), (0x87400214, 0xA0), (0x87400215, 0xF), (0x87400216, 0x10), (0x87400217, 0x27)], ry := {  } }, (9 : Nat), (2 : Nat), (⟨some 1, none, none, none, none, none, none⟩ : ZoneKeys), by decide⟩,
    ⟨{ wS [(R.GROUND_STATE_HASH_READY, 1), (R.GROUND_HASH_BASE_BASE, 0x84000000), (R.MAC_PAN_CHAN_HOP_LEN, 16)] with cmp := { tickets := [(9, { role := 1, svc := svcZone, op := 2 })] }, mem := [(0x8000050D, 0x1), (0x80000550, 0xFF), (0x80000551, 0xFF), (0x80000552, 0x3), (0x80000560, 0x2), (0x80000561, 0x80), (0x87400200, 0x1), (0x87400203, 0x2), (0x87400204, 0xE8), (0x87400205, 0x3), (0x87400206, 0xC8), (0x8740020C, 0x78), (0x8740020E, 0x58), (0x8740020F, 0x2), (0x87400210, 0x10), (0x87400211, 0xE), (0x87400212, 0xF4), (0x87400213, 0x1), (0x87400214, 0xA0), (0x87400215, 0xF), (0x87400216, 0x10), (0x87400217, 0x27)], ry := {  } }, (9 : Nat), (2 : Nat), (⟨some 0, some [1001, 0, 0], none, none, none, none, none⟩ : ZoneKeys), by decide⟩,
    ⟨wS [], (9 : Nat), by decide⟩,
    ⟨{ wS [(R.GROUND_STATE_HASH_READY, 1), (R.GROUND_HASH_BASE_BASE, 0x84000000), (R.MAC_PAN_CHAN_HOP_LEN, 16)] with cmp := { tickets := [(9, { role := 1, svc := svcZone, op := 3 })] }, mem := [(0x8000050D, 0x1), (0x80000550, 0xFF), (0x80000551, 0xFF), (0x80000552, 0x3), (0x87400200, 0x1), (0x87400203, 0x2), (0x87400204, 0xE8), (0x87400205, 0x3), (0x87400206, 0xC8), (0x8740020C, 0x78), (0x8740020E, 0x58), (0x8740020F, 0x2), (0x87400210, 0x10), (0x87400211, 0xE), (0x87400212, 0xF4), (0x87400213, 0x1), (0x87400214, 0xA0), (0x87400215, 0xF), (0x87400216, 0x10), (0x87400217, 0x27)], ry := {  } }, (9 : Nat), (2 : Nat), ([5] : List Nat), by decide⟩,
    ⟨{ wS [(R.GROUND_STATE_HASH_READY, 1), (R.GROUND_HASH_BASE_BASE, 0x84000000), (R.MAC_PAN_CHAN_HOP_LEN, 16)] with cmp := { tickets := [(9, { role := 1, svc := svcZone, op := 3 })] }, mem := [(0x8000050D, 0x1), (0x80000550, 0xFF), (0x80000551, 0xFF), (0x80000552, 0x3), (0x87400200, 0x1), (0x87400203, 0x2), (0x87400204, 0xE8), (0x87400205, 0x3), (0x87400206, 0xC8), (0x8740020C, 0x78), (0x8740020E, 0x58), (0x8740020F, 0x2), (0x87400210, 0x10), (0x87400211, 0xE), (0x87400212, 0xF4), (0x87400213, 0x1), (0x87400214, 0xA0), (0x87400215, 0xF), (0x87400216, 0x10), (0x87400217, 0x27)], ry := {  } }, (9 : Nat), (2 : Nat), (5 : Nat), (0 : Nat), by decide⟩,
    ⟨{ wS [(R.GROUND_STATE_HASH_READY, 1), (R.GROUND_HASH_BASE_BASE, 0x84000000), (R.MAC_PAN_CHAN_HOP_LEN, 16)] with cmp := { tickets := [(9, { role := 1, svc := svcZone, op := 3 })] }, mem := [(0x8000050D, 0x1), (0x80000550, 0xFF), (0x80000551, 0xFF), (0x80000552, 0x3), (0x87400200, 0x1), (0x87400203, 0x2), (0x87400204, 0xE8), (0x87400205, 0x3), (0x87400206, 0xC8), (0x8740020C, 0x78), (0x8740020E, 0x58), (0x8740020F, 0x2), (0x87400210, 0x10), (0x87400211, 0xE), (0x87400212, 0xF4), (0x87400213, 0x1), (0x87400214, 0xA0), (0x87400215, 0xF), (0x87400216, 0x10), (0x87400217, 0x27)], ry := {  } }, (9 : Nat), (2 : Nat), (6 : Nat), ([] : List Nat), ([5] : List Nat), by decide⟩,
    ⟨{ wS [(R.GROUND_STATE_HASH_READY, 1), (R.GROUND_HASH_BASE_BASE, 0x84000000), (R.MAC_PAN_CHAN_HOP_LEN, 16)] with cmp := { tickets := [(9, { role := 1, svc := svcZone, op := 3 })] }, mem := [(0x8000050D, 0x1), (0x80000550, 0xFF), (0x80000551, 0xFF), (0x80000552, 0x3), (0x80000560, 0x2), (0x80000561, 0x80), (0x87400200, 0x1), (0x87400203, 0x2), (0x87400204, 0xE8), (0x87400205, 0x3), (0x87400206, 0xC8), (0x8740020C, 0x78), (0x8740020E, 0x58), (0x8740020F, 0x2), (0x87400210, 0x10), (0x87400211, 0xE), (0x87400212, 0xF4), (0x87400213, 0x1), (0x87400214, 0xA0), (0x87400215, 0xF), (0x87400216, 0x10), (0x87400217, 0x27)], ry := {  } }, (9 : Nat), (3 : Nat), ([5] : List Nat), by decide⟩,
    ⟨wS [], (9 : Nat), by decide⟩,
    ⟨{ wS [(R.GROUND_STATE_HASH_READY, 1), (R.GROUND_HASH_BASE_BASE, 0x84000000), (R.MAC_PAN_CHAN_HOP_LEN, 16)] with cmp := { tickets := [(9, { role := 1, svc := svcZone, op := 4 })] }, mem := [(0x8000050D, 0x1), (0x80000550, 0xFF), (0x80000551, 0xFF), (0x80000552, 0x3), (0x80000560, 0x2), (0x80000561, 0x80), (0x87400200, 0x1), (0x87400203, 0x2), (0x87400204, 0xE8), (0x87400205, 0x3), (0x87400206, 0xC8), (0x8740020C, 0x78), (0x8740020E, 0x58), (0x8740020F, 0x2), (0x87400210, 0x10), (0x87400211, 0xE), (0x87400212, 0xF4), (0x87400213, 0x1), (0x87400214, 0xA0), (0x87400215, 0xF), (0x87400216, 0x10), (0x87400217, 0x27)], ry := {  } }, (9 : Nat), (2 : Nat), (5 : Nat), (0 : Nat), ([5, 6] : List Nat), by decide⟩,
    ⟨{ wS [(R.GROUND_STATE_HASH_READY, 1), (R.GROUND_HASH_BASE_BASE, 0x84000000), (R.MAC_PAN_CHAN_HOP_LEN, 16)] with cmp := { tickets := [(9, { role := 1, svc := svcZone, op := 4 })] }, mem := [(0x8000050D, 0x1), (0x80000550, 0xFF), (0x80000551, 0xFF), (0x80000552, 0x3), (0x80000560, 0x2), (0x80000561, 0x80), (0x87400300, 0x1), (0x87400303, 0x2), (0x87400304, 0xE8), (0x87400305, 0x3), (0x87400306, 0xC8), (0x8740030C, 0x78), (0x8740030E, 0x58), (0x8740030F, 0x2), (0x87400310, 0x10), (0x87400311, 0xE), (0x87400312, 0xF4), (0x87400313, 0x1), (0x87400314, 0xA0), (0x87400315, 0xF), (0x87400316, 0x10), (0x87400317, 0x27)], ry := {  } }, (9 : Nat), (3 : Nat), ([5, 6] : List Nat), by decide⟩,
    ⟨{ wS [(R.GROUND_STATE_HASH_READY, 1), (R.GROUND_HASH_BASE_BASE, 0x84000000), (R.MAC_PAN_CHAN_HOP_LEN, 16)] with cmp := { tickets := [(9, { role := 1, svc := svcZone, op := 4 })] }, mem := [(0x8000050D, 0x1), (0x80000550, 0xFF), (0x80000551, 0xFF), (0x80000552, 0x3), (0x80000560, 0x2), (0x80000561, 0x80), (0x87400200, 0x1), (0x87400203, 0x2), (0x87400204, 0xE8), (0x87400205, 0x3), (0x87400206, 0xC8), (0x8740020C, 0x78), (0x8740020E, 0x58), (0x8740020F, 0x2), (0x87400210, 0x10), (0x87400211, 0xE), (0x87400212, 0xF4), (0x87400213, 0x1), (0x87400214, 0xA0), (0x87400215, 0xF), (0x87400216, 0x10), (0x87400217, 0x27)], ry := {  } }, (9 : Nat), (3 : Nat), ([5] : List Nat), by decide⟩,
    ⟨wS [], (9 : Nat), by decide⟩,
    ⟨{ wS [(R.GROUND_STATE_HASH_READY, 1), (R.GROUND_HASH_BASE_BASE, 0x84000000), (R.MAC_PAN_CHAN_HOP_LEN, 16)] with cmp := { tickets := [(9, { role := 1, svc := svcZone, op := 5 })] }, mem := [(0x8000050D, 0x1), (0x80000550, 0xFF), (0x80000551, 0xFF), (0x80000552, 0x3), (0x80000560, 0x2), (0x80000561, 0x80), (0x87400200, 0x1), (0x87400203, 0x2), (0x87400204, 0xE8), (0x87400205, 0x3), (0x87400206, 0xC8), (0x8740020C, 0x78), (0x8740020E, 0x58), (0x8740020F, 0x2), (0x87400210, 0x10), (0x87400211, 0xE), (0x87400212, 0xF4), (0x87400213, 0x1), (0x87400214, 0xA0), (0x87400215, 0xF), (0x87400216, 0x10), (0x87400217, 0x27)], ry := {  } }, (9 : Nat), (3 : Nat), (300 : Nat), (0 : Nat), by decide⟩,
    ⟨wS [], (9 : Nat), by decide⟩,
    ⟨{ wS [(R.GROUND_STATE_HASH_READY, 1), (R.GROUND_HASH_BASE_BASE, 0x84000000), (R.MAC_PAN_CHAN_HOP_LEN, 16)] with cmp := { tickets := [(9, { role := 1, svc := svcZone, op := 6 })] }, mem := [(0x8000050D, 0x1), (0x80000550, 0xFF), (0x80000551, 0xFF), (0x80000552, 0x3), (0x80000560, 0x2), (0x80000561, 0x80), (0x87400200, 0x1), (0x87400201, 0x1), (0x87400203, 0x2), (0x87400204, 0xE8), (0x87400205, 0x3), (0x87400206, 0xC8), (0x8740020C, 0x78), (0x8740020E, 0x58), (0x8740020F, 0x2), (0x87400210, 0x10), (0x87400211, 0xE), (0x87400212, 0xF4), (0x87400213, 0x1), (0x87400214, 0xA0), (0x87400215, 0xF), (0x87400216, 0x10), (0x87400217, 0x27)], ry := {  } }, (9 : Nat), (2 : Nat), by decide⟩,
    ⟨wS [], (9 : Nat), by decide⟩,
    ⟨{ wS [(R.GROUND_STATE_HASH_READY, 1), (R.GROUND_HASH_BASE_BASE, 0x84000000), (R.MAC_PAN_CHAN_HOP_LEN, 16)] with cmp := { tickets := [(9, { role := 1, svc := svcZone, op := 8 })] }, mem := [(0x8000050D, 0x1), (0x80000550, 0xFF), (0x80000551, 0xFF), (0x80000552, 0x3), (0x80000560, 0x2), (0x80000561, 0x80), (0x87400200, 0x1), (0x87400201, 0x1), (0x87400203, 0x2), (0x87400204, 0xE8), (0x87400205, 0x3), (0x87400206, 0xC8), (0x8740020C, 0x78), (0x8740020E, 0x58), (0x8740020F, 0x2), (0x87400210, 0x10), (0x87400211, 0xE), (0x87400212, 0xF4), (0x87400213, 0x1), (0x87400214, 0xA0), (0x87400215, 0xF), (0x87400216, 0x10), (0x87400217, 0x27)], ry := {  } }, (9 : Nat), (2 : Nat), by decide⟩,
    ⟨{ wS [(R.GROUND_STATE_HASH_READY, 1), (R.GROUND_HASH_BASE_BASE, 0x84000000), (R.MAC_PAN_CHAN_HOP_LEN, 16)] with cmp := { tickets := [(9, { role := 1, svc := svcZone, op := 8 })] }, mem := [(0x8000050D, 0x1), (0x80000550, 0xFF), (0x80000551, 0xFF), (0x80000552, 0x3), (0x80000560, 0x2), (0x80000561, 0x80), (0x87400200, 0x1), (0x87400201, 0x1), (0x87400203, 0x2), (0x87400204, 0xE8), (0x87400205, 0x3), (0x87400206, 0xC8), (0x8740020C, 0x78), (0x8740020E, 0x58), (0x8740020F, 0x2), (0x87400210, 0x10), (0x87400211, 0xE), (0x87400212, 0xF4), (0x87400213, 0x1), (0x87400214, 0xA0), (0x87400215, 0xF), (0x87400216, 0x10), (0x87400217, 0x27)], ry := {  } }, (9 : Nat), (3 : Nat), by decide⟩,
    ⟨wS [], (9 : Nat), by decide⟩⟩

/-- States and operands that meet the hypotheses of each clause of KeyChanges. -/
theorem test_KeyChanges_witness :
    (∃ s : State, ∃ r : KeyReq, ∃ b : KeyBlk, ∃ v : Nat, (s.Inv) ∧ (s.keyTurn 1 r = true ∧ s.reqBlk r = b) ∧ (s.keyCheck 1 b = none) ∧ ((if b.slot = 0xFFFF then s.freeSlot else some b.slot) = some v) ∧ (attrPersist b.attr = false)) ∧
    (∃ s : State, ∃ r : KeyReq, ∃ b : KeyBlk, ∃ v : Nat, (s.Inv) ∧ (s.keyTurn 1 r = true ∧ s.reqBlk r = b) ∧ (s.keyCheck 1 b = none) ∧ ((if b.slot = 0xFFFF then s.freeSlot else some b.slot) = some v) ∧ (attrPersist b.attr = true)) ∧
    (∃ s : State, ∃ r : KeyReq, ∃ b : KeyBlk, ∃ st : Nat, (s.Inv) ∧ (s.keyHead 1 r = true ∧ s.reqBlk r = b ∧ s.keyCheck b.op b = some st)) ∧
    (∃ s : State, ∃ r : KeyReq, ∃ b : KeyBlk, (s.Inv) ∧ (s.keyHead 1 r = true ∧ s.reqBlk r = b ∧ b.op = 1 ∧ s.keyCheck 1 b = none ∧ s.auditRoom = false)) ∧
    (∃ s : State, (s.Inv) ∧ (s.ky.fifo.head?.all (fun r => !s.keyHead 1 r) = true)) ∧
    (∃ s : State, ∃ a : Nat, (s.Inv) ∧ (s.keyTurn 1 (.blk a) = true ∧ s.keyCheck 1 (s.keyBlkAt a) = none) ∧ (attrPersist (s.keyBlkAt a).attr = false)) ∧
    (∃ s : State, ∃ r : KeyReq, ∃ b : KeyBlk, ∃ v : Nat, (s.Inv) ∧ (s.keyTurn 2 r = true ∧ s.reqBlk r = b) ∧ (s.keyCheck 2 b = none) ∧ ((if b.slot = 0xFFFF then s.freeSlot else some b.slot) = some v) ∧ (attrPersist b.attr = false)) ∧
    (∃ s : State, ∃ r : KeyReq, ∃ b : KeyBlk, ∃ v : Nat, (s.Inv) ∧ (s.keyTurn 2 r = true ∧ s.reqBlk r = b) ∧ (s.keyCheck 2 b = none) ∧ ((if b.slot = 0xFFFF then s.freeSlot else some b.slot) = some v) ∧ (attrPersist b.attr = true)) ∧
    (∃ s : State, ∃ r : KeyReq, ∃ b : KeyBlk, ∃ v : Nat, (s.Inv) ∧ (s.keyTurn 2 r = true ∧ s.reqBlk r = b) ∧ (s.keyCheck 2 b = none) ∧ ((if b.slot = 0xFFFF then s.freeSlot else some b.slot) = some v) ∧ (attrPersist b.attr = false ∧ b.slot2 = 0xFFFF)) ∧
    (∃ s : State, ∃ r : KeyReq, ∃ b : KeyBlk, ∃ st : Nat, (s.Inv) ∧ (s.keyHead 2 r = true ∧ s.reqBlk r = b ∧ s.keyCheck b.op b = some st)) ∧
    (∃ s : State, ∃ r : KeyReq, ∃ b : KeyBlk, (s.Inv) ∧ (s.keyHead 2 r = true ∧ s.reqBlk r = b ∧ b.op = 2 ∧ s.keyCheck 2 b = none ∧ s.auditRoom = false)) ∧
    (∃ s : State, (s.Inv) ∧ (s.ky.fifo.head?.all (fun r => !s.keyHead 2 r) = true)) ∧
    (∃ s : State, ∃ r : KeyReq, ∃ b : KeyBlk, ∃ v : Nat, ∃ q : KeySlot, (s.Inv) ∧ (s.keyTurn 3 r = true ∧ s.reqBlk r = b) ∧ (s.keyCheck 3 b = none) ∧ ((if b.slot = 0xFFFF then s.freeSlot else some b.slot) = some v) ∧ (s.keySlot b.slot2 = some q)) ∧
    (∃ s : State, ∃ r : KeyReq, ∃ b : KeyBlk, ∃ st : Nat, (s.Inv) ∧ (s.keyHead 3 r = true ∧ s.reqBlk r = b ∧ s.keyCheck b.op b = some st)) ∧
    (∃ s : State, ∃ r : KeyReq, ∃ b : KeyBlk, (s.Inv) ∧ (s.keyHead 3 r = true ∧ s.reqBlk r = b ∧ b.op = 3 ∧ s.keyCheck 3 b = none ∧ s.auditRoom = false)) ∧
    (∃ s : State, (s.Inv) ∧ (s.ky.fifo.head?.all (fun r => !s.keyHead 3 r) = true)) ∧
    (∃ s : State, ∃ r : KeyReq, ∃ b : KeyBlk, ∃ p : KeySlot, ∃ q : KeySlot, (s.Inv) ∧ (s.keyTurn 4 r = true ∧ s.reqBlk r = b) ∧ (s.keyCheck 4 b = none) ∧ (s.keySlot b.slot = some p ∧ s.keySlot b.slot2 = some q)) ∧
    (∃ s : State, ∃ r : KeyReq, ∃ b : KeyBlk, ∃ st : Nat, (s.Inv) ∧ (s.keyHead 4 r = true ∧ s.reqBlk r = b ∧ s.keyCheck b.op b = some st)) ∧
    (∃ s : State, (s.Inv) ∧ (s.ky.fifo.head?.all (fun r => !s.keyHead 4 r) = true)) ∧
    (∃ s : State, ∃ r : KeyReq, ∃ b : KeyBlk, ∃ p : KeySlot, (s.Inv) ∧ (s.keyTurn 5 r = true ∧ s.reqBlk r = b) ∧ (s.keyCheck 5 b = none) ∧ (s.keySlot b.slot = some p) ∧ (attrPersist p.attr = false ∧ p.attr < 2 ^ 32)) ∧
    (∃ s : State, ∃ r : KeyReq, ∃ b : KeyBlk, ∃ p : KeySlot, (s.Inv) ∧ (s.keyTurn 5 r = true ∧ s.reqBlk r = b) ∧ (s.keyCheck 5 b = none) ∧ (s.keySlot b.slot = some p) ∧ (attrPersist p.attr = true ∧ p.attr < 2 ^ 32)) ∧
    (∃ s : State, ∃ r : KeyReq, ∃ b : KeyBlk, ∃ st : Nat, (s.Inv) ∧ (s.keyHead 5 r = true ∧ s.reqBlk r = b ∧ s.keyCheck b.op b = some st)) ∧
    (∃ s : State, ∃ r : KeyReq, ∃ b : KeyBlk, (s.Inv) ∧ (s.keyHead 5 r = true ∧ s.reqBlk r = b ∧ b.op = 5 ∧ s.keyCheck 5 b = none ∧ s.auditRoom = false)) ∧
    (∃ s : State, (s.Inv) ∧ (s.ky.fifo.head?.all (fun r => !s.keyHead 5 r) = true)) ∧
    (∃ s : State, ∃ r : KeyReq, ∃ b : KeyBlk, ∃ p : KeySlot, (s.Inv) ∧ (s.keyTurn 6 r = true ∧ s.reqBlk r = b) ∧ (s.keyCheck 6 b = none) ∧ (s.keySlot b.slot = some p)) ∧
    (∃ s : State, ∃ r : KeyReq, ∃ b : KeyBlk, ∃ st : Nat, (s.Inv) ∧ (s.keyHead 6 r = true ∧ s.reqBlk r = b ∧ s.keyCheck b.op b = some st)) ∧
    (∃ s : State, ∃ r : KeyReq, ∃ b : KeyBlk, (s.Inv) ∧ (s.keyHead 6 r = true ∧ s.reqBlk r = b ∧ b.op = 6 ∧ s.keyCheck 6 b = none ∧ s.auditRoom = false)) ∧
    (∃ s : State, (s.Inv) ∧ (s.ky.fifo.head?.all (fun r => !s.keyHead 6 r) = true)) :=
  ⟨⟨{ wS [(R.KEY_STATE_DRBG_OK, 1)] with cmp := { tickets := [(7, { role := 1, svc := svcKey, op := 1 })] }, ky := { fifo := [.call 7 ⟨1, 9, 10, 493568, 0, 0, [], 0, 0, false⟩], slots := [] } }, (.call 7 ⟨1, 9, 10, 493568, 0, 0, [], 0, 0, false⟩ : KeyReq), (⟨1, 9, 10, 493568, 0, 0, [], 0, 0, false⟩ : KeyBlk), (9 : Nat), by decide⟩,
    ⟨{ wS [(R.KEY_STATE_DRBG_OK, 1), (R.TAMPER_STATE_OWNER, 1)] with cmp := { tickets := [(7, { role := 1, svc := svcKey, op := 1 })] }, ky := { fifo := [.call 7 ⟨1, 9, 10, 509952, 0, 0, [], 0, 0, false⟩], slots := [] } }, (.call 7 ⟨1, 9, 10, 509952, 0, 0, [], 0, 0, false⟩ : KeyReq), (⟨1, 9, 10, 509952, 0, 0, [], 0, 0, false⟩ : KeyBlk), (9 : Nat), by decide⟩,
    ⟨{ wS [(R.KEY_STATE_DRBG_OK, 1)] with cmp := { tickets := [(7, { role := 1, svc := svcKey, op := 1 })] }, ky := { fifo := [.call 7 ⟨1, 9, 10, 1, 0, 0, [], 0, 0, false⟩], slots := [] } }, (.call 7 ⟨1, 9, 10, 1, 0, 0, [], 0, 0, false⟩ : KeyReq), (⟨1, 9, 10, 1, 0, 0, [], 0, 0, false⟩ : KeyBlk), (ST.KEY_RANGE : Nat), by decide⟩,
    ⟨{ wS [(R.KEY_STATE_DRBG_OK, 1)] with cmp := { tickets := [(7, { role := 1, svc := svcKey, op := 1 })] }, ky := { fifo := [.call 7 ⟨1, 9, 10, 0, 0, 0, [], 0, 0, false⟩], slots := [] }, ro := { closed := [[], []] } }, (.call 7 ⟨1, 9, 10, 0, 0, 0, [], 0, 0, false⟩ : KeyReq), (⟨1, 9, 10, 0, 0, 0, [], 0, 0, false⟩ : KeyBlk), by decide⟩,
    ⟨wS [], by decide⟩,
    ⟨{ wS [(R.KEY_STATE_DRBG_OK, 1)] with ky := { fifo := [.blk 0x80000000] }, mem := [(0x80000000, 1), (0x80000004, 9)] }, (0x80000000 : Nat), by decide⟩,
    ⟨{ wS [(R.KEY_STATE_DRBG_OK, 1)] with cmp := { tickets := [(7, { role := 1, svc := svcKey, op := 1 })] }, ky := { fifo := [.call 7 ⟨2, 9, 10, 0, 0, 2147483648, [5], 0, 0, false⟩], slots := [(10, { attr := 0x80000, mat := 6 })] } }, (.call 7 ⟨2, 9, 10, 0, 0, 2147483648, [5], 0, 0, false⟩ : KeyReq), (⟨2, 9, 10, 0, 0, 2147483648, [5], 0, 0, false⟩ : KeyBlk), (9 : Nat), by decide⟩,
    ⟨{ wS [(R.KEY_STATE_DRBG_OK, 1), (R.TAMPER_STATE_OWNER, 1)] with cmp := { tickets := [(7, { role := 1, svc := svcKey, op := 1 })] }, ky := { fifo := [.call 7 ⟨2, 9, 10, 16384, 0, 2147483648, [5], 0, 0, false⟩], slots := [(10, { attr := 0x80000, mat := 6 })] } }, (.call 7 ⟨2, 9, 10, 16384, 0, 2147483648, [5], 0, 0, false⟩ : KeyReq), (⟨2, 9, 10, 16384, 0, 2147483648, [5], 0, 0, false⟩ : KeyBlk), (9 : Nat), by decide⟩,
    ⟨{ wS [(R.KEY_STATE_DRBG_OK, 1), (R.TAMPER_STATE_OWNER, 1)] with cmp := { tickets := [(7, { role := 1, svc := svcKey, op := 1 })] }, ky := { fifo := [.call 7 ⟨2, 9, 65535, 0, 0, 2147483648, [5], 0, 0, false⟩], slots := [] } }, (.call 7 ⟨2, 9, 65535, 0, 0, 2147483648, [5], 0, 0, false⟩ : KeyReq), (⟨2, 9, 65535, 0, 0, 2147483648, [5], 0, 0, false⟩ : KeyBlk), (9 : Nat), by decide⟩,
    ⟨{ wS [(R.KEY_STATE_DRBG_OK, 1)] with cmp := { tickets := [(7, { role := 1, svc := svcKey, op := 1 })] }, ky := { fifo := [.call 7 ⟨2, 9, 10, 0, 0, 0, [], 0, 0, true⟩], slots := [] } }, (.call 7 ⟨2, 9, 10, 0, 0, 0, [], 0, 0, true⟩ : KeyReq), (⟨2, 9, 10, 0, 0, 0, [], 0, 0, true⟩ : KeyBlk), (ST.KEY_RANGE : Nat), by decide⟩,
    ⟨{ wS [(R.KEY_STATE_DRBG_OK, 1), (R.TAMPER_STATE_OWNER, 1)] with cmp := { tickets := [(7, { role := 1, svc := svcKey, op := 1 })] }, ky := { fifo := [.call 7 ⟨2, 9, 65535, 0, 0, 2147483648, [5], 0, 0, false⟩], slots := [] }, ro := { closed := [[], []] } }, (.call 7 ⟨2, 9, 65535, 0, 0, 2147483648, [5], 0, 0, false⟩ : KeyReq), (⟨2, 9, 65535, 0, 0, 2147483648, [5], 0, 0, false⟩ : KeyBlk), by decide⟩,
    ⟨wS [], by decide⟩,
    ⟨{ wS [(R.KEY_STATE_DRBG_OK, 1)] with cmp := { tickets := [(7, { role := 1, svc := svcKey, op := 1 })] }, ky := { fifo := [.call 7 ⟨3, 9, 10, 0, 0, 2147483648, (List.replicate 24 7), 0, 0, false⟩], slots := [(10, { attr := 0x40000, mat := 6 })] } }, (.call 7 ⟨3, 9, 10, 0, 0, 2147483648, (List.replicate 24 7), 0, 0, false⟩ : KeyReq), (⟨3, 9, 10, 0, 0, 2147483648, (List.replicate 24 7), 0, 0, false⟩ : KeyBlk), (9 : Nat), ({ attr := 0x40000, mat := 6 } : KeySlot), by decide⟩,
    ⟨{ wS [(R.KEY_STATE_DRBG_OK, 1)] with cmp := { tickets := [(7, { role := 1, svc := svcKey, op := 1 })] }, ky := { fifo := [.call 7 ⟨3, 9, 10, 0, 0, 0, [], 0, 0, true⟩], slots := [] } }, (.call 7 ⟨3, 9, 10, 0, 0, 0, [], 0, 0, true⟩ : KeyReq), (⟨3, 9, 10, 0, 0, 0, [], 0, 0, true⟩ : KeyBlk), (ST.KEY_RANGE : Nat), by decide⟩,
    ⟨{ wS [(R.KEY_STATE_DRBG_OK, 1)] with cmp := { tickets := [(7, { role := 1, svc := svcKey, op := 1 })] }, ky := { fifo := [.call 7 ⟨3, 9, 10, 0, 0, 2147483648, (List.replicate 24 7), 0, 0, false⟩], slots := [(10, { attr := 0x40000, mat := 6 })] }, ro := { closed := [[], []] } }, (.call 7 ⟨3, 9, 10, 0, 0, 2147483648, (List.replicate 24 7), 0, 0, false⟩ : KeyReq), (⟨3, 9, 10, 0, 0, 2147483648, (List.replicate 24 7), 0, 0, false⟩ : KeyBlk), by decide⟩,
    ⟨wS [], by decide⟩,
    ⟨{ wS [(R.KEY_STATE_DRBG_OK, 1)] with cmp := { tickets := [(7, { role := 1, svc := svcKey, op := 1 })] }, ky := { fifo := [.call 7 ⟨4, 9, 10, 0, 0, 0, [], 24, 2147483648, false⟩], slots := [(9, { attr := 0x8000, mat := 5 }), (10, { attr := 0x20000, mat := 6 })] } }, (.call 7 ⟨4, 9, 10, 0, 0, 0, [], 24, 2147483648, false⟩ : KeyReq), (⟨4, 9, 10, 0, 0, 0, [], 24, 2147483648, false⟩ : KeyBlk), ({ attr := 0x8000, mat := 5 } : KeySlot), ({ attr := 0x20000, mat := 6 } : KeySlot), by decide⟩,
    ⟨{ wS [(R.KEY_STATE_DRBG_OK, 1)] with cmp := { tickets := [(7, { role := 1, svc := svcKey, op := 1 })] }, ky := { fifo := [.call 7 ⟨4, 9, 10, 0, 0, 0, [], 0, 0, true⟩], slots := [] } }, (.call 7 ⟨4, 9, 10, 0, 0, 0, [], 0, 0, true⟩ : KeyReq), (⟨4, 9, 10, 0, 0, 0, [], 0, 0, true⟩ : KeyBlk), (ST.KEY_RANGE : Nat), by decide⟩,
    ⟨wS [], by decide⟩,
    ⟨{ wS [(R.KEY_STATE_DRBG_OK, 1)] with cmp := { tickets := [(7, { role := 1, svc := svcKey, op := 1 })] }, ky := { fifo := [.call 7 ⟨5, 9, 10, 133120, 0, 0, [], 0, 0, false⟩], slots := [(9, { attr := 0x88BF8800, mat := 5 })] } }, (.call 7 ⟨5, 9, 10, 133120, 0, 0, [], 0, 0, false⟩ : KeyReq), (⟨5, 9, 10, 133120, 0, 0, [], 0, 0, false⟩ : KeyBlk), ({ attr := 0x88BF8800, mat := 5 } : KeySlot), by decide⟩,
    ⟨{ wS [(R.KEY_STATE_DRBG_OK, 1), (R.TAMPER_STATE_OWNER, 1)] with cmp := { tickets := [(7, { role := 1, svc := svcKey, op := 1 })] }, ky := { fifo := [.call 7 ⟨5, 9, 10, 133120, 0, 0, [], 0, 0, false⟩], slots := [(9, { attr := 0x88BFC800, mat := 5 })] } }, (.call 7 ⟨5, 9, 10, 133120, 0, 0, [], 0, 0, false⟩ : KeyReq), (⟨5, 9, 10, 133120, 0, 0, [], 0, 0, false⟩ : KeyBlk), ({ attr := 0x88BFC800, mat := 5 } : KeySlot), by decide⟩,
    ⟨{ wS [(R.KEY_STATE_DRBG_OK, 1)] with cmp := { tickets := [(7, { role := 1, svc := svcKey, op := 1 })] }, ky := { fifo := [.call 7 ⟨5, 9, 10, 0, 0, 0, [], 0, 0, true⟩], slots := [] } }, (.call 7 ⟨5, 9, 10, 0, 0, 0, [], 0, 0, true⟩ : KeyReq), (⟨5, 9, 10, 0, 0, 0, [], 0, 0, true⟩ : KeyBlk), (ST.KEY_RANGE : Nat), by decide⟩,
    ⟨{ wS [(R.KEY_STATE_DRBG_OK, 1)] with cmp := { tickets := [(7, { role := 1, svc := svcKey, op := 1 })] }, ky := { fifo := [.call 7 ⟨5, 9, 10, 0, 0, 0, [], 0, 0, false⟩], slots := [(9, { attr := 0, mat := 6 })] }, ro := { closed := [[], []] } }, (.call 7 ⟨5, 9, 10, 0, 0, 0, [], 0, 0, false⟩ : KeyReq), (⟨5, 9, 10, 0, 0, 0, [], 0, 0, false⟩ : KeyBlk), by decide⟩,
    ⟨wS [], by decide⟩,
    ⟨{ wS [(R.KEY_STATE_DRBG_OK, 1)] with cmp := { tickets := [(7, { role := 1, svc := svcKey, op := 1 })] }, ky := { fifo := [.call 7 ⟨6, 9, 10, 0, 0, 0, [], 0, 0, false⟩], slots := [(9, { attr := 0, mat := 5 })] } }, (.call 7 ⟨6, 9, 10, 0, 0, 0, [], 0, 0, false⟩ : KeyReq), (⟨6, 9, 10, 0, 0, 0, [], 0, 0, false⟩ : KeyBlk), ({ attr := 0, mat := 5 } : KeySlot), by decide⟩,
    ⟨{ wS [(R.KEY_STATE_DRBG_OK, 1)] with cmp := { tickets := [(7, { role := 1, svc := svcKey, op := 1 })] }, ky := { fifo := [.call 7 ⟨6, 9, 10, 0, 0, 0, [], 0, 0, true⟩], slots := [] } }, (.call 7 ⟨6, 9, 10, 0, 0, 0, [], 0, 0, true⟩ : KeyReq), (⟨6, 9, 10, 0, 0, 0, [], 0, 0, true⟩ : KeyBlk), (ST.KEY_RANGE : Nat), by decide⟩,
    ⟨{ wS [(R.KEY_STATE_DRBG_OK, 1)] with cmp := { tickets := [(7, { role := 1, svc := svcKey, op := 1 })] }, ky := { fifo := [.call 7 ⟨6, 9, 10, 0, 0, 0, [], 0, 0, false⟩], slots := [(9, { attr := 0, mat := 6 })] }, ro := { closed := [[], []] } }, (.call 7 ⟨6, 9, 10, 0, 0, 0, [], 0, 0, false⟩ : KeyReq), (⟨6, 9, 10, 0, 0, 0, [], 0, 0, false⟩ : KeyBlk), by decide⟩,
    ⟨wS [], by decide⟩⟩

/-- States and operands that meet the hypotheses of each clause of KeyOperations. -/
theorem test_KeyOperations_witness :
    (∃ s : State, ∃ r : KeyReq, ∃ b : KeyBlk, (s.Inv) ∧ (s.keyTurn 7 r = true ∧ s.reqBlk r = b) ∧ (s.keyCheck 7 b = none) ∧ ((s.keySlot b.slot).isSome = true)) ∧
    (∃ s : State, ∃ r : KeyReq, ∃ b : KeyBlk, ∃ p : KeySlot, (s.Inv) ∧ (s.keyTurn 7 r = true ∧ s.reqBlk r = b) ∧ (s.keyCheck 7 b = none) ∧ (s.keySlot b.slot = some p)) ∧
    (∃ s : State, ∃ r : KeyReq, ∃ b : KeyBlk, ∃ st : Nat, (s.Inv) ∧ (s.keyHead 7 r = true ∧ s.reqBlk r = b ∧ s.keyCheck b.op b = some st)) ∧
    (∃ s : State, (s.Inv) ∧ (s.ky.fifo.head?.all (fun r => !s.keyHead 7 r) = true)) ∧
    (∃ s : State, ∃ r : KeyReq, ∃ b : KeyBlk, ∃ p : KeySlot, (s.Inv) ∧ (s.keyTurn 8 r = true ∧ s.reqBlk r = b) ∧ (s.keyCheck 8 b = none) ∧ (s.keySlot b.slot = some p ∧ (attrType p.attr = 3 ∨ attrType p.attr = 4))) ∧
    (∃ s : State, ∃ r : KeyReq, ∃ b : KeyBlk, ∃ st : Nat, (s.Inv) ∧ (s.keyHead 8 r = true ∧ s.reqBlk r = b ∧ s.keyCheck b.op b = some st)) ∧
    (∃ s : State, (s.Inv) ∧ (s.ky.fifo.head?.all (fun r => !s.keyHead 8 r) = true)) ∧
    (∃ s : State, ∃ r : KeyReq, ∃ b : KeyBlk, ∃ p : KeySlot, (s.Inv) ∧ (s.keyTurn 9 r = true ∧ s.reqBlk r = b) ∧ (s.keyCheck 9 b = none) ∧ (s.keySlot b.slot = some p)) ∧
    (∃ s : State, ∃ r : KeyReq, ∃ b : KeyBlk, ∃ st : Nat, (s.Inv) ∧ (s.keyHead 9 r = true ∧ s.reqBlk r = b ∧ s.keyCheck b.op b = some st)) ∧
    (∃ s : State, (s.Inv) ∧ (s.ky.fifo.head?.all (fun r => !s.keyHead 9 r) = true)) ∧
    (∃ s : State, ∃ r : KeyReq, ∃ b : KeyBlk, ∃ p : KeySlot, (s.Inv) ∧ (s.keyTurn 10 r = true ∧ s.reqBlk r = b) ∧ (s.keyCheck 10 b = none) ∧ (s.keySlot b.slot = some p)) ∧
    (∃ s : State, ∃ r : KeyReq, ∃ b : KeyBlk, ∃ st : Nat, (s.Inv) ∧ (s.keyHead 10 r = true ∧ s.reqBlk r = b ∧ s.keyCheck b.op b = some st)) ∧
    (∃ s : State, (s.Inv) ∧ (s.ky.fifo.head?.all (fun r => !s.keyHead 10 r) = true)) ∧
    (∃ s : State, ∃ r : KeyReq, ∃ b : KeyBlk, (s.Inv) ∧ (s.keyTurn 11 r = true ∧ s.reqBlk r = b) ∧ (s.keyCheck 11 b = none)) ∧
    (∃ s : State, ∃ r : KeyReq, ∃ b : KeyBlk, ∃ st : Nat, (s.Inv) ∧ (s.keyHead 11 r = true ∧ s.reqBlk r = b ∧ s.keyCheck b.op b = some st)) ∧
    (∃ s : State, (s.Inv) ∧ (s.ky.fifo.head?.all (fun r => !s.keyHead 11 r) = true)) ∧
    (∃ s : State, ∃ r : KeyReq, ∃ b : KeyBlk, ∃ v : Nat, ∃ q : KeySlot, (s.Inv) ∧ (s.keyTurn 12 r = true ∧ s.reqBlk r = b) ∧ (s.keyCheck 12 b = none) ∧ ((if b.slot = 0xFFFF then s.freeSlot else some b.slot) = some v) ∧ (s.keySlot b.slot2 = some q)) ∧
    (∃ s : State, ∃ r : KeyReq, ∃ b : KeyBlk, ∃ st : Nat, (s.Inv) ∧ (s.keyHead 12 r = true ∧ s.reqBlk r = b ∧ s.keyCheck b.op b = some st)) ∧
    (∃ s : State, ∃ r : KeyReq, ∃ b : KeyBlk, (s.Inv) ∧ (s.keyHead 12 r = true ∧ s.reqBlk r = b ∧ b.op = 12 ∧ s.keyCheck 12 b = none ∧ s.auditRoom = false)) ∧
    (∃ s : State, (s.Inv) ∧ (s.ky.fifo.head?.all (fun r => !s.keyHead 12 r) = true)) ∧
    (∃ s : State, ∃ r : KeyReq, ∃ b : KeyBlk, ∃ p : KeySlot, (s.Inv) ∧ (s.keyTurn 13 r = true ∧ s.reqBlk r = b) ∧ (s.keyCheck 13 b = none) ∧ (s.keySlot b.slot = some p)) ∧
    (∃ s : State, ∃ r : KeyReq, ∃ b : KeyBlk, ∃ st : Nat, (s.Inv) ∧ (s.keyHead 13 r = true ∧ s.reqBlk r = b ∧ s.keyCheck b.op b = some st)) ∧
    (∃ s : State, (s.Inv) ∧ (s.ky.fifo.head?.all (fun r => !s.keyHead 13 r) = true)) ∧
    (∃ s : State, ∃ r : KeyReq, ∃ b : KeyBlk, (s.Inv) ∧ (s.keyTurn 14 r = true ∧ s.reqBlk r = b) ∧ (s.keyCheck 14 b = none)) ∧
    (∃ s : State, ∃ r : KeyReq, ∃ b : KeyBlk, ∃ st : Nat, (s.Inv) ∧ (s.keyHead 14 r = true ∧ s.reqBlk r = b ∧ s.keyCheck b.op b = some st)) ∧
    (∃ s : State, ∃ r : KeyReq, ∃ b : KeyBlk, (s.Inv) ∧ (s.keyHead 14 r = true ∧ s.reqBlk r = b ∧ b.op = 14 ∧ s.keyCheck 14 b = none ∧ s.auditRoom = false)) ∧
    (∃ s : State, (s.Inv) ∧ (s.ky.fifo.head?.all (fun r => !s.keyHead 14 r) = true)) ∧
    (∃ s : State, ∃ r : KeyReq, ∃ b : KeyBlk, (s.Inv) ∧ (s.keyTurn 15 r = true ∧ s.reqBlk r = b) ∧ (b.reserved = false ∧ b.role ≤ 3 ∧ bufOk b.inAddr b.input.length = true)) ∧
    (∃ s : State, ∃ r : KeyReq, ∃ b : KeyBlk, ∃ st : Nat, (s.Inv) ∧ (s.keyHead 15 r = true ∧ s.reqBlk r = b ∧ s.keyCheck b.op b = some st)) ∧
    (∃ s : State, (s.Inv) ∧ (s.ky.fifo.head?.all (fun r => !s.keyHead 15 r) = true)) ∧
    (∃ s : State, ∃ r : KeyReq, ∃ b : KeyBlk, (s.Inv) ∧ (s.keyTurn 16 r = true ∧ s.reqBlk r = b) ∧ (s.keyCheck 16 b = none)) ∧
    (∃ s : State, ∃ r : KeyReq, ∃ b : KeyBlk, ∃ st : Nat, (s.Inv) ∧ (s.keyHead 16 r = true ∧ s.reqBlk r = b ∧ s.keyCheck b.op b = some st)) ∧
    (∃ s : State, (s.Inv) ∧ (s.ky.fifo.head?.all (fun r => !s.keyHead 16 r) = true)) ∧
    (∃ s : State, (s.Inv) ∧ (s.auditRoom = true)) ∧
    (∃ s : State, (s.Inv) ∧ (s.auditRoom = false)) :=
  ⟨⟨{ wS [(R.KEY_STATE_DRBG_OK, 1)] with cmp := { tickets := [(7, { role := 1, svc := svcKey, op := 1 })] }, ky := { fifo := [.call 7 ⟨7, 9, 10, 0, 0, 2147483648, [7, 7, 7, 7, 7, 7, 7, 7], 4096, 2147487744, false⟩], slots := [(9, { attr := 0, mat := 5 })] } }, (.call 7 ⟨7, 9, 10, 0, 0, 2147483648, [7, 7, 7, 7, 7, 7, 7, 7], 4096, 2147487744, false⟩ : KeyReq), (⟨7, 9, 10, 0, 0, 2147483648, [7, 7, 7, 7, 7, 7, 7, 7], 4096, 2147487744, false⟩ : KeyBlk), by decide⟩,
    ⟨{ wS [(R.KEY_STATE_DRBG_OK, 1)] with cmp := { tickets := [(7, { role := 1, svc := svcKey, op := 1 })] }, ky := { fifo := [.call 7 ⟨7, 9, 10, 0, 0, 2147483648, [7, 7, 7, 7, 7, 7, 7, 7], 4096, 2147487744, false⟩], slots := [(9, { attr := 0, mat := 5 })] } }, (.call 7 ⟨7, 9, 10, 0, 0, 2147483648, [7, 7, 7, 7, 7, 7, 7, 7], 4096, 2147487744, false⟩ : KeyReq), (⟨7, 9, 10, 0, 0, 2147483648, [7, 7, 7, 7, 7, 7, 7, 7], 4096, 2147487744, false⟩ : KeyBlk), ({ attr := 0, mat := 5 } : KeySlot), by decide⟩,
    ⟨{ wS [(R.KEY_STATE_DRBG_OK, 1)] with cmp := { tickets := [(7, { role := 1, svc := svcKey, op := 1 })] }, ky := { fifo := [.call 7 ⟨7, 9, 10, 0, 0, 0, [], 0, 0, true⟩], slots := [] } }, (.call 7 ⟨7, 9, 10, 0, 0, 0, [], 0, 0, true⟩ : KeyReq), (⟨7, 9, 10, 0, 0, 0, [], 0, 0, true⟩ : KeyBlk), (ST.KEY_RANGE : Nat), by decide⟩,
    ⟨wS [], by decide⟩,
    ⟨{ wS [(R.KEY_STATE_DRBG_OK, 1)] with cmp := { tickets := [(7, { role := 1, svc := svcKey, op := 1 })] }, ky := { fifo := [.call 7 ⟨8, 9, 10, 0, 0, 2147483648, [1, 2, 3], 4096, 2147487744, false⟩], slots := [(9, { attr := 0x3100000, mat := 5 })] } }, (.call 7 ⟨8, 9, 10, 0, 0, 2147483648, [1, 2, 3], 4096, 2147487744, false⟩ : KeyReq), (⟨8, 9, 10, 0, 0, 2147483648, [1, 2, 3], 4096, 2147487744, false⟩ : KeyBlk), ({ attr := 0x3100000, mat := 5 } : KeySlot), by decide⟩,
    ⟨{ wS [(R.KEY_STATE_DRBG_OK, 1)] with cmp := { tickets := [(7, { role := 1, svc := svcKey, op := 1 })] }, ky := { fifo := [.call 7 ⟨8, 9, 10, 0, 0, 0, [], 0, 0, true⟩], slots := [] } }, (.call 7 ⟨8, 9, 10, 0, 0, 0, [], 0, 0, true⟩ : KeyReq), (⟨8, 9, 10, 0, 0, 0, [], 0, 0, true⟩ : KeyBlk), (ST.KEY_RANGE : Nat), by decide⟩,
    ⟨wS [], by decide⟩,
    ⟨{ wS [(R.KEY_STATE_DRBG_OK, 1)] with cmp := { tickets := [(7, { role := 1, svc := svcKey, op := 1 })] }, ky := { fifo := [.call 7 ⟨9, 9, 10, 0, 0, 2147483648, [1, 2, 3], 16, 2147487744, false⟩], slots := [(9, { attr := 0x2200000, mat := 5 })] } }, (.call 7 ⟨9, 9, 10, 0, 0, 2147483648, [1, 2, 3], 16, 2147487744, false⟩ : KeyReq), (⟨9, 9, 10, 0, 0, 2147483648, [1, 2, 3], 16, 2147487744, false⟩ : KeyBlk), ({ attr := 0x2200000, mat := 5 } : KeySlot), by decide⟩,
    ⟨{ wS [(R.KEY_STATE_DRBG_OK, 1)] with cmp := { tickets := [(7, { role := 1, svc := svcKey, op := 1 })] }, ky := { fifo := [.call 7 ⟨9, 9, 10, 0, 0, 0, [], 0, 0, true⟩], slots := [] } }, (.call 7 ⟨9, 9, 10, 0, 0, 0, [], 0, 0, true⟩ : KeyReq), (⟨9, 9, 10, 0, 0, 0, [], 0, 0, true⟩ : KeyBlk), (ST.KEY_RANGE : Nat), by decide⟩,
    ⟨wS [], by decide⟩,
    ⟨{ wS [(R.KEY_STATE_DRBG_OK, 1)] with cmp := { tickets := [(7, { role := 1, svc := svcKey, op := 1 })] }, ky := { fifo := [.call 7 ⟨10, 9, 10, 0, 0, 2147483648, (List.replicate 16 3), 24, 2147487744, false⟩], slots := [(9, { attr := 0x20000, mat := 5 })] } }, (.call 7 ⟨10, 9, 10, 0, 0, 2147483648, (List.replicate 16 3), 24, 2147487744, false⟩ : KeyReq), (⟨10, 9, 10, 0, 0, 2147483648, (List.replicate 16 3), 24, 2147487744, false⟩ : KeyBlk), ({ attr := 0x20000, mat := 5 } : KeySlot), by decide⟩,
    ⟨{ wS [(R.KEY_STATE_DRBG_OK, 1)] with cmp := { tickets := [(7, { role := 1, svc := svcKey, op := 1 })] }, ky := { fifo := [.call 7 ⟨10, 9, 10, 0, 0, 0, [], 0, 0, true⟩], slots := [] } }, (.call 7 ⟨10, 9, 10, 0, 0, 0, [], 0, 0, true⟩ : KeyReq), (⟨10, 9, 10, 0, 0, 0, [], 0, 0, true⟩ : KeyBlk), (ST.KEY_RANGE : Nat), by decide⟩,
    ⟨wS [], by decide⟩,
    ⟨{ wS [(R.KEY_STATE_DRBG_OK, 1)] with cmp := { tickets := [(7, { role := 1, svc := svcKey, op := 1 })] }, ky := { fifo := [.call 7 ⟨11, 9, 10, 0, 0, 0, [], 4096, 2147487744, false⟩], slots := [] } }, (.call 7 ⟨11, 9, 10, 0, 0, 0, [], 4096, 2147487744, false⟩ : KeyReq), (⟨11, 9, 10, 0, 0, 0, [], 4096, 2147487744, false⟩ : KeyBlk), by decide⟩,
    ⟨{ wS [(R.KEY_STATE_DRBG_OK, 1)] with cmp := { tickets := [(7, { role := 1, svc := svcKey, op := 1 })] }, ky := { fifo := [.call 7 ⟨11, 9, 10, 0, 0, 0, [], 0, 0, true⟩], slots := [] } }, (.call 7 ⟨11, 9, 10, 0, 0, 0, [], 0, 0, true⟩ : KeyReq), (⟨11, 9, 10, 0, 0, 0, [], 0, 0, true⟩ : KeyBlk), (ST.KEY_RANGE : Nat), by decide⟩,
    ⟨wS [], by decide⟩,
    ⟨{ wS [(R.KEY_STATE_DRBG_OK, 1)] with cmp := { tickets := [(7, { role := 1, svc := svcKey, op := 1 })] }, ky := { fifo := [.call 7 ⟨12, 9, 10, 0, 0, 2147483648, (List.replicate 1088 3), 0, 0, false⟩], slots := [(10, { attr := 0x5400000, mat := 5 })] } }, (.call 7 ⟨12, 9, 10, 0, 0, 2147483648, (List.replicate 1088 3), 0, 0, false⟩ : KeyReq), (⟨12, 9, 10, 0, 0, 2147483648, (List.replicate 1088 3), 0, 0, false⟩ : KeyBlk), (9 : Nat), ({ attr := 0x5400000, mat := 5 } : KeySlot), by decide +kernel⟩,
    ⟨{ wS [(R.KEY_STATE_DRBG_OK, 1)] with cmp := { tickets := [(7, { role := 1, svc := svcKey, op := 1 })] }, ky := { fifo := [.call 7 ⟨12, 9, 10, 0, 0, 0, [], 0, 0, true⟩], slots := [] } }, (.call 7 ⟨12, 9, 10, 0, 0, 0, [], 0, 0, true⟩ : KeyReq), (⟨12, 9, 10, 0, 0, 0, [], 0, 0, true⟩ : KeyBlk), (ST.KEY_RANGE : Nat), by decide⟩,
    ⟨{ wS [(R.KEY_STATE_DRBG_OK, 1)] with cmp := { tickets := [(7, { role := 1, svc := svcKey, op := 1 })] }, ky := { fifo := [.call 7 ⟨12, 9, 10, 0, 0, 2147483648, (List.replicate 1088 3), 0, 0, false⟩], slots := [(10, { attr := 0x5400000, mat := 5 })] }, ro := { closed := [[], []] } }, (.call 7 ⟨12, 9, 10, 0, 0, 2147483648, (List.replicate 1088 3), 0, 0, false⟩ : KeyReq), (⟨12, 9, 10, 0, 0, 2147483648, (List.replicate 1088 3), 0, 0, false⟩ : KeyBlk), by decide +kernel⟩,
    ⟨wS [], by decide⟩,
    ⟨{ wS [(R.KEY_STATE_DRBG_OK, 1)] with cmp := { tickets := [(7, { role := 1, svc := svcKey, op := 1 })] }, ky := { fifo := [.call 7 ⟨13, 9, 10, 0, 0, 0, [], 1312, 2147487744, false⟩], slots := [(9, { attr := 0x3000000, mat := 5 })] } }, (.call 7 ⟨13, 9, 10, 0, 0, 0, [], 1312, 2147487744, false⟩ : KeyReq), (⟨13, 9, 10, 0, 0, 0, [], 1312, 2147487744, false⟩ : KeyBlk), ({ attr := 0x3000000, mat := 5 } : KeySlot), by decide⟩,
    ⟨{ wS [(R.KEY_STATE_DRBG_OK, 1)] with cmp := { tickets := [(7, { role := 1, svc := svcKey, op := 1 })] }, ky := { fifo := [.call 7 ⟨13, 9, 10, 0, 0, 0, [], 0, 0, true⟩], slots := [] } }, (.call 7 ⟨13, 9, 10, 0, 0, 0, [], 0, 0, true⟩ : KeyReq), (⟨13, 9, 10, 0, 0, 0, [], 0, 0, true⟩ : KeyBlk), (ST.KEY_RANGE : Nat), by decide⟩,
    ⟨wS [], by decide⟩,
    ⟨{ wS [(R.KEY_STATE_DRBG_OK, 1)] with cmp := { tickets := [(7, { role := 1, svc := svcKey, op := 1 })] }, ky := { fifo := [.call 7 ⟨14, 9, 10, 0, 2, 0, [], 0, 0, false⟩], slots := [] } }, (.call 7 ⟨14, 9, 10, 0, 2, 0, [], 0, 0, false⟩ : KeyReq), (⟨14, 9, 10, 0, 2, 0, [], 0, 0, false⟩ : KeyBlk), by decide⟩,
    ⟨{ wS [(R.KEY_STATE_DRBG_OK, 1)] with cmp := { tickets := [(7, { role := 1, svc := svcKey, op := 1 })] }, ky := { fifo := [.call 7 ⟨14, 9, 10, 0, 0, 0, [], 0, 0, true⟩], slots := [] } }, (.call 7 ⟨14, 9, 10, 0, 0, 0, [], 0, 0, true⟩ : KeyReq), (⟨14, 9, 10, 0, 0, 0, [], 0, 0, true⟩ : KeyBlk), (ST.KEY_RANGE : Nat), by decide⟩,
    ⟨{ wS [(R.KEY_STATE_DRBG_OK, 1)] with cmp := { tickets := [(7, { role := 1, svc := svcKey, op := 1 })] }, ky := { fifo := [.call 7 ⟨14, 9, 10, 0, 2, 0, [], 0, 0, false⟩], slots := [] }, ro := { closed := [[], []] } }, (.call 7 ⟨14, 9, 10, 0, 2, 0, [], 0, 0, false⟩ : KeyReq), (⟨14, 9, 10, 0, 2, 0, [], 0, 0, false⟩ : KeyBlk), by decide⟩,
    ⟨wS [], by decide⟩,
    ⟨{ wS [(R.KEY_STATE_DRBG_OK, 1)] with cmp := { tickets := [(7, { role := 1, svc := svcKey, op := 1 })] }, ky := { fifo := [.call 7 ⟨15, 9, 10, 0, 0, 0, [], 65535, 2147553280, false⟩], slots := [] } }, (.call 7 ⟨15, 9, 10, 0, 0, 0, [], 65535, 2147553280, false⟩ : KeyReq), (⟨15, 9, 10, 0, 0, 0, [], 65535, 2147553280, false⟩ : KeyBlk), by decide⟩,
    ⟨{ wS [(R.KEY_STATE_DRBG_OK, 1)] with cmp := { tickets := [(7, { role := 1, svc := svcKey, op := 1 })] }, ky := { fifo := [.call 7 ⟨15, 9, 10, 0, 0, 0, [], 0, 0, true⟩], slots := [] } }, (.call 7 ⟨15, 9, 10, 0, 0, 0, [], 0, 0, true⟩ : KeyReq), (⟨15, 9, 10, 0, 0, 0, [], 0, 0, true⟩ : KeyBlk), (ST.KEY_RANGE : Nat), by decide⟩,
    ⟨wS [], by decide⟩,
    ⟨{ wS [(R.KEY_STATE_DRBG_OK, 1)] with cmp := { tickets := [(7, { role := 1, svc := svcKey, op := 1 })] }, ky := { fifo := [.call 7 ⟨16, 9, 10, 0, 0, 2147483648, (0x44 :: List.replicate 3733 0), 0, 0, false⟩], slots := [] } }, (.call 7 ⟨16, 9, 10, 0, 0, 2147483648, (0x44 :: List.replicate 3733 0), 0, 0, false⟩ : KeyReq), (⟨16, 9, 10, 0, 0, 2147483648, (0x44 :: List.replicate 3733 0), 0, 0, false⟩ : KeyBlk), by decide +kernel⟩,
    ⟨{ wS [(R.KEY_STATE_DRBG_OK, 1)] with cmp := { tickets := [(7, { role := 1, svc := svcKey, op := 1 })] }, ky := { fifo := [.call 7 ⟨16, 9, 10, 0, 0, 0, [], 0, 0, true⟩], slots := [] } }, (.call 7 ⟨16, 9, 10, 0, 0, 0, [], 0, 0, true⟩ : KeyReq), (⟨16, 9, 10, 0, 0, 0, [], 0, 0, true⟩ : KeyBlk), (ST.KEY_RANGE : Nat), by decide⟩,
    ⟨wS [], by decide⟩,
    ⟨wS [], by decide⟩,
    ⟨{ wS [] with ro := { closed := [[], []] } }, by decide⟩⟩

/-- States and operands that meet the hypotheses of each clause of TamperLogic. -/
theorem test_TamperLogic_witness :
    (∃ s : State, ∃ i : Fin 8, (s.Inv) ∧ (s.su.vbat = true) ∧ (s.isSet (R.TAMPER_CFG_EN.bit i) = true ∧ s.ky.quiet.contains i.val = false)) ∧
    (∃ s : State, ∃ i : Fin 8, (s.Inv) ∧ (s.su.vbat = true) ∧ (¬ (s.isSet (R.TAMPER_CFG_EN.bit i) = true ∧ s.ky.quiet.contains i.val = false))) ∧
    (∃ s : State, (s.Inv) ∧ (s.su.vbat = false)) ∧
    (∃ s : State, (s.Inv) ∧ (s.su.vbat = true)) ∧
    (∃ s : State, (s.Inv) ∧ (s.rootRuns = true ∧ s.ky.coreDue = true)) ∧
    (∃ s : State, (s.Inv) ∧ (¬ (s.rootRuns = true ∧ s.ky.coreDue = true))) ∧
    (∃ s : State, ∃ k : Nat, ∃ b : KeyBlk, (s.Inv) ∧ (s.rootRuns = true ∧ s.ky.coreDue = true ∧ s.inService = false ∧ s.ky.job = none ∧ s.ky.fifo = [.call k b])) ∧
    (∃ s : State, ∃ w : Word, (s.Inv) ∧ (s.auditRoom = true) ∧ ((if (List.range 8).any (fun i => bitOf (R.TAMPER_CFG_EN.get w) i && !bitOf (s.getF R.TAMPER_CFG_EN) i && s.isSet (R.TAMPER_STATE_ACTIVE.bit i)) then some ST.TAMPER_ACTIVE else if (List.range 8).any (fun i => !bitOf (R.TAMPER_CFG_EN.get w) i && bitOf (s.getF R.TAMPER_CFG_EN) i) && !(s.running && decide (s.ownerState = 1)) then some ST.TAMPER_STATE else none) = none)) ∧
    (∃ s : State, ∃ w : Word, ∃ st : Nat, (s.Inv) ∧ (s.auditRoom = true) ∧ ((if (List.range 8).any (fun i => bitOf (R.TAMPER_CFG_EN.get w) i && !bitOf (s.getF R.TAMPER_CFG_EN) i && s.isSet (R.TAMPER_STATE_ACTIVE.bit i)) then some ST.TAMPER_ACTIVE else if (List.range 8).any (fun i => !bitOf (R.TAMPER_CFG_EN.get w) i && bitOf (s.getF R.TAMPER_CFG_EN) i) && !(s.running && decide (s.ownerState = 1)) then some ST.TAMPER_STATE else none) = some st)) ∧
    (∃ s : State, (s.Inv) ∧ (s.auditRoom = false)) ∧
    (∃ s : State, (s.Inv) ∧ (s.auditRoom = true)) :=
  ⟨⟨{ wS [(R.TAMPER_CFG_EN, 0xFF), (R.TAMPER_STATE_OWNER, 1)] with su := { vbat := true }, ky := { root := 5 } }, (3 : Fin 8), by decide⟩,
    ⟨{ wS [(R.TAMPER_CFG_EN, 0xF7), (R.TAMPER_STATE_OWNER, 1)] with su := { vbat := true } }, (3 : Fin 8), by decide⟩,
    ⟨{ wS [] with su := { vbat := false } }, by decide⟩,
    ⟨{ wS [(R.TAMPER_STATE_ACTIVE, 0xFF)] with su := { vbat := true }, ky := { quiet := [3] } }, by decide⟩,
    ⟨{ wS [(R.TRX_STATE_TARGET 1, 2)] with ky := { coreDue := true, slots := [(9, { attr := 0, mat := 5 })] } }, by decide⟩,
    ⟨wS [], by decide⟩,
    ⟨{ wS [(R.START_STATE_DEV_STATE, 4)] with cmp := { tickets := [(7, { role := 1, svc := svcKey, op := 1 })] }, ky := { coreDue := true, fifo := [.call 7 ⟨1, 9, 10, 0, 0, 0, [], 0, 0, false⟩] } }, (7 : Nat), (⟨1, 9, 10, 0, 0, 0, [], 0, 0, false⟩ : KeyBlk), by decide⟩,
    ⟨wS [(R.TAMPER_CFG_EN, 0xFF), (R.TAMPER_STATE_OWNER, 1)], (0x0F : Word), by decide⟩,
    ⟨wS [(R.TAMPER_CFG_EN, 0xFF)], (0x0F : Word), (ST.TAMPER_STATE : Nat), by decide⟩,
    ⟨{ wS [] with ro := { closed := [[], []] } }, by decide⟩,
    ⟨wS [(R.TAMPER_STATE_OWNER, 1), (R.TAMPER_COUNT_COUNT, 3), (R.TAMPER_LOG_VALID.bank 0, 1)], by decide⟩⟩

/-- States and operands that meet the hypotheses of each clause of LeaseCommands. -/
theorem test_LeaseCommands_witness :
    (∃ s : State, ∃ u : Nat, (s.Inv) ∧ ((s.advance u).mayRenew = true ∧ ((Store.find? s.pa.count s.pa.sent).all (fun (x : Nat × Nat) => decide (x.1 + 82500 ≤ max s.mtb u)) = true ∨ s.pa.granted < (s.advance u).needUs))) ∧
    (∃ s : State, ∃ u : Nat, (s.Inv) ∧ (¬ ((s.advance u).mayRenew = true ∧ ((Store.find? s.pa.count s.pa.sent).all (fun (x : Nat × Nat) => decide (x.1 + 82500 ≤ max s.mtb u)) = true ∨ s.pa.granted < (s.advance u).needUs)))) ∧
    (∃ s : State, (s.Inv) ∧ (s.pairOn = true ∧ s.isSet R.PAIR_STATE_TIE_UP = true ∧ (s.pairRole = 2 ∨ s.pairRole = 3))) ∧
    (∃ s : State, (s.Inv) ∧ (s.pairOn = true ∧ s.isSet R.PAIR_STATE_TIE_UP = true ∧ s.pairRole = 1)) ∧
    (∃ s : State, (s.Inv) ∧ (¬ (s.pairOn = true ∧ s.isSet R.PAIR_STATE_TIE_UP = true))) ∧
    (∃ s : State, ∃ r : Fin 8, (s.Inv) ∧ (s.pairOn = true ∧ s.isSet R.PAIR_STATE_TIE_UP = true ∧ s.pairRole = 1) ∧ (r.val = 2 ∧ s.isSet R.PAIR_STATE_RESYNC = false)) ∧
    (∃ s : State, (s.Inv) ∧ (s.pairOn = true ∧ s.isSet R.PAIR_STATE_TIE_UP = true ∧ s.pairRole = 1 ∧ s.isSet R.PAIR_STATE_RESYNC = true)) ∧
    (∃ s : State, ∃ r : Fin 8, (s.Inv) ∧ (s.pairOn = true ∧ s.isSet R.PAIR_STATE_TIE_UP = true ∧ s.pairRole = 1 ∧ s.getF R.PAIR_STATE_MODE = 1) ∧ (r.val = 3 ∧ s.pa.fresh = false ∧ s.getF R.PAIR_STATE_PEER_ROLE ≠ 4)) ∧
    (∃ s : State, (s.Inv) ∧ (s.pairOn = true ∧ s.isSet R.PAIR_STATE_TIE_UP = true ∧ (s.pairRole = 2 ∨ s.pairRole = 3))) ∧
    (∃ s : State, (s.Inv) ∧ (¬ (s.pairOn = true ∧ s.isSet R.PAIR_STATE_TIE_UP = true))) ∧
    (∃ s : State, (s.Inv) ∧ (s.pairOn = true ∧ s.isSet R.PAIR_STATE_TIE_UP = true ∧ (s.pairRole = 2 ∨ s.pairRole = 3) ∧ (s.dev = devService ∨ s.dev = devHold))) ∧
    (∃ s : State, (s.Inv) ∧ (s.pairOn = true ∧ s.isSet R.PAIR_STATE_TIE_UP = true ∧ (s.pairRole = 2 ∨ s.pairRole = 3) ∧ ¬ (s.dev = devService ∨ s.dev = devHold))) ∧
    (∃ s : State, (s.Inv) ∧ (s.pairOn = true ∧ s.isSet R.PAIR_STATE_TIE_UP = true ∧ s.pairRole = 2)) ∧
    (∃ s : State, (s.Inv) ∧ (s.pairOn = true ∧ s.isSet R.PAIR_STATE_TIE_UP = true ∧ s.pairRole = 3)) ∧
    (∃ s : State, ∃ q : Nat, ∃ a : Bool, (s.Inv) ∧ (s.pairOn = true) ∧ (a = false ∨ q ≤ s.pa.witRx ∨ s.pa.key = none)) ∧
    (∃ s : State, (s.Inv) ∧ (s.pairOn = false)) ∧
    (∃ s : State, ∃ q : Nat, (s.Inv) ∧ (s.pairOn = true ∧ s.pa.key.isSome = true ∧ s.pa.witRx < q ∧ (s.pairRole = 2 ∨ s.pairRole = 3))) ∧
    (∃ s : State, ∃ r : Fin 8, ∃ q : Nat, (s.Inv) ∧ (s.pairOn = true ∧ s.pa.key.isSome = true ∧ s.pa.witRx < q ∧ s.pairRole = 1 ∧ r.val = 2 ∧ s.isSet R.PAIR_STATE_RESYNC = false)) ∧
    (∃ s : State, ∃ q : Nat, (s.Inv) ∧ (s.pairOn = true ∧ s.pa.key.isSome = true ∧ s.pa.witRx < q ∧ (s.pairRole = 2 ∨ s.pairRole = 3) ∧ (s.dev = devService ∨ s.dev = devHold))) ∧
    (∃ s : State, ∃ q : Nat, (s.Inv) ∧ (s.pairOn = true ∧ s.pa.key.isSome = true ∧ s.pa.witRx < q ∧ s.pairRole = 2)) ∧
    (∃ s : State, ∃ u : Nat, (s.Inv) ∧ (s.pairOn = true ∧ s.isSet R.PAIR_STATE_PEER_SILENT = false ∧ (match s.pa.heardAt with | some a => a | none => match s.pa.runAt with | some a => a | none => max s.mtb u) + 206250 ≤ max s.mtb u)) ∧
    (∃ s : State, ∃ u : Nat, (s.Inv) ∧ (¬ (s.pairOn = true ∧ s.isSet R.PAIR_STATE_PEER_SILENT = false ∧ (match s.pa.heardAt with | some a => a | none => match s.pa.runAt with | some a => a | none => max s.mtb u) + 206250 ≤ max s.mtb u))) ∧
    (∃ s : State, ∃ u : Nat, (s.Inv) ∧ ((s.pairRole = 2 ∨ s.pairRole = 3) ∧ (s.dev = devService ∨ s.dev = devHold) ∧ s.pa.knownEnd.any (fun e => decide (e + 20625 ≤ max s.mtb u)) = true)) ∧
    (∃ s : State, ∃ u : Nat, (s.Inv) ∧ (¬ ((s.pairRole = 2 ∨ s.pairRole = 3) ∧ (s.dev = devService ∨ s.dev = devHold) ∧ s.pa.knownEnd.any (fun e => decide (e + 20625 ≤ max s.mtb u)) = true))) ∧
    (∃ s : State, ∃ u : Nat, (s.Inv) ∧ (s.fencedMay = true ∧ s.pa.lost = false ∧ s.pa.heardAt = none ∧ s.pa.runAt.any (fun a => decide (a + msToCyc (s.getF R.PAIR_CTRL_ALONE_MS) ≤ max s.mtb u)) = true)) ∧
    (∃ s : State, ∃ u : Nat, (s.Inv) ∧ (¬ (s.fencedMay = true ∧ s.pa.lost = false ∧ s.pa.heardAt = none ∧ s.pa.runAt.any (fun a => decide (a + msToCyc (s.getF R.PAIR_CTRL_ALONE_MS) ≤ max s.mtb u)) = true))) ∧
    (∃ s : State, ∃ u : Nat, (s.Inv) ∧ (s.pairOn = true ∧ s.pairRole = 1 ∧ s.pa.leaseEnd ≤ max s.mtb u + 20625)) ∧
    (∃ s : State, ∃ u : Nat, (s.Inv) ∧ (¬ (s.pairOn = true ∧ s.pairRole = 1 ∧ s.pa.leaseEnd ≤ max s.mtb u + 20625))) :=
  ⟨⟨{ wS [(R.PAIR_STATE_ROLE, 1), (R.PAIR_STATE_TIE_UP, 1), (R.PAIR_CFG_RESERVE_US, 2000), (R.PAIR_CFG_WIT_RESERVE_US, 3000), (R.PAIR_CTRL_ALONE_MS, 500), (R.TAMPER_STATE_OWNER, 1)] with pr := wPair, pa := { count := 65535, sent := [(65535, (100, 2000))], leaseEnd := 3000000 } }, (82600 : Nat), by decide⟩,
    ⟨{ wS [(R.PAIR_STATE_ROLE, 1), (R.PAIR_STATE_TIE_UP, 1), (R.PAIR_CFG_RESERVE_US, 2000), (R.PAIR_CFG_WIT_RESERVE_US, 3000), (R.PAIR_CTRL_ALONE_MS, 500), (R.TAMPER_STATE_OWNER, 1)] with pr := wPair, pa := { count := 4, sent := [(4, (100, 2000))], leaseEnd := 3000000, granted := 2000 } }, (82599 : Nat), by decide⟩,
    ⟨{ wS [(R.PAIR_STATE_ROLE, 2), (R.PAIR_STATE_TIE_UP, 1), (R.PAIR_CFG_RESERVE_US, 2000), (R.PAIR_CFG_WIT_RESERVE_US, 3000), (R.PAIR_CTRL_ALONE_MS, 500), (R.TAMPER_STATE_OWNER, 1), (R.PAIR_STATE_PEER_SILENT, 1)] with pr := wPair, pa := {  } }, by decide⟩,
    ⟨{ wS [(R.PAIR_STATE_ROLE, 1), (R.PAIR_STATE_TIE_UP, 1), (R.PAIR_CFG_RESERVE_US, 2000), (R.PAIR_CFG_WIT_RESERVE_US, 3000), (R.PAIR_CTRL_ALONE_MS, 500), (R.TAMPER_STATE_OWNER, 1)] with pr := wPair, pa := {  } }, by decide⟩,
    ⟨{ wS [(R.PAIR_STATE_ROLE, 2), (R.PAIR_STATE_TIE_UP, 0), (R.PAIR_CFG_RESERVE_US, 2000), (R.PAIR_CFG_WIT_RESERVE_US, 3000), (R.PAIR_CTRL_ALONE_MS, 500), (R.TAMPER_STATE_OWNER, 1)] with pr := wPair, pa := {  } }, by decide⟩,
    ⟨{ wS [(R.PAIR_STATE_ROLE, 1), (R.PAIR_STATE_TIE_UP, 1), (R.PAIR_CFG_RESERVE_US, 2000), (R.PAIR_CFG_WIT_RESERVE_US, 3000), (R.PAIR_CTRL_ALONE_MS, 500), (R.TAMPER_STATE_OWNER, 1), (R.PAIR_STATE_SELF_GRANT, 1)] with pr := wPair, pa := { sent := [(4, (50, 2000))], situation := 3 } }, (2 : Fin 8), by decide⟩,
    ⟨{ wS [(R.PAIR_STATE_ROLE, 1), (R.PAIR_STATE_TIE_UP, 1), (R.PAIR_CFG_RESERVE_US, 2000), (R.PAIR_CFG_WIT_RESERVE_US, 3000), (R.PAIR_CTRL_ALONE_MS, 500), (R.TAMPER_STATE_OWNER, 1), (R.PAIR_STATE_RESYNC, 1), (R.PAIR_STATE_MODE, 2)] with pr := wPair, pa := {  } }, by decide⟩,
    ⟨{ wS [(R.PAIR_STATE_ROLE, 1), (R.PAIR_STATE_TIE_UP, 1), (R.PAIR_CFG_RESERVE_US, 2000), (R.PAIR_CFG_WIT_RESERVE_US, 3000), (R.PAIR_CTRL_ALONE_MS, 500), (R.TAMPER_STATE_OWNER, 1), (R.PAIR_STATE_MODE, 1)] with pr := wPair, pa := {  } }, (3 : Fin 8), by decide⟩,
    ⟨{ wS [(R.PAIR_STATE_ROLE, 2), (R.PAIR_STATE_TIE_UP, 1), (R.PAIR_CFG_RESERVE_US, 2000), (R.PAIR_CFG_WIT_RESERVE_US, 3000), (R.PAIR_CTRL_ALONE_MS, 500), (R.TAMPER_STATE_OWNER, 1)] with pr := wPair, pa := {  } }, by decide⟩,
    ⟨{ wS [(R.PAIR_STATE_ROLE, 1), (R.PAIR_STATE_TIE_UP, 0), (R.PAIR_CFG_RESERVE_US, 2000), (R.PAIR_CFG_WIT_RESERVE_US, 3000), (R.PAIR_CTRL_ALONE_MS, 500), (R.TAMPER_STATE_OWNER, 1)] with pr := wPair, pa := {  } }, by decide⟩,
    ⟨{ wS [(R.PAIR_STATE_ROLE, 2), (R.PAIR_STATE_TIE_UP, 1), (R.PAIR_CFG_RESERVE_US, 2000), (R.PAIR_CFG_WIT_RESERVE_US, 3000), (R.PAIR_CTRL_ALONE_MS, 500), (R.TAMPER_STATE_OWNER, 1), (R.UPL_STAT_LINK_UP 1, 1)] with pr := wPair, pa := {  } }, by decide⟩,
    ⟨{ wS [(R.PAIR_STATE_ROLE, 2), (R.PAIR_STATE_TIE_UP, 1), (R.PAIR_CFG_RESERVE_US, 2000), (R.PAIR_CFG_WIT_RESERVE_US, 3000), (R.PAIR_CTRL_ALONE_MS, 500), (R.TAMPER_STATE_OWNER, 1), (R.START_STATE_DEV_STATE, devPark)] with pr := wPair, pa := {  } }, by decide⟩,
    ⟨{ wS [(R.PAIR_STATE_ROLE, 2), (R.PAIR_STATE_TIE_UP, 1), (R.PAIR_CFG_RESERVE_US, 2000), (R.PAIR_CFG_WIT_RESERVE_US, 3000), (R.PAIR_CTRL_ALONE_MS, 500), (R.TAMPER_STATE_OWNER, 1)] with pr := wPair, pa := {  } }, by decide⟩,
    ⟨{ wS [(R.PAIR_STATE_ROLE, 3), (R.PAIR_STATE_TIE_UP, 1), (R.PAIR_CFG_RESERVE_US, 2000), (R.PAIR_CFG_WIT_RESERVE_US, 3000), (R.PAIR_CTRL_ALONE_MS, 500), (R.TAMPER_STATE_OWNER, 1)] with pr := wPair, pa := {  } }, by decide⟩,
    ⟨{ wS [(R.PAIR_STATE_ROLE, 2), (R.PAIR_STATE_TIE_UP, 1), (R.PAIR_CFG_RESERVE_US, 2000), (R.PAIR_CFG_WIT_RESERVE_US, 3000), (R.PAIR_CTRL_ALONE_MS, 500), (R.TAMPER_STATE_OWNER, 1)] with pr := wPair, pa := { key := some 5 } }, (9 : Nat), (false : Bool), by decide⟩,
    ⟨wS [], by decide⟩,
    ⟨{ wS [(R.PAIR_STATE_ROLE, 2), (R.PAIR_STATE_TIE_UP, 0), (R.PAIR_CFG_RESERVE_US, 2000), (R.PAIR_CFG_WIT_RESERVE_US, 3000), (R.PAIR_CTRL_ALONE_MS, 500), (R.TAMPER_STATE_OWNER, 1), (R.UPL_STAT_LINK_UP 0, 1)] with pr := wPair, pa := { key := some 5 } }, (9 : Nat), by decide⟩,
    ⟨{ wS [(R.PAIR_STATE_ROLE, 1), (R.PAIR_STATE_TIE_UP, 1), (R.PAIR_CFG_RESERVE_US, 2000), (R.PAIR_CFG_WIT_RESERVE_US, 3000), (R.PAIR_CTRL_ALONE_MS, 500), (R.TAMPER_STATE_OWNER, 1)] with pr := wPair, pa := { key := some 5, sent := [(3, (50, 2000))] } }, (2 : Fin 8), (9 : Nat), by decide⟩,
    ⟨{ wS [(R.PAIR_STATE_ROLE, 2), (R.PAIR_STATE_TIE_UP, 1), (R.PAIR_CFG_RESERVE_US, 2000), (R.PAIR_CFG_WIT_RESERVE_US, 3000), (R.PAIR_CTRL_ALONE_MS, 500), (R.TAMPER_STATE_OWNER, 1)] with pr := wPair, pa := { key := some 5 } }, (9 : Nat), by decide⟩,
    ⟨{ wS [(R.PAIR_STATE_ROLE, 2), (R.PAIR_STATE_TIE_UP, 1), (R.PAIR_CFG_RESERVE_US, 2000), (R.PAIR_CFG_WIT_RESERVE_US, 3000), (R.PAIR_CTRL_ALONE_MS, 500), (R.TAMPER_STATE_OWNER, 1)] with pr := wPair, pa := { key := some 5 } }, (9 : Nat), by decide⟩,
    ⟨{ wS [(R.PAIR_STATE_ROLE, 1), (R.PAIR_STATE_TIE_UP, 1), (R.PAIR_CFG_RESERVE_US, 2000), (R.PAIR_CFG_WIT_RESERVE_US, 3000), (R.PAIR_CTRL_ALONE_MS, 500), (R.TAMPER_STATE_OWNER, 1)] with pr := wPair, pa := { heardAt := some 100 } }, (206350 : Nat), by decide⟩,
    ⟨{ wS [(R.PAIR_STATE_ROLE, 1), (R.PAIR_STATE_TIE_UP, 1), (R.PAIR_CFG_RESERVE_US, 2000), (R.PAIR_CFG_WIT_RESERVE_US, 3000), (R.PAIR_CTRL_ALONE_MS, 500), (R.TAMPER_STATE_OWNER, 1)] with pr := wPair, pa := { heardAt := some 100 } }, (206349 : Nat), by decide⟩,
    ⟨{ wS [(R.PAIR_STATE_ROLE, 2), (R.PAIR_STATE_TIE_UP, 1), (R.PAIR_CFG_RESERVE_US, 2000), (R.PAIR_CFG_WIT_RESERVE_US, 3000), (R.PAIR_CTRL_ALONE_MS, 500), (R.TAMPER_STATE_OWNER, 1), (R.UPL_STAT_LINK_UP 0, 1)] with pr := wPair, pa := { knownEnd := some 100 } }, (20725 : Nat), by decide⟩,
    ⟨{ wS [(R.PAIR_STATE_ROLE, 2), (R.PAIR_STATE_TIE_UP, 1), (R.PAIR_CFG_RESERVE_US, 2000), (R.PAIR_CFG_WIT_RESERVE_US, 3000), (R.PAIR_CTRL_ALONE_MS, 500), (R.TAMPER_STATE_OWNER, 1)] with pr := wPair, pa := { knownEnd := some 100 } }, (20724 : Nat), by decide⟩,
    ⟨{ wS [(R.PAIR_STATE_ROLE, 4), (R.PAIR_STATE_TIE_UP, 1), (R.PAIR_CFG_RESERVE_US, 2000), (R.PAIR_CFG_WIT_RESERVE_US, 3000), (R.PAIR_CTRL_ALONE_MS, 500), (R.TAMPER_STATE_OWNER, 1)] with pr := wPair, pa := { runAt := some 0 } }, (644531250 : Nat), by decide⟩,
    ⟨{ wS [(R.PAIR_STATE_ROLE, 4), (R.PAIR_STATE_TIE_UP, 1), (R.PAIR_CFG_RESERVE_US, 2000), (R.PAIR_CFG_WIT_RESERVE_US, 3000), (R.PAIR_CTRL_ALONE_MS, 500), (R.TAMPER_STATE_OWNER, 1)] with pr := wPair, pa := { runAt := some 0 } }, (644531249 : Nat), by decide⟩,
    ⟨{ wS [(R.PAIR_STATE_ROLE, 1), (R.PAIR_STATE_TIE_UP, 1), (R.PAIR_CFG_RESERVE_US, 2000), (R.PAIR_CFG_WIT_RESERVE_US, 3000), (R.PAIR_CTRL_ALONE_MS, 500), (R.TAMPER_STATE_OWNER, 1)] with pr := wPair, pa := { leaseEnd := 100000 }, rd := { trxs := [(0, { onAir := some (wCmd 1 0 90000 5) })] } }, (80000 : Nat), by decide⟩,
    ⟨{ wS [(R.PAIR_STATE_ROLE, 1), (R.PAIR_STATE_TIE_UP, 1), (R.PAIR_CFG_RESERVE_US, 2000), (R.PAIR_CFG_WIT_RESERVE_US, 3000), (R.PAIR_CTRL_ALONE_MS, 500), (R.TAMPER_STATE_OWNER, 1)] with pr := wPair, pa := { leaseEnd := 100000 } }, (79374 : Nat), by decide⟩⟩

/-- States and operands that meet the hypotheses of each clause of AmrekCommands. -/
theorem test_AmrekCommands_witness :
    (∃ s : State, ∃ u : Nat, (s.Inv) ∧ (s.isSet R.PAIR_STATE_TIE_UP = true ∧ s.pa.helloAt.all (fun a => decide (a + msToCyc 100 ≤ max s.mtb u)) = true)) ∧
    (∃ s : State, ∃ u : Nat, (s.Inv) ∧ (¬ (s.isSet R.PAIR_STATE_TIE_UP = true ∧ s.pa.helloAt.all (fun a => decide (a + msToCyc 100 ≤ max s.mtb u)) = true))) ∧
    (∃ s : State, (s.Inv) ∧ (s.pairOn = true ∧ s.isSet R.PAIR_STATE_TIE_UP = true ∧ (s.pairRole = 2 ∨ s.pairRole = 3))) ∧
    (∃ s : State, (s.Inv) ∧ (s.isSet R.PAIR_STATE_TIE_UP = true ∧ s.pairOn = false)) ∧
    (∃ s : State, (s.Inv) ∧ (s.pairOn = true ∧ s.isSet R.PAIR_STATE_TIE_UP = true ∧ s.pairRole = 4)) ∧
    (∃ s : State, (s.Inv) ∧ (¬ (s.isSet R.PAIR_STATE_TIE_UP = true))) ∧
    (∃ s : State, ∃ o : Bool, (s.Inv) ∧ (s.pairOn = true ∧ s.isSet R.PAIR_STATE_TIE_UP = true) ∧ (o = false ∨ s.pa.peerDigest ≠ some s.pr.header.structDigest)) ∧
    (∃ s : State, (s.Inv) ∧ (s.pairOn = true ∧ s.isSet R.PAIR_STATE_TIE_UP = true) ∧ (s.pa.peerDigest = some s.pr.header.structDigest)) ∧
    (∃ s : State, (s.Inv) ∧ (¬ (s.pairOn = true ∧ s.isSet R.PAIR_STATE_TIE_UP = true))) ∧
    (∃ s : State, ∃ r : MirrorRec, (s.Inv) ∧ (s.isSet R.PAIR_STATE_TIE_UP = true ∧ (s.pairRole = 2 ∨ s.pairRole = 3)) ∧ (r.seq = s.pa.applied + 1 ∨ (r.seq = 1 ∧ s.pairRole = 3)) ∧ (r.kind = 1 ∧ r.target + r.data.length ≤ (s.region r.region).2)) ∧
    (∃ s : State, ∃ r : MirrorRec, ∃ k : Nat, (s.Inv) ∧ (s.isSet R.PAIR_STATE_TIE_UP = true ∧ (s.pairRole = 2 ∨ s.pairRole = 3)) ∧ (r.seq = s.pa.applied + 1 ∨ (r.seq = 1 ∧ s.pairRole = 3)) ∧ (r.kind = 2 ∧ r.target < 2 ^ 18 ∧ s.altActive = false) ∧ (s.hashHas s.liveTab s.gd.stash (beNat (r.data.take 8)) (leNat ((r.data.drop 8).take 1)) = none ∧ s.freeWay s.liveTab (bucketsOf s.gd.seed0 s.gd.seed1 (beNat (r.data.take 8)) (leNat ((r.data.drop 8).take 1))).1 = some k) ∧ ((leNat ((r.data.drop 8).take 1)) < 2)) ∧
    (∃ s : State, ∃ r : MirrorRec, (s.Inv) ∧ (s.isSet R.PAIR_STATE_TIE_UP = true ∧ (s.pairRole = 2 ∨ s.pairRole = 3)) ∧ (r.seq = s.pa.applied + 1 ∨ (r.seq = 1 ∧ s.pairRole = 3)) ∧ ((r.kind = 2 ∧ (s.hashHas s.liveTab s.gd.stash (beNat (r.data.take 8)) (leNat ((r.data.drop 8).take 1))).isSome = true) ∨ (r.kind = 3 ∧ (s.hashDelete s.liveTab s.gd.stash (beNat (r.data.take 8)) (leNat ((r.data.drop 8).take 1))).2.2 = false))) ∧
    (∃ s : State, ∃ r : MirrorRec, (s.Inv) ∧ (s.isSet R.PAIR_STATE_TIE_UP = true ∧ (s.pairRole = 2 ∨ s.pairRole = 3)) ∧ (r.seq = s.pa.applied + 1 ∨ (r.seq = 1 ∧ s.pairRole = 3)) ∧ (r.kind = 3 ∧ (s.hashDelete s.liveTab s.gd.stash (beNat (r.data.take 8)) (leNat ((r.data.drop 8).take 1))).2.2 = true)) ∧
    (∃ s : State, ∃ r : MirrorRec, ∃ k : Nat, (s.Inv) ∧ (s.isSet R.PAIR_STATE_TIE_UP = true ∧ (s.pairRole = 2 ∨ s.pairRole = 3)) ∧ (r.seq = s.pa.applied + 1 ∨ (r.seq = 1 ∧ s.pairRole = 3)) ∧ (r.kind = 4 ∧ s.pa.key = some k)) ∧
    (∃ s : State, ∃ r : MirrorRec, (s.Inv) ∧ (s.isSet R.PAIR_STATE_TIE_UP = true ∧ (s.pairRole = 2 ∨ s.pairRole = 3)) ∧ (r.seq = s.pa.applied + 1 ∨ (r.seq = 1 ∧ s.pairRole = 3)) ∧ (r.kind = 5)) ∧
    (∃ s : State, ∃ r : MirrorRec, (s.Inv) ∧ (s.isSet R.PAIR_STATE_TIE_UP = true ∧ (s.pairRole = 2 ∨ s.pairRole = 3)) ∧ (r.seq = s.pa.applied + 1 ∨ (r.seq = 1 ∧ s.pairRole = 3)) ∧ (r.kind = 6)) ∧
    (∃ s : State, ∃ r : MirrorRec, (s.Inv) ∧ (s.isSet R.PAIR_STATE_TIE_UP = true ∧ (s.pairRole = 2 ∨ s.pairRole = 3)) ∧ (¬ (r.seq = s.pa.applied + 1 ∨ (r.seq = 1 ∧ s.pairRole = 3)))) ∧
    (∃ s : State, (s.Inv) ∧ (s.isSet R.PAIR_STATE_TIE_UP = true ∧ (s.pairRole = 2 ∨ s.pairRole = 3))) ∧
    (∃ s : State, (s.Inv) ∧ (¬ (s.isSet R.PAIR_STATE_TIE_UP = true ∧ (s.pairRole = 2 ∨ s.pairRole = 3)))) ∧
    (∃ s : State, (s.Inv) ∧ (s.isSet R.PAIR_STATE_TIE_UP = true ∧ s.pairRole = 1)) ∧
    (∃ s : State, (s.Inv) ∧ (s.isSet R.PAIR_STATE_TIE_UP = true ∧ s.pairRole = 1) ∧ (s.getF R.PAIR_STATE_PEER_ROLE = 2 ∧ s.isSet R.PAIR_STATE_RESYNC = false)) ∧
    (∃ s : State, (s.Inv) ∧ (¬ (s.isSet R.PAIR_STATE_TIE_UP = true ∧ s.pairRole = 1))) ∧
    (∃ s : State, ∃ n : Nat, (s.Inv) ∧ (s.isSet R.PAIR_FIX_RUNNING = true ∧ n = s.getF R.PAIR_FIX_NEXT ∧ n < s.pr.table.nodeLimit ∧ s.pa.fixed.contains n = false)) ∧
    (∃ s : State, ∃ n : Nat, (s.Inv) ∧ (s.isSet R.PAIR_FIX_RUNNING = true ∧ n = s.getF R.PAIR_FIX_NEXT ∧ n < s.pr.table.nodeLimit ∧ s.pa.fixed.contains n = true)) ∧
    (∃ s : State, (s.Inv) ∧ (s.isSet R.PAIR_FIX_RUNNING = true ∧ s.pr.table.nodeLimit ≤ s.getF R.PAIR_FIX_NEXT)) ∧
    (∃ s : State, (s.Inv) ∧ (s.isSet R.PAIR_FIX_RUNNING = false)) ∧
    (∃ s : State, ∃ u : Nat, (s.Inv) ∧ (s.pa.naAt.any (fun a => decide (a ≤ max s.mtb u)) = true ∧ s.pairRole = 1)) ∧
    (∃ s : State, ∃ u : Nat, (s.Inv) ∧ (¬ (s.pa.naAt.any (fun a => decide (a ≤ max s.mtb u)) = true ∧ s.pairRole = 1))) ∧
    (∃ s : State, (s.Inv) ∧ (s.auditRoom = true)) ∧
    (∃ s : State, (s.Inv) ∧ (s.auditRoom = false)) ∧
    (∃ s : State, (s.Inv) ∧ (s.auditRoom = true) ∧ (s.pairOn = true ∧ s.pairRole = 1 ∧ s.getF R.PAIR_STATE_PEER_ROLE = 3 ∧ s.isSet R.PAIR_STATE_TIE_UP = true)) ∧
    (∃ s : State, (s.Inv) ∧ (s.auditRoom = true) ∧ (¬ (s.pairOn = true ∧ s.pairRole = 1 ∧ s.getF R.PAIR_STATE_PEER_ROLE = 3 ∧ s.isSet R.PAIR_STATE_TIE_UP = true))) ∧
    (∃ s : State, (s.Inv) ∧ (s.pairRole = 3 ∧ s.isSet R.PAIR_STATE_RESYNC = true ∧ s.isSet R.PAIR_STATE_TIE_UP = true)) ∧
    (∃ s : State, (s.Inv) ∧ (¬ (s.pairRole = 3 ∧ s.isSet R.PAIR_STATE_RESYNC = true ∧ s.isSet R.PAIR_STATE_TIE_UP = true))) :=
  ⟨⟨{ wS [(R.PAIR_STATE_ROLE, 2), (R.PAIR_STATE_TIE_UP, 1), (R.PAIR_CFG_RESERVE_US, 2000), (R.PAIR_CFG_WIT_RESERVE_US, 3000), (R.PAIR_CTRL_ALONE_MS, 500), (R.TAMPER_STATE_OWNER, 1)] with pr := wPair, pa := {  } }, (100 : Nat), by decide⟩,
    ⟨{ wS [(R.PAIR_STATE_ROLE, 2), (R.PAIR_STATE_TIE_UP, 1), (R.PAIR_CFG_RESERVE_US, 2000), (R.PAIR_CFG_WIT_RESERVE_US, 3000), (R.PAIR_CTRL_ALONE_MS, 500), (R.TAMPER_STATE_OWNER, 1)] with pr := wPair, pa := { helloAt := some 5 } }, (100 : Nat), by decide⟩,
    ⟨{ wS [(R.PAIR_STATE_ROLE, 2), (R.PAIR_STATE_TIE_UP, 1), (R.PAIR_CFG_RESERVE_US, 2000), (R.PAIR_CFG_WIT_RESERVE_US, 3000), (R.PAIR_CTRL_ALONE_MS, 500), (R.TAMPER_STATE_OWNER, 1)] with pr := wPair, pa := {  } }, by decide⟩,
    ⟨{ wS [(R.PAIR_STATE_ROLE, 0), (R.PAIR_STATE_TIE_UP, 1), (R.PAIR_CFG_RESERVE_US, 2000), (R.PAIR_CFG_WIT_RESERVE_US, 3000), (R.PAIR_CTRL_ALONE_MS, 500), (R.TAMPER_STATE_OWNER, 1)] with pr := wPr, pa := {  } }, by decide⟩,
    ⟨{ wS [(R.PAIR_STATE_ROLE, 4), (R.PAIR_STATE_TIE_UP, 1), (R.PAIR_CFG_RESERVE_US, 2000), (R.PAIR_CFG_WIT_RESERVE_US, 3000), (R.PAIR_CTRL_ALONE_MS, 500), (R.TAMPER_STATE_OWNER, 1)] with pr := wPair, pa := { runAt := some 0 } }, by decide⟩,
    ⟨{ wS [(R.PAIR_STATE_ROLE, 2), (R.PAIR_STATE_TIE_UP, 0), (R.PAIR_CFG_RESERVE_US, 2000), (R.PAIR_CFG_WIT_RESERVE_US, 3000), (R.PAIR_CTRL_ALONE_MS, 500), (R.TAMPER_STATE_OWNER, 1)] with pr := wPair, pa := {  } }, by decide⟩,
    ⟨{ wS [(R.PAIR_STATE_ROLE, 2), (R.PAIR_STATE_TIE_UP, 1), (R.PAIR_CFG_RESERVE_US, 2000), (R.PAIR_CFG_WIT_RESERVE_US, 3000), (R.PAIR_CTRL_ALONE_MS, 500), (R.TAMPER_STATE_OWNER, 1)] with pr := wPair, pa := {  } }, (false : Bool), by decide⟩,
    ⟨{ wS [(R.PAIR_STATE_ROLE, 2), (R.PAIR_STATE_TIE_UP, 1), (R.PAIR_CFG_RESERVE_US, 2000), (R.PAIR_CFG_WIT_RESERVE_US, 3000), (R.PAIR_CTRL_ALONE_MS, 500), (R.TAMPER_STATE_OWNER, 1)] with pr := wPair, pa := { peerDigest := some 0 } }, by decide⟩,
    ⟨{ wS [(R.PAIR_STATE_ROLE, 2), (R.PAIR_STATE_TIE_UP, 0), (R.PAIR_CFG_RESERVE_US, 2000), (R.PAIR_CFG_WIT_RESERVE_US, 3000), (R.PAIR_CTRL_ALONE_MS, 500), (R.TAMPER_STATE_OWNER, 1)] with pr := wPair, pa := {  } }, by decide⟩,
    ⟨{ wS [(R.PAIR_STATE_ROLE, 2), (R.PAIR_STATE_TIE_UP, 1), (R.PAIR_CFG_RESERVE_US, 2000), (R.PAIR_CFG_WIT_RESERVE_US, 3000), (R.PAIR_CTRL_ALONE_MS, 500), (R.TAMPER_STATE_OWNER, 1)] with pr := wPair, pa := { applied := 6 } }, (⟨1, false, 7, 0, 92, [1, 2, 3, 4, 5]⟩ : MirrorRec), by decide⟩,
    ⟨{ wS [(R.PAIR_STATE_ROLE, 2), (R.PAIR_STATE_TIE_UP, 1), (R.PAIR_CFG_RESERVE_US, 2000), (R.PAIR_CFG_WIT_RESERVE_US, 3000), (R.PAIR_CTRL_ALONE_MS, 500), (R.TAMPER_STATE_OWNER, 1), (R.GROUND_STATE_HASH_READY, 1), (R.GROUND_HASH_BASE_BASE, 0x84000000)] with pr := wPair, pa := { applied := 6 } }, (⟨2, false, 7, 0, 5, [1, 2, 3, 4, 5, 6, 7, 8, 0]⟩ : MirrorRec), (0 : Nat), by decide⟩,
    ⟨{ wS [(R.PAIR_STATE_ROLE, 2), (R.PAIR_STATE_TIE_UP, 1), (R.PAIR_CFG_RESERVE_US, 2000), (R.PAIR_CFG_WIT_RESERVE_US, 3000), (R.PAIR_CTRL_ALONE_MS, 500), (R.TAMPER_STATE_OWNER, 1), (R.GROUND_STATE_HASH_READY, 1), (R.GROUND_HASH_BASE_BASE, 0x84000000)] with pr := wPair, pa := { applied := 6 } }, (⟨3, false, 7, 0, 5, [1, 2, 3, 4, 5, 6, 7, 8, 0]⟩ : MirrorRec), by decide⟩,
    ⟨{ wS [(R.PAIR_STATE_ROLE, 2), (R.PAIR_STATE_TIE_UP, 1), (R.PAIR_CFG_RESERVE_US, 2000), (R.PAIR_CFG_WIT_RESERVE_US, 3000), (R.PAIR_CTRL_ALONE_MS, 500), (R.TAMPER_STATE_OWNER, 1), (R.GROUND_STATE_HASH_READY, 1), (R.GROUND_HASH_BASE_BASE, 0x84000000)] with pr := wPair, pa := { applied := 6 }, gd := { stash := [⟨0x0102030405060708, 0, 5⟩], entries := 1 } }, (⟨3, false, 7, 0, 5, [1, 2, 3, 4, 5, 6, 7, 8, 0]⟩ : MirrorRec), by decide⟩,
    ⟨{ wS [(R.PAIR_STATE_ROLE, 2), (R.PAIR_STATE_TIE_UP, 1), (R.PAIR_CFG_RESERVE_US, 2000), (R.PAIR_CFG_WIT_RESERVE_US, 3000), (R.PAIR_CTRL_ALONE_MS, 500), (R.TAMPER_STATE_OWNER, 1)] with pr := wPair, pa := { applied := 6, key := some 5 } }, (⟨4, false, 7, 0, 9, (List.replicate 28 1)⟩ : MirrorRec), (5 : Nat), by decide⟩,
    ⟨{ wS [(R.PAIR_STATE_ROLE, 2), (R.PAIR_STATE_TIE_UP, 1), (R.PAIR_CFG_RESERVE_US, 2000), (R.PAIR_CFG_WIT_RESERVE_US, 3000), (R.PAIR_CTRL_ALONE_MS, 500), (R.TAMPER_STATE_OWNER, 1)] with pr := wPair, pa := { applied := 6 }, ky := { slots := [(9, { attr := 0x4000, mat := 5 })] } }, (⟨5, false, 7, 0, 9, []⟩ : MirrorRec), by decide⟩,
    ⟨{ wS [(R.PAIR_STATE_ROLE, 2), (R.PAIR_STATE_TIE_UP, 1), (R.PAIR_CFG_RESERVE_US, 2000), (R.PAIR_CFG_WIT_RESERVE_US, 3000), (R.PAIR_CTRL_ALONE_MS, 500), (R.TAMPER_STATE_OWNER, 1)] with pr := wPair, pa := { applied := 6 } }, (⟨6, false, 7, 0, settingNo svcPan 0 12 0, (settingBytes [5])⟩ : MirrorRec), by decide⟩,
    ⟨{ wS [(R.PAIR_STATE_ROLE, 2), (R.PAIR_STATE_TIE_UP, 1), (R.PAIR_CFG_RESERVE_US, 2000), (R.PAIR_CFG_WIT_RESERVE_US, 3000), (R.PAIR_CTRL_ALONE_MS, 500), (R.TAMPER_STATE_OWNER, 1)] with pr := wPair, pa := { applied := 6 } }, (⟨6, false, 8, 0, 5, []⟩ : MirrorRec), by decide⟩,
    ⟨{ wS [(R.PAIR_STATE_ROLE, 2), (R.PAIR_STATE_TIE_UP, 1), (R.PAIR_CFG_RESERVE_US, 2000), (R.PAIR_CFG_WIT_RESERVE_US, 3000), (R.PAIR_CTRL_ALONE_MS, 500), (R.TAMPER_STATE_OWNER, 1)] with pr := wPair, pa := { applied := 6 } }, by decide⟩,
    ⟨{ wS [(R.PAIR_STATE_ROLE, 1), (R.PAIR_STATE_TIE_UP, 1), (R.PAIR_CFG_RESERVE_US, 2000), (R.PAIR_CFG_WIT_RESERVE_US, 3000), (R.PAIR_CTRL_ALONE_MS, 500), (R.TAMPER_STATE_OWNER, 1)] with pr := wPair, pa := {  } }, by decide⟩,
    ⟨{ wS [(R.PAIR_STATE_ROLE, 1), (R.PAIR_STATE_TIE_UP, 1), (R.PAIR_CFG_RESERVE_US, 2000), (R.PAIR_CFG_WIT_RESERVE_US, 3000), (R.PAIR_CTRL_ALONE_MS, 500), (R.TAMPER_STATE_OWNER, 1), (R.PAIR_STATE_PEER_ROLE, 2)] with pr := wPair, pa := { journal := [⟨1, false, 7, 0, 5, [1]⟩, ⟨1, false, 8, 0, 5, [1]⟩], waits := [(5, (7, 3)), (6, (8, 4))], mirrors := true, nextSeq := 9 } }, by decide⟩,
    ⟨{ wS [(R.PAIR_STATE_ROLE, 1), (R.PAIR_STATE_TIE_UP, 1), (R.PAIR_CFG_RESERVE_US, 2000), (R.PAIR_CFG_WIT_RESERVE_US, 3000), (R.PAIR_CTRL_ALONE_MS, 500), (R.TAMPER_STATE_OWNER, 1), (R.PAIR_STATE_PEER_ROLE, 2)] with pr := wPair, pa := { journal := [⟨1, false, 7, 0, 5, [1]⟩, ⟨1, false, 8, 0, 5, [1]⟩], waits := [(5, (7, 3)), (6, (8, 4))], mirrors := true, nextSeq := 9 } }, by decide⟩,
    ⟨{ wS [(R.PAIR_STATE_ROLE, 2), (R.PAIR_STATE_TIE_UP, 1), (R.PAIR_CFG_RESERVE_US, 2000), (R.PAIR_CFG_WIT_RESERVE_US, 3000), (R.PAIR_CTRL_ALONE_MS, 500), (R.TAMPER_STATE_OWNER, 1)] with pr := wPair, pa := {  } }, by decide⟩,
    ⟨{ wS [(R.PAIR_STATE_ROLE, 1), (R.PAIR_STATE_TIE_UP, 1), (R.PAIR_CFG_RESERVE_US, 2000), (R.PAIR_CFG_WIT_RESERVE_US, 3000), (R.PAIR_CTRL_ALONE_MS, 500), (R.TAMPER_STATE_OWNER, 1), (R.PAIR_FIX_RUNNING, 1), (R.PAIR_FIX_NEXT, 5)] with pr := wPair, pa := {  }, mem := [(0x80000548, 9), (0x8000054C, 7)] }, (5 : Nat), by decide⟩,
    ⟨{ wS [(R.PAIR_STATE_ROLE, 1), (R.PAIR_STATE_TIE_UP, 1), (R.PAIR_CFG_RESERVE_US, 2000), (R.PAIR_CFG_WIT_RESERVE_US, 3000), (R.PAIR_CTRL_ALONE_MS, 500), (R.TAMPER_STATE_OWNER, 1), (R.PAIR_FIX_RUNNING, 1), (R.PAIR_FIX_NEXT, 5)] with pr := wPair, pa := { fixed := [5] } }, (5 : Nat), by decide⟩,
    ⟨{ wS [(R.PAIR_STATE_ROLE, 1), (R.PAIR_STATE_TIE_UP, 1), (R.PAIR_CFG_RESERVE_US, 2000), (R.PAIR_CFG_WIT_RESERVE_US, 3000), (R.PAIR_CTRL_ALONE_MS, 500), (R.TAMPER_STATE_OWNER, 1), (R.PAIR_FIX_RUNNING, 1), (R.PAIR_FIX_NEXT, 1000)] with pr := wPair, pa := {  } }, by decide⟩,
    ⟨{ wS [(R.PAIR_STATE_ROLE, 1), (R.PAIR_STATE_TIE_UP, 1), (R.PAIR_CFG_RESERVE_US, 2000), (R.PAIR_CFG_WIT_RESERVE_US, 3000), (R.PAIR_CTRL_ALONE_MS, 500), (R.TAMPER_STATE_OWNER, 1)] with pr := wPair, pa := {  } }, by decide⟩,
    ⟨{ wS [(R.PAIR_STATE_ROLE, 1), (R.PAIR_STATE_TIE_UP, 1), (R.PAIR_CFG_RESERVE_US, 2000), (R.PAIR_CFG_WIT_RESERVE_US, 3000), (R.PAIR_CTRL_ALONE_MS, 500), (R.TAMPER_STATE_OWNER, 1), (R.UPL_STAT_LINK_UP 0, 1), (R.UPL_STAT_LINK_UP 1, 1)] with pr := wPair, pa := { naAt := some 100 }, ry := { port0 := { prefixes := [(5, 200)] } } }, (100 : Nat), by decide⟩,
    ⟨{ wS [(R.PAIR_STATE_ROLE, 1), (R.PAIR_STATE_TIE_UP, 1), (R.PAIR_CFG_RESERVE_US, 2000), (R.PAIR_CFG_WIT_RESERVE_US, 3000), (R.PAIR_CTRL_ALONE_MS, 500), (R.TAMPER_STATE_OWNER, 1)] with pr := wPair, pa := { naAt := some 100 } }, (99 : Nat), by decide⟩,
    ⟨{ wS [(R.PAIR_STATE_ROLE, 1), (R.PAIR_STATE_TIE_UP, 1), (R.PAIR_CFG_RESERVE_US, 2000), (R.PAIR_CFG_WIT_RESERVE_US, 3000), (R.PAIR_CTRL_ALONE_MS, 500), (R.TAMPER_STATE_OWNER, 1)] with pr := wPair, pa := {  }, rd := { trxs := [(0, { onAir := some (wCmd 1 0 90000 5) })] } }, by decide⟩,
    ⟨{ wS [(R.PAIR_STATE_ROLE, 1), (R.PAIR_STATE_TIE_UP, 1), (R.PAIR_CFG_RESERVE_US, 2000), (R.PAIR_CFG_WIT_RESERVE_US, 3000), (R.PAIR_CTRL_ALONE_MS, 500), (R.TAMPER_STATE_OWNER, 1)] with pr := wPair, pa := {  }, ro := { closed := [[], []] } }, by decide⟩,
    ⟨{ wS [(R.PAIR_STATE_ROLE, 1), (R.PAIR_STATE_TIE_UP, 1), (R.PAIR_CFG_RESERVE_US, 2000), (R.PAIR_CFG_WIT_RESERVE_US, 3000), (R.PAIR_CTRL_ALONE_MS, 500), (R.TAMPER_STATE_OWNER, 1), (R.PAIR_STATE_PEER_ROLE, 3)] with pr := { wPair with table := { wPair.table with regions := [(0, 0x100), (0x4000000, 0x800000), (0x4800000, 0), (0x4C00000, 0x400000), (0x5000000, 0x800000), (0x6000000, 0x1000000), (0x7000000, 0x40), (0x7400000, 0x80)] } }, pa := {  } }, by decide⟩,
    ⟨{ wS [(R.PAIR_STATE_ROLE, 1), (R.PAIR_STATE_TIE_UP, 1), (R.PAIR_CFG_RESERVE_US, 2000), (R.PAIR_CFG_WIT_RESERVE_US, 3000), (R.PAIR_CTRL_ALONE_MS, 500), (R.TAMPER_STATE_OWNER, 1), (R.PAIR_STATE_PEER_ROLE, 2)] with pr := wPair, pa := {  } }, by decide⟩,
    ⟨{ wS [(R.PAIR_STATE_ROLE, 3), (R.PAIR_STATE_TIE_UP, 1), (R.PAIR_CFG_RESERVE_US, 2000), (R.PAIR_CFG_WIT_RESERVE_US, 3000), (R.PAIR_CTRL_ALONE_MS, 500), (R.TAMPER_STATE_OWNER, 1), (R.PAIR_STATE_RESYNC, 1)] with pr := { wPair with table := { wPair.table with nodeLimit := 2 } }, pa := {  } }, by decide⟩,
    ⟨{ wS [(R.PAIR_STATE_ROLE, 3), (R.PAIR_STATE_TIE_UP, 1), (R.PAIR_CFG_RESERVE_US, 2000), (R.PAIR_CFG_WIT_RESERVE_US, 3000), (R.PAIR_CTRL_ALONE_MS, 500), (R.TAMPER_STATE_OWNER, 1)] with pr := wPair, pa := {  } }, by decide⟩⟩

/-- States and operands that meet the hypotheses of each clause of UpdateService. -/
theorem test_UpdateService_witness :
    (∃ s : State, ∃ k : Nat, (s.Inv) ∧ (s.openCall k svcUpdate 1 = none)) ∧
    (∃ s : State, ∃ k : Nat, ∃ q : Ticket, (s.Inv) ∧ (s.openCall k svcUpdate 1 = some q) ∧ (s.auditRoom = false)) ∧
    (∃ s : State, ∃ k : Nat, ∃ q : Ticket, (s.Inv) ∧ (s.openCall k svcUpdate 1 = some q) ∧ (s.auditRoom = true)) ∧
    (∃ s : State, ∃ k : Nat, (s.Inv) ∧ (s.openCall k svcUpdate 2 = none)) ∧
    (∃ s : State, ∃ k : Nat, ∃ q : Ticket, ∃ i : Nat, ∃ a : Nat, ∃ u : Nat, ∃ l : List Byte, (s.Inv) ∧ (s.openCall k svcUpdate 2 = some q) ∧ (((s.advance u).writeFault (some q.cred) i a l 1024).isSome = true)) ∧
    (∃ s : State, ∃ k : Nat, ∃ q : Ticket, ∃ i : Nat, ∃ a : Nat, ∃ u : Nat, ∃ l : List Byte, ∃ f : Bool, ∃ v : UpSession, ∃ e : ManEntry, (s.Inv) ∧ (s.openCall k svcUpdate 2 = some q) ∧ ((s.advance u).writeFault (some q.cred) i a l 1024 = none) ∧ (s.up.session = some v ∧ v.man.entries[i]? = some e) ∧ (s.isOurs e = false ∨ (Store.get (fun _ => ([] : List Byte)) v.page i ++ l).length < 4096 ∨ f = true)) ∧
    (∃ s : State, ∃ k : Nat, ∃ q : Ticket, ∃ i : Nat, ∃ a : Nat, ∃ u : Nat, ∃ l : List Byte, ∃ v : UpSession, ∃ e : ManEntry, (s.Inv) ∧ (s.openCall k svcUpdate 2 = some q) ∧ ((s.advance u).writeFault (some q.cred) i a l 1024 = none) ∧ (s.up.session = some v ∧ v.man.entries[i]? = some e) ∧ (s.isOurs e = true ∧ 4096 ≤ (Store.get (fun _ => ([] : List Byte)) v.page i ++ l).length)) ∧
    (∃ s : State, ∃ k : Nat, ∃ q : Ticket, ∃ f : Bool, ∃ v : UpSession, (s.Inv) ∧ (s.openCall k svcUpdate 3 = some q) ∧ (s.up.session = some v ∧ v.holder = some q.cred ∧ v.waiting = none) ∧ (v.page = [] ∨ f = true)) ∧
    (∃ s : State, ∃ k : Nat, ∃ q : Ticket, ∃ v : UpSession, (s.Inv) ∧ (s.openCall k svcUpdate 3 = some q) ∧ (s.up.session = some v ∧ v.holder = some q.cred ∧ v.waiting = none) ∧ (v.page ≠ [])) ∧
    (∃ s : State, ∃ k : Nat, ∃ q : Ticket, (s.Inv) ∧ (s.openCall k svcUpdate 3 = some q) ∧ (s.up.session.all (fun (v : UpSession) => v.holder != some q.cred || v.waiting.isSome) = true)) ∧
    (∃ s : State, ∃ k : Nat, (s.Inv) ∧ (s.openCall k svcUpdate 3 = none)) ∧
    (∃ s : State, ∃ k : Nat, (s.Inv) ∧ (s.openCall k svcUpdate 4 = none)) ∧
    (∃ s : State, ∃ k : Nat, ∃ q : Ticket, (s.Inv) ∧ (s.openCall k svcUpdate 4 = some q) ∧ (s.auditRoom = false)) ∧
    (∃ s : State, ∃ k : Nat, ∃ q : Ticket, ∃ w : Option Nat, (s.Inv) ∧ (s.openCall k svcUpdate 4 = some q) ∧ (s.auditRoom = true) ∧ (s.slotState s.upSlot = 1 ∧ s.slotRec.trial = 0 ∧ s.up.stager = some q.cred) ∧ (10 ≤ (w.getD (s.getF R.UPDATE_CFG_WINDOW_S)) ∧ (w.getD (s.getF R.UPDATE_CFG_WINDOW_S)) ≤ 3600) ∧ (s.pairOn = false)) ∧
    (∃ s : State, ∃ k : Nat, ∃ q : Ticket, ∃ w : Option Nat, (s.Inv) ∧ (s.openCall k svcUpdate 4 = some q) ∧ (s.auditRoom = true) ∧ (s.slotState s.upSlot = 1 ∧ s.slotRec.trial = 0 ∧ s.up.stager = some q.cred) ∧ (10 ≤ (w.getD (s.getF R.UPDATE_CFG_WINDOW_S)) ∧ (w.getD (s.getF R.UPDATE_CFG_WINDOW_S)) ≤ 3600) ∧ (s.pairOn = true)) ∧
    (∃ s : State, ∃ k : Nat, ∃ q : Ticket, ∃ w : Option Nat, (s.Inv) ∧ (s.openCall k svcUpdate 4 = some q) ∧ (s.auditRoom = true) ∧ ((w.getD (s.getF R.UPDATE_CFG_WINDOW_S)) < 10 ∨ 3600 < (w.getD (s.getF R.UPDATE_CFG_WINDOW_S)) ∨ s.slotState s.upSlot ≠ 1 ∨ s.slotRec.trial ≠ 0 ∨ s.up.stager ≠ some q.cred)) ∧
    (∃ s : State, ∃ k : Nat, (s.Inv) ∧ (s.openCall k svcUpdate 5 = none)) ∧
    (∃ s : State, ∃ k : Nat, ∃ q : Ticket, (s.Inv) ∧ (s.openCall k svcUpdate 5 = some q)) ∧
    (∃ s : State, ∃ k : Nat, (s.Inv) ∧ (s.openCall k svcUpdate 6 = none)) ∧
    (∃ s : State, ∃ k : Nat, ∃ q : Ticket, (s.Inv) ∧ (s.openCall k svcUpdate 6 = some q)) :=
  ⟨⟨wS [], (9 : Nat), by decide⟩,
    ⟨{ wS [(R.UPDATE_CFG_IDLE_S, 600), (R.UPDATE_CFG_TRIES, 3), (R.UPDATE_CFG_WINDOW_S, 900), (R.PAIR_STATE_ROLE, 0)] with pr := wPr, cmp := { tickets := [(9, { role := 1, svc := svcUpdate, op := 1, cred := 77 })] }, up := { rec_ := some ⟨0, 0, 3, [4, 0], 2, [0, 1], 600, [1, 2], [7, 8]⟩ }, ro := { closed := [[], []] } }, (9 : Nat), ({ role := 1, svc := svcUpdate, op := 1, cred := 77 } : Ticket), by decide⟩,
    ⟨{ wS [(R.UPDATE_CFG_IDLE_S, 600), (R.UPDATE_CFG_TRIES, 3), (R.UPDATE_CFG_WINDOW_S, 900), (R.PAIR_STATE_ROLE, 0)] with pr := wPr, cmp := { tickets := [(9, { role := 1, svc := svcUpdate, op := 1, cred := 77 })] }, up := { rec_ := some ⟨0, 0, 3, [4, 0], 2, [0, 1], 600, [1, 2], [7, 8]⟩ } }, (9 : Nat), ({ role := 1, svc := svcUpdate, op := 1, cred := 77 } : Ticket), by decide⟩,
    ⟨wS [], (9 : Nat), by decide⟩,
    ⟨{ wS [(R.UPDATE_CFG_IDLE_S, 600), (R.UPDATE_CFG_TRIES, 3), (R.UPDATE_CFG_WINDOW_S, 900), (R.PAIR_STATE_ROLE, 0)] with pr := wPr, cmp := { tickets := [(9, { role := 1, svc := svcUpdate, op := 2, cred := 77 })] }, up := { rec_ := some ⟨0, 0, 3, [4, 0], 2, [0, 1], 600, [1, 2], [7, 8]⟩ } }, (9 : Nat), ({ role := 1, svc := svcUpdate, op := 2, cred := 77 } : Ticket), (0 : Nat), (0 : Nat), (100 : Nat), ([1] : List Byte), by decide⟩,
    ⟨{ wS [(R.UPDATE_CFG_IDLE_S, 600), (R.UPDATE_CFG_TRIES, 3), (R.UPDATE_CFG_WINDOW_S, 900), (R.PAIR_STATE_ROLE, 0)] with pr := wPr, cmp := { tickets := [(9, { role := 1, svc := svcUpdate, op := 2, cred := 77 })] }, up := { rec_ := some ⟨0, 0, 3, [4, 0], 2, [0, 1], 600, [1, 2], [7, 8]⟩, session := some { holder := some 77, man := ⟨0, 0, 0, 0, 0, 0, 0, 3, 9, 0, [⟨6, 0, 0, 0, 9, 0, 0⟩, ⟨1, 0, 0, 0, 8192, 0, 0⟩, ⟨6, 2, 0, 0, 10, 0, 0⟩], 5, 0, true, true⟩, raw := [1, 2, 3], held := [(0, 3)], lastOff := [(0, 2)], lastDat := [(0, [1])] } } }, (9 : Nat), ({ role := 1, svc := svcUpdate, op := 2, cred := 77 } : Ticket), (0 : Nat), (3 : Nat), (100 : Nat), ([1] : List Byte), (false : Bool), (({ holder := some 77, man := ⟨0, 0, 0, 0, 0, 0, 0, 3, 9, 0, [⟨6, 0, 0, 0, 9, 0, 0⟩, ⟨1, 0, 0, 0, 8192, 0, 0⟩, ⟨6, 2, 0, 0, 10, 0, 0⟩], 5, 0, true, true⟩, raw := [1, 2, 3], held := [(0, 3)], lastOff := [(0, 2)], lastDat := [(0, [1])] }) : UpSession), (⟨6, 0, 0, 0, 9, 0, 0⟩ : ManEntry), by decide⟩,
    ⟨{ wS [(R.UPDATE_CFG_IDLE_S, 600), (R.UPDATE_CFG_TRIES, 3), (R.UPDATE_CFG_WINDOW_S, 900), (R.PAIR_STATE_ROLE, 0)] with pr := wPr, cmp := { tickets := [(9, { role := 1, svc := svcUpdate, op := 2, cred := 77 })] }, up := { rec_ := some ⟨0, 0, 3, [4, 0], 2, [0, 1], 600, [1, 2], [7, 8]⟩, session := some { holder := some 77, man := ⟨0, 0, 0, 0, 0, 0, 0, 3, 9, 0, [⟨6, 0, 0, 0, 9, 0, 0⟩, ⟨1, 0, 0, 0, 8192, 0, 0⟩, ⟨6, 2, 0, 0, 10, 0, 0⟩], 5, 0, true, true⟩, raw := [1, 2, 3], held := [(1, 4095)], page := [(1, List.replicate 4095 3)] } } }, (9 : Nat), ({ role := 1, svc := svcUpdate, op := 2, cred := 77 } : Ticket), (1 : Nat), (4095 : Nat), (100 : Nat), ([1, 2] : List Byte), (({ holder := some 77, man := ⟨0, 0, 0, 0, 0, 0, 0, 3, 9, 0, [⟨6, 0, 0, 0, 9, 0, 0⟩, ⟨1, 0, 0, 0, 8192, 0, 0⟩, ⟨6, 2, 0, 0, 10, 0, 0⟩], 5, 0, true, true⟩, raw := [1, 2, 3], held := [(1, 4095)], page := [(1, List.replicate 4095 3)] }) : UpSession), (⟨1, 0, 0, 0, 8192, 0, 0⟩ : ManEntry), by decide +kernel⟩,
    ⟨{ wS [(R.UPDATE_CFG_IDLE_S, 600), (R.UPDATE_CFG_TRIES, 3), (R.UPDATE_CFG_WINDOW_S, 900), (R.PAIR_STATE_ROLE, 0)] with pr := wPr, cmp := { tickets := [(9, { role := 1, svc := svcUpdate, op := 3, cred := 77 })] }, up := { rec_ := some ⟨0, 0, 3, [4, 0], 2, [0, 1], 600, [1, 2], [7, 8]⟩, session := some { holder := some 77, man := ⟨0, 0, 0, 0, 0, 0, 0, 3, 9, 0, [⟨6, 0, 0, 0, 9, 0, 0⟩, ⟨1, 0, 0, 0, 8192, 0, 0⟩, ⟨6, 2, 0, 0, 10, 0, 0⟩], 5, 0, true, true⟩, raw := [1, 2, 3], held := [(0, 9), (1, 8192)], page := [(0, [1, 2, 3, 4, 5, 6, 7, 8, 9])] } } }, (9 : Nat), ({ role := 1, svc := svcUpdate, op := 3, cred := 77 } : Ticket), (true : Bool), (({ holder := some 77, man := ⟨0, 0, 0, 0, 0, 0, 0, 3, 9, 0, [⟨6, 0, 0, 0, 9, 0, 0⟩, ⟨1, 0, 0, 0, 8192, 0, 0⟩, ⟨6, 2, 0, 0, 10, 0, 0⟩], 5, 0, true, true⟩, raw := [1, 2, 3], held := [(0, 9), (1, 8192)], page := [(0, [1, 2, 3, 4, 5, 6, 7, 8, 9])] }) : UpSession), by decide⟩,
    ⟨{ wS [(R.UPDATE_CFG_IDLE_S, 600), (R.UPDATE_CFG_TRIES, 3), (R.UPDATE_CFG_WINDOW_S, 900), (R.PAIR_STATE_ROLE, 0)] with pr := wPr, cmp := { tickets := [(9, { role := 1, svc := svcUpdate, op := 3, cred := 77 })] }, up := { rec_ := some ⟨0, 0, 3, [4, 0], 2, [0, 1], 600, [1, 2], [7, 8]⟩, session := some { holder := some 77, man := ⟨0, 0, 0, 0, 0, 0, 0, 3, 9, 0, [⟨6, 0, 0, 0, 9, 0, 0⟩, ⟨1, 0, 0, 0, 8192, 0, 0⟩, ⟨6, 2, 0, 0, 10, 0, 0⟩], 5, 0, true, true⟩, raw := [1, 2, 3], held := [(0, 9), (1, 8192)], page := [(0, [1, 2, 3, 4, 5, 6, 7, 8, 9])] } } }, (9 : Nat), ({ role := 1, svc := svcUpdate, op := 3, cred := 77 } : Ticket), (({ holder := some 77, man := ⟨0, 0, 0, 0, 0, 0, 0, 3, 9, 0, [⟨6, 0, 0, 0, 9, 0, 0⟩, ⟨1, 0, 0, 0, 8192, 0, 0⟩, ⟨6, 2, 0, 0, 10, 0, 0⟩], 5, 0, true, true⟩, raw := [1, 2, 3], held := [(0, 9), (1, 8192)], page := [(0, [1, 2, 3, 4, 5, 6, 7, 8, 9])] }) : UpSession), by decide⟩,
    ⟨{ wS [(R.UPDATE_CFG_IDLE_S, 600), (R.UPDATE_CFG_TRIES, 3), (R.UPDATE_CFG_WINDOW_S, 900), (R.PAIR_STATE_ROLE, 0)] with pr := wPr, cmp := { tickets := [(9, { role := 1, svc := svcUpdate, op := 3, cred := 77 })] }, up := { rec_ := some ⟨0, 0, 3, [4, 0], 2, [0, 1], 600, [1, 2], [7, 8]⟩ } }, (9 : Nat), ({ role := 1, svc := svcUpdate, op := 3, cred := 77 } : Ticket), by decide⟩,
    ⟨wS [], (9 : Nat), by decide⟩,
    ⟨wS [], (9 : Nat), by decide⟩,
    ⟨{ wS [(R.UPDATE_CFG_IDLE_S, 600), (R.UPDATE_CFG_TRIES, 3), (R.UPDATE_CFG_WINDOW_S, 900), (R.PAIR_STATE_ROLE, 0)] with pr := wPr, cmp := { tickets := [(9, { role := 1, svc := svcUpdate, op := 4, cred := 77 })] }, up := { rec_ := some ⟨0, 0, 3, [4, 0], 2, [0, 1], 600, [1, 2], [7, 8]⟩ }, ro := { closed := [[], []] } }, (9 : Nat), ({ role := 1, svc := svcUpdate, op := 4, cred := 77 } : Ticket), by decide⟩,
    ⟨{ wS [(R.UPDATE_CFG_IDLE_S, 600), (R.UPDATE_CFG_TRIES, 3), (R.UPDATE_CFG_WINDOW_S, 900), (R.PAIR_STATE_ROLE, 0)] with pr := wPr, cmp := { tickets := [(9, { role := 1, svc := svcUpdate, op := 4, cred := 77 })] }, up := { rec_ := some ⟨0, 0, 3, [4, 1], 2, [0, 1], 600, [1, 2], [7, 8]⟩, stager := some 77 } }, (9 : Nat), ({ role := 1, svc := svcUpdate, op := 4, cred := 77 } : Ticket), (none : Option Nat), by decide⟩,
    ⟨{ wS [(R.UPDATE_CFG_IDLE_S, 600), (R.UPDATE_CFG_TRIES, 3), (R.UPDATE_CFG_WINDOW_S, 900), (R.PAIR_STATE_ROLE, 1)] with pr := wPair, cmp := { tickets := [(9, { role := 1, svc := svcUpdate, op := 4, cred := 77 })] }, up := { rec_ := some ⟨0, 0, 3, [4, 1], 2, [0, 1], 600, [1, 2], [7, 8]⟩, stager := some 77 } }, (9 : Nat), ({ role := 1, svc := svcUpdate, op := 4, cred := 77 } : Ticket), (none : Option Nat), by decide⟩,
    ⟨{ wS [(R.UPDATE_CFG_IDLE_S, 600), (R.UPDATE_CFG_TRIES, 3), (R.UPDATE_CFG_WINDOW_S, 900), (R.PAIR_STATE_ROLE, 0)] with pr := wPr, cmp := { tickets := [(9, { role := 1, svc := svcUpdate, op := 4, cred := 77 })] }, up := { rec_ := some ⟨0, 0, 3, [4, 1], 2, [0, 1], 600, [1, 2], [7, 8]⟩, stager := some 77 } }, (9 : Nat), ({ role := 1, svc := svcUpdate, op := 4, cred := 77 } : Ticket), (some 9 : Option Nat), by decide⟩,
    ⟨wS [], (9 : Nat), by decide⟩,
    ⟨{ wS [(R.UPDATE_CFG_IDLE_S, 600), (R.UPDATE_CFG_TRIES, 3), (R.UPDATE_CFG_WINDOW_S, 900), (R.PAIR_STATE_ROLE, 0)] with pr := wPr, cmp := { tickets := [(9, { role := 1, svc := svcUpdate, op := 5, cred := 77 })] }, up := { rec_ := some ⟨0, 0, 3, [4, 0], 2, [0, 1], 600, [1, 2], [7, 8]⟩, session := some { holder := some 77, man := ⟨0, 0, 0, 0, 0, 0, 0, 3, 9, 0, [⟨6, 0, 0, 0, 9, 0, 0⟩, ⟨1, 0, 0, 0, 8192, 0, 0⟩, ⟨6, 2, 0, 0, 10, 0, 0⟩], 5, 0, true, true⟩, raw := [1, 2, 3] } } }, (9 : Nat), ({ role := 1, svc := svcUpdate, op := 5, cred := 77 } : Ticket), by decide⟩,
    ⟨wS [], (9 : Nat), by decide⟩,
    ⟨{ wS [(R.UPDATE_CFG_IDLE_S, 600), (R.UPDATE_CFG_TRIES, 3), (R.UPDATE_CFG_WINDOW_S, 900), (R.PAIR_STATE_ROLE, 0), (R.UPDATE_STATE_BOOTED, 1)] with pr := wPr, cmp := { tickets := [(9, { role := 1, svc := svcUpdate, op := 6, cred := 77 })] }, up := { rec_ := some ⟨0, 2, 3, [4, 2], 2, [0, 1], 600, [1, 2], [7, 8]⟩, session := some { holder := some 77, man := ⟨0, 0, 0, 0, 0, 0, 0, 3, 9, 0, [⟨6, 0, 0, 0, 9, 0, 0⟩, ⟨1, 0, 0, 0, 8192, 0, 0⟩, ⟨6, 2, 0, 0, 10, 0, 0⟩], 5, 0, true, true⟩, raw := [1, 2, 3] } } }, (9 : Nat), ({ role := 1, svc := svcUpdate, op := 6, cred := 77 } : Ticket), by decide⟩⟩

/-- States and operands that meet the hypotheses of each clause of UpdateTrials. -/
theorem test_UpdateTrials_witness :
    (∃ s : State, (s.Inv) ∧ (s.auditRoom = true ∧ s.trialRuns = true) ∧ (s.pairOn = false)) ∧
    (∃ s : State, (s.Inv) ∧ (s.auditRoom = true ∧ s.trialRuns = true) ∧ (s.pairOn = true ∧ s.slotState s.upSlot = 3)) ∧
    (∃ s : State, (s.Inv) ∧ (s.auditRoom = true ∧ s.trialRuns = true) ∧ (s.pairOn = true ∧ s.slotState s.upSlot ≠ 3 ∧ s.upSlot < s.slotRec.states.length)) ∧
    (∃ s : State, ∃ m : Bool, (s.Inv) ∧ (s.auditRoom = true) ∧ (m = false ∨ s.trialRuns = false)) ∧
    (∃ s : State, (s.Inv) ∧ (s.auditRoom = false)) ∧
    (∃ s : State, (s.Inv) ∧ (s.auditRoom = true ∧ s.trialRuns = true)) ∧
    (∃ s : State, ∃ u : Nat, (s.Inv) ∧ (s.trialRuns = true ∧ s.su.heldFrom = none ∧ s.up.trialAt.any (fun a => decide (a + s.slotRec.windowS * secCyc + s.up.heldCyc ≤ max s.mtb u)) = true) ∧ (s.pairOn = false)) ∧
    (∃ s : State, ∃ u : Nat, (s.Inv) ∧ (s.trialRuns = true ∧ s.su.heldFrom = none ∧ s.up.trialAt.any (fun a => decide (a + s.slotRec.windowS * secCyc + s.up.heldCyc ≤ max s.mtb u)) = true) ∧ (s.pr.pair.any (fun (p : PairSec) => p.pref == 0) = true)) ∧
    (∃ s : State, ∃ u : Nat, (s.Inv) ∧ (s.trialRuns = true ∧ s.su.heldFrom = none ∧ s.up.trialAt.any (fun a => decide (a + s.slotRec.windowS * secCyc + s.up.heldCyc ≤ max s.mtb u)) = true) ∧ (s.pr.pair.any (fun (p : PairSec) => p.pref != 0) = true)) ∧
    (∃ s : State, ∃ u : Nat, (s.Inv) ∧ (¬ (s.trialRuns = true ∧ s.su.heldFrom = none ∧ s.up.trialAt.any (fun a => decide (a + s.slotRec.windowS * secCyc + s.up.heldCyc ≤ max s.mtb u)) = true))) ∧
    (∃ s : State, ∃ u : Nat, (s.Inv) ∧ (s.up.session.any (fun (v : UpSession) => v.waiting.isNone && decide (v.at_ + s.getF R.UPDATE_CFG_IDLE_S * secCyc ≤ max s.mtb u)) = true)) ∧
    (∃ s : State, ∃ u : Nat, (s.Inv) ∧ (¬ (s.up.session.any (fun (v : UpSession) => v.waiting.isNone && decide (v.at_ + s.getF R.UPDATE_CFG_IDLE_S * secCyc ≤ max s.mtb u)) = true))) ∧
    (∃ s : State, (s.Inv) ∧ (s.upLink = true)) ∧
    (∃ s : State, (s.Inv) ∧ (¬ (s.upLink = true))) ∧
    (∃ s : State, ∃ i : Nat, ∃ a : Nat, ∃ u : Nat, ∃ l : List Byte, (s.Inv) ∧ (¬ (s.upLink = true ∧ ((s.advance u).writeFault none i a l 4088).isNone = true))) ∧
    (∃ s : State, ∃ i : Nat, ∃ a : Nat, ∃ u : Nat, ∃ l : List Byte, ∃ f : Bool, ∃ v : UpSession, ∃ e : ManEntry, (s.Inv) ∧ (s.upLink = true ∧ (s.advance u).writeFault none i a l 4088 = none) ∧ (s.up.session = some v ∧ v.man.entries[i]? = some e) ∧ (s.isOurs e = false ∨ (Store.get (fun _ => ([] : List Byte)) v.page i ++ l).length < 4096 ∨ f = true)) ∧
    (∃ s : State, ∃ i : Nat, ∃ a : Nat, ∃ u : Nat, ∃ l : List Byte, ∃ v : UpSession, ∃ e : ManEntry, (s.Inv) ∧ (s.upLink = true ∧ (s.advance u).writeFault none i a l 4088 = none) ∧ (s.up.session = some v ∧ v.man.entries[i]? = some e) ∧ (s.isOurs e = true ∧ 4096 ≤ (Store.get (fun _ => ([] : List Byte)) v.page i ++ l).length)) ∧
    (∃ s : State, ∃ i : Nat, ∃ a : Nat, ∃ u : Nat, ∃ l : List Byte, ∃ f : Bool, ∃ x : UpSession, (s.Inv) ∧ (s.upLink = true ∧ (s.advance u).writeFault none i a l 4088 = none) ∧ (((s.advance u).upWrite i a l f).up.session = some x)) ∧
    (∃ s : State, ∃ d : BitVec 64, ∃ w : Nat, (s.Inv) ∧ (s.upLink = true ∧ s.pairRole = 2 ∧ s.slotState s.upSlot = 1 ∧ s.slotRec.trial = 0 ∧ s.slotDig s.upSlot = d.toNat ∧ 10 ≤ w ∧ w ≤ 3600)) ∧
    (∃ s : State, ∃ d : BitVec 64, ∃ w : Nat, (s.Inv) ∧ (¬ (s.upLink = true ∧ s.pairRole = 2 ∧ s.slotState s.upSlot = 1 ∧ s.slotRec.trial = 0 ∧ s.slotDig s.upSlot = d.toNat ∧ 10 ≤ w ∧ w ≤ 3600))) ∧
    (∃ s : State, ∃ v : UpSession, (s.Inv) ∧ (s.upLink = true) ∧ (s.up.session = some v)) ∧
    (∃ s : State, ∃ d : BitVec 64, (s.Inv) ∧ (s.upLink = true ∧ s.up.session = none) ∧ (d.toNat = s.slotDig s.upSlot) ∧ (s.onTrial = true ∨ s.up.pairWait ≠ 0)) ∧
    (∃ s : State, ∃ d : BitVec 64, ∃ r : Fin 8, (s.Inv) ∧ (s.upLink = true ∧ s.up.session = none) ∧ (s.onTrial = false ∧ s.slotState s.upSlot = 1) ∧ ((d.toNat = s.slotDig s.upSlot ∧ r.val = 3 ∧ s.up.pairWait = 1) ∨ (s.up.pairWait = 2 ∧ (d.toNat ≠ s.slotDig s.upSlot ∨ r.val < 4)))) ∧
    (∃ s : State, (s.Inv) ∧ (s.upLink = true ∧ s.up.session = none) ∧ (s.onTrial = false ∧ s.up.pairWait = 0)) ∧
    (∃ s : State, (s.Inv) ∧ (s.upLink = true ∧ s.up.session.any (fun (v : UpSession) => v.holder.isNone) = true)) ∧
    (∃ s : State, (s.Inv) ∧ (¬ (s.upLink = true ∧ s.up.session.any (fun (v : UpSession) => v.holder.isNone) = true))) ∧
    (∃ s : State, ∃ u : Nat, (s.Inv) ∧ (s.upLink = true ∧ s.up.resultTo.any (fun e => decide (max s.mtb u ≤ e)) = true ∧ s.up.resultAt.all (fun a => decide (a + msToCyc 100 ≤ max s.mtb u)) = true)) ∧
    (∃ s : State, ∃ u : Nat, (s.Inv) ∧ (¬ (s.upLink = true ∧ s.up.resultTo.any (fun e => decide (max s.mtb u ≤ e)) = true ∧ s.up.resultAt.all (fun a => decide (a + msToCyc 100 ≤ max s.mtb u)) = true))) :=
  ⟨⟨{ wS [(R.UPDATE_CFG_IDLE_S, 600), (R.UPDATE_CFG_TRIES, 3), (R.UPDATE_CFG_WINDOW_S, 900), (R.PAIR_STATE_ROLE, 0), (R.UPDATE_STATE_BOOTED, 1)] with pr := wPr, cmp := { tickets := [(9, { role := 1, svc := svcUpdate, op := 9, cred := 77 })] }, up := { rec_ := some ⟨0, 2, 3, [4, 2], 2, [0, 1], 600, [1, 2], [7, 8]⟩, rolls := [0, 5], trialAt := some 0 } }, by decide⟩,
    ⟨{ wS [(R.UPDATE_CFG_IDLE_S, 600), (R.UPDATE_CFG_TRIES, 3), (R.UPDATE_CFG_WINDOW_S, 900), (R.PAIR_STATE_ROLE, 2), (R.UPDATE_STATE_BOOTED, 1)] with pr := wPair, cmp := { tickets := [(9, { role := 1, svc := svcUpdate, op := 9, cred := 77 })] }, up := { rec_ := some ⟨0, 2, 3, [4, 3], 2, [0, 1], 600, [1, 2], [7, 8]⟩, trialAt := some 0 } }, by decide⟩,
    ⟨{ wS [(R.UPDATE_CFG_IDLE_S, 600), (R.UPDATE_CFG_TRIES, 3), (R.UPDATE_CFG_WINDOW_S, 900), (R.PAIR_STATE_ROLE, 2), (R.UPDATE_STATE_BOOTED, 1)] with pr := wPair, cmp := { tickets := [(9, { role := 1, svc := svcUpdate, op := 9, cred := 77 })] }, up := { rec_ := some ⟨0, 2, 3, [4, 2], 2, [0, 1], 600, [1, 2], [7, 8]⟩, trialAt := some 0 } }, by decide⟩,
    ⟨{ wS [(R.UPDATE_CFG_IDLE_S, 600), (R.UPDATE_CFG_TRIES, 3), (R.UPDATE_CFG_WINDOW_S, 900), (R.PAIR_STATE_ROLE, 0), (R.UPDATE_STATE_BOOTED, 1)] with pr := wPr, cmp := { tickets := [(9, { role := 1, svc := svcUpdate, op := 9, cred := 77 })] }, up := { rec_ := some ⟨0, 2, 3, [4, 2], 2, [0, 1], 600, [1, 2], [7, 8]⟩ } }, (false : Bool), by decide⟩,
    ⟨{ wS [(R.UPDATE_CFG_IDLE_S, 600), (R.UPDATE_CFG_TRIES, 3), (R.UPDATE_CFG_WINDOW_S, 900), (R.PAIR_STATE_ROLE, 0), (R.UPDATE_STATE_BOOTED, 1)] with pr := wPr, cmp := { tickets := [(9, { role := 1, svc := svcUpdate, op := 9, cred := 77 })] }, up := { rec_ := some ⟨0, 2, 3, [4, 2], 2, [0, 1], 600, [1, 2], [7, 8]⟩ }, ro := { closed := [[], []] } }, by decide⟩,
    ⟨{ wS [(R.UPDATE_CFG_IDLE_S, 600), (R.UPDATE_CFG_TRIES, 3), (R.UPDATE_CFG_WINDOW_S, 900), (R.PAIR_STATE_ROLE, 0), (R.UPDATE_STATE_BOOTED, 1)] with pr := wPr, cmp := { tickets := [(9, { role := 1, svc := svcUpdate, op := 9, cred := 77 })] }, up := { rec_ := some ⟨0, 2, 3, [4, 2], 2, [0, 1], 600, [1, 2], [7, 8]⟩, trialAt := some 0 } }, by decide⟩,
    ⟨{ wS [(R.UPDATE_CFG_IDLE_S, 600), (R.UPDATE_CFG_TRIES, 3), (R.UPDATE_CFG_WINDOW_S, 900), (R.PAIR_STATE_ROLE, 0), (R.UPDATE_STATE_BOOTED, 1)] with pr := wPr, cmp := { tickets := [(9, { role := 1, svc := svcUpdate, op := 9, cred := 77 })] }, up := { rec_ := some ⟨0, 2, 3, [4, 2], 2, [0, 1], 600, [1, 2], [7, 8]⟩, trialAt := some 0 } }, (600 * 1289062500 : Nat), by decide⟩,
    ⟨{ wS [(R.UPDATE_CFG_IDLE_S, 600), (R.UPDATE_CFG_TRIES, 3), (R.UPDATE_CFG_WINDOW_S, 900), (R.PAIR_STATE_ROLE, 2), (R.UPDATE_STATE_BOOTED, 1)] with pr := wPair, cmp := { tickets := [(9, { role := 1, svc := svcUpdate, op := 9, cred := 77 })] }, up := { rec_ := some ⟨0, 2, 3, [4, 3], 2, [0, 1], 600, [1, 2], [7, 8]⟩, trialAt := some 0 } }, (600 * 1289062500 : Nat), by decide⟩,
    ⟨{ wS [(R.UPDATE_CFG_IDLE_S, 600), (R.UPDATE_CFG_TRIES, 3), (R.UPDATE_CFG_WINDOW_S, 900), (R.PAIR_STATE_ROLE, 2), (R.UPDATE_STATE_BOOTED, 1)] with pr := { wPr with pair := some ⟨1, 3, 5000, 0⟩ }, cmp := { tickets := [(9, { role := 1, svc := svcUpdate, op := 9, cred := 77 })] }, up := { rec_ := some ⟨0, 2, 3, [4, 3], 2, [0, 1], 600, [1, 2], [7, 8]⟩, trialAt := some 0 } }, (600 * 1289062500 : Nat), by decide⟩,
    ⟨{ wS [(R.UPDATE_CFG_IDLE_S, 600), (R.UPDATE_CFG_TRIES, 3), (R.UPDATE_CFG_WINDOW_S, 900), (R.PAIR_STATE_ROLE, 0), (R.UPDATE_STATE_BOOTED, 1)] with pr := wPr, cmp := { tickets := [(9, { role := 1, svc := svcUpdate, op := 9, cred := 77 })] }, up := { rec_ := some ⟨0, 2, 3, [4, 2], 2, [0, 1], 600, [1, 2], [7, 8]⟩, trialAt := some 0 } }, (600 * 1289062500 - 1 : Nat), by decide⟩,
    ⟨{ wS [(R.UPDATE_CFG_IDLE_S, 600), (R.UPDATE_CFG_TRIES, 3), (R.UPDATE_CFG_WINDOW_S, 900), (R.PAIR_STATE_ROLE, 0)] with pr := wPr, cmp := { tickets := [(9, { role := 1, svc := svcUpdate, op := 9, cred := 77 })] }, up := { rec_ := some ⟨0, 0, 3, [4, 0], 2, [0, 1], 600, [1, 2], [7, 8]⟩, session := some { holder := some 77, man := ⟨0, 0, 0, 0, 0, 0, 0, 3, 9, 0, [⟨6, 0, 0, 0, 9, 0, 0⟩, ⟨1, 0, 0, 0, 8192, 0, 0⟩, ⟨6, 2, 0, 0, 10, 0, 0⟩], 5, 0, true, true⟩, raw := [1, 2, 3] } } }, (600 * 1289062500 : Nat), by decide⟩,
    ⟨{ wS [(R.UPDATE_CFG_IDLE_S, 600), (R.UPDATE_CFG_TRIES, 3), (R.UPDATE_CFG_WINDOW_S, 900), (R.PAIR_STATE_ROLE, 0)] with pr := wPr, cmp := { tickets := [(9, { role := 1, svc := svcUpdate, op := 9, cred := 77 })] }, up := { rec_ := some ⟨0, 0, 3, [4, 0], 2, [0, 1], 600, [1, 2], [7, 8]⟩, session := some { holder := some 77, man := ⟨0, 0, 0, 0, 0, 0, 0, 3, 9, 0, [⟨6, 0, 0, 0, 9, 0, 0⟩, ⟨1, 0, 0, 0, 8192, 0, 0⟩, ⟨6, 2, 0, 0, 10, 0, 0⟩], 5, 0, true, true⟩, raw := [1, 2, 3] } } }, (600 * 1289062500 - 1 : Nat), by decide⟩,
    ⟨{ wS [(R.UPDATE_CFG_IDLE_S, 600), (R.UPDATE_CFG_TRIES, 3), (R.UPDATE_CFG_WINDOW_S, 900), (R.PAIR_STATE_ROLE, 2), (R.PAIR_STATE_TIE_UP, 1)] with pr := wPair, cmp := { tickets := [(9, { role := 1, svc := svcUpdate, op := 9, cred := 77 })] }, up := { rec_ := some ⟨0, 0, 3, [4, 0], 2, [0, 1], 600, [1, 2], [7, 8]⟩ } }, by decide⟩,
    ⟨{ wS [(R.UPDATE_CFG_IDLE_S, 600), (R.UPDATE_CFG_TRIES, 3), (R.UPDATE_CFG_WINDOW_S, 900), (R.PAIR_STATE_ROLE, 0)] with pr := wPr, cmp := { tickets := [(9, { role := 1, svc := svcUpdate, op := 9, cred := 77 })] }, up := { rec_ := some ⟨0, 0, 3, [4, 0], 2, [0, 1], 600, [1, 2], [7, 8]⟩ } }, by decide⟩,
    ⟨{ wS [(R.UPDATE_CFG_IDLE_S, 600), (R.UPDATE_CFG_TRIES, 3), (R.UPDATE_CFG_WINDOW_S, 900), (R.PAIR_STATE_ROLE, 2), (R.PAIR_STATE_TIE_UP, 1)] with pr := wPair, cmp := { tickets := [(9, { role := 1, svc := svcUpdate, op := 9, cred := 77 })] }, up := { rec_ := some ⟨0, 0, 3, [4, 0], 2, [0, 1], 600, [1, 2], [7, 8]⟩, session := some { holder := none, man := ⟨0, 0, 0, 0, 0, 0, 0, 3, 9, 0, [⟨6, 0, 0, 0, 9, 0, 0⟩, ⟨1, 0, 0, 0, 8192, 0, 0⟩, ⟨6, 2, 0, 0, 10, 0, 0⟩], 5, 0, true, true⟩, raw := [1, 2, 3] } } }, (0 : Nat), (1 : Nat), (100 : Nat), ([1] : List Byte), by decide⟩,
    ⟨{ wS [(R.UPDATE_CFG_IDLE_S, 600), (R.UPDATE_CFG_TRIES, 3), (R.UPDATE_CFG_WINDOW_S, 900), (R.PAIR_STATE_ROLE, 2), (R.PAIR_STATE_TIE_UP, 1)] with pr := wPair, cmp := { tickets := [(9, { role := 1, svc := svcUpdate, op := 9, cred := 77 })] }, up := { rec_ := some ⟨0, 0, 3, [4, 0], 2, [0, 1], 600, [1, 2], [7, 8]⟩, session := some { holder := none, man := ⟨0, 0, 0, 0, 0, 0, 0, 3, 9, 0, [⟨6, 0, 0, 0, 9, 0, 0⟩, ⟨1, 0, 0, 0, 8192, 0, 0⟩, ⟨6, 2, 0, 0, 10, 0, 0⟩], 5, 0, true, true⟩, raw := [1, 2, 3], held := [(1, 2)], page := [(1, [5, 6])] } } }, (1 : Nat), (2 : Nat), (100 : Nat), ([1] : List Byte), (true : Bool), (({ holder := none, man := ⟨0, 0, 0, 0, 0, 0, 0, 3, 9, 0, [⟨6, 0, 0, 0, 9, 0, 0⟩, ⟨1, 0, 0, 0, 8192, 0, 0⟩, ⟨6, 2, 0, 0, 10, 0, 0⟩], 5, 0, true, true⟩, raw := [1, 2, 3], held := [(1, 2)], page := [(1, [5, 6])] }) : UpSession), (⟨1, 0, 0, 0, 8192, 0, 0⟩ : ManEntry), by decide⟩,
    ⟨{ wS [(R.UPDATE_CFG_IDLE_S, 600), (R.UPDATE_CFG_TRIES, 3), (R.UPDATE_CFG_WINDOW_S, 900), (R.PAIR_STATE_ROLE, 2), (R.PAIR_STATE_TIE_UP, 1)] with pr := wPair, cmp := { tickets := [(9, { role := 1, svc := svcUpdate, op := 9, cred := 77 })] }, up := { rec_ := some ⟨0, 0, 3, [4, 0], 2, [0, 1], 600, [1, 2], [7, 8]⟩, session := some { holder := none, man := ⟨0, 0, 0, 0, 0, 0, 0, 3, 9, 0, [⟨6, 0, 0, 0, 9, 0, 0⟩, ⟨1, 0, 0, 0, 8192, 0, 0⟩, ⟨6, 2, 0, 0, 10, 0, 0⟩], 5, 0, true, true⟩, raw := [1, 2, 3], held := [(1, 4095)], page := [(1, List.replicate 4095 3)] } } }, (1 : Nat), (4095 : Nat), (100 : Nat), ([1, 2] : List Byte), (({ holder := none, man := ⟨0, 0, 0, 0, 0, 0, 0, 3, 9, 0, [⟨6, 0, 0, 0, 9, 0, 0⟩, ⟨1, 0, 0, 0, 8192, 0, 0⟩, ⟨6, 2, 0, 0, 10, 0, 0⟩], 5, 0, true, true⟩, raw := [1, 2, 3], held := [(1, 4095)], page := [(1, List.replicate 4095 3)] }) : UpSession), (⟨1, 0, 0, 0, 8192, 0, 0⟩ : ManEntry), by decide +kernel⟩,
    ⟨{ wS [(R.UPDATE_CFG_IDLE_S, 600), (R.UPDATE_CFG_TRIES, 3), (R.UPDATE_CFG_WINDOW_S, 900), (R.PAIR_STATE_ROLE, 2), (R.PAIR_STATE_TIE_UP, 1)] with pr := wPair, cmp := { tickets := [(9, { role := 1, svc := svcUpdate, op := 9, cred := 77 })] }, up := { rec_ := some ⟨0, 0, 3, [4, 0], 2, [0, 1], 600, [1, 2], [7, 8]⟩, session := some { holder := none, man := ⟨0, 0, 0, 0, 0, 0, 0, 3, 9, 0, [⟨6, 0, 0, 0, 9, 0, 0⟩, ⟨1, 0, 0, 0, 8192, 0, 0⟩, ⟨6, 2, 0, 0, 10, 0, 0⟩], 5, 0, true, true⟩, raw := [1, 2, 3], held := [(1, 2)], page := [(1, [5, 6])] } } }, (1 : Nat), (2 : Nat), (100 : Nat), ([1] : List Byte), (true : Bool), (({ holder := none, man := ⟨0, 0, 0, 0, 0, 0, 0, 3, 9, 0, [⟨6, 0, 0, 0, 9, 0, 0⟩, ⟨1, 0, 0, 0, 8192, 0, 0⟩, ⟨6, 2, 0, 0, 10, 0, 0⟩], 5, 0, true, true⟩, raw := [1, 2, 3], held := [(1, 3)], lastOff := [(1, 2)], lastDat := [(1, [1])], page := [(1, [5, 6, 1])], at_ := 100 }) : UpSession), by decide⟩,
    ⟨{ wS [(R.UPDATE_CFG_IDLE_S, 600), (R.UPDATE_CFG_TRIES, 3), (R.UPDATE_CFG_WINDOW_S, 900), (R.PAIR_STATE_ROLE, 2), (R.PAIR_STATE_TIE_UP, 1)] with pr := wPair, cmp := { tickets := [(9, { role := 1, svc := svcUpdate, op := 9, cred := 77 })] }, up := { rec_ := some ⟨0, 0, 3, [4, 1], 2, [0, 1], 600, [1, 2], [7, 8]⟩ } }, (8 : BitVec 64), (10 : Nat), by decide⟩,
    ⟨{ wS [(R.UPDATE_CFG_IDLE_S, 600), (R.UPDATE_CFG_TRIES, 3), (R.UPDATE_CFG_WINDOW_S, 900), (R.PAIR_STATE_ROLE, 2), (R.PAIR_STATE_TIE_UP, 1)] with pr := wPair, cmp := { tickets := [(9, { role := 1, svc := svcUpdate, op := 9, cred := 77 })] }, up := { rec_ := some ⟨0, 0, 3, [4, 1], 2, [0, 1], 600, [1, 2], [7, 8]⟩ } }, (8 : BitVec 64), (9 : Nat), by decide⟩,
    ⟨{ wS [(R.UPDATE_CFG_IDLE_S, 600), (R.UPDATE_CFG_TRIES, 3), (R.UPDATE_CFG_WINDOW_S, 900), (R.PAIR_STATE_ROLE, 1), (R.PAIR_STATE_TIE_UP, 1)] with pr := wPair, cmp := { tickets := [(9, { role := 1, svc := svcUpdate, op := 3, cred := 77 })] }, up := { rec_ := some ⟨0, 0, 3, [4, 0], 2, [0, 1], 600, [1, 2], [7, 8]⟩, session := some { holder := some 77, man := ⟨0, 0, 0, 0, 0, 0, 0, 3, 9, 0, [⟨6, 0, 0, 0, 9, 0, 0⟩, ⟨1, 0, 0, 0, 8192, 0, 0⟩, ⟨6, 2, 0, 0, 10, 0, 0⟩], 5, 0, true, true⟩, raw := [1, 2, 3], waiting := some 9 } } }, (({ holder := some 77, man := ⟨0, 0, 0, 0, 0, 0, 0, 3, 9, 0, [⟨6, 0, 0, 0, 9, 0, 0⟩, ⟨1, 0, 0, 0, 8192, 0, 0⟩, ⟨6, 2, 0, 0, 10, 0, 0⟩], 5, 0, true, true⟩, raw := [1, 2, 3], waiting := some 9 }) : UpSession), by decide⟩,
    ⟨{ wS [(R.UPDATE_CFG_IDLE_S, 600), (R.UPDATE_CFG_TRIES, 3), (R.UPDATE_CFG_WINDOW_S, 900), (R.PAIR_STATE_ROLE, 2), (R.PAIR_STATE_TIE_UP, 1), (R.UPDATE_STATE_BOOTED, 1)] with pr := { wPr with pair := some ⟨1, 3, 5000, 0⟩ }, cmp := { tickets := [(9, { role := 1, svc := svcUpdate, op := 9, cred := 77 })] }, up := { rec_ := some ⟨0, 2, 3, [4, 3], 2, [0, 1], 600, [1, 2], [7, 8]⟩, trialAt := some 0 } }, (8 : BitVec 64), by decide⟩,
    ⟨{ wS [(R.UPDATE_CFG_IDLE_S, 600), (R.UPDATE_CFG_TRIES, 3), (R.UPDATE_CFG_WINDOW_S, 900), (R.PAIR_STATE_ROLE, 1), (R.PAIR_STATE_TIE_UP, 1), (R.PAIR_STATE_PEER_ROLE, 2)] with pr := wPair, cmp := { tickets := [(9, { role := 1, svc := svcUpdate, op := 9, cred := 77 })] }, up := { rec_ := some ⟨0, 0, 3, [4, 1], 2, [0, 1], 600, [1, 2], [7, 8]⟩, pairWait := 1, windowS := 700 } }, (8 : BitVec 64), (3 : Fin 8), by decide⟩,
    ⟨{ wS [(R.UPDATE_CFG_IDLE_S, 600), (R.UPDATE_CFG_TRIES, 3), (R.UPDATE_CFG_WINDOW_S, 900), (R.PAIR_STATE_ROLE, 2), (R.PAIR_STATE_TIE_UP, 1)] with pr := wPair, cmp := { tickets := [(9, { role := 1, svc := svcUpdate, op := 9, cred := 77 })] }, up := { rec_ := some ⟨0, 0, 3, [4, 1], 2, [0, 1], 600, [1, 2], [7, 8]⟩ } }, by decide⟩,
    ⟨{ wS [(R.UPDATE_CFG_IDLE_S, 600), (R.UPDATE_CFG_TRIES, 3), (R.UPDATE_CFG_WINDOW_S, 900), (R.PAIR_STATE_ROLE, 2), (R.PAIR_STATE_TIE_UP, 1)] with pr := wPair, cmp := { tickets := [(9, { role := 1, svc := svcUpdate, op := 9, cred := 77 })] }, up := { rec_ := some ⟨0, 0, 3, [4, 0], 2, [0, 1], 600, [1, 2], [7, 8]⟩, session := some { holder := none, man := ⟨0, 0, 0, 0, 0, 0, 0, 3, 9, 0, [⟨6, 0, 0, 0, 9, 0, 0⟩, ⟨1, 0, 0, 0, 8192, 0, 0⟩, ⟨6, 2, 0, 0, 10, 0, 0⟩], 5, 0, true, true⟩, raw := [1, 2, 3] } } }, by decide⟩,
    ⟨{ wS [(R.UPDATE_CFG_IDLE_S, 600), (R.UPDATE_CFG_TRIES, 3), (R.UPDATE_CFG_WINDOW_S, 900), (R.PAIR_STATE_ROLE, 2), (R.PAIR_STATE_TIE_UP, 1)] with pr := wPair, cmp := { tickets := [(9, { role := 1, svc := svcUpdate, op := 9, cred := 77 })] }, up := { rec_ := some ⟨0, 0, 3, [4, 0], 2, [0, 1], 600, [1, 2], [7, 8]⟩, session := some { holder := some 77, man := ⟨0, 0, 0, 0, 0, 0, 0, 3, 9, 0, [⟨6, 0, 0, 0, 9, 0, 0⟩, ⟨1, 0, 0, 0, 8192, 0, 0⟩, ⟨6, 2, 0, 0, 10, 0, 0⟩], 5, 0, true, true⟩, raw := [1, 2, 3] } } }, by decide⟩,
    ⟨{ wS [(R.UPDATE_CFG_IDLE_S, 600), (R.UPDATE_CFG_TRIES, 3), (R.UPDATE_CFG_WINDOW_S, 900), (R.PAIR_STATE_ROLE, 2), (R.PAIR_STATE_TIE_UP, 1)] with pr := wPair, cmp := { tickets := [(9, { role := 1, svc := svcUpdate, op := 9, cred := 77 })] }, up := { rec_ := some ⟨0, 0, 3, [4, 0], 2, [0, 1], 600, [1, 2], [7, 8]⟩, resultTo := some 100, result := 1 } }, (100 : Nat), by decide⟩,
    ⟨{ wS [(R.UPDATE_CFG_IDLE_S, 600), (R.UPDATE_CFG_TRIES, 3), (R.UPDATE_CFG_WINDOW_S, 900), (R.PAIR_STATE_ROLE, 2), (R.PAIR_STATE_TIE_UP, 1)] with pr := wPair, cmp := { tickets := [(9, { role := 1, svc := svcUpdate, op := 9, cred := 77 })] }, up := { rec_ := some ⟨0, 0, 3, [4, 0], 2, [0, 1], 600, [1, 2], [7, 8]⟩, resultTo := some 100, result := 1 } }, (101 : Nat), by decide⟩⟩

/-- States and operands that meet the hypotheses of each clause of PinCommands. -/
theorem test_PinCommands_witness :
    (∃ s : State, (s.Inv) ∧ (s.rootRuns = true)) ∧
    (∃ s : State, (s.Inv) ∧ (s.rootRuns = false)) ∧
    (∃ s : State, (s.Inv) ∧ (s.rootRuns = true)) :=
  ⟨⟨wS [(R.SVC_PIN_CFG_EDGE, 0x08)], by decide⟩,
    ⟨{ State.reset with pr := wPr }, by decide⟩,
    ⟨{ wS [(R.SVC_FCP_CFG_FORCE, 2), (R.SVC_FCP_CFG_FORCE_VAL, 2)] with queues := [(3, { above := true })], pr := { wPr with queues := [⟨3, 0, 1, 0x10, 16, 12, 4, 0xFF, 3⟩] } }, by decide⟩⟩

/-- States and operands that meet the hypotheses of each clause of TamperWithoutOwner. -/
theorem test_TamperWithoutOwner_witness :
    (∃ s : State, ∃ i : Fin 8, (s.Inv) ∧ (s.su.vbat = true ∧ s.ownerState ≠ 1) ∧ (s.isSet (R.TAMPER_CFG_EN.bit i) = true ∧ s.ky.quiet.contains i.val = false)) :=
  ⟨{ wS [(R.TAMPER_CFG_EN, 0xFF), (R.TAMPER_STATE_OWNER, 2), (R.TAMPER_COUNT_COUNT, 3), (R.TAMPER_LOG_VALID.bank 0, 1)] with su := { vbat := true }, ky := { slots := [(9, { attr := 0, mat := 5 })] } }, (7 : Fin 8), by decide⟩

/-- States and operands that meet the hypotheses of each clause of TakeoverInstants. -/
theorem test_TakeoverInstants_witness :
    (∃ s : State, ∃ e : Nat, (s.Inv) ∧ (s.pa.knownEnd = some e) ∧ ((s.pairRole = 2 ∨ s.pairRole = 3) ∧ (s.dev = devService ∨ s.dev = devHold))) ∧
    (∃ s : State, ∃ e : Nat, (s.Inv) ∧ (s.pa.knownEnd = some e ∧ s.pairOn = true ∧ s.isSet R.PAIR_STATE_TIE_UP = true) ∧ (s.pairRole = 2 ∨ s.pairRole = 3)) ∧
    (∃ s : State, (s.Inv) ∧ (s.pairRole = 4 ∨ s.dev = devHoldInhibit ∨ s.dev = devPark)) ∧
    (∃ s : State, (s.Inv) ∧ ((s.pairRole = 2 ∨ s.pairRole = 3) ∧ (s.dev = devHoldInhibit ∨ s.dev = devPark))) ∧
    (∃ s : State, (s.Inv) ∧ (s.pairRole = 4)) :=
  ⟨⟨{ wS [(R.PAIR_STATE_ROLE, 2), (R.PAIR_STATE_TIE_UP, 1)] with pr := wPair, pa := { knownEnd := some 100 } }, (100 : Nat), by decide⟩,
    ⟨{ wS [(R.PAIR_STATE_ROLE, 2), (R.PAIR_STATE_TIE_UP, 1)] with pr := wPair, pa := { knownEnd := some 100 } }, (100 : Nat), by decide⟩,
    ⟨{ wS [(R.PAIR_STATE_ROLE, 4), (R.PAIR_STATE_TIE_UP, 1)] with pr := wPair, pa := { knownEnd := some 100 } }, by decide⟩,
    ⟨{ wS [(R.PAIR_STATE_ROLE, 2), (R.PAIR_STATE_TIE_UP, 1), (R.START_STATE_DEV_STATE, 8)] with pr := wPair, pa := {  } }, by decide⟩,
    ⟨{ wS [(R.PAIR_STATE_ROLE, 4), (R.PAIR_STATE_TIE_UP, 1)] with pr := wPair, pa := {  } }, by decide⟩⟩

end
end

namespace Sys2Proof.Machine
open Sys2Proof

/-! ### Registers hold no reserved bit -/

/-- The reset word of a described register lies within the bits that hold a value. -/
def RegDesc.resetClean (d : RegDesc) : Bool :=
  BitVec.ofNat 32 (fieldSum (fun f => f.reset * 2 ^ f.lo) d.fields) &&&
    ~~~ BitVec.ofNat 32 (fieldSum (fun f => if f.acc = .wo then 0 else f.mask) d.fields) == 0

theorem regTable_resetClean : regTable.all (fun p => p.2.all RegDesc.resetClean) = true := by decide

/-- A register's descriptor stands in the register table. -/
theorem regDesc?_mem {a : Nat} {d : RegDesc} (h : regDesc? a = some d) : ∃ p ∈ regTable, d ∈ p.2 := by
  simp only [regDesc?] at h
  split at h
  · cases h
  · next p hp => exact ⟨p, List.mem_of_find?_eq_some hp, List.mem_of_find?_eq_some h⟩

/-- A reset word holds no reserved bit (R8, R10). -/
theorem regReset_reserved (a : Nat) : regReset a &&& ~~~ regMask a = 0 := by
  unfold regReset regMask
  split
  · simp
  · next d hd =>
    obtain ⟨p, hp, hdp⟩ := regDesc?_mem hd
    have := List.all_eq_true.mp (List.all_eq_true.mp regTable_resetClean p hp) d hdp
    exact eq_of_beq this

theorem Store.get_mem {α : Type} (d : Nat → α) (m : List (Nat × α)) (k : Nat) : Store.get d m k = d k ∨ (k, Store.get d m k) ∈ m := by
  induction m with
  | nil => exact Or.inl rfl
  | cons x m ih =>
    obtain ⟨j, v⟩ := x
    by_cases e : k = j
    · exact Or.inr (by simp [Store.get, e])
    · simp only [Store.get, if_neg e]
      exact ih.imp_right (List.mem_cons_of_mem _)

/-- In a state that meets the invariant no register holds a reserved bit (R8, R9). -/
theorem State.Inv.reserved {s : State} (h : s.Inv) (a : Nat) : s.getReg a &&& ~~~ regMask a = 0 := by
  have hr := h.1
  simp only [Registers.wf, Bool.and_eq_true, List.all_eq_true] at hr
  rcases Store.get_mem regReset s.regs a with e | e
  · rw [State.getReg, e]; exact regReset_reserved a
  · exact of_decide_eq_true (hr.2 _ e)

/-- So the mask of its register leaves a stored word as it is. -/
theorem State.Inv.getReg_mask {s : State} (h : s.Inv) (a : Nat) : s.getReg a &&& regMask a = s.getReg a := by
  calc s.getReg a &&& regMask a
      = s.getReg a &&& regMask a ||| s.getReg a &&& ~~~ regMask a := by simp [h.reserved a]
    _ = s.getReg a := by rw [← BitVec.and_or_distrib_left, BitVec.or_not_self, BitVec.and_allOnes]

/-! ### What one step does -/


/-- Every command stays within the parts it is listed with: its meaning does. -/
theorem exec_within (c : Instr) (s : State) : WithinRes (touches c) s (exec c s) := by
  cases c with
  | registerWrite bob addr value narrow t => exact execRegisterWrite_within (.refl _ s) (List.Subset.refl _) bob addr value narrow t
  | eventClear bob addr value t => exact execEventClear_within (.refl _ s) (List.Subset.refl _) bob addr value t
  | eventEnableWrite bob addr value t => exact execEventEnableWrite_within (.refl _ s) (List.Subset.refl _) bob addr value t
  | vbatApplied => exact execVbatApplied_within (.refl _ s) (List.Subset.refl _)
  | vbatLost => exact execVbatLost_within (.refl _ s) (List.Subset.refl _)
  | supplyGoodIntervalEnd mode => exact execSupplyGoodIntervalEnd_within (.refl _ s) (List.Subset.refl _) mode
  | mainSupplyLost supply => exact execMainSupplyLost_within (.refl _ s) (List.Subset.refl _) supply
  | resetNTaken => exact execResetNTaken_within (.refl _ s) (List.Subset.refl _)
  | sourceLocked src t => exact execSourceLocked_within (.refl _ s) (List.Subset.refl _) src t
  | sourceLost src t => exact execSourceLost_within (.refl _ s) (List.Subset.refl _) src t
  | rootPllLock => exact execRootPllLock_within (.refl _ s) (List.Subset.refl _)
  | rootLockTimeout => exact execRootLockTimeout_within (.refl _ s) (List.Subset.refl _)
  | dramTrainStageEnd ok t => exact execDramTrainStageEnd_within (.refl _ s) (List.Subset.refl _) ok t
  | dramTrainTimeout t => exact execDramTrainTimeout_within (.refl _ s) (List.Subset.refl _) t
  | bootComplete readFail t => exact execBootComplete_within (.refl _ s) (List.Subset.refl _) readFail t
  | bootTimeout t => exact execBootTimeout_within (.refl _ s) (List.Subset.refl _) t
  | prickingLoadDone readFail t => exact execPrickingLoadDone_within (.refl _ s) (List.Subset.refl _) readFail t
  | prickingLoadTimeout t => exact execPrickingLoadTimeout_within (.refl _ s) (List.Subset.refl _) t
  | benchCheckDone t => exact execBenchCheckDone_within (.refl _ s) (List.Subset.refl _) t
  | readyWrite mainHoop => exact execReadyWrite_within (.refl _ s) (List.Subset.refl _) mainHoop
  | readyTimeout t => exact execReadyTimeout_within (.refl _ s) (List.Subset.refl _) t
  | continueWrite t => exact execContinueWrite_within (.refl _ s) (List.Subset.refl _) t
  | enterRunning t => exact execEnterRunning_within (.refl _ s) (List.Subset.refl _) t
  | warmResetWrite t => exact execWarmResetWrite_within (.refl _ s) (List.Subset.refl _) t
  | warmResetProceed t => exact execWarmResetProceed_within (.refl _ s) (List.Subset.refl _) t
  | monitorWindowEnd src meas t => exact execMonitorWindowEnd_within (.refl _ s) (List.Subset.refl _) src meas t
  | hold1sMark t => exact execHold1sMark_within (.refl _ s) (List.Subset.refl _) t
  | hold30sMark t => exact execHold30sMark_within (.refl _ s) (List.Subset.refl _) t
  | rootPllUnlock t => exact execRootPllUnlock_within (.refl _ s) (List.Subset.refl _) t
  | clkSrcForceWrite force src => exact execClkSrcForceWrite_within (.refl _ s) (List.Subset.refl _) force src
  | hoopIdle hoop t => exact execHoopIdle_within (.refl _ s) (List.Subset.refl _) hoop t
  | hoopRampStep hoop => exact execHoopRampStep_within (.refl _ s) (List.Subset.refl _) hoop
  | clkRestartGo domain div => exact execClkRestartGo_within (.refl _ s) (List.Subset.refl _) domain div
  | restartDividerSwitch domain => exact execRestartDividerSwitch_within (.refl _ s) (List.Subset.refl _) domain
  | restartFirstEdge domain => exact execRestartFirstEdge_within (.refl _ s) (List.Subset.refl _) domain
  | gateRequest unit => exact execGateRequest_within (.refl _ s) (List.Subset.refl _) unit
  | gateClose unit => exact execGateClose_within (.refl _ s) (List.Subset.refl _) unit
  | ungate unit => exact execUngate_within (.refl _ s) (List.Subset.refl _) unit
  | esmcPduRx port ssm essm t => exact execEsmcPduRx_within (.refl _ s) (List.Subset.refl _) port ssm essm t
  | esmcTimeout port t => exact execEsmcTimeout_within (.refl _ s) (List.Subset.refl _) port t
  | esmcSend => exact execEsmcSend_within (.refl _ s) (List.Subset.refl _)
  | uplSignalDetect port dme => exact execUplSignalDetect_within (.refl _ s) (List.Subset.refl _) port dme
  | uplAcquisitionDone port => exact execUplAcquisitionDone_within (.refl _ s) (List.Subset.refl _) port
  | uplNextPageRx port => exact execUplNextPageRx_within (.refl _ s) (List.Subset.refl _) port
  | uplAnComplete port base => exact execUplAnComplete_within (.refl _ s) (List.Subset.refl _) port base
  | uplTrainingDone port => exact execUplTrainingDone_within (.refl _ s) (List.Subset.refl _) port
  | uplBlockLock port t => exact execUplBlockLock_within (.refl _ s) (List.Subset.refl _) port t
  | uplTrainTimeout port => exact execUplTrainTimeout_within (.refl _ s) (List.Subset.refl _) port
  | uplLinkLost port t => exact execUplLinkLost_within (.refl _ s) (List.Subset.refl _) port t
  | uplAdminWrite port v => exact execUplAdminWrite_within (.refl _ s) (List.Subset.refl _) port v
  | uplRetrain port => exact execUplRetrain_within (.refl _ s) (List.Subset.refl _) port
  | pauseFrameRx port quanta t => exact execPauseFrameRx_within (.refl _ s) (List.Subset.refl _) port quanta t
  | pfcFrameRx port entries t => exact execPfcFrameRx_within (.refl _ s) (List.Subset.refl _) port entries t
  | pauseQuantaEnd port prio t => exact execPauseQuantaEnd_within (.refl _ s) (List.Subset.refl _) port prio t
  | fcFrameSend port t => exact execFcFrameSend_within (.refl _ s) (List.Subset.refl _) port t
  | fcFrameRepeat port t => exact execFcFrameRepeat_within (.refl _ s) (List.Subset.refl _) port t
  | uplFrameRx port queue octets fcsOk => exact execUplFrameRx_within (.refl _ s) (List.Subset.refl _) port queue octets fcsOk
  | tieAcquisitionDone t => exact execTieAcquisitionDone_within (.refl _ s) (List.Subset.refl _) t
  | tieTrainBlockRx pre main post preEdge mainEdge postEdge ready askPre askMain askPost askReady => exact execTieTrainBlockRx_within (.refl _ s) (List.Subset.refl _) pre main post preEdge mainEdge postEdge ready askPre askMain askPost askReady
  | tieEqualiserDone t => exact execTieEqualiserDone_within (.refl _ s) (List.Subset.refl _) t
  | tieRoleBlockRx b => exact execTieRoleBlockRx_within (.refl _ s) (List.Subset.refl _) b
  | tieRoleExchangeDone t => exact execTieRoleExchangeDone_within (.refl _ s) (List.Subset.refl _) t
  | tiePhaseTimeout t => exact execTiePhaseTimeout_within (.refl _ s) (List.Subset.refl _) t
  | tieRetrain => exact execTieRetrain_within (.refl _ s) (List.Subset.refl _)
  | tieEnableWrite on => exact execTieEnableWrite_within (.refl _ s) (List.Subset.refl _) on
  | svcReadRegister addr mode3 abandoned t => exact execSvcReadRegister_within (.refl _ s) (List.Subset.refl _) addr mode3 abandoned t
  | svcWriteRegister addr value mode3 abandoned t => exact execSvcWriteRegister_within (.refl _ s) (List.Subset.refl _) addr value mode3 abandoned t
  | svcLastStatus mode3 abandoned t => exact execSvcLastStatus_within (.refl _ s) (List.Subset.refl _) mode3 abandoned t
  | svcBenchChunk offset data mode3 abandoned t => exact execSvcBenchChunk_within (.refl _ s) (List.Subset.refl _) offset data mode3 abandoned t
  | svcBenchCommit checkOnly mode3 abandoned t => exact execSvcBenchCommit_within (.refl _ s) (List.Subset.refl _) checkOnly mode3 abandoned t
  | svcTunnelIn message mode3 abandoned t => exact execSvcTunnelIn_within (.refl _ s) (List.Subset.refl _) message mode3 abandoned t
  | svcTunnelOut mode3 abandoned t => exact execSvcTunnelOut_within (.refl _ s) (List.Subset.refl _) mode3 abandoned t
  | sclkStopMidMessage t => exact execSclkStopMidMessage_within (.refl _ s) (List.Subset.refl _) t
  | cmpRegRead session mid tunnel form addr count t => exact execCmpRegRead_within (.refl _ s) (List.Subset.refl _) session mid tunnel form addr count t
  | cmpRegWrite session mid tunnel form addr words t => exact execCmpRegWrite_within (.refl _ s) (List.Subset.refl _) session mid tunnel form addr words t
  | cmpServiceCall session mid tunnel form svc op key t => exact execCmpServiceCall_within (.refl _ s) (List.Subset.refl _) session mid tunnel form svc op key t
  | cmpResultGet session mid tunnel form ticket t => exact execCmpResultGet_within (.refl _ s) (List.Subset.refl _) session mid tunnel form ticket t
  | cmpResultDelete session mid tunnel form ticket t => exact execCmpResultDelete_within (.refl _ s) (List.Subset.refl _) session mid tunnel form ticket t
  | cmpEventObserve session mid tunnel form t => exact execCmpEventObserve_within (.refl _ s) (List.Subset.refl _) session mid tunnel form t
  | cmpEventNotify send t => exact execCmpEventNotify_within (.refl _ s) (List.Subset.refl _) send t
  | sessionHello digest nonce mid tunnel form t => exact execSessionHello_within (.refl _ s) (List.Subset.refl _) digest nonce mid tunnel form t
  | sessionFinish digest ciphertext signature mid tunnel form t => exact execSessionFinish_within (.refl _ s) (List.Subset.refl _) digest ciphertext signature mid tunnel form t
  | sessionDelete number mid tunnel form t => exact execSessionDelete_within (.refl _ s) (List.Subset.refl _) number mid tunnel form t
  | sessionIdleExpiry number t => exact execSessionIdleExpiry_within (.refl _ s) (List.Subset.refl _) number t
  | handshakeTimeout t => exact execHandshakeTimeout_within (.refl _ s) (List.Subset.refl _) t
  | ptpAnnounceRx dom port via gm chosen t => exact execPtpAnnounceRx_within (.refl _ s) (List.Subset.refl _) dom port via gm chosen t
  | ptpSyncRx dom port via twoStep origin t => exact execPtpSyncRx_within (.refl _ s) (List.Subset.refl _) dom port via twoStep origin t
  | ptpFollowUpRx dom port via origin => exact execPtpFollowUpRx_within (.refl _ s) (List.Subset.refl _) dom port via origin
  | ptpDelayRespRx dom port via t4 interval => exact execPtpDelayRespRx_within (.refl _ s) (List.Subset.refl _) dom port via t4 interval
  | ptpPdelayReqRx port via arrival t => exact execPtpPdelayReqRx_within (.refl _ s) (List.Subset.refl _) port via arrival t
  | ptpPdelayRespRx dom port via turnaround t => exact execPtpPdelayRespRx_within (.refl _ s) (List.Subset.refl _) dom port via turnaround t
  | ptpDelayReqSend dom t => exact execPtpDelayReqSend_within (.refl _ s) (List.Subset.refl _) dom t
  | ptpManagementRx signalling => exact execPtpManagementRx_within (.refl _ s) (List.Subset.refl _) signalling
  | announceReceiptTimeout dom => exact execAnnounceReceiptTimeout_within (.refl _ s) (List.Subset.refl _) dom
  | freezeTimeout dom t => exact execFreezeTimeout_within (.refl _ s) (List.Subset.refl _) dom t
  | timeStep => exact execTimeStep_within (.refl _ s) (List.Subset.refl _)
  | lockWaitExpiry t => exact execLockWaitExpiry_within (.refl _ s) (List.Subset.refl _) t
  | timeAccept => exact execTimeAccept_within (.refl _ s) (List.Subset.refl _)
  | timeSnap t => exact execTimeSnap_within (.refl _ s) (List.Subset.refl _) t
  | timeSelDomWrite sel => exact execTimeSelDomWrite_within (.refl _ s) (List.Subset.refl _) sel
  | tieTimeSend t => exact execTieTimeSend_within (.refl _ s) (List.Subset.refl _) t
  | tieTimeRx f t => exact execTieTimeRx_within (.refl _ s) (List.Subset.refl _) f t
  | peerTimeExpiry t => exact execPeerTimeExpiry_within (.refl _ s) (List.Subset.refl _) t
  | trxSetTarget trx target t => exact execTrxSetTarget_within (.refl _ s) (List.Subset.refl _) trx target t
  | trxCalibrate trx target t => exact execTrxCalibrate_within (.refl _ s) (List.Subset.refl _) trx target t
  | trxStepEnd trx => exact execTrxStepEnd_within (.refl _ s) (List.Subset.refl _) trx
  | calEnd trx pass => exact execCalEnd_within (.refl _ s) (List.Subset.refl _) trx pass
  | synUnlock trx tx t => exact execSynUnlock_within (.refl _ s) (List.Subset.refl _) trx tx t
  | bgCalCycleStart trx t => exact execBgCalCycleStart_within (.refl _ s) (List.Subset.refl _) trx t
  | bgCalStep trx pathB t => exact execBgCalStep_within (.refl _ s) (List.Subset.refl _) trx pathB t
  | tempDrift trx temp => exact execTempDrift_within (.refl _ s) (List.Subset.refl _) trx temp
  | coexRequestRise trx => exact execCoexRequestRise_within (.refl _ s) (List.Subset.refl _) trx
  | coexGrantFall trx t => exact execCoexGrantFall_within (.refl _ s) (List.Subset.refl _) trx t
  | rxWindowOpen lane => exact execRxWindowOpen_within (.refl _ s) (List.Subset.refl _) lane
  | rxWindowClose lane => exact execRxWindowClose_within (.refl _ s) (List.Subset.refl _) lane
  | laneBindingApply lane => exact execLaneBindingApply_within (.refl _ s) (List.Subset.refl _) lane
  | preambleDetect lane t => exact execPreambleDetect_within (.refl _ s) (List.Subset.refl _) lane t
  | preambleLost lane t => exact execPreambleLost_within (.refl _ s) (List.Subset.refl _) lane t
  | syncPoint lane ts metA metB rssi cfo coded taps => exact execSyncPoint_within (.refl _ s) (List.Subset.refl _) lane ts metA metB rssi cfo coded taps
  | headerDecoded lane len info hcsOk modeSwitch t => exact execHeaderDecoded_within (.refl _ s) (List.Subset.refl _) lane len info hcsOk modeSwitch t
  | shadowSyncPoint lane ts metA metB rssi cfo coded taps psdu symbols => exact execShadowSyncPoint_within (.refl _ s) (List.Subset.refl _) lane ts metA metB rssi cfo coded taps psdu symbols
  | lastSymbol lane psdu symbols => exact execLastSymbol_within (.refl _ s) (List.Subset.refl _) lane psdu symbols
  | fcsVerdict lane ok => exact execFcsVerdict_within (.refl _ s) (List.Subset.refl _) lane ok
  | gainWindowEnd trx pathB level => exact execGainWindowEnd_within (.refl _ s) (List.Subset.refl _) trx pathB level
  | adcClip trx pathB t => exact execAdcClip_within (.refl _ s) (List.Subset.refl _) trx pathB t
  | idlePowerWindowEnd lane powA powB => exact execIdlePowerWindowEnd_within (.refl _ s) (List.Subset.refl _) lane powA powB
  | laneChanWrite lane chan => exact execLaneChanWrite_within (.refl _ s) (List.Subset.refl _) lane chan
  | laneCountClear lane => exact execLaneCountClear_within (.refl _ s) (List.Subset.refl _) lane
  | sourceAddressComplete rx hdr clock => exact execSourceAddressComplete_within (.refl _ s) (List.Subset.refl _) rx hdr clock
  | addressLookupDone rx => exact execAddressLookupDone_within (.refl _ s) (List.Subset.refl _) rx
  | nodeRecordReadDone rx => exact execNodeRecordReadDone_within (.refl _ s) (List.Subset.refl _) rx
  | keyUnwrapDone rx => exact execKeyUnwrapDone_within (.refl _ s) (List.Subset.refl _) rx
  | ccmContextFree => exact (execCcmContextFree_within (.refl (touches .ccmContextFree) s) (List.Subset.refl _) : WithinRes (touches .ccmContextFree) s (execCcmContextFree s))
  | ccmVerdict rx authentic => exact execCcmVerdict_within (.refl _ s) (List.Subset.refl _) rx authentic
  | dupCacheExpiry t => exact execDupCacheExpiry_within (.refl _ s) (List.Subset.refl _) t
  | shadowEntryRelease node => exact execShadowEntryRelease_within (.refl _ s) (List.Subset.refl _) node
  | lptSweepStep => exact execLptSweepStep_within (.refl _ s) (List.Subset.refl _)
  | txCmdData trx t => exact execTxCmdData_within (.refl _ s) (List.Subset.refl _) trx t
  | txCmdBraidOpen trx t => exact execTxCmdBraidOpen_within (.refl _ s) (List.Subset.refl _) trx t
  | txCmdBraidAppend trx t => exact execTxCmdBraidAppend_within (.refl _ s) (List.Subset.refl _) trx t
  | txCmdEnhancedBeacon trx t => exact execTxCmdEnhancedBeacon_within (.refl _ s) (List.Subset.refl _) trx t
  | txCmdWakeKeying trx t => exact execTxCmdWakeKeying_within (.refl _ s) (List.Subset.refl _) trx t
  | txLateDrop trx t => exact execTxLateDrop_within (.refl _ s) (List.Subset.refl _) trx t
  | txLaunch trx => exact execTxLaunch_within (.refl _ s) (List.Subset.refl _) trx
  | txCommit trx grant => exact execTxCommit_within (.refl _ s) (List.Subset.refl _) trx grant
  | txEnd trx => exact execTxEnd_within (.refl _ s) (List.Subset.refl _) trx
  | outputStopTime t => exact execOutputStopTime_within (.refl _ s) (List.Subset.refl _) t
  | slotStart t => exact execSlotStart_within (.refl _ s) (List.Subset.refl _) t
  | lanePlanComplete => exact execLanePlanComplete_within (.refl _ s) (List.Subset.refl _)
  | txRequest t => exact execTxRequest_within (.refl _ s) (List.Subset.refl _) t
  | tschTxCell trx t => exact execTschTxCell_within (.refl _ s) (List.Subset.refl _) trx t
  | carrierSenseEnd trx tap level => exact execCarrierSenseEnd_within (.refl _ s) (List.Subset.refl _) trx tap level
  | csmaBackoffEnd frame => exact execCsmaBackoffEnd_within (.refl _ s) (List.Subset.refl _) frame
  | ackWaitTimeout frame t => exact execAckWaitTimeout_within (.refl _ s) (List.Subset.refl _) frame t
  | frameDeadlineExpiry frame t => exact execFrameDeadlineExpiry_within (.refl _ s) (List.Subset.refl _) frame t
  | shuttleCompletionRx t => exact execShuttleCompletionRx_within (.refl _ s) (List.Subset.refl _) t
  | ebDue pan trx t => exact execEbDue_within (.refl _ s) (List.Subset.refl _) pan trx t
  | dutyBucketRoll profile t => exact execDutyBucketRoll_within (.refl _ s) (List.Subset.refl _) profile t
  | offTimeEnd trx => exact execOffTimeEnd_within (.refl _ s) (List.Subset.refl _) trx
  | braidCut trx => exact execBraidCut_within (.refl _ s) (List.Subset.refl _) trx
  | macPanEnableWrite en => exact execMacPanEnableWrite_within (.refl _ s) (List.Subset.refl _) en
  | macCountClear => exact execMacCountClear_within (.refl _ s) (List.Subset.refl _)
  | macSlotframeEnable en length => exact execMacSlotframeEnable_within (.refl _ s) (List.Subset.refl _) en length
  | sleepStart node => exact execSleepStart_within (.refl _ s) (List.Subset.refl _) node
  | sleepStop node => exact execSleepStop_within (.refl _ s) (List.Subset.refl _) node
  | sleepResync node => exact execSleepResync_within (.refl _ s) (List.Subset.refl _) node
  | sleepResetDrift node => exact execSleepResetDrift_within (.refl _ s) (List.Subset.refl _) node
  | sleepCall node => exact execSleepCall_within (.refl _ s) (List.Subset.refl _) node
  | sleepLinkAdd node => exact execSleepLinkAdd_within (.refl _ s) (List.Subset.refl _) node
  | sleepLinkRemove node => exact execSleepLinkRemove_within (.refl _ s) (List.Subset.refl _) node
  | t3Expiry t => exact execT3Expiry_within (.refl _ s) (List.Subset.refl _) t
  | wakeWaitExpiry node => exact execWakeWaitExpiry_within (.refl _ s) (List.Subset.refl _) node
  | sleepCountClear => exact execSleepCountClear_within (.refl _ s) (List.Subset.refl _)
  | sleepRebuildStep => exact execSleepRebuildStep_within (.refl _ s) (List.Subset.refl _)
  | t3CacheRefill => exact execT3CacheRefill_within (.refl _ s) (List.Subset.refl _)
  | tkNew bob desc => exact execTkNew_within (.refl _ s) (List.Subset.refl _) bob desc
  | tkFill bob handle src pin words => exact execTkFill_within (.refl _ s) (List.Subset.refl _) bob handle src pin words
  | tkPut bob queue addr ordered => exact execTkPut_within (.refl _ s) (List.Subset.refl _) bob queue addr ordered
  | tkTimer bob handle ticks pin list => exact execTkTimer_within (.refl _ s) (List.Subset.refl _) bob handle ticks pin list
  | tkCancel bob handle => exact execTkCancel_within (.refl _ s) (List.Subset.refl _) bob handle
  | tkDrop bob handle => exact execTkDrop_within (.refl _ s) (List.Subset.refl _) bob handle
  | tkEnd bob => exact execTkEnd_within (.refl _ s) (List.Subset.refl _) bob
  | taskPlace hoop t => exact execTaskPlace_within (.refl _ s) (List.Subset.refl _) hoop t
  | taskException bob cause pc ecc addr => exact execTaskException_within (.refl _ s) (List.Subset.refl _) bob cause pc ecc addr
  | taskRunLimit bob pc t => exact execTaskRunLimit_within (.refl _ s) (List.Subset.refl _) bob pc t
  | initRunRestart bob t => exact execInitRunRestart_within (.refl _ s) (List.Subset.refl _) bob t
  | delayListExpiry list => exact execDelayListExpiry_within (.refl _ s) (List.Subset.refl _) list
  | releasePortTake => exact execReleasePortTake_within (.refl _ s) (List.Subset.refl _)
  | taskQueueEntry queue => exact execTaskQueueEntry_within (.refl _ s) (List.Subset.refl _) queue
  | pillowCountClear => exact execPillowCountClear_within (.refl _ s) (List.Subset.refl _)
  | pillowTemplateWrite qt val => exact execPillowTemplateWrite_within (.refl _ s) (List.Subset.refl _) qt val
  | enqueue queue src addr len flags tag aux => exact execEnqueue_within (.refl _ s) (List.Subset.refl _) queue src addr len flags tag aux
  | dequeue queue => exact execDequeue_within (.refl _ s) (List.Subset.refl _) queue
  | creditReturn queue src => exact execCreditReturn_within (.refl _ s) (List.Subset.refl _) queue src
  | queueReadbackDone queue => exact execQueueReadbackDone_within (.refl _ s) (List.Subset.refl _) queue
  | queueDropRemainder queue => exact execQueueDropRemainder_within (.refl _ s) (List.Subset.refl _) queue
  | queueClearCount queue => exact execQueueClearCount_within (.refl _ s) (List.Subset.refl _) queue
  | queueWmWrite high low => exact execQueueWmWrite_within (.refl _ s) (List.Subset.refl _) high low
  | dramRequest cls write addr chunks run data by_ => exact execDramRequest_within (.refl _ s) (List.Subset.refl _) cls write addr chunks run data by_
  | dramReadDone cls => exact execDramReadDone_within (.refl _ s) (List.Subset.refl _) cls
  | dramWriteDone cls => exact execDramWriteDone_within (.refl _ s) (List.Subset.refl _) cls
  | dramRefreshSlot bank due => exact execDramRefreshSlot_within (.refl _ s) (List.Subset.refl _) bank due
  | dramScheduleSwitch => exact execDramScheduleSwitch_within (.refl _ s) (List.Subset.refl _)
  | memBufTake => exact execMemBufTake_within (.refl _ s) (List.Subset.refl _)
  | memBufReturn addr => exact execMemBufReturn_within (.refl _ s) (List.Subset.refl _) addr
  | nandRead count => exact execNandRead_within (.refl _ s) (List.Subset.refl _) count
  | nandProgram count => exact execNandProgram_within (.refl _ s) (List.Subset.refl _) count
  | nandErase count => exact execNandErase_within (.refl _ s) (List.Subset.refl _) count
  | nandOperationDone ok => exact execNandOperationDone_within (.refl _ s) (List.Subset.refl _) ok
  | memCountClear => exact execMemCountClear_within (.refl _ s) (List.Subset.refl _)
  | groundCmdWrite addr cmp bob => exact execGroundCmdWrite_within (.refl _ s) (List.Subset.refl _) addr cmp bob
  | groundLookup => exact execGroundLookup_within (.refl _ s) (List.Subset.refl _)
  | groundInsert => exact execGroundInsert_within (.refl _ s) (List.Subset.refl _)
  | groundDelete => exact execGroundDelete_within (.refl _ s) (List.Subset.refl _)
  | groundFetch => exact execGroundFetch_within (.refl _ s) (List.Subset.refl _)
  | groundRoute => exact execGroundRoute_within (.refl _ s) (List.Subset.refl _)
  | groundWrite => exact execGroundWrite_within (.refl _ s) (List.Subset.refl _)
  | groundLptRead => exact execGroundLptRead_within (.refl _ s) (List.Subset.refl _)
  | groundLptForget => exact execGroundLptForget_within (.refl _ s) (List.Subset.refl _)
  | groundRehash => exact execGroundRehash_within (.refl _ s) (List.Subset.refl _)
  | rehashWalkEnd => exact execRehashWalkEnd_within (.refl _ s) (List.Subset.refl _)
  | groundSwap => exact execGroundSwap_within (.refl _ s) (List.Subset.refl _)
  | groundBadOp => exact execGroundBadOp_within (.refl _ s) (List.Subset.refl _)
  | hashZeroingDone => exact execHashZeroingDone_within (.refl _ s) (List.Subset.refl _)
  | routerAdvertisementRx port router life prefixes t => exact execRouterAdvertisementRx_within (.refl _ s) (List.Subset.refl _) port router life prefixes t
  | prefixDelegationChange deleg t => exact execPrefixDelegationChange_within (.refl _ s) (List.Subset.refl _) deleg t
  | defaultRouterExpiry port t => exact execDefaultRouterExpiry_within (.refl _ s) (List.Subset.refl _) port t
  | preferredPortReturn t => exact execPreferredPortReturn_within (.refl _ s) (List.Subset.refl _) t
  | downstreamPacket dest octets hdrIn hdrOut phy extra t => exact execDownstreamPacket_within (.refl _ s) (List.Subset.refl _) dest octets hdrIn hdrOut phy extra t
  | upstreamFragmentRx node tag size off data t => exact execUpstreamFragmentRx_within (.refl _ s) (List.Subset.refl _) node tag size off data t
  | reassemblyExpiry t => exact execReassemblyExpiry_within (.refl _ s) (List.Subset.refl _) t
  | addressRegistrationRx node iid rovr life t => exact execAddressRegistrationRx_within (.refl _ s) (List.Subset.refl _) node iid rovr life t
  | edarRx node iid rovr life t => exact execEdarRx_within (.refl _ s) (List.Subset.refl _) node iid rovr life t
  | registrationExpiry node t => exact execRegistrationExpiry_within (.refl _ s) (List.Subset.refl _) node t
  | dioTrickleExpiry pan heard t => exact execDioTrickleExpiry_within (.refl _ s) (List.Subset.refl _) pan heard t
  | daoRx sender pan target transits version ack t => exact execDaoRx_within (.refl _ s) (List.Subset.refl _) sender pan target transits version ack t
  | pathLifetimeExpiry node t => exact execPathLifetimeExpiry_within (.refl _ s) (List.Subset.refl _) node t
  | scDemandRx node cells t => exact execScDemandRx_within (.refl _ s) (List.Subset.refl _) node cells t
  | scAssignmentAck node t => exact execScAssignmentAck_within (.refl _ s) (List.Subset.refl _) node t
  | sixpRequestRx node sfid list t => exact execSixpRequestRx_within (.refl _ s) (List.Subset.refl _) node sfid list t
  | sixpTimeout t => exact execSixpTimeout_within (.refl _ s) (List.Subset.refl _) t
  | joinRequestRx pan eui pledge message oscore wrapSlot t => exact execJoinRequestRx_within (.refl _ s) (List.Subset.refl _) pan eui pledge message oscore wrapSlot t
  | rekeyAckRx pan node t => exact execRekeyAckRx_within (.refl _ s) (List.Subset.refl _) pan node t
  | rekeyDeadline pan t => exact execRekeyDeadline_within (.refl _ s) (List.Subset.refl _) pan t
  | campaignInterval campaign held t => exact execCampaignInterval_within (.refl _ s) (List.Subset.refl _) campaign held t
  | reportWindowEnd campaign held t => exact execReportWindowEnd_within (.refl _ s) (List.Subset.refl _) campaign held t
  | missingBlocksRx campaign node bitmap t => exact execMissingBlocksRx_within (.refl _ s) (List.Subset.refl _) campaign node bitmap t
  | fwBlockGet campaign node num szx => exact execFwBlockGet_within (.refl _ s) (List.Subset.refl _) campaign node num szx
  | completionReportRx campaign node version t => exact execCompletionReportRx_within (.refl _ s) (List.Subset.refl _) campaign node version t
  | campaignEndExpiry campaign t => exact execCampaignEndExpiry_within (.refl _ s) (List.Subset.refl _) campaign t
  | netGet ticket => exact execNetGet_within (.refl _ s) (List.Subset.refl _) ticket
  | netSet ticket port udp pd => exact execNetSet_within (.refl _ s) (List.Subset.refl _) ticket port udp pd
  | panGet ticket pan => exact execPanGet_within (.refl _ s) (List.Subset.refl _) ticket pan
  | panSet ticket pan k => exact execPanSet_within (.refl _ s) (List.Subset.refl _) ticket pan k
  | panRepair ticket pan => exact execPanRepair_within (.refl _ s) (List.Subset.refl _) ticket pan
  | nodeGet ticket index eui => exact execNodeGet_within (.refl _ s) (List.Subset.refl _) ticket index eui
  | nodeRemove ticket node => exact execNodeRemove_within (.refl _ s) (List.Subset.refl _) ticket node
  | nodeList ticket pan first count => exact execNodeList_within (.refl _ s) (List.Subset.refl _) ticket pan first count
  | nodeRoute ticket node => exact execNodeRoute_within (.refl _ s) (List.Subset.refl _) ticket node
  | nodeSetClass ticket node cls => exact execNodeSetClass_within (.refl _ s) (List.Subset.refl _) ticket node cls
  | schedGet ticket node => exact execSchedGet_within (.refl _ s) (List.Subset.refl _) ticket node
  | schedSet ticket pan sf0 sf1 => exact execSchedSet_within (.refl _ s) (List.Subset.refl _) ticket pan sf0 sf1
  | schedStats ticket => exact execSchedStats_within (.refl _ s) (List.Subset.refl _) ticket
  | joinSet ticket listed slot rate => exact execJoinSet_within (.refl _ s) (List.Subset.refl _) ticket listed slot rate
  | joinEnrol ticket entries slot => exact execJoinEnrol_within (.refl _ s) (List.Subset.refl _) ticket entries slot
  | joinRevoke ticket pledges => exact execJoinRevoke_within (.refl _ s) (List.Subset.refl _) ticket pledges
  | joinStats ticket => exact execJoinStats_within (.refl _ s) (List.Subset.refl _) ticket
  | joinGroupRekey ticket pan slot deadline t => exact execJoinGroupRekey_within (.refl _ s) (List.Subset.refl _) ticket pan slot deadline t
  | imageBegin ticket image len digest mask version => exact execImageBegin_within (.refl _ s) (List.Subset.refl _) ticket image len digest mask version
  | imageWrite ticket image off data => exact execImageWrite_within (.refl _ s) (List.Subset.refl _) ticket image off data
  | imageCommit ticket image => exact execImageCommit_within (.refl _ s) (List.Subset.refl _) ticket image
  | imageDelete ticket image => exact execImageDelete_within (.refl _ s) (List.Subset.refl _) ticket image
  | imageList ticket => exact execImageList_within (.refl _ s) (List.Subset.refl _) ticket
  | campaignStart ticket pan image a t => exact execCampaignStart_within (.refl _ s) (List.Subset.refl _) ticket pan image a t
  | campaignStatus ticket campaign => exact execCampaignStatus_within (.refl _ s) (List.Subset.refl _) ticket campaign
  | campaignStop ticket campaign => exact execCampaignStop_within (.refl _ s) (List.Subset.refl _) ticket campaign
  | zoneReportRx node kind value ts t => exact execZoneReportRx_within (.refl _ s) (List.Subset.refl _) node kind value ts t
  | zoneHoldExpiry zone t => exact execZoneHoldExpiry_within (.refl _ s) (List.Subset.refl _) zone t
  | zoneVacancyExpiry zone t => exact execZoneVacancyExpiry_within (.refl _ s) (List.Subset.refl _) zone t
  | zoneOverrideExpiry zone t => exact execZoneOverrideExpiry_within (.refl _ s) (List.Subset.refl _) zone t
  | zonePiStep zone t => exact execZonePiStep_within (.refl _ s) (List.Subset.refl _) zone t
  | zoneBroadcastOpportunity pan fit held t => exact execZoneBroadcastOpportunity_within (.refl _ s) (List.Subset.refl _) pan fit held t
  | zoneGet ticket zone => exact execZoneGet_within (.refl _ s) (List.Subset.refl _) ticket zone
  | zoneSet ticket zone k t => exact execZoneSet_within (.refl _ s) (List.Subset.refl _) ticket zone k t
  | zoneAddMembers ticket zone nodes => exact execZoneAddMembers_within (.refl _ s) (List.Subset.refl _) ticket zone nodes
  | zoneRemoveMembers ticket zone nodes => exact execZoneRemoveMembers_within (.refl _ s) (List.Subset.refl _) ticket zone nodes
  | zoneOverride ticket zone level secs t => exact execZoneOverride_within (.refl _ s) (List.Subset.refl _) ticket zone level secs t
  | zoneRelease ticket zone t => exact execZoneRelease_within (.refl _ s) (List.Subset.refl _) ticket zone t
  | zoneStats ticket pan => exact execZoneStats_within (.refl _ s) (List.Subset.refl _) ticket pan
  | zoneDelete ticket zone => exact execZoneDelete_within (.refl _ s) (List.Subset.refl _) ticket zone
  | keyCmdWrite addr => exact execKeyCmdWrite_within (.refl _ s) (List.Subset.refl _) addr
  | keyGenerate => exact execKeyGenerate_within (.refl _ s) (List.Subset.refl _)
  | keyDerive => exact execKeyDerive_within (.refl _ s) (List.Subset.refl _)
  | keyImport => exact execKeyImport_within (.refl _ s) (List.Subset.refl _)
  | keyExport => exact execKeyExport_within (.refl _ s) (List.Subset.refl _)
  | keyRestrict => exact execKeyRestrict_within (.refl _ s) (List.Subset.refl _)
  | keyDestroy => exact execKeyDestroy_within (.refl _ s) (List.Subset.refl _)
  | keyAttest signFails => exact execKeyAttest_within (.refl _ s) (List.Subset.refl _) signFails
  | keySign signFails => exact execKeySign_within (.refl _ s) (List.Subset.refl _) signFails
  | keyKmac => exact execKeyKmac_within (.refl _ s) (List.Subset.refl _)
  | keyWrapData => exact execKeyWrapData_within (.refl _ s) (List.Subset.refl _)
  | keyRandom => exact execKeyRandom_within (.refl _ s) (List.Subset.refl _)
  | keyDecaps => exact execKeyDecaps_within (.refl _ s) (List.Subset.refl _)
  | keyPublic => exact execKeyPublic_within (.refl _ s) (List.Subset.refl _)
  | keyCommission => exact execKeyCommission_within (.refl _ s) (List.Subset.refl _)
  | keyCert => exact execKeyCert_within (.refl _ s) (List.Subset.refl _)
  | keyVerify => exact execKeyVerify_within (.refl _ s) (List.Subset.refl _)
  | entropyHealthFail => exact execEntropyHealthFail_within (.refl _ s) (List.Subset.refl _)
  | tamperSourceEvent source t => exact execTamperSourceEvent_within (.refl _ s) (List.Subset.refl _) source t
  | tamperCoreResponse t => exact execTamperCoreResponse_within (.refl _ s) (List.Subset.refl _) t
  | tamperCfgWrite value => exact execTamperCfgWrite_within (.refl _ s) (List.Subset.refl _) value
  | tamperLogClear => exact execTamperLogClear_within (.refl _ s) (List.Subset.refl _)
  | roleEnrol ticket role pubKey => exact execRoleEnrol_within (.refl _ s) (List.Subset.refl _) ticket role pubKey
  | roleRevoke ticket digest => exact execRoleRevoke_within (.refl _ s) (List.Subset.refl _) ticket digest
  | roleRelease ticket eui => exact execRoleRelease_within (.refl _ s) (List.Subset.refl _) ticket eui
  | samplerEntry ticket => exact execSamplerEntry_within (.refl _ s) (List.Subset.refl _) ticket
  | roleReissue ticket => exact execRoleReissue_within (.refl _ s) (List.Subset.refl _) ticket
  | auditRead ticket first count => exact execAuditRead_within (.refl _ s) (List.Subset.refl _) ticket first count
  | auditCheckpoint ticket => exact execAuditCheckpoint_within (.refl _ s) (List.Subset.refl _) ticket
  | auditHeadRead ticket => exact execAuditHeadRead_within (.refl _ s) (List.Subset.refl _) ticket
  | roleCkptWrite => exact execRoleCkptWrite_within (.refl _ s) (List.Subset.refl _)
  | auditPageProgram => exact execAuditPageProgram_within (.refl _ s) (List.Subset.refl _)
  | leaseRenewDue t => exact execLeaseRenewDue_within (.refl _ s) (List.Subset.refl _) t
  | renewRx role count ext t => exact execRenewRx_within (.refl _ s) (List.Subset.refl _) role count ext t
  | grantRx role count t => exact execGrantRx_within (.refl _ s) (List.Subset.refl _) role count t
  | resignRx role t => exact execResignRx_within (.refl _ s) (List.Subset.refl _) role t
  | markStaleRx role t => exact execMarkStaleRx_within (.refl _ s) (List.Subset.refl _) role t
  | witnessDatagramRx kind role count ext seq tagOk t => exact execWitnessDatagramRx_within (.refl _ s) (List.Subset.refl _) kind role count ext seq tagOk t
  | peerSilentTimeout t => exact execPeerSilentTimeout_within (.refl _ s) (List.Subset.refl _) t
  | takeoverInstant t => exact execTakeoverInstant_within (.refl _ s) (List.Subset.refl _) t
  | aloneTimeout t => exact execAloneTimeout_within (.refl _ s) (List.Subset.refl _) t
  | helloSend t => exact execHelloSend_within (.refl _ s) (List.Subset.refl _) t
  | helloRx digest eui role pref t => exact execHelloRx_within (.refl _ s) (List.Subset.refl _) digest eui role pref t
  | keyxRx ok secret peerEui t => exact execKeyxRx_within (.refl _ s) (List.Subset.refl _) ok secret peerEui t
  | mirrorFrameRx records t => exact execMirrorFrameRx_within (.refl _ s) (List.Subset.refl _) records t
  | mirrorAckRx seq t => exact execMirrorAckRx_within (.refl _ s) (List.Subset.refl _) seq t
  | fixScanStep => exact execFixScanStep_within (.refl _ s) (List.Subset.refl _)
  | naRepeat t => exact execNaRepeat_within (.refl _ s) (List.Subset.refl _) t
  | pairResignWrite => exact execPairResignWrite_within (.refl _ s) (List.Subset.refl _)
  | pairResyncWrite => exact execPairResyncWrite_within (.refl _ s) (List.Subset.refl _)
  | resyncComplete t => exact execResyncComplete_within (.refl _ s) (List.Subset.refl _) t
  | updateBegin ticket manifest t => exact execUpdateBegin_within (.refl _ s) (List.Subset.refl _) ticket manifest t
  | updateWrite ticket entry off data flashOk t => exact execUpdateWrite_within (.refl _ s) (List.Subset.refl _) ticket entry off data flashOk t
  | updateFinish ticket flashOk t => exact execUpdateFinish_within (.refl _ s) (List.Subset.refl _) ticket flashOk t
  | updateActivate ticket window => exact execUpdateActivate_within (.refl _ s) (List.Subset.refl _) ticket window
  | updateAbort ticket => exact execUpdateAbort_within (.refl _ s) (List.Subset.refl _) ticket
  | updateStatus ticket => exact execUpdateStatus_within (.refl _ s) (List.Subset.refl _) ticket
  | updateConfirm mainHoop t => exact execUpdateConfirm_within (.refl _ s) (List.Subset.refl _) mainHoop t
  | updateReject mainHoop t => exact execUpdateReject_within (.refl _ s) (List.Subset.refl _) mainHoop t
  | trialWindowExpiry t => exact execTrialWindowExpiry_within (.refl _ s) (List.Subset.refl _) t
  | updateSessionIdle t => exact execUpdateSessionIdle_within (.refl _ s) (List.Subset.refl _) t
  | updateOfferRx manifest t => exact execUpdateOfferRx_within (.refl _ s) (List.Subset.refl _) manifest t
  | updateDataRx entry off data flashOk t => exact execUpdateDataRx_within (.refl _ s) (List.Subset.refl _) entry off data flashOk t
  | updateActivateRx mdig window => exact execUpdateActivateRx_within (.refl _ s) (List.Subset.refl _) mdig window
  | updateResultRx mdig state t => exact execUpdateResultRx_within (.refl _ s) (List.Subset.refl _) mdig state t
  | updateAbortRx => exact execUpdateAbortRx_within (.refl _ s) (List.Subset.refl _)
  | updateResultSend t => exact execUpdateResultSend_within (.refl _ s) (List.Subset.refl _) t
  | gpioEdge pin rising t => exact execGpioEdge_within (.refl _ s) (List.Subset.refl _) pin rising t
  | mainSupplyGood supply => exact execMainSupplyGood_within (.refl _ s) (List.Subset.refl _) supply
  | resetNRelease => exact execResetNRelease_within (.refl _ s) (List.Subset.refl _)
  | tamperSourceInactive source filtered => exact execTamperSourceInactive_within (.refl _ s) (List.Subset.refl _) source filtered
  | fwHeaderGet campaign node => exact execFwHeaderGet_within (.refl _ s) (List.Subset.refl _) campaign node
  | fcpPinUpdate t => exact execFcpPinUpdate_within (.refl _ s) (List.Subset.refl _) t

/-- A step takes the front command off the queue and stays within some list of parts. -/
theorem step_within {s t : State} (h : step s = .next t) :
    ∃ l, State.Within l { s with pending := s.pending.tail } t := by
  unfold step at h
  split at h
  · next e =>
    cases h
    have e' : ({ s with pending := s.pending.tail } : State) = s := by rw [e]; cases s; cases e; rfl
    rw [e']
    exact ⟨[.mtb], State.tick_within (.refl _ s) (List.Subset.refl _)⟩
  · next c rest e =>
    rw [e]
    exact ⟨touches c, (exec_within c _).of t h⟩

/-- A step keeps the invariant. -/
theorem step_inv {s t : State} (hi : s.Inv) (h : step s = .next t) : t.Inv := by
  obtain ⟨l, hw⟩ := step_within h
  exact hw.inv hi

end Sys2Proof.Machine

section
open Sys2Proof Sys2Proof.Machine

/-- Settles O53: the invariant is one of the things that the frame of every step says. -/
theorem stepKeepsTheInvariant : Obligations.StepKeepsTheInvariant := by
  unfold Obligations.StepKeepsTheInvariant
  exact fun s t hi h => step_inv hi h

/-- Settles O54, by the frame of each command's meaning. -/
theorem commandFrames : Obligations.CommandFrames := by
  unfold Obligations.CommandFrames
  exact fun c s t h => (exec_within c s).of t h

/-- Settles O56: no command touches the queue that the step has taken it from. -/
theorem queueIsServedInOrder : Obligations.QueueIsServedInOrder := by
  unfold Obligations.QueueIsServedInOrder
  intro s t h
  obtain ⟨l, hw⟩ := step_within h
  exact hw.pending

/-- Settles O57, from the invariant of the state that the step answers. -/
theorem reservedFieldsReadZero : Obligations.ReservedFieldsReadZero := by
  unfold Obligations.ReservedFieldsReadZero
  exact fun s t hi h a => (step_inv hi h).reserved a

/-- Settles O48: the step's match on a queue with a command at its front. -/
theorem stepRunsTheFrontCommand : Obligations.StepRunsTheFrontCommand := by
  unfold Obligations.StepRunsTheFrontCommand
  exact fun c q s => rfl

/-- Settles O49: on an empty queue the step is the tick. -/
theorem idleStepTicks : Obligations.IdleStepTicks := by
  unfold Obligations.IdleStepTicks
  intro s hp
  refine ⟨s.tick, by simp only [step, hp], ?_⟩
  cases hr : s.rootRuns <;> simp [State.tick, hr]

/-- Settles O50: rounding a quotient to the nearest integer. -/
theorem timeConstants : Obligations.TimeConstants := by
  unfold Obligations.TimeConstants
  intro ns
  simp only [nsToCyc, divRound]
  omega

/-- Settles O51, by evaluating the fields of the reset state. -/
theorem resetValues : Obligations.ResetValues := by
  unfold Obligations.ResetValues
  decide

/-- Settles O52: the tables of the reset state are empty. -/
theorem resetMeetsTheInvariant : Obligations.ResetMeetsTheInvariant := by
  unfold Obligations.ResetMeetsTheInvariant
  exact ⟨rfl, rfl, rfl⟩

end

namespace Sys2Proof.Machine
open Sys2Proof

/-! ### Fields and event bits after a plain update -/

theorem Field.ok_fits {f : Field} (hf : f.ok = true) : f.lo + f.width ≤ 32 := by
  simp only [Field.ok, Bool.and_eq_true, decide_eq_true_eq] at hf
  exact hf.1

theorem State.isSet_setB_same (s : State) {f : Field} (b : Bool) (hf : f.ok = true) (hw : f.width = 1) :
    (s.setB f b).isSet f = b := by
  simp only [State.isSet, State.setB, State.getF_setF_same s f _ hf, hw]
  cases b <;> rfl

theorem State.isSet_setB_ne (s : State) {f g : Field} (b : Bool) (hf : f.ok = true) (hg : g.ok = true)
    (ha : f.apart g = true) : (s.setB f b).isSet g = s.isSet g := by
  simp only [State.isSet, State.setB, State.getF_setF_ne s f g _ (Field.ok_fits hf) hg ha]

/-- Fields of registers that read alike have one value. -/
theorem State.getF_congr {s t : State} {f : Field} (h : t.getReg f.addr = s.getReg f.addr) : t.getF f = s.getF f := by
  rw [State.getF, State.getF, h]

theorem State.isSet_congr {s t : State} {f : Field} (h : t.getReg f.addr = s.getReg f.addr) : t.isSet f = s.isSet f := by
  rw [State.isSet, State.isSet, State.getF_congr h]

theorem State.getReg_raise_ne (s : State) (e : Field) {b : Nat} (hb : b ≠ e.addr) : (s.raise e).getReg b = s.getReg b := by
  unfold State.getReg
  rw [State.raise_regs]
  split
  · exact State.getReg_setF_ne s e 1 hb
  · rfl

theorem State.isSet_raise_same (s : State) {e : Field} (he : e.ok = true) (hw : e.width = 1) :
    (s.raise e).isSet e = true := by
  rw [State.isSet, State.getF_raise_same s e he hw]
  rfl

theorem State.isSet_raise_ne (s : State) (e g : Field) (he : e.ok = true) (hg : g.ok = true)
    (ha : e.apart g = true) : (s.raise e).isSet g = s.isSet g := by
  rw [State.isSet, State.isSet, State.getF_raise_ne s e g (Field.ok_fits he) hg ha]

theorem State.isSet_raiseIf_ne (s : State) (c : Bool) (e g : Field) (he : e.ok = true) (hg : g.ok = true)
    (ha : e.apart g = true) : (s.raiseIf c e).isSet g = s.isSet g := by
  cases c
  · rfl
  · exact State.isSet_raise_ne s e g he hg ha

/-! ### PERIPH edges (R5) -/

theorem edgeAt_mod (p t : Nat) : edgeAt p t % p = 0 := Nat.mul_mod_left _ _

theorem max_periphEdge_mod (m u : Nat) :
    max m (periphEdge u) % 16 = if m ≤ periphEdge u then 0 else m % 16 := by
  split
  · next h => rw [Nat.max_eq_right h]; exact edgeAt_mod 16 u
  · next h => rw [Nat.max_eq_left (by omega)]

/-! ### GPIO_EDGE (R491) -/

/-- The state in which a GPIO pin's new level has been sampled. -/
def State.gpioSampled (s : State) (p : Nat) (r : Bool) (u : Nat) : State :=
  (s.advance (periphEdge u)).setB (R.SVC_GPIO_IN_IN.bit p) r

theorem execGpioEdge_next {s : State} (hr : s.rootRuns = true) (p : Fin 8) (r : Bool) (u : Nat) :
    execGpioEdge p r u s =
      .next ((s.gpioSampled p r u).raiseIf (s.isSet (R.SVC_PIN_CFG_EDGE.bit p) = r) (R.SVC_EVENT_GPIO_EDGE.bit p)) := by
  have he : (s.gpioSampled p r u).isSet (R.SVC_PIN_CFG_EDGE.bit p) = s.isSet (R.SVC_PIN_CFG_EDGE.bit p) :=
    State.isSet_congr (State.getReg_setF_ne _ _ _ (show R.SVC_PIN_CFG ≠ R.SVC_GPIO_IN by decide))
  rw [← he]
  simp only [execGpioEdge, hr]
  rfl

theorem execGpioEdge_rootStopped {s : State} (hr : s.rootRuns = false) (p : Fin 8) (r : Bool) (u : Nat) :
    execGpioEdge p r u s = .next s := by
  simp [execGpioEdge, hr]

theorem gpioIn_bit_ok (p : Fin 8) : (R.SVC_GPIO_IN_IN.bit p).ok = true := by decide +revert

theorem gpioEvent_bit_ok (p : Fin 8) : (R.SVC_EVENT_GPIO_EDGE.bit p).ok = true := by decide +revert

theorem gpioEvent_apart_gpioIn (p q : Fin 8) : (R.SVC_EVENT_GPIO_EDGE.bit p).apart (R.SVC_GPIO_IN_IN.bit q) = true := by
  decide +revert

theorem gpioIn_apart (p q : Fin 8) (h : q ≠ p) : (R.SVC_GPIO_IN_IN.bit p).apart (R.SVC_GPIO_IN_IN.bit q) = true := by
  decide +revert

/-! ### FCP_PIN_UPDATE (R303, R489) -/

/-- One flow-control pin takes its queues' state and, from RUNNING on, is driven. -/
def State.fcpPin (s : State) (n : Nat) : State :=
  let t := s.setB (R.QUEUE_FCP_PIN.bit n) (s.fcpAbove n)
  if t.running then t.emit (.fcp n (t.fcpOn n) (t.fcpLevel n (t.fcpOn n))) else t

theorem execFcpPinUpdate_next {s : State} (hr : s.rootRuns = true) (u : Nat) :
    execFcpPinUpdate u s = .next ((s.advance (periphEdge u)).each [0, 1, 2, 3] State.fcpPin) := by
  simp only [execFcpPinUpdate, hr]
  rfl

theorem execFcpPinUpdate_rootStopped {s : State} (hr : s.rootRuns = false) (u : Nat) : execFcpPinUpdate u s = .next s := by
  simp [execFcpPinUpdate, hr]

/-- Nothing but QUEUE_FCP and what has been sent differs. -/
structure State.FcpSame (s t : State) : Prop where
  eq : t = { s with regs := t.regs, out := t.out }
  regs : ∀ a, a ≠ R.QUEUE_FCP → t.getReg a = s.getReg a

theorem State.FcpSame.refl (s : State) : s.FcpSame s := ⟨rfl, fun _ _ => rfl⟩

theorem State.FcpSame.trans {s t u : State} (h : s.FcpSame t) (k : t.FcpSame u) : s.FcpSame u :=
  ⟨by rw [k.eq, h.eq], fun a ha => (k.regs a ha).trans (h.regs a ha)⟩

theorem State.fcpSame_setB (s : State) (n : Nat) (b : Bool) : s.FcpSame (s.setB (R.QUEUE_FCP_PIN.bit n) b) :=
  ⟨rfl, fun _ ha => State.getReg_setF_ne s _ _ ha⟩

theorem svcFcpCfg_ne_queueFcp : R.SVC_FCP_CFG ≠ R.QUEUE_FCP := by decide

section
variable {s t : State} (h : s.FcpSame t)
include h

theorem State.FcpSame.fcpAbove (n : Nat) : t.fcpAbove n = s.fcpAbove n := by rw [h.eq]; rfl

theorem State.FcpSame.isSet {f : Field} (hf : f.addr ≠ R.QUEUE_FCP) : t.isSet f = s.isSet f :=
  State.isSet_congr (h.regs _ hf)

theorem State.FcpSame.fcpOn (n : Nat) : t.fcpOn n = s.fcpOn n := by
  simp only [State.fcpOn, h.fcpAbove, h.isSet (f := R.SVC_FCP_CFG_FORCE.bit n) svcFcpCfg_ne_queueFcp,
    h.isSet (f := R.SVC_FCP_CFG_FORCE_VAL.bit n) svcFcpCfg_ne_queueFcp]

theorem State.FcpSame.fcpLevel (n : Nat) (on : Bool) : t.fcpLevel n on = s.fcpLevel n on := by
  simp only [State.fcpLevel, h.isSet (f := R.SVC_FCP_CFG_OD.bit n) svcFcpCfg_ne_queueFcp, h.isSet (f := R.SVC_FCP_CFG_POL.bit n) svcFcpCfg_ne_queueFcp]

theorem State.FcpSame.running : t.running = s.running := by
  have hd : ∀ f : Field, f.addr = R.START_STATE → t.getF f = s.getF f := fun f hf =>
    State.getF_congr (h.regs _ (by rw [hf]; decide))
  simp only [State.running, State.inService, State.erasedLike, State.dev, hd R.START_STATE_DEV_STATE rfl,
    hd R.START_STATE_PHASE rfl]
  rfl

theorem State.FcpSame.fcpPin (n : Nat) : s.FcpSame (t.fcpPin n) := by
  refine h.trans ((t.fcpSame_setB n (t.fcpAbove n)).trans ?_)
  unfold State.fcpPin
  dsimp only
  split
  · exact ⟨rfl, fun _ _ => rfl⟩
  · exact .refl _

theorem State.FcpSame.fcpPin_out (n : Nat) :
    (t.fcpPin n).out = (if s.running then [.fcp n (s.fcpOn n) (s.fcpLevel n (s.fcpOn n))] else []) ++ t.out := by
  have k := h.trans (t.fcpSame_setB n (t.fcpAbove n))
  simp only [State.fcpPin, k.running, k.fcpOn, k.fcpLevel]
  split <;> rfl

omit h in
theorem State.fcpPin_regs (n : Nat) : (t.fcpPin n).regs = (t.setB (R.QUEUE_FCP_PIN.bit n) (t.fcpAbove n)).regs := by
  unfold State.fcpPin
  dsimp only
  split <;> rfl

omit h in
theorem State.isSet_fcpPin (n : Nat) (f : Field) :
    (t.fcpPin n).isSet f = (t.setB (R.QUEUE_FCP_PIN.bit n) (t.fcpAbove n)).isSet f :=
  State.isSet_congr (by unfold State.getReg; rw [State.fcpPin_regs])

end

theorem queueFcpPin_bit_ok (n : Fin 4) : (R.QUEUE_FCP_PIN.bit n).ok = true := by decide +revert

theorem queueFcpPin_apart (m n : Fin 4) (h : n ≠ m) : (R.QUEUE_FCP_PIN.bit n).apart (R.QUEUE_FCP_PIN.bit m) = true := by
  decide +revert

/-- The bit of the pin just updated shows its queues' state; the others stay. -/
theorem State.FcpSame.isSet_pin {s t : State} (h : s.FcpSame t) (m n : Fin 4) :
    (t.fcpPin n).isSet (R.QUEUE_FCP_PIN.bit m) = if m = n then s.fcpAbove m else t.isSet (R.QUEUE_FCP_PIN.bit m) := by
  rw [State.isSet_fcpPin]
  split
  · next e => subst e; rw [State.isSet_setB_same _ _ (queueFcpPin_bit_ok m) rfl, h.fcpAbove]
  · next e =>
    exact State.isSet_setB_ne _ _ (queueFcpPin_bit_ok n) (queueFcpPin_bit_ok m) (queueFcpPin_apart m n (Ne.symm e))

/-- What the update of all four pins leaves. -/
theorem State.fcpPins_spec (s : State) :
    let t := s.each [0, 1, 2, 3] State.fcpPin
    s.FcpSame t ∧ (∀ m : Fin 4, t.isSet (R.QUEUE_FCP_PIN.bit m) = s.fcpAbove m) ∧
    t.out = (if s.running then [3, 2, 1, 0].map (fun n => Msg.fcp n (s.fcpOn n) (s.fcpLevel n (s.fcpOn n))) else []) ++ s.out := by
  have h0 := State.FcpSame.refl s
  have h1 := h0.fcpPin 0
  have h2 := h1.fcpPin 1
  have h3 := h2.fcpPin 2
  refine ⟨h3.fcpPin 3, fun m => ?_, ?_⟩
  · change (((((s.fcpPin 0).fcpPin 1).fcpPin 2).fcpPin 3).isSet _) = _
    refine (h3.isSet_pin m 3).trans (ite_eq_left_iff.mpr fun n3 => ?_)
    refine (h2.isSet_pin m 2).trans (ite_eq_left_iff.mpr fun n2 => ?_)
    refine (h1.isSet_pin m 1).trans (ite_eq_left_iff.mpr fun n1 => ?_)
    exact (h0.isSet_pin m 0).trans (ite_eq_left_iff.mpr fun n0 => absurd m.isLt (by omega))
  · change ((((s.fcpPin 0).fcpPin 1).fcpPin 2).fcpPin 3).out = _
    rw [h3.fcpPin_out, h2.fcpPin_out, h1.fcpPin_out, h0.fcpPin_out]
    split <;> rfl

end Sys2Proof.Machine

section
open Sys2Proof Sys2Proof.Machine

/-- Settles O45: a sampled GPIO pin, and the four flow-control pins one after another. -/
theorem pinCommands : Obligations.PinCommands := by
  unfold Obligations.PinCommands
  intro s _
  refine ⟨fun p r u hr => ⟨_, execGpioEdge_next hr p r u, ?_, fun he => ?_, fun he => ?_, ?_, ?_, ?_, ?_⟩,
    fun p r u hr => ⟨s, execGpioEdge_rootStopped hr p r u, rfl⟩,
    fun u hr => ⟨_, execFcpPinUpdate_next hr u, ?_⟩,
    fun u hr => ⟨s, execFcpPinUpdate_rootStopped hr u, rfl⟩⟩
  · rw [State.isSet_raiseIf_ne _ _ _ _ (gpioEvent_bit_ok p) (gpioIn_bit_ok p) (gpioEvent_apart_gpioIn p p)]
    exact State.isSet_setB_same _ r (gpioIn_bit_ok p) rfl
  · rw [decide_eq_true he]
    exact State.isSet_raise_same _ (gpioEvent_bit_ok p) rfl
  · rw [decide_eq_false he]
    exact State.getF_congr (State.getReg_setF_ne _ _ _ (show R.SVC_EVENT ≠ R.SVC_GPIO_IN by decide))
  · simp only [List.all_eq_true, List.mem_range, Bool.or_eq_true, beq_iff_eq]
    intro i hi
    refine or_iff_not_imp_left.mpr fun hne => ?_
    have hq : (⟨i, hi⟩ : Fin 8) ≠ p := fun e => hne (congrArg Fin.val e)
    rw [State.isSet_raiseIf_ne _ _ _ _ (gpioEvent_bit_ok p) (gpioIn_bit_ok ⟨i, hi⟩) (gpioEvent_apart_gpioIn p ⟨i, hi⟩)]
    exact State.isSet_setB_ne _ r (gpioIn_bit_ok p) (gpioIn_bit_ok ⟨i, hi⟩) (gpioIn_apart p ⟨i, hi⟩ hq)
  · exact State.raiseIf_mtb _ _ _
  · rw [State.raiseIf_mtb]
    exact max_periphEdge_mod s.mtb u
  · exact State.raiseIf_out _ _ _
  · obtain ⟨hs, hpin, hout⟩ := State.fcpPins_spec (s.advance (periphEdge u))
    refine ⟨?_, hout, ?_, ?_, ?_, ?_⟩
    · simp only [List.all_eq_true, List.mem_range, beq_iff_eq]
      exact fun n hn => hpin ⟨n, hn⟩
    · simp only [List.all_eq_true, List.mem_range, Bool.and_eq_true, beq_iff_eq, State.fcpLevel]
      intro n _
      cases s.isSet (R.SVC_FCP_CFG_OD.bit n) <;> cases s.isSet (R.SVC_FCP_CFG_POL.bit n) <;> decide
    · rw [hs.eq]; rfl
    · rw [hs.eq]; rfl
    · rw [hs.eq]; rfl

end

namespace Sys2Proof.Machine
open Sys2Proof

/-! ### When the MAC has taken an entry (R295) -/

theorem State.macQueue_head {s : State} {k : Bool} {q : Nat} {e : Entry} (h : s.macQueue k = some (q, e)) :
    s.head? q = some e := by
  unfold State.macQueue at h
  split at h
  · cases h
  · obtain ⟨a, ha, hq⟩ := Option.map_eq_some_iff.mp h
    cases hq
    exact ha

/-- A part that is not in the list is as it was. -/
theorem State.Within.mtb_eq {l : List Part} {s t : State} (h : State.Within l s t) (hl : Part.mtb ∉ l) : t.mtb = s.mtb :=
  h.same .mtb hl

/-- A dequeue waits until the entry is visible and the queue's cycle for it has come. -/
theorem State.dequeue_mtb {s : State} {q : Nat} {e : Entry} (h : s.head? q = some e) :
    (s.dequeue q).mtb = max s.mtb (max (s.queue q).outAt e.vis) := by
  unfold State.dequeue
  rw [h]
  dsimp only
  rw [(State.watermark_within (T := [.block 15, .notes, .queues]) (.refl _ _) (List.Subset.refl _) q).mtb_eq (by decide)]
  simp only [State.setQueue]
  split <;> rfl

/-- The time at which the MAC has acted on a shuttle's completion record: not before it could take the record. -/
theorem execShuttleCompletionRx_mtb {s t : State} {q u : Nat} {e : Entry} (hq : (s.advance u).macQueue true = some (q, e))
    (h : execShuttleCompletionRx u s = .next t) : t.mtb = max (max s.mtb u) (max (s.queue q).outAt e.vis) := by
  simp only [execShuttleCompletionRx, hq, Host.Outcome.next.injEq] at h
  rw [← h, (State.macTick_within (.refl _ _) (List.Subset.refl _)).mtb_eq (by decide),
    (State.macComplete_within (.refl _ _) (List.Subset.refl _) _ _ _).mtb_eq (by decide)]
  exact State.dequeue_mtb (State.macQueue_head hq)

/-- A completion record of shuttle 0 under TAG 0 that becomes visible at cyc 1000: the beacon went out at cyc 1. -/
def lateRecord : Entry := ⟨0, 16, 3, 0x20, 0, 0, leBytes 8 1 ++ leBytes 8 0, 1000⟩

/-- A state at cyc 0 in which that record stands in the MAC's queue, for a beacon's command. -/
def lateRecordState : State :=
  { pr := { Pricking.none with queues := [⟨0, 0, 0, 0x30, 16, 12, 4, 0xFF, 0xFF⟩] }
    queues := [(0, { entries := [lateRecord], onDie := 1 })]
    mac := { cmds := [(0, { of := .beacon 0, trx := 0, air := 0, bucket := 0 })] } }

end Sys2Proof.Machine

section
open Sys2Proof Sys2Proof.Machine

/-- Refutes O22: the first clause has the MAC act on a completion record at the later of the time base and the given time, but
the MAC takes a record only once it is visible (R295), and `lateRecord` is visible at cyc 1000, later than both. -/
theorem not_macAccountsAndRegisters : ¬ Obligations.MacAccountsAndRegisters := by
  unfold Obligations.MacAccountsAndRegisters
  intro h
  have hq : lateRecordState.macQueue true = some (0, lateRecord) := by decide
  obtain ⟨t, ht, -, hm, -⟩ := (h lateRecordState (by decide)).1 0 0 0 lateRecord _ _ hq rfl
    (show Store.find? 0 lateRecordState.mac.cmds = some { of := .beacon 0, trx := 0, air := 0, bucket := 0 } from rfl)
    (by decide) rfl
  have := execShuttleCompletionRx_mtb (s := lateRecordState) (u := 0) hq ht
  rw [hm] at this
  exact absurd this (by decide)

end

namespace Sys2Proof.Machine
open Sys2Proof

/-! ### DRAM requests (R319, R320) -/

/-- The request that a DRAM_REQUEST presents, and how many octets it covers. -/
def dramReqOf (c : Nat) (w : Bool) (a n : Nat) (run : Bool) (d : List Byte) : DramReq :=
  { cls := c, write := w, addr := a, chunks := n, run := run, last := 0, data := d }
def dramOctets (w : Bool) (a n : Nat) (d : List Byte) : Nat := if w then d.length else 64 * n - a % 64

/-- The conditions under which a request is presented. -/
def State.mayPresent (s : State) (c : Fin 16) (a m : Nat) (y : Requester) : Prop :=
  s.rootRuns = true ∧ c.val < 14 ∧ s.mayRequest y = true ∧ m ≠ 0 ∧ inDram a = true ∧ inDram (a + m - 1) = true

section
variable {s : State} {c : Fin 16} {w run : Bool} {a n : Nat} {d : List Byte} {y : Requester}

theorem execDramRequest_fault {b x : Nat} (h : s.requestFault y a (dramOctets w a n d) w = some (b, x)) :
    execDramRequest c w a n run d y s = .next (if s.executes b then s.accessFault b x else s) := by
  unfold dramOctets at h
  simp only [execDramRequest, h]
  split <;> rfl

theorem execDramRequest_ok (h : s.requestFault y a (dramOctets w a n d) w = none) :
    execDramRequest c w a n run d y s =
      if !s.rootRuns || c = 15 || c = 14 || !s.mayRequest y || dramOctets w a n d = 0 || !inDram a ||
          !inDram (a + dramOctets w a n d - 1) then .next s
      else if s.dramHeld then .next { s with ms := { s.ms with held := s.ms.held ++ [dramReqOf c w a n run d] } }
      else .next (s.forgetSlots.dramServe (dramReqOf c w a n run d)) := by
  unfold dramOctets at h
  simp only [execDramRequest, h]
  rfl

theorem State.mayPresent_iff {m : Nat} :
    (!s.rootRuns || decide (c = 15) || decide (c = 14) || !s.mayRequest y || decide (m = 0) || !inDram a ||
      !inDram (a + m - 1)) = false ↔ s.mayPresent c a m y := by
  have hc : (¬ c = 15 ∧ ¬ c = 14) ↔ c.val < 14 := by omega
  simp only [State.mayPresent, ← hc, Bool.or_eq_false_iff, Bool.not_eq_false', decide_eq_false_iff_not, ne_eq]
  tauto

theorem execDramRequest_rejected (h : s.requestFault y a (dramOctets w a n d) w = none)
    (hp : ¬ s.mayPresent c a (dramOctets w a n d) y) : execDramRequest c w a n run d y s = .next s := by
  rw [execDramRequest_ok h, if_pos]
  exact Bool.of_not_eq_false fun e => hp (State.mayPresent_iff.mp e)

theorem execDramRequest_held (h : s.requestFault y a (dramOctets w a n d) w = none)
    (hp : s.mayPresent c a (dramOctets w a n d) y) (hh : s.dramHeld = true) :
    execDramRequest c w a n run d y s =
      .next { s with ms := { s.ms with held := s.ms.held ++ [dramReqOf c w a n run d] } } := by
  rw [execDramRequest_ok h, State.mayPresent_iff.mpr hp, hh]
  rfl

theorem execDramRequest_served (h : s.requestFault y a (dramOctets w a n d) w = none)
    (hp : s.mayPresent c a (dramOctets w a n d) y) (hh : s.dramHeld = false) :
    execDramRequest c w a n run d y s = .next (s.forgetSlots.dramServe (dramReqOf c w a n run d)) := by
  rw [execDramRequest_ok h, State.mayPresent_iff.mpr hp, hh]
  rfl

end

/-- Taking slots changes nothing but which slots are taken. -/
theorem State.takeChunks_eq {s t : State} {c a : Nat} {ks : List Nat} {l : List (Nat × Nat)}
    (h : s.takeChunks c a ks = some (l, t)) : t = { s with ms := { s.ms with slotsTaken := t.ms.slotsTaken } } := by
  induction ks generalizing s l with
  | nil => cases h; rfl
  | cons k ks ih =>
    simp only [State.takeChunks] at h
    split at h
    · cases h
    · split at h
      · cases h
      · next e =>
        cases h
        have := ih e
        exact this

theorem State.dramSlots_eq {s t : State} {r : DramReq} {asRun : Bool} {ks : List Nat} {l : List (Nat × Nat)}
    (h : s.dramSlots r asRun ks = some (l, t)) : t = { s with ms := { s.ms with slotsTaken := t.ms.slotsTaken } } := by
  unfold State.dramSlots at h
  split at h
  · split at h
    · cases h
    · cases h; rfl
  · exact State.takeChunks_eq h

/-- Serving chunks changes which slots are taken, the requests under way and the recorded waits, nothing else. -/
theorem State.dramAssign_eq (s : State) (r : DramReq) (ks : List Nat) : ∃ k q m,
    s.dramAssign r ks = { s with ms := { s.ms with slotsTaken := k, requests := q, maxWait := m } } := by
  unfold State.dramAssign
  dsimp only
  split
  · exact ⟨s.ms.slotsTaken, s.ms.requests, s.ms.maxWait, rfl⟩
  · next h => rw [State.dramSlots_eq h]; exact ⟨_, _, _, rfl⟩

/-- A request served: with slots it is under way. -/
theorem State.dramServe_requests {s t : State} {r : DramReq} {l : List (Nat × Nat)}
    (h : s.dramSlots r (r.run && isRun r.cls r.addr r.chunks) (List.range r.chunks) = some (l, t)) :
    (s.dramServe r).ms.requests = s.ms.requests ++ [{ r with last := l.foldl (fun k x => max k x.1) 0, todo := l }] := by
  simp only [State.dramServe, State.dramAssign, List.length_range, decide_true, Bool.and_true, h]
  rw [State.dramSlots_eq h]

/-- A request served: without slots nothing changes. -/
theorem State.dramServe_none {s : State} {r : DramReq}
    (h : s.dramSlots r (r.run && isRun r.cls r.addr r.chunks) (List.range r.chunks) = none) : s.dramServe r = s := by
  simp only [State.dramServe, State.dramAssign, List.length_range, decide_true, Bool.and_true, h]

/-- A write of bytes changes memory alone. -/
theorem State.writeBytes_eq (s : State) (a : Nat) (l : List Byte) : s.writeBytes a l = { s with mem := (s.writeBytes a l).mem } := by
  induction l generalizing s a with
  | nil => rfl
  | cons b l ih => exact ih (s.writeByte a b) (a + 1)

/-! ### What slots carry (R321, R322) -/

theorem State.dramChunk_eq (s : State) (i slot k : Nat) :
    ∃ m q, s.dramChunk i slot k = { s with mem := m, ms := { s.ms with requests := q } } := by
  unfold State.dramChunk
  split
  · exact ⟨s.mem, s.ms.requests, rfl⟩
  · next r _ =>
    dsimp only
    split
    · exact ⟨_, _, by rw [State.writeBytes_eq]⟩
    · exact ⟨_, _, rfl⟩

/-- Slots change memory and the requests under way, nothing else. -/
theorem State.dramCarry_eq (s : State) (limit fuel : Nat) :
    ∃ m q, s.dramCarry limit fuel = { s with mem := m, ms := { s.ms with requests := q } } := by
  induction fuel generalizing s with
  | zero => exact ⟨s.mem, s.ms.requests, rfl⟩
  | succ fuel ih =>
    unfold State.dramCarry
    split
    · exact ⟨s.mem, s.ms.requests, rfl⟩
    · next slot i k _ =>
      split
      · exact ⟨s.mem, s.ms.requests, rfl⟩
      · obtain ⟨m, q, h⟩ := s.dramChunk_eq i slot k
        obtain ⟨m', q', h'⟩ := ih (s.dramChunk i slot k)
        exact ⟨m', q', by rw [h', h]⟩

theorem DramReq.part_first {r : DramReq} {n : Nat} (hn : (if r.write then r.data.length else 64 * r.chunks - r.addr % 64) = n)
    (hf : r.addr % 64 + n ≤ 64) : r.part 0 = (r.addr, n) := by
  simp only [DramReq.part, hn, Prod.mk.injEq]
  omega

/-- The one request under way has one chunk to come: its slot carries that chunk. -/
theorem State.dramCarry_single {s : State} {r : DramReq} (h : s.ms.requests = [r]) (ht : r.todo = [(r.last, 0)]) :
    s.dramCarry r.last s.dramLeft = s.dramChunk 0 r.last 0 := by
  have hl : s.dramLeft = 1 := by simp [State.dramLeft, h, ht]
  have hn : s.dramNext = some (r.last, 0, 0) := by simp [State.dramNext, h, ht, firstBy]
  rw [hl, State.dramCarry, hn]
  simp only [Nat.lt_irrefl, if_false, State.dramCarry]

/-- With no request under way slots carry nothing. -/
theorem State.dramCarry_nil {s : State} (h : s.ms.requests = []) (limit fuel : Nat) : s.dramCarry limit fuel = s := by
  have hn : s.dramNext = none := by simp [State.dramNext, h, firstBy]
  cases fuel with
  | zero => rfl
  | succ fuel => rw [State.dramCarry, hn]

/-- The last chunk of a read of one chunk: what it has got is what memory holds. -/
theorem State.dramChunk_read {s : State} {r : DramReq} (h : s.ms.requests = [r]) (hw : r.write = false) (hc : r.chunks = 1)
    (ht : r.todo = [(r.last, 0)]) (hg : r.got = []) :
    s.dramChunk 0 r.last 0 = { s with ms := { s.ms with
      requests := [{ r with todo := [], got := [(0, s.readBytes r.addr (64 - r.addr % 64))] }] } } := by
  have hp : r.part 0 = (r.addr, 64 - r.addr % 64) := DramReq.part_first (by simp [hw, hc]) (by omega)
  simp [State.dramChunk, h, hp, hw, ht, hg, Store.put]

/-- The last chunk of a write of one chunk: memory takes its data. -/
theorem State.dramChunk_write {s : State} {r : DramReq} (h : s.ms.requests = [r]) (hw : r.write = true)
    (ht : r.todo = [(r.last, 0)]) (hf : r.addr % 64 + r.data.length ≤ 64) :
    s.dramChunk 0 r.last 0 = { s.writeBytes r.addr r.data with ms := { s.ms with requests := [{ r with todo := [] }] } } := by
  have hp : r.part 0 = (r.addr, r.data.length) := DramReq.part_first (by simp [hw]) hf
  simp [State.dramChunk, h, hp, hw, ht]

/-- The time base, the slots and the memory that the completion of a request reads in `s`, it reads after the slots too. -/
theorem State.dramCarry_times (s : State) (limit fuel : Nat) :
    (s.dramCarry limit fuel).mtb = s.mtb ∧ (s.dramCarry limit fuel).slotCyc = s.slotCyc ∧
    (∀ n, (s.dramCarry limit fuel).dramCyc n = s.dramCyc n) ∧ (s.dramCarry limit fuel).out = s.out := by
  obtain ⟨m, q, h⟩ := s.dramCarry_eq limit fuel
  rw [h]
  exact ⟨rfl, rfl, fun _ => rfl, rfl⟩

theorem execDramReadDone_next {s : State} {c : Fin 16} {r r1 : DramReq} {rs rs1 : List DramReq}
    (h : takeReq c false s.ms.requests = some (r, rs))
    (h1 : takeReq c false (s.dramCarry r.last s.dramLeft).ms.requests = some (r1, rs1)) :
    execDramReadDone c s = .next (let s := s.dramCarry r.last s.dramLeft
      let s := s.advance (r1.last * s.slotCyc + s.dramCyc 118)
      ({ s with ms := { s.ms with requests := rs1 } }).emit
        (.dramRead c r1.addr ((List.range r1.chunks).flatMap (fun k => Store.get (fun _ => []) r1.got k)))) := by
  simp only [execDramReadDone, h, h1]

theorem execDramReadDone_none {s : State} {c : Fin 16} (h : (takeReq c false s.ms.requests).isNone = true) :
    execDramReadDone c s = .next s := by
  rw [Option.isNone_iff_eq_none] at h
  simp only [execDramReadDone, h]

theorem execDramWriteDone_next {s : State} {c : Fin 16} {r r1 : DramReq} {rs rs1 : List DramReq}
    (h : takeReq c true s.ms.requests = some (r, rs))
    (h1 : takeReq c true (s.dramCarry r.last s.dramLeft).ms.requests = some (r1, rs1)) :
    execDramWriteDone c s = .next (let s := s.dramCarry r.last s.dramLeft
      let s := s.advance (r1.last * s.slotCyc + s.dramCyc 40)
      ({ s with ms := { s.ms with requests := rs1 } }).journalAt r1.addr r1.data) := by
  simp only [execDramWriteDone, h, h1]

theorem execDramWriteDone_none {s : State} {c : Fin 16} (h : (takeReq c true s.ms.requests).isNone = true) :
    execDramWriteDone c s = .next s := by
  rw [Option.isNone_iff_eq_none] at h
  simp only [execDramWriteDone, h]

theorem takeReq_single {c : Nat} {w : Bool} {r : DramReq} (hc : r.cls = c) (hw : r.write = w) :
    takeReq c w [r] = some (r, []) := by
  simp only [takeReq, hc, hw, and_self, if_true]

/-- Mirroring a write leaves memory, the memory system and the time base. -/
theorem State.journalAt_keeps (s : State) (a : Nat) (d : List Byte) :
    (s.journalAt a d).mem = s.mem ∧ (s.journalAt a d).ms = s.ms ∧ (s.journalAt a d).mtb = s.mtb := by
  have h := State.journalAt_within (.refl _ s) (List.Subset.refl _) a d
  exact ⟨h.same .mem (by decide), h.same .ms (by decide), h.same .mtb (by decide)⟩

theorem State.readByte_congr {s t : State} (h : t.mem = s.mem) (a : Nat) : t.readByte a = s.readByte a := by
  rw [State.readByte, State.readByte, h]

theorem State.readBytes_congr {s t : State} (h : t.mem = s.mem) (a n : Nat) : t.readBytes a n = s.readBytes a n := by
  induction n generalizing a with
  | zero => rfl
  | succ n ih => rw [State.readBytes, State.readBytes, ih, State.readByte_congr h]

/-! ### The schedule switch (R324) -/

/-- What holds of a state and is kept by every one of some changes holds after them all. -/
theorem State.each_induct {α : Type} {P : State → Prop} {s : State} (l : List α) (f : State → α → State) (h : P s)
    (hf : ∀ t a, P t → P (f t a)) : P (s.each l f) := by
  unfold State.each
  induction l generalizing s with
  | nil => exact h
  | cons a l ih => exact ih (hf s a h)

theorem State.dramAnew_eq (s : State) : ∃ k q m,
    s.dramAnew = { s with ms := { s.ms with slotsTaken := k, requests := q, maxWait := m } } := by
  refine State.each_induct
    (P := fun t => ∃ k q m, t = { s with ms := { s.ms with slotsTaken := k, requests := q, maxWait := m } }) _ _ ⟨_, _, _, rfl⟩ ?_
  rintro t r ⟨k, q, m, rfl⟩
  split
  · exact ⟨_, _, _, rfl⟩
  · obtain ⟨k', q', m', h⟩ := State.dramAssign_eq { s with ms := { s.ms with slotsTaken := k, requests := q, maxWait := m } } r
      (r.todo.map (·.2))
    rw [h]
    exact ⟨k', q', m', rfl⟩

theorem State.dramAnew_nil {s : State} (h : s.ms.requests = []) : s.dramAnew.ms.requests = [] := by
  simp only [State.dramAnew, h, State.each, List.foldl_nil]

/-- The state in which the pricking's schedule has been taken at the frame that starts in slot `n`. -/
def State.schedSwitched (s : State) (n : Nat) : State :=
  let t := (s.dramCarry (n / s.slotCyc - 1) s.dramLeft).advance n
  ({ t with ms := { t.ms with sched := t.pr.dram, switchAt := none } }).dramAnew

theorem execDramScheduleSwitch_next {s : State} {k : Nat} (h : s.ms.switchAt = some k) :
    execDramScheduleSwitch s =
      .next ((s.schedSwitched ((k / (256 * s.slotCyc) + 1) * (256 * s.slotCyc))).setF R.MEM_STATE_SCHED 1) := by
  simp only [execDramScheduleSwitch, h]
  rfl

theorem State.schedSwitched_spec (s : State) (n : Nat) :
    (s.schedSwitched n).ms.sched = s.pr.dram ∧ (s.schedSwitched n).ms.switchAt = none ∧
    (s.schedSwitched n).mtb = max s.mtb n ∧
    (s.ms.requests = [] → (s.schedSwitched n).mem = s.mem ∧ (s.schedSwitched n).ms.requests = []) := by
  obtain ⟨m, q, h⟩ := s.dramCarry_eq (n / s.slotCyc - 1) s.dramLeft
  simp only [State.schedSwitched, h]
  obtain ⟨k', q', m', h'⟩ := State.dramAnew_eq { s with mem := m, mtb := max s.mtb n, ms := { s.ms with
    requests := q, sched := s.pr.dram, switchAt := none } }
  refine ⟨congrArg (·.ms.sched) h', congrArg (·.ms.switchAt) h', congrArg (·.mtb) h', fun hr => ?_⟩
  rw [State.dramCarry_nil hr] at h
  have hm : m = s.mem := (congrArg State.mem h).symm
  have hq : q = [] := (congrArg (·.ms.requests) h).symm.trans hr
  exact ⟨(congrArg State.mem h').trans hm, State.dramAnew_nil hq⟩

/-! ### Packet buffers (R327) -/

theorem firstFree_some {taken : List Nat} {n k fuel j : Nat} (h : firstFree taken n k fuel = some j) : j < n ∧ j ∉ taken := by
  induction fuel generalizing k with
  | zero => cases h
  | succ fuel ih =>
    simp only [firstFree] at h
    split at h
    · split at h
      · exact ih h
      · cases h; exact ⟨‹_›, ‹_›⟩
    · cases h

/-- The search finds a free number as long as one lies before it. -/
theorem firstFree_isSome {taken : List Nat} {n k fuel j : Nat} (hk : k ≤ j) (hj : j < n) (hf : n ≤ k + fuel) (ht : j ∉ taken) :
    (firstFree taken n k fuel).isSome = true := by
  induction fuel generalizing k with
  | zero => omega
  | succ fuel ih =>
    rw [firstFree, if_pos (by omega)]
    split
    · next hm => exact ih (Nat.lt_of_le_of_ne hk (fun e => ht (e ▸ hm))) (by omega)
    · rfl

theorem State.pickFree_some {s : State} {taken : List Nat} {n k : Nat} (h : s.pickFree taken n = some k) : k < n ∧ k ∉ taken := by
  unfold State.pickFree at h
  split at h
  · next e => cases h; exact firstFree_some e
  · exact firstFree_some h

theorem State.pickFree_isSome {s : State} {taken : List Nat} {n j : Nat} (hj : j < n) (ht : j ∉ taken) :
    (s.pickFree taken n).isSome = true := by
  unfold State.pickFree
  split
  · rfl
  · exact firstFree_isSome (Nat.zero_le j) hj (by omega) ht

/-- Fewer numbers taken than there are leave one free. -/
theorem exists_free_of_length_lt {taken : List Nat} {n : Nat} (h : taken.length < n) : ∃ j < n, j ∉ taken := by
  by_contra hc
  have hs : List.range n ⊆ taken := fun j hj => by
    by_contra ht
    exact hc ⟨j, List.mem_range.mp hj, ht⟩
  have hl := (List.subperm_of_subset List.nodup_range hs).length_le
  rw [List.length_range] at hl
  omega

theorem execMemBufTake_next {s : State} (h : s.ms.pktTaken.length < s.pktCount) : ∃ k, k < s.pktCount ∧ k ∉ s.ms.pktTaken ∧
    execMemBufTake s = .next (({ s.useFree with ms := { s.ms with pktTaken := s.ms.pktTaken ++ [k] } }).emit
      (.pktBuffer (s.pktBase + 2048 * k))) := by
  obtain ⟨j, hj, ht⟩ := exists_free_of_length_lt h
  obtain ⟨k, hk⟩ := Option.isSome_iff_exists.mp (s.pickFree_isSome hj ht)
  obtain ⟨hlt, hnot⟩ := State.pickFree_some hk
  exact ⟨k, hlt, hnot, by simp only [execMemBufTake, State.pktTake, hk]⟩

theorem execMemBufTake_full {s : State} (h : ∀ k < s.pktCount, k ∈ s.ms.pktTaken) :
    execMemBufTake s = .next (s.emit (.pktBuffer 0)) := by
  have hn : s.pickFree s.ms.pktTaken s.pktCount = none := by
    by_contra hc
    obtain ⟨k, hk⟩ := Option.ne_none_iff_exists'.mp hc
    obtain ⟨hlt, hnot⟩ := State.pickFree_some hk
    exact hnot (h k hlt)
  simp only [execMemBufTake, State.pktTake, hn]

theorem State.memBufReturn_taken {s : State} {a k : Nat} (h : s.pktOf a = some k) (hk : k ∈ s.ms.pktTaken) :
    s.memBufReturn a = ({ s with ms := { s.ms with pktTaken := without k s.ms.pktTaken } }).answer ST.OK := by
  simp only [State.memBufReturn, State.pktFree, h, hk, if_true]

theorem State.memBufReturn_refused {s : State} {a : Nat} (h : ∀ k, s.pktOf a = some k → k ∉ s.ms.pktTaken) :
    s.memBufReturn a = s.memRefuse ST.MEM_BUF_ARG := by
  unfold State.memBufReturn
  split
  · next k hk => rw [if_neg (h k hk)]
  · rfl

/-! ### The flash controller (R329, R330) -/

/-- What a write of MEM_NAND_CMD is refused with, in the order of R499. -/
def State.nandFault (s : State) (op count : Nat) : Option Nat :=
  let page := s.getF R.MEM_NAND_ADDR_PAGE
  let buf := s.getF R.MEM_NAND_BUF_ADDR
  let pages := if op = 3 then 64 else count
  if !areaOpen op page pages || (op != 1 && s.trialProtects page pages) then some ST.MEM_NAND_AREA
  else if op = 0 || 3 < op || count = 0 || 64 < count || (op = 3 && (count != 1 || page % 64 != 0)) ||
      !areaOne page pages ||
      (op != 3 && (buf % 64 != 0 || !(inDram buf || inFirmwareArea buf))) then some ST.MEM_RANGE
  else if s.gatedOrPending gateNand then some ST.CLK_GATED
  else if op = 2 && (List.range count).any (fun i => s.ms.programmed.contains (page + i)) then some ST.MEM_NAND_STATE
  else if s.ms.nand.isSome then some ST.MEM_NAND_BUSY
  else none

/-- How a write that is refused with a word ends: the gate's refusal is the unit's. -/
def State.nandRefuse (s : State) (w : Nat) : State :=
  if w = ST.CLK_GATED then s.gatedRefuse gateNand R.MEM_CMD_ERR_STATUS else s.memRefuse w

theorem State.nandCmd_eq (s : State) (op count : Nat) : s.nandCmd op count = match s.nandFault op count with
    | some w => s.nandRefuse w
    | none => (s.nandSubmit ⟨0, op, s.getF R.MEM_NAND_ADDR_PAGE, count, s.getF R.MEM_NAND_BUF_ADDR, []⟩).answer ST.OK := by
  unfold State.nandCmd State.nandFault
  dsimp only
  generalize (if op = 3 then 64 else count) = pages
  iterate 5
    split
    · rfl
  rfl

/-- A flash command is submitted only to a controller that is neither gated nor busy. -/
theorem State.nandFault_none {s : State} {op count : Nat} (h : s.nandFault op count = none) :
    s.gatedOrPending gateNand = false ∧ s.ms.nand = none := by
  unfold State.nandFault at h
  dsimp only at h
  generalize (if op = 3 then 64 else count) = pages at h
  split at h
  · cases h
  split at h
  · cases h
  split at h
  · cases h
  next hg =>
  split at h
  · cases h
  split at h
  · cases h
  next hn =>
  exact ⟨by simpa using hg, by simpa using hn⟩

/-- What starting a controller with no operation in progress leaves. -/
theorem State.nandStart_idle {s : State} (h : s.ms.nand = none) :
    s.nandStart = if s.gatedOrPending gateNand || s.ms.nandWait.isEmpty then s.setF R.MEM_NAND_STAT_BUSY 0
      else ({ s with ms := { s.ms with nand := s.ms.nandWait.head?, nandWait := s.ms.nandWait.tail } }).setF
        R.MEM_NAND_STAT_BUSY 1 := by
  unfold State.nandStart
  rw [h]
  cases hw : s.ms.nandWait with
  | nil => simp
  | cons o os => cases hg : s.gatedOrPending gateNand <;> simp

/-- Starting the controller touches MEM_NAND_STAT.BUSY and what the controller does. -/
theorem State.nandStart_eq (s : State) : ∃ n w r, s.nandStart = { s with regs := r, ms := { s.ms with nand := n, nandWait := w } } := by
  unfold State.nandStart
  split
  · split
    · exact ⟨_, _, _, rfl⟩
    · exact ⟨_, _, _, rfl⟩
  · exact ⟨_, _, _, rfl⟩
  · exact ⟨_, _, _, rfl⟩

theorem nandBusy_ok : R.MEM_NAND_STAT_BUSY.ok = true := by decide

theorem State.getF_nandStart (s : State) {f : Field} (hf : f.ok = true) (ha : R.MEM_NAND_STAT_BUSY.apart f = true) :
    s.nandStart.getF f = s.getF f := by
  have keep (t : State) (v : Nat) : (t.setF R.MEM_NAND_STAT_BUSY v).getF f = t.getF f :=
    State.getF_setF_ne t _ f v (Field.ok_fits nandBusy_ok) hf ha
  unfold State.nandStart
  split
  · split <;> exact keep _ _
  · exact keep _ _
  · rfl

/-- A command taken by an idle controller is in progress at once, or the oldest that waited is. -/
theorem State.nandSubmit_idle {s : State} (hn : s.ms.nand = none) (hg : s.gatedOrPending gateNand = false) (o : NandOp) :
    s.nandSubmit o = ({ s with ms := { s.ms with
      nand := (s.ms.nandWait ++ [o]).head?, nandWait := (s.ms.nandWait ++ [o]).tail } }).setF R.MEM_NAND_STAT_BUSY 1 := by
  have hg' : State.gatedOrPending { s with ms := { s.ms with nandWait := s.ms.nandWait ++ [o] } } gateNand = false := hg
  rw [State.nandSubmit, State.nandStart_idle (by exact hn), hg']
  simp

theorem State.isSet_setF_one (s : State) {f : Field} (hf : f.ok = true) (hw : f.width = 1) : (s.setF f 1).isSet f = true :=
  State.isSet_setB_same s true hf hw

/-- The operation that MEM_NAND_CMD asks for. -/
def State.nandAsked (s : State) (op count : Nat) : NandOp :=
  ⟨0, op, s.getF R.MEM_NAND_ADDR_PAGE, count, s.getF R.MEM_NAND_BUF_ADDR, []⟩

/-- What a flash command that nothing refuses does. -/
theorem State.nandCmd_submitted {s : State} {op count : Nat} (h : s.nandFault op count = none) :
    s.nandCmd op count = (({ s with ms := { s.ms with
      nand := (s.ms.nandWait ++ [s.nandAsked op count]).head?
      nandWait := (s.ms.nandWait ++ [s.nandAsked op count]).tail } }).setF R.MEM_NAND_STAT_BUSY 1).answer ST.OK := by
  obtain ⟨hg, hn⟩ := State.nandFault_none h
  have e := s.nandCmd_eq op count
  rw [h] at e
  exact e.trans (congrArg (·.answer ST.OK) (State.nandSubmit_idle hn hg _))

theorem State.nandCmd_submitted_spec {s : State} {op count : Nat} (h : s.nandFault op count = none) :
    (s.nandCmd op count).ms.nand = (s.ms.nandWait ++ [s.nandAsked op count]).head? ∧
    (s.nandCmd op count).ms.nandWait = (s.ms.nandWait ++ [s.nandAsked op count]).tail ∧
    (s.nandCmd op count).isSet R.MEM_NAND_STAT_BUSY = true ∧ (s.nandCmd op count).resp = ST.OK ∧
    (s.nandCmd op count).flash = s.flash ∧ (s.nandCmd op count).mem = s.mem := by
  rw [State.nandCmd_submitted h]
  refine ⟨?_, ?_, ?_, ?_, ?_, ?_⟩
  · rw [State.answer_ms, State.setF_ms]
  · rw [State.answer_ms, State.setF_ms]
  · rw [State.isSet_answer, State.isSet_setF_one _ nandBusy_ok rfl]
  · rw [State.answer_resp]
  · rw [State.answer_flash, State.setF_flash]
  · rw [State.answer_mem, State.setF_mem]

theorem State.nandCmd_refused {s : State} {op count w : Nat} (h : s.nandFault op count = some w) :
    s.nandCmd op count = s.nandRefuse w := by
  rw [State.nandCmd_eq, h]

section
variable {s : State} {p b : Nat} (h : s.getF R.MEM_NAND_ADDR_PAGE = p ∧ s.getF R.MEM_NAND_BUF_ADDR = b) (n : Nat)
include h

theorem State.nandFault_read : s.nandFault 1 n = if areaOpen 1 p n = false then some ST.MEM_NAND_AREA
    else if n = 0 ∨ 64 < n ∨ b % 64 ≠ 0 ∨ (inDram b || inFirmwareArea b) = false ∨ areaOne p n = false then some ST.MEM_RANGE
    else if s.gatedOrPending gateNand = true then some ST.CLK_GATED
    else if s.ms.nand.isSome = true then some ST.MEM_NAND_BUSY else none := by
  obtain ⟨rfl, rfl⟩ := h
  unfold State.nandFault
  dsimp only
  refine if_ctx_congr (by simp) (fun _ => rfl) fun _ => if_ctx_congr ?_ (fun _ => rfl) fun _ => ?_
  · simp; tauto
  · simp

theorem State.nandFault_program : s.nandFault 2 n =
    if areaOpen 2 p n = false ∨ s.trialProtects p n = true then some ST.MEM_NAND_AREA
    else if n = 0 ∨ 64 < n ∨ b % 64 ≠ 0 ∨ (inDram b || inFirmwareArea b) = false ∨ areaOne p n = false then some ST.MEM_RANGE
    else if s.gatedOrPending gateNand = true then some ST.CLK_GATED
    else if (List.range n).any (fun i => s.ms.programmed.contains (p + i)) = true then some ST.MEM_NAND_STATE
    else if s.ms.nand.isSome = true then some ST.MEM_NAND_BUSY else none := by
  obtain ⟨rfl, rfl⟩ := h
  unfold State.nandFault
  dsimp only
  refine if_ctx_congr (by simp) (fun _ => rfl) fun _ => if_ctx_congr ?_ (fun _ => rfl) fun _ => ?_
  · simp; tauto
  · simp

theorem State.nandFault_erase : s.nandFault 3 n =
    if areaOpen 3 p 64 = false ∨ s.trialProtects p 64 = true then some ST.MEM_NAND_AREA
    else if n ≠ 1 ∨ p % 64 ≠ 0 ∨ areaOne p 64 = false then some ST.MEM_RANGE
    else if s.gatedOrPending gateNand = true then some ST.CLK_GATED
    else if s.ms.nand.isSome = true then some ST.MEM_NAND_BUSY else none := by
  obtain ⟨rfl, rfl⟩ := h
  unfold State.nandFault
  dsimp only
  refine if_ctx_congr (by simp) (fun _ => rfl) fun _ => if_ctx_congr ?_ (fun _ => rfl) fun _ => ?_
  · have : n = 0 ∨ 64 < n → ¬ n = 1 := by omega
    simp; tauto
  · simp

end

/-! ### The end of a flash operation (R330) -/

theorem State.flashByte_flashWrite_ne (s : State) (a : Nat) (l : List Byte) {i : Nat} (hi : i < a ∨ a + l.length ≤ i) :
    (s.flashWrite a l).flashByte i = s.flashByte i := by
  induction l generalizing s a with
  | nil => rfl
  | cons b l ih =>
    simp only [List.length_cons] at hi
    rw [State.flashWrite, ih _ _ (by omega), State.flashByte_flashPut_ne s b (by omega)]

/-- The octets programmed read back. -/
theorem State.flashBytes_flashWrite (s : State) (a : Nat) (l : List Byte) : (s.flashWrite a l).flashBytes a l.length = l := by
  induction l generalizing s a with
  | nil => rfl
  | cons b l ih =>
    rw [List.length_cons, State.flashBytes, State.flashWrite, ih, State.flashByte_flashWrite_ne _ _ _ (by omega),
      State.flashByte_flashPut_same]

theorem State.flashWrite_eq (s : State) (a : Nat) (l : List Byte) :
    s.flashWrite a l = { s with flash := (s.flashWrite a l).flash } := by
  induction l generalizing s a with
  | nil => rfl
  | cons b l ih => exact ih (s.flashPut a b) (a + 1)

theorem State.flashByte_congr {s t : State} (h : t.flash = s.flash) (a : Nat) : t.flashByte a = s.flashByte a := by
  rw [State.flashByte, State.flashByte, h]

theorem State.flashBytes_congr {s t : State} (h : t.flash = s.flash) (a n : Nat) : t.flashBytes a n = s.flashBytes a n := by
  induction n generalizing a with
  | zero => rfl
  | succ n ih => rw [State.flashBytes, State.flashBytes, ih, State.flashByte_congr h]

@[simp] theorem State.length_readBytes (s : State) (a n : Nat) : (s.readBytes a n).length = n := by
  induction n generalizing a with
  | zero => rfl
  | succ n ih => rw [State.readBytes, List.length_cons, ih]

@[simp] theorem State.length_flashBytes (s : State) (a n : Nat) : (s.flashBytes a n).length = n := by
  induction n generalizing a with
  | zero => rfl
  | succ n ih => rw [State.flashBytes, List.length_cons, ih]

/-- A key that no entry of the table has reads as its default. -/
theorem Store.get_of_not_mem {α : Type} (d : Nat → α) (m : List (Nat × α)) {k : Nat} (h : ∀ x ∈ m, x.1 ≠ k) :
    Store.get d m k = d k := by
  induction m with
  | nil => rfl
  | cons x m ih =>
    rw [Store.get, if_neg (h x (List.mem_cons_self ..)).symm]
    exact ih fun y hy => h y (List.mem_cons_of_mem _ hy)

/-- An erased page reads 0xFF (R40). -/
theorem State.flashByte_erasePages (s : State) {p n a : Nat} (h : 4096 * p ≤ a ∧ a < 4096 * (p + n)) :
    (s.erasePages p n).flashByte a = 0xFF := by
  refine Store.get_of_not_mem _ _ fun x hx e => ?_
  have hk := (List.mem_filter.mp hx).2
  simp only [Bool.or_eq_true, decide_eq_true_eq] at hk
  omega

/-- An operation's effect lies in memory, the flash, the marks of programmed pages and the free values used. -/
theorem State.nandEffect_eq (s : State) (o : NandOp) (ok : Bool) : ∃ m f k p,
    s.nandEffect o ok = { s with mem := m, flash := f, freeIx := k, ms := { s.ms with programmed := p } } := by
  have same : ∃ m f k p, s = { s with mem := m, flash := f, freeIx := k, ms := { s.ms with programmed := p } } :=
    ⟨s.mem, s.flash, s.freeIx, s.ms.programmed, rfl⟩
  have prog (k pg n : Nat) (d : List Byte) : ∃ m f k' p, State.programPages { s with freeIx := k } pg n d =
      { s with mem := m, flash := f, freeIx := k', ms := { s.ms with programmed := p } } := by
    rw [State.programPages, State.flashWrite_eq]
    exact ⟨_, _, _, _, rfl⟩
  unfold State.nandEffect
  split
  · split
    · rw [State.writeBytes_eq]
      exact ⟨_, s.flash, s.freeIx, s.ms.programmed, rfl⟩
    · exact same
  · split
    · split
      · exact prog s.freeIx _ _ _
      · exact prog (s.freeIx + 1) _ _ _
    · split
      · exact ⟨_, _, _, _, rfl⟩
      · exact prog (s.freeIx + 1) _ _ _

section
variable (s : State) {o : NandOp}

theorem State.nandEffect_read (h : o.op = 1) :
    s.nandEffect o true = s.writeBytes o.buf (s.flashBytes (4096 * o.page) (4096 * o.count)) := by
  simp only [State.nandEffect, h, if_true]

theorem State.nandEffect_program (h : o.op = 2) (hw : o.who = 0) :
    s.nandEffect o true = s.programPages o.page o.count (s.readBytes o.buf (4096 * o.count)) := by
  simp [State.nandEffect, h, hw]

theorem State.nandEffect_erase (h : o.op = 3) : s.nandEffect o true = s.erasePages o.page 64 := by
  simp [State.nandEffect, h]

theorem State.nandEffect_read_failed (h : o.op = 1) : s.nandEffect o false = s := by
  simp [State.nandEffect, h]

theorem State.nandEffect_failed_mem : (s.nandEffect o false).mem = s.mem := by
  have prog (t : State) (pg n : Nat) (d : List Byte) : (t.programPages pg n d).mem = t.mem := State.flashWrite_mem t _ d
  unfold State.nandEffect
  split
  · rfl
  · split
    · exact prog _ _ _ _
    · exact prog _ _ _ _

end

theorem State.isSet_raiseIf_same (s : State) {c : Bool} (hc : c = true) {e : Field} (he : e.ok = true) (hw : e.width = 1) :
    (s.raiseIf c e).isSet e = true := by
  subst hc
  exact State.isSet_raise_same s he hw

/-- The state in which the ended operation's effect is made and its status shown, before the next one starts. -/
def State.nandEnded (s : State) (x : NandOp) (ok : Bool) : State :=
  (((({ s with ms := { s.ms with nand := none } }).nandEffect x ok).setF R.MEM_NAND_STAT_STATUS
    (if ok then ST.OK else if x.op = 1 then ST.MEM_NAND_READ else ST.MEM_NAND_FAIL)).raise R.MEM_EVENT_NAND_DONE).raiseIf (!ok)
    R.MEM_EVENT_NAND_FAIL

section
variable {s : State} {x : NandOp} {ok : Bool}

theorem execNandOperationDone_idle (h : s.ms.nand = none ∨ bitOf (s.getF R.CLK_GATE_STAT_GATED) gateNand = true) :
    execNandOperationDone ok s = .next s := by
  unfold execNandOperationDone
  split
  · rfl
  · next o e => rw [if_pos (h.resolve_left (by simp [e]))]

theorem execNandOperationDone_own (h : s.ms.nand = some x) (hg : bitOf (s.getF R.CLK_GATE_STAT_GATED) gateNand = false)
    (hw : x.who = 0) : execNandOperationDone ok s = .next (s.nandEnded x ok).nandStart := by
  simp only [execNandOperationDone, h, hg, hw, Bool.false_eq_true, if_false, if_true]
  rfl

theorem execNandOperationDone_other (h : s.ms.nand = some x) (hg : bitOf (s.getF R.CLK_GATE_STAT_GATED) gateNand = false)
    (hw : x.who ≠ 0) : execNandOperationDone ok s = .next (
      let y := (((({ s with ms := { s.ms with nand := none } }).nandEffect x ok).raiseIf (!ok) R.MEM_EVENT_NAND_FAIL)).nandStart
      if x.who = 1 then y.keyFlash ok else y) := by
  simp only [execNandOperationDone, h, hg, hw, Bool.false_eq_true, if_false]

end

section
variable (s : State) (x : NandOp) (ok : Bool)

theorem State.nandEnded_mem :
    (s.nandEnded x ok).mem = (({ s with ms := { s.ms with nand := none } }).nandEffect x ok).mem := by
  simp only [State.nandEnded, State.raiseIf_mem, State.raise_mem, State.setF_mem]

theorem State.nandEnded_flash :
    (s.nandEnded x ok).flash = (({ s with ms := { s.ms with nand := none } }).nandEffect x ok).flash := by
  simp only [State.nandEnded, State.raiseIf_flash, State.raise_flash, State.setF_flash]

theorem State.nandEnded_ms : (s.nandEnded x ok).ms.nand = none ∧ (s.nandEnded x ok).ms.nandWait = s.ms.nandWait := by
  simp only [State.nandEnded, State.raiseIf_ms, State.raise_ms, State.setF_ms]
  obtain ⟨m, f, k, p, h⟩ := State.nandEffect_eq { s with ms := { s.ms with nand := none } } x ok
  rw [h]
  exact ⟨rfl, rfl⟩

/-- A field of neither MEM_NAND_STAT.STATUS nor the two event bits is as before. -/
theorem State.getF_nandEnded {f : Field} (hf : f.ok = true) (h1 : R.MEM_NAND_STAT_STATUS.apart f = true)
    (h2 : R.MEM_EVENT_NAND_DONE.apart f = true) (h3 : R.MEM_EVENT_NAND_FAIL.apart f = true) :
    (s.nandEnded x ok).getF f = s.getF f := by
  have e : ((({ s with ms := { s.ms with nand := none } }).nandEffect x ok)).getF f = s.getF f := by
    obtain ⟨m, g, k, p, h⟩ := State.nandEffect_eq { s with ms := { s.ms with nand := none } } x ok
    rw [h]
    rfl
  rw [← e]
  have keep (t : State) (v : Nat) : ((t.setF R.MEM_NAND_STAT_STATUS v).raise R.MEM_EVENT_NAND_DONE).getF f = t.getF f := by
    rw [State.getF_raise_ne _ _ _ (by decide) hf h2, State.getF_setF_ne _ _ _ _ (by decide) hf h1]
  cases ok
  · exact (State.getF_raise_ne _ _ _ (by decide) hf h3).trans (keep _ _)
  · exact keep _ _

theorem State.gatedOrPending_nandEnded : (s.nandEnded x ok).gatedOrPending gateNand = s.gatedOrPending gateNand := by
  have h (f : Field) (hf : f.ok = true) (h1 : R.MEM_NAND_STAT_STATUS.apart f = true)
      (h2 : R.MEM_EVENT_NAND_DONE.apart f = true) (h3 : R.MEM_EVENT_NAND_FAIL.apart f = true) := s.getF_nandEnded x ok hf h1 h2 h3
  simp only [State.gatedOrPending]
  rw [h R.CLK_GATE_STAT_GATED (by decide) (by decide) (by decide) (by decide),
    h R.CLK_GATE_STAT_PEND (by decide) (by decide) (by decide) (by decide)]

theorem State.nandEnded_status : (s.nandEnded x ok).getF R.MEM_NAND_STAT_STATUS =
    if ok then ST.OK else if x.op = 1 then ST.MEM_NAND_READ else ST.MEM_NAND_FAIL := by
  have hs (t : State) (v : Nat) (hv : v < 2 ^ 16) :
      ((t.setF R.MEM_NAND_STAT_STATUS v).raise R.MEM_EVENT_NAND_DONE).getF R.MEM_NAND_STAT_STATUS = v := by
    rw [State.getF_raise_ne _ _ _ (by decide) (by decide) (by decide), State.getF_setF_same _ _ _ (by decide)]
    exact Nat.mod_eq_of_lt hv
  cases ok
  · refine (State.getF_raise_ne _ _ _ (by decide) (by decide) (by decide)).trans (hs _ _ ?_)
    simp only [Bool.false_eq_true, if_false]
    split <;> decide
  · exact hs _ ST.OK (by decide)

theorem State.nandEnded_done : (s.nandEnded x ok).isSet R.MEM_EVENT_NAND_DONE = true := by
  unfold State.nandEnded
  rw [State.isSet_raiseIf_ne _ _ _ _ (by decide) (by decide) (by decide)]
  exact State.isSet_raise_same _ (by decide) rfl

theorem State.nandEnded_fail (hok : ok = false) : (s.nandEnded x ok).isSet R.MEM_EVENT_NAND_FAIL = true := by
  have hc : (!ok) = true := by rw [hok]; rfl
  unfold State.nandEnded
  rw [State.isSet_raiseIf_same _ hc (by decide) rfl]

/-- A free controller starts the next operation waiting, unless the gate holds it. -/
theorem State.nandStart_of_free {s : State} (hn : s.ms.nand = none) :
    s.nandStart.ms.nand = (if s.gatedOrPending gateNand then none else s.ms.nandWait.head?) ∧
    s.nandStart.ms.nandWait = (if s.gatedOrPending gateNand then s.ms.nandWait else s.ms.nandWait.tail) ∧
    (s.ms.nandWait = [] → s.nandStart.isSet R.MEM_NAND_STAT_BUSY = false) := by
  rw [State.nandStart_idle hn]
  have hb (t : State) : (t.setF R.MEM_NAND_STAT_BUSY 0).isSet R.MEM_NAND_STAT_BUSY = false :=
    State.isSet_setB_same t false nandBusy_ok rfl
  cases hg : s.gatedOrPending gateNand
  · cases hl : s.ms.nandWait with
    | nil =>
      rw [Bool.false_or, List.isEmpty_nil, if_pos rfl, State.setF_ms]
      exact ⟨hn, hl, fun _ => hb s⟩
    | cons o os =>
      rw [Bool.false_or, List.isEmpty_cons, if_neg Bool.false_ne_true, State.setF_ms]
      exact ⟨rfl, rfl, fun h => by cases h⟩
  · rw [Bool.true_or, if_pos rfl, State.setF_ms]
    exact ⟨hn, rfl, fun _ => hb s⟩

theorem State.nandEnded_start :
    (s.nandEnded x ok).nandStart.ms.nand = (if s.gatedOrPending gateNand then none else s.ms.nandWait.head?) ∧
    (s.nandEnded x ok).nandStart.ms.nandWait = (if s.gatedOrPending gateNand then s.ms.nandWait else s.ms.nandWait.tail) ∧
    (s.ms.nandWait = [] → (s.nandEnded x ok).nandStart.isSet R.MEM_NAND_STAT_BUSY = false) := by
  obtain ⟨hn, hw⟩ := s.nandEnded_ms x ok
  have h := State.nandStart_of_free hn
  rwa [s.gatedOrPending_nandEnded, hw] at h

theorem State.nandStart_data (s : State) : s.nandStart.mem = s.mem ∧ s.nandStart.flash = s.flash := by
  obtain ⟨n, w, r, h⟩ := s.nandStart_eq
  rw [h]
  exact ⟨rfl, rfl⟩

theorem State.isSet_nandStart (s : State) {f : Field} (hf : f.ok = true) (ha : R.MEM_NAND_STAT_BUSY.apart f = true) :
    s.nandStart.isSet f = s.isSet f := by
  rw [State.isSet, State.isSet, State.getF_nandStart s hf ha]

end

end Sys2Proof.Machine

namespace Sys2Proof.Machine
open Sys2Proof

/-! ### What the memory system's commands do -/

section
variable {s : State} {r : DramReq}

/-- A request served touches only the memory system's own part. -/
theorem State.dramServe_keeps (s : State) (r : DramReq) :
    (s.dramServe r).mem = s.mem ∧ (s.dramServe r).regs = s.regs ∧ (s.dramServe r).mtb = s.mtb := by
  obtain ⟨k, q, m, h⟩ := s.dramAssign_eq r (List.range r.chunks)
  rw [State.dramServe, h]
  exact ⟨rfl, rfl, rfl⟩

/-- A request that finds its slots is under way. -/
theorem State.dramServe_forgotten {l : List (Nat × Nat)}
    (h : (s.forgetSlots.dramSlots r (r.run && isRun r.cls r.addr r.chunks) (List.range r.chunks)).map (fun x => x.1) = some l) :
    (s.forgetSlots.dramServe r).ms.requests =
      s.ms.requests ++ [{ r with last := l.foldl (fun k x => max k x.1) 0, todo := l }] ∧
    (s.forgetSlots.dramServe r).mem = s.mem ∧ (s.forgetSlots.dramServe r).regs = s.regs ∧
    (s.forgetSlots.dramServe r).mtb = s.mtb := by
  obtain ⟨⟨l', t⟩, hs, rfl⟩ := Option.map_eq_some_iff.mp h
  exact ⟨State.dramServe_requests hs, State.dramServe_keeps _ _⟩

/-- The end of a request takes it off those under way, at its time. -/
theorem dramReadDone_ends {c : Fin 16} {r1 : DramReq} {rs rs1 : List DramReq}
    (h : takeReq c false s.ms.requests = some (r, rs))
    (h1 : takeReq c false (s.dramCarry r.last s.dramLeft).ms.requests = some (r1, rs1)) :
    Completes (.dramReadDone c) s fun t => t.ms.requests = rs1 ∧
      t.mtb = max s.mtb (r1.last * s.slotCyc + s.dramCyc 118) ∧
      t.out = .dramRead c r1.addr ((List.range r1.chunks).flatMap (fun k => Store.get (fun _ => []) r1.got k)) :: s.out ∧
      t.mem = (s.dramCarry r.last s.dramLeft).mem := by
  refine ⟨_, execDramReadDone_next h h1, ?_⟩
  obtain ⟨hm, hc, hd, ho⟩ := s.dramCarry_times r.last s.dramLeft
  generalize s.dramCarry r.last s.dramLeft = u at hm hc hd ho ⊢
  rw [← hm, ← hc, ← hd, ← ho]
  exact ⟨rfl, rfl, rfl, rfl⟩

theorem dramWriteDone_ends {c : Fin 16} {r1 : DramReq} {rs rs1 : List DramReq}
    (h : takeReq c true s.ms.requests = some (r, rs))
    (h1 : takeReq c true (s.dramCarry r.last s.dramLeft).ms.requests = some (r1, rs1)) :
    Completes (.dramWriteDone c) s fun t => t.ms.requests = rs1 ∧
      t.mtb = max s.mtb (r1.last * s.slotCyc + s.dramCyc 40) ∧ t.mem = (s.dramCarry r.last s.dramLeft).mem := by
  refine ⟨_, execDramWriteDone_next h h1, ?_⟩
  obtain ⟨hm, hc, hd, -⟩ := s.dramCarry_times r.last s.dramLeft
  generalize s.dramCarry r.last s.dramLeft = u at hm hc hd ⊢
  rw [← hm, ← hc, ← hd]
  obtain ⟨hj, hq, ht⟩ := State.journalAt_keeps ({ u.advance (r1.last * u.slotCyc + u.dramCyc 40) with
    ms := { u.ms with requests := rs1 } }) r1.addr r1.data
  exact ⟨congrArg (·.requests) hq, ht, hj⟩

/-- The end of the one read under way, of one chunk, reads memory. -/
theorem dramReadDone_single {c : Fin 16} (h : s.ms.requests = [r])
    (hr : r.cls = c.val ∧ r.write = false ∧ r.chunks = 1 ∧ r.todo = [(r.last, 0)]) (hg : r.got = []) :
    Completes (.dramReadDone c) s fun t => t.out = .dramRead c r.addr (s.readBytes r.addr (64 - r.addr % 64)) :: s.out ∧
      t.mem = s.mem ∧ t.ms.requests = [] := by
  obtain ⟨hc, hw, hn, ht⟩ := hr
  have e := (State.dramCarry_single h ht).trans (State.dramChunk_read h hw hn ht hg)
  have h1 : takeReq c false (s.dramCarry r.last s.dramLeft).ms.requests =
      some ({ r with todo := [], got := [(0, s.readBytes r.addr (64 - r.addr % 64))] }, []) := by
    rw [e]
    exact takeReq_single hc hw
  obtain ⟨t, hx, hq, -, ho, hm⟩ := dramReadDone_ends (h ▸ takeReq_single hc hw) h1
  refine ⟨t, hx, ho.trans (congrArg (fun d => Msg.dramRead c r.addr d :: s.out) ?_), hm.trans (by rw [e]), hq⟩
  rw [hn]
  exact List.append_nil _

/-- The end of the one write under way, of one chunk, writes its octets and no other. -/
theorem dramWriteDone_single {c : Fin 16} (h : s.ms.requests = [r])
    (hr : r.cls = c.val ∧ r.write = true ∧ r.chunks = 1 ∧ r.todo = [(r.last, 0)])
    (hf : r.addr % 64 + r.data.length ≤ 64) :
    Completes (.dramWriteDone c) s fun t => t.readBytes r.addr r.data.length = r.data ∧
      (∀ a, a < r.addr ∨ r.addr + r.data.length ≤ a → t.readByte a = s.readByte a) ∧ t.ms.requests = [] := by
  obtain ⟨hc, hw, -, ht⟩ := hr
  have e := (State.dramCarry_single h ht).trans (State.dramChunk_write h hw ht hf)
  have h1 : takeReq c true (s.dramCarry r.last s.dramLeft).ms.requests = some ({ r with todo := [] }, []) := by
    rw [e]
    exact takeReq_single hc hw
  obtain ⟨t, hx, hq, -, hm⟩ := dramWriteDone_ends (h ▸ takeReq_single hc hw) h1
  have hm : t.mem = (s.writeBytes r.addr r.data).mem := hm.trans (by rw [e])
  exact ⟨t, hx, (State.readBytes_congr hm _ _).trans (s.readBytes_writeBytes r.addr r.data),
    fun a ha => (State.readByte_congr hm _).trans (s.readByte_writeBytes_ne r.addr r.data ha), hq⟩

theorem dramRefreshSlot_refreshes (s : State) (b : Fin 8) (due : Bool) : Completes (.dramRefreshSlot b due) s fun t =>
    (due = true → Store.get (fun _ => 0) t.ms.refreshed b = s.mtb ∧ t.out = .refresh b :: s.out) ∧
    (due = false → t = s) ∧ t.mem = s.mem ∧ t.regs = s.regs := by
  cases due
  · exact ⟨s, rfl, fun h => (nomatch h), fun _ => rfl, rfl, rfl⟩
  · exact ⟨_, rfl, fun _ => ⟨Store.get_set_same _ _ _ _, rfl⟩, fun h => (nomatch h), rfl, rfl⟩

theorem dramScheduleSwitch_switches {k : Nat} (h : s.ms.switchAt = some k) : Completes .dramScheduleSwitch s fun t =>
    t.ms.sched = s.pr.dram ∧ t.ms.switchAt = none ∧ t.isSet R.MEM_STATE_SCHED = true ∧
    t.mtb = max s.mtb ((k / (256 * s.slotCyc) + 1) * (256 * s.slotCyc)) ∧
    (s.ms.requests = [] → t.mem = s.mem ∧ t.ms.requests = []) := by
  refine ⟨_, execDramScheduleSwitch_next h, ?_⟩
  obtain ⟨hs, ha, ht, hr⟩ := s.schedSwitched_spec ((k / (256 * s.slotCyc) + 1) * (256 * s.slotCyc))
  exact ⟨hs, ha, State.isSet_setF_one _ (by decide) rfl, ht, hr⟩

theorem memBufTake_takes (h : s.ms.pktTaken.length < s.pktCount) : Completes .memBufTake s fun t =>
    (∃ k, k < s.pktCount ∧ k ∉ s.ms.pktTaken ∧ t.ms.pktTaken = s.ms.pktTaken ++ [k] ∧
      t.out = .pktBuffer (s.pktBase + 2048 * k) :: s.out) ∧ t.regs = s.regs ∧ t.mem = s.mem := by
  obtain ⟨k, hk, hn, e⟩ := execMemBufTake_next h
  exact ⟨_, e, ⟨k, hk, hn, rfl, rfl⟩, rfl, rfl⟩

theorem memBufTake_full (h : (List.range s.pktCount).all (fun k => s.ms.pktTaken.contains k) = true) :
    Completes .memBufTake s fun t => t = s.emit (.pktBuffer 0) :=
  ⟨_, execMemBufTake_full fun k hk => by
    simpa using List.all_eq_true.mp h k (List.mem_range.mpr hk), rfl⟩

theorem memBufReturn_returns {a : Word} {k : Nat} (h : s.pktOf a.toNat = some k) (hk : k ∈ s.ms.pktTaken) :
    Completes (.memBufReturn a) s fun t => t.ms.pktTaken = without k s.ms.pktTaken ∧ t.resp = ST.OK ∧ t.regs = s.regs := by
  refine ⟨_, congrArg Host.Outcome.next (State.memBufReturn_taken h hk), ?_⟩
  exact ⟨rfl, State.answer_resp _ _, rfl⟩

theorem memBufReturn_refuses {a : Word} (h : (s.pktOf a.toNat).all (fun k => !s.ms.pktTaken.contains k) = true) :
    Completes (.memBufReturn a) s fun t => t = s.memRefuse ST.MEM_BUF_ARG :=
  ⟨_, congrArg Host.Outcome.next (State.memBufReturn_refused fun k hk => by
    rw [hk] at h
    simpa using h), rfl⟩

/-- MEM_COUNT_CLEAR clears the error counts, the dropped frames and the recorded waits. -/
theorem memCountClear_clears (s : State) : Completes .memCountClear s fun t =>
    t.getReg R.MEM_ECC_STAT = 0 ∧ t.getF R.MEM_POOL_DROPS = 0 ∧ t.ms.maxWait = [] ∧ t.mem = s.mem ∧ t.flash = s.flash ∧
    t.resp = ST.OK := by
  refine ⟨_, rfl, ?_, ?_, rfl, rfl, rfl, rfl⟩
  · exact (State.getReg_setF_ne _ R.MEM_POOL_DROPS 0 (by decide)).trans (State.getReg_setReg_same _ _ 0)
  · exact State.getF_setF_same _ R.MEM_POOL_DROPS 0 (by decide)

/-- A read leaves the pages' octets in memory, a program memory's octets in the pages. -/
theorem State.nandEffect_read_data (s : State) {o : NandOp} (h : o.op = 1) :
    (s.nandEffect o true).readBytes o.buf (4096 * o.count) = s.flashBytes (4096 * o.page) (4096 * o.count) ∧
    (s.nandEffect o true).flash = s.flash := by
  rw [State.nandEffect_read s h]
  have hl := s.readBytes_writeBytes o.buf (s.flashBytes (4096 * o.page) (4096 * o.count))
  rw [State.length_flashBytes] at hl
  exact ⟨hl, State.writeBytes_flash ..⟩

theorem State.nandEffect_program_data (s : State) {o : NandOp} (h : o.op = 2) (hw : o.who = 0) :
    (s.nandEffect o true).flashBytes (4096 * o.page) (4096 * o.count) = s.readBytes o.buf (4096 * o.count) ∧
    (s.nandEffect o true).mem = s.mem := by
  rw [State.nandEffect_program s h hw]
  have hl := s.flashBytes_flashWrite (4096 * o.page) (s.readBytes o.buf (4096 * o.count))
  rw [State.length_readBytes] at hl
  exact ⟨(State.flashBytes_congr (by rfl) _ _).trans hl, State.flashWrite_mem s _ _⟩

theorem execDramScheduleSwitch_none (h : s.ms.switchAt = none) : execDramScheduleSwitch s = .next s := by
  simp only [execDramScheduleSwitch, h]

/-- A flash command that nothing refuses is submitted. -/
theorem nandCmd_completes {i : Instr} {op n p b : Nat} (hi : exec i s = .next (s.nandCmd op n))
    (h : s.getF R.MEM_NAND_ADDR_PAGE = p ∧ s.getF R.MEM_NAND_BUF_ADDR = b) (hf : s.nandFault op n = none) :
    Completes i s fun t => t.ms.nand = (s.ms.nandWait ++ [(⟨0, op, p, n, b, []⟩ : NandOp)]).head? ∧
      t.ms.nandWait = (s.ms.nandWait ++ [(⟨0, op, p, n, b, []⟩ : NandOp)]).tail ∧
      t.isSet R.MEM_NAND_STAT_BUSY = true ∧ t.resp = ST.OK ∧ t.flash = s.flash ∧ t.mem = s.mem := by
  obtain ⟨rfl, rfl⟩ := h
  exact ⟨_, hi, State.nandCmd_submitted_spec hf⟩

/-- A register command's operation that succeeds: its data, its status and what the controller does next. -/
theorem nandOperationDone_ok {x : NandOp} (h : s.ms.nand = some x) (hg : bitOf (s.getF R.CLK_GATE_STAT_GATED) gateNand = false)
    (hw : x.who = 0) : Completes (.nandOperationDone true) s fun t =>
      (x.op = 1 → t.readBytes x.buf (4096 * x.count) = s.flashBytes (4096 * x.page) (4096 * x.count) ∧ t.flash = s.flash) ∧
      (x.op = 2 → t.flashBytes (4096 * x.page) (4096 * x.count) = s.readBytes x.buf (4096 * x.count) ∧ t.mem = s.mem) ∧
      (x.op = 3 → ∀ i, i < 4096 * 64 → t.flashByte (4096 * x.page + i) = 0xFF) ∧
      t.getF R.MEM_NAND_STAT_STATUS = ST.OK ∧ t.isSet R.MEM_EVENT_NAND_DONE = true ∧
      (t.ms.nand = (if s.gatedOrPending gateNand then none else s.ms.nandWait.head?) ∧
        t.ms.nandWait = (if s.gatedOrPending gateNand then s.ms.nandWait else s.ms.nandWait.tail)) ∧
      (s.ms.nandWait = [] → t.isSet R.MEM_NAND_STAT_BUSY = false) := by
  refine ⟨_, execNandOperationDone_own h hg hw, ?_⟩
  obtain ⟨hstart, hwait, hbusy⟩ := s.nandEnded_start x true
  obtain ⟨hm, hf⟩ := (s.nandEnded x true).nandStart_data
  rw [State.nandEnded_mem] at hm
  rw [State.nandEnded_flash] at hf
  refine ⟨fun ho => ?_, fun ho => ?_, fun ho i hi => ?_, ?_, ?_, ⟨hstart, hwait⟩, hbusy⟩
  · obtain ⟨hd, hk⟩ := State.nandEffect_read_data { s with ms := { s.ms with nand := none } } ho
    exact ⟨(State.readBytes_congr hm _ _).trans (hd.trans (State.flashBytes_congr (by rfl) _ _)), hf.trans hk⟩
  · obtain ⟨hd, hk⟩ := State.nandEffect_program_data { s with ms := { s.ms with nand := none } } ho hw
    exact ⟨(State.flashBytes_congr hf _ _).trans (hd.trans (State.readBytes_congr (by rfl) _ _)), hm.trans hk⟩
  · rw [State.nandEffect_erase _ ho] at hf
    rw [State.flashByte_congr hf]
    exact State.flashByte_erasePages _ (by omega)
  · rw [State.getF_nandStart _ (by decide) (by decide), State.nandEnded_status]
    rfl
  · rw [State.isSet_nandStart _ (by decide) (by decide), State.nandEnded_done]

/-- A register command's operation that fails: memory is left, the status says how, NAND_FAIL is raised. -/
theorem nandOperationDone_failed {x : NandOp} (h : s.ms.nand = some x)
    (hg : bitOf (s.getF R.CLK_GATE_STAT_GATED) gateNand = false) (hw : x.who = 0) :
    Completes (.nandOperationDone false) s fun t =>
      (x.op = 1 → t.flash = s.flash ∧ t.getF R.MEM_NAND_STAT_STATUS = ST.MEM_NAND_READ) ∧
      (x.op ≠ 1 → t.getF R.MEM_NAND_STAT_STATUS = ST.MEM_NAND_FAIL) ∧
      t.mem = s.mem ∧
      t.isSet R.MEM_EVENT_NAND_DONE = true ∧ t.isSet R.MEM_EVENT_NAND_FAIL = true ∧
      (t.ms.nand = (if s.gatedOrPending gateNand then none else s.ms.nandWait.head?) ∧
        t.ms.nandWait = (if s.gatedOrPending gateNand then s.ms.nandWait else s.ms.nandWait.tail)) := by
  refine ⟨_, execNandOperationDone_own h hg hw, ?_⟩
  obtain ⟨hstart, hwait, -⟩ := s.nandEnded_start x false
  obtain ⟨hm, hf⟩ := (s.nandEnded x false).nandStart_data
  rw [State.nandEnded_mem] at hm
  rw [State.nandEnded_flash] at hf
  have hs : (s.nandEnded x false).nandStart.getF R.MEM_NAND_STAT_STATUS =
      if x.op = 1 then ST.MEM_NAND_READ else ST.MEM_NAND_FAIL := by
    rw [State.getF_nandStart _ (by decide) (by decide), State.nandEnded_status, if_neg Bool.false_ne_true]
  refine ⟨fun ho => ⟨hf.trans ?_, hs.trans (if_pos ho)⟩, fun ho => hs.trans (if_neg ho), ?_, ?_, ?_, hstart, hwait⟩
  · rw [State.nandEffect_read_failed _ ho]
  · exact hm.trans (State.nandEffect_failed_mem ..)
  · rw [State.isSet_nandStart _ (by decide) (by decide), State.nandEnded_done]
  · rw [State.isSet_nandStart _ (by decide) (by decide), State.nandEnded_fail _ _ _ rfl]

end

end Sys2Proof.Machine

section
open Sys2Proof Sys2Proof.Machine

/-- Settles O27, command by command: what may be presented, what the slots carry, how the schedule switches, which buffer is
free, in which order a flash command is refused and what its operation leaves. -/
theorem memorySystem : Obligations.MemorySystem := by
  unfold Obligations.MemorySystem
  intro s _
  refine ⟨?_, ?_, ?_, ?_, ?_, ?_, ?_, ?_, ?_, ?_, ?_, ?_, ?_, ?_, ?_, ?_, ?_, ?_, ?_, ?_, ?_, ?_, ?_, ?_, ?_, ?_, ?_, ?_, ?_⟩
  · intro c w run a n d y l hf hp hh hs
    exact ⟨_, execDramRequest_served hf hp hh, State.dramServe_forgotten hs⟩
  · intro c w run a n d y hf hp hh hs
    exact ⟨_, execDramRequest_served hf hp hh, State.dramServe_none (Option.isNone_iff_eq_none.mp hs)⟩
  · intro c w run a n d y hf hp hh
    exact ⟨_, execDramRequest_held hf hp hh, rfl⟩
  · intro c w run a n d y hf hp
    exact ⟨_, execDramRequest_rejected hf hp, rfl⟩
  · intro c w run a n d y b x hf
    exact ⟨_, execDramRequest_fault hf, rfl⟩
  · exact fun c r r1 rs rs1 h h1 => dramReadDone_ends h h1
  · exact fun c r h hr hg => dramReadDone_single h hr hg
  · exact fun c h => ⟨s, execDramReadDone_none h, rfl⟩
  · exact fun c r r1 rs rs1 h h1 => dramWriteDone_ends h h1
  · exact fun c r h hr hf => dramWriteDone_single h hr hf.1
  · exact fun c h => ⟨s, execDramWriteDone_none h, rfl⟩
  · exact dramRefreshSlot_refreshes s
  · exact fun k h => dramScheduleSwitch_switches h
  · intro h
    exact ⟨s, execDramScheduleSwitch_none h, rfl⟩
  · exact memBufTake_takes
  · exact memBufTake_full
  · exact fun a k h hk => memBufReturn_returns h hk
  · exact fun a h => memBufReturn_refuses h
  · intro n p b h hf
    exact nandCmd_completes rfl h ((State.nandFault_read h n).trans hf)
  · intro n p b w h hf
    exact ⟨_, congrArg Host.Outcome.next (State.nandCmd_refused ((State.nandFault_read h n).trans hf)), rfl⟩
  · intro n p b h hf
    exact nandCmd_completes rfl h ((State.nandFault_program h n).trans hf)
  · intro n p b w h hf
    exact ⟨_, congrArg Host.Outcome.next (State.nandCmd_refused ((State.nandFault_program h n).trans hf)), rfl⟩
  · intro n p b h hf
    exact nandCmd_completes rfl h ((State.nandFault_erase h n).trans hf)
  · intro n p b w h hf
    exact ⟨_, congrArg Host.Outcome.next (State.nandCmd_refused ((State.nandFault_erase h n).trans hf)), rfl⟩
  · rintro ok x h hg ⟨hw, rfl⟩
    exact nandOperationDone_ok h hg hw
  · rintro ok x h hg ⟨hw, rfl⟩
    exact nandOperationDone_failed h hg hw
  · intro ok x h hg hw
    exact ⟨_, execNandOperationDone_other h hg hw, rfl⟩
  · exact fun ok h => ⟨s, execNandOperationDone_idle h, rfl⟩
  · exact memCountClear_clears s

end

namespace Sys2Proof.Machine
open Sys2Proof

/-! ### Access masks -/

theorem regAccessMask_mod (t : Access) (a : Nat) : regAccessMask t (a % bankStride) = regAccessMask t a := by
  unfold regAccessMask regDesc?
  rw [Nat.mod_mod]

/-- The addresses that a described register has. -/
def RegDesc.addrs (d : RegDesc) : List Nat := d.base :: (List.range d.count).map (fun k => d.base + k * d.stride)

theorem RegDesc.mem_addrs {d : RegDesc} {a : Nat} (h : d.covers a = true) : a ∈ d.addrs := by
  simp only [RegDesc.covers, Bool.and_eq_true, Bool.or_eq_true, decide_eq_true_eq, beq_iff_eq, bne_iff_ne] at h
  obtain ⟨hb, rfl | ⟨⟨_, hm⟩, hk⟩⟩ := h
  · exact List.mem_cons_self
  · refine List.mem_cons_of_mem _ (List.mem_map.mpr ⟨_, List.mem_range.mpr hk, ?_⟩)
    have := Nat.div_add_mod (a - d.base) d.stride
    rw [Nat.mul_comm]
    omega

/-- The described registers whose addresses are all in a list. -/
def RegDesc.within (l : List Nat) (d : RegDesc) : Bool := d.addrs.all l.contains

theorem regDesc?_covers {a : Nat} {d : RegDesc} (h : regDesc? a = some d) :
    d.covers (a % bankStride) = true ∧ ∃ p ∈ regTable, d ∈ p.2 := by
  refine ⟨?_, regDesc?_mem h⟩
  simp only [regDesc?] at h
  split at h
  · cases h
  · exact List.find?_some (p := fun d : RegDesc => d.covers (a % bankStride)) h

/-- The registers with bits that a write of 1 clears: the event registers, and each queue's own. -/
def clearedRegs : List Nat := R.QUEUE_EVENT :: eventPairs.map Prod.fst

theorem regTable_cleared : regTable.all (fun p => p.2.all fun d =>
    fieldSum (fun f => if f.acc = .w1c then f.mask else 0) d.fields == 0 || d.within clearedRegs) = true := by decide

theorem mem_clearedRegs {a : Nat} (h : regAccessMask .w1c a ≠ 0) (ha : a < bankStride) : a ∈ clearedRegs := by
  unfold regAccessMask at h
  split at h
  · exact absurd rfl h
  · next d hd =>
    obtain ⟨hc, p, hp, hdp⟩ := regDesc?_covers hd
    have hx := List.all_eq_true.mp (List.all_eq_true.mp regTable_cleared p hp) d hdp
    rw [Nat.mod_eq_of_lt ha] at hc
    rw [Bool.or_eq_true, beq_iff_eq] at hx
    rcases hx with hz | hx
    · rw [hz] at h; exact absurd rfl h
    · exact List.contains_iff_mem.mp (List.all_eq_true.mp hx a (RegDesc.mem_addrs hc))

/-! ### The checks and actions that a register has -/

/-- The first copies that a check of changed fields names (R9), but for the ranges of two tables below. -/
def checkedRegs : List Nat :=
  [R.CLK_HOOP_DIV, R.START_OPT, R.UPL_CFG 0, R.TIME_EPOCH_LO, R.TIME_EPOCH_HI, R.TIME_DOM_CFG 0, R.TIME_DOM_ASYM 0, R.TRX_PWR 0,
   R.TRX_FEM_CTRL 0, R.TRX_WAKE 0, R.LANE_CFG 0, R.MAC_TSCH_CFG, R.MAC_CSMA_CFG, R.MAC_PAN_SEL, R.MAC_SF_SEL, R.MAC_SF_BASE,
   R.MAC_HOP_SEL, R.MAC_HOP_DATA, R.MAC_DUTY_SEL, R.SLEEP_LINK_A, R.PILLOW_HW_ORD, R.PILLOW_QT_ORD, R.PILLOW_ORD_SEL,
   R.PILLOW_QT_SEL, R.PILLOW_CUST_WIN, R.PILLOW_CUST_SIZE, R.GROUND_PAN_MAP, R.GROUND_ALT_BASE, R.PAIR_CFG, R.PAIR_CTRL,
   R.SVC_COEX_CFG]

/-- No check names a field of the register whose first copy is at `first`. -/
def unchecked (first : Nat) : Bool :=
  checkedRegs.all (· != first) && !(R.MAC_PAN_ADDR ≤ first && first ≤ R.MAC_PAN_EB_CFG) &&
  !(R.PILLOW_HOOP 0 ≤ first && first ≤ R.PILLOW_HOOP 3) &&
  (ranges1 ++ ranges2 ++ ranges3).all (fun r => r.1.addr != first) && signedRanges.all (fun r => r.1.addr != first)

theorem outOfRange_false {first : Nat} {old new : Word} (h : (ranges1 ++ ranges2 ++ ranges3).all (fun r => r.1.addr != first) = true)
    (hs : signedRanges.all (fun r => r.1.addr != first) = true) : outOfRange first old new = false := by
  rw [outOfRange, Bool.or_eq_false_iff]
  simp only [List.all_eq_true, bne_iff_ne] at h hs
  constructor
  · exact List.any_eq_false.mpr fun r hr => by simp [h r hr]
  · exact List.any_eq_false.mpr fun r hr => by simp [hs r hr]

theorem State.fieldChecks_nil {s : State} {a first c : Nat} {old new : Word} (h : checkedRegs.all (· != first) = true)
    (hp : (decide (R.MAC_PAN_ADDR ≤ first) && decide (first ≤ R.MAC_PAN_EB_CFG)) = false)
    (hh : (decide (R.PILLOW_HOOP 0 ≤ first) && decide (first ≤ R.PILLOW_HOOP 3)) = false) :
    s.fieldChecks a first c old new = [] := by
  simp only [checkedRegs, List.all_cons, List.all_nil, Bool.and_eq_true, bne_iff_ne, ne_eq, @eq_comm _ _ first] at h
  unfold State.fieldChecks
  simp only [h, hp, hh, decide_false, Bool.or_self, Bool.false_eq_true, if_false]

theorem State.fieldFault_unchecked {s : State} {a : Nat} {old new : Word} (h : unchecked (firstCopy a).1 = true) :
    s.fieldFault a old new = none := by
  simp only [unchecked, Bool.and_eq_true, Bool.not_eq_true'] at h
  obtain ⟨⟨⟨⟨hc, hp⟩, hh⟩, hr⟩, hs⟩ := h
  unfold State.fieldFault
  simp only [State.fieldChecks_nil hc hp hh, outOfRange_false hr hs, List.nil_append, firstFail, Bool.false_eq_true, if_false,
    ite_self]

/-- The first copies of the registers whose writes start actions. -/
def actionRegs : List Nat :=
  [R.CLK_SRC_CTRL, R.CLK_GATE, R.CLK_MON_CFG, R.START_WDOG, R.SVC_GPIO, R.CLK_RESTART, R.START_CTRL, R.SYS_RESET, R.UPL_CTRL 0,
   R.TIE_CFG, R.TIME_CTRL, R.TRX_CMD 0, R.TRX_FEM_CTRL 0, R.TRX_FEM 0, R.LANE_CFG 0, R.LANE_CHAN 0, R.MAC_CTRL, R.MAC_SF_CFG,
   R.SLEEP_CTRL, R.SLEEP_EVENT_EN, R.SLEEP_LINK_B, R.PILLOW_CTRL, R.PILLOW_HW_TASK, R.PILLOW_QT_TASK, R.QUEUE_SEL, R.QUEUE_WM,
   R.QUEUE_CMD, R.MEM_BUF, R.MEM_NAND_CMD, R.MEM_EVENT_EN, R.GROUND_CMD, R.GROUND_ALT_SEED, R.KEY_CMD, R.TAMPER_CFG,
   R.TAMPER_LOG_SEL, R.ROLE_CFG, R.PAIR_CTRL, R.UPDATE_CTRL]

theorem State.actionOf_none {s : State} {wr : Writer} {a first c : Nat} {w : Word} (h : actionRegs.all (· != first) = true) :
    s.actionOf wr a first c w = none := by
  simp only [actionRegs, List.all_cons, List.all_nil, Bool.and_eq_true, bne_iff_ne, ne_eq, @eq_comm _ _ first] at h
  unfold State.actionOf State.actionRest
  simp only [h, if_false]

/-! ### A write that VIS grants -/

/-- The checks before those of the fields let a write of bobbin `b` at `a` pass (R9, R11, R30, R45). -/
structure State.Admits (s : State) (b a : Nat) : Prop where
  addr : s.addrFault a = none
  sampler : ¬ a / 0x10000 = 0x201F
  granted : ¬ s.granted (.bobbin b) a < 2
  trx : (decide (0x2008 ≤ a / 0x10000) && decide (a / 0x10000 ≤ 0x200B) && (s.trxRec (a / 0x10000 - 0x2008)).isNone) = false
  lane : (decide (a / 0x10000 = 0x200C) && (s.laneRec (firstCopy a).2).isNone) = false
  customer : (s.byCustomer (.bobbin b) && ((decide (R.PILLOW_HOOP 0 ≤ a) && decide (a ≤ R.PILLOW_HOOP 3)) ||
    (decide (R.PILLOW_CUST_WIN ≤ a) && decide (a ≤ R.PILLOW_CUST_KINDS)))) = false
  queue : (decide (R.QUEUE_CFG ≤ a) && decide (a ≤ R.QUEUE_EVENT) && (s.queueRec (s.getF R.QUEUE_SEL_QUEUE)).isNone) = false

section
variable {s : State} {b a : Nat}

theorem State.opens_iff : s.opens b a = true ↔
    (s.rootRuns = true ∧ (s.hoopOf b).isSome = true ∧ s.executes b = true) ∧ s.Admits b a := by
  simp only [State.opens, Bool.and_eq_true, Bool.not_eq_true', Option.isNone_iff_eq_none, bne_iff_ne, ne_eq, decide_eq_true_eq]
  constructor
  · rintro ⟨⟨⟨⟨⟨⟨⟨⟨⟨hr, hh⟩, hx⟩, ha⟩, hs⟩, hg⟩, ht⟩, hl⟩, hq⟩, hc⟩
    exact ⟨⟨hr, hh, hx⟩, ha, hs, Nat.not_lt.mpr hg, ht, hl, hc, hq⟩
  · rintro ⟨⟨hr, hh, hx⟩, ha, hs, hg, ht, hl, hc, hq⟩
    exact ⟨⟨⟨⟨⟨⟨⟨⟨⟨hr, hh⟩, hx⟩, ha⟩, hs⟩, Nat.not_lt.mp hg⟩, ht⟩, hl⟩, hq⟩, hc⟩

theorem State.Admits.lt (h : s.Admits b a) : a < bankStride := by
  have ha := h.addr
  unfold State.addrFault at ha
  split at ha
  · cases ha
  · rw [if_neg h.sampler] at ha
    split at ha
    · next hd => exact of_decide_eq_true (Bool.and_eq_true_iff.mp hd).2
    · cases ha

theorem State.Admits.advance (h : s.Admits b a) (u : Nat) : (s.advance u).Admits b a := ⟨h.1, h.2, h.3, h.4, h.5, h.6, h.7⟩

/-- What a write that no check refuses does (R498). -/
def State.takenWrite (s : State) (b a : Nat) (w : Word) : State :=
  let hoop : Bool := R.PILLOW_HOOP 0 ≤ a && a ≤ R.PILLOW_HOOP 3
  match s.actionOf (.bobbin b) a (firstCopy a).1 (firstCopy a).2 w with
  | some u => u
  | none =>
    match eventOf? a with
    | some e => (s.writeEnable e a w).answer ST.OK
    | none =>
      if regAccessMask .w1c a ≠ 0 then (s.clearBits (s.bankOf a) w).answer ST.OK
      else if hoop && s.isCustomer ((a - R.PILLOW_HOOP 0) / 4) then
        s.putRw a ((R.PILLOW_HOOP_KILL ((a - R.PILLOW_HOOP 0) / 4)).put w 1)
      else s.putRw a w

/-- A write that the checks before the fields' let pass. -/
def State.checkedWrite (s : State) (b a : Nat) (w : Word) : State :=
  match s.fieldFault a (s.regWord a) (s.newWord a w) with
  | some st => s.refuseAt a st
  | none => s.takenWrite b a w

theorem State.Admits.writeBody (h : s.Admits b a) (w : Word) : s.writeBody (.bobbin b) a w = s.checkedWrite b a w := by
  obtain ⟨ha, hs, hg, ht, hl, hc, hq⟩ := h
  unfold State.writeBody
  dsimp only
  rw [ha]
  dsimp only
  rw [if_neg hs, if_neg hg, ht, hl, hc, hq]
  rfl

end
end Sys2Proof.Machine

namespace Sys2Proof.Machine
open Sys2Proof

/-! ### What a refusal leaves -/

/-- The field lies outside the bits of a mask. -/
def Field.clear (f : Field) (m : Word) : Bool :=
  decide (f.lo + f.width ≤ 32) && (List.range 32).all fun i => !m.getLsbD i || i < f.lo || f.lo + f.width ≤ i

/-- A bit outside the field put stays. -/
theorem Field.getLsbD_put_ne (f : Field) (w : Word) (v : Nat) {i : Nat} (h : f.lo + f.width ≤ 32)
    (hi : i < f.lo ∨ f.lo + f.width ≤ i) : (f.put w v).getLsbD i = w.getLsbD i := by
  have e : (⟨f.addr, i, 1⟩ : Field).get (f.put w v) = (⟨f.addr, i, 1⟩ : Field).get w :=
    hi.elim (fun hi => Field.get_put_below f _ w v h hi) (fun hi => Field.get_put_above f _ w v h hi)
  have := congrArg (Nat.testBit · 0) e
  simpa only [Field.testBit_get, Nat.lt_one_iff, decide_true, Bool.true_and, Nat.add_zero] using this

theorem Field.put_and {f : Field} {m : Word} (h : f.clear m = true) (w : Word) (v : Nat) : f.put w v &&& m = w &&& m := by
  simp only [Field.clear, Bool.and_eq_true, decide_eq_true_eq, List.all_eq_true, List.mem_range, Bool.or_eq_true,
    Bool.not_eq_true'] at h
  obtain ⟨hf, hm⟩ := h
  refine BitVec.eq_of_getLsbD_eq fun i hi => ?_
  rw [BitVec.getLsbD_and, BitVec.getLsbD_and]
  rcases hm i hi with (hi | hi) | hi
  · rw [hi, Bool.and_false, Bool.and_false]
  · rw [Field.getLsbD_put_ne f w v hf (.inl hi)]
  · rw [Field.getLsbD_put_ne f w v hf (.inr hi)]

theorem regTable_rw_valued : regTable.all (fun p => p.2.all fun d =>
    BitVec.ofNat 32 (fieldSum (fun f => if f.acc = .rw then f.mask else 0) d.fields) &&&
      BitVec.ofNat 32 (fieldSum (fun f => if f.acc = .wo then 0 else f.mask) d.fields) ==
    BitVec.ofNat 32 (fieldSum (fun f => if f.acc = .rw then f.mask else 0) d.fields)) = true := by decide

/-- The RW bits of a register hold values. -/
theorem regAccessMask_rw_valued (a : Nat) : regAccessMask .rw a &&& regMask a = regAccessMask .rw a := by
  unfold regAccessMask regMask
  split
  · rfl
  · next d hd =>
    obtain ⟨p, hp, hdp⟩ := regDesc?_mem hd
    exact eq_of_beq (List.all_eq_true.mp (List.all_eq_true.mp regTable_rw_valued p hp) d hdp)

theorem and_regMask_and_rw (w : Word) (a : Nat) : w &&& regMask a &&& regAccessMask .rw a = w &&& regAccessMask .rw a := by
  rw [BitVec.and_assoc, BitVec.and_comm (regMask a), regAccessMask_rw_valued]

/-- The RW bits of every register of `t` are those of `s`. -/
def State.SameRw (s t : State) : Prop := ∀ k, t.getReg k &&& regAccessMask .rw k = s.getReg k &&& regAccessMask .rw k

theorem State.SameRw.trans {s t u : State} (h : s.SameRw t) (k : t.SameRw u) : s.SameRw u := fun a => (k a).trans (h a)

/-- Setting a field that is not RW. -/
theorem State.sameRw_setF (s : State) {f : Field} (hf : f.clear (regAccessMask .rw f.addr) = true) (v : Nat) :
    s.SameRw (s.setF f v) := by
  intro k
  by_cases e : k = f.addr
  · subst e
    rw [State.setF, State.getReg_setReg_same, and_regMask_and_rw, Field.put_and hf]
  · rw [State.getReg_setF_ne s f v e]

theorem State.sameRw_refuse (s : State) {f : Field} (hf : f.clear (regAccessMask .rw f.addr) = true) (st : Nat) :
    s.SameRw (s.refuse f st) := s.sameRw_setF hf st

theorem State.sameRw_raise (s : State) {e : Field} (he : e.clear (regAccessMask .rw e.addr) = true) : s.SameRw (s.raise e) := by
  intro k
  unfold State.getReg
  rw [State.raise_regs]
  split
  · exact s.sameRw_setF he 1 k
  · rfl

theorem regTable_forall {P : Nat → Bool} (h : regTable.all (fun p => p.2.all fun d => d.addrs.all P) = true) {a : Nat}
    (hd : (regDesc? a).isSome = true) (ha : a < bankStride) : P a = true := by
  obtain ⟨d, hd⟩ := Option.isSome_iff_exists.mp hd
  obtain ⟨hc, p, hp, hdp⟩ := regDesc?_covers hd
  rw [Nat.mod_eq_of_lt ha] at hc
  exact List.all_eq_true.mp (List.all_eq_true.mp (List.all_eq_true.mp h p hp) d hdp) a (RegDesc.mem_addrs hc)

theorem firstCopy_lt {a : Nat} (hd : (regDesc? a).isSome = true) (ha : a < bankStride) : (firstCopy a).2 < 96 :=
  of_decide_eq_true (regTable_forall (P := fun a => decide ((firstCopy a).2 < 96)) (by decide) hd ha)

theorem laneStatus_clear : ∀ n < 96, (R.LANE_CFG_STATUS n).clear (regAccessMask .rw (R.LANE_CFG_STATUS n).addr) = true := by
  decide

/-- What holds of a refusal's record whatever the field holds of the refusal of a register. -/
theorem State.refuseAt_cases {P : State → Prop} (s : State) (a st : Nat) (ha : P (s.answer st))
    (hr : ∀ f ∈ [R.SYS_CMD_ERR_STATUS, R.UPL_CMD_ERR_STATUS 0, R.UPL_CMD_ERR_STATUS 1, R.TIME_CMD_ERR_STATUS,
      R.TRX_CMD_ERR_STATUS 0, R.TRX_CMD_ERR_STATUS 1, R.TRX_CMD_ERR_STATUS 2, R.TRX_CMD_ERR_STATUS 3, R.LANE_CFG_STATUS (firstCopy a).2,
      R.MAC_CMD_ERR_STATUS, R.SLEEP_CMD_ERR_STATUS, R.PILLOW_CMD_ERR_STATUS, R.MEM_CMD_ERR_STATUS, R.GROUND_CMD_ERR_STATUS,
      R.KEY_CMD_ERR_STATUS, R.ROLE_STATE_STATUS, R.PAIR_CMD_ERR_STATUS, R.UPDATE_CMD_ERR_STATUS, R.SVC_CMD_ERR_STATUS],
      P (s.refuse f st))
    (hc : P (s.clkRefuse 31 st)) (hq : P (s.queueRefuse (s.getF R.QUEUE_SEL_QUEUE) st)) : P (s.refuseAt a st) := by
  have upl (h : (decide (blockOf a = 3) || decide (blockOf a = 4)) = true) : P (s.refuse (R.UPL_CMD_ERR_STATUS (blockOf a - 3)) st) := by
    have : blockOf a = 3 ∨ blockOf a = 4 := by simpa using h
    rcases this with e | e <;> rw [e] <;> exact hr _ (by simp)
  have trx (h : blockOf a ≤ 10) : P (s.refuse (R.TRX_CMD_ERR_STATUS (blockOf a - 7)) st) := by
    have : blockOf a - 7 = 0 ∨ blockOf a - 7 = 1 ∨ blockOf a - 7 = 2 ∨ blockOf a - 7 = 3 := by omega
    rcases this with e | e | e | e <;> rw [e] <;> exact hr _ (by simp)
  unfold State.refuseAt
  refine iteInduction (fun _ => hr _ (by simp)) fun _ => ?_
  refine iteInduction (fun _ => hc) fun _ => ?_
  refine iteInduction (fun _ => ha) fun _ => ?_
  refine iteInduction upl fun _ => ?_
  refine iteInduction (fun _ => hr _ (by simp)) fun _ => ?_
  refine iteInduction trx fun _ => ?_
  refine iteInduction (fun _ => hr _ (by simp)) fun _ => ?_
  refine iteInduction (fun _ => hr _ (by simp)) fun _ => ?_
  refine iteInduction (fun _ => hr _ (by simp)) fun _ => ?_
  refine iteInduction (fun _ => hr _ (by simp)) fun _ => ?_
  refine iteInduction (fun _ => hq) fun _ => ?_
  iterate 6 refine iteInduction (fun _ => hr _ (by simp)) fun _ => ?_
  exact hr _ (by simp)

/-- A refusal is recorded in fields that are not RW (R501). -/
theorem State.sameRw_refuseAt (s : State) {a : Nat} (hl : (firstCopy a).2 < 96) (st : Nat) : s.SameRw (s.refuseAt a st) := by
  refine s.refuseAt_cases a st (fun _ => rfl) ?_ ?_ ?_
  · have hn := laneStatus_clear _ hl
    generalize (firstCopy a).2 = n at hn
    refine fun f hf => s.sameRw_refuse ?_ st
    revert f
    simp only [List.forall_mem_cons, hn, List.not_mem_nil, false_imp_iff, implies_true, and_true, true_and]
    decide
  · exact (s.sameRw_setF (by decide) _).trans (State.sameRw_refuse _ (by decide) st)
  · exact (s.sameRw_setF (by decide) _).trans (State.sameRw_refuse _ (by decide) st)

theorem State.refuse_answers (s : State) (f : Field) (st : Nat) :
    (s.refuse f st).resp = st ∧ (s.refuse f st).mem = s.mem ∧ (s.refuse f st).out = s.out := ⟨rfl, rfl, rfl⟩

theorem State.setF_refuse_answers (s : State) (f g : Field) (v st : Nat) :
    ((s.setF f v).refuse g st).resp = st ∧ ((s.setF f v).refuse g st).mem = s.mem ∧ ((s.setF f v).refuse g st).out = s.out :=
  ⟨rfl, rfl, rfl⟩

theorem State.refuseAt_answers (s : State) (a st : Nat) :
    (s.refuseAt a st).resp = st ∧ (s.refuseAt a st).mem = s.mem ∧ (s.refuseAt a st).out = s.out :=
  s.refuseAt_cases (P := fun t => t.resp = st ∧ t.mem = s.mem ∧ t.out = s.out) a st ⟨rfl, rfl, rfl⟩
    (fun f _ => s.refuse_answers f st) (s.setF_refuse_answers _ _ _ st) (s.setF_refuse_answers _ _ _ st)

end Sys2Proof.Machine

namespace Sys2Proof.Machine
open Sys2Proof

/-! ### The register behind an address -/

theorem State.bankOf_mod (s : State) (a : Nat) : s.bankOf a % bankStride = a % bankStride := by
  unfold State.bankOf
  exact Nat.add_mul_mod_self_right ..

theorem State.regAccessMask_bankOf (s : State) (t : Access) (a : Nat) : regAccessMask t (s.bankOf a) = regAccessMask t a := by
  rw [← regAccessMask_mod, State.bankOf_mod, regAccessMask_mod]

/-! ### Plain writes, cleared events, event enables -/

section
variable {s : State} {b a : Nat} {w : Word}

theorem State.putRw_eq (s : State) (a : Nat) (w : Word) : s.putRw a w = (s.setReg (s.bankOf a)
    (w &&& regAccessMask .rw a ||| s.getReg (s.bankOf a) &&& ~~~ regAccessMask .rw a)).answer ST.OK := rfl

theorem State.getReg_putRw (s : State) (a : Nat) (w : Word) : (s.putRw a w).getReg (s.bankOf a) =
    (w &&& regAccessMask .rw a ||| s.getReg (s.bankOf a) &&& ~~~ regAccessMask .rw a) &&& regMask (s.bankOf a) := by
  rw [State.putRw_eq, State.getReg_answer, State.getReg_setReg_same]

theorem State.putRw_keeps (s : State) (a : Nat) (w : Word) :
    (∀ k, k ≠ s.bankOf a → (s.putRw a w).getReg k = s.getReg k) ∧ (s.putRw a w).resp = ST.OK ∧ (s.putRw a w).mem = s.mem ∧
    (s.putRw a w).out = s.out := by
  rw [State.putRw_eq]
  exact ⟨fun k hk => by rw [State.getReg_answer, State.getReg_setReg_ne s _ hk], State.answer_resp _ _,
    by rw [State.answer_mem, State.setReg_mem], by rw [State.answer_out, State.setReg_out]⟩

/-- What `w` makes of an event register: each bit written 1 is cleared. -/
theorem State.Inv.getReg_clearBits (h : s.Inv) (k : Nat) (w : Word) :
    (s.clearBits k w).getReg k = s.getReg k &&& ~~~ (w &&& regAccessMask .w1c k) := by
  rw [State.clearBits, State.getReg_setReg_same, BitVec.and_assoc, BitVec.and_comm _ (regMask k), ← BitVec.and_assoc, h.getReg_mask]

/-- The word that a write of `w` makes of the register at `a`, which is in no bank. -/
def State.enableWord (s : State) (a : Nat) (w : Word) : Word :=
  w &&& regAccessMask .rw a ||| s.getReg a &&& ~~~ regAccessMask .rw a

/-- The notifications that an enable register's new word makes due (R505). -/
def State.enableNotes (s : State) (e a : Nat) (new : Word) : List (Nat × Nat × Nat) :=
  ((bitsOf (s.getReg e) 31).filter (fun i => bitOf new.toNat i && !bitOf (s.getReg a).toNat i)).map (fun i => (e, i, s.mtb))

/-- `t` is `s` but that `w` has been written to the enable register `a` of the event register `e`, as far as these two
registers, the notifications and the answer go. -/
structure State.Enabled (s t : State) (e a : Nat) (w : Word) : Prop where
  enable : t.getReg a = s.enableWord a w
  event : t.getReg e = s.getReg e
  notes : t.notes = s.notes ++ s.enableNotes e a (s.enableWord a w)
  resp : t.resp = ST.OK

theorem State.Inv.getReg_writeEnable (h : s.Inv) (e a : Nat) (w : Word) : (s.writeEnable e a w).getReg a = s.enableWord a w := by
  refine (State.getReg_setReg_same s a (s.enableWord a w)).trans ?_
  rw [State.enableWord, BitVec.and_comm, BitVec.and_or_distrib_left, BitVec.and_comm _ (w &&& _), BitVec.and_assoc,
    regAccessMask_rw_valued, ← BitVec.and_assoc (regMask a), BitVec.and_comm (regMask a) (s.getReg a), h.getReg_mask]

theorem State.Inv.enabled_writeEnable (h : s.Inv) {e : Nat} (he : e ≠ a) (w : Word) :
    s.Enabled ((s.writeEnable e a w).answer ST.OK) e a w :=
  ⟨h.getReg_writeEnable e a w, State.getReg_setReg_ne s _ he, rfl, rfl⟩

/-- A change that leaves the two registers and the notifications, and answers OK. -/
theorem State.Enabled.then {t u : State} {e : Nat} (h : s.Enabled t e a w) (ha : u.getReg a = t.getReg a)
    (he : u.getReg e = t.getReg e) (hn : u.notes = t.notes) (hr : u.resp = ST.OK) : s.Enabled u e a w :=
  ⟨ha.trans h.enable, he.trans h.event, hn.trans h.notes, hr⟩

/-- Two actions of which the second depends on a bit, when neither is refused. -/
theorem State.actions_two {f g : State → State} {x : Field} (hf : (f (s.answer ST.OK)).resp = ST.OK)
    (hg : (g (f (s.answer ST.OK))).resp = ST.OK) :
    s.actions a (f :: onBit w x g) = if x.get w = 1 then g (f (s.answer ST.OK)) else f (s.answer ST.OK) := by
  unfold onBit
  split
  · simp only [State.actions, State.runActions, State.answer_resp, hf, hg, if_true]
  · simp only [State.actions, State.runActions, State.answer_resp, hf, if_true]

theorem State.getReg_sleepClear (t : State) {k : Nat} (h : k ∉ [R.SLEEP_COUNT0, R.SLEEP_COUNT1, R.SLEEP_COUNT2, R.SLEEP_LOAD_MAX.addr]) :
    t.sleepClear.getReg k = t.getReg k := by
  simp only [List.mem_cons, List.not_mem_nil, or_false, not_or] at h
  obtain ⟨h0, h1, h2, h3⟩ := h
  unfold State.sleepClear State.each
  rw [State.getReg_answer, State.getReg_setF_ne _ _ 0 h3, List.foldl_cons, List.foldl_cons, List.foldl_cons, List.foldl_nil,
    State.getReg_setReg_ne _ _ h2, State.getReg_setReg_ne _ _ h1, State.getReg_setReg_ne _ _ h0]

theorem State.getReg_memClear (t : State) {k : Nat} (h : k ∉ [R.MEM_ECC_STAT, R.MEM_POOL_DROPS.addr]) :
    t.memClear.getReg k = t.getReg k := by
  simp only [List.mem_cons, List.not_mem_nil, or_false, not_or] at h
  obtain ⟨h0, h1⟩ := h
  rw [State.memClear, State.getReg_setF_ne _ _ 0 h1, State.getReg_setReg_ne _ _ h0]
  rfl

theorem State.sleepClear_answers (t : State) : t.sleepClear.notes = t.notes ∧ t.sleepClear.resp = ST.OK := by
  unfold State.sleepClear State.each
  simp only [List.foldl_cons, List.foldl_nil, State.answer_notes, State.setF_notes, State.setReg_notes, State.answer_resp, and_self]

theorem State.memClear_notes (t : State) : t.memClear.notes = t.notes := by
  unfold State.memClear
  simp only [State.setF_notes, State.setReg_notes]

/-- What holds of every event register and its enable register. -/
def pairOk (p : Nat × Nat) : Bool :=
  p.1 != p.2 && eventOf? p.2 == some p.1 && unchecked (firstCopy p.2).1 && p.2 < bankStride && p.2 != R.ROLE_EVENT &&
  blockOf p.1 == blockOf p.2 &&
  (actionRegs.all (· != (firstCopy p.2).1) || p == (R.SLEEP_EVENT, R.SLEEP_EVENT_EN) || p == (R.MEM_EVENT, R.MEM_EVENT_EN))

theorem eventPairs_ok : eventPairs.all pairOk = true := by decide

/-- What holds of every register with events to clear. -/
def clearedOk (a : Nat) : Bool :=
  unchecked (firstCopy a).1 && actionRegs.all (· != (firstCopy a).1) && (eventOf? a).isNone

theorem clearedRegs_ok : clearedRegs.all clearedOk = true := by decide

theorem State.Enabled.of_answer {t : State} {st e : Nat} (h : (s.answer st).Enabled t e a w) : s.Enabled t e a w :=
  ⟨h.1, h.2, h.3, h.4⟩

theorem State.takenWrite_acts {u : State} (h : s.actionOf (.bobbin b) a (firstCopy a).1 (firstCopy a).2 w = some u) :
    s.takenWrite b a w = u := by
  unfold State.takenWrite
  simp only [h]

/-- Writing an enable register that clears counts on a bit of its own. -/
theorem State.Inv.enabled_actions (h : s.Inv) {e : Nat} (he : e ≠ a) {f g : State → State} {x : Field}
    (hf : f (s.answer ST.OK) = ((s.answer ST.OK).writeEnable e a w).answer ST.OK)
    (hg : ∀ t : State, (g t).getReg a = t.getReg a ∧ (g t).getReg e = t.getReg e ∧ (g t).notes = t.notes ∧ (g t).resp = ST.OK) :
    s.Enabled (s.actions a (f :: onBit w x g)) e a w := by
  have k : s.Enabled (f (s.answer ST.OK)) e a w := by
    rw [hf]
    exact (State.Inv.enabled_writeEnable (s := s.answer ST.OK) h he w).of_answer
  obtain ⟨ga, ge, gn, gr⟩ := hg (f (s.answer ST.OK))
  rw [State.actions_two k.resp gr]
  split
  · exact k.then ga ge gn gr
  · exact k

/-- A write to an enable register (R505): with the clear bit that two of them have besides. -/
theorem State.Inv.enabled_takenWrite (h : s.Inv) {p : Nat × Nat} (hp : p ∈ eventPairs) (w : Word) :
    s.Enabled (s.takenWrite b p.2 w) p.1 p.2 w := by
  have ok := List.all_eq_true.mp eventPairs_ok p hp
  simp only [pairOk, Bool.and_eq_true, Bool.or_eq_true, bne_iff_ne, beq_iff_eq] at ok
  obtain ⟨⟨⟨⟨⟨⟨hne, hev⟩, -⟩, -⟩, -⟩, -⟩, hact⟩ := ok
  rcases hact with (hact | rfl) | rfl
  · unfold State.takenWrite
    simp only [State.actionOf_none hact, hev]
    exact h.enabled_writeEnable hne w
  · rw [State.takenWrite_acts (u := s.actions R.SLEEP_EVENT_EN
      ((fun t => (t.writeEnable R.SLEEP_EVENT R.SLEEP_EVENT_EN w).answer ST.OK) ::
        onBit w R.SLEEP_EVENT_EN_CLR State.sleepClear)) rfl]
    exact h.enabled_actions hne rfl fun t => ⟨t.getReg_sleepClear (by decide), t.getReg_sleepClear (by decide), t.sleepClear_answers⟩
  · rw [State.takenWrite_acts (u := s.actions R.MEM_EVENT_EN
      ((fun t => (t.writeEnable R.MEM_EVENT R.MEM_EVENT_EN w).answer ST.OK) ::
        onBit w R.MEM_EVENT_EN_CLR (fun t => t.memClear.answer ST.OK))) rfl]
    exact h.enabled_actions hne rfl fun t => ⟨t.getReg_memClear (by decide), t.getReg_memClear (by decide), t.memClear_notes,
      State.answer_resp _ _⟩

end
end Sys2Proof.Machine

namespace Sys2Proof.Machine
open Sys2Proof

/-! ### Firmware's write, recorded or not (R433, R499) -/

section
variable {s : State} {b a : Nat} {w : Word}

theorem State.addrFault_none (h : s.addrFault a = none) (hs : ¬ a / 0x10000 = 0x201F) : a % 4 = 0 ∧ (regDesc? a).isSome = true := by
  simp only [State.addrFault, hs, if_false] at h
  split at h
  · cases h
  · next h4 =>
    split at h
    · next hd => exact ⟨not_not.mp h4, (Bool.and_eq_true_iff.mp hd).1⟩
    · cases h

theorem State.Admits.copy_lt (h : s.Admits b a) : (firstCopy a).2 < 96 :=
  firstCopy_lt (State.addrFault_none h.addr h.sampler).2 h.lt

/-- Where firmware may write, its store is a write with its record. -/
theorem State.firmwareWrite_of_opens (h : s.opens b a = true) (w : Word) (u : Nat) :
    s.firmwareWrite b a w false u = (s.advance u).writeRecorded (.bobbin b) a w := by
  obtain ⟨⟨hr, hh, hx⟩, ha⟩ := State.opens_iff.mp h
  have hg : (!s.rootRuns || (s.hoopOf b).isNone || !s.executes b) = false := by
    rw [hr, hx, ← Option.not_isSome, hh]
    rfl
  have ha' : (s.advance u).addrFault a = none := (ha.advance u).addr
  unfold State.firmwareWrite
  rw [hg, if_neg Bool.false_ne_true, if_neg (not_not.mpr (State.addrFault_none ha.addr ha.sampler).1), if_neg Bool.false_ne_true,
    ha']

theorem State.writeRecorded_unaudited (h : auditedBlocks.contains (blockOf a) = false) :
    s.writeRecorded (.bobbin b) a w = s.writeBody (.bobbin b) a w := by
  simp only [State.writeRecorded, State.who, h, ne_eq, not_true_eq_false, decide_false, Bool.or_self, Bool.false_eq_true, if_false]

theorem State.writeRecorded_audited (h : auditedBlocks.contains (blockOf a) = true) (hr : s.auditRoom = true) :
    s.writeRecorded (.bobbin b) a w = (s.recordedWrite b a w).writeBody (.bobbin b) a w := by
  simp only [State.writeRecorded, State.who, h, hr, Bool.or_true, if_true]
  rfl

theorem State.writeRecorded_busy (h : auditedBlocks.contains (blockOf a) = true) (hr : s.auditRoom = false)
    (ht : statusClass (s.writeBody (.bobbin b) a w).resp = 0) :
    s.writeRecorded (.bobbin b) a w = (s.raise R.ROLE_EVENT_AUDIT_BUSY).refuseAt a ST.ROLE_AUDIT_BUSY := by
  simp only [State.writeRecorded, State.who, h, hr, ht, Bool.or_true, if_true, Bool.false_eq_true, if_false, ne_eq, not_true_eq_false]

/-- Firmware's write in a block whose writes are not recorded. -/
theorem State.firmwareWrite_unaudited (h : s.opens b a = true) (hb : auditedBlocks.contains (blockOf a) = false) (w : Word) (u : Nat) :
    s.firmwareWrite b a w false u = (s.advance u).checkedWrite b a w := by
  rw [State.firmwareWrite_of_opens h, State.writeRecorded_unaudited hb, ((State.opens_iff.mp h).2.advance u).writeBody]

/-- Firmware's write in a block whose writes are recorded, with room for the record. -/
theorem State.firmwareWrite_audited (h : s.opens b a = true) (hb : auditedBlocks.contains (blockOf a) = true)
    (hr : s.auditRoom = true) (w : Word) (u : Nat) :
    s.firmwareWrite b a w false u = ((s.advance u).recordedWrite b a w).writeBody (.bobbin b) a w := by
  rw [State.firmwareWrite_of_opens h, State.writeRecorded_audited hb (by exact hr)]

/-! ### What appending a record leaves -/

theorem State.auditAppend_getReg (s : State) (d : AuditData) (k : Nat) : (s.auditAppend d).getReg k = s.getReg k := by
  unfold State.auditAppend
  extract_lets
  split <;> rfl

theorem State.checkpointDue_getReg (s : State) {k : Nat} (hk : k ≠ R.ROLE_EVENT) : s.checkpointDue.getReg k = s.getReg k := by
  unfold State.checkpointDue
  split
  · split
    · next t ht =>
      unfold State.checkpoint? at ht
      dsimp only at ht
      split at ht
      · cases ht
      · cases ht
        exact State.getReg_raise_ne _ R.ROLE_EVENT_CKPT hk
    · rfl
  · rfl

theorem State.recordedWrite_getReg {k : Nat} (hk : k ≠ R.ROLE_EVENT) : (s.recordedWrite b a w).getReg k = s.getReg k := by
  rw [State.recordedWrite, State.checkpointDue_getReg _ hk, State.auditAppend_getReg]

theorem State.recordedWrite_within (s : State) (b a : Nat) (w : Word) :
    State.Within [.block 20, .freeIx, .notes, .ro] s (s.recordedWrite b a w) :=
  State.checkpointDue_within (State.auditAppend_within (.refl _ s) (by decide) _) (List.Subset.refl _)

/-- The checks before the fields' look at the device state and the pricking. -/
theorem State.Admits.congr {t : State} (h : s.Admits b a) (hp : t.pr = s.pr) (hk : ∀ k, k ≠ R.ROLE_EVENT → t.getReg k = s.getReg k) :
    t.Admits b a := by
  have hd : t.dev = s.dev := State.getF_congr (hk _ (by decide))
  have hq : t.getF R.QUEUE_SEL_QUEUE = s.getF R.QUEUE_SEL_QUEUE := State.getF_congr (hk _ (by decide))
  have hc : t.byCustomer (.bobbin b) = s.byCustomer (.bobbin b) := by
    simp only [State.byCustomer, State.hoopOf, State.isCustomer, State.hoopRec, hp]
  obtain ⟨ha, hs, hg, ht, hl, hu, hx⟩ := h
  refine ⟨?_, hs, ?_, ?_, ?_, hc ▸ hu, ?_⟩
  · simpa only [State.addrFault, hd] using ha
  · simpa only [State.granted, hc, hp] using hg
  · simpa only [State.trxRec, hp] using ht
  · simpa only [State.laneRec, hp] using hl
  · simpa only [State.queueRec, hp, hq] using hx

theorem State.Admits.recordedWrite (h : s.Admits b a) (w : Word) : (s.recordedWrite b a w).Admits b a :=
  h.congr ((s.recordedWrite_within b a w).same .pr (by decide)) fun _ => State.recordedWrite_getReg

/-! ### A write to an event register (R505) -/

/-- A write that clears event bits meets no check and starts no action. -/
theorem State.checkedWrite_clears (h1 : regAccessMask .w1c a ≠ 0) (ha : a < bankStride) :
    s.checkedWrite b a w = (s.clearBits (s.bankOf a) w).answer ST.OK := by
  have ok := List.all_eq_true.mp clearedRegs_ok a (mem_clearedRegs h1 ha)
  simp only [clearedOk, Bool.and_eq_true, Option.isNone_iff_eq_none] at ok
  obtain ⟨⟨hu, hact⟩, hev⟩ := ok
  unfold State.checkedWrite State.takenWrite
  simp only [State.fieldFault_unchecked hu, State.actionOf_none hact, hev, ne_eq, h1, not_false_eq_true, if_true]

theorem State.checkedWrite_enables {p : Nat × Nat} (hp : p ∈ eventPairs) :
    s.checkedWrite b p.2 w = s.takenWrite b p.2 w := by
  have ok := List.all_eq_true.mp eventPairs_ok p hp
  simp only [pairOk, Bool.and_eq_true] at ok
  obtain ⟨⟨⟨⟨⟨-, hu⟩, -⟩, -⟩, -⟩, -⟩ := ok
  unfold State.checkedWrite
  simp only [State.fieldFault_unchecked hu]

end
end Sys2Proof.Machine

namespace Sys2Proof.Machine
open Sys2Proof

/-! ### A store that faults (R9, R285, R308) -/

section
variable {s : State} {b a : Nat} {w : Word}

/-- An init run that faults: the fault is recorded and the bobbin waits for its restart. -/
theorem State.bobFault_init (h : (s.bobbin b).init = true) (cause pc : Nat) :
    s.bobFault b cause pc = ((s.recordFault b cause pc true 0).unstall b).setBobbin b
      { ((s.recordFault b cause pc true 0).unstall b).bobbin b with
        faulted := true, faultAt := ((s.recordFault b cause pc true 0).unstall b).mtb } := by
  unfold State.bobFault
  exact if_pos h

theorem State.accessFault_init (h : (s.bobbin b).init = true) (c : Nat) :
    ((s.accessFault b c).bobbin b).faulted = true ∧
    State.Within [.block 14, .notes, .pl, .queues, .freeIx] s (s.accessFault b c) := by
  rw [State.accessFault, State.bobFault_init (by exact h)]
  constructor
  · rw [State.bobbin, State.setBobbin, Store.get_set_same]
  · exact State.setBobbin_within (State.unstall_within (State.recordFault_within
      (State.useFree_within (.refl _ s) (by decide)) (by decide) ..) (by decide) _) (by decide) ..

theorem State.firmwareWrite_faults {n : Bool} (hr : s.rootRuns = true) (hh : (s.hoopOf b).isSome = true)
    (hx : s.executes b = true) (hf : a % 4 ≠ 0 ∨ n = true ∨ s.addrFault a = some ST.MEM_UNMAPPED) (u : Nat) :
    ∃ c, s.firmwareWrite b a w n u = (s.advance u).accessFault b c := by
  have hg : (!s.rootRuns || (s.hoopOf b).isNone || !s.executes b) = false := by
    rw [hr, hx, ← Option.not_isSome, hh]
    rfl
  unfold State.firmwareWrite
  rw [hg, if_neg Bool.false_ne_true]
  dsimp only
  by_cases h4 : a % 4 ≠ 0
  · exact ⟨2, if_pos h4⟩
  rw [if_neg h4]
  cases n with
  | true => exact ⟨4, if_pos rfl⟩
  | false =>
    have ha : s.addrFault a = some ST.MEM_UNMAPPED := by simpa [h4] using hf
    have ha' : (s.advance u).addrFault a = some ST.MEM_UNMAPPED := ha
    rw [if_neg Bool.false_ne_true, ha']
    exact ⟨4, if_neg (by decide)⟩

/-! ### The cases of a register write -/

theorem registerWrite_plain {bob : Fin 16} {x : Word} {u : Nat} (h : s.opens bob x.toNat = true)
    (hb : auditedBlocks.contains (blockOf x.toNat) = false)
    (hf : (s.advance u).fieldFault x.toNat ((s.advance u).regWord x.toNat) ((s.advance u).newWord x.toNat w) = none)
    (ha : ((s.advance u).actionOf (.bobbin bob) x.toNat (firstCopy x.toNat).1 (firstCopy x.toNat).2 w).isNone = true)
    (he : eventOf? x.toNat = none) (h1 : regAccessMask .w1c x.toNat = 0)
    (hp : ¬ (R.PILLOW_HOOP 0 ≤ x.toNat ∧ x.toNat ≤ R.PILLOW_HOOP 3)) :
    exec (.registerWrite bob x w false u) s = .next ((s.advance u).putRw x.toNat w) := by
  rw [Option.isNone_iff_eq_none] at ha
  have hp' : (decide (R.PILLOW_HOOP 0 ≤ x.toNat) && decide (x.toNat ≤ R.PILLOW_HOOP 3)) = false := by
    rw [Bool.and_eq_false_iff, decide_eq_false_iff_not, decide_eq_false_iff_not]
    exact Decidable.not_and_iff_or_not.mp hp
  refine congrArg Host.Outcome.next ((State.firmwareWrite_unaudited h hb w u).trans ?_)
  unfold State.checkedWrite State.takenWrite
  simp only [hf, ha, he, h1, hp', ne_eq, not_true_eq_false, Bool.false_and, Bool.false_eq_true, if_false]

theorem registerWrite_refused {bob : Fin 16} {x : Word} {u st : Nat} (h : s.opens bob x.toNat = true)
    (hb : auditedBlocks.contains (blockOf x.toNat) = false)
    (hf : (s.advance u).fieldFault x.toNat ((s.advance u).regWord x.toNat) ((s.advance u).newWord x.toNat w) = some st) :
    exec (.registerWrite bob x w false u) s = .next ((s.advance u).refuseAt x.toNat st) := by
  refine congrArg Host.Outcome.next ((State.firmwareWrite_unaudited h hb w u).trans ?_)
  unfold State.checkedWrite
  simp only [hf]

theorem registerWrite_busy {bob : Fin 16} {x : Word} {u : Nat} (h : s.opens bob x.toNat = true)
    (hb : auditedBlocks.contains (blockOf x.toNat) = true) (hr : s.auditRoom = false)
    (ht : statusClass ((s.advance u).writeBody (.bobbin bob) x.toNat w).resp = 0) :
    exec (.registerWrite bob x w false u) s =
      .next (((s.advance u).raise R.ROLE_EVENT_AUDIT_BUSY).refuseAt x.toNat ST.ROLE_AUDIT_BUSY) :=
  congrArg Host.Outcome.next
    ((State.firmwareWrite_of_opens h w u).trans (State.writeRecorded_busy hb (by exact hr) ht))

/-- The RW bits of the register behind an address are kept with those of every register. -/
theorem State.SameRw.bankOf {t : State} (h : s.SameRw t) (a : Nat) :
    t.getReg (s.bankOf a) &&& regAccessMask .rw a = s.getReg (s.bankOf a) &&& regAccessMask .rw a := by
  rw [← s.regAccessMask_bankOf .rw a]
  exact h _

theorem eventClear_eq {bob : Fin 16} {x : Word} {u : Nat} (h1 : regAccessMask .w1c x.toNat ≠ 0) :
    exec (.eventClear bob x w u) s = .next (s.firmwareWrite bob x.toNat w false u) :=
  congrArg Host.Outcome.next (if_neg h1)

/-- The address is none of those that name a register of the selected bank. -/
def unbanked (a : Nat) : Bool :=
  !(R.MAC_PAN_ADDR ≤ a && a ≤ R.MAC_PAN_EB_CFG) && !(R.QUEUE_CFG ≤ a && a ≤ R.QUEUE_EVENT) &&
  [R.MAC_SF_CFG, R.MAC_SF_BASE, R.MAC_HOP_DATA, R.MAC_DUTY_USED, R.MAC_DUTY_STAT, R.PILLOW_QT_TASK, R.PILLOW_QT_ORD,
    R.TAMPER_LOG].all (· != a)

theorem State.bankOf_unbanked {a : Nat} (h : unbanked a = true) (s : State) : s.bankOf a = a := by
  simp only [unbanked, Bool.and_eq_true, Bool.not_eq_true', List.all_cons, List.all_nil, bne_iff_ne, ne_eq,
    @eq_comm _ _ a] at h
  obtain ⟨⟨hp, hq⟩, hl⟩ := h
  unfold State.bankOf
  simp only [hp, hq, hl, decide_false, Bool.or_self, Bool.false_eq_true, if_false, Nat.zero_mul, Nat.add_zero]

/-- An event register in a block whose writes are recorded is in no bank. -/
theorem State.bankOf_cleared {a : Nat} (h1 : regAccessMask .w1c a ≠ 0) (ha : a < bankStride)
    (hb : auditedBlocks.contains (blockOf a) = true) (s : State) : s.bankOf a = a := by
  have hk : ∀ a ∈ clearedRegs, auditedBlocks.contains (blockOf a) = true → unbanked a = true := by decide
  exact State.bankOf_unbanked (hk a (mem_clearedRegs h1 ha) hb) s

theorem exec_eventEnableWrite (bob : Fin 16) (x w : Word) (u : Nat) (s : State) : exec (.eventEnableWrite bob x w u) s =
    .next (if (eventOf? x.toNat).isNone then s else s.firmwareWrite bob x.toNat w false u) := rfl

theorem eventEnableWrite_eq {bob : Fin 16} {p : Nat × Nat} {u : Nat} (hp : p ∈ eventPairs) :
    exec (.eventEnableWrite bob (BitVec.ofNat 32 p.2) w u) s = .next (s.firmwareWrite bob p.2 w false u) := by
  have ok := List.all_eq_true.mp eventPairs_ok p hp
  simp only [pairOk, Bool.and_eq_true, beq_iff_eq, decide_eq_true_eq] at ok
  obtain ⟨⟨⟨⟨⟨⟨-, hev⟩, -⟩, hlt⟩, -⟩, -⟩, -⟩ := ok
  have hn : (BitVec.ofNat 32 p.2).toNat = p.2 := by
    unfold bankStride at hlt
    rw [BitVec.toNat_ofNat]
    omega
  rw [exec_eventEnableWrite, hn, hev, Option.isNone_some, if_neg Bool.false_ne_true]

end
end Sys2Proof.Machine

namespace Sys2Proof.Machine
open Sys2Proof

theorem State.bankOf_advance (s : State) (u a : Nat) : (s.advance u).bankOf a = s.bankOf a := rfl

/-! ### The clauses on register writes, event clears and event enables -/

section
variable {s : State} {b : Fin 16} {x w : Word} {u : Nat}

theorem registerWrite_changes_plain (h : s.opens b x.toNat = true) (hb : auditedBlocks.contains (blockOf x.toNat) = false)
    (hf : (s.advance u).fieldFault x.toNat ((s.advance u).regWord x.toNat) ((s.advance u).newWord x.toNat w) = none)
    (ha : ((s.advance u).actionOf (.bobbin b) x.toNat (firstCopy x.toNat).1 (firstCopy x.toNat).2 w).isNone = true)
    (he : eventOf? x.toNat = none) (h1 : regAccessMask .w1c x.toNat = 0)
    (hp : ¬ (R.PILLOW_HOOP 0 ≤ x.toNat ∧ x.toNat ≤ R.PILLOW_HOOP 3)) :
    Completes (.registerWrite b x w false u) s fun t =>
      t.getReg (s.bankOf x.toNat) = ((w &&& regAccessMask .rw x.toNat) |||
        (s.getReg (s.bankOf x.toNat) &&& ~~~ regAccessMask .rw x.toNat)) &&& regMask (s.bankOf x.toNat) ∧
      (∀ k, k ≠ s.bankOf x.toNat → t.getReg k = s.getReg k) ∧ t.resp = ST.OK ∧ t.mem = s.mem ∧ t.out = s.out :=
  ⟨_, registerWrite_plain h hb hf ha he h1 hp, (s.advance u).getReg_putRw x.toNat w, (s.advance u).putRw_keeps x.toNat w⟩

theorem registerWrite_refuses (h : s.opens b x.toNat = true) (hb : auditedBlocks.contains (blockOf x.toNat) = false)
    (hf : ((s.advance u).fieldFault x.toNat ((s.advance u).regWord x.toNat) ((s.advance u).newWord x.toNat w)).isSome = true) :
    Completes (.registerWrite b x w false u) s fun t =>
      some t.resp = (s.advance u).fieldFault x.toNat ((s.advance u).regWord x.toNat) ((s.advance u).newWord x.toNat w) ∧
      t.getReg (s.bankOf x.toNat) &&& regAccessMask .rw x.toNat = s.getReg (s.bankOf x.toNat) &&& regAccessMask .rw x.toNat ∧
      t.mem = s.mem ∧ t.out = s.out := by
  obtain ⟨st, hst⟩ := Option.isSome_iff_exists.mp hf
  obtain ⟨hr, hm, ho⟩ := (s.advance u).refuseAt_answers x.toNat st
  have hk := (s.advance u).sameRw_refuseAt (State.opens_iff.mp h).2.copy_lt st
  exact ⟨_, registerWrite_refused h hb hst, by rw [hr, hst], hk.bankOf x.toNat, hm, ho⟩

theorem registerWrite_refuses_busy (h : s.opens b x.toNat = true) (hb : auditedBlocks.contains (blockOf x.toNat) = true)
    (hr : s.auditRoom = false) (ht : statusClass ((s.advance u).writeBody (.bobbin b) x.toNat w).resp = 0) :
    Completes (.registerWrite b x w false u) s fun t => t.resp = ST.ROLE_AUDIT_BUSY ∧
      t.getReg (s.bankOf x.toNat) &&& regAccessMask .rw x.toNat = s.getReg (s.bankOf x.toNat) &&& regAccessMask .rw x.toNat := by
  obtain ⟨ha, -, -⟩ := ((s.advance u).raise R.ROLE_EVENT_AUDIT_BUSY).refuseAt_answers x.toNat ST.ROLE_AUDIT_BUSY
  have hk := ((s.advance u).sameRw_raise (e := R.ROLE_EVENT_AUDIT_BUSY) (by decide)).trans
    (State.sameRw_refuseAt _ (State.opens_iff.mp h).2.copy_lt ST.ROLE_AUDIT_BUSY)
  exact ⟨_, registerWrite_busy h hb hr ht, ha, hk.bankOf x.toNat⟩

theorem registerWrite_faults (hi : s.Inv) {n : Bool} (hr : s.rootRuns = true) (hh : (s.hoopOf b).isSome = true)
    (hx : s.executes b = true) (hn : (s.bobbin b).init = true)
    (hf : x.toNat % 4 ≠ 0 ∨ n = true ∨ s.addrFault x.toNat = some ST.MEM_UNMAPPED) :
    Completes (.registerWrite b x w n u) s fun t =>
      (t.bobbin b).faulted = true ∧ t.mem = s.mem ∧ (∀ k, regBlock k ≠ 14 → t.getReg k = s.getReg k) := by
  obtain ⟨c, hc⟩ := State.firmwareWrite_faults (w := w) hr hh hx hf u
  obtain ⟨hb, hw⟩ := State.accessFault_init (s := s.advance u) hn c
  exact ⟨_, congrArg Host.Outcome.next hc, hb, hw.same .mem (by decide), fun k hk => hw.regs hi (by decide) k (by simpa using hk)⟩

theorem eventClear_clears (hi : s.Inv) (h1 : regAccessMask .w1c x.toNat ≠ 0) (h : s.opens b x.toNat = true)
    (hb : auditedBlocks.contains (blockOf x.toNat) = false) : Completes (.eventClear b x w u) s fun t =>
      t.getReg (s.bankOf x.toNat) = s.getReg (s.bankOf x.toNat) &&& ~~~ (w &&& regAccessMask .w1c (s.bankOf x.toNat)) ∧
      (∀ k, k ≠ s.bankOf x.toNat → t.getReg k = s.getReg k) ∧ t.resp = ST.OK ∧ t.notes = s.notes := by
  have e := (State.firmwareWrite_unaudited h hb w u).trans (State.checkedWrite_clears h1 (State.opens_iff.mp h).2.lt)
  rw [State.bankOf_advance] at e
  have hi' : (s.advance u).Inv := hi
  refine ⟨_, (eventClear_eq h1).trans (congrArg Host.Outcome.next e), ?_, fun k hk => ?_, State.answer_resp _ _, ?_⟩
  · rw [State.getReg_answer, hi'.getReg_clearBits, State.getReg_advance]
  · rw [State.getReg_answer, State.clearBits, State.getReg_setReg_ne _ _ hk, State.getReg_advance]
  · rw [State.answer_notes, State.clearBits, State.setReg_notes, State.advance_notes]

theorem eventClear_clears_recorded (hi : s.Inv) (h1 : regAccessMask .w1c x.toNat ≠ 0) (h : s.opens b x.toNat = true)
    (hb : auditedBlocks.contains (blockOf x.toNat) = true) (hr : s.auditRoom = true) : Completes (.eventClear b x w u) s fun t =>
      t.getReg x.toNat = ((s.advance u).recordedWrite b x.toNat w).getReg x.toNat &&& ~~~ (w &&& regAccessMask .w1c x.toNat) ∧
      t.resp = ST.OK := by
  have hA := (State.opens_iff.mp h).2
  have e := (State.firmwareWrite_audited h hb hr w u).trans (((hA.advance u).recordedWrite w).writeBody w)
  rw [State.checkedWrite_clears h1 hA.lt, State.bankOf_cleared h1 hA.lt hb] at e
  have hi' : ((s.advance u).recordedWrite b x.toNat w).Inv := (State.recordedWrite_within _ _ _ _).inv hi
  refine ⟨_, (eventClear_eq h1).trans (congrArg Host.Outcome.next e), ?_, State.answer_resp _ _⟩
  rw [State.getReg_answer, hi'.getReg_clearBits]

end

section
variable {s : State} {b : Fin 16} {p : Nat × Nat} {w : Word} {u : Nat}

theorem eventPairs_block (hp : p ∈ eventPairs) : blockOf p.1 = blockOf p.2 ∧ p.2 ≠ R.ROLE_EVENT := by
  have ok := List.all_eq_true.mp eventPairs_ok p hp
  simp only [pairOk, Bool.and_eq_true, beq_iff_eq, bne_iff_ne] at ok
  obtain ⟨⟨⟨-, hr⟩, hb⟩, -⟩ := ok
  exact ⟨hb, hr⟩

theorem eventEnableWrite_enables (hi : s.Inv) (hp : p ∈ eventPairs) (h : s.opens b p.2 = true)
    (hb : auditedBlocks.contains (blockOf p.1) = false) :
    Completes (.eventEnableWrite b (BitVec.ofNat 32 p.2) w u) s fun t =>
      t.getReg p.2 = (w &&& regAccessMask .rw p.2) ||| (s.getReg p.2 &&& ~~~ regAccessMask .rw p.2) ∧
      t.getReg p.1 = s.getReg p.1 ∧
      t.notes = s.notes ++ ((bitsOf (s.getReg p.1) 31).filter (fun i =>
        bitOf (t.getReg p.2).toNat i && !bitOf (s.getReg p.2).toNat i)).map (fun i => (p.1, i, max s.mtb u)) ∧
      t.resp = ST.OK := by
  rw [(eventPairs_block hp).1] at hb
  have e := (State.firmwareWrite_unaudited h hb w u).trans (State.checkedWrite_enables hp)
  have hi' : (s.advance u).Inv := hi
  obtain ⟨hw, he, hn, hr⟩ := hi'.enabled_takenWrite (b := b) hp w
  refine ⟨_, (eventEnableWrite_eq hp).trans (congrArg Host.Outcome.next e), hw, he, ?_, hr⟩
  rw [hn, hw]
  rfl

theorem eventEnableWrite_enables_recorded (hi : s.Inv) (hp : p ∈ eventPairs) (h : s.opens b p.2 = true)
    (hb : auditedBlocks.contains (blockOf p.1) = true) (hr : s.auditRoom = true) :
    Completes (.eventEnableWrite b (BitVec.ofNat 32 p.2) w u) s fun t =>
      t.getReg p.2 = (w &&& regAccessMask .rw p.2) ||| (s.getReg p.2 &&& ~~~ regAccessMask .rw p.2) ∧
      t.getReg p.1 = ((s.advance u).recordedWrite b p.2 w).getReg p.1 ∧ t.resp = ST.OK := by
  obtain ⟨hblock, hne⟩ := eventPairs_block hp
  rw [hblock] at hb
  have e := (State.firmwareWrite_audited h hb hr w u).trans
    (((((State.opens_iff.mp h).2.advance u).recordedWrite w).writeBody w).trans (State.checkedWrite_enables hp))
  have hi' : ((s.advance u).recordedWrite b p.2 w).Inv := (State.recordedWrite_within _ _ _ _).inv hi
  obtain ⟨hw, he, -, ho⟩ := hi'.enabled_takenWrite (b := b) hp w
  refine ⟨_, (eventEnableWrite_eq hp).trans (congrArg Host.Outcome.next e), hw.trans ?_, he, ho⟩
  rw [State.enableWord, State.recordedWrite_getReg hne, State.getReg_advance]

end
end Sys2Proof.Machine

section
open Sys2Proof Sys2Proof.Machine

/-- Settles O1: the write that VIS grants is a field check, an action, an event register or a plain change, made at once or after
its record; a store to no register faults. -/
theorem registerAccess : Obligations.RegisterAccess := by
  unfold Obligations.RegisterAccess
  intro s hi
  refine ⟨?_, ?_, ?_, ?_, ?_, ?_, ?_, ?_, ?_⟩
  · exact fun b a w u h hb hf ha he h1 hp => registerWrite_changes_plain h hb hf ha he h1 hp
  · exact fun b a w u h hb hf => registerWrite_refuses h hb hf
  · exact fun b a w u h hb hr => ⟨_, congrArg Host.Outcome.next (State.firmwareWrite_audited h hb hr w u), rfl⟩
  · exact fun b a w u h hb hr _ ht => registerWrite_refuses_busy h hb hr ht
  · exact fun b a w n u hr hh hx hn hf => registerWrite_faults hi hr hh hx hn hf
  · exact fun b a w u h1 h hb => eventClear_clears hi h1 h hb
  · exact fun b a w u h1 h hb hr => eventClear_clears_recorded hi h1 h hb hr
  · exact fun b p w u hp h hb => eventEnableWrite_enables hi hp h hb
  · exact fun b p w u hp h hb hr => eventEnableWrite_enables_recorded hi hp h hb hr

end

namespace Sys2Proof.Machine
open Sys2Proof

/-! ### A field that keeps its value -/

/-- From `s` to `t` the invariant is kept and the field `f` keeps its value. -/
def State.KeepsF (f : Field) (s t : State) : Prop := s.Inv → t.Inv ∧ t.getF f = s.getF f

section
variable {f g : Field} {s t u : State}

theorem State.KeepsF.refl (f : Field) (s : State) : s.KeepsF f s := fun hi => ⟨hi, rfl⟩

theorem State.KeepsF.trans (h : s.KeepsF f t) (k : t.KeepsF f u) : s.KeepsF f u := by
  intro hi
  obtain ⟨ht, e⟩ := h hi
  obtain ⟨hu, e'⟩ := k ht
  exact ⟨hu, e'.trans e⟩

theorem State.KeepsF.ite {c : Prop} [Decidable c] (ht : s.KeepsF f t) (hu : s.KeepsF f u) : s.KeepsF f (if c then t else u) := by
  split
  · exact ht
  · exact hu

theorem State.KeepsF.mac (h : s.KeepsF f t) (m : Mac) : s.KeepsF f { t with mac := m } := h

theorem State.KeepsF.gd (h : s.KeepsF f t) (x : Ground) : s.KeepsF f { t with gd := x } := h

theorem State.KeepsF.isSet (h : s.KeepsF f t) (hi : s.Inv) : t.isSet f = s.isSet f := by
  rw [State.isSet, (h hi).2, State.isSet]

/-- What stays out of a field's block keeps the field. -/
theorem State.Within.keepsF {l : List Part} (h : State.Within l s t) (hr : Part.regs ∉ l)
    (hb : Part.block (regBlock f.addr) ∉ l) : s.KeepsF f t := fun hi => ⟨h.inv hi, State.getF_congr (h.regs hi hr _ hb)⟩

theorem State.keepsF_setF (s : State) (hg : g.lo + g.width ≤ 32) (hf : f.ok = true) (ha : g.apart f = true) (v : Nat) :
    s.KeepsF f (s.setF g v) := fun hi =>
  ⟨(State.setF_within (.refl [.regs] s) g (Or.inl (by decide)) v).inv hi, State.getF_setF_ne s g f v hg hf ha⟩

theorem State.keepsF_raise (s : State) (hg : g.lo + g.width ≤ 32) (hf : f.ok = true) (ha : g.apart f = true) :
    s.KeepsF f (s.raise g) := fun hi =>
  ⟨(State.raise_within (.refl [.regs, .notes] s) (by decide) g (Or.inl (by decide))).inv hi, State.getF_raise_ne s g f hg hf ha⟩

theorem State.keepsF_each {α : Type} (s : State) (l : List α) {k : State → α → State}
    (h : ∀ (t : State) a, t.KeepsF f (k t a)) :
    s.KeepsF f (s.each l k) :=
  State.each_induct (P := s.KeepsF f) l k (.refl f s) fun t a ht => ht.trans (h t a)

end

/-! ### Fields that nothing after a verdict's count writes

What follows a verdict writes to few fields of the MAC's, the ground tables' and the key engine's registers: those of
acknowledgements and of the duty account (R231, R239, R240), of learned paths (R353, R356), and of the DRBG (R229). -/

/-- Those fields, without the count of held transmissions, which each profile has once. -/
def loudFields : List Field :=
  [R.MAC_ACK_COUNT0_GIVEN_UP, R.MAC_EVENT_ACK_GIVEN_UP, R.MAC_ACK_COUNT1_EXCESS, R.MAC_EVENT_DUTY_LIMIT,
    R.GROUND_LPT_USE_EVICTS, R.GROUND_EVENT_LPT_EVICT, R.KEY_DRBG_REQS]

/-- A field of those three blocks that is none of those. -/
def Field.quiet (f : Field) : Bool :=
  f.ok && [12, 17, 18].contains (regBlock f.addr) && decide (f.addr < bankStride) && decide (f.addr ≠ R.MAC_DUTY_STAT_HELD.addr) &&
  loudFields.all (·.apart f)

/-- The parts in which a quiet field can stand. -/
def loudParts : List Part := [.regs, .block 12, .block 17, .block 18]

section
variable {f g : Field} {s t : State}

theorem loudFields_fit : ∀ g ∈ loudFields, g.lo + g.width ≤ 32 := by decide

theorem Field.quiet_iff : f.quiet = true ↔ f.ok = true ∧ regBlock f.addr ∈ [12, 17, 18] ∧ f.addr < bankStride ∧
    f.addr ≠ R.MAC_DUTY_STAT_HELD.addr ∧ ∀ g ∈ loudFields, g.apart f = true := by
  simp only [Field.quiet, Bool.and_eq_true, List.contains_iff_mem, decide_eq_true_eq, List.all_eq_true, and_assoc]

theorem Field.held_apart (hf : f.quiet = true) (p : Nat) : (R.MAC_DUTY_STAT_HELD.bank p).apart f = true := by
  obtain ⟨-, -, hlt, hne, -⟩ := Field.quiet_iff.mp hf
  have ha : (R.MAC_DUTY_STAT_HELD.bank p).addr ≠ f.addr := by
    simp only [Field.bank, bankStride, R.MAC_DUTY_STAT_HELD] at hlt hne ⊢
    omega
  simp only [Field.apart, ha, ne_eq, not_false_eq_true, decide_true, Bool.true_or]

/-- What stays out of the three blocks keeps a quiet field. -/
theorem State.Within.quiet {l : List Part} (h : State.Within l s t) (hf : f.quiet = true) (hl : ∀ p ∈ loudParts, p ∉ l) :
    s.KeepsF f t := by
  obtain ⟨-, hb, -⟩ := Field.quiet_iff.mp hf
  refine h.keepsF (hl _ (by decide)) (hl _ ?_)
  simp only [List.mem_cons, List.not_mem_nil, or_false] at hb
  rcases hb with hb | hb | hb <;> rw [hb] <;> decide

variable (hf : f.quiet = true) (s)
include hf

theorem State.quiet_setF (hg : g ∈ loudFields) (v : Nat) : s.KeepsF f (s.setF g v) := by
  obtain ⟨hok, -, -, -, ha⟩ := Field.quiet_iff.mp hf
  exact s.keepsF_setF (loudFields_fit g hg) hok (ha g hg) v

theorem State.quiet_bump (hg : g ∈ loudFields) : s.KeepsF f (s.bump g) := s.quiet_setF hf hg _

theorem State.quiet_raise (hg : g ∈ loudFields) : s.KeepsF f (s.raise g) := by
  obtain ⟨hok, -, -, -, ha⟩ := Field.quiet_iff.mp hf
  exact s.keepsF_raise (loudFields_fit g hg) hok (ha g hg)

/-! ### Acknowledgements (R239, R240) -/

theorem State.quiet_giveUp (e : Bool) : s.KeepsF f (s.giveUp e) := by
  have h : s.KeepsF f ((s.bump R.MAC_ACK_COUNT0_GIVEN_UP).raise R.MAC_EVENT_ACK_GIVEN_UP) :=
    (s.quiet_bump hf (by decide)).trans (State.quiet_raise _ hf (by decide))
  unfold State.giveUp
  split
  · exact h.trans (State.quiet_bump _ hf (by decide))
  · exact h

theorem State.quiet_unoweGiveUp (rx : Nat) (e : Bool) : s.KeepsF f ((s.unowe rx).giveUp e) :=
  ((State.unowe_within (.refl _ s) (List.Subset.refl _) rx).quiet hf (by decide)).trans (State.quiet_giveUp _ hf e)

theorem State.quiet_setLimit (p : Nat) (b : Bool) : s.KeepsF f (s.setLimit p b) := by
  have h : s.KeepsF f (s.raiseIf (b && !s.mac.atLimit.contains p) R.MAC_EVENT_DUTY_LIMIT) := by
    unfold State.raiseIf
    split
    · exact s.quiet_raise hf (by decide)
    · exact .refl f s
  exact h.mac _

theorem State.quiet_dutyRefuse (n : Nat) : s.KeepsF f (s.dutyRefuse n) := by
  obtain ⟨hok, -⟩ := Field.quiet_iff.mp hf
  exact (s.quiet_setLimit hf _ true).trans (State.keepsF_setF _ (by simp [Field.bank, R.MAC_DUTY_STAT_HELD]) hok
    (Field.held_apart hf _) _)

theorem State.quiet_braidTake (n dep fin budget : Nat) : s.KeepsF f (s.braidTake n dep fin budget) := by
  have hadd : ∀ k air, s.KeepsF f ((s.setLimit (s.profileOf n) false).dutyAdd k air) := fun k air =>
    (s.quiet_setLimit hf _ false).trans ((State.dutyAdd_within (.refl _ _) (List.Subset.refl _) k air).quiet hf (by decide))
  unfold State.braidTake
  dsimp only
  split
  · exact (hadd _ _).mac _
  · exact KeepsF.mac (t := (s.dutyTake n dep (s.braidGrows n dep fin)).2) (hadd _ _) _

theorem State.quiet_issueAck (n : Nat) (a : Owed) (dep budget : Nat) (e : Bool) : s.KeepsF f (s.issueAck n a dep budget e) := by
  have hs : s.KeepsF f (s.ackSeal a).2 := (State.ackSeal_within (.refl _ s) (List.Subset.refl _) a).of.quiet hf (by decide)
  unfold State.issueAck
  dsimp only
  split
  · next t ht =>
    rw [ht] at hs
    exact hs.trans (t.quiet_unoweGiveUp hf _ _)
  · next x t ht =>
    rw [ht] at hs
    refine (hs.trans ?_).trans ((State.macIssue_within (State.useFree_within (.refl _ _) (by decide)) (List.Subset.refl _) ..).quiet hf
      (by decide))
    exact ((State.unowe_within (.refl _ t) (List.Subset.refl _) a.rx).quiet hf (by decide)).trans (State.quiet_braidTake _ hf _ _ _ _)

theorem State.quiet_addMember (n first budget : Nat) (e : Bool) (a : Owed) : s.KeepsF f (s.addMember n first budget e a) := by
  unfold State.addMember
  dsimp only
  split
  · exact s.quiet_unoweGiveUp hf _ _
  · split
    · exact (((State.unowe_within (.refl _ s) (List.Subset.refl _) a.rx).quiet hf (by decide)).trans
        (State.quiet_dutyRefuse _ hf n)).trans (State.quiet_giveUp _ hf false)
    · exact s.quiet_issueAck hf _ _ _ _ _

theorem State.quiet_appendAck (n : Nat) (a : Owed) : s.KeepsF f (s.appendAck n a) := by
  unfold State.appendAck
  split
  · exact .refl f s
  · exact s.quiet_addMember hf _ _ _ _ _

theorem State.quiet_groupPlan (n : Nat) (cut : Bool) (fuel : Nat) : s.KeepsF f (s.groupPlan n cut fuel).1 := by
  induction fuel generalizing s with
  | zero => exact .refl f s
  | succ fuel ih =>
    unfold State.groupPlan
    split
    · exact .refl f s
    · dsimp only
      split
      · refine KeepsF.trans ?_ (ih _)
        exact s.keepsF_each _ fun t a => t.quiet_unoweGiveUp hf a.rx false
      · exact .refl f s

theorem State.quiet_group (n : Nat) : s.KeepsF f (s.group n) := by
  have h := s.quiet_groupPlan hf n false (s.mac.owed.length + 1)
  unfold State.group
  split
  · exact s.keepsF_each _ fun t a => t.quiet_appendAck hf n a
  · split
    · next t ht =>
      rw [ht] at h
      exact h.mac _
    · next t d r ht =>
      rw [ht] at h
      exact h.mac _

/-! ### Learned paths (R353, R356) -/

theorem State.quiet_lptAlloc (n : Nat) : s.KeepsF f (s.lptAlloc n).2 := by
  unfold State.lptAlloc
  dsimp only
  split
  · exact (KeepsF.refl f s).gd _
  · split
    · exact .refl f s
    · next k e he =>
      exact (State.quiet_bump (s.setLpt k ⟨n, none, List.replicate 8 {}⟩) hf (by decide)).trans (State.quiet_raise _ hf (by decide))

theorem State.quiet_teach (n trx path : Nat) (rssi diff : Int) (other : Bool) (chan : Nat) :
    s.KeepsF f (s.teach n trx path rssi diff other chan).1 := by
  have hgot : s.KeepsF f (match s.lptOf n with
      | some (k, _) => (k, s)
      | none => ((s.lptAlloc n).1, (s.lptAlloc n).2.recPut n 94 2 (0x8000 + (s.lptAlloc n).1))).2 := by
    split
    · exact .refl f s
    · exact (s.quiet_lptAlloc hf n).trans ((State.recPut_within (.refl _ _) (List.Subset.refl _) ..).quiet hf (by decide))
  unfold State.teach
  extract_lets got k t
  split
  · exact hgot
  · exact (hgot.gd _).gd _

theorem State.quiet_rxTaught (r : Rx) (h : MacHdr) (taught : Bool) : s.KeepsF f (s.rxTaught r h taught) := by
  unfold State.rxTaught
  split
  · exact s.quiet_teach hf _ _ _ _ _ _ _
  · exact .refl f s

/-! ### An acknowledgement for the device (R226) -/

theorem State.quiet_csmaKick : s.KeepsF f s.csmaKick := by
  unfold State.csmaKick
  split
  · exact .refl f s
  · refine s.keepsF_each _ fun t x => ?_
    split
    · split
      · exact .refl f t
      · dsimp only
        split
        · exact (State.csmaSense_within (.refl _ t) (List.Subset.refl _) ..).quiet hf (by decide)
        · exact State.quiet_setF t.useFree hf (g := R.KEY_DRBG_REQS) (by decide) _
    · exact .refl f t

theorem State.quiet_ackArrived (r : Rx) (h : MacHdr) : s.KeepsF f (s.ackArrived r h) := by
  unfold State.ackArrived
  split
  · exact .refl f s
  · next id x hx =>
    have he := (State.frameEnd_within (.refl _ s) (List.Subset.refl _) id ST.OK).quiet hf (by decide)
    dsimp only
    split
    · have hd := he.trans ((State.actDel_within (.refl _ _) (List.Subset.refl _) x.req.node).quiet hf (by decide))
      split
      · exact hd.trans ((State.observe_within (.refl _ _) (List.Subset.refl _) ..).quiet hf (by decide))
      · exact hd.trans ((State.tracking_within (.refl _ _) (List.Subset.refl _) _).quiet hf (by decide))
    · exact he.trans (State.quiet_csmaKick _ hf)

end
end Sys2Proof.Machine

namespace Sys2Proof.Machine
open Sys2Proof

/-! ### The end of a reception (R18, R233) -/

section
variable {f : Field} {s t : State} {k : Nat} {r : Rx}

theorem State.Within.rx? {l : List Part} (h : State.Within l s t) (hl : Part.rd ∉ l) (k : Nat) : t.rx? k = s.rx? k := by
  have hrd : t.rd = s.rd := h.same .rd hl
  rw [State.rx?, hrd, State.rx?]

theorem State.rx?_putRx (s : State) (k : Nat) (r : Rx) : (s.putRx k r).rx? k = some r := Store.find?_put_same _ k r

theorem State.rx?_delRx (s : State) (k : Nat) : (s.delRx k).rx? k = none := Store.find?_del_same _ k

theorem State.rx?_rxClose (s : State) (k : Nat) (r : Rx) (h : MacHdr) (v pan note : Nat) :
    (s.rxClose k r h v pan note).rx? k = none := by
  unfold State.rxClose
  dsimp only
  split
  · exact State.rx?_delRx _ k
  · split
    · rw [(State.joinEntry_within (.refl _ _) (List.Subset.refl _) ..).rx? (by decide)]
      exact State.rx?_delRx _ k
    · split
      · exact State.rx?_delRx _ k
      · split
        · exact State.rx?_delRx _ k
        · split
          · exact State.rx?_delRx _ k
          · split <;> exact State.rx?_delRx _ k

/-- The state in which a verdict is counted and what it says of the paths that were taught is done (R353). -/
def State.rxCounted (s : State) (r : Rx) (v : Nat) : State :=
  if (v = 0 || v = 2) || r.undo = [] then s.countVerdict v else (s.countVerdict v).unteach r.undo

/-- What a verdict makes of a reception: without a header its task is withdrawn; so it is where the unit does not send; else the
shadow entry, the node's clock, the acknowledgement, the note and the commit follow before the reception closes. -/
theorem State.rxFinish_cases {P : State → Prop} {v : Nat} (hr : s.rx? k = some r)
    (headless : P (((s.rxCounted r v).rxWithdraw r).delRx k))
    (silent : ∀ h taught, P ((((s.rxCounted r v).rxTaught r h taught).rxWithdraw r).delRx k))
    (shadow : ∀ h taught, P (((((s.rxCounted r v).rxTaught r h taught).bump R.PAIR_COUNT1_SHADOW).rxWithdraw r).delRx k))
    (closed : ∀ h taught counter pan a owes d commit new note, P ((((((((s.rxCounted r v).rxTaught r h taught).rxShadow
      r.node counter new).sleepSeen r h pan v).rxOwes a owes).noteWrite r 40 d).rxCommit r commit new).rxClose k r h v pan note)) :
    P (s.rxFinish k v) := by
  unfold State.rxFinish
  split
  · next hr' => rw [hr] at hr'; cases hr'
  next r' hr' =>
  obtain rfl : r = r' := Option.some.inj (hr.symm.trans hr')
  extract_lets c taught u pan
  split
  · exact headless
  · next h hh =>
    extract_lets x new y note commit owes a z gone ack
    split
    · split
      · exact shadow h taught
      · exact silent h taught
    · exact closed h taught h.counter pan a owes _ commit new note

/-- A verdict ends its reception. -/
theorem State.rx?_rxFinish (s : State) (k v : Nat) : (s.rxFinish k v).rx? k = none := by
  cases hr : s.rx? k with
  | none =>
    unfold State.rxFinish
    rw [hr]
    exact hr
  | some r =>
    exact State.rxFinish_cases (P := fun t => t.rx? k = none) hr (State.rx?_delRx _ k) (fun _ _ => State.rx?_delRx _ k)
      (fun _ _ => State.rx?_delRx _ k) (fun _ _ _ _ _ _ _ _ _ _ => State.rx?_rxClose ..)

/-! ### What a verdict leaves -/

section
variable (hf : f.quiet = true) (s)
include hf

theorem State.quiet_rxDrop (k : Nat) (r : Rx) : s.KeepsF f ((s.rxWithdraw r).delRx k) :=
  (State.delRx_within (State.rxWithdraw_within (.refl [.block 16, .block 21, .ky, .mac, .mem, .ms, .out, .pa, .pl, .queues, .rd] s)
    (by decide) r) (by decide) k).quiet hf (by decide)

theorem State.quiet_rxClose (k : Nat) (r : Rx) (h : MacHdr) (v pan note : Nat) : s.KeepsF f (s.rxClose k r h v pan note) := by
  unfold State.rxClose
  dsimp only
  split
  · refine KeepsF.trans ?_ (State.quiet_rxDrop _ hf k r)
    refine State.KeepsF.ite (s.quiet_ackArrived hf r h) (.refl f s)
  · split
    · refine (KeepsF.trans ?_ (State.quiet_rxDrop _ hf k r)).trans
        ((State.joinEntry_within (.refl _ _) (List.Subset.refl _) ..).quiet hf (by decide))
      split
      · exact (State.dropBuf_within (.refl _ s) (List.Subset.refl _) _).quiet hf (by decide)
      · exact .refl f s
    · split
      · exact s.quiet_rxDrop hf k r
      · split
        · exact (State.delRx_within (.refl _ s) (List.Subset.refl _) k).quiet hf (by decide)
        · split
          · exact (State.delRx_within (.refl _ s) (List.Subset.refl _) k).quiet hf (by decide)
          · split
            · refine KeepsF.trans ?_ (State.quiet_rxDrop _ hf k r)
              exact (State.emit_within (State.raise_within (State.bump_within (.refl [.block 14, .notes, .out] s) _
                (Or.inr (by simp))) (by decide) _ (Or.inr (by simp))) (by decide) _).quiet hf (by decide)
            · exact (State.delRx_within (State.fillInline_within (.refl [.block 14, .mem, .notes, .pl, .rd] s) (by decide) ..)
                (by decide) k).quiet hf (by decide)

theorem State.quiet_rxOwes (a : Owed) (owes : Bool) : s.KeepsF f (s.rxOwes a owes) := by
  unfold State.rxOwes
  split
  · exact State.quiet_group { s with mac := { s.mac with owed := s.mac.owed ++ [a] } } hf a.trx
  · exact .refl f s

/-- So with what a verdict makes of a reception with a header, where the unit sends. -/
theorem State.quiet_rxFollowed (k : Nat) (r : Rx) (h : MacHdr) (v counter pan : Nat) (a : Owed) (owes : Bool) (d : List Byte)
    (commit : Commit) (new : Bool) (note : Nat) : s.KeepsF f ((((((s.rxShadow r.node counter new).sleepSeen r h pan v).rxOwes a
      owes).noteWrite r 40 d).rxCommit r commit new).rxClose k r h v pan note) := by
  have hseen : s.KeepsF f ((s.rxShadow r.node counter new).sleepSeen r h pan v) :=
    (State.sleepSeen_within (State.rxShadow_within (.refl [.block 13, .block 21, .mac, .mem, .notes, .out, .pa, .sl] s)
      (by decide) ..) (by decide) ..).quiet hf (by decide)
  have howed := hseen.trans (State.quiet_rxOwes _ hf a owes)
  have hnoted := howed.trans ((State.rxCommit_within (State.noteWrite_within (.refl [.mem, .pl] _) (by decide) r 40 d) (by decide)
    r commit new).quiet hf (by decide))
  exact hnoted.trans (State.quiet_rxClose _ hf k r h v pan note)

/-- Once a verdict is counted, nothing that follows it writes to a quiet field. -/
theorem State.quiet_rxFinish (hr : s.rx? k = some r) (v : Nat) : (s.countVerdict v).KeepsF f (s.rxFinish k v) := by
  have hu : (s.countVerdict v).KeepsF f (s.rxCounted r v) :=
    .ite (.refl f _) ((State.unteach_within (.refl _ _) (List.Subset.refl _) r.undo).quiet hf (by decide))
  have hx : ∀ h taught, (s.countVerdict v).KeepsF f ((s.rxCounted r v).rxTaught r h taught) := fun h taught =>
    hu.trans (State.quiet_rxTaught _ hf r h taught)
  refine State.rxFinish_cases (P := (s.countVerdict v).KeepsF f) hr ?_ ?_ ?_ ?_
  · exact hu.trans (State.quiet_rxDrop _ hf k r)
  · exact fun h taught => (hx h taught).trans (State.quiet_rxDrop _ hf k r)
  · exact fun h taught => ((hx h taught).trans ((State.bump_within (.refl [.block 21] _) R.PAIR_COUNT1_SHADOW
      (Or.inr (by simp))).quiet hf (by decide))).trans (State.quiet_rxDrop _ hf k r)
  · exact fun h taught counter pan a owes d commit new note =>
      (hx h taught).trans (State.quiet_rxFollowed _ hf k r h v counter pan a owes d commit new note)

/-- Judging a reception writes to no quiet field that is not the MAC's. -/
theorem State.quiet_rxJudge (hb : regBlock f.addr ≠ 12) (k : Nat) : s.KeepsF f (s.rxJudge k) := by
  have hend : ∀ (t : State) (v : Nat), t.KeepsF f (t.rxFinish k v) := by
    intro t v
    cases hr : t.rx? k with
    | none =>
      unfold State.rxFinish
      rw [hr]
      exact .refl f t
    | some r =>
      exact ((State.countVerdict_within (.refl _ t) (List.Subset.refl _) v).keepsF (by decide) (by simpa using hb)).trans
        (t.quiet_rxFinish hf hr v)
  unfold State.rxJudge
  split
  · exact .refl f s
  · next r hr =>
    split
    · exact .refl f s
    · exact hend s 4
    · extract_lets secured other taught t
      have ht : s.KeepsF f t := by
        unfold t
        split
        · exact (s.quiet_teach hf _ _ _ _ _ _ _).trans ((State.putRx_within (.refl _ _) (List.Subset.refl _) ..).quiet hf (by decide))
        · exact .refl f s
      split
      · exact ht
      · next q hq =>
        have hv := State.rxVerdict_within (.refl _ t) (List.Subset.refl _) q
        split
        · exact ht
        · next v u hu => exact (ht.trans ((withinO_elim hu hv).quiet hf (by decide))).trans (hend u v)

end

/-! ### The verdict of a reception (Table 10.5) -/

theorem State.rxJudge_open (hr : s.rx? k = some r) (hf : r.fcs = none) : s.rxJudge k = s := by
  unfold State.rxJudge
  rw [hr]
  simp only [hf]

/-- A reception that has taught already, with a good FCS, ends with its verdict. -/
theorem State.rxJudge_verdict {v : Nat} (hr : s.rx? k = some r) (hf : r.fcs = some true) (hu : r.undo ≠ [])
    (hv : (s.rxVerdict r).map (·.1) = some v) : ∃ t, State.Within [.mac] s t ∧ s.rxJudge k = t.rxFinish k v := by
  obtain ⟨⟨v', t⟩, ht, rfl⟩ := Option.map_eq_some_iff.mp hv
  refine ⟨t, withinO_elim ht (State.rxVerdict_within (.refl _ s) (List.Subset.refl _) r), ?_⟩
  unfold State.rxJudge
  rw [hr]
  simp only [hf, hu, decide_false, Bool.and_false, Bool.false_eq_true, if_false, hr, ht]

theorem State.dupVerdict_putRx (s : State) (k : Nat) (q : Rx) (pan : Nat) (h : MacHdr) :
    ((s.putRx k q).dupVerdict pan h).1 = (s.dupVerdict pan h).1 := by
  have hl : ∀ t, (s.putRx k q).dupLive t = s.dupLive t := fun _ => rfl
  have hm : (s.putRx k q).mtb = s.mtb := rfl
  unfold State.dupVerdict
  cases dupKey pan h with
  | none => rfl
  | some key =>
    simp only [hl, hm]
    split <;> rfl

/-- What a reception's verdict is does not rest on the receptions that the radio keeps. -/
theorem State.rxVerdict_putRx (s : State) (k : Nat) (q r : Rx) :
    ((s.putRx k q).rxVerdict r).map (·.1) = (s.rxVerdict r).map (·.1) := by
  have hp : ∀ p, (s.putRx k q).panRec p = s.panRec p := fun _ => rfl
  have hg : ∀ g, (s.putRx k q).getF g = s.getF g := fun _ => rfl
  have hi : ∀ g, (s.putRx k q).isSet g = s.isSet g := fun _ => rfl
  have hc : ∀ o z, (s.putRx k q).copyGet r o z = s.copyGet r o z := fun o z => by
    have hr : (s.putRx k q).rxRecord r = s.rxRecord r := rfl
    unfold State.copyGet
    rw [hr]
    cases s.rxRecord r with
    | none => rfl
    | some a => exact congrArg leNat (State.readBytes_congr (t := s.putRx k q) (s := s) rfl (a + o) z)
  have hv : ∀ h, (s.putRx k q).counterVerdict r h = s.counterVerdict r h := fun _ => rfl
  have hd := s.dupVerdict_putRx k q
  unfold State.rxVerdict
  cases r.hdr with
  | none => rfl
  | some h =>
    simp only [hp, hg, hi, hc, hv, hd, apply_ite (Option.map fun p : Nat × State => p.1), Option.map_some]
    cases r.ccm with
    | none => rfl
    | some ok => cases ok <;> rfl

theorem State.getF_bump (s : State) (hf : f.ok = true) : (s.bump f).getF f = min f.max (s.getF f + 1) := by
  have hm : min f.max (s.getF f + 1) < 2 ^ f.width :=
    lt_of_le_of_lt (Nat.min_le_left _ _) (Nat.sub_lt (Nat.two_pow_pos _) Nat.one_pos)
  rw [State.bump_eq, State.getF_setF_same _ _ _ hf, Nat.mod_eq_of_lt hm]

/-- What a verdict counts stands when its reception has ended. -/
theorem State.getF_rxFinish {v : Nat} (hi : s.Inv) (hr : s.rx? k = some r) (hf : f.quiet = true)
    (hc : s.countVerdict v = s.bump f) : (s.rxFinish k v).getF f = min f.max (s.getF f + 1) := by
  have hci := (State.countVerdict_within (.refl _ s) (List.Subset.refl _) v).inv hi
  rw [(s.quiet_rxFinish hf hr v hci).2, hc, s.getF_bump (Field.quiet_iff.mp hf).1]

end
end Sys2Proof.Machine

namespace Sys2Proof.Machine
open Sys2Proof

/-! ### What the commands of the receive pipeline do -/

section
variable {s : State} {k : Nat} {r : Rx} {h : MacHdr}

/-- Where nothing is owed, grouping writes to no register. -/
theorem State.group_regs {n : Nat} (ho : s.owedOf n = []) : (s.group n).regs = s.regs := by
  have hp : s.groupPlan n false (s.mac.owed.length + 1) = (s, none) := by simp only [State.groupPlan, ho]
  unfold State.group
  split
  · rw [ho]
    rfl
  · rw [hp]

theorem sourceAddressComplete_heads (hr : s.rx? k = some r) (hh : r.hdr = none) (hk : r.known = true) (h : MacHdr) (c : ClockIe) :
    Completes (.sourceAddressComplete k h c) s fun t =>
      t.rx? k = some { r with hdr := some h, clock := c, pan := s.hdrPan (laneTrx r.lane) h, badHdr := s.hdrBad (laneTrx r.lane) h } ∧
      (s.owedOf (laneTrx r.lane) = [] → t.regs = s.regs) := by
  let q : Rx := { r with hdr := some h, clock := c, pan := s.hdrPan (laneTrx r.lane) h, badHdr := s.hdrBad (laneTrx r.lane) h }
  have e : exec (.sourceAddressComplete k h c) s = .next
      (if (Store.find? (laneTrx r.lane) s.mac.braids).isNone then (s.putRx k q).group (laneTrx r.lane) else s.putRx k q) := by
    change execSourceAddressComplete k h c s = _
    have hg : (r.hdr.isSome || !r.known) = false := by rw [hh, hk]; rfl
    simp only [execSourceAddressComplete, hr, hg, Bool.false_eq_true, if_false]
    rfl
  refine ⟨_, e, ?_, fun ho => ?_⟩
  · split
    · rw [(State.group_within (.refl _ _) (List.Subset.refl _) _).rx? (by decide)]
      exact s.rx?_putRx k q
    · exact s.rx?_putRx k q
  · split
    · exact State.group_regs ho
    · rfl

theorem execSourceAddressComplete_gone (hr : s.rx? k = none) (h : MacHdr) (c : ClockIe) :
    execSourceAddressComplete k h c s = .next s := by
  simp only [execSourceAddressComplete, hr]

/-! ### The record that goes to pin 2 (R339, R340) -/

theorem State.rx?_pin2 (s : State) (k : Nat) (r : Rx) (n : Nat) (d : List Byte) :
    (s.pin2 k r n d).rx? k = some { r with node := n, record := true } := by
  unfold State.pin2
  split <;> exact State.rx?_putRx ..

theorem State.rxJudge_pin2 (hf : r.fcs = none) (n : Nat) (d : List Byte) : (s.pin2 k r n d).rxJudge k = s.pin2 k r n d :=
  State.rxJudge_open (s.rx?_pin2 k r n d) hf

theorem execAddressLookupDone_next (hr : s.rx? k = some r) (hh : r.hdr = some h) (hl : r.looked = false) (hb : r.badHdr = 0) :
    execAddressLookupDone k s = .next (if s.lookedUp h = nodeNone
      then ((s.putRx k { r with looked := true, node := s.lookedUp h }).pin2 k { r with looked := true, node := s.lookedUp h }
        nodeNone (s.noneRecord h)).rxJudge k
      else s.putRx k { r with looked := true, node := s.lookedUp h }) := by
  simp only [execAddressLookupDone, hr, hh, hl, hb, ne_eq, not_true_eq_false, decide_false, Bool.or_self, Bool.false_eq_true, if_false]
  change (if s.lookedUp h = nodeNone then _ else _) = _
  split <;> rfl

theorem addressLookupDone_looks (hr : s.rx? k = some r) (hh : r.hdr = some h) (hl : r.looked = false) (hb : r.badHdr = 0) :
    Completes (.addressLookupDone k) s fun t =>
      (s.lookedUp h ≠ nodeNone → t = s.putRx k { r with looked := true, node := s.lookedUp h }) ∧
      (s.lookedUp h = nodeNone ∧ r.fcs = none → (t.rx? k).map (fun x => (x.looked, x.node, x.record)) = some (true, nodeNone, true)) ∧
      (r.fcs = none → t.mac = s.mac) := by
  refine ⟨_, execAddressLookupDone_next hr hh hl hb, fun hn => if_neg hn, fun ⟨hn, hf⟩ => ?_, fun hf => ?_⟩
  · rw [if_pos hn, State.rxJudge_pin2 (by exact hf), State.rx?_pin2]
    rfl
  · split
    · rw [State.rxJudge_pin2 (by exact hf)]
      exact (State.pin2_within (State.putRx_within (.refl _ s) (by decide) ..) (List.Subset.refl _) ..).same .mac (by decide)
    · rfl

theorem execAddressLookupDone_idle (hr : s.rx? k = some r) (h : r.hdr = none ∨ r.looked = true ∨ r.badHdr ≠ 0) :
    execAddressLookupDone k s = .next s := by
  simp only [execAddressLookupDone, hr]
  split
  · rfl
  · next x hx =>
    have hl : (r.looked || decide (r.badHdr ≠ 0)) = true := by simpa [hx] using h
    rw [hl, if_pos rfl]

theorem execNodeRecordReadDone_fits (hr : s.rx? k = some r) (hh : r.hdr = some h) (hl : r.looked = true) (hc : r.record = false)
    (hfit : s.recordFits r.node h = true) : execNodeRecordReadDone k s =
      .next ((s.pin2 k { r with epoch := Store.get (fun _ => 0) s.gd.keyEpoch r.node } r.node
        (s.readBytes (s.recAddr r.node 0) 256)).rxJudge k) := by
  simp only [execNodeRecordReadDone, hr, hh, hl, hc, hfit, Bool.not_true, Bool.or_self, Bool.false_eq_true, if_false, if_true]

theorem execNodeRecordReadDone_stale (hr : s.rx? k = some r) (hh : r.hdr = some h) (hl : r.looked = true) (hc : r.record = false)
    (hfit : s.recordFits r.node h = false) : execNodeRecordReadDone k s =
      .next ((((s.bump R.GROUND_COUNT0_LO).raise R.GROUND_EVENT_STALE_KEY).pin2 k r nodeNone
        (((s.bump R.GROUND_COUNT0_LO).raise R.GROUND_EVENT_STALE_KEY).noneRecord h)).rxJudge k) := by
  simp only [execNodeRecordReadDone, hr, hh, hl, hc, hfit, Bool.not_true, Bool.or_self, Bool.false_eq_true, if_false]

/-- The report of a stale key stands whatever the reception's checks then say. -/
theorem State.isSet_staleKey (hi : s.Inv) (n : Nat) (d : List Byte) :
    (((s.raise R.GROUND_EVENT_STALE_KEY).pin2 k r n d).rxJudge k).isSet R.GROUND_EVENT_STALE_KEY = true := by
  have hp := (State.pin2_within (.refl _ (s.raise R.GROUND_EVENT_STALE_KEY)) (List.Subset.refl _) k r n d).quiet
    (f := R.GROUND_EVENT_STALE_KEY) (by decide) (by decide)
  have hri := (State.raise_within (.refl [.block 17, .notes] s) (by decide) R.GROUND_EVENT_STALE_KEY (Or.inr (by simp))).inv hi
  rw [(hp.trans (State.quiet_rxJudge _ (by decide) (by decide) k)).isSet hri, s.isSet_raise_same (by decide) (by decide)]

theorem nodeRecordReadDone_takes (hi : s.Inv) (hr : s.rx? k = some r) (hh : r.hdr = some h) (hl : r.looked = true)
    (hc : r.record = false) : Completes (.nodeRecordReadDone k) s fun t =>
      (s.recordFits r.node h = true ∧ r.fcs = none → (t.rx? k).map (fun x => (x.record, x.node, x.epoch)) =
        some (true, r.node, Store.get (fun _ => 0) s.gd.keyEpoch r.node)) ∧
      (s.recordFits r.node h = false → t.isSet R.GROUND_EVENT_STALE_KEY = true) ∧
      (s.recordFits r.node h = false ∧ r.fcs = none → (t.rx? k).map (fun x => (x.record, x.node)) = some (true, nodeNone)) := by
  cases hfit : s.recordFits r.node h with
  | true =>
    refine ⟨_, execNodeRecordReadDone_fits hr hh hl hc hfit, fun ⟨_, hf⟩ => ?_, nofun, nofun⟩
    rw [State.rxJudge_pin2 (by exact hf), State.rx?_pin2]
    rfl
  | false =>
    have hbi := (State.bump_within (.refl [.block 17] s) R.GROUND_COUNT0_LO (Or.inr (by simp))).inv hi
    refine ⟨_, execNodeRecordReadDone_stale hr hh hl hc hfit, nofun, fun _ => State.isSet_staleKey hbi _ _, fun ⟨_, hf⟩ => ?_⟩
    rw [State.rxJudge_pin2 hf, State.rx?_pin2]
    rfl

theorem execNodeRecordReadDone_idle (hr : s.rx? k = some r) (h : r.hdr = none ∨ r.looked = false ∨ r.record = true) :
    execNodeRecordReadDone k s = .next s := by
  simp only [execNodeRecordReadDone, hr]
  split
  · rfl
  · next x hx =>
    have hl : (!r.looked || r.record) = true := by simpa [hx] using h
    rw [hl, if_pos rfl]

/-! ### Link keys and contexts (R412) -/

theorem State.takeCtx_rx? (s : State) (k : Nat) (r : Rx) (c : Nat) : (s.takeCtx k r c).rx? k = some { r with ctx := some c } :=
  State.rx?_putRx ..

theorem State.takeCtx_ky (s : State) (k : Nat) (r : Rx) (c : Nat) :
    (s.takeCtx k r c).ky = { s.ky with ctxs := s.ky.ctxs ++ [c] } := by
  unfold State.takeCtx
  dsimp only
  split
  · split <;> rfl
  · rfl

theorem State.rxJudge_takeCtx (hf : r.fcs = none) (c : Nat) : (s.takeCtx k r c).rxJudge k = s.takeCtx k r c :=
  State.rxJudge_open (s.takeCtx_rx? k r c) hf

/-- A reception for which no context is free waits in order, once. -/
def State.ctxWait (s : State) (r : Rx) : State :=
  match r.task with
  | some i => if s.ky.waiters.contains i then s
      else ({ s with ky := { s.ky with waiters := s.ky.waiters ++ [i] } }).bump R.KEY_CTX_WAITS
  | none => s

theorem State.ctxWait_waits {i : Nat} (ht : r.task = some i) (hw : s.ky.waiters.contains i = false) :
    (s.ctxWait r).ky.waiters = s.ky.waiters ++ [i] ∧ (s.ctxWait r).rd = s.rd := by
  unfold State.ctxWait
  simp only [ht, hw, Bool.false_eq_true, if_false]
  exact ⟨rfl, rfl⟩

/-- A secured frame with a record and a key, whose link key is neither loaded nor failed: the frame of which KEY_UNWRAP_DONE speaks. -/
structure State.Unwraps (s : State) (k : Nat) (r : Rx) (h : MacHdr) : Prop where
  rx : s.rx? k = some r
  hdr : r.hdr = some h
  secured : h.secured = true
  record : r.record = true
  node : r.node ≠ nodeNone
  ctx : r.ctx = none
  noKey : r.noKey = false
  key : bitOf (s.copyGet r 13 1) 1 = true

theorem State.Unwraps.gate (u : s.Unwraps k r h) : (!h.secured || !r.record || decide (r.node = nodeNone) || r.ctx.isSome ||
    r.noKey || !bitOf (s.copyGet r 13 1) 1) = false := by
  rw [u.secured, u.record, decide_eq_false u.node, u.ctx, u.noKey, u.key]
  rfl

theorem execKeyUnwrapDone_fails (u : s.Unwraps k r h) (hl : s.linkKey r = none) : execKeyUnwrapDone k s =
    .next (((s.bump R.KEY_COUNT0_UNWRAP_FAIL).putRx k { r with noKey := true }).rxJudge k) := by
  unfold execKeyUnwrapDone
  simp only [u.rx, u.hdr, u.gate, hl, Bool.false_eq_true, if_false]

theorem execKeyUnwrapDone_loads {v c : Nat} (u : s.Unwraps k r h) (hl : s.linkKey r = some v) (hf : s.freeCtx = some c) :
    execKeyUnwrapDone k s = .next ((s.takeCtx k r c).rxJudge k) := by
  unfold execKeyUnwrapDone
  simp only [u.rx, u.hdr, u.gate, hl, hf, Bool.false_eq_true, if_false]

theorem execKeyUnwrapDone_waits {v : Nat} (u : s.Unwraps k r h) (hl : s.linkKey r = some v) (hf : s.freeCtx = none) :
    execKeyUnwrapDone k s = .next (s.ctxWait r) := by
  unfold execKeyUnwrapDone State.ctxWait
  simp only [u.rx, u.hdr, u.gate, hl, hf, Bool.false_eq_true, if_false]
  cases r.task with
  | none => rfl
  | some i =>
    dsimp only
    split <;> rfl

theorem keyUnwrapDone_unwraps (hi : s.Inv) (u : s.Unwraps k r h) : Completes (.keyUnwrapDone k) s fun t =>
      (s.linkKey r = none → t.getF R.KEY_COUNT0_UNWRAP_FAIL = min R.KEY_COUNT0_UNWRAP_FAIL.max (s.getF R.KEY_COUNT0_UNWRAP_FAIL + 1)) ∧
      (s.linkKey r = none → r.fcs = none → (t.rx? k).map (fun x => x.noKey) = some true) ∧
      (s.linkKey r ≠ none → r.fcs = none → ∀ c, s.freeCtx = some c →
        (t.rx? k).map (fun x => x.ctx) = some (some c) ∧ t.ky.ctxs = s.ky.ctxs ++ [c]) ∧
      (s.linkKey r ≠ none → s.freeCtx = none → ∀ i, r.task = some i → s.ky.waiters.contains i = false →
        t.ky.waiters = s.ky.waiters ++ [i] ∧ t.rd = s.rd) := by
  cases hl : s.linkKey r with
  | none =>
    refine ⟨_, execKeyUnwrapDone_fails u hl, fun _ => ?_, fun _ hf => ?_, fun hne => absurd rfl hne, fun hne => absurd rfl hne⟩
    · have hbi := (State.bump_within (.refl [.block 18] s) R.KEY_COUNT0_UNWRAP_FAIL (Or.inr (by simp))).inv hi
      have hj := State.quiet_rxJudge ((s.bump R.KEY_COUNT0_UNWRAP_FAIL).putRx k { r with noKey := true })
        (f := R.KEY_COUNT0_UNWRAP_FAIL) (by decide) (by decide) k
      rw [(hj hbi).2]
      exact s.getF_bump (by decide)
    · rw [State.rxJudge_open (State.rx?_putRx ..) (by exact hf), State.rx?_putRx]
      rfl
  | some v =>
    cases hfree : s.freeCtx with
    | some c =>
      refine ⟨_, execKeyUnwrapDone_loads u hl hfree, nofun, nofun, fun _ hf c' hc' => ?_, nofun⟩
      cases hc'
      rw [State.rxJudge_takeCtx hf, State.takeCtx_rx?, State.takeCtx_ky]
      exact ⟨rfl, rfl⟩
    | none => exact ⟨_, execKeyUnwrapDone_waits u hl hfree, nofun, nofun, nofun, fun _ _ i ht hw => State.ctxWait_waits ht hw⟩

theorem execKeyUnwrapDone_idle (hr : s.rx? k = some r)
    (h : r.record = false ∨ r.node = nodeNone ∨ r.ctx ≠ none ∨ r.noKey = true) : execKeyUnwrapDone k s = .next s := by
  have hc : (!r.record || decide (r.node = nodeNone) || r.ctx.isSome || r.noKey) = true := by
    simpa [Option.isSome_iff_ne_none, or_assoc] using h
  simp only [execKeyUnwrapDone, hr]
  rw [if_pos]
  simp only [Bool.or_eq_true, or_assoc] at hc ⊢
  tauto

theorem exec_ccmContextFree (s : State) : exec .ccmContextFree s = execCcmContextFree s := rfl

theorem ccmContextFree_serves {c i : Nat} {l : List Nat} (hc : s.freeCtx = some c) (hw : s.ky.waiters = i :: l)
    (hr : List.find? (fun (x : Nat × Rx) => decide (x.2.task = some i)) s.rd.rxs = some (k, r)) :
    Completes .ccmContextFree s fun t =>
      (r.fcs = none → t.ky.waiters = l ∧ t.ky.ctxs = s.ky.ctxs ++ [c] ∧ (t.rx? k).map (fun x => x.ctx) = some (some c)) := by
  have e : execCcmContextFree s = .next ((({ s with ky := { s.ky with waiters := l } }).takeCtx k r c).rxJudge k) := by
    unfold execCcmContextFree
    simp only [hc, hw]
    simp only [hr]
  refine ⟨_, (exec_ccmContextFree s).trans e, fun hf => ?_⟩
  rw [State.rxJudge_takeCtx hf, State.takeCtx_rx?, State.takeCtx_ky]
  exact ⟨rfl, rfl, rfl⟩

theorem execCcmContextFree_idle (h : s.freeCtx = none ∨ s.ky.waiters = []) : execCcmContextFree s = .next s := by
  unfold execCcmContextFree
  split
  · next c i l hc hw => simp [hc, hw] at h
  · rfl

/-! ### The CCM* verdict (R18, R233) -/

theorem execCcmVerdict_next {c : Nat} (hr : s.rx? k = some r) (hx : r.ctx = some c) (hf : r.fcs = some true) (hc : r.ccm = none)
    (ok : Bool) : execCcmVerdict k ok s = .next ((s.putRx k { r with ccm := some (ok && s.ky.ctxs.contains c) }).rxJudge k) := by
  simp only [execCcmVerdict, hr, hx, hf, hc, Option.isNone_some, Option.isSome_none, ne_eq, not_true_eq_false, decide_false,
    Bool.or_self, Bool.false_eq_true, if_false]

theorem ccmVerdict_ends {v c : Nat} {ok : Bool} (hi : s.Inv) (hr : s.rx? k = some r) (hx : r.ctx = some c) (hf : r.fcs = some true)
    (hc : r.ccm = none) (hu : r.undo ≠ [])
    (hv : (s.rxVerdict { r with ccm := some (ok && s.ky.ctxs.contains c) }).map (·.1) = some v) :
    Completes (.ccmVerdict k ok) s fun t =>
      t.rx? k = none ∧
      (v = 5 → t.getF R.MAC_RX_COUNT0_AUTH_FAIL = min R.MAC_RX_COUNT0_AUTH_FAIL.max (s.getF R.MAC_RX_COUNT0_AUTH_FAIL + 1)) ∧
      (v = 2 → t.getF R.MAC_RX_COUNT1_DUPLICATE = min R.MAC_RX_COUNT1_DUPLICATE.max (s.getF R.MAC_RX_COUNT1_DUPLICATE + 1)) ∧
      (v = 3 → t.isSet R.MAC_EVENT_REPLAY = true) := by
  let q : Rx := { r with ccm := some (ok && s.ky.ctxs.contains c) }
  have hq : (s.putRx k q).rx? k = some q := s.rx?_putRx k q
  obtain ⟨t, hw, ht⟩ := State.rxJudge_verdict hq hf hu ((s.rxVerdict_putRx k q q).trans hv)
  have hti : t.Inv := hw.inv hi
  have hg : ∀ {g : Field}, g.quiet = true → t.getF g = s.getF g := fun hg => (hw.quiet hg (by decide) hi).2
  have htr : t.rx? k = some q := (hw.rx? (by decide) k).trans hq
  refine ⟨_, (execCcmVerdict_next hr hx hf hc ok).trans (congrArg Host.Outcome.next ht), t.rx?_rxFinish k v, ?_, ?_, ?_⟩
  · rintro rfl
    rw [State.getF_rxFinish hti htr (by decide) rfl, hg (by decide)]
  · rintro rfl
    rw [State.getF_rxFinish hti htr (by decide) rfl, hg (by decide)]
  · rintro rfl
    have hci := (State.countVerdict_within (.refl _ t) (List.Subset.refl _) 3).inv hti
    rw [(t.quiet_rxFinish (f := R.MAC_EVENT_REPLAY) (by decide) htr 3).isSet hci]
    exact State.isSet_raise_same (t.bump R.MAC_RX_COUNT1_REPLAY) (by decide) (by decide)

theorem execCcmVerdict_idle (hr : s.rx? k = some r) (h : r.ctx = none ∨ r.fcs ≠ some true ∨ r.ccm ≠ none) (ok : Bool) :
    execCcmVerdict k ok s = .next s := by
  have hc : (r.ctx.isNone || decide (r.fcs ≠ some true) || r.ccm.isSome) = true := by
    simpa [Option.isSome_iff_ne_none, or_assoc] using h
  simp only [execCcmVerdict, hr, hc, if_true]

/-! ### Shadow entries (R235) -/

/-- A record read of a reception that is still under way. -/
def State.readOpen (s : State) (k : Nat) : Bool := match s.rx? k with | some r => !r.record | none => false

theorem execShadowEntryRelease_eq {n c : Nat} (h : Store.find? n s.mac.shadow = some (c, 0)) :
    execShadowEntryRelease n s = .next (if (Store.get (fun _ => []) s.mac.shadowReads n).any s.readOpen then s
      else { s with mac := { s.mac with shadow := Store.del n s.mac.shadow, shadowReads := Store.del n s.mac.shadowReads } }) := by
  unfold execShadowEntryRelease
  rw [h]
  change (if (Store.get (fun _ => []) s.mac.shadowReads n).any s.readOpen then _ else _) = _
  split <;> rfl

/-! ### The sweep of the learned paths (R355) -/

theorem State.sweep_sweptAt (s : State) (k : Nat) : (s.sweep k).gd.sweptAt = s.gd.sweptAt := by
  unfold State.sweep
  split
  · rfl
  · dsimp only
    split <;> rfl

theorem lptSweepStep_visits (s : State) : Completes .lptSweepStep s fun t =>
      t.getF R.GROUND_SWEEP_NEXT = (s.getF R.GROUND_SWEEP_NEXT + 1) % 8192 ∧
      (t.mtb = (match s.gd.sweptAt with | some x => max s.mtb (x + 0x200000) | none => s.mtb)) ∧
      (t.gd.sweptAt = some (match s.gd.sweptAt with | some x => x + 0x200000 | none => s.mtb)) ∧
      t.mem = s.mem := by
  let u : State := match s.gd.sweptAt with | some x => s.advance (x + 0x200000) | none => s
  let w : State := { u with gd := { u.gd with sweptAt := some (match u.gd.sweptAt with | some x => x + 0x200000 | none => u.mtb) } }
  let n : Nat := w.getF R.GROUND_SWEEP_NEXT
  have hw := State.sweep_within (.refl _ w) (List.Subset.refl _) n
  have hu : u.gd = s.gd ∧ u.mem = s.mem ∧ u.regs = s.regs := by
    unfold u
    split <;> exact ⟨rfl, rfl, rfl⟩
  obtain ⟨hgd, hmem, hregs⟩ := hu
  refine ⟨(w.sweep n).setF R.GROUND_SWEEP_NEXT ((n + 1) % 8192), rfl, ?_, ?_, ?_, ?_⟩
  · rw [State.getF_setF_same _ _ _ (by decide)]
    have hn : n = s.getF R.GROUND_SWEEP_NEXT := State.getF_congr (by
      change Store.get regReset u.regs _ = _
      rw [hregs]
      rfl)
    rw [hn]
    exact Nat.mod_mod _ 8192
  · rw [State.setF_mtb, hw.mtb_eq (by decide)]
    change u.mtb = _
    unfold u
    split <;> rfl
  · rw [State.setF_gd, State.sweep_sweptAt]
    change some (match u.gd.sweptAt with | some x => x + 0x200000 | none => u.mtb) = _
    rw [hgd]
    unfold u
    cases s.gd.sweptAt <;> rfl
  · rw [State.setF_mem]
    exact (hw.same .mem (by decide)).trans hmem

end
end Sys2Proof.Machine

section
open Sys2Proof Sys2Proof.Machine

/-- Settles O19: each step of the pipeline answers by the reception it names; what follows a verdict, or a check that fails, writes
to none of the fields that were counted or raised before it. -/
theorem receivePipeline : Obligations.ReceivePipeline := by
  unfold Obligations.ReceivePipeline
  intro s hi
  refine ⟨?_, ?_, ?_, ?_, ?_, ?_, ?_, ?_, ?_, ?_, ?_, ?_, ?_, ?_, ?_, ?_⟩
  · exact fun k h c r hr ⟨hh, hk⟩ => sourceAddressComplete_heads hr hh hk h c
  · exact fun k h c hr => ⟨s, execSourceAddressComplete_gone hr h c, rfl⟩
  · exact fun k h r hr hh ⟨hl, hb⟩ => addressLookupDone_looks hr hh hl hb
  · exact fun k r hr h => ⟨s, execAddressLookupDone_idle hr h, rfl⟩
  · exact fun k h r hr hh ⟨hl, hc⟩ => nodeRecordReadDone_takes hi hr hh hl hc
  · exact fun k r hr h => ⟨s, execNodeRecordReadDone_idle hr h, rfl⟩
  · exact fun k h r hr hh hs ⟨hc, hn, hx, hk⟩ hb => keyUnwrapDone_unwraps hi ⟨hr, hh, hs, hc, hn, hx, hk, hb⟩
  · exact fun k r hr h => ⟨s, execKeyUnwrapDone_idle hr h, rfl⟩
  · exact fun c i k l r hc hw hr => ccmContextFree_serves hc hw hr
  · exact fun h => ⟨s, (exec_ccmContextFree s).trans (execCcmContextFree_idle h), rfl⟩
  · exact fun k v ok r c hr ⟨hx, hf, hc⟩ ⟨_, hu⟩ hv => ccmVerdict_ends hi hr hx hf hc hu hv
  · exact fun k ok r hr h => ⟨s, execCcmVerdict_idle hr h ok, rfl⟩
  · exact fun u => ⟨_, rfl, rfl, rfl, rfl⟩
  · exact fun n c hc ho => ⟨_, (execShadowEntryRelease_eq hc).trans (congrArg Host.Outcome.next (if_neg (Bool.eq_false_iff.mp ho))),
      rfl, rfl⟩
  · exact fun n c hc ho => ⟨s, (execShadowEntryRelease_eq hc).trans (congrArg Host.Outcome.next (if_pos ho)), rfl⟩
  · exact lptSweepStep_visits s

end

namespace Sys2Proof.Machine
open Sys2Proof

/-! ### What network time's operations leave of device time and of the peer's last frame -/

section
variable (s : State)

theorem State.putQ_eq (f : Field) (q : Int) : ∃ r k, s.putQ f q = { s with regs := r, freeIx := k } := by
  unfold State.putQ
  split <;> exact ⟨_, _, rfl⟩

theorem State.setDomain_eq (d : Nat) (v : Domain) :
    ∃ a b, s.setDomain d v = { s with tm := { s.tm with dom1 := a, dom2 := b } } := by
  unfold State.setDomain
  split <;> exact ⟨_, _, rfl⟩

theorem State.setOffset_eq (d : Nat) (q : Int) :
    ∃ r k a b, s.setOffset d q = { s with regs := r, freeIx := k, tm := { s.tm with dom1 := a, dom2 := b } } := by
  unfold State.setOffset
  obtain ⟨a, b, h⟩ := s.setDomain_eq d { s.domain d with offset := some q }
  obtain ⟨r, k, h'⟩ := (s.setDomain d { s.domain d with offset := some q }).putQ_eq (R.TIME_DOM_OFFSET_V (d - 1)) q
  rw [h', h]
  exact ⟨r, k, a, b, rfl⟩

theorem State.setPeerOff_eq (q : Int) :
    ∃ r k, s.setPeerOff q = { s with regs := r, freeIx := k, tm := { s.tm with peerOff := some q } } :=
  State.putQ_eq { s with tm := { s.tm with peerOff := some q } } _ q

/-- A step of device time sets it at this moment; of the rest of network time it moves what was measured alone (R133). -/
theorem State.stepDev_eq (q : Int) : ∃ r k a b p, s.stepDev q = { s with regs := r, freeIx := k, tm := { s.tm with
    anchorTb := s.mtb, anchor := s.dev32 s.mtb + ofQns q, dom1 := a, dom2 := b, peerOff := p } } := by
  let P (t : State) : Prop := ∃ r k a b, t = { s with regs := r, freeIx := k, tm := { s.tm with
    anchorTb := s.mtb, anchor := s.dev32 s.mtb + ofQns q, dom1 := a, dom2 := b } }
  unfold State.stepDev
  dsimp only
  generalize hu : State.each _ _ _ = u
  have hP : P u := by
    rw [← hu]
    refine State.each_induct (P := P) _ _ ⟨_, _, _, _, rfl⟩ ?_
    rintro t d ⟨r, k, a, b, rfl⟩
    split
    · next o _ =>
      obtain ⟨a', b', h⟩ := State.setDomain_eq { s with regs := r, freeIx := k, tm := { s.tm with
        anchorTb := s.mtb, anchor := s.dev32 s.mtb + ofQns q, dom1 := a, dom2 := b } } d _
      rw [h]
      obtain ⟨r', k', a', b', h'⟩ := State.setOffset_eq _ d o
      exact ⟨r', k', a', b', h'⟩
    · obtain ⟨a', b', h⟩ := State.setDomain_eq { s with regs := r, freeIx := k, tm := { s.tm with
        anchorTb := s.mtb, anchor := s.dev32 s.mtb + ofQns q, dom1 := a, dom2 := b } } d _
      exact ⟨_, _, a', b', h⟩
  obtain ⟨r, k, a, b, rfl⟩ := hP
  split
  · next o _ =>
    obtain ⟨r', k', h⟩ := State.setPeerOff_eq { s with regs := r, freeIx := k, tm := { s.tm with
      anchorTb := s.mtb, anchor := s.dev32 s.mtb + ofQns q, dom1 := a, dom2 := b } } (o - q)
    exact ⟨r', k', a, b, some (o - q), h⟩
  · exact ⟨_, _, _, _, _, rfl⟩

end
end Sys2Proof.Machine

namespace Sys2Proof.Machine
open Sys2Proof

/-! ### What the choice of the reference and the servo leave of the peer's last TIME frame -/

/-- The peer's last TIME frame: when it came, what it said, its echo, whether its time is valid. -/
def State.lastFrame (s : State) : Option Nat × Option TimeFrame × (Nat × Nat) × Bool :=
  (s.tm.peerAt, s.tm.peer, s.tm.echo, s.tm.peerOk)

section
variable (s : State)

@[simp] theorem State.lastFrame_setF (f : Field) (v : Nat) : (s.setF f v).lastFrame = s.lastFrame := rfl

@[simp] theorem State.lastFrame_useFree : s.useFree.lastFrame = s.lastFrame := rfl

@[simp] theorem State.lastFrame_setRate (r : Int) : (s.setRate r).lastFrame = s.lastFrame := rfl

@[simp] theorem State.lastFrame_raise (e : Field) : (s.raise e).lastFrame = s.lastFrame := by
  simp only [State.lastFrame, State.raise_tm]

@[simp] theorem State.lastFrame_setPeerOff (q : Int) : (s.setPeerOff q).lastFrame = s.lastFrame := by
  obtain ⟨r, k, h⟩ := s.setPeerOff_eq q
  rw [h]
  rfl

@[simp] theorem State.lastFrame_setDomain (d : Nat) (v : Domain) : (s.setDomain d v).lastFrame = s.lastFrame := by
  obtain ⟨a, b, h⟩ := s.setDomain_eq d v
  rw [h]
  rfl

@[simp] theorem State.lastFrame_stepDev (q : Int) : (s.stepDev q).lastFrame = s.lastFrame := by
  obtain ⟨r, k, a, b, p, h⟩ := s.stepDev_eq q
  rw [h]
  rfl

@[simp] theorem State.lastFrame_setRef (n : Nat) : (s.setRef n).lastFrame = s.lastFrame := by
  unfold State.setRef
  split
  · rfl
  · simp only [State.lastFrame, State.raiseIf_tm, State.setF_tm]

@[simp] theorem State.lastFrame_reselect : s.reselect.lastFrame = s.lastFrame := s.lastFrame_setRef _

@[simp] theorem State.lastFrame_rejudge : s.rejudge.lastFrame = s.lastFrame := by
  refine State.each_induct (P := fun t => t.lastFrame = s.lastFrame) _ _ rfl fun t d h => ?_
  extract_lets v gone p
  split
  · exact (t.lastFrame_setDomain d _).trans h
  · exact h

@[simp] theorem State.lastFrame_standbyTime : s.standbyTime.lastFrame = s.lastFrame := by
  unfold State.standbyTime
  split
  · rfl
  · next f _ =>
    split
    · extract_lets u v w x
      have hu : u.lastFrame = s.lastFrame := (State.lastFrame_setF _ _ _).trans (State.lastFrame_setF _ _ _)
      have hx : x.lastFrame = s.lastFrame := by
        unfold x
        split
        · exact hu
        · exact (u.lastFrame_stepDev _).trans hu
      exact x.lastFrame_reselect.trans hx
    · rfl

@[simp] theorem State.lastFrame_correct (off : Int) : (s.correct off).lastFrame = s.lastFrame := by
  have ended : (State.setF { s with tm := { s.tm with slewing := false } } R.TIME_STATE_REFUSED 0).lastFrame = s.lastFrame :=
    State.lastFrame_setF _ _ _
  unfold State.correct
  split
  · rfl
  · split
    · split
      · exact s.lastFrame_setRate _
      · split
        · rfl
        · rw [State.lastFrame_raise, State.lastFrame_setF]
    · extract_lets u r
      split
      · rw [State.lastFrame_raise, State.lastFrame_setRate, State.lastFrame_useFree]
        exact ended
      · split
        · rw [State.lastFrame_raise, State.lastFrame_setRate, State.lastFrame_useFree]
          exact ended
        · rw [State.lastFrame_setRate, State.lastFrame_useFree]
          exact ended

end

/-! ### The commands of device time (R132 to R137) -/

section
variable {s : State}

/-- Device time at the moment it was set. -/
theorem State.dev32_anchor {t : Nat} (h : s.tm.anchorTb = t) : s.dev32 t = s.tm.anchor := by
  rw [State.dev32, h, Int.sub_self, Int.zero_mul, Int.add_zero]

theorem unsigned_lt (w : Nat) (i : Int) : unsigned w i < 2 ^ w := by
  have h : 0 < ((2 ^ w : Nat) : Int) := by exact_mod_cast Nat.two_pow_pos w
  have h1 := Int.emod_lt_of_pos i h
  have h0 := Int.emod_nonneg i h.ne'
  unfold unsigned
  omega

theorem State.rate_setRate (s : State) (r : Int) : (s.setRate r).rate = signed 32 (unsigned 32 r) := by
  have hf : R.TIME_RATE_RATE.ok = true := by decide
  rw [State.rate, State.setRate, State.getF_setF_same _ _ _ hf]
  exact congrArg _ (Nat.mod_eq_of_lt (unsigned_lt 32 r))

/-- A change of rate leaves device time continuous. -/
theorem State.dev32_setRate (s : State) (r : Int) : (s.setRate r).dev32 s.mtb = s.dev32 s.mtb :=
  State.dev32_anchor rfl

/-- The state in which device time has been set forward by a domain's offset `q` at the boundary `a`. -/
def State.stepped (s : State) (a : Nat) (q : Int) : State :=
  State.stepDev { s.advance a with tm := { s.tm with step := none } } (-q)

theorem execTimeStep_next {d a : Nat} {q : Int} (h : s.tm.step = some (d, a)) (hq : s.domOffset d = some q) :
    execTimeStep s = .next (((s.stepped a q).setF R.TIME_STATE_STEPPED 1).raise R.TIME_EVENT_STEPPED) := by
  have hq' : (s.advance a).domOffset d = some q := hq
  simp only [execTimeStep, h, hq']
  rfl

theorem execTimeStep_none (h : s.tm.step = none) : execTimeStep s = .next s := by
  rw [execTimeStep, h]

theorem State.stepped_spec (s : State) (a : Nat) (q : Int) : (s.stepped a q).tm.step = none ∧ (s.stepped a q).mtb = max s.mtb a ∧
    (s.stepped a q).tm.anchorTb = max s.mtb a ∧ (s.stepped a q).tm.anchor = s.dev32 (max s.mtb a) + ofQns (-q) := by
  obtain ⟨r, k, x, y, p, h⟩ := State.stepDev_eq { s.advance a with tm := { s.tm with step := none } } (-q)
  rw [State.stepped, h]
  exact ⟨rfl, rfl, rfl, rfl⟩

theorem timeStep_steps {d a : Nat} {q : Int} (h : s.tm.step = some (d, a)) (hq : s.domOffset d = some q) :
    Completes .timeStep s fun t => t.tm.step = none ∧ t.mtb = max s.mtb a ∧
      t.dev32 t.mtb = s.dev32 (max s.mtb a) + ofQns (-q) ∧ t.isSet R.TIME_STATE_STEPPED = true ∧
      t.isSet R.TIME_EVENT_STEPPED = true := by
  obtain ⟨hs, hm, htb, ha⟩ := s.stepped_spec a q
  have hst : R.TIME_STATE_STEPPED.ok = true := by decide
  have hev : R.TIME_EVENT_STEPPED.ok = true := by decide
  refine ⟨_, execTimeStep_next h hq, ?_, ?_, ?_, ?_, ?_⟩
  · rw [State.raise_tm, State.setF_tm, hs]
  · rw [State.raise_mtb, State.setF_mtb, hm]
  · rw [State.raise_mtb, State.setF_mtb, hm, State.dev32_anchor (by rw [State.raise_tm, State.setF_tm, htb]), State.raise_tm,
      State.setF_tm, ha]
  · rw [State.isSet_raise_ne _ _ _ hev hst (by decide)]
    exact State.isSet_setF_one _ hst rfl
  · exact State.isSet_raise_same _ hev rfl

theorem execLockWaitExpiry_next {u : Nat} (hr : s.running = true) (hw : s.getF R.TIME_CFG_LOCK_WAIT_S ≠ 0)
    (ht : s.tm.runAt + s.getF R.TIME_CFG_LOCK_WAIT_S * secCyc ≤ max s.mtb u) :
    execLockWaitExpiry u s = .next { s.advance u with tm := { s.tm with waitDone := true } } := by
  refine if_pos ?_
  simp only [Bool.and_eq_true, bne_iff_ne, decide_eq_true_eq]
  exact ⟨⟨hr, hw⟩, ht⟩

theorem execLockWaitExpiry_idle {u : Nat} (h : s.running = false ∨ s.getF R.TIME_CFG_LOCK_WAIT_S = 0 ∨
    max s.mtb u < s.tm.runAt + s.getF R.TIME_CFG_LOCK_WAIT_S * secCyc) : execLockWaitExpiry u s = .next (s.advance u) := by
  refine if_neg ?_
  simp only [Bool.and_eq_true, bne_iff_ne, decide_eq_true_eq]
  rintro ⟨⟨hr, hw⟩, ht⟩
  rcases h with h | h | h
  · exact Bool.false_ne_true (h.symm.trans hr)
  · exact hw h
  · exact absurd ht (Nat.not_le.mpr h)

theorem State.ebOk_of_waitDone (h : s.tm.waitDone = true) : s.ebOk = true := by
  rw [State.ebOk, h, Bool.or_true]

/-- The state in which a refused offset `q` is slewed. -/
def State.accepted (s : State) (q : Int) : State :=
  State.setRate { s with tm := { s.tm with slewing := true } } (if 0 < q then -s.slewRate else s.slewRate)

theorem State.timeAccept_refused {q : Int} (hr : s.isSet R.TIME_STATE_REFUSED = true)
    (hq : (s.getF R.TIME_STATE_SEL ≠ 3 ∧ s.domOffset (s.getF R.TIME_STATE_SEL) = some q) ∨
      (s.getF R.TIME_STATE_SEL = 3 ∧ s.peerOffset = some (-q))) :
    s.timeAccept = (s.accepted q).answer ST.OK := by
  have off : (if s.getF R.TIME_STATE_SEL = 3 then s.peerOffset.map (fun q => -q) else s.domOffset (s.getF R.TIME_STATE_SEL)) =
      some q := by
    rcases hq with ⟨hs, h⟩ | ⟨hs, h⟩
    · rw [if_neg hs, h]
    · rw [if_pos hs, h, Option.map_some, Int.neg_neg]
  simp only [State.timeAccept, hr, if_true, off]
  rfl

theorem timeAccept_slews {q : Int} (hr : s.isSet R.TIME_STATE_REFUSED = true)
    (hq : (s.getF R.TIME_STATE_SEL ≠ 3 ∧ s.domOffset (s.getF R.TIME_STATE_SEL) = some q) ∨
      (s.getF R.TIME_STATE_SEL = 3 ∧ s.peerOffset = some (-q))) :
    Completes .timeAccept s fun t => t.tm.slewing = true ∧
      t.rate = signed 32 (unsigned 32 (if 0 < q then -s.slewRate else s.slewRate)) ∧
      t.dev32 s.mtb = s.dev32 s.mtb ∧ t.resp = ST.OK :=
  ⟨_, congrArg Host.Outcome.next (State.timeAccept_refused hr hq), rfl, State.rate_setRate _ _, State.dev32_setRate _ _, rfl⟩

/-- A refusal shows in TIME_CMD_ERR and answers the request (R144). -/
theorem State.timeRefuse_spec (s : State) {st : Nat} (h : st < 2 ^ 16) :
    (s.timeRefuse st).getF R.TIME_CMD_ERR_STATUS = st ∧ (s.timeRefuse st).resp = st ∧ (s.timeRefuse st).tm = s.tm := by
  have hf : R.TIME_CMD_ERR_STATUS.ok = true := by decide
  refine ⟨?_, rfl, rfl⟩
  rw [State.timeRefuse, State.refuse_eq, State.getF_answer, State.getF_setF_same _ _ _ hf]
  exact Nat.mod_eq_of_lt h

theorem State.timeAccept_notRefused (h : s.isSet R.TIME_STATE_REFUSED = false) : s.timeAccept = s.timeRefuse ST.TIME_ACCEPT_STATE := by
  simp only [State.timeAccept, h, Bool.false_eq_true, if_false]

/-! ### SNAP -/

/-- The nanoseconds of device time are fewer than a second's. -/
theorem State.devNs_lt (s : State) (t : Nat) : s.devNs t < 2 ^ 30 := by
  unfold State.devNs secCyc
  omega

theorem State.asn_lt (s : State) (t : Nat) : s.asn t < 2 ^ 40 := by
  unfold State.asn
  omega

theorem timeSnap_captures (s : State) (u : Nat) : Completes (.timeSnap u) s fun t =>
    t.getF R.TIME_SNAP_TB_LO_V + 2 ^ 32 * t.getF R.TIME_SNAP_TB_HI_V = max s.mtb u % 2 ^ 64 ∧
    t.getF R.TIME_SNAP_ASN_LO_V + 2 ^ 32 * t.getF R.TIME_SNAP_ASN_HI_ASN = s.asn (max s.mtb u) ∧
    t.getF R.TIME_SNAP_NS_NS = s.devNs (max s.mtb u) ∧ t.resp = ST.OK ∧ t.tm = s.tm := by
  have ha : (s.advance u).asn (max s.mtb u) < 2 ^ 40 := State.asn_lt _ _
  have hn : (s.advance u).devNs (max s.mtb u) < 2 ^ 30 := State.devNs_lt _ _
  refine ⟨_, rfl, ?_, ?_, ?_, rfl, rfl⟩
  · simp (disch := decide) only [State.timeSnap, State.getF_answer, State.getF_setF_ne, State.getF_setF_same, State.advance_mtb,
      R.TIME_SNAP_TB_LO_V, R.TIME_SNAP_TB_HI_V]
    omega
  · change _ = (s.advance u).asn (max s.mtb u)
    simp (disch := decide) only [State.timeSnap, State.getF_answer, State.getF_setF_ne, State.getF_setF_same, State.advance_mtb]
    simp only [R.TIME_SNAP_ASN_LO_V, R.TIME_SNAP_ASN_HI_ASN]
    omega
  · change _ = (s.advance u).devNs (max s.mtb u)
    simp (disch := decide) only [State.timeSnap, State.getF_answer, State.getF_setF_same, State.advance_mtb]
    exact Nat.mod_eq_of_lt hn

end
end Sys2Proof.Machine

namespace Sys2Proof.Machine
open Sys2Proof

/-! ### SEL_DOM and the reference (R136) -/

/-- The fields that a choice of the reference writes. -/
def refFields : List Field := [R.TIME_STATE_REFUSED, R.TIME_STATE_SEL, R.TIME_EVENT_DOM_SWITCH]

section
variable {s : State}

theorem State.getF_raiseIf_ne (s : State) (c : Bool) (e g : Field) (he : e.lo + e.width ≤ 32) (hg : g.ok = true)
    (ha : e.apart g = true) : (s.raiseIf c e).getF g = s.getF g := by
  cases c
  · rfl
  · exact State.getF_raise_ne s e g he hg ha

theorem State.getF_setRef_ne (s : State) (n : Nat) {f : Field} (hf : f.ok = true) (ha : ∀ g ∈ refFields, g.apart f = true) :
    (s.setRef n).getF f = s.getF f := by
  simp only [refFields, List.forall_mem_cons] at ha
  obtain ⟨hr, hs, he, -⟩ := ha
  unfold State.setRef
  split
  · rfl
  · dsimp only
    rw [State.getF_raiseIf_ne _ _ _ _ (by decide) hf he, State.getF_setF_ne _ _ _ _ (by decide) hf hs,
      State.getF_setF_ne _ _ _ _ (by decide) hf hr]
    rfl

/-- The reference taken is the one that TIME_STATE.SEL shows. -/
theorem State.getF_setRef_sel (s : State) {n : Nat} (h : n < 4) : (s.setRef n).getF R.TIME_STATE_SEL = n := by
  have hok : R.TIME_STATE_SEL.ok = true := by decide
  unfold State.setRef
  split
  · next e => exact e.symm
  · rw [State.getF_raiseIf_ne _ _ _ _ (by decide) hok (by decide), State.getF_setF_same _ _ _ hok]
    exact Nat.mod_eq_of_lt h

/-- A locked domain that SEL_DOM names is the reference, but for a STANDBY unit. -/
theorem State.chooseRef_forced {k : Nat} (hk : k = 1 ∨ k = 2) (hs : s.getF R.TIME_CTRL_SEL_DOM = k) (hl : s.domState k = 3)
    (hr : s.pairRole ≠ 2) (cur : Nat) : s.chooseRef cur = k := by
  simp only [State.chooseRef, hs]
  rw [if_neg (fun h => hr h.1), if_pos ⟨hk, hl⟩]

theorem selDom_apart_domState (d : Nat) : R.TIME_CTRL_SEL_DOM.apart (R.TIME_DOM_STAT_STATE d) = true := by
  have h : R.TIME_CTRL_SEL_DOM.addr ≠ (R.TIME_DOM_STAT_STATE d).addr := by
    simp only [R.TIME_CTRL_SEL_DOM, R.TIME_DOM_STAT_STATE]
    omega
  simp only [Field.apart, h, ne_eq, not_false_eq_true, decide_true, Bool.true_or]

theorem domState_ok {k : Nat} (hk : k = 1 ∨ k = 2) : (R.TIME_DOM_STAT_STATE (k - 1)).ok = true := by
  rcases hk with rfl | rfl <;> decide

/-- A write of SEL_DOM that names a locked domain or none takes effect (R136). -/
theorem State.timeSelDom_taken {v : Nat} (hn : v ≠ s.getF R.TIME_CTRL_SEL_DOM) (h3 : v ≠ 3) (hl : v ≠ 0 → s.domState v = 3) :
    s.timeSelDom v = (s.setF R.TIME_CTRL_SEL_DOM v).reselect.answer ST.OK := by
  unfold State.timeSelDom
  rw [if_neg hn, if_neg h3, if_neg, if_neg]
  · exact fun ⟨h0, h⟩ => h (hl h0)
  · rintro ⟨h0, h⟩
    rw [hl h0] at h
    cases h

theorem State.timeSelDom_same {v : Nat} (h : s.getF R.TIME_CTRL_SEL_DOM = v) : s.timeSelDom v = s.answer ST.OK := if_pos h.symm

theorem State.getF_reselect_selDom (s : State) : s.reselect.getF R.TIME_CTRL_SEL_DOM = s.getF R.TIME_CTRL_SEL_DOM :=
  State.getF_setRef_ne s _ (by decide) (by decide)

theorem State.getF_setF_selDom (s : State) (k : Fin 4) : (s.setF R.TIME_CTRL_SEL_DOM k).getF R.TIME_CTRL_SEL_DOM = k := by
  rw [State.getF_setF_same _ _ _ (by decide)]
  exact Nat.mod_eq_of_lt k.isLt

theorem timeSelDomWrite_forces {k : Fin 4} (hk : k = 1 ∨ k = 2) (hl : s.domState k = 3) (hr : s.pairRole ≠ 2) :
    Completes (.timeSelDomWrite k) s fun t => t.getF R.TIME_CTRL_SEL_DOM = k ∧
      (s.getF R.TIME_CTRL_SEL_DOM ≠ k → t.getF R.TIME_STATE_SEL = k) ∧ t.resp = ST.OK := by
  have hv : (k : Nat) = 1 ∨ (k : Nat) = 2 := hk.imp (congrArg Fin.val) (congrArg Fin.val)
  by_cases hn : s.getF R.TIME_CTRL_SEL_DOM = k
  · exact ⟨_, congrArg Host.Outcome.next (State.timeSelDom_same hn), hn, fun h => absurd hn h, rfl⟩
  · refine ⟨_, congrArg Host.Outcome.next (State.timeSelDom_taken (Ne.symm hn) (by omega) fun _ => hl), ?_, fun _ => ?_, rfl⟩
    · rw [State.getF_answer, State.getF_reselect_selDom, State.getF_setF_selDom]
    · have hl' : (s.setF R.TIME_CTRL_SEL_DOM k).domState k = 3 :=
        (State.getF_setF_ne s _ _ _ (by decide) (domState_ok hv) (selDom_apart_domState _)).trans hl
      have hr' : (s.setF R.TIME_CTRL_SEL_DOM k).pairRole ≠ 2 := by
        rw [State.pairRole, State.getF_setF_ne s _ _ _ (by decide) (by decide) (by decide)]
        exact hr
      rw [State.getF_answer, State.reselect, State.chooseRef_forced hv (s.getF_setF_selDom k) hl' hr']
      exact State.getF_setRef_sel _ k.isLt

theorem timeSelDomWrite_keeps {k : Fin 4} (h : k = 0 ∨ s.getF R.TIME_CTRL_SEL_DOM = k) :
    Completes (.timeSelDomWrite k) s fun t => t.getF R.TIME_CTRL_SEL_DOM = k ∧ t.resp = ST.OK := by
  by_cases hn : s.getF R.TIME_CTRL_SEL_DOM = k
  · exact ⟨_, congrArg Host.Outcome.next (State.timeSelDom_same hn), hn, rfl⟩
  · have h0 : (k : Nat) = 0 := congrArg Fin.val (h.resolve_right hn)
    refine ⟨_, congrArg Host.Outcome.next (State.timeSelDom_taken (Ne.symm hn) (by omega) fun e => absurd h0 e), ?_, rfl⟩
    rw [State.getF_answer, State.getF_reselect_selDom, State.getF_setF_selDom]

/-- The first status that refuses a write of SEL_DOM. -/
def State.selDomFault (s : State) (k : Fin 4) : Nat :=
  if k = 3 then ST.TIME_RANGE else if s.domState k = 0 then ST.TIME_DOM_ABSENT else ST.TIME_DOM_STATE

theorem State.timeSelDom_refused {k : Fin 4} (hn : s.getF R.TIME_CTRL_SEL_DOM ≠ k) (h : k = 3 ∨ (k ≠ 0 ∧ s.domState k ≠ 3)) :
    s.timeSelDom k = s.timeRefuse (s.selDomFault k) := by
  have h3 : k = 3 ↔ (k : Nat) = 3 := Fin.ext_iff
  have h0 : k = 0 ↔ (k : Nat) = 0 := Fin.ext_iff
  unfold State.timeSelDom State.selDomFault
  rw [if_neg (Ne.symm hn)]
  by_cases hk : k = 3
  · rw [if_pos (h3.mp hk), if_pos hk]
  · obtain ⟨hz, hl⟩ := h.resolve_left hk
    have hz' : (k : Nat) ≠ 0 := fun e => hz (h0.mpr e)
    rw [if_neg (fun e => hk (h3.mpr e)), if_neg hk]
    by_cases ha : s.domState k = 0
    · rw [if_pos ⟨hz', ha⟩, if_pos ha]
    · rw [if_neg (fun e => ha e.2), if_pos ⟨hz', hl⟩, if_neg ha]

theorem State.selDomFault_lt (s : State) (k : Fin 4) : s.selDomFault k < 2 ^ 16 := by
  unfold State.selDomFault
  split
  · decide
  · split <;> decide

theorem timeSelDomWrite_refuses {k : Fin 4} (hn : s.getF R.TIME_CTRL_SEL_DOM ≠ k) (h : k = 3 ∨ (k ≠ 0 ∧ s.domState k ≠ 3)) :
    Completes (.timeSelDomWrite k) s fun t => t.getF R.TIME_CTRL_SEL_DOM = s.getF R.TIME_CTRL_SEL_DOM ∧
      t.resp = s.selDomFault k ∧ t.getF R.TIME_CMD_ERR_STATUS = t.resp := by
  obtain ⟨he, hr, -⟩ := s.timeRefuse_spec (s.selDomFault_lt k)
  refine ⟨_, congrArg Host.Outcome.next (State.timeSelDom_refused hn h), ?_, hr, he.trans hr.symm⟩
  exact State.getF_setF_ne s _ _ _ (by decide) (by decide) (by decide)

/-! ### TIME frames on the tie link (R140) -/

theorem execTieTimeSend_up {u : Nat} (h : s.isSet R.PAIR_STATE_TIE_UP = true) :
    execTieTimeSend u s = .next ((s.advance u).amrekOut 5 (timeOctets (s.advance u).timeFrame)) := by
  simp only [execTieTimeSend, State.isSet_advance, h, Bool.not_true, Bool.false_eq_true, if_false]

theorem execTieTimeSend_down {u : Nat} (h : s.isSet R.PAIR_STATE_TIE_UP = false) : execTieTimeSend u s = .next (s.advance u) := by
  simp only [execTieTimeSend, State.isSet_advance, h, Bool.not_false, if_true]

/-- Whether a TIME frame says that the peer's time is valid (R48, R140). -/
def State.frameOk (s : State) (f : TimeFrame) : Bool :=
  (f.state % 4 ≠ 0 || (s.pairOn && s.pr.time.domains = 0)) && !bitOf f.state 3

theorem State.frameOk_eq (s : State) (f : TimeFrame) :
    s.frameOk f = decide ((f.state % 4 ≠ 0 ∨ (s.pairOn = true ∧ s.pr.time.domains = 0)) ∧ bitOf f.state 3 = false) := by
  simp [State.frameOk]

/-- The state in which a TIME frame has been taken down. -/
def State.frameHeard (s : State) (f : TimeFrame) (u : Nat) : State :=
  State.setF { s.advance u with
    tm := { s.tm with peerAt := some u, peerOk := s.frameOk f, peer := some f, echo := (f.tx, u) },
    pa := { s.pa with heardAt := some u } } R.PAIR_STATE_PEER_SILENT 0

/-- The peer's offset shown after a frame: what it gives, or none where its time is not valid. -/
def State.showOffset (s : State) (ok : Bool) (q : Int) : State :=
  if ok then s.setPeerOff q else s.setF R.TIME_PEER_OFFSET 0x80000000

/-- A reference that is the peer corrects device time. -/
def State.correctToPeer (s : State) : State :=
  if s.getF R.TIME_STATE_SEL = 3 then (match s.peerOffset with | some q => s.correct (-q) | none => s) else s

theorem State.inv_setF (hi : s.Inv) (f : Field) (v : Nat) : (s.setF f v).Inv := ⟨Registers.wf_setF s f v hi.1, hi.2⟩

theorem State.frameHeard_inv (hi : s.Inv) (f : TimeFrame) (u : Nat) : (s.frameHeard f u).Inv := by
  unfold State.frameHeard
  exact State.inv_setF hi _ _

/-- What a frame that has been taken down leads to. -/
def State.followPeer (s : State) (ok : Bool) (q : Int) : State :=
  (s.showOffset ok q).standbyTime.reselect.rejudge.correctToPeer

theorem execTieTimeRx_eq (s : State) (f : TimeFrame) (u : Nat) :
    ∃ q, execTieTimeRx f u s = .next ((s.frameHeard f u).followPeer (s.frameOk f) q) := by
  let x2 : Int := ((f.echoRx : Int) - f.echoTx) - ((u : Int) - f.tx)
  let asym := signed 16 ((s.advance u).getF R.TIME_TIE_ASYM_ASYM)
  let own := (s.advance u).devQAt (1024 * (f.tx : Int) - 512 * x2 + 165 * asym)
  refine ⟨((f.devS * 1000000000 + f.devNs) * 4 : Nat) - own, ?_⟩
  have follow (v : State) : (if v.getF R.TIME_STATE_SEL = 3 then (match v.peerOffset with
      | some q => Host.Outcome.next (v.correct (-q)) | none => .next v) else .next v : Res) = .next v.correctToPeer := by
    unfold State.correctToPeer
    split
    · cases v.peerOffset <;> rfl
    · rfl
  exact follow _

theorem State.lastFrame_followPeer (s : State) (ok : Bool) (q : Int) : (s.followPeer ok q).lastFrame = s.lastFrame := by
  have show_ : (s.showOffset ok q).lastFrame = s.lastFrame := by
    unfold State.showOffset
    split
    · exact s.lastFrame_setPeerOff q
    · exact s.lastFrame_setF _ _
  have follow (t : State) : t.correctToPeer.lastFrame = t.lastFrame := by
    unfold State.correctToPeer
    split
    · split
      · exact State.lastFrame_correct _ _
      · rfl
    · rfl
  rw [State.followPeer, follow, State.lastFrame_rejudge, State.lastFrame_reselect, State.lastFrame_standbyTime, show_]

theorem State.followPeer_within (s : State) (ok : Bool) (q : Int) :
    State.Within [.block 6, .freeIx, .notes, .tm] s (s.followPeer ok q) := by
  have h0 : State.Within [.block 6, .freeIx, .notes, .tm] s (s.showOffset ok q) := by
    unfold State.showOffset
    split
    · exact State.setPeerOff_within (.refl _ s) (by decide) q
    · exact State.setF_within (.refl _ s) R.TIME_PEER_OFFSET (Or.inr (by simp)) _
  have h1 := State.rejudge_within (State.reselect_within (State.standbyTime_within h0 (by decide)) (by decide)) (by decide)
  unfold State.followPeer State.correctToPeer
  split
  · split
    · exact State.correct_within h1 (by decide) _
    · exact h1
  · exact h1

theorem tieTimeRx_hears (hi : s.Inv) (f : TimeFrame) (u : Nat) : Completes (.tieTimeRx f u) s fun t =>
    t.tm.peerAt = some u ∧ t.tm.peer = some f ∧ t.tm.echo = (f.tx, u) ∧
    t.tm.peerOk = decide ((f.state % 4 ≠ 0 ∨ (s.pairOn = true ∧ s.pr.time.domains = 0)) ∧ bitOf f.state 3 = false) ∧
    t.isSet R.PAIR_STATE_PEER_SILENT = false ∧ t.pa.heardAt = some u := by
  obtain ⟨q, he⟩ := execTieTimeRx_eq s f u
  have hw := (s.frameHeard f u).followPeer_within (s.frameOk f) q
  have hl : _ = (some u, some f, (f.tx, u), s.frameOk f) := (s.frameHeard f u).lastFrame_followPeer (s.frameOk f) q
  obtain ⟨ha, hp, hc, hk⟩ : _ ∧ _ ∧ _ ∧ _ := by simpa only [State.lastFrame, Prod.mk.injEq] using hl
  refine ⟨_, he, ha, hp, hc, hk.trans (s.frameOk_eq f), ?_, congrArg (·.heardAt) (hw.same .pa (by decide))⟩
  rw [(hw.keepsF (by decide) (by decide)).isSet (State.frameHeard_inv hi f u)]
  exact State.isSet_setB_same _ false (by decide) rfl

/-! ### The peer's silence (R140, R141) -/

/-- The state in which no TIME frame has come for eight periods. -/
def State.peerGone (s : State) (u : Nat) : State :=
  State.setF { s.advance u with tm := { s.tm with peerAt := none } } R.TIME_PEER_OFFSET 0x80000000

theorem State.peerGone_inv (hi : s.Inv) (u : Nat) : (s.peerGone u).Inv := by
  unfold State.peerGone
  exact State.inv_setF hi _ _

theorem execPeerTimeExpiry_gone {u : Nat} (h : s.tm.peerAt.all (fun a => decide (a + 8 * 1048576 ≤ max s.mtb u)) = true) :
    execPeerTimeExpiry u s = .next (if (s.peerGone u).getF R.TIME_STATE_SEL = 3 then (s.peerGone u).reselect
      else s.peerGone u).rejudge := by
  unfold execPeerTimeExpiry
  extract_lets v old w
  have ho : old = true := by
    unfold old
    cases ha : v.tm.peerAt with
    | none => rfl
    | some a =>
      have ha' : s.tm.peerAt = some a := ha
      rw [ha', Option.all_some] at h
      exact h
  rw [ho]
  rfl

theorem execPeerTimeExpiry_fresh {u a : Nat} (h : s.tm.peerAt = some a) (hlt : max s.mtb u < a + 8 * 1048576) :
    execPeerTimeExpiry u s = .next (s.advance u) := by
  unfold execPeerTimeExpiry
  extract_lets v old w
  have ho : old = false := by
    unfold old
    have ha : v.tm.peerAt = some a := h
    rw [ha]
    exact decide_eq_false (Nat.not_le.mpr hlt)
  rw [ho]
  rfl

theorem State.peerValid_of_silent (h : s.tm.peerAt = none) : s.peerValid = false := by
  rw [State.peerValid, h]

/-- A judgement of the frozen domains leaves the peer silent, its offset shown as none. -/
theorem State.rejudge_silent (hi : s.Inv) (ha : s.tm.peerAt = none) (ho : s.getF R.TIME_PEER_OFFSET = 0x80000000) :
    s.rejudge.tm.peerAt = none ∧ s.rejudge.getF R.TIME_PEER_OFFSET = 0x80000000 ∧ s.rejudge.peerValid = false := by
  have ha' : s.rejudge.tm.peerAt = none := (congrArg Prod.fst s.lastFrame_rejudge).trans ha
  have hk := (State.rejudge_within (.refl [.tm] s) (List.Subset.refl _)).keepsF (f := R.TIME_PEER_OFFSET) (by decide) (by decide)
  exact ⟨ha', (hk hi).2.trans ho, State.peerValid_of_silent ha'⟩

theorem State.reselect_peerAt (s : State) : s.reselect.tm.peerAt = s.tm.peerAt := congrArg Prod.fst s.lastFrame_reselect

theorem State.peerGone_peerAt (s : State) (u : Nat) : (s.peerGone u).tm.peerAt = none := by
  unfold State.peerGone
  rw [State.setF_tm]

theorem State.peerGone_offset (s : State) (u : Nat) : (s.peerGone u).getF R.TIME_PEER_OFFSET = 0x80000000 := by
  unfold State.peerGone
  rw [State.getF_setF_same _ _ _ (by decide)]
  rfl

theorem State.getF_reselect_peerOffset (s : State) : s.reselect.getF R.TIME_PEER_OFFSET = s.getF R.TIME_PEER_OFFSET :=
  State.getF_setRef_ne s _ (by decide) (by decide)

theorem State.reselect_inv (hi : s.Inv) : s.reselect.Inv :=
  (State.reselect_within (.refl _ s) (List.Subset.refl _)).inv hi

theorem peerTimeExpiry_ends (hi : s.Inv) {u : Nat} (h : s.tm.peerAt.all (fun a => decide (a + 8 * 1048576 ≤ max s.mtb u)) = true) :
    Completes (.peerTimeExpiry u) s fun t => t.tm.peerAt = none ∧ t.getF R.TIME_PEER_OFFSET = 0x80000000 ∧
      t.peerValid = false := by
  have hg := State.peerGone_inv hi u
  refine ⟨_, execPeerTimeExpiry_gone h, ?_⟩
  have ha := s.peerGone_peerAt u
  have ho := s.peerGone_offset u
  generalize s.peerGone u = v at hg ha ho
  split
  · exact State.rejudge_silent (State.reselect_inv hg) (v.reselect_peerAt.trans ha) (v.getF_reselect_peerOffset.trans ho)
  · exact State.rejudge_silent hg ha ho

end
end Sys2Proof.Machine

section
open Sys2Proof Sys2Proof.Machine

/-- Settles O15: a step of device time, a change of rate and a capture write what they name; what the choice of the reference and the
servo do after a frame or its absence leaves the peer's last frame as it was taken down. -/
theorem deviceTimeAndPeerTime : Obligations.DeviceTimeAndPeerTime := by
  unfold Obligations.DeviceTimeAndPeerTime
  intro s hi
  refine ⟨?_, ?_, ?_, ?_, ?_, ?_, ?_, ?_, ?_, ?_, ?_, ?_, ?_, ?_, ?_⟩
  · exact fun d a q h hq => timeStep_steps h hq
  · exact fun h => ⟨s, execTimeStep_none h, rfl⟩
  · exact fun u hr hw ht => ⟨_, execLockWaitExpiry_next hr hw ht, rfl, State.ebOk_of_waitDone rfl⟩
  · exact fun u h => ⟨_, execLockWaitExpiry_idle h, rfl⟩
  · exact fun q hr hq => timeAccept_slews hr hq
  · intro h
    obtain ⟨he, hr, ht⟩ := s.timeRefuse_spec (st := ST.TIME_ACCEPT_STATE) (by decide)
    exact ⟨_, congrArg Host.Outcome.next (State.timeAccept_notRefused h), ht, he, hr⟩
  · exact fun u => timeSnap_captures s u
  · exact fun k hk hl hr => timeSelDomWrite_forces hk hl hr
  · exact fun k h => timeSelDomWrite_keeps h
  · exact fun k hn h => timeSelDomWrite_refuses hn h
  · exact fun u h => ⟨_, execTieTimeSend_up h, rfl, rfl, rfl⟩
  · exact fun u h => ⟨_, execTieTimeSend_down h, rfl⟩
  · exact fun f u => tieTimeRx_hears hi f u
  · exact fun u h => peerTimeExpiry_ends hi h
  · exact fun u a h hlt => ⟨_, execPeerTimeExpiry_fresh h hlt, rfl⟩

end

namespace Sys2Proof.Machine
open Sys2Proof

/-! ### Failures of start-up in the registers (R87, R91) -/

/-- The fields that a start-up failure writes, and those that a boot failure's count writes. -/
def failFields : List Field :=
  [R.START_FAIL_STATUS, R.START_FAIL_UNIT, R.START_FAIL_STATE, R.START_FAIL_LOC_TYPE, R.START_FAIL_LOC_OFFSET,
    R.SYS_EVENT_START_FAIL]
def countFields : List Field := [R.START_BOOT_FAILS, R.START_BOOT_FAIL_SLOT]

section
variable {f : Field} {s t : State}

theorem State.keepsF_startFail (s : State) (hf : f.ok = true) (ha : ∀ g ∈ failFields, g.apart f = true) (st unit typ off : Nat) :
    s.KeepsF f (s.startFail st unit typ off) := by
  simp only [failFields, List.forall_mem_cons] at ha
  obtain ⟨h1, h2, h3, h4, h5, h6, -⟩ := ha
  unfold State.startFail
  refine State.KeepsF.trans ?_ (State.keepsF_raise _ (by decide) hf h6)
  refine State.KeepsF.trans ?_ (State.keepsF_setF _ (by decide) hf h5 _)
  refine State.KeepsF.trans ?_ (State.keepsF_setF _ (by decide) hf h4 _)
  refine State.KeepsF.trans ?_ (State.keepsF_setF _ (by decide) hf h3 _)
  refine State.KeepsF.trans ?_ (State.keepsF_setF _ (by decide) hf h2 _)
  exact State.keepsF_setF _ (by decide) hf h1 _

theorem State.startFail_su (s : State) (st unit typ off : Nat) : (s.startFail st unit typ off).su = s.su := by
  have h := State.startFail_within (.refl _ s) (List.Subset.refl _) st unit typ off
  exact h.same .su (by decide)

theorem State.getF_startFail_status (s : State) (st unit typ off : Nat) :
    (s.startFail st unit typ off).getF R.START_FAIL_STATUS = st % 2 ^ 16 := by
  have hok : R.START_FAIL_STATUS.ok = true := by decide
  unfold State.startFail
  dsimp only
  rw [State.getF_raise_ne _ _ _ (by decide) hok (by decide), State.getF_setF_ne _ _ _ _ (by decide) hok (by decide),
    State.getF_setF_ne _ _ _ _ (by decide) hok (by decide), State.getF_setF_ne _ _ _ _ (by decide) hok (by decide),
    State.getF_setF_ne _ _ _ _ (by decide) hok (by decide), State.getF_setF_same _ _ _ hok]
  rfl
theorem State.KeepsF.su (h : s.KeepsF f t) (x : StartUp) : s.KeepsF f { t with su := x } := h

theorem State.getF_withSu (s : State) (x : StartUp) (f : Field) : ({ s with su := x } : State).getF f = s.getF f := rfl

/-- A boot failure's count in the registers. -/
def State.failCounted (s : State) (st typ off : Nat) : State :=
  ((s.startFail st 0 typ off).bump R.START_BOOT_FAILS).setF R.START_BOOT_FAIL_SLOT (s.startFail st 0 typ off).booted

/-- The booted slot has failed. -/
def State.slotFailed (s : State) : State := { s with su := { s.su with failedSlots := s.su.failedSlots ++ [s.booted] } }

theorem State.bootCount_eq (s : State) (st typ off : Nat) : s.bootCount st typ off = (s.failCounted st typ off).slotFailed := rfl

theorem State.getF_slotFailed (s : State) (f : Field) : s.slotFailed.getF f = s.getF f := rfl

theorem State.keepsF_failCounted (s : State) (hf : f.ok = true) (ha : ∀ g ∈ failFields, g.apart f = true)
    (hc : ∀ g ∈ countFields, g.apart f = true) (st typ off : Nat) : s.KeepsF f (s.failCounted st typ off) := by
  simp only [countFields, List.forall_mem_cons] at hc
  obtain ⟨hn, hs, -⟩ := hc
  unfold State.failCounted
  refine State.KeepsF.trans ?_ (State.keepsF_setF _ (by decide) hf hs _)
  rw [State.bump_eq]
  exact (s.keepsF_startFail hf ha st 0 typ off).trans (State.keepsF_setF _ (by decide) hf hn _)

theorem State.keepsF_bootCount (s : State) (hf : f.ok = true) (ha : ∀ g ∈ failFields, g.apart f = true)
    (hc : ∀ g ∈ countFields, g.apart f = true) (st typ off : Nat) : s.KeepsF f (s.bootCount st typ off) :=
  (s.keepsF_failCounted hf ha hc st typ off).su _

theorem State.failCounted_su (s : State) (st typ off : Nat) : (s.failCounted st typ off).su = s.su := by
  unfold State.failCounted
  rw [State.setF_su, State.bump_eq, State.setF_su, State.startFail_su]

theorem State.getF_failCounted_status (s : State) (st typ off : Nat) :
    (s.failCounted st typ off).getF R.START_FAIL_STATUS = st % 2 ^ 16 := by
  have hok : R.START_FAIL_STATUS.ok = true := by decide
  unfold State.failCounted
  rw [State.getF_setF_ne _ _ _ _ (by decide) hok (by decide), State.bump_eq,
    State.getF_setF_ne _ _ _ _ (by decide) hok (by decide), State.getF_startFail_status]

theorem State.bootCount_spec (hi : s.Inv) (st typ off : Nat) : (s.bootCount st typ off).Inv ∧
    (s.bootCount st typ off).getF R.START_FAIL_STATUS = st % 2 ^ 16 ∧
    (s.bootCount st typ off).su = { s.su with failedSlots := s.su.failedSlots ++ [s.booted] } := by
  have hb := s.keepsF_bootCount (f := R.UPDATE_STATE_BOOTED) (by decide) (by decide) (by decide) st typ off hi
  have he := s.keepsF_failCounted (f := R.UPDATE_STATE_BOOTED) (by decide) (by decide) (by decide) st typ off hi
  refine ⟨hb.1, ?_, ?_⟩
  · rw [State.bootCount_eq, State.getF_slotFailed, State.getF_failCounted_status]
  · rw [State.bootCount_eq, State.slotFailed, State.booted, he.2, State.failCounted_su, State.booted]

/-- BOOT without a slot to boot stops, with its word (R87). -/
theorem State.noImage_su (s : State) : s.noImage.su = { s.su with stopped := true } := by
  unfold State.noImage State.stop
  dsimp only
  rw [State.startFail_su]

theorem State.keepsF_noImage (s : State) (hf : f.ok = true) (ha : ∀ g ∈ failFields, g.apart f = true) : s.KeepsF f s.noImage := by
  unfold State.noImage State.stop
  exact (s.keepsF_startFail hf ha _ _ _ _).su _

theorem State.getF_noImage_status (s : State) : s.noImage.getF R.START_FAIL_STATUS = ST.START_NO_IMAGE := by
  unfold State.noImage State.stop
  rw [State.getF_withSu, State.getF_startFail_status]
  rfl
end
end Sys2Proof.Machine

namespace Sys2Proof.Machine
open Sys2Proof

/-! ### The choice of the slot (R86, R462, R468) -/

section
variable {s t : State}

/-- The second stage of a slot is judged by the flash, the credentials and the counters. -/
theorem State.stageFault_congr (hf : t.flash = s.flash) (hr : t.ro = s.ro) (hu : t.up = s.up) (k : Nat) :
    t.stageFault k = s.stageFault k := by
  have hrd : t.fwOctets k = s.fwOctets k := funext fun i => congrArg BitVec.toNat (State.flashByte_congr hf _)
  have hsig : ∀ rd o, t.sigBlockAt rd o = s.sigBlockAt rd o := fun rd o => by
    simp only [State.sigBlockAt, State.signerKey, State.credOf, hr]
  simp only [State.stageFault, hrd, hsig, State.signerOk, hr, hu]

theorem State.stageFault_bootCount (s : State) (st typ off k : Nat) : (s.bootCount st typ off).stageFault k = s.stageFault k := by
  have hw := State.bootCount_within (.refl _ s) (List.Subset.refl _) st typ off
  exact State.stageFault_congr (hw.same .flash (by decide)) (hw.same .ro (by decide)) (hw.same .up (by decide)) k

/-- A trial that falls back where no image runs asks for no warm reset (R474). -/
theorem State.upFallback_within_idle (hr : s.running = false) (hs : s.starting = false) :
    State.Within [.block 20, .block 22, .flash, .freeIx, .ms, .notes, .ro, .up] s s.upFallback := by
  unfold State.upFallback
  simp only [hr, hs, Bool.or_self, Bool.and_false, Bool.false_eq_true, if_false]
  refine State.upDecided_within ?_ (by decide) _
  refine State.raise_within (State.setF_within ?_ _ (Or.inr (by simp)) _) (by decide) _ (Or.inr (by simp))
  exact State.auditNote_within (State.putRec_within (.refl _ s) (by decide) _) (by decide) _

theorem State.choose_within_idle (hr : s.running = false) (hs : s.starting = false) :
    State.Within [.block 20, .block 22, .flash, .freeIx, .ms, .notes, .ro, .su, .up] s s.choose.1 := by
  have same := State.Within.refl [.block 20, .block 22, .flash, .freeIx, .ms, .notes, .ro, .su, .up] s
  unfold State.choose
  split
  · exact same
  · split
    · exact same
    · dsimp only
      split
      · exact same
      · split
        · have h := (State.upFallback_within_idle hr hs).mono (m := [.block 20, .block 22, .flash, .freeIx, .ms, .notes, .ro, .su, .up])
            (by decide)
          apply within_upd h <;> first | exact Or.inl rfl | exact Or.inr (by decide)
        · exact State.putRec_within same (by decide) _

/-- What holds of a state, and is kept by the choice of a slot, its boot, a failure's count, BOOT's entry and what follows the last
slot, holds once a slot has been chosen. -/
theorem State.bootNext_induct {P : State → Prop} {last : State → State} (hchoose : ∀ s, P s → P s.choose.1)
    (hin : ∀ s, P s → P s.inBoot) (hslot : ∀ s k, P s → P (s.bootSlot k)) (hcount : ∀ s st typ off, P s → P (s.bootCount st typ off))
    (hlast : ∀ s, P s → P (last s)) (again : Bool) (n : Nat) (h : P s) : P (s.bootNext last again n) := by
  induction n generalizing s again with
  | zero => exact hlast s h
  | succ n ih =>
    unfold State.bootNext
    extract_lets forced r
    have hr : P r.1 := by
      unfold r
      split
      · exact h
      · exact hchoose s h
    split
    · exact hlast _ hr
    · next k _ =>
      have hb : P ((if again then r.1.inBoot else r.1).bootSlot k) := by
        refine hslot _ k ?_
        split
        · exact hin _ hr
        · exact hr
      dsimp only
      split
      · exact hb
      · exact ih true (hcount _ _ _ _ hb)

/-- A forced slot whose second stage is not accepted leaves none to boot. -/
theorem State.bootNext_forced {last : State → State} {again : Bool} {n : Nat} (hs : s.getF R.START_OPT_SLOT ≠ 0)
    (hf : (s.stageFault (s.getF R.START_OPT_SLOT - 1)).isSome = true) : s.bootNext last again (n + 1) = last s := by
  obtain ⟨w, hw⟩ := Option.isSome_iff_exists.mp hf
  simp only [State.bootNext, hs, hw, ne_eq, not_false_eq_true, if_true, Option.isNone_some, Bool.false_eq_true, if_false]

theorem State.bootFailed_forced (hi : s.Inv) (hs : s.getF R.START_OPT_SLOT ≠ 0)
    (hf : (s.stageFault (s.getF R.START_OPT_SLOT - 1)).isSome = true) (st typ off : Nat) : s.bootFailed st typ off =
      if (s.bootCount st typ off).dev = devLoad then (s.bootCount st typ off).noPricking else (s.bootCount st typ off).noImage := by
  have hopt := ((s.keepsF_bootCount (f := R.START_OPT_SLOT) (by decide) (by decide) (by decide) st typ off) hi).2
  refine State.bootNext_forced (by rw [hopt]; exact hs) ?_
  rw [hopt, State.stageFault_bootCount]
  exact hf

end

/-! ### What BOOT keeps

From BOOT and PRICKING_LOAD a boot failure leads to BOOT, or stays; DRAM stays as it is. -/

/-- A state of BOOT, or of `d`, in which MEM_STATE.DRAM_OK is `x`. -/
structure State.Booting (d x : Nat) (s : State) : Prop where
  inv : s.Inv
  dev : s.dev = devBoot ∨ s.dev = d
  dram : s.getF R.MEM_STATE_DRAM_OK = x

section
variable {d x : Nat} {f : Field} {s t : State}

theorem State.Booting.keep (h : s.Booting d x) (hd : s.KeepsF R.START_STATE_DEV_STATE t) (hm : s.KeepsF R.MEM_STATE_DRAM_OK t) :
    t.Booting d x :=
  ⟨(hd h.inv).1, by rw [State.dev, (hd h.inv).2]; exact h.dev, (hm h.inv).2.trans h.dram⟩

theorem State.Booting.within {l : List Part} (h : s.Booting d x) (hw : State.Within l s t)
    (hl : ∀ p ∈ [Part.regs, .block 2, .block 16], p ∉ l) : t.Booting d x :=
  h.keep (hw.keepsF (hl _ (by simp)) (hl _ (by simp))) (hw.keepsF (hl _ (by simp)) (hl _ (by simp)))

/-- No firmware runs in BOOT and PRICKING_LOAD. -/
theorem State.Booting.idle (h : s.Booting d x) (hd : d = devBoot ∨ d = devLoad) : s.running = false ∧ s.starting = false := by
  have hdev : s.dev = devBoot ∨ s.dev = devLoad := by
    rcases h.dev with e | e
    · exact Or.inl e
    · rcases hd with rfl | rfl
      · exact Or.inl e
      · exact Or.inr e
  have hw : (s.inService || s.erasedLike) = false := by
    rcases hdev with e | e <;> simp only [State.inService, State.erasedLike, e] <;> decide
  simp only [State.running, State.starting, hw, Bool.false_and, and_self]

theorem State.Booting.withSu (h : s.Booting d x) (y : StartUp) : State.Booting d x { s with su := y } := ⟨h.inv, h.dev, h.dram⟩

theorem State.Booting.withRo (h : s.Booting d x) (y : Roles) : State.Booting d x { s with ro := y } := ⟨h.inv, h.dev, h.dram⟩

/-- BOOT's registers as BOOT begins. -/
def State.bootRegs (s : State) : State :=
  let s := (s.setDev devBoot).bump R.START_BOOT_BOOTS
  (s.setF R.START_T_BOOT_T (s.mtb / 64)).setF R.MEM_STATE_NAND_READY 1

theorem State.inBoot_eq (s : State) :
    s.inBoot = { s.bootRegs with su := { s.bootRegs.su with bootAt := s.bootRegs.mtb, benchWait := false } } := rfl

theorem State.bootRegs_dev (s : State) : s.bootRegs.dev = devBoot := by
  have hok : R.START_STATE_DEV_STATE.ok = true := by decide
  unfold State.bootRegs
  dsimp only
  rw [State.dev, State.getF_setF_ne _ _ _ _ (by decide) hok (by decide), State.getF_setF_ne _ _ _ _ (by decide) hok (by decide),
    State.bump_eq, State.getF_setF_ne _ _ _ _ (by decide) hok (by decide), State.setDev_eq, State.getF_setF_same _ _ _ hok]
  rfl

theorem State.keepsF_bootRegs (s : State) : s.KeepsF R.MEM_STATE_DRAM_OK s.bootRegs := by
  have hok : R.MEM_STATE_DRAM_OK.ok = true := by decide
  unfold State.bootRegs
  rw [State.setDev_eq, State.bump_eq]
  refine State.KeepsF.trans ?_ (State.keepsF_setF _ (by decide) hok (by decide) _)
  refine State.KeepsF.trans ?_ (State.keepsF_setF _ (by decide) hok (by decide) _)
  exact State.KeepsF.trans (State.keepsF_setF _ (by decide) hok (by decide) _) (State.keepsF_setF _ (by decide) hok (by decide) _)

theorem State.inBoot_booting (hi : s.Inv) (hm : s.getF R.MEM_STATE_DRAM_OK = x) : s.inBoot.Booting d x := by
  obtain ⟨hb, he⟩ := s.keepsF_bootRegs hi
  have h : s.bootRegs.Booting d x := ⟨hb, Or.inl s.bootRegs_dev, he.trans hm⟩
  rw [State.inBoot_eq]
  exact h.withSu _

theorem State.keepsF_bootSlot (s : State) (hf : f.ok = true) (ha : R.START_STATE_SLOT.apart f = true)
    (hu : R.UPDATE_STATE_BOOTED.apart f = true) (hb : regBlock f.addr ≠ 20) (k : Nat) : s.KeepsF f (s.bootSlot k) := by
  have put := (s.keepsF_setF (by decide) hf ha k).trans
    (State.keepsF_setF _ (g := R.UPDATE_STATE_BOOTED) (by decide) hf hu k)
  unfold State.bootSlot
  extract_lets u v
  have hv : State.Within [.block 20, .notes, .ro, .ry, .up] u v := State.useArea_within (.refl _ u) (by decide) _
  have hw : State.Within [.block 20, .notes, .ro, .ry, .up] u
      (if v.ownerState ≠ 3 && v.ro.stored.isSome then v.rolesBoot true else v) := by
    split
    · exact State.rolesBoot_within hv (by decide) true
    · exact hv
  exact put.trans (hw.keepsF (by decide) (by simpa using hb))

theorem State.Booting.bootSlot (h : s.Booting d x) (k : Nat) : (s.bootSlot k).Booting d x :=
  h.keep (s.keepsF_bootSlot (by decide) (by decide) (by decide) (by decide) k)
    (s.keepsF_bootSlot (by decide) (by decide) (by decide) (by decide) k)

theorem State.Booting.bootCount (h : s.Booting d x) (st typ off : Nat) : (s.bootCount st typ off).Booting d x :=
  h.keep (s.keepsF_bootCount (by decide) (by decide) (by decide) st typ off)
    (s.keepsF_bootCount (by decide) (by decide) (by decide) st typ off)

theorem State.Booting.noImage (h : s.Booting d x) : s.noImage.Booting d x :=
  h.keep (s.keepsF_noImage (by decide) (by decide)) (s.keepsF_noImage (by decide) (by decide))

theorem State.Booting.bootNext (hd : d = devBoot ∨ d = devLoad) {last : State → State}
    (hlast : ∀ u : State, u.Booting d x → (last u).Booting d x) (again : Bool) (n : Nat) (h : s.Booting d x) :
    (s.bootNext last again n).Booting d x :=
  State.bootNext_induct (P := State.Booting d x)
    (fun u hu => hu.within (State.choose_within_idle (hu.idle hd).1 (hu.idle hd).2) (by decide))
    (fun _ hu => State.inBoot_booting hu.inv hu.dram)
    (fun _ k hu => hu.bootSlot k) (fun _ st typ off hu => hu.bootCount st typ off) hlast again n h

theorem State.Booting.bootFailed (hd : d = devBoot ∨ d = devLoad) (h : s.Booting d x) (st typ off : Nat) :
    (s.bootFailed st typ off).Booting d x := by
  refine State.Booting.bootNext hd (fun u hu => ?_) true 4 (h.bootCount st typ off)
  split
  · exact hu.within (State.noPricking_within (.refl _ u) (List.Subset.refl _)) (by decide)
  · exact hu.noImage

theorem State.KeepsF.ky (h : s.KeepsF f t) (k : Keys) : s.KeepsF f { t with ky := k } := h

/-- The key engine in BOOT writes, of the memory system's registers, the flash controller's alone. -/
theorem State.keepsF_keyBoot (s : State) : s.KeepsF R.MEM_STATE_DRAM_OK s.keyBoot := by
  have submit (t : State) (o : NandOp) : t.KeepsF R.MEM_STATE_DRAM_OK (t.nandSubmit o) := fun hi =>
    ⟨(State.nandSubmit_within (.refl _ t) (List.Subset.refl _) o).inv hi, State.getF_nandStart _ (by decide) (by decide)⟩
  have other {l : List Part} {t u : State} (hw : State.Within l t u) (hr : Part.regs ∉ l)
      (hb : Part.block (regBlock R.MEM_STATE_DRAM_OK.addr) ∉ l) :
      t.KeepsF R.MEM_STATE_DRAM_OK u := hw.keepsF hr hb
  have own (t : State) : State.Within [.block 18, .ky, .notes] t
      ((((t.putSlot 0 ⟨attrIdentity, identitySeed⟩).setF R.KEY_STATE_DRBG_OK 1).setF R.KEY_DRBG_HEALTH_OK 1).setF R.KEY_DRBG_REQS 0) :=
    State.setF_within (State.setF_within (State.setF_within (State.putSlot_within (.refl _ t) (by decide) _ _) _ (Or.inr (by simp)) _)
      _ (Or.inr (by simp)) _) _ (Or.inr (by simp)) _
  unfold State.keyBoot
  extract_lets u v w
  have hv : State.Within [.block 18, .ky, .notes] s v := own s
  have hw : State.Within [.block 18, .ky, .notes] s w := State.ownerSlots_within hv (by decide)
  split
  · exact other hv (by decide) (by decide)
  · split
    · exact other (State.raise_within (State.setF_within hw _ (Or.inr (by simp)) _) (by decide) _ (Or.inr (by simp)))
        (by decide) (by decide)
    · next area b _ =>
      extract_lets y z
      have hy : State.Within [.block 18, .ky, .notes] s y :=
        State.blobDone_within (State.setF_within (State.each_within hw _ _ fun t r ht => State.putSlot_within ht (by decide) _ _)
          _ (Or.inr (by simp)) _) (by decide) _ _
      split
      · exact ((other hy (by decide) (by decide)).ky _).trans (submit _ _)
      · exact other hy (by decide) (by decide)

/-- The entry to BOOT ends in BOOT, with DRAM as it was (R86). -/
theorem State.enterBoot_booting (hi : s.Inv) : s.enterBoot.Booting devBoot (s.getF R.MEM_STATE_DRAM_OK) := by
  have h0 : s.inBoot.Booting devBoot (s.getF R.MEM_STATE_DRAM_OK) := State.inBoot_booting hi rfl
  have audit (t : State) (c : Bool) (ht : t.Booting devBoot (s.getF R.MEM_STATE_DRAM_OK)) :
      (if c then ({ t with ro := t.ro.closePage } : State).each [0, 1, 2] (fun s _ => s.auditProgram) else t).Booting devBoot
        (s.getF R.MEM_STATE_DRAM_OK) := by
    split
    · exact State.each_induct (P := State.Booting devBoot _) _ _ (ht.withRo _) fun t _ ht =>
        ht.within (State.auditProgram_within (.refl _ t) (List.Subset.refl _)) (by decide)
    · exact ht
  have note (t : State) (ht : t.Booting devBoot (s.getF R.MEM_STATE_DRAM_OK)) :
      (if t.su.fromWarm then t.raise R.SYS_EVENT_WARM_DONE
        else t.auditNote ⟨7, 0, 0, 0, R.SYS_RESET, 0, t.getF R.START_CAUSE_CAUSE⟩).Booting devBoot (s.getF R.MEM_STATE_DRAM_OK) := by
    split
    · exact ht.within (State.raise_within (.refl [.block 0, .notes] t) (by decide) _ (Or.inr (by simp))) (by decide)
    · exact ht.within (State.auditNote_within (.refl _ t) (List.Subset.refl _) _) (by decide)
  have keys (t : State) (ht : t.Booting devBoot (s.getF R.MEM_STATE_DRAM_OK)) :
      t.keyBoot.Booting devBoot (s.getF R.MEM_STATE_DRAM_OK) :=
    ht.keep ((State.keyBoot_within (.refl _ t) (List.Subset.refl _)).keepsF (by decide) (by decide)) t.keepsF_keyBoot
  have roles (t : State) (a : Nat) (ht : t.Booting devBoot (s.getF R.MEM_STATE_DRAM_OK)) :
      (t.useArea a).bootRoles.Booting devBoot (s.getF R.MEM_STATE_DRAM_OK) :=
    ht.within (State.bootRoles_within (State.useArea_within (.refl [.block 20, .notes, .ro, .ry, .up] t) (by decide) a) (by decide))
      (by decide)
  unfold State.enterBoot
  refine State.Booting.bootNext (Or.inl rfl) (fun u hu => hu.noImage) false 4 ?_
  exact roles _ _ (((keys _ (note _ (audit _ _ h0))).withSu _).withRo _)

end
end Sys2Proof.Machine

namespace Sys2Proof.Machine
open Sys2Proof

/-! ### The return to AWAIT_TRAINING (R84, R94) -/

/-- A key whose entries all stay reads as before. -/
theorem Store.get_filter {α : Type} (d : Nat → α) (m : List (Nat × α)) {p : Nat × α → Bool} {k : Nat} (hp : ∀ v, p (k, v) = true) :
    Store.get d (m.filter p) k = Store.get d m k := by
  induction m with
  | nil => rfl
  | cons y m ih =>
    obtain ⟨j, v⟩ := y
    by_cases hk : k = j
    · subst hk
      rw [List.filter_cons_of_pos (hp v), Store.get, Store.get, if_pos rfl, if_pos rfl]
    · rw [Store.get, if_neg hk, ← ih, List.filter_cons]
      split
      · rw [Store.get, if_neg hk]
      · rfl

section
variable {s : State}

theorem State.getReg_cleared (s : State) {k a : Nat} (warm keepTab : Bool) (h : keptReg k a = true) :
    (s.cleared k warm keepTab).getReg a = s.getReg a := Store.get_filter _ _ fun _ => h

/-- The return to AWAIT_TRAINING keeps START_FAIL (Table 04.6). -/
theorem State.keepsF_resetBlocks (s : State) : s.KeepsF R.START_FAIL_STATUS (s.resetBlocks 6 false) := by
  have put (t : State) {g : Field} (hg : g.lo + g.width ≤ 32) (ha : g.apart R.START_FAIL_STATUS = true) (v : Nat) :
      t.KeepsF R.START_FAIL_STATUS (t.setF g v) := t.keepsF_setF hg (by decide) ha v
  unfold State.resetBlocks
  extract_lets s1 s2 park pll mode lock tie warm keepTab s3 s4 s5 s6
  have h1 : State.Within [.block 20, .block 22, .cmp, .freeIx, .ky, .mem, .notes, .out, .pa, .resp, .ro, .up] s s1 :=
    State.sessionAbort_within (State.each_within (.refl _ s) _ _ fun t n ht => State.sessionEnd_within ht (by decide) n) (by decide) _
  have h3 : State.Within [.block 20, .block 22, .cmp, .freeIx, .ky, .mem, .notes, .out, .pa, .resp, .ro, .up] s s3 :=
    State.resetMem_within (State.holdOutputs_within h1 (by decide)) (by decide) 6 false
  have h4 : s3.KeepsF R.START_FAIL_STATUS s4 := fun hi =>
    ⟨(State.cleared_within (.refl _ s3) (List.Subset.refl _) 6 warm keepTab).inv hi,
      State.getF_congr (State.getReg_cleared s3 warm keepTab (by decide))⟩
  have h5 : s4.KeepsF R.START_FAIL_STATUS s5 := (put s4 (g := R.CLK_EVENT_PARK) (by decide) (by decide) park).trans
    (put _ (g := R.CLK_EVENT_PLL_FAULT) (by decide) (by decide) pll)
  have h6 : s5.KeepsF R.START_FAIL_STATUS s6 := put s5 (g := R.START_STATE_BOOT_MODE) (by decide) (by decide) mode
  exact (((h3.keepsF (by decide) (by decide)).trans h4).trans (h5.trans h6)).trans (put s6 (by decide) (by decide) 0)

theorem State.toAwait_spec (hi : s.Inv) : s.toAwait.dev = devAwait ∧ s.toAwait.mtb = 0 ∧
    s.toAwait.getF R.START_FAIL_STATUS = s.getF R.START_FAIL_STATUS := by
  have hok : R.START_STATE_DEV_STATE.ok = true := by decide
  refine ⟨State.getF_setF_same _ _ _ hok, rfl, ?_⟩
  have h1 := State.keepsF_setF (s.resetBlocks 6 false) (f := R.START_FAIL_STATUS) (g := R.START_CAUSE_CAUSE) (by decide) (by decide)
    (by decide) 6
  have h2 := State.keepsF_setF ((s.resetBlocks 6 false).setF R.START_CAUSE_CAUSE 6) (f := R.START_FAIL_STATUS)
    (g := R.START_CAUSE_COUNT) (by decide) (by decide) (by decide)
    (min R.START_CAUSE_COUNT.max (((s.resetBlocks 6 false).setF R.START_CAUSE_CAUSE 6).getF R.START_CAUSE_COUNT + 1))
  have h3 := State.keepsF_setF ((s.resetBlocks 6 false).writeCause 6) (f := R.START_FAIL_STATUS)
    (g := R.START_STATE_DEV_STATE) (by decide) (by decide) (by decide) devAwait
  exact (((s.keepsF_resetBlocks.trans h1).trans h2).trans h3 hi).2

/-! ### ROOT_LOCK and DRAM_TRAIN (R84, R85) -/

/-- A tie link that has not been up starts again with no more than its own state (R109). -/
theorem State.tieAgain_within_low (h : s.getF R.TIE_STAT_PHASE ≤ 1) : State.Within [.block 5, .out, .tie] s s.tieAgain := by
  have hup : ¬ s.getF R.TIE_STAT_PHASE = 4 := by omega
  unfold State.tieAgain State.tieListen
  simp only [if_neg hup]
  generalize (if s.tieSends = true then 1 else 0) = ph
  have h1 : State.Within [.block 5, .out, .tie] s { s.setF R.TIE_STAT_PHASE ph with tie := { since := s.mtb } } := by
    have h0 := State.setF_within (.refl [.block 5, .out, .tie] s) R.TIE_STAT_PHASE (Or.inr (by simp)) ph
    apply within_upd h0 <;> first | exact Or.inl rfl | exact Or.inr (by decide)
  split
  · exact State.tieSend_within h1 (by decide) _
  · exact h1

/-- What the root PLL's lock sets on its way to DRAM_TRAIN, and the uplinks' windows that open with it. -/
def State.lockSet (s : State) : State :=
  let s := ({ s with mtb := 0 }).setF R.CLK_STATE_PLL_LOCK 1
  (s.setClkMode 1).setF R.MEM_STATE_SELF_REFRESH 0

def State.lockOpened (s : State) : State := s.recordHeld.each s.clk.locks (fun s n => s.openWindow n)

/-- The first attempt of DRAM_TRAIN begins. -/
def State.trainFirst (s : State) : State :=
  ({ s with su := { s.su with attempts := 1, stage := 1, attemptAt := 0 } }).setDev devDramTrain

/-- The state that the root PLL's lock leads to, the tie link aside. -/
def State.rootLocked (s : State) : State := s.lockSet.lockOpened.trainFirst

theorem execRootPllLock_next (h : s.dev = devRootLock) : execRootPllLock s =
    .next (if s.rootLocked.getF R.TIE_STAT_PHASE ≤ 1 then s.rootLocked.tieAgain else s.rootLocked) := if_neg (not_not.mpr h)

theorem State.lockSet_inv (hi : s.Inv) : s.lockSet.Inv := by
  unfold State.lockSet
  dsimp only
  rw [State.setClkMode, State.setB_eq]
  exact State.inv_setF (State.inv_setF (State.inv_setF (State.inv_setF (s := { s with mtb := 0 }) hi _ _) _ _) _ _) _ _

theorem State.lockSet_spec (s : State) : s.lockSet.getF R.CLK_STATE_PLL_LOCK = 1 ∧ s.lockSet.getF R.CLK_STATE_CLK_MODE = 1 ∧
    s.lockSet.getF R.MEM_STATE_SELF_REFRESH = 0 := by
  unfold State.lockSet
  dsimp only
  rw [State.setClkMode, State.setB_eq]
  simp (disch := decide) only [State.getF_setF_ne, State.getF_setF_same]
  decide

theorem State.lockSet_mtb (s : State) : s.lockSet.mtb = 0 := by
  unfold State.lockSet
  dsimp only
  rw [State.setClkMode, State.setB_eq, State.setF_mtb, State.setF_mtb, State.setF_mtb, State.setF_mtb]

theorem State.lockOpened_within (s : State) : State.Within [.clk, .freeIx] s s.lockOpened :=
  State.each_within (State.recordHeld_within (.refl _ s) (by decide)) _ _ fun _ n ht => State.openWindow_within ht (by decide) n

theorem State.keepsF_trainFirst {f : Field} (hf : f.ok = true) (ha : R.START_STATE_DEV_STATE.apart f = true) (s : State) :
    s.KeepsF f s.trainFirst := ((KeepsF.refl f s).su _).trans (State.keepsF_setF _ (by decide) hf ha devDramTrain)

theorem State.setDev_dev (s : State) (d : Nat) (h : d < 16) : (s.setDev d).dev = d := by
  rw [State.dev, State.setDev_eq, State.getF_setF_same _ _ _ (by decide)]
  exact Nat.mod_eq_of_lt h

/-- The lock's registers are those of the state that it leads to. -/
theorem State.keepsF_rootLocked {f : Field} (hf : f.ok = true) (ha : R.START_STATE_DEV_STATE.apart f = true)
    (hb : Part.block (regBlock f.addr) ∉ [Part.clk, .freeIx]) (s : State) : s.lockSet.KeepsF f s.rootLocked :=
  (s.lockSet.lockOpened_within.keepsF (by decide) hb).trans (State.keepsF_trainFirst hf ha _)

theorem State.trainFirst_mtb (s : State) : s.trainFirst.mtb = s.mtb := by rw [State.trainFirst, State.setDev_eq, State.setF_mtb]

theorem State.trainFirst_su (s : State) : s.trainFirst.su = { s.su with attempts := 1, stage := 1, attemptAt := 0 } := by
  rw [State.trainFirst, State.setDev_eq, State.setF_su]

theorem State.trainFirst_dev (s : State) : s.trainFirst.dev = devDramTrain := State.setDev_dev _ _ (by decide)

theorem State.rootLocked_spec (hi : s.Inv) : s.rootLocked.Inv ∧ s.rootLocked.dev = devDramTrain ∧ s.rootLocked.mtb = 0 ∧
    s.rootLocked.getF R.CLK_STATE_PLL_LOCK = 1 ∧ s.rootLocked.getF R.CLK_STATE_CLK_MODE = 1 ∧
    s.rootLocked.getF R.MEM_STATE_SELF_REFRESH = 0 ∧ s.rootLocked.su.attempts = 1 ∧ s.rootLocked.su.stage = 1 := by
  have hl := State.lockSet_inv hi
  obtain ⟨hp, hc, hm⟩ := s.lockSet_spec
  have keep {f : Field} (hf : f.ok = true) (ha : R.START_STATE_DEV_STATE.apart f = true)
      (hb : Part.block (regBlock f.addr) ∉ [Part.clk, .freeIx]) := s.keepsF_rootLocked hf ha hb hl
  have hmtb : s.lockSet.lockOpened.mtb = 0 := (s.lockSet.lockOpened_within.mtb_eq (by decide)).trans s.lockSet_mtb
  have hsu := s.lockSet.lockOpened.trainFirst_su
  exact ⟨(keep (f := R.CLK_STATE_PLL_LOCK) (by decide) (by decide) (by decide)).1, State.trainFirst_dev _,
    (State.trainFirst_mtb _).trans hmtb, (keep (by decide) (by decide) (by decide)).2.trans hp,
    (keep (by decide) (by decide) (by decide)).2.trans hc, (keep (by decide) (by decide) (by decide)).2.trans hm,
    congrArg StartUp.attempts hsu, congrArg StartUp.stage hsu⟩

theorem rootPllLock_trains (hi : s.Inv) (h : s.dev = devRootLock) : Completes .rootPllLock s fun t =>
    t.dev = devDramTrain ∧ t.mtb = 0 ∧
    t.getF R.CLK_STATE_PLL_LOCK = 1 ∧ t.getF R.CLK_STATE_CLK_MODE = 1 ∧ t.getF R.MEM_STATE_SELF_REFRESH = 0 ∧
    t.su.attempts = 1 ∧ t.su.stage = 1 := by
  obtain ⟨hri, hd, hm, hp, hc, hr, ha, hs⟩ := State.rootLocked_spec hi
  have hw : State.Within [.block 5, .out, .tie] s.rootLocked
      (if s.rootLocked.getF R.TIE_STAT_PHASE ≤ 1 then s.rootLocked.tieAgain else s.rootLocked) := by
    split
    · next hl => exact State.tieAgain_within_low hl
    · exact .refl _ _
  have hsu := hw.same .su (by decide)
  have keep {f : Field} (hb : Part.block (regBlock f.addr) ∉ [Part.block 5, .out, .tie]) := (hw.keepsF (f := f) (by decide) hb hri).2
  refine ⟨_, execRootPllLock_next h, (keep (by decide)).trans hd, (hw.mtb_eq (by decide)).trans hm, (keep (by decide)).trans hp,
    (keep (by decide)).trans hc, (keep (by decide)).trans hr, ?_, ?_⟩
  · exact (congrArg StartUp.attempts hsu).trans ha
  · exact (congrArg StartUp.stage hsu).trans hs

theorem rootLockTimeout_awaits (hi : s.Inv) (h : s.dev = devRootLock) : Completes .rootLockTimeout s fun t =>
    t.dev = devAwait ∧ t.mtb = 0 ∧ t.getF R.START_FAIL_STATUS = ST.START_ROOT_TIMEOUT := by
  have hfi := (State.startFail_within (.refl _ s) (List.Subset.refl _) ST.START_ROOT_TIMEOUT 0 0xF00 0).inv hi
  obtain ⟨hd, hm, hf⟩ := State.toAwait_spec hfi
  exact ⟨_, if_neg (not_not.mpr h), hd, hm, hf.trans (s.getF_startFail_status ST.START_ROOT_TIMEOUT 0 0xF00 0)⟩

theorem State.getF_stop (s : State) (f : Field) : s.stop.getF f = s.getF f := rfl

theorem State.stop_stopped (s : State) : s.stop.su.stopped = true := rfl

/-- A failed attempt is repeated once, then the unit stops (R85). -/
theorem State.dramFail_spec (s : State) :
    (s.su.attempts < 2 → s.dramFail.su.attempts = 2 ∧ s.dramFail.su.stage = 1 ∧ s.dramFail.clk.dramDiv = 16) ∧
    (2 ≤ s.su.attempts → s.dramFail.su.stopped = true ∧ s.dramFail.getF R.START_FAIL_STATUS = ST.START_DRAM_FAIL) := by
  unfold State.dramFail
  split
  · next h => exact ⟨fun _ => ⟨rfl, rfl, rfl⟩, fun h' => absurd h (Nat.not_lt.mpr h')⟩
  · next h =>
    refine ⟨fun h' => absurd h' h, fun _ => ⟨State.stop_stopped _, ?_⟩⟩
    rw [State.getF_stop, State.getF_startFail_status]
    rfl

section
variable (hd : s.dev = devDramTrain) (hs : s.su.stopped = false) (hh : s.su.heldAt = 0) (u : Nat)
include hd hs hh

theorem execDramTrainStageEnd_fail : execDramTrainStageEnd false u s = .next (s.advance u).dramFail := by
  simp [execDramTrainStageEnd, hd, hs, hh]

theorem execDramTrainTimeout_late (h : s.su.attemptAt + 2578125 < max s.mtb u) :
    execDramTrainTimeout u s = .next (s.advance u).dramFail := by
  have h' : (s.advance u).su.attemptAt + 2578125 < (s.advance u).mtb := h
  simp [execDramTrainTimeout, hd, hs, hh, -State.advance_su, -State.advance_mtb, h']

/-- The state in which the last training stage has passed. -/
def State.trained (s : State) (u : Nat) : State :=
  (State.dropMem { s.advance u with su := { s.su with stage := s.su.stage + 1 } } 0x9FF00000 0xA0000000).setF R.MEM_STATE_DRAM_OK 1

theorem State.trains_of : ¬ (decide (s.dev ≠ devDramTrain) || s.su.stopped || decide (s.su.heldAt ≠ 0)) = true := by
  simp [hd, hs, hh]

theorem dramTrainStageEnd_passes (h4 : s.su.stage < 4) (h2 : s.su.stage = 2 → s.stoppedClock 0 = false) :
    Completes (.dramTrainStageEnd true u) s fun t => t.dev = devDramTrain ∧ t.su.stage = s.su.stage + 1 ∧
      (s.su.stage = 1 → t.clk.restarts = [⟨0, 2, false⟩]) := by
  have hc : ¬ (decide (s.su.stage = 2) && true && s.stoppedClock 0) = true := by
    by_cases e : s.su.stage = 2
    · simp [h2 e]
    · simp [e]
  by_cases h1 : s.su.stage = 1
  · refine ⟨_, ((if_neg (State.trains_of hd hs hh)).trans (if_neg hc)).trans (if_pos h1), hd, rfl, fun _ => rfl⟩
  · refine ⟨_, (((if_neg (State.trains_of hd hs hh)).trans (if_neg hc)).trans (if_neg h1)).trans (if_pos h4), hd, rfl,
      fun e => absurd e h1⟩

theorem execDramTrainStageEnd_last (h4 : 4 ≤ s.su.stage) : execDramTrainStageEnd true u s =
    .next (if (s.trained u).getF R.START_OPT_HALT = 1 then (s.trained u).holdAt 1 else (s.trained u).enterBoot) := by
  have hc : ¬ (decide (s.su.stage = 2) && true && s.stoppedClock 0) = true := by
    have e : s.su.stage ≠ 2 := by omega
    simp [e]
  exact (((if_neg (State.trains_of hd hs hh)).trans (if_neg hc)).trans (if_neg (show ¬ s.su.stage = 1 by omega))).trans
    (if_neg (Nat.not_lt.mpr h4))

end

theorem State.holdAt_spec (s : State) {p : Nat} : (s.holdAt p).su.heldAt = p ∧ (s.holdAt p).getF R.START_STATE_PHASE = 3 :=
  ⟨rfl, State.getF_setF_same _ _ _ (by decide)⟩

theorem State.dropMem_inv (hi : s.Inv) (lo hb : Nat) : (s.dropMem lo hb).Inv :=
  (State.dropMem_within (.refl _ s) (List.Subset.refl _) lo hb).inv hi

theorem State.trained_inv (hi : s.Inv) (u : Nat) : (s.trained u).Inv := by
  unfold State.trained
  exact State.inv_setF (State.dropMem_inv (s := { s.advance u with su := { s.su with stage := s.su.stage + 1 } }) hi _ _) _ _

theorem State.getF_trained_dramOk (s : State) (u : Nat) : (s.trained u).getF R.MEM_STATE_DRAM_OK = 1 := by
  unfold State.trained
  rw [State.getF_setF_same _ _ _ (by decide)]
  rfl

theorem State.getF_trained_halt (s : State) (u : Nat) : (s.trained u).getF R.START_OPT_HALT = s.getF R.START_OPT_HALT := by
  unfold State.trained
  rw [State.getF_setF_ne _ _ _ _ (by decide) (by decide) (by decide), State.getF_dropMem, State.getF_withSu, State.getF_advance]

theorem dramTrainStageEnd_ends (hi : s.Inv) (hd : s.dev = devDramTrain) (hs : s.su.stopped = false) (hh : s.su.heldAt = 0)
    (h4 : 4 ≤ s.su.stage) (u : Nat) : Completes (.dramTrainStageEnd true u) s fun t =>
      t.getF R.MEM_STATE_DRAM_OK = 1 ∧
      (s.getF R.START_OPT_HALT = 1 → t.su.heldAt = 1 ∧ t.getF R.START_STATE_PHASE = 3) ∧
      (s.getF R.START_OPT_HALT ≠ 1 → t.dev = devBoot) := by
  have hti := State.trained_inv hi u
  have hok := s.getF_trained_dramOk u
  have hopt := s.getF_trained_halt u
  refine ⟨_, execDramTrainStageEnd_last hd hs hh u h4, ?_⟩
  rw [hopt]
  split
  · next h =>
    have hk := (State.holdAt_within (.refl _ (s.trained u)) (List.Subset.refl _) 1).keepsF (f := R.MEM_STATE_DRAM_OK)
      (by decide) (by decide)
    exact ⟨(hk hti).2.trans hok, fun _ => (s.trained u).holdAt_spec, fun h' => absurd h h'⟩
  · next h =>
    have hb := State.enterBoot_booting hti
    exact ⟨hb.dram.trans hok, fun h' => absurd h' h, fun _ => hb.dev.elim id id⟩

/-! ### BOOT (R86, R87, R465) -/

theorem State.booting_of (hd : s.dev = devBoot) (hs : s.su.stopped = false) (hh : s.su.heldAt = 0) : s.booting = true := by
  simp [State.booting, hd, hs, hh]

theorem State.bootCount_dev (hi : s.Inv) (st typ off : Nat) : (s.bootCount st typ off).dev = s.dev :=
  (s.keepsF_bootCount (f := R.START_STATE_DEV_STATE) (by decide) (by decide) (by decide) st typ off hi).2

theorem State.noPricking_su (s : State) : s.noPricking.su = { s.su with stopped := true, benchWait := true } := rfl

theorem State.getF_noPricking (s : State) (f : Field) : s.noPricking.getF f = s.getF f := rfl

/-- A boot failure of a forced slot that cannot be booted stops the unit in BOOT (R87). -/
theorem State.bootFailed_stops (hi : s.Inv) (hd : s.dev = devBoot) (hs : s.getF R.START_OPT_SLOT ≠ 0)
    (hf : (s.stageFault (s.getF R.START_OPT_SLOT - 1)).isSome = true) (st typ off : Nat) :
    (s.bootFailed st typ off).su.stopped = true ∧ (s.bootFailed st typ off).su.failedSlots = s.su.failedSlots ++ [s.booted] ∧
    (s.bootFailed st typ off).getF R.START_FAIL_STATUS = ST.START_NO_IMAGE := by
  obtain ⟨-, -, hsu⟩ := State.bootCount_spec hi st typ off
  have hdev : (s.bootCount st typ off).dev ≠ devLoad := by
    rw [State.bootCount_dev hi, hd]
    decide
  rw [State.bootFailed_forced hi hs hf, if_neg hdev, State.noImage_su, hsu]
  exact ⟨rfl, rfl, State.getF_noImage_status _⟩

/-- A failed load from a forced slot that cannot be booted leaves the unit waiting for a bench pricking (R43). -/
theorem State.bootFailed_awaitsBench (hi : s.Inv) (hd : s.dev = devLoad) (hs : s.getF R.START_OPT_SLOT ≠ 0)
    (hf : (s.stageFault (s.getF R.START_OPT_SLOT - 1)).isSome = true) (st typ off : Nat) :
    (s.bootFailed st typ off).su.stopped = true ∧ (s.bootFailed st typ off).su.benchWait = true ∧
    (s.bootFailed st typ off).getF R.START_FAIL_STATUS = st % 2 ^ 16 := by
  obtain ⟨-, hst, -⟩ := State.bootCount_spec hi st typ off
  have hdev : (s.bootCount st typ off).dev = devLoad := (State.bootCount_dev hi st typ off).trans hd
  rw [State.bootFailed_forced hi hs hf, if_pos hdev, State.noPricking_su, State.getF_noPricking]
  exact ⟨rfl, rfl, hst⟩

theorem State.bootFailed_dev (hi : s.Inv) (hd : s.dev = devBoot) (st typ off : Nat) : (s.bootFailed st typ off).dev = devBoot := by
  have h : s.Booting devBoot (s.getF R.MEM_STATE_DRAM_OK) := ⟨hi, Or.inl hd, rfl⟩
  exact (h.bootFailed (Or.inl rfl) st typ off).dev.elim id id

theorem State.enterLoad_dev (s : State) : s.enterLoad.dev = devLoad := by
  unfold State.enterLoad
  dsimp only
  rw [State.dev, State.getF_withSu, State.getF_setF_ne _ _ _ _ (by decide) (by decide) (by decide)]
  exact State.setDev_dev s devLoad (by decide)

theorem State.enterLoad_loadAt (s : State) : s.enterLoad.su.loadAt = s.mtb := by
  unfold State.enterLoad
  dsimp only
  rw [State.setF_mtb, State.setDev_eq, State.setF_mtb]

theorem execBootComplete_fault {f : Bool} {u w : Nat} (hb : s.booting = true) (hj : s.ky.bootJob = [])
    (hw : s.bootFault s.booted f = some w) : execBootComplete f u s = .next ((s.advance u).bootFailed w 0xF00 0) := by
  have hw' : (s.advance u).bootFault (s.advance u).booted f = some w := hw
  simp only [execBootComplete, hb, hj, List.isEmpty_nil, Bool.not_true, Bool.or_self, Bool.false_eq_true, if_false, hw']

/-- The state in which the second stage has verified everything. -/
def State.verified (s : State) (u : Nat) : State := (s.advance u).dataImages (s.advance u).booted

theorem execBootComplete_done {f : Bool} {u : Nat} (hb : s.booting = true) (hj : s.ky.bootJob = [])
    (hw : s.bootFault s.booted f = none) : execBootComplete f u s =
      .next (if (s.verified u).getF R.START_OPT_HALT = 2 then (s.verified u).holdAt 2 else (s.verified u).enterLoad) := by
  have hw' : (s.advance u).bootFault (s.advance u).booted f = none := hw
  simp only [execBootComplete, hb, hj, List.isEmpty_nil, Bool.not_true, Bool.or_self, Bool.false_eq_true, if_false, hw']
  rfl

theorem bootComplete_leaves (hi : s.Inv) (hd : s.dev = devBoot) (hs : s.su.stopped = false) (hh : s.su.heldAt = 0)
    (hj : s.ky.bootJob = []) (f : Bool) (u : Nat) : Completes (.bootComplete f u) s fun t =>
      (s.bootFault s.booted f = none → if s.getF R.START_OPT_HALT = 2 then t.su.heldAt = 2
        else t.dev = devLoad ∧ t.su.loadAt = max s.mtb u) ∧
      (s.bootFault s.booted f ≠ none → t.dev = devBoot) ∧
      (s.bootFault s.booted f ≠ none → s.getF R.START_OPT_SLOT ≠ 0 →
        (s.stageFault (s.getF R.START_OPT_SLOT - 1)).isSome → t.su.stopped = true) := by
  have hb := State.booting_of hd hs hh
  have hai : (s.advance u).Inv := hi
  cases hw : s.bootFault s.booted f with
  | some w =>
    refine ⟨_, execBootComplete_fault hb hj hw, fun e => absurd e (Option.some_ne_none w),
      fun _ => State.bootFailed_dev hai hd w _ _, fun _ ho hf => ?_⟩
    exact (State.bootFailed_stops hai hd ho hf w _ _).1
  | none =>
    have hv : State.Within [.mem, .ms] (s.advance u) (s.verified u) := State.dataImages_within (.refl _ _) (List.Subset.refl _) _
    have hopt : (s.verified u).getF R.START_OPT_HALT = s.getF R.START_OPT_HALT :=
      (hv.keepsF (f := R.START_OPT_HALT) (by decide) (by decide) hai).2
    refine ⟨_, execBootComplete_done hb hj hw, fun _ => ?_, fun e => absurd rfl e, fun e => absurd rfl e⟩
    rw [hopt]
    split
    · rfl
    · exact ⟨State.enterLoad_dev _, (State.enterLoad_loadAt _).trans (hv.mtb_eq (by decide))⟩

theorem execBootTimeout_late {u : Nat} (hb : s.booting = true) (h : s.su.bootAt + 335156250 < max s.mtb u) :
    execBootTimeout u s = .next ((s.advance u).bootFailed ST.START_BOOT_TIMEOUT 0xF00 0) := by
  have h' : (s.advance u).su.bootAt + 335156250 < (s.advance u).mtb := h
  unfold execBootTimeout
  rw [hb]
  exact congrArg Host.Outcome.next (if_pos h')

/-! ### PRICKING_LOAD (R40 to R44, R88) -/

theorem State.applySections_pr (s : State) (p : Pricking) : (s.applySections p).pr = p := by
  have h0 := State.Within.refl [.gd, .ms, .queues, .ro] ({ s with pr := p } : State)
  unfold State.applySections
  extract_lets u v m w
  have hv : State.Within [.gd, .ms, .queues, .ro] ({ s with pr := p } : State) v := by
    unfold v
    split
    · exact h0
    · exact State.rolesLoad_within h0 (by decide)
  have hw : State.Within [.gd, .ms, .queues, .ro] ({ s with pr := p } : State) w := by
    apply within_upd hv <;> first | exact Or.inl rfl | exact Or.inr (by decide)
  exact (State.queuesReset_within hw (by decide)).same .pr (by decide)

/-- A pricking that has passed is in force; the service port's part stays (R40). -/
theorem State.loadPricking_spec (s : State) (p : Pricking) : (s.loadPricking p).pr = p ∧ (s.loadPricking p).svc = s.svc := by
  refine ⟨?_, (State.loadPricking_within (.refl _ s) (List.Subset.refl _) p).same .svc (by decide)⟩
  refine ((State.enterService_within (.refl _ _) (List.Subset.refl _)).same .pr (by decide)).trans ?_
  exact ((State.loadRegs_within (.refl _ _) (List.Subset.refl _)).same .pr (by decide)).trans (State.applySections_pr _ p)

/-- A boot failure leaves the pricking and the service port. -/
theorem State.bootFailed_pr_svc (s : State) (st typ off : Nat) : (s.bootFailed st typ off).pr = s.pr ∧
    (s.bootFailed st typ off).svc = s.svc := by
  have hw := State.bootFailed_within (.refl _ s) (List.Subset.refl _) st typ off
  exact ⟨hw.same .pr (by decide), hw.same .svc (by decide)⟩

/-- A commit of the service port has ended with the word `w` (R117). -/
def State.commitEnded (s : State) (w : Nat) : State := { s with svc := { s.svc with commit := none, outcome := w } }

theorem State.benchFail_eq (s : State) (f : LoadFault) : s.benchFail f = (s.commitEnded f.status).startFail f.status 0 f.typ f.offset :=
  rfl

theorem State.KeepsF.commitEnded {f : Field} {t : State} (h : s.KeepsF f t) (w : Nat) : s.KeepsF f (t.commitEnded w) := h

theorem State.benchFail_spec (s : State) (f : LoadFault) :
    (s.benchFail f).svc = { s.svc with commit := none, outcome := f.status } ∧ (s.benchFail f).pr = s.pr := by
  rw [State.benchFail_eq]
  have hw := State.startFail_within (.refl _ (s.commitEnded f.status)) (List.Subset.refl _) f.status 0 f.typ f.offset
  exact ⟨hw.same .svc (by decide), hw.same .pr (by decide)⟩

theorem State.benchFail_dev (hi : s.Inv) (f : LoadFault) : (s.benchFail f).dev = s.dev := by
  rw [State.benchFail_eq]
  exact (((State.KeepsF.refl _ s).commitEnded f.status).trans (State.keepsF_startFail _ (by decide) (by decide) _ _ _ _) hi).2

/-- What the checks of a pricking in the staging area find (R40). -/
def State.benchFault (s : State) : Option LoadFault := s.loadFault (s.pricking s.stagingOctets none) (counterOf s.up.prWords)

theorem State.stagingClear_staging (s : State) : s.stagingClear.svc.staging = [] := rfl

theorem State.stageFault_stagingClear (s : State) (k : Nat) : s.stagingClear.stageFault k = s.stageFault k :=
  State.stageFault_congr rfl rfl rfl k

theorem State.stageFault_advance (s : State) (u k : Nat) : (s.advance u).stageFault k = s.stageFault k :=
  State.stageFault_congr rfl rfl rfl k

/-- A failed load from flash clears the staging area and leaves the pricking; it leads to BOOT or stays (R43). -/
theorem State.loadFailed_spec (hi : s.Inv) (hd : s.dev = devLoad) (st typ off : Nat) :
    (s.stagingClear.bootFailed st typ off).svc.staging = [] ∧ (s.stagingClear.bootFailed st typ off).pr = s.pr ∧
    ((s.stagingClear.bootFailed st typ off).dev = devBoot ∨ (s.stagingClear.bootFailed st typ off).dev = devLoad) := by
  obtain ⟨hp, hv⟩ := s.stagingClear.bootFailed_pr_svc st typ off
  have hb : s.stagingClear.Booting devLoad (s.stagingClear.getF R.MEM_STATE_DRAM_OK) := ⟨hi, Or.inr hd, rfl⟩
  exact ⟨(congrArg SvcPort.staging hv).trans s.stagingClear_staging, hp, (hb.bootFailed (Or.inr rfl) st typ off).dev⟩

section
variable {u : Nat} (hd : s.dev = devLoad) (hh : s.su.heldAt = 0)
include hd hh

theorem State.loads_of : ¬ (decide (s.dev ≠ devLoad) || decide (s.su.heldAt ≠ 0)) = true := by simp [hd, hh]

theorem execPrickingLoadDone_benchFails {f : LoadFault} (hc : s.svc.commit = some false) (hf : s.benchFault = some f) :
    execPrickingLoadDone none u s = .next ((s.advance u).benchFail f) := by
  have hf' : (s.advance u).loadFault ((s.advance u).pricking (s.advance u).stagingOctets none)
    (counterOf (s.advance u).up.prWords) = some f := hf
  unfold execPrickingLoadDone
  rw [if_neg (State.loads_of hd hh)]
  dsimp only
  rw [if_pos (show (s.advance u).svc.commit = some false from hc), hf']

theorem execPrickingLoadDone_benchLoads (hc : s.svc.commit = some false) (hf : s.benchFault = none) :
    execPrickingLoadDone none u s =
      .next (((s.advance u).commitEnded ST.OK).loadPricking (s.pricking s.stagingOctets none)) := by
  have hf' : (s.advance u).loadFault ((s.advance u).pricking (s.advance u).stagingOctets none)
    (counterOf (s.advance u).up.prWords) = none := hf
  unfold execPrickingLoadDone
  rw [if_neg (State.loads_of hd hh)]
  dsimp only
  rw [if_pos (show (s.advance u).svc.commit = some false from hc), hf']
  rfl

section
variable {f : Option Nat} (hb : s.su.benchWait = false) (hs : s.su.stopped = false)
include hb hs

theorem execPrickingLoadDone_flashFails {w : LoadFault} (hc : s.svc.commit ≠ some false)
    (hf : s.flashFault (s.pricking (s.prOctets s.booted) f) = some w) :
    execPrickingLoadDone f u s = .next ((s.advance u).stagingClear.bootFailed w.status w.typ w.offset) := by
  have hf' : (s.advance u).flashFault ((s.advance u).pricking ((s.advance u).prOctets (s.advance u).booted) f) = some w := hf
  have hw : ¬ ((s.advance u).su.benchWait || (s.advance u).su.stopped) = true := by simp [hb, hs]
  unfold execPrickingLoadDone
  rw [if_neg (State.loads_of hd hh)]
  dsimp only
  rw [if_neg (show ¬ (s.advance u).svc.commit = some false from hc), if_neg hw, hf']

theorem execPrickingLoadDone_flashLoads (hc : s.svc.commit ≠ some false)
    (hf : s.flashFault (s.pricking (s.prOctets s.booted) f) = none) :
    execPrickingLoadDone f u s = .next ((s.advance u).stagingClear.loadPricking (s.pricking (s.prOctets s.booted) f)) := by
  have hf' : (s.advance u).flashFault ((s.advance u).pricking ((s.advance u).prOctets (s.advance u).booted) f) = none := hf
  have hw : ¬ ((s.advance u).su.benchWait || (s.advance u).su.stopped) = true := by simp [hb, hs]
  unfold execPrickingLoadDone
  rw [if_neg (State.loads_of hd hh)]
  dsimp only
  rw [if_neg (show ¬ (s.advance u).svc.commit = some false from hc), if_neg hw, hf']
  rfl

theorem execPrickingLoadTimeout_late (h : s.su.loadAt + 25781250 < max s.mtb u) :
    execPrickingLoadTimeout u s = .next ((s.advance u).stagingClear.bootFailed ST.START_LOAD_TIMEOUT 0xF00 0) := by
  have he : ¬ (decide (s.dev ≠ devLoad) || decide (s.su.heldAt ≠ 0) || s.su.benchWait || s.su.stopped) = true := by
    simp [hd, hh, hb, hs]
  have h' : (s.advance u).su.loadAt + 25781250 < (s.advance u).mtb := h
  unfold execPrickingLoadTimeout
  rw [if_neg he]
  exact congrArg Host.Outcome.next (if_pos h')

theorem prickingLoadDone_fromFlash (hi : s.Inv) (hc : s.svc.commit ≠ some false) : Completes (.prickingLoadDone f u) s fun t =>
    t.svc.staging = [] ∧
    (s.flashFault (s.pricking (s.prOctets s.booted) f) = none → t.pr = s.pricking (s.prOctets s.booted) f) ∧
    (s.flashFault (s.pricking (s.prOctets s.booted) f) ≠ none → t.pr = s.pr ∧ (t.dev = devBoot ∨ t.dev = devLoad)) := by
  cases hf : s.flashFault (s.pricking (s.prOctets s.booted) f) with
  | none =>
    obtain ⟨hp, hv⟩ := (s.advance u).stagingClear.loadPricking_spec (s.pricking (s.prOctets s.booted) f)
    exact ⟨_, execPrickingLoadDone_flashLoads hd hh hb hs hc hf, (congrArg SvcPort.staging hv).trans (State.stagingClear_staging _),
      fun _ => hp, fun h => absurd rfl h⟩
  | some w =>
    obtain ⟨hv, hp, hdev⟩ := State.loadFailed_spec (s := s.advance u) hi hd w.status w.typ w.offset
    exact ⟨_, execPrickingLoadDone_flashFails hd hh hb hs hc hf, hv,
      fun h => absurd h (Option.some_ne_none w), fun _ => ⟨hp, hdev⟩⟩

theorem prickingLoadTimeout_fails (hi : s.Inv) (h : s.su.loadAt + 25781250 < max s.mtb u) :
    Completes (.prickingLoadTimeout u) s fun t => t.svc.staging = [] ∧ t.pr = s.pr ∧
      (s.getF R.START_OPT_SLOT ≠ 0 → (s.stageFault (s.getF R.START_OPT_SLOT - 1)).isSome →
        t.su.stopped = true ∧ t.su.benchWait = true ∧ t.getF R.START_FAIL_STATUS = ST.START_LOAD_TIMEOUT) := by
  obtain ⟨hv, hp, -⟩ := State.loadFailed_spec (s := s.advance u) hi hd ST.START_LOAD_TIMEOUT 0xF00 0
  refine ⟨_, execPrickingLoadTimeout_late hd hh hb hs h, hv, hp, fun ho hf => ?_⟩
  have hopt : (s.advance u).stagingClear.getF R.START_OPT_SLOT = s.getF R.START_OPT_SLOT := rfl
  refine State.bootFailed_awaitsBench (s := (s.advance u).stagingClear) hi hd (by rw [hopt]; exact ho) ?_ ST.START_LOAD_TIMEOUT _ _
  rw [hopt, State.stageFault_stagingClear, State.stageFault_advance]
  exact hf

end

theorem prickingLoadDone_fromBench (hc : s.svc.commit = some false) : Completes (.prickingLoadDone none u) s fun t =>
    match s.benchFault with
    | none => t.pr = s.pricking s.stagingOctets none ∧ t.svc.outcome = ST.OK
    | some f => t.svc.outcome = f.status ∧ t.svc.commit = none ∧ t.pr = s.pr := by
  cases hf : s.benchFault with
  | none =>
    obtain ⟨hp, hv⟩ := ((s.advance u).commitEnded ST.OK).loadPricking_spec (s.pricking s.stagingOctets none)
    exact ⟨_, execPrickingLoadDone_benchLoads hd hh hc hf, hp, congrArg SvcPort.outcome hv⟩
  | some f =>
    obtain ⟨hv, hp⟩ := (s.advance u).benchFail_spec f
    exact ⟨_, execPrickingLoadDone_benchFails hd hh hc hf, congrArg SvcPort.outcome hv, congrArg SvcPort.commit hv, hp⟩

end

/-! ### A check-only commit (R117) -/

theorem execBenchCheckDone_fails {u : Nat} {f : LoadFault} (hc : s.svc.commit = some true) (hf : s.benchFault = some f) :
    execBenchCheckDone u s = .next ((s.advance u).benchFail f) := by
  have hf' : (s.advance u).loadFault ((s.advance u).pricking (s.advance u).stagingOctets none)
    (counterOf (s.advance u).up.prWords) = some f := hf
  unfold execBenchCheckDone
  rw [if_neg (not_not.mpr hc)]
  dsimp only
  rw [hf']

theorem execBenchCheckDone_passes {u : Nat} (hc : s.svc.commit = some true) (hf : s.benchFault = none) :
    execBenchCheckDone u s = .next ((s.advance u).commitEnded ST.OK) := by
  have hf' : (s.advance u).loadFault ((s.advance u).pricking (s.advance u).stagingOctets none)
    (counterOf (s.advance u).up.prWords) = none := hf
  unfold execBenchCheckDone
  rw [if_neg (not_not.mpr hc)]
  dsimp only
  rw [hf']
  rfl

theorem benchCheckDone_ends (hi : s.Inv) (hc : s.svc.commit = some true) (u : Nat) : Completes (.benchCheckDone u) s fun t =>
    t.svc.commit = none ∧ (t.svc.outcome = (match s.benchFault with | none => ST.OK | some f => f.status)) ∧
    t.pr = s.pr ∧ t.dev = s.dev := by
  cases hf : s.benchFault with
  | none => exact ⟨_, execBenchCheckDone_passes hc hf, rfl, rfl, rfl, rfl⟩
  | some f =>
    obtain ⟨hv, hp⟩ := (s.advance u).benchFail_spec f
    exact ⟨_, execBenchCheckDone_fails hc hf, congrArg SvcPort.commit hv, congrArg SvcPort.outcome hv, hp,
      State.benchFail_dev (s := s.advance u) hi f⟩

theorem bootTimeout_fails (hi : s.Inv) (hd : s.dev = devBoot) (hs : s.su.stopped = false) (hh : s.su.heldAt = 0) {u : Nat}
    (h : s.su.bootAt + 335156250 < max s.mtb u) : Completes (.bootTimeout u) s fun t => t.dev = devBoot ∧
      (s.getF R.START_OPT_SLOT ≠ 0 → (s.stageFault (s.getF R.START_OPT_SLOT - 1)).isSome → t.su.stopped = true ∧
        t.su.failedSlots = s.su.failedSlots ++ [s.booted] ∧ t.getF R.START_FAIL_STATUS = ST.START_NO_IMAGE) :=
  ⟨_, execBootTimeout_late (State.booting_of hd hs hh) h, State.bootFailed_dev (s := s.advance u) hi hd _ _ _, fun ho hf =>
    State.bootFailed_stops (s := s.advance u) hi hd ho hf _ _ _⟩

end
end Sys2Proof.Machine

section
open Sys2Proof Sys2Proof.Machine

/-- Settles O3: each completion of the start-up sequence comes down to what its entry (DRAM_TRAIN, BOOT, PRICKING_LOAD) and the
failures keep; the choice of a slot, repeated through the boot failures, is followed by induction on its fuel. -/
theorem bootCommands : Obligations.BootCommands := by
  unfold Obligations.BootCommands
  intro s hi
  refine ⟨?_, ?_, ?_, ?_, ?_, ?_, ?_, ?_, ?_, ?_, ?_, ?_⟩
  · exact rootPllLock_trains hi
  · exact rootLockTimeout_awaits hi
  · exact fun u hd hs hh h4 h2 => dramTrainStageEnd_passes hd hs hh u h4 h2
  · exact fun u hd hs hh => ⟨_, execDramTrainStageEnd_fail hd hs hh u, (s.advance u).dramFail_spec⟩
  · exact fun u hd hs hh h4 => dramTrainStageEnd_ends hi hd hs hh h4 u
  · exact fun u hd hs hh h => ⟨_, execDramTrainTimeout_late hd hs hh u h, (s.advance u).dramFail_spec⟩
  · exact fun f u hd hs hh hj => bootComplete_leaves hi hd hs hh hj f u
  · exact fun u hd hs hh h => bootTimeout_fails hi hd hs hh h
  · exact fun u hd hh hc => prickingLoadDone_fromBench hd hh hc
  · exact fun f u hd hh hc hb hs => prickingLoadDone_fromFlash hd hh hb hs hi hc
  · exact fun u hd hh hb hs h => prickingLoadTimeout_fails hd hh hb hs hi h
  · exact fun u hc => benchCheckDone_ends hi hc u

end

namespace Sys2Proof.Machine
open Sys2Proof

/-! ### What a run of register writes spares -/

/-- From `s` to `t` the invariant is kept, and every field that is apart from those of `l` and stands outside the blocks of `bs`
keeps its value. -/
structure State.Spares (l : List Field) (bs : List Nat) (s t : State) : Prop where
  inv : s.Inv → t.Inv
  getF : ∀ f : Field, f.ok = true → (∀ g ∈ l, g.apart f = true) → regBlock f.addr ∉ bs → s.Inv → t.getF f = s.getF f

/-- A part that leaves the registers outside the blocks of `bs` as they are. -/
def Part.outside (bs : List Nat) : Part → Bool
  | .regs => false
  | .block b => bs.contains b
  | _ => true

section
variable {l m : List Field} {bs cs : List Nat} {s t u : State}

theorem State.Spares.refl (l : List Field) (bs : List Nat) (s : State) : s.Spares l bs s := ⟨id, fun _ _ _ _ _ => rfl⟩

theorem State.Spares.trans (h : s.Spares l bs t) (k : t.Spares l bs u) : s.Spares l bs u :=
  ⟨fun hi => k.inv (h.inv hi), fun f hf ha hb hi => (k.getF f hf ha hb (h.inv hi)).trans (h.getF f hf ha hb hi)⟩

theorem State.Spares.mono (h : s.Spares l bs t) (hl : l ⊆ m) (hb : bs ⊆ cs) : s.Spares m cs t :=
  ⟨h.inv, fun f hf ha hc => h.getF f hf (fun g hg => ha g (hl hg)) fun e => hc (hb e)⟩

theorem State.Spares.isSet (h : s.Spares l bs t) (hi : s.Inv) {f : Field} (hf : f.ok = true) (ha : ∀ g ∈ l, g.apart f = true)
    (hb : regBlock f.addr ∉ bs) : t.isSet f = s.isSet f := by
  rw [State.isSet, h.getF f hf ha hb hi, State.isSet]

/-- What an operation's own frame says of the registers. -/
theorem State.Within.spares {T : List Part} (h : State.Within T s t) (hT : T.all (Part.outside bs) = true) : s.Spares l bs t := by
  rw [List.all_eq_true] at hT
  refine ⟨h.inv, fun f _ _ hb hi => State.getF_congr (h.regs hi (fun e => ?_) _ fun e => hb ?_)⟩
  · exact Bool.false_ne_true (hT _ e)
  · exact List.contains_iff_mem.mp (hT _ e)

theorem State.Spares.within {T : List Part} (h : s.Spares l bs t) (k : State.Within T t u) (hT : T.all (Part.outside bs) = true) :
    s.Spares l bs u := h.trans (k.spares hT)

theorem State.Spares.setF (h : s.Spares l bs t) {g : Field} (hg : g ∈ l) (hw : g.lo + g.width ≤ 32) (v : Nat) :
    s.Spares l bs (t.setF g v) :=
  h.trans ⟨fun hi => State.inv_setF hi g v, fun f hf ha _ _ => State.getF_setF_ne t g f v hw hf (ha g hg)⟩

theorem State.Spares.clk (h : s.Spares l bs t) (c : Clk) : s.Spares l bs { t with clk := c } := ⟨h.inv, h.getF⟩

theorem State.Spares.setB (h : s.Spares l bs t) {g : Field} (hg : g ∈ l) (hw : g.lo + g.width ≤ 32) (b : Bool) :
    s.Spares l bs (t.setB g b) := h.setF hg hw _

theorem State.Spares.bump (h : s.Spares l bs t) {g : Field} (hg : g ∈ l) (hw : g.lo + g.width ≤ 32) : s.Spares l bs (t.bump g) :=
  h.setF hg hw _

theorem State.Spares.raise (h : s.Spares l bs t) {g : Field} (hg : g ∈ l) (hw : g.lo + g.width ≤ 32) : s.Spares l bs (t.raise g) :=
  h.trans ⟨fun hi => (State.raise_within (.refl [.regs, .notes] t) (by decide) g (Or.inl (by decide))).inv hi,
    fun f hf ha _ _ => State.getF_raise_ne t g f hw hf (ha g hg)⟩

theorem State.Spares.raiseIf (h : s.Spares l bs t) {g : Field} (hg : g ∈ l) (hw : g.lo + g.width ≤ 32) (c : Bool) :
    s.Spares l bs (t.raiseIf c g) := by
  cases c
  · exact h
  · exact h.raise hg hw

theorem State.Spares.each {α : Type} (h : s.Spares l bs t) (as : List α) {k : State → α → State}
    (hk : ∀ u, s.Spares l bs u → ∀ a ∈ as, s.Spares l bs (k u a)) : s.Spares l bs (t.each as k) := by
  unfold State.each
  induction as generalizing t with
  | nil => exact h
  | cons a as ih => exact ih (hk t h a (by simp)) fun u hu b hb => hk u hu b (by simp [hb])

theorem State.Spares.ite {c : Prop} [Decidable c] (ht : c → s.Spares l bs t) (hu : ¬ c → s.Spares l bs u) :
    s.Spares l bs (if c then t else u) := by
  split
  · exact ht ‹_›
  · exact hu ‹_›

end

/-! ### The root and its sources (R53 to R60) -/

/-- The fields that the root's way through its sources and holds writes. -/
def rootFields : List Field :=
  [srcF R.CLK_SRC_UPL0_INSVC 0, srcF R.CLK_SRC_UPL0_INSVC 1, srcF R.CLK_SRC_UPL0_INSVC 2, R.CLK_STATE_ROOT_SRC,
    R.CLK_STATE_CLK_MODE, R.CLK_STATE_TX_OK, R.CLK_EVENT_SRC_SWITCH, R.CLK_EVENT_HOLD_ENTER, R.CLK_EVENT_HOLD_EXIT,
    R.START_STATE_DEV_STATE]

section
variable {l : List Field} {bs : List Nat} {s t : State}

theorem rootFields_fit : ∀ g ∈ rootFields, g.lo + g.width ≤ 32 := by decide

theorem insvc_mem_rootFields {k : Nat} (hk : k ∈ [0, 1, 2]) : srcF R.CLK_SRC_UPL0_INSVC k ∈ rootFields := by
  simp only [List.mem_cons, List.not_mem_nil, or_false] at hk
  rcases hk with rfl | rfl | rfl <;> decide

theorem State.setClkMode_spares (s : State) (m : Nat) : s.Spares rootFields [] (s.setClkMode m) :=
  ((State.Spares.refl _ _ s).setF (by decide) (by decide) m).setB (by decide) (by decide) _

theorem State.switchTo_spares (s : State) (n : Nat) : s.Spares rootFields [] (s.switchTo n) := by
  unfold State.switchTo
  have h := (State.Spares.refl rootFields [] s).within (State.recordHeld_within (.refl _ s) (List.Subset.refl _)) (by decide)
  refine State.Spares.trans (State.Spares.setF ?_ (by decide) (by decide) n) (State.setClkMode_spares _ _)
  exact h.each _ fun u hu k hk => hu.setB (insvc_mem_rootFields hk) (rootFields_fit _ (insvc_mem_rootFields hk)) _

theorem State.holdRoot_spares (s : State) : s.Spares rootFields [] s.holdRoot := by
  have h : s.Spares rootFields [] (s.each [0, 1, 2] (fun s k => s.setB (srcF R.CLK_SRC_UPL0_INSVC k) false)) :=
    (State.Spares.refl _ _ s).each _ fun u hu k hk =>
      hu.setB (insvc_mem_rootFields hk) (rootFields_fit _ (insvc_mem_rootFields hk)) _
  unfold State.holdRoot
  exact ((h.setF (g := R.CLK_STATE_ROOT_SRC) (by decide) (by decide) 3).trans (State.setClkMode_spares _ 2)).clk _

theorem State.enterHold_spares (s : State) : s.Spares rootFields [] s.enterHold := by
  unfold State.enterHold
  refine State.Spares.raise (State.Spares.clk ?_ _) (by decide) (by decide)
  exact s.holdRoot_spares.setF (by decide) (by decide) devHold

/-- What a change of locks or qualifications can do to the clock root; the return to AWAIT_TRAINING alone needs a state of
start-up whose root source is not locked. -/
theorem State.clockDecide_cases {P : State → Prop} (s : State) (hsame : P s) (hswitch : ∀ n, P (s.switchTo n))
    (hservice : ∀ n, P ((s.switchTo n).raise R.CLK_EVENT_SRC_SWITCH)) (hhold : P s.enterHold)
    (hexit : ∀ n, P (((s.switchTo n).setDev devService).raise R.CLK_EVENT_HOLD_EXIT)) (hroot : P s.holdRoot)
    (hawait : s.rootKept = false → P s.toAwait) : P s.clockDecide := by
  unfold State.clockDecide
  extract_lets cur d
  have await (hl : ¬ (decide (cur < 3) && s.srcLocked cur) = true) (hd : devRootLock ≤ d ∧ d ≤ devLoad) : P s.toAwait := by
    refine hawait ?_
    have hc : s.srcLocked cur = false := by
      simp only [Bool.and_eq_true, decide_eq_true_eq, not_and, Bool.not_eq_true] at hl
      by_cases h3 : cur < 3
      · exact hl h3
      · simp [State.srcLocked, h3]
    simp only [State.rootKept, Bool.or_eq_false_iff, decide_eq_false_iff_not, Nat.not_lt]
    exact ⟨⟨hd.1, hd.2⟩, hc⟩
  split
  · split
    · exact hservice _
    · split
      · exact hsame
      · exact hhold
  · split
    · split
      · exact hexit _
      · exact hsame
    · split
      · next h =>
        split
        · exact hsame
        · next hl =>
          split
          · exact hswitch _
          · refine await hl ?_
            simp only [Bool.or_eq_true, decide_eq_true_eq] at h
            rcases h with (h | h) | h <;> rw [h] <;> decide
      · split
        · next h =>
          split
          · exact hsame
          · next hl => exact await hl (by rw [h]; decide)
        · split
          · split
            · exact hswitch _
            · split
              · exact hsame
              · exact hroot
          · exact hsame

/-- Where the root source of a state of start-up is locked, the root's fields are all that a change of locks writes. -/
theorem State.clockDecide_spares (hk : s.rootKept = true) : s.Spares rootFields [] s.clockDecide :=
  s.clockDecide_cases (.refl _ _ s) (fun n => s.switchTo_spares n) (fun n => (s.switchTo_spares n).raise (by decide) (by decide))
    s.enterHold_spares (fun n => ((s.switchTo_spares n).setF (by decide) (by decide) _).raise (by decide) (by decide))
    s.holdRoot_spares fun h => absurd hk (by simp [h])

theorem State.clockDecide_within_kept (hk : s.rootKept = true) :
    State.Within [.block 1, .block 2, .clk, .freeIx, .notes] s s.clockDecide := by
  have sw (n : Nat) : State.Within [.block 1, .block 2, .clk, .freeIx, .notes] s (s.switchTo n) :=
    State.switchTo_within (.refl _ s) (by decide) n
  refine s.clockDecide_cases (.refl _ s) sw (fun n => State.raise_within (sw n) (by decide) _ (Or.inr (by simp)))
    (State.enterHold_within (.refl _ s) (by decide)) (fun n => ?_) (State.holdRoot_within (.refl _ s) (by decide))
    fun h => absurd hk (by simp [h])
  exact State.raise_within (State.setDev_within (sw n) (by decide) _) (by decide) _ (Or.inr (by simp))
end
end Sys2Proof.Machine

namespace Sys2Proof.Machine
open Sys2Proof

/-- The bits of a source, as those of source 0. -/
def sourceBits : List Field :=
  [R.CLK_SRC_UPL0_LOCK, R.CLK_SRC_UPL0_QUAL, R.CLK_SRC_UPL0_BLOCKED, R.CLK_SRC_UPL0_PASS, R.CLK_SRC_UPL0_OFFSET]

/-- The fields that say whether the root source is locked in a state of start-up. -/
def keptFields : List Field :=
  [R.START_STATE_DEV_STATE, R.CLK_STATE_ROOT_SRC, srcF R.CLK_SRC_UPL0_LOCK 0, srcF R.CLK_SRC_UPL0_LOCK 1,
    srcF R.CLK_SRC_UPL0_LOCK 2]

/-- The fields that the return to AWAIT_TRAINING writes once the blocks have been reset. -/
def awaitFields : List Field :=
  [R.CLK_EVENT_PARK, R.CLK_EVENT_PLL_FAULT, R.START_STATE_BOOT_MODE, R.START_STATE_SRC_LOCK, R.START_CAUSE_CAUSE,
    R.START_CAUSE_COUNT, R.START_STATE_DEV_STATE]

section
variable {l : List Field} {bs : List Nat} {s t : State} {n k : Nat} {f g : Field}

theorem sourceBits_ok (hn : n < 3) (hf : f ∈ sourceBits) : (srcF f n).ok = true := by
  have h : ∀ n : Fin 3, ∀ f ∈ sourceBits, (srcF f n).ok = true := by decide
  exact h ⟨n, hn⟩ f hf

theorem sourceBits_block (hn : n < 3) (hf : f ∈ sourceBits) : regBlock (srcF f n).addr = 1 := by
  have h : ∀ n : Fin 3, ∀ f ∈ sourceBits, regBlock (srcF f n).addr = 1 := by decide
  exact h ⟨n, hn⟩ f hf

theorem rootFields_apart_source (hn : n < 3) (hf : f ∈ sourceBits) : ∀ g ∈ rootFields, g.apart (srcF f n) = true := by
  have h : ∀ n : Fin 3, ∀ f ∈ sourceBits, ∀ g ∈ rootFields, g.apart (srcF f n) = true := by decide
  exact h ⟨n, hn⟩ f hf

theorem State.srcLocked_eq (s : State) (hn : n < 3) : s.srcLocked n = s.isSet (srcF R.CLK_SRC_UPL0_LOCK n) := by
  simp [State.srcLocked, hn]

theorem State.srcQual_eq (s : State) (hn : n < 3) : s.srcQual n = s.isSet (srcF R.CLK_SRC_UPL0_QUAL n) := by
  simp [State.srcQual, hn]

theorem State.Spares.source (h : s.Spares l bs t) (hi : s.Inv) (hn : n < 3) (hf : f ∈ sourceBits)
    (ha : ∀ g ∈ l, g.apart (srcF f n) = true) (hb : 1 ∉ bs) : t.getF (srcF f n) = s.getF (srcF f n) :=
  h.getF _ (sourceBits_ok hn hf) ha (by rwa [sourceBits_block hn hf]) hi

theorem State.Spares.srcLocked (h : s.Spares l bs t) (hi : s.Inv) (hn : n < 3)
    (ha : ∀ g ∈ l, g.apart (srcF R.CLK_SRC_UPL0_LOCK n) = true) (hb : 1 ∉ bs) : t.srcLocked n = s.srcLocked n := by
  rw [State.srcLocked_eq _ hn, State.srcLocked_eq _ hn, State.isSet, State.isSet, h.source hi hn (by decide) ha hb]

theorem State.Spares.srcQual (h : s.Spares l bs t) (hi : s.Inv) (hn : n < 3)
    (ha : ∀ g ∈ l, g.apart (srcF R.CLK_SRC_UPL0_QUAL n) = true) (hb : 1 ∉ bs) : t.srcQual n = s.srcQual n := by
  rw [State.srcQual_eq _ hn, State.srcQual_eq _ hn, State.isSet, State.isSet, h.source hi hn (by decide) ha hb]

theorem State.Spares.rootKept (h : s.Spares l bs t) (hi : s.Inv) (ha : ∀ f ∈ keptFields, ∀ g ∈ l, g.apart f = true)
    (hb : 1 ∉ bs ∧ 2 ∉ bs) : t.rootKept = s.rootKept := by
  simp only [keptFields, List.forall_mem_cons] at ha
  obtain ⟨hd, hr, h0, h1, h2, -⟩ := ha
  have dev : t.dev = s.dev := h.getF _ (by decide) hd (by simpa using hb.2) hi
  have root : t.getF R.CLK_STATE_ROOT_SRC = s.getF R.CLK_STATE_ROOT_SRC := h.getF _ (by decide) hr (by simpa using hb.1) hi
  have lock : ∀ n, t.srcLocked n = s.srcLocked n := by
    intro n
    by_cases hn : n < 3
    · refine h.srcLocked hi hn ?_ hb.1
      interval_cases n
      · exact h0
      · exact h1
      · exact h2
    · simp [State.srcLocked, hn]
  rw [State.rootKept, State.rootKept, dev, root, lock]

/-! ### The return to AWAIT_TRAINING and the entry to PARK in the registers (R64, R84) -/

/-- A key whose entries all go reads as the table's default. -/
theorem Store.get_filter_gone {α : Type} (d : Nat → α) (m : List (Nat × α)) {p : Nat × α → Bool} (hp : ∀ v, p (k, v) = false) :
    Store.get d (m.filter p) k = d k :=
  Store.get_of_not_mem d _ fun x hx e => by
    obtain ⟨j, v⟩ := x
    subst e
    exact absurd (List.mem_filter.mp hx).2 (by simp [hp v])

theorem State.getF_cleared_gone (s : State) (warm keepTab : Bool) (h : keptReg k f.addr = false) :
    (s.cleared k warm keepTab).getF f = f.get (regReset f.addr) :=
  congrArg f.get (Store.get_filter_gone regReset s.regs fun _ => h)

/-- What the resets of a park restart and of the return to AWAIT_TRAINING write once the blocks are clear: the two events of the
clock root that stay, and the start-up state. -/
theorem State.resetBlocks_eq (hi : s.Inv) (hk : k = 3 ∨ k = 6) (fault : Bool) : ∃ (u : State) (m : Nat), u.Inv ∧
    s.resetBlocks k fault = ((((u.cleared k false (dramKept k fault)).setF R.CLK_EVENT_PARK (s.getF R.CLK_EVENT_PARK)).setF
      R.CLK_EVENT_PLL_FAULT (s.getF R.CLK_EVENT_PLL_FAULT)).setF R.START_STATE_BOOT_MODE m).setF R.START_STATE_SRC_LOCK 0 := by
  unfold State.resetBlocks
  extract_lets s1 s2 park pll mode lock tie warm keepTab s3 s4 s5 s6
  have h2 : State.Within [.block 20, .block 22, .cmp, .freeIx, .ky, .mem, .notes, .out, .pa, .resp, .ro, .up] s s2 := by
    have h1 := State.sessionAbort_within (State.each_within (.refl [.block 20, .block 22, .cmp, .freeIx, .ky, .mem, .notes, .out,
      .pa, .resp, .ro, .up] s) (s.ro.sessions.map (·.1)) _ fun t n ht => State.sessionEnd_within ht (by decide) n) (by decide)
      ST.UPDATE_ABORTED
    exact within_ite (fun _ => State.holdOutputs_within h1 (by decide)) fun _ => h1
  have hp : park = s.getF R.CLK_EVENT_PARK := State.getF_congr (h2.regs hi (by decide) _ (by decide))
  have hl : pll = s.getF R.CLK_EVENT_PLL_FAULT := State.getF_congr (h2.regs hi (by decide) _ (by decide))
  have hw : warm = false := by rcases hk with rfl | rfl <;> rfl
  have h3 : 3 ≤ k := by omega
  refine ⟨s3, mode, (State.resetMem_within h2 (by decide) k fault).inv hi, ?_⟩
  simp only [s6, s5, s4, hw, hp, hl, h3, if_true, Bool.false_eq_true, if_false, keepTab]

/-- A register that the return to AWAIT_TRAINING resets. -/
theorem State.getF_toAwait_gone (hi : s.Inv) (hf : f.ok = true) (hk : keptReg 6 f.addr = false)
    (ha : ∀ g ∈ awaitFields, g.apart f = true) : s.toAwait.getF f = f.get (regReset f.addr) := by
  obtain ⟨u, m, hu, e⟩ := s.resetBlocks_eq (k := 6) hi (Or.inr rfl) false
  have hc : (u.cleared 6 false (dramKept 6 false)).Inv := (State.cleared_within (.refl _ u) (List.Subset.refl _) 6 _ _).inv hu
  have h : (u.cleared 6 false (dramKept 6 false)).Spares awaitFields [] s.toAwait := by
    rw [State.toAwait, e, State.writeCause]
    refine State.Spares.setF (State.Spares.bump (State.Spares.setF ?_ (by decide) (by decide) _) (by decide) (by decide))
      (by decide) (by decide) _
    refine State.Spares.setF (State.Spares.setF (State.Spares.setF (State.Spares.setF (.refl _ _ _) ?_ ?_ _) ?_ ?_ _) ?_ ?_ _)
      ?_ ?_ _ <;> decide
  rw [h.getF f hf ha (by simp) hc, State.getF_cleared_gone _ _ _ hk]

theorem State.toAwait_locks (s : State) : s.toAwait.clk.locks = [] := rfl

theorem State.srcLocked_toAwait (hi : s.Inv) (n : Nat) : s.toAwait.srcLocked n = false := by
  by_cases hn : n < 3
  · have h : ∀ n : Fin 3, keptReg 6 (srcF R.CLK_SRC_UPL0_LOCK n).addr = false ∧
        (∀ g ∈ awaitFields, g.apart (srcF R.CLK_SRC_UPL0_LOCK n) = true) ∧
        (srcF R.CLK_SRC_UPL0_LOCK n).get (regReset (srcF R.CLK_SRC_UPL0_LOCK n).addr) = 0 := by decide
    obtain ⟨hk, ha, hz⟩ := h ⟨n, hn⟩
    rw [State.srcLocked_eq _ hn, State.isSet, State.getF_toAwait_gone hi (sourceBits_ok hn (by decide)) hk ha, hz]
    rfl
  · simp [State.srcLocked, hn]

/-- A change of locks writes the root's fields, or leads back to AWAIT_TRAINING. -/
theorem State.clockDecide_or (s : State) : s.Spares rootFields [] s.clockDecide ∨ (s.rootKept = false ∧ s.clockDecide = s.toAwait) :=
  s.clockDecide_cases (P := fun t => s.Spares rootFields [] t ∨ (s.rootKept = false ∧ t = s.toAwait)) (Or.inl (.refl _ _ s))
    (fun n => Or.inl (s.switchTo_spares n)) (fun n => Or.inl ((s.switchTo_spares n).raise (by decide) (by decide)))
    (Or.inl s.enterHold_spares)
    (fun n => Or.inl (((s.switchTo_spares n).setF (by decide) (by decide) _).raise (by decide) (by decide)))
    (Or.inl s.holdRoot_spares) fun h => Or.inr ⟨h, rfl⟩

theorem State.clockDecide_inv (hi : s.Inv) : s.clockDecide.Inv :=
  (State.clockDecide_within (.refl _ s) (List.Subset.refl _)).inv hi

theorem State.srcLocked_clockDecide (hi : s.Inv) (h : s.srcLocked n = false) : s.clockDecide.srcLocked n = false := by
  rcases s.clockDecide_or with hs | ⟨-, e⟩
  · by_cases hn : n < 3
    · rw [hs.srcLocked hi hn (rootFields_apart_source hn (by decide)) (by simp), h]
    · simp [State.srcLocked, hn]
  · rw [e, State.srcLocked_toAwait hi]

theorem State.clockDecide_awaits (hd : s.dev = devRootLock) (hl : s.srcLocked (s.getF R.CLK_STATE_ROOT_SRC) = false) :
    s.clockDecide = s.toAwait := by
  simp [State.clockDecide, hd, hl, devRootLock, devService, devHold, devHoldInhibit, devDramTrain, devBoot, devLoad]

theorem State.clockDecide_holds (hd : s.dev = devService) (hq : ∀ n, s.srcQual n = false) : s.clockDecide = s.enterHold := by
  have hs : s.serviceSwitch = none := by simp [State.serviceSwitch, State.bestSrc, hq]
  simp [State.clockDecide, hd, hs, hq]

theorem State.getF_withClk (s : State) (c : Clk) (f : Field) : ({ s with clk := c } : State).getF f = s.getF f := rfl

theorem State.dev_withClk (s : State) (c : Clk) : ({ s with clk := c } : State).dev = s.dev := rfl

theorem State.setClkMode_spec (s : State) (m : Nat) : (s.setClkMode m).getF R.CLK_STATE_CLK_MODE = m % 16 ∧
    (s.setClkMode m).getF R.CLK_STATE_TX_OK = (if m = 1 || m = 2 then 1 else 0) := by
  unfold State.setClkMode
  rw [State.setB_eq]
  simp (disch := decide) only [State.getF_setF_ne, State.getF_setF_same]
  refine ⟨rfl, ?_⟩
  split <;> rfl

theorem State.getF_setClkMode_root (s : State) (m : Nat) :
    (s.setClkMode m).getF R.CLK_STATE_ROOT_SRC = s.getF R.CLK_STATE_ROOT_SRC := by
  unfold State.setClkMode
  rw [State.setB_eq]
  simp (disch := decide) only [State.getF_setF_ne]

theorem State.enterHold_spec (s : State) : s.enterHold.dev = devHold ∧ s.enterHold.getF R.CLK_STATE_ROOT_SRC = 3 ∧
    s.enterHold.getF R.CLK_EVENT_HOLD_ENTER = 1 := by
  unfold State.enterHold
  refine ⟨?_, ?_, State.getF_raise_same _ _ (by decide) rfl⟩
  · rw [State.dev, State.getF_raise_ne _ _ _ (by decide) (by decide) (by decide), State.getF_withClk]
    exact State.setDev_dev _ _ (by decide)
  · rw [State.getF_raise_ne _ _ _ (by decide) (by decide) (by decide), State.getF_withClk, State.setDev_eq,
      State.getF_setF_ne _ _ _ _ (by decide) (by decide) (by decide), State.holdRoot, State.getF_withClk,
      State.getF_setClkMode_root, State.getF_setF_same _ _ _ (by decide)]
    rfl

end
end Sys2Proof.Machine

namespace Sys2Proof.Machine
open Sys2Proof

/-! ### A source becomes locked (R50, R52) -/

section
variable {s t : State} {n : Nat}

/-- The lock of a source in the registers and in the order of locking. -/
def State.lockAdded (s : State) (n : Nat) : State :=
  let s := s.setF (srcF R.CLK_SRC_UPL0_LOCK n) 1
  let s := s.setF R.START_STATE_SRC_LOCK (putBit (s.getF R.START_STATE_SRC_LOCK) n true)
  { s with clk := { s.clk with locks := s.clk.locks ++ [n] } }

/-- The tie link's lock comes with R51's block. -/
def State.lockNoted (s : State) (n : Nat) : State :=
  if n = 2 then (s.lockAdded n).setB (srcF R.CLK_SRC_UPL0_BLOCKED 2) (s.lockAdded n).tieBlocked else s.lockAdded n

/-- At start-up and in PARK the source becomes the root source. -/
def State.rooted (s : State) (n : Nat) : State :=
  let s := if s.dev = devPark then s.writeCause 3 else s
  ((s.setDev devRootLock).setF R.CLK_STATE_ROOT_SRC n).setF (srcF R.CLK_SRC_UPL0_INSVC n) 1

theorem State.sourceLocked_eq (hl : s.srcLocked n = false) (hd : s.dev ≠ devUnpowered) : s.sourceLocked n =
    if (s.lockNoted n).dev = devAwait ∨ (s.lockNoted n).dev = devPark then ((s.lockNoted n).rooted n).retrainOthers n
    else if (s.lockNoted n).isSet R.CLK_STATE_PLL_LOCK then (s.lockNoted n).openWindow n else s.lockNoted n := by
  have h : ¬ (s.srcLocked n || decide (s.dev = devUnpowered)) = true := by simp [hl, hd]
  unfold State.sourceLocked
  rw [if_neg h]
  simp only [Bool.or_eq_true, decide_eq_true_eq]
  rfl

/-- What the note of a lock writes. -/
def lockFields (n : Nat) : List Field := [srcF R.CLK_SRC_UPL0_LOCK n, R.START_STATE_SRC_LOCK, srcF R.CLK_SRC_UPL0_BLOCKED 2]

def rootedFields (n : Nat) : List Field :=
  [R.START_CAUSE_CAUSE, R.START_CAUSE_COUNT, R.START_STATE_DEV_STATE, R.CLK_STATE_ROOT_SRC, srcF R.CLK_SRC_UPL0_INSVC n]

theorem State.lockNoted_spares (s : State) (n : Nat) : s.Spares (lockFields n) [] (s.lockNoted n) := by
  have h : s.Spares (lockFields n) [] (s.lockAdded n) := by
    unfold State.lockAdded
    exact (((State.Spares.refl _ _ s).setF (by simp [lockFields]) (by simp [srcF, Field.off, R.CLK_SRC_UPL0_LOCK]) 1).setF
      (by simp [lockFields]) (by decide) _).clk _
  exact .ite (fun _ => h.setB (by simp [lockFields]) (by decide) _) fun _ => h

theorem State.rooted_spares (s : State) (n : Nat) : s.Spares (rootedFields n) [] (s.rooted n) := by
  unfold State.rooted State.writeCause
  have h : s.Spares (rootedFields n) [] (if s.dev = devPark then (s.setF R.START_CAUSE_CAUSE 3).bump R.START_CAUSE_COUNT else s) :=
    .ite (fun _ => ((State.Spares.refl _ _ s).setF (by simp [rootedFields]) (by decide) 3).bump (by simp [rootedFields]) (by decide))
      fun _ => .refl _ _ s
  exact ((h.setF (g := R.START_STATE_DEV_STATE) (by simp [rootedFields]) (by decide) devRootLock).setF (by simp [rootedFields])
    (by decide) n).setF (by simp [rootedFields]) (by simp [srcF, Field.off, R.CLK_SRC_UPL0_INSVC]) 1

theorem State.lockNoted_lock (hi : s.Inv) (hn : n < 3) : (s.lockNoted n).srcLocked n = true := by
  have h1 : (s.setF (srcF R.CLK_SRC_UPL0_LOCK n) 1).srcLocked n = true := by
    rw [State.srcLocked_eq _ hn, State.isSet_setF_one s (sourceBits_ok hn (by decide)) rfl]
  have h3 : (s.setF (srcF R.CLK_SRC_UPL0_LOCK n) 1).Spares [R.START_STATE_SRC_LOCK, srcF R.CLK_SRC_UPL0_BLOCKED 2] []
      (s.lockAdded n) := by
    unfold State.lockAdded
    exact ((State.Spares.refl _ _ _).setF (by simp) (by decide) _).clk _
  have h : (s.setF (srcF R.CLK_SRC_UPL0_LOCK n) 1).Spares [R.START_STATE_SRC_LOCK, srcF R.CLK_SRC_UPL0_BLOCKED 2] []
      (s.lockNoted n) := .ite (fun _ => h3.setB (by simp) (by decide) _) fun _ => h3
  have ha : ∀ n : Fin 3, ∀ g ∈ [R.START_STATE_SRC_LOCK, srcF R.CLK_SRC_UPL0_BLOCKED 2],
      g.apart (srcF R.CLK_SRC_UPL0_LOCK n) = true := by decide
  rw [h.srcLocked (State.inv_setF hi _ _) hn (ha ⟨n, hn⟩) (by simp), h1]

theorem State.lockNoted_locks (s : State) (n : Nat) : (s.lockNoted n).clk.locks = s.clk.locks ++ [n] := by
  have h : (s.lockAdded n).clk.locks = s.clk.locks ++ [n] := by
    unfold State.lockAdded
    dsimp only
    rw [State.setF_clk, State.setF_clk]
  unfold State.lockNoted
  split
  · rw [State.setB_eq, State.setF_clk, h]
  · exact h

theorem State.rooted_spec (s : State) (hn : n < 3) : (s.rooted n).dev = devRootLock ∧ (s.rooted n).getF R.CLK_STATE_ROOT_SRC = n := by
  have ha : ∀ n : Fin 3, (srcF R.CLK_SRC_UPL0_INSVC n).apart R.START_STATE_DEV_STATE = true ∧
    (srcF R.CLK_SRC_UPL0_INSVC n).apart R.CLK_STATE_ROOT_SRC = true := by decide
  obtain ⟨h1, h2⟩ := ha ⟨n, hn⟩
  have hw : (srcF R.CLK_SRC_UPL0_INSVC n).lo + (srcF R.CLK_SRC_UPL0_INSVC n).width ≤ 32 := by
    simp [srcF, Field.off, R.CLK_SRC_UPL0_INSVC]
  unfold State.rooted
  dsimp only
  rw [State.dev, State.getF_setF_ne _ _ _ _ hw (by decide) h1, State.getF_setF_ne _ _ _ _ hw (by decide) h2,
    State.getF_setF_ne _ _ _ _ (by decide) (by decide) (by decide), State.getF_setF_same _ _ _ (by decide)]
  exact ⟨State.setDev_dev _ _ (by decide), Nat.mod_eq_of_lt (by show n < 4; omega)⟩

theorem State.rooted_clk (s : State) (n : Nat) : (s.rooted n).clk = s.clk := by
  unfold State.rooted
  dsimp only
  rw [State.setF_clk, State.setF_clk, State.setDev_eq, State.setF_clk]
  split
  · rw [State.writeCause, State.bump_eq, State.setF_clk, State.setF_clk]
  · rfl

/-- The blocks that a link's loss, retraining or restart can write. -/
def linkBlocks : List Nat := [3, 5, 6, 7, 11, 12, 14, 15, 16, 20, 21, 22]

/-- A lock is noted last in the order of locking; at start-up and in PARK the source becomes the root source (R50, R52). -/
theorem State.sourceLocked_spec (hi : s.Inv) (hn : n < 3) (hl : s.srcLocked n = false) (hd : s.dev ≠ devUnpowered) :
    (s.sourceLocked n).srcLocked n = true ∧ (s.sourceLocked n).clk.locks = s.clk.locks ++ [n] ∧
    (s.dev = devAwait ∨ s.dev = devPark →
      (s.sourceLocked n).dev = devRootLock ∧ (s.sourceLocked n).getF R.CLK_STATE_ROOT_SRC = n) ∧
    (s.dev ≠ devAwait → s.dev ≠ devPark → (s.sourceLocked n).dev = s.dev) := by
  have hs := s.lockNoted_spares n
  have hia := hs.inv hi
  have hlk := State.lockNoted_lock hi hn
  have ha : ∀ n : Fin 3, (∀ g ∈ lockFields n, g.apart R.START_STATE_DEV_STATE = true) ∧
    ∀ g ∈ rootedFields n, g.apart (srcF R.CLK_SRC_UPL0_LOCK n) = true := by decide
  obtain ⟨ha1, ha2⟩ := ha ⟨n, hn⟩
  have hda : (s.lockNoted n).dev = s.dev := hs.getF _ (by decide) ha1 (by simp) hi
  rw [State.sourceLocked_eq hl hd, hda]
  split
  · next h =>
    have hr := (s.lockNoted n).rooted_spares n
    have hir := hr.inv hia
    have hw := State.retrainOthers_within (.refl _ ((s.lockNoted n).rooted n)) (List.Subset.refl _) n
    have hsp : ((s.lockNoted n).rooted n).Spares [] linkBlocks (((s.lockNoted n).rooted n).retrainOthers n) := hw.spares (by decide)
    obtain ⟨hdr, hrr⟩ := (s.lockNoted n).rooted_spec hn
    have hclk : ((s.lockNoted n).rooted n).clk = (s.lockNoted n).clk := State.rooted_clk _ _
    refine ⟨?_, ?_, fun _ => ⟨?_, ?_⟩, fun h1 h2 => absurd h (by simp [h1, h2])⟩
    · rw [hsp.srcLocked hir hn (by simp) (by decide), hr.srcLocked hia hn ha2 (by simp), hlk]
    · rw [hw.same .clk (by decide), hclk, State.lockNoted_locks]
    · exact (hsp.getF _ (by decide) (by simp) (by decide) hir).trans hdr
    · exact (hsp.getF _ (by decide) (by simp) (by decide) hir).trans hrr
  · next h =>
    refine ⟨?_, ?_, fun h' => absurd h' h, fun _ _ => ?_⟩
    · split
      · exact hlk
      · exact hlk
    · split <;> exact s.lockNoted_locks n
    · split <;> exact hda
end
end Sys2Proof.Machine

namespace Sys2Proof.Machine
open Sys2Proof

section
variable {s t : State} {n : Nat}

/-- The moment of an event of a receiver is taken while ROOT runs. -/
def State.heardAt (s : State) (u : Nat) : State := if s.rootRuns then s.advance u else s

theorem State.heardAt_eq (s : State) (u : Nat) : s.heardAt u = { s with mtb := if s.rootRuns then max s.mtb u else s.mtb } := by
  unfold State.heardAt
  split
  · rfl
  · rfl

theorem State.getF_heardAt (s : State) (u : Nat) (f : Field) : (s.heardAt u).getF f = s.getF f := by rw [State.heardAt_eq]; rfl

theorem State.heardAt_dev (s : State) (u : Nat) : (s.heardAt u).dev = s.dev := s.getF_heardAt u _

theorem State.heardAt_inv (hi : s.Inv) (u : Nat) : (s.heardAt u).Inv := by rw [State.heardAt_eq]; exact hi

theorem State.heardAt_srcLocked (s : State) (u n : Nat) : (s.heardAt u).srcLocked n = s.srcLocked n := by
  rw [State.heardAt_eq]; rfl

theorem State.heardAt_clk (s : State) (u : Nat) : (s.heardAt u).clk = s.clk := by rw [State.heardAt_eq]

/-- What a receiver with CDR lock and block lock shows. -/
def State.receiverLocked (s : State) (n : Nat) : State :=
  if n < 2 then (s.setF (R.UPL_STAT_CDR_LOCK n) 1).setF (R.UPL_STAT_BLOCK_LOCK n) 1 else s.tieLocked

theorem State.receiverLocked_within (s : State) (n : Nat) :
    State.Within [.block 3, .block 11, .block 12, .block 14, .block 15, .block 16, .block 20, .block 21, .block 22, .block 5,
      .block 6, .block 7, .cmp, .freeIx, .ky, .mac, .mem, .ms, .mtb, .notes, .out, .pa, .pl, .queues, .rd, .resp, .ro, .ry, .sl,
      .tie, .tm, .up] s (s.receiverLocked n) :=
  within_ite (fun _ => State.setF_within (State.setF_within (.refl _ s) _ (Or.inr (by simp)) 1) _ (Or.inr (by simp)) 1)
    fun _ => State.tieLocked_within (.refl _ s) (by decide)

theorem execSourceLocked_next (hd : s.dev ≠ devUnpowered) (n : Fin 3) (u : Nat) :
    execSourceLocked n u s = .next (((s.heardAt u).receiverLocked n).sourceLocked n) := by
  have h : ¬ (s.heardAt u).dev = devUnpowered := by rwa [State.heardAt_dev]
  show Host.Outcome.next (State.sourceLocked (if (s.heardAt u).dev = devUnpowered then _ else _) n) = _
  rw [if_neg h]
  rfl

theorem sourceLocked_locks (hi : s.Inv) {n : Fin 3} (hl : s.srcLocked n = false) (hd : s.dev ≠ devUnpowered) (u : Nat) :
    Completes (.sourceLocked n u) s fun t => t.srcLocked n = true ∧ t.clk.locks = s.clk.locks ++ [(n : Nat)] ∧
      (s.dev = devAwait ∨ s.dev = devPark → t.dev = devRootLock ∧ t.getF R.CLK_STATE_ROOT_SRC = n) ∧
      (s.dev ≠ devAwait → s.dev ≠ devPark → t.dev = s.dev) := by
  have hw := (s.heardAt u).receiverLocked_within n
  have hs : (s.heardAt u).Spares [] linkBlocks ((s.heardAt u).receiverLocked n) := hw.spares (by decide)
  have hia := State.heardAt_inv hi u
  have dev : ((s.heardAt u).receiverLocked n).dev = s.dev :=
    (hs.getF _ (by decide) (by simp) (by decide) hia).trans (s.heardAt_dev u)
  have lock : ((s.heardAt u).receiverLocked n).srcLocked n = false := by
    rw [hs.srcLocked hia n.isLt (by simp) (by decide), State.heardAt_srcLocked, hl]
  have locks : ((s.heardAt u).receiverLocked n).clk.locks = s.clk.locks := by rw [hw.same .clk (by decide), State.heardAt_clk]
  have h := State.sourceLocked_spec (hw.inv hia) n.isLt lock (by rwa [dev])
  rw [dev, locks] at h
  exact ⟨_, execSourceLocked_next hd n u, h⟩

/-! ### A source is lost (R50, R59) -/

/-- The loss of a lock in the registers, in the order of locking and for the monitor. -/
def State.lossNoted (s : State) (n : Nat) : State :=
  let s := s.setF (srcF R.CLK_SRC_UPL0_LOCK n) 0
  let s := s.setF R.START_STATE_SRC_LOCK (putBit (s.getF R.START_STATE_SRC_LOCK) n false)
  { s with clk := { s.clk with locks := without n s.clk.locks, windows := s.clk.windows.filter (fun w => w.1 != n) } }

/-- From the root PLL's lock on a loss disqualifies. -/
def State.lossJudged (s : State) (n : Nat) : State :=
  if (s.lossNoted n).isSet R.CLK_STATE_PLL_LOCK then (s.lossNoted n).disqualify n else s.lossNoted n

theorem State.sourceLost_eq (h : s.srcLocked n = true) : s.sourceLost n = ((s.lossJudged n).linkGone n).clockDecide := by
  unfold State.sourceLost
  rw [if_neg (by simp [h])]
  rfl

theorem State.sourceLost_unlocked (h : s.srcLocked n = false) : s.sourceLost n = s.linkGone n := by
  unfold State.sourceLost
  rw [if_pos (by simp [h])]

def noteFields (n : Nat) : List Field := [srcF R.CLK_SRC_UPL0_LOCK n, R.START_STATE_SRC_LOCK]

def unqualFields (n : Nat) : List Field := [srcF R.CLK_SRC_UPL0_QUAL n, R.CLK_EVENT_DISQUAL, R.CLK_SRC_CTRL_FORCE]

/-- What a disqualification writes. -/
def disqualFields (n : Nat) : List Field := srcF R.CLK_SRC_UPL0_PASS n :: unqualFields n

theorem State.lossNoted_spares (s : State) (n : Nat) : s.Spares (noteFields n) [] (s.lossNoted n) := by
  unfold State.lossNoted
  exact (((State.Spares.refl _ _ s).setF (by simp [noteFields]) (by simp [srcF, Field.off, R.CLK_SRC_UPL0_LOCK]) 0).setF
    (by simp [noteFields]) (by decide) _).clk _

theorem State.unqualify_spares (s : State) (n : Nat) : s.Spares (unqualFields n) [] (s.unqualify n) := by
  have h : s.Spares (unqualFields n) []
      (if s.srcQual n then (s.setF (srcF R.CLK_SRC_UPL0_QUAL n) 0).raise R.CLK_EVENT_DISQUAL else s) :=
    .ite (fun _ => ((State.Spares.refl _ _ s).setF (by simp [unqualFields])
      (by simp [srcF, Field.off, R.CLK_SRC_UPL0_QUAL]) 0).raise (by simp [unqualFields]) (by decide)) fun _ => .refl _ _ s
  exact .ite (fun _ => h.setF (by simp [unqualFields]) (by decide) 0) fun _ => h

theorem State.disqualify_spares (s : State) (n : Nat) : s.Spares (disqualFields n) [] (s.disqualify n) := by
  unfold State.disqualify
  exact (((State.Spares.refl _ _ s).setF List.mem_cons_self (by simp [srcF, Field.off, R.CLK_SRC_UPL0_PASS]) 0).trans
    ((State.unqualify_spares _ n).mono (List.subset_cons_self _ _) (List.Subset.refl _))).clk _

theorem State.lossJudged_spares (s : State) (n : Nat) : s.Spares (noteFields n ++ disqualFields n) [] (s.lossJudged n) := by
  have h := s.lossNoted_spares n |>.mono (m := noteFields n ++ disqualFields n) (cs := []) (by simp) (by simp)
  exact .ite (fun _ => h.trans ((State.disqualify_spares _ n).mono (by simp) (by simp))) fun _ => h

theorem State.srcQual_unqualify (hn : n < 3) : (s.unqualify n).srcQual n = false := by
  have ha : ∀ n : Fin 3, R.CLK_EVENT_DISQUAL.apart (srcF R.CLK_SRC_UPL0_QUAL n) = true ∧
    R.CLK_SRC_CTRL_FORCE.apart (srcF R.CLK_SRC_UPL0_QUAL n) = true := by decide
  obtain ⟨h1, h2⟩ := ha ⟨n, hn⟩
  have hok := sourceBits_ok hn (f := R.CLK_SRC_UPL0_QUAL) (by decide)
  have h : (if s.srcQual n then (s.setF (srcF R.CLK_SRC_UPL0_QUAL n) 0).raise R.CLK_EVENT_DISQUAL else s).srcQual n = false := by
    split
    · rw [State.srcQual_eq _ hn, State.isSet, State.getF_raise_ne _ _ _ (by decide) hok h1, State.getF_setF_same _ _ _ hok]
      simp
    · next h => simpa using h
  unfold State.unqualify
  extract_lets u
  change u.srcQual n = false at h
  split
  · rw [State.srcQual_eq _ hn, State.isSet, State.getF_setF_ne _ _ _ _ (by decide) hok h2]
    rwa [State.srcQual_eq _ hn, State.isSet] at h
  · exact h

theorem State.srcQual_disqualify (hn : n < 3) : (s.disqualify n).srcQual n = false := State.srcQual_unqualify hn

theorem State.lossJudged_lock (hi : s.Inv) (hn : n < 3) : (s.lossJudged n).srcLocked n = false := by
  have hok := sourceBits_ok hn (f := R.CLK_SRC_UPL0_LOCK) (by decide)
  have ha : ∀ n : Fin 3, R.START_STATE_SRC_LOCK.apart (srcF R.CLK_SRC_UPL0_LOCK n) = true ∧
    ∀ g ∈ disqualFields n, g.apart (srcF R.CLK_SRC_UPL0_LOCK n) = true := by decide
  obtain ⟨h1, h2⟩ := ha ⟨n, hn⟩
  have h : (s.lossNoted n).srcLocked n = false := by
    rw [State.srcLocked_eq _ hn, State.isSet, State.lossNoted, State.getF_withClk,
      State.getF_setF_ne _ _ _ _ (by decide) hok h1, State.getF_setF_same _ _ _ hok]
    simp
  unfold State.lossJudged
  split
  · rw [(State.disqualify_spares _ n).srcLocked ((s.lossNoted_spares n).inv hi) hn h2 (by simp), h]
  · exact h

theorem State.linkGone_spares (s : State) (n : Nat) : s.Spares [] linkBlocks (s.linkGone n) :=
  (State.linkGone_within (.refl _ s) (List.Subset.refl _) n).spares (by decide)

/-- A lost source is no longer locked (R50). -/
theorem State.srcLocked_sourceLost (hi : s.Inv) (hn : n < 3) : (s.sourceLost n).srcLocked n = false := by
  cases hl : s.srcLocked n with
  | false => rw [State.sourceLost_unlocked hl, (s.linkGone_spares n).srcLocked hi hn (by simp) (by decide), hl]
  | true =>
    have hj := (s.lossJudged_spares n).inv hi
    rw [State.sourceLost_eq hl]
    refine State.srcLocked_clockDecide (((s.lossJudged n).linkGone_spares n).inv hj) ?_
    rw [((s.lossJudged n).linkGone_spares n).srcLocked hj hn (by simp) (by decide), State.lossJudged_lock hi hn]

/-- The root's own fields are as before when the root decides upon a lost source. -/
theorem State.getF_lossGone (hi : s.Inv) (hn : n < 3) {f : Field} (hf : f ∈ [R.START_STATE_DEV_STATE, R.CLK_STATE_ROOT_SRC]) :
    ((s.lossJudged n).linkGone n).getF f = s.getF f := by
  have ha : ∀ n : Fin 3, ∀ f ∈ [R.START_STATE_DEV_STATE, R.CLK_STATE_ROOT_SRC], f.ok = true ∧
    (∀ g ∈ noteFields n ++ disqualFields n, g.apart f = true) ∧ regBlock f.addr ∉ linkBlocks := by decide
  obtain ⟨hok, h1, h2⟩ := ha ⟨n, hn⟩ f hf
  have hj := s.lossJudged_spares n
  rw [((s.lossJudged n).linkGone_spares n).getF f hok (by simp) h2 (hj.inv hi), hj.getF f hok h1 (by simp) hi]

/-- In SERVICE, with the root PLL locked and no other source qualified, none is once the source in service is lost. -/
theorem State.srcQual_lossGone (hi : s.Inv) (hn : n < 3) (hp : s.isSet R.CLK_STATE_PLL_LOCK = true)
    (hq : ∀ k < 3, k ≠ n → s.srcQual k = false) (k : Nat) : ((s.lossJudged n).linkGone n).srcQual k = false := by
  by_cases hk : k < 3
  · have hj := s.lossJudged_spares n
    rw [((s.lossJudged n).linkGone_spares n).srcQual (hj.inv hi) hk (by simp) (by decide)]
    by_cases e : k = n
    · subst e
      have hp' : (s.lossNoted k).isSet R.CLK_STATE_PLL_LOCK = true := by
        have ha : ∀ n : Fin 3, ∀ g ∈ noteFields n, g.apart R.CLK_STATE_PLL_LOCK = true := by decide
        rw [(s.lossNoted_spares k).isSet hi (by decide) (ha ⟨k, hn⟩) (by simp), hp]
      rw [State.lossJudged, if_pos hp', State.srcQual_disqualify hn]
    · have ha : ∀ n k : Fin 3, (k : Nat) ≠ n → ∀ g ∈ noteFields n ++ disqualFields n, g.apart (srcF R.CLK_SRC_UPL0_QUAL k) = true := by
        decide
      rw [hj.srcQual hi hk (ha ⟨n, hn⟩ ⟨k, hk⟩ e) (by simp), hq k hk e]
  · simp [State.srcQual, hk]

theorem execSourceLost_eq (n : Fin 3) (u : Nat) (s : State) : execSourceLost n u s = .next ((s.heardAt u).sourceLost n) := rfl

theorem sourceLost_loses (hi : s.Inv) {n : Fin 3} (hl : s.srcLocked n = true) (u : Nat) :
    Completes (.sourceLost n u) s fun t => t.srcLocked n = false ∧
      (s.dev = devRootLock → s.getF R.CLK_STATE_ROOT_SRC = n → t.dev = devAwait ∧ t.clk.locks = []) ∧
      (s.dev = devService → s.isSet R.CLK_STATE_PLL_LOCK = true → s.getF R.CLK_STATE_ROOT_SRC = n →
        [0, 1, 2].all (fun k => k == n.val || !s.srcQual k) = true →
        t.dev = devHold ∧ t.getF R.CLK_STATE_ROOT_SRC = 3 ∧ t.getF R.CLK_EVENT_HOLD_ENTER = 1) := by
  have hia := State.heardAt_inv hi u
  have hla : (s.heardAt u).srcLocked n = true := by rw [State.heardAt_srcLocked, hl]
  have hig := (((s.heardAt u).lossJudged n).linkGone_spares n).inv (((s.heardAt u).lossJudged_spares n).inv hia)
  have dev : (((s.heardAt u).lossJudged n).linkGone n).dev = s.dev :=
    (State.getF_lossGone hia n.isLt (by simp)).trans (s.getF_heardAt u _)
  have root : (((s.heardAt u).lossJudged n).linkGone n).getF R.CLK_STATE_ROOT_SRC = s.getF R.CLK_STATE_ROOT_SRC :=
    (State.getF_lossGone hia n.isLt (by simp)).trans (s.getF_heardAt u _)
  refine ⟨_, execSourceLost_eq n u s, State.srcLocked_sourceLost hia n.isLt, fun hd hr => ?_, fun hd hp hr hq => ?_⟩
  · rw [State.sourceLost_eq hla, State.clockDecide_awaits (dev.trans hd)]
    · exact ⟨(State.toAwait_spec hig).1, State.toAwait_locks _⟩
    · rw [root, hr, (((s.heardAt u).lossJudged n).linkGone_spares n).srcLocked (((s.heardAt u).lossJudged_spares n).inv hia)
        n.isLt (by simp) (by decide), State.lossJudged_lock hia n.isLt]
  · rw [State.sourceLost_eq hla, State.clockDecide_holds (dev.trans hd)]
    · exact State.enterHold_spec _
    · refine State.srcQual_lossGone hia n.isLt ?_ fun k hk hne => ?_
      · rw [State.isSet, State.getF_heardAt]
        exact hp
      · have hqk : k = n ∨ s.srcQual k = false := by
          simp only [List.all_cons, List.all_nil, Bool.and_true, Bool.and_eq_true, Bool.or_eq_true, beq_iff_eq,
            Bool.not_eq_true'] at hq
          obtain ⟨h0, h1, h2⟩ := hq
          interval_cases k
          · exact h0
          · exact h1
          · exact h2
        rw [State.heardAt_eq]
        exact hqk.resolve_left hne
end
end Sys2Proof.Machine

namespace Sys2Proof.Machine
open Sys2Proof

/-! ### A window of the monitor ends (R57 to R59) -/

section
variable {s t : State} {n : Nat}

/-- A measurement against the held word for the source in service, against ROOT for another one. -/
def State.srcOffset (s : State) (n : Nat) (m : Int) : Int := if s.getF R.CLK_STATE_ROOT_SRC = n then m - s.clk.held else m

theorem State.srcOffset_eq (s : State) (n : Nat) (m : Int) :
    s.srcOffset n m = m - (if s.getF R.CLK_STATE_ROOT_SRC = n then s.clk.held else 0) := by
  unfold State.srcOffset
  split
  · rfl
  · exact (Int.sub_zero m).symm

/-- The window's offset shown, the control word noted, the next window open. -/
def State.windowNoted (s : State) (n : Nat) (m : Int) (tol : Nat) : State :=
  let shown := s.setF (srcF R.CLK_SRC_UPL0_OFFSET n) (unsigned 16 (max (-32767) (min 32767 (s.srcOffset n m))))
  (if s.getF R.CLK_STATE_ROOT_SRC = n then
    { shown with clk := { shown.clk with word := m, wordAt := some shown.mtb,
                                         held := if (s.srcOffset n m).natAbs ≤ 20 * tol then m else shown.clk.held } }
  else shown).openWindow n

/-- What a window within the tolerance can write. -/
def passFields (n : Nat) : List Field := [srcF R.CLK_SRC_UPL0_PASS n, srcF R.CLK_SRC_UPL0_QUAL n]

theorem execMonitorWindowEnd_eq {n : Fin 3} {m : Int} {tol : Nat} (u : Nat)
    (h : s.clk.windows.find? (fun w => w.1 == n.val) = some (n.val, tol)) :
    execMonitorWindowEnd n m u s = .next (if (s.srcOffset n m).natAbs ≤ 20 * tol
      then ((((s.advance u).windowNoted n m tol).bump (srcF R.CLK_SRC_UPL0_PASS n)).qualify n).clockDecide
      else (((s.advance u).windowNoted n m tol).disqualify n).clockDecide) := by
  unfold execMonitorWindowEnd
  simp only [State.advance_clk, h]
  change (if (s.srcOffset n m).natAbs ≤ 20 * tol then _ else _) = _
  split
  · rfl
  · rfl

theorem State.windowNoted_spares (s : State) (n : Nat) (m : Int) (tol : Nat) :
    s.Spares [srcF R.CLK_SRC_UPL0_OFFSET n] [] (s.windowNoted n m tol) := by
  have h := (State.Spares.refl [srcF R.CLK_SRC_UPL0_OFFSET n] [] s).setF (List.mem_singleton_self _)
    (by simp [srcF, Field.off, R.CLK_SRC_UPL0_OFFSET])
    (unsigned 16 (max (-32767) (min 32767 (s.srcOffset n m))))
  exact (State.Spares.ite (fun _ => h.clk _) fun _ => h).clk _

theorem State.getF_windowNoted (s : State) (hn : n < 3) (m : Int) (tol : Nat) :
    (s.windowNoted n m tol).getF (srcF R.CLK_SRC_UPL0_OFFSET n) = unsigned 16 (max (-32767) (min 32767 (s.srcOffset n m))) := by
  have h : (s.setF (srcF R.CLK_SRC_UPL0_OFFSET n) (unsigned 16 (max (-32767) (min 32767 (s.srcOffset n m))))).getF
      (srcF R.CLK_SRC_UPL0_OFFSET n) = unsigned 16 (max (-32767) (min 32767 (s.srcOffset n m))) := by
    rw [State.getF_setF_same _ _ _ (sourceBits_ok hn (by decide))]
    refine Nat.mod_eq_of_lt ?_
    show (_ % (65536 : Int)).toNat < 65536
    omega
  unfold State.windowNoted State.openWindow
  rw [State.getF_withClk]
  split
  · rw [State.getF_withClk, h]
  · exact h

theorem State.qualify_spares (s : State) (n : Nat) : s.Spares [srcF R.CLK_SRC_UPL0_QUAL n] [] (s.qualify n) := by
  unfold State.qualify
  exact .ite (fun _ => (State.Spares.refl _ _ s).setF (by simp) (by simp [srcF, Field.off, R.CLK_SRC_UPL0_QUAL]) 1)
    fun _ => .refl _ _ s

/-- The root's decision after a step that spares what it looks at leaves the bits of a source as the step left them. -/
theorem State.Spares.decided {l : List Field} {f : Field} (h : s.Spares l [] t) (hi : s.Inv) (hk : s.rootKept = true) (hn : n < 3)
    (hl : ∀ f ∈ keptFields, ∀ g ∈ l, g.apart f = true) (hf : f ∈ sourceBits) :
    t.clockDecide.getF (srcF f n) = t.getF (srcF f n) :=
  (State.clockDecide_spares ((h.rootKept hi hl (by simp)).trans hk)).source (h.inv hi) hn hf (rootFields_apart_source hn hf) (by simp)

theorem monitorWindowEnd_judges (hi : s.Inv) {n : Fin 3} {m : Int} {tol : Nat} (u : Nat)
    (h : s.clk.windows.find? (fun w => w.1 == n.val) = some (n.val, tol)) (hk : s.rootKept = true) :
    Completes (.monitorWindowEnd n m u) s fun t =>
      ((s.srcOffset n m).natAbs ≤ 20 * tol →
        t.getF (srcF R.CLK_SRC_UPL0_PASS n) = min 255 (s.getF (srcF R.CLK_SRC_UPL0_PASS n) + 1)) ∧
      (20 * tol < (s.srcOffset n m).natAbs → t.getF (srcF R.CLK_SRC_UPL0_PASS n) = 0 ∧ t.srcQual n = false) ∧
      t.getF (srcF R.CLK_SRC_UPL0_OFFSET n) = unsigned 16 (max (-32767) (min 32767 (s.srcOffset n m))) := by
  have hn := n.isLt
  have ha : ∀ n : Fin 3, (srcF R.CLK_SRC_UPL0_OFFSET n).apart (srcF R.CLK_SRC_UPL0_PASS n) = true ∧
    (srcF R.CLK_SRC_UPL0_QUAL n).apart (srcF R.CLK_SRC_UPL0_PASS n) = true ∧
    (∀ g ∈ unqualFields n, g.apart (srcF R.CLK_SRC_UPL0_PASS n) = true) ∧
    (∀ g ∈ disqualFields n, g.apart (srcF R.CLK_SRC_UPL0_OFFSET n) = true) ∧
    ∀ f ∈ keptFields, ∀ g ∈ srcF R.CLK_SRC_UPL0_OFFSET n :: disqualFields n, g.apart f = true := by decide
  obtain ⟨h1, h2, h3, h4, h5⟩ := ha n
  have hia : (s.advance u).Inv := hi
  have hka : (s.advance u).rootKept = true := hk
  have hw := (s.advance u).windowNoted_spares n m tol
  have hiw := hw.inv hia
  have off := (s.advance u).getF_windowNoted hn m tol
  have pass : ((s.advance u).windowNoted n m tol).getF (srcF R.CLK_SRC_UPL0_PASS n) = s.getF (srcF R.CLK_SRC_UPL0_PASS n) :=
    hw.source hia hn (by decide) (by simpa using h1) (by simp)
  have hwd := hw.mono (m := srcF R.CLK_SRC_UPL0_OFFSET n :: disqualFields n) (cs := []) (by simp) (by simp)
  refine ⟨_, execMonitorWindowEnd_eq u h, ?_⟩
  split
  · next hp =>
    have hb := (State.Spares.refl (disqualFields n) [] ((s.advance u).windowNoted n m tol)).bump (g := srcF R.CLK_SRC_UPL0_PASS n)
      (by simp [disqualFields]) (by simp [srcF, Field.off, R.CLK_SRC_UPL0_PASS])
    have hq := hb.trans
      ((State.qualify_spares _ n).mono (by simp [disqualFields, unqualFields]) (by simp))
    have hd := hwd.trans (hq.mono (by simp) (by simp))
    refine ⟨fun _ => ?_, fun hf => absurd hp (by omega), ?_⟩
    · rw [hd.decided hia hka hn h5 (by decide), (State.qualify_spares _ n).source (hb.inv hiw) hn (f := R.CLK_SRC_UPL0_PASS) (by decide)
        (by simpa using h2) (by simp), State.getF_bump _ (sourceBits_ok hn (by decide)), pass]
      rfl
    · rw [hd.decided hia hka hn h5 (by decide), hq.source hiw hn (by decide) h4 (by simp), off]
      rfl
  · next hp =>
    have hq := State.disqualify_spares ((s.advance u).windowNoted n m tol) n
    have hd := hwd.trans (hq.mono (by simp) (by simp))
    refine ⟨fun hf => absurd hf hp, fun _ => ⟨?_, ?_⟩, ?_⟩
    · rw [hd.decided hia hka hn h5 (by decide), State.disqualify, State.getF_withClk,
        (State.unqualify_spares _ n).source (State.inv_setF hiw _ _) hn (f := R.CLK_SRC_UPL0_PASS) (by decide) h3 (by simp),
        State.getF_setF_same _ _ _ (sourceBits_ok hn (by decide))]
      rfl
    · have hs := State.srcQual_disqualify (s := (s.advance u).windowNoted n m tol) hn
      rw [State.srcQual_eq _ hn, State.isSet] at hs ⊢
      rw [hd.decided hia hka hn h5 (by decide), hs]
    · rw [hd.decided hia hka hn h5 (by decide), hq.source hiw hn (by decide) h4 (by simp), off]
      rfl

/-! ### Hold and park (R60 to R64) -/

theorem hold1sMark_inhibits (hi : s.Inv) (u : Nat) (hd : s.dev = devHold) (ht : s.clk.holdAt + secCyc ≤ max s.mtb u) :
    Completes (.hold1sMark u) s fun t => t.dev = devHoldInhibit ∧ t.getF R.CLK_STATE_TX_OK = 0 ∧
      t.getF R.CLK_STATE_CLK_MODE = 3 ∧ t.getF R.CLK_EVENT_TX_INHIBIT = 1 := by
  have hc : (decide ((s.advance u).dev = devHold) && decide ((s.advance u).clk.holdAt + secCyc ≤ (s.advance u).mtb)) = true := by
    rw [Bool.and_eq_true, decide_eq_true_eq, decide_eq_true_eq]
    exact ⟨hd, ht⟩
  have hm := ((s.advance u).setDev devHoldInhibit).setClkMode_spec 3
  have hiv : ((((s.advance u).setDev devHoldInhibit).setClkMode 3).raise R.CLK_EVENT_TX_INHIBIT).Inv :=
    (((State.Spares.refl (R.CLK_EVENT_TX_INHIBIT :: rootFields) [] (s.advance u)).setF (by decide) (by decide) _).trans
      ((State.setClkMode_spares _ 3).mono (by simp) (by simp)) |>.raise (g := R.CLK_EVENT_TX_INHIBIT) (by simp) (by decide)).inv hi
  have hs := (State.selfFault_within (.refl _ ((((s.advance u).setDev devHoldInhibit).setClkMode 3).raise R.CLK_EVENT_TX_INHIBIT))
    (List.Subset.refl _)).spares (l := []) (bs := [6, 7, 11, 12, 14, 15, 16, 20, 21]) (by decide)
  have he : execHold1sMark u s =
    .next ((((s.advance u).setDev devHoldInhibit).setClkMode 3).raise R.CLK_EVENT_TX_INHIBIT).selfFault := if_pos hc
  refine ⟨_, he, (?_ : _ ∧ _)⟩
  rw [State.dev, hs.getF _ (by decide) (by simp) (by decide) hiv, hs.getF _ (by decide) (by simp) (by decide) hiv,
    hs.getF _ (by decide) (by simp) (by decide) hiv, hs.getF _ (by decide) (by simp) (by decide) hiv,
    State.getF_raise_ne _ _ _ (by decide) (by decide) (by decide), State.getF_raise_ne _ _ _ (by decide) (by decide) (by decide),
    State.getF_raise_ne _ _ _ (by decide) (by decide) (by decide), hm.1, hm.2]
  refine ⟨?_, rfl, rfl, State.getF_raise_same _ _ (by decide) rfl⟩
  unfold State.setClkMode
  rw [State.setB_eq]
  simp (disch := decide) only [State.getF_setF_ne]
  exact State.setDev_dev _ _ (by decide)

/-- The flush and the stop of every transmission at the entry to PARK. -/
def State.parkStopped (s : State) : State :=
  s.macFlush.each (List.range 4) (fun s n =>
    let s := (s.setF (R.TRX_STATE_TARGET n) 0).txFlush n
    let s := match (s.trx n).onAir with
      | some c => s.txStopAt n (some (ST.TX_FLUSHED n)) (c.symbolEnd s.mtb)
      | none => s
    s.toSleep n)

theorem State.parkStopped_spares (s : State) : s.Spares [] [7, 11, 12, 15, 16, 21] s.parkStopped := by
  refine State.Within.spares (T := [.block 7, .block 11, .block 12, .block 15, .block 16, .block 21, .freeIx, .ky, .mac, .mem, .ms,
    .notes, .out, .pa, .pl, .queues, .rd]) ?_ (by decide)
  refine State.each_within (State.macFlush_within (.refl _ s) (by decide)) _ _ fun u n hu => ?_
  have hf := State.txFlush_within (State.setF_within hu (R.TRX_STATE_TARGET n) (Or.inr (by simp)) 0) (by decide) n
  refine State.toSleep_within ?_ (by decide) n
  split
  · exact State.txStopAt_within hf (by decide) _ _ _
  · exact hf

theorem State.enterPark_spec (hi : s.Inv) (fault : Bool) : (s.enterPark fault).dev = devPark ∧
    (s.enterPark fault).getF R.CLK_EVENT_PARK = 1 ∧
    (s.enterPark fault).getF R.CLK_EVENT_PLL_FAULT = s.getF R.CLK_EVENT_PLL_FAULT ∧
    (s.enterPark fault).getF R.MEM_STATE_SELF_REFRESH = (if fault then 0 else 1) ∧ (s.enterPark fault).mtb = 0 := by
  have hp := s.parkStopped_spares
  have fits (x : Nat) (hx : x < 2) : x % 2 = x := Nat.mod_eq_of_lt hx
  have hpll : (s.parkStopped.setF R.CLK_EVENT_PARK 1).getF R.CLK_EVENT_PLL_FAULT = s.getF R.CLK_EVENT_PLL_FAULT := by
    rw [State.getF_setF_ne _ _ _ _ (by decide) (by decide) (by decide), hp.getF _ (by decide) (by simp) (by decide) hi]
  have hpark : (s.parkStopped.setF R.CLK_EVENT_PARK 1).getF R.CLK_EVENT_PARK = 1 := State.getF_setF_same _ _ _ (by decide)
  obtain ⟨v, m, -, e⟩ := (s.parkStopped.setF R.CLK_EVENT_PARK 1).resetBlocks_eq (k := 3) (State.inv_setF (hp.inv hi) _ _)
    (Or.inl rfl) fault
  have he : s.enterPark fault = (((s.parkStopped.setF R.CLK_EVENT_PARK 1).resetBlocks 3 fault).setDev devPark).setB
    R.MEM_STATE_SELF_REFRESH (!fault) := rfl
  rw [he, e, hpll, hpark, State.setB_eq, State.setDev_eq, State.dev]
  simp (disch := decide) only [State.getF_setF_ne, State.getF_setF_same]
  refine ⟨rfl, rfl, fits _ (R.CLK_EVENT_PLL_FAULT.get_lt _), ?_, ?_⟩
  · cases fault <;> rfl
  · simp only [State.setF_mtb]
    rfl

theorem hold30sMark_parks (hi : s.Inv) (u : Nat) (hd : s.dev = devHoldInhibit) (ht : s.clk.holdAt + 30 * secCyc ≤ max s.mtb u) :
    Completes (.hold30sMark u) s fun t => t.dev = devPark ∧ t.getF R.CLK_EVENT_PARK = 1 ∧
      t.getF R.MEM_STATE_SELF_REFRESH = 1 ∧ t.mtb = 0 := by
  have hc : (decide ((s.advance u).dev = devHoldInhibit) &&
      decide ((s.advance u).clk.holdAt + 30 * secCyc ≤ (s.advance u).mtb)) = true := by
    rw [Bool.and_eq_true, decide_eq_true_eq, decide_eq_true_eq]
    exact ⟨hd, ht⟩
  obtain ⟨dev, park, -, refresh, mtb⟩ := State.enterPark_spec (s := s.advance u) hi false
  exact ⟨_, if_pos hc, dev, park, refresh, mtb⟩

theorem rootPllUnlock_parks (hi : s.Inv) (u : Nat) (hr : s.rootRuns = true) :
    Completes (.rootPllUnlock u) s fun t => t.dev = devPark ∧ t.getF R.CLK_EVENT_PLL_FAULT = 1 ∧
      t.getF R.MEM_STATE_SELF_REFRESH = 0 ∧ t.mtb = 0 := by
  obtain ⟨dev, -, pll, refresh, mtb⟩ := State.enterPark_spec (fault := true)
    (State.inv_setF (State.inv_setF (State.inv_setF (s := s.advance u) hi R.CLK_CMD_ERR_UNIT 31) R.CLK_CMD_ERR_STATUS ST.CLK_PLL_FAULT)
      R.CLK_EVENT_PLL_FAULT 1)
  exact ⟨_, if_pos hr, dev, pll.trans (State.getF_setF_same _ _ _ (by decide)), refresh, mtb⟩

/-! ### The forced source (R54) -/

theorem clkSrcForceWrite_takes (hi : s.Inv) {f : Bool} {n : Fin 4} (hn : (n : Nat) < 3) (hq : f = true → s.srcQual n = true)
    (hk : s.rootKept = true) : Completes (.clkSrcForceWrite f n) s fun t =>
      t.isSet R.CLK_SRC_CTRL_FORCE = f ∧ t.getF R.CLK_SRC_CTRL_FORCE_SRC = n ∧ t.resp = ST.OK := by
  refine ⟨s.forceWrite f n, rfl, ?_⟩
  unfold State.forceWrite
  split
  · next h =>
    simp only [Bool.and_eq_true, decide_eq_true_eq] at h
    exact ⟨h.1, h.2, rfl⟩
  · rw [if_neg (Nat.not_le.mpr hn), if_neg (by cases f <;> simp_all)]
    have hw : s.Spares [R.CLK_SRC_CTRL_FORCE, R.CLK_SRC_CTRL_FORCE_SRC] []
        ((s.setB R.CLK_SRC_CTRL_FORCE f).setF R.CLK_SRC_CTRL_FORCE_SRC n) :=
      ((State.Spares.refl _ _ s).setB (by simp) (by decide) f).setF (by simp) (by decide) n
    have hd := State.clockDecide_spares ((hw.rootKept hi (by decide) (by simp)).trans hk)
    refine ⟨(hd.isSet (hw.inv hi) (by decide) (by decide) (by simp)).trans ?_,
      (hd.getF _ (by decide) (by decide) (by simp) (hw.inv hi)).trans ?_, rfl⟩
    · rw [State.isSet, State.getF_setF_ne _ _ _ _ (by decide) (by decide) (by decide)]
      exact State.isSet_setB_same s f (by decide) rfl
    · rw [State.getF_setF_same _ _ _ (by decide)]
      exact Nat.mod_eq_of_lt n.isLt
end
end Sys2Proof.Machine

section
open Sys2Proof Sys2Proof.Machine

/-- Settles O5: a lock and a loss through what they note and what the root decides, the windows and FORCE where the root source
is kept, and the entry to PARK through what its resets write. -/
theorem sourceCommands : Obligations.SourceCommands := by
  unfold Obligations.SourceCommands
  intro s hi
  refine ⟨?_, ?_, ?_, ?_, ?_, ?_, ?_⟩
  · exact fun n u hl hd => sourceLocked_locks hi hl hd u
  · exact fun n u hl => sourceLost_loses hi hl u
  · intro n m u tol h hk
    rw [← State.srcOffset_eq]
    exact monitorWindowEnd_judges hi u h hk
  · exact fun u hd ht => hold1sMark_inhibits hi u hd ht
  · exact fun u hd ht => hold30sMark_parks hi u hd ht
  · exact fun u hr => rootPllUnlock_parks hi u hr
  · exact fun f n hn hq hk => clkSrcForceWrite_takes hi hn hq hk

end

namespace Sys2Proof.Machine
open Sys2Proof

/-! ### One bit of a word -/

section
variable {s : State} {f : Field}

theorem bitOf_eq_testBit (n i : Nat) : bitOf n i = n.testBit i := by
  rw [Nat.testBit_eq_decide_div_mod_eq]
  rfl

theorem bitOf_mod_two_pow {i w : Nat} (n : Nat) (h : i < w) : bitOf (n % 2 ^ w) i = bitOf n i := by
  rw [bitOf_eq_testBit, bitOf_eq_testBit, Nat.testBit_mod_two_pow, decide_eq_true h, Bool.true_and]

theorem bitOf_putBit (n i : Nat) (b : Bool) : bitOf (putBit n i b) i = b := by
  have hp : 0 < 2 ^ i := Nat.two_pow_pos i
  have hd : putBit n i b = n % 2 ^ i + 2 ^ i * (n / 2 ^ i - n / 2 ^ i % 2 + if b then 1 else 0) := by
    have hle : n / 2 ^ i % 2 * 2 ^ i ≤ 2 ^ i * (n / 2 ^ i) := by
      rw [Nat.mul_comm]
      exact Nat.mul_le_mul_left _ (Nat.mod_le _ _)
    have hn := Nat.mod_add_div n (2 ^ i)
    rw [putBit, Nat.mul_add, Nat.mul_sub, Nat.mul_comm (2 ^ i) (n / 2 ^ i % 2)]
    cases b
    · simp only [Bool.false_eq_true, if_false]
      omega
    · simp only [if_true]
      omega
  unfold bitOf
  rw [hd, Nat.add_mul_div_left _ _ hp, Nat.div_eq_of_lt (Nat.mod_lt _ hp)]
  cases b
  · simp only [Bool.false_eq_true, if_false, decide_eq_false_iff_not]
    omega
  · simp only [if_true, decide_eq_true_eq]
    omega

theorem State.bitOf_setF_putBit (s : State) {i : Nat} (b : Bool) (hf : f.ok = true) (hi : i < f.width) (n : Nat) :
    bitOf ((s.setF f (putBit n i b)).getF f) i = b := by
  rw [State.getF_setF_same _ _ _ hf, bitOf_mod_two_pow _ hi, bitOf_putBit]

/-! ### The hoop clocks' ramps (R67) -/

theorem hoopCur_ok (n : Fin 4) : (hoopCur n).ok = true ∧ (R.CLK_EVENT_RAMP_DONE).apart (hoopCur n) = true := by
  revert n
  decide

theorem rampNext_lt {a b : Nat} (ha : a < 16) (hb : b < 16) : rampNext a b < 16 := by
  unfold rampNext
  split
  · omega
  · split <;> omega

/-- A step of a ramp: the divider, and whether it is the last. -/
theorem State.rampStep_spec (s : State) (n : Fin 4) (d : Nat) :
    (s.rampStep n d).getF (hoopCur n) = rampNext (s.getF (hoopCur n)) d % 16 ∧
    (rampNext (s.getF (hoopCur n)) d = d → (s.rampStep n d).getF R.CLK_EVENT_RAMP_DONE = 1) ∧
    (rampNext (s.getF (hoopCur n)) d ≠ d → ⟨n, d⟩ ∈ (s.rampStep n d).clk.ramps) := by
  obtain ⟨hok, ha⟩ := hoopCur_ok n
  unfold State.rampStep
  dsimp only
  split
  · next h =>
    refine ⟨?_, fun _ => State.getF_raise_same _ _ (by decide) rfl, fun hn => absurd h hn⟩
    rw [State.getF_raise_ne _ _ _ (by decide) hok ha, State.getF_withClk, State.getF_setF_same _ _ _ hok]
    rfl
  · next h =>
    refine ⟨?_, fun he => absurd he h, fun _ => by simp⟩
    rw [State.getF_withClk, State.getF_setF_same _ _ _ hok]
    rfl

theorem execHoopIdle_ramps {n : Fin 4} {u : Nat} (hr : s.rootRuns = true) (hh : (s.hoopRec n).isSome = true)
    (hm : (n : Nat) ≠ s.mainHoop)
    (hb : ∀ b ∈ List.range 16, s.hoopOf b = some (n : Nat) → (s.bobbin b).running = none ∧ (s.bobbin b).pre = none ∧
      (s.bobbin b).idleAt + s.getF R.CLK_IDLE_CYC_IDLE ≤ max s.mtb u) :
    execHoopIdle n u s = .next ((s.advance u).rampTo n (s.getF (hoopIdleDiv n))) := by
  have hi : (List.range 16).all (fun b => (s.advance u).hoopOf b != some (n : Nat) ||
      (s.advance u).bobbinIdle b ((s.advance u).getF R.CLK_IDLE_CYC_IDLE)) = true := by
    refine List.all_eq_true.mpr fun b hmem => ?_
    by_cases ho : s.hoopOf b = some (n : Nat)
    · obtain ⟨h1, h2, h3⟩ := hb b hmem ho
      have h : (s.advance u).bobbinIdle b (s.getF R.CLK_IDLE_CYC_IDLE) = true := by
        change ((s.bobbin b).running.isNone && (s.bobbin b).pre.isNone &&
          decide ((s.bobbin b).idleAt + s.getF R.CLK_IDLE_CYC_IDLE ≤ max s.mtb u)) = true
        simp only [h1, h2, h3, Option.isNone_none, decide_true, Bool.and_self]
      exact Bool.or_eq_true_iff.mpr (Or.inr h)
    · exact Bool.or_eq_true_iff.mpr (Or.inl (bne_iff_ne.mpr ho))
  have hc : ¬ ((((s.advance u).hoopRec n).isNone || decide ((n : Nat) = (s.advance u).mainHoop)) ||
      !(List.range 16).all (fun b => (s.advance u).hoopOf b != some (n : Nat) ||
      (s.advance u).bobbinIdle b ((s.advance u).getF R.CLK_IDLE_CYC_IDLE))) = true := by
    have h1 : ((s.advance u).hoopRec n).isNone = false := by
      change (s.hoopRec n).isNone = false
      rw [Option.isNone_eq_false_iff, hh]
    have h2 : ¬ (n : Nat) = (s.advance u).mainHoop := hm
    rw [hi, h1, decide_eq_false h2]
    exact Bool.false_ne_true
  unfold execHoopIdle
  rw [if_pos hr]
  exact if_neg hc

theorem hoopIdle_ramps {n : Fin 4} {u : Nat} (hr : s.rootRuns = true) (hh : (s.hoopRec n).isSome = true)
    (hm : (n : Nat) ≠ s.mainHoop)
    (hb : ∀ b ∈ List.range 16, s.hoopOf b = some (n : Nat) → (s.bobbin b).running = none ∧ (s.bobbin b).pre = none ∧
      (s.bobbin b).idleAt + s.getF R.CLK_IDLE_CYC_IDLE ≤ max s.mtb u)
    (hn : (s.clk.ramps.find? (fun r => r.hoop == n.val)).isNone = true) :
    Completes (.hoopIdle n u) s fun t =>
      t.getF (hoopCur n) = rampNext (s.getF (hoopCur n)) (s.getF (hoopIdleDiv n)) ∧
      (s.getF (hoopCur n) ≠ s.getF (hoopIdleDiv n) → t.getF (hoopCur n) ≠ s.getF (hoopIdleDiv n) →
        ⟨n, s.getF (hoopIdleDiv n)⟩ ∈ t.clk.ramps) ∧
      (s.getF (hoopCur n) ≠ s.getF (hoopIdleDiv n) → t.getF (hoopCur n) = s.getF (hoopIdleDiv n) →
        t.getF R.CLK_EVENT_RAMP_DONE = 1) := by
  refine ⟨_, execHoopIdle_ramps hr hh hm hb, ?_⟩
  have hf : (s.advance u).clk.ramps.find? (fun r => r.hoop == n.val) = none := Option.isNone_iff_eq_none.mp hn
  have hcur : (s.advance u).getF (hoopCur n) = s.getF (hoopCur n) := rfl
  unfold State.rampTo
  rw [hf, hcur]
  dsimp only
  split
  · next he => exact ⟨by rw [hcur, he]; simp [rampNext], fun h => absurd he h, fun h => absurd he h⟩
  · obtain ⟨hd, hl, hs⟩ := (s.advance u).rampStep_spec n (s.getF (hoopIdleDiv n))
    have hlt : rampNext (s.getF (hoopCur n)) (s.getF (hoopIdleDiv n)) < 16 :=
      rampNext_lt ((hoopCur n).get_lt _) ((hoopIdleDiv n).get_lt _)
    rw [hcur, Nat.mod_eq_of_lt hlt] at hd
    rw [hcur] at hl hs
    rw [hd]
    exact ⟨rfl, fun _ => hs, fun _ => hl⟩

theorem hoopRampStep_steps {n : Fin 4} {d : Nat} (h : s.clk.ramps.find? (fun r => r.hoop == n.val) = some ⟨n.val, d⟩) :
    Completes (.hoopRampStep n) s fun t => t.getF (hoopCur n) = rampNext (s.getF (hoopCur n)) d % 16 ∧
      (rampNext (s.getF (hoopCur n)) d = d → t.getF R.CLK_EVENT_RAMP_DONE = 1) := by
  obtain ⟨hd, hl, -⟩ := s.rampStep_spec n d
  have he : execHoopRampStep n s = .next (s.rampStep n d) := by
    unfold execHoopRampStep
    rw [h]
  exact ⟨_, he, hd, hl⟩

/-! ### The restart of a domain (R69) -/

def State.withRestarts (s : State) (l : List Restart) : State := { s with clk := { s.clk with restarts := l } }

/-- The restart of `r`'s domain with its divider switched, in the list of restarts. -/
def dividerSwitched (r : Restart) (l : List Restart) : List Restart :=
  l.map (fun q => if q.domain = r.domain then { q with switched := true } else q)

theorem clkRestartGo_takes {d : Fin 16} {v : Fin 32} (hs : s.inService = false)
    (h : (d : Nat) = 0 ∧ ((v : Nat) = 2 ∨ (v : Nat) = 16) ∨ (4 ≤ (d : Nat) ∧ (d : Nat) < 8 ∧ (s.hoopRec (d - 4)).isSome ∧
      ((v : Nat) = 2 ∨ (((v : Nat) = 3 ∨ (v : Nat) = 4) ∧ (d : Nat) - 4 ≠ s.mainHoop)))) :
    Completes (.clkRestartGo d v) s fun t =>
      t.clk.restarts = s.clk.restarts.filter (fun r => r.domain != d.val) ++ [⟨d, v, false⟩] ∧
      t.stoppedClock d = true ∧ t.resp = ST.OK := by
  have he : s.restartGo d v =
      (s.withRestarts (s.clk.restarts.filter (fun r => r.domain != d.val) ++ [⟨d, v, false⟩])).answer ST.OK := by
    unfold State.restartGo State.withRestarts
    rcases h with ⟨hd, hv⟩ | ⟨h4, h8, hh, hv⟩
    · rcases hv with hv | hv <;> simp [firstFail, hd, hv, hs]
    · obtain ⟨r, hr⟩ := Option.isSome_iff_exists.mp hh
      have h0 : ¬ (d : Nat) = 0 := by omega
      rcases hv with hv | ⟨hv | hv, hm⟩
      · simp [firstFail, h0, h4, h8, hr, hv, hs]
      · simp [firstFail, h0, h4, h8, hr, hv, hs, hm]
      · simp [firstFail, h0, h4, h8, hr, hv, hs, hm]
  refine ⟨_, rfl, ?_⟩
  rw [he]
  exact ⟨rfl, by simp [State.stoppedClock, State.answer, State.withRestarts], rfl⟩

/-- The restart of a domain is one of that domain. -/
theorem State.restartOf_domain {d : Nat} {r : Restart} (h : s.restartOf d = some r) : r.domain = d := by
  simpa using List.find?_some h

theorem restartDividerSwitch_switches {d : Fin 16} {r : Restart} (h : s.restartOf d = some r) :
    Completes (.restartDividerSwitch d) s fun t => t.restartOf d = some ⟨d, r.div, true⟩ ∧
      ((d : Nat) = 0 → t.clk.dramDiv = r.div) ∧
      (4 ≤ (d : Nat) → (d : Nat) < 8 → t.getF (hoopCur (d - 4)) = r.div % 16) := by
  have hd := State.restartOf_domain h
  have hfind : (dividerSwitched r s.clk.restarts).find? (fun q => q.domain == (d : Nat)) = some ⟨d, r.div, true⟩ := by
    have hsame : ((fun q : Restart => q.domain == (d : Nat)) ∘
        fun q => if q.domain = r.domain then { q with switched := true } else q) = fun q => q.domain == (d : Nat) := by
      funext q
      simp only [Function.comp]
      split <;> rfl
    have hr : s.clk.restarts.find? (fun q => q.domain == (d : Nat)) = some r := h
    rw [dividerSwitched, List.find?_map, hsame, hr, Option.map_some, if_pos rfl, hd]
  have he : execRestartDividerSwitch d s = .next (if r.domain = 0
      then { s.withRestarts (dividerSwitched r s.clk.restarts) with
        clk := { (s.withRestarts (dividerSwitched r s.clk.restarts)).clk with dramDiv := r.div } }
      else (s.withRestarts (dividerSwitched r s.clk.restarts)).setF (hoopCur (r.domain - 4)) r.div) := by
    unfold execRestartDividerSwitch
    rw [h]
    rfl
  refine ⟨_, he, ?_⟩
  rw [hd]
  split
  · next h0 => exact ⟨hfind, fun _ => rfl, fun h4 => absurd h0 (by omega)⟩
  · next h0 =>
    refine ⟨?_, fun h => absurd h h0, fun h4 h8 => ?_⟩
    · rw [State.restartOf, State.setF_clk]
      exact hfind
    · rw [State.getF_setF_same _ _ _ (hoopCur_ok ⟨d - 4, by omega⟩).1]
      rfl

theorem State.dramServe_held (s : State) (r : DramReq) : (s.dramServe r).ms.held = s.ms.held ∧ (s.dramServe r).clk = s.clk := by
  obtain ⟨k, q, m, h⟩ := s.dramAssign_eq r (List.range r.chunks)
  rw [State.dramServe, h]
  exact ⟨rfl, rfl⟩

theorem State.dramResume_spec (s : State) : s.dramResume.ms.held = [] ∧ s.dramResume.clk = s.clk := by
  obtain ⟨k, q, m, h⟩ := State.dramAnew_eq { s with ms := { s.ms with held := [] } }
  unfold State.dramResume
  refine State.each_induct (P := fun t => t.ms.held = [] ∧ t.clk = s.clk) _ _ ?_ fun t r ht => ?_
  · rw [h]
    exact ⟨rfl, rfl⟩
  · rw [(t.dramServe_held r).1, (t.dramServe_held r).2]
    exact ht

theorem restartFirstEdge_ends {d : Fin 16} {r : Restart} (h : s.restartOf d = some r) (hs : r.switched = true) :
    Completes (.restartFirstEdge d) s fun t => t.stoppedClock d = false ∧ ((d : Nat) = 0 → t.ms.held = []) ∧
      ((d : Nat) ≠ 0 → t.ms = s.ms) := by
  have hd := State.restartOf_domain h
  have hstop : (s.clk.restarts.filter (fun q => q.domain != (d : Nat))).any (fun q => q.domain == (d : Nat)) = false := by
    simp [List.any_eq_false]
  have he : execRestartFirstEdge d s = .next (if r.domain = 0
      then (s.withRestarts (s.clk.restarts.filter (fun q => q.domain != r.domain))).dramResume
      else s.withRestarts (s.clk.restarts.filter (fun q => q.domain != r.domain))) := by
    unfold execRestartFirstEdge
    rw [h]
    exact if_neg (by simp [hs])
  refine ⟨_, he, ?_⟩
  rw [hd]
  split
  · next h0 =>
    obtain ⟨held, clk⟩ := State.dramResume_spec
      (s.withRestarts (s.clk.restarts.filter (fun q => q.domain != (d : Nat))))
    refine ⟨?_, fun _ => held, fun h => absurd h0 h⟩
    rw [State.stoppedClock, clk]
    exact hstop
  · next h0 => exact ⟨hstop, fun h => absurd h h0, fun _ => rfl⟩

/-! ### Gates (R70 to R75) -/

theorem gateRequest_pends {u : Fin 13} (hb : bitOf (s.getF clkGate) u = false) (hg : s.gateOk u = true) :
    Completes (.gateRequest u) s fun t => bitOf (t.getF clkGate) u = true ∧ bitOf (t.getF R.CLK_GATE_STAT_PEND) u = true ∧
      t.resp = ST.OK := by
  have he : s.gateRequest u = (((s.setF clkGate (putBit (s.getF clkGate) u true)).setF R.CLK_GATE_STAT_PEND
      (putBit ((s.setF clkGate (putBit (s.getF clkGate) u true)).getF R.CLK_GATE_STAT_PEND) u true)).answer ST.OK) := by
    simp [State.gateRequest, hb, hg]
  refine ⟨_, congrArg Host.Outcome.next he, ?_, ?_, rfl⟩
  · rw [State.getF_answer, State.getF_setF_ne _ _ _ _ (by decide) (by decide) (by decide)]
    exact State.bitOf_setF_putBit _ true (by decide) u.isLt _
  · rw [State.getF_answer]
    exact State.bitOf_setF_putBit _ true (by decide) u.isLt _

theorem gateRequest_refuses {u : Fin 13} (hb : bitOf (s.getF clkGate) u = false) (hg : s.gateOk u = false) :
    Completes (.gateRequest u) s fun t => bitOf (t.getF clkGate) u = false ∧ t.getF R.CLK_CMD_ERR_UNIT = u ∧
      t.getF R.CLK_CMD_ERR_STATUS = ST.CLK_GATE_STATE ∧ t.resp = ST.CLK_GATE_STATE := by
  have he : s.gateRequest u =
      ((s.setF R.CLK_CMD_ERR_UNIT u).setF R.CLK_CMD_ERR_STATUS ST.CLK_GATE_STATE).answer ST.CLK_GATE_STATE := by
    rw [State.gateRequest, if_neg (by simp [hb]), if_pos (by simp [hg]), State.clkRefuse, State.refuse]
  have hu : (u : Nat) % 2 ^ R.CLK_CMD_ERR_UNIT.width = u := Nat.mod_eq_of_lt (by show (u : Nat) < 32; omega)
  refine ⟨_, congrArg Host.Outcome.next he, (?_ : _ ∧ _)⟩
  rw [State.getF_answer, State.getF_answer, State.getF_answer]
  simp (disch := decide) only [State.getF_setF_ne, State.getF_setF_same, hu]
  exact ⟨hb, trivial, rfl, rfl⟩

theorem gateClose_gates {u : Fin 13} (hb : bitOf (s.getF R.CLK_GATE_STAT_PEND) u = true) :
    Completes (.gateClose u) s fun t => bitOf (t.getF R.CLK_GATE_STAT_PEND) u = false ∧
      bitOf (t.getF R.CLK_GATE_STAT_GATED) u = true ∧ t.getF R.CLK_EVENT_GATE_DONE = 1 := by
  refine ⟨_, if_pos hb, ?_, ?_, State.getF_raise_same _ _ (by decide) rfl⟩
  · rw [State.getF_raise_ne _ _ _ (by decide) (by decide) (by decide),
      State.getF_setF_ne _ _ _ _ (by decide) (by decide) (by decide)]
    exact State.bitOf_setF_putBit _ false (by decide) u.isLt _
  · rw [State.getF_raise_ne _ _ _ (by decide) (by decide) (by decide)]
    exact State.bitOf_setF_putBit _ true (by decide) u.isLt _

/-- The unit's bit cleared in the gate, the pending and the gated word. -/
def State.gateOpened (s : State) (u : Nat) : State :=
  let s := s.setF clkGate (putBit (s.getF clkGate) u false)
  let s := s.setF R.CLK_GATE_STAT_PEND (putBit (s.getF R.CLK_GATE_STAT_PEND) u false)
  s.setF R.CLK_GATE_STAT_GATED (putBit (s.getF R.CLK_GATE_STAT_GATED) u false)

theorem ungate_opens (hi : s.Inv) {u : Fin 13} (hb : bitOf (s.getF clkGate) u = true)
    (ht : 9 ≤ (u : Nat) → (s.trxRec (u - 9)).isSome = true) :
    Completes (.ungate u) s fun t => bitOf (t.getF clkGate) u = false ∧ bitOf (t.getF R.CLK_GATE_STAT_PEND) u = false ∧
      bitOf (t.getF R.CLK_GATE_STAT_GATED) u = false ∧ t.resp = ST.OK := by
  have hc : ¬ (decide (9 ≤ (u : Nat)) && (s.trxRec (u - 9)).isNone) = true := by
    by_cases h9 : 9 ≤ (u : Nat)
    · rw [Option.isNone_eq_false_iff.mpr (ht h9), Bool.and_false]
      exact Bool.false_ne_true
    · simp [h9]
  have he : s.ungate u = (if (u : Nat) = gateNand then (s.gateOpened u).nandStart else s.gateOpened u).answer ST.OK := by
    unfold State.ungate
    rw [if_neg (by simp [hb]), if_neg hc]
    rfl
  have hio : (s.gateOpened u).Inv := State.inv_setF (State.inv_setF (State.inv_setF hi _ _) _ _) _ _
  have hs : (s.gateOpened u).Spares [] [16]
      (if (u : Nat) = gateNand then (s.gateOpened u).nandStart else s.gateOpened u) :=
    .ite (fun _ => (State.nandStart_within (.refl _ _) (List.Subset.refl _)).spares (by decide)) fun _ => .refl _ _ _
  refine ⟨_, rfl, ?_⟩
  rw [he]
  refine ⟨?_, ?_, ?_, rfl⟩
  · refine (congrArg (bitOf · (u : Nat)) (hs.getF clkGate (by decide) (by simp) (by decide) hio)).trans ?_
    unfold State.gateOpened
    dsimp only
    simp (disch := decide) only [State.getF_setF_ne]
    exact State.bitOf_setF_putBit _ false (by decide) u.isLt _
  · refine (congrArg (bitOf · (u : Nat)) (hs.getF R.CLK_GATE_STAT_PEND (by decide) (by simp) (by decide) hio)).trans ?_
    unfold State.gateOpened
    dsimp only
    rw [State.getF_setF_ne _ _ _ _ (by decide) (by decide) (by decide)]
    exact State.bitOf_setF_putBit _ false (by decide) u.isLt _
  · refine (congrArg (bitOf · (u : Nat)) (hs.getF R.CLK_GATE_STAT_GATED (by decide) (by simp) (by decide) hio)).trans ?_
    exact State.bitOf_setF_putBit _ false (by decide) u.isLt _
end
end Sys2Proof.Machine

section
open Sys2Proof Sys2Proof.Machine

/-- Settles O6: a ramp's step by what it does to the divider, a restart by the list of restarts in progress, a gate by one bit of
each of its three words. -/
theorem clockDividersAndGates : Obligations.ClockDividersAndGates := by
  unfold Obligations.ClockDividersAndGates
  intro s hi
  refine ⟨?_, ?_, ?_, ?_, ?_, ?_, ?_, ?_, ?_⟩
  · exact fun n u hr hh hm hb hn => hoopIdle_ramps hr hh hm hb hn
  · exact fun n d h => hoopRampStep_steps h
  · exact fun d v hs h => clkRestartGo_takes hs h
  · exact fun d r h => restartDividerSwitch_switches h
  · exact fun d r h hs => restartFirstEdge_ends h hs
  · exact fun u hb hg => gateRequest_pends hb hg
  · exact fun u hb hg => gateRequest_refuses hb hg
  · exact fun u hb => gateClose_gates hb
  · exact fun u hb ht => ungate_opens hi hb ht

end

namespace Sys2Proof.Machine
open Sys2Proof

/-! ### An upstream port listens again (R99, R104) -/

/-- What a port that listens again writes. -/
def listenFields (p : Nat) : List Field :=
  [R.UPL_STAT_LINK_UP p, R.UPL_STAT_BLOCK_LOCK p, R.UPL_STAT_CDR_LOCK p, R.UPL_STAT_PHASE p, R.UPL_STAT_FEC_ON p]

/-- The blocks that a tie link which starts again can write. -/
def tieBlocks : List Nat := [5, 6, 7, 11, 12, 14, 15, 16, 20, 21, 22]

section
variable {s : State}

theorem State.portListen_spares (s : State) (p : Nat) : s.Spares (listenFields p) [] (s.portListen p) := by
  unfold State.portListen
  refine State.Spares.setF (State.Spares.setF (State.Spares.setF (State.Spares.setF (State.Spares.setF (.refl _ _ s)
    ?_ ?_ 0) ?_ ?_ 0) ?_ ?_ 0) ?_ ?_ 0) ?_ ?_ 0
  all_goals simp [listenFields, R.UPL_STAT_LINK_UP, R.UPL_STAT_BLOCK_LOCK, R.UPL_STAT_CDR_LOCK, R.UPL_STAT_PHASE, R.UPL_STAT_FEC_ON]

theorem State.portListen_spec (s : State) (p : Fin 2) :
    (s.portListen p).getF (R.UPL_STAT_PHASE p) = 0 ∧ (s.portListen p).getF (R.UPL_STAT_LINK_UP p) = 0 := by
  have ha : ∀ p : Fin 2, (∀ g ∈ listenFields p, g.ok = true) ∧ (R.UPL_STAT_FEC_ON p).apart (R.UPL_STAT_PHASE p) = true ∧
    ∀ g ∈ (listenFields p).tail, g.apart (R.UPL_STAT_LINK_UP p) = true := by decide
  obtain ⟨hok, h1, h2⟩ := ha p
  simp only [listenFields, List.tail_cons, List.forall_mem_cons] at hok h2
  obtain ⟨hl, hb, hc, hp, hf, -⟩ := hok
  obtain ⟨h3, h4, h5, h6, -⟩ := h2
  constructor
  · rw [State.portListen, State.getF_setF_ne _ _ _ _ (Field.ok_fits hf) hp h1, State.getF_setF_same _ _ _ hp]
    rfl
  · rw [State.portListen, State.getF_setF_ne _ _ _ _ (Field.ok_fits hf) hl h6, State.getF_setF_ne _ _ _ _ (Field.ok_fits hp) hl h5,
      State.getF_setF_ne _ _ _ _ (Field.ok_fits hc) hl h4, State.getF_setF_ne _ _ _ _ (Field.ok_fits hb) hl h3,
      State.getF_setF_same _ _ _ hl]
    rfl

/-- A port that loses its link listens, and reports it where the link was up. -/
theorem State.portDown_spec (hi : s.Inv) (p : Fin 2) : (s.portDown p).getF (R.UPL_STAT_PHASE p) = 0 ∧
    (s.portDown p).getF (R.UPL_STAT_LINK_UP p) = 0 ∧
    (s.isSet (R.UPL_STAT_LINK_UP p) = true → (s.portDown p).isSet (R.UPL_EVENT_LINK_DOWN p) = true) := by
  obtain ⟨hph, hlu⟩ := s.portListen_spec p
  have hil := (s.portListen_spares p).inv hi
  have ha : ∀ p : Fin 2, (R.UPL_STAT_PHASE p).ok = true ∧ (R.UPL_STAT_LINK_UP p).ok = true ∧ (R.UPL_EVENT_LINK_DOWN p).ok = true ∧
    (R.UPL_EVENT_LINK_DOWN p).apart (R.UPL_STAT_PHASE p) = true ∧ (R.UPL_EVENT_LINK_DOWN p).apart (R.UPL_STAT_LINK_UP p) = true := by
    decide
  obtain ⟨hp, hl, he, h1, h2⟩ := ha p
  unfold State.portDown
  extract_lets up t w
  split
  · have hs : ((s.portListen p).raise (R.UPL_EVENT_LINK_DOWN p)).Spares [] [6, 7, 11, 12, 14, 15, 16, 20, 21]
        ((((((s.portListen p).raise (R.UPL_EVENT_LINK_DOWN p)).setUpl p { t.uplPort p with paused := [], sent := [] }
          ).cutPackets (0x48 + 0x10 * p)).timePortLost p).ryPortLost p).leasePathCheck := by
      refine State.Within.spares (T := [.block 11, .block 12, .block 14, .block 15, .block 16, .block 20, .block 21, .block 6,
        .block 7, .cmp, .freeIx, .ky, .mac, .mem, .ms, .mtb, .notes, .out, .pa, .pl, .queues, .rd, .resp, .ro, .ry, .sl, .tm, .upl0,
        .upl1]) ?_ (by decide)
      refine State.leasePathCheck_within (State.ryPortLost_within (State.timePortLost_within (State.cutPackets_within
        (State.setUpl_within (.refl _ _) ?_ _ _) ?_ _) ?_ _) ?_ _) ?_ <;> decide
    have hir : ((s.portListen p).raise (R.UPL_EVENT_LINK_DOWN p)).Inv :=
      ((State.Spares.refl [R.UPL_EVENT_LINK_DOWN p] [] _).raise (by simp) (by simp [R.UPL_EVENT_LINK_DOWN])).inv hil
    refine ⟨?_, ?_, fun _ => ?_⟩
    · exact (hs.getF _ hp (by simp) (by simp) hir).trans ((State.getF_raise_ne _ _ _ (Field.ok_fits he) hp h1).trans hph)
    · exact (hs.getF _ hl (by simp) (by simp) hir).trans ((State.getF_raise_ne _ _ _ (Field.ok_fits he) hl h2).trans hlu)
    · exact (hs.isSet hir he (by simp) (by simp)).trans (State.isSet_raise_same _ he rfl)
  · next h => exact ⟨hph, hlu, fun hu => absurd hu h⟩

/-- No field of the root or of a source's loss stands in a port's registers. -/
theorem lossFields_apart_port (p : Fin 2) :
    ∀ f ∈ [R.UPL_STAT_PHASE p, R.UPL_STAT_LINK_UP p, R.UPL_EVENT_LINK_DOWN p], f.ok = true ∧ (∀ g ∈ rootFields, g.apart f = true) ∧
      ∀ g ∈ noteFields p ++ disqualFields p, g.apart f = true := by
  revert p
  decide

theorem State.getF_toAwait_port (hi : s.Inv) (p : Fin 2) :
    s.toAwait.getF (R.UPL_STAT_PHASE p) = 0 ∧ s.toAwait.getF (R.UPL_STAT_LINK_UP p) = 0 := by
  have ha : ∀ p : Fin 2, ∀ f ∈ [R.UPL_STAT_PHASE p, R.UPL_STAT_LINK_UP p], f.ok = true ∧ keptReg 6 f.addr = false ∧
    (∀ g ∈ awaitFields, g.apart f = true) ∧ f.get (regReset f.addr) = 0 := by decide
  simp only [List.forall_mem_cons] at ha
  obtain ⟨⟨hp, kp, ap, zp⟩, ⟨hl, kl, al, zl⟩, -⟩ := ha p
  exact ⟨(State.getF_toAwait_gone hi hp kp ap).trans zp, (State.getF_toAwait_gone hi hl kl al).trans zl⟩

theorem State.rootKept_of_inService (h : s.inService = true) : s.rootKept = true := by
  simp only [State.inService, Bool.or_eq_true, decide_eq_true_eq] at h
  have hd : devLoad < s.dev := by
    rcases h with (h | h) | h <;> rw [h] <;> decide
  simp [State.rootKept, hd]

/-- A port whose source is lost listens again; in SERVICE a link that was up is reported. -/
theorem State.sourceLost_listens (hi : s.Inv) (p : Fin 2) : (s.sourceLost p).getF (R.UPL_STAT_PHASE p) = 0 ∧
    (s.sourceLost p).getF (R.UPL_STAT_LINK_UP p) = 0 ∧
    (s.inService = true → s.isSet (R.UPL_STAT_LINK_UP p) = true → (s.sourceLost p).isSet (R.UPL_EVENT_LINK_DOWN p) = true) := by
  have hgone (u : State) : u.linkGone p = u.portDown p := if_pos p.isLt
  cases hl : s.srcLocked p with
  | false =>
    rw [State.sourceLost_unlocked hl, hgone]
    obtain ⟨h1, h2, h3⟩ := State.portDown_spec hi p
    exact ⟨h1, h2, fun _ => h3⟩
  | true =>
    have hj := s.lossJudged_spares p
    have hf := lossFields_apart_port p
    simp only [List.forall_mem_cons] at hf
    obtain ⟨⟨hp, rp, np⟩, ⟨hu, ru, nu⟩, ⟨he, re, -⟩, -⟩ := hf
    obtain ⟨h1, h2, h3⟩ := State.portDown_spec (hj.inv hi) p
    have hid := ((s.lossJudged p).linkGone_spares p).inv (hj.inv hi)
    rw [State.sourceLost_eq hl]
    rw [hgone] at hid ⊢
    rw [hj.isSet hi hu nu (by simp)] at h3
    rcases State.clockDecide_or ((s.lossJudged p).portDown p) with hs | ⟨hk, e⟩
    · exact ⟨(hs.getF _ hp rp (by simp) hid).trans h1, (hs.getF _ hu ru (by simp) hid).trans h2,
        fun _ hup => (hs.isSet hid he re (by simp)).trans (h3 hup)⟩
    · obtain ⟨k1, k2⟩ := State.getF_toAwait_port hid p
      rw [e]
      refine ⟨k1, k2, fun hsv => absurd hk ?_⟩
      have dev : ((s.lossJudged p).portDown p).dev = s.dev := by
        rw [← hgone]
        exact State.getF_lossGone hi (Nat.lt_of_lt_of_le p.isLt (by decide)) (by simp)
      have hsv' : ((s.lossJudged p).portDown p).inService = true := by rwa [State.inService, dev]
      simp [State.rootKept_of_inService hsv']

/-! ### A port's source locks -/

/-- At ROOT_LOCK on an upstream port, the other port and the tie link start again. -/
theorem State.retrainOthers_spares (s : State) (p : Fin 2) : s.Spares (listenFields (1 - p)) tieBlocks (s.retrainOthers p) := by
  have h : s.Spares (listenFields (1 - p)) tieBlocks
      (s.each ([0, 1].filter (fun q => q != p.val && decide (s.getF (R.UPL_STAT_PHASE q) ≠ 0))) (fun s q => s.portListen q)) := by
    refine (State.Spares.refl _ _ s).each _ fun u hu q hq => ?_
    obtain ⟨hm, hc⟩ := List.mem_filter.mp hq
    simp only [Bool.and_eq_true, bne_iff_ne] at hc
    have hm' : q < 2 := by
      simp only [List.mem_cons, List.not_mem_nil, or_false] at hm
      omega
    have hqp : q = 1 - p := by omega
    rw [hqp]
    exact hu.trans ((u.portListen_spares _).mono (List.Subset.refl _) (by simp))
  unfold State.retrainOthers
  exact .ite (fun _ => h.within (State.tieListen_within (.refl _ _) (List.Subset.refl _) 0) (by decide)) fun _ => h

theorem State.sourceLocked_spares (s : State) (p : Fin 2) :
    s.Spares (lockFields p ++ rootedFields p ++ listenFields (1 - p)) tieBlocks (s.sourceLocked p) := by
  have hn := (s.lockNoted_spares p).mono (m := lockFields p ++ rootedFields p ++ listenFields (1 - p)) (cs := tieBlocks)
    (by simp) (by simp)
  by_cases h : s.srcLocked p = true ∨ s.dev = devUnpowered
  · have e : s.sourceLocked p = s := by
      unfold State.sourceLocked
      rw [if_pos (by simpa using h)]
    rw [e]
    exact .refl _ _ s
  · simp only [not_or, Bool.not_eq_true] at h
    rw [State.sourceLocked_eq h.1 h.2]
    refine .ite (fun _ => ?_) fun _ => .ite (fun _ => hn.clk _) fun _ => hn
    have hr := ((s.lockNoted p).rooted_spares p).mono (m := lockFields p ++ rootedFields p ++ listenFields (1 - p)) (cs := tieBlocks)
      (by simp) (by simp)
    exact (hn.trans hr).trans ((State.retrainOthers_spares _ p).mono (by simp) (List.Subset.refl _))

end
end Sys2Proof.Machine

namespace Sys2Proof.Machine
open Sys2Proof

/-! ### Training of an upstream port (R98 to R104) -/

section
variable {s : State} {p : Fin 2}

theorem uplSignalDetect_selects {m : Bool} (hd : s.dev ≠ devUnpowered) (hp : s.uplPhase p = 0)
    (hg : s.gatedOrPending (gateUpl p) = false) (ha : bitOf (s.getF (R.UPL_CFG_ALLOW p)) (if m then 0 else 1) = true) :
    Completes (.uplSignalDetect p m) s fun t => t.uplPhase p = 1 ∧ t.isSet (R.UPL_STAT_MODE p) = !m := by
  have he : execUplSignalDetect p m s = .next ((s.setB (R.UPL_STAT_MODE p) (!m)).setF (R.UPL_STAT_PHASE p) 1) := by
    unfold execUplSignalDetect
    exact if_neg (by simp [hd, hp, hg, ha])
  have hf : ∀ p : Fin 2, (R.UPL_STAT_PHASE p).ok = true ∧ (R.UPL_STAT_MODE p).ok = true ∧
    (R.UPL_STAT_PHASE p).apart (R.UPL_STAT_MODE p) = true := by decide
  obtain ⟨h1, h2, h3⟩ := hf p
  refine ⟨_, he, State.getF_setF_same _ _ _ h1, ?_⟩
  rw [State.isSet, State.getF_setF_ne _ _ _ _ (Field.ok_fits h1) h2 h3]
  exact State.isSet_setB_same _ _ h2 rfl

theorem uplPhase_ok (p : Fin 2) : (R.UPL_STAT_PHASE p).ok = true := by
  revert p
  decide

theorem State.uplPhase_setF (s : State) (p : Fin 2) {k : Nat} (hk : k < 8) : (s.setF (R.UPL_STAT_PHASE p) k).uplPhase p = k := by
  rw [State.uplPhase, State.getF_setF_same _ _ _ (uplPhase_ok p)]
  exact Nat.mod_eq_of_lt hk

/-- Auto-negotiation starts with phase 2, and with the base page where the transmitter is on. -/
theorem State.anStart_phase (s : State) (p : Fin 2) : (s.anStart p).uplPhase p = 2 := by
  unfold State.anStart
  dsimp only
  split
  · exact s.uplPhase_setF p (by decide)
  · exact s.uplPhase_setF p (by decide)

theorem State.anStart_spares (s : State) (p : Nat) : s.Spares [R.UPL_STAT_PHASE p] [] (s.anStart p) := by
  have h := (State.Spares.refl [R.UPL_STAT_PHASE p] [] s).setF (List.mem_singleton_self _)
    (by simp [R.UPL_STAT_PHASE]) 2
  unfold State.anStart
  exact .ite (fun _ => h) fun _ => h.within (State.emit_within (.refl [.out] _) (List.Subset.refl _) _) (by decide)

theorem State.anStart_out (s : State) (p : Fin 2) (h : (s.anStart p).uplTx p ≠ .idle) :
    (s.anStart p).out = .basePage p (if s.getF (R.UPL_FC_MODE p) = 1 then 3 else 0) (s.getF (R.UPL_CFG_FEC_ADV p)) :: s.out := by
  have ha : ∀ p : Fin 2, (R.UPL_STAT_PHASE p).ok = true ∧ (R.UPL_FC_MODE p).ok = true ∧ (R.UPL_CFG_FEC_ADV p).ok = true ∧
    (R.UPL_STAT_PHASE p).apart (R.UPL_FC_MODE p) = true ∧ (R.UPL_STAT_PHASE p).apart (R.UPL_CFG_FEC_ADV p) = true := by decide
  obtain ⟨hp, hm, hf, h1, h2⟩ := ha p
  unfold State.anStart at h ⊢
  dsimp only at h ⊢
  split at h
  · next h0 => exact absurd h0 h
  · next h0 =>
    rw [if_neg h0, State.getF_setF_ne _ _ _ _ (Field.ok_fits hp) hm h1, State.getF_setF_ne _ _ _ _ (Field.ok_fits hp) hf h2,
      State.emit, State.setF_out]

theorem uplAcquisitionDone_leads (hi : s.Inv) (hp : s.uplPhase p = 1) : Completes (.uplAcquisitionDone p) s fun t =>
    (t.uplPhase p = if s.isSet (R.UPL_STAT_MODE p) then 4 else 2) ∧ t.isSet (R.UPL_STAT_CDR_LOCK p) = true ∧
    (s.isSet (R.UPL_STAT_MODE p) = false → t.uplTx p ≠ .idle →
      t.out = .basePage p (if s.getF (R.UPL_FC_MODE p) = 1 then 3 else 0) (s.getF (R.UPL_CFG_FEC_ADV p)) :: s.out) := by
  have hf : ∀ p : Fin 2, (R.UPL_STAT_PHASE p).ok = true ∧ (R.UPL_STAT_MODE p).ok = true ∧ (R.UPL_STAT_CDR_LOCK p).ok = true ∧
    (R.UPL_STAT_CDR_LOCK p).apart (R.UPL_STAT_MODE p) = true ∧ (R.UPL_STAT_PHASE p).apart (R.UPL_STAT_CDR_LOCK p) = true := by decide
  obtain ⟨hph, hmo, hcd, h1, h2⟩ := hf p
  have hg : ∀ p : Fin 2, (R.UPL_FC_MODE p).ok = true ∧ (R.UPL_CFG_FEC_ADV p).ok = true ∧
    (R.UPL_STAT_CDR_LOCK p).apart (R.UPL_FC_MODE p) = true ∧ (R.UPL_STAT_CDR_LOCK p).apart (R.UPL_CFG_FEC_ADV p) = true := by decide
  obtain ⟨hfc, had, h3, h4⟩ := hg p
  have mode : (s.setF (R.UPL_STAT_CDR_LOCK p) 1).isSet (R.UPL_STAT_MODE p) = s.isSet (R.UPL_STAT_MODE p) := by
    rw [State.isSet, State.getF_setF_ne _ _ _ _ (Field.ok_fits hcd) hmo h1, State.isSet]
  have cdr := State.isSet_setF_one s hcd rfl
  have he : execUplAcquisitionDone p s = .next (if s.isSet (R.UPL_STAT_MODE p)
      then (s.setF (R.UPL_STAT_CDR_LOCK p) 1).setF (R.UPL_STAT_PHASE p) 4 else (s.setF (R.UPL_STAT_CDR_LOCK p) 1).anStart p) := by
    unfold execUplAcquisitionDone
    rw [if_pos hp]
    simp only [mode]
  refine ⟨_, he, ?_⟩
  cases hm : s.isSet (R.UPL_STAT_MODE p) with
  | true =>
    refine ⟨State.uplPhase_setF _ p (by decide), ?_, fun h => absurd h (by simp)⟩
    exact (congrArg (decide <| · = 1) (State.getF_setF_ne _ _ _ _ (Field.ok_fits hph) hcd h2)).trans cdr
  | false =>
    refine ⟨State.anStart_phase _ p, ?_, fun _ ht => ?_⟩
    · exact ((State.anStart_spares _ p).isSet (State.inv_setF hi _ _) hcd (by simpa using h2) (by simp)).trans cdr
    · refine (State.anStart_out _ p ht).trans ?_
      rw [State.getF_setF_ne _ _ _ _ (Field.ok_fits hcd) hfc h3, State.getF_setF_ne _ _ _ _ (Field.ok_fits hcd) had h4, State.setF_out]

theorem uplNextPageRx_answers (hp : s.uplPhase p = 2) (ht : s.uplTx p ≠ .idle) : Completes (.uplNextPageRx p) s fun t =>
    t.out = .nullPage p :: s.out ∧ t.regs = s.regs :=
  ⟨s.emit (.nullPage p), if_pos (by simp [hp, ht]), rfl, rfl⟩

theorem uplAnComplete_resolves {v : Fin 65536} (hp : s.uplPhase p = 2) (ht : s.uplTx p ≠ .idle) :
    Completes (.uplAnComplete p v) s fun t => t.uplPhase p = 3 ∧ t.getF (R.UPL_LP_ABILITY_BASE p) = v ∧
      t.isSet (R.UPL_STAT_FEC_ON p) = (bitOf (s.getF (R.UPL_CFG_FEC_ADV p)) 1 && bitOf v 14 &&
        (bitOf (s.getF (R.UPL_CFG_FEC_ADV p)) 0 || bitOf v 15)) := by
  have hf : ∀ p : Fin 2, (R.UPL_STAT_PHASE p).ok = true ∧ (R.UPL_LP_ABILITY_BASE p).ok = true ∧ (R.UPL_STAT_FEC_ON p).ok = true ∧
    (R.UPL_STAT_FEC_ON p).apart (R.UPL_LP_ABILITY_BASE p) = true ∧ (R.UPL_STAT_PHASE p).apart (R.UPL_LP_ABILITY_BASE p) = true ∧
    (R.UPL_STAT_PHASE p).apart (R.UPL_STAT_FEC_ON p) = true := by decide
  obtain ⟨hph, hlp, hfe, h1, h2, h3⟩ := hf p
  have hc : ¬ (decide (s.uplPhase p ≠ 2) || decide (s.uplTx p = .idle)) = true := by simp [hp, ht]
  refine ⟨_, if_neg hc, State.uplPhase_setF _ p (by decide), ?_, ?_⟩
  · rw [State.getF_setF_ne _ _ _ _ (Field.ok_fits hph) hlp h2, State.setB_eq, State.getF_setF_ne _ _ _ _ (Field.ok_fits hfe) hlp h1,
      State.getF_setF_same _ _ _ hlp]
    exact Nat.mod_eq_of_lt v.isLt
  · rw [State.isSet, State.getF_setF_ne _ _ _ _ (Field.ok_fits hph) hfe h3]
    exact State.isSet_setB_same _ _ hfe rfl

theorem uplTrainingDone_leads (hp : s.uplPhase p = 3) (ht : s.uplTx p ≠ .idle) :
    Completes (.uplTrainingDone p) s fun t => t.uplPhase p = 4 :=
  ⟨_, if_pos (by simp [hp, ht]), State.uplPhase_setF s p (by decide)⟩

/-! ### The link comes up (R50, R104) -/

/-- The port's registers and flow-control mode when its receiver holds block lock, before the source locks. -/
def State.linkUp (s : State) (p : Nat) : State :=
  let s := ((s.setF (R.UPL_STAT_BLOCK_LOCK p) 1).setF (R.UPL_STAT_LINK_UP p) 1).setF (R.UPL_STAT_PHASE p) 5
  ((s.setUpl p { s.uplPort p with mode := s.getF (R.UPL_FC_MODE p), paused := [], sent := [] }).raise
    (R.UPL_EVENT_LINK_UP p)).ryPortBack p

theorem State.uplPort_setUpl (s : State) (p : Fin 2) (v : UplPort) : (s.setUpl p v).uplPort p = v := by
  unfold State.setUpl State.uplPort
  split <;> rfl

theorem State.getF_setUpl (s : State) (p : Nat) (v : UplPort) (f : Field) : (s.setUpl p v).getF f = s.getF f := by
  unfold State.setUpl
  split <;> rfl

theorem State.uplPort_congr {s t : State} (h0 : t.upl0 = s.upl0) (h1 : t.upl1 = s.upl1) (p : Nat) : t.uplPort p = s.uplPort p := by
  rw [State.uplPort, State.uplPort, h0, h1]

theorem State.Within.uplPort {T : List Part} {s t : State} (h : State.Within T s t) (h0 : .upl0 ∉ T) (h1 : .upl1 ∉ T) (p : Nat) :
    t.uplPort p = s.uplPort p := State.uplPort_congr (h.same .upl0 h0) (h.same .upl1 h1) p

end
end Sys2Proof.Machine

namespace Sys2Proof.Machine
open Sys2Proof

section
variable {s : State} {p : Fin 2}

theorem State.sourceLocked_locked {n : Nat} (hi : s.Inv) (hn : n < 3) (hd : s.dev ≠ devUnpowered) :
    (s.sourceLocked n).srcLocked n = true := by
  cases hl : s.srcLocked n with
  | false => exact (State.sourceLocked_spec hi hn hl hd).1
  | true =>
    have e : s.sourceLocked n = s := by
      unfold State.sourceLocked
      rw [if_pos (by simp [hl])]
    rw [e, hl]

/-- What a link that comes up writes. -/
def linkUpFields (p : Nat) : List Field :=
  [R.UPL_STAT_BLOCK_LOCK p, R.UPL_STAT_LINK_UP p, R.UPL_STAT_PHASE p, R.UPL_EVENT_LINK_UP p]

theorem State.linkUp_spares (s : State) (p : Nat) : s.Spares (linkUpFields p) [] (s.linkUp p) := by
  have h := (((State.Spares.refl (linkUpFields p) [] s).setF (g := R.UPL_STAT_BLOCK_LOCK p) (by simp [linkUpFields])
    (by simp [R.UPL_STAT_BLOCK_LOCK]) 1).setF (g := R.UPL_STAT_LINK_UP p) (by simp [linkUpFields])
    (by simp [R.UPL_STAT_LINK_UP]) 1).setF (g := R.UPL_STAT_PHASE p) (by simp [linkUpFields]) (by simp [R.UPL_STAT_PHASE]) 5
  unfold State.linkUp
  exact ((h.within (State.setUpl_within (.refl [.upl0, .upl1] _) (List.Subset.refl _) _ _) (by decide)).raise
    (by simp [linkUpFields]) (by simp [R.UPL_EVENT_LINK_UP])).within (State.ryPortBack_within (.refl [.ry] _) (List.Subset.refl _) _)
    (by decide)

theorem State.getF_ryPortBack (hi : s.Inv) (p : Nat) {f : Field} (hf : f.ok = true) : (s.ryPortBack p).getF f = s.getF f :=
  ((State.ryPortBack_within (.refl [.ry] s) (List.Subset.refl _) p).spares (l := []) (bs := []) (by decide)).getF f hf (by simp)
    (by simp) hi

theorem State.linkUp_bits (hi : s.Inv) (p : Fin 2) : (s.linkUp p).uplPhase p = 5 ∧
    (s.linkUp p).isSet (R.UPL_STAT_LINK_UP p) = true ∧ (s.linkUp p).isSet (R.UPL_EVENT_LINK_UP p) = true ∧
    ((s.linkUp p).uplPort p).mode = s.getF (R.UPL_FC_MODE p) := by
  have ha : ∀ p : Fin 2, (∀ f ∈ R.UPL_FC_MODE p :: linkUpFields p, f.ok = true) ∧
    (R.UPL_STAT_PHASE p).apart (R.UPL_STAT_LINK_UP p) = true ∧
    (∀ f ∈ [R.UPL_STAT_PHASE p, R.UPL_STAT_LINK_UP p], (R.UPL_EVENT_LINK_UP p).apart f = true) ∧
    ∀ g ∈ linkUpFields p, g.apart (R.UPL_FC_MODE p) = true := by decide
  obtain ⟨hok, h1, h2, h3⟩ := ha p
  simp only [linkUpFields, List.forall_mem_cons] at hok h2 h3
  obtain ⟨hm, hb, hl, hp, he, -⟩ := hok
  obtain ⟨h4, h5, -⟩ := h2
  obtain ⟨m1, m2, m3, -⟩ := h3
  unfold State.linkUp
  extract_lets t
  have ht : t.Inv := State.inv_setF (State.inv_setF (State.inv_setF hi _ _) _ _) _ _
  have hr : ((t.setUpl p { t.uplPort p with mode := t.getF (R.UPL_FC_MODE p), paused := [], sent := [] }).raise
      (R.UPL_EVENT_LINK_UP p)).Inv :=
    State.Spares.inv (l := [R.UPL_EVENT_LINK_UP p]) (bs := []) ((State.Spares.within (.refl _ _ t) (State.setUpl_within
      (.refl [.upl0, .upl1] _) (List.Subset.refl _) _ _) (by decide)).raise (List.mem_singleton_self _) (Field.ok_fits he)) ht
  refine ⟨?_, ?_, ?_, ?_⟩
  · rw [State.uplPhase, State.getF_ryPortBack hr _ hp, State.getF_raise_ne _ _ _ (Field.ok_fits he) hp h4, State.getF_setUpl,
      State.getF_setF_same _ _ _ hp]
    rfl
  · rw [State.isSet, State.getF_ryPortBack hr _ hl, State.getF_raise_ne _ _ _ (Field.ok_fits he) hl h5, State.getF_setUpl,
      State.getF_setF_ne _ _ _ _ (Field.ok_fits hp) hl h1, State.getF_setF_same _ _ _ hl]
    rfl
  · rw [State.isSet, State.getF_ryPortBack hr _ he, State.getF_raise_same _ _ he rfl]
    rfl
  · rw [(State.ryPortBack_within (.refl [.ry] _) (List.Subset.refl _) p).uplPort (by decide) (by decide),
      State.uplPort_congr (State.raise_upl0 ..) (State.raise_upl1 ..), State.uplPort_setUpl]
    dsimp only [t]
    rw [State.getF_setF_ne _ _ _ _ (Field.ok_fits hp) hm m3, State.getF_setF_ne _ _ _ _ (Field.ok_fits hl) hm m2,
      State.getF_setF_ne _ _ _ _ (Field.ok_fits hb) hm m1]

theorem uplBlockLock_links (hi : s.Inv) (u : Nat) (hp : s.uplPhase p = 4) (hd : s.dev ≠ devUnpowered) :
    Completes (.uplBlockLock p u) s fun t => t.uplPhase p = 5 ∧ t.isSet (R.UPL_STAT_LINK_UP p) = true ∧
      t.isSet (R.UPL_EVENT_LINK_UP p) = true ∧ t.srcLocked p = true ∧ (t.uplPort p).mode = s.getF (R.UPL_FC_MODE p) := by
  have he : execUplBlockLock p u s = .next (((s.heardAt u).linkUp p).sourceLocked p) := by
    have h : ¬ (s.heardAt u).uplPhase p ≠ 4 := by
      rw [State.uplPhase, State.getF_heardAt]
      exact not_not.mpr hp
    exact if_neg h
  have ha : ∀ p : Fin 2, (∀ g ∈ linkUpFields p, g.apart R.START_STATE_DEV_STATE = true) ∧
    ∀ f ∈ [R.UPL_STAT_PHASE p, R.UPL_STAT_LINK_UP p, R.UPL_EVENT_LINK_UP p], f.ok = true ∧ regBlock f.addr ∉ tieBlocks ∧
      ∀ g ∈ lockFields p ++ rootedFields p ++ listenFields (1 - p), g.apart f = true := by decide
  obtain ⟨hdev, hf⟩ := ha p
  simp only [List.forall_mem_cons] at hf
  obtain ⟨⟨hp, bp, ap⟩, ⟨hl, bl, al⟩, ⟨he', be, ae⟩, -⟩ := hf
  have hia := State.heardAt_inv hi u
  have hu := (s.heardAt u).linkUp_spares p
  have hiu := hu.inv hia
  obtain ⟨h1, h2, h3, h4⟩ := State.linkUp_bits hia p
  have hs := State.sourceLocked_spares ((s.heardAt u).linkUp p) p
  have dev : ((s.heardAt u).linkUp p).dev ≠ devUnpowered := by
    rw [State.dev, hu.getF _ (by decide) hdev (by simp) hia]
    exact fun e => hd ((s.heardAt_dev u).symm.trans e)
  refine ⟨_, he, (hs.getF _ hp ap bp hiu).trans h1, (hs.isSet hiu hl al bl).trans h2, (hs.isSet hiu he' ae be).trans h3,
    State.sourceLocked_locked hiu (Nat.lt_of_lt_of_le p.isLt (by decide)) dev, ?_⟩
  rw [(State.sourceLocked_within (.refl _ _) (List.Subset.refl _) _).uplPort (by decide) (by decide), h4, State.getF_heardAt]

/-! ### Training fails, and a link is lost (R103, R104) -/

theorem uplTrainTimeout_restarts (hi : s.Inv) (hp : s.uplPhase p = 3) : Completes (.uplTrainTimeout p) s fun t =>
    t.uplPhase p = 2 ∧
    t.getF (R.UPL_STAT_TRAIN_FAILS p) = min (R.UPL_STAT_TRAIN_FAILS p).max (s.getF (R.UPL_STAT_TRAIN_FAILS p) + 1) ∧
    t.getF (R.UPL_CMD_ERR_STATUS p) = ST.UPL_TRAIN_FAIL p ∧ t.isSet (R.UPL_EVENT_TRAIN_FAIL p) = true := by
  have ha : ∀ p : Fin 2, (∀ f ∈ [R.UPL_STAT_TRAIN_FAILS p, R.UPL_CMD_ERR_STATUS p, R.UPL_EVENT_TRAIN_FAIL p],
      f.ok = true ∧ (R.UPL_STAT_PHASE p).apart f = true) ∧
    (R.UPL_CMD_ERR_STATUS p).apart (R.UPL_STAT_TRAIN_FAILS p) = true ∧
    (∀ f ∈ [R.UPL_STAT_TRAIN_FAILS p, R.UPL_CMD_ERR_STATUS p], (R.UPL_EVENT_TRAIN_FAIL p).apart f = true) ∧
    ST.UPL_TRAIN_FAIL p < 2 ^ 16 := by decide
  obtain ⟨hok, h1, h2, h3⟩ := ha p
  simp only [List.forall_mem_cons] at hok h2
  obtain ⟨⟨hf, af⟩, ⟨hc, ac⟩, ⟨he, ae⟩, -⟩ := hok
  obtain ⟨h4, h5, -⟩ := h2
  have hi' : (((s.bump (R.UPL_STAT_TRAIN_FAILS p)).setF (R.UPL_CMD_ERR_STATUS p) (ST.UPL_TRAIN_FAIL p)).raise
      (R.UPL_EVENT_TRAIN_FAIL p)).Inv :=
    State.Spares.inv (l := [R.UPL_EVENT_TRAIN_FAIL p]) (bs := []) ((State.Spares.refl _ _ _).raise (List.mem_singleton_self _)
      (Field.ok_fits he)) (State.inv_setF (State.inv_setF hi _ _) _ _)
  have hs := State.anStart_spares (((s.bump (R.UPL_STAT_TRAIN_FAILS p)).setF (R.UPL_CMD_ERR_STATUS p) (ST.UPL_TRAIN_FAIL p)).raise
      (R.UPL_EVENT_TRAIN_FAIL p)) p
  refine ⟨_, if_neg (not_not.mpr hp), State.anStart_phase _ p, ?_, ?_, ?_⟩
  · rw [hs.getF _ hf (by simpa using af) (by simp) hi', State.getF_raise_ne _ _ _ (Field.ok_fits he) hf h4,
      State.getF_setF_ne _ _ _ _ (Field.ok_fits hc) hf h1, State.getF_bump _ hf]
  · rw [hs.getF _ hc (by simpa using ac) (by simp) hi', State.getF_raise_ne _ _ _ (Field.ok_fits he) hc h5,
      State.getF_setF_same _ _ _ hc]
    exact Nat.mod_eq_of_lt h3
  · rw [hs.isSet hi' he (by simpa using ae) (by simp)]
    exact State.isSet_raise_same _ he rfl

theorem port_lt_three (p : Fin 2) : (p : Nat) < 3 := Nat.lt_of_lt_of_le p.isLt (by decide)

theorem uplLinkLost_listens (hi : s.Inv) (u : Nat) (hp : s.uplPhase p = 5) : Completes (.uplLinkLost p u) s fun t =>
    t.uplPhase p = 0 ∧ t.isSet (R.UPL_STAT_LINK_UP p) = false ∧ t.srcLocked p = false ∧
    (s.inService = true → s.isSet (R.UPL_STAT_LINK_UP p) = true → t.isSet (R.UPL_EVENT_LINK_DOWN p) = true) := by
  have hia := State.heardAt_inv hi u
  have hp' : (s.heardAt u).uplPhase p = 5 := by rwa [State.uplPhase, State.getF_heardAt]
  have he : execUplLinkLost p u s = .next ((s.heardAt u).sourceLost p) := if_pos hp'
  obtain ⟨h1, h2, h3⟩ := State.sourceLost_listens hia p
  refine ⟨_, he, h1, by rw [State.isSet, h2]; rfl, State.srcLocked_sourceLost hia (port_lt_three p), ?_⟩
  rwa [State.inService, State.heardAt_dev, State.isSet, State.getF_heardAt] at h3

theorem uplRetrain_listens (hi : s.Inv) (hg : s.gatedOrPending (gateUpl p) = false) : Completes (.uplRetrain p) s fun t =>
    t.uplPhase p = 0 ∧ t.isSet (R.UPL_STAT_LINK_UP p) = false ∧ t.srcLocked p = false ∧ t.resp = ST.OK := by
  have he : s.uplRetrain p = (s.sourceLost p).answer ST.OK := if_neg (by simp [hg])
  obtain ⟨h1, h2, -⟩ := State.sourceLost_listens hi p
  refine ⟨_, congrArg Host.Outcome.next he, h1, ?_, ?_, rfl⟩
  · rw [State.isSet_answer, State.isSet, h2]
    rfl
  · exact State.srcLocked_sourceLost hi (port_lt_three p)

/-! ### Refusals in a gated MAC (R73) -/

theorem State.gatedRefuse_spec (s : State) (p : Fin 2) :
    (s.gatedRefuse (gateUpl p) (R.UPL_CMD_ERR_STATUS p)).getF (R.UPL_CMD_ERR_STATUS p) = ST.CLK_GATED ∧
    (s.gatedRefuse (gateUpl p) (R.UPL_CMD_ERR_STATUS p)).getF R.CLK_CMD_ERR_UNIT = gateUpl p ∧
    (s.gatedRefuse (gateUpl p) (R.UPL_CMD_ERR_STATUS p)).resp = ST.CLK_GATED := by
  have ha : ∀ p : Fin 2, (R.UPL_CMD_ERR_STATUS p).ok = true ∧ (R.UPL_CMD_ERR_STATUS p).apart R.CLK_CMD_ERR_UNIT = true ∧
    gateUpl p % 2 ^ 5 = gateUpl p := by decide
  obtain ⟨hok, h1, h2⟩ := ha p
  unfold State.gatedRefuse State.refuse
  rw [State.getF_answer, State.getF_answer]
  refine ⟨?_, ?_, rfl⟩
  · rw [State.getF_setF_same _ _ _ hok]
    rfl
  · rw [State.getF_setF_ne _ _ _ _ (Field.ok_fits hok) (by decide) h1, State.getF_setF_ne _ _ _ _ (by decide) (by decide) (by decide),
      State.getF_setF_same _ _ _ (by decide)]
    exact h2

/-- A refusal in a gated MAC writes the two refusal registers. -/
theorem State.getF_gatedRefuse (s : State) (p : Fin 2) {f : Field} (hf : f.ok = true)
    (ha : ∀ g ∈ [R.CLK_CMD_ERR_UNIT, R.CLK_CMD_ERR_STATUS, R.UPL_CMD_ERR_STATUS p], g.apart f = true) :
    (s.gatedRefuse (gateUpl p) (R.UPL_CMD_ERR_STATUS p)).getF f = s.getF f := by
  have hok : ∀ p : Fin 2, (R.UPL_CMD_ERR_STATUS p).ok = true := by decide
  simp only [List.forall_mem_cons] at ha
  obtain ⟨h1, h2, h3, -⟩ := ha
  unfold State.gatedRefuse State.refuse
  rw [State.getF_answer, State.getF_setF_ne _ _ _ _ (Field.ok_fits (hok p)) hf h3, State.getF_setF_ne _ _ _ _ (by decide) hf h2,
    State.getF_setF_ne _ _ _ _ (by decide) hf h1]

theorem gatedFields_apart (p : Fin 2) : ∀ f ∈ [R.UPL_STAT_PHASE p, R.UPL_CTRL_ADMIN p], f.ok = true ∧
    ∀ g ∈ [R.CLK_CMD_ERR_UNIT, R.CLK_CMD_ERR_STATUS, R.UPL_CMD_ERR_STATUS p], g.apart f = true := by
  revert p
  decide

theorem uplRetrain_gated (hg : s.gatedOrPending (gateUpl p) = true) : Completes (.uplRetrain p) s fun t =>
    t.uplPhase p = s.uplPhase p ∧ t.resp = ST.CLK_GATED := by
  obtain ⟨hok, ha⟩ := gatedFields_apart p (R.UPL_STAT_PHASE p) (by simp)
  exact ⟨_, congrArg Host.Outcome.next (if_pos hg), s.getF_gatedRefuse p hok ha, rfl⟩

/-! ### ADMIN (R105) -/

theorem uplAdminWrite_gated {v : Fin 4} (hv : s.getF (R.UPL_CTRL_ADMIN p) ≠ v) (hg : s.gatedOrPending (gateUpl p) = true) :
    Completes (.uplAdminWrite p v) s fun t => t.getF (R.UPL_CTRL_ADMIN p) = s.getF (R.UPL_CTRL_ADMIN p) ∧
      t.resp = ST.CLK_GATED ∧ t.getF (R.UPL_CMD_ERR_STATUS p) = ST.CLK_GATED ∧ t.getF R.CLK_CMD_ERR_UNIT = gateUpl p := by
  have he : s.adminWrite p v = s.gatedRefuse (gateUpl p) (R.UPL_CMD_ERR_STATUS p) := by
    rw [State.adminWrite, if_neg hv, if_pos hg]
  obtain ⟨hok, ha⟩ := gatedFields_apart p (R.UPL_CTRL_ADMIN p) (by simp)
  obtain ⟨h1, h2, h3⟩ := s.gatedRefuse_spec p
  exact ⟨_, congrArg Host.Outcome.next he, s.getF_gatedRefuse p hok ha, h3, h1, h2⟩

/-- The source that the root moves to when port `p` leaves service. -/
def State.otherSource (s : State) (p : Nat) : Option Nat := (s.srcOrder ++ [0, 1, 2]).find? (fun n => n != p && s.srcQual n)

/-- ADMIN set, and the lease paths checked anew. -/
def State.adminSet (s : State) (p v : Nat) : State := (s.setF (R.UPL_CTRL_ADMIN p) v).leasePathCheck.answer ST.OK

/-- What a write of ADMIN that changes it does where nothing refuses it. -/
def State.adminTaken (s : State) (p v : Nat) : State :=
  if v = 2 ∧ s.getF R.CLK_STATE_ROOT_SRC = p ∧ s.srcLocked p = true then
    match s.otherSource p with
    | none => s.refuse (R.UPL_CMD_ERR_STATUS p) (ST.UPL_ADMIN_ROOT p)
    | some n => ((s.switchTo n).raise R.CLK_EVENT_SRC_SWITCH).adminSet p v
  else s.adminSet p v

theorem State.adminWrite_eq {v : Nat} (hv : s.getF (R.UPL_CTRL_ADMIN p) ≠ v) (hg : s.gatedOrPending (gateUpl p) = false)
    (h3 : v < 3) : s.adminWrite p v = s.adminTaken p v := by
  rw [State.adminWrite, if_neg hv, if_neg (by simp [hg]), if_neg (by omega)]
  simp only [Bool.and_eq_true, decide_eq_true_eq]
  rfl

theorem State.otherSource_some {n : Nat} (h : s.otherSource p = some n) : n ≠ p ∧ n < 3 := by
  have h' := List.find?_some h
  simp only [Bool.and_eq_true, bne_iff_ne, State.srcQual, decide_eq_true_eq] at h'
  exact ⟨h'.1, h'.2.1⟩

theorem State.otherSource_isSome (h : (s.srcQual (1 - p) || s.srcQual 2) = true) : ∃ n, s.otherSource p = some n := by
  refine Option.isSome_iff_exists.mp (List.find?_isSome.mpr ?_)
  have hp : (p : Nat) < 2 := p.isLt
  rcases Bool.or_eq_true_iff.mp h with h | h
  · refine ⟨1 - p, ?_, ?_⟩
    · simp only [List.mem_append, List.mem_cons, List.not_mem_nil, or_false]
      omega
    · rw [h, Bool.and_true, bne_iff_ne]
      omega
  · refine ⟨2, by simp, ?_⟩
    rw [h, Bool.and_true, bne_iff_ne]
    omega

theorem State.otherSource_none (h : ∀ n ∈ List.range 3, n ≠ p → s.srcQual n = false) : s.otherSource p = none := by
  refine List.find?_eq_none.mpr fun n _ hc => ?_
  simp only [Bool.and_eq_true, bne_iff_ne] at hc
  obtain ⟨hne, hq⟩ := hc
  have hn : n < 3 := by
    by_contra hn
    simp [State.srcQual, hn] at hq
  exact Bool.false_ne_true ((h n (List.mem_range.mpr hn) hne).symm.trans hq)

theorem uplAdmin_ok (p : Fin 2) : (R.UPL_CTRL_ADMIN p).ok = true ∧
    ∀ f ∈ [R.CLK_STATE_ROOT_SRC, R.CLK_EVENT_SRC_SWITCH], (R.UPL_CTRL_ADMIN p).apart f = true := by
  revert p
  decide

theorem State.adminSet_spec (hi : s.Inv) (p : Fin 2) {v : Nat} (hv : v < 4) : (s.adminSet p v).getF (R.UPL_CTRL_ADMIN p) = v ∧
    (s.adminSet p v).resp = ST.OK ∧
    ∀ f ∈ [R.CLK_STATE_ROOT_SRC, R.CLK_EVENT_SRC_SWITCH], (s.adminSet p v).getF f = s.getF f := by
  obtain ⟨hok, ha⟩ := uplAdmin_ok p
  have hs := (State.leasePathCheck_within (.refl _ (s.setF (R.UPL_CTRL_ADMIN p) v)) (List.Subset.refl _)).spares (l := [])
    (bs := [6, 7, 11, 12, 14, 15, 16, 20, 21]) (by decide)
  have hiv := State.inv_setF hi (R.UPL_CTRL_ADMIN p) v
  refine ⟨?_, rfl, fun f hf => ?_⟩
  · rw [State.adminSet, State.getF_answer, hs.getF _ hok (by simp) (by simp) hiv, State.getF_setF_same _ _ _ hok]
    exact Nat.mod_eq_of_lt hv
  · have hf' : ∀ f ∈ [R.CLK_STATE_ROOT_SRC, R.CLK_EVENT_SRC_SWITCH], f.ok = true ∧
      regBlock f.addr ∉ [6, 7, 11, 12, 14, 15, 16, 20, 21] := by decide
    obtain ⟨hfo, hfb⟩ := hf' f hf
    rw [State.adminSet, State.getF_answer, hs.getF _ hfo (by simp) hfb hiv,
      State.getF_setF_ne _ _ _ _ (Field.ok_fits hok) hfo (ha f hf)]

theorem State.switchTo_root (s : State) {n : Nat} (hn : n < 4) : (s.switchTo n).getF R.CLK_STATE_ROOT_SRC = n := by
  unfold State.switchTo
  rw [State.getF_setClkMode_root, State.getF_setF_same _ _ _ (by decide)]
  exact Nat.mod_eq_of_lt hn

theorem uplAdminWrite_takes (hi : s.Inv) {v : Fin 4} (h3 : (v : Nat) < 3) (hv : s.getF (R.UPL_CTRL_ADMIN p) ≠ v)
    (hg : s.gatedOrPending (gateUpl p) = false)
    (hq : (v : Nat) = 2 → s.getF R.CLK_STATE_ROOT_SRC = p → s.srcLocked p = true → (s.srcQual (1 - p) || s.srcQual 2) = true) :
    Completes (.uplAdminWrite p v) s fun t => t.getF (R.UPL_CTRL_ADMIN p) = v ∧ t.resp = ST.OK ∧
      ((v : Nat) = 2 → s.getF R.CLK_STATE_ROOT_SRC = p → s.srcLocked p = true →
        t.getF R.CLK_STATE_ROOT_SRC ≠ p ∧ t.getF R.CLK_EVENT_SRC_SWITCH = 1) := by
  refine ⟨_, congrArg Host.Outcome.next (State.adminWrite_eq hv hg h3), ?_⟩
  unfold State.adminTaken
  split
  · next hc =>
    obtain ⟨n, hn⟩ := State.otherSource_isSome (hq hc.1 hc.2.1 hc.2.2)
    obtain ⟨hne, hlt⟩ := State.otherSource_some hn
    have hir : ((s.switchTo n).raise R.CLK_EVENT_SRC_SWITCH).Inv :=
      ((s.switchTo_spares n).raise (g := R.CLK_EVENT_SRC_SWITCH) (by decide) (by decide)).inv hi
    obtain ⟨h1, h2, hf⟩ := State.adminSet_spec hir p v.isLt
    rw [hn]
    refine ⟨h1, h2, fun _ _ _ => ⟨?_, ?_⟩⟩
    · rw [hf _ (by simp), State.getF_raise_ne _ _ _ (by decide) (by decide) (by decide), State.switchTo_root s (by omega)]
      exact hne
    · rw [hf _ (by simp)]
      exact State.getF_raise_same _ _ (by decide) rfl
  · next hc =>
    obtain ⟨h1, h2, -⟩ := State.adminSet_spec hi p v.isLt
    exact ⟨h1, h2, fun a b c => absurd ⟨a, b, c⟩ hc⟩

theorem uplAdminWrite_refuses {v : Fin 4} (h2 : (v : Nat) = 2) (hv : s.getF (R.UPL_CTRL_ADMIN p) ≠ 2)
    (hg : s.gatedOrPending (gateUpl p) = false) (hr : s.getF R.CLK_STATE_ROOT_SRC = p) (hl : s.srcLocked p = true)
    (hq : ∀ n ∈ List.range 3, n ≠ p → s.srcQual n = false) :
    Completes (.uplAdminWrite p v) s fun t => t.getF (R.UPL_CTRL_ADMIN p) = s.getF (R.UPL_CTRL_ADMIN p) ∧
      t.resp = ST.UPL_ADMIN_ROOT p ∧ t.getF (R.UPL_CMD_ERR_STATUS p) = ST.UPL_ADMIN_ROOT p := by
  have he : s.adminWrite p v = s.refuse (R.UPL_CMD_ERR_STATUS p) (ST.UPL_ADMIN_ROOT p) := by
    rw [State.adminWrite_eq (by rwa [h2]) hg (by omega), State.adminTaken, if_pos ⟨h2, hr, hl⟩, State.otherSource_none hq]
  have ha : ∀ p : Fin 2, (R.UPL_CMD_ERR_STATUS p).ok = true ∧ (R.UPL_CMD_ERR_STATUS p).apart (R.UPL_CTRL_ADMIN p) = true ∧
    ST.UPL_ADMIN_ROOT p < 2 ^ 16 := by decide
  obtain ⟨hok, h1, hlt⟩ := ha p
  refine ⟨_, congrArg Host.Outcome.next he, ?_, rfl, ?_⟩
  · exact State.getF_setF_ne _ _ _ _ (Field.ok_fits hok) (uplAdmin_ok p).1 h1
  · refine (State.getF_setF_same _ _ _ hok).trans ?_
    exact Nat.mod_eq_of_lt hlt
end
end Sys2Proof.Machine

section
open Sys2Proof Sys2Proof.Machine

/-- Settles O7: each step of the training by the fields it writes; a lost source by the port's own fall back to listening, which
neither the root's decision nor a return to AWAIT_TRAINING undoes. -/
theorem upstreamTraining : Obligations.UpstreamTraining := by
  unfold Obligations.UpstreamTraining
  intro s hi
  refine ⟨?_, ?_, ?_, ?_, ?_, ?_, ?_, ?_, ?_, ?_, ?_, ?_, ?_⟩
  · exact fun p m hd hp hg ha => uplSignalDetect_selects hd hp hg ha
  · exact fun p hp => uplAcquisitionDone_leads hi hp
  · exact fun p hp ht => uplNextPageRx_answers hp ht
  · exact fun p v hp ht => uplAnComplete_resolves hp ht
  · exact fun p hp ht => uplTrainingDone_leads hp ht
  · exact fun p u hp hd => uplBlockLock_links hi u hp hd
  · exact fun p hp => uplTrainTimeout_restarts hi hp
  · exact fun p u hp => uplLinkLost_listens hi u hp
  · exact fun p v h3 hv hg hq => uplAdminWrite_takes hi h3 hv hg hq
  · exact fun p v h2 hv hg hr hl hq => uplAdminWrite_refuses h2 hv hg hr hl hq
  · exact fun p v hv hg => uplAdminWrite_gated hv hg
  · exact fun p hg => uplRetrain_listens hi hg
  · exact fun p hg => uplRetrain_gated hg

end

namespace Sys2Proof.Machine
open Sys2Proof

/-! ### The tie link starts again (R109, R112) -/

/-- The blocks outside the tie link's own that its fall can write. -/
def tieOuter : List Nat := [6, 7, 11, 12, 14, 15, 16, 20, 21, 22]

section
variable {s : State}

theorem State.tieSend_spares (s : State) (o : List Nat) : s.Spares [] [] (s.tieSend o) :=
  (State.tieSend_within (.refl [.out] s) (List.Subset.refl _) o).spares (by decide)

/-- The start of a phase in the tie link's register and in its training. -/
def State.tieStarted (s : State) (ph : Nat) : State := { s.setF R.TIE_STAT_PHASE ph with tie := { since := s.mtb } }

/-- What the fall of a link that was up adds. -/
def State.tieFallen (s : State) (ph : Nat) : State :=
  if s.getF R.TIE_STAT_PHASE = 4 then (((s.tieStarted ph).raise R.TIE_EVENT_DOWN).cutPackets 0x61).tieDown else s.tieStarted ph

theorem State.tieListen_eq (s : State) (ph : Nat) :
    s.tieListen ph = if ph = 1 then (s.tieFallen ph).tieSend tieAcq else s.tieFallen ph := by
  unfold State.tieListen State.tieFallen
  rfl

theorem State.tieStarted_spares (s : State) (ph : Nat) : s.Spares [R.TIE_STAT_PHASE] [] (s.tieStarted ph) := by
  have h := (State.Spares.refl [R.TIE_STAT_PHASE] [] s).setF (List.mem_singleton_self _) (by decide) ph
  exact ⟨h.inv, h.getF⟩

theorem State.tieFallen_spares (s : State) (ph : Nat) :
    (s.tieStarted ph).Spares [R.TIE_EVENT_DOWN] tieOuter (s.tieFallen ph) := by
  refine .ite (fun _ => State.Spares.within (T := [.block 11, .block 12, .block 14, .block 15, .block 16, .block 20, .block 21,
    .block 22, .block 6, .block 7, .cmp, .freeIx, .ky, .mac, .mem, .ms, .mtb, .notes, .out, .pa, .pl, .queues, .rd, .resp, .ro, .ry,
    .sl, .tm, .up]) ((State.Spares.refl _ _ _).raise (List.mem_singleton_self _) (by decide)) ?_ (by decide)) fun _ => .refl _ _ _
  exact State.tieDown_within (State.cutPackets_within (.refl _ _) (by decide) _) (by decide)

theorem State.tieListen_tail (s : State) (ph : Nat) : (s.tieFallen ph).Spares [] [] (s.tieListen ph) := by
  rw [State.tieListen_eq]
  exact .ite (fun _ => State.tieSend_spares _ _) fun _ => .refl _ _ _

theorem State.tieListen_spares (s : State) (ph : Nat) :
    s.Spares [R.TIE_STAT_PHASE, R.TIE_EVENT_DOWN] tieOuter (s.tieListen ph) :=
  (((s.tieStarted_spares ph).mono (by simp) (by simp)).trans ((s.tieFallen_spares ph).mono (by simp) (List.Subset.refl _))).trans
    ((s.tieListen_tail ph).mono (by simp) (by simp))

theorem State.tieListen_phase (hi : s.Inv) {ph : Nat} (h : ph < 8) : (s.tieListen ph).getF R.TIE_STAT_PHASE = ph := by
  have hs := (s.tieStarted_spares ph).inv hi
  rw [(s.tieListen_tail ph).getF _ (by decide) (by simp) (by simp) ((s.tieFallen_spares ph).inv hs),
    (s.tieFallen_spares ph).getF _ (by decide) (by decide) (by decide) hs]
  refine (State.getF_setF_same s R.TIE_STAT_PHASE ph (by decide)).trans ?_
  exact Nat.mod_eq_of_lt h

/-- The loss of a link that was up is reported. -/
theorem State.tieListen_down (hi : s.Inv) (ph : Nat) (h : s.getF R.TIE_STAT_PHASE = 4) :
    (s.tieListen ph).isSet R.TIE_EVENT_DOWN = true := by
  have hs := (s.tieStarted_spares ph).inv hi
  have hr : ((s.tieStarted ph).raise R.TIE_EVENT_DOWN).Spares [] tieOuter (s.tieFallen ph) := by
    rw [State.tieFallen, if_pos h]
    refine State.Within.spares (T := [.block 11, .block 12, .block 14, .block 15, .block 16, .block 20, .block 21,
      .block 22, .block 6, .block 7, .cmp, .freeIx, .ky, .mac, .mem, .ms, .mtb, .notes, .out, .pa, .pl, .queues, .rd, .resp, .ro, .ry,
      .sl, .tm, .up]) ?_ (by decide)
    exact State.tieDown_within (State.cutPackets_within (.refl _ _) (by decide) _) (by decide)
  have hir : ((s.tieStarted ph).raise R.TIE_EVENT_DOWN).Inv :=
    ((State.Spares.refl [R.TIE_EVENT_DOWN] [] _).raise (List.mem_singleton_self _) (by decide)).inv hs
  rw [(s.tieListen_tail ph).isSet (hr.inv hir) (by decide) (by simp) (by simp), hr.isSet hir (by decide) (by simp) (by decide)]
  exact State.isSet_raise_same _ (by decide) rfl

/-- A link that was not up starts again with its training and the time alone. -/
theorem State.tieListen_low (h : s.getF R.TIE_STAT_PHASE ≠ 4) (ph : Nat) :
    (s.tieListen ph).tie = { since := s.mtb } ∧ (s.tieListen ph).mtb = s.mtb := by
  have hw : State.Within [.out] (s.tieStarted ph) (s.tieListen ph) := by
    rw [State.tieListen_eq, State.tieFallen, if_neg h]
    exact within_ite (fun _ => State.tieSend_within (.refl _ _) (List.Subset.refl _) _) fun _ => .refl _ _
  exact ⟨hw.same .tie (by decide), hw.mtb_eq (by decide)⟩

/-- The phase in which the tie link starts. -/
def State.tieFirst (s : State) : Nat := if s.tieSends then 1 else 0

theorem State.tieFirst_lt (s : State) : s.tieFirst < 8 := by
  unfold State.tieFirst
  split <;> decide

theorem State.tieAgain_eq (s : State) : s.tieAgain = s.tieListen s.tieFirst := rfl

theorem State.tieAgain_phase (hi : s.Inv) : s.tieAgain.getF R.TIE_STAT_PHASE = s.tieFirst := State.tieListen_phase hi s.tieFirst_lt

/-! ### The tie link's source locks (R111) -/

theorem State.sourceLocked_tie_within (s : State) : State.Within [.block 1, .block 2, .block 3, .clk] s (s.sourceLocked 2) := by
  by_cases hl : s.srcLocked 2 = true ∨ s.dev = devUnpowered
  · have e : s.sourceLocked 2 = s := by
      unfold State.sourceLocked
      rw [if_pos (by simpa using hl)]
    rw [e]
    exact .refl _ s
  · simp only [not_or, Bool.not_eq_true] at hl
    have hn : State.Within [.block 1, .block 2, .block 3, .clk] s (s.lockNoted 2) := by
      unfold State.lockNoted State.lockAdded
      rw [if_pos rfl]
      refine State.setB_within ?_ _ (Or.inr (by simp)) _
      have h := State.setF_within (State.setF_within (.refl [.block 1, .block 2, .block 3, .clk] s) (srcF R.CLK_SRC_UPL0_LOCK 2)
        (Or.inr (by simp)) 1) R.START_STATE_SRC_LOCK (Or.inr (by simp))
        (putBit ((s.setF (srcF R.CLK_SRC_UPL0_LOCK 2) 1).getF R.START_STATE_SRC_LOCK) 2 true)
      apply within_upd h <;> first | exact Or.inl rfl | exact Or.inr (by decide)
    rw [State.sourceLocked_eq hl.1 hl.2]
    refine within_ite (fun _ => ?_) fun _ => within_ite (fun _ => State.openWindow_within hn (by decide) 2) fun _ => hn
    unfold State.retrainOthers
    rw [if_neg (by simp)]
    refine State.each_within ?_ _ _ fun u q hu => State.portListen_within hu (by decide) q
    unfold State.rooted State.writeCause
    refine State.setF_within (State.setF_within (State.setF_within (within_ite (fun _ => ?_) fun _ => hn) _ ?_ _) _ ?_ _) _ ?_ _
    · exact State.bump_within (State.setF_within hn _ (Or.inr (by simp)) 3) _ (Or.inr (by simp))
    all_goals exact Or.inr (by simp)

end
end Sys2Proof.Machine

namespace Sys2Proof.Machine
open Sys2Proof

/-! ### Training of the tie link (R110, R111) -/

section
variable {s : State}

theorem State.heardAt_mtb (s : State) (u : Nat) : (s.heardAt u).mtb = if s.rootRuns then max s.mtb u else s.mtb := by
  rw [State.heardAt_eq]

theorem State.heardAt_tie (s : State) (u : Nat) : (s.heardAt u).tie = s.tie := by
  rw [State.heardAt_eq]

theorem State.heardAt_rootRuns (s : State) (u : Nat) : (s.heardAt u).rootRuns = s.rootRuns := by
  simp only [State.rootRuns, State.heardAt_dev]

/-- Block lock in clock acquisition: noted, with the start of phase 1 as the first of its time. -/
theorem State.tieLocked_low (hi : s.Inv) (h : s.getF R.TIE_STAT_PHASE ≤ 1) : s.tieLocked.Inv ∧
    s.tieLocked.mtb = s.mtb ∧ s.tieLocked.dev = s.dev ∧ s.tieLocked.isSet R.TIE_STAT_BLOCK_LOCK = true := by
  have hl : (s.setF R.TIE_STAT_BLOCK_LOCK 1).isSet R.TIE_STAT_BLOCK_LOCK = true := State.isSet_setF_one s (by decide) rfl
  have hd : (s.setF R.TIE_STAT_BLOCK_LOCK 1).dev = s.dev := State.getF_setF_ne _ _ _ _ (by decide) (by decide) (by decide)
  have hil := State.inv_setF hi R.TIE_STAT_BLOCK_LOCK 1
  unfold State.tieLocked
  split
  · have hs := (s.setF R.TIE_STAT_BLOCK_LOCK 1).tieListen_spares 1
    have hp : (s.setF R.TIE_STAT_BLOCK_LOCK 1).getF R.TIE_STAT_PHASE ≠ 4 := by
      rw [State.getF_setF_ne _ _ _ _ (by decide) (by decide) (by decide)]
      omega
    refine ⟨hs.inv hil, ?_, (hs.getF _ (by decide) (by decide) (by decide) hil).trans hd,
      (hs.isSet hil (by decide) (by decide) (by decide)).trans hl⟩
    rw [(State.tieListen_low hp 1).2, State.setF_mtb]
  · exact ⟨hil, State.setF_mtb .., hd, hl⟩

theorem tieAcquisitionDone_leads (hi : s.Inv) (u : Nat) (hd : s.dev ≠ devUnpowered) (hp : s.getF R.TIE_STAT_PHASE ≤ 1)
    (he : s.isSet R.TIE_CFG_ENABLE = true) : Completes (.tieAcquisitionDone u) s fun t =>
      t.getF R.TIE_STAT_PHASE = 2 ∧ t.isSet R.TIE_STAT_BLOCK_LOCK = true ∧ t.srcLocked 2 = true ∧
      (t.tie.since = (if s.rootRuns then max s.mtb u else s.mtb)) := by
  have hia := State.heardAt_inv hi u
  have hc : ¬ (decide ((s.heardAt u).dev = devUnpowered) || decide (1 < (s.heardAt u).getF R.TIE_STAT_PHASE) ||
      !(s.heardAt u).isSet R.TIE_CFG_ENABLE) = true := by
    rw [State.heardAt_dev, State.isSet, State.getF_heardAt, State.getF_heardAt]
    have he' : s.getF R.TIE_CFG_ENABLE = 1 := by simpa [State.isSet] using he
    simp [hd, hp, he']
  have hx : execTieAcquisitionDone u s = .next (((s.heardAt u).tieLocked.tiePhase 2).sourceLocked 2) := if_neg hc
  obtain ⟨hil, hm, hdv, hb⟩ := State.tieLocked_low hia (by rwa [State.getF_heardAt])
  have hw := State.sourceLocked_tie_within ((s.heardAt u).tieLocked.tiePhase 2)
  have hs := hw.spares (l := []) (bs := [1, 2, 3]) (by decide)
  have ht := (State.tiePhase_within (.refl [.block 5, .tie] (s.heardAt u).tieLocked) (List.Subset.refl _) 2)
  have hit := ht.inv hil
  have dev : ((s.heardAt u).tieLocked.tiePhase 2).dev ≠ devUnpowered := by
    rw [State.dev, (ht.spares (l := []) (bs := [5]) (by decide)).getF _ (by decide) (by simp) (by decide) hil]
    exact fun e => hd ((hdv.trans (s.heardAt_dev u)).symm.trans e)
  refine ⟨_, hx, ?_, ?_, State.sourceLocked_locked hit (by decide) dev, ?_⟩
  · rw [hs.getF _ (by decide) (by simp) (by decide) hit]
    exact State.getF_setF_same _ _ _ (by decide)
  · rw [hs.isSet hit (by decide) (by simp) (by decide), ← hb]
    exact congrArg (decide <| · = 1) (State.getF_setF_ne (s.heardAt u).tieLocked R.TIE_STAT_PHASE R.TIE_STAT_BLOCK_LOCK 2 (by decide)
      (by decide) (by decide))
  · rw [hw.same .tie (by decide), ← State.heardAt_mtb, ← hm]
    rfl

theorem tieTrainBlockRx_answers {a b c d e f : Fin 3} {x y z w v : Bool} (hp : s.getF R.TIE_STAT_PHASE = 2)
    (hl : s.tie.coef.length = 3) : Completes (.tieTrainBlockRx a b c x y z w d e f v) s fun t =>
      t.tie.coef = [(coefStep a x (s.tie.coef.getD 0 0)).1, (coefStep b y (s.tie.coef.getD 1 0)).1,
        (coefStep c z (s.tie.coef.getD 2 0)).1] ∧
      t.tie.report = [(coefStep a x (s.tie.coef.getD 0 0)).2, (coefStep b y (s.tie.coef.getD 1 0)).2,
        (coefStep c z (s.tie.coef.getD 2 0)).2] ∧
      t.tie.peerReady = readyCount s.tie.peerReady w ∧
      (t.tie.ready = (if s.tieSends then readyCount s.tie.ready v else s.tie.ready)) ∧
      (t.out = (if s.tieSends then .tieBlock (tieTrain [d, e, f] v t.tie.report) :: s.out else s.out)) ∧ t.regs = s.regs := by
  obtain ⟨c0, c1, c2, hc⟩ := List.length_eq_three.mp hl
  refine ⟨_, if_neg (not_not.mpr hp), ?_⟩
  have send (l : TieLink) (o : List Nat) : (({ s with tie := l } : State).tieSend o) =
      if s.tieSends then ({ s with tie := l } : State).emit (.tieBlock o) else { s with tie := l } := rfl
  rw [hc, send]
  split
  · exact ⟨rfl, rfl, rfl, rfl, rfl, rfl⟩
  · exact ⟨rfl, rfl, rfl, rfl, rfl, rfl⟩

theorem State.tieSend_eq (s : State) (o : List Nat) :
    s.tieSend o = { s with out := if s.tieSends then .tieBlock o :: s.out else s.out } := by
  unfold State.tieSend
  split <;> rfl

/-- A phase's start leaves what a ROLE block carries and whether the transmitter is on. -/
theorem State.tiePhase_role (s : State) (k : Nat) :
    (s.tiePhase k).ownRole = s.ownRole ∧ (s.tiePhase k).tieSends = s.tieSends := by
  have keep {f : Field} (hf : f.ok = true) (ha : R.TIE_STAT_PHASE.apart f = true) : (s.tiePhase k).getF f = s.getF f :=
    State.getF_setF_ne s _ _ _ (by decide) hf ha
  have dev : (s.tiePhase k).dev = s.dev := keep (by decide) (by decide)
  have runs : (s.tiePhase k).rootRuns = s.rootRuns := by rw [State.rootRuns, dev, State.rootRuns]
  constructor
  · simp only [State.ownRole, State.rootStatus, State.pairRole, State.isSet, runs, keep (f := R.PAIR_STATE_PREF) (by decide) (by decide),
      keep (f := R.CLK_STATE_ROOT_SRC) (by decide) (by decide), keep (f := R.PAIR_STATE_ROLE) (by decide) (by decide)]
    rfl
  · simp only [State.tieSends, State.isSet, runs, keep (f := R.TIE_CFG_ENABLE) (by decide) (by decide)]

theorem State.heardAt_role (s : State) (u : Nat) :
    (s.heardAt u).ownRole = s.ownRole ∧ (s.heardAt u).tieSends = s.tieSends ∧ (s.heardAt u).out = s.out := by
  rw [State.heardAt_eq]
  exact ⟨rfl, rfl, rfl⟩

theorem tieEqualiserDone_leads (u : Nat) (hp : s.getF R.TIE_STAT_PHASE = 2) (hr : 16 ≤ s.tie.ready)
    (hq : 16 ≤ s.tie.peerReady) : Completes (.tieEqualiserDone u) s fun t =>
      t.getF R.TIE_STAT_PHASE = 3 ∧ (t.tie.since = (if s.rootRuns then max s.mtb u else s.mtb)) ∧
      (t.out = (if s.tieSends then .tieBlock (tieRole s.ownRole) :: s.out else s.out)) := by
  have hc : (decide ((s.heardAt u).getF R.TIE_STAT_PHASE = 2) && decide (16 ≤ (s.heardAt u).tie.ready) &&
      decide (16 ≤ (s.heardAt u).tie.peerReady)) = true := by
    rw [State.getF_heardAt, State.heardAt_tie]
    simp [hp, hr, hq]
  have he : execTieEqualiserDone u s =
      .next (((s.heardAt u).tiePhase 3).tieSend (tieRole ((s.heardAt u).tiePhase 3).ownRole)) := if_pos hc
  obtain ⟨hro, hse, hou⟩ := s.heardAt_role u
  obtain ⟨hro', hse'⟩ := (s.heardAt u).tiePhase_role 3
  have ho : ((s.heardAt u).tiePhase 3).out = s.out := hou
  refine ⟨_, he, ?_⟩
  rw [State.tieSend_eq, hro', hro, hse', hse, ho]
  exact ⟨State.getF_setF_same (s.heardAt u) R.TIE_STAT_PHASE 3 (by decide), s.heardAt_mtb u, rfl⟩

theorem tieRoleBlockRx_answers {b : RoleBlk} (hp : s.getF R.TIE_STAT_PHASE = 3) : Completes (.tieRoleBlockRx b) s fun t =>
    t.tie.blk = some b ∧ (t.tie.same = (if s.tie.blk = some b then s.tie.same + 1 else 1)) ∧
    t.tie.ack = (s.tie.ack || decide (3 ≤ t.tie.same)) ∧
    (t.out = (if s.tieSends then .tieBlock (tieRole { s.ownRole with ack := t.tie.ack }) :: s.out else s.out)) ∧
    t.regs = s.regs := by
  refine ⟨_, if_neg (not_not.mpr hp), ?_⟩
  rw [State.tieSend_eq]
  exact ⟨rfl, rfl, rfl, rfl, rfl⟩

/-! ### The end of the training, and its failure (R111 to R113) -/

/-- What a change of a source's block writes before the root decides. -/
def blockFields (n : Nat) : List Field := srcF R.CLK_SRC_UPL0_BLOCKED n :: unqualFields n

/-- The block of a source set or cleared, and the source unqualified or judged anew. -/
def State.blockNoted (s : State) (n : Nat) (b : Bool) : State :=
  let s := s.setB (srcF R.CLK_SRC_UPL0_BLOCKED n) b
  if b then s.unqualify n else s.qualify n

theorem State.setBlocked_eq (s : State) (n : Nat) (b : Bool) : s.setBlocked n b = (s.blockNoted n b).clockDecide := rfl

theorem State.blockNoted_spares (s : State) (n : Nat) (b : Bool) : s.Spares (blockFields n) [] (s.blockNoted n b) := by
  have h := (State.Spares.refl (blockFields n) [] s).setB (g := srcF R.CLK_SRC_UPL0_BLOCKED n) List.mem_cons_self
    (by simp [srcF, Field.off, R.CLK_SRC_UPL0_BLOCKED]) b
  exact .ite (fun _ => h.trans ((State.unqualify_spares _ n).mono (List.subset_cons_self _ _) (List.Subset.refl _)))
    fun _ => h.trans ((State.qualify_spares _ n).mono (by simp [blockFields, unqualFields]) (List.Subset.refl _))

theorem blockFields_apart_kept {n : Nat} (hn : n < 3) : ∀ f ∈ keptFields, ∀ g ∈ blockFields n, g.apart f = true := by
  have h : ∀ n : Fin 3, ∀ f ∈ keptFields, ∀ g ∈ blockFields n, g.apart f = true := by decide
  exact h ⟨n, hn⟩

theorem State.setBlocked_spares {n : Nat} (hi : s.Inv) (hn : n < 3) (hk : s.rootKept = true) (b : Bool) :
    s.Spares (blockFields n ++ rootFields) [] (s.setBlocked n b) := by
  have h := s.blockNoted_spares n b
  have hd := State.clockDecide_spares ((h.rootKept hi (blockFields_apart_kept hn) (by simp)).trans hk)
  exact (h.mono (by simp) (by simp)).trans (hd.mono (by simp) (by simp))

/-- The peer's last ROLE block in the registers, and the link up. -/
def State.peerShown (s : State) (b : RoleBlk) : State :=
  let s := ((s.tiePhase 4).setF R.TIE_PEER_DIGEST b.digest).setF R.TIE_PEER_STATE_ROLE b.role
  let s := ((s.setB R.TIE_PEER_STATE_PAIR_ON b.pairOn).setB R.TIE_PEER_STATE_PREF b.pref).setF R.TIE_PEER_STATE_ROOT b.root
  s.raise R.TIE_EVENT_UP

def peerFields : List Field :=
  [R.TIE_STAT_PHASE, R.TIE_PEER_DIGEST, R.TIE_PEER_STATE_ROLE, R.TIE_PEER_STATE_PAIR_ON, R.TIE_PEER_STATE_PREF,
    R.TIE_PEER_STATE_ROOT, R.TIE_EVENT_UP]

theorem State.peerShown_spares (s : State) (b : RoleBlk) : s.Spares peerFields [] (s.peerShown b) := by
  have h := (State.Spares.refl peerFields [] s).setF (g := R.TIE_STAT_PHASE) (by decide) (by decide) 4
  have ht : s.Spares peerFields [] (s.tiePhase 4) := ⟨h.inv, h.getF⟩
  unfold State.peerShown
  refine State.Spares.raise (State.Spares.setF (State.Spares.setB (State.Spares.setB (State.Spares.setF (State.Spares.setF ht
    ?_ ?_ _) ?_ ?_ _) ?_ ?_ _) ?_ ?_ _) ?_ ?_ _) ?_ ?_ <;> decide

theorem State.peerShown_spec (s : State) (b : RoleBlk) : (s.peerShown b).getF R.TIE_STAT_PHASE = 4 ∧
    (s.peerShown b).isSet R.TIE_EVENT_UP = true ∧ (s.peerShown b).getF R.TIE_PEER_DIGEST = b.digest % 2 ^ 32 ∧
    (s.peerShown b).getF R.TIE_PEER_STATE_ROLE = b.role % 2 ^ R.TIE_PEER_STATE_ROLE.width ∧
    (s.peerShown b).isSet R.TIE_PEER_STATE_PAIR_ON = b.pairOn := by
  unfold State.peerShown
  dsimp only
  refine ⟨?_, State.isSet_raise_same _ (by decide) rfl, ?_, ?_, ?_⟩
  · simp (disch := decide) only [State.setB_eq, State.getF_raise_ne, State.getF_setF_ne]
    exact State.getF_setF_same s R.TIE_STAT_PHASE 4 (by decide)
  · simp (disch := decide) only [State.setB_eq, State.getF_raise_ne, State.getF_setF_ne, State.getF_setF_same]
    rfl
  · simp (disch := decide) only [State.setB_eq, State.getF_raise_ne, State.getF_setF_ne, State.getF_setF_same]
  · rw [State.isSet, State.getF_raise_ne _ _ _ (by decide) (by decide) (by decide),
      State.getF_setF_ne _ _ _ _ (by decide) (by decide) (by decide)]
    change State.isSet _ _ = _
    rw [State.isSet_setB_ne _ _ (by decide) (by decide) (by decide)]
    exact State.isSet_setB_same _ _ (by decide) rfl

theorem tieRoleExchangeDone_ends (hi : s.Inv) (u : Nat) {b : RoleBlk} (hk : s.rootKept = true)
    (hp : s.getF R.TIE_STAT_PHASE = 3) (ha : s.tie.ack = true) (hb : b.ack = true) (hblk : s.tie.blk = some b) :
    Completes (.tieRoleExchangeDone u) s fun t => t.getF R.TIE_STAT_PHASE = 4 ∧ t.isSet R.TIE_EVENT_UP = true ∧
      t.getF R.TIE_PEER_DIGEST = b.digest % 2 ^ 32 ∧
      t.getF R.TIE_PEER_STATE_ROLE = b.role % 2 ^ R.TIE_PEER_STATE_ROLE.width ∧ t.isSet R.TIE_PEER_STATE_PAIR_ON = b.pairOn := by
  have hia := State.heardAt_inv hi u
  have hs := (s.heardAt u).peerShown_spares b
  have hup : ((s.heardAt u).peerShown b).Spares [] [18, 21] ((s.heardAt u).peerShown b).tieUp :=
    (State.tieUp_within (.refl _ _) (List.Subset.refl _)).spares (by decide)
  have hka : (s.heardAt u).rootKept = true := by
    rw [State.heardAt_eq]
    exact hk
  have hku : ((s.heardAt u).peerShown b).tieUp.rootKept = true := by
    rw [hup.rootKept (hs.inv hia) (by simp) (by simp), hs.rootKept hia (by decide) (by simp), hka]
  have hiu := hup.inv (hs.inv hia)
  have hbl := State.setBlocked_spares hiu (by decide : 2 < 3) hku ((s.heardAt u).peerShown b).tieUp.tieBlocked
  have keep {f : Field} (hf : f.ok = true) (h1 : ∀ g ∈ blockFields 2 ++ rootFields, g.apart f = true) (h2 : regBlock f.addr ∉ [18, 21]) :
      (((s.heardAt u).peerShown b).tieUp.setBlocked 2 ((s.heardAt u).peerShown b).tieUp.tieBlocked).getF f =
        ((s.heardAt u).peerShown b).getF f :=
    (hbl.getF f hf h1 (by simp) hiu).trans (hup.getF f hf (by simp) h2 (hs.inv hia))
  have he : execTieRoleExchangeDone u s =
      .next (((s.heardAt u).peerShown b).tieUp.setBlocked 2 ((s.heardAt u).peerShown b).tieUp.tieBlocked) := by
    have hblk' : (s.heardAt u).tie.blk = some b := by rw [State.heardAt_tie, hblk]
    have hc : ¬ (decide ((s.heardAt u).getF R.TIE_STAT_PHASE ≠ 3) || !(s.heardAt u).tie.ack || !b.ack) = true := by
      rw [State.getF_heardAt, State.heardAt_tie]
      simp [hp, ha, hb]
    change (match (s.heardAt u).tie.blk with | none => _ | some b => _) = _
    rw [hblk']
    exact if_neg hc
  obtain ⟨h1, h2, h3, h4, h5⟩ := (s.heardAt u).peerShown_spec b
  refine ⟨_, he, (keep (by decide) (by decide) (by decide)).trans h1, ?_, (keep (by decide) (by decide) (by decide)).trans h3,
    (keep (by decide) (by decide) (by decide)).trans h4, ?_⟩
  · rw [State.isSet, keep (by decide) (by decide) (by decide)]
    exact h2
  · rw [State.isSet, keep (by decide) (by decide) (by decide)]
    exact h5

/-- A failure of the training counted and reported. -/
def State.trainFailed (s : State) : State := (s.bump R.TIE_STAT_TRAIN_FAILS).raise R.TIE_EVENT_TRAIN_FAIL

theorem State.trainFailed_spares (s : State) :
    s.Spares [R.TIE_STAT_TRAIN_FAILS, R.TIE_EVENT_TRAIN_FAIL] [] s.trainFailed :=
  ((State.Spares.refl _ _ s).bump (by simp) (by decide)).raise (by simp) (by decide)

theorem State.tieSends_spares {l : List Field} {bs : List Nat} {t : State} (h : s.Spares l bs t) (hi : s.Inv)
    (ha : ∀ f ∈ [R.START_STATE_DEV_STATE, R.TIE_CFG_ENABLE], ∀ g ∈ l, g.apart f = true) (hb : 2 ∉ bs ∧ 5 ∉ bs) :
    t.tieSends = s.tieSends := by
  simp only [List.forall_mem_cons] at ha
  obtain ⟨h1, h2, -⟩ := ha
  have dev : t.dev = s.dev := h.getF _ (by decide) h1 (by simpa using hb.1) hi
  simp only [State.tieSends, State.rootRuns, dev, h.isSet hi (f := R.TIE_CFG_ENABLE) (by decide) h2 (by simpa using hb.2)]

/-- A failed training starts again, in phase 1 where the transmitter is on. -/
theorem State.trainAgain (hi : s.Inv) (hp : s.getF R.TIE_STAT_PHASE ≤ 3) :
    s.trainFailed.tieAgain.getF R.TIE_STAT_PHASE = s.tieFirst ∧
    s.trainFailed.tieAgain.isSet R.TIE_EVENT_TRAIN_FAIL = true ∧
    s.trainFailed.tieAgain.getF R.TIE_STAT_TRAIN_FAILS = min R.TIE_STAT_TRAIN_FAILS.max (s.getF R.TIE_STAT_TRAIN_FAILS + 1) ∧
    s.trainFailed.tieAgain.tie.since = s.mtb := by
  have hf := s.trainFailed_spares
  have hif := hf.inv hi
  have hs := s.trainFailed.tieListen_spares s.trainFailed.tieFirst
  have ph : s.trainFailed.getF R.TIE_STAT_PHASE ≠ 4 := by
    rw [hf.getF _ (by decide) (by decide) (by simp) hi]
    omega
  have first : s.trainFailed.tieFirst = s.tieFirst := by
    rw [State.tieFirst, State.tieFirst, State.tieSends_spares hf hi (by decide) (by simp)]
  refine ⟨(State.tieAgain_phase hif).trans first, ?_, ?_, ?_⟩
  · rw [State.tieAgain_eq, hs.isSet hif (by decide) (by decide) (by decide)]
    exact State.isSet_raise_same _ (by decide) rfl
  · rw [State.tieAgain_eq, hs.getF _ (by decide) (by decide) (by decide) hif, State.trainFailed,
      State.getF_raise_ne _ _ _ (by decide) (by decide) (by decide), State.getF_bump _ (by decide)]
  · rw [State.tieAgain_eq, (State.tieListen_low ph _).1]
    rw [State.trainFailed, State.raise_mtb, State.bump_eq, State.setF_mtb]

end
end Sys2Proof.Machine

namespace Sys2Proof.Machine
open Sys2Proof

/-! ### Phase limits, RETRAIN and ENABLE of the tie link (R109, R112) -/

section
variable {s : State}

theorem State.tieFirst_heardAt (s : State) (u : Nat) : (s.heardAt u).tieFirst = s.tieFirst := by
  rw [State.tieFirst, (s.heardAt_role u).2.1, State.tieFirst]

/-- A limit that expires: a failed training, which starts again. -/
theorem execTiePhaseTimeout_fails (u : Nat) (hp : s.getF R.TIE_STAT_PHASE ≤ 3)
    (hr : (if s.rootRuns then decide (s.getF R.TIE_STAT_PHASE ≠ 0) && (decide (s.getF R.TIE_STAT_PHASE ≠ 1) ||
        s.isSet R.TIE_STAT_BLOCK_LOCK) && decide (s.tie.since + tieLimit (s.getF R.TIE_STAT_PHASE) ≤ max s.mtb u)
      else decide (s.dev ≠ devUnpowered) && s.isSet R.TIE_CFG_ENABLE) = true) :
    execTiePhaseTimeout u s = .next ((s.heardAt u).trainFailed.tieAgain.answer ST.TIE_TRAIN_TIMEOUT) := by
  have hm : s.rootRuns = true → (s.heardAt u).mtb = max s.mtb u := fun h => by rw [State.heardAt_mtb, if_pos h]
  have hc : ¬ (decide (3 < (s.heardAt u).getF R.TIE_STAT_PHASE) || !(if (s.heardAt u).rootRuns
      then decide ((s.heardAt u).getF R.TIE_STAT_PHASE ≠ 0) && (decide ((s.heardAt u).getF R.TIE_STAT_PHASE ≠ 1) ||
        (s.heardAt u).isSet R.TIE_STAT_BLOCK_LOCK) &&
        decide ((s.heardAt u).tie.since + tieLimit ((s.heardAt u).getF R.TIE_STAT_PHASE) ≤ (s.heardAt u).mtb)
      else decide ((s.heardAt u).dev ≠ devUnpowered) && (s.heardAt u).isSet R.TIE_CFG_ENABLE)) = true := by
    simp only [State.isSet, State.getF_heardAt, State.heardAt_dev, State.heardAt_rootRuns, State.heardAt_tie] at hr ⊢
    cases h : s.rootRuns with
    | true =>
      rw [h, if_pos rfl] at hr
      rw [hm h, if_pos rfl, hr, decide_eq_false (by omega)]
      exact Bool.false_ne_true
    | false =>
      rw [h, if_neg Bool.false_ne_true] at hr
      rw [if_neg Bool.false_ne_true, hr, decide_eq_false (by omega)]
      exact Bool.false_ne_true
  exact if_neg hc

theorem tiePhaseTimeout_rooted (hi : s.Inv) (u : Nat) (hr : s.rootRuns = true)
    (hp : 0 < s.getF R.TIE_STAT_PHASE ∧ s.getF R.TIE_STAT_PHASE ≤ 3)
    (hb : s.getF R.TIE_STAT_PHASE = 1 → s.isSet R.TIE_STAT_BLOCK_LOCK = true)
    (ht : s.tie.since + tieLimit (s.getF R.TIE_STAT_PHASE) ≤ max s.mtb u) : Completes (.tiePhaseTimeout u) s fun t =>
      (t.getF R.TIE_STAT_PHASE = (if s.isSet R.TIE_CFG_ENABLE then 1 else 0)) ∧ t.isSet R.TIE_EVENT_TRAIN_FAIL = true ∧
      t.getF R.TIE_STAT_TRAIN_FAILS = min R.TIE_STAT_TRAIN_FAILS.max (s.getF R.TIE_STAT_TRAIN_FAILS + 1) ∧
      t.resp = ST.TIE_TRAIN_TIMEOUT ∧ t.tie.since = max s.mtb u := by
  obtain ⟨h1, h2, h3, h4⟩ := State.trainAgain (State.heardAt_inv hi u) (by rw [State.getF_heardAt]; exact hp.2)
  rw [State.tieFirst_heardAt, State.tieFirst, State.tieSends, hr, Bool.true_and] at h1
  rw [State.getF_heardAt] at h3
  rw [State.heardAt_mtb, if_pos hr] at h4
  have h0 : decide (s.getF R.TIE_STAT_PHASE ≠ 0) = true := decide_eq_true (by omega)
  have hlim : (decide (s.getF R.TIE_STAT_PHASE ≠ 1) || s.isSet R.TIE_STAT_BLOCK_LOCK) = true := by
    by_cases h : s.getF R.TIE_STAT_PHASE = 1
    · rw [hb h, Bool.or_true]
    · rw [decide_eq_true h, Bool.true_or]
  refine ⟨_, execTiePhaseTimeout_fails u hp.2 ?_, (State.getF_answer ..).trans h1, (State.isSet_answer ..).trans h2,
    (State.getF_answer ..).trans h3, rfl, (congrArg TieLink.since (State.answer_tie ..)).trans h4⟩
  rw [if_pos hr, h0, hlim, decide_eq_true ht]
  rfl

theorem tiePhaseTimeout_rootless (hi : s.Inv) (u : Nat) (hr : s.rootRuns = false) (hd : s.dev ≠ devUnpowered)
    (he : s.isSet R.TIE_CFG_ENABLE = true) (hp : s.getF R.TIE_STAT_PHASE ≤ 3) : Completes (.tiePhaseTimeout u) s fun t =>
      t.getF R.TIE_STAT_PHASE = 0 ∧ t.isSet R.TIE_EVENT_TRAIN_FAIL = true ∧
      t.getF R.TIE_STAT_TRAIN_FAILS = min R.TIE_STAT_TRAIN_FAILS.max (s.getF R.TIE_STAT_TRAIN_FAILS + 1) ∧
      t.resp = ST.TIE_TRAIN_TIMEOUT := by
  obtain ⟨h1, h2, h3, -⟩ := State.trainAgain (State.heardAt_inv hi u) (by rw [State.getF_heardAt]; exact hp)
  rw [State.tieFirst_heardAt, State.tieFirst, State.tieSends, hr, Bool.false_and] at h1
  rw [State.getF_heardAt] at h3
  refine ⟨_, execTiePhaseTimeout_fails u hp ?_, (State.getF_answer ..).trans h1, (State.isSet_answer ..).trans h2,
    (State.getF_answer ..).trans h3, rfl⟩
  rw [if_neg (by simp [hr]), he, decide_eq_true hd]
  rfl

theorem tieRetrain_restarts (hi : s.Inv) : Completes .tieRetrain s fun t =>
    (t.getF R.TIE_STAT_PHASE = (if s.tieSends then 1 else 0)) ∧
    (s.getF R.TIE_STAT_PHASE = 4 → t.isSet R.TIE_EVENT_DOWN = true) ∧ t.resp = ST.OK :=
  ⟨_, rfl, (State.getF_answer ..).trans (State.tieAgain_phase hi),
    fun h => (State.isSet_answer ..).trans (State.tieListen_down hi _ h), rfl⟩

theorem tieEnableWrite_starts (hi : s.Inv) (he : s.isSet R.TIE_CFG_ENABLE = false) :
    Completes (.tieEnableWrite true) s fun t => t.isSet R.TIE_CFG_ENABLE = true ∧
      (t.getF R.TIE_STAT_PHASE = (if s.rootRuns then 1 else 0)) ∧ t.resp = ST.OK := by
  have hx : s.tieEnable true = (s.setF R.TIE_CFG_ENABLE 1).tieAgain.answer ST.OK := by
    rw [State.tieEnable, if_neg (by simp [he]), if_pos rfl]
  have hiv := State.inv_setF hi R.TIE_CFG_ENABLE 1
  have on := State.isSet_setF_one s (f := R.TIE_CFG_ENABLE) (by decide) rfl
  have dev : (s.setF R.TIE_CFG_ENABLE 1).dev = s.dev := State.getF_setF_ne _ _ _ _ (by decide) (by decide) (by decide)
  refine ⟨_, congrArg Host.Outcome.next hx, ?_, ?_, rfl⟩
  · rw [State.isSet_answer, State.tieAgain_eq, (State.tieListen_spares _ _).isSet hiv (by decide) (by decide) (by decide), on]
  · rw [State.getF_answer, State.tieAgain_phase hiv, State.tieFirst, State.tieSends, on, Bool.and_true, State.rootRuns, dev, ← State.rootRuns]

/-- The tie link without its receiver and off: it falls to listening, whatever its source was. -/
theorem State.linkGone_listens (hi : s.Inv) (he : s.isSet R.TIE_CFG_ENABLE = false) :
    (s.linkGone 2).getF R.TIE_STAT_PHASE = 0 := by
  have hs := (State.Spares.refl [R.TIE_STAT_BLOCK_LOCK] [] s).setF (List.mem_singleton_self _) (by decide) 0
  have hf : (s.setF R.TIE_STAT_BLOCK_LOCK 0).tieFirst = 0 := by
    rw [State.tieFirst, State.tieSends_spares hs hi (by decide) (by simp), State.tieSends, he, Bool.and_false]
    rfl
  rw [State.linkGone, if_neg (by decide), State.tieAgain_phase (hs.inv hi), hf]

/-- What the loss of the tie link's source writes, in the tie link's registers and in those of the clock root. -/
def tieLossFields : List Field :=
  noteFields 2 ++ disqualFields 2 ++ [R.TIE_STAT_BLOCK_LOCK, R.TIE_STAT_PHASE, R.TIE_EVENT_DOWN]

theorem State.linkGone_tie_spares (s : State) : s.Spares tieLossFields tieOuter (s.linkGone 2) := by
  have h := (State.Spares.refl tieLossFields tieOuter s).setF (g := R.TIE_STAT_BLOCK_LOCK) (by decide) (by decide) 0
  rw [State.linkGone, if_neg (by decide), State.tieAgain_eq]
  exact h.trans ((State.tieListen_spares _ _).mono (by decide) (List.Subset.refl _))

theorem State.lossGone_tie_spares (s : State) : s.Spares tieLossFields tieOuter ((s.lossJudged 2).linkGone 2) :=
  ((s.lossJudged_spares 2).mono (by simp [tieLossFields]) (by simp)).trans (s.lossJudged 2).linkGone_tie_spares

/-- A root source other than the tie link stays as locked as it was. -/
theorem State.Spares.rootKept_apart_tie {bs : List Nat} {t : State} (h : s.Spares tieLossFields bs t) (hi : s.Inv)
    (hb : 1 ∉ bs ∧ 2 ∉ bs) (hk : s.rootKept = true) (hr : s.getF R.CLK_STATE_ROOT_SRC ≠ 2) : t.rootKept = true := by
  have dev : t.dev = s.dev := h.getF _ (by decide) (by decide) (by simpa using hb.2) hi
  have root : t.getF R.CLK_STATE_ROOT_SRC = s.getF R.CLK_STATE_ROOT_SRC :=
    h.getF _ (by decide) (by decide) (by simpa using hb.1) hi
  have lock : t.srcLocked (s.getF R.CLK_STATE_ROOT_SRC) = s.srcLocked (s.getF R.CLK_STATE_ROOT_SRC) := by
    by_cases hn : s.getF R.CLK_STATE_ROOT_SRC < 3
    · have ha : ∀ n : Fin 3, (n : Nat) ≠ 2 → ∀ g ∈ tieLossFields, g.apart (srcF R.CLK_SRC_UPL0_LOCK n) = true := by decide
      exact h.srcLocked hi hn (ha ⟨_, hn⟩ hr) hb.1
    · simp [State.srcLocked, hn]
  rwa [State.rootKept, dev, root, lock]

/-- Off, the tie link's source is lost: the link listens, and with another root source ENABLE stays as written. -/
theorem State.sourceLost_tie (hi : s.Inv) (he : s.isSet R.TIE_CFG_ENABLE = false) :
    (s.sourceLost 2).getF R.TIE_STAT_PHASE = 0 ∧
    (s.rootKept = true → s.getF R.CLK_STATE_ROOT_SRC ≠ 2 → (s.sourceLost 2).isSet R.TIE_CFG_ENABLE = false) := by
  have hg := s.linkGone_tie_spares
  cases hl : s.srcLocked 2 with
  | false =>
    rw [State.sourceLost_unlocked hl]
    exact ⟨State.linkGone_listens hi he, fun _ _ => (hg.isSet hi (by decide) (by decide) (by decide)).trans he⟩
  | true =>
    have hj := s.lossJudged_spares 2
    have hlg := s.lossGone_tie_spares
    have hil := hlg.inv hi
    have off := hj.isSet hi (f := R.TIE_CFG_ENABLE) (by decide) (by decide) (by simp)
    rw [State.sourceLost_eq hl]
    constructor
    · rcases ((s.lossJudged 2).linkGone 2).clockDecide_or with hs | ⟨-, e⟩
      · rw [hs.getF _ (by decide) (by decide) (by simp) hil, State.linkGone_listens (hj.inv hi) (off.trans he)]
      · rw [e, State.getF_toAwait_gone hil (by decide) (by decide) (by decide)]
        decide
    · intro hk hr
      have hd := State.clockDecide_spares (hlg.rootKept_apart_tie hi (by decide) hk hr)
      rw [hd.isSet hil (by decide) (by decide) (by simp), hlg.isSet hi (by decide) (by decide) (by decide), he]

theorem tieEnableWrite_stops (hi : s.Inv) (he : s.isSet R.TIE_CFG_ENABLE = true)
    (hq : s.getF R.CLK_STATE_ROOT_SRC ≠ 2 ∨ s.srcLocked 2 = false ∨ s.srcQual 0 = true ∨ s.srcQual 1 = true) :
    Completes (.tieEnableWrite false) s fun t => t.getF R.TIE_STAT_PHASE = 0 ∧ t.srcLocked 2 = false ∧
      (s.rootKept = true → s.getF R.CLK_STATE_ROOT_SRC ≠ 2 → t.isSet R.TIE_CFG_ENABLE = false) ∧ t.resp = ST.OK := by
  have hx : s.tieEnable false = ((s.setF R.TIE_CFG_ENABLE 0).sourceLost 2).answer ST.OK := by
    rw [State.tieEnable, if_neg (by simp [he]), if_neg (by simp), if_neg]
    rcases hq with h | h | h | h <;> simp [h]
  have hs := (State.Spares.refl [R.TIE_CFG_ENABLE] [] s).setF (List.mem_singleton_self _) (by decide) 0
  have hiv := hs.inv hi
  have off : (s.setF R.TIE_CFG_ENABLE 0).isSet R.TIE_CFG_ENABLE = false := by
    rw [State.isSet, State.getF_setF_same _ _ _ (by decide)]
    rfl
  obtain ⟨h1, h2⟩ := State.sourceLost_tie hiv off
  rw [hs.rootKept hi (by decide) (by simp), hs.getF _ (by decide) (by decide) (by simp) hi] at h2
  refine ⟨_, congrArg Host.Outcome.next hx, (State.getF_answer ..).trans h1, ?_, ?_, rfl⟩
  · rw [State.srcLocked_eq _ (by decide), State.isSet_answer, ← State.srcLocked_eq _ (by decide)]
    exact State.srcLocked_sourceLost hiv (by decide)
  · rwa [State.isSet_answer]

theorem tieEnableWrite_refuses (he : s.isSet R.TIE_CFG_ENABLE = true) (hr : s.getF R.CLK_STATE_ROOT_SRC = 2)
    (hl : s.srcLocked 2 = true) (hq : s.srcQual 0 = false ∧ s.srcQual 1 = false) :
    Completes (.tieEnableWrite false) s fun t => t.regs = s.regs ∧ t.resp = ST.TIE_STATE := by
  have hx : s.tieEnable false = s.answer ST.TIE_STATE := by
    rw [State.tieEnable, if_neg (by simp [he]), if_neg (by simp), if_pos (by simp [hr, hl, hq.1, hq.2])]
  exact ⟨_, congrArg Host.Outcome.next hx, rfl, rfl⟩
end
end Sys2Proof.Machine

section
open Sys2Proof Sys2Proof.Machine

/-- Settles O9: every way back to the start goes through the fall to a phase of the tie link, which leaves its other fields and
the clock root as they are. -/
theorem tieTraining : Obligations.TieTraining := by
  unfold Obligations.TieTraining
  intro s hi
  refine ⟨?_, ?_, ?_, ?_, ?_, ?_, ?_, ?_, ?_, ?_, ?_⟩
  · exact fun u hd hp he => tieAcquisitionDone_leads hi u hd hp he
  · exact fun a b c d e f x y z w v hp hl => tieTrainBlockRx_answers hp hl
  · exact fun u hp hr hq => tieEqualiserDone_leads u hp hr hq
  · exact fun b hp => tieRoleBlockRx_answers hp
  · exact fun u b hk hp ha hb hblk => tieRoleExchangeDone_ends hi u hk hp ha hb hblk
  · exact fun u hr hp hb ht => tiePhaseTimeout_rooted hi u hr hp hb ht
  · exact fun u hr hd he hp => tiePhaseTimeout_rootless hi u hr hd he hp
  · exact tieRetrain_restarts hi
  · exact fun he => tieEnableWrite_starts hi he
  · exact fun he hq => tieEnableWrite_stops hi he hq
  · exact fun he hr hl hq => tieEnableWrite_refuses he hr hl hq

end

namespace Sys2Proof.Machine
open Sys2Proof

/-! ### Pause and priority flow control (R106 to R108) -/

section
variable {s : State} {p : Fin 2}

theorem State.uplCarries_rootRuns (h : s.uplCarries p = true) : s.rootRuns = true := by
  simp only [State.uplCarries, Bool.and_eq_true] at h
  exact h.1.1.1

theorem State.uplHears_rootRuns (h : s.uplHears p = true) : s.rootRuns = true := by
  simp only [State.uplHears, Bool.and_eq_true] at h
  exact h.1.1.1

theorem State.heardAt_rooted (h : s.rootRuns = true) (u : Nat) : s.heardAt u = s.advance u := if_pos h

theorem State.pauseFor_paused (s : State) (p : Fin 2) (k q : Nat) : ((s.pauseFor p k q).uplPort p).paused =
    if q = 0 then Store.del k (s.uplPort p).paused else Store.put k (linkEdge (s.mtb + 1) + 66 * q) (s.uplPort p).paused := by
  rw [State.pauseFor, State.uplPort_setUpl]

theorem State.pauseFor_discards (s : State) (p : Fin 2) (k q : Nat) :
    ((s.pauseFor p k q).uplPort p).discards = (s.uplPort p).discards := by
  rw [State.pauseFor, State.uplPort_setUpl]

theorem State.uplPort_raise (s : State) (e : Field) (p : Nat) : (s.raise e).uplPort p = s.uplPort p :=
  State.uplPort_congr (State.raise_upl0 ..) (State.raise_upl1 ..) p

theorem State.fcDiscard_port (s : State) (p : Fin 2) :
    (s.fcDiscard p).uplPort p = { s.uplPort p with discards := (s.uplPort p).discards + 1 } := by
  rw [State.fcDiscard, State.uplPort_raise, State.uplPort_setUpl]

theorem State.fcDiscard_reports (s : State) (p : Fin 2) : (s.fcDiscard p).isSet (R.UPL_EVENT_FC_DISCARD p) = true := by
  have hok : ∀ p : Fin 2, (R.UPL_EVENT_FC_DISCARD p).ok = true := by decide
  exact State.isSet_raise_same _ (hok p) rfl

theorem execPauseFrameRx_eq {q : Fin 65536} {u : Nat} (h : s.uplHears p = true) : execPauseFrameRx p q u s =
    .next (if (s.uplPort p).mode = 1 then (s.advance u).pauseFor p 8 q else (s.advance u).fcDiscard p) := by
  have hr := State.uplHears_rootRuns h
  have hc : ¬ (!(s.advance u).uplHears p) = true := by
    have : (s.advance u).uplHears p = true := h
    simp [this]
  unfold execPauseFrameRx
  rw [if_pos hr, if_neg hc]
  change (if (s.uplPort p).mode = 1 then _ else _) = _
  split
  · rfl
  · rfl

theorem pauseFrameRx_obeys {q : Fin 65536} {u : Nat} (h : s.uplHears p = true) : Completes (.pauseFrameRx p q u) s fun t =>
    ((s.uplPort p).mode = 1 → (q : Nat) ≠ 0 →
      Store.find? 8 (t.uplPort p).paused = some (linkEdge (max s.mtb u + 1) + 66 * (q : Nat))) ∧
    ((s.uplPort p).mode = 1 → (q : Nat) = 0 → (t.uplPort p).paused = Store.del 8 (s.uplPort p).paused) ∧
    ((s.uplPort p).mode ≠ 1 → t.isSet (R.UPL_EVENT_FC_DISCARD p) = true ∧
      t.uplPort p = { s.uplPort p with discards := (s.uplPort p).discards + 1 }) := by
  refine ⟨_, execPauseFrameRx_eq h, ?_⟩
  split
  · next hm =>
    rw [State.pauseFor_paused]
    refine ⟨fun _ hq => ?_, fun _ hq => by rw [if_pos hq]; rfl, fun hn => absurd hm hn⟩
    rw [if_neg hq, Store.find?_put_same]
    rfl
  · next hm =>
    exact ⟨fun h => absurd h hm, fun h => absurd h hm, fun _ => ⟨State.fcDiscard_reports _ p, State.fcDiscard_port _ p⟩⟩

/-- A queue of the port is mapped to the priority. -/
def State.prioMapped (s : State) (p k : Nat) : Bool := (List.range 8).any (fun i => s.uplPrio p i = k)

/-- One entry of a PFC frame in PFC mode. -/
def State.pfcEntry (p : Nat) (s : State) (e : Fin 8 × Fin 65536) : State :=
  if s.prioMapped p e.1 then s.pauseFor p e.1 e.2 else s.fcDiscard p

theorem execPfcFrameRx_eq {l : List (Fin 8 × Fin 65536)} {u : Nat} (h : s.uplHears p = true) : execPfcFrameRx p l u s =
    .next (if (s.uplPort p).mode = 2 then (s.advance u).each l (State.pfcEntry p) else (s.advance u).fcDiscard p) := by
  have hr := State.uplHears_rootRuns h
  have hc : ¬ (!(s.advance u).uplHears p) = true := by
    have : (s.advance u).uplHears p = true := h
    simp [this]
  unfold execPfcFrameRx
  rw [if_pos hr, if_neg hc]
  change (if (s.uplPort p).mode = 2 then _ else _) = _
  split
  · rfl
  · rfl

theorem State.uplPrio_congr {s t : State} {p : Nat} (h : t.getReg (R.UPL_PRIO_MAP p) = s.getReg (R.UPL_PRIO_MAP p)) (k : Nat) :
    t.prioMapped p k = s.prioMapped p k := by
  have hp : t.uplPrio p = s.uplPrio p := by
    funext i
    exact congrArg (Field.get ⟨R.UPL_PRIO_MAP p, 4 * i, 3⟩) h
  rw [State.prioMapped, State.prioMapped, hp]

/-- An entry of a PFC frame leaves the mapping and the time as they are. -/
theorem State.pfcEntry_keeps (s : State) (p : Fin 2) (e : Fin 8 × Fin 65536) :
    (s.pfcEntry p e).getReg (R.UPL_PRIO_MAP p) = s.getReg (R.UPL_PRIO_MAP p) ∧ (s.pfcEntry p e).mtb = s.mtb := by
  have hne : R.UPL_PRIO_MAP p ≠ (R.UPL_EVENT_FC_DISCARD p).addr := by
    revert p
    decide
  have set (v : UplPort) : (s.setUpl p v).getReg (R.UPL_PRIO_MAP p) = s.getReg (R.UPL_PRIO_MAP p) ∧ (s.setUpl p v).mtb = s.mtb := by
    unfold State.setUpl
    split
    · exact ⟨rfl, rfl⟩
    · exact ⟨rfl, rfl⟩
  unfold State.pfcEntry
  split
  · exact set _
  · rw [State.fcDiscard, State.getReg_raise_ne _ _ hne, State.raise_mtb]
    exact set _

/-- The pauses of a port after the entries of a PFC frame received at `t`. -/
def pausedAfter (mapped : Nat → Bool) (t : Nat) (l : List (Fin 8 × Fin 65536)) (m : Store Nat) : Store Nat :=
  l.foldl (fun m e => if mapped e.1.val then
    (if e.2.val = 0 then Store.del e.1.val m else Store.put e.1.val (linkEdge (t + 1) + 66 * e.2.val) m) else m) m

theorem State.pfcEntries (l : List (Fin 8 × Fin 65536)) (s : State) (p : Fin 2) :
    ((s.each l (State.pfcEntry p)).uplPort p).paused = pausedAfter (s.prioMapped p) s.mtb l (s.uplPort p).paused ∧
    ((s.each l (State.pfcEntry p)).uplPort p).discards =
      (s.uplPort p).discards + (l.filter (fun e => !s.prioMapped p e.1)).length := by
  induction l generalizing s with
  | nil => exact ⟨rfl, rfl⟩
  | cons e l ih =>
    obtain ⟨hreg, hmtb⟩ := s.pfcEntry_keeps p e
    have hmap : (s.pfcEntry p e).prioMapped p = s.prioMapped p := funext (State.uplPrio_congr hreg)
    obtain ⟨h1, h2⟩ := ih (s.pfcEntry p e)
    rw [hmap, hmtb] at h1
    rw [hmap] at h2
    have he : s.each (e :: l) (State.pfcEntry p) = (s.pfcEntry p e).each l (State.pfcEntry p) := rfl
    rw [he, h1, h2]
    cases hm : s.prioMapped p e.1 with
    | true =>
      rw [State.pfcEntry, if_pos hm, State.pauseFor_paused, State.pauseFor_discards]
      simp [pausedAfter, hm]
    | false =>
      rw [State.pfcEntry, if_neg (by simp [hm]), State.fcDiscard_port]
      simp only [pausedAfter, List.foldl_cons, hm, Bool.false_eq_true, if_false, List.filter_cons, Bool.not_false, if_true,
        List.length_cons, true_and]
      omega

theorem pfcFrameRx_obeys {l : List (Fin 8 × Fin 65536)} {u : Nat} (h : s.uplHears p = true) :
    Completes (.pfcFrameRx p l u) s fun t =>
      ((s.uplPort p).mode = 2 → (t.uplPort p).paused = pausedAfter (s.prioMapped p) (max s.mtb u) l (s.uplPort p).paused) ∧
      ((s.uplPort p).mode = 2 → (t.uplPort p).discards =
        (s.uplPort p).discards + (l.filter (fun e => !s.prioMapped p e.1)).length) ∧
      ((s.uplPort p).mode ≠ 2 → t.isSet (R.UPL_EVENT_FC_DISCARD p) = true ∧
        t.uplPort p = { s.uplPort p with discards := (s.uplPort p).discards + 1 }) := by
  refine ⟨_, execPfcFrameRx_eq h, ?_⟩
  split
  · next hm =>
    obtain ⟨h1, h2⟩ := State.pfcEntries l (s.advance u) p
    exact ⟨fun _ => h1, fun _ => h2, fun hn => absurd hm hn⟩
  · next hm =>
    exact ⟨fun h => absurd h hm, fun h => absurd h hm, fun _ => ⟨State.fcDiscard_reports _ p, State.fcDiscard_port _ p⟩⟩

theorem pauseQuantaEnd_ends {k : Fin 9} {u e : Nat} (h : Store.find? (k : Nat) (s.uplPort p).paused = some e)
    (hu : e ≤ if s.rootRuns then max s.mtb u else s.mtb) : Completes (.pauseQuantaEnd p k u) s fun t =>
      (t.uplPort p).paused = Store.del (k : Nat) (s.uplPort p).paused ∧ t.regs = s.regs := by
  have hp : (s.heardAt u).uplPort p = s.uplPort p := by rw [State.heardAt_eq]; rfl
  have he : execPauseQuantaEnd p k u s =
      .next ((s.heardAt u).setUpl p { s.uplPort p with paused := Store.del k.val (s.uplPort p).paused }) := by
    change (match Store.find? k.val ((s.heardAt u).uplPort p).paused with
      | none => _
      | some e => if e ≤ (s.heardAt u).mtb then Host.Outcome.next ((s.heardAt u).setUpl p { (s.heardAt u).uplPort p with
          paused := Store.del k.val ((s.heardAt u).uplPort p).paused }) else _) = _
    rw [hp, h]
    exact if_pos (by rwa [State.heardAt_mtb])
  refine ⟨_, he, by rw [State.uplPort_setUpl], ?_⟩
  have hr : (s.heardAt u).regs = s.regs := by rw [State.heardAt_eq]
  rw [← hr]
  unfold State.setUpl
  split <;> rfl

/-- The priorities of a port whose condition has changed since it was sent. -/
def State.fcChanged (s : State) (p : Nat) : List Nat :=
  (List.range 9).filter (fun k => (s.fcNow p).contains k != (s.uplPort p).sent.contains k)

theorem State.out_setUpl (s : State) (p : Nat) (v : UplPort) : (s.setUpl p v).out = s.out := by
  unfold State.setUpl
  split <;> rfl

theorem State.uplPort_emit (s : State) (m : Msg) (p : Nat) : (s.emit m).uplPort p = s.uplPort p := rfl

/-- The sending times with `x` for every priority of a list. -/
def stamped (x : Nat) (l : List Nat) (m : Store Nat) : Store Nat := l.foldl (fun m k => Store.put k x m) m

theorem get_stamped (x : Nat) (l : List Nat) (m : Store Nat) {k : Nat}
    (h : k ∈ l ∨ Store.get (fun _ => 0) m k = x) :
    Store.get (fun _ => 0) (stamped x l m) k = x := by
  induction l generalizing m with
  | nil => simpa [stamped] using h
  | cons a l ih =>
    refine ih _ ?_
    by_cases hka : k = a
    · exact Or.inr (by rw [hka, Store.get_put_same])
    · rw [Store.get_put_ne _ _ _ hka]
      simpa [hka] using h

theorem fcFrameSend_sends {u : Nat} (hc : s.uplCarries p = true) (hn : (s.fcChanged p).isEmpty = false) :
    Completes (.fcFrameSend p u) s fun t => (t.uplPort p).sent = s.fcNow p ∧
      (t.out = .flow p ((s.fcChanged p).map
        (fun k => (k, if (s.fcNow p).contains k then s.getF (R.UPL_FC_QUANTA p) else 0))) :: s.out) := by
  have hc' : ¬ ((s.fcChanged p).isEmpty || !(s.advance u).uplCarries p) = true := by
    have : (s.advance u).uplCarries p = true := hc
    simp [this, hn]
  have he : ∃ v : UplPort, execFcFrameSend p u s = .next (((s.advance u).setUpl p { v with sent := s.fcNow p }).emit
      (.flow p ((s.fcChanged p).map (fun k => (k, if (s.fcNow p).contains k then s.getF (R.UPL_FC_QUANTA p) else 0))))) := by
    refine ⟨{ s.uplPort p with
      sentAt := stamped (max s.mtb u) ((s.fcChanged p).filter (s.fcNow p).contains) (s.uplPort p).sentAt }, ?_⟩
    unfold execFcFrameSend
    rw [if_pos (State.uplCarries_rootRuns hc)]
    exact if_neg hc'
  obtain ⟨v, he⟩ := he
  refine ⟨_, he, ?_, ?_⟩
  · rw [State.uplPort_emit, State.uplPort_setUpl]
  · rw [State.emit, State.out_setUpl, State.advance_out]

theorem fcFrameRepeat_sends {u : Nat} {l : List Nat} (hc : s.uplCarries p = true)
    (hl : l = (s.uplPort p).sent.filter (fun k => (s.fcNow p).contains k &&
      decide (Store.get (fun _ => 0) (s.uplPort p).sentAt k + s.getF (R.UPL_FC_QUANTA p) * 66 / 2 ≤ max s.mtb u)))
    (hn : l.isEmpty = false) : Completes (.fcFrameRepeat p u) s fun t =>
      (∀ k ∈ l, Store.get (fun _ => 0) (t.uplPort p).sentAt k = max s.mtb u) ∧
      t.out = .flow p (l.map (fun k => (k, s.getF (R.UPL_FC_QUANTA p)))) :: s.out := by
  have hc' : ¬ (l.isEmpty || !(s.advance u).uplCarries p) = true := by
    have : (s.advance u).uplCarries p = true := hc
    simp [this, hn]
  have he : execFcFrameRepeat p u s = .next (((s.advance u).setUpl p { s.uplPort p with
      sentAt := stamped (max s.mtb u) l (s.uplPort p).sentAt }).emit
      (.flow p (l.map (fun k => (k, s.getF (R.UPL_FC_QUANTA p)))))) := by
    unfold execFcFrameRepeat
    rw [if_pos (State.uplCarries_rootRuns hc)]
    subst hl
    exact if_neg hc'
  refine ⟨_, he, fun k hk => ?_, ?_⟩
  · rw [State.uplPort_emit, State.uplPort_setUpl]
    exact get_stamped _ _ _ (Or.inl hk)
  · rw [State.emit, State.out_setUpl, State.advance_out]

end
end Sys2Proof.Machine

namespace Sys2Proof.Machine
open Sys2Proof

section
variable {s t u : State} {T : List Part}

theorem Part.same_trans {p : Part} (h : p.same s t) (k : p.same t u) : p.same s u := by
  cases p with
  | regs => trivial
  | block => trivial
  | _ => exact Eq.trans k h

theorem State.Within.trans (h : State.Within T s t) (k : State.Within T t u) : State.Within T s u :=
  ⟨k.pending.trans h.pending, fun hi => k.inv (h.inv hi), fun p hp => Part.same_trans (h.same p hp) (k.same p hp),
    fun hi hr a ha => (k.regs (h.inv hi) hr a ha).trans (h.regs hi hr a ha)⟩
end

/-! ### The quality level of a port (R55, R130) -/

section
variable {s : State} {p : Fin 2}

theorem State.setBlocked_within_kept {n : Nat} (hi : s.Inv) (hn : n < 3) (hk : s.rootKept = true) (b : Bool) :
    State.Within [.block 1, .block 2, .clk, .freeIx, .notes] s (s.setBlocked n b) := by
  have h : State.Within [.block 1, .block 2, .clk, .freeIx, .notes] s (s.blockNoted n b) := by
    have h1 := State.setB_within (.refl [.block 1, .block 2, .clk, .freeIx, .notes] s) (srcF R.CLK_SRC_UPL0_BLOCKED n)
      (Or.inr (by simp)) b
    exact within_ite (fun _ => State.unqualify_within h1 (by decide) n) fun _ => State.qualify_within h1 (by decide) n
  have hkb := ((s.blockNoted_spares n b).rootKept hi (blockFields_apart_kept hn) (by simp)).trans hk
  exact h.trans (State.clockDecide_within_kept hkb)

/-- A block set or cleared shows in the source's BLOCKED bit; a blocked source is not qualified. -/
theorem State.setBlocked_spec {n : Nat} (hi : s.Inv) (hn : n < 3) (hk : s.rootKept = true) (b : Bool) :
    (s.setBlocked n b).isSet (srcF R.CLK_SRC_UPL0_BLOCKED n) = b ∧ (b = true → (s.setBlocked n b).srcQual n = false) := by
  have ha : ∀ n : Fin 3, ∀ g ∈ unqualFields n, g.apart (srcF R.CLK_SRC_UPL0_BLOCKED n) = true := by decide
  have hun := ha ⟨n, hn⟩
  have hok := sourceBits_ok hn (f := R.CLK_SRC_UPL0_BLOCKED) (by decide)
  have hiv : (s.setB (srcF R.CLK_SRC_UPL0_BLOCKED n) b).Inv := State.inv_setF hi _ _
  have hkn := blockFields_apart_kept hn
  have hb : (s.blockNoted n b).isSet (srcF R.CLK_SRC_UPL0_BLOCKED n) = b := by
    unfold State.blockNoted
    dsimp only
    split
    · rw [(State.unqualify_spares _ n).isSet hiv hok hun (by simp)]
      exact State.isSet_setB_same _ _ hok rfl
    · rw [(State.qualify_spares _ n).isSet hiv hok (fun g hg => hun g (by simp_all [unqualFields])) (by simp)]
      exact State.isSet_setB_same _ _ hok rfl
  rw [State.setBlocked_eq]
  constructor
  · rw [State.isSet, (s.blockNoted_spares n b).decided hi hk hn hkn (by decide)]
    exact hb
  · intro ht
    have hq : (s.blockNoted n b).srcQual n = false := by
      rw [State.blockNoted, if_pos ht, State.srcQual_unqualify hn]
    rw [State.srcQual_eq _ hn, State.isSet] at hq ⊢
    rw [(s.blockNoted_spares n b).decided hi hk hn hkn (by decide), hq]

/-- A port's quality level in the registers. -/
def qlFields (p : Nat) : List Field :=
  [qlF R.TIME_QL_UPL0_TIMEOUT p, qlF R.TIME_QL_UPL0_SSM p, qlF R.TIME_QL_UPL0_EXT p, qlF R.TIME_QL_UPL0_ESSM p,
    R.TIME_EVENT_QL_CHANGE]

theorem qlFields_ok (p : Fin 2) : (∀ f ∈ qlFields p, f.ok = true) ∧ (∀ f ∈ keptFields, ∀ g ∈ qlFields p, g.apart f = true) ∧
    (∀ g ∈ qlFields p, g.apart R.TIME_CFG_QL_OPT = true) ∧ ∀ f ∈ qlFields p, ∀ g ∈ blockFields p ++ rootFields, g.apart f = true := by
  revert p
  decide

/-- The fields of a received quality level, and the event of a change, in the registers. -/
def State.qlShown (s : State) (p ssm : Nat) (e : Option (Fin 256)) : State :=
  let s := ((s.setF (qlF R.TIME_QL_UPL0_TIMEOUT p) 0).setF (qlF R.TIME_QL_UPL0_SSM p) ssm)
  let s := s.setB (qlF R.TIME_QL_UPL0_EXT p) e.isSome
  match e with
  | some e => s.setF (qlF R.TIME_QL_UPL0_ESSM p) e
  | none => s.setF (qlF R.TIME_QL_UPL0_ESSM p) 0

theorem State.qlShown_spares (s : State) (p : Fin 2) (ssm : Nat) (e : Option (Fin 256)) :
    s.Spares (qlFields p) [] (s.qlShown p ssm e) := by
  have hok := (qlFields_ok p).1
  have h := (((State.Spares.refl (qlFields p) [] s).setF (g := qlF R.TIME_QL_UPL0_TIMEOUT p) (by simp [qlFields])
    (Field.ok_fits (hok _ (by simp [qlFields]))) 0).setF (g := qlF R.TIME_QL_UPL0_SSM p) (by simp [qlFields])
    (Field.ok_fits (hok _ (by simp [qlFields]))) ssm).setB (g := qlF R.TIME_QL_UPL0_EXT p) (by simp [qlFields])
    (Field.ok_fits (hok _ (by simp [qlFields]))) e.isSome
  unfold State.qlShown
  split
  · exact h.setF (by simp [qlFields]) (Field.ok_fits (hok _ (by simp [qlFields]))) _
  · exact h.setF (by simp [qlFields]) (Field.ok_fits (hok _ (by simp [qlFields]))) _

theorem State.qlShown_spec (s : State) (p : Fin 2) {ssm : Nat} (hs : ssm < 16) (e : Option (Fin 256)) :
    (s.qlShown p ssm e).getF (qlF R.TIME_QL_UPL0_SSM p) = ssm ∧ (s.qlShown p ssm e).isSet (qlF R.TIME_QL_UPL0_EXT p) = e.isSome ∧
    (s.qlShown p ssm e).isSet (qlF R.TIME_QL_UPL0_TIMEOUT p) = false := by
  have hok := (qlFields_ok p).1
  simp only [qlFields, List.forall_mem_cons] at hok
  obtain ⟨ot, os, oe, om, -⟩ := hok
  have ha : ∀ p : Fin 2, (qlFields p).Pairwise (fun f g => g.apart f = true) := by decide
  have hap := ha p
  simp only [qlFields, List.pairwise_cons, List.forall_mem_cons] at hap
  obtain ⟨⟨t1, t2, t3, -⟩, ⟨s1, s2, -⟩, ⟨e1, -⟩, -⟩ := hap
  have hlast : ∃ v, s.qlShown p ssm e = ((((s.setF (qlF R.TIME_QL_UPL0_TIMEOUT p) 0).setF (qlF R.TIME_QL_UPL0_SSM p) ssm).setB
      (qlF R.TIME_QL_UPL0_EXT p) e.isSome).setF (qlF R.TIME_QL_UPL0_ESSM p) v) := by
    unfold State.qlShown
    split
    · exact ⟨_, rfl⟩
    · exact ⟨_, rfl⟩
  obtain ⟨v, hv⟩ := hlast
  rw [hv]
  refine ⟨?_, ?_, ?_⟩
  · rw [State.getF_setF_ne _ _ _ _ (Field.ok_fits om) os s2, State.setB_eq, State.getF_setF_ne _ _ _ _ (Field.ok_fits oe) os s1,
      State.getF_setF_same _ _ _ os]
    exact Nat.mod_eq_of_lt hs
  · rw [State.isSet, State.getF_setF_ne _ _ _ _ (Field.ok_fits om) oe e1]
    exact State.isSet_setB_same _ _ oe rfl
  · rw [State.isSet, State.getF_setF_ne _ _ _ _ (Field.ok_fits om) ot t3, State.setB_eq,
      State.getF_setF_ne _ _ _ _ (Field.ok_fits oe) ot t2, State.getF_setF_ne _ _ _ _ (Field.ok_fits os) ot t1,
      State.getF_setF_same _ _ _ ot]
    rfl

/-- A port's quality level judged: the port's own record, the event of a change, and the block of its source. -/
def State.qlJudged (s : State) (p : Nat) (v : UplPort) (changed b : Bool) : State :=
  ((s.setUpl p v).raiseIf changed R.TIME_EVENT_QL_CHANGE).setBlocked p b

theorem State.qlJudged_spec (hi : s.Inv) (hk : s.rootKept = true) (p : Fin 2) (v : UplPort) (changed b : Bool) :
    (s.qlJudged p v changed b).uplPort p = v ∧ (s.qlJudged p v changed b).isSet (srcF R.CLK_SRC_UPL0_BLOCKED p) = b ∧
    (b = true → (s.qlJudged p v changed b).srcQual p = false) ∧
    ∀ f ∈ [qlF R.TIME_QL_UPL0_TIMEOUT p, qlF R.TIME_QL_UPL0_SSM p, qlF R.TIME_QL_UPL0_EXT p],
      (s.qlJudged p v changed b).getF f = s.getF f := by
  have hn : (p : Nat) < 3 := port_lt_three p
  have hu : s.Spares [R.TIME_EVENT_QL_CHANGE] [] ((s.setUpl p v).raiseIf changed R.TIME_EVENT_QL_CHANGE) :=
    ((State.Spares.refl _ _ s).within (State.setUpl_within (.refl [.upl0, .upl1] s) (List.Subset.refl _) p v) (by decide)).raiseIf
      (List.mem_singleton_self _) (by decide) changed
  have hiu := hu.inv hi
  have hku := (hu.rootKept hi (by decide) (by simp)).trans hk
  obtain ⟨h1, h2⟩ := State.setBlocked_spec hiu hn hku b
  have port : ((s.setUpl p v).raiseIf changed R.TIME_EVENT_QL_CHANGE).uplPort p = v := by
    rw [State.uplPort_congr (State.raiseIf_upl0 ..) (State.raiseIf_upl1 ..), State.uplPort_setUpl]
  obtain ⟨hok, -, -, hap⟩ := qlFields_ok p
  have hev : ∀ p : Fin 2, ∀ f ∈ [qlF R.TIME_QL_UPL0_TIMEOUT p, qlF R.TIME_QL_UPL0_SSM p, qlF R.TIME_QL_UPL0_EXT p],
      f ∈ qlFields p ∧ ∀ g ∈ [R.TIME_EVENT_QL_CHANGE], g.apart f = true := by decide
  refine ⟨((State.setBlocked_within_kept hiu hn hku b).uplPort (by decide) (by decide) p).trans port, h1, h2, fun f hf => ?_⟩
  obtain ⟨hm, he⟩ := hev p f hf
  exact ((State.setBlocked_spares hiu hn hku b).getF f (hok f hm) (hap f hm) (by simp) hiu).trans
    (hu.getF f (hok f hm) he (by simp) hi)

theorem esmcPduRx_takes {ssm : Fin 16} {e : Option (Fin 256)} {u : Nat} (hi : s.Inv) (hc : s.uplCarries p = true)
    (hk : s.rootKept = true) : Completes (.esmcPduRx p ssm e u) s fun t => (t.uplPort p).ql = some (ssm : Nat) ∧
      (t.uplPort p).qlAt = max s.mtb u ∧ t.getF (qlF R.TIME_QL_UPL0_SSM p) = ssm ∧
      t.isSet (qlF R.TIME_QL_UPL0_EXT p) = e.isSome ∧ t.isSet (qlF R.TIME_QL_UPL0_TIMEOUT p) = false ∧
      t.isSet (srcF R.CLK_SRC_UPL0_BLOCKED p) = s.qlBlocks ssm := by
  have hia : (s.advance u).Inv := hi
  have hka : (s.advance u).rootKept = true := hk
  have hs := (s.advance u).qlShown_spares p ssm e
  obtain ⟨-, hkept, hopt, -⟩ := qlFields_ok p
  have opt (v : UplPort) : (((s.advance u).qlShown p ssm e).setUpl p v).qlBlocks ssm = s.qlBlocks ssm := by
    have hr : ((s.advance u).qlShown p ssm e).Spares [] [] (((s.advance u).qlShown p ssm e).setUpl p v) :=
      (State.setUpl_within (.refl [.upl0, .upl1] _) (List.Subset.refl _) p v).spares (by decide)
    rw [State.qlBlocks, hr.isSet (hs.inv hia) (by decide) (by simp) (by simp), hs.isSet hia (by decide) hopt (by simp),
      State.qlBlocks]
    rfl
  have he : ∃ c v, v.ql = some (ssm : Nat) ∧ v.qlAt = max s.mtb u ∧
      execEsmcPduRx p ssm e u s = .next (((s.advance u).qlShown p ssm e).qlJudged p v c (s.qlBlocks ssm)) := by
    have hmtb : ((s.advance u).qlShown p ssm e).mtb = max s.mtb u := by
      unfold State.qlShown
      split <;> simp only [State.setF_mtb, State.setB_eq, State.advance_mtb]
    refine ⟨(s.advance u).isSet (qlF R.TIME_QL_UPL0_TIMEOUT p) || decide ((s.advance u).getF (qlF R.TIME_QL_UPL0_SSM p) ≠ ssm),
      { ((s.advance u).qlShown p ssm e).uplPort p with ql := some ssm, qlAt := ((s.advance u).qlShown p ssm e).mtb },
      rfl, hmtb, ?_⟩
    rw [State.qlJudged, ← opt { ((s.advance u).qlShown p ssm e).uplPort p with
      ql := some ssm, qlAt := ((s.advance u).qlShown p ssm e).mtb }]
    unfold execEsmcPduRx
    rw [if_pos (State.uplCarries_rootRuns hc)]
    exact if_neg (by
      have : (s.advance u).uplCarries p = true := hc
      simp [this])
  obtain ⟨c, v, hql, hat, he⟩ := he
  have hkq := (hs.rootKept hia hkept (by simp)).trans hka
  obtain ⟨h1, h2, -, h4⟩ := State.qlJudged_spec (hs.inv hia) hkq p v c (s.qlBlocks ssm)
  obtain ⟨k1, k2, k3⟩ := (s.advance u).qlShown_spec p ssm.isLt e
  simp only [List.forall_mem_cons] at h4
  obtain ⟨f1, f2, f3, -⟩ := h4
  refine ⟨_, he, by rw [h1, hql], by rw [h1, hat], f2.trans k1, ?_, ?_, h2⟩
  · rw [State.isSet, f3]
    exact k2
  · rw [State.isSet, f1]
    exact k3

theorem esmcTimeout_fails {u : Nat} (hi : s.Inv) (hr : s.rootRuns = true) (hk : s.rootKept = true)
    (ht : (s.uplPort p).qlAt + 5 * secCyc ≤ max s.mtb u) : Completes (.esmcTimeout p u) s fun t =>
      t.isSet (qlF R.TIME_QL_UPL0_TIMEOUT p) = true ∧ (t.uplPort p).ql = none ∧
      t.isSet (srcF R.CLK_SRC_UPL0_BLOCKED p) = true ∧ t.srcQual p = false := by
  have hok := (qlFields_ok p).1 (qlF R.TIME_QL_UPL0_TIMEOUT p) (by simp [qlFields])
  have h0 : s.Spares (qlFields p) [] (s.advance u) := ⟨id, fun _ _ _ _ _ => rfl⟩
  have hs := h0.setF (g := qlF R.TIME_QL_UPL0_TIMEOUT p) (by simp [qlFields]) (Field.ok_fits hok) 1
  have he : ∃ c v, v.ql = none ∧ execEsmcTimeout p u s =
      .next (((s.advance u).setF (qlF R.TIME_QL_UPL0_TIMEOUT p) 1).qlJudged p v c true) := by
    refine ⟨!(s.advance u).isSet (qlF R.TIME_QL_UPL0_TIMEOUT p), { (s.advance u).uplPort p with ql := none }, rfl, ?_⟩
    unfold execEsmcTimeout
    rw [if_pos hr]
    have hp : (s.advance u).uplPort p = s.uplPort p := rfl
    have hq : (s.advance u).rootRuns = true := hr
    exact if_pos (by rw [hp, hq, State.advance_mtb, decide_eq_true ht]; rfl)
  obtain ⟨c, v, hv, he⟩ := he
  have hkq := (hs.rootKept hi (qlFields_ok p).2.1 (by simp)).trans hk
  obtain ⟨h1, h2, h3, h4⟩ := State.qlJudged_spec (hs.inv hi) hkq p v c true
  refine ⟨_, he, ?_, by rw [h1, hv], h2, h3 rfl⟩
  rw [State.isSet, h4 _ (by simp)]
  exact State.isSet_setF_one _ hok rfl

theorem State.each_emit {α : Type} (l : List α) (f : α → Msg) (s : State) :
    (s.each l (fun s a => s.emit (f a))).out = (l.map f).reverse ++ s.out ∧ (s.each l (fun s a => s.emit (f a))).regs = s.regs := by
  induction l generalizing s with
  | nil => exact ⟨rfl, rfl⟩
  | cons a l ih =>
    obtain ⟨h1, h2⟩ := ih (s.emit (f a))
    have he : s.each (a :: l) (fun s a => s.emit (f a)) = (s.emit (f a)).each l (fun s a => s.emit (f a)) := rfl
    rw [he, h1, h2]
    exact ⟨by simp [State.emit], rfl⟩

theorem esmcSend_sends (s : State) : Completes .esmcSend s fun t =>
    t.out = ((([0, 1] : List Nat).filter s.uplCarries).map (fun p => Msg.esmc p)).reverse ++ s.out ∧ t.regs = s.regs :=
  ⟨_, rfl, State.each_emit _ _ s⟩

/-! ### Received frames (R297, R300, R327) -/

theorem State.queue_setQueue (s : State) (q : Nat) (v : Queue) : (s.setQueue q v).queue q = v := Store.get_set_same _ _ _ _

theorem State.queue_congr {s t : State} (h : t.queues = s.queues) (q : Nat) : t.queue q = s.queue q := by
  rw [State.queue, State.queue, h]

/-- The watermarks leave the entries as they are. -/
theorem State.watermark_entries (s : State) (q : Nat) : ((s.watermark q).queue q).entries = (s.queue q).entries := by
  unfold State.watermark
  extract_lets v
  split
  · rw [State.crossUp, State.queue_setQueue]
  · split
    · rw [State.crossDown, State.queue_setQueue]
    · rfl

/-- An entry taken goes in last, with the time from which it is visible. -/
theorem State.queueAppend_last (s : State) (q : Nat) (e : Entry) :
    ∃ v, ((s.queueAppend q e).queue q).entries.getLast? = some { e with vis := v } := by
  unfold State.queueAppend
  dsimp only
  rw [State.watermark_entries, State.queue_setQueue]
  exact ⟨_, List.getLast?_concat⟩

/-- A producer that is neither losing a frame nor being dropped, with a credit and room in its FIFO, has its entry taken. -/
theorem State.enqueue_taken {q : Nat} {e : Entry} (hr : (s.queueRec q).isSome = true) (hc : 0 < (s.queue q).credit e.src)
    (hf : s.fifoFull q e.src = false) (hd : e.src ∉ (s.queue q).dropping ++ (s.queue q).losing) :
    s.enqueue q e = ((s.setQueue q ((s.queue q).spend e.src)).queueAppend q e).answer ST.OK := by
  rw [List.mem_append, not_or] at hd
  have h1 : ¬ (s.queueRec q).isNone = true := by
    rw [Option.isNone_eq_false_iff.mpr hr]
    exact Bool.false_ne_true
  have h2 : ¬ (decide ((s.queue q).credit e.src = 0) || s.fifoFull q e.src) = true := by
    rw [hf, decide_eq_false (by omega)]
    exact Bool.false_ne_true
  have h3 : e.src ∉ ((s.setQueue q ((s.queue q).spend e.src)).queue q).dropping := by
    rw [State.queue_setQueue]
    exact hd.1
  rw [State.enqueue, if_neg h1, if_neg hd.2, if_neg h2, State.queueTake, State.queueTakePaid, if_neg h3]

/-- The IPv4 frame's count (R363). -/
def State.v4Counted (s : State) (l : List Byte) (ok : Bool) : State :=
  if s.running && ok && decide (beNat ((l.drop 12).take 2) = 0x0800) then { s with ry := { s.ry with ipv4 := s.ry.ipv4 + 1 } } else s

theorem State.v4Counted_eq (s : State) (l : List Byte) (ok : Bool) : s.v4Counted l ok = { s with ry := { s.ry with
    ipv4 := s.ry.ipv4 + (if s.running && ok && beNat ((l.drop 12).take 2) = 0x0800 then 1 else 0) } } := by
  unfold State.v4Counted
  split
  · rfl
  · rfl

/-- The entry of a received frame. -/
def frameEntry (p : Fin 2) (a : Nat) (l : List Byte) (ok : Bool) : Entry :=
  ⟨a, l.length, if ok then 3 else 7, 0x48 + 0x10 * p, 0, 0, [], 0⟩

/-- What a received frame that the port carries does to its queue. -/
def State.frameTaken (s : State) (p : Fin 2) (q : Nat) (l : List Byte) (ok : Bool) : State :=
  match s.frameIn l.length with
  | none => s.frameDrop l.length
  | some (a, u) =>
    let u := (u.writeBytes a l).enqueue q (frameEntry p a l ok)
    if u.resp = ST.QUEUE_DISCARDED then u.pktFree a else u

theorem execUplFrameRx_eq {q : Fin 256} {l : List Byte} {ok : Bool} (hc : s.uplCarries p = true)
    (hq : (s.producedBy (0x48 + 0x10 * (p : Nat))).contains q.val = true) :
    execUplFrameRx p q l ok s = .next ((s.v4Counted l ok).frameTaken p q l ok) := by
  have hx : (if (s.uplCarries p && (s.running && ok && decide (beNat ((l.drop 12).take 2) = 0x0800))) = true
      then ({ s with ry := { s.ry with ipv4 := s.ry.ipv4 + 1 } } : State) else s) = s.v4Counted l ok := by
    rw [hc, Bool.true_and]
    rfl
  have h1 : ¬ (!(s.v4Counted l ok).uplCarries p ||
      !((s.v4Counted l ok).producedBy (0x48 + 0x10 * (p : Nat))).contains q.val) = true := by
    have e1 : (s.v4Counted l ok).uplCarries p = true := by
      rw [State.v4Counted_eq]
      exact hc
    have e2 : ((s.v4Counted l ok).producedBy (0x48 + 0x10 * (p : Nat))).contains q.val = true := by
      rw [State.v4Counted_eq]
      exact hq
    rw [e1, e2]
    exact Bool.false_ne_true
  unfold execUplFrameRx
  dsimp only
  rw [hx, if_neg h1, State.frameTaken]
  rcases (s.v4Counted l ok).frameIn l.length with _ | ⟨a, u⟩
  · rfl
  · rfl

theorem State.frameIn_some {n a : Nat} (hn : n ≤ 2048) (ha : s.pktTake.1 = some a) : s.frameIn n = some (a, s.pktTake.2) := by
  unfold State.frameIn
  rw [if_neg (Nat.not_lt.mpr hn)]
  split
  · next b t h =>
    rw [h] at ha
    cases ha
    rw [h]
  · next h =>
    rw [h] at ha
    cases ha

theorem State.frameIn_none {n : Nat} (h : 2048 < n ∨ s.pktTake.1 = none) : s.frameIn n = none := by
  unfold State.frameIn
  split
  · rfl
  · next hn =>
    split
    · next b t hb =>
      rw [hb] at h
      exact absurd (h.resolve_left hn) (by simp)
    · rfl

/-- What the take of a packet buffer depends on. -/
theorem State.pktTake_congr {s t : State} (hm : t.ms = s.ms) (hk : t.pickFree s.ms.pktTaken t.pktCount =
    s.pickFree s.ms.pktTaken s.pktCount) (hb : t.pktBase = s.pktBase) : t.pktTake.1 = s.pktTake.1 ∧ t.pktTake.2.ms = s.pktTake.2.ms := by
  unfold State.pktTake
  rw [hm, hk, hb]
  cases s.pickFree s.ms.pktTaken s.pktCount with
  | none => exact ⟨rfl, hm⟩
  | some k => exact ⟨rfl, rfl⟩

/-- What a queue's lookups depend on. -/
theorem State.fifoFull_congr {s t : State} (hq : t.queues = s.queues) (hm : t.mtb = s.mtb) (q ep : Nat) :
    t.fifoFull q ep = s.fifoFull q ep := by
  rw [State.fifoFull, State.fifoFull, State.queue_congr hq, hm]

/-- The buffer, the octets and the place of a received frame for which there is a buffer. -/
theorem State.frameTaken_queued {q : Fin 256} {l : List Byte} {ok : Bool} {a : Nat} (hl : l.length ≤ 2048)
    (hr : (s.queueRec q).isSome = true) (hc : 0 < (s.queue q).credit (0x48 + 0x10 * (p : Nat)))
    (hf : s.fifoFull q (0x48 + 0x10 * (p : Nat)) = false)
    (hd : (0x48 + 0x10 * (p : Nat)) ∉ (s.queue q).dropping ++ (s.queue q).losing) (ha : s.pktTake.1 = some a) :
    (s.frameTaken p q l ok).ms = s.pktTake.2.ms ∧ (s.frameTaken p q l ok).readBytes a l.length = l ∧
    ((s.frameTaken p q l ok).queue q).entries.getLast?.map (fun (e : Entry) => (e.addr, e.len, e.flags, e.src)) =
      some (a, l.length, if ok then 3 else 7, 0x48 + 0x10 * (p : Nat)) := by
  have hw : State.Within [.freeIx, .ms, .mem] s (s.pktTake.2.writeBytes a l) :=
    State.writeBytes_within (within2_snd (State.pktTake_within (.refl _ s) (by decide))) (by decide) a l
  have hqs := hw.same .queues (by decide)
  have hqe : (s.pktTake.2.writeBytes a l).queue q = s.queue q := State.queue_congr hqs q
  have hrec : ((s.pktTake.2.writeBytes a l).queueRec q).isSome = true := by
    rw [State.queueRec, hw.same .pr (by decide)]
    exact hr
  have htaken := State.enqueue_taken (s := s.pktTake.2.writeBytes a l) (e := frameEntry p a l ok) hrec (by rw [hqe]; exact hc)
    ((State.fifoFull_congr hqs (hw.same .mtb (by decide)) _ _).trans hf) (by rw [hqe]; exact hd)
  generalize hv : ((s.pktTake.2.writeBytes a l).setQueue q (((s.pktTake.2.writeBytes a l).queue q).spend (frameEntry p a l ok).src)) = v
    at htaken
  have hx : s.frameTaken p q l ok = (v.queueAppend q (frameEntry p a l ok)).answer ST.OK := by
    unfold State.frameTaken
    rw [State.frameIn_some hl ha]
    dsimp only
    rw [htaken]
    exact if_neg (by decide : ¬ ST.OK = ST.QUEUE_DISCARDED)
  have hap : State.Within [.block 15, .freeIx, .notes, .queues] (s.pktTake.2.writeBytes a l) (v.queueAppend q (frameEntry p a l ok)) := by
    rw [← hv]
    exact State.queueAppend_within (State.setQueue_within (.refl _ _) (by decide) _ _) (by decide) _ _
  rw [hx]
  refine ⟨?_, ?_, ?_⟩
  · rw [State.answer_ms, hap.same .ms (by decide), State.writeBytes_ms]
  · rw [State.readBytes_congr (State.answer_mem ..), State.readBytes_congr (hap.same .mem (by decide)), State.readBytes_writeBytes]
  · obtain ⟨x, hlast⟩ := State.queueAppend_last v q (frameEntry p a l ok)
    rw [State.queue_congr (State.answer_queues ..), hlast]
    rfl

theorem State.frameTaken_dropped {q : Fin 256} {l : List Byte} {ok : Bool} (h : 2048 < l.length ∨ s.pktTake.1 = none) :
    s.frameTaken p q l ok = s.frameDrop l.length := by
  unfold State.frameTaken
  rw [State.frameIn_none h]

theorem State.frameTaken_ry (q : Fin 256) (l : List Byte) (ok : Bool) : (s.frameTaken p q l ok).ry = s.ry := by
  have hw : State.Within [.block 15, .block 16, .freeIx, .mem, .ms, .notes, .queues, .resp] s (s.frameTaken p q l ok) := by
    unfold State.frameTaken
    split
    · exact State.frameDrop_within (.refl _ s) (by decide) _
    · next a u h =>
      have hu : u = s.pktTake.2 := by
        unfold State.frameIn at h
        split at h
        · cases h
        · split at h
          · next hp => rw [hp]; cases h; rfl
          · cases h
      have he := State.enqueue_within (State.writeBytes_within (within2_snd (State.pktTake_within (.refl [.block 15, .block 16, .freeIx,
        .mem, .ms, .notes, .queues, .resp] s) (by decide))) (by decide) a l) (by decide) q (frameEntry p a l ok)
      rw [hu]
      exact within_ite (fun _ => State.pktFree_within he (by decide) a) fun _ => he
  exact hw.same .ry (by decide)

theorem State.pktTake_v4Counted (s : State) (l : List Byte) (ok : Bool) :
    (s.v4Counted l ok).pktTake.1 = s.pktTake.1 ∧ (s.v4Counted l ok).pktTake.2.ms = s.pktTake.2.ms := by
  rw [State.v4Counted_eq]
  exact State.pktTake_congr rfl rfl rfl

theorem uplFrameRx_queues {q : Fin 256} {l : List Byte} {ok : Bool} (hc : s.uplCarries p = true)
    (hp : (s.producedBy (0x48 + 0x10 * (p : Nat))).contains q.val = true) (hl : l.length ≤ 2048)
    (hr : (s.queueRec q).isSome = true) (hcr : 0 < (s.queue q).credit (0x48 + 0x10 * (p : Nat)))
    (hf : s.fifoFull q (0x48 + 0x10 * (p : Nat)) = false)
    (hd : (0x48 + 0x10 * (p : Nat)) ∉ (s.queue q).dropping ++ (s.queue q).losing) : Completes (.uplFrameRx p q l ok) s fun t =>
      (∀ a, s.pktTake.1 = some a → t.ms.pktTaken = s.pktTake.2.ms.pktTaken ∧ t.readBytes a l.length = l ∧
        (t.queue q).entries.getLast?.map (fun (e : Entry) => (e.addr, e.len, e.flags, e.src)) =
          some (a, l.length, if ok then 3 else 7, 0x48 + 0x10 * (p : Nat))) ∧
      (t.ry.ipv4 = s.ry.ipv4 + (if s.running && ok && beNat ((l.drop 12).take 2) = 0x0800 then 1 else 0)) := by
  refine ⟨_, execUplFrameRx_eq hc hp, fun a ha => ?_, ?_⟩
  · have htake := s.pktTake_v4Counted l ok
    have hrec : ((s.v4Counted l ok).queueRec q).isSome = true := by
      rw [State.v4Counted_eq]
      exact hr
    have hq : (s.v4Counted l ok).queue q = s.queue q := by
      rw [State.v4Counted_eq]
      rfl
    have hff : (s.v4Counted l ok).fifoFull q (0x48 + 0x10 * (p : Nat)) = false := by
      rw [State.v4Counted_eq]
      exact hf
    obtain ⟨h1, h2, h3⟩ := State.frameTaken_queued (ok := ok) hl hrec (by rwa [hq]) hff (by rwa [hq]) (htake.1.trans ha)
    exact ⟨by rw [h1, htake.2], h2, h3⟩
  · rw [State.frameTaken_ry, State.v4Counted_eq]

theorem uplFrameRx_discards {q : Fin 256} {l : List Byte} {ok : Bool} (hc : s.uplCarries p = true)
    (hp : (s.producedBy (0x48 + 0x10 * (p : Nat))).contains q.val = true) (h : 2048 < l.length ∨ s.pktTake.1 = none) :
    Completes (.uplFrameRx p q l ok) s fun t => t.getF R.MEM_POOL_DROPS = min R.MEM_POOL_DROPS.max (s.getF R.MEM_POOL_DROPS + 1) ∧
      t.getF R.MEM_EVENT_POOL_EMPTY = 1 ∧ t.queues = s.queues := by
  have h' : 2048 < l.length ∨ (s.v4Counted l ok).pktTake.1 = none := by
    refine h.imp_right fun h => ?_
    rwa [(s.pktTake_v4Counted l ok).1]
  have hg : (s.v4Counted l ok).getF R.MEM_POOL_DROPS = s.getF R.MEM_POOL_DROPS ∧ (s.v4Counted l ok).queues = s.queues := by
    rw [State.v4Counted_eq]
    exact ⟨rfl, rfl⟩
  refine ⟨_, execUplFrameRx_eq hc hp, (?_ : _ ∧ _)⟩
  rw [State.frameTaken_dropped h', State.frameDrop, State.getF_answer, State.getF_answer]
  refine ⟨?_, State.getF_raise_same _ _ (by decide) rfl, ?_⟩
  · rw [State.getF_raise_ne _ _ _ (by decide) (by decide) (by decide), State.getF_bump _ (by decide), hg.1]
  · rw [State.answer_queues, State.raise_queues, State.bump_eq, State.setF_queues, hg.2]
end
end Sys2Proof.Machine

section
open Sys2Proof Sys2Proof.Machine

/-- Settles O8: flow control by the port's record of pauses, the quality level by what a block of the source writes where the root
source is kept, a frame by the queue's own append. -/
theorem upstreamFlowAndFrames : Obligations.UpstreamFlowAndFrames := by
  unfold Obligations.UpstreamFlowAndFrames
  intro s hi
  refine ⟨?_, ?_, ?_, ?_, ?_, ?_, ?_, ?_, ?_, ?_⟩
  · exact fun p q u h => pauseFrameRx_obeys h
  · exact fun p l u h => pfcFrameRx_obeys h
  · exact fun p k u e h hu => pauseQuantaEnd_ends h hu
  · exact fun p u hc hn => fcFrameSend_sends hc hn
  · exact fun p u l hc hl hn => fcFrameRepeat_sends hc hl hn
  · exact fun p ssm e u hc hk => esmcPduRx_takes hi hc hk
  · exact fun p u hr hk ht => esmcTimeout_fails hi hr hk ht
  · exact esmcSend_sends s
  · exact fun p q l ok hc hp hl hr hcr hf hd => uplFrameRx_queues hc hp hl hr hcr hf hd
  · exact fun p q l ok hc hp h => uplFrameRx_discards hc hp h

end

namespace Sys2Proof.Machine
open Sys2Proof

/-! ### What a shuttle's operations do to its transceiver (R199 to R206) -/

/-- The parts of a transceiver that neither completion records nor the coexistence lines change, but for its plan. -/
structure Trx.Alike (v w : Trx) : Prop where
  orders : w.orders = v.orders
  onAir : w.onAir = v.onAir
  step : w.step = v.step
  cal : w.cal = v.cal
  relock : w.relock = v.relock

section
variable {s t u : State} {n : Nat} {v w x : Trx}

theorem Trx.Alike.refl (v : Trx) : v.Alike v := ⟨rfl, rfl, rfl, rfl, rfl⟩

theorem Trx.Alike.trans (h : v.Alike w) (k : w.Alike x) : v.Alike x :=
  ⟨k.orders.trans h.orders, k.onAir.trans h.onAir, k.step.trans h.step, k.cal.trans h.cal, k.relock.trans h.relock⟩

theorem State.trx_setTrx (s : State) (n : Nat) (v : Trx) : (s.setTrx n v).trx n = v := Store.get_set_same _ _ _ _

theorem State.trx_congr (h : t.rd = s.rd) (n : Nat) : t.trx n = s.trx n := by rw [State.trx, State.trx, h]

theorem State.Within.trx {T : List Part} (h : State.Within T s t) (hr : .rd ∉ T) (n : Nat) : t.trx n = s.trx n :=
  State.trx_congr (h.same .rd hr) n

/-- An operation that leaves the plan and what `Trx.Alike` names of a transceiver. -/
structure State.KeepsTrx (n : Nat) (s t : State) : Prop where
  alike : (s.trx n).Alike (t.trx n)
  plan : (t.trx n).plan = (s.trx n).plan

theorem State.KeepsTrx.of_eq (h : t.trx n = s.trx n) : s.KeepsTrx n t := ⟨by rw [h]; exact .refl _, by rw [h]⟩

theorem State.KeepsTrx.refl (n : Nat) (s : State) : s.KeepsTrx n s := .of_eq rfl

theorem State.KeepsTrx.trans (h : s.KeepsTrx n t) (k : t.KeepsTrx n u) : s.KeepsTrx n u :=
  ⟨h.alike.trans k.alike, k.plan.trans h.plan⟩

theorem State.KeepsTrx.within {T : List Part} (h : State.Within T s t) (hr : .rd ∉ T) (n : Nat) : s.KeepsTrx n t := .of_eq (h.trx hr n)

theorem State.KeepsTrx.setTrx (h : (s.trx n).Alike v) (hp : v.plan = (s.trx n).plan) : s.KeepsTrx n (s.setTrx n v) :=
  ⟨by rwa [State.trx_setTrx], by rw [State.trx_setTrx, hp]⟩

theorem State.KeepsTrx.ite {c : Prop} [Decidable c] (ht : c → s.KeepsTrx n t) (hu : ¬ c → s.KeepsTrx n u) :
    s.KeepsTrx n (if c then t else u) := by
  split
  · exact ht ‹_›
  · exact hu ‹_›

theorem State.KeepsTrx.each {α : Type} (l : List α) {f : State → α → State} (hf : ∀ (t : State) a, t.KeepsTrx n (f t a)) (s : State) :
    s.KeepsTrx n (s.each l f) :=
  State.each_induct (P := fun t => s.KeepsTrx n t) l f (.refl n s) fun t a ht => ht.trans (hf t a)

theorem State.coexLines_keepsTrx (s : State) (n k : Nat) : s.KeepsTrx n (s.coexLines n k) :=
  .within (State.coexLines_within (.refl [.out] s) (List.Subset.refl _) n k) (by decide) n

theorem State.coexCheck_keepsTrx (s : State) (n : Nat) : s.KeepsTrx n (s.coexCheck n) := by
  unfold State.coexCheck
  split
  · exact .refl n s
  · dsimp only
    refine .ite (fun _ => .refl n s) fun _ => ?_
    refine State.KeepsTrx.trans (.setTrx ?_ ?_) (State.coexLines_keepsTrx _ n _)
    · exact ⟨rfl, rfl, rfl, rfl, rfl⟩
    · rfl

theorem State.showTx_trx (s : State) (n : Nat) : (s.showTx n).trx n = s.trx n :=
  (State.showTx_within (.refl [.block 7] s) (List.Subset.refl _) n).trx (by decide) n

/-! ### The plan's head planned anew (R202, R203) -/

/-- A command of the plan once its head `h` has been planned for `dep`. -/
def TxCmd.planAnew (h : TxCmd) (dep : Nat) (c : TxCmd) : TxCmd :=
  if c.order = h.order then c.place dep else { c with planned := false }

/-- A plan once its head has been planned anew. -/
def State.planAnew (s : State) (n : Nat) : List TxCmd :=
  match planHead (s.trx n).plan with
  | none => (s.trx n).plan
  | some h => (s.trx n).plan.map (h.planAnew (s.planDep n h))

theorem State.planAnew_none (h : planHead (s.trx n).plan = none) : s.planAnew n = (s.trx n).plan := by
  rw [State.planAnew, h]

theorem State.planAnew_some {h : TxCmd} (hh : planHead (s.trx n).plan = some h) :
    s.planAnew n = (s.trx n).plan.map (h.planAnew (s.planDep n h)) := by
  rw [State.planAnew, hh]

theorem State.replan_spec (s : State) (n : Nat) :
    (s.trx n).Alike ((s.replan n).trx n) ∧ ((s.replan n).trx n).plan = s.planAnew n := by
  unfold State.replan
  dsimp only
  rw [State.showTx_trx]
  split
  · next hh =>
    have hk := s.coexCheck_keepsTrx n
    exact ⟨hk.alike, hk.plan.trans (State.planAnew_none hh).symm⟩
  · next h hh =>
    have hk := State.coexCheck_keepsTrx (s.setTrx n { s.trx n with plan := (s.trx n).plan.map (fun (c : TxCmd) =>
      if c.order = h.order then c.place (s.planDep n h) else { c with planned := false }) }) n
    refine ⟨Trx.Alike.trans ?_ hk.alike, hk.plan.trans ?_⟩
    · rw [State.trx_setTrx]
      exact ⟨rfl, rfl, rfl, rfl, rfl⟩
    · rw [State.trx_setTrx, State.planAnew_some hh]
      rfl

/-- A map that leaves what a command asks for. -/
structure TxCmd.Keeps (f : TxCmd → TxCmd) : Prop where
  order : ∀ c, (f c).order = c.order
  braid : ∀ c, (f c).braid = c.braid
  descs : ∀ c, (f c).members.map (·.desc) = c.members.map (·.desc)

theorem TxCmd.planAnew_keeps (h : TxCmd) (dep : Nat) : TxCmd.Keeps (h.planAnew dep) := by
  refine ⟨fun c => ?_, fun c => ?_, fun c => ?_⟩
  · unfold TxCmd.planAnew
    split <;> rfl
  · unfold TxCmd.planAnew
    split <;> rfl
  · unfold TxCmd.planAnew
    split
    · simp only [TxCmd.place, List.map_map]
      rfl
    · rfl

theorem TxCmd.keeps_id : TxCmd.Keeps id := ⟨fun _ => rfl, fun _ => rfl, fun _ => rfl⟩

/-- Planning anew is a map over the plan that leaves what the commands ask for. -/
theorem State.planAnew_eq (s : State) (n : Nat) : ∃ f, TxCmd.Keeps f ∧ s.planAnew n = (s.trx n).plan.map f := by
  cases hh : planHead (s.trx n).plan with
  | none => exact ⟨id, TxCmd.keeps_id, (State.planAnew_none hh).trans (List.map_id _).symm⟩
  | some h => exact ⟨_, h.planAnew_keeps _, State.planAnew_some hh⟩

theorem TxCmd.Keeps.orders {f : TxCmd → TxCmd} (h : TxCmd.Keeps f) (l : List TxCmd) :
    (l.map f).map (·.order) = l.map (·.order) := by
  rw [List.map_map]
  exact List.map_congr_left fun c _ => h.order c

theorem TxCmd.Keeps.lengths {f : TxCmd → TxCmd} (h : TxCmd.Keeps f) (c : TxCmd) : (f c).members.length = c.members.length := by
  simpa using congrArg List.length (h.descs c)

/-- The members of a plan, counted. -/
def plannedOf (l : List TxCmd) : Nat := l.foldl (fun n c => n + c.members.length) 0

theorem plannedOf_eq_sum (l : List TxCmd) : plannedOf l = (l.map (·.members.length)).sum := by
  rw [plannedOf, List.sum_eq_foldl, List.foldl_map]

theorem TxCmd.Keeps.planned {f : TxCmd → TxCmd} (h : TxCmd.Keeps f) (l : List TxCmd) : plannedOf (l.map f) = plannedOf l := by
  rw [plannedOf_eq_sum, plannedOf_eq_sum, List.map_map]
  exact congrArg List.sum (List.map_congr_left fun c _ => h.lengths c)

theorem TxCmd.Keeps.braidDescs {f : TxCmd → TxCmd} (h : TxCmd.Keeps f) (l : List TxCmd) :
    ((l.map f).find? (·.braid)).map (fun c => c.members.map (·.desc)) =
      (l.find? (·.braid)).map (fun c => c.members.map (·.desc)) := by
  have hb : ((fun c : TxCmd => c.braid) ∘ f) = fun c => c.braid := funext h.braid
  rw [List.find?_map, hb, Option.map_map]
  exact congrArg (Option.map · _) (funext h.descs)

/-- What planning anew writes. -/
def showFields (n : Nat) : List Field :=
  [R.TRX_TX_STAT_PLANNED n, R.TRX_TX_STAT_MEMBERS n, R.TRX_TX_STAT_BRAID_OPEN n, R.TRX_TX_STAT_HEAD_KIND n]

theorem State.replan_spares (s : State) (n : Nat) : s.Spares (showFields n) [] (s.replan n) := by
  have hshow (t : State) : t.Spares (showFields n) [] (t.showTx n) := by
    unfold State.showTx
    refine State.Spares.setF (State.Spares.setB (State.Spares.setF (State.Spares.setF (.refl _ _ t) ?_ ?_ _) ?_ ?_ _) ?_ ?_ _)
      ?_ ?_ _
    all_goals simp [showFields, R.TRX_TX_STAT_PLANNED, R.TRX_TX_STAT_MEMBERS, R.TRX_TX_STAT_BRAID_OPEN, R.TRX_TX_STAT_HEAD_KIND]
  have hcoex (t : State) : t.Spares (showFields n) [] (t.coexCheck n) :=
    (State.coexCheck_within (.refl [.out, .rd] t) (List.Subset.refl _) n).spares (by decide)
  have hset (v : Trx) : s.Spares (showFields n) [] (s.setTrx n v) :=
    (State.setTrx_within (.refl [.rd] s) (List.Subset.refl _) n v).spares (by decide)
  unfold State.replan
  dsimp only
  split
  · exact (hcoex _).trans (hshow _)
  · exact ((hset _).trans (hcoex _)).trans (hshow _)

/-! ### Completion records (R199) -/

theorem State.txRelease_keepsTrx (n : Nat) (fuel : Nat) (s : State) : s.KeepsTrx n (s.txRelease n fuel) := by
  induction fuel generalizing s with
  | zero => exact .refl n s
  | succ fuel ih =>
    unfold State.txRelease
    split
    · refine .ite (fun _ => .refl n s) fun _ => ?_
      have h1 : s.KeepsTrx n s.useFree := .of_eq rfl
      refine State.KeepsTrx.trans (State.KeepsTrx.trans (h1.trans (.setTrx (s := s.useFree) (n := n) ?_ ?_)) (.within (State.queueTake_within
        (.refl [.block 15, .freeIx, .ms, .notes, .queues] _) (List.Subset.refl _) _ _) (by decide) n)) (ih _)
      · exact ⟨rfl, rfl, rfl, rfl, rfl⟩
      · rfl
    · exact .refl n s

theorem State.txRelease_nil (h : (s.trx n).held = []) (fuel : Nat) : s.txRelease n fuel = s := by
  cases fuel with
  | zero => rfl
  | succ fuel =>
    unfold State.txRelease
    rw [h]
    split
    · next hd => cases hd
    · rfl

/-- What a completion record's count and events write. -/
def doneFields (n : Nat) : List Field :=
  [R.TRX_TX_COUNT0_SENT n, R.TRX_TX_COUNT0_LATE n, R.TRX_TX_EVENT_LATE n, R.TRX_TX_EVENT_FENCE n, R.TRX_TX_COUNT1_FLUSHED n,
    R.TRX_TX_EVENT_FLUSHED n]

/-- The counts and events of a completion record. -/
def State.doneCounted (s : State) (n st : Nat) (sent : Bool) : State :=
  let s := if sent then s.bump (R.TRX_TX_COUNT0_SENT n) else s
  let s := if st = ST.TX_LATE n ∨ st = ST.TX_BRAID_LATE n ∨ st = ST.TX_FENCE n then s.bump (R.TRX_TX_COUNT0_LATE n) else s
  let s := s.raiseIf (st = ST.TX_LATE n) (R.TRX_TX_EVENT_LATE n)
  let s := s.raiseIf (st = ST.TX_FENCE n && !sent) (R.TRX_TX_EVENT_FENCE n)
  if st = ST.TX_FLUSHED n then (s.bump (R.TRX_TX_COUNT1_FLUSHED n)).raise (R.TRX_TX_EVENT_FLUSHED n) else s

/-- A completion record handed over or held. -/
def State.doneHeld (s : State) (n : Nat) (r : List Byte) : State :=
  if (s.doneQueue n).isNone then s else (s.setTrx n { s.trx n with held := (s.trx n).held ++ [r] }).txRelease n 17

theorem State.txDone_eq (s : State) (n : Nat) (m : TxMember) (st : Nat) (sent early : Bool) :
    ∃ r, s.txDone n m st sent early = (s.doneCounted n st sent).doneHeld n r := ⟨_, rfl⟩

theorem State.doneHeld_within (s : State) (n : Nat) (r : List Byte) :
    State.Within [.block 15, .freeIx, .ms, .notes, .queues, .rd] s (s.doneHeld n r) :=
  within_ite (fun _ => .refl _ s) fun _ =>
    State.txRelease_within (State.setTrx_within (.refl _ s) (by decide) n _) (List.Subset.refl _) n 17

theorem State.doneCounted_spares (s : State) (n st : Nat) (sent : Bool) : s.Spares (doneFields n) [] (s.doneCounted n st sent) := by
  have fit : ∀ g ∈ doneFields n, g.lo + g.width ≤ 32 := by
    simp [doneFields, R.TRX_TX_COUNT0_SENT, R.TRX_TX_COUNT0_LATE, R.TRX_TX_EVENT_LATE, R.TRX_TX_EVENT_FENCE, R.TRX_TX_COUNT1_FLUSHED,
      R.TRX_TX_EVENT_FLUSHED]
  have bump {t : State} (h : s.Spares (doneFields n) [] t) {g : Field} (hg : g ∈ doneFields n) : s.Spares (doneFields n) [] (t.bump g) :=
    h.bump hg (fit g hg)
  have raiseIf {t : State} (h : s.Spares (doneFields n) [] t) {g : Field} (hg : g ∈ doneFields n) (c : Bool) :
      s.Spares (doneFields n) [] (t.raiseIf c g) := h.raiseIf hg (fit g hg) c
  have h1 : s.Spares (doneFields n) [] (if sent then s.bump (R.TRX_TX_COUNT0_SENT n) else s) :=
    .ite (fun _ => bump (.refl _ _ s) (by simp [doneFields])) fun _ => .refl _ _ s
  have h2 := State.Spares.ite (c := st = ST.TX_LATE n ∨ st = ST.TX_BRAID_LATE n ∨ st = ST.TX_FENCE n)
    (fun _ => bump h1 (g := R.TRX_TX_COUNT0_LATE n) (by simp [doneFields])) fun _ => h1
  have h3 := raiseIf (raiseIf h2 (g := R.TRX_TX_EVENT_LATE n) (by simp [doneFields]) (st = ST.TX_LATE n))
    (g := R.TRX_TX_EVENT_FENCE n) (by simp [doneFields]) (st = ST.TX_FENCE n && !sent)
  exact .ite (fun _ => (bump h3 (g := R.TRX_TX_COUNT1_FLUSHED n) (by simp [doneFields])).raise (by simp [doneFields])
    (by simp [R.TRX_TX_EVENT_FLUSHED])) fun _ => h3

theorem State.doneCounted_within (s : State) (n st : Nat) (sent : Bool) :
    State.Within [.block 7, .notes] s (s.doneCounted n st sent) := by
  unfold State.doneCounted
  have h1 : State.Within [.block 7, .notes] s (if sent then s.bump (R.TRX_TX_COUNT0_SENT n) else s) :=
    within_ite (fun _ => State.bump_within (.refl _ s) _ (Or.inr (by simp))) fun _ => .refl _ s
  have h2 := within_ite (c := st = ST.TX_LATE n ∨ st = ST.TX_BRAID_LATE n ∨ st = ST.TX_FENCE n)
    (fun _ => State.bump_within h1 (R.TRX_TX_COUNT0_LATE n) (Or.inr (by simp))) fun _ => h1
  have h3 := State.raiseIf_within (State.raiseIf_within h2 (by decide) (st = ST.TX_LATE n) (R.TRX_TX_EVENT_LATE n) (Or.inr (by simp)))
    (by decide) (st = ST.TX_FENCE n && !sent) (R.TRX_TX_EVENT_FENCE n) (Or.inr (by simp))
  exact within_ite (fun _ => State.raise_within (State.bump_within h3 _ (Or.inr (by simp))) (by decide) _ (Or.inr (by simp)))
    fun _ => h3

theorem State.txDone_spares (s : State) (n : Nat) (m : TxMember) (st : Nat) (sent early : Bool) :
    s.Spares (doneFields n) [15] (s.txDone n m st sent early) := by
  obtain ⟨r, h⟩ := s.txDone_eq n m st sent early
  rw [h]
  exact ((s.doneCounted_spares n st sent).mono (List.Subset.refl _) (by simp)).within (State.doneHeld_within _ n r) (by decide)

theorem State.txDone_keepsTrx (s : State) (n : Nat) (m : TxMember) (st : Nat) (sent early : Bool) :
    s.KeepsTrx n (s.txDone n m st sent early) := by
  obtain ⟨r, h⟩ := s.txDone_eq n m st sent early
  rw [h]
  refine (State.KeepsTrx.within (s.doneCounted_within n st sent) (by decide) n).trans ?_
  unfold State.doneHeld
  refine .ite (fun _ => .refl n _) fun _ => State.KeepsTrx.trans (.setTrx ?_ ?_) (State.txRelease_keepsTrx n 17 _)
  · exact ⟨rfl, rfl, rfl, rfl, rfl⟩
  · rfl

/-- A field of the records' own block stands after a record as its counts left it. -/
theorem State.getF_txDone (hi : s.Inv) (n : Nat) (m : TxMember) (st : Nat) (sent early : Bool) {f : Field} (hf : f.ok = true)
    (hb : regBlock f.addr ≠ 15) : (s.txDone n m st sent early).getF f = (s.doneCounted n st sent).getF f := by
  obtain ⟨r, h⟩ := s.txDone_eq n m st sent early
  rw [h]
  exact ((State.doneHeld_within _ n r).spares (l := []) (bs := [15]) (by decide)).getF f hf (by simp) (by simpa using hb)
    ((s.doneCounted_spares n st sent).inv hi)

end
end Sys2Proof.Machine

namespace Sys2Proof.Machine
open Sys2Proof

/-! ### A descriptor taken from the queues (R199, R201) -/

section
variable {s t : State} {n : Nat} {u q w : Nat} {e : Entry} {d : TxDesc}

/-- The state in which a shuttle judges the descriptor that it has taken from a queue. -/
def State.taken (s : State) (u q : Nat) (e : Entry) : State := ((s.advance u).dequeue q).emit (.entry q e)

theorem State.taken_within (s : State) (u q : Nat) (e : Entry) :
    State.Within [.block 15, .freeIx, .mtb, .notes, .out, .queues] s (s.taken u q e) :=
  State.emit_within (State.dequeue_within (State.advance_within (.refl _ s) (by decide) u) (by decide) q) (by decide) _

theorem State.taken_trx (s : State) (u q : Nat) (e : Entry) (n : Nat) : (s.taken u q e).trx n = s.trx n :=
  (s.taken_within u q e).trx (by decide) n

theorem State.dequeue_entries (he : s.head? q = some e) : ((s.dequeue q).queue q).entries = (s.queue q).entries.tail := by
  unfold State.dequeue
  rw [he]
  dsimp only
  rw [State.watermark_entries, State.queue_setQueue]

theorem State.taken_entries (he : s.head? q = some e) (u : Nat) : ((s.taken u q e).queue q).entries = (s.queue q).entries.tail :=
  State.dequeue_entries (s := s.advance u) he

/-- With no completion record held and room in its plan, a shuttle takes the first descriptor that is of the command's kind. -/
theorem State.txTake_eq {want : Nat → Bool} (hh : (s.trx n).held = [] ∧ (s.trx n).planned < 16)
    (hq : (s.consumedBy (0x20 + n)).find? (fun x => (s.head? x).isSome) = some q) (he : s.head? q = some e) (hd : s.txDescAt e = d)
    (hw : want d.kind = true) : s.txTake n u want = (s.taken u q e).txAccept n d := by
  have hrel : (s.advance u).txRelease n 17 = s.advance u := State.txRelease_nil (s := s.advance u) hh.1 17
  have hq' : ((s.advance u).consumedBy (0x20 + n)).find? (fun x => ((s.advance u).head? x).isSome) = some q := hq
  have he' : (s.advance u).head? q = some e := he
  have hd' : (s.advance u).txDescAt e = d := hd
  have hc : ¬ (decide (((s.advance u).trx n).held ≠ []) || decide (16 ≤ ((s.advance u).trx n).planned) || !want d.kind) = true := by
    have h1 : ((s.advance u).trx n).held = [] := hh.1
    have h2 : ((s.advance u).trx n).planned < 16 := hh.2
    simp [h1, hw, h2]
  unfold State.txTake
  simp only [hrel, hq', he', hd']
  exact if_neg hc

/-! ### A descriptor that nothing refuses -/

/-- The member that a descriptor asks for. -/
def State.memberOf (s : State) (n : Nat) (d : TxDesc) : TxMember :=
  { desc := d, air := s.txAir n d, rate := s.getF (R.TRX_WAKE_RATE n), pre := s.getF (R.TRX_WAKE_PRE_BITS n) }

/-- The command that a descriptor enters into the plan. -/
def State.commandOf (s : State) (n : Nat) (d : TxDesc) : TxCmd :=
  { members := [s.memberOf n d], budget := d.budget, braid := d.kind = 1, order := (s.trx n).orders }

/-- The plan with a new command at its end. -/
def State.entered (s : State) (n : Nat) (d : TxDesc) : State :=
  s.setTrx n { s.trx n with orders := (s.trx n).orders + 1, plan := (s.trx n).plan ++ [s.commandOf n d] }

/-- An append joins a command that is an open braid. -/
def TxCmd.joined (m : TxMember) (c : TxCmd) : TxCmd := if c.braid then c.join m else c

/-- The open braid with a new member. -/
def State.joined (s : State) (n : Nat) (d : TxDesc) : State :=
  s.setTrx n { s.trx n with plan := (s.trx n).plan.map (TxCmd.joined (s.memberOf n d)),
                            onAir := (s.trx n).onAir.map (TxCmd.joined (s.memberOf n d)) }

theorem State.txAccept_entered (hr : s.txRefusal n d = none) (hk : d.kind ≠ 2) :
    s.txAccept n d = ((s.entered n d).replan n).answer ST.OK := by
  unfold State.txAccept
  rw [hr]
  dsimp only
  rw [if_neg hk]
  rfl

theorem State.txAccept_joined (hr : s.txRefusal n d = none) (hk : d.kind = 2) :
    s.txAccept n d = ((s.joined n d).replan n).answer ST.OK := by
  unfold State.txAccept
  rw [hr]
  dsimp only
  rw [if_pos hk]
  rfl

theorem State.replan_queues (s : State) (n : Nat) : (s.replan n).queues = s.queues :=
  (State.replan_within (.refl [.block 7, .out, .rd] s) (List.Subset.refl _) n).same .queues (by decide)

theorem State.answer_trx (s : State) (st n : Nat) : (s.answer st).trx n = s.trx n := rfl

theorem State.entered_planned (s : State) (n : Nat) (d : TxDesc) :
    (((s.entered n d).replan n).trx n).planned = (s.trx n).planned + 1 := by
  obtain ⟨f, hf, hp⟩ := (s.entered n d).planAnew_eq n
  have hplan : ((s.entered n d).trx n).plan = (s.trx n).plan ++ [s.commandOf n d] := by
    rw [State.entered, State.trx_setTrx]
  calc plannedOf (((s.entered n d).replan n).trx n).plan = plannedOf ((s.trx n).plan ++ [s.commandOf n d]) := by
        rw [((s.entered n d).replan_spec n).2, hp, hf.planned, hplan]
    _ = plannedOf (s.trx n).plan + 1 := by
        simp [plannedOf_eq_sum, State.commandOf]

theorem State.entered_any {b : Bool} (s : State) (n : Nat) (hb : decide (d.kind = 1) = b) :
    (((s.entered n d).replan n).trx n).plan.any (fun (c : TxCmd) => decide (c.order = (s.trx n).orders) &&
      decide (c.members.map (fun (m : TxMember) => m.desc) = [d]) && decide (c.braid = b)) = true := by
  obtain ⟨f, hf, hp⟩ := (s.entered n d).planAnew_eq n
  have hplan : ((s.entered n d).trx n).plan = (s.trx n).plan ++ [s.commandOf n d] := by
    rw [State.entered, State.trx_setTrx]
  rw [((s.entered n d).replan_spec n).2, hp, hplan, List.any_eq_true]
  refine ⟨f (s.commandOf n d), List.mem_map_of_mem (by simp), ?_⟩
  rw [hf.order, hf.braid, hf.descs]
  simp [State.commandOf, State.memberOf, hb]

/-- A descriptor that nothing refuses enters the plan under the next order. -/
theorem State.txAccept_enters {b : Bool} (hr : s.txRefusal n d = none) (hk : d.kind ≠ 2) (hb : decide (d.kind = 1) = b) :
    ((s.txAccept n d).trx n).orders = (s.trx n).orders + 1 ∧ ((s.txAccept n d).trx n).planned = (s.trx n).planned + 1 ∧
      ((s.txAccept n d).trx n).plan.any (fun (c : TxCmd) => decide (c.order = (s.trx n).orders) &&
        decide (c.members.map (fun (m : TxMember) => m.desc) = [d]) && decide (c.braid = b)) = true ∧
      (s.txAccept n d).queues = s.queues ∧ (s.txAccept n d).resp = ST.OK := by
  rw [State.txAccept_entered hr hk, State.answer_trx]
  refine ⟨?_, s.entered_planned n d, s.entered_any n hb, ?_, rfl⟩
  · rw [((s.entered n d).replan_spec n).1.orders, State.entered, State.trx_setTrx]
  · rw [State.answer_queues, State.replan_queues]
    rfl

theorem TxCmd.joined_braid (m : TxMember) (c : TxCmd) : (c.joined m).braid = c.braid := by
  unfold TxCmd.joined
  split <;> rfl

theorem TxCmd.joined_descs (m : TxMember) {c : TxCmd} (h : c.braid = true) :
    (c.joined m).members.map (·.desc) = c.members.map (·.desc) ++ [m.desc] := by
  rw [TxCmd.joined, if_pos h, TxCmd.join, List.map_append]
  rfl

/-- The first open braid of a list to which a member has been joined. -/
theorem find_joined (m : TxMember) (l : List TxCmd) {b : TxCmd} (h : l.find? (·.braid) = some b) :
    (l.map (TxCmd.joined m)).find? (·.braid) = some (b.joined m) := by
  have hb : ((fun c : TxCmd => c.braid) ∘ TxCmd.joined m) = fun c => c.braid := funext (TxCmd.joined_braid m)
  rw [List.find?_map, hb, h]
  rfl

/-- What an open braid's members ask for, before and after its plan is planned anew. -/
theorem State.braid_replan (s : State) (n : Nat) :
    ((s.replan n).trx n).braid.map (fun c => c.members.map (·.desc)) = (s.trx n).braid.map (fun c => c.members.map (·.desc)) := by
  obtain ⟨ha, hp⟩ := s.replan_spec n
  obtain ⟨f, hf, hpf⟩ := s.planAnew_eq n
  rw [Trx.braid, Trx.braid, ha.onAir, hp, hpf, List.find?_append, List.find?_append, Option.map_or, Option.map_or, hf.braidDescs]

/-- An append that nothing refuses joins the open braid. -/
theorem State.txAccept_joins {b : TxCmd} (hr : s.txRefusal n d = none) (hk : d.kind = 2) (hb : (s.trx n).braid = some b) :
    ((s.txAccept n d).trx n).braid.map (fun (c : TxCmd) => c.members.map (fun (m : TxMember) => m.desc)) =
        some (b.members.map (fun (m : TxMember) => m.desc) ++ [d]) ∧
      ((s.txAccept n d).trx n).orders = (s.trx n).orders ∧ (s.txAccept n d).queues = s.queues ∧ (s.txAccept n d).resp = ST.OK := by
  rw [State.txAccept_joined hr hk, State.answer_trx]
  refine ⟨?_, ?_, ?_, rfl⟩
  · have hopen : b.braid = true := List.find?_some hb
    have hj : ((s.joined n d).trx n).braid = some (b.joined (s.memberOf n d)) := by
      rw [State.joined, State.trx_setTrx, Trx.braid]
      dsimp only
      rw [Option.toList_map, ← List.map_append]
      exact find_joined _ _ hb
    rw [State.braid_replan, hj, Option.map_some, TxCmd.joined_descs _ hopen]
    rfl
  · rw [((s.joined n d).replan_spec n).1.orders, State.joined, State.trx_setTrx]
  · rw [State.answer_queues, State.replan_queues]
    rfl

/-- What the command of a shuttle's does with a descriptor that nothing refuses and that is no append. -/
theorem State.txTake_enters {want : Nat → Bool} {b : Bool} (hh : (s.trx n).held = [] ∧ (s.trx n).planned < 16)
    (hq : (s.consumedBy (0x20 + n)).find? (fun x => (s.head? x).isSome) = some q) (he : s.head? q = some e) (hd : s.txDescAt e = d)
    (hw : want d.kind = true) (hk : d.kind ≠ 2) (hb : decide (d.kind = 1) = b) (hr : (s.taken u q e).txRefusal n d = none) :
    ((s.txTake n u want).trx n).orders = (s.trx n).orders + 1 ∧ ((s.txTake n u want).trx n).planned = (s.trx n).planned + 1 ∧
      ((s.txTake n u want).trx n).plan.any (fun (c : TxCmd) => decide (c.order = (s.trx n).orders) &&
        decide (c.members.map (fun (m : TxMember) => m.desc) = [d]) && decide (c.braid = b)) = true ∧
      ((s.txTake n u want).queue q).entries = (s.queue q).entries.tail ∧ (s.txTake n u want).resp = ST.OK := by
  obtain ⟨ho, hp, ha, hqs, hresp⟩ := State.txAccept_enters (b := b) hr hk hb
  rw [State.taken_trx] at ho hp ha
  rw [State.txTake_eq hh hq he hd hw]
  exact ⟨ho, hp, ha, by rw [State.queue_congr hqs, State.taken_entries he], hresp⟩

/-- What the command of a shuttle's does with an append that nothing refuses. -/
theorem State.txTake_joins {want : Nat → Bool} {b : TxCmd} (hh : (s.trx n).held = [] ∧ (s.trx n).planned < 16)
    (hq : (s.consumedBy (0x20 + n)).find? (fun x => (s.head? x).isSome) = some q) (he : s.head? q = some e) (hd : s.txDescAt e = d)
    (hw : want d.kind = true) (hk : d.kind = 2) (hb : (s.trx n).braid = some b) (hr : (s.taken u q e).txRefusal n d = none) :
    ((s.txTake n u want).trx n).braid.map (fun (c : TxCmd) => c.members.map (fun (m : TxMember) => m.desc)) =
        some (b.members.map (fun (m : TxMember) => m.desc) ++ [d]) ∧
      ((s.txTake n u want).trx n).orders = (s.trx n).orders ∧
      ((s.txTake n u want).queue q).entries = (s.queue q).entries.tail ∧ (s.txTake n u want).resp = ST.OK := by
  obtain ⟨hbr, ho, hqs, hresp⟩ := State.txAccept_joins (b := b) hr hk (by rwa [State.taken_trx])
  rw [State.taken_trx] at ho
  rw [State.txTake_eq hh hq he hd hw]
  exact ⟨hbr, ho, by rw [State.queue_congr hqs, State.taken_entries he], hresp⟩

/-! ### A descriptor that is refused -/

theorem State.trxRefuse_spares (s : State) (n w : Nat) :
    s.Spares [R.CLK_CMD_ERR_UNIT, R.CLK_CMD_ERR_STATUS, R.TRX_CMD_ERR_STATUS n] [] (s.trxRefuse n w) := by
  have hfit : (R.TRX_CMD_ERR_STATUS n).lo + (R.TRX_CMD_ERR_STATUS n).width ≤ 32 := by simp [R.TRX_CMD_ERR_STATUS]
  have hans (t : State) (st : Nat) :
      t.Spares [R.CLK_CMD_ERR_UNIT, R.CLK_CMD_ERR_STATUS, R.TRX_CMD_ERR_STATUS n] [] (t.answer st) :=
    (State.answer_within (.refl [.resp] t) (List.Subset.refl _) st).spares (by decide)
  refine .ite (fun _ => State.Spares.trans (State.Spares.setF ?_ (by simp) hfit _) (hans _ _))
    fun _ => ((State.Spares.refl _ _ s).setF (by simp) hfit _).trans (hans _ _)
  exact ((State.Spares.refl _ _ s).setF (by simp) (by decide) _).setF (by simp) (by decide) _

theorem State.getF_trxRefuse (s : State) (n w : Nat) (hok : (R.TRX_CMD_ERR_STATUS n).ok = true) :
    (s.trxRefuse n w).getF (R.TRX_CMD_ERR_STATUS n) = w % 2 ^ 16 := by
  unfold State.trxRefuse
  split
  · next h =>
    rw [State.gatedRefuse, State.refuse, State.getF_answer, State.getF_setF_same _ _ _ hok, h]
    rfl
  · rw [State.refuse, State.getF_answer, State.getF_setF_same _ _ _ hok]
    rfl

theorem State.trxRefuse_resp (s : State) (n w : Nat) : (s.trxRefuse n w).resp = w := by
  unfold State.trxRefuse
  split
  · next h => rw [h]; rfl
  · rfl

/-- The state of a refusal before its completion record. -/
def State.refused (s : State) (n w : Nat) : State :=
  ((s.trxRefuse n w).bump (R.TRX_TX_COUNT1_REFUSED n)).raiseIf (w = ST.TX_BRAID_CLOSED n) (R.TRX_TX_EVENT_BRAID_CLOSED n)

theorem State.txAccept_refused (hr : s.txRefusal n d = some w) :
    s.txAccept n d = (s.refused n w).txDone n (s.memberOf n d) w false false := by
  unfold State.txAccept
  rw [hr]
  rfl

theorem State.refused_within (s : State) (n w : Nat) : State.Within [.block 1, .block 7, .notes, .resp] s (s.refused n w) :=
  State.raiseIf_within (State.bump_within (State.trxRefuse_within (.refl _ s) (by decide) n w) _ (Or.inr (by simp))) (by decide) _ _
    (Or.inr (by simp))

theorem State.refused_resp (s : State) (n w : Nat) : (s.refused n w).resp = w := by
  have h : State.Within [.block 7, .notes] (s.trxRefuse n w) (s.refused n w) :=
    State.raiseIf_within (State.bump_within (.refl _ _) _ (Or.inr (by simp))) (by decide) _ _ (Or.inr (by simp))
  exact (h.same .resp (by decide)).trans (s.trxRefuse_resp n w)

/-- Where a refusal's own fields stand. -/
theorem refusalFields_apart : ∀ n : Fin 4, (R.TRX_CMD_ERR_STATUS n).ok = true ∧ (R.TRX_TX_COUNT1_REFUSED n).ok = true ∧
    (∀ g ∈ doneFields n, g.apart (R.TRX_CMD_ERR_STATUS n) = true) ∧ (∀ g ∈ doneFields n, g.apart (R.TRX_TX_COUNT1_REFUSED n) = true) ∧
    (∀ g ∈ [R.TRX_TX_COUNT1_REFUSED n, R.TRX_TX_EVENT_BRAID_CLOSED n], g.apart (R.TRX_CMD_ERR_STATUS n) = true) ∧
    (R.TRX_TX_EVENT_BRAID_CLOSED n).apart (R.TRX_TX_COUNT1_REFUSED n) = true ∧
    (∀ g ∈ [R.CLK_CMD_ERR_UNIT, R.CLK_CMD_ERR_STATUS, R.TRX_CMD_ERR_STATUS n],
      g.apart (R.TRX_TX_COUNT1_REFUSED n) = true) := by decide

/-- A refused descriptor is counted and leaves its status in CMD_ERR and the plan as it was. -/
theorem State.txAccept_refuses {n : Fin 4} (hi : s.Inv) (hr : s.txRefusal n d = some w) :
    ((s.txAccept n d).trx n).plan = (s.trx n).plan ∧ (s.txAccept n d).getF (R.TRX_CMD_ERR_STATUS n) = w % 2 ^ 16 ∧
      (s.txAccept n d).resp = w ∧
      (s.txAccept n d).getF (R.TRX_TX_COUNT1_REFUSED n) =
        min (R.TRX_TX_COUNT1_REFUSED n).max (s.getF (R.TRX_TX_COUNT1_REFUSED n) + 1) := by
  obtain ⟨hok, hokc, hda, hdc, hra, hrc, hcc⟩ := refusalFields_apart n
  have hcl : (R.TRX_TX_EVENT_BRAID_CLOSED n).lo + (R.TRX_TX_EVENT_BRAID_CLOSED n).width ≤ 32 := by simp [R.TRX_TX_EVENT_BRAID_CLOSED]
  have hri : (s.refused n w).Inv := (s.refused_within n w).inv hi
  have hti : (s.trxRefuse n w).Inv := (s.trxRefuse_spares n w).inv hi
  have hdone := State.txDone_spares (s.refused n w) n (s.memberOf n d) w false false
  have hbump : (s.trxRefuse n w).Spares [R.TRX_TX_COUNT1_REFUSED n, R.TRX_TX_EVENT_BRAID_CLOSED n] [] (s.refused n w) :=
    ((State.Spares.refl _ _ _).bump (by simp) (by simp [R.TRX_TX_COUNT1_REFUSED])).raiseIf (by simp) hcl _
  have hclosed : ((s.trxRefuse n w).bump (R.TRX_TX_COUNT1_REFUSED n)).Spares [R.TRX_TX_EVENT_BRAID_CLOSED n] [] (s.refused n w) :=
    (State.Spares.refl _ _ _).raiseIf (by simp) hcl _
  rw [State.txAccept_refused hr]
  refine ⟨?_, ?_, ?_, ?_⟩
  · rw [(State.txDone_keepsTrx _ _ _ _ _ _).plan, (s.refused_within n w).trx (by decide)]
  · rw [hdone.getF _ hok hda (by simp) hri, hbump.getF _ hok hra (by simp) hti, State.getF_trxRefuse _ _ _ hok]
  · rw [(State.txDone_within (.refl [.block 15, .block 7, .freeIx, .ms, .notes, .queues, .rd] _) (List.Subset.refl _) _ _ _ _ _).same
      .resp (by decide)]
    exact s.refused_resp n w
  · rw [hdone.getF _ hokc hdc (by simp) hri,
      hclosed.getF _ hokc (by simpa using hrc) (by simp) (((State.Spares.refl _ [] _).bump (List.mem_singleton_self _)
        (by simp [R.TRX_TX_COUNT1_REFUSED])).inv hti),
      State.getF_bump _ hokc, (s.trxRefuse_spares n w).getF _ hokc hcc (by simp) hi]

/-- What the command of a shuttle's does with a descriptor that is refused. -/
theorem State.txTake_refuses {n : Fin 4} {want : Nat → Bool} (hi : s.Inv) (hh : (s.trx n).held = [] ∧ (s.trx n).planned < 16)
    (hq : (s.consumedBy (0x20 + n)).find? (fun x => (s.head? x).isSome) = some q) (he : s.head? q = some e) (hd : s.txDescAt e = d)
    (hw : want d.kind = true) (hr : (s.taken u q e).txRefusal n d = some w) :
    ((s.txTake n u want).trx n).plan = (s.trx n).plan ∧ (s.txTake n u want).getF (R.TRX_CMD_ERR_STATUS n) = w % 2 ^ 16 ∧
      (s.txTake n u want).resp = w ∧
      (s.txTake n u want).getF (R.TRX_TX_COUNT1_REFUSED n) =
        min (R.TRX_TX_COUNT1_REFUSED n).max (s.getF (R.TRX_TX_COUNT1_REFUSED n) + 1) := by
  obtain ⟨-, hokc, -⟩ := refusalFields_apart n
  obtain ⟨hp, hs, hresp, hc⟩ := State.txAccept_refuses ((s.taken_within u q e).inv hi) hr
  have htaken : (s.taken u q e).getF (R.TRX_TX_COUNT1_REFUSED n) = s.getF (R.TRX_TX_COUNT1_REFUSED n) :=
    ((s.taken_within u q e).spares (l := []) (bs := [15]) (by decide)).getF _ hokc (by simp) (by simp) hi
  rw [State.txTake_eq hh hq he hd hw]
  exact ⟨hp.trans (by rw [State.taken_trx]), hs, hresp, hc.trans (by rw [htaken])⟩

end
end Sys2Proof.Machine

namespace Sys2Proof.Machine
open Sys2Proof

/-! ### A command dropped whole (R203, R205) -/

section
variable {s t : State} {n : Nat} {c : TxCmd}

theorem State.replan_orders (s : State) (n : Nat) :
    ((s.replan n).trx n).plan.map (·.order) = (s.trx n).plan.map (·.order) := by
  obtain ⟨f, hf, hp⟩ := s.planAnew_eq n
  rw [(s.replan_spec n).2, hp, hf.orders]

/-- A command leaves the plan. -/
def State.unplanned (s : State) (n : Nat) (c : TxCmd) : State :=
  s.setTrx n { s.trx n with plan := (s.trx n).plan.filter (fun x => x.order != c.order) }

theorem State.unplanned_within (s : State) (n : Nat) (c : TxCmd) : State.Within [.rd] s (s.unplanned n c) :=
  State.setTrx_within (.refl _ s) (List.Subset.refl _) n _

theorem State.txDrop_keepsTrx (s : State) (n : Nat) (c : TxCmd) (st : Nat) : (s.unplanned n c).KeepsTrx n (s.txDrop n c st) :=
  .each c.members (fun t m => t.txDone_keepsTrx n m st false false) _

theorem State.txDrop_onAir (s : State) (n : Nat) (c : TxCmd) (st : Nat) : ((s.txDrop n c st).trx n).onAir = (s.trx n).onAir := by
  rw [(s.txDrop_keepsTrx n c st).alike.onAir, State.unplanned, State.trx_setTrx]

theorem filter_orders (l : List TxCmd) (k : Nat) :
    (l.filter (fun x => x.order != k)).map (·.order) = (l.map (·.order)).filter (· != k) := by
  rw [List.filter_map]
  rfl

theorem State.txDrop_orders (s : State) (n : Nat) (c : TxCmd) (st : Nat) :
    (((s.txDrop n c st).replan n).trx n).plan.map (·.order) = ((s.trx n).plan.map (·.order)).filter (· != c.order) := by
  rw [State.replan_orders, (s.txDrop_keepsTrx n c st).plan, State.unplanned, State.trx_setTrx, filter_orders]

theorem State.each_concat {α : Type} (s : State) (l : List α) (a : α) (f : State → α → State) :
    s.each (l.concat a) f = f (s.each l f) a := by
  rw [List.concat_eq_append, State.each, State.each, List.foldl_append, List.foldl_cons, List.foldl_nil]

theorem State.txDrop_eq (s : State) (n : Nat) (c : TxCmd) (st : Nat) :
    s.txDrop n c st = (s.unplanned n c).each c.members (fun s m => s.txDone n m st false false) := rfl

/-- Dropping a command ends with the record of its last member. -/
theorem State.txDrop_last (s : State) (n st : Nat) (hi : s.Inv) {l : List TxMember} {m : TxMember} (hl : c.members = l.concat m) :
    ∃ u : State, u.Inv ∧ s.txDrop n c st = u.txDone n m st false false := by
  refine ⟨(s.unplanned n c).each l (fun s m => s.txDone n m st false false), ?_, ?_⟩
  · exact (State.each_within (.refl [.block 15, .block 7, .freeIx, .ms, .notes, .queues, .rd] _) l _
      fun t m ht => State.txDone_within ht (List.Subset.refl _) n m st false false).inv ((s.unplanned_within n c).inv hi)
  · rw [State.txDrop_eq, hl, State.each_concat]

/-- An event that the completion record of each member raises stands after a command is dropped. -/
theorem State.isSet_txDrop {st : Nat} {g : Field} (hi : s.Inv) (hm : c.members ≠ []) (hg : g.ok = true) (hb : regBlock g.addr ≠ 15)
    (hev : ∀ u : State, (u.doneCounted n st false).isSet g = true) : (s.txDrop n c st).isSet g = true := by
  obtain ⟨l, m, hl⟩ := List.eq_nil_or_concat c.members |>.resolve_left hm
  obtain ⟨u, hu, he⟩ := s.txDrop_last n st hi hl
  rw [he, State.isSet, State.getF_txDone hu n m st false false hg hb]
  exact hev u

/-- A record of a command that is late raises its event. -/
theorem State.doneCounted_late {n : Fin 4} (s : State) : (s.doneCounted n (ST.TX_LATE n) false).isSet (R.TRX_TX_EVENT_LATE n) = true := by
  have hst : ∀ n : Fin 4, ST.TX_LATE n ≠ ST.TX_FENCE n ∧ ST.TX_LATE n ≠ ST.TX_FLUSHED n ∧ (R.TRX_TX_EVENT_LATE n).ok = true := by decide
  obtain ⟨hfence, hflush, hok⟩ := hst n
  have he : s.doneCounted n (ST.TX_LATE n) false = (s.bump (R.TRX_TX_COUNT0_LATE n)).raise (R.TRX_TX_EVENT_LATE n) := by
    simp [State.doneCounted, State.raiseIf, hfence, hflush]
  rw [he]
  exact State.isSet_raise_same _ hok rfl

/-- A record of a command at the output stop time raises its event. -/
theorem State.doneCounted_fence {n : Fin 4} (s : State) : (s.doneCounted n (ST.TX_FENCE n) false).isSet (R.TRX_TX_EVENT_FENCE n) = true := by
  have hst : ∀ n : Fin 4, ST.TX_FENCE n ≠ ST.TX_LATE n ∧ ST.TX_FENCE n ≠ ST.TX_FLUSHED n ∧ (R.TRX_TX_EVENT_FENCE n).ok = true := by decide
  obtain ⟨hlate, hflush, hok⟩ := hst n
  have he : s.doneCounted n (ST.TX_FENCE n) false = (s.bump (R.TRX_TX_COUNT0_LATE n)).raise (R.TRX_TX_EVENT_FENCE n) := by
    simp [State.doneCounted, State.raiseIf, hlate, hflush]
  rw [he]
  exact State.isSet_raise_same _ hok rfl

/-- Where the events of a shuttle stand. -/
theorem dropEvents_apart : ∀ n : Fin 4, (R.TRX_TX_EVENT_LATE n).ok = true ∧ (R.TRX_TX_EVENT_FENCE n).ok = true ∧
    (∀ g ∈ showFields n, g.apart (R.TRX_TX_EVENT_LATE n) = true) ∧ (∀ g ∈ showFields n, g.apart (R.TRX_TX_EVENT_FENCE n) = true) := by
  decide

theorem State.txDrop_inv (hi : s.Inv) (n : Nat) (c : TxCmd) (st : Nat) : (s.txDrop n c st).Inv :=
  (State.txDrop_within (.refl [.block 15, .block 7, .freeIx, .ms, .notes, .queues, .rd] s) (List.Subset.refl _) n c st).inv hi

/-! ### The head that cannot meet its latest departure (R203) -/

theorem execTxLateDrop_drops {n : Fin 4} {u : Nat} (hi : s.Inv) (hc : planHead (((s.advance u).replan n).trx n).plan = some c)
    (hl : c.latest < ((s.advance u).replan n).planDep n c) (hm : c.members ≠ []) : Completes (.txLateDrop n u) s fun t =>
      t.isSet (R.TRX_TX_EVENT_LATE n) = true ∧
      (t.trx n).plan.map (fun (x : TxCmd) => x.order) =
        ((s.trx n).plan.filter (fun (x : TxCmd) => x.order != c.order)).map (fun (x : TxCmd) => x.order) := by
  obtain ⟨hok, -, ha, -⟩ := dropEvents_apart n
  have he : execTxLateDrop n u s = .next ((((s.advance u).replan n).txDrop n c (ST.TX_LATE n)).replan n) := by
    unfold execTxLateDrop
    dsimp only
    rw [hc]
    exact if_pos hl
  have hri : ((s.advance u).replan n).Inv :=
    (State.replan_within (State.advance_within (.refl [.block 7, .mtb, .out, .rd] s) (by decide) u) (by decide) n).inv hi
  refine ⟨_, he, ?_, ?_⟩
  · rw [(State.replan_spares _ n).isSet (State.txDrop_inv hri n c _) hok ha (by simp)]
    exact State.isSet_txDrop hri hm hok (by simp) State.doneCounted_late
  · rw [State.txDrop_orders, State.replan_orders, filter_orders]
    rfl

theorem execTxLateDrop_stays {n : Fin 4} {u : Nat} (h : (s.trx n).plan = [] ∨
    (planHead (((s.advance u).replan n).trx n).plan = some c ∧ ((s.advance u).replan n).planDep n c ≤ c.latest)) :
    Completes (.txLateDrop n u) s fun t => t = (s.advance u).replan n := by
  refine ⟨_, (?_ : execTxLateDrop n u s = .next ((s.advance u).replan n)), rfl⟩
  unfold execTxLateDrop
  dsimp only
  rcases h with h | ⟨hc, hl⟩
  · have hp : (((s.advance u).replan n).trx n).plan = [] :=
      List.map_eq_nil_iff.mp ((State.replan_orders (s.advance u) n).trans (congrArg (List.map _) h))
    rw [hp]
    rfl
  · rw [hc]
    exact if_neg (Nat.not_lt.mpr hl)

/-! ### Launch (R161, R166, R205) -/

/-- The launching transceiver's lines, its lanes' blanking and its request. -/
def State.launchLines (s : State) (n : Nat) (c : TxCmd) : State :=
  let s := (((s.lnaLow n).emit (.line n 3 c.portB s.mtb)).launchBlank n).siKeep n
  if s.coexOn n then
    let v := s.trx n
    match v.coexNext with
    | some (_, p) => s.setTrx n { v with coex := true, prio := p, coexNext := none }
    | none => (s.setTrx n { v with coex := true, prio := s.coexPrio n c.kind }).coexLines n s.mtb
  else s

theorem State.launchLines_within (s : State) (n : Nat) (c : TxCmd) :
    State.Within [.block 11, .block 12, .block 16, .block 21, .ky, .mac, .mem, .ms, .notes, .out, .pa, .pl, .queues, .rd] s
      (s.launchLines n c) := by
  have h := State.siKeep_within (State.launchBlank_within (State.emit_within (State.lnaLow_within (.refl [.block 11, .block 12, .block 16,
    .block 21, .ky, .mac, .mem, .ms, .notes, .out, .pa, .pl, .queues, .rd] s) (by decide) n) (by decide) (.line n 3 c.portB s.mtb))
    (by decide) n) (by decide) n
  refine within_ite (fun _ => ?_) fun _ => h
  split
  · exact State.setTrx_within h (by decide) n _
  · exact State.coexLines_within (State.setTrx_within h (by decide) n _) (by decide) n _

/-- The transceiver's record at a launch. -/
def State.launchTrx (s : State) (n : Nat) (c : TxCmd) : Trx :=
  let rise := s.paLead n s.mtb c.dep
  let s := s.launchLines n c
  let v := s.trx n
  let tail := 1320 + 4 * (s.getF (R.TRX_FEM_PA_LAG n) + s.getF (R.TRX_BLANK_TAIL n))
  { v with plan := v.plan.filter (fun x => x.order != c.order), onAir := some c, step := some (4, c.dep),
           siFrom := rise, siTo := c.fin + tail, up := false, lag := none, ending := none }

theorem State.launch_eq (s : State) (n : Nat) (c : TxCmd) : s.launch n c = ((((s.launchLines n c).setTrx n (s.launchTrx n c)).setF
    (R.TRX_STATE_MOVING n) 1).setF (R.TRX_TX_STAT_LAUNCHED n) 1).replan n := by
  unfold State.launch State.launchTrx State.launchLines
  rfl

/-- What a launch leaves: the command on air, the step into TX that ends at its departure. -/
theorem State.launch_spec {n : Fin 4} (hi : s.Inv) (c : TxCmd) : ((s.launch n c).trx n).onAir = some c ∧
    ((s.launch n c).trx n).step = some (4, c.dep) ∧ (s.launch n c).isSet (R.TRX_TX_STAT_LAUNCHED n) = true ∧
    (s.launch n c).mtb = s.mtb := by
  have hf : ∀ n : Fin 4, (R.TRX_TX_STAT_LAUNCHED n).ok = true ∧ (∀ g ∈ showFields n, g.apart (R.TRX_TX_STAT_LAUNCHED n) = true) := by
    decide
  obtain ⟨hok, ha⟩ := hf n
  have he := s.launch_eq n c
  have hmid : ((((s.launchLines n c).setTrx n (s.launchTrx n c)).setF (R.TRX_STATE_MOVING n) 1).setF (R.TRX_TX_STAT_LAUNCHED n) 1).Inv :=
    State.inv_setF (State.inv_setF ((State.setTrx_within (s.launchLines_within n c) (by decide) n _).inv hi) _ _) _ _
  have htrx : ((((s.launchLines n c).setTrx n (s.launchTrx n c)).setF (R.TRX_STATE_MOVING n) 1).setF (R.TRX_TX_STAT_LAUNCHED n) 1).trx n = s.launchTrx n c :=
    State.trx_setTrx _ _ _
  refine ⟨?_, ?_, ?_, ?_⟩
  · rw [he, (State.replan_spec _ n).1.onAir, htrx]
    rfl
  · rw [he, (State.replan_spec _ n).1.step, htrx]
    rfl
  · rw [he, (State.replan_spares _ n).isSet hmid hok ha (by simp)]
    exact State.isSet_setF_one _ hok rfl
  · exact (State.launch_within (.refl [.block 11, .block 12, .block 16, .block 21, .block 7, .ky, .mac, .mem, .ms, .notes, .out, .pa, .pl,
      .queues, .rd] s) (List.Subset.refl _) n c).same .mtb (by decide)

/-- The hold keeps a command from launching. -/
def State.noLaunch (s : State) (c : TxCmd) : Bool := decide (s.dev = devHoldInhibit) || s.holdMark.any (fun m => decide (m ≤ c.fin))

/-- The output stop time keeps a command from launching. -/
def State.pastStop (s : State) (c : TxCmd) : Bool := s.outputStop.any (fun m => decide (m ≤ c.fin))

/-- What happens at the launch time of a planned head of a transceiver at rest at its target. -/
theorem execTxLaunch_eq {n : Fin 4} (hc : planHead (s.trx n).plan = some c) (hp : c.planned = true) (hw : s.su.warm = none)
    (hst : s.trxState n = s.trxTarget n ∧ 2 ≤ s.trxState n ∧ s.trxState n ≤ 3)
    (hrest : (s.trx n).step = none ∧ (s.trx n).onAir = none ∧ (s.trx n).calPending = false)
    (ht : s.mtb ≤ c.dep - intoTx (s.trxState n) ∧ c.dep ≤ c.latest) :
    execTxLaunch n s =
      let u := s.advance (c.dep - intoTx (s.trxState n))
      if s.noLaunch c then .next ((u.txDrop n c ST.CLK_TX_INHIBIT).replan n)
      else if s.pastStop c then .next ((u.txDrop n c (ST.TX_FENCE n)).replan n)
      else .next (u.launch n c) := by
  obtain ⟨haim, h2, h3⟩ := hst
  obtain ⟨hstep, hair, hcal⟩ := hrest
  obtain ⟨hmtb, hlate⟩ := ht
  have hgo : ¬ (s.su.warm.isSome || !c.planned || decide (s.trxState n ≠ s.trxTarget n) ||
      !(decide (s.trxState n = 2) || decide (s.trxState n = 3)) || (s.trx n).step.isSome || (s.trx n).calPending ||
      (s.trx n).onAir.isSome || decide (c.dep - intoTx (s.trxState n) < s.mtb) || decide (c.latest < c.dep)) = true := by
    have hor : s.trxState n = 2 ∨ s.trxState n = 3 := by omega
    rw [hw, hp, hstep, hair, hcal, decide_eq_false (Nat.not_lt.mpr hmtb), decide_eq_false (Nat.not_lt.mpr hlate)]
    rcases hor with h | h <;> rw [← haim, h] <;> decide
  have hhold : (s.advance (c.dep - intoTx (s.trxState n))).holdMark = s.holdMark := rfl
  have hstop : (s.advance (c.dep - intoTx (s.trxState n))).outputStop = s.outputStop := rfl
  unfold execTxLaunch
  simp only [hc]
  rw [if_neg hgo]
  refine if_congr (Bool.eq_iff_iff.mp (congrArg (decide (s.dev = devHoldInhibit) || ·) ?_)) rfl (if_congr (Bool.eq_iff_iff.mp ?_) rfl rfl)
  · rw [hhold]
    cases s.holdMark <;> rfl
  · rw [hstop, State.pastStop]
    cases s.outputStop <;> rfl

theorem execTxLaunch_launches {n : Fin 4} (hi : s.Inv) (hc : planHead (s.trx n).plan = some c) (hp : c.planned = true)
    (hw : s.su.warm = none) (hst : s.trxState n = s.trxTarget n ∧ 2 ≤ s.trxState n ∧ s.trxState n ≤ 3)
    (hrest : (s.trx n).step = none ∧ (s.trx n).onAir = none ∧ (s.trx n).calPending = false)
    (ht : s.mtb ≤ c.dep - intoTx (s.trxState n) ∧ c.dep ≤ c.latest) (hd : s.dev ≠ devHoldInhibit)
    (hhold : s.holdMark.all (fun m => decide (c.fin < m)) = true) (hstop : s.outputStop.all (fun m => decide (c.fin < m)) = true) :
    Completes (.txLaunch n) s fun t => (t.trx n).onAir = some c ∧ (t.trx n).step = some (4, c.dep) ∧
      t.isSet (R.TRX_TX_STAT_LAUNCHED n) = true ∧ t.mtb = c.dep - intoTx (s.trxState n) := by
  have hnone {o : Option Nat} (h : o.all (fun m => decide (c.fin < m)) = true) : o.any (fun m => decide (m ≤ c.fin)) = false := by
    cases o with
    | none => rfl
    | some m => exact decide_eq_false (Nat.not_le.mpr (of_decide_eq_true h))
  have hheld : ¬ s.noLaunch c = true := by
    rw [State.noLaunch, hnone hhold, decide_eq_false hd]
    decide
  have hfence : ¬ s.pastStop c = true := by
    rw [State.pastStop, hnone hstop]
    decide
  have he : execTxLaunch n s = .next ((s.advance (c.dep - intoTx (s.trxState n))).launch n c) := by
    rw [execTxLaunch_eq hc hp hw hst hrest ht]
    dsimp only
    rw [if_neg hheld, if_neg hfence]
  obtain ⟨hair, hstep, hset, hmtb⟩ := State.launch_spec (n := n)
    ((State.advance_within (.refl [.mtb] s) (List.Subset.refl _) (c.dep - intoTx (s.trxState n))).inv hi) c
  exact ⟨_, he, hair, hstep, hset, hmtb.trans (by rw [State.advance_mtb, max_eq_right ht.1])⟩

theorem execTxLaunch_drops {n : Fin 4} {b : Bool} (hi : s.Inv) (hc : planHead (s.trx n).plan = some c)
    (hp : c.planned = true ∧ c.members ≠ []) (hw : s.su.warm = none)
    (hst : s.trxState n = s.trxTarget n ∧ 2 ≤ s.trxState n ∧ s.trxState n ≤ 3)
    (hrest : (s.trx n).step = none ∧ (s.trx n).onAir = none ∧ (s.trx n).calPending = false)
    (ht : s.mtb ≤ c.dep - intoTx (s.trxState n) ∧ c.dep ≤ c.latest)
    (hb : b = (decide (s.dev = devHoldInhibit) || s.holdMark.any (fun m => decide (m ≤ c.fin))))
    (hstop : b = true ∨ s.outputStop.any (fun m => decide (m ≤ c.fin)) = true) : Completes (.txLaunch n) s fun t =>
      (t.trx n).onAir = none ∧
      (t.trx n).plan.map (fun (x : TxCmd) => x.order) =
        ((s.trx n).plan.filter (fun (x : TxCmd) => x.order != c.order)).map (fun (x : TxCmd) => x.order) ∧
      (b = false → t.isSet (R.TRX_TX_EVENT_FENCE n) = true) := by
  obtain ⟨-, hok, -, ha⟩ := dropEvents_apart n
  have hui : (s.advance (c.dep - intoTx (s.trxState n))).Inv := (State.advance_within (.refl [.mtb] s) (List.Subset.refl _) _).inv hi
  have he : execTxLaunch n s = .next (((s.advance (c.dep - intoTx (s.trxState n))).txDrop n c
      (if b then ST.CLK_TX_INHIBIT else ST.TX_FENCE n)).replan n) := by
    rw [execTxLaunch_eq hc hp.1 hw hst hrest ht]
    dsimp only
    cases b with
    | true => exact if_pos hb.symm
    | false =>
      have hheld : ¬ s.noLaunch c = true := by
        rw [State.noLaunch, ← hb]
        decide
      rw [if_neg hheld]
      exact if_pos (hstop.resolve_left (by decide))
  refine ⟨_, he, ?_, ?_, ?_⟩
  · rw [(State.replan_spec _ n).1.onAir, State.txDrop_onAir]
    exact hrest.2.1
  · rw [State.txDrop_orders, filter_orders]
    rfl
  · rintro rfl
    rw [(State.replan_spares _ n).isSet (State.txDrop_inv hui n c _) hok ha (by simp)]
    exact State.isSet_txDrop hui hp.2 hok (by simp) State.doneCounted_fence

theorem execTxLaunch_stays {n : Fin 4} (h : (s.trx n).plan = [] ∨ (s.trx n).step ≠ none ∨ (s.trx n).onAir ≠ none ∨
    s.trxState n ≠ s.trxTarget n) : Completes (.txLaunch n) s fun t => t = s := by
  refine ⟨_, (?_ : execTxLaunch n s = .next s), rfl⟩
  unfold execTxLaunch
  dsimp only
  split
  · rfl
  · next c hc =>
    refine if_pos ?_
    have hp : (s.trx n).plan ≠ [] := by
      intro hp
      rw [hp] at hc
      cases hc
    rcases h with h | h | h | h
    · exact absurd h hp
    · simp [Option.isSome_iff_ne_none.mpr h]
    · simp [Option.isSome_iff_ne_none.mpr h]
    · simp [h]

end
end Sys2Proof.Machine

namespace Sys2Proof.Machine
open Sys2Proof

/-! ### Blanking leaves the transceivers as they are (R166, R178) -/

section
variable {s t : State} {n : Nat} {c : TxCmd}

theorem State.rxEnd_trxs (s : State) (k o : Nat) : (s.rxEnd k o).rd.trxs = s.rd.trxs := by
  unfold State.rxEnd
  split
  · rfl
  · next r hr =>
    dsimp only
    generalize hv : (s.noteWrite r 29 (leBytes 1 o)).noteFlags r _ = v
    have hn : v.rd = s.rd := by
      rw [← hv]
      exact (State.noteFlags_within (State.noteWrite_within (.refl [.mem] s) (List.Subset.refl _) r 29 _) (List.Subset.refl _) r
        _).same .rd (by decide)
    have hw : ((v.rxLost r.lane o).rxWithdraw r).rd = v.rd :=
      (State.rxWithdraw_within (State.rxLost_within (.refl [.block 11, .block 12, .block 16, .block 21, .ky, .mac, .mem, .ms, .out, .pa,
        .pl, .queues] v) (by decide) r.lane o) (by decide) r).same .rd (by decide)
    split
    · rw [State.putRx, hn]
    · rw [State.delRx, hw, hn]

theorem State.blankLane_trxs (s : State) (l : Nat) : (s.blankLane l).rd.trxs = s.rd.trxs := by
  unfold State.blankLane
  dsimp only
  split
  · rfl
  · split
    · split
      · exact State.rxEnd_trxs _ _ _
      · rfl
    · rfl

theorem State.blankTrx_trx (s : State) (k n : Nat) : (s.blankTrx k).trx n = s.trx n := by
  have h : (s.blankTrx k).rd.trxs = s.rd.trxs :=
    State.each_induct (P := fun t => t.rd.trxs = s.rd.trxs) _ _ rfl fun t l ht => (t.blankLane_trxs l).trans ht
  rw [State.trx, h, State.trx]

/-- The lines and lanes of a transceiver that leaves RX. -/
def State.blanked (s : State) (n : Nat) : State := (s.lnaLow n).blankTrx n

theorem State.blanked_within (s : State) (n : Nat) : State.Within [.block 11, .block 12, .block 16, .block 21, .ky, .mac, .mem, .ms,
    .out, .pa, .pl, .queues, .rd] s (s.blanked n) :=
  State.blankTrx_within (State.lnaLow_within (.refl _ s) (by decide) n) (List.Subset.refl _) n

theorem State.blanked_trx (s : State) (n : Nat) : (s.blanked n).trx n = s.trx n :=
  (State.blankTrx_trx _ n n).trans ((State.lnaLow_within (.refl [.out] s) (List.Subset.refl _) n).trx (by decide) n)

/-! ### The step out of TX (R151, R154, R155) -/

/-- What a transceiver's steps write. -/
def stepFields (n : Nat) : List Field :=
  [R.TRX_STATE_STATE n, R.TRX_TX_STAT_LAUNCHED n, R.TRX_STATE_MOVING n, R.TRX_STATE_TARGET n]

theorem stepFields_fit (n : Nat) : ∀ g ∈ stepFields n, g.lo + g.width ≤ 32 := by
  simp [stepFields, R.TRX_STATE_STATE, R.TRX_TX_STAT_LAUNCHED, R.TRX_STATE_MOVING, R.TRX_STATE_TARGET]

theorem stepFields_apart : ∀ n : Fin 4, (R.TRX_STATE_STATE n).ok = true ∧
    (∀ g ∈ [R.TRX_TX_STAT_LAUNCHED n, R.TRX_STATE_MOVING n, R.TRX_STATE_TARGET n] ++ showFields n ++ doneFields n,
      g.apart (R.TRX_STATE_STATE n) = true) := by decide

/-- A field of `stepFields` written. -/
theorem State.Spares.step {bs : List Nat} (h : s.Spares (stepFields n) bs t) {g : Field} (hg : g ∈ stepFields n) (v : Nat) :
    s.Spares (stepFields n) bs (t.setF g v) := h.setF hg (stepFields_fit n g hg) v

/-- A step that starts in a state other than RX. -/
theorem State.startStep_eq (h : s.trxState n ≠ 3) (d k : Nat) : s.startStep n d k =
    ((if d = 3 then s.emit (.line n 1 true (s.mtb + k - min k 5280)) else s).setTrx n
      { s.trx n with step := some (d, s.mtb + k) }).setF (R.TRX_STATE_MOVING n) 1 := by
  unfold State.startStep
  dsimp only
  rw [if_neg h]
  split <;> rfl

/-- The step to SLEEP from TX. -/
theorem State.toSleep_eq {n : Fin 4} (hi : s.Inv) (h : s.trxState n = 4) : s.toSleep n =
    (((s.blanked n).setTrx n { (s.blanked n).trx n with
      step := some (0, (s.blanked n).mtb + 5280), next := none, cal := 0, relock := false }).setF
      (R.TRX_STATE_TARGET n) 0).setF (R.TRX_STATE_MOVING n) 1 := by
  have h4 : (s.blanked n).trxState n = 4 :=
    (((s.blanked_within n).spares (l := []) (bs := [11, 12, 16, 21]) (by decide)).getF _ (stepFields_apart n).1 (by simp) (by simp)
      hi).trans h
  have h5 : ¬ (s.blanked n).trxState n = 5 := by rw [h4]; decide
  have h0 : ¬ (decide (s.trxState n = 0) && (s.trx n).step.isNone) = true := by rw [h]; exact Bool.false_ne_true
  unfold State.toSleep
  dsimp only
  rw [if_neg h0]
  exact (congrArg (fun t : State => ((t.setTrx n { t.trx n with step := some (0, t.mtb + 5280), next := none, cal := 0, relock := false }).setF
      (R.TRX_STATE_TARGET n) 0).setF (R.TRX_STATE_MOVING n) 1) (if_neg h5))

/-- A transceiver in TX with nothing on air any more. -/
def State.offAir (s : State) (n : Nat) : State :=
  ((s.setF (R.TRX_STATE_STATE n) 4).setTrx n { s.trx n with onAir := none, ending := none, step := none, lag := none }).setF
    (R.TRX_TX_STAT_LAUNCHED n) 1

theorem State.offAir_trx (s : State) (n : Nat) :
    (s.offAir n).trx n = { s.trx n with onAir := none, ending := none, step := none, lag := none } := State.trx_setTrx _ _ _

theorem State.offAir_spares (s : State) (n : Nat) : s.Spares (stepFields n) [11, 12, 16, 21] (s.offAir n) := by
  refine State.Spares.step (State.Spares.within (T := [.rd]) (State.Spares.step (.refl _ _ s) (g := R.TRX_STATE_STATE n) ?_ 4)
    (State.setTrx_within (.refl _ _) (List.Subset.refl _) n _) (by decide)) ?_ 1
  all_goals simp [stepFields]

theorem State.offAir_trxState {n : Fin 4} (s : State) : (s.offAir n).trxState n = 4 := by
  obtain ⟨hok, ha⟩ := stepFields_apart n
  have hw : (R.TRX_TX_STAT_LAUNCHED n).lo + (R.TRX_TX_STAT_LAUNCHED n).width ≤ 32 := by simp [R.TRX_TX_STAT_LAUNCHED]
  rw [State.trxState, State.offAir, State.getF_setF_ne _ _ _ _ hw hok (ha _ (by simp))]
  exact State.getF_setF_same s _ 4 hok

theorem State.leaveTx_eq (s : State) (n : Nat) : s.leaveTx n =
    if s.su.warm.isSome then (s.offAir n).toSleep n
    else if (s.trx n).relock then (s.offAir n).startStep n 2 (lockCyc n)
    else (s.offAir n).startStep n (outOfTx (s.trxTarget n) (s.trx n).calPending).1 (outOfTx (s.trxTarget n) (s.trx n).calPending).2 := rfl

end
end Sys2Proof.Machine

namespace Sys2Proof.Machine
open Sys2Proof

section
variable {s t : State} {c : TxCmd}

theorem State.getF_setTrx (s : State) (n : Nat) (v : Trx) (f : Field) : (s.setTrx n v).getF f = s.getF f := rfl

theorem State.trx_setF (s : State) (f : Field) (v n : Nat) : (s.setF f v).trx n = s.trx n := rfl

/-- Where a step that a transceiver in TX starts leads to. -/
theorem State.startStep_leaves {n : Fin 4} (h : s.trxState n = 4) (d k : Nat) :
    ((s.startStep n d k).trx n).onAir = (s.trx n).onAir ∧ ((s.startStep n d k).trx n).step = some (d, s.mtb + k) ∧
      (s.startStep n d k).trxState n = 4 ∧ s.Spares (stepFields n) [11, 12, 16, 21] (s.startStep n d k) := by
  have hm : (R.TRX_STATE_MOVING n).lo + (R.TRX_STATE_MOVING n).width ≤ 32 := by simp [R.TRX_STATE_MOVING]
  rw [State.startStep_eq (by rw [h]; decide)]
  generalize hu : (if d = 3 then s.emit (.line n 1 true (s.mtb + k - min k 5280)) else s) = u
  have hw : State.Within [.out] s u := by
    rw [← hu]
    exact within_ite (fun _ => State.emit_within (.refl _ s) (List.Subset.refl _) _) fun _ => .refl _ s
  have htrx : ((u.setTrx n { s.trx n with step := some (d, s.mtb + k) }).setF (R.TRX_STATE_MOVING n) 1).trx n =
    { s.trx n with step := some (d, s.mtb + k) } := State.trx_setTrx _ _ _
  have hust : u.trxState n = 4 := by
    rw [← hu]
    split <;> exact h
  refine ⟨by rw [htrx], by rw [htrx], ?_, ?_⟩
  · rw [State.trxState, State.getF_setF_ne _ _ _ _ hm (stepFields_apart n).1 ((stepFields_apart n).2 _ (by simp)), State.getF_setTrx]
    exact hust
  · exact (hw.spares (by decide)).trans (State.Spares.step (State.Within.spares (State.setTrx_within (.refl [.rd] u) (List.Subset.refl _) n
      _) (by decide)) (by simp [stepFields]) 1)

/-- Where the step to SLEEP of a transceiver in TX leads to. -/
theorem State.toSleep_leaves {n : Fin 4} (hi : s.Inv) (h : s.trxState n = 4) :
    ((s.toSleep n).trx n).onAir = (s.trx n).onAir ∧ (s.toSleep n).trxState n = 4 ∧
      s.Spares (stepFields n) [11, 12, 16, 21] (s.toSleep n) := by
  have hm : (R.TRX_STATE_MOVING n).lo + (R.TRX_STATE_MOVING n).width ≤ 32 := by simp [R.TRX_STATE_MOVING]
  have ht : (R.TRX_STATE_TARGET n).lo + (R.TRX_STATE_TARGET n).width ≤ 32 := by simp [R.TRX_STATE_TARGET]
  have hb : s.Spares (stepFields n) [11, 12, 16, 21] (s.blanked n) := (s.blanked_within n).spares (by decide)
  have h4 : (s.blanked n).getF (R.TRX_STATE_STATE n) = 4 :=
    (((s.blanked_within n).spares (l := []) (bs := [11, 12, 16, 21]) (by decide)).getF _ (stepFields_apart n).1 (by simp) (by simp)
      hi).trans h
  have hset (v : Trx) : (s.blanked n).Spares (stepFields n) [11, 12, 16, 21] ((s.blanked n).setTrx n v) :=
    (State.setTrx_within (.refl [.rd] _) (List.Subset.refl _) n v).spares (by decide)
  rw [State.toSleep_eq hi h]
  refine ⟨?_, ?_, ?_⟩
  · rw [State.trx_setF, State.trx_setF, State.trx_setTrx, s.blanked_trx n]
  · rw [State.trxState, State.getF_setF_ne _ _ _ _ hm (stepFields_apart n).1 ((stepFields_apart n).2 _ (by simp)),
      State.getF_setF_ne _ _ _ _ ht (stepFields_apart n).1 ((stepFields_apart n).2 _ (by simp)), State.getF_setTrx, h4]
  · exact hb.trans (((hset _).step (by simp [stepFields]) 0).step (by simp [stepFields]) 1)

/-- A transceiver that leaves TX stays in that state until its step ends. -/
theorem State.leaveTx_leaves {n : Fin 4} (hi : s.Inv) : ((s.leaveTx n).trx n).onAir = none ∧ (s.leaveTx n).trxState n = 4 ∧
    s.Spares (stepFields n) [11, 12, 16, 21] (s.leaveTx n) := by
  have hair : ((s.offAir n).trx n).onAir = none := by rw [State.offAir_trx]
  have hoff := s.offAir_spares n
  have step (d k : Nat) : (((s.offAir n).startStep n d k).trx n).onAir = none ∧ ((s.offAir n).startStep n d k).trxState n = 4 ∧
      s.Spares (stepFields n) [11, 12, 16, 21] ((s.offAir n).startStep n d k) := by
    obtain ⟨ha, -, h4, hs⟩ := State.startStep_leaves (n := n) s.offAir_trxState d k
    exact ⟨ha.trans hair, h4, hoff.trans hs⟩
  rw [State.leaveTx_eq]
  split
  · obtain ⟨ha, h4, hs⟩ := State.toSleep_leaves (n := n) (hoff.inv hi) s.offAir_trxState
    exact ⟨ha.trans hair, h4, hoff.trans hs⟩
  · split
    · exact step _ _
    · exact step _ _

theorem State.leaveTx_step {n : Fin 4} (hw : s.su.warm = none) (hr : (s.trx n).relock = false) : ((s.leaveTx n).trx n).step =
    some ((outOfTx (s.trxTarget n) (s.trx n).calPending).1, s.mtb + (outOfTx (s.trxTarget n) (s.trx n).calPending).2) := by
  rw [State.leaveTx_eq, if_neg (by rw [hw]; exact Bool.false_ne_true), if_neg (by rw [hr]; exact Bool.false_ne_true)]
  exact (State.startStep_leaves (n := n) s.offAir_trxState _ _).2.1

theorem State.leaveTx_mtb (s : State) (n : Nat) : (s.leaveTx n).mtb = s.mtb :=
  (State.leaveTx_within (.refl [.block 11, .block 12, .block 16, .block 21, .block 7, .ky, .mac, .mem, .ms, .out, .pa, .pl, .queues, .rd] s)
    (List.Subset.refl _) n).same .mtb (by decide)

/-! ### The end of a transmission (R205, R206) -/

theorem State.paRise_keepsTrx (s : State) (n : Nat) : s.KeepsTrx n (s.paRise n) := by
  unfold State.paRise
  refine .ite (fun _ => .refl n s) fun _ => State.KeepsTrx.trans (.setTrx ?_ ?_) (.of_eq rfl)
  · exact ⟨rfl, rfl, rfl, rfl, rfl⟩
  · rfl

theorem State.paFalls_keepsTrx (s : State) (n k : Nat) : s.KeepsTrx n (s.paFalls n k) := by
  unfold State.paFalls
  extract_lets rose s1 s2 v s3
  have h1 : s.KeepsTrx n s1 := .ite (fun _ => (s.paRise_keepsTrx n).trans (.of_eq rfl)) fun _ => .refl n s
  have h2 : s.KeepsTrx n s2 := h1.trans (.of_eq rfl)
  have h3 : s2.KeepsTrx n s3 := by
    refine .setTrx ?_ ?_
    · exact ⟨rfl, rfl, rfl, rfl, rfl⟩
    · rfl
  refine (h2.trans h3).trans (.ite (fun _ => State.KeepsTrx.trans (.setTrx ?_ ?_) (State.coexLines_keepsTrx _ n k)) fun _ => .refl n s3)
  · exact ⟨rfl, rfl, rfl, rfl, rfl⟩
  · rfl

/-- FEM_PA_EN falls, the step out of TX begins, and the plan's head is planned anew. -/
def State.goesOff (s : State) (n k : Nat) : State := ((s.paFalls n k).leaveTx n).replan n

/-- What the end of a transmission writes. -/
def offFields (n : Nat) : List Field := stepFields n ++ showFields n

theorem State.goesOff_spec {n : Fin 4} (hi : s.Inv) (k : Nat) : ((s.goesOff n k).trx n).onAir = none ∧ (s.goesOff n k).trxState n = 4 ∧
    (s.goesOff n k).mtb = s.mtb ∧ s.Spares (offFields n) [11, 12, 16, 21] (s.goesOff n k) := by
  have hpa := State.paFalls_within (.refl [.out, .rd] s) (List.Subset.refl _) n k
  obtain ⟨hair, h4, hs⟩ := State.leaveTx_leaves (n := n) (hpa.inv hi)
  have hli : ((s.paFalls n k).leaveTx n).Inv := hs.inv (hpa.inv hi)
  have hre := State.replan_spares ((s.paFalls n k).leaveTx n) n
  refine ⟨?_, ?_, ?_, ?_⟩
  · exact (State.replan_spec _ n).1.onAir.trans hair
  · refine (hre.getF _ (stepFields_apart n).1 (fun g hg => (stepFields_apart n).2 g ?_) (by simp) hli).trans h4
    exact List.mem_append_left _ (List.mem_append_right _ hg)
  · rw [State.goesOff, (State.replan_within (.refl [.block 7, .out, .rd] _) (List.Subset.refl _) n).same .mtb (by decide),
      State.leaveTx_mtb, hpa.same .mtb (by decide)]
  · exact ((hpa.spares (by decide)).trans (hs.mono (List.subset_append_left _ _) (List.Subset.refl _))).trans
      (hre.mono (List.subset_append_right _ _) (by simp))

/-- Where the step out of TX leads at the end of a transmission (R151). -/
theorem State.goesOff_step {n : Fin 4} (hi : s.Inv) (hw : s.su.warm = none) (hr : (s.trx n).relock = false) (k : Nat) :
    ((s.goesOff n k).trx n).step = some ((outOfTx (s.trxTarget n) (s.trx n).calPending).1,
      s.mtb + (outOfTx (s.trxTarget n) (s.trx n).calPending).2) := by
  have hpa := State.paFalls_within (.refl [.out, .rd] s) (List.Subset.refl _) n k
  have hka := (s.paFalls_keepsTrx n k).alike
  have htarget : (s.paFalls n k).trxTarget n = s.trxTarget n :=
    (hpa.spares (l := []) (bs := []) (by decide)).getF _ ((by decide : ∀ n : Fin 4, (R.TRX_STATE_TARGET n).ok = true) n) (by simp) (by simp)
      hi
  have hcal : ((s.paFalls n k).trx n).calPending = (s.trx n).calPending := by
    rw [Trx.calPending, hka.cal, Trx.calPending]
  rw [State.goesOff, (State.replan_spec _ n).1.step, State.leaveTx_step (by rw [hpa.same .su (by decide), hw]) (by rw [hka.relock, hr]),
    htarget, hcal, hpa.same .mtb (by decide)]

end
end Sys2Proof.Machine

namespace Sys2Proof.Machine
open Sys2Proof

section
variable {s t : State} {c : TxCmd} {m : TxMember}

/-! ### The completion records at the end of a transmission (R199, R205, R206) -/

/-- The record of a member of a transmission that ends at `t`, at its last symbol or, with status `st`, before it. -/
def State.recordOf (n : Nat) (st : Option Nat) (t : Nat) (s : State) (m : TxMember) : State :=
  match st with
  | none => s.txDone n m ST.OK true false
  | some w => if m.fin ≤ t then s.txDone n m ST.OK true false else s.txDone n m w (m.dep ≤ t) true

/-- The transmission that ends before its last symbol is cut. -/
def State.cutAt (s : State) (n : Nat) (c : TxCmd) (st : Option Nat) (t : Nat) : State :=
  match st with
  | some _ =>
    let cut := (c.members.filter (fun (m : TxMember) => m.dep ≤ t && t < m.fin)).map (fun (m : TxMember) => (m.dep, t))
    (s.setTrx n { s.trx n with ends := (cut ++ (s.trx n).ends).take 32 }).emit (.radioCut n t)
  | none => s

/-- A transmission whose members are recorded. -/
def State.membersDone (s : State) (n : Nat) (c : TxCmd) (st : Option Nat) (t : Nat) : State :=
  let u := (s.cutAt n c st t).each c.members (State.recordOf n st t)
  if c.dep ≤ t then u.offFrom n t else u

theorem State.txStopAt_eq {n : Nat} (h : (s.trx n).onAir = some c) (st : Option Nat) (t : Nat) :
    s.txStopAt n st t = (s.membersDone n c st t).goesOff n ((s.membersDone n c st t).paLowAt n t) := by
  unfold State.txStopAt
  rw [h]
  cases st <;> rfl

/-- What all records do, each record does. -/
theorem State.recordOf_ind {P : State → Prop} {n : Nat} (h : ∀ st sent early, P (s.txDone n m st sent early)) (st : Option Nat) (t : Nat) :
    P (s.recordOf n st t m) := by
  cases st with
  | none => exact h _ _ _
  | some w =>
    unfold State.recordOf
    dsimp only
    split
    · exact h _ _ _
    · exact h _ _ _

theorem State.cutAt_keepsTrx (s : State) (n : Nat) (c : TxCmd) (st : Option Nat) (t : Nat) : s.KeepsTrx n (s.cutAt n c st t) := by
  cases st with
  | none => exact .refl n s
  | some w =>
    refine State.KeepsTrx.trans (.setTrx ?_ ?_) (.of_eq rfl)
    · exact ⟨rfl, rfl, rfl, rfl, rfl⟩
    · rfl

theorem State.cutAt_within {T : List Part} (hT : [.out, .rd] ⊆ T) (s : State) (n : Nat) (c : TxCmd) (st : Option Nat) (t : Nat) :
    State.Within T s (s.cutAt n c st t) := by
  cases st with
  | none => exact .refl _ s
  | some w => exact State.emit_within (State.setTrx_within (.refl _ s) (part_trans (by decide) hT) n _) (part_trans (by decide) hT) _

theorem State.membersDone_keepsTrx (s : State) (n : Nat) (c : TxCmd) (st : Option Nat) (t : Nat) : s.KeepsTrx n (s.membersDone n c st t) := by
  have hr := State.KeepsTrx.each c.members (n := n) (f := State.recordOf n st t) (fun u m => State.recordOf_ind (P := fun v => u.KeepsTrx n v)
    (fun st sent early => u.txDone_keepsTrx n m st sent early) st t) (s.cutAt n c st t)
  have h := (s.cutAt_keepsTrx n c st t).trans hr
  exact .ite (fun _ => h.trans (.within (State.offFrom_within (.refl [.mac] _) (List.Subset.refl _) n t) (by decide) n)) fun _ => h

theorem State.membersDone_within (s : State) (n : Nat) (c : TxCmd) (st : Option Nat) (t : Nat) :
    State.Within [.block 15, .block 7, .freeIx, .mac, .ms, .notes, .out, .queues, .rd] s (s.membersDone n c st t) := by
  have hc : State.Within [.block 15, .block 7, .freeIx, .mac, .ms, .notes, .out, .queues, .rd] s (s.cutAt n c st t) :=
    State.cutAt_within (by decide) s n c st t
  have h := State.each_within hc c.members (State.recordOf n st t) fun u m hu => State.recordOf_ind (P := fun v => State.Within _ s v)
    (fun st sent early => State.txDone_within hu (by decide) n m st sent early) st t
  exact within_ite (fun _ => State.offFrom_within h (by decide) n t) fun _ => h

theorem State.membersDone_spares (s : State) (n : Nat) (c : TxCmd) (st : Option Nat) (t : Nat) :
    s.Spares (doneFields n) [15] (s.membersDone n c st t) := by
  have h : s.Spares (doneFields n) [15] ((s.cutAt n c st t).each c.members (State.recordOf n st t)) :=
    State.Spares.each ((State.cutAt_within (List.Subset.refl _) s n c st t).spares (by decide)) _ fun u hu m _ => hu.trans
      (State.recordOf_ind (P := fun v => u.Spares (doneFields n) [15] v) (fun st sent early => u.txDone_spares n m st sent early) st t)
  exact .ite (fun _ => h.within (State.offFrom_within (.refl [.mac] _) (List.Subset.refl _) n t) (by decide)) fun _ => h

/-- A transmission that ends: nothing is on air any more, the transceiver is in TX until its step out of it ends. -/
theorem State.txStopAt_spec {n : Fin 4} (hi : s.Inv) (h : (s.trx n).onAir = some c) (st : Option Nat) (t : Nat) :
    ((s.txStopAt n st t).trx n).onAir = none ∧ (s.txStopAt n st t).trxState n = 4 ∧ (s.txStopAt n st t).mtb = s.mtb := by
  obtain ⟨ha, h4, hm, -⟩ := State.goesOff_spec (n := n) ((s.membersDone_within n c st t).inv hi) ((s.membersDone n c st t).paLowAt n t)
  rw [State.txStopAt_eq h]
  exact ⟨ha, h4, hm.trans ((s.membersDone_within n c st t).same .mtb (by decide))⟩

/-- Where the step out of TX leads (R151). -/
theorem State.txStopAt_step {n : Fin 4} (hi : s.Inv) (h : (s.trx n).onAir = some c) (hr : (s.trx n).relock = false) (hw : s.su.warm = none)
    (st : Option Nat) (t : Nat) : ((s.txStopAt n st t).trx n).step =
      some ((outOfTx (s.trxTarget n) (s.trx n).calPending).1, s.mtb + (outOfTx (s.trxTarget n) (s.trx n).calPending).2) := by
  have hf : ∀ n : Fin 4, (R.TRX_STATE_TARGET n).ok = true ∧ (∀ g ∈ doneFields n, g.apart (R.TRX_STATE_TARGET n) = true) := by decide
  have hk := (s.membersDone_keepsTrx n c st t).alike
  have hrec := s.membersDone_within n c st t
  have htarget : (s.membersDone n c st t).trxTarget n = s.trxTarget n :=
    (s.membersDone_spares n c st t).getF _ (hf n).1 (hf n).2 (by simp) hi
  have hcal : ((s.membersDone n c st t).trx n).calPending = (s.trx n).calPending := by
    rw [Trx.calPending, hk.cal, Trx.calPending]
  rw [State.txStopAt_eq h, State.goesOff_step (hrec.inv hi) (by rw [hrec.same .su (by decide), hw]) (by rw [hk.relock, hr]), htarget, hcal,
    hrec.same .mtb (by decide)]

theorem State.getF_le_max (s : State) (f : Field) : s.getF f ≤ f.max := Nat.le_pred_of_lt (f.get_lt (s.getReg f.addr))

/-- Each record of a member that was sent counts in SENT. -/
theorem State.sent_each {n : Fin 4} (l : List TxMember) (hi : s.Inv) :
    (s.each l (fun s m => s.txDone n m ST.OK true false)).getF (R.TRX_TX_COUNT0_SENT n) =
      min (R.TRX_TX_COUNT0_SENT n).max (s.getF (R.TRX_TX_COUNT0_SENT n) + l.length) := by
  have hf : ∀ n : Fin 4, (R.TRX_TX_COUNT0_SENT n).ok = true ∧ ST.OK ≠ ST.TX_LATE n ∧ ST.OK ≠ ST.TX_BRAID_LATE n ∧ ST.OK ≠ ST.TX_FENCE n ∧
    ST.OK ≠ ST.TX_FLUSHED n := by decide
  obtain ⟨hok, hlate, hbraid, hfence, hflush⟩ := hf n
  induction l generalizing s with
  | nil => exact (min_eq_right (s.getF_le_max _)).symm
  | cons m l ih =>
    have hcount : s.doneCounted n ST.OK true = s.bump (R.TRX_TX_COUNT0_SENT n) := by
      simp [State.doneCounted, State.raiseIf, hlate, hbraid, hfence, hflush]
    have he : s.each (m :: l) (fun s m => s.txDone n m ST.OK true false) =
      (s.txDone n m ST.OK true false).each l (fun s m => s.txDone n m ST.OK true false) := rfl
    rw [he, ih ((s.txDone_spares n m ST.OK true false).inv hi), State.getF_txDone hi n m ST.OK true false hok (by simp), hcount,
      State.getF_bump _ hok, List.length_cons]
    omega

/-- Each member of a transmission that ends at its last symbol is counted. -/
theorem State.txStopAt_sent {n : Fin 4} (hi : s.Inv) (h : (s.trx n).onAir = some c) (t : Nat) :
    (s.txStopAt n none t).getF (R.TRX_TX_COUNT0_SENT n) =
      min (R.TRX_TX_COUNT0_SENT n).max (s.getF (R.TRX_TX_COUNT0_SENT n) + c.members.length) := by
  have hf : ∀ n : Fin 4, (R.TRX_TX_COUNT0_SENT n).ok = true ∧ (∀ g ∈ offFields n, g.apart (R.TRX_TX_COUNT0_SENT n) = true) := by decide
  obtain ⟨hok, ha⟩ := hf n
  obtain ⟨-, -, -, hs⟩ := State.goesOff_spec (n := n) ((s.membersDone_within n c none t).inv hi) ((s.membersDone n c none t).paLowAt n t)
  have hoff : (s.each c.members (fun s m => s.txDone n m ST.OK true false)).Spares [] [] (s.membersDone n c none t) :=
    .ite (fun _ => (State.offFrom_within (.refl [.mac] _) (List.Subset.refl _) n t).spares (by decide)) fun _ => .refl _ _ _
  have hei : (s.each c.members (fun s m => s.txDone n m ST.OK true false)).Inv :=
    (State.Spares.each (.refl (doneFields n) [15] s) _ fun u hu m _ => hu.trans (u.txDone_spares n m ST.OK true false)).inv hi
  rw [State.txStopAt_eq h, hs.getF _ hok ha (by simp) ((s.membersDone_within n c none t).inv hi), hoff.getF _ hok (by simp) (by simp) hei,
    State.sent_each _ hi]

theorem execTxEnd_ends {n : Fin 4} (hi : s.Inv) (h : (s.trx n).onAir = some c) (he : (s.trx n).ending = none)
    (hc : c.members.all (fun (x : TxMember) => x.commit) = true) : Completes (.txEnd n) s fun t =>
      (t.trx n).onAir = none ∧
      t.trxState n = 4 ∧
      t.mtb = max s.mtb c.fin ∧
      ((s.trx n).relock = false ∧ s.su.warm = none → (t.trx n).step = some ((outOfTx (s.trxTarget n) (s.trx n).calPending).1,
        max s.mtb c.fin + (outOfTx (s.trxTarget n) (s.trx n).calPending).2)) ∧
      t.getF (R.TRX_TX_COUNT0_SENT n) = min (R.TRX_TX_COUNT0_SENT n).max (s.getF (R.TRX_TX_COUNT0_SENT n) + c.members.length) := by
  have hx : execTxEnd n s = .next ((s.advance c.fin).txStopAt n none (s.advance c.fin).mtb) := by
    unfold execTxEnd
    dsimp only
    rw [h]
    dsimp only
    rw [he]
    exact if_pos hc
  have hui : (s.advance c.fin).Inv := (State.advance_within (.refl [.mtb] s) (List.Subset.refl _) c.fin).inv hi
  have hu : ((s.advance c.fin).trx n).onAir = some c := h
  obtain ⟨hair, h4, hm⟩ := State.txStopAt_spec hui hu none (s.advance c.fin).mtb
  exact ⟨_, hx, hair, h4, hm, fun hr => State.txStopAt_step hui hu hr.1 hr.2 none _, State.txStopAt_sent hui hu _⟩

theorem execTxEnd_cuts {n : Fin 4} {w e : Nat} (hi : s.Inv) (h : (s.trx n).onAir = some c) (he : (s.trx n).ending = some (w, e)) :
    Completes (.txEnd n) s fun t => (t.trx n).onAir = none ∧ t.trxState n = 4 ∧ t.mtb = max s.mtb e := by
  have hx : execTxEnd n s = .next ((s.advance e).txStopAt n (some w) (s.advance e).mtb) := by
    unfold execTxEnd
    dsimp only
    rw [h]
    dsimp only
    rw [he]
    rfl
  exact ⟨_, hx, State.txStopAt_spec ((State.advance_within (.refl [.mtb] s) (List.Subset.refl _) e).inv hi) h _ _⟩

theorem execTxEnd_stays {n : Fin 4} (h : (s.trx n).onAir = none ∨ ((s.trx n).ending = none ∧
    (s.trx n).onAir.all (fun (c : TxCmd) => c.members.any (fun (x : TxMember) => !x.commit)) = true)) :
    Completes (.txEnd n) s fun t => t = s := by
  refine ⟨_, (?_ : execTxEnd n s = .next s), rfl⟩
  unfold execTxEnd
  dsimp only
  split
  · rfl
  · next c hc =>
    rcases h with h | ⟨he, hall⟩
    · rw [h] at hc
      cases hc
    · rw [hc] at hall
      rw [he]
      refine if_neg fun hcom => ?_
      obtain ⟨x, hx, hn⟩ := List.any_eq_true.mp hall
      rw [List.all_eq_true.mp hcom x hx] at hn
      exact Bool.false_ne_true hn

end
end Sys2Proof.Machine

namespace Sys2Proof.Machine
open Sys2Proof

section
variable {s t : State} {c : TxCmd} {m : TxMember}

/-! ### The grant was low at the first member's commit (R163) -/

/-- The refusal of a transmission whose grant was low, and its completion records. -/
def State.grantLow (s : State) (n : Nat) (c : TxCmd) : State :=
  (((s.bump (R.TRX_COUNT_COEX_LATE n)).raise (R.TRX_EVENT_COEX_LATE n)).setF (R.TRX_CMD_ERR_STATUS n) (ST.TRX_COEX_LATE n)).each
    c.members (fun s m => s.txDone n m (ST.TRX_COEX_LATE n) false false)

theorem State.coexLate_eq (s : State) (n : Nat) (c : TxCmd) :
    s.coexLate n c = (s.grantLow n c).goesOff n (s.grantLow n c).mtb := rfl

/-- Where the marks of a low grant stand. -/
theorem coexFields_apart : ∀ n : Fin 4, (R.TRX_EVENT_COEX_LATE n).ok = true ∧ (R.TRX_CMD_ERR_STATUS n).ok = true ∧
    (R.TRX_CMD_ERR_STATUS n).apart (R.TRX_EVENT_COEX_LATE n) = true ∧ ST.TRX_COEX_LATE n % 2 ^ 16 = ST.TRX_COEX_LATE n ∧
    (∀ g ∈ doneFields n ++ offFields n, g.apart (R.TRX_EVENT_COEX_LATE n) = true ∧ g.apart (R.TRX_CMD_ERR_STATUS n) = true) := by decide

theorem State.coexLate_spec {n : Fin 4} (hi : s.Inv) (c : TxCmd) : ((s.coexLate n c).trx n).onAir = none ∧
    (s.coexLate n c).isSet (R.TRX_EVENT_COEX_LATE n) = true ∧ (s.coexLate n c).getF (R.TRX_CMD_ERR_STATUS n) = ST.TRX_COEX_LATE n ∧
    (s.coexLate n c).trxState n = 4 := by
  obtain ⟨hev, herr, hap, hst, hall⟩ := coexFields_apart n
  have hdone (g : Field) (hg : g ∈ doneFields n) := hall g (List.mem_append_left _ hg)
  have hoff (g : Field) (hg : g ∈ offFields n) := hall g (List.mem_append_right _ hg)
  have herrw : (R.TRX_CMD_ERR_STATUS n).lo + (R.TRX_CMD_ERR_STATUS n).width ≤ 32 := by simp [R.TRX_CMD_ERR_STATUS]
  generalize hu : ((s.bump (R.TRX_COUNT_COEX_LATE n)).raise (R.TRX_EVENT_COEX_LATE n)).setF (R.TRX_CMD_ERR_STATUS n) (ST.TRX_COEX_LATE n) = u
  have hui : u.Inv := by
    rw [← hu]
    exact State.inv_setF ((State.raise_within (State.bump_within (.refl [.regs, .notes] s) _ (Or.inl (by decide))) (by decide) _
      (Or.inl (by decide))).inv hi) _ _
  have huev : u.isSet (R.TRX_EVENT_COEX_LATE n) = true := by
    rw [← hu, State.isSet, State.getF_setF_ne _ _ _ _ herrw hev hap]
    exact State.isSet_raise_same _ hev rfl
  have huerr : u.getF (R.TRX_CMD_ERR_STATUS n) = ST.TRX_COEX_LATE n := by
    rw [← hu, State.getF_setF_same _ _ _ herr]
    exact hst
  have hlow : u.Spares (doneFields n) [15] (s.grantLow n c) := by
    rw [State.grantLow, hu]
    exact State.Spares.each (.refl _ _ u) _ fun v hv m _ => hv.trans (v.txDone_spares n m _ false false)
  have hli := hlow.inv hui
  obtain ⟨hair, h4, -, hs⟩ := State.goesOff_spec (n := n) hli (s.grantLow n c).mtb
  rw [State.coexLate_eq]
  refine ⟨hair, ?_, ?_, h4⟩
  · rw [hs.isSet hli hev (fun g hg => (hoff g hg).1) (by simp), hlow.isSet hui hev (fun g hg => (hdone g hg).1) (by simp), huev]
  · rw [hs.getF _ herr (fun g hg => (hoff g hg).2) (by simp) hli, hlow.getF _ herr (fun g hg => (hdone g hg).2) (by simp) hui, huerr]

/-! ### What goes on air (R142, R197) -/

theorem State.asn_congr (hi : s.Inv) (h : State.Within [.block 7, .mtb, .notes, .out, .rd] s t) (dep : Nat) : t.asn dep = s.asn dep := by
  have hg (f : Field) (hf : f.ok = true) (hb : regBlock f.addr ≠ 7) : t.getF f = s.getF f :=
    (h.spares (l := []) (bs := [7]) (by decide)).getF f hf (by simp) (by simpa using hb) hi
  have htm := h.same .tm (by decide)
  have hpr := h.same .pr (by decide)
  rw [State.asn, State.asn, State.mesh32, State.mesh32, State.dev32, State.dev32, State.rate, State.rate, State.epoch, State.epoch,
    State.slotCycs, State.slotCycs, htm, hpr, hg _ (by decide) (by decide), hg _ (by decide) (by decide), hg _ (by decide) (by decide)]

theorem State.picot_congr (hi : s.Inv) (h : State.Within [.block 7, .mtb, .notes, .out, .rd] s t) (d : TxDesc) (dep : Nat) :
    t.picot d dep = s.picot d dep := by
  rw [State.picot, State.picot, State.asn_congr hi h, h.same .mac (by decide)]

theorem State.airPsdu_congr (hi : s.Inv) (h : State.Within [.block 7, .mtb, .notes, .out, .rd] s t) (d : TxDesc) (dep : Nat) :
    t.airPsdu d dep = s.airPsdu d dep := by
  rw [State.airPsdu, State.airPsdu, State.picot_congr hi h, State.readBytes_congr (h.same .mem (by decide)), h.same .mac (by decide)]

/-- A member's generator has the channel offset of its transceiver's centre (R168). -/
def State.chanOff (s : State) (n : Nat) (m : TxMember) : Int :=
  match s.trxRec n with | some r => chanSteps n ((m.desc.chanKhz : Int) - r.centreKhz) | none => 0

theorem State.chanOff_congr (h : t.pr = s.pr) (n : Nat) (m : TxMember) : t.chanOff n m = s.chanOff n m := by
  rw [State.chanOff, State.chanOff, State.trxRec, State.trxRec, h]

/-- A frame leaves with its power, picot, channel offset and octets. -/
theorem State.onAirOut_radio (hi : s.Inv) (n gen : Nat) (p : Int) (hk : m.desc.kind ≠ 4) :
    (s.onAirOut n gen m p).out.head? =
      some (.radio n gen m.desc m.dep p (s.picot m.desc m.dep) (s.chanOff n m) (s.airPsdu m.desc m.dep)) := by
  unfold State.onAirOut
  extract_lets d off w u
  have hu : State.Within [.block 7, .mtb, .notes, .out, .rd] s u :=
    within_ite (fun _ => .refl _ s) fun _ => State.emit_within (.refl _ s) (by decide) _
  rw [if_neg hk, State.emit, State.picot_congr hi hu, State.airPsdu_congr hi hu]
  rfl

/-- A wake-keying frame leaves with its power, channel offset and chips. -/
theorem State.onAirOut_wake (s : State) (n gen : Nat) (p : Int) (hk : m.desc.kind = 4) : (s.onAirOut n gen m p).out.head? =
    some (.wake n m.desc m.dep p (s.chanOff n m) (chipCyc m.rate)
      (wakeChips (wakeBits m.pre (m.desc.buf % 256) m.desc.len (m.desc.buf / 65536)))) := by
  unfold State.onAirOut
  dsimp only
  rw [if_pos hk]
  rfl

/-! ### Commit (R159, R209) -/

/-- The power that a member asks for. -/
def State.askOf (s : State) (n : Nat) (m : TxMember) : Int :=
  if m.desc.power = 0x80 then signed 8 (s.getF (R.TRX_PWR_DEFAULT n)) else signed 8 m.desc.power

/-- The power that a member of a command may have at most. -/
def State.capOf (s : State) (n : Nat) (c : TxCmd) : Int :=
  if c.braid then signed 8 (s.getF (R.TRX_PWR_LIMIT n)) - braidCut c.budget else signed 8 (s.getF (R.TRX_PWR_LIMIT n))

/-- A member with its power fixed. -/
def State.fixed (s : State) (n : Nat) (c : TxCmd) (m : TxMember) : TxMember :=
  { m with power := unsigned 8 (min (s.askOf n m) (s.capOf n c)), clipped := decide (s.capOf n c < s.askOf n m), commit := true }

/-- The transmission on air with a member's power fixed, FEM_PA_EN up. -/
def State.powered (s : State) (n : Nat) (c : TxCmd) (m : TxMember) : State :=
  let c1 : TxCmd := { c with members := c.members.map (fun (x : TxMember) =>
    if x.desc = m.desc && x.dep = m.dep && !x.commit then s.fixed n c m else x) }
  let lag := match (s.trx n).lag with | some k => k | none => s.getF (R.TRX_FEM_PA_LAG n)
  (s.setTrx n { s.trx n with onAir := some c1, lag := some lag }).paRise n

/-- A request above the limit is reported. -/
def State.clipped (s : State) (n : Nat) (tooMuch : Bool) : State :=
  if tooMuch then (s.bump (R.TRX_COUNT_PWR_CLIP n)).raise (R.TRX_EVENT_PWR_CLIP n) else s

/-- The state in which a member goes on air. -/
def State.committed (s : State) (n : Nat) (c : TxCmd) (m : TxMember) : State :=
  let u := s.advance (m.dep - 4096)
  (u.powered n c m).clipped n (decide (signed 8 (s.getF (R.TRX_PWR_LIMIT n)) < s.askOf n m))

theorem execTxCommit_eq {n : Fin 4} {g : Bool} (h : (s.trx n).onAir = some c) (hm : c.nextCommit = some m)
    (hg : s.coexOn n = false ∨ g = true ∨ c.members.any (fun (x : TxMember) => x.commit) = true) :
    execTxCommit n g s = .next ((s.committed n c m).onAirOut n
      ((c.members.findIdx? (fun (x : TxMember) => decide (x.desc = m.desc) && decide (x.dep = m.dep))).getD 0)
      (s.fixed n c m) (min (s.askOf n m) (s.capOf n c))) := by
  have hc : ¬ ((s.advance (m.dep - 4096)).coexOn n && c.members.all (fun x => !x.commit) && !g) = true := by
    have hx : (s.advance (m.dep - 4096)).coexOn n = s.coexOn n := rfl
    rw [hx]
    rcases hg with hg | hg | hg
    · simp [hg]
    · simp [hg]
    · obtain ⟨x, hx, hcx⟩ := List.any_eq_true.mp hg
      simp only [Bool.and_eq_true, List.all_eq_true]
      intro hall
      simpa [hcx] using hall.1.2 x hx
  unfold execTxCommit
  dsimp only
  rw [h]
  dsimp only
  rw [hm]
  dsimp only
  rw [if_neg hc]
  cases c.members.findIdx? (fun (x : TxMember) => decide (x.desc = m.desc) && decide (x.dep = m.dep)) <;> rfl

theorem State.committed_within (s : State) (n : Nat) (c : TxCmd) (m : TxMember) :
    State.Within [.block 7, .mtb, .notes, .out, .rd] s (s.committed n c m) := by
  have hp : State.Within [.block 7, .mtb, .notes, .out, .rd] s ((s.advance (m.dep - 4096)).powered n c m) :=
    State.paRise_within (State.setTrx_within (State.advance_within (.refl _ s) (by decide) _) (by decide) n _) (by decide) n
  exact within_ite (fun _ => State.raise_within (State.bump_within hp _ (Or.inr (by simp))) (by decide) _ (Or.inr (by simp))) fun _ => hp

theorem State.committed_mtb (s : State) (n : Nat) (c : TxCmd) (m : TxMember) : (s.committed n c m).mtb = max s.mtb (m.dep - 4096) := by
  have h : State.Within [.block 7, .notes, .out, .rd] (s.advance (m.dep - 4096)) (s.committed n c m) := by
    have hp : State.Within [.block 7, .notes, .out, .rd] (s.advance (m.dep - 4096)) ((s.advance (m.dep - 4096)).powered n c m) :=
      State.paRise_within (State.setTrx_within (.refl _ _) (by decide) n _) (by decide) n
    exact within_ite (fun _ => State.raise_within (State.bump_within hp _ (Or.inr (by simp))) (by decide) _ (Or.inr (by simp))) fun _ => hp
  rw [h.same .mtb (by decide), State.advance_mtb]

theorem State.committed_clip {n : Fin 4} (hl : signed 8 (s.getF (R.TRX_PWR_LIMIT n)) < s.askOf n m) :
    (s.committed n c m).isSet (R.TRX_EVENT_PWR_CLIP n) = true := by
  rw [State.committed, State.clipped, if_pos (decide_eq_true hl)]
  exact State.isSet_raise_same _ ((by decide : ∀ n : Fin 4, (R.TRX_EVENT_PWR_CLIP n).ok = true) n) rfl

theorem execTxCommit_commits {n : Fin 4} {g : Bool} {a p f : Int} {k : Nat} (hi : s.Inv) (h : (s.trx n).onAir = some c)
    (hm : c.nextCommit = some m)
    (hg : s.coexOn n = false ∨ g = true ∨ c.members.any (fun (x : TxMember) => x.commit) = true)
    (ha : a = (if m.desc.power = 0x80 then signed 8 (s.getF (R.TRX_PWR_DEFAULT n)) else signed 8 m.desc.power))
    (hp : p = min a (if c.braid then signed 8 (s.getF (R.TRX_PWR_LIMIT n)) - braidCut c.budget else signed 8 (s.getF (R.TRX_PWR_LIMIT n))))
    (hf : f = s.chanOff n m)
    (hk : k = (c.members.findIdx? (fun (x : TxMember) => decide (x.desc = m.desc) && decide (x.dep = m.dep))).getD 0) :
    Completes (.txCommit n g) s fun t =>
      t.mtb = max s.mtb (m.dep - 4096) ∧
      (m.desc.kind ≠ 4 → t.out.head? = some (.radio n k m.desc m.dep p (s.picot m.desc m.dep) f (s.airPsdu m.desc m.dep))) ∧
      (m.desc.kind = 4 → t.out.head? = some (.wake n m.desc m.dep p f (chipCyc m.rate)
        (wakeChips (wakeBits m.pre (m.desc.buf % 256) m.desc.len (m.desc.buf / 65536))))) ∧
      (signed 8 (s.getF (R.TRX_PWR_LIMIT n)) < a → t.isSet (R.TRX_EVENT_PWR_CLIP n) = true) := by
  subst ha hp hf hk
  have hw := s.committed_within n c m
  have hoff : (s.committed n c m).chanOff n (s.fixed n c m) = s.chanOff n m := State.chanOff_congr (hw.same .pr (by decide)) n _
  have hout (k : Nat) (p : Int) : State.Within [.out] (s.committed n c m) ((s.committed n c m).onAirOut n k (s.fixed n c m) p) :=
    State.onAirOut_within (.refl _ _) (List.Subset.refl _) n k _ p
  refine ⟨_, execTxCommit_eq h hm hg, ?_, fun hk => ?_, fun hk => ?_, fun hl => ?_⟩
  · rw [(hout _ _).same .mtb (by decide), s.committed_mtb]
  · rw [State.onAirOut_radio (m := s.fixed n c m) (hw.inv hi) n _ _ hk, hoff, State.picot_congr hi hw, State.airPsdu_congr hi hw]
    rfl
  · rw [State.onAirOut_wake (m := s.fixed n c m) _ n _ _ hk, hoff]
    rfl
  · rw [((hout _ _).spares (l := []) (bs := []) (by decide)).isSet (hw.inv hi)
      ((by decide : ∀ n : Fin 4, (R.TRX_EVENT_PWR_CLIP n).ok = true) n) (by simp) (by simp)]
    exact State.committed_clip hl

theorem execTxCommit_late {n : Fin 4} {g : Bool} (hi : s.Inv) (h : (s.trx n).onAir = some c) (hm : c.nextCommit = some m)
    (hall : c.members.all (fun (x : TxMember) => !x.commit) = true) (hg : s.coexOn n = true ∧ g = false) :
    Completes (.txCommit n g) s fun t => (t.trx n).onAir = none ∧ t.isSet (R.TRX_EVENT_COEX_LATE n) = true ∧
      t.getF (R.TRX_CMD_ERR_STATUS n) = ST.TRX_COEX_LATE n ∧ t.trxState n = 4 := by
  have hx : execTxCommit n g s = .next ((s.advance (m.dep - 4096)).coexLate n c) := by
    unfold execTxCommit
    dsimp only
    rw [h]
    dsimp only
    rw [hm]
    refine if_pos ?_
    rw [hall, hg.2]
    exact congrArg (fun b => b && true && !false) hg.1
  exact ⟨_, hx, State.coexLate_spec ((State.advance_within (.refl [.mtb] s) (List.Subset.refl _) _).inv hi) c⟩

theorem execTxCommit_stays {n : Fin 4} {g : Bool} (h : (s.trx n).onAir.all (fun (c : TxCmd) => decide (c.nextCommit = none)) = true) :
    Completes (.txCommit n g) s fun t => t = s := by
  refine ⟨_, (?_ : execTxCommit n g s = .next s), rfl⟩
  unfold execTxCommit
  dsimp only
  split
  · rfl
  · next c hc =>
    rw [hc] at h
    rw [of_decide_eq_true h]

end
end Sys2Proof.Machine

section
open Sys2Proof Sys2Proof.Machine

/-- Settles O20: a descriptor taken is judged in the state that has taken it, and what replans a plan maps its commands without changing
what they ask for; the end of a transmission by what its records, its lines and the step out of TX each leave. -/
theorem shuttleCommands : Obligations.ShuttleCommands := by
  unfold Obligations.ShuttleCommands
  intro s hi
  refine ⟨?_, ?_, ?_, ?_, ?_, ?_, ?_, ?_, ?_, ?_, ?_, ?_, ?_, ?_, ?_, ?_, ?_, ?_, ?_, ?_, ?_⟩
  · exact fun n u q e d hh hq he hd hk hr =>
      ⟨_, rfl, State.txTake_enters hh hq he hd (by simp [hk]) (by omega) (decide_eq_false (by omega)) hr⟩
  · exact fun n u q w e d hh hq he hd hk hr => ⟨_, rfl, State.txTake_refuses hi hh hq he hd (by simpa using hk) hr⟩
  · exact fun n u q e d hh hq he hd hk hr =>
      ⟨_, rfl, State.txTake_enters hh hq he hd (by simp [hk]) (by omega) (decide_eq_true hk) hr⟩
  · exact fun n u q w e d hh hq he hd hk hr => ⟨_, rfl, State.txTake_refuses hi hh hq he hd (by simp [hk]) hr⟩
  · exact fun n u q e d b hh hq he hd hk hb hr => ⟨_, rfl, State.txTake_joins hh hq he hd (by simp [hk]) hk hb hr⟩
  · exact fun n u q w e d hh hq he hd hk hr => ⟨_, rfl, State.txTake_refuses hi hh hq he hd (by simp [hk]) hr⟩
  · exact fun n u q e d hh hq he hd hk hr =>
      ⟨_, rfl, State.txTake_enters hh hq he hd (by simp [hk]) (by omega) (decide_eq_false (by omega)) hr⟩
  · exact fun n u q w e d hh hq he hd hk hr => ⟨_, rfl, State.txTake_refuses hi hh hq he hd (by simp [hk]) hr⟩
  · exact fun n u q e d hh hq he hd hk hr =>
      ⟨_, rfl, State.txTake_enters hh hq he hd (by simp [hk]) (by omega) (decide_eq_false (by omega)) hr⟩
  · exact fun n u q w e d hh hq he hd hk hr => ⟨_, rfl, State.txTake_refuses hi hh hq he hd (by simp [hk]) hr⟩
  · exact fun n u c hc hl hm => execTxLateDrop_drops hi hc hl hm
  · exact fun n u c h => execTxLateDrop_stays h
  · exact fun n c hc hp hw hst hrest ht hd hh hs => execTxLaunch_launches hi hc hp hw hst hrest ht hd hh hs
  · exact fun n c b hc hp hw hst hrest ht hb hs => execTxLaunch_drops hi hc hp hw hst hrest ht hb hs
  · exact fun n h => execTxLaunch_stays h
  · exact fun n g c m a p f k h hm hg ha hp hf hk => execTxCommit_commits hi h hm hg ha hp (hf.trans rfl) hk
  · exact fun n g c m h hm hall hg => execTxCommit_late hi h hm hall hg
  · exact fun n g h => execTxCommit_stays h
  · exact fun n c h he hc => execTxEnd_ends hi h he hc
  · exact fun n w e c h he => execTxEnd_cuts hi h he
  · exact fun n h => execTxEnd_stays h

end

namespace Sys2Proof.Machine
open Sys2Proof

/-! ### The exit from UNPOWERED (R78, R96) -/

/-- An exit from UNPOWERED that is not the first since VBAT was applied leaves its cause in START_CAUSE, cut to the four bits of
CAUSE. -/
theorem supplyGoodIntervalEnd_cause {s : State} (hd : s.dev = devUnpowered) (hon : s.su.intervalOn = true)
    (hf : s.su.vbatFresh = false) {m : Fin 4} (hm : (m : Nat) ≠ 3) :
    Completes (.supplyGoodIntervalEnd m) s fun t => t.getF R.START_CAUSE_CAUSE = s.su.cause % 2 ^ 4 := by
  have hgo : ¬ (decide (s.dev ≠ devUnpowered) || !s.su.intervalOn) = true := by simp [hd, hon]
  refine ⟨_, if_neg hgo, ?_⟩
  rw [if_neg hm, State.exitCause, if_neg (by simp [hf]), State.writeCause, State.bump_eq, State.setDev_eq]
  simp (disch := decide) only [State.getF_setF_ne, State.getF_setF_same]
  rfl

/-- UNPOWERED at the end of the interval, with a cause of four bits. -/
def wideCauseState : State := { su := { intervalOn := true, cause := 8 } }

end Sys2Proof.Machine

section
open Sys2Proof Sys2Proof.Machine

/-- Refutes O2: its fifth clause cuts the cause to three bits, START_CAUSE.CAUSE has four, [19:16], so the cause 8 of
`wideCauseState` shows as 8 and not as 0. No command sets a cause above 2, but the clause speaks of every state that meets the
invariant, which says nothing of the cause. -/
theorem not_supplyCommands : ¬ Obligations.SupplyCommands := by
  unfold Obligations.SupplyCommands
  intro h
  obtain ⟨-, -, -, -, hend, -⟩ := h wideCauseState
  obtain ⟨t, ht, -, -, -, -, -, hclause⟩ := hend 0 (by decide) (by decide) rfl
  obtain ⟨v, hv, hcause⟩ := supplyGoodIntervalEnd_cause (s := wideCauseState) (by decide) rfl rfl (m := 0) (by decide)
  have htv : t = v := Host.Outcome.next.inj (ht.symm.trans hv)
  rw [htv, hcause] at hclause
  exact absurd hclause (by decide)

end

namespace Sys2Proof.Machine
open Sys2Proof

/-! ### READY and its watchdog (R89, R91) -/

/-- What a warm reset's request can touch once it is noted: no part of start-up. -/
def flushParts : List Part :=
  [.block 11, .block 12, .block 14, .block 15, .block 16, .block 20, .block 21, .block 6, .block 7, .cmp, .freeIx, .ky, .mac, .mem,
    .ms, .mtb, .notes, .out, .pa, .pl, .queues, .rd, .resp, .ro, .ry, .sl, .tm]

section
variable {s : State} {u : Nat}

/-- A warm reset's request is recorded and noted (R95). -/
def State.warmAsked (s : State) (k : Nat) : State :=
  let s := s.auditNote ⟨7, 0, 0, 0, R.SYS_RESET, 0, k⟩
  { s with su := { s.su with warm := some k } }

/-- Transmissions end and what waits is flushed before a warm reset (R95, R155). -/
def State.warmFlushed (s : State) : State :=
  s.selfFault.macFlush.each (List.range 4) fun s n =>
    let s := s.txFlush n
    if (s.trx n).onAir.isSome then s.txEndSoon n (ST.TX_FLUSHED n) else s.toSleep n

theorem State.requestWarm_eq (h : s.su.warm = none) (k : Nat) : s.requestWarm k = (s.warmAsked k).warmFlushed :=
  if_neg (by simp [h])

theorem State.warmAsked_su (s : State) (k : Nat) : (s.warmAsked k).su = { s.su with warm := some k } := by
  have h : (s.auditNote ⟨7, 0, 0, 0, R.SYS_RESET, 0, k⟩).su = s.su :=
    (State.auditNote_within (.refl _ s) (List.Subset.refl _) _).same .su (by decide)
  rw [State.warmAsked, h]

theorem State.warmFlushed_within (s : State) : State.Within flushParts s s.warmFlushed :=
  State.each_within (State.macFlush_within (State.selfFault_within (.refl flushParts s) (by decide)) (by decide)) _ _ fun _ n ht =>
    within_ite (fun _ => State.txEndSoon_within (State.txFlush_within ht (by decide) n) (by decide) n _)
      (fun _ => State.toSleep_within (State.txFlush_within ht (by decide) n) (by decide) n)

theorem State.requestWarm_su (h : s.su.warm = none) (k : Nat) : (s.requestWarm k).su = { s.su with warm := some k } := by
  rw [State.requestWarm_eq h, (s.warmAsked k).warmFlushed_within.same .su (by decide), State.warmAsked_su]

theorem readyWrite_taken (h : s.starting = true) : Completes (.readyWrite true) s fun t =>
    t.getF R.START_STATE_READY = 1 ∧ t.resp = ST.OK := by
  have ht : s.readyWrite true = (s.setF R.START_STATE_READY 1).answer ST.OK := by simp [State.readyWrite, h]
  exact ⟨_, congrArg Host.Outcome.next ht, State.getF_setF_same s _ 1 (by decide), rfl⟩

theorem readyTimeout_fails (hi : s.Inv) (hs : s.starting = true) (hr : s.isSet R.START_STATE_READY = false) (hh : s.su.heldAt = 0)
    (hw : s.su.warm = none) (hu : s.su.serviceAt + msToCyc (s.getF R.START_WDOG_LIMIT_MS) ≤ max s.mtb u) :
    Completes (.readyTimeout u) s fun t => t.su.warm = some 5 ∧ t.su.failedSlots = s.su.failedSlots ++ [s.booted] := by
  have hwaits : ¬ (!s.starting || s.isSet R.START_STATE_READY || decide (s.su.heldAt ≠ 0) || s.su.warm.isSome) = true := by
    simp [hs, hr, hh, hw]
  have hcheck : (s.advance u).readyCheck = ((s.advance u).bootCount ST.START_READY_TIMEOUT 0xF00 0).requestWarm 5 :=
    (if_neg hwaits).trans (if_pos hu)
  obtain ⟨-, -, hsu⟩ := State.bootCount_spec (s := s.advance u) hi ST.START_READY_TIMEOUT 0xF00 0
  have hwarm := State.requestWarm_su (s := (s.advance u).bootCount ST.START_READY_TIMEOUT 0xF00 0) (by rw [hsu]; exact hw) 5
  refine ⟨_, (if_neg hwaits).trans (congrArg Host.Outcome.next hcheck), ?_⟩
  dsimp only
  rw [hwarm, hsu]
  exact ⟨rfl, rfl⟩

/-! ### RUNNING begins (R92) -/

/-- RUNNING's registers as it begins. -/
def State.runRegs (s : State) : State :=
  let s := (s.setF R.START_STATE_PHASE 2).setF R.START_T_RUN_T (s.mtb / 64)
  (s.raise R.SYS_EVENT_RUNNING).setF R.START_BOOT_FAILS 0

/-- The hold ends, and the slots' failures are forgotten. -/
def State.runUnheld (s : State) : State := { s with su := { s.su with failedSlots := [], heldAt := 0, heldFrom := none } }

/-- RUNNING's moment is noted for network time. -/
def State.runTimed (s : State) : State := { s with tm := { s.tm with runAt := s.mtb } }

/-- RUNNING's moment is noted for the pair. -/
def State.runPaired (s : State) : State := { s with pa := { s.pa with runAt := some s.mtb } }

/-- RUNNING's begin up to its moment: its registers, the hold's end, the release of the outputs. -/
def State.runMarked (s : State) : State := s.runRegs.runUnheld.releaseOutputs.runTimed.runPaired

theorem State.getF_runRegs_phase (s : State) : s.runRegs.getF R.START_STATE_PHASE = 2 := by
  have hok : R.START_STATE_PHASE.ok = true := by decide
  unfold State.runRegs
  dsimp only
  rw [State.getF_setF_ne _ _ _ _ (by decide) hok (by decide), State.getF_raise_ne _ _ _ (by decide) hok (by decide),
    State.getF_setF_ne _ _ _ _ (by decide) hok (by decide), State.getF_setF_same _ _ _ hok]
  rfl

theorem State.runRegs_within (s : State) : State.Within [.block 0, .block 2, .notes] s s.runRegs :=
  State.setF_within (State.raise_within (State.setF_within (State.setF_within (.refl _ s) _ (Or.inr (by simp)) _) _
    (Or.inr (by simp)) _) (by decide) _ (Or.inr (by simp))) _ (Or.inr (by simp)) _

theorem State.releaseOutputs_su (s : State) : s.releaseOutputs.su = { s.su with outputs := true } := by
  have hlines (t : State) (l : List Nat) : State.Within [.out] t (t.each l fun s n =>
      (s.emit (.line n 2 (s.isSet (R.TRX_FEM_CTRL_BYP n)) s.mtb)).emit (.line n 3 (s.isSet (R.TRX_FEM_CTRL_ANT_RX n)) s.mtb)) :=
    State.each_within (.refl _ t) l _ fun _ n ht => State.emit_within (State.emit_within ht (by decide) _) (by decide) _
  exact (State.gpioDrive_within (hlines _ _) (by decide)).same .su (by decide)

theorem State.runUnheld_within (s : State) : State.Within [.su] s s.runUnheld := by
  apply within_upd (.refl [.su] s) <;> first | exact Or.inl rfl | exact Or.inr (by decide)

theorem State.runTimed_within (s : State) : State.Within [.tm] s s.runTimed := by
  apply within_upd (.refl _ s) <;> first | exact Or.inl rfl | exact Or.inr (by decide)

theorem State.runPaired_within (s : State) : State.Within [.pa] s s.runPaired := by
  apply within_upd (.refl _ s) <;> first | exact Or.inl rfl | exact Or.inr (by decide)

/-- The marks are start-up's own, RUNNING's moment and the outputs; the registers are those set before them. -/
theorem State.runMarked_within (s : State) : State.Within [.out, .pa, .su, .tm] s.runRegs s.runMarked := by
  have h1 := s.runRegs.runUnheld_within.mono (m := [.out, .pa, .su, .tm]) (by decide)
  have h2 := State.releaseOutputs_within h1 (by decide)
  rw [State.runMarked]
  exact (h2.trans ((State.runTimed_within _).mono (by decide))).trans ((State.runPaired_within _).mono (by decide))

theorem State.runMarked_su (s : State) :
    s.runMarked.su = { s.su with failedSlots := [], heldAt := 0, heldFrom := none, outputs := true } := by
  have hr : s.runRegs.su = s.su := s.runRegs_within.same .su (by decide)
  have hu : s.runRegs.runUnheld.su = { s.runRegs.su with failedSlots := [], heldAt := 0, heldFrom := none } := rfl
  rw [State.runMarked, (State.runPaired_within _).same .su (by decide), (State.runTimed_within _).same .su (by decide),
    State.releaseOutputs_su, hu, hr]

theorem State.runTimed_runAt (s : State) : s.runTimed.tm.runAt = s.mtb := rfl

theorem State.runMarked_runAt (s : State) : s.runMarked.tm.runAt = s.mtb := by
  have ho := State.releaseOutputs_within (.refl _ s.runRegs.runUnheld) (List.Subset.refl _)
  rw [State.runMarked, (State.runPaired_within _).same .tm (by decide), State.runTimed_runAt, ho.same .mtb (by decide),
    s.runRegs.runUnheld_within.same .mtb (by decide), s.runRegs_within.same .mtb (by decide)]

/-- What RUNNING's begin can touch once it is marked: neither start-up nor device time. -/
def runParts : List Part :=
  [.block 11, .block 12, .block 14, .block 16, .block 17, .block 21, .block 22, .block 7, .flash, .freeIx, .gd, .ky, .mac, .mem,
    .ms, .notes, .out, .pa, .pl, .queues, .rd, .ro, .ry, .sl, .up]

theorem trxTarget_block : ∀ n < 4, regBlock (R.TRX_STATE_TARGET n).addr = 7 := by decide

section
variable {t : State} (h : State.Within runParts s t)
include h

/-- The transceivers that have passed their calibration go to RX (R156). -/
theorem State.receives_within : State.Within runParts s (t.each ((List.range 4).filter (fun n => (t.trxRec n).isSome &&
    t.isSet (R.TRX_CAL_STAT_CAL_OK n))) (fun s n => ((s.setF (R.TRX_STATE_TARGET n) 3).trxGo n).replan n)) :=
  State.each_within_mem h _ _ fun v n hn hv => by
    have hb := trxTarget_block n (List.mem_range.mp (List.mem_filter.mp hn).1)
    exact State.replan_within (State.trxGo_within (State.setF_within hv _ (Or.inr (by rw [hb]; decide)) _) (by decide) n)
      (by decide) n

/-- A unit that is not in a pair, or is its active one, rebuilds its sleepy nodes (R260). -/
theorem State.rebuilds_within :
    State.Within runParts s (if t.pairRole < 2 then { t with sl := { t.sl with rebuild := some 0 } } else t) := by
  refine within_ite (fun _ => ?_) fun _ => h
  apply within_upd h <;> first | exact Or.inl rfl | exact Or.inr (by decide)

end

theorem State.goRunning_within_marked (s : State) : State.Within runParts s.runMarked s.goRunning := by
  refine State.trialStart_within (State.firstRec_within (State.rebuilds_within (State.each_within
    (State.keysAgain_within (State.receives_within ?_) ?_) _ _ fun _ p ht => State.trickleReset_within ht ?_ p)) ?_) ?_
  · exact .refl _ _
  all_goals decide

theorem State.goRunning_spec (hi : s.Inv) : s.goRunning.getF R.START_STATE_PHASE = 2 ∧
    s.goRunning.su = { s.su with failedSlots := [], heldAt := 0, heldFrom := none, outputs := true } ∧
    s.goRunning.tm.runAt = s.mtb := by
  have hb := s.goRunning_within_marked
  have hkeep := (s.runMarked_within.keepsF (f := R.START_STATE_PHASE) (by decide) (by decide)).trans
    (hb.keepsF (by decide) (by decide))
  refine ⟨(hkeep (s.runRegs_within.inv hi)).2.trans s.getF_runRegs_phase, ?_, ?_⟩
  · rw [hb.same .su (by decide), State.runMarked_su]
  · rw [hb.same .tm (by decide), State.runMarked_runAt]

theorem enterRunning_begins (hi : s.Inv) (hs : s.starting = true) (hr : s.isSet R.START_STATE_READY = true) (hh : s.su.heldAt = 0)
    (hw : s.su.warm = none) (hc : s.erasedLike = true ∨ ∀ n ∈ List.range 4, (s.trxRec n).isNone = true ∨ n ∈ s.su.calDone) :
    Completes (.enterRunning u) s fun t =>
      (if s.getF R.START_OPT_HALT = 3 then t.su.heldAt = 3 ∧ t.getF R.START_STATE_PHASE = 3
        else t.su.outputs = true ∧ t.tm.runAt = max s.mtb u ∧ t.su.failedSlots = [] ∧ t.getF R.START_STATE_PHASE = 2) := by
  have hdone : ((List.range 4).all (fun n => (s.trxRec n).isNone || s.su.calDone.contains n) || s.erasedLike) = true := by
    rw [Bool.or_eq_true, List.all_eq_true]
    rcases hc with hc | hc
    · exact Or.inr hc
    · exact Or.inl fun n hn => by simpa using hc n hn
  have hgo : ¬ (!s.starting || !s.isSet R.START_STATE_READY || decide (s.su.heldAt ≠ 0) || s.su.warm.isSome ||
      !((List.range 4).all (fun n => (s.trxRec n).isNone || s.su.calDone.contains n) || s.erasedLike)) = true := by
    rw [hdone]
    simp [hs, hr, hh, hw]
  refine ⟨_, if_neg hgo, ?_⟩
  change if (s.advance u).getF R.START_OPT_HALT = 3 then _ else _
  by_cases h3 : (s.advance u).getF R.START_OPT_HALT = 3
  · rw [if_pos h3, if_pos h3]
    exact State.holdAt_spec _
  · rw [if_neg h3, if_neg h3]
    obtain ⟨hp, hsu, ht⟩ := State.goRunning_spec (s := s.advance u) hi
    rw [hsu]
    exact ⟨rfl, ht, rfl, hp⟩

/-! ### CONTINUE (R93) -/

/-- The hold ends (R93). -/
def State.unheld (s : State) : State :=
  ({ s with su := { s.su with heldAt := 0, heldFrom := none } }).setF R.START_STATE_PHASE 0

theorem execContinueWrite_eq (hh : s.su.heldAt ≠ 0) : execContinueWrite u s = .next (State.answer
    (if s.su.heldAt = 1 then (s.heardAt u).unheld.enterBoot else if s.su.heldAt = 2 then (s.heardAt u).unheld.enterLoad
      else (s.heardAt u).unheld.goRunning) ST.OK) := by
  have hsu : (s.heardAt u).su = s.su := by rw [State.heardAt_eq]
  have hc : (s.heardAt u).continueWrite = State.answer
      (if (s.heardAt u).su.heldAt = 1 then (s.heardAt u).unheld.enterBoot else if (s.heardAt u).su.heldAt = 2 then
        (s.heardAt u).unheld.enterLoad else (s.heardAt u).unheld.goRunning) ST.OK := if_neg (by rw [hsu]; exact hh)
  rw [hsu] at hc
  exact congrArg Host.Outcome.next hc

theorem State.dev_answer (s : State) (st : Nat) : (s.answer st).dev = s.dev := rfl

/-- What PRICKING_LOAD's entry notes beside its registers. -/
def State.loadMarked (s : State) : State :=
  { s with su := { s.su with loadAt := s.mtb, benchWait := s.isSet R.START_OPT_BENCH } }

theorem State.loadMarked_heldAt (s : State) : s.loadMarked.su.heldAt = s.su.heldAt := rfl

theorem State.enterLoad_eq (s : State) :
    s.enterLoad = ((s.setDev devLoad).setF R.START_T_LOAD_T (s.mtb / 64)).loadMarked := rfl

theorem State.enterLoad_heldAt (s : State) : s.enterLoad.su.heldAt = s.su.heldAt := by
  rw [State.enterLoad_eq, State.loadMarked_heldAt, State.setF_su, State.setDev_eq, State.setF_su]

theorem continueWrite_continues (hi : s.Inv) (hh : s.su.heldAt ≠ 0) : Completes (.continueWrite u) s fun t =>
      t.resp = ST.OK ∧
      (s.su.heldAt = 1 → t.dev = devBoot) ∧
      (s.su.heldAt = 2 → t.dev = devLoad ∧ t.su.heldAt = 0) ∧
      (3 ≤ s.su.heldAt → t.getF R.START_STATE_PHASE = 2 ∧ t.su.outputs = true ∧ t.su.heldAt = 0) := by
  have hu : (s.heardAt u).unheld.Inv := State.inv_setF (s := { s.heardAt u with su := _ }) (State.heardAt_inv hi u) _ _
  refine ⟨_, execContinueWrite_eq hh, rfl, fun h1 => ?_, fun h2 => ?_, fun h3 => ?_⟩
  · rw [State.dev_answer, if_pos h1]
    exact (State.enterBoot_booting hu).dev.elim id id
  · rw [State.dev_answer, State.answer_su, if_neg (by omega), if_pos h2]
    exact ⟨State.enterLoad_dev _, State.enterLoad_heldAt _⟩
  · obtain ⟨hp, hsu, -⟩ := State.goRunning_spec hu
    rw [State.getF_answer, State.answer_su, if_neg (by omega), if_neg (by omega), hsu]
    exact ⟨hp, rfl, rfl⟩

/-! ### The warm reset (R95) -/

theorem warmResetWrite_asks (hs : s.inService = true) (ha : s.auditRoom = true) (hw : s.su.warm = none) :
    Completes (.warmResetWrite u) s fun t => t.su.warm = some 4 ∧ t.resp = ST.OK := by
  have hs' : (s.heardAt u).inService = true := by simpa only [State.inService, State.heardAt_dev] using hs
  have ha' : (s.heardAt u).auditRoom = true := by rw [State.heardAt_eq]; exact ha
  have hw' : (s.heardAt u).su.warm = none := by rw [State.heardAt_eq]; exact hw
  have ht : (s.heardAt u).warmWrite = ((s.heardAt u).requestWarm 4).answer ST.OK :=
    (if_neg (by simp [hs'])).trans (if_neg (by simp [ha']))
  refine ⟨_, congrArg Host.Outcome.next ht, ?_, rfl⟩
  rw [State.answer_su, State.requestWarm_su hw']

/-- A reset clears the tables beside the registers, the pricking and the service port (R94). -/
theorem State.resetBlocks_clears (s : State) (k : Nat) (fault : Bool) : (s.resetBlocks k fault).pr = Pricking.none ∧
    (s.resetBlocks k fault).gd = {} ∧ (s.resetBlocks k fault).svc = {} := by
  unfold State.resetBlocks
  extract_lets s1 s2 park pll mode lock tie warm keepTab s3 s4 s5 s6
  have h5 : State.Within [.regs] s4 s5 := within_ite (fun _ => State.setF_within (State.setF_within (.refl _ s4) _
    (Or.inl (by simp)) _) _ (Or.inl (by simp)) _) fun _ => .refl _ s4
  have h6 : State.Within [.regs] s4 s6 := within_ite (fun _ => State.setF_within h5 _ (Or.inl (by simp)) _) fun _ => h5
  have h7 : State.Within [.regs] s4 (if warm then (s6.setF R.START_STATE_SRC_LOCK lock).setF R.PAIR_STATE_TIE_UP tie
      else s6.setF R.START_STATE_SRC_LOCK 0) :=
    within_ite (fun _ => State.setF_within (State.setF_within h6 _ (Or.inl (by simp)) _) _ (Or.inl (by simp)) _)
      fun _ => State.setF_within h6 _ (Or.inl (by simp)) _
  exact ⟨h7.same .pr (by decide), h7.same .gd (by decide), h7.same .svc (by decide)⟩

/-- The warm reset flushes what came after its request (R204, R243). -/
def State.warmCut (s : State) : State := s.macFlush.each (List.range 4) State.txFlush

theorem State.warmCut_within (s : State) :
    State.Within [.block 12, .block 15, .block 7, .freeIx, .mac, .ms, .notes, .queues, .rd] s s.warmCut :=
  State.each_within (State.macFlush_within (.refl _ s) (by decide)) _ _ fun _ n ht => State.txFlush_within ht (by decide) n

theorem execWarmResetProceed_eq {k : Nat} (hw : s.su.warm = some k)
    (ha : ∀ n ∈ List.range 4, (s.trx n).onAir = none ∧ (s.trx n).step.all (fun e => decide (e.2 ≤ max s.mtb u)) = true) :
    execWarmResetProceed u s = .next (((s.advance u).warmCut.resetBlocks k false).writeCause k).enterBoot := by
  have hasleep : (List.range 4).all (fun n => (s.trx n).onAir.isNone &&
      (match (s.trx n).step with | some (_, e) => decide (e ≤ max s.mtb u) | none => true)) = true := by
    refine List.all_eq_true.mpr fun n hn => ?_
    obtain ⟨hair, hstep⟩ := ha n hn
    rw [hair]
    cases h : (s.trx n).step with
    | none => rfl
    | some e => rw [h] at hstep; exact hstep
  unfold execWarmResetProceed
  rw [hw]
  exact if_neg (by rw [Bool.not_eq_true', Bool.not_eq_false]; exact hasleep)

theorem warmResetProceed_boots (hi : s.Inv) {k : Nat} (hw : s.su.warm = some k)
    (ha : ∀ n ∈ List.range 4, (s.trx n).onAir = none ∧ (s.trx n).step.all (fun e => decide (e.2 ≤ max s.mtb u)) = true) :
    Completes (.warmResetProceed u) s fun t => t.dev = devBoot ∧ t.pr = Pricking.none ∧ t.gd = {} ∧ t.svc = {} := by
  have hcut : (s.advance u).warmCut.Inv := (s.advance u).warmCut_within.inv hi
  generalize hr : (s.advance u).warmCut.resetBlocks k false = r
  have hclear : r.pr = Pricking.none ∧ r.gd = {} ∧ r.svc = {} := hr ▸ State.resetBlocks_clears _ k false
  have hri : r.Inv := hr ▸ (State.resetBlocks_within (.refl _ _) (List.Subset.refl _) k false).inv hcut
  have hc : State.Within [.block 2] r (r.writeCause k) := State.writeCause_within (.refl _ r) (List.Subset.refl _) k
  have hb := State.enterBoot_within (.refl _ (r.writeCause k)) (List.Subset.refl _)
  obtain ⟨hpr, hgd, hsvc⟩ := hclear
  refine ⟨_, execWarmResetProceed_eq hw ha, ?_⟩
  rw [hr]
  exact ⟨(State.enterBoot_booting (hc.inv hri)).dev.elim id id, (hb.same .pr (by decide)).trans ((hc.same .pr (by decide)).trans hpr),
    (hb.same .gd (by decide)).trans ((hc.same .gd (by decide)).trans hgd),
    (hb.same .svc (by decide)).trans ((hc.same .svc (by decide)).trans hsvc)⟩

end
end Sys2Proof.Machine

section
open Sys2Proof Sys2Proof.Machine

/-- Settles O4: a warm reset's request and RUNNING's begin leave start-up's own state but for what they set in it, and BOOT's
entry ends in BOOT and touches none of what the reset has cleared. -/
theorem runningCommands : Obligations.RunningCommands := by
  unfold Obligations.RunningCommands
  intro s hi
  refine ⟨?_, ?_, ?_, ?_, ?_, ?_, ?_⟩
  · exact fun hs => readyWrite_taken hs
  · exact ⟨_, rfl, rfl⟩
  · exact fun u hs hr hh hw hu => readyTimeout_fails hi hs hr hh hw hu
  · exact fun u hh => continueWrite_continues hi hh
  · exact fun u hs hr hh hw hc => enterRunning_begins hi hs hr hh hw hc
  · exact fun u hs ha hw => warmResetWrite_asks hs ha hw
  · exact fun u k hw ha => warmResetProceed_boots hi hw ha

end

namespace Sys2Proof.Machine
open Sys2Proof

/-! ### A transaction of the service port (R114, R115) -/

section
variable {s : State} {m b : Bool} {u : Nat}

theorem State.svcAt_eq (s : State) (m : Bool) (u : Nat) : s.svcAt m u = (s.heardAt u).setB R.SVC_PORT_STAT_MODE m := rfl

/-- A transaction's mode and moment leave every other field. -/
theorem State.getF_svcAt (s : State) (m : Bool) (u : Nat) {f : Field} (hf : f.ok = true) (ha : R.SVC_PORT_STAT_MODE.apart f = true) :
    (s.svcAt m u).getF f = s.getF f := by
  rw [State.svcAt_eq, State.setB_eq, State.getF_setF_ne _ _ _ _ (by decide) hf ha, State.getF_heardAt]

theorem State.getReg_svcAt (s : State) (m : Bool) (u : Nat) {a : Nat} (ha : a ≠ R.SVC_PORT_STAT_MODE.addr) :
    (s.svcAt m u).getReg a = s.getReg a := by
  rw [State.svcAt_eq, State.setB_eq, State.getReg_setF_ne _ _ _ ha, State.heardAt_eq]
  rfl

theorem State.svcAt_inv (hi : s.Inv) (m : Bool) (u : Nat) : (s.svcAt m u).Inv := State.inv_setF (State.heardAt_inv hi u) _ _

@[simp] theorem State.svcAt_dev (s : State) (m : Bool) (u : Nat) : (s.svcAt m u).dev = s.dev :=
  s.getF_svcAt m u (by decide) (by decide)

@[simp] theorem State.svcAt_rootRuns (s : State) (m : Bool) (u : Nat) : (s.svcAt m u).rootRuns = s.rootRuns := by
  simp only [State.rootRuns, State.svcAt_dev]

@[simp] theorem State.svcAt_out (s : State) (m : Bool) (u : Nat) : (s.svcAt m u).out = s.out := by
  rw [State.svcAt_eq, State.setB_eq, State.setF_out, State.heardAt_eq]

@[simp] theorem State.svcAt_svc (s : State) (m : Bool) (u : Nat) : (s.svcAt m u).svc = s.svc := by
  rw [State.svcAt_eq, State.setB_eq, State.setF_svc, State.heardAt_eq]

@[simp] theorem State.svcAt_su (s : State) (m : Bool) (u : Nat) : (s.svcAt m u).su = s.su := by
  rw [State.svcAt_eq, State.setB_eq, State.setF_su, State.heardAt_eq]

@[simp] theorem State.svcAt_freeIx (s : State) (m : Bool) (u : Nat) : (s.svcAt m u).freeIx = s.freeIx := by
  rw [State.svcAt_eq, State.setB_eq, State.setF_freeIx, State.heardAt_eq]

/-- The reply of a write that was abandoned before its marker is not sent (R115). -/
def State.silenced (t : State) (b : Bool) : State := if b then { t with out := t.out.drop 1 } else t

theorem State.silenced_eq (t : State) (b : Bool) : t.silenced b = { t with out := if b then t.out.drop 1 else t.out } := by
  cases b <;> rfl

@[simp] theorem State.silenced_regs (t : State) (b : Bool) : (t.silenced b).regs = t.regs := by rw [State.silenced_eq]
@[simp] theorem State.silenced_resp (t : State) (b : Bool) : (t.silenced b).resp = t.resp := by rw [State.silenced_eq]
@[simp] theorem State.silenced_svc (t : State) (b : Bool) : (t.silenced b).svc = t.svc := by rw [State.silenced_eq]

theorem State.silenced_out {t : State} {x : Msg} {o : List Msg} (h : t.out = x :: o) (b : Bool) :
    (t.silenced b).out = (if b then [] else [x]) ++ o := by
  rw [State.silenced_eq]
  cases b
  · exact h
  · exact congrArg (List.drop 1) h

theorem State.svcReading_eq (hd : s.dev ≠ devUnpowered) (f : State → State) :
    s.svcReading m b u f = if b then s.svcAt m u else f (s.svcAt m u) := if_neg hd

theorem State.svcWriting_eq (hd : s.dev ≠ devUnpowered) (f : State → State) :
    s.svcWriting m b u f = (f (s.svcAt m u)).silenced b := if_neg hd

/-! ### Replies and refusals (R115, R501) -/

@[simp] theorem State.svcReply_out (s : State) (l : List Nat) (st : Nat) :
    (s.svcReply l st).out = .svcReply (svcFrame l st) :: s.out := rfl
@[simp] theorem State.svcReply_resp (s : State) (l : List Nat) (st : Nat) : (s.svcReply l st).resp = st := rfl
@[simp] theorem State.svcReply_regs (s : State) (l : List Nat) (st : Nat) : (s.svcReply l st).regs = s.regs := rfl
@[simp] theorem State.svcReply_svc (s : State) (l : List Nat) (st : Nat) : (s.svcReply l st).svc = s.svc := rfl

theorem State.getF_svcReply (s : State) (l : List Nat) (st : Nat) (f : Field) : (s.svcReply l st).getF f = s.getF f := rfl

@[simp] theorem State.svcRefuse_out (s : State) (st : Nat) : (s.svcRefuse st).out = s.out := by
  unfold State.svcRefuse
  split <;> rfl
@[simp] theorem State.svcRefuse_resp (s : State) (st : Nat) : (s.svcRefuse st).resp = st := by
  unfold State.svcRefuse
  split <;> rfl
@[simp] theorem State.svcRefuse_svc (s : State) (st : Nat) : (s.svcRefuse st).svc = s.svc := by
  unfold State.svcRefuse
  split <;> rfl

theorem State.getF_svcRefuse (hr : s.rootRuns = true) {st : Nat} (h : st < 2 ^ 16) :
    (s.svcRefuse st).getF R.SVC_CMD_ERR_STATUS = st := by
  rw [State.svcRefuse, if_pos hr]
  exact (State.getF_setF_same s _ st (by decide)).trans (Nat.mod_eq_of_lt h)

@[simp] theorem State.svcWritten_out (s : State) : s.svcWritten.out = .svcReply (svcFrame [] s.resp) :: s.out := rfl
@[simp] theorem State.svcWritten_resp (s : State) : s.svcWritten.resp = s.resp := rfl
@[simp] theorem State.svcWritten_regs (s : State) : s.svcWritten.regs = s.regs := rfl
@[simp] theorem State.svcWritten_svc (s : State) : s.svcWritten.svc = { s.svc with last := s.resp, ofCommit := false } := rfl

theorem State.svcWritten_silenced (s : State) (b : Bool) : (s.svcWritten.silenced b).regs = s.regs ∧
    (s.svcWritten.silenced b).resp = s.resp ∧ (s.svcWritten.silenced b).svc.last = (s.svcWritten.silenced b).resp ∧
    (s.svcWritten.silenced b).svc.ofCommit = false ∧
    (s.svcWritten.silenced b).out = (if b then [] else [.svcReply (svcFrame [] (s.svcWritten.silenced b).resp)]) ++ s.out := by
  refine ⟨by simp, by simp, by simp, by simp, ?_⟩
  rw [State.silenced_resp, State.svcWritten_resp]
  exact State.silenced_out s.svcWritten_out b

/-! ### The registers that the port reaches (R116) -/

theorem svcReach_aligned {a : Nat} (h : svcReach.contains a = true) : a % 4 = 0 := by
  have hall : ∀ a ∈ svcReach, a % 4 = 0 := by decide
  exact hall a (List.contains_iff_mem.mp h)

theorem State.svcGate_reached {a : Nat} (hd : s.dev ≠ devUnpowered) (hr : svcReach.contains a = true)
    (he : s.dev = devAwait ∨ s.dev = devPark → svcEarly.contains a = true) : s.svcGate a = none := by
  have hearly : ((decide (s.dev = devUnpowered) || decide (s.dev = devAwait) || decide (s.dev = devPark)) && !svcEarly.contains a) =
      false := by
    rw [Bool.and_eq_false_iff, Bool.not_eq_false']
    by_cases h : s.dev = devAwait ∨ s.dev = devPark
    · exact Or.inr (he h)
    · rw [not_or] at h
      exact Or.inl (by simp [hd, h.1, h.2])
  simp only [State.svcGate, firstFail, svcReach_aligned hr, hr, hearly, ne_eq, not_true_eq_false, decide_false, Bool.not_true,
    Bool.false_eq_true, if_false]

theorem State.svcGate_refused {a : Nat} (ha : a % 4 = 0) (h : svcReach.contains a = false ∨
    ((s.dev = devAwait ∨ s.dev = devPark) ∧ svcEarly.contains a = false)) :
    s.svcGate a = some (if svcReach.contains a then ST.SVC_NO_CLOCK else ST.SVC_SESSION_NEEDED) := by
  cases hr : svcReach.contains a with
  | true =>
    obtain ⟨hd, he⟩ := h.resolve_left (by rw [hr]; decide)
    have hearly : (decide (s.dev = devUnpowered) || decide (s.dev = devAwait) || decide (s.dev = devPark)) = true := by
      rcases hd with hd | hd <;> simp [hd]
    simp only [State.svcGate, firstFail, ha, hr, he, hearly, ne_eq, not_true_eq_false, decide_false, Bool.not_true, Bool.not_false,
      Bool.and_self, Bool.false_eq_true, if_false, if_true]
  | false =>
    simp only [State.svcGate, firstFail, ha, hr, ne_eq, not_true_eq_false, decide_false, Bool.not_false, Bool.false_eq_true,
      if_false, if_true]

end
end Sys2Proof.Machine

namespace Sys2Proof.Machine
open Sys2Proof

/-! ### Reads and writes of a register through the port (R116) -/

section
variable {s : State} {a w : Word} {m b : Bool} {u : Nat}

theorem execSvcReadRegister_eq (hd : s.dev ≠ devUnpowered) : execSvcReadRegister a m b u s = .next (if b then s.svcAt m u else
    match (s.svcAt m u).svcGate a.toNat with
    | some st => ((s.svcAt m u).svcRefuse st).svcReply (nats (leBytes 4 0)) st
    | none => (s.svcAt m u).svcReply (nats (leBytes 4 ((s.svcAt m u).regWord a.toNat).toNat)) ST.OK) :=
  congrArg Host.Outcome.next (State.svcReading_eq hd _)

theorem svcReadRegister_reads (hd : s.dev ≠ devUnpowered) (hr : svcReach.contains a.toNat = true)
    (he : s.dev = devAwait ∨ s.dev = devPark → svcEarly.contains a.toNat = true) : Completes (.svcReadRegister a m b u) s fun t =>
      (b = false → t.out = .svcReply (svcFrame (nats (leBytes 4 ((s.svcAt m u).regWord a.toNat).toNat)) ST.OK) :: s.out ∧
        t.resp = ST.OK) ∧
      (b = true → t = s.svcAt m u) ∧
      t.regs = (s.svcAt m u).regs := by
  have hg : (s.svcAt m u).svcGate a.toNat = none := State.svcGate_reached (by simpa using hd) hr (by simpa using he)
  refine ⟨_, (execSvcReadRegister_eq hd : _), ?_⟩
  rw [hg]
  cases b <;> simp

theorem svcReadRegister_refuses (hd : s.dev ≠ devUnpowered) (ha : a.toNat % 4 = 0) (h : svcReach.contains a.toNat = false ∨
    ((s.dev = devAwait ∨ s.dev = devPark) ∧ svcEarly.contains a.toNat = false)) :
    Completes (.svcReadRegister a m false u) s fun t =>
      (t.resp = (if svcReach.contains a.toNat then ST.SVC_NO_CLOCK else ST.SVC_SESSION_NEEDED)) ∧
      t.out = .svcReply (svcFrame (nats (leBytes 4 0)) t.resp) :: s.out ∧
      (s.rootRuns = true → t.getF R.SVC_CMD_ERR_STATUS = t.resp) := by
  have hg := State.svcGate_refused (s := s.svcAt m u) ha (by simpa using h)
  have hst : (if svcReach.contains a.toNat then ST.SVC_NO_CLOCK else ST.SVC_SESSION_NEEDED) < 2 ^ 16 := by split <;> decide
  refine ⟨_, (execSvcReadRegister_eq hd : _), ?_⟩
  rw [if_neg Bool.false_ne_true, hg]
  refine ⟨rfl, by simp, fun hr => ?_⟩
  rw [State.getF_svcReply, State.getF_svcRefuse (by simpa using hr) hst, State.svcReply_resp]

theorem execSvcWriteRegister_eq (hd : s.dev ≠ devUnpowered) (hr : svcReach.contains a.toNat = true)
    (he : s.dev = devAwait ∨ s.dev = devPark → svcEarly.contains a.toNat = true) : execSvcWriteRegister a w m b u s =
      .next ((((s.svcAt m u).writeRecorded .service a.toNat w).svcWritten).silenced b) := by
  have hg : (s.svcAt m u).svcGate a.toNat = none := State.svcGate_reached (by simpa using hd) hr (by simpa using he)
  unfold execSvcWriteRegister
  rw [State.svcWriting_eq hd, hg]

theorem svcWriteRegister_writes (hd : s.dev ≠ devUnpowered) (hr : svcReach.contains a.toNat = true)
    (he : s.dev = devAwait ∨ s.dev = devPark → svcEarly.contains a.toNat = true) :
    Completes (.svcWriteRegister a w m b u) s fun t =>
      t.regs = ((s.svcAt m u).writeRecorded .service a.toNat w).regs ∧
      t.resp = ((s.svcAt m u).writeRecorded .service a.toNat w).resp ∧
      t.svc.last = t.resp ∧ t.svc.ofCommit = false ∧
      (t.out = (if b then [] else [Msg.svcReply (svcFrame [] t.resp)]) ++ ((s.svcAt m u).writeRecorded .service a.toNat w).out) := by
  exact ⟨_, execSvcWriteRegister_eq hd hr he, State.svcWritten_silenced _ b⟩

/-! ### A write of START_OPT (R93) -/

/-- A field whose bits a write replaces reads as the written word's. -/
theorem Field.get_merge {f : Field} {x : Word} (h : ∀ i < f.width, x.getLsbD (f.lo + i) = true) (new old : Word) :
    f.get (new &&& x ||| old &&& ~~~ x) = f.get new := by
  refine Nat.eq_of_testBit_eq fun i => ?_
  rw [Field.testBit_get, Field.testBit_get]
  by_cases hi : i < f.width
  · simp [h i hi]
  · simp [hi]

/-- The states in which START_OPT may be written pass its checks where SLOT is in its range (R9). -/
theorem State.fieldFault_startOpt (hd : s.dev = devAwait ∨ s.dev = devRootLock ∨ s.dev = devDramTrain) (old : Word) {new : Word}
    (hs : R.START_OPT_SLOT.get new ≤ 2) : s.fieldFault R.START_OPT old new = none := by
  have hrange : outOfRange R.START_OPT old new = false := by
    rw [outOfRange, Bool.or_eq_false_iff]
    constructor
    · have hone : ∀ r ∈ ranges1 ++ ranges2 ++ ranges3, r.1.addr = R.START_OPT → r = (R.START_OPT_SLOT, 0, 2) := by decide
      refine List.any_eq_false.mpr fun r hr => ?_
      by_cases ha : r.1.addr = R.START_OPT
      · rw [hone r hr ha]
        simp [Nat.not_lt.mpr hs]
      · simp [ha]
    · have hnone : ∀ r ∈ signedRanges, r.1.addr ≠ R.START_OPT := by decide
      exact List.any_eq_false.mpr fun r hr => by simp [hnone r hr]
  have hf : firstCopy R.START_OPT = (R.START_OPT, 0) := by decide
  have hstate : (decide (s.dev = devAwait) || decide (s.dev = devRootLock) || decide (s.dev = devDramTrain)) = true := by
    rcases hd with hd | hd | hd <;> simp [hd]
  have hchecks : s.fieldChecks R.START_OPT R.START_OPT 0 old new = [(false, ST.START_OPT_STATE)] := by
    rw [State.fieldChecks, if_neg (by decide), if_pos rfl, hstate]
    simp
  rw [State.fieldFault, hf, if_neg (by decide), hchecks, hrange]
  rfl

/-- The word that a write makes of a register in no bank. -/
theorem State.Inv.getReg_putRw_unbanked (hi : s.Inv) {k : Nat} (hk : unbanked k = true) (w : Word) :
    (s.putRw k w).getReg k = s.enableWord k w := by
  rw [State.putRw_eq, State.bankOf_unbanked hk]
  exact State.Inv.getReg_writeEnable hi k k w

/-- The service port's write in a block whose writes are not recorded. -/
theorem State.writeRecorded_service {k : Nat} (h : auditedBlocks.contains (blockOf k) = false) :
    s.writeRecorded .service k w = s.writeBody .service k w := by
  simp only [State.writeRecorded, State.who, h, ne_eq, not_true_eq_false, decide_false, Bool.or_self, Bool.false_eq_true, if_false]

theorem State.writeRecorded_startOpt (hd : s.dev = devAwait ∨ s.dev = devRootLock ∨ s.dev = devDramTrain)
    (hs : R.START_OPT_SLOT.get (s.enableWord R.START_OPT w) ≤ 2) :
    s.writeRecorded .service R.START_OPT w = s.putRw R.START_OPT w := by
  have hbits : ∀ i < R.START_OPT_SLOT.width, (regAccessMask .rw R.START_OPT).getLsbD (R.START_OPT_SLOT.lo + i) = true := by decide
  rw [State.enableWord, Field.get_merge hbits] at hs
  have hfault := State.fieldFault_startOpt hd (s.regWord R.START_OPT)
    (new := w &&& regAccessMask .rw R.START_OPT ||| s.regWord R.START_OPT &&& ~~~ regAccessMask .rw R.START_OPT)
    ((Field.get_merge hbits w _).symm ▸ hs)
  have haddr : s.addrFault R.START_OPT = none := by
    rw [State.addrFault, if_neg (by decide), if_neg (by decide), if_pos (by decide)]
  have hbody : s.writeBody .service R.START_OPT w = s.putRw R.START_OPT w := by
    unfold State.writeBody
    dsimp only
    rw [haddr, hfault, State.actionOf_none (by decide)]
    rfl
  rw [← hbody]
  exact State.writeRecorded_service (by decide)

theorem svcWriteRegister_startOpt (hi : s.Inv) (hd : s.dev = devAwait ∨ s.dev = devRootLock ∨ s.dev = devDramTrain)
    (ha : a.toNat = R.START_OPT) (hs : R.START_OPT_SLOT.get (s.enableWord R.START_OPT w) ≤ 2) :
    Completes (.svcWriteRegister a w m false u) s fun t =>
      t.getReg R.START_OPT = s.enableWord R.START_OPT w ∧ t.svc.last = ST.OK ∧ t.out = .svcReply (svcFrame [] ST.OK) :: s.out := by
  have hu : s.dev ≠ devUnpowered := by rcases hd with hd | hd | hd <;> rw [hd] <;> decide
  have hw : (s.svcAt m u).enableWord R.START_OPT w = s.enableWord R.START_OPT w := by
    rw [State.enableWord, State.enableWord, s.getReg_svcAt m u (by decide)]
  have hwrite := State.writeRecorded_startOpt (s := s.svcAt m u) (w := w) (by simpa using hd) (hw.symm ▸ hs)
  refine ⟨_, (execSvcWriteRegister_eq hu (by rw [ha]; decide) (fun _ => by rw [ha]; decide) : _), ?_⟩
  rw [ha, hwrite]
  refine ⟨?_, rfl, ?_⟩
  · exact ((State.svcAt_inv hi m u).getReg_putRw_unbanked (by decide) w).trans hw
  · exact congrArg (List.cons _) (s.svcAt_out m u)

/-! ### The status of the last write (R115) -/

theorem svcLastStatus_tells (hd : s.dev ≠ devUnpowered) : Completes (.svcLastStatus m b u) s fun t =>
      (b = false → t.out = .svcReply (svcFrame [] (if !s.svc.ofCommit then s.svc.last
        else if s.svc.commit.isSome then ST.SVC_BENCH_BUSY else s.svc.outcome)) :: s.out) ∧
      (b = true → t.out = s.out) ∧
      t.svc = s.svc := by
  refine ⟨_, congrArg Host.Outcome.next (State.svcReading_eq hd _), ?_⟩
  cases b <;> simp

end
end Sys2Proof.Machine

namespace Sys2Proof.Machine
open Sys2Proof

/-! ### A bench pricking's chunks and commits (R117) -/

section
variable {s : State} {o : Word} {l : List Byte} {m b : Bool} {u : Nat}

theorem State.powered_of_rootRuns (h : s.rootRuns = true) : s.dev ≠ devUnpowered := by
  intro hd
  simp [State.rootRuns, hd] at h

@[simp] theorem State.flashLoads_svcAt (s : State) (m : Bool) (u : Nat) : (s.svcAt m u).flashLoads = s.flashLoads := by
  simp only [State.flashLoads, State.svcAt_dev, State.svcAt_su, State.svcAt_svc]

@[simp] theorem State.benchGate_svcAt (s : State) (m : Bool) (u : Nat) : (s.svcAt m u).benchGate = s.benchGate := by
  simp only [State.benchGate, State.svcAt_dev, State.svcAt_rootRuns, State.svcAt_svc, State.flashLoads_svcAt]

theorem State.benchGate_open (hr : s.rootRuns = true) (hd : s.dev ≠ devDramTrain ∧ s.dev ≠ devBoot) (hf : s.flashLoads = false)
    (hc : s.svc.commit = none) : s.benchGate = none := by
  simp [State.benchGate, firstFail, hr, hd.1, hd.2, hf, hc]

/-- What refuses a chunk or a check-only commit names a word of its own (R117). -/
theorem State.benchGate_closed (h : s.rootRuns = false ∨ s.dev = devDramTrain ∨ s.dev = devBoot ∨ s.svc.commit.isSome = true ∨
    s.flashLoads = true) : ∃ st, s.benchGate = some st ∧ st ≠ ST.OK := by
  unfold State.benchGate
  by_cases hr : s.rootRuns = true
  · by_cases hd : (decide (s.dev = devDramTrain) || decide (s.dev = devBoot)) = true
    · exact ⟨ST.SVC_BENCH_STATE,
        by simp only [firstFail, hr, hd, Bool.not_true, Bool.false_eq_true, if_false, if_true], by decide⟩
    · have hb : (s.svc.commit.isSome || s.flashLoads) = true := by
        simp only [Bool.or_eq_true, decide_eq_true_eq, not_or] at hd
        simpa [hr, hd.1, hd.2] using h
      exact ⟨ST.SVC_BENCH_BUSY,
        by simp only [firstFail, hr, hd, hb, Bool.not_true, Bool.false_eq_true, if_false, if_true], by decide⟩
  · exact ⟨ST.SVC_NO_CLOCK, by simp only [firstFail, hr, Bool.not_false, if_true], by decide⟩

/-- Why a chunk is refused, if it is. -/
def State.chunkFault (s : State) (n off : Nat) : Option Nat :=
  match firstFail [(n < 4 || 256 < n || n % 4 ≠ 0 || 1048576 < off + n, ST.SVC_BENCH_RANGE)] with
  | some st => some st
  | none => s.benchGate

/-- The state in which a chunk's octets stand in the staging area. -/
def State.chunkTaken (s : State) (off : Nat) (l : List Byte) : State :=
  { s with svc := { s.svc with staging := stagePut s.svc.staging off l, written := true } }

theorem execSvcBenchChunk_eq (hd : s.dev ≠ devUnpowered) : execSvcBenchChunk o l m b u s =
    .next (State.silenced (State.svcWritten (match s.chunkFault l.length o.toNat with
      | some st => (s.svcAt m u).svcRefuse st
      | none => ((s.svcAt m u).chunkTaken o.toNat l).answer ST.OK)) b) := by
  unfold execSvcBenchChunk
  dsimp only
  rw [State.svcWriting_eq hd, State.benchGate_svcAt, State.chunkFault]
  cases firstFail [(decide (l.length < 4) || decide (256 < l.length) || decide (l.length % 4 ≠ 0) ||
    decide (1048576 < o.toNat + l.length), ST.SVC_BENCH_RANGE)] with
  | some st => rfl
  | none => cases s.benchGate <;> rfl

theorem svcBenchChunk_takes (hr : s.rootRuns = true) (hd : s.dev ≠ devDramTrain ∧ s.dev ≠ devBoot) (hf : s.flashLoads = false)
    (hc : s.svc.commit = none) (hl : 4 ≤ l.length ∧ l.length ≤ 256 ∧ l.length % 4 = 0) (ho : o.toNat + l.length ≤ 1048576) :
    Completes (.svcBenchChunk o l m b u) s fun t =>
      t.svc.staging = stagePut s.svc.staging o.toNat l ∧
      t.svc.written = true ∧
      t.svc.last = ST.OK ∧
      (t.out = (if b then [] else [Msg.svcReply (svcFrame [] ST.OK)]) ++ s.out) := by
  obtain ⟨h4, h256, hm⟩ := hl
  have hg : s.chunkFault l.length o.toNat = none := by
    simp [State.chunkFault, firstFail, Nat.not_lt.mpr h4, Nat.not_lt.mpr h256, hm, Nat.not_lt.mpr ho, State.benchGate_open hr hd hf hc]
  refine ⟨_, (execSvcBenchChunk_eq (State.powered_of_rootRuns hr) : _), ?_⟩
  rw [hg]
  refine ⟨by simp [State.chunkTaken], by simp [State.chunkTaken], by simp, ?_⟩
  exact State.silenced_out (congrArg (List.cons _) (s.svcAt_out m u)) b

theorem State.chunkFault_some {n off : Nat} (h : n < 4 ∨ 256 < n ∨ n % 4 ≠ 0 ∨ 1048576 < off + n ∨ s.rootRuns = false ∨
    s.dev = devDramTrain ∨ s.dev = devBoot ∨ s.svc.commit.isSome = true ∨ s.flashLoads = true) :
    ∃ st, s.chunkFault n off = some st ∧ st ≠ ST.OK := by
  unfold State.chunkFault
  by_cases hn : (decide (n < 4) || decide (256 < n) || decide (n % 4 ≠ 0) || decide (1048576 < off + n)) = true
  · exact ⟨ST.SVC_BENCH_RANGE, by simp only [firstFail, hn, if_true], by decide⟩
  · have hrest : s.rootRuns = false ∨ s.dev = devDramTrain ∨ s.dev = devBoot ∨ s.svc.commit.isSome = true ∨
        s.flashLoads = true := by
      simp only [Bool.or_eq_true, decide_eq_true_eq, not_or] at hn
      tauto
    simpa only [firstFail, hn, Bool.false_eq_true, if_false] using State.benchGate_closed hrest

theorem svcBenchChunk_refuses (hd : s.dev ≠ devUnpowered) (h : l.length < 4 ∨ 256 < l.length ∨ l.length % 4 ≠ 0 ∨
    1048576 < o.toNat + l.length ∨ s.rootRuns = false ∨ s.dev = devDramTrain ∨ s.dev = devBoot ∨ s.svc.commit.isSome = true ∨
    s.flashLoads = true) : Completes (.svcBenchChunk o l m false u) s fun t =>
      t.svc.staging = s.svc.staging ∧
      t.svc.last = t.resp ∧ t.resp ≠ ST.OK ∧
      t.out = .svcReply (svcFrame [] t.resp) :: s.out := by
  obtain ⟨st, hst, hne⟩ := State.chunkFault_some h
  refine ⟨_, (execSvcBenchChunk_eq hd : _), ?_⟩
  rw [hst]
  refine ⟨by simp, by simp, by simpa using hne, ?_⟩
  rw [State.silenced_out (State.svcWritten_out _)]
  simp

theorem svcBenchCommit_starts {c : Bool} (hr : s.rootRuns = true) (hd : s.dev ≠ devDramTrain ∧ s.dev ≠ devBoot)
    (hf : s.flashLoads = false) (hw : c = false → s.dev = devLoad ∧ (s.su.benchWait = true ∨ s.su.stopped = true))
    (hc : s.svc.commit = none) : Completes (.svcBenchCommit c m b u) s fun t =>
      t.svc.commit = some c ∧
      t.svc.ofCommit = true ∧
      (t.out = (if b then [] else [Msg.svcReply (svcFrame [] ST.OK)]) ++ s.out) := by
  have hload : (!c && s.rootRuns && !(decide (s.dev = devLoad) && (s.su.benchWait || s.su.stopped))) = false := by
    cases c with
    | true => rfl
    | false =>
      obtain ⟨hl, hb⟩ := hw rfl
      rw [decide_eq_true hl, Bool.or_eq_true_iff.mpr hb, Bool.and_self, Bool.not_true, Bool.and_false]
  have hnext : execSvcBenchCommit c m b u s = .next (State.silenced
      (State.svcReply { s.svcAt m u with svc := { (s.svcAt m u).svc with commit := some c, ofCommit := true } } [] ST.OK) b) := by
    unfold execSvcBenchCommit
    rw [State.svcWriting_eq (State.powered_of_rootRuns hr)]
    dsimp only
    rw [State.svcAt_dev, State.svcAt_su, State.svcAt_rootRuns, hload, if_neg Bool.false_ne_true, State.benchGate_svcAt,
      State.benchGate_open hr hd hf hc]
  refine ⟨_, (hnext : _), by simp, by simp, ?_⟩
  exact State.silenced_out (congrArg (List.cons _) (s.svcAt_out m u)) b

/-! ### The tunnel (R118) -/

theorem execSvcTunnelIn_eq (hd : s.dev ≠ devUnpowered) (hl : 1 ≤ l.length ∧ l.length ≤ 1280) : execSvcTunnelIn l m b u s =
    .next (State.silenced (if s.svc.inbound.isSome then ((s.svcAt m u).svcRefuse ST.SVC_TUNNEL_FULL).svcReply [] ST.SVC_TUNNEL_FULL
      else State.svcReply { s.svcAt m u with svc := { (s.svcAt m u).svc with inbound := some l } } [] ST.OK) b) := by
  have hrange : (l.isEmpty || decide (1280 < l.length)) = false := by
    rw [Bool.or_eq_false_iff, List.isEmpty_eq_false_iff_exists_mem]
    exact ⟨List.exists_mem_of_length_pos hl.1, decide_eq_false (Nat.not_lt.mpr hl.2)⟩
  unfold execSvcTunnelIn
  rw [State.svcWriting_eq hd]
  dsimp only
  rw [State.svcAt_svc]
  cases h : s.svc.inbound with
  | none => simp [firstFail, hrange]
  | some x => simp [firstFail, hrange]

theorem svcTunnelIn_waits (hd : s.dev ≠ devUnpowered) (hl : 1 ≤ l.length ∧ l.length ≤ 1280) :
    Completes (.svcTunnelIn l m b u) s fun t =>
      (s.svc.inbound = none → t.svc.inbound = some l ∧ t.resp = ST.OK) ∧
      (s.svc.inbound ≠ none → t.svc = s.svc ∧ t.resp = ST.SVC_TUNNEL_FULL) ∧
      (t.out = (if b then [] else [Msg.svcReply (svcFrame [] t.resp)]) ++ s.out) := by
  refine ⟨_, (execSvcTunnelIn_eq hd hl : _), ?_⟩
  cases h : s.svc.inbound with
  | none =>
    rw [if_neg (by simp)]
    refine ⟨fun _ => by simp, fun hn => absurd rfl hn, ?_⟩
    rw [State.silenced_out (State.svcReply_out _ _ _), State.silenced_resp]
    simp
  | some x =>
    rw [if_pos (by simp)]
    refine ⟨fun hn => (nomatch hn), fun _ => by simp, ?_⟩
    rw [State.silenced_out (State.svcReply_out _ _ _), State.silenced_resp]
    simp

theorem svcTunnelOut_leaves (hd : s.dev ≠ devUnpowered) : Completes (.svcTunnelOut m false u) s fun t =>
      t.svc.outbound = s.svc.outbound.drop 1 ∧
      (t.out = .svcReply (svcFrame (nats (leBytes 2 (if s.svc.outbound.isEmpty then 0 else 1 + s.freeVal % 1280))) ST.OK) ::
        (s.svc.outbound.take 1 ++ s.out)) := by
  refine ⟨_, congrArg Host.Outcome.next (State.svcReading_eq hd _), ?_⟩
  rw [if_neg Bool.false_ne_true, State.svcAt_svc]
  cases h : s.svc.outbound with
  | nil => simp [h]
  | cons x l =>
    have hfree : (s.svcAt m u).freeVal = s.freeVal := congrArg Config.free (s.svcAt_freeIx m u)
    refine ⟨rfl, ?_⟩
    rw [State.svcReply_out, hfree]
    exact congrArg (fun o => Msg.svcReply _ :: x :: o) (s.svcAt_out m u)

theorem svcTunnelOut_abandoned (hd : s.dev ≠ devUnpowered) : Completes (.svcTunnelOut m true u) s fun t => t = s.svcAt m u :=
  ⟨_, congrArg Host.Outcome.next (State.svcReading_eq hd _), rfl⟩

/-- A stopped SCLK cuts the port's open packets (R306). -/
theorem sclkStopMidMessage_cuts (hr : s.rootRuns = true) (u : Nat) : Completes (.sclkStopMidMessage u) s fun t =>
      t.mtb = max s.mtb u ∧
      t.queues = ((s.advance u).cutPackets 0x71).queues ∧
      t.mem = s.mem := by
  have hw := State.cutPackets_within (.refl _ (s.advance u)) (List.Subset.refl _) 0x71
  exact ⟨_, congrArg Host.Outcome.next (if_pos hr), hw.same .mtb (by decide), rfl, hw.same .mem (by decide)⟩

end
end Sys2Proof.Machine

section
open Sys2Proof Sys2Proof.Machine

/-- Settles O10: a transaction is answered in the state with its mode and moment, `State.svcAt`, which keeps what its checks look
at; an abandoned write differs from a completed one in the reply alone. -/
theorem servicePort : Obligations.ServicePort := by
  unfold Obligations.ServicePort
  intro s hi
  refine ⟨?_, ?_, ?_, ?_, ?_, ?_, ?_, ?_, ?_, ?_, ?_, ?_⟩
  · exact fun a m b u hd hr he => svcReadRegister_reads hd hr he
  · exact fun a m u hd ha h => svcReadRegister_refuses hd ha h
  · exact fun a w m b u hd hr he => svcWriteRegister_writes hd hr he
  · exact fun a w m u hd ha hs => svcWriteRegister_startOpt hi hd ha hs
  · exact fun m b u hd => svcLastStatus_tells hd
  · exact fun o l m b u hr hd hf hc hl ho => svcBenchChunk_takes hr hd hf hc hl ho
  · exact fun o l m u hd h => svcBenchChunk_refuses hd h
  · exact fun c m b u hr hd hf hw hc => svcBenchCommit_starts hr hd hf hw hc
  · exact fun l m b u hd hl => svcTunnelIn_waits hd hl
  · exact fun m u hd => svcTunnelOut_leaves hd
  · exact fun m u hd => svcTunnelOut_abandoned hd
  · exact fun u hr => sclkStopMidMessage_cuts hr u

end

namespace Sys2Proof.Machine
open Sys2Proof

/-! ### A notification through a full tunnel (R118, R126, R505) -/

section
variable {s : State}

/-- An event that comes while its bit is enabled and 0 makes one notification due (R505). -/
theorem State.raise_notes_enabled {e : Field} (h0 : s.getF e = 0) (he : s.eventEnabled e = true)
    (hne : eventEnable e.addr ≠ e.addr) : (s.raise e).notes = s.notes ++ [(e.addr, e.lo, s.mtb)] := by
  have hen : (s.setF e 1).eventEnabled e = true := by
    rw [State.eventEnabled, State.getReg_setF_ne _ _ _ hne]
    exact he
  unfold State.raise
  rw [if_pos h0]
  dsimp only
  rw [if_pos hen]
  rfl

/-- A message put into a full tunnel drops the oldest one, and the event of that can make a notification due itself. -/
theorem State.tunnelPut_notes_full (hf : 4 ≤ s.svc.outbound.length) (h0 : s.getF R.SVC_EVENT_TUNNEL_DROP = 0)
    (he : s.eventEnabled R.SVC_EVENT_TUNNEL_DROP = true) (m : Msg) :
    (s.tunnelPut m).notes = s.notes ++ [(R.SVC_EVENT, 8, s.mtb)] := by
  unfold State.tunnelPut
  rw [decide_eq_true hf]
  exact State.raise_notes_enabled h0 he (by decide)

theorem State.noteOut_notes (s : State) : s.noteOut.notes = s.notes.drop 1 := by
  unfold State.noteOut
  cases h : s.notes with
  | nil => exact h
  | cons x l => rfl

theorem State.noteOut_eq (s : State) : ∃ l v, s.noteOut = { s with notes := l, ro := { s.ro with sessions := v } } := by
  unfold State.noteOut
  split
  · exact ⟨_, _, rfl⟩
  · exact ⟨_, _, rfl⟩

theorem State.noteOut_advance (s : State) (u : Nat) : (s.advance u).noteOut = s.noteOut.advance u := by
  have hn : (s.advance u).notes = s.notes := rfl
  unfold State.noteOut
  rw [hn]
  cases s.notes <;> rfl

/-- A session that observes through a full tunnel: the notification drops the oldest message there, and where TUNNEL_DROP is enabled
and not yet set, a notification of that is due at once. -/
theorem cmpEventNotify_notes_full {n : Fin 8} {v : Session} {e : Event} {l : List Event} (hr : s.firmwareUp = true)
    (hv : Store.find? n.val s.noteOut.ro.sessions = some v) (hq : v.queue = e :: l) (ht : v.tunnel = true)
    (hf : 4 ≤ s.svc.outbound.length) (h0 : s.getF R.SVC_EVENT_TUNNEL_DROP = 0)
    (he : s.eventEnabled R.SVC_EVENT_TUNNEL_DROP = true) (u : Nat) :
    Completes (.cmpEventNotify (some n) u) s fun t => t.notes = s.notes.drop 1 ++ [(R.SVC_EVENT, 8, max s.mtb u)] := by
  have hnext : execCmpEventNotify (some n) u s = .next (((s.noteOut.advance u).setSession n { v with queue := l, lost := 0 }).tunnelPut
      (.notify n (if v.lost = 0 then ST.OK else ST.CMP_EVENT_LOST) e v.lost)) := by
    have hv' : Store.find? n.val (s.noteOut.advance u).ro.sessions = some v := hv
    unfold execCmpEventNotify
    rw [hr]
    simp only [Bool.not_true, Bool.false_eq_true, if_false, State.noteOut_advance, State.notifySend, hv', hq, ht, if_true]
  obtain ⟨k, w, hk⟩ := s.noteOut_eq
  refine ⟨_, hnext, ?_⟩
  refine (State.tunnelPut_notes_full ?_ ?_ ?_ _).trans ?_
  · rw [hk]; exact hf
  · rw [hk]; exact h0
  · rw [hk]; exact he
  · rw [← s.noteOut_notes, hk]
    rfl

end

/-- In SERVICE session 0 observes through the tunnel, which is full, an event waits for it, and TUNNEL_DROP is enabled as at
reset. -/
def fullTunnelState : State :=
  { regs := [(R.START_STATE, 0x60000000)]
    ro := { sessions := [(0, { role := 3, digest := 0, lastReq := 0, observes := true, tunnel := true, queue := [⟨0, 0, 1, 0, 1⟩] })] }
    svc := { outbound := List.replicate 4 (.cmpCode 401) } }

end Sys2Proof.Machine

section
open Sys2Proof Sys2Proof.Machine

/-- Refutes O11: its last clause has a notification leave no more notifications due, but one that goes out through a full tunnel
drops the oldest message there (R118), and where TUNNEL_DROP is enabled that event makes a notification due itself (R505), as in
`fullTunnelState`. -/
theorem not_cmpRequests : ¬ Obligations.CmpRequests := by
  unfold Obligations.CmpRequests
  intro h
  obtain ⟨-, -, -, -, -, -, -, -, -, -, -, -, -, -, -, -, -, -, -, -, -, -, hnotify⟩ := h fullTunnelState (by decide)
  obtain ⟨t, ht, hnotes, -⟩ := hnotify 0 0 _ _ _ rfl rfl rfl
  obtain ⟨v, hv, hmore⟩ := cmpEventNotify_notes_full (s := fullTunnelState) (n := 0) (by decide) rfl rfl rfl (by decide)
    (by decide) (by decide) 0
  have htv : t = v := Host.Outcome.next.inj (ht.symm.trans hv)
  rw [htv, hmore] at hnotes
  exact absurd hnotes (by decide)

end
namespace Sys2Proof.Machine
open Sys2Proof

/-! ### What a request to /cmp/session leaves (R118, R119) -/

/-- What is done for a request that was not answered before: `k`, or the response that its form calls for (R119, R120). -/
def State.formRun (w : State) (f : ReqForm) (k : State → State) : State :=
  if f = .replayed then w.emit (.cmpCode 401)
  else if f = .badPath then w.emit (.cmpCode 404)
  else if f = .badCbor then w.cmpAnswer ST.CMP_BAD_REQUEST
  else k w

/-- From the state `v` in which a request has been executed to `t`: its one response `m` has left the way the request came. -/
structure State.Sent (s v t : State) (tun : Bool) (m : Msg) : Prop where
  told : State.told s t tun m
  ro : t.ro = v.ro
  ky : t.ky = v.ky
  resp : t.resp = v.resp
  getF : ∀ f : Field, f.ok = true → R.SVC_EVENT_TUNNEL_DROP.apart f = true → t.getF f = v.getF f

section
variable {s v w : State} {sender u mid' : Nat} {mid : Fin 65536} {tun : Bool} {f : ReqForm} {k : State → State} {m : Msg}

theorem State.formRun_taken (hf : f = .good ∨ f = .unprotected ∨ f = .noDecrypt) : w.formRun f k = k w := by
  rcases hf with rfl | rfl | rfl <;> rfl

/-- A request that is not executed is told so, and nothing else happens. -/
theorem State.formRun_refused (hf : f = .replayed ∨ f = .badCbor ∨ f = .badPath) : (w.formRun f k).out = formAnswer f :: w.out ∧
    (w.formRun f k).ro = w.ro ∧ (w.formRun f k).svc = w.svc := by
  rcases hf with rfl | rfl | rfl <;> exact ⟨rfl, rfl, rfl⟩

/-- A request's form lets it be executed or not. -/
theorem ReqForm.taken_or_refused (f : ReqForm) :
    (f = .good ∨ f = .unprotected ∨ f = .noDecrypt) ∨ f = .replayed ∨ f = .badCbor ∨ f = .badPath := by
  cases f <;> decide

theorem formAnswer_ofCmp (f : ReqForm) : (formAnswer f).ofCmp = true := by cases f <;> rfl

theorem State.cmpOnce_fresh
    (h : w.cmp.answered.all (fun a => !(decide (w.mtb < a.at_ + exchangeLife) && a.session == sender && a.mid == mid')) = true) :
    ∃ c, w.cmpOnce sender mid' f k = { w.formRun f k with cmp := c } := by
  have hnone : (w.cmp.answered.filter (fun a => decide (w.mtb < a.at_ + exchangeLife))).find?
      (fun a => a.session == sender && a.mid == mid') = none := by
    refine List.find?_eq_none.mpr fun a ha => ?_
    obtain ⟨ha, hl⟩ := List.mem_filter.mp ha
    simpa only [hl, Bool.true_and, Bool.not_eq_true', Bool.not_eq_true] using List.all_eq_true.mp h a ha
  unfold State.cmpOnce
  simp only [hnone]
  cases f <;> exact ⟨_, rfl⟩

theorem State.tunnelPut_svc (s : State) (m : Msg) :
    (s.tunnelPut m).svc.outbound.getLast? = some m ∧ (s.tunnelPut m).svc.inbound = s.svc.inbound := by
  unfold State.tunnelPut
  rw [State.raiseIf_svc]
  exact ⟨by simp, rfl⟩

theorem State.getF_tunnelPut (s : State) (m : Msg) {f : Field} (hf : f.ok = true) (ha : R.SVC_EVENT_TUNNEL_DROP.apart f = true) :
    (s.tunnelPut m).getF f = s.getF f := by
  unfold State.tunnelPut
  exact State.getF_raiseIf_ne _ _ _ _ (by decide) hf ha

/-- What a request through the tunnel leads to: the responses go into the outbound tunnel, oldest first. -/
theorem State.viaTunnel_waiting (h : s.svc.inbound.isSome = true) : (s.advance u).viaTunnel true k =
    State.each { k (s.cmpTaken true u) with
        out := ((k (s.cmpTaken true u)).sentSince (s.cmpTaken true u)).filter (fun m => !m.ofCmp) ++ s.out }
      (((k (s.cmpTaken true u)).sentSince (s.cmpTaken true u)).filter Msg.ofCmp).reverse State.tunnelPut := by
  have hin : (s.advance u).svc.inbound.isNone = false := by simpa using h
  unfold State.viaTunnel
  rw [hin]
  rfl

/-- A request's one response goes out the way the request came (R118). -/
theorem State.viaTunnel_sent (hi : tun = true → s.svc.inbound.isSome = true)
    (ho : (k (s.cmpTaken tun u)).out = m :: s.out) (hs : (k (s.cmpTaken tun u)).svc = (s.cmpTaken tun u).svc)
    (hm : m.ofCmp = true) : State.Sent s (k (s.cmpTaken tun u)) ((s.advance u).viaTunnel tun k) tun m := by
  cases tun with
  | false => exact ⟨⟨fun _ => ho, fun h => nomatch h⟩, rfl, rfl, rfl, fun _ _ _ => rfl⟩
  | true =>
    have hvia : (s.advance u).viaTunnel true k = State.tunnelPut { k (s.cmpTaken true u) with out := s.out } m := by
      have hsent : (k (s.cmpTaken true u)).sentSince (s.cmpTaken true u) = [m] := by
        have hw : (s.cmpTaken true u).out = s.out := rfl
        rw [State.sentSince, ho, hw]
        simp
      rw [State.viaTunnel_waiting (hi rfl), hsent]
      simp only [List.filter_cons, hm, Bool.not_true, Bool.false_eq_true, if_false, if_true, List.filter_nil, List.nil_append,
        List.reverse_cons, List.reverse_nil]
      rfl
    rw [hvia]
    obtain ⟨hlast, hinb⟩ := State.tunnelPut_svc { k (s.cmpTaken true u) with out := s.out } m
    refine ⟨⟨fun h => (nomatch h), fun _ => ⟨?_, hlast, hinb.trans (congrArg (·.inbound) hs)⟩⟩, ?_, ?_, ?_, fun g hg ha => ?_⟩
    · simp [State.tunnelPut]
    · simp [State.tunnelPut]
    · simp [State.tunnelPut]
    · simp [State.tunnelPut]
    · exact State.getF_tunnelPut _ m hg ha

/-- A request to /cmp/session that was not answered before. -/
theorem State.cmpOpen_sent (hr : s.cmpReady sender mid tun u = true) (ho : ((s.cmpTaken tun u).formRun f k).out = m :: s.out)
    (hs : ((s.cmpTaken tun u).formRun f k).svc = (s.cmpTaken tun u).svc) (hm : m.ofCmp = true) :
    State.Sent s ((s.cmpTaken tun u).formRun f k) (s.cmpOpen sender mid tun f u k) tun m := by
  simp only [State.cmpReady, Bool.and_eq_true, Bool.or_eq_true, Bool.not_eq_true'] at hr
  obtain ⟨⟨hup, hin⟩, hfresh⟩ := hr
  have hw : (s.cmpTaken tun u).cmp = s.cmp ∧ (s.cmpTaken tun u).mtb = max s.mtb u := by cases tun <;> exact ⟨rfl, rfl⟩
  obtain ⟨c, hc⟩ := State.cmpOnce_fresh (w := s.cmpTaken tun u) (sender := sender) (mid' := mid) (f := f) (k := k)
    (by rw [hw.1, hw.2]; exact hfresh)
  have hopen : s.cmpOpen sender mid tun f u k = (s.advance u).viaTunnel tun (fun w => w.cmpOnce sender mid f k) := by
    unfold State.cmpOpen
    rw [hup]
    rfl
  have h := State.viaTunnel_sent (s := s) (k := fun w => w.cmpOnce sender mid f k) (u := u) (m := m) (tun := tun)
    (fun ht => hin.resolve_left (by rw [ht]; decide)) (by rw [hc]; exact ho) (by rw [hc]; exact hs) hm
  rw [hopen]
  rw [hc] at h
  exact ⟨h.told, h.ro, h.ky, h.resp, h.getF⟩

@[simp] theorem State.cmpTaken_ro : (s.cmpTaken tun u).ro = s.ro := by cases tun <;> rfl
@[simp] theorem State.cmpTaken_ky : (s.cmpTaken tun u).ky = s.ky := by cases tun <;> rfl
@[simp] theorem State.cmpTaken_out : (s.cmpTaken tun u).out = s.out := by cases tun <;> rfl
@[simp] theorem State.cmpTaken_mtb : (s.cmpTaken tun u).mtb = max s.mtb u := by cases tun <;> rfl

theorem State.cmpTaken_credOf (d : Nat) : (s.cmpTaken tun u).credOf d = s.credOf d := by rw [State.credOf, State.cmpTaken_ro, State.credOf]

/-- A request to /cmp/session that is executed. -/
theorem State.cmpOpen_taken (hr : s.cmpReady sender mid tun u = true) (hf : f = .good ∨ f = .unprotected ∨ f = .noDecrypt)
    (hv : k (s.cmpTaken tun u) = v) (ho : v.out = m :: (s.cmpTaken tun u).out) (hs : v.svc = (s.cmpTaken tun u).svc)
    (hm : m.ofCmp = true) : State.Sent s v (s.cmpOpen sender mid tun f u k) tun m := by
  have hrun : (s.cmpTaken tun u).formRun f k = v := (State.formRun_taken hf).trans hv
  have h := State.cmpOpen_sent (f := f) (k := k) (m := m) hr (by rw [hrun, ho, State.cmpTaken_out]) (by rw [hrun, hs]) hm
  rwa [hrun] at h

/-- A request to /cmp/session whose form is refused. -/
theorem State.cmpOpen_refused (hr : s.cmpReady sender mid tun u = true) (hf : f = .replayed ∨ f = .badCbor ∨ f = .badPath) :
    (s.cmpOpen sender mid tun f u k).ro = s.ro ∧ State.told s (s.cmpOpen sender mid tun f u k) tun (formAnswer f) := by
  obtain ⟨ho, hro, hs⟩ := State.formRun_refused (w := s.cmpTaken tun u) (k := k) hf
  have h := State.cmpOpen_sent (f := f) (k := k) hr (by rw [ho, State.cmpTaken_out]) hs (formAnswer_ofCmp f)
  exact ⟨h.ro.trans (hro.trans State.cmpTaken_ro), h.told⟩

end

/-! ### What a record leaves of the role store and the sessions (R433) -/

/-- The role store, its copy in flash, the handshakes and the sessions: what the audit log is no part of. -/
def Roles.access (r : Roles) : List Cred × Option (List Cred) × List Handshake × Store Session :=
  (r.creds, r.stored, r.shakes, r.sessions)

/-- From `s` to `t` the audit log has moved on. -/
structure State.Noted (s t : State) : Prop where
  within : State.Within [.block 20, .freeIx, .notes, .ro] s t
  access : t.ro.access = s.ro.access

section
variable {s t : State} {d : AuditData}

theorem State.Noted.creds (h : s.Noted t) : t.ro.creds = s.ro.creds := congrArg (·.1) h.access
theorem State.Noted.stored (h : s.Noted t) : t.ro.stored = s.ro.stored := congrArg (·.2.1) h.access
theorem State.Noted.shakes (h : s.Noted t) : t.ro.shakes = s.ro.shakes := congrArg (·.2.2.1) h.access
theorem State.Noted.sessions (h : s.Noted t) : t.ro.sessions = s.ro.sessions := congrArg (·.2.2.2) h.access
theorem State.Noted.out (h : s.Noted t) : t.out = s.out := h.within.same .out (by decide)
theorem State.Noted.resp (h : s.Noted t) : t.resp = s.resp := h.within.same .resp (by decide)
theorem State.Noted.svc (h : s.Noted t) : t.svc = s.svc := h.within.same .svc (by decide)
theorem State.Noted.ky (h : s.Noted t) : t.ky = s.ky := h.within.same .ky (by decide)
theorem State.Noted.cmp (h : s.Noted t) : t.cmp = s.cmp := h.within.same .cmp (by decide)
theorem State.Noted.mtb (h : s.Noted t) : t.mtb = s.mtb := h.within.same .mtb (by decide)

theorem Roles.access_closePage (r : Roles) : r.closePage.access = r.access := by
  unfold Roles.closePage
  split <;> rfl

theorem State.access_auditAppend (s : State) (d : AuditData) : (s.auditAppend d).ro.access = s.ro.access := by
  unfold State.auditAppend
  extract_lets r seq rec_ r' r'' full
  split
  · exact Roles.access_closePage r'
  · rfl

theorem State.access_checkpoint (h : s.checkpoint? = some t) : t.ro.access = s.ro.access := by
  unfold State.checkpoint? at h
  extract_lets r owner key seq rec_ mat sig sigLen page at h
  split at h
  · cases h
  · cases h
    rw [State.raise_ro]
    exact Roles.access_closePage s.ro

theorem State.access_checkpointDue (s : State) : s.checkpointDue.ro.access = s.ro.access := by
  unfold State.checkpointDue
  split
  · split
    · next t h => exact State.access_checkpoint h
    · rfl
  · rfl

theorem State.noted_append (s : State) (d : AuditData) : s.Noted (s.auditAppend d).checkpointDue :=
  ⟨State.checkpointDue_within (State.auditAppend_within (.refl _ s) (by decide) d) (List.Subset.refl _),
    (State.access_checkpointDue _).trans (s.access_auditAppend d)⟩

theorem State.noted_auditNote (s : State) (d : AuditData) : s.Noted (s.auditNote d) := by
  refine ⟨State.auditNote_within (.refl _ s) (List.Subset.refl _) d, ?_⟩
  unfold State.auditNote
  split
  · exact (s.noted_append d).access
  · rw [State.raise_ro]

/-- A change that finds room for its record is made once the record is appended. -/
theorem State.audited_room (h : s.auditRoom = true) (d : AuditData) (busy f : State → State) :
    ∃ a, s.Noted a ∧ s.audited d busy f = f a :=
  ⟨_, s.noted_append _, if_pos h⟩

theorem State.recordedCall_room (h : s.auditRoom = true) (kind ticket role op a b : Nat) (f : State → State) :
    ∃ t, s.Noted t ∧ s.recordedCall kind ticket role op a b f = f t := by
  unfold State.recordedCall
  exact State.audited_room h _ _ _

/-- A call's result, once it has one (R123). -/
theorem State.find?_finishCall {k : Nat} {r : Ticket} (h : Store.find? k s.cmp.tickets = some r) (st : Nat)
    (res : List (Nat × List Nat)) :
    Store.find? k (s.finishCall k st res).cmp.tickets = some { r with ready := true, status := st, result := res } := by
  unfold State.finishCall
  rw [h]
  exact Store.find?_put_same _ _ _

theorem State.finishCall_ro (s : State) (k st : Nat) (res : List (Nat × List Nat)) : (s.finishCall k st res).ro = s.ro := by
  unfold State.finishCall
  split <;> rfl

theorem State.finishCall_ky (s : State) (k st : Nat) (res : List (Nat × List Nat)) : (s.finishCall k st res).ky = s.ky := by
  unfold State.finishCall
  split <;> rfl

theorem State.isSet_finishCall (s : State) (k st : Nat) (res : List (Nat × List Nat)) (f : Field) :
    (s.finishCall k st res).isSet f = s.isSet f := by
  unfold State.finishCall
  split <;> rfl

end
end Sys2Proof.Machine
namespace Sys2Proof.Machine
open Sys2Proof

/-! ### Step 1 of a session set-up (R431, R432) -/

section
variable {s w a : State} {n sender u : Nat} {mid : Fin 65536} {tun : Bool} {f : ReqForm} {k : State → State} {st : Nat}

/-- A request to /cmp/session that is answered with a status word once a record has been made. -/
theorem State.cmpOpen_noted (hr : s.cmpReady sender mid tun u = true) (hf : f = .good ∨ f = .unprotected ∨ f = .noDecrypt)
    (hk : k (s.cmpTaken tun u) = a.cmpAnswer st) (ha : (s.cmpTaken tun u).Noted a) :
    (s.cmpOpen sender mid tun f u k).ro.access = s.ro.access ∧
    State.told s (s.cmpOpen sender mid tun f u k) tun (.cmpReply coapChanged st [] 0 0) := by
  have h := State.cmpOpen_taken hr hf hk (congrArg (List.cons _) ha.out) ha.svc rfl
  exact ⟨(congrArg Roles.access h.ro).trans (ha.access.trans (congrArg Roles.access State.cmpTaken_ro)), h.told⟩

theorem Roles.sessions_of_access {r q : Roles} (h : r.access = q.access) : r.sessions = q.sessions := congrArg (·.2.2.2) h
theorem Roles.shakes_of_access {r q : Roles} (h : r.access = q.access) : r.shakes = q.shakes := congrArg (·.2.2.1) h

theorem State.sessionHello_takes {d : Nat} {c : Cred} (hc : w.credOf d = some c) (hl : w.ro.shakes.length < 4) (o : Nat) :
    ∃ own secret ek sig, (w.sessionHello d o).out = .sessionStep2 ek own sig :: w.out ∧
      (w.sessionHello d o).ro = { w.ro with shakes := w.ro.shakes ++ [⟨d, o, own, secret, w.mtb⟩] } ∧
      (w.sessionHello d o).resp = ST.OK ∧ (w.sessionHello d o).svc = w.svc := by
  unfold State.sessionHello
  rw [hc]
  simp only [if_neg (Nat.not_le.mpr hl)]
  exact ⟨_, _, _, _, rfl, rfl, rfl, rfl⟩

theorem State.sessionHello_refuses {d : Nat} (h : w.credOf d = none ∨ 4 ≤ w.ro.shakes.length) (o : Nat) :
    ∃ a, w.Noted a ∧ w.sessionHello d o =
      a.cmpAnswer (if (w.credOf d).isNone then ST.ROLE_UNKNOWN_CRED else ST.ROLE_HANDSHAKES_BUSY) := by
  unfold State.sessionHello
  cases hc : w.credOf d with
  | none => exact ⟨_, w.noted_auditNote _, rfl⟩
  | some c =>
    have hl : 4 ≤ w.ro.shakes.length := h.resolve_left (by rw [hc]; exact Option.some_ne_none c)
    simp only [if_pos hl]
    exact ⟨_, w.noted_auditNote _, rfl⟩

theorem sessionHello_opens {d : BitVec 256} {c : Cred} (hr : s.cmpReady (16 + d.toNat) mid tun u = true)
    (hf : f = .good ∨ f = .unprotected ∨ f = .noDecrypt) (hc : s.credOf d.toNat = some c) (hl : s.ro.shakes.length < 4)
    (o : BitVec 128) : Completes (.sessionHello d o mid tun f u) s fun t =>
      t.ro.shakes.map (fun h => (h.digest, h.nonce, h.sentAt)) =
        s.ro.shakes.map (fun h => (h.digest, h.nonce, h.sentAt)) ++ [(d.toNat, o.toNat, max s.mtb u)] ∧
      t.ro.sessions = s.ro.sessions ∧ t.resp = ST.OK := by
  obtain ⟨own, secret, ek, sig, ho, hro, hresp, hs⟩ := State.sessionHello_takes (w := s.cmpTaken tun u)
    ((State.cmpTaken_credOf _).trans hc) (by rw [State.cmpTaken_ro]; exact hl) o.toNat
  have h := State.cmpOpen_taken (k := fun w => w.sessionHello d.toNat o.toNat) hr hf rfl ho hs rfl
  refine ⟨_, rfl, ?_, ?_, h.resp.trans hresp⟩
  · rw [h.ro, hro]
    simp
  · rw [h.ro, hro]
    simp

theorem sessionHello_refuses {d : BitVec 256} (hr : s.cmpReady (16 + d.toNat) mid tun u = true)
    (hf : f = .good ∨ f = .unprotected ∨ f = .noDecrypt) (h : s.credOf d.toNat = none ∨ 4 ≤ s.ro.shakes.length)
    (o : BitVec 128) : Completes (.sessionHello d o mid tun f u) s fun t =>
      t.ro.shakes = s.ro.shakes ∧ t.ro.sessions = s.ro.sessions ∧
      (State.told s t tun (.cmpReply coapChanged
        (if (s.credOf d.toNat).isNone then ST.ROLE_UNKNOWN_CRED else ST.ROLE_HANDSHAKES_BUSY) [] 0 0)) := by
  obtain ⟨a, ha, hk⟩ := State.sessionHello_refuses (w := s.cmpTaken tun u) (d := d.toNat)
    (by rw [State.cmpTaken_credOf, State.cmpTaken_ro]; exact h) o.toNat
  rw [State.cmpTaken_credOf] at hk
  obtain ⟨hro, ht⟩ := State.cmpOpen_noted (k := fun w => w.sessionHello d.toNat o.toNat) hr hf hk ha
  exact ⟨_, rfl, Roles.shakes_of_access hro, Roles.sessions_of_access hro, ht⟩

end

/-! ### Step 3 of a session set-up (R431, R432) -/

/-- The hash of a handshake's transcript, which step 3 signs and the session's Master Secret binds (R431). -/
def Handshake.hash (h : Handshake) (ct : List Byte) : Nat :=
  Config.sha3 (transcript h (Config.publicKey 5 h.secret) (nats ct))

/-- The session that a handshake opens for a credential. -/
def Handshake.session (h : Handshake) (c : Cred) (ct : List Byte) (t : Nat) : Session :=
  { role := c.role, digest := c.digest, lastReq := t,
    master := Config.kmac (Config.decaps h.secret (beNat ct)) (ascii "oscore" ++ octs 32 (h.hash ct)) 128 (ascii "SVC4820 derive") }

/-- Step 3's signature verifies under a credential. -/
def Handshake.signed (h : Handshake) (c : Cred) (ct : List Byte) (sig : Nat) : Bool :=
  Config.verifies 3 c.pubKey (ascii "SVC4820 session") [h.hash ct] sig

/-- The state in which handshake `h` has opened session `n`. -/
def State.sessionOpened (s : State) (n : Nat) (c : Cred) (h : Handshake) (ct : List Byte) : State :=
  let t := s.putSlot n ⟨attrWord 4 (2 * 2 ^ 24 + 0x08 * 2 ^ 16), Config.decaps h.secret (beNat ct)⟩
  let t := { t with ro := { t.ro with
    shakes := t.ro.shakes.erase h, sessions := Store.put n (h.session c ct t.mtb) t.ro.sessions } }
  ((t.raise R.ROLE_EVENT_SESSION_OPEN).emit (.sessionOpen n)).answer ST.OK

section
variable {s w a : State} {d n u sig : Nat} {mid : Fin 65536} {tun : Bool} {f : ReqForm} {ct : List Byte} {h : Handshake} {c : Cred}

theorem State.sessionFinish_opens (hh : w.ro.shakes.find? (fun h => h.digest == d) = some h) (hc : w.credOf d = some c)
    (ht : w.mtb ≤ h.sentAt + 10 * secCyc) (hg : h.signed c ct sig = true) (hn : w.freeSession = some n)
    (hroom : w.auditRoom = true) : ∃ a, w.Noted a ∧ w.sessionFinish d ct sig = a.sessionOpened n c h ct := by
  have hgo : (!h.signed c ct sig || decide (h.sentAt + 10 * secCyc < w.mtb)) = false := by
    rw [hg, decide_eq_false (Nat.not_lt.mpr ht)]
    rfl
  obtain ⟨a, ha, he⟩ := State.audited_room hroom ⟨4, c.role, 0, lead4 c.digest, 20 * 2 ^ 24 + n, 0, 0⟩
    (fun s => s.cmpAnswer ST.ROLE_AUDIT_BUSY) (fun s => s.sessionOpened n c h ct)
  refine ⟨a, ha, Eq.trans ?_ he⟩
  unfold State.sessionFinish
  rw [hh, hc]
  dsimp only
  rw [show (!Config.verifies 3 c.pubKey (ascii "SVC4820 session")
    [Config.sha3 (transcript h (Config.publicKey 5 h.secret) (nats ct))] sig || decide (h.sentAt + 10 * secCyc < w.mtb)) = false
    from hgo, if_neg Bool.false_ne_true, hn]
  rfl

theorem State.sessionFinish_fails (hh : w.ro.shakes.find? (fun h => h.digest == d) = some h)
    (hbad : ∀ c, w.credOf d = some c → h.signed c ct sig = false ∨ h.sentAt + 10 * secCyc < w.mtb) :
    w.sessionFinish d ct sig = (w.shakeFail h).cmpAnswer ST.ROLE_HANDSHAKE := by
  unfold State.sessionFinish
  rw [hh]
  cases hc : w.credOf d with
  | none => rfl
  | some c =>
    have hfail : (!h.signed c ct sig || decide (h.sentAt + 10 * secCyc < w.mtb)) = true := by
      rw [Bool.or_eq_true, Bool.not_eq_true', decide_eq_true_eq]
      exact hbad c hc
    exact if_pos hfail

theorem State.sessionFinish_unknown (hh : w.ro.shakes.find? (fun h => h.digest == d) = none) :
    w.sessionFinish d ct sig = ((w.setupFail d ST.ROLE_HANDSHAKE).raise R.ROLE_EVENT_SESSION_FAIL).cmpAnswer ST.ROLE_HANDSHAKE := by
  unfold State.sessionFinish
  rw [hh]

theorem State.sessionOpened_spec (s : State) (n : Nat) (c : Cred) (h : Handshake) (ct : List Byte) :
    (s.sessionOpened n c h ct).out = .sessionOpen n :: s.out ∧ (s.sessionOpened n c h ct).svc = s.svc ∧
    (s.sessionOpened n c h ct).ro.shakes = s.ro.shakes.erase h ∧
    Store.find? n (s.sessionOpened n c h ct).ro.sessions = some (h.session c ct s.mtb) ∧
    ((s.sessionOpened n c h ct).keySlot n).map (·.mat) = some (Config.decaps h.secret (beNat ct)) := by
  refine ⟨?_, ?_, ?_, ?_, ?_⟩ <;> simp [State.sessionOpened, State.keySlot, State.putSlot]

/-- A handshake that fails is gone, and the event and the answer say so. -/
theorem State.shakeFail_spec (s : State) (h : Handshake) : (s.shakeFail h).ro.sessions = s.ro.sessions ∧
    (s.shakeFail h).ro.shakes = s.ro.shakes.erase h ∧ (s.shakeFail h).isSet R.ROLE_EVENT_SESSION_FAIL = true ∧
    (s.shakeFail h).resp = ST.ROLE_HANDSHAKE ∧ (s.shakeFail h).out = s.out ∧ (s.shakeFail h).svc = s.svc := by
  obtain ⟨a, ha, e⟩ : ∃ a, s.Noted a ∧ s.shakeFail h =
      (State.raise { a with ro := { a.ro with shakes := a.ro.shakes.erase h } } R.ROLE_EVENT_SESSION_FAIL).answer ST.ROLE_HANDSHAKE :=
    ⟨_, s.noted_auditNote _, rfl⟩
  rw [e]
  refine ⟨?_, ?_, ?_, rfl, ?_, ?_⟩
  · rw [State.answer_ro, State.raise_ro, ha.sessions]
  · rw [State.answer_ro, State.raise_ro, ha.shakes]
  · exact State.isSet_raise_same _ (by decide) rfl
  · rw [State.answer_out, State.raise_out, ha.out]
  · rw [State.answer_svc, State.raise_svc, ha.svc]

/-- A set-up that its step 3 fails (R431). -/
theorem sessionFinish_fails {d : BitVec 256} (hr : s.cmpReady (16 + d.toNat) mid tun u = true)
    (hf : f = .good ∨ f = .unprotected ∨ f = .noDecrypt) (hh : s.ro.shakes.find? (fun h => h.digest == d.toNat) = some h)
    (hbad : ∀ c, s.credOf d.toNat = some c → h.signed c ct sig = false ∨ h.sentAt + 10 * secCyc < max s.mtb u) :
    Completes (.sessionFinish d ct sig mid tun f u) s fun t =>
      t.ro.sessions = s.ro.sessions ∧ t.ro.shakes = s.ro.shakes.erase h ∧ t.isSet R.ROLE_EVENT_SESSION_FAIL = true ∧
      State.told s t tun (.cmpReply coapChanged ST.ROLE_HANDSHAKE [] 0 0) := by
  have hk := State.sessionFinish_fails (w := s.cmpTaken tun u) (d := d.toNat) (ct := ct) (sig := sig) (h := h)
    (by rw [State.cmpTaken_ro]; exact hh) (by rw [State.cmpTaken_mtb, State.cmpTaken_credOf]; exact hbad)
  obtain ⟨hs, hk', he, -, ho, hv⟩ := (s.cmpTaken tun u).shakeFail_spec h
  have hsent := State.cmpOpen_taken (k := fun w => w.sessionFinish d.toNat ct sig) hr hf hk (congrArg (List.cons _) ho) hv rfl
  refine ⟨_, rfl, ?_, ?_, ?_, hsent.told⟩
  · exact (congrArg (·.sessions) hsent.ro).trans (hs.trans (by rw [State.cmpTaken_ro]))
  · exact (congrArg (·.shakes) hsent.ro).trans (hk'.trans (by rw [State.cmpTaken_ro]))
  · rw [State.isSet, hsent.getF _ (by decide) (by decide)]
    exact he

/-- A set-up that its step 3 completes (R431, R432). -/
theorem sessionFinish_opens {d : BitVec 256} (hr : s.cmpReady (16 + d.toNat) mid tun u = true)
    (hf : f = .good ∨ f = .unprotected ∨ f = .noDecrypt) (hh : s.ro.shakes.find? (fun h => h.digest == d.toNat) = some h)
    (hc : s.credOf d.toNat = some c) (ht : max s.mtb u ≤ h.sentAt + 10 * secCyc) (hg : h.signed c ct sig = true)
    (hn : s.freeSession = some n) (hroom : s.auditRoom = true) : Completes (.sessionFinish d ct sig mid tun f u) s fun t =>
      Store.find? n t.ro.sessions = some (h.session c ct (max s.mtb u)) ∧
      (t.keySlot n).map (·.mat) = some (Config.decaps h.secret (beNat ct)) ∧ t.ro.shakes = s.ro.shakes.erase h ∧
      State.told s t tun (.sessionOpen n) := by
  obtain ⟨a, ha, hk⟩ := State.sessionFinish_opens (w := s.cmpTaken tun u) (d := d.toNat) (ct := ct) (sig := sig) (h := h) (c := c)
    (n := n) (by rw [State.cmpTaken_ro]; exact hh) ((State.cmpTaken_credOf _).trans hc) (by rw [State.cmpTaken_mtb]; exact ht) hg
    (by simpa only [State.freeSession, State.keySlot, State.cmpTaken_ky] using hn)
    (by simpa only [State.auditRoom, State.cmpTaken_ro] using hroom)
  obtain ⟨ho, hv, hs, hfind, hslot⟩ := a.sessionOpened_spec n c h ct
  have hsent := State.cmpOpen_taken (k := fun w => w.sessionFinish d.toNat ct sig) hr hf hk (ho.trans (congrArg (List.cons _) ha.out))
    (hv.trans ha.svc) rfl
  refine ⟨_, rfl, ?_, ?_, ?_, hsent.told⟩
  · refine (congrArg (fun r => Store.find? n r.sessions) hsent.ro).trans (hfind.trans ?_)
    rw [ha.mtb, State.cmpTaken_mtb]
  · exact (congrArg (fun y => (Store.find? n y.slots).map (·.mat)) hsent.ky).trans hslot
  · refine (congrArg (·.shakes) hsent.ro).trans (hs.trans ?_)
    rw [ha.shakes, State.cmpTaken_ro]

/-- Step 3 without a handshake of its credential, or in a form that is not executed. -/
theorem sessionFinish_none {d : BitVec 256} (hr : s.cmpReady (16 + d.toNat) mid tun u = true)
    (h : f = .replayed ∨ f = .badCbor ∨ f = .badPath ∨ s.ro.shakes.find? (fun h => h.digest == d.toNat) = none) :
    Completes (.sessionFinish d ct sig mid tun f u) s fun t =>
      t.ro.sessions = s.ro.sessions ∧ t.ro.shakes = s.ro.shakes ∧
      (State.told s t tun (if f = .good ∨ f = .unprotected ∨ f = .noDecrypt then .cmpReply coapChanged ST.ROLE_HANDSHAKE [] 0 0
        else formAnswer f)) := by
  by_cases hf : f = .good ∨ f = .unprotected ∨ f = .noDecrypt
  · have hh : s.ro.shakes.find? (fun h => h.digest == d.toNat) = none := by
      rcases hf with rfl | rfl | rfl <;> simpa using h
    have hk := State.sessionFinish_unknown (w := s.cmpTaken tun u) (d := d.toNat) (ct := ct) (sig := sig)
      (by rw [State.cmpTaken_ro]; exact hh)
    have ha := (s.cmpTaken tun u).noted_auditNote ⟨4, 0, ST.ROLE_HANDSHAKE, lead4 d.toNat, 20 * 2 ^ 24, 0, 0⟩
    have hsent := State.cmpOpen_taken (k := fun w => w.sessionFinish d.toNat ct sig) hr hf hk
      (congrArg (List.cons _) ((State.raise_out _ _).trans ha.out)) ((State.raise_svc _ _).trans ha.svc) rfl
    have hro : (s.cmpOpen (16 + d.toNat) mid tun f u (fun w => w.sessionFinish d.toNat ct sig)).ro.access = s.ro.access := by
      rw [hsent.ro, ← State.cmpTaken_ro (s := s) (tun := tun) (u := u), ← ha.access]
      exact congrArg Roles.access (State.raise_ro _ _)
    refine ⟨_, rfl, Roles.sessions_of_access hro, Roles.shakes_of_access hro, ?_⟩
    rw [if_pos hf]
    exact hsent.told
  · obtain ⟨hro, ht⟩ := State.cmpOpen_refused (k := fun w => w.sessionFinish d.toNat ct sig) hr
      (f.taken_or_refused.resolve_left hf)
    refine ⟨_, rfl, by rw [hro], by rw [hro], ?_⟩
    rw [if_neg hf]
    exact ht

end

/-! ### The end of a session and of a handshake (R431, R432) -/

section
variable {s t : State} {n u : Nat} {v : Session} {mid : Fin 65536} {tun : Bool} {f : ReqForm}

/-- A session that ends, once that is recorded. -/
def State.sessionGone (s : State) (n : Nat) : State :=
  State.delSlot { s with
    ro := { s.ro with sessions := Store.del n s.ro.sessions },
    cmp := { s.cmp with answered := s.cmp.answered.filter (fun a => a.session != n) } } n

theorem State.sessionEnd_open (h : Store.find? n s.ro.sessions = some v) : ∃ a, s.Noted a ∧ s.sessionEnd n = a.sessionGone n := by
  unfold State.sessionEnd
  rw [h]
  exact ⟨_, s.noted_auditNote _, rfl⟩

theorem State.sessionEnd_none (h : Store.find? n s.ro.sessions = none) : s.sessionEnd n = s := by
  unfold State.sessionEnd
  rw [h]

theorem State.sessionEnd_spec (h : Store.find? n s.ro.sessions = some v) :
    (s.sessionEnd n).ro.sessions = Store.del n s.ro.sessions ∧ (s.sessionEnd n).keySlot n = none ∧
    (s.sessionEnd n).out = s.out ∧ (s.sessionEnd n).svc = s.svc := by
  obtain ⟨a, ha, e⟩ := State.sessionEnd_open h
  rw [e]
  exact ⟨congrArg (Store.del n) ha.sessions, Store.find?_del_same _ n, ha.out, ha.svc⟩

theorem sessionDelete_ends {n : Fin 8} (hr : s.cmpReady (8 + n.val) mid tun u = true)
    (hf : f = .good ∨ f = .unprotected ∨ f = .noDecrypt) (hn : (Store.find? n.val s.ro.sessions).isSome = true) :
    Completes (.sessionDelete n mid tun f u) s fun t => t.ro.sessions = Store.del n.val s.ro.sessions ∧ t.keySlot n = none ∧
      State.told s t tun (.cmpReply coapChanged ST.OK [] 0 0) := by
  obtain ⟨v, hv⟩ := Option.isSome_iff_exists.mp hn
  obtain ⟨hs, hk, ho, hsvc⟩ := State.sessionEnd_spec (s := s.cmpTaken tun u) (n := n.val) (v := v)
    (by rw [State.cmpTaken_ro]; exact hv)
  have hsent := State.cmpOpen_taken (k := fun w => (w.sessionEnd n).cmpAnswer ST.OK) hr hf rfl (congrArg (List.cons _) ho) hsvc rfl
  refine ⟨_, rfl, ?_, ?_, hsent.told⟩
  · exact (congrArg (·.sessions) hsent.ro).trans (hs.trans (by rw [State.cmpTaken_ro]))
  · exact (congrArg (fun y : Keys => Store.find? n.val y.slots) hsent.ky).trans hk

theorem sessionIdleExpiry_ends {n : Fin 8} (hv : Store.find? n.val s.ro.sessions = some v)
    (ht : v.lastReq + s.getF R.ROLE_CFG_IDLE_S * secCyc ≤ max s.mtb u) : Completes (.sessionIdleExpiry n u) s fun t =>
      t.ro.sessions = Store.del n.val s.ro.sessions ∧ t.keySlot n = none ∧ t.out = s.out := by
  have hv' : Store.find? n.val (s.advance u).ro.sessions = some v := hv
  have hnext : execSessionIdleExpiry n u s = .next ((s.advance u).sessionEnd n) := by
    unfold execSessionIdleExpiry
    simp only [hv']
    exact if_pos ht
  obtain ⟨hs, hk, ho, -⟩ := State.sessionEnd_spec hv'
  exact ⟨_, hnext, hs, hk, ho⟩

theorem handshakeTimeout_fails {h : Handshake}
    (hh : s.ro.shakes.find? (fun h => decide (h.sentAt + 10 * secCyc ≤ max s.mtb u)) = some h) :
    Completes (.handshakeTimeout u) s fun t => t.ro.shakes = s.ro.shakes.erase h ∧
      t.isSet R.ROLE_EVENT_SESSION_FAIL = true ∧ t.resp = ST.ROLE_HANDSHAKE ∧ t.ro.sessions = s.ro.sessions := by
  have hh' : (s.advance u).ro.shakes.find? (fun h => decide (h.sentAt + 10 * secCyc ≤ (s.advance u).mtb)) = some h := hh
  have hnext : execHandshakeTimeout u s = .next ((s.advance u).shakeFail h) := by
    unfold execHandshakeTimeout
    simp only [hh']
  obtain ⟨hs, hk, he, hr, -⟩ := (s.advance u).shakeFail_spec h
  exact ⟨_, hnext, hk, he, hr, hs⟩

end
end Sys2Proof.Machine

namespace Sys2Proof.Machine
open Sys2Proof

/-! ### Enrolment and revocation (R428 to R430) -/

section
variable {s t : State} {k : Nat} {r : Ticket} {c : Cred}

/-- A call that is refused is recorded and answered. -/
theorem State.noted_finishCall (hr : Store.find? k s.cmp.tickets = some r) (d : AuditData) (st : Nat) :
    ((s.auditNote d).finishCall k st []).ro.creds = s.ro.creds ∧
    (Store.find? k ((s.auditNote d).finishCall k st []).cmp.tickets).map (fun x => (x.ready, x.status)) = some (true, st) := by
  have ha := s.noted_auditNote d
  constructor
  · rw [State.finishCall_ro, ha.creds]
  · rw [State.find?_finishCall (by rw [ha.cmp]; exact hr)]
    rfl

/-- The role store changed: its copy in flash, the event and the call's answer (R429). -/
theorem State.credsChanged_spec (hr : Store.find? k s.cmp.tickets = some r) :
    let t := (s.storeRoles.raise R.ROLE_EVENT_CRED_CHANGE).finishCall k ST.OK []
    t.ro = { s.ro with stored := some s.ro.creds } ∧ t.ky = s.ky ∧ t.isSet R.ROLE_EVENT_CRED_CHANGE = true ∧
    (Store.find? k t.cmp.tickets).map (fun x => (x.ready, x.status)) = some (true, ST.OK) := by
  refine ⟨?_, ?_, ?_, ?_⟩
  · rw [State.finishCall_ro, State.raise_ro]
    rfl
  · rw [State.finishCall_ky, State.raise_ky]
    rfl
  · rw [State.isSet_finishCall]
    exact State.isSet_raise_same _ (by decide) rfl
  · rw [State.find?_finishCall (by rw [State.raise_cmp]; exact hr)]
    rfl

/-- Who may make a change to a record of a role (Table 19.1): the installer's role any, the updater's its own. -/
theorem roleRights {x y : Nat} (h : x = 2 ∨ (x = 3 ∧ y = 3)) : (!(decide (x = 2) || (decide (x = 3) && decide (y = 3)))) = false := by
  rcases h with h | ⟨h, h'⟩
  · rw [h]; rfl
  · rw [h, h']; rfl

theorem execRoleEnrol_refused {role : Fin 4} {key st : Nat} (ho : s.openCall k svcRole 2 = some r)
    (hp : (r.role = 2 ∨ (r.role = 3 ∧ (role : Nat) = 3)) ∧ (role : Nat) ≠ 0)
    (h : (s.credOf (Config.sha3 (octs 1312 key)) ≠ none ∧ st = ST.ROLE_EXISTS) ∨
      (s.credOf (Config.sha3 (octs 1312 key)) = none ∧ 16 ≤ s.enrolled.length ∧ st = ST.ROLE_STORE_FULL)) :
    ∃ d, execRoleEnrol k role key s = .next ((s.auditNote d).finishCall k st []) := by
  have hrole : decide ((role : Nat) = 0) = false := decide_eq_false hp.2
  unfold execRoleEnrol
  rw [ho]
  rcases h with ⟨he, rfl⟩ | ⟨he, hfull, rfl⟩
  · simp only [firstFail, roleRights hp.1, hrole, Option.isSome_iff_ne_none.mpr he, Bool.false_eq_true, if_false, if_true]
    exact ⟨_, rfl⟩
  · simp only [firstFail, roleRights hp.1, hrole, he, Option.isSome_none, decide_eq_true hfull, Bool.false_eq_true, if_false, if_true]
    exact ⟨_, rfl⟩

theorem execRoleEnrol_taken {role : Fin 4} {key : Nat} (ho : s.openCall k svcRole 2 = some r)
    (hp : (r.role = 2 ∨ (r.role = 3 ∧ (role : Nat) = 3)) ∧ (role : Nat) ≠ 0) (hroom : s.auditRoom = true)
    (hnew : s.credOf (Config.sha3 (octs 1312 key)) = none) (hl : s.enrolled.length < 16) :
    ∃ a, s.Noted a ∧ execRoleEnrol k role key s = .next (((State.storeRoles { a with ro := { a.ro with
      creds := a.ro.creds ++ [⟨role, Config.sha3 (octs 1312 key), key, false⟩] } }).raise R.ROLE_EVENT_CRED_CHANGE).finishCall k
        ST.OK []) := by
  have hrole : decide ((role : Nat) = 0) = false := decide_eq_false hp.2
  obtain ⟨a, ha, e⟩ := State.recordedCall_room hroom 5 k r.role 2 role (lead8 (Config.sha3 (octs 1312 key))) (fun a =>
    ((State.storeRoles { a with ro := { a.ro with creds := a.ro.creds ++ [⟨role, Config.sha3 (octs 1312 key), key, false⟩] } }).raise
      R.ROLE_EVENT_CRED_CHANGE).finishCall k ST.OK [])
  refine ⟨a, ha, Eq.trans ?_ (congrArg Host.Outcome.next e)⟩
  unfold execRoleEnrol
  rw [ho]
  simp only [firstFail, roleRights hp.1, hrole, hnew, Option.isSome_none, decide_eq_false (Nat.not_le.mpr hl), Bool.false_eq_true,
    if_false]

theorem roleEnrol_enrols {role : Fin 4} {key : Nat} (ho : s.openCall k svcRole 2 = some r)
    (hr : Store.find? k s.cmp.tickets = some r) (hp : (r.role = 2 ∨ (r.role = 3 ∧ (role : Nat) = 3)) ∧ (role : Nat) ≠ 0)
    (hroom : s.auditRoom = true) : Completes (.roleEnrol k role key) s fun t =>
      (s.credOf (Config.sha3 (octs 1312 key)) = none → s.enrolled.length < 16 →
        t.ro.creds = s.ro.creds ++ [⟨role, Config.sha3 (octs 1312 key), key, false⟩] ∧ t.ro.stored = some t.ro.creds ∧
        t.isSet R.ROLE_EVENT_CRED_CHANGE = true ∧
        (Store.find? k t.cmp.tickets).map (fun x => (x.ready, x.status)) = some (true, ST.OK)) ∧
      (s.credOf (Config.sha3 (octs 1312 key)) = none → 16 ≤ s.enrolled.length → t.ro.creds = s.ro.creds ∧
        (Store.find? k t.cmp.tickets).map (fun x => (x.ready, x.status)) = some (true, ST.ROLE_STORE_FULL)) ∧
      (s.credOf (Config.sha3 (octs 1312 key)) ≠ none → t.ro.creds = s.ro.creds ∧
        (Store.find? k t.cmp.tickets).map (fun x => (x.ready, x.status)) = some (true, ST.ROLE_EXISTS)) := by
  by_cases hnew : s.credOf (Config.sha3 (octs 1312 key)) = none
  · by_cases hl : s.enrolled.length < 16
    · obtain ⟨a, ha, e⟩ := execRoleEnrol_taken (key := key) ho hp hroom hnew hl
      refine ⟨_, e, fun _ _ => ?_, fun _ h => absurd hl (Nat.not_lt.mpr h), fun h => absurd hnew h⟩
      obtain ⟨hro, -, hev, htk⟩ := State.credsChanged_spec (s := { a with ro := { a.ro with
        creds := a.ro.creds ++ [⟨role, Config.sha3 (octs 1312 key), key, false⟩] } }) (k := k) (r := r) (by rw [ha.cmp]; exact hr)
      refine ⟨?_, ?_, hev, htk⟩
      · rw [hro]
        exact congrArg (· ++ _) ha.creds
      · rw [hro]
    · obtain ⟨d, e⟩ := execRoleEnrol_refused ho hp (Or.inr ⟨hnew, Nat.not_lt.mp hl, rfl⟩)
      exact ⟨_, e, fun _ h => absurd h hl, fun _ _ => State.noted_finishCall hr d _, fun h => absurd hnew h⟩
  · obtain ⟨d, e⟩ := execRoleEnrol_refused ho hp (Or.inl ⟨hnew, rfl⟩)
    exact ⟨_, e, fun h => absurd h hnew, fun h => absurd h hnew, fun _ => State.noted_finishCall hr d _⟩

/-! ### The sessions of a revoked credential end (R430) -/

theorem Store.ne_of_mem_del {α : Type} {m : List (Nat × α)} {n : Nat} {x : Nat × α} (h : x ∈ Store.del n m) : x.1 ≠ n := by
  induction m with
  | nil => cases h
  | cons y m ih =>
    unfold Store.del at h
    split at h
    · exact ih h
    · next hne =>
      rcases List.mem_cons.mp h with rfl | h
      · exact fun e => hne e.symm
      · exact ih h

theorem Store.isSome_find?_of_mem {α : Type} {m : List (Nat × α)} {x : Nat × α} (h : x ∈ m) :
    (Store.find? x.1 m).isSome = true := by
  induction m with
  | nil => cases h
  | cons y m ih =>
    unfold Store.find?
    split
    · rfl
    · next hne =>
      rcases List.mem_cons.mp h with rfl | h
      · exact absurd rfl hne
      · exact ih h

/-- What the end of sessions leaves: the credentials and the calls; a session that is left is none of those that ended; the key of
one that ended is gone. -/
structure State.Ended (l : List Nat) (s t : State) : Prop where
  creds : t.ro.creds = s.ro.creds
  tickets : t.cmp.tickets = s.cmp.tickets
  left : ∀ x ∈ t.ro.sessions, x ∈ s.ro.sessions ∧ x.1 ∉ l
  slot : ∀ n, s.keySlot n = none ∨ (n ∈ l ∧ (Store.find? n s.ro.sessions).isSome = true) → t.keySlot n = none
  find : ∀ n ∉ l, Store.find? n t.ro.sessions = Store.find? n s.ro.sessions

theorem State.sessionEnd_ended (s : State) (n : Nat) : s.Ended [n] (s.sessionEnd n) := by
  cases h : Store.find? n s.ro.sessions with
  | none =>
    rw [State.sessionEnd_none h]
    refine ⟨rfl, rfl, fun x hx => ⟨hx, ?_⟩, ?_, fun _ _ => rfl⟩
    · rw [List.mem_singleton]
      rintro rfl
      have := Store.isSome_find?_of_mem hx
      rw [h] at this
      cases this
    · rintro k (hk | ⟨hk, hf⟩)
      · exact hk
      · rw [List.mem_singleton.mp hk, h] at hf
        cases hf
  | some v =>
    obtain ⟨a, ha, e⟩ := State.sessionEnd_open h
    rw [e]
    have hs : (a.sessionGone n).ro.sessions = Store.del n s.ro.sessions := congrArg (Store.del n) ha.sessions
    have hk : (a.sessionGone n).ky.slots = Store.del n s.ky.slots := congrArg (fun y : Keys => Store.del n y.slots) ha.ky
    refine ⟨ha.creds, congrArg (·.tickets) ha.cmp, fun x hx => ?_, fun k hkn => ?_, fun k hkn => ?_⟩
    · rw [hs] at hx
      exact ⟨Store.mem_del _ _ _ hx, fun hm => Store.ne_of_mem_del hx (List.mem_singleton.mp hm)⟩
    · rw [State.keySlot, hk]
      by_cases hne : k = n
      · rw [hne, Store.find?_del_same]
      · rw [Store.find?_del_ne _ hne]
        exact hkn.resolve_right fun hm => hne (List.mem_singleton.mp hm.1)
    · rw [hs, Store.find?_del_ne _ fun hne => hkn (List.mem_singleton.mpr hne)]

theorem State.each_sessionEnd_ended (s : State) (l : List Nat) : s.Ended l (s.each l State.sessionEnd) := by
  unfold State.each
  induction l generalizing s with
  | nil => exact ⟨rfl, rfl, fun x hx => ⟨hx, List.not_mem_nil⟩, fun n h => h.resolve_right fun hm => List.not_mem_nil hm.1,
      fun _ _ => rfl⟩
  | cons n l ih =>
    have h1 := s.sessionEnd_ended n
    have h2 := ih (s.sessionEnd n)
    refine ⟨h2.creds.trans h1.creds, h2.tickets.trans h1.tickets, fun x hx => ?_, fun k hk => ?_, fun k hk => ?_⟩
    · obtain ⟨hx1, hl⟩ := h2.left x hx
      obtain ⟨hx0, hn⟩ := h1.left x hx1
      exact ⟨hx0, List.mem_cons.not.mpr (not_or.mpr ⟨fun e => hn (List.mem_singleton.mpr e), hl⟩)⟩
    · refine h2.slot k ?_
      rcases hk with hk | ⟨hm, hf⟩
      · exact Or.inl (h1.slot k (Or.inl hk))
      · by_cases hne : k = n
        · exact Or.inl (h1.slot k (Or.inr ⟨List.mem_singleton.mpr hne, hf⟩))
        · exact Or.inr ⟨(List.mem_cons.mp hm).resolve_left hne, by rw [h1.find k fun e => hne (List.mem_singleton.mp e)]; exact hf⟩
    · rw [List.mem_cons, not_or] at hk
      exact (h2.find k hk.2).trans (h1.find k fun e => hk.1 (List.mem_singleton.mp e))

/-- The numbers of the sessions of a credential. -/
def State.sessionsOf (s : State) (d : Nat) : List Nat := (s.ro.sessions.filter (fun x => x.2.digest == d)).map (·.1)

theorem State.mem_sessionsOf {d : Nat} {x : Nat × Session} (h : x ∈ s.ro.sessions) (hd : x.2.digest = d) :
    x.1 ∈ s.sessionsOf d :=
  List.mem_map_of_mem (List.mem_filter.mpr ⟨h, beq_iff_eq.mpr hd⟩)

/-- The state in which the record with a digest is out of the role store and its sessions have ended. -/
def State.revoked (s : State) (d : Nat) : State :=
  let t : State := { s with ro := { s.ro with creds := s.ro.creds.filter (fun v => v.digest != d) } }
  t.each (t.sessionsOf d) State.sessionEnd

theorem execRoleRevoke_taken {d : BitVec 256} (ho : s.openCall k svcRole 3 = some r)
    (hp : r.role = 2 ∨ (r.role = 3 ∧ c.role = 3)) (hc : s.credOf d.toNat = some c) (hk : c.pricking = false)
    (hlast : c.role = 2 → 1 < (s.ro.creds.filter (fun v => v.role == 2)).length) (hroom : s.auditRoom = true) :
    ∃ a, s.Noted a ∧ execRoleRevoke k d s =
      .next (((a.revoked d.toNat).storeRoles.raise R.ROLE_EVENT_CRED_CHANGE).finishCall k ST.OK []) := by
  obtain ⟨a, ha, e⟩ := State.recordedCall_room hroom 5 k r.role 3 (lead8 d.toNat) 0 (fun a =>
    ((a.revoked d.toNat).storeRoles.raise R.ROLE_EVENT_CRED_CHANGE).finishCall k ST.OK [])
  refine ⟨a, ha, Eq.trans ?_ (congrArg Host.Outcome.next e)⟩
  have hrights : (!(decide (r.role = 2) || (decide (r.role = 3) && (c.role == 3)))) = false := roleRights hp
  have hfew : ((c.role == 2) && decide ((s.ro.creds.filter (fun v => v.role == 2)).length ≤ 1)) = false := by
    rw [Bool.and_eq_false_iff, beq_eq_false_iff_ne, decide_eq_false_iff_not, Nat.not_le]
    exact (Decidable.em (c.role = 2)).elim (fun h => Or.inr (hlast h)) Or.inl
  unfold execRoleRevoke
  rw [ho]
  simp only [hc, firstFail, Option.isNone_some, Bool.false_or, hrights, hk, hfew, Bool.false_eq_true, if_false]
  rfl

theorem roleRevoke_revokes {d : BitVec 256} (ho : s.openCall k svcRole 3 = some r) (hr : Store.find? k s.cmp.tickets = some r)
    (hp : r.role = 2 ∨ (r.role = 3 ∧ c.role = 3)) (hc : s.credOf d.toNat = some c) (hk : c.pricking = false)
    (hlast : c.role = 2 → 1 < (s.ro.creds.filter (fun v => v.role == 2)).length) (hroom : s.auditRoom = true) :
    Completes (.roleRevoke k d) s fun t =>
      t.ro.creds = s.ro.creds.filter (fun v => v.digest != d.toNat) ∧ t.ro.stored = some t.ro.creds ∧
      t.isSet R.ROLE_EVENT_CRED_CHANGE = true ∧ t.ro.sessions.all (fun x => x.2.digest != d.toNat) = true ∧
      s.ro.sessions.all (fun x => x.2.digest != d.toNat || (t.keySlot x.1).isNone) = true ∧
      (Store.find? k t.cmp.tickets).map (fun x => (x.ready, x.status)) = some (true, ST.OK) := by
  obtain ⟨a, ha, e⟩ := execRoleRevoke_taken ho hp hc hk hlast hroom
  have hend := State.each_sessionEnd_ended { a with ro := { a.ro with creds := a.ro.creds.filter (fun v => v.digest != d.toNat) } }
    (State.sessionsOf { a with ro := { a.ro with creds := a.ro.creds.filter (fun v => v.digest != d.toNat) } } d.toNat)
  have htk : (a.revoked d.toNat).cmp.tickets = s.cmp.tickets := hend.tickets.trans (congrArg (·.tickets) ha.cmp)
  obtain ⟨hro, hky, hev, hans⟩ := State.credsChanged_spec (s := a.revoked d.toNat) (k := k) (r := r) (by rw [htk]; exact hr)
  refine ⟨_, e, ?_, ?_, hev, ?_, ?_, hans⟩
  · rw [hro]
    exact hend.creds.trans (congrArg (List.filter _) ha.creds)
  · rw [hro]
  · rw [hro, List.all_eq_true]
    intro x hx
    obtain ⟨hx0, hn⟩ := hend.left x hx
    exact bne_iff_ne.mpr fun hd => hn (State.mem_sessionsOf hx0 hd)
  · rw [List.all_eq_true]
    intro x hx
    rw [Bool.or_eq_true, bne_iff_ne, State.keySlot, hky, Option.isNone_iff_eq_none, or_iff_not_imp_left, not_not]
    intro hd
    have hx' : x ∈ a.ro.sessions := by rw [ha.sessions]; exact hx
    exact hend.slot x.1 (Or.inr ⟨State.mem_sessionsOf hx' hd, Store.isSome_find?_of_mem hx'⟩)

end
end Sys2Proof.Machine

section
open Sys2Proof Sys2Proof.Machine

/-- Settles O12: a request to /cmp/session runs in the state that has taken it and its one answer leaves the way it came
(`State.cmpOpen_taken`); a record moves the audit log alone (`State.Noted`); a revocation ends its sessions one by one. -/
theorem sessionsAndCredentials : Obligations.SessionsAndCredentials := by
  unfold Obligations.SessionsAndCredentials
  intro s _
  refine ⟨?_, ?_, ?_, ?_, ?_, ?_, ?_, ?_, ?_, ?_, ?_, ?_⟩
  · exact fun mid tun u f d o c hr hf hc hl => sessionHello_opens hr hf hc hl o
  · exact fun mid tun u f d o hr hf h => sessionHello_refuses hr hf h o
  · intro mid tun u f d o hr hf
    obtain ⟨hro, ht⟩ := State.cmpOpen_refused (k := fun w => w.sessionHello d.toNat o.toNat) hr hf
    exact ⟨_, rfl, by rw [hro], ht⟩
  · intro mid tun u f d ct sig h c n hr hf hh hc ht hn hroom
    cases hg : h.signed c ct sig with
    | true =>
      obtain ⟨t, he, hs, hk, hsh, htold⟩ := sessionFinish_opens hr hf hh hc ht hg hn hroom
      exact ⟨t, he, fun _ => ⟨by rw [hs]; rfl, hk, hsh, htold⟩, fun hbad => absurd (hg.symm.trans hbad) (by decide)⟩
    | false =>
      obtain ⟨t, he, hall⟩ := sessionFinish_fails (ct := ct) (sig := sig) hr hf hh fun c' hc' => by
        rw [hc] at hc'
        cases hc'
        exact Or.inl hg
      exact ⟨t, he, fun hgood => absurd (hg.symm.trans hgood) (by decide), fun _ => hall⟩
  · exact fun mid tun u f d ct sig h hr hf hh hbad => sessionFinish_fails hr hf hh fun c hc =>
      Or.inr (hbad.resolve_right (by rw [hc]; exact Option.some_ne_none c))
  · exact fun mid tun u f d ct sig hr h => sessionFinish_none hr h
  · exact fun mid tun u f n hr hf hn => sessionDelete_ends hr hf hn
  · intro mid tun u f n hr hf
    obtain ⟨hro, ht⟩ := State.cmpOpen_refused (k := fun w => (w.sessionEnd n).cmpAnswer ST.OK) hr hf
    exact ⟨_, rfl, by rw [hro], ht⟩
  · exact fun n u v hv ht => sessionIdleExpiry_ends hv ht
  · exact fun u h hh => handshakeTimeout_fails hh
  · exact fun k role key r ho hr hp hroom => roleEnrol_enrols ho hr hp hroom
  · exact fun k d r c ho hr hp hc hk hlast hroom => roleRevoke_revokes ho hr hp hc hk hlast hroom

end
namespace Sys2Proof.Machine
open Sys2Proof

/-! ### What the judgement of a domain leaves (R129, R134 to R139) -/

/-- The fields that the servo writes. -/
def servoFields : List Field := [R.TIME_EVENT_JUMP_REFUSED, R.TIME_EVENT_RATE_CLIP, R.TIME_RATE_RATE, R.TIME_STATE_REFUSED]

/-- The fields of a domain's state, beside them those that a domain that is judged can write. -/
def domFields (d : Nat) : List Field :=
  [R.TIME_DOM_STAT_STATE (d - 1), R.TIME_STATE_DOM1, R.TIME_STATE_DOM2, R.TIME_DOM_STAT_PASS (d - 1)]
def judgeFields (d : Nat) : List Field :=
  domFields d ++ [R.TIME_DOM_COUNT_FREEZES (d - 1), R.TIME_EVENT_LOCKED, R.TIME_EVENT_FROZEN, R.TIME_EVENT_NO_REF] ++
    (servoFields ++ refFields)

theorem judgeFields_fit (d : Nat) : ∀ g ∈ judgeFields d, g.lo + g.width ≤ 32 := by
  have hd : ∀ g ∈ domFields d, g.lo + g.width ≤ 32 := by
    simp [domFields, R.TIME_DOM_STAT_STATE, R.TIME_STATE_DOM1, R.TIME_STATE_DOM2, R.TIME_DOM_STAT_PASS]
  have hrest : ∀ g ∈ [R.TIME_EVENT_LOCKED, R.TIME_EVENT_FROZEN, R.TIME_EVENT_NO_REF] ++ (servoFields ++ refFields),
      g.lo + g.width ≤ 32 := by decide
  intro g hg
  simp only [judgeFields, List.append_assoc, List.mem_append, List.mem_cons] at hg hrest
  rcases hg with hg | (rfl | hg) | hg
  · exact hd g hg
  · simp [R.TIME_DOM_COUNT_FREEZES]
  · exact hrest g (Or.inl hg)
  · exact hrest g (Or.inr hg)

/-- What was measured of a domain and of its messages. -/
def Domain.samples (v : Domain) : Option Int × Option Int × Option Int × Option Int × Option Int × Option Nat :=
  (v.offset, v.rawMs, v.syncAt, v.reqAt, v.interval, v.sentAt)

/-- From `s` to `t` the domains have been judged: of the registers only the fields of `l` can change, and nothing measured does. -/
structure State.Judged (l : List Field) (s t : State) : Prop where
  spares : s.Spares l [] t
  samples : ∀ k, (t.domain k).samples = (s.domain k).samples

section
variable {d : Nat} {l m : List Field} {s t u : State}

theorem State.Judged.refl (l : List Field) (s : State) : s.Judged l s := ⟨.refl _ _ s, fun _ => rfl⟩

theorem State.Judged.setF (h : s.Judged l t) {g : Field} (hg : g ∈ l) (hw : g.lo + g.width ≤ 32) (v : Nat) :
    s.Judged l (t.setF g v) := ⟨h.spares.setF hg hw v, h.samples⟩

theorem State.Judged.bump (h : s.Judged l t) {g : Field} (hg : g ∈ l) (hw : g.lo + g.width ≤ 32) : s.Judged l (t.bump g) :=
  h.setF hg hw _

theorem State.domain_raise (s : State) (e : Field) (k : Nat) : (s.raise e).domain k = s.domain k := by
  rw [State.domain, State.raise_tm, State.domain]

theorem State.Judged.raise (h : s.Judged l t) {g : Field} (hg : g ∈ l) (hw : g.lo + g.width ≤ 32) : s.Judged l (t.raise g) :=
  ⟨h.spares.raise hg hw, fun k => by rw [State.domain_raise]; exact h.samples k⟩

theorem State.Judged.raiseIf (h : s.Judged l t) {g : Field} (hg : g ∈ l) (hw : g.lo + g.width ≤ 32) (c : Bool) :
    s.Judged l (t.raiseIf c g) := by
  cases c
  · exact h
  · exact h.raise hg hw

theorem State.Judged.useFree (h : s.Judged l t) : s.Judged l t.useFree := ⟨⟨h.spares.inv, h.spares.getF⟩, h.samples⟩

/-- The time unit changes, but for its domains. -/
theorem State.Judged.withTm (h : s.Judged l t) {x : TimeUnit} (h1 : x.dom1 = t.tm.dom1) (h2 : x.dom2 = t.tm.dom2) :
    s.Judged l { t with tm := x } := by
  refine ⟨⟨h.spares.inv, h.spares.getF⟩, fun k => ?_⟩
  rw [← h.samples k]
  simp only [State.domain, h1, h2]

theorem State.getF_setDomain (s : State) (k : Nat) (v : Domain) (f : Field) : (s.setDomain k v).getF f = s.getF f := by
  unfold State.setDomain
  split <;> rfl

theorem State.domain_setF (s : State) (f : Field) (v k : Nat) : (s.setF f v).domain k = s.domain k := rfl

theorem State.setDomain_inv (hi : s.Inv) (k : Nat) (v : Domain) : (s.setDomain k v).Inv := by
  unfold State.setDomain
  split <;> exact hi

theorem State.domain_setDomain_same (s : State) (k : Nat) (v : Domain) : (s.setDomain k v).domain k = v := by
  unfold State.setDomain State.domain
  by_cases h : k = 1
  · rw [if_pos h, if_pos h]
  · rw [if_neg h, if_neg h]

theorem State.samples_setDomain {k : Nat} {v : Domain} (hv : v.samples = (s.domain k).samples) (n : Nat) :
    ((s.setDomain k v).domain n).samples = (s.domain n).samples := by
  unfold State.domain at hv ⊢
  unfold State.setDomain
  by_cases hk : k = 1 <;> by_cases hn : n = 1 <;> simp_all

theorem State.Judged.setDomain (h : s.Judged l t) {k : Nat} {v : Domain} (hv : v.samples = (t.domain k).samples) :
    s.Judged l (t.setDomain k v) := by
  refine ⟨⟨fun hi => State.setDomain_inv (h.spares.inv hi) k v, fun f hf ha hb hi => ?_⟩, fun n => ?_⟩
  · rw [State.getF_setDomain]
    exact h.spares.getF f hf ha hb hi
  · exact (State.samples_setDomain hv n).trans (h.samples n)

theorem State.Judged.ite {c : Prop} [Decidable c] (ht : c → s.Judged l t) (hu : ¬ c → s.Judged l u) :
    s.Judged l (if c then t else u) := by
  split
  · exact ht ‹_›
  · exact hu ‹_›

theorem State.Judged.setDomState (h : s.Judged l t) (hl : domFields d ⊆ l) (st : Nat) : s.Judged l (t.setDomState d st) := by
  unfold State.setDomState
  refine (h.setF (g := R.TIME_DOM_STAT_STATE (d - 1)) (hl (by simp [domFields])) (by simp [R.TIME_DOM_STAT_STATE]) st).setF
    (hl ?_) ?_ st
  · split <;> simp [domFields]
  · split <;> decide

theorem State.Judged.setRef (h : s.Judged l t) (hl : refFields ⊆ l) (n : Nat) : s.Judged l (t.setRef n) := by
  have h1 : s.Judged l { t with tm := { t.tm with slewing := false, holds := t.tm.holds && n == 0 } } := h.withTm rfl rfl
  unfold State.setRef
  refine State.Judged.ite (fun _ => h) fun _ => ?_
  exact ((h1.setF (g := R.TIME_STATE_REFUSED) (hl (by decide)) (by decide) 0).setF (g := R.TIME_STATE_SEL) (hl (by decide))
    (by decide) n).raiseIf (hl (by decide)) (by decide) _

theorem State.Judged.setRate (h : s.Judged l t) (hl : servoFields ⊆ l) (r : Int) : s.Judged l (t.setRate r) := by
  have h1 : s.Judged l (t.setDev32 t.mtb (t.dev32 t.mtb)) := h.withTm rfl rfl
  exact h1.setF (hl (by decide)) (by decide) _

theorem State.Judged.correct (h : s.Judged l t) (hl : servoFields ⊆ l) (off : Int) : s.Judged l (t.correct off) := by
  have hend : s.Judged l (State.setF { t with tm := { t.tm with slewing := false } } R.TIME_STATE_REFUSED 0) :=
    (h.withTm (x := { t.tm with slewing := false }) rfl rfl).setF (hl (by decide)) (by decide) 0
  have hclip (r : Int) : s.Judged l (((State.setF { t with tm := { t.tm with slewing := false } }
      R.TIME_STATE_REFUSED 0).useFree.setRate r).raise R.TIME_EVENT_RATE_CLIP) :=
    (hend.useFree.setRate hl r).raise (hl (by decide)) (by decide)
  unfold State.correct
  refine State.Judged.ite (fun _ => h) fun _ => State.Judged.ite (fun _ => State.Judged.ite (fun _ => h.setRate hl _) fun _ =>
    State.Judged.ite (fun _ => h) fun _ => ?_) fun _ => ?_
  · exact (h.setF (g := R.TIME_STATE_REFUSED) (hl (by decide)) (by decide) 1).raise (hl (by decide)) (by decide)
  · exact State.Judged.ite (fun _ => hclip _) fun _ => State.Judged.ite (fun _ => hclip _) fun _ => hend.useFree.setRate hl _

theorem State.Judged.rejudge (h : s.Judged l t) : s.Judged l t.rejudge := by
  refine State.each_induct (P := s.Judged l) _ _ h fun w k hw => ?_
  exact State.Judged.ite (fun _ => hw.setDomain rfl) fun _ => hw

/-- The boundary of the step is fixed where a first domain locks (R133). -/
def State.planned (s : State) (d : Nat) : State :=
  if s.isSet R.TIME_STATE_STEPPED || s.tm.ebByWait || s.tm.step.isSome || s.pairRole = 2 || s.tm.stdbySet then s
  else
    let off := match s.domOffset d with | some q => ofQns q | none => 0
    let slot : Int := (s.slotCycs * 2 ^ 32 : Nat)
    let now := s.mesh32 s.mtb - off
    let n := -((-(now + 2 * slot)) / slot)
    { s with tm := { s.tm with
      step := some (d, ((s.mtb : Int) + (n * slot - now + (2 ^ 32 + s.rate) - 1) / (2 ^ 32 + s.rate)).toNat) } }

/-- A domain that has locked can be the reference, and is while RATE is held (R139). -/
def State.lockChosen (s : State) (d : Nat) : State :=
  State.setRef { s with tm := { s.tm with holds := false } }
    (State.chooseRef { s with tm := { s.tm with holds := false } } (if s.tm.holds then d else s.getF R.TIME_STATE_SEL))

theorem State.enterLocked_eq (s : State) (d : Nat) :
    s.enterLocked d = (((s.setDomState d 3).raise R.TIME_EVENT_LOCKED).planned d).lockChosen d := rfl

theorem State.Judged.planned (h : s.Judged l t) : s.Judged l (t.planned d) := by
  unfold State.planned
  exact State.Judged.ite (fun _ => h) fun _ => h.withTm rfl rfl

theorem State.Judged.lockChosen (h : s.Judged l t) (hl : refFields ⊆ l) : s.Judged l (t.lockChosen d) := by
  have hx : s.Judged l { t with tm := { t.tm with holds := false } } := h.withTm rfl rfl
  exact hx.setRef hl _

/-- Once a domain shows that it is locked, the pending step and the reference follow. -/
theorem State.Judged.locked (h : s.Judged l ((t.setDomState d 3).raise R.TIME_EVENT_LOCKED)) (hl : refFields ⊆ l) :
    s.Judged l (t.enterLocked d) := by
  rw [State.enterLocked_eq]
  exact h.planned.lockChosen hl

end

/-! ### A measured offset (R129) -/

section
variable {d : Nat} {s t : State}

theorem domFields_sub (d : Nat) : domFields d ⊆ judgeFields d := fun g hg => by simp [judgeFields, hg]
theorem servoFields_sub (d : Nat) : servoFields ⊆ judgeFields d := fun g hg => by simp [judgeFields, hg]
theorem refFields_sub (d : Nat) : refFields ⊆ judgeFields d := fun g hg => by simp [judgeFields, hg]

/-- A field of a judgement is written. -/
theorem State.Judged.put (h : s.Judged (judgeFields d) t) {g : Field} (hg : g ∈ judgeFields d) (v : Nat) :
    s.Judged (judgeFields d) (t.setF g v) := h.setF hg (judgeFields_fit d g hg) v

/-- An event of a judgement is set. -/
theorem State.Judged.mark (h : s.Judged (judgeFields d) t) {g : Field} (hg : g ∈ judgeFields d) :
    s.Judged (judgeFields d) (t.raise g) := h.raise hg (judgeFields_fit d g hg)

theorem State.Judged.enterLocked (h : s.Judged (judgeFields d) t) : s.Judged (judgeFields d) (t.enterLocked d) :=
  State.Judged.locked ((h.setDomState (domFields_sub d) 3).mark (by simp [judgeFields])) (refFields_sub d)

theorem State.Judged.freeze (h : s.Judged (judgeFields d) t) : s.Judged (judgeFields d) (t.freeze d) := by
  unfold State.freeze
  extract_lets o ref w v w' z tm w''
  have hw : s.Judged (judgeFields d) w :=
    ((h.setDomState (domFields_sub d) 4).mark (by simp [judgeFields])).put (by simp [judgeFields]) _
  have hw' : s.Judged (judgeFields d) w' :=
    State.Judged.setDomain (hw.put (g := R.TIME_DOM_STAT_PASS (d - 1)) (by simp [judgeFields, domFields]) 0)
      (by rw [State.domain_setF]; rfl)
  clear_value w'
  have hz : s.Judged (judgeFields d) z := hw'.setRef (refFields_sub d) 0
  clear_value z
  have hheld : s.Judged (judgeFields d) { z with tm := { z.tm with holds := true } } := hz.withTm rfl rfl
  have hw'' : s.Judged (judgeFields d) w'' := State.Judged.ite (fun _ => hw') fun _ =>
    State.Judged.ite (fun _ => hw'.setRef (refFields_sub d) _) fun _ => hheld.mark (by simp [judgeFields])
  exact hw''.rejudge

theorem State.Judged.deviate (h : s.Judged (judgeFields d) t) : s.Judged (judgeFields d) (t.deviate d) := by
  unfold State.deviate
  exact State.Judged.ite (fun _ => State.Judged.ite (fun _ => h.freeze) fun _ => h.setDomain rfl) fun _ => h

theorem State.Judged.tally (h : s.Judged (judgeFields d) t) (off : Int) : s.Judged (judgeFields d) (t.tally d off) := by
  have hp : R.TIME_DOM_STAT_PASS (d - 1) ∈ judgeFields d := by simp [judgeFields, domFields]
  unfold State.tally
  exact State.Judged.ite (fun _ => h.put hp _) fun _ => h.put hp 0

theorem State.Judged.countPass (h : s.Judged (judgeFields d) t) (off : Int) : s.Judged (judgeFields d) (t.countPass d off) := by
  unfold State.countPass
  exact State.Judged.ite (fun _ => (h.tally off).enterLocked) fun _ => h.tally off

/-- What follows once a measured offset is taken down. -/
theorem State.measure_judged (s : State) (d : Nat) (off : Int) : (s.setOffset d off).Judged (judgeFields d) (s.measure d off) := by
  unfold State.measure
  extract_lets w pred w' v bad base w'' z ref
  have h : w.Judged (judgeFields d) w' := (State.Judged.refl _ w).useFree
  refine State.Judged.ite (fun _ => ?_) fun _ => State.Judged.ite (fun _ => ?_) fun _ => State.Judged.ite (fun _ => ?_) fun _ => h
  · have hb : w.Judged (judgeFields d) (w'.setDomain d { v with base := some base }) := h.setDomain rfl
    exact hb.countPass _
  · have ht : w.Judged (judgeFields d) w'' := h.tally _
    refine State.Judged.ite (fun _ => ht.deviate) fun _ => ?_
    have hd : w.Judged (judgeFields d) z := ht.setDomain (ht.samples d).symm
    exact State.Judged.ite (fun _ => hd.correct (servoFields_sub d) _) fun _ => hd
  · clear_value ref
    cases ref with
    | none => exact h
    | some r => exact h.countPass _

/-- What a judged domain's samples say of it. -/
theorem State.Judged.domain {l : List Field} (h : s.Judged l t) (d : Nat) :
    (t.domain d).offset = (s.domain d).offset ∧ (t.domain d).rawMs = (s.domain d).rawMs ∧
    (t.domain d).syncAt = (s.domain d).syncAt ∧ (t.domain d).reqAt = (s.domain d).reqAt ∧
    (t.domain d).interval = (s.domain d).interval := by
  have h := h.samples d
  simp only [Domain.samples, Prod.mk.injEq] at h
  obtain ⟨ho, hr, hs, hq, hi, -⟩ := h
  exact ⟨ho, hr, hs, hq, hi⟩

end
end Sys2Proof.Machine

namespace Sys2Proof.Machine
open Sys2Proof

/-! ### Offsets and delays (R128, R129) -/

section
variable {s t w : State} {d : Fin 2} {x y z : Int}

/-- A field of a domain's registers that no judgement writes keeps its value. -/
theorem State.Judged.getF (h : s.Judged (judgeFields (d.val + 1)) t) (hi : s.Inv) {f : Field} (hf : f.ok = true)
    (ha : ∀ g ∈ judgeFields (d.val + 1), g.apart f = true) : t.getF f = s.getF f :=
  h.spares.getF f hf ha List.not_mem_nil hi

theorem State.putQ_inv (hi : s.Inv) (f : Field) (q : Int) : (s.putQ f q).Inv := by
  unfold State.putQ
  split
  · exact State.inv_setF hi f _
  · exact State.inv_setF (s := s.useFree) hi f _

theorem State.getF_putQ_same {f : Field} (hf : f.ok = true) (hw : f.width = 32) {q : Int}
    (hq : -2147483648 < q ∧ q < 2147483648) : (s.putQ f q).getF f = unsigned 32 q := by
  rw [State.putQ, if_pos hq, State.getF_setF_same _ _ _ hf, hw]
  exact Nat.mod_eq_of_lt (unsigned_lt 32 q)

theorem State.getF_putQ_ne (s : State) {f g : Field} (q : Int) (hf : f.lo + f.width ≤ 32) (hg : g.ok = true)
    (ha : f.apart g = true) : (s.putQ f q).getF g = s.getF g := by
  unfold State.putQ
  split
  · exact State.getF_setF_ne s f g _ hf hg ha
  · exact State.getF_setF_ne s.useFree f g _ hf hg ha

theorem State.domain_putQ (s : State) (f : Field) (q : Int) (k : Nat) : (s.putQ f q).domain k = s.domain k := by
  obtain ⟨r, n, h⟩ := s.putQ_eq f q
  rw [h]
  rfl

theorem shownFields_ok (d : Fin 2) : (R.TIME_DOM_OFFSET_V d).ok = true ∧ (R.TIME_DOM_DELAY_V d).ok = true ∧
    (R.TIME_DOM_STAT_TWO_STEP d).ok = true ∧ (R.TIME_DOM_STAT_STATE d).ok = true ∧ (R.TIME_DOM_ASYM_ASYM d).ok = true := by
  revert d
  decide

/-- The shown offset, and the bit that says how its Sync came, are no field of a judgement. -/
theorem shownFields_apart_judged (d : Fin 2) : ∀ g ∈ judgeFields (d.val + 1),
    g.apart (R.TIME_DOM_OFFSET_V d) = true ∧ g.apart (R.TIME_DOM_STAT_TWO_STEP d) = true := by
  revert d
  decide

/-- A measured offset is kept whole, shown where the register holds it, and of what was measured before nothing else is lost. -/
theorem State.measure_spec (hi : s.Inv) (d : Fin 2) (y : Int) : (s.measure (d.val + 1) y).domOffset (d.val + 1) = some y ∧
    (-2147483648 < y ∧ y < 2147483648 → (s.measure (d.val + 1) y).getF (R.TIME_DOM_OFFSET_V d) = unsigned 32 y) ∧
    (s.measure (d.val + 1) y).isSet (R.TIME_DOM_STAT_TWO_STEP d) = s.isSet (R.TIME_DOM_STAT_TWO_STEP d) ∧
    ((s.measure (d.val + 1) y).domain (d.val + 1)).syncAt = (s.domain (d.val + 1)).syncAt ∧
    ((s.measure (d.val + 1) y).domain (d.val + 1)).rawMs = (s.domain (d.val + 1)).rawMs := by
  have hapart : (R.TIME_DOM_OFFSET_V d).apart (R.TIME_DOM_STAT_TWO_STEP d) = true := by
    revert d
    decide
  obtain ⟨hoff, -, htwo, -⟩ := shownFields_ok d
  have h := s.measure_judged (d.val + 1) y
  have hdom : (s.setOffset (d.val + 1) y).domain (d.val + 1) = { s.domain (d.val + 1) with offset := some y } := by
    rw [State.setOffset, State.domain_putQ, State.domain_setDomain_same]
  have hinv : (s.setOffset (d.val + 1) y).Inv := State.putQ_inv (State.setDomain_inv hi _ _) _ _
  obtain ⟨ho, hr, hs, -⟩ := h.domain (d.val + 1)
  rw [hdom] at ho hr hs
  refine ⟨ho, fun hy => ?_, ?_, hs, hr⟩
  · rw [h.getF hinv hoff fun g hg => (shownFields_apart_judged d g hg).1]
    exact State.getF_putQ_same hoff rfl hy
  · rw [State.isSet, h.getF hinv htwo fun g hg => (shownFields_apart_judged d g hg).2, State.setOffset,
      Nat.add_sub_cancel, State.getF_putQ_ne _ _ (Field.ok_fits hoff) htwo hapart, State.getF_setDomain, State.isSet]

theorem State.domDelay_setDomain (s : State) (d k : Nat) (v : Domain) : (s.setDomain k v).domDelay d = s.domDelay d := by
  simp only [State.domDelay, State.getF_setDomain]

/-- A Sync's measurement gives the offset: arrival less origin less delay less asymmetry (R129). -/
theorem State.syncMeasure_spec (hi : s.Inv) (d : Fin 2)
    (hy : y = z - x - ((s.domDelay (d.val + 1)).getD 0) - signed 32 (s.getF (R.TIME_DOM_ASYM_ASYM d))) :
    (s.syncMeasure (d.val + 1) x z).domOffset (d.val + 1) = some y ∧
    (-2147483648 < y ∧ y < 2147483648 → (s.syncMeasure (d.val + 1) x z).getF (R.TIME_DOM_OFFSET_V d) = unsigned 32 y) ∧
    (s.syncMeasure (d.val + 1) x z).isSet (R.TIME_DOM_STAT_TWO_STEP d) = s.isSet (R.TIME_DOM_STAT_TWO_STEP d) ∧
    ((s.syncMeasure (d.val + 1) x z).domain (d.val + 1)).syncAt = none ∧
    ((s.syncMeasure (d.val + 1) x z).domain (d.val + 1)).rawMs = some (z - x) := by
  have he : s.syncMeasure (d.val + 1) x z =
      (s.setDomain (d.val + 1) { s.domain (d.val + 1) with rawMs := some (z - x), syncAt := none }).measure (d.val + 1) y := by
    have hdelay : (match s.domDelay (d.val + 1) with | some q => q | none => 0) = (s.domDelay (d.val + 1)).getD 0 := by
      cases s.domDelay (d.val + 1) <;> rfl
    rw [hy, ← hdelay]
    unfold State.syncMeasure
    simp only [State.getF_setDomain, State.domDelay_setDomain, Nat.add_sub_cancel] <;> rfl
  obtain ⟨ho, hv, htwo, hs, hr⟩ := State.measure_spec
    (State.setDomain_inv hi (d.val + 1) { s.domain (d.val + 1) with rawMs := some (z - x), syncAt := none }) d y
  rw [he]
  refine ⟨ho, hv, htwo.trans ?_, hs.trans ?_, hr.trans ?_⟩
  · rw [State.isSet, State.getF_setDomain, State.isSet]
  · rw [State.domain_setDomain_same]
  · rw [State.domain_setDomain_same]

/-- A mean path delay changes nothing that was measured of a domain's messages. -/
theorem State.samples_measureDelay (s : State) (d : Nat) (raw : Int) (k : Nat) :
    ((s.measureDelay d raw).domain k).samples = (s.domain k).samples := by
  unfold State.measureDelay
  split
  · rw [State.domain_putQ]
  · split
    · exact (State.Judged.refl (judgeFields d) s).deviate.samples k
    · exact State.samples_setDomain (v := { s.domain d with deviates := 0 }) rfl k

/-- The first mean path delay is taken as it is (R129). -/
theorem State.getF_measureDelay_first (d : Fin 2) (h : s.domDelay (d.val + 1) = none) (hx : -2147483648 < x ∧ x < 2147483648) :
    (s.measureDelay (d.val + 1) x).getF (R.TIME_DOM_DELAY_V d) = unsigned 32 x := by
  unfold State.measureDelay
  rw [h]
  exact State.getF_putQ_same (shownFields_ok d).2.1 rfl hx

/-- A request's response: it is open no more, and a first delay is shown. -/
theorem State.measureDelay_answered (d : Fin 2) (v : Domain) (hv : v.reqAt = none) :
    let t := (s.setDomain (d.val + 1) v).measureDelay (d.val + 1) x
    (s.domDelay (d.val + 1) = none ∧ -2147483648 < x ∧ x < 2147483648 → t.getF (R.TIME_DOM_DELAY_V d) = unsigned 32 x) ∧
    (t.domain (d.val + 1)).reqAt = none ∧ (t.domain (d.val + 1)).interval = v.interval := by
  have hs := (s.setDomain (d.val + 1) v).samples_measureDelay (d.val + 1) x (d.val + 1)
  rw [State.domain_setDomain_same] at hs
  simp only [Domain.samples, Prod.mk.injEq] at hs
  obtain ⟨-, -, -, hreq, hint, -⟩ := hs
  exact ⟨fun ⟨hn, hx⟩ => State.getF_measureDelay_first d ((State.domDelay_setDomain _ _ _ _).trans hn) hx, hreq.trans hv, hint⟩

end

/-! ### Sync, Follow_Up and the responses (R128, R129) -/

section
variable {s : State} {d p : Fin 2} {v : PtpVia} {x y z : Int} {u : Nat} {b : Bool}

theorem State.getF_setB_ne (s : State) {f g : Field} (b : Bool) (hf : f.ok = true) (hg : g.ok = true) (ha : f.apart g = true) :
    (s.setB f b).getF g = s.getF g := State.getF_setF_ne s f g _ (Field.ok_fits hf) hg ha

theorem latFields_ok (p : Fin 2) : (R.TIME_LAT_UPL0_RX_ADJ.off (portLat p)).ok = true := by revert p; decide

theorem State.rxStamp_congr {t : State} (ht : t.tm = s.tm) (hr : t.getF R.TIME_RATE_RATE = s.getF R.TIME_RATE_RATE)
    (hl : t.getF (R.TIME_LAT_UPL0_RX_ADJ.off (portLat p)) = s.getF (R.TIME_LAT_UPL0_RX_ADJ.off (portLat p))) (u : Nat) :
    t.rxStamp p u = s.rxStamp p u := by
  simp only [State.rxStamp, State.devQ, State.dev32, State.rate, ht, hr, hl]

/-- The bit that says how a Sync came is no other field of its domain, and none of time stamps. -/
theorem twoStep_apart (d : Fin 2) : (R.TIME_DOM_STAT_TWO_STEP d).apart R.TIME_RATE_RATE = true ∧
    (∀ p : Fin 2, (R.TIME_DOM_STAT_TWO_STEP d).apart (R.TIME_LAT_UPL0_RX_ADJ.off (portLat p)) = true) ∧
    (R.TIME_DOM_STAT_TWO_STEP d).apart (R.TIME_DOM_STAT_STATE d) = true ∧
    (R.TIME_DOM_STAT_TWO_STEP d).apart (R.TIME_DOM_DELAY_V d) = true ∧
    (R.TIME_DOM_STAT_TWO_STEP d).apart (R.TIME_DOM_ASYM_ASYM d) = true := by
  revert d
  decide

/-- How a Sync came is no part of its arrival stamp. -/
theorem State.rxStamp_setTwoStep (s : State) (d p : Fin 2) (b : Bool) (u : Nat) :
    (s.setB (R.TIME_DOM_STAT_TWO_STEP d) b).rxStamp p u = s.rxStamp p u := by
  obtain ⟨-, -, htwo, -⟩ := shownFields_ok d
  obtain ⟨hrate, hlat, -⟩ := twoStep_apart d
  exact State.rxStamp_congr (State.setF_tm ..) (State.getF_setB_ne s b htwo (by decide) hrate)
    (State.getF_setB_ne s b htwo (latFields_ok p) (hlat p)) u

theorem execPtpSyncRx_twoStep (h : s.ptpTakes (d.val + 1) p v = true) : execPtpSyncRx d p v true x u s =
    .next (((s.advance u).setB (R.TIME_DOM_STAT_TWO_STEP d) true).setDomain (d.val + 1)
      { ((s.advance u).setB (R.TIME_DOM_STAT_TWO_STEP d) true).domain (d.val + 1) with
        syncAt := some ((s.advance u).rxStamp p u) }) := by
  have h' : (s.advance u).ptpTakes (d.val + 1) p v = true := h
  unfold execPtpSyncRx
  simp only [h', Bool.not_true, Bool.false_eq_true, if_false, if_true, State.rxStamp_setTwoStep]

theorem execPtpSyncRx_oneStep (h : s.ptpTakes (d.val + 1) p v = true) : execPtpSyncRx d p v false x u s =
    .next (((s.advance u).setB (R.TIME_DOM_STAT_TWO_STEP d) false).syncMeasure (d.val + 1) x ((s.advance u).rxStamp p u)) := by
  have h' : (s.advance u).ptpTakes (d.val + 1) p v = true := h
  unfold execPtpSyncRx
  simp only [h', Bool.not_true, Bool.false_eq_true, if_false, State.rxStamp_setTwoStep]

theorem ptpSyncRx_waits (h : s.ptpTakes (d.val + 1) p v = true) (x : Int) : Completes (.ptpSyncRx d p v true x u) s fun t =>
    (t.domain (d.val + 1)).syncAt = some ((s.advance u).rxStamp p u) ∧ t.isSet (R.TIME_DOM_STAT_TWO_STEP d) = true ∧
    t.domState (d.val + 1) = s.domState (d.val + 1) := by
  obtain ⟨-, -, htwo, hst, -⟩ := shownFields_ok d
  obtain ⟨-, -, hapart, -⟩ := twoStep_apart d
  refine ⟨_, execPtpSyncRx_twoStep h, ?_, ?_, ?_⟩
  · rw [State.domain_setDomain_same]
  · rw [State.isSet, State.getF_setDomain]
    exact State.isSet_setB_same (s.advance u) true htwo rfl
  · rw [State.domState, State.getF_setDomain]
    exact State.getF_setB_ne (s.advance u) true htwo hst hapart

theorem ptpSyncRx_measures (hi : s.Inv) (h : s.ptpTakes (d.val + 1) p v = true)
    (hy : y = (s.advance u).rxStamp p u - x - ((s.domDelay (d.val + 1)).getD 0) - signed 32 (s.getF (R.TIME_DOM_ASYM_ASYM d))) :
    Completes (.ptpSyncRx d p v false x u) s fun t => t.domOffset (d.val + 1) = some y ∧
      (-2147483648 < y ∧ y < 2147483648 → t.getF (R.TIME_DOM_OFFSET_V d) = unsigned 32 y) ∧
      t.isSet (R.TIME_DOM_STAT_TWO_STEP d) = false ∧ t.mem = s.mem := by
  obtain ⟨-, hdel, htwo, -, hasym⟩ := shownFields_ok d
  obtain ⟨-, -, -, hdel', hasym'⟩ := twoStep_apart d
  have hi' : ((s.advance u).setB (R.TIME_DOM_STAT_TWO_STEP d) false).Inv := State.inv_setF (s := s.advance u) hi _ _
  have hdelay : ((s.advance u).setB (R.TIME_DOM_STAT_TWO_STEP d) false).domDelay (d.val + 1) = s.domDelay (d.val + 1) := by
    simp only [State.domDelay, Nat.add_sub_cancel, State.getF_setB_ne (s.advance u) false htwo hdel hdel', State.getF_advance]
  have hy' : y = (s.advance u).rxStamp p u - x -
      ((((s.advance u).setB (R.TIME_DOM_STAT_TWO_STEP d) false).domDelay (d.val + 1)).getD 0) -
      signed 32 (((s.advance u).setB (R.TIME_DOM_STAT_TWO_STEP d) false).getF (R.TIME_DOM_ASYM_ASYM d)) := by
    rw [hdelay, State.getF_setB_ne (s.advance u) false htwo hasym hasym', State.getF_advance]
    exact hy
  have hnext := execPtpSyncRx_oneStep (x := x) (u := u) h
  have hmem : ((s.advance u).setB (R.TIME_DOM_STAT_TWO_STEP d) false).mem = s.mem := State.setF_mem ..
  have htwoStep : ((s.advance u).setB (R.TIME_DOM_STAT_TWO_STEP d) false).isSet (R.TIME_DOM_STAT_TWO_STEP d) = false :=
    State.isSet_setB_same _ false htwo rfl
  revert hi' hy' hnext hmem htwoStep
  generalize (s.advance u).setB (R.TIME_DOM_STAT_TWO_STEP d) false = w
  generalize (s.advance u).rxStamp p u = z
  intro hi' hy' hnext hmem htwoStep
  obtain ⟨ho, hv, ht, -⟩ := State.syncMeasure_spec hi' d hy'
  refine ⟨_, hnext, ho, hv, ht.trans htwoStep, ?_⟩
  exact ((State.syncMeasure_within (.refl _ w) (List.Subset.refl _) (d.val + 1) x z).same .mem (by decide)).trans hmem

theorem ptpSyncRx_ignored (h : s.ptpTakes (d.val + 1) p v = false) : Completes (.ptpSyncRx d p v b x u) s fun t => t = s.advance u := by
  have h' : (s.advance u).ptpTakes (d.val + 1) p v = false := h
  exact ⟨_, if_pos (by rw [h']; rfl), rfl⟩

theorem ptpFollowUpRx_measures (hi : s.Inv) (h : s.ptpTakes (d.val + 1) p v = true) (hz : (s.domain (d.val + 1)).syncAt = some z)
    (hy : y = z - x - ((s.domDelay (d.val + 1)).getD 0) - signed 32 (s.getF (R.TIME_DOM_ASYM_ASYM d))) :
    Completes (.ptpFollowUpRx d p v x) s fun t => t.domOffset (d.val + 1) = some y ∧
      (-2147483648 < y ∧ y < 2147483648 → t.getF (R.TIME_DOM_OFFSET_V d) = unsigned 32 y) ∧
      (s.domState (d.val + 1) = 2 → (t.domain (d.val + 1)).syncAt = none ∧ (t.domain (d.val + 1)).rawMs = some (z - x)) := by
  have hnext : execPtpFollowUpRx d p v x s = .next (s.syncMeasure (d.val + 1) x z) := by
    unfold execPtpFollowUpRx
    simp only [hz, h, if_true]
  obtain ⟨ho, hv, -, hs, hr⟩ := State.syncMeasure_spec hi d hy
  exact ⟨_, hnext, ho, hv, fun _ => ⟨hs, hr⟩⟩

theorem ptpFollowUpRx_ignored (h : s.ptpTakes (d.val + 1) p v = false ∨ (s.domain (d.val + 1)).syncAt = none) :
    Completes (.ptpFollowUpRx d p v x) s fun t => t = s := by
  refine ⟨s, ?_, rfl⟩
  change execPtpFollowUpRx d p v x s = .next s
  unfold execPtpFollowUpRx
  cases hz : (s.domain (d.val + 1)).syncAt with
  | none => simp only [hz]
  | some z => simp only [hz, h.resolve_right (by rw [hz]; exact Option.some_ne_none z), Bool.false_eq_true, if_false]

theorem ptpDelayRespRx_measures (h : s.ptpTakes (d.val + 1) p v = true) (hd : s.isSet (R.TIME_DOM_STAT_DELAY d) = false)
    (hy : (s.domain (d.val + 1)).rawMs = some y) (hz : (s.domain (d.val + 1)).reqAt = some z) (i : Fin 256) :
    Completes (.ptpDelayRespRx d p v x i) s fun t =>
      (s.domDelay (d.val + 1) = none ∧ -2147483648 < (y + (x - z)) / 2 ∧ (y + (x - z)) / 2 < 2147483648 →
        t.getF (R.TIME_DOM_DELAY_V d) = unsigned 32 ((y + (x - z)) / 2)) ∧
      (t.domain (d.val + 1)).reqAt = none ∧ (t.domain (d.val + 1)).interval = some (signed 8 i) ∧ t.mem = s.mem := by
  have hnext : execPtpDelayRespRx d p v x i s = .next ((s.setDomain (d.val + 1)
      { s.domain (d.val + 1) with reqAt := none, interval := some (signed 8 i) }).measureDelay (d.val + 1) ((y + (x - z)) / 2)) := by
    unfold execPtpDelayRespRx
    simp only [hy, hz, h, hd, Bool.not_false, Bool.and_self, if_true]
  obtain ⟨hdel, hreq, hint⟩ := State.measureDelay_answered (s := s) (x := (y + (x - z)) / 2) d
    { s.domain (d.val + 1) with reqAt := none, interval := some (signed 8 i) } rfl
  refine ⟨_, hnext, hdel, hreq, hint, ?_⟩
  exact (State.measureDelay_within (State.setDomain_within (.refl [.block 6, .freeIx, .notes, .tm] s) (by decide) _ _)
    (List.Subset.refl _) _ _).same .mem (by decide)

theorem ptpPdelayRespRx_measures (h : s.ptpTakes (d.val + 1) p v = true) (hd : s.isSet (R.TIME_DOM_STAT_DELAY d) = true)
    (hz : (s.domain (d.val + 1)).reqAt = some z) : Completes (.ptpPdelayRespRx d p v x u) s fun t =>
      (s.domDelay (d.val + 1) = none ∧ -2147483648 < ((s.advance u).rxStamp p u - z - x) / 2 ∧
          ((s.advance u).rxStamp p u - z - x) / 2 < 2147483648 →
        t.getF (R.TIME_DOM_DELAY_V d) = unsigned 32 (((s.advance u).rxStamp p u - z - x) / 2)) ∧
      (t.domain (d.val + 1)).reqAt = none ∧ t.mtb = max s.mtb u := by
  have h' : (s.advance u).ptpTakes (d.val + 1) p v = true := h
  have hz' : ((s.advance u).domain (d.val + 1)).reqAt = some z := hz
  have hnext : execPtpPdelayRespRx d p v x u s = .next (((s.advance u).setDomain (d.val + 1)
      { s.domain (d.val + 1) with reqAt := none }).measureDelay (d.val + 1) (((s.advance u).rxStamp p u - z - x) / 2)) := by
    unfold execPtpPdelayRespRx
    simp only [hz', h', State.isSet_advance, hd, Bool.and_self, if_true]
    rfl
  obtain ⟨hdel, hreq, -⟩ := State.measureDelay_answered (s := s.advance u) (x := ((s.advance u).rxStamp p u - z - x) / 2) d
    { s.domain (d.val + 1) with reqAt := none } rfl
  refine ⟨_, hnext, hdel, hreq, ?_⟩
  exact (State.measureDelay_within (State.setDomain_within (.refl [.block 6, .freeIx, .notes, .tm] (s.advance u)) (by decide) _ _)
    (List.Subset.refl _) _ _).same .mtb (by decide)

end
end Sys2Proof.Machine

namespace Sys2Proof.Machine
open Sys2Proof

/-! ### Announce, and a domain's loss (R129) -/

/-- What follows when domain `d` has or loses a time transmitter: where it was the reference another is chosen, and frozen domains are
judged anew. -/
def State.followed (s : State) (d : Nat) : State := (if s.getF R.TIME_STATE_SEL = d then s.reselect else s).rejudge

/-- What a domain shows of the time transmitter it has. -/
def State.announced (s : State) (d p : Fin 2) (v : PtpVia) (g : BitVec 64) : State :=
  (((s.setF (R.TIME_DOM_GM_LO_GM d) (idLo g.toNat)).setF (R.TIME_DOM_GM_HI_GM d) (idHi g.toNat)).setF (R.TIME_DOM_STAT_PORT d) p).setB
    (R.TIME_DOM_STAT_TRANSPORT d) (v == .udp6)

/-- A domain that starts to acquire. -/
def State.acquiring (s : State) (d : Nat) : State := ((s.setDomState d 2).domAnew d).followed d

/-- A domain that has lost its time transmitter shows so and counts it. -/
def State.lossShown (s : State) (d : Nat) : State :=
  ((s.setDomState d 1).raise R.TIME_EVENT_DOM_LOST).bump (R.TIME_DOM_COUNT_LOSSES (d - 1))
def State.lostDomain (s : State) (d : Nat) : State := ((s.lossShown d).domAnew d).followed d

section
variable {s t : State} {d p : Fin 2} {v : PtpVia} {g : BitVec 64} {u : Nat}

theorem leNat_lt (l : List Byte) : leNat l < 256 ^ l.length := by
  induction l with
  | nil => decide
  | cons b l ih =>
    have hb : b.toNat < 256 := b.isLt
    simp only [leNat, List.length_cons, Nat.pow_succ]
    omega

theorem leBytes_length (n v : Nat) : (leBytes n v).length = n := by
  induction n generalizing v with
  | zero => rfl
  | succ n ih => simp [leBytes, ih]

theorem leNat_beBytes_lt (v : Nat) : leNat (beBytes 4 v) < 2 ^ 32 := by
  have h := leNat_lt (beBytes 4 v)
  rw [beBytes, List.length_reverse, leBytes_length] at h
  exact h

/-- The choice of the reference leaves every field but its own. -/
theorem State.followed_spares (s : State) (d : Nat) : s.Spares refFields [] (s.followed d) := by
  unfold State.followed
  refine (State.Judged.rejudge (State.Judged.ite (fun _ => ?_) fun _ => .refl _ s)).spares
  exact (State.Judged.refl refFields s).setRef (List.Subset.refl _) _

theorem announceFields_ok (d : Fin 2) : (R.TIME_DOM_GM_LO_GM d).ok = true ∧ (R.TIME_DOM_GM_HI_GM d).ok = true ∧
    (R.TIME_DOM_STAT_PORT d).ok = true ∧ (R.TIME_DOM_STAT_TRANSPORT d).ok = true := by
  revert d
  decide

theorem State.getF_announced (s : State) (d p : Fin 2) (v : PtpVia) (g : BitVec 64) :
    (s.announced d p v g).getF (R.TIME_DOM_GM_LO_GM d) = idLo g.toNat ∧
    (s.announced d p v g).getF (R.TIME_DOM_GM_HI_GM d) = idHi g.toNat ∧
    (s.announced d p v g).getF (R.TIME_DOM_STAT_PORT d) = p ∧
    (s.announced d p v g).isSet (R.TIME_DOM_STAT_TRANSPORT d) = (v == .udp6) := by
  obtain ⟨hlo, hhi, hp, ht⟩ := announceFields_ok d
  have ha : (R.TIME_DOM_STAT_TRANSPORT d).apart (R.TIME_DOM_GM_LO_GM d) = true ∧
      (R.TIME_DOM_STAT_TRANSPORT d).apart (R.TIME_DOM_GM_HI_GM d) = true ∧
      (R.TIME_DOM_STAT_TRANSPORT d).apart (R.TIME_DOM_STAT_PORT d) = true ∧
      (R.TIME_DOM_STAT_PORT d).apart (R.TIME_DOM_GM_LO_GM d) = true ∧
      (R.TIME_DOM_STAT_PORT d).apart (R.TIME_DOM_GM_HI_GM d) = true ∧
      (R.TIME_DOM_GM_HI_GM d).apart (R.TIME_DOM_GM_LO_GM d) = true := by
    revert d
    decide
  obtain ⟨htl, hth, htp, hpl, hph, hhl⟩ := ha
  unfold State.announced
  refine ⟨?_, ?_, ?_, State.isSet_setB_same _ _ ht rfl⟩
  · rw [State.getF_setB_ne _ _ ht hlo htl, State.getF_setF_ne _ _ _ _ (Field.ok_fits hp) hlo hpl,
      State.getF_setF_ne _ _ _ _ (Field.ok_fits hhi) hlo hhl, State.getF_setF_same _ _ _ hlo]
    exact Nat.mod_eq_of_lt (leNat_beBytes_lt _)
  · rw [State.getF_setB_ne _ _ ht hhi hth, State.getF_setF_ne _ _ _ _ (Field.ok_fits hp) hhi hph, State.getF_setF_same _ _ _ hhi]
    exact Nat.mod_eq_of_lt (leNat_beBytes_lt _)
  · rw [State.getF_setB_ne _ _ ht hp htp, State.getF_setF_same _ _ _ hp]
    exact Nat.mod_eq_of_lt p.isLt

/-- The fields of a domain's start. -/
def startFields (d : Nat) : List Field := domFields d ++ refFields

theorem State.setDomState_spares (s : State) (d st : Nat) : s.Spares (startFields d) [] (s.setDomState d st) :=
  ((State.Judged.refl _ s).setDomState (fun g hg => by simp [startFields, hg]) st).spares

theorem State.domAnew_spares (s : State) (d : Nat) : s.Spares (startFields d) [] (s.domAnew d) := by
  unfold State.domAnew
  exact ((State.Spares.refl _ _ s).setF (g := R.TIME_DOM_STAT_PASS (d - 1)) (by simp [startFields, domFields])
    (by simp [R.TIME_DOM_STAT_PASS]) 0).within (State.setDomain_within (.refl _ _) (List.Subset.refl _) _ _) (by decide)

theorem State.acquiring_spares (s : State) (d : Nat) : s.Spares (startFields d) [] (s.acquiring d) :=
  ((s.setDomState_spares d 2).trans (State.domAnew_spares _ d)).trans
    ((State.followed_spares _ d).mono (by simp [startFields]) (List.Subset.refl _))

theorem statFields_ok (d : Fin 2) : (R.TIME_DOM_STAT_STATE d).ok = true ∧ (R.TIME_DOM_STAT_PASS d).ok = true := by
  revert d
  decide

theorem statFields_apart (d : Fin 2) : (∀ g ∈ refFields ++ servoFields, g.apart (R.TIME_DOM_STAT_STATE d) = true) ∧
    (∀ g ∈ refFields, g.apart (R.TIME_DOM_STAT_PASS d) = true) ∧
    (R.TIME_DOM_STAT_PASS d).apart (R.TIME_DOM_STAT_STATE d) = true ∧
    R.TIME_EVENT_LOCKED.apart (R.TIME_DOM_STAT_STATE d) = true := by
  revert d
  decide

/-- A domain's state that was set, and PASS at 0, once what follows is done. -/
theorem State.followed_anew (hi : s.Inv) {st : Nat} (hs : s.domState (d.val + 1) = st) :
    ((s.domAnew (d.val + 1)).followed (d.val + 1)).domState (d.val + 1) = st ∧
    ((s.domAnew (d.val + 1)).followed (d.val + 1)).getF (R.TIME_DOM_STAT_PASS d) = 0 := by
  obtain ⟨hst, hp⟩ := statFields_ok d
  obtain ⟨hrs, hrp, hps, -⟩ := statFields_apart d
  have hf := (s.domAnew (d.val + 1)).followed_spares (d.val + 1)
  have hinv : (s.domAnew (d.val + 1)).Inv := (s.domAnew_spares (d.val + 1)).inv hi
  constructor
  · rw [← hs]
    refine (hf.getF _ hst (fun g hg => hrs g (List.mem_append_left _ hg)) List.not_mem_nil hinv).trans
      ((State.getF_setDomain _ _ _ _).trans ?_)
    exact State.getF_setF_ne s _ _ _ (Field.ok_fits hp) hst hps
  · refine (hf.getF _ hp hrp List.not_mem_nil hinv).trans ((State.getF_setDomain _ _ _ _).trans ?_)
    exact State.getF_setF_same s _ _ hp

theorem State.domState_setDomState (s : State) (d : Fin 2) {st : Nat} (h : st < 8) :
    (s.setDomState (d.val + 1) st).domState (d.val + 1) = st := by
  have hok : (R.TIME_DOM_STAT_STATE d).ok = true := (statFields_ok d).1
  unfold State.setDomState State.domState
  refine (State.getF_setF_ne _ _ _ _ ?_ hok ?_).trans ((State.getF_setF_same _ _ _ hok).trans (Nat.mod_eq_of_lt h))
  · split <;> decide
  · revert d
    decide

theorem execPtpAnnounceRx_taken (hd : s.domState (d.val + 1) ≠ 0) (h : s.ptpHears (d.val + 1) p v = true) :
    execPtpAnnounceRx d p v g true u s = .next (
      if s.domState (d.val + 1) = 1 ∨ s.getF (R.TIME_DOM_GM_LO_GM d) ≠ idLo g.toNat ∨ s.getF (R.TIME_DOM_GM_HI_GM d) ≠ idHi g.toNat
      then ((s.advance u).announced d p v g).acquiring (d.val + 1)
      else if s.getF (R.TIME_DOM_STAT_PORT d) ≠ p then ((s.advance u).announced d p v g).setDomain (d.val + 1)
        { ((s.advance u).announced d p v g).domain (d.val + 1) with rawMs := none, syncAt := none, reqAt := none }
      else (s.advance u).announced d p v g) := by
  have hhears : (s.advance u).ptpHears (d.val + 1) p v = true := h
  have hstate : (s.advance u).domState (d.val + 1) = s.domState (d.val + 1) := rfl
  unfold execPtpAnnounceRx State.acquiring State.followed State.announced
  simp only [hstate, hd, hhears, decide_false, Bool.not_true, Bool.or_self, Bool.false_eq_true, if_false, Bool.or_eq_true,
    decide_eq_true_eq, Bool.not_eq_true', Bool.and_eq_false_iff, decide_eq_false_iff_not, ne_eq]
  simp only [State.getF_advance]
  by_cases hnew : s.domState (d.val + 1) = 1 ∨ ¬ s.getF (R.TIME_DOM_GM_LO_GM d) = idLo g.toNat ∨
      ¬ s.getF (R.TIME_DOM_GM_HI_GM d) = idHi g.toNat
  · simp only [eq_true hnew, if_true]
  · simp only [eq_false hnew, if_false]
    by_cases hsame : s.getF (R.TIME_DOM_STAT_PORT d) = p
    · simp only [hsame, not_true, if_false]
    · simp only [hsame, not_false_eq_true, if_true]

theorem startFields_apart (d : Fin 2) : ∀ f ∈ startFields (d.val + 1), f.apart (R.TIME_DOM_GM_LO_GM d) = true ∧
    f.apart (R.TIME_DOM_GM_HI_GM d) = true ∧ f.apart (R.TIME_DOM_STAT_PORT d) = true ∧
    f.apart (R.TIME_DOM_STAT_TRANSPORT d) = true := by
  revert d
  decide

/-- Whatever an Announce of the chosen sender leads to, the domain shows that sender. -/
theorem State.announced_shown (hi : s.Inv) (h : (s.announced d p v g).Spares (startFields (d.val + 1)) [] t) :
    t.getF (R.TIME_DOM_GM_LO_GM d) = idLo g.toNat ∧ t.getF (R.TIME_DOM_GM_HI_GM d) = idHi g.toNat ∧
    t.getF (R.TIME_DOM_STAT_PORT d) = p ∧ t.isSet (R.TIME_DOM_STAT_TRANSPORT d) = (v == .udp6) := by
  obtain ⟨hlo, hhi, hp, ht⟩ := announceFields_ok d
  obtain ⟨h1, h2, h3, h4⟩ := s.getF_announced d p v g
  have hinv : (s.announced d p v g).Inv := State.inv_setF (State.inv_setF (State.inv_setF (State.inv_setF hi _ _) _ _) _ _) _ _
  have ha := startFields_apart d
  refine ⟨?_, ?_, ?_, ?_⟩
  · exact (h.getF _ hlo (fun f hf => (ha f hf).1) List.not_mem_nil hinv).trans h1
  · exact (h.getF _ hhi (fun f hf => (ha f hf).2.1) List.not_mem_nil hinv).trans h2
  · exact (h.getF _ hp (fun f hf => (ha f hf).2.2.1) List.not_mem_nil hinv).trans h3
  · exact (h.isSet hinv ht (fun f hf => (ha f hf).2.2.2) List.not_mem_nil).trans h4

theorem ptpAnnounceRx_takes (hi : s.Inv) (hd : s.domState (d.val + 1) ≠ 0) (h : s.ptpHears (d.val + 1) p v = true) :
    Completes (.ptpAnnounceRx d p v g true u) s fun t =>
      t.getF (R.TIME_DOM_GM_LO_GM d) = idLo g.toNat ∧ t.getF (R.TIME_DOM_GM_HI_GM d) = idHi g.toNat ∧
      t.getF (R.TIME_DOM_STAT_PORT d) = p ∧ t.isSet (R.TIME_DOM_STAT_TRANSPORT d) = (v == .udp6) ∧
      (s.domState (d.val + 1) = 1 ∨ s.getF (R.TIME_DOM_GM_LO_GM d) ≠ idLo g.toNat ∨ s.getF (R.TIME_DOM_GM_HI_GM d) ≠ idHi g.toNat →
        t.domState (d.val + 1) = 2 ∧ t.getF (R.TIME_DOM_STAT_PASS d) = 0) ∧
      t.mtb = max s.mtb u := by
  have hinv : ((s.advance u).announced d p v g).Inv :=
    State.inv_setF (State.inv_setF (State.inv_setF (State.inv_setF (s := s.advance u) hi _ _) _ _) _ _) _ _
  refine ⟨_, execPtpAnnounceRx_taken hd h, ?_⟩
  split
  · obtain ⟨h1, h2, h3, h4⟩ := State.announced_shown (s := s.advance u) hi (State.acquiring_spares _ _)
    obtain ⟨hst, hpass⟩ := State.followed_anew (d := d) ((State.setDomState_spares _ _ 2).inv hinv)
      (State.domState_setDomState _ d (by decide))
    refine ⟨h1, h2, h3, h4, fun _ => ⟨hst, hpass⟩, ?_⟩
    have hw : State.Within [.block 6, .notes, .tm] ((s.advance u).announced d p v g)
        (((s.advance u).announced d p v g).acquiring (d.val + 1)) := by
      unfold State.acquiring State.followed
      have hs := State.domAnew_within (State.setDomState_within (.refl [.block 6, .notes, .tm] ((s.advance u).announced d p v g))
        (by decide) (d.val + 1) 2) (by decide) (d.val + 1)
      refine State.rejudge_within ?_ (by decide)
      split
      · exact State.reselect_within hs (by decide)
      · exact hs
    exact hw.same .mtb (by decide)
  · next hsame =>
    split
    · obtain ⟨h1, h2, h3, h4⟩ := State.announced_shown (s := s.advance u) hi
        ((State.setDomain_within (.refl [.tm] _) (List.Subset.refl _) (d.val + 1)
          { ((s.advance u).announced d p v g).domain (d.val + 1) with rawMs := none, syncAt := none, reqAt := none }).spares
            (l := startFields (d.val + 1)) (by decide))
      exact ⟨h1, h2, h3, h4, fun hc => absurd hc hsame,
        (State.setDomain_within (.refl [.tm] _) (List.Subset.refl _) (d.val + 1) _).same .mtb (by decide)⟩
    · obtain ⟨h1, h2, h3, h4⟩ := (s.advance u).getF_announced d p v g
      exact ⟨h1, h2, h3, h4, fun hc => absurd hc hsame, rfl⟩

theorem ptpAnnounceRx_ignored {c : Bool} (h : s.domState (d.val + 1) = 0 ∨ c = false ∨ s.ptpHears (d.val + 1) p v = false) :
    Completes (.ptpAnnounceRx d p v g c u) s fun t => t = s.advance u := by
  have hc : (decide ((s.advance u).domState (d.val + 1) = 0) || !c || !(s.advance u).ptpHears (d.val + 1) p v) = true := by
    rw [Bool.or_eq_true, Bool.or_eq_true, decide_eq_true_eq, Bool.not_eq_true', Bool.not_eq_true', or_assoc]
    exact h
  exact ⟨_, if_pos hc, rfl⟩

theorem lossFields_apart (d : Fin 2) : (R.TIME_DOM_COUNT_LOSSES d).ok = true ∧
    (R.TIME_DOM_COUNT_LOSSES d).apart R.TIME_EVENT_DOM_LOST = true ∧
    R.TIME_EVENT_DOM_LOST.apart (R.TIME_DOM_COUNT_LOSSES d) = true ∧
    (R.TIME_DOM_COUNT_LOSSES d).apart (R.TIME_DOM_STAT_STATE d) = true ∧
    R.TIME_EVENT_DOM_LOST.apart (R.TIME_DOM_STAT_STATE d) = true ∧
    ∀ f ∈ startFields (d.val + 1), f.apart R.TIME_EVENT_DOM_LOST = true ∧ f.apart (R.TIME_DOM_COUNT_LOSSES d) = true := by
  revert d
  decide

theorem announceReceiptTimeout_loses (hi : s.Inv) (hd : 2 ≤ s.domState (d.val + 1)) :
    Completes (.announceReceiptTimeout d) s fun t => t.domState (d.val + 1) = 1 ∧ t.isSet R.TIME_EVENT_DOM_LOST = true ∧
      t.getF (R.TIME_DOM_STAT_PASS d) = 0 ∧
      t.getF (R.TIME_DOM_COUNT_LOSSES d) = min (R.TIME_DOM_COUNT_LOSSES d).max (s.getF (R.TIME_DOM_COUNT_LOSSES d) + 1) := by
  have hlost : s.domLost (d.val + 1) = s.lostDomain (d.val + 1) := if_neg (Nat.not_lt.mpr hd)
  refine ⟨_, congrArg Host.Outcome.next hlost, ?_⟩
  have hce : R.TIME_EVENT_DOM_LOST.ok = true := by decide
  obtain ⟨hcl, hce', hec, hcs, hes, hstart⟩ := lossFields_apart d
  have hset := s.setDomState_spares (d.val + 1) 1
  have hraised := State.raise_within (.refl [.regs, .notes] (s.setDomState (d.val + 1) 1)) (by decide) R.TIME_EVENT_DOM_LOST
    (Or.inl (by decide))
  have hw : (s.lossShown (d.val + 1)).Inv := State.inv_setF (hraised.inv (hset.inv hi)) _ _
  have hfin : (s.lossShown (d.val + 1)).Spares (startFields (d.val + 1)) [] (s.lostDomain (d.val + 1)) :=
    ((s.lossShown _).domAnew_spares (d.val + 1)).trans ((State.followed_spares _ _).mono (by simp [startFields]) (List.Subset.refl _))
  have hstate : (s.lossShown (d.val + 1)).domState (d.val + 1) = 1 := by
    refine (State.getF_setF_ne _ _ _ _ (Field.ok_fits hcl) (statFields_ok d).1 hcs).trans ?_
    exact (State.getF_raise_ne _ _ _ (Field.ok_fits hce) (statFields_ok d).1 hes).trans (s.domState_setDomState d (by decide))
  obtain ⟨hst, hpass⟩ := State.followed_anew (d := d) hw hstate
  refine ⟨hst, ?_, hpass, ?_⟩
  · refine (hfin.isSet hw hce (fun f hf => (hstart f hf).1) List.not_mem_nil).trans ?_
    exact (congrArg (fun n => decide (n = 1)) (State.getF_setF_ne _ _ _ _ (Field.ok_fits hcl) hce hce')).trans
      (State.isSet_raise_same _ hce rfl)
  · refine (hfin.getF _ hcl (fun f hf => (hstart f hf).2) List.not_mem_nil hw).trans ((State.getF_setF_same _ _ _ hcl).trans ?_)
    rw [Nat.add_sub_cancel, State.getF_raise_ne _ _ _ (Field.ok_fits hce) hcl hec, hset.getF _ hcl (fun f hf => (hstart f hf).2) List.not_mem_nil hi]
    exact Nat.mod_eq_of_lt (Nat.lt_of_le_of_lt (Nat.min_le_left _ _) (Nat.sub_lt (Nat.two_pow_pos _) Nat.one_pos))

theorem announceReceiptTimeout_stays (hd : s.domState (d.val + 1) < 2) : Completes (.announceReceiptTimeout d) s fun t => t = s :=
  ⟨_, congrArg Host.Outcome.next (if_pos hd), rfl⟩

end

/-! ### Requests (R127, R128) -/

section
variable {s : State} {d p : Fin 2} {v : PtpVia} {u a : Nat}

theorem ptpPdelayReqRx_answers
    (h : (s.domState 1 ≠ 0 ∧ s.isSet (R.TIME_DOM_STAT_DELAY 0) = true ∧ s.ptpHears 1 p v = true) ∨
      (s.domState 2 ≠ 0 ∧ s.isSet (R.TIME_DOM_STAT_DELAY 1) = true ∧ s.ptpHears 2 p v = true)) :
    Completes (.ptpPdelayReqRx p v a u) s fun t =>
      (s.isSet R.TIME_CFG_ONE_STEP = true → t.out = .pdelayResp p true ((s.advance u).txStamp p u - (s.advance u).rxStamp p a)
        (if v == .udp6 then some (udpPad (correctionWords ((s.advance u).txStamp p u - (s.advance u).rxStamp p a))) else none) :: s.out) ∧
      (s.isSet R.TIME_CFG_ONE_STEP = false → t.out = .pdelayFollowUp p ((s.advance u).txStamp p u - (s.advance u).rxStamp p a) ::
        .pdelayResp p false 0 none :: s.out) ∧
      t.regs = s.regs ∧ t.mtb = max s.mtb u := by
  have hany : [1, 2].any (fun d => (s.advance u).domState d != 0 && (s.advance u).isSet (R.TIME_DOM_STAT_DELAY (d - 1)) &&
      (s.advance u).ptpHears d p v) = true := by
    have hdom : ∀ k, (s.advance u).domState k = s.domState k := fun _ => rfl
    have hhears : ∀ k, (s.advance u).ptpHears k p v = s.ptpHears k p v := fun _ => rfl
    simp only [List.any_cons, List.any_nil, Bool.or_false, Bool.or_eq_true, Bool.and_eq_true, bne_iff_ne, hdom, hhears,
      State.isSet_advance, and_assoc]
    exact h
  refine ⟨_, if_pos hany, ?_⟩
  dsimp only
  rw [State.isSet_advance]
  cases s.isSet R.TIME_CFG_ONE_STEP
  · exact ⟨fun h => (nomatch h), fun _ => rfl, rfl, rfl⟩
  · exact ⟨fun _ => rfl, fun h => (nomatch h), rfl, rfl⟩

/-- A request may not leave yet: the transmitter's interval has not passed since the last one (R127). -/
def State.tooEarly (s : State) (d u : Nat) : Bool :=
  match (s.domain d).sentAt with | some a => decide (max s.mtb u < a + (s.domain d).gap) | none => false

theorem execPtpDelayReqSend_eq : execPtpDelayReqSend d u s =
    if decide (s.domState (d.val + 1) < 2) || !s.uplCarries (s.getF (R.TIME_DOM_STAT_PORT d)) || s.tooEarly (d.val + 1) u
    then .next (s.advance u)
    else .next (((s.advance u).setDomain (d.val + 1) { s.domain (d.val + 1) with
        reqAt := some ((s.advance u).txStamp (s.getF (R.TIME_DOM_STAT_PORT d)) u), sentAt := some (max s.mtb u) }).emit
      (.delayReq (s.getF (R.TIME_DOM_STAT_PORT d)) (s.isSet (R.TIME_DOM_STAT_DELAY d))
        ((s.advance u).txStamp (s.getF (R.TIME_DOM_STAT_PORT d)) u)
        (if s.isSet (R.TIME_DOM_STAT_TRANSPORT d)
          then some (udpPad (stampWords ((s.advance u).txStamp (s.getF (R.TIME_DOM_STAT_PORT d)) u))) else none))) := rfl

theorem State.setDomain_rest (s : State) (k : Nat) (v : Domain) :
    (s.setDomain k v).out = s.out ∧ (s.setDomain k v).regs = s.regs := by
  obtain ⟨a, b, h⟩ := s.setDomain_eq k v
  rw [h]
  exact ⟨rfl, rfl⟩

theorem ptpDelayReqSend_sends {x : Int} (hd : 2 ≤ s.domState (d.val + 1))
    (hu : s.uplCarries (s.getF (R.TIME_DOM_STAT_PORT d)) = true)
    (ht : (s.domain (d.val + 1)).sentAt.all (fun x => decide (x + (s.domain (d.val + 1)).gap ≤ max s.mtb u)) = true)
    (hx : x = (s.advance u).txStamp (s.getF (R.TIME_DOM_STAT_PORT d)) u) : Completes (.ptpDelayReqSend d u) s fun t =>
      (t.domain (d.val + 1)).reqAt = some x ∧ (t.domain (d.val + 1)).sentAt = some (max s.mtb u) ∧
      (t.out = .delayReq (s.getF (R.TIME_DOM_STAT_PORT d)) (s.isSet (R.TIME_DOM_STAT_DELAY d)) x
        (if s.isSet (R.TIME_DOM_STAT_TRANSPORT d) then some (udpPad (stampWords x)) else none) :: s.out) ∧
      t.regs = s.regs := by
  have hearly : s.tooEarly (d.val + 1) u = false := by
    unfold State.tooEarly
    cases hs : (s.domain (d.val + 1)).sentAt with
    | none => rfl
    | some a =>
      rw [hs, Option.all_some, decide_eq_true_eq] at ht
      exact decide_eq_false (Nat.not_lt.mpr ht)
  have hgo : ¬ (decide (s.domState (d.val + 1) < 2) || !s.uplCarries (s.getF (R.TIME_DOM_STAT_PORT d)) ||
      s.tooEarly (d.val + 1) u) = true := by
    rw [decide_eq_false (Nat.not_lt.mpr hd), hu, hearly]
    decide
  refine ⟨_, execPtpDelayReqSend_eq.trans (if_neg hgo), ?_⟩
  rw [← hx]
  obtain ⟨ho, hr⟩ := (s.advance u).setDomain_rest (d.val + 1)
    { s.domain (d.val + 1) with reqAt := some x, sentAt := some (max s.mtb u) }
  have hdom := (s.advance u).domain_setDomain_same (d.val + 1)
    { s.domain (d.val + 1) with reqAt := some x, sentAt := some (max s.mtb u) }
  exact ⟨congrArg (·.reqAt) hdom, congrArg (·.sentAt) hdom, congrArg (List.cons _) ho, hr⟩

theorem ptpDelayReqSend_waits (h : s.domState (d.val + 1) < 2 ∨ s.uplCarries (s.getF (R.TIME_DOM_STAT_PORT d)) = false ∨
    ((s.domain (d.val + 1)).sentAt = some a ∧ max s.mtb u < a + (s.domain (d.val + 1)).gap)) :
    Completes (.ptpDelayReqSend d u) s fun t => t = s.advance u := by
  have hstop : (decide (s.domState (d.val + 1) < 2) || !s.uplCarries (s.getF (R.TIME_DOM_STAT_PORT d)) ||
      s.tooEarly (d.val + 1) u) = true := by
    rw [Bool.or_eq_true, Bool.or_eq_true, decide_eq_true_eq, Bool.not_eq_true', or_assoc]
    refine h.imp id (Or.imp id ?_)
    rintro ⟨hs, hlt⟩
    rw [State.tooEarly, hs]
    exact decide_eq_true hlt
  exact ⟨_, execPtpDelayReqSend_eq.trans (if_pos hstop), rfl⟩

/-! ### The end of a frozen domain's wait (R129, R135) -/

/-- A domain that locks shows so. -/
theorem State.enterLocked_shown (hi : s.Inv) (d : Fin 2) : (s.enterLocked (d.val + 1)).Inv ∧
    (s.enterLocked (d.val + 1)).domState (d.val + 1) = 3 ∧ (s.enterLocked (d.val + 1)).isSet R.TIME_EVENT_LOCKED = true := by
  have h : ((s.setDomState (d.val + 1) 3).raise R.TIME_EVENT_LOCKED).Spares refFields [] (s.enterLocked (d.val + 1)) :=
    (State.Judged.locked (.refl refFields _) (List.Subset.refl _)).spares
  have hok : (R.TIME_DOM_STAT_STATE d).ok = true := (statFields_ok d).1
  obtain ⟨hrs, -, -, hls⟩ := statFields_apart d
  have hrl : ∀ g ∈ refFields, g.apart R.TIME_EVENT_LOCKED = true := by decide
  have hinv : ((s.setDomState (d.val + 1) 3).raise R.TIME_EVENT_LOCKED).Inv :=
    (State.raise_within (.refl [.regs, .notes] _) (by decide) _ (Or.inl (by decide))).inv ((s.setDomState_spares (d.val + 1) 3).inv hi)
  refine ⟨h.inv hinv, ?_, ?_⟩
  · refine (h.getF _ hok (fun g hg => hrs g (List.mem_append_left _ hg)) List.not_mem_nil hinv).trans ?_
    exact (State.getF_raise_ne _ _ _ (by decide) hok hls).trans (s.domState_setDomState d (by decide))
  · exact (h.isSet (f := R.TIME_EVENT_LOCKED) hinv (by decide) hrl List.not_mem_nil).trans
      (State.isSet_raise_same _ (by decide) rfl)

/-- A locked domain's offset corrects device time where it is the reference. -/
def State.servoed (s : State) (d : Nat) : State :=
  if s.getF R.TIME_STATE_SEL = d then (match s.domOffset d with | some q => s.correct q | none => s) else s

theorem execFreezeTimeout_ends (hd : s.domState (d.val + 1) = 4) (hr : (s.domain (d.val + 1)).refer = 0)
    (ht : (s.domain (d.val + 1)).frozenAt + s.getF R.TIME_CFG_FREEZE_S * secCyc ≤ max s.mtb u) :
    execFreezeTimeout d u s = .next (((s.advance u).enterLocked (d.val + 1)).servoed (d.val + 1)) := by
  refine (if_pos ⟨hd, hr, ht⟩).trans ?_
  generalize (s.advance u).enterLocked (d.val + 1) = w
  by_cases hsel : w.getF R.TIME_STATE_SEL = d.val + 1
  · rw [State.servoed, if_pos hsel, if_pos hsel]
    cases w.domOffset (d.val + 1) <;> rfl
  · rw [State.servoed, if_neg hsel, if_neg hsel]

theorem freezeTimeout_locks (hi : s.Inv) (hd : s.domState (d.val + 1) = 4) (hr : (s.domain (d.val + 1)).refer = 0)
    (ht : (s.domain (d.val + 1)).frozenAt + s.getF R.TIME_CFG_FREEZE_S * secCyc ≤ max s.mtb u) :
    Completes (.freezeTimeout d u) s fun t => t.domState (d.val + 1) = 3 ∧ t.isSet R.TIME_EVENT_LOCKED = true := by
  obtain ⟨hinv, hst, hev⟩ := State.enterLocked_shown (s := s.advance u) hi d
  refine ⟨_, execFreezeTimeout_ends hd hr ht, ?_⟩
  obtain ⟨hss, -⟩ := statFields_apart d
  have hsl : ∀ g ∈ servoFields, g.apart R.TIME_EVENT_LOCKED = true := by decide
  generalize (s.advance u).enterLocked (d.val + 1) = w at hinv hst hev
  have hservo : w.Judged servoFields (w.servoed (d.val + 1)) := by
    unfold State.servoed
    refine State.Judged.ite (fun _ => ?_) fun _ => .refl _ w
    split
    · exact State.Judged.correct (.refl _ w) (List.Subset.refl _) _
    · exact .refl _ w
  exact ⟨(hservo.spares.getF _ (statFields_ok d).1 (fun g hg => hss g (List.mem_append_right _ hg)) List.not_mem_nil
      hinv).trans hst, (hservo.spares.isSet (f := R.TIME_EVENT_LOCKED) hinv (by decide) hsl List.not_mem_nil).trans hev⟩

theorem freezeTimeout_waits (h : s.domState (d.val + 1) ≠ 4 ∨ (s.domain (d.val + 1)).refer ≠ 0 ∨
    max s.mtb u < (s.domain (d.val + 1)).frozenAt + s.getF R.TIME_CFG_FREEZE_S * secCyc) :
    Completes (.freezeTimeout d u) s fun t => t = s.advance u := by
  refine ⟨_, if_neg ?_, rfl⟩
  rintro ⟨hd, hr, ht⟩
  rcases h with h | h | h
  · exact h hd
  · exact h hr
  · exact absurd ht (Nat.not_le.mpr h)

end
end Sys2Proof.Machine

section
open Sys2Proof Sys2Proof.Machine

/-- Settles O14: a measured offset or delay is taken down, and the judgement of the domain that follows (`State.Judged`) writes to few
fields and loses nothing that was measured; an Announce or a loss sets the domain's state, which the choice of the reference leaves. -/
theorem ptpMessages : Obligations.PtpMessages := by
  unfold Obligations.PtpMessages
  intro s hi
  refine ⟨?_, ?_, ?_, ?_, ?_, ?_, ?_, ?_, ?_, ?_, ?_, ?_, ?_, ?_, ?_, ?_, ?_⟩
  · exact fun d p v g u hd h => ptpAnnounceRx_takes hi hd h
  · exact fun d p v g c u h => ptpAnnounceRx_ignored h
  · exact fun d p v x u h => ptpSyncRx_waits h x
  · exact fun d p v x y u h hy => ptpSyncRx_measures hi h hy
  · exact fun d p v b x u h => ptpSyncRx_ignored h
  · exact fun d p v x y z h hz hy => ptpFollowUpRx_measures hi h hz hy
  · exact fun d p v x h => ptpFollowUpRx_ignored h
  · exact fun d p v x y z i h hd hy hz => ptpDelayRespRx_measures h hd hy hz i
  · exact fun p v a u h => ptpPdelayReqRx_answers h
  · exact fun d p v x z u h hd hz => ptpPdelayRespRx_measures h hd hz
  · exact fun d u a hd hu ht ha => ptpDelayReqSend_sends hd hu ht ha
  · exact fun d u a h => ptpDelayReqSend_waits h
  · intro g
    cases g <;> exact ⟨_, rfl, rfl⟩
  · exact fun d hd => announceReceiptTimeout_loses hi hd
  · exact fun d hd => announceReceiptTimeout_stays hd
  · exact fun d u hd hr ht => freezeTimeout_locks hi hd hr ht
  · exact fun d u h => freezeTimeout_waits h

end
